-- ==== Sys2Proof/Word.lean ====
section
/-! DEFINITION. The word types of the model (R5: bit 0 of every field, register and record is its least
significant bit) and their plainest arithmetic. -/

namespace Sys2Proof

/-- One byte of memory, flash, an image or a frame. -/
abbrev Byte := BitVec 8

/-- One 16-bit field, an OZ16 number among them. -/
abbrev Half := BitVec 16

/-- One 32-bit register of register space (R10), an OZ32 number among them. -/
abbrev Word := BitVec 32

/-- One 64-bit address, counter or Bell number. -/
abbrev DWord := BitVec 64

end Sys2Proof
end

