-- ==== Sys2Proof/Syntax.lean ====
section
/-! DEFINITION. The commands of the block: one constructor for every row of spec/opcode_table.json, with what the
row's command carries. An operand is what comes from outside the module at that command: who writes a register
and what, a frame's contents, a sensor's reading, the outcome of a physical act, an upset of the silicon.
Readings and choices: log 2, 13, 14, 15, 144, 146. -/

namespace Sys2Proof

/-- Who makes a register access (R346, R482, R503, R572): a session of the control port by its SESSION number, the
anonymous session, a thread, or the test access port. -/
inductive Req where
  | session (id : Nat)
  | anonymous
  | thread (core thr : Nat)
  | tap
deriving DecidableEq, Repr, Inhabited

/-- Upsets that a command of an array meets (R109, R135, R530, R531): addresses of tiles whose first read fails
its checksum and whose second passes; accumulator bits turned, by row, column and mask; a drain residue that fails,
by row, with whether the second attempt fails too; rows whose checker sum P is upset; and whether the seal that the command
starts is still under way when the row ends (R184, R187). -/
structure ArrayUpset where
  badRead : List Nat := []
  flips : List (Nat × Nat × Word) := []
  residue : Option (Nat × Bool) := none
  chk : List Nat := []
  sealing : Bool := false
deriving DecidableEq, Repr, Inhabited

/-- The function whose queued enable is applied (R411). -/
inductive EnableOf where
  | context (ctx : Nat)
  | partition (ptn : Nat)
  | brine
deriving DecidableEq, Repr, Inhabited

/-- A command queue (R327): of a core's arrays, of its transfer engine, of a region's Press. -/
inductive QueueOf where
  | acd (core : Nat)
  | wcd (core : Nat)
  | pcd (press : Nat)
  | xfer (core : Nat)
deriving DecidableEq, Repr, Inhabited

/-- What an AMO does with memory and its operand (R316: extension A). -/
inductive AmoOp where
  | swap | add | xor | and_ | or_ | min | max | minu | maxu
deriving DecidableEq, Repr, Inhabited

/-- A memory access of a thread (R345): its kind, address and size in bytes, what it stores, the register that takes what it
loads; the active elements of a vector access, each with its index and its address; or `run`: the thread fetches the instruction at its
pc and executes it (R316, R325). -/
inductive MemAcc where
  | load (addr size : Nat) (signed : Bool) (rd : Nat)
  | fload (addr size rd : Nat)
  | store (addr size value : Nat)
  | amo (op : AmoOp) (addr size value rd : Nat)
  | lr (addr size rd : Nat)
  | sc (addr size value rd : Nat)
  | fetch (addr size : Nat)
  | vload (vd size : Nat) (elems : List (Nat × Nat))
  | vstore (vs size : Nat) (elems : List (Nat × Nat))
  | run
deriving DecidableEq, Repr, Inhabited

/-- Where a Roll-call operation comes from (R296): a thread of a core over the mesh, with the semaphore or barrier,
OPERAND, TIMEOUT and the register that takes the result, or a TOKEN frame that arrives at a port, its 32 bytes. -/
inductive TokSrc where
  | mesh (core thr sem operand timeout rd : Nat)
  | frame (port : Nat) (bytes : List Byte)
deriving DecidableEq, Repr, Inhabited

/-- A data frame of the fabric, after error correction (R428, R429): the fields of its header, its payload. -/
structure DataFrame where
  dtype : Nat := 1
  src : Nat := 0x3FF
  dst : Nat := 0x3FF
  ttl : Nat := 15
  lseq : Nat := 0
  pool : Nat := 0
  sendSeq : Nat := 0
  frameNo : Nat := 0
  validLen : Nat := 0
  last : Bool := false
  runahead : Bool := false
  ackLseq : Nat := 0
  nak : Bool := false
  credVc : Nat := 0
  hopCredit : Nat := 0
  vc : Nat := 0
  rsvd : Nat := 0
  payload : List Byte := []
deriving DecidableEq, Repr, Inhabited

/-- A frame of the control port after error correction (R477): the fields of its header and its payload. `rsvd` is what
its reserved fields hold; `fcrcOk` says that FCRC holds. -/
structure CptFrame where
  ftype : Nat := 0
  last : Bool := true
  nak : Bool := false
  credClass : Bool := false
  isSealed : Bool := false
  rsvd : Nat := 0
  fcrcOk : Bool := true
  seq : Nat := 0
  ackSeq : Nat := 0
  credit : Nat := 0
  tag : Nat := 0
  session : Nat := 0
  addr : Nat := 0
  arg : Nat := 0
  payload : List Byte := []
deriving DecidableEq, Repr, Inhabited

/-- A sealed generation as it comes from another module or leaves flash (R558, R559, R561, R564): what its directory entry says,
its sealed manifest and its sealed objects. -/
structure MirrorCopy where
  gen : Nat := 0
  lesson : Nat := 0
  nonce : List Byte := []
  digest : List Byte := []
  manifest : List Byte := []
  objs : List (List Byte) := []
deriving DecidableEq, Repr, Inhabited

/-- What becomes of a unit that a test finds (R575): it passes, is not run, is mended by a spare row, a spare column or a remapped
row, or nothing of these is free for it or its kind. -/
inductive TestFix where
  | pass | notRun | row | column | remap | none
deriving DecidableEq, Repr, Inhabited

/-- What a test finds at one unit (R570, R577): TEST, UNIT_KIND, UNIT, BANK, BIT, ADDR, EXPECT, OBTAINED, and the spare used. -/
structure TestRes where
  test : Nat := 1
  kind : Nat := 3
  unit : Nat := 0
  bank : Nat := 0
  bit : Nat := 0xFF
  addr : Nat := 0
  expect : Nat := 0
  obtained : Nat := 0
  spare : Nat := 0
  fix : TestFix := .pass
deriving DecidableEq, Repr, Inhabited

/-- What the parts outside its logic answer to a register access (R497, R521, R583): a fuse burn that verifies, the repair
records whose read-back fails; and the W1C bits that hardware sets in the cycle of the write (R7). -/
structure RegEnv where
  burn : Bool := true
  fuseFails : List Nat := []
  hwSet : Nat := 0
deriving DecidableEq, Repr, Inhabited

/-- What a start-up meets outside the module's logic (R594, R595): the SLOT_ID pins, the time to READY in ms, a rail (by order) that
does not reach tolerance, whether the PLL locks and the differential reference is there, memory channels (UNIT_KIND, UNIT) and fabric
lanes (port, lane) that fail calibration, and what quick BIST finds. -/
structure StartUp where
  slot : Nat := 63
  ms : Nat := 5706
  railFail : Option Nat := none
  pll : Bool := true
  refPresent : Bool := true
  calFail : List (Nat × Nat) := []
  laneFail : List (Nat × Nat) := []
  bist : List TestRes := []
deriving DecidableEq, Repr, Inhabited

/-- The commands, one constructor for each row of spec/opcode_table.json, in the table's order. -/
inductive Instr where
  /-- REGISTER_WRITE (R6). A write to a register that has no row of its own sets RW fields, clears W1C bits on a 1, and is checked for width, alignment, role and reserved bits. -/
  | registerWrite (who : Req) (off size value : Nat) (env : RegEnv)
  /-- SLV_CMD (R327). A thread copies a 64-byte ACD, WCD, PCD or XFER descriptor into the named queue, or enters WAIT_QUEUE when that queue is full. -/
  | slvCmd (core thr f7 rd addr : Nat)
  /-- QUEUE_POSITION_FREED (R328). A command queue frees a position, and the waiting thread with the lowest issue stamp puts its descriptor into it. -/
  | queuePositionFreed (q : QueueOf)
  /-- FWD_W4A8 (R112). The D-array starts a forward OZ4 by A8 product: it checks the descriptor, stages and checks the stationary tile, streams the rows and drains. -/
  | fwdW4a8 (core : Nat) (up : ArrayUpset)
  /-- BWD_G8W4 (R189). The D-array starts a backward data-gradient product over stage records: it seals or reads the stage, quantises to G8 on entry and drains. -/
  | bwdG8w4 (core : Nat) (up : ArrayUpset)
  /-- MM_A8A8 (R112). The D-array starts a symmetric A8 by A8 product in two passes, with masking by row tags. -/
  | mmA8a8 (core : Nat) (up : ArrayUpset)
  /-- MM_OZ16 (R117). The D-array starts an OZ16 by OZ16 product with the truncated product path, whey drains included. -/
  | mmOz16 (core : Nat) (up : ArrayUpset)
  /-- QUANT (R139). QUANT checks every amax entry count, then quantises held OZ16 rows into A8 tiles. -/
  | quant (core : Nat) (up : ArrayUpset)
  /-- COLSUM_BUILD (R131). COLSUM_BUILD computes a kind-0 tile's column-sum record and its CRC and writes both. -/
  | colsumBuild (core : Nat) (up : ArrayUpset)
  /-- NODE_ADD (R128). NODE_ADD adds pairs of OZ32 child tiles as one tree node and drains the sum. -/
  | nodeAdd (core : Nat) (up : ArrayUpset)
  /-- ROUTED_STATIONARY_DELIVERY (R119). The route leader issues its single read, and the bytes are replicated to each waiting member, which verifies the CRC on its own. -/
  | routedStationaryDelivery (core : Nat) (bad : List Nat) (up : ArrayUpset)
  /-- JOIN_BUFFER_READY (R173). A drain that waits on the join buffer proceeds once the row's READY bit is set or cleared, then adds or writes the adapter contribution. -/
  | joinBufferReady (core : Nat) (wcd : Bool) (up : ArrayUpset)
  /-- SEAL_WAIT_END (R187). A command that waits on a SEALING stage proceeds when it reads SEALED, or takes the seal over when the sealer's epoch has changed. -/
  | sealWaitEnd (core : Nat) (wcd : Bool) (up : ArrayUpset)
  /-- WFWD (R169). The W-array starts a forward adapter product: it resolves the row maps and staging entries and drains by role. -/
  | wfwd (core : Nat) (up : ArrayUpset)
  /-- WBWD_DATA (R201). The W-array starts an adapter data-gradient product over stage records, with the panels loaded transposed. -/
  | wbwdData (core : Nat) (up : ArrayUpset)
  /-- WBWD_GRAD (R202). The W-array starts an adapter weight-gradient reduction per staging entry and writes gradient panels with SQSUM. -/
  | wbwdGrad (core : Nat) (up : ArrayUpset)
  /-- CLAIM_SLOT (R156). A Vat port claims a free slot and validates the ID map entry for the adapter ID. -/
  | claimSlot (who : Req) (port slot ctx adapter addr units : Nat)
  /-- FETCH (R159). A Vat port starts an adapter fetch: the slot goes to FETCHING and a FETCH_REQ is sent on the control port. -/
  | fetch (who : Req) (port slot ctx sem : Nat)
  /-- CANCEL (R162). A Vat port cancels a running fetch, and the engine stops writing and starts the scrub. -/
  | cancel (who : Req) (port slot ctx sem : Nat)
  /-- CLAIM_EXPERT (R156). A Vat port validates an expert index table entry for a local expert of a resident kind-2 image. -/
  | claimExpert (who : Req) (port slot ctx idx layer loc : Nat)
  /-- RELEASE_EXPERT (R155). A Vat port releases an expert index table entry. -/
  | releaseExpert (who : Req) (port slot ctx idx layer loc : Nat)
  /-- STAGE (R165). A Vat port stages a resident image: the staging entry goes to PENDING and the copy into HBM starts. -/
  | stage (who : Req) (port slot ctx stg addr sem : Nat)
  /-- UNSTAGE (R165). A Vat port unstages an image, starting at once or at the next Lesson boundary when the entry is in use. -/
  | unstage (who : Req) (port slot ctx sem : Nat)
  /-- EVICT (R163). A Vat port evicts a slot: it invalidates the ID map entry, marks the slot EVICTING and starts the scrub; a corrupt record is handled by a table sweep instead. -/
  | evict (who : Req) (port slot ctx sem : Nat)
  /-- VAT_COPY_DONE (R165). A STAGE or UNSTAGE copy ends: the entry and the slot change state, and the port's semaphore increments. -/
  | vatCopyDone (slot : Nat)
  /-- VAT_SCRUB_DONE (R163). An EVICT or CANCEL scrub ends: the slot becomes FREE or CLAIMED, and the port's semaphore increments. -/
  | vatScrubDone (slot : Nat)
  /-- FETCH_DEADLINE (R161). The fetch deadline passes with the image incomplete: the engine scrubs, returns the slot to CLAIMED and raises ADAPTER_FETCH. -/
  | fetchDeadline (slot : Nat)
  /-- INIT (R230). The Press builds masters and zero moments from the working copy and sets the state block to step 0. -/
  | prsInit (press : Nat) (res : Option (Nat × Bool))
  /-- REDUCE (R231). The Press forms the trees over leaves and micro-batches and writes the step gradient and its norm-vector entries. -/
  | prsReduce (press : Nat) (res : Option (Nat × Bool))
  /-- NORM (R232). The Press unscales and clamps the step gradient and writes SQ_p. -/
  | prsNorm (press : Nat) (res : Option (Nat × Bool))
  /-- REDUCE_NORM (R221). The Press runs REDUCE and then NORM element by element, for G = 1. -/
  | prsReduceNorm (press : Nat) (res : Option (Nat × Bool))
  /-- APPLY (R233). The Press computes the step scalars, updates masters and moments, and re-derives the working copy. -/
  | prsApply (press : Nat) (res : Option (Nat × Bool))
  /-- CLOSE (R238). The Press ends the step: it advances T and P1, P2, folds DIFF_LOST into DIFF_BROKEN and writes the statistics and noise registers. -/
  | prsClose (press : Nat) (res : Option (Nat × Bool))
  /-- EXPORT (R242). The Press writes shard export records of the selected parts into the export ring. -/
  | prsExport (press : Nat) (res : Option (Nat × Bool))
  /-- BELL (R249). A Bell instant occurs: the Bell counter increments, the sub-Bell counter returns to 0, and BELL frames are emitted. -/
  | bell
  /-- BELL_FRAME_RECEIVE (R253). A BELL frame arrives from an upstream port, sets the compensated Bell instant, and can carry a start mark or a relock. -/
  | bellFrameReceive (port : Nat) (f : List Byte)
  /-- BELL_FRAME_MISSING (R260). An expected BELL frame does not arrive within ±16 cy, which after two Bells leads to a switch of stream, a deputy takeover or HOLDOVER. -/
  | bellFrameMissing (alt : Bool)
  /-- HOLDOVER_LIMIT (R261). The HOLDOVER limit passes with no stream: the module enters LOST, raises BELL_LOST and holds the partitions of Forms. -/
  | holdoverLimit
  /-- PLL_LOCK (R259). The PLL locks and delays are measured, so the module moves from LOCKING to WAIT_START and reports READY. -/
  | pllLock
  /-- DOMAIN_START_MARK (R259). The master, READY with every member covered, carries a start mark in 16 consecutive BELL frames. -/
  | domainStartMark
  /-- LOCAL_BELL_START (R257). With no domain, the local Bell starts at the first Bell instant after READY at which the PLL is locked to its source. -/
  | localBellStart
  /-- DELAY_MEASUREMENT (R254). Every 65,536 bl an upstream port sends a PROBE to measure its one-way delay. -/
  | delayMeasurement (alt : Bool) (t1 : Nat)
  /-- PROBE_RECEIVE (R290). A PROBE arrives and is answered with an ECHO that carries T2 and T3. -/
  | probeReceive (port : Nat) (f : List Byte) (t2 t3 : Nat)
  /-- ECHO_RECEIVE (R254). An ECHO arrives: the port computes D, and accepts, slews towards or discards it. -/
  | echoReceive (port : Nat) (f : List Byte) (t4 : Nat)
  /-- BELL_REF_LOSS (R606). No reference edge arrives for 1 µs: the reference is treated as absent and the PLL holds its frequency. -/
  | bellRefLoss
  /-- BELL_REF_RETURN (R606). The reference is taken again at the first Bell after its edges have been present for 1 ms. -/
  | bellRefReturn
  /-- GOVERNOR_BELL_AVERAGE (R274). 256 cy into a Bell, the average power of the previous Bell is compared with the cap, and the governor enters or leaves HOLD. -/
  | governorBellAverage (w : Nat)
  /-- TT_START (R282). The START command arms a loaded Timetable for a future Bell. -/
  | ttStart (who : Req) (p bell : Nat)
  /-- TT_STOP (R282). The STOP command moves a Timetable to STOPPING. -/
  | ttStop (who : Req) (p : Nat)
  /-- TT_RESUME (R277). The RESUME command restarts a HELD Timetable at a future Bell and shifts the later slots. -/
  | ttResume (who : Req) (p bell : Nat)
  /-- TIMETABLE_BEGIN (R282). An ARMED Timetable reaches its START Bell and becomes RUNNING with B0 set. -/
  | timetableBegin (p : Nat)
  /-- SLOT_START (R267). At a slot's START Bell the engine zeroes DONE_SEM and increments GO_SEM; a QUIZ slot also takes a core out of each cluster.
  `due` gives, for a spill pass, the rows due and the staging entries of each context that has rows. -/
  | slotStart (p i : Nat) (due : List (Nat × Nat × List Nat))
  /-- SLOT_DEADLINE (R276). A slot reaches its deadline Bell unfinished: SLOT_OVERRUN is raised and the overrun policy acts once per Lesson. -/
  | slotDeadline (p i : Nat)
  /-- LESSON_BOUNDARY (R262). A Lesson boundary Bell arrives: recess processing runs, repairs and spares apply, and the Lesson count advances. -/
  | lessonBoundary (p : Nat)
  /-- PARTITION_COMMANDS_ENDED (R628). The last running command of a partition ends, which lets a HELD stop, an aborted Lesson, a STOP or a teardown proceed. -/
  | partitionCommandsEnded (p : Nat)
  /-- PARTIAL_RELOAD_APPLY (R387). At the first Bell of Lesson APPLY_AT, a pending partial reload replaces routes, Timetable or recipe. -/
  | partialReloadApply (p : Nat)
  /-- SEM_READ (R297). A READ token returns a semaphore's value and flags. -/
  | semRead (src : TokSrc)
  /-- SEM_WRITE (R297). A WRITE token sets a semaphore's value and clears its flags. -/
  | semWrite (src : TokSrc)
  /-- SEM_ADD (R297). An ADD token adds to a semaphore with saturation and grants the waits that are now satisfied. -/
  | semAdd (src : TokSrc)
  /-- WAIT_GE (R297). A WAIT_GE token is granted at once or enters the wait table. -/
  | waitGe (src : TokSrc)
  /-- ACQUIRE (R302). An ACQUIRE token reserves a hold entry and either takes units or waits. -/
  | acquire (src : TokSrc)
  /-- RELEASE (R302). A RELEASE token adds units back and frees hold units. -/
  | release (src : TokSrc)
  /-- ARRIVE (R305). An ARRIVE token counts barrier arrivals and completes or reports the generation. -/
  | arrive (src : TokSrc)
  /-- WAIT_GEN (R297). A WAIT_GEN token waits until the barrier's generation changes. -/
  | waitGen (src : TokSrc)
  /-- BAR_RELEASE (R305). A BAR_RELEASE from a parent barrier completes a non-root barrier's generation. -/
  | barRelease (src : TokSrc)
  /-- WAIT_TIMEOUT (R251). A wait's deadline stamp passes, so it is answered TIMEOUT and its reservation is freed. -/
  | waitTimeout (k : Nat)
  /-- REPLY_RECEIVE (R313). A REPLY arrives at the requester and completes its request, or is dropped as stale. -/
  | replyReceive (port : Nat) (f : List Byte)
  /-- TOKEN_LOST (R300). A remote request has had no REPLY within TIMEOUT plus REPLY_LIMIT, so it completes LOST. -/
  | tokenLost (rtag : Nat)
  /-- CREDIT_RECEIVE (R307). A CREDIT frame returns credits to a pool, with checks for a foreign context and for overflow. -/
  | creditReceive (port : Nat) (f : List Byte)
  /-- SEND_CREDITS_AVAILABLE (R306). A send that waits for pool credits proceeds once its pool holds enough. -/
  | sendCreditsAvailable (pool : Nat)
  /-- RETRACT_RECEIVE (R310). A RETRACT arrives and, at or before V, discards the held run-ahead tile and returns its credits. -/
  | retractReceive (port : Nat) (f : List Byte)
  /-- RUNAHEAD_VERDICT (R308). At verdict stamp V with no retraction, a run-ahead tile becomes readable and its semaphore increments. -/
  | runaheadVerdict (src pool seq : Nat)
  /-- STATUS_FRAME_SEND (R288). A STATUS MODULE or PARTITION frame is sent periodically or within 1 bl of a change. -/
  | statusFrameSend (ptn : Option Nat)
  /-- STATUS_FRAME_RECEIVE (R288). A STATUS frame from a neighbour is taken in, with readiness for the domain start and a check of AT_BELL. -/
  | statusFrameReceive (port : Nat) (f : List Byte)
  /-- EPOCH_RECEIVE (R312). An EPOCH frame announces a bank's new epoch, and outstanding requests to it complete with ABORT_RESET. -/
  | epochReceive (port : Nat) (f : List Byte)
  /-- SLV_CRC_RAW (R329). A thread computes CRC-32C over a byte range. -/
  | slvCrcRaw (core thr rd addr len : Nat)
  /-- SLV_CRC_TCHK (R329). A thread checks a tile's CRC and header. -/
  | slvCrcTchk (core thr rd addr : Nat)
  /-- SLV_CRC_TGEN (R329). A thread computes and writes a tile's canonical CRC. -/
  | slvCrcTgen (core thr rd addr : Nat)
  /-- SLV_VCVT (R330). A thread converts vector elements between formats and counts the numeric events. -/
  | slvVcvt (core thr vd vs2 code : Nat)
  /-- SLV_VFN (R331). A thread evaluates f or f′ on OZ16 vector elements. -/
  | slvVfn (core thr vd vs2 f7 : Nat)
  /-- SLV_RC (R332). A thread issues a Roll-call operation and waits for its reply. -/
  | slvRc (core thr rd rs1 rs2 : Nat)
  /-- SLV_BWAIT_UNTIL (R333). A thread sleeps until cycle 0 of a given Bell. -/
  | slvBwaitUntil (core thr rd bell : Nat)
  /-- BWAIT_WAKE (R333). The awaited Bell begins and the sleeping thread resumes with the stamp. -/
  | bwaitWake (core thr : Nat)
  /-- SLV_BWAIT_SEMWAIT (R333). A thread waits on a local semaphore with a Bell deadline. -/
  | slvBwaitSemwait (core thr rd bell rs2 : Nat)
  /-- SLV_LAUNCH (R335). A thread places a group on a free core, fails at once, or joins the launch queue. -/
  | slvLaunch (core thr rd addr : Nat)
  /-- LAUNCH_PLACED (R336). A queued launch is placed once a core becomes free. -/
  | launchPlaced (p : Nat)
  /-- SLV_EXIT (R338). A thread exits, and the group-end add follows when it was the group's last thread. -/
  | slvExit (core thr : Nat)
  /-- THREAD_MEMORY_ACCESS (R345). A thread load, store, AMO or fetch is checked against windows and line tags and performed or faulted. -/
  | threadMemoryAccess (core thr len : Nat) (a : MemAcc)
  /-- THREAD_TRAP (R321). A thread takes a precise trap to mtvec, or halts when mtvec is 0 in M-mode. -/
  | threadTrap (core thr cause tval : Nat)
  /-- SLVCTX_WRITE (R320). An M-mode write to SLVCTX sets the thread's context. -/
  | slvctxWrite (core thr value : Nat)
  /-- SYLLABUS_LOAD (R381). LOAD checks a Syllabus image in order and brings it into force or rejects it, with a journal entry. -/
  | syllabusLoad (who : Req) (len : Nat)
  /-- SYLLABUS_CANCEL (R387). CANCEL removes a pending partial reload, or is refused TOO_LATE. -/
  | syllabusCancel (who : Req) (p : Nat)
  /-- OH_BASE (R391). Open house checks the base, writes strips and column sums, and sets Rind. -/
  | ohBase (who : Req) (bytes : Nat)
  /-- OH_DATA (R391). Open house appends token IDs to the token buffer. -/
  | ohData (who : Req) (count : Nat)
  /-- OH_TRAIN (R393). Open house trains the built-in rank-8 adapter for a number of steps. -/
  | ohTrain (who : Req) (steps seqLen seed adapter : Nat)
  /-- OH_EVAL (R391). Open house computes the mean loss over a range of tokens. -/
  | ohEval (who : Req) (first count : Nat)
  /-- OH_RESULT (R395). Open house returns the location of the trained adapter image. -/
  | ohResult (who : Req)
  /-- OH_CLEAR (R391). Open house stops, tears down all state through Brine, and returns to EMPTY. -/
  | ohClear (who : Req)
  /-- PTN_TEARDOWN (R412). TEARDOWN stops the Timetable, detaches contexts, and deallocates and scrubs the partition. -/
  | ptnTeardown (who : Req) (p : Nat)
  /-- PTN_HOLD (R399). HOLD sets the OPERATOR hold cause. -/
  | ptnHold (who : Req) (p : Nat)
  /-- PTN_RELEASE (R399). RELEASE clears the hold causes that allow it. -/
  | ptnRelease (who : Req) (p : Nat)
  /-- ATTACH (R401). ATTACH moves a KEYED context to ATTACHING. -/
  | attach (who : Req) (p c seat : Nat)
  /-- PREEMPT (R407). PREEMPT moves a context to PREEMPTING and arms the bound at the next Bell. -/
  | preempt (who : Req) (p c : Nat)
  /-- RESUME (R401). RESUME moves a SWAPPED or restored context to RESUMING. -/
  | resume (who : Req) (p c seat : Nat)
  /-- DETACH (R410). DETACH starts a context's departure, quiet period and scrub. -/
  | detach (who : Req) (p c : Nat)
  /-- CTX_CANCEL (R401). CANCEL returns a pending context change to its prior state. -/
  | ctxCancel (who : Req) (p c : Nat)
  /-- REBIND (R401). REBIND records a seat change for the next recess point. -/
  | rebind (who : Req) (p c seat : Nat)
  /-- PREEMPT_BOUND_EXPIRY (R407). At Bell CTX_BOUND a context that has not left has its holds revoked and enters RESTART. -/
  | preemptBoundExpiry (c : Nat)
  /-- LANDING_QUIET (R410). A detaching context's landing buffers have been quiet for 2 bl, so it enters SCRUBBING. -/
  | landingQuiet (c : Nat)
  /-- ENABLE_QUEUED_APPLY (R411). A queued enable is applied at the next Bell after its function has rested a whole Bell in its end state. -/
  | enableQueuedApply (f : EnableOf)
  /-- BASE_COMMIT (R420). BASE_COMMIT queues a base job that checks the base table and tiles, builds strips and column sums, and sets Rind. -/
  | baseCommit (who : Req) (base : Nat)
  /-- BASE_TEARDOWN (R421). BASE_TEARDOWN scrubs a base window and removes its Rind. -/
  | baseTeardown (who : Req) (base : Nat)
  /-- BRINE_ENABLE (R424). ENABLE turns the Brine engine on, or is queued while it is disabling. -/
  | brineEnable (who : Req)
  /-- BRINE_DISABLE (R424). DISABLE finishes the current burst and turns Brine off. -/
  | brineDisable (who : Req)
  /-- BRINE_JOB_START (R417). Brine takes the next due scrub or base job and emits a scrub-start event. -/
  | brineJobStart
  /-- BRINE_JOB_END (R417). A Brine job ends: the context becomes FREE, the partition OFF, or the base job answers. -/
  | brineJobEnd
  /-- BRINE_DISABLED (R424). The burst in progress at DISABLE ends and the engine enters OFF. -/
  | brineDisabled
  /-- PORT_LIGHT (R435). Light reaches a DARK port's sync lane, and training begins. -/
  | portLight (port : Nat)
  /-- PORT_TRAINING_DONE (R435). Training ends with the port UP, DEGRADED or DOWN. -/
  | portTrainingDone (port pass lmn role : Nat)
  /-- PORT_RETRY (R435). A DOWN port retries training every 1 ms. -/
  | portRetry (port : Nat)
  /-- DATA_FRAME_RECEIVE (R430). A data frame is decoded, then acted on: forwarded, delivered, replayed or dropped. -/
  | dataFrameReceive (port : Nat) (frame : Option DataFrame) (corrected : Nat)
  /-- LINK_FRAME_RECEIVE (R436). A LINK frame names a failed lane, and both ends move it onto the spare. -/
  | linkFrameReceive (port : Nat) (f : DataFrame) (lane : Nat)
  /-- LANE_FAILURE (R436). A data lane loses signal or exceeds its error rate and is declared failed. -/
  | laneFailure (port : Nat) (lanes : List Nat)
  /-- SYNC_LANE_FAILURE (R437). The sync lane fails and the spare takes it over, or the port degrades or goes down. -/
  | syncLaneFailure (port : Nat) (fibre : Bool)
  /-- PORT_SYNC_LOSS (R445). After 16 missing sync frames the port goes DOWN, and requests routed through it abort. -/
  | portSyncLoss (port : Nat)
  /-- FAB_PT_ENABLE (R439). ENABLE brings a port to DARK, or is queued while it drains. -/
  | fabPtEnable (who : Req) (port : Nat)
  /-- FAB_PT_DISABLE (R439). DISABLE moves a port to DRAINING. -/
  | fabPtDisable (who : Req) (port : Nat)
  /-- FAB_PT_RETRAIN (R439). RETRAIN moves a port to TRAINING. -/
  | fabPtRetrain (who : Req) (port : Nat)
  /-- PORT_DRAIN_END (R439). A draining port finishes its frames and enters OFF. -/
  | portDrainEnd (port : Nat)
  /-- FAB_TAKEOVER (R447). A spare checks a takeover request for an LMN it covers. -/
  | fabTakeover (who : Req) (lmn : Nat)
  /-- TAKEOVER_APPLY (R447). At the next Bell the spare assumes the LMN and buddy and becomes a member. -/
  | takeoverApply
  /-- FAB_MAP_SEL_APPLY (R450). A written SEL takes effect at the next Bell, routing by PS. -/
  | fabMapSelApply (n : Nat)
  /-- XFER_SEND (R457). The transfer engine sends a range with a send header, taking pool credits. -/
  | xferSend (core : Nat)
  /-- XFER_FETCH (R460). The engine asks a server to send a range. -/
  | xferFetch (core : Nat)
  /-- XFER_COPY (R455). The engine copies a local range, rewriting the panel owner. -/
  | xferCopy (core : Nat)
  /-- XFER_NODE (R461). The engine adds gradient panels as a tree node. -/
  | xferNode (core : Nat)
  /-- XFER_DIGEST (R455). The engine writes a SHAKE256 digest of a range. `rc` is what the owner of replicas compares with it. -/
  | xferDigest (core : Nat)
  /-- XFER_RETRACT (R309). The engine retracts a run-ahead send, or the retraction is refused TOO_LATE. -/
  | xferRetract (core : Nat)
  /-- SEND_COMPLETE (R459). A send's last frame is acknowledged on the first hop, or the port falls, so the XFER completes. -/
  | sendComplete (lmn pool seq : Nat)
  /-- SEND_LANDING (R458). A receiver checks an arriving send, lands it and increments REMOTE_SEM. -/
  | sendLanding (src pool seq : Nat)
  /-- SEND_PARTIAL_TIMEOUT (R459). A partly landed send sees no frame for 256 bl and is discarded. -/
  | sendPartialTimeout (src pool seq : Nat)
  /-- FETCH_REQ_SERVE (R460). A server serves a queued fetch request as a send, or refuses it. -/
  | fetchReqServe
  /-- CPT_LIGHT (R481). Light reaches the control port, and it trains to UP. -/
  | cptLight (outcome : Option Bool)
  /-- CPT_LINK_DOWN (R481). 16 missing frames move the control port to DOWN. -/
  | cptLinkDown
  /-- CPT_RETRY (R481). A DOWN control port retries training every 1 ms. -/
  | cptRetry (outcome : Option Bool)
  /-- REG_REQ (R482). A REG_REQ frame performs up to 32 register accesses in order and is answered. -/
  | regReq (f : CptFrame) (env : RegEnv)
  /-- BULK_WR (R484). A bulk write is checked, decrypted when sealed, written, and answered. -/
  | bulkWr (f : CptFrame)
  /-- BULK_RD_REQ (R486). A bulk read is checked and answered with data frames, sealed unless in open house. -/
  | bulkRdReq (f : CptFrame)
  /-- FETCH_DATA (R487). A fetch data frame is matched, decrypted and written; the LAST frame completes the fetch. -/
  | fetchData (f : CptFrame) (seq : Nat)
  /-- FETCH_CTL (R488). A refusal from the node fails the fetch as unknown. -/
  | fetchCtl (f : CptFrame)
  /-- AUTH_HELLO (R501). A HELLO leads to a CHALLENGE, or is refused. -/
  | authHello (f : CptFrame)
  /-- AUTH_PROOF (R501). A PROOF is verified, and a GRANT opens a session or reports the failure. -/
  | authProof (f : CptFrame)
  /-- AUTH_CLOSE (R502). CLOSE ends a session. -/
  | authClose (f : CptFrame)
  /-- AUTH_CHALLENGE_DELAYED (R502). After a failed PROOF, a held CHALLENGE is sent once 1 ms has passed. -/
  | authChallengeDelayed (tag : Nat)
  /-- RECOVER_FRAME (R494). In RECOVERY, image bytes are received and the last frame triggers verification. -/
  | recoverFrame (f : CptFrame)
  /-- RECOVERY_RESET (R494). 1 ms after a recovery image is accepted, a module reset occurs. -/
  | recoveryReset (u : StartUp)
  /-- EVENT_SEND (R490). Queued event records are sent in EVENT frames and removed on acknowledgement. -/
  | eventSend
  /-- BELL_MARK (R493). Every 1,024 bl a BELL_MARK frame is sent. -/
  | bellMark
  /-- CPT_REF_LOST (R493). The recovered reference from the control port is lost, and the PLL holds. -/
  | cptRefLost
  /-- ADVANCE (R497). ADVANCE burns the next life-cycle state. -/
  | advance (who : Req) (target : Nat) (burn : Bool)
  /-- KEY_SET (R500). KEY_SET writes a role key slot. -/
  | keySet (who : Req) (role slot : Nat) (key : List Byte)
  /-- KEY_CLEAR (R500). KEY_CLEAR empties a role key slot. -/
  | keyClear (who : Req) (role slot : Nat)
  /-- LEDGER_STORE (R506). STORE writes the settings, and optionally the module Syllabus, to the other bank. -/
  | ledgerStore (who : Req) (syl : Bool)
  /-- JRN_ACK (R510). JRN_ACK raises the acknowledged journal SEQ. -/
  | jrnAck (who : Req) (seq : Nat)
  /-- FW_FLOOR (R521). FW_FLOOR raises the fused firmware floor. -/
  | fwFloor (who : Req) (burn : Bool)
  /-- LCS_RECOVER (R522). RECOVER performs a module reset into RECOVERY. -/
  | lcsRecover (who : Req) (u : StartUp)
  /-- QUOTE_MODULE (R512). A module quote is produced with a fresh encapsulation key. -/
  | quoteModule (who : Req) (nonce : List Byte)
  /-- QUOTE_PARTITION (R512). A partition quote is produced with a fresh encapsulation key. -/
  | quotePartition (who : Req) (p : Nat) (nonce : List Byte)
  /-- KEY_RELEASE (R516). A key release record is checked and decapsulated, and loads a context or base slot. -/
  | keyRelease (who : Req) (record : List Byte)
  /-- EK_DROP (R514). EK_DROP discards the held decapsulation keys of a partition or of module quotes. -/
  | ekDrop (who : Req) (p : Nat) (module : Bool)
  /-- EK_EXPIRY (R514). A decapsulation key reaches SEC_EK_TTL and is dropped. -/
  | ekExpiry
  /-- MEMORY_PATROL (R527). The controller patrol reads words, corrects them and reports uncorrectable ones. -/
  | memoryPatrol (ups : List (Nat × Bool)) (addr n : Nat)
  /-- CHECKER_RERUN_START (R533). A re-run starts on a qualifying core, which copies A_before and re-reads the operands. -/
  | checkerRerunStart (core : Nat)
  /-- CHECKER_RERUN_DONE (R532). A re-run ends and the decision stands, replaces, runs again or ends NO_MAJORITY. -/
  | checkerRerunDone (core : Nat) (up : ArrayUpset)
  /-- DECISION_DEADLINE (R533). A pending decision reaches its slot deadline and ends NO_MAJORITY. -/
  | decisionDeadline (core : Nat)
  /-- QUIZ_COMPLETE (R539). A quiz ends clean or failed, and detention or retirement follows. -/
  | quizComplete (phys : Nat) (fail : Option (Nat × Nat × Nat × Nat))
  /-- QUIZ_DUE (R538). A core's quiz becomes overdue, or is chosen at a Bell outside a running Timetable. -/
  | quizDue (cluster : Nat)
  /-- FAULT_LOG_FLUSH (R546). At the end of a Bell or interval, waiting fault records are queued as events. -/
  | faultLogFlush
  /-- INT_ACK (R547). INT_ACK clears MODULE_FAULT. -/
  | intAck (who : Req)
  /-- SNP_ARM (R553). ARM checks and arms a context's snapshot plan. -/
  | snpArm (who : Req) (ctx plan : Nat)
  /-- SNP_DISARM (R569). DISARM disarms a context's plan. -/
  | snpDisarm (who : Req) (ctx : Nat)
  /-- CAPTURE_NOW (R554). CAPTURE_NOW sets a pending capture for the next trigger. -/
  | captureNow (who : Req) (ctx : Nat)
  /-- SNP_RESTORE (R564). RESTORE starts restoring a context from its newest valid generation. -/
  | snpRestore (who : Req) (ctx lesson arg2 upTo : Nat)
  /-- SNP_DELETE (R569). DELETE frees a generation's local copy. -/
  | snpDelete (who : Req) (ctx gen : Nat)
  /-- SNP_QUERY (R569). QUERY returns the context's generations. -/
  | snpQuery (who : Req) (ctx : Nat)
  /-- CAPTURE_COPY_DONE (R556). A capture copy ends and the drain to flash begins. -/
  | captureCopyDone (ctx : Nat)
  /-- SNAPSHOT_COMMIT (R559). The drain finishes, the directory entry is written, and old generations are freed. -/
  | snapshotCommit (ctx : Nat)
  /-- MIRROR_ACK (R561). A buddy acknowledgement arrives, and the next 64 MiB of the mirror is sent. -/
  | mirrorAck (src pool seq : Nat)
  /-- MIRROR_TIMEOUT (R561). No mirror acknowledgement arrives for 65,536 bl, so SNAP_MIRROR is raised. -/
  | mirrorTimeout (ctx : Nat)
  /-- MIRROR_RECEIVE (R561). A buddy stores an arriving mirror send in its MIRROR area. -/
  | mirrorReceive (src pool seq : Nat) (copy : Option MirrorCopy)
  /-- RESTORE_COMPLETE (R565). A restore finishes, succeeding or ending NO_VALID. -/
  | restoreComplete (ctx : Nat) (bad : List (Nat × Nat)) (mirror : List MirrorCopy)
  /-- RUN_QUICK (R571). The maker starts quick BIST on named regions. -/
  | runQuick (who : Req) (regions : Nat)
  /-- RUN_FULL (R584). The maker starts the full test. -/
  | runFull (who : Req) (regions : Nat)
  /-- LOOP_FAR (R584). The maker starts the far-loopback link test. -/
  | loopFar (who : Req) (ports : Nat)
  /-- FUSE (R583). FUSE makes applied repairs permanent. -/
  | fuse (who : Req) (fails : List Nat)
  /-- REGION_BIST_END (R573). A region ends full-power BIST and the next region is admitted. -/
  | regionBistEnd (region : Nat) (results : List TestRes)
  /-- TEST_RUN_END (R576). A test run ends and writes its result records. -/
  | testRunEnd (results : List TestRes)
  /-- TAP_RESET (R572). The TAP resets at power good or after TMS is held high. -/
  | tapReset
  /-- EXTEST (R572). The TAP runs EXTEST. -/
  | extest (pins cells : Nat)
  /-- SAMPLE_PRELOAD (R572). The TAP runs SAMPLE/PRELOAD. -/
  | samplePreload (pins cells : Nat)
  /-- CLAMP (R572). The TAP runs CLAMP. -/
  | clamp
  /-- HIGHZ (R572). The TAP runs HIGHZ. -/
  | highz
  /-- REG_ACCESS (R572). The TAP performs one register access at Update-DR. -/
  | regAccess (access : Nat) (env : RegEnv)
  /-- BYPASS (R572). The TAP runs BYPASS. -/
  | bypass
  /-- POWER_INPUT_APPLIED (R589). The input is applied and the hot-swap controller charges the input capacitance. -/
  | powerInputApplied (vin : Int) (bounce : Bool)
  /-- POWER_GOOD (R593). Power good is reached and start-up runs its nine steps to READY. -/
  | powerGood (u : StartUp)
  /-- INPUT_SAMPLE (R592). Every 10 µs the input is sampled, and range flags or an emergency shutdown follow. -/
  | inputSample (vin : Int) (iin : Nat)
  /-- RAIL_FAULT (R591). A rail leaves tolerance for 20 µs, leading to an emergency shutdown. -/
  | railFault (order : Nat)
  /-- THERMAL_SAMPLE (R601). Every 64 bl the sensors are read, leading to a warn, a warn end or a trip. -/
  | thermalSample (temps : List Nat)
  /-- MOD_RESET_N_ASSERT (R600). MOD_RESET_N held low holds all but VAO in reset. -/
  | modResetNAssert (us : Nat) (taken : Bool)
  /-- MOD_RESET_N_RELEASE (R600). The release of MOD_RESET_N starts a module reset. -/
  | modResetNRelease (u : StartUp)
  /-- RESET_MODULE (R597). MOD_RST MODULE resets the whole module with the rails up. -/
  | resetModule (who : Req) (u : StartUp)
  /-- RESET_WARM (R597). MOD_RST WARM runs start-up steps 6–9 and keeps shadow settings. -/
  | resetWarm (who : Req) (u : StartUp)
  /-- RESET_DIE (R597). MOD_RST DIE resets one die. -/
  | resetDie (who : Req) (target : Nat) (u : StartUp)
  /-- RESET_REGION (R597). MOD_RST REGION resets one region and its Press. -/
  | resetRegion (who : Req) (target : Nat)
  /-- RESET_CORE (R597). MOD_RST CORE resets one numbered core. -/
  | resetCore (who : Req) (target : Nat)
  /-- RESET_BANK (R312). MOD_RST BANK resets a Roll-call bank and sends EPOCH frames. -/
  | resetBank (who : Req) (target : Nat)
  /-- RESET_DEFERRED_START (R537). A reset deferred to 4 bl after the previous one starts. -/
  | resetDeferredStart (kind target : Nat)
  /-- RESET_COMPLETE (R597). A die, region or X-die reset finishes its BIST, and the unit is READY again. -/
  | resetComplete (kind target : Nat) (results : List TestRes)
  /-- ENTDAA (R607). I3C ENTDAA assigns a dynamic address. -/
  | entdaa (addr : Nat)
  /-- RSTDAA (R607). I3C RSTDAA resets the dynamic address. -/
  | rstdaa
  /-- SETNEWDA (R607). I3C SETNEWDA sets a new dynamic address. -/
  | setnewda (addr new : Nat)
  /-- GETPID (R607). I3C GETPID returns the provisioned ID. -/
  | getpid (addr : Nat)
  /-- GETBCR (R607). I3C GETBCR returns BCR. -/
  | getbcr (addr : Nat)
  /-- GETDCR (R607). I3C GETDCR returns DCR. -/
  | getdcr (addr : Nat)
  /-- GETSTATUS (R607). I3C GETSTATUS returns status. -/
  | getstatus (addr : Nat)
  /-- ENEC (R607). I3C ENEC enables the in-band interrupt. -/
  | enec (addr : Option Nat)
  /-- DISEC (R607). I3C DISEC disables the in-band interrupt. -/
  | disec (addr : Option Nat)
  /-- SETMRL (R607). I3C SETMRL sets the maximum read length. -/
  | setmrl (addr : Option Nat) (len : Nat)
  /-- GETMRL (R607). I3C GETMRL returns the maximum read length. -/
  | getmrl (addr : Nat)
  /-- I3C_PRIVATE_WRITE (R607). A one-byte private write sets the management register pointer. -/
  | i3cPrivateWrite (addr : Nat) (bytes : List Byte)
  /-- I3C_PRIVATE_READ (R608). A private read returns management bytes from the pointer. -/
  | i3cPrivateRead (addr len : Nat)
  /-- CPT_IDLE_FRAME_RECEIVE (R490). An IDLE or LINK frame from the node arrives carrying ACK_SEQ, NAK and CREDIT, which remove acknowledged event records, start replay or return buffer credits. -/
  | cptIdleFrameReceive (frame : Option CptFrame)
  /-- SYNC_FRAME_FORWARD (R287). An intermediate module forwards a TOKEN, REPLY, CREDIT or RETRACT frame by cut-through, decrementing TTL, or drops it at TTL 0. -/
  | syncFrameForward (port : Nat) (f : List Byte)
  /-- MIRROR_READ (R564). A buddy receives a MIRROR_READ send and returns the sealed generation it holds for the source LMN and context. -/
  | mirrorRead (src pool seq gen : Nat)
  /-- LANDING_SPACE_RELEASE (R306). The consumer releases landing space, and the receiver returns the credits in CREDIT frames within 64 cy. -/
  | landingSpaceRelease (src pool seq : Nat)
  /-- SNAPSHOT_ENGINE_READY (R562). The snapshot engine finishes reading its directory and freeing orphan extents and sets SNP_STATUS.READY, after which commands are no longer answered BUSY. -/
  | snapshotEngineReady
deriving DecidableEq, Repr

end Sys2Proof
end

