-- ==== Sys2Proof/Config.lean ====
section
/-! DEFINITION. What the manual leaves to the device and no rule fixes: free values. Each is an opaque constant,
so no proof can see what it is and a statement holds whatever it is.
Readings and choices: log 6, 7, 8, 13, 16, 18, 36, 54, 64, 74, 99, 131, 134, 150, 161. -/

namespace Sys2Proof.Config

/-- Byte `i` of the `n`-th free draw: the module's random generators (nonces, session numbers, keys it generates,
scrub keys, encapsulation keys), and every other value the manual leaves open. The state's counter `fresh`
gives `n`. -/
opaque random : (n i : Nat) → Byte

/-- The byte that a read under one key finds in a unit of memory written under another: AES-256-XTS noise
(R413, R519), a function of both keys, the address and the byte stored. -/
opaque wrongKey : (readKey writeKey : List Byte) → (addr : Nat) → (stored : Byte) → Byte

/-- FLAGS (bits 35-32) and VALUE of the answer to an operation that was not performed (R298): FOREIGN, ABORT_RESET, LOST.
R297 gives those that hold after an operation, and no rule says what such an answer carries. -/
opaque openReply : (status named stamp : Nat) → BitVec 36

/-- OFFSET of the BELL frame that a port sends at a Bell (R253, R289): the Bell instant after the frame's first bit. -/
opaque bellOffset : (bell port : Nat) → BitVec 16

/-- What the module's Bell has drifted in HOLDOVER against the stream that returns, in 1/16 cy (R261): the PLL's, and open. -/
opaque holdoverDrift : (bell : Nat) → BitVec 16

/-- The row, and the bank, of an SRAM or DRAM word in its macro or device (R578): the places of rows in the address space
are open. -/
opaque memRow : (addr : Nat) → Nat
opaque memBank : (addr : Nat) → Nat

/-- The bytes of an uncorrectable word as an engine reads them (R528): what they are is open. -/
opaque uncorrectable : (addr : Nat) → (stored : Byte) → Byte

/-- The syndrome of a word in error, and the bit that was corrected in it, as the fault's record gives them (R545): no rule gives the
code's matrix, and which bit has failed is open. -/
opaque syndrome : (addr : Nat) → Nat
opaque failedBit : (addr : Nat) → Nat

/-- The index of the first pattern that differs in a quiz's set, as the fault's record gives it (R545), by the record's number. -/
opaque patternIndex : (seq : Nat) → BitVec 32

/-- The OZ16 element that index `k` of a W-array command's K range finds past the 128 columns of its row tile (R168): R168 permits 64
panel rows and names one row tile, and no rule says where the rest lies. It is a function of the row's own values, so that
no result depends on where a tile lies (R99). -/
opaque beyondTile : (row : List (BitVec 16)) → (k : Nat) → BitVec 16

/-- ML-DSA-65 verification in its pure form under FIPS 204: public key, message, context string, signature. -/
opaque mldsaVerify : (key msg ctx sig : List Byte) → Bool

/-- ML-DSA-65 signature by a private key. -/
opaque mldsaSign : (priv msg ctx : List Byte) → List Byte

/-- The public key of a private key under FIPS 204. -/
opaque mldsaPublic : (priv : List Byte) → List Byte

/-- The ML-KEM-768 encapsulation key of a seed, and the shared secret that a decapsulation gives (FIPS 203). -/
opaque mlkemPublic : (seed : List Byte) → List Byte
opaque mlkemDecaps : (seed ct : List Byte) → List Byte

/-- AES-256-GCM: the ciphertext and tag of a plaintext, and the plaintext where the tag verifies. -/
opaque gcmSeal : (key nonce aad plain : List Byte) → List Byte
opaque gcmOpen : (key nonce aad sealed : List Byte) → Option (List Byte)

/-- Byte `i` of the test content region of flash (R378, R550), which the factory writes. -/
opaque testContent : (i : Nat) → Byte

/-- The firmware image that the factory leaves in flash (R521). -/
opaque factoryFirmware : List Byte

/-- SI_REV and the maker's firmware public key of a firmware image: parts of it whose places the manual leaves open (R521). -/
opaque fwSiRev : (image : List Byte) → Nat
opaque fwKey : (image : List Byte) → List Byte

/-- The fused SHAKE256 digests of the maker's keys (R500). -/
opaque makerDigests : List (List Byte)

/-- The loss and GNORM2 of step `k` of an OH_TRAIN run, the adapter's values after it by entry, panel and element, and the mean
loss of an OH_EVAL, as OZ32 and OZ16 bits (R391-R395): functions of the base, the tokens and the arguments that the manual does
not reduce to stated operations. -/
opaque ohLoss : (run k : Nat) → BitVec 32
opaque ohGnorm : (run k : Nat) → BitVec 32
opaque ohValue : (run step entry panel k : Nat) → BitVec 16
opaque ohEval : (run : Nat) → BitVec 32

/-- The random stream keyed by SEED, as 64-bit fractions of 1, by entry, panel and element: its generator and its order are not in
the manual (R393). -/
opaque ohUniform : (seed entry panel k : Nat) → BitVec 64

/-- The Bells, less one, of a Lesson's work in the built-in Timetable, by base descriptor and SEQ_LEN (R393), and the addresses of
the arrays of the built-in Press state block. -/
opaque ohWork : (desc : List Byte) → (seqLen : Nat) → BitVec 23
opaque ohAddr : (run array : Nat) → BitVec 64

/-- Threads (R316; log 13): the vector length between VLMAX and twice it; the sum of a reduction whose order is open, and its flags;
the estimates of a reciprocal and of a reciprocal root, and their flags; the read-only CSRs whose value this manual does not give. -/
opaque rvSetVl : (avl vlmax : Nat) → Nat
opaque rvSum : (width rm first : Nat) → (xs : List Nat) → Nat × Nat
opaque rvEstimate : (kind width rm x : Nat) → Nat × Nat
opaque rvCsr : (number core : Nat) → BitVec 64

end Sys2Proof.Config
end

