-- ==== Sys2Proof/Machine/Bits.lean ====
section
/-! DEFINITION. Bit fields, byte order and counters shared by every part of the model: little-endian records
(R5), saturating and wrapping counters, lists of fixed length. -/

namespace Sys2Proof.Machine

/-- Bits `[lo + n - 1 : lo]` of a number (R5). -/
def bits (x lo n : Nat) : Nat := (x >>> lo) % 2 ^ n

/-- Bit `i` of a number. -/
def bitOf (x i : Nat) : Bool := x.testBit i

/-- A Bool as the bit it stands for. -/
def b2n (b : Bool) : Nat := if b then 1 else 0

/-- The number whose little-endian bytes are given (R5). -/
def leNat : List Byte → Nat
  | [] => 0
  | b :: bs => b.toNat + 256 * leNat bs

/-- The little-endian bytes of a number, `n` of them (R5). -/
def leBytes : (n : Nat) → Nat → List Byte
  | 0, _ => []
  | n + 1, x => BitVec.ofNat 8 x :: leBytes n (x / 256)

/-- The big-endian bytes of a number, for the fields whose chapter states another order (R5). -/
def beBytes (n x : Nat) : List Byte := (leBytes n x).reverse

/-- The little-endian field of `n` bytes at byte offset `off` of a record; bytes past its end read 0. -/
def field (bs : List Byte) (off n : Nat) : Nat := leNat ((bs.drop off).take n)

/-- The `n` bytes at byte offset `off` of a record, padded with zeros past its end. -/
def slice (bs : List Byte) (off n : Nat) : List Byte :=
  let t := (bs.drop off).take n
  t ++ List.replicate (n - t.length) 0

/-- A record with the bytes at `off` replaced, its length kept. -/
def patch (bs : List Byte) (off : Nat) (new : List Byte) : List Byte :=
  (bs.take off ++ new ++ bs.drop (off + new.length)).take bs.length

/-- All bytes of a list are zero. -/
def allZero (bs : List Byte) : Bool := bs.all (· == 0)

/-- The two's-complement value of the low `n` bits of a number. -/
def signed (n x : Nat) : Int :=
  let y := x % 2 ^ n
  if y < 2 ^ (n - 1) then (y : Int) else (y : Int) - (2 ^ n : Nat)

/-- A two's-complement number of `n` bits as its code. -/
def unsign (n : Nat) (x : Int) : Nat := (x % (2 ^ n : Nat)).toNat

/-- A counter that stops at all ones. -/
def satAdd (w x k : Nat) : Nat := min (x + k) (2 ^ w - 1)

/-- A counter of `w` bits that stops at its largest value, one more. -/
def satInc (w x : Nat) : Nat := satAdd w x 1

/-- A counter of `w` bits that wraps. -/
def wrap (w x : Nat) : Nat := x % 2 ^ w

/-- The list with element `i` replaced; unchanged where `i` is out of range. -/
def setAt {α : Type} : List α → Nat → α → List α
  | [], _, _ => []
  | _ :: xs, 0, y => y :: xs
  | x :: xs, n + 1, y => x :: setAt xs n y

/-- Element `i` of a list, or `d` past its end. -/
def getAt {α : Type} (d : α) : List α → Nat → α
  | [], _ => d
  | x :: _, 0 => x
  | _ :: xs, n + 1 => getAt d xs n

/-- The numbers `lo`, `lo + 1`, …, `n` of them. -/
def countFrom : (lo n : Nat) → List Nat
  | _, 0 => []
  | lo, n + 1 => lo :: countFrom (lo + 1) n

/-- A list cut into pieces of `n` elements (`k` pieces at most). -/
def chunks {α : Type} (n : Nat) : (k : Nat) → List α → List (List α)
  | 0, _ => []
  | k + 1, xs => match xs with
    | [] => []
    | _ :: _ => xs.take n :: chunks n k (xs.drop n)

/-- The sum of a list of numbers. -/
def sumNat (xs : List Nat) : Nat := xs.foldl (· + ·) 0

/-- The largest of a list of numbers, 0 for none. -/
def maxNat (xs : List Nat) : Nat := xs.foldl max 0

/-- A number rounded up to a multiple of `n`. -/
def alignUp (x n : Nat) : Nat := (x + n - 1) / n * n

/-- `a` divided by `b`, rounded up. -/
def ceilDiv (a b : Nat) : Nat := (a + b - 1) / b

/-- Replaces the first element that meets `p`, in place; appends nothing. -/
def modifyFirst {α : Type} (p : α → Bool) (f : α → α) : List α → List α
  | [] => []
  | x :: xs => if p x then f x :: xs else x :: modifyFirst p f xs

/-- Removes the first element that meets `p`. -/
def eraseFirst {α : Type} (p : α → Bool) : List α → List α
  | [] => []
  | x :: xs => if p x then xs else x :: eraseFirst p xs

/-- Inserts into a list kept in rising order of `key`; equal keys stay in order of arrival. -/
def insertBy {α : Type} (key : α → Nat) (y : α) : List α → List α
  | [] => [y]
  | x :: xs => if key x ≤ key y then x :: insertBy key y xs else y :: x :: xs

/-- A list with no repeats kept in rising order: `y` put in. -/
def insertNat (y : Nat) : List Nat → List Nat
  | [] => [y]
  | x :: xs => if x < y then x :: insertNat y xs else if x = y then x :: xs else y :: x :: xs

end Sys2Proof.Machine
end

