-- ==== Sys2Proof/Machine/Crc.lean ====
section
/-! DEFINITION. CRC-32C as R107 states it (polynomial 0x1EDC_6F41, reflected in and out, initial value and final
exclusive-or all ones), SHAKE256 (FIPS 202), which the digests, measurements and chains of the module use, and the lengths of what
AES-256-GCM seals and opens. -/

namespace Sys2Proof.Machine

/-- One bit of the reflected CRC-32C register: 0x82F6_3B78 is 0x1EDC_6F41 reflected. -/
def crcBit (c : Nat) : Nat := if c % 2 = 1 then (c / 2) ^^^ 0x82F63B78 else c / 2

/-- One byte. -/
def crcByte (c : Nat) (b : Byte) : Nat :=
  let c := c ^^^ b.toNat
  crcBit (crcBit (crcBit (crcBit (crcBit (crcBit (crcBit (crcBit c)))))))

/-- CRC-32C of a list of bytes (R107). -/
def crc32c (bs : List Byte) : Nat := (bs.foldl crcByte 0xFFFFFFFF) ^^^ 0xFFFFFFFF

/-- The record's 32-bit field at byte `off` is the CRC-32C of the bytes before it, as descriptors, FSRs and
records carry it. -/
def crcTailOk (bs : List Byte) (off : Nat) : Bool := field bs off 4 == crc32c (slice bs 0 off)

/-- A record with its CRC-32C written at byte `off`, over the bytes before it. -/
def withCrcTail (bs : List Byte) (off : Nat) : List Byte :=
  patch bs off (leBytes 4 (crc32c (slice bs 0 off)))

/-! ### SHAKE256 -/

/-- A 64-bit lane turned left by `n`. -/
def rotl64 (x n : Nat) : Nat := ((x <<< n) ||| (x >>> (64 - n))) % 2 ^ 64

/-- Rotation offsets of the lanes, in order of `x + 5y` (FIPS 202). -/
def keccakRot : List Nat :=
  [0, 1, 62, 28, 27, 36, 44, 6, 55, 20, 3, 10, 43, 25, 39, 41, 45, 15, 21, 8, 18, 2, 61, 56, 14]

/-- Round constants (FIPS 202). -/
def keccakRc : List Nat :=
  [0x0000000000000001, 0x0000000000008082, 0x800000000000808A, 0x8000000080008000,
   0x000000000000808B, 0x0000000080000001, 0x8000000080008081, 0x8000000000008009,
   0x000000000000008A, 0x0000000000000088, 0x0000000080008009, 0x000000008000000A] ++
  [0x000000008000808B, 0x800000000000008B, 0x8000000000008089, 0x8000000000008003,
   0x8000000000008002, 0x8000000000000080, 0x000000000000800A, 0x800000008000000A,
   0x8000000080008081, 0x8000000000008080, 0x0000000080000001, 0x8000000080008008]

/-- One round of Keccak-f[1600]. -/
def keccakRound (a : List Nat) (rc : Nat) : List Nat :=
  let l (i : Nat) := getAt 0 a i
  let c := (countFrom 0 5).map (fun x => l x ^^^ l (x + 5) ^^^ l (x + 10) ^^^ l (x + 15) ^^^ l (x + 20))
  let d := (countFrom 0 5).map (fun x => getAt 0 c ((x + 4) % 5) ^^^ rotl64 (getAt 0 c ((x + 1) % 5)) 1)
  let t := (countFrom 0 25).map (fun i => rotl64 (l i ^^^ getAt 0 d (i % 5)) (getAt 0 keccakRot i))
  -- the lane that moves to (x, y) comes from (x + 3y, x)
  let b := (countFrom 0 25).map (fun i =>
    let x := i % 5
    let y := i / 5
    getAt 0 t ((x + 3 * y) % 5 + 5 * x))
  let e := (countFrom 0 25).map (fun i =>
    let x := i % 5
    let y := i / 5
    getAt 0 b i ^^^ ((getAt 0 b ((x + 1) % 5 + 5 * y) ^^^ (2 ^ 64 - 1)) &&& getAt 0 b ((x + 2) % 5 + 5 * y)))
  match e with
  | [] => []
  | e0 :: es => (e0 ^^^ rc) :: es

/-- Keccak-f[1600]. -/
def keccakF (a : List Nat) : List Nat := keccakRc.foldl keccakRound a

/-- A block of the rate exclusive-ored into the state. -/
def keccakAbsorb (a : List Nat) (blk : List Byte) : List Nat :=
  keccakF ((countFrom 0 25).map (fun i => getAt 0 a i ^^^ leNat (slice blk (8 * i) 8)))

/-- The bytes of the state's first 136, the rate of SHAKE256. -/
def keccakOut (a : List Nat) : List Byte := ((a.take 17).map (leBytes 8)).flatten

/-- `k` further blocks of output. -/
def keccakSqueeze : (k : Nat) → List Nat → List Byte
  | 0, _ => []
  | k + 1, a => keccakOut a ++ keccakSqueeze k (keccakF a)

/-- SHAKE256 of a list of bytes, `n` bytes of output. -/
def shake256 (n : Nat) (m : List Byte) : List Byte :=
  let r := 136
  let pad := r - m.length % r
  let tail : List Byte := if pad = 1 then [0x9F] else [0x1F] ++ List.replicate (pad - 2) 0 ++ [0x80]
  let blocks := chunks r (m.length / r + 1) (m ++ tail)
  (keccakSqueeze (ceilDiv n r) (blocks.foldl keccakAbsorb (List.replicate 25 0))).take n

/-! ### AES-256-GCM (R520, R559) -/

/-- A sealed object: the ciphertext, as long as the plaintext, and the tag of 16 bytes. -/
def sealGcm (key nonce aad plain : List Byte) : List Byte :=
  slice (Config.gcmSeal key nonce aad plain) 0 (plain.length + 16)

/-- The plaintext of a sealed object where its tag verifies. -/
def openGcm (key nonce aad box : List Byte) : Option (List Byte) :=
  if box.length < 16 then none
  else match Config.gcmOpen key nonce aad box with
  | some p => some (slice p 0 (box.length - 16))
  | none => none

end Sys2Proof.Machine
end

