-- ==== Sys2Proof/Machine/Faults.lean ====
section
/-! DEFINITION. The module's fault codes with their classes, and Failure Signature Records
(spec/17_integrity_silent_errors.md R542-R545). -/

namespace Sys2Proof.Machine

/-- The fault codes that the module raises (R543). EXPORT_FULL is a status only and never raised. -/
inductive FaultCode where
  | tileCrc | tileHeader | colsumChecksum | gstHeader | scaleStrip | wheyMask | xferOperand
  | checkerMismatch | arithResidue | checkerFault | resultReplaced | noMajority
  | slotOverrun | bellMasterLost | bellLost | bellStep | formStart
  | tokenLost | semForeign | creditForeign | creditOverflow | retractLate
  | acdInvalid | wcdInvalid | pcdInvalid | xferInvalid | tagForeign | tagMix | routeMismatch
  | adapterEntry | rindWrite | rindAbsent | syllabusReject | landingClosed | clusterDegraded
  | vatDirectory | memCe | memUe | memUeModule | sramCe | sramUe
  | linkReplay | laneSwap | portDegraded | portDown | routeNone | landingBad | sendPartial | fetchRefused
  | adapterFetch | cptLinkDown | cptReplayLimit | cptRefLost
  | syllabusStored | journalOverwrite
  | powerHold | powerModel | thermalWarn | thermalTrip | inputRange
  | quizFail | quizOverdue | coreRetired | bistFail | bistUnrepaired
  | drainCount | pressPhase | pressTorn | pressState | wcDrift | replicaMismatch
  | snapDigest | snapMirror | snapSpace | replayDiverged
deriving DecidableEq, Repr, Inhabited

/-- The 16-bit code (R543); the high byte names the area (R22). -/
def FaultCode.code : FaultCode → Nat
  | .tileCrc => 0x0101 | .tileHeader => 0x0102 | .colsumChecksum => 0x0103 | .gstHeader => 0x0104
  | .scaleStrip => 0x0105 | .wheyMask => 0x0106 | .xferOperand => 0x0107
  | .checkerMismatch => 0x0201 | .arithResidue => 0x0202 | .checkerFault => 0x0203
  | .resultReplaced => 0x0204 | .noMajority => 0x0205
  | .slotOverrun => 0x0301 | .bellMasterLost => 0x0302 | .bellLost => 0x0303 | .bellStep => 0x0304
  | .formStart => 0x0305
  | .tokenLost => 0x0401 | .semForeign => 0x0402 | .creditForeign => 0x0403
  | .creditOverflow => 0x0404 | .retractLate => 0x0405
  | .acdInvalid => 0x0501 | .wcdInvalid => 0x0502 | .pcdInvalid => 0x0503 | .xferInvalid => 0x0504
  | .tagForeign => 0x0505 | .tagMix => 0x0506 | .routeMismatch => 0x0507 | .adapterEntry => 0x0508
  | .rindWrite => 0x0509 | .rindAbsent => 0x050A | .syllabusReject => 0x050B
  | .landingClosed => 0x050C | .clusterDegraded => 0x050D
  | .vatDirectory => 0x0601 | .memCe => 0x0602 | .memUe => 0x0603 | .memUeModule => 0x0604
  | .sramCe => 0x0605 | .sramUe => 0x0606
  | .linkReplay => 0x0701 | .laneSwap => 0x0702 | .portDegraded => 0x0703 | .portDown => 0x0704
  | .routeNone => 0x0705 | .landingBad => 0x0706 | .sendPartial => 0x0707 | .fetchRefused => 0x0708
  | .adapterFetch => 0x0801 | .cptLinkDown => 0x0802 | .cptReplayLimit => 0x0803
  | .cptRefLost => 0x0804
  | .syllabusStored => 0x0901 | .journalOverwrite => 0x0902
  | .powerHold => 0x0A01 | .powerModel => 0x0A02 | .thermalWarn => 0x0A03 | .thermalTrip => 0x0A04
  | .inputRange => 0x0A05
  | .quizFail => 0x0B01 | .quizOverdue => 0x0B02 | .coreRetired => 0x0B03 | .bistFail => 0x0B04
  | .bistUnrepaired => 0x0B05
  | .drainCount => 0x0C01 | .pressPhase => 0x0C02 | .pressTorn => 0x0C03 | .pressState => 0x0C04
  | .wcDrift => 0x0C05 | .replicaMismatch => 0x0C06
  | .snapDigest => 0x0D01 | .snapMirror => 0x0D02 | .snapSpace => 0x0D03 | .replayDiverged => 0x0D04

/-- The class of a code: 0 contained, 1 held, 2 module (R542, R543, R544). -/
def FaultCode.cls : FaultCode → Nat
  | .noMajority | .slotOverrun | .bellLost | .bellStep | .formStart | .clusterDegraded
  | .pressTorn | .pressState | .wcDrift | .replayDiverged => 1
  | .memUeModule | .syllabusStored | .journalOverwrite | .thermalTrip | .inputRange
  | .bistUnrepaired => 2
  | _ => 0

/-- The unit that an FSR names (R544 UNIT_KIND). -/
inductive UnitKind where
  | module | core | cluster | region | die | press | bank | port | controlPort | hbm | tier2 | vat
  | brine | security | flash | powerStage
deriving DecidableEq, Repr, Inhabited

/-- UNIT_KIND as the record carries it (R544). -/
def UnitKind.code : UnitKind → Nat
  | .module => 0 | .core => 1 | .cluster => 2 | .region => 3 | .die => 4 | .press => 5 | .bank => 6
  | .port => 7 | .controlPort => 8 | .hbm => 9 | .tier2 => 10 | .vat => 11 | .brine => 12
  | .security => 13 | .flash => 14 | .powerStage => 15

/-- One Failure Signature Record (R544). `waiting` holds until the end of the Bell or interval in which it was
written (R546). -/
structure Fsr where
  code : FaultCode := .tileCrc
  seq : Nat := 0
  stamp : Nat := 0
  device : Nat := 0
  lmn : Nat := 0x3FF
  kind : UnitKind := .module
  epoch : Nat := 0
  unit : Nat := 0
  ptn : Nat := 0xFF
  ctx : Nat := 0xFFFF
  rep : Nat := 0
  lesson : Nat := 0
  detail : List Byte := []
  waiting : Bool := true
  /-- The interval of 2,048 cy in which the record was written while the Bell counter does not count (R627). -/
  interval : Option Nat := none
deriving DecidableEq, Repr, Inhabited

/-- What a raising rule gives with a fault: the unit, partition, context and DETAIL bytes (R544, R545). -/
structure FaultAt where
  kind : UnitKind := .module
  unit : Nat := 0
  epoch : Nat := 0
  ptn : Nat := 0xFF
  ctx : Nat := 0xFFFF
  detail : List Byte := []
deriving DecidableEq, Repr, Inhabited

end Sys2Proof.Machine
end

