-- ==== Sys2Proof/Machine/Tbl.lean ====
section
/-! DEFINITION. Sparse tables in one canonical form: pairs of a number and a value, numbers strictly rising, no
entry equal to what an unlisted number reads as. Memory, line tags, semaphores, contexts, cores and the other
numbered things of State are held so; equal tables are equal data. -/

namespace Sys2Proof.Machine

/-- A table from numbers to values. -/
abbrev Tbl (α : Type) := List (Nat × α)

/-- The value at a number; `d` is what an unlisted number reads as. -/
def tget {α : Type} (d : α) : Tbl α → Nat → α
  | [], _ => d
  | (k, v) :: t, n => if k = n then v else tget d t n

/-- Puts a value, equal to the unlisted value or not, at its place in the rising order. -/
def tput {α : Type} : Tbl α → Nat → α → Tbl α
  | [], n, x => [(n, x)]
  | (k, v) :: t, n, x =>
    if k < n then (k, v) :: tput t n x
    else if k = n then (n, x) :: t
    else (n, x) :: (k, v) :: t

/-- Removes the entry of a number. -/
def tdel {α : Type} : Tbl α → Nat → Tbl α
  | [], _ => []
  | (k, v) :: t, n => if k = n then tdel t n else (k, v) :: tdel t n

/-- Writes a value: the value an unlisted number reads as removes the entry. -/
def tset {α : Type} [DecidableEq α] (d : α) (t : Tbl α) (n : Nat) (x : α) : Tbl α :=
  if x = d then tdel t n else tput t n x

/-- Changes the value at a number. -/
def tmod {α : Type} [DecidableEq α] (d : α) (t : Tbl α) (n : Nat) (f : α → α) : Tbl α :=
  tset d t n (f (tget d t n))

/-- The numbers of a table rise strictly from above `lo`. -/
def tsorted {α : Type} : (lo : Option Nat) → Tbl α → Bool
  | _, [] => true
  | lo, (k, _) :: t => (match lo with | none => true | some l => decide (l < k)) && tsorted (some k) t

/-- The canonical form: numbers strictly rising, no entry equal to the unlisted value. -/
def twf {α : Type} [DecidableEq α] (d : α) (t : Tbl α) : Bool :=
  tsorted none t && t.all (fun e => e.2 != d)

/-- The numbers listed. -/
def tkeys {α : Type} (t : Tbl α) : List Nat := t.map Prod.fst

/-- Every listed value changed, in canonical form. -/
def tmap {α : Type} [DecidableEq α] (d : α) (t : Tbl α) (f : Nat → α → α) : Tbl α :=
  t.filterMap (fun e => let x := f e.1 e.2; if x = d then none else some (e.1, x))

/-- The `n` values from number `a` of a table that starts at or above `a`. -/
def tsliceGo {α : Type} (d : α) : (n : Nat) → Tbl α → (a : Nat) → List α
  | 0, _, _ => []
  | n + 1, [], a => d :: tsliceGo d n [] (a + 1)
  | n + 1, (k, v) :: t, a =>
    if k = a then v :: tsliceGo d n t (a + 1) else d :: tsliceGo d n ((k, v) :: t) (a + 1)

/-- The `n` values from number `a` on. -/
def tslice {α : Type} (d : α) (t : Tbl α) (a n : Nat) : List α :=
  tsliceGo d n (t.dropWhile (fun e => decide (e.1 < a))) a

/-- The entries that a run of values makes, the unlisted value left out. -/
def tcells {α : Type} [DecidableEq α] (d : α) : (a : Nat) → List α → Tbl α
  | _, [] => []
  | a, x :: xs => if x = d then tcells d (a + 1) xs else (a, x) :: tcells d (a + 1) xs

/-- Writes a run of values from number `a` on. -/
def tsplice {α : Type} [DecidableEq α] (d : α) (t : Tbl α) (a : Nat) (xs : List α) : Tbl α :=
  t.filter (fun e => decide (e.1 < a)) ++ tcells d a xs ++ t.filter (fun e => decide (a + xs.length ≤ e.1))

end Sys2Proof.Machine
end

