-- ==== Sys2Proof/Machine/Parts.lean ====
section
/-! DEFINITION. The parts of State for threads, arrays, Roll call, partitions, contexts, Timetables, the Syllabus
and integrity (spec/04, 08-12, 17). Each structure's default is its value at reset.
Readings and choices: log 6, 8, 15, 26, 30, 152. -/

namespace Sys2Proof.Machine

/-! ### Windows and the Syllabus (spec/11_syllabus_image.md) -/

/-- Memory kinds of a window (R344, R369). -/
inductive MemKind where
  | coreSram | clusterSram | hbm | tier2
deriving DecidableEq, Repr, Inhabited

/-- Window types (R370). -/
inductive WinType where
  | vat | base | colsum | staging | shared | priv | tensor
deriving DecidableEq, Repr, Inhabited

/-- Key classes (R344, R369). -/
inductive KeyClass where
  | context | base | partition | module
deriving DecidableEq, Repr, Inhabited

/-- One WIND record in force (R369); `base` is the linear offset in its kind, and `start` the local address of its
first byte. -/
structure Win where
  type : WinType := .shared
  mem : MemKind := .coreSram
  rindBit : Bool := false
  rights : Nat := 0
  key : KeyClass := .context
  owner : Nat := 0
  base : Nat := 0
  size : Nat := 0
  tensorId : Nat := 0
deriving DecidableEq, Repr, Inhabited

/-- One PART record: a partition's grant (R367). -/
structure Grant where
  ptn : Nat := 0
  ctxCount : Nat := 1
  ctxBase : Nat := 0
  power : Nat := 0
  semBase : Nat := 0
  semCount : Nat := 0
  barBase : Nat := 0
  barCount : Nat := 0
  poolBase : Nat := 0
  poolCount : Nat := 0
  hbmBase : Nat := 0
  hbmSize : Nat := 0
  t2Base : Nat := 0
  t2Size : Nat := 0
  clusters : Nat := 0
deriving DecidableEq, Repr, Inhabited

/-- One QUIZ record (R378). -/
structure QuizSet where
  set : Nat := 0
  unit : Nat := 0
  bells : Nat := 1
  flashOff : Nat := 0
  len : Nat := 1
  digest : List Byte := []
deriving DecidableEq, Repr, Inhabited

/-- The module Syllabus in force (R360, R366, R383). -/
structure ModSyl where
  image : List Byte := []
  meas : List Byte := []
  serial : Nat := 0
  grants : List Grant := []
  wins : List Win := []
  quiz : List QuizSet := []
deriving DecidableEq, Repr, Inhabited

/-- A route: its number and the cores that are its members (R372). -/
structure Route where
  num : Nat := 1
  members : List Nat := []
deriving DecidableEq, Repr, Inhabited

/-- Slot kinds (R265). -/
inductive SlotKind where
  | lecture | spill | tutorial | quiz | exchange
deriving DecidableEq, Repr, Inhabited

/-- One slot record (R264). -/
structure Slot where
  kind : SlotKind := .lecture
  recess : Bool := false
  seat : Nat := 0
  regions : Nat := 0
  start : Nat := 0
  deadline : Nat := 1
  wcet : Nat := 0
  arrayCy : Nat := 0
  memCy : Nat := 0
  linkCy : Nat := 0
  pDarr : Nat := 0
  pOther : Nat := 0
  goSem : Nat := 0xFFFF
  doneSem : Nat := 0xFFFF
  doneTarget : Nat := 1
deriving DecidableEq, Repr, Inhabited

/-- A Timetable: the prologue and the timing header with the slot records (R263, R373). -/
structure Timetable where
  adaptMax : Nat := 1
  spillRows : Nat := 0
  abortPolicy : Bool := false
  lessonBells : Nat := 64
  preemptBound : Nat := 0
  recessGap : Nat := 0
  peakDarr : Nat := 0
  peakOther : Nat := 0
  slots : List Slot := []
deriving DecidableEq, Repr, Inhabited

/-- One RCPT record (R375). -/
structure Recipe where
  kind : Nat := 0
  method : Nat := 0
  initExp : Int := 0
deriving DecidableEq, Repr, Inhabited

/-- One SEMA record (R376). -/
structure SemaRec where
  index : Nat := 0
  bar : Bool := false
  scope : Nat := 0
  form : Nat := 0
  target : Nat := 0
  upLmn : Nat := 0x3FF
  upBar : Nat := 0
deriving DecidableEq, Repr, Inhabited

/-- One CRED record (R377). -/
structure CredRec where
  landing : Bool := false
  number : Nat := 0
  ctx : Nat := 0
  peerLmn : Nat := 0
  link : Nat := 0
  amount : Nat := 1
  offset : Nat := 0
deriving DecidableEq, Repr, Inhabited

/-- The RTIM header (R379) with its code. -/
structure Runtime where
  win : Nat := 0
  offset : Nat := 0
  entry : Nat := 0
  trap : Nat := 0
  sp : Nat := 0
  code : List Byte := []
deriving DecidableEq, Repr, Inhabited

/-- A partition Syllabus in force (R383). -/
structure PtnSyl where
  meas : List Byte := []
  serial : Nat := 0
  form : Nat := 0
  clusters : Nat := 0
  wins : List Win := []
  routes : List Route := []
  tt : Timetable := {}
  recipe : List Recipe := []
  sema : List SemaRec := []
  cred : List CredRec := []
  rtim : Runtime := {}
deriving DecidableEq, Repr, Inhabited

/-- A pending partial reload (R387, R388): the sections that replace the old ones, and its measurement. -/
structure Reload where
  applyAt : Nat := 0
  meas : List Byte := []
  serial : Nat := 0
  routes : Option (List Route) := none
  tt : Option Timetable := none
  recipe : Option (List Recipe) := none
deriving DecidableEq, Repr, Inhabited

/-- The MOD_SYL registers and the module Syllabus (R397). -/
structure SylBlk where
  len : Nat := 0
  busy : Bool := false
  done : Bool := false
  reason : Nat := 0
  sect : Nat := 0xFF
  ptn : Nat := 0
  record : Nat := 0xFFFF
  stored : Bool := false
  mode : Nat := 0
  module : Option ModSyl := none
  /-- The partition whose LOAD waits under R411 or for the placement of its runtime (R384), with its SCOPE. -/
  waiting : Option Nat := none
deriving DecidableEq, Repr, Inhabited

/-! ### Cores and threads (spec/10_threads_and_memory.md, spec/04_lecture_forward.md) -/

/-- Thread states (R322); the codes are those of CORE_THR_n.STATE. -/
inductive ThrState where
  | idle | ready | waitMem | waitRc | waitBell | waitQueue | suspended | halted
deriving DecidableEq, Repr, Inhabited

/-- STATE as the register shows it (R322, R324). -/
def ThrState.code : ThrState → Nat
  | .idle => 0 | .ready => 1 | .waitMem => 2 | .waitRc => 3 | .waitBell => 4 | .waitQueue => 5
  | .suspended => 6 | .halted => 7

/-- Who issues a command or makes an access: a thread and, for its engines, what the thread was at issue (R327,
R345). `ctxOn` is SLVCTX.VALID at issue. -/
structure Issuer where
  core : Nat := 0
  thr : Nat := 0
  mmode : Bool := false
  ctx : Nat := 0
  ctxOn : Bool := false
  ptn : Nat := 0
deriving DecidableEq, Repr, Inhabited

/-- The four command queues of SLV.CMD (R325). -/
inductive QueueKind where
  | acd | wcd | pcd | xfer
deriving DecidableEq, Repr, Inhabited

/-- A descriptor in a queue: its 64 bytes, its issuer and its issue stamp (R327, R328). -/
structure QEntry where
  desc : List Byte := []
  issuer : Issuer := {}
  stamp : Nat := 0
deriving DecidableEq, Repr, Inhabited

/-- A launch descriptor's fields (R334) with the launching thread. -/
structure Launch where
  nthreads : Nat := 1
  mmode : Bool := false
  ctx : Nat := 0
  doneSem : Nat := 0xFFFF
  entry : Nat := 0
  arg : Nat := 0
  spBase : Nat := 0
  spStride : Nat := 0
  trap : Nat := 0
  issuer : Option Issuer := none
  rd : Nat := 0
  stamp : Nat := 0
deriving DecidableEq, Repr, Inhabited

/-- What a waiting thread waits for (R322), with the register that takes its result. -/
inductive ThrWait where
  | none
  | queue (q : QueueKind) (e : QEntry) (rd : Nat)
  | rc (rtag : Nat) (rd : Nat)
  | bell (b : Nat) (rd : Nat)
  | launch (rd : Nat)
deriving DecidableEq, Repr, Inhabited

/-- A hardware thread (R316, R320, R322, R324): registers, CSRs and state. Unlisted registers read 0. -/
structure Thr where
  state : ThrState := .idle
  mmode : Bool := false
  ctx : Nat := 0
  lastTrap : Nat := 0
  pc : DWord := 0
  x : Tbl DWord := []
  f : Tbl DWord := []
  v : Tbl (BitVec 512) := []
  vl : Nat := 0
  vtype : Nat := 0
  vstart : Nat := 0
  vcsr : Nat := 0
  fcsr : Nat := 0
  mtvec : DWord := 0
  mepc : DWord := 0
  mcause : DWord := 0
  mtval : DWord := 0
  mstatus : DWord := 0
  mscratch : DWord := 0
  mie : DWord := 0
  mip : DWord := 0
  instret : Nat := 0
  slvtrap : DWord := 0
  wait : ThrWait := .none
  resume : ThrState := .idle
deriving DecidableEq, Repr, Inhabited

/-- A parsed tile header (R104, R105). -/
structure Hdr where
  fmt : Nat := 0
  kind : Nat := 0
  asym : Bool := false
  runahead : Bool := false
  rows : Nat := 0
  cols : Nat := 0
  tensorId : Nat := 0
  tileRow : Nat := 0
  tileCol : Nat := 0
  baseId : Nat := 0
  lesson : Nat := 0
  producer : Nat := 0
  scales : List Half := []
  zps : List Nat := []
  tags : List Nat := []
deriving DecidableEq, Repr, Inhabited

/-- A tile as staged: its header and its payload bytes. -/
structure Tile where
  hdr : Hdr := {}
  payload : List Byte := []
deriving DecidableEq, Repr, Inhabited

/-- The active stationary tile of a D-array (R117): the tile, whether it was loaded transposed, its address. -/
structure Stat where
  tile : Tile := {}
  trans : Bool := false
  addr : Nat := 0
deriving DecidableEq, Repr, Inhabited

/-- One accumulator row (R118, R126): its tag and its 32-bit values, integers or OZ32 numbers. -/
structure AccRow where
  tag : Nat := 0
  vals : List Word := []
deriving DecidableEq, Repr, Inhabited

/-- The accumulator buffer (R118): the rows, the leaf length so far (R82, R113), the output columns that a W4 NaN has
marked (R54), and what a whey chain asks of its earlier tiles (R209): every stationary tile had 128 rows, and every
stored row carried the tag of the streaming rows. -/
structure Acc where
  rows : List AccRow := []
  leaf : Nat := 0
  nanCols : List Nat := []
  full : Bool := true
  uniform : Bool := true
deriving DecidableEq, Repr, Inhabited

/-- Why the command at the head of a queue waits with its checks passed. -/
inductive CmdWait where
  | none
  | route (r seq : Nat)
  | join
  | seal (addr : Nat)
  /-- The command's own seal of the stage at an address is under way, or cannot start while the governor is in HOLD (R184, R274). -/
  | sealing (addr : Nat)
  | held
  | decision
deriving DecidableEq, Repr, Inhabited

/-- A row of the join buffer (R173): READY, the row's tag and its OZ32 contribution. -/
structure JoinRow where
  ready : Bool := false
  tag : Nat := 0
  vals : List Word := []
deriving DecidableEq, Repr, Inhabited

/-- A routed delivery that reached a member (R119): route, LOAD_SEQ, the leader's STAT_ADDR and the bytes. -/
structure Delivery where
  route : Nat := 0
  seq : Nat := 0
  addr : Nat := 0
  bytes : List Byte := []
deriving DecidableEq, Repr, Inhabited

/-- A pending checker decision of a core (R532-R534): which queue's command, its accumulator rows before, the
original run's rows, the rows the check allows, the re-run cores used, and the runs made. -/
structure Decision where
  wcd : Bool := false
  entry : QEntry := {}
  op : Nat := 0
  before : Acc := {}
  r0 : List AccRow := []
  firstRow : Nat := 0
  core1 : Nat := 0xFFFF
  core2 : Nat := 0xFFFF
  r1 : Option (List AccRow) := none
  running : Option Nat := none
  used : List Nat := []
  /-- Rows whose checker sum P was upset on the original core. -/
  chk : List Nat := []
  slotEnd : Option Nat := none
deriving DecidableEq, Repr, Inhabited

/-- A launched group on a core (R334, R338): threads started and not exited, DONE_SEM, CTX and partition. -/
structure Group where
  live : List Nat := []
  doneSem : Nat := 0xFFFF
  ctx : Nat := 0
  ptn : Nat := 0
deriving DecidableEq, Repr, Inhabited

/-- The WBWD_GRAD accumulation of one staging entry (R203, R205): the entry's index and owner, the OZ32 sums of the
command's K range by its N range, the pairs of rows in the open block, and the rows taken. -/
structure GradAcc where
  stg : Nat := 0
  owner : Nat := 0
  vals : List (List Word) := []
  blockA : List (List Half) := []
  blockB : List (List Half) := []
  count : Nat := 0
deriving DecidableEq, Repr, Inhabited

/-- A core: threads, epochs, D-array, W-array, transfer queue and its window registers (R26, R73, R118, R141,
R142, R173, R218, R324, R351, R474). -/
structure Core where
  thr : Tbl Thr := []
  epoch : Nat := 0
  chScale : Tbl Half := []
  w4Nan : Bool := false
  zpSub : Bool := false
  acdQ : List QEntry := []
  acdRun : Option QEntry := none
  acdWait : CmdWait := .none
  /-- The routes and the recipe that a partial reload has replaced under the command that runs or is decided on (R388). -/
  under : Option (List Route × List Recipe) := none
  faultValid : Bool := false
  fault : Nat := 0
  lastOp : Nat := 0
  chkMismatch : Nat := 0
  crcRetry : Nat := 0
  seals : Nat := 0
  sealWaits : Nat := 0
  tagW : Nat := 0
  tagR : Nat := 0
  stat : Option Stat := none
  acc : Acc := {}
  wcdQ : List QEntry := []
  wcdRun : Option QEntry := none
  wcdWait : CmdWait := .none
  wacc : List AccRow := []
  wleaf : Nat := 0
  /-- The panel rows that the open chain covers without a gap from row 0 (R169, DRAIN 4). -/
  wcover : Option Nat := none
  grads : List GradAcc := []
  /-- K_FIRST, K_COUNT, N_FIRST and N_COUNT of the open accumulation (R205). -/
  gradRange : List Nat := []
  join : List JoinRow := []
  routeIn : List Delivery := []
  decision : Option Decision := none
  rerun : Option Nat := none
  xferQ : List QEntry := []
  xferRun : Option QEntry := none
  xFaultValid : Bool := false
  xStatus : Nat := 0
  xFault : Nat := 0
  xLastOp : Nat := 0
  group : Option Group := none
  /-- The threads and queues are frozen: a quiz, or no core carries the number (R268, R540). -/
  frozen : Bool := false
  /-- Lines of the instruction cache, as it took them from memory since the last FENCE.I, by line number (R352). -/
  icache : List (Nat × List Byte) := []
  /-- The module's core cycle at which the core's cycle counter was 0 (R319). -/
  cyc0 : Nat := 0
deriving DecidableEq, Repr, Inhabited

/-- States of a physical core (R548). -/
inductive PhysState where
  | active | detained | retired | spare
deriving DecidableEq, Repr, Inhabited

/-- STATE as INT_CORE_p shows it (R548). -/
def PhysState.code : PhysState → Nat
  | .active => 0 | .detained => 1 | .retired => 2 | .spare => 3

/-- A physical core (R538-R540, R548). `prior` is the state it returns to from detention, `home` the number it
carried before it left service. -/
structure Phys where
  state : PhysState := .active
  number : Nat := 0x3FF
  clean : Nat := 0
  fails : Nat := 0
  testing : Bool := false
  testFor : Nat := 0xFF
  /-- The pattern sets that the test runs, SET and UNIT, in ascending SET order (R378, R539). -/
  sets : List (Nat × Nat) := []
  /-- The test of a QUIZ slot has ended; the core returns at the slot's DEADLINE (R268). -/
  testDone : Bool := false
  lastQuiz : Nat := 0
  lastTest : Option Nat := none
  overdue : Bool := false
  due : Bool := false
  prior : PhysState := .active
  home : Nat := 0x3FF
  /-- Released from detention, back in its previous state at the next Lesson boundary (R540). -/
  releasing : Bool := false
  /-- Detained, and leaves service at the next Lesson boundary (R540). -/
  leaving : Bool := false
  /-- The quiz was ended at its DEADLINE; the core returns at the next Lesson boundary (R268). -/
  lateReturn : Bool := false
  /-- Retired with no stand-in: at the next Lesson boundary the spare, if one is free, takes the number, otherwise the
  partition is held (R25). -/
  degrade : Bool := false
deriving DecidableEq, Repr, Inhabited

/-- The tag of a 64-byte SRAM line (R347). -/
inductive LineTag where
  | unowned
  | priv (ctx gen : Nat)
  | shared (ptn gen : Nat)
deriving DecidableEq, Repr, Inhabited

/-- The subtraction flag of a base matrix (R133) with the records rebuilt since it was set. -/
structure SubFlag where
  base : Nat := 0
  tensor : Nat := 0
  rebuilt : List Nat := []
deriving DecidableEq, Repr, Inhabited

/-! ### Roll call (spec/09_roll_call.md) -/

/-- A semaphore (R294). -/
structure Sem where
  alloc : Bool := false
  ptn : Nat := 0
  scope : Nat := 0
  form : Nat := 0
  value : Nat := 0
  rev : Bool := false
  abt : Bool := false
  rej : Bool := false
  sat : Bool := false
deriving DecidableEq, Repr, Inhabited

/-- A barrier (R304). -/
structure Bar where
  alloc : Bool := false
  ptn : Nat := 0
  scope : Nat := 0
  form : Nat := 0
  target : Nat := 1
  upLmn : Nat := 0x3FF
  upBar : Nat := 0
  gen : Nat := 0
  count : Nat := 0
  children : List Nat := []
  completing : Bool := false
  /-- ABT, which a reset of the bank sets (R312). -/
  abt : Bool := false
deriving DecidableEq, Repr, Inhabited

/-- Operations of Roll call (R297). -/
inductive RcOp where
  | read | write | add | waitGe | acquire | release | arrive | waitGen | barRelease
deriving DecidableEq, Repr, Inhabited

/-- OP as frames carry it (R297). -/
def RcOp.code : RcOp → Nat
  | .read => 1 | .write => 2 | .add => 3 | .waitGe => 4 | .acquire => 5 | .release => 6
  | .arrive => 7 | .waitGen => 8 | .barRelease => 9

/-- Where an operation came from (R296, R299): a thread of this module, the module's own bank or engines, or a
TOKEN frame from another module. -/
inductive RcFrom where
  | thread (core thr : Nat)
  | bank
  | remote (lmn port : Nat)
deriving DecidableEq, Repr, Inhabited

/-- An operation as a TOKEN carries it (R296). -/
structure Token where
  op : RcOp := .read
  ctx : Nat := 0
  ctxOn : Bool := true
  ptn : Nat := 0
  sem : Nat := 0
  epoch : Nat := 0
  rtag : Nat := 0
  operand : Nat := 0
  timeout : Nat := 0
  form : Nat := 0
  src : RcFrom := .bank
  /-- SLV.BWAIT SEMWAIT (R333): its deadline is the stamp of a Bell, not a time from its arrival. -/
  bellWait : Bool := false
deriving DecidableEq, Repr, Inhabited

/-- A REPLY's contents (R298). -/
structure Reply where
  op : RcOp := .read
  status : Nat := 0
  epoch : Nat := 0
  rtag : Nat := 0
  value : Nat := 0
  flags : Nat := 0
  ctx : Nat := 0
deriving DecidableEq, Repr, Inhabited

/-- An entry of a bank's wait table (R300), with what parking saves (R409): `left` is the remaining time while
parked, `granted` a recorded grant, `withdrawn` an entry taken out of the table while its context is away. -/
structure WaitEnt where
  tok : Token := {}
  arrival : Nat := 0
  deadline : Option Nat := none
  parked : Bool := false
  left : Option Nat := none
  granted : Option Nat := none
  withdrawn : Bool := false
deriving DecidableEq, Repr, Inhabited

/-- A request outstanding at another module's bank (R300, R313). `held` is a REPLY held while parked (R409). -/
structure OutReq where
  tok : Token := {}
  lmn : Nat := 0
  deadline : Option Nat := none
  held : Option Reply := none
  parked : Bool := false
deriving DecidableEq, Repr, Inhabited

/-- A credit pool (R306, R377). -/
structure Pool where
  bound : Bool := false
  ptn : Nat := 0
  ctx : Nat := 0
  peer : Nat := 0
  link : Nat := 0
  alloc : Nat := 0
  credits : Nat := 0
deriving DecidableEq, Repr, Inhabited

/-- A landing buffer (R377, R410): the local address of its first byte, its size in bytes; `quiet` the stamp of
its last data frame. -/
structure Landing where
  bound : Bool := false
  ptn : Nat := 0
  ctx : Nat := 0
  addr : Nat := 0
  size : Nat := 0
  closing : Bool := false
  closed : Bool := false
  lastFrame : Nat := 0
deriving DecidableEq, Repr, Inhabited

/-- A frame waiting for a sync lane, in the order of R286: its priority, its port, and its 32 bytes (R285). -/
structure SyncTx where
  prio : Nat := 9
  port : Nat := 0
  bytes : List Byte := []
deriving DecidableEq, Repr, Inhabited

/-- The last STATUS taken from a port or sent (R288). -/
structure StatusMsg where
  lmn : Nat := 0x3FF
  ready : Bool := false
  bellState : Nat := 0
  role : Nat := 0
  cover : Nat := 0x3FF
deriving DecidableEq, Repr, Inhabited

/-- The RC block and the banks (R292, R314). -/
structure RcBlk where
  sem : Tbl Sem := []
  bar : Tbl Bar := []
  pool : Tbl Pool := []
  buf : Tbl Landing := []
  waits : List WaitEnt := []
  out : List OutReq := []
  doneTags : List Nat := []
  nextTag : Nat := 0
  epoch0 : Nat := 0
  epoch1 : Nat := 0
  peerEpoch : Tbl Nat := []
  replyLimit : Nat := 64
  overflowSeen : Bool := false
  retractLateSeen : Bool := false
  lostSeen : Bool := false
  staleSeen : Bool := false
  stale : Nat := 0
  lost : Nat := 0
  errRes : Nat := 0
  errCrc : Nat := 0
  lateEqual : Nat := 0
  discarded : Nat := 0
  selBar : Bool := false
  selIndex : Nat := 0
  semValue : Nat := 0
  semAttr : Nat := 0
  txq : List SyncTx := []
  /-- The frame that each port's sync lane sends; without an entry the lane sends IDLE (R284, R286). -/
  lane : Tbl (List Byte) := []
  statusSent : Option StatusMsg := none
  neighbours : Tbl (Option StatusMsg) := []
deriving DecidableEq, Repr, Inhabited

/-! ### Partitions, contexts, Brine (spec/12_partitions_contexts.md) and Timetables (spec/08) -/

/-- Partition states (R398). -/
inductive PtnState where
  | ungranted | off | active | held | teardown | scrubbing
deriving DecidableEq, Repr, Inhabited

/-- PTN_STATE.STATE (R398). -/
def PtnState.code : PtnState → Nat
  | .ungranted => 0 | .off => 1 | .active => 2 | .held => 3 | .teardown => 4 | .scrubbing => 5

/-- Context states (R400). -/
inductive CtxState where
  | free | keyed | attaching | running | preempting | swapped | resuming | detaching | restart | scrubbing
deriving DecidableEq, Repr, Inhabited

/-- CTX_STATE.STATE (R400). -/
def CtxState.code : CtxState → Nat
  | .free => 0 | .keyed => 1 | .attaching => 2 | .running => 3 | .preempting => 4 | .swapped => 5
  | .resuming => 6 | .detaching => 7 | .restart => 8 | .scrubbing => 9

/-- A hold entry (R302): `units` held, `reserved` by waiting ACQUIREs. -/
structure Hold where
  sem : Nat := 0
  units : Nat := 0
  reserved : Nat := 0
deriving DecidableEq, Repr, Inhabited

/-- The exchange state of one kind-4 tensor for one exchange rank (R75, R77, R97). -/
structure Exch where
  tensor : Nat := 0
  rank : Nat := 0
  prev : Option Word := none
  exp : Int := 0
deriving DecidableEq, Repr, Inhabited

/-- An enable queued for a context under R411: a key-slot load with its key material, or an ATTACH. -/
inductive CtxEnable where
  | key (keys : List (List Byte))
  | attach (seat : Nat)
deriving DecidableEq, Repr, Inhabited

/-- What the module keeps of a context's Press state block (R243, R278): its address, the Lesson count of its last CLOSE,
and the panels that master exports have covered at one T. -/
structure PsbTrack where
  addr : Nat := 0
  closed : Option Nat := none
  covT : Nat := 0
  covered : List Nat := []
deriving DecidableEq, Repr, Inhabited

/-- A context (R400-R411, R423): registers and what the module keeps for it. -/
structure Ctx where
  state : CtxState := .free
  /-- Still attached for tag checks: RESTART up to the boundary, DETACHING until it leaves (R400, R408). -/
  stay : Bool := false
  restored : Bool := false
  seat : Nat := 0
  lastStatus : Nat := 0
  loaded : Bool := false
  gen : Nat := 0
  bound : Nat := 0
  swap : Nat := 0
  parkWaits : Nat := 0
  parkGrants : Nat := 0
  convSat : Nat := 0
  convNan : Nat := 0
  gradev : Nat := 0
  masterev : Nat := 0
  reqSeat : Nat := 0
  cmdStamp : Nat := 0
  rebind : Bool := false
  regPend : Bool := false
  quietSince : Option Nat := none
  enableQ : List CtxEnable := []
  restSince : Option Nat := none
  holds : List Hold := []
  exch : List Exch := []
  /-- The context re-runs the Lesson's rows at its next Lesson (R278) or was skipped by the Vat (R176). -/
  rerunLesson : Bool := false
  /-- The context skips the running Lesson (R176). -/
  skips : Bool := false
  psbs : List PsbTrack := []
  /-- The module holds the context at its next recess (R229, R237). -/
  pressHold : Bool := false
  /-- The snapshot engine copies the context's objects (R556). -/
  copying : Bool := false
  /-- The staging entries that the copied plan names (R556). -/
  copyStg : List Nat := []
deriving DecidableEq, Repr, Inhabited

/-- The state of a Timetable (R281). -/
inductive TtState where
  | idle | armed | running | held | stopping
deriving DecidableEq, Repr, Inhabited

/-- TT_PT_STATE.STATE (R281). -/
def TtState.code : TtState → Nat
  | .idle => 0 | .armed => 1 | .running => 2 | .held => 3 | .stopping => 4

/-- A slot that is open: its index, its shifted START and DEADLINE Bells, and its completion (R267). -/
structure OpenSlot where
  idx : Nat := 0
  startB : Nat := 0
  endB : Nat := 0
  lesson : Nat := 0
  done : Bool := false
  late : Bool := false
  timedOut : Bool := false
deriving DecidableEq, Repr, Inhabited

/-- A partition's Timetable engine and registers (R262-R282). `next` is the next unreleased slot of the Lesson,
`holdAfter` the HELD state waits for the overrun slot, `aborted` the rest of the Lesson is dropped. -/
structure Tt where
  at_ : Nat := 0
  state : TtState := .idle
  curSlot : Nat := 0xFF
  cmdStatus : Nat := 0
  lesson : Nat := 0
  bound : Nat := 0
  lastSlot : Nat := 0xFF
  overruns : Nat := 0
  late : Nat := 0
  skipped : Nat := 0
  govhold : Nat := 0
  b0 : Nat := 0
  shift : Nat := 0
  next : Nat := 0
  open_ : List OpenSlot := []
  /-- The Lesson for which the overrun policy has acted (R276). -/
  acted : Option Nat := none
  /-- The contexts of an aborted Lesson have been treated (R278). -/
  settled : Bool := false
  overrunSlot : Option Nat := none
  noRelease : Bool := false
  aborted : Bool := false
  inLesson : Bool := false
  resumeAt : Option Nat := none
  /-- The Bell at which RESUME was accepted: a boundary that the shift puts at or before it is processed at the next (R277). -/
  resumedOn : Option Nat := none
deriving DecidableEq, Repr, Inhabited

/-- A partition (R398, R399, R422). -/
structure Ptn where
  state : PtnState := .ungranted
  holdCause : Nat := 0
  done : Bool := false
  busy : Bool := false
  resCtx : Nat := 0
  resStatus : Nat := 0
  activeMax : Nat := 0
  eventSem : Nat := 0xFFFF
  revoked : Nat := 0
  landingDrop : Nat := 0
  scrubLeft : Nat := 0
  gen : Nat := 0
  syl : Option PtnSyl := none
  reload : Option Reload := none
  enablePending : Option PtnSyl := none
  restSince : Option Nat := none
  launchQ : List Launch := []
  recheck : Bool := false
  /-- The staging entries that the running Lesson binds (R374). -/
  binding : List Nat := []
  tt : Tt := {}
deriving DecidableEq, Repr, Inhabited

/-- A Press (R219, R222, R247, R248). -/
structure Prs where
  q : List QEntry := []
  run : Option QEntry := none
  epoch : Nat := 0
  faultValid : Bool := false
  lastOp : Nat := 0
  fault : Nat := 0
  driftEn : Bool := true
  lastPtn : Nat := 0
  lastCtx : Nat := 0
  driftCount : Nat := 0
  elem : Nat := 0
  nsValid : Bool := false
  nsPtn : Nat := 0
  nsCtx : Nat := 0
  nsLesson : Nat := 0
  nsM : Nat := 0
  nsRows : Nat := 0
  nsSmb : Word := 0
  nsSrank : Word := 0
  nsGnorm2 : Word := 0
  nsClip : Word := 0
deriving DecidableEq, Repr, Inhabited

/-- A Brine job (R415, R417, R420, R421). -/
inductive BrnJob where
  | partition (ptn : Nat)
  | context (ptn ctx : Nat)
  | baseTeardown (baseId : Nat)
  /-- The base, and the role and key slot of the writer for the journal entry at its end (R420, R507). -/
  | baseCommit (baseId role slot : Nat)
deriving DecidableEq, Repr, Inhabited

/-- Brine engine states (R424). -/
inductive BrnEngine where
  | off | on | disabling
deriving DecidableEq, Repr, Inhabited

/-- ENGINE as BRN_STATUS shows it (R424). -/
def BrnEngine.code : BrnEngine → Nat
  | .off => 0 | .on => 1 | .disabling => 2

/-- The BRN block (R424). -/
structure BrnBlk where
  enablePending : Bool := false
  restSince : Option Nat := none
  engine : BrnEngine := .on
  cur : Option BrnJob := none
  queue : List BrnJob := []
  done : Bool := false
  status : Nat := 0
  left : Nat := 0
  /-- BASE_IDs of the windows that carry Rind (R212), shown in BRN_RIND in WIND order. -/
  rind : List Nat := []
  count : Nat := 0
deriving DecidableEq, Repr, Inhabited

/-! ### Bell (spec/08_bell_and_timetable.md) -/

/-- BELL_STATUS.STATE (R258). -/
inductive BellState where
  | unlocked | locking | waitStart | running | holdover | lost
deriving DecidableEq, Repr, Inhabited

/-- STATE as registers and STATUS frames carry it (R258). -/
def BellState.code : BellState → Nat
  | .unlocked => 0 | .locking => 1 | .waitStart => 2 | .running => 3 | .holdover => 4 | .lost => 5

/-- BELL_CFG's fields (R280). -/
structure BellCfg where
  domainEn : Bool := false
  role : Nat := 0
  refSrc : Nat := 0
  upPort : Nat := 0
  altPort : Nat := 0
  altEn : Bool := false
deriving DecidableEq, Repr, Inhabited

/-- One Bell upstream: the delay in use and its measurement (R254), missing frames (R260). -/
structure Upstream where
  delay : Nat := 0
  target : Nat := 0
  last : Nat := 0
  measured : Bool := false
  discards : Nat := 0
  missing : Nat := 0
  probe : Option (Nat × Nat) := none
  /-- The compensated Bell instant of the stream's last frame after the frame's first bit, in 1/16 cy (R253, R254). -/
  instant : Int := 0
  depth : Nat := 0
  /-- SOURCE of the stream's last frame (R253, R289). -/
  src : Nat := 0
  /-- Three measurements in a row have been discarded: the port counts as an upstream whose frames are missing (R254). -/
  untrusted : Bool := false
deriving DecidableEq, Repr, Inhabited

/-- The BELL block (R249, R280) and the Bell logic's own state. -/
structure BellBlk where
  count : Nat := 0
  sub : Nat := 0
  latchHi : Nat := 0
  cfg : BellCfg := {}
  cfgPend : Option BellCfg := none
  state : BellState := .unlocked
  source : Nat := 0
  actingMaster : Bool := false
  switched : Bool := false
  holdoverSeen : Bool := false
  stepped : Bool := false
  prim : Upstream := {}
  alt : Upstream := {}
  trimP : Nat := 0
  trimA : Nat := 0
  holdLimit : Nat := 1024
  missed : Nat := 0
  holdoverBells : Nat := 0
  markLeft : Option Nat := none
  /-- MARK_LEFT of a marked frame whose Bell instant has not come (R259, R289). -/
  markRx : Option Nat := none
  /-- The Bell number of the last frame of the stream followed (R253, R259). -/
  rxBell : Nat := 0
  takeoverAt : Option Nat := none
  pllLocked : Bool := false
  refPresent : Bool := false
  /-- Stream offset still to slew out, in 1/16 cy (R260, R261). -/
  slew : Int := 0
  probeSeq : Nat := 0
  covered : List Nat := []
deriving DecidableEq, Repr, Inhabited

/-! ### Integrity (spec/17_integrity_silent_errors.md) -/

/-- The INT block (R547) and the fault log, newest last (R546). -/
structure IntBlk where
  moduleFault : Bool := false
  logWrapped : Bool := false
  lastCode : Nat := 0
  logSeq : Nat := 0
  logSel : Nat := 0
  chkReplaced : Nat := 0
  chkFault : Nat := 0
  noMaj : Nat := 0
  residue : Nat := 0
  memUe : Nat := 0
  memCe : Nat := 0
  sramUe : Nat := 0
  sramCe : Nat := 0
  quizFailed : Nat := 0
  quizIncomplete : Nat := 0
  log : List Fsr := []
  /-- Words whose single-bit errors were corrected within 24 h, with the Bell of each (R581). -/
  ceLog : List (Nat × Nat) := []
  /-- Clusters that a failure without a spare leaves held (R25, R575). -/
  heldClusters : List Nat := []
deriving DecidableEq, Repr, Inhabited

end Sys2Proof.Machine
end

