-- ==== Sys2Proof/Machine/PartsIo.lean ====
section
/-! DEFINITION. The parts of State for the control port, security and the Ledger (spec/15, 16). Each structure's
default is its value at reset.
Readings and choices: log 6, 8, 15, 75. -/

namespace Sys2Proof.Machine

/-- One entry of the Ledger journal (R507); LINK is formed from the head when it is written (R508). -/
structure JEntry where
  seq : Nat := 0
  stamp : Nat := 0
  action : Nat := 0
  role : Nat := 0
  slot : Nat := 0
  result : Nat := 0
  lc : Nat := 0
  ptn : Nat := 0xFF
  aux : Nat := 0
  data : List Byte := []
  link : List Byte := []
deriving DecidableEq, Repr, Inhabited

/-- A soft-repair record (R579); `state` 0 is a free record. -/
structure Repair where
  kind : Nat := 0
  origin : Nat := 0
  state : Nat := 0
  unit : Nat := 0
  bank : Nat := 0
  spare : Nat := 0
  addr : Nat := 0
  bit : Nat := 0
  stamp : Nat := 0
deriving DecidableEq, Repr, Inhabited

/-- A settings bank of the Ledger (R619, R620): its records by register-space offset, its key slots (makers 0-3,
installers 4-7, operators 8-11), the header's LC and stamp, SEQ. -/
structure Bank where
  recs : List (Nat × Nat) := []
  keys : Tbl (List Byte) := []
  lc : Nat := 0
  stamp : Nat := 0
  seq : Nat := 0
deriving DecidableEq, Repr, Inhabited

/-- The Ledger (R504, R507, R508, R510, R579): the journal ring, its head and acknowledged SEQ, the repair region, the
current settings bank and the other one, the stored module Syllabus and the other bank's, the identity private key. -/
structure Ledger where
  journal : List JEntry := []
  seq : Nat := 0
  ack : Nat := 0
  head : List Byte := []
  repair : Tbl Repair := []
  bank : Option Bank := none
  bankOld : Option Bank := none
  stored : Option (List Byte) := none
  storedOld : Option (List Byte) := none
  ident : Option (List Byte) := none
deriving DecidableEq, Repr, Inhabited

/-- Life-cycle states (R496); the code is LCS_STATE.LC. -/
inductive LifeCycle where
  | manufacture | provisioned | deployed | returned | scrapped
deriving DecidableEq, Repr, Inhabited

/-- The eFuses (R496, R511, R521, R583): life cycle, identity fuse, firmware floor, permanent repairs. -/
structure FuseBlk where
  lc : LifeCycle := .manufacture
  identity : Bool := false
  fwFloor : Nat := 0
  repairs : List Repair := []
deriving DecidableEq, Repr, Inhabited

/-- The firmware region of flash (R521): an image received in RECOVERY, or none for the image of the factory. -/
structure FlashBlk where
  fw : Option (List Byte) := none
deriving DecidableEq, Repr, Inhabited

/-- The LCS block (R524) and the running role key slots (R500): makers 0-3, installers 4-7, operators 8-11. -/
structure LcsBlk where
  lc : LifeCycle := .manufacture
  jrnOverwrite : Bool := false
  done : Bool := false
  status : Nat := 0
  jrnAck : Nat := 0
  jrnSel : Nat := 0
  authFail : Nat := 0
  keybuf : List Byte := []
  keys : Tbl (List Byte) := []
deriving DecidableEq, Repr, Inhabited

/-- Roles (R500): the signer of a session's PROOF. -/
inductive Role where
  | installer | operator | maker
deriving DecidableEq, Repr, Inhabited

/-- ROLE as the journal and frames carry it (R507). -/
def Role.code : Role → Nat
  | .installer => 1 | .operator => 2 | .maker => 3

/-- An open session (R502). -/
structure Session where
  id : Nat := 0
  role : Role := .operator
  slot : Nat := 0
deriving DecidableEq, Repr, Inhabited

/-- A CHALLENGE that was sent, or a HELLO that waits for its CHALLENGE (R501, R502); `tag` is the TAG of its frames,
`sent` the stamp of the sending, `sig` what has arrived of the PROOF. -/
structure Challenge where
  tag : Nat := 0
  role : Nat := 1
  slot : Nat := 0
  nonce : List Byte := []
  sent : Option Nat := none
  sig : List Byte := []
deriving DecidableEq, Repr, Inhabited

/-- Sessions of the control port (R501, R502): open ones, challenges, the failed PROOFs that the journal does not carry
yet, the stamp of the last failed PROOF and of the last failure entry. -/
structure SesBlk where
  open_ : List Session := []
  chals : List Challenge := []
  failed : Nat := 0
  lastFail : Option Nat := none
  lastEntry : Option Nat := none
deriving DecidableEq, Repr, Inhabited

/-- A held decapsulation key (R512, R514): `ptn` is the partition of a partition quote, none for a module quote. -/
structure Ek where
  ptn : Option Nat := none
  /-- The measurement to which the key is bound (R512). -/
  meas : List Byte := []
  qdigest : List Byte := []
  seed : List Byte := []
  bell : Nat := 0
  ttl : Nat := 0
deriving DecidableEq, Repr, Inhabited

/-- The security engine (R511, R525): identity, SEC registers, held decapsulation keys, the running firmware image. -/
structure SecBlk where
  deviceId : List Byte := []
  pubkey : List Byte := []
  done : Bool := false
  status : Nat := 0
  ekTtl : Nat := 46875000
  eks : List Ek := []
  nonce : List Byte := []
  qbuf : List Byte := []
  krbuf : List Byte := []
  fwVer : Nat := 0
  fwMeas : List Byte := []
deriving DecidableEq, Repr, Inhabited

/-- A bulk write in progress (R484, R485): its TAG, its range, the context or base slot whose key seals it, what has arrived.
`status` is the answer that waits for the LAST frame; `answered` says that a refusal has been sent, so that what follows is
dropped. -/
structure BulkWr where
  tag : Nat := 0
  addr : Nat := 0
  len : Nat := 0
  ctx : Nat := 0
  ksel : Nat := 0
  isSealed : Bool := false
  data : List Byte := []
  status : Option Nat := none
  answered : Bool := false
deriving DecidableEq, Repr, Inhabited

/-- The control port (R476-R495): link state and registers, frames sent and not yet acknowledged in the order of
their SEQ, frames that wait for a credit, credits held and buffers freed, open bulk writes, the event queue (oldest first, each
record 64 bytes with its kind), and the buffer of RECOVERY. `rxSeq` is the SEQ received last in order, `told` the one last
acknowledged, `idle` the last IDLE frame sent; `relink` says that the link trains with its frames kept. -/
structure CptBlk where
  lstate : Nat := 0
  txOn : Bool := false
  refLost : Bool := false
  /-- The recovered clock is lost (R493). -/
  clkLost : Bool := false
  downSeen : Bool := false
  errRes : Nat := 0
  errCrc : Nat := 0
  bulkAbort : Nat := 0
  replays : Nat := 0
  evq : List (Nat × List Byte) := []
  evLost : Nat := 0
  /-- Records of the event queue that an unacknowledged EVENT frame carries. -/
  evSent : Nat := 0
  rxSeq : Nat := 0xFFFF
  told : Nat := 0xFFFF
  txSeq : Nat := 0
  tx : List CptFrame := []
  wait : List CptFrame := []
  idle : Option CptFrame := none
  credC : Nat := 32
  credB : Nat := 224
  freedC : Nat := 0
  freedB : Nat := 0
  nakDue : Bool := false
  discarding : Bool := false
  replayOf : Nat := 0
  replayRun : Nat := 0
  relink : Bool := false
  bulk : List BulkWr := []
  recResult : Nat := 0
  recBuf : List Byte := []
  /-- The Bell of the last BELL_MARK (R493). -/
  lastMark : Option Nat := none
deriving DecidableEq, Repr, Inhabited

/-! ### The memory controllers (spec/21 R618) -/

/-- The MEM block (R618): complete patrol passes, and by channel (HBM stack × 32 + channel, 256 + tier 2 channel) the corrected
and the uncorrectable words counted, and the channels that failed calibration (R595). `seen` holds what the patrol under way has
read: the first byte and the length of each stretch, HBM before tier 2. -/
structure MemBlk where
  passes : Nat := 0
  seen : Tbl Nat := []
  ce : Tbl Nat := []
  ue : Tbl Nat := []
  failed : List Nat := []
deriving DecidableEq, Repr, Inhabited

/-! ### The MOD block (spec/20) -/

/-- A reset that waits 4 bl after the previous reset of its engine (R537, R599): KIND, TARGET, and its Bell. -/
structure RstWait where
  kind : Nat := 0
  target : Nat := 0
  bell : Nat := 0
deriving DecidableEq, Repr, Inhabited

/-- A reset of the whole module that is due (R494, R598): RESET_CAUSE, and whether it leads into RECOVERY. -/
structure RstDue where
  cause : Nat := 2
  warm : Bool := false
  recovery : Bool := false
deriving DecidableEq, Repr, Inhabited

/-- The MOD block (R610), the pins and the resets that run (R597-R600): `running` the die, region and X-die 1 resets
(KIND, TARGET), `last` the Bell at which the last reset of an engine (KIND, TARGET) began. -/
structure ModBlk where
  ready : Bool := false
  recovery : Bool := false
  shutdown : Bool := false
  step : Nat := 1
  cause : Nat := 0
  rstDone : Bool := false
  rstStatus : Nat := 0
  slot : Nat := 0
  startupMs : Nat := 0
  resetLow : Bool := false
  present : Bool := false
  /-- Power good has been reached since VAO came up (R593), and start-up waits for MOD_RESET_N to go high. -/
  powered : Bool := false
  waitHigh : Bool := false
  due : Option RstDue := none
  deferred : List RstWait := []
  running : List (Nat × Nat) := []
  last : List RstWait := []
deriving DecidableEq, Repr, Inhabited

/-- The PWR block, the input and the governor (R274, R283, R592, R593, R602, R611, R612). `okUs`, `lowUs` and `overUs` are how
long the input has stood in 38-52 V, outside 35-54 V, and above 70 A; `tripped` says that a thermal trip caused the shutdown,
`vinReg` and `iinReg` are what PWR_IN shows, refreshed with the sensors. -/
structure PwrBlk where
  cap : Nat := 2400
  hold : Bool := false
  holdSeen : Bool := false
  lastW : Nat := 0
  govCount : Nat := 0
  /-- The Bell or interval at which the governor enters HOLD, and at which it leaves it (R274). -/
  enterAt : Option Nat := none
  leaveAt : Option Nat := none
  lowRun : Nat := 0
  gateActive : Nat := 0
  gateRegions : Nat := 0
  vin : Nat := 0
  iin : Nat := 0
  inputLow : Bool := false
  inputHigh : Bool := false
  thermWarn : Bool := false
  rails : Nat := 0
  temps : List Nat := []
  coolRun : Nat := 0
  charged : Bool := false
  vao : Bool := false
  okUs : Nat := 0
  lowUs : Nat := 0
  overUs : Nat := 0
  tripped : Bool := false
  /-- INPUT_RANGE was raised for the current excursion of the input. -/
  excursion : Bool := false
  vinReg : Nat := 0
  iinReg : Nat := 0
deriving DecidableEq, Repr, Inhabited

/-- The test access port (R572): the instruction, the last value of the register scan chain with its status, and the
boundary cells latched. -/
structure TapBlk where
  ir : Nat := 0xFF
  dr : Nat := 0
  boundary : Nat := 0
  drive : Bool := false
deriving DecidableEq, Repr, Inhabited

/-- The I3C target (R607): dynamic address, interrupt enable, maximum read length, register pointer, pending interrupt
bytes, and the bytes that the last read or CCC returned. -/
structure I3cBlk where
  addr : Option Nat := none
  ibi : Bool := false
  mrl : Nat := 0
  ptr : Nat := 0
  pending : List Nat := []
  out : List Byte := []
deriving DecidableEq, Repr, Inhabited

/-- The TST block (R585, R586): `kind` is the OP of the running command, `running` the regions in full-power BIST,
`waiting` those not yet admitted (R573), `results` the result ring, oldest first. -/
structure TstBlk where
  busy : Bool := false
  repairFull : Bool := false
  unrepaired : Bool := false
  running : List Nat := []
  waiting : List Nat := []
  kind : Nat := 0
  regionsOk : Nat := 0
  arg : Nat := 0
  done : Bool := false
  status : Nat := 0
  run : Nat := 0
  dropped : Nat := 0
  results : List (List Byte) := []
  resSel : Nat := 0
  repSel : Nat := 0
  /-- The digest of the flash content failed (R575). -/
  contentBad : Bool := false
  /-- Ports whose X-die logic failed and that stay OFF (R575). -/
  deadPorts : List Nat := []
  /-- Tier 2 channels of X-die 1 whose logic failed (R575): they are unavailable as R35 states. -/
  deadChannels : List Nat := []
deriving DecidableEq, Repr, Inhabited

/-! ### Snapshots (spec/18) -/

/-- An object of a generation before it is sealed (R557, R558): its manifest fields and its bytes. -/
structure SnpObj where
  okind : Nat := 0
  item : Nat := 0
  stg : Nat := 0
  adapter : Nat := 0
  addr : Nat := 0
  bytes : List Byte := []
deriving DecidableEq, Repr, Inhabited

/-- A restore that runs (R563, R564, R567). -/
structure RestoreJob where
  lesson : Nat := 0
  source : Nat := 0
  verify : Bool := false
  upTo : Nat := 0
deriving DecidableEq, Repr, Inhabited

/-- What the snapshot engine keeps of a context (R553, R554, R565, R567, R569): `verify` is the reference LESSON, `prev` the
digest that the next generation's PREV takes. -/
structure SnpCtx where
  armed : Bool := false
  plan : Nat := 0
  verify : Option Nat := none
  now : Bool := false
  lastDigest : Option Nat := none
  lastCap : Option Nat := none
  gen : Nat := 0
  prev : List Byte := []
  prevLesson : Nat := 0
  restoring : Option RestoreJob := none
deriving DecidableEq, Repr, Inhabited

/-- Where a capture stands (R556, R559). -/
inductive SnpPhase where
  | copy | drain
deriving DecidableEq, Repr, Inhabited

/-- A capture of a context (R556, R559, R560): its objects, its copy of the snapshot key, and what its manifest will say. -/
structure SnpJob where
  ctx : Nat := 0
  ptn : Nat := 0
  phase : SnpPhase := .copy
  lesson : Nat := 0
  stamp : Nat := 0
  form : Nat := 0
  meas : List Byte := []
  mirror : Bool := false
  key : List Byte := []
  objs : List SnpObj := []
  buf : Nat := 0
  bufLen : Nat := 0
deriving DecidableEq, Repr, Inhabited

/-- A mirror of a generation under way at its origin (R561): what is still to send, the stamp of the last send. -/
structure MirrorTx where
  ctx : Nat := 0
  gen : Nat := 0
  rest : List Byte := []
  sent : Nat := 0
deriving DecidableEq, Repr, Inhabited

/-- A generation in flash (R550, R558): of this module's context, or in the MIRROR area of module `src`. -/
structure Gen where
  mirror : Bool := false
  src : Nat := 0x3FF
  ctx : Nat := 0
  gen : Nat := 0
  lesson : Nat := 0
  nonce : List Byte := []
  digest : List Byte := []
  manifest : List Byte := []
  objs : List (List Byte) := []
  /-- The local copy is held; a mirrored generation stays listed after DELETE. -/
  held : Bool := true
  mirrored : Bool := false
  localFailed : Bool := false
  mirrorFailed : Bool := false
deriving DecidableEq, Repr, Inhabited

/-- The SNP block (R569), the engine's jobs, and the directory of flash with the highest GEN ever recorded for each
context (R550, R565). -/
structure SnpBlk where
  args : List Nat := [0, 0, 0, 0, 0]
  done : Bool := false
  busy : Bool := false
  measDiffer : Bool := false
  status : Nat := 0
  ready : Bool := false
  mirrorUnits : Nat := 64
  mirrorNext : Nat := 64
  keep : Nat := 3
  buddyValid : Bool := false
  buddyLmn : Nat := 0
  verified : Nat := 0
  skipped : Nat := 0
  failMirror : Nat := 0
  failDigest : Nat := 0
  qbuf : List Byte := []
  ctx : Tbl SnpCtx := []
  jobs : List SnpJob := []
  mirrors : List MirrorTx := []
  gens : List Gen := []
  maxGen : Tbl Nat := []
  /-- The number of the next send of a mirror. -/
  mirrorSeq : Nat := 0
deriving DecidableEq, Repr, Inhabited

/-! ### The Vat (spec/05_adapters_and_vat.md) -/

/-- A request port of the Vat (R179). -/
structure VPort where
  args : List Nat := [0, 0, 0, 0, 0]
  done : Bool := false
  busy : Bool := false
  late : Bool := false
  slotGen : Nat := 0
  status : Nat := 0
deriving DecidableEq, Repr, Inhabited

/-- A fetch in progress (R159, R161, R487): the request's identity, its deadline, what has arrived. -/
structure VFetch where
  slot : Nat := 0
  gen : Nat := 0
  seq : Nat := 0
  ctx : Nat := 0
  adapter : Nat := 0
  port : Nat := 0
  sem : Nat := 0xFFFF
  start : Option Nat := none
  data : List Byte := []
deriving DecidableEq, Repr, Inhabited

/-- What a Vat engine's job does (R162, R163, R165). -/
inductive VJobKind where
  | stage | unstage | evict | cancel | failed | repair
deriving DecidableEq, Repr, Inhabited

/-- A copy or scrub of the Vat that runs or waits. -/
structure VJob where
  kind : VJobKind := .stage
  slot : Nat := 0
  port : Nat := 0
  sem : Nat := 0xFFFF
  /-- The slot's data range or image, as far as it was written. -/
  bytes : Nat := 0
  waiting : Bool := false
  /-- STAGE: the staging entry, its partition and the address of the staged image that the operation named (R165). -/
  stg : Nat := 0
  ptn : Nat := 0
  addr : Nat := 0
deriving DecidableEq, Repr, Inhabited

/-- The VAT block (R178, R179) and the engine's open work. -/
structure VatBlk where
  base : Nat := 0
  ready : Bool := false
  size : Nat := 0
  timeout : Nat := 781250
  stale : Nat := 0
  port : Tbl VPort := []
  fetches : List VFetch := []
  jobs : List VJob := []
deriving DecidableEq, Repr, Inhabited

/-! ### Open house (spec/11_syllabus_image.md R389-R396) -/

/-- States of open house (R397 OH_STATE). -/
inductive OhState where
  | empty | based | training | trained
deriving DecidableEq, Repr, Inhabited

/-- An OH_TRAIN run (R391, R393): its arguments, the steps completed, the next token, the Bell at which its Lesson began, the
built-in Timetable, the Press state block up to the schedule table, the adapter image, and whether OH_CLEAR waits for the
Lesson boundary. -/
structure OhJob where
  steps : Nat := 0
  step : Nat := 0
  seqLen : Nat := 0
  seed : Nat := 0
  cursor : Nat := 0
  bound : Nat := 0
  tt : Option Timetable := none
  psb : List Byte := []
  image : List Byte := []
  clearing : Bool := false
deriving DecidableEq, Repr, Inhabited

/-- The MOD_OH registers (R396) and what open house holds: the base descriptor, whether the base carries Rind, the
running job. -/
structure OhBlk where
  state : OhState := .empty
  args : List Nat := [0, 0, 0, 0, 0, 0, 0]
  done : Bool := false
  busy : Bool := false
  lastCmd : Nat := 0
  status : Nat := 0
  outs : List Nat := [0, 0, 0]
  fill : Nat := 0
  desc : List Byte := []
  /-- The run of the last OH_TRAIN, to which its free values belong, and the ADAPTER_ID it trained. -/
  run : Nat := 0
  adapter : Nat := 0
  job : OhJob := {}
deriving DecidableEq, Repr, Inhabited

/-! ### Fabric ports (spec/13_fabric.md) -/

/-- PSTATE of a port (R434). -/
inductive PState where
  | off | dark | training | up | degraded | down | draining
deriving DecidableEq, Repr, Inhabited

/-- PSTATE as FAB_PT_STATE shows it (R434). -/
def PState.code : PState → Nat
  | .off => 0 | .dark => 1 | .training => 2 | .up => 3 | .degraded => 4 | .down => 5 | .draining => 6

/-- A data frame that waits to leave on a port (R430, R433): the port and virtual channel whose buffer it holds, for a frame that
is forwarded. -/
structure TxFrame where
  f : DataFrame := {}
  inPort : Option Nat := none
  inVc : Nat := 0
deriving DecidableEq, Repr, Inhabited

/-- A fabric port: registers (R449) and link state (R431-R439, R445). `sent` holds the frames not yet acknowledged, `idle` the
last IDLE frame sent, `told` the ACK_LSEQ last sent. -/
structure Port where
  dateline : Bool := false
  enablePending : Bool := false
  pstate : PState := .off
  active : Nat := 0
  spareFor : Nat := 0x1F
  failed : Nat := 0
  peerValid : Bool := false
  peerRole : Nat := 0
  peerLmn : Nat := 0x3FF
  corr : Nat := 0
  uncorr : Nat := 0
  replay : Nat := 0
  drop : Nat := 0
  nextTx : Nat := 0
  nextRx : Nat := 0
  sent : List DataFrame := []
  txq : List TxFrame := []
  idle : Option DataFrame := none
  told : Nat := 0xFFF
  nakDue : Bool := false
  replays : Nat := 0
  replayOf : Nat := 0
  discarding : Bool := false
  credit0 : Nat := 1024
  credit1 : Nat := 1024
  freed0 : Nat := 0
  freed1 : Nat := 0
  /-- The lane that the last LINK frame sent names (R436). -/
  askLane : Option Nat := none
  offSince : Option Nat := none
deriving DecidableEq, Repr, Inhabited

/-- One entry of the port map (R440, R450); `selPend` a SEL written, with the Bell of the write, that takes effect at the next
Bell. -/
structure MapEnt where
  va : Bool := false
  pa : Nat := 0
  vb : Bool := false
  pb : Nat := 0
  vs : Bool := false
  ps : Nat := 0
  sel : Bool := false
  selPend : Option (Bool × Nat) := none
deriving DecidableEq, Repr, Inhabited

/-- One FAB_COVER record (R451). -/
structure Cover where
  valid : Bool := false
  buddy : Nat := 0
  lmn : Nat := 0
deriving DecidableEq, Repr, Inhabited

/-- The FAB block (R39, R440, R447, R451); `takePend` an accepted takeover with the Bell of its write. -/
structure FabBlk where
  port : Tbl Port := []
  map : Tbl MapEnt := []
  assigned : Bool := false
  lmn : Nat := 0x3FF
  lmnPend : Option Nat := none
  takeDone : Bool := false
  takeBusy : Bool := false
  takeStatus : Nat := 0
  takeLmn : Nat := 0x3FF
  cover : Tbl Cover := []
  coverLmn : Nat := 0x3FF
  takePend : Option (Nat × Nat) := none
  /-- Role and key slot of the session that asked for the takeover (R507). -/
  takeBy : Nat × Nat := (0, 0)
deriving DecidableEq, Repr, Inhabited

/-! ### Transfers (spec/14_multi_module_jobs.md) -/

/-- A send of this module (R457-R459): the core whose XFER it is, none for one served or made by another engine; the credits
and the bytes that wait while its pool holds fewer (R306); the port of its first hop, none on loopback; the stamp at which its
last frame left (R309); the open slot in which it began. -/
structure Send where
  core : Option Nat := none
  ptn : Nat := 0
  ctx : Nat := 0
  lmn : Nat := 0
  pool : Nat := 0
  seq : Nat := 0
  runahead : Bool := false
  need : Nat := 0
  wire : List Byte := []
  port : Option Nat := none
  left : Option Nat := none
  failed : Bool := false
  retracted : Bool := false
  slot : Option OpenSlot := none
deriving DecidableEq, Repr, Inhabited

/-- A send that arrives (R457-R459, R410): what has arrived of it, the number of its next frame, the stamp of its last frame;
`dropBuf` the closed landing buffer for which its frames are dropped. -/
structure Recv where
  src : Nat := 0
  pool : Nat := 0
  seq : Nat := 0
  data : List Byte := []
  next : Nat := 0
  stamp : Nat := 0
  whole : Bool := false
  dropBuf : Option Nat := none
deriving DecidableEq, Repr, Inhabited

/-- A run-ahead tile held until its verdict stamp V (R308, R310): the send, its buffer and its landing range, its delivery
semaphore; `ctx` is the sender's context. -/
structure Held where
  src : Nat := 0
  pool : Nat := 0
  seq : Nat := 0
  ptn : Nat := 0
  ctx : Nat := 0
  buf : Nat := 0
  off : Nat := 0
  addr : Nat := 0
  len : Nat := 0
  sem : Nat := 0xFFFF
  verdict : Nat := 0
deriving DecidableEq, Repr, Inhabited

/-- A landed send whose space its consumer holds, with the credits to return (R306). -/
structure Landed where
  src : Nat := 0
  pool : Nat := 0
  seq : Nat := 0
  buf : Nat := 0
  ctx : Nat := 0
  credits : Nat := 0
deriving DecidableEq, Repr, Inhabited

/-- A FETCH_REQ that waits at the server (R460). -/
structure FetchReq where
  src : Nat := 0
  pool : Nat := 0
  offset : Nat := 0
  len : Nat := 0
  sem : Nat := 0xFFFF
  seq : Nat := 0
  addr : Nat := 0
deriving DecidableEq, Repr, Inhabited

/-- A digest that a holder of a replica sent (R471): where it landed, the context, and the holder's LMN. -/
structure DigestIn where
  addr : Nat := 0
  ctx : Nat := 0
  src : Nat := 0
deriving DecidableEq, Repr, Inhabited

/-- The transfer and receive engines: sends under way, run-ahead sends that are complete and may still be retracted, sends
that arrive, tiles held, FETCH_REQs, digests that have landed (R471), and the ports that sends in transit keep (R441), by source, pool and send number. -/
structure XfBlk where
  sends : List Send := []
  gone : List Send := []
  recv : List Recv := []
  held : List Held := []
  landed : List Landed := []
  reqs : List FetchReq := []
  routes : List ((Nat × Nat × Nat) × Nat) := []
  digests : List DigestIn := []
deriving DecidableEq, Repr, Inhabited

end Sys2Proof.Machine
end

