-- ==== Sys2Proof/Machine/State.lean ====
section
/-! DEFINITION. The state of the module: every register, table, queue and memory the manual gives it, and the queue of
commands that wait.
Readings and choices: log 6, 8, 15. -/

namespace Sys2Proof.Machine

/-- The keys of one slot (R517): the AES-256-XTS pair, the import key and the export key, with the count of the reads sealed
under the export key (R520). -/
structure KeySlot where
  xts : List Byte := []
  imp : List Byte := []
  exp : List Byte := []
  count : Nat := 0
deriving DecidableEq, Repr, Inhabited

/-- Key slots (R400, R516, R518): of contexts, base windows, partitions, and the key of open house. The module key
is the key material `[]`: it is drawn at each start-up, and with it the whole memory. -/
structure KeyBlk where
  ctx : Tbl (Option KeySlot) := []
  base : Tbl (Option KeySlot) := []
  ptn : Tbl (Option (List Byte)) := []
  openHouse : Option (List Byte) := none
deriving DecidableEq, Repr, Inhabited

/-- A memory word's error state (R527, R528). -/
inductive WordErr where
  | none | single | double
deriving DecidableEq, Repr, Inhabited

/-- The machine. -/
structure State where
  pending : List Instr := []
  fresh : Nat := 0
  cyc : Nat := 0
  mem : Tbl Byte := []
  memKey : Tbl (List Byte) := []
  memErr : Tbl WordErr := []
  tags : Tbl LineTag := []
  /-- The LR reservations (R318): by core × 16 + thread, the aligned 64-byte line. -/
  resv : Tbl Nat := []
  mc : MemBlk := {}
  core : Tbl Core := []
  phys : Tbl (Option Phys) := []
  int : IntBlk := {}
  rc : RcBlk := {}
  ptn : Tbl Ptn := []
  ctx : Tbl Ctx := []
  brn : BrnBlk := {}
  prs : Tbl Prs := []
  bell : BellBlk := {}
  syl : SylBlk := {}
  keys : KeyBlk := {}
  fab : FabBlk := {}
  xf : XfBlk := {}
  led : Ledger := {}
  lcs : LcsBlk := {}
  sec : SecBlk := {}
  cpt : CptBlk := {}
  ses : SesBlk := {}
  mod : ModBlk := {}
  pwr : PwrBlk := {}
  subf : List SubFlag := []
  vat : VatBlk := {}
  tst : TstBlk := {}
  snp : SnpBlk := {}
  oh : OhBlk := {}
  fuse : FuseBlk := {}
  flash : FlashBlk := {}
  tap : TapBlk := {}
  i3c : I3cBlk := {}
deriving DecidableEq, Repr, Inhabited

/-- Why the model stops. -/
inductive Fault where
  /-- Raised by INPUT_SAMPLE for an input beyond the absolute maximum ratings (R588), where the manual gives the module
  no behaviour. Safe: the model stops where the module's behaviour is not stated. -/
  | beyondAbsoluteMaximum
deriving DecidableEq, Repr

/-- Why the model refuses a command. -/
inductive Refusal where
  /-- Raised by an arm of exec for a command that has no meaning yet. Safe: nothing is claimed of it. -/
  | notModelled (mnemonic : String)
deriving DecidableEq, Repr

/-- The machine right after reset. -/
def State.reset : State := {}

end Sys2Proof.Machine
end

