-- ==== Sys2Proof/Machine/Ops.lean ====
section
/-! DEFINITION. Operations that every family of commands shares: access to the parts of State, time and stamps,
free values, faults and the fault log, events, the Ledger journal, addresses, windows, line tags and memory.
Readings and choices: log 5, 6, 8, 9, 20, 23, 44, 80, 107, 120, 127, 129, 130, 131, 132, 147, 158, 161. -/

namespace Sys2Proof.Machine

/-! ### Access to the parts of State -/

/-- Partition `p`. -/
def getPtn (s : State) (p : Nat) : Ptn := tget default s.ptn p
/-- Changes partition `p`. -/
def modPtn (s : State) (p : Nat) (f : Ptn → Ptn) : State := { s with ptn := tmod default s.ptn p f }
/-- Changes the Timetable engine of partition `p`. -/
def modTt (s : State) (p : Nat) (f : Tt → Tt) : State := modPtn s p (fun q => { q with tt := f q.tt })
/-- Context `c`. -/
def getCtx (s : State) (c : Nat) : Ctx := tget default s.ctx c
/-- Changes context `c`. -/
def modCtx (s : State) (c : Nat) (f : Ctx → Ctx) : State := { s with ctx := tmod default s.ctx c f }
/-- Core `n`. -/
def getCore (s : State) (n : Nat) : Core := tget default s.core n
/-- Changes core `n`. -/
def modCore (s : State) (n : Nat) (f : Core → Core) : State := { s with core := tmod default s.core n f }
/-- Thread `t` of core `n`. -/
def getThr (s : State) (n t : Nat) : Thr := tget default (getCore s n).thr t
/-- Changes thread `t` of core `n`. -/
def modThr (s : State) (n t : Nat) (f : Thr → Thr) : State :=
  modCore s n (fun c => { c with thr := tmod default c.thr t f })
/-- Semaphore `i`. -/
def getSem (s : State) (i : Nat) : Sem := tget default s.rc.sem i
/-- Changes semaphore `i`. -/
def modSem (s : State) (i : Nat) (f : Sem → Sem) : State := { s with rc.sem := tmod default s.rc.sem i f }
/-- Barrier `i`. -/
def getBar (s : State) (i : Nat) : Bar := tget default s.rc.bar i
/-- Changes barrier `i`. -/
def modBar (s : State) (i : Nat) (f : Bar → Bar) : State := { s with rc.bar := tmod default s.rc.bar i f }
/-- Credit pool `i`. -/
def getPool (s : State) (i : Nat) : Pool := tget default s.rc.pool i
/-- Changes credit pool `i`. -/
def modPool (s : State) (i : Nat) (f : Pool → Pool) : State := { s with rc.pool := tmod default s.rc.pool i f }
/-- Landing buffer `i`. -/
def getBuf (s : State) (i : Nat) : Landing := tget default s.rc.buf i
/-- Changes landing buffer `i`. -/
def modBuf (s : State) (i : Nat) (f : Landing → Landing) : State := { s with rc.buf := tmod default s.rc.buf i f }

/-- A physical core as start-up sets it on a sound module (R540): cores 0-7 of a cluster carry their numbers,
core 8 is the spare (R19). -/
def physInit (p : Nat) : Phys :=
  if p % 9 < 8 then { state := .active, number := p / 9 * 8 + p % 9, prior := .active, home := p / 9 * 8 + p % 9 }
  else { state := .spare, prior := .spare }

/-- Physical core `p` (R548). -/
def getPhys (s : State) (p : Nat) : Phys := (tget none s.phys p).getD (physInit p)
/-- Changes physical core `p`. -/
def modPhys (s : State) (p : Nat) (f : Phys → Phys) : State :=
  let x := f (getPhys s p)
  { s with phys := tset none s.phys p (if x = physInit p then none else some x) }

/-- Register `r` of a thread; x0 reads 0. -/
def getX (t : Thr) (r : Nat) : DWord := if r = 0 then 0 else tget 0 t.x r
/-- Writes register `r`; a write to x0 is discarded. -/
def setX (t : Thr) (r : Nat) (v : DWord) : Thr := if r = 0 then t else { t with x := tset 0 t.x r v }

/-- The reservation of a thread ends (R318). -/
def dropResv (s : State) (n t : Nat) : State := { s with resv := tdel s.resv (16 * n + t) }

/-- Applies `f` for every element in order. -/
def forEach {α : Type} (xs : List α) (f : State → α → State) (s : State) : State := xs.foldl f s

/-! ### Time (R249-R251, R627) -/

/-- The Bell counter counts (R258, R627). -/
def counting (s : State) : Bool :=
  match s.bell.state with
  | .running | .holdover | .lost => true
  | _ => false

/-- The stamp with Bell number `b` and sub-Bell count `sub` (R250). -/
def stampOf (b sub : Nat) : Nat := (b % 2 ^ 53) * 2048 + sub % 2048

/-- The current stamp; 0 while the Bell counter does not count (R250). -/
def now (s : State) : Nat := if counting s then stampOf s.bell.count s.bell.sub else 0

/-- Outcome of a wait judged against its deadline (R251). -/
inductive Judged where
  | ok | late | timeout
deriving DecidableEq, Repr

/-- The arrival stamp of an awaited event judged against a deadline stamp (R251); no deadline is success. -/
def judge (arrival : Nat) : Option Nat → Judged
  | none => .ok
  | some d => if arrival < d then .ok else if arrival = d then .late else .timeout

/-- As `judge`; while the counter does not count no deadline expires (R627). -/
def judgeNow (s : State) (d : Option Nat) : Judged := if counting s then judge (now s) d else .ok

/-! ### Free values -/

/-- A fresh free draw of `k` bytes. -/
def draw (s : State) (k : Nat) : List Byte × State :=
  ((countFrom 0 k).map (Config.random s.fresh), { s with fresh := s.fresh + 1 })

/-! ### Power and reset (R46, R283, R597, R600) -/

/-- PWR_CAP as it takes effect (R46, R283). -/
def setCap (s : State) : Nat := max 900 (min 2400 s.pwr.cap)

/-- The cap in force (R46, R283, R592, R602): the setting, less in the warn state, and 66 A at a low input voltage. -/
def capWatts (s : State) : Nat :=
  let w := if s.pwr.thermWarn then min (setCap s) 1800 else setCap s
  if s.pwr.inputLow then min w (66 * s.pwr.vin / 100) else w

/-- A die, region or X-die reset (KIND, TARGET) reaches a unit that another reset (KIND, TARGET) names (R597). -/
def resetCovers (a b : Nat × Nat) : Bool :=
  a == b ||
  (match a, b with
   | (3, d), (4, r) => decide (d < 4) && r / 4 == d
   | (3, d), (5, n) => decide (d < 4) && n / 256 == d
   | (4, r), (5, n) => n / 64 == r
   | (3, d), (6, k) => d == 5 && k == 1
   | _, _ => false)

/-- The unit is being reset. -/
def resetting (s : State) (u : Nat × Nat) : Bool := s.mod.running.any (fun r => resetCovers r u)

/-- The parts outside the VAO group are out of reset (R494, R600). -/
def partsUp (s : State) : Bool := !(s.mod.resetLow || s.mod.shutdown || s.mod.recovery)

/-- An in-band interrupt of the I3C target (R607). -/
def ibi (s : State) (b : Nat) : State := if s.i3c.ibi then { s with i3c.pending := s.i3c.pending ++ [b] } else s

/-! ### Identity -/

/-- FAB_ID.LMN: the assigned number, 0x3FF for none (R451). -/
def ownLmn (s : State) : Nat := if s.fab.assigned then s.fab.lmn else 0x3FF

/-! ### Events (R490-R492) -/

/-- Puts an event record into the queue of 4,096; a full queue drops and counts it (R490, R492). -/
def queueEvent (s : State) (kind : Nat) (rec : List Byte) : State :=
  if s.cpt.evq.length < 4096 then { s with cpt.evq := s.cpt.evq ++ [(kind, rec)] }
  else { s with cpt.evLost := satInc 16 s.cpt.evLost }

/-- A record of kinds 2-7 in the layout of R491, with `body` at 0x10. -/
def eventRec (s : State) (kind ptn ctx : Nat) (body : List Byte) : List Byte :=
  withCrcTail (slice ([(0x01 : Byte), BitVec.ofNat 8 kind, 0, 0] ++ leBytes 8 (now s) ++ leBytes 2 ptn
    ++ leBytes 2 ctx ++ slice body 0 44) 0 64) 60

/-! ### Faults (R542-R547) -/

/-- The 64 bytes of an FSR (R544). -/
def Fsr.bytes (f : Fsr) : List Byte :=
  withCrcTail (slice ([(0x01 : Byte), BitVec.ofNat 8 f.code.cls] ++ leBytes 2 f.code.code ++ leBytes 4 f.seq
    ++ leBytes 8 f.stamp ++ leBytes 8 f.device ++ leBytes 2 f.lmn
    ++ [BitVec.ofNat 8 f.kind.code, BitVec.ofNat 8 f.epoch] ++ leBytes 2 f.unit
    ++ [BitVec.ofNat 8 f.ptn, 0] ++ leBytes 2 f.ctx ++ leBytes 2 f.rep ++ leBytes 4 f.lesson
    ++ slice f.detail 0 20) 0 64) 60

/-- The counters of the INT block that a raise of a code increments (R547). -/
def countFault (i : IntBlk) : FaultCode → IntBlk
  | .resultReplaced => { i with chkReplaced := satInc 16 i.chkReplaced }
  | .checkerFault => { i with chkFault := satInc 16 i.chkFault }
  | .noMajority => { i with noMaj := satInc 16 i.noMaj }
  | .arithResidue => { i with residue := satInc 16 i.residue }
  | .memUe | .memUeModule => { i with memUe := satInc 16 i.memUe }
  | .memCe => { i with memCe := satInc 16 i.memCe }
  | .sramUe => { i with sramUe := satInc 16 i.sramUe }
  | .sramCe => { i with sramCe := satInc 16 i.sramCe }
  | .quizFail => { i with quizFailed := satInc 16 i.quizFailed }
  | _ => i

/-- The number of a memory channel in the MEM block's tables (R618); none for another unit. -/
def channelOf (k : UnitKind) (u : Nat) : Option Nat :=
  match k with
  | .hbm => some u
  | .tier2 => some (256 + u)
  | _ => none

/-- CE and UE of the MEM block (R618). -/
def countWord (m : MemBlk) (c : FaultCode) (a : FaultAt) : MemBlk :=
  match channelOf a.kind a.unit with
  | none => m
  | some n =>
    match c with
    | .memCe => { m with ce := tset 0 m.ce n (satInc 8 (tget 0 m.ce n)) }
    | .memUe | .memUeModule => { m with ue := tset 0 m.ue n (satInc 8 (tget 0 m.ue n)) }
    | _ => m

/-- The Lesson count bits [31:0] of a partition, 0 for none (R544, R630). -/
def lessonOf (s : State) (p : Nat) : Nat := if p < 64 then (getPtn s p).tt.lesson % 2 ^ 32 else 0

/-- Raises a fault: a waiting record with the same CODE, unit and CTX takes a repeat, otherwise a new record is
written; a class M fault sets MODULE_FAULT and interrupts the I3C controller (R544, R546, R547, R607). -/
def raise (s : State) (c : FaultCode) (a : FaultAt) : State :=
  let i := countFault s.int c
  let i := { i with lastCode := c.code, moduleFault := i.moduleFault || c.cls == 2 }
  let s := if c.cls = 2 then ibi s 2 else s
  let s := { s with mc := countWord s.mc c a }
  let same (f : Fsr) : Bool :=
    f.waiting && f.code == c && f.kind == a.kind && f.unit == a.unit && f.ctx == a.ctx
  if i.log.any same then
    { s with int := { i with log := modifyFirst same (fun f => { f with rep := satInc 16 f.rep }) i.log } }
  else
    let f : Fsr := { code := c, seq := wrap 32 (i.logSeq + 1), stamp := now s, device := field s.sec.deviceId 0 8,
                     lmn := ownLmn s, kind := a.kind, epoch := a.epoch, unit := a.unit, ptn := a.ptn,
                     ctx := a.ctx, lesson := lessonOf s a.ptn, detail := a.detail,
                     interval := if counting s then none else some (s.cyc / 2048) }
    let full := decide (1024 ≤ i.log.length)
    { s with int := { i with logSeq := f.seq, logWrapped := i.logWrapped || full,
                             log := (if full then i.log.drop 1 else i.log) ++ [f] } }

/-- A DETAIL whose first 8 bytes are an address (R545). -/
def detailAddr (a : Nat) : List Byte := leBytes 8 a

/-! ### The Ledger journal (R507-R510) -/

/-- LCS_STATE.LC. -/
def LifeCycle.code : LifeCycle → Nat
  | .manufacture => 0 | .provisioned => 1 | .deployed => 2 | .returned => 3 | .scrapped => 4

/-- The 64 bytes of a journal entry (R507). -/
def JEntry.bytes (e : JEntry) : List Byte :=
  leBytes 8 e.seq ++ leBytes 8 e.stamp ++ leBytes 2 e.action ++ leBytes 1 (e.role + 4 * e.slot)
    ++ leBytes 1 e.result ++ leBytes 1 e.lc ++ leBytes 1 e.ptn ++ leBytes 2 e.aux ++ slice e.data 0 32
    ++ slice e.link 0 8

/-- The ASCII bytes of a string. -/
def ascii (x : String) : List Byte := x.toList.map (fun c => BitVec.ofNat 8 c.toNat)

/-- H(0) of the journal (R508). -/
def journalHead0 (s : State) : List Byte := shake256 64 (ascii "SV44-LEDGER" ++ s.sec.deviceId)

/-- The journal has room for an entry on behalf of a role (R510). -/
def journalRoom (s : State) : Bool := decide (s.led.seq + 1 ≤ 32512 + s.led.ack)

/-- Appends a journal entry (R507-R510): a module entry that finds the ring used up overwrites the oldest one, sets
JRN_OVERWRITE and raises JOURNAL_OVERWRITE. -/
def journal (s : State) (e : JEntry) : State :=
  let head := if s.led.seq = 0 then journalHead0 s else s.led.head
  let e := { e with seq := s.led.seq + 1, stamp := if s.bell.state = .unlocked then 0 else now s,
                    lc := s.lcs.lc.code, link := head.take 8 }
  let full := decide (32768 + s.led.ack < e.seq)
  let s := { s with led := { s.led with journal := (if decide (32768 ≤ s.led.journal.length)
                                          then s.led.journal.drop 1 else s.led.journal) ++ [e],
                                        seq := e.seq, head := shake256 64 (head ++ e.bytes) } }
  if full then raise { s with lcs.jrnOverwrite := true } .journalOverwrite { kind := .security } else s

/-! ### Partitions, contexts and cores -/

/-- The module is in open house: no module Syllabus, MODE 1 (R397). -/
def openHouse (s : State) : Bool := s.syl.mode == 1

/-- The scale recipe of open house: methods by kind, and INIT_EXP 0 (R393). -/
def ohRecipe : List Recipe := [⟨0, 1, 0⟩, ⟨1, 2, 0⟩, ⟨2, 2, 0⟩, ⟨3, 0, 0⟩, ⟨4, 4, 0⟩]

/-- The scale recipe in force for a partition (R375, R393). -/
def recipeOf (s : State) (p : Nat) : List Recipe :=
  match (getPtn s p).syl with
  | some y => y.recipe
  | none => if openHouse s && p == 0 then ohRecipe else []

/-- The grant of a partition (R367); in open house PTN 0 holds every resource with one context (R389). -/
def grantOf (s : State) (p : Nat) : Option Grant :=
  match s.syl.module with
  | some m => m.grants.find? (fun g => g.ptn == p)
  | none => if openHouse s && p == 0 then
      some { ptn := 0, ctxCount := 1, ctxBase := 0, semCount := 0xFFFF, barCount := 4096, poolCount := 0,
             power := 1700 } else none

/-- The partition in whose CTX range a context lies (R367). -/
def ptnOfCtx (s : State) (c : Nat) : Option Nat :=
  match s.syl.module with
  | some m => (m.grants.find? (fun g => decide (g.ctxBase ≤ c) && decide (c < g.ctxBase + g.ctxCount))).map Grant.ptn
  | none => if openHouse s && c == 0 then some 0 else none

/-- The contexts of a partition's range. -/
def ctxRange (s : State) (p : Nat) : List Nat :=
  match grantOf s p with
  | some g => countFrom g.ctxBase g.ctxCount
  | none => []

/-- A context is attached (R400): RUNNING, PREEMPTING, DETACHING until it leaves, RESTART until the boundary. -/
def Ctx.attached (c : Ctx) : Bool :=
  match c.state with
  | .running | .preempting => true
  | .detaching | .restart => c.stay
  | _ => false

/-- The context is attached to the partition (R122, R400). -/
def attachedTo (s : State) (p c : Nat) : Bool := (getCtx s c).attached && ptnOfCtx s c == some p

/-- Attached contexts of a partition (R422 ATTACHED). -/
def attachedCount (s : State) (p : Nat) : Nat := ((ctxRange s p).filter (fun c => (getCtx s c).attached)).length

/-- A partition Syllabus is in force (R398: ACTIVE or HELD). -/
def Ptn.inForce (q : Ptn) : Bool := (q.state == .active || q.state == .held) && q.syl.isSome

/-- The partition holds its clusters: until its teardown has emptied it (R412). -/
def Ptn.owns (q : Ptn) (k : Nat) : Bool :=
  match q.syl with
  | some y => bitOf y.clusters k && (q.state == .active || q.state == .held || q.state == .teardown)
  | none => false

/-- The partition to which a cluster belongs (R27). -/
def ptnOfCluster (s : State) (k : Nat) : Option Nat :=
  ((s.ptn.find? (fun e => e.2.owns k)).map Prod.fst)

/-- The physical core that carries a core number (R20, R548). -/
def physOf (s : State) (n : Nat) : Option Nat :=
  (countFrom (n / 8 * 9) 9).find? (fun p => (getPhys s p).number == n && (getPhys s p).state != .retired)

/-- The core number is in service: a core carries it and runs no quiz or detention test (R24, R335, R540). -/
def inService (s : State) (n : Nat) : Bool :=
  match physOf s n with
  | some p => !(getPhys s p).testing && ((getPhys s p).state == .active || (getPhys s p).leaving) && !(getCore s n).frozen
      && !resetting s (5, n)
  | none => false

/-- The partition of a core; none in a quiz or detention (R23, R24). -/
def ptnOfCore (s : State) (n : Nat) : Option Nat := if inService s n then ptnOfCluster s (n / 8) else none

/-- The core numbers of a partition's clusters. -/
def coresOf (s : State) (p : Nat) : List Nat :=
  (countFrom 0 1024).filter (fun n => (getPtn s p).owns (n / 8))

/-- SLVCTX.VALID of a thread: CTX is attached to the core's partition (R320). -/
def ctxValid (s : State) (n t : Nat) : Bool :=
  match ptnOfCluster s (n / 8) with
  | some p => attachedTo s p (getThr s n t).ctx
  | none => false

/-- The issuer that a thread is (R327, R345). -/
def issuerOf (s : State) (n t : Nat) : Issuer :=
  let h := getThr s n t
  { core := n, thr := t, mmode := h.mmode, ctx := h.ctx, ctxOn := ctxValid s n t,
    ptn := (ptnOfCluster s (n / 8)).getD 0 }

/-- The die of a region, a core's region and die (R19). -/
def regionOfCore (n : Nat) : Nat := n / 64
def dieOfCore (n : Nat) : Nat := n / 256

/-- Adds conversion events to a context's counters (R66, R241). -/
def addConv (s : State) (c sat nan : Nat) : State :=
  modCtx s c (fun x => { x with convSat := satAdd 16 x.convSat sat, convNan := satAdd 16 x.convNan nan })

/-! ### Addresses (R339-R343) -/

/-- A byte's place: the memory kind and the linear offset in it. -/
abbrev Place := MemKind × Nat

/-- The size of a memory kind's linear space (R340). -/
def MemKind.size : MemKind → Nat
  | .coreSram => 2 ^ 31 | .clusterSram => 2 ^ 30 | .hbm => 2 ^ 39 | .tier2 => 2 ^ 40

/-- The granule of a window of the kind (R344). -/
def MemKind.granule : MemKind → Nat
  | .coreSram | .clusterSram => 4096
  | .hbm | .tier2 => 65536

/-- On-chip SRAM. -/
def MemKind.isSram : MemKind → Bool
  | .coreSram | .clusterSram => true
  | _ => false

/-- The canonical local address of a place (R340-R342). -/
def addrOf (p : Place) : Nat :=
  match p.1 with
  | .coreSram => 0x0200000000 + p.2
  | .clusterSram => 0x0100000000 + p.2
  | .hbm => 0x1000000000 + p.2 / 2 ^ 36 * 2 ^ 40 + p.2 % 2 ^ 36
  | .tier2 => 0x2000000000 + p.2 / 2 ^ 36 * 2 ^ 40 + p.2 % 2 ^ 36

/-- The place of a local address (R340); `own` is the core whose SRAM the first 2 MiB alias, for its threads and
its arrays. Unassigned addresses have none. -/
def placeOf (own : Option Nat) (la : Nat) : Option Place :=
  if la < 2 ^ 21 then own.map (fun n => (.coreSram, n * 2 ^ 21 + la))
  else if 0x0100000000 ≤ la ∧ la < 0x0140000000 then some (.clusterSram, la - 0x0100000000)
  else if 0x0200000000 ≤ la ∧ la < 0x0280000000 then some (.coreSram, la - 0x0200000000)
  else
    let h := la - 0x1000000000
    let t := la - 0x2000000000
    if 0x1000000000 ≤ la ∧ h / 2 ^ 40 < 8 ∧ h % 2 ^ 40 < 2 ^ 36 then
      some (.hbm, h / 2 ^ 40 * 2 ^ 36 + h % 2 ^ 40)
    else if 0x2000000000 ≤ la ∧ t / 2 ^ 40 < 16 ∧ t % 2 ^ 40 < 2 ^ 36 then
      some (.tier2, t / 2 ^ 40 * 2 ^ 36 + t % 2 ^ 40)
    else none

/-- Register space (R340): the offset of a local address in it. -/
def regOffset (la : Nat) : Option Nat :=
  if 0x4000000000 ≤ la ∧ la < 0x4000400000 then some (la - 0x4000000000) else none

/-- The local address of a global address that reaches this module (R339). -/
def localAddr (s : State) (ga : Nat) : Option Nat :=
  let l := ga / 2 ^ 54
  if l = 0x3FF ∨ (s.fab.assigned ∧ l = s.fab.lmn) then some (ga % 2 ^ 54) else none

/-- The place of an item of `n` bytes at a global address: in one slice of one kind (R339, R343). -/
def itemPlace (s : State) (own : Option Nat) (ga n : Nat) : Option Place :=
  match localAddr s ga with
  | none => none
  | some la =>
    match placeOf own la, placeOf own (la + (n - 1)) with
    | some (k, o), some (k', o') =>
      if k = k' ∧ o' = o + (n - 1) ∧ (k.isSram ∨ o / 2 ^ 36 = o' / 2 ^ 36) then some (k, o) else none
    | _, _ => none

/-! ### Windows (R344-R346, R371) -/

/-- A right that an access needs. -/
inductive Right where
  | read | write | exec
deriving DecidableEq, Repr

/-- The window gives the right in the mode (R344, R369). -/
def Win.allows (w : Win) (mmode : Bool) (r : Right) : Bool :=
  bitOf w.rights ((if mmode then 3 else 0) + (match r with | .read => 0 | .write => 1 | .exec => 2))

/-- The offset lies in the window. -/
def Win.has (w : Win) (p : Place) : Bool := w.mem == p.1 && decide (w.base ≤ p.2) && decide (p.2 < w.base + w.size)

/-- The window overlaps a range of its kind. -/
def Win.meets (w : Win) (k : MemKind) (o n : Nat) : Bool :=
  w.mem == k && decide (o < w.base + w.size) && decide (w.base < o + n)

/-- One GiB. -/
def giB : Nat := 2 ^ 30

/-- BASE_ID of a base descriptor of open house (R392). -/
def ohBaseId (s : State) : Nat := field s.oh.desc 0x18 2

/-- The module's windows: those of the module Syllabus, or the fixed ones of open house (R390). -/
def moduleWins (s : State) : List Win :=
  match s.syl.module with
  | some m => m.wins
  | none =>
    if openHouse s then
      [{ type := .vat, mem := .tier2, key := .module, base := 0, size := 256 * giB },
       { type := .base, mem := .hbm, rights := 0x2D, key := .base, owner := ohBaseId s, base := 0, size := 384 * giB,
         rindBit := true },
       { type := .colsum, mem := .hbm, rights := 0x1B, key := .base, owner := ohBaseId s, base := 384 * giB,
         size := 4 * giB }]
    else []

/-- A partition's windows: those of its Syllabus, or in open house the staging window, the working memory and the
token buffer (R390). -/
def ptnWins (s : State) (p : Nat) : List Win :=
  match (getPtn s p).syl with
  | some y => y.wins
  | none =>
    if openHouse s && p == 0 then
      [{ type := .staging, mem := .hbm, key := .partition, base := 388 * giB, size := giB },
       { type := .shared, mem := .hbm, rights := 0x1B, key := .partition, base := 389 * giB, size := 123 * giB },
       { type := .shared, mem := .tier2, rights := 0x1B, key := .partition, base := 256 * giB, size := 256 * giB },
       { type := .tensor, mem := .hbm, key := .base, owner := ohBaseId s, base := 0, size := 384 * giB }]
    else []

/-- The windows that a thread or an engine acting for it reaches (R345, R371): the context's PRIVATE windows while
it is attached, the partition's SHARED windows, and the BASE and COLSUM windows in which it declares a TENSOR. -/
def reachWins (s : State) (i : Issuer) : List Win :=
  let ws := ptnWins s i.ptn
  let bases := (ws.filter (fun w => w.type == .tensor)).map Win.owner
  ws.filter (fun w => w.type == .shared || (w.type == .priv && w.owner == i.ctx && i.ctxOn))
    ++ (moduleWins s).filter (fun w => (w.type == .base || w.type == .colsum) && bases.contains w.owner)

/-- Number of bytes from a place on that windows with the right cover, at most `n`; each round takes one window. -/
def coverGo (ws : List Win) (mmode : Bool) (r : Right) : (fuel : Nat) → Place → (n : Nat) → Nat
  | 0, _, _ => 0
  | f + 1, p, n =>
    if n = 0 then 0 else
    match ws.find? (fun w => w.has p && w.allows mmode r) with
    | some w =>
      let k := min n (w.base + w.size - p.2)
      k + coverGo ws mmode r f (p.1, p.2 + k) (n - k)
    | none => 0

/-- Bytes of a cluster's part of an SRAM kind. -/
def clusterSpan : MemKind → Nat
  | .coreSram => 2 ^ 24
  | .clusterSram => 2 ^ 23
  | _ => 0

/-- The SRAM of the partition's clusters that a range meets, as windows that give every right: M-mode reaches all of it
(R345). -/
def sramWins (s : State) (p : Nat) (pl : Place) (n : Nat) : List Win :=
  let u := clusterSpan pl.1
  if u = 0 ∨ n = 0 then [] else
  ((countFrom (pl.2 / u) ((pl.2 + (n - 1)) / u - pl.2 / u + 1)).filter (getPtn s p).owns).map (fun k =>
    { type := .shared, mem := pl.1, rights := 0x3F, base := k * u, size := u })

/-- How many bytes of an item, from its start, the issuer may reach with the right (R345): every byte lies in a window with the
right or, in M-mode, in the SRAM of a cluster of the partition. A window ends at most once, so as many rounds as windows do. -/
def coverage (s : State) (i : Issuer) (r : Right) (p : Place) (n : Nat) : Nat :=
  let ws := reachWins s i ++ (if i.mmode then sramWins s i.ptn p n else [])
  coverGo ws i.mmode r ws.length p n

/-- The place of an item that the issuer may reach with the right over its whole extent (R345, R629). -/
def checkFrom (own : Option Nat) (s : State) (i : Issuer) (r : Right) (ga n : Nat) : Option Place :=
  match itemPlace s own ga n with
  | some p => if coverage s i r p n = n then some p else none
  | none => none

/-- As `checkFrom` for the issuing core's threads and arrays, which reach its SRAM in the first 2 MiB (R340). -/
def checkItem (s : State) (i : Issuer) (r : Right) (ga n : Nat) : Option Place := checkFrom (some i.core) s i r ga n

/-- As `checkFrom` for an engine that is no array of the issuing core: the first 2 MiB are unassigned to it (R340). -/
def checkOther (s : State) (i : Issuer) (r : Right) (ga n : Nat) : Option Place := checkFrom none s i r ga n

/-- The BASE windows that carry Rind (R212): those of `brn.rind`. -/
def rindWins (s : State) : List Win :=
  (moduleWins s).filter (fun w => w.type == .base && s.brn.rind.contains w.owner)

/-- The range meets a window that carries Rind (R213). -/
def meetsRind (s : State) (p : Place) (n : Nat) : Bool := (rindWins s).any (fun w => w.meets p.1 p.2 n)

/-- The whole range lies inside a window that carries Rind (R215). -/
def insideRind (s : State) (p : Place) (n : Nat) : Bool :=
  (rindWins s).any (fun w => w.has p && w.has (p.1, p.2 + (n - 1)))

/-- The window of an issuer in which a place lies. -/
def winAt (s : State) (i : Issuer) (p : Place) : Option Win := (reachWins s i).find? (fun w => w.has p)

/-- The window whose tag an access carries (R347): one that the issuer reaches, or, where M-mode reaches the SRAM of the partition's
clusters, a PRIVATE window of any context of the partition. -/
def tagWin (s : State) (i : Issuer) (p : Place) : Option Win :=
  match winAt s i p with
  | some w => some w
  | none => (ptnWins s i.ptn).find? (fun w => w.type == .priv && w.has p)

/-- The line tag that an access carries (R347): that of its window, or the partition's SHARED tag. -/
def accessTag (s : State) (i : Issuer) (p : Place) : LineTag :=
  match tagWin s i p with
  | some w => if w.type == .priv then .priv w.owner (getCtx s w.owner).gen else .shared i.ptn (getPtn s i.ptn).gen
  | none => .shared i.ptn (getPtn s i.ptn).gen

/-- The index of a base window in WIND order, its base slot (R424, R516). -/
def baseSlot (s : State) (baseId : Nat) : Option Nat :=
  let bs := (moduleWins s).filter (fun w => w.type == .base)
  (bs.findIdx? (fun w => w.owner == baseId))

/-- The memory key of a context (R518); in open house every class uses one key (R389). -/
def ctxKey (s : State) (c : Nat) : List Byte :=
  match s.keys.openHouse with
  | some k => k
  | none => ((tget none s.keys.ctx c).map KeySlot.xts).getD []

/-- The encryption key of a key class (R518): of the window's context, base slot, partition, or the module's. In
open house every class uses one key (R389). -/
def classKey (s : State) (ptn : Nat) (w : Win) : List Byte :=
  match s.keys.openHouse with
  | some k => k
  | none =>
    match w.key with
    | .context => ((tget none s.keys.ctx w.owner).map KeySlot.xts).getD []
    | .base =>
      match baseSlot s w.owner with
      | some b => ((tget none s.keys.base b).map KeySlot.xts).getD []
      | none => []
    | .partition => (tget none s.keys.ptn ptn).getD []
    | .module => []

/-- The key under which an issuer's access at a place is enciphered (R518). -/
def accessKey (s : State) (i : Issuer) (p : Place) : List Byte :=
  match winAt s i p with
  | some w => classKey s i.ptn w
  | none => (s.keys.openHouse).getD []

/-! ### Run-ahead tiles (R308) -/

/-- A range meets the landing range of a run-ahead tile that waits for its verdict: loads and array staging wait (R308). -/
def heldOver (s : State) (p : Place) (n : Nat) : Bool :=
  s.xf.held.any (fun h => decide (h.addr < addrOf p + n) && decide (addrOf p < h.addr + h.len))

/-- As `heldOver`, for an item of `n` bytes at a global address. -/
def heldAt (s : State) (own : Option Nat) (ga n : Nat) : Bool :=
  match itemPlace s own ga n with
  | some p => heldOver s p n
  | none => false

/-! ### Memory -/

/-- What a byte of memory that nothing has written reads as: start-up fills memory with zeros (R594 step 7). -/
def memDefault : Byte := 0

/-- A word's error state is cleared for the words that a write covers whole. -/
def clearErr (e : Tbl WordErr) (a n : Nat) : Tbl WordErr :=
  e.filter (fun x => !(decide (a ≤ 8 * x.1) && decide (8 * x.1 + 8 ≤ a + n)))

/-- The stored bytes at a canonical local address, before keys, tags and error codes. -/
def stored (s : State) (a n : Nat) : List Byte := tslice memDefault s.mem a n

/-- The 64-byte units that a range touches. -/
def unitsOf (a n : Nat) : List Nat := if n = 0 then [] else countFrom (a / 64) ((a + n - 1) / 64 - a / 64 + 1)

/-- The reservations of lines outside a range that is written. -/
def keepResv (t : Tbl Nat) (a n : Nat) : Tbl Nat :=
  t.filter (fun e => n == 0 || decide (e.2 < a / 64) || decide ((a + n - 1) / 64 < e.2))

/-- Stores bytes at a canonical local address; reservations of the lines written end. -/
def store (s : State) (a : Nat) (bs : List Byte) : State :=
  { s with mem := tsplice memDefault s.mem a bs, memErr := clearErr s.memErr a bs.length, resv := keepResv s.resv a bs.length }

/-- The key of a 64-byte unit: `t` lists, in rising order, the units at which the key changes; before the first it
is the module key `[]`. -/
def keyAt (t : Tbl (List Byte)) (u : Nat) : List Byte :=
  (t.takeWhile (fun e => decide (e.1 ≤ u))).foldl (fun _ e => e.2) []

/-- The units from `lo` up to `hi` take a key. -/
def keyFill (t : Tbl (List Byte)) (lo hi : Nat) (k : List Byte) : Tbl (List Byte) :=
  if hi ≤ lo then t else
  let low := t.takeWhile (fun e => decide (e.1 < lo))
  let before := low.foldl (fun _ e => e.2) []
  let after := keyAt t hi
  low ++ (if before = k then [] else [(lo, k)]) ++ (if after = k then [] else [(hi, after)])
    ++ t.filter (fun e => decide (hi < e.1))

/-- Removes the entries of a range: its bytes read as unwritten memory does. -/
def tclear {α : Type} (t : Tbl α) (lo n : Nat) : Tbl α := t.filter (fun e => decide (e.1 < lo) || decide (lo + n ≤ e.1))

/-- A range of external memory is filled with the ciphertext of zero under a key (R413, R594). -/
def fillZero (s : State) (a n : Nat) (key : List Byte) : State :=
  { s with mem := tclear s.mem a n, memErr := clearErr s.memErr a n, resv := keepResv s.resv a n,
           memKey := keyFill s.memKey (a / 64) ((a + n) / 64) key }

/-- A byte as a read under a key finds it (R413, R519): the byte where the unit was written under that key, noise
otherwise. -/
def decipher (s : State) (key : List Byte) (a : Nat) (b : Byte) : Byte :=
  let k := keyAt s.memKey (a / 64)
  if k = key then b else Config.wrongKey key k a b

/-- The address lies in tier 2 channels 8 to 15 (their slices begin at slice 8) and is unavailable: X-die 1 is in reset (R35, R342), or
the logic of the channel failed (R575). -/
def shutOff (s : State) (a : Nat) : Bool :=
  decide (2 ^ 43 ≤ a) && (resetting s (3, 5) || s.tst.deadChannels.contains (8 + bits a 12 3))

/-- The first address of a range that is unavailable. -/
def shutIn (s : State) (a n : Nat) : Option Nat :=
  if shutOff s a then some a
  else if s.tst.deadChannels.isEmpty then none
  else (countFrom a n).find? (shutOff s)

/-- The bytes of external memory as a read under a key finds them; those of a channel that is unavailable are open (R35). -/
def readKey (s : State) (key : List Byte) (a n : Nat) : List Byte :=
  if (shutIn s a n).isSome then (List.zip (countFrom a n) (stored s a n)).map (fun e =>
    if shutOff s e.1 then Config.uncorrectable e.1 e.2 else decipher s key e.1 e.2)
  else (List.zip (countFrom a n) (stored s a n)).map (fun e => decipher s key e.1 e.2)

/-- The parts of a write in the 4 KiB that lie on one channel each (R342). -/
def channelParts : (fuel : Nat) → (a : Nat) → List Byte → List (Nat × List Byte)
  | 0, _, _ => []
  | f + 1, a, bs =>
    if bs.isEmpty then [] else
    let m := 4096 - a % 4096
    (a, bs.take m) :: channelParts f (a + m) (bs.drop m)

/-- Writes external memory of one channel, or of channels that are all available, under a key (R519): a unit written in part keeps
its other bytes as a read under the key finds them. A channel that is unavailable keeps what it holds (R35, R597). -/
def writePart (s : State) (key : List Byte) (a : Nat) (bs : List Byte) : State :=
  let n := bs.length
  if n = 0 ∨ shutOff s a then s else
  let lo := a / 64 * 64
  let hi := (a + n + 63) / 64 * 64
  let before := readKey s key lo (a - lo)
  let after := readKey s key (a + n) (hi - (a + n))
  let s := store s lo (before ++ bs ++ after)
  { s with memKey := keyFill s.memKey (lo / 64) (hi / 64) key }

/-- Writes external memory under a key (R519), whichever channels the range lies on. -/
def writeKey (s : State) (key : List Byte) (a : Nat) (bs : List Byte) : State :=
  if s.tst.deadChannels.isEmpty then writePart s key a bs
  else forEach (channelParts (bs.length / 4096 + 2) a bs) (fun s e => writePart s key e.1 e.2) s

/-- The unit kind and number of a memory place for a fault record (R544): the channel of R341 and R342, the core or
the cluster. -/
def placeUnit (p : Place) : UnitKind × Nat :=
  match p.1 with
  | .coreSram => (.core, p.2 / 2 ^ 21)
  | .clusterSram => (.cluster, p.2 / 2 ^ 23)
  | .hbm =>
    let w := p.2 % 2 ^ 36
    (.hbm, 32 * (p.2 / 2 ^ 36) + 16 * bits w 35 1 + bits w 8 4)
  | .tier2 => (.tier2, 8 * (p.2 / 2 ^ 39) + bits p.2 12 3)

/-- Where a fault of the memory word at a local address lies (R544, R545); SOURCE is 0 for a read, 1 for the patrol. The bit is known
of a word that was corrected. -/
def wordAt (a source : Nat) (corrected : Bool) : FaultAt :=
  let (k, u) := placeUnit ((placeOf none a).getD (.hbm, 0))
  { kind := k, unit := u, detail := leBytes 8 a ++ leBytes 1 (Config.syndrome a) ++ leBytes 1 (if corrected then Config.failedBit a % 72 else 0xFF)
      ++ leBytes 1 source }

/-- The faults that the words of a read raise (R527, R528): a corrected word is mended, an uncorrectable one is left.
Answers the address of the first uncorrectable word. `modKey` says that the window has KEY class 3. -/
def readErrs (s : State) (p : Place) (n : Nat) (modKey : Bool) : State × Option Nat :=
  let a := addrOf p
  let hit := s.memErr.filter (fun e => decide (a < 8 * e.1 + 8) && decide (8 * e.1 < a + n))
  let at_ (w : Nat) (c : Bool) : FaultAt := wordAt (8 * w) 0 c
  let s := forEach hit (fun s e =>
    match e.2 with
    | .double =>
      raise s (if p.1.isSram then .sramUe else if modKey then .memUeModule else .memUe) (at_ e.1 false)
    | _ =>
      raise { s with memErr := tdel s.memErr e.1, int.ceLog := s.int.ceLog ++ [(8 * e.1, s.bell.count)] }
        (if p.1.isSram then .sramCe else .memCe) (at_ e.1 true)) s
  (s, (hit.find? (fun e => e.2 == .double)).map (fun e => 8 * e.1))

/-- The bytes of uncorrectable words as an engine reads them (R528). -/
def spoil (s : State) (a : Nat) (bs : List Byte) : List Byte :=
  if s.memErr.isEmpty then bs else
  (List.zip (countFrom a bs.length) bs).map (fun e =>
    if tget .none s.memErr (e.1 / 8) = .double then Config.uncorrectable e.1 e.2 else e.2)

/-- What a read gives: the bytes, the first uncorrectable word, and the state after it. -/
structure ReadRes where
  st : State
  bytes : List Byte
  ue : Option Nat

/-- A read by a thread or an engine acting for it, of an item already checked (R345): SRAM lines are judged by their
tags (R348), external memory by its key (R518), words by their codes (R527, R528); a channel that is unavailable answers as an
uncorrectable word does (R35). A read that meets a mismatched tag gives zeros
and faults in nothing (R348). -/
def readAs (s : State) (i : Issuer) (p : Place) (n : Nat) : ReadRes :=
  let a := addrOf p
  let (s, ue) := readErrs s p n false
  if p.1.isSram then
    let bad := (unitsOf a n).filter (fun u =>
      tget .unowned s.tags u != accessTag s i (p.1, p.2 + (64 * u - a)) )
    match bad with
    | [] => { st := s, bytes := spoil s a (stored s a n), ue := ue }
    | _ :: _ =>
      let owned := (bad.filter (fun u => tget .unowned s.tags u != .unowned)).length
      let s := forEach bad (fun s u =>
        { store s (64 * u) (List.replicate 64 0) with tags := tset .unowned s.tags u .unowned }) s
      { st := modCore s i.core (fun c => { c with tagR := satAdd 16 c.tagR owned }),
        bytes := List.replicate n 0, ue := none }
  else { st := s, bytes := spoil s a (readKey s (accessKey s i p) a n), ue := (shutIn s a n).orElse (fun _ => ue) }

/-- A write by a thread or an engine acting for it, of a range already checked: a mismatched SRAM line is zeroed and
takes the access tag (R349); external memory is enciphered under the window's key (R518); a range that meets Rind
is dropped whole with RIND_WRITE (R213). -/
def writeAs (s : State) (i : Issuer) (p : Place) (bs : List Byte) : State :=
  let a := addrOf p
  let n := bs.length
  if meetsRind s p n then
    raise s .rindWrite { kind := .core, unit := i.core, ptn := i.ptn, ctx := i.ctx, detail := detailAddr a }
  else if p.1.isSram then
    let want (u : Nat) := accessTag s i (p.1, p.2 + (64 * u - a))
    let bad := (unitsOf a n).filter (fun u => tget .unowned s.tags u != want u)
    let owned := (bad.filter (fun u => tget .unowned s.tags u != .unowned)).length
    let s' := forEach bad (fun s u =>
      { store s (64 * u) (List.replicate 64 0) with tags := tset .unowned s.tags u (want u) }) s
    store (modCore s' i.core (fun c => { c with tagW := satAdd 16 c.tagW owned })) a bs
  else writeKey s (accessKey s i p) a bs

end Sys2Proof.Machine
end

