-- ==== Sys2Proof/Machine/CptTx.lean ====
section
/-! DEFINITION. Sending on the control port (spec/15_womeur_control_port.md R478-R480): the order of transmission, credits
and frames kept until they are acknowledged. -/

namespace Sys2Proof.Machine

/-- FTYPE codes (R478). -/
def ftIdle : Nat := 0
def ftLink : Nat := 1
def ftRegReq : Nat := 2
def ftRegRsp : Nat := 3
def ftBulkWr : Nat := 4
def ftBulkRd : Nat := 5
def ftBulkData : Nat := 6
def ftBulkRsp : Nat := 7
def ftFetchReq : Nat := 8
def ftFetchData : Nat := 9
def ftFetchCtl : Nat := 10
def ftEvent : Nat := 11
def ftBellMark : Nat := 12
def ftAuth : Nat := 13
def ftRecover : Nat := 14

/-- Place of a frame in the order of transmission (R480). -/
def cptPrio (f : CptFrame) : Nat :=
  match f.ftype with
  | 1 => 0 | 3 => 1 | 7 => 2 | 10 => 3 | 13 => 4 | 11 => 5 | 8 => 6 | 12 => 7 | _ => 8

/-- The frame uses a bulk buffer (R478). -/
def cptBulk (f : CptFrame) : Bool := f.ftype == 4 || f.ftype == 6 || f.ftype == 9 || f.ftype == 14

/-- The port is UP (R481). -/
def cptUp (s : State) : Bool := s.cpt.lstate == 2

/-- The reverse-direction fields of the next frame: acknowledgement, NAK, freed buffers of one class (R477). -/
def cptStamp (c : CptBlk) (f : CptFrame) : CptFrame :=
  { f with seq := c.txSeq, ackSeq := c.rxSeq, nak := c.nakDue, credClass := c.freedC == 0,
           credit := if c.freedC = 0 then c.freedB else c.freedC }

/-- The port after a frame with those fields has left. -/
def cptTold (c : CptBlk) : CptBlk :=
  { c with nakDue := false, told := c.rxSeq, freedC := 0, freedB := if c.freedC = 0 then 0 else c.freedB }

/-- Sends the waiting frames whose class has a credit, in the order of R480; each takes the next SEQ and is one of the 512 kept
until they are acknowledged (R479). -/
def cptPumpGo : (fuel : Nat) → CptBlk → CptBlk
  | 0, c => c
  | n + 1, c =>
    if 512 ≤ c.tx.length then c else
    match c.wait.find? (fun f => if cptBulk f then decide (0 < c.credB) else decide (0 < c.credC)) with
    | none => c
    | some f =>
      let g := cptStamp c f
      let c := { cptTold c with wait := eraseFirst (· == f) c.wait, tx := c.tx ++ [g], txSeq := wrap 16 (c.txSeq + 1) }
      cptPumpGo n (if cptBulk f then { c with credB := c.credB - 1 } else { c with credC := c.credC - 1 })

/-- An IDLE frame carries what the reverse direction waits for (R477, R478). -/
def cptIdle (c : CptBlk) : CptBlk :=
  if c.nakDue || c.told != c.rxSeq || decide (0 < c.freedC + c.freedB) then
    { cptTold c with idle := some (cptStamp c { ftype := ftIdle }) }
  else c

/-- The port transmits what it can, while it is UP. -/
def cptPump (s : State) : State :=
  if cptUp s then { s with cpt := cptIdle (cptPumpGo s.cpt.wait.length s.cpt) } else s

/-- Hands a frame to the port. -/
def cptSend (s : State) (f : CptFrame) : State :=
  cptPump { s with cpt.wait := insertBy cptPrio f s.cpt.wait }

end Sys2Proof.Machine
end

