-- ==== Sys2Proof/Machine/Oluza.lean ====
section
/-! DEFINITION. Oluza number formats, conversions and quantisers (spec/02_oluza_formats.md). Operands are turned
into exact values, computed exactly, and rounded once, to nearest with ties to even (RNE16, RNE32, RNI).
Readings and choices: log 21. -/

namespace Sys2Proof.Machine

/-- An exact value: NaN, an infinity, or `± mag × 2^exp`. A zero keeps its sign (R55, R57). -/
inductive Num where
  | nan
  | inf (neg : Bool)
  | fin (neg : Bool) (mag : Nat) (exp : Int)
deriving DecidableEq, Repr

/-- A binary floating format: exponent bits, fraction bits and bias (R55, R65). -/
structure Fmt where
  ebits : Nat
  frac : Nat
  bias : Nat
deriving DecidableEq, Repr

/-- OZ16: sign, 6 exponent bits with bias 31, 9 fraction bits (R55). -/
def oz16 : Fmt := { ebits := 6, frac := 9, bias := 31 }
/-- OZ32: sign, 7 exponent bits with bias 63, 24 fraction bits (R55). -/
def oz32 : Fmt := { ebits := 7, frac := 24, bias := 63 }
/-- IEEE binary32 (R65). -/
def bin32 : Fmt := { ebits := 8, frac := 23, bias := 127 }
/-- IEEE binary64 (R65). -/
def bin64 : Fmt := { ebits := 11, frac := 52, bias := 1023 }

/-- The exponent of the least significant bit of a subnormal. -/
def Fmt.qmin (f : Fmt) : Int := 1 - (f.bias : Int) - (f.frac : Int)

/-- The code of +infinity. -/
def Fmt.infCode (f : Fmt) : Nat := (2 ^ f.ebits - 1) <<< f.frac

/-- The canonical NaN: sign 0, exponent all ones, top fraction bit set (R57, R65). -/
def Fmt.nanCode (f : Fmt) : Nat := f.infCode + 2 ^ (f.frac - 1)

/-- The largest finite code, MAX16 or MAX32 (R57). -/
def Fmt.maxCode (f : Fmt) : Nat := f.infCode - 1

/-- The sign bit's place value. -/
def Fmt.signCode (f : Fmt) (neg : Bool) : Nat := if neg then 2 ^ (f.ebits + f.frac) else 0

/-- The value of a code (R55); every NaN is NaN (R56). -/
def Fmt.decode (f : Fmt) (code : Nat) : Num :=
  let s := code.testBit (f.ebits + f.frac)
  let e := bits code f.frac f.ebits
  let m := bits code 0 f.frac
  if e = 0 then .fin s m f.qmin
  else if e = 2 ^ f.ebits - 1 then (if m = 0 then .inf s else .nan)
  else .fin s (2 ^ f.frac + m) (f.qmin + (e : Int) - 1)

/-- RNI of the quotient of two naturals: to nearest, ties to even. -/
def roundDiv (a b : Nat) : Nat :=
  let d := a / b
  let r := a % b
  if 2 * r < b then d else if b < 2 * r then d + 1 else d + d % 2

/-- RNI of `num / den × 2^e`. -/
def roundScaled (num den : Nat) (e : Int) : Nat :=
  if 0 ≤ e then roundDiv (num * 2 ^ e.toNat) den else roundDiv num (den * 2 ^ (-e).toNat)

/-- Floor of the base-2 logarithm of `num / den`, for positive numbers. -/
def floorLog (num den : Nat) : Int :=
  let k : Int := (num.log2 : Int) - (den.log2 : Int)
  let ge := if 0 ≤ k then decide (den * 2 ^ k.toNat ≤ num) else decide (den ≤ num * 2 ^ (-k).toNat)
  if ge then k else k - 1

/-- The magnitude code of `num / den × 2^e` rounded to nearest, ties to even; at or above the overflow
threshold the result is the infinity's code (R65). -/
def Fmt.roundMag (f : Fmt) (num den : Nat) (e : Int) : Nat :=
  if num = 0 then 0 else
    let q := max (floorLog num den + e - (f.frac : Int)) f.qmin
    let n := roundScaled num den (e - q)
    min (((q - f.qmin).toNat <<< f.frac) + n) f.infCode

/-- RNE of `± num / den × 2^e`; a result that rounds to zero keeps the sign (R65). -/
def Fmt.roundQ (f : Fmt) (neg : Bool) (num den : Nat) (e : Int) : Nat :=
  f.signCode neg + f.roundMag num den e

/-- RNE of an exact value; NaN gives the canonical NaN, infinities are kept (R56, R65). -/
def Fmt.round (f : Fmt) : Num → Nat
  | .nan => f.nanCode
  | .inf s => f.signCode s + f.infCode
  | .fin s m e => f.roundQ s m 1 e

/-- RNE of an exact value, with a magnitude beyond the largest finite value limited to it (R76). -/
def Fmt.roundSat (f : Fmt) (x : Num) : Nat :=
  match x with
  | .nan => f.nanCode
  | .inf s => f.signCode s + f.maxCode
  | .fin s m e => f.signCode s + min (f.roundMag m 1 e) f.maxCode

namespace Num

/-- The value is zero. -/
def isZero : Num → Bool
  | .fin _ 0 _ => true
  | _ => false

/-- The value is NaN. -/
def isNan : Num → Bool
  | .nan => true
  | _ => false

/-- The sign bit. -/
def isNeg : Num → Bool
  | .nan => false
  | .inf s => s
  | .fin s _ _ => s

/-- The value with its sign turned. -/
def neg : Num → Num
  | .nan => .nan
  | .inf s => .inf (!s)
  | .fin s m e => .fin (!s) m e

/-- The absolute value; that of −0 is +0 (R64). -/
def abs : Num → Num
  | .nan => .nan
  | .inf _ => .inf false
  | .fin _ m e => .fin false m e

/-- The signed integer `± mag × 2^(exp - q)` for a common exponent `q ≤ exp`. -/
def toIntAt (q : Int) : Num → Int
  | .fin s m e => let v : Int := ((m * 2 ^ (e - q).toNat : Nat) : Int); if s then -v else v
  | _ => 0

/-- The exact value of an integer times a power of two; an exact zero is +0 (R58). -/
def ofInt (v : Int) (e : Int) : Num :=
  if v < 0 then .fin true v.natAbs e else .fin false v.natAbs e

/-- The exponent of a finite value, 0 otherwise. -/
def expOf : Num → Int
  | .fin _ _ e => e
  | _ => 0

/-- Exact addition with the special cases of IEEE 754; an exact zero sum is +0 (R58). -/
def add : Num → Num → Num
  | .nan, _ => .nan
  | _, .nan => .nan
  | .inf s, .inf t => if s = t then .inf s else .nan
  | .inf s, _ => .inf s
  | _, .inf t => .inf t
  | .fin s m e, .fin t n d =>
    let q := min e d
    ofInt ((Num.fin s m e).toIntAt q + (Num.fin t n d).toIntAt q) q

/-- Exact subtraction (R58). -/
def sub (x y : Num) : Num := add x y.neg

/-- Exact multiplication; infinity times zero is NaN, zeros carry the exclusive-or of the signs (R58). -/
def mul : Num → Num → Num
  | .nan, _ => .nan
  | _, .nan => .nan
  | .inf s, y => if y.isZero then .nan else .inf (s != y.isNeg)
  | x, .inf t => if x.isZero then .nan else .inf (x.isNeg != t)
  | .fin s m e, .fin t n d => .fin (s != t) (m * n) (e + d)

/-- The value times a power of two. -/
def scale (k : Int) : Num → Num
  | .fin s m e => .fin s m (e + k)
  | x => x

/-- Order of two values that are not NaN (R63): `x < y`; −0 and +0 compare equal. -/
def lt : Num → Num → Bool
  | .nan, _ => false
  | _, .nan => false
  | .inf s, .inf t => s && !t
  | .inf s, _ => s
  | _, .inf t => !t
  | .fin s m e, .fin t n d =>
    let q := min e d
    decide ((Num.fin s m e).toIntAt q < (Num.fin t n d).toIntAt q)

/-- `x ≤ y` for values that are not NaN; unordered with a NaN (R63). -/
def le (x y : Num) : Bool := !x.isNan && !y.isNan && !lt y x

/-- Equality of values; unordered with a NaN (R63). -/
def eqv (x y : Num) : Bool := le x y && le y x

/-- A zero becomes +0, as a selection returns it (R64). -/
def posZero (x : Num) : Num := if x.isZero then .fin false 0 0 else x

/-- The larger of two values: a NaN is ignored, both NaN give NaN, a zero is +0 (R64). -/
def maxSel (x y : Num) : Num :=
  if x.isNan then y.posZero else if y.isNan then x.posZero
  else if lt x y then y.posZero else x.posZero

/-- The smaller of two values, by the same rules (R64). -/
def minSel (x y : Num) : Num :=
  if x.isNan then y.posZero else if y.isNan then x.posZero
  else if lt y x then y.posZero else x.posZero

end Num

/-- A quotient of two values rounded once (R58, R67, R72). -/
def Fmt.div (f : Fmt) : Num → Num → Nat
  | .nan, _ => f.nanCode
  | _, .nan => f.nanCode
  | .inf _, .inf _ => f.nanCode
  | .inf s, y => f.signCode (s != y.isNeg) + f.infCode
  | x, .inf t => f.signCode (x.isNeg != t)
  | .fin s m e, .fin t n d =>
    if n = 0 then (if m = 0 then f.nanCode else f.signCode (s != t) + f.infCode)
    else f.roundQ (s != t) m n (e - d)

/-- Integer square root by bits, from bit `k` down: the result is `⌊√x⌋` for `x < 4^(k+1)`. -/
def isqrtGo (x : Nat) : (k r : Nat) → Nat
  | 0, r => if (r + 1) * (r + 1) ≤ x then r + 1 else r
  | k + 1, r =>
    let r' := r + 2 ^ (k + 1)
    isqrtGo x k (if r' * r' ≤ x then r' else r)

/-- Integer square root. -/
def isqrt (x : Nat) : Nat := isqrtGo x (x.log2 / 2) 0

/-- The square root rounded once; of −0 it is −0 (R58 with IEEE 754), of a negative number NaN. -/
def Fmt.sqrt (f : Fmt) : Num → Nat
  | .nan => f.nanCode
  | .inf s => if s then f.nanCode else f.infCode
  | .fin s m e =>
    if m = 0 then f.signCode s
    else if s then f.nanCode
    else
      let k := 2 * (f.frac + 4)
      let odd : Nat := (e % 2).toNat
      let x := m * 2 ^ (odd + k)
      let r := isqrt x
      let sticky : Nat := if r * r = x then 0 else 1
      f.roundQ false (2 * r + sticky) 1 ((e - odd - k) / 2 - 1)

/-! ### Operations on codes of OZ16 and OZ32 -/

/-- The value of an OZ16 code. -/
def val16 (x : Half) : Num := oz16.decode x.toNat
/-- The value of an OZ32 code. -/
def val32 (x : Word) : Num := oz32.decode x.toNat
/-- RNE16 of an exact value. -/
def rne16 (x : Num) : Half := BitVec.ofNat 16 (oz16.round x)
/-- RNE32 of an exact value. -/
def rne32 (x : Num) : Word := BitVec.ofNat 32 (oz32.round x)

/-- OZ32 addition (R58). -/
def add32 (a b : Word) : Word := rne32 ((val32 a).add (val32 b))
/-- OZ32 subtraction (R58). -/
def sub32 (a b : Word) : Word := rne32 ((val32 a).sub (val32 b))
/-- OZ32 multiplication (R58). -/
def mul32 (a b : Word) : Word := rne32 ((val32 a).mul (val32 b))
/-- OZ32 division (R58). -/
def div32 (a b : Word) : Word := BitVec.ofNat 32 (oz32.div (val32 a) (val32 b))
/-- OZ32 square root (R58). -/
def sqrt32 (a : Word) : Word := BitVec.ofNat 32 (oz32.sqrt (val32 a))
/-- OZ32 fused multiply-add `a × b + c`, rounded once (R58). -/
def fma32 (a b c : Word) : Word := rne32 (((val32 a).mul (val32 b)).add (val32 c))

/-- OZ16 widened to OZ32, exact (R65). -/
def widen16 (x : Half) : Word := rne32 (val16 x)
/-- OZ32 rounded to OZ16 (R65). -/
def narrow32 (x : Word) : Half := rne16 (val32 x)

/-- Canonical NaN of OZ16 (R57). -/
def nan16 : Half := 0x7F00
/-- Canonical NaN of OZ32 (R57). -/
def nan32 : Word := 0x7F800000
/-- MAX16 (R57). -/
def max16 : Half := 0x7DFF

/-- An OZ16 NaN becomes the canonical NaN; every other code is kept (R56). -/
def canon16 (x : Half) : Half := if (val16 x).isNan then nan16 else x
/-- An OZ32 NaN becomes the canonical NaN; every other code is kept (R56). -/
def canon32 (x : Word) : Word := if (val32 x).isNan then nan32 else x

/-- Conversion between two floating formats (R65). -/
def convert (src dst : Fmt) (code : Nat) : Nat := dst.round (src.decode code)

/-! ### OZ4 -/

/-- The integer operand `q_w = 4 × value` of an OZ4 code; NaN takes 0 (R53, R54). -/
def qw (c : Nat) : Int :=
  let m : Nat := getAt 0 [0, 1, 2, 3, 4, 6, 8, 12] (c % 8)
  if c % 16 < 8 then (m : Int) else -(m : Int)

/-- Code 0b1000 is the only OZ4 NaN (R52). -/
def isNan4 (c : Nat) : Bool := c % 16 == 8

/-- The value of an OZ4 code (R52). -/
def val4 (c : Nat) : Num := if isNan4 c then .nan else Num.ofInt (qw c) (-2)

/-- What a conversion counts (R66): saturations and NaNs. -/
structure ConvEvents where
  sat : Nat := 0
  nan : Nat := 0
deriving DecidableEq, Repr

/-- Counts add (R66, R98: exact integers in any order). -/
def ConvEvents.add (a b : ConvEvents) : ConvEvents := { sat := a.sat + b.sat, nan := a.nan + b.nan }

/-- `± num / den × 2^e` to OZ4: RNE on the value, a tie to the code with bit 0 clear; 3.5 and above saturates and
is counted; a zero result is 0b0000 whatever the sign (R65, R66). -/
def roundQ4 (neg : Bool) (num den : Nat) (e : Int) : Nat × ConvEvents :=
  if num = 0 then (0, {}) else
    let q := max (floorLog num den + e - 1) (-2)
    let n := roundScaled num den (e - q)
    let m := ((q + 2).toNat <<< 1) + n
    let c := min m 7
    (if c = 0 then 0 else if neg then 8 + c else c, { sat := if 8 ≤ m then 1 else 0 })

/-- A value to OZ4: NaN to 0b1000, an infinity saturates and is counted (R65, R66). -/
def toOz4 : Num → Nat × ConvEvents
  | .nan => (8, { nan := 1 })
  | .inf s => (if s then 15 else 7, { sat := 1 })
  | .fin s m e => roundQ4 s m 1 e

/-- The quotient of an element by its channel scale, to OZ4 (R72). -/
def quotOz4 (x s : Num) : Nat × ConvEvents :=
  match x, s with
  | .fin a m e, .fin b n d => if n = 0 then (0, {}) else roundQ4 (a != b) m n (e - d)
  | .inf a, y => (if a != y.isNeg then 15 else 7, { sat := 1 })
  | _, _ => (8, { nan := 1 })

/-- The channel scale and the codes of one channel of a matrix that the module itself quantises (R72); such a
conversion counts nothing (R66). -/
def quantiseChannel (xs : List Num) : Half × List Nat :=
  let a := xs.foldl (fun acc x => Num.maxSel acc x.abs) .nan
  let a := if a.isNan then Num.fin false 0 0 else a
  if a.isZero then (0x3E00, xs.map (fun _ => 0))
  else
    let s : Half := BitVec.ofNat 16 (oz16.div a (.fin false 3 0))
    (s, xs.map (fun x => (quotOz4 x (val16 s)).1))

/-! ### Row quantisation -/

/-- RNI of a quotient of finite values, a signed integer; 0 for a zero divisor. -/
def rniQuot : Num → Num → Int
  | .fin a m e, .fin b n d =>
    if n = 0 then 0 else
      let k : Int := (roundScaled m n (e - d) : Nat)
      if a != b then -k else k
  | _, _ => 0

/-- MAX16 as a value. -/
def max16Num : Num := val16 max16

/-- An infinity replaced by ±MAX16 (R67). -/
def capInf : Num → Num
  | .inf s => if s then max16Num.neg else max16Num
  | x => x

/-- The infinities of a row. -/
def countInf (xs : List Num) : Nat := (xs.filter (fun x => match x with | .inf _ => true | _ => false)).length

/-- The NaNs of a row. -/
def countNan (xs : List Num) : Nat := (xs.filter Num.isNan).length

/-- The limits of a row scale: at least 2^−39, at most MAX16; the flag says that MAX16 limited it (R67). -/
def limitScale (c : Nat) : Half × Bool :=
  if c = 0 then (0x0001, false)
  else if oz16.infCode ≤ c then (max16, true) else (BitVec.ofNat 16 c, false)

/-- A row after quantisation: the scale, the zero point, the codes as integers, and the events counted. -/
structure QRow where
  scale : Half := 0
  zp : Nat := 0
  codes : List Int := []
  ev : ConvEvents := {}
deriving DecidableEq, Repr

/-- The scale of the symmetric quantiser for the maximum magnitude `a` (R67). -/
def symScale (a : Num) : Half × Bool :=
  if a.isZero || a.isNan then (0, false) else limitScale (oz16.div a (.fin false 127 0))

/-- The symmetric quantiser of a row, with exact quotients (R67); a clamp counts only when the scale was limited
to MAX16 (R66). -/
def quantiseSym (xs : List Num) : QRow :=
  let ys := xs.map capInf
  let a := ys.foldl (fun acc x => Num.maxSel acc x.abs) .nan
  let (s, lim) := symScale a
  let one (x : Num) : Int × Nat :=
    if x.isNan || s = 0 then (0, 0) else
      let r := rniQuot x (val16 s)
      let c := max (-127) (min 127 r)
      (c, if lim && c != r then 1 else 0)
  let qs := ys.map one
  { scale := s, zp := 0, codes := qs.map Prod.fst,
    ev := { sat := countInf xs + sumNat (qs.map Prod.snd), nan := countNan xs } }

/-- The asymmetric quantiser of a row (R68); a clamp of a code counts only when the scale was limited to MAX16,
a clamp of the zero point never (R66). -/
def quantiseAsym (xs : List Num) : QRow :=
  let ys := xs.map capInf
  let zero : Num := .fin false 0 0
  let mn := ys.foldl Num.minSel zero
  let mx := ys.foldl Num.maxSel zero
  let (s, lim) := if Num.eqv mn mx then ((0 : Half), false)
    else limitScale (oz16.div (mx.sub mn) (.fin false 255 0))
  let z : Int := if s = 0 then 0 else max 0 (min 255 (rniQuot mn.neg (val16 s)))
  let one (x : Num) : Int × Nat :=
    if x.isNan || s = 0 then (z, 0) else
      let r := rniQuot x (val16 s) + z
      let c := max 0 (min 255 r)
      (c, if lim && c != r then 1 else 0)
  let qs := ys.map one
  { scale := s, zp := z.toNat, codes := qs.map Prod.fst,
    ev := { sat := countInf xs + sumNat (qs.map Prod.snd), nan := countNan xs } }

/-- An A8 or G8 code as an integer: two's complement when symmetric, unsigned when asymmetric (R59, R60). -/
def codeVal (asym : Bool) (b : Byte) : Int := if asym then (b.toNat : Int) else signed 8 b.toNat

/-- A quantised code as its byte. -/
def codeByte (q : Int) : Byte := BitVec.ofInt 8 q

/-- The exact value `s × (q − z)` of an A8 or G8 code (R65). -/
def dequant (s : Half) (q z : Int) : Num := (val16 s).mul (Num.ofInt (q - z) 0)

/-- The product of a gradient element and its channel scale, exact in OZ32 (R69). -/
def scaleGrad (g s : Half) : Word := rne32 ((val16 g).mul (val16 s))

/-! ### Delayed exchange scale -/

/-- The smallest integer `e` with `2 × a × 2^−e ≤ MAX16` for a finite positive `a`: MAX16 is
`1023 × 2^22`. -/
def exchangeFit (m : Nat) (x : Int) : Int :=
  -- 2·m·2^x·2^(−e) ≤ 1023·2^22: start from the estimate by logarithm and go up while it does not fit
  let fits (e : Int) : Bool :=
    let k := x + 1 - e - 22
    if 0 ≤ k then decide (m * 2 ^ k.toNat ≤ 1023) else decide (m ≤ 1023 * 2 ^ (-k).toNat)
  let e0 : Int := x + 1 - 22 + (m.log2 : Int) - 10
  if fits e0 then e0 else if fits (e0 + 1) then e0 + 1 else e0 + 2

/-- The exponent of a step from the previous step's amax (R75): `prev` is the previous amax, or none when the
context has no previous step; `old` the previous exponent; `init` the recipe's INIT_EXP. -/
def exchangeExp (prev : Option Word) (old init : Int) : Int :=
  let clamp (e : Int) : Int := max (-128) (min 127 e)
  match prev with
  | none => clamp init
  | some a =>
    match val32 a with
    | .fin _ 0 _ => clamp old
    | .fin _ m x => clamp (exchangeFit m x)
    | .nan => clamp old
    | .inf _ => clamp old

/-- The sender's conversion of an element, RNE16(g × 2^−e) saturating to ±MAX16 (R76). -/
def exchangeSend (e : Int) (g : Word) : Half := BitVec.ofNat 16 (oz16.roundSat ((val32 g).scale (-e)))

/-- The receiver's widening, RNE32(x × 2^e) (R76). -/
def exchangeRecv (e : Int) (x : Half) : Word := rne32 ((val16 x).scale e)

/-- The amax of a list of OZ32 values, +0 for none and NaN only when all are NaN (R64). -/
def amax32 (xs : List Word) : Word :=
  match xs with
  | [] => 0
  | _ => rne32 (xs.foldl (fun acc x => Num.maxSel acc (val32 x).abs) .nan)

end Sys2Proof.Machine
end

