-- ==== Sys2Proof/Machine/Functions.lean ====
section
/-! DEFINITION. The function unit (spec/06_twin_array_backward.md R194-R196): f and f′ of every OZ16 input, rounded
once. The transcendental functions are evaluated in fixed point with 320 fraction bits, far below the distance of
any of the 65,536 inputs from a rounding boundary.
Readings and choices: log 12. -/

namespace Sys2Proof.Machine

/-- Fraction bits of the fixed-point evaluation. -/
def fxBits : Nat := 320
/-- One in fixed point. -/
def fxOne : Int := ((2 ^ fxBits : Nat) : Int)
/-- A fixed-point product. -/
def fxMul (a b : Int) : Int := a * b / fxOne
/-- A fixed-point quotient. -/
def fxDiv (a b : Int) : Int := a * fxOne / b
/-- A rational number in fixed point. -/
def fxRat (n d : Nat) : Int := (n : Int) * fxOne / (d : Int)
/-- A finite value in fixed point; every OZ16 value is exact. -/
def fxOf (x : Num) : Int := x.toIntAt (-(fxBits : Int))

/-- The Taylor sum of e^(−z) from term `k` on. -/
def expTaylor (z : Int) : (fuel k : Nat) → (term acc : Int) → Int
  | 0, _, _, acc => acc
  | n + 1, k, term, acc => expTaylor z n (k + 1) (-(fxMul term z) / ((k : Int) + 1)) (acc + term)

/-- Squares `n` times. -/
def sqTimes : (n : Nat) → Int → Int
  | 0, x => x
  | n + 1, x => sqTimes n (fxMul x x)

/-- e^(−y) for `y ≥ 0`: 0 from `y` = 256 on, which is below the last place kept. -/
def expNeg (y : Int) : Int :=
  if 256 * fxOne ≤ y then 0 else sqTimes 16 (expTaylor (y / 65536) 48 0 fxOne 0)

/-- sg(x) = 1 / (1 + e^(−x)) (R194). -/
def sgFix (x : Int) : Int :=
  let e := expNeg (if x < 0 then -x else x)
  if x < 0 then fxDiv e (fxOne + e) else fxDiv fxOne (fxOne + e)

/-- arctan(1/n) by its series. -/
def arctanInv (n : Nat) : (fuel k : Nat) → (pw acc : Int) → Int
  | 0, _, _, acc => acc
  | f + 1, k, pw, acc =>
    let t := pw / (2 * (k : Int) + 1)
    arctanInv n f (k + 1) (pw / ((n * n : Nat) : Int)) (if k % 2 = 0 then acc + t else acc - t)

/-- π by Machin's formula. -/
def piFix : Int :=
  16 * arctanInv 5 150 0 (fxOne / 5) 0 - 4 * arctanInv 239 50 0 (fxOne / 239) 0

/-- A fixed-point square root. -/
def fxSqrt (x : Int) : Int := (isqrt (x * fxOne).toNat : Nat)

/-- √(2/π). -/
def sqrt2overPi : Int := fxSqrt (fxDiv (2 * fxOne) piFix)
/-- 1/√(2π), the density φ at 0. -/
def phi0 : Int := fxDiv fxOne (fxSqrt (2 * piFix))

/-- φ(x). -/
def phiFix (x : Int) : Int := fxMul phi0 (expNeg (fxMul x x / 2))

/-- The sum of x^(2n+1) / (1·3·…·(2n+1)). -/
def cdfSeries (x2 : Int) : (fuel k : Nat) → (term acc : Int) → Int
  | 0, _, _, acc => acc
  | n + 1, k, term, acc => cdfSeries x2 n (k + 1) (fxMul term x2 / (2 * (k : Int) + 3)) (acc + term)

/-- Φ(x); beyond |x| = 12 the distance from 0 and 1 is below any rounding of the functions. -/
def cdfFix (x : Int) : Int :=
  if 12 * fxOne ≤ x then fxOne else if x ≤ -12 * fxOne then 0
  else fxOne / 2 + fxMul (phiFix x) (cdfSeries (fxMul x x) 400 0 x 0)

/-- The argument u of GELU_TANH and its derivative (R194). -/
def geluU (x : Int) : Int := fxMul sqrt2overPi (x + fxMul (fxRat 44715 1000000) (fxMul x (fxMul x x)))
def geluU' (x : Int) : Int := fxMul sqrt2overPi (fxOne + fxMul (fxRat 134145 1000000) (fxMul x x))

/-- RNE16 of a fixed-point value that is exact or not at a boundary; a value that is not zero but rounds to zero
keeps the sign `neg` where the fixed point has lost it (R65, R195). -/
def fxRound (neg : Bool) (v : Int) : Half :=
  if v = 0 then (if neg then 0x8000 else 0) else rne16 (Num.ofInt v (-(fxBits : Int)))

/-- Functions defined (R194). -/
def fnDefined (fn : Nat) : Bool := decide (fn < 8)

/-- F at a finite value that is not zero, and F at zero (R194, R195). -/
def fnFin (fn : Nat) (x : Num) : Half :=
  let v := fxOf x
  let neg := x.isNeg
  match fn with
  | 1 => if neg then 0 else rne16 x
  | 2 => if neg then 0 else rne16 (x.mul x)
  | 3 => fxRound neg (fxMul v (cdfFix v))
  | 4 => fxRound neg (fxMul v (sgFix (2 * geluU v)))
  | 5 => fxRound neg (fxMul v (sgFix v))
  | 6 => fxRound false (sgFix v)
  | 7 =>
    let a := if neg then -v else v
    let e := expNeg (2 * a)
    let t := fxDiv (fxOne - e) (fxOne + e)
    fxRound neg (if neg then -t else t)
  | _ => rne16 x

/-- f(x) of the function unit (R195). -/
def fnF (fn : Nat) (x : Half) : Half :=
  match val16 x with
  | .nan => nan16
  | .inf s =>
    match fn with
    | 1 | 2 | 3 | 4 | 5 => if s then 0 else 0x7E00
    | 6 => if s then 0 else 0x3E00
    | 7 => if s then 0xBE00 else 0x3E00
    | _ => rne16 (.inf s)
  | y =>
    if y.isZero then (if fn = 6 then 0x3C00 else 0)
    else fnFin fn y

/-- F′ at a finite value that is not zero (R194). -/
def fnFin' (fn : Nat) (x : Num) : Half :=
  let v := fxOf x
  let neg := x.isNeg
  match fn with
  | 1 => if neg then 0 else 0x3E00
  | 2 => if neg then 0 else rne16 (x.scale 1)
  | 3 => fxRound neg (cdfFix v + fxMul v (phiFix v))
  | 4 =>
    let g := sgFix (2 * geluU v)
    let h := sgFix (-(2 * geluU v))
    fxRound neg (g + fxMul (fxMul v (fxMul g h)) (2 * geluU' v))
  | 5 =>
    let g := sgFix v
    fxRound neg (fxMul g (fxOne + fxMul v (sgFix (-v))))
  | 6 => fxRound false (fxMul (sgFix v) (sgFix (-v)))
  | 7 =>
    let a := if neg then -v else v
    let e := expNeg (2 * a)
    fxRound false (fxDiv (4 * e) (fxMul (fxOne + e) (fxOne + e)))
  | _ => 0x3E00

/-- f′(x) of the function unit (R195). -/
def fnD (fn : Nat) (x : Half) : Half :=
  match val16 x with
  | .nan => nan16
  | .inf s =>
    match fn with
    | 1 | 3 | 4 | 5 => if s then 0 else 0x3E00
    | 2 => if s then 0 else 0x7E00
    | 6 | 7 => 0
    | _ => 0x3E00
  | y =>
    if y.isZero then
      match fn with
      | 1 | 2 => 0
      | 3 | 4 | 5 => 0x3C00
      | 6 => 0x3A00
      | _ => 0x3E00
    else fnFin' fn y

end Sys2Proof.Machine
end

