-- ==== Sys2Proof/Machine/RefOrder.lean ====
section
/-! DEFINITION. Reference order of operations (spec/03_reference_order.md): the truncated product, block sums,
leaves, trees and ascending chains, and de-quantisation of integer sums (R78, R84). -/

namespace Sys2Proof.Machine

/-- Products in a block (R82). -/
def blockLen : Nat := 32
/-- Integer leaf length KL_I (R82). -/
def klI : Nat := 65536
/-- Float leaf length KL_F (R82). -/
def klF : Nat := 4096

/-- The integer significand and exponent of a finite OZ16 operand (R89). -/
def signif16 (x : Half) : Nat × Int :=
  let e := bits x.toNat 9 6
  let f := bits x.toNat 0 9
  if e = 0 then (f, -30) else (512 + f, (e : Int) - 31)

/-- The truncated product of two OZ16 operands: the 20-bit product of significands truncated to its top 16 bits;
special operands follow R87 (R89). -/
def tprod (a b : Half) : Num :=
  let va := val16 a
  let vb := val16 b
  match va, vb with
  | .fin s _ _, .fin t _ _ =>
    let (ma, ua) := signif16 a
    let (mb, ub) := signif16 b
    let p := ma * mb
    .fin (s != t) (p - p % 16) (ua + ub - 18)
  | _, _ => va.mul vb

/-- The least exponent of the block window: products are multiples of 2^−78 before truncation and of 2^−74 after
it (R82, R86). -/
def windowExp : Int := -78

/-- The exact sum of one block of products: specials as R87, an exact zero sum is +0 (R86). -/
def blockSum (ps : List Num) : Num :=
  if ps.any Num.isNan then .nan
  else
    let pos := ps.any (fun p => match p with | .inf s => !s | _ => false)
    let neg := ps.any (fun p => match p with | .inf s => s | _ => false)
    if pos && neg then .nan
    else if pos then .inf false
    else if neg then .inf true
    else Num.ofInt (ps.foldl (fun acc p => acc + p.toIntAt windowExp) 0) windowExp

/-- The truncated products of two rows of operands. -/
def tprods (xs ys : List Half) : List Num := List.zipWith tprod xs ys

/-- The running accumulator of a float leaf over blocks of 32 in ascending k (R85, R88: `acc` passes from one
command to the next unchanged). -/
def leafFrom (acc : Word) (xs ys : List Half) : Word :=
  (chunks blockLen (ceilDiv xs.length blockLen) (tprods xs ys)).foldl
    (fun a blk => rne32 ((val32 a).add (blockSum blk))) acc

/-- One float leaf (R85). -/
def leaf16 (xs ys : List Half) : Word := leafFrom 0 xs ys

/-- The largest power of two strictly below `n`, for `n ≥ 2` (R82, R91). -/
def splitPow (n : Nat) : Nat := 2 ^ (n - 1).log2

/-- The tree over values in rank order, lower ranks on the left, one rounding a node (R91). `fuel` bounds the
depth. -/
def treeGo : (fuel : Nat) → List Word → Word
  | _, [] => 0
  | _, [x] => x
  | 0, x :: _ :: _ => x
  | fuel + 1, xs@(_ :: _ :: _) =>
    let m := splitPow xs.length
    add32 (treeGo fuel (xs.take m)) (treeGo fuel (xs.drop m))

/-- The tree of R91; its depth is at most the count of its leaves. -/
def tree (xs : List Word) : Word := treeGo xs.length xs

/-- An ascending chain: starts with +0 and rounds after each add (R98). -/
def chain (xs : List Word) : Word := xs.foldl add32 0

/-- Sum in leaves of 4,096 by ascending chains, joined by the tree (R98). -/
def chainSum (xs : List Word) : Word :=
  tree ((chunks klF (ceilDiv xs.length klF) xs).map chain)

/-- The squared norm of a list: a square is RNE32(x × x) (R98). -/
def sqNorm (xs : List Word) : Word := chainSum (xs.map (fun x => mul32 x x))

/-- A dot product of OZ16 operands: leaves of 4,096 joined by the tree (R83, R85). -/
def dot16 (xs ys : List Half) : Word :=
  let n := ceilDiv xs.length klF
  tree (List.zipWith leaf16 (chunks klF n xs) (chunks klF n ys))

/-- An exact integer dot product (R84). -/
def dotInt (xs ys : List Int) : Int := (List.zipWith (· * ·) xs ys).foldl (· + ·) 0

/-- RNE32 of an integer (R65). -/
def int32 (x : Int) : Word := rne32 (Num.ofInt x 0)

/-- De-quantisation of an integer sum, one rounding a line (R78): `w4` restores the factor 4 of a W4 operand;
`stat` is the scale of the stationary operand, none in backward G8×W4; `row` that of the streaming row. -/
def dequantSum (w4 : Bool) (s : Int) (stat : Option Half) (row : Half) : Word :=
  let t0 := rne32 (Num.ofInt s (if w4 then -2 else 0))
  let t1 := match stat with
    | some c => rne32 ((val32 t0).mul (val16 c))
    | none => t0
  rne32 ((val32 t1).mul (val16 row))

/-- The integer sum with a zero point in correction mode: raw codes, then `z × C_c` subtracted (R79). -/
def sumCorrection (qs ws : List Int) (z c : Int) : Int := dotInt qs ws - z * c

/-- The integer sum with the zero point subtracted before the multiplier (R79). -/
def sumSubtraction (qs ws : List Int) (z : Int) : Int := dotInt (qs.map (· - z)) ws

end Sys2Proof.Machine
end

