-- ==== Sys2Proof/Machine/Tiles.lean ====
section
/-! DEFINITION. Tiles (spec/04_lecture_forward.md R103-R110, R630): layout, checksum, header checks, elements, and the
building of the tiles that a drain writes. -/

namespace Sys2Proof.Machine

/-- FMT codes (R104). -/
def fOZ4 : Nat := 0
def fA8 : Nat := 1
def fG8 : Nat := 2
def fOZ16 : Nat := 3
def fOZ32 : Nat := 4

/-- FMT permitted for KIND (R103). -/
def fmtFits (kind fmt : Nat) : Bool :=
  match kind with
  | 0 => fmt == 0
  | 1 => fmt == 1 || fmt == 3 || fmt == 4
  | 2 => fmt == 2 || fmt == 3 || fmt == 4
  | 3 => fmt == 3
  | 4 => fmt == 3 || fmt == 4
  | _ => false

/-- Header length by KIND (R103). -/
def hdrLen (kind : Nat) : Nat := if kind = 0 then 320 else 704

/-- Payload length by FMT (R106). -/
def payLen (fmt : Nat) : Nat :=
  match fmt with
  | 0 => 8192
  | 1 | 2 => 16384
  | 3 => 32768
  | _ => 65536

/-- The tile's length where FMT and KIND are not reserved (R106, R110). -/
def tileLen (fmt kind : Nat) : Option Nat := if fmt < 5 ∧ kind < 5 then some (hdrLen kind + payLen fmt) else none

/-- FMT and KIND of a tile's first bytes. -/
def rawFmt (bs : List Byte) : Nat := field bs 1 1
def rawKind (bs : List Byte) : Nat := field bs 2 1

/-- The canonical CRC of a tile's bytes: TILE_CRC taken as zero (R107). -/
def tileCrc (bs : List Byte) : Nat := crc32c (patch bs 0x3C [0, 0, 0, 0])

/-- TILE_CRC matches (R108). -/
def tileCrcOk (bs : List Byte) : Bool := field bs 0x3C 4 == tileCrc bs

/-- `n` little-endian 16-bit values. -/
def halves (bs : List Byte) (off n : Nat) : List Half :=
  (chunks 2 n (slice bs off (2 * n))).map (fun c => BitVec.ofNat 16 (leNat c))

/-- `n` little-endian 32-bit values. -/
def words (bs : List Byte) (off n : Nat) : List Word :=
  (chunks 4 n (slice bs off (4 * n))).map (fun c => BitVec.ofNat 32 (leNat c))

/-- The header's fields (R104, R105). -/
def parseHdr (bs : List Byte) : Hdr :=
  let long := rawKind bs != 0
  { fmt := rawFmt bs, kind := rawKind bs, asym := bitOf (field bs 3 1) 0, runahead := bitOf (field bs 3 1) 1,
    rows := field bs 4 2, cols := field bs 6 2, tensorId := field bs 8 4, tileRow := field bs 0xC 4,
    tileCol := field bs 0x10 4, baseId := field bs 0x14 2, lesson := field bs 0x18 4,
    producer := bits (field bs 0x1C 2) 0 10, scales := halves bs 0x40 128,
    zps := if long then (slice bs 0x140 128).map BitVec.toNat else [],
    tags := if long then (halves bs 0x1C0 128).map BitVec.toNat else [] }

/-- The tile of its bytes. -/
def parseTile (bs : List Byte) : Tile := { hdr := parseHdr bs, payload := bs.drop (hdrLen (rawKind bs)) }

/-- A row tag: VALID with a context (R105). -/
def mkTag (ctx : Nat) : Nat := 0x8000 + ctx
/-- VALID of a row tag. -/
def tagValid (t : Nat) : Bool := bitOf t 15
/-- CTX of a row tag. -/
def tagCtx (t : Nat) : Nat := bits t 0 12

/-- The code of element (r, c) of a payload (R106). -/
def elemCode (fmt : Nat) (pay : List Byte) (r c : Nat) : Nat :=
  let i := r * 128 + c
  match fmt with
  | 0 => let b := (getAt 0 pay (i / 2)).toNat; if i % 2 = 0 then b % 16 else b / 16
  | 1 | 2 => (getAt 0 pay i).toNat
  | 3 => field pay (2 * i) 2
  | _ => field pay (4 * i) 4

/-- The codes of a stored row (R106). -/
def rowCodes (fmt : Nat) (pay : List Byte) (r : Nat) : List Nat :=
  match fmt with
  | 0 => ((slice pay (64 * r) 64).map (fun b => [b.toNat % 16, b.toNat / 16])).flatten
  | 1 | 2 => (slice pay (128 * r) 128).map BitVec.toNat
  | 3 => (halves pay (256 * r) 128).map BitVec.toNat
  | _ => (words pay (512 * r) 128).map BitVec.toNat

/-- All 128 rows of codes, cut off the payload one after another (R106). -/
def tileCodes (t : Tile) : List (List Nat) :=
  (chunks (payLen t.hdr.fmt / 128) 128 t.payload).map (fun p => rowCodes t.hdr.fmt p 0)

/-- The bytes of one row of codes (R106). -/
def packRow (fmt : Nat) (cs : List Nat) : List Byte :=
  match fmt with
  | 0 => (chunks 2 64 cs).map (fun p => BitVec.ofNat 8 (getAt 0 p 0 % 16 + 16 * (getAt 0 p 1 % 16)))
  | 1 | 2 => cs.map (BitVec.ofNat 8)
  | 3 => (cs.map (leBytes 2)).flatten
  | _ => (cs.map (leBytes 4)).flatten

/-- A row padded to 128 codes with zeros. -/
def padRow (cs : List Nat) : List Nat := cs.take 128 ++ List.replicate (128 - cs.length) 0

/-- The payload of rows of codes, padded to 128 × 128. -/
def packRows (fmt : Nat) (rows : List (List Nat)) : List Byte :=
  ((countFrom 0 128).map (fun r => packRow fmt (padRow (getAt [] rows r)))).flatten

/-- The header fields that R104 reserves are zero and its versions and counts defined. -/
def hdrFieldsOk (bs : List Byte) : Bool :=
  field bs 0 1 == 1 && bits (field bs 3 1) 2 6 == 0
    && decide (1 ≤ field bs 4 2) && decide (field bs 4 2 ≤ 128)
    && decide (1 ≤ field bs 6 2) && decide (field bs 6 2 ≤ 128)
    && field bs 0x16 2 == 0 && bits (field bs 0x1C 2) 10 6 == 0 && allZero (slice bs 0x1E 0x1E)

/-- Padding elements, row tags and padding rows' scales as R110 requires. -/
def paddingOk (bs : List Byte) : Bool :=
  let t := parseTile bs
  let h := t.hdr
  ((tileCodes t).zipIdx.all (fun x => (if h.rows ≤ x.2 then x.1 else x.1.drop h.cols).all (· == 0)))
    && (h.kind == 0 ||
        ((h.tags.all (fun g => bits g 12 3 == 0 && (tagValid g || tagCtx g == 0)))
          && (h.scales.drop h.rows).all (· == 0) && (h.zps.drop h.rows).all (· == 0)))

/-- The header is valid (R110). -/
def hdrValid (bs : List Byte) : Bool :=
  hdrFieldsOk bs && fmtFits (rawKind bs) (rawFmt bs) && (!bitOf (field bs 3 1) 0 || rawFmt bs == 1) && paddingOk bs

/-- The bytes of a header with TILE_CRC zero (R104, R105). -/
def hdrBytes (h : Hdr) : List Byte :=
  let first := leBytes 1 1 ++ leBytes 1 h.fmt ++ leBytes 1 h.kind ++ leBytes 1 (b2n h.asym + 2 * b2n h.runahead)
    ++ leBytes 2 h.rows ++ leBytes 2 h.cols ++ leBytes 4 h.tensorId ++ leBytes 4 h.tileRow ++ leBytes 4 h.tileCol
    ++ leBytes 2 h.baseId ++ leBytes 2 0 ++ leBytes 4 h.lesson ++ leBytes 2 h.producer
  let sc := ((padRow (h.scales.map BitVec.toNat)).map (leBytes 2)).flatten
  slice first 0 64 ++ sc ++ (if h.kind = 0 then [] else
    (padRow h.zps).map (BitVec.ofNat 8) ++ ((padRow h.tags).map (leBytes 2)).flatten)

/-- A tile's bytes with TILE_CRC computed as written (R108). -/
def tileBytes (h : Hdr) (pay : List Byte) : List Byte :=
  let bs := hdrBytes h ++ pay
  patch bs 0x3C (leBytes 4 (tileCrc bs))

/-- FAB_ID.LMN as PRODUCER (R630). -/
def producerOf (s : State) : Nat := ownLmn s

/-- LESSON and PRODUCER of now (R630). -/
def stampHdr (s : State) (ptn : Nat) (h : Hdr) : Hdr := { h with lesson := lessonOf s ptn, producer := producerOf s }

/-- The header of a tile that a drain writes (R630), LESSON and PRODUCER of now, RUNAHEAD 0. -/
def drainHdr (s : State) (ptn : Nat) (h : Hdr) : Hdr := { stampHdr s ptn h with runahead := false }

/-- A row of OZ16 or OZ32 codes as values. -/
def rowVals16 (cs : List Nat) : List Num := cs.map oz16.decode
def rowVals32 (cs : List Nat) : List Num := cs.map oz32.decode

/-- The outcome of staging a tile (R108-R110). -/
inductive Staged where
  | ok (t : Tile)
  | crcFail
  | hdrFail
deriving DecidableEq, Repr

/-- The bytes of a tile judged at staging: its CRC, then its header (R109, R110). -/
def judgeTile (bs : List Byte) : Staged :=
  if !tileCrcOk bs then .crcFail
  else if !hdrValid bs then .hdrFail
  else .ok (parseTile bs)

/-- Whether SLV.CRC TCHK finds the tile right: 0 matches, 1 does not, 2 an invalid header (R110, R329). -/
def tchk (bs : List Byte) : Nat := if !hdrValid bs then 2 else if tileCrcOk bs then 0 else 1

end Sys2Proof.Machine
end

