-- ==== Sys2Proof/Machine/Roll.lean ====
section
/-! DEFINITION. Roll call (spec/09_roll_call.md): sync frames, the banks' operations on semaphores and barriers, waits,
holds and revocation, engine completions.
Readings and choices: log 18, 19, 22, 24, 133, 151. -/

namespace Sys2Proof.Machine

/-! ### Sync frames (R284-R291) -/

/-- The frame with the fields of R285: BODY is given as the number of its bits [223:32]. -/
def syncFrame (type src dst ttl body : Nat) : List Byte :=
  let n := (type <<< 252) + ((src % 1024) <<< 242) + ((dst % 1024) <<< 232) + ((ttl % 16) <<< 228) + (body <<< 32)
  let bs := leBytes 32 n
  patch bs 0 (leBytes 4 (crc32c (bs.drop 4)))

/-- A field of a frame by its bits. -/
def frameBits (f : List Byte) (hi lo : Nat) : Nat := bits (leNat f) lo (hi - lo + 1)

/-- FCRC of a frame (R285). -/
def fcrcOk (f : List Byte) : Bool := f.length == 32 && field f 0 4 == crc32c (f.drop 4)

/-- A field placed in the BODY, by its bits in the frame. -/
def bodyBits (v hi lo : Nat) : Nat := (v % 2 ^ (hi - lo + 1)) <<< (lo - 32)

/-- Priority of a frame type on the lane (R286). -/
def syncPrio : Nat → Nat
  | 1 => 1 | 5 => 2 | 3 => 3 | 4 => 4 | 2 => 5 | 9 => 6 | 6 => 7 | 7 => 8 | 8 => 8
  | _ => 9

/-- Hands a frame to a port's sync lane, kept in the order of R286. -/
def syncSend (s : State) (port type : Nat) (frame : List Byte) : State :=
  { s with rc.txq := insertBy SyncTx.prio { prio := syncPrio type, port := port, bytes := frame } s.rc.txq }

/-- A frame slot of the sync lanes begins in this core cycle: 256 bits at 224 Gbit/s take 64/35 cy (R284). The lanes' phase against
the core clock is the model's (log 133). -/
def laneSlot (cyc : Nat) : Bool := cyc * 35 / 64 != (cyc + 1) * 35 / 64

/-- Every sync lane sends the first of the frames that wait for it, IDLE where none waits (R284, R286). -/
def lanesSend (s : State) : State :=
  let ports := countFrom 0 8
  let first (p : Nat) : Option SyncTx := s.rc.txq.find? (fun x => x.port == p)
  let sent := ports.filterMap first
  { s with rc := { s.rc with
      lane := sent.map (fun x => (x.port, x.bytes)),
      txq := sent.foldl (fun q x => eraseFirst (· == x) q) s.rc.txq } }

/-- The sync lanes in one core cycle (R284). -/
def laneTick (s : State) : State := if laneSlot s.cyc then lanesSend s else s

/-- The port is in UP or DEGRADED. -/
def portUsable (s : State) (p : Nat) : Bool :=
  match (tget default s.fab.port p).pstate with
  | .up | .degraded => true
  | _ => false

/-- The output port for a destination LMN (R441); none where no valid port qualifies. -/
def routePort (s : State) (lmn : Nat) : Option Nat :=
  let e := tget default s.fab.map lmn
  if e.sel then (if e.vs && portUsable s e.ps then some e.ps else none)
  else if e.va && portUsable s e.pa then some e.pa
  else if e.vb && portUsable s e.pb then some e.pb
  else none

/-- An LMN that is delivered locally (R441). -/
def isOwnLmn (s : State) (l : Nat) : Bool := l == 0x3FF || (s.fab.assigned && l == s.fab.lmn)

/-- Sends a forwarded frame towards an LMN by its route; with no port it is dropped with ROUTE_NONE (R441). -/
def syncRoute (s : State) (type dst body : Nat) : State :=
  match routePort s dst with
  | some p => syncSend s p type (syncFrame type (ownLmn s) dst 15 body)
  | none => raise s .routeNone { kind := .module }

/-! ### Banks -/

/-- The bank of a semaphore or barrier (R292). -/
def bankOfSem (i : Nat) : Nat := if i < 0x8000 then 0 else 1
def bankOfBar (i : Nat) : Nat := if i < 2048 then 0 else 1

/-- The operation names a barrier (R297). -/
def RcOp.onBar : RcOp → Bool
  | .arrive | .waitGen | .barRelease => true
  | _ => false

/-- The bank that a token addresses (R292). -/
def Token.bank (t : Token) : Nat := if t.op.onBar then bankOfBar t.sem else bankOfSem t.sem

/-- The epoch of a bank (R314). -/
def bankEpoch (s : State) (b : Nat) : Nat := if b = 0 then s.rc.epoch0 else s.rc.epoch1

/-- FLAGS of a semaphore: REV, ABT, REJ, SAT from bit 3 down (R298). -/
def Sem.flags (x : Sem) : Nat := 8 * b2n x.rev + 4 * b2n x.abt + 2 * b2n x.rej + b2n x.sat

/-- The value that rd takes from a reply (R332). -/
def rcResult (status flags value : Nat) : DWord := BitVec.ofNat 64 ((status <<< 36) + (flags <<< 32) + value % 2 ^ 32)

/-- A thread's wait ends: rd takes the value, and the thread is READY again, or will be when it is resumed (R322,
R406, R540). -/
def wake (s : State) (core thr rd : Nat) (v : DWord) : State :=
  modThr s core thr (fun h =>
    let h := { setX h rd v with wait := .none }
    if h.state == .suspended then { h with resume := .ready } else { h with state := .ready })

/-- rd of a thread's outstanding Roll-call operation. -/
def rcRd (h : Thr) : Nat :=
  match h.wait with
  | .rc _ rd => rd
  | _ => 0

/-- The reply of an operation to its requester: a thread's rd, or a REPLY frame (R298, R332). -/
def answer (s : State) (t : Token) (status flags value : Nat) : State :=
  match t.src with
  | .thread c h => wake s c h (rcRd (getThr s c h)) (rcResult status flags value)
  | .bank => s
  | .remote lmn _ =>
    syncRoute s 3 lmn
      (bodyBits t.op.code 223 220 + bodyBits status 219 216 + bodyBits (bankEpoch s t.bank) 215 208
        + bodyBits t.rtag 207 192 + bodyBits value 191 160 + bodyBits flags 159 156 + bodyBits t.ctx 155 144)

/-- The reply with the value and flags that a semaphore holds after the operation (R297). -/
def answerSem (s : State) (t : Token) (status : Nat) : State :=
  let x := getSem s t.sem
  answer s t status x.flags x.value

/-- The reply of a barrier operation: GEN and COUNT (R298). -/
def answerBar (s : State) (t : Token) (status : Nat) : State :=
  let b := getBar s t.sem
  answer s t status (4 * b2n b.abt) (b.gen * 65536 + b.count)

/-- FLAGS and VALUE of the answer to an operation that was not performed: free values. -/
def openFlags (s : State) (status i : Nat) : Nat := (Config.openReply status i (now s)).toNat / 2 ^ 32
def openValue (s : State) (status i : Nat) : Nat := (Config.openReply status i (now s)).toNat % 2 ^ 32

/-- The answer to an operation that was not performed (R294, R311, R312). -/
def answerOpen (s : State) (t : Token) (status : Nat) : State :=
  answer s t status (openFlags s status t.sem) (openValue s status t.sem)

/-- The requester reaches a thing of the scope, owner and Form (R294, R295); a bank reaches its own. -/
def reaches (t : Token) (alloc : Bool) (scope owner form : Nat) : Bool :=
  alloc &&
  match t.src with
  | .thread _ _ => t.ptn == owner
  | .bank => true
  | .remote _ _ => scope == 2 && t.form == form && form != 0

/-! ### Hold entries (R302) -/

/-- Entries of a context that hold units (R302, R315). -/
def heldEntries (c : Ctx) : Nat := (c.holds.filter (fun h => decide (0 < h.units))).length

/-- The context has an entry, held or reserved, for the semaphore. -/
def hasHold (c : Ctx) (i : Nat) : Bool := c.holds.any (fun h => h.sem == i)

/-- Entries that neither hold units nor are reserved are freed. -/
def freeHolds (hs : List Hold) : List Hold := hs.filter (fun h => decide (0 < h.units + h.reserved))

/-- Changes the entry for a semaphore, creating it when there is none. -/
def modHold (hs : List Hold) (i : Nat) (f : Hold → Hold) : List Hold :=
  freeHolds (if hs.any (fun h => h.sem == i) then modifyFirst (fun h => h.sem == i) f hs
    else hs ++ [f { sem := i }])

/-- Changes the hold entries of a context for a semaphore. -/
def holdFor (s : State) (c i : Nat) (f : Hold → Hold) : State :=
  modCtx s c (fun x => { x with holds := modHold x.holds i f })

/-- The semaphore is of PARTITION scope, on which holds are kept (R295, R302). -/
def holdScope (s : State) (i : Nat) : Bool := (getSem s i).scope == 0

/-- A hold entry of any context names the semaphore (R297 WRITE). -/
def heldByAny (s : State) (i : Nat) : Bool :=
  s.ctx.any (fun e => e.2.holds.any (fun h => h.sem == i && decide (0 < h.units)))

/-- A reservation of a wait that ends without a grant is freed (R302). -/
def unreserve (s : State) (t : Token) : State :=
  if t.op == .acquire && holdScope s t.sem then
    holdFor s t.ctx t.sem (fun h => { h with reserved := h.reserved - 1 }) else s

/-! ### Waits (R300) -/

/-- The context of a local wait is swapped out, so that the wait is parked (R409). -/
def WaitEnt.live (w : WaitEnt) : Bool := !w.withdrawn

/-- Status of a grant judged against its deadline: OK, LATE or TIMEOUT (R251, R298). -/
def grantStatus (s : State) (d : Option Nat) : Nat :=
  match judgeNow s d with
  | .ok => 0
  | .late => 1
  | .timeout => 2

/-- A wait ends with a status and no grant: the entry leaves the table, a reservation is freed (R300, R302). -/
def endWait (s : State) (w : WaitEnt) (status : Nat) : State :=
  let s := unreserve { s with rc.waits := eraseFirst (· == w) s.rc.waits } w.tok
  if w.tok.op.onBar then answerBar s w.tok status else answerSem s w.tok status

/-- A wait is removed without a reply (R303, R412). -/
def dropWait (s : State) (w : WaitEnt) : State :=
  unreserve { s with rc.waits := eraseFirst (· == w) s.rc.waits } w.tok

/-- A waiting operation is granted: its reply, or a recorded grant while its context is away (R300, R409). -/
def grant (s : State) (w : WaitEnt) : State :=
  let t := w.tok
  if !w.parked && judgeNow s w.deadline == .timeout then endWait s w 2 else
  let s := if t.op == .acquire then
      let s := modSem s t.sem (fun x => { x with value := x.value - t.operand })
      if holdScope s t.sem then
        holdFor s t.ctx t.sem (fun h => { h with units := h.units + t.operand, reserved := h.reserved - 1 })
      else s
    else s
  if w.parked then
    modCtx { s with rc.waits := modifyFirst (· == w) (fun w => { w with granted := some (now s) }) s.rc.waits }
      t.ctx (fun c => { c with parkGrants := satInc 16 c.parkGrants })
  else
    let s := { s with rc.waits := eraseFirst (· == w) s.rc.waits }
    let st := grantStatus s w.deadline
    if t.op.onBar then answerBar s t st else answerSem s t st

/-- The next wait on a semaphore that is satisfied (R300): any WAIT_GE, or the first ACQUIRE in wait-arrival order. -/
def nextGrant (s : State) (i : Nat) : Option WaitEnt :=
  let ws := s.rc.waits.filter (fun w => !w.tok.op.onBar && w.tok.sem == i && w.live && w.granted.isNone)
  let v := (getSem s i).value
  match ws.find? (fun w => w.tok.op == .waitGe && decide (w.tok.operand ≤ v)) with
  | some w => some w
  | none =>
    match ws.find? (fun w => w.tok.op == .acquire) with
    | some w => if w.tok.operand ≤ v then some w else none
    | none => none

/-- Grants waits on a semaphore until none is satisfied (R300); each round ends one wait. -/
def grantGo : (fuel : Nat) → State → (i : Nat) → State
  | 0, s, _ => s
  | n + 1, s, i =>
    match nextGrant s i with
    | some w => grantGo n (grant s w) i
    | none => s

/-- Grants the waits that a change of a semaphore's value satisfies (R300). -/
def grantSem (s : State) (i : Nat) : State := grantGo s.rc.waits.length s i

/-- A waiting ACQUIRE that has left the table no longer blocks the later ones on its semaphore (R300). -/
def unblock (s : State) (w : WaitEnt) : State := if w.tok.op == .acquire then grantSem s w.tok.sem else s

/-- Waits are removed without a reply, and what they blocked is granted (R300, R303, R412). -/
def dropWaits (s : State) (ws : List WaitEnt) : State := forEach ws unblock (forEach ws dropWait s)

/-- Grants the WAIT_GEN entries of a barrier whose generation differs (R300, R305). -/
def grantBar (s : State) (i : Nat) : State :=
  let ws := s.rc.waits.filter (fun w => w.tok.op == .waitGen && w.tok.sem == i && w.live && w.granted.isNone
    && w.tok.operand / 65536 != (getBar s i).gen)
  forEach ws grant s

/-- A wait that another module's request holds in a bank's table. -/
def WaitEnt.remoteOf (b : Nat) (w : WaitEnt) : Bool :=
  match w.tok.src with
  | .remote _ _ => w.tok.bank == b
  | _ => false

/-- A bank's table has a local entry for each hardware thread and 4,096 remote ones (R300). -/
def waitFull (s : State) (t : Token) : Bool :=
  match t.src with
  | .remote _ _ => decide (4096 ≤ (s.rc.waits.filter (WaitEnt.remoteOf t.bank)).length)
  | _ => false

/-- The deadline of a wait that arrives now with a TIMEOUT (R296, R627); TIMEOUT 0 tries once and has none. -/
def waitDeadline (s : State) (timeout : Nat) : Option Nat :=
  if timeout = 0xFFFFFFFF ∨ timeout = 0 then none else some (now s + timeout)

/-- A waiting operation that is not satisfied: TIMEOUT 0 ends it, a full table refuses a remote one, otherwise it
enters the table (R296, R300) and an ACQUIRE reserves its hold entry (R302). -/
def enterWait (s : State) (t : Token) (deadline : Option Nat) : State :=
  if t.timeout = 0 then (if t.op.onBar then answerBar s t 2 else answerSem s t 2)
  else if waitFull s t then (if t.op.onBar then answerBar s t 12 else answerSem s t 12)
  else
    let s := if t.op == .acquire && holdScope s t.sem then
      holdFor s t.ctx t.sem (fun h => { h with reserved := h.reserved + 1 }) else s
    { s with rc.waits := s.rc.waits ++ [{ tok := t, arrival := now s, deadline := deadline }] }

/-! ### Operations (R297-R305) -/

/-! ### Completion of slots (R267, R277) -/

/-- The Timetable that a partition has loaded. -/
def ttOf (s : State) (p : Nat) : Option Timetable := ((getPtn s p).syl).map PtnSyl.tt

/-- Slot `i` of a Timetable. -/
def slotAt (t : Timetable) (i : Nat) : Slot := getAt {} t.slots i

/-- A slot whose DONE_SEM has reached DONE_TARGET completes, judged against its DEADLINE (R251, R267); a completion
with equal stamps counts in TT_PT_LATE. -/
def judgeSlot (s : State) (p : Nat) (y : Timetable) (o : OpenSlot) : State × OpenSlot :=
  let k := slotAt y o.idx
  if o.done || o.timedOut || k.kind == .quiz || k.doneSem == 0xFFFF then (s, o)
  else if (getSem s k.doneSem).value < k.doneTarget then (s, o)
  else match judgeNow s (some (stampOf o.endB 0)) with
  | .ok => (s, { o with done := true })
  | .late => (modTt s p (fun t => { t with late := satInc 32 t.late }), { o with done := true, late := true })
  | .timeout => (s, o)

/-- Judges the open slots of a partition (R267). -/
def judgeSlots (s : State) (p : Nat) : State :=
  match ttOf s p with
  | none => s
  | some y =>
    let (s', os) := (getPtn s p).tt.open_.foldl (fun (acc : State × List OpenSlot) o =>
      let (s, o) := judgeSlot acc.1 p y o
      (s, acc.2 ++ [o])) (s, [])
    modTt s' p (fun t => { t with open_ := os })

/-- The HOLD policy's state becomes HELD once the overrun slot completes (R277): its semaphore reaches the target,
however late. -/
def heldIfDone (s : State) (p : Nat) : State :=
  let t := (getPtn s p).tt
  match t.overrunSlot, ttOf s p with
  | some i, some y =>
    let k := slotAt y i
    if t.state = .running ∧ t.noRelease ∧ !t.aborted ∧ k.doneTarget ≤ (getSem s k.doneSem).value then
      modTt s p (fun t => { t with state := .held, overrunSlot := none })
    else s
  | _, _ => s

/-- A change of a semaphore's value completes the slots of its partition that it satisfies (R267, R277). -/
def slotDone (s : State) (i : Nat) : State :=
  let p := (getSem s i).ptn
  if (getPtn s p).tt.open_.isEmpty && (getPtn s p).tt.overrunSlot.isNone then s else heldIfDone (judgeSlots s p) p

/-! ### Adding -/

/-- Adds to a semaphore with saturation; a clipped add sets SAT (R297). -/
def addSem (s : State) (i k : Nat) : State :=
  slotDone (modSem s i (fun x =>
    { x with value := min (x.value + k) 0xFFFFFFFF, sat := x.sat || decide (0xFFFFFFFF < x.value + k) })) i

/-- The add would clip. -/
def clips (s : State) (i k : Nat) : Bool := decide (0xFFFFFFFF < (getSem s i).value + k)

/-- An operation on a semaphore of this module, its epoch current (R297, R302). -/
def semOp (s : State) (t : Token) (deadline : Option Nat) : State :=
  let x := getSem s t.sem
  if !reaches t x.alloc x.scope x.ptn x.form || t.sem = 0xFFFF then answerOpen s t 4
  else
    match t.op with
    | .read => answerSem s t 0
    | .write =>
      match t.src with
      | .remote _ _ => answerSem s t 4
      | _ =>
        if heldByAny s t.sem then answerSem s t 6
        else
          let s := modSem s t.sem (fun x => { x with value := t.operand, rev := false, abt := false,
                                                      rej := false, sat := false })
          grantSem (answerSem (slotDone s t.sem) t 0) t.sem
    | .add =>
      let st := if clips s t.sem t.operand then 5 else 0
      let s := addSem s t.sem t.operand
      grantSem (answerSem s t st) t.sem
    | .waitGe => if t.operand ≤ x.value then answerSem s t (grantStatus s deadline) else enterWait s t deadline
    | .acquire =>
      if x.scope = 0 && !t.ctxOn then answerSem s t 4
      else if t.operand = 0 then answerSem s t 6
      else if x.scope = 0 && !hasHold (getCtx s t.ctx) t.sem && decide (8 ≤ (getCtx s t.ctx).holds.length) then
        answerSem s t 7
      else if t.operand ≤ x.value && !(s.rc.waits.any (fun w => w.tok.op == .acquire && w.tok.sem == t.sem && w.live
          && w.granted.isNone)) then
        let s := modSem s t.sem (fun x => { x with value := x.value - t.operand })
        let s := if x.scope = 0 then
          holdFor s t.ctx t.sem (fun h => { h with units := h.units + t.operand }) else s
        answerSem s t 0
      else enterWait s t deadline
    | .release =>
      if x.scope = 0 then
        if !t.ctxOn then answerSem s t 4
        else if !((getCtx s t.ctx).holds.any (fun h => h.sem == t.sem && decide (t.operand ≤ h.units)
            && decide (0 < h.units))) then
          answerSem s t 8
        else
          let st := if clips s t.sem t.operand then 5 else 0
          let s := holdFor s t.ctx t.sem (fun h => { h with units := h.units - t.operand })
          grantSem (answerSem (addSem s t.sem t.operand) t st) t.sem
      else
        let st := if clips s t.sem t.operand then 5 else 0
        grantSem (answerSem (addSem s t.sem t.operand) t st) t.sem
    | .arrive | .waitGen | .barRelease => s

/-- What one barrier does to another (R305): an ARRIVE at a parent, which names the child's partition and Form, or the BAR_RELEASE
of a parent, which names the parent, since CHILDREN holds only LMNs (R304). -/
inductive BarEvent where
  | arrive (bar gen n lmn ptn form : Nat)
  | release (lmn bar gen form : Nat)
deriving DecidableEq, Repr

/-- A tag that no outstanding request carries (R313). -/
def freshTag (s : State) : Nat :=
  ((countFrom s.rc.nextTag 65536).find? (fun t => !(s.rc.out.any (fun o => o.tok.rtag == t % 65536)))).getD 0 % 65536

/-- A request to another module becomes outstanding until its REPLY or LOST; its deadline is TIMEOUT plus REPLY_LIMIT (R300, R313). -/
def openReq (s : State) (tok : Token) (lmn : Nat) : State :=
  let dl := if tok.timeout = 0xFFFFFFFF then none else some (now s + tok.timeout + s.rc.replyLimit * 2048)
  { s with rc.out := s.rc.out ++ [{ tok := tok, lmn := lmn, deadline := dl }],
           rc.nextTag := wrap 16 (tok.rtag + 1), rc.doneTags := s.rc.doneTags.filter (· != tok.rtag) }

/-- A bank's ARRIVE at a parent on another module (R296, R305, R313): it is answered, so it is an outstanding request. -/
def bankArrive (s : State) (lmn sem gen n ptn form : Nat) : State :=
  let tok : Token := {
    op := .arrive, ctxOn := false, ptn := ptn, sem := sem, operand := gen * 65536 + n, form := form, src := .bank,
    rtag := freshTag s, epoch := tget 0 s.rc.peerEpoch (2 * lmn + bankOfBar sem) }
  syncRoute (openReq s tok lmn) 2 lmn (bodyBits tok.op.code 223 220 + bodyBits ptn 207 202 + bodyBits sem 201 186
    + bodyBits tok.epoch 185 178 + bodyBits tok.rtag 177 162 + bodyBits tok.operand 161 130 + bodyBits form 97 86)

/-- A frame for another barrier: a TOKEN towards another module, or an event of this module's own. A BAR_RELEASE is not answered
(log 24), so its RTAG names no request. -/
def barSend (s : State) (lmn op sem gen n ptn form : Nat) : State × List BarEvent :=
  if s.fab.assigned && lmn == s.fab.lmn then
    (s, [if op = RcOp.arrive.code then .arrive sem gen n lmn ptn form else .release lmn sem gen form])
  else if op = RcOp.arrive.code then (bankArrive s lmn sem gen n ptn form, [])
  else
    (syncRoute s 2 lmn (bodyBits op 223 220 + bodyBits ptn 207 202 + bodyBits sem 201 186
      + bodyBits (tget 0 s.rc.peerEpoch (2 * lmn + bankOfBar sem)) 185 178
      + bodyBits (gen * 65536 + n) 161 130 + bodyBits form 97 86), [])

/-- A barrier of this module may report to a parent on it (R294, R295): the parent is allocated, and it is of the same partition or
of the same Form. -/
def parentReached (b : Bar) (ptn form : Nat) : Bool := b.alloc && (b.ptn == ptn || (b.scope == 2 && b.form == form && form != 0))

/-- A barrier's generation completes (R305): a new generation, BAR_RELEASE to each recorded child, its waits. -/
def completeBar (s : State) (i : Nat) : State × List BarEvent :=
  let b := getBar s i
  let s := modBar s i (fun b =>
    { b with gen := wrap 16 (b.gen + 1), count := 0, children := [], completing := false })
  let (s, es) := b.children.foldl (fun (acc : State × List BarEvent) child =>
    let (s, es) := barSend acc.1 child RcOp.barRelease.code i b.gen 0 b.ptn b.form
    (s, acc.2 ++ es)) (s, [])
  (grantBar s i, es)

/-- Arrivals that passed their checks are counted; COUNT at TARGET completes a root and makes another barrier report
to its parent (R305). -/
def countArrive (s : State) (i n : Nat) (child : Option Nat) : State × List BarEvent :=
  let b := getBar s i
  let kids := match child with
    | some l => insertNat l b.children
    | none => b.children
  let b' : Bar := { b with count := b.count + n, children := kids }
  let s := modBar s i (fun _ => b')
  if b'.count = b'.target then
    if b'.upLmn = 0x3FF then completeBar s i
    else barSend (modBar s i (fun b => { b with completing := true })) b'.upLmn RcOp.arrive.code b'.upBar b'.gen 1
      b'.ptn b'.form
  else (s, [])

/-- Status of an ARRIVE (R297, R305): 6 MALFORMED, 10 WRONG_GEN, 0 counted. -/
def arriveStatus (b : Bar) (gen n : Nat) (child : Option Nat) : Nat :=
  let newChild := match child with | some l => !b.children.contains l | none => false
  if n = 0 then 6
  else if gen != b.gen || b.completing then 10
  else if b.target < b.count + n || (newChild && decide (8 ≤ b.children.length)) then 6
  else 0

/-- Runs what barriers of this module do to each other, one event a round. -/
def barGo : (fuel : Nat) → State → List BarEvent → State
  | 0, s, _ => s
  | _ + 1, s, [] => s
  | k + 1, s, .arrive i gen n lmn ptn form :: es =>
    if parentReached (getBar s i) ptn form && arriveStatus (getBar s i) gen n (some lmn) == 0 then
      let (s, more) := countArrive s i n (some lmn)
      barGo k s (es ++ more)
    else barGo k s es
  | k + 1, s, .release lmn bar gen form :: es =>
    match s.rc.bar.find? (fun e => e.2.alloc && e.2.completing && e.2.upLmn == lmn && e.2.upBar == bar
        && e.2.gen == gen && e.2.form == form) with
    | some e =>
      let (s, more) := completeBar s e.1
      barGo k s (.release lmn bar gen form :: es ++ more)
    | none => barGo k s es

/-- Bound on the events of one operation: every barrier reports once and is released once. -/
def barFuel : Nat := 16384

/-- An operation on a barrier of this module, its epoch current (R304, R305). A BAR_RELEASE from a thread is refused;
one from another module completes the barriers that wait for that parent. -/
def barOp (s : State) (t : Token) (deadline : Option Nat) : State :=
  let gen := t.operand / 65536 % 65536
  let n := t.operand % 65536
  match t.op, t.src with
  | .barRelease, .remote lmn _ => barGo barFuel s [.release lmn t.sem gen t.form]
  | op, src =>
    let b := getBar s t.sem
    if !reaches t b.alloc b.scope b.ptn b.form then answerOpen s t 4
    else
      match op with
      | .arrive =>
        let child := match src with | .remote lmn _ => some lmn | _ => none
        let st := arriveStatus b gen n child
        if st = 0 then
          let (s1, es) := countArrive s t.sem n child
          barGo barFuel (answerBar s1 t 0) es
        else answerBar s t st
      | .waitGen => if gen ≠ b.gen then answerBar s t 0 else enterWait s t deadline
      | _ => answerBar s t 6

/-- An operation at its bank: an epoch that differs is answered ABORT_RESET and not executed (R311). -/
def bankOp (s : State) (t : Token) (deadline : Option Nat) : State :=
  if t.epoch ≠ bankEpoch s t.bank then answerOpen s t 3
  else if t.op.onBar then barOp s t deadline
  else semOp s t deadline

/-! ### Engines (R301) -/

/-- What an engine's increment carries: nothing, REJ or ABT (R301). -/
inductive DoneFlag where
  | plain | rej | abt
deriving DecidableEq, Repr, Inhabited

/-- An engine's ADD of 1 for a partition, of MODULE or FORM scope; one that names a semaphore out of the engine's
reach is dropped with SEM_FOREIGN (R295, R301). -/
def engineAdd (s : State) (ptn sem : Nat) (flag : DoneFlag) : State :=
  let x := getSem s sem
  if x.alloc && x.ptn == ptn && x.scope != 0 && sem != 0xFFFF then
    let s := modSem s sem (fun x => { x with rej := x.rej || flag == .rej, abt := x.abt || flag == .abt })
    grantSem (addSem s sem 1) sem
  else raise s .semForeign { kind := .bank, unit := bankOfSem sem, ptn := ptn }

/-- The increment of an operation at the Vat's port 64, which reaches an allocated semaphore of any partition but the
PARTITION scope (R295, R301). -/
def portAdd (s : State) (sem : Nat) : State :=
  let x := getSem s sem
  if sem = 0xFFFF then s
  else if x.alloc && x.scope != 0 then grantSem (addSem s sem 1) sem
  else raise s .semForeign { kind := .bank, unit := bankOfSem sem }

/-- The add of 1 of a thread group's end, of the Timetable engine and of EVENT_SEM, which reaches every scope that a
thread of the partition reaches (R295, R301, R338). -/
def threadAdd (s : State) (ptn sem : Nat) : State :=
  let x := getSem s sem
  if sem = 0xFFFF then s
  else if x.alloc && x.ptn == ptn then grantSem (addSem s sem 1) sem
  else raise s .semForeign { kind := .bank, unit := bankOfSem sem, ptn := ptn }

/-- A change of a partition's or a context's STATE increments EVENT_SEM (R422). -/
def eventSem (s : State) (p : Nat) : State :=
  let i := (getPtn s p).eventSem
  if i = 0xFFFF then s else threadAdd s p i

/-! ### Revocation (R303) -/

/-- A request that a thread of a context made. -/
def Token.threadOf (c : Nat) (t : Token) : Bool :=
  t.ctx == c && (match t.src with | .thread _ _ => true | _ => false)

/-- Revokes every hold entry of a context: units go back, REV is set, waits are granted; the context's own waits, at this module's
banks and at others', are removed without a reply (R300, R303). -/
def revokeHolds (s : State) (c : Nat) : State :=
  let own := s.rc.waits.filter (fun w => w.tok.threadOf c)
  let s := dropWaits { s with rc.out := s.rc.out.filter (fun o => !o.tok.threadOf c) } own
  let hs := (getCtx s c).holds
  let s := modCtx s c (fun x => { x with holds := [] })
  forEach hs (fun s h =>
    if h.units = 0 then s else
    grantSem (modSem (addSem s h.sem h.units) h.sem (fun x => { x with rev := true })) h.sem) s

end Sys2Proof.Machine
end

