-- ==== Sys2Proof/Machine/Contexts.lean ====
section
/-! DEFINITION. Partitions and contexts (spec/12_partitions_contexts.md): their states, recess processing, parked
waits, pre-emption, detaching, enables during shut-down.
Readings and choices: log 22, 25, 50, 129. -/

namespace Sys2Proof.Machine

/-- Changes a partition's STATE; a change increments EVENT_SEM (R422). -/
def setPtnState (s : State) (p : Nat) (st : PtnState) : State :=
  if (getPtn s p).state = st then s else eventSem (modPtn s p (fun q => { q with state := st })) p

/-- Changes a context's STATE; a change increments EVENT_SEM of its partition (R422). -/
def setCtxState (s : State) (c : Nat) (st : CtxState) : State :=
  if (getCtx s c).state = st then s
  else
    let s := modCtx s c (fun x => { x with state := st })
    match ptnOfCtx s c with
    | some p => eventSem s p
    | none => s

/-- Press `r`. -/
def getPrs (s : State) (r : Nat) : Prs := tget default s.prs r
/-- Changes Press `r`. -/
def modPrs (s : State) (r : Nat) (f : Prs → Prs) : State := { s with prs := tmod default s.prs r f }

/-- PTN_ID, CTX and DONE_SEM of a PCD (R220). -/
def pcdPtn (d : List Byte) : Nat := bits (field d 4 4) 0 6
def pcdCtx (d : List Byte) : Nat := bits (field d 4 4) 6 12
def pcdDone (d : List Byte) : Nat := field d 38 2

/-- An engine's completion that names a semaphore, 0xFFFF for none (R220, R301). -/
def doneAdd (s : State) (ptn sem : Nat) (flag : DoneFlag) : State :=
  if sem = 0xFFFF then s else engineAdd s ptn sem flag

/-! ### Threads of a context (R406, R408-R410) -/

/-- The threads, by core and index, that meet a condition. -/
def threadsWhere (s : State) (f : Nat → Nat → Thr → Bool) : List (Nat × Nat) :=
  (s.core.map (fun c => (c.2.thr.filter (fun t => f c.1 t.1 t.2)).map (fun t => (c.1, t.1)))).flatten

/-- The U-mode threads of a partition that work for a context (R406). -/
def userThreads (s : State) (p c : Nat) : List (Nat × Nat) :=
  threadsWhere s (fun n _ h => (getPtn s p).owns (n / 8) && !h.mmode && h.ctx == c && h.state != .idle)

/-- A thread enters SUSPENDED and keeps the state it left (R322, R406). -/
def suspend (s : State) (n t : Nat) : State :=
  modThr s n t (fun h => if h.state == .suspended || h.state == .idle then h
    else { h with resume := h.state, state := .suspended })

/-- The context is away from its partition: its U-mode threads stay SUSPENDED (R400). -/
def ctxAway (x : Ctx) : Bool :=
  match x.state with
  | .swapped | .resuming | .restart | .scrubbing => true
  | .detaching => !x.stay
  | _ => false

/-- A suspended thread returns to the state it left, unless its core is frozen or its context away (R406, R540). -/
def unsuspend (s : State) (n t : Nat) : State :=
  let h := getThr s n t
  if h.state == .suspended && !(getCore s n).frozen && (h.mmode || !ctxAway (getCtx s h.ctx)) then
    modThr s n t (fun h => { h with state := h.resume, resume := .idle })
  else s

/-- A thread's SLV.BWAIT UNTIL whose Bell has begun ends with the current stamp (R333). -/
def bellWake (s : State) (n t : Nat) : State :=
  match (getThr s n t).wait with
  | .bell b rd => if counting s && decide (b ≤ s.bell.count) then wake s n t rd (BitVec.ofNat 64 (now s)) else s
  | _ => s

/-- The wait is one of a suspended thread of the context on this module. -/
def waitOf (s : State) (c : Nat) (w : WaitEnt) : Bool :=
  match w.tok.src with
  | .thread n t => w.tok.ctx == c && (getThr s n t).state == .suspended
  | _ => false

/-- The thing that a wait is on has PARTITION scope (R409). -/
def waitOnPtn (s : State) (w : WaitEnt) : Bool :=
  if w.tok.op.onBar then (getBar s w.tok.sem).scope == 0 else (getSem s w.tok.sem).scope == 0

/-- Parks the waits of a context's suspended threads (R409): local entries keep their remaining time; those of
PARTITION scope are withdrawn; remote requests hold their REPLY. -/
def parkWaits (s : State) (c : Nat) : State :=
  let left (w : WaitEnt) : Option Nat := w.deadline.map (fun d => d - now s)
  let ws := s.rc.waits.filter (fun w => waitOf s c w && !w.parked)
  let s1 := forEach ws (fun s w =>
    if waitOnPtn s w then
      let s := unreserve s w.tok
      { s with rc.waits := modifyFirst (· == w) (fun w => { w with parked := true, withdrawn := true, left := left w }) s.rc.waits }
    else { s with rc.waits := modifyFirst (· == w) (fun w => { w with parked := true, left := left w }) s.rc.waits }) s
  -- an ACQUIRE that is withdrawn no longer blocks the later ones (R300)
  let s1 := forEach (ws.filter (waitOnPtn s)) unblock s1
  let mine (o : OutReq) : Bool := match o.tok.src with
    | .thread n t => o.tok.ctx == c && (getThr s n t).state == .suspended
    | _ => false
  let k := ws.length + (s1.rc.out.filter mine).length
  modCtx { s1 with rc.out := s1.rc.out.map (fun o => if mine o then { o with parked := true } else o) } c
    (fun x => { x with parkWaits := satAdd 16 x.parkWaits k })

/-- Delivers what was parked when the context becomes RUNNING again (R409): recorded grants with status OK in grant
order, deadlines re-armed, withdrawn entries re-entered, held replies delivered as they arrived. -/
def unparkWaits (s : State) (c : Nat) : State :=
  let mine := s.rc.waits.filter (fun w => w.parked && w.tok.ctx == c)
  let granted := (mine.filter (fun w => w.granted.isSome)).foldl
    (fun acc w => insertBy (fun w => w.granted.getD 0) w acc) []
  let s := forEach granted (fun s w =>
    let s := { s with rc.waits := eraseFirst (· == w) s.rc.waits }
    if w.tok.op.onBar then answerBar s w.tok 0 else answerSem s w.tok 0) s
  let s := forEach (mine.filter (fun w => w.granted.isNone)) (fun s w =>
    let w' : WaitEnt := { w with parked := false, left := none, withdrawn := false,
                                 deadline := w.left.map (fun l => now s + l) }
    if w.withdrawn then
      let s := { s with rc.waits := eraseFirst (· == w) s.rc.waits }
      let s := if w.tok.op == .acquire && holdScope s w.tok.sem then
        holdFor s w.tok.ctx w.tok.sem (fun h => { h with reserved := h.reserved + 1 }) else s
      let s := { s with rc.waits := s.rc.waits ++ [{ w' with arrival := now s }] }
      if w.tok.op.onBar then grantBar s w.tok.sem else grantSem s w.tok.sem
    else { s with rc.waits := modifyFirst (· == w) (fun _ => w') s.rc.waits }) s
  let outs := s.rc.out.filter (fun o => o.parked && o.tok.ctx == c)
  let s := forEach outs (fun s o =>
    match o.held with
    | some r =>
      match o.tok.src with
      | .thread n t =>
        wake { s with rc.out := eraseFirst (· == o) s.rc.out } n t (rcRd (getThr s n t))
          (rcResult r.status r.flags r.value)
      | _ => s
    | none => { s with rc.out := modifyFirst (· == o) (fun o => { o with parked := false }) s.rc.out }) s
  modCtx s c (fun x => { x with parkWaits := 0, parkGrants := 0 })

/-- Removes the queued PCDs of a context from every Press; their DONE_SEM increments with REJ (R406). -/
def dropPcds (s : State) (c : Nat) : State :=
  forEach (tkeys s.prs) (fun s r =>
    let gone := (getPrs s r).q.filter (fun e => pcdCtx e.desc == c)
    let s := modPrs s r (fun x => { x with q := x.q.filter (fun e => pcdCtx e.desc != c) })
    forEach gone (fun s e => doneAdd s e.issuer.ptn (pcdDone e.desc) .rej) s) s

/-- A context's U-mode threads are suspended and its queued PCDs removed (R406, R408, R410). -/
def quiesce (s : State) (p c : Nat) : State := dropPcds (forEach (userThreads s p c) (fun s e => suspend s e.1 e.2) s) c

/-- A context becomes SWAPPED (R406, R409). -/
def swapOut (s : State) (p c : Nat) : State :=
  let s := setCtxState s c .swapped
  parkWaits (quiesce (modCtx s c (fun x => { x with swap := s.bell.count, bound := 0, regPend := false })) p c) c

/-- A context becomes RUNNING, bound to its requested seat (R401, R406). -/
def enterCtx (s : State) (p c : Nat) : State :=
  let s := setCtxState s c .running
  let s := modCtx s c (fun x => { x with seat := x.reqSeat, restored := false })
  let s := forEach (userThreads s p c) (fun s e => unsuspend s e.1 e.2) s
  let s := unparkWaits s c
  forEach (userThreads s p c) (fun s e => bellWake s e.1 e.2) s

/-! ### Detaching (R410) -/

/-- The landing buffers of a context, by number. -/
def bufsOf (s : State) (c : Nat) : List Nat := (s.rc.buf.filter (fun e => e.2.bound && e.2.ctx == c)).map Prod.fst

/-- A DETACHING context leaves: it is no longer attached, its threads are suspended, its landing buffers return no
more credits and the quiet period starts (R410). -/
def leave (s : State) (p c : Nat) : State :=
  let s := modCtx s c (fun x => { x with stay := false, bound := 0, regPend := false, quietSince := some (now s) })
  let s := quiesce s p c
  forEach (bufsOf s c) (fun s b => modBuf s b (fun x => { x with closing := true })) s

/-- A restore of the context runs (R563). -/
def restoring (s : State) (c : Nat) : Bool := (tget {} s.snp.ctx c).restoring.isSome

/-- A DETACH stops a restore of the context, which ends ABORTED (R563). -/
def stopRestore (s : State) (c : Nat) : State :=
  if restoring s c then
    { s with snp := { s.snp with
        ctx := tmod {} s.snp.ctx c (fun x => { x with restoring := none }), busy := false, done := true, status := 5 } }
  else s

/-- A context enters DETACHING (R401, R410): from RUNNING or PREEMPTING it stays attached until a recess, with the
bound that is already armed kept; from any other state it leaves at once. -/
def detach (s : State) (p c : Nat) : State :=
  let s := stopRestore s c
  match (getCtx s c).state with
  | .running =>
    setCtxState (modCtx s c (fun x => { x with stay := true, regPend := true, rebind := false })) c .detaching
  | .preempting => setCtxState (modCtx s c (fun x => { x with stay := true })) c .detaching
  | .free | .scrubbing | .detaching => s
  | _ => leave (setCtxState s c .detaching) p c

/-- Puts a job at the end of Brine's queue (R417). -/
def brnPush (s : State) (j : BrnJob) : State := { s with brn.queue := s.brn.queue ++ [j] }

/-- A thread becomes IDLE and waits for nothing (R410, R412). -/
def idleThread (s : State) (n t : Nat) : State :=
  let s := dropWaits s (s.rc.waits.filter (fun w => w.tok.src == .thread n t))
  modThr { dropResv s n t with rc.out := s.rc.out.filter (fun o => o.tok.src != .thread n t) } n t
    (fun h => { h with state := .idle, resume := .idle, wait := .none })

/-- The quiet period of a detaching context is over: its landing buffers close and it enters SCRUBBING, its threads
IDLE, its scrub a job of Brine (R410, R417). -/
def enterScrub (s : State) (p c : Nat) : State :=
  let s := setCtxState (modCtx s c (fun x => { x with quietSince := none })) c .scrubbing
  let s := forEach (bufsOf s c) (fun s b => modBuf s b (fun x => { x with closed := true })) s
  let s := forEach (userThreads s p c) (fun s e => idleThread s e.1 e.2) s
  brnPush s (.context p c)

/-- A context is marked for restart from its last recess snapshot: it enters RESTART (R278, R303, R408, R536). It
stays attached for tag checks until the next Lesson boundary. -/
def restartCtx (s : State) (p c : Nat) : State :=
  match (getCtx s c).state with
  | .running | .preempting =>
    quiesce (setCtxState (modCtx s c (fun x => { x with stay := true, bound := 0, regPend := false, restored := false }))
      c .restart) p c
  | _ => s

/-! ### Recess processing (R405) -/

/-- The recess processing of a partition (R405): contexts that the Press had held (R229, R237), departures in ascending CTX, seat changes, admissions in ascending
stamp of their command. -/
def recess (s : State) (p : Nat) : State :=
  let s := forEach (ctxRange s p) (fun s c =>
    if (getCtx s c).pressHold then restartCtx (modCtx s c (fun x => { x with pressHold := false })) p c else s) s
  let s := forEach (ctxRange s p) (fun s c =>
    let x := getCtx s c
    if heldEntries x = 0 then
      match x.state with
      | .preempting => swapOut s p c
      | .detaching => if x.stay then leave s p c else s
      | _ => s
    else s) s
  let s := forEach (ctxRange s p) (fun s c =>
    let x := getCtx s c
    if x.rebind && x.state == .running then modCtx s c (fun x => { x with seat := x.reqSeat, rebind := false })
    else s) s
  let waiting := (ctxRange s p).filter (fun c =>
    (getCtx s c).state == .attaching || (getCtx s c).state == .resuming)
  let order := waiting.foldl (fun acc c => insertBy (fun c => (getCtx s c).cmdStamp) c acc) []
  forEach order (fun s c => if attachedCount s p < (getPtn s p).activeMax then enterCtx s p c else s) s

/-- At the registration Bell of a PREEMPT or DETACH, CTX_BOUND is set (R279, R407). -/
def registerBound (s : State) (p c : Nat) : State :=
  let pb := match (getPtn s p).syl with
    | some y => if y.tt.preemptBound = 0 then 4096 else y.tt.preemptBound
    | none => 4096
  if (getCtx s c).regPend then
    modCtx s c (fun x => { x with regPend := false, bound := wrap 64 (s.bell.count + pb) })
  else s

/-- At cycle 0 of Bell CTX_BOUND a context that has not left has its holds revoked (R407): it enters RESTART, and one
that is DETACHING leaves (R408, R410). -/
def boundExpiry (s : State) (p c : Nat) : State :=
  let x := getCtx s c
  let go := modPtn (revokeHolds s c) p (fun q => { q with revoked := satInc 16 q.revoked })
  match x.state with
  | .preempting => restartCtx go p c
  | .detaching => if x.stay then leave go p c else s
  | _ => s

/-! ### Key slots and enables (R347, R350, R400, R411) -/

/-- Sweeps every SRAM line that carries a tag which the condition names: zero and UNOWNED (R350). -/
def sweep (s : State) (f : LineTag → Bool) : State :=
  forEach (s.tags.filter (fun e => f e.2)) (fun s e =>
    { store s (64 * e.1) (List.replicate 64 0) with tags := tset .unowned s.tags e.1 .unowned }) s

/-- CTX_GEN increments; a return to 0 sweeps the context's lines first (R347, R350). -/
def bumpCtxGen (s : State) (c : Nat) : State :=
  let g := wrap 8 ((getCtx s c).gen + 1)
  let s := if g = 0 then sweep s (fun t => match t with | .priv c' _ => c' == c | _ => false) else s
  modCtx s c (fun x => { x with gen := g })

/-- PTN_GEN increments; a return to 0 sweeps the partition's lines first (R347, R350). -/
def bumpPtnGen (s : State) (p : Nat) : State :=
  let g := wrap 8 ((getPtn s p).gen + 1)
  let s := if g = 0 then sweep s (fun t => match t with | .shared p' _ => p' == p | _ => false) else s
  modPtn s p (fun q => { q with gen := g })

/-- The first whole Bell in which a function that comes to rest now rests (R411). -/
def restFrom (s : State) : Nat := if s.bell.sub = 0 then s.bell.count else s.bell.count + 1

/-- A function has rested a whole Bell (R411); while no Bell occurs nothing waits for one. -/
def rested (s : State) : Option Nat → Bool
  | some b => !counting s || decide (b + 1 ≤ s.bell.count)
  | none => false

/-- Loads a FREE context's key slot: CTX_GEN increments and the context becomes KEYED (R400, R516, R517). -/
def loadKey (s : State) (c : Nat) (k : KeySlot) : State :=
  let s := bumpCtxGen { s with keys.ctx := tset none s.keys.ctx c (some k) } c
  setCtxState (modCtx s c (fun x => { x with loaded := true })) c .keyed

/-- The context scrub has ended: the key slot is zeroised, the event counters cleared, the context FREE (R410). -/
def freeCtx (s : State) (c : Nat) : State :=
  let s := setCtxState { s with keys.ctx := tset none s.keys.ctx c none } c .free
  modCtx s c (fun x => { x with loaded := false, convSat := 0, convNan := 0, gradev := 0, masterev := 0,
                                restored := false, rebind := false, bound := 0, regPend := false, stay := false,
                                exch := [], holds := [], rerunLesson := false, skips := false, psbs := [],
                                pressHold := false, copying := false, copyStg := [],
                                restSince := if x.enableQ.isEmpty then none else some (restFrom s) })

/-- Applies a context's queued enables, in arrival order, once it has rested in FREE a whole Bell (R411). -/
def applyCtxEnables (s : State) (c : Nat) : State :=
  let x := getCtx s c
  let s := modCtx s c (fun x => { x with enableQ := [], restSince := none })
  forEach x.enableQ (fun s e =>
    match e with
    | .key ks =>
      loadKey s c { xts := getAt [] ks 0, imp := getAt [] ks 1, exp := getAt [] ks 2 }
    | .attach seat =>
      if (getCtx s c).state = .keyed then
        modCtx (setCtxState s c .attaching) c (fun x => { x with reqSeat := seat, cmdStamp := now s, lastStatus := 0 })
      else modCtx s c (fun x => { x with lastStatus := 1 })) s

end Sys2Proof.Machine
end

