-- ==== Sys2Proof/Machine/PtnCmd.lean ====
section
/-! DEFINITION. The partition and context commands (R399-R403, R411, R412, R422): PTN_CMD, PTN_CTX_CMD, hold causes and
teardown up to the partition scrub.
Readings and choices: log 23, 106, 121, 124, 158. -/

namespace Sys2Proof.Machine

/-! ### Who writes (R346, R403, R503) -/

/-- The role of a requester; a thread and the anonymous session have none (R502, R503). In MANUFACTURE, as the
eFuses hold it, the TAP has maker rights (R496, R572); in SCRAPPED nobody has any (R496), and in RECOVERY no session is served (R494). -/
def roleOf (s : State) : Req → Option Role
  | .session id => if s.lcs.lc = .scrapped ∨ s.mod.recovery then none else (s.ses.open_.find? (fun x => x.id == id)).map Session.role
  | .tap => if s.pwr.vao ∧ s.fuse.lc = .manufacture then some .maker else none
  | _ => none

/-- The requester is a session of the operator role. -/
def isOperator (s : State) (r : Req) : Bool := roleOf s r == some .operator
/-- The requester is a session of the installer role. -/
def isInstaller (s : State) (r : Req) : Bool := roleOf s r == some .installer
/-- The requester is a session of the maker role. -/
def isMaker (s : State) (r : Req) : Bool := roleOf s r == some .maker

/-- The requester is an M-mode thread of the partition (R346, R422). -/
def isRuntimeOf (s : State) (p : Nat) : Req → Bool
  | .thread n t => (getThr s n t).mmode && ptnOfCore s n == some p
  | _ => false

/-- The writer's role and key slot, as journal entries carry them (R507). -/
def journalRole (s : State) (r : Req) : Nat × Nat :=
  match r with
  | .session id =>
    match s.ses.open_.find? (fun x => x.id == id) with
    | some x => (x.role.code, x.slot)
    | none => (0, 0)
  | .tap => (3, 0)
  | _ => (0, 0)

/-- Appends a journal entry on behalf of a requester (R507, R509). -/
def journalFor (s : State) (r : Req) (e : JEntry) : State :=
  let (role, slot) := journalRole s r
  journal s { e with role := role, slot := slot }

/-! ### Hold causes (R399) -/

/-- HOLD_CAUSE bits (R399). -/
def causeOperator : Nat := 0
def causeDegraded : Nat := 1
def causeXdie1 : Nat := 2
def causeBank : Nat := 3
def causeBellLost : Nat := 4

/-- A partition has a window in a tier 2 channel that is unavailable (R35, R575): each channel from 8 on takes a part of every
32 KiB of the upper half (R342). -/
def usesDead (s : State) (p : Nat) : Bool :=
  !s.tst.deadChannels.isEmpty && (ptnWins s p).any (fun w => w.mem == .tier2 && decide (2 ^ 39 < w.base + w.size))

/-- Sets a HOLD_CAUSE bit: an ACTIVE partition enters HELD at once (R399). -/
def setHold (s : State) (p bit : Nat) : State :=
  let q := getPtn s p
  if q.state = .active ∨ q.state = .held then
    setPtnState (modPtn s p (fun q => { q with holdCause := q.holdCause ||| 2 ^ bit })) p .held
  else s

/-- Clears HOLD_CAUSE bits: with the last one the partition returns to ACTIVE; its Timetable stays HELD (R399). -/
def clearHold (s : State) (p mask : Nat) : State :=
  let c := (getPtn s p).holdCause &&& (0xFF - mask % 256)
  let s := modPtn s p (fun q => { q with holdCause := c })
  if c = 0 ∧ (getPtn s p).state = .held then setPtnState s p .active else s

/-! ### Running commands (R628) -/

/-- An engine runs a command of the partition, or a decision is pending for one (R628). -/
def ptnRunning (s : State) (p : Nat) : Bool :=
  s.core.any (fun c =>
    (match c.2.acdRun with | some e => e.issuer.ptn == p | none => false)
    || (match c.2.wcdRun with | some e => e.issuer.ptn == p | none => false)
    || (match c.2.xferRun with | some e => e.issuer.ptn == p | none => false)
    || (match c.2.decision with | some d => d.entry.issuer.ptn == p | none => false))
  || s.prs.any (fun r => match r.2.run with | some e => e.issuer.ptn == p | none => false)

/-! ### Teardown (R412) -/

/-- STOP of a Timetable (R282): STOPPING; a HELD one, and one that has stopped releasing, ends when its running
commands end. -/
def stopTt (s : State) (p : Nat) : State :=
  let t := (getPtn s p).tt
  if t.state = .running ∨ t.state = .held then
    let dead := t.state == .held || t.noRelease
    if dead && !ptnRunning s p then
      modTt s p (fun t => { t with state := .idle, open_ := [], noRelease := false, overrunSlot := none, inLesson := false })
    else modTt s p (fun t => { t with state := .stopping, noRelease := dead })
  else if t.state = .armed then modTt s p (fun t => { t with state := .idle })
  else s

/-- A core's buffers as teardown leaves them: queues empty, stationary tile, accumulators and join buffer zero
(R412 step 4). -/
def emptyCore (c : Core) : Core :=
  { c with acdQ := [], wcdQ := [], xferQ := [], stat := none, acc := {}, wacc := [], wleaf := 0, wcover := none, grads := [], gradRange := [],
           join := [],
           routeIn := [], group := none }

/-- Answers FOREIGN to every wait on what is deallocated (R412 step 5). -/
def foreignWaits (s : State) (f : Token → Bool) : State :=
  forEach (s.rc.waits.filter (fun w => f w.tok)) (fun s w =>
    answerOpen (unreserve { s with rc.waits := eraseFirst (· == w) s.rc.waits } w.tok) w.tok 4) s

/-- Deallocates a partition's semaphores, barriers, pools and landing buffers (R412 step 5). -/
def deallocate (s : State) (p : Nat) : State :=
  let s := foreignWaits s (fun t => if t.op.onBar then (getBar s t.sem).alloc && (getBar s t.sem).ptn == p
    else (getSem s t.sem).alloc && (getSem s t.sem).ptn == p)
  { s with rc.sem := s.rc.sem.filter (fun e => e.2.ptn != p || !e.2.alloc),
           rc.bar := s.rc.bar.filter (fun e => e.2.ptn != p || !e.2.alloc),
           rc.pool := s.rc.pool.filter (fun e => e.2.ptn != p || !e.2.bound),
           rc.buf := s.rc.buf.filter (fun e => e.2.ptn != p || !e.2.bound) }

/-- MiB of a partition's quotas, as PTN_SCRUB_LEFT counts them (R415, R422). -/
def quotaMib (g : Grant) : Nat := (g.hbmSize + g.t2Size) / 16

/-- Steps 4-6 of a teardown, once its Timetable has stopped, no context is attached and no command runs (R412). -/
def teardownProceed (s : State) (p : Nat) : State :=
  let q := getPtn s p
  if q.state = .teardown && q.tt.state == .idle && attachedCount s p == 0 && !ptnRunning s p then
    let cores := coresOf s p
    let s := forEach (threadsWhere s (fun n _ h => q.owns (n / 8) && h.state != .idle)) (fun s e => idleThread s e.1 e.2) s
    let s := forEach cores (fun s n => modCore s n emptyCore) s
    let s := deallocate s p
    let left := match grantOf s p with
      | some g => quotaMib g
      | none => 0
    let s := modPtn s p (fun q => { q with
      launchQ := [], syl := none, reload := none, holdCause := 0, tt := {}, scrubLeft := left })
    brnPush (setPtnState s p .scrubbing) (.partition p)
  else s

/-- A change of a partition's measurement drops its decapsulation keys (R514). -/
def dropPtnEks (s : State) (p : Nat) : State := { s with sec.eks := s.sec.eks.filter (fun e => e.ptn != some p) }

/-- PTN_CMD TEARDOWN (R412): the partition enters TEARDOWN, its measurement is cleared, its Timetable stops and every
context that is not FREE is detached. -/
def teardown (s : State) (who : Req) (p : Nat) : State :=
  let s := journalFor s who { action := 0x08, ptn := p }
  let s := setPtnState s p .teardown
  let s := modPtn s p (fun q => { q with
    reload := none, syl := q.syl.map (fun y => { y with meas := [] }) })
  let s := stopTt (dropPtnEks s p) p
  let s := forEach (ctxRange s p) (fun s c => detach s p c) s
  teardownProceed s p

/-! ### PTN_CMD and PTN_CTX_CMD (R401, R402, R422) -/

/-- Status codes of PTN_RESULT (R402). -/
def stOk : Nat := 0
def stBadState : Nat := 1
def stForeign : Nat := 2
def stBadSeat : Nat := 3
def stNotRestored : Nat := 4
def stRole : Nat := 5
def stRejected : Nat := 6
def stQueued : Nat := 7
def stCauseActive : Nat := 8

/-- Answers a command in PTN_RESULT (R402, R422). -/
def ptnResult (s : State) (p ctx status : Nat) : State :=
  modPtn s p (fun q => { q with done := true, busy := false, resCtx := ctx, resStatus := status })

/-- The partition is ACTIVE or HELD. -/
def ptnUp (s : State) (p : Nat) : Bool := (getPtn s p).state == .active || (getPtn s p).state == .held

/-- The effect of HOLD and RELEASE and TEARDOWN, with the status (R399, R412). -/
def ptnCmdOp (s : State) (who : Req) (p op : Nat) : State × Nat :=
  match op with
  | 1 =>
    if !ptnUp s p then (s, stBadState)
    else if !journalRoom s then (s, stRejected)
    else (teardown s who p, stOk)
  | 2 => if ptnUp s p then (setHold s p causeOperator, stOk) else (s, stBadState)
  | 3 =>
    let c := (getPtn s p).holdCause
    if !ptnUp s p then (s, stBadState)
    else if bitOf c causeDegraded || bitOf c causeXdie1 then (s, stCauseActive)
    else if bitOf c causeBellLost && s.bell.state != .running then (s, stBadState)
    else (clearHold s p 0x19, stOk)
  | _ => (s, stRejected)

/-- A write of PTN_CMD (R402, R422, R626): reserved bits and codes are REJECTED; a thread's write is answered ROLE. -/
def ptnCmd (s : State) (who : Req) (p word : Nat) : State :=
  let c := (getPtn s p).resCtx
  if word / 16 ≠ 0 then ptnResult s p c stRejected
  else match who with
  | .thread _ _ => ptnResult s p c stRole
  | _ =>
    let (s, st) := ptnCmdOp s who p word
    ptnResult s p c st

/-- A SEAT of a TUTORIAL slot of the loaded Timetable (R402 BAD_SEAT). -/
def seatOk (s : State) (p seat : Nat) : Bool :=
  match (getPtn s p).syl with
  | some y => y.tt.slots.any (fun k => k.kind == .tutorial && k.seat == seat)
  | none => false

/-- A pending context change is recorded: the requested seat and the stamp of the command (R401, R405). -/
def pendCtx (s : State) (c seat : Nat) (st : CtxState) : State :=
  setCtxState (modCtx s c (fun x => { x with reqSeat := seat, cmdStamp := now s })) c st

/-- ATTACH (R401, R411). -/
def attachOp (s : State) (p c seat : Nat) : State × Nat :=
  if !ptnUp s p || restoring s c then (s, stBadState)
  else if !seatOk s p seat then (s, stBadSeat)
  else match (getCtx s c).state with
  | .keyed => (pendCtx s c seat .attaching, stOk)
  | .detaching | .scrubbing =>
    (modCtx s c (fun x => { x with enableQ := x.enableQ ++ [.attach seat] }), stQueued)
  | _ => (s, stBadState)

/-- PREEMPT (R401, R407). -/
def preemptOp (s : State) (p c : Nat) : State × Nat :=
  if ptnUp s p && (getCtx s c).state == .running then
    (setCtxState (modCtx s c (fun x => { x with regPend := true, rebind := false })) c .preempting, stOk)
  else (s, stBadState)

/-- RESUME (R401, R402). -/
def resumeOp (s : State) (p c seat : Nat) : State × Nat :=
  if !ptnUp s p || restoring s c then (s, stBadState)
  else if !seatOk s p seat then (s, stBadSeat)
  else match (getCtx s c).state with
  | .swapped => (pendCtx s c seat .resuming, stOk)
  | .restart => if (getCtx s c).restored then (pendCtx s c seat .resuming, stOk) else (s, stNotRestored)
  | _ => (s, stBadState)

/-- DETACH (R401, R402, R410). -/
def detachOp (s : State) (p c : Nat) : State × Nat :=
  if (getPtn s p).state = .teardown then (s, stOk)
  else if !ptnUp s p then (s, stBadState)
  else match (getCtx s c).state with
  | .free | .scrubbing => (s, stBadState)
  | _ => (detach s p c, stOk)

/-- CANCEL (R401): the prior state, the bound disarmed. A context that was RESTART before RESUME returns to
SWAPPED as the table of R401 states. -/
def cancelOp (s : State) (c : Nat) : State × Nat :=
  let off (s : State) := modCtx s c (fun x => { x with bound := 0, regPend := false })
  match (getCtx s c).state with
  | .attaching => (setCtxState s c .keyed, stOk)
  | .preempting => (setCtxState (off s) c .running, stOk)
  | .resuming => (setCtxState s c .swapped, stOk)
  | _ => (s, stBadState)

/-- REBIND (R401). -/
def rebindOp (s : State) (p c seat : Nat) : State × Nat :=
  if !ptnUp s p then (s, stBadState)
  else if !seatOk s p seat then (s, stBadSeat)
  else if (getCtx s c).state = .running then
    (modCtx s c (fun x => { x with reqSeat := seat, rebind := true }), stOk)
  else (s, stBadState)

/-- The effect of a context command with its status (R401, R402). -/
def ptnCtxOp (s : State) (p c seat op : Nat) : State × Nat :=
  if op = 0 ∨ 7 ≤ op then (s, stRejected)
  else if ptnOfCtx s c ≠ some p then (s, stForeign)
  else match op with
  | 1 => attachOp s p c seat
  | 2 => preemptOp s p c
  | 3 => resumeOp s p c seat
  | 4 => detachOp s p c
  | 5 => cancelOp s c
  | _ => rebindOp s p c seat

/-- The word of PTN_CTX_CMD (R422). -/
def ctxCmdWord (c seat op : Nat) : Nat := (c % 4096) <<< 16 + (seat % 64) <<< 4 + op % 16

/-- A write of PTN_CTX_CMD (R402, R422, R626). -/
def ptnCtxCmd (s : State) (p word : Nat) : State :=
  let c := bits word 16 12
  if bits word 28 4 ≠ 0 ∨ bits word 10 6 ≠ 0 then ptnResult s p c stRejected
  else
    let (s, st) := ptnCtxOp s p c (bits word 4 6) (bits word 0 4)
    ptnResult s p c st

/-- The requester may write the partition's commands (R422, R503): the operator, or an M-mode thread of it; a block whose parts
are held in reset ignores writes (R600). -/
def mayPtn (s : State) (who : Req) (p : Nat) : Bool := partsUp s && (isOperator s who || isRuntimeOf s p who)

/-- A command row of PTN_CMD by a requester; an access outside the rights changes nothing (R503). -/
def ptnRow (s : State) (who : Req) (p op : Nat) : State := if mayPtn s who p then ptnCmd s who p op else s

/-- A command row of PTN_CTX_CMD by a requester. -/
def ctxRow (s : State) (who : Req) (p c seat op : Nat) : State :=
  if mayPtn s who p then ptnCtxCmd s p (ctxCmdWord c seat op) else s

/-- The outcome of a command that goes on. -/
abbrev Out := Host.Outcome State Fault Refusal

/-- PTN_TEARDOWN (R412). -/
def execPtnTeardown (who : Req) (p : Nat) (s : State) : Out := .next (ptnRow s who p 1)
/-- PTN_HOLD (R399). -/
def execPtnHold (who : Req) (p : Nat) (s : State) : Out := .next (ptnRow s who p 2)
/-- PTN_RELEASE (R399). -/
def execPtnRelease (who : Req) (p : Nat) (s : State) : Out := .next (ptnRow s who p 3)
/-- ATTACH (R401). -/
def execAttach (who : Req) (p c seat : Nat) (s : State) : Out := .next (ctxRow s who p c seat 1)
/-- PREEMPT (R401, R407). -/
def execPreempt (who : Req) (p c : Nat) (s : State) : Out := .next (ctxRow s who p c 0 2)
/-- RESUME (R401). -/
def execResume (who : Req) (p c seat : Nat) (s : State) : Out := .next (ctxRow s who p c seat 3)
/-- DETACH (R401, R410). -/
def execDetach (who : Req) (p c : Nat) (s : State) : Out := .next (ctxRow s who p c 0 4)
/-- CANCEL of a context change (R401). -/
def execCtxCancel (who : Req) (p c : Nat) (s : State) : Out := .next (ctxRow s who p c 0 5)
/-- REBIND (R401). -/
def execRebind (who : Req) (p c seat : Nat) (s : State) : Out := .next (ctxRow s who p c seat 6)

/-- PREEMPT_BOUND_EXPIRY (R407): the bound of a context arrives; an event whose Bell has not come, or of a context
with no bound armed, changes nothing. -/
def execPreemptBoundExpiry (c : Nat) (s : State) : Out :=
  .next (match ptnOfCtx s c with
    | some p => if (getCtx s c).bound != 0 && counting s && decide ((getCtx s c).bound ≤ s.bell.count) then
        boundExpiry s p c else s
    | none => s)

/-- The last data frame for any of a context's landing buffers, or the start of its quiet period (R410). -/
def quietFrom (s : State) (c : Nat) : Nat :=
  ((bufsOf s c).map (fun b => (getBuf s b).lastFrame)).foldl max ((getCtx s c).quietSince.getD 0)

/-- LANDING_QUIET (R410): 2 bl without a data frame for a detaching context's landing buffers; it enters
SCRUBBING. -/
def execLandingQuiet (c : Nat) (s : State) : Out :=
  .next (match ptnOfCtx s c with
    | some p =>
      let x := getCtx s c
      if x.state == .detaching && !x.stay && x.quietSince.isSome && decide (quietFrom s c + 4096 ≤ now s) then
        enterScrub s p c else s
    | none => s)

end Sys2Proof.Machine
end

