-- ==== Sys2Proof/Machine/Thread.lean ====
section
/-! DEFINITION. What every instruction of a thread shares (spec/10_threads_and_memory.md R317, R319, R321, R322): when it
may issue, how it retires, and taking a trap.
Readings and choices: log 76, 77. -/

namespace Sys2Proof.Machine

/-- The thread may issue: READY, its core not frozen (R322). -/
def mayIssue (s : State) (n t : Nat) : Bool := (getThr s n t).state == .ready && !(getCore s n).frozen

/-- An instruction of `len` bytes retires (R319). -/
def instrDone (s : State) (n t len : Nat) : State :=
  modThr s n t (fun h => { h with pc := h.pc + BitVec.ofNat 64 len, instret := wrap 64 (h.instret + 1) })

/-- Exception causes of `mcause`. -/
def exFetchMisaligned : Nat := 0
def exFetchFault : Nat := 1
def exIllegal : Nat := 2
def exLoadMisaligned : Nat := 4
def exLoadFault : Nat := 5
def exStoreMisaligned : Nat := 6
def exStoreFault : Nat := 7

/-- A thread takes a precise trap to M-mode at `mtvec`; one in M-mode whose `mtvec` is 0 enters HALTED (R321). LAST_TRAP
keeps bits [7:0] of `mcause` (R324). -/
def takeTrap (s : State) (n t cause : Nat) (tval : DWord) : State :=
  modThr s n t (fun h =>
    let c : DWord := BitVec.ofNat 64 cause
    let mpie : DWord := ((h.mstatus >>> 3) &&& 1) <<< 7
    let mpp : DWord := if h.mmode then 3 <<< 11 else 0
    let st : DWord := (h.mstatus &&& ~~~(0x1888 : DWord)) ||| mpie ||| mpp
    let h' : Thr := { h with mepc := h.pc, mcause := c, mtval := tval, mstatus := st, lastTrap := cause % 256 }
    if h.mmode && h.mtvec == 0 then { h' with state := .halted }
    else { h' with mmode := true, pc := h.mtvec &&& ~~~(3 : DWord) })

/-- An illegal-instruction exception (R317, R326); what `mtval` holds is open. -/
def illegal (s : State) (n t : Nat) : State :=
  let (v, s) := draw s 8
  takeTrap s n t exIllegal (BitVec.ofNat 64 (leNat v))

/-- An instruction of a thread that may issue; otherwise nothing happens. -/
def issue (s : State) (n t : Nat) (f : State → State) : State := if mayIssue s n t then f s else s

end Sys2Proof.Machine
end

