-- ==== Sys2Proof/Machine/RollCmd.lean ====
section
/-! DEFINITION. The commands of Roll call (spec/09_roll_call.md): operations from threads and from TOKEN frames, replies,
timeouts, credits, STATUS and EPOCH frames, forwarding; and the Xslv instructions that wait on it (R332, R333).
Readings and choices: log 10, 18, 24. -/

namespace Sys2Proof.Machine

/-! ### Frames that arrive (R285, R287) -/

/-- A frame dropped for its FCRC (R287). -/
def dropCrc (s : State) : State := { s with rc.errCrc := satInc 16 s.rc.errCrc }
/-- A frame dropped for reserved contents or an exhausted TTL (R287). -/
def dropRes (s : State) : State := { s with rc.errRes := satInc 16 s.rc.errRes }

/-- TYPE, SRC_LMN, DST_LMN and TTL of a frame (R285). -/
def frType (f : List Byte) : Nat := frameBits f 255 252
def frSrc (f : List Byte) : Nat := frameBits f 251 242
def frDst (f : List Byte) : Nat := frameBits f 241 232
def frTtl (f : List Byte) : Nat := frameBits f 231 228

/-- Takes a frame of a type at its destination: FCRC, then reserved contents, then its effect (R287). A frame of
another type, or a forwarded one for another module, is not this command's; one of a reserved TYPE is dropped and counted. -/
def takeFrame (s : State) (f : List Byte) (type : Nat) (resOk : Bool) (act : State → State) : State :=
  if 10 ≤ frType f then (if fcrcOk f then dropRes s else dropCrc s)
  else if frType f ≠ type then s
  else if 2 ≤ type ∧ type ≤ 5 ∧ !isOwnLmn s (frDst f) then s
  else if !fcrcOk f then dropCrc s
  else if frameBits f 227 224 ≠ 0 ∨ !resOk then dropRes s
  else act s

/-! ### Operations from threads (R297, R299, R332) -/

/-- The Form of a partition (R361). -/
def formOf (s : State) (p : Nat) : Nat :=
  match (getPtn s p).syl with
  | some y => y.form
  | none => 0

/-- A thread waits in WAIT_RC for a reply (R332). -/
def waitRc (s : State) (n t rtag rd : Nat) : State :=
  modThr s n t (fun h => { h with state := .waitRc, wait := .rc rtag rd })

/-- The token of a thread's operation (R332). -/
def threadTok (s : State) (n t : Nat) (op : RcOp) (sem operand timeout : Nat) : Token :=
  let p := (ptnOfCluster s (n / 8)).getD 0
  { op := op, ctx := (getThr s n t).ctx, ctxOn := ctxValid s n t, ptn := p, sem := sem, operand := operand,
    timeout := timeout, form := 0, src := .thread n t }

/-- A thread's operation on this module's banks: the thread waits in WAIT_RC until its answer (R292, R332). -/
def threadOp (s : State) (n t : Nat) (op : RcOp) (sem operand timeout rd : Nat) : State :=
  let tok := threadTok s n t op sem operand timeout
  let tok := { tok with epoch := bankEpoch s tok.bank }
  bankOp (waitRc s n t 0 rd) tok (waitDeadline s timeout)

/-- A thread's operation on another module's bank: a TOKEN frame leaves, the request is outstanding until its REPLY
or LOST (R296, R300, R313). -/
def remoteOp (s : State) (n t lmn : Nat) (op : RcOp) (sem operand timeout rd : Nat) : State :=
  let tag := freshTag s
  let p := (ptnOfCluster s (n / 8)).getD 0
  let tok := threadTok s n t op sem operand timeout
  let tok := { tok with rtag := tag, form := formOf s p, epoch := tget 0 s.rc.peerEpoch (2 * lmn + tok.bank) }
  let s := waitRc (openReq s tok lmn) n t tag rd
  syncRoute s 2 lmn (bodyBits op.code 223 220 + bodyBits tok.ctx 219 208 + bodyBits p 207 202 + bodyBits sem 201 186
    + bodyBits tok.epoch 185 178 + bodyBits tag 177 162 + bodyBits operand 161 130 + bodyBits timeout 129 98
    + bodyBits tok.form 97 86)

/-- The operation of an OP code (R297); reserved codes have none. -/
def rcOpOf : Nat → Option RcOp
  | 1 => some .read | 2 => some .write | 3 => some .add | 4 => some .waitGe | 5 => some .acquire
  | 6 => some .release | 7 => some .arrive | 8 => some .waitGen | 9 => some .barRelease
  | _ => none

/-- SLV.RC with its operands (R332): to this module's banks or as a TOKEN to another module. A reserved OP is an
illegal instruction (R326). A BAR_RELEASE from a thread is refused with MALFORMED wherever its barrier lies (R297). -/
def slvRc (s : State) (n t rd rs1 rs2 : Nat) : State :=
  match rcOpOf (bits rs1 28 4) with
  | none => illegal s n t
  | some op =>
    let s := instrDone s n t 4
    let lmn := bits rs1 16 10
    let sem := bits rs1 0 16
    if isOwnLmn s lmn then threadOp s n t op sem (bits rs2 0 32) (bits rs1 32 32) rd
    else if op = .barRelease then
      modThr s n t (fun h => setX h rd (rcResult 6 (openFlags s 6 sem) (openValue s 6 sem)))
    else remoteOp s n t lmn op sem (bits rs2 0 32) (bits rs1 32 32) rd

/-! ### Operations from TOKEN frames (R296) -/

/-- The token of a TOKEN frame (R296). -/
def frameTok (f : List Byte) (port : Nat) (op : RcOp) : Token :=
  { op := op, ctx := frameBits f 219 208, ptn := frameBits f 207 202, sem := frameBits f 201 186,
    epoch := frameBits f 185 178, rtag := frameBits f 177 162, operand := frameBits f 161 130,
    timeout := frameBits f 129 98, form := frameBits f 97 86, src := .remote (frSrc f) port }

/-- A TOKEN's reserved contents are zero (R296). -/
def tokenResOk (f : List Byte) (op : RcOp) : Bool :=
  frameBits f 85 32 == 0 && (!op.onBar || frameBits f 201 198 == 0)

/-- A TOKEN frame of an operation that arrives at a port (R287, R311); one of a reserved OP is dropped and counted (R297). -/
def tokenIn (s : State) (port : Nat) (f : List Byte) (op : RcOp) : State :=
  if frType f = 2 ∧ (rcOpOf (frameBits f 223 220)).isNone then takeFrame s f 2 false (fun s => s)
  else if frameBits f 223 220 ≠ op.code then s
  else takeFrame s f 2 (tokenResOk f op) (fun s =>
    let t := frameTok f port op
    bankOp s t (waitDeadline s t.timeout))

/-- An operation of a row, from a thread or a frame. -/
def rcRow (s : State) (op : RcOp) : TokSrc → State
  | .mesh n t sem operand timeout rd => issue s n t (fun s => threadOp (instrDone s n t 4) n t op sem operand timeout rd)
  | .frame port f => tokenIn s port f op

/-- SEM_READ (R297). -/
def execSemRead (src : TokSrc) (s : State) : Out := .next (rcRow s .read src)
/-- SEM_WRITE (R297). -/
def execSemWrite (src : TokSrc) (s : State) : Out := .next (rcRow s .write src)
/-- SEM_ADD (R297). -/
def execSemAdd (src : TokSrc) (s : State) : Out := .next (rcRow s .add src)
/-- WAIT_GE (R297). -/
def execWaitGe (src : TokSrc) (s : State) : Out := .next (rcRow s .waitGe src)
/-- ACQUIRE (R302). -/
def execAcquire (src : TokSrc) (s : State) : Out := .next (rcRow s .acquire src)
/-- RELEASE (R302). -/
def execRelease (src : TokSrc) (s : State) : Out := .next (rcRow s .release src)
/-- ARRIVE (R305). -/
def execArrive (src : TokSrc) (s : State) : Out := .next (rcRow s .arrive src)
/-- WAIT_GEN (R297). -/
def execWaitGen (src : TokSrc) (s : State) : Out := .next (rcRow s .waitGen src)
/-- BAR_RELEASE (R305). -/
def execBarRelease (src : TokSrc) (s : State) : Out := .next (rcRow s .barRelease src)

/-- WAIT_TIMEOUT (R251, R300): the deadline of the `k`-th wait of the table has passed. -/
def execWaitTimeout (k : Nat) (s : State) : Out :=
  .next (match s.rc.waits[k]? with
    | some w => if !w.parked && judgeNow s w.deadline == .timeout then unblock (endWait s w 2) w else s
    | none => s)

/-! ### Replies (R298, R300, R313) -/

/-- An outstanding request ends: the thread's result, or a reply held while its waits are parked (R313, R409). -/
def completeReq (s : State) (o : OutReq) (r : Reply) : State :=
  if o.parked then
    modCtx { s with rc.out := modifyFirst (· == o) (fun o => { o with held := some r }) s.rc.out } o.tok.ctx
      (fun c => { c with parkGrants := satInc 16 c.parkGrants })
  else
    let s := { s with rc.out := eraseFirst (· == o) s.rc.out, rc.doneTags := insertNat o.tok.rtag s.rc.doneTags }
    match o.tok.src with
    | .thread n t => wake s n t (rcRd (getThr s n t)) (rcResult r.status r.flags r.value)
    | _ => s

/-- What a request ends with that no reply answers (R300, R312). -/
def openEnd (s : State) (o : OutReq) (status : Nat) : Reply :=
  { op := o.tok.op, status := status, flags := openFlags s status o.tok.sem, value := openValue s status o.tok.sem }

/-- `e` is older than the epoch `held` (R313): it lies behind it modulo 256. -/
def epochOlder (e held : Nat) : Bool :=
  let d := (held + 256 - e) % 256
  decide (0 < d) && decide (d < 128)

/-- A reply that is dropped as stale (R313). -/
def staleReply (s : State) : State := { s with rc.stale := satInc 32 s.rc.stale, rc.staleSeen := true }

/-- A REPLY's effect at the requester (R313). -/
def replyIn (s : State) (f : List Byte) : State :=
  let r : Reply := { status := frameBits f 219 216, epoch := frameBits f 215 208, rtag := frameBits f 207 192,
                     value := frameBits f 191 160, flags := frameBits f 159 156, ctx := frameBits f 155 144 }
  match s.rc.out.find? (fun o => o.tok.rtag == r.rtag && o.lmn == frSrc f && o.held.isNone) with
  | none => staleReply s
  | some o =>
    let k := 2 * o.lmn + o.tok.bank
    let held := tget 0 s.rc.peerEpoch k
    if epochOlder r.epoch held then staleReply s
    else completeReq { s with rc.peerEpoch := tset 0 s.rc.peerEpoch k r.epoch } o { r with op := o.tok.op }

/-- TOKEN_LOST (R300): the outstanding request with the tag has had no REPLY within TIMEOUT plus REPLY_LIMIT. -/
def execTokenLost (rtag : Nat) (s : State) : Out :=
  .next (match s.rc.out.find? (fun o => o.tok.rtag == rtag && o.held.isNone) with
    | some o =>
      if judgeNow s o.deadline == .timeout then
        let s := raise { s with rc.lost := satInc 32 s.rc.lost, rc.lostSeen := true } .tokenLost
          { kind := .bank, unit := o.tok.bank, ptn := o.tok.ptn, ctx := o.tok.ctx }
        completeReq s o (openEnd s o 11)
      else s
    | none => s)

/-! ### Credits (R306, R307) -/

/-- A CREDIT's effect on its pool (R307). -/
def creditIn (s : State) (pool count ctx : Nat) : State :=
  let p := getPool s pool
  let at_ : FaultAt := { kind := .bank, ptn := if p.bound then p.ptn else 0xFF, ctx := ctx }
  if !p.bound || p.ctx != ctx then
    raise { s with rc.overflowSeen := true } .creditForeign at_
  else if p.alloc < p.credits + count then
    raise (modPool { s with rc.overflowSeen := true } pool (fun p => { p with credits := p.alloc })) .creditOverflow at_
  else modPool s pool (fun p => { p with credits := p.credits + count })

/-- CREDIT_RECEIVE (R307): a CREDIT frame arrives; COUNT 0 is a reserved encoding. -/
def execCreditReceive (port : Nat) (f : List Byte) (s : State) : Out :=
  .next (let _ := port
    takeFrame s f 4 (frameBits f 182 32 == 0 && frameBits f 210 195 != 0) (fun s =>
      creditIn s (frameBits f 223 211) (frameBits f 210 195) (frameBits f 194 183)))

/-! ### STATUS and EPOCH frames (R288, R291, R312) -/

/-- READY of a STATUS frame: the module is READY, and a domain module has locked and measured its delays (R259,
R288). -/
def statusReady (s : State) : Bool :=
  s.mod.ready && (!s.bell.cfg.domainEn ||
    (match s.bell.state with | .unlocked | .locking => false | _ => true))

/-- The module's STATUS contents (R288). -/
def statusMsg (s : State) : StatusMsg :=
  { lmn := ownLmn s, ready := statusReady s, bellState := s.bell.state.code, role := s.bell.cfg.role,
    cover := s.fab.coverLmn }

/-- The MODULE STATUS frame (R288). -/
def statusFrame (m : StatusMsg) : List Byte :=
  syncFrame 6 m.lmn 0x3FF 0 (bodyBits 0 223 220 + bodyBits (b2n m.ready) 219 219 + bodyBits m.bellState 218 216
    + bodyBits m.role 215 214 + bodyBits m.cover 212 203)

/-- B0 of a partition while ARMED, RUNNING or HELD (R288 AT_BELL). -/
def atBell (t : Tt) : Nat :=
  match t.state with
  | .armed | .running | .held => t.b0
  | _ => 0

/-- The PARTITION STATUS frame (R288). -/
def ptnStatusFrame (s : State) (p : Nat) : List Byte :=
  let q := getPtn s p
  let scrub := q.state == .scrubbing
  syncFrame 6 (ownLmn s) 0x3FF 0 (bodyBits 1 223 220 + bodyBits p 219 214 + bodyBits (formOf s p) 213 202
    + bodyBits (if scrub then 0 else q.tt.state.code) 201 199 + bodyBits (b2n scrub) 198 198
    + bodyBits (q.tt.lesson % 2 ^ 32) 197 166 + bodyBits (atBell q.tt) 165 102)

/-- The ports in a state that sends STATUS MODULE frames (R288, R434). -/
def statusPorts (s : State) : List Nat :=
  (countFrom 0 8).filter (fun p => match (tget default s.fab.port p).pstate with
    | .training | .up | .degraded | .down => true
    | _ => false)

/-- STATUS_FRAME_SEND (R288): the MODULE subtype on every port in TRAINING, UP, DEGRADED or DOWN, or the PARTITION
subtype of a partition of a Form on every port in UP or DEGRADED. -/
def execStatusFrameSend (ptn : Option Nat) (s : State) : Out :=
  .next (match ptn with
    | none =>
      let m := statusMsg s
      forEach (statusPorts s) (fun s p => syncSend s p 6 (statusFrame m)) { s with rc.statusSent := some m }
    | some p =>
      if formOf s p = 0 then s else
      forEach ((countFrom 0 8).filter (portUsable s)) (fun s' k => syncSend s' k 6 (ptnStatusFrame s p)) s)

/-- STATUS_FRAME_RECEIVE (R288): a neighbour's MODULE frame is kept, with its readiness for the domain start; an
AT_BELL that differs from the B0 of an own partition of the Form raises FORM_START. -/
def execStatusFrameReceive (port : Nat) (f : List Byte) (s : State) : Out :=
  .next (
    let sub := frameBits f 223 220
    if sub = 0 then
      takeFrame s f 6 (frameBits f 213 213 == 0 && frameBits f 201 32 == 0) (fun s =>
        let m : StatusMsg := { lmn := frSrc f, ready := frameBits f 219 219 == 1, bellState := frameBits f 218 216,
                               role := frameBits f 215 214, cover := frameBits f 212 203 }
        { s with rc.neighbours := tset none s.rc.neighbours port (some m),
                 bell.covered := if m.ready then insertNat (if m.role = 3 then m.cover else m.lmn) s.bell.covered
                                 else s.bell.covered })
    else takeFrame s f 6 (sub == 1 && frameBits f 101 32 == 0 && frameBits f 213 202 != 0) (fun s =>
      let form := frameBits f 213 202
      let b := frameBits f 165 102
      let mine := (countFrom 0 64).filter (fun p => formOf s p == form
        && ((getPtn s p).tt.state == .armed || (getPtn s p).tt.state == .running) && (getPtn s p).tt.b0 != b)
      if b = 0 then s else
      forEach mine (fun s p => raise s .formStart { kind := .module, ptn := p }) s))

/-- Every request outstanding to a bank ends with ABORT_RESET at its requester (R312). -/
def abortOut (s : State) (f : OutReq → Bool) : State :=
  forEach (s.rc.out.filter (fun o => f o && o.held.isNone)) (fun s o => completeReq s o (openEnd s o 3)) s

/-- EPOCH_RECEIVE (R291, R312): a bank of the sender's module has a new epoch; requests outstanding to it end with
ABORT_RESET. -/
def execEpochReceive (port : Nat) (f : List Byte) (s : State) : Out :=
  .next (let _ := port
    takeFrame s f 9 (frameBits f 201 32 == 0 && frameBits f 223 220 == 0 && decide (frameBits f 219 210 < 2)) (fun s =>
      let lmn := frSrc f
      let b := frameBits f 219 210
      abortOut { s with rc.peerEpoch := tset 0 s.rc.peerEpoch (2 * lmn + b) (frameBits f 209 202) }
        (fun o => o.lmn == lmn && o.tok.bank == b)))

/-- SYNC_FRAME_FORWARD (R287, R441): a forwarded frame for another module leaves on the port of its destination, TTL
one less; at TTL 0 it is dropped. Its FCRC is not waited for: the frame keeps the bytes that arrived but for TTL. A frame of a reserved
TYPE, and at its destination a TOKEN of a reserved OP, goes no further: it is dropped and counted (R287, R297). -/
def execSyncFrameForward (port : Nat) (f : List Byte) (s : State) : Out :=
  .next (
    if 10 ≤ frType f then takeFrame s f 2 false (fun s => s)
    else if frType f = 2 ∧ isOwnLmn s (frDst f) ∧ (rcOpOf (frameBits f 223 220)).isNone then takeFrame s f 2 false (fun s => s)
    else if 2 ≤ frType f ∧ frType f ≤ 5 ∧ !isOwnLmn s (frDst f) then
      if frTtl f = 0 then dropRes s
      else match routePort s (frDst f) with
        | some p =>
          let g := patch f 28 (leBytes 4 (field f 28 4 - 2 ^ 4))
          syncSend s p (frType f) (if fcrcOk f then patch g 0 (leBytes 4 (crc32c (g.drop 4))) else g)
        | none =>
          raise { s with fab.port := tmod default s.fab.port port (fun q => { q with drop := satInc 32 q.drop }) }
            .routeNone { kind := .port, unit := port }
    else s)

/-! ### SLV.RC and SLV.BWAIT (R332, R333) -/

/-- SLV_RC (R332). -/
def execSlvRc (core thr rd rs1 rs2 : Nat) (s : State) : Out :=
  .next (issue s core thr (fun s => slvRc s core thr rd rs1 rs2))

/-- SLV_BWAIT_UNTIL (R333): the thread sleeps until cycle 0 of Bell rs1; when that Bell has begun it continues with
the current stamp. -/
def execSlvBwaitUntil (core thr rd bell : Nat) (s : State) : Out :=
  .next (issue s core thr (fun s =>
    let s := instrDone s core thr 4
    if counting s && decide (bell ≤ s.bell.count) then modThr s core thr (fun h => setX h rd (BitVec.ofNat 64 (now s)))
    else modThr s core thr (fun h => { h with state := .waitBell, wait := .bell bell rd })))

/-- BWAIT_WAKE (R333): the awaited Bell has begun. A suspended thread resumes with its context (R409). -/
def execBwaitWake (core thr : Nat) (s : State) : Out :=
  .next (if (getThr s core thr).state = .waitBell then bellWake s core thr else s)

/-- SLV_BWAIT_SEMWAIT (R333): waits in WAIT_BELL (R322), as WAIT_GE does on a local semaphore, with the stamp of Bell rs1 as its
deadline. -/
def execSlvBwaitSemwait (core thr rd bell rs2 : Nat) (s : State) : Out :=
  .next (issue s core thr (fun s =>
    let s := instrDone s core thr 4
    let tok := threadTok s core thr .waitGe (bits rs2 0 16) (bits rs2 16 32) 1
    let tok := { tok with epoch := bankEpoch s tok.bank, bellWait := true }
    let s := modThr s core thr (fun h => { h with state := .waitBell, wait := .rc 0 rd })
    bankOp s tok (some (stampOf bell 0))))

end Sys2Proof.Machine
end

