-- ==== Sys2Proof/Machine/Timetable.lean ====
section
/-! DEFINITION. Timetables (spec/08_bell_and_timetable.md R262-R282): commands, slots, completion and overrun.
Readings and choices: log 59, 60, 61. -/

namespace Sys2Proof.Machine

/-- A context or partition of a Form that spans modules (R258, R261): the partition's FORM is not 0. -/
def inForm (s : State) (p : Nat) : Bool := formOf s p != 0

/-- CMD_STATUS codes (R281). -/
def ttStatus (s : State) (p c : Nat) : State := modTt s p (fun t => { t with cmdStatus := c })

/-- The Bell is RUNNING or local (R257, R282). -/
def bellRuns (s : State) : Bool := s.bell.state == .running

/-- START (R282): refusals in the order BAD_STATE, NO_TIMETABLE, BELL_NOT_RUNNING; a Bell too soon is TOO_LATE. -/
def ttStart (s : State) (p : Nat) : State :=
  let t := (getPtn s p).tt
  if t.state ≠ .idle then ttStatus s p 3
  else match ttOf s p with
  | none => ttStatus s p 4
  | some y =>
    if !ptnUp s p then ttStatus s p 4
    else if !bellRuns s then ttStatus s p 5
    else if t.at_ < s.bell.count + 2 then ttStatus s p 2
    else
      let _ := y
      modTt s p (fun t => { t with state := .armed, b0 := t.at_, cmdStatus := 0 })

/-- STOP (R282). -/
def ttStop (s : State) (p : Nat) : State :=
  let t := (getPtn s p).tt
  if t.state = .running ∨ t.state = .held then ttStatus (stopTt s p) p 0
  else if (ttOf s p).isNone ∧ t.state = .idle then ttStatus s p 3
  else ttStatus s p 3

/-- The Bell of the next Lesson boundary. -/
def nextBoundary (t : Tt) (y : Timetable) : Nat := if t.inLesson then t.bound + y.lessonBells else t.bound

/-- The original START Bell of the next unreleased slot of the Timetable (R277): of this Lesson, or of the next one
when every slot has been released. -/
def nextStart (t : Tt) (y : Timetable) : Nat :=
  if t.next < y.slots.length then t.bound + (slotAt y t.next).start
  else nextBoundary t y + (slotAt y 0).start

/-- RESUME (R277, R282): accepted while HELD, the overrun slot completed, at a Bell at least 2 ahead. -/
def ttResume (s : State) (p : Nat) : State :=
  let t := (getPtn s p).tt
  match ttOf s p with
  | none => if t.state ≠ .held then ttStatus s p 3 else ttStatus s p 4
  | some y =>
    if t.state ≠ .held then ttStatus s p 3
    else if !ptnUp s p then ttStatus s p 3
    else if t.at_ < s.bell.count + 2 then ttStatus s p 2
    else
      let d : Int := (t.at_ : Int) - (nextStart t y : Int)
      let mv (x : Nat) : Nat := ((x : Int) + d).toNat
      modTt s p (fun t => { t with
        resumeAt := some t.at_, cmdStatus := 0, noRelease := false, overrunSlot := none, state := .running,
        b0 := mv t.b0, bound := mv t.bound, resumedOn := some s.bell.count })

/-- A write of TT_PT_CMD (R281, R282, R626). -/
def ttCmd (s : State) (p word : Nat) : State :=
  match word with
  | 1 => ttStart s p
  | 2 => ttStop s p
  | 3 => ttResume s p
  | _ => ttStatus s p 1

/-- A Timetable command by a requester within its rights (R346, R422, R503). -/
def ttRow (s : State) (who : Req) (p op : Nat) (bell : Nat) : State :=
  if mayPtn s who p then ttCmd (modTt s p (fun t => { t with at_ := wrap 64 bell })) p op else s

/-- TT_START (R282): TT_PT_AT takes the Bell, then START. -/
def execTtStart (who : Req) (p bell : Nat) (s : State) : Out := .next (ttRow s who p 1 bell)
/-- TT_STOP (R282). -/
def execTtStop (who : Req) (p : Nat) (s : State) : Out :=
  .next (if mayPtn s who p then ttCmd s p 2 else s)
/-- TT_RESUME (R277). -/
def execTtResume (who : Req) (p bell : Nat) (s : State) : Out := .next (ttRow s who p 3 bell)

/-! ### Slots (R267, R276-R278) -/

/-- The engine zeroes DONE_SEM in cycle 0 of a slot's START Bell and increments GO_SEM in cycle 1 (R267). -/
def slotSems (s : State) (p : Nat) (k : Slot) : State :=
  let s := if k.doneSem = 0xFFFF then s else
    modSem s k.doneSem (fun x => { x with value := 0 })
  threadAdd s p k.goSem

/-- A slot opens: it is the most recently started (R267, R281). -/
def openSlot (s : State) (p i : Nat) (y : Timetable) : State :=
  let k := slotAt y i
  let t := (getPtn s p).tt
  let o : OpenSlot := { idx := i, startB := t.bound + k.start, endB := t.bound + k.deadline, lesson := t.lesson }
  slotSems (modTt s p (fun t => { t with curSlot := i, next := i + 1, open_ := t.open_ ++ [o] })) p k

/-- A slot times out (R276): SLOT_OVERRUN, the counters, and the policy once a Lesson (R277, R278). -/
def overrun (s : State) (p : Nat) (o : OpenSlot) : State :=
  let i := o.idx
  let s := raise s .slotOverrun { kind := .module, ptn := p, detail := [BitVec.ofNat 8 i] }
  let s := modTt s p (fun t => { t with overruns := satInc 16 t.overruns, lastSlot := i })
  let t := (getPtn s p).tt
  if t.acted == some o.lesson || t.state != .running || t.noRelease then s
  else
    let ab := match ttOf s p with
      | some y => y.abortPolicy
      | none => false
    heldIfDone (modTt s p (fun t => { t with
      acted := some o.lesson, noRelease := true, aborted := ab, overrunSlot := if ab then none else some i })) p

/-- A Lesson is aborted under R278, by the policy or by a rule that says so (R34, R536): no further slot of it is
released. -/
def abortLesson (s : State) (p : Nat) : State :=
  modTt s p (fun t => if t.inLesson then
    { t with noRelease := true, aborted := true, acted := some t.lesson, next := 255, overrunSlot := none } else t)

/-- The recess points at a slot's DEADLINE (R270): a TUTORIAL slot with RECESS that has completed. -/
def slotRecess (y : Timetable) (o : OpenSlot) : Bool :=
  let k := slotAt y o.idx
  k.kind == .tutorial && k.recess && o.done

/-- A new run numbers its Lessons afresh (R281): no CLOSE of an earlier run counts for a Lesson of it (R278). -/
def forgetCloses (s : State) (p : Nat) : State :=
  forEach (ctxRange s p) (fun s c => modCtx s c (fun x => { x with psbs := x.psbs.map (fun z => { z with closed := none }) })) s

/-- TIMETABLE_BEGIN (R282): an ARMED Timetable reaches its START Bell and becomes RUNNING with B0 = BELL; its first
Lesson is begun by LESSON_BOUNDARY at the same Bell. -/
def execTimetableBegin (p : Nat) (s : State) : Out :=
  .next (
    let t := (getPtn s p).tt
    if t.state = .armed ∧ counting s ∧ t.b0 ≤ s.bell.count then
      modTt (forgetCloses s p) p (fun t => { t with
                                   state := .running, bound := t.b0, lesson := 0, next := 0, inLesson := false,
                                   curSlot := 0xFF, open_ := [], noRelease := false, aborted := false,
                                   acted := none, settled := false, overrunSlot := none, resumedOn := none })
    else s)

end Sys2Proof.Machine
end

