-- ==== Sys2Proof/Machine/Array.lean ====
section
/-! DEFINITION. What the D-array and the W-array share (spec/04, 05, 06, 17): staging of tiles, row tags, checker sums,
accumulation, checker decisions, and the end of a command.
Readings and choices: log 32, 35. -/

namespace Sys2Proof.Machine

/-! ### Ends of a command -/

/-- How an attempt to run a command ends: performed, ended with a fault (rejected or aborted, R113, R109), found with
an old epoch (R311), or waiting with its checks passed. -/
inductive CmdEnd where
  | done
  | fault (c : FaultCode)
  | stale
  | wait (w : CmdWait)
deriving DecidableEq, Repr

/-- An attempt's state and end. -/
abbrev Run := State × CmdEnd

/-- The fault record of an issuer's command (R544). -/
def coreAt (s : State) (i : Issuer) (detail : List Byte) : FaultAt :=
  { kind := .core, unit := i.core, epoch := (getCore s i.core).epoch, ptn := i.ptn,
    ctx := if i.ctxOn then i.ctx else 0xFFFF, detail := detail }

/-- Ends an attempt with a fault that is raised (R109, R113). -/
def failWith (s : State) (i : Issuer) (c : FaultCode) (detail : List Byte) : Run :=
  (raise s c (coreAt s i detail), .fault c)

/-- The local address that a fault record names. -/
def localOf (s : State) (ga : Nat) : Nat := (localAddr s ga).getD (ga % 2 ^ 54)

/-- DETAIL of the tile faults (R545). -/
def tileDetail (s : State) (ga tensor kind : Nat) (again : Bool) : List Byte :=
  leBytes 8 (localOf s ga) ++ leBytes 4 tensor ++ leBytes 1 kind ++ leBytes 1 (b2n again)

/-- A sequence of attempts: `f` goes on where the state so far has not ended. -/
def andThen {α : Type} (r : State × Except CmdEnd α) (f : State → α → Run) : Run :=
  match r.2 with
  | .ok x => f r.1 x
  | .error e => (r.1, e)

/-- As `failWith`, inside a sequence. -/
def stopWith {α : Type} (s : State) (i : Issuer) (c : FaultCode) (detail : List Byte) : State × Except CmdEnd α :=
  (raise s c (coreAt s i detail), .error (.fault c))

/-- Runs `f` over a list, collecting results, until one ends the command. -/
def collect {α β : Type} (f : State → α → State × Except CmdEnd β) : State → List α → State × Except CmdEnd (List β)
  | s, [] => (s, .ok [])
  | s, x :: xs =>
    match f s x with
    | (s, .error e) => (s, .error e)
    | (s, .ok y) =>
      match collect f s xs with
      | (s, .error e) => (s, .error e)
      | (s, .ok ys) => (s, .ok (y :: ys))

/-! ### Staging (R108-R110, R629) -/

/-- What the first 64 bytes at a tile's address say: the address fails its check, FMT or KIND is reserved, or the
tile's bytes. -/
inductive Fetched where
  | outside
  | reserved
  | tile (bs : List Byte)
deriving DecidableEq, Repr

/-- The bytes of an item as an engine reads them, where its whole extent passes the window check (R629). -/
def fetch (s : State) (i : Issuer) (ga n : Nat) : State × Option (List Byte) :=
  match checkItem s i .read ga n with
  | none => (s, none)
  | some p => let r := readAs s i p n; (r.st, some r.bytes)

/-- Reads a tile: its header first, then its whole length (R110, R629). -/
def fetchTile (s : State) (i : Issuer) (ga : Nat) : State × Fetched :=
  match fetch s i ga 64 with
  | (s, none) => (s, .outside)
  | (s, some h) =>
    match tileLen (rawFmt h) (rawKind h) with
    | none => (s, .reserved)
    | some n =>
      match fetch s i ga n with
      | (s, none) => (s, .outside)
      | (s, some bs) => (s, .tile bs)

/-- FMT, KIND and the header of a fetched tile. -/
def Fetched.hdr : Fetched → Option Hdr
  | .tile bs => some (parseHdr bs)
  | _ => none

/-- Stages a tile's bytes: TILE_CRC with its single re-read, then the header (R109, R110). An upset of the first read
that the second does not meet counts in CRC_RETRY. -/
def stage (s : State) (i : Issuer) (up : ArrayUpset) (ga : Nat) (bs : List Byte) : State × Except CmdEnd Tile :=
  let h := parseHdr bs
  match judgeTile bs with
  | .crcFail => stopWith s i .tileCrc (tileDetail s ga h.tensorId h.kind true)
  | .hdrFail => stopWith s i .tileHeader (tileDetail s ga h.tensorId h.kind false)
  | .ok t =>
    (if up.badRead.contains ga then modCore s i.core (fun c => { c with crcRetry := satInc 16 c.crcRetry }) else s, .ok t)

/-- Stages a fetched tile whose descriptor checks have passed; an item outside the windows is never read and ends as
TILE_CRC with no re-read (R629). -/
def stageFetched (s : State) (i : Issuer) (up : ArrayUpset) (ga : Nat) : Fetched → State × Except CmdEnd Tile
  | .tile bs => stage s i up ga bs
  | .outside => stopWith s i .tileCrc (tileDetail s ga 0 0 false)
  | .reserved => stopWith s i .tileHeader (tileDetail s ga 0 0 false)

/-- Fetches and stages a tile that a record names (R629). -/
def fetchStage (s : State) (i : Issuer) (up : ArrayUpset) (ga : Nat) : State × Except CmdEnd Tile :=
  match fetchTile s i ga with
  | (s, f) => stageFetched s i up ga f

/-! ### Row tags (R122-R126) -/

/-- Every valid row tag names a context attached to the partition (R122). -/
def tagsAttached (s : State) (p : Nat) (tags : List Nat) : Bool :=
  tags.all (fun g => !tagValid g || attachedTo s p (tagCtx g))

/-- Two tags name one and the same VALID owner. -/
def sameTag (a b : Nat) : Bool := tagValid a && a == b

/-! ### Matrices of codes -/

/-- The transposed matrix of `n` columns. -/
def transpose {α : Type} (d : α) (n : Nat) (xs : List (List α)) : List (List α) :=
  (countFrom 0 n).map (fun c => xs.map (fun r => getAt d r c))

/-- The valid rows of a tile, each of its valid columns. -/
def validCodes (t : Tile) : List (List Nat) :=
  (countFrom 0 t.hdr.rows).map (fun r => (rowCodes t.hdr.fmt t.payload r).take t.hdr.cols)

/-- The stationary operand, one list over the reduced index for each output column (R112). -/
def gridCodes (trans : Bool) (t : Tile) : List (List Nat) :=
  let m := validCodes t
  if trans then m else transpose 0 t.hdr.cols m

/-- The integer operand of a code (R53, R59, R60). -/
def intCode (fmt : Nat) (asym : Bool) (c : Nat) : Int :=
  if fmt = 0 then qw c else codeVal asym (BitVec.ofNat 8 c)

/-- A list padded with `d` to length `n`. -/
def padTo {α : Type} (d : α) (n : Nat) (xs : List α) : List α := xs ++ List.replicate (n - xs.length) d

/-! ### Accumulation and the checker (R84, R85, R134, R135, R530) -/

/-- A streaming row as it enters the grid: its accumulator row, its tag, its zero point, and its operands. -/
structure IntRow where
  p : Nat := 0
  tag : Nat := 0
  zp : Int := 0
  xs : List Int := []
deriving DecidableEq, Repr, Inhabited

/-- A streaming OZ16 row. -/
structure FltRow where
  p : Nat := 0
  tag : Nat := 0
  xs : List Half := []
deriving DecidableEq, Repr, Inhabited

/-- The accumulator row `p`. -/
def accRow (a : List AccRow) (p : Nat) : AccRow := getAt {} a p

/-- The value at column `n` of an accumulator row. -/
def accVal (r : AccRow) (n : Nat) : Word := getAt 0 r.vals n

/-- The upsets of row `p` turned into the bits of column `n`. -/
def flipOf (up : ArrayUpset) (p n : Nat) (v : Word) : Word :=
  up.flips.foldl (fun v f => if f.1 = p ∧ f.2.1 = n then v ^^^ f.2.2 else v) v

/-- A 32-bit integer sum as a number. -/
def sumOf (w : Word) : Int := signed 32 w.toNat

/-- The sum of integers. -/
def sumInt (xs : List Int) : Int := xs.foldl (· + ·) 0

/-- `h` of the checker column: the sum over a pass's output columns for each reduced index (R134, R191). -/
def checkCol (cols : List (List Int)) : List Int :=
  match cols with
  | [] => []
  | c :: cs => cs.foldl (fun h x => List.zipWith (· + ·) h x) c

/-- One integer row: the accumulated values, and whether T and P agree in every pass of `pass` columns (R135). `corr`
gives `z × C_c` of the columns, subtracted after the check (R79). -/
def intRow (up : ArrayUpset) (pass : Nat) (cols : List (List Int)) (corr : List Int) (before : AccRow) (x : IntRow) :
    AccRow × Bool :=
  let olds := (countFrom 0 cols.length).map (fun n => sumOf (accVal before n))
  let news := List.zipWith (fun (n : Nat) (e : List Int × Int) =>
      flipOf up x.p n (BitVec.ofInt 32 (e.2 + dotInt x.xs e.1)))
    (countFrom 0 cols.length) (List.zip cols olds)
  let incs := List.zipWith (fun (v : Word) (o : Int) => sumOf v - o) news olds
  let k := ceilDiv cols.length pass
  let ok := (List.zip (chunks pass k incs) (chunks pass k cols)).all (fun e =>
    sumInt e.1 == dotInt x.xs (checkCol e.2)) && !up.chk.contains x.p
  let vals := List.zipWith (fun (v : Word) (c : Int) => BitVec.ofInt 32 (sumOf v - x.zp * c)) news
    (padTo 0 cols.length corr)
  ({ tag := x.tag, vals := padTo 0 128 vals }, ok)

/-- The fixed point in which the tolerance check of R530 is exact. -/
def tauExp : Int := -110
/-- A finite value in that fixed point. -/
def tauInt (x : Num) : Int := x.toIntAt tauExp
/-- Whether a value is finite. -/
def isFin : Num → Bool
  | .fin _ _ _ => true
  | _ => false

/-- The tolerance check of an OZ16 row (R530): the operands, the sums h and H of the stationary operand, the
accumulator before and after. -/
def floatOk (xs : List Num) (h hAbs : List Int) (bFin : Bool) (before after : List Num) : Bool :=
  if !(bFin && xs.all isFin && before.all isFin) then true
  else
    let unit : Nat := (-tauExp).toNat
    let prod (a b : Int) : Int := a * b / ((2 ^ unit : Nat) : Int)
    let p := sumInt (List.zipWith (fun x k => prod (tauInt x) k) xs h)
    let b := sumInt (List.zipWith (fun x k => prod (tauInt x.abs) k) xs hAbs) + sumInt (before.map (fun x => tauInt x.abs))
    if after.any Num.isNan then false
    else if after.any (fun x => !isFin x) then decide (((2 ^ (63 + unit) : Nat) : Int) ≤ b)
    else
      let t := sumInt (after.map tauInt) - sumInt (before.map tauInt)
      let d := (t - p).natAbs
      -- scaled by 2^44 so that the small terms of tau are integers
      decide (((d * 2 ^ 44 : Nat) : Int)
        ≤ b * 2 ^ 30 + sumInt hAbs + ((2 ^ (unit - 54 + 44) : Nat) : Int))

/-- One OZ16 row over the grid: leaves run on from the accumulator (R85, R88), and the tolerance check (R530). -/
def fltRow (up : ArrayUpset) (cols : List (List Half)) (h hAbs : List Int) (bFin : Bool) (before : AccRow)
    (x : FltRow) : AccRow × Bool :=
  let vals := List.zipWith (fun (n : Nat) (col : List Half) => flipOf up x.p n (leafFrom (accVal before n) x.xs col))
    (countFrom 0 cols.length) cols
  let bs := (countFrom 0 cols.length).map (fun n => val32 (accVal before n))
  ({ tag := x.tag, vals := padTo 0 128 vals }, floatOk (x.xs.map val16) h hAbs bFin bs (vals.map val32) && !up.chk.contains x.p)

/-- Sums over the output columns for each reduced index, of values and of magnitudes. -/
def fltCheckCol (cols : List (List Half)) : List Int × List Int × Bool :=
  let vs := cols.map (fun c => c.map val16)
  (checkCol (vs.map (fun c => c.map tauInt)), checkCol (vs.map (fun c => c.map (fun x => tauInt x.abs))),
    vs.all (fun c => c.all isFin))

/-- The index of the first row whose check fails. -/
def firstBad (rs : List (AccRow × Bool)) (ps : List Nat) : Option Nat :=
  ((List.zip rs ps).find? (fun e => !e.1.2)).map Prod.snd

/-! ### Checker decisions (R532-R536) -/

/-- DETAIL of the arithmetic faults (R545). -/
def chkDetail (op outcome row core1 core2 col : Nat) : List Byte :=
  [BitVec.ofNat 8 op, BitVec.ofNat 8 outcome] ++ leBytes 2 row ++ leBytes 2 core1 ++ leBytes 2 core2 ++ leBytes 1 col

/-- A command reports CHECKER_MISMATCH: its outputs are held and a decision is pending (R135, R534). -/
def mismatch (s : State) (i : Issuer) (d : Decision) : Run :=
  let s := raise s .checkerMismatch (coreAt s i (chkDetail d.op 0 d.firstRow 0xFFFF 0xFFFF 0xFF))
  let d := { d with slotEnd := ((getPtn s i.ptn).tt.open_.getLast?).map OpenSlot.endB }
  (modCore s i.core (fun c => { c with chkMismatch := satInc 16 c.chkMismatch, decision := some d }), .wait .decision)

/-- The residue of a drain fails (R531): ARITH_RESIDUE, and the row of a second failure. -/
def residueOf (s : State) (i : Issuer) (op : Nat) (up : ArrayUpset) : State × Option Nat :=
  match up.residue with
  | none => (s, none)
  | some (r, again) =>
    (raise s .arithResidue (coreAt s i (chkDetail op 0 r 0xFFFF 0xFFFF 0xFF)), if again then some r else none)

/-! ### Base tables and column sums (R132, R133, R420) -/

/-- The base window of a BASE_ID, and its COLSUM window. -/
def baseWin (s : State) (b : Nat) : Option Win := (moduleWins s).find? (fun w => w.type == .base && w.owner == b)
def colsumWin (s : State) (b : Nat) : Option Win := (moduleWins s).find? (fun w => w.type == .colsum && w.owner == b)

/-- The bytes of a window as the module's own engines read them, under the window's key. -/
def readWin (s : State) (ptn : Nat) (w : Win) (off n : Nat) : List Byte :=
  let a := addrOf (w.mem, w.base + off)
  spoil s a (readKey s (classKey s ptn w) a n)

/-- An entry of a base table (R420). -/
structure BaseEnt where
  tensor : Nat := 0
  kt : Nat := 0
  ntc : Nat := 0
  tileOff : Nat := 0
  stripOff : Nat := 0
  colsumOff : Nat := 0
  kind : Nat := 0
deriving DecidableEq, Repr, Inhabited

/-- Parses entry `k` of a base table's bytes. -/
def baseEnt (bs : List Byte) (k : Nat) : BaseEnt :=
  let o := 64 + 32 * k
  { tensor := field bs o 4, kt := field bs (o + 4) 2, ntc := field bs (o + 6) 2, tileOff := field bs (o + 8) 8,
    stripOff := field bs (o + 0x10) 8, colsumOff := field bs (o + 0x18) 4, kind := field bs (o + 0x1C) 1 }

/-- The base table entry of a matrix (R132). -/
def matrixEnt (s : State) (ptn b tensor : Nat) : Option BaseEnt :=
  match baseWin s b with
  | none => none
  | some w =>
    let n := field (readWin s ptn w 0 64) 2 2
    let bs := readWin s ptn w 0 (64 + 32 * n)
    ((countFrom 0 n).map (baseEnt bs)).find? (fun e => e.tensor == tensor && e.kind == 1)

/-- The local addresses of a tile's column-sum record and its CRC word (R132). -/
def colsumAddrs (s : State) (ptn : Nat) (h : Hdr) : Option (Nat × Nat) :=
  match matrixEnt s ptn h.baseId h.tensorId, colsumWin s h.baseId with
  | some e, some w =>
    let i := h.tileRow * e.ntc + h.tileCol
    let c := w.base + 256 * e.colsumOff
    some (addrOf (w.mem, c + 256 * i), addrOf (w.mem, c + 256 * e.kt * e.ntc + 4 * i))
  | _, _ => none

/-- The column sums of a kind-0 tile (R130); code 0b1000 counts 0. -/
def columnSums (t : Tile) : List Int :=
  padTo 0 128 ((gridCodes false t).map (fun col => sumInt (col.map qw)))

/-- A record's bytes (R130). -/
def colsumBytes (cs : List Int) : List Byte := (cs.map (fun c => leBytes 2 (unsign 16 c))).flatten

/-- The subtraction flag of a matrix is set (R133). -/
def subFlagged (s : State) (b tensor : Nat) : Bool := s.subf.any (fun f => f.base == b && f.tensor == tensor)

/-- A failed column-sum table: COLSUM_CHECKSUM, and the flag (R80, R133). -/
def colsumFail (s : State) (i : Issuer) (h : Hdr) (addr : Nat) : State :=
  let s := raise s .colsumChecksum (coreAt s i (tileDetail s addr h.tensorId 0 false))
  if subFlagged s h.baseId h.tensorId then s
  else
    let reads (p : Nat) : Bool := (ptnWins s p).any (fun w =>
      w.type == .tensor && w.owner == h.baseId && w.tensorId == h.tensorId)
    let s := forEach (tkeys s.ptn) (fun s p => if reads p then modPtn s p (fun q => { q with recheck := true }) else s) s
    { s with subf := s.subf ++ [{ base := h.baseId, tensor := h.tensorId }] }

/-- Array commands run in subtraction mode (R79): before READY, and for a flagged matrix. -/
def subMode (s : State) (h : Hdr) : Bool := !s.mod.ready || subFlagged s h.baseId h.tensorId

/-! ### Writing -/

/-- Writes bytes at a global address whose range has been checked. -/
def putAt (s : State) (i : Issuer) (ga : Nat) (bs : List Byte) : State :=
  match itemPlace s (some i.core) ga bs.length with
  | some p => writeAs s i p bs
  | none => s

/-- An output range against the issuer's windows and Rind (R213, R629): none where it passes. -/
def outCheck (s : State) (i : Issuer) (bad : FaultCode) (ga n : Nat) : Option FaultCode :=
  match itemPlace s (some i.core) ga n with
  | none => some bad
  | some p =>
    if meetsRind s p n then some .rindWrite
    else if coverage s i .write p n = n then none else some bad

/-- An input range against the issuer's windows (R629). -/
def inCheck (s : State) (i : Issuer) (bad : FaultCode) (ga n : Nat) : Option FaultCode :=
  if (checkItem s i .read ga n).isSome then none else some bad

/-- The first fault of a list of checks, RIND_WRITE of an output before the engine's own (R213, R631). -/
def worst (cs : List (Option FaultCode)) : Option FaultCode :=
  if cs.contains (some .rindWrite) then some .rindWrite else (cs.find? Option.isSome).getD none

/-- Adds the events of rows to the contexts that their tags name (R66). -/
def addEvents (s : State) (es : List (Nat × ConvEvents)) : State :=
  es.foldl (fun s e => if tagValid e.1 && (e.2.sat + e.2.nan != 0) then addConv s (tagCtx e.1) e.2.sat e.2.nan else s) s

end Sys2Proof.Machine
end

