-- ==== Sys2Proof/Machine/DArray.lean ====
section
/-! DEFINITION. The D-array (spec/04_lecture_forward.md, spec/06_twin_array_backward.md): array command descriptors, their
checks, gradient stages, products, drains, QUANT, COLSUM_BUILD and NODE_ADD, and the waits of a command.
Readings and choices: log 26, 27, 28, 29, 30, 31, 32, 33, 34, 35, 39, 40, 135, 136, 137, 138, 144, 159. -/

namespace Sys2Proof.Machine

/-! ### The descriptor (R111) -/

/-- The fields of an ACD. -/
structure Acd where
  op : Nat := 0
  statT : Bool := false
  keep : Bool := false
  accIn : Bool := false
  leafEnd : Bool := false
  drain : Nat := 0
  maskFill : Bool := false
  epoch : Nat := 0
  fn : Nat := 0
  ptn : Nat := 0
  savePre : Bool := false
  join : Bool := false
  tiles : Nat := 0
  preOff : Nat := 0
  stat : Nat := 0
  stream : Nat := 0
  out : Nat := 0
  amax : Nat := 0
  colsum : Nat := 0
  streamStride : Nat := 0
  outStride : Nat := 0
  route : Nat := 0
  rsvd : Nat := 0
  loadSeq : Nat := 0
  doneSem : Nat := 0xFFFF
  ntExpect : Nat := 0
deriving DecidableEq, Repr, Inhabited

/-- Word `k` of a descriptor. -/
def descWord (d : List Byte) (k : Nat) : Nat := field d (4 * k) 4

/-- Reads an ACD (R111). -/
def parseAcd (d : List Byte) : Acd :=
  let w := descWord d
  { op := bits (w 0) 0 8, statT := bitOf (w 0) 8, keep := bitOf (w 0) 9, accIn := bitOf (w 0) 10,
    leafEnd := bitOf (w 0) 11, drain := bits (w 0) 12 3, maskFill := bitOf (w 0) 15, epoch := bits (w 0) 16 8,
    fn := bits (w 0) 24 8, ptn := bits (w 1) 0 6, savePre := bitOf (w 1) 6, join := bitOf (w 1) 7,
    tiles := bits (w 1) 8 8, preOff := bits (w 1) 16 16, stat := field d 8 8, stream := field d 16 8,
    out := field d 24 8, amax := field d 32 8, colsum := field d 40 8, streamStride := bits (w 12) 0 16,
    outStride := bits (w 12) 16 16, route := bits (w 13) 0 8, rsvd := bits (w 13) 8 8, loadSeq := bits (w 13) 16 16,
    doneSem := bits (w 14) 0 16, ntExpect := bits (w 14) 16 16 }

/-- The CRC of a 64-byte descriptor (R111, R168, R220). -/
def descCrcOk (d : List Byte) : Bool := crcTailOk d 60

/-- Address of streaming tile, left child, output tile and saved pre-activation tile `i`. -/
def Acd.streamAt (a : Acd) (i : Nat) : Nat := a.stream + i * a.streamStride * 64
def Acd.leftAt (a : Acd) (i : Nat) : Nat := a.stat + i * a.streamStride * 64
def Acd.outAt (a : Acd) (i : Nat) : Nat := a.out + i * a.outStride * 64
def Acd.preAt (a : Acd) (i : Nat) : Nat := a.outAt i + a.preOff * 4096
def Acd.maskAt (a : Acd) (i : Nat) : Nat := a.out + a.preOff * 4096 + i * 4096

/-- Operations (R112). -/
def opFwd : Nat := 1
def opBwd : Nat := 2
def opA8 : Nat := 3
def opOz16 : Nat := 4
def opQuant : Nat := 5
def opColsum : Nat := 6
def opNode : Nat := 7

/-- The operation is a product of a stationary tile (R112). -/
def Acd.product (a : Acd) : Bool := decide (1 ≤ a.op) && decide (a.op ≤ 4)

/-! ### Field checks (R113, R114, R192, R209) -/

/-- DRAIN permitted for OP (R112). -/
def drainFits (op drain : Nat) : Bool :=
  match op with
  | 1 | 3 => decide (drain ≤ 3)
  | 2 => drain == 0 || drain == 1 || drain == 2 || drain == 5
  | 4 => decide (drain ≤ 5)
  | 7 => drain == 1 || drain == 2 || drain == 3 || drain == 5
  | _ => drain == 0

/-- STAT_T permitted for OP (R112). -/
def transFits (op : Nat) (t : Bool) : Bool :=
  match op with
  | 1 => !t
  | 2 | 3 => t
  | _ => true

/-- FMT and KIND of a stationary tile permitted for OP (R112, R62). -/
def statFits (op : Nat) (h : Hdr) : Bool :=
  match op with
  | 1 | 2 | 6 => h.fmt == fOZ4 && h.kind == 0
  | 3 => h.fmt == fA8 && h.kind == 1 && !h.asym && h.zps.all (· == 0)
  | 4 => h.fmt == fOZ16 && (h.kind == 1 || h.kind == 3)
  | 7 => h.fmt == fOZ32 && (h.kind == 1 || h.kind == 2 || h.kind == 4)
  | _ => false

/-- FMT and KIND of a streaming tile permitted for OP (R112, R62). -/
def streamFits (op : Nat) (h : Hdr) : Bool :=
  match op with
  | 1 => h.fmt == fA8 && h.kind == 1
  | 2 => h.fmt == fOZ16 && h.kind == 2
  | 3 => h.fmt == fA8 && h.kind == 1 && !h.asym && h.zps.all (· == 0)
  | 4 => h.fmt == fOZ16 && (h.kind == 1 || h.kind == 2)
  | 5 => h.fmt == fOZ16 && h.kind == 1
  | 7 => h.fmt == fOZ32 && (h.kind == 1 || h.kind == 2 || h.kind == 4)
  | _ => true

/-- The reduced and the output extent of a stationary tile. -/
def kValid (trans : Bool) (h : Hdr) : Nat := if trans then h.cols else h.rows
def nValid (trans : Bool) (h : Hdr) : Nat := if trans then h.rows else h.cols

/-- The leaf length limit of an operation (R82). -/
def leafLimit (op : Nat) : Nat := if op = opOz16 then klF else klI

/-- The fields that R114 wants zero in QUANT, COLSUM_BUILD and NODE_ADD. -/
def soloFields (a : Acd) : Bool :=
  match a.op with
  | 5 => a.stat == 0 && a.colsum == 0 && a.ntExpect == a.tiles && !a.leafEnd && a.drain == 0
    && a.fn == 0 && !a.savePre && a.preOff == 0 && !a.join
    && !a.statT && !a.keep && !a.accIn && a.route == 0 && a.loadSeq == 0
  | 6 => a.stream == 0 && a.streamStride == 0 && a.tiles == 1 && a.outStride == 0 && a.amax == 0 && a.ntExpect == 0
    && !a.leafEnd && a.drain == 0 && a.fn == 0 && !a.savePre && a.preOff == 0 && !a.join
    && !a.statT && !a.keep && !a.accIn && a.route == 0 && a.loadSeq == 0
  | 7 => a.leafEnd && a.colsum == 0 && (a.drain == 5 || a.savePre || a.preOff == 0) && (a.drain == 3 || (a.amax == 0 && a.ntExpect == 0))
    && !a.statT && !a.keep && !a.accIn && a.route == 0 && a.loadSeq == 0
  | _ => true

/-- The routes that the command of a core runs under: those of its start (R388). -/
def routesOf (s : State) (n p : Nat) : List Route :=
  match (getCore s n).under, (getPtn s p).syl with
  | some u, _ => u.1
  | none, some y => y.routes
  | none, none => []

/-- Field checks that need no operand (R113, R114, R192, R209). -/
def fieldsOk (s : State) (i : Issuer) (a : Acd) : Bool :=
  decide (1 ≤ a.op) && decide (a.op ≤ 7) && decide (a.drain ≤ 5) && a.rsvd == 0 && a.tiles != 0 && a.ptn == i.ptn
    && fnDefined a.fn && drainFits a.op a.drain && transFits a.op a.statT
    && (a.op == opQuant || a.op == opColsum || (a.drain != 0) == a.leafEnd)
    && !(a.drain == 2 && (a.fn != 0 || a.savePre || a.join))
    && !(a.product && !a.leafEnd && decide (4 < a.tiles))
    && soloFields a
    && !((a.op == opBwd || a.op == opOz16) && (a.drain == 1 || a.drain == 2) && a.fn != 0)
    && !(a.drain == 5 && (a.savePre || a.preOff == 0))
    && !(a.drain == 4 && (a.fn != 0 || a.savePre || a.join || a.preOff == 0))
    && (a.route == 0 || !a.product || (routesOf s i.core i.ptn).any (fun r => r.num == a.route && r.members.contains i.core))

/-! ### Gradient stages (R182, R183) -/

/-- A stage record's header (R182) and entries (R183). -/
structure StageRec where
  state : Nat := 0
  nt : Nat := 0
  c0 : Nat := 0
  strip : Nat := 0
  tile : Nat := 0
  tileStride : Nat := 0
  savedStride : Nat := 0
  rows : Nat := 0
  ns : Nat := 0
  saved : Nat := 0
  sealer : Nat := 0
  sealerEpoch : Nat := 0
  /-- SCALE, TAG and AMAX of each of the 128 rows. -/
  ents : List (Half × Nat × Word) := []
deriving DecidableEq, Repr, Inhabited

/-- Reads a stage record. -/
def parseStage (bs : List Byte) : StageRec :=
  { state := bits (field bs 1 1) 0 2, nt := field bs 2 2, c0 := field bs 4 4, strip := field bs 8 8,
    tile := field bs 0x10 8, tileStride := field bs 0x18 2, savedStride := field bs 0x1A 2, rows := field bs 0x1C 2,
    ns := field bs 0x1E 2, saved := field bs 0x20 8, sealer := bits (field bs 0x2C 4) 0 10,
    sealerEpoch := bits (field bs 0x2C 4) 10 8,
    ents := (countFrom 0 128).map (fun r =>
      let o := 64 + 8 * r
      (BitVec.ofNat 16 (field bs o 2), field bs (o + 2) 2, BitVec.ofNat 32 (field bs (o + 4) 4))) }

/-- HDR_CRC and the ranges and reserved fields of R182 hold. -/
def stageOk (bs : List Byte) : Bool :=
  let g := parseStage bs
  crcTailOk (bs.take 64) 60 && field bs 0 1 == 1 && bits (field bs 1 1) 2 6 == 0
    && decide (1 ≤ g.nt) && decide (g.nt ≤ 512) && decide (1 ≤ g.rows) && decide (g.rows ≤ 128) && decide (g.ns ≤ 512)
    && (g.ns != 0 || g.saved == 0) && field bs 0x28 4 == 0 && bits (field bs 0x2C 4) 18 14 == 0 && field bs 0x30 8 == 0

/-- ENT_CRC holds (R182). -/
def stageEntOk (bs : List Byte) : Bool := field bs 0x38 4 == crc32c (slice bs 0x40 1024)

/-- Where gradient tile `j` of a stage lies. -/
def StageRec.tileAt (g : StageRec) (j : Nat) : Nat := g.tile + j * g.tileStride * 64
/-- Where saved tile `t` of a stage lies. -/
def StageRec.savedAt (g : StageRec) (t : Nat) : Nat := g.saved + t * g.savedStride * 64

/-! ### Operands -/

/-- The operands of a command as fetched: the stationary tile (none where STAT_KEEP holds or there is none), the
streaming tiles (for a backward command the gradient tiles that its stages name, with the row tags of the stages), and
NODE_ADD's left children. -/
structure Opnds where
  stat : Option Fetched := none
  streams : List Fetched := []
  lefts : List Fetched := []
  stageTags : List (List Nat) := []
deriving DecidableEq, Repr, Inhabited

/-- Fetches a list of tiles. -/
def fetchTiles (s : State) (i : Issuer) : List Nat → State × List Fetched
  | [] => (s, [])
  | ga :: gas =>
    match fetchTile s i ga with
    | (s, f) => match fetchTiles s i gas with
      | (s, fs) => (s, f :: fs)

/-- The gradient tile of tile column `col` that the stage record at `ga` names, and the row tags of the stage: those of its entries
once SEALED, those of the tile before. Where the record names none, no tile: the command meets that when it opens the stage. -/
def peekGrad (s : State) (i : Issuer) (col ga : Nat) : State × Fetched × List Nat :=
  match fetch s i ga 64 with
  | (s, none) => (s, .outside, [])
  | (s, some hd) =>
    let g := parseStage hd
    if !stageOk hd || decide (col < g.c0) || decide (g.nt ≤ col - g.c0) then (s, .outside, [])
    else
      match fetchTile s i (g.tileAt (col - g.c0)) with
      | (s, f) =>
        if g.state = 2 then
          match fetch s i ga 1088 with
          | (s, some bs) => (s, f, (parseStage bs).ents.map (fun e => e.2.1))
          | (s, none) => (s, f, [])
        else (s, f, (f.hdr.elim [] (fun h => h.tags.take g.rows)))

/-- As `peekGrad` for a list of records. -/
def peekGrads (s : State) (i : Issuer) (col : Nat) : List Nat → State × List (Fetched × List Nat)
  | [] => (s, [])
  | ga :: gas =>
    match peekGrad s i col ga with
    | (s, x) => match peekGrads s i col gas with
      | (s, xs) => (s, x :: xs)

/-- The header that a command's stationary tile has, as fetched or as kept. -/
def statHdr (s : State) (i : Issuer) (a : Acd) (st : Option Fetched) : Option Hdr :=
  if a.keep then (getCore s i.core).stat.map (fun t => t.tile.hdr) else st.bind Fetched.hdr

/-- The orientation of the stationary operand: as it was loaded where the tile is kept, as STAT_T says where it is loaded (R111). -/
def effTrans (c : Core) (a : Acd) : Bool := if a.keep then (c.stat.map Stat.trans).getD a.statT else a.statT

/-- Fetches the operand tiles of a command; a routed stationary tile comes with its delivery. -/
def fetchOpnds (s : State) (i : Issuer) (a : Acd) : State × Opnds :=
  let idx := countFrom 0 a.tiles
  let needStat := (a.product && !a.keep) || a.op == opColsum
  let (s, st) : State × Option Fetched := if needStat then
      match fetchTile s i a.stat with
      | (s, f) => (s, some f)
    else (s, none)
  if a.op == opBwd then
    match statHdr s i a st with
    | some h => match peekGrads s i h.tileCol (idx.map a.streamAt) with
      | (s, gs) => (s, { stat := st, streams := gs.map Prod.fst, stageTags := gs.map Prod.snd })
    | none => (s, { stat := st })
  else
    let (s, fs) := if a.op == opColsum then (s, []) else fetchTiles s i (idx.map a.streamAt)
    let (s, ls) := if a.op == opNode then fetchTiles s i (idx.map a.leftAt) else (s, [])
    (s, { stat := st, streams := fs, lefts := ls })

/-- The header that a fetched operand must fit, where its address can be read. -/
def fits (f : Hdr → Bool) : Fetched → Bool
  | .outside => true
  | .reserved => false
  | .tile bs => f (parseHdr bs)

/-- The two children of a pair agree (R114). -/
def pairFits (l r : Fetched) : Bool :=
  match l.hdr, r.hdr with
  | some x, some y => x.fmt == y.fmt && x.kind == y.kind && x.rows == y.rows && x.cols == y.cols
      && x.tileRow == y.tileRow && x.tileCol == y.tileCol
  | _, _ => true

/-- A FWD_W4A8 command needs correction: some row carries a zero point and the matrix is not in subtraction mode
(R79, R132). -/
def needsCorr (s : State) (a : Acd) (h : Hdr) (streams : List Fetched) : Bool :=
  a.op == opFwd && !subMode s h && streams.any (fun f => match f.hdr with
    | some x => x.zps.any (· != 0)
    | none => false)

/-- Checks of operand FMT and KIND, of the kept tile, of the leaf length and of COLSUM_ADDR (R113, R114, R132,
R209). -/
def operandsOk (s : State) (i : Issuer) (a : Acd) (o : Opnds) : Bool :=
  let c := getCore s i.core
  (if a.product then
    (if a.keep then
      match c.stat with
      | some t => statFits a.op t.tile.hdr && transFits a.op t.trans
      | none => false
    else true)
    && (match statHdr s i a o.stat with
      | some h =>
        decide ((if a.accIn then c.acc.leaf else 0) + kValid (effTrans c a) h ≤ leafLimit a.op)
        && (!needsCorr s a h o.streams || (colsumAddrs s i.ptn h).map Prod.fst == some (localOf s a.colsum))
      | none => true)
    && !(a.drain == 4 && a.accIn && !c.acc.full)
   else true)
  && (match o.stat with
    | some f => fits (statFits a.op) f
    | none => true)
  && o.streams.all (fits (streamFits a.op)) && o.lefts.all (fits (streamFits a.op))
  && (List.zip o.lefts o.streams).all (fun e => pairFits e.1 e.2)

/-- Bytes of an output tile of a command (R106). -/
def outLen (a : Acd) : Nat :=
  704 + (if a.op = opQuant then 16384 else if a.drain = 2 ∨ a.drain = 4 then 65536 else 32768)

/-- Address checks of every item that the descriptor names (R213, R327, R629). -/
def addrFault (s : State) (i : Issuer) (a : Acd) (o : Opnds) : Option FaultCode :=
  let idx := countFrom 0 a.tiles
  let outs := if a.drain != 0 || a.op == opQuant then
      idx.map (fun k => outCheck s i .acdInvalid (a.outAt k) (outLen a))
      ++ (if a.savePre then idx.map (fun k => outCheck s i .acdInvalid (a.preAt k) 33472) else [])
    else []
  -- amax entries lie in SRAM (R137): a HOLD reads and writes 128 for each streaming tile, a QUANT reads 128
  let entries (n : Nat) : List (Option FaultCode) :=
    [inCheck s i .acdInvalid a.amax n, (match itemPlace s (some i.core) a.amax n with
      | some p => if p.1.isSram then none else some .acdInvalid
      | none => some .acdInvalid)]
  let amax := if a.drain == 3 then outCheck s i .acdInvalid a.amax (1024 * a.tiles) :: entries (1024 * a.tiles)
    else if a.op == opQuant then entries 1024 else []
  let col := if a.op == opColsum then [outCheck s i .acdInvalid a.colsum 256, outCheck s i .acdInvalid a.out 4]
    else match statHdr s i a o.stat with
      | some h => if needsCorr s a h o.streams then [inCheck s i .acdInvalid a.colsum 256] else []
      | none => []
  let ins := (o.stat.toList ++ (if a.op == opBwd then [] else o.streams) ++ o.lefts).map (fun f =>
    if f = .outside then some FaultCode.acdInvalid else none)
  let recs := if a.op == opBwd then idx.map (fun k => inCheck s i .acdInvalid (a.streamAt k) 1088) else []
  worst (outs ++ amax ++ col ++ ins ++ recs)

/-- A stationary kind-0 tile read from outside a Rind window (R215). -/
def rindAbsent (s : State) (i : Issuer) (a : Acd) (o : Opnds) : Bool :=
  (a.op == opFwd || a.op == opBwd) && !a.keep &&
    (match o.stat, itemPlace s (some i.core) a.stat 8512 with
     | some (.tile _), some p => !insideRind s p 8512
     | _, _ => false)

/-- The tags of a header that has them. -/
def longTags (h : Hdr) : List Nat := if h.kind = 0 then [] else h.tags

/-- Tags of a padded row vector (R126: all 128 rows are compared). -/
def tags128 (h : Hdr) : List Nat := padTo 0 128 h.tags

/-- The tag vector of accumulator tile `k` (R126). -/
def accTags (c : Core) (k : Nat) : List Nat := (countFrom (128 * k) 128).map (fun p => (accRow c.acc.rows p).tag)

/-- Row-tag checks that need only the operand tiles (R122, R124, R126, R209): TAG_FOREIGN, then TAG_MIX. -/
def tagFault (s : State) (i : Issuer) (a : Acd) (o : Opnds) : Option FaultCode :=
  let c := getCore s i.core
  let hs := (o.stat.toList ++ o.streams ++ o.lefts).filterMap Fetched.hdr
  let sh := statHdr s i a o.stat
  let xs := o.streams.filterMap Fetched.hdr
  if !(hs.all (fun h => tagsAttached s i.ptn (longTags h)) && o.stageTags.all (tagsAttached s i.ptn)) then some .tagForeign
  else if a.product && !(match sh with | some h => tagsAttached s i.ptn (longTags h) | none => true) then some .tagForeign
  else
    let kind3 := match sh with
      | some h => a.product && h.kind == 3 &&
          (let ts := h.tags.take h.rows
           let own := getAt 0 ts 0
           !(tagValid own && ts.all (· == own)
             && xs.all (fun x => (x.tags.take x.rows).all (· == own))))
      | none => false
    let rowTags := if a.op == opBwd then o.stageTags.map (padTo 0 128) else xs.map tags128
    let cont := a.product && a.accIn &&
      !((List.zip (countFrom 0 a.tiles) rowTags).all (fun e => accTags c e.1 == e.2))
    let node := a.op == opNode &&
      !((List.zip (o.lefts.filterMap Fetched.hdr) xs).all (fun e => tags128 e.1 == tags128 e.2))
    let whey := a.drain == 4 &&
      (match sh with
       | some h => !((h.tags.take h.rows).all (fun g =>
            xs.all (fun x => (x.tags.take x.rows).all (fun t => t == g)))) || (a.accIn && !c.acc.uniform)
       | none => false)
    if kind3 || cont || node || whey then some .tagMix else none

/-! ### Seals (R184-R188) -/

/-- A record with STATE, SEALER and SEALER_EPOCH set and HDR_CRC rewritten (R184). -/
def stageState (bs : List Byte) (st core epoch : Nat) : List Byte :=
  let bs := patch bs 1 [BitVec.ofNat 8 st]
  let bs := patch bs 0x2C (leBytes 4 (core + 1024 * epoch))
  patch bs 0x3C (leBytes 4 (crc32c (bs.take 60)))

/-- Bytes of a channel scale strip of `nch` channels (R185). -/
def stripLen (nch : Nat) : Nat := 64 + alignUp (2 * nch) 64

/-- A strip's bytes where its CRC and version hold and, where the command has a stationary tile, its TENSOR_ID and BASE_ID (R185,
R186). -/
def fetchStrip (s : State) (i : Issuer) (ga : Nat) (h : Option Hdr) : State × Option (List Byte) :=
  match fetch s i ga 64 with
  | (s, none) => (s, none)
  | (s, some hd) =>
    let nch := field hd 4 4
    if nch = 0 || decide (65536 < nch) then (s, none) else
    match fetch s i ga (stripLen nch) with
    | (s, none) => (s, none)
    | (s, some bs) =>
      let ok := field bs 0 1 == 1 && h.all (fun h => field bs 8 4 == h.tensorId && field bs 12 2 == h.baseId)
        && field bs 0x3C 4 == crc32c (patch bs 0x3C [0, 0, 0, 0])
      (s, if ok then some bs else none)

/-- The scale of channel `c` of a strip. -/
def stripScale (bs : List Byte) (c : Nat) : Half := BitVec.ofNat 16 (field bs (64 + 2 * c) 2)
/-- NCH of a strip. -/
def stripNch (bs : List Byte) : Nat := field bs 4 4

/-- The 128 scales of tile column `col` of a strip, those past its channels zero (R189). The strip is not judged again: the seal has
judged it (R188). -/
def stripCol (s : State) (i : Issuer) (ga col : Nat) : State × Option (List Half) :=
  match fetch s i ga 64 with
  | (s, none) => (s, none)
  | (s, some hd) =>
    let n := min 128 (field hd 4 4 - 128 * col)
    match fetch s i (ga + 64 + 256 * col) (2 * n) with
    | (s, none) => (s, none)
    | (s, some bs) => (s, some (padTo 0 128 (halves bs 0 n)))

/-- The events that the seal counts in a row (R66, R186): infinities replaced, NaNs, and codes clamped at a limited
scale. -/
def sealEvents (xs : List Num) : ConvEvents := (quantiseSym xs).ev

/-- The entry of row `r` and its events: the scale that R67 forms over the whole row (R186). -/
def sealRow (strip : List Byte) (c0 : Nat) (ts : List Tile) (r : Nat) : (Half × Nat × Word) × (Nat × ConvEvents) :=
  let xs := (List.zip (countFrom 0 ts.length) ts).map (fun e =>
    let cs := (rowCodes fOZ16 e.2.payload r).take e.2.hdr.cols
    (List.zip (countFrom (128 * (c0 + e.1)) cs.length) cs).map (fun k =>
      val32 (scaleGrad (BitVec.ofNat 16 k.2) (stripScale strip k.1))))
  let xs := xs.flatten
  let a := (xs.map capInf).foldl (fun acc x => Num.maxSel acc x.abs) (.fin false 0 0)
  let tag := match ts with
    | t :: _ => getAt 0 t.hdr.tags r
    | [] => 0
  (((symScale a).1, tag, rne32 a), (tag, sealEvents xs))

/-- A gradient tile of a seal: staged, then its header judged (R186). -/
def sealTile (s : State) (i : Issuer) (up : ArrayUpset) (g : StageRec) (j : Nat) : State × Except CmdEnd Tile :=
  match fetchStage s i up (g.tileAt j) with
  | (s, .error e) => (s, .error e)
  | (s, .ok t) =>
    if t.hdr.fmt == fOZ16 && t.hdr.kind == 2 && t.hdr.tileCol == g.c0 + j && t.hdr.rows == g.rows then (s, .ok t)
    else stopWith s i .tileHeader (tileDetail s (g.tileAt j) t.hdr.tensorId t.hdr.kind false)

/-- The tag of row `r` is VALID and equal in every tile (R186). -/
def sealTag (ts : List Tile) (r : Nat) : Bool :=
  match ts with
  | t :: _ => let x := getAt 0 t.hdr.tags r
              tagValid x && ts.all (fun t => getAt 0 t.hdr.tags r == x)
  | [] => false

/-- The seal of a stage (R186), its checks in the order of its text: the strip, each tile in turn, then row by row the tag and the
channels, which are the same in every row. It gives the entries, or the fault that sets FAILED. -/
def sealStage (s : State) (i : Issuer) (up : ArrayUpset) (g : StageRec) (h : Option Hdr) :
    State × Except CmdEnd (List ((Half × Nat × Word) × (Nat × ConvEvents))) :=
  let tensor := h.elim 0 Hdr.tensorId
  match fetchStrip s i g.strip h with
  | (s, none) => stopWith s i .scaleStrip (tileDetail s g.strip tensor 0 false)
  | (s, some strip) =>
    match collect (fun s j => sealTile s i up g j) s (countFrom 0 g.nt) with
    | (s, .error e) => (s, .error e)
    | (s, .ok ts) =>
      let top := maxNat ((List.zip (countFrom 0 g.nt) ts).map (fun e => 128 * (g.c0 + e.1) + e.2.hdr.cols))
      if !sealTag ts 0 then stopWith s i .tagMix (detailAddr (localOf s g.tile))
      else if decide (stripNch strip < top) then stopWith s i .scaleStrip (tileDetail s g.strip tensor 0 false)
      else if !((countFrom 0 g.rows).all (sealTag ts)) then stopWith s i .tagMix (detailAddr (localOf s g.tile))
      else (s, .ok ((countFrom 0 g.rows).map (sealRow strip g.c0 ts)))

/-- The entries of a sealed record as bytes. -/
def entBytes (es : List (Half × Nat × Word)) : List Byte :=
  slice ((es.map (fun e => leBytes 2 e.1.toNat ++ leBytes 2 e.2.1 ++ leBytes 4 e.2.2.toNat)).flatten) 0 1024

/-- The command seals the stage at `ga` (R184, R186): the record goes to SEALING with this core as its sealer, then, in this step
unless the seal is still under way at its end, to SEALED or FAILED. No seal starts while the governor is in HOLD (R274). -/
def runSeal (s : State) (i : Issuer) (up : ArrayUpset) (ga : Nat) (hd : List Byte) (h : Option Hdr) :
    State × Except CmdEnd (List Byte) :=
  let ep := (getCore s i.core).epoch
  if s.pwr.hold then (s, .error (.wait (.sealing ga)))
  else
    let s := putAt s i ga (stageState hd 1 i.core ep)
    if up.sealing then (s, .error (.wait (.sealing ga)))
    else
      match sealStage s i up (parseStage hd) h with
      | (s, .error e) => (putAt s i ga (stageState hd 3 i.core ep), .error e)
      | (s, .ok es) =>
        let bs := hd ++ entBytes (es.map Prod.fst)
        let bs := patch bs 0x38 (leBytes 4 (crc32c (slice bs 0x40 1024)))
        let bs := stageState bs 2 i.core ep
        let s := addEvents (putAt s i ga bs) (es.map Prod.snd)
        (modCore s i.core (fun c => { c with seals := satInc 16 c.seals }), .ok bs)

/-- A stage as a command finds it: its header, and its whole record once SEALED. OPEN is sealed by a BWD_G8W4, SEALING goes on where
the seal is this command's own, is taken over where the sealer's epoch has changed and else waits, and other faults are
GST_HEADER (R184, R186, R187). `h` is the header of the stationary tile whose strip is checked; a W-array command has
none: it takes an OPEN stage as it is, since it reads only the gradient tiles. -/
def openStage (s : State) (i : Issuer) (up : ArrayUpset) (ga : Nat) (h : Option Hdr) :
    State × Except CmdEnd (List Byte) :=
  match fetch s i ga 64 with
  | (s, none) => stopWith s i .gstHeader (detailAddr (localOf s ga))
  | (s, some hd) =>
    let g := parseStage hd
    let sram := match itemPlace s (some i.core) ga 1088 with
      | some p => p.1.isSram && p.2 % 64 == 0
      | none => false
    if !sram || !stageOk hd then stopWith s i .gstHeader (detailAddr (localOf s ga))
    else match g.state with
      | 2 =>
        match fetch s i ga 1088 with
        | (s, some bs) => if stageEntOk bs then (s, .ok bs) else stopWith s i .gstHeader (detailAddr (localOf s ga))
        | (s, none) => stopWith s i .gstHeader (detailAddr (localOf s ga))
      | 3 => stopWith s i .gstHeader (detailAddr (localOf s ga))
      | 1 =>
        let c := getCore s i.core
        let own := g.sealer == i.core && (if h.isSome then c.acdWait else c.wcdWait) == .sealing ga
        if own || g.sealerEpoch != (getCore s g.sealer).epoch then runSeal s i up ga hd h else (s, .error (.wait (.seal ga)))
      | _ => if h.isSome then runSeal s i up ga hd h else (s, .ok (slice hd 0 1088))

/-! ### Products -/

/-- A row of a drain: accumulator row, tag, scale of the streaming row, and the row's index in its tile. -/
structure OutRow where
  p : Nat := 0
  r : Nat := 0
  tag : Nat := 0
  scale : Half := 0
deriving DecidableEq, Repr, Inhabited

/-- One output tile of a command: the streaming tile's header fields with the rows that it drains. -/
structure OutTile where
  k : Nat := 0
  hdr : Hdr := {}
  rows : List OutRow := []
deriving DecidableEq, Repr, Inhabited

/-- What a command has formed before its drain. -/
structure Formed where
  acc : Acc := {}
  tiles : List OutTile := []
  bad : Option Nat := none
deriving DecidableEq, Repr, Inhabited

/-- The OutTile of a streaming tile. -/
def outTile (k : Nat) (h : Hdr) (tags : List Nat) (scales : List Half) : OutTile :=
  { k := k, hdr := { h with tags := tags },
    rows := (countFrom 0 h.rows).map (fun r =>
      { p := 128 * k + r, r := r, tag := getAt 0 tags r, scale := getAt 0 scales r }) }

/-- G8 codes of a row of a gradient tile (R190). -/
def g8Row (strip : List Half) (sc : Half) (gs : List Nat) : List Int :=
  List.zipWith (fun (g : Nat) (c : Half) =>
    let x := capInf (val32 (scaleGrad (BitVec.ofNat 16 g) c))
    if x.isNan || sc == 0 then 0 else max (-127) (min 127 (rniQuot x (val16 sc)))) gs strip

/-- An accumulator that a command starts or continues. -/
def startAcc (c : Core) (a : Acd) : Acc := if a.accIn then c.acc else {}

/-- The accumulator rows of all 128 stored rows of the streaming tiles: the formed ones at their places, the padding
rows keeping their tags. Rows of tiles that the command does not stream stay as they were (R126). -/
def placeRows (tags : List (List Nat)) (before : Acc) (rows : List AccRow) (ps : List Nat) : List AccRow :=
  let base := (List.zip (countFrom 0 tags.length) tags).map (fun e =>
    (List.zip (countFrom (128 * e.1) 128) (padTo 0 128 e.2)).map (fun x => { accRow before.rows x.1 with tag := x.2 }))
  (List.zip ps rows).foldl (fun acc e => setAt acc e.1 e.2) (base.flatten ++ before.rows.drop (128 * tags.length))

/-- The columns that a W4 NaN marks in a tile (R54): the output columns that hold code 0b1000. -/
def nanColsOf (trans : Bool) (t : Tile) : List Nat :=
  let g := gridCodes trans t
  ((List.zip (countFrom 0 g.length) g).filter (fun e => e.2.any isNan4)).map Prod.fst

/-- The accumulator after a product. -/
def afterAcc (a : Acd) (before : Acc) (st : Stat) (rows : List AccRow) (uniform : Bool) : Acc :=
  let h := st.tile.hdr
  { rows := rows, leaf := before.leaf + kValid st.trans h,
    nanCols := if h.fmt = fOZ4 then before.nanCols ++ nanColsOf st.trans st.tile else before.nanCols,
    full := before.full && h.rows == 128, uniform := before.uniform && (a.op == opOz16 && uniform) }

/-- An integer product (R84, R134, R135): the streaming rows with their scales, the correction `C_c` where it applies. -/
def formInt (s : State) (i : Issuer) (up : ArrayUpset) (a : Acd) (st : Stat) (corr : List Int)
    (tiles : List (Hdr × List Nat × List Half × List IntRow)) : Formed :=
  let before := startAcc (getCore s i.core) a
  let h := st.tile.hdr
  let cols := (gridCodes st.trans st.tile).map (fun c => c.map (intCode h.fmt h.asym))
  let rs := (tiles.map (fun t => t.2.2.2)).flatten
  let res := rs.map (fun x => intRow up (if a.op = opA8 then 64 else 128) cols corr (accRow before.rows x.p) x)
  let rows := placeRows (tiles.map (fun t => t.2.1)) before (res.map Prod.fst) (rs.map IntRow.p)
  { acc := afterAcc a before st rows false,
    tiles := (List.zip (countFrom 0 tiles.length) tiles).map (fun e => outTile e.1 e.2.1 e.2.2.1 e.2.2.2.1),
    bad := firstBad res (rs.map IntRow.p) }

/-- An OZ16 product (R85, R124, R125, R530). Where the stationary tile is of kind 1 or 2 and its stored rows lie along
K, an operand whose tags differ enters as 0 (R125). -/
def formFlt (s : State) (i : Issuer) (up : ArrayUpset) (a : Acd) (st : Stat) (tiles : List Tile) : Formed :=
  let before := startAcc (getCore s i.core) a
  let h := st.tile.hdr
  let mask := (h.kind == 1 || h.kind == 2) && !st.trans
  let kLen := maxNat (kValid st.trans h :: tiles.map (fun t => t.hdr.cols))
  let cols := (gridCodes st.trans st.tile).map (fun c => padTo 0 kLen (c.map (BitVec.ofNat 16)))
  let rs := ((List.zip (countFrom 0 tiles.length) tiles).map (fun e =>
    (List.zip (countFrom 0 e.2.hdr.rows) (validCodes e.2)).map (fun x =>
      let tag := getAt 0 e.2.hdr.tags x.1
      let xs := padTo 0 kLen (x.2.map (BitVec.ofNat 16))
      let xs := if mask then
          List.zipWith (fun (k : Nat) (v : Half) => if sameTag (getAt 0 h.tags k) tag then v else 0) (countFrom 0 kLen) xs
        else xs
      ({ p := 128 * e.1 + x.1, tag := tag, xs := xs } : FltRow)))).flatten
  let (hs, hAbs, fin) := fltCheckCol cols
  let res := rs.map (fun x => fltRow up cols hs hAbs fin (accRow before.rows x.p) x)
  let rows := placeRows (tiles.map (fun t => t.hdr.tags)) before (res.map Prod.fst) (rs.map FltRow.p)
  let uni := (h.tags.take h.rows).all (fun g =>
    tiles.all (fun x => (x.hdr.tags.take x.hdr.rows).all (fun t => t == g)))
  { acc := afterAcc a before st rows uni,
    tiles := (List.zip (countFrom 0 tiles.length) tiles).map (fun e => outTile e.1 e.2.hdr e.2.hdr.tags []),
    bad := firstBad res (rs.map FltRow.p) }

/-! ### Drains (R128, R129, R138, R192, R197, R210, R211, R630) -/

/-- The MASK_FILL value (R111). -/
def fill16 (a : Acd) : Half := if a.maskFill then 0xFE00 else 0
def fill32 (a : Acd) : Word := if a.maskFill then BitVec.ofNat 32 (oz32.signCode true + oz32.infCode) else 0

/-- Output (row tag, column) is masked: the stored rows of a kind-1 or kind-2 stationary tile lie along N and the tags
differ (R125). -/
def maskedOut (st : Option Stat) (tag n : Nat) : Bool :=
  match st with
  | some t => (t.tile.hdr.kind == 1 || t.tile.hdr.kind == 2) && t.trans && !sameTag (getAt 0 t.tile.hdr.tags n) tag
  | none => false

/-- The leaf result y of a row (R128, R54). -/
def leafY (a : Acd) (st : Option Stat) (acc : Acc) (n : Nat) (o : OutRow) : List Word :=
  let r := accRow acc.rows o.p
  (countFrom 0 n).map (fun c =>
    let v := accVal r c
    if acc.nanCols.contains c then nan32
    else match a.op, st with
      | 1, some t => dequantSum true (sumOf v) (some (getAt 0 t.tile.hdr.scales c)) o.scale
      | 2, _ => dequantSum true (sumOf v) none o.scale
      | 3, some t => dequantSum false (sumOf v) (some (getAt 0 t.tile.hdr.scales c)) o.scale
      | _, _ => v)

/-- The header of an output tile (R630): COLS_VALID and TILE_COL follow the stationary tile; a NODE_ADD result copies every field of
its left child but LESSON and PRODUCER, FMT and KIND as the drain writes them, and scales and zero points of zero where a
HOLD writes them so (R138). -/
def outHdr (s : State) (i : Issuer) (a : Acd) (st : Option Stat) (t : OutTile) (fmt kind : Nat) : Hdr :=
  match st with
  | some x =>
    let h := x.tile.hdr
    drainHdr s i.ptn { fmt := fmt, kind := kind, rows := t.hdr.rows, cols := nValid x.trans h, tileRow := t.hdr.tileRow,
                       tileCol := if x.trans then h.tileRow else h.tileCol, tags := tags128 t.hdr }
  | none =>
    let h := stampHdr s i.ptn { t.hdr with fmt := fmt, kind := kind }
    if a.drain = 3 then { h with scales := [], zps := [] } else h

/-- The kind of an output tile of drains 1 and 2: 2 for BWD_G8W4 and MM_OZ16 (R192), that of its left child for NODE_ADD (R630). -/
def outKind (a : Acd) (t : OutTile) : Nat :=
  match a.op with
  | 2 | 4 => 2
  | 7 => t.hdr.kind
  | _ => 1

/-- An amax entry merged with a row (R137, R138): the entry's bytes, or a fault and no merge. -/
def mergeAmax (ent : List Byte) (nt tag : Nat) (mx mn : Num) : Except FaultCode (List Byte) :=
  let maxv := val16 (BitVec.ofNat 16 (field ent 0 2))
  let minv := val16 (BitVec.ofNat 16 (field ent 2 2))
  let count := field ent 4 2
  if count != 0 && field ent 6 2 != tag then .error .tagMix
  else if count == nt then .error .drainCount
  else .ok (leBytes 2 (rne16 (Num.maxSel maxv mx)).toNat ++ leBytes 2 (rne16 (Num.minSel minv mn)).toNat
    ++ leBytes 2 (count + 1) ++ leBytes 2 (if count = 0 then tag else field ent 6 2))

/-- Merges a row into its entry (R138): a failed merge raises its fault and changes nothing. -/
def mergeRow (s : State) (i : Issuer) (a : Acd) (o : OutRow) (vs : List Num) : State :=
  let ga := a.amax + 8 * o.p
  match itemPlace s (some i.core) ga 8 with
  | none => s
  | some p =>
    let r := readAs s i p 8
    let ys := vs.map capInf
    match mergeAmax r.bytes a.ntExpect o.tag (ys.foldl Num.maxSel .nan) (ys.foldl Num.minSel .nan) with
    | .ok e => writeAs r.st i p e
    | .error c => raise r.st c (coreAt r.st i (detailAddr (localOf s ga)))

/-- The join buffer row `p` of a core. -/
def joinRow (c : Core) (p : Nat) : JoinRow := getAt {} c.join p

/-- y with the W-array contribution (R129). -/
def joinY (c : Core) (a : Acd) (o : OutRow) (ys : List Word) : List Word :=
  if a.join then List.zipWith (fun (n : Nat) (y : Word) => add32 y (getAt 0 (joinRow c o.p).vals n)) (countFrom 0 ys.length) ys
  else ys

/-- What the drain of a tile reads before anything is written (R109): the saved pre-activations of FPRIME, the mask of WHEY; or the
fault that ends the command (R197, R210, R629). -/
def drainRead (s : State) (i : Issuer) (up : ArrayUpset) (a : Acd) (t : OutTile) : State × Except CmdEnd (List Byte) :=
  match a.drain with
  | 4 =>
    match fetch s i (a.maskAt t.k) 4096 with
    | (s, none) => stopWith s i .wheyMask (detailAddr (localOf s (a.maskAt t.k)))
    | (s, some m) =>
      if field m 0x800 4 != crc32c (m.take 0x800) || !allZero (slice m 0x804 2044) then
        stopWith s i .wheyMask (detailAddr (localOf s (a.maskAt t.k)))
      else (s, .ok m)
  | 5 =>
    match fetchStage s i up (a.preAt t.k) with
    | (s, .error e) => (s, .error e)
    | (s, .ok sv) =>
      if sv.hdr.fmt != fOZ16 || sv.hdr.kind == 0 then stopWith s i .tileHeader (tileDetail s (a.preAt t.k) sv.hdr.tensorId sv.hdr.kind false)
      else if !(t.rows.all (fun o => getAt 0 sv.hdr.tags o.r == o.tag)) then
        stopWith s i .tagMix (detailAddr (localOf s (a.preAt t.k)))
      else (s, .ok sv.payload)
  | _ => (s, .ok [])

/-- Drains the final values of a tile (R129, R138, R197, R211). `ys` are the rows' values after the join, `aux` what `drainRead`
gave. -/
def drainTile (s : State) (i : Issuer) (a : Acd) (st : Option Stat) (t : OutTile)
    (ys : List (OutRow × List Word)) (aux : List Byte) : State :=
  let masked (o : OutRow) (c : Nat) : Bool := maskedOut st o.tag c
  let pre (y : List Word) : List Half := y.map narrow32
  let wr (s : State) (ga fmt kind : Nat) (rows : List (List Nat)) : State :=
    putAt s i ga (tileBytes (outHdr s i a st t fmt kind) (packRows fmt rows))
  let idx {α : Type} (xs : List α) : List (Nat × α) := List.zip (countFrom 0 xs.length) xs
  let fn16 (o : OutRow) (y : List Word) : List Half :=
    (idx (pre y)).map (fun e => if masked o e.1 then fill16 a else fnF a.fn e.2)
  let s := if a.savePre then wr s (a.preAt t.k) fOZ16 1 (ys.map (fun e => (pre e.2).map BitVec.toNat)) else s
  match a.drain with
  | 1 => wr s (a.outAt t.k) fOZ16 (outKind a t) (ys.map (fun e => (fn16 e.1 e.2).map BitVec.toNat))
  | 2 => wr s (a.outAt t.k) fOZ32 (outKind a t) (ys.map (fun e =>
      (idx e.2).map (fun x => (if masked e.1 x.1 then fill32 a else x.2).toNat)))
  | 3 =>
    let held := ys.map (fun e => (e.1, (idx (fn16 e.1 e.2)).map (fun x =>
      if masked e.1 x.1 then (x.2, true) else (rne16 (capInf (val16 x.2)), false))))
    let infs := ys.map (fun e => (e.1.tag, ({ sat := countInf (((idx (fn16 e.1 e.2)).filter
      (fun x => !masked e.1 x.1)).map (fun x => val16 x.2)) } : ConvEvents)))
    let s := wr s (a.outAt t.k) fOZ16 1 (held.map (fun e => e.2.map (fun x => x.1.toNat)))
    let s := addEvents s infs
    held.foldl (fun s e => mergeRow s i a e.1 ((e.2.filter (fun x => !x.2)).map (fun x => val16 x.1))) s
  | 4 =>
    wr s (a.outAt t.k) fOZ32 4 (ys.map (fun e => (idx e.2).map (fun x =>
      if bitOf (field aux (16 * e.1.r + x.1 / 8) 1) (x.1 % 8) then x.2.toNat else 0)))
  | _ =>
    wr s (a.outAt t.k) fOZ16 2 (ys.map (fun e =>
      let ps := rowCodes fOZ16 aux e.1.r
      (idx e.2).map (fun x =>
        (if masked e.1 x.1 then fill16 a
         else rne16 ((val32 x.2).mul (val16 (fnD a.fn (BitVec.ofNat 16 (getAt 0 ps x.1)))))).toNat)))

/-- Drains every tile in order. All that the drains read is read first, so a command that aborts writes no output (R109). -/
def drainAll (s : State) (i : Issuer) (up : ArrayUpset) (a : Acd) (st : Option Stat)
    (tys : List (OutTile × List (OutRow × List Word))) : State × Except CmdEnd Unit :=
  match collect (fun s x => drainRead s i up a x.1) s tys with
  | (s, .error e) => (s, .error e)
  | (s, .ok auxs) => ((List.zip tys auxs).foldl (fun s x => drainTile s i a st x.1.1 x.1.2 x.2) s, .ok ())

/-- The final values drained (R129, R173): a join that is not READY waits, unequal tags abort with TAG_MIX, and the rows
used clear READY. Before anything is written a failed residue makes the command a mismatch (R531). -/
def finish (s : State) (i : Issuer) (up : ArrayUpset) (e : QEntry) (a : Acd) (st : Option Stat) (before : Acc)
    (r0 : List AccRow) (decided : Bool) (tys : List (OutTile × List (OutRow × List Word))) : Run :=
  let c := getCore s i.core
  let rows := (tys.map (fun t => t.1.rows)).flatten
  if a.join && rows.any (fun o => !(joinRow c o.p).ready) then (s, .wait .join)
  else if a.join && rows.any (fun o => (joinRow c o.p).tag != o.tag) then failWith s i .tagMix []
  else
    let (s, again) := if decided then (s, none) else residueOf s i a.op up
    match again with
    | some r => mismatch s i { entry := e, chk := up.chk, op := a.op, before := before, r0 := r0, firstRow := r }
    | none =>
      let tys := tys.map (fun t => (t.1, t.2.map (fun y => (y.1, joinY c a y.1 y.2))))
      match drainAll s i up a st tys with
      | (s, .error x) => (s, x)
      | (s, .ok _) =>
        (if a.join then modCore s i.core (fun c => { c with
           join := rows.foldl (fun j o => setAt j o.p { getAt {} j o.p with ready := false }) c.join }) else s, .done)

/-! ### A product from its checks to its drain -/

/-- The stationary tile becomes active (R71, R73, R54). -/
def setStat (s : State) (i : Issuer) (st : Stat) : State :=
  modCore s i.core (fun c =>
    let c := { c with stat := some st }
    if st.tile.hdr.fmt = fOZ4 then
      { c with chScale := tcells 0 0 (padTo 0 128 st.tile.hdr.scales),
               w4Nan := c.w4Nan || (validCodes st.tile).any (fun r => r.any isNan4) }
    else c)

/-- The streaming operands of a backward command: each stage sealed, its gradient tile, and the quantised rows. -/
def bwdStreams (s : State) (i : Issuer) (up : ArrayUpset) (a : Acd) (st : Stat) :
    State × Except CmdEnd (List (Hdr × List Nat × List Half × List IntRow)) :=
  let h := st.tile.hdr
  collect (fun s k =>
    let ga := a.streamAt k
    match openStage s i up ga (some h) with
    | (s, .error e) => (s, .error e)
    | (s, .ok bs) =>
      let g := parseStage bs
      if h.tileCol < g.c0 || decide (g.nt ≤ h.tileCol - g.c0) then stopWith s i .gstHeader (detailAddr (localOf s ga))
      else
        match stripCol s i g.strip h.tileCol with
        | (s, none) => stopWith s i .scaleStrip (tileDetail s g.strip h.tensorId 0 false)
        | (s, some want) =>
          if want != padTo 0 128 h.scales then stopWith s i .scaleStrip (tileDetail s g.strip h.tensorId 0 false)
          else
            match fetchStage s i up (g.tileAt (h.tileCol - g.c0)) with
            | (s, .error e) => (s, .error e)
            | (s, .ok t) =>
              let tags := g.ents.map (fun e => e.2.1)
              let scales := g.ents.map (fun e => e.1)
              let rows := (List.zip (countFrom 0 t.hdr.rows) (validCodes t)).map (fun x =>
                ({ p := 128 * k + x.1, tag := getAt 0 tags x.1,
                   xs := g8Row want (getAt 0 scales x.1) x.2 } : IntRow))
              (s, .ok (t.hdr, tags, scales, rows))) s (countFrom 0 a.tiles)

/-- Rows of a forward integer product: raw codes in correction mode, `q − z` in subtraction mode (R79). -/
def fwdRows (sub : Bool) (k : Nat) (t : Tile) : List IntRow :=
  (List.zip (countFrom 0 t.hdr.rows) (validCodes t)).map (fun x =>
    let z : Int := (getAt 0 t.hdr.zps x.1 : Nat)
    let qs := x.2.map (fun c => codeVal t.hdr.asym (BitVec.ofNat 8 c))
    { p := 128 * k + x.1, tag := getAt 0 t.hdr.tags x.1, zp := if sub then 0 else z,
      xs := if sub then qs.map (· - z) else qs })

/-- The column sums that correction mode uses, or none where the record fails and the command completes in subtraction
mode (R80, R132). -/
def fetchColsum (s : State) (i : Issuer) (t : Tile) : State × Option (List Int) :=
  match colsumAddrs s i.ptn t.hdr with
  | none => (s, none)
  | some (ra, ca) =>
    match fetch s i (0x3FF * 2 ^ 54 + ra) 256 with
    | (s, none) => (colsumFail s i t.hdr ra, none)
    | (s, some bs) =>
      match fetch s i (0x3FF * 2 ^ 54 + ca) 4 with
      | (s, none) => (colsumFail s i t.hdr ra, none)
      | (s, some cb) =>
        let cs := (halves bs 0 128).map (fun h => signed 16 h.toNat)
        let hk := sumInt ((validCodes t).map (fun r => sumInt (r.map qw)))
        if leNat cb = crc32c bs ∧ sumInt cs = hk then (s, some cs) else (colsumFail s i t.hdr ra, none)

/-- Forms the sums of an integer or OZ16 product whose operands are staged (R79, R84, R85, R132). -/
def formSums (s : State) (i : Issuer) (up : ArrayUpset) (a : Acd) (st : Stat) (tiles : List Tile) : State × Formed :=
  let ks := List.zip (countFrom 0 tiles.length) tiles
  let pack (sub : Bool) := ks.map (fun e => (e.2.hdr, e.2.hdr.tags, e.2.hdr.scales, fwdRows sub e.1 e.2))
  match a.op with
  | 1 =>
    let anyZ := tiles.any (fun t => t.hdr.zps.any (· != 0))
    let mark (s : State) (b : Bool) : State := modCore s i.core (fun c => { c with zpSub := b })
    if !anyZ then (mark s false, formInt s i up a st [] (pack true))
    else if subMode s st.tile.hdr then (mark s true, formInt s i up a st [] (pack true))
    else
      match fetchColsum s i st.tile with
      | (s, some cs) => (mark s false, formInt s i up a st cs (pack false))
      | (s, none) => (mark s true, formInt s i up a st [] (pack true))
  | 3 => (s, formInt s i up a st [] (pack true))
  | _ => (s, formFlt s i up a st tiles)

/-- Whether a routed stationary tile has reached the core (R119): the delivery of the route with this LOAD_SEQ. -/
def routed (c : Core) (a : Acd) : Option Delivery :=
  c.routeIn.find? (fun d => d.route == a.route && d.seq == a.loadSeq)

/-- After the sums: a failed check makes a decision, a command that ends no leaf keeps the accumulator, one that does
drains (R129, R135, R534). `accepted` are the rows of a decision that has ended. -/
def settle (s : State) (i : Issuer) (up : ArrayUpset) (e : QEntry) (a : Acd) (st : Stat)
    (accepted : Option (List AccRow)) (f : Formed) : Run :=
  let before := startAcc (getCore s i.core) a
  let acc := match accepted with
    | some rows => { f.acc with rows := rows }
    | none => f.acc
  match accepted, f.bad with
  | none, some r => mismatch s i { entry := e, chk := up.chk, op := a.op, before := before, r0 := f.acc.rows, firstRow := r }
  | _, _ =>
    if !a.leafEnd then (modCore s i.core (fun c => { c with acc := acc }), .done)
    else
      let n := nValid st.trans st.tile.hdr
      let tys := f.tiles.map (fun t => (t, t.rows.map (fun o => (o, leafY a (some st) acc n o))))
      match finish s i up e a (some st) before acc.rows accepted.isSome tys with
      | (s, .done) => (modCore s i.core (fun c => { c with acc := {} }), .done)
      | r => r

/-- A product with its descriptor checks passed and its stationary tile active. -/
def runProduct (s : State) (i : Issuer) (up : ArrayUpset) (e : QEntry) (a : Acd) (st : Stat) (o : Opnds)
    (accepted : Option (List AccRow)) : Run :=
  if a.op = opBwd then
    andThen (bwdStreams s i up a st) (fun s ts =>
      settle (modCore s i.core (fun c => { c with zpSub := false })) i up e a st accepted (formInt s i up a st [] ts))
  else
    andThen (collect (fun s x => stageFetched s i up x.1 x.2) s
        (List.zip ((countFrom 0 a.tiles).map a.streamAt) o.streams)) (fun s ts =>
      match formSums s i up a st ts with
      | (s, f) => settle s i up e a st accepted f)

/-- The stationary tile of a product staged, then the product (R108, R117, R119). -/
def loadAndRun (s : State) (i : Issuer) (up : ArrayUpset) (e : QEntry) (a : Acd) (o : Opnds)
    (accepted : Option (List AccRow)) : Run :=
  let go (s : State) (t : Tile) : Run :=
    let st : Stat := { tile := t, trans := a.statT, addr := a.stat }
    runProduct (setStat s i st) i up e a st o accepted
  if a.keep then
    match (getCore s i.core).stat with
    | some st => runProduct s i up e a st o accepted
    | none => failWith s i .acdInvalid []
  else if a.route = 0 then
    match o.stat with
    | some f => andThen (stageFetched s i up a.stat f) go
    | none => failWith s i .acdInvalid []
  else
    match routed (getCore s i.core) a with
    | none => (s, .wait (.route a.route a.loadSeq))
    | some d =>
      let drop (s : State) : State := modCore s i.core (fun c => { c with routeIn := c.routeIn.erase d })
      if localOf s d.addr ≠ localOf s a.stat then failWith (drop s) i .routeMismatch (detailAddr (localOf s a.stat))
      else
        match judgeTile d.bytes with
        | .ok t =>
          let s := if up.badRead.contains a.stat then
            modCore s i.core (fun c => { c with crcRetry := satInc 16 c.crcRetry }) else s
          go (drop s) t
        | _ =>
          -- the delivery failed here: one re-read by unicast, which counts where it passes (R109, R121, R142)
          match o.stat with
          | some f => andThen (stageFetched (drop s) i { up with badRead := a.stat :: up.badRead } a.stat f) go
          | none => failWith (drop s) i .acdInvalid []

/-! ### QUANT, COLSUM_BUILD, NODE_ADD -/

/-- The quantisation method of kind 1 (R70) for the command of a core, by the recipe of its start (R388): 2 symmetric, 3 asymmetric;
2 where no recipe names it. -/
def kind1Method (s : State) (n p : Nat) : Nat :=
  let rs := match (getCore s n).under with
    | some u => u.2
    | none => recipeOf s p
  match rs.find? (fun r => r.kind == 1) with
  | some r => r.method
  | none => 2

/-- Scale, zero point and whether the scale was limited, from an amax entry (R139, R67, R68). -/
def quantScale (method : Nat) (ent : List Byte) : Half × Int × Bool :=
  let mx := val16 (BitVec.ofNat 16 (field ent 0 2))
  let mn := val16 (BitVec.ofNat 16 (field ent 2 2))
  let zero : Num := .fin false 0 0
  if method = 3 then
    let lo := Num.minSel zero mn
    let hi := Num.maxSel zero mx
    let (s, lim) := if Num.eqv lo hi then ((0 : Half), false) else limitScale (oz16.div (hi.sub lo) (.fin false 255 0))
    (s, if s = 0 then 0 else max 0 (min 255 (rniQuot lo.neg (val16 s))), lim)
  else
    let (s, lim) := symScale (Num.maxSel mx.abs mn.abs)
    (s, 0, lim)

/-- The code and events of a held value (R139): a held −infinity marks a masked output. -/
def quantCode (method : Nat) (q : Half × Int × Bool) (x : Half) : Int × ConvEvents :=
  let v := val16 x
  match v with
  | .inf _ => (q.2.1, {})
  | .nan => (q.2.1, { nan := 1 })
  | _ =>
    if q.1 = 0 then (q.2.1, {}) else
      let r := rniQuot v (val16 q.1) + q.2.1
      let c := if method = 3 then max 0 (min 255 r) else max (-127) (min 127 r)
      (c, { sat := if q.2.2 && c != r then 1 else 0 })

/-- QUANT (R139): every entry's COUNT first, each entry one item (R348); then one A8 tile for each column tile. -/
def runQuant (s : State) (i : Issuer) (up : ArrayUpset) (e : QEntry) (a : Acd) (o : Opnds) (decided : Bool) : Run :=
  andThen (collect (fun s x => stageFetched s i up x.1 x.2) s
      (List.zip ((countFrom 0 a.tiles).map a.streamAt) o.streams)) (fun s ts =>
    andThen (collect (fun s r => match fetch s i (a.amax + 8 * r) 8 with
        | (s, some eb) => (s, .ok eb)
        | (s, none) => stopWith s i .acdInvalid []) s (countFrom 0 (maxNat (ts.map (fun t => t.hdr.rows))))) (fun s ents =>
      if ents.any (fun x => field x 4 2 != a.ntExpect) then failWith s i .drainCount (detailAddr (localOf s a.amax))
      else
        let (s, again) := if decided then (s, none) else residueOf s i a.op up
        match again with
        | some r => mismatch s i { entry := e, chk := up.chk, op := a.op, firstRow := r,
                                        r0 := (ents.map (fun x => ({ tag := field x 6 2 } : AccRow))) }
        | none =>
          let m := kind1Method s i.core i.ptn
          let qs := ents.map (quantScale m)
          let tags := ents.map (fun x => field x 6 2)
          let one (s : State) (x : Nat × Tile) : State :=
            let cs := (List.zip qs (validCodes x.2)).map (fun y =>
              y.2.map (fun c => quantCode m y.1 (BitVec.ofNat 16 c)))
            let n := x.2.hdr.rows
            let h : Hdr := drainHdr s i.ptn
              { fmt := fA8, kind := 1, asym := m == 3, rows := n, cols := x.2.hdr.cols, tensorId := x.2.hdr.tensorId,
                tileRow := x.2.hdr.tileRow, tileCol := x.2.hdr.tileCol, scales := (qs.map (fun q => q.1)).take n,
                zps := (qs.map (fun q => q.2.1.toNat)).take n, tags := tags.take n }
            let s := putAt s i (a.outAt x.1) (tileBytes h (packRows fA8 (cs.map (fun r => r.map (fun y => (codeByte y.1).toNat)))))
            addEvents s (List.zip tags (cs.map (fun r => r.foldl (fun (acc : ConvEvents) y => acc.add y.2) {})))
          ((List.zip (countFrom 0 ts.length) ts).foldl one s, .done)))

/-- COLSUM_BUILD (R131): the record and its CRC; a record at its own place that reads back counts for the clearing of
the subtraction flag (R133). -/
def runColsum (s : State) (i : Issuer) (up : ArrayUpset) (a : Acd) (o : Opnds) : Run :=
  match o.stat with
  | none => failWith s i .acdInvalid []
  | some f =>
    andThen (stageFetched s i up a.stat f) (fun s t =>
      let bs := colsumBytes (columnSums t)
      let s := putAt (putAt s i a.colsum bs) i a.out (leBytes 4 (crc32c bs))
      let h := t.hdr
      let home := colsumAddrs s i.ptn h == some (localOf s a.colsum, localOf s a.out)
      let back := (fetch s i a.colsum 256).2 == some bs && (fetch s i a.out 4).2 == some (leBytes 4 (crc32c bs))
      let idx := match matrixEnt s i.ptn h.baseId h.tensorId with
        | some e => h.tileRow * e.ntc + h.tileCol
        | none => 0
      (if home && back then
        { s with subf := s.subf.map (fun x => if x.base == h.baseId && x.tensor == h.tensorId then
            { x with rebuilt := insertNat idx x.rebuilt } else x) } else s, .done))

/-- NODE_ADD (R91, R114, R128): RNE32(left + right) of each pair, drained. -/
def runNode (s : State) (i : Issuer) (up : ArrayUpset) (e : QEntry) (a : Acd) (o : Opnds)
    (accepted : Option (List AccRow)) : Run :=
  let idx := countFrom 0 a.tiles
  andThen (collect (fun s x => stageFetched s i up x.1 x.2) s (List.zip (idx.map a.leftAt) o.lefts)) (fun s ls =>
    andThen (collect (fun s x => stageFetched s i up x.1 x.2) s (List.zip (idx.map a.streamAt) o.streams)) (fun s rs =>
      let tys := (List.zip idx (List.zip ls rs)).map (fun x =>
        let t := outTile x.1 x.2.1.hdr x.2.1.hdr.tags []
        let sums := List.zipWith (fun (l r : List Nat) =>
          List.zipWith (fun (u v : Nat) => add32 (BitVec.ofNat 32 u) (BitVec.ofNat 32 v)) l r)
          (validCodes x.2.1) (validCodes x.2.2)
        (t, List.zip t.rows sums))
      let r0 := (tys.map (fun t => t.2.map (fun y => ({ tag := y.1.tag, vals := y.2 } : AccRow)))).flatten
      finish s i up e a none {} r0 accepted.isSome tys))

/-! ### The command as a whole (R113-R116, R631) -/

/-- A tile at an address waits for the verdict of a run-ahead tile that it meets, its first 64 bytes or the length that they give
(R308). -/
def heldTile (s : State) (i : Issuer) (ga : Nat) : Bool :=
  heldAt s (some i.core) ga 64 ||
    (match fetch s i ga 64 with
     | (_, some h) => (match tileLen (rawFmt h) (rawKind h) with
        | some n => heldAt s (some i.core) ga n
        | none => false)
     | (_, none) => false)

/-- A stage record or a gradient tile that a command reads from it waits so: tile `col` of a SEALED stage, every tile of one that is
still to be sealed; `none` gives no tile column. -/
def heldStage (s : State) (i : Issuer) (ga : Nat) (col : Option Nat) : Bool :=
  heldAt s (some i.core) ga 1088 ||
    (match fetch s i ga 64 with
     | (_, some hd) =>
        let g := parseStage hd
        stageOk hd && (countFrom 0 g.nt).any (fun j =>
          (g.state != 2 || col == some (g.c0 + j)) && heldTile s i (g.tileAt j))
     | (_, none) => false)

/-- Some tile that an ACD stages waits for a verdict (R308). -/
def acdHeld (s : State) (i : Issuer) (a : Acd) : Bool :=
  let idx := countFrom 0 a.tiles
  (((a.product && !a.keep) || a.op == opColsum) && heldTile s i a.stat)
    || (a.op == opBwd && idx.any (fun k => heldStage s i (a.streamAt k)
          ((if a.keep then (getCore s i.core).stat.map (fun t => t.tile.hdr)
            else (fetchTile s i a.stat).2.hdr).map Hdr.tileCol)))
    || (a.op != opBwd && a.op != opColsum && idx.any (fun k => heldTile s i (a.streamAt k)))
    || (a.op == opNode && idx.any (fun k => heldTile s i (a.leftAt k)))
    || (a.drain == 5 && idx.any (fun k => heldTile s i (a.preAt k)))

/-- One attempt at an ACD, its checks in the order of R631; staging waits for the verdict of a run-ahead tile (R308). -/
def runAcd (s : State) (up : ArrayUpset) (e : QEntry) (accepted : Option (List AccRow)) : Run :=
  let i := e.issuer
  let a := parseAcd e.desc
  if !descCrcOk e.desc then failWith s i .acdInvalid []
  else if a.epoch ≠ (getCore s i.core).epoch then (s, .stale)
  else if !fieldsOk s i a then failWith s i .acdInvalid []
  else if !s.xf.held.isEmpty && acdHeld s i a then (s, .wait .held)
  else
    match fetchOpnds s i a with
    | (s, o) =>
      if !operandsOk s i a o then failWith s i .acdInvalid []
      else match addrFault s i a o with
      | some c => failWith s i c []
      | none =>
        if rindAbsent s i a o then failWith s i .rindAbsent (detailAddr (localOf s a.stat))
        else if a.product && !a.keep && a.route != 0 && (routed (getCore s i.core) a).isNone then
          (s, .wait (.route a.route a.loadSeq))
        else match (if a.product && a.route != 0 && !a.keep &&
            (match routed (getCore s i.core) a with
             | some d => localOf s d.addr != localOf s a.stat
             | none => false) then none else tagFault s i a o) with
        | some c => failWith s i c []
        | none =>
          match a.op with
          | 5 => runQuant s i up e a o accepted.isSome
          | 6 => runColsum s i up a o
          | 7 => runNode s i up e a o accepted
          | _ => loadAndRun s i up e a o accepted

/-- The end of an attempt at core `n` (R113, R115, R141, R529, R534). -/
def endAcd (n : Nat) (e : QEntry) (r : Run) : State :=
  let op := bits (descWord e.desc 0) 0 8
  let done := bits (descWord e.desc 14) 0 16
  let (s, x) := r
  let clear (s : State) : State := modCore s n (fun c => { c with acdRun := none, acdWait := .none })
  match x with
  | .done => doneAdd (modCore (clear s) n (fun c => { c with lastOp := op })) e.issuer.ptn done .plain
  | .fault c =>
    doneAdd (modCore (clear s) n (fun k => { k with lastOp := op, faultValid := true, fault := c.code })) e.issuer.ptn done .rej
  | .stale => doneAdd (clear s) e.issuer.ptn done .abt
  | .wait w =>
    let s := modCore s n (fun c => { c with acdRun := some e, acdWait := w })
    match w with
    | .seal _ => modCore s n (fun c => { c with sealWaits := satInc 16 c.sealWaits })
    | _ => s

/-- A core may start commands: in service, no decision pending, the governor not in HOLD (R24, R274, R534). -/
def mayStart (s : State) (n : Nat) : Bool := inService s n && (getCore s n).decision.isNone && !s.pwr.hold

/-- The D-array of core `n` starts the command at the head of its queue, where its OP is the one given; a head with a
reserved OP is refused whichever it is (R111, R113). -/
def startAcd (s : State) (n op : Nat) (up : ArrayUpset) : State :=
  let c := getCore s n
  match c.acdQ with
  | [] => s
  | e :: q =>
    let o := bits (descWord e.desc 0) 0 8
    if c.acdRun.isSome || !mayStart s n || (o != op && decide (1 ≤ o) && decide (o ≤ 7)) then s
    else endAcd n e (runAcd (modCore s n (fun c => { c with acdQ := q, acdRun := some e, under := none })) up e none)

/-- FWD_W4A8 (R112, R128, R129). -/
def execFwdW4a8 (core : Nat) (up : ArrayUpset) (s : State) : Out := .next (startAcd s core opFwd up)
/-- BWD_G8W4 (R189-R192). -/
def execBwdG8w4 (core : Nat) (up : ArrayUpset) (s : State) : Out := .next (startAcd s core opBwd up)
/-- MM_A8A8 (R112, R125). -/
def execMmA8a8 (core : Nat) (up : ArrayUpset) (s : State) : Out := .next (startAcd s core opA8 up)
/-- MM_OZ16 (R112, R118, R124, R125, R209). -/
def execMmOz16 (core : Nat) (up : ArrayUpset) (s : State) : Out := .next (startAcd s core opOz16 up)
/-- QUANT (R139). -/
def execQuant (core : Nat) (up : ArrayUpset) (s : State) : Out := .next (startAcd s core opQuant up)
/-- COLSUM_BUILD (R131). -/
def execColsumBuild (core : Nat) (up : ArrayUpset) (s : State) : Out := .next (startAcd s core opColsum up)
/-- NODE_ADD (R114, R128). -/
def execNodeAdd (core : Nat) (up : ArrayUpset) (s : State) : Out := .next (startAcd s core opNode up)

/-! ### Waits that end -/

/-- The command that waits at core `n` is tried again. -/
def retryAcd (s : State) (n : Nat) (up : ArrayUpset) : State :=
  match (getCore s n).acdRun with
  | some e => endAcd n e (runAcd s up e none)
  | none => s

/-- The members that are in service, in ascending order, of a route that the command of core `n` runs under (R119, R120, R388). -/
def routeMembers (s : State) (n p r : Nat) : List Nat :=
  match (routesOf s n p).find? (fun x => x.num == r) with
  | some x => (x.members.foldl (fun acc m => insertNat m acc) []).filter (inService s)
  | none => []

/-- A delivery put at a member, in place of an older one of the same route and LOAD_SEQ. -/
def deliver (s : State) (d : Delivery) (m : Nat) : State :=
  modCore s m (fun c => { c with
    routeIn := c.routeIn.filter (fun x => !(x.route == d.route && x.seq == d.seq)) ++ [d] })

/-- ROUTED_STATIONARY_DELIVERY (R119-R121): the leader, whose command waits for its route, issues its single read;
the bytes go to every member in service, and each that waits for this LOAD_SEQ proceeds. `bad` names the members
whose delivery fails its CRC and which re-read by unicast. -/
def execRoutedStationaryDelivery (core : Nat) (bad : List Nat) (up : ArrayUpset) (s : State) : Out :=
  .next (
    match (getCore s core).acdRun, (getCore s core).acdWait with
    | some e, .route r q =>
      let ms := routeMembers s core e.issuer.ptn r
      let a := parseAcd e.desc
      if ms.head? ≠ some core then s
      else
        match fetchTile s e.issuer a.stat with
        | (s, .tile bs) =>
          let s := forEach ms (fun s m => deliver s { route := r, seq := q, addr := a.stat, bytes := bs } m) s
          forEach ms (fun s m =>
            if (getCore s m).acdWait = .route r q then
              retryAcd s m (if bad.contains m then { up with badRead := a.stat :: up.badRead }
                else if m = core then up else {})
            else s) s
        | (s, _) => s
    | _, _ => s)

end Sys2Proof.Machine
end

