-- ==== Sys2Proof/Machine/Images.lean ====
section
/-! DEFINITION. Adapter images, their entries and panels, staging entries and the Vat window as the engines read them
(spec/05_adapters_and_vat.md R144-R154, R164, spec/06 R206, R207). -/

namespace Sys2Proof.Machine

/-! ### Roles (R145) -/

def roleDown : Nat := 1
def roleUp : Nat := 2
def roleIn : Nat := 3
def roleGate : Nat := 4
def roleOut : Nat := 5
def roleExt : Nat := 6

/-- Panel rows and columns of a role (R145). -/
def panelShape (role k n : Nat) : Nat × Nat :=
  match role with
  | 1 | 6 => (64, min n 32)
  | 2 => (k, 32)
  | _ => (64, 32)

/-! ### Memory under a given key -/

/-- The bytes of HBM or tier 2 at a local address under a key, as an engine reads them. -/
def readUnder (s : State) (key : List Byte) (la n : Nat) : List Byte :=
  match placeOf none la with
  | some p => let a := addrOf p; spoil s a (readKey s key a n)
  | none => List.replicate n 0

/-- Writes HBM or tier 2 at a local address under a key; a range that meets Rind is dropped with RIND_WRITE (R213). -/
def writeUnder (s : State) (key : List Byte) (la : Nat) (bs : List Byte) : State :=
  match placeOf none la with
  | some p =>
    if meetsRind s p bs.length then raise s .rindWrite { kind := .module, detail := detailAddr la }
    else writeKey s key (addrOf p) bs
  | none => s

/-! ### The image (R147-R149) -/

/-- An image's header fields (R147). -/
structure ImgHdr where
  kind : Nat := 0
  n : Nat := 0
  adapter : Nat := 0
  baseId : Nat := 0
  rank : Nat := 0
  len : Nat := 0
deriving DecidableEq, Repr, Inhabited

/-- Reads an image header. -/
def parseImg (bs : List Byte) : ImgHdr :=
  { kind := field bs 1 1, n := field bs 2 2, adapter := field bs 4 3, baseId := field bs 8 2, rank := field bs 0xA 1,
    len := field bs 0xC 4 }

/-- The image header holds by itself: CRC, version, kind, reserved fields (R144, R147). -/
def imgHdrOk (bs : List Byte) : Bool :=
  let h := parseImg bs
  crcTailOk (bs.take 64) 60 && field bs 0 1 == 1 && (h.kind == 1 || h.kind == 2) && decide (1 ≤ h.n)
    && decide (h.n ≤ 4096) && field bs 7 1 == 0 && field bs 0xB 1 == 0 && h.len % 64 == 0
    && allZero (slice bs 0x10 0x2C) && (if h.kind = 1 then decide (1 ≤ h.rank) && decide (h.rank ≤ 64) else h.rank == 0)

/-- An image entry (R148). -/
structure ImgEnt where
  layer : Nat := 0
  sel : Nat := 0
  role : Nat := 0
  k : Nat := 0
  n : Nat := 0
  gamma : Half := 0
  pr : Nat := 1
  pw : Nat := 1
  offset : Nat := 0
  stride : Nat := 0
  npanels : Nat := 0
deriving DecidableEq, Repr, Inhabited

/-- Reads an entry record of 32 bytes. -/
def parseEnt (bs : List Byte) : ImgEnt :=
  { layer := field bs 0 1, sel := field bs 1 1, role := field bs 2 1, k := field bs 4 2 + 1, n := field bs 6 2 + 1,
    gamma := BitVec.ofNat 16 (field bs 8 2), pr := field bs 0xA 1, pw := field bs 0xB 1, offset := field bs 0xC 4,
    stride := field bs 0x10 4, npanels := field bs 0x14 4 }

/-- Panels along K and along N. -/
def ImgEnt.kp (e : ImgEnt) : Nat := ceilDiv e.k e.pr
def ImgEnt.np (e : ImgEnt) : Nat := ceilDiv e.n e.pw

/-- ENTRY_CRC and the fields of R148 hold. -/
def entOk (bs : List Byte) : Bool :=
  let e := parseEnt bs
  crcTailOk (bs.take 32) 28 && field bs 3 1 == 0 && field bs 0x18 4 == 0 && decide (1 ≤ e.role) && decide (e.role ≤ 6)
    && (e.pr, e.pw) == panelShape e.role e.k e.n && (e.role == 2 || e.gamma == 0) && e.offset % 64 == 0
    && e.stride == 64 + alignUp (2 * e.pr * e.pw) 64 && e.npanels == e.kp * e.np
    && (match e.role with
        | 1 => decide (e.n ≤ 64) && decide (e.sel < 256)
        | 2 => decide (e.k ≤ 64)
        | 3 | 4 | 5 => decide (e.sel < 64)
        | _ => e.sel == 0 && decide (e.n ≤ 64))

/-- The index of panel (row `kr`, column chunk `nc`) in the entry's storage order (R148). -/
def ImgEnt.panel (e : ImgEnt) (kr nc : Nat) : Nat := nc * e.kp + kr

/-- The offset of panel `p` from the image start. -/
def ImgEnt.panelOff (e : ImgEnt) (p : Nat) : Nat := e.offset + p * e.stride

/-- PANEL_CRC holds over a panel's bytes (R149). -/
def panelCrcOk (bs : List Byte) : Bool := field bs 0x3C 4 == crc32c (patch bs 0x3C [0, 0, 0, 0])

/-- A panel's header names its owner, role and place as the entry does (R150). -/
def panelMatches (bs : List Byte) (owner : Nat) (e : ImgEnt) : Bool :=
  field bs 1 1 == e.role && field bs 2 1 == e.pr && field bs 3 1 == e.pw && field bs 4 2 == owner
    && field bs 6 1 == e.layer && field bs 7 1 == e.sel

/-- The PR × PW values of a panel, row by row. -/
def panelRows (bs : List Byte) (e : ImgEnt) : List (List Half) :=
  chunks e.pw e.pr (halves bs 64 (e.pr * e.pw))

/-! ### Staging (R164) -/

/-- A staging entry (R164). -/
structure StgEnt where
  state : Nat := 0
  owner : Nat := 0
  slot : Nat := 0
  gen : Nat := 0
  kind : Nat := 0
  image : Nat := 0
  len : Nat := 0
  adapter : Nat := 0
deriving DecidableEq, Repr, Inhabited

/-- Reads a staging entry. -/
def parseStg (bs : List Byte) : StgEnt :=
  { state := bits (field bs 0 2) 0 2, owner := field bs 2 2, slot := field bs 4 2, gen := field bs 6 1,
    kind := field bs 7 1, image := field bs 8 8, len := field bs 0x10 4, adapter := field bs 0x14 3 }

/-- The 32 bytes of a staging entry (R164). -/
def stgBytes (e : StgEnt) : List Byte :=
  withCrcTail (slice (leBytes 2 e.state ++ leBytes 2 e.owner ++ leBytes 2 e.slot ++ leBytes 1 e.gen ++ leBytes 1 e.kind
    ++ leBytes 8 e.image ++ leBytes 4 e.len ++ leBytes 3 e.adapter) 0 32) 28

/-- ENTRY_CRC holds; an entry of zeros is EMPTY. -/
def stgOk (bs : List Byte) : Bool := allZero bs || crcTailOk (bs.take 32) 28

/-- The staging window of a partition (R164, R370). -/
def stagingWin (s : State) (p : Nat) : Option Win := (ptnWins s p).find? (fun w => w.type == .staging)

/-- The local address of a partition's staging table. -/
def stagingAddr (s : State) (p : Nat) : Option Nat := (stagingWin s p).map (fun w => addrOf (w.mem, w.base))

/-- Staging entry `k` of a partition, its bytes. -/
def readStg (s : State) (p k : Nat) : List Byte :=
  match stagingWin s p with
  | some w => readWin s p w (32 * k) 32
  | none => []

/-- Writes staging entry `k`. -/
def writeStg (s : State) (p k : Nat) (e : StgEnt) : State :=
  match stagingWin s p with
  | some w => writeKey s (classKey s p w) (addrOf (w.mem, w.base + 32 * k)) (stgBytes e)
  | none => s

/-- The address range lies inside the partition's staging window. -/
def inStaging (s : State) (p la n : Nat) : Bool :=
  match stagingWin s p, placeOf none la with
  | some w, some pl => w.has pl && (n == 0 || w.has (pl.1, pl.2 + (n - 1)))
  | _, _ => false

/-- An item of `n` bytes that a staging entry names lies in one slice, inside the partition's staging window (R343, R629). -/
def stgItem (s : State) (p la n : Nat) : Bool :=
  match placeOf none la, placeOf none (la + (n - 1)) with
  | some a, some b => a.1 == b.1 && a.2 / 2 ^ 36 == b.2 / 2 ^ 36 && inStaging s p la n
  | _, _ => false

/-- Bytes of a staged image from offset `off`, under its owner's key (R165, R518). -/
def readImg (s : State) (g : StgEnt) (off n : Nat) : List Byte :=
  readUnder s (ctxKey s (tagCtx g.owner)) (g.image + off) n

/-- The entries of a staged image whose records hold. -/
def imgEnts (s : State) (g : StgEnt) : List ImgEnt :=
  let n := (parseImg (readImg s g 0 64)).n
  let bs := readImg s g 64 (32 * n)
  ((chunks 32 n bs).filter entOk).map parseEnt

/-- The entry of a staged image for (LAYER, SEL, ROLE) (R170). -/
def findEnt (s : State) (g : StgEnt) (layer sel role : Nat) : Option ImgEnt :=
  (imgEnts s g).find? (fun e => e.layer == layer && e.sel == sel && e.role == role)

/-! ### The Vat window (R151, R152) -/

/-- Local addresses of the Vat's tables. -/
def vatId (s : State) (id : Nat) : Nat := s.vat.base + 4 * id
def vatSlot (s : State) (k : Nat) : Nat := 0x04000000 + s.vat.base + 64 * k
def vatExp (s : State) (p layer idx : Nat) : Nat := 0x04400000 + s.vat.base + ((p * 256 + layer) * 256 + idx) * 4

/-- The key of the Vat's own tables: the module key (R154); in open house its one key (R389). -/
def vatKey (s : State) : List Byte := (s.keys.openHouse).getD []

/-- An expert index table entry: LOCAL and SLOT where it is valid; `none` where it is invalid or its reserved bits are
not zero (R152, R154). -/
def expertAt (s : State) (p layer idx : Nat) : Option (Nat × Nat) :=
  let w := leNat (readUnder s (vatKey s) (vatExp s p layer idx) 4)
  if bitOf w 31 && !bitOf w 30 && bits w 16 8 == 0 then some (bits w 24 6, bits w 0 16) else none

/-! ### Gradient panels (R207, R217) -/

/-- The sum of squares of a panel's or a tile's values: ascending chains over leaves of 4,096 elements, joined by the tree (R98, R217).
A panel is one leaf; a tile of 128 × 128 values has four. -/
def sqSum (vs : List Word) : Word := sqNorm vs

/-- A gradient panel (R207). -/
def gradPanel (e : ImgEnt) (owner adapter kr nc rows lesson : Nat) (vs : List Word) : List Byte :=
  let body := (vs.map (fun v => leBytes 4 v.toNat)).flatten
  let hd := leBytes 1 1 ++ leBytes 1 e.role ++ leBytes 1 e.pr ++ leBytes 1 e.pw ++ leBytes 2 owner ++ leBytes 1 e.layer
    ++ leBytes 1 e.sel ++ leBytes 3 adapter ++ leBytes 1 0 ++ leBytes 2 kr ++ leBytes 2 nc ++ leBytes 4 rows
    ++ leBytes 4 (sqSum vs).toNat ++ leBytes 4 lesson
  let bs := slice hd 0 64 ++ slice body 0 (alignUp (4 * e.pr * e.pw) 64)
  patch bs 0x3C (leBytes 4 (crc32c bs))

end Sys2Proof.Machine
end

