-- ==== Sys2Proof/Machine/WArray.lean ====
section
/-! DEFINITION. The W-array (spec/05_adapters_and_vat.md R167-R174, spec/06_twin_array_backward.md R199-R207): W-array
command descriptors, row maps, adapter products forward and backward, gradient accumulation, and the waits that end.
Readings and choices: log 26, 36, 37, 38, 39, 139, 144. -/

namespace Sys2Proof.Machine

/-! ### The descriptor (R168) -/

/-- The fields of a WCD. -/
structure Wcd where
  op : Nat := 0
  drain : Nat := 0
  accIn : Bool := false
  leafEnd : Bool := false
  rsvd : Bool := true
  epoch : Nat := 0
  fn : Nat := 0
  ptn : Nat := 0
  role : Nat := 0
  layer : Nat := 0
  sel : Nat := 0
  tiles : Nat := 0
  doneSem : Nat := 0xFFFF
  kFirst : Nat := 0
  kCount : Nat := 0
  stream : Nat := 0
  rowmap : Nat := 0
  out : Nat := 0
  stg : Nat := 0
  streamStride : Nat := 0
  outStride : Nat := 0
  nFirst : Nat := 0
  nCount : Nat := 0
deriving DecidableEq, Repr, Inhabited

/-- Reads a WCD (R168); `rsvd` says that its reserved fields are zero. -/
def parseWcd (d : List Byte) : Wcd :=
  let w := descWord d
  { op := bits (w 0) 0 8, drain := bits (w 0) 8 3, accIn := bitOf (w 0) 11, leafEnd := bitOf (w 0) 12,
    rsvd := bits (w 0) 13 3 == 0 && bits (w 1) 6 2 == 0 && bits (w 2) 8 8 == 0 && w 14 == 0,
    epoch := bits (w 0) 16 8, fn := bits (w 0) 24 8, ptn := bits (w 1) 0 6, role := bits (w 1) 8 8,
    layer := bits (w 1) 16 8, sel := bits (w 1) 24 8, tiles := bits (w 2) 0 8, doneSem := bits (w 2) 16 16,
    kFirst := bits (w 3) 0 16, kCount := bits (w 3) 16 16, stream := field d 16 8, rowmap := field d 24 8,
    out := field d 32 8, stg := field d 40 8, streamStride := bits (w 12) 0 16, outStride := bits (w 12) 16 16,
    nFirst := bits (w 13) 0 16, nCount := bits (w 13) 16 16 }

def Wcd.streamAt (w : Wcd) (k : Nat) : Nat := w.stream + k * w.streamStride * 64
def Wcd.outAt (w : Wcd) (k : Nat) : Nat := w.out + k * w.outStride * 64
def Wcd.mapAt (w : Wcd) (k : Nat) : Nat := w.rowmap + 320 * k

def opWfwd : Nat := 1
def opWdata : Nat := 2
def opWgrad : Nat := 3

/-- Drains permitted (R169, R201, R202). -/
def wDrainFits (op role drain : Nat) : Bool :=
  drain == 0 ||
  match op, role with
  | 1, 1 | 1, 3 | 1, 6 => drain == 1 || drain == 2
  | 1, 2 => drain == 2 || drain == 3
  | 1, 4 => drain == 2 || drain == 4
  | 1, _ => drain == 2
  | 2, 2 | 2, 5 => drain == 1 || drain == 2
  | 2, 1 => drain == 2 || drain == 3
  | 2, _ => drain == 2
  | _, _ => drain == 2

/-- Field checks that need no operand (R169, R205); roles 2-5 have panels of 32 columns (R145). -/
def wFieldsOk (i : Issuer) (w : Wcd) : Bool :=
  w.rsvd && decide (1 ≤ w.op) && decide (w.op ≤ 3) && decide (w.drain ≤ 4) && decide (1 ≤ w.tiles) && decide (w.tiles ≤ 4)
    && w.ptn == i.ptn && decide (1 ≤ w.role) && decide (w.role ≤ 6) && decide (1 ≤ w.kCount) && decide (w.kCount ≤ 64)
    && (!(decide (2 ≤ w.role) && decide (w.role ≤ 5)) || decide (w.nCount * 32 ≤ 128))
    && fnDefined w.fn && wDrainFits w.op w.role w.drain && (w.drain != 0) == w.leafEnd
    && (w.fn == 0 || (w.op == opWfwd && (w.drain == 1 || w.drain == 4)))
    && (w.op != opWgrad || w.out % 64 == 0) && (w.role != 6 || w.sel == 0)

/-! ### Row maps and selection (R167, R170, R171) -/

/-- A selected row: its accumulator row, tag, staging index, and its place in its tile. -/
structure SelRow where
  p : Nat := 0
  tile : Nat := 0
  r : Nat := 0
  tag : Nat := 0
  stg : Nat := 0
deriving DecidableEq, Repr, Inhabited

/-- What a staging index resolves to: its staging entry and the image's entry. -/
structure Resolved where
  stg : Nat := 0
  ent : StgEnt := {}
  img : ImgEnt := {}
deriving DecidableEq, Repr, Inhabited

/-- The map entries of a row map whose CRC and reserved bytes hold (R167). -/
def parseMap (bs : List Byte) : Option (List Nat) :=
  if field bs 0x100 4 == crc32c (bs.take 256) && allZero (slice bs 0x104 60) then
    some ((halves bs 0 128).map BitVec.toNat) else none

/-- A map entry's form: VALID 0 holds 0, reserved bits are 0. -/
def mapEntOk (e : Nat) : Bool := e == 0 || (bitOf e 15 && bits e 12 3 == 0)

/-- A row tile as a W-array command sees it: its number and its header. -/
abbrev RowTile := Nat × Hdr

/-- Reads the row map of a row tile (R170): its entries, or none where the map fails its checks. -/
def readMap (s : State) (i : Issuer) (w : Wcd) (t : RowTile) : State × Option (List Nat) :=
  match fetch s i (w.mapAt t.1) 320 with
  | (s, none) => (s, none)
  | (s, some bs) =>
    (s, (parseMap bs).filter (fun es => es.all mapEntOk && (es.drop t.2.rows).all (· == 0)))

/-- Reads the row maps of the row tiles. -/
def readMaps (s : State) (i : Issuer) (w : Wcd) : List RowTile → State × List (Option (List Nat))
  | [] => (s, [])
  | t :: ts =>
    match readMap s i w t with
    | (s, m) => match readMaps s i w ts with
      | (s, ms) => (s, m :: ms)

/-- The map of the first row tile whose map fails its checks, or the cures of the maps' first reads counted (R109, R170). -/
def judgeMaps (s : State) (i : Issuer) (up : ArrayUpset) (w : Wcd) (ts : List RowTile) (maps : List (Option (List Nat))) :
    State × Except CmdEnd Unit :=
  match (List.zip ts maps).find? (fun e => e.2.isNone) with
  | some e => stopWith s i .adapterEntry (detailAddr (localOf s (w.mapAt e.1.1)))
  | none => (forEach (ts.filter (fun t => up.badRead.contains (w.mapAt t.1)))
      (fun s _ => modCore s i.core (fun c => { c with crcRetry := satInc 16 c.crcRetry })) s, .ok ())

/-- The rows whose map entry is VALID. -/
def mappedRows (ts : List RowTile) (maps : List (List Nat)) : List SelRow :=
  ((List.zip ts maps).map (fun e =>
    ((countFrom 0 e.1.2.rows).filterMap (fun r =>
      let m := getAt 0 e.2 r
      if bitOf m 15 then some { p := 128 * e.1.1 + r, tile := e.1.1, r := r, tag := getAt 0 e.1.2.tags r,
                                stg := bits m 0 12 : SelRow } else none)))).flatten

/-- The local expert number of a command for a staging entry, or the fault of R170. -/
def localSel (s : State) (i : Issuer) (w : Wcd) (g : StgEnt) : Except FaultCode Nat :=
  if w.role == 3 || w.role == 4 || w.role == 5 then
    match expertAt s i.ptn w.layer w.sel with
    | some (l, slot) => if slot == g.slot then .ok l else .error .tagMix
    | none => .error .tagMix
  else .ok w.sel

/-- The header and the entry table of a staged image lie where they may be read (R629). -/
def imgInside (s : State) (i : Issuer) (g : StgEnt) : Bool :=
  stgItem s i.ptn g.image 64 && stgItem s i.ptn (g.image + 64) (32 * (parseImg (readImg s g 0 64)).n)

/-- Resolves one row (R170): the fault, or its resolution; none for a row of roles 1-2 whose image has no entry. -/
def resolveRow (s : State) (i : Issuer) (w : Wcd) (x : SelRow) : Except FaultCode (Option Resolved) :=
  let b := readStg s i.ptn x.stg
  let g := parseStg b
  if !tagValid x.tag then .error .tagMix
  else if !stgOk b || g.state != 2 then .error .adapterEntry
  else if tagCtx x.tag != tagCtx g.owner || !tagValid g.owner then .error .tagMix
  else
    match localSel s i w g with
    | .error c => .error c
    | .ok sel =>
      if !imgInside s i g then .error .adapterEntry else
      match findEnt s g w.layer sel w.role with
      | some e => .ok (some { stg := x.stg, ent := g, img := e })
      | none => if w.role == 1 || w.role == 2 then .ok none else .error .adapterEntry

/-- What a row resolves to. -/
abbrev RowRes := Except FaultCode (Option Resolved)

/-- Resolves the rows in order, each staging index once for the rows of one tag. -/
def resolveAll (s : State) (i : Issuer) (w : Wcd) : List SelRow → List (Nat × Nat × RowRes) → List (SelRow × RowRes)
  | [], _ => []
  | x :: xs, seen =>
    let r : RowRes :=
      match seen.find? (fun e => e.1 == x.stg && e.2.1 == x.tag) with
      | some e => e.2.2
      | none => resolveRow s i w x
    (x, r) :: resolveAll s i w xs ((x.stg, x.tag, r) :: seen)

/-- The rows that resolve to an entry: the selected rows (R171). -/
def selectedRows (rs : List (SelRow × RowRes)) : List (SelRow × Resolved) :=
  rs.filterMap (fun e => match e.2 with
    | .ok (some y) => some (e.1, y)
    | _ => none)

/-- The fault of the first row that has one (R170). -/
def rowFault (rs : List (SelRow × RowRes)) : Option FaultCode :=
  rs.findSome? (fun e => match e.2 with
    | .error c => some c
    | _ => none)

/-- The distinct resolutions of the selected rows in ascending STG (R171). -/
def distinctStg (rs : List (SelRow × Resolved)) : List Resolved :=
  rs.foldl (fun acc e => if acc.any (fun x => x.stg == e.2.stg) then acc
    else insertBy Resolved.stg e.2 acc) []

/-- The entry's ranges that a command names fit the entry and the array (R169). -/
def rangesOk (w : Wcd) (e : ImgEnt) : Bool :=
  decide (w.kFirst + w.kCount ≤ e.kp) && decide (w.nCount * e.pw ≤ 128)

/-- The panels of a command's ranges, one list of values (K range by N range) for an entry: absent panels and the parts
beyond the entry count +0. A panel outside the staging window is ADAPTER_ENTRY (R629); the owner's check, which rejects the command before
any product, comes before the checksum, TILE_CRC (R150). -/
def loadPanels (s : State) (i : Issuer) (up : ArrayUpset) (w : Wcd) (x : Resolved) :
    State × Except CmdEnd (Resolved × List (List Half)) :=
  let e := x.img
  let ks := countFrom w.kFirst w.kCount
  let ns := (countFrom w.nFirst w.nCount)
  let one (s : State) (kr nc : Nat) : State × Except CmdEnd (List (List Half)) :=
    if nc < e.np ∧ kr < e.kp then
      let off := e.panelOff (e.panel kr nc)
      let bs := readImg s x.ent off e.stride
      let la := x.ent.image + off
      if !stgItem s i.ptn la e.stride then stopWith s i .adapterEntry (detailAddr la)
      else if !panelMatches bs x.ent.owner e then stopWith s i .tagMix (detailAddr la)
      else if !panelCrcOk bs then stopWith s i .tileCrc (tileDetail s la 0 3 true)
      else (if up.badRead.contains la then modCore s i.core (fun c => { c with crcRetry := satInc 16 c.crcRetry }) else s,
        .ok (panelRows bs e))
    else (s, .ok (List.replicate e.pr (List.replicate e.pw 0)))
  match collect (fun s kr => collect (fun s nc => one s kr nc) s ns) s ks with
  | (s, .error c) => (s, .error c)
  | (s, .ok blocks) =>
    -- rows of a panel row: the chunks side by side
    (s, .ok (x, (blocks.map (fun row =>
      (countFrom 0 e.pr).map (fun r => (row.map (fun p => getAt [] p r)).flatten))).flatten))

/-! ### Streaming operands -/

/-- A row of a kind-1 tile as OZ16 (R145): A8 is widened, OZ16 taken as held. -/
def widenRow (t : Tile) (r : Nat) : List Half :=
  let cs := (rowCodes t.hdr.fmt t.payload r).take t.hdr.cols
  if t.hdr.fmt = fA8 then
    cs.map (fun c => rne16 (dequant (getAt 0 t.hdr.scales r) (codeVal t.hdr.asym (BitVec.ofNat 8 c)) (getAt 0 t.hdr.zps r : Nat)))
  else cs.map (BitVec.ofNat 16)

/-- The elements of a row that meet indices `first` … `first + n − 1` of a dimension: the row tile holds one block of
128 of it, at `index mod 128`; what lies beyond the block is +0. -/
def blockSlice (first n : Nat) (xs : List Half) : List Half :=
  let o := first % 128
  padTo 0 n (((padTo 0 128 xs).drop o).take n)

/-- The K range of a streaming row (R168, R171): where it goes past the row tile's block of 128, it meets values that no
rule gives. -/
def streamSlice (first n : Nat) (xs : List Half) : List Half :=
  let k := min n (128 - first % 128)
  blockSlice first k xs ++ (countFrom (first % 128 + k) (n - k)).map (Config.beyondTile xs)

/-- A W-array product of one command, as rows over columns: each row with its operands and its columns. -/
structure WRow where
  p : Nat := 0
  tag : Nat := 0
  xs : List Half := []
  cols : List (List Half) := []
deriving DecidableEq, Repr, Inhabited

/-- One W-array row over its panels (R85, R89, R530). -/
def wRow (up : ArrayUpset) (before : AccRow) (x : WRow) : AccRow × Bool :=
  let (h, hAbs, fin) := fltCheckCol x.cols
  fltRow up x.cols h hAbs fin before { p := x.p, tag := x.tag, xs := x.xs }

/-! ### Drains (R172, R201) -/

/-- What the drain of a row needs: its tag, whether it was selected, γ of its entry, and its accumulator values. -/
structure WOut where
  p : Nat := 0
  r : Nat := 0
  tag : Nat := 0
  sel : Bool := false
  gamma : Half := 0
  ys : List Word := []
deriving DecidableEq, Repr, Inhabited

/-- The header of a W-array output tile (R630). -/
def wHdr (s : State) (i : Issuer) (h : Hdr) (fmt kind cols : Nat) : Hdr :=
  drainHdr s i.ptn { fmt := fmt, kind := kind, rows := h.rows, cols := cols, tileRow := h.tileRow, tags := tags128 h }

/-- γ × y rounded once. -/
def gammaMul (g : Half) (y : Word) : Word := rne32 ((val16 g).mul (val32 y))

/-- What the drain of a row tile reads before anything is written: the held u of a GATE drain (R109, R172). -/
def wDrainRead (s : State) (i : Issuer) (up : ArrayUpset) (w : Wcd) (k : Nat) : State × Except CmdEnd (List Byte) :=
  if w.drain = 4 then
    match fetchStage s i up (w.outAt k) with
    | (s, .error e) => (s, .error e)
    | (s, .ok u) =>
      if u.hdr.fmt != fOZ16 then stopWith s i .tileHeader (tileDetail s (w.outAt k) u.hdr.tensorId u.hdr.kind false)
      else (s, .ok u.payload)
  else (s, .ok [])

/-- Drains one row tile of a WFWD or WBWD_DATA command (R172, R201); `shift` is where the command's first column lies in
a block of 128 of the joined tile, `aux` what `wDrainRead` gave. -/
def wDrain (s : State) (i : Issuer) (w : Wcd) (h : Hdr) (k cols shift : Nat) (rows : List WOut) (aux : List Byte) : State :=
  let kind := if w.op = opWfwd then 1 else 2
  let wr (s : State) (fmt kind : Nat) (rs : List (List Nat)) : State :=
    putAt s i (w.outAt k) (tileBytes (wHdr s i h fmt kind cols) (packRows fmt (rs.map (fun r => r.take cols))))
  match w.drain with
  | 1 =>
    wr s fOZ16 kind (rows.map (fun o => o.ys.map (fun y =>
      if !o.sel then 0
      else if w.op = opWfwd then (fnF w.fn (narrow32 y)).toNat
      else if w.role = 2 then (rne16 ((val16 o.gamma).mul (val32 y))).toNat
      else (narrow32 y).toNat)))
  | 2 => wr s fOZ32 kind (rows.map (fun o => o.ys.map (fun y => if o.sel then y.toNat else 0)))
  | 3 =>
    let row (o : WOut) : JoinRow :=
      let vs := if !o.sel then [] else o.ys.map (fun y => if w.op = opWfwd then gammaMul o.gamma y else y)
      { ready := true, tag := o.tag, vals := (padTo 0 128 (List.replicate shift 0 ++ vs)).take 128 }
    modCore s i.core (fun c => { c with
      join := rows.foldl (fun j o => setAt j o.p (row o)) (padTo {} 512 c.join) })
  | _ =>
    wr s fOZ16 1 (rows.map (fun o =>
      let us := rowCodes fOZ16 aux o.r
      (List.zip (countFrom 0 o.ys.length) o.ys).map (fun e =>
        if !o.sel then 0
        else (rne16 ((val16 (fnF w.fn (BitVec.ofNat 16 (getAt 0 us e.1)))).mul (val16 (narrow32 e.2)))).toNat)))

/-- Drains every row tile in order. All that the drains read is read first, so a command that aborts writes no output (R109). -/
def wDrainAll (s : State) (i : Issuer) (up : ArrayUpset) (w : Wcd) (cols shift : Nat)
    (outs : List (RowTile × List WOut)) : State × Except CmdEnd Unit :=
  match collect (fun s x => wDrainRead s i up w x.1.1) s outs with
  | (s, .error e) => (s, .error e)
  | (s, .ok auxs) =>
    ((List.zip outs auxs).foldl (fun s x => wDrain s i w x.1.1.2 x.1.1.1 cols shift x.1.2 x.2) s, .ok ())

/-! ### Forward and data-gradient commands -/

/-- The rows of the accumulator of all stored rows of the row tiles. -/
def wPlace (ts : List RowTile) (before : List AccRow) (rows : List AccRow) (ps : List Nat) : List AccRow :=
  placeRows (ts.map (fun t => t.2.tags)) { rows := before } rows ps

/-- Whether the chain covers panel rows 0 to the end of this command's range (R169). -/
def coverNow (c : Core) (w : Wcd) : Option Nat :=
  if !w.accIn then (if w.kFirst = 0 then some w.kCount else none)
  else match c.wcover with
    | some n => if n = w.kFirst then some (n + w.kCount) else none
    | none => none

/-- A WFWD or WBWD_DATA command with its rows resolved and its panels loaded: accumulate, check, drain. -/
def wProduct (s : State) (i : Issuer) (up : ArrayUpset) (e : QEntry) (w : Wcd) (ts : List RowTile)
    (sel : List (SelRow × Resolved)) (rows : List WRow) (accepted : Option (List AccRow)) : Run :=
  let c := getCore s i.core
  let before := if w.accIn then c.wacc else []
  let res := rows.map (fun x => wRow up (accRow before x.p) x)
  let acc := match accepted with
    | some r => r
    | none => wPlace ts before (res.map Prod.fst) (rows.map WRow.p)
  match accepted, firstBad res (rows.map WRow.p) with
  | none, some r => mismatch s i { wcd := true, entry := e, chk := up.chk, op := w.op, before := { rows := before }, r0 := acc, firstRow := r }
  | _, _ =>
    let (s, again) := if accepted.isSome || !w.leafEnd then (s, none) else residueOf s i w.op up
    match again with
    | some r => mismatch s i { wcd := true, entry := e, chk := up.chk, op := w.op, before := { rows := before }, r0 := acc, firstRow := r }
    | none =>
      if !w.leafEnd then
        (modCore s i.core (fun k => { k with
          wacc := acc, wcover := coverNow c w,
          wleaf := (if w.accIn then c.wleaf else 0)
            + (if w.op = opWfwd then w.kCount else maxNat (sel.map (fun x => w.nCount * x.2.img.pw))) }), .done)
      else
        let width (x : Resolved) : Nat := if w.op = opWfwd
          then min (w.nCount * x.img.pw) (x.img.n - w.nFirst * x.img.pw)
          else min (w.kCount * x.img.pr) (x.img.k - w.kFirst * x.img.pr)
        let cols := if sel.isEmpty then 128 else max 1 (min 128 (maxNat (sel.map (fun x => width x.2))))
        let shift := maxNat (sel.map (fun x =>
          (if w.op = opWfwd then w.nFirst * x.2.img.pw else w.kFirst * x.2.img.pr) % 128))
        let outs := ts.map (fun t => (t, (countFrom 0 t.2.rows).map (fun r =>
          let p := 128 * t.1 + r
          match sel.find? (fun x => x.1.p == p) with
          | some x => ({ p := p, r := r, tag := getAt 0 t.2.tags r, sel := true, gamma := x.2.img.gamma,
                         ys := (accRow acc p).vals.take cols } : WOut)
          | none => { p := p, r := r, tag := getAt 0 t.2.tags r, ys := List.replicate cols 0 })))
        let ready := w.drain == 3 && outs.any (fun o => o.2.any (fun r => (joinRow c r.p).ready))
        if ready then (s, .wait .join)
        else
          match wDrainAll s i up w cols shift outs with
          | (s, .error x) => (s, x)
          | (s, .ok _) => (modCore s i.core (fun k => { k with wacc := [], wleaf := 0, wcover := none }), .done)

/-- Rows of a WFWD command: x̂ over the K range, one column for each entry column of the N range. -/
def fwdWRows (w : Wcd) (ts : List Tile) (sel : List (SelRow × Resolved)) (panels : List (Resolved × List (List Half))) :
    List WRow :=
  sel.filterMap (fun x =>
    match panels.find? (fun p => p.1.stg == x.2.stg), ts[x.1.tile]? with
    | some p, some t =>
      let e := x.2.img
      let xs := streamSlice (w.kFirst * e.pr) (w.kCount * e.pr) (widenRow t x.1.r)
      some { p := x.1.p, tag := x.1.tag, xs := xs, cols := transpose 0 (w.nCount * e.pw) p.2 }
    | _, _ => none)

/-- Rows of a WBWD_DATA command: the incoming gradient over the N range, one column for each row of the K range
(R201: each panel is loaded transposed). -/
def dataWRows (w : Wcd) (ts : List Tile) (sel : List (SelRow × Resolved)) (panels : List (Resolved × List (List Half))) :
    List WRow :=
  sel.filterMap (fun x =>
    match panels.find? (fun p => p.1.stg == x.2.stg), ts[x.1.tile]? with
    | some p, some t =>
      let e := x.2.img
      let gs := (rowCodes fOZ16 t.payload x.1.r).map (BitVec.ofNat 16)
      some { p := x.1.p, tag := x.1.tag, xs := blockSlice (w.nFirst * e.pw) (w.nCount * e.pw) gs,
             cols := p.2.take 128 }
    | _, _ => none)

/-! ### Gradient accumulation (R202-R207) -/

/-- The accumulation of a staging entry, or a new one. -/
def gradOf (gs : List GradAcc) (x : Resolved) : GradAcc :=
  (gs.find? (fun g => g.stg == x.stg)).getD { stg := x.stg, owner := x.ent.owner }

/-- Adds a full block of row pairs to the sums (R85, R203): element (m, n) takes the block's exact sum. -/
def gradBlock (vals : List (List Word)) (as bs : List (List Half)) (kn nn : Nat) : List (List Word) :=
  (countFrom 0 kn).map (fun m =>
    (countFrom 0 nn).map (fun n =>
      leafFrom (getAt 0 (getAt [] vals m) n) (as.map (fun r => getAt 0 r m)) (bs.map (fun r => getAt 0 r n))))

/-- A row pair joins the open block of its entry; 32 of them close it (R203). -/
def gradPush (kn nn : Nat) (g : GradAcc) (a b : List Half) : GradAcc :=
  let g := { g with blockA := g.blockA ++ [a], blockB := g.blockB ++ [b], count := g.count + 1 }
  if g.blockA.length = blockLen then
    { g with vals := gradBlock g.vals g.blockA g.blockB kn nn, blockA := [], blockB := [] }
  else g

/-- The open block padded with zero pairs at LEAF_END (R83, R203). -/
def gradClose (kn nn : Nat) (g : GradAcc) : GradAcc :=
  if g.blockA.isEmpty then g
  else { g with vals := gradBlock g.vals g.blockA g.blockB kn nn, blockA := [], blockB := [] }

/-- Puts an accumulation back in its place. -/
def gradPut (gs : List GradAcc) (g : GradAcc) : List GradAcc :=
  if gs.any (fun x => x.stg == g.stg) then gs.map (fun x => if x.stg == g.stg then g else x)
  else insertBy GradAcc.stg g gs

/-- The extents of an entry's accumulation in a command's ranges. -/
def gradExt (w : Wcd) (e : ImgEnt) : Nat × Nat := (w.kCount * e.pr, w.nCount * e.pw)

/-- Where panel (row, chunk) of a gradient goes (R206): O past the staged image, at twice its offset in the image. -/
def gradAddr (w : Wcd) (x : Resolved) (kr nc : Nat) : Nat :=
  x.ent.image + x.ent.len + w.out + 2 * x.img.panelOff (x.img.panel kr nc)

/-- The panels of a command's ranges that the entry holds. -/
def gradPanels (w : Wcd) (e : ImgEnt) : List (Nat × Nat) :=
  ((countFrom w.nFirst w.nCount).map (fun nc => (countFrom w.kFirst w.kCount).map (fun kr => (kr, nc)))).flatten.filter
    (fun p => decide (p.1 < e.kp) && decide (p.2 < e.np))

/-- Writes the gradient panels of an accumulation under its owner's key (R206, R207). -/
def gradWrite (s : State) (i : Issuer) (w : Wcd) (x : Resolved) (g : GradAcc) : State :=
  let e := x.img
  (gradPanels w e).foldl (fun s p =>
    let vs := ((countFrom 0 e.pr).map (fun r => (countFrom 0 e.pw).map (fun c =>
      getAt 0 (getAt [] g.vals ((p.1 - w.kFirst) * e.pr + r)) ((p.2 - w.nFirst) * e.pw + c)))).flatten
    writeUnder s (ctxKey s (tagCtx x.ent.owner)) (gradAddr w x p.1 p.2)
      (gradPanel e x.ent.owner x.ent.adapter p.1 p.2 g.count (lessonOf s i.ptn) vs)) s

/-- The rows of accumulations as the checker and its decisions compare them. -/
def gradRows (gs : List GradAcc) : List AccRow :=
  (gs.map (fun g => g.vals.map (fun v => ({ tag := g.stg, vals := v } : AccRow)))).flatten

/-- Accumulations with the rows of a decision put in place. -/
def withRows (gs : List GradAcc) (rows : List AccRow) : List GradAcc :=
  gs.map (fun g => { g with vals := (rows.filter (fun r => r.tag == g.stg)).map AccRow.vals })

/-- The upset bits turned in an accumulation; rows count on over the accumulations in order. -/
def gradFlips (up : ArrayUpset) (rows : List AccRow) : List AccRow :=
  (List.zip (countFrom 0 rows.length) rows).map (fun e =>
    { e.2 with vals := (List.zip (countFrom 0 e.2.vals.length) e.2.vals).map (fun v => flipOf up e.1 v.1 v.2) })

/-- The tolerance check of the blocks that a command closed for one entry (R530): row m against the pairs consumed. -/
def gradOk (before after : List (List Word)) (as bs : List (List Half)) (kn nn : Nat) : List Bool :=
  let (h, hAbs, fin) := fltCheckCol (transpose 0 nn bs)
  (countFrom 0 kn).map (fun m =>
    if as.isEmpty then true else
    floatOk (as.map (fun r => val16 (getAt 0 r m))) h hAbs fin
      ((countFrom 0 nn).map (fun n => val32 (getAt 0 (getAt [] before m) n)))
      ((countFrom 0 nn).map (fun n => val32 (getAt 0 (getAt [] after m) n))))

/-- The pair (L, Rg) of a selected row (R200, R202): γ × h for LR_UP, the saved operand otherwise. -/
def gradPair (w : Wcd) (x : Resolved) (saved grad : Tile) (r : Nat) : List Half × List Half :=
  let e := x.img
  let l := blockSlice (w.kFirst * e.pr) (w.kCount * e.pr) (widenRow saved r)
  let l := if w.role = 2 then l.map (fun h => rne16 ((val16 e.gamma).mul (val16 h))) else l
  let g := (rowCodes fOZ16 grad.payload r).map (BitVec.ofNat 16)
  (l, blockSlice (w.nFirst * e.pw) (w.nCount * e.pw) g)

/-- A WBWD_GRAD command with its rows resolved (R202-R207). -/
def wGrad (s : State) (i : Issuer) (up : ArrayUpset) (e : QEntry) (w : Wcd) (pairs : List (SelRow × Resolved × List Half × List Half))
    (rs : List Resolved) (accepted : Option (List AccRow)) : Run :=
  let c := getCore s i.core
  let gs0 := if w.accIn then c.grads else []
  let range := [w.kFirst, w.kCount, w.nFirst, w.nCount]
  let gs1 := rs.foldl (fun gs x => gradPut gs (gradOf gs x)) gs0
  let gs := pairs.foldl (fun gs x =>
    let (kn, nn) := gradExt w x.2.1.img
    gradPut gs (gradPush kn nn (gradOf gs x.2.1) x.2.2.1 x.2.2.2)) gs1
  let gs := if w.leafEnd then gs.map (fun g => match rs.find? (fun x => x.stg == g.stg) with
      | some x => let (kn, nn) := gradExt w x.img; gradClose kn nn g
      | none => g) else gs
  let rows := gradFlips up (gradRows gs)
  let gs := withRows gs rows
  let oks := rs.map (fun x =>
    let (kn, nn) := gradExt w x.img
    let g0 := gradOf gs1 x
    let g := gradOf gs x
    let mine := pairs.filter (fun y => y.2.1.stg == x.stg)
    let as := (g0.blockA ++ mine.map (fun y => y.2.2.1)).take (g0.blockA.length + mine.length - g.blockA.length)
    let bs := (g0.blockB ++ mine.map (fun y => y.2.2.2)).take as.length
    gradOk g0.vals g.vals as bs kn nn)
  let bad := ((List.zip (countFrom 0 oks.flatten.length) oks.flatten).find? (fun b => !b.2 || up.chk.contains b.1)).map Prod.fst
  match accepted, bad with
  | none, some r =>
    mismatch s i { wcd := true, entry := e, chk := up.chk, op := w.op, before := { rows := gradRows gs0 }, r0 := rows, firstRow := r }
  | _, _ =>
    let gs := match accepted with
      | some r => withRows gs r
      | none => gs
    if !w.leafEnd then (modCore s i.core (fun k => { k with grads := gs, gradRange := range }), .done)
    else
      let (s, again) := if accepted.isSome then (s, none) else residueOf s i w.op up
      match again with
      | some r => mismatch s i { wcd := true, entry := e, chk := up.chk, op := w.op, before := { rows := gradRows gs0 }, r0 := rows, firstRow := r }
      | none =>
        let s := rs.foldl (fun s x => gradWrite s i w x (gradOf gs x)) s
        (modCore s i.core (fun k => { k with grads := [], gradRange := [] }), .done)

/-! ### The command as a whole -/

/-- Address checks of a WCD (R213, R327, R629). -/
def wAddrFault (s : State) (i : Issuer) (w : Wcd) : Option FaultCode :=
  let idx := countFrom 0 w.tiles
  let n := if w.drain = 2 then 66240 else 33472
  let outs := if w.op != opWgrad && (w.drain == 1 || w.drain == 2 || w.drain == 4) then
      idx.map (fun k => outCheck s i .wcdInvalid (w.outAt k) n) else []
  let gate := if w.drain == 4 then idx.map (fun k => inCheck s i .wcdInvalid (w.outAt k) n) else []
  let maps := idx.map (fun k => inCheck s i .wcdInvalid (w.mapAt k) 320)
  let recs := if w.op != opWfwd then idx.map (fun k => inCheck s i .wcdInvalid (w.streamAt k) 1088) else []
  let table := [if (localAddr s w.stg).isSome && localAddr s w.stg == stagingAddr s i.ptn then none
    else some FaultCode.wcdInvalid]
  worst (outs ++ gate ++ maps ++ recs ++ table)

/-- The checks of R169 and R205 that need the entries. -/
def wRangesOk (s : State) (i : Issuer) (w : Wcd) (sel : List (SelRow × Resolved)) : Bool :=
  let c := getCore s i.core
  let rs := distinctStg sel
  rs.all (fun x => rangesOk w x.img)
    && (w.op != opWfwd || decide ((if w.accIn then c.wleaf else 0) + w.kCount ≤ 64))
    && (w.op != opWdata ||
        rs.all (fun x => decide ((if w.accIn then c.wleaf else 0) + w.nCount * x.img.pw ≤ klF)))
    && (w.drain != 4 || rs.all (fun x => coverNow c w == some x.img.kp))
    && (w.op == opWfwd || rs.all (fun x =>
        let e := x.img
        decide ((w.nFirst * e.pw) % 128 + w.nCount * e.pw ≤ 128) && decide ((w.kFirst * e.pr) % 128 + w.kCount * e.pr ≤ 128)))
    && (w.op != opWgrad || !w.accIn || c.gradRange == [w.kFirst, w.kCount, w.nFirst, w.nCount])

/-- The entries of a gradient chain: those of this command, and those that its earlier commands opened. -/
def gradAll (s : State) (i : Issuer) (w : Wcd) (keep : List GradAcc) (rs : List Resolved) : List Resolved :=
  let olds := (keep.filter (fun g => !rs.any (fun x => x.stg == g.stg))).filterMap (fun g =>
    match resolveRow s i w { tag := g.owner, stg := g.stg } with
    | .ok o => o
    | .error _ => none)
  olds.foldl (fun acc x => insertBy Resolved.stg x acc) rs

/-- The WBWD_GRAD limits on accumulations and rows (R205): an accumulation is a panel of an entry inside the command's ranges. -/
def gradLimitsOk (s : State) (i : Issuer) (w : Wcd) (sel : List (SelRow × Resolved)) : Bool :=
  let gs := if w.accIn then (getCore s i.core).grads else []
  let rs := distinctStg sel
  decide (sumNat ((gradAll s i w gs rs).map (fun x => (gradPanels w x.img).length)) ≤ 32)
    && rs.all (fun x => decide ((gradOf gs x).count + (sel.filter (fun y => y.2.stg == x.stg)).length ≤ klF))

/-- The gradient tile of a stage for an N range, and the stage's record (R199). -/
def stageGrad (s : State) (i : Issuer) (up : ArrayUpset) (ga nCol : Nat) :
    State × Except CmdEnd (StageRec × Tile) :=
  match openStage s i up ga none with
  | (s, .error e) => (s, .error e)
  | (s, .ok bs) =>
    let g := parseStage bs
    let t := nCol / 128
    if t < g.c0 || decide (g.nt ≤ t - g.c0) then stopWith s i .gstHeader (detailAddr (localOf s ga))
    else match fetchStage s i up (g.tileAt (t - g.c0)) with
      | (s, .error e) => (s, .error e)
      | (s, .ok t) =>
        if t.hdr.fmt != fOZ16 || t.hdr.kind != 2 then stopWith s i .tileHeader (tileDetail s (g.tileAt 0) t.hdr.tensorId t.hdr.kind false)
        else (s, .ok (g, t))

/-- The saved operand of a stage for a K range (R199, R200). -/
def stageSaved (s : State) (i : Issuer) (up : ArrayUpset) (ga kRow : Nat) (g : StageRec) : State × Except CmdEnd Tile :=
  let t := kRow / 128
  if g.ns ≤ t then stopWith s i .gstHeader (detailAddr (localOf s ga))
  else match fetchStage s i up (g.savedAt t) with
    | (s, .error e) => (s, .error e)
    | (s, .ok x) =>
      if x.hdr.kind != 1 || (x.hdr.fmt != fA8 && x.hdr.fmt != fOZ16) then
        stopWith s i .tileHeader (tileDetail s (g.savedAt t) x.hdr.tensorId x.hdr.kind false)
      else (s, .ok x)

/-- The panel rows and columns of a role in units of elements, for ranges that must be known before the entries are: PR
and PW of the first resolved entry. -/
def firstShape (sel : List (SelRow × Resolved)) : Nat × Nat :=
  match sel with
  | x :: _ => (x.2.img.pr, x.2.img.pw)
  | [] => (64, 32)

/-- A row tile that a command may read: A8 or OZ16 of kind 1 (R145, R200). -/
def rowTileFits (h : Hdr) : Bool := h.kind == 1 && (h.fmt == fA8 || h.fmt == fOZ16)
/-- A gradient tile of a stage (R182). -/
def gradFits (h : Hdr) : Bool := h.kind == 2 && h.fmt == fOZ16

/-- The row tiles of fetched tiles; one that was not found has no rows. -/
def rowTiles (fs : List Fetched) : List RowTile :=
  List.zip (countFrom 0 fs.length) (fs.map (fun f => f.hdr.getD { rows := 0 }))

/-- The checks of a WCD that precede the first product, in the order of R631: the fields with the operands' FMT and KIND (`fit`) and
the entries' ranges (R110, R169, R205), the addresses, the row tags (R122, R126), the row maps and what the rows resolve to
(R170). It gives the selected rows. -/
def wChecks (s : State) (i : Issuer) (up : ArrayUpset) (w : Wcd) (fit : Hdr → Bool) (fs : List Fetched) (accTag : Bool) :
    State × Except CmdEnd (List (SelRow × Resolved)) :=
  let ts := rowTiles fs
  match readMaps s i w ts with
  | (s, maps) =>
    let rows := resolveAll s i w (mappedRows ts (maps.map (fun m => m.getD []))) []
    let sel := selectedRows rows
    if !(fs.all (fits fit)) || !wRangesOk s i w sel || (w.op == opWgrad && !gradLimitsOk s i w sel) then stopWith s i .wcdInvalid []
    else match wAddrFault s i w with
    | some c => stopWith s i c []
    | none =>
      if !(ts.all (fun t => tagsAttached s i.ptn t.2.tags)) then stopWith s i .tagForeign []
      else if accTag && !(ts.all (fun t =>
          (countFrom (128 * t.1) 128).map (fun p => (accRow (getCore s i.core).wacc p).tag) == tags128 t.2)) then
        stopWith s i .tagMix []
      else
        match judgeMaps s i up w ts maps with
        | (s, .error e) => (s, .error e)
        | (s, .ok _) =>
          match rowFault rows with
          | some c => stopWith s i c []
          | none => (s, .ok sel)

/-- WFWD from its streaming tiles on. -/
def runWfwd (s : State) (i : Issuer) (up : ArrayUpset) (e : QEntry) (w : Wcd) (accepted : Option (List AccRow)) : Run :=
  match fetchTiles s i ((countFrom 0 w.tiles).map w.streamAt) with
  | (s, fs) =>
    andThen (wChecks s i up w rowTileFits fs w.accIn) (fun s sel =>
      andThen (collect (fun s x => stageFetched s i up x.1 x.2) s
          (List.zip ((countFrom 0 w.tiles).map w.streamAt) fs)) (fun s ts =>
        andThen (collect (fun s x => loadPanels s i up w x) s (distinctStg sel)) (fun s ps =>
          wProduct s i up e w (rowTiles fs) sel (fwdWRows w ts sel ps) accepted)))

/-- The gradient tile column of a backward command (R199): panels of fewer than 32 columns stand alone in their entry. -/
def Wcd.gradCol (w : Wcd) : Nat := w.nFirst * 32 / 128

/-- WBWD_DATA from its stage records on. The headers of the gradient tiles that the stages name are read for the checks, the stages
are opened after them. -/
def runWdata (s : State) (i : Issuer) (up : ArrayUpset) (e : QEntry) (w : Wcd) (accepted : Option (List AccRow)) : Run :=
  match peekGrads s i w.gradCol ((countFrom 0 w.tiles).map w.streamAt) with
  | (s, ks) =>
    let fs := ks.map Prod.fst
    andThen (wChecks s i up w gradFits fs w.accIn) (fun s sel =>
      andThen (collect (fun s k => stageGrad s i up (w.streamAt k) (w.nFirst * 32)) s (countFrom 0 w.tiles)) (fun s gs =>
        andThen (collect (fun s x => loadPanels s i up w x) s (distinctStg sel)) (fun s ps =>
          wProduct s i up e w (rowTiles fs) sel (dataWRows w (gs.map Prod.snd) sel ps) accepted)))

/-- The saved tile of a K range that a stage record names, as fetched. -/
def peekSaved (s : State) (i : Issuer) (ga kRow : Nat) : State × Fetched :=
  match fetch s i ga 64 with
  | (s, none) => (s, .outside)
  | (s, some hd) =>
    let g := parseStage hd
    if !stageOk hd || decide (g.ns ≤ kRow / 128) then (s, .outside) else fetchTile s i (g.savedAt (kRow / 128))

/-- WBWD_GRAD from its stage records on. -/
def runWgrad (s : State) (i : Issuer) (up : ArrayUpset) (e : QEntry) (w : Wcd) (accepted : Option (List AccRow)) : Run :=
  match peekGrads s i w.gradCol ((countFrom 0 w.tiles).map w.streamAt) with
  | (s, ks) =>
    andThen (wChecks s i up w gradFits (ks.map Prod.fst) false) (fun s sel =>
      let (pr, _) := firstShape sel
      if !((countFrom 0 w.tiles).all (fun k => fits rowTileFits (peekSaved s i (w.streamAt k) (w.kFirst * pr)).2)) then
        failWith s i .wcdInvalid []
      else
      andThen (collect (fun s k => stageGrad s i up (w.streamAt k) (w.nFirst * 32)) s (countFrom 0 w.tiles)) (fun s gs =>
        andThen (collect (fun s x => stageSaved s i up (w.streamAt x.1) (w.kFirst * pr) x.2.1) s
            (List.zip (countFrom 0 gs.length) gs)) (fun s saved =>
          let sel2 := sel.filterMap (fun x =>
            match gs[x.1.tile]?, saved[x.1.tile]? with
            | some g, some t => some (x.1, x.2, g.2, t)
            | _, _ => none)
          let rs := distinctStg sel
          let keep := if w.accIn then (getCore s i.core).grads else []
          -- the saved rows against the stage's tags (R208)
          let stageTag (x : SelRow) : Nat := getAt 0 (getAt [] (ks.map Prod.snd) x.tile) x.r
          if sel2.any (fun x => getAt 0 x.2.2.2.hdr.tags x.1.r != stageTag x.1) then failWith s i .tagMix []
          else if rs.any (fun x => keep.any (fun g => g.stg == x.stg && g.owner != x.ent.owner)) then failWith s i .tagMix []
          else
            -- entries that earlier commands of the chain opened drain with these
            let all := gradAll s i w keep rs
            if w.leafEnd && !(all.all (fun x => (gradPanels w x.img).all (fun p =>
                stgItem s i.ptn (gradAddr w x p.1 p.2) (64 + alignUp (4 * x.img.pr * x.img.pw) 64)))) then
              failWith s i .adapterEntry []
            else
              let pairs := sel2.map (fun x => (x.1, x.2.1, gradPair w x.2.1 x.2.2.2 x.2.2.1 x.1.r))
              wGrad s i up e w (pairs.map (fun x => (x.1, x.2.1, x.2.2.1, x.2.2.2))) all accepted)))

/-- Some tile that a WCD stages waits for a verdict (R308). -/
def wcdHeld (s : State) (i : Issuer) (w : Wcd) : Bool :=
  let idx := countFrom 0 w.tiles
  (if w.op = opWfwd then idx.any (fun k => heldTile s i (w.streamAt k))
   else idx.any (fun k => heldStage s i (w.streamAt k) (some w.gradCol)))
    || (w.op == opWgrad && idx.any (fun k => match fetch s i (w.streamAt k) 64 with
        | (_, some hd) => (countFrom 0 (parseStage hd).ns).any (fun t => heldTile s i ((parseStage hd).savedAt t))
        | (_, none) => false))
    || (w.drain == 4 && idx.any (fun k => heldTile s i (w.outAt k)))

/-- One attempt at a WCD, its checks in the order of R631; staging waits for the verdict of a run-ahead tile (R308). -/
def runWcd (s : State) (up : ArrayUpset) (e : QEntry) (accepted : Option (List AccRow)) : Run :=
  let i := e.issuer
  let w := parseWcd e.desc
  if !descCrcOk e.desc then failWith s i .wcdInvalid []
  else if w.epoch ≠ (getCore s i.core).epoch then (s, .stale)
  else if !wFieldsOk i w then failWith s i .wcdInvalid []
  else if !s.xf.held.isEmpty && wcdHeld s i w then (s, .wait .held)
  else match w.op with
    | 1 => runWfwd s i up e w accepted
    | 2 => runWdata s i up e w accepted
    | _ => runWgrad s i up e w accepted

/-- The end of an attempt at a WCD at core `n`. The core reports its outcome through DONE_SEM and the fault log: only
CORE_ACD_STATUS of the ACDs has a register (R141). -/
def endWcd (n : Nat) (e : QEntry) (r : Run) : State :=
  let done := bits (descWord e.desc 2) 16 16
  let (s, x) := r
  let clear (s : State) : State := modCore s n (fun c => { c with wcdRun := none, wcdWait := .none })
  match x with
  | .done => doneAdd (clear s) e.issuer.ptn done .plain
  | .fault _ => doneAdd (clear s) e.issuer.ptn done .rej
  | .stale => doneAdd (clear s) e.issuer.ptn done .abt
  | .wait w =>
    let s := modCore s n (fun c => { c with wcdRun := some e, wcdWait := w })
    match w with
    | .seal _ => modCore s n (fun c => { c with sealWaits := satInc 16 c.sealWaits })
    | _ => s

/-- The W-array of core `n` starts the command at the head of its queue, where its OP is the one given; a head with a
reserved OP is refused whichever it is (R168, R169). -/
def startWcd (s : State) (n op : Nat) (up : ArrayUpset) : State :=
  let c := getCore s n
  match c.wcdQ with
  | [] => s
  | e :: q =>
    let o := bits (descWord e.desc 0) 0 8
    if c.wcdRun.isSome || !mayStart s n || (o != op && decide (1 ≤ o) && decide (o ≤ 3)) then s
    else endWcd n e (runWcd (modCore s n (fun c => { c with wcdQ := q, wcdRun := some e })) up e none)

/-- WFWD (R168-R173). -/
def execWfwd (core : Nat) (up : ArrayUpset) (s : State) : Out := .next (startWcd s core opWfwd up)
/-- WBWD_DATA (R201). -/
def execWbwdData (core : Nat) (up : ArrayUpset) (s : State) : Out := .next (startWcd s core opWdata up)
/-- WBWD_GRAD (R202-R207). -/
def execWbwdGrad (core : Nat) (up : ArrayUpset) (s : State) : Out := .next (startWcd s core opWgrad up)

/-! ### Waits that end -/

/-- The W-array command that waits at core `n` is tried again. -/
def retryWcd (s : State) (n : Nat) (up : ArrayUpset) : State :=
  match (getCore s n).wcdRun with
  | some e => endWcd n e (runWcd s up e none)
  | none => s

/-- JOIN_BUFFER_READY (R173): a drain that waits on the join buffer goes on where its rows have become READY, or, for
the JOIN drain, clear; `wcd` says which array's command it is. -/
def execJoinBufferReady (core : Nat) (wcd : Bool) (up : ArrayUpset) (s : State) : Out :=
  .next (
    let c := getCore s core
    if wcd then (if c.wcdWait = .join then retryWcd s core up else s)
    else (if c.acdWait = .join then retryAcd s core up else s))

/-- SEAL_WAIT_END (R187): a command that waits on a SEALING stage reads it again: SEALED lets it proceed, and a sealer
whose epoch has changed is taken over; a command whose own seal is under way completes it. -/
def execSealWaitEnd (core : Nat) (wcd : Bool) (up : ArrayUpset) (s : State) : Out :=
  .next (
    let c := getCore s core
    let again (s : State) : State := modCore s core (fun k => { k with sealWaits := c.sealWaits })
    if wcd then
      match c.wcdWait with
      | .seal _ => let t := retryWcd s core up
                   (match (getCore t core).wcdWait with | .seal _ => again t | _ => t)
      | .sealing _ => retryWcd s core up
      | _ => s
    else
      match c.acdWait with
      | .seal _ => let t := retryAcd s core up
                   (match (getCore t core).acdWait with | .seal _ => again t | _ => t)
      | .sealing _ => retryAcd s core up
      | _ => s)

end Sys2Proof.Machine
end

