-- ==== Sys2Proof/Machine/Vat.lean ====
section
/-! DEFINITION. The Vat (spec/05_adapters_and_vat.md R151-R166, R176, R178, R179): slot records, the operations of the
request ports, fetches, staging copies, scrubs, and the spill bitmap.
Readings and choices: log 41, 42, 43, 44, 140, 142, 143, 151. -/

namespace Sys2Proof.Machine

/-! ### Slot records (R153, R154) -/

/-- A slot record (R153). -/
structure VSlot where
  state : Nat := 0
  gen : Nat := 0
  owner : Nat := 0
  adapter : Nat := 0
  kind : Nat := 0
  data : Nat := 0
  len : Nat := 0
  baseId : Nat := 0
  last : Nat := 0
  claim : Nat := 0
  stage : Nat := 0
  stg : Nat := 0
  stgPtn : Nat := 0
  fetchSeq : Nat := 0
  stateAddr : Nat := 0
deriving DecidableEq, Repr, Inhabited

/-- Reads a record. -/
def parseSlot (bs : List Byte) : VSlot :=
  { state := bits (field bs 0 1) 0 4, gen := field bs 1 1, owner := field bs 2 2, adapter := field bs 4 3,
    kind := field bs 7 1, data := field bs 8 8, len := field bs 0x10 4, baseId := field bs 0x14 2,
    last := field bs 0x16 2, claim := field bs 0x18 8, stage := field bs 0x20 8, stg := bits (field bs 0x28 4) 0 12,
    stgPtn := bits (field bs 0x28 4) 12 6, fetchSeq := field bs 0x2C 4, stateAddr := field bs 0x30 8 }

/-- A record's bytes with REC_CRC. -/
def slotBytes (v : VSlot) : List Byte :=
  withCrcTail (slice (leBytes 1 v.state ++ leBytes 1 v.gen ++ leBytes 2 v.owner ++ leBytes 3 v.adapter ++ leBytes 1 v.kind
    ++ leBytes 8 v.data ++ leBytes 4 v.len ++ leBytes 2 v.baseId ++ leBytes 2 v.last ++ leBytes 8 v.claim
    ++ leBytes 8 v.stage ++ leBytes 4 (v.stg + 4096 * v.stgPtn) ++ leBytes 4 v.fetchSeq ++ leBytes 8 v.stateAddr) 0 64) 60

/-- States of a slot (R153). -/
def slFree : Nat := 0
def slClaimed : Nat := 1
def slFetching : Nat := 2
def slResident : Nat := 3
def slStaged : Nat := 4
def slEvicting : Nat := 5

/-- Status codes (R157). -/
def vOk : Nat := 0
def vSlotBusy : Nat := 1
def vIdLive : Nat := 2
def vBadState : Nat := 3
def vBadRange : Nat := 4
def vForeign : Nat := 5
def vInUse : Nat := 6
def vStgBusy : Nat := 7
def vFetchFailed : Nat := 8
def vRejected : Nat := 9

/-- The bytes of a slot's record. -/
def slotRaw (s : State) (k : Nat) : List Byte := readUnder s (vatKey s) (vatSlot s k) 64

/-- A record that holds: all zero is FREE, any other passes REC_CRC and names a state (R153, R154). -/
def slotAt? (s : State) (k : Nat) : Option VSlot :=
  let bs := slotRaw s k
  if allZero bs then some {} else
  if crcTailOk bs 60 && decide (bits (field bs 0 1) 0 4 ≤ 5) then some (parseSlot bs) else none

/-- Writes a slot's record. -/
def putSlot (s : State) (k : Nat) (v : VSlot) : State := writeUnder s (vatKey s) (vatSlot s k) (slotBytes v)

/-- An ID map entry: the slot where it is valid, none where it is not; an error where its check fails (R152, R154). -/
def idEntry (s : State) (id : Nat) : Except Unit (Option Nat) :=
  let w := leNat (readUnder s (vatKey s) (vatId s id) 4)
  if bits w 16 15 != 0 then .error () else .ok (if bitOf w 31 then some (bits w 0 16) else none)

/-- Writes an ID map entry. -/
def putId (s : State) (id : Nat) (slot : Option Nat) : State :=
  writeUnder s (vatKey s) (vatId s id) (leBytes 4 (match slot with | some k => 2 ^ 31 + k | none => 0))

/-- An expert index table entry: LOCAL and SLOT where valid; an error where its check fails. -/
def expEntry (s : State) (p layer idx : Nat) : Except Unit (Option (Nat × Nat)) :=
  let w := leNat (readUnder s (vatKey s) (vatExp s p layer idx) 4)
  if bitOf w 30 || bits w 16 8 != 0 then .error ()
  else .ok (if bitOf w 31 then some (bits w 24 6, bits w 0 16) else none)

/-- Writes an expert index table entry. -/
def putExp (s : State) (p layer idx : Nat) (v : Option (Nat × Nat)) : State :=
  writeUnder s (vatKey s) (vatExp s p layer idx)
    (leBytes 4 (match v with | some (l, k) => 2 ^ 31 + l * 2 ^ 24 + k | none => 0))

/-- VAT_DIRECTORY for a record or entry that fails its check (R154). -/
def vatBad (s : State) (la : Nat) : State := raise s .vatDirectory { kind := .vat, detail := detailAddr la }

/-- The listed words of a table region of the Vat window: those that are not all zero. -/
def listedWords (s : State) (off n w : Nat) : List Nat :=
  let lo := s.vat.base + off
  ((s.mem.filter (fun e => decide (lo ≤ e.1) && decide (e.1 < lo + n))).map (fun e => (e.1 - lo) / w)).foldl
    (fun acc k => insertNat k acc) []

/-- The expert index table entries that are valid and name a slot, by partition, layer and index. -/
def expertsOf (s : State) (slot : Nat) : List (Nat × Nat × Nat) :=
  (listedWords s 0x04400000 (16 * 2 ^ 20) 4).filterMap (fun k =>
    let e := (k / 65536, k / 256 % 256, k % 256)
    match expEntry s e.1 e.2.1 e.2.2 with
    | .ok (some x) => if x.2 == slot then some e else none
    | _ => none)

/-! ### Ports (R155, R179) -/

/-- Port `n`. -/
def getPort (s : State) (n : Nat) : VPort := tget default s.vat.port n
/-- Changes port `n`. -/
def modPort (s : State) (n : Nat) (f : VPort → VPort) : State := { s with vat.port := tmod default s.vat.port n f }

/-- Who may use a port: the partition's runtime its own, the operator port 64 (R155, R346). -/
def mayPort (s : State) (who : Req) (n : Nat) : Bool := partsUp s && if n = 64 then isOperator s who else isRuntimeOf s n who

/-- Argument `k` of a port. -/
def portArg (v : VPort) (k : Nat) : Nat := getAt 0 v.args k

/-- The result of an operation at a port (R179): SLOT_GEN is that of the slot after it. -/
def vAnswer (s : State) (n slot st : Nat) : State :=
  let g := match slotAt? s slot with
    | some v => v.gen
    | none => field (slotRaw s slot) 1 1
  modPort s n (fun v => { v with done := true, busy := false, status := st, slotGen := g })

/-- Increments the semaphore of an asynchronous operation (R155, R301): one of the port's partition, or through port 64
one of any partition. -/
def vatSem (s : State) (port sem : Nat) : State :=
  if port < 64 then doneAdd s port sem .plain else portAdd s sem

/-- The Vat window (R151). -/
def vatWin (s : State) : Option Win := (moduleWins s).find? (fun w => w.type == .vat)

/-- A data range lies inside the slot data area, in one slice (R151, R156). -/
def inData (s : State) (la n : Nat) : Bool :=
  match vatWin s, placeOf none la, placeOf none (la + (n - 1)) with
  | some w, some a, some b =>
    a.1 == w.mem && b == (a.1, a.2 + (n - 1)) && decide (0x05400000 + w.base ≤ a.2) && decide (b.2 < w.base + w.size)
  | _, _, _ => false

/-- The reserved bits of an operation's arguments are zero (R155, R157, R179). -/
def argsOk (op : Nat) (v : VPort) : Bool :=
  let a1 := portArg v 1
  bits (portArg v 0) 28 4 == 0 &&
    (match op with
     | 1 => bits a1 24 8 == 0
     | 4 | 5 => bits a1 22 10 == 0
     | 6 => bits a1 12 20 == 0
     | _ => true)

/-- The partition on whose behalf a port's operation runs for a context. -/
def vatPtn (s : State) (n ctx : Nat) : Option Nat := if n < 64 then some n else ptnOfCtx s ctx

/-- The IMG_LEN of the image in a slot's data range, under its owner's key. -/
def slotImg (s : State) (v : VSlot) : ImgHdr := parseImg (readUnder s (ctxKey s (tagCtx v.owner)) v.data 64)

/-- The image of a slot holds entries for a local expert in a layer (R156). -/
def slotHasExpert (s : State) (v : VSlot) (layer loc : Nat) : Bool :=
  let bs := readUnder s (ctxKey s (tagCtx v.owner)) v.data (64 + 32 * (slotImg s v).n)
  ((countFrom 0 (slotImg s v).n).map (fun k => parseEnt (slice bs (64 + 32 * k) 32))).any (fun e =>
    e.layer == layer && e.sel == loc && (e.role == 3 || e.role == 4 || e.role == 5))

/-- An engine job that the Vat starts or, under governor HOLD or while its entry is in use, keeps waiting (R165, R274). -/
def vatJob (s : State) (j : VJob) : State := { s with vat.jobs := s.vat.jobs ++ [j] }

/-- CLAIM_SLOT (R156). -/
def vatClaim (s : State) (n slot ctx : Nat) (v : VSlot) (a : VPort) : State × Nat :=
  let id := bits (portArg a 1) 0 24
  let la := portArg a 2 + 2 ^ 32 * portArg a 3
  let len := bits (portArg a 4) 0 16 * 65536
  let _ := n
  if v.state ≠ slFree then (s, vSlotBusy)
  else match idEntry s id with
    | .error _ => (vatBad s (vatId s id), vBadState)
    | .ok (some _) => (s, vIdLive)
    | .ok none =>
      if len = 0 || !inData s la len then (s, vBadRange)
      else
        let v' : VSlot := { state := slClaimed, gen := wrap 8 (v.gen + 1), owner := mkTag ctx, adapter := id, data := la,
                            len := len, claim := now s, fetchSeq := v.fetchSeq }
        (putId (putSlot s slot v') id (some slot), vOk)

/-- FETCH (R159, R487): 64 fetches at most are open. -/
def vatFetch (s : State) (n slot ctx : Nat) (v : VSlot) (a : VPort) : State × Nat :=
  if v.state ≠ slClaimed ∨ 64 ≤ s.vat.fetches.length then (s, vBadState)
  else
    let q := wrap 32 (v.fetchSeq + 1)
    let s := putSlot s slot { v with state := slFetching, fetchSeq := q }
    let f : VFetch := { slot := slot, gen := v.gen, seq := q, ctx := ctx, adapter := v.adapter, port := n,
                        sem := bits (portArg a 4) 16 16, start := if counting s then some s.bell.count else none }
    (cptSend { s with vat.fetches := s.vat.fetches ++ [f] }
      { ftype := ftFetchReq, addr := v.adapter + 2 ^ 24 * slot + 2 ^ 40 * v.gen + 2 ^ 48 * ctx, arg := q,
        payload := leBytes 4 v.len }, vOk)

/-- The frame that tells the node of a cancelled fetch (R488). -/
def fetchCtl (v : VFetch) (code : Nat) : CptFrame :=
  { ftype := ftFetchCtl, addr := v.adapter + 2 ^ 24 * v.slot + 2 ^ 40 * v.gen + 2 ^ 48 * v.ctx, arg := v.seq,
    payload := [BitVec.ofNat 8 code] }

/-- CANCEL (R162): writing stops, later frames of the FETCH_SEQ are dropped, and what was written is scrubbed. Of a slot
that is still FETCHING under the scrub of a failed or cancelled fetch, it ends with that scrub. -/
def vatCancel (s : State) (n slot : Nat) (v : VSlot) (a : VPort) : State × Nat :=
  match s.vat.fetches.find? (fun f => f.slot == slot) with
  | some f =>
    if v.state ≠ slFetching then (s, vBadState)
    else
      let s := cptSend { s with vat.fetches := s.vat.fetches.filter (fun g => g.slot != slot) } (fetchCtl f 2)
      (vatJob s { kind := .cancel, slot := slot, port := n, sem := bits (portArg a 4) 16 16, bytes := f.data.length }, vOk)
  | none =>
    if v.state ≠ slFetching then (s, vBadState)
    else (vatJob s { kind := .cancel, slot := slot, port := n, sem := bits (portArg a 4) 16 16 }, vOk)

/-- CLAIM_EXPERT (R156). -/
def vatClaimExpert (s : State) (n slot ctx : Nat) (v : VSlot) (a : VPort) : State × Nat :=
  let idx := bits (portArg a 1) 0 8
  let layer := bits (portArg a 1) 8 8
  let loc := bits (portArg a 1) 16 6
  match vatPtn s n ctx with
  | none => (s, vForeign)
  | some p =>
    if v.state ≠ slResident ∧ v.state ≠ slStaged then (s, vBadState)
    else match expEntry s p layer idx with
      | .error _ => (vatBad s (vatExp s p layer idx), vBadState)
      | .ok (some _) => (s, vSlotBusy)
      | .ok none =>
        if v.kind ≠ 2 then (s, vBadState)
        else if !slotHasExpert s v layer loc then (s, vBadRange)
        else (putExp s p layer idx (some (loc, slot)), vOk)

/-- RELEASE_EXPERT (R155): the entry must name the slot. -/
def vatReleaseExpert (s : State) (n slot ctx : Nat) (v : VSlot) (a : VPort) : State × Nat :=
  let idx := bits (portArg a 1) 0 8
  let layer := bits (portArg a 1) 8 8
  match vatPtn s n ctx with
  | none => (s, vForeign)
  | some p =>
    if v.state ≠ slResident ∧ v.state ≠ slStaged then (s, vBadState)
    else match expEntry s p layer idx with
      | .error _ => (vatBad s (vatExp s p layer idx), vBadState)
      | .ok (some e) => if e.2 = slot then (putExp s p layer idx none, vOk) else (s, vBadState)
      | .ok none => (s, vBadState)

/-- ADAPT_MAX of a partition's Timetable (R165, R177). -/
def adaptMax (s : State) (p : Nat) : Nat :=
  match ttOf s p with
  | some t => t.adaptMax
  | none => if openHouse s && p == 0 then 4096 else 0

/-- STAGE (R165): the entry is PENDING and the copy is a job. -/
def vatStage (s : State) (n slot ctx : Nat) (v : VSlot) (a : VPort) : State × Nat :=
  let stg := bits (portArg a 1) 0 12
  let la := portArg a 2 + 2 ^ 32 * portArg a 3
  match vatPtn s n ctx with
  | none => (s, vForeign)
  | some p =>
    if v.state ≠ slResident then (s, vBadState)
    else
      let h := slotImg s v
      if adaptMax s p ≤ stg || !inStaging s p la h.len then (s, vBadRange)
      else if (parseStg (readStg s p stg)).state ≠ 0 then (s, vStgBusy)
      else
        let s := writeStg s p stg { state := 1, owner := v.owner, slot := slot, gen := v.gen, kind := v.kind, image := la,
                                    len := h.len, adapter := v.adapter }
        (vatJob s { kind := .stage, slot := slot, port := n, sem := bits (portArg a 4) 16 16, waiting := s.pwr.hold,
                    stg := stg, ptn := p, addr := la }, vOk)

/-- The staging entry of a slot is bound by the running Lesson (R165, R374). -/
def stgInUse (s : State) (p stg : Nat) : Bool :=
  (getPtn s p).tt.inLesson && (getPtn s p).binding.contains stg

/-- An UNSTAGE waits: the governor is in HOLD, the running Lesson binds the entry, or a capture copies it (R165, R274,
R556). -/
def unstageWaits (s : State) (v : VSlot) : Bool :=
  s.pwr.hold || stgInUse s v.stgPtn v.stg ||
    ((getCtx s (tagCtx v.owner)).copying && (getCtx s (tagCtx v.owner)).copyStg.contains v.stg)

/-- UNSTAGE (R165). -/
def vatUnstage (s : State) (n slot : Nat) (v : VSlot) (a : VPort) : State × Nat :=
  if v.state ≠ slStaged then (s, vBadState)
  else (vatJob s { kind := .unstage, slot := slot, port := n, sem := bits (portArg a 4) 16 16,
                   waiting := unstageWaits s v, stg := v.stg, ptn := v.stgPtn, addr := v.stage }, vOk)

/-- EVICT (R163): a slot that holds an expert index is IN_USE. -/
def vatEvict (s : State) (n slot : Nat) (v : VSlot) (sem : Nat) : State × Nat :=
  if v.state ≠ slClaimed ∧ v.state ≠ slResident then (s, vBadState)
  else if !(expertsOf s slot).isEmpty then (s, vInUse)
  else
    let s := putSlot (putId s v.adapter none) slot { v with state := slEvicting }
    (vatJob s { kind := .evict, slot := slot, port := n, sem := sem, bytes := v.len }, vOk)

/-- EVICT of a record that fails its check, through port 64 (R154): the tables are swept by the job. -/
def vatRepair (s : State) (n slot sem : Nat) : State × Nat :=
  (vatJob s { kind := .repair, slot := slot, port := n, sem := sem }, vOk)

/-- An operation at a port (R155-R157): the refusals in the order REJECTED, a failed record, CTX_FOREIGN, then those of
the operation. A write while BUSY is ignored. -/
def vatOp (s : State) (n op : Nat) : State :=
  let a := getPort s n
  let slot := bits (portArg a 0) 0 16
  let ctx := bits (portArg a 0) 16 12
  let sem := bits (portArg a 4) 16 16
  if a.busy || !s.vat.ready then s
  else if op < 1 ∨ 8 < op then vAnswer s n slot vRejected
  else if !argsOk op a then vAnswer s n slot vRejected
  else match slotAt? s slot with
    | none =>
      let s := vatBad s (vatSlot s slot)
      if op = 8 ∧ n = 64 then
        match vatRepair s n slot sem with
        | (s, st) => vAnswer s n slot st
      else vAnswer s n slot vBadState
    | some v =>
      if n < 64 && !attachedTo s n ctx then vAnswer s n slot vForeign
      else if op ≠ 1 ∧ v.owner ≠ mkTag ctx then vAnswer s n slot vForeign
      else
        let (s, st) := match op with
          | 1 => vatClaim s n slot ctx v a
          | 2 => vatFetch s n slot ctx v a
          | 3 => vatCancel s n slot v a
          | 4 => vatClaimExpert s n slot ctx v a
          | 5 => vatReleaseExpert s n slot ctx v a
          | 6 => vatStage s n slot ctx v a
          | 7 => vatUnstage s n slot v a
          | _ => vatEvict s n slot v sem
        vAnswer s n slot st

/-- An operation with its arguments written first (R155, R179). -/
def vatRow (s : State) (who : Req) (n op : Nat) (args : List Nat) : State :=
  if !mayPort s who n || (getPort s n).busy then s
  else vatOp (modPort s n (fun v => { v with args := args })) n op

/-- ARG0 of an operation (R179). -/
def vArg0 (slot ctx : Nat) : Nat := slot % 65536 + 65536 * (ctx % 4096)
/-- ARG2 and ARG3 of an address. -/
def lo32 (x : Nat) : Nat := x % 2 ^ 32
def hi32 (x : Nat) : Nat := x / 2 ^ 32 % 2 ^ 32

/-- CLAIM_SLOT (R156). -/
def execClaimSlot (who : Req) (port slot ctx adapter addr units : Nat) (s : State) : Out :=
  .next (vatRow s who port 1 [vArg0 slot ctx, adapter % 2 ^ 24, lo32 addr, hi32 addr, units % 65536 + 65536 * 0xFFFF])
/-- FETCH (R159). -/
def execFetch (who : Req) (port slot ctx sem : Nat) (s : State) : Out :=
  .next (vatRow s who port 2 [vArg0 slot ctx, 0, 0, 0, 65536 * (sem % 65536)])
/-- CANCEL (R162). -/
def execCancel (who : Req) (port slot ctx sem : Nat) (s : State) : Out :=
  .next (vatRow s who port 3 [vArg0 slot ctx, 0, 0, 0, 65536 * (sem % 65536)])
/-- CLAIM_EXPERT (R156). -/
def execClaimExpert (who : Req) (port slot ctx idx layer loc : Nat) (s : State) : Out :=
  .next (vatRow s who port 4 [vArg0 slot ctx, idx % 256 + 256 * (layer % 256) + 65536 * (loc % 64), 0, 0, 65536 * 0xFFFF])
/-- RELEASE_EXPERT (R155). -/
def execReleaseExpert (who : Req) (port slot ctx idx layer loc : Nat) (s : State) : Out :=
  .next (vatRow s who port 5 [vArg0 slot ctx, idx % 256 + 256 * (layer % 256) + 65536 * (loc % 64), 0, 0, 65536 * 0xFFFF])
/-- STAGE (R165). -/
def execStage (who : Req) (port slot ctx stg addr sem : Nat) (s : State) : Out :=
  .next (vatRow s who port 6 [vArg0 slot ctx, stg % 4096, lo32 addr, hi32 addr, 65536 * (sem % 65536)])
/-- UNSTAGE (R165). -/
def execUnstage (who : Req) (port slot ctx sem : Nat) (s : State) : Out :=
  .next (vatRow s who port 7 [vArg0 slot ctx, 0, 0, 0, 65536 * (sem % 65536)])
/-- EVICT (R163). -/
def execEvict (who : Req) (port slot ctx sem : Nat) (s : State) : Out :=
  .next (vatRow s who port 8 [vArg0 slot ctx, 0, 0, 0, 65536 * (sem % 65536)])

/-! ### Jobs that end (R162, R163, R165) -/

/-- The job of a slot that runs. -/
def jobOf (s : State) (slot : Nat) (f : VJobKind → Bool) : Option VJob :=
  s.vat.jobs.find? (fun j => j.slot == slot && f j.kind && !j.waiting)

/-- Removes a job. -/
def dropJob (s : State) (j : VJob) : State := { s with vat.jobs := eraseFirst (· == j) s.vat.jobs }

/-- Copies `n` bytes of an image between two ranges, under its owner's key on both sides (R165, R518). -/
def copyImg (s : State) (owner src dst n : Nat) : State :=
  let k := ctxKey s (tagCtx owner)
  writeUnder s k dst (readUnder s k src n)

/-- The end of a STAGE copy (R165): the entry READY and the slot STAGED. A slot that has left RESIDENT meanwhile keeps its
state, and the entry is EMPTY. -/
def stageEnd (s : State) (slot : Nat) (v : VSlot) (j : VJob) : State :=
  let e := parseStg (readStg s j.ptn j.stg)
  if v.state = slResident ∧ e.gen = v.gen then
    putSlot (writeStg (copyImg s v.owner v.data j.addr e.len) j.ptn j.stg { e with state := 2 }) slot
      { v with state := slStaged, stage := j.addr, stg := j.stg, stgPtn := j.ptn, last := vOk }
  else putSlot (writeStg s j.ptn j.stg {}) slot { v with last := vBadState }

/-- The end of an UNSTAGE copy (R165): the entry EMPTY and the slot RESIDENT. A slot that is no longer STAGED in the entry
keeps its state. -/
def unstageEnd (s : State) (slot : Nat) (v : VSlot) (j : VJob) : State :=
  let e := parseStg (readStg s j.ptn j.stg)
  if v.state = slStaged ∧ v.stg = j.stg ∧ v.stgPtn = j.ptn then
    putSlot (writeStg (copyImg s v.owner j.addr v.data e.len) j.ptn j.stg {}) slot
      { v with state := slResident, stage := 0, stg := 0, stgPtn := 0, last := vOk }
  else putSlot s slot { v with last := vBadState }

/-- VAT_COPY_DONE (R165): a STAGE or UNSTAGE copy of a slot ends. A record that fails its check then is not acted on (R154). -/
def execVatCopyDone (slot : Nat) (s : State) : Out :=
  .next (
    match jobOf s slot (fun k => k == .stage || k == .unstage) with
    | some j =>
      let s := dropJob s j
      let s := match slotAt? s slot with
        | some v => if j.kind = .stage then stageEnd s slot v j else unstageEnd s slot v j
        | none => vatBad s (vatSlot s slot)
      vatSem s j.port j.sem
    | none => s)

/-- Overwrites a range with ciphertext of zero under a fresh random key (R163, R413). -/
def scrubRange (s : State) (la n : Nat) : State :=
  match placeOf none la with
  | some p => match draw s 64 with | (k, s) => fillZero s (addrOf p) (alignUp n 64) k
  | none => s

/-- Every table entry that names a slot is made invalid, and every entry that fails its own check is cleared (R154). -/
def sweepTables (s : State) (slot : Nat) : State :=
  let s := forEach (listedWords s 0 (64 * 2 ^ 20) 4) (fun s k =>
    match idEntry s k with
    | .error _ => putId s k none
    | .ok (some x) => if x = slot then putId s k none else s
    | .ok none => s) s
  forEach (listedWords s 0x04400000 (16 * 2 ^ 20) 4) (fun s k =>
    match expEntry s (k / 65536) (k / 256 % 256) (k % 256) with
    | .error _ => putExp s (k / 65536) (k / 256 % 256) (k % 256) none
    | .ok (some x) => if x.2 = slot then putExp s (k / 65536) (k / 256 % 256) (k % 256) none else s
    | .ok none => s) s

/-- The record that a scrub leaves (R161-R163). -/
def scrubbed (v : VSlot) : VJobKind → VSlot
  | .evict => { gen := v.gen, fetchSeq := v.fetchSeq }
  | .failed => { v with state := slClaimed, last := vFetchFailed }
  | _ => { v with state := slClaimed, last := vOk }

/-- The scrub of a slot's job and the record it leaves (R154, R161-R163); the CANCELs that waited for it end with it. A
record that fails its check then is not acted on (R154). -/
def scrubDone (s : State) (j : VJob) : State :=
  let s := dropJob s j
  match j.kind with
  | .repair => vatSem (putSlot (sweepTables s j.slot) j.slot {}) j.port j.sem
  | _ =>
    let more := s.vat.jobs.filter (fun k => k.slot == j.slot && k.kind == .cancel)
    let s := match slotAt? s j.slot with
      | none => vatBad s (vatSlot s j.slot)
      | some v =>
        let s := putSlot (scrubRange s v.data (min j.bytes v.len)) j.slot (scrubbed v j.kind)
        if more.isEmpty then s else putSlot s j.slot (scrubbed v .cancel)
    forEach more (fun s k => vatSem (dropJob s k) k.port k.sem) (vatSem s j.port j.sem)

/-- VAT_SCRUB_DONE (R162, R163): an EVICT scrub leaves the slot FREE; the scrub of a cancelled or failed fetch leaves it
CLAIMED. -/
def execVatScrubDone (slot : Nat) (s : State) : Out :=
  .next (
    match jobOf s slot (fun k => k == .evict || k == .cancel || k == .failed || k == .repair) with
    | some j => scrubDone s j
    | none => s)

/-! ### Fetches that end (R160, R161) -/

/-- A fetch fails (R161): ADAPTER_FETCH, and the scrub of what was written. -/
def fetchFail (s : State) (f : VFetch) : State :=
  let s := { s with vat.fetches := s.vat.fetches.filter (fun g => g.slot != f.slot) }
  let s := raise s .adapterFetch { kind := .vat, ptn := (ptnOfCtx s f.ctx).getD 0xFF, ctx := f.ctx,
                                   detail := detailAddr (vatSlot s f.slot) }
  vatJob s { kind := .failed, slot := f.slot, port := f.port, sem := f.sem, bytes := f.data.length - 16 }

/-- The deadline stamp of a fetch (R161); none while the Bell counter did not count at its start (R627). -/
def fetchDeadline (s : State) (f : VFetch) : Option Nat := f.start.map (fun b => stampOf (b + s.vat.timeout) 0)

/-- FETCH_DEADLINE (R161): the deadline has passed and the image is not complete. -/
def execFetchDeadline (slot : Nat) (s : State) : Out :=
  .next (
    match s.vat.fetches.find? (fun f => f.slot == slot) with
    | some f => if judgeNow s (fetchDeadline s f) = .timeout then fetchFail s f else s
    | none => s)

/-- An entry of a role stands for the layer and SEL of another. -/
def entLike (e : ImgEnt) (role layer sel : Nat) : Bool := e.role == role && e.layer == layer && e.sel == sel

/-- How many entries of a role the image holds for a layer and SEL. -/
def entCount (es : List ImgEnt) (role layer sel : Nat) : Nat := (es.filter (fun e => entLike e role layer sel)).length

/-- A LOW_RANK image within the limits of R144: pairs of LR_DOWN and LR_UP of the image's rank, one at most for a layer and
a base matrix. -/
def lowRankOk (rank : Nat) (es : List ImgEnt) : Bool :=
  es.all (fun e => (e.role == roleDown && e.n == rank || e.role == roleUp && e.k == rank)
    && entCount es roleDown e.layer e.sel == 1 && entCount es roleUp e.layer e.sel == 1)

/-- The width f of an expert's matrix (R145). -/
def expertF (e : ImgEnt) : Nat := if e.role = roleOut then e.k else e.n

/-- An EXPERT_SET image within the limits of R144: for each expert one EX_IN, one EX_OUT and at most one EX_GATE of one
width f, a multiple of 32 in 32-16,384; one RT_EXT for each layer with experts, and no other. -/
def expertSetOk (es : List ImgEnt) : Bool :=
  es.all (fun e =>
    if e.role = roleExt then
      entCount es roleExt e.layer 0 == 1 && es.any (fun x => x.role == roleIn && x.layer == e.layer)
    else decide (roleIn ≤ e.role) && entCount es roleIn e.layer e.sel == 1 && entCount es roleOut e.layer e.sel == 1
      && decide (entCount es roleGate e.layer e.sel ≤ 1) && entCount es roleExt e.layer 0 == 1
      && expertF e % 32 == 0 && decide (32 ≤ expertF e) && decide (expertF e ≤ 16384)
      && es.all (fun x => x.role == roleExt || x.layer != e.layer || x.sel != e.sel || expertF x == expertF e))

/-- The contents and limits of an image's kind (R144). -/
def kindOk (h : ImgHdr) (es : List ImgEnt) : Bool :=
  if h.kind = 1 then lowRankOk h.rank es else expertSetOk es

/-- Entry records and panels of a plaintext image hold (R144, R160). -/
def imageOk (v : VSlot) (bs : List Byte) : Bool :=
  let h := parseImg bs
  let ents := chunks 32 h.n (slice bs 64 (32 * h.n))
  imgHdrOk bs && h.adapter == v.adapter && h.len == bs.length && decide (h.len ≤ v.len) && ents.all entOk
    && kindOk h (ents.map parseEnt)
    && allZero (slice bs (64 + 32 * h.n) (alignUp (32 * h.n) 64 - 32 * h.n))
    && ents.all (fun eb =>
      let e := parseEnt eb
      decide (e.offset + e.npanels * e.stride ≤ h.len) &&
      (countFrom 0 e.npanels).all (fun k =>
        let p := slice bs (e.panelOff k) e.stride
        panelCrcOk p && field p 0 1 == 1 && field p 1 1 == e.role && field p 2 1 == e.pr && field p 3 1 == e.pw
          && field p 6 1 == e.layer && field p 7 1 == e.sel && field p 8 3 == h.adapter && field p 0xB 1 == 0
          && field p 0xC 2 == k % e.kp && field p 0xE 2 == k / e.kp && allZero (slice p 0x10 0x2C)))

/-- A panel with OWNER written and its CRC formed anew (R160). -/
def ownPanel (owner : Nat) (p : List Byte) : List Byte :=
  let p := patch p 4 (leBytes 2 owner)
  patch p 0x3C (leBytes 4 (crc32c (patch p 0x3C [0, 0, 0, 0])))

/-- The image with its owner in every panel (R160). -/
def ownImage (owner : Nat) (bs : List Byte) : List Byte :=
  let h := parseImg bs
  ((chunks 32 h.n (slice bs 64 (32 * h.n))).map parseEnt).foldl (fun bs e =>
    (countFrom 0 e.npanels).foldl (fun bs k =>
      patch bs (e.panelOff k) (ownPanel owner (slice bs (e.panelOff k) e.stride))) bs) bs

/-- The IMPORT key of a context (R517, R520). -/
def importKey (s : State) (c : Nat) : List Byte := ((tget none s.keys.ctx c).map KeySlot.imp).getD []

/-- The sealed image of a fetch is complete (R160, R161): decrypted, checked, written under its owner's key; the slot is
RESIDENT. A record that fails its check then is not acted on (R154). -/
def fetchEnd (s : State) (f : VFetch) : State :=
  match slotAt? s f.slot with
  | none =>
    let s := { s with vat.fetches := s.vat.fetches.filter (fun g => g.slot != f.slot) }
    vatSem (vatBad s (vatSlot s f.slot)) f.port f.sem
  | some v =>
    let late := judgeNow s (fetchDeadline s f)
    let body := gcmBody f.data
    match openGcm (importKey s f.ctx) (f.data.take 12) (ascii "SV44-ADPT" ++ leBytes 4 v.adapter) body with
    | none => fetchFail s f
    | some bs =>
      if late = .timeout || field f.data 12 4 != 0 || !imageOk v bs then fetchFail s f
      else
        let h := parseImg bs
        let s := writeUnder s (ctxKey s f.ctx) v.data (ownImage v.owner bs)
        let s := putSlot s f.slot { v with state := slResident, kind := h.kind, baseId := h.baseId, last := vOk }
        let s := { s with vat.fetches := s.vat.fetches.filter (fun g => g.slot != f.slot) }
        let s := modPort s f.port (fun p => { p with late := late == .late })
        vatSem s f.port f.sem
where
  /-- Ciphertext and tag of a sealed stream, after its prefix of 16 bytes (R520). -/
  gcmBody (d : List Byte) : List Byte := d.drop 16

/-! ### At a Lesson (R166, R176) -/

/-- Starts the copies that waited for governor HOLD to end or for their entry to come out of use (R165, R274). -/
def vatRestart (s : State) : State :=
  { s with vat.jobs := s.vat.jobs.map (fun j =>
      if j.waiting && !s.pwr.hold && (j.kind != .unstage ||
          (match slotAt? s j.slot with
           | some v => !unstageWaits s v
           | none => true)) then { j with waiting := false } else j) }

/-- The staging entries that a 512-byte bitmap names, below ADAPT_MAX (R374). -/
def bitmapBits (bs : List Byte) (n : Nat) : List Nat :=
  (countFrom 0 n).filter (fun k => bitOf (getAt 0 bs (k / 8)).toNat (k % 8))

/-- The Vat engine reads the binding list and writes the spill bitmap (R166, R374). -/
def spillBitmap (s : State) (p : Nat) : State :=
  match stagingWin s p with
  | none => s
  | some w =>
    let bound := bitmapBits (readWin s p w 0x20200 512) (adaptMax s p)
    let due := bound.filter (fun k => let b := readStg s p k; !(stgOk b && (parseStg b).state == 2))
    let bs := due.foldl (fun bs k => patch bs (k / 8) [getAt 0 bs (k / 8) ||| BitVec.ofNat 8 (2 ^ (k % 8))])
      (List.replicate 512 (0 : Byte))
    let s := writeKey s (classKey s p w) (addrOf (w.mem, 0x20000 + w.base)) bs
    modPtn s p (fun q => { q with binding := bound })

end Sys2Proof.Machine
end

