-- ==== Sys2Proof/Machine/Brine.lean ====
section
/-! DEFINITION. Brine (spec/12_partitions_contexts.md R413-R421, R424): scrub jobs, the base table and BASE_COMMIT,
BASE_TEARDOWN, and the engine's commands.
Readings and choices: log 9, 23, 25, 52, 53. -/

namespace Sys2Proof.Machine

/-! ### Ranges -/

/-- Splits a linear range of a memory kind at its slices: local address and length of each part (R340-R342). -/
def sliceRanges (k : MemKind) : (fuel : Nat) → (off n : Nat) → List (Nat × Nat)
  | 0, _, _ => []
  | f + 1, off, n =>
    if n = 0 then [] else
    let room := if k.isSram then n else 2 ^ 36 - off % 2 ^ 36
    let m := min n room
    (addrOf (k, off), m) :: sliceRanges k f (off + m) (n - m)

/-- A linear range as ciphertext of zero under a fresh scrub key, which is kept nowhere else (R413). -/
def scrubLinear (s : State) (k : MemKind) (off n : Nat) : State :=
  match draw s 64 with
  | (key, s) => forEach (sliceRanges k 17 off n) (fun s r => fillZero s r.1 r.2 key) s

/-! ### Scrubs (R415) -/

/-- The Vat's slots whose OWNER is one of the contexts. -/
def slotsOwned (s : State) (f : Nat → Bool) : List Nat :=
  (listedWords s 0x04000000 (4 * 2 ^ 20) 64).filter (fun k =>
    match slotAt? s k with
    | some v => v.state != slFree && f (tagCtx v.owner)
    | none => false)

/-- EVICT of a slot by a scrub job (R163, R415): its ID map and expert entries invalid, its data scrubbed, the slot FREE;
what the Vat was doing with it ends. -/
def evictSlot (s : State) (k : Nat) : State :=
  match slotAt? s k with
  | none => s
  | some v =>
    let s := forEach (expertsOf s k) (fun s e => putExp s e.1 e.2.1 e.2.2 none) s
    let s := putSlot (scrubRange (putId s v.adapter none) v.data v.len) k { gen := v.gen, fetchSeq := v.fetchSeq }
    { s with vat.fetches := s.vat.fetches.filter (fun f => f.slot != k), vat.jobs := s.vat.jobs.filter (fun j => j.slot != k) }

/-- The READY or PENDING staging entries of a partition, by index. -/
def stagedEntries (s : State) (p : Nat) : List (Nat × StgEnt) :=
  ((countFrom 0 (adaptMax s p)).map (fun k => (k, readStg s p k))).filterMap (fun e =>
    let g := parseStg e.2
    if stgOk e.2 && g.state != 0 then some (e.1, g) else none)

/-- The end of the range of a staged image: the next staged IMAGE_ADDR in the window, or the window's end (R415, R463). -/
def stagedEnd (s : State) (p image : Nat) : Nat :=
  let next := ((stagedEntries s p).map (fun e => e.2.image)).filter (fun a => decide (image < a))
  match next with
  | a :: as => as.foldl min a
  | [] =>
    match stagingWin s p with
    | some w => addrOf (w.mem, w.base + (w.size - 1)) + 1
    | none => image

/-- A context's staged ranges are scrubbed, its entries EMPTY and their slots RESIDENT (R415). -/
def scrubStaged (s : State) (p c : Nat) : State :=
  let mine := (stagedEntries s p).filter (fun e => tagCtx e.2.owner == c && tagValid e.2.owner)
  forEach mine (fun s e =>
    let s := scrubRange s e.2.image (stagedEnd s p e.2.image - e.2.image)
    match slotAt? s e.2.slot with
    | some v => putSlot s e.2.slot { v with state := if v.state = slStaged then slResident else v.state, stage := 0, stg := 0, stgPtn := 0 }
    | none => s) (forEach mine (fun s e => writeStg s p e.1 {}) s)

/-- The bytes of a context's PRIVATE windows in HBM and tier 2. -/
def privWins (s : State) (p c : Nat) : List Win :=
  (ptnWins s p).filter (fun w => w.type == .priv && w.owner == c && !w.mem.isSram)

/-- The bytes that a job scrubs or reads, by windows and quotas. -/
def jobBytes (s : State) : BrnJob → Nat
  | .partition p => match grantOf s p with
    | some g => (g.hbmSize + g.t2Size) * 65536
    | none => 0
  | .context p c => sumNat ((privWins s p c).map Win.size)
  | .baseTeardown b | .baseCommit b _ _ =>
    sumNat (((moduleWins s).filter (fun w => (w.type == .base || w.type == .colsum) && w.owner == b)).map Win.size)

/-- JOB as BRN_STATUS shows it, the partition and the context of a job (R424). -/
def jobCode : BrnJob → Nat × Nat × Nat
  | .partition p => (1, p, 0xFFFF)
  | .context p c => (2, p, c)
  | .baseTeardown _ | .baseCommit _ _ _ => (3, 0, 0xFFFF)

/-- The scrub of a context ends: its windows, staged images and slots are gone and the context is FREE (R410, R415). -/
def endContext (s : State) (p c : Nat) : State :=
  let s := forEach (privWins s p c) (fun s w => scrubLinear s w.mem w.base w.size) s
  let s := forEach (slotsOwned s (· == c)) evictSlot (scrubStaged s p c)
  let s := { s with rc.buf := s.rc.buf.filter (fun e => !(e.2.bound && e.2.ctx == c)),
                    rc.pool := s.rc.pool.filter (fun e => !(e.2.bound && e.2.ctx == c)),
                    xf.digests := s.xf.digests.filter (fun d => d.ctx != c) }
  freeCtx s c

/-- The scrub of a partition ends: its quotas and slots are gone, every key slot of its range is zeroised, and it is OFF
(R412, R415). -/
def endPartition (s : State) (p : Nat) : State :=
  let cs := ctxRange s p
  let s := match grantOf s p with
    | some g => scrubLinear (scrubLinear s .hbm (g.hbmBase * 65536) (g.hbmSize * 65536)) .tier2 (g.t2Base * 65536) (g.t2Size * 65536)
    | none => s
  let s := forEach (slotsOwned s cs.contains) evictSlot s
  let s := forEach (cs.filter (fun c => (getCtx s c).state != .free || (getCtx s c).loaded)) freeCtx s
  let s := { s with keys.ptn := tset none s.keys.ptn p none, xf.digests := s.xf.digests.filter (fun d => !cs.contains d.ctx),
                    brn.queue := s.brn.queue.filter (fun j => match j with | .context q _ => q != p | _ => true) }
  setPtnState (modPtn s p (fun q => { q with
    scrubLeft := 0, restSince := if q.enablePending.isSome then some (restFrom s) else none })) p .off

/-! ### The base table and BASE_COMMIT (R420) -/

/-- Bytes of a base tile: kind 0, FMT OZ4 (R106). -/
def baseTileLen : Nat := 8512

/-- The ranges of an entry in the BASE window. -/
def entRanges (e : BaseEnt) : List (Nat × Nat) :=
  if e.kind = 1 then [(e.tileOff, e.kt * e.ntc * baseTileLen), (e.stripOff, 64 + alignUp (2 * 128 * e.ntc) 64)]
  else [(e.tileOff, 256 * e.ntc + 4)]

/-- The range of an entry's column-sum table in the COLSUM window (R130). -/
def entColsums (e : BaseEnt) : List (Nat × Nat) :=
  if e.kind = 1 then [(256 * e.colsumOff, 260 * e.kt * e.ntc)] else []

/-- Two ranges overlap. -/
def overlaps (a b : Nat × Nat) : Bool := decide (a.1 < b.1 + b.2) && decide (b.1 < a.1 + a.2)

/-- No two ranges of a list overlap. -/
def apart : List (Nat × Nat) → Bool
  | [] => true
  | r :: rs => rs.all (fun q => !overlaps r q) && apart rs

/-- One entry's reserved fields and codes (R420). -/
def baseEntOk (bs : List Byte) (k : Nat) : Bool :=
  let e := baseEnt bs k
  let rsv := slice bs (64 + 32 * k + 0x1D) 3
  allZero rsv && e.tileOff % 64 == 0 &&
    (if e.kind = 1 then decide (1 ≤ e.kt) && decide (1 ≤ e.ntc) && decide (e.ntc ≤ 512) && e.stripOff % 64 == 0
     else e.kind == 2 && e.kt == 0 && decide (1 ≤ e.ntc) && e.stripOff == 0 && e.colsumOff == 0)

/-- Step 1 of BASE_COMMIT: the table (R420). -/
def baseTableOk (w c : Win) (b : Nat) (bs : List Byte) : Bool :=
  let n := field bs 2 2
  let es := (countFrom 0 n).map (baseEnt bs)
  let rs := (es.map entRanges).flatten
  let cs := (es.map entColsums).flatten
  field bs 0 1 == 1 && field bs 1 1 == 0 && decide (1 ≤ n) && decide (n ≤ 4096) && field bs 4 2 == b
    && allZero (slice bs 6 0x36) && field bs 0x3C 4 == crc32c (patch bs 0x3C [0, 0, 0, 0])
    && (countFrom 0 n).all (baseEntOk bs) && decide (64 + 32 * n ≤ w.size)
    && rs.all (fun r => decide (r.1 + r.2 ≤ w.size)) && cs.all (fun r => decide (r.1 + r.2 ≤ c.size)) && apart rs && apart cs

/-- A check of BASE_COMMIT that fails: with a fault code where the manual has one, and the address. -/
abbrev BaseErr := Option FaultCode × Nat

/-- A tile of a base matrix as stored, checked against its place (R108-R110, R420). -/
def baseTile (s : State) (w : Win) (b : Nat) (e : BaseEnt) (r c : Nat) : Except BaseErr Tile :=
  let off := e.tileOff + (r * e.ntc + c) * baseTileLen
  let at_ := addrOf (w.mem, w.base + off)
  let bs := readWin s 0 w off baseTileLen
  -- a tile of a reserved FMT or KIND has no length and no checksum (R110)
  if (tileLen (rawFmt bs) (rawKind bs)).isNone then .error (some .tileHeader, at_) else
  match judgeTile bs with
  | .crcFail => .error (some .tileCrc, at_)
  | .hdrFail => .error (some .tileHeader, at_)
  | .ok t =>
    if t.hdr.kind == 0 && t.hdr.fmt == fOZ4 && t.hdr.baseId == b && t.hdr.tensorId == e.tensor && t.hdr.tileRow == r
        && t.hdr.tileCol == c then .ok t
    else .error (some .tileHeader, at_)

/-- Writes bytes of a base's windows under the base key. -/
def writeWin (s : State) (w : Win) (off : Nat) (bs : List Byte) : State :=
  writeKey s (classKey s 0 w) (addrOf (w.mem, w.base + off)) bs

/-- The channel scale strip of a matrix from the tiles of its first row (R185). -/
def stripBytes (b : Nat) (e : BaseEnt) (ts : List Tile) : List Byte :=
  let nch := 128 * (e.ntc - 1) + (match ts.getLast? with | some t => t.hdr.cols | none => 128)
  let scales := ((ts.map (fun t => padTo 0 128 t.hdr.scales)).flatten).take nch
  let bs := slice (leBytes 4 1 ++ leBytes 4 nch ++ leBytes 4 e.tensor ++ leBytes 2 b) 0 64
    ++ slice ((scales.map (fun x => leBytes 2 x.toNat)).flatten) 0 (alignUp (2 * nch) 64)
  patch bs 0x3C (leBytes 4 (crc32c bs))

/-- Steps 2 and 3 of BASE_COMMIT for one entry (R420): a matrix's tiles, strip and column sums, or a vector's CRC. -/
def baseEntry (s : State) (w c : Win) (b : Nat) (e : BaseEnt) : State × Except BaseErr Unit :=
  if e.kind = 1 then
    let places := ((countFrom 0 e.kt).map (fun r => (countFrom 0 e.ntc).map (fun k => (r, k)))).flatten
    match places.mapM (fun p => baseTile s w b e p.1 p.2) with
    | .error x => (s, .error x)
    | .ok ts =>
      let s := writeWin s w e.stripOff (stripBytes b e (ts.take e.ntc))
      let co := 256 * e.colsumOff
      let s := (List.zip (countFrom 0 ts.length) ts).foldl (fun s x =>
        let rec_ := colsumBytes (columnSums x.2)
        writeWin (writeWin s c (co + 256 * x.1) rec_) c (co + 256 * e.kt * e.ntc + 4 * x.1) (leBytes 4 (crc32c rec_))) s
      let bad := (countFrom 0 ts.length).find? (fun i =>
        leNat (readWin s 0 c (co + 256 * e.kt * e.ntc + 4 * i) 4) != crc32c (readWin s 0 c (co + 256 * i) 256))
      match bad with
      | some i => (s, .error (some .colsumChecksum, addrOf (c.mem, c.base + co + 256 * i)))
      | none => (s, .ok ())
  else
    let v := readWin s 0 w e.tileOff (256 * e.ntc + 4)
    if field v (256 * e.ntc) 4 = crc32c (v.take (256 * e.ntc)) then (s, .ok ())
    else (s, .error (none, addrOf (w.mem, w.base + e.tileOff)))

/-- The entries in order, up to the first that fails. -/
def baseEntries (s : State) (w c : Win) (b : Nat) : List BaseEnt → State × Except BaseErr Unit
  | [] => (s, .ok ())
  | e :: es =>
    match baseEntry s w c b e with
    | (s, .ok ()) => baseEntries s w c b es
    | r => r

/-- The checks and writes of BASE_COMMIT and OH_BASE (R391, R420): the base's table where they pass. -/
def loadBase (s : State) (b : Nat) : State × Except BaseErr (List Byte) :=
  match baseWin s b, colsumWin s b with
  | some w, some c =>
    let n := field (readWin s 0 w 0 64) 2 2
    let bs := readWin s 0 w 0 (64 + 32 * min n 4096)
    if !baseTableOk w c b bs then (s, .error (none, addrOf (w.mem, w.base)))
    else
      match baseEntries s w c b ((countFrom 0 n).map (baseEnt bs)) with
      | (s, .ok ()) => (s, .ok bs)
      | (s, .error x) => (s, .error x)
  | _, _ => (s, .error (none, 0))

/-- Rind takes effect on a base window, and the subtraction flags of the base clear (R133, R212, R420). -/
def setRind (s : State) (b : Nat) : State :=
  { s with brn.rind := insertNat b s.brn.rind, subf := s.subf.filter (fun f => f.base != b) }

/-- Raises the fault of a failing base check, where the manual names one (R420). -/
def baseFault (s : State) (x : BaseErr) : State :=
  match x.1 with
  | some c => raise s c { kind := .brine, detail := detailAddr x.2 }
  | none => s

/-- Status codes of BRN_RESULT (R424). -/
def brOk : Nat := 0
def brInUse : Nat := 1
def brRole : Nat := 2
def brRejected : Nat := 3
def brQueued : Nat := 4
def brNoBase : Nat := 5
def brBadBase : Nat := 6
def brNoKey : Nat := 7
def brRindSet : Nat := 8

/-- The answer in BRN_RESULT. -/
def brnResult (s : State) (st : Nat) : State := { s with brn.done := true, brn.status := st }

/-- The end of a BASE_COMMIT job (R420): its journal entry stands on behalf of the writer, and Rind takes no effect where the journal
has no room for it (R510). -/
def endCommit (s : State) (b role slot : Nat) : State :=
  match loadBase s b with
  | (s, .ok bs) =>
    if journalRoom s then
      brnResult (journal (setRind s b) { action := 0x14, role := role, slot := slot, aux := b, data := (shake256 32 bs) }) brOk
    else brnResult s brRejected
  | (s, .error x) => brnResult (baseFault s x) brBadBase

/-- The end of a BASE_TEARDOWN job: the base's key ends with it (R421, R518). -/
def endBaseTeardown (s : State) (b : Nat) : State :=
  let ws := (moduleWins s).filter (fun w => (w.type == .base || w.type == .colsum) && w.owner == b)
  let s := forEach ws (fun s w => scrubLinear s w.mem w.base w.size) s
  let s := match baseSlot s b with
    | some k => { s with keys.base := tset none s.keys.base k none }
    | none => s
  brnResult { s with brn.rind := s.brn.rind.filter (· != b), subf := s.subf.filter (fun f => f.base != b) } brOk

/-! ### The engine (R417, R424) -/

/-- An event of Brine (R418, R491). -/
def brnEvent (s : State) (kind : Nat) (j : BrnJob) : State :=
  let (c, p, x) := jobCode j
  queueEvent s kind (eventRec s kind p x (leBytes 8 c ++ leBytes 8 (jobBytes s j)))

/-- Brine takes the next job (R417): it is ON, has none, and the governor is not in HOLD (R274). -/
def brnStart (s : State) : State :=
  match s.brn.queue with
  | [] => s
  | j :: q =>
    if s.brn.engine ≠ .on ∨ s.brn.cur.isSome ∨ s.pwr.hold then s
    else brnEvent { s with brn.queue := q, brn.cur := some j, brn.left := jobBytes s j / 2 ^ 20 } 3 j

/-- A snapshot job still reads a capture buffer that the scrub would clear (R560). -/
def captureHolds (s : State) : BrnJob → Bool
  | .partition p => s.snp.jobs.any (fun j => j.ptn == p)
  | .context p c => s.snp.jobs.any (fun j => j.ptn == p &&
      (match placeOf none (localOf s j.buf) with
       | some pl => (privWins s p c).any (fun w => w.has pl)
       | none => false))
  | _ => false

/-- The current job ends (R417); a scrub waits for the snapshot job that reads a buffer in its range (R560). -/
def brnEnd (s : State) : State :=
  match s.brn.cur with
  | none => s
  | some j =>
    if s.brn.engine ≠ .on ∨ s.pwr.hold ∨ captureHolds s j then s
    else
      let ev := jobBytes s j
      let s := match j with
        | .partition p => endPartition s p
        | .context p c => endContext s p c
        | .baseTeardown b => endBaseTeardown s b
        | .baseCommit b role slot => endCommit s b role slot
      let (c, p, x) := jobCode j
      queueEvent { s with brn.cur := none, brn.left := 0, brn.count := satInc 32 s.brn.count } 4
        (eventRec s 4 p x (leBytes 8 c ++ leBytes 8 ev))

/-- A partition in ACTIVE, HELD or TEARDOWN declares a TENSOR in the base (R421). -/
def baseInUse (s : State) (b : Nat) : Bool :=
  s.ptn.any (fun e => (e.2.state == .active || e.2.state == .held || e.2.state == .teardown)
    && (match e.2.syl with
        | some y => y.wins.any (fun w => w.type == .tensor && w.owner == b)
        | none => false))

/-- A base command of the module Syllabus's windows (R420, R421): answered at once where it is refused, at the end of its
job otherwise. A teardown is journaled (R509), and neither is done on behalf of a role that the journal has no room for (R510). -/
def brnBase (s : State) (who : Req) (commit : Bool) (b : Nat) : State :=
  if s.syl.module.isNone || (baseWin s b).isNone then brnResult s brNoBase
  else if commit then
    if s.brn.rind.contains b then brnResult s brRindSet
    else if (match baseSlot s b with | some k => (tget none s.keys.base k).isNone | none => true) then brnResult s brNoKey
    else if !journalRoom s then brnResult s brRejected
    else brnPush s (.baseCommit b (journalRole s who).1 (journalRole s who).2)
  else if baseInUse s b then brnResult s brInUse
  else if !journalRoom s then brnResult s brRejected
  else brnPush (journalFor s who { action := 0x09, aux := b }) (.baseTeardown b)

/-- ENABLE (R411, R424), journaled (R509). -/
def brnEnable (s : State) (who : Req) : State :=
  if !journalRoom s then brnResult s brRejected else
  let s := journalFor s who { action := 0x12, aux := 2 }
  match s.brn.engine with
  | .disabling => brnResult { s with brn.enablePending := true } brQueued
  | _ => brnResult { s with brn.engine := .on, brn.enablePending := false, brn.restSince := none } brOk

/-- DISABLE (R424), journaled (R509): it finishes the burst in progress, and a queued ENABLE is not cancelled. -/
def brnDisable (s : State) (who : Req) : State :=
  if !journalRoom s then brnResult s brRejected else
  let s := journalFor s who { action := 0x12, aux := 3 }
  match s.brn.engine with
  | .on => brnResult { s with brn.engine := .disabling } brOk
  | _ => brnResult s brOk

/-- A write of BRN_CMD (R424, R626). -/
def brnCmd (s : State) (who : Req) (word : Nat) : State :=
  let op := bits word 0 4
  if bits word 24 8 ≠ 0 ∨ bits word 4 4 ≠ 0 ∨ op = 0 ∨ 5 ≤ op then brnResult s brRejected
  else if op = 1 ∨ op = 4 then
    if isOperator s who then brnBase s who (op == 4) (bits word 8 16) else brnResult s brRole
  else if !isInstaller s who then brnResult s brRole
  else if op = 2 then brnEnable s who
  else brnDisable s who

/-- The block accepts a command from the operator and the installer (R424, R503). -/
def mayBrn (s : State) (who : Req) : Bool := partsUp s && (isOperator s who || isInstaller s who)

/-- BASE_COMMIT (R420). -/
def execBaseCommit (who : Req) (base : Nat) (s : State) : Out :=
  .next (if mayBrn s who then brnCmd s who (256 * (base % 65536) + 4) else s)
/-- BASE_TEARDOWN (R421). -/
def execBaseTeardown (who : Req) (base : Nat) (s : State) : Out :=
  .next (if mayBrn s who then brnCmd s who (256 * (base % 65536) + 1) else s)
/-- BRINE_ENABLE (R424). -/
def execBrineEnable (who : Req) (s : State) : Out := .next (if mayBrn s who then brnCmd s who 2 else s)
/-- BRINE_DISABLE (R424). -/
def execBrineDisable (who : Req) (s : State) : Out := .next (if mayBrn s who then brnCmd s who 3 else s)
/-- BRINE_JOB_START (R417). -/
def execBrineJobStart (s : State) : Out := .next (brnStart s)
/-- BRINE_JOB_END (R417). -/
def execBrineJobEnd (s : State) : Out := .next (brnEnd s)
/-- BRINE_DISABLED (R424): the burst in progress at DISABLE has ended. -/
def execBrineDisabled (s : State) : Out :=
  .next (if s.brn.engine = .disabling then
    { s with brn.engine := .off, brn.restSince := if s.brn.enablePending then some (restFrom s) else none } else s)

end Sys2Proof.Machine
end

