-- ==== Sys2Proof/Machine/Integrity.lean ====
section
/-! DEFINITION. Integrity (spec/17_integrity_silent_errors.md): patrol and soft repair of memory, checker decisions, quizzes,
detention and retirement of cores, and the fault log.
Readings and choices: log 15, 35, 54, 55, 56, 57, 58, 126, 145, 148, 156, 161. -/

namespace Sys2Proof.Machine

/-! ### Soft-repair records (R579-R582) -/

/-- The 32 bytes of a repair record (R579). -/
def Repair.bytes (r : Repair) : List Byte :=
  withCrcTail (slice (leBytes 1 1 ++ leBytes 1 r.kind ++ leBytes 1 r.origin ++ leBytes 1 r.state ++ leBytes 2 r.unit
    ++ leBytes 1 r.bank ++ leBytes 1 r.spare ++ leBytes 4 r.addr ++ leBytes 1 r.bit ++ leBytes 3 0 ++ leBytes 8 r.stamp) 0 32) 28

/-- Repair record `k`. -/
def getRep (s : State) (k : Nat) : Repair := tget {} s.led.repair k

/-- Writes repair record `k`; each write is journaled with ACTION 0x0D and ROLE 0 (R579). -/
def putRep (s : State) (k : Nat) (r : Repair) : State :=
  journal { s with led.repair := tset {} s.led.repair k r } { action := 0x0D, data := r.bytes }

/-- The lowest free record. -/
def freeRep (s : State) : Option Nat := (countFrom 0 2048).find? (fun k => (getRep s k).state == 0)

/-- Records a repair; with every record in use it is not recorded and REPAIR_FULL is set (R582). -/
def addRep (s : State) (r : Repair) : State :=
  match freeRep s with
  | some k => putRep s k r
  | none => { s with tst.repairFull := true }

/-- PENDING records that meet a condition become APPLIED (R581). -/
def applyReps (s : State) (f : Repair → Bool) : State :=
  forEach (s.led.repair.filter (fun e => e.2.state == 1 && f e.2)) (fun s e => putRep s e.1 { e.2 with state := 2 }) s

/-- UNIT of a repair record for a memory place (R579). -/
def repUnit (s : State) (p : Place) : Nat :=
  match placeUnit p with
  | (.core, n) => (physOf s n).getD (n / 8 * 9 + n % 8)
  | (.cluster, k) => 0x8000 + k
  | (.hbm, c) => 0x4000 + c
  | (_, c) => 0x6000 + c

/-- Rows that a bank or channel can replace (R578). -/
def repSpares (p : Place) : Nat :=
  match p.1 with
  | .coreSram => 4 | .clusterSram => 8 | .hbm | .tier2 => 64

/-- KIND of a row repair: SRAM_ROW, DRAM_ROW. -/
def repKind (p : Place) : Nat := if p.1.isSram then 2 else 4

/-- A row that has reached its fourth correctable error within 24 h is repaired (R581): the record is written PENDING; a DRAM
row is applied at once. With no spare free nothing is written. -/
def rowRepair (s : State) (a : Nat) : State :=
  match placeOf none a with
  | none => s
  | some p =>
    let bank := if p.1.isSram then Config.memBank a % 256 else 0
    let u := repUnit s p
    let used := (s.led.repair.filter (fun e => e.2.state != 0 && e.2.kind == repKind p && e.2.unit == u && e.2.bank == bank)).map
      (fun e => e.2.spare)
    match (countFrom 0 (repSpares p)).find? (fun k => !used.contains k) with
    | none => s
    | some k =>
      let r : Repair := { kind := repKind p, origin := 4, state := 1, unit := u, bank := bank, spare := k,
                          addr := Config.memRow a % 2 ^ 32, bit := 0xFF, stamp := now s }
      let s := addRep s r
      if p.1.isSram then s else applyReps s (fun x => x == r)

/-- The row of a word: its unit, bank and row. -/
def rowOf (s : State) (a : Nat) : Option (Nat × Nat × Nat) :=
  (placeOf none a).map (fun p => (repUnit s p, Config.memBank a % 256, Config.memRow a % 2 ^ 32))

/-- 24 h in Bells. -/
def dayBells : Nat := 67500000000

/-- Correctable errors older than 24 h are forgotten, and every row with four of them is repaired and counted anew
(R581); each round repairs one row. -/
def ceGo : (fuel : Nat) → State → State
  | 0, s => s
  | n + 1, s =>
    let row (e : Nat × Nat) := rowOf s e.1
    match s.int.ceLog.find? (fun e => decide (4 ≤ (s.int.ceLog.filter (fun x => row x == row e)).length)) with
    | none => s
    | some e => ceGo n { rowRepair s e.1 with int.ceLog := s.int.ceLog.filter (fun x => row x != row e) }

/-- As `ceGo`, from the errors of the last 24 h. -/
def ceRepairs (s : State) : State :=
  let s := { s with int.ceLog := s.int.ceLog.filter (fun e => decide (s.bell.count < e.2 + dayBells)) }
  if s.int.ceLog.length < 4 then s else ceGo s.int.ceLog.length s

/-! ### Patrol (R527, R528) -/

/-- A local address lies in a window of KEY class 3. -/
def inModuleKey (s : State) (p : Place) : Bool := (moduleWins s).any (fun w => w.has p && w.key == .module)

/-- Upsets of memory words become their error states; a word that has a single error and takes another cannot be
corrected. -/
def upsetWords (s : State) (ups : List (Nat × Bool)) : State :=
  forEach ups (fun s u =>
    let old := tget .none s.memErr (u.1 / 8)
    { s with memErr := tset .none s.memErr (u.1 / 8) (if u.2 || old != .none then .double else .single) }) s

/-- A stretch put into a list of stretches, joined with those that it meets. -/
def joinRange (t : Tbl Nat) (a n : Nat) : Tbl Nat :=
  let meet (e : Nat × Nat) : Bool := decide (e.1 ≤ a + n) && decide (a ≤ e.1 + e.2)
  let hit := t.filter meet
  let lo := hit.foldl (fun x e => min x e.1) a
  let hi := hit.foldl (fun x e => max x (e.1 + e.2)) (a + n)
  tset 0 (t.filter (fun e => !meet e)) lo (hi - lo)

/-- What the patrol has read (R527, R618): a pass is complete when it has read every word of HBM and tier 2. -/
def patrolled (s : State) (p : Place) (n : Nat) : State :=
  let off := if p.1 == .hbm then p.2 else 2 ^ 39 + p.2
  let seen := joinRange s.mc.seen off (min n (2 ^ 36 - p.2 % 2 ^ 36))
  if sumNat (seen.map Prod.snd) < 3 * 2 ^ 39 then { s with mc.seen := seen }
  else { s with mc.seen := [], mc.passes := satInc 32 s.mc.passes }

/-- The patrol of a range of one slice (R527): SOURCE 1; a single bit is corrected, an uncorrectable word is left. -/
def patrol (s : State) (a n : Nat) : State :=
  match placeOf none a with
  | none => s
  | some p =>
    if p.1.isSram then s else
    let s := patrolled s p n
    let hit := s.memErr.filter (fun e => decide (a < 8 * e.1 + 8) && decide (8 * e.1 < a + n))
    forEach hit (fun s e =>
      let at_ := wordAt (8 * e.1) 1 (e.2 != .double)
      match e.2 with
      | .double => raise s (if inModuleKey s p then .memUeModule else .memUe) at_
      | _ => raise { s with memErr := tdel s.memErr e.1, int.ceLog := s.int.ceLog ++ [(8 * e.1, s.bell.count)] } .memCe at_) s

/-- MEMORY_PATROL (R527, R581): `ups` are upsets of memory words that have come about, by address, with whether they cannot
be corrected; then the patrol reads the `n` bytes at local address `addr`. -/
def execMemoryPatrol (ups : List (Nat × Bool)) (addr n : Nat) (s : State) : Out :=
  .next (ceRepairs (patrol (upsetWords s ups) addr n))

/-! ### Detention (R540) -/

/-- A core number's threads are suspended and its queues frozen (R268, R540). -/
def freezeCore (s : State) (n : Nat) : State :=
  let s := modCore s n (fun c => { c with frozen := true })
  forEach ((getCore s n).thr.filter (fun t => t.2.state != .idle)) (fun s t => suspend s n t.1) s

/-- A core number's threads resume and its queues run again. -/
def thawCore (s : State) (n : Nat) : State :=
  let s := modCore s n (fun c => { c with frozen := false })
  forEach (getCore s n).thr (fun s t => bellWake (unsuspend s n t.1) n t.1) s

/-- The cluster belongs to a partition whose Timetable is RUNNING, so that cores change only at its boundaries (R540). -/
def underLesson (s : State) (k : Nat) : Bool :=
  match ptnOfCluster s k with
  | some p => (getPtn s p).tt.state == .running
  | none => false

/-- The physical cores of a cluster. -/
def physOfCluster (k : Nat) : List Nat := countFrom (9 * k) 9

/-- The cluster's SPARE, where it stands by. -/
def spareOf (s : State) (k : Nat) : Option Nat := (physOfCluster k).find? (fun q => (getPhys s q).state == .spare)

/-- A SPARE takes a core number (R20, R540): the number's threads and queues go on there. -/
def standIn (s : State) (q n : Nat) : State :=
  thawCore (modPhys s q (fun x => { x with state := .active, number := n, prior := .spare, home := n })) n

/-- A detained core leaves service: its cluster's SPARE takes the number, or none does (R540). -/
def leaveService (s : State) (q : Nat) : State :=
  let n := (getPhys s q).number
  let s := modPhys s q (fun x => { x with leaving := false, number := 0x3FF })
  if n = 0x3FF then s
  else match spareOf s (q / 9) with
    | some r => standIn s r n
    | none => freezeCore s n

/-- A core enters detention, with FAILS 1 and CLEAN 0 (R540); an ACTIVE one leaves service at the next Lesson boundary of
its partition, or at once. -/
def detainPhys (s : State) (q : Nat) : State :=
  let x := getPhys s q
  match x.state with
  | .active =>
    let s := modPhys s q (fun x => { x with state := .detained, prior := .active, home := x.number, fails := 1, clean := 0,
                                            lastTest := none, leaving := true })
    if underLesson s (q / 9) then s else leaveService s q
  | .spare =>
    modPhys s q (fun x => { x with state := .detained, prior := .spare, home := 0x3FF, fails := 1, clean := 0, lastTest := none })
  | _ => s

/-- The core that carries a number enters detention. -/
def detain (s : State) (n : Nat) : State :=
  match physOf s n with
  | some q => detainPhys s q
  | none => s

/-- A released core returns to its previous state, and its stand-in becomes SPARE again (R540). -/
def returnCore (s : State) (q : Nat) : State :=
  let x := getPhys s q
  let done (st : PhysState) (n : Nat) (s : State) := modPhys s q (fun x =>
    { x with state := st, number := n, releasing := false, clean := 0, fails := 0 })
  match x.prior with
  | .active =>
    let s := match physOf s x.home with
      | some r => modPhys s r (fun y => { y with state := .spare, number := 0x3FF, prior := .spare })
      | none => s
    thawCore (done .active x.home s) x.home
  | _ => done .spare 0x3FF s

/-- A detained core is retired (R540, R25): recorded as a soft repair, journaled with 0x0D; its stand-in keeps the number,
and without one CLUSTER_DEGRADED is raised when the spare is in use. -/
def retire (s : State) (q : Nat) : State :=
  let x := getPhys s q
  let s := modPhys s q (fun x => { x with state := .retired, number := 0x3FF, testing := false, releasing := false, fails := 2 })
  let s := raise s .coreRetired { kind := .core, unit := q }
  let s := addRep s { kind := 1, origin := 3, state := 1, unit := q, spare := 8, bit := 0xFF, stamp := now s }
  if x.prior != .active then s
  else if (physOf s x.home).isSome then s
  else
    let s := modPhys s q (fun x => { x with degrade := true })
    if (spareOf s (q / 9)).isSome then s
    else raise s .clusterDegraded { kind := .cluster, unit := q / 9, ptn := (ptnOfCluster s (q / 9)).getD 0xFF }

/-- A cluster is held (R25, R575): a partition that owns it does not run. -/
def holdCluster (s : State) (k : Nat) : State :=
  if s.int.heldClusters.contains k then s else { s with int.heldClusters := s.int.heldClusters ++ [k] }

/-- The repairs and core changes of a cluster that its Lesson boundary, or the absence of one, lets through (R25, R29,
R268, R540): retirements first, departures, returns, cores back from a quiz that its DEADLINE ended. -/
def clusterChanges (s : State) (k : Nat) : State :=
  let ps := physOfCluster k
  let s := forEach ps (fun s q =>
    if (getPhys s q).degrade then
      let n := (getPhys s q).home
      let s := modPhys s q (fun x => { x with degrade := false })
      match spareOf s k with
      | some r => standIn s r n
      | none => match ptnOfCluster s k with
        | some p => setHold (holdCluster s k) p causeDegraded
        | none => holdCluster s k
    else s) s
  let s := forEach ps (fun s q => if (getPhys s q).leaving then leaveService s q else s) s
  let s := forEach ps (fun s q => if (getPhys s q).releasing then returnCore s q else s) s
  forEach ps (fun s q =>
    let x := getPhys s q
    if x.lateReturn then
      let s := modPhys s q (fun x => { x with lateReturn := false })
      if x.number = 0x3FF then s else thawCore s x.number
    else s) s

/-- Clusters of a partition. -/
def clustersOf (s : State) (p : Nat) : List Nat := (countFrom 0 128).filter (fun k => (getPtn s p).owns k)

/-- What a Lesson boundary of a partition does before its recess processing (R29, R540, R581). -/
def boundaryRepairs (s : State) (p : Nat) : State :=
  let ks := clustersOf s p
  let s := applyReps s (fun r => (r.kind == 1 && ks.contains (r.unit / 9)) || (r.kind == 2 &&
    (if r.unit < 0x8000 then ks.contains (r.unit / 9) else ks.contains (r.unit - 0x8000))))
  forEach ks clusterChanges s

/-- Clusters with a repair or a core change that waits (R29, R540). -/
def waitingClusters (s : State) : List Nat :=
  let reps := (s.led.repair.filter (fun e => e.2.state == 1 && (e.2.kind == 1 || e.2.kind == 2))).map (fun e =>
    if e.2.kind = 2 ∧ 0x8000 ≤ e.2.unit then e.2.unit - 0x8000 else e.2.unit / 9)
  let ps := (s.phys.filter (fun e => e.2.any (fun x => x.degrade || x.leaving || x.releasing || x.lateReturn))).map (fun e => e.1 / 9)
  ps.foldl (fun acc k => insertNat k acc) (reps.foldl (fun acc k => insertNat k acc) [])

/-- Repairs and core changes of clusters that belong to no partition take effect without a Lesson boundary (R20, R25, R29, R540). -/
def freeRepairs (s : State) : State :=
  forEach ((waitingClusters s).filter (fun k => (ptnOfCluster s k).isNone)) (fun s k =>
    clusterChanges (applyReps s (fun r => (r.kind == 1 && r.unit / 9 == k) || (r.kind == 2 &&
      (if r.unit < 0x8000 then r.unit / 9 == k else r.unit - 0x8000 == k)))) k) s

/-! ### Checker decisions (R532-R536) -/

/-- The re-run core of a decision (R533). -/
def rerunCore (s : State) (n : Nat) (d : Decision) : Option Nat :=
  match ptnOfCluster s (n / 8) with
  | none => none
  | some p => (coresOf s p).find? (fun m =>
      m != n && !d.used.contains m && inService s m
        && (match physOf s m with | some q => (getPhys s q).state == .active | none => false)
        && (getCore s m).decision.isNone && (getCore s m).rerun.isNone)

/-- Frees the re-run slot of a decision. -/
def freeRerun (s : State) (d : Decision) : State :=
  match d.running with
  | some m => modCore s m (fun c => { c with rerun := none })
  | none => s

/-- A routed stationary tile is read again by unicast where a command of core `n` is tried anew (R533). -/
def reread (s : State) (n : Nat) (d : Decision) : State :=
  let a := parseAcd d.entry.desc
  if d.wcd || !a.product || a.keep || a.route = 0 then s
  else match fetchTile s d.entry.issuer a.stat with
    | (_, .tile bs) => deliver s { route := a.route, seq := a.loadSeq, addr := a.stat, bytes := bs } n
    | _ => s

/-- One attempt at a decision's command, at the original core's buffers. -/
def attempt (s : State) (d : Decision) (up : ArrayUpset) (rows : Option (List AccRow)) : Run :=
  if d.wcd then runWcd s up d.entry rows else runAcd s up d.entry rows

/-- The end of the command. -/
def endCmd (n : Nat) (d : Decision) (r : Run) : State := if d.wcd then endWcd n d.entry r else endAcd n d.entry r

/-- Contexts that have a row in a decision's command (R536). -/
def rowContexts (s : State) (d : Decision) : List Nat :=
  let tags := d.r0.map AccRow.tag
  let tags := if d.wcd && d.op == opWgrad then tags.map (fun k => (parseStg (readStg s d.entry.issuer.ptn k)).owner) else tags
  (tags.filter tagValid).foldl (fun acc t => insertNat (tagCtx t) acc) []

/-- The first column in which two runs differ. -/
def diffCol (a b : List AccRow) : Nat :=
  match (List.zip a b).find? (fun e => e.1 != e.2) with
  | some e => ((List.zip (countFrom 0 128) (List.zip e.1.vals e.2.vals)).find? (fun x => x.2.1 != x.2.2)).elim 0xFF Prod.fst
  | none => 0xFF

/-- Raises the outcome of a decision (R545): OUTCOME 1 CHECKER_FAULT, 2 REPLACED, 3 NO_MAJORITY. -/
def raiseOutcome (s : State) (n : Nat) (d : Decision) (c : FaultCode) (outcome col : Nat) : State :=
  raise s c (coreAt s { d.entry.issuer with core := n } (chkDetail d.op outcome d.firstRow d.core1 d.core2 col))

/-- NO_MAJORITY (R535, R536): no output, the Lesson aborted, DONE_SEM with REJ, every context with a row in the command
restarted, the original core detained. -/
def noMajority (s : State) (n : Nat) (detainIt : Bool) : State :=
  match (getCore s n).decision with
  | none => s
  | some d =>
    let p := d.entry.issuer.ptn
    let cs := rowContexts s d
    let s := modCore (freeRerun s d) n (fun c => { c with decision := none })
    let s := abortLesson (raiseOutcome s n d .noMajority 3 0xFF) p
    let s := endCmd n d (s, .fault .noMajority)
    let s := forEach cs (fun s c => if ptnOfCtx s c == some p then restartCtx s p c else s) s
    if detainIt then detain s n else s

/-- A decision ends with a run's rows accepted: the original core loads them and drains (R532). -/
def accept (s : State) (n : Nat) (d : Decision) (rows : List AccRow) : State :=
  let s := modCore (freeRerun s d) n (fun c => { c with decision := none })
  let s := reread s n d
  endCmd n d (attempt s d {} (some rows))

/-- What a re-run gives: its rows where it may be compared, and the state after it. -/
def rerunResult (s : State) (n m : Nat) (d : Decision) (up : ArrayUpset) : State × Option (List AccRow) :=
  let s0 := reread (modCore s n (fun c => { c with decision := none })) n d
  let up := { up with residue := none }
  -- the rows are those with which the command would report a mismatch
  let probe := attempt s0 d { up with chk := [d.firstRow], residue := some (0, true) } none
  -- a read that the re-run's single re-read cured counts on its core (R109, R142)
  let s := modCore s m (fun c => { c with
    crcRetry := satAdd 16 c.crcRetry ((getCore probe.1 n).crcRetry - (getCore s0 n).crcRetry) })
  match probe.2, (getCore probe.1 n).decision with
  | .wait .decision, some d' =>
    match (attempt s0 d up none).2 with
    | .wait .decision =>
      -- its own checker reports a mismatch: its core is detained
      let s := raise s .checkerMismatch (coreAt s { d.entry.issuer with core := m } (chkDetail d.op 0 d'.firstRow 0xFFFF 0xFFFF 0xFF))
      (detain (modCore s m (fun c => { c with chkMismatch := satInc 16 c.chkMismatch })) m, none)
    | _ => (s, some d'.r0)
  | .fault _, _ => ({ s with int := probe.1.int, memErr := probe.1.memErr }, none)
  | _, _ => (s, none)

/-- The outcome of a re-run (R532). -/
def rerunDone (s : State) (n m : Nat) (d : Decision) (up : ArrayUpset) : State :=
  let (s, r) := rerunResult s n m d up
  let s := modCore s m (fun c => { c with rerun := none })
  let d := { d with running := none }
  let first := d.core2 == 0xFFFF
  let stands (s : State) (rows : List AccRow) : State :=
    accept (raiseOutcome s n d .checkerFault 1 (diffCol d.r0 rows)) n d rows
  let replaces (s : State) (rows : List AccRow) : State :=
    accept (raiseOutcome s n d .resultReplaced 2 (diffCol d.r0 rows)) n d rows
  if first then
    match r with
    | some rows =>
      if rows = d.r0 then detain (stands s rows) n
      else if d.chk.isEmpty then detain (replaces s rows) n
      else modCore s n (fun c => { c with decision := some { d with r1 := r } })
    | none => modCore s n (fun c => { c with decision := some d })
  else
    match r with
    | some rows =>
      if rows = d.r0 then
        let s := detain (stands s rows) n
        -- a first re-run that ended in a fault of its operands does not detain its core
        if d.r1.isSome then detain s d.core1 else s
      else if r = d.r1 then detain (replaces s rows) n
      else noMajority (modCore s n (fun c => { c with decision := some d })) n true
    | none => noMajority (modCore s n (fun c => { c with decision := some d })) n true

/-- CHECKER_RERUN_START (R533): the decision of `core` takes the re-run slot of the lowest core that qualifies. -/
def execCheckerRerunStart (core : Nat) (s : State) : Out :=
  .next (
    match (getCore s core).decision with
    | some d =>
      if d.running.isSome then s else
      match rerunCore s core d with
      | some m =>
        let d := { d with running := some m, used := d.used ++ [m],
                          core1 := if d.core1 = 0xFFFF then m else d.core1,
                          core2 := if d.core1 = 0xFFFF then 0xFFFF else m }
        modCore (modCore s m (fun c => { c with rerun := some core })) core (fun c => { c with decision := some d })
      | none => s
    | none => s)

/-- CHECKER_RERUN_DONE (R532): the re-run that `core`'s decision made has ended; `up` are the upsets that it met. It runs
once the command of the re-run core has ended (R533). -/
def execCheckerRerunDone (core : Nat) (up : ArrayUpset) (s : State) : Out :=
  .next (
    match (getCore s core).decision with
    | some d =>
      match d.running with
      | some m =>
        if (getCore s m).acdRun.isSome || (getCore s m).wcdRun.isSome then s else rerunDone s core m d up
      | none => s
    | none => s)

/-- DECISION_DEADLINE (R533): the slot's deadline Bell arrives while the decision waits for a core. -/
def execDecisionDeadline (core : Nat) (s : State) : Out :=
  .next (
    match (getCore s core).decision with
    | some d =>
      match d.slotEnd with
      | some b => if d.running.isNone && (rerunCore s core d).isNone && counting s && decide (b ≤ s.bell.count) then
          noMajority s core true else s
      | none => s
    | none => s)

/-! ### Quizzes (R538, R539, R268) -/

/-- 15 min in Bells. -/
def quarterHour : Nat := 703125000

/-- The core of a cluster to be tested (R538). -/
def quizChoice (s : State) (k : Nat) (onlyDue : Bool) : Option Nat :=
  let b := s.bell.count
  let ps := physOfCluster k
  match ps.find? (fun q => let x := getPhys s q
      x.state == .detained && !x.leaving && !x.releasing && (match x.lastTest with
        | none => true
        | some t => decide (t + quarterHour ≤ b))) with
  | some q => some q
  | none =>
    let rank (q : Nat) : Nat := if (getPhys s q).state == .spare then 1024 else (getPhys s q).number
    let cs := ps.filter (fun q => let x := getPhys s q
      (x.state == .active || x.state == .spare) && (!onlyDue || x.due))
    (cs.foldl (fun acc q => insertBy (fun q => (getPhys s q).lastQuiz * 2048 + rank q) q acc) []).head?

/-- No core of the cluster is under test (R28). -/
def quizFree (s : State) (k : Nat) : Bool := (physOfCluster k).all (fun q => !(getPhys s q).testing)

/-- The QUIZ sets of the module Syllabus, SET and UNIT, in ascending SET order (R378, R539). -/
def quizSets (s : State) : List (Nat × Nat) :=
  (((s.syl.module.map ModSyl.quiz).getD []).map (fun q => (q.set, q.unit))).foldl (fun acc x => insertBy Prod.fst x acc) []

/-- A core goes under test with the sets of the module Syllabus (R539): an ACTIVE one leaves its partition, its threads suspended and its queues frozen (R24,
R268). `slot` is 0xFF outside a QUIZ slot. -/
def startQuiz (s : State) (q slot : Nat) : State :=
  let x := getPhys s q
  let s := modPhys s q (fun x => { x with
    testing := true, testFor := slot, testDone := false, sets := quizSets s,
    lastTest := if x.state == .detained then some s.bell.count else x.lastTest })
  if x.number = 0x3FF then s else freezeCore s x.number

/-- The QUIZ slot of a partition starts (R268): one core of each cluster. -/
def quizSlotStart (s : State) (p slot : Nat) : State :=
  forEach (clustersOf s p) (fun s k =>
    if quizFree s k then
      match quizChoice s k false with
      | some q => startQuiz s q slot
      | none => s
    else s) s

/-- A core back in service after its quiz: one that carries a number runs again (R268). -/
def endQuiz (s : State) (q : Nat) : State :=
  let s := modPhys s q (fun x => { x with testing := false, testFor := 0xFF, testDone := false })
  let n := (getPhys s q).number
  if n = 0x3FF then s else thawCore s n

/-- The DEADLINE Bell of a QUIZ slot (R268): tests that have ended give their cores back; one that has not is ended and
counted, and its core returns at the next Lesson boundary. -/
def quizSlotEnd (s : State) (p slot : Nat) : State :=
  forEach ((clustersOf s p).map physOfCluster).flatten (fun s q =>
    let x := getPhys s q
    if x.testDone && x.testFor == slot then endQuiz s q
    else if x.testing && x.testFor == slot then
      let s := { s with int.quizIncomplete := satInc 16 s.int.quizIncomplete }
      modPhys s q (fun x => { x with testing := false, testFor := 0xFF, lateReturn := x.number != 0x3FF })
    else s) s

/-- DETAIL of a failed quiz (R545). -/
def quizDetail (set unit fails expect got pattern : Nat) : List Byte :=
  leBytes 1 set ++ leBytes 1 unit ++ leBytes 2 fails ++ leBytes 4 expect ++ leBytes 4 got ++ leBytes 4 pattern

/-- The unit that a fault record names for a physical core (R544). -/
def physUnit (s : State) (q : Nat) : Nat := if (getPhys s q).number = 0x3FF then q else (getPhys s q).number

/-- The test of a core ends (R268, R378, R539, R540); `fail` gives the SET, UNIT and the first 4 bytes of the expected and the
obtained signature of a set that differs, one of those that the test runs. -/
def quizComplete (s : State) (q : Nat) (fail : Option (Nat × Nat × Nat × Nat)) : State :=
  let x := getPhys s q
  if !x.testing || !fail.all (fun f => x.sets.contains (f.1, f.2.1)) then s else
  let unit := physUnit s q
  let s := modPhys s q (fun x => { x with
    testing := false, sets := [], testDone := x.testFor != 0xFF, due := false, overdue := false, lastQuiz := s.bell.count })
  let back (s : State) : State := if x.testFor = 0xFF then endQuiz s q else s
  match fail with
  | none =>
    if x.state == .detained then
      let s := modPhys s q (fun x => { x with clean := x.clean + 1, releasing := decide (96 ≤ x.clean + 1) })
      if (getPhys s q).releasing && !underLesson s (q / 9) then returnCore s q else s
    else back s
  | some (set, u, e, g) =>
    let s := raise s .quizFail { kind := .core, unit := unit, ptn := (ptnOfCluster s (q / 9)).getD 0xFF,
                                 detail := quizDetail set u (if x.state == .detained then 2 else 1) e g (Config.patternIndex s.int.logSeq).toNat }
    if x.state == .detained then retire s q else detainPhys (back s) q

/-- QUIZ_COMPLETE (R539, R540). -/
def execQuizComplete (phys : Nat) (fail : Option (Nat × Nat × Nat × Nat)) (s : State) : Out :=
  .next (if phys < 1152 then quizComplete s phys fail else s)

/-- QUIZ_DUE (R538): cores of the cluster whose last completed quiz is more than 24 h old become due, QUIZ_OVERDUE once for
each such period; outside a running Timetable the choice is made at once. -/
def execQuizDue (cluster : Nat) (s : State) : Out :=
  .next (
    if 128 ≤ cluster ∨ counting s = false then s else
    let s := forEach (physOfCluster cluster) (fun s q =>
      let x := getPhys s q
      if (x.state == .active || x.state == .spare) && decide (x.lastQuiz + dayBells < s.bell.count) then
        let s := if x.overdue then s else
          raise s .quizOverdue { kind := .core, unit := physUnit s q, ptn := (ptnOfCluster s cluster).getD 0xFF }
        modPhys s q (fun x => { x with due := true, overdue := true })
      else s) s
    if underLesson s cluster || !quizFree s cluster then s
    else match quizChoice s cluster true with
      | some q => startQuiz s q 0xFF
      | none => s)

/-! ### Fault log (R546, R547) -/

/-- FAULT_LOG_FLUSH (R546): at the end of a Bell, or of an interval while the counter does not count, the records that wait
are queued as events of kind 1, in the order of their SEQ. -/
def execFaultLogFlush (s : State) : Out :=
  .next (
    let ends (f : Fsr) : Bool := f.waiting && (match f.interval with
      | some k => counting s || decide (k < s.cyc / 2048) || s.cyc % 2048 == 2047
      | none => !counting s || decide (f.stamp / 2048 < s.bell.count) || s.bell.sub == 2047)
    let out := s.int.log.filter ends
    let s := { s with int.log := s.int.log.map (fun f => if ends f then { f with waiting := false } else f) }
    ceRepairs (forEach out (fun s f => queueEvent s 1 f.bytes) s))

/-- A write of INT_ACK (R547): ACK clears MODULE_FAULT. -/
def intAck (s : State) (word : Nat) : State := if bitOf word 0 then { s with int.moduleFault := false } else s

/-- INT_ACK (R547), by the installer or the operator. -/
def execIntAck (who : Req) (s : State) : Out :=
  .next (if isInstaller s who || isOperator s who then intAck s 1 else s)

end Sys2Proof.Machine
end

