-- ==== Sys2Proof/Machine/Press.lean ====
section
/-! DEFINITION. The Press (spec/07_press.md): Press command descriptors, state blocks, panels, the step, export.
Readings and choices: log 15, 39, 40, 45, 46, 47, 48, 49, 50, 51, 141, 152, 153. -/

namespace Sys2Proof.Machine

/-! ### Descriptors (R220, R221) -/

/-- A Press command descriptor (R220). -/
structure Pcd where
  op : Nat := 0
  epoch : Nat := 0
  ptn : Nat := 0
  ctx : Nat := 0
  state : Nat := 0
  stg : Nat := 0
  first : Nat := 0
  count : Nat := 0
  m : Nat := 0
  nleaf : Nat := 0
  diff : Bool := false
  done : Nat := 0xFFFF
  norm : Nat := 0
  exp : Nat := 0
  stgIdx : Nat := 0
  expSel : Nat := 0
  resOk : Bool := true
deriving DecidableEq, Repr, Inhabited

/-- Reads a PCD. -/
def parsePcd (d : List Byte) : Pcd :=
  let w0 := field d 0 4
  let w1 := field d 4 4
  let w9 := field d 36 4
  let w14 := field d 56 4
  { op := bits w0 0 8, epoch := bits w0 16 8, ptn := bits w1 0 6, ctx := bits w1 6 12, state := field d 8 8,
    stg := field d 16 8, first := field d 24 4, count := field d 28 4, m := field d 32 2, nleaf := field d 34 2,
    diff := bitOf w9 0, done := bits w9 16 16, norm := field d 40 8, exp := field d 48 8, stgIdx := bits w14 0 12,
    expSel := bits w14 12 4,
    resOk := bits w0 8 8 == 0 && bits w0 24 8 == 0 && bits w1 18 14 == 0 && bits w9 1 15 == 0 && bits w14 16 16 == 0 }

def pInit : Nat := 1
def pReduce : Nat := 2
def pNorm : Nat := 3
def pReduceNorm : Nat := 4
def pApply : Nat := 5
def pClose : Nat := 6
def pExport : Nat := 7

/-- Code of the status EXPORT_FULL (R244, R543), which is never raised. -/
def exportFull : Nat := 0x0C07

/-! ### State blocks (R224-R229) -/

/-- The header of a Press state block (R224). -/
structure Psb where
  opt : Nat := 0
  bias : Bool := false
  broken : Bool := false
  tile : Bool := false
  owner : Nat := 0
  adapter : Nat := 0
  np : Nat := 0
  ne : Nat := 0
  t : Nat := 0
  p1 : Word := 0
  p2 : Word := 0
  master : Nat := 0
  m1 : Nat := 0
  m2 : Nat := 0
  pword : Nat := 0
deriving DecidableEq, Repr, Inhabited

/-- Reads a header. -/
def parsePsb (bs : List Byte) : Psb :=
  let f := field bs 1 1
  let ma := field bs 0x20 8
  { opt := bits f 0 2, bias := bitOf f 2, broken := bitOf f 3, tile := bitOf f 4, owner := field bs 2 2,
    adapter := field bs 4 3, np := field bs 8 4, ne := field bs 0xC 2, t := field bs 0x10 8,
    p1 := BitVec.ofNat 32 (field bs 0x18 4), p2 := BitVec.ofNat 32 (field bs 0x1C 4), master := ma, m1 := field bs 0x28 8,
    m2 := field bs 0x30 8, pword := ma / 2 ^ 32 * 2 ^ 32 + field bs 0x38 4 }

/-- HDR_CRC, the version and the reserved fields of a header hold (R224, R229). -/
def psbOk (bs : List Byte) : Bool :=
  crcTailOk (bs.take 64) 60 && field bs 0 1 == 1 && decide (bits (field bs 1 1) 0 2 < 2) && bits (field bs 1 1) 5 3 == 0
    && field bs 7 1 == 0 && field bs 0xE 2 == 0

/-- The header's bytes with T, P1, P2 and DIFF_BROKEN put in and HDR_CRC made new. -/
def psbWith (bs : List Byte) (t : Nat) (p1 p2 : Word) (broken : Bool) : List Byte :=
  let f := field bs 1 1
  let f' := f - 8 * bits f 3 1 + 8 * b2n broken
  withCrcTail (patch (patch (patch (patch (bs.take 64) 1 (leBytes 1 f')) 0x10 (leBytes 8 t)) 0x18 (leBytes 4 p1.toNat))
    0x1C (leBytes 4 p2.toNat)) 60

/-- The hyperparameter record (R225). -/
structure Hyper where
  lr : Word := 0
  wd : Word := 0
  b1 : Word := 0
  ob1 : Word := 0
  b2 : Word := 0
  ob2 : Word := 0
  eps : Word := 0
  gscale : Word := 0
  gclamp : Word := 0
  clip : Word := 0
  mclamp : Word := 0
deriving DecidableEq, Repr, Inhabited

/-- Reads the record from a state block's first 0x1C0 bytes. -/
def parseHyper (bs : List Byte) : Hyper :=
  let w (k : Nat) : Word := BitVec.ofNat 32 (field bs (0x40 + 4 * k) 4)
  { lr := w 0, wd := w 1, b1 := w 2, ob1 := w 3, b2 := w 4, ob2 := w 5, eps := w 6, gscale := w 7, gclamp := w 8,
    clip := w 9, mclamp := w 10 }

/-- HP_CRC holds and the reserved fields are zero (R225, R229). -/
def hyperOk (bs : List Byte) : Bool := crcTailOk (slice bs 0x40 64) 60 && allZero (slice bs 0x70 12)

/-- A used segment of the schedule (R226). -/
structure Seg where
  start : Nat := 0
  len : Nat := 1
  cosine : Bool := false
  mu0 : Word := 0
  mu1 : Word := 0
deriving DecidableEq, Repr, Inhabited

/-- Segment `k` of a state block. -/
def segBytes (bs : List Byte) (k : Nat) : List Byte := slice bs (0x80 + 16 * k) 16

/-- The used segments, in order. -/
def parseSegs (bs : List Byte) : List Seg :=
  (((countFrom 0 16).map (segBytes bs)).filter (fun g => field g 7 1 != 0)).map (fun g =>
    { start := field g 0 4, len := field g 4 3, cosine := field g 7 1 == 2, mu0 := BitVec.ofNat 32 (field g 8 4),
      mu1 := BitVec.ofNat 32 (field g 12 4) })

/-- Starts ascend strictly. -/
def segsRise : List Seg → Bool
  | a :: b :: r => decide (a.start < b.start) && segsRise (b :: r)
  | _ => true

/-- SCHED_CRC holds and the table obeys R226. -/
def schedOk (bs : List Byte) : Bool :=
  let raw := (countFrom 0 16).map (segBytes bs)
  let used := raw.takeWhile (fun g => field g 7 1 != 0)
  field bs 0x6C 4 == crc32c (slice bs 0x80 256) && used.all (fun g => decide (field g 7 1 ≤ 2) && decide (1 ≤ field g 4 3))
    && (raw.drop used.length).all allZero && segsRise (parseSegs bs)
    && (match parseSegs bs with | g :: _ => g.start == 0 | [] => false)

/-- The cosine series from the even term `k` on. -/
def cosTaylor (x2 : Int) : (fuel k : Nat) → (term acc : Int) → Int
  | 0, _, _, acc => acc
  | f + 1, k, term, acc =>
    cosTaylor x2 f (k + 2) (-(fxMul term x2) / (((k + 1) * (k + 2) : Nat) : Int)) (acc + term)

/-- TAB[i] of the schedule: RNE32(0.5 × (1 + cos(π i / 1,024))) (R226). -/
def cosTab (i : Nat) : Word :=
  let x := piFix * (i : Int) / 1024
  rne32 (Num.ofInt (fxOne + cosTaylor (fxMul x x) 60 0 fxOne 0) (-(fxBits : Int) - 1))

/-- The quotient of two naturals, rounded once. -/
def ratio32 (a b : Nat) : Word := BitVec.ofNat 32 (oz32.div (Num.ofInt a 0) (Num.ofInt b 0))

/-- One in OZ32. -/
def one32 : Word := 0x3F000000

/-- The schedule's value for Lesson count `l` (R226). -/
def schedule (gs : List Seg) (l : Nat) : Word :=
  match (gs.filter (fun g => decide (g.start ≤ l))).getLast? with
  | none => 0
  | some g =>
    let d := l - g.start
    if g.len ≤ d then g.mu1
    else if g.cosine then add32 g.mu1 (mul32 (sub32 g.mu0 g.mu1) (cosTab (1024 * d / g.len)))
    else add32 g.mu0 (mul32 (sub32 g.mu1 g.mu0) (ratio32 d g.len))

/-- A panel word (R228). -/
structure PWord where
  crcM : Nat := 0
  crc1 : Nat := 0
  crc2 : Nat := 0
  phase : Nat := 0
  busy : Bool := false
  lost : Bool := false
  press : Nat := 0
  pepoch : Nat := 0
  step : Nat := 0
deriving DecidableEq, Repr, Inhabited

/-- Reads a panel word. -/
def parsePWord (bs : List Byte) : PWord :=
  let w := field bs 12 4
  { crcM := field bs 0 4, crc1 := field bs 4 4, crc2 := field bs 8 4, phase := bits w 0 2, busy := bitOf w 2,
    lost := bitOf w 3, press := bits w 4 4, pepoch := bits w 8 8, step := bits w 24 8 }

/-- A panel word's 16 bytes. -/
def PWord.bytes (w : PWord) : List Byte :=
  leBytes 4 w.crcM ++ leBytes 4 w.crc1 ++ leBytes 4 w.crc2
    ++ leBytes 4 (w.phase + 4 * b2n w.busy + 8 * b2n w.lost + 16 * (w.press % 16) + 256 * (w.pepoch % 256)
        + 2 ^ 24 * (w.step % 256))

/-! ### Panels (R223, R239) -/

/-- A panel or tile of a state block: its rank, its values, where its arrays, its working copy and its gradients lie. -/
structure PPanel where
  rank : Nat := 0
  n : Nat := 0
  width : Nat := 1
  /-- Offset in each state array. -/
  mo : Nat := 0
  wc : Nat := 0
  hdrLen : Nat := 64
  wcLen : Nat := 0
  grad : Nat := 0
  /-- Distance from one leaf or micro-batch to the next. -/
  gStep : Nat := 0
  gHdr : Nat := 64
  gLen : Nat := 0
  rows : Nat := 0
  cols : Nat := 0
  mask : Nat := 0
  role : Nat := 0
  layer : Nat := 0
  sel : Nat := 0
  tensor : Nat := 0
  row0 : Nat := 0
  col0 : Nat := 0
deriving DecidableEq, Repr, Inhabited

/-- The panels of one entry of a staged image (R148, R206, R223). -/
def entPanels (g : StgEnt) (idx rank0 mo0 : Nat) (e : ImgEnt) : List PPanel :=
  (countFrom 0 e.npanels).map (fun i =>
    let n := e.pr * e.pw
    let r0 := i % e.kp * e.pr
    let c0 := i / e.kp * e.pw
    { rank := rank0 + i, n := n, width := e.pw, mo := mo0 + 4 * n * i, wc := g.image + e.panelOff i, hdrLen := 64,
      wcLen := 64 + alignUp (2 * n) 64, grad := g.image + g.len + 2 * e.panelOff i, gStep := 2 * g.len, gHdr := 64,
      gLen := 64 + alignUp (4 * n) 64, rows := min e.pr (e.k - r0), cols := min e.pw (e.n - c0), role := e.role,
      layer := e.layer, sel := e.sel, tensor := idx, row0 := r0, col0 := c0 })

/-- The panels of a staged image, ranks in entry-table order (R223). -/
def imgPanels (g : StgEnt) : List ImgEnt → (idx rank mo : Nat) → List PPanel
  | [], _, _, _ => []
  | e :: es, idx, rank, mo =>
    let ps := entPanels g idx rank mo e
    ps ++ imgPanels g es (idx + 1) (rank + e.npanels) (mo + 4 * e.pr * e.pw * e.npanels)

/-- One record of the tensor table (R239). -/
def tensorPanels (bs : List Byte) (rank0 : Nat) : List PPanel :=
  let kt := field bs 4 2
  let nt := field bs 6 2
  let mask := field bs 0x18 8
  (countFrom 0 (kt * nt)).map (fun i =>
    { rank := rank0 + i, n := 16384, width := 128, mo := 65536 * (rank0 + i), wc := field bs 8 8 + 33472 * i, hdrLen := 704,
      wcLen := 33472, grad := field bs 0x10 8 + 66240 * i, gStep := kt * nt * 66240, gHdr := 704, gLen := 66240, rows := 128,
      cols := 128, mask := if mask = 0 then 0 else mask + 4096 * i, tensor := field bs 0 4, row0 := i / nt * 128,
      col0 := i % nt * 128 })

/-- The tiles of the tensor table, ranks in table order (R239). -/
def tablePanels : List (List Byte) → (rank : Nat) → List PPanel
  | [], _ => []
  | b :: bs, rank => tensorPanels b rank ++ tablePanels bs (rank + field b 4 2 * field b 6 2)

/-- The position of element `k` of a panel is valid. -/
def PPanel.valid (p : PPanel) (k : Nat) : Bool := decide (k / p.width < p.rows) && decide (k % p.width < p.cols)

/-! ### Access (R222, R518, R629) -/

/-- An open PCD: the descriptor, the issuer as the Press checks it, the Press's region, the state block and its
records, the staging entry in panel form, and the panels. -/
structure PRun where
  d : Pcd := {}
  i : Issuer := {}
  region : Nat := 0
  h : Psb := {}
  raw : List Byte := []
  stg : StgEnt := {}
  panels : List PPanel := []
deriving DecidableEq, Repr, Inhabited

/-- A result of the Press's work on a panel. -/
abbrev PRes (α : Type) := State × Except FaultCode α

/-- Goes on where the work so far has not stopped. -/
def pThen {α β : Type} (r : PRes α) (f : State → α → PRes β) : PRes β :=
  match r.2 with
  | .ok x => f r.1 x
  | .error e => (r.1, .error e)

/-- The range is in HBM or tier 2, readable and writable for the issuer, and meets no Rind (R222, R327, R629). -/
def pressRange (s : State) (i : Issuer) (ga n : Nat) : Bool :=
  match checkOther s i .read ga n with
  | some p => !p.1.isSram && coverage s i .write p n == n && !meetsRind s p n
  | none => false

/-- As `pressRange` for a range that may also meet Rind, where reads go on and writes are dropped (R213). -/
def pressReach (s : State) (i : Issuer) (ga n : Nat) : Bool :=
  match checkOther s i .read ga n with
  | some p => !p.1.isSram && (meetsRind s p n || coverage s i .write p n == n)
  | none => false

/-- Bytes of a state array, a record or a tile that the descriptor or the header names. -/
def pGet (s : State) (x : PRun) (ga n : Nat) : State × List Byte :=
  match itemPlace s none ga n with
  | some p => let r := readAs s x.i p n; (r.st, r.bytes)
  | none => (s, List.replicate n 0)

/-- The RIND_WRITE of a Press whose write meets a Rind window; the write is dropped whole (R213). -/
def pressRind (s : State) (x : PRun) (la : Nat) : State :=
  raise s .rindWrite { kind := .press, unit := x.region, epoch := (getPrs s x.region).epoch, ptn := x.i.ptn, ctx := x.d.ctx,
                       detail := detailAddr la }

/-- Writes them. -/
def pPut (s : State) (x : PRun) (ga : Nat) (bs : List Byte) : State :=
  match itemPlace s none ga bs.length with
  | some p => if meetsRind s p bs.length then pressRind s x (addrOf p) else writeAs s x.i p bs
  | none => s

/-- The bytes of an item of the adapter or of the whey body: a panel under its owner's key inside the staging window, or a
tile in the context's windows (R206, R518, R629). -/
def itemGet (s : State) (x : PRun) (a n : Nat) : State × Option (List Byte) :=
  if x.h.tile then (if pressReach s x.i a n then let (s, b) := pGet s x a n; (s, some b) else (s, none))
  else if inStaging s x.i.ptn a n then (s, some (readUnder s (ctxKey s (tagCtx x.stg.owner)) a n)) else (s, none)

/-- Writes such an item. -/
def itemPut (s : State) (x : PRun) (a : Nat) (bs : List Byte) : State :=
  if x.h.tile then pPut s x a bs
  else match placeOf none a with
    | some p =>
      if meetsRind s p bs.length then pressRind s x a else writeUnder s (ctxKey s (tagCtx x.stg.owner)) a bs
    | none => s

/-- The checksum at 0x3C of a panel or a tile, made new (R107, R149, R207). -/
def withItemCrc (bs : List Byte) : List Byte := patch bs 0x3C (leBytes 4 (crc32c (patch bs 0x3C [0, 0, 0, 0])))

/-- An item whose checksum holds and which, as a tile, has a valid header of the kind; one outside the windows or wrong
on both reads stops the PCD with TILE_CRC (R109, R150, R629). -/
def itemIn (s : State) (x : PRun) (kind a n : Nat) : PRes (List Byte) :=
  match itemGet s x a n with
  | (s, none) => (s, .error .tileCrc)
  | (s, some bs) =>
    if field bs 0x3C 4 != crc32c (patch bs 0x3C [0, 0, 0, 0]) then (s, .error .tileCrc)
    else if x.h.tile && (!hdrValid bs || rawKind bs != kind) then (s, .error .tileHeader)
    else (s, .ok bs)

/-- OZ32 values as bytes. -/
def wordBytes (vs : List Word) : List Byte := (vs.map (fun v => leBytes 4 v.toNat)).flatten

/-- A gradient panel or tile of leaf slot `k`, with its values (R207, R223, R239). -/
def gradIn (s : State) (x : PRun) (p : PPanel) (k : Nat) : PRes (List Byte × List Word) :=
  pThen (itemIn s x 4 (p.grad + k * p.gStep) p.gLen) (fun s bs => (s, .ok (bs, words bs p.gHdr p.n)))

/-- The gradient at O = 0 rewritten with values; a panel header carries ROW_COUNT and SQSUM where they are given
(R207, R231). -/
def gradOut (s : State) (x : PRun) (p : PPanel) (old : List Byte) (sums : Option (Nat × Word)) (vs : List Word) : State :=
  let hd := old.take p.gHdr
  let hd := match sums with
    | some (rows, sq) => if x.h.tile then hd else patch (patch hd 0x10 (leBytes 4 rows)) 0x14 (leBytes 4 sq.toNat)
    | none => hd
  itemPut s x p.grad (withItemCrc (slice (hd ++ wordBytes vs) 0 p.gLen))

/-- The values of a state array of a panel. -/
def arrayIn (s : State) (x : PRun) (base : Nat) (p : PPanel) : State × List Byte := pGet s x (base + p.mo) (4 * p.n)

/-- The panel word of rank `r`. -/
def pwordIn (s : State) (x : PRun) (r : Nat) : State × PWord :=
  let (s, b) := pGet s x (x.h.pword + 16 * r) 16
  (s, parsePWord b)

/-- Writes it. -/
def pwordOut (s : State) (x : PRun) (r : Nat) (w : PWord) : State := pPut s x (x.h.pword + 16 * r) w.bytes

/-- Word `k` of the norm-vector entry of rank `r` (R231). -/
def normAt (x : PRun) (r k : Nat) : Nat := x.d.norm + 16 * r + 4 * k

/-- The parameter mask of a tile, one flag an element; all are trained where there is none (R210, R239, R240). -/
def maskIn (s : State) (x : PRun) (p : PPanel) : PRes (List Bool) :=
  if p.mask = 0 then (s, .ok (List.replicate p.n true))
  else if !pressRange s x.i p.mask 4096 then (s, .error .wheyMask)
  else
    let (s, bs) := pGet s x p.mask 4096
    if field bs 0x800 4 != crc32c (bs.take 0x800) || !allZero (bs.drop 0x804) then (s, .error .wheyMask)
    else (s, .ok (((bs.take 0x800).map (fun b => (countFrom 0 8).map (fun k => bitOf b.toNat k))).flatten))

/-! ### The step's arithmetic (R232-R235) -/

/-- |x| > lim. -/
def exceeds (x lim : Word) : Bool := Num.lt (val32 lim) (val32 x).abs
/-- ± the limit, by the sign of x. -/
def limitTo (x lim : Word) : Word := if (val32 x).isNeg then lim ||| 0x80000000 else lim

/-- Stages 1 and 2 of an element, with the events counted: clamped, NaN (R232). -/
def normElem (hp : Hyper) (g : Word) : Word × Nat × Nat :=
  let g := mul32 g hp.gscale
  if (val32 g).isNan then (0, 0, 1)
  else if exceeds g hp.gclamp then (limitTo g hp.gclamp, 1, 0)
  else (g, 0, 0)

/-- The scalars of a step (R233). -/
structure Scalars where
  n2 : Word := 0
  c : Word := 0
  dk : Word := 0
  eta : Word := 0
  q1 : Word := 0
  q2 : Word := 0
  bc1 : Word := 0
  bc2 : Word := 0
deriving DecidableEq, Repr, Inhabited

/-- The step scalars from the header, the records and the panels' SQ values (R233). -/
def scalars (h : Psb) (hp : Hyper) (gs : List Seg) (sqs : List Word) : Scalars :=
  let n2 := canon32 (tree sqs)
  let nrm := sqrt32 n2
  let isInf (x : Num) : Bool := match x with | .inf _ => true | _ => false
  let c : Word := if isInf (val32 n2) then 0
    else if (val32 hp.clip).isZero || Num.le (val32 nrm) (val32 hp.clip) then one32 else div32 hp.clip nrm
  let mu := schedule gs h.t
  let q1 := mul32 h.p1 hp.b1
  let q2 := mul32 h.p2 hp.b2
  { n2 := n2, c := c, dk := sub32 one32 (mul32 hp.wd mu), eta := mul32 hp.lr mu, q1 := q1, q2 := q2,
    bc1 := if h.bias then sub32 one32 q1 else one32, bc2 := if h.bias then sub32 one32 q2 else one32 }

/-- An element of a panel: master, moments and working copy. -/
structure PElem where
  w : Word := 0
  m : Word := 0
  v : Word := 0
  wc : Half := 0
deriving DecidableEq, Repr, Inhabited

/-- The update of one element, with the events counted: clamped, NaN (R234, R235). The working copy is RNE16 of the master
also where the element keeps it. -/
def applyElem (adam : Bool) (hp : Hyper) (k : Scalars) (g0 : Word) (e : PElem) : PElem × Nat × Nat :=
  let g := mul32 g0 k.c
  let wd := mul32 e.w k.dk
  let m := add32 (mul32 hp.b1 e.m) (mul32 hp.ob1 g)
  let v := if adam then add32 (mul32 hp.b2 e.v) (mul32 hp.ob2 (mul32 g g)) else e.v
  let u := if adam then div32 (div32 m k.bc1) (add32 (sqrt32 (div32 v k.bc2)) hp.eps) else div32 m k.bc1
  let wn := sub32 wd (mul32 k.eta u)
  if (val32 wn).isNan then ({ e with wc := narrow32 e.w }, 0, 1)
  else if exceeds wn hp.mclamp then
    let c := limitTo wn hp.mclamp
    ({ w := c, m := m, v := v, wc := narrow32 c }, 1, 0)
  else ({ w := wn, m := m, v := v, wc := narrow32 wn }, 0, 0)

/-! ### Panels worked on (R229-R237) -/

/-- Adds to the two counters of a packed register: bits 31-16 and 15-0, each saturating (R241). -/
def addPair (w hi lo : Nat) : Nat := satAdd 16 (w / 65536) hi * 65536 + satAdd 16 (w % 65536) lo

/-- Counts gradient events of a context (R232, R241). -/
def countGrad (s : State) (c clamp nan : Nat) : State :=
  if clamp + nan = 0 then s else modCtx s c (fun x => { x with gradev := addPair x.gradev clamp nan })
/-- Counts master events of a context (R230, R235, R241). -/
def countMaster (s : State) (c clamp nan : Nat) : State :=
  if clamp + nan = 0 then s else modCtx s c (fun x => { x with masterev := addPair x.masterev clamp nan })

/-- The sums of the two event columns. -/
def sumPairs {α : Type} (xs : List (α × Nat × Nat)) : Nat × Nat :=
  (sumNat (xs.map (fun e => e.2.1)), sumNat (xs.map (fun e => e.2.2)))

/-- A Press takes a panel by one compare-and-set of its word: BUSY 0 and the phase and step that the operation requires, then
BUSY with the Press's region and epoch (R221, R229). -/
def takePanel (s : State) (x : PRun) (p : PPanel) : PRes PWord :=
  let (s, w) := pwordIn s x p.rank
  let op := x.d.op
  let atT := w.step == x.h.t % 256
  if w.busy then (s, .error (if w.pepoch == (getPrs s w.press).epoch then .pressPhase else .pressTorn))
  else if op == pInit || ((op == pReduce || op == pReduceNorm || op == pExport) && w.phase == 0 && atT)
      || (op == pNorm && w.phase == 1) || (op == pApply && w.phase == 2) then
    let w := { w with busy := true, press := x.region, pepoch := (getPrs s x.region).epoch }
    (pwordOut s x p.rank w, .ok w)
  else (s, .error .pressPhase)

/-- The stored arrays of a panel, where their CRCs hold (R229). -/
def statesIn (s : State) (x : PRun) (p : PPanel) (w : PWord) : PRes (List Byte × List Byte × List Byte) :=
  let (s, bm) := arrayIn s x x.h.master p
  let (s, b1) := arrayIn s x x.h.m1 p
  let adam := x.h.opt == 0
  let (s, b2) := if adam then arrayIn s x x.h.m2 p else (s, [])
  if crc32c bm == w.crcM && crc32c b1 == w.crc1 && (!adam || crc32c b2 == w.crc2) then (s, .ok (bm, b1, b2))
  else (s, .error .pressState)

/-- Writes the arrays of a panel; the panel word that carries their CRCs follows (R228, R236). -/
def statesOut (s : State) (x : PRun) (p : PPanel) (bm b1 b2 : List Byte) : State :=
  let s := pPut s x (x.h.master + p.mo) bm
  let s := pPut s x (x.h.m1 + p.mo) b1
  if x.h.opt = 0 then pPut s x (x.h.m2 + p.mo) b2 else s

/-- The panel word with the CRCs of its arrays. -/
def wordCrcs (x : PRun) (w : PWord) (bm b1 b2 : List Byte) : PWord :=
  { w with crcM := crc32c bm, crc1 := crc32c b1, crc2 := if x.h.opt = 0 then crc32c b2 else 0 }

/-- A working copy's bytes with its values put in (R236). -/
def wcWith (p : PPanel) (bs : List Byte) (vs : List Half) : List Byte :=
  withItemCrc (slice (bs.take p.hdrLen ++ (vs.map (fun v => leBytes 2 v.toNat)).flatten) 0 p.wcLen)

/-- INIT of a panel (R230). -/
def initPanel (s : State) (x : PRun) (p : PPanel) (w : PWord) : PRes Unit :=
  pThen (itemIn s x 3 p.wc p.wcLen) (fun s bs =>
    let wc := halves bs p.hdrLen p.n
    let nans := (wc.filter (fun c => (val16 c).isNan)).length
    let ms : List Word := wc.map (fun c => if (val16 c).isNan then 0 else widen16 c)
    let bm := wordBytes ms
    let zero := List.replicate (4 * p.n) (0 : Byte)
    let s := statesOut s x p bm zero zero
    let s := if nans = 0 then s else
      itemPut s x p.wc (wcWith p bs (wc.map (fun c => if (val16 c).isNan then 0 else c)))
    let s := pwordOut s x p.rank { wordCrcs x w bm zero zero with phase := 0, busy := false, step := 0 }
    (countMaster s x.d.ctx 0 nans, .ok ()))

/-- The leaves of one micro-batch. -/
def leavesIn (s : State) (x : PRun) (p : PPanel) (j : Nat) : List Nat → PRes (List (List Byte × List Word))
  | [] => (s, .ok [])
  | l :: ls =>
    pThen (gradIn s x p (j * x.d.nleaf + l)) (fun s g =>
      pThen (leavesIn s x p j ls) (fun s gs => (s, .ok (g :: gs))))

/-- Element by element tree over equally long lists (R91, R95); the NaN of a single list is stored as the canonical one (R56). -/
def treeLists (n : Nat) (xs : List (List Word)) : List Word :=
  match xs with
  | [v] => v.map canon32
  | _ => (transpose 0 n xs).map tree

/-- Micro-batch `j`: its sum, its squared norm and its rows (R231). -/
def microBatch (s : State) (x : PRun) (p : PPanel) (j : Nat) : PRes (List Word × Word × Nat) :=
  pThen (leavesIn s x p j (countFrom 0 x.d.nleaf)) (fun s gs =>
    let mb := treeLists p.n (gs.map Prod.snd)
    let sq := if x.d.nleaf = 1 && !x.h.tile then
        canon32 (BitVec.ofNat 32 (field ((gs.headD ([], [])).1) 0x14 4))
      else sqSum mb
    let rows := if x.h.tile then 0 else sumNat (gs.map (fun g => field g.1 0x10 4))
    (s, .ok (mb, sq, rows)))

/-- Micro-batches in order. -/
def microBatches (s : State) (x : PRun) (p : PPanel) : List Nat → PRes (List (List Word × Word × Nat))
  | [] => (s, .ok [])
  | j :: js =>
    pThen (microBatch s x p j) (fun s b => pThen (microBatches s x p js) (fun s bs => (s, .ok (b :: bs))))

/-- NORM's elements of a step gradient, masked ones +0, with the events (R232, R240). -/
def normVals (hp : Hyper) (mask : List Bool) (vs : List Word) : List Word × Nat × Nat :=
  let es := List.zipWith (fun g (t : Bool) => if t then normElem hp g else (0, 0, 0)) vs mask
  (es.map Prod.fst, sumPairs es)

/-- REDUCE of a panel, with NORM for REDUCE_NORM (R231, R232). -/
def reducePanel (s : State) (x : PRun) (hp : Hyper) (p : PPanel) (w : PWord) : PRes Unit :=
  let both := x.d.op == pReduceNorm
  pThen (microBatches s x p (countFrom 0 x.d.m)) (fun s bs =>
    pThen (if both then maskIn s x p else (s, .ok [])) (fun s mask =>
      pThen (itemIn s x 4 p.grad p.gLen) (fun s old =>
        let rc := treeLists p.n (bs.map (fun b => b.1))
        let smb := tree (bs.map (fun b => b.2.1))
        let srank := sqSum rc
        let rows := wrap 32 (sumNat (bs.map (fun b => b.2.2)))
        let (vs, cl, nn) := if both then normVals hp mask rc else (rc, 0, 0)
        let s := gradOut s x p old (some (rows, srank)) vs
        let s := pPut s x (normAt x p.rank 0) (leBytes 4 smb.toNat ++ leBytes 4 srank.toNat
          ++ (if both then leBytes 4 (sqSum vs).toNat else []))
        let s := pwordOut s x p.rank { w with phase := if both then 2 else 1, busy := false }
        (countGrad s x.d.ctx cl nn, .ok ()))))

/-- NORM of a panel (R232). -/
def normPanel (s : State) (x : PRun) (hp : Hyper) (p : PPanel) (w : PWord) : PRes Unit :=
  pThen (gradIn s x p 0) (fun s g =>
    pThen (maskIn s x p) (fun s mask =>
      let (vs, cl, nn) := normVals hp mask g.2
      let s := gradOut s x p g.1 none vs
      let s := pPut s x (normAt x p.rank 2) (leBytes 4 (sqSum vs).toNat)
      let s := pwordOut s x p.rank { w with phase := 2, busy := false }
      (countGrad s x.d.ctx cl nn, .ok ())))

/-! ### Export (R242-R244) -/

/-- The export ring (R244). -/
structure Ring where
  base : Nat := 0
  size : Nat := 0
  wr : Nat := 0
  rd : Nat := 0
deriving DecidableEq, Repr, Inhabited

/-- Reads the ring header. -/
def parseRing (bs : List Byte) : Ring :=
  { base := field bs 0 8, size := field bs 8 4, wr := field bs 0xC 4, rd := field bs 0x10 4 }

/-- The header and the ring hold together (R244). -/
def ringOk (s : State) (i : Issuer) (bs : List Byte) : Bool :=
  let r := parseRing bs
  allZero (bs.drop 0x14) && r.base % 64 == 0 && r.size % 64 == 0 && r.wr % 64 == 0 && r.rd % 64 == 0
    && decide (r.wr < r.size) && decide (r.rd < r.size) && pressReach s i r.base r.size

/-- The length of a record of `n` values of `b` bytes. -/
def recLen (n b : Nat) : Nat := 128 + alignUp (n * b) 64

/-- Bytes of the ring that records of the given lengths use from `wr` on, skipped bytes included (R244); none where one
is longer than the ring. -/
def ringUse (size : Nat) : (wr : Nat) → List Nat → Option Nat
  | _, [] => some 0
  | wr, n :: ns =>
    if size < n then none
    else
      let skip := if size < wr + n then size - wr else 0
      let at_ := if skip = 0 ∧ wr + n ≤ size then wr else 0
      (ringUse size ((at_ + n) % size) ns).map (fun k => skip + n + k)

/-- The free space takes the records of a whole PCD (R244): a ring whose offsets are equal is empty. -/
def ringRoom (r : Ring) (lens : List Nat) : Bool :=
  match ringUse r.size r.wr lens with
  | some k => k == 0 || decide (k < r.size - (r.wr + r.size - r.rd) % r.size)
  | none => false

/-- The lengths of one panel's records under EXP_SEL. -/
def selLens (sel n : Nat) : List Nat :=
  (if bitOf sel 0 then [recLen n 2] else []) ++ (if bitOf sel 1 then [recLen n 4] else [])
    ++ (if bitOf sel 2 then [recLen n 4] else []) ++ (if bitOf sel 3 then [recLen n 4] else [])

/-- A record (R242). -/
def expRecord (x : PRun) (p : PPanel) (rec fmt lesson : Nat) (pay : List Byte) : List Byte :=
  let pay := slice pay 0 (alignUp pay.length 64)
  let hd := leBytes 1 1 ++ leBytes 1 rec ++ leBytes 1 fmt ++ leBytes 1 p.role ++ leBytes 2 x.h.owner ++ leBytes 1 p.layer
    ++ leBytes 1 p.sel ++ leBytes 4 (if x.h.tile then 0 else x.h.adapter) ++ leBytes 4 p.tensor ++ leBytes 4 p.rank
    ++ leBytes 4 p.row0 ++ leBytes 4 p.rows ++ leBytes 4 p.col0 ++ leBytes 4 p.cols ++ leBytes 4 pay.length
    ++ leBytes 8 lesson ++ List.replicate 16 0 ++ shake256 32 pay
  withCrcTail (slice hd 0 128) 124 ++ pay

/-- Puts a record into the ring and advances WR (R244). -/
def ringPut (s : State) (x : PRun) (rec : List Byte) : State :=
  let (s, bs) := pGet s x x.d.exp 64
  let r := parseRing bs
  let at_ := if r.size < r.wr + rec.length then 0 else r.wr
  let s := pPut s x (r.base + at_) rec
  pPut s x (x.d.exp + 0xC) (leBytes 4 ((at_ + rec.length) % r.size))

/-- EXPORT of a panel (R242). -/
def exportPanel (s : State) (x : PRun) (p : PPanel) (w : PWord) : PRes Unit :=
  pThen (statesIn s x p w) (fun s b =>
    pThen (itemIn s x 3 p.wc p.wcLen) (fun s wc =>
      let p' := if x.h.tile then { p with rows := (parseHdr wc).rows, cols := (parseHdr wc).cols } else p
      let put (s : State) (k fmt : Nat) (pay : List Byte) : State :=
        if bitOf x.d.expSel k then ringPut s x (expRecord x p' 1 fmt x.h.t pay) else s
      let s := put s 0 1 (slice wc p.hdrLen (2 * p.n))
      let s := put s 1 2 b.1
      let s := put s 2 3 b.2.1
      let s := put s 3 4 (if x.h.opt = 0 then b.2.2 else List.replicate (4 * p.n) 0)
      (pwordOut s x p.rank { w with busy := false }, .ok ())))

/-! ### APPLY (R233-R237, R243) -/

/-- Bitwise exclusive-or of two byte lists. -/
def xorBytes (a b : List Byte) : List Byte := List.zipWith (· ^^^ ·) a b

/-- APPLY of a panel; `write` says that the ring has room for its DIFF record (R234-R237, R240, R243). -/
def applyPanel (s : State) (x : PRun) (hp : Hyper) (k : Scalars) (room : Bool) (p : PPanel) (w : PWord) : PRes Unit :=
  let adam := x.h.opt == 0
  pThen (gradIn s x p 0) (fun s g =>
    pThen (maskIn s x p) (fun s mask =>
      pThen (statesIn s x p w) (fun s b =>
        match itemGet s x p.wc p.wcLen with
        | (s, none) => (s, .error .tileCrc)
        | (s, some bs) =>
          let ms := words b.1 0 p.n
          let wc := halves bs p.hdrLen p.n
          let (rows, cols) := if x.h.tile then ((parseHdr bs).rows, (parseHdr bs).cols) else (p.rows, p.cols)
          let p' := { p with rows := rows, cols := cols }
          if (getPrs s x.region).driftEn && wc != ms.map narrow32 then (s, .error .wcDrift)
          else
            let es := List.zipWith (fun m (e : Word × Word × Half) => ({ w := m, m := e.1, v := e.2.1, wc := e.2.2 } : PElem)) ms
              (List.zip (words b.2.1 0 p.n) (List.zip (if adam then words b.2.2 0 p.n else List.replicate p.n 0) wc))
            let rs := List.zipWith (fun (n : Nat) (e : Word × Bool × PElem) =>
                if p'.valid n && e.2.1 then applyElem adam hp k e.1 e.2.2 else (e.2.2, 0, 0))
              (countFrom 0 p.n) (List.zip g.2 (List.zip mask es))
            let (cl, nn) := sumPairs rs
            let out := rs.map Prod.fst
            let bm := wordBytes (out.map PElem.w)
            let b1 := wordBytes (out.map PElem.m)
            let b2 := wordBytes (out.map PElem.v)
            let s := statesOut s x p bm b1 b2
            let s := itemPut s x p.wc (wcWith p bs (out.map PElem.wc))
            let s := if x.d.diff && room then
              ringPut s x (expRecord x p' 2 5 (wrap 64 (x.h.t + 1)) (xorBytes bm b.1)) else s
            let s := pwordOut s x p.rank { wordCrcs x w bm b1 b2 with
              phase := 0, busy := false, step := (x.h.t + 1) % 256, lost := w.lost || (x.d.diff && !room) }
            let s := modPrs s x.region (fun r => { r with
              elem := wrap 64 (r.elem + ((countFrom 0 p.n).filter p'.valid).length) })
            (countMaster s x.d.ctx cl nn, .ok ()))))

/-! ### Commands as a whole -/

/-- How a PCD ends: done, rejected or stopped with a fault, turned away with EXPORT_FULL, or found with an old epoch. -/
inductive PEnd where
  | done
  | fault (c : FaultCode)
  | full
  | stale
deriving DecidableEq, Repr

/-- A residue of the Press pipeline that fails on a panel: with whether the second attempt fails too (R531). -/
def pressResidue (s : State) (x : PRun) (res : Option (Nat × Bool)) (p : PPanel) : PRes Unit :=
  match res with
  | some (r, again) =>
    if r != p.rank then (s, .ok ()) else
    let s := raise s .arithResidue { kind := .press, unit := x.region, epoch := (getPrs s x.region).epoch, ptn := x.i.ptn,
                                     ctx := x.d.ctx, detail := [BitVec.ofNat 8 x.d.op] }
    (s, if again then .error .arithResidue else .ok ())
  | none => (s, .ok ())

/-- The operation of a PCD on a panel that its Press has taken (R221). -/
def panelOp (s : State) (x : PRun) (hp : Hyper) (k : Scalars) (room : Bool) (p : PPanel) (w : PWord) : PRes Unit :=
  if x.d.op = pInit then initPanel s x p w
  else if x.d.op = pNorm then normPanel s x hp p w
  else if x.d.op = pApply then applyPanel s x hp k room p w
  else if x.d.op = pExport then exportPanel s x p w
  else reducePanel s x hp p w

/-- The release of a panel at which the PCD stops: its phase unchanged (R229, R237). -/
def releaseStopped (x : PRun) (p : PPanel) (w : PWord) (r : PRes Unit) : PRes Unit :=
  match r.2 with
  | .ok _ => r
  | .error c => (pwordOut r.1 x p.rank { w with busy := false }, .error c)

/-- The work of a PCD on one panel (R229): taking it, its residue checks, the operation, the release. -/
def workPanel (s : State) (x : PRun) (hp : Hyper) (k : Scalars) (room : Bool) (res : Option (Nat × Bool)) (p : PPanel) :
    PRes Unit :=
  pThen (takePanel s x p) (fun s w =>
    releaseStopped x p w (pThen (pressResidue s x res p) (fun s _ => panelOp s x hp k room p w)))

/-- The panels of the range in rank order; the first that stops ends the PCD, and those finished stand (R229). -/
def workPanels (f : State → PPanel → PRes Unit) : State → List PPanel → PRes Unit
  | s, [] => (s, .ok ())
  | s, p :: ps => pThen (f s p) (fun s _ => workPanels f s ps)

/-- Changes what the module keeps of a state block. -/
def trackPsb (s : State) (c a : Nat) (f : PsbTrack → PsbTrack) : State :=
  modCtx s c (fun x => { x with
    psbs := if x.psbs.any (fun t => t.addr == a) then x.psbs.map (fun t => if t.addr == a then f t else t)
      else x.psbs ++ [f { addr := a }] })

/-- The local address of a state block, by which the module tracks it. -/
def psbKey (s : State) (d : Pcd) : Nat := (localAddr s d.state).getD 0

/-- The norm vector's word `k` of every panel (R231). -/
def normVec (s : State) (x : PRun) (k : Nat) : List Word :=
  let (_, bs) := pGet s x x.d.norm (16 * x.h.np)
  (countFrom 0 x.h.np).map (fun r => BitVec.ofNat 32 (field bs (16 * r + 4 * k) 4))

/-- CLOSE (R238, R245): in a Form the owner's panels are those of the range. ROWS of a whey body, whose tiles carry no
count of rows, is a free value. -/
def closeStep (s : State) (x : PRun) (k : Scalars) : PRes Unit :=
  let mine := if inForm s x.i.ptn then (x.panels.drop x.d.first).take x.d.count else x.panels
  let ws := mine.map (fun p => ((pwordIn s x p.rank).2, p.rank))
  if ws.any (fun w => w.1.phase != 0 || w.1.busy || w.1.step != (x.h.t + 1) % 256) then (s, .error .pressPhase)
  else
    pThen (match x.panels.head? with
      | some p => if x.h.tile then
            let (r, s) := draw s 4
            (s, .ok (leNat r))
          else pThen (gradIn s x p 0) (fun s g => (s, .ok (field g.1 0x10 4)))
      | none => (s, .ok 0)) (fun s rows =>
    let t := wrap 64 (x.h.t + 1)
    let smb := canon32 (tree (normVec s x 0))
    let srank := canon32 (tree (normVec s x 1))
    let lost := ws.any (fun w => w.1.lost)
    let stats := withCrcTail (slice (leBytes 8 t ++ leBytes 4 x.d.m ++ leBytes 4 rows ++ leBytes 4 smb.toNat
      ++ leBytes 4 srank.toNat ++ leBytes 4 k.n2.toNat ++ leBytes 4 k.c.toNat ++ leBytes 4 k.eta.toNat) 0 64) 60
    let s := forEach ws (fun s w => pwordOut s x w.2 { w.1 with lost := false }) s
    let s := pPut s x x.d.state (psbWith x.raw t k.q1 k.q2 (x.h.broken || lost))
    let s := pPut s x (x.d.state + 0x180) stats
    let s := modPrs s x.region (fun r => { r with
      nsValid := true, nsPtn := x.i.ptn, nsCtx := x.d.ctx, nsLesson := t % 2 ^ 32, nsM := x.d.m, nsRows := rows,
      nsSmb := smb, nsSrank := srank, nsGnorm2 := k.n2, nsClip := k.c })
    (trackPsb s x.d.ctx (psbKey s x.d) (fun z => { z with closed := some (getPtn s x.i.ptn).tt.lesson }), .ok ()))

/-- After EXPORT: DIFF_BROKEN clears once master exports have covered every panel at one T (R243). -/
def exportCover (s : State) (x : PRun) : State :=
  if !bitOf x.d.expSel 1 then s else
  let key := psbKey s x.d
  let s := trackPsb s x.d.ctx key (fun z =>
    let old := if z.covT = x.h.t then z.covered else []
    { z with covT := x.h.t, covered := (countFrom x.d.first x.d.count).foldl (fun acc r => insertNat r acc) old })
  let full := (getCtx s x.d.ctx).psbs.any (fun z => z.addr == key && decide (x.h.np ≤ z.covered.length))
  if full && x.h.broken then pPut s x x.d.state (psbWith x.raw x.h.t x.h.p1 x.h.p2 false) else s

/-- The field checks of R222 that need no state. -/
def pcdFieldsOk (d : Pcd) : Bool :=
  decide (1 ≤ d.op) && decide (d.op ≤ 7) && d.resOk && decide (1 ≤ d.m) && decide (d.m ≤ 4096) && decide (1 ≤ d.nleaf)
    && decide (d.nleaf ≤ 256) && decide (1 ≤ d.count) && (!d.diff || d.op == pApply) && (d.expSel == 0 || d.op == pExport)
    && (d.exp == 0 || d.op == pExport || d.diff)

/-- PTN_ID owns a cluster in the Press's region and CTX is attached to it, in the issuer's rights (R30, R222, R327). -/
def pcdOwnerOk (s : State) (region : Nat) (i : Issuer) (d : Pcd) : Bool :=
  d.ptn == i.ptn && attachedTo s d.ptn d.ctx && (countFrom (8 * region) 8).any (fun k => (getPtn s d.ptn).owns k)
    && (i.mmode || i.ctx == d.ctx)

/-- A TUTORIAL slot whose SEAT is the context's is open (R404). -/
def seatOpen (s : State) (p c : Nat) : Bool :=
  match ttOf s p with
  | some y => (getPtn s p).tt.open_.any (fun o =>
      let k := slotAt y o.idx
      k.kind == .tutorial && k.seat == (getCtx s c).seat)
  | none => false

/-- The panels of a state block: in panel form those of the staged image, in tile form those of the tensor table. -/
def psbPanels (s : State) (x : PRun) : State × List PPanel :=
  if x.h.tile then
    let (s, bs) := pGet s x (x.d.state + 0x1C0) (32 * x.h.ne)
    (s, tablePanels (chunks 32 x.h.ne bs) 0)
  else (s, imgPanels x.stg ((imgEnts s x.stg).take x.h.ne) 0 0 0)

/-- The ranges of a state block's arrays, the norm vector and the export ring are the context's (R222, R629). -/
def pcdRangesOk (s : State) (x : PRun) : Bool :=
  let total := 4 * sumNat (x.panels.map PPanel.n)
  pressRange s x.i x.h.master total && pressRange s x.i x.h.m1 total
    && (x.h.opt != 0 || pressRange s x.i x.h.m2 total) && pressRange s x.i x.h.pword (16 * x.h.np)
    && pressRange s x.i x.d.norm (16 * x.h.np)
    && (!x.h.tile || pressRange s x.i x.d.state (0x1C0 + 32 * x.h.ne))
    && (!(x.d.op == pExport || x.d.diff) || (pressReach s x.i x.d.exp 64 && ringOk s x.i (pGet s x x.d.exp 64).2))

/-- The staging fields of a PCD agree with its form (R220, R222): in panel form a READY entry of the context, in tile form
zeros and one leaf. -/
def pcdStgOk (s : State) (d : Pcd) (h : Psb) (e : List Byte) : Bool :=
  if h.tile then d.stg == 0 && d.stgIdx == 0 && d.nleaf == 1 && decide (1 ≤ h.ne) && decide (h.ne ≤ 64)
  else
    let g := parseStg e
    (localAddr s d.stg).isSome && localAddr s d.stg == stagingAddr s d.ptn && crcTailOk (e.take 32) 28 && g.state == 2
      && g.owner == mkTag d.ctx

/-- A completed INIT of a staged adapter leaves the block's address in its slot record, which the Vat engine writes (R153):
that of the slot that the staging entry names, where the slot is still STAGED there. -/
def slotState (s : State) (x : PRun) : State :=
  if x.h.tile then s
  else match slotAt? s x.stg.slot with
    | some v =>
      if v.state = slStaged ∧ v.gen = x.stg.gen ∧ v.owner = x.stg.owner then
        putSlot s x.stg.slot { v with stateAddr := psbKey s x.d }
      else s
    | none => vatBad s (vatSlot s x.stg.slot)

/-- The records that an operation uses hold (R229). -/
def pcdRecordsOk (op : Nat) (raw : List Byte) : Bool :=
  (!(op == pNorm || op == pReduceNorm || op == pApply || op == pClose) || hyperOk raw)
    && (!(op == pApply || op == pClose) || (hyperOk raw && schedOk raw))

/-- A PCD whose state block and panels are known: its operation on each of its panels, and its end (R229). -/
def workPsb (s : State) (x : PRun) (res : Option (Nat × Bool)) : State × PEnd :=
  let d := x.d
  let mine := (x.panels.drop d.first).take d.count
  let lens := if d.op = pExport then (mine.map (fun p => selLens d.expSel p.n)).flatten
    else mine.map (fun p => recLen p.n 4)
  let room := if d.op = pExport ∨ d.diff then ringRoom (parseRing (pGet s x d.exp 64).2) lens else true
  if d.op = pExport ∧ !room then (s, .full)
  else
    let hp := parseHyper x.raw
    let k := if d.op = pApply ∨ d.op = pClose then scalars x.h hp (parseSegs x.raw) (normVec s x 2) else {}
    match (if d.op = pClose then closeStep s x k else workPanels (fun s p => workPanel s x hp k room res p) s mine) with
    | (s, .error c) => (s, .fault c)
    | (s, .ok ()) =>
      if d.op = pInit then (slotState (pPut s x d.state (psbWith x.raw 0 one32 one32 x.h.broken)) x, .done)
      else if d.op = pExport then (exportCover s x, .done)
      else (s, .done)

/-- A PCD whose state block has been read: the block's checks, its panels, the ranges (R222, R229). -/
def openPsb (s : State) (x : PRun) (res : Option (Nat × Bool)) : State × PEnd :=
  let stg := readStg s x.d.ptn x.d.stgIdx
  if !psbOk x.raw then (s, .fault .pressState)
  else if x.h.np < x.d.first + x.d.count || !pcdStgOk s x.d x.h stg then (s, .fault .pcdInvalid)
  else
    let x := { x with stg := if x.h.tile then {} else parseStg stg }
    match psbPanels s x with
    | (s, ps) =>
      let x := { x with panels := ps }
      if ps.length ≠ x.h.np ∨ !pcdRecordsOk x.d.op x.raw then (s, .fault .pressState)
      else if !pcdRangesOk s x then (s, .fault .pcdInvalid)
      else workPsb (trackPsb s x.d.ctx (psbKey s x.d) id) x res

/-- The operation is part of a context's step, which a skipped context does not take (R176). -/
def stepsCtx (op : Nat) : Bool := decide (pReduce ≤ op) && decide (op ≤ pClose)

/-- One PCD from its checks on (R222, R229, R404). One that would update a context that skips the Lesson completes without
effect (R176). -/
def runPcd (s : State) (region : Nat) (res : Option (Nat × Bool)) (e : QEntry) : State × PEnd :=
  let d := parsePcd e.desc
  let i : Issuer := { e.issuer with ctx := d.ctx, ctxOn := true }
  if !crcTailOk e.desc 60 then (s, .fault .pcdInvalid)
  else if d.epoch ≠ (getPrs s region).epoch then (s, .stale)
  else if !pcdFieldsOk d || !pcdOwnerOk s region e.issuer d || !seatOpen s d.ptn d.ctx
      || !pressRange s i d.state 0x1C0 then (s, .fault .pcdInvalid)
  else if (getCtx s d.ctx).skips && stepsCtx d.op then (s, .done)
  else
    match pGet s { d := d, i := i, region := region } d.state 0x1C0 with
    | (s, raw) => openPsb s { d := d, i := i, region := region, raw := raw, h := parsePsb raw } res

/-- The fault holds the context at its next recess (R229, R237). -/
def holdsCtx (c : FaultCode) : Bool := c == .pressTorn || c == .pressState || c == .wcDrift

/-- The end of a PCD (R222, R229, R247, R301). -/
def endPcd (region : Nat) (e : QEntry) (r : State × PEnd) : State :=
  let d := parsePcd e.desc
  let (s, x) := r
  let clear (s : State) (f : Nat) : State := modPrs s region (fun r => { r with
    run := none, lastOp := d.op, faultValid := r.faultValid || f != 0, fault := if f = 0 then r.fault else f })
  let p := e.issuer.ptn
  match x with
  | .done => doneAdd (modPrs (clear s 0) region (fun r => { r with lastPtn := d.ptn, lastCtx := d.ctx })) p d.done .plain
  | .stale => doneAdd (modPrs s region (fun r => { r with run := none })) p d.done .abt
  | .full => doneAdd (clear s exportFull) p d.done .rej
  | .fault c =>
    let s := if c = .arithResidue then s else
      raise s c { kind := .press, unit := region, epoch := (getPrs s region).epoch, ptn := p, ctx := d.ctx }
    let s := if c = .wcDrift then modPrs s region (fun r => { r with driftCount := satInc 32 r.driftCount }) else s
    let s := if holdsCtx c then modCtx s d.ctx (fun y => { y with pressHold := true }) else s
    doneAdd (clear s c.code) p d.done .rej

/-- The Press of a region starts the PCD at the head of its queue, where its OP is the one given; a head with a reserved
OP is refused whichever it is (R219, R222). In HOLD none starts (R274), and none of a context that a capture copies
(R556). -/
def startPcd (s : State) (region op : Nat) (res : Option (Nat × Bool)) : State :=
  let r := getPrs s region
  match r.q with
  | [] => s
  | e :: q =>
    let o := field e.desc 0 1
    if r.run.isSome || s.pwr.hold || resetting s (4, region) || (getCtx s (pcdCtx e.desc)).copying
        || (o != op && decide (1 ≤ o) && decide (o ≤ 7)) then s
    else endPcd region e (runPcd (modPrs s region (fun r => { r with q := q, run := some e })) region res e)

/-- INIT (R230). -/
def execPrsInit (press : Nat) (res : Option (Nat × Bool)) (s : State) : Out := .next (startPcd s press pInit res)
/-- REDUCE (R231). -/
def execPrsReduce (press : Nat) (res : Option (Nat × Bool)) (s : State) : Out := .next (startPcd s press pReduce res)
/-- NORM (R232). -/
def execPrsNorm (press : Nat) (res : Option (Nat × Bool)) (s : State) : Out := .next (startPcd s press pNorm res)
/-- REDUCE_NORM (R221, R231, R232). -/
def execPrsReduceNorm (press : Nat) (res : Option (Nat × Bool)) (s : State) : Out :=
  .next (startPcd s press pReduceNorm res)
/-- APPLY (R233-R237). -/
def execPrsApply (press : Nat) (res : Option (Nat × Bool)) (s : State) : Out := .next (startPcd s press pApply res)
/-- CLOSE (R238). -/
def execPrsClose (press : Nat) (res : Option (Nat × Bool)) (s : State) : Out := .next (startPcd s press pClose res)
/-- EXPORT (R242-R244). -/
def execPrsExport (press : Nat) (res : Option (Nat × Bool)) (s : State) : Out := .next (startPcd s press pExport res)

end Sys2Proof.Machine
end

