-- ==== Sys2Proof/Machine/OhTrain.lean ====
section
/-! DEFINITION. The built-in recipe of open house (spec/11_syllabus_image.md R393): the adapter and its start values, the Press
state block, the Timetable, and the rows of a step.
Readings and choices: log 74, 75, 134. -/

namespace Sys2Proof.Machine

/-! ### The adapter (R144-R149, R393) -/

/-- d_model, and the widths of the query and of the key and value heads, of a base descriptor (R392). -/
def ohDm (d : List Byte) : Nat := 128 * field d 2 2
def ohQw (d : List Byte) : Nat := 128 * field d 4 1
def ohKvw (d : List Byte) : Nat := 128 * field d 5 1

/-- K and N of the base matrices Q, K, V and O (R392, R393). -/
def ohShape (d : List Byte) (sel : Nat) : Nat × Nat :=
  match sel with
  | 0 => (ohDm d, ohQw d)
  | 3 => (ohQw d, ohDm d)
  | _ => (ohDm d, ohKvw d)

/-- An entry of a shape, its offset still 0 (R148). -/
def ohEnt (layer sel role k n : Nat) : ImgEnt :=
  let s := panelShape role k n
  { layer := layer, sel := sel, role := role, k := k, n := n, gamma := if role = roleUp then narrow32 (ratio32 2 1) else 0,
    pr := s.1, pw := s.2, stride := 64 + alignUp (2 * s.1 * s.2) 64, npanels := ceilDiv k s.1 * ceilDiv n s.2 }

/-- Entries one after the other from an offset on. -/
def placeEnts : Nat → List ImgEnt → List ImgEnt
  | _, [] => []
  | off, e :: es => { e with offset := off } :: placeEnts (off + e.npanels * e.stride) es

/-- The entries of the built-in adapter: rank 8 on Q, K, V and O of every layer (R393). -/
def ohEnts (d : List Byte) : List ImgEnt :=
  let es := ((countFrom 0 (field d 1 1 + 1)).map (fun l => ((countFrom 0 4).map (fun j =>
    let s := ohShape d j
    [ohEnt l j roleDown s.1 8, ohEnt l j roleUp 8 s.2])).flatten)).flatten
  placeEnts (64 + alignUp (32 * es.length) 64) es

/-- An entry record's bytes (R148). -/
def ImgEnt.bytes (e : ImgEnt) : List Byte :=
  withCrcTail (slice (leBytes 1 e.layer ++ leBytes 1 e.sel ++ leBytes 1 e.role ++ leBytes 1 0 ++ leBytes 2 (e.k - 1)
    ++ leBytes 2 (e.n - 1) ++ leBytes 2 e.gamma.toNat ++ leBytes 1 e.pr ++ leBytes 1 e.pw ++ leBytes 4 e.offset
    ++ leBytes 4 e.stride ++ leBytes 4 e.npanels) 0 32) 28

/-- A panel's bytes (R149). -/
def adapterPanel (e : ImgEnt) (owner adapter kr nc : Nat) (vs : List Half) : List Byte :=
  let hd := leBytes 1 1 ++ leBytes 1 e.role ++ leBytes 1 e.pr ++ leBytes 1 e.pw ++ leBytes 2 owner ++ leBytes 1 e.layer
    ++ leBytes 1 e.sel ++ leBytes 3 adapter ++ leBytes 1 0 ++ leBytes 2 kr ++ leBytes 2 nc
  withItemCrc (slice hd 0 64 ++ slice ((vs.map (fun v => leBytes 2 v.toNat)).flatten) 0 (alignUp (2 * e.pr * e.pw) 64))

/-- IMG_LEN of an image with the entries. -/
def imgLen (es : List ImgEnt) : Nat := 64 + alignUp (32 * es.length) 64 + sumNat (es.map (fun e => e.npanels * e.stride))

/-- The image of R147 with the values of entry `e`, panel `p`, element `k`. -/
def ohImage (d : List Byte) (adapter : Nat) (val : (e p k : Nat) → Half) : List Byte :=
  let es := ohEnts d
  let hd := withCrcTail (slice (leBytes 1 1 ++ leBytes 1 1 ++ leBytes 2 es.length ++ leBytes 3 adapter ++ leBytes 1 0
    ++ leBytes 2 (field d 0x18 2) ++ leBytes 1 8 ++ leBytes 1 0 ++ leBytes 4 (imgLen es)) 0 64) 60
  let tab := slice ((es.map ImgEnt.bytes).flatten) 0 (alignUp (32 * es.length) 64)
  let panels := (List.zip (countFrom 0 es.length) es).map (fun x =>
    ((countFrom 0 x.2.npanels).map (fun p =>
      adapterPanel x.2 (mkTag 0) adapter (p % x.2.kp) (p / x.2.kp)
        ((countFrom 0 (x.2.pr * x.2.pw)).map (val x.1 p)))).flatten)
  hd ++ tab ++ panels.flatten

/-- RNE16((2u - 1) / √K) for u = `u` / 2^64 (R393). -/
def startValue (u k : Nat) : Half :=
  let a := (2 * u - 2 ^ 64) + (2 ^ 64 - 2 * u)
  let q := isqrt (a * a * 2 ^ 128 / k)
  let m := 2 * q + b2n (q * q * k != a * a * 2 ^ 128)
  rne16 (Num.ofInt (if 2 ^ 64 ≤ 2 * u then (m : Int) else -(m : Int)) (-129))

/-- The start values (R393): B at +0, A from the random stream keyed by SEED. -/
def ohStart (d : List Byte) (seed : Nat) (e p k : Nat) : Half :=
  let x := getAt {} (ohEnts d) e
  if x.role = roleUp then 0 else startValue (Config.ohUniform seed e p k).toNat x.k

/-! ### The Press state block (R224-R226, R393) -/

/-- The schedule table: one COSINE segment over the steps. -/
def ohSched (steps : Nat) : List Byte :=
  slice (leBytes 4 0 ++ leBytes 3 steps ++ leBytes 1 2 ++ leBytes 4 one32.toNat ++ leBytes 4 0) 0 256

/-- The hyperparameter record. -/
def ohHyper (steps : Nat) : List Byte :=
  let ws : List Word := [ratio32 1 10000, 0, ratio32 9 10, ratio32 1 10, ratio32 999 1000, ratio32 1 1000,
    ratio32 1 100000000, ratio32 1 4096, ratio32 65536 1, one32, ratio32 65536 1]
  withCrcTail (slice (wordBytes ws ++ leBytes 4 (crc32c (ohSched steps))) 0 64) 60

/-- The header after INIT: ADAM with BIASCORR, T 0, P1 and P2 1.0; its array addresses are free. -/
def ohHead (d : List Byte) (run adapter : Nat) : List Byte :=
  let es := ohEnts d
  let at_ (j : Nat) : List Byte := leBytes 8 (Config.ohAddr run j).toNat
  withCrcTail (slice (leBytes 1 1 ++ leBytes 1 4 ++ leBytes 2 (mkTag 0) ++ leBytes 3 adapter ++ leBytes 1 0
    ++ leBytes 4 (sumNat (es.map ImgEnt.npanels)) ++ leBytes 2 es.length ++ leBytes 2 0 ++ leBytes 8 0 ++ leBytes 4 one32.toNat
    ++ leBytes 4 one32.toNat ++ at_ 0 ++ at_ 1 ++ at_ 2 ++ leBytes 4 ((Config.ohAddr run 3).toNat % 2 ^ 32)) 0 64) 60

/-- Header, hyperparameter record and schedule after a further step (R233, R238). -/
def ohPsbStep (raw : List Byte) : List Byte :=
  let h := parsePsb raw
  let hp := parseHyper raw
  psbWith raw (wrap 64 (h.t + 1)) (mul32 h.p1 hp.b1) (mul32 h.p2 hp.b2) false ++ raw.drop 64

/-! ### The Timetable and the rows (R393) -/

/-- The built-in Timetable: the work of a Lesson, as long as the WCET rules give for the descriptor, one QUIZ slot of 256 bl,
POLICY HOLD, and the smallest multiple of 256 that holds every slot. -/
def ohTimetable (d : List Byte) (seqLen : Nat) : Timetable :=
  let w := 1 + (Config.ohWork d seqLen).toNat
  { adaptMax := 1, lessonBells := alignUp (w + 256) 256,
    slots := [{ kind := .lecture, start := 0, deadline := w }, { kind := .quiz, start := w, deadline := w + 256 }] }

/-- Rows of a step. -/
def ohRows : Nat := 4096

/-- The token that a run reads next after another step: in order, from the buffer's start again at its end. -/
def ohNext (cursor fill : Nat) : Nat := if fill = 0 then 0 else (cursor + ohRows) % fill

/-- A training that begins at the Bell after `bell`. -/
def ohJob (d : List Byte) (run steps seqLen seed adapter bell : Nat) : OhJob :=
  { steps := steps, seqLen := seqLen, seed := seed, bound := bell + 1, tt := some (ohTimetable d seqLen),
    psb := ohHead d run adapter ++ ohHyper steps ++ ohSched steps, image := ohImage d adapter (ohStart d seed) }

/-- The training after another step, whose values are free (R393). -/
def OhJob.next (j : OhJob) (d : List Byte) (run adapter fill lessonBells : Nat) : OhJob :=
  { j with step := j.step + 1, cursor := ohNext j.cursor fill, bound := j.bound + lessonBells, psb := ohPsbStep j.psb,
           image := ohImage d adapter (Config.ohValue run (j.step + 1)) }

end Sys2Proof.Machine
end

