-- ==== Sys2Proof/Machine/Launch.lean ====
section
/-! DEFINITION. Placing thread groups on cores (spec/10_threads_and_memory.md R334-R338).
Readings and choices: log 73. -/

namespace Sys2Proof.Machine

/-- A core's number is carried by a core that is in service and not in detention (R335, R540). -/
def inActiveService (s : State) (n : Nat) : Bool :=
  inService s n && (match physOf s n with | some k => (getPhys s k).state == .active | none => false)

/-- A core is free for a group (R335). HALTED threads keep it from every group but one that the partition runtime
launches, which ends theirs (R322, R338). -/
def coreFree (s : State) (p : Nat) (runtime : Bool) (n : Nat) : Bool :=
  let c := getCore s n
  ptnOfCore s n == some p && inActiveService s n && !c.frozen
    && c.thr.all (fun t => t.2.state == .idle || (runtime && t.2.state == .halted))
    && c.acdQ.isEmpty && c.wcdQ.isEmpty && c.xferQ.isEmpty

/-- The launch comes from the partition runtime: a thread in M-mode, or a LOAD. -/
def Launch.byRuntime (l : Launch) : Bool := match l.issuer with
  | some i => i.mmode
  | none => true

/-- The free core of a partition with the lowest number (R335). -/
def freeCore (s : State) (p : Nat) (l : Launch) : Option Nat := (coresOf s p).find? (coreFree s p l.byRuntime)

/-- A thread of a launched group as it starts (R334, R335, R384): the fields that the launch names; the others keep their
values. -/
def startThread (s : State) (p : Nat) (l : Launch) (i : Nat) (h : Thr) : Thr :=
  let w (n : Nat) : DWord := BitVec.ofNat 64 n
  let away := !l.mmode && (ptnOfCtx s l.ctx == some p) && ctxAway (getCtx s l.ctx)
  let h : Thr := { h with
    state := if away then .suspended else .ready, resume := if away then .ready else .idle, wait := .none,
    mmode := l.mmode, ctx := l.ctx, pc := w l.entry, mtvec := w l.trap,
    slvtrap := if l.issuer.isNone then w l.trap else h.slvtrap }
  setX (setX (setX h 10 (w l.arg)) 11 (w i)) 2 (w (l.spBase + i * l.spStride))

/-- Places a group on a core and answers its launcher (R335, R337). -/
def placeGroup (s : State) (p : Nat) (l : Launch) (n : Nat) : State :=
  let s := modCore s n (fun c => { c with thr := tmap default c.thr (fun _ h =>
    if h.state == .halted then { h with state := .idle, resume := .idle, wait := .none } else h) })
  let s := forEach (countFrom 0 l.nthreads) (fun s i => modThr (dropResv s n i) n i (startThread s p l i)) s
  let s := modCore s n (fun c => { c with group := some { live := countFrom 0 l.nthreads, doneSem := l.doneSem, ctx := l.ctx, ptn := p } })
  match l.issuer with
  | some i => wake s i.core i.thr l.rd (BitVec.ofNat 64 (n * 65536))
  | none => s

/-- The order of queued launches (R336): rising stamp, then the lower CTX, then the lower issuing core. -/
def launchBefore (a b : Launch) : Bool :=
  let core (l : Launch) : Nat := (l.issuer.map Issuer.core).getD 0
  decide (a.stamp < b.stamp) || (a.stamp == b.stamp && (decide (a.ctx < b.ctx)
    || (a.ctx == b.ctx && decide (core a ≤ core b))))

/-- The queued launch that is placed next. -/
def nextLaunch : List Launch → Option Launch
  | [] => none
  | l :: ls => match nextLaunch ls with
    | none => some l
    | some m => if launchBefore l m then some l else some m

/-- What a failed check reports: REASON, SECTION, RECORD, and the measurement where it was formed (R397, R381). -/
structure SyFail where
  reason : Nat := 0
  sect : Nat := 0xFF
  record : Nat := 0xFFFF
  meas : List Byte := []
deriving DecidableEq, Repr

/-- The LOAD event (R491). -/
def sylEvent (s : State) (p scope : Nat) (e : SyFail) : State :=
  queueEvent s 2 (eventRec s 2 p 0xFFFF (slice e.meas 0 32 ++ leBytes 1 e.reason ++ leBytes 1 scope ++ leBytes 1 e.sect))

/-- The end of a LOAD or CANCEL: the MOD_SYL registers and the event (R397, R490). -/
def sylEnd (s : State) (p scope : Nat) (e : SyFail) : State :=
  sylEvent { s with syl := { s.syl with
    busy := false, done := true, reason := e.reason, sect := e.sect, record := e.record, ptn := p, waiting := none } } p scope e

/-- The first launch of a partition's queue is placed where a core is free for it; a LOAD that waits for its runtime ends
(R336, R384). -/
def placeNext (s : State) (p : Nat) : State :=
  match nextLaunch (getPtn s p).launchQ with
  | some l =>
    match freeCore s p l with
    | none => s
    | some n =>
      let s := placeGroup (modPtn s p (fun q => { q with launchQ := eraseFirst (· == l) q.launchQ })) p l n
      match l.issuer, (getPtn s p).syl with
      | none, some y => if s.syl.waiting = some p then sylEnd s p 1 { meas := y.meas } else s
      | _, _ => s
  | none => s

/-- The launches of a partition's queue of 64 are placed while cores are free (R336). -/
def placeQueued (s : State) (p : Nat) : State := forEach (countFrom 0 64) (fun s _ => placeNext s p) s

end Sys2Proof.Machine
end

