-- ==== Sys2Proof/Machine/SylCheck.lean ====
section
/-! DEFINITION. The Syllabus image (spec/11_syllabus_image.md R358-R382): its layout, its sections, and the checks of a
LOAD.
Readings and choices: log 68, 69, 72, 155, 160. -/

namespace Sys2Proof.Machine

/-! ### Reasons (R382) -/

def syOk : Nat := 0
def syBusy : Nat := 1
def syRole : Nat := 2
def syFormat : Nat := 3
def sySignature : Nat := 4
def syModule : Nat := 5
def syPartition : Nat := 6
def syPower : Nat := 7
def syWindow : Nat := 8
def syTied : Nat := 9
def syRoute : Nat := 10
def syTimetable : Nat := 11
def syAdaptMax : Nat := 12
def syRecipe : Nat := 13
def sySema : Nat := 14
def syCred : Nat := 15
def syQuiz : Nat := 16
def syRuntime : Nat := 17
def syTooLate : Nat := 18
def syPartial : Nat := 19
def syRevision : Nat := 20
def syQueued : Nat := 21

/-- The outcome of a check. -/
abbrev Chk (α : Type) := Except SyFail α

/-- A condition that must hold. -/
def need (b : Bool) (reason sect record : Nat) : Chk Unit :=
  if b then .ok () else .error { reason := reason, sect := sect, record := record }

/-- Runs a check over a list with the records' indices. -/
def needAll {α : Type} (f : Nat → α → Chk Unit) : (i : Nat) → List α → Chk Unit
  | _, [] => .ok ()
  | i, x :: xs => do f i x; needAll f (i + 1) xs

/-! ### Layout (R361-R365) -/

/-- The load buffer's local address and its linear offset in tier 2 (R380). -/
def loadBufLa : Nat := 0xF2FFC000000
def loadBufOff : Nat := 2 ^ 40 - 2 ^ 26

/-- The section types in the order of R363, with the record size and the scopes that require and permit each. -/
structure SectType where
  type : Nat
  size : Nat
  req : List Nat
  opt : List Nat

/-- R363. -/
def sectTypes : List SectType := [
  { type := 0x54524150, size := 64, req := [0], opt := [] },
  { type := 0x54554F52, size := 144, req := [], opt := [1, 2] },
  { type := 0x444E4957, size := 32, req := [0, 1], opt := [] },
  { type := 0x4C425454, size := 64, req := [1], opt := [2] },
  { type := 0x54504352, size := 16, req := [1], opt := [2] },
  { type := 0x414D4553, size := 16, req := [1], opt := [] },
  { type := 0x44455243, size := 16, req := [], opt := [1] },
  { type := 0x5A495551, size := 64, req := [0], opt := [] },
  { type := 0x4D495452, size := 64, req := [1], opt := [] },
  { type := 0x4E474953, size := 3328, req := [0, 1, 2], opt := [] }]

/-- Indices of the sections in `sectTypes`. -/
def kPART : Nat := 0
def kROUT : Nat := 1
def kWIND : Nat := 2
def kTTBL : Nat := 3
def kRCPT : Nat := 4
def kSEMA : Nat := 5
def kCRED : Nat := 6
def kQUIZ : Nat := 7
def kRTIM : Nat := 8
def kSIGN : Nat := 9

/-- A section of an image: its kind, its directory index, its offset, its bytes, its checksum. -/
structure Sect where
  kind : Nat := 0
  idx : Nat := 0
  off : Nat := 0
  bytes : List Byte := []
  crc : Nat := 0
deriving DecidableEq, Repr

/-- The header's fields (R361). -/
def hSCOPE (b : List Byte) : Nat := field b 5 1
def hNSECT (b : List Byte) : Nat := field b 6 1
def hLEN (b : List Byte) : Nat := field b 8 4
def hPTN (b : List Byte) : Nat := field b 0xC 1
def hFORM (b : List Byte) : Nat := field b 0xE 2
def hSERIAL (b : List Byte) : Nat := field b 0x10 8
def hAPPLY (b : List Byte) : Nat := field b 0x18 4
def hMODULE (b : List Byte) : List Byte := slice b 0x20 32
def hPRIOR (b : List Byte) : List Byte := slice b 0x40 32
def hCLUSTERS (b : List Byte) : Nat := field b 0x60 16

/-- Checks of the header (R361, R397): failures name 0xFE. -/
def checkHeader (b : List Byte) (len : Nat) : Chk Unit := do
  let sc := hSCOPE b
  need (decide (128 ≤ b.length) && field b 0 4 == 0x424C5953 && field b 4 1 == 1 && decide (sc ≤ 2)
    && decide (2 ≤ hNSECT b) && decide (hNSECT b ≤ 10)) syFormat 0xFE 0xFFFF
  need (field b 7 1 == 0xA1) syRevision 0xFE 0xFFFF
  need (hLEN b % 64 == 0 && decide (hLEN b ≤ (if sc = 0 then 2 ^ 18 else 2 ^ 26)) && hLEN b == len
    && field b 0x7C 4 == crc32c (slice b 0 0x7C)
    && field b 0xD 1 == 0 && bits (hPTN b) 6 2 == 0 && bits (hFORM b) 12 4 == 0 && field b 0x1C 4 == 0
    && allZero (slice b 0x70 12)
    && (sc != 0 || (hPTN b == 0 && hFORM b == 0 && hCLUSTERS b == 0 && allZero (hMODULE b)))
    && (sc == 2 || (hAPPLY b == 0 && allZero (hPRIOR b)))) syFormat 0xFE 0xFFFF

/-- The directory from entry `i` on (R362, R363): `pos` is where the last section ended, `last` its kind. -/
def readDir (b : List Byte) (sc : Nat) : (n i pos : Nat) → (last : Option Nat) → Chk (List Sect)
  | 0, _, _, _ => .ok []
  | n + 1, i, pos, last => do
    let e := slice b (0x80 + 16 * i) 16
    let off := field e 4 4
    let len := field e 8 4
    match sectTypes.findIdx? (fun t => t.type == field e 0 4) with
    | none => .error { reason := syFormat, sect := i }
    | some k =>
      let t := getAt { type := 0, size := 64, req := [], opt := [] } sectTypes k
      need (t.req.contains sc || t.opt.contains sc) (if sc = 2 then syPartial else syFormat) i 0xFFFF
      need ((match last with | some l => decide (l < k) | none => off == pos)
        && off % 64 == 0 && decide (pos ≤ off) && decide (0 < len) && decide (off + len ≤ hLEN b)
        && len % t.size == 0 && (k != kSIGN || len == 3328)
        && allZero (slice b pos (off - pos))) syFormat i 0xFFFF
      let rest ← readDir b sc n (i + 1) (off + len) (some k)
      return { kind := k, idx := i, off := off, bytes := slice b off len, crc := field e 12 4 } :: rest

/-- A section by kind. -/
def sectOf (ss : List Sect) (k : Nat) : Option Sect := ss.find? (fun x => x.kind == k)

/-- The directory as a whole: what follows it up to the first section is zero, the required sections are there, and SIGN
ends the image (R362, R363). -/
def checkDir (b : List Byte) : Chk (List Sect) := do
  let sc := hSCOPE b
  let d := 0x80 + 16 * hNSECT b
  let first := alignUp d 64
  need (decide (first ≤ hLEN b) && allZero (slice b d (first - d))) syFormat 0xFE 0xFFFF
  let ss ← readDir b sc (hNSECT b) 0 first none
  let have_ (k : Nat) : Bool := (sectOf ss k).isSome
  need ((countFrom 0 10).all (fun k => have_ k || !(getAt { type := 0, size := 64, req := [], opt := [] } sectTypes k).req.contains sc)
    && (match sectOf ss kSIGN with | some x => x.off + 3328 == hLEN b | none => false)) syFormat 0xFE 0xFFFF
  return ss

/-- The measurement (R364). -/
def measureOf (b : List Byte) (ss : List Sect) : List Byte :=
  match sectOf ss kSIGN with
  | some x => shake256 64 (slice b 0 x.off)
  | none => []

/-- Index of a role's key slot in the key tables (R620). -/
def keyIndex (role : Role) (slot : Nat) : Nat :=
  (match role with | .maker => 0 | .installer => 4 | .operator => 8) + slot

/-- The public key in a role's slot, empty for none (R500). -/
def roleKey (s : State) (role : Role) (slot : Nat) : List Byte := tget [] s.lcs.keys (keyIndex role slot)

/-- The role that signs a scope (R358, R365). -/
def signerOf (sc : Nat) : Role := if sc = 0 then .installer else .operator

/-- The SIGN section (R365). -/
def checkSign (s : State) (sc : Nat) (x : Sect) (meas : List Byte) : Chk Unit := do
  let g := x.bytes
  need (allZero (slice g 2 14) && allZero (slice g 0xCFD 3)) syFormat x.idx 0
  let key := roleKey s (signerOf sc) (field g 1 1)
  need (field g 0 1 == (signerOf sc).code && decide (field g 1 1 < 4) && !key.isEmpty
    && Config.mldsaVerify key meas (ascii (if sc = 0 then "SV44-SYL-M" else "SV44-SYL-P")) (slice g 0x10 3309))
    sySignature x.idx 0

/-! ### PART (R367, R368) -/

/-- A record of `n` bytes of a section. -/
def recordsOf (n : Nat) (b : List Byte) : List (List Byte) := chunks n (b.length / n) b

/-- A PART record. -/
def parseGrant (r : List Byte) : Grant :=
  { ptn := field r 0 1, ctxCount := field r 1 1, ctxBase := field r 2 2, power := field r 4 2, semBase := field r 6 2,
    semCount := field r 8 2, barBase := field r 0xA 2, barCount := field r 0xC 2, poolBase := field r 0xE 2,
    poolCount := field r 0x10 2, hbmBase := field r 0x14 4, hbmSize := field r 0x18 4, t2Base := field r 0x1C 4,
    t2Size := field r 0x20 4, clusters := field r 0x24 16 }

/-- Two ranges of numbers share a number. -/
def rangesMeet (a n b m : Nat) : Bool := decide (a < b + m) && decide (b < a + n) && decide (0 < n) && decide (0 < m)

/-- A region is gated (R612). -/
def gated (s : State) (region : Nat) : Bool := bitOf s.pwr.gateActive region

/-- The clusters of a bitmap. -/
def clusterList (m : Nat) : List Nat := (countFrom 0 128).filter (bitOf m)

/-- Reserved fields of a PART record. -/
def grantFormat (r : List Byte) (g : Grant) : Bool :=
  decide (g.ptn < 64) && decide (g.ctxCount < 128) && decide (g.ctxBase < 4096) && decide (g.barBase < 4096)
    && decide (g.barCount < 2 ^ 13) && decide (g.poolBase < 2 ^ 13) && decide (g.poolCount < 2 ^ 14)
    && allZero (slice r 0x12 2) && allZero (slice r 0x34 12)

/-- Ranges and clusters of a PART record (R18, R368). -/
def grantRanges (s : State) (g : Grant) : Bool :=
  decide (1 ≤ g.ctxCount) && decide (g.ctxCount ≤ 64) && decide (g.ctxBase + g.ctxCount ≤ 4096)
    && decide (g.semBase + g.semCount ≤ 0xFFFF) && decide (g.barBase + g.barCount ≤ 4096)
    && decide (g.poolBase + g.poolCount ≤ 8192) && (clusterList g.clusters).all (fun k => !gated s (k / 8))

/-- Two grants overlap in a partition number, clusters or a range (R368). -/
def grantsMeet (a b : Grant) : Bool :=
  a.ptn == b.ptn || (a.clusters &&& b.clusters) != 0 || rangesMeet a.ctxBase a.ctxCount b.ctxBase b.ctxCount
    || rangesMeet a.semBase a.semCount b.semBase b.semCount || rangesMeet a.barBase a.barCount b.barBase b.barCount
    || rangesMeet a.poolBase a.poolCount b.poolBase b.poolCount

/-- A grant's quotas as ranges of linear bytes. -/
def quotas (g : Grant) : List (MemKind × Nat × Nat) :=
  [(.hbm, g.hbmBase * 65536, g.hbmSize * 65536), (.tier2, g.t2Base * 65536, g.t2Size * 65536)]

/-- Two ranges of memory overlap. -/
def memMeet (a b : MemKind × Nat × Nat) : Bool := a.1 == b.1 && rangesMeet a.2.1 a.2.2 b.2.1 b.2.2

/-- The load buffer as a range of memory (R380). -/
def loadBuf : MemKind × Nat × Nat := (.tier2, loadBufOff, 2 ^ 26)

/-- The PART section's own checks (R367, R368, R271). A stored cap below the budgets keeps a `stored` Syllabus (R271). -/
def checkPart (s : State) (stored : Bool) (x : Sect) : Chk (List Grant) := do
  let rs := recordsOf 64 x.bytes
  let gs := rs.map parseGrant
  needAll (fun i r => need (grantFormat r (parseGrant r)) syFormat x.idx i) 0 rs
  need (decide (gs.length ≤ 64)) syPartition x.idx 0xFFFF
  needAll (fun i g => need (grantRanges s g && !(gs.take i).any (grantsMeet g)) syPartition x.idx i) 0 gs
  need (stored || decide (sumNat (gs.map Grant.power) + 700 ≤ setCap s)) syPower x.idx 0xFFFF
  needAll (fun i g => need ((quotas g).all (fun q => decide (q.2.1 + q.2.2 ≤ q.1.size) && !memMeet q loadBuf
    && !(gs.take i).any (fun h => (quotas h).any (memMeet q)))) syWindow x.idx i) 0 gs
  return gs

/-! ### WIND (R369-R371) -/

/-- The memory kind of MEM. -/
def memOf : Nat → MemKind
  | 0 => .coreSram | 1 => .clusterSram | 2 => .hbm | _ => .tier2

/-- The key class of KEY. -/
def keyOf : Nat → KeyClass
  | 0 => .context | 1 => .base | 2 => .partition | _ => .module

/-- The type of TYPE in a scope (R370). -/
def winType (sc t : Nat) : Option WinType :=
  if sc = 0 then (match t with | 1 => some .vat | 2 => some .base | 3 => some .colsum | _ => none)
  else match t with | 4 => some .staging | 5 => some .shared | 6 => some .priv | 7 => some .tensor | _ => none

/-- A WIND record of a known type; a TENSOR's base counts from its BASE window, whose start is `start`. -/
def parseWin (t : WinType) (start : Nat) (r : List Byte) : Win :=
  { type := t, mem := memOf (bits (field r 1 1) 0 2), rindBit := bitOf (field r 1 1) 2, rights := bits (field r 2 1) 0 6,
    key := keyOf (bits (field r 2 1) 6 2), owner := field r 4 2,
    base := field r 8 8 + (if t = .tensor then start else 0), size := field r 0x10 8, tensorId := field r 0x18 4 }

/-- Reserved fields of a WIND record. -/
def winFormat (sc : Nat) (r : List Byte) : Bool :=
  bits (field r 1 1) 3 5 == 0 && field r 3 1 == 0 && field r 6 2 == 0 && field r 0x1C 4 == 0
    && (winType sc (field r 0 1)).isSome

/-- What R370 asks of a record by its type. -/
def winShape (w : Win) (g : Grant) : Bool :=
  (w.type == .base || !w.rindBit) && (w.type == .tensor || w.tensorId == 0) &&
  match w.type with
  | .vat => w.mem == .tier2 && w.key == .module && w.base % giB == 0 && decide (giB ≤ w.size) && decide (w.size ≤ 1024 * giB)
      && w.size % giB == 0 && w.rights == 0 && w.owner == 0
  | .base => w.mem == .hbm && w.key == .base && !bitOf w.rights 1 && !bitOf w.rights 4
  | .colsum => w.mem == .hbm && w.key == .base
  | .staging => w.mem == .hbm && w.key == .partition && decide (192 * 1024 ≤ w.size) && w.rights == 0 && w.owner == 0
  | .shared => w.key == .partition && w.owner == 0
  | .priv => w.key == .context && decide (g.ctxBase ≤ w.owner) && decide (w.owner < g.ctxBase + g.ctxCount)
  | .tensor => w.mem == .hbm && w.key == .base

/-- The granule, the extent and the load buffer (R344, R371). -/
def winExtent (w : Win) : Bool :=
  let gr := if w.type = .tensor then 64 else w.mem.granule
  w.base % gr == 0 && w.size % gr == 0 && w.size != 0 && decide (w.base + w.size ≤ w.mem.size)
    && !memMeet (w.mem, w.base, w.size) loadBuf

/-- The SRAM of a partition window lies in the image's clusters (R371). -/
def winInClusters (w : Win) (clusters : Nat) : Bool :=
  let unit := if w.mem = .coreSram then 2 ^ 24 else 2 ^ 23
  (countFrom (w.base / unit) ((w.base + w.size - 1) / unit - w.base / unit + 1)).all (bitOf clusters)

/-- A partition window of external memory lies in its quota (R371). -/
def winInQuota (w : Win) (g : Grant) : Bool :=
  (quotas g).any (fun q => q.1 == w.mem && decide (q.2.1 ≤ w.base) && decide (w.base + w.size ≤ q.2.1 + q.2.2))

/-- Windows of the image with the same type, and owner where the type counts by owner. -/
def sameCount (w v : Win) : Bool := v.type == w.type && ((w.type != .priv && w.type != .colsum) || v.owner == w.owner)

/-- The largest number of records of a type (R370). -/
def winMax : WinType → Nat
  | .vat | .colsum | .staging => 1
  | .base => 16 | .shared => 32 | .priv => 8 | .tensor => 16384

/-- The checks of one record against the module's or partition's bounds and the records before it (R370, R371). -/
def winOk (s : State) (sc : Nat) (g : Grant) (clusters : Nat) (before all : List Win) (w : Win) : Bool :=
  winShape w g && winExtent w && decide ((before.filter (sameCount w)).length < winMax w.type)
  && (w.type != .base || !before.any (fun v => v.type == .base && v.owner == w.owner))
  && (w.type != .colsum || all.any (fun v => v.type == .base && v.owner == w.owner))
  && (match w.type with
      | .tensor => match (moduleWins s).find? (fun v => v.type == .base && v.owner == w.owner) with
        | some b => decide (b.base ≤ w.base) && decide (w.base + w.size ≤ b.base + b.size)
        | none => false
      | _ => sc == 0 || (if w.mem.isSram then winInClusters w clusters else winInQuota w g))
  && (w.type == .tensor || !before.any (fun v => v.type != .tensor && memMeet (w.mem, w.base, w.size) (v.mem, v.base, v.size)))

/-- The WIND section's checks (R369-R371). -/
def checkWind (s : State) (sc : Nat) (g : Grant) (clusters : Nat) (x : Sect) : Chk (List Win) := do
  let rs := recordsOf 32 x.bytes
  needAll (fun i r => need (winFormat sc r) syFormat x.idx i) 0 rs
  let startOf (r : List Byte) : Nat :=
    (((moduleWins s).find? (fun v => v.type == .base && v.owner == field r 4 2)).map Win.base).getD 0
  let ws := rs.map (fun r => parseWin ((winType sc (field r 0 1)).getD .shared) (startOf r) r)
  needAll (fun i w => need (winOk s sc g clusters (ws.take i) ws w) syWindow x.idx i) 0 ws
  let has (t : WinType) : Bool := ws.any (fun w => w.type == t)
  need (if sc = 0 then has .vat && has .base && (ws.filter (fun w => w.type == .base)).all (fun b =>
      ws.any (fun w => w.type == .colsum && w.owner == b.owner)) else has .staging) syWindow x.idx 0xFFFF
  needAll (fun i w => need (!(w.type == .tensor && (ws.take i).any (fun v => v.type == .tensor && v.owner == w.owner
    && memMeet (w.mem, w.base, w.size) (v.mem, v.base, v.size)))) syTied x.idx i) 0 ws
  return ws

/-! ### ROUT, RCPT, SEMA, CRED, RTIM (R372, R375-R377, R379) -/

/-- The ROUT section (R372). -/
def checkRout (clusters : Nat) (x : Sect) : Chk (List Route) := do
  let rs := recordsOf 144 x.bytes
  let out := rs.map (fun r => ({ num := field r 0 1, members := (countFrom 0 1024).filter (bitOf (field r 0x10 128)) } : Route))
  needAll (fun i r => need (allZero (slice r 1 15)) syFormat x.idx i) 0 rs
  needAll (fun i (r : Route) => need (r.num != 0 && !(out.take i).any (fun q => q.num == r.num)
    && decide (2 ≤ r.members.length) && r.members.all (fun n => bitOf clusters (n / 8))) syRoute x.idx i) 0 out
  return out

/-- The methods that R70 permits for a kind. -/
def kindMethods : Nat → List Nat
  | 0 => [1] | 1 => [2, 3] | 2 => [2] | 3 => [0] | 4 => [4] | _ => []

/-- The RCPT section (R375). -/
def checkRcpt (x : Sect) : Chk (List Recipe) := do
  let rs := recordsOf 16 x.bytes
  needAll (fun i r => need (allZero (slice r 3 13)) syFormat x.idx i) 0 rs
  needAll (fun i r => need (field r 0 1 == i && decide (i < 5) && (kindMethods i).contains (field r 1 1)
    && (i == 4 || field r 2 1 == 0)) syRecipe x.idx i) 0 rs
  need (rs.length == 5) syRecipe x.idx 0xFFFF
  return rs.map (fun r => { kind := field r 0 1, method := field r 1 1, initExp := signed 8 (field r 2 1) })

/-- The SEMA section (R376). -/
def checkSema (form : Nat) (g : Grant) (x : Sect) : Chk (List SemaRec) := do
  let rs := recordsOf 16 x.bytes
  let out := rs.map (fun r => ({ index := field r 0 2, bar := bitOf (field r 2 2) 0, scope := bits (field r 2 2) 1 2,
                                 form := field r 4 2, target := field r 6 2, upLmn := field r 8 2, upBar := field r 0xA 2 } : SemaRec))
  needAll (fun i r => need (bits (field r 2 2) 3 13 == 0 && bits (field r 4 2) 12 4 == 0 && bits (field r 8 2) 10 6 == 0
    && bits (field r 0xA 2) 12 4 == 0 && allZero (slice r 0xC 4)) syFormat x.idx i) 0 rs
  needAll (fun i (r : SemaRec) =>
    let lo := if r.bar then g.barBase else g.semBase
    let n := if r.bar then g.barCount else g.semCount
    need (r.scope != 3 && !(r.bar && r.scope == 1) && (r.scope != 2 || form != 0)
      && r.form == (if r.scope = 2 then form else 0) && decide (lo ≤ r.index) && decide (r.index < lo + n)
      && !(out.take i).any (fun q => q.bar == r.bar && q.index == r.index)
      && (if r.bar then r.target != 0 && (r.upLmn == 0x3FF || r.scope != 0)
          else r.target == 0 && r.upLmn == 0 && r.upBar == 0)) sySema x.idx i) 0 out
  return out

/-- The CRED section (R377). -/
def checkCred (g : Grant) (ws : List Win) (x : Sect) : Chk (List CredRec) := do
  let rs := recordsOf 16 x.bytes
  let out := rs.map (fun r => ({ landing := bitOf (field r 0 2) 0, number := field r 2 2, ctx := field r 4 2, peerLmn := field r 6 2,
                                 link := field r 8 2, amount := field r 0xA 2, offset := field r 0xC 4 } : CredRec))
  needAll (fun i r => need (bits (field r 0 2) 1 15 == 0 && bits (field r 2 2) 13 3 == 0 && bits (field r 4 2) 12 4 == 0
    && bits (field r 6 2) 10 6 == 0 && bits (field r 8 2) 13 3 == 0) syFormat x.idx i) 0 rs
  needAll (fun i (r : CredRec) =>
    need (decide (g.poolBase ≤ r.number) && decide (r.number < g.poolBase + g.poolCount)
      && !(out.take i).any (fun q => q.landing == r.landing && q.number == r.number)
      && decide (g.ctxBase ≤ r.ctx) && decide (r.ctx < g.ctxBase + g.ctxCount) && r.amount != 0
      && (if r.landing then
            let w := getAt {} ws r.link
            r.peerLmn == 0 && decide (r.link < 256) && decide (r.link < ws.length) && r.offset % 1024 == 0
              && w.type == .priv && w.owner == r.ctx && decide (r.offset + 1024 * r.amount ≤ w.size)
          else r.offset == 0)) syCred x.idx i) 0 out
  return out

/-- The RTIM section (R379). -/
def checkRtim (ws : List Win) (x : Sect) : Chk Runtime := do
  let b := x.bytes
  let n := field b 4 4
  let r : Runtime := { win := field b 0 1, offset := field b 8 8, entry := field b 0x10 8, trap := field b 0x18 8,
                       sp := field b 0x20 8, code := b.drop 64 }
  need (allZero (slice b 1 3) && allZero (slice b 0x28 24) && n % 64 == 0 && b.length == 64 + n) syFormat x.idx 0
  let w := getAt {} ws r.win
  need (decide (r.win < ws.length) && w.type == .shared && bitOf w.rights 3 && bitOf w.rights 5 && r.offset % 64 == 0
    && decide (r.offset + n ≤ w.size) && decide (r.entry < w.size) && decide (r.trap < w.size) && r.trap % 4 == 0
    && decide (r.sp ≤ w.size)) syRuntime x.idx 0
  return r

/-! ### TTBL (R263-R266, R373) -/

/-- The slot kind of KIND (R265). -/
def slotKind : Nat → Option SlotKind
  | 1 => some .lecture | 2 => some .spill | 3 => some .tutorial | 4 => some .quiz | 5 => some .exchange | _ => none

/-- A slot record (R264). -/
def parseSlotRec (r : List Byte) : Slot :=
  { kind := (slotKind (bits (field r 0 1) 0 4)).getD .lecture, recess := bitOf (field r 0 1) 4, seat := field r 1 1,
    regions := field r 2 2, start := field r 4 4, deadline := field r 8 4, wcet := field r 0xC 4, arrayCy := field r 0x10 4,
    memCy := field r 0x14 4, linkCy := field r 0x18 4, pDarr := field r 0x1C 2, pOther := field r 0x1E 2,
    goSem := field r 0x20 2, doneSem := field r 0x22 2, doneTarget := field r 0x24 4 }

/-- Reserved fields of a slot record. -/
def slotFormat (r : List Byte) : Bool :=
  bits (field r 0 1) 5 3 == 0 && field r 7 1 == 0 && field r 0xB 1 == 0 && allZero (slice r 0x28 20)

/-- The conditions of R264-R266 on one slot, with the slots before it. -/
def slotOk (y : Timetable) (before : List Slot) (r : List Byte) (k : Slot) : Bool :=
  crcTailOk r 0x3C && (slotKind (bits (field r 0 1) 0 4)).isSome
  && (match before.getLast? with | some b => decide (b.start ≤ k.start) | none => true)
  && decide (k.start < k.deadline) && decide (k.deadline ≤ y.lessonBells)
  && decide (max k.arrayCy (max k.memCy k.linkCy) ≤ k.wcet) && decide (k.wcet ≤ (k.deadline - k.start) * 2048)
  && (k.kind != .spill || (!before.any (fun b => b.kind == .spill)
        && y.slots.all (fun b => b.kind != .lecture || decide (b.deadline ≤ k.start))))
  && (k.kind == .tutorial || (!k.recess && k.seat == 0)) && decide (k.seat < 64)
  && (if k.kind = .quiz then decide (k.start + 256 ≤ k.deadline) && k.doneSem == 0xFFFF else k.doneSem != 0xFFFF)
  && k.doneTarget != 0

/-- The distances between consecutive recess points of a Lesson (R266, R270). -/
def gapsOf (y : Timetable) : List Nat :=
  let ps := (((y.slots.filter Slot.recess).map Slot.deadline).foldl (fun acc p => insertNat p acc) []) ++ [y.lessonBells]
  (ps.foldl (fun (acc : Nat × List Nat) p => (p, (p - acc.1) :: acc.2)) (0, [])).2

/-- The largest sum of a power figure over the slots open at one Bell (R266). -/
def peakOf (y : Timetable) (f : Slot → Nat) : Nat :=
  maxNat (y.slots.map (fun a => sumNat ((y.slots.filter (fun b => decide (b.start ≤ a.start) && decide (a.start < b.deadline))).map f)))

/-- PREEMPT_BOUND in force (R263, R281). -/
def Timetable.preempt (y : Timetable) : Nat := if y.preemptBound = 0 then 4096 else y.preemptBound

/-- The TTBL section's own checks (R373); 0xFFFE names the prologue or the timing header (R397). -/
def checkTtbl (x : Sect) : Chk Timetable := do
  let b := x.bytes
  let h := slice b 64 64
  let rs := recordsOf 64 (b.drop 128)
  let y : Timetable := {
    adaptMax := field b 0 2, spillRows := field b 4 4, abortPolicy := bitOf (field h 2 2) 0,
    lessonBells := field h 4 4, preemptBound := field h 8 4, recessGap := field h 0xC 4, peakDarr := field h 0x10 2,
    peakOther := field h 0x12 2, slots := rs.map parseSlotRec }
  need (decide (128 ≤ b.length)) syFormat x.idx 0xFFFF
  need (allZero (slice b 2 2) && allZero (slice b 8 56) && bits (field h 2 2) 1 15 == 0 && field h 7 1 == 0 && field h 0xF 1 == 0
    && allZero (slice h 0x14 40)) syFormat x.idx 0xFFFE
  needAll (fun i r => need (slotFormat r) syFormat x.idx i) 0 rs
  need (decide (1 ≤ y.adaptMax) && decide (y.adaptMax ≤ 4096)) syAdaptMax x.idx 0xFFFE
  need (crcTailOk h 0x3C && field h 0 1 == 1 && field h 1 1 == rs.length && !rs.isEmpty && decide (64 ≤ y.lessonBells)
    && decide (y.recessGap ≤ y.preempt)) syTimetable x.idx 0xFFFE
  needAll (fun i r => need (slotOk y (y.slots.take i) r (parseSlotRec r)) syTimetable x.idx i) 0 rs
  need ((y.spillRows == 0) == !(y.slots.any (fun k => k.kind == .spill)) && y.slots.any (fun k => k.kind == .quiz)
    && decide (maxNat (gapsOf y) ≤ y.recessGap) && decide (peakOf y Slot.pDarr ≤ y.peakDarr)
    && decide (peakOf y Slot.pOther ≤ y.peakOther)) syTimetable x.idx 0xFFFF
  return y

/-- The Timetable against SEMA and the partition's power budget (R266, R273, R381 step 6). -/
def joinTtbl (y : Timetable) (idx : Nat) (sema : List SemaRec) (power : Nat) : Chk Unit := do
  let has (i : Nat) : Bool := i == 0xFFFF || sema.any (fun r => !r.bar && r.index == i)
  needAll (fun i (k : Slot) => need (has k.goSem && has k.doneSem) syTimetable idx i) 0 y.slots
  need (decide (y.peakDarr + y.peakOther ≤ 4 * power)) syTimetable idx 0xFFFF

/-! ### QUIZ (R378) -/

/-- A QUIZ record. -/
def parseQuiz (r : List Byte) : QuizSet :=
  { set := field r 0 1, unit := field r 1 1, bells := field r 2 2, flashOff := field r 8 8, len := field r 0x10 4,
    digest := slice r 0x20 32 }

/-- The digest of a set's content in flash (R378). -/
def contentDigest (q : QuizSet) : List Byte := shake256 32 ((countFrom q.flashOff q.len).map Config.testContent)

/-- The QUIZ section (R378). -/
def checkQuiz (s : State) (x : Sect) : Chk (List QuizSet) := do
  let rs := recordsOf 64 x.bytes
  let qs := rs.map parseQuiz
  needAll (fun i r => need (allZero (slice r 4 4) && allZero (slice r 0x14 12)) syFormat x.idx i) 0 rs
  needAll (fun i (q : QuizSet) => need (decide (q.set < 32) && !(qs.take i).any (fun p => p.set == q.set) && decide (q.unit < 5)
    && decide (1 ≤ q.bells) && decide (q.bells ≤ 240) && decide (1 ≤ q.len) && decide (q.len ≤ 2 ^ 28) && q.flashOff % 4096 == 0
    && decide (q.flashOff + q.len ≤ 2 ^ 36)) syQuiz x.idx i) 0 qs
  need ((countFrom 0 5).all (fun u => qs.any (fun q => q.unit == u)) && decide (sumNat (qs.map QuizSet.bells) ≤ 240))
    syQuiz x.idx 0xFFFF
  needAll (fun i (q : QuizSet) => need (!s.tst.contentBad && contentDigest q == q.digest) syQuiz x.idx i) 0 qs
  return qs

/-! ### A whole image (R359, R381) -/

/-- What an accepted image defines. -/
inductive Loaded where
  | module (m : ModSyl)
  | partition (p : Nat) (y : PtnSyl)
  | reload (p : Nat) (r : Reload)
deriving Repr

/-- Attaches the measurement to a failure found after it was formed (R381). -/
def withMeas {α : Type} (m : List Byte) : Chk α → Chk α
  | .ok x => .ok x
  | .error e => .error { e with meas := m }

/-- Runs the check of a section that is present. -/
def opt {α : Type} (ss : List Sect) (k : Nat) (f : Sect → Chk α) : Chk (Option α) :=
  match sectOf ss k with
  | some x => do let r ← f x; return some r
  | none => .ok none

/-- Step 1 of R381: the life-cycle state, the role and the preconditions of R359; a spare accepts no Syllabus (R447). -/
def checkPre (s : State) (role : Option Role) (b : List Byte) : Chk Unit := do
  let sc := hSCOPE b
  let p := hPTN b % 64
  need (s.lcs.lc == .provisioned || s.lcs.lc == .deployed) syRole 0xFF 0xFFFF
  need (decide (2 < sc) || role == some (signerOf sc)) syRole 0xFF 0xFFFF
  need (match sc with
    | 0 => s.syl.module.isNone && s.oh.state == .empty && s.bell.cfg.role != 3
    | 1 => s.syl.module.isSome && !((getPtn s p).inForce) && s.bell.cfg.role != 3
    | 2 => (getPtn s p).reload.isNone
    | _ => true) syBusy 0xFF 0xFFFF

/-- Steps 5 and 6 for a module Syllabus. -/
def checkModule (s : State) (stored : Bool) (b : List Byte) (ss : List Sect) (meas : List Byte) : Chk Loaded := do
  let part := (sectOf ss kPART).getD {}
  let gs ← checkPart s stored part
  let ws ← checkWind s 0 {} 0 ((sectOf ss kWIND).getD {})
  let qs ← checkQuiz s ((sectOf ss kQUIZ).getD {})
  needAll (fun i g => need (!(quotas g).any (fun q => ws.any (fun w => memMeet q (w.mem, w.base, w.size)))) syWindow part.idx i) 0 gs
  return .module { image := b.take (hLEN b), meas := meas, serial := hSERIAL b, grants := gs, wins := ws, quiz := qs }

/-- A number of the cluster belongs to no core for good: a core is retired with no stand-in. One whose core is in detention is not
lost (R25, R540). -/
def clusterHeld (s : State) (k : Nat) : Bool :=
  s.int.heldClusters.contains k || (countFrom (8 * k) 8).any (fun n =>
    (physOf s n).isNone && !(countFrom (9 * k) 9).any (fun q => (getPhys s q).state == .detained && (getPhys s q).home == n))

/-- PTN_ID and CLUSTERS of an image against the module Syllabus in force (R382 PARTITION). -/
def checkPtnId (s : State) (b : List Byte) : Chk Grant :=
  let p := hPTN b
  match (s.syl.module.map ModSyl.grants).getD [] |>.find? (fun g => g.ptn == p) with
  | none => .error { reason := syPartition, sect := 0xFE }
  | some g => do
    let c := hCLUSTERS b
    need (c != 0 && (c &&& g.clusters) == c && (clusterList c).all (fun k => !gated s (k / 8) && !clusterHeld s k)) syPartition 0xFE 0xFFFF
    return g

/-- Steps 5 and 6 for a partition Syllabus. -/
def checkPartition (s : State) (b : List Byte) (ss : List Sect) (meas : List Byte) : Chk Loaded := do
  let g ← checkPtnId s b
  let c := hCLUSTERS b
  let routes ← opt ss kROUT (checkRout c)
  let ws ← checkWind s 1 g c ((sectOf ss kWIND).getD {})
  let tx := (sectOf ss kTTBL).getD {}
  let tt ← checkTtbl tx
  let recipe ← checkRcpt ((sectOf ss kRCPT).getD {})
  let sema ← checkSema (hFORM b) g ((sectOf ss kSEMA).getD {})
  let cred ← opt ss kCRED (checkCred g ws)
  let rtim ← checkRtim ws ((sectOf ss kRTIM).getD {})
  joinTtbl tt tx.idx sema g.power
  return .partition (hPTN b) { meas := meas, serial := hSERIAL b, form := hFORM b, clusters := c, wins := ws,
                               routes := routes.getD [], tt := tt, recipe := recipe, sema := sema, cred := cred.getD [], rtim := rtim }

/-- Steps 5 and 6 for a partial reload, against the sections that the partition keeps (R386). -/
def checkReload (s : State) (b : List Byte) (ss : List Sect) (meas : List Byte) : Chk Loaded := do
  let p := hPTN b
  match (getPtn s p).syl with
  | none => .error { reason := syPartial, sect := 0xFE }
  | some y =>
    need ((getPtn s p).inForce && hFORM b == y.form && hCLUSTERS b == y.clusters && hPRIOR b == slice y.meas 0 32
      && ss.any (fun x => x.kind != kSIGN)) syPartial 0xFE 0xFFFF
    let _ ← checkPtnId s b
    let routes ← opt ss kROUT (checkRout y.clusters)
    let tt ← opt ss kTTBL checkTtbl
    let recipe ← opt ss kRCPT checkRcpt
    match tt with
    | some t => joinTtbl t ((sectOf ss kTTBL).getD {}).idx y.sema ((grantOf s p).getD {}).power
    | none => .ok ()
    return .reload p { applyAt := hAPPLY b, meas := meas, serial := hSERIAL b, routes := routes, tt := tt, recipe := recipe }

/-- The checks of R381 in their order over an image of `len` bytes; `stored` says that start-up checks the stored image (R271,
R360). -/
def checkImage (s : State) (role : Option Role) (b : List Byte) (len : Nat) (stored : Bool := false) : Chk Loaded := do
  checkPre s role b
  checkHeader b len
  let ss ← checkDir b
  needAll (fun _ (x : Sect) => need (crc32c x.bytes == x.crc) syFormat x.idx 0xFFFF) 0 ss
  let meas := measureOf b ss
  withMeas meas (do
    checkSign s (hSCOPE b) ((sectOf ss kSIGN).getD {}) meas
    need (hSCOPE b == 0 || (hSCOPE b == 2 && (getPtn s (hPTN b)).syl.isNone)
        || hMODULE b == slice ((s.syl.module.map ModSyl.meas).getD []) 0 32) syModule 0xFE 0xFFFF
    match hSCOPE b with
    | 0 => checkModule s stored b ss meas
    | 1 => checkPartition s b ss meas
    | _ => checkReload s b ss meas)

end Sys2Proof.Machine
end

