-- ==== Sys2Proof/Machine/Syllabus.lean ====
section
/-! DEFINITION. Loading a Syllabus (spec/11_syllabus_image.md R380-R388, R397): LOAD, what comes into force, partial
reloads, CANCEL, and queued enables (R411).
Readings and choices: log 23, 70, 71, 72, 73, 155, 158, 159. -/

namespace Sys2Proof.Machine

/-! ### Answers (R381, R397, R490) -/

/-- The journal entry of a LOAD or CANCEL (R381, R509). -/
def sylJournal (s : State) (who : Req) (p scope : Nat) (e : SyFail) : State :=
  journalFor s who { action := 0x07, result := e.reason, ptn := if scope = 0 then 0xFF else p, aux := scope % 256 + 256 * e.reason,
                     data := slice e.meas 0 32 }

/-! ### Coming into force (R383, R384) -/

/-- The global address of a place of this module. -/
def globalOf (pl : Place) : Nat := 0x3FF * 2 ^ 54 + addrOf pl

/-- The runtime's launch (R384). -/
def runtimeLaunch (s : State) (p : Nat) (y : PtnSyl) : Launch :=
  let w := getAt {} y.wins y.rtim.win
  let start := globalOf (w.mem, w.base)
  { nthreads := 1, mmode := true, ctx := ((grantOf s p).getD {}).ctxBase, entry := start + y.rtim.entry, arg := p,
    spBase := start + y.rtim.sp, trap := start + y.rtim.trap, stamp := now s }

/-- A semaphore or barrier as SEMA allocates it (R294, R304, R376). -/
def allocate (s : State) (p : Nat) (r : SemaRec) : State :=
  if r.bar then modBar s r.index (fun _ => { alloc := true, ptn := p, scope := r.scope, form := r.form, target := r.target,
                                             upLmn := r.upLmn, upBar := r.upBar })
  else modSem s r.index (fun _ => { alloc := true, ptn := p, scope := r.scope, form := r.form })

/-- A pool or landing buffer as CRED defines it (R306, R377). -/
def bindCred (s : State) (p : Nat) (ws : List Win) (r : CredRec) : State :=
  if r.landing then
    let w := getAt {} ws r.link
    modBuf s r.number (fun _ => { bound := true, ptn := p, ctx := r.ctx, addr := addrOf (w.mem, w.base + r.offset), size := 1024 * r.amount })
  else modPool s r.number (fun _ => { bound := true, ptn := p, ctx := r.ctx, peer := r.peerLmn, link := r.link, alloc := r.amount,
                                      credits := r.amount })

/-- Places the runtime or queues its launch (R384): a LOAD is done once the thread is placed. -/
def launchRuntime (s : State) (p : Nat) (y : PtnSyl) : State :=
  let l := runtimeLaunch s p y
  match freeCore s p l with
  | some n => sylEnd (placeGroup s p l n) p 1 { meas := y.meas }
  | none => modPtn { s with syl.busy := true, syl.waiting := some p } p (fun q => { q with launchQ := q.launchQ ++ [l] })

/-- A partition Syllabus comes into force (R383, R384, R398); its partition key is generated (R518), and ACTIVE_MAX is its
CTX_COUNT (R422). One with a cluster that is held, or with a window in a failed channel, is held itself (R25, R35, R575). -/
def bringPartition (s : State) (p : Nat) (y : PtnSyl) : State :=
  let s := setPtnState (bumpPtnGen s p) p .active
  let (k, s) := draw s 64
  let s := { s with keys.ptn := tset none s.keys.ptn p (some k) }
  let s := modPtn s p (fun q => { q with
    syl := some y, reload := none, enablePending := none, restSince := none, tt := {}, binding := [],
    activeMax := ((grantOf s p).getD {}).ctxCount })
  let s := forEach y.sema (fun s r => allocate s p r) s
  let s := forEach y.cred (fun s r => bindCred s p y.wins r) s
  let w := getAt {} y.wins y.rtim.win
  let i : Issuer := { mmode := true, ctx := ((grantOf s p).getD {}).ctxBase, ptn := p }
  let s := if s.int.heldClusters.any (bitOf y.clusters) then setHold s p causeDegraded else s
  let s := if usesDead s p then setHold s p causeXdie1 else s
  launchRuntime (writeAs s i (w.mem, w.base + y.rtim.offset) y.rtim.code) p y

/-- A module Syllabus comes into force (R383, R394, R398): open house ends, the Vat registers are loaded, granted
partitions are OFF. -/
def bringModule (s : State) (m : ModSyl) (stored : Bool) : State :=
  let v := (m.wins.find? (fun w => w.type == .vat)).getD {}
  let s := { s with
    syl.module := some m, syl.mode := 2, syl.stored := stored, keys.openHouse := none,
    vat.base := addrOf (v.mem, v.base), vat.size := v.size / giB, vat.ready := true }
  forEach (countFrom 0 64) (fun s p => setPtnState s p (if m.grants.any (fun g => g.ptn == p) then .off else .ungranted)) s

/-! ### Partial reload (R386-R388) -/

/-- The Bell at which the next Lesson of a Timetable starts, none while it is HELD. -/
def nextLessonAt (t : Tt) (y : Timetable) : Option Nat :=
  match t.state with
  | .armed => some t.b0
  | .held => none
  | _ => some (if t.inLesson then t.bound + y.lessonBells else t.bound)

/-- The Bell at which Lesson `a` of a Timetable starts with no further delay; none while it is HELD. -/
def lessonStart (t : Tt) (y : Timetable) (a : Nat) : Option Nat :=
  (nextLessonAt t y).map (fun b => b + (a - (t.lesson % 2 ^ 32 + 1)) * y.lessonBells)

/-- Commands that have started keep the routes and the recipe that they started under (R388). -/
def keepSections (s : State) (p : Nat) (y : PtnSyl) : State :=
  forEach (coresOf s p) (fun s n =>
    let c := getCore s n
    if (c.acdRun.isSome || c.decision.isSome) && c.under.isNone then
      modCore s n (fun c => { c with under := some (y.routes, y.recipe) })
    else s) s

/-- The reload's new sections replace the old ones for what starts from here on, and the measurement changes (R366, R388, R514). -/
def applyReload (s : State) (p : Nat) : State :=
  match (getPtn s p).reload, (getPtn s p).syl with
  | some r, some y =>
    let y' : PtnSyl := { y with routes := r.routes.getD y.routes, tt := r.tt.getD y.tt, recipe := r.recipe.getD y.recipe,
                                serial := r.serial, meas := shake256 64 (y.meas ++ r.meas) }
    dropPtnEks (modPtn (keepSections s p y) p (fun q => { q with reload := none, syl := some y' })) p
  | _, _ => s

/-- An accepted partial reload (R387): it applies at once, waits for its Lesson, or comes too late. -/
def startReload (s : State) (p : Nat) (r : Reload) : State × Nat :=
  let t := (getPtn s p).tt
  match ttOf s p with
  | none => (s, syPartial)
  | some y =>
    if t.state = .idle then (applyReload (modPtn s p (fun q => { q with reload := some r })) p, syOk)
    else
      let cur := t.lesson % 2 ^ 32
      let soon (a : Nat) : Bool := match lessonStart t y a with
        | some b => decide (b < s.bell.count + 2)
        | none => false
      if r.applyAt = 0 then
        (modPtn s p (fun q => { q with reload := some { r with applyAt := if soon (cur + 1) then cur + 2 else cur + 1 } }), syOk)
      else if r.applyAt ≤ cur ∨ soon r.applyAt then (s, syTooLate)
      else (modPtn s p (fun q => { q with reload := some r }), syOk)

/-- PARTIAL_RELOAD_APPLY (R387): the application point of a pending reload: the Timetable is IDLE, or Lesson APPLY_AT has
begun and has released no slot. -/
def execPartialReloadApply (p : Nat) (s : State) : Out :=
  .next (match (getPtn s p).reload with
    | some r =>
      let t := (getPtn s p).tt
      if t.state == .idle || (t.inLesson && t.lesson % 2 ^ 32 == r.applyAt && t.next == 0) then applyReload s p else s
    | none => s)

/-! ### LOAD and CANCEL -/

/-- The image in the load buffer (R380). -/
def loadBuffer (s : State) (n : Nat) : List Byte := readUnder s (vatKey s) loadBufLa (min n (2 ^ 26))

/-- SYLLABUS_REJECT of a LOAD, and its journal entry where the journal has room (R381, R510). -/
def sylRefuse (s : State) (who : Req) (p scope : Nat) (e : SyFail) : State :=
  let s := raise s .syllabusReject { kind := .module, ptn := if scope = 0 then 0xFF else p }
  if journalRoom s then sylJournal s who p scope e else s

/-- A LOAD ends rejected (R381). -/
def sylReject (s : State) (who : Req) (p scope : Nat) (e : SyFail) : State := sylEnd (sylRefuse s who p scope e) p scope e

/-- SCOPE and PTN_ID of the image in the load buffer. -/
def loadNames (s : State) : Nat × Nat :=
  let b := loadBuffer s s.syl.len
  (hSCOPE b, if hSCOPE b = 0 then 0 else hPTN b % 64)

/-- A LOAD (R380-R384): a partition LOAD whose partition is still shutting down is QUEUED (R411). -/
def sylLoad (s : State) (who : Req) : State :=
  let b := loadBuffer s s.syl.len
  let scope := hSCOPE b
  let p := if scope = 0 then 0 else hPTN b % 64
  if !journalRoom s then sylReject s who p scope { reason := syBusy }
  else match checkImage s (roleOf s who) b s.syl.len with
  | .error e => sylReject s who p scope e
  | .ok (.module m) =>
    sylEnd (bringModule (sylJournal s who p scope { meas := m.meas }) m false) 0 0 { meas := m.meas }
  | .ok (.partition p y) =>
    let s := sylJournal s who p scope { meas := y.meas }
    let s := { s with syl := { s.syl with ptn := p, done := false, sect := 0xFF, record := 0xFFFF } }
    if (getPtn s p).state = .off then bringPartition { s with syl.reason := syOk } p y
    else modPtn { s with syl.busy := true, syl.reason := syQueued, syl.waiting := some p } p (fun q => { q with enablePending := some y })
  | .ok (.reload p r) =>
    let (s1, st) := startReload s p r
    if st = syOk then sylEnd (sylJournal s1 who p scope { meas := r.meas }) p scope { meas := r.meas }
    else sylReject s who p scope { reason := st, meas := r.meas }

/-- A CANCEL (R387): refused TOO_LATE less than 2 bl before the application Bell or after it, or when nothing is pending. -/
def sylCancel (s : State) (who : Req) (p : Nat) : State :=
  let fin (s : State) (e : SyFail) : State := sylEnd (sylJournal s who p 2 e) p 2 e
  if !isOperator s who then fin s { reason := syRole }
  else if !journalRoom s then sylEnd s p 2 { reason := syBusy }
  else match (getPtn s p).reload, ttOf s p with
  | some r, some y =>
    let t := (getPtn s p).tt
    let late := match lessonStart t y r.applyAt with
      | some b => decide (b < s.bell.count + 2)
      | none => false
    let begun := t.state != .armed && decide (r.applyAt ≤ t.lesson % 2 ^ 32)
    if t.state == .idle || begun || late then fin s { reason := syTooLate, meas := r.meas }
    else fin (modPtn s p (fun q => { q with reload := none })) { meas := r.meas }
  | _, _ => fin s { reason := syTooLate }

/-- A write of MOD_SYL_CMD (R397, R626). While BUSY is 1 it is answered BUSY, a LOAD as one that is rejected (R381): a LOAD that
waits under R411 keeps REASON QUEUED. -/
def sylCmd (s : State) (who : Req) (word : Nat) : State :=
  if s.syl.busy then
    let n := loadNames s
    let s := if bits word 0 4 = 1 then sylEvent (sylRefuse s who n.2 n.1 { reason := syBusy }) n.2 n.1 { reason := syBusy }
      else sylEvent s s.syl.ptn 0xFF { reason := syBusy }
    if s.syl.reason = syQueued then s else { s with syl.reason := syBusy }
  else
    let op := bits word 0 4
    if bits word 22 10 ≠ 0 ∨ bits word 4 12 ≠ 0 ∨ op = 0 ∨ 3 ≤ op then
      { s with syl := { s.syl with done := true, reason := syFormat, sect := 0xFF, record := 0xFFFF } }
    else if op = 1 then sylLoad s who
    else sylCancel s who (bits word 16 6)

/-- The writers of the MOD_SYL registers (R397). -/
def maySyl (s : State) (who : Req) : Bool := isInstaller s who || isOperator s who

/-- SYLLABUS_LOAD (R381): MOD_SYL_LEN, then OP 1. -/
def execSyllabusLoad (who : Req) (len : Nat) (s : State) : Out :=
  .next (if maySyl s who then sylCmd { s with syl.len := len % 2 ^ 32 } who 1 else s)

/-- SYLLABUS_CANCEL (R387). -/
def execSyllabusCancel (who : Req) (p : Nat) (s : State) : Out :=
  .next (if maySyl s who then sylCmd s who (p % 64 * 65536 + 2) else s)

/-! ### Launches and enables that wait (R336, R411) -/

/-- LAUNCH_PLACED (R336, R384): a core is free, and the first launch of the queue is placed. -/
def execLaunchPlaced (p : Nat) (s : State) : Out :=
  .next (placeNext s p)

/-- ENABLE_QUEUED_APPLY (R411): the function has rested a whole Bell in its end state. -/
def execEnableQueuedApply (f : EnableOf) (s : State) : Out :=
  .next (match f with
    | .context c =>
      let x := getCtx s c
      if x.state == .free && !x.enableQ.isEmpty && rested s x.restSince then applyCtxEnables s c else s
    | .partition p =>
      let q := getPtn s p
      match q.enablePending with
      | some y => if q.state == .off && rested s q.restSince then bringPartition { s with syl.reason := syOk } p y else s
      | none => s
    | .brine =>
      if s.brn.engine == .off && s.brn.enablePending && rested s s.brn.restSince then
        { s with brn.engine := .on, brn.enablePending := false, brn.restSince := none }
      else s)

end Sys2Proof.Machine
end

