-- ==== Sys2Proof/Machine/OpenHouse.lean ====
section
/-! DEFINITION. Open house (spec/11_syllabus_image.md R389-R396): its commands and their registers.
Readings and choices: log 74, 75, 134. -/

namespace Sys2Proof.Machine

/-- STATUS codes of MOD_OH_RESULT (R396). -/
def ohOk : Nat := 0
def ohBusy : Nat := 1
def ohBadState : Nat := 2
def ohTooLarge : Nat := 3
def ohBadToken : Nat := 4
def ohFull : Nat := 5
def ohBadBase : Nat := 6
def ohRejected : Nat := 8
def ohNotOpen : Nat := 9

/-- An argument of the next command (R396). -/
def ohArg (s : State) (k : Nat) : Nat := getAt 0 s.oh.args k

/-- The answer to a command: MOD_OH_RESULT and the OH_DONE event (R395, R396, R491). -/
def ohAnswer (s : State) (code st : Nat) : State :=
  let s := { s with oh := { s.oh with done := true, lastCmd := code, status := st } }
  queueEvent s 6 (eventRec s 6 0 0 (leBytes 1 code ++ leBytes 1 st))

/-- The end of a command (R395, R396). -/
def ohEnd (s : State) (code st : Nat) : State := ohAnswer { s with oh.busy := false } code st

/-- The linear ranges of the open-house windows (R390). -/
def ohToken : Win := { mem := .tier2, base := 256 * giB, size := 256 * giB }
def ohWork : Win := { mem := .hbm, base := 389 * giB, size := 123 * giB }

/-- A range of an open-house window (R389: one key). -/
def ohRead (s : State) (w : Win) (off n : Nat) : List Byte := readUnder s (vatKey s) (addrOf (w.mem, w.base + off)) n

/-- The base descriptor's checks (R392). -/
def ohDescOk (d : List Byte) : Bool :=
  field d 0 1 == 1 && decide (1 ≤ field d 2 2) && decide (field d 2 2 ≤ 128) && decide (1 ≤ field d 4 1) && decide (field d 4 1 ≤ 128)
    && decide (1 ≤ field d 5 1) && field d 4 1 % field d 5 1 == 0 && decide (1 ≤ field d 6 2) && decide (field d 6 2 ≤ 512)
    && decide (2 ≤ field d 8 4) && decide (field d 8 4 ≤ 262144) && decide (1 ≤ field d 0xC 1) && decide (field d 0xC 1 ≤ 7)
    && decide (field d 0xD 1 < 2) && field d 0xE 2 == 0 && allZero (slice d 0x1A 0x22) && crcTailOk d 0x3C

/-- VOCAB of the base descriptor (R392). -/
def ohVocab (s : State) : Nat := field s.oh.desc 8 4

/-- OH_BASE (R391, R395, R420). -/
def ohBase (s : State) : State :=
  let bytes := ohArg s 0 + 2 ^ 32 * ohArg s 1
  if s.oh.state ≠ .empty then ohEnd s 1 ohBadState
  else if 384 * giB < bytes then ohEnd s 1 ohTooLarge
  else
    let d := ohRead s ohWork 0 64
    if !ohDescOk d then ohEnd s 1 ohBadBase
    else
      let t := { s with oh.desc := d }
      match loadBase t (field d 0x18 2) with
      | (t, .ok bs) =>
        ohEnd { setRind t (field d 0x18 2) with oh := { t.oh with state := .based, outs := [field bs 2 2, 0, 0] } } 1 ohOk
      | (t, .error x) => ohEnd (baseFault { t with oh.desc := [] } x) 1 ohBadBase

/-- OH_DATA (R391, R395): every new token is checked before MOD_OH_FILL advances. -/
def ohData (s : State) : State :=
  let n := ohArg s 0
  if s.oh.state ≠ .based ∧ s.oh.state ≠ .trained then ohEnd s 2 ohBadState
  else if n = 0 ∨ 2 ^ 28 < n then ohEnd s 2 ohRejected
  else if 2 ^ 36 < s.oh.fill + n then ohEnd s 2 ohFull
  else if (countFrom 0 n).any (fun k => decide (ohVocab s ≤ leNat (ohRead s ohToken (4 * (s.oh.fill + k)) 4))) then ohEnd s 2 ohBadToken
  else ohEnd { s with oh.fill := s.oh.fill + n } 2 ohOk

/-- SEQ_LEN is a power of two from 128 to 4,096 (R391). -/
def seqLenOk (n : Nat) : Bool := [128, 256, 512, 1024, 2048, 4096].contains n

/-- The OH_STEP event of a step (R491). -/
def ohStepEvent (s : State) (k : Nat) : State :=
  queueEvent s 5 (eventRec s 5 0 0 (leBytes 8 k ++ leBytes 4 (Config.ohLoss s.oh.run k).toNat ++ leBytes 4 (Config.ohGnorm s.oh.run k).toNat))

/-- OH_TRAIN (R391, R393): TRAINING, from the next Bell on, with the adapter at its start values; the command runs until its last
step. -/
def ohTrain (s : State) : State :=
  let steps := ohArg s 0
  if s.oh.state ≠ .based ∧ s.oh.state ≠ .trained then ohEnd s 3 ohBadState
  else if steps = 0 ∨ 1048576 < steps ∨ !seqLenOk (ohArg s 1) ∨ 2 ^ 24 ≤ ohArg s 6 then ohEnd s 3 ohRejected
  else
    let seed := ohArg s 2 + 2 ^ 32 * ohArg s 3 + 2 ^ 64 * ohArg s 4 + 2 ^ 96 * ohArg s 5
    { s with fresh := s.fresh + 1, oh := { s.oh with
        run := s.fresh, adapter := ohArg s 6, state := .training, done := false, busy := true, lastCmd := 3, outs := [0, 0, 0],
        job := ohJob s.oh.desc s.fresh steps (ohArg s 1) seed (ohArg s 6) s.bell.count } }

/-- OH_EVAL (R391, R395): over tokens that the buffer holds; the mean loss and the count of tokens scored are free. -/
def ohEval (s : State) : State :=
  if s.oh.state ≠ .trained then ohEnd s 4 ohBadState
  else if s.oh.fill < ohArg s 0 + ohArg s 1 then ohEnd s 4 ohRejected
  else
    let loss := (Config.ohEval s.fresh).toNat
    let (n, s) := draw s 4
    ohEnd { s with oh.outs := [loss, leNat n, 0] } 4 ohOk

/-- OH_RESULT (R395): the adapter image in the working-memory window, at a free address. -/
def ohResult (s : State) : State :=
  if s.oh.state ≠ .trained then ohEnd s 5 ohBadState
  else
    let img := s.oh.job.image
    let (r, s) := draw s 8
    let off := leNat r % ((ohWork.size - img.length) / 64 + 1) * 64
    let la := addrOf (ohWork.mem, ohWork.base + off)
    let s := writeUnder s (vatKey s) la img
    ohEnd { s with oh.outs := [la % 2 ^ 32, la / 2 ^ 32, img.length] } 5 ohOk

/-- OH_CLEAR (R391): Brine scrubs the windows, empties the Vat's slots and ends Rind; then EMPTY. -/
def ohClear (s : State) : State :=
  let b := ohBaseId s
  let s := forEach (slotsOwned s (fun _ => true)) evictSlot s
  let s := { s with brn.rind := s.brn.rind.filter (· != b), subf := s.subf.filter (fun f => f.base != b) }
  let s := scrubLinear (scrubLinear s .hbm 0 (512 * giB)) .tier2 (256 * giB) (256 * giB)
  ohEnd { s with oh := { s.oh with state := .empty, outs := [0, 0, 0], fill := 0, desc := [], run := 0, adapter := 0, job := {} } } 6 ohOk

/-- The Lesson boundary that ends a step of OH_TRAIN (R391, R393): the OH_STEP event and the next Lesson; the run ends after its last
step, or with the OH_CLEAR that waits. -/
def ohLesson (s : State) (y : Timetable) : State :=
  let s := boundaryRepairs (ceRepairs s) 0
  let j := s.oh.job.next s.oh.desc s.oh.run s.oh.adapter s.oh.fill y.lessonBells
  let s := ohStepEvent { s with oh := { s.oh with job := j, outs := [j.step, 0, 0] } } j.step
  if j.clearing then ohClear s
  else if j.steps ≤ j.step then ohEnd { s with oh := { s.oh with state := .trained } } 3 ohOk
  else s

/-- What a Bell does for a training run (R393): its QUIZ slot starts and ends, and its Lesson ends. -/
def ohBell (s : State) : State :=
  let j := s.oh.job
  match s.oh.state, j.tt with
  | .training, some y =>
    let at_ (n : Nat) : Bool := s.bell.count == j.bound + n
    let k := getAt {} y.slots 1
    let s := if at_ k.start then quizSlotStart s 0 1 else s
    let s := if at_ k.deadline then quizSlotEnd s 0 1 else s
    if at_ y.lessonBells then ohLesson s y else s
  | _, _ => s

/-- A write of MOD_OH_CMD (R391, R396, R626). While a command runs, OH_CLEAR alone is accepted, and it waits for the Lesson boundary
(R391, R395). -/
def ohCmd (s : State) (word : Nat) : State :=
  let code := bits word 0 8
  if !openHouse s then ohEnd s code ohNotOpen
  else if word / 256 % 2 ^ 24 ≠ 0 then ohEnd s code ohRejected
  else if s.oh.busy && decide (1 ≤ code) && decide (code ≤ 6) then
    if code = 6 then { s with oh := { s.oh with done := false, lastCmd := 6, job := { s.oh.job with clearing := true } } } else ohAnswer s code ohBusy
  else match code with
  | 1 => ohBase s
  | 2 => ohData s
  | 3 => ohTrain s
  | 4 => ohEval s
  | 5 => ohResult s
  | 6 => ohClear s
  | _ => ohEnd s code ohRejected

/-- A command row with its arguments (R395, R396): only the operator writes. -/
def ohRow (s : State) (who : Req) (code : Nat) (args : List Nat) : State :=
  if isOperator s who then
    ohCmd { s with oh.args := (args.map (· % 2 ^ 32) ++ s.oh.args.drop args.length).take 7 } code
  else s

/-- OH_BASE (R391). -/
def execOhBase (who : Req) (bytes : Nat) (s : State) : Out := .next (ohRow s who 1 [bytes, bytes / 2 ^ 32])
/-- OH_DATA (R391). -/
def execOhData (who : Req) (count : Nat) (s : State) : Out := .next (ohRow s who 2 [count])
/-- OH_TRAIN (R391, R393). -/
def execOhTrain (who : Req) (steps seqLen seed adapter : Nat) (s : State) : Out :=
  .next (ohRow s who 3 [steps, seqLen, seed, seed / 2 ^ 32, seed / 2 ^ 64, seed / 2 ^ 96, adapter])
/-- OH_EVAL (R391). -/
def execOhEval (who : Req) (first count : Nat) (s : State) : Out := .next (ohRow s who 4 [first, count])
/-- OH_RESULT (R395). -/
def execOhResult (who : Req) (s : State) : Out := .next (ohRow s who 5 [])
/-- OH_CLEAR (R391). -/
def execOhClear (who : Req) (s : State) : Out := .next (ohRow s who 6 [])

end Sys2Proof.Machine
end

