-- ==== Sys2Proof/Machine/Cpt.lean ====
section
/-! DEFINITION. The control port (spec/15_womeur_control_port.md): link states, frames that arrive, bulk transfer, the adapter
fetch service, events, BELL_MARK and RECOVERY.
Readings and choices: log 10, 96, 97, 98, 99, 157. -/

namespace Sys2Proof.Machine

/-! ### Link states (R479, R481) -/

/-- The place of the control port's faults (R544). -/
def cptAt : FaultAt := { kind := .controlPort }

/-- The port enters UP (R480, R481): with fresh numbers, full credits and the FETCH_REQ of every open fetch sent again (R488);
a link that trained after the replay limit keeps its frames. -/
def cptEnterUp (s : State) : State :=
  let c := s.cpt
  if c.relink then cptPump { s with cpt := { c with lstate := 2, relink := false, replayRun := 0 } }
  else
    let s := { s with cpt := { c with
      lstate := 2, clkLost := false, rxSeq := 0xFFFF, told := 0xFFFF, txSeq := 0, tx := [], wait := [], idle := none,
      credC := 32, credB := 224, freedC := 0, freedB := 0, nakDue := false, discarding := false, replayRun := 0, evSent := 0 } }
    let fs := s.vat.fetches
    let s := { s with vat.fetches := fs.map (fun f => { f with data := [] }) }
    forEach fs (fun s f =>
      cptSend s { ftype := ftFetchReq, addr := f.adapter + 2 ^ 24 * f.slot + 2 ^ 40 * f.gen + 2 ^ 48 * f.ctx, arg := f.seq,
                  payload := leBytes 4 (match slotAt? s f.slot with | some v => v.len | none => 0) }) s

/-- Training begins, or ends with both lanes passing or not (R481). -/
def cptTrain (s : State) (outcome : Option Bool) : State :=
  match outcome with
  | none => { s with cpt.lstate := 1 }
  | some true => cptEnterUp s
  | some false => { s with cpt.lstate := 3 }

/-- CPT_LIGHT (R481): light reaches the port, whose transmitter the boot ROM has enabled; `outcome` is none as training begins,
and says at its end whether both lanes passed. -/
def execCptLight (outcome : Option Bool) (s : State) : Out :=
  .next (if s.cpt.txOn && s.cpt.lstate < 2 then cptTrain s outcome else s)

/-- CPT_RETRY (R481): a DOWN port trains again, every 1 ms. -/
def execCptRetry (outcome : Option Bool) (s : State) : Out :=
  .next (if s.cpt.txOn && s.cpt.lstate == 3 then cptTrain s outcome else s)

/-- The range that a bulk write covers, as its place. -/
def bulkPlace (s : State) (addr n : Nat) : Option Place := itemPlace s none addr n

/-- The bytes of a sealed bulk write that have arrived, without prefix and tag (R520). -/
def bulkArrived (b : BulkWr) : Nat := min b.len (b.data.length - 16)

/-- The window of a bulk write or read: one that the context reaches, the base window of its base slot, none for the load buffer
and the windows of open house, which are under the module key or its one key (R484, R518). -/
inductive BulkWay where
  | ctx (i : Issuer)
  | base (w : Win)
  | own
deriving DecidableEq, Repr

/-- Writes a bulk range (R484, R518, R519). -/
def bulkStore (s : State) (way : BulkWay) (p : Place) (bs : List Byte) : State :=
  match way with
  | .ctx i => writeAs s i p bs
  | .base w => writeKey s (classKey s 0 w) (addrOf p) bs
  | .own => if p.1.isSram then store s (addrOf p) bs else writeKey s (vatKey s) (addrOf p) bs

/-- The issuer that stands for a context's bulk transfers: M rights, in every state of the context (R484). -/
def bulkIssuer (s : State) (c : Nat) : Issuer := { mmode := true, ctx := c, ctxOn := true, ptn := (ptnOfCtx s c).getD 64 }

/-- The way of an open bulk write. -/
def bulkWay (s : State) (b : BulkWr) : BulkWay :=
  if !b.isSealed then .own
  else if b.ksel = 0 then .ctx (bulkIssuer s b.ctx)
  else match getAt none (((moduleWins s).filter (fun w => w.type == .base)).map some) (b.ksel - 0x8000) with
    | some w => .base w
    | none => .own

/-- The written part of a sealed range is overwritten with zeros (R485). -/
def bulkScrub (s : State) (b : BulkWr) : State :=
  if !b.isSealed || bulkArrived b == 0 then s
  else match bulkPlace s b.addr (bulkArrived b) with
    | some p => bulkStore s (bulkWay s b) p (List.replicate (bulkArrived b) 0)
    | none => s

/-- The port goes from UP to DOWN (R481, R485, R502): sessions end, partly received bulk writes are discarded, frames not
answered are lost, the event queue and open fetches stay. -/
def cptDown (s : State) : State :=
  let open_ := s.cpt.bulk.filter (fun b => !b.answered && b.status.isNone)
  let s := forEach open_ bulkScrub s
  let c : CptBlk := { s.cpt with
    lstate := 3, downSeen := true, tx := [], wait := [], idle := none, evSent := 0, bulk := [],
    bulkAbort := satAdd 16 s.cpt.bulkAbort open_.length }
  let s := { s with cpt := c, ses.open_ := [], ses.chals := [] }
  raise s .cptLinkDown cptAt

/-- CPT_LINK_DOWN (R481): 16 consecutive frames are missing in UP. -/
def execCptLinkDown (s : State) : Out := .next (if cptUp s then cptDown s else s)

/-! ### Frames that arrive (R477-R480, R502) -/

/-- SEQ arithmetic modulo 65,536: `a` is acknowledged by `k`. -/
def seqAcked (a k : Nat) : Bool := decide ((65536 + k - a) % 65536 < 32768)

/-- Acknowledged EVENT frames take their records off the queue, and with room the count of lost records follows (R490, R492). -/
def eventsAcked (s : State) (n : Nat) : State :=
  let s := { s with cpt.evq := s.cpt.evq.drop n, cpt.evSent := s.cpt.evSent - n }
  if 0 < s.cpt.evLost ∧ s.cpt.evq.length < 4096 then
    let k := s.cpt.evLost
    queueEvent { s with cpt.evLost := 0 } 7 (eventRec s 7 0 0xFFFF (leBytes 2 k))
  else s

/-- NAK (R479): replay from ACK_SEQ + 1; the eighth in a row of one SEQ retrains the link with CPT_REPLAY_LIMIT. -/
def cptNak (s : State) (k : Nat) : State :=
  let first := wrap 16 (k + 1)
  let run := if s.cpt.replayOf = first then s.cpt.replayRun + 1 else 1
  let s := { s with cpt := { s.cpt with replays := satInc 16 s.cpt.replays, replayOf := first, replayRun := run } }
  if run < 8 then s
  else raise { s with cpt := { s.cpt with replayRun := 0, lstate := 1, relink := true } } .cptReplayLimit cptAt

/-- The reverse-direction fields of a decoded frame (R477, R479, R480). -/
def cptReverse (s : State) (f : CptFrame) : State :=
  let rest := s.cpt.tx.filter (fun g => !seqAcked g.seq f.ackSeq)
  let evs := sumNat (((s.cpt.tx.filter (fun g => seqAcked g.seq f.ackSeq && g.ftype == ftEvent)).map (fun g => g.payload.length / 64)))
  let s := { s with cpt := { s.cpt with
    tx := rest, replayRun := if rest.length < s.cpt.tx.length then 0 else s.cpt.replayRun,
    credC := if f.credClass then s.cpt.credC else min 32 (s.cpt.credC + f.credit),
    credB := if f.credClass then min 224 (s.cpt.credB + f.credit) else s.cpt.credB } }
  let s := if evs = 0 then s else eventsAcked s evs
  if f.nak then cptNak s f.ackSeq else s

/-- A frame dropped for its FCRC or length, or for reserved values (R479, R495). -/
def cptErrCrc (s : State) : State := { s with cpt.errCrc := satInc 16 s.cpt.errCrc }
def cptErrRes (s : State) : State := { s with cpt.errRes := satInc 16 s.cpt.errRes }

/-- A frame that cannot be corrected (R432, R479): it and all that follow up to the awaited SEQ are discarded, and NAK goes out. -/
def cptBad (s : State) : State := cptPump { s with cpt := { s.cpt with nakDue := true, discarding := true } }

/-- A frame takes its place in the order of SEQ, and its buffer is freed when it has been processed (R479, R480). -/
def cptInTurn (s : State) (f : CptFrame) (act : State → State) : State :=
  if f.seq ≠ wrap 16 (s.cpt.rxSeq + 1) then s
  else
    let s := { s with cpt := { s.cpt with
      rxSeq := f.seq, discarding := false,
      freedC := if cptBulk f then s.cpt.freedC else s.cpt.freedC + 1,
      freedB := if cptBulk f then s.cpt.freedB + 1 else s.cpt.freedB } }
    act s

/-- A frame in UP: its reverse fields, its checks, its turn, its effect (R479). IDLE frames take no number. -/
def cptFrameIn (s : State) (f : CptFrame) (act : State → State) : State :=
  if !cptUp s then s
  else
    let bad := !f.fcrcOk || decide (1024 < f.payload.length)
    -- nothing of a frame with a reserved value is acted on (R13)
    let s := if bad || f.rsvd != 0 || decide (15 ≤ f.ftype) then s else cptReverse s f
    if f.ftype = ftIdle then
      cptPump (if bad then cptErrCrc s else if f.rsvd ≠ 0 then cptErrRes s else s)
    else cptPump (cptInTurn s f (fun s => if bad then cptErrCrc s else if f.rsvd ≠ 0 then cptErrRes s else act s))

/-- A frame of one type; in RECOVERY the boot ROM serves only some of them (R494). -/
def cptTake (s : State) (f : CptFrame) (type : Nat) (inRecovery : Bool) (act : State → State) : State :=
  if f.ftype ≠ type then s
  else cptFrameIn s f (fun s => if s.mod.recovery && !inRecovery then s else act s)

/-- Types that the node may not send, or that no rule defines (R478). -/
def cptReserved (t : Nat) : Bool := t == 3 || t == 6 || t == 7 || t == 8 || t == 11 || t == 12 || decide (15 ≤ t)

/-- CPT_IDLE_FRAME_RECEIVE (R477-R480): an IDLE or LINK frame, a frame of a reserved type, or, where there is none, one that
cannot be corrected. -/
def execCptIdleFrameReceive (frame : Option CptFrame) (s : State) : Out :=
  .next (match frame with
    | none => if cptUp s then cptBad s else s
    | some f =>
      if f.ftype = ftIdle ∨ f.ftype = ftLink then cptFrameIn s f (fun s => s)
      else if cptReserved f.ftype then cptFrameIn s f cptErrRes else s)

/-! ### Sessions (R502, R503) -/

/-- The requester that a frame's SESSION names; none where no open session has that number (R502). -/
def frameWho (s : State) (f : CptFrame) : Option Req :=
  if f.session = 0 then some .anonymous
  else if s.ses.open_.any (fun x => x.id == f.session) then some (.session f.session) else none

/-! ### Bulk writes (R484, R485, R520) -/

/-- BULK_RSP status codes (R485). -/
def bkOk : Nat := 0
def bkRole : Nat := 1
def bkRange : Nat := 2
def bkBusy : Nat := 3
def bkTagFail : Nat := 4
def bkRind : Nat := 5
def bkNoKey : Nat := 6

/-- Sends a BULK_RSP (R485). -/
def bulkRsp (s : State) (tag status : Nat) : State := cptSend s { ftype := ftBulkRsp, tag := tag, arg := status }

/-- The global address names this module (R484). -/
def bulkLmnOk (s : State) (addr : Nat) : Bool := (localAddr s addr).isSome

/-- The range lies in the load buffer (R380). -/
def inLoadBuf (p : Place) (n : Nat) : Bool := p.1 == .tier2 && decide (loadBufOff ≤ p.2) && decide (p.2 + n ≤ 2 ^ 40)

/-- The windows of open house (R390), by kind, base and size; they are the whole of HBM and the first half of tier 2. -/
def ohWindows : List (MemKind × Nat × Nat) :=
  [(.tier2, 0, 256 * giB), (.tier2, 256 * giB, 256 * giB), (.hbm, 0, 384 * giB), (.hbm, 384 * giB, 4 * giB), (.hbm, 388 * giB, giB),
   (.hbm, 389 * giB, 123 * giB)]

/-- The range lies in one window of open house (R390). -/
def inOpenHouse (s : State) (p : Place) (n : Nat) : Bool :=
  openHouse s && ohWindows.any (fun w => w.1 == p.1 && decide (w.2.1 ≤ p.2) && decide (p.2 + n ≤ w.2.1 + w.2.2))

/-- The whole range lies in PRIVATE windows of the context and SHARED windows of its partition, with an M right (R484, R486). -/
def inCtxWindows (s : State) (c : Nat) (p : Place) (n : Nat) (r : Right) : Bool :=
  let i := bulkIssuer s c
  let ws := (ptnWins s i.ptn).filter (fun w => w.type == .shared || (w.type == .priv && w.owner == c))
  coverGo ws true r 64 p n == n

/-- The IMPORT or EXPORT key of a context; none where its slot holds no keys (R484, R486, R517). -/
def ctxSlot (s : State) (c : Nat) : Option KeySlot := tget none s.keys.ctx c

/-- The status of a plaintext bulk write (R484, R485); none where it is accepted. -/
def plainCheck (s : State) (who : Req) (p : Place) (n ctx : Nat) : Option Nat :=
  if ctx ≠ 0 then some bkRange
  else if inLoadBuf p n then
    if !(isOperator s who || isInstaller s who) then some bkRole else if s.syl.busy then some bkBusy else none
  else if !isOperator s who || !inOpenHouse s p n then some bkRole
  else if meetsRind s p n then some bkRind else none

/-- The status of a sealed bulk write whose prefix names KSEL (R484, R485, R520). -/
def sealedCheck (s : State) (who : Req) (p : Place) (n ctx ksel : Nat) : Option Nat :=
  if ksel = 0 then
    if (ctxSlot s ctx).isNone then some bkNoKey
    else if !isOperator s who || !inCtxWindows s ctx p n .write then some bkRole
    else if meetsRind s p n then some bkRind else none
  else if ksel < 0x8000 then some bkRange
  else if ctx ≠ 0 then some bkRange
  else
    match getAt none (((moduleWins s).filter (fun w => w.type == .base)).map some) (ksel - 0x8000) with
    | none => some bkRange
    | some w =>
      if (tget none s.keys.base (ksel - 0x8000)).isNone then some bkNoKey
      else if !isOperator s who || !(w.has p && w.has (p.1, p.2 + (n - 1))) then some bkRole
      else if meetsRind s p n then some bkRind else none

/-- The status found at the first frame of a bulk write (R484, R485); none where it is accepted. -/
def bulkCheck (s : State) (who : Req) (f : CptFrame) (n ctx : Nat) : Option Nat :=
  if f.addr % 64 ≠ 0 ∨ !bulkLmnOk s f.addr then some bkRange
  else match bulkPlace s f.addr n with
    | none => some bkRange
    | some p =>
      if f.isSealed then
        if f.payload.length < 16 ∨ field f.payload 14 2 ≠ 0 then some bkRange
        else sealedCheck s who p n ctx (field f.payload 12 2)
      else plainCheck s who p n ctx

/-- Changes the open bulk write of a TAG; none closes it. -/
def putBulk (s : State) (tag : Nat) (x : Option BulkWr) : State :=
  let rest := s.cpt.bulk.filter (fun b => b.tag != tag)
  { s with cpt.bulk := match x with | some b => rest ++ [b] | none => rest }

/-- The associated data of a sealed bulk transfer (R520). -/
def bulkAad (name : String) (addr n ksel : Nat) : List Byte := ascii name ++ leBytes 8 addr ++ leBytes 4 n ++ leBytes 2 ksel

/-- The key that opens a sealed bulk write. -/
def bulkKey (s : State) (b : BulkWr) : List Byte :=
  if b.ksel = 0 then ((ctxSlot s b.ctx).map KeySlot.imp).getD [] else ((tget none s.keys.base (b.ksel - 0x8000)).map KeySlot.imp).getD []

/-- The end of a sealed bulk write (R484, R485): opened and written, or its range overwritten with zeros. -/
def sealedEnd (s : State) (b : BulkWr) : State × Nat :=
  match openGcm (bulkKey s b) (b.data.take 12) (bulkAad "SV44-BULKW" b.addr b.len b.ksel) (b.data.drop 16) with
  | none => (bulkScrub s b, bkTagFail)
  | some bs =>
    match bulkPlace s b.addr b.len with
    | some p => (bulkStore s (bulkWay s b) p (slice bs 0 b.len), bkOk)
    | none => (s, bkRange)

/-- Bytes of payload that a bulk write's frames carry in all: prefix and tag count for a sealed one (R520). -/
def BulkWr.total (b : BulkWr) : Nat := if b.isSealed then b.len + 32 else b.len

/-- A plaintext frame's bytes are written as they come (R484, R485). -/
def plainStore (s : State) (b : BulkWr) (bs : List Byte) : State :=
  if b.isSealed || bs.isEmpty then s
  else match bulkPlace s (b.addr + b.data.length) bs.length with
    | some p => bulkStore s .own p bs
    | none => s

/-- A bulk write is refused at once; the frames that follow up to LAST are dropped (R485). -/
def bulkRefuse (s : State) (b : BulkWr) (last : Bool) (status : Nat) : State :=
  bulkRsp (putBulk s b.tag (if last then none else some { b with answered := true, data := [] })) b.tag status

/-- One frame of a bulk write that is open (R484, R485). -/
def bulkStep (s : State) (b : BulkWr) (f : CptFrame) : State :=
  if b.answered then (if f.last then putBulk s b.tag none else s)
  else match b.status with
  | some st => if f.last then bulkRsp (putBulk s b.tag none) b.tag st else s
  | none =>
    let seen := b.data.length + f.payload.length
    if b.total < seen ∨ (f.last ∧ seen ≠ b.total) then bulkRefuse (bulkScrub s b) b f.last bkRange
    else
      let s := plainStore s b f.payload
      let b := { b with data := b.data ++ f.payload }
      if !f.last then putBulk s b.tag (some b)
      else if b.isSealed then
        let (s, st) := sealedEnd s b
        bulkRsp (putBulk s b.tag none) b.tag st
      else bulkRsp (putBulk s b.tag none) b.tag bkOk

/-- The RIND_WRITE of a bulk write whose range meets a Rind window (R213). -/
def bulkRind (s : State) (b : BulkWr) : State :=
  raise s .rindWrite { kind := .controlPort, ctx := if b.isSealed && b.ksel == 0 then b.ctx else 0xFFFF,
                       detail := detailAddr ((localAddr s b.addr).getD 0) }

/-- The first frame of a bulk write (R484, R485, R502). -/
def bulkStart (s : State) (f : CptFrame) : State :=
  let n := 64 * (bits f.arg 0 20 + 1)
  let ctx := bits f.arg 20 12
  let b : BulkWr := { tag := f.tag, addr := f.addr, len := n, ctx := ctx, isSealed := f.isSealed,
                      ksel := if f.isSealed then field f.payload 12 2 else 0 }
  match frameWho s f with
  | none => bulkStep (putBulk s f.tag (some { b with status := some bkRole })) { b with status := some bkRole } f
  | some who =>
    match bulkCheck s who f n ctx with
    | some st => bulkRefuse (if st = bkRind then bulkRind s b else s) b f.last st
    | none => bulkStep (putBulk s f.tag (some b)) b f

/-- The frame continues an open bulk write: its ADDR goes on where the last frame ended, its ARG is 0 (R484). -/
def bulkContinues (b : BulkWr) (f : CptFrame) : Bool :=
  let done := if b.isSealed then b.data.length - 16 else b.data.length
  f.arg == 0 && (b.answered || b.status.isSome || (f.addr == b.addr + done && f.isSealed == b.isSealed))

/-- BULK_WR (R484, R485): a frame of a bulk write. -/
def execBulkWr (f : CptFrame) (s : State) : Out :=
  .next (cptTake s f ftBulkWr false (fun s =>
    match s.cpt.bulk.find? (fun b => b.tag == f.tag) with
    | none => bulkStart s f
    | some b =>
      if bulkContinues b f then bulkStep s b f
      else if f.arg ≠ 0 then bulkRsp s f.tag bkRange
      else bulkRefuse (bulkScrub s b) b f.last bkRange))

/-! ### Bulk reads (R486, R520) -/

/-- The range meets the Vat window, which register-space operations and the module's engines alone read (R151). -/
def meetsVat (s : State) (p : Place) (n : Nat) : Bool :=
  match placeOf none s.vat.base with
  | some v => p.1 == v.1 && decide (p.2 < v.2 + s.vat.size * giB) && decide (v.2 < p.2 + n)
  | none => false

/-- The status of a bulk read (R151, R486); none where it is accepted. -/
def readCheck (s : State) (who : Req) (f : CptFrame) (n ctx : Nat) : Option Nat :=
  if f.addr % 64 ≠ 0 ∨ !bulkLmnOk s f.addr then some bkRange
  else match bulkPlace s f.addr n with
    | none => some bkRange
    | some p =>
      if f.isSealed then
        if (ctxSlot s ctx).isNone then some bkNoKey
        else if !isOperator s who || !inCtxWindows s ctx p n .read then some bkRole else none
      else if !isOperator s who || !inOpenHouse s p n || meetsVat s p n then some bkRole
      else if ctx ≠ 0 then some bkRange else none

/-- The BULK_DATA frames of a read, in ascending order. -/
def bulkDataFrames (f : CptFrame) (bs : List Byte) : List CptFrame :=
  let ps := chunks 1024 (ceilDiv bs.length 1024) bs
  let skip (k : Nat) : Nat := if f.isSealed && k != 0 then 1024 * k - 16 else 1024 * k
  (List.zip (countFrom 0 ps.length) ps).map (fun e =>
    { ftype := ftBulkData, last := e.1 + 1 == ps.length, isSealed := f.isSealed, tag := f.tag, addr := f.addr + skip e.1,
      payload := e.2 })

/-- The plaintext of a bulk read. -/
def bulkFetch (s : State) (f : CptFrame) (n ctx : Nat) : State × List Byte :=
  match bulkPlace s f.addr n with
  | none => (s, [])
  | some p =>
    if f.isSealed then let r := readAs s (bulkIssuer s ctx) p n; (r.st, r.bytes)
    else
      let (s, _) := readErrs s p n false
      (s, spoil s (addrOf p) (readKey s (vatKey s) (addrOf p) n))

/-- A sealed read's stream (R520): nonce of 32 random bits and the count of the key, then ciphertext and tag. -/
def sealRead (s : State) (f : CptFrame) (n ctx : Nat) (bs : List Byte) : State × List Byte :=
  let k := (ctxSlot s ctx).getD {}
  let (r, s) := draw s 4
  let nonce := r ++ leBytes 8 k.count
  let s := { s with keys.ctx := tset none s.keys.ctx ctx (some { k with count := k.count + 1 }) }
  (s, nonce ++ [0, 0, 0, 0] ++ sealGcm k.exp nonce (bulkAad "SV44-BULKR" f.addr n 0) bs)

/-- BULK_RD_REQ (R486): answered with its data and a BULK_RSP, or refused. -/
def execBulkRdReq (f : CptFrame) (s : State) : Out :=
  .next (cptTake s f ftBulkRd false (fun s =>
    let n := 64 * (bits f.arg 0 20 + 1)
    let ctx := bits f.arg 20 12
    match frameWho s f with
    | none => bulkRsp s f.tag bkRole
    | some who =>
      match readCheck s who f n ctx with
      | some st => bulkRsp s f.tag st
      | none =>
        let (s, bs) := bulkFetch s f n ctx
        let (s, out) := if f.isSealed then sealRead s f n ctx bs else (s, bs)
        bulkRsp (forEach (bulkDataFrames f out) cptSend s) f.tag bkOk))

/-! ### The adapter fetch service (R159-R161, R487, R488) -/

/-- The open fetch with a slot, SLOT_GEN and FETCH_SEQ. -/
def openFetch (s : State) (slot gen seq : Nat) : Option VFetch :=
  s.vat.fetches.find? (fun v => v.slot == slot && v.gen == gen && v.seq == seq)

/-- FETCH_DATA (R159, R487): `seq` is the FETCH_SEQ that the frame carries. A frame whose values differ from the record's is
dropped and counted; a gap, or more bytes than the slot's data range takes with the stream's prefix and tag, fails the fetch. -/
def execFetchData (f : CptFrame) (seq : Nat) (s : State) : Out :=
  .next (cptTake s f ftFetchData false (fun s =>
    match openFetch s (bits f.addr 24 16) (bits f.addr 40 8) seq with
    | none => { s with vat.stale := satInc 32 s.vat.stale }
    | some v =>
      let d := v.data ++ f.payload
      let room := match slotAt? s v.slot with | some x => x.len + 32 | none => 0
      if f.arg ≠ v.data.length ∨ room < d.length then fetchFail s v
      else
        let w := { v with data := d }
        let s := { s with vat.fetches := modifyFirst (· == v) (fun _ => w) s.vat.fetches }
        if f.last then fetchEnd s w else s))

/-- FETCH_CTL (R161, R488): the node refuses a fetch, with code 1 UNKNOWN_ID, its ADDR and its FETCH_SEQ in ARG. -/
def execFetchCtl (f : CptFrame) (s : State) : Out :=
  .next (cptTake s f ftFetchCtl false (fun s =>
    match openFetch s (bits f.addr 24 16) (bits f.addr 40 8) f.arg with
    | none => { s with vat.stale := satInc 32 s.vat.stale }
    | some v => if f.payload.head? = some 1 then fetchFail s v else s))

/-! ### Events and Bell marks (R490, R493) -/

/-- EVENT_SEND (R490): up to 16 records that no frame carries yet leave in one EVENT frame. -/
def execEventSend (s : State) : Out :=
  .next (
    let rs := (s.cpt.evq.drop s.cpt.evSent).take 16
    if !cptUp s || rs.isEmpty then s
    else
      let kinds := rs.foldr (fun r acc => acc * 16 + r.1 % 16) 0
      cptSend { s with cpt.evSent := s.cpt.evSent + rs.length }
        { ftype := ftEvent, addr := kinds, payload := (rs.map (fun r => slice r.2 0 64)).flatten })

/-- BELL_MARK (R493): every 1,024 bl; the offset of the Bell instant after the frame's first bit is the moment's own. -/
def execBellMark (s : State) : Out :=
  .next (
    let due := match s.cpt.lastMark with
      | none => true
      | some b => decide (b + 1024 ≤ s.bell.count)
    if !cptUp s || !counting s || !due then s
    else
      let (r, s) := draw s 4
      cptSend { s with cpt.lastMark := some s.bell.count } { ftype := ftBellMark, addr := s.bell.count, arg := leNat r })

/-- CPT_REF_LOST (R493): the recovered clock is lost; while RUNNING on it the PLL holds, and CPT_REF_LOST is raised. -/
def execCptRefLost (s : State) : Out :=
  .next (
    let s := { s with cpt.clkLost := true }
    if s.bell.cfg.refSrc = 2 ∧ s.bell.state = .running then raise { s with cpt.refLost := true } .cptRefLost cptAt else s)

/-! ### RECOVERY (R494, R521) -/

/-- The digest that FW_MEAS holds (R521): over all bytes before the signature. -/
def fwDigest (img : List Byte) : List Byte := shake256 64 (img.take (img.length - 3309))

/-- FW_VER of an image (R521). -/
def fwVersion (img : List Byte) : Nat := field img 4 4

/-- The checks of a firmware image (R521): MAGIC, the maker's key, the signature, SI_REV, FW_FLOOR. -/
def fwOk (s : State) (img : List Byte) : Bool :=
  decide (3309 + 8 ≤ img.length) && field img 0 4 == 0x57465653
    && Config.makerDigests.contains (shake256 32 (Config.fwKey img))
    && Config.mldsaVerify (Config.fwKey img) (fwDigest img) (ascii "SV44-FW") (img.drop (img.length - 3309))
    && Config.fwSiRev img == 0xA1 && decide (s.fuse.fwFloor ≤ fwVersion img)

/-- The end of a recovery image (R494): written to flash and a module reset due 1 ms later, or refused. -/
def recoverEnd (s : State) (img : List Byte) : State :=
  if fwOk s img then
    journal { s with flash.fw := some img, cpt.recResult := 1, mod.due := some { cause := 6 } }
      { action := 0x0E, data := (fwDigest img).take 32 }
  else { s with cpt := { s.cpt with recResult := 2, recBuf := [] } }

/-- RECOVER_FRAME (R494): image bytes at ascending offset, up to 64 MiB. -/
def execRecoverFrame (f : CptFrame) (s : State) : Out :=
  .next (cptTake s f ftRecover true (fun s =>
    if !s.mod.recovery then s
    else if f.arg ≠ s.cpt.recBuf.length ∨ 2 ^ 26 < s.cpt.recBuf.length + f.payload.length then
      { s with cpt := { s.cpt with recResult := 3, recBuf := [] } }
    else
      let img := s.cpt.recBuf ++ f.payload
      if f.last then recoverEnd { s with cpt.recBuf := img } img else { s with cpt.recBuf := img }))

end Sys2Proof.Machine
end

