-- ==== Sys2Proof/Machine/Auth.lean ====
section
/-! DEFINITION. Sessions of the control port (spec/16_security_roles.md R501, R502): HELLO, CHALLENGE, PROOF, GRANT, CLOSE.
Readings and choices: log 9, 108. -/

namespace Sys2Proof.Machine

/-- 1 ms and 781,250 bl in cycles (R501, R502). -/
def oneMs : Nat := 1600000
def oneSecond : Nat := 781250 * 2048

/-- The role that ROLE of a HELLO names (R501). -/
def roleOfCode (n : Nat) : Option Role :=
  match n with
  | 1 => some .installer
  | 2 => some .operator
  | 3 => some .maker
  | _ => none

/-- RESULT of GRANT (R501). -/
def grOk : Nat := 0
def grBadSignature : Nat := 1
def grEmptySlot : Nat := 2
def grTooMany : Nat := 3
def grState : Nat := 4
def grExpired : Nat := 5

/-- Sends a GRANT (R501). -/
def sendGrant (s : State) (tag id result : Nat) : State :=
  cptSend s { ftype := ftAuth, tag := tag, payload := [(4 : Byte)] ++ leBytes 4 id ++ leBytes 1 result }

/-- Sends the CHALLENGE of a HELLO, whose expiry counts from here (R501, R502). -/
def sendChallenge (s : State) (c : Challenge) : State :=
  let (nonce, s) := draw s 32
  let rest := s.ses.chals.filter (fun x => x.tag != c.tag)
  let s := { s with ses.chals := rest ++ [{ c with nonce := nonce, sent := some s.cyc, sig := [] }] }
  cptSend s { ftype := ftAuth, tag := c.tag, payload := [(2 : Byte)] ++ nonce ++ slice s.sec.deviceId 0 32 ++ leBytes 8 (now s) }

/-- The 1 ms after a failed PROOF has not passed (R502). -/
def challengesHeld (s : State) : Bool :=
  match s.ses.lastFail with
  | some t => decide (s.cyc < t + oneMs)
  | none => false

/-- A HELLO (R501, R502): a reserved ROLE or SLOT drops the frame. -/
def helloIn (s : State) (f : CptFrame) : State :=
  let code := field f.payload 1 1
  let slot := field f.payload 2 1
  match roleOfCode code with
  | none => cptErrRes s
  | some role =>
    if 4 ≤ slot then cptErrRes s
    else if s.lcs.lc = .scrapped then sendGrant s f.tag 0 grState
    else if roleKey s role slot = [] then sendGrant s f.tag 0 grEmptySlot
    else if 8 ≤ s.ses.open_.length then sendGrant s f.tag 0 grTooMany
    else
      let c : Challenge := { tag := f.tag, role := code, slot := slot }
      if challengesHeld s then { s with ses.chals := s.ses.chals.filter (fun x => x.tag != f.tag) ++ [c] }
      else sendChallenge s c

/-- A failed PROOF (R502): it is counted, and journaled at most once per 781,250 bl with the count of the failures. -/
def authFailed (s : State) : State :=
  let s := { s with lcs.authFail := satInc 32 s.lcs.authFail, ses.failed := s.ses.failed + 1, ses.lastFail := some s.cyc }
  let due := match s.ses.lastEntry with
    | none => true
    | some t => decide (t + oneSecond ≤ s.cyc)
  if due then
    let s := journal s { action := 0x05, aux := min s.ses.failed 0xFFFF }
    { s with ses.failed := 0, ses.lastEntry := some s.cyc }
  else s

/-- A random non-zero session number that no open session has (R502). -/
def sessionId (s : State) (d : Nat) : Nat :=
  (((countFrom 0 9).map (fun k => 1 + (d + k) % (2 ^ 32 - 1))).find? (fun n => !s.ses.open_.any (fun x => x.id == n))).getD 1

/-- A session opens (R502, R509). -/
def openSession (s : State) (tag : Nat) (role : Role) (slot : Nat) : State :=
  let (d, s) := draw s 4
  let id := sessionId s (leNat d)
  let s := { s with ses.open_ := s.ses.open_ ++ [{ id := id, role := role, slot := slot }] }
  sendGrant (journal s { action := 0x04, role := role.code, slot := slot, aux := id % 65536 }) tag id grOk

/-- The whole PROOF of a challenge has arrived (R501). -/
def proofEnd (s : State) (c : Challenge) (sig : List Byte) : State :=
  let s := { s with ses.chals := s.ses.chals.filter (fun x => x.tag != c.tag) }
  match roleOfCode c.role, c.sent with
  | some role, some t =>
    let msg := c.nonce ++ slice s.sec.deviceId 0 32 ++ leBytes 1 c.role ++ leBytes 1 c.slot
    if t + oneSecond ≤ s.cyc then sendGrant s c.tag 0 grExpired
    else if !(sig.length == 3309 && Config.mldsaVerify (roleKey s role c.slot) msg (ascii "SV44-AUTH") sig) then
      sendGrant (authFailed s) c.tag 0 grBadSignature
    else if 8 ≤ s.ses.open_.length then sendGrant s c.tag 0 grTooMany
    else openSession s c.tag role c.slot
  | _, _ => s

/-- A PROOF frame (R501): four frames of one TAG, LAST on the fourth; with no challenge of the TAG it is answered EXPIRED. -/
def proofIn (s : State) (f : CptFrame) : State :=
  match s.ses.chals.find? (fun c => c.tag == f.tag && c.sent.isSome) with
  | none => if f.last then sendGrant s f.tag 0 grExpired else s
  | some c =>
    let sig := c.sig ++ f.payload.drop 1
    if f.last then proofEnd s c sig
    else { s with ses.chals := modifyFirst (· == c) (fun c => { c with sig := sig }) s.ses.chals }

/-- A CLOSE (R501, R502): one whose own SESSION names no open session is ignored. -/
def closeIn (s : State) (f : CptFrame) : State :=
  if (frameWho s f).isNone then s
  else { s with ses.open_ := s.ses.open_.filter (fun x => x.id != field f.payload 1 4) }

/-- SUB of an AUTH frame; none where it is one that the node may not send, or reserved (R501). -/
def authSub (f : CptFrame) : Option Nat :=
  let k := field f.payload 0 1
  if f.payload ≠ [] ∧ (k = 1 ∨ k = 3 ∨ k = 5) then some k else none

/-- AUTH_HELLO (R501): a HELLO arrives, or an AUTH frame whose SUB is reserved. -/
def execAuthHello (f : CptFrame) (s : State) : Out :=
  .next (cptTake s f ftAuth true (fun s =>
    match authSub f with
    | none => cptErrRes s
    | some k => if k = 1 then helloIn s f else s))

/-- AUTH_PROOF (R501): a frame of a PROOF arrives. -/
def execAuthProof (f : CptFrame) (s : State) : Out :=
  .next (cptTake s f ftAuth true (fun s => if authSub f = some 3 then proofIn s f else s))

/-- AUTH_CLOSE (R502): a CLOSE arrives. -/
def execAuthClose (f : CptFrame) (s : State) : Out :=
  .next (cptTake s f ftAuth true (fun s => if authSub f = some 5 then closeIn s f else s))

/-- AUTH_CHALLENGE_DELAYED (R502): a HELLO whose CHALLENGE was held receives it once the 1 ms has passed. -/
def execAuthChallengeDelayed (tag : Nat) (s : State) : Out :=
  .next (match s.ses.chals.find? (fun c => c.tag == tag && c.sent.isNone) with
    | some c => if cptUp s && !challengesHeld s then sendChallenge s c else s
    | none => s)

end Sys2Proof.Machine
end

