-- ==== Sys2Proof/Machine/Fabric.lean ====
section
/-! DEFINITION. Fabric ports (spec/13_fabric.md): data frames, replay, credits, lanes, the states of a port, the port map and
spare takeover.
Readings and choices: log 10, 14, 82, 83, 84, 85, 86, 87, 88. -/

namespace Sys2Proof.Machine

/-! ### Ports -/

/-- Port `p`. -/
def fabPort (s : State) (p : Nat) : Port := tget default s.fab.port p
/-- Changes port `p`. -/
def modFab (s : State) (p : Nat) (f : Port → Port) : State := { s with fab.port := tmod default s.fab.port p f }

/-- LSEQ arithmetic modulo 4,096 (R429). -/
def lseqUp (x : Nat) : Nat := (x + 1) % 4096
/-- `a` is acknowledged by ACK_LSEQ `k`: it lies at or behind it. -/
def lseqAcked (a k : Nat) : Bool := decide ((k + 4096 - a) % 4096 < 2048)

/-- The module's interval of time for what waits for the next Bell (R249, R627). -/
def beat (s : State) : Nat := if counting s then s.bell.count else s.cyc / 2048

/-! ### Transmitting (R429, R432, R433) -/

/-- The frame's virtual channel has a hop credit (R433). -/
def hasCredit (q : Port) (t : TxFrame) : Bool := if t.f.vc = 0 then decide (0 < q.credit0) else decide (0 < q.credit1)

/-- The reverse-direction fields of the next frame of a port (R429). -/
def stampFrame (q : Port) (f : DataFrame) : DataFrame :=
  { f with lseq := q.nextTx, ackLseq := (q.nextRx + 4095) % 4096, nak := q.nakDue,
           credVc := if q.freed0 = 0 then 1 else 0, hopCredit := min 127 (if q.freed0 = 0 then q.freed1 else q.freed0) }

/-- The port after a frame with those fields has left. -/
def toldPort (q : Port) : Port :=
  { q with nakDue := false, told := (q.nextRx + 4095) % 4096,
           freed0 := q.freed0 - min 127 q.freed0, freed1 := if q.freed0 = 0 then q.freed1 - min 127 q.freed1 else q.freed1 }

/-- A buffer of a virtual channel becomes free at a port (R433). -/
def freeBuffer (q : Port) (vc : Nat) : Port := if vc = 0 then { q with freed0 := q.freed0 + 1 } else { q with freed1 := q.freed1 + 1 }

/-- A send's identity: the destination, the pool and the send number. -/
def Send.key (x : Send) : Nat × Nat × Nat := (x.lmn, x.pool, x.seq)
/-- The send of this module to which a frame belongs. -/
def frameKey (f : DataFrame) : Nat × Nat × Nat := (f.dst, f.pool, f.sendSeq)

/-- The last frame of a send leaves: S (R309). -/
def markLeft (s : State) (f : DataFrame) : State :=
  if !f.last then s else
  let mine (x : Send) : Bool := x.key == frameKey f && x.left.isNone && x.need == 0
  { s with xf.sends := modifyFirst mine (fun x => { x with left := some (now s) }) s.xf.sends }

/-- One waiting frame leaves on a port: the first whose virtual channel has a credit, while fewer than 1,024 frames are
unacknowledged (R432, R433). -/
def pumpOne (s : State) (p : Nat) : Option State :=
  let q := fabPort s p
  if !portUsable s p || decide (1024 ≤ q.sent.length) then none else
  match q.txq.find? (hasCredit q) with
  | none => none
  | some t =>
    let g := stampFrame q t.f
    let s := modFab s p (fun q => { toldPort q with
      txq := eraseFirst (· == t) q.txq, sent := q.sent ++ [g], nextTx := lseqUp q.nextTx,
      credit0 := if t.f.vc = 0 then q.credit0 - 1 else q.credit0, credit1 := if t.f.vc = 0 then q.credit1 else q.credit1 - 1 })
    some (match t.inPort with
      | some i => modFab s i (fun q => freeBuffer q t.inVc)
      | none => markLeft s g)

/-- Waiting frames leave one by one. -/
def pumpGo : (fuel : Nat) → State → (p : Nat) → State
  | 0, s, _ => s
  | n + 1, s, p =>
    match pumpOne s p with
    | some s => pumpGo n s p
    | none => s

/-- An IDLE frame carries what the reverse direction waits for: NAK, freed buffers, an acknowledgement (R429). -/
def idleOut (s : State) (p : Nat) : State :=
  let q := fabPort s p
  if portUsable s p && (q.nakDue || decide (0 < q.freed0 + q.freed1) || q.told != (q.nextRx + 4095) % 4096) then
    modFab s p (fun q => { toldPort q with idle := some (stampFrame q { dtype := 0, src := ownLmn s, dst := 0x3FF, ttl := 0 }) })
  else s

/-- A port transmits what it can. -/
def portRun (s : State) (p : Nat) : State :=
  forEach (countFrom 0 8) idleOut (pumpGo (fabPort s p).txq.length s p)

/-- Frames are handed to a port. -/
def portQueue (s : State) (p : Nat) (ts : List TxFrame) : State := portRun (modFab s p (fun q => { q with txq := q.txq ++ ts })) p

/-- The virtual channel of a frame that leaves on a port (R433). -/
def vcOut (s : State) (p vc : Nat) : Nat := if (fabPort s p).dateline then 1 else vc

/-- The frames of a send (R429, R457): 800 bytes of payload each, the last one as long as what is left. -/
def sendFrames (s : State) (p dst pool seq : Nat) (ra : Bool) (wire : List Byte) : List TxFrame :=
  let ps := chunks 800 (ceilDiv wire.length 800) wire
  (List.zip (countFrom 0 ps.length) ps).map (fun e => { f :=
    { dtype := 1, src := ownLmn s, dst := dst, pool := pool, sendSeq := seq, frameNo := e.1, validLen := e.2.length,
      last := e.1 + 1 == ps.length, runahead := ra, vc := vcOut s p 0, payload := e.2 } })

/-! ### What a port's fall does (R312, R438, R445, R459) -/

/-- A port's link starts afresh: what it had sent or was to send is gone, its numbers and credits are those of a new link. -/
def freshLink (q : Port) : Port :=
  { q with sent := [], txq := [], idle := none, told := 0xFFF, nakDue := false, nextTx := 0, nextRx := 0, replays := 0, discarding := false,
           credit0 := 1024, credit1 := 1024, freed0 := 0, freed1 := 0, askLane := none }

/-- A port's link starts afresh in a state; frames in transit that it was to send are lost, and the buffers that they held at other
ports become free (R433). -/
def newLink (s : State) (p : Nat) (st : PState) : State :=
  let ts := (fabPort s p).txq.filter (fun t => t.inPort.isSome && t.inPort != some p)
  let s := modFab s p (fun q => { freshLink q with pstate := st })
  if ts.isEmpty then s
  else forEach (countFrom 0 8) idleOut (forEach ts (fun s t => modFab s (t.inPort.getD 0) (fun q => freeBuffer q t.inVc)) s)

/-- The sends whose first hop is a port can no longer complete with OK (R459). -/
def failSends (s : State) (p : Nat) : State :=
  { s with xf.sends := s.xf.sends.map (fun x => if x.port == some p && x.need == 0 then { x with failed := true } else x) }

/-- Requests outstanding to LMNs whose route uses a port end with ABORT_RESET (R312, R445). -/
def abortRouted (s : State) (p : Nat) : State := abortOut s (fun o => routePort s o.lmn == some p)

/-- The place of a port's faults (R544). -/
def portAt (p : Nat) : FaultAt := { kind := .port, unit := p }

/-- A port enters DOWN (R438, R445). -/
def portFalls (s : State) (p : Nat) : State :=
  let up := portUsable s p
  let s := abortRouted s p
  let s := failSends (modFab (newLink s p .down) p (fun q => { q with active := 0 })) p
  if up then raise s .portDown (portAt p) else s

/-- A port enters TRAINING (R435, R436, R439): its sends no longer complete with OK; its link is kept for replay. -/
def portTrains (s : State) (p : Nat) : State :=
  failSends (modFab s p (fun q => { q with pstate := .training, active := 0, failed := 0, spareFor := 0x1F })) p

/-- PORT_LIGHT (R435): a port in DARK receives light on its sync lane. -/
def execPortLight (port : Nat) (s : State) : Out :=
  .next (if (fabPort s port).pstate = .dark then portTrains (newLink s port .dark) port else s)

/-- PORT_TRAINING_DONE (R435, R437): `pass` has a bit for each lane that passed, `lmn` and `role` are the peer's. The spare
stands in for a failed sync lane, else for one failed data lane. -/
def trainingDone (s : State) (p pass lmn role : Nat) : State :=
  let data := (countFrom 0 16).filter (bitOf pass)
  let forSync := !bitOf pass 17
  let n := data.length + (if bitOf pass 16 && !forSync then 1 else 0)
  if n < 8 ∨ (forSync ∧ !bitOf pass 16) then portFalls s p
  else
    let lost := (countFrom 0 16).find? (fun l => !bitOf pass l)
    let full := decide (16 ≤ n)
    let s := modFab s p (fun q => { q with
      pstate := if full then .up else .degraded, active := if full then 16 else 8, peerValid := true, peerRole := role % 4,
      peerLmn := lmn % 1024, replays := 0,
      spareFor := if forSync then 17 else if full then lost.getD 0x1F else 0x1F })
    portRun (if full then s else raise s .portDegraded (portAt p)) p

/-- PORT_TRAINING_DONE. -/
def execPortTrainingDone (port pass lmn role : Nat) (s : State) : Out :=
  .next (if (fabPort s port).pstate = .training then trainingDone s port pass lmn role else s)

/-- PORT_RETRY (R435): every 1 ms a port in DOWN trains again. -/
def execPortRetry (port : Nat) (s : State) : Out :=
  .next (if (fabPort s port).pstate = .down then portTrains s port else s)

/-- PORT_SYNC_LOSS (R312, R445): 16 sync frames are missing at a port in UP or DEGRADED. -/
def execPortSyncLoss (port : Nat) (s : State) : Out := .next (if portUsable s port then portFalls s port else s)

/-! ### Lanes (R436, R437) -/

/-- The spare lane carries nothing and has not failed. -/
def spareFree (q : Port) : Bool := q.spareFor == 0x1F && !bitOf q.failed 16

/-- A lane's bytes move onto the spare: LANE_SWAP (R436). -/
def laneSwap (s : State) (p lane : Nat) : State :=
  raise (modFab s p (fun q => { q with spareFor := lane })) .laneSwap (portAt p)

/-- A data lane or the spare fails at this receiver (R436): the spare takes it, and a LINK frame names it; with the spare in
use the port retrains to DEGRADED. -/
def laneFails (s : State) (p lane : Nat) : State :=
  let q := fabPort s p
  if !portUsable s p || decide (16 < lane) || bitOf q.failed lane then s
  else
    let s := modFab s p (fun q => { q with failed := q.failed ||| 2 ^ lane })
    if lane = 16 then (if q.spareFor = 0x1F then s else portTrains s p)
    else if q.pstate == .up && spareFree q then
      laneSwap (modFab s p (fun q => { q with
        askLane := some lane, sent := q.sent ++ [stampFrame q { dtype := 2, src := ownLmn s, dst := 0x3FF, ttl := 0 }],
        nextTx := lseqUp q.nextTx })) p lane
    else portTrains s p

/-- LANE_FAILURE (R436): the lanes that fail at one frame; the lowest-numbered takes the spare. -/
def execLaneFailure (port : Nat) (lanes : List Nat) (s : State) : Out :=
  .next (forEach (lanes.foldl (fun acc l => insertNat l acc) []) (fun s l => laneFails s port l) s)

/-- SYNC_LANE_FAILURE (R437): the spare becomes the sync lane, taken back from a data lane where it carries one; `fibre` says
that fibre 9 failed, which carries both. Roll-call requests that use the port are aborted as R312 states. -/
def execSyncLaneFailure (port : Nat) (fibre : Bool) (s : State) : Out :=
  .next (
    let q := fabPort s port
    if !portUsable s port then s
    else if fibre || bitOf q.failed 16 || q.spareFor == 17 then portFalls s port
    else
      let s := abortRouted (modFab s port (fun q => { q with failed := q.failed ||| 2 ^ 17, spareFor := 17 })) port
      if q.spareFor = 0x1F ∨ q.pstate = .degraded then s
      else raise (modFab s port (fun q => { q with pstate := .degraded, active := 8 })) .portDegraded (portAt port))

/-! ### Arriving frames (R429-R433) -/

/-- A frame is dropped and counted (R430, R441). -/
def dropFrame (s : State) (p : Nat) : State := modFab s p (fun q => { q with drop := satInc 32 q.drop })

/-- DTYPE is defined, reserved bits are 0, and a DATA frame has a payload of 1 to 800 bytes (R429, R430). -/
def frameOk (f : DataFrame) : Bool :=
  decide (f.dtype ≤ 2) && f.rsvd == 0 && (f.dtype != 1 || (decide (1 ≤ f.validLen) && decide (f.validLen ≤ 800)))

/-- NAK asks for a replay from ACK_LSEQ + 1 (R432): the eighth in a row of one LSEQ raises LINK_REPLAY and retrains. -/
def nakIn (s : State) (p k : Nat) : State :=
  let first := lseqUp k
  let s := modFab s p (fun q => { q with
    replay := satInc 32 q.replay, replays := if q.replayOf = first then q.replays + 1 else 1, replayOf := first })
  if (fabPort s p).replays < 8 then s
  else portTrains (raise (modFab s p (fun q => { q with replays := 0 })) .linkReplay (portAt p)) p

/-- The reverse-direction fields of a frame that was decoded: acknowledgement, credits, NAK (R429, R432, R433). -/
def reverseIn (s : State) (p : Nat) (f : DataFrame) : State :=
  let s := modFab s p (fun q =>
    let rest := q.sent.filter (fun g => !lseqAcked g.lseq f.ackLseq)
    { q with sent := rest, replays := if rest.length < q.sent.length then 0 else q.replays,
             credit0 := if f.credVc = 0 then min 1024 (q.credit0 + f.hopCredit) else q.credit0,
             credit1 := if f.credVc = 0 then q.credit1 else min 1024 (q.credit1 + f.hopCredit) })
  if f.nak then nakIn s p f.ackLseq else s

/-- A frame that could not be corrected (R432): it and all that follow up to the awaited LSEQ are discarded, and NAK goes out, again
where the replay brings another. -/
def uncorrectable (s : State) (p : Nat) : State :=
  idleOut (modFab s p (fun q => { q with uncorr := satInc 32 q.uncorr, nakDue := true, discarding := true })) p

/-- The port state in which data frames arrive (R434). -/
def portHears (s : State) (p : Nat) : Bool := portUsable s p || (fabPort s p).pstate == .draining

/-- A decoded frame with its number (R431, R432): a frame that is not IDLE counts only in its turn. Nothing of a frame with a reserved value
is acted on; in its turn it is dropped and counted (R13, R430). -/
def inTurn (s : State) (p : Nat) (f : DataFrame) (act : State → State) : State :=
  let s := if frameOk f then reverseIn s p f else s
  if f.dtype = 0 then s
  else if f.lseq ≠ (fabPort s p).nextRx then s
  else
    let s := modFab s p (fun q => { q with nextRx := lseqUp q.nextRx, discarding := false })
    if frameOk f then act s else dropFrame (if f.dtype = 1 then modFab s p (fun q => freeBuffer q f.vc) else s) p

/-! ### Delivery to the receive engine (R410, R457, R458) -/

/-- The landing buffer that a send's first bytes name, where they are a DATA header (R457). -/
def headerBuf (bs : List Byte) : Option Nat :=
  if 64 ≤ bs.length ∧ crcTailOk (bs.take 64) 60 ∧ field bs 1 1 = 1 then some (field bs 6 2 % 8192) else none

/-- A frame for a landing buffer that has closed (R410). -/
def closedFrame (s : State) (b : Nat) : State :=
  let x := getBuf s b
  raise (modPtn s x.ptn (fun q => { q with landingDrop := satInc 32 q.landingDrop })) .landingClosed
    { kind := .module, ptn := x.ptn, ctx := x.ctx }

/-- The arriving send to which a frame belongs: in FRAME_NO order, none is missed (R431). -/
def Recv.takes (r : Recv) (f : DataFrame) : Bool :=
  r.src == f.src && r.pool == f.pool && r.seq == f.sendSeq && !r.whole && r.next == f.frameNo

/-- A data frame for this module (R441, R458, R410): the first one opens a send; one that follows no frame of its send is
dropped. -/
def deliverFrame (s : State) (f : DataFrame) : State :=
  let bs := f.payload.take f.validLen
  let start : List Recv := if f.frameNo = 0 then [{ src := f.src, pool := f.pool, seq := f.sendSeq }] else []
  let s := { s with xf.recv := s.xf.recv ++ start }
  match s.xf.recv.reverse.find? (fun r => r.takes f) with
  | none => s
  | some r =>
    let data := r.data ++ bs
    let shut := match headerBuf data with
      | some b => if (getBuf s b).bound && (getBuf s b).closed then some b else r.dropBuf
      | none => r.dropBuf
    let put (x : Option Recv) (s : State) : State :=
      let rest := eraseFirst (· == r) s.xf.recv
      { s with xf.recv := match x with | some y => rest ++ [y] | none => rest }
    match shut with
    | some b =>
      closedFrame (put (if f.last then none else some { r with dropBuf := some b, next := r.next + 1, stamp := now s }) s) b
    | none =>
      let s := match headerBuf data with
        | some b => if (getBuf s b).bound then modBuf s b (fun x => { x with lastFrame := now s }) else s
        | none => s
      put (some { r with data := data, next := r.next + 1, stamp := now s, whole := f.last }) s

/-! ### Forwarding (R430, R441) -/

/-- The output port of a frame in transit: the one its send keeps, else by the map (R441). -/
def transitPort (s : State) (f : DataFrame) : Option Nat :=
  match s.xf.routes.find? (fun e => e.1 == (f.src, f.pool, f.sendSeq)) with
  | some e => if f.frameNo = 0 then routePort s f.dst else some e.2
  | none => routePort s f.dst

/-- A frame for another module (R430, R433, R441). -/
def forwardFrame (s : State) (p : Nat) (f : DataFrame) : State :=
  if f.ttl = 0 then dropFrame (modFab s p (fun q => freeBuffer q f.vc)) p
  else match transitPort s f with
  | none =>
    raise (dropFrame (modFab s p (fun q => freeBuffer q f.vc)) p) .routeNone (portAt p)
  | some o =>
    let k := (f.src, f.pool, f.sendSeq)
    let rest := s.xf.routes.filter (fun e => e.1 != k)
    let s := { s with xf.routes := if f.last then rest else rest ++ [(k, o)] }
    portQueue s o [{ f := { f with ttl := f.ttl - 1, vc := vcOut s o f.vc }, inPort := some p, inVc := f.vc }]

/-- The work of a DATA frame that came in its turn. -/
def dataIn (s : State) (p : Nat) (f : DataFrame) : State :=
  if isOwnLmn s f.dst then deliverFrame (modFab s p (fun q => freeBuffer q f.vc)) f else forwardFrame s p f

/-- DATA_FRAME_RECEIVE (R428-R433): a frame arrives at a port, none where it cannot be corrected; `corrected` is the number of
bytes that the decoder mended. IDLE frames carry only the reverse-direction fields. -/
def execDataFrameReceive (port : Nat) (frame : Option DataFrame) (corrected : Nat) (s : State) : Out :=
  .next (
    if !portHears s port then s
    else match frame with
    | none => uncorrectable s port
    | some f =>
      if f.dtype = 2 then s
      else
        let s := modFab s port (fun q => { q with corr := satAdd 32 q.corr corrected })
        let s := if !frameOk f && f.dtype = 0 then dropFrame s port else inTurn s port f (fun s => dataIn s port f)
        portRun s port)

/-- LINK_FRAME_RECEIVE (R436): a LINK frame of a port in use names a lane of this module's transmit side; both ends move it
onto the spare. -/
def execLinkFrameReceive (port : Nat) (f : DataFrame) (lane : Nat) (s : State) : Out :=
  .next (
    if !portUsable s port || f.dtype != 2 then s
    else portRun (inTurn s port f (fun s =>
      let q := fabPort s port
      if decide (lane < 16) && q.pstate == .up && q.spareFor == 0x1F then laneSwap s port lane else s)) port)

/-! ### FAB_PT_CMD (R439, R449) -/

/-- The port cannot leave OFF: its die is in reset (R444), or its logic failed (R575). -/
def portStuck (s : State) (p : Nat) : Bool := (decide (4 ≤ p) && resetting s (3, 5)) || s.tst.deadPorts.contains p

/-- ENABLE, DISABLE and RETRAIN (R439). -/
def portCmd (s : State) (p op : Nat) : State :=
  let q := fabPort s p
  match op with
  | 1 =>
    if portStuck s p then s
    else if q.pstate = .off ∧ !q.enablePending then newLink s p .dark
    else if q.pstate = .draining then modFab s p (fun q => { q with enablePending := true })
    else s
  | 2 =>
    if q.pstate = .off ∨ q.pstate = .draining then s
    else failSends (modFab s p (fun q => { q with pstate := .draining, active := 0 })) p
  | 3 =>
    match q.pstate with
    | .up | .degraded | .down => portTrains s p
    | _ => s
  | _ => s

/-- A row of FAB_PT_CMD: only the installer writes it (R503). -/
def portRow (s : State) (who : Req) (p op : Nat) : State :=
  if partsUp s && isInstaller s who && decide (p < 8) then portCmd s p op else s

/-- FAB_PT_ENABLE (R439). -/
def execFabPtEnable (who : Req) (port : Nat) (s : State) : Out := .next (portRow s who port 1)
/-- FAB_PT_DISABLE (R439). -/
def execFabPtDisable (who : Req) (port : Nat) (s : State) : Out := .next (portRow s who port 2)
/-- FAB_PT_RETRAIN (R439). -/
def execFabPtRetrain (who : Req) (port : Nat) (s : State) : Out := .next (portRow s who port 3)

/-- PORT_DRAIN_END (R439): a draining port has finished the frames it had started. -/
def execPortDrainEnd (port : Nat) (s : State) : Out :=
  .next (if (fabPort s port).pstate = .draining then
      modFab (newLink s port .off) port (fun q => { q with active := 0, offSince := some s.cyc })
    else s)

/-- A port with an ENABLE queued that has been OFF for a whole Bell enters DARK at cycle 0 of a Bell (R439). -/
def darkDue (s : State) : State :=
  forEach (tkeys s.fab.port) (fun s p =>
    let q := fabPort s p
    if q.pstate == .off && q.enablePending && !portStuck s p && decide ((q.offSince.getD 0) + 2048 ≤ s.cyc) then
      modFab (newLink s p .dark) p (fun q => { q with enablePending := false, offSince := none })
    else s) s

/-! ### The port map and takeover (R440, R446, R447, R451) -/

/-- A write of FAB_MAP_n: the ports at once, SEL at the next Bell (R447, R450), while the counter stands still at the first Bell at
which it counts (R627): no Bell has the number 2^64. -/
def mapWrite (s : State) (n w : Nat) : State :=
  { s with fab.map := tmod default s.fab.map n (fun e => { e with
      va := bitOf w 31, pa := bits w 28 3, vb := bitOf w 27, pb := bits w 24 3, vs := bitOf w 23, ps := bits w 20 3,
      selPend := if bitOf w 19 = e.sel then none else some (bitOf w 19, if counting s then s.bell.count else 2 ^ 64) }) }

/-- FAB_MAP_SEL_APPLY (R450): the Bell after the write has begun. -/
def execFabMapSelApply (n : Nat) (s : State) : Out :=
  .next (match (tget default s.fab.map n).selPend with
    | some (v, b) => if counting s && s.bell.count != b then
        { s with fab.map := tmod default s.fab.map n (fun e => { e with sel := v, selPend := none }) } else s
    | none => s)

/-- The cover record of an LMN (R446). -/
def coverOf (s : State) (l : Nat) : Option Cover := (s.fab.cover.find? (fun e => e.2.valid && e.2.lmn == l)).map Prod.snd

/-- STATUS of FAB_TAKE_STATUS (R447, R451): 1 NOT_SPARE, 4 NOT_READY, 3 BELL_NOT_RUNNING, 2 NOT_COVERED. -/
def takeoverStatus (s : State) (l : Nat) : Nat :=
  if s.bell.cfg.role ≠ 3 then 1
  else if !s.mod.ready then 4
  else if s.bell.state ≠ .running then 3
  else if (coverOf s l).isNone then 2 else 0

/-- A write of FAB_TAKEOVER (R447, R451); one while BUSY is 1 is ignored, one that the journal has no room for is turned away
(R510). -/
def takeover (s : State) (who : Req) (l : Nat) : State :=
  if s.fab.takeBusy then s
  else
    let st := takeoverStatus s l
    if st = 0 then
      if journalRoom s then { s with
        fab.takeBusy := true, fab.takePend := some (l, s.bell.count), fab.takeDone := false, fab.takeBy := journalRole s who }
      else s
    else { s with fab.takeDone := true, fab.takeStatus := st }

/-- FAB_TAKEOVER by a requester (R447, R503). -/
def execFabTakeover (who : Req) (lmn : Nat) (s : State) : Out :=
  .next (if partsUp s && isInstaller s who then takeover s who (lmn % 1024) else s)

/-- TAKEOVER_APPLY (R447): at cycle 0 of the next Bell the spare takes the LMN and its buddy and becomes a member. -/
def execTakeoverApply (s : State) : Out :=
  .next (match s.fab.takePend with
    | some (l, b) =>
      if counting s && s.bell.count != b then
        match coverOf s l with
        | some c =>
          let s := { s with bell.cfg.role := 0, snp.buddyValid := true, snp.buddyLmn := c.buddy }
          let fab : FabBlk := { s.fab with
            assigned := true, lmn := l, coverLmn := l, takePend := none, takeBusy := false, takeDone := true, takeStatus := 0,
            takeLmn := l }
          journal { s with fab := fab } { action := 0x0A, role := s.fab.takeBy.1, slot := s.fab.takeBy.2, aux := l }
        | none => { s with fab := { s.fab with takePend := none, takeBusy := false, takeDone := true, takeStatus := 2 } }
      else s
    | none => s)

end Sys2Proof.Machine
end

