-- ==== Sys2Proof/Machine/Snapshot.lean ====
section
/-! DEFINITION. Snapshots (spec/18_snapshots_replay.md): plans, triggers at recess points, step digests, captures, and the
commands of the SNP block but for what restores and mirrors need of the fabric.
Readings and choices: log 62, 63. -/

namespace Sys2Proof.Machine

/-! ### Access to the engine's parts -/

/-- What the engine keeps of context `c`. -/
def getSnp (s : State) (c : Nat) : SnpCtx := tget {} s.snp.ctx c
/-- Changes it. -/
def modSnp (s : State) (c : Nat) (f : SnpCtx → SnpCtx) : State := { s with snp.ctx := tmod {} s.snp.ctx c f }

/-- A context's snapshot key (R549). -/
def snapKey (s : State) (c : Nat) : List Byte :=
  match tget none s.keys.ctx c with
  | some k => shake256 32 (ascii "SV44-SNAP" ++ k.imp ++ k.exp)
  | none => []

/-! ### The plan (R551-R553) -/

/-- An item of a plan (R551). -/
structure PlanItem where
  kind : Nat := 0
  stg : Nat := 0
  len : Nat := 0
  addr : Nat := 0
deriving DecidableEq, Repr, Inhabited

/-- A plan record (R551). -/
structure Plan where
  mirror : Bool := false
  interval : Nat := 1
  offset : Nat := 0
  buf : Nat := 0
  bufLen : Nat := 0
  log : Nat := 0
  entries : Nat := 64
  items : List PlanItem := []
deriving DecidableEq, Repr, Inhabited

/-- Parses item `k` of a plan. -/
def planItem (bs : List Byte) (k : Nat) : PlanItem :=
  let o := 64 + 16 * k
  { kind := field bs o 1, stg := field bs (o + 2) 2, len := field bs (o + 4) 4, addr := field bs (o + 8) 8 }

/-- Parses a plan. -/
def parsePlan (bs : List Byte) : Plan :=
  let f := field bs 1 1
  { mirror := bitOf f 6, interval := field bs 2 2, offset := field bs 4 2, buf := field bs 8 8, bufLen := field bs 0x10 8,
    log := field bs 0x18 8, entries := field bs 0x20 4, items := (countFrom 0 (bits f 0 6)).map (planItem bs) }

/-- Items of a kind. -/
def Plan.count (p : Plan) (k : Nat) : Nat := (p.items.filter (fun x => x.kind == k)).length

/-- The fields of a plan that need no state (R551). -/
def planFieldsOk (bs : List Byte) : Bool :=
  let p := parsePlan bs
  let f := field bs 1 1
  let n := bits f 0 6
  field bs 0 1 == 1 && !bitOf f 7 && decide (1 ≤ n) && decide (n ≤ 40) && decide (1 ≤ p.interval) && decide (p.offset < p.interval)
    && field bs 6 2 == 0 && p.buf % 65536 == 0 && p.log % 64 == 0
    && (countFrom 6 11).any (fun k => p.entries == 2 ^ k) && decide (p.interval ≤ p.entries) && allZero (slice bs 0x24 24)
    && field bs 0x3C 4 == crc32c (patch bs 0x3C [0, 0, 0, 0])
    && decide (1 ≤ p.count 1) && decide (p.count 1 ≤ 16) && decide (p.count 3 ≤ 1) && decide (p.count 4 ≤ 1)
    && decide (p.count 5 ≤ 8)
    && (List.zip (countFrom 0 n) p.items).all (fun e =>
        let x := e.2
        decide (1 ≤ x.kind) && decide (x.kind ≤ 5) && field bs (64 + 16 * e.1 + 1) 1 == 0
          && (if x.kind = 2 then decide (x.stg < 4096) && x.addr == 0 else x.stg == 0)
          && (if x.kind = 5 then x.len % 64 == 0 && decide (64 ≤ x.len) && decide (x.len ≤ 2 ^ 30) else x.len == 0))

/-- The engine's own accesses for a context: its windows and those of its partition (R345, R551). -/
def snpIssuer (p c : Nat) : Issuer := { ctx := c, ctxOn := true, mmode := true, ptn := p }

/-- A range in the context's windows and outside every Rind window (R551). -/
def snpRange (s : State) (p c ga n : Nat) : Option Place :=
  match itemPlace s none ga n with
  | some pl =>
    if coverGo (reachWins s (snpIssuer p c)) true .read 64 pl n = n && !meetsRind s pl n then some pl else none
  | none => none

/-- Bytes of such a range. -/
def snpRead (s : State) (p c ga n : Nat) : List Byte :=
  match snpRange s p c ga n with
  | some pl => (readAs s (snpIssuer p c) pl n).bytes
  | none => []

/-- Writes such a range; one outside the windows is not written. -/
def snpWrite (s : State) (p c ga : Nat) (bs : List Byte) : State :=
  match snpRange s p c ga bs.length with
  | some pl => writeAs s (snpIssuer p c) pl bs
  | none => s

/-- A global address of this module for a local one. -/
def hereAddr (la : Nat) : Nat := 0x3FF * 2 ^ 54 + la

/-- The plan at an address, where its record lies in the context's windows and its fields hold. -/
def readPlan (s : State) (p c ga : Nat) : Option Plan :=
  let h := snpRead s p c ga 64
  if h.isEmpty then none
  else
    let bs := snpRead s p c ga (64 + 16 * bits (field h 1 1) 0 6)
    if planFieldsOk bs then some (parsePlan bs) else none

/-- A CURSOR record holds (R552). -/
def cursorOk (bs : List Byte) : Bool := bs.length == 64 && crcTailOk bs 60 && allZero (slice bs 0x30 12)

/-- A STREAMS record's bytes, where it holds (R552). -/
def readStreams (s : State) (p c ga : Nat) : Option (List Byte) :=
  let n := field (snpRead s p c ga 64) 0 4
  if n = 0 ∨ 4096 < n then none
  else
    let bs := snpRead s p c ga (64 + 32 * n)
    if !bs.isEmpty && field bs 0x3C 4 == crc32c (patch bs 0x3C [0, 0, 0, 0])
        && (countFrom 0 n).all (fun k => field bs (64 + 32 * k + 4) 4 == 0) then some bs else none

/-- A state block of a plan, with its panels: in panel form those of the plan's staged image of its adapter. -/
def planBlock (s : State) (p c : Nat) (pl : Plan) (ga : Nat) : Option PRun :=
  let raw := snpRead s p c ga 0x1C0
  if raw.isEmpty || !psbOk raw then none
  else
    let h := parsePsb raw
    let x : PRun := { d := { ctx := c, ptn := p, state := ga }, i := snpIssuer p c, h := h, raw := raw }
    let stg := (pl.items.filter (fun y => y.kind == 2)).map (fun y => parseStg (readStg s p y.stg))
    let x := { x with stg := (stg.find? (fun g => g.adapter == h.adapter)).getD {} }
    let ps := (psbPanels s x).2
    if ps.length = h.np then some { x with panels := ps } else none

/-- Every state block of a plan, none where one fails. -/
def planBlocks (s : State) (p c : Nat) (pl : Plan) : Option (List PRun) :=
  (pl.items.filter (fun y => y.kind == 1)).foldl (fun acc y =>
    match acc, planBlock s p c pl y.addr with
    | some xs, some x => some (xs ++ [x])
    | _, _ => none) (some [])

/-! ### Objects (R557) -/

/-- An object read from the context's memory. -/
def memObj (s : State) (p c okind item ga n : Nat) : SnpObj :=
  { okind := okind, item := item, addr := (localAddr s ga).getD 0, bytes := snpRead s p c ga n }

/-- The objects of a state block (R557). -/
def blockObjs (s : State) (p c item : Nat) (x : PRun) : List SnpObj :=
  let total := 4 * sumNat (x.panels.map PPanel.n)
  let m (k ga n : Nat) : SnpObj := memObj s p c k item ga n
  [m 1 x.d.state (0x1C0 + (if x.h.tile then 32 * x.h.ne else 0)), m 2 x.h.master total, m 3 x.h.m1 total]
    ++ (if x.h.opt = 0 then [m 4 x.h.m2 total] else []) ++ [m 5 x.h.pword (16 * x.h.np)]
    ++ (if x.h.tile then (countFrom 0 x.h.ne).map (fun k =>
          let r := snpRead s p c (x.d.state + 0x1C0 + 32 * k) 32
          m 6 (field r 8 8) (33472 * (field r 4 2 * field r 6 2))) else [])

/-- The staged image of a STAGED item (R557). -/
def stagedObj (s : State) (p c item stg : Nat) : SnpObj :=
  let g := parseStg (readStg s p stg)
  { okind := 6, item := item, stg := stg, adapter := g.adapter, addr := g.image, bytes := readUnder s (ctxKey s c) g.image g.len }

/-- The registers of R241, 12 B padded to 64 (R557). -/
def counterBytes (x : Ctx) : List Byte :=
  slice (leBytes 4 (x.convSat * 65536 + x.convNan) ++ leBytes 4 x.gradev ++ leBytes 4 x.masterev) 0 64

/-- Record `k` of a log ring. -/
def logRec (s : State) (p c : Nat) (pl : Plan) (k : Nat) : List Byte := snpRead s p c (pl.log + 64 * (k % pl.entries)) 64

/-- The log records with LESSON above `lo` and at most `t`, in rising LESSON (R557). -/
def stepLog (s : State) (p c : Nat) (pl : Plan) (lo t : Nat) : List Byte :=
  let rs := ((countFrom 0 pl.entries).map (logRec s p c pl)).filter (fun r =>
    crcTailOk r 60 && decide (lo < field r 0 8) && decide (field r 0 8 ≤ t))
  (rs.foldl (fun acc r => insertBy (fun r => field r 0 8) r acc) []).flatten

/-- The objects of a generation, in the order of the plan's items (R557). -/
def planObjs (s : State) (p c : Nat) (pl : Plan) (blocks : List PRun) (t : Nat) : List SnpObj :=
  let items := List.zip (countFrom 0 pl.items.length) pl.items
  let of (e : Nat × PlanItem) : List SnpObj :=
    match e.2.kind with
    | 1 => match blocks.find? (fun x => x.d.state == e.2.addr) with
      | some x => blockObjs s p c e.1 x
      | none => []
    | 2 => [stagedObj s p c e.1 e.2.stg]
    | 3 => [memObj s p c 7 e.1 e.2.addr 64]
    | 4 => [memObj s p c 8 e.1 e.2.addr (((readStreams s p c e.2.addr).getD []).length)]
    | _ => [memObj s p c 9 e.1 e.2.addr e.2.len]
  (items.map of).flatten
    ++ [{ okind := 10, bytes := counterBytes (getCtx s c) },
        { okind := 11, bytes := stepLog s p c pl (getSnp s c).prevLesson t }]

/-- Bytes of a capture. -/
def captureSize (os : List SnpObj) : Nat := sumNat (os.map (fun o => o.bytes.length))

/-- Every check of R551 and R552 on a plan that has been read (R553). -/
def planOk (s : State) (p c : Nat) (pl : Plan) : Option (List PRun) :=
  let bufOk := match snpRange s p c pl.buf pl.bufLen with
    | some b => !b.1.isSram && decide (1 ≤ pl.bufLen)
    | none => false
  let logOk := (snpRange s p c pl.log (64 * pl.entries)).isSome
  let itemsOk := pl.items.all (fun y =>
    match y.kind with
    | 3 => cursorOk (snpRead s p c y.addr 64)
    | 4 => (readStreams s p c y.addr).isSome
    | 5 => (snpRange s p c y.addr y.len).isSome
    | _ => true)
  if !(bufOk && logOk && itemsOk) then none
  else match planBlocks s p c pl with
  | none => none
  | some bs =>
    let t := match bs with | x :: _ => x.h.t | [] => 0
    if captureSize (planObjs s p c pl bs t) ≤ pl.bufLen then some bs else none

/-! ### Triggers (R554-R556) -/

/-- Every state block is between CLOSE and REDUCE, with one T (R554). -/
def blocksRest (s : State) (bs : List PRun) : Option Nat :=
  match bs with
  | [] => none
  | x :: _ =>
    if bs.all (fun y => y.h.t == x.h.t && (countFrom 0 y.h.np).all (fun r =>
        let w := (pwordIn s y r).2
        w.phase == 0 && !w.busy && w.step == x.h.t % 256)) then some x.h.t else none

/-- The step digest (R555). -/
def stepDigest (s : State) (p c : Nat) (pl : Plan) (bs : List PRun) (t : Nat) : List Byte :=
  let blk (x : PRun) : List Byte :=
    snpRead s p c (x.d.state + 0x180) 64
      ++ ((countFrom 0 x.h.np).map (fun r => (snpRead s p c (x.h.pword + 16 * r) 16).take 12)).flatten
  let one (k : Nat) (f : PlanItem → List Byte) : List Byte :=
    ((pl.items.filter (fun y => y.kind == k)).map f).flatten
  shake256 32 (ascii "SV44-STEP" ++ leBytes 8 t ++ (bs.map blk).flatten ++ one 3 (fun y => snpRead s p c y.addr 64)
    ++ one 4 (fun y => (readStreams s p c y.addr).getD []))

/-- The log record of a step (R555). -/
def logBytes (t : Nat) (d : List Byte) : List Byte := withCrcTail (slice (leBytes 8 t ++ d) 0 64) 60

/-- A trigger that is skipped is counted (R553, R554, R556). -/
def skipTrigger (s : State) : State := { s with snp.skipped := satInc 16 s.snp.skipped }

/-- A new digest is compared with the ring record of the same T while VERIFY is set (R567). -/
def verifyStep (s : State) (p c : Nat) (pl : Plan) (t : Nat) (d : List Byte) : State :=
  match (getSnp s c).verify with
  | none => s
  | some r =>
    if r < t then modSnp s c (fun x => { x with verify := none })
    else if logRec s p c pl t == logBytes t d then
      { s with snp.verified := satInc 16 s.snp.verified }
    else
      let s := raise s .replayDiverged { kind := .module, ptn := p, ctx := c }
      restartCtx (modSnp s c (fun x => { x with verify := none })) p c

/-- The step digest of T is compared and written into the log ring (R554, R555, R567). -/
def writeDigest (s : State) (p c : Nat) (pl : Plan) (bs : List PRun) (t : Nat) : State :=
  if (getSnp s c).lastDigest = some t then s
  else
    let d := stepDigest s p c pl bs t
    let s := verifyStep s p c pl t d
    let s := snpWrite s p c (pl.log + 64 * (t % pl.entries)) (logBytes t d)
    modSnp s c (fun x => { x with lastDigest := some t })

/-- A capture buffer still holds a generation that has not been committed (R556). -/
def bufHeld (s : State) (la n : Nat) : Bool := s.snp.jobs.any (fun j => decide (la < j.buf + j.bufLen) && decide (j.buf < la + n))

/-- A capture starts (R556): the objects are copied into the buffer, where no uncommitted generation is in it. The objects
lie in the buffer one after the other. -/
def capture (s : State) (p c : Nat) (pl : Plan) (bs : List PRun) (t : Nat) : State :=
  if bufHeld s ((localAddr s pl.buf).getD 0) pl.bufLen then skipTrigger s
  else
    let os := planObjs s p c pl bs t
    let s := snpWrite s p c pl.buf (os.map SnpObj.bytes).flatten
    let (form, meas) := match (getPtn s p).syl with
      | some y => (y.form, y.meas.take 32)
      | none => (0, [])
    let j : SnpJob := { ctx := c, ptn := p, lesson := t, stamp := stampOf s.bell.count 0, form := form, meas := meas,
                        mirror := pl.mirror, key := snapKey s c, objs := os, buf := (localAddr s pl.buf).getD 0,
                        bufLen := pl.bufLen }
    let s := modCtx s c (fun x => { x with
      copying := true, copyStg := (pl.items.filter (fun y => y.kind == 2)).map PlanItem.stg })
    modSnp { s with snp.jobs := s.snp.jobs ++ [j] } c (fun x => { x with now := false, lastCap := some t })

/-- The trigger of an armed context at a recess point (R554). -/
def trigger (s : State) (p c : Nat) : State :=
  match readPlan s p c (getSnp s c).plan with
  | none => skipTrigger s
  | some pl =>
    match planOk s p c pl with
    | none => skipTrigger s
    | some bs =>
      match blocksRest s bs with
      | none => skipTrigger s
      | some t =>
        let s := writeDigest s p c pl bs t
        let x := getSnp s c
        if x.now || (t % pl.interval == pl.offset && x.lastCap != some t) then capture s p c pl bs t else s

/-- A recess point of a partition (R270, R405, R554): the triggers of its armed contexts that are attached, then the recess
processing. -/
def recessPoint (s : State) (p : Nat) : State :=
  let cs := (ctxRange s p).filter (fun c => (getCtx s c).attached && (getSnp s c).armed)
  recess (forEach cs (fun s c => trigger s p c) s) p

/-! ### Commands (R553, R554, R563, R569) -/

/-- STATUS codes of SNP_RESULT (R569). -/
def snOk : Nat := 0
def snBadState : Nat := 1
def snBadPlan : Nat := 2
def snBadTarget : Nat := 3
def snNoValid : Nat := 4
def snAborted : Nat := 5
def snBusy : Nat := 6
def snNotFound : Nat := 7
def snRejected : Nat := 8

/-- Ends a command with a status (R569). -/
def snpAnswer (s : State) (st : Nat) : State := { s with snp := { s.snp with done := true, busy := false, status := st } }

/-- SNP_ARG0 and SNP_ARG1 as one number. -/
def snpArg (s : State) (k : Nat) : Nat := getAt 0 s.snp.args k + 2 ^ 32 * getAt 0 s.snp.args (k + 1)

/-- The generations of a context of this module, newest first. -/
def gensOf (s : State) (c : Nat) : List Gen := (s.snp.gens.filter (fun g => !g.mirror && g.ctx == c)).reverse

/-- ARM (R553). -/
def snpArmOp (s : State) (c : Nat) : State :=
  match ptnOfCtx s c with
  | none => snpAnswer s snBadState
  | some p =>
    match (getCtx s c).state with
    | .free | .scrubbing => snpAnswer s snBadState
    | _ =>
      let ga := snpArg s 0
      match readPlan s p c ga with
      | none => snpAnswer s snBadPlan
      | some pl =>
        if (planOk s p c pl).isNone then snpAnswer s snBadPlan
        else snpAnswer (modSnp s c (fun x => { x with armed := true, plan := ga })) snOk

/-- DISARM (R569). -/
def snpDisarmOp (s : State) (c : Nat) : State :=
  if (getSnp s c).armed then snpAnswer (modSnp s c (fun x => { x with armed := false, now := false })) snOk
  else snpAnswer s snBadState

/-- CAPTURE_NOW (R554): pending for the next trigger of an armed context. -/
def snpNowOp (s : State) (c : Nat) : State :=
  if (getSnp s c).armed then snpAnswer (modSnp s c (fun x => { x with now := true })) snOk
  else snpAnswer s snBadState

/-- RESTORE (R563, R564, R567): accepted for a KEYED context, or one in RESTART that is no longer attached; the result
follows when the restore ends. -/
def snpRestoreOp (s : State) (c : Nat) : State :=
  let x := getCtx s c
  let ok := x.state == .keyed || (x.state == .restart && !x.stay)
  let a2 := getAt 0 s.snp.args 2
  if bits a2 0 2 = 3 ∨ 8 ≤ a2 then snpAnswer s snRejected
  else if !ok || restoring s c then snpAnswer s snBadState
  else
    let j : RestoreJob := { lesson := snpArg s 0, source := bits a2 0 2, verify := bitOf a2 2, upTo := snpArg s 3 }
    modSnp { s with snp := { s.snp with busy := true, done := false, measDiffer := false } } c (fun x => { x with restoring := some j })

/-- DELETE (R569): the local copy of a generation is freed; one that is mirrored stays listed. -/
def snpDeleteOp (s : State) (c : Nat) : State :=
  let g := snpArg s 0
  let hit (x : Gen) : Bool := !x.mirror && x.ctx == c && x.gen == g && x.held
  if s.snp.gens.any hit then
    let gs := s.snp.gens.map (fun x => if hit x then { x with held := false, objs := [], manifest := [] } else x)
    snpAnswer { s with snp.gens := gs.filter (fun x => x.held || x.mirrored) } snOk
  else snpAnswer s snNotFound

/-- One record of SNP_QBUF (R569). -/
def queryRec (g : Gen) : List Byte :=
  leBytes 8 g.lesson ++ leBytes 4 g.gen
    ++ leBytes 4 (b2n g.held + 2 * b2n g.mirrored + 4 * b2n g.localFailed + 8 * b2n g.mirrorFailed)

/-- QUERY (R569): up to 16 records, newest first. -/
def snpQueryOp (s : State) (c : Nat) : State :=
  let rs := ((gensOf s c).take 16).map queryRec
  snpAnswer { s with snp.qbuf := rs.flatten } (if rs.isEmpty then snNotFound else snOk)

/-- A write of SNP_CMD (R562, R569, R626). -/
def snpCmd (s : State) (word : Nat) : State :=
  let c := bits word 16 12
  if s.snp.busy then s
  else if bits word 28 4 ≠ 0 ∨ bits word 4 12 ≠ 0 then snpAnswer s snRejected
  else
    match bits word 0 4 with
    | 0 => snpAnswer s snRejected
    | op =>
      if 7 ≤ op then snpAnswer s snRejected
      else if !s.snp.ready then snpAnswer s snBusy
      else match op with
        | 1 => snpArmOp s c
        | 2 => snpDisarmOp s c
        | 3 => snpNowOp s c
        | 4 => snpRestoreOp s c
        | 5 => snpDeleteOp s c
        | _ => snpQueryOp s c

/-- A command row of the SNP block by the operator, with its arguments in SNP_ARGk (R569). -/
def snpRow (s : State) (who : Req) (c op : Nat) (args : List Nat) : State :=
  if partsUp s && isOperator s who then
    snpCmd { s with snp.args := args.map (fun a => a % 2 ^ 32) ++ s.snp.args.drop args.length } ((c % 4096) * 65536 + op)
  else s

/-- SNP_ARM (R553): `plan` is the plan's address. -/
def execSnpArm (who : Req) (ctx plan : Nat) (s : State) : Out := .next (snpRow s who ctx 1 [plan, plan / 2 ^ 32])
/-- SNP_DISARM (R569). -/
def execSnpDisarm (who : Req) (ctx : Nat) (s : State) : Out := .next (snpRow s who ctx 2 [])
/-- CAPTURE_NOW (R554). -/
def execCaptureNow (who : Req) (ctx : Nat) (s : State) : Out := .next (snpRow s who ctx 3 [])
/-- SNP_RESTORE (R563, R564, R567). -/
def execSnpRestore (who : Req) (ctx lesson arg2 upTo : Nat) (s : State) : Out :=
  .next (snpRow s who ctx 4 [lesson, lesson / 2 ^ 32, arg2, upTo, upTo / 2 ^ 32])
/-- SNP_DELETE (R569). -/
def execSnpDelete (who : Req) (ctx gen : Nat) (s : State) : Out := .next (snpRow s who ctx 5 [gen, gen / 2 ^ 32])
/-- SNP_QUERY (R569). -/
def execSnpQuery (who : Req) (ctx : Nat) (s : State) : Out := .next (snpRow s who ctx 6 [])

/-- CAPTURE_COPY_DONE (R556, R559): the copy of a context's capture has ended; the Press and the Vat go on, and the drain
begins. -/
def execCaptureCopyDone (ctx : Nat) (s : State) : Out :=
  .next (
    let mine (j : SnpJob) : Bool := j.ctx == ctx && j.phase == .copy
    if s.snp.jobs.any mine then
      let s := { s with snp.jobs := modifyFirst mine (fun j => { j with phase := .drain }) s.snp.jobs }
      if s.snp.jobs.any mine then s else vatRestart (modCtx s ctx (fun x => { x with copying := false, copyStg := [] }))
    else s)

/-- The newest committed generation of each context as the directory lists it: SNP_CTX.GEN, and the digest and LESSON that the next one
follows (R550, R557, R558, R569). -/
def listGens (s : State) : State :=
  forEach (s.snp.gens.filter (fun g => !g.mirror)) (fun s g =>
    modSnp s g.ctx (fun x => { x with gen := g.gen, prev := g.digest, prevLesson := g.lesson })) s

/-- SNAPSHOT_ENGINE_READY (R562): the directory is read, extents of no entry of it are free, and commands are taken. The directory of
the model lists only committed generations. -/
def execSnapshotEngineReady (s : State) : Out :=
  .next (if s.mod.ready && !s.snp.ready then { listGens s with snp.ready := true } else s)

end Sys2Proof.Machine
end

