-- ==== Sys2Proof/Machine/Lessons.lean ====
section
/-! DEFINITION. The course of Lessons (spec/08_bell_and_timetable.md R262-R278): boundaries, the release and the deadlines
of slots, the spill pass (spec/05 R175, R176), aborted Lessons, and what waits for a partition's running commands.
Readings and choices: log 59, 60, 148, 152. -/

namespace Sys2Proof.Machine

/-! ### Aborted Lessons (R278) -/

/-- What the Press state of a context decides at an abort (R278). -/
inductive AbortFate where
  | stands | rerun | restart
deriving DecidableEq, Repr

/-- The state block at a local address as the module itself reads it, for a context of a partition. -/
def blockAt (s : State) (p c a : Nat) : PRun :=
  let x : PRun := { d := { ctx := c, ptn := p, state := hereAddr a }, i := snpIssuer p c }
  let raw := (pGet s x (hereAddr a) 64).2
  { x with raw := raw, h := parsePsb raw }

/-- Every panel of a state block still has STEP = T mod 256 (R278). -/
def untouched (s : State) (x : PRun) : Bool :=
  (countFrom 0 x.h.np).all (fun r => (pwordIn s x r).2.step == x.h.t % 256)

/-- The fate of a context of an aborted Lesson. -/
def abortFate (s : State) (p c : Nat) : AbortFate :=
  let ts := (getCtx s c).psbs
  let l := (getPtn s p).tt.lesson
  if !ts.isEmpty && ts.all (fun t => t.closed == some l) then .stands
  else if ts.all (fun t => t.closed != some l && untouched s (blockAt s p c t.addr)) then .rerun
  else .restart

/-- Every panel word of a state block returns to phase 0 with BUSY 0 (R278). -/
def resetPanels (s : State) (x : PRun) : State :=
  forEach (countFrom 0 x.h.np) (fun s r =>
    pwordOut s x r { (pwordIn s x r).2 with phase := 0, busy := false }) s

/-- An aborted Lesson's contexts are treated once its running commands have ended (R278). -/
def settleAbort (s : State) (p : Nat) : State :=
  let s := forEach (ctxRange s p) (fun s c =>
    match (getCtx s c).state with
    | .running | .preempting =>
      match abortFate s p c with
      | .stands => s
      | .rerun =>
        let s := forEach (getCtx s c).psbs (fun s t => resetPanels s (blockAt s p c t.addr)) s
        modCtx s c (fun x => { x with rerunLesson := true })
      | .restart => restartCtx s p c
    | _ => s) s
  modTt s p (fun t => { t with settled := true })

/-! ### Boundaries (R262, R270, R399, R405) -/

/-- Subtraction flags whose records have all been rebuilt and read back clear (R133). -/
def clearSubFlags (s : State) (p : Nat) : State :=
  { s with subf := s.subf.filter (fun f =>
      match matrixEnt s p f.base f.tensor with
      | some e => decide (f.rebuilt.length < e.kt * e.ntc)
      | none => true) }

/-- The recheck of a partition's power model (R273): 1.04 × PEAK_DARR + PEAK_OTHER, in units of 0.25 W, against POWER in
watts. -/
def powerRecheck (s : State) (p : Nat) (y : Timetable) : State :=
  if !(getPtn s p).recheck then s
  else
    let s := modPtn s p (fun q => { q with recheck := false })
    match grantOf s p with
    | some g => if 400 * g.power < 104 * y.peakDarr + 100 * y.peakOther then
        raise s .powerModel { kind := .module, ptn := p } else s
    | none => s

/-- A RESTART context is no longer attached from a Lesson boundary on (R408). -/
def dropRestarts (s : State) (p : Nat) : State :=
  forEach (ctxRange s p) (fun s c =>
    if (getCtx s c).state == .restart then modCtx s c (fun x => { x with stay := false }) else s) s

/-- The recess processing of a Lesson boundary, after its repairs (R29, R405, R581). -/
def boundaryRecess (s : State) (p : Nat) : State := recessPoint (dropRestarts s p) p

/-- A Lesson begins (R262). -/
def beginLesson (s : State) (p : Nat) (y : Timetable) : State :=
  let s := modTt s p (fun t => { t with
    bound := nextBoundary t y, lesson := wrap 64 (t.lesson + 1), next := 0, inLesson := true, noRelease := false,
    aborted := false, settled := false, overrunSlot := none, resumeAt := none, resumedOn := none })
  let s := modPtn s p (fun q => { q with binding := [] })
  let s := forEach (ctxRange s p) (fun s c => modCtx s c (fun x => { x with rerunLesson := false, skips := false })) s
  boundaryRecess (powerRecheck (clearSubFlags s p) p y) p

/-- The Timetable ends: IDLE (R282). -/
def endTt (s : State) (p : Nat) : State :=
  modTt s p (fun t => { t with
    state := .idle, open_ := [], noRelease := false, aborted := false, settled := false, overrunSlot := none, inLesson := false,
    resumeAt := none })

/-- A Lesson boundary of a partition (R262, R278, R282, R399): it lets repairs and core changes through (R20, R25, R29, R268); a
STOPPING Timetable ends; one that a timed-out slot under
HOLD keeps from releasing slots waits; an aborted Lesson whose commands still run skips it; that of a held partition
becomes HELD; otherwise a Lesson begins. -/
def lessonBoundary (s : State) (p : Nat) (y : Timetable) : State :=
  let t := (getPtn s p).tt
  if t.state == .stopping then
    if t.noRelease then s else boundaryRecess (endTt (boundaryRepairs (ceRepairs s) p) p) p
  else if t.noRelease && !t.aborted then s
  else if t.aborted && ptnRunning s p then
    modTt s p (fun t => { t with bound := nextBoundary t y, skipped := satInc 32 t.skipped })
  else
    let s := if t.aborted && !t.settled then settleAbort s p else s
    let s := boundaryRepairs (ceRepairs s) p
    if (getPtn s p).state == .held then
      boundaryRecess (modTt s p (fun t => { t with
        state := .held, next := 255, noRelease := false, aborted := false, settled := false })) p
    else beginLesson s p y

/-- LESSON_BOUNDARY (R262): cycle 0 of a Lesson boundary Bell; before that Bell nothing happens. A boundary that RESUME has shifted
to the Bell of its acceptance or before takes place at the Bell after (R277). -/
def execLessonBoundary (p : Nat) (s : State) : Out :=
  .next (
    let t := (getPtn s p).tt
    match ttOf s p with
    | some y =>
      if (t.state == .running || t.state == .stopping) && counting s && decide (nextBoundary t y ≤ s.bell.count)
          && t.resumedOn != some s.bell.count then
        lessonBoundary s p y else s
    | none => s)

/-! ### Slots (R267, R268, R276) -/

/-- A staging entry is READY (R164). -/
def stgReady (s : State) (p k : Nat) : Bool := let b := readStg s p k; stgOk b && (parseStg b).state == 2

/-- Contexts that skip the Lesson at the spill pass (R176): those of a bound entry, or with an entry of their rows due, that
is not READY, then in descending CTX until the rows due fit SPILL_ROWS. `due` gives the rows due and the entries by
context. -/
def skipSet (s : State) (p rows : Nat) (due : List (Nat × Nat × List Nat)) : List Nat :=
  let late := (getPtn s p).binding.filter (fun k => !stgReady s p k)
  let owners := ((late.map (fun k => (parseStg (readStg s p k)).owner)).filter tagValid).map tagCtx
    ++ (due.filter (fun d => d.2.2.any (fun k => !stgReady s p k))).map Prod.fst
  let rest := due.filter (fun d => !owners.contains d.1)
  let down := (rest.foldl (fun acc d => insertBy Prod.fst d acc) []).reverse
  let cut := down.foldl (fun (acc : List Nat × Nat) d => if rows < acc.2 then (d.1 :: acc.1, acc.2 - d.2.1) else acc)
    ([], sumNat (rest.map (fun d => d.2.1)))
  owners ++ cut.1

/-- What a slot does at its START besides its semaphores: the binding list and the spill bitmap at the first LECTURE slot
(R166, R374), the skipped contexts at the spill pass (R176), the cores of a QUIZ slot (R268). -/
def slotWork (s : State) (p i : Nat) (y : Timetable) (due : List (Nat × Nat × List Nat)) : State :=
  match (slotAt y i).kind with
  | .lecture => if (y.slots.take i).all (fun k => k.kind != .lecture) then spillBitmap s p else s
  | .spill => forEach (skipSet s p y.spillRows due) (fun s c => modCtx s c (fun x => { x with skips := true })) s
  | .quiz => quizSlotStart s p i
  | _ => s

/-- SLOT_START (R267): slot `i`, the next of the Lesson, reaches its START Bell. `due` gives the rows due for a spill pass
and the staging entries by context (R176). -/
def execSlotStart (p i : Nat) (due : List (Nat × Nat × List Nat)) (s : State) : Out :=
  .next (
    let t := (getPtn s p).tt
    match ttOf s p with
    | some y =>
      if (t.state == .running || t.state == .stopping) && t.inLesson && !t.noRelease && t.next == i
          && decide (i < y.slots.length) && counting s && decide (t.bound + (slotAt y i).start ≤ s.bell.count)
          && decide (t.resumeAt.getD 0 ≤ s.bell.count) then
        openSlot (slotWork s p i y due) p i y
      else s
    | none => s)

/-- A slot's DEADLINE Bell (R268, R270, R276): a completed slot closes, a recess point where RECESS says so; a QUIZ slot
gives its cores back; one not completed times out from cycle 1 on. -/
def slotDeadline (s : State) (p : Nat) (y : Timetable) (o : OpenSlot) : State :=
  let k := slotAt y o.idx
  let close (s : State) : State := modTt s p (fun t => { t with open_ := eraseFirst (fun x => x.idx == o.idx && x.endB == o.endB) t.open_ })
  if k.kind == .quiz then close (quizSlotEnd s p o.idx)
  else if o.done then (if slotRecess y o then recessPoint (close s) p else close s)
  else if stampOf o.endB 0 < now s then overrun (close s) p o
  else s

/-- SLOT_DEADLINE (R276): the oldest open slot `i` of the partition reaches its DEADLINE Bell. -/
def execSlotDeadline (p i : Nat) (s : State) : Out :=
  .next (
    let s := judgeSlots s p
    match ttOf s p, (getPtn s p).tt.open_.find? (fun o => o.idx == i) with
    | some y, some o => if counting s && decide (o.endB ≤ s.bell.count) then slotDeadline s p y o else s
    | _, _ => s)

/-! ### The end of the running commands (R277, R278, R282, R412, R628) -/

/-- PARTITION_COMMANDS_ENDED (R628): the partition's last running command has ended: an aborted Lesson's contexts are
treated, a STOP of a Timetable that releases nothing ends it, a teardown goes on. -/
def execPartitionCommandsEnded (p : Nat) (s : State) : Out :=
  .next (
    if ptnRunning s p then s
    else
      let t := (getPtn s p).tt
      let s := if t.aborted && !t.settled then settleAbort s p else s
      let s := if t.state == .stopping && t.noRelease then endTt s p else s
      teardownProceed (heldIfDone s p) p)

end Sys2Proof.Machine
end

