-- ==== Sys2Proof/Machine/Bell.lean ====
section
/-! DEFINITION. The Bell (spec/08_bell_and_timetable.md R249-R261, R627): Bell instants, BELL frames, the measurement of
delays, the states of the domain, and the power governor (R274).
Readings and choices: log 43, 61, 64, 65, 66, 67, 133, 150. -/

namespace Sys2Proof.Machine

/-! ### The governor (R274, R283) -/

/-- The Bell, or while the counter does not count the interval of 2,048 cy, that the governor goes by (R274, R627). -/
def govTime (s : State) : Nat := beat s

/-- HOLD is entered and left at the Bell or interval that the averages have set (R274). -/
def govApply (s : State) : State :=
  let n := govTime s
  let s := match s.pwr.enterAt with
    | some b => if b ≤ n then
        let s := { s with pwr := { s.pwr with enterAt := none } }
        if s.pwr.hold then s
        else raise { s with pwr := { s.pwr with hold := true, holdSeen := true } } .powerHold { kind := .powerStage }
      else s
    | none => s
  match s.pwr.leaveAt with
  | some b => if b ≤ n then vatRestart { s with pwr := { s.pwr with leaveAt := none, hold := false } } else s
  | none => s

/-- The average of the last Bell is known (R274): above the cap HOLD is entered at the next Bell but for this one; two
averages at or below 95 % of the cap end it at the next. -/
def governor (s : State) (w : Nat) : State :=
  let s := if counting s then s else govApply s
  let cap := capWatts s
  let s := if s.pwr.hold then
      let s := { s with pwr := { s.pwr with govCount := satInc 32 s.pwr.govCount } }
      forEach (tkeys s.ptn) (fun s p => modTt s p (fun t =>
        if t.state == .running then { t with govhold := satInc 32 t.govhold } else t)) s
    else s
  let low := if w * 100 ≤ cap * 95 then s.pwr.lowRun + 1 else 0
  let n := govTime s
  { s with pwr := { s.pwr with
      lastW := min w 4095, lowRun := min low 2,
      enterAt := if cap < w then some (n + 1) else s.pwr.enterAt,
      leaveAt := if cap < w then none else if s.pwr.hold && decide (2 ≤ low) then some (n + 1) else s.pwr.leaveAt } }

/-- GOVERNOR_BELL_AVERAGE (R274): 256 cy into a Bell, the average input power of the one before, in W. -/
def execGovernorBellAverage (w : Nat) (s : State) : Out := .next (governor s w)

/-! ### The start of the counter (R257, R259, R627) -/

/-- The counter starts to count at cycle 0 of Bell `b`: what began while it stood still is reckoned from there (R627). -/
def startCounter (s : State) (b : Nat) : State :=
  let base := stampOf b 0
  let add (d : Option Nat) : Option Nat := d.map (fun x => x + base)
  -- what the governor's last interval has set comes at this Bell
  let first (d : Option Nat) : Option Nat := d.map (fun _ => b)
  { s with bell := { s.bell with count := b, sub := 0, state := .running },
           rc := { s.rc with waits := s.rc.waits.map (fun w => { w with
                     arrival := base, deadline := if w.tok.bellWait then w.deadline else add w.deadline }),
                             out := s.rc.out.map (fun o => { o with deadline := add o.deadline }) },
           pwr := { s.pwr with enterAt := first s.pwr.enterAt, leaveAt := first s.pwr.leaveAt },
           vat := { s.vat with fetches := s.vat.fetches.map (fun f => { f with start := some (f.start.getD b) }) } }

/-- The reference that REF_SRC selects is present (R256, R606, R493). -/
def refOk (s : State) : Bool :=
  match s.bell.cfg.refSrc with
  | 1 => s.bell.refPresent
  | 2 => cptUp s && !s.cpt.clkLost
  | _ => true

/-- The module is the source of its own Bell: a local Bell, the master, an acting master (R252, R257, R260). -/
def ownBell (s : State) : Bool := !s.bell.cfg.domainEn || s.bell.cfg.role == 1 || s.bell.actingMaster

/-! ### BELL frames (R253, R289) -/

/-- The upstream port that the module follows. -/
def activeUp (s : State) : Option Nat :=
  match s.bell.source with
  | 1 => some s.bell.cfg.upPort
  | 2 => some s.bell.cfg.altPort
  | _ => none

/-- SOURCE of the module's frames (R253, R260, R289): 0 of a master and an acting master, 1 of a deputy that has not taken over;
another module hands on the SOURCE of the stream that it follows. -/
def frameSource (s : State) : Nat :=
  if ownBell s then 0
  else if s.bell.cfg.role = 2 then 1
  else if s.bell.source = 2 then s.bell.alt.src else s.bell.prim.src

/-- DEPTH of the module's frames: regenerating hops from the master. -/
def frameDepth (s : State) : Nat :=
  if ownBell s then 0 else (if s.bell.source = 2 then s.bell.alt.depth else s.bell.prim.depth) + 1

/-- The BELL frame for a port at the present Bell (R289). -/
def bellFrame (s : State) (port : Nat) : List Byte :=
  syncFrame 1 (ownLmn s) 0x3FF 0 (bodyBits s.bell.count 223 160 + bodyBits (frameSource s) 159 159
    + bodyBits (Config.bellOffset s.bell.count port).toNat 158 143 + bodyBits (b2n s.bell.markLeft.isSome) 142 142
    + bodyBits (s.bell.markLeft.getD 0) 141 138 + bodyBits (frameDepth s) 137 134)

/-- At a Bell a domain's module emits a BELL frame on every port but the one it follows (R253, R257). -/
def emitBell (s : State) : State :=
  if !s.bell.cfg.domainEn then s
  else
    let ports := (countFrom 0 8).filter (fun p => portUsable s p && activeUp s != some p)
    forEach ports (fun s p => syncSend s p 1 (bellFrame s p)) s

/-- The delay in use moves towards the measured one by 1/16 cy (R254). -/
def slewDelay (u : Upstream) : Upstream :=
  if u.delay < u.target then { u with delay := u.delay + 1 }
  else if u.target < u.delay then { u with delay := u.delay - 1 } else u

/-- An offset between streams is slewed out by 1/16 cy (R260, R261). -/
def slewStep (x : Int) : Int := if 0 < x then x - 1 else if x < 0 then x + 1 else 0

/-! ### The Bell instant (R249) -/

/-- Every Bell is a recess point of the partition (R405). -/
def everyBell (s : State) (p : Nat) : Bool :=
  let q := getPtn s p
  let up := q.state == .active || q.state == .held || q.state == .teardown
  up && (q.tt.state == .idle || (q.tt.state == .held && q.tt.open_.isEmpty))

/-- A port is no Bell upstream (R254, R280): three measurements in a row have been discarded, or D is not measurable. -/
def Upstream.barred (u : Upstream) : Bool := u.untrusted || (u.measured && decide (0xFFFF ≤ u.delay))

/-- The stream has been missing for two Bells, or its port counts as one whose frames are missing (R254, R260, R280). -/
def gone (u : Upstream) : Bool := decide (2 ≤ u.missing) || u.barred

/-- A member follows the other stream (R260): the difference of the two is slewed out. -/
def switchTo (s : State) (alt : Bool) : State :=
  let d := s.bell.alt.instant - s.bell.prim.instant
  { s with bell := { s.bell with source := if alt then 2 else 1, switched := true, slew := if alt then d else -d } }

/-- What the loss of streams for two Bells leads to at the Bell that follows (R260, R261). -/
def streamLoss (s : State) : State :=
  let b := s.bell
  if !b.cfg.domainEn || b.state != .running || ownBell s then s
  else
    let primOk := !gone b.prim
    let altOk := b.cfg.altEn && !gone b.alt
    if b.cfg.role = 2 then
      if primOk then s
      else raise { s with bell := { b with actingMaster := true, source := 3, takeoverAt := some b.count } }
        .bellMasterLost { kind := .module }
    else if b.source = 1 ∧ !primOk ∧ altOk then switchTo s true
    else if b.source = 2 ∧ !altOk ∧ primOk then switchTo s false
    else if !primOk ∧ !altOk then
      { s with bell := { b with state := .holdover, holdoverSeen := true, holdoverBells := 0, source := 0 } }
    else s

/-- What a Bell does besides counting: streams that are lost (R260, R261), the governor, ports that become DARK (R439),
repairs of clusters of no partition (R29), registrations (R279, R407), recess points outside Lessons (R405),
a training run of open house (R393), frames. -/
def atBellInstant (s : State) : State :=
  let s := { s with bell := { s.bell with prim := slewDelay s.bell.prim, alt := slewDelay s.bell.alt, slew := slewStep s.bell.slew } }
  let s := streamLoss s
  let s := freeRepairs (darkDue (govApply s))
  let s := forEach (tkeys s.ctx) (fun s c =>
    match ptnOfCtx s c with
    | some p => registerBound s p c
    | none => s) s
  let s := forEach (tkeys s.ptn) (fun s p => if everyBell s p then recessPoint s p else s) s
  emitBell (ohBell s)

/-- A Bell instant (R249, R259): the counter counts on; in WAIT_START the start mark counts down, the Bell after the
sixteenth marked frame starts the domain at 0, and a module that came late starts with the number it has received. -/
def bellInstant (s : State) : State :=
  if counting s then
    let s := { s with bell := { s.bell with
      count := wrap 64 (s.bell.count + 1), sub := 0,
      holdoverBells := if s.bell.state == .holdover then s.bell.holdoverBells + 1 else 0 } }
    atBellInstant s
  else if s.bell.state == .waitStart then
    match s.bell.markLeft, s.bell.markRx with
    | some 0, _ => atBellInstant (startCounter { s with bell := { s.bell with
        markLeft := none, markRx := none, source := if ownBell s then 3 else s.bell.source } } 0)
    | _, some k => emitBell { s with bell := { s.bell with markLeft := some k, markRx := none } }
    | some (k + 1), none => emitBell { s with bell := { s.bell with markLeft := some k } }
    | none, none =>
      if !ownBell s && s.mod.ready && decide (0 < s.bell.rxBell) then atBellInstant (startCounter s s.bell.rxBell)
      else emitBell s
  else s

/-- BELL (R249). -/
def execBell (s : State) : Out := .next (bellInstant s)

/-- One core cycle (R249): the sync lanes send, the sub-Bell counter counts to 2,047, and a Bell instant follows. -/
def tick (s : State) : State :=
  let s := laneTick { s with cyc := s.cyc + 1 }
  if counting s then
    if s.bell.sub < 2047 then { s with bell := { s.bell with sub := s.bell.sub + 1 } } else bellInstant s
  else if s.cyc % 2048 = 0 then freeRepairs (darkDue (govApply s)) else s

/-! ### Streams (R253, R260, R261) -/

/-- Changes the upstream of a stream: the primary one, or the alternate. -/
def modUp (s : State) (alt : Bool) (f : Upstream → Upstream) : State :=
  if alt then { s with bell.alt := f s.bell.alt } else { s with bell.prim := f s.bell.prim }

/-- The stream that a port carries, where one is configured there; the master follows none. -/
def streamOf (s : State) (port : Nat) : Option Bool :=
  if !s.bell.cfg.domainEn || s.bell.cfg.role == 1 then none
  else if port = s.bell.cfg.upPort then some false
  else if s.bell.cfg.altEn && port == s.bell.cfg.altPort then some true else none

/-- TRIM of a stream in 1/16 cy (R254, R280). -/
def trimOf (s : State) (alt : Bool) : Int := signed 16 (if alt then s.bell.trimA else s.bell.trimP)

/-- A BELL frame of a stream that the module tracks is taken (R253, R259, R261); after HOLDOVER the module slews back what it has
drifted, a free value. -/
def bellFrameIn (s : State) (alt : Bool) (f : List Byte) : State :=
  let b := frameBits f 223 160
  let u := if alt then s.bell.alt else s.bell.prim
  let inst : Int := (frameBits f 158 143 : Int) - (u.delay : Int) + trimOf s alt
  let s := modUp s alt (fun u => { u with missing := 0, instant := inst, depth := frameBits f 137 134, src := frameBits f 159 159 })
  let src := if alt then 2 else 1
  let follow (s : State) : State := { s with bell := { s.bell with source := src, rxBell := b } }
  match s.bell.state with
  | .waitStart =>
    if s.bell.source = 0 ∨ s.bell.source = src then
      let s := follow s
      if frameBits f 142 142 = 1 then { s with bell.markRx := some (frameBits f 141 138) } else s
    else s
  | .running => if s.bell.source = src then { s with bell.rxBell := b } else s
  | .holdover =>
    if s.bell.holdoverBells < s.bell.holdLimit then
      let back : BellBlk := { s.bell with
        state := .running, holdoverBells := 0, slew := (Config.holdoverDrift s.bell.count).toInt }
      follow { s with bell := back }
    else s
  | .lost =>
    let own := wrap 64 (s.bell.count + 1)
    let s := follow { s with bell := { s.bell with state := .running, count := wrap 64 (2 ^ 64 - 1 + b) } }
    if own = b then s else raise { s with bell.stepped := true } .bellStep { kind := .module }
  | _ => s

/-- BELL_FRAME_RECEIVE (R253): a BELL frame arrives at a port; a module outside a domain ignores it (R257), and one on a port that
is no upstream counts as missing (R254, R280). -/
def execBellFrameReceive (port : Nat) (f : List Byte) (s : State) : Out :=
  .next (takeFrame s f 1 (frameBits f 133 32 == 0 && decide (frameBits f 137 134 ≤ 8)) (fun s =>
    match streamOf s port with
    | some alt => if (if alt then s.bell.alt else s.bell.prim).barred then s else bellFrameIn s alt f
    | none => s))

/-- BELL_FRAME_MISSING (R260): the frame of the primary or the alternate stream has not come within ±16 cy. What the second one in a
row leads to comes at the next Bell. -/
def execBellFrameMissing (alt : Bool) (s : State) : Out :=
  .next (
    if !s.bell.cfg.domainEn || s.bell.cfg.role == 1 || (alt && !s.bell.cfg.altEn) || !counting s then s
    else
      let s := modUp s alt (fun u => { u with missing := u.missing + 1 })
      { s with bell.missed := satInc 32 s.bell.missed })

/-- HOLDOVER_LIMIT (R261): the limit passes with no stream: LOST, and the partitions of Forms are held (R399). -/
def execHoldoverLimit (s : State) : Out :=
  .next (
    if s.bell.state == .holdover && decide (s.bell.holdLimit ≤ s.bell.holdoverBells) then
      let s := raise { s with bell.state := .lost } .bellLost { kind := .module }
      forEach (tkeys s.ptn) (fun s p => if inForm s p then setHold s p causeBellLost else s) s
    else s)

/-! ### Lock, start mark, local Bell (R257, R259) -/

/-- The delay of every configured upstream port has been measured, and each is usable (R259, R280). -/
def delaysKnown (s : State) : Bool :=
  let known (u : Upstream) : Bool := u.measured && !u.barred
  s.bell.cfg.role == 1 || (known s.bell.prim && (!s.bell.cfg.altEn || known s.bell.alt))

/-- A domain's module goes from LOCKING to WAIT_START (R259). -/
def lockCheck (s : State) : State :=
  if s.bell.cfg.domainEn && s.bell.state == .locking && s.bell.pllLocked && delaysKnown s then
    { s with bell.state := .waitStart } else s

/-- PLL_LOCK (R259): the PLL locks to its source, where that is present (R256). -/
def execPllLock (s : State) : Out :=
  .next (if refOk s || !ownBell s then lockCheck { s with bell.pllLocked := true } else s)

/-- The neighbours at every port in use, or the spares that stand for them, report READY (R259, R288). -/
def membersReady (s : State) : Bool :=
  (countFrom 0 8).all (fun p => !portUsable s p || (match tget none s.rc.neighbours p with
    | some m => m.ready || s.bell.covered.contains m.lmn
    | none => false))

/-- DOMAIN_START_MARK (R259): the master, READY with every member covered, begins the start mark: sixteen frames, MARK_LEFT
15 down to 0. -/
def execDomainStartMark (s : State) : Out :=
  .next (
    if s.bell.cfg.domainEn && s.bell.cfg.role == 1 && s.bell.state == .waitStart && s.mod.ready && membersReady s
        && s.bell.markLeft.isNone then { s with bell.markLeft := some 16 } else s)

/-- LOCAL_BELL_START (R257): without a domain the counter starts at 0, STATE RUNNING and SOURCE 3. -/
def execLocalBellStart (s : State) : Out :=
  .next (
    if !s.bell.cfg.domainEn && s.bell.state == .locking && s.mod.ready && s.bell.pllLocked && refOk s then
      atBellInstant (startCounter { s with bell.source := 3 } 0)
    else s)

/-! ### Delays (R254, R290) -/

/-- DELAY_MEASUREMENT (R254): a PROBE leaves on an upstream port at T1. -/
def execDelayMeasurement (alt : Bool) (t1 : Nat) (s : State) : Out :=
  .next (
    if !s.bell.cfg.domainEn || s.bell.cfg.role == 1 || (alt && !s.bell.cfg.altEn) then s
    else
      let port := if alt then s.bell.cfg.altPort else s.bell.cfg.upPort
      let q := s.bell.probeSeq
      let s := modUp { s with bell.probeSeq := wrap 16 (q + 1) } alt (fun u => { u with probe := some (q, t1 % 2 ^ 48) })
      syncSend s port 7 (syncFrame 7 (ownLmn s) 0x3FF 0 (bodyBits t1 223 176 + bodyBits q 175 160)))

/-- PROBE_RECEIVE (R290): a PROBE that arrives at T2 is answered with an ECHO that leaves at T3. -/
def execProbeReceive (port : Nat) (f : List Byte) (t2 t3 : Nat) (s : State) : Out :=
  .next (takeFrame s f 7 (frameBits f 159 32 == 0) (fun s =>
    syncSend s port 8 (syncFrame 8 (ownLmn s) 0x3FF 0 (bodyBits (frameBits f 223 176) 223 176
      + bodyBits (frameBits f 175 160) 175 160 + bodyBits t2 159 112 + bodyBits t3 111 64))))

/-- D of four stamps modulo 2^48 (R254); one that is not below 0xFFFF is not measurable (R280). -/
def delayOf (t1 t2 t3 t4 : Nat) : Nat :=
  let m := 2 ^ 48
  let turn := (t3 + m - t2 % m) % m
  let all := (t4 + m - t1 % m) % m
  min 0xFFFF (((all + m - turn) % m) / 2)

/-- A measured D (R254): more than 16 cy from the last one it is discarded, and three discards in a row make the port one whose
frames are missing, until a measurement is taken again; otherwise the delay in use moves towards it where it differs by more than 1/16 cy. -/
def takeDelay (s : State) (alt : Bool) (d : Nat) : State :=
  let u := if alt then s.bell.alt else s.bell.prim
  if !u.measured then
    lockCheck (modUp s alt (fun u => { u with measured := true, delay := d, target := d, last := d, discards := 0 }))
  else if 256 < max d u.last - min d u.last then
    let s := { s with bell.missed := satInc 32 s.bell.missed }
    modUp s alt (fun u => { u with discards := u.discards + 1, untrusted := u.untrusted || decide (2 < u.discards + 1) })
  else modUp s alt (fun u => { u with
    last := d, discards := 0, untrusted := false, target := if 1 < max d u.delay - min d u.delay then d else u.target })

/-- ECHO_RECEIVE (R254): the answer to a PROBE arrives at T4. -/
def execEchoReceive (port : Nat) (f : List Byte) (t4 : Nat) (s : State) : Out :=
  .next (takeFrame s f 8 (frameBits f 63 32 == 0) (fun s =>
    match streamOf s port with
    | none => s
    | some alt =>
      let u := if alt then s.bell.alt else s.bell.prim
      if u.probe = some (frameBits f 175 160, frameBits f 223 176) then
        takeDelay (modUp s alt (fun u => { u with probe := none })) alt
          (delayOf (frameBits f 223 176) (frameBits f 159 112) (frameBits f 111 64) t4)
      else s))

/-! ### The reference (R606) -/

/-- BELL_REF_LOSS (R606): no edge for 1 us: absent; the PLL holds its frequency. -/
def execBellRefLoss (s : State) : Out := .next { s with bell.refPresent := false }
/-- BELL_REF_RETURN (R606): the reference is taken again. -/
def execBellRefReturn (s : State) : Out := .next { s with bell.refPresent := true }

end Sys2Proof.Machine
end

