-- ==== Sys2Proof/Machine/Transfer.lean ====
section
/-! DEFINITION. The transfer engines and the receive engine (spec/14_multi_module_jobs.md R454-R463, spec/09 R306-R310): XFER
descriptors, sends, credits, landing, run-ahead tiles, fetches, tree nodes over gradient panels.
Readings and choices: log 39, 40, 88, 89, 90, 91, 92, 93, 94, 95, 149, 154. -/

namespace Sys2Proof.Machine

/-! ### XFER descriptors (R454-R456) -/

/-- An XFER's fields (R454); `resOk` says that its reserved bits are 0. -/
structure Xfer where
  op : Nat := 0
  exch : Bool := false
  runahead : Bool := false
  epoch : Nat := 0
  exp : Nat := 0
  ptn : Nat := 0
  ctx : Nat := 0
  lmn : Nat := 0
  pool : Nat := 0
  done : Nat := 0xFFFF
  seq : Nat := 0
  rsem : Nat := 0xFFFF
  src : Nat := 0
  dst : Nat := 0
  src2 : Nat := 0
  len : Nat := 0
  spool : Nat := 0
  pb : Nat := 0
  resOk : Bool := true
deriving DecidableEq, Repr, Inhabited

/-- Reads an XFER (R454). -/
def parseXfer (d : List Byte) : Xfer :=
  let w := descWord d
  { op := bits (w 0) 0 8, exch := bitOf (w 0) 8, runahead := bitOf (w 0) 9, epoch := bits (w 0) 16 8, exp := bits (w 0) 24 8,
    ptn := bits (w 1) 0 6, ctx := bits (w 1) 6 12, lmn := bits (w 1) 18 10, pool := bits (w 2) 0 13, done := bits (w 2) 16 16,
    seq := bits (w 3) 0 16, rsem := bits (w 3) 16 16, src := field d 16 8, dst := field d 24 8, src2 := field d 32 8,
    len := w 10, spool := bits (w 11) 0 13, pb := bits (w 11) 16 16,
    resOk := bits (w 0) 10 6 == 0 && bits (w 1) 28 4 == 0 && bits (w 2) 13 3 == 0 && bits (w 11) 13 3 == 0
      && w 12 == 0 && w 13 == 0 && w 14 == 0 }

def xSend : Nat := 1
def xFetch : Nat := 2
def xCopy : Nat := 3
def xNode : Nat := 4
def xDigest : Nat := 5
def xRetract : Nat := 6

/-- Bytes of a panel as PANEL_BYTES gives it. -/
def Xfer.panel (x : Xfer) : Nat := 64 * x.pb
/-- The exchange exponent, signed (R454). -/
def Xfer.expInt (x : Xfer) : Int := signed 8 x.exp

/-- Fields against R454 and R455: reserved encodings, fields that an operation does not use, LEN, panels. -/
def xferFieldsOk (x : Xfer) : Bool :=
  let send := x.op == xSend
  let fetch := x.op == xFetch
  decide (1 ≤ x.op) && decide (x.op ≤ 6) && x.resOk && (send || (!x.exch && !x.runahead)) && (x.exch || x.exp == 0)
    && (send || fetch || x.lmn == 0x3FF) && (send || x.op == xRetract || x.pool == 0) && (x.op == xNode || x.src2 == 0)
    && (fetch || x.spool == 0)
    && (x.op == xRetract || (x.len % 64 == 0 && decide (64 ≤ x.len) && decide (x.len ≤ 2 ^ 26)))
    && (!(send || fetch) || (x.dst % 64 == 0 && decide (x.dst < 2 ^ 32)))
    && (if x.exch || x.op == xNode then x.pb != 0 else x.op == xCopy || x.op == xDigest || x.pb == 0)
    && (x.pb == 0 || x.len % x.panel == 0)

/-! ### Ranges (R327, R463) -/

/-- Where a range of an XFER lies: in the issuer's windows, or in the image and gradient ranges of a staging entry, under
its owner's key (R463). -/
inductive XPlace where
  | win (p : Place)
  | stg (la ctx : Nat)
deriving DecidableEq, Repr

/-- The extent of a READY staging entry's ranges: up to the next staged image or the end of the window (R463). -/
def stgExtent (s : State) (p : Nat) (w : Win) (g : StgEnt) : Nat :=
  let stop := addrOf (w.mem, w.base) + w.size
  let imgs := ((countFrom 0 (adaptMax s p)).map (fun k => parseStg (readStg s p k))).filter (fun e => e.state != 0)
  (imgs.map StgEnt.image).foldl (fun m a => if g.image < a ∧ a < m then a else m) stop - g.image

/-- The owner of the READY staging entry whose ranges hold a local range (R463). -/
def stgOwner (s : State) (p la n : Nat) : Option Nat :=
  match stagingWin s p with
  | none => none
  | some w =>
    let es := ((countFrom 0 (adaptMax s p)).map (readStg s p)).filter (fun b => stgOk b && (parseStg b).state == 2)
    ((es.map parseStg).find? (fun g => decide (g.image ≤ la) && decide (la + n ≤ g.image + stgExtent s p w g))).map
      (fun g => tagCtx g.owner)

/-- A range of an XFER with the right it needs (R327, R345, R463, R629). -/
def xPlace (s : State) (i : Issuer) (r : Right) (ga n : Nat) : Option XPlace :=
  match checkOther s i r ga n with
  | some p => some (.win p)
  | none =>
    match i.mmode, localAddr s ga with
    | true, some la => (stgOwner s i.ptn la n).map (.stg la)
    | _, _ => none

/-- Reads a range, and whether a word of it was uncorrectable (R528). -/
def xRead (s : State) (i : Issuer) (x : XPlace) (n : Nat) : State × List Byte × Bool :=
  match x with
  | .win p => let r := readAs s i p n; (r.st, r.bytes, r.ue.isSome)
  | .stg la c =>
    match placeOf none la with
    | some p =>
      let (s, ue) := readErrs s p n false
      (s, readUnder s (ctxKey s c) la n, ue.isSome)
    | none => (s, List.replicate n 0, false)

/-- Writes a range. -/
def xWrite (s : State) (i : Issuer) (x : XPlace) (bs : List Byte) : State :=
  match x with
  | .win p => writeAs s i p bs
  | .stg la c => writeUnder s (ctxKey s c) la bs

/-- The place `k` bytes on. -/
def XPlace.add (x : XPlace) (k : Nat) : XPlace :=
  match x with
  | .win p => .win (p.1, p.2 + k)
  | .stg la c => .stg (la + k) c

/-- A source range of an XFER fails its check. -/
def xSrcFault (s : State) (i : Issuer) (ga n : Nat) : Option FaultCode :=
  if (xPlace s i .read ga n).isSome then none else some .xferInvalid

/-- A destination range of an XFER fails its check: RIND_WRITE where it meets Rind (R213, R629). -/
def xDstFault (s : State) (i : Issuer) (ga n : Nat) : Option FaultCode :=
  match itemPlace s none ga n with
  | none => some .xferInvalid
  | some p =>
    if meetsRind s p n then some .rindWrite
    else if (xPlace s i .write ga n).isSome then none else some .xferInvalid

/-- The address checks of R456 over every range that the operation uses. -/
def xAddrFault (s : State) (i : Issuer) (x : Xfer) : Option FaultCode :=
  match x.op with
  | 1 => xSrcFault s i x.src x.len
  | 3 => worst [xSrcFault s i x.src x.len, xDstFault s i x.dst x.len]
  | 4 => worst [xSrcFault s i x.src x.len, xSrcFault s i x.src2 x.len, xDstFault s i x.dst x.len]
  | 5 => worst [xSrcFault s i x.src x.len, xDstFault s i x.dst 32]
  | _ => none

/-! ### Panels (R149, R207, R457, R458, R461) -/

/-- The offsets of the panels of a range. -/
def panelOffs (x : Xfer) : List Nat := if x.pb = 0 then [] else (countFrom 0 (x.len / x.panel)).map (fun k => k * x.panel)

/-- The 32-bit payload values of a gradient panel. -/
def panelWords (bs : List Byte) : List Word :=
  (countFrom 0 ((bs.length - 64) / 4)).map (fun k => BitVec.ofNat 32 (field bs (64 + 4 * k) 4))

/-- The number of values that a gradient panel's header gives, as far as its payload reaches (R207). -/
def panelCount (bs : List Byte) : Nat := min (field bs 2 1 * field bs 3 1) ((bs.length - 64) / 4)

/-- A panel with its CRC made anew (R149, R207). -/
def panelSeal (bs : List Byte) : List Byte :=
  let z := patch bs 0x3C [0, 0, 0, 0]
  patch z 0x3C (leBytes 4 (crc32c z))

/-- A panel in exchange form: its header unchanged, its values narrowed (R76, R457). -/
def panelNarrow (e : Int) (bs : List Byte) : List Byte :=
  bs.take 64 ++ ((panelWords bs).map (fun g => leBytes 2 (exchangeSend e g).toNat)).flatten

/-- A panel as it lands: its values widened, its owner the buffer's context, SQSUM and CRC anew (R458). -/
def panelWiden (e : Int) (ctx : Nat) (bs : List Byte) : List Byte :=
  let hs := (countFrom 0 ((bs.length - 64) / 2)).map (fun k => (BitVec.ofNat 16 (field bs (64 + 2 * k) 2) : Half))
  let vs := hs.map (exchangeRecv e)
  let hd := patch (bs.take 64) 4 (leBytes 2 (mkTag ctx))
  let full := hd ++ (vs.map (fun v => leBytes 4 v.toNat)).flatten
  panelSeal (patch full 0x14 (leBytes 4 (sqSum (vs.take (panelCount full))).toNat))

/-- The adapter entry that a gradient panel belongs to: ADAPTER_ID, LAYER, SEL, ROLE (R456). -/
def panelEntry (bs : List Byte) : Nat × Nat × Nat × Nat := (field bs 8 3, field bs 6 1, field bs 7 1, field bs 1 1)

/-- The header fields of a pair of panels that NODE requires to be equal (R461). -/
def nodeKey (bs : List Byte) : List Nat :=
  [field bs 1 1, field bs 2 1, field bs 3 1, field bs 4 2, field bs 6 1, field bs 7 1, field bs 8 3, field bs 0xC 2, field bs 0xE 2,
   field bs 0x18 4]

/-- The sum of two gradient panels (R461). -/
def nodePanel (l r : List Byte) : List Byte :=
  let vs := List.zipWith add32 (panelWords l) (panelWords r)
  let full := l.take 64 ++ (vs.map (fun v => leBytes 4 v.toNat)).flatten
  let full := patch full 0x10 (leBytes 4 (field l 0x10 4 + field r 0x10 4))
  panelSeal (patch full 0x14 (leBytes 4 (sqSum (vs.take (panelCount full))).toNat))

/-! ### The end of an XFER (R456, R459, R474, R631) -/

/-- STATUS of CORE_XFER_STATUS (R474). -/
def xsOk : Nat := 0
def xsAborted : Nat := 1
def xsTooLate : Nat := 2
def xsRejected : Nat := 3
def xsOperand : Nat := 4
def xsAbortReset : Nat := 5

/-- The running XFER of a core ends: CORE_XFER_STATUS and DONE_SEM (R456, R459, R474). -/
def xferEnd (s : State) (core status fault : Nat) (flag : DoneFlag) : State :=
  match (getCore s core).xferRun with
  | none => s
  | some e =>
    let x := parseXfer e.desc
    let s := modCore s core (fun c => { c with
      xferRun := none, xLastOp := x.op, xFaultValid := c.xFaultValid || status != 0,
      xStatus := if status = 0 then c.xStatus else status, xFault := if status = 0 then c.xFault else fault % 4096 })
    doneAdd s e.issuer.ptn x.done flag

/-- The running XFER of a core ends with a fault that is raised. -/
def xferFail (s : State) (i : Issuer) (status : Nat) (c : FaultCode) (detail : List Byte) : State :=
  xferEnd (raise s c (coreAt s i detail)) i.core status c.code .rej

/-! ### Credits (R306, R307) -/

/-- Credits that a length takes (R306). -/
def creditsOf (n : Nat) : Nat := ceilDiv n 1024

/-- Credits go back to a sender's pool: a CREDIT frame by the route, or at once on loopback (R306). -/
def returnCredits (s : State) (src pool ctx n : Nat) : State :=
  if n = 0 then s
  else if isOwnLmn s src then creditIn s pool n ctx
  else syncRoute s 4 src (bodyBits pool 223 211 + bodyBits n 210 195 + bodyBits ctx 194 183)

/-! ### Send headers (R457) -/

/-- A send header's fields. -/
structure SendHdr where
  kind : Nat := 1
  exch : Bool := false
  runahead : Bool := false
  exp : Nat := 0
  ctx : Nat := 0
  buffer : Nat := 0
  offset : Nat := 0
  len : Nat := 0
  rsem : Nat := 0xFFFF
  seq : Nat := 0
  form : Nat := 0
  pb : Nat := 0
  addr : Nat := 0
deriving DecidableEq, Repr, Inhabited

/-- The 64 bytes of a send header. -/
def SendHdr.bytes (h : SendHdr) : List Byte :=
  withCrcTail (slice (leBytes 1 1 ++ leBytes 1 h.kind ++ leBytes 1 (b2n h.exch + 2 * b2n h.runahead) ++ leBytes 1 h.exp
    ++ leBytes 2 h.ctx ++ leBytes 2 h.buffer ++ leBytes 4 h.offset ++ leBytes 4 h.len ++ leBytes 2 h.rsem ++ leBytes 2 h.seq
    ++ leBytes 2 h.form ++ leBytes 2 h.pb ++ leBytes 8 h.addr) 0 64) 60

/-- Reads a send header. -/
def parseSend (bs : List Byte) : SendHdr :=
  { kind := field bs 1 1, exch := bitOf (field bs 2 1) 0, runahead := bitOf (field bs 2 1) 1, exp := field bs 3 1,
    ctx := field bs 4 2 % 4096, buffer := field bs 6 2 % 8192, offset := field bs 8 4, len := field bs 0xC 4, rsem := field bs 0x10 2,
    seq := field bs 0x12 2, form := field bs 0x14 2 % 4096, pb := field bs 0x16 2, addr := field bs 0x18 8 }

/-- SH_CRC holds, the version and kind are defined, reserved fields are 0 (R457, R458). -/
def sendHdrOk (bs : List Byte) : Bool :=
  decide (64 ≤ bs.length) && crcTailOk (bs.take 64) 60 && field bs 0 1 == 1 && decide (1 ≤ field bs 1 1) && decide (field bs 1 1 ≤ 4)
    && field bs 2 1 / 4 == 0 && field bs 4 2 / 4096 == 0 && field bs 6 2 / 8192 == 0 && field bs 0x14 2 / 4096 == 0
    && allZero (slice bs 0x20 0x1C)

/-! ### Sending (R306, R457, R459) -/

/-- The open slot of a partition that started last. -/
def lastSlot (s : State) (p : Nat) : Option OpenSlot := (getPtn s p).tt.open_.getLast?

/-- A complete send that stays for a while as one that may be retracted (R309). -/
def sendGone (s : State) (x : Send) : State :=
  let live := s.xf.gone.filter (fun g => match g.left with | some t => decide (now s ≤ t + 1984) | none => false)
  { s with xf.gone := if x.runahead then live ++ [{ x with core := none, wire := [] }] else live }

/-- A send leaves the list of those under way and its XFER ends (R459). -/
def finishSend (s : State) (x : Send) : State :=
  let s := sendGone { s with xf.sends := eraseFirst (· == x) s.xf.sends } x
  match x.core with
  | some c => if x.failed then xferEnd s c xsAborted 0 .abt else xferEnd s c xsOk 0 .plain
  | none => s

/-- A send that holds its credits leaves: by loopback into the receive engine (R455), or as frames on the port of its route
(R441), which it keeps. -/
def launchSend (s : State) (x : Send) : State :=
  let rest := eraseFirst (· == x) s.xf.sends
  if isOwnLmn s x.lmn then
    let r : Recv := { src := x.lmn, pool := x.pool, seq := x.seq, data := x.wire, next := 1, stamp := now s, whole := true }
    let b := headerBuf x.wire
    let s := { s with xf.sends := rest }
    let s := match b with
      | some k => if (getBuf s k).bound && (getBuf s k).closed then closedFrame s k
                  else { modBuf s k (fun y => if y.bound then { y with lastFrame := now s } else y) with
                         xf.recv := s.xf.recv ++ [r] }
      | none => { s with xf.recv := s.xf.recv ++ [r] }
    finishSend s { x with need := 0, wire := [], left := some (now s) }
  else match routePort s x.lmn with
  | none =>
    finishSend (raise { s with xf.sends := rest } .routeNone { kind := .module, ptn := x.ptn, ctx := x.ctx }) { x with failed := true }
  | some p =>
    let y := { x with need := 0, wire := [], port := some p }
    portQueue { s with xf.sends := rest ++ [y] } p (sendFrames s p x.lmn x.pool x.seq x.runahead x.wire)

/-- A send begins: it takes its credits, or waits while its pool holds fewer (R306). -/
def beginSend (s : State) (x : Send) : State :=
  let s := { s with xf.sends := s.xf.sends ++ [x] }
  if x.need ≤ (getPool s x.pool).credits ∨ x.need = 0 then
    launchSend (if x.need = 0 then s else modPool s x.pool (fun p => { p with credits := p.credits - x.need })) x
  else s

/-- SEND_CREDITS_AVAILABLE (R306): the oldest send that waits on a pool whose credits are now enough proceeds. -/
def execSendCreditsAvailable (pool : Nat) (s : State) : Out :=
  .next (match s.xf.sends.find? (fun x => x.need != 0 && x.pool == pool) with
    | some x =>
      if x.need ≤ (getPool s pool).credits then
        launchSend (modPool s pool (fun p => { p with credits := p.credits - x.need })) x
      else s
    | none => s)

/-- Frames of a send on its port: waiting ones, and sent ones not acknowledged. -/
def sendOpen (s : State) (x : Send) : Bool :=
  match x.port with
  | none => false
  | some p => (fabPort s p).txq.any (fun t => t.inPort.isNone && frameKey t.f == x.key)
      || (fabPort s p).sent.any (fun f => f.src == ownLmn s && frameKey f == x.key)

/-- SEND_COMPLETE (R459): the send's last frame has been acknowledged on the first hop, or its port left UP and DEGRADED
before that. -/
def execSendComplete (lmn pool seq : Nat) (s : State) : Out :=
  .next (match s.xf.sends.find? (fun x => x.key == (lmn, pool, seq) && x.need == 0) with
    | some x => if x.failed || !sendOpen s x then finishSend s x else s
    | none => s)

/-! ### The operations (R455, R457, R460, R461) -/

/-- Panels of a range one after another: `f` makes the bytes of each, or fails (R455, R461). -/
def eachPanel (f : State → Nat → State × Option (List Byte)) : State → List Nat → State × Except Nat (List (List Byte))
  | s, [] => (s, .ok [])
  | s, o :: os =>
    match f s o with
    | (s, none) => (s, .error o)
    | (s, some b) =>
      match eachPanel f s os with
      | (s, .ok bs) => (s, .ok (b :: bs))
      | (s, .error e) => (s, .error e)

/-- DETAIL of XFER_OPERAND: the panel's address (R545). -/
def panelDetail (s : State) (ga : Nat) : List Byte := tileDetail s ga 0 4 false

/-- The send of an XFER. -/
def xferSend (s : State) (i : Issuer) (x : Xfer) (h : SendHdr) (body : List Byte) (need : Nat) : State :=
  beginSend s { core := some i.core, ptn := i.ptn, ctx := x.ctx, lmn := x.lmn, pool := x.pool, seq := x.seq, runahead := x.runahead,
                need := need, wire := h.bytes ++ body, slot := lastSlot s i.ptn }

/-- The header of an XFER's send (R457). -/
def xferHdr (s : State) (i : Issuer) (x : Xfer) : SendHdr :=
  { kind := if x.op = xFetch then 2 else 1, exch := x.exch, runahead := x.runahead, exp := x.exp, ctx := x.ctx,
    buffer := if x.op = xFetch then x.spool else (getPool s x.pool).link, offset := x.dst, len := x.len, rsem := x.rsem,
    seq := x.seq, form := formOf s i.ptn, pb := x.pb, addr := if x.op = xFetch then x.src else 0 }

/-- SEND (R455, R457, R528). -/
def runSend (s : State) (i : Issuer) (x : Xfer) (p : XPlace) : State :=
  if x.exch then
    match eachPanel (fun s o =>
        let (s, bs, _) := xRead s i (p.add o) x.panel
        (s, if panelCrcOk bs then some (panelNarrow x.expInt bs) else none)) s (panelOffs x) with
    | (s, .ok ps) => xferSend s i x (xferHdr s i x) ps.flatten (creditsOf x.len)
    | (s, .error o) => xferFail s i xsOperand .xferOperand (panelDetail s (x.src + o))
  else
    match xRead s i p x.len with
    | (s, _, true) => xferEnd s i.core xsOperand FaultCode.memUe.code .rej
    | (s, bs, false) => xferSend s i x (xferHdr s i x) bs (creditsOf x.len)

/-- FETCH (R460): a FETCH_REQ, which takes no credits. -/
def runFetch (s : State) (i : Issuer) (x : Xfer) : State := xferSend s i x (xferHdr s i x) [] 0

/-- COPY (R455): a raw range whole, or panel by panel with the owner rewritten. -/
def runCopy (s : State) (i : Issuer) (x : Xfer) (p q : XPlace) : State :=
  if x.pb = 0 then
    match xRead s i p x.len with
    | (s, _, true) => xferEnd s i.core xsOperand FaultCode.memUe.code .rej
    | (s, bs, false) => xferEnd (xWrite s i q bs) i.core xsOk 0 .plain
  else
    match eachPanel (fun s o =>
        let (s, bs, _) := xRead s i (p.add o) x.panel
        if panelCrcOk bs then
          let b := panelSeal (patch bs 4 (leBytes 2 (mkTag x.ctx)))
          (xWrite s i (q.add o) b, some b)
        else (s, none)) s (panelOffs x) with
    | (s, .ok _) => xferEnd s i.core xsOk 0 .plain
    | (s, .error o) => xferFail s i xsOperand .xferOperand (panelDetail s (x.src + o))

/-- NODE (R461). -/
def runNodeX (s : State) (i : Issuer) (x : Xfer) (p p2 q : XPlace) : State :=
  match eachPanel (fun s o =>
      let (s, l, _) := xRead s i (p.add o) x.panel
      let (s, r, _) := xRead s i (p2.add o) x.panel
      if panelCrcOk l && panelCrcOk r && nodeKey l == nodeKey r then
        let b := nodePanel l r
        (xWrite s i (q.add o) b, some b)
      else (s, none)) s (panelOffs x) with
  | (s, .ok _) => xferEnd s i.core xsOk 0 .plain
  | (s, .error o) => xferFail s i xsOperand .xferOperand (panelDetail s (x.src + o))

/-! ### Replica digests (R471, R472) -/

/-- What a compare of digests is about (R471): the owner's state block and staging entry, the ranks digested, and the digests of the
holders of replicas, by LMN; at a holder whose re-fetched replica differs again, the owner's LMN (R472). -/
structure ReplicaCheck where
  psb : Nat := 0
  stg : Nat := 0
  first : Nat := 0
  count : Nat := 0
  digests : List (Nat × List Byte) := []
  again : Option Nat := none
deriving DecidableEq, Repr, Inhabited

/-- The state block that a replica check names, with its panels. -/
def ownerRun (s : State) (i : Issuer) (x : Xfer) (rc : ReplicaCheck) : PRun :=
  let r : PRun := { d := { ctx := x.ctx, ptn := x.ptn, state := rc.psb }, i := { i with ctx := x.ctx, ctxOn := true },
                    region := i.core / 64 }
  let raw := (pGet s r rc.psb 0x1C0).2
  let r := { r with raw := raw, h := parsePsb raw, stg := parseStg (readStg s x.ptn rc.stg) }
  { r with panels := (psbPanels s r).2 }

/-- CRC_MASTER of a panel holds. -/
def masterHolds (s : State) (r : PRun) (p : PPanel) : Bool :=
  crc32c (arrayIn s r r.h.master p).2 == (pwordIn s r p.rank).2.crcM

/-- The values of a panel's master, rounded to the working copy. -/
def masterCopy (s : State) (r : PRun) (p : PPanel) : List Half := (words (arrayIn s r r.h.master p).2 0 p.n).map narrow32

/-- PANEL_CRC of a working copy holds and each of its elements is RNE16 of the master. -/
def copyHolds (s : State) (r : PRun) (p : PPanel) : Bool :=
  match (itemGet s r p.wc p.wcLen).2 with
  | some bs => field bs 0x3C 4 == crc32c (patch bs 0x3C [0, 0, 0, 0]) && halves bs p.hdrLen p.n == masterCopy s r p
  | none => false

/-- The owner's check of its shard, as the action that follows: 1 re-fetch, 2 rewrite, 3 restore (R472, R545). -/
def ownerAction (s : State) (r : PRun) (ps : List PPanel) : Nat :=
  if !ps.all (masterHolds s r) then 3 else if ps.all (copyHolds s r) then 1 else 2

/-- The working copy of a panel made anew from its master (R472). -/
def rewriteCopy (s : State) (r : PRun) (p : PPanel) : State :=
  match itemGet s r p.wc p.wcLen with
  | (s, some bs) => itemPut s r p.wc (wcWith p bs (masterCopy s r p))
  | (s, none) => s

/-- REPLICA_MISMATCH, with the shard, both LMNs and the action (R472, R545). -/
def replicaFault (s : State) (x : Xfer) (tensor rank holder owner action : Nat) : State :=
  raise s .replicaMismatch { kind := .module, ptn := x.ptn, ctx := x.ctx,
                             detail := leBytes 4 tensor ++ leBytes 4 rank ++ leBytes 2 holder ++ leBytes 2 owner ++ leBytes 1 action }

/-- What follows from the action (R472): the copy is rewritten, or PRESS_STATE holds the context. -/
def ownerRepair (s : State) (r : PRun) (ps : List PPanel) (action : Nat) : State :=
  if action = 2 then forEach ps (fun s p => rewriteCopy s r p) s
  else if action = 3 then
    modCtx (raise s .pressState { kind := .press, unit := r.region, epoch := (getPrs s r.region).epoch, ptn := r.i.ptn,
                                  ctx := r.d.ctx }) r.d.ctx (fun y => { y with pressHold := true })
  else s

/-- The owner compares its digest with those of the holders: each that differs raises REPLICA_MISMATCH, and the owner checks and
repairs its own copy; at a holder, a re-fetched replica that differs again raises it for a restore (R471, R472). -/
def replicaCheck (s : State) (i : Issuer) (x : Xfer) (rc : ReplicaCheck) (dig : List Byte) : State :=
  let s := match rc.again with
    | some o => replicaFault s x 0 rc.first (ownLmn s) o 3
    | none => s
  let bad := rc.digests.filter (fun d => d.2 != dig)
  if bad.isEmpty then s
  else
    let r := ownerRun s i x rc
    let ps := (r.panels.drop rc.first).take rc.count
    let action := ownerAction s r ps
    let tensor := ((ps.head?).map PPanel.tensor).getD 0
    ownerRepair (forEach bad (fun s d => replicaFault s x tensor rc.first d.1 (ownLmn s) action) s) r ps action

/-- The local address of a place. -/
def XPlace.la : XPlace → Nat
  | .win p => addrOf p
  | .stg la _ => la

/-- The slots of 64 bytes right behind a digest's place in which digests have landed for its context. -/
def digestSlots (s : State) (x : Xfer) (q : XPlace) : List (Nat × DigestIn) :=
  let at_ (k : Nat) : Option DigestIn := s.xf.digests.find? (fun d => d.ctx == x.ctx && d.addr == q.la + 64 * k)
  ((countFrom 1 s.xf.digests.length).map (fun k => (k, at_ k))).takeWhile (fun e => e.2.isSome) |>.filterMap (fun e =>
    e.2.map (fun d => (e.1, d)))

/-- The digests in them, by the LMN that sent each. -/
def digestsIn (s : State) (i : Issuer) (x : Xfer) (q : XPlace) : List (Nat × List Byte) :=
  (digestSlots s x q).map (fun e => (e.2.src, (xRead s i (q.add (64 * e.1)) 32).2.1))

/-- The index of the staging entry whose image and gradients hold a local address. -/
def stgIndexAt (s : State) (p la : Nat) : Option Nat :=
  match stagingWin s p with
  | none => none
  | some w => (countFrom 0 (adaptMax s p)).find? (fun k =>
      let b := readStg s p k
      let g := parseStg b
      stgOk b && g.state == 2 && decide (g.image ≤ la) && decide (la < g.image + stgExtent s p w g))

/-- The panels whose working copies begin in the range of a digest. -/
def panelsIn (s : State) (x : Xfer) (ps : List PPanel) : List PPanel :=
  let la := localOf s x.src
  ps.filter (fun p => decide (la ≤ localOf s p.wc) && decide (localOf s p.wc < la + x.len))

/-- The compare that a digest of context's panels makes (R471): none where no digest has landed behind it. The module owns the panels
where a state block that its Press has worked on holds their panel words, for only the owner holds these (R468); elsewhere it holds a
replica, and the digest behind its own is the owner's. -/
def replicaOf (s : State) (i : Issuer) (x : Xfer) (q : XPlace) (dig : List Byte) : ReplicaCheck :=
  let ds := digestsIn s i x q
  if ds.isEmpty then {} else
  let stg := (stgIndexAt s x.ptn (localOf s x.src)).getD 0
  let owned (t : PsbTrack) : Option ReplicaCheck :=
    let rc : ReplicaCheck := { psb := 0x3FF * 2 ^ 54 + t.addr, stg := stg, digests := ds }
    let r := ownerRun s i x rc
    match panelsIn s x r.panels with
    | p :: ps =>
      if allZero (pGet s r (r.h.pword + 16 * p.rank) 16).2 then none else some { rc with first := p.rank, count := ps.length + 1 }
    | [] => none
  match (getCtx s x.ctx).psbs.findSome? owned with
  | some rc => rc
  | none =>
    let g := parseStg (readStg s x.ptn stg)
    { first := (((panelsIn s x (imgPanels g (imgEnts s g) 0 0 0)).head?).map PPanel.rank).getD 0,
      again := (ds.find? (fun d => d.2 != dig)).map Prod.fst }

/-- The digest written, the compare made with those that have landed behind it, which are done with. -/
def digestEnd (s : State) (i : Issuer) (x : Xfer) (q : XPlace) (dig : List Byte) : State :=
  let s := xWrite s i q dig
  let used := (digestSlots s x q).map Prod.snd
  let s := replicaCheck s i x (replicaOf s i x q dig) dig
  { s with xf.digests := s.xf.digests.filter (fun d => !used.contains d) }

/-- DIGEST (R455), with the compare of R471 and R472. -/
def runDigest (s : State) (i : Issuer) (x : Xfer) (p q : XPlace) : State :=
  match xRead s i p x.len with
  | (s, bs, ue) =>
    if ue then xferEnd s i.core xsOperand FaultCode.memUe.code .rej
    else
      let body := if x.pb = 0 then bs else ((chunks x.panel (x.len / x.panel) bs).map (fun b => b.drop 64)).flatten
      let dig := shake256 32 body
      xferEnd (digestEnd s i x q dig) i.core xsOk 0 .plain

/-- A cancellation that comes too late (R309, R310): RETRACT_LATE, and the sending slot is an overrun. -/
def retractLate (s : State) (p ctx : Nat) (slot : Option OpenSlot) : State :=
  let s := raise { s with rc.retractLateSeen := true } .retractLate { kind := .bank, ptn := p, ctx := ctx }
  match slot with
  | some o => overrun s p o
  | none => s

/-- A retraction whose frames have begun to leave (R309): the remaining ones stop, and a RETRACT follows by the route. -/
def sendRetract (s : State) (x : Send) : State :=
  let s := { s with
    xf.sends := s.xf.sends.map (fun y => if y == x then { y with retracted := true } else y)
    xf.gone := s.xf.gone.map (fun y => if y == x then { y with retracted := true } else y) }
  let s := match x.port with
    | some p => modFab s p (fun q => { q with txq := q.txq.filter (fun t => !(t.inPort.isNone && frameKey t.f == x.key)) })
    | none => s
  syncRoute s 5 x.lmn (bodyBits x.ctx 223 212 + bodyBits x.pool 211 199 + bodyBits x.seq 198 183)

/-! ### The receive engine (R306-R310, R458) -/

/-- The issuer that stands for a landing buffer: its context, whose PRIVATE window holds it (R377, R410). -/
def bufIssuer (b : Landing) : Issuer := { mmode := true, ctx := b.ctx, ctxOn := true, ptn := b.ptn }

/-- Writes into a landing buffer (R213, R458). -/
def landBytes (s : State) (b : Landing) (off : Nat) (bs : List Byte) : State :=
  match placeOf none b.addr with
  | some p => writeAs s (bufIssuer b) (p.1, p.2 + off) bs
  | none => s

/-- Threads that wait for a load from a landing range (R308, R322) make their access again. -/
def wakeMem (s : State) : State :=
  forEach (threadsWhere s (fun _ _ h => h.state == .waitMem || (h.state == .suspended && h.resume == .waitMem)))
    (fun s e => modThr s e.1 e.2 (fun h => if h.state == .waitMem then { h with state := .ready } else { h with resume := .ready })) s

/-- Array commands and loads that waited for a tile's verdict are tried again (R308). -/
def retryHeld (s : State) : State :=
  let s := wakeMem s
  forEach (tkeys s.core) (fun s n =>
    let s := if (getCore s n).acdWait == .held then retryAcd s n {} else s
    if (getCore s n).wcdWait == .held then retryWcd s n {} else s) s

/-- An arrived send is dropped with LANDING_BAD and its credits go back (R458). -/
def landBad (s : State) (r : Recv) : State :=
  let h := parseSend r.data
  let n := if sendHdrOk r.data then h.len else r.data.length - 64
  let b := getBuf s h.buffer
  let at_ : FaultAt := if b.bound then { kind := .module, ptn := b.ptn, ctx := b.ctx } else { kind := .module }
  raise (returnCredits s r.src r.pool h.ctx (creditsOf n)) .landingBad at_

/-- Bytes that a DATA send carries after its header (R457). -/
def bodyLen (h : SendHdr) : Nat :=
  if h.exch ∧ h.pb ≠ 0 then h.len / (64 * h.pb) * (64 + (64 * h.pb - 64) / 2) else h.len

/-- The checks of a DATA send (R458). -/
def landOk (s : State) (r : Recv) (h : SendHdr) : Bool :=
  let b := getBuf s h.buffer
  b.bound && (h.form == formOf s b.ptn || (h.form == 0 && isOwnLmn s r.src)) && (h.form != 0 || isOwnLmn s r.src)
    && decide (h.offset + h.len ≤ b.size) && r.data.length == 64 + bodyLen h

/-- The bytes that land: those of a raw range, or widened panels (R458). -/
def landed (h : SendHdr) (ctx : Nat) (body : List Byte) : List Byte :=
  if h.exch then
    let wire := 64 + (64 * h.pb - 64) / 2
    ((chunks wire (h.len / (64 * h.pb)) body).map (panelWiden (signed 8 h.exp) ctx)).flatten
  else body

/-- A landed send whose space its consumer holds (R306). -/
def holdSpace (s : State) (r : Nat × Nat × Nat) (buf ctx n : Nat) : State :=
  { s with xf.landed := s.xf.landed ++ [{ src := r.1, pool := r.2.1, seq := r.2.2, buf := buf, ctx := ctx, credits := creditsOf n }] }

/-- The landing range of a DATA send lies in the SRAM of a core that runs a quiz or a detention test: no delivery is routed to it (R24).
The send waits. -/
def landsOnTested (s : State) (h : SendHdr) : Bool :=
  match placeOf none ((getBuf s h.buffer).addr + h.offset) with
  | some (.coreSram, o) => !inService s (o / 2 ^ 21)
  | _ => false

/-- A DATA send lands (R354, R458): every write comes before the delivery semaphore; a run-ahead tile is held for its
verdict (R308). -/
def landData (s : State) (r : Recv) (h : SendHdr) : State :=
  let b := getBuf s h.buffer
  let s := landBytes s b h.offset (landed h b.ctx (r.data.drop 64))
  let a := b.addr + h.offset
  -- a send of 64 bytes may carry a digest (R471)
  let kept := s.xf.digests.filter (fun d => decide (d.addr < a) || decide (a + h.len ≤ d.addr))
  let s := { s with xf.digests := if h.len = 64 ∧ !h.runahead ∧ !h.exch then kept ++ [{ addr := a, ctx := b.ctx, src := r.src }]
                                  else kept }
  if h.runahead then
    let x : Held := { src := r.src, pool := r.pool, seq := r.seq, ptn := b.ptn, ctx := h.ctx, buf := h.buffer, off := h.offset,
                      addr := b.addr + h.offset, len := h.len, sem := h.rsem, verdict := r.stamp + 2048 }
    { s with xf.held := s.xf.held ++ [x] }
  else doneAdd (holdSpace s (r.src, r.pool, r.seq) h.buffer h.ctx h.len) b.ptn h.rsem .plain

/-- A FETCH_REQ joins the server's queue of 64, or is refused (R460). -/
def queueFetch (s : State) (r : Recv) (h : SendHdr) : State :=
  if s.xf.reqs.length < 64 then
    { s with xf.reqs := s.xf.reqs ++
        [{ src := r.src, pool := h.buffer, offset := h.offset, len := h.len, sem := h.rsem, seq := h.seq, addr := h.addr }] }
  else raise s .fetchRefused { kind := .module }

/-- SEND_LANDING (R458, R460): a send that has arrived whole is checked, landed and delivered; it waits while its core is under test
(R24). Sends of the snapshot engine
are taken by its own commands (R561). -/
def execSendLanding (src pool seq : Nat) (s : State) : Out :=
  .next (match s.xf.recv.find? (fun r => r.whole && (r.src, r.pool, r.seq) == (src, pool, seq)) with
    | none => s
    | some r =>
      let h := parseSend r.data
      let s' := { s with xf.recv := eraseFirst (· == r) s.xf.recv }
      if !sendHdrOk r.data then landBad s' r
      else match h.kind with
      | 1 => if !landOk s' r h then landBad s' r else if landsOnTested s h then s else landData s' r h
      | 2 => queueFetch s' r h
      | _ => s)

/-- SEND_PARTIAL_TIMEOUT (R459): no frame of a partly landed send has come for 256 bl. -/
def execSendPartialTimeout (src pool seq : Nat) (s : State) : Out :=
  .next (match s.xf.recv.find? (fun r => !r.whole && (r.src, r.pool, r.seq) == (src, pool, seq)) with
    | none => s
    | some r =>
      if now s < r.stamp + 256 * 2048 ∨ !counting s then s
      else
        let s := { s with xf.recv := eraseFirst (· == r) s.xf.recv }
        if r.dropBuf.isSome then s
        else if sendHdrOk r.data then
          let h := parseSend r.data
          let b := getBuf s h.buffer
          raise (returnCredits s r.src r.pool h.ctx (if h.kind = 1 then creditsOf h.len else 0)) .sendPartial
            (if h.kind = 1 ∧ b.bound then { kind := .module, ptn := b.ptn, ctx := b.ctx } else { kind := .module })
        else raise s .sendPartial { kind := .module })

/-- LANDING_SPACE_RELEASE (R306): the consumer has released the space of a landed send, and its credits go back; not once the
context's DETACH has stopped them (R410). -/
def execLandingSpaceRelease (src pool seq : Nat) (s : State) : Out :=
  .next (match s.xf.landed.find? (fun l => (l.src, l.pool, l.seq) == (src, pool, seq)) with
    | none => s
    | some l =>
      let s := { s with xf.landed := eraseFirst (· == l) s.xf.landed }
      let b := getBuf s l.buf
      if !b.bound || b.closing then s else returnCredits s l.src l.pool l.ctx l.credits)

/-- RUNAHEAD_VERDICT (R308): at V, with no RETRACT accepted, the tile becomes readable and its semaphore increments. -/
def execRunaheadVerdict (src pool seq : Nat) (s : State) : Out :=
  .next (match s.xf.held.find? (fun h => (h.src, h.pool, h.seq) == (src, pool, seq)) with
    | none => s
    | some h =>
      if now s < h.verdict then s
      else
        let s := holdSpace { s with xf.held := eraseFirst (· == h) s.xf.held } (h.src, h.pool, h.seq) h.buf h.ctx h.len
        retryHeld (doneAdd s h.ptn h.sem .plain))

/-- A tile is discarded before its verdict (R310). -/
def discardTile (s : State) (src pool ctx n : Nat) : State :=
  returnCredits { s with rc.discarded := satInc 16 s.rc.discarded } src pool ctx (creditsOf n)

/-- A retracted send is answered TOO_LATE at its sender: RETRACT_LATE, and its slot is an overrun (R309, R310). -/
def sendLate (s : State) (x : Send) : State :=
  retractLate { s with xf.sends := s.xf.sends.map (fun y => if y == x then { y with retracted := false } else y),
                       xf.gone := eraseFirst (· == x) s.xf.gone } x.ptn x.ctx x.slot

/-- TOO_LATE goes back to the sender (R298, R310): on loopback this module's own send, else a REPLY with STATUS 9, its RTAG the send
number. The manual gives OP and the other fields of this REPLY no value. -/
def answerTooLate (s : State) (src ctx seq : Nat) : State :=
  let (r, s) := draw s 6
  if isOwnLmn s src then
    match (s.xf.sends ++ s.xf.gone).find? (fun x => isOwnLmn s x.lmn && x.seq == seq && x.ctx == ctx) with
    | some x => sendLate s x
    | none => s
  else syncRoute s 3 src (bodyBits (leNat (r.take 1)) 223 220 + bodyBits 9 219 216 + bodyBits (leNat (slice r 1 1)) 215 208
    + bodyBits seq 207 192 + bodyBits (leNat (slice r 2 4)) 191 160 + bodyBits ctx 155 144)

/-- A RETRACT is accepted at or before V (R310): the landing range reads zero, the credits go back; one at V counts as LATE_EQUAL. -/
def retractTile (s : State) (src pool ctx buf off len : Nat) (verdict : Option Nat) : State :=
  let b := getBuf s buf
  let s := if b.bound && decide (off + len ≤ b.size) then landBytes s b off (List.replicate len 0) else s
  let s := if verdict = some (now s) then { s with rc.lateEqual := satInc 16 s.rc.lateEqual } else s
  retryHeld (discardTile s src pool ctx len)

/-- A RETRACT's effect at the receiver (R310): on a tile that has landed and waits for its verdict, or on one that has arrived in part
or whole and not landed. Frames of a discarded tile that still come belong to no send and are dropped. -/
def retractIn (s : State) (src ctx pool seq : Nat) : State :=
  match s.xf.held.find? (fun h => (h.src, h.pool, h.seq) == (src, pool, seq)) with
  | some h =>
    if h.verdict < now s then answerTooLate s src ctx seq
    else retractTile { s with xf.held := eraseFirst (· == h) s.xf.held } src pool h.ctx h.buf h.off h.len (some h.verdict)
  | none =>
    match s.xf.recv.find? (fun r => (r.src, r.pool, r.seq) == (src, pool, seq) && r.dropBuf.isNone) with
    | some r =>
      let h := parseSend r.data
      -- V counts from the arrival of the last frame
      let v := if r.whole then some (r.stamp + 2048) else none
      if sendHdrOk r.data && h.kind == 1 && h.runahead && decide (now s ≤ v.getD (now s)) then
        retractTile { s with xf.recv := eraseFirst (· == r) s.xf.recv } src pool h.ctx h.buffer h.offset h.len v
      else answerTooLate s src ctx seq
    | none => answerTooLate s src ctx seq

/-- RETRACT_RECEIVE (R310): a RETRACT frame arrives. -/
def execRetractReceive (port : Nat) (f : List Byte) (s : State) : Out :=
  .next (let _ := port
    takeFrame s f 5 (frameBits f 182 32 == 0) (fun s =>
      retractIn s (frSrc f) (frameBits f 223 212) (frameBits f 211 199) (frameBits f 198 183)))

/-- A REPLY with STATUS TOO_LATE answers a RETRACT of this module (R310). -/
def tooLateIn (s : State) (f : List Byte) : State :=
  let mine (x : Send) : Bool := x.retracted && x.lmn == frSrc f && x.seq == frameBits f 207 192 && x.ctx == frameBits f 155 144
  match (s.xf.sends ++ s.xf.gone).find? mine with
  | some x => sendLate s x
  | none => staleReply s

/-- REPLY_RECEIVE (R310, R313): a REPLY frame arrives; reserved statuses are dropped (R287). -/
def execReplyReceive (port : Nat) (f : List Byte) (s : State) : Out :=
  .next (let _ := port
    if frameBits f 219 216 = 9 then takeFrame s f 3 (frameBits f 143 32 == 0) (fun s => tooLateIn s f)
    else takeFrame s f 3 (frameBits f 143 32 == 0 && decide (frameBits f 219 216 < 13)
      && (rcOpOf (frameBits f 223 220)).isSome) (fun s => replyIn s f))

/-! ### RETRACT at the sender (R309) -/

/-- RETRACT (R309): a send that has not begun to leave stops and gives its credits back; one whose last frame left at S may be
retracted up to S + 1,984 cy; on loopback the receive engine is this module's. -/
def runRetract (s : State) (i : Issuer) (x : Xfer) : State :=
  match (s.xf.sends ++ s.xf.gone).find? (fun y => y.runahead && y.ptn == i.ptn && y.pool == x.pool && y.seq == x.seq) with
  | none => xferEnd (retractLate s i.ptn x.ctx (lastSlot s i.ptn)) i.core xsTooLate FaultCode.retractLate.code .rej
  | some y =>
    let late := match y.left with
      | some t => decide (t + 1984 < now s)
      | none => false
    if late then xferEnd (retractLate s i.ptn y.ctx y.slot) i.core xsTooLate FaultCode.retractLate.code .rej
    else
      let s :=
        if y.need ≠ 0 then
          finishSend { s with xf.sends := eraseFirst (· == y) s.xf.sends } { y with runahead := false, need := 0, wire := [] }
        else if isOwnLmn s y.lmn then retractIn s y.lmn y.ctx y.pool y.seq
        else sendRetract s y
      xferEnd s i.core xsOk 0 .plain

/-! ### The command as a whole (R454-R463, R631) -/

/-- The checks of R456 that need state: partition and context, pool. -/
def xferOwnerOk (s : State) (i : Issuer) (x : Xfer) : Bool :=
  x.ptn == i.ptn && attachedTo s x.ptn x.ctx
    && (!(x.op == xSend || x.op == xRetract) ||
      ((getPool s x.pool).bound && (getPool s x.pool).ptn == x.ptn && (getPool s x.pool).ctx == x.ctx))

/-- The contents of a SEND's range fit EXCH and RUNAHEAD (R456). -/
def sendShapeOk (s : State) (i : Issuer) (x : Xfer) (p : XPlace) : Bool :=
  (!x.exch || (match (panelOffs x).map (fun o => panelEntry (xRead s i (p.add o) 64).2.1) with
    | [] => true
    | e :: es => es.all (· == e)))
  && (!x.runahead ||
    (let h := (xRead s i p 64).2.1
     tileLen (rawFmt h) (rawKind h) == some x.len && (parseHdr h).runahead))

/-- One XFER, its checks in the order of R631. -/
def runXfer (s : State) (e : QEntry) : State :=
  let i := e.issuer
  let x := parseXfer e.desc
  if !descCrcOk e.desc then xferFail s i xsRejected .xferInvalid []
  else if x.epoch ≠ (getCore s i.core).epoch then xferEnd s i.core xsAbortReset 0 .abt
  else if !xferFieldsOk x || !xferOwnerOk s i x then xferFail s i xsRejected .xferInvalid []
  else match xAddrFault s i x with
  | some c => xferFail s i xsRejected c []
  | none =>
    match x.op, xPlace s i .read x.src x.len, xPlace s i .read x.src2 x.len, xPlace s i .write x.dst (if x.op = xDigest then 32 else x.len) with
    | 1, some p, _, _ => if sendShapeOk s i x p then runSend s i x p else xferFail s i xsRejected .xferInvalid []
    | 2, _, _, _ => runFetch s i x
    | 3, some p, _, some q => runCopy s i x p q
    | 4, some p, some p2, some q => runNodeX s i x p p2 q
    | 5, some p, _, some q => runDigest s i x p q
    | 6, _, _, _ => runRetract s i x
    | _, _, _, _ => xferFail s i xsRejected .xferInvalid []

/-- The transfer engines serve the queues of different cores in ascending stamp of issue (R462): no other core in service has
an older head that waits. -/
def oldestXfer (s : State) (n : Nat) (e : QEntry) : Bool :=
  s.core.all (fun c => c.1 == n || c.2.xferRun.isSome || !inService s c.1 ||
    (match c.2.xferQ with | [] => true | h :: _ => decide (e.stamp ≤ h.stamp)))

/-- The transfer engine starts the XFER at the head of a core's queue, where its OP is the one given; a head with a reserved
OP is refused whichever it is (R455, R462). -/
def startXfer (s : State) (n op : Nat) : State :=
  let c := getCore s n
  match c.xferQ with
  | [] => s
  | e :: q =>
    let o := bits (descWord e.desc 0) 0 8
    if c.xferRun.isSome || !inService s n || !oldestXfer s n e || (o != op && decide (1 ≤ o) && decide (o ≤ 6)) then s
    else runXfer (modCore s n (fun c => { c with xferQ := q, xferRun := some e })) e

/-- XFER_SEND (R455, R457). -/
def execXferSend (core : Nat) (s : State) : Out := .next (startXfer s core xSend)
/-- XFER_FETCH (R455, R460). -/
def execXferFetch (core : Nat) (s : State) : Out := .next (startXfer s core xFetch)
/-- XFER_COPY (R455). -/
def execXferCopy (core : Nat) (s : State) : Out := .next (startXfer s core xCopy)
/-- XFER_NODE (R461). -/
def execXferNode (core : Nat) (s : State) : Out := .next (startXfer s core xNode)
/-- XFER_DIGEST (R455, R472). -/
def execXferDigest (core : Nat) (s : State) : Out := .next (startXfer s core xDigest)
/-- XFER_RETRACT (R309, R455). -/
def execXferRetract (core : Nat) (s : State) : Out := .next (startXfer s core xRetract)

/-! ### Serving fetches (R460) -/

/-- A place lies, over `n` bytes, in windows of the pool's context and SHARED windows of its partition (R460). -/
def serveWindow (s : State) (i : Issuer) (p : Place) (n : Nat) : Bool :=
  let ws := (ptnWins s i.ptn).filter (fun w => w.type == .shared || (w.type == .priv && w.owner == i.ctx))
  coverGo (ws.map (fun w => { w with rights := 0x3F })) true .read 64 p n == n

/-- The source range of a request, as the pool's context reaches it (R460). -/
def servePlace (s : State) (i : Issuer) (ga n : Nat) : Option XPlace :=
  match localAddr s ga with
  | none => none
  | some la =>
    match itemPlace s none ga n with
    | none => none
    | some p =>
      if serveWindow s i p n then some (.win p)
      else if stgOwner s i.ptn la n = some i.ctx then some (.stg la i.ctx) else none

/-- FETCH_REQ_SERVE (R460): the oldest request is served as a DATA send from SERVER_POOL, or refused. -/
def execFetchReqServe (s : State) : Out :=
  .next (match s.xf.reqs with
    | [] => s
    | r :: rs =>
      let s := { s with xf.reqs := rs }
      let p := getPool s r.pool
      let i : Issuer := { mmode := true, ctx := p.ctx, ctxOn := true, ptn := p.ptn }
      let refuse (s : State) : State := raise s .fetchRefused
        (if p.bound then { kind := .module, ptn := p.ptn, ctx := p.ctx } else { kind := .module })
      if !(p.bound && (p.peer == r.src || (isOwnLmn s p.peer && isOwnLmn s r.src))) then refuse s
      else match servePlace s i r.addr r.len with
      | none => refuse s
      | some x =>
        let (s, bs, _) := xRead s i x r.len
        let h : SendHdr := { kind := 1, ctx := p.ctx, buffer := p.link, offset := r.offset, len := r.len, rsem := r.sem, seq := r.seq,
                             form := formOf s p.ptn }
        beginSend s { ptn := p.ptn, ctx := p.ctx, lmn := r.src, pool := r.pool, seq := r.seq, need := creditsOf r.len,
                      wire := h.bytes ++ bs, slot := none })

end Sys2Proof.Machine
end

