-- ==== Sys2Proof/Machine/Restore.lean ====
section
/-! DEFINITION. The snapshot engine's drain, commit, mirrors and restores (spec/18_snapshots_replay.md R558-R567).
Readings and choices: log 63, 109, 110, 111. -/

namespace Sys2Proof.Machine

/-! ### Sealing (R549, R558, R559) -/

/-- The associated data of every sealed object of a generation (R559). -/
def snapAad (ctx gen : Nat) : List Byte := ascii "SV44-SNAPO" ++ leBytes 2 ctx ++ leBytes 8 gen

/-- The nonce of object `k`; the manifest has index 0xFFFF_FFFF (R559). -/
def snapNonce (k : Nat) (r : List Byte) : List Byte := leBytes 4 k ++ slice r 0 8

/-- The index of the manifest. -/
def manIndex : Nat := 0xFFFFFFFF

/-- The header of a manifest (R558). -/
def manHeader (s : State) (j : SnpJob) (gen : Nat) : List Byte :=
  withCrcTail (slice (leBytes 1 1 ++ leBytes 1 (b2n j.mirror) ++ leBytes 2 j.objs.length ++ leBytes 2 j.ctx ++ leBytes 2 j.ptn
    ++ leBytes 8 gen ++ leBytes 8 j.lesson ++ leBytes 8 j.stamp ++ leBytes 2 j.form ++ leBytes 2 (ownLmn s)
    ++ List.replicate 12 (0 : Byte) ++ slice (getSnp s j.ctx).prev 0 32 ++ slice j.meas 0 32) 0 128) 124

/-- One entry of a manifest (R558): `flash` is where the engine put the sealed object, which no rule fixes. -/
def manEntry (o : SnpObj) (flash : List Byte) : List Byte :=
  slice (leBytes 1 o.okind ++ leBytes 1 o.item ++ leBytes 2 o.stg ++ leBytes 4 o.adapter ++ leBytes 8 o.bytes.length
    ++ leBytes 8 o.addr ++ slice flash 0 8 ++ shake256 32 o.bytes) 0 64

/-- Seals a capture as a generation (R558, R559). -/
def sealGen (s : State) (j : SnpJob) : State × Gen :=
  let gen := tget 0 s.snp.maxGen j.ctx + 1
  let (r, s) := draw s 8
  let (fl, s) := draw s (8 * j.objs.length)
  let sealed (k : Nat) (bs : List Byte) : List Byte := sealGcm j.key (snapNonce k r) (snapAad j.ctx gen) bs
  let os := List.zip (countFrom 0 j.objs.length) j.objs
  let man := manHeader s j gen ++ (os.map (fun e => manEntry e.2 (slice fl (8 * e.1) 8))).flatten
  (s, { ctx := j.ctx, gen := gen, lesson := j.lesson, nonce := snapNonce manIndex r, digest := shake256 32 man,
        manifest := sealed manIndex man, objs := os.map (fun e => sealed e.1 e.2.bytes) })

/-! ### Space (R550, R559, R569) -/

/-- Bytes of a sealed generation. -/
def genBytes (g : Gen) : Nat := g.manifest.length + sumNat (g.objs.map List.length)

/-- Extents of 64 MiB that a generation takes (R550). -/
def genExtents (g : Gen) : Nat := if g.held then ceilDiv (genBytes g) (2 ^ 26) else 0

/-- Extents in use in an area. -/
def usedExtents (s : State) (mirror : Bool) : Nat := sumNat ((s.snp.gens.filter (fun g => g.mirror == mirror)).map genExtents)

/-- Extents of an area (R550). -/
def areaExtents (s : State) (mirror : Bool) : Nat :=
  if mirror then 1024 * s.snp.mirrorUnits else 131072 - 1024 * s.snp.mirrorUnits

/-- Free extents of an area. -/
def freeExtents (s : State) (mirror : Bool) : Nat := areaExtents s mirror - usedExtents s mirror

/-- KEEP (R559, R561): the oldest generations of one source and context beyond it are freed. -/
def keepGens (s : State) (mirror : Bool) (src ctx : Nat) : State :=
  let mine (g : Gen) : Bool := g.mirror == mirror && g.src == src && g.ctx == ctx
  let n := (s.snp.gens.filter mine).length - s.snp.keep
  let gs := s.snp.gens.foldl (fun (acc : Nat × List Gen) g =>
    if mine g && decide (0 < acc.1) then (acc.1 - 1, acc.2) else (acc.1, acc.2 ++ [g])) (n, [])
  { s with snp.gens := gs.2 }

/-! ### Mirrors (R561) -/

/-- The POOL number in the frames of the snapshot engine's sends, which take no credits; no rule gives it. -/
def mirrorPool : Nat := 0x1FFF

/-- A send of the snapshot engine (R561); none where no port in use leads to the module. -/
def mirrorSend (s : State) (dst ctx kind : Nat) (body : List Byte) : Option State :=
  match routePort s dst with
  | none => none
  | some p =>
    let seq := s.snp.mirrorSeq
    let h : SendHdr := { kind := kind, ctx := ctx, len := body.length, seq := seq }
    some (portQueue { s with snp.mirrorSeq := wrap 16 (seq + 1) } p
      (sendFrames s p dst mirrorPool seq false (h.bytes ++ body)))

/-- The directory entry as a mirror carries it, last (R550, R561). -/
def dirEntry (g : Gen) : List Byte :=
  leBytes 8 g.gen ++ leBytes 8 g.lesson ++ slice g.nonce 0 12 ++ slice g.digest 0 32 ++ leBytes 4 g.objs.length

/-- The stream of a generation: objects, manifest, directory entry (R561). -/
def genStream (g : Gen) : List Byte := g.objs.flatten ++ g.manifest ++ dirEntry g

/-- Bytes between two acknowledgements (R561). -/
def mirrorUnit : Nat := 2 ^ 26

/-- Changes a generation of this module's context. -/
def modGen (s : State) (ctx gen : Nat) (f : Gen → Gen) : State :=
  { s with snp.gens := s.snp.gens.map (fun g => if !g.mirror && g.ctx == ctx && g.gen == gen then f g else g) }

/-- A mirror fails (R561): the generation stays local only. -/
def mirrorFails (s : State) (m : MirrorTx) : State :=
  let s := { s with snp.mirrors := eraseFirst (· == m) s.snp.mirrors, snp.failMirror := satInc 16 s.snp.failMirror }
  raise (modGen s m.ctx m.gen (fun g => { g with mirrorFailed := true })) .snapMirror
    { kind := .module, ptn := (ptnOfCtx s m.ctx).getD 0xFF, ctx := m.ctx }

/-- Sends the next 64 MiB of a mirror, whose record is in the list (R561). -/
def mirrorNext (s : State) (m : MirrorTx) : State :=
  match mirrorSend s s.snp.buddyLmn m.ctx 3 (m.rest.take mirrorUnit) with
  | none => mirrorFails s m
  | some s =>
    { s with snp.mirrors := modifyFirst (· == m) (fun m => { m with rest := m.rest.drop mirrorUnit, sent := s.bell.count }) s.snp.mirrors }

/-- A mirror of a committed generation begins (R561). -/
def mirrorStart (s : State) (g : Gen) : State :=
  let m : MirrorTx := { ctx := g.ctx, gen := g.gen, rest := genStream g, sent := s.bell.count }
  mirrorNext { s with snp.mirrors := s.snp.mirrors ++ [m] } m

/-- The directory entry of a drained generation is written: it is committed, old ones are freed, and its mirror begins (R559,
R561). -/
def commitGen (s : State) (j : SnpJob) : State :=
  let (s, g) := sealGen s j
  let s := { s with snp.jobs := eraseFirst (· == j) s.snp.jobs }
  if freeExtents s false < genExtents g then
    raise s .snapSpace { kind := .module, ptn := j.ptn, ctx := j.ctx }
  else
    let s := { s with snp.gens := s.snp.gens ++ [g], snp.maxGen := tset 0 s.snp.maxGen j.ctx g.gen }
    let s := modSnp s j.ctx (fun x => { x with gen := g.gen, prev := g.digest, prevLesson := g.lesson })
    let s := keepGens s false 0x3FF j.ctx
    if j.mirror && s.snp.buddyValid then mirrorStart s g else s

/-- SNAPSHOT_COMMIT (R559): the drain of a context's capture finishes. -/
def execSnapshotCommit (ctx : Nat) (s : State) : Out :=
  .next (match s.snp.jobs.find? (fun j => j.ctx == ctx && j.phase == .drain) with
    | some j => commitGen s j
    | none => s)

/-- A send of the snapshot engine that has arrived whole (R561). -/
def mirrorRecv (s : State) (src pool seq kind : Nat) : Option (Recv × SendHdr) :=
  match s.xf.recv.find? (fun r => r.whole && (r.src, r.pool, r.seq) == (src, pool, seq)) with
  | some r => if sendHdrOk r.data && (parseSend r.data).kind == kind then some (r, parseSend r.data) else none
  | none => none

/-- The receive engine hands the send over. -/
def takeRecv (s : State) (r : Recv) : State := { s with xf.recv := eraseFirst (· == r) s.xf.recv }

/-- MIRROR_ACK (R561): a MIRROR send with no data from the buddy acknowledges 64 MiB; with the last of it the mirror is
committed there. -/
def execMirrorAck (src pool seq : Nat) (s : State) : Out :=
  .next (match mirrorRecv s src pool seq 3 with
    | none => s
    | some (r, h) =>
      if h.len ≠ 0 then s
      else
        let s := takeRecv s r
        match s.snp.mirrors.find? (fun m => m.ctx == h.ctx) with
        | none => s
        | some m =>
          if src ≠ s.snp.buddyLmn then s
          else if m.rest ≠ [] then mirrorNext s m
          else modGen { s with snp.mirrors := eraseFirst (· == m) s.snp.mirrors } m.ctx m.gen (fun g => { g with mirrored := true }))

/-- MIRROR_TIMEOUT (R561): no acknowledgement has come for 65,536 bl. -/
def execMirrorTimeout (ctx : Nat) (s : State) : Out :=
  .next (match s.snp.mirrors.find? (fun m => m.ctx == ctx) with
    | some m => if counting s && decide (65536 + m.sent ≤ s.bell.count) then mirrorFails s m else s
    | none => s)

/-- MIRROR_RECEIVE (R561): a MIRROR send with data arrives at the buddy; `copy` is the generation whose directory entry comes
with it, none while more of it is to follow. A buddy without room stores nothing and acknowledges nothing. -/
def execMirrorReceive (src pool seq : Nat) (copy : Option MirrorCopy) (s : State) : Out :=
  .next (match mirrorRecv s src pool seq 3 with
    | none => s
    | some (r, h) =>
      if h.len = 0 ∨ !s.snp.ready then s
      else
        let s := takeRecv s r
        let g (c : MirrorCopy) : Gen :=
          { mirror := true, src := src, ctx := h.ctx, gen := c.gen, lesson := c.lesson, nonce := c.nonce, digest := c.digest,
            manifest := c.manifest, objs := c.objs }
        let need := match copy with | some c => genExtents (g c) | none => ceilDiv h.len (2 ^ 26)
        if freeExtents s true < need then s
        else
          let s := match copy with
            | some c => keepGens { s with snp.gens := s.snp.gens ++ [g c] } true src h.ctx
            | none => s
          (mirrorSend s src h.ctx 3 []).getD s)

/-- MIRROR_READ (R564): the buddy returns generation `gen` of the source and context, sealed as it stored it. -/
def execMirrorRead (src pool seq gen : Nat) (s : State) : Out :=
  .next (match mirrorRecv s src pool seq 4 with
    | none => s
    | some (r, h) =>
      let s := takeRecv s r
      match s.snp.gens.find? (fun g => g.mirror && g.src == src && g.ctx == h.ctx && g.gen == gen) with
      | none => s
      | some g =>
        let bs := genStream g
        forEach (chunks mirrorUnit (ceilDiv bs.length mirrorUnit) bs) (fun s b => (mirrorSend s src h.ctx 4 b).getD s) s)

/-! ### Restores (R563-R567) -/

/-- One entry of a manifest (R558). -/
structure ManEnt where
  okind : Nat := 0
  item : Nat := 0
  stg : Nat := 0
  adapter : Nat := 0
  len : Nat := 0
  addr : Nat := 0
  digest : List Byte := []
deriving DecidableEq, Repr, Inhabited

/-- The entries of a manifest. -/
def manEnts (man : List Byte) : List ManEnt :=
  (countFrom 0 (field man 2 2)).map (fun k =>
    let o := 128 + 64 * k
    { okind := field man o 1, item := field man (o + 1) 1, stg := field man (o + 2) 2 % 4096, adapter := field man (o + 4) 3,
      len := field man (o + 8) 8, addr := field man (o + 0x10) 8, digest := slice man (o + 0x20) 32 })

/-- The manifest of a copy, where its tag, HDR_CRC and length hold (R564). -/
def openManifest (key : List Byte) (ctx : Nat) (c : MirrorCopy) : Option (List Byte) :=
  match openGcm key c.nonce (snapAad ctx c.gen) c.manifest with
  | none => none
  | some man =>
    if crcTailOk (slice man 0 128) 124 && man.length == 128 + 64 * field man 2 2 && c.objs.length == field man 2 2 then some man
    else none

/-- An object's plaintext. -/
def openObj (key : List Byte) (ctx : Nat) (c : MirrorCopy) (k : Nat) : Option (List Byte) :=
  openGcm key (snapNonce k (c.nonce.drop 4)) (snapAad ctx c.gen) (getAt [] c.objs k)

/-- The object is the image of a STAGED item (R557): it has an adapter, or lies in the staging window. -/
def ManEnt.ofStaged (e : ManEnt) (s : State) (p : Nat) : Bool := e.okind == 6 && (e.adapter != 0 || inStaging s p e.addr e.len)

/-- A restore target: a staged image whose entry stands ready as recorded, or a range of the context's windows outside every Rind
window (R563, R564). The counters and the step log have no address. -/
def targetOk (s : State) (p c : Nat) (e : ManEnt) : Bool :=
  if e.okind = 10 ∨ e.okind = 11 then true
  else if e.ofStaged s p then
    let raw := readStg s p e.stg
    let g := parseStg raw
    stgOk raw && g.state == 2 && tagValid g.owner && tagCtx g.owner == c && g.image == e.addr && g.len == e.len && g.adapter == e.adapter
  else
    match snpRange s p c (hereAddr e.addr) e.len with
    | some pl => coverGo (reachWins s (snpIssuer p c)) true .write 64 pl e.len == e.len
    | none => false

/-- Writes step log records into the log ring of the plan in force (R565, R567). -/
def putStepLog (s : State) (p c : Nat) (bs : List Byte) : State :=
  match readPlan s p c (getSnp s c).plan with
  | none => s
  | some pl =>
    forEach (chunks 64 (bs.length / 64) bs) (fun s r => snpWrite s p c (pl.log + 64 * (field r 0 8 % pl.entries)) r) s

/-- Writes one object (R565). -/
def putObj (s : State) (p c : Nat) (e : ManEnt) (bs : List Byte) : State :=
  if e.okind = 10 then
    modCtx s c (fun x => { x with convSat := field bs 2 2, convNan := field bs 0 2, gradev := field bs 4 4, masterev := field bs 8 4 })
  else if e.okind = 11 then putStepLog s p c bs
  else if e.ofStaged s p then writeUnder s (ctxKey s c) e.addr bs
  else snpWrite s p c (hereAddr e.addr) bs

/-- Every working-copy element of a block is RNE16 of its master (R564). -/
def wcAgrees (s : State) (x : PRun) : Bool :=
  x.panels.all (fun p =>
    match itemGet s x p.wc p.wcLen with
    | (_, none) => false
    | (_, some bs) => halves bs p.hdrLen p.n == (words (arrayIn s x x.h.master p).2 0 p.n).map narrow32)

/-- The working copies of every state block of a manifest agree with their masters (R564). -/
def blocksAgree (s : State) (p c : Nat) (es : List ManEnt) : Bool :=
  let staged := (es.filter (fun e => e.ofStaged s p)).map (fun e => ({ kind := 2, stg := e.stg } : PlanItem))
  (es.filter (fun e => e.okind == 1)).all (fun e =>
    match planBlock s p c { items := staged } (hereAddr e.addr) with
    | some x => wcAgrees s x
    | none => false)

/-- How the attempt on one copy ends. -/
inductive RestoreEnd where
  | badTarget (st : State)
  | failed (st : State)
  | done (st : State) (man : List Byte)

/-- Writes the objects of a copy in order and compares their digests; `bad` is an object whose flash pages are uncorrectable. What
an object that does not open leaves in its range is open. -/
def putObjs (key : List Byte) (p c : Nat) (x : MirrorCopy) (bad : Option Nat) : State → List (Nat × ManEnt) → State × Bool
  | s, [] => (s, true)
  | s, e :: es =>
    match (if bad = some e.1 then none else openObj key c x e.1) with
    | none =>
      let (r, s) := draw s e.2.len
      (putObj s p c e.2 r, false)
    | some bs =>
      let s := putObj s p c e.2 (slice bs 0 e.2.len)
      if shake256 32 bs = e.2.digest ∧ bs.length = e.2.len then putObjs key p c x bad s es else (s, false)

/-- RIND_WRITE for each target that meets a Rind window, in which a restore writes nothing (R213). -/
def rindTargets (s : State) (p c : Nat) (es : List ManEnt) : State :=
  forEach es (fun s e =>
    match placeOf none e.addr with
    | some pl => if e.okind != 10 && e.okind != 11 && meetsRind s pl e.len then
        raise s .rindWrite { kind := .module, ptn := p, ctx := c, detail := detailAddr e.addr } else s
    | none => s) s

/-- One copy of a candidate (R564). -/
def tryCopy (s : State) (p c : Nat) (x : MirrorCopy) (bad : Option Nat) : RestoreEnd :=
  let key := snapKey s c
  match (if bad = some manIndex then none else openManifest key c x) with
  | none => .failed s
  | some man =>
    let es := manEnts man
    if !es.all (targetOk s p c) then .badTarget (rindTargets s p c es)
    else
      let (s, ok) := putObjs key p c x bad s (List.zip (countFrom 0 es.length) es)
      if ok && blocksAgree s p c es then .done s man else .failed s

/-- A generation of flash as a copy. -/
def Gen.copy (g : Gen) : MirrorCopy :=
  { gen := g.gen, lesson := g.lesson, nonce := g.nonce, digest := g.digest, manifest := g.manifest, objs := g.objs }

/-- The copies to try, newest generation first, the local one before the mirror's (R564): with where each lies, and the object
that flash does not give back. -/
def restoreOrder (s : State) (c : Nat) (j : RestoreJob) (bad : List (Nat × Nat)) (mirror : List MirrorCopy) :
    List (Bool × MirrorCopy × Option Nat) :=
  let loc := (s.snp.gens.filter (fun g => !g.mirror && g.ctx == c && g.held && decide (g.lesson ≤ j.lesson))).map Gen.copy
  let mir := if s.snp.buddyValid then mirror.filter (fun g => decide (g.lesson ≤ j.lesson)) else []
  let ls := if j.source = 2 then [] else loc.map (fun g => (false, g, (bad.find? (fun e => e.1 == g.gen)).map Prod.snd))
  let ms := if j.source = 1 then [] else mir.map (fun g => (true, g, none))
  ((ms ++ ls.reverse).foldl (fun acc e => insertBy (fun (e : Bool × MirrorCopy × Option Nat) => 2 * e.2.1.gen + b2n (!e.1)) e acc) []).reverse

/-- Marks a copy as failed with SNAP_DIGEST (R564). -/
def copyFails (s : State) (p c : Nat) (mirror : Bool) (gen : Nat) : State :=
  let s := modGen s c gen (fun g => if mirror then { g with mirrorFailed := true } else { g with localFailed := true })
  raise { s with snp.failDigest := satInc 16 s.snp.failDigest } .snapDigest { kind := .module, ptn := p, ctx := c }

/-- Tries the copies in order (R564). -/
def tryCopies (p c : Nat) : State → List (Bool × MirrorCopy × Option Nat) → State × Except Nat (List Byte)
  | s, [] => (s, .error snNoValid)
  | s, e :: es =>
    match tryCopy s p c e.2.1 e.2.2 with
    | .badTarget s => (s, .error snBadTarget)
    | .done s man => (s, .ok man)
    | .failed s => tryCopies p c (copyFails s p c e.1 e.2.1.gen) es

/-- The step log of the oldest committed generation that holds the records up to R goes into the ring (R567). -/
def verifyLog (s : State) (p c upTo : Nat) : State :=
  match s.snp.gens.find? (fun g => !g.mirror && g.ctx == c && g.held && decide (upTo ≤ g.lesson)) with
  | none => s
  | some g =>
    match openManifest (snapKey s c) c g.copy with
    | none => s
    | some man =>
      match (List.zip (countFrom 0 (manEnts man).length) (manEnts man)).find? (fun e => e.2.okind == 11) with
      | none => s
      | some e => putStepLog s p c ((openObj (snapKey s c) c g.copy e.1).getD [])

/-- A restore succeeds (R565, R567). -/
def restoreDone (s : State) (p c : Nat) (j : RestoreJob) (man : List Byte) : State :=
  let t := field man 0x10 8
  let pools := s.rc.pool.map (fun e => if e.2.bound && e.2.ctx == c then (e.1, { e.2 with credits := e.2.alloc }) else e)
  let s := { s with rc.pool := pools }
  let s := modCtx s c (fun x => if x.state == .restart then { x with restored := true } else x)
  let v := j.verify && decide (t < j.upTo)
  let s := modSnp (if v then verifyLog s p c j.upTo else s) c (fun x => { x with
    prev := shake256 32 man, prevLesson := t, lastDigest := none, lastCap := none, verify := if v then some j.upTo else none })
  let differs := match (getPtn s p).syl with
    | some y => slice man 0x50 32 != slice y.meas 0 32
    | none => false
  { s with snp.measDiffer := differs }

/-- RESTORE_COMPLETE (R563-R567): the restore of a context runs to its end, once no job of the context runs. `bad` lists the local
generations of which flash does not give an object back, with its index; `mirror` is what the buddy returns. -/
def execRestoreComplete (ctx : Nat) (bad : List (Nat × Nat)) (mirror : List MirrorCopy) (s : State) : Out :=
  .next (match (getSnp s ctx).restoring, ptnOfCtx s ctx with
    | some j, some p =>
      if s.snp.jobs.any (fun x => x.ctx == ctx) then s
      else
        let (s, r) := tryCopies p ctx s (restoreOrder s ctx j bad mirror)
        let s := modSnp s ctx (fun x => { x with restoring := none })
        match r with
        | .ok man => snpAnswer (restoreDone s p ctx j man) snOk
        | .error st => snpAnswer s st
    | _, _ => s)

end Sys2Proof.Machine
end

