-- ==== Sys2Proof/Machine/Settings.lean ====
section
/-! DEFINITION. The stored settings (spec/21_register_index.md R619-R621; R505, R506): the 1,091 registers, what a write of
each does, how start-up applies a stored value, and the bytes of a settings bank.
Readings and choices: log 107, 129. -/

namespace Sys2Proof.Machine

/-! ### Encodings -/

/-- BELL_CFG (R280). -/
def bellCfgWord (c : BellCfg) : Nat :=
  b2n c.domainEn + 2 * c.role + 8 * c.refSrc + 32 * c.upPort + 256 * c.altPort + 2048 * b2n c.altEn

/-- BELL_CFG from its word. -/
def bellCfgOf (w : Nat) : BellCfg :=
  { domainEn := bitOf w 0, role := bits w 1 2, refSrc := bits w 3 2, upPort := bits w 5 3, altPort := bits w 8 3, altEn := bitOf w 11 }

/-- FAB_MAP_n (R450); SEL reads as written (R6). -/
def mapWord (e : MapEnt) : Nat :=
  b2n e.va * 2 ^ 31 + e.pa * 2 ^ 28 + b2n e.vb * 2 ^ 27 + e.pb * 2 ^ 24 + b2n e.vs * 2 ^ 23 + e.ps * 2 ^ 20
    + b2n (match e.selPend with | some x => x.1 | none => e.sel) * 2 ^ 19

/-- FAB_COVER_k (R451). -/
def coverWord (c : Cover) : Nat := b2n c.valid * 2 ^ 31 + c.buddy * 1024 + c.lmn

/-! ### The registers (R619) -/

/-- A stored setting: its register, and its entry where it has several. -/
inductive Setting where
  | pwrCap | pwrGate | bellCfg | bellTrim | bellHoldover | rcCfg | vatTimeout | prsCfg (k : Nat) | ekTtl | fabPtCfg (k : Nat)
  | fabMap (k : Nat) | fabId | fabCover (k : Nat) | snpCfg | snpBuddy
deriving DecidableEq, Repr

/-- The register-space offset of a setting (R617). -/
def Setting.offset : Setting → Nat
  | .pwrCap => 0x010100 | .pwrGate => 0x010008 | .bellCfg => 0x04000C | .bellTrim => 0x040018 | .bellHoldover => 0x04001C
  | .rcCfg => 0x060000 | .vatTimeout => 0x0C000C | .prsCfg k => 0x0D0004 + 0x1000 * k | .ekTtl => 0x030028
  | .fabPtCfg k => 0x120000 + 0x1000 * k | .fabMap k => 0x128000 + 4 * k | .fabId => 0x129000 | .fabCover k => 0x129100 + 4 * k
  | .snpCfg => 0x100020 | .snpBuddy => 0x100024

/-- The settings in ascending OFFSET (R620). -/
def allSettings : List Setting :=
  [.pwrGate, .pwrCap, .ekTtl, .bellCfg, .bellTrim, .bellHoldover, .rcCfg, .vatTimeout] ++ (countFrom 0 16).map .prsCfg
    ++ [.snpCfg, .snpBuddy] ++ (countFrom 0 8).map .fabPtCfg ++ (countFrom 0 1024).map .fabMap ++ [.fabId]
    ++ (countFrom 0 32).map .fabCover

/-- The Ledger default, as encoded (R619). -/
def Setting.default : Setting → Nat
  | .pwrCap => 0x960 | .bellHoldover => 0x400 | .rcCfg => 0x40 | .vatTimeout => 0xBEBC2 | .prsCfg _ => 1 | .ekTtl => 0x02CB4178
  | .fabId => 0x3FF | .snpCfg => 0x403
  | _ => 0

/-- The register's RW fields as a read gives them (R6, R619): a value that waits for a reset or a Bell reads as written. -/
def settingGet (s : State) : Setting → Nat
  | .pwrCap => s.pwr.cap
  | .pwrGate => s.pwr.gateRegions
  | .bellCfg => bellCfgWord (s.bell.cfgPend.getD s.bell.cfg)
  | .bellTrim => s.bell.trimP + 65536 * s.bell.trimA
  | .bellHoldover => s.bell.holdLimit
  | .rcCfg => s.rc.replyLimit
  | .vatTimeout => s.vat.timeout
  | .prsCfg k => b2n (getPrs s k).driftEn
  | .ekTtl => s.sec.ekTtl
  | .fabPtCfg k => b2n (fabPort s k).dateline
  | .fabMap k => mapWord (tget default s.fab.map k)
  | .fabId => s.fab.lmnPend.getD (ownLmn s)
  | .fabCover k => coverWord (tget default s.fab.cover k)
  | .snpCfg => s.snp.mirrorNext * 16 + s.snp.keep
  | .snpBuddy => b2n s.snp.buddyValid * 2 ^ 31 + s.snp.buddyLmn

/-- A write of a setting's register (R505, R619): reserved bits are ignored (R9), values that the register does not take leave it
as it was. -/
def settingPut (s : State) (x : Setting) (w : Nat) : State :=
  match x with
  | .pwrCap => { s with pwr.cap := bits w 0 12 }
  | .pwrGate => { s with pwr.gateRegions := bits w 0 16 }
  | .bellCfg => { s with bell.cfgPend := some (bellCfgOf w) }
  | .bellTrim => { s with bell.trimP := bits w 0 16, bell.trimA := bits w 16 16 }
  | .bellHoldover => if bits w 0 24 = 0 then s else { s with bell.holdLimit := bits w 0 24 }
  | .rcCfg => if bits w 0 16 = 0 then s else { s with rc.replyLimit := bits w 0 16 }
  | .vatTimeout => if bits w 0 32 = 0 then s else { s with vat.timeout := bits w 0 32 }
  | .prsCfg k => modPrs s k (fun r => { r with driftEn := bitOf w 0 })
  | .ekTtl => if bits w 0 32 = 0 then s else { s with sec.ekTtl := bits w 0 32 }
  | .fabPtCfg k => modFab s k (fun q => { q with dateline := bitOf w 0 })
  | .fabMap k => mapWrite s k w
  | .fabId => { s with fab.lmnPend := some (bits w 0 10) }
  | .fabCover k =>
    { s with fab.cover := tset default s.fab.cover k { valid := bitOf w 31, buddy := bits w 10 10, lmn := bits w 0 10 } }
  | .snpCfg => { s with snp.mirrorNext := bits w 4 8, snp.keep := if bits w 0 4 < 2 then s.snp.keep else bits w 0 4 }
  | .snpBuddy => { s with snp.buddyValid := bitOf w 31, snp.buddyLmn := bits w 0 10 }

/-! ### Start-up step 8 (R46, R256, R505, R612, R621) -/

/-- The value that the module applies of a stored one (R621): the default where a write would have been ignored, the substitute
of R46, R256 and R283. -/
def settingApplied (x : Setting) (w : Nat) : Nat :=
  match x with
  | .pwrCap => max 900 (min 2400 (bits w 0 12))
  | .bellCfg => if bits w 3 2 = 3 then w - 24 else w
  | .bellHoldover | .rcCfg | .vatTimeout | .ekTtl => if w = 0 then x.default else w
  | .snpCfg => if bits w 0 4 < 2 then bits w 4 8 * 16 + 3 else w
  | _ => w

/-- BELL_CFG and FAB_ID take their pending values, and a SEL that waits: as a warm reset or start-up applies them (R280, R451). A module
in the spare role of a Bell domain holds no assigned LMN until it takes one over (R21, R39, R257). -/
def applyPending (s : State) : State :=
  let s := match s.bell.cfgPend with
    | some c => { s with bell.cfg := c, bell.cfgPend := none }
    | none => s
  let s := match s.fab.lmnPend with
    | some l => { s with fab.lmn := l, fab.lmnPend := none }
    | none => s
  { s with
    fab.assigned := s.fab.lmn != 0x3FF && !(s.bell.cfg.domainEn && s.bell.cfg.role == 3)
    fab.map := s.fab.map.map (fun e =>
      (e.1, { e.2 with sel := (match e.2.selPend with | some x => x.1 | none => e.2.sel), selPend := none })) }

/-- The journal entry of a substitution (R509): requested and applied values; AUX has the low 16 bits of the offset. -/
def substituted (s : State) (x : Setting) (w v : Nat) : State :=
  journal s { action := 0x10, aux := x.offset % 65536, data := leBytes 4 w ++ leBytes 4 v }

/-- Applies one stored setting (R505, R621). -/
def settingLoad (s : State) (x : Setting) (w : Nat) : State :=
  let v := settingApplied x w
  let s := settingPut s x v
  if v = w then s else substituted s x w v

/-- Every shadow setting at its default (R505). -/
def settingDefaults (s : State) : State :=
  let s := forEach [.pwrCap, .pwrGate, .bellCfg, .bellTrim, .bellHoldover, .rcCfg, .vatTimeout, .ekTtl, .fabId, .snpCfg, .snpBuddy]
    (fun s x => settingPut s x x.default) s
  let port := s.fab.port.map (fun e => (e.1, { e.2 with dateline := false }))
  { s with prs := (s.prs.map (fun e => (e.1, { e.2 with driftEn := true }))).filter (fun e => e.2 != default),
           fab := { s.fab with map := [], cover := [], port := port.filter (fun e => e.2 != default) } }

/-- A register value of a bank, its default where the bank has none. -/
def Bank.get (b : Bank) (x : Setting) : Nat := ((b.recs.find? (fun e => e.1 == x.offset)).map Prod.snd).getD x.default

/-- Step 8 applies the current bank, or the defaults (R505, R620): settings and role key slots. A setting at its default needs
no write. -/
def loadBank (s : State) : State :=
  let s := settingDefaults s
  match s.led.bank with
  | none => applyPending { s with lcs.keys := [] }
  | some b =>
    let s := forEach (allSettings.filter (fun x => b.get x != x.default)) (fun s x => settingLoad s x (b.get x)) s
    applyPending { s with lcs.keys := b.keys, snp.mirrorUnits := min 128 s.snp.mirrorNext }

/-! ### A bank (R506, R620) -/

/-- Bytes of the key slots of a bank (R620). -/
def bankKeys (b : Bank) : List Byte :=
  ((countFrom 0 12).map (fun k =>
    match tget [] b.keys k with
    | [] => List.replicate 2048 (0 : Byte)
    | key => slice ([(1 : Byte)] ++ List.replicate 31 0 ++ slice key 0 1952) 0 2048)).flatten

/-- Bytes 0x0000-0xFFC7 of a bank (R620). -/
def bankBody (b : Bank) : List Byte :=
  slice ([(1 : Byte), 0xA1] ++ leBytes 2 b.recs.length ++ leBytes 4 b.lc ++ leBytes 8 b.stamp) 0 64
    ++ slice ((b.recs.map (fun e => leBytes 4 e.1 ++ leBytes 4 e.2)).flatten) 0 (0x4000 - 0x40)
    ++ bankKeys b ++ List.replicate (0xFFC0 - 0xA000) 0 ++ leBytes 8 b.seq

/-- DIGEST of a bank (R620). -/
def bankDigest (b : Bank) : List Byte := shake256 32 (bankBody b)

/-- The bank that a STORE writes (R506, R620). -/
def bankOf (s : State) : Bank :=
  { recs := allSettings.map (fun x => (x.offset, settingGet s x)), keys := s.lcs.keys, lc := s.lcs.lc.code,
    stamp := now s, seq := ((s.led.bank.map Bank.seq).getD 0) + 1 }

end Sys2Proof.Machine
end

