-- ==== Sys2Proof/Machine/Security.lean ====
section
/-! DEFINITION. The LCS and SEC commands (spec/16_security_roles.md R496-R500, R503, R506, R510-R517, R522, R524, R525): life
cycle, role keys, STORE, journal acknowledgement, firmware floor, RECOVER, quotes and key release.
Readings and choices: log 9, 100, 101, 102, 103, 104, 105, 107, 124. -/

namespace Sys2Proof.Machine

/-! ### The life cycle (R496-R499) -/

/-- A life-cycle state from its code. -/
def lifeOf (n : Nat) : LifeCycle :=
  match n with
  | 0 => .manufacture | 1 => .provisioned | 2 => .deployed | 3 => .returned | _ => .scrapped

/-- The role that enters a state (R496). -/
def enteredBy (n : Nat) : Role := if n = 2 ∨ n = 3 then .installer else .maker

/-- The state permits a Syllabus, open house, quotes and key release (R496). -/
def inField (s : State) : Bool := s.lcs.lc == .provisioned || s.lcs.lc == .deployed

/-- What runs for a partition ends at once: threads, queues, engine commands, resources (R412). -/
def dropPartition (s : State) (p : Nat) : State :=
  let q := getPtn s p
  if q.state = .ungranted ∨ q.state = .off then s
  else
    let s := forEach (threadsWhere s (fun n _ h => q.owns (n / 8) && h.state != .idle)) (fun s e => idleThread s e.1 e.2) s
    let s := forEach (coresOf s p) (fun s n => modCore s n (fun c =>
      { emptyCore c with acdRun := none, wcdRun := none, xferRun := none, decision := none })) s
    let s := forEach (tkeys s.prs) (fun s r => modPrs s r (fun x =>
      { x with q := x.q.filter (fun e => e.issuer.ptn != p),
               run := (match x.run with | some e => if e.issuer.ptn = p then none else some e | none => none) })) s
    let s := deallocate (dropPtnEks s p) p
    endPartition (modPtn s p (fun q => { q with
      launchQ := [], syl := none, reload := none, enablePending := none, holdCause := 0, tt := {} })) p

/-- What RETURNED keeps of a settings bank: the maker's keys (R498). -/
def returnedBank (b : Bank) : Bank :=
  { b with recs := allSettings.map (fun x => (x.offset, x.default)), keys := b.keys.filter (fun e => e.1 < 4) }

/-- Entry to RETURNED (R498). -/
def enterReturned (s : State) : State :=
  let s := forEach (countFrom 0 64) dropPartition s
  let s := scrubLinear (scrubLinear s .hbm 0 (2 ^ 39)) .tier2 0 (2 ^ 40)
  let led : Ledger := { s.led with bank := s.led.bank.map returnedBank, bankOld := none, stored := none, storedOld := none }
  { s with keys := {}, sec.eks := [], led := led, lcs.keys := s.lcs.keys.filter (fun e => e.1 < 4),
           syl := { s.syl with module := none, mode := 0, stored := false }, oh := {},
           vat := { s.vat with ready := false, fetches := [], jobs := [] } }

/-- Entry to SCRAPPED (R499): every Ledger region but the journal is zeroised. -/
def enterScrapped (s : State) : State :=
  { s with led := { s.led with ident := none, bank := none, bankOld := none, stored := none, storedOld := none, repair := [] },
           lcs.keys := [] }

/-- LCS_RESULT.STATUS (R524). -/
def lcOk : Nat := 0
def lcRole : Nat := 1
def lcBadState : Nat := 2
def lcBusy : Nat := 3
def lcJournalFull : Nat := 4
def lcBadKey : Nat := 5
def lcFuseFail : Nat := 6
def lcRejected : Nat := 7

/-- Answers an LCS command (R524). -/
def lcsAnswer (s : State) (st : Nat) : State := { s with lcs.done := true, lcs.status := st }

/-- The fused life cycle after a burn to `target`: a fuse once burnt stays burnt (R497: no transition leads back). -/
def burnLife (lc : LifeCycle) (target : Nat) : LifeCycle := lifeOf (max lc.code target)

/-- ADVANCE (R497): `burn` says that the fuse verifies. -/
def advanceOp (s : State) (who : Req) (target : Nat) (burn : Bool) : State × Nat :=
  if target ≠ s.lcs.lc.code + 1 ∨ 4 < target then (s, lcBadState)
  else if roleOf s who ≠ some (enteredBy target) then (s, lcRole)
  else if !journalRoom s then (s, lcJournalFull)
  else if !burn then (s, lcFuseFail)
  else
    let s := journalFor s who { action := 0x01, aux := target }
    let s := { s with lcs.lc := lifeOf target, fuse.lc := burnLife s.fuse.lc target }
    (if target = 3 then enterReturned s else if target = 4 then enterScrapped s else s, lcOk)

/-! ### Role keys (R500, R503) -/

/-- The requester may change the key slots of a role in this state (R503). -/
def mayKeys (s : State) (who : Req) (role : Role) : Bool :=
  match roleOf s who, role with
  | some .maker, .maker => s.lcs.lc == .manufacture
  | some .maker, .installer => s.lcs.lc == .manufacture || s.lcs.lc == .provisioned
  | some .installer, .installer => inField s
  | some .installer, .operator => true
  | _, _ => false

/-- KEY_SET of the key in LCS_KEYBUF (R500). -/
def keySetOp (s : State) (who : Req) (code slot : Nat) : State × Nat :=
  match roleOfCode code with
  | none => (s, lcRejected)
  | some role =>
    let key := slice s.lcs.keybuf 0 1952
    if !mayKeys s who role then (s, lcRole)
    else if role = .maker ∧ !Config.makerDigests.contains (shake256 32 key) then (s, lcBadKey)
    else if !journalRoom s then (s, lcJournalFull)
    else
      let s := journalFor s who { action := 0x02, aux := code + 4 * slot, data := shake256 32 key }
      ({ s with lcs.keys := tset [] s.lcs.keys (keyIndex role slot) key }, lcOk)

/-- KEY_CLEAR (R500). -/
def keyClearOp (s : State) (who : Req) (code slot : Nat) : State × Nat :=
  match roleOfCode code with
  | none => (s, lcRejected)
  | some role =>
    if !mayKeys s who role then (s, lcRole)
    else if !journalRoom s then (s, lcJournalFull)
    else
      let s := journalFor s who { action := 0x03, aux := code + 4 * slot }
      ({ s with lcs.keys := tset [] s.lcs.keys (keyIndex role slot) [] }, lcOk)

/-! ### STORE, the journal, the firmware floor, RECOVER (R506, R510, R521, R522) -/

/-- STORE (R506): the other bank is written and becomes current; with SYL the module Syllabus in force is stored too. -/
def storeOp (s : State) (who : Req) (syl : Bool) : State × Nat :=
  if !isInstaller s who then (s, lcRole)
  else if !journalRoom s then (s, lcJournalFull)
  else
    let b := bankOf s
    let led : Ledger := match syl, s.syl.module with
      | true, some m => { s.led with bank := some b, bankOld := s.led.bank, stored := some m.image, storedOld := s.led.stored }
      | _, _ => { s.led with bank := some b, bankOld := s.led.bank }
    (journalFor { s with led := led } who { action := 0x06, aux := b2n syl, data := bankDigest b }, lcOk)

/-- JRN_ACK (R510): the acknowledged SEQ only rises, to an entry that has been written; the room that it makes counts for its own
entry. -/
def jrnAckOp (s : State) (who : Req) : State × Nat :=
  let k := s.lcs.jrnAck
  let s1 := { s with led.ack := k }
  if (roleOf s who).isNone then (s, lcRole)
  else if k < s.led.ack ∨ s.led.seq < k then (s, lcBadState)
  else if !journalRoom s1 then (s, lcJournalFull)
  else (journalFor s1 who { action := 0x11, data := leBytes 8 k }, lcOk)

/-- FW_FLOOR (R503, R521): the fused floor rises to the FW_VER of the running image. -/
def fwFloorOp (s : State) (who : Req) (burn : Bool) : State × Nat :=
  if !isMaker s who then (s, lcRole)
  else if !journalRoom s then (s, lcJournalFull)
  else if !burn then (s, lcFuseFail)
  else
    let v := max s.fuse.fwFloor s.sec.fwVer
    (journalFor { s with fuse.fwFloor := v } who { action := 0x0F, data := leBytes 4 v }, lcOk)

/-- RECOVER (R522): a module reset into RECOVERY is due. -/
def recoverOp (s : State) (who : Req) : State × Nat :=
  if !isInstaller s who then (s, lcRole)
  else if !journalRoom s then (s, lcJournalFull)
  else (journalFor { s with mod.due := some { cause := 5, recovery := true } } who { action := 0x13 }, lcOk)

/-- The effect of an LCS command with its status (R524); `burn` says that a fuse burn verifies. -/
def lcsOp (s : State) (who : Req) (word : Nat) (burn : Bool) : State × Nat :=
  if bits word 10 22 ≠ 0 then (s, lcRejected)
  else match bits word 0 4 with
  | 1 => advanceOp s who (bits word 4 3) burn
  | 2 => keySetOp s who (bits word 4 3) (bits word 7 2)
  | 3 => keyClearOp s who (bits word 4 3) (bits word 7 2)
  | 4 => storeOp s who (bitOf word 9)
  | 5 => jrnAckOp s who
  | 6 => fwFloorOp s who burn
  | 7 => recoverOp s who
  | _ => (s, lcRejected)

/-- A write of LCS_CMD (R524, R626). -/
def lcsCmd (s : State) (who : Req) (word : Nat) (burn : Bool) : State :=
  let (s, st) := lcsOp s who word burn
  lcsAnswer s st

/-- The requester may write LCS_CMD and SEC_CMD: each command then checks its role (R497, R503). -/
def mayCommand (s : State) (who : Req) : Bool := (roleOf s who).isSome

/-- A row of LCS_CMD: an access outside the rights changes nothing (R503). -/
def lcsRow (s : State) (who : Req) (word : Nat) (burn : Bool) : State :=
  if mayCommand s who then lcsCmd s who word burn else s

/-- LCS_KEYBUF is written by the roles that change key slots (R503). -/
def mayKeybuf (s : State) (who : Req) : Bool := isMaker s who || isInstaller s who

/-- ADVANCE (R497-R499): `burn` says that the fuse burn verifies. -/
def execAdvance (who : Req) (target : Nat) (burn : Bool) (s : State) : Out := .next (lcsRow s who (1 + target % 8 * 16) burn)
/-- KEY_SET (R500): `key` is what LCS_KEYBUF holds. -/
def execKeySet (who : Req) (role slot : Nat) (key : List Byte) (s : State) : Out :=
  .next (if mayCommand s who then
      lcsCmd (if mayKeybuf s who then { s with lcs.keybuf := slice key 0 1952 } else s) who (2 + role % 8 * 16 + slot % 4 * 128) true else s)
/-- KEY_CLEAR (R500). -/
def execKeyClear (who : Req) (role slot : Nat) (s : State) : Out :=
  .next (lcsRow s who (3 + role % 8 * 16 + slot % 4 * 128) true)
/-- LEDGER_STORE (R506). -/
def execLedgerStore (who : Req) (syl : Bool) (s : State) : Out := .next (lcsRow s who (4 + b2n syl * 512) true)
/-- JRN_ACK (R510): `seq` is what LCS_JRN_ACK holds. -/
def execJrnAck (who : Req) (seq : Nat) (s : State) : Out :=
  .next (if mayCommand s who then lcsCmd { s with lcs.jrnAck := seq % 2 ^ 64 } who 5 true else s)
/-- FW_FLOOR (R521). -/
def execFwFloor (who : Req) (burn : Bool) (s : State) : Out := .next (lcsRow s who 6 burn)

/-! ### Quotes (R512-R514) -/

/-- SEC_RESULT.STATUS (R525). -/
def scOk : Nat := 0
def scRole : Nat := 1
def scBadState : Nat := 2
def scBusy : Nat := 3
def scNoEk : Nat := 4
def scWrongKind : Nat := 5
def scTagFail : Nat := 6
def scNotFree : Nat := 7
def scQueued : Nat := 8
def scRejected : Nat := 9
def scEkFull : Nat := 10
def scInUse : Nat := 11

/-- The measurement of the module Syllabus in force; zero in open house (R513). -/
def modMeas (s : State) : List Byte := slice ((s.syl.module.map ModSyl.meas).getD []) 0 64

/-- The measurement of a partition (R366, R513). -/
def ptnMeas (s : State) (p : Nat) : List Byte := slice (((getPtn s p).syl.map PtnSyl.meas).getD []) 0 64

/-- Bytes 0x000-0x61F of a quote (R513): `ptn` is none for a module quote, `ek` the encapsulation key. -/
def quoteBody (s : State) (ptn : Option Nat) (ek : List Byte) : List Byte :=
  let form := match ptn with
    | some p => ((getPtn s p).syl.map PtnSyl.form).getD 0
    | none => 0
  [(1 : Byte), if ptn.isSome then 2 else 1] ++ leBytes 1 s.lcs.lc.code ++ [(0xA1 : Byte)] ++ leBytes 2 (ptn.getD 0)
    ++ leBytes 2 form ++ leBytes 8 (ownLmn s) ++ leBytes 8 (now s) ++ leBytes 8 s.led.seq ++ List.replicate 32 (0 : Byte)
    ++ slice s.sec.deviceId 0 32 ++ slice s.sec.nonce 0 32 ++ slice s.sec.fwMeas 0 64 ++ modMeas s
    ++ (match ptn with | some p => ptnMeas s p | none => List.replicate 64 0)
    ++ (if s.led.seq = 0 then journalHead0 s else s.led.head) ++ slice ek 0 1184

/-- A whole quote, with its signature (R513). -/
def quoteBytes (s : State) (body : List Byte) : List Byte :=
  slice (body ++ slice (Config.mldsaSign (s.led.ident.getD []) (shake256 64 body) (ascii "SV44-QUOTE")) 0 3309) 0 4928

/-- Makes a quote (R512): the fresh key is kept under its QDIGEST, with what it is bound to. -/
def makeQuote (s : State) (who : Req) (ptn : Option Nat) : State :=
  let (seed, s) := draw s 64
  let body := quoteBody s ptn (Config.mlkemPublic seed)
  let ek : Ek := { ptn := ptn, meas := (match ptn with | some p => ptnMeas s p | none => modMeas s),
                   qdigest := (shake256 64 body).take 32, seed := seed, bell := s.bell.count, ttl := s.sec.ekTtl }
  let nonce := slice s.sec.nonce 0 32
  journalFor { s with sec.eks := s.sec.eks ++ [ek], sec.qbuf := quoteBytes s body } who
    { action := 0x0C, ptn := ptn.getD 0xFF, aux := if ptn.isSome then 2 else 1, data := nonce }

/-- QUOTE_MODULE (R503, R512, R514). -/
def quoteModuleOp (s : State) (who : Req) : State × Nat :=
  if !(isInstaller s who || isOperator s who) then (s, scRole)
  else if !inField s then (s, scBadState)
  else if 4 ≤ (s.sec.eks.filter (fun e => e.ptn == none)).length then (s, scEkFull)
  else if !journalRoom s then (s, scRejected)
  else (makeQuote s who none, scOk)

/-- QUOTE_PARTITION (R503, R512, R514). -/
def quotePartitionOp (s : State) (who : Req) (p : Nat) : State × Nat :=
  if !isOperator s who then (s, scRole)
  else if !inField s || !ptnUp s p then (s, scBadState)
  else if 4 ≤ (s.sec.eks.filter (fun e => e.ptn == some p)).length then (s, scEkFull)
  else if !journalRoom s then (s, scRejected)
  else (makeQuote s who (some p), scOk)

/-! ### Key release (R515-R517) -/

/-- Step 1: reserved fields and TARGET of a key release record (R515, R516). -/
def krOk (r : List Byte) : Bool :=
  let target := field r 1 1
  field r 0 1 == 1 && (target == 1 || target == 2) && allZero (slice r 5 3) && allZero (slice r 0x504 0x3C)
    && (if target = 1 then decide (field r 2 2 < 4096) && decide (field r 4 1 < 64) else decide (field r 2 2 < 16) && field r 4 1 == 0)

/-- Step 2: the decapsulation key serves the record's target (R512, R516). -/
def krKind (s : State) (r : List Byte) (e : Ek) : Bool :=
  if field r 1 1 = 1 then
    e.ptn == some (field r 4 1) && ptnOfCtx s (field r 2 2) == some (field r 4 1)
  else e.ptn == none && e.meas == modMeas s

/-- The bundle as four keys of 32 bytes (R517). -/
def bundleKeys (b : List Byte) : KeySlot := { xts := slice b 0 64, imp := slice b 0x40 32, exp := slice b 0x60 32 }

/-- Step 4 for a context (R411, R516). -/
def releaseContext (s : State) (who : Req) (r b : List Byte) : State × Nat :=
  let c := field r 2 2
  let x := getCtx s c
  let e : JEntry := { action := 0x0B, ptn := field r 4 1, aux := c, data := slice r 8 32 }
  let k := bundleKeys b
  let queue := (modCtx (journalFor s who { e with result := scQueued }) c (fun x => { x with
    enableQ := x.enableQ ++ [.key [k.xts, k.imp, k.exp]] }), scQueued)
  match x.state with
  | .free => if x.enableQ.isEmpty then (loadKey (journalFor s who e) c k, scOk) else queue
  | .detaching | .scrubbing => queue
  | _ => (s, scNotFree)

/-- Step 4 for a base slot (R516, R517); a slot without a BASE window is refused as a record that names nothing. -/
def releaseBase (s : State) (who : Req) (r b : List Byte) : State × Nat :=
  let n := field r 2 2
  let k := bundleKeys b
  if ((moduleWins s).filter (fun w => w.type == .base)).length ≤ n then (s, scRejected)
  else if (tget none s.keys.base n).isSome then (s, scInUse)
  else if !allZero k.exp then (s, scRejected)
  else
    let s := journalFor s who { action := 0x0B, aux := 0x8000 + n, data := slice r 8 32 }
    ({ s with keys.base := tset none s.keys.base n (some k) }, scOk)

/-- KEY_RELEASE of the record in SEC_KRBUF (R516). -/
def keyReleaseOp (s : State) (who : Req) : State × Nat :=
  let r := slice s.sec.krbuf 0 1344
  if !isOperator s who then (s, scRole)
  else
    let s := { s with sec.krbuf := [] }
    if !inField s then (s, scBadState)
    else if !krOk r then (s, scRejected)
    else match s.sec.eks.find? (fun e => e.qdigest == slice r 8 32) with
    | none => (s, scNoEk)
    | some e =>
      if !krKind s r e then (s, scWrongKind)
      else if !journalRoom s then (s, scRejected)
      else
        let s := { s with sec.eks := eraseFirst (· == e) s.sec.eks }
        let kek := shake256 32 (ascii "SV44-KEK" ++ Config.mlkemDecaps e.seed (slice r 0x28 1088) ++ slice r 8 32)
        match openGcm kek (slice r 0x468 12) (slice r 0 0x28) (slice r 0x474 144) with
        | none => (s, scTagFail)
        | some b => if field r 1 1 = 1 then releaseContext s who r b else releaseBase s who r b

/-- EK_DROP (R514): the keys of a partition's quotes by those who may ask for them, of module quotes likewise (R503). -/
def ekDropOp (s : State) (who : Req) (p : Nat) (module : Bool) : State × Nat :=
  if module then
    if isInstaller s who || isOperator s who then ({ s with sec.eks := s.sec.eks.filter (fun e => e.ptn != none) }, scOk)
    else (s, scRole)
  else if isOperator s who then (dropPtnEks s p, scOk) else (s, scRole)

/-- The effect of a SEC command with its status (R525). -/
def secOp (s : State) (who : Req) (word : Nat) : State × Nat :=
  if bits word 11 21 ≠ 0 then (s, scRejected)
  else match bits word 0 4 with
  | 1 => quoteModuleOp s who
  | 2 => quotePartitionOp s who (bits word 4 6)
  | 3 => keyReleaseOp s who
  | 4 => ekDropOp s who (bits word 4 6) (bitOf word 10)
  | _ => (s, scRejected)

/-- A write of SEC_CMD (R525, R626). -/
def secCmd (s : State) (who : Req) (word : Nat) : State :=
  let (s, st) := secOp s who word
  { s with sec.done := true, sec.status := st }

/-- SEC_NONCE is written by the roles that ask for quotes, SEC_KRBUF by the operator (R503). -/
def mayNonce (s : State) (who : Req) : Bool := isInstaller s who || isOperator s who

/-- SEC_NONCE as written before a quote. -/
def putNonce (s : State) (who : Req) (nonce : List Byte) : State :=
  if mayNonce s who then { s with sec.nonce := slice nonce 0 32 } else s

/-- QUOTE_MODULE (R512): `nonce` is what SEC_NONCE holds. -/
def execQuoteModule (who : Req) (nonce : List Byte) (s : State) : Out :=
  .next (if mayCommand s who then secCmd (putNonce s who nonce) who 1 else s)
/-- QUOTE_PARTITION (R512). -/
def execQuotePartition (who : Req) (p : Nat) (nonce : List Byte) (s : State) : Out :=
  .next (if mayCommand s who then secCmd (putNonce s who nonce) who (2 + p % 64 * 16) else s)
/-- KEY_RELEASE (R516): `record` is what SEC_KRBUF holds. -/
def execKeyRelease (who : Req) (record : List Byte) (s : State) : Out :=
  .next (if mayCommand s who then secCmd (if isOperator s who then { s with sec.krbuf := slice record 0 1344 } else s) who 3 else s)
/-- EK_DROP (R514). -/
def execEkDrop (who : Req) (p : Nat) (module : Bool) (s : State) : Out :=
  .next (if mayCommand s who then secCmd s who (4 + p % 64 * 16 + b2n module * 1024) else s)
/-- EK_EXPIRY (R514): keys whose time has passed are dropped. -/
def execEkExpiry (s : State) : Out :=
  .next { s with sec.eks := s.sec.eks.filter (fun e => decide (s.bell.count < e.bell + e.ttl)) }

end Sys2Proof.Machine
end

