-- ==== Sys2Proof/Machine/SelfTest.lean ====
section
/-! DEFINITION. Built-in self-test and repair (spec/19_self_test_repair.md): result records and what a failure does, the TST
commands, permanent repairs, and the instructions of the test access port but for register access.
Readings and choices: log 14, 17, 106, 112, 113, 132, 158. -/

namespace Sys2Proof.Machine

/-! ### Result records (R575-R577) -/

/-- The unit kind of a code (R544). -/
def unitKindOf (n : Nat) : UnitKind :=
  getAt .module [.module, .core, .cluster, .region, .die, .press, .bank, .port, .controlPort, .hbm, .tier2, .vat, .brine, .security,
    .flash, .powerStage] n

/-- The 32 bytes of a result record (R577). -/
def resBytes (r : TestRes) (outcome run : Nat) : List Byte :=
  withCrcTail (slice (leBytes 1 1 ++ leBytes 1 r.test ++ leBytes 1 outcome ++ leBytes 1 r.kind ++ leBytes 2 r.unit ++ leBytes 1 r.bank
    ++ leBytes 1 r.bit ++ leBytes 4 r.addr ++ leBytes 4 r.expect ++ leBytes 4 r.obtained ++ leBytes 4 run) 0 32) 28

/-- Puts a record into the ring of 256; a full ring loses its oldest (R576). -/
def pushResult (s : State) (bs : List Byte) : State :=
  if s.tst.results.length < 256 then { s with tst.results := s.tst.results ++ [bs] }
  else { s with tst.results := s.tst.results.drop 1 ++ [bs], tst.dropped := satInc 16 s.tst.dropped }

/-- DETAIL of BIST_FAIL (R545, R576). -/
def bistDetail (s : State) (r : TestRes) : List Byte :=
  leBytes 1 r.test ++ leBytes 1 r.kind ++ leBytes 2 1 ++ leBytes 4 r.expect ++ leBytes 4 r.obtained ++ leBytes 4 (s.tst.results.length - 1)

/-- UNIT of a repair record for a unit under test (R579). -/
def resRepUnit (r : TestRes) : Nat :=
  match r.kind with
  | 2 => 0x8000 + r.unit
  | 9 => 0x4000 + r.unit
  | 10 => 0x6000 + r.unit
  | _ => r.unit

/-- A row or column is repaired (R580): the record is written as APPLIED, and one that held the same place before is free again. -/
def bistRepair (s : State) (origin kind : Nat) (r : TestRes) : State :=
  let u := resRepUnit r
  let old := s.led.repair.filter (fun e => e.2.kind == kind && e.2.unit == u && e.2.bank == r.bank && e.2.addr == r.addr && e.2.state == 2)
  let s := forEach old (fun s e => putRep s e.1 { e.2 with state := 0 }) s
  addRep s { kind := kind, origin := origin, state := 2, unit := u, bank := r.bank, spare := r.spare, addr := r.addr, bit := r.bit,
             stamp := now s }

/-- A core that fails is retired (R575): a stand-by spare takes its number at once, with a CORE record. Answers whether there was
one, or the core was itself a spare. -/
def bistRetire (s : State) (origin q : Nat) : State × Bool :=
  let x := getPhys s q
  let s := modPhys s q (fun x => { x with state := .retired, number := 0x3FF, testing := false, releasing := false, leaving := false })
  let s := addRep s { kind := 1, origin := origin, state := 2, unit := q, spare := 8, bit := 0xFF, stamp := now s }
  if x.number = 0x3FF then (s, true)
  else match spareOf s (q / 9) with
    | some r => (modPhys s r (fun y => { y with state := .active, number := x.number, prior := .spare, home := x.number }), true)
    | none => (holdCluster s (q / 9), false)

/-- The effect of a failure at its unit, with OUTCOME (R575, R577). -/
def bistEffect (s : State) (origin : Nat) (r : TestRes) : State × Nat :=
  match r.fix with
  | .pass => (s, 0)
  | .notRun => (s, 4)
  | .row => (bistRepair s origin 2 r, 1)
  | .column => (bistRepair s origin 3 r, 1)
  | .remap => (bistRepair s origin 4 r, 1)
  | .none =>
    match unitKindOf r.kind with
    | .core =>
      let (s, ok) := bistRetire s origin r.unit
      (s, if ok then 2 else 3)
    | .cluster => (holdCluster s r.unit, 3)
    | .press => (forEach (countFrom (8 * r.unit) 8) holdCluster s, 3)
    | .port =>
      if r.test = 2 then ({ s with tst.deadPorts := insertNat r.unit s.tst.deadPorts }, 3)
      else
        let free := (fabPort s r.unit).failed == 0
        (modFab s r.unit (fun q => { q with failed := q.failed ||| 2 ^ r.bit }), if free then 1 else 3)
    | .flash => ({ s with tst.contentBad := true }, 3)
    | .tier2 =>
      if r.test = 2 ∧ 8 ≤ r.unit then ({ s with tst.deadChannels := insertNat r.unit s.tst.deadChannels }, 3) else (s, 3)
    | _ => (s, 3)

/-- What a test finds at a unit (R575-R577): its record; BIST_FAIL for a failure, BIST_UNREPAIRED for one without a repair. -/
def testResult (origin : Nat) (s : State) (r : TestRes) : State :=
  let (s, out) := bistEffect s origin r
  let s := pushResult s (resBytes r out s.tst.run)
  if out = 0 ∨ out = 4 then s
  else
    let a : FaultAt := { kind := unitKindOf r.kind, unit := r.unit, detail := bistDetail s r }
    let s := raise s .bistFail a
    if out = 3 then raise { s with tst.unrepaired := true } .bistUnrepaired a else s

/-- The results of a part of a run, and whether none of them is UNREPAIRED (R585). -/
def testResults (origin : Nat) (s : State) (rs : List TestRes) : State × Bool :=
  let u := s.tst.unrepaired
  let s := forEach rs (testResult origin) { s with tst.unrepaired := false }
  ({ s with tst.unrepaired := u || s.tst.unrepaired }, !s.tst.unrepaired)

/-! ### SRAM after a test (R347, R597) -/

/-- The SRAM lines of cores `c`, `c + 1`, … and clusters `k`, `k + 1`, … are zero and UNOWNED. -/
def clearSram (s : State) (c nc k nk : Nat) : State :=
  let a := 0x0200000000 + c * 2 ^ 21
  let b := 0x0100000000 + k * 2 ^ 23
  let clr {α : Type} (t : Tbl α) (u : Nat) : Tbl α := tclear (tclear t (a / u) (nc * 2 ^ 21 / u)) (b / u) (nk * 2 ^ 23 / u)
  { s with mem := clr s.mem 1, memErr := clr s.memErr 8, tags := clr s.tags 64,
           resv := keepResv (keepResv s.resv a (nc * 2 ^ 21)) b (nk * 2 ^ 23) }

/-- The SRAM lines of a region. -/
def clearRegion (s : State) (r : Nat) : State := clearSram s (64 * r) 64 (8 * r) 8

/-! ### TST_CMD (R571, R573, R583-R586) -/

/-- TST_RESULT.STATUS (R585). -/
def tsOk : Nat := 0
def tsRole : Nat := 1
def tsBadState : Nat := 2
def tsRejected : Nat := 4
def tsFuseFail : Nat := 5

/-- Answers a command (R585). -/
def tstAnswer (s : State) (st : Nat) : State := { s with tst := { s.tst with busy := false, done := true, status := st } }

/-- The regions of a mask that are not gated, in ascending order (R573). -/
def testRegions (s : State) (mask : Nat) : List Nat :=
  (countFrom 0 16).filter (fun r => bitOf mask r && !bitOf s.pwr.gateActive r)

/-- A test run begins: the two lowest regions are admitted (R573). -/
def startRun (s : State) (kind : Nat) (rs : List Nat) : State :=
  { s with tst := { s.tst with
    busy := true, kind := kind, running := rs.take 2, waiting := rs.drop 2, regionsOk := 0, unrepaired := false, run := wrap 32 (s.tst.run + 1) } }

/-- FUSE (R583): every APPLIED record becomes permanent, those whose read-back passes as FUSED. -/
def fuseOp (s : State) (fails : List Nat) : State :=
  let todo := s.led.repair.filter (fun e => e.2.state == 2)
  let s := forEach (todo.filter (fun e => !fails.contains e.1)) (fun s e =>
    putRep { s with fuse.repairs := s.fuse.repairs ++ [{ e.2 with state := 3 }] } e.1 { e.2 with state := 3 }) s
  tstAnswer s (if todo.any (fun e => fails.contains e.1) then tsFuseFail else tsOk)

/-- A write of TST_CMD (R571, R585, R626). -/
def tstCmd (s : State) (who : Req) (word : Nat) (fails : List Nat) : State :=
  if s.tst.busy then s
  else if word / 16 ≠ 0 ∨ word = 0 ∨ 5 ≤ word then tstAnswer s tsRejected
  else if !isMaker s who then tstAnswer s tsRole
  else if !(s.lcs.lc == .manufacture || s.lcs.lc == .returned) then tstAnswer s tsBadState
  else match word with
  | 1 => startRun s 1 (testRegions s (bits s.tst.arg 0 16))
  | 2 => startRun s 2 (testRegions s (bits s.tst.arg 0 16))
  | 3 => startRun s 3 []
  | _ => fuseOp s fails

/-- TST_ARG is written by the maker in the states of TST_CMD (R585). -/
def mayTstArg (s : State) (who : Req) : Bool :=
  isMaker s who && (s.lcs.lc == .manufacture || s.lcs.lc == .returned)

/-- A row of TST_CMD with TST_ARG; a requester without a role changes nothing (R503). -/
def tstRow (s : State) (who : Req) (op arg : Nat) (fails : List Nat) : State :=
  if (roleOf s who).isNone || !partsUp s then s
  else tstCmd (if mayTstArg s who then { s with tst.arg := arg } else s) who op fails

/-- RUN_QUICK (R571, R573). -/
def execRunQuick (who : Req) (regions : Nat) (s : State) : Out := .next (tstRow s who 1 (regions % 65536) [])
/-- RUN_FULL (R584). -/
def execRunFull (who : Req) (regions : Nat) (s : State) : Out := .next (tstRow s who 2 (regions % 65536) [])
/-- LOOP_FAR (R584). -/
def execLoopFar (who : Req) (ports : Nat) (s : State) : Out := .next (tstRow s who 3 (ports % 256 * 65536) [])
/-- FUSE (R583): `fails` are the records whose read-back fails. -/
def execFuse (who : Req) (fails : List Nat) (s : State) : Out := .next (tstRow s who 4 s.tst.arg fails)

/-- ORIGIN of repairs that a run finds (R579). -/
def runOrigin (s : State) : Nat := if s.tst.kind = 2 then 2 else 1

/-- REGION_BIST_END (R573, R576): a region ends its full-power BIST with these results, and the next one is admitted. -/
def execRegionBistEnd (region : Nat) (results : List TestRes) (s : State) : Out :=
  .next (
    if !s.tst.running.contains region then s
    else
      let (s, ok) := testResults (runOrigin s) s results
      let left := s.tst.running.filter (· != region)
      let s := { s with tst := { s.tst with
        running := left ++ s.tst.waiting.take 1, waiting := s.tst.waiting.drop 1,
        regionsOk := if ok then s.tst.regionsOk ||| 2 ^ region else s.tst.regionsOk } }
      clearRegion s region)

/-- TEST_RUN_END (R576, R584): the run's other tests have ended with these results. A full test leaves every memory filled with
zeros. -/
def execTestRunEnd (results : List TestRes) (s : State) : Out :=
  .next (
    if !s.tst.busy || s.tst.running != [] then s
    else
      let full := s.tst.kind == 2
      let s := forEach results (testResult (runOrigin s)) s
      let s := if full then { s with mem := [], memKey := [], memErr := [], resv := [] } else s
      tstAnswer s tsOk)

/-! ### The test access port (R572, R604) -/

/-- Boundary scan is permitted (R572), by the life cycle that the eFuses hold (R496), since the TAP serves before start-up has read
them (R593). -/
def scanPermitted (s : State) : Bool := s.fuse.lc == .manufacture || s.fuse.lc == .returned

/-- An opcode that the state does not permit decodes as BYPASS (R572). -/
def tapLoad (s : State) (ir : Nat) (f : State → State) : State :=
  if !s.pwr.vao then s
  else if scanPermitted s then f { s with tap.ir := ir } else { s with tap.ir := 0xFF, tap.drive := false }

/-- MOD_READY, FAULT_N, PRESENT_N and THERM_ALERT_N as their pins stand (R604): true is a high, or released, pin. -/
def pinReady (s : State) : Bool := s.mod.ready
def pinFaultN (s : State) : Bool := !(s.int.moduleFault || s.mod.recovery || s.pwr.tripped)
def pinPresentN (s : State) : Bool := !s.mod.present
def pinThermAlertN (s : State) : Bool := !(s.pwr.thermWarn || s.pwr.tripped)

/-- The 14 boundary cells as they capture the pins: outputs as the module drives them, inputs as they stand (R604). -/
def captureCells (s : State) (pins : Nat) : Nat :=
  bits pins 0 1 + 2 * b2n (pinReady s) + 4 * b2n (pinFaultN s) + 8 * b2n (pinPresentN s) + 16 * b2n (pinThermAlertN s)
    + 32 * bits pins 5 9

/-- TAP_RESET (R572): without a device identification register the instruction becomes BYPASS. -/
def execTapReset (s : State) : Out := .next (if s.pwr.vao then { s with tap := {} } else s)
/-- EXTEST (R572): the pins are driven from the cells, and the inputs captured; `cells` is what the scan shifts in. -/
def execExtest (pins cells : Nat) (s : State) : Out :=
  .next (tapLoad s 0 (fun s =>
    let drives := bits s.tap.boundary 1 4
    { s with tap.dr := bits pins 0 1 + 2 * drives + 32 * bits pins 5 9, tap.boundary := bits cells 0 14, tap.drive := true }))
/-- SAMPLE/PRELOAD (R572). -/
def execSamplePreload (pins cells : Nat) (s : State) : Out :=
  .next (tapLoad s 1 (fun s => { s with tap.dr := captureCells s pins, tap.boundary := bits cells 0 14, tap.drive := false }))
/-- CLAMP (R572): the pins stay driven from the cells. -/
def execClamp (s : State) : Out := .next (tapLoad s 2 (fun s => { s with tap.drive := true }))
/-- HIGHZ (R572): the outputs are released. -/
def execHighz (s : State) : Out := .next (tapLoad s 3 (fun s => { s with tap.drive := false }))
/-- BYPASS (R572). -/
def execBypass (s : State) : Out := .next (if s.pwr.vao then { s with tap.ir := 0xFF, tap.drive := false } else s)

end Sys2Proof.Machine
end

