-- ==== Sys2Proof/Machine/Xslv.lean ====
section
/-! DEFINITION. The Xslv instructions that queue commands, compute on memory and vectors, and launch and end threads
(spec/10_threads_and_memory.md R320-R338), and traps. Operands are the values of rs1 and rs2; rd, vd and vs2 are register
numbers.
Readings and choices: log 13, 78, 79. -/

namespace Sys2Proof.Machine

/-! ### Access to memory by an instruction (R327, R345) -/

/-- The first byte of a range that a thread may not reach with a right (R345); none when it may reach all. -/
def badByte (s : State) (i : Issuer) (r : Right) (ga n : Nat) : Option Nat :=
  match itemPlace s (some i.core) ga n with
  | none =>
    -- an item that spans two slices or meets an unassigned address: each byte is judged by itself
    ((countFrom ga n).find? (fun a => (checkItem s i r a 1).isNone)).orElse (fun _ => some ga)
  | some p => let c := coverage s i r p n; if c < n then some (ga + c) else none

/-- A thread's read of a range: its bytes and the state after it, or the access fault taken (R345, R528). -/
def threadRead (s : State) (n t ga len : Nat) : Except State (State × List Byte) :=
  let i := issuerOf s n t
  match badByte s i .read ga len, itemPlace s (some n) ga len with
  | none, some p =>
    let r := readAs s i p len
    match r.ue with
    | none => .ok (r.st, r.bytes)
    | some a => .error (takeTrap r.st n t exLoadFault (BitVec.ofNat 64 (ga + (a - addrOf p))))
  | some b, _ => .error (takeTrap s n t exLoadFault (BitVec.ofNat 64 b))
  | none, none => .error (takeTrap s n t exLoadFault (BitVec.ofNat 64 ga))

/-- The store access fault that a write of a range takes, with the state after it; none where it may be made. A write into Rind raises
RIND_WRITE as well (R213, R345). -/
def storeFault (s : State) (n t ga len : Nat) : Option State :=
  let i := issuerOf s n t
  let fault (s : State) (a : Nat) : State := takeTrap s n t exStoreFault (BitVec.ofNat 64 a)
  match itemPlace s (some n) ga len with
  | some p =>
    if meetsRind s p len then
      some (fault (raise s .rindWrite { kind := .core, unit := n, ptn := i.ptn, ctx := i.ctx, detail := detailAddr (addrOf p) }) ga)
    else (badByte s i .write ga len).map (fault s)
  | none => some (fault s ((badByte s i .write ga len).getD ga))

/-- A thread's write of a range, or the store access fault taken (R213, R345). -/
def threadWrite (s : State) (n t ga : Nat) (bs : List Byte) : Except State State :=
  match storeFault s n t ga bs.length, itemPlace s (some n) ga bs.length with
  | some s', _ => .error s'
  | none, some p => .ok (writeAs s (issuerOf s n t) p bs)
  | none, none => .error s

/-- A descriptor of 64 bytes: aligned, in core or cluster SRAM, else a load access fault (R327, R334). -/
def threadDesc (s : State) (n t ga : Nat) : Except State (State × List Byte) :=
  match itemPlace s (some n) ga 64 with
  | some p => if p.1.isSram && ga % 64 == 0 then threadRead s n t ga 64 else .error (takeTrap s n t exLoadFault (BitVec.ofNat 64 ga))
  | none => .error (takeTrap s n t exLoadFault (BitVec.ofNat 64 ga))

/-- The state of an outcome. -/
def outcome : Except State State → State
  | .ok s => s
  | .error s => s

/-- Writes rd. -/
def setRd (s : State) (n t rd v : Nat) : State := modThr s n t (fun h => setX h rd (BitVec.ofNat 64 v))

/-! ### SLV.CMD (R327, R328) -/

/-- The queue that a thread's SLV.CMD names: its core's, or the Press of its region (R327). -/
def queueOf (n : Nat) : QueueKind → QueueOf
  | .acd => .acd n | .wcd => .wcd n | .pcd => .pcd (regionOfCore n) | .xfer => .xfer n

/-- The descriptors that wait in a queue. -/
def queued (s : State) : QueueOf → List QEntry
  | .acd n => (getCore s n).acdQ
  | .wcd n => (getCore s n).wcdQ
  | .pcd r => (getPrs s r).q
  | .xfer n => (getCore s n).xferQ

/-- Positions of a queue (R328). -/
def queueSize : QueueOf → Nat
  | .pcd _ => 16
  | _ => 8

/-- Puts a descriptor at the end of a queue. -/
def enqueue (s : State) (q : QueueOf) (e : QEntry) : State :=
  match q with
  | .acd n => modCore s n (fun c => { c with acdQ := c.acdQ ++ [e] })
  | .wcd n => modCore s n (fun c => { c with wcdQ := c.wcdQ ++ [e] })
  | .pcd r => modPrs s r (fun x => { x with q := x.q ++ [e] })
  | .xfer n => modCore s n (fun c => { c with xferQ := c.xferQ ++ [e] })

/-- The queue has room (R328). -/
def hasRoom (s : State) (q : QueueOf) : Bool := decide ((queued s q).length < queueSize q)

/-- The queue of SLV.CMD's funct7 (R325). -/
def queueKind : Nat → Option QueueKind
  | 0 => some .acd | 1 => some .wcd | 2 => some .pcd | 3 => some .xfer | _ => none

/-- The threads that wait for a queue, with their descriptor, in the order of R328. -/
def queueWaiters (s : State) (q : QueueOf) : List (Nat × Nat × QEntry × Nat) :=
  let ws := (threadsWhere s (fun _ _ h => h.state == .waitQueue)).filterMap (fun e =>
    match (getThr s e.1 e.2).wait with
    | .queue k d rd => if queueOf e.1 k == q then some (e.1, e.2, d, rd) else none
    | _ => none)
  ws.foldl (fun acc w => insertBy (fun w => w.2.2.1.stamp) w acc) []

/-- A freed position goes to the waiting thread with the lowest issue stamp; equal stamps go by core and thread (R328). -/
def admitOne (s : State) (q : QueueOf) : State :=
  match queueWaiters s q with
  | w :: _ => if hasRoom s q then wake (enqueue s q w.2.2.1) w.1 w.2.1 w.2.2.2 0 else s
  | [] => s

/-- SLV_CMD (R327, R328): the descriptor is copied into the queue, or the thread enters WAIT_QUEUE. The threads that wait for the
queue enter its freed positions before it. -/
def execSlvCmd (core thr f7 rd addr : Nat) (s : State) : Out :=
  .next (issue s core thr (fun s =>
    match queueKind f7 with
    | none => illegal s core thr
    | some k =>
      outcome (do
        let (s, d) ← threadDesc s core thr addr
        let e : QEntry := { desc := d, issuer := issuerOf s core thr, stamp := now s }
        let s := instrDone s core thr 4
        let q := queueOf core k
        let s := forEach (countFrom 0 (queueSize q)) (fun s _ => admitOne s q) s
        if hasRoom s q then return setRd (enqueue s q e) core thr rd 0
        else return modThr s core thr (fun h => { h with state := .waitQueue, wait := .queue k e rd }))))

/-- QUEUE_POSITION_FREED (R328): the waiting thread with the lowest issue stamp enters; equal stamps go by core and thread. -/
def execQueuePositionFreed (q : QueueOf) (s : State) : Out := .next (admitOne s q)

/-! ### SLV.CRC (R329) -/

/-- SLV_CRC_RAW (R329). -/
def execSlvCrcRaw (core thr rd addr len : Nat) (s : State) : Out :=
  .next (issue s core thr (fun s =>
    if len = 0 ∨ 1048576 < len then illegal s core thr
    else outcome (do
      let (s, bs) ← threadRead s core thr addr len
      return setRd (instrDone s core thr 4) core thr rd (crc32c bs))))

/-- The bytes of the tile at an address, by its FMT and KIND (R329); none where they are reserved. -/
def threadTile (s : State) (n t ga : Nat) : Except State (State × Option (List Byte)) := do
  let (s, h) ← threadRead s n t ga 64
  match tileLen (rawFmt h) (rawKind h) with
  | none => return (s, none)
  | some k => do
    let (s, bs) ← threadRead s n t ga k
    return (s, some bs)

/-- SLV_CRC_TCHK (R329): 0 TILE_CRC matches, 1 it does not, 2 the header is invalid. -/
def execSlvCrcTchk (core thr rd addr : Nat) (s : State) : Out :=
  .next (issue s core thr (fun s =>
    outcome (do
      let (s, bs) ← threadTile s core thr addr
      return setRd (instrDone s core thr 4) core thr rd (match bs with | some b => tchk b | none => 2))))

/-- SLV_CRC_TGEN (R329): writes TILE_CRC; with an invalid header rd is 2 and nothing is written. -/
def execSlvCrcTgen (core thr rd addr : Nat) (s : State) : Out :=
  .next (issue s core thr (fun s =>
    outcome (do
      let (s, bs) ← threadTile s core thr addr
      match bs with
      | some b =>
        if hdrValid b then
          let s ← threadWrite s core thr (addr + 0x3C) (leBytes 4 (tileCrc b))
          return setRd (instrDone s core thr 4) core thr rd 0
        else return setRd (instrDone s core thr 4) core thr rd 2
      | none => return setRd (instrDone s core thr 4) core thr rd 2)))

/-! ### SLV.VCVT and SLV.VFN (R330, R331) -/

/-- SEW and eight times LMUL of `vtype`; none where they are reserved or vill is set. -/
def vtypeOf (h : Thr) : Option (Nat × Nat) :=
  let sew := 8 * 2 ^ bits h.vtype 3 3
  let lm := match bits h.vtype 0 3 with
    | 0 => 8 | 1 => 16 | 2 => 32 | 3 => 64 | 5 => 1 | 6 => 2 | 7 => 4 | _ => 0
  if bitOf h.vtype 63 ∨ 64 < sew ∨ lm = 0 then none else some (sew, lm)

/-- Elements of `size` bytes in a vector register. -/
def perReg (size : Nat) : Nat := 64 / size

/-- Registers that a group of eight times EMUL takes. -/
def groupRegs (e8 : Nat) : Nat := (e8 + 7) / 8

/-- The number that a register group holds, its registers from the lowest up. -/
def groupNat (h : Thr) (r e8 : Nat) : Nat :=
  ((countFrom 0 (groupRegs e8)).reverse).foldl (fun acc i => acc * 2 ^ 512 + (tget 0 h.v (r + i)).toNat) 0

/-- Element `i` of `w` bits. -/
def elem (x w i : Nat) : Nat := bits x (w * i) w

/-- A group with its elements given, in a thread. -/
def setGroup (h : Thr) (r e8 w : Nat) (es : List Nat) : Thr :=
  let x := (es.reverse).foldl (fun acc e => acc * 2 ^ w + e % 2 ^ w) 0
  { h with v := (countFrom 0 (groupRegs e8)).foldl (fun v i => tset 0 v (r + i) (BitVec.ofNat 512 (x / 2 ^ (512 * i)))) h.v }

/-- The elements of a destination group after an operation on elements 0 to vl − 1: under a tail-agnostic policy each tail
element keeps its value or becomes all ones, which of the two is open; otherwise it keeps its value. -/
def withTail (h : Thr) (r e8 w : Nat) (rnd : List Byte) (body : List Nat) : List Nat :=
  let x := groupNat h r e8
  let all := 512 * groupRegs e8 / w
  body ++ (countFrom body.length (all - body.length)).map (fun i =>
    if bitOf h.vtype 6 && bitOf (getAt 0 rnd i).toNat 0 then 2 ^ w - 1 else elem x w i)

/-- A register number is aligned to its group. -/
def groupOk (r e8 : Nat) : Bool := r % groupRegs e8 == 0

/-- The number formats of SLV.VCVT, with their width in bits (R330). -/
inductive VFmt where
  | oz4 | oz16 | oz32 | b32 | b64
deriving DecidableEq, Repr

/-- Width in bits. -/
def vfWidth : VFmt → Nat
  | .oz4 => 4 | .oz16 => 16 | .oz32 | .b32 => 32 | .b64 => 64

/-- The value of an element. -/
def vfValue : VFmt → Nat → Num
  | .oz4, c => val4 c
  | .oz16, c => oz16.decode c
  | .oz32, c => oz32.decode c
  | .b32, c => bin32.decode c
  | .b64, c => bin64.decode c

/-- A value in a format, with the events of a conversion to OZ4 (R65, R66). -/
def vfEncode : VFmt → Num → Nat × ConvEvents
  | .oz4, x => toOz4 x
  | .oz16, x => (oz16.round x, {})
  | .oz32, x => (oz32.round x, {})
  | .b32, x => (bin32.round x, {})
  | .b64, x => (bin64.round x, {})

/-- The conversions of R330. -/
def vcvtOf : Nat → Option (VFmt × VFmt)
  | 0x00 => some (.oz4, .oz16) | 0x01 => some (.oz4, .oz32) | 0x02 => some (.oz4, .b32) | 0x03 => some (.oz16, .oz32)
  | 0x04 => some (.oz16, .b32) | 0x05 => some (.oz16, .b64) | 0x06 => some (.oz32, .b32) | 0x07 => some (.oz32, .b64)
  | 0x08 => some (.b32, .oz32) | 0x09 => some (.b64, .oz32) | 0x0A => some (.b32, .oz16) | 0x0B => some (.b64, .oz16)
  | 0x0C => some (.oz32, .oz16) | 0x0D => some (.oz16, .oz4) | 0x0E => some (.oz32, .oz4) | 0x0F => some (.b32, .oz4)
  | _ => none

/-- SLV_VCVT (R330): SEW is the width of the wider format, the narrower operand's EMUL a legal LMUL. -/
def execSlvVcvt (core thr vd vs2 code : Nat) (s : State) : Out :=
  .next (issue s core thr (fun s =>
    let h := getThr s core thr
    match vcvtOf code, vtypeOf h with
    | some (a, b), some (sew, lm) =>
      let wide := max (vfWidth a) (vfWidth b)
      let ea := lm * vfWidth a / wide
      let eb := lm * vfWidth b / wide
      if sew ≠ wide ∨ lm * vfWidth a % wide ≠ 0 ∨ lm * vfWidth b % wide ≠ 0 ∨ !groupOk vs2 ea ∨ !groupOk vd eb then illegal s core thr
      else
        let src := groupNat h vs2 ea
        let rs := (countFrom 0 h.vl).map (fun i => vfEncode b (vfValue a (elem src (vfWidth a) i)))
        let ev := rs.foldl (fun (acc : ConvEvents) r => acc.add r.2) {}
        let (rnd, s) := draw s (512 * groupRegs eb / vfWidth b)
        let s := if ctxValid s core thr then addConv s h.ctx ev.sat ev.nan else s
        let s := modThr s core thr (fun h =>
          if h.vl = 0 then { h with vstart := 0 }
          else { setGroup h vd eb (vfWidth b) (withTail h vd eb (vfWidth b) rnd (rs.map Prod.fst)) with vstart := 0 })
        instrDone s core thr 4
    | _, _ => illegal s core thr))

/-- SLV_VFN (R331): f or f′ of FN_ID on OZ16 elements, SEW 16; `f7` holds D in bit 6 and FN_ID below. -/
def execSlvVfn (core thr vd vs2 f7 : Nat) (s : State) : Out :=
  .next (issue s core thr (fun s =>
    let h := getThr s core thr
    let fn := bits f7 0 6
    match vtypeOf h with
    | some (sew, lm) =>
      if sew ≠ 16 ∨ 128 ≤ f7 ∨ !fnDefined fn ∨ !groupOk vs2 lm ∨ !groupOk vd lm then illegal s core thr
      else
        let src := groupNat h vs2 lm
        let g (c : Nat) : Nat := (if bitOf f7 6 then fnD fn (BitVec.ofNat 16 c) else fnF fn (BitVec.ofNat 16 c)).toNat
        let rs := (countFrom 0 h.vl).map (fun i => g (elem src 16 i))
        let (rnd, s) := draw s (32 * groupRegs lm)
        let s := modThr s core thr (fun h =>
          if h.vl = 0 then { h with vstart := 0 }
          else { setGroup h vd lm 16 (withTail h vd lm 16 rnd rs) with vstart := 0 })
        instrDone s core thr 4
    | none => illegal s core thr))

/-! ### SLV.LAUNCH and SLV.EXIT (R334-R338) -/

/-- The launch descriptor is valid for its launcher (R334, R337). -/
def launchOk (s : State) (i : Issuer) (d : List Byte) : Bool :=
  let n := bits (field d 1 1) 0 5
  let ctx := field d 2 2
  crcTailOk d 0x3C && field d 0 1 == 1 && decide (1 ≤ n) && decide (n ≤ 16) && !bitOf (field d 1 1) 7 && decide (ctx < 4096)
    && field d 6 2 == 0 && allZero (slice d 0x24 24) && attachedTo s i.ptn ctx
    && (i.mmode || (!bitOf (field d 1 1) 5 && ctx == i.ctx))

/-- The launch that a descriptor describes. -/
def parseLaunch (s : State) (i : Issuer) (d : List Byte) (rd : Nat) : Launch :=
  { nthreads := bits (field d 1 1) 0 5, mmode := bitOf (field d 1 1) 5, ctx := field d 2 2, doneSem := field d 4 2,
    entry := field d 8 8, arg := field d 0x10 8, spBase := field d 0x18 8, spStride := field d 0x20 4,
    trap := (getThr s i.core i.thr).slvtrap.toNat, issuer := some i, rd := rd, stamp := now s }

/-- SLV_LAUNCH (R334-R337): the launches that wait in the partition's queue are placed before it. -/
def execSlvLaunch (core thr rd addr : Nat) (s : State) : Out :=
  .next (issue s core thr (fun s =>
    outcome (do
      let (s, d) ← threadDesc s core thr addr
      let i := issuerOf s core thr
      let s := instrDone s core thr 4
      if !launchOk s i d then return setRd s core thr rd 2
      else
        let l := parseLaunch s i d rd
        let s := placeQueued s i.ptn
        match freeCore s i.ptn l with
        | some n => return placeGroup s i.ptn l n
        | none =>
          if bitOf (field d 1 1) 6 then return setRd s core thr rd 1
          else if 64 ≤ (getPtn s i.ptn).launchQ.length then return setRd s core thr rd 3
          else
            let s := modPtn s i.ptn (fun q => { q with launchQ := q.launchQ ++ [l] })
            return modThr s core thr (fun h => { h with state := .waitRc, wait := .launch rd }))))

/-- SLV_EXIT (R338): the thread is IDLE; the last thread of a group adds 1 to DONE_SEM. -/
def execSlvExit (core thr : Nat) (s : State) : Out :=
  .next (issue s core thr (fun s =>
    let s := modThr (dropResv (instrDone s core thr 4) core thr) core thr (fun h => { h with state := .idle })
    match (getCore s core).group with
    | some g =>
      if !g.live.contains thr then s else
      let g' : Group := { g with live := g.live.filter (· != thr) }
      if g'.live.isEmpty then threadAdd (modCore s core (fun c => { c with group := none })) g.ptn g.doneSem
      else modCore s core (fun c => { c with group := some g' })
    | none => s))

/-! ### Traps and SLVCTX (R320, R321) -/

/-- THREAD_TRAP (R321): the thread takes an exception with its cause and `mtval`. -/
def execThreadTrap (core thr cause tval : Nat) (s : State) : Out :=
  .next (issue s core thr (fun s => takeTrap s core thr cause (BitVec.ofNat 64 tval)))

/-- SLVCTX_WRITE (R320): M-mode sets CTX; in U-mode the CSR access is an illegal instruction. -/
def execSlvctxWrite (core thr value : Nat) (s : State) : Out :=
  .next (issue s core thr (fun s =>
    if (getThr s core thr).mmode then modThr (instrDone s core thr 4) core thr (fun h => { h with ctx := bits value 0 12 })
    else illegal s core thr))

end Sys2Proof.Machine
end

