-- ==== Sys2Proof/Machine/Reset.lean ====
section
/-! DEFINITION. Start-up and resets (spec/20_power_startup_electrical.md R593-R600, with R34, R35, R312, R511, R537, R540): the nine
steps, resets of the whole module, and resets of dies, regions, cores and Roll-call banks.
Readings and choices: log 114, 115, 116, 117, 120, 124, 126, 130, 145, 158. -/

namespace Sys2Proof.Machine

/-! ### What outlives a reset of the whole module (R537, R597) -/

/-- What no reset changes, and what no reset reaches: the Ledger, eFuses, flash with its directory, the I3C target, the TAP, the
sensors, the commands that wait. -/
def bareState (s : State) : State :=
  { pending := s.pending, fresh := s.fresh, led := s.led, fuse := s.fuse, flash := s.flash, tap := s.tap, i3c := s.i3c,
    snp := { gens := s.snp.gens, maxGen := s.snp.maxGen },
    pwr := { vin := s.pwr.vin, iin := s.pwr.iin, vinReg := s.pwr.vinReg, iinReg := s.pwr.iinReg, temps := s.pwr.temps,
             charged := s.pwr.charged, vao := s.pwr.vao, okUs := s.pwr.okUs, lowUs := s.pwr.lowUs, overUs := s.pwr.overUs,
             inputLow := s.pwr.inputLow, inputHigh := s.pwr.inputHigh, rails := s.pwr.rails, excursion := s.pwr.excursion },
    mod := { powered := s.mod.powered } }

/-- Every epoch incremented from its value before the reset (R537). -/
def nextEpochs (old s : State) : State :=
  let cores := (countFrom 0 1024).map (fun n => (n, ({ epoch := wrap 8 ((getCore old n).epoch + 1) } : Core)))
  let presses := (countFrom 0 16).map (fun r => (r, ({ epoch := wrap 8 ((getPrs old r).epoch + 1) } : Prs)))
  { s with core := cores.filter (fun e => e.2 != default), prs := presses.filter (fun e => e.2 != default),
           rc.epoch0 := wrap 8 (old.rc.epoch0 + 1), rc.epoch1 := wrap 8 (old.rc.epoch1 + 1) }

/-- Every epoch as it was. -/
def sameEpochs (old s : State) : State :=
  let cores := old.core.map (fun e => (e.1, ({ epoch := e.2.epoch } : Core)))
  let presses := old.prs.map (fun e => (e.1, ({ epoch := e.2.epoch } : Prs)))
  { s with core := cores.filter (fun e => e.2 != default), prs := presses.filter (fun e => e.2 != default),
           rc.epoch0 := old.rc.epoch0, rc.epoch1 := old.rc.epoch1 }

/-! ### The steps of start-up (R594-R596) -/

/-- The identity (R511): generated on the first start-up in MANUFACTURE, after which its fuse is burnt; zeroised in SCRAPPED. -/
def startIdentity (s : State) : State :=
  let s := if s.lcs.lc = .manufacture ∧ !s.fuse.identity then
      let (k, s) := draw s 32
      { s with led.ident := some k, fuse.identity := true }
    else s
  match s.led.ident with
  | none => s
  | some k =>
    let pub := slice (Config.mldsaPublic k) 0 1952
    { s with sec.pubkey := pub, sec.deviceId := (shake256 64 pub).take 32 }

/-- Step 1: the boot ROM (R594, R604). -/
def startBoot (s : State) (u : StartUp) : State :=
  startIdentity { s with lcs.lc := s.fuse.lc, cpt.txOn := true, mod.slot := bits u.slot 0 6 }

/-- The module stays below READY and serves the control port as RECOVERY does (R494, R595). -/
def stuck (s : State) (step : Nat) : State := { s with mod.recovery := true, mod.step := step }

/-- The firmware image of flash (R521). -/
def flashImage (s : State) : List Byte := s.flash.fw.getD Config.factoryFirmware

/-- PWR_GATE.REGIONS of the current bank (R612). -/
def storedGate (s : State) : Nat :=
  match s.led.bank with
  | some b => bits (b.get .pwrGate) 0 16
  | none => 0

/-- Repair records and permanent repairs at start-up (R29, R540, R580): cores that they name are RETIRED, and spares take their
numbers. -/
def startRepairs (s : State) : State :=
  let s := applyReps s (fun _ => true)
  let cores := (s.led.repair.filter (fun e => e.2.kind == 1 && e.2.state != 0)).map (fun e => e.2.unit)
  forEach cores (fun s q =>
    if (getPhys s q).state = .retired then s
    else
      let n := (getPhys s q).number
      let s := modPhys s q (fun x => { x with state := .retired, number := 0x3FF })
      if n = 0x3FF then s
      else match spareOf s (q / 9) with
        | some r => modPhys s r (fun y => { y with state := .active, number := n, prior := .spare, home := n })
        | none => holdCluster s (q / 9)) s

/-- The region of a unit on a C-die (R19). -/
def resRegion (r : TestRes) : Option Nat :=
  match r.kind with
  | 1 => some (r.unit / 72)
  | 2 => some (r.unit / 8)
  | 3 | 5 => some r.unit
  | _ => none

/-- REGIONS_OK of the start-up run: regions that were tested and left nothing unrepaired (R585). -/
def startRegionsOk (s : State) (rs : List TestRes) : Nat :=
  sumNat (((countFrom 0 16).filter (fun r => !bitOf s.pwr.gateActive r
    && !rs.any (fun x => x.fix == .none && resRegion x == some r && unitKindOf x.kind != .core)
    && !s.int.heldClusters.any (fun k => k / 8 == r))).map (fun r => 2 ^ r))

/-- A failure that keeps the module from READY: X-die 0 logic, the Ledger or the security engine (R575). -/
def fatalResult (r : TestRes) : Bool := r.fix == .none && ((r.kind == 4 && r.unit == 4) || r.kind == 13)

/-- Step 6: repairs, quick BIST, fabric light (R574, R575, R580, R594). -/
def startBist (s : State) (u : StartUp) : State :=
  let s := startRepairs s
  let s := (testResults 1 { s with tst.run := 1 } u.bist).1
  let s := { s with tst.regionsOk := startRegionsOk s u.bist }
  let s := forEach u.laneFail (fun s e => modFab s e.1 (fun q => { q with failed := q.failed ||| 2 ^ e.2 })) s
  let lit := (countFrom 0 8).filter (fun p => !s.tst.deadPorts.contains p)
  { forEach lit (fun s p => modFab s p (fun q => { q with pstate := .dark })) s with mod.present := true }

/-- The stored module Syllabus is checked as a LOAD's is (R360). -/
def startSyllabus (s : State) : State :=
  match s.led.stored with
  | none => s
  | some img =>
    if !inField s then s
    else match checkImage s (some .installer) img img.length true with
    | .ok (.module m) => bringModule s m true
    | _ => raise s .syllabusStored { kind := .module }

/-- Open house begins (R389, R390): its windows, one key, PTN 0. -/
def openHouseStart (s : State) : State :=
  setPtnState { s with syl.mode := 1, keys.openHouse := some [], vat.base := 0x2000000000, vat.size := 256, vat.ready := true } 0 .active

/-- Step 9: READY (R596). -/
def startReady (s : State) (u : StartUp) : State :=
  let s := { s with mod := { s.mod with ready := true, step := 9, startupMs := u.ms } }
  let s := if inField s && s.syl.module.isNone then openHouseStart s else s
  ibi s 4

/-- Generations that their areas no longer hold are freed, oldest first (R569 MIRROR_UNITS). -/
def fitGens : (fuel : Nat) → State → (mirror : Bool) → State
  | 0, s, _ => s
  | n + 1, s, m =>
    if usedExtents s m ≤ areaExtents s m then s
    else fitGens n { s with snp.gens := eraseFirst (fun g => g.mirror == m) s.snp.gens } m

/-- Steps 6-9, after `settings` has set the shadow settings (R594, R597). -/
def startTail (s : State) (u : StartUp) (settings : State → State) : State :=
  let s := startBist s u
  if u.bist.any fatalResult then stuck s 6
  else
    let s := settings s
    let n := s.snp.gens.length
    let s := fitGens n (fitGens n s true) false
    startReady (startSyllabus s) u

/-- Steps 4 and 5 (R594, R595): the PLL, the interfaces. A memory channel that fails keeps the module from READY. -/
def startLinks (s : State) (u : StartUp) : State :=
  let s := { s with bell.state := .locking, bell.pllLocked := u.pll, bell.refPresent := u.refPresent }
  match u.calFail with
  | [] => s
  | fs =>
    let s := { s with mc.failed := fs.filterMap (fun e => channelOf (unitKindOf e.1) e.2) }
    stuck (forEach fs (fun s e => raise s .bistUnrepaired { kind := unitKindOf e.1, unit := e.2 }) s) 5

/-- Start-up from step 1 (R594): `rails` says that step 3 runs too, `recovery` that the boot ROM enters RECOVERY. -/
def startUp (s : State) (u : StartUp) (rails recovery : Bool) : State :=
  let s := startBoot s u
  let img := flashImage s
  if s.lcs.lc = .scrapped then { s with mod.step := 1 }
  else if recovery || !fwOk s img then stuck s 2
  else
    let s := { s with sec.fwMeas := fwDigest img, sec.fwVer := fwVersion img }
    match (if rails then u.railFail else none) with
    | some k =>
      raise { s with mod.shutdown := true, mod.step := 3, pwr.rails := 1 } .inputRange { kind := .powerStage, unit := k }
    | none =>
      let s := { s with pwr.rails := 0x1FF, pwr.gateActive := storedGate s }
      let s := startLinks s u
      if s.mod.recovery then s else startTail s u loadBank

/-! ### Resets of the whole module (R597-R600) -/

/-- A module reset (R597): of a module whose rails had dropped, every epoch starts at 0 (R537). -/
def moduleReset (s : State) (u : StartUp) (d : RstDue) : State :=
  let cold := s.mod.shutdown
  let b := { bareState s with mod := { powered := true, cause := d.cause } }
  startUp (if cold then b else nextEpochs s b) u cold d.recovery

/-- The running values of the settings that are not at their default. -/
def runningSettings (s : State) : List (Setting × Nat) :=
  (allSettings.map (fun x => (x, settingGet s x))).filter (fun e => e.2 != e.1.default)

/-- The settings of a warm reset (R597): running values, what waited for it taking effect, with the substitution of R256. The role
key slots come from the Ledger again. -/
def warmSettings (vals : List (Setting × Nat)) (s : State) : State :=
  let s := settingDefaults s
  let s := forEach vals (fun s e =>
    match e.1 with
    | .bellCfg => settingLoad s e.1 e.2
    | _ => settingPut s e.1 e.2) s
  let s := applyPending { s with lcs.keys := (s.led.bank.map Bank.keys).getD [] }
  { s with snp.mirrorUnits := min 128 s.snp.mirrorNext }

/-- A warm reset (R597): steps 6-9; it keeps the shadow settings, the INT block, the fault log, firmware, PLL and power registers. -/
def warmReset (s : State) (u : StartUp) : State :=
  let vals := runningSettings s
  let b := nextEpochs s (bareState s)
  let int := { s.int with heldClusters := [] }
  let pwr := { s.pwr with
    gateActive := s.pwr.gateRegions, hold := false, enterAt := none, leaveAt := none, lowRun := 0, holdSeen := false, lastW := 0,
    govCount := 0 }
  let b := { b with int := int, pwr := pwr, mod := { powered := true, cause := 3, slot := bits u.slot 0 6 }, lcs.lc := s.lcs.lc,
                    sec.deviceId := s.sec.deviceId, sec.pubkey := s.sec.pubkey, sec.fwVer := s.sec.fwVer, sec.fwMeas := s.sec.fwMeas,
                    cpt.txOn := true, bell.state := .locking, bell.pllLocked := s.bell.pllLocked, bell.refPresent := s.bell.refPresent }
  startTail b u (warmSettings vals)

/-- The parts held in reset lose their state; the VAO group keeps its own (R600). -/
def holdParts (s : State) : State :=
  let b := sameEpochs s (bareState s)
  { b with cyc := s.cyc, lcs := s.lcs, sec := s.sec, ses := s.ses, int := s.int, cpt := s.cpt, pwr := { s.pwr with hold := false },
           mod := { s.mod with ready := false, present := false, step := 1, recovery := false, running := [], deferred := [], last := [] } }

/-- An emergency shutdown (R591, R592, R602): every rail but VAO goes off. -/
def shutdown (s : State) (tripped : Bool) : State :=
  let s := holdParts s
  ibi { s with mod.shutdown := true, pwr.rails := 1, pwr.tripped := tripped, mod.due := none } 3

/-! ### Thresholds (R601, R602) -/

/-- Warn thresholds by PWR_TEMP index, in 1/16 degree (R601). -/
def warnAt (k : Nat) : Int :=
  16 * (if k < 6 then 100 else if k < 16 then 90 else if k = 16 then 75 else if k = 17 then 57 else 42)

/-- Trip thresholds; the coolant inlet has none (R601). -/
def tripAt (k : Nat) : Option Int :=
  if k < 6 then some (16 * 115) else if k < 16 then some (16 * 105) else if k = 16 then some (16 * 90) else if k = 17 then some (16 * 65)
  else none

/-- The readings with their indices, signed. -/
def readings (ts : List Nat) : List (Nat × Int) := (List.zip (countFrom 0 19) ts).map (fun e => (e.1, signed 16 e.2))

/-- Every reading is at least `d` below its Warn threshold. -/
def below (ts : List Nat) (d : Int) : Bool := (readings ts).all (fun e => decide (e.2 + d ≤ warnAt e.1))

/-- A restart after an emergency shutdown may go on (R592, R602): the input has stood at 38-52 V for 10 ms; after a trip every
reading is 10 degrees below its Warn threshold. -/
def mayRestart (s : State) : Bool := decide (10000 ≤ s.pwr.okUs) && (!s.pwr.tripped || below s.pwr.temps 160)

/-- RESET_CAUSE of a restart (R610). -/
def restartCause (s : State) (cause : Nat) : Nat := if s.mod.shutdown then (if s.pwr.tripped then 7 else 8) else cause

/-- A reset of the whole module that is due starts, where it may (R592, R598). -/
def startDue (s : State) (u : StartUp) (f : RstDue → Bool) : State :=
  match s.mod.due with
  | none => s
  | some d =>
    if !f d || s.mod.resetLow || (s.mod.shutdown && !mayRestart s) then s
    else if d.warm then warmReset s u
    else moduleReset s u { d with cause := restartCause s d.cause }

/-! ### Resets of engines (R26, R33-R35, R312, R537, R597) -/

/-- A queued or running command of an engine that is reset ends with ABT (R312). -/
def abortEntries (s : State) (es : List (Nat × Nat)) : State := forEach es (fun s e => doneAdd s e.1 e.2 .abt) s

/-- The partition and DONE_SEM of an ACD, a WCD and an XFER (R111, R201, R453). -/
def acdSem (e : QEntry) : Nat × Nat := (e.issuer.ptn, bits (descWord e.desc 14) 0 16)
def wcdSem (e : QEntry) : Nat × Nat := (e.issuer.ptn, bits (descWord e.desc 2) 16 16)
def xferSem (e : QEntry) : Nat × Nat := (e.issuer.ptn, bits (descWord e.desc 2) 16 16)

/-- The commands that a core holds. -/
def coreEntries (c : Core) : List (Nat × Nat) :=
  (c.acdRun.toList ++ c.acdQ).map acdSem ++ (c.wcdRun.toList ++ c.wcdQ).map wcdSem ++ (c.xferRun.toList ++ c.xferQ).map xferSem

/-- A core is reset (R26, R312, R535, R597): its threads IDLE, its queues and buffers empty, its registers cleared; `hard` clears
CORE_CHSCALE too. -/
def resetCore (hard : Bool) (s : State) (n : Nat) : State :=
  -- a decision of this core, or one whose re-run it makes, ends (R535)
  let s := if (getCore s n).decision.isSome then noMajority s n false else s
  let s := match (getCore s n).rerun with
    | some o => noMajority s o false
    | none => s
  let c := getCore s n
  let s := forEach (c.thr.filter (fun t => t.2.state != .idle)) (fun s t => idleThread s n t.1) s
  let s := { s with xf.sends := s.xf.sends.map (fun x => if x.core = some n then { x with core := none } else x) }
  let s := modCore s n (fun c => { epoch := wrap 8 (c.epoch + 1), chScale := if hard then [] else c.chScale, frozen := c.frozen, cyc0 := s.cyc })
  abortEntries s (coreEntries c)

/-- A Press is reset (R222, R312): DRIFT_EN takes its stored value again. -/
def resetPress (s : State) (r : Nat) : State :=
  let x := getPrs s r
  let drift := match s.led.bank with
    | some b => bitOf (b.get (.prsCfg r)) 0
    | none => true
  let s := modPrs s r (fun x => { epoch := wrap 8 (x.epoch + 1), driftEn := drift })
  abortEntries s ((x.run.toList ++ x.q).map (fun e => (pcdPtn e.desc, pcdDone e.desc)))

/-- The Lesson of every partition that holds a cluster of the range is aborted, and its attached contexts are marked for restart
(R34). -/
def abortPartitions (s : State) (k n : Nat) : State :=
  forEach (tkeys s.ptn) (fun s p =>
    if (countFrom k n).any (fun c => (getPtn s p).owns c) then
      forEach (ctxRange s p) (fun s c => if (getCtx s c).attached then restartCtx s p c else s) (abortLesson s p)
    else s) s

/-- The waits on a bank end with ABORT_RESET (R312). -/
def abortWaits (s : State) (b : Nat) : State :=
  forEach (s.rc.waits.filter (fun w => w.tok.bank == b)) (fun s w =>
    answerOpen (unreserve { s with rc.waits := eraseFirst (· == w) s.rc.waits } w.tok) w.tok 3) s

/-- A Roll-call bank is reset (R312): its things at 0 with ABT set, its holds and waits gone, EPOCH frames on every sync lane, the
owning partitions held. -/
def resetBank (s : State) (b : Nat) : State :=
  let s := { s with rc := if b = 0 then { s.rc with epoch0 := wrap 8 (s.rc.epoch0 + 1) } else { s.rc with epoch1 := wrap 8 (s.rc.epoch1 + 1) } }
  let s := abortWaits s b
  let sems := (s.rc.sem.filter (fun e => e.2.alloc && bankOfSem e.1 == b)).map (fun e => (e.1, e.2.ptn))
  let bars := (s.rc.bar.filter (fun e => e.2.alloc && bankOfBar e.1 == b)).map (fun e => (e.1, e.2.ptn))
  let s := forEach sems (fun s e => modSem s e.1 (fun x => { x with value := 0, abt := true })) s
  let s := forEach bars (fun s e => modBar s e.1 (fun x => { x with gen := 0, count := 0, children := [], completing := false, abt := true })) s
  let s := forEach (tkeys s.ctx) (fun s c => modCtx s c (fun x => { x with holds := x.holds.filter (fun h => bankOfSem h.sem != b) })) s
  let s := forEach (countFrom 0 8) (fun s p =>
    if portUsable s p then
      syncSend s p 9 (syncFrame 9 (ownLmn s) 0x3FF 0 (bodyBits b 219 210 + bodyBits (bankEpoch s b) 209 202))
    else s) s
  let owners := (sems ++ bars).map Prod.snd
  forEach ((countFrom 0 64).filter owners.contains) (fun s p => setHold s p causeBank) s

/-- An LMN's route leaves by ports 4-7 (R441). -/
def byXdie1 (s : State) (lmn : Nat) : Bool :=
  !isOwnLmn s lmn && (match routePort s lmn with | some q => decide (4 ≤ q) | none => false)

/-- The partition uses X-die 1 (R35): a window in tier 2 channels 8-15, or a route by ports 4-7: of a pool to its peer, of a barrier
to its parent, of a context's snapshots to the buddy (R561). -/
def usesXdie1 (s : State) (p : Nat) : Bool :=
  (ptnWins s p).any (fun w => w.mem == .tier2 && decide (2 ^ 39 < w.base + w.size))
    || s.rc.pool.any (fun e => e.2.bound && e.2.ptn == p && byXdie1 s e.2.peer)
    || s.rc.bar.any (fun e => e.2.alloc && e.2.ptn == p && e.2.upLmn != 0x3FF && byXdie1 s e.2.upLmn)
    || (s.snp.buddyValid && byXdie1 s s.snp.buddyLmn && (ctxRange s p).any (fun c => (getSnp s c).armed))

/-- X-die 1 is reset (R35, R444, R597): partitions that use it are held, ports 4-7 fall, its jobs and its bank end. -/
def resetXdie1 (bank : Bool) (s : State) : State :=
  let s := forEach ((countFrom 0 64).filter (usesXdie1 s)) (fun s p => setHold s p causeXdie1) s
  let s := forEach [4, 5, 6, 7] (fun s p =>
    let s := if portUsable s p then abortRouted (failSends s p) p else s
    modFab (newLink s p .off) p (fun q => { dateline := q.dateline, pstate := .off })) s
  let restoringCtx := (s.snp.ctx.filter (fun e => e.2.restoring.isSome)).map Prod.fst
  let s := forEach restoringCtx stopRestore { s with snp.jobs := [], snp.mirrors := [] }
  let s := forEach (tkeys s.ctx) (fun s c => modCtx s c (fun x => { x with copying := false, copyStg := [] })) s
  if bank then resetBank s 1 else s

/-- The cores and Presses that a reset reaches but no narrower running reset has reached already (R599). -/
def fresh_ (s : State) (us : List Nat) (kind : Nat) : List Nat := us.filter (fun n => !resetting s (kind, n))

/-- The counters of the memory channels from `lo` on, `n` of them, clear: a die reset reaches their controllers (R618). -/
def clearChannels (s : State) (lo n : Nat) : State := { s with mc.ce := tclear s.mc.ce lo n, mc.ue := tclear s.mc.ue lo n }

/-- A reset of some of the module's units starts (R597, R599). -/
def startReset (s : State) (k t : Nat) : State :=
  let base := s
  let s := match k with
    | 3 =>
      if t = 5 then clearChannels (resetXdie1 (!resetting base (6, 1)) s) 264 8
      else
        let s := abortPartitions s (32 * t) 32
        let s := forEach (fresh_ base (countFrom (256 * t) 256) 5) (resetCore true) s
        let s := forEach ((countFrom (4 * t) 4).filter (fun r => !resetting base (4, r))) resetPress s
        clearChannels (clearSram s (256 * t) 256 (32 * t) 32) (64 * t) 64
    | 4 =>
      let s := abortPartitions s (8 * t) 8
      let s := forEach (countFrom (64 * t) 64) (resetCore true) s
      clearRegion (resetPress s t) t
    | 5 => resetCore false s t
    | _ => resetBank s t
  let s := { s with mod.last := s.mod.last.filter (fun e => (e.kind, e.target) != (k, t)) ++ [{ kind := k, target := t, bell := beat s }] }
  if k = 3 ∨ k = 4 then
    { s with mod.running := s.mod.running.filter (fun r => !resetCovers (k, t) r) ++ [(k, t)] }
  else s

/-- The Bell before which a reset of the unit is deferred: 4 bl after the start of the last reset of an engine of it (R537). -/
def deferUntil (s : State) (k t : Nat) : Nat :=
  maxNat ((s.mod.last.filter (fun e =>
    resetCovers (e.kind, e.target) (k, t) || (resetCovers (k, t) (e.kind, e.target) && !s.mod.running.contains (e.kind, e.target)))).map
      (fun e => e.bell + 4))

/-- MOD_RST_STATUS.STATUS (R610). -/
def rsOk : Nat := 0
def rsRole : Nat := 1
def rsBadTarget : Nat := 2
def rsDeferred : Nat := 3
def rsRejected : Nat := 4
def rsTooHot : Nat := 5

/-- Answers a write of MOD_RST (R610). -/
def rstAnswer (s : State) (st : Nat) : State := { s with mod.rstDone := true, mod.rstStatus := st }

/-- A reset of some units is asked for (R537, R599): it merges into one that runs, is deferred, or starts. -/
def askReset (s : State) (k t : Nat) : State :=
  if !partsUp s || !s.mod.ready then rstAnswer s rsRejected
  else if resetting s (k, t) then rstAnswer s rsOk
  else if beat s < deferUntil s k t then
    let w : RstWait := { kind := k, target := t, bell := deferUntil s k t }
    rstAnswer { s with mod.deferred := s.mod.deferred.filter (fun e => (e.kind, e.target) != (k, t)) ++ [w] } rsDeferred
  else rstAnswer (startReset s k t) rsOk

/-- A reset of the whole module is asked for (R592, R598, R602): it is due 1 us after the answer. -/
def askWhole (s : State) (d : RstDue) : State :=
  if s.mod.shutdown && s.pwr.tripped && !below s.pwr.temps 160 then rstAnswer s rsTooHot
  else if s.mod.shutdown && d.warm then rstAnswer s rsRejected
  else rstAnswer { s with mod.due := some d } rsOk

/-- The operator may reset a core of a partition that is ACTIVE or HELD (R598). -/
def mayRst (s : State) (who : Req) (k t : Nat) : Bool :=
  isInstaller s who || (isOperator s who && k == 5 && (match ptnOfCluster s (t / 8) with | some p => ptnUp s p | none => false))

/-- The targets of a kind (R610). -/
def rstTargetOk (k t : Nat) : Bool :=
  match k with
  | 1 | 2 => t == 0
  | 3 => decide (t ≤ 5)
  | 4 => decide (t < 16)
  | 5 => decide (t < 1024)
  | _ => decide (t < 2)

/-- A write of MOD_RST (R598, R610, R626). -/
def rstCmd (s : State) (who : Req) (word : Nat) : State :=
  let k := bits word 16 4
  let t := bits word 0 10
  if bits word 20 12 ≠ 0 ∨ bits word 10 6 ≠ 0 ∨ k = 0 ∨ 7 ≤ k then rstAnswer s rsRejected
  else if !mayRst s who k t then rstAnswer s rsRole
  else if !rstTargetOk k t then rstAnswer s rsBadTarget
  else match k with
  | 1 => askWhole s { cause := 2 }
  | 2 => askWhole s { cause := 3, warm := true }
  | 3 => if t = 4 then askWhole s { cause := 4 } else askReset s 3 t
  | _ => askReset s k t

/-- The writers of MOD_RST (R598). -/
def mayModRst (s : State) (who : Req) : Bool := isInstaller s who || isOperator s who

/-- A row of MOD_RST: an access outside the rights changes nothing (R503). -/
def rstRow (s : State) (who : Req) (k t : Nat) : State :=
  if mayModRst s who then rstCmd s who (k * 65536 + t % 1024) else s

/-- A row that starts a reset of the whole module: one already due, or one that the row asks for. -/
def wholeRow (s : State) (who : Req) (k t : Nat) (u : StartUp) (f : RstDue → Bool) : State :=
  let due := match s.mod.due with
    | some d => f d
    | none => false
  startDue (if due then s else rstRow s who k t) u f

/-- RESET_MODULE (R597, R598). -/
def execResetModule (who : Req) (u : StartUp) (s : State) : Out := .next (wholeRow s who 1 0 u (fun d => d.cause == 2 && !d.warm))
/-- RESET_WARM (R597, R598). -/
def execResetWarm (who : Req) (u : StartUp) (s : State) : Out := .next (wholeRow s who 2 0 u (fun d => d.warm))
/-- RESET_DIE (R33-R35, R597): X-die 0 is the whole module. -/
def execResetDie (who : Req) (target : Nat) (u : StartUp) (s : State) : Out :=
  .next (if target = 4 then wholeRow s who 3 4 u (fun d => d.cause == 4) else rstRow s who 3 target)
/-- RESET_REGION (R597). -/
def execResetRegion (who : Req) (target : Nat) (s : State) : Out := .next (rstRow s who 4 target)
/-- RESET_CORE (R26, R597, R598). -/
def execResetCore (who : Req) (target : Nat) (s : State) : Out := .next (rstRow s who 5 target)
/-- RESET_BANK (R312, R597). -/
def execResetBank (who : Req) (target : Nat) (s : State) : Out := .next (rstRow s who 6 target)

/-- RESET_DEFERRED_START (R537, R599): 4 bl have passed since the last reset of the engine. -/
def execResetDeferredStart (kind target : Nat) (s : State) : Out :=
  .next (match s.mod.deferred.find? (fun e => (e.kind, e.target) == (kind, target)) with
    | some w =>
      if beat s < w.bell then s
      else
        let s := { s with mod.deferred := s.mod.deferred.filter (fun e => (e.kind, e.target) != (kind, target)) }
        if resetting s (kind, target) then s else startReset s kind target
    | none => s)

/-- RESET_COMPLETE (R35, R399, R597): a die, region or X-die 1 has ended its quick BIST with these results and is READY again. -/
def execResetComplete (kind target : Nat) (results : List TestRes) (s : State) : Out :=
  .next (
    if !s.mod.running.contains (kind, target) then s
    else
      let s := { s with mod.running := s.mod.running.filter (· != (kind, target)), tst.run := wrap 32 (s.tst.run + 1) }
      -- the quick BIST of X-die 1 finds anew which of its ports and channels have failed
      let s := if (kind, target) = (3, 5) then
        { s with tst.deadPorts := s.tst.deadPorts.filter (· < 4), tst.deadChannels := [] } else s
      let s := (testResults 1 s results).1
      if (kind, target) = (3, 5) then
        let s := forEach (([4, 5, 6, 7] : List Nat).filter (fun p => !s.tst.deadPorts.contains p))
          (fun s p => modFab s p (fun q => { q with pstate := .dark })) s
        forEach (tkeys s.ptn) (fun s p => if bitOf (getPtn s p).holdCause causeXdie1 && !usesDead s p then clearHold s p (2 ^ causeXdie1) else s) s
      else s)

/-- RECOVERY_RESET (R494): the module reset 1 ms after a recovery image is accepted. -/
def execRecoveryReset (u : StartUp) (s : State) : Out := .next (startDue s u (fun d => d.cause == 6))

/-- LCS_RECOVER (R522): the command, or the reset into RECOVERY that it has made due. -/
def execLcsRecover (who : Req) (u : StartUp) (s : State) : Out :=
  .next (
    let due := match s.mod.due with
      | some d => d.cause == 5
      | none => false
    startDue (if due then s else lcsRow s who 7 true) u (fun d => d.cause == 5))

end Sys2Proof.Machine
end

