-- ==== Sys2Proof/Machine/Power.lean ====
section
/-! DEFINITION. Power, the input, temperatures and MOD_RESET_N (spec/20_power_startup_electrical.md R588-R593, R600-R602), and the
I3C target (R607, R608).
Readings and choices: log 14, 118, 119, 120. -/

namespace Sys2Proof.Machine

/-! ### Power on (R589, R593) -/

/-- The input exceeds what R588 allows at all: ±60 V, in units of 10 mV. -/
def overVoltage (vin : Int) : Bool := decide (6000 < vin) || decide (vin < -6000)

/-- POWER_INPUT_APPLIED (R589): the input, in units of 10 mV, meets the hot-swap controller, which charges the capacitance; a bounce
starts the charge again, and reverse polarity leaves the module off. -/
def execPowerInputApplied (vin : Int) (bounce : Bool) (s : State) : Out :=
  if overVoltage vin then .fault .beyondAbsoluteMaximum
  else if vin < 2000 ∨ s.mod.powered then .next s
  else .next { s with pwr.vin := vin.toNat, pwr.vao := true, pwr.charged := !bounce }

/-- POWER_GOOD (R593, R594): start-up begins, or waits in step 1 while MOD_RESET_N is low. -/
def execPowerGood (u : StartUp) (s : State) : Out :=
  .next (
    if !(s.pwr.vao && s.pwr.charged) || s.mod.powered then s
    else
      let s := { s with mod.powered := true, tap := {} }
      if s.mod.resetLow then { s with mod.waitHigh := true }
      else startUp { s with mod.cause := 0 } u true false)

/-- Power is lost: what is volatile is gone (R592). -/
def powerLost (s : State) : State :=
  { pending := s.pending, fresh := s.fresh, led := s.led, fuse := s.fuse, flash := s.flash,
    snp := { gens := s.snp.gens, maxGen := s.snp.maxGen } }

/-! ### The input (R588, R592) -/

/-- A time in us that goes on while a condition holds. -/
def lasts (c : Bool) (us : Nat) : Nat := if c then us + 10 else 0

/-- The input as a sample leaves it: voltage in 10 mV, current in 10 mA (R592). -/
def sampled (s : State) (v i : Nat) : State :=
  let pwr : PwrBlk := { s.pwr with
    vin := v, iin := i, okUs := lasts (decide (3800 ≤ v) && decide (v ≤ 5200)) s.pwr.okUs,
    lowUs := lasts (decide (v < 3500) || decide (5400 < v)) s.pwr.lowUs, overUs := lasts (decide (7000 < i)) s.pwr.overUs,
    inputLow := decide (3500 ≤ v) && decide (v < 3800), inputHigh := decide (5200 < v) && decide (v ≤ 5400) }
  { s with pwr := pwr }

/-- INPUT_RANGE, once per excursion (R592). -/
def inputRange (s : State) : State :=
  if s.pwr.excursion then s else raise { s with pwr.excursion := true } .inputRange { kind := .powerStage }

/-- What a sample does (R592). -/
def inputSample (s : State) (v i : Nat) : State :=
  let s := sampled s v i
  if v < 2000 then powerLost s
  else
    let off := decide (50 ≤ s.pwr.lowUs) || decide (100 ≤ s.pwr.overUs)
    let out := s.pwr.inputLow || s.pwr.inputHigh || off
    let s := if out then inputRange s
      else if s.pwr.lowUs = 0 ∧ s.pwr.overUs = 0 then { s with pwr.excursion := false } else s
    if off && !s.mod.shutdown then shutdown s false else s

/-- INPUT_SAMPLE (R588, R592): every 10 us; above 75 A for 1 ms, or outside ±60 V, the manual gives no behaviour. -/
def execInputSample (vin : Int) (iin : Nat) (s : State) : Out :=
  if overVoltage vin || (decide (7500 < iin) && decide (1000 ≤ s.pwr.overUs)) then .fault .beyondAbsoluteMaximum
  else if !s.mod.powered then .next s
  else .next (inputSample s vin.toNat iin)

/-- RAIL_FAULT (R591): a rail other than VAO, by order number, has left its tolerance for 20 us. -/
def execRailFault (order : Nat) (s : State) : Out :=
  .next (
    if !s.mod.powered || s.mod.shutdown || s.pwr.rails ≤ 1 || order = 0 || 7 < order then s
    else shutdown (raise s .inputRange { kind := .powerStage, unit := order }) false)

/-! ### Temperatures (R601, R602) -/

/-- The warn state begins (R602). -/
def warnStart (s : State) : State := ibi (raise { s with pwr.thermWarn := true, pwr.coolRun := 0 } .thermalWarn { kind := .module }) 1

/-- One more sample in the warn state (R602). -/
def warnRun (s : State) (ts : List Nat) : State :=
  if !below ts 80 then { s with pwr.coolRun := 0 }
  else if s.pwr.coolRun + 1 < 16 then { s with pwr.coolRun := s.pwr.coolRun + 1 }
  else { s with pwr.coolRun := 0, pwr.thermWarn := false }

/-- THERMAL_SAMPLE (R601, R602, R611): the 19 readings, in 1/16 degree. -/
def thermalSample (s : State) (ts : List Nat) : State :=
  let s := { s with pwr := { s.pwr with temps := ts.map (wrap 16), vinReg := s.pwr.vin, iinReg := s.pwr.iin } }
  let rs := readings (ts.map (wrap 16))
  let warm := rs.any (fun e => decide (warnAt e.1 ≤ e.2))
  let trip := rs.any (fun e => match tripAt e.1 with | some t => decide (t ≤ e.2) | none => false)
  let s := if s.pwr.thermWarn then warnRun s (ts.map (wrap 16)) else if warm then warnStart s else s
  if trip && !s.mod.shutdown then shutdown (raise s .thermalTrip { kind := .module }) true else s

/-- THERMAL_SAMPLE (R601, R602). -/
def execThermalSample (temps : List Nat) (s : State) : Out := .next (if s.mod.powered then thermalSample s temps else s)

/-! ### MOD_RESET_N (R600) -/

/-- MOD_RESET_N_ASSERT (R600): the pin has been low for `us`; between 1 us and 10 us `taken` says whether the module recognises it. -/
def execModResetNAssert (us : Nat) (taken : Bool) (s : State) : Out :=
  .next (
    if !(decide (10 ≤ us) || (decide (1 ≤ us) && taken)) || !s.pwr.vao then s
    else if s.mod.powered then { holdParts s with mod := { (holdParts s).mod with resetLow := true, due := none } }
    else { s with mod.resetLow := true })

/-- MOD_RESET_N_RELEASE (R593, R600): start-up goes on, or a module reset starts; after an emergency shutdown only where R592 and R602
allow it. -/
def execModResetNRelease (u : StartUp) (s : State) : Out :=
  .next (
    if !s.mod.resetLow then s
    else
      let s := { s with mod.resetLow := false }
      if !s.mod.powered then s
      else if s.mod.waitHigh then startUp { s with mod.waitHigh := false, mod.cause := 0 } u true false
      else if s.mod.shutdown && !mayRestart s then
        if s.pwr.tripped && !below s.pwr.temps 160 then rstAnswer s rsTooHot else s
      else moduleReset s u { cause := restartCause s 1 })

/-! ### The I3C target (R607, R608) -/

/-- The target answers while VAO is up. -/
def i3cOn (s : State) (f : State → State) : Out := .next (if s.pwr.vao then f s else s)

/-- The provisioned ID (R607). -/
def i3cPid (s : State) : Nat := 0x1F3A * 2 ^ 33 + 0x5344 * 2 ^ 16 + s.mod.slot

/-- MOD_ID (R610). -/
def modId : Nat := 0x5344A100

/-- MOD_STATUS (R610). -/
def modStatus (s : State) : Nat :=
  b2n s.mod.ready * 2 ^ 31 + b2n s.mod.recovery * 2 ^ 30 + b2n s.mod.shutdown * 2 ^ 29 + b2n s.pwr.thermWarn * 2 ^ 28
    + s.mod.step % 16 * 2 ^ 24 + s.mod.cause % 16 * 2 ^ 20

/-- The 64 management registers (R608). -/
def i3cRegs (s : State) : List Byte :=
  leBytes 4 modId ++ leBytes 4 (modStatus s) ++ leBytes 2 s.pwr.vinReg ++ leBytes 2 s.pwr.iinReg ++ leBytes 2 s.pwr.lastW
    ++ leBytes 1 s.lcs.lc.code ++ leBytes 1 s.mod.slot ++ slice ((s.pwr.temps.map (leBytes 2)).flatten) 0 38
    ++ leBytes 2 s.int.lastCode ++ List.replicate 8 0

/-- ENTDAA (R607): a target without an address takes one. -/
def execEntdaa (addr : Nat) (s : State) : Out :=
  i3cOn s (fun s => if s.i3c.addr.isNone then { s with i3c.addr := some (addr % 128), i3c.out := beBytes 6 (i3cPid s) ++ [6, 0] } else s)
/-- RSTDAA (R607). -/
def execRstdaa (s : State) : Out := i3cOn s (fun s => { s with i3c.addr := none })
/-- A CCC or transfer to the dynamic address. -/
def i3cTo (s : State) (addr : Nat) (f : State → State) : Out := i3cOn s (fun s => if s.i3c.addr = some addr then f s else s)
/-- A CCC to every target or to the dynamic address. -/
def i3cAny (s : State) (addr : Option Nat) (f : State → State) : Out :=
  i3cOn s (fun s => if addr.isNone ∨ (s.i3c.addr.isSome ∧ s.i3c.addr = addr) then f s else s)
/-- SETNEWDA (R607). -/
def execSetnewda (addr new : Nat) (s : State) : Out := i3cTo s addr (fun s => { s with i3c.addr := some (new % 128) })
/-- GETPID (R607): most significant byte first. -/
def execGetpid (addr : Nat) (s : State) : Out := i3cTo s addr (fun s => { s with i3c.out := beBytes 6 (i3cPid s) })
/-- GETBCR (R607). -/
def execGetbcr (addr : Nat) (s : State) : Out := i3cTo s addr (fun s => { s with i3c.out := [6] })
/-- GETDCR (R607). -/
def execGetdcr (addr : Nat) (s : State) : Out := i3cTo s addr (fun s => { s with i3c.out := [0] })
/-- GETSTATUS (R607): the two status bytes are not given by the manual but for the pending interrupts, whose code is open. -/
def execGetstatus (addr : Nat) (s : State) : Out :=
  i3cTo s addr (fun s =>
    let (r, s) := draw s 2
    { s with i3c.out := r })
/-- ENEC (R607): enables the in-band interrupt. -/
def execEnec (addr : Option Nat) (s : State) : Out := i3cAny s addr (fun s => { s with i3c.ibi := true })
/-- DISEC (R607): disables it. -/
def execDisec (addr : Option Nat) (s : State) : Out := i3cAny s addr (fun s => { s with i3c.ibi := false })
/-- SETMRL (R607). -/
def execSetmrl (addr : Option Nat) (len : Nat) (s : State) : Out := i3cAny s addr (fun s => { s with i3c.mrl := len % 65536 })
/-- GETMRL (R607): with the length of the interrupt's data, one byte. -/
def execGetmrl (addr : Nat) (s : State) : Out := i3cTo s addr (fun s => { s with i3c.out := beBytes 2 s.i3c.mrl ++ [1] })

/-- I3C_PRIVATE_WRITE (R607): one byte sets the register pointer; of a longer write only the first byte is acknowledged. -/
def execI3cPrivateWrite (addr : Nat) (bytes : List Byte) (s : State) : Out :=
  i3cTo s addr (fun s => match bytes with
    | [b] => { s with i3c.ptr := b.toNat % 64 }
    | _ => s)

/-- I3C_PRIVATE_READ (R607, R608): bytes from the pointer on, which wraps at 0x40. -/
def execI3cPrivateRead (addr len : Nat) (s : State) : Out :=
  i3cTo s addr (fun s =>
    let n := if s.i3c.mrl = 0 then len else min len s.i3c.mrl
    let rs := i3cRegs s
    { s with i3c.out := (countFrom s.i3c.ptr n).map (fun k => getAt 0 rs (k % 64)), i3c.ptr := (s.i3c.ptr + n) % 64 })

end Sys2Proof.Machine
end

