-- ==== Sys2Proof/Machine/Registers.lean ====
section
/-! DEFINITION. The register index (spec/21_register_index.md R613-R618): what a read of each register gives. An offset that lies
in a block but is not listed reads 0 (R12).
Readings and choices: log 125, 126, 127. -/

namespace Sys2Proof.Machine

/-! ### Blocks (R613) -/

/-- The blocks of register space (R613). -/
inductive RegBlock where
  | mod | pwr | lcs | sec | bell | tt | rc | ptn | ctx | vat | prs | brn | int | snp | tst | fab | cpt | mem | unassigned | core
deriving DecidableEq, Repr

/-- The block of an offset, up to the block's End (R613). -/
def regBlock (off : Nat) : RegBlock :=
  let upTo (size : Nat) (b : RegBlock) : RegBlock := if off % 65536 < size then b else .unassigned
  match off / 65536 with
  | 0 => upTo 0x1000 .mod | 1 => upTo 0x1000 .pwr | 2 => upTo 0x2000 .lcs | 3 => upTo 0x5000 .sec
  | 4 => upTo 0x1000 .bell | 5 => upTo 0x1000 .tt | 6 => upTo 0x8000 .rc | 7 => upTo 0x4000 .ptn
  | 8 | 9 | 10 | 11 => .ctx
  | 12 => upTo 0x3000 .vat | 13 => .prs | 14 => upTo 0x1000 .brn | 15 => upTo 0x3000 .int | 16 => upTo 0x8000 .snp
  | 17 => upTo 0x1000 .tst | 18 => upTo 0xA000 .fab | 19 => upTo 0x1000 .cpt | 20 => upTo 0x3000 .mem
  | n => if n < 32 then .unassigned else .core

/-- The blocks of the VAO group (R600). -/
def RegBlock.vao : RegBlock → Bool
  | .mod | .pwr | .lcs | .sec | .int | .cpt => true
  | _ => false

/-- Register `k` of four bytes of a byte window (R525). -/
def byteReg (bs : List Byte) (o : Nat) : Nat := field bs o 4

/-- The low half of a 64-bit value, or its high half. -/
def half (hi : Bool) (x : Nat) : Nat := if hi then x / 2 ^ 32 % 2 ^ 32 else x % 2 ^ 32

/-- A bit at its place. -/
def bitAt (b : Bool) (i : Nat) : Nat := if b then 2 ^ i else 0

/-! ### MOD and PWR (R283, R396, R397, R610-R612) -/

/-- OH_STATE (R397). -/
def ohCode : OhState → Nat
  | .empty => 0 | .based => 1 | .training => 2 | .trained => 3

/-- The partitions that hold a partition Syllabus, from bit `lo` on (R397); a TEARDOWN clears the bit at once (R412). -/
def loadedMask (s : State) (lo : Nat) : Nat :=
  sumNat ((countFrom 0 32).map (fun k => bitAt (getPtn s (lo + k)).inForce k))

/-- A read of the MOD block. -/
def readMod (s : State) (o : Nat) : Nat :=
  match o with
  | 0x000 => modId
  | 0x004 => modStatus s
  | 0x00C => bitAt s.mod.rstDone 31 + bitAt (!s.mod.running.isEmpty) 30 + s.mod.rstStatus
  | 0x010 => s.mod.slot
  | 0x014 => s.mod.startupMs
  | 0x204 => s.syl.len
  | 0x208 => bitAt s.syl.busy 31 + bitAt s.syl.done 30 + bitAt (s.ptn.any (fun e => e.2.reload.isSome)) 29
      + s.syl.reason * 65536 + s.syl.sect * 256 + s.syl.ptn
  | 0x20C => s.syl.record
  | 0x210 => loadedMask s 0
  | 0x214 => loadedMask s 32
  | 0x218 => ohCode s.oh.state * 8 + bitAt s.syl.stored 2 + s.syl.mode
  | 0x320 => bitAt s.oh.done 31 + bitAt s.oh.busy 30 + s.oh.lastCmd * 256 + s.oh.status
  | 0x330 => half false s.oh.fill
  | 0x334 => half true s.oh.fill
  | _ =>
    if 0x240 ≤ o ∧ o < 0x280 then byteReg ((s.syl.module.map ModSyl.meas).getD []) (o - 0x240)
    else if 0x304 ≤ o ∧ o < 0x320 then getAt 0 s.oh.args ((o - 0x304) / 4)
    else if 0x324 ≤ o ∧ o < 0x330 then getAt 0 s.oh.outs ((o - 0x324) / 4)
    else 0

/-- HOT: the reading nearest its Warn threshold, the lowest index of equal ones (R611). -/
def hottest (ts : List Nat) : Nat :=
  match readings ts with
  | [] => 0
  | e :: es => (es.foldl (fun b x => if warnAt x.1 - x.2 < warnAt b.1 - b.2 then x else b) e).1

/-- A read of the PWR block. -/
def readPwr (s : State) (o : Nat) : Nat :=
  match o with
  | 0x000 => s.pwr.vinReg % 65536 * 65536 + s.pwr.iinReg % 65536
  | 0x004 => bitAt s.pwr.inputLow 31 + bitAt s.pwr.inputHigh 30 + bitAt s.pwr.thermWarn 29
      + bitAt (decide (capWatts s < setCap s)) 28 + hottest s.pwr.temps * 65536 + s.pwr.rails
  | 0x008 => s.pwr.gateActive * 65536 + s.pwr.gateRegions
  | 0x100 => s.pwr.cap
  | 0x104 => bitAt s.pwr.hold 31 + bitAt s.pwr.holdSeen 30 + min s.pwr.lastW 0xFFF
  | 0x108 => s.pwr.govCount
  | _ => if 0x010 ≤ o ∧ o < 0x05C then getAt 0 s.pwr.temps ((o - 0x010) / 4) % 65536 else 0

/-! ### LCS and SEC (R524, R525) -/

/-- The selected journal entry; nothing when it is not held (R524). -/
def selectedEntry (s : State) : List Byte :=
  ((s.led.journal.find? (fun e => e.seq == s.lcs.jrnSel)).map JEntry.bytes).getD []

/-- A read of the LCS block. -/
def readLcs (s : State) (o : Nat) : Nat :=
  match o with
  | 0x000 => bitAt s.lcs.jrnOverwrite 31 + s.ses.open_.length * 65536 + s.lcs.lc.code
  | 0x008 => bitAt s.lcs.done 31 + s.lcs.status
  | 0x010 => half false s.led.seq
  | 0x014 => half true s.led.seq
  | 0x018 => half false s.lcs.jrnAck
  | 0x01C => half true s.lcs.jrnAck
  | 0x020 => half false s.lcs.jrnSel
  | 0x024 => half true s.lcs.jrnSel
  | 0x028 => s.lcs.authFail
  | _ =>
    if 0x040 ≤ o ∧ o < 0x080 then byteReg (selectedEntry s) (o - 0x040)
    else if 0x1000 ≤ o ∧ o < 0x17A0 then byteReg s.lcs.keybuf (o - 0x1000)
    else 0

/-- A read of the SEC block. -/
def readSec (s : State) (o : Nat) : Nat :=
  match o with
  | 0x024 => bitAt s.sec.done 31 + s.sec.status
  | 0x028 => s.sec.ekTtl
  | 0x02C => s.sec.eks.length
  | 0x030 => s.sec.fwVer
  | 0x034 => s.fuse.fwFloor
  | _ =>
    if o < 0x020 then byteReg s.sec.deviceId o
    else if 0x040 ≤ o ∧ o < 0x060 then byteReg s.sec.nonce (o - 0x040)
    else if 0x080 ≤ o ∧ o < 0x0C0 then byteReg s.sec.fwMeas (o - 0x080)
    else if 0x1000 ≤ o ∧ o < 0x2340 then byteReg s.sec.qbuf (o - 0x1000)
    else if 0x3000 ≤ o ∧ o < 0x3540 then byteReg s.sec.krbuf (o - 0x3000)
    else if 0x4000 ≤ o ∧ o < 0x47A0 then byteReg s.sec.pubkey (o - 0x4000)
    else 0

/-! ### BELL, TT and RC (R280, R281, R314, R315) -/

/-- A read of the BELL block; BELL_COUNT_HI gives what the last read of BELL_COUNT_LO latched (R280). -/
def readBell (s : State) (o : Nat) : Nat :=
  match o with
  | 0x000 => half false s.bell.count
  | 0x004 => s.bell.latchHi
  | 0x008 => s.bell.sub
  | 0x00C => settingGet s .bellCfg
  | 0x010 => bitAt s.bell.stepped 10 + bitAt s.bell.holdoverSeen 9 + bitAt s.bell.switched 8 + bitAt s.bell.cfgPend.isSome 6
      + bitAt s.bell.actingMaster 5 + s.bell.source * 8 + s.bell.state.code
  | 0x014 => s.bell.alt.delay % 65536 * 65536 + s.bell.prim.delay % 65536
  | 0x018 => settingGet s .bellTrim
  | 0x01C => s.bell.holdLimit
  | 0x020 => s.bell.missed
  | _ => 0

/-- A read of the TT entry of a partition. -/
def readTt (s : State) (p o : Nat) : Nat :=
  let t := (getPtn s p).tt
  match o with
  | 0x04 => half false t.at_
  | 0x08 => half true t.at_
  | 0x0C => t.cmdStatus * 65536 + t.curSlot * 256 + bitAt ((ttOf s p).any Timetable.abortPolicy) 3 + t.state.code
  | 0x10 => half false t.lesson
  | 0x14 => half true t.lesson
  | 0x18 => half false t.bound
  | 0x1C => half true t.bound
  | 0x20 => t.lastSlot * 65536 + t.overruns
  | 0x24 => t.late
  | 0x28 => t.skipped
  | 0x2C => t.govhold
  | 0x30 => ((ttOf s p).map Timetable.preempt).getD 0
  | _ => 0

/-- A read of the RC block. -/
def readRc (s : State) (o : Nat) : Nat :=
  match o with
  | 0x000 => s.rc.replyLimit
  | 0x004 => s.rc.epoch1 * 65536 + s.rc.epoch0 * 256 + bitAt s.rc.overflowSeen 3 + bitAt s.rc.retractLateSeen 2
      + bitAt s.rc.lostSeen 1 + bitAt s.rc.staleSeen 0
  | 0x008 => s.rc.stale
  | 0x00C => s.rc.lost
  | 0x010 => s.rc.errRes * 65536 + s.rc.errCrc
  | 0x014 => s.rc.lateEqual * 65536 + s.rc.discarded
  | 0x020 => bitAt s.rc.selBar 16 + s.rc.selIndex
  | 0x024 => s.rc.semValue
  | 0x028 => s.rc.semAttr
  | _ => if 0x4000 ≤ o ∧ o < 0x8000 then heldEntries (getCtx s ((o - 0x4000) / 4)) else 0

/-! ### PTN, CTX, VAT, PRS and BRN (R178, R179, R241, R247, R248, R422-R424) -/

/-- A read of the PTN entry of a partition. -/
def readPtn (s : State) (p o : Nat) : Nat :=
  let q := getPtn s p
  match o with
  | 0x00 => bitAt q.enablePending.isSome 31 + bitAt (q.state == .scrubbing) 30 + q.holdCause * 65536 + attachedCount s p * 256
      + q.state.code
  | 0x0C => bitAt q.done 31 + bitAt q.busy 30 + q.resCtx * 65536 + q.resStatus
  | 0x10 => q.activeMax * 65536 + q.eventSem
  | 0x14 => q.revoked * 65536 + q.landingDrop
  | 0x18 => if q.state = .scrubbing then q.scrubLeft else 0
  | _ => 0

/-- SEAT of CTX_STATE: the requested seat while a change is pending (R423). -/
def shownSeat (x : Ctx) : Nat := if x.rebind || x.state == .attaching || x.state == .resuming then x.reqSeat else x.seat

/-- A read of the CTX window of a context. -/
def readCtx (s : State) (c o : Nat) : Nat :=
  let x := getCtx s c
  match o with
  | 0x00 => bitAt (!x.enableQ.isEmpty) 31 + bitAt x.restored 30 + bitAt x.loaded 29 + bitAt (x.parkGrants != 0 || x.parkWaits != 0) 28
      + shownSeat x * 65536 + x.lastStatus * 256 + x.state.code
  | 0x04 => bitAt x.loaded 31 + x.gen
  | 0x08 => half false x.bound
  | 0x0C => half true x.bound
  | 0x10 => half false x.swap
  | 0x14 => half true x.swap
  | 0x18 => x.parkGrants * 65536 + x.parkWaits
  | 0x30 => x.convSat * 65536 + x.convNan
  | 0x34 => x.gradev
  | 0x38 => x.masterev
  | _ => 0

/-- A read of a request port of the Vat. -/
def readPort (s : State) (n o : Nat) : Nat :=
  let v := getPort s n
  if 0x04 ≤ o ∧ o < 0x18 then portArg v ((o - 4) / 4)
  else if o = 0x18 then bitAt v.done 31 + bitAt v.busy 30 + bitAt v.late 29 + v.slotGen * 65536 + v.status
  else 0

/-- A read of the VAT block. -/
def readVat (s : State) (o : Nat) : Nat :=
  match o with
  | 0x000 => half false s.vat.base
  | 0x004 => half true s.vat.base
  | 0x008 => bitAt s.vat.ready 31 + s.vat.size
  | 0x00C => s.vat.timeout
  | 0x010 => s.vat.stale
  | _ => if 0x1000 ≤ o ∧ o < 0x1000 + 65 * 64 then readPort s ((o - 0x1000) / 64) (o % 64) else 0

/-- A read of the window of a Press; that of a gated region reads 0 (R615). -/
def readPrs (s : State) (r o : Nat) : Nat :=
  let x := getPrs s r
  if bitOf s.pwr.gateActive r then 0 else
  match o with
  | 0x000 => bitAt x.run.isSome 31 + bitAt x.faultValid 30 + x.q.length * 2 ^ 24 + x.lastOp * 65536 + x.fault
  | 0x004 => b2n x.driftEn
  | 0x008 => x.lastPtn * 4096 + x.lastCtx
  | 0x00C => x.driftCount
  | 0x010 => half false x.elem
  | 0x014 => half true x.elem
  | 0x020 => bitAt x.nsValid 31 + x.nsPtn * 4096 + x.nsCtx
  | 0x024 => x.nsLesson
  | 0x028 => x.nsM
  | 0x02C => x.nsRows
  | 0x030 => x.nsSmb.toNat
  | 0x034 => x.nsSrank.toNat
  | 0x038 => x.nsGnorm2.toNat
  | 0x03C => x.nsClip.toNat
  | _ => 0

/-- BRN_RIND: bit i is set when BASE window i, in WIND order, carries Rind (R424). -/
def rindMask (s : State) : Nat :=
  let bs := (moduleWins s).filter (fun w => w.type == .base)
  sumNat ((List.zip (countFrom 0 16) bs).map (fun e => bitAt (s.brn.rind.contains e.2.owner) e.1))

/-- CUR_PTN, CUR_CTX and JOB of BRN_STATUS (R424). -/
def brnCur (s : State) : Nat :=
  match s.brn.cur with
  | none => 0
  | some j =>
    let (c, p, x) := jobCode j
    p * 2 ^ 22 + (if c = 2 then x * 2 ^ 10 else 0) + c * 256

/-- A read of the BRN block. -/
def readBrn (s : State) (o : Nat) : Nat :=
  match o with
  | 0x000 => bitAt s.brn.enablePending 31 + s.brn.engine.code * 2 ^ 29 + brnCur s + min s.brn.queue.length 0xFF
  | 0x008 => bitAt s.brn.done 31 + s.brn.status
  | 0x00C => s.brn.left
  | 0x010 => rindMask s
  | 0x014 => s.brn.count
  | _ => 0

/-! ### INT, SNP and TST (R547, R548, R569, R585, R586) -/

/-- The selected record of the fault log (R547). -/
def selectedFault (s : State) : List Byte := ((s.int.log.find? (fun f => f.seq == s.int.logSel)).map Fsr.bytes).getD []

/-- INT_CORE_p (R548). -/
def intCore (s : State) (p : Nat) : Nat :=
  let x := getPhys s p
  x.state.code * 2 ^ 30 + x.number * 2 ^ 20 + x.clean * 2 ^ 13 + x.fails * 2 ^ 11 + bitAt x.testing 10

/-- A read of the INT block. -/
def readInt (s : State) (o : Nat) : Nat :=
  match o with
  | 0x000 => bitAt s.int.moduleFault 31 + bitAt s.int.logWrapped 30 + s.int.lastCode
  | 0x008 => s.int.logSeq
  | 0x00C => s.int.logSel
  | 0x010 => s.int.chkReplaced * 65536 + s.int.chkFault
  | 0x014 => s.int.noMaj * 65536 + s.int.residue
  | 0x018 => s.int.memUe * 65536 + s.int.memCe
  | 0x01C => s.int.sramUe * 65536 + s.int.sramCe
  | 0x020 => s.int.quizFailed * 65536 + s.int.quizIncomplete
  | _ =>
    if 0x040 ≤ o ∧ o < 0x080 then byteReg (selectedFault s) (o - 0x040)
    else if 0x1000 ≤ o ∧ o < 0x2200 then intCore s ((o - 0x1000) / 4)
    else 0

/-- JOBS of SNP_STATUS: captures, drains, mirrors and restores (R569). -/
def snpJobs (s : State) : Nat :=
  s.snp.jobs.length + s.snp.mirrors.length + (s.snp.ctx.filter (fun e => e.2.restoring.isSome)).length

/-- SNP_CTX_n (R569). -/
def snpCtxReg (s : State) (c : Nat) : Nat :=
  let x := getSnp s c
  bitAt x.armed 31 + bitAt x.verify.isSome 30 + bitAt (s.snp.jobs.any (fun j => j.ctx == c) || s.snp.mirrors.any (fun m => m.ctx == c)) 29
    + bitAt x.restoring.isSome 28 + bitAt x.now 27 + x.gen % 65536

/-- A read of the SNP block. -/
def readSnp (s : State) (o : Nat) : Nat :=
  match o with
  | 0x018 => bitAt s.snp.done 31 + bitAt s.snp.busy 30 + bitAt s.snp.measDiffer 29 + s.snp.status
  | 0x01C => bitAt s.snp.ready 31 + min (snpJobs s) 0xFF
  | 0x020 => settingGet s .snpCfg
  | 0x024 => settingGet s .snpBuddy
  | 0x028 => min (freeExtents s true / 16) 0xFFFF * 65536 + min (freeExtents s false / 16) 0xFFFF
  | 0x02C => s.snp.verified * 65536 + s.snp.skipped
  | 0x030 => s.snp.failMirror * 65536 + s.snp.failDigest
  | _ =>
    if 0x004 ≤ o ∧ o < 0x018 then getAt 0 s.snp.args ((o - 4) / 4)
    else if 0x100 ≤ o ∧ o < 0x200 then byteReg s.snp.qbuf (o - 0x100)
    else if 0x4000 ≤ o ∧ o < 0x8000 then snpCtxReg s ((o - 0x4000) / 4)
    else 0

/-- TST_REP_COUNT (R586): records FUSED, and records PENDING or APPLIED. -/
def repCount (s : State) : Nat :=
  (s.led.repair.filter (fun e => e.2.state == 3)).length * 65536
    + (s.led.repair.filter (fun e => e.2.state == 1 || e.2.state == 2)).length

/-- The selected repair record; a free one reads 0. -/
def selectedRep (s : State) : List Byte :=
  let r := getRep s s.tst.repSel
  if r.state = 0 then [] else r.bytes

/-- A read of the TST block. -/
def readTst (s : State) (o : Nat) : Nat :=
  match o with
  | 0x000 => bitAt s.tst.busy 31 + bitAt s.tst.repairFull 30 + bitAt s.tst.unrepaired 29 + s.tst.running.length * 65536 + s.tst.regionsOk
  | 0x008 => s.tst.arg
  | 0x00C => bitAt s.tst.done 31 + s.tst.status
  | 0x010 => s.tst.run
  | 0x014 => s.tst.dropped * 65536 + s.tst.results.length
  | 0x018 => s.tst.resSel
  | 0x01C => repCount s
  | 0x020 => s.tst.repSel
  | _ =>
    if 0x040 ≤ o ∧ o < 0x060 then byteReg (getAt [] s.tst.results s.tst.resSel) (o - 0x040)
    else if 0x060 ≤ o ∧ o < 0x080 then byteReg (selectedRep s) (o - 0x060)
    else 0

/-! ### FAB, CPT, MEM and CORE (R324, R351, R449-R451, R495, R618) -/

/-- A read of the entry of a fabric port. -/
def readFabPort (s : State) (p o : Nat) : Nat :=
  let q := fabPort s p
  match o with
  | 0x000 => b2n q.dateline
  | 0x008 => bitAt q.enablePending 31 + q.pstate.code * 2 ^ 28 + q.active * 2 ^ 23 + q.spareFor * 2 ^ 18 + q.failed
  | 0x00C => bitAt q.peerValid 31 + q.peerRole * 2 ^ 11 + q.peerLmn
  | 0x010 => q.corr
  | 0x014 => q.uncorr
  | 0x018 => q.replay
  | 0x01C => q.drop
  | _ => 0

/-- A read of the FAB block. -/
def readFab (s : State) (o : Nat) : Nat :=
  if o < 0x8000 then readFabPort s (o / 0x1000) (o % 0x1000)
  else if o < 0x9000 then settingGet s (.fabMap ((o - 0x8000) / 4))
  else if o = 0x9000 then bitAt s.fab.assigned 31 + settingGet s .fabId
  else if o = 0x9008 then bitAt s.fab.takeDone 31 + bitAt s.fab.takeBusy 30 + s.fab.takeStatus * 65536 + s.fab.takeLmn
  else if 0x9100 ≤ o ∧ o < 0x9180 then settingGet s (.fabCover ((o - 0x9100) / 4))
  else 0

/-- A read of the CPT block. -/
def readCpt (s : State) (o : Nat) : Nat :=
  match o with
  | 0x000 => bitAt s.cpt.refLost 7 + bitAt s.cpt.downSeen 6 + s.cpt.lstate
  | 0x004 => s.cpt.errRes * 65536 + s.cpt.errCrc
  | 0x008 => s.cpt.bulkAbort * 65536 + s.cpt.replays
  | 0x00C => s.cpt.evLost * 65536 + s.cpt.evq.length
  | 0x010 => s.vat.fetches.length
  | 0x014 => s.cpt.recResult * 2 ^ 26 + s.cpt.recBuf.length / 64
  | _ => 0

/-- STATE of a memory channel (R618): FAILED (R595), SELF_REFRESH during an X-die 1 reset (R597), READY. -/
def channelState (s : State) (n : Nat) : Nat :=
  if s.mc.failed.contains n then 3
  else if 264 ≤ n && resetting s (3, 5) then 2
  else 0

/-- REMAP of a memory channel: the remap rows in use (R578, R579). -/
def channelRemap (s : State) (n : Nat) : Nat :=
  let u := if n < 256 then 0x4000 + n else 0x6000 + (n - 256)
  (s.led.repair.filter (fun e => e.2.kind == 4 && e.2.unit == u && (e.2.state == 2 || e.2.state == 3))).length

/-- MEM_HBM_CH_n and MEM_T2_CH_n (R618). -/
def channelReg (s : State) (n : Nat) : Nat :=
  channelState s n * 2 ^ 30 + min 64 (channelRemap s n) * 2 ^ 23 + tget 0 s.mc.ue n * 256 + tget 0 s.mc.ce n

/-- A read of the MEM block. -/
def readMem (s : State) (o : Nat) : Nat :=
  if o = 0 then s.mc.passes
  else if 0x1000 ≤ o ∧ o < 0x1400 then channelReg s ((o - 0x1000) / 4)
  else if 0x2000 ≤ o ∧ o < 0x2040 then channelReg s (256 + (o - 0x2000) / 4)
  else 0

/-- CORE_THR_n (R324). -/
def coreThr (s : State) (n t : Nat) : Nat :=
  let h := getThr s n t
  h.state.code * 2 ^ 28 + bitAt h.mmode 27 + bitAt (ctxValid s n t) 26 + h.ctx * 4096 + h.lastTrap

/-- A read of the window of a core; one whose number no physical core carries reads 0 (R615). -/
def readCore (s : State) (n o : Nat) : Nat :=
  let c := getCore s n
  if (physOf s n).isNone then 0
  else if o < 0x040 then coreThr s n (o / 4)
  else if 0x400 ≤ o ∧ o < 0x600 then (tget 0 c.chScale ((o - 0x400) / 4)).toNat
  else
    match o with
    | 0x600 => bitAt c.w4Nan 1 + bitAt c.zpSub 0
    | 0x610 => bitAt c.acdRun.isSome 31 + bitAt c.faultValid 30 + c.acdQ.length * 2 ^ 24 + c.lastOp * 65536 + c.fault
    | 0x614 => c.chkMismatch * 65536 + c.crcRetry
    | 0x618 => c.seals * 65536 + c.sealWaits
    | 0x61C => c.tagW * 65536 + c.tagR
    | 0x620 => bitAt c.xferRun.isSome 31 + bitAt c.xFaultValid 30 + c.xferQ.length * 2 ^ 24 + c.xLastOp * 65536 + c.xStatus * 4096
        + c.xFault % 4096
    | _ => 0

/-! ### Any register -/

/-- The value that a read of an aligned offset gives (R12, R600, R613). -/
def regValue (s : State) (off : Nat) : Nat :=
  let b := regBlock off
  if !b.vao && !partsUp s then 0 else
  match b with
  | .mod => readMod s (off % 0x10000)
  | .pwr => readPwr s (off % 0x10000)
  | .lcs => readLcs s (off % 0x10000)
  | .sec => readSec s (off % 0x10000)
  | .bell => readBell s (off % 0x10000)
  | .tt => if off % 0x10000 < 0x1000 then readTt s (off % 0x1000 / 64) (off % 64) else 0
  | .rc => readRc s (off % 0x10000)
  | .ptn => if off % 0x10000 < 0x4000 then readPtn s (off % 0x4000 / 256) (off % 256) else 0
  | .ctx => readCtx s ((off - 0x080000) / 64) (off % 64)
  | .vat => readVat s (off % 0x10000)
  | .prs => readPrs s (off % 0x10000 / 0x1000) (off % 0x1000)
  | .brn => readBrn s (off % 0x10000)
  | .int => readInt s (off % 0x10000)
  | .snp => readSnp s (off % 0x10000)
  | .tst => readTst s (off % 0x10000)
  | .fab => readFab s (off % 0x10000)
  | .cpt => readCpt s (off % 0x10000)
  | .mem => readMem s (off % 0x10000)
  | .unassigned => 0
  | .core => readCore s ((off - 0x200000) / 0x800) (off % 0x800)

/-- What a read changes (R280): one of BELL_COUNT_LO latches the upper half. -/
def regTouch (s : State) (off : Nat) : State :=
  if off = 0x040000 ∧ partsUp s then { s with bell.latchHi := half true s.bell.count } else s

end Sys2Proof.Machine
end

