-- ==== Sys2Proof/Machine/RegAccess.lean ====
section
/-! DEFINITION. Register accesses (R6-R13, R346, R482, R502, R503, R572, R600, R615, R626): who may read and write, what a write of
each register does, and the commands that carry accesses: REGISTER_WRITE, REG_REQ, REG_ACCESS.
Readings and choices: log 106, 121, 122, 123, 125, 146. -/

namespace Sys2Proof.Machine

/-! ### Who may read (R346, R482, R494, R503, R572) -/

/-- The blocks that the maker reads (R503). -/
def RegBlock.makers : RegBlock → Bool
  | .mod | .cpt | .lcs | .sec | .tst | .int | .pwr => true
  | _ => false

/-- The registers that show the journal: LCS_JRN_SEQ, LCS_JRN_ACK, LCS_JRN_SEL and LCS_JRN_DATA (R503, R524). -/
def journalReg (o : Nat) : Bool := (decide (0x010 ≤ o) && decide (o < 0x028)) || (decide (0x040 ≤ o) && decide (o < 0x080))

/-- What a requester without a role reads: MOD and CPT, and outside RECOVERY SEC_ID, SEC_PUBKEY and the journal (R482, R494, R496,
R503). -/
def anonReads (s : State) (off : Nat) : Bool :=
  match regBlock off with
  | .mod | .cpt => true
  | .lcs => !s.mod.recovery && journalReg (off % 0x10000)
  | .sec =>
    let o := off % 0x10000
    !s.mod.recovery && (decide (o < 0x20) || (decide (0x4000 ≤ o) && decide (o < 0x47A0)))
  | _ => false

/-- The parts of register space that a thread in M-mode reaches (R346): its core's window, the PTN and TT entries and the Vat port
of its partition, the CTX windows of contexts attached to it, its region's Press block. -/
def threadReaches (s : State) (n t off : Nat) : Bool :=
  match ptnOfCluster s (n / 8) with
  | none => false
  | some p =>
    let o := off % 0x10000
    (getThr s n t).mmode &&
      match regBlock off with
      | .core => (off - 0x200000) / 0x800 == n
      | .ptn => decide (o < 0x4000) && o / 256 == p
      | .tt => decide (o < 0x1000) && o / 64 == p
      | .ctx => attachedTo s p ((off - 0x080000) / 64)
      | .vat => decide (0x1000 ≤ o) && (o - 0x1000) / 64 == p
      | .prs => o / 0x1000 == n / 64
      | _ => false

/-- The requester may read the register (R503). -/
def mayRead (s : State) (who : Req) (off : Nat) : Bool :=
  match who with
  | .thread n t => threadReaches s n t off
  | .tap => match s.fuse.lc with
    | .manufacture => true
    | .returned => regBlock off == .tst
    | _ => false
  | _ => match roleOf s who with
    | some .maker => (regBlock off).makers
    | some _ => true
    | none => anonReads s off

/-! ### What a write does (R6, R9, R503) -/

/-- What a write of a register is to the module: of a register with no field that a write changes, of one whose fields that a
write changes are W1C, or of one that the requester may write or not. -/
inductive RegWr where
  | ro
  | w1c (s : State)
  | rw (may : Bool) (s : State)

/-- A state with a change where the bit is written as 1. -/
def onBit (v i : Nat) (f : State → State) (s : State) : State := if bitOf v i then f s else s

/-- A written word without the bits that hardware sets in the same cycle: those W1C bits stay 1 (R7, R143). -/
def clearMask (v set : Nat) : Nat := v &&& (2 ^ 32 - 1 - set % 2 ^ 32)

/-- A byte window of `n` bytes with one register written. -/
def putReg (bs : List Byte) (n o v : Nat) : List Byte := patch (slice bs 0 n) o (leBytes 4 v)

/-- A 64-bit value with one half written. -/
def putHalf (hi : Bool) (x v : Nat) : Nat := if hi then x % 2 ^ 32 + 2 ^ 32 * v else x / 2 ^ 32 * 2 ^ 32 + v

/-- The requester has a role. -/
def hasRole (s : State) (who : Req) : Bool := (roleOf s who).isSome

/-- A write in the MOD block. -/
def writeMod (s : State) (who : Req) (o v : Nat) : RegWr :=
  match o with
  | 0x008 => .rw (mayModRst s who) (rstCmd s who v)
  | 0x00C => .w1c (onBit v 31 (fun s => { s with mod.rstDone := false }) s)
  | 0x200 => .rw (maySyl s who) (sylCmd s who v)
  | 0x204 => .rw (maySyl s who) { s with syl.len := v }
  | 0x208 => .w1c (onBit v 30 (fun s => { s with syl.done := false }) s)
  | 0x300 => .rw (isOperator s who) (ohCmd s v)
  | 0x320 => .w1c (onBit v 31 (fun s => { s with oh.done := false }) s)
  | _ =>
    if 0x304 ≤ o ∧ o < 0x320 then .rw (isOperator s who) { s with oh.args := setAt s.oh.args ((o - 0x304) / 4) v } else .ro

/-- A write in the PWR block. -/
def writePwr (s : State) (who : Req) (o v : Nat) : RegWr :=
  match o with
  | 0x008 => .rw (isInstaller s who) (settingPut s .pwrGate v)
  | 0x100 => .rw (isInstaller s who) (settingPut s .pwrCap v)
  | 0x104 => .w1c (onBit v 30 (fun s => { s with pwr.holdSeen := false }) s)
  | _ => .ro

/-- A write in the LCS block: the journal's selection and acknowledgement by every role, key material by the roles that set keys
(R503). -/
def writeLcs (s : State) (who : Req) (o v : Nat) (env : RegEnv) : RegWr :=
  match o with
  | 0x000 => .w1c (onBit v 31 (fun s => { s with lcs.jrnOverwrite := false }) s)
  | 0x004 => .rw (mayCommand s who) (lcsCmd s who v env.burn)
  | 0x008 => .w1c (onBit v 31 (fun s => { s with lcs.done := false }) s)
  | 0x018 => .rw (hasRole s who) { s with lcs.jrnAck := putHalf false s.lcs.jrnAck v }
  | 0x01C => .rw (hasRole s who) { s with lcs.jrnAck := putHalf true s.lcs.jrnAck v }
  | 0x020 => .rw (hasRole s who) { s with lcs.jrnSel := putHalf false s.lcs.jrnSel v }
  | 0x024 => .rw (hasRole s who) { s with lcs.jrnSel := putHalf true s.lcs.jrnSel v }
  | _ =>
    if 0x1000 ≤ o ∧ o < 0x17A0 then .rw (mayKeybuf s who) { s with lcs.keybuf := putReg s.lcs.keybuf 1952 (o - 0x1000) v } else .ro

/-- A write in the SEC block. -/
def writeSec (s : State) (who : Req) (o v : Nat) : RegWr :=
  match o with
  | 0x020 => .rw (mayCommand s who) (secCmd s who v)
  | 0x024 => .w1c (onBit v 31 (fun s => { s with sec.done := false }) s)
  | 0x028 => .rw (isInstaller s who) (settingPut s .ekTtl v)
  | _ =>
    if 0x040 ≤ o ∧ o < 0x060 then .rw (mayNonce s who) { s with sec.nonce := putReg s.sec.nonce 32 (o - 0x040) v }
    else if 0x3000 ≤ o ∧ o < 0x3540 then .rw (isOperator s who) { s with sec.krbuf := putReg s.sec.krbuf 1344 (o - 0x3000) v }
    else .ro

/-- A write in the BELL block. -/
def writeBell (s : State) (who : Req) (o v : Nat) : RegWr :=
  match o with
  | 0x00C => .rw (isInstaller s who) (settingPut s .bellCfg v)
  | 0x010 => .w1c (onBit v 10 (fun s => { s with bell.stepped := false })
      (onBit v 9 (fun s => { s with bell.holdoverSeen := false }) (onBit v 8 (fun s => { s with bell.switched := false }) s)))
  | 0x018 => .rw (isInstaller s who) (settingPut s .bellTrim v)
  | 0x01C => .rw (isInstaller s who) (settingPut s .bellHoldover v)
  | _ => .ro

/-- A write in the TT entry of a partition. -/
def writeTt (s : State) (who : Req) (p o v : Nat) : RegWr :=
  match o with
  | 0x00 => .rw (mayPtn s who p) (ttCmd s p v)
  | 0x04 => .rw (mayPtn s who p) (modTt s p (fun t => { t with at_ := putHalf false t.at_ v }))
  | 0x08 => .rw (mayPtn s who p) (modTt s p (fun t => { t with at_ := putHalf true t.at_ v }))
  | _ => .ro

/-- RC_SEM_ATTR of a semaphore or barrier (R314). -/
def semAttr (s : State) (bar : Bool) (i : Nat) : Nat :=
  let pack (alloc : Bool) (scope flags ptn form : Nat) : Nat :=
    bitAt alloc 31 + scope * 2 ^ 29 + flags * 2 ^ 25 + ptn * 2 ^ 19 + (if scope = 2 then form else 0)
  if bar then
    let b := getBar s i
    pack b.alloc b.scope 0 b.ptn b.form
  else
    let x := getSem s i
    pack x.alloc x.scope (bitAt x.rev 3 + bitAt x.abt 2 + bitAt x.rej 1 + bitAt x.sat 0) x.ptn x.form

/-- A write of RC_SEM_SEL latches RC_SEM_VALUE and RC_SEM_ATTR (R314). -/
def semSelect (s : State) (v : Nat) : State :=
  let bar := bitOf v 16
  let i := bits v 0 16
  let value := if bar then (getBar s i).gen * 65536 + (getBar s i).count else (getSem s i).value
  { s with rc := { s.rc with selBar := bar, selIndex := i, semValue := value, semAttr := semAttr s bar i } }

/-- A write in the RC block. -/
def writeRc (s : State) (who : Req) (o v : Nat) : RegWr :=
  match o with
  | 0x000 => .rw (isInstaller s who) (settingPut s .rcCfg v)
  | 0x004 => .w1c (onBit v 3 (fun s => { s with rc.overflowSeen := false }) (onBit v 2 (fun s => { s with rc.retractLateSeen := false })
      (onBit v 1 (fun s => { s with rc.lostSeen := false }) (onBit v 0 (fun s => { s with rc.staleSeen := false }) s))))
  | 0x020 => .rw (hasRole s who) (semSelect s v)
  | _ => .ro

/-- PTN_CFG (R422): an ACTIVE_MAX of 0 or above CTX_COUNT is ignored. -/
def ptnCfg (s : State) (p v : Nat) : State :=
  let m := bits v 16 7
  let top := ((grantOf s p).map Grant.ctxCount).getD 0
  modPtn s p (fun q => { q with eventSem := bits v 0 16, activeMax := if m = 0 ∨ top < m then q.activeMax else m })

/-- A write in the PTN entry of a partition; PTN_CMD answers a thread in PTN_RESULT (R422). -/
def writePtn (s : State) (who : Req) (p o v : Nat) : RegWr :=
  match o with
  | 0x04 => .rw (mayPtn s who p) (ptnCmd s who p v)
  | 0x08 => .rw (mayPtn s who p) (ptnCtxCmd s p v)
  | 0x0C => .w1c (onBit v 31 (fun s => modPtn s p (fun q => { q with done := false })) s)
  | 0x10 => .rw (mayPtn s who p) (ptnCfg s p v)
  | _ => .ro

/-- The requester may write the counters of a context (R241, R346, R503): the operator, or a thread that reaches its window. -/
def mayCtx (s : State) (who : Req) : Bool :=
  isOperator s who || (match who with | .thread _ _ => true | _ => false)

/-- A write in the CTX window of a context. -/
def writeCtx (s : State) (who : Req) (c o v : Nat) : RegWr :=
  match o with
  | 0x30 => .rw (mayCtx s who) (modCtx s c (fun x => { x with convSat := bits v 16 16, convNan := bits v 0 16 }))
  | 0x34 => .rw (mayCtx s who) (modCtx s c (fun x => { x with gradev := v }))
  | 0x38 => .rw (mayCtx s who) (modCtx s c (fun x => { x with masterev := v }))
  | _ => .ro

/-- A write in a request port of the Vat. -/
def writePort (s : State) (who : Req) (n o v : Nat) : RegWr :=
  if o = 0 then .rw (mayPort s who n) (vatOp s n v)
  else if o < 0x18 then .rw (mayPort s who n) (modPort s n (fun x => { x with args := setAt x.args ((o - 4) / 4) v }))
  else if o = 0x18 then .w1c (onBit v 31 (fun s => modPort s n (fun x => { x with done := false })) s)
  else .ro

/-- A write in the VAT block. -/
def writeVat (s : State) (who : Req) (o v : Nat) : RegWr :=
  if o = 0x00C then .rw (isInstaller s who) (settingPut s .vatTimeout v)
  else if 0x1000 ≤ o ∧ o < 0x1000 + 65 * 64 then writePort s who ((o - 0x1000) / 64) (o % 64) v
  else .ro

/-- A write in the window of a Press; that of a gated region ignores it (R615). -/
def writePrs (s : State) (who : Req) (r o v : Nat) : RegWr :=
  if bitOf s.pwr.gateActive r then .ro
  else if o = 0 then .w1c (onBit v 30 (fun s => modPrs s r (fun x => { x with faultValid := false, fault := 0 })) s)
  else if o = 4 then .rw (isInstaller s who) (settingPut s (.prsCfg r) v)
  else .ro

/-- A write in the BRN block. -/
def writeBrn (s : State) (who : Req) (o v : Nat) : RegWr :=
  match o with
  | 0x004 => .rw (mayBrn s who) (brnCmd s who v)
  | 0x008 => .w1c (onBit v 31 (fun s => { s with brn.done := false }) s)
  | _ => .ro

/-- A write in the INT block; a reserved bit set in INT_ACK makes it ignored, and a class M fault raised in its cycle leaves MODULE_FAULT
set (R547, R626). -/
def writeInt (s : State) (who : Req) (o v : Nat) (env : RegEnv) : RegWr :=
  match o with
  | 0x000 => .w1c (onBit v 30 (fun s => { s with int.logWrapped := false }) s)
  | 0x004 => .rw (isInstaller s who || isOperator s who) (if v / 2 = 0 then intAck s (clearMask v env.hwSet) else s)
  | 0x00C => .rw (hasRole s who) { s with int.logSel := v }
  | _ => .ro

/-- A write in the SNP block. -/
def writeSnp (s : State) (who : Req) (o v : Nat) : RegWr :=
  match o with
  | 0x000 => .rw (isOperator s who) (snpCmd s v)
  | 0x018 => .w1c (onBit v 31 (fun s => { s with snp.done := false }) s)
  | 0x020 => .rw (isInstaller s who) (settingPut s .snpCfg v)
  | 0x024 => .rw (isInstaller s who) (settingPut s .snpBuddy v)
  | _ => if 0x004 ≤ o ∧ o < 0x018 then .rw (isOperator s who) { s with snp.args := setAt s.snp.args ((o - 4) / 4) v } else .ro

/-- A write in the TST block. -/
def writeTst (s : State) (who : Req) (o v : Nat) (env : RegEnv) : RegWr :=
  match o with
  | 0x000 => .w1c (onBit v 30 (fun s => { s with tst.repairFull := false }) s)
  | 0x004 => .rw (hasRole s who) (tstCmd s who v env.fuseFails)
  | 0x008 => .rw (mayTstArg s who) { s with tst.arg := bits v 0 24 }
  | 0x00C => .w1c (onBit v 31 (fun s => { s with tst.done := false }) s)
  | 0x018 => .rw (hasRole s who) { s with tst.resSel := bits v 0 8 }
  | 0x020 => .rw (hasRole s who) { s with tst.repSel := bits v 0 11 }
  | _ => .ro

/-- A write in the FAB block; a reserved bit set in FAB_PT_CMD or FAB_TAKEOVER makes it ignored (R626). -/
def writeFab (s : State) (who : Req) (o v : Nat) : RegWr :=
  if o < 0x8000 then
    match o % 0x1000 with
    | 0x000 => .rw (isInstaller s who) (settingPut s (.fabPtCfg (o / 0x1000)) v)
    | 0x004 => .rw (isInstaller s who) (if v / 4 = 0 then portCmd s (o / 0x1000) v else s)
    | _ => .ro
  else if o < 0x9000 then .rw (isInstaller s who) (settingPut s (.fabMap ((o - 0x8000) / 4)) v)
  else if o = 0x9000 then .rw (isInstaller s who) (settingPut s .fabId v)
  else if o = 0x9004 then .rw (isInstaller s who) (if v / 1024 = 0 then takeover s who v else s)
  else if o = 0x9008 then .w1c (onBit v 31 (fun s => { s with fab.takeDone := false }) s)
  else if 0x9100 ≤ o ∧ o < 0x9180 then .rw (isInstaller s who) (settingPut s (.fabCover ((o - 0x9100) / 4)) v)
  else .ro

/-- A write in the CPT block. -/
def writeCpt (s : State) (o v : Nat) : RegWr :=
  if o = 0 then .w1c (onBit v 7 (fun s => { s with cpt.refLost := false }) (onBit v 6 (fun s => { s with cpt.downSeen := false }) s))
  else .ro

/-- A write in the window of a core; one whose number no physical core carries ignores it (R615). FAULT_VALID clears FAULT
with it (R141, R474). -/
def writeCore (s : State) (n o v : Nat) : RegWr :=
  if (physOf s n).isNone then .ro
  else match o with
  | 0x600 => .w1c (onBit v 1 (fun s => modCore s n (fun c => { c with w4Nan := false })) s)
  | 0x610 => .w1c (onBit v 30 (fun s => modCore s n (fun c => { c with faultValid := false, fault := 0 })) s)
  | 0x620 => .w1c (onBit v 30 (fun s => modCore s n (fun c => { c with xFaultValid := false, xStatus := 0, xFault := 0 })) s)
  | _ => .ro

/-- A write of the register at an aligned offset (R600, R613). -/
def regWrite (s : State) (who : Req) (off v : Nat) (env : RegEnv) : RegWr :=
  let b := regBlock off
  if !b.vao && !partsUp s then .ro else
  match b with
  | .mod => writeMod s who (off % 0x10000) v
  | .pwr => writePwr s who (off % 0x10000) v
  | .lcs => writeLcs s who (off % 0x10000) v env
  | .sec => writeSec s who (off % 0x10000) v
  | .bell => writeBell s who (off % 0x10000) v
  | .tt => if off % 0x10000 < 0x1000 then writeTt s who (off % 0x1000 / 64) (off % 64) v else .ro
  | .rc => writeRc s who (off % 0x10000) v
  | .ptn => if off % 0x10000 < 0x4000 then writePtn s who (off % 0x4000 / 256) (off % 256) v else .ro
  | .ctx => writeCtx s who ((off - 0x080000) / 64) (off % 64) v
  | .vat => writeVat s who (off % 0x10000) v
  | .prs => writePrs s who (off % 0x10000 / 0x1000) (off % 0x1000) v
  | .brn => writeBrn s who (off % 0x10000) v
  | .int => writeInt s who (off % 0x10000) v env
  | .snp => writeSnp s who (off % 0x10000) v
  | .tst => writeTst s who (off % 0x10000) v env
  | .fab => writeFab s who (off % 0x10000) v
  | .cpt => writeCpt s (off % 0x10000) v
  | .mem | .unassigned => .ro
  | .core => writeCore s ((off - 0x200000) / 0x800) (off % 0x800) v

/-! ### One access (R10-R12, R482, R503) -/

/-- STATUS of an access (R482). -/
inductive RegStatus where
  | ok | error | role | notDone
deriving DecidableEq, Repr

/-- The code of a status (R482). -/
def RegStatus.code : RegStatus → Nat
  | .ok => 0 | .error => 1 | .role => 2 | .notDone => 3

/-- The requester writes nothing, whatever the register: the anonymous session, and the TAP in RETURNED (R482, R503, R572). -/
def readsOnly (s : State) (who : Req) : Bool :=
  match who with
  | .thread _ _ => false
  | _ => (roleOf s who).isNone

/-- A read by a requester: STATUS, VALUE and what it changes (R482). -/
def accessRead (s : State) (who : Req) (off : Nat) : State × RegStatus × Nat :=
  if off % 4 ≠ 0 ∨ 0x400000 ≤ off then (s, .error, 0)
  else if !mayRead s who off then (s, .role, 0)
  else (regTouch s off, .ok, regValue s off)

/-- A write by a requester (R482, R503): one outside its rights changes nothing; a W1C bit that hardware sets in the same cycle stays
set (R7). -/
def accessWrite (s : State) (who : Req) (off v : Nat) (env : RegEnv) : State × RegStatus :=
  if off % 4 ≠ 0 ∨ 0x400000 ≤ off then (s, .error)
  else if !mayRead s who off || readsOnly s who then (s, .role)
  else
    match regWrite s who off (v % 2 ^ 32) env with
    | .ro => (s, .ok)
    | .w1c s' =>
      match regWrite s who off (clearMask (v % 2 ^ 32) env.hwSet) env with
      | .w1c t => (t, .ok)
      | _ => (s', .ok)
    | .rw may s' => if may then (s', .ok) else (s, .role)

/-- REGISTER_WRITE (R6, R11): a write of `size` bytes at a register offset; one that is not 32 bits wide, or not aligned, is
answered with an error and changes nothing. -/
def execRegisterWrite (who : Req) (off size value : Nat) (env : RegEnv) (s : State) : Out :=
  .next (if size = 4 then (accessWrite s who off value env).1 else s)

/-! ### REG_REQ (R482, R502) -/

/-- The fields of an access of 8 bytes (R482). -/
def acWrite (a : Nat) : Bool := bitOf a 63
def acOffset (a : Nat) : Nat := bits a 32 22
def acValue (a : Nat) : Nat := bits a 0 32
def acReserved (a : Nat) : Bool := bits a 54 9 != 0

/-- The response entry of an access (R482): STATUS in bits [62:59], VALUE, the other bits as they came. -/
def acAnswer (a : Nat) (st : RegStatus) (v : Nat) : Nat := bitAt (acWrite a) 63 + st.code * 2 ^ 59 + acOffset a * 2 ^ 32 + v % 2 ^ 32

/-- One access and its response entry. -/
def oneAccess (s : State) (who : Req) (a : Nat) (env : RegEnv) : State × RegStatus × Nat :=
  if acWrite a then
    match accessWrite s who (acOffset a) (acValue a) env with
    | (s, st) => (s, st, acAnswer a st (acValue a))
  else
    match accessRead s who (acOffset a) with
    | (s, st, v) => (s, st, acAnswer a st v)

/-- The accesses of a request in payload order, up to the first that fails; those after it are NOT_DONE (R482). -/
def doAccesses (who : Req) (env : RegEnv) : List Nat → State → State × List Nat
  | [], s => (s, [])
  | a :: as, s =>
    match oneAccess s who a env with
    | (s, .ok, r) =>
      match doAccesses who env as s with
      | (s, rs) => (s, r :: rs)
    | (s, _, r) => (s, r :: as.map (fun b => acAnswer b .notDone (acValue b)))

/-- The accesses of a payload. -/
def accessesOf (bs : List Byte) : List Nat := (chunks 8 32 bs).map leNat

/-- The payload of a REG_REQ is 1-32 whole accesses whose reserved bits are 0 (R479, R482). -/
def regReqOk (bs : List Byte) : Bool :=
  bs.length % 8 == 0 && decide (0 < bs.length) && decide (bs.length ≤ 256) && (accessesOf bs).all (fun a => !acReserved a)

/-- The REG_RSP (R482). -/
def regRsp (s : State) (f : CptFrame) (rs : List Nat) : State :=
  cptSend s { ftype := ftRegRsp, tag := f.tag, session := f.session, payload := (rs.map (leBytes 8)).flatten }

/-- REG_REQ (R482, R502): each access of a SESSION that is not open is answered ROLE. -/
def execRegReq (f : CptFrame) (env : RegEnv) (s : State) : Out :=
  .next (cptTake s f ftRegReq true (fun s =>
    if !regReqOk f.payload then cptErrRes s
    else
      let as := accessesOf f.payload
      match frameWho s f with
      | none => regRsp s f (as.map (fun a => acAnswer a .role (acValue a)))
      | some who =>
        match doAccesses who env as s with
        | (s, rs) => regRsp s f rs))

/-! ### REG_ACCESS (R572) -/

/-- REG_ACCESS (R572): the 64 bits shifted in are one access, performed at Update-DR; the next Capture-DR loads its response. In a
life cycle that does not permit it the opcode decodes as BYPASS. -/
def execRegAccess (access : Nat) (env : RegEnv) (s : State) : Out :=
  .next (tapLoad s 0x80 (fun s =>
    let a := access % 2 ^ 64
    match (if acReserved a then (s, RegStatus.error, acAnswer a .error (acValue a)) else oneAccess s .tap a env) with
    | (s, _, r) => { s with tap.dr := r, tap.drive := false }))

end Sys2Proof.Machine
end

