-- ==== Sys2Proof/Machine/Access.lean ====
section
/-! DEFINITION. Memory accesses of a thread (spec/10_threads_and_memory.md R316, R318, R339, R343, R345, R346, R528): loads and stores
of integer, floating-point and vector registers, AMOs, LR and SC, and instruction fetch.
Readings and choices: log 13, 20, 79, 80, 81, 123. -/

namespace Sys2Proof.Machine

/-! ### One item (R318, R345) -/

/-- How an item of an access goes: it is done, or the access ends in the state given (a trap taken, or a wait). -/
abbrev ItemRes (α : Type) := Except State (State × α)

/-- The trap of an access. -/
def trapAt (s : State) (n t cause a : Nat) : State := takeTrap s n t cause (BitVec.ofNat 64 a)

/-- The register-space offset of a global address (R339, R340). -/
def regOf (s : State) (ga : Nat) : Option Nat := (localAddr s ga).bind regOffset

/-- A load waits while its range is the landing range of a run-ahead tile before its verdict (R308, R322). -/
def memWait (s : State) (n t : Nat) : State := modThr s n t (fun h => { h with state := .waitMem })

/-- A read of memory with a right; `fault` is the cause of an access fault, `ueFault` that of an uncorrectable word (R345, R528). -/
def itemRead (s : State) (n t : Nat) (r : Right) (fault ueFault ga len : Nat) : ItemRes (List Byte) :=
  let i := issuerOf s n t
  match badByte s i r ga len, itemPlace s (some n) ga len with
  | none, some p =>
    if heldOver s p len then .error (memWait s n t)
    else
      let x := readAs s i p len
      match x.ue with
      | none => .ok (x.st, x.bytes)
      | some a => .error (trapAt x.st n t ueFault (ga + (a - addrOf p)))
  | some b, _ => .error (trapAt s n t fault b)
  | none, none => .error (trapAt s n t fault ga)

/-- A load of an item (R318, R345, R346): from a register only in M-mode, 32 bits wide. -/
def itemLoad (s : State) (n t ga size : Nat) : ItemRes Nat :=
  if ga % size ≠ 0 then .error (trapAt s n t exLoadMisaligned ga)
  else match regOf s ga with
    | some off =>
      match (if size = 4 then accessRead s (.thread n t) off else (s, RegStatus.error, 0)) with
      | (s', .ok, v) => .ok (s', v)
      | _ => .error (trapAt s n t exLoadFault ga)
    | none =>
      match itemRead s n t .read exLoadFault exLoadFault ga size with
      | .ok (s, bs) => .ok (s, leNat bs)
      | .error s => .error s

/-- A store of an item (R213, R318, R345, R346): a register only in M-mode, 32 bits wide. -/
def itemStore (s : State) (n t ga size v : Nat) : Except State State :=
  if ga % size ≠ 0 then .error (trapAt s n t exStoreMisaligned ga)
  else match regOf s ga with
    | some off =>
      match (if size = 4 then accessWrite s (.thread n t) off v {} else (s, RegStatus.error)) with
      | (s', .ok) => .ok s'
      | _ => .error (trapAt s n t exStoreFault ga)
    | none => threadWrite s n t ga (leBytes size v)

/-! ### AMO, LR and SC (R316, R318, R343) -/

/-- The value that an AMO stores (extension A), at a width of `w` bits. -/
def amoValue (op : AmoOp) (w old x : Nat) : Nat :=
  match op with
  | .swap => x % 2 ^ w
  | .add => (old + x) % 2 ^ w
  | .xor => old ^^^ (x % 2 ^ w)
  | .and_ => old &&& (x % 2 ^ w)
  | .or_ => old ||| (x % 2 ^ w)
  | .min => if signed w old ≤ signed w x then old else x % 2 ^ w
  | .max => if signed w x ≤ signed w old then old else x % 2 ^ w
  | .minu => min old (x % 2 ^ w)
  | .maxu => max old (x % 2 ^ w)

/-- A value of `size` bytes extended to 64 bits. -/
def extend (size : Nat) (isSigned : Bool) (v : Nat) : Nat := if isSigned then unsign 64 (signed (8 * size) v) else v

/-- An AMO reads and writes its item: it needs both rights, and takes the AMO access fault, an uncorrectable word the load access
fault (R345, R528). Answers the old value. -/
def itemAmo (s : State) (n t : Nat) (op : AmoOp) (ga size x : Nat) : ItemRes Nat :=
  if ga % size ≠ 0 then .error (trapAt s n t exStoreMisaligned ga)
  else match storeFault s n t ga size with
    | some s' => .error s'
    | none =>
      match itemRead s n t .read exStoreFault exLoadFault ga size with
      | .error s => .error s
      | .ok (s, bs) =>
        let old := leNat bs
        match threadWrite s n t ga (leBytes size (amoValue op (8 * size) old x)) with
        | .ok s => .ok (s, old)
        | .error s => .error s

/-- The aligned line of 64 bytes of an item. -/
def lineOf (s : State) (n ga size : Nat) : Nat := ((itemPlace s (some n) ga size).map (fun p => addrOf p / 64)).getD 0

/-- LR (R318, R343): it reserves the aligned line. -/
def itemLr (s : State) (n t ga size : Nat) : ItemRes Nat :=
  if ga % size ≠ 0 then .error (trapAt s n t exLoadMisaligned ga)
  else match itemRead s n t .read exLoadFault exLoadFault ga size with
    | .error s => .error s
    | .ok (s, bs) => .ok ({ s with resv := tset 0 s.resv (16 * n + t) (lineOf s n ga size) }, leNat bs)

/-- SC (R318, R343): it stores while the thread's reservation of the line stands, and ends the reservation; the result is 0 on
success and 1 on failure. -/
def itemSc (s : State) (n t ga size x : Nat) : ItemRes Nat :=
  if ga % size ≠ 0 then .error (trapAt s n t exStoreMisaligned ga)
  else match storeFault s n t ga size with
    | some s' => .error s'
    | none =>
      let line := lineOf s n ga size
      if line ≠ 0 ∧ tget 0 s.resv (16 * n + t) = line then
        match threadWrite s n t ga (leBytes size x) with
        | .ok s => .ok (dropResv s n t, 0)
        | .error s => .error s
      else .ok (dropResv s n t, 1)

/-! ### Vector accesses (R316) -/

/-- Element `i` of a group of vector registers. -/
def vGet (h : Thr) (r size i : Nat) : Nat :=
  bits (tget 0 h.v ((r + i / perReg size) % 32)).toNat (i % perReg size * 8 * size) (8 * size)

/-- Writes element `i` of a group. -/
def vSet (h : Thr) (r size i x : Nat) : Thr :=
  let k := (r + i / perReg size) % 32
  let old := (tget 0 h.v k).toNat
  let lo := i % perReg size * 8 * size
  let new := old - bits old lo (8 * size) * 2 ^ lo + x % 2 ^ (8 * size) * 2 ^ lo
  { h with v := tset 0 h.v k (BitVec.ofNat 512 new) }

/-- The elements of a vector load in order: each with the element that `vstart` counts, the place from register vd on, the address; a
trap leaves its element in `vstart` and the earlier ones written. -/
def vLoad (n t vd size : Nat) : List (Nat × Nat × Nat) → State → Except State State
  | [], s => .ok s
  | (i, k, a) :: es, s =>
    match itemLoad s n t a size with
    | .ok (s, v) => vLoad n t vd size es (modThr s n t (fun h => vSet h vd size k v))
    | .error s => .error (modThr s n t (fun h => { h with vstart := i }))

/-- The elements of a vector store in order. -/
def vStore (n t vs size : Nat) : List (Nat × Nat × Nat) → State → Except State State
  | [], s => .ok s
  | (i, k, a) :: es, s =>
    match itemStore s n t a size (vGet (getThr s n t) vs size k) with
    | .ok s => vStore n t vs size es s
    | .error s => .error (modThr s n t (fun h => { h with vstart := i }))

/-- Elements whose place is their number. -/
def plainElems (es : List (Nat × Nat)) : List (Nat × Nat × Nat) := es.map (fun e => (e.1, e.1, e.2))

/-- The elements of the registers of a load that it does not write: those under an agnostic policy keep their value or become all
ones, which one is open. -/
def agnostic (s : State) (n t vd size : Nat) (es : List (Nat × Nat)) : State :=
  let h := getThr s n t
  let top := (maxNat (es.map Prod.fst) / perReg size + 1) * perReg size
  let open_ := (countFrom h.vstart (top - h.vstart)).filter (fun i =>
    !(es.map Prod.fst).contains i && bitOf h.vtype (if i < h.vl then 7 else 6))
  match es, open_ with
  | [], _ => s
  | _, [] => s
  | _, is =>
    let (r, s) := draw s is.length
    modThr s n t (fun h => (List.zip is r).foldl (fun h e => if bitOf e.2.toNat 0 then vSet h vd size e.1 (2 ^ (8 * size) - 1) else h) h)

/-! ### The command -/

/-- The widths of an access in bytes. -/
def sizeOk (ss : List Nat) (size : Nat) : Bool := ss.contains size

/-- The access has a form that the extensions have (R316). -/
def accOk : MemAcc → Bool
  | .load _ z _ _ => sizeOk [1, 2, 4, 8] z
  | .fload _ z _ => sizeOk [4, 8] z
  | .store _ z _ => sizeOk [1, 2, 4, 8] z
  | .amo _ _ z _ _ | .lr _ z _ | .sc _ z _ _ => sizeOk [4, 8] z
  | .fetch _ z => sizeOk [2, 4] z
  | .vload _ z _ | .vstore _ z _ => sizeOk [1, 2, 4, 8] z
  | .run => true

/-- A result in an integer register, as the instruction retires. -/
def loaded (s : State) (n t len rd v : Nat) : State := setRd (instrDone s n t len) n t rd v

/-- The access of a thread that may issue; an instruction that retires advances by its length (R318, R345). -/
def memAccess (s : State) (n t len : Nat) (a : MemAcc) : State :=
  match a with
  | .load ga z sg rd => match itemLoad s n t ga z with
    | .ok (s, v) => loaded s n t len rd (extend z sg v)
    | .error s => s
  | .fload ga z rd => match itemLoad s n t ga z with
    | .ok (s, v) =>
      let v := if z = 4 then 0xFFFFFFFF00000000 + v else v
      modThr (instrDone s n t len) n t (fun h => { h with f := tset 0 h.f (rd % 32) (BitVec.ofNat 64 v) })
    | .error s => s
  | .store ga z v => match itemStore s n t ga z v with
    | .ok _ => outcome (itemStore (instrDone s n t len) n t ga z v)
    | .error s => s
  | .amo op ga z x rd => match itemAmo s n t op ga z x with
    | .ok (s, v) => loaded s n t len rd (extend z true v)
    | .error s => s
  | .lr ga z rd => match itemLr s n t ga z with
    | .ok (s, v) => loaded s n t len rd (extend z true v)
    | .error s => s
  | .sc ga z x rd => match itemSc s n t ga z x with
    | .ok (s, v) => loaded s n t len rd v
    | .error s => s
  | .fetch ga z =>
    if ga % 2 ≠ 0 then trapAt s n t exFetchMisaligned ga
    else match itemRead s n t .exec exFetchFault exFetchFault ga z with
      | .ok (s, _) => s
      | .error s => s
  | .vload vd z es => match vLoad n t vd z (plainElems es) s with
    | .ok s => modThr (instrDone (agnostic s n t vd z es) n t len) n t (fun h => { h with vstart := 0 })
    | .error s => s
  | .vstore vs z es => match vStore n t vs z (plainElems es) s with
    | .ok s => modThr (instrDone s n t len) n t (fun h => { h with vstart := 0 })
    | .error s => s
  | .run => s

end Sys2Proof.Machine
end

