-- ==== Sys2Proof/Machine/RvInt.lean ====
section
/-! DEFINITION. The integer instructions of a thread (spec/10_threads_and_memory.md R316): the fields of an instruction word, the
arithmetic of RV64I and M, and the 16-bit forms of C as the 32-bit words they stand for. The manual names these extensions and
leaves their text to RISC-V.
Readings and choices: log 13. -/

namespace Sys2Proof.Machine

/-! ### Fields of a 32-bit instruction (R325) -/

def rvOp (w : Nat) : Nat := bits w 0 7
def rvRd (w : Nat) : Nat := bits w 7 5
def rvF3 (w : Nat) : Nat := bits w 12 3
def rvRs1 (w : Nat) : Nat := bits w 15 5
def rvRs2 (w : Nat) : Nat := bits w 20 5
def rvF7 (w : Nat) : Nat := bits w 25 7

/-- A field of `n` bits, sign-extended to 64. -/
def sext (n x : Nat) : DWord := BitVec.ofInt 64 (signed n x)

/-- The immediates of the I, S, B, U and J forms. -/
def immI (w : Nat) : DWord := sext 12 (bits w 20 12)
def immS (w : Nat) : DWord := sext 12 (bits w 25 7 * 32 + bits w 7 5)
def immB (w : Nat) : DWord := sext 13 (bits w 31 1 * 4096 + bits w 7 1 * 2048 + bits w 25 6 * 32 + bits w 8 4 * 2)
def immU (w : Nat) : DWord := sext 32 (bits w 12 20 * 4096)
def immJ (w : Nat) : DWord := sext 21 (bits w 31 1 * 2 ^ 20 + bits w 12 8 * 4096 + bits w 20 1 * 2048 + bits w 21 10 * 2)

/-! ### Arithmetic -/

/-- The low word of a result, sign-extended. -/
def sext32 (x : BitVec 32) : DWord := x.signExtend 64

/-- The operations of OP and OP-IMM; `alt` picks SUB and the arithmetic shift. -/
def aluOp (f3 : Nat) (alt : Bool) (a b : DWord) : DWord :=
  match f3 with
  | 0 => if alt then a - b else a + b
  | 1 => a <<< (b.toNat % 64)
  | 2 => if a.slt b then 1 else 0
  | 3 => if a.ult b then 1 else 0
  | 4 => a ^^^ b
  | 5 => if alt then a.sshiftRight (b.toNat % 64) else a >>> (b.toNat % 64)
  | 6 => a ||| b
  | _ => a &&& b

/-- The operations on words of OP-32 and OP-IMM-32; none where the code is not assigned. -/
def aluOpW (f3 : Nat) (alt : Bool) (a b : DWord) : Option DWord :=
  let x := a.truncate 32
  let y := b.truncate 32
  match f3 with
  | 0 => some (sext32 (if alt then x - y else x + y))
  | 1 => some (sext32 (x <<< (b.toNat % 32)))
  | 5 => some (sext32 (if alt then x.sshiftRight (b.toNat % 32) else x >>> (b.toNat % 32)))
  | _ => none

/-- Extension M: division by zero and overflow have its stated results. -/
def mulOp (f3 : Nat) (a b : DWord) : DWord :=
  match f3 with
  | 0 => a * b
  | 1 => BitVec.ofInt 64 (a.toInt * b.toInt / 2 ^ 64)
  | 2 => BitVec.ofInt 64 (a.toInt * (b.toNat : Int) / 2 ^ 64)
  | 3 => BitVec.ofNat 64 (a.toNat * b.toNat / 2 ^ 64)
  | 4 => if b = 0 then -1 else a.sdiv b
  | 5 => if b = 0 then -1 else a / b
  | 6 => if b = 0 then a else a.srem b
  | _ => if b = 0 then a else a % b

/-- Extension M on words. -/
def mulOpW (f3 : Nat) (a b : DWord) : Option DWord :=
  let x := a.truncate 32
  let y := b.truncate 32
  match f3 with
  | 0 => some (sext32 (x * y))
  | 4 => some (sext32 (if y = 0 then -1 else x.sdiv y))
  | 5 => some (sext32 (if y = 0 then -1 else x / y))
  | 6 => some (sext32 (if y = 0 then x else x.srem y))
  | 7 => some (sext32 (if y = 0 then x else x % y))
  | _ => none

/-- Whether a branch is taken; none where funct3 is not assigned. -/
def branchTaken (f3 : Nat) (a b : DWord) : Option Bool :=
  match f3 with
  | 0 => some (a == b)
  | 1 => some (a != b)
  | 4 => some (a.slt b)
  | 5 => some (!a.slt b)
  | 6 => some (a.ult b)
  | 7 => some (!a.ult b)
  | _ => none

/-- OP: base operations and M. -/
def opResult (f3 f7 : Nat) (a b : DWord) : Option DWord :=
  match f7 with
  | 0 => some (aluOp f3 false a b)
  | 1 => some (mulOp f3 a b)
  | 0x20 => if f3 = 0 ∨ f3 = 5 then some (aluOp f3 true a b) else none
  | _ => none

/-- OP-32. -/
def opResultW (f3 f7 : Nat) (a b : DWord) : Option DWord :=
  match f7 with
  | 0 => aluOpW f3 false a b
  | 1 => mulOpW f3 a b
  | 0x20 => if f3 = 0 ∨ f3 = 5 then aluOpW f3 true a b else none
  | _ => none

/-- OP-IMM: a shift takes six bits of the immediate. -/
def opImmResult (w : Nat) (a : DWord) : Option DWord :=
  let f3 := rvF3 w
  let sh : DWord := BitVec.ofNat 64 (bits w 20 6)
  if f3 = 1 then (if bits w 26 6 = 0 then some (aluOp 1 false a sh) else none)
  else if f3 = 5 then
    (if bits w 26 6 = 0 then some (aluOp 5 false a sh) else if bits w 26 6 = 0x10 then some (aluOp 5 true a sh) else none)
  else some (aluOp f3 false a (immI w))

/-- OP-IMM-32. -/
def opImmResultW (w : Nat) (a : DWord) : Option DWord :=
  let f3 := rvF3 w
  let sh : DWord := BitVec.ofNat 64 (rvRs2 w)
  if f3 = 0 then aluOpW 0 false a (immI w)
  else if f3 = 1 ∧ rvF7 w = 0 then aluOpW 1 false a sh
  else if f3 = 5 ∧ rvF7 w = 0 then aluOpW 5 false a sh
  else if f3 = 5 ∧ rvF7 w = 0x20 then aluOpW 5 true a sh
  else none

/-! ### The 16-bit forms of C -/

/-- The 32-bit words of the R, I, S, B, U and J forms. -/
def encR (op f3 f7 rd rs1 rs2 : Nat) : Nat := op + 2 ^ 7 * rd + 2 ^ 12 * f3 + 2 ^ 15 * rs1 + 2 ^ 20 * rs2 + 2 ^ 25 * f7
def encI (op f3 rd rs1 : Nat) (imm : Int) : Nat := op + 2 ^ 7 * rd + 2 ^ 12 * f3 + 2 ^ 15 * rs1 + 2 ^ 20 * unsign 12 imm
def encS (op f3 rs1 rs2 imm : Nat) : Nat := encR op f3 (imm / 32 % 128) (imm % 32) rs1 rs2
def encB (f3 rs1 rs2 : Nat) (imm : Int) : Nat :=
  let u := unsign 13 imm
  encR 0x63 f3 (bits u 12 1 * 64 + bits u 5 6) (bits u 1 4 * 2 + bits u 11 1) rs1 rs2
def encU (op rd : Nat) (imm : Int) : Nat := op + 2 ^ 7 * rd + 2 ^ 12 * unsign 20 imm
def encJ (rd : Nat) (imm : Int) : Nat :=
  let u := unsign 21 imm
  0x6F + 2 ^ 7 * rd + 2 ^ 12 * (bits u 12 8) + 2 ^ 20 * (bits u 11 1) + 2 ^ 21 * (bits u 1 10) + 2 ^ 31 * (bits u 20 1)

/-- The registers x8-x15 that a field of three bits names. -/
def cReg (c lo : Nat) : Nat := 8 + bits c lo 3
/-- The signed immediate of six bits in bits 12 and 6-2. -/
def cImm6 (c : Nat) : Int := signed 6 (bits c 12 1 * 32 + bits c 2 5)
/-- The shift amount in the same bits. -/
def cShamt (c : Nat) : Nat := bits c 12 1 * 32 + bits c 2 5
/-- Offsets of loads and stores of words and double words by register, and by the stack pointer. -/
def cOffW (c : Nat) : Nat := bits c 10 3 * 8 + bits c 6 1 * 4 + bits c 5 1 * 64
def cOffD (c : Nat) : Nat := bits c 10 3 * 8 + bits c 5 2 * 64
def cLwsp (c : Nat) : Nat := bits c 12 1 * 32 + bits c 4 3 * 4 + bits c 2 2 * 64
def cLdsp (c : Nat) : Nat := bits c 12 1 * 32 + bits c 5 2 * 8 + bits c 2 3 * 64
def cSwsp (c : Nat) : Nat := bits c 9 4 * 4 + bits c 7 2 * 64
def cSdsp (c : Nat) : Nat := bits c 10 3 * 8 + bits c 7 3 * 64
/-- The offsets of C.J and of the branches. -/
def cJoff (c : Nat) : Int :=
  signed 12 (bits c 12 1 * 2048 + bits c 11 1 * 16 + bits c 9 2 * 256 + bits c 8 1 * 1024 + bits c 7 1 * 64 + bits c 6 1 * 128
    + bits c 3 3 * 2 + bits c 2 1 * 32)
def cBoff (c : Nat) : Int :=
  signed 9 (bits c 12 1 * 256 + bits c 10 2 * 8 + bits c 5 2 * 64 + bits c 3 2 * 2 + bits c 2 1 * 32)
/-- The immediates of C.ADDI4SPN and C.ADDI16SP. -/
def cImm4spn (c : Nat) : Nat := bits c 11 2 * 16 + bits c 7 4 * 64 + bits c 6 1 * 4 + bits c 5 1 * 8
def cImm16sp (c : Nat) : Int :=
  signed 10 (bits c 12 1 * 512 + bits c 6 1 * 16 + bits c 5 1 * 64 + bits c 3 2 * 128 + bits c 2 1 * 32)

/-- Quadrant 0. -/
def expandC0 (c : Nat) : Option Nat :=
  match bits c 13 3 with
  | 0 => if cImm4spn c = 0 then none else some (encI 0x13 0 (cReg c 2) 2 (cImm4spn c))
  | 1 => some (encI 0x07 3 (cReg c 2) (cReg c 7) (cOffD c))
  | 2 => some (encI 0x03 2 (cReg c 2) (cReg c 7) (cOffW c))
  | 3 => some (encI 0x03 3 (cReg c 2) (cReg c 7) (cOffD c))
  | 5 => some (encS 0x27 3 (cReg c 7) (cReg c 2) (cOffD c))
  | 6 => some (encS 0x23 2 (cReg c 7) (cReg c 2) (cOffW c))
  | 7 => some (encS 0x23 3 (cReg c 7) (cReg c 2) (cOffD c))
  | _ => none

/-- The register arithmetic of quadrant 1. -/
def expandCArith (c : Nat) : Option Nat :=
  let r := cReg c 7
  match bits c 10 2 with
  | 0 => some (encI 0x13 5 r r (cShamt c))
  | 1 => some (encI 0x13 5 r r (cShamt c + 1024))
  | 2 => some (encI 0x13 7 r r (cImm6 c))
  | _ =>
    match bits c 12 1, bits c 5 2 with
    | 0, 0 => some (encR 0x33 0 0x20 r r (cReg c 2))
    | 0, 1 => some (encR 0x33 4 0 r r (cReg c 2))
    | 0, 2 => some (encR 0x33 6 0 r r (cReg c 2))
    | 0, _ => some (encR 0x33 7 0 r r (cReg c 2))
    | _, 0 => some (encR 0x3B 0 0x20 r r (cReg c 2))
    | _, 1 => some (encR 0x3B 0 0 r r (cReg c 2))
    | _, _ => none

/-- Quadrant 1. -/
def expandC1 (c : Nat) : Option Nat :=
  let rd := rvRd c
  match bits c 13 3 with
  | 0 => some (encI 0x13 0 rd rd (cImm6 c))
  | 1 => if rd = 0 then none else some (encI 0x1B 0 rd rd (cImm6 c))
  | 2 => some (encI 0x13 0 rd 0 (cImm6 c))
  | 3 =>
    if rd = 2 then (if cImm16sp c = 0 then none else some (encI 0x13 0 2 2 (cImm16sp c)))
    else if cImm6 c = 0 then none else some (encU 0x37 rd (cImm6 c))
  | 4 => expandCArith c
  | 5 => some (encJ 0 (cJoff c))
  | 6 => some (encB 0 (cReg c 7) 0 (cBoff c))
  | _ => some (encB 1 (cReg c 7) 0 (cBoff c))

/-- Quadrant 2. -/
def expandC2 (c : Nat) : Option Nat :=
  let rd := rvRd c
  let rs2 := bits c 2 5
  match bits c 13 3 with
  | 0 => some (encI 0x13 1 rd rd (cShamt c))
  | 1 => some (encI 0x07 3 rd 2 (cLdsp c))
  | 2 => if rd = 0 then none else some (encI 0x03 2 rd 2 (cLwsp c))
  | 3 => if rd = 0 then none else some (encI 0x03 3 rd 2 (cLdsp c))
  | 4 =>
    if bits c 12 1 = 0 then
      (if rs2 = 0 then (if rd = 0 then none else some (encI 0x67 0 0 rd 0)) else some (encR 0x33 0 0 rd 0 rs2))
    else if rs2 = 0 then (if rd = 0 then some (encI 0x73 0 0 0 1) else some (encI 0x67 0 1 rd 0))
    else some (encR 0x33 0 0 rd rd rs2)
  | 5 => some (encS 0x27 3 2 rs2 (cSdsp c))
  | 6 => some (encS 0x23 2 2 rs2 (cSwsp c))
  | _ => some (encS 0x23 3 2 rs2 (cSdsp c))

/-- The 32-bit word that a 16-bit instruction stands for; none where it is reserved. -/
def expandC (c : Nat) : Option Nat :=
  match bits c 0 2 with
  | 0 => expandC0 c
  | 1 => expandC1 c
  | _ => expandC2 c

end Sys2Proof.Machine
end

