-- ==== Sys2Proof/Machine/RvFp.lean ====
section
/-! DEFINITION. IEEE 754 arithmetic of a thread in binary32 and binary64 (spec/10_threads_and_memory.md R316; the manual names the
extensions F and D and leaves their text to RISC-V): exact values, rounded once in the mode given, with the flags raised.
Readings and choices: log 13. -/

namespace Sys2Proof.Machine

/-! ### Flags and rounding modes -/

/-- The flags of `fflags`. -/
def flNX : Nat := 1
def flUF : Nat := 2
def flOF : Nat := 4
def flDZ : Nat := 8
def flNV : Nat := 16

/-- A result: a code, and the flags that its operation raises. -/
abbrev FpRes := Nat × Nat

/-- Rounding modes by `frm`: 0 nearest even, 1 toward zero, 2 down, 3 up, 4 nearest away; 5 is round-to-odd. -/
def roundsUp (rm : Nat) (neg odd : Bool) (r b : Nat) : Bool :=
  match rm with
  | 0 => decide (b < 2 * r) || (2 * r == b && odd)
  | 2 => neg && r != 0
  | 3 => !neg && r != 0
  | 4 => decide (b ≤ 2 * r)
  | 5 => r != 0 && !odd
  | _ => false

/-- `num / den × 2^e` as an integer in the mode, and whether it is inexact. -/
def scaledTo (rm : Nat) (neg : Bool) (num den : Nat) (e : Int) : Nat × Bool :=
  let n := if 0 ≤ e then num * 2 ^ e.toNat else num
  let d := if 0 ≤ e then den else den * 2 ^ (-e).toNat
  (n / d + b2n (roundsUp rm neg (n / d % 2 == 1) (n % d) d), n % d != 0)

/-- An overflow goes to the infinity or to the largest finite value. -/
def overflowsToInf (rm : Nat) (neg : Bool) : Bool :=
  match rm with
  | 0 | 4 => true
  | 2 => neg
  | 3 => !neg
  | _ => false

/-- `± num / den × 2^e` rounded once; tininess is judged after rounding. -/
def fpRound (f : Fmt) (rm : Nat) (neg : Bool) (num den : Nat) (e : Int) : FpRes :=
  let sg := f.signCode neg
  if num = 0 then (sg, 0)
  else
    let qu := floorLog num den + e - (f.frac : Int)
    let q := max qu f.qmin
    let (n, inexact) := scaledTo rm neg num den (e - q)
    let code := ((q - f.qmin).toNat <<< f.frac) + n
    if f.infCode ≤ code then (sg + (if overflowsToInf rm neg then f.infCode else f.maxCode), flOF + flNX)
    else
      let full := (scaledTo rm neg num den (e - qu)).1
      let tiny := decide (qu < f.qmin) && !(qu + 1 == f.qmin && full == 2 ^ (f.frac + 1))
      (sg + code, b2n inexact * (flNX + b2n tiny * flUF))

/-- An exact value rounded. -/
def fpOfNum (f : Fmt) (rm : Nat) : Num → FpRes
  | .nan => (f.nanCode, 0)
  | .inf s => (f.signCode s + f.infCode, 0)
  | .fin s m e => fpRound f rm s m 1 e

/-! ### Codes -/

/-- A signalling NaN. -/
def isSnan (f : Fmt) (c : Nat) : Bool := (f.decode c).isNan && !bitOf c (f.frac - 1)

/-- NV of operands that are signalling. -/
def snanNV (f : Fmt) (cs : List Nat) : Nat := if cs.any (isSnan f) then flNV else 0

/-- The sign bit of a code. -/
def fpSign (f : Fmt) (c : Nat) : Bool := bitOf c (f.ebits + f.frac)

/-- Width of a format in bits. -/
def Fmt.width (f : Fmt) : Nat := 1 + f.ebits + f.frac

/-- An exact sum, whose zero has the sign that IEEE 754 gives it. -/
def fpSum (rm : Nat) (x y : Num) : Num :=
  match Num.add x y with
  | .fin _ 0 e => .fin (if x.isZero && y.isZero && x.isNeg == y.isNeg then x.isNeg else rm == 2) 0 e
  | z => z

/-- A result that is NaN of operands none of which is. -/
def invalidOf (z : Num) (xs : List Num) : Nat := if z.isNan && !xs.any Num.isNan then flNV else 0

/-! ### Operations -/

def fpAdd (f : Fmt) (rm a b : Nat) : FpRes :=
  let x := f.decode a
  let y := f.decode b
  let z := fpSum rm x y
  let r := fpOfNum f rm z
  (r.1, r.2 ||| snanNV f [a, b] ||| invalidOf z [x, y])

/-- A code with its sign turned. -/
def fpNegate (f : Fmt) (c : Nat) : Nat := c ^^^ 2 ^ (f.ebits + f.frac)

def fpSub (f : Fmt) (rm a b : Nat) : FpRes :=
  let r := fpAdd f rm a (fpNegate f b)
  (r.1, r.2)

def fpMul (f : Fmt) (rm a b : Nat) : FpRes :=
  let x := f.decode a
  let y := f.decode b
  let z := Num.mul x y
  let r := fpOfNum f rm z
  (r.1, r.2 ||| snanNV f [a, b] ||| invalidOf z [x, y])

/-- a × b + c with one rounding; infinity times zero is invalid also beside a NaN. -/
def fpFma (f : Fmt) (rm a b c : Nat) : FpRes :=
  let x := f.decode a
  let y := f.decode b
  let w := f.decode c
  let p := Num.mul x y
  let z := fpSum rm p w
  let r := fpOfNum f rm z
  (r.1, r.2 ||| snanNV f [a, b, c] ||| invalidOf p [x, y] ||| invalidOf z [p, w])

def fpDiv (f : Fmt) (rm a b : Nat) : FpRes :=
  let x := f.decode a
  let y := f.decode b
  let neg := x.isNeg != y.isNeg
  match x, y with
  | .nan, _ | _, .nan => (f.nanCode, snanNV f [a, b])
  | .inf _, .inf _ => (f.nanCode, flNV)
  | .inf _, _ => (f.signCode neg + f.infCode, 0)
  | _, .inf _ => (f.signCode neg, 0)
  | .fin _ m e, .fin _ n d =>
    if n = 0 then (if m = 0 then (f.nanCode, flNV) else (f.signCode neg + f.infCode, flDZ)) else fpRound f rm neg m n (e - d)

def fpSqrt (f : Fmt) (rm a : Nat) : FpRes :=
  match f.decode a with
  | .nan => (f.nanCode, snanNV f [a])
  | .inf s => if s then (f.nanCode, flNV) else (f.infCode, 0)
  | .fin s m e =>
    if m = 0 then (f.signCode s, 0)
    else if s then (f.nanCode, flNV)
    else
      let k := 2 * (f.frac + 4)
      let odd : Nat := (e % 2).toNat
      let x := m * 2 ^ (odd + k)
      let r := isqrt x
      fpRound f rm false (2 * r + b2n (r * r != x)) 1 ((e - odd - k) / 2 - 1)

/-- Sign injection: 0 the sign of b, 1 its opposite, 2 the exclusive-or. -/
def fpSgnj (f : Fmt) (k a b : Nat) : Nat :=
  let s := fpSign f b
  a % 2 ^ (f.ebits + f.frac) + f.signCode (match k with | 0 => s | 1 => !s | _ => s != fpSign f a)

/-- Minimum and maximum: −0 lies below +0, and one NaN gives the other operand. -/
def fpMinMax (f : Fmt) (isMax : Bool) (a b : Nat) : FpRes :=
  let x := f.decode a
  let y := f.decode b
  let below := Num.lt x y || (x.isZero && y.isZero && fpSign f a && !fpSign f b)
  let c := if x.isNan && y.isNan then f.nanCode else if x.isNan then b else if y.isNan then a
    else if below != isMax then a else b
  (c, snanNV f [a, b])

/-- Comparisons: 2 equal, 1 less, 0 less or equal; the ordered ones are invalid with any NaN. -/
def fpCmp (f : Fmt) (k a b : Nat) : FpRes :=
  let x := f.decode a
  let y := f.decode b
  match k with
  | 2 => (b2n (Num.eqv x y), snanNV f [a, b])
  | 1 => (b2n (Num.lt x y), if x.isNan || y.isNan then flNV else 0)
  | _ => (b2n (Num.le x y), if x.isNan || y.isNan then flNV else 0)

/-- The class of a code, one bit of ten. -/
def fpClass (f : Fmt) (c : Nat) : Nat :=
  let s := fpSign f c
  let e := bits c f.frac f.ebits
  match f.decode c with
  | .nan => if isSnan f c then 2 ^ 8 else 2 ^ 9
  | .inf _ => if s then 1 else 2 ^ 7
  | .fin _ m _ => if m = 0 then (if s then 2 ^ 3 else 2 ^ 4)
    else if e = 0 then (if s then 2 ^ 2 else 2 ^ 5) else (if s then 2 else 2 ^ 6)

/-- A value as an integer of `w` bits, signed or not: out of range it is invalid and saturates. -/
def fpToInt (f : Fmt) (rm w : Nat) (sg : Bool) (c : Nat) : FpRes :=
  let lo : Int := if sg then -(2 ^ (w - 1)) else 0
  let hi : Int := if sg then 2 ^ (w - 1) - 1 else 2 ^ w - 1
  match f.decode c with
  | .nan => (unsign w hi, flNV)
  | .inf s => (unsign w (if s then lo else hi), flNV)
  | .fin s m e =>
    let (n, inexact) := scaledTo rm s m 1 e
    let v : Int := if s then -(n : Int) else n
    if v < lo then (unsign w lo, flNV) else if hi < v then (unsign w hi, flNV) else (unsign w v, b2n inexact * flNX)

/-- An integer of `w` bits as a value. -/
def fpOfInt (f : Fmt) (rm w : Nat) (sg : Bool) (x : Nat) : FpRes :=
  let v : Int := if sg then signed w x else x % 2 ^ w
  fpOfNum f rm (Num.ofInt v 0)

/-- A code of one format in another. -/
def fpConv (f g : Fmt) (rm c : Nat) : FpRes :=
  let r := fpOfNum g rm (f.decode c)
  (r.1, r.2 ||| snanNV f [c])

/-! ### Scalar registers -/

/-- A binary32 in a register, which must be boxed in ones. -/
def unbox (x : DWord) : Nat := if x.toNat / 2 ^ 32 = 0xFFFFFFFF then x.toNat % 2 ^ 32 else bin32.nanCode

/-- Register `r` as a code of the format. -/
def fReg (h : Thr) (f : Fmt) (r : Nat) : Nat := if f.ebits = 8 then unbox (tget 0 h.f r) else (tget 0 h.f r).toNat

/-- A code as a register holds it. -/
def boxed (f : Fmt) (c : Nat) : DWord := BitVec.ofNat 64 (if f.ebits = 8 then 0xFFFFFFFF00000000 + c % 2 ^ 32 else c)

/-- Flags raised. -/
def raiseFlags (h : Thr) (fl : Nat) : Thr := { h with fcsr := h.fcsr ||| fl }

/-- A result in a floating-point register, one in an integer register. -/
def fPut (h : Thr) (rd : Nat) (f : Fmt) (r : FpRes) : Thr :=
  raiseFlags { h with f := tset 0 h.f rd (boxed f r.1) } r.2
def xPut (h : Thr) (rd : Nat) (v : DWord) (fl : Nat) : Thr := raiseFlags (setX h rd v) fl

/-- The rounding mode of an instruction: its field, or `frm`; none where it is reserved. -/
def rmOf (h : Thr) (rm : Nat) : Option Nat :=
  let m := if rm = 7 then bits h.fcsr 5 3 else rm
  if m ≤ 4 then some m else none

/-- The format that a field of two bits names. -/
def fmtOf : Nat → Option Fmt
  | 0 => some bin32
  | 1 => some bin64
  | _ => none

/-- The fused multiply-adds; `op` is the opcode. -/
def fmaExec (h : Thr) (w : Nat) : Option Thr :=
  match fmtOf (bits w 25 2), rmOf h (rvF3 w) with
  | some f, some rm =>
    let a := fReg h f (rvRs1 w)
    let b := fReg h f (rvRs2 w)
    let c := fReg h f (bits w 27 5)
    let nc := fpNegate f c
    let na := fpNegate f a
    let r := match rvOp w with
      | 0x43 => fpFma f rm a b c
      | 0x47 => fpFma f rm a b nc
      | 0x4B => fpFma f rm na b c
      | _ => fpFma f rm na b nc
    some (fPut h (rvRd w) f r)
  | _, _ => none

/-- Width and sign of the integer type that rs2 names. -/
def intOf : Nat → Option (Nat × Bool)
  | 0 => some (32, true) | 1 => some (32, false) | 2 => some (64, true) | 3 => some (64, false) | _ => none

/-- OP-FP; none where the code is not assigned. -/
def fpExec (h : Thr) (w : Nat) : Option Thr :=
  match fmtOf (bits w 25 2) with
  | none => none
  | some f =>
    let rd := rvRd w
    let f3 := rvF3 w
    let rs2 := rvRs2 w
    let a := fReg h f (rvRs1 w)
    let b := fReg h f rs2
    let x := getX h (rvRs1 w)
    let rounded (g : Nat → Thr) : Option Thr := (rmOf h f3).map g
    match bits w 27 5 with
    | 0x00 => rounded (fun rm => fPut h rd f (fpAdd f rm a b))
    | 0x01 => rounded (fun rm => fPut h rd f (fpSub f rm a b))
    | 0x02 => rounded (fun rm => fPut h rd f (fpMul f rm a b))
    | 0x03 => rounded (fun rm => fPut h rd f (fpDiv f rm a b))
    | 0x0B => if rs2 = 0 then rounded (fun rm => fPut h rd f (fpSqrt f rm a)) else none
    | 0x04 => if f3 ≤ 2 then some (fPut h rd f (fpSgnj f f3 a b, 0)) else none
    | 0x05 => if f3 ≤ 1 then some (fPut h rd f (fpMinMax f (f3 == 1) a b)) else none
    | 0x08 =>
      match fmtOf rs2 with
      | some g => if g = f then none else rounded (fun rm => fPut h rd f (fpConv g f rm (fReg h g (rvRs1 w))))
      | none => none
    | 0x14 => if f3 ≤ 2 then (let r := fpCmp f f3 a b; some (xPut h rd (BitVec.ofNat 64 r.1) r.2)) else none
    | 0x18 =>
      match intOf rs2 with
      | some (n, sg) => rounded (fun rm => let r := fpToInt f rm n sg a; xPut h rd (sext n r.1) r.2)
      | none => none
    | 0x1A =>
      match intOf rs2 with
      | some (n, sg) => rounded (fun rm => fPut h rd f (fpOfInt f rm n sg x.toNat))
      | none => none
    | 0x1C =>
      if rs2 ≠ 0 then none
      else if f3 = 0 then some (setX h rd (sext f.width ((tget 0 h.f (rvRs1 w)).toNat % 2 ^ f.width)))
      else if f3 = 1 then some (setX h rd (BitVec.ofNat 64 (fpClass f a)))
      else none
    | 0x1E => if rs2 = 0 ∧ f3 = 0 then some { h with f := tset 0 h.f rd (boxed f (x.toNat % 2 ^ f.width)) } else none
    | _ => none

end Sys2Proof.Machine
end

