-- ==== Sys2Proof/Machine/RvVec.lean ====
section
/-! DEFINITION. The vector instructions of a thread that touch no memory (spec/10_threads_and_memory.md R316, R317; the manual names
the vector extension 1.0 and leaves its text to RISC-V): VLEN 512, ELEN 64, floating point at SEW 32 and 64.
Readings and choices: log 13. -/

namespace Sys2Proof.Machine

/-! ### Configuration: vsetvli, vsetivli, vsetvl -/

/-- Elements of the largest vector of a `vtype` (SEW and eight times LMUL). -/
def vlMax (sew lm : Nat) : Nat := 64 * lm / sew

/-- A `vtype` that the machine supports: its reserved bits 0, SEW at most ELEN, also under a fractional LMUL. -/
def vtypeOk (v : Nat) : Bool :=
  match vtypeOf { vtype := v } with
  | some (sew, lm) => decide (v < 256) && decide (sew ≤ 8 * lm)
  | none => false

/-- The vector length for an application vector length; between VLMAX and twice it, which length is open. -/
def setVl (avl mx : Nat) : Nat :=
  if avl ≤ mx then avl
  else if 2 * mx ≤ avl then mx
  else (avl + 1) / 2 + Config.rvSetVl avl mx % (mx - (avl + 1) / 2 + 1)

/-- Sets `vtype` and `vl`; an unsupported type sets vill. -/
def vConfig (h : Thr) (rd vt : Nat) (avl : Option Nat) : Thr :=
  let h' : Thr :=
    match vtypeOf { vtype := vt } with
    | some (sew, lm) =>
      if vtypeOk vt then { h with vtype := vt, vl := setVl (avl.getD h.vl) (vlMax sew lm) } else { h with vtype := 2 ^ 63, vl := 0 }
    | none => { h with vtype := 2 ^ 63, vl := 0 }
  setX { h' with vstart := 0 } rd (BitVec.ofNat 64 h'.vl)

/-- The configuration instructions. -/
def vsetExec (h : Thr) (w : Nat) : Option Thr :=
  let rd := rvRd w
  let fromX (r : Nat) : Option Nat := if r ≠ 0 then some (getX h r).toNat else if rd ≠ 0 then some (2 ^ 64 - 1) else none
  if bits w 31 1 = 0 then some (vConfig h rd (bits w 20 11) (fromX (rvRs1 w)))
  else if bits w 30 2 = 3 then some (vConfig h rd (bits w 20 10) (some (rvRs1 w)))
  else if rvF7 w = 0x40 then some (vConfig h rd (getX h (rvRs2 w)).toNat (fromX (rvRs1 w)))
  else none

/-! ### Elements, masks and policies -/

/-- The mask lets element `i` through. -/
def vActive (h : Thr) (vm : Bool) (i : Nat) : Bool := vm || bitOf (tget 0 h.v 0).toNat i

/-- What an element becomes that is not computed: under an agnostic policy it keeps its value or becomes all ones, which is open. -/
def vKeep (agn : Bool) (rnd : List Byte) (i w old : Nat) : Nat :=
  if agn && bitOf (getAt 0 rnd i).toNat 0 then 2 ^ w - 1 else old

/-- Element `i` of a destination with `vl` elements: kept before `lo`, computed where the mask lets it through, and else by the
mask policy or the tail policy. -/
def vElem (h : Thr) (lo : Nat) (vm : Bool) (vl w : Nat) (rnd : List Byte) (tailAgn : Bool) (old i : Nat) (g : Nat → Nat) : Nat :=
  if i < lo then old
  else if vl ≤ i then vKeep tailAgn rnd i w old
  else if vActive h vm i then g i % 2 ^ w
  else vKeep (bitOf h.vtype 7) rnd i w old

/-- The elements that an instruction computes. -/
def vDone (h : Thr) (vm : Bool) (vl : Nat) : List Nat :=
  (countFrom h.vstart (vl - h.vstart)).filter (vActive h vm)

/-- Flags of the elements that an instruction computes. -/
def vFlags (h : Thr) (vm : Bool) (g : Nat → FpRes) : Nat := (vDone h vm h.vl).foldl (fun fl i => fl ||| (g i).2) 0

/-- A destination group written from element `lo` on, with the flags of its elements; with no element to compute nothing changes. -/
def vPutFrom (lo : Nat) (h : Thr) (vm : Bool) (vd e8 w : Nat) (rnd : List Byte) (g : Nat → FpRes) : Thr × Nat :=
  if h.vl ≤ h.vstart then (h, 0)
  else
    let x := groupNat h vd e8
    let es := (countFrom 0 (512 * groupRegs e8 / w)).map (fun i =>
      vElem h lo vm h.vl w rnd (bitOf h.vtype 6) (elem x w i) i (fun i => (g i).1))
    (setGroup h vd e8 w es, vFlags h vm g)

/-- A destination group written from `vstart` on. -/
def vPut (h : Thr) (vm : Bool) (vd e8 w : Nat) (rnd : List Byte) (g : Nat → FpRes) : Thr × Nat := vPutFrom h.vstart h vm vd e8 w rnd g

/-- A mask written; its tail is always agnostic. -/
def vPutMask (h : Thr) (vm : Bool) (vd : Nat) (rnd : List Byte) (g : Nat → Bool × Nat) : Thr × Nat :=
  if h.vl ≤ h.vstart then (h, 0)
  else
    let x := (tget 0 h.v vd).toNat
    let es := (countFrom 0 512).map (fun i => vElem h h.vstart vm h.vl 1 rnd true (bits x i 1) i (fun i => b2n (g i).1))
    (setGroup h vd 8 1 es, vFlags h vm (fun i => (0, (g i).2)))

/-- A scalar in element 0 of a register; the rest of it is tail. -/
def vPutOne (h : Thr) (vd w : Nat) (rnd : List Byte) (x : Nat) : Thr :=
  if h.vl ≤ h.vstart then h
  else
    let old := groupNat h vd 8
    let es := (countFrom 0 (512 / w)).map (fun i => vElem h h.vstart true 1 w rnd (bitOf h.vtype 6) (elem old w i) i (fun _ => x))
    setGroup h vd 8 w es

/-! ### Register constraints -/

/-- A group of eight times EMUL is legal and its register aligned. -/
def vGroupOk (r e8 : Nat) : Bool := [1, 2, 4, 8, 16, 32, 64].contains e8 && groupOk r e8

/-- The destination of a masked instruction is not the mask, but for masks and scalars. -/
def vMaskOk (vm : Bool) (vd : Nat) : Bool := vm || vd != 0

/-- Two groups share a register. -/
def vMeets (a ea b eb : Nat) : Bool := decide (a < b + groupRegs eb) && decide (b < a + groupRegs ea)

/-- A destination of other width than a source may meet it only at its lowest registers (narrower) or its highest ones (wider, the
source group at least a register). -/
def vOverlapOk (vd ed vs es : Nat) : Bool :=
  !vMeets vd ed vs es || ed == es || (if ed < es then vd == vs else decide (8 ≤ es) && vs + groupRegs es == vd + groupRegs ed)

/-! ### Integer arithmetic on elements -/

/-- A number shifted right by `d` places, rounded in the mode of `vxrm`. -/
def vRoundOff (rm : Nat) (v : Int) (d : Nat) : Int :=
  let m : Int := 2 ^ d
  let q := v / m
  let r := v % m
  let up := match rm with
    | 0 => decide (0 < d) && decide (m ≤ 2 * r)
    | 1 => decide (m < 2 * r) || (decide (0 < d) && 2 * r == m && q % 2 == 1)
    | 2 => false
    | _ => decide (r ≠ 0) && q % 2 == 0
  q + (if up then 1 else 0)

/-- A number clipped to `w` bits, signed or not, with vxsat. -/
def vClip (sg : Bool) (w : Nat) (v : Int) : FpRes :=
  let lo : Int := if sg then -(2 ^ (w - 1)) else 0
  let hi : Int := if sg then 2 ^ (w - 1) - 1 else 2 ^ w - 1
  if v < lo then (unsign w lo, 1) else if hi < v then (unsign w hi, 1) else (unsign w v, 0)

/-- The operations of one width in OPIVV, OPIVX and OPIVI: a code and vxsat; `a` is the element of vs2. -/
def viOp (f6 w rm a b : Nat) : Option FpRes :=
  let sa := signed w a
  let sb := signed w b
  match f6 with
  | 0x00 => some (a + b, 0)
  | 0x02 => some (unsign w (a - b : Int), 0)
  | 0x03 => some (unsign w (b - a : Int), 0)
  | 0x04 => some (min a b, 0)
  | 0x05 => some (if sa ≤ sb then a else b, 0)
  | 0x06 => some (max a b, 0)
  | 0x07 => some (if sa ≤ sb then b else a, 0)
  | 0x09 => some (a &&& b, 0)
  | 0x0A => some (a ||| b, 0)
  | 0x0B => some (a ^^^ b, 0)
  | 0x20 => some (vClip false w (a + b : Int))
  | 0x21 => some (vClip true w (sa + sb))
  | 0x22 => some (vClip false w (a - b : Int))
  | 0x23 => some (vClip true w (sa - sb))
  | 0x25 => some (a <<< (b % w), 0)
  | 0x27 => some (vClip true w (vRoundOff rm (sa * sb) (w - 1)))
  | 0x28 => some (a >>> (b % w), 0)
  | 0x29 => some (unsign w (sa / 2 ^ (b % w)), 0)
  | 0x2A => some (unsign w (vRoundOff rm a (b % w)), 0)
  | 0x2B => some (unsign w (vRoundOff rm sa (b % w)), 0)
  | _ => none

/-- Which of the forms VV, VX and VI (bits 0, 1, 2) those operations have. -/
def viForms (f6 : Nat) : Nat :=
  if [0x02, 0x04, 0x05, 0x06, 0x07, 0x22, 0x23, 0x27].contains f6 then 3
  else if f6 = 0x03 then 6
  else 7

/-- The operations of one width in OPMVV and OPMVX. -/
def vmOp (f6 w rm a b : Nat) : Option Nat :=
  let sa := signed w a
  let sb := signed w b
  match f6 with
  | 0x08 => some (unsign w (vRoundOff rm (a + b : Int) 1))
  | 0x09 => some (unsign w (vRoundOff rm (sa + sb) 1))
  | 0x0A => some (unsign w (vRoundOff rm (a - b : Int) 1))
  | 0x0B => some (unsign w (vRoundOff rm (sa - sb) 1))
  | 0x20 => some (if b = 0 then 2 ^ w - 1 else a / b)
  | 0x21 => some (if b = 0 then 2 ^ w - 1 else unsign w (Int.tdiv sa sb))
  | 0x22 => some (if b = 0 then a else a % b)
  | 0x23 => some (if b = 0 then a else unsign w (Int.tmod sa sb))
  | 0x24 => some (a * b / 2 ^ w)
  | 0x25 => some (a * b)
  | 0x26 => some (unsign w (sa * (b : Int) / 2 ^ w))
  | 0x27 => some (unsign w (sa * sb / 2 ^ w))
  | _ => none

/-- The multiply-adds of one width; `d` is the old element of vd. -/
def vmAcc (f6 w d a b : Nat) : Option Nat :=
  match f6 with
  | 0x29 => some (b * d + a)
  | 0x2B => some (unsign w ((a : Int) - (b * d : Nat)))
  | 0x2D => some (b * a + d)
  | 0x2F => some (unsign w ((d : Int) - (b * a : Nat)))
  | _ => none

/-- A code of `w` bits as a number, signed or not. -/
def vNum (sg : Bool) (w x : Nat) : Int := if sg then signed w x else (x % 2 ^ w : Nat)

/-- The widening operations; `wa` is the width of `a`, `d` the old element of vd, of twice `w` bits. -/
def vwOp (f6 w wa d a b : Nat) : Option Nat :=
  let r (v : Int) : Option Nat := some (unsign (2 * w) v)
  match f6 with
  | 0x30 | 0x34 => r (vNum false wa a + vNum false w b)
  | 0x31 | 0x35 => r (vNum true wa a + vNum true w b)
  | 0x32 | 0x36 => r (vNum false wa a - vNum false w b)
  | 0x33 | 0x37 => r (vNum true wa a - vNum true w b)
  | 0x38 => r (vNum false w a * vNum false w b)
  | 0x3A => r (vNum true w a * vNum false w b)
  | 0x3B => r (vNum true w a * vNum true w b)
  | 0x3C => r (vNum false w b * vNum false w a + d)
  | 0x3D => r (vNum true w b * vNum true w a + d)
  | 0x3E => r (vNum false w b * vNum true w a + d)
  | 0x3F => r (vNum true w b * vNum false w a + d)
  | _ => none

/-- The narrowing operations, of elements of twice `w` bits. -/
def vnOp (f6 w rm a b : Nat) : Option FpRes :=
  let k := b % (2 * w)
  match f6 with
  | 0x2C => some (a >>> k, 0)
  | 0x2D => some (unsign w (signed (2 * w) a / 2 ^ k), 0)
  | 0x2E => some (vClip false w (vRoundOff rm a k))
  | 0x2F => some (vClip true w (vRoundOff rm (signed (2 * w) a) k))
  | _ => none

/-- The comparisons. -/
def vCmp (f6 w a b : Nat) : Option Bool :=
  let sa := signed w a
  let sb := signed w b
  match f6 with
  | 0x18 => some (a == b)
  | 0x19 => some (a != b)
  | 0x1A => some (decide (a < b))
  | 0x1B => some (decide (sa < sb))
  | 0x1C => some (decide (a ≤ b))
  | 0x1D => some (decide (sa ≤ sb))
  | 0x1E => some (decide (b < a))
  | 0x1F => some (decide (sb < sa))
  | _ => none

/-- The forms of the comparisons, as in `viForms`. -/
def vCmpForms (f6 : Nat) : Nat :=
  if f6 = 0x1A ∨ f6 = 0x1B then 3 else if f6 = 0x1E ∨ f6 = 0x1F then 6 else 7

/-- The reductions; the widening sums take numbers. -/
def vRed (f6 w acc x : Nat) : Nat :=
  match f6 with
  | 0x00 => (acc + x) % 2 ^ w
  | 0x01 => acc &&& x
  | 0x02 => acc ||| x
  | 0x03 => acc ^^^ x
  | 0x04 => min acc x
  | 0x05 => if signed w acc ≤ signed w x then acc else x
  | 0x06 => max acc x
  | _ => if signed w acc ≤ signed w x then x else acc

/-! ### Operands of an instruction -/

/-- What an instruction works on: SEW, eight times LMUL, its fields, the open bytes of its policies. -/
structure VIns where
  sew : Nat
  lm : Nat
  vm : Bool
  vd : Nat
  vs2 : Nat
  vs1 : Nat
  f3 : Nat
  f6 : Nat
  rnd : List Byte

/-- The form: 0 VV, 1 VX or VF, 2 VI. -/
def VIns.form (v : VIns) : Nat :=
  match v.f3 with
  | 0 | 1 | 2 => 0
  | 3 => 2
  | _ => 1

/-- The second operand of element `i`, `w` bits wide: an element of vs1, x[rs1], or the immediate (`uimm`: not extended). -/
def VIns.opB (v : VIns) (h : Thr) (e8 w : Nat) (uimm : Bool) : Nat → Nat :=
  match v.form with
  | 0 => fun i => elem (groupNat h v.vs1 e8) w i
  | 1 => fun _ => (getX h v.vs1).toNat % 2 ^ w
  | _ => fun _ => if uimm then v.vs1 else unsign w (signed 5 v.vs1)

/-- vs1 names a group only in the VV form. -/
def VIns.ok1 (v : VIns) (e8 : Nat) : Bool := v.form ≠ 0 || vGroupOk v.vs1 e8

/-- The form is one of those in the mask `m`. -/
def VIns.hasForm (v : VIns) (m : Nat) : Bool := bitOf m v.form

/-- The operands of an instruction of one width are legal. -/
def VIns.same (v : VIns) : Bool := vGroupOk v.vd v.lm && vGroupOk v.vs2 v.lm && v.ok1 v.lm && vMaskOk v.vm v.vd

/-- An instruction that ends with `vstart` 0; `sat` raises vxsat. -/
def vEnd (r : Thr × Nat) : Thr := { r.1 with vstart := 0, vcsr := r.1.vcsr ||| (r.2 % 2) }
/-- The same with flags of floating point. -/
def vEndFp (r : Thr × Nat) : Thr := { raiseFlags r.1 r.2 with vstart := 0 }

/-- `vxrm`. -/
def vRm (h : Thr) : Nat := bits h.vcsr 1 2

/-! ### OPIVV, OPIVX, OPIVI -/

/-- Moves between registers: vmv1r to vmv8r; `vl` does not count, `vstart` does. -/
def vMoveRegs (h : Thr) (v : VIns) : Option Thr :=
  let k := v.vs1 + 1
  if [1, 2, 4, 8].contains k ∧ v.vm ∧ v.vd % k = 0 ∧ v.vs2 % k = 0 then
    let n := 512 * k / v.sew
    if n ≤ h.vstart then some { h with vstart := 0 }
    else
      let x := groupNat h v.vd (8 * k)
      let y := groupNat h v.vs2 (8 * k)
      let es := (countFrom 0 n).map (fun i => elem (if i < h.vstart then x else y) v.sew i)
      some { setGroup h v.vd (8 * k) v.sew es with vstart := 0 }
  else none

/-- Slides: element `i` from an offset. -/
def vSlide (h : Thr) (v : VIns) (up : Bool) (off : Nat) : Option Thr :=
  if !v.same || (up && vMeets v.vd v.lm v.vs2 v.lm) then none
  else
    let src := groupNat h v.vs2 v.lm
    let mx := vlMax v.sew v.lm
    let w := v.sew
    if up then
      some (vEnd (vPutFrom (max h.vstart (min off h.vl)) h v.vm v.vd v.lm w v.rnd (fun i => (elem src w (i - off), 0))))
    else some (vEnd (vPut h v.vm v.vd v.lm w v.rnd (fun i => (if i + off < mx then elem src w (i + off) else 0, 0))))

/-- Gathers by an index; an index past VLMAX reads 0. -/
def vGather (h : Thr) (v : VIns) (e8 : Nat) (idx : Nat → Nat) : Option Thr :=
  if !v.same || vMeets v.vd v.lm v.vs2 v.lm || (v.form == 0 && vMeets v.vd v.lm v.vs1 e8) then none
  else
    let src := groupNat h v.vs2 v.lm
    some (vEnd (vPut h v.vm v.vd v.lm v.sew v.rnd (fun i => (if idx i < vlMax v.sew v.lm then elem src v.sew (idx i) else 0, 0))))

/-- Carries and borrows: with the carry of the mask as an operand, and as a mask. -/
def vCarry (h : Thr) (v : VIns) : Option Thr :=
  let b := v.opB h v.lm v.sew false
  let a := elem (groupNat h v.vs2 v.lm) v.sew
  let c (i : Nat) : Nat := if v.vm then 0 else bits (tget 0 h.v 0).toNat i 1
  let srcOk := vGroupOk v.vs2 v.lm && v.ok1 v.lm
  let into := srcOk && vGroupOk v.vd v.lm && v.vd != 0 && !v.vm
  let outOf := srcOk && vOverlapOk v.vd 1 v.vs2 v.lm && (v.form ≠ 0 || vOverlapOk v.vd 1 v.vs1 v.lm)
  match v.f6 with
  | 0x10 => if into then some (vEnd (vPut h true v.vd v.lm v.sew v.rnd (fun i => (a i + b i + c i, 0)))) else none
  | 0x12 =>
    if into ∧ v.hasForm 3 then some (vEnd (vPut h true v.vd v.lm v.sew v.rnd (fun i => (unsign v.sew ((a i : Int) - b i - c i), 0)))) else none
  | 0x11 => if outOf then some (vEnd (vPutMask h true v.vd v.rnd (fun i => (decide (2 ^ v.sew ≤ a i + b i + c i), 0)))) else none
  | _ => if outOf ∧ v.hasForm 3 then some (vEnd (vPutMask h true v.vd v.rnd (fun i => (decide (a i < b i + c i), 0)))) else none

/-- vmerge, and vmv.v where it is unmasked. -/
def vMerge (h : Thr) (v : VIns) (b : Nat → Nat) : Option Thr :=
  let a := elem (groupNat h v.vs2 v.lm) v.sew
  if v.vm then
    (if v.vs2 = 0 ∧ vGroupOk v.vd v.lm ∧ v.ok1 v.lm then some (vEnd (vPut h true v.vd v.lm v.sew v.rnd (fun i => (b i, 0)))) else none)
  else if v.same then some (vEnd (vPut h true v.vd v.lm v.sew v.rnd (fun i => (if vActive h false i then b i else a i, 0)))) else none

/-- The narrowing instructions. -/
def vNarrow (h : Thr) (v : VIns) : Option Thr :=
  let e2 := 2 * v.lm
  if 32 < v.sew ∨ !vGroupOk v.vd v.lm ∨ !vGroupOk v.vs2 e2 ∨ !v.ok1 v.lm ∨ !vMaskOk v.vm v.vd ∨ !vOverlapOk v.vd v.lm v.vs2 e2 then none
  else
    let b := v.opB h v.lm v.sew true
    let a := elem (groupNat h v.vs2 e2) (2 * v.sew)
    if (vnOp v.f6 v.sew (vRm h) 0 0).isNone then none
    else some (vEnd (vPut h v.vm v.vd v.lm v.sew v.rnd (fun i => (vnOp v.f6 v.sew (vRm h) (a i) (b i)).getD (0, 0))))

/-- A widening sum of vs2 into element 0: signed or not (`sg`). -/
def vWideSum (h : Thr) (v : VIns) (sg : Bool) : Option Thr :=
  if 32 < v.sew ∨ h.vstart ≠ 0 ∨ !vGroupOk v.vs2 v.lm then none
  else
    let a := elem (groupNat h v.vs2 v.lm) v.sew
    let s0 : Int := elem (tget 0 h.v v.vs1).toNat (2 * v.sew) 0
    let r := (vDone h v.vm h.vl).foldl (fun acc i => acc + vNum sg v.sew (a i)) s0
    some { vPutOne h v.vd (2 * v.sew) v.rnd (unsign (2 * v.sew) r) with vstart := 0 }

/-- The integer instructions of OPIVV, OPIVX and OPIVI. -/
def opiExec (h : Thr) (v : VIns) : Option Thr :=
  let w := v.sew
  let b := v.opB h v.lm w (decide (0x25 ≤ v.f6))
  let u := v.opB h v.lm w true
  let a := elem (groupNat h v.vs2 v.lm) w
  match v.f6 with
  | 0x0C => vGather h v v.lm (if v.form = 1 then fun _ => (getX h v.vs1).toNat else u)
  | 0x0E => if v.form = 0 then (if vGroupOk v.vs1 (v.lm * 16 / w) && v.lm * 16 % w == 0
      then vGather h { v with f3 := 4 } 0 (elem (groupNat h v.vs1 (v.lm * 16 / w)) 16)
        |>.bind (fun r => if vMeets v.vd v.lm v.vs1 (v.lm * 16 / w) then none else some r) else none)
    else vSlide h v true (if v.form = 2 then v.vs1 else (getX h v.vs1).toNat)
  | 0x0F => if v.form = 0 then none else vSlide h v false (if v.form = 2 then v.vs1 else (getX h v.vs1).toNat)
  | 0x10 | 0x11 | 0x12 | 0x13 => vCarry h v
  | 0x17 => vMerge h v (v.opB h v.lm w false)
  | 0x2C | 0x2D | 0x2E | 0x2F => vNarrow h v
  | 0x30 => if v.form = 0 then vWideSum h v false else none
  | 0x31 => if v.form = 0 then vWideSum h v true else none
  | f6 =>
    if f6 = 0x27 ∧ v.form = 2 then vMoveRegs h v
    else if (vCmp f6 w 0 0).isSome then
      (if v.hasForm (vCmpForms f6) && vGroupOk v.vs2 v.lm && v.ok1 v.lm && vOverlapOk v.vd 1 v.vs2 v.lm
          && (v.form ≠ 0 || vOverlapOk v.vd 1 v.vs1 v.lm) then
        some (vEnd (vPutMask h v.vm v.vd v.rnd (fun i => ((vCmp f6 w (a i) (b i)).getD false, 0))))
      else none)
    else if (viOp f6 w 0 0 0).isSome && v.hasForm (viForms f6) && v.same then
      some (vEnd (vPut h v.vm v.vd v.lm w v.rnd (fun i => (viOp f6 w (vRm h) (a i) (b i)).getD (0, 0))))
    else none

/-! ### OPMVV, OPMVX -/

/-- A reduction of one width into element 0. -/
def vReduce (h : Thr) (v : VIns) : Option Thr :=
  if h.vstart ≠ 0 ∨ !vGroupOk v.vs2 v.lm then none
  else
    let a := elem (groupNat h v.vs2 v.lm) v.sew
    let r := (vDone h v.vm h.vl).foldl (fun acc i => vRed v.f6 v.sew acc (a i)) (elem (tget 0 h.v v.vs1).toNat v.sew 0)
    some { vPutOne h v.vd v.sew v.rnd r with vstart := 0 }

/-- vmv.x.s, vcpop and vfirst. -/
def vToX (h : Thr) (v : VIns) : Option Thr :=
  let m := (tget 0 h.v v.vs2).toNat
  let set := (vDone h v.vm h.vl).filter (bitOf m)
  let out (x : DWord) : Thr := { setX h v.vd x with vstart := 0 }
  match v.vs1 with
  | 0 => if v.vm then some (out (sext v.sew (elem m v.sew 0))) else none
  | 16 => if h.vstart = 0 then some (out (BitVec.ofNat 64 set.length)) else none
  | 17 => if h.vstart = 0 then some (out (match set with | i :: _ => BitVec.ofNat 64 i | [] => -1)) else none
  | _ => none

/-- Extensions by a half, a quarter and an eighth. -/
def vExtend (h : Thr) (v : VIns) : Option Thr :=
  let k := match v.vs1 / 2 with | 1 => 8 | 2 => 4 | 3 => 2 | _ => 0
  if k = 0 ∨ 8 ≤ v.vs1 ∨ v.sew < 8 * k ∨ v.lm % k ≠ 0 then none
  else
    let es := v.lm / k
    let w := v.sew / k
    if !vGroupOk v.vd v.lm ∨ !vGroupOk v.vs2 es ∨ !vMaskOk v.vm v.vd ∨ !vOverlapOk v.vd v.lm v.vs2 es then none
    else
      let a := elem (groupNat h v.vs2 es) w
      some (vEnd (vPut h v.vm v.vd v.lm v.sew v.rnd (fun i => (unsign v.sew (vNum (v.vs1 % 2 == 1) w (a i)), 0))))

/-- The mask instructions of one source: set before, including and only the first; iota; and the index. -/
def vMaskUnary (h : Thr) (v : VIns) : Option Thr :=
  let m := (tget 0 h.v v.vs2).toNat
  let on (i : Nat) : Bool := bitOf m i && vActive h v.vm i
  let before (i : Nat) : Nat := ((countFrom 0 i).filter on).length
  let mask (g : Nat → Bool) : Option Thr :=
    if h.vstart = 0 ∧ v.vd ≠ v.vs2 ∧ vMaskOk v.vm v.vd then some (vEnd (vPutMask h v.vm v.vd v.rnd (fun i => (g i, 0)))) else none
  match v.vs1 with
  | 1 => mask (fun i => before (i + 1) == 0)
  | 2 => mask (fun i => before i == 0 && bitOf m i)
  | 3 => mask (fun i => before i == 0)
  | 16 =>
    if h.vstart = 0 ∧ vGroupOk v.vd v.lm ∧ vMaskOk v.vm v.vd ∧ !vMeets v.vd v.lm v.vs2 8 then
      some (vEnd (vPut h v.vm v.vd v.lm v.sew v.rnd (fun i => (before i, 0))))
    else none
  | 17 =>
    if v.vs2 = 0 ∧ vGroupOk v.vd v.lm ∧ vMaskOk v.vm v.vd then some (vEnd (vPut h v.vm v.vd v.lm v.sew v.rnd (fun i => (i, 0)))) else none
  | _ => none

/-- The logical operations on masks. -/
def vMaskLogic (h : Thr) (v : VIns) : Option Thr :=
  let a := bitOf (tget 0 h.v v.vs2).toNat
  let b := bitOf (tget 0 h.v v.vs1).toNat
  let g (i : Nat) : Bool := match v.f6 with
    | 0x18 => a i && !b i
    | 0x19 => a i && b i
    | 0x1A => a i || b i
    | 0x1B => a i != b i
    | 0x1C => a i || !b i
    | 0x1D => !(a i && b i)
    | 0x1E => !(a i || b i)
    | _ => a i == b i
  if v.vm then some (vEnd (vPutMask h true v.vd v.rnd (fun i => (g i, 0)))) else none

/-- vcompress: the elements that the mask in vs1 names, packed; the rest is tail. -/
def vCompress (h : Thr) (v : VIns) : Option Thr :=
  if !v.vm ∨ h.vstart ≠ 0 ∨ !vGroupOk v.vd v.lm ∨ !vGroupOk v.vs2 v.lm ∨ vMeets v.vd v.lm v.vs2 v.lm ∨ vMeets v.vd v.lm v.vs1 8 then none
  else
    let a := elem (groupNat h v.vs2 v.lm) v.sew
    let is := (countFrom 0 h.vl).filter (bitOf (tget 0 h.v v.vs1).toNat)
    if h.vl = 0 then some h
    else
      let x := groupNat h v.vd v.lm
      let es := (countFrom 0 (512 * groupRegs v.lm / v.sew)).map (fun i => match is[i]? with
        | some j => a j
        | none => vKeep (bitOf h.vtype 6) v.rnd i v.sew (elem x v.sew i))
      some { setGroup h v.vd v.lm v.sew es with vstart := 0 }

/-- Slides by one element with a scalar at the free end. -/
def vSlide1 (h : Thr) (v : VIns) (up : Bool) (x : Nat) : Option Thr :=
  if !v.same || (up && vMeets v.vd v.lm v.vs2 v.lm) then none
  else
    let a := elem (groupNat h v.vs2 v.lm) v.sew
    some (vEnd (vPut h v.vm v.vd v.lm v.sew v.rnd (fun i =>
      (if up then (if i = 0 then x else a (i - 1)) else if i + 1 = h.vl then x else a (i + 1), 0))))

/-- The widening integer instructions; in the .w forms vs2 is wide already. -/
def vWiden (h : Thr) (v : VIns) : Option Thr :=
  let e2 := 2 * v.lm
  let wide := decide (0x34 ≤ v.f6) && decide (v.f6 ≤ 0x37)
  let ea := if wide then e2 else v.lm
  let wa := if wide then 2 * v.sew else v.sew
  if 32 < v.sew ∨ !vGroupOk v.vd e2 ∨ !vGroupOk v.vs2 ea ∨ !v.ok1 v.lm ∨ !vMaskOk v.vm v.vd ∨ !vOverlapOk v.vd e2 v.vs2 ea
      ∨ (v.form = 0 ∧ !vOverlapOk v.vd e2 v.vs1 v.lm) ∨ (v.f6 = 0x3E ∧ v.form = 0) ∨ (vwOp v.f6 v.sew wa 0 0 0).isNone then none
  else
    let b := v.opB h v.lm v.sew false
    let a := elem (groupNat h v.vs2 ea) wa
    let d := elem (groupNat h v.vd e2) (2 * v.sew)
    some (vEnd (vPut h v.vm v.vd e2 (2 * v.sew) v.rnd (fun i => ((vwOp v.f6 v.sew wa (d i) (a i) (b i)).getD 0, 0))))

/-- The instructions of OPMVV and OPMVX. -/
def opmExec (h : Thr) (v : VIns) : Option Thr :=
  let w := v.sew
  let x := (getX h v.vs1).toNat
  let b := v.opB h v.lm w false
  let a := elem (groupNat h v.vs2 v.lm) w
  let d := elem (groupNat h v.vd v.lm) w
  let vv := v.form = 0
  if v.f6 < 8 then (if vv then vReduce h v else none)
  else match v.f6 with
    | 0x0E => if vv then none else vSlide1 h v true x
    | 0x0F => if vv then none else vSlide1 h v false x
    | 0x10 => if vv then vToX h v
      else if v.vs2 = 0 ∧ v.vm then some { vPutOne h v.vd w v.rnd x with vstart := 0 } else none
    | 0x12 => if vv then vExtend h v else none
    | 0x14 => if vv then vMaskUnary h v else none
    | 0x17 => if vv then vCompress h v else none
    | 0x18 | 0x19 | 0x1A | 0x1B | 0x1C | 0x1D | 0x1E | 0x1F => if vv then vMaskLogic h v else none
    | f6 =>
      if 0x30 ≤ f6 then vWiden h v
      else if !v.same then none
      else if (vmOp f6 w 0 0 0).isSome then
        some (vEnd (vPut h v.vm v.vd v.lm w v.rnd (fun i => ((vmOp f6 w (vRm h) (a i) (b i)).getD 0, 0))))
      else if (vmAcc f6 w 0 0 0).isSome then
        some (vEnd (vPut h v.vm v.vd v.lm w v.rnd (fun i => ((vmAcc f6 w (d i) (a i) (b i)).getD 0, 0))))
      else none

/-! ### OPFVV, OPFVF -/

/-- The formats of SEW 32 and SEW 64. -/
def vFmt (w : Nat) : Fmt := if w = 64 then bin64 else bin32

/-- The second operand: an element of vs1, or f[rs1]. -/
def VIns.opF (v : VIns) (h : Thr) : Nat → Nat :=
  if v.form = 0 then elem (groupNat h v.vs1 v.lm) v.sew else fun _ => fReg h (vFmt v.sew) v.vs1

/-- The operations of one width. -/
def vfOp (f : Fmt) (rm f6 : Nat) (a b : Nat) : Option FpRes :=
  match f6 with
  | 0x00 => some (fpAdd f rm a b)
  | 0x02 => some (fpSub f rm a b)
  | 0x04 => some (fpMinMax f false a b)
  | 0x06 => some (fpMinMax f true a b)
  | 0x08 => some (fpSgnj f 0 a b, 0)
  | 0x09 => some (fpSgnj f 1 a b, 0)
  | 0x0A => some (fpSgnj f 2 a b, 0)
  | 0x20 => some (fpDiv f rm a b)
  | 0x21 => some (fpDiv f rm b a)
  | 0x24 => some (fpMul f rm a b)
  | 0x27 => some (fpSub f rm b a)
  | _ => none

/-- The multiply-adds: with vd as a factor (0x28 to 0x2B) or as the addend; bit 0 turns the product, and bit 1 the addend of an even
code, the product alone of an odd one. -/
def vfAcc (f : Fmt) (rm f6 : Nat) (d a b : Nat) : Option FpRes :=
  let n := fpNegate f
  match f6 with
  | 0x28 => some (fpFma f rm b d a)
  | 0x29 => some (fpFma f rm (n b) d (n a))
  | 0x2A => some (fpFma f rm b d (n a))
  | 0x2B => some (fpFma f rm (n b) d a)
  | 0x2C => some (fpFma f rm b a d)
  | 0x2D => some (fpFma f rm (n b) a (n d))
  | 0x2E => some (fpFma f rm b a (n d))
  | 0x2F => some (fpFma f rm (n b) a d)
  | _ => none

/-- The comparisons: equal, less or equal, less, not equal, greater, greater or equal. -/
def vfCmp (f : Fmt) (f6 : Nat) (a b : Nat) : Option FpRes :=
  match f6 with
  | 0x18 => some (fpCmp f 2 a b)
  | 0x19 => some (fpCmp f 0 a b)
  | 0x1B => some (fpCmp f 1 a b)
  | 0x1C => let r := fpCmp f 2 a b; some (1 - r.1, r.2)
  | 0x1D => some (fpCmp f 1 b a)
  | 0x1F => some (fpCmp f 0 b a)
  | _ => none

/-- The widening operations, exact operands in binary64; `d` is the old element of vd. -/
def vfWide (rm f6 : Nat) (d a b : Nat) : Option FpRes :=
  let n := fpNegate bin64
  match f6 with
  | 0x30 | 0x34 => some (fpAdd bin64 rm a b)
  | 0x32 | 0x36 => some (fpSub bin64 rm a b)
  | 0x38 => some (fpMul bin64 rm a b)
  | 0x3C => some (fpFma bin64 rm b a d)
  | 0x3D => some (fpFma bin64 rm (n b) a (n d))
  | 0x3E => some (fpFma bin64 rm b a (n d))
  | 0x3F => some (fpFma bin64 rm (n b) a d)
  | _ => none

/-- A binary32 as a binary64, NV where it is signalling. -/
def vfUp (c : Nat) : FpRes := fpConv bin32 bin64 0 c

/-- The widening instructions; in the .w forms vs2 is wide already. -/
def vfWiden (h : Thr) (v : VIns) (rm : Nat) : Option Thr :=
  let e2 := 2 * v.lm
  let wide := v.f6 = 0x34 ∨ v.f6 = 0x36
  let ea := if wide then e2 else v.lm
  if v.sew ≠ 32 ∨ !vGroupOk v.vd e2 ∨ !vGroupOk v.vs2 ea ∨ !v.ok1 v.lm ∨ !vMaskOk v.vm v.vd ∨ !vOverlapOk v.vd e2 v.vs2 ea
      ∨ (v.form = 0 ∧ !vOverlapOk v.vd e2 v.vs1 v.lm) ∨ (vfWide 0 v.f6 0 0 0).isNone then none
  else
    let b := v.opF h
    let a := elem (groupNat h v.vs2 ea) (if wide then 64 else 32)
    let d := elem (groupNat h v.vd e2) 64
    some (vEndFp (vPut h v.vm v.vd e2 64 v.rnd (fun i =>
      let x : FpRes := if wide then (a i, 0) else vfUp (a i)
      let y := vfUp (b i)
      let r := (vfWide rm v.f6 (d i) x.1 y.1).getD (0, 0)
      (r.1, r.2 ||| x.2 ||| y.2))))

/-- Reductions of one width: sums in order (0x03), sums in an open order (0x01), minimum and maximum. -/
def vfReduce (h : Thr) (v : VIns) (rm : Nat) : Option Thr :=
  if h.vstart ≠ 0 ∨ !vGroupOk v.vs2 v.lm then none
  else
    let f := vFmt v.sew
    let a := elem (groupNat h v.vs2 v.lm) v.sew
    let s0 := elem (tget 0 h.v v.vs1).toNat v.sew 0
    let xs := (vDone h v.vm h.vl).map a
    let r : FpRes :=
      if v.f6 = 0x01 then
        (let r := Config.rvSum v.sew rm s0 xs; (r.1 % 2 ^ v.sew, r.2 % 32))
      else xs.foldl (fun acc x =>
        let r := match v.f6 with
          | 0x03 => fpAdd f rm acc.1 x
          | 0x05 => fpMinMax f false acc.1 x
          | _ => fpMinMax f true acc.1 x
        (r.1, acc.2 ||| r.2)) (s0, 0)
    some { raiseFlags (vPutOne h v.vd v.sew v.rnd r.1) (if h.vl = 0 then 0 else r.2) with vstart := 0 }

/-- Widening sums of binary32 into a binary64: in order (0x33) or in an open order (0x31). -/
def vfWideReduce (h : Thr) (v : VIns) (rm : Nat) : Option Thr :=
  if h.vstart ≠ 0 ∨ v.sew ≠ 32 ∨ !vGroupOk v.vs2 v.lm then none
  else
    let a := elem (groupNat h v.vs2 v.lm) 32
    let s0 := elem (tget 0 h.v v.vs1).toNat 64 0
    let xs := (vDone h v.vm h.vl).map (fun i => vfUp (a i))
    let r : FpRes :=
      if v.f6 = 0x31 then (let r := Config.rvSum 128 rm s0 (xs.map Prod.fst); (r.1 % 2 ^ 64, r.2 % 32))
      else xs.foldl (fun acc x => let r := fpAdd bin64 rm acc.1 x.1; (r.1, acc.2 ||| r.2 ||| x.2)) (s0, 0)
    some { raiseFlags (vPutOne h v.vd 64 v.rnd r.1) (if h.vl = 0 then 0 else r.2) with vstart := 0 }

/-- A conversion: operand of `wa` bits to a result of `wd` bits by the low codes 0 to 7 of VFUNARY0. -/
def vfCvt (rm k wa wd : Nat) (c : Nat) : Option FpRes :=
  match k with
  | 0 => some (fpToInt (vFmt wa) rm wd false c)
  | 1 => some (fpToInt (vFmt wa) rm wd true c)
  | 2 => some (fpOfInt (vFmt wd) rm wa false c)
  | 3 => some (fpOfInt (vFmt wd) rm wa true c)
  | 4 => if wa = wd then none else some (fpConv (vFmt wa) (vFmt wd) rm c)
  | 5 => if wa ≤ wd then none else some (fpConv (vFmt wa) (vFmt wd) 5 c)
  | 6 => some (fpToInt (vFmt wa) 1 wd false c)
  | _ => some (fpToInt (vFmt wa) 1 wd true c)

/-- Conversions of one width, widening (codes 8 to 15) and narrowing (16 to 23). -/
def vfConvert (h : Thr) (v : VIns) (rm : Nat) : Option Thr :=
  let g := v.vs1 / 8
  let wide := 2 * v.sew
  let (wa, ea, wd, ed) := match g with
    | 0 => (v.sew, v.lm, v.sew, v.lm)
    | 1 => (v.sew, v.lm, wide, 2 * v.lm)
    | _ => (wide, 2 * v.lm, v.sew, v.lm)
  if 3 ≤ g ∨ (1 ≤ g ∧ v.sew ≠ 32) ∨ !vGroupOk v.vd ed ∨ !vGroupOk v.vs2 ea ∨ !vMaskOk v.vm v.vd ∨ !vOverlapOk v.vd ed v.vs2 ea
      ∨ (vfCvt 0 (v.vs1 % 8) wa wd 0).isNone then none
  else
    let a := elem (groupNat h v.vs2 ea) wa
    some (vEndFp (vPut h v.vm v.vd ed wd v.rnd (fun i => (vfCvt rm (v.vs1 % 8) wa wd (a i)).getD (0, 0))))

/-- Square root, the two estimates (whose tables this manual does not give) and the class. -/
def vfUnary (h : Thr) (v : VIns) (rm : Nat) : Option Thr :=
  let f := vFmt v.sew
  let a := elem (groupNat h v.vs2 v.lm) v.sew
  let run (g : Nat → FpRes) : Option Thr :=
    if vGroupOk v.vd v.lm ∧ vGroupOk v.vs2 v.lm ∧ vMaskOk v.vm v.vd then
      some (vEndFp (vPut h v.vm v.vd v.lm v.sew v.rnd (fun i => g (a i))))
    else none
  match v.vs1 with
  | 0 => run (fpSqrt f rm)
  | 4 | 5 => run (fun c => let r := Config.rvEstimate v.vs1 v.sew rm c; (r.1 % 2 ^ v.sew, r.2 % 32))
  | 16 => run (fun c => (fpClass f c, 0))
  | _ => none

/-- The floating-point instructions, at SEW 32 and 64 only (R317); a reserved rounding mode in `frm` is illegal. -/
def opfExec (h : Thr) (v : VIns) : Option Thr :=
  match rmOf h 7 with
  | none => none
  | some rm =>
    if v.sew < 32 then none
    else
      let f := vFmt v.sew
      let w := v.sew
      let vv := v.form = 0
      let b := v.opF h
      let a := elem (groupNat h v.vs2 v.lm) w
      let d := elem (groupNat h v.vd v.lm) w
      let scalar := fReg h f v.vs1
      match v.f6 with
      | 0x01 | 0x03 | 0x05 | 0x07 => if vv then vfReduce h v rm else none
      | 0x31 | 0x33 => if vv then vfWideReduce h v rm else none
      | 0x0E => if vv then none else vSlide1 h v true scalar
      | 0x0F => if vv then none else vSlide1 h v false scalar
      | 0x10 =>
        if vv then (if v.vs1 = 0 ∧ v.vm then
          some { h with f := tset 0 h.f v.vd (boxed f (elem (tget 0 h.v v.vs2).toNat w 0)), vstart := 0 } else none)
        else if v.vs2 = 0 ∧ v.vm then some { vPutOne h v.vd w v.rnd scalar with vstart := 0 } else none
      | 0x12 => if vv then vfConvert h v rm else none
      | 0x13 => if vv then vfUnary h v rm else none
      | 0x17 => if vv then none else vMerge h v (fun _ => scalar)
      | f6 =>
        if 0x30 ≤ f6 then vfWiden h v rm
        else if (f6 = 0x1D ∨ f6 = 0x1F ∨ f6 = 0x21 ∨ f6 = 0x27) ∧ vv then none
        else if (vfCmp f f6 0 0).isSome then
          (if vGroupOk v.vs2 v.lm && v.ok1 v.lm && vOverlapOk v.vd 1 v.vs2 v.lm && (!vv || vOverlapOk v.vd 1 v.vs1 v.lm) then
            some (vEndFp (vPutMask h v.vm v.vd v.rnd (fun i => let r := (vfCmp f f6 (a i) (b i)).getD (0, 0); (r.1 == 1, r.2))))
          else none)
        else if !v.same then none
        else if (vfOp f rm f6 0 0).isSome then
          some (vEndFp (vPut h v.vm v.vd v.lm w v.rnd (fun i => (vfOp f rm f6 (a i) (b i)).getD (0, 0))))
        else if (vfAcc f rm f6 0 0 0).isSome then
          some (vEndFp (vPut h v.vm v.vd v.lm w v.rnd (fun i => (vfAcc f rm f6 (d i) (a i) (b i)).getD (0, 0))))
        else none

/-- OP-V; none where the instruction is reserved or not implemented. `rnd` decides what the agnostic policies leave open. -/
def vecExec (h : Thr) (rnd : List Byte) (w : Nat) : Option Thr :=
  if rvF3 w = 7 then vsetExec h w
  else match vtypeOf h with
    | none => none
    | some (sew, lm) =>
      let v : VIns := { sew := sew, lm := lm, vm := bits w 25 1 == 1, vd := rvRd w, vs2 := rvRs2 w, vs1 := rvRs1 w, f3 := rvF3 w,
                        f6 := bits w 26 6, rnd := rnd }
      match v.f3 with
      | 0 | 3 | 4 => opiExec h v
      | 2 | 6 => opmExec h v
      | _ => opfExec h v

/-! ### The elements of a vector access -/

/-- A vector access: its elements with `vstart`'s number, the element of the group that starts at vd, and the address; the width in
bytes; and the groups that it loads, with the register, eight times EMUL and the number of elements. -/
structure VAcc where
  vd : Nat
  size : Nat
  elems : List (Nat × Nat × Nat) := []
  groups : List (Nat × Nat) := []
  vl : Nat := 0
  masked : Bool := false
  tailAgn : Bool := false
  first : Bool := false

/-- Elements that one register group of a segment holds. -/
def vStride (e8 size : Nat) : Nat := perReg size * groupRegs e8

/-- The elements of an access of `nf` fields with the address of each. -/
def vAccOf (h : Thr) (vm : Bool) (vd size e8 nf : Nat) (first : Bool) (addr : (i f : Nat) → Nat) : VAcc :=
  { vd := vd, size := size, first := first, vl := h.vl, masked := !vm, tailAgn := bitOf h.vtype 6,
    elems := ((vDone h vm h.vl).map (fun i => (countFrom 0 nf).map (fun f => (i, i + f * vStride e8 size, addr i f % 2 ^ 64)))).flatten,
    groups := (countFrom 0 nf).map (fun f => (vd + f * groupRegs e8, e8)) }

/-- Whole registers, `n` of them, in elements of `size` bytes. -/
def vWhole (h : Thr) (vd size n base : Nat) : VAcc :=
  { vd := vd, size := size, vl := n * perReg size,
    elems := (countFrom h.vstart (n * perReg size - h.vstart)).map (fun i => (i, i, (base + size * i) % 2 ^ 64)) }

/-- A mask: `vl` bits in bytes; the tail is agnostic. -/
def vMaskAcc (h : Thr) (vd base : Nat) : VAcc :=
  let n := (h.vl + 7) / 8
  { vd := vd, size := 1, vl := n, tailAgn := true, groups := [(vd, 8)],
    elems := (countFrom h.vstart (n - h.vstart)).map (fun i => (i, i, (base + i) % 2 ^ 64)) }

/-- The width in bytes that funct3 names. -/
def vWidth : Nat → Option Nat
  | 0 => some 1 | 5 => some 2 | 6 => some 4 | 7 => some 8 | _ => none

/-- The access of a vector load or store; none where it is reserved. -/
def vecAccess (h : Thr) (w : Nat) : Option VAcc :=
  let load := rvOp w = 0x07
  let nf := bits w 29 3 + 1
  let vm := bits w 25 1 == 1
  let vd := rvRd w
  let base := (getX h (rvRs1 w)).toNat
  match vWidth (rvF3 w) with
  | none => none
  | some size =>
    let segOk (e8 : Nat) : Bool := vGroupOk vd e8 && decide (groupRegs e8 * nf ≤ 8) && decide (vd + groupRegs e8 * nf ≤ 32)
      && (!load || vMaskOk vm vd)
    if bits w 28 1 = 1 then none
    else match bits w 26 2 with
      | 0 =>
        match rvRs2 w with
        | 0x08 => if [1, 2, 4, 8].contains nf ∧ vm ∧ vd % nf = 0 ∧ (load ∨ size = 1) then some (vWhole h vd size nf base) else none
        | 0x0B => if (vtypeOf h).isSome ∧ size = 1 ∧ vm ∧ nf = 1 then some (vMaskAcc h vd base) else none
        | k =>
          match vtypeOf h with
          | some (sew, lm) =>
            let e8 := lm * 8 * size / sew
            if (k = 0 ∨ (k = 0x10 ∧ load)) ∧ lm * 8 * size % sew = 0 ∧ segOk e8 then
              some (vAccOf h vm vd size e8 nf (k == 0x10) (fun i f => base + size * (nf * i + f)))
            else none
          | none => none
      | 2 =>
        match vtypeOf h with
        | some (sew, lm) =>
          let e8 := lm * 8 * size / sew
          let st := (getX h (rvRs2 w)).toNat
          if lm * 8 * size % sew = 0 ∧ segOk e8 then some (vAccOf h vm vd size e8 nf false (fun i f => base + st * i + size * f)) else none
        | none => none
      | _ =>
        match vtypeOf h with
        | some (sew, lm) =>
          let ei := lm * 8 * size / sew
          let vs2 := rvRs2 w
          let meets := (countFrom 0 nf).any (fun f => vMeets (vd + f * groupRegs lm) lm vs2 ei)
          if lm * 8 * size % sew = 0 ∧ vGroupOk vs2 ei ∧ segOk lm
              ∧ (!load ∨ !meets ∨ (nf = 1 ∧ vOverlapOk vd lm vs2 ei)) then
            let idx := elem (groupNat h vs2 ei) (8 * size)
            some (vAccOf h vm vd (sew / 8) lm nf false (fun i f => base + idx i + sew / 8 * f))
          else none
        | none => none

/-- The elements that a load of this access leaves to the policies, once it has loaded `vl` elements. -/
def vSettle (h : Thr) (v : VAcc) (vl : Nat) (rnd : List Byte) : Thr :=
  if v.vl ≤ h.vstart then h
  else
    let w := 8 * v.size
    v.groups.foldl (fun h' g =>
      let x := groupNat h' g.1 g.2
      setGroup h' g.1 g.2 w ((countFrom 0 (512 * groupRegs g.2 / w)).map (fun i =>
        vElem h h.vstart (!v.masked) vl w rnd v.tailAgn (elem x w i) i (fun i => elem x w i)))) h

end Sys2Proof.Machine
end

