-- ==== Sys2Proof/Machine/Rv.lean ====
section
/-! DEFINITION. A thread runs the instruction at its pc (spec/10_threads_and_memory.md R316, R317, R319, R320, R325, R326, R352): fetch
through the instruction cache, the instructions of RV64GCV whose text this manual leaves to RISC-V, the CSRs, and the Xslv
instructions by their fields.
Readings and choices: log 13. -/

namespace Sys2Proof.Machine

/-- Exception causes of `mcause`. -/
def exBreakpoint : Nat := 3
def exCallU : Nat := 8
def exCallM : Nat := 11

/-- The state of a meaning's outcome; the one stop of this model belongs to no instruction of a thread. -/
def nextOr (s : State) : Out → State
  | .next s' => s'
  | _ => s

/-! ### Fetch (R316, R345, R352) -/

/-- The line of the instruction cache that holds an address. -/
def cachedLine (s : State) (n : Nat) (p : Place) : Option (List Byte) :=
  ((getCore s n).icache.find? (fun e => e.1 == addrOf p / 64)).map Prod.snd

/-- The line of memory around an address enters the instruction cache. -/
def fillLine (s : State) (n t : Nat) (p : Place) : State :=
  let a := addrOf p
  let bs := (readAs s (issuerOf s n t) (p.1, p.2 - a % 64) 64).bytes
  modCore s n (fun c => { c with icache := (a / 64, bs) :: c.icache.filter (fun e => e.1 != a / 64) })

/-- Two bytes fetched: the right is checked, then the bytes come from the cache or from memory. Where the cache holds the line, it may
still hold it or may have lost it: which is open, until FENCE.I clears the cache (R352). -/
def fetchHalf (s : State) (n t ga : Nat) : ItemRes Nat :=
  let fromMem (s : State) : ItemRes Nat :=
    match itemRead s n t .exec exFetchFault exFetchFault ga 2 with
    | .error s => .error s
    | .ok (s, bs) => .ok ((match itemPlace s (some n) ga 2 with | some p => fillLine s n t p | none => s), leNat bs)
  match badByte s (issuerOf s n t) .exec ga 2, itemPlace s (some n) ga 2 with
  | none, some p =>
    match cachedLine s n p with
    | some line =>
      let (r, s) := draw s 1
      if bitOf (getAt 0 r 0).toNat 0 then .ok (s, field line (addrOf p % 64) 2) else fromMem s
    | none => fromMem s
  | _, _ => fromMem s

/-- An instruction fetched at the pc: its word, a 16-bit form as the word it stands for (none where it is reserved), and its length. -/
def fetchInstr (s : State) (n t : Nat) : ItemRes (Option Nat × Nat) :=
  let pc := (getThr s n t).pc.toNat
  if pc % 2 ≠ 0 then .error (trapAt s n t exFetchMisaligned pc)
  else match fetchHalf s n t pc with
    | .error s => .error s
    | .ok (s, lo) =>
      if lo % 4 ≠ 3 then .ok (s, (expandC lo, 2))
      else match fetchHalf s n t ((pc + 2) % 2 ^ 64) with
        | .error s => .error s
        | .ok (s, hi) => .ok (s, (some (lo + 65536 * hi), 4))

/-! ### CSRs (R317, R319, R320) -/

/-- The cycle counter of a core (R319). -/
def coreCycles (s : State) (n : Nat) : Nat := wrap 64 (s.cyc + 2 ^ 64 - (getCore s n).cyc0 % 2 ^ 64)

/-- SLVID of a thread (R320). -/
def slvId (s : State) (n t : Nat) : Nat :=
  (getCore s n).epoch * 2 ^ 30 + ownLmn s * 2 ^ 20 + (ptnOfCluster s (n / 8)).getD 0 * 2 ^ 14 + t * 2 ^ 10 + n

/-- SLVCTX of a thread (R320). -/
def slvCtx (s : State) (n t : Nat) : Nat := b2n (ctxValid s n t) * 2 ^ 63 + (getThr s n t).ctx

/-- Bits of `mstatus` that software writes: MIE, MPIE, MPP. -/
def mstatusMask : DWord := 0x1888

/-- `mstatus` as it reads: FS and VS always on, with SD; UXL 64 bits; the rest as held. -/
def mstatusRead (h : Thr) : DWord := (h.mstatus &&& mstatusMask) ||| 0x8000000200006600

/-- `misa`: 64 bits; A, C, D, F, I, M, U, V and X. -/
def misaValue : DWord := 0x8000000000B0112D

/-- A CSR number outside the standard ones that this thread lacks or reads as 0 without effect: the PMP CSRs (R317) and the machine
counters that count nothing. -/
def csrZero (k : Nat) : Bool :=
  (decide (0x3A0 ≤ k) && decide (k ≤ 0x3AF) && k % 2 == 0) || (decide (0x3B0 ≤ k) && decide (k ≤ 0x3EF))
    || (decide (0xB03 ≤ k) && decide (k ≤ 0xB1F)) || (decide (0x323 ≤ k) && decide (k ≤ 0x33F)) || k == 0x320 || k == 0x30A

/-- The value of a CSR; none where it does not exist. -/
def csrRead (s : State) (n t k : Nat) : Option DWord :=
  let h := getThr s n t
  let w (x : Nat) : Option DWord := some (BitVec.ofNat 64 x)
  match k with
  | 0x001 => w (bits h.fcsr 0 5)
  | 0x002 => w (bits h.fcsr 5 3)
  | 0x003 => w (bits h.fcsr 0 8)
  | 0x008 => w h.vstart
  | 0x009 => w (bits h.vcsr 0 1)
  | 0x00A => w (bits h.vcsr 1 2)
  | 0x00F => w (bits h.vcsr 0 3)
  | 0xC20 => w h.vl
  | 0xC21 => w h.vtype
  | 0xC22 => w 64
  | 0xC00 | 0xB00 => w (coreCycles s n)
  | 0xC01 => w (now s)
  | 0xC02 | 0xB02 => w h.instret
  | 0x300 => some (mstatusRead h)
  | 0x301 => some misaValue
  | 0x304 => some h.mie
  | 0x305 => some h.mtvec
  | 0x306 => w 7
  | 0x340 => some h.mscratch
  | 0x341 => some h.mepc
  | 0x342 => some h.mcause
  | 0x343 => some h.mtval
  | 0x344 => some h.mip
  | 0x7C0 => w (slvCtx s n t)
  | 0x7C1 => some h.slvtrap
  | 0xCC0 => w (slvId s n t)
  | 0xF11 | 0xF12 | 0xF13 | 0xF14 | 0xF15 => some (Config.rvCsr k n)
  | _ => if csrZero k then some 0 else none

/-- MPP takes 0 and 3 only. -/
def mstatusWrite (old v : DWord) : DWord :=
  let m := (old &&& ~~~mstatusMask) ||| (v &&& mstatusMask)
  let mpp := v &&& 0x1800
  if mpp = 0 ∨ mpp = 0x1800 then m else (m &&& ~~~(0x1800 : DWord)) ||| (old &&& 0x1800)

/-- A CSR of the thread written; read-only bits stay. -/
def csrWriteThr (h : Thr) (k : Nat) (v : DWord) : Thr :=
  let x := v.toNat
  match k with
  | 0x001 => { h with fcsr := bits h.fcsr 5 3 * 32 + bits x 0 5 }
  | 0x002 => { h with fcsr := bits x 0 3 * 32 + bits h.fcsr 0 5 }
  | 0x003 => { h with fcsr := bits x 0 8 }
  | 0x008 => { h with vstart := bits x 0 9 }
  | 0x009 => { h with vcsr := bits h.vcsr 1 2 * 2 + bits x 0 1 }
  | 0x00A => { h with vcsr := bits x 0 2 * 2 + bits h.vcsr 0 1 }
  | 0x00F => { h with vcsr := bits x 0 3 }
  | 0xB02 => { h with instret := x }
  | 0x300 => { h with mstatus := mstatusWrite h.mstatus v }
  | 0x304 => { h with mie := v &&& 0x888 }
  | 0x305 => { h with mtvec := v &&& ~~~(3 : DWord) }
  | 0x340 => { h with mscratch := v }
  | 0x341 => { h with mepc := v &&& ~~~(1 : DWord) }
  | 0x342 => { h with mcause := v }
  | 0x343 => { h with mtval := v }
  | 0x7C0 => { h with ctx := bits x 0 12 }
  | 0x7C1 => { h with slvtrap := v &&& ~~~(3 : DWord) }
  | _ => h

/-- A CSR written. -/
def csrWrite (s : State) (n t k : Nat) (v : DWord) : State :=
  if k = 0xB00 then modCore s n (fun c => { c with cyc0 := wrap 64 (s.cyc + 2 ^ 64 - v.toNat) })
  else modThr s n t (fun h => csrWriteThr h k v)

/-- CSRRW, CSRRS, CSRRC and their immediate forms (Zicsr): the CSR exists, the mode may use it, one that is read-only is not written. -/
def csrExec (s : State) (n t len w : Nat) : State :=
  let h := getThr s n t
  let k := bits w 20 12
  let f3 := rvF3 w
  let rs1 := rvRs1 w
  let x : DWord := if 4 ≤ f3 then BitVec.ofNat 64 rs1 else getX h rs1
  let op := f3 % 4
  let writes := op == 1 || rs1 != 0
  match csrRead s n t k with
  | none => illegal s n t
  | some old =>
    if (bits k 8 2 = 3 ∧ !h.mmode) ∨ bits k 8 2 = 2 ∨ bits k 8 2 = 1 ∨ (writes ∧ bits k 10 2 = 3) then illegal s n t
    else
      let new := match op with | 1 => x | 2 => old ||| x | _ => old &&& ~~~x
      let s := instrDone s n t len
      let s := if writes then csrWrite s n t k new else s
      modThr s n t (fun h => setX h (rvRd w) old)

/-! ### System instructions -/

/-- MRET: back to `mepc` in the mode that `mstatus` holds. -/
def mret (h : Thr) : Thr :=
  let mpie := (h.mstatus >>> 7) &&& 1
  { h with pc := h.mepc, mmode := h.mstatus &&& 0x1800 == 0x1800,
           mstatus := (h.mstatus &&& ~~~mstatusMask) ||| (mpie <<< 3) ||| 0x80,
           instret := wrap 64 (h.instret + 1) }

/-- ECALL, EBREAK, MRET and WFI (R317); whether a breakpoint's `mtval` is its address or 0 is open. -/
def systemExec (s : State) (n t len w : Nat) : State :=
  let h := getThr s n t
  if rvF3 w ≠ 0 then (if rvF3 w = 4 then illegal s n t else csrExec s n t len w)
  else match bits w 7 25 with
    | 0 => takeTrap s n t (if h.mmode then exCallM else exCallU) 0
    | 0x2000 =>
      let (r, s) := draw s 1
      takeTrap s n t exBreakpoint (if bitOf (getAt 0 r 0).toNat 0 then h.pc else 0)
    | 0x604000 => if h.mmode then modThr s n t mret else illegal s n t
    | 0x20A000 => instrDone s n t len
    | _ => illegal s n t

/-! ### Xslv by its fields (R325, R326) -/

/-- An instruction of custom-0 and custom-1; `x1` and `x2` are the values of rs1 and rs2. -/
def xslvExec (s : State) (n t w : Nat) : State :=
  let h := getThr s n t
  let rd := rvRd w
  let x1 := (getX h (rvRs1 w)).toNat
  let x2 := (getX h (rvRs2 w)).toNat
  let f7 := rvF7 w
  let go (o : State → Out) : State := nextOr s (o s)
  let bad := illegal s n t
  if rvOp w = 0x0B then
    match rvF3 w with
    | 0 => if rvRs2 w = 0 then go (execSlvCmd n t f7 rd x1) else bad
    | 1 => match f7 with
      | 0 => go (execSlvCrcRaw n t rd x1 x2)
      | 1 => go (execSlvCrcTchk n t rd x1)
      | 2 => go (execSlvCrcTgen n t rd x1)
      | _ => bad
    | 2 => go (execSlvVcvt n t rd (rvRs2 w) f7)
    | 3 => go (execSlvVfn n t rd (rvRs2 w) f7)
    | _ => bad
  else
    match rvF3 w, f7 with
    | 0, 0 => go (execSlvRc n t rd x1 x2)
    | 1, 0 => go (execSlvBwaitUntil n t rd x1)
    | 1, 1 => go (execSlvBwaitSemwait n t rd x1 x2)
    | 2, 0 => if rvRs2 w = 0 then go (execSlvLaunch n t rd x1) else bad
    | 3, 0 => if rd = 0 ∧ rvRs1 w = 0 ∧ rvRs2 w = 0 then go (execSlvExit n t) else bad
    | _, _ => bad

/-! ### Memory instructions -/

/-- The AMO that funct5 names. -/
def amoOf : Nat → Option AmoOp
  | 0x01 => some .swap | 0x00 => some .add | 0x04 => some .xor | 0x0C => some .and_ | 0x08 => some .or_
  | 0x10 => some .min | 0x14 => some .max | 0x18 => some .minu | 0x1C => some .maxu | _ => none

/-- The access of a scalar memory instruction; none where it is reserved. -/
def scalarAcc (h : Thr) (w : Nat) : Option MemAcc :=
  let f3 := rvF3 w
  let rd := rvRd w
  let base := getX h (rvRs1 w)
  let ga := (base + immI w).toNat
  let sa := (base + immS w).toNat
  let x2 := (getX h (rvRs2 w)).toNat
  match rvOp w with
  | 0x03 => if f3 = 7 then none else some (.load ga (2 ^ (f3 % 4)) (decide (f3 < 4)) rd)
  | 0x23 => if f3 ≤ 3 then some (.store sa (2 ^ f3) (x2 % 2 ^ (8 * 2 ^ f3))) else none
  | 0x07 => if f3 = 2 ∨ f3 = 3 then some (.fload ga (2 ^ f3) rd) else none
  | 0x27 => if f3 = 2 ∨ f3 = 3 then some (.store sa (2 ^ f3) ((tget 0 h.f (rvRs2 w)).toNat % 2 ^ (8 * 2 ^ f3))) else none
  | _ =>
    if f3 ≠ 2 ∧ f3 ≠ 3 then none
    else match bits w 27 5 with
      | 0x02 => if rvRs2 w = 0 then some (.lr base.toNat (2 ^ f3) rd) else none
      | 0x03 => some (.sc base.toNat (2 ^ f3) (x2 % 2 ^ (8 * 2 ^ f3)) rd)
      | k => (amoOf k).map (fun op => .amo op base.toNat (2 ^ f3) (x2 % 2 ^ (8 * 2 ^ f3)) rd)

/-- A vector load that reads past its first element only as far as it may: a later element that would trap ends it there. -/
def vLoadFirst (n t vd size : Nat) : List (Nat × Nat × Nat) → State → Except State State
  | [], s => .ok s
  | (i, k, a) :: es, s =>
    match itemLoad s n t a size with
    | .ok (s, v) => vLoadFirst n t vd size es (modThr s n t (fun h => vSet h vd size k v))
    | .error s' =>
      if i = 0 ∨ (getThr s' n t).state = .waitMem then .error (modThr s' n t (fun h => { h with vstart := i }))
      else
        let h := getThr s n t
        .ok (modThr s' n t (fun _ => { h with vl := i }))

/-- A vector access: loads, then what the policies leave open; an element that traps leaves its number in `vstart`. -/
def vecMemExec (s : State) (n t len w : Nat) : State :=
  match vecAccess (getThr s n t) w with
  | none => illegal s n t
  | some v =>
    let vst := (getThr s n t).vstart
    let done (s : State) : State := modThr (instrDone s n t len) n t (fun h => { h with vstart := 0 })
    if rvOp w = 0x07 then
      match (if v.first then vLoadFirst n t v.vd v.size v.elems s else vLoad n t v.vd v.size v.elems s) with
      | .ok s =>
        let (r, s) := draw s 512
        done (modThr s n t (fun h => vSettle { h with vstart := vst } v (if v.first then h.vl else v.vl) r))
      | .error s => s
    else outcome ((vStore n t v.vd v.size v.elems s).map done)

/-! ### One instruction -/

/-- An instruction that changes the thread alone and retires; an illegal one is trapped. -/
def retireThr (s : State) (n t len : Nat) (r : Option Thr) : State :=
  match r with
  | some h => instrDone (modThr s n t (fun _ => h)) n t len
  | none => illegal s n t

/-- A jump: rd takes the next address, the pc the target. -/
def jump (s : State) (n t len rd : Nat) (target : DWord) : State :=
  modThr s n t (fun h => { setX h rd (h.pc + BitVec.ofNat 64 len) with pc := target, instret := wrap 64 (h.instret + 1) })

/-- The instruction word `w` of `len` bytes. -/
def runWord (s : State) (n t len w : Nat) : State :=
  let h := getThr s n t
  let rd := rvRd w
  let a := getX h (rvRs1 w)
  let b := getX h (rvRs2 w)
  let put (v : DWord) : Option Thr := some (setX h rd v)
  match rvOp w with
  | 0x37 => retireThr s n t len (put (immU w))
  | 0x17 => retireThr s n t len (put (h.pc + immU w))
  | 0x6F => jump s n t len rd (h.pc + immJ w)
  | 0x67 => if rvF3 w = 0 then jump s n t len rd ((a + immI w) &&& ~~~(1 : DWord)) else illegal s n t
  | 0x63 => match branchTaken (rvF3 w) a b with
    | some true => jump s n t len 0 (h.pc + immB w)
    | some false => instrDone s n t len
    | none => illegal s n t
  | 0x13 => retireThr s n t len ((opImmResult w a).bind put)
  | 0x1B => retireThr s n t len ((opImmResultW w a).bind put)
  | 0x33 => retireThr s n t len ((opResult (rvF3 w) (rvF7 w) a b).bind put)
  | 0x3B => retireThr s n t len ((opResultW (rvF3 w) (rvF7 w) a b).bind put)
  | 0x0F => match rvF3 w with
    | 0 => instrDone s n t len
    | 1 => modCore (instrDone s n t len) n (fun c => { c with icache := [] })
    | _ => illegal s n t
  | 0x73 => systemExec s n t len w
  | 0x03 | 0x23 | 0x2F => match scalarAcc h w with
    | some m => memAccess s n t len m
    | none => illegal s n t
  | 0x07 | 0x27 => match vWidth (rvF3 w), scalarAcc h w with
    | some _, _ => vecMemExec s n t len w
    | none, some m => memAccess s n t len m
    | none, none => illegal s n t
  | 0x43 | 0x47 | 0x4B | 0x4F => retireThr s n t len (fmaExec h w)
  | 0x53 => retireThr s n t len (fpExec h w)
  | 0x57 =>
    let (r, s) := draw s 512
    retireThr s n t len (vecExec h r w)
  | 0x0B | 0x2B => xslvExec s n t w
  | _ => illegal s n t

/-- A thread fetches the instruction at its pc and executes it (R316); a word of no implemented extension is illegal (R317). -/
def runInstr (s : State) (n t : Nat) : State :=
  match fetchInstr s n t with
  | .error s => s
  | .ok (s, (some w, len)) => runWord s n t len w
  | .ok (s, (none, _)) => illegal s n t

/-- THREAD_MEMORY_ACCESS (R345): `len` is the instruction's length in bytes. In the form `run` the thread fetches and executes the
instruction at its pc. -/
def execThreadMemoryAccess (core thr len : Nat) (a : MemAcc) (s : State) : Out :=
  .next (issue s core thr (fun s =>
    if a = .run then runInstr s core thr else if accOk a then memAccess s core thr len a else s))

end Sys2Proof.Machine
end

