-- ==== Sys2Proof/Machine/Dispatch.lean ====
section
/-! DEFINITION. One arm for each command of the table: a direct call of the command's meaning, or a refusal by name. -/

namespace Sys2Proof.Machine

/-- The effect of a command on everything but the queue. -/
def exec (i : Instr) (s : State) : Host.Outcome State Fault Refusal :=
  match i with
  | .registerWrite who off size value env => Sys2Proof.Machine.execRegisterWrite who off size value env s
  | .slvCmd core thr f7 rd addr => Sys2Proof.Machine.execSlvCmd core thr f7 rd addr s
  | .queuePositionFreed q => Sys2Proof.Machine.execQueuePositionFreed q s
  | .fwdW4a8 core up => Sys2Proof.Machine.execFwdW4a8 core up s
  | .bwdG8w4 core up => Sys2Proof.Machine.execBwdG8w4 core up s
  | .mmA8a8 core up => Sys2Proof.Machine.execMmA8a8 core up s
  | .mmOz16 core up => Sys2Proof.Machine.execMmOz16 core up s
  | .quant core up => Sys2Proof.Machine.execQuant core up s
  | .colsumBuild core up => Sys2Proof.Machine.execColsumBuild core up s
  | .nodeAdd core up => Sys2Proof.Machine.execNodeAdd core up s
  | .routedStationaryDelivery core bad up => Sys2Proof.Machine.execRoutedStationaryDelivery core bad up s
  | .joinBufferReady core wcd up => Sys2Proof.Machine.execJoinBufferReady core wcd up s
  | .sealWaitEnd core wcd up => Sys2Proof.Machine.execSealWaitEnd core wcd up s
  | .wfwd core up => Sys2Proof.Machine.execWfwd core up s
  | .wbwdData core up => Sys2Proof.Machine.execWbwdData core up s
  | .wbwdGrad core up => Sys2Proof.Machine.execWbwdGrad core up s
  | .claimSlot who port slot ctx adapter addr units => Sys2Proof.Machine.execClaimSlot who port slot ctx adapter addr units s
  | .fetch who port slot ctx sem => Sys2Proof.Machine.execFetch who port slot ctx sem s
  | .cancel who port slot ctx sem => Sys2Proof.Machine.execCancel who port slot ctx sem s
  | .claimExpert who port slot ctx idx layer loc => Sys2Proof.Machine.execClaimExpert who port slot ctx idx layer loc s
  | .releaseExpert who port slot ctx idx layer loc => Sys2Proof.Machine.execReleaseExpert who port slot ctx idx layer loc s
  | .stage who port slot ctx stg addr sem => Sys2Proof.Machine.execStage who port slot ctx stg addr sem s
  | .unstage who port slot ctx sem => Sys2Proof.Machine.execUnstage who port slot ctx sem s
  | .evict who port slot ctx sem => Sys2Proof.Machine.execEvict who port slot ctx sem s
  | .vatCopyDone slot => Sys2Proof.Machine.execVatCopyDone slot s
  | .vatScrubDone slot => Sys2Proof.Machine.execVatScrubDone slot s
  | .fetchDeadline slot => Sys2Proof.Machine.execFetchDeadline slot s
  | .prsInit press res => Sys2Proof.Machine.execPrsInit press res s
  | .prsReduce press res => Sys2Proof.Machine.execPrsReduce press res s
  | .prsNorm press res => Sys2Proof.Machine.execPrsNorm press res s
  | .prsReduceNorm press res => Sys2Proof.Machine.execPrsReduceNorm press res s
  | .prsApply press res => Sys2Proof.Machine.execPrsApply press res s
  | .prsClose press res => Sys2Proof.Machine.execPrsClose press res s
  | .prsExport press res => Sys2Proof.Machine.execPrsExport press res s
  | .bell => Sys2Proof.Machine.execBell s
  | .bellFrameReceive port f => Sys2Proof.Machine.execBellFrameReceive port f s
  | .bellFrameMissing alt => Sys2Proof.Machine.execBellFrameMissing alt s
  | .holdoverLimit => Sys2Proof.Machine.execHoldoverLimit s
  | .pllLock => Sys2Proof.Machine.execPllLock s
  | .domainStartMark => Sys2Proof.Machine.execDomainStartMark s
  | .localBellStart => Sys2Proof.Machine.execLocalBellStart s
  | .delayMeasurement alt t1 => Sys2Proof.Machine.execDelayMeasurement alt t1 s
  | .probeReceive port f t2 t3 => Sys2Proof.Machine.execProbeReceive port f t2 t3 s
  | .echoReceive port f t4 => Sys2Proof.Machine.execEchoReceive port f t4 s
  | .bellRefLoss => Sys2Proof.Machine.execBellRefLoss s
  | .bellRefReturn => Sys2Proof.Machine.execBellRefReturn s
  | .governorBellAverage w => Sys2Proof.Machine.execGovernorBellAverage w s
  | .ttStart who p bell => Sys2Proof.Machine.execTtStart who p bell s
  | .ttStop who p => Sys2Proof.Machine.execTtStop who p s
  | .ttResume who p bell => Sys2Proof.Machine.execTtResume who p bell s
  | .timetableBegin p => Sys2Proof.Machine.execTimetableBegin p s
  | .slotStart p k due => Sys2Proof.Machine.execSlotStart p k due s
  | .slotDeadline p k => Sys2Proof.Machine.execSlotDeadline p k s
  | .lessonBoundary p => Sys2Proof.Machine.execLessonBoundary p s
  | .partitionCommandsEnded p => Sys2Proof.Machine.execPartitionCommandsEnded p s
  | .partialReloadApply p => Sys2Proof.Machine.execPartialReloadApply p s
  | .semRead src => Sys2Proof.Machine.execSemRead src s
  | .semWrite src => Sys2Proof.Machine.execSemWrite src s
  | .semAdd src => Sys2Proof.Machine.execSemAdd src s
  | .waitGe src => Sys2Proof.Machine.execWaitGe src s
  | .acquire src => Sys2Proof.Machine.execAcquire src s
  | .release src => Sys2Proof.Machine.execRelease src s
  | .arrive src => Sys2Proof.Machine.execArrive src s
  | .waitGen src => Sys2Proof.Machine.execWaitGen src s
  | .barRelease src => Sys2Proof.Machine.execBarRelease src s
  | .waitTimeout k => Sys2Proof.Machine.execWaitTimeout k s
  | .replyReceive port f => Sys2Proof.Machine.execReplyReceive port f s
  | .tokenLost rtag => Sys2Proof.Machine.execTokenLost rtag s
  | .creditReceive port f => Sys2Proof.Machine.execCreditReceive port f s
  | .sendCreditsAvailable pool => Sys2Proof.Machine.execSendCreditsAvailable pool s
  | .retractReceive port f => Sys2Proof.Machine.execRetractReceive port f s
  | .runaheadVerdict src pool seq => Sys2Proof.Machine.execRunaheadVerdict src pool seq s
  | .statusFrameSend ptn => Sys2Proof.Machine.execStatusFrameSend ptn s
  | .statusFrameReceive port f => Sys2Proof.Machine.execStatusFrameReceive port f s
  | .epochReceive port f => Sys2Proof.Machine.execEpochReceive port f s
  | .slvCrcRaw core thr rd addr len => Sys2Proof.Machine.execSlvCrcRaw core thr rd addr len s
  | .slvCrcTchk core thr rd addr => Sys2Proof.Machine.execSlvCrcTchk core thr rd addr s
  | .slvCrcTgen core thr rd addr => Sys2Proof.Machine.execSlvCrcTgen core thr rd addr s
  | .slvVcvt core thr vd vs2 code => Sys2Proof.Machine.execSlvVcvt core thr vd vs2 code s
  | .slvVfn core thr vd vs2 f7 => Sys2Proof.Machine.execSlvVfn core thr vd vs2 f7 s
  | .slvRc core thr rd rs1 rs2 => Sys2Proof.Machine.execSlvRc core thr rd rs1 rs2 s
  | .slvBwaitUntil core thr rd bell => Sys2Proof.Machine.execSlvBwaitUntil core thr rd bell s
  | .bwaitWake core thr => Sys2Proof.Machine.execBwaitWake core thr s
  | .slvBwaitSemwait core thr rd bell rs2 => Sys2Proof.Machine.execSlvBwaitSemwait core thr rd bell rs2 s
  | .slvLaunch core thr rd addr => Sys2Proof.Machine.execSlvLaunch core thr rd addr s
  | .launchPlaced p => Sys2Proof.Machine.execLaunchPlaced p s
  | .slvExit core thr => Sys2Proof.Machine.execSlvExit core thr s
  | .threadMemoryAccess core thr len a => Sys2Proof.Machine.execThreadMemoryAccess core thr len a s
  | .threadTrap core thr cause tval => Sys2Proof.Machine.execThreadTrap core thr cause tval s
  | .slvctxWrite core thr value => Sys2Proof.Machine.execSlvctxWrite core thr value s
  | .syllabusLoad who len => Sys2Proof.Machine.execSyllabusLoad who len s
  | .syllabusCancel who p => Sys2Proof.Machine.execSyllabusCancel who p s
  | .ohBase who bytes => Sys2Proof.Machine.execOhBase who bytes s
  | .ohData who count => Sys2Proof.Machine.execOhData who count s
  | .ohTrain who steps seqLen seed adapter => Sys2Proof.Machine.execOhTrain who steps seqLen seed adapter s
  | .ohEval who first count => Sys2Proof.Machine.execOhEval who first count s
  | .ohResult who => Sys2Proof.Machine.execOhResult who s
  | .ohClear who => Sys2Proof.Machine.execOhClear who s
  | .ptnTeardown who p => Sys2Proof.Machine.execPtnTeardown who p s
  | .ptnHold who p => Sys2Proof.Machine.execPtnHold who p s
  | .ptnRelease who p => Sys2Proof.Machine.execPtnRelease who p s
  | .attach who p c seat => Sys2Proof.Machine.execAttach who p c seat s
  | .preempt who p c => Sys2Proof.Machine.execPreempt who p c s
  | .resume who p c seat => Sys2Proof.Machine.execResume who p c seat s
  | .detach who p c => Sys2Proof.Machine.execDetach who p c s
  | .ctxCancel who p c => Sys2Proof.Machine.execCtxCancel who p c s
  | .rebind who p c seat => Sys2Proof.Machine.execRebind who p c seat s
  | .preemptBoundExpiry c => Sys2Proof.Machine.execPreemptBoundExpiry c s
  | .landingQuiet c => Sys2Proof.Machine.execLandingQuiet c s
  | .enableQueuedApply f => Sys2Proof.Machine.execEnableQueuedApply f s
  | .baseCommit who base => Sys2Proof.Machine.execBaseCommit who base s
  | .baseTeardown who base => Sys2Proof.Machine.execBaseTeardown who base s
  | .brineEnable who => Sys2Proof.Machine.execBrineEnable who s
  | .brineDisable who => Sys2Proof.Machine.execBrineDisable who s
  | .brineJobStart => Sys2Proof.Machine.execBrineJobStart s
  | .brineJobEnd => Sys2Proof.Machine.execBrineJobEnd s
  | .brineDisabled => Sys2Proof.Machine.execBrineDisabled s
  | .portLight port => Sys2Proof.Machine.execPortLight port s
  | .portTrainingDone port pass lmn role => Sys2Proof.Machine.execPortTrainingDone port pass lmn role s
  | .portRetry port => Sys2Proof.Machine.execPortRetry port s
  | .dataFrameReceive port frame corrected => Sys2Proof.Machine.execDataFrameReceive port frame corrected s
  | .linkFrameReceive port f lane => Sys2Proof.Machine.execLinkFrameReceive port f lane s
  | .laneFailure port lanes => Sys2Proof.Machine.execLaneFailure port lanes s
  | .syncLaneFailure port fibre => Sys2Proof.Machine.execSyncLaneFailure port fibre s
  | .portSyncLoss port => Sys2Proof.Machine.execPortSyncLoss port s
  | .fabPtEnable who port => Sys2Proof.Machine.execFabPtEnable who port s
  | .fabPtDisable who port => Sys2Proof.Machine.execFabPtDisable who port s
  | .fabPtRetrain who port => Sys2Proof.Machine.execFabPtRetrain who port s
  | .portDrainEnd port => Sys2Proof.Machine.execPortDrainEnd port s
  | .fabTakeover who lmn => Sys2Proof.Machine.execFabTakeover who lmn s
  | .takeoverApply => Sys2Proof.Machine.execTakeoverApply s
  | .fabMapSelApply n => Sys2Proof.Machine.execFabMapSelApply n s
  | .xferSend core => Sys2Proof.Machine.execXferSend core s
  | .xferFetch core => Sys2Proof.Machine.execXferFetch core s
  | .xferCopy core => Sys2Proof.Machine.execXferCopy core s
  | .xferNode core => Sys2Proof.Machine.execXferNode core s
  | .xferDigest core => Sys2Proof.Machine.execXferDigest core s
  | .xferRetract core => Sys2Proof.Machine.execXferRetract core s
  | .sendComplete lmn pool seq => Sys2Proof.Machine.execSendComplete lmn pool seq s
  | .sendLanding src pool seq => Sys2Proof.Machine.execSendLanding src pool seq s
  | .sendPartialTimeout src pool seq => Sys2Proof.Machine.execSendPartialTimeout src pool seq s
  | .fetchReqServe => Sys2Proof.Machine.execFetchReqServe s
  | .cptLight outcome => Sys2Proof.Machine.execCptLight outcome s
  | .cptLinkDown => Sys2Proof.Machine.execCptLinkDown s
  | .cptRetry outcome => Sys2Proof.Machine.execCptRetry outcome s
  | .regReq f env => Sys2Proof.Machine.execRegReq f env s
  | .bulkWr f => Sys2Proof.Machine.execBulkWr f s
  | .bulkRdReq f => Sys2Proof.Machine.execBulkRdReq f s
  | .fetchData f seq => Sys2Proof.Machine.execFetchData f seq s
  | .fetchCtl f => Sys2Proof.Machine.execFetchCtl f s
  | .authHello f => Sys2Proof.Machine.execAuthHello f s
  | .authProof f => Sys2Proof.Machine.execAuthProof f s
  | .authClose f => Sys2Proof.Machine.execAuthClose f s
  | .authChallengeDelayed tag => Sys2Proof.Machine.execAuthChallengeDelayed tag s
  | .recoverFrame f => Sys2Proof.Machine.execRecoverFrame f s
  | .recoveryReset u => Sys2Proof.Machine.execRecoveryReset u s
  | .eventSend => Sys2Proof.Machine.execEventSend s
  | .bellMark => Sys2Proof.Machine.execBellMark s
  | .cptRefLost => Sys2Proof.Machine.execCptRefLost s
  | .advance who target burn => Sys2Proof.Machine.execAdvance who target burn s
  | .keySet who role slot key => Sys2Proof.Machine.execKeySet who role slot key s
  | .keyClear who role slot => Sys2Proof.Machine.execKeyClear who role slot s
  | .ledgerStore who syl => Sys2Proof.Machine.execLedgerStore who syl s
  | .jrnAck who seq => Sys2Proof.Machine.execJrnAck who seq s
  | .fwFloor who burn => Sys2Proof.Machine.execFwFloor who burn s
  | .lcsRecover who u => Sys2Proof.Machine.execLcsRecover who u s
  | .quoteModule who nonce => Sys2Proof.Machine.execQuoteModule who nonce s
  | .quotePartition who p nonce => Sys2Proof.Machine.execQuotePartition who p nonce s
  | .keyRelease who record => Sys2Proof.Machine.execKeyRelease who record s
  | .ekDrop who p module => Sys2Proof.Machine.execEkDrop who p module s
  | .ekExpiry => Sys2Proof.Machine.execEkExpiry s
  | .memoryPatrol ups addr n => Sys2Proof.Machine.execMemoryPatrol ups addr n s
  | .checkerRerunStart core => Sys2Proof.Machine.execCheckerRerunStart core s
  | .checkerRerunDone core up => Sys2Proof.Machine.execCheckerRerunDone core up s
  | .decisionDeadline core => Sys2Proof.Machine.execDecisionDeadline core s
  | .quizComplete phys fail => Sys2Proof.Machine.execQuizComplete phys fail s
  | .quizDue cluster => Sys2Proof.Machine.execQuizDue cluster s
  | .faultLogFlush => Sys2Proof.Machine.execFaultLogFlush s
  | .intAck who => Sys2Proof.Machine.execIntAck who s
  | .snpArm who ctx plan => Sys2Proof.Machine.execSnpArm who ctx plan s
  | .snpDisarm who ctx => Sys2Proof.Machine.execSnpDisarm who ctx s
  | .captureNow who ctx => Sys2Proof.Machine.execCaptureNow who ctx s
  | .snpRestore who ctx lesson arg2 upTo => Sys2Proof.Machine.execSnpRestore who ctx lesson arg2 upTo s
  | .snpDelete who ctx gen => Sys2Proof.Machine.execSnpDelete who ctx gen s
  | .snpQuery who ctx => Sys2Proof.Machine.execSnpQuery who ctx s
  | .captureCopyDone ctx => Sys2Proof.Machine.execCaptureCopyDone ctx s
  | .snapshotCommit ctx => Sys2Proof.Machine.execSnapshotCommit ctx s
  | .mirrorAck src pool seq => Sys2Proof.Machine.execMirrorAck src pool seq s
  | .mirrorTimeout ctx => Sys2Proof.Machine.execMirrorTimeout ctx s
  | .mirrorReceive src pool seq copy => Sys2Proof.Machine.execMirrorReceive src pool seq copy s
  | .restoreComplete ctx bad mirror => Sys2Proof.Machine.execRestoreComplete ctx bad mirror s
  | .runQuick who regions => Sys2Proof.Machine.execRunQuick who regions s
  | .runFull who regions => Sys2Proof.Machine.execRunFull who regions s
  | .loopFar who ports => Sys2Proof.Machine.execLoopFar who ports s
  | .fuse who fails => Sys2Proof.Machine.execFuse who fails s
  | .regionBistEnd region results => Sys2Proof.Machine.execRegionBistEnd region results s
  | .testRunEnd results => Sys2Proof.Machine.execTestRunEnd results s
  | .tapReset => Sys2Proof.Machine.execTapReset s
  | .extest pins cells => Sys2Proof.Machine.execExtest pins cells s
  | .samplePreload pins cells => Sys2Proof.Machine.execSamplePreload pins cells s
  | .clamp => Sys2Proof.Machine.execClamp s
  | .highz => Sys2Proof.Machine.execHighz s
  | .regAccess access env => Sys2Proof.Machine.execRegAccess access env s
  | .bypass => Sys2Proof.Machine.execBypass s
  | .powerInputApplied vin bounce => Sys2Proof.Machine.execPowerInputApplied vin bounce s
  | .powerGood u => Sys2Proof.Machine.execPowerGood u s
  | .inputSample vin iin => Sys2Proof.Machine.execInputSample vin iin s
  | .railFault order => Sys2Proof.Machine.execRailFault order s
  | .thermalSample temps => Sys2Proof.Machine.execThermalSample temps s
  | .modResetNAssert us taken => Sys2Proof.Machine.execModResetNAssert us taken s
  | .modResetNRelease u => Sys2Proof.Machine.execModResetNRelease u s
  | .resetModule who u => Sys2Proof.Machine.execResetModule who u s
  | .resetWarm who u => Sys2Proof.Machine.execResetWarm who u s
  | .resetDie who target u => Sys2Proof.Machine.execResetDie who target u s
  | .resetRegion who target => Sys2Proof.Machine.execResetRegion who target s
  | .resetCore who target => Sys2Proof.Machine.execResetCore who target s
  | .resetBank who target => Sys2Proof.Machine.execResetBank who target s
  | .resetDeferredStart kind target => Sys2Proof.Machine.execResetDeferredStart kind target s
  | .resetComplete kind target results => Sys2Proof.Machine.execResetComplete kind target results s
  | .entdaa addr => Sys2Proof.Machine.execEntdaa addr s
  | .rstdaa => Sys2Proof.Machine.execRstdaa s
  | .setnewda addr new => Sys2Proof.Machine.execSetnewda addr new s
  | .getpid addr => Sys2Proof.Machine.execGetpid addr s
  | .getbcr addr => Sys2Proof.Machine.execGetbcr addr s
  | .getdcr addr => Sys2Proof.Machine.execGetdcr addr s
  | .getstatus addr => Sys2Proof.Machine.execGetstatus addr s
  | .enec addr => Sys2Proof.Machine.execEnec addr s
  | .disec addr => Sys2Proof.Machine.execDisec addr s
  | .setmrl addr len => Sys2Proof.Machine.execSetmrl addr len s
  | .getmrl addr => Sys2Proof.Machine.execGetmrl addr s
  | .i3cPrivateWrite addr bytes => Sys2Proof.Machine.execI3cPrivateWrite addr bytes s
  | .i3cPrivateRead addr len => Sys2Proof.Machine.execI3cPrivateRead addr len s
  | .cptIdleFrameReceive frame => Sys2Proof.Machine.execCptIdleFrameReceive frame s
  | .syncFrameForward port f => Sys2Proof.Machine.execSyncFrameForward port f s
  | .mirrorRead src pool seq gen => Sys2Proof.Machine.execMirrorRead src pool seq gen s
  | .landingSpaceRelease src pool seq => Sys2Proof.Machine.execLandingSpaceRelease src pool seq s
  | .snapshotEngineReady => Sys2Proof.Machine.execSnapshotEngineReady s

end Sys2Proof.Machine
end

