-- ==== Sys2Proof/Safety.lean ====
section
/-! DEFINITION. The terms in which statements speak of the machine: a command that completes, a state that the rest of the module
leaves alone, the canonical form of memory, and what eFuses never do.
Readings and choices: log 5. -/

namespace Sys2Proof.Machine

/-- The command has its effect: it answers a next state, of which `P` holds. -/
def Completes (c : Instr) (s : State) (P : State → Prop) : Prop := ∃ t, exec c s = .next t ∧ P t

/-- The machine does not stop: no command of the queue's front ends in a fault or a refusal. -/
def SafeStep (s : State) : Prop := ∃ t, step s = .next t

/-- The canonical form of memory: addresses strictly rising, no byte listed that an unlisted address reads as. -/
def Memory.wf (m : Tbl Byte) : Bool := twf memDefault m

/-- A read of one byte of memory. -/
def readByte (s : State) (a : Nat) : Byte := tget memDefault s.mem a

/-- Every byte of memory reads as before. -/
def SameMemory (s t : State) : Prop := ∀ a, readByte t a = readByte s a

/-- What an eFuse, once burnt, never takes back (R496, R497, R511, R521, R583): the life cycle goes on only, the identity fuse stays
burnt, the firmware floor never falls, a permanent repair stays. -/
structure FusesKept (f g : FuseBlk) : Prop where
  life : f.lc.code ≤ g.lc.code
  identity : f.identity = true → g.identity = true
  floor : f.fwFloor ≤ g.fwFloor
  repairs : f.repairs <+: g.repairs

/-- The parts of the state beside the queue, each a field of State. -/
inductive Part where
  | fresh | cyc | mem | memKey | memErr | tags | resv | mc | core | phys | int | rc | ptn | ctx | brn | prs | bell | syl |
  keys | fab | xf | led | lcs | sec | cpt | ses | mod | pwr | subf | vat | tst | snp | oh | fuse | flash | tap | i3c
deriving DecidableEq, Repr

/-- A part is the same in two states. -/
def samePart (p : Part) (s t : State) : Prop :=
  match p with
  | .fresh => t.fresh = s.fresh
  | .cyc => t.cyc = s.cyc
  | .mem => t.mem = s.mem
  | .memKey => t.memKey = s.memKey
  | .memErr => t.memErr = s.memErr
  | .tags => t.tags = s.tags
  | .resv => t.resv = s.resv
  | .mc => t.mc = s.mc
  | .core => t.core = s.core
  | .phys => t.phys = s.phys
  | .int => t.int = s.int
  | .rc => t.rc = s.rc
  | .ptn => t.ptn = s.ptn
  | .ctx => t.ctx = s.ctx
  | .brn => t.brn = s.brn
  | .prs => t.prs = s.prs
  | .bell => t.bell = s.bell
  | .syl => t.syl = s.syl
  | .keys => t.keys = s.keys
  | .fab => t.fab = s.fab
  | .xf => t.xf = s.xf
  | .led => t.led = s.led
  | .lcs => t.lcs = s.lcs
  | .sec => t.sec = s.sec
  | .cpt => t.cpt = s.cpt
  | .ses => t.ses = s.ses
  | .mod => t.mod = s.mod
  | .pwr => t.pwr = s.pwr
  | .subf => t.subf = s.subf
  | .vat => t.vat = s.vat
  | .tst => t.tst = s.tst
  | .snp => t.snp = s.snp
  | .oh => t.oh = s.oh
  | .fuse => t.fuse = s.fuse
  | .flash => t.flash = s.flash
  | .tap => t.tap = s.tap
  | .i3c => t.i3c = s.i3c

/-- The parts that a command may change beside the queue: what its effect and the faults, events and semaphores that it raises
reach. No command changes any other part. -/
def mayWrite : Instr → List Part
  | .registerWrite .. | .threadMemoryAccess .. | .regReq .. =>
    [.fresh, .mem, .memKey, .memErr, .tags, .resv, .mc, .core, .phys, .int, .rc, .ptn, .ctx, .brn, .prs, .bell, .syl,
    .keys, .fab, .xf, .led, .lcs, .sec, .cpt, .mod, .pwr, .subf, .vat, .tst, .snp, .oh, .fuse, .i3c]
  | .slvCmd .. =>
    [.fresh, .mem, .memErr, .tags, .resv, .mc, .core, .int, .ptn, .ctx, .prs, .i3c]
  | .queuePositionFreed .. =>
    [.core, .prs]
  | .fwdW4a8 .. | .bwdG8w4 .. | .mmA8a8 .. | .mmOz16 .. | .quant .. | .colsumBuild .. | .nodeAdd .. |
  .routedStationaryDelivery .. | .joinBufferReady .. | .sealWaitEnd .. =>
    [.mem, .memKey, .memErr, .tags, .resv, .mc, .core, .int, .rc, .ptn, .ctx, .subf, .i3c]
  | .wfwd .. | .wbwdData .. | .wbwdGrad .. =>
    [.mem, .memKey, .memErr, .tags, .resv, .mc, .core, .int, .rc, .ptn, .ctx, .i3c]
  | .claimSlot .. | .fetch .. | .cancel .. | .claimExpert .. | .releaseExpert .. | .stage .. | .unstage .. |
  .evict .. =>
    [.mem, .memKey, .memErr, .resv, .mc, .int, .ptn, .ctx, .cpt, .vat, .i3c]
  | .vatCopyDone .. =>
    [.mem, .memKey, .memErr, .resv, .mc, .core, .int, .rc, .ptn, .ctx, .vat, .i3c]
  | .vatScrubDone .. =>
    [.fresh, .mem, .memKey, .memErr, .resv, .mc, .core, .int, .rc, .ptn, .ctx, .vat, .i3c]
  | .fetchDeadline .. =>
    [.mc, .int, .ptn, .ctx, .vat, .i3c]
  | .prsInit .. | .prsReduce .. | .prsNorm .. | .prsReduceNorm .. | .prsApply .. | .prsClose .. | .prsExport .. =>
    [.fresh, .mem, .memKey, .memErr, .tags, .resv, .mc, .core, .int, .rc, .ptn, .ctx, .prs, .i3c]
  | .bell | .localBellStart =>
    [.fresh, .mem, .memKey, .memErr, .tags, .resv, .mc, .core, .phys, .int, .rc, .ptn, .ctx, .brn, .prs, .bell, .fab,
    .led, .lcs, .cpt, .pwr, .subf, .vat, .tst, .snp, .oh, .i3c]
  | .bellFrameReceive .. | .statusFrameReceive .. =>
    [.mc, .int, .rc, .ptn, .ctx, .bell, .i3c]
  | .bellFrameMissing .. | .pllLock | .domainStartMark | .bellRefLoss | .bellRefReturn =>
    [.bell]
  | .holdoverLimit =>
    [.mc, .core, .int, .rc, .ptn, .ctx, .bell, .i3c]
  | .delayMeasurement .. | .echoReceive .. =>
    [.rc, .bell]
  | .probeReceive .. | .statusFrameSend .. =>
    [.rc]
  | .governorBellAverage .. =>
    [.mc, .int, .ptn, .ctx, .pwr, .vat, .i3c]
  | .ttStart .. | .ttStop .. | .ttResume .. =>
    [.ptn]
  | .timetableBegin .. =>
    [.ptn, .ctx]
  | .slotStart .. =>
    [.mem, .memKey, .memErr, .resv, .mc, .core, .phys, .int, .rc, .ptn, .ctx, .i3c]
  | .slotDeadline .. =>
    [.mem, .memKey, .memErr, .tags, .resv, .mc, .core, .phys, .int, .rc, .ptn, .ctx, .prs, .snp, .i3c]
  | .lessonBoundary .. =>
    [.mem, .memKey, .memErr, .tags, .resv, .mc, .core, .phys, .int, .rc, .ptn, .ctx, .prs, .led, .lcs, .subf, .tst,
    .snp, .i3c]
  | .partitionCommandsEnded .. =>
    [.mem, .memKey, .memErr, .tags, .resv, .mc, .core, .int, .rc, .ptn, .ctx, .brn, .prs, .i3c]
  | .partialReloadApply .. =>
    [.core, .ptn, .sec]
  | .semRead .. | .semWrite .. | .semAdd .. | .waitGe .. | .acquire .. | .release .. | .arrive .. | .waitGen .. |
  .barRelease .. | .waitTimeout .. | .tokenLost .. | .slvBwaitSemwait .. =>
    [.mc, .core, .int, .rc, .ptn, .ctx, .i3c]
  | .replyReceive .. | .sendComplete .. =>
    [.mc, .core, .int, .rc, .ptn, .ctx, .xf, .i3c]
  | .creditReceive .. =>
    [.mc, .int, .rc, .ptn, .ctx, .i3c]
  | .sendCreditsAvailable .. | .portTrainingDone .. | .syncLaneFailure .. | .portSyncLoss .. =>
    [.mc, .core, .int, .rc, .ptn, .ctx, .fab, .xf, .i3c]
  | .retractReceive .. =>
    [.fresh, .mem, .memKey, .memErr, .tags, .resv, .mc, .core, .int, .rc, .ptn, .ctx, .xf, .subf, .i3c]
  | .runaheadVerdict .. =>
    [.mem, .memKey, .memErr, .tags, .resv, .mc, .core, .int, .rc, .ptn, .ctx, .xf, .subf, .i3c]
  | .epochReceive .. =>
    [.core, .rc, .ctx]
  | .slvCrcRaw .. =>
    [.fresh, .mem, .memErr, .tags, .resv, .mc, .core, .int, .ptn, .ctx, .i3c]
  | .slvCrcTchk .. =>
    [.mem, .memErr, .tags, .resv, .mc, .core, .int, .ptn, .ctx, .i3c]
  | .slvCrcTgen .. =>
    [.mem, .memKey, .memErr, .tags, .resv, .mc, .core, .int, .ptn, .ctx, .i3c]
  | .slvVcvt .. =>
    [.fresh, .core, .ctx]
  | .slvVfn .. | .slvctxWrite .. =>
    [.fresh, .core]
  | .slvRc .. =>
    [.fresh, .mc, .core, .int, .rc, .ptn, .ctx, .i3c]
  | .slvBwaitUntil .. | .bwaitWake .. | .threadTrap .. | .checkerRerunStart .. =>
    [.core]
  | .slvLaunch .. =>
    [.mem, .memErr, .tags, .resv, .mc, .core, .int, .ptn, .ctx, .syl, .cpt, .i3c]
  | .launchPlaced .. =>
    [.resv, .core, .ptn, .syl, .cpt]
  | .slvExit .. =>
    [.resv, .mc, .core, .int, .rc, .ptn, .ctx, .i3c]
  | .syllabusLoad .. | .syllabusCancel .. =>
    [.fresh, .mem, .memKey, .memErr, .tags, .resv, .mc, .core, .int, .rc, .ptn, .ctx, .syl, .keys, .led, .lcs, .sec,
    .cpt, .vat, .i3c]
  | .ohBase .. | .ohData .. | .ohTrain .. | .ohEval .. | .ohResult .. | .ohClear .. =>
    [.fresh, .mem, .memKey, .memErr, .resv, .mc, .int, .ptn, .ctx, .brn, .cpt, .subf, .vat, .oh, .i3c]
  | .ptnTeardown .. | .ptnHold .. | .ptnRelease .. =>
    [.resv, .mc, .core, .int, .rc, .ptn, .ctx, .brn, .prs, .led, .lcs, .sec, .snp, .i3c]
  | .attach .. | .preempt .. | .resume .. | .detach .. | .ctxCancel .. | .rebind .. =>
    [.mc, .core, .int, .rc, .ptn, .ctx, .prs, .snp, .i3c]
  | .preemptBoundExpiry .. =>
    [.mc, .core, .int, .rc, .ptn, .ctx, .prs, .i3c]
  | .landingQuiet .. =>
    [.resv, .mc, .core, .int, .rc, .ptn, .ctx, .brn, .i3c]
  | .enableQueuedApply .. =>
    [.fresh, .mem, .memKey, .memErr, .tags, .resv, .mc, .core, .int, .rc, .ptn, .ctx, .brn, .syl, .keys, .cpt, .i3c]
  | .baseCommit .. | .baseTeardown .. | .brineEnable .. | .brineDisable .. =>
    [.mc, .int, .ptn, .ctx, .brn, .led, .lcs, .i3c]
  | .brineJobStart =>
    [.brn, .cpt]
  | .brineJobEnd =>
    [.fresh, .mem, .memKey, .memErr, .resv, .mc, .core, .int, .rc, .ptn, .ctx, .brn, .keys, .xf, .led, .lcs, .cpt,
    .subf, .vat, .i3c]
  | .brineDisabled =>
    [.brn]
  | .portLight .. | .portRetry .. | .fabPtEnable .. | .fabPtDisable .. | .fabPtRetrain .. =>
    [.fab, .xf]
  | .dataFrameReceive .. =>
    [.mc, .int, .rc, .ptn, .ctx, .fab, .xf, .i3c]
  | .linkFrameReceive .. | .laneFailure .. =>
    [.mc, .int, .ptn, .ctx, .fab, .xf, .i3c]
  | .portDrainEnd .. | .fabTakeover .. | .fabMapSelApply .. =>
    [.fab]
  | .takeoverApply =>
    [.mc, .int, .ptn, .ctx, .bell, .fab, .led, .lcs, .snp, .i3c]
  | .xferSend .. | .xferFetch .. | .xferCopy .. | .xferNode .. | .xferDigest .. | .xferRetract .. =>
    [.fresh, .mem, .memKey, .memErr, .tags, .resv, .mc, .core, .int, .rc, .ptn, .ctx, .fab, .xf, .subf, .i3c]
  | .sendLanding .. =>
    [.mem, .memKey, .memErr, .tags, .resv, .mc, .core, .int, .rc, .ptn, .ctx, .xf, .i3c]
  | .sendPartialTimeout .. | .landingSpaceRelease .. =>
    [.mc, .int, .rc, .ptn, .ctx, .xf, .i3c]
  | .fetchReqServe =>
    [.mem, .memErr, .tags, .resv, .mc, .core, .int, .rc, .ptn, .ctx, .fab, .xf, .i3c]
  | .cptLight .. | .cptRetry .. =>
    [.cpt, .vat]
  | .cptLinkDown =>
    [.mem, .memKey, .memErr, .tags, .resv, .mc, .core, .int, .ptn, .ctx, .cpt, .ses, .i3c]
  | .bulkWr .. =>
    [.mem, .memKey, .memErr, .tags, .resv, .mc, .core, .int, .ptn, .ctx, .cpt, .i3c]
  | .bulkRdReq .. =>
    [.fresh, .mem, .memErr, .tags, .resv, .mc, .core, .int, .ptn, .ctx, .keys, .cpt, .i3c]
  | .fetchData .. =>
    [.mem, .memKey, .memErr, .resv, .mc, .core, .int, .rc, .ptn, .ctx, .cpt, .vat, .i3c]
  | .fetchCtl .. =>
    [.mc, .int, .ptn, .ctx, .cpt, .vat, .i3c]
  | .authHello .. =>
    [.fresh, .mc, .int, .ptn, .ctx, .cpt, .ses, .i3c]
  | .authProof .. =>
    [.fresh, .mc, .int, .ptn, .ctx, .led, .lcs, .cpt, .ses, .i3c]
  | .authClose .. =>
    [.mc, .int, .ptn, .ctx, .cpt, .ses, .i3c]
  | .authChallengeDelayed .. =>
    [.fresh, .cpt, .ses]
  | .recoverFrame .. =>
    [.mc, .int, .ptn, .ctx, .led, .lcs, .cpt, .mod, .flash, .i3c]
  | .recoveryReset .. | .lcsRecover .. | .inputSample .. | .railFault .. | .thermalSample .. | .modResetNAssert .. |
  .modResetNRelease .. | .resetModule .. | .resetWarm .. | .resetDie .. =>
    [.fresh, .cyc, .mem, .memKey, .memErr, .tags, .resv, .mc, .core, .phys, .int, .rc, .ptn, .ctx, .brn, .prs, .bell,
    .syl, .keys, .fab, .xf, .led, .lcs, .sec, .cpt, .ses, .mod, .pwr, .subf, .vat, .tst, .snp, .oh, .fuse, .flash,
    .tap, .i3c]
  | .eventSend =>
    [.cpt]
  | .bellMark =>
    [.fresh, .cpt]
  | .cptRefLost | .cptIdleFrameReceive .. =>
    [.mc, .int, .ptn, .ctx, .cpt, .i3c]
  | .advance .. | .keySet .. | .keyClear .. | .ledgerStore .. | .jrnAck .. | .fwFloor .. =>
    [.fresh, .mem, .memKey, .memErr, .resv, .mc, .core, .int, .rc, .ptn, .ctx, .brn, .prs, .syl, .keys, .xf, .led,
    .lcs, .sec, .mod, .vat, .oh, .fuse, .i3c]
  | .quoteModule .. | .quotePartition .. | .keyRelease .. | .ekDrop .. =>
    [.fresh, .mem, .memErr, .tags, .resv, .mc, .core, .int, .rc, .ptn, .ctx, .bell, .keys, .led, .lcs, .sec, .i3c]
  | .ekExpiry =>
    [.sec]
  | .memoryPatrol .. =>
    [.memErr, .mc, .int, .ptn, .ctx, .led, .lcs, .tst, .i3c]
  | .checkerRerunDone .. =>
    [.mem, .memKey, .memErr, .tags, .resv, .mc, .core, .phys, .int, .rc, .ptn, .ctx, .prs, .subf, .i3c]
  | .decisionDeadline .. =>
    [.mc, .core, .phys, .int, .rc, .ptn, .ctx, .prs, .i3c]
  | .quizComplete .. =>
    [.mc, .core, .phys, .int, .ptn, .ctx, .led, .lcs, .tst, .i3c]
  | .quizDue .. =>
    [.mc, .core, .phys, .int, .ptn, .ctx, .i3c]
  | .faultLogFlush =>
    [.mc, .int, .ptn, .ctx, .led, .lcs, .cpt, .tst, .i3c]
  | .intAck .. =>
    [.int]
  | .snpArm .. | .snpDisarm .. | .captureNow .. | .snpRestore .. | .snpDelete .. | .snpQuery .. =>
    [.mem, .memErr, .tags, .resv, .mc, .core, .int, .ptn, .ctx, .snp, .i3c]
  | .captureCopyDone .. =>
    [.ctx, .vat, .snp]
  | .snapshotCommit .. =>
    [.fresh, .mc, .int, .ptn, .ctx, .fab, .xf, .snp, .i3c]
  | .mirrorAck .. =>
    [.mc, .int, .ptn, .ctx, .fab, .xf, .snp, .i3c]
  | .mirrorTimeout .. =>
    [.mc, .int, .ptn, .ctx, .snp, .i3c]
  | .mirrorReceive .. | .mirrorRead .. =>
    [.ctx, .fab, .xf, .snp]
  | .restoreComplete .. =>
    [.fresh, .mem, .memKey, .memErr, .tags, .resv, .mc, .core, .int, .rc, .ptn, .ctx, .snp, .i3c]
  | .runQuick .. | .runFull .. | .loopFar .. | .fuse .. =>
    [.mc, .int, .ptn, .ctx, .led, .lcs, .tst, .fuse, .i3c]
  | .regionBistEnd .. =>
    [.mem, .memErr, .tags, .resv, .mc, .phys, .int, .ptn, .ctx, .fab, .led, .lcs, .tst, .i3c]
  | .testRunEnd .. =>
    [.mem, .memKey, .memErr, .resv, .mc, .phys, .int, .ptn, .ctx, .fab, .led, .lcs, .tst, .i3c]
  | .tapReset | .extest .. | .samplePreload .. | .clamp | .highz | .bypass =>
    [.tap]
  | .regAccess .. =>
    [.fresh, .mem, .memKey, .memErr, .tags, .resv, .mc, .core, .phys, .int, .rc, .ptn, .ctx, .brn, .prs, .bell, .syl,
    .keys, .fab, .xf, .led, .lcs, .sec, .cpt, .mod, .pwr, .subf, .vat, .tst, .snp, .oh, .fuse, .tap, .i3c]
  | .powerInputApplied .. =>
    [.pwr]
  | .powerGood .. =>
    [.fresh, .mc, .core, .phys, .int, .rc, .ptn, .ctx, .prs, .bell, .syl, .keys, .fab, .led, .lcs, .sec, .cpt, .mod,
    .pwr, .vat, .tst, .snp, .fuse, .tap, .i3c]
  | .resetRegion .. | .resetCore .. | .resetBank .. | .resetDeferredStart .. =>
    [.mem, .memErr, .tags, .resv, .mc, .core, .phys, .int, .rc, .ptn, .ctx, .prs, .bell, .fab, .xf, .mod, .snp, .i3c]
  | .resetComplete .. =>
    [.mc, .core, .phys, .int, .rc, .ptn, .ctx, .fab, .led, .lcs, .mod, .tst, .i3c]
  | .entdaa .. | .rstdaa | .setnewda .. | .getpid .. | .getbcr .. | .getdcr .. | .enec .. | .disec .. | .setmrl .. |
  .getmrl .. | .i3cPrivateWrite .. | .i3cPrivateRead .. =>
    [.i3c]
  | .getstatus .. =>
    [.fresh, .i3c]
  | .syncFrameForward .. =>
    [.mc, .int, .rc, .ptn, .ctx, .fab, .i3c]
  | .snapshotEngineReady =>
    [.snp]

/-- The parts that a cycle of the clock may change. -/
def tickWrites : List Part :=
  [.fresh, .cyc, .mem, .memKey, .memErr, .tags, .resv, .mc, .core, .phys, .int, .rc, .ptn, .ctx, .brn, .prs, .bell,
  .fab, .led, .lcs, .cpt, .pwr, .subf, .vat, .tst, .snp, .oh, .i3c]

/-! ### Terms of the statements about partitions -/

/-- A context command has been answered in PTN_RESULT with a status, and the context is as stated (R402). -/
def CtxAnswered (s : State) (c : Instr) (p x st : Nat) (P : Ctx → Prop) : Prop :=
  Completes c s (fun u => P (getCtx u x) ∧ (getPtn u p).resStatus = st ∧ (getPtn u p).resCtx = x ∧ (getPtn u p).done = true)

/-- A partition command has been answered in PTN_RESULT with a status, and the partition is as stated (R402). -/
def PtnAnswered (s : State) (c : Instr) (p st : Nat) (P : Ptn → Prop) : Prop :=
  Completes c s (fun u => P (getPtn u p) ∧ (getPtn u p).resStatus = st ∧ (getPtn u p).done = true)

/-! ### Terms of the Roll call statements -/

/-- A thread's operation has been answered (R298, R332): the instruction has retired, rd holds STATUS, FLAGS and VALUE, and the
thread is READY again. -/
def Replied (s u : State) (n t rd status flags value : Nat) : Prop :=
  getThr u n t = { setX { getThr s n t with
      pc := (getThr s n t).pc + 4, instret := wrap 64 ((getThr s n t).instret + 1) } rd (rcResult status flags value) with
    state := .ready, wait := .none }

/-- No other thread has changed. -/
def OnlyThread (s u : State) (n t : Nat) : Prop := ∀ m k, (m, k) ≠ (n, t) → getThr u m k = getThr s m k

/-- No other semaphore and no barrier has changed. -/
def OnlySem (s u : State) (i : Nat) : Prop := (∀ j, j ≠ i → getSem u j = getSem s j) ∧ u.rc.bar = s.rc.bar

/-- No other barrier and no semaphore has changed. -/
def OnlyBar (s u : State) (i : Nat) : Prop := (∀ j, j ≠ i → getBar u j = getBar s j) ∧ u.rc.sem = s.rc.sem

/-- The thread may issue, and its partition reaches the semaphore (R294, R295). -/
def ReachesSem (s : State) (n t i : Nat) : Prop :=
  mayIssue s n t = true ∧ (getSem s i).alloc = true ∧ (getSem s i).ptn = (ptnOfCluster s (n / 8)).getD 0 ∧ i ≠ 0xFFFF

/-- The thread may issue, and its partition reaches the barrier (R294, R295). -/
def ReachesBar (s : State) (n t i : Nat) : Prop :=
  mayIssue s n t = true ∧ (getBar s i).alloc = true ∧ (getBar s i).ptn = (ptnOfCluster s (n / 8)).getD 0

/-- No wait entry names the semaphore or the barrier. -/
def NobodyWaits (s : State) (i : Nat) : Prop := ∀ w ∈ s.rc.waits, w.tok.sem ≠ i

/-! ### Terms of the statements about threads -/

/-- An instruction of `len` bytes has retired with the effect `f` on its thread (R319); no other thread has changed. -/
def Retired (s u : State) (n t len : Nat) (f : Thr → Thr) : Prop :=
  getThr u n t = f { getThr s n t with
    pc := (getThr s n t).pc + BitVec.ofNat 64 len, instret := wrap 64 ((getThr s n t).instret + 1) }
  ∧ OnlyThread s u n t

/-- A thread has taken a precise trap (R321): to `mtvec` in M-mode, or to HALTED from M-mode with `mtvec` 0; the saved registers hold
the pc, the cause, the value and the mode; registers keep their values, no other thread and no byte of memory has changed. -/
def Trapped (s u : State) (n t cause : Nat) (tval : DWord) : Prop :=
  let h := getThr s n t
  let g := getThr u n t
  g.mepc = h.pc ∧ g.mcause = BitVec.ofNat 64 cause ∧ g.mtval = tval ∧ g.lastTrap = cause % 256 ∧ g.instret = h.instret
  ∧ g.x = h.x ∧ g.f = h.f ∧ g.v = h.v ∧ g.ctx = h.ctx ∧ g.mmode = true
  ∧ g.mstatus.extractLsb' 3 1 = 0 ∧ g.mstatus.extractLsb' 7 1 = h.mstatus.extractLsb' 3 1
  ∧ g.mstatus.extractLsb' 11 2 = (if h.mmode then 3 else 0)
  ∧ (if h.mmode = true ∧ h.mtvec = 0 then g.state = .halted ∧ g.pc = h.pc
     else g.state = h.state ∧ g.pc = h.mtvec &&& ~~~(3 : DWord))
  ∧ OnlyThread s u n t ∧ SameMemory s u

/-- An item of `len` bytes in SRAM that a thread may reach with a right, each of its lines with the tag of the access, and no word of
memory in error (R345, R347, R348). -/
def CleanSram (s : State) (n t : Nat) (r : Right) (ga len : Nat) (p : Place) : Prop :=
  itemPlace s (some n) ga len = some p ∧ badByte s (issuerOf s n t) r ga len = none ∧ p.1.isSram = true ∧ s.memErr = []
  ∧ meetsRind s p len = false ∧ Memory.wf s.mem = true
  ∧ ∀ u ∈ unitsOf (addrOf p) len, tget .unowned s.tags u = accessTag s (issuerOf s n t) (p.1, p.2 + (64 * u - addrOf p))

/-! ### Terms of the statements about the Vat -/

/-- An operation at a request port has been answered with a status (R155, R157, R179). -/
def PortAnswered (s : State) (c : Instr) (port st : Nat) (P : State → Prop) : Prop :=
  Completes c s (fun u => (getPort u port).done = true ∧ (getPort u port).busy = false ∧ (getPort u port).status = st ∧ P u)

/-! ### Terms of the transfer statements -/

/-- The XFER `e` of a core is the one that the transfer engines start next, and its OP is `op` (R455, R462). -/
def XferHead (s : State) (n op : Nat) (e : QEntry) (q : List QEntry) : Prop :=
  (getCore s n).xferQ = e :: q ∧ (getCore s n).xferRun = none ∧ inService s n = true ∧ oldestXfer s n e = true
    ∧ bits (descWord e.desc 0) 0 8 = op ∧ e.issuer.core = n

/-- The state in which the transfer engines have taken it. -/
def xferTaken (s : State) (n : Nat) (e : QEntry) (q : List QEntry) : State :=
  modCore s n (fun c => { c with xferQ := q, xferRun := some e })

/-- The XFER passes the checks of R631. -/
def XferSound (v : State) (e : QEntry) : Prop :=
  descCrcOk e.desc = true ∧ (parseXfer e.desc).epoch = (getCore v e.issuer.core).epoch ∧ xferFieldsOk (parseXfer e.desc) = true
    ∧ xferOwnerOk v e.issuer (parseXfer e.desc) = true ∧ xAddrFault v e.issuer (parseXfer e.desc) = none

/-- The core's XFER has ended with the STATUS (R474); with STATUS 0 CORE_XFER_STATUS keeps what it held in `t`. -/
def XferEnded (t u : State) (n op status : Nat) : Prop :=
  (getCore u n).xferRun = none ∧ (getCore u n).xLastOp = op
    ∧ (getCore u n).xStatus = (if status = 0 then (getCore t n).xStatus else status)
    ∧ (getCore u n).xFaultValid = ((getCore t n).xFaultValid || status != 0)

/-- A send is under way on a port, with its bytes and no credits wanting (R306, R441). -/
def SendUnderWay (u : State) (core : Option Nat) (lmn pool seq port : Nat) (wire : List Byte) : Prop :=
  ∃ y ∈ u.xf.sends, y.core = core ∧ y.key = (lmn, pool, seq) ∧ y.port = some port ∧ y.need = 0 ∧ y.wire = wire

/-! ### Terms of the control port statements -/

/-- The port has been handed a frame: it has left, or waits for its credit (R480). -/
def Sent (u : State) (f : CptFrame) : Prop :=
  ∃ g, (g ∈ u.cpt.tx ∨ g ∈ u.cpt.wait) ∧ g.ftype = f.ftype ∧ g.tag = f.tag ∧ g.session = f.session ∧ g.addr = f.addr
    ∧ g.arg = f.arg ∧ g.last = f.last ∧ g.isSealed = f.isSealed ∧ g.payload = f.payload

/-- A sound frame that comes in its turn while the link is UP (R477, R479). -/
def CptTurn (s : State) (f : CptFrame) : Prop :=
  cptUp s = true ∧ f.fcrcOk = true ∧ f.payload.length ≤ 1024 ∧ f.rsvd = 0 ∧ f.seq = wrap 16 (s.cpt.rxSeq + 1)

/-- The state in which the port has taken such a frame, before the frame's own effect. -/
def cptTaken (s : State) (f : CptFrame) : State :=
  let t := cptReverse s f
  { t with cpt := { t.cpt with
    rxSeq := f.seq, discarding := false, freedC := if cptBulk f then t.cpt.freedC else t.cpt.freedC + 1,
    freedB := if cptBulk f then t.cpt.freedB + 1 else t.cpt.freedB } }

end Sys2Proof.Machine
end

