-- ==== Sys2Proof/Certificates/Slice0/Obligations.lean ====
section
/-! DEFINITION. The statements for the provers. -/

open Sys2Proof Sys2Proof.Machine

/-- The block's interface: a step with the command `c` at the front of the queue is the command's effect on the state with the
queue's rest. Model's readings: log 2. -/
def Obligations.StepRunsFront : Prop :=
  ∀ (c : Instr) (cs : List Instr) (s : State), s.pending = c :: cs → step s = exec c { s with pending := cs }

/-- R249: with an empty queue one core cycle passes (the model's choice, log 3), in which the sync lanes send a frame slot where one
begins (log 133): while the Bell counts, the sub-Bell counter goes up to 2,047, and the cycle after that is a Bell instant, where
the Bell counter has gone up by 1 modulo 2^64 and the sub-Bell counter stands at 0. -/
def Obligations.IdleStepCountsTheBell : Prop :=
    ∀ s : State, s.pending = [] → counting s = true →
    (s.bell.sub < 2047 →
      step s = .next { laneTick { s with cyc := s.cyc + 1 } with bell := { s.bell with sub := s.bell.sub + 1 } })
    ∧ (2047 ≤ s.bell.sub → ∃ t, step s = .next t ∧ t = bellInstant (laneTick { s with cyc := s.cyc + 1 }) ∧ t.bell.sub = 0
      ∧ t.bell.count = (s.bell.count + 1) % 2 ^ 64)

/-- The state at the first power, before power good (log 1, log 16): nothing waits, memory lists nothing (log 5), the life cycle is
MANUFACTURE with no fuse burnt, the journal is empty, no partition, context, semaphore, barrier or pool is in use. The memory of the
state at reset is in its canonical form. Model's readings: log 5. -/
def Obligations.ResetState : Prop :=
  (  State.reset.pending = [] ∧ State.reset.mod.ready = false ∧ State.reset.fuse.lc = .manufacture ∧ State.reset.fuse.identity = false
  ∧ State.reset.led.seq = 0 ∧ State.reset.led.journal = []
  ∧ ∀ n, readByte State.reset n = 0 ∧ (getPtn State.reset n).state = .ungranted ∧ (getCtx State.reset n).state = .free
    ∧ (getSem State.reset n).alloc = false ∧ (getBar State.reset n).alloc = false ∧ (getPool State.reset n).bound = false)
  ∧ (Memory.wf State.reset.mem = true)

/-- From every state with memory in its canonical form every step leads to one: no command and no cycle breaks the form. Model's
readings: log 5. -/
def Obligations.EveryStepKeepsMemoryCanonical : Prop :=
  ∀ s t : State, Memory.wf s.mem = true → step s = .next t → Memory.wf t.mem = true

/-- R496, R497, R511, R521, R583: no step takes back what a fuse holds: the life cycle never goes back, the identity fuse stays
burnt, the firmware floor never falls, a permanent repair stays. R507: SEQ of the Ledger journal never goes back. A step takes one
command from the front of the queue and never adds one: the queue is the sender's. Model's readings: log 103. -/
def Obligations.FusesLedgerAndQueue : Prop :=
  (∀ s t : State, step s = .next t → FusesKept s.fuse t.fuse)
  ∧ (∀ s t : State, step s = .next t → s.led.seq ≤ t.led.seq)
  ∧ (∀ s t : State, step s = .next t → t.pending = s.pending.tail)

/-- The frame of every command: a part of the module outside the command's footprint is the same after it, all of memory among them
where the footprint does not hold memory; and of a cycle of the clock. -/
def Obligations.CommandsKeepTheirFootprint : Prop :=
    (∀ (c : Instr) (s t : State), exec c s = .next t →
    t.pending = s.pending ∧ (∀ p, p ∉ mayWrite c → samePart p s t) ∧ (.mem ∉ mayWrite c → SameMemory s t))
  ∧ ∀ (s t : State), s.pending = [] → step s = .next t → ∀ p, p ∉ tickWrites → samePart p s t

/-- R588: the machine stops only for an input beyond the absolute maximum ratings, under which the behaviour is not defined: past 60
V either way, or above 75 A once the input has stood above its limit for 1 ms; every other command answers a next state. Model's
readings: log 119. -/
def Obligations.OnlyStopIsBeyondAbsoluteMaximum : Prop :=
    ∀ (c : Instr) (s : State), (∃ t, exec c s = .next t)
    ∨ (exec c s = .fault .beyondAbsoluteMaximum ∧
      ((∃ v b, c = .powerInputApplied v b ∧ (6000 < v ∨ v < -6000))
      ∨ ∃ v i, c = .inputSample v i ∧ (6000 < v ∨ v < -6000 ∨ (7500 < i ∧ 1000 ≤ s.pwr.overUs))))

/-- R297: an operation of a thread on a semaphore of this module that it reaches, on which nothing waits. READ and a WAIT_GE that is
satisfied answer the value and change no semaphore; WRITE stores and clears the flags; ADD saturates and sets SAT; each answers the
value and flags after it. -/
def Obligations.SemaphoreOpsOfThreads : Prop :=
    ∀ (s : State) (n t i operand timeout rd : Nat), ReachesSem s n t i → NobodyWaits s i →
    Completes (.semRead (.mesh n t i operand timeout rd)) s (fun u =>
      Replied s u n t rd 0 (getSem s i).flags (getSem s i).value ∧ u.rc = s.rc ∧ OnlyThread s u n t)
    ∧ (heldByAny s i = false → Completes (.semWrite (.mesh n t i operand timeout rd)) s (fun u =>
      getSem u i = { getSem s i with value := operand, rev := false, abt := false, rej := false, sat := false }
      ∧ Replied s u n t rd 0 0 operand ∧ OnlySem s u i ∧ OnlyThread s u n t))
    ∧ Completes (.semAdd (.mesh n t i operand timeout rd)) s (fun u =>
      let x := getSem s i
      let past := decide (0xFFFFFFFF < x.value + operand)
      getSem u i = { x with value := min (x.value + operand) 0xFFFFFFFF, sat := x.sat || past }
      ∧ Replied s u n t rd (if past then 5 else 0) (getSem u i).flags (getSem u i).value
      ∧ OnlySem s u i ∧ OnlyThread s u n t)
    ∧ (operand ≤ (getSem s i).value → Completes (.waitGe (.mesh n t i operand timeout rd)) s (fun u =>
      Replied s u n t rd 0 (getSem s i).flags (getSem s i).value ∧ u.rc = s.rc ∧ OnlyThread s u n t))
    ∧ ((getSem s i).value < operand → timeout = 0 → Completes (.waitGe (.mesh n t i operand timeout rd)) s (fun u =>
      Replied s u n t rd 2 (getSem s i).flags (getSem s i).value ∧ u.rc = s.rc ∧ OnlyThread s u n t))
    ∧ ((getSem s i).value < operand → timeout ≠ 0 → Completes (.waitGe (.mesh n t i operand timeout rd)) s (fun u =>
      (getThr u n t).state = .waitRc
      ∧ (∃ w : WaitEnt, u.rc = { s.rc with waits := s.rc.waits ++ [w] } ∧ w.tok.sem = i ∧ w.tok.operand = operand
          ∧ w.deadline = (if timeout = 0xFFFFFFFF then none else some (now s + timeout)))
      ∧ OnlyThread s u n t))

/-- R302: a thread takes and gives units of a semaphore of PARTITION scope that its context may hold, and its context's hold entry
counts them; nothing else waits on the semaphore. Model's readings: log 22. -/
def Obligations.AcquireAndRelease : Prop :=
    ∀ (s : State) (n t i operand timeout rd : Nat), ReachesSem s n t i → NobodyWaits s i → (getSem s i).scope = 0 →
    ctxValid s n t = true → 0 < operand →
    let c := (getThr s n t).ctx
    let entry := (getCtx s c).holds.find? (fun h => h.sem == i)
    let units (v : State) := (((getCtx v c).holds.filter (fun h => h.sem == i)).map Hold.units).sum
    ((hasHold (getCtx s c) i = true ∨ (getCtx s c).holds.length < 8) → operand ≤ (getSem s i).value →
      Completes (.acquire (.mesh n t i operand timeout rd)) s (fun u =>
        getSem u i = { getSem s i with value := (getSem s i).value - operand }
        ∧ units u = units s + operand
        ∧ Replied s u n t rd 0 (getSem s i).flags ((getSem s i).value - operand) ∧ OnlySem s u i ∧ OnlyThread s u n t))
    ∧ (hasHold (getCtx s c) i = false → 8 ≤ (getCtx s c).holds.length →
      Completes (.acquire (.mesh n t i operand timeout rd)) s (fun u =>
        Replied s u n t rd 7 (getSem s i).flags (getSem s i).value ∧ u.rc = s.rc ∧ u.ctx = s.ctx ∧ OnlyThread s u n t))
    ∧ (∀ h, entry = some h → operand ≤ h.units → (getSem s i).value + operand ≤ 0xFFFFFFFF →
      Completes (.release (.mesh n t i operand timeout rd)) s (fun u =>
        getSem u i = { getSem s i with value := (getSem s i).value + operand } ∧ units u + operand = units s
        ∧ Replied s u n t rd 0 (getSem s i).flags ((getSem s i).value + operand) ∧ OnlySem s u i ∧ OnlyThread s u n t))
    ∧ ((∀ h ∈ (getCtx s c).holds, h.sem = i → h.units < operand) →
      Completes (.release (.mesh n t i operand timeout rd)) s (fun u =>
        Replied s u n t rd 8 (getSem s i).flags (getSem s i).value ∧ u.rc = s.rc ∧ u.ctx = s.ctx ∧ OnlyThread s u n t))

/-- R305, R297: ARRIVE of a thread at a barrier counts; the arrival that makes COUNT reach TARGET of a barrier without a parent
begins the next generation; WAIT_GEN is answered once the generation differs; a thread's BAR_RELEASE is malformed, and one of the
parent's module completes the barrier that waits for it. Each answer carries ABT as the barrier holds it. R305: a BAR_RELEASE of a
parent completes the barrier of this module that has reported to it and waits for it. Model's readings: log 19. -/
def Obligations.BarrierOps : Prop :=
  (  ∀ (s : State) (n t i operand timeout rd : Nat), ReachesBar s n t i → NobodyWaits s i →
    let b := getBar s i
    let k := operand % 65536
    (operand / 65536 % 65536 = b.gen → b.completing = false → 0 < k → b.count + k < b.target →
      Completes (.arrive (.mesh n t i operand timeout rd)) s (fun u =>
        getBar u i = { b with count := b.count + k } ∧ Replied s u n t rd 0 (4 * b2n b.abt) (b.gen * 65536 + (b.count + k))
        ∧ OnlyBar s u i ∧ OnlyThread s u n t))
    ∧ (operand / 65536 % 65536 = b.gen → b.completing = false → 0 < k → b.count + k = b.target → b.upLmn = 0x3FF →
      b.children = [] → Completes (.arrive (.mesh n t i operand timeout rd)) s (fun u =>
        getBar u i = { b with gen := wrap 16 (b.gen + 1), count := 0 }
        ∧ Replied s u n t rd 0 (4 * b2n b.abt) (wrap 16 (b.gen + 1) * 65536) ∧ OnlyBar s u i ∧ OnlyThread s u n t))
    ∧ (operand / 65536 % 65536 ≠ b.gen → 0 < k → Completes (.arrive (.mesh n t i operand timeout rd)) s (fun u =>
        Replied s u n t rd 10 (4 * b2n b.abt) (b.gen * 65536 + b.count) ∧ u.rc = s.rc ∧ OnlyThread s u n t))
    ∧ (operand / 65536 % 65536 ≠ b.gen → Completes (.waitGen (.mesh n t i operand timeout rd)) s (fun u =>
        Replied s u n t rd 0 (4 * b2n b.abt) (b.gen * 65536 + b.count) ∧ u.rc = s.rc ∧ OnlyThread s u n t))
    ∧ (operand / 65536 % 65536 = b.gen → timeout = 0 → Completes (.waitGen (.mesh n t i operand timeout rd)) s (fun u =>
        Replied s u n t rd 2 (4 * b2n b.abt) (b.gen * 65536 + b.count) ∧ u.rc = s.rc ∧ OnlyThread s u n t))
    ∧ Completes (.barRelease (.mesh n t i operand timeout rd)) s (fun u =>
        Replied s u n t rd 6 (4 * b2n b.abt) (b.gen * 65536 + b.count) ∧ u.rc = s.rc ∧ OnlyThread s u n t))
  ∧ (  ∀ (s : State) (port : Nat) (f : List Byte) (i : Nat), rcOpOf (frameBits f 223 220) = some .barRelease → frType f = 2 →
    isOwnLmn s (frDst f) = true → fcrcOk f = true → frameBits f 227 224 = 0 → tokenResOk f .barRelease = true →
    frameBits f 185 178 = bankEpoch s (bankOfBar (frameBits f 201 186)) →
    let up (e : Nat × Bar) : Bool := e.2.alloc && e.2.completing && e.2.upLmn == frSrc f && e.2.upBar == frameBits f 201 186
      && e.2.gen == frameBits f 161 130 / 65536 % 65536 && e.2.form == frameBits f 97 86
    tsorted none s.rc.bar = true → (∀ e ∈ s.rc.bar, up e = true ↔ e.1 = i) → up (i, getBar s i) = true →
    (getBar s i).children = [] → NobodyWaits s i →
    Completes (.barRelease (.frame port f)) s (fun u =>
      getBar u i = { getBar s i with gen := wrap 16 ((getBar s i).gen + 1), count := 0, completing := false } ∧ OnlyBar s u i))

/-- R287, R296, R311: a TOKEN frame for this module whose FCRC and reserved contents are right is the operation it names, at its
bank, with the operands of its fields and its TIMEOUT as deadline; one that names an epoch other than the bank's is answered
ABORT_RESET and changes no semaphore and no barrier. R287, R288, R291, R312, R441: STATUS frames go out on the ports that send them
and a neighbour's is kept; an EPOCH frame gives a peer's bank its epoch and ends the requests outstanding to it; a frame for another
module leaves on its port, one whose TTL is used up, or one of a reserved TYPE, is dropped and counted. Model's readings: log 18,
24. -/
def Obligations.TokenStatusAndEpochFrames : Prop :=
  (  ∀ (s : State) (port : Nat) (f : List Byte) (op : RcOp), rcOpOf (frameBits f 223 220) = some op → frType f = 2 →
    isOwnLmn s (frDst f) = true → fcrcOk f = true → frameBits f 227 224 = 0 → tokenResOk f op = true →
    let tok := frameTok f port op
    let c : Instr := match op with
      | .read => .semRead (.frame port f) | .write => .semWrite (.frame port f) | .add => .semAdd (.frame port f)
      | .waitGe => .waitGe (.frame port f) | .acquire => .acquire (.frame port f) | .release => .release (.frame port f)
      | .arrive => .arrive (.frame port f) | .waitGen => .waitGen (.frame port f) | .barRelease => .barRelease (.frame port f)
    exec c s = .next (bankOp s tok (waitDeadline s tok.timeout))
    ∧ (tok.epoch ≠ bankEpoch s tok.bank → Completes c s (fun u => u.rc.sem = s.rc.sem ∧ u.rc.bar = s.rc.bar)))
  ∧ (  (∀ s : State, Completes (.statusFrameSend none) s (fun u => u.rc.statusSent = some (statusMsg s)
    ∧ (∀ p ∈ statusPorts s, ∃ x ∈ u.rc.txq, x.port = p ∧ x.bytes = statusFrame (statusMsg s))
    ∧ u.rc.sem = s.rc.sem ∧ u.rc.waits = s.rc.waits))
  ∧ (∀ (s : State) (p k : Nat), formOf s p ≠ 0 → k < 8 → portUsable s k = true →
    Completes (.statusFrameSend (some p)) s (fun u => ∃ x ∈ u.rc.txq, x.port = k ∧ x.bytes = ptnStatusFrame s p))
  ∧ (∀ (s : State) (port : Nat) (f : List Byte), frType f = 6 → fcrcOk f = true → frameBits f 227 224 = 0 →
    frameBits f 223 220 = 0 → frameBits f 213 213 = 0 → frameBits f 201 32 = 0 →
    Completes (.statusFrameReceive port f) s (fun u =>
      tget none u.rc.neighbours port = some {
        lmn := frSrc f, ready := frameBits f 219 219 == 1, bellState := frameBits f 218 216, role := frameBits f 215 214,
        cover := frameBits f 212 203 }
      ∧ ∀ q, q ≠ port → tget none u.rc.neighbours q = tget none s.rc.neighbours q))
  ∧ (∀ (s : State) (port : Nat) (f : List Byte), frType f = 9 → fcrcOk f = true → frameBits f 227 224 = 0 →
    frameBits f 201 32 = 0 → frameBits f 223 220 = 0 → frameBits f 219 210 < 2 →
    Completes (.epochReceive port f) s (fun u =>
      tget 0 u.rc.peerEpoch (2 * frSrc f + frameBits f 219 210) = frameBits f 209 202
      ∧ ∀ o ∈ u.rc.out, ¬(o.lmn = frSrc f ∧ o.tok.bank = frameBits f 219 210 ∧ o.held = none ∧ o.parked = false)))
  ∧ (∀ (s : State) (port : Nat) (f : List Byte), 2 ≤ frType f → frType f ≤ 5 → isOwnLmn s (frDst f) = false →
    (frTtl f = 0 → Completes (.syncFrameForward port f) s (fun u => u = { s with rc.errRes := satInc 16 s.rc.errRes }))
    ∧ (∀ p, frTtl f ≠ 0 → routePort s (frDst f) = some p → Completes (.syncFrameForward port f) s (fun u =>
        let g := patch f 28 (leBytes 4 (field f 28 4 - 2 ^ 4))
        u = syncSend s p (frType f) (if fcrcOk f then patch g 0 (leBytes 4 (crc32c (g.drop 4))) else g)))
    ∧ (frTtl f ≠ 0 → routePort s (frDst f) = none → Completes (.syncFrameForward port f) s (fun u =>
        (tget default u.fab.port port).drop = satInc 32 (tget default s.fab.port port).drop
        ∧ u.int.lastCode = FaultCode.routeNone.code ∧ u.rc = s.rc)))
  ∧ (∀ (s : State) (port : Nat) (f : List Byte), 10 ≤ frType f → fcrcOk f = true →
    Completes (.syncFrameForward port f) s (fun u => u = { s with rc.errRes := satInc 16 s.rc.errRes })))

/-- R300, R313: a wait whose deadline has passed ends with TIMEOUT and leaves the table; a REPLY ends the request it belongs to and
gives the thread its result, one that belongs to none is dropped and counted; a request without a REPLY in time ends with LOST.
R307: a CREDIT gives a bound pool of the context COUNT credits; a count beyond ALLOC leaves ALLOC and raises CREDIT_OVERFLOW; a
CREDIT for a pool of another context raises CREDIT_FOREIGN and changes no pool. Model's readings: log 18, 24. -/
def Obligations.WaitsRepliesAndCredits : Prop :=
  (  (∀ (s : State) (k : Nat) (w : WaitEnt) (n t tag rd : Nat), s.rc.waits[k]? = some w → w.parked = false →
    judgeNow s w.deadline = .timeout → w.tok.src = .thread n t → (getThr s n t).state = .waitRc →
    (getThr s n t).wait = .rc tag rd → w.tok.op = .waitGe →
    Completes (.waitTimeout k) s (fun u =>
      u.rc = { s.rc with waits := eraseFirst (· == w) s.rc.waits }
      ∧ getThr u n t = { setX (getThr s n t) rd (rcResult 2 (getSem s w.tok.sem).flags (getSem s w.tok.sem).value) with
          state := .ready, wait := .none }))
  ∧ (∀ (s : State) (port : Nat) (f : List Byte), frType f = 3 → isOwnLmn s (frDst f) = true → fcrcOk f = true →
    frameBits f 227 224 = 0 → frameBits f 143 32 = 0 → frameBits f 219 216 < 13 → frameBits f 219 216 ≠ 9 →
    (rcOpOf (frameBits f 223 220)).isSome = true →
    let mine (o : OutReq) : Bool := o.tok.rtag == frameBits f 207 192 && o.lmn == frSrc f && o.held.isNone
    (s.rc.out.find? mine = none → Completes (.replyReceive port f) s (fun u =>
      u = { s with rc.stale := satInc 32 s.rc.stale, rc.staleSeen := true }))
    ∧ (∀ (o : OutReq) (n t tag rd : Nat), s.rc.out.find? mine = some o → o.parked = false → o.tok.src = .thread n t →
      (getThr s n t).state = .waitRc → (getThr s n t).wait = .rc tag rd →
      epochOlder (frameBits f 215 208) (tget 0 s.rc.peerEpoch (2 * o.lmn + o.tok.bank)) = false →
      Completes (.replyReceive port f) s (fun u =>
        u.rc.out = eraseFirst (· == o) s.rc.out
        ∧ getThr u n t = { setX (getThr s n t) rd
              (rcResult (frameBits f 219 216) (frameBits f 159 156) (frameBits f 191 160)) with
            state := .ready, wait := .none }
        ∧ OnlyThread s u n t)))
  ∧ (∀ (s : State) (tag : Nat) (o : OutReq) (n t k rd : Nat),
    s.rc.out.find? (fun o => o.tok.rtag == tag && o.held.isNone) = some o → judgeNow s o.deadline = .timeout →
    o.parked = false → o.tok.src = .thread n t → (getThr s n t).state = .waitRc → (getThr s n t).wait = .rc k rd →
    Completes (.tokenLost tag) s (fun u =>
      u.rc.out = eraseFirst (· == o) s.rc.out ∧ u.rc.lost = satInc 32 s.rc.lost ∧ u.rc.lostSeen = true
      ∧ (∃ flags value, flags < 16 ∧ value < 2 ^ 32
        ∧ getThr u n t = { setX (getThr s n t) rd (rcResult 11 flags value) with state := .ready, wait := .none })
      ∧ OnlyThread s u n t)))
  ∧ (  ∀ (s : State) (port : Nat) (f : List Byte), frType f = 4 → isOwnLmn s (frDst f) = true → fcrcOk f = true →
    frameBits f 227 224 = 0 → frameBits f 182 32 = 0 → frameBits f 210 195 ≠ 0 →
    let i := frameBits f 223 211
    let p := getPool s i
    let n := frameBits f 210 195
    (p.bound = true → p.ctx = frameBits f 194 183 → p.credits + n ≤ p.alloc →
      Completes (.creditReceive port f) s (fun u => u = modPool s i (fun p => { p with credits := p.credits + n })))
    ∧ (p.bound = true → p.ctx = frameBits f 194 183 → p.alloc < p.credits + n →
      Completes (.creditReceive port f) s (fun u => getPool u i = { p with credits := p.alloc }
        ∧ u.rc.overflowSeen = true ∧ u.int.lastCode = FaultCode.creditOverflow.code
        ∧ ∀ j, j ≠ i → getPool u j = getPool s j))
    ∧ ((p.bound = false ∨ p.ctx ≠ frameBits f 194 183) → Completes (.creditReceive port f) s (fun u =>
        u.rc = { s.rc with overflowSeen := true } ∧ u.int.lastCode = FaultCode.creditForeign.code)))

/-- R297, R332, R333: SLV.RC is the operation that its operands name, at this module's banks or as an outstanding request at another
module's, but for a BAR_RELEASE, which is answered MALFORMED; SLV.BWAIT UNTIL goes on with the current stamp once its Bell has begun
and sleeps before; SLV.BWAIT SEMWAIT is answered where its semaphore has reached the value, with OK, LATE or TIMEOUT as the current
stamp lies before, at or after the stamp of its Bell, and else waits in WAIT_BELL as WAIT_GE does with that stamp as its deadline.
R333: a thread that sleeps until a Bell goes on with the current stamp once the Bell has begun. Model's readings: log 76. -/
def Obligations.RollCallInstructions : Prop :=
  (  ∀ (s : State) (n t rd : Nat), mayIssue s n t = true →
    (∀ rs1 rs2 op, rcOpOf (bits rs1 28 4) = some op → isOwnLmn s (bits rs1 16 10) = true →
      exec (.slvRc n t rd rs1 rs2) s =
        .next (rcRow s op (.mesh n t (bits rs1 0 16) (bits rs2 0 32) (bits rs1 32 32) rd)))
    ∧ (∀ rs1 rs2, rcOpOf (bits rs1 28 4) = some .barRelease → isOwnLmn s (bits rs1 16 10) = false →
      Completes (.slvRc n t rd rs1 rs2) s (fun u => (∃ flags value, flags < 16 ∧ value < 2 ^ 32
        ∧ getThr u n t = setX { getThr s n t with
            pc := (getThr s n t).pc + 4, instret := wrap 64 ((getThr s n t).instret + 1) } rd (rcResult 6 flags value))
        ∧ u.rc = s.rc ∧ OnlyThread s u n t))
    ∧ (∀ rs1 rs2 op, rcOpOf (bits rs1 28 4) = some op → op ≠ .barRelease → isOwnLmn s (bits rs1 16 10) = false →
      Completes (.slvRc n t rd rs1 rs2) s (fun u => (getThr u n t).state = .waitRc
        ∧ (∃ o : OutReq, u.rc.out = s.rc.out ++ [o] ∧ o.lmn = bits rs1 16 10 ∧ o.tok.op = op ∧ o.tok.sem = bits rs1 0 16
            ∧ o.tok.operand = bits rs2 0 32)
        ∧ u.rc.sem = s.rc.sem ∧ u.rc.bar = s.rc.bar ∧ OnlyThread s u n t))
    ∧ (∀ bell, counting s = true → bell ≤ s.bell.count → Completes (.slvBwaitUntil n t rd bell) s (fun u =>
        getThr u n t = setX { getThr s n t with
          pc := (getThr s n t).pc + 4, instret := wrap 64 ((getThr s n t).instret + 1) } rd (BitVec.ofNat 64 (now s))
        ∧ u = { s with core := u.core } ∧ OnlyThread s u n t))
    ∧ (∀ bell, ¬(counting s = true ∧ bell ≤ s.bell.count) → Completes (.slvBwaitUntil n t rd bell) s (fun u =>
        (getThr u n t).state = .waitBell ∧ (getThr u n t).wait = .bell bell rd ∧ u = { s with core := u.core }
        ∧ OnlyThread s u n t))
    ∧ (∀ bell rs2, ReachesSem s n t (bits rs2 0 16) → bits rs2 16 32 ≤ (getSem s (bits rs2 0 16)).value → counting s = true →
      Completes (.slvBwaitSemwait n t rd bell rs2) s (fun u =>
        let st := if now s < stampOf bell 0 then 0 else if now s = stampOf bell 0 then 1 else 2
        Replied s u n t rd st (getSem s (bits rs2 0 16)).flags (getSem s (bits rs2 0 16)).value ∧ u.rc = s.rc
        ∧ OnlyThread s u n t))
    ∧ (∀ bell rs2, ReachesSem s n t (bits rs2 0 16) → (getSem s (bits rs2 0 16)).value < bits rs2 16 32 →
      Completes (.slvBwaitSemwait n t rd bell rs2) s (fun u => (getThr u n t).state = .waitBell
        ∧ (∃ w : WaitEnt, u.rc = { s.rc with waits := s.rc.waits ++ [w] } ∧ w.tok.op = .waitGe ∧ w.tok.src = .thread n t
          ∧ w.tok.sem = bits rs2 0 16 ∧ w.tok.operand = bits rs2 16 32 ∧ w.deadline = some (stampOf bell 0))
        ∧ OnlyThread s u n t)))
  ∧ (  ∀ (s : State) (n t bell rd : Nat), (getThr s n t).state = .waitBell → (getThr s n t).wait = .bell bell rd →
    counting s = true → bell ≤ s.bell.count → Completes (.bwaitWake n t) s (fun u =>
      getThr u n t = { setX (getThr s n t) rd (BitVec.ofNat 64 (now s)) with state := .ready, wait := .none }
      ∧ u = { s with core := u.core } ∧ OnlyThread s u n t))

/-- R113, R115, R529: a D-array command at the head of the queue of a core that may start it is tried with its checks and, where the
attempt completes, leaves the queue, shows its OP in LASTOP and gives its DONE semaphore an increment without flags; one that its
core rejects shows its fault code and sets REJ; one of an old epoch sets ABT. R113, R111: a D-array command whose descriptor's CRC
is wrong or whose OP is reserved is rejected with ACD_INVALID before anything is read or written; one whose epoch is not the core's
is refused before any other check. R201, R168: a W-array command at the head of its queue is tried with its checks; where the
attempt completes it leaves the queue and increments its DONE semaphore; a rejected one sets REJ, one of an old epoch ABT. Model's
readings: log 11, 26, 36, 37, 38, 39, 40. -/
def Obligations.ArrayCommands : Prop :=
  (  ∀ (s : State) (n op : Nat) (up : ArrayUpset) (e : QEntry) (q : List QEntry) (c : Instr),
    (c, op) ∈ [(Instr.fwdW4a8 n up, 1), (.bwdG8w4 n up, 2), (.mmA8a8 n up, 3), (.mmOz16 n up, 4), (.quant n up, 5),
      (.colsumBuild n up, 6), (.nodeAdd n up, 7)] →
    (getCore s n).acdQ = e :: q → (getCore s n).acdRun = none → mayStart s n = true → bits (descWord e.desc 0) 0 8 = op →
    let r := runAcd (modCore s n (fun c => { c with acdQ := q, acdRun := some e })) up e none
    let done := bits (descWord e.desc 14) 0 16
    (r.2 = .done → Completes c s (fun u => u = doneAdd (modCore r.1 n (fun c => { c with
        acdRun := none, acdWait := .none, lastOp := op })) e.issuer.ptn done .plain))
    ∧ (∀ f, r.2 = .fault f → Completes c s (fun u => u = doneAdd (modCore r.1 n (fun c => { c with
        acdRun := none, acdWait := .none, lastOp := op, faultValid := true, fault := f.code })) e.issuer.ptn done .rej))
    ∧ (r.2 = .stale → Completes c s (fun u => u = doneAdd (modCore r.1 n (fun c => { c with
        acdRun := none, acdWait := .none })) e.issuer.ptn done .abt)))
  ∧ (  ∀ (s : State) (n op : Nat) (up : ArrayUpset) (e : QEntry) (q : List QEntry) (c : Instr),
    (c, op) ∈ [(Instr.fwdW4a8 n up, 1), (.bwdG8w4 n up, 2), (.mmA8a8 n up, 3), (.mmOz16 n up, 4), (.quant n up, 5),
      (.colsumBuild n up, 6), (.nodeAdd n up, 7)] →
    (getCore s n).acdQ = e :: q → (getCore s n).acdRun = none → mayStart s n = true → e.issuer.core = n →
    bits (descWord e.desc 14) 0 16 = 0xFFFF →
    let o := bits (descWord e.desc 0) 0 8
    (1 ≤ o → o ≤ 7 → o = op) →
    ((descCrcOk e.desc = false ∨ ((parseAcd e.desc).epoch = (getCore s n).epoch ∧ (o = 0 ∨ 8 ≤ o))) →
      Completes c s (fun u => u.mem = s.mem ∧ (getCore u n).acdQ = q ∧ (getCore u n).acdRun = none
        ∧ (getCore u n).faultValid = true ∧ (getCore u n).fault = FaultCode.acdInvalid.code
        ∧ u.int.lastCode = FaultCode.acdInvalid.code))
    ∧ (descCrcOk e.desc = true → (parseAcd e.desc).epoch ≠ (getCore s n).epoch →
      Completes c s (fun u => u.mem = s.mem ∧ u.int = s.int ∧ (getCore u n).acdQ = q ∧ (getCore u n).acdRun = none
        ∧ (getCore u n).faultValid = (getCore s n).faultValid)))
  ∧ (  ∀ (s : State) (n op : Nat) (up : ArrayUpset) (e : QEntry) (q : List QEntry) (c : Instr),
    (c, op) ∈ [(Instr.wfwd n up, 1), (.wbwdData n up, 2), (.wbwdGrad n up, 3)] →
    (getCore s n).wcdQ = e :: q → (getCore s n).wcdRun = none → mayStart s n = true → bits (descWord e.desc 0) 0 8 = op →
    let r := runWcd (modCore s n (fun c => { c with wcdQ := q, wcdRun := some e })) up e none
    let done := bits (descWord e.desc 2) 16 16
    let clear (v : State) := modCore v n (fun c => { c with wcdRun := none, wcdWait := .none })
    (r.2 = .done → Completes c s (fun u => u = doneAdd (clear r.1) e.issuer.ptn done .plain))
    ∧ (∀ f, r.2 = .fault f → Completes c s (fun u => u = doneAdd (clear r.1) e.issuer.ptn done .rej))
    ∧ (r.2 = .stale → Completes c s (fun u => u = doneAdd (clear r.1) e.issuer.ptn done .abt)))

/-- R84, R134, R135: on a sound array the integer increments of a row are exact products, the checker agrees in every pass, and the
correction term is subtracted after it. Model's readings: log 15. -/
def Obligations.IntegerRowAndChecker : Prop :=
    ∀ (pass : Nat) (cols : List (List Int)) (corr : List Int) (before : AccRow) (x : IntRow), 0 < pass → cols.length ≤ 128 →
    (∀ c ∈ cols, c.length = x.xs.length) →
    (∀ n, n < cols.length → -(2 ^ 31) ≤ sumOf (accVal before n) + dotInt x.xs (getAt [] cols n)
      ∧ sumOf (accVal before n) + dotInt x.xs (getAt [] cols n) < 2 ^ 31) →
    (intRow {} pass cols corr before x).2 = true
    ∧ ∀ n, n < cols.length → accVal (intRow {} pass cols corr before x).1 n =
        BitVec.ofInt 32 (sumOf (accVal before n) + dotInt x.xs (getAt [] cols n) - x.zp * getAt 0 corr n)

/-- R119, R173, R187: an array command that waits for its route, for the join buffer or for a stage's seal is tried again when that
comes: the leader's single read is delivered to every member of the route in service. Where the new attempt completes, the command
ends, shows its OP in LASTOP and gives its DONE semaphore an increment without flags. Model's readings: log 26, 30, 32. -/
def Obligations.ArrayWaitsEnd : Prop :=
    ∀ (s : State) (n : Nat) (up : ArrayUpset),
    let acdDone (e : QEntry) (v : State) := doneAdd (modCore v n (fun c => { c with
      acdRun := none, acdWait := .none, lastOp := bits (descWord e.desc 0) 0 8 })) e.issuer.ptn (bits (descWord e.desc 14) 0 16) .plain
    let wcdDone (e : QEntry) (v : State) := doneAdd (modCore v n (fun c => { c with wcdRun := none, wcdWait := .none }))
      e.issuer.ptn (bits (descWord e.desc 2) 16 16) .plain
    (∀ (e : QEntry) (r seq : Nat) (bad : List Nat) (t : State) (bs : List Byte), (getCore s n).acdRun = some e →
      (getCore s n).acdWait = .route r seq → (routeMembers s n e.issuer.ptn r).head? = some n →
      fetchTile s e.issuer (parseAcd e.desc).stat = (t, .tile bs) → routeMembers s n e.issuer.ptn r = [n] →
      let d : Delivery := { route := r, seq := seq, addr := (parseAcd e.desc).stat, bytes := bs }
      let up' := if bad.contains n then { up with badRead := (parseAcd e.desc).stat :: up.badRead } else up
      (getCore t n).acdWait = .route r seq → (getCore t n).acdRun = some e →
      Completes (.routedStationaryDelivery n bad up) s (fun u =>
        u = endAcd n e (runAcd (deliver t d n) up' e none)
        ∧ ((runAcd (deliver t d n) up' e none).2 = .done → u = acdDone e (runAcd (deliver t d n) up' e none).1)))
    ∧ (∀ (e : QEntry) (r seq : Nat) (t : State) (bs : List Byte), (getCore s n).acdRun = some e → (getCore s n).acdWait = .route r seq →
      routeMembers s n e.issuer.ptn r = [n] → fetchTile s e.issuer (parseAcd e.desc).stat = (t, .tile bs) →
      (getCore t n).acdWait = .route r seq → (getCore t n).acdRun = some e →
      let x := runAcd (deliver t { route := r, seq := seq, addr := (parseAcd e.desc).stat, bytes := bs } n) up e none
      x.2 = .done → Completes (.routedStationaryDelivery n [] up) s (fun u => u = acdDone e x.1))
    ∧ (∀ e, (getCore s n).acdWait = .join → (getCore s n).acdRun = some e → (runAcd s up e none).2 = .done →
      Completes (.joinBufferReady n false up) s (fun u => u = acdDone e (runAcd s up e none).1))
    ∧ (∀ e, (getCore s n).wcdWait = .join → (getCore s n).wcdRun = some e → (runWcd s up e none).2 = .done →
      Completes (.joinBufferReady n true up) s (fun u => u = wcdDone e (runWcd s up e none).1))
    ∧ (∀ e a, ((getCore s n).acdWait = .seal a ∨ (getCore s n).acdWait = .sealing a) → (getCore s n).acdRun = some e →
      (runAcd s up e none).2 = .done → Completes (.sealWaitEnd n false up) s (fun u => u = acdDone e (runAcd s up e none).1))
    ∧ (∀ e a, ((getCore s n).wcdWait = .seal a ∨ (getCore s n).wcdWait = .sealing a) → (getCore s n).wcdRun = some e →
      (runWcd s up e none).2 = .done → Completes (.sealWaitEnd n true up) s (fun u => u = wcdDone e (runWcd s up e none).1))
    ∧ (∀ e, (getCore s n).acdWait = .join → (getCore s n).acdRun = some e →
      Completes (.joinBufferReady n false up) s (fun u => u = endAcd n e (runAcd s up e none)))
    ∧ (∀ e, (getCore s n).wcdWait = .join → (getCore s n).wcdRun = some e →
      Completes (.joinBufferReady n true up) s (fun u => u = endWcd n e (runWcd s up e none)))
    ∧ (∀ e a, (getCore s n).acdWait = .seal a → (getCore s n).acdRun = some e → (runAcd s up e none).2 = .done →
      Completes (.sealWaitEnd n false up) s (fun u => u = endAcd n e (runAcd s up e none)))
    ∧ (∀ e a, (getCore s n).wcdWait = .seal a → (getCore s n).wcdRun = some e → (runWcd s up e none).2 = .done →
      Completes (.sealWaitEnd n true up) s (fun u => u = endWcd n e (runWcd s up e none)))

/-- R301, R297: an engine's completion adds 1 to a semaphore of MODULE or FORM scope of the partition it acts for, with its flag;
one that names a semaphore out of its reach is dropped with SEM_FOREIGN. Model's readings: log 26. -/
def Obligations.EngineIncrements : Prop :=
    ∀ (s : State) (p i : Nat) (flag : DoneFlag), i ≠ 0xFFFF →
    let x := getSem s i
    (x.alloc = true → x.ptn = p → x.scope ≠ 0 → NobodyWaits s i →
      let u := doneAdd s p i flag
      getSem u i = { x with value := min (x.value + 1) 0xFFFFFFFF, sat := x.sat || decide (0xFFFFFFFF < x.value + 1),
                            rej := x.rej || flag == .rej, abt := x.abt || flag == .abt }
      ∧ OnlySem s u i ∧ u.core = s.core ∧ u.mem = s.mem)
    ∧ (¬(x.alloc = true ∧ x.ptn = p ∧ x.scope ≠ 0) →
      let u := doneAdd s p i flag
      u.rc = s.rc ∧ u.core = s.core ∧ u.mem = s.mem ∧ u.int.lastCode = FaultCode.semForeign.code)

/-- R52, R55: what an OZ4 code and an OZ16 or OZ32 code stand for: sign, exponent and fraction give the value, the OZ4 code 0b1000 is
its only NaN and OZ4 has no infinity and no negative zero; an exponent of all ones is an infinity or a NaN. -/
def Obligations.NumberFormats : Prop :=
  let sign (b : Bool) : Rat := if b then -1 else 1
  let value (x : Machine.Num) : Rat := match x with
    | .fin s m e => sign s * (m : Rat) * (2 : Rat) ^ e
    | _ => 0
  (∀ c, c < 16 →
    let e := bits c 1 2
    let f := bits c 0 1
    (val4 c = .nan ↔ c = 8) ∧ (∀ b, val4 c ≠ .inf b) ∧ (∀ k, val4 c ≠ .fin true 0 k)
    ∧ (c ≠ 8 → e = 0 → value (val4 c) = sign (bitOf c 3) * (f : Rat) * (1 / 4))
    ∧ (c ≠ 8 → e ≠ 0 → value (val4 c) = sign (bitOf c 3) * (2 : Rat) ^ ((e : Int) - 2) * (1 + (f : Rat) / 2)))
  ∧ (∀ (fmt : Fmt) (n c : Nat), (fmt, n) ∈ [(oz16, 16), (oz32, 32)] → c < 2 ^ n →
    let s := bitOf c (n - 1)
    let e := bits c fmt.frac fmt.ebits
    let f := bits c 0 fmt.frac
    let top := 2 ^ fmt.ebits - 1
    let x := fmt.decode c
    (e = 0 → (∃ m k, x = .fin s m k)
      ∧ value x = sign s * (2 : Rat) ^ (1 - (fmt.bias : Int)) * (f : Rat) / (2 : Rat) ^ (fmt.frac : Int))
    ∧ (0 < e → e < top → value x = sign s * (2 : Rat) ^ ((e : Int) - (fmt.bias : Int)) * (1 + (f : Rat) / (2 : Rat) ^ (fmt.frac : Int)))
    ∧ (e = top → f = 0 → x = .inf s)
    ∧ (e = top → f ≠ 0 → x = .nan))

/-- R235: a step whose new master is not a number keeps the element's master and moments and counts MASTER_NAN; one beyond the clamp
takes the clamp with its sign and counts MASTER_CLAMP; counting raises no fault and changes nothing else. -/
def Obligations.MasterClamp : Prop :=
  (∀ (adam : Bool) (hp : Hyper) (k : Scalars) (g0 : Word) (e : PElem),
    let g := mul32 g0 k.c
    let m := add32 (mul32 hp.b1 e.m) (mul32 hp.ob1 g)
    let v := if adam then add32 (mul32 hp.b2 e.v) (mul32 hp.ob2 (mul32 g g)) else e.v
    let u := if adam then div32 (div32 m k.bc1) (add32 (sqrt32 (div32 v k.bc2)) hp.eps) else div32 m k.bc1
    let wn := sub32 (mul32 e.w k.dk) (mul32 k.eta u)
    let r := applyElem adam hp k g0 e
    let beyond := Machine.Num.lt (val32 hp.mclamp) (val32 wn).abs
    (val32 wn = .nan → r.1.w = e.w ∧ r.1.m = e.m ∧ r.1.v = e.v ∧ r.2 = (0, 1))
    ∧ (val32 wn ≠ .nan → beyond = true → r.2 = (1, 0) ∧ r.1.m = m ∧ r.1.v = v
      ∧ r.1.w = if (val32 wn).isNeg then hp.mclamp ||| 0x80000000 else hp.mclamp)
    ∧ (val32 wn ≠ .nan → beyond = false → r.2 = (0, 0) ∧ r.1.m = m ∧ r.1.v = v ∧ r.1.w = wn))
  ∧ (∀ (s : State) (c clamp nan : Nat), (getCtx s c).masterev < 2 ^ 32 →
    let u := countMaster s c clamp nan
    (getCtx u c).masterev / 65536 = min ((getCtx s c).masterev / 65536 + clamp) 65535
    ∧ (getCtx u c).masterev % 65536 = min ((getCtx s c).masterev % 65536 + nan) 65535
    ∧ u = { s with ctx := u.ctx } ∧ ∀ j, j ≠ c → getCtx u j = getCtx s j)

/-- R219, R222, R229, R301: the Press of a region takes the PCD at the head of its queue and runs it to its end; a completed one
shows in PRS_LAST_OP and gives its DONE semaphore an increment without flags; one stopped by a fault shows its code, gives the
increment with REJ, counts a drift and holds its context where its fault says so; EXPORT_FULL is a status with REJ that raises
nothing; one of an old epoch gives ABT. Model's readings: log 26, 45, 46, 50. -/
def Obligations.PressCommands : Prop :=
    ∀ (s : State) (g op : Nat) (res : Option (Nat × Bool)) (e : QEntry) (q : List QEntry) (c : Instr),
    (c, op) ∈ [(Instr.prsInit g res, 1), (.prsReduce g res, 2), (.prsNorm g res, 3), (.prsReduceNorm g res, 4),
      (.prsApply g res, 5), (.prsClose g res, 6), (.prsExport g res, 7)] →
    (getPrs s g).q = e :: q → (getPrs s g).run = none → s.pwr.hold = false → resetting s (4, g) = false →
    (getCtx s (pcdCtx e.desc)).copying = false → field e.desc 0 1 = op →
    let r := runPcd (modPrs s g (fun x => { x with q := q, run := some e })) g res e
    let d := parsePcd e.desc
    let p := e.issuer.ptn
    (r.2 = .done → Completes c s (fun u => ∃ v, u = doneAdd v p d.done .plain ∧ v.mem = r.1.mem ∧ v.core = r.1.core
        ∧ v.rc = r.1.rc ∧ v.ctx = r.1.ctx ∧ (getPrs u g).run = none ∧ (getPrs u g).lastOp = d.op
        ∧ (getPrs u g).lastPtn = d.ptn ∧ (getPrs u g).lastCtx = d.ctx
        ∧ (getPrs u g).faultValid = (getPrs r.1 g).faultValid ∧ (getPrs u g).q = (getPrs r.1 g).q))
    ∧ (∀ f, r.2 = .fault f → Completes c s (fun u => ∃ v, u = doneAdd v p d.done .rej ∧ v.mem = r.1.mem
        ∧ v.core = r.1.core ∧ v.rc = r.1.rc ∧ (getPrs u g).run = none ∧ (getPrs u g).faultValid = true
        ∧ (getPrs u g).fault = f.code ∧ (f ≠ .arithResidue → v.int.lastCode = f.code)
        ∧ (f = .wcDrift → (getPrs u g).driftCount = min ((getPrs r.1 g).driftCount + 1) 0xFFFFFFFF)
        ∧ ((f = .pressTorn ∨ f = .pressState ∨ f = .wcDrift) → (getCtx v d.ctx).pressHold = true)))
    ∧ (r.2 = .full → Completes c s (fun u => ∃ v, u = doneAdd v p d.done .rej ∧ v.mem = r.1.mem ∧ v.int = r.1.int
        ∧ (getPrs u g).run = none ∧ (getPrs u g).faultValid = true ∧ (getPrs u g).fault = 0x0C07))
    ∧ (r.2 = .stale → Completes c s (fun u => ∃ v, u = doneAdd v p d.done .abt ∧ v.mem = s.mem ∧ v.int = s.int
        ∧ (getPrs u g).run = none ∧ (getPrs u g).q = q ∧ (getPrs u g).lastOp = (getPrs s g).lastOp
        ∧ (getPrs u g).faultValid = (getPrs s g).faultValid))

/-- R222, R26, R233-R235, R226: a PCD with a wrong CRC is rejected before anything is changed and one of an old epoch is refused;
the step's clip factor is +0 where the squared norm is infinite and 1 where CLIP is zero, without bias correction both divisors are
1, the schedule stands at its second rate once a segment's length has passed; an element whose new value is not a number keeps its
master and its moments; every element's working copy is its master rounded. Model's readings: log 48. -/
def Obligations.PressChecksAndStep : Prop :=
    (∀ (s : State) (g : Nat) (res : Option (Nat × Bool)) (e : QEntry),
    (crcTailOk e.desc 60 = false → runPcd s g res e = (s, .fault .pcdInvalid))
    ∧ (crcTailOk e.desc 60 = true → (parsePcd e.desc).epoch ≠ (getPrs s g).epoch → runPcd s g res e = (s, .stale)))
  ∧ (∀ (h : Psb) (hp : Hyper) (gs : List Seg) (sqs : List Word),
    let k := scalars h hp gs sqs
    (∀ b, val32 (tree sqs) = .inf b → k.c = 0)
    ∧ ((∀ b, val32 (tree sqs) ≠ .inf b) → (val32 hp.clip).isZero = true → k.c = 0x3F000000)
    ∧ (h.bias = false → k.bc1 = 0x3F000000 ∧ k.bc2 = 0x3F000000)
    ∧ k.q1 = mul32 h.p1 hp.b1 ∧ k.q2 = mul32 h.p2 hp.b2 ∧ k.eta = mul32 hp.lr (schedule gs h.t))
  ∧ (∀ (gs : List Seg) (x : Seg) (l : Nat), x.start ≤ l → x.len ≤ l - x.start → schedule (gs ++ [x]) l = x.mu1)
  ∧ (∀ (adam : Bool) (hp : Hyper) (k : Scalars) (g : Word) (e : PElem),
    let r := applyElem adam hp k g e
    (r.2 = (0, 1) → r.1 = { e with wc := narrow32 e.w })
    ∧ (r.2 ≠ (0, 1) → r.1.m = add32 (mul32 hp.b1 e.m) (mul32 hp.ob1 (mul32 g k.c)) ∧ r.1.wc = narrow32 r.1.w)
    ∧ (adam = false → r.1.v = e.v))

/-- R327, R328: SLV.CMD copies the descriptor to the end of the queue it names and sets rd to 0, or, where every position is taken,
the thread enters WAIT_QUEUE with it; the threads that already wait for the queue enter its freed positions first; a freed position
goes to the waiting thread with the lowest issue stamp. Model's readings: log 76, 78. -/
def Obligations.ThreadsQueueDescriptors : Prop :=
    (∀ (s s1 : State) (n t f7 rd addr : Nat) (k : QueueKind) (d : List Byte), mayIssue s n t = true → queueKind f7 = some k →
    threadDesc s n t addr = .ok (s1, d) →
    let e : QEntry := { desc := d, issuer := issuerOf s1 n t, stamp := now s1 }
    let q := queueOf n k
    let v := forEach (countFrom 0 (queueSize q)) (fun s _ => admitOne s q) (instrDone s1 n t 4)
    ((queued v q).length < queueSize q → Completes (.slvCmd n t f7 rd addr) s (fun u => u = setRd (enqueue v q e) n t rd 0))
    ∧ (queueSize q ≤ (queued v q).length → Completes (.slvCmd n t f7 rd addr) s (fun u =>
        u = modThr v n t (fun h => { h with state := .waitQueue, wait := .queue k e rd })))
    ∧ (queueWaiters s1 q = [] → (queued s1 q).length < queueSize q → Completes (.slvCmd n t f7 rd addr) s (fun u =>
      queued u q = queued s1 q ++ [e] ∧ (∀ q', q' ≠ q → queued u q' = queued s1 q') ∧ SameMemory s1 u
      ∧ Retired s1 u n t 4 (fun h => setX h rd 0)))
    ∧ (queueWaiters s1 q = [] → queueSize q ≤ (queued s1 q).length → Completes (.slvCmd n t f7 rd addr) s (fun u =>
      (∀ q', queued u q' = queued s1 q') ∧ SameMemory s1 u
      ∧ Retired s1 u n t 4 (fun h => { h with state := .waitQueue, wait := .queue k e rd }))))
  ∧ (∀ (s : State) (q : QueueOf) (n t rd : Nat) (e : QEntry) (ws : List (Nat × Nat × QEntry × Nat)),
    queueWaiters s q = (n, t, e, rd) :: ws → (queued s q).length < queueSize q → (getThr s n t).state = .waitQueue →
    Completes (.queuePositionFreed q) s (fun u =>
      queued u q = queued s q ++ [e] ∧ SameMemory s u ∧ OnlyThread s u n t
      ∧ getThr u n t = { setX (getThr s n t) rd 0 with wait := .none, state := .ready }
      ∧ ∀ w ∈ ws, e.stamp ≤ w.2.2.1.stamp))

/-- R345, R348, R529: a thread's read of an item in SRAM whose lines carry its tag gives the bytes that memory holds and changes
nothing; an address outside what its windows give it is a load access fault at the first byte that is not covered. R329: SLV.CRC
puts the CRC-32C of the range into rd for a length of 1 to 1,048,576, checks a tile, or writes its TILE_CRC; other lengths are
illegal instructions; of memory TGEN changes only the four bytes of TILE_CRC. R330, R331: a conversion writes elements 0 to vl - 1
of vd with the converted elements of vs2, SEW being the width of the wider format, and an illegal SEW or EMUL, a reserved code or a
reserved FN_ID is an illegal instruction; a function writes f or its derivative of OZ16 elements. Neither touches memory or another
thread. Model's readings: log 12, 76, 77, 78, 79, 81. -/
def Obligations.ReadsCrcAndVectorInstructions : Prop :=
  (  ∀ (s : State) (n t ga len : Nat),
    (∀ p, 0 < len → CleanSram s n t .read ga len p → threadRead s n t ga len = .ok (s, stored s (addrOf p) len)
      ∧ ∀ k, k < len → (stored s (addrOf p) len)[k]? = some (readByte s (addrOf p + k)))
    ∧ (∀ b, badByte s (issuerOf s n t) .read ga len = some b → ∃ u,
      threadRead s n t ga len = .error u ∧ Trapped s u n t 5 (BitVec.ofNat 64 b)))
  ∧ (  ∀ (s : State) (n t rd addr len : Nat), mayIssue s n t = true →
    (∀ p, 1 ≤ len → len ≤ 1048576 → CleanSram s n t .read addr len p → Completes (.slvCrcRaw n t rd addr len) s (fun u =>
      Retired s u n t 4 (fun h => setX h rd (BitVec.ofNat 64 (crc32c (stored s (addrOf p) len)))) ∧ SameMemory s u))
    ∧ ((len = 0 ∨ 1048576 < len) → Completes (.slvCrcRaw n t rd addr len) s (fun u => ∃ v, Trapped s u n t 2 v))
    ∧ (∀ p k, CleanSram s n t .read addr 64 p → tileLen (rawFmt (stored s (addrOf p) 64)) (rawKind (stored s (addrOf p) 64)) = some k →
      (∃ p', CleanSram s n t .read addr k p') →
      Completes (.slvCrcTchk n t rd addr) s (fun u =>
        Retired s u n t 4 (fun h => setX h rd (BitVec.ofNat 64 (tchk (stored s (addrOf p) k)))) ∧ SameMemory s u))
    ∧ (∀ p, CleanSram s n t .read addr 64 p → tileLen (rawFmt (stored s (addrOf p) 64)) (rawKind (stored s (addrOf p) 64)) = none →
      (Completes (.slvCrcTchk n t rd addr) s (fun u => Retired s u n t 4 (fun h => setX h rd 2) ∧ SameMemory s u))
      ∧ Completes (.slvCrcTgen n t rd addr) s (fun u => Retired s u n t 4 (fun h => setX h rd 2) ∧ SameMemory s u))
    ∧ (∀ p k pc, CleanSram s n t .read addr 64 p →
      tileLen (rawFmt (stored s (addrOf p) 64)) (rawKind (stored s (addrOf p) 64)) = some k →
      (∃ p', CleanSram s n t .read addr k p') → hdrValid (stored s (addrOf p) k) = true → CleanSram s n t .write (addr + 0x3C) 4 pc →
      Completes (.slvCrcTgen n t rd addr) s (fun u => Retired s u n t 4 (fun h => setX h rd 0)
        ∧ (∀ i, i < 4 → readByte u (addrOf pc + i) = (leBytes 4 (tileCrc (stored s (addrOf p) k))).getD i 0)
        ∧ ∀ a, a < addrOf pc ∨ addrOf pc + 4 ≤ a → readByte u a = readByte s a)))
  ∧ (  ∀ (s : State) (n t vd vs2 : Nat), mayIssue s n t = true →
    let h := getThr s n t
    (∀ code a b sew lm, vcvtOf code = some (a, b) → vtypeOf h = some (sew, lm) → 0 < h.vl →
      let wide := max (vfWidth a) (vfWidth b)
      let ea := lm * vfWidth a / wide
      let eb := lm * vfWidth b / wide
      sew = wide → lm * vfWidth a % wide = 0 → lm * vfWidth b % wide = 0 → groupOk vs2 ea = true → groupOk vd eb = true →
      h.vl * vfWidth b ≤ 512 * groupRegs eb → vd + groupRegs eb ≤ 32 →
      Completes (.slvVcvt n t vd vs2 code) s (fun u =>
        (∀ i, i < h.vl → elem (groupNat (getThr u n t) vd eb) (vfWidth b) i
          = (vfEncode b (vfValue a (elem (groupNat h vs2 ea) (vfWidth a) i))).1 % 2 ^ vfWidth b)
        ∧ (getThr u n t).pc = h.pc + 4 ∧ (getThr u n t).vstart = 0 ∧ (getThr u n t).x = h.x
        ∧ (ctxValid s n t = false → u.ctx = s.ctx) ∧ OnlyThread s u n t ∧ SameMemory s u))
    ∧ (∀ code, vcvtOf code = none → Completes (.slvVcvt n t vd vs2 code) s (fun u => ∃ v, Trapped s u n t 2 v))
    ∧ (∀ f7 lm, f7 < 128 → vtypeOf h = some (16, lm) → fnDefined (bits f7 0 6) = true → 0 < h.vl → groupOk vs2 lm = true →
      groupOk vd lm = true → h.vl * 16 ≤ 512 * groupRegs lm → vd + groupRegs lm ≤ 32 →
      Completes (.slvVfn n t vd vs2 f7) s (fun u =>
        (∀ i, i < h.vl → elem (groupNat (getThr u n t) vd lm) 16 i =
          (if bitOf f7 6 then fnD (bits f7 0 6) (BitVec.ofNat 16 (elem (groupNat h vs2 lm) 16 i))
           else fnF (bits f7 0 6) (BitVec.ofNat 16 (elem (groupNat h vs2 lm) 16 i))).toNat)
        ∧ (getThr u n t).pc = h.pc + 4 ∧ (getThr u n t).vstart = 0 ∧ (getThr u n t).x = h.x ∧ OnlyThread s u n t ∧ SameMemory s u))
    ∧ (∀ f7 sew lm, vtypeOf h = some (sew, lm) → sew ≠ 16 → Completes (.slvVfn n t vd vs2 f7) s (fun u => ∃ v, Trapped s u n t 2 v)))

/-- R334 to R337: the launches queued before it placed where cores are free, a launch places the whole group on the free core with
the lowest number, each thread at ENTRY with its arguments and the launcher's handler, and rd holds that core; with none free rd is
NO_CORE under NOWAIT, LAUNCH_FULL at 64 queued launches, else the launch is queued and the thread waits; an invalid descriptor gives
INVALID. R336: as a core becomes free the queued launch with the lowest stamp, then the lower context, then the lower issuing core,
is placed on the free core with the lowest number, leaves the queue, and its launcher, in WAIT_RC until then, is READY with that
core in rd. R338: a thread that exits is IDLE; while its group has other started threads nothing else happens, and the last one ends
the group and adds 1 to DONE_SEM. Model's readings: log 73, 76, 78. -/
def Obligations.Launches : Prop :=
  (  ∀ (s s1 : State) (n t rd addr : Nat) (d : List Byte), mayIssue s n t = true → threadDesc s n t addr = .ok (s1, d) →
    let i := issuerOf s1 n t
    let l := parseLaunch s1 i d rd
    let c := Instr.slvLaunch n t rd addr
    let v := placeQueued (instrDone s1 n t 4) i.ptn
    (launchOk s1 i d = false → Completes c s (fun u => Retired s1 u n t 4 (fun h => setX h rd 2) ∧ u.ptn = s1.ptn))
    ∧ (launchOk s1 i d = true → freeCore v i.ptn l = none →
      (bitOf (field d 1 1) 6 = true → Completes c s (fun u => u = setRd v n t rd 1))
      ∧ (bitOf (field d 1 1) 6 = false → 64 ≤ (getPtn v i.ptn).launchQ.length → Completes c s (fun u => u = setRd v n t rd 3))
      ∧ (bitOf (field d 1 1) 6 = false → (getPtn v i.ptn).launchQ.length < 64 → Completes c s (fun u =>
        u = modThr (modPtn v i.ptn (fun q => { q with launchQ := q.launchQ ++ [l] })) n t
          (fun h => { h with state := .waitRc, wait := .launch rd }))))
    ∧ ((getPtn s1 i.ptn).launchQ = [] → v = instrDone s1 n t 4)
    ∧ (∀ m, launchOk s1 i d = true → freeCore v i.ptn l = some m → Completes c s (fun u => u = placeGroup v i.ptn l m))
    ∧ (∀ m, launchOk s1 i d = true → (getPtn s1 i.ptn).launchQ = [] → freeCore s1 i.ptn l = some m → m ≠ n →
      Completes c s (fun u =>
        (getCore u m).group = some { live := countFrom 0 l.nthreads, doneSem := l.doneSem, ctx := l.ctx, ptn := i.ptn }
        ∧ (∀ k, k < l.nthreads → let h := getThr u m k
            h.pc = BitVec.ofNat 64 l.entry ∧ h.mmode = l.mmode ∧ h.ctx = l.ctx ∧ h.mtvec = (getThr s1 n t).slvtrap
            ∧ (h.state = .ready ∨ h.state = .suspended)
            ∧ getX h 10 = BitVec.ofNat 64 l.arg ∧ getX h 11 = BitVec.ofNat 64 k
            ∧ getX h 2 = BitVec.ofNat 64 (l.spBase + k * l.spStride))
        ∧ (∀ k, l.nthreads ≤ k → (getThr s1 m k).state = .idle → (getThr u m k).state = .idle)
        ∧ (rd ≠ 0 → getX (getThr u n t) rd = BitVec.ofNat 64 (m * 65536))
        ∧ (getThr u n t).state = .ready ∧ u.mem = s1.mem)))
  ∧ (  ∀ (s : State) (p m : Nat) (l : Launch) (i : Issuer), nextLaunch (getPtn s p).launchQ = some l → freeCore s p l = some m →
    l.issuer = some i → i.core ≠ m → (getThr s i.core i.thr).state ≠ .suspended →
    Completes (.launchPlaced p) s (fun u =>
      (getPtn u p).launchQ = eraseFirst (· == l) (getPtn s p).launchQ
      ∧ (∀ l' ∈ (getPtn s p).launchQ, l.stamp ≤ l'.stamp ∧ (l.stamp = l'.stamp → l.ctx ≤ l'.ctx)
        ∧ (l.stamp = l'.stamp → l.ctx = l'.ctx → (l.issuer.map Issuer.core).getD 0 ≤ (l'.issuer.map Issuer.core).getD 0))
      ∧ (getCore u m).group = some { live := countFrom 0 l.nthreads, doneSem := l.doneSem, ctx := l.ctx, ptn := p }
      ∧ (∀ k, k < l.nthreads → (getThr u m k).pc = BitVec.ofNat 64 l.entry ∧ (getThr u m k).mmode = l.mmode)
      ∧ getThr u i.core i.thr = { setX (getThr s i.core i.thr) l.rd (BitVec.ofNat 64 (m * 65536)) with wait := .none, state := .ready }
      ∧ u.mem = s.mem))
  ∧ (  ∀ (s : State) (n t : Nat) (g : Group), mayIssue s n t = true → (getCore s n).group = some g → t ∈ g.live →
    (g.live.filter (· != t) ≠ [] → Completes (.slvExit n t) s (fun u =>
      Retired s u n t 4 (fun h => { h with state := .idle }) ∧ (getCore u n).group = some { g with live := g.live.filter (· != t) }
      ∧ u.rc = s.rc ∧ SameMemory s u))
    ∧ (g.live.filter (· != t) = [] → g.doneSem = 0xFFFF → Completes (.slvExit n t) s (fun u =>
      Retired s u n t 4 (fun h => { h with state := .idle }) ∧ (getCore u n).group = none ∧ u.rc = s.rc ∧ SameMemory s u))
    ∧ (g.live.filter (· != t) = [] → (getSem s g.doneSem).alloc = true → (getSem s g.doneSem).ptn = g.ptn → g.doneSem ≠ 0xFFFF →
      NobodyWaits s g.doneSem → Completes (.slvExit n t) s (fun u =>
      Retired s u n t 4 (fun h => { h with state := .idle }) ∧ (getCore u n).group = none ∧ SameMemory s u
      ∧ (getSem u g.doneSem).value = min ((getSem s g.doneSem).value + 1) 0xFFFFFFFF)))

/-- R318, R345, R346, R349: a store of an aligned item that the thread's windows let it write changes exactly the bytes it stores,
in little-endian order, and a load puts what memory holds there into its register; a misaligned access, an access outside the
windows and a register access in U-mode trap and change no byte. R316, R318, R343: an AMO on a clean item answers the old value and
stores the new one; LR reserves the line; SC stores and answers 0 while the reservation stands, and else stores nothing and answers
1; either way the reservation has ended. R320, R321: an exception is taken to M-mode at the handler, or halts a thread that has none
in M-mode; a write of SLVCTX sets CTX in M-mode and is an illegal instruction in U-mode. A thread that may not issue does nothing. A
thread runs the instruction at its pc (R316): arithmetic, jumps and branches write their register and the pc and nothing else; a
word that stands for no implemented instruction, a half or a quad floating-point access, and a vector floating-point instruction
with SEW 8 or 16 are illegal instructions; WFI does nothing (R317); a call and a return change the mode and the saved registers;
FENCE.I empties the core's instruction cache (R352); the CSRs show the core's cycles since its reset, the stamp, the retired
instructions (R319), SLVCTX and SLVID (R320), the PMP CSRs 0. Model's readings: log 13, 76, 77, 80, 81, 123. -/
def Obligations.ThreadAccessesAndTraps : Prop :=
  (  ∀ (s : State) (n t len ga z : Nat), mayIssue s n t = true → z ∈ [1, 2, 4, 8] →
    (∀ v p, ga % z = 0 → regOf s ga = none → CleanSram s n t .write ga z p →
      Completes (.threadMemoryAccess n t len (.store ga z v)) s (fun u => Retired s u n t len id
        ∧ (∀ k, k < z → readByte u (addrOf p + k) = BitVec.ofNat 8 (v / 256 ^ k))
        ∧ ∀ a, a < addrOf p ∨ addrOf p + z ≤ a → readByte u a = readByte s a))
    ∧ (∀ sg rd p, ga % z = 0 → regOf s ga = none → CleanSram s n t .read ga z p → heldOver s p z = false →
      Completes (.threadMemoryAccess n t len (.load ga z sg rd)) s (fun u => SameMemory s u
        ∧ Retired s u n t len (fun h => setX h rd (BitVec.ofNat 64 (extend z sg (leNat (stored s (addrOf p) z)))))))
    ∧ (∀ v, ga % z ≠ 0 → Completes (.threadMemoryAccess n t len (.store ga z v)) s (fun u => Trapped s u n t 6 (BitVec.ofNat 64 ga)))
    ∧ (∀ sg rd, ga % z ≠ 0 → Completes (.threadMemoryAccess n t len (.load ga z sg rd)) s (fun u =>
        Trapped s u n t 4 (BitVec.ofNat 64 ga)))
    ∧ (∀ v b p, ga % z = 0 → regOf s ga = none → itemPlace s (some n) ga z = some p → meetsRind s p z = false →
      badByte s (issuerOf s n t) .write ga z = some b →
      Completes (.threadMemoryAccess n t len (.store ga z v)) s (fun u => Trapped s u n t 7 (BitVec.ofNat 64 b)))
    ∧ (∀ sg rd b, ga % z = 0 → regOf s ga = none → badByte s (issuerOf s n t) .read ga z = some b →
      Completes (.threadMemoryAccess n t len (.load ga z sg rd)) s (fun u => Trapped s u n t 5 (BitVec.ofNat 64 b)))
    ∧ (∀ v off, ga % z = 0 → regOf s ga = some off → (getThr s n t).mmode = false →
      Completes (.threadMemoryAccess n t len (.store ga z v)) s (fun u => Trapped s u n t 7 (BitVec.ofNat 64 ga))))
  ∧ (  ∀ (s : State) (n t len ga z x rd : Nat) (p : Place), mayIssue s n t = true → z ∈ [4, 8] → ga % z = 0 →
    CleanSram s n t .read ga z p → CleanSram s n t .write ga z p → heldOver s p z = false →
    let old := leNat (stored s (addrOf p) z)
    (∀ op, Completes (.threadMemoryAccess n t len (.amo op ga z x rd)) s (fun u =>
      Retired s u n t len (fun h => setX h rd (BitVec.ofNat 64 (extend z true old)))
      ∧ stored u (addrOf p) z = leBytes z (amoValue op (8 * z) old x)
      ∧ ∀ a, a < addrOf p ∨ addrOf p + z ≤ a → readByte u a = readByte s a))
    ∧ Completes (.threadMemoryAccess n t len (.lr ga z rd)) s (fun u =>
      Retired s u n t len (fun h => setX h rd (BitVec.ofNat 64 (extend z true old)))
      ∧ tget 0 u.resv (16 * n + t) = addrOf p / 64 ∧ SameMemory s u)
    ∧ (tget 0 s.resv (16 * n + t) = addrOf p / 64 → Completes (.threadMemoryAccess n t len (.sc ga z x rd)) s (fun u =>
      Retired s u n t len (fun h => setX h rd 0) ∧ stored u (addrOf p) z = leBytes z x ∧ tget 0 u.resv (16 * n + t) = 0
      ∧ ∀ a, a < addrOf p ∨ addrOf p + z ≤ a → readByte u a = readByte s a))
    ∧ (tget 0 s.resv (16 * n + t) ≠ addrOf p / 64 → Completes (.threadMemoryAccess n t len (.sc ga z x rd)) s (fun u =>
      Retired s u n t len (fun h => setX h rd 1) ∧ tget 0 u.resv (16 * n + t) = 0 ∧ SameMemory s u)))
  ∧ (  ∀ (s : State) (n t : Nat),
    (mayIssue s n t = true →
      (∀ cause tval, Completes (.threadTrap n t cause tval) s (fun u => Trapped s u n t cause (BitVec.ofNat 64 tval)))
      ∧ (∀ v, (getThr s n t).mmode = true → Completes (.slvctxWrite n t v) s (fun u =>
        Retired s u n t 4 (fun h => { h with ctx := v % 4096 }) ∧ SameMemory s u))
      ∧ (∀ v, (getThr s n t).mmode = false → Completes (.slvctxWrite n t v) s (fun u => ∃ w, Trapped s u n t 2 w)))
    ∧ (mayIssue s n t = false → ∀ c ∈ [Instr.threadTrap n t 2 0, .slvctxWrite n t 1, .slvExit n t, .slvCmd n t 0 1 0,
      .slvLaunch n t 1 0, .slvCrcRaw n t 1 0 64, .slvVcvt n t 0 0 0, .slvVfn n t 0 0 0], exec c s = .next s))
  ∧ (  ∀ (s : State) (n t len : Nat),
    let h := getThr s n t
    let stepped := { h with pc := h.pc + BitVec.ofNat 64 len, instret := wrap 64 (h.instret + 1) }
    (mayIssue s n t = true → ∀ (l : Nat) (s1 : State),
      (∀ w, fetchInstr s n t = .ok (s1, some w, len) →
        exec (.threadMemoryAccess n t l .run) s = .next (runWord s1 n t len w))
      ∧ (fetchInstr s n t = .ok (s1, none, len) →
        Completes (.threadMemoryAccess n t l .run) s (fun u => ∃ v, Trapped s1 u n t 2 v))
      ∧ (fetchInstr s n t = .error s1 → exec (.threadMemoryAccess n t l .run) s = .next s1))
    ∧ ∀ w, let u := runWord s n t len w
      let a := getX h (rvRs1 w)
      let b := getX h (rvRs2 w)
      let only (g : Thr) : Prop := getThr u n t = g ∧ OnlyThread s u n t ∧ u = { s with core := u.core }
      (rvOp w = 0x13 → rvF3 w = 0 → only { setX h (rvRd w) (a + immI w) with pc := stepped.pc, instret := stepped.instret })
      ∧ (rvOp w = 0x33 → ∀ x, opResult (rvF3 w) (rvF7 w) a b = some x →
        only { setX h (rvRd w) x with pc := stepped.pc, instret := stepped.instret })
      ∧ (rvOp w = 0x6F → only { setX h (rvRd w) stepped.pc with pc := h.pc + immJ w, instret := stepped.instret })
      ∧ (rvOp w = 0x63 → ∀ x, branchTaken (rvF3 w) a b = some x →
        only { h with pc := if x then h.pc + immB w else stepped.pc, instret := stepped.instret })
      ∧ (rvOp w ∈ [0x1F, 0x3F, 0x5B, 0x77, 0x7B] → ∃ v, Trapped s u n t 2 v)
      ∧ (rvOp w ∈ [0x07, 0x27] → rvF3 w ∈ [1, 4] → ∃ v, Trapped s u n t 2 v)
      ∧ (rvOp w = 0x57 → rvF3 w ∈ [1, 5] → (∀ sew lm, vtypeOf h = some (sew, lm) → sew < 32) → ∃ v, Trapped s u n t 2 v)
      ∧ (w = 0x10500073 → only stepped)
      ∧ (w = 0x73 → Trapped s u n t (if h.mmode then 11 else 8) 0)
      ∧ (w = 0x30200073 → h.mmode = false → ∃ v, Trapped s u n t 2 v)
      ∧ (w = 0x30200073 → h.mmode = true → getThr u n t = mret h ∧ (mret h).pc = h.mepc
        ∧ ((mret h).mmode = true ↔ h.mstatus.extractLsb' 11 2 = 3) ∧ (mret h).mstatus.extractLsb' 3 1 = h.mstatus.extractLsb' 7 1)
      ∧ (w = 0x100F → (getCore u n).icache = [] ∧ getThr u n t = stepped)
      ∧ csrRead s n t 0xC00 = some (BitVec.ofNat 64 (coreCycles s n)) ∧ csrRead s n t 0xC01 = some (BitVec.ofNat 64 (now s))
      ∧ csrRead s n t 0xC02 = some (BitVec.ofNat 64 h.instret)
      ∧ csrRead s n t 0x7C0 = some (BitVec.ofNat 64 (b2n (ctxValid s n t) * 2 ^ 63 + h.ctx))
      ∧ csrRead s n t 0xCC0 = some (BitVec.ofNat 64 ((getCore s n).epoch * 2 ^ 30 + ownLmn s * 2 ^ 20
        + (ptnOfCluster s (n / 8)).getD 0 * 2 ^ 14 + t * 2 ^ 10 + n))
      ∧ csrRead s n t 0x3A0 = some 0 ∧ csrRead s n t 0x3B0 = some 0)

/-- R11: an access that is narrower than 32 bits or misaligned changes nothing. R12: neither does a write at an unassigned offset,
which reads 0. R503: neither does an access outside the requester's rights. R6, R7, R283, R314, R524: a write of an RW field sets
it, and it reads as written; a W1C bit is cleared by a 1 and kept on a 0, and kept too where hardware sets it in the cycle of the
write; a register that the role may not write keeps its value; a write of RC_SEM_SEL latches the semaphore that it selects. Model's
readings: log 121, 122, 123. -/
def Obligations.RegisterWrites : Prop :=
  (  ∀ (s : State) (who : Req) (off size v : Nat) (env : RegEnv),
    (size ≠ 4 ∨ off % 4 ≠ 0 → exec (.registerWrite who off size v env) s = .next s)
    ∧ (regBlock off = .unassigned → regValue s off = 0 ∧ exec (.registerWrite who off size v env) s = .next s)
    ∧ (mayRead s who off = false → exec (.registerWrite who off size v env) s = .next s)
    ∧ (who = .anonymous → exec (.registerWrite who off size v env) s = .next s))
  ∧ (  ∀ (s : State) (id v : Nat) (env : RegEnv), v < 2 ^ 32 →
    let who := Req.session id
    (hasRole s who = true → Completes (.registerWrite who 0x020020 4 v env) s (fun u =>
      u = { s with lcs.jrnSel := s.lcs.jrnSel / 2 ^ 32 * 2 ^ 32 + v } ∧ regValue u 0x020020 = v))
    ∧ (isInstaller s who = true → Completes (.registerWrite who 0x010100 4 v env) s (fun u =>
      u = { s with pwr.cap := v % 4096 } ∧ regValue u 0x010100 = v % 4096))
    ∧ (isOperator s who = true → exec (.registerWrite who 0x010100 4 v env) s = .next s)
    ∧ (hasRole s who = true → Completes (.registerWrite who 0x010104 4 v env) s (fun u =>
      u = if v / 2 ^ 30 % 2 = 1 ∧ env.hwSet / 2 ^ 30 % 2 = 0 then { s with pwr.holdSeen := false } else s))
    ∧ (isOperator s who = true → partsUp s = true → v < 65536 → Completes (.registerWrite who 0x060020 4 v env) s (fun u =>
      regValue u 0x060020 = v ∧ regValue u 0x060024 = (getSem s v).value ∧ u.rc.sem = s.rc.sem ∧ u.rc.bar = s.rc.bar
      ∧ ∀ p, p ≠ .rc → samePart p s u)))

/-- R249, R253, R257, R259: at a Bell instant the Bell counter goes up by 1 modulo 2^64 and the sub-Bell counter returns to 0; the
module of a domain emits its BELL frame on every usable port but the one it follows; before the start the mark counts down and the
domain starts at Bell 0; a module that hears a stream it may follow stays in its state; without a domain the local Bell starts at 0
with SOURCE 3. R254, R259, R290, R606: the master starts the domain with a mark of sixteen frames once it and its neighbours are
READY; a locked module with its delays measured enters WAIT_START; a PROBE carries T1 and its number, is answered with both and T2
and T3, and the ECHO gives D, discarded when it is more than 16 cy from the last, and after three discards in a row the port is
barred as an upstream; the reference comes and goes. Model's readings: log 3, 64, 66. -/
def Obligations.BellInstantsAndDelays : Prop :=
  (  ∀ s : State,
    let heard := ownBell s = true ∨ gone (slewDelay s.bell.prim) = false
      ∨ (s.bell.cfg.altEn = true ∧ gone (slewDelay s.bell.alt) = false)
    (counting s = true → Completes .bell s (fun u =>
      u.bell.count = (s.bell.count + 1) % 2 ^ 64 ∧ u.bell.sub = 0 ∧ (heard → u.bell.state = s.bell.state)
      ∧ (s.bell.cfg.domainEn = true → ∀ p, p < 8 → portUsable u p = true → activeUp u ≠ some p →
          ∃ x ∈ u.rc.txq, x.port = p ∧ x.bytes = bellFrame u p)))
    ∧ (s.bell.state = .waitStart → s.bell.markRx = none → ∀ k, s.bell.markLeft = some (k + 1) → Completes .bell s (fun u =>
      u.bell.markLeft = some k ∧ u.bell.state = .waitStart ∧ u.bell.count = s.bell.count))
    ∧ (s.bell.state = .waitStart → s.bell.markLeft = some 0 → Completes .bell s (fun u =>
      (heard → u.bell.state = .running) ∧ u.bell.count = 0 ∧ u.bell.sub = 0 ∧ u.bell.markLeft = none))
    ∧ (s.bell.cfg.domainEn = false → s.bell.state = .locking → s.mod.ready = true → s.bell.pllLocked = true → refOk s = true →
      Completes .localBellStart s (fun u =>
        u.bell.state = .running ∧ u.bell.count = 0 ∧ u.bell.sub = 0 ∧ u.bell.source = 3))
    ∧ (refOk s = false → exec .localBellStart s = .next s))
  ∧ (  ∀ s : State,
    (s.bell.cfg.domainEn = true → s.bell.cfg.role = 1 → s.bell.state = .waitStart → s.mod.ready = true → membersReady s = true →
      s.bell.markLeft = none → Completes .domainStartMark s (fun u => u = { s with bell.markLeft := some 16 }))
    ∧ ((refOk s = true ∨ ownBell s = false) → s.bell.cfg.domainEn = true → s.bell.state = .locking → delaysKnown s = true →
      Completes .pllLock s (fun u => u = { s with bell.pllLocked := true, bell.state := .waitStart }))
    ∧ (∀ t1, s.bell.cfg.domainEn = true → s.bell.cfg.role ≠ 1 → t1 < 2 ^ 48 → Completes (.delayMeasurement false t1) s (fun u =>
      u.bell.prim.probe = some (s.bell.probeSeq, t1) ∧ u.bell.probeSeq = (s.bell.probeSeq + 1) % 65536
      ∧ ∃ x ∈ u.rc.txq, x.port = s.bell.cfg.upPort
          ∧ x.bytes = syncFrame 7 (ownLmn s) 0x3FF 0 (bodyBits t1 223 176 + bodyBits s.bell.probeSeq 175 160)))
    ∧ (∀ port f t2 t3, frType f = 7 → fcrcOk f = true → frameBits f 227 224 = 0 → frameBits f 159 32 = 0 →
      Completes (.probeReceive port f t2 t3) s (fun u => (∀ p, p ≠ .rc → samePart p s u)
        ∧ ∃ x ∈ u.rc.txq, x.port = port ∧ x.bytes = syncFrame 8 (ownLmn s) 0x3FF 0 (bodyBits (frameBits f 223 176) 223 176
            + bodyBits (frameBits f 175 160) 175 160 + bodyBits t2 159 112 + bodyBits t3 111 64)))
    ∧ (∀ port f t4, frType f = 8 → fcrcOk f = true → frameBits f 227 224 = 0 → frameBits f 63 32 = 0 → streamOf s port = some false →
      s.bell.prim.probe = some (frameBits f 175 160, frameBits f 223 176) → s.bell.prim.measured = true →
      let d := delayOf (frameBits f 223 176) (frameBits f 159 112) (frameBits f 111 64) t4
      (max d s.bell.prim.last - min d s.bell.prim.last ≤ 256 → Completes (.echoReceive port f t4) s (fun u =>
        u.bell.prim.last = d ∧ u.bell.prim.probe = none ∧ u.bell.prim.delay = s.bell.prim.delay ∧ u.bell.missed = s.bell.missed
        ∧ u.bell.prim.discards = 0 ∧ u.bell.prim.untrusted = false))
      ∧ (256 < max d s.bell.prim.last - min d s.bell.prim.last → Completes (.echoReceive port f t4) s (fun u =>
        u.bell.prim.last = s.bell.prim.last ∧ u.bell.prim.delay = s.bell.prim.delay ∧ u.bell.prim.discards = s.bell.prim.discards + 1
        ∧ u.bell.missed = min (s.bell.missed + 1) (2 ^ 32 - 1) ∧ (2 ≤ s.bell.prim.discards → u.bell.prim.barred = true))))
    ∧ Completes .bellRefLoss s (fun u => u = { s with bell.refPresent := false })
    ∧ Completes .bellRefReturn s (fun u => u = { s with bell.refPresent := true }))

/-- R253, R254, R259, R261: a BELL frame of a stream sets that stream's compensated instant, the received instant minus D plus the
trim, and its SOURCE; a frame on a port that is barred as an upstream is not followed; in WAIT_START the module takes the Bell
number and the mark; in HOLDOVER it returns to RUNNING while the limit has not passed and slews its drift out; in LOST it relocks
and takes the received number, with BELL_STEP where that differs from its own count. Outside a domain the frame is ignored. R260,
R261: a missing frame is counted and changes nothing else; at the Bell after the second in a row a deputy takes the stream over and
marks its frames with source master, a member switches to the stream that still comes and slews out the difference of the two, and
one with neither enters HOLDOVER, the Bell count going on; past the limit it enters LOST and the ACTIVE partitions of Forms are
held. Model's readings: log 65. -/
def Obligations.BellStreams : Prop :=
  (  ∀ (s : State) (port : Nat) (f : List Byte), frType f = 1 → fcrcOk f = true → frameBits f 227 224 = 0 → frameBits f 133 32 = 0 →
    frameBits f 137 134 ≤ 8 →
    let b := frameBits f 223 160
    let c := Instr.bellFrameReceive port f
    (streamOf s port = none → exec c s = .next s)
    ∧ (∀ alt, streamOf s port = some alt →
      let up (v : State) : Upstream := if alt then v.bell.alt else v.bell.prim
      let src := if alt then 2 else 1
      ((up s).barred = true → exec c s = .next s)
      ∧ ((up s).barred = false → Completes c s (fun u =>
          (up u).instant = (frameBits f 158 143 : Int) - ((up s).delay : Int) + trimOf s alt
          ∧ (up u).missing = 0 ∧ (up u).delay = (up s).delay ∧ (up u).src = frameBits f 159 159
          ∧ (up u).depth = frameBits f 137 134)
      ∧ (s.bell.state = .waitStart → (s.bell.source = 0 ∨ s.bell.source = src) → Completes c s (fun u =>
          u.bell.source = src ∧ u.bell.rxBell = b
          ∧ u.bell.markRx = if frameBits f 142 142 = 1 then some (frameBits f 141 138) else s.bell.markRx))
      ∧ (s.bell.state = .holdover → s.bell.holdoverBells < s.bell.holdLimit → Completes c s (fun u =>
          u.bell.state = .running ∧ u.bell.source = src ∧ u.bell.count = s.bell.count
          ∧ u.bell.slew = (Config.holdoverDrift s.bell.count).toInt))
      ∧ (s.bell.state = .lost → 0 < b → Completes c s (fun u => u.bell.state = .running ∧ u.bell.source = src ∧ u.bell.count = b - 1
          ∧ ((s.bell.count + 1) % 2 ^ 64 = b → u.int = s.int)
          ∧ ((s.bell.count + 1) % 2 ^ 64 ≠ b → u.bell.stepped = true ∧ u.int.lastCode = FaultCode.bellStep.code))))))
  ∧ (  ∀ s : State, s.bell.cfg.domainEn = true →
    let primGone := gone (slewDelay s.bell.prim)
    let altGone := gone (slewDelay s.bell.alt)
    (∀ alt : Bool, let up (v : State) : Upstream := if alt then v.bell.alt else v.bell.prim
      s.bell.cfg.role ≠ 1 → (alt = true → s.bell.cfg.altEn = true) → counting s = true → Completes (.bellFrameMissing alt) s (fun u =>
        (up u).missing = (up s).missing + 1 ∧ u.bell.missed = min (s.bell.missed + 1) (2 ^ 32 - 1)
        ∧ u.bell.state = s.bell.state ∧ u.bell.source = s.bell.source ∧ u.bell.count = s.bell.count ∧ u.int = s.int))
    ∧ (s.bell.state = .running → ownBell s = false → s.bell.cfg.role = 2 → primGone = true → Completes .bell s (fun u =>
        u.bell.actingMaster = true ∧ u.bell.source = 3 ∧ u.bell.state = .running ∧ frameSource u = 0
        ∧ u.bell.count = (s.bell.count + 1) % 2 ^ 64))
    ∧ (s.bell.state = .running → ownBell s = false → s.bell.cfg.role = 2 → gone s.bell.prim = true →
        (streamLoss s).int.lastCode = FaultCode.bellMasterLost.code)
    ∧ (s.bell.state = .running → ownBell s = false → s.bell.cfg.role ≠ 2 →
      (s.bell.source = 1 → primGone = true → s.bell.cfg.altEn = true → altGone = false → Completes .bell s (fun u =>
        u.bell.source = 2 ∧ u.bell.switched = true ∧ u.bell.state = .running ∧ u.bell.count = (s.bell.count + 1) % 2 ^ 64
        ∧ u.bell.slew = s.bell.alt.instant - s.bell.prim.instant))
      ∧ (s.bell.source = 2 → primGone = false → (s.bell.cfg.altEn = false ∨ altGone = true) → Completes .bell s (fun u =>
        u.bell.source = 1 ∧ u.bell.switched = true ∧ u.bell.state = .running ∧ u.bell.count = (s.bell.count + 1) % 2 ^ 64
        ∧ u.bell.slew = s.bell.prim.instant - s.bell.alt.instant))
      ∧ (primGone = true → (s.bell.cfg.altEn = false ∨ altGone = true) → Completes .bell s (fun u =>
        u.bell.state = .holdover ∧ u.bell.holdoverSeen = true ∧ u.bell.holdoverBells = 0
        ∧ u.bell.count = (s.bell.count + 1) % 2 ^ 64)))
    ∧ (s.bell.state = .holdover → s.bell.holdLimit ≤ s.bell.holdoverBells → Completes .holdoverLimit s (fun u =>
      u.bell.state = .lost ∧ u.bell.count = s.bell.count
      ∧ (∀ p ∈ tkeys s.ptn, inForm s p = true → (getPtn s p).state = .active → (getPtn u p).state = .held
          ∧ bitOf (getPtn u p).holdCause causeBellLost = true)
      ∧ ((∀ p ∈ tkeys s.ptn, inForm s p = false) → u.int.lastCode = FaultCode.bellLost.code))))

/-- R274, R283: an average above the cap has HOLD entered two Bells after the Bell that it is of; two averages in a row at or below
95 % of the cap end HOLD at the next Bell; each average in HOLD counts. HOLD itself comes and goes at the Bell. Model's readings:
log 67. -/
def Obligations.Governor : Prop :=
    ∀ (s : State), counting s = true →
    (∀ w, Completes (.governorBellAverage w) s (fun u =>
      u.pwr.lastW = min w 4095 ∧ u.pwr.hold = s.pwr.hold
      ∧ (capWatts s < w → u.pwr.enterAt = some (s.bell.count + 1) ∧ u.pwr.leaveAt = none)
      ∧ (w * 100 ≤ capWatts s * 95 → w ≤ capWatts s → s.pwr.hold = true → 1 ≤ s.pwr.lowRun → u.pwr.leaveAt = some (s.bell.count + 1))
      ∧ (capWatts s * 95 < w * 100 → u.pwr.lowRun = 0)
      ∧ u.pwr.govCount = if s.pwr.hold then min (s.pwr.govCount + 1) (2 ^ 32 - 1) else s.pwr.govCount))
    ∧ (∀ b, s.pwr.enterAt = some b → b ≤ (s.bell.count + 1) % 2 ^ 64 → s.pwr.leaveAt = none →
      Completes .bell s (fun u => u.pwr.hold = true ∧ u.pwr.enterAt = none))
    ∧ (∀ b, s.pwr.enterAt = none → s.pwr.leaveAt = some b → b ≤ (s.bell.count + 1) % 2 ^ 64 →
      Completes .bell s (fun u => u.pwr.hold = false ∧ u.pwr.leaveAt = none))

/-- R277, R281, R282: START arms an IDLE Timetable for a Bell at least two ahead, STOP makes it STOPPING, RESUME of a HELD one
releases its next slot at the Bell given and moves B0 by the same amount; a refused command changes only CMD_STATUS; at its Bell an
armed Timetable is RUNNING. Model's readings: log 61. -/
def Obligations.TimetableCommands : Prop :=
    ∀ (s : State) (who : Req) (p bell : Nat), mayPtn s who p = true → bell < 2 ^ 64 →
    let t := (getPtn s p).tt
    let k := ttOf s p
    let c := Instr.ttStart who p bell
    (t.state = .idle → k.isSome = true → ptnUp s p = true → bellRuns s = true → s.bell.count + 2 ≤ bell →
      Completes c s (fun u => (getPtn u p).tt = { t with at_ := bell, state := .armed, b0 := bell, cmdStatus := 0 }
        ∧ ∀ q, q ≠ p → getPtn u q = getPtn s q))
    ∧ (t.state ≠ .idle → Completes c s (fun u => (getPtn u p).tt = { t with at_ := bell, cmdStatus := 3 }))
    ∧ (t.state = .idle → k = none → Completes c s (fun u => (getPtn u p).tt = { t with at_ := bell, cmdStatus := 4 }))
    ∧ (t.state = .idle → k.isSome = true → ptnUp s p = true → bellRuns s = false →
      Completes c s (fun u => (getPtn u p).tt = { t with at_ := bell, cmdStatus := 5 }))
    ∧ (t.state = .idle → k.isSome = true → ptnUp s p = true → bellRuns s = true → bell < s.bell.count + 2 →
      Completes c s (fun u => (getPtn u p).tt = { t with at_ := bell, cmdStatus := 2 }))
    ∧ (t.state = .running → t.noRelease = false →
      Completes (.ttStop who p) s (fun u => (getPtn u p).tt = { t with state := .stopping, cmdStatus := 0 }))
    ∧ (t.state = .held → ptnRunning s p = false →
      Completes (.ttStop who p) s (fun u => (getPtn u p).tt.state = .idle ∧ (getPtn u p).tt.cmdStatus = 0))
    ∧ (t.state ≠ .running → t.state ≠ .held → Completes (.ttStop who p) s (fun u => (getPtn u p).tt = { t with cmdStatus := 3 }))
    ∧ (∀ y, t.state = .held → ttOf s p = some y → ptnUp s p = true → s.bell.count + 2 ≤ bell → nextStart t y - t.bound ≤ bell →
      nextStart t y ≤ t.b0 + bell →
      Completes (.ttResume who p bell) s (fun u => let v := (getPtn u p).tt
        v.state = .running ∧ v.cmdStatus = 0 ∧ v.noRelease = false ∧ nextStart v y = bell ∧ v.lesson = t.lesson
        ∧ v.b0 + nextStart t y = t.b0 + bell))
    ∧ (∀ y, t.state = .held → ttOf s p = some y → ptnUp s p = true → bell < s.bell.count + 2 →
      Completes (.ttResume who p bell) s (fun u => (getPtn u p).tt = { t with at_ := bell, cmdStatus := 2 }))
    ∧ (t.state = .armed → counting s = true → t.b0 ≤ s.bell.count → Completes (.timetableBegin p) s (fun u =>
        let v := (getPtn u p).tt
        v.state = .running ∧ v.bound = t.b0 ∧ v.b0 = t.b0 ∧ v.lesson = 0 ∧ v.next = 0 ∧ v.open_ = []))

/-- R267, R276: at its START Bell the next slot opens: DONE_SEM is 0 and GO_SEM has one more; at its DEADLINE Bell a completed slot
closes, and one that is not times out: SLOT_OVERRUN, the count and the slot, and once a Lesson the policy; running commands go on.
R262, R278, R282, R399: at a Lesson boundary of an ACTIVE partition the next Lesson begins: the count goes up by 1, the boundary
moves by LESSON_BELLS, no slot is released yet; a STOPPING Timetable ends, that of a held partition becomes HELD, an aborted Lesson
whose commands run skips it; before its Bell, and at the Bell in which a RESUME moved it, nothing happens. Model's readings: log 59,
60. -/
def Obligations.SlotsAndLessons : Prop :=
  (  ∀ (s : State) (p i : Nat) (y : Timetable), ttOf s p = some y → counting s = true →
    let t := (getPtn s p).tt
    let k := slotAt y i
    (∀ due, t.state = .running → t.inLesson = true → t.noRelease = false → t.next = i → i < y.slots.length →
      t.bound + k.start ≤ s.bell.count → t.resumeAt.getD 0 ≤ s.bell.count → (k.kind = .tutorial ∨ k.kind = .exchange) →
      Completes (.slotStart p i due) s (fun u =>
        (getPtn u p).tt.curSlot = i ∧ (getPtn u p).tt.next = i + 1
        ∧ (∃ o ∈ (getPtn u p).tt.open_, o.idx = i ∧ o.startB = t.bound + k.start ∧ o.endB = t.bound + k.deadline)
        ∧ (NobodyWaits s k.goSem → k.doneSem ≠ 0xFFFF → k.doneSem ≠ k.goSem → (getSem u k.doneSem).value = 0)
        ∧ (NobodyWaits s k.goSem → k.goSem ≠ 0xFFFF → k.doneSem ≠ k.goSem → (getSem s k.goSem).alloc = true →
            (getSem s k.goSem).ptn = p → (getSem u k.goSem).value = min ((getSem s k.goSem).value + 1) 0xFFFFFFFF)))
    ∧ (∀ o, (getPtn (judgeSlots s p) p).tt.open_.find? (fun o => o.idx == i) = some o → o.endB ≤ s.bell.count → k.kind ≠ .quiz →
      let v := (getPtn (judgeSlots s p) p).tt
      (o.done = true → slotRecess y o = false → Completes (.slotDeadline p i) s (fun u =>
        (getPtn u p).tt = { v with open_ := eraseFirst (fun x => x.idx == i && x.endB == o.endB) v.open_ } ∧ u.int = s.int))
      ∧ (o.done = false → stampOf o.endB 0 < now s → Completes (.slotDeadline p i) s (fun u =>
        (getPtn u p).tt.overruns = min (v.overruns + 1) 65535 ∧ (getPtn u p).tt.lastSlot = i
        ∧ u.int.lastCode = FaultCode.slotOverrun.code ∧ u.core = s.core ∧ u.prs = s.prs
        ∧ (v.state = .running → v.noRelease = false → v.acted ≠ some o.lesson →
            (getPtn u p).tt.noRelease = true ∧ (getPtn u p).tt.acted = some o.lesson ∧ (getPtn u p).tt.aborted = y.abortPolicy)
        ∧ (v.acted = some o.lesson → (getPtn u p).tt.noRelease = v.noRelease ∧ (getPtn u p).tt.state = v.state)))))
  ∧ (  ∀ (s : State) (p : Nat) (y : Timetable), ttOf s p = some y → counting s = true →
    let t := (getPtn s p).tt
    (nextBoundary t y ≤ s.bell.count → t.resumedOn ≠ some s.bell.count →
      (t.state = .running → t.noRelease = false → t.aborted = false → boundaryRepairs (ceRepairs s) p = s →
        ((getPtn s p).state = .active → Completes (.lessonBoundary p) s (fun u => let v := (getPtn u p).tt
          v.state = .running ∧ v.lesson = (t.lesson + 1) % 2 ^ 64 ∧ v.bound = nextBoundary t y ∧ v.next = 0 ∧ v.inLesson = true))
        ∧ ((getPtn s p).state = .held → Completes (.lessonBoundary p) s (fun u => let v := (getPtn u p).tt
          v.state = .held ∧ v.lesson = t.lesson)))
      ∧ (t.state = .stopping → t.noRelease = false → Completes (.lessonBoundary p) s (fun u => (getPtn u p).tt.state = .idle))
      ∧ (t.state = .running → t.aborted = true → ptnRunning s p = true → Completes (.lessonBoundary p) s (fun u =>
        (getPtn u p).tt = { t with bound := nextBoundary t y, skipped := min (t.skipped + 1) (2 ^ 32 - 1) })))
    ∧ (s.bell.count < nextBoundary t y ∨ t.resumedOn = some s.bell.count → exec (.lessonBoundary p) s = .next s))

/-- R401, R402, R410, R411: each context command in a state that admits it has its immediate effect and is answered OK; otherwise it
is answered with the code of its reason and leaves the context in its state. R402: a context outside the partition's range is
answered FOREIGN by every context command, and no context changes. Model's readings: log 62, 124. -/
def Obligations.ContextCommands : Prop :=
  (  ∀ (s : State) (who : Req) (p c seat : Nat), mayPtn s who p = true → c < 4096 → seat < 64 → ptnOfCtx s c = some p →
    ptnUp s p = true → restoring s c = false →
    let x := getCtx s c
    let same (v : Ctx) : Prop := v.state = x.state
    (seatOk s p seat = true →
      (x.state = .keyed → CtxAnswered s (.attach who p c seat) p c 0 (fun v =>
        v.state = .attaching ∧ v.reqSeat = seat ∧ v.cmdStamp = now s))
      ∧ ((x.state = .detaching ∨ x.state = .scrubbing) → CtxAnswered s (.attach who p c seat) p c 7 (fun v =>
        same v ∧ v.enableQ = x.enableQ ++ [.attach seat]))
      ∧ (x.state ∉ [.keyed, .detaching, .scrubbing] → CtxAnswered s (.attach who p c seat) p c 1 same)
      ∧ ((x.state = .swapped ∨ (x.state = .restart ∧ x.restored = true)) → CtxAnswered s (.resume who p c seat) p c 0 (fun v =>
        v.state = .resuming ∧ v.reqSeat = seat ∧ v.cmdStamp = now s))
      ∧ (x.state = .restart → x.restored = false → CtxAnswered s (.resume who p c seat) p c 4 same)
      ∧ (x.state ∉ [.swapped, .restart] → CtxAnswered s (.resume who p c seat) p c 1 same)
      ∧ (x.state = .running → CtxAnswered s (.rebind who p c seat) p c 0 (fun v => same v ∧ v.reqSeat = seat ∧ v.rebind = true))
      ∧ (x.state ≠ .running → CtxAnswered s (.rebind who p c seat) p c 1 same))
    ∧ (seatOk s p seat = false → ∀ k ∈ [Instr.attach who p c seat, .resume who p c seat, .rebind who p c seat],
      CtxAnswered s k p c 3 (fun v => v = x))
    ∧ (x.state = .running → CtxAnswered s (.preempt who p c) p c 0 (fun v => v.state = .preempting ∧ v.regPend = true))
    ∧ (x.state ≠ .running → CtxAnswered s (.preempt who p c) p c 1 same)
    ∧ (x.state = .running → CtxAnswered s (.detach who p c) p c 0 (fun v =>
        v.state = .detaching ∧ v.stay = true ∧ v.regPend = true))
    ∧ (x.state = .preempting → CtxAnswered s (.detach who p c) p c 0 (fun v =>
        v.state = .detaching ∧ v.stay = true ∧ v.bound = x.bound))
    ∧ (x.state ∈ [.keyed, .attaching, .swapped, .resuming, .restart] → CtxAnswered s (.detach who p c) p c 0 (fun v =>
        v.state = .detaching ∧ v.stay = false ∧ v.quietSince = some (now s)))
    ∧ (x.state ∈ [.free, .scrubbing] → CtxAnswered s (.detach who p c) p c 1 same)
    ∧ (x.state = .attaching → CtxAnswered s (.ctxCancel who p c) p c 0 (fun v => v.state = .keyed))
    ∧ (x.state = .preempting → CtxAnswered s (.ctxCancel who p c) p c 0 (fun v =>
        v.state = .running ∧ v.bound = 0 ∧ v.regPend = false))
    ∧ (x.state = .resuming → CtxAnswered s (.ctxCancel who p c) p c 0 (fun v => v.state = .swapped))
    ∧ (x.state ∉ [.attaching, .preempting, .resuming] → CtxAnswered s (.ctxCancel who p c) p c 1 same))
  ∧ (  ∀ (s : State) (who : Req) (p c seat : Nat), mayPtn s who p = true → c < 4096 → seat < 64 → ptnOfCtx s c ≠ some p →
    ∀ k ∈ [Instr.attach who p c seat, .preempt who p c, .resume who p c seat, .detach who p c, .ctxCancel who p c,
      .rebind who p c seat],
    Completes k s (fun u => u.ctx = s.ctx ∧ (getPtn u p).resStatus = 2 ∧ (getPtn u p).state = (getPtn s p).state))

/-- R398, R399, R402, R412: HOLD sets its cause and an ACTIVE partition is HELD at once; RELEASE clears the causes that it may and
with the last one the partition is ACTIVE, its Timetable as before; TEARDOWN is journaled, clears the measurement, stops the
partition and detaches its contexts; a thread's write is answered ROLE. R277, R278, R282, R412, R628: while a command of the
partition runs nothing happens; once none does, a HELD state waits no longer, a STOP of a Timetable that releases nothing ends it,
and a teardown with its contexts gone empties the partition and starts its scrub. Model's readings: log 23, 25, 59, 124. -/
def Obligations.PartitionCommands : Prop :=
  (  ∀ (s : State) (id p : Nat),
    let who := Req.session id
    let q := getPtn s p
    mayPtn s who p = true →
    (q.state = .active → PtnAnswered s (.ptnHold who p) p 0 (fun v => v.state = .held ∧ bitOf v.holdCause causeOperator = true))
    ∧ (ptnUp s p = false → ∀ k ∈ [Instr.ptnHold who p, .ptnRelease who p, .ptnTeardown who p],
      PtnAnswered s k p 1 (fun v => v.state = q.state ∧ v.holdCause = q.holdCause))
    ∧ (q.state = .held → bitOf q.holdCause causeDegraded = false → bitOf q.holdCause causeXdie1 = false →
      (bitOf q.holdCause causeBellLost = true → s.bell.state = .running) →
      PtnAnswered s (.ptnRelease who p) p 0 (fun v => v.holdCause = q.holdCause &&& 0xE6
        ∧ v.state = (if q.holdCause &&& 0xE6 = 0 then .active else .held) ∧ (q.tt.state = .held → v.tt.state = .held)))
    ∧ (ptnUp s p = true → (bitOf q.holdCause causeDegraded = true ∨ bitOf q.holdCause causeXdie1 = true) →
      PtnAnswered s (.ptnRelease who p) p 8 (fun v => v.state = q.state ∧ v.holdCause = q.holdCause))
    ∧ (ptnUp s p = true → journalRoom s = true → (∃ c ∈ ctxRange s p, (getCtx s c).state = .running) →
      Completes (.ptnTeardown who p) s (fun u => (getPtn u p).state = .teardown ∧ (getPtn u p).resStatus = 0
        ∧ (∀ y, (getPtn u p).syl = some y → y.meas = []) ∧ u.led.seq = s.led.seq + 1
        ∧ ∀ c ∈ ctxRange s p, (getCtx s c).state = .running → (getCtx u c).state = .detaching ∧ (getCtx u c).stay = true))
    ∧ ∀ n t, isRuntimeOf s p (.thread n t) = true → ∀ k ∈ [Instr.ptnHold (.thread n t) p, .ptnRelease (.thread n t) p,
        .ptnTeardown (.thread n t) p], PtnAnswered s k p 5 (fun v => v.state = q.state ∧ v.holdCause = q.holdCause))
  ∧ (  ∀ (s : State) (p : Nat),
    let t := (getPtn s p).tt
    (ptnRunning s p = true → exec (.partitionCommandsEnded p) s = .next s)
    ∧ (ptnRunning s p = false → t.aborted = false →
      (t.state = .stopping → t.noRelease = true → Completes (.partitionCommandsEnded p) s (fun u => (getPtn u p).tt.state = .idle))
      ∧ (∀ i y, t.state = .running → t.noRelease = true → t.overrunSlot = some i → ttOf s p = some y →
        (slotAt y i).doneTarget ≤ (getSem s (slotAt y i).doneSem).value →
        Completes (.partitionCommandsEnded p) s (fun u => (getPtn u p).tt = { t with state := .held, overrunSlot := none }))
      ∧ ((getPtn s p).state = .teardown → t.state = .idle → attachedCount s p = 0 → Completes (.partitionCommandsEnded p) s (fun u =>
        (getPtn u p).state = .scrubbing ∧ (getPtn u p).syl = none ∧ (getPtn u p).tt = {} ∧ (getPtn u p).launchQ = []
        ∧ (∀ i, ¬((getSem u i).alloc = true ∧ (getSem u i).ptn = p)) ∧ (∀ i, ¬((getBar u i).alloc = true ∧ (getBar u i).ptn = p))
        ∧ SameMemory s u))))

/-- R407, R410, R411: at Bell CTX_BOUND a context that has not left enters RESTART, or leaves where it is DETACHING; 2 bl without a
data frame a context that has left enters SCRUBBING and its scrub is a job of Brine; queued enables are applied in order once their
function has rested a whole Bell. Before their time these events change nothing. Model's readings: log 25, 105. -/
def Obligations.ContextDeparturesAndQueuedEnables : Prop :=
    ∀ (s : State) (p c : Nat), ptnOfCtx s c = some p →
    let x := getCtx s c
    (x.bound ≠ 0 → counting s = true → x.bound ≤ s.bell.count →
      (x.state = .preempting → Completes (.preemptBoundExpiry c) s (fun u => (getCtx u c).state = .restart
        ∧ (getPtn u p).revoked = min ((getPtn s p).revoked + 1) 65535))
      ∧ (x.state = .detaching → x.stay = true → Completes (.preemptBoundExpiry c) s (fun u => (getCtx u c).state = .detaching
        ∧ (getCtx u c).stay = false ∧ (getPtn u p).revoked = min ((getPtn s p).revoked + 1) 65535)))
    ∧ ((x.bound = 0 ∨ s.bell.count < x.bound) → exec (.preemptBoundExpiry c) s = .next s)
    ∧ (∀ q, x.state = .detaching → x.stay = false → x.quietSince = some q →
      (quietFrom s c + 4096 ≤ now s → Completes (.landingQuiet c) s (fun u => (getCtx u c).state = .scrubbing
        ∧ u.brn.queue = s.brn.queue ++ [.context p c] ∧ SameMemory s u))
      ∧ (now s < quietFrom s c + 4096 → exec (.landingQuiet c) s = .next s))
    ∧ (∀ b, x.state = .free → x.restSince = some b → b + 1 ≤ s.bell.count →
      (∀ ks seat, x.enableQ = [.key ks, .attach seat] → Completes (.enableQueuedApply (.context c)) s (fun u =>
        (getCtx u c).state = .attaching ∧ (getCtx u c).reqSeat = seat ∧ (getCtx u c).loaded = true
        ∧ (getCtx u c).gen = (x.gen + 1) % 256 ∧ (getCtx u c).enableQ = []))
      ∧ (∀ seat, x.enableQ = [.attach seat] → Completes (.enableQueuedApply (.context c)) s (fun u =>
        getCtx u c = { x with enableQ := [], restSince := none, lastStatus := 1 })))
    ∧ (∀ y b, (getPtn s p).state = .off → (getPtn s p).enablePending = some y → (getPtn s p).restSince = some b →
      b + 1 ≤ s.bell.count → Completes (.enableQueuedApply (.partition p)) s (fun u =>
        (getPtn u p).syl = some y ∧ (getPtn u p).enablePending = none ∧ (getPtn u p).activeMax = ((grantOf s p).getD {}).ctxCount
        ∧ (s.int.heldClusters = [] → s.tst.deadChannels = [] → (getPtn u p).state = .active)))
    ∧ (∀ b, s.brn.engine = .off → s.brn.enablePending = true → s.brn.restSince = some b → b + 1 ≤ s.bell.count →
      Completes (.enableQueuedApply .brine) s (fun u =>
        u = { s with brn.engine := .on, brn.enablePending := false, brn.restSince := none }))

/-- R420, R421, R424: the operator's base commands queue a job or are answered at once with the reason, the installer's switch the
engine; the other role is answered ROLE. R410, R412, R413, R417, R420, R421: Brine takes one job at a time in order, while it is ON
and the governor is not in HOLD; a context's job ends with the context FREE and its key gone, a partition's with the partition OFF,
a base commit with Rind and a journal entry, or BAD_BASE without them, a base teardown with the base's Rind and key gone. A scrub
leaves zeros under a fresh key. Model's readings: log 52, 53. -/
def Obligations.Brine : Prop :=
  (  ∀ (s : State) (who : Req) (b : Nat), partsUp s = true → b < 65536 →
    let answered (c : Instr) (st : Nat) : Prop := Completes c s (fun u => u = { s with brn.done := true, brn.status := st })
    let room := journalRoom s = true
    let entered (k x : Nat) : State := journalFor s who { action := k, aux := x }
    (isOperator s who = true →
      ((s.syl.module = none ∨ baseWin s b = none) → answered (.baseCommit who b) 5 ∧ answered (.baseTeardown who b) 5)
      ∧ (s.syl.module.isSome = true → (baseWin s b).isSome = true →
        (b ∈ s.brn.rind → answered (.baseCommit who b) 8)
        ∧ (∀ k, b ∉ s.brn.rind → baseSlot s b = some k → tget none s.keys.base k = none → answered (.baseCommit who b) 7)
        ∧ (∀ k x, b ∉ s.brn.rind → baseSlot s b = some k → tget none s.keys.base k = some x →
          (room → Completes (.baseCommit who b) s (fun u => u = { s with
            brn.queue := s.brn.queue ++ [.baseCommit b (journalRole s who).1 (journalRole s who).2] }))
          ∧ (¬room → answered (.baseCommit who b) 3))
        ∧ (baseInUse s b = true → answered (.baseTeardown who b) 1)
        ∧ (baseInUse s b = false →
          (room → Completes (.baseTeardown who b) s (fun u => u = { entered 0x09 b with brn.queue := s.brn.queue ++ [.baseTeardown b] }))
          ∧ (¬room → answered (.baseTeardown who b) 3)))
      ∧ answered (.brineEnable who) 2 ∧ answered (.brineDisable who) 2)
    ∧ (isInstaller s who = true → ¬room → answered (.brineEnable who) 3 ∧ answered (.brineDisable who) 3)
    ∧ (isInstaller s who = true →
      (room → s.brn.engine ≠ .disabling → Completes (.brineEnable who) s (fun u =>
        u = { entered 0x12 2 with brn.engine := .on, brn.enablePending := false, brn.restSince := none, brn.done := true, brn.status := 0 }))
      ∧ (room → s.brn.engine = .disabling → Completes (.brineEnable who) s (fun u =>
        u = { entered 0x12 2 with brn.enablePending := true, brn.done := true, brn.status := 4 }))
      ∧ (room → s.brn.engine = .on → Completes (.brineDisable who) s (fun u =>
        u = { entered 0x12 3 with brn.engine := .disabling, brn.done := true, brn.status := 0 }))
      ∧ answered (.baseCommit who b) 2 ∧ answered (.baseTeardown who b) 2)
    ∧ (s.brn.engine = .disabling → Completes .brineDisabled s (fun u => u.brn.engine = .off ∧ u.brn.queue = s.brn.queue)))
  ∧ (  (∀ (s : State) (j : BrnJob) (q : List BrnJob), s.brn.queue = j :: q →
    (s.brn.engine = .on → s.brn.cur = none → s.pwr.hold = false → Completes .brineJobStart s (fun u =>
      u.brn.cur = some j ∧ u.brn.queue = q ∧ u.mem = s.mem))
    ∧ ((s.brn.engine ≠ .on ∨ s.brn.cur ≠ none ∨ s.pwr.hold = true) → exec .brineJobStart s = .next s))
  ∧ (∀ (s : State) (j : BrnJob), s.brn.cur = some j → captureHolds s j = true → exec .brineJobEnd s = .next s)
  ∧ (∀ (s : State) (j : BrnJob), s.brn.cur = some j → s.brn.engine = .on → s.pwr.hold = false → captureHolds s j = false →
    Completes .brineJobEnd s (fun u => u.brn.cur = none ∧ u.brn.count = min (s.brn.count + 1) (2 ^ 32 - 1)
      ∧ (∀ p c, j = .context p c → (getCtx u c).state = .free ∧ (getCtx u c).loaded = false ∧ tget none u.keys.ctx c = none)
      ∧ (∀ p, j = .partition p → (getPtn u p).state = .off ∧ tget none u.keys.ptn p = none
          ∧ ∀ c ∈ ctxRange s p, (getCtx u c).state = .free)
      ∧ (∀ b role slot t bs, j = .baseCommit b role slot → loadBase s b = (t, .ok bs) →
          (journalRoom t = true → b ∈ u.brn.rind ∧ u.brn.status = 0 ∧ u.led.seq = t.led.seq + 1 ∧ u.mem = t.mem
            ∧ (∃ e, u.led.journal.getLast? = some e ∧ e.action = 0x14 ∧ e.role = role ∧ e.slot = slot ∧ e.aux = b))
          ∧ (journalRoom t = false → u.brn.rind = t.brn.rind ∧ u.brn.status = 3 ∧ u.led = t.led))
      ∧ (∀ b role slot t x, j = .baseCommit b role slot → loadBase s b = (t, .error x) → u.brn.status = 6 ∧ u.brn.rind = t.brn.rind ∧ u.mem = t.mem)
      ∧ (∀ b, j = .baseTeardown b → b ∉ u.brn.rind ∧ u.brn.status = 0)))
  ∧ ∀ (s : State) (k : MemKind) (off n : Nat), k.isSram = false → 0 < n → off % 2 ^ 36 + n ≤ 2 ^ 36 →
    let u := scrubLinear s k off n
    let a := addrOf (k, off)
    (∀ i, a ≤ i → i < a + n → readByte u i = 0) ∧ (∀ i, i < a ∨ a + n ≤ i → readByte u i = readByte s i)
    ∧ (off % 64 = 0 → n % 64 = 0 → ∀ i, a ≤ i → i < a + n → keyAt u.memKey (i / 64) = (draw s 64).1))

/-- R381, R382, R383: a LOAD that fails a check reports the first failure with its section and record, raises SYLLABUS_REJECT,
appends a journal entry and changes no structure and no memory; a module Syllabus that passes comes into force with its granted
partitions OFF, a partition Syllabus of an OFF partition with the partition ACTIVE. Another role's write changes nothing. R386,
R387, R388: an accepted partial reload of an IDLE Timetable applies at once, of another one at its Lesson: its sections replace the
old ones and the measurement becomes the digest of both, while a command that has started keeps the old ones; CANCEL removes one
that is pending while its Bell is at least 2 ahead or its Timetable is HELD, and is refused TOO_LATE otherwise and once its Lesson
has begun. Model's readings: log 69, 70, 71, 72. -/
def Obligations.SyllabusLoadsAndReloads : Prop :=
  (  ∀ (s : State) (who : Req) (len : Nat), len < 2 ^ 32 → s.syl.busy = false →
    let s0 := { s with syl.len := len }
    let b := loadBuffer s0 len
    let c := Instr.syllabusLoad who len
    (maySyl s who = false → exec c s = .next s)
    ∧ (maySyl s who = true → journalRoom s = true →
      (∀ e, checkImage s0 (roleOf s0 who) b len = .error e → Completes c s (fun u =>
        u.syl.done = true ∧ u.syl.busy = false ∧ u.syl.reason = e.reason ∧ u.syl.sect = e.sect ∧ u.syl.record = e.record
        ∧ u.syl.module = s.syl.module ∧ u.syl.mode = s.syl.mode ∧ u.ptn = s.ptn ∧ u.ctx = s.ctx ∧ u.rc = s.rc ∧ u.core = s.core
        ∧ u.keys = s.keys ∧ u.mem = s.mem ∧ u.led.seq = s.led.seq + 1 ∧ u.int.log ≠ []))
      ∧ (∀ m, checkImage s0 (roleOf s0 who) b len = .ok (.module m) → Completes c s (fun u =>
        u.syl.module = some m ∧ u.syl.mode = 2 ∧ u.syl.done = true ∧ u.syl.reason = 0 ∧ u.keys.openHouse = none
        ∧ u.vat.ready = true ∧ u.led.seq = s.led.seq + 1 ∧ u.mem = s.mem
        ∧ ∀ p, p < 64 → (getPtn u p).state = if m.grants.any (fun g => g.ptn == p) then .off else .ungranted))
      ∧ (∀ p y, checkImage s0 (roleOf s0 who) b len = .ok (.partition p y) → (getPtn s p).state = .off → s.int.heldClusters = [] →
        s.tst.deadChannels = [] →
        Completes c s (fun u => (getPtn u p).state = .active ∧ (getPtn u p).syl = some y
          ∧ (getPtn u p).activeMax = ((grantOf s p).getD {}).ctxCount
          ∧ (getPtn u p).gen = ((getPtn s p).gen + 1) % 256 ∧ u.syl.module = s.syl.module ∧ u.led.seq = s.led.seq + 1
          ∧ ∀ q, q ≠ p → (getPtn u q).syl = (getPtn s q).syl))
      ∧ (∀ p y, checkImage s0 (roleOf s0 who) b len = .ok (.partition p y) → (getPtn s p).state ≠ .off → Completes c s (fun u =>
        (getPtn u p).enablePending = some y ∧ (getPtn u p).state = (getPtn s p).state ∧ u.syl.busy = true ∧ u.syl.done = false))))
  ∧ (  ∀ (s : State) (p : Nat) (r : Reload) (y : PtnSyl), (getPtn s p).reload = some r → (getPtn s p).syl = some y →
    let t := (getPtn s p).tt
    let begun := t.state ≠ .armed ∧ r.applyAt ≤ t.lesson % 2 ^ 32
    let late (u : State) : Prop := (getPtn u p).reload = some r ∧ u.syl.reason = syTooLate ∧ u.syl.done = true
    let taken (u : State) : Prop :=
      (getPtn u p).reload = none ∧ (getPtn u p).syl = some y ∧ u.syl.reason = 0 ∧ u.syl.done = true ∧ u.led.seq = s.led.seq + 1
    let y' : PtnSyl := { y with
      routes := r.routes.getD y.routes, tt := r.tt.getD y.tt, recipe := r.recipe.getD y.recipe, serial := r.serial,
      meas := shake256 64 (y.meas ++ r.meas) }
    ((t.state = .idle ∨ (t.inLesson = true ∧ t.lesson % 2 ^ 32 = r.applyAt ∧ t.next = 0)) →
      Completes (.partialReloadApply p) s (fun u => getPtn u p = { getPtn s p with reload := none, syl := some y' }
        ∧ u.mem = s.mem ∧ (∀ q, q ≠ p → getPtn u q = getPtn s q)
        ∧ (∀ n ∈ coresOf s p, (getCore s n).acdRun.isSome = true → (getCore s n).under = none →
            getCore u n = { getCore s n with under := some (y.routes, y.recipe) })))
    ∧ (t.state ≠ .idle → (t.inLesson = false ∨ t.lesson % 2 ^ 32 ≠ r.applyAt ∨ t.next ≠ 0) →
      exec (.partialReloadApply p) s = .next s)
    ∧ (∀ who, isOperator s who = true → s.syl.busy = false → journalRoom s = true → p < 64 → t.state ≠ .idle →
      (∀ b, lessonStart t y.tt r.applyAt = some b → s.bell.count + 2 ≤ b → ¬begun → Completes (.syllabusCancel who p) s taken)
      ∧ (t.state = .held → ¬begun → Completes (.syllabusCancel who p) s taken)
      ∧ (∀ b, lessonStart t y.tt r.applyAt = some b → b < s.bell.count + 2 → Completes (.syllabusCancel who p) s late)
      ∧ (begun → Completes (.syllabusCancel who p) s late)))

/-- R391, R395, R396: the operator's open-house commands have their effect in the states that permit them, and are answered with the
code of their reason otherwise; while one runs the others are answered BUSY and OH_CLEAR waits; OH_TRAIN is TRAINING with the
adapter at its start values; outside open house every one is answered NOT_OPEN_HOUSE. R391, R393, R395: at the Lesson boundary of a
training run one more step is complete, with OUT0 the steps completed and the Press state block a step further; after the last step
the state is TRAINED and OH_TRAIN is answered OK, and an OH_CLEAR that waits ends the run and leaves open house EMPTY; at another
Bell the run stands. Model's readings: log 44, 74, 75, 134. -/
def Obligations.OpenHouseCommands : Prop :=
  (  ∀ (s : State) (who : Req), isOperator s who = true →
    let done (u : State) (code st : Nat) : Prop := u.oh.done = true ∧ u.oh.busy = false ∧ u.oh.lastCmd = code ∧ u.oh.status = st
    (openHouse s = false → ∀ c k, (c, k) ∈ [(Instr.ohBase who 0, 1), (.ohData who 1, 2), (.ohTrain who 1 128 0 0, 3), (.ohEval who 0 1, 4),
      (.ohResult who, 5), (.ohClear who, 6)] → Completes c s (fun u => done u k 9 ∧ u.oh.state = s.oh.state ∧ u.oh.fill = s.oh.fill))
    ∧ (openHouse s = true → s.oh.busy = true →
      (∀ c k, (c, k) ∈ [(Instr.ohBase who 0, 1), (.ohData who 1, 2), (.ohTrain who 1 128 0 0, 3), (.ohEval who 0 1, 4), (.ohResult who, 5)] →
        Completes c s (fun u => u.oh.done = true ∧ u.oh.busy = true ∧ u.oh.lastCmd = k ∧ u.oh.status = 1 ∧ u.oh.state = s.oh.state
          ∧ u.oh.job = s.oh.job))
      ∧ Completes (.ohClear who) s (fun u => u.oh.busy = true ∧ u.oh.state = s.oh.state ∧ u.oh.job = { s.oh.job with clearing := true }
          ∧ u.mem = s.mem))
    ∧ (openHouse s = true → s.oh.busy = false →
      (∀ bytes, bytes ≤ 384 * giB → s.oh.state = .empty →
        let d := ohRead s ohWork 0 64
        let args := ([bytes % 2 ^ 32, bytes / 2 ^ 32 % 2 ^ 32] ++ s.oh.args.drop 2).take 7
        (ohDescOk d = true → ∀ t bs, loadBase { s with oh.desc := d, oh.args := args } (field d 0x18 2) = (t, .ok bs) →
          Completes (.ohBase who bytes) s (fun u => done u 1 0 ∧ u.oh.state = .based ∧ field d 0x18 2 ∈ u.brn.rind
            ∧ u.oh.outs = [field bs 2 2, 0, 0] ∧ u.mem = t.mem))
        ∧ (ohDescOk d = false → Completes (.ohBase who bytes) s (fun u => done u 1 6 ∧ u.oh.state = .empty ∧ u.brn = s.brn)))
      ∧ (∀ bytes, 384 * giB < bytes → bytes < 2 ^ 64 → s.oh.state = .empty →
        Completes (.ohBase who bytes) s (fun u => done u 1 3 ∧ u.oh.state = .empty))
      ∧ (∀ n, 1 ≤ n → n ≤ 2 ^ 28 → (s.oh.state = .based ∨ s.oh.state = .trained) → s.oh.fill + n ≤ 2 ^ 36 →
        ((∀ k, k < n → leNat (ohRead s ohToken (4 * (s.oh.fill + k)) 4) < ohVocab s) →
          Completes (.ohData who n) s (fun u => done u 2 0 ∧ u.oh.fill = s.oh.fill + n ∧ u.mem = s.mem))
        ∧ ((∃ k, k < n ∧ ohVocab s ≤ leNat (ohRead s ohToken (4 * (s.oh.fill + k)) 4)) →
          Completes (.ohData who n) s (fun u => done u 2 4 ∧ u.oh.fill = s.oh.fill)))
      ∧ (∀ steps len seed ad, 1 ≤ steps → steps ≤ 1048576 → len ∈ [128, 256, 512, 1024, 2048, 4096] → seed < 2 ^ 128 → ad < 2 ^ 24 →
        (s.oh.state = .based ∨ s.oh.state = .trained) → Completes (.ohTrain who steps len seed ad) s (fun u =>
          u.oh.state = .training ∧ u.oh.busy = true ∧ u.oh.lastCmd = 3 ∧ u.oh.outs = [0, 0, 0] ∧ u.oh.adapter = ad ∧ u.mem = s.mem
          ∧ u.oh.job.steps = steps ∧ u.oh.job.step = 0 ∧ u.oh.job.image = ohImage s.oh.desc ad (ohStart s.oh.desc seed)))
      ∧ (∀ a n, a < 2 ^ 32 → n < 2 ^ 32 → s.oh.state = .trained → a + n ≤ s.oh.fill →
        Completes (.ohEval who a n) s (fun u => done u 4 0 ∧ u.oh.state = .trained ∧ u.mem = s.mem))
      ∧ (s.oh.state = .trained → Completes (.ohResult who) s (fun u => done u 5 0 ∧ u.oh.state = .trained
          ∧ u.oh.outs.length = 3 ∧ getAt 0 u.oh.outs 2 = s.oh.job.image.length))
      ∧ Completes (.ohClear who) s (fun u => done u 6 0 ∧ u.oh.state = .empty ∧ u.oh.fill = 0 ∧ ohBaseId s ∉ u.brn.rind
          ∧ ∀ i, i < 2 ^ 36 → readByte u (addrOf (.hbm, 0) + i) = 0)
      ∧ (s.oh.state = .empty → ∀ c k, (c, k) ∈ [(Instr.ohData who 1, 2), (.ohTrain who 1 128 0 0, 3), (.ohEval who 0 1, 4), (.ohResult who, 5)] →
        Completes c s (fun u => done u k 2 ∧ u.oh.state = .empty ∧ u.mem = s.mem))))
  ∧ (  ∀ (s : State) (y : Timetable), s.oh.state = .training → s.oh.job.tt = some y → counting s = true →
    let j := s.oh.job
    let n := (s.bell.count + 1) % 2 ^ 64
    (n = j.bound + y.lessonBells →
      (j.clearing = false → Completes .bell s (fun u =>
        u.oh.job.step = j.step + 1 ∧ u.oh.outs = [j.step + 1, 0, 0] ∧ u.oh.job.psb = ohPsbStep j.psb
        ∧ u.oh.job.bound = j.bound + y.lessonBells
        ∧ (j.step + 1 < j.steps → u.oh.state = .training ∧ u.oh.busy = s.oh.busy)
        ∧ (j.steps ≤ j.step + 1 → u.oh.state = .trained ∧ u.oh.done = true ∧ u.oh.busy = false ∧ u.oh.lastCmd = 3 ∧ u.oh.status = 0)))
      ∧ (j.clearing = true → Completes .bell s (fun u =>
        u.oh.state = .empty ∧ u.oh.fill = 0 ∧ u.oh.done = true ∧ u.oh.busy = false ∧ u.oh.lastCmd = 6 ∧ u.oh.status = 0)))
    ∧ (n ≠ j.bound + y.lessonBells → Completes .bell s (fun u => u.oh = s.oh)))

/-- R155, R156, R157: an operation at a request port that meets its conditions is answered OK and has its effect: CLAIM_SLOT writes
the record and validates the ID map entry, FETCH opens a fetch with the next FETCH_SEQ, CANCEL ends it and scrubs, the expert index
entries are validated and released, STAGE and UNSTAGE start their copies, EVICT invalidates the ID and starts the scrub. R154, R155,
R156, R157: the refusals of the request ports: a slot or an ID that is taken, a state that the operation does not start from, a
context that is not the owner or not the port's, an entry or slot in use; none changes memory. A record that fails its check raises
VAT_DIRECTORY. Model's readings: log 41. -/
def Obligations.VatOperations : Prop :=
  (  ∀ (s : State) (who : Req) (port slot ctx : Nat) (v : VSlot), mayPort s who port = true → (getPort s port).busy = false →
    s.vat.ready = true → slot < 65536 → ctx < 4096 → slotAt? s slot = some v → (64 ≤ port ∨ attachedTo s port ctx = true) →
    (∀ id addr units, v.state = slFree → id < 2 ^ 24 → addr < 2 ^ 64 → 0 < units → units < 65536 → idEntry s id = .ok none →
      inData s addr (units * 65536) = true → PortAnswered s (.claimSlot who port slot ctx id addr units) port vOk (fun u =>
        u.mem = (putId (putSlot s slot {
          state := slClaimed, gen := (v.gen + 1) % 256, owner := mkTag ctx, adapter := id, data := addr, len := units * 65536,
          claim := now s, fetchSeq := v.fetchSeq }) id (some slot)).mem))
    ∧ (v.owner = mkTag ctx →
      (∀ sem, sem < 65536 → v.state = slClaimed → s.vat.fetches.length < 64 → PortAnswered s (.fetch who port slot ctx sem) port vOk
        (fun u => u.mem = (putSlot s slot { v with state := slFetching, fetchSeq := (v.fetchSeq + 1) % 2 ^ 32 }).mem
          ∧ ∃ f : VFetch, u.vat.fetches = s.vat.fetches ++ [f] ∧ f.slot = slot ∧ f.gen = v.gen ∧ f.seq = (v.fetchSeq + 1) % 2 ^ 32
            ∧ f.ctx = ctx ∧ f.adapter = v.adapter ∧ f.sem = sem))
      ∧ (∀ sem f, sem < 65536 → v.state = slFetching → s.vat.fetches.find? (fun f => f.slot == slot) = some f →
        PortAnswered s (.cancel who port slot ctx sem) port vOk (fun u => u.mem = s.mem
          ∧ u.vat.fetches = s.vat.fetches.filter (fun g => g.slot != slot)
          ∧ ∃ j : VJob, u.vat.jobs = s.vat.jobs ++ [j] ∧ j.kind = .cancel ∧ j.slot = slot ∧ j.bytes = f.data.length))
      ∧ (∀ idx layer loc p, idx < 256 → layer < 256 → loc < 64 → (v.state = slResident ∨ v.state = slStaged) →
        vatPtn s port ctx = some p →
        (expEntry s p layer idx = .ok none → v.kind = 2 → slotHasExpert s v layer loc = true →
          PortAnswered s (.claimExpert who port slot ctx idx layer loc) port vOk (fun u =>
            u.mem = (putExp s p layer idx (some (loc, slot))).mem))
        ∧ (expEntry s p layer idx = .ok (some (loc, slot)) → PortAnswered s (.releaseExpert who port slot ctx idx layer loc) port vOk
          (fun u => u.mem = (putExp s p layer idx none).mem)))
      ∧ (∀ stg addr sem p, stg < 4096 → addr < 2 ^ 64 → sem < 65536 → v.state = slResident → vatPtn s port ctx = some p →
        stg < adaptMax s p → inStaging s p addr (slotImg s v).len = true → (parseStg (readStg s p stg)).state = 0 →
        PortAnswered s (.stage who port slot ctx stg addr sem) port vOk (fun u =>
          u.mem = (writeStg s p stg {
            state := 1, owner := v.owner, slot := slot, gen := v.gen, kind := v.kind, image := addr, len := (slotImg s v).len,
            adapter := v.adapter }).mem
          ∧ ∃ j : VJob, u.vat.jobs = s.vat.jobs ++ [j] ∧ j.kind = .stage ∧ j.slot = slot ∧ j.sem = sem ∧ j.waiting = s.pwr.hold
            ∧ j.stg = stg ∧ j.ptn = p ∧ j.addr = addr))
      ∧ (∀ sem, sem < 65536 → v.state = slStaged → PortAnswered s (.unstage who port slot ctx sem) port vOk (fun u => u.mem = s.mem
        ∧ ∃ j : VJob, u.vat.jobs = s.vat.jobs ++ [j] ∧ j.kind = .unstage ∧ j.slot = slot ∧ j.waiting = unstageWaits s v
          ∧ j.stg = v.stg ∧ j.ptn = v.stgPtn ∧ j.addr = v.stage))
      ∧ (∀ sem, sem < 65536 → (v.state = slClaimed ∨ v.state = slResident) → expertsOf s slot = [] →
        PortAnswered s (.evict who port slot ctx sem) port vOk (fun u =>
          u.mem = (putSlot (putId s v.adapter none) slot { v with state := slEvicting }).mem
          ∧ ∃ j : VJob, u.vat.jobs = s.vat.jobs ++ [j] ∧ j.kind = .evict ∧ j.slot = slot ∧ j.bytes = v.len ∧ j.sem = sem))))
  ∧ (  ∀ (s : State) (who : Req) (port slot ctx : Nat), mayPort s who port = true → (getPort s port).busy = false → s.vat.ready = true →
    slot < 65536 → ctx < 4096 →
    let refused (c : Instr) (st : Nat) : Prop := PortAnswered s c port st (fun u => u.mem = s.mem ∧ u.vat.jobs = s.vat.jobs
      ∧ u.vat.fetches = s.vat.fetches)
    (∀ v, slotAt? s slot = some v → (64 ≤ port ∨ attachedTo s port ctx = true) →
      (v.state ≠ slFree → refused (.claimSlot who port slot ctx 1 0 1) vSlotBusy)
      ∧ (∀ id k, id < 2 ^ 24 → v.state = slFree → idEntry s id = .ok (some k) →
          refused (.claimSlot who port slot ctx id 0 1) vIdLive)
      ∧ (∀ id addr units, id < 2 ^ 24 → addr < 2 ^ 64 → units < 65536 → v.state = slFree → idEntry s id = .ok none →
          (units = 0 ∨ inData s addr (units * 65536) = false) → refused (.claimSlot who port slot ctx id addr units) vBadRange)
      ∧ (v.owner ≠ mkTag ctx → ∀ c ∈ [Instr.fetch who port slot ctx 0, .cancel who port slot ctx 0,
          .claimExpert who port slot ctx 0 0 0, .releaseExpert who port slot ctx 0 0 0, .stage who port slot ctx 0 0 0,
          .unstage who port slot ctx 0, .evict who port slot ctx 0], refused c vForeign)
      ∧ (v.owner = mkTag ctx →
        (v.state ≠ slClaimed → refused (.fetch who port slot ctx 0) vBadState)
        ∧ (v.state ≠ slFetching → refused (.cancel who port slot ctx 0) vBadState)
        ∧ (v.state ≠ slStaged → refused (.unstage who port slot ctx 0) vBadState)
        ∧ (v.state ≠ slClaimed → v.state ≠ slResident → refused (.evict who port slot ctx 0) vBadState)
        ∧ (v.state = slResident → expertsOf s slot ≠ [] → refused (.evict who port slot ctx 0) vInUse)))
    ∧ (port < 64 → attachedTo s port ctx = false → (slotAt? s slot).isSome = true →
      refused (.fetch who port slot ctx 0) vForeign ∧ refused (.claimSlot who port slot ctx 1 0 1) vForeign)
    ∧ (slotAt? s slot = none → refused (.fetch who port slot ctx 0) vBadState
      ∧ Completes (.fetch who port slot ctx 0) s (fun u => u.int.lastCode = FaultCode.vatDirectory.code)))

/-- R154, R161, R162, R163, R165: a finished copy makes the entry READY and the slot STAGED, or the entry EMPTY and the slot
RESIDENT; a second copy of a slot that has left its state leaves it there; a finished scrub leaves the slot FREE or CLAIMED, and
ends the CANCELs that wait for it; the job is gone; a record that fails its check then is not acted on. A fetch whose deadline has
passed fails with ADAPTER_FETCH and is scrubbed; before it nothing happens. Model's readings: log 11, 42, 43. -/
def Obligations.VatJobsEnd : Prop :=
    (∀ (s : State) (slot : Nat) (j : VJob), slotAt? s slot = none →
    jobOf s slot (fun k => k == .stage || k == .unstage) = some j →
    Completes (.vatCopyDone slot) s (fun u => u.vat.jobs = eraseFirst (· == j) s.vat.jobs ∧ u.mem = s.mem))
  ∧ ∀ (s : State) (slot : Nat) (v : VSlot) (j : VJob), slotAt? s slot = some v →
    let d := dropJob s j
    (jobOf s slot (fun k => k == .stage || k == .unstage) = some j →
      let e := parseStg (readStg s j.ptn j.stg)
      let here := v.state = slStaged ∧ v.stg = j.stg ∧ v.stgPtn = j.ptn
      Completes (.vatCopyDone slot) s (fun u => u.vat.jobs = eraseFirst (· == j) s.vat.jobs
        ∧ (j.kind = .stage → v.state = slResident → e.gen = v.gen →
            u.mem = (putSlot (writeStg (copyImg d v.owner v.data j.addr e.len) j.ptn j.stg { e with state := 2 }) slot
              { v with state := slStaged, stage := j.addr, stg := j.stg, stgPtn := j.ptn, last := vOk }).mem)
        ∧ (j.kind = .stage → (v.state ≠ slResident ∨ e.gen ≠ v.gen) →
            u.mem = (putSlot (writeStg d j.ptn j.stg {}) slot { v with last := vBadState }).mem)
        ∧ (j.kind = .unstage → here → u.mem = (putSlot (writeStg (copyImg d v.owner j.addr v.data e.len) j.ptn j.stg {}) slot
            { v with state := slResident, stage := 0, stg := 0, stgPtn := 0, last := vOk }).mem)
        ∧ (j.kind = .unstage → ¬here → u.mem = (putSlot d slot { v with last := vBadState }).mem)))
    ∧ (jobOf s slot (fun k => k == .evict || k == .cancel || k == .failed || k == .repair) = some j →
      let waiting (k : VJob) : Prop := k.slot = slot ∧ k.kind = .cancel
      let alone := ∀ k ∈ d.vat.jobs, ¬waiting k
      (j.kind = .evict → alone → Completes (.vatScrubDone slot) s (fun u => u.vat.jobs = d.vat.jobs
        ∧ u.mem = (putSlot (scrubRange d v.data (min j.bytes v.len)) slot { gen := v.gen, fetchSeq := v.fetchSeq }).mem))
      ∧ (j.kind = .cancel → alone → Completes (.vatScrubDone slot) s (fun u => u.vat.jobs = d.vat.jobs
        ∧ u.mem = (putSlot (scrubRange d v.data (min j.bytes v.len)) slot { v with state := slClaimed, last := vOk }).mem))
      ∧ (j.kind = .failed → alone → Completes (.vatScrubDone slot) s (fun u => u.vat.jobs = d.vat.jobs
        ∧ u.mem = (putSlot (scrubRange d v.data (min j.bytes v.len)) slot { v with state := slClaimed, last := vFetchFailed }).mem))
      ∧ (j.kind = .failed → ∀ k ∈ d.vat.jobs, waiting k → Completes (.vatScrubDone slot) s (fun u => (∀ i ∈ u.vat.jobs, ¬waiting i)
        ∧ u.mem = (putSlot (putSlot (scrubRange d v.data (min j.bytes v.len)) slot { v with state := slClaimed, last := vFetchFailed })
            slot { v with state := slClaimed, last := vOk }).mem)))
    ∧ (∀ f, s.vat.fetches.find? (fun f => f.slot == slot) = some f →
      (judgeNow s (fetchDeadline s f) = .timeout → Completes (.fetchDeadline slot) s (fun u =>
        u.vat.fetches = s.vat.fetches.filter (fun g => g.slot != slot) ∧ u.int.lastCode = FaultCode.adapterFetch.code ∧ u.mem = s.mem
        ∧ ∃ k : VJob, u.vat.jobs = s.vat.jobs ++ [k] ∧ k.kind = .failed ∧ k.slot = slot))
      ∧ (judgeNow s (fetchDeadline s f) ≠ .timeout → exec (.fetchDeadline slot) s = .next s))

/-- R153, R154: a slot record that the Vat writes reads back with every field: the record's layout and its check hold for every
value that the fields admit. Model's readings: log 41. -/
def Obligations.VatRecordsReadBack : Prop :=
    ∀ (s : State) (k : Nat) (v : VSlot) (p : Place), placeOf none (vatSlot s k) = some p → meetsRind s p 64 = false → s.memErr = [] →
    Memory.wf s.mem = true → v.state ≤ 5 → v.gen < 256 → v.owner < 65536 → v.adapter < 2 ^ 24 → v.kind < 256 → v.data < 2 ^ 64 →
    v.len < 2 ^ 32 → v.baseId < 65536 → v.last < 65536 → v.claim < 2 ^ 64 → v.stage < 2 ^ 64 → v.stg < 4096 → v.stgPtn < 64 →
    v.fetchSeq < 2 ^ 32 → v.stateAddr < 2 ^ 64 → slotAt? (putSlot s k v) k = some v

/-- R455, R456, R462, R474, R631: the transfer engines take the XFER at the head of its core's queue; one whose CRC is wrong, whose
fields are reserved or unused and not 0, or whose partition, context or pool is not its issuer's is rejected with XFER_INVALID and
one of an old epoch ends with ABORT_RESET, all before anything is read or written. R455, R461, R456, R472: COPY writes the bytes of
its source, a panel with its owner rewritten; NODE writes the sum of two panels of one key; DIGEST writes the digest of its source;
a panel whose CRC is wrong stops the XFER with XFER_OPERAND. Of an owner's DIGEST, a holder's digest that differs raises
REPLICA_MISMATCH, and the owner's check of its shard gives what follows: nothing more where master and copy hold, a hold of the
context where its master does not. Model's readings: log 89, 91, 95. -/
def Obligations.LocalTransfers : Prop :=
  (  ∀ (s : State) (n op : Nat) (e : QEntry) (q : List QEntry) (c : Instr),
    (c, op) ∈ [(Instr.xferSend n, 1), (.xferFetch n, 2), (.xferCopy n, 3), (.xferNode n, 4), (.xferDigest n, 5), (.xferRetract n, 6)] →
    XferHead s n op e q →
    let x := parseXfer e.desc
    let v := xferTaken s n e q
    let none_ (u : State) := u.mem = s.mem ∧ u.xf = s.xf ∧ (getCore u n).xferQ = q
    (descCrcOk e.desc = false → Completes c s (fun u => none_ u ∧ XferEnded s u n op 3 ∧ (getCore u n).xFault = 0x504))
    ∧ (descCrcOk e.desc = true → x.epoch ≠ (getCore s n).epoch → Completes c s (fun u => none_ u ∧ XferEnded s u n op 5))
    ∧ (descCrcOk e.desc = true → x.epoch = (getCore s n).epoch →
        (xferFieldsOk x = false ∨ xferOwnerOk v e.issuer x = false) →
        Completes c s (fun u => none_ u ∧ XferEnded s u n op 3 ∧ (getCore u n).xFault = 0x504)))
  ∧ (  (∀ (s : State) (i : Issuer) (x : Xfer) (rc : ReplicaCheck) (dig : List Byte), rc.again = none →
    let r := ownerRun s i x rc
    let action := ownerAction s r ((r.panels.drop rc.first).take rc.count)
    let u := replicaCheck s i x rc dig
    ((∀ d ∈ rc.digests, d.2 = dig) → u = s)
    ∧ ((∃ d ∈ rc.digests, d.2 ≠ dig) →
      (action = 1 → u.mem = s.mem ∧ u.int.lastCode = FaultCode.replicaMismatch.code)
      ∧ (action = 3 → u.mem = s.mem ∧ (getCtx u x.ctx).pressHold = true ∧ u.int.lastCode = FaultCode.pressState.code)))
  ∧ ∀ (s : State) (n op : Nat) (e : QEntry) (q : List QEntry), XferHead s n op e q → XferSound (xferTaken s n e q) e →
    let x := parseXfer e.desc
    let i := e.issuer
    let v := xferTaken s n e q
    ∀ p, xPlace v i .read x.src x.len = some p →
    (∀ d t bs, op = 3 → xPlace v i .write x.dst x.len = some d → x.pb = 0 → xRead v i p x.len = (t, bs, false) →
      Completes (.xferCopy n) s (fun u => u.mem = (xWrite t i d bs).mem ∧ XferEnded s u n 3 0))
    ∧ (∀ d t bs ue, op = 3 → xPlace v i .write x.dst x.len = some d → x.pb ≠ 0 → x.len = x.panel →
      xRead v i p x.len = (t, bs, ue) →
      (panelCrcOk bs = true → Completes (.xferCopy n) s (fun u =>
        u.mem = (xWrite t i d (panelSeal (patch bs 4 (leBytes 2 (mkTag x.ctx))))).mem ∧ XferEnded s u n 3 0))
      ∧ (panelCrcOk bs = false → Completes (.xferCopy n) s (fun u => u.mem = t.mem ∧ XferEnded s u n 3 4
          ∧ (getCore u n).xFault = FaultCode.xferOperand.code)))
    ∧ (∀ p2 d t l t2 r a b, op = 4 → xPlace v i .read x.src2 x.len = some p2 → xPlace v i .write x.dst x.len = some d →
      x.len = x.panel → xRead v i p x.len = (t, l, a) → xRead t i p2 x.len = (t2, r, b) →
      (panelCrcOk l = true → panelCrcOk r = true → nodeKey l = nodeKey r → Completes (.xferNode n) s (fun u =>
        u.mem = (xWrite t2 i d (nodePanel l r)).mem ∧ XferEnded s u n 4 0))
      ∧ (¬(panelCrcOk l = true ∧ panelCrcOk r = true ∧ nodeKey l = nodeKey r) → Completes (.xferNode n) s (fun u =>
        u.mem = t2.mem ∧ XferEnded s u n 4 4 ∧ (getCore u n).xFault = FaultCode.xferOperand.code)))
    ∧ (∀ d t bs, op = 5 → xPlace v i .write x.dst 32 = some d → x.pb = 0 → xRead v i p x.len = (t, bs, false) →
      let w := xWrite t i d (shake256 32 bs)
      Completes (.xferDigest n) s (fun u => XferEnded s u n 5 0
        ∧ u.mem = (replicaCheck w i x (replicaOf w i x d (shake256 32 bs)) (shake256 32 bs)).mem
        ∧ ((∀ y ∈ digestsIn w i x d, y.2 = shake256 32 bs) → u.mem = w.mem))))

/-- R455, R306, R441, R457, R460, R309: a SEND takes its credits and goes out on the port of its route behind its header, it waits
while its pool holds too few and ends ABORTED where no route leads to its module; a FETCH goes out without credits; a RETRACT of a
send that has not begun to leave takes it back, and one that finds no send answers TOO_LATE. Model's readings: log 89, 90, 91. -/
def Obligations.RemoteTransfers : Prop :=
    ∀ (s : State) (n op : Nat) (e : QEntry) (q : List QEntry), XferHead s n op e q → XferSound (xferTaken s n e q) e →
    let x := parseXfer e.desc
    let i := e.issuer
    let v := xferTaken s n e q
    (∀ p t bs, op = 1 → xPlace v i .read x.src x.len = some p → x.exch = false → x.runahead = false →
      xRead v i p x.len = (t, bs, false) → isOwnLmn t x.lmn = false →
      let k := creditsOf x.len
      let have_ := (getPool t x.pool).credits
      (∀ port, k ≤ have_ → routePort t x.lmn = some port → Completes (.xferSend n) s (fun u =>
        SendUnderWay u (some n) x.lmn x.pool x.seq port ((xferHdr t i x).bytes ++ bs)
        ∧ (getPool u x.pool).credits = have_ - k ∧ u.mem = t.mem ∧ (getCore u n).xferRun = some e))
      ∧ (have_ < k → Completes (.xferSend n) s (fun u => u.fab = t.fab ∧ u.rc = t.rc ∧ u.mem = t.mem
          ∧ ∃ y : Send, u.xf.sends = t.xf.sends ++ [y] ∧ y.core = some n ∧ y.need = k ∧ y.port = none))
      ∧ (k ≤ have_ → routePort t x.lmn = none → Completes (.xferSend n) s (fun u =>
          u.mem = t.mem ∧ u.fab = t.fab ∧ XferEnded s u n 1 1)))
    ∧ (∀ port, op = 2 → isOwnLmn s x.lmn = false → routePort s x.lmn = some port → Completes (.xferFetch n) s (fun u =>
        SendUnderWay u (some n) x.lmn x.pool x.seq port (xferHdr v i x).bytes ∧ u.rc = s.rc ∧ u.mem = s.mem
        ∧ (getCore u n).xferRun = some e))
    ∧ (op = 6 →
      let mine (y : Send) : Bool := y.runahead && y.ptn == i.ptn && y.pool == x.pool && y.seq == x.seq
      ((s.xf.sends ++ s.xf.gone).find? mine = none → Completes (.xferRetract n) s (fun u =>
        u.mem = s.mem ∧ u.rc.retractLateSeen = true ∧ u.xf = s.xf ∧ XferEnded s u n 6 2
        ∧ (getCore u n).xFault = FaultCode.retractLate.code))
      ∧ (∀ y, (s.xf.sends ++ s.xf.gone).find? mine = some y → y.left = none → y.need ≠ 0 → y.core ≠ some n →
          { y with runahead := false, need := 0, wire := [] } ∉ s.xf.sends → Completes (.xferRetract n) s (fun u =>
            u.mem = s.mem ∧ u.fab = s.fab ∧ u.xf.sends = eraseFirst (· == y) s.xf.sends ∧ XferEnded s u n 6 0)))

/-- R306, R459, R458, R460, R308, R310: a waiting send goes out once its pool holds its credits; a send ends when its last frame is
acknowledged; a whole send lands in its buffer, gives its delivery increment and holds its space until the consumer releases it, and
waits while its core is under test; a bad one is dropped with LANDING_BAD, a partial one with SEND_PARTIAL; a run-ahead tile is
delivered at its verdict or zeroed by a RETRACT before it; a fetch is served as a send of the pool that it names or refused. Model's
readings: log 88, 92, 93, 94. -/
def Obligations.SendsAndLandings : Prop :=
    (∀ (s : State) (pool port : Nat) (x : Send), s.xf.sends.find? (fun x => x.need != 0 && x.pool == pool) = some x →
    x.need ≤ (getPool s pool).credits → isOwnLmn s x.lmn = false → routePort s x.lmn = some port →
    Completes (.sendCreditsAvailable pool) s (fun u => (getPool u pool).credits = (getPool s pool).credits - x.need
      ∧ SendUnderWay u x.core x.lmn x.pool x.seq port x.wire ∧ u.mem = s.mem))
  ∧ (∀ (s : State) (lmn pool seq n : Nat) (x : Send) (e : QEntry),
    s.xf.sends.find? (fun x => x.key == (lmn, pool, seq) && x.need == 0) = some x → sendOpen s x = false → x.core = some n →
    (getCore s n).xferRun = some e → Completes (.sendComplete lmn pool seq) s (fun u =>
      u.xf.sends = eraseFirst (· == x) s.xf.sends ∧ u.mem = s.mem
      ∧ XferEnded s u n (parseXfer e.desc).op (if x.failed then 1 else 0)))
  ∧ (∀ (s : State) (src pool seq : Nat) (r : Recv),
    s.xf.recv.find? (fun r => r.whole && (r.src, r.pool, r.seq) == (src, pool, seq)) = some r →
    let v := { s with xf.recv := eraseFirst (· == r) s.xf.recv }
    let h := parseSend r.data
    let b := getBuf s h.buffer
    (sendHdrOk r.data = true → h.kind = 1 → landOk v r h = true → landsOnTested s h = true → exec (.sendLanding src pool seq) s = .next s)
    ∧ (sendHdrOk r.data = true → h.kind = 1 → landOk v r h = true → landsOnTested s h = false → h.runahead = false → Completes (.sendLanding src pool seq) s
      (fun u => ∃ w, u = doneAdd w b.ptn h.rsem .plain ∧ w.mem = (landBytes v b h.offset (landed h b.ctx (r.data.drop 64))).mem
        ∧ w.rc = s.rc ∧ w.xf.recv = v.xf.recv
        ∧ w.xf.landed = s.xf.landed ++ [{ src := src, pool := pool, seq := seq, buf := h.buffer, ctx := h.ctx, credits := creditsOf h.len }]))
    ∧ (sendHdrOk r.data = true → h.kind = 1 → landOk v r h = true → landsOnTested s h = false → h.runahead = true → Completes (.sendLanding src pool seq) s
      (fun u => u.mem = (landBytes v b h.offset (landed h b.ctx (r.data.drop 64))).mem ∧ u.rc = s.rc
        ∧ ∃ x : Held, u.xf.held = s.xf.held ++ [x] ∧ x.addr = b.addr + h.offset ∧ x.len = h.len ∧ x.verdict = r.stamp + 2048 ∧ x.sem = h.rsem))
    ∧ (sendHdrOk r.data = true → h.kind = 2 → s.xf.reqs.length < 64 → Completes (.sendLanding src pool seq) s (fun u =>
        u.mem = s.mem ∧ ∃ x : FetchReq, u.xf.reqs = s.xf.reqs ++ [x] ∧ x.src = src ∧ x.pool = h.buffer ∧ x.addr = h.addr ∧ x.len = h.len))
    ∧ ((sendHdrOk r.data = false ∨ (h.kind = 1 ∧ landOk v r h = false)) → Completes (.sendLanding src pool seq) s (fun u =>
        u.mem = s.mem ∧ u.xf.recv = v.xf.recv ∧ u.int.lastCode = FaultCode.landingBad.code)))
  ∧ (∀ (s : State) (src pool seq : Nat) (r : Recv),
    s.xf.recv.find? (fun r => !r.whole && (r.src, r.pool, r.seq) == (src, pool, seq)) = some r → counting s = true →
    r.stamp + 256 * 2048 ≤ now s → r.dropBuf = none → Completes (.sendPartialTimeout src pool seq) s (fun u =>
      u.mem = s.mem ∧ u.xf.recv = eraseFirst (· == r) s.xf.recv ∧ u.int.lastCode = FaultCode.sendPartial.code))
  ∧ (∀ (s : State) (src pool seq : Nat) (l : Landed),
    s.xf.landed.find? (fun l => (l.src, l.pool, l.seq) == (src, pool, seq)) = some l → (getBuf s l.buf).bound = true →
    (getBuf s l.buf).closing = false → l.credits ≠ 0 →
    (∀ port, isOwnLmn s src = false → routePort s src = some port → Completes (.landingSpaceRelease src pool seq) s (fun u =>
      u.xf.landed = eraseFirst (· == l) s.xf.landed ∧ ∃ x ∈ u.rc.txq, x.port = port ∧ x.bytes = syncFrame 4 (ownLmn s) src 15
        (bodyBits pool 223 211 + bodyBits l.credits 210 195 + bodyBits l.ctx 194 183)))
    ∧ (isOwnLmn s src = true → (getPool s pool).bound = true → (getPool s pool).ctx = l.ctx →
        (getPool s pool).credits + l.credits ≤ (getPool s pool).alloc → Completes (.landingSpaceRelease src pool seq) s (fun u =>
        u.xf.landed = eraseFirst (· == l) s.xf.landed ∧ (getPool u pool).credits = (getPool s pool).credits + l.credits)))
  ∧ (∀ (s : State) (src pool seq : Nat) (h : Held),
    s.xf.held.find? (fun h => (h.src, h.pool, h.seq) == (src, pool, seq)) = some h → h.verdict ≤ now s →
    Completes (.runaheadVerdict src pool seq) s (fun u => ∃ w, u = retryHeld (doneAdd w h.ptn h.sem .plain) ∧ w.mem = s.mem
      ∧ w.rc = s.rc ∧ w.xf.held = eraseFirst (· == h) s.xf.held
      ∧ w.xf.landed = s.xf.landed ++ [{ src := src, pool := pool, seq := seq, buf := h.buf, ctx := h.ctx, credits := creditsOf h.len }]))
  ∧ (∀ (s : State) (port : Nat) (f : List Byte), frType f = 5 → isOwnLmn s (frDst f) = true → fcrcOk f = true →
    frameBits f 227 224 = 0 → frameBits f 182 32 = 0 →
    let key := (frSrc f, frameBits f 211 199, frameBits f 198 183)
    (∀ h, s.xf.held.find? (fun h => (h.src, h.pool, h.seq) == key) = some h → now s < h.verdict →
      (getBuf s h.buf).bound = true → h.off + h.len ≤ (getBuf s h.buf).size →
      let v := { s with xf.held := eraseFirst (· == h) s.xf.held }
      Completes (.retractReceive port f) s (fun u => ∃ w, u = retryHeld w
        ∧ w.mem = (landBytes v (getBuf s h.buf) h.off (List.replicate h.len 0)).mem ∧ w.xf.held = v.xf.held
        ∧ w.rc.discarded = satInc 16 s.rc.discarded))
    ∧ (∀ r, s.xf.held.find? (fun h => (h.src, h.pool, h.seq) == key) = none →
      s.xf.recv.find? (fun r => (r.src, r.pool, r.seq) == key && r.dropBuf.isNone) = some r →
      let h := parseSend r.data
      let v := { s with xf.recv := eraseFirst (· == r) s.xf.recv }
      sendHdrOk r.data = true → h.kind = 1 → h.runahead = true → (r.whole = true → now s ≤ r.stamp + 2048) →
      (getBuf s h.buffer).bound = true → h.offset + h.len ≤ (getBuf s h.buffer).size →
      Completes (.retractReceive port f) s (fun u => ∃ w, u = retryHeld w
        ∧ w.mem = (landBytes v (getBuf s h.buffer) h.offset (List.replicate h.len 0)).mem ∧ w.xf.recv = v.xf.recv
        ∧ w.rc.discarded = satInc 16 s.rc.discarded))
    ∧ (s.xf.held.find? (fun h => (h.src, h.pool, h.seq) == key) = none →
      s.xf.recv.find? (fun r => (r.src, r.pool, r.seq) == key && r.dropBuf.isNone) = none → isOwnLmn s (frSrc f) = false →
      Completes (.retractReceive port f) s (fun u => u.xf = s.xf ∧ u.mem = s.mem ∧ u.rc.discarded = s.rc.discarded)))
  ∧ (∀ (s : State) (r : FetchReq) (rs : List FetchReq), s.xf.reqs = r :: rs →
    let v := { s with xf.reqs := rs }
    let p := getPool s r.pool
    let i : Issuer := { mmode := true, ctx := p.ctx, ctxOn := true, ptn := p.ptn }
    ((p.bound = false ∨ servePlace v i r.addr r.len = none) → Completes .fetchReqServe s (fun u =>
      u.xf = v.xf ∧ u.mem = s.mem ∧ u.int.lastCode = FaultCode.fetchRefused.code))
    ∧ (∀ x t bs ue port, p.bound = true → p.peer = r.src → servePlace v i r.addr r.len = some x → xRead v i x r.len = (t, bs, ue) →
      creditsOf r.len ≤ (getPool t r.pool).credits → isOwnLmn t r.src = false → routePort t r.src = some port →
      Completes .fetchReqServe s (fun u => u.xf.reqs = rs ∧ u.mem = t.mem
        ∧ (getPool u r.pool).credits = (getPool t r.pool).credits - creditsOf r.len
        ∧ ∃ w, SendUnderWay u none r.src r.pool r.seq port (w ++ bs) ∧ w.length = 64)))

/-- R434-R439, R445, R312: the states of a fabric port: light starts training; training ends in UP with 16 lanes, in DEGRADED with 8
or in DOWN by the lanes that passed; a port in DOWN trains again; sync loss takes it DOWN, fails the sends under way on it and
raises PORT_DOWN; a failed lane moves onto the spare, or the port retrains; a failed sync lane takes the spare; ENABLE, DISABLE and
RETRAIN act as their states allow and a drained port is OFF. Model's readings: log 83, 84, 85. -/
def Obligations.PortStates : Prop :=
    ∀ (s : State) (p : Nat),
    let q := fabPort s p
    let others (u : State) := (∀ k, k ≠ p → fabPort u k = fabPort s k) ∧ u.mem = s.mem
    let others' (u : State) := u.mem = s.mem ∧ ((∀ t ∈ q.txq, t.inPort = none) → ∀ k, k ≠ p → fabPort u k = fabPort s k)
    (q.pstate = .dark → Completes (.portLight p) s (fun u => others' u
      ∧ fabPort u p = { freshLink q with pstate := .training, active := 0, failed := 0, spareFor := 0x1F }))
    ∧ (∀ pass lmn role, q.pstate = .training → bitOf pass 17 = true →
      let k := ((countFrom 0 17).filter (bitOf pass)).length
      (16 ≤ k → Completes (.portTrainingDone p pass lmn role) s (fun u => (fabPort u p).pstate = .up ∧ (fabPort u p).active = 16
        ∧ (fabPort u p).peerValid = true ∧ (fabPort u p).peerLmn = lmn % 1024 ∧ (fabPort u p).peerRole = role % 4 ∧ u.mem = s.mem))
      ∧ (8 ≤ k → k < 16 → Completes (.portTrainingDone p pass lmn role) s (fun u => (fabPort u p).pstate = .degraded
        ∧ (fabPort u p).active = 8 ∧ (fabPort u p).peerLmn = lmn % 1024 ∧ u.int.lastCode = FaultCode.portDegraded.code))
      ∧ (k < 8 → Completes (.portTrainingDone p pass lmn role) s (fun u => (fabPort u p).pstate = .down ∧ u.mem = s.mem)))
    ∧ (q.pstate = .down → Completes (.portRetry p) s (fun u => others u
      ∧ fabPort u p = { q with pstate := .training, active := 0, failed := 0, spareFor := 0x1F }))
    ∧ (portUsable s p = true → Completes (.portSyncLoss p) s (fun u => others' u ∧ (fabPort u p).pstate = .down
      ∧ (fabPort u p).active = 0 ∧ u.int.lastCode = FaultCode.portDown.code
      ∧ ∀ x ∈ u.xf.sends, x.port = some p → x.need = 0 → x.failed = true))
    ∧ (∀ lane, lane < 16 → q.pstate = .up → bitOf q.failed lane = false →
      (spareFree q = true → Completes (.laneFailure p [lane]) s (fun u => others u ∧ (fabPort u p).pstate = .up
        ∧ (fabPort u p).spareFor = lane ∧ (fabPort u p).askLane = some lane ∧ (fabPort u p).failed = q.failed ||| 2 ^ lane
        ∧ u.int.lastCode = FaultCode.laneSwap.code))
      ∧ (spareFree q = false → Completes (.laneFailure p [lane]) s (fun u => others u ∧ (fabPort u p).pstate = .training)))
    ∧ (portUsable s p = true → Completes (.syncLaneFailure p true) s (fun u => others' u ∧ (fabPort u p).pstate = .down))
    ∧ (portUsable s p = true → bitOf q.failed 16 = false → q.spareFor ≠ 17 → Completes (.syncLaneFailure p false) s (fun u =>
        others u ∧ (fabPort u p).spareFor = 17 ∧ (fabPort u p).failed = q.failed ||| 2 ^ 17
        ∧ (fabPort u p).pstate = (if q.spareFor = 0x1F then q.pstate else .degraded)))
    ∧ (q.pstate = .draining → Completes (.portDrainEnd p) s (fun u => others' u ∧ (fabPort u p).pstate = .off
        ∧ (fabPort u p).sent = [] ∧ (fabPort u p).txq = []))
    ∧ (∀ who, partsUp s = true → isInstaller s who = true → p < 8 →
      (portStuck s p = true → exec (.fabPtEnable who p) s = .next s)
      ∧ (q.pstate = .off → q.enablePending = false → portStuck s p = false → Completes (.fabPtEnable who p) s (fun u => others' u
        ∧ fabPort u p = { freshLink q with pstate := .dark }))
      ∧ (q.pstate = .draining → portStuck s p = false → Completes (.fabPtEnable who p) s (fun u => others u
        ∧ fabPort u p = { q with enablePending := true }))
      ∧ (q.pstate ≠ .off → q.pstate ≠ .draining → Completes (.fabPtDisable who p) s (fun u => others u
        ∧ fabPort u p = { q with pstate := .draining, active := 0 }))
      ∧ ((q.pstate = .up ∨ q.pstate = .degraded ∨ q.pstate = .down) → Completes (.fabPtRetrain who p) s (fun u => others u
        ∧ (fabPort u p).pstate = .training)))

/-- R13, R430-R433, R436, R441: a data frame that comes in its turn is taken, and the last of a send for this module makes it whole;
one out of its turn is not; every decoded frame's acknowledgement frees what was sent and its credits add up; one that cannot be
corrected is counted and what follows discarded; a frame whose TTL is used up is dropped; of one with a reserved value nothing is
acted on; a LINK frame moves its lane onto the spare. Model's readings: log 10, 82, 87. -/
def Obligations.FabricFrames : Prop :=
    ∀ (s : State) (p : Nat),
    let q := fabPort s p
    (portHears s p = true → Completes (.dataFrameReceive p none 0) s (fun u => (fabPort u p).uncorr = satInc 32 q.uncorr
      ∧ (fabPort u p).discarding = true ∧ (fabPort u p).nextRx = q.nextRx ∧ u.xf = s.xf ∧ u.mem = s.mem))
    ∧ (∀ (f : DataFrame) (n : Nat), portHears s p = true → f.dtype = 1 → frameOk f = true → f.lseq = q.nextRx → f.frameNo = 0 →
      isOwnLmn s f.dst = true → (∀ b, headerBuf (f.payload.take f.validLen) = some b → (getBuf s b).closed = false) →
      Completes (.dataFrameReceive p (some f) n) s (fun u => (fabPort u p).nextRx = (q.nextRx + 1) % 4096 ∧ u.mem = s.mem
        ∧ ∃ r ∈ u.xf.recv, r.src = f.src ∧ r.pool = f.pool ∧ r.seq = f.sendSeq ∧ r.whole = f.last ∧ r.next = 1
            ∧ r.data = f.payload.take f.validLen))
    ∧ (∀ (f : DataFrame) (n : Nat), portHears s p = true → f.dtype = 1 → f.lseq ≠ q.nextRx →
      Completes (.dataFrameReceive p (some f) n) s (fun u => (fabPort u p).nextRx = q.nextRx ∧ u.xf.recv = s.xf.recv ∧ u.mem = s.mem))
    ∧ (∀ (f : DataFrame) (n : Nat), portHears s p = true → f.dtype = 0 → frameOk f = true → f.nak = false → q.txq = [] →
      Completes (.dataFrameReceive p (some f) n) s (fun u =>
        (fabPort u p).sent = q.sent.filter (fun g => !lseqAcked g.lseq f.ackLseq)
        ∧ (fabPort u p).credit0 = (if f.credVc = 0 then min 1024 (q.credit0 + f.hopCredit) else q.credit0)
        ∧ (fabPort u p).credit1 = (if f.credVc = 0 then q.credit1 else min 1024 (q.credit1 + f.hopCredit))
        ∧ (fabPort u p).corr = satAdd 32 q.corr n ∧ u.mem = s.mem))
    ∧ (∀ (f : DataFrame) (n : Nat), portHears s p = true → f.dtype = 1 → frameOk f = true → f.lseq = q.nextRx →
      isOwnLmn s f.dst = false → f.ttl = 0 → Completes (.dataFrameReceive p (some f) n) s (fun u =>
        (fabPort u p).drop = satInc 32 q.drop ∧ u.xf.recv = s.xf.recv ∧ u.mem = s.mem))
    ∧ (∀ (f : DataFrame) (n : Nat), portHears s p = true → f.dtype = 1 → frameOk f = false → f.lseq = q.nextRx → q.txq = [] →
      Completes (.dataFrameReceive p (some f) n) s (fun u => (fabPort u p).sent = q.sent ∧ (fabPort u p).drop = satInc 32 q.drop
        ∧ (fabPort u p).nextRx = (q.nextRx + 1) % 4096 ∧ u.xf.recv = s.xf.recv ∧ u.mem = s.mem))
    ∧ (∀ (f : DataFrame) (lane : Nat), q.pstate = .up → f.dtype = 2 → frameOk f = true → f.lseq = q.nextRx → f.nak = false →
      lane < 16 → q.spareFor = 0x1F → Completes (.linkFrameReceive p f lane) s (fun u => (fabPort u p).spareFor = lane
        ∧ (fabPort u p).nextRx = (q.nextRx + 1) % 4096 ∧ u.int.lastCode = FaultCode.laneSwap.code ∧ u.mem = s.mem))

/-- R447, R450, R451: FAB_TAKEOVER answers its status at once where a spare may not take over, and is else pending to the next Bell,
where the spare takes the LMN and its buddy, becomes a member and is entered in the journal; a SEL written takes effect at the next
Bell. Model's readings: log 86. -/
def Obligations.TakeoverAndMap : Prop :=
    ∀ (s : State),
    (∀ who l, partsUp s = true → isInstaller s who = true → s.fab.takeBusy = false →
      (takeoverStatus s (l % 1024) ≠ 0 → Completes (.fabTakeover who l) s (fun u =>
        u = { s with fab := { s.fab with takeDone := true, takeStatus := takeoverStatus s (l % 1024) } }))
      ∧ (takeoverStatus s (l % 1024) = 0 → journalRoom s = true → Completes (.fabTakeover who l) s (fun u =>
        u.fab.takeBusy = true ∧ u.fab.takePend = some (l % 1024, s.bell.count) ∧ u.fab.lmn = s.fab.lmn ∧ u.led = s.led)))
    ∧ (∀ l b, s.fab.takePend = some (l, b) → counting s = true → s.bell.count ≠ b →
      (∀ c, coverOf s l = some c → Completes .takeoverApply s (fun u => u.fab.assigned = true ∧ u.fab.lmn = l
        ∧ u.fab.coverLmn = l ∧ u.fab.takeBusy = false ∧ u.fab.takeDone = true ∧ u.fab.takeStatus = 0 ∧ u.fab.takePend = none
        ∧ u.bell.cfg.role = 0 ∧ u.snp.buddyValid = true ∧ u.snp.buddyLmn = c.buddy ∧ u.led.seq = s.led.seq + 1 ∧ u.mem = s.mem))
      ∧ (coverOf s l = none → Completes .takeoverApply s (fun u => u.fab.takeStatus = 2 ∧ u.fab.takeBusy = false
        ∧ u.fab.takePend = none ∧ u.fab.lmn = s.fab.lmn ∧ u.led = s.led)))
    ∧ (∀ n v b, (tget default s.fab.map n).selPend = some (v, b) → counting s = true → s.bell.count ≠ b → Completes (.fabMapSelApply n) s (fun u =>
        tget default u.fab.map n = { tget default s.fab.map n with sel := v, selPend := none }
        ∧ (∀ m, m ≠ n → tget default u.fab.map m = tget default s.fab.map m) ∧ u.fab.port = s.fab.port ∧ u.mem = s.mem))

/-- R13, R479-R481, R485, R488, R490, R493, R502: light trains the control port, which enters UP with a new link and asks again for
every open fetch, or DOWN; losing the link ends the sessions and what was partly received and raises CPT_LINK_DOWN, and the events
stay; an IDLE frame acknowledges and gives credits, one that cannot be corrected begins a discard, of one with a reserved FTYPE
nothing is acted on; a lost reference holds the Bell; events and Bell marks go out. Model's readings: log 96, 99. -/
def Obligations.ControlLink : Prop :=
    ∀ (s : State),
    (∀ c o, ((c = Instr.cptLight o ∧ s.cpt.lstate < 2) ∨ (c = Instr.cptRetry o ∧ s.cpt.lstate = 3)) →
      s.cpt.txOn = true →
      (o = none → Completes c s (fun u => u = { s with cpt.lstate := 1 }))
      ∧ (o = some false → Completes c s (fun u => u = { s with cpt.lstate := 3 }))
      ∧ (o = some true → s.cpt.relink = false → Completes c s (fun u => u.cpt.lstate = 2 ∧ u.cpt.rxSeq = 0xFFFF
        ∧ u.cpt.evSent = 0 ∧ u.cpt.evq = s.cpt.evq ∧ u.mem = s.mem
        ∧ ∀ f ∈ s.vat.fetches, Sent u {
            ftype := 8, addr := f.adapter + 2 ^ 24 * f.slot + 2 ^ 40 * f.gen + 2 ^ 48 * f.ctx, arg := f.seq,
            payload := leBytes 4 (match slotAt? s f.slot with | some v => v.len | none => 0) })))
    ∧ (cptUp s = true → Completes .cptLinkDown s (fun u => u.cpt.lstate = 3 ∧ u.cpt.tx = [] ∧ u.cpt.wait = [] ∧ u.cpt.bulk = []
        ∧ u.ses.open_ = [] ∧ u.ses.chals = [] ∧ u.cpt.evq = s.cpt.evq ∧ u.vat = s.vat
        ∧ u.int.lastCode = FaultCode.cptLinkDown.code))
    ∧ (cptUp s = true → Completes (.cptIdleFrameReceive none) s (fun u => u.cpt.discarding = true ∧ u.cpt.rxSeq = s.cpt.rxSeq
        ∧ u.mem = s.mem ∧ u.ses = s.ses))
    ∧ (∀ f : CptFrame, cptUp s = true → f.ftype = 0 → f.fcrcOk = true → f.payload = [] → f.rsvd = 0 → f.nak = false →
        s.cpt.wait = [] → Completes (.cptIdleFrameReceive (some f)) s (fun u =>
          u.cpt.tx = s.cpt.tx.filter (fun g => !seqAcked g.seq f.ackSeq) ∧ u.cpt.rxSeq = s.cpt.rxSeq
          ∧ u.cpt.credC = (if f.credClass then s.cpt.credC else min 32 (s.cpt.credC + f.credit))
          ∧ u.cpt.credB = (if f.credClass then min 224 (s.cpt.credB + f.credit) else s.cpt.credB) ∧ u.mem = s.mem))
    ∧ (∀ f : CptFrame, CptTurn s f → cptReserved f.ftype = true → Completes (.cptIdleFrameReceive (some f)) s (fun u =>
          u.cpt.errRes = satInc 16 s.cpt.errRes ∧ u.cpt.rxSeq = f.seq ∧ u.mem = s.mem
          ∧ (15 ≤ f.ftype → s.cpt.wait = [] → u.cpt.tx = s.cpt.tx ∧ u.cpt.credC = s.cpt.credC ∧ u.cpt.credB = s.cpt.credB)))
    ∧ (s.bell.cfg.refSrc = 2 → s.bell.state = .running → Completes .cptRefLost s (fun u => u.cpt.clkLost = true
        ∧ u.cpt.refLost = true ∧ u.bell = s.bell ∧ u.int.lastCode = FaultCode.cptRefLost.code))
    ∧ (cptUp s = true → (s.cpt.evq.drop s.cpt.evSent).take 16 ≠ [] → Completes .eventSend s (fun u =>
        let rs := (s.cpt.evq.drop s.cpt.evSent).take 16
        u.cpt.evSent = s.cpt.evSent + rs.length ∧ u.cpt.evq = s.cpt.evq
        ∧ ∃ kinds, Sent u { ftype := 11, addr := kinds, payload := (rs.map (fun r => slice r.2 0 64)).flatten }))
    ∧ (cptUp s = true → counting s = true → (∀ b, s.cpt.lastMark = some b → b + 1024 ≤ s.bell.count) →
        Completes .bellMark s (fun u => u.cpt.lastMark = some s.bell.count ∧ ∃ k, Sent u { ftype := 12, addr := s.bell.count, arg := k }))

/-- R482, R502: a REG_REQ is answered with one response entry for each access: those of a session that is not open are ROLE and
change nothing, those of one that is are made in order; a request of a length or with bits that are reserved is dropped and counted.
R159, R161, R487, R488: FETCH_DATA adds its bytes to the open fetch that it names, ends it with the last of them and fails it on a
gap; one that names no open fetch is dropped and counted; FETCH_CTL fails the fetch that it refuses. Model's readings: log 97, 98,
123. -/
def Obligations.RequestsAndFetches : Prop :=
  (  ∀ (s : State) (f : CptFrame) (env : RegEnv), CptTurn s f → f.ftype = 2 →
    let v := cptTaken s f
    let as := accessesOf f.payload
    let answer (rs : List Nat) : CptFrame := { ftype := 3, tag := f.tag, session := f.session, payload := (rs.map (leBytes 8)).flatten }
    (regReqOk f.payload = true → frameWho v f = none → Completes (.regReq f env) s (fun u => u.mem = s.mem ∧ u.lcs = v.lcs
        ∧ u.mod = v.mod ∧ u.rc = v.rc ∧ Sent u (answer (as.map (fun a => acAnswer a .role (acValue a))))))
    ∧ (∀ who, regReqOk f.payload = true → frameWho v f = some who → Completes (.regReq f env) s (fun u =>
        let r := doAccesses who env as v
        u.mem = r.1.mem ∧ u.lcs = r.1.lcs ∧ u.ptn = r.1.ptn ∧ u.bell = r.1.bell ∧ Sent u (answer r.2)))
    ∧ (regReqOk f.payload = false → Completes (.regReq f env) s (fun u => u.mem = s.mem ∧ u.cpt.errRes = satInc 16 s.cpt.errRes)))
  ∧ (  ∀ (s : State) (f : CptFrame) (seq : Nat), CptTurn s f → s.mod.recovery = false →
    let v := cptTaken s f
    (f.ftype = 9 → openFetch v (bits f.addr 24 16) (bits f.addr 40 8) seq = none → Completes (.fetchData f seq) s (fun u =>
      u.vat = { s.vat with stale := satInc 32 s.vat.stale } ∧ u.mem = s.mem))
    ∧ (∀ x y, f.ftype = 9 → openFetch v (bits f.addr 24 16) (bits f.addr 40 8) seq = some x → slotAt? v x.slot = some y →
      f.arg = x.data.length → (x.data ++ f.payload).length ≤ y.len + 32 →
      let w := { x with data := x.data ++ f.payload }
      let t := { v with vat.fetches := modifyFirst (· == x) (fun _ => w) v.vat.fetches }
      (f.last = false → Completes (.fetchData f seq) s (fun u => u.vat = t.vat ∧ u.mem = s.mem))
      ∧ (f.last = true → Completes (.fetchData f seq) s (fun u => u = cptPump (fetchEnd t w))))
    ∧ (∀ x, f.ftype = 9 → openFetch v (bits f.addr 24 16) (bits f.addr 40 8) seq = some x → f.arg ≠ x.data.length →
      Completes (.fetchData f seq) s (fun u => u = cptPump (fetchFail v x)))
    ∧ (f.ftype = 10 → openFetch v (bits f.addr 24 16) (bits f.addr 40 8) f.arg = none → Completes (.fetchCtl f) s (fun u =>
      u.vat = { s.vat with stale := satInc 32 s.vat.stale } ∧ u.mem = s.mem))
    ∧ (∀ x, f.ftype = 10 → openFetch v (bits f.addr 24 16) (bits f.addr 40 8) f.arg = some x → f.payload.head? = some 1 →
      Completes (.fetchCtl f) s (fun u => u = cptPump (fetchFail v x))))

/-- R484-R486, R520: a bulk write that is refused is answered with its status and writes nothing; a plaintext one is written as it
comes; a sealed one is written once its tag has been verified and its range zeroed where it fails; a bulk read is answered with its
data. Model's readings: log 7, 97. -/
def Obligations.BulkTransfers : Prop :=
    ∀ (s : State) (f : CptFrame), CptTurn s f → s.mod.recovery = false →
    let v := cptTaken s f
    let n := 64 * (bits f.arg 0 20 + 1)
    let ctx := bits f.arg 20 12
    let b : BulkWr := { tag := f.tag, addr := f.addr, len := n, ctx := ctx, isSealed := f.isSealed,
                        ksel := if f.isSealed then field f.payload 12 2 else 0 }
    let rsp (k : Nat) : CptFrame := { ftype := 7, tag := f.tag, arg := k }
    (∀ who st, f.ftype = 4 → v.cpt.bulk.find? (fun b => b.tag == f.tag) = none → frameWho v f = some who →
      bulkCheck v who f n ctx = some st → Completes (.bulkWr f) s (fun u => u.mem = s.mem ∧ Sent u (rsp st)))
    ∧ (f.ftype = 4 → v.cpt.bulk.find? (fun b => b.tag == f.tag) = none → frameWho v f = none → f.last = true →
      Completes (.bulkWr f) s (fun u => u.mem = s.mem ∧ Sent u (rsp 1)))
    ∧ (∀ who p, f.ftype = 4 → v.cpt.bulk.find? (fun b => b.tag == f.tag) = none → frameWho v f = some who →
      bulkCheck v who f n ctx = none → f.isSealed = false → f.last = true → f.payload.length = n →
      bulkPlace v f.addr n = some p → Completes (.bulkWr f) s (fun u =>
        u.mem = (bulkStore (putBulk v f.tag (some b)) .own p f.payload).mem ∧ Sent u (rsp 0)))
    ∧ (∀ who, f.ftype = 4 → v.cpt.bulk.find? (fun b => b.tag == f.tag) = none → frameWho v f = some who →
      bulkCheck v who f n ctx = none → f.isSealed = true → f.last = true → f.payload.length = n + 32 →
      let w := putBulk v f.tag (some b)
      let d := { b with data := f.payload }
      let opened := openGcm (bulkKey w d) (f.payload.take 12) (bulkAad "SV44-BULKW" f.addr n b.ksel) (f.payload.drop 16)
      (opened = none → Completes (.bulkWr f) s (fun u => u.mem = (bulkScrub w d).mem ∧ Sent u (rsp 4)))
      ∧ (∀ bs p, opened = some bs → bulkPlace w f.addr n = some p → Completes (.bulkWr f) s (fun u =>
          u.mem = (bulkStore w (bulkWay w d) p (slice bs 0 n)).mem ∧ Sent u (rsp 0))))
    ∧ (∀ who st, f.ftype = 5 → frameWho v f = some who → readCheck v who f n ctx = some st → Completes (.bulkRdReq f) s (fun u =>
        u.mem = s.mem ∧ Sent u (rsp st)))
    ∧ (∀ who, f.ftype = 5 → frameWho v f = some who → readCheck v who f n ctx = none → f.isSealed = false →
        let r := bulkFetch v f n ctx
        Completes (.bulkRdReq f) s (fun u => u.mem = r.1.mem ∧ (∀ g ∈ bulkDataFrames f r.2, Sent u g) ∧ Sent u (rsp 0)))
    ∧ (∀ who, f.ftype = 5 → frameWho v f = some who → readCheck v who f n ctx = none → f.isSealed = true →
        let r := bulkFetch v f n ctx
        let q := sealRead r.1 f n ctx r.2
        Completes (.bulkRdReq f) s (fun u => u.mem = q.1.mem ∧ u.keys = q.1.keys ∧ (∀ g ∈ bulkDataFrames f q.2, Sent u g)
          ∧ Sent u (rsp 0)))

/-- R501, R502, R509: a HELLO for a key that the slot holds is answered with a CHALLENGE, at once or when the 1 ms after a failure
has passed; a PROOF that verifies opens a session, is answered with a GRANT and entered in the journal, one that does not is counted
and opens none; CLOSE ends a session. R494, R521: in RECOVERY the image is taken at ascending offsets; one whose checks hold is
written to flash, entered in the journal and its module reset made due; one whose checks fail is refused, and a gap begins it anew.
Model's readings: log 7, 9, 99, 108. -/
def Obligations.SessionsAndRecovery : Prop :=
  (  ∀ (s : State),
    (∀ (f : CptFrame) (role : Role), CptTurn s f → f.ftype = 13 → authSub f = some 1 →
      roleOfCode (field f.payload 1 1) = some role →
      let v := cptTaken s f
      let slot := field f.payload 2 1
      let refused (k : Nat) := Completes (.authHello f) s (fun u => u.ses = s.ses
        ∧ Sent u { ftype := 13, tag := f.tag, payload := [(4 : Byte)] ++ leBytes 4 0 ++ leBytes 1 k })
      slot < 4 →
      (s.lcs.lc = .scrapped → refused 4)
      ∧ (s.lcs.lc ≠ .scrapped → roleKey s role slot = [] → refused 2)
      ∧ (s.lcs.lc ≠ .scrapped → roleKey s role slot ≠ [] → 8 ≤ s.ses.open_.length → refused 3)
      ∧ (s.lcs.lc ≠ .scrapped → roleKey s role slot ≠ [] → s.ses.open_.length < 8 → challengesHeld s = false →
        Completes (.authHello f) s (fun u => u.ses.open_ = s.ses.open_
          ∧ { tag := f.tag, role := field f.payload 1 1, slot := slot, nonce := (draw v 32).1, sent := some s.cyc } ∈ u.ses.chals
          ∧ Sent u {
              ftype := 13, tag := f.tag,
              payload := [(2 : Byte)] ++ (draw v 32).1 ++ slice s.sec.deviceId 0 32 ++ leBytes 8 (now s) })))
    ∧ (∀ (tag : Nat) (c : Challenge), s.ses.chals.find? (fun c => c.tag == tag && c.sent.isNone) = some c → cptUp s = true →
      challengesHeld s = false → Completes (.authChallengeDelayed tag) s (fun u => u.ses.open_ = s.ses.open_
        ∧ { c with nonce := (draw s 32).1, sent := some s.cyc, sig := [] } ∈ u.ses.chals))
    ∧ (∀ (f : CptFrame) (c : Challenge) (role : Role) (t : Nat), CptTurn s f → f.ftype = 13 → authSub f = some 3 → f.last = true →
      s.ses.chals.find? (fun c => c.tag == f.tag && c.sent.isSome) = some c → c.sent = some t → roleOfCode c.role = some role →
      let sig := c.sig ++ f.payload.drop 1
      let good := sig.length == 3309 && Config.mldsaVerify (roleKey s role c.slot)
        (c.nonce ++ slice s.sec.deviceId 0 32 ++ leBytes 1 c.role ++ leBytes 1 c.slot) (ascii "SV44-AUTH") sig
      let answer (id k : Nat) : CptFrame := { ftype := 13, tag := f.tag, payload := [(4 : Byte)] ++ leBytes 4 id ++ leBytes 1 k }
      (t + oneSecond ≤ s.cyc → Completes (.authProof f) s (fun u => u.ses.open_ = s.ses.open_ ∧ Sent u (answer 0 5)))
      ∧ (s.cyc < t + oneSecond → good = false → Completes (.authProof f) s (fun u => u.ses.open_ = s.ses.open_
        ∧ u.lcs.authFail = satInc 32 s.lcs.authFail ∧ u.ses.lastFail = some s.cyc ∧ Sent u (answer 0 1)))
      ∧ (s.cyc < t + oneSecond → good = true → s.ses.open_.length < 8 → Completes (.authProof f) s (fun u =>
        u.led.seq = s.led.seq + 1 ∧ ∃ x, u.ses.open_ = s.ses.open_ ++ [x] ∧ x.role = role ∧ x.slot = c.slot ∧ Sent u (answer x.id 0))))
    ∧ (∀ (f : CptFrame), CptTurn s f → f.ftype = 13 → authSub f = some 5 → frameWho s f ≠ none →
      Completes (.authClose f) s (fun u => u.ses.open_ = s.ses.open_.filter (fun x => x.id != field f.payload 1 4)
        ∧ u.ses.chals = s.ses.chals)))
  ∧ (  ∀ (s : State) (f : CptFrame), CptTurn s f → f.ftype = 14 → s.mod.recovery = true →
    let img := s.cpt.recBuf ++ f.payload
    ((f.arg ≠ s.cpt.recBuf.length ∨ 2 ^ 26 < s.cpt.recBuf.length + f.payload.length) → Completes (.recoverFrame f) s (fun u =>
      u.cpt.recResult = 3 ∧ u.cpt.recBuf = [] ∧ u.flash = s.flash))
    ∧ (f.arg = s.cpt.recBuf.length → s.cpt.recBuf.length + f.payload.length ≤ 2 ^ 26 →
      (f.last = false → Completes (.recoverFrame f) s (fun u => u.cpt.recBuf = img ∧ u.flash = s.flash))
      ∧ (f.last = true → fwOk s img = true → Completes (.recoverFrame f) s (fun u => u.flash.fw = some img
        ∧ u.cpt.recResult = 1 ∧ u.mod.due = some { cause := 6 } ∧ u.led.seq = s.led.seq + 1))
      ∧ (f.last = true → fwOk s img = false → Completes (.recoverFrame f) s (fun u => u.flash = s.flash
        ∧ u.cpt.recResult = 2 ∧ u.cpt.recBuf = [] ∧ u.led = s.led))))

/-- R496-R500, R506, R510, R521, R524: ADVANCE takes the life cycle one state on for the role that R496 names and is otherwise
answered with its reason and nothing changes; a key slot is written or emptied by a role that may; STORE makes the other bank
current; the acknowledged SEQ only rises to an entry that has been written; FW_FLOOR rises to the running firmware's version. Each
that happens is one entry of the journal, and none happens without room for it. Model's readings: log 100, 101, 102, 107. -/
def Obligations.LifeCycleCommands : Prop :=
    ∀ (s : State) (who : Req), mayCommand s who = true →
    let answer (u : State) (k : Nat) := u.lcs.done = true ∧ u.lcs.status = k
    let refused (c : Instr) (k : Nat) := Completes c s (fun u => u = { s with lcs.done := true, lcs.status := k })
    (∀ t burn, t < 8 →
      let c : Instr := .advance who t burn
      ((t ≠ s.lcs.lc.code + 1 ∨ 4 < t) → refused c 2)
      ∧ (t = s.lcs.lc.code + 1 → t ≤ 4 →
        (roleOf s who ≠ some (enteredBy t) → refused c 1)
        ∧ (roleOf s who = some (enteredBy t) → journalRoom s = false → refused c 4)
        ∧ (roleOf s who = some (enteredBy t) → journalRoom s = true → burn = false → refused c 6)
        ∧ (roleOf s who = some (enteredBy t) → journalRoom s = true → burn = true → Completes c s (fun u => answer u 0
            ∧ u.lcs.lc = lifeOf t ∧ s.fuse.lc.code ≤ u.fuse.lc.code ∧ t ≤ u.fuse.lc.code ∧ u.led.seq = s.led.seq + 1
            ∧ (t < 3 → u.mem = s.mem ∧ u.lcs.keys = s.lcs.keys) ∧ (t = 3 → u.keys = {} ∧ u.sec.eks = [] ∧ u.syl.module = none)
            ∧ (t = 4 → u.lcs.keys = [] ∧ u.led.bank = none ∧ u.led.ident = none)))))
    ∧ (∀ role slot key, slot < 4 →
      let i := keyIndex role slot
      (mayKeys s who role = true → journalRoom s = true →
        ((role = .maker → Config.makerDigests.contains (shake256 32 (slice (slice key 0 1952) 0 1952)) = true) →
          Completes (.keySet who role.code slot key) s (fun u => answer u 0 ∧ roleKey u role slot = slice (slice key 0 1952) 0 1952
            ∧ (∀ j, j ≠ i → tget [] u.lcs.keys j = tget [] s.lcs.keys j) ∧ u.led.seq = s.led.seq + 1 ∧ u.mem = s.mem))
        ∧ Completes (.keyClear who role.code slot) s (fun u => answer u 0 ∧ roleKey u role slot = []
            ∧ (∀ j, j ≠ i → tget [] u.lcs.keys j = tget [] s.lcs.keys j) ∧ u.led.seq = s.led.seq + 1 ∧ u.mem = s.mem))
      ∧ (mayKeys s who role = false → refused (.keyClear who role.code slot) 1))
    ∧ (∀ syl, isInstaller s who = true → journalRoom s = true → Completes (.ledgerStore who syl) s (fun u => answer u 0
        ∧ u.led.bank = some (bankOf s) ∧ u.led.bankOld = s.led.bank ∧ u.led.seq = s.led.seq + 1
        ∧ (∀ m, syl = true → s.syl.module = some m → u.led.stored = some m.image)))
    ∧ (∀ syl, isInstaller s who = false → refused (.ledgerStore who syl) 1)
    ∧ (∀ k, k < 2 ^ 64 → s.led.ack ≤ k → k ≤ s.led.seq → s.led.seq + 1 ≤ 32512 + k → Completes (.jrnAck who k) s (fun u =>
        answer u 0 ∧ u.led.ack = k ∧ u.led.seq = s.led.seq + 1))
    ∧ (∀ k, k < 2 ^ 64 → (k < s.led.ack ∨ s.led.seq < k) → Completes (.jrnAck who k) s (fun u => answer u 2 ∧ u.led = s.led))
    ∧ (isMaker s who = true → journalRoom s = true → Completes (.fwFloor who true) s (fun u => answer u 0
        ∧ u.fuse.fwFloor = max s.fuse.fwFloor s.sec.fwVer ∧ u.led.seq = s.led.seq + 1))
    ∧ (isMaker s who = true → journalRoom s = true → refused (.fwFloor who false) 6)
    ∧ (isMaker s who = false → ∀ b, refused (.fwFloor who b) 1)

/-- R411, R503, R512-R517, R525: a quote keeps a fresh decapsulation key, with at most four for the module and for each partition,
and is made only for those who may ask; KEY_RELEASE with a record that opens loads the context or the base slot that it names and
uses up its key; a record of an unknown key, of the wrong kind or with a failed tag is answered so; EK_DROP and the time drop keys.
Model's readings: log 7, 104, 105. -/
def Obligations.QuotesAndKeyRelease : Prop :=
    ∀ (s : State) (who : Req), mayCommand s who = true →
    let answer (u : State) (k : Nat) := u.sec.done = true ∧ u.sec.status = k
    (∀ (nonce : List Byte) (c : Instr) (ptn : Option Nat) (p : Nat), p < 64 →
      (c, ptn) ∈ [(Instr.quoteModule who nonce, none), (.quotePartition who p nonce, some p)] →
      let may := isOperator s who || (isInstaller s who && ptn.isNone)
      let open_ := inField s && (ptn.isNone || ptnUp s p)
      let held := (s.sec.eks.filter (fun e => e.ptn == ptn)).length
      (may = false → Completes c s (fun u => answer u 1 ∧ u.sec.eks = s.sec.eks ∧ u.led = s.led))
      ∧ (may = true → open_ = false → Completes c s (fun u => answer u 2 ∧ u.sec.eks = s.sec.eks ∧ u.led = s.led))
      ∧ (may = true → open_ = true → 4 ≤ held → Completes c s (fun u => answer u 10 ∧ u.sec.eks = s.sec.eks ∧ u.led = s.led))
      ∧ (may = true → open_ = true → held < 4 → journalRoom s = true → Completes c s (fun u => answer u 0
          ∧ u.led.seq = s.led.seq + 1 ∧ u.sec.qbuf.length = 4928 ∧ u.mem = s.mem
          ∧ ∃ e, u.sec.eks = s.sec.eks ++ [e] ∧ e.ptn = ptn ∧ e.bell = s.bell.count ∧ e.ttl = s.sec.ekTtl)))
    ∧ (∀ rec, isOperator s who = true → inField s = true →
      let r := slice (slice rec 0 1344) 0 1344
      let c : Instr := .keyRelease who rec
      krOk r = true →
      (s.sec.eks.find? (fun e => e.qdigest == slice r 8 32) = none → Completes c s (fun u => answer u 4 ∧ u.keys = s.keys
        ∧ u.sec.eks = s.sec.eks))
      ∧ (∀ e, s.sec.eks.find? (fun e => e.qdigest == slice r 8 32) = some e →
        (krKind s r e = false → Completes c s (fun u => answer u 5 ∧ u.keys = s.keys ∧ u.sec.eks = s.sec.eks))
        ∧ (krKind s r e = true → journalRoom s = true →
          let kek := shake256 32 (ascii "SV44-KEK" ++ Config.mlkemDecaps e.seed (slice r 0x28 1088) ++ slice r 8 32)
          let opened := openGcm kek (slice r 0x468 12) (slice r 0 0x28) (slice r 0x474 144)
          (opened = none → Completes c s (fun u => answer u 6 ∧ u.keys = s.keys ∧ u.sec.eks = eraseFirst (· == e) s.sec.eks))
          ∧ (∀ b, opened = some b → field r 1 1 = 1 → (getCtx s (field r 2 2)).state = .free →
              (getCtx s (field r 2 2)).enableQ = [] → Completes c s (fun u => answer u 0
                ∧ tget none u.keys.ctx (field r 2 2) = some (bundleKeys b) ∧ (getCtx u (field r 2 2)).state = .keyed
                ∧ u.sec.eks = eraseFirst (· == e) s.sec.eks ∧ u.led.seq = s.led.seq + 1))
          ∧ (∀ b, opened = some b → field r 1 1 = 2 →
              field r 2 2 < ((moduleWins s).filter (fun w => w.type == .base)).length → tget none s.keys.base (field r 2 2) = none →
              allZero (bundleKeys b).exp = true → Completes c s (fun u => answer u 0
                ∧ tget none u.keys.base (field r 2 2) = some (bundleKeys b) ∧ u.keys.ctx = s.keys.ctx
                ∧ u.sec.eks = eraseFirst (· == e) s.sec.eks ∧ u.led.seq = s.led.seq + 1)))))
    ∧ (∀ p, p < 64 → isOperator s who = true → Completes (.ekDrop who p false) s (fun u => answer u 0
        ∧ u.sec.eks = s.sec.eks.filter (fun e => e.ptn != some p) ∧ u.keys = s.keys))
    ∧ (∀ p, p < 64 → (isOperator s who = true ∨ isInstaller s who = true) → Completes (.ekDrop who p true) s (fun u => answer u 0
        ∧ u.sec.eks = s.sec.eks.filter (fun e => e.ptn != none) ∧ u.keys = s.keys))
    ∧ Completes .ekExpiry s (fun u => u =
        { s with sec.eks := s.sec.eks.filter (fun e => decide (s.bell.count < e.bell + e.ttl)) })

/-- R532, R533, R535: a decision takes the re-run slot of the core that qualifies; a first re-run that agrees with the original lets
its rows stand with CHECKER_FAULT, one that differs replaces them where the checker was silent and is kept for a third run where it
was not; a third run that agrees with the second replaces them; a decision whose slot's deadline comes while no core qualifies ends
in NO_MAJORITY. Model's readings: log 35, 55, 56. -/
def Obligations.CheckerDecisions : Prop :=
    ∀ (s : State) (n : Nat) (d : Decision), (getCore s n).decision = some d →
    (∀ m, d.running = none → rerunCore s n d = some m → Completes (.checkerRerunStart n) s (fun u =>
      (getCore u n).decision = some { d with
        running := some m, used := d.used ++ [m], core1 := if d.core1 = 0xFFFF then m else d.core1,
        core2 := if d.core1 = 0xFFFF then 0xFFFF else m }
      ∧ (getCore u m).rerun = some n ∧ u = { s with core := u.core }))
    ∧ (∀ m up t rows, d.running = some m → (getCore s m).acdRun = none → (getCore s m).wcdRun = none →
      rerunResult s n m d up = (t, some rows) →
      let e := { d with running := none }
      let kept (c : FaultCode) (w : State) := w.mem = t.mem ∧ w.int.lastCode = c.code ∧ w.rc = t.rc
      (d.core2 = 0xFFFF → rows = d.r0 → Completes (.checkerRerunDone n up) s (fun u =>
        ∃ w, kept .checkerFault w ∧ u = detain (accept w n e rows) n))
      ∧ (d.core2 = 0xFFFF → rows ≠ d.r0 → d.chk = [] → Completes (.checkerRerunDone n up) s (fun u =>
        ∃ w, kept .resultReplaced w ∧ u = detain (accept w n e rows) n))
      ∧ (d.core2 = 0xFFFF → rows ≠ d.r0 → d.chk ≠ [] → m ≠ n → Completes (.checkerRerunDone n up) s (fun u =>
        u.mem = t.mem ∧ (getCore u n).decision = some { e with r1 := some rows } ∧ (getCore u m).rerun = none))
      ∧ (d.core2 ≠ 0xFFFF → rows ≠ d.r0 → d.r1 = some rows → Completes (.checkerRerunDone n up) s (fun u =>
        ∃ w, kept .resultReplaced w ∧ u = detain (accept w n e rows) n))
      ∧ (d.core2 ≠ 0xFFFF → rows ≠ d.r0 → d.r1 ≠ some rows → Completes (.checkerRerunDone n up) s (fun u =>
        ∃ w, w.mem = t.mem ∧ (getCore w n).decision = some e ∧ u = noMajority w n true)))
    ∧ (∀ b, d.slotEnd = some b → d.running = none → rerunCore s n d = none → counting s = true → b ≤ s.bell.count →
      Completes (.decisionDeadline n) s (fun u => u = noMajority s n true))

/-- R527, R528, R538-R540, R546, R547: an upset word holds a single error, or an uncorrectable one where it is its second; the
patrol corrects single errors in its range and leaves the others; a passed quiz gives its core back, or counts as clean in
detention; a failed set that the test runs detains the core and retires it in detention; a core whose quiz is a day old is due; the
fault records that wait are queued as events in order once their Bell or interval ends; ACK clears MODULE_FAULT. Model's readings:
log 15, 54, 57, 58. -/
def Obligations.PatrolQuizzesAndFaultLog : Prop :=
    (∀ (s : State) (a addr : Nat) (d : Bool), addr % 8 = 0 → Completes (.memoryPatrol [(a, d)] addr 0) s (fun u =>
    tget .none u.memErr (a / 8) = (if d || tget .none s.memErr (a / 8) != .none then .double else .single)
    ∧ (∀ k, k ≠ a / 8 → tget .none u.memErr k = tget .none s.memErr k) ∧ u.mem = s.mem))
  ∧ (∀ (s : State) (addr n : Nat) (p : Place), twf .none s.memErr = true → placeOf none addr = some p → p.1.isSram = false →
    Completes (.memoryPatrol [] addr n) s (fun u => u.mem = s.mem
      ∧ ∀ k, tget .none u.memErr k = (if addr < 8 * k + 8 ∧ 8 * k < addr + n ∧ tget .none s.memErr k ≠ .double then .none
        else tget .none s.memErr k)))
  ∧ (∀ (s : State) (q : Nat), q < 1152 → (getPhys s q).testing = true →
    let x := getPhys s q
    (x.state ≠ .detained → x.testFor = 0xFF → Completes (.quizComplete q none) s (fun u => getPhys u q = { x with
        testing := false, testFor := 0xFF, testDone := false, sets := [], due := false, overdue := false, lastQuiz := s.bell.count }
      ∧ u.mem = s.mem ∧ u.int = s.int))
    ∧ (x.state = .detained → x.clean + 1 < 96 → Completes (.quizComplete q none) s (fun u =>
        (getPhys u q).state = .detained ∧ (getPhys u q).clean = x.clean + 1 ∧ (getPhys u q).testing = false ∧ u.core = s.core))
    ∧ (∀ f, (f.1, f.2.1) ∉ x.sets → exec (.quizComplete q (some f)) s = .next s)
    ∧ (∀ f, (f.1, f.2.1) ∈ x.sets → x.state = .active → x.testFor = 0xFF → Completes (.quizComplete q (some f)) s (fun u =>
        (getPhys u q).state = .detained ∧ (getPhys u q).fails = 1 ∧ (getPhys u q).clean = 0
        ∧ u.int.lastCode = FaultCode.quizFail.code ∧ u.mem = s.mem))
    ∧ (∀ f, (f.1, f.2.1) ∈ x.sets → x.state = .detained → Completes (.quizComplete q (some f)) s (fun u =>
        (getPhys u q).state = .retired ∧ (getPhys u q).number = 0x3FF ∧ u.mem = s.mem)))
  ∧ (∀ (s : State) (k : Nat), k < 128 → counting s = true → Completes (.quizDue k) s (fun u => u.mem = s.mem
    ∧ ∀ q ∈ physOfCluster k, ((getPhys s q).state = .active ∨ (getPhys s q).state = .spare) →
        (getPhys s q).lastQuiz + dayBells < s.bell.count → (getPhys u q).due = true ∧ (getPhys u q).overdue = true))
  ∧ (∀ (s : State), s.int.ceLog = [] →
    (∀ f ∈ s.int.log, f.waiting = true → match f.interval with
      | some k => counting s = true ∨ k < s.cyc / 2048 ∨ s.cyc % 2048 = 2047
      | none => counting s = false ∨ f.stamp / 2048 < s.bell.count ∨ s.bell.sub = 2047) → Completes .faultLogFlush s (fun u =>
    let out := s.int.log.filter (fun f => f.waiting)
    u.int.log = s.int.log.map (fun f => if f.waiting then { f with waiting := false } else f)
    ∧ (s.cpt.evq.length + out.length ≤ 4096 → u.cpt.evq = s.cpt.evq ++ out.map (fun f => (1, f.bytes))) ∧ u.mem = s.mem))
  ∧ (∀ (s : State) (who : Req), (isInstaller s who = true ∨ isOperator s who = true) → Completes (.intAck who) s (fun u =>
    u = { s with int.moduleFault := false }))

/-- R553, R554, R562-R564, R569: the snapshot commands answer their status: ARM takes a plan that holds, DISARM and CAPTURE_NOW an
armed context, RESTORE a context that may be restored, DELETE frees a generation and QUERY lists the newest sixteen; before the
engine is ready they are BUSY. Model's readings: log 62, 63. -/
def Obligations.SnapshotCommands : Prop :=
    ∀ (s : State) (who : Req) (c : Nat), partsUp s = true → isOperator s who = true → s.snp.busy = false → c < 4096 →
    let answer (u : State) (k : Nat) := u.snp.done = true ∧ u.snp.busy = false ∧ u.snp.status = k
    let others (u : State) := (∀ d, d ≠ c → getSnp u d = getSnp s d) ∧ u.mem = s.mem
    (s.snp.ready = false → Completes (.snpQuery who c) s (fun u => answer u 6 ∧ u.snp.gens = s.snp.gens))
    ∧ (s.snp.ready = true →
      (∀ p ga, ga < 2 ^ 64 → ptnOfCtx s c = some p → (getCtx s c).state ≠ .free → (getCtx s c).state ≠ .scrubbing →
        let v := { s with snp.args := [ga % 2 ^ 32, ga / 2 ^ 32 % 2 ^ 32] ++ s.snp.args.drop 2 }
        (readPlan v p c ga = none → Completes (.snpArm who c ga) s (fun u => answer u 2 ∧ getSnp u c = getSnp s c ∧ others u))
        ∧ (∀ pl, readPlan v p c ga = some pl → (planOk v p c pl).isSome = true → Completes (.snpArm who c ga) s (fun u =>
            answer u 0 ∧ getSnp u c = { getSnp s c with armed := true, plan := ga } ∧ others u)))
      ∧ ((getSnp s c).armed = true → Completes (.snpDisarm who c) s (fun u =>
          answer u 0 ∧ getSnp u c = { getSnp s c with armed := false, now := false } ∧ others u))
      ∧ ((getSnp s c).armed = true → Completes (.captureNow who c) s (fun u =>
          answer u 0 ∧ getSnp u c = { getSnp s c with now := true } ∧ others u))
      ∧ ((getSnp s c).armed = false → Completes (.captureNow who c) s (fun u => answer u 1 ∧ getSnp u c = getSnp s c ∧ others u))
      ∧ (∀ lesson a2 r, lesson < 2 ^ 64 → a2 < 8 → bits a2 0 2 ≠ 3 → r < 2 ^ 64 →
          let x := getCtx s c
          ((x.state = .keyed ∨ (x.state = .restart ∧ x.stay = false)) → (getSnp s c).restoring = none →
            Completes (.snpRestore who c lesson a2 r) s (fun u => u.snp.busy = true ∧ u.snp.done = false ∧ others u
              ∧ (getSnp u c).restoring = some { lesson := lesson, source := bits a2 0 2, verify := bitOf a2 2, upTo := r }))
          ∧ (x.state ≠ .keyed → x.state ≠ .restart → Completes (.snpRestore who c lesson a2 r) s (fun u =>
              answer u 1 ∧ (getSnp u c).restoring = (getSnp s c).restoring ∧ others u)))
      ∧ (∀ g, g < 2 ^ 64 →
          let hit (x : Gen) : Bool := !x.mirror && x.ctx == c && x.gen == g && x.held
          (s.snp.gens.any hit = true → Completes (.snpDelete who c g) s (fun u => answer u 0 ∧ u.snp.gens.any hit = false
            ∧ (∀ x ∈ s.snp.gens, hit x = false → (x.held = true ∨ x.mirrored = true) → x ∈ u.snp.gens) ∧ u.mem = s.mem))
          ∧ (s.snp.gens.any hit = false → Completes (.snpDelete who c g) s (fun u => answer u 7 ∧ u.snp.gens = s.snp.gens)))
      ∧ (gensOf s c ≠ [] → Completes (.snpQuery who c) s (fun u => answer u 0 ∧ u.snp.gens = s.snp.gens
          ∧ u.snp.qbuf = (((gensOf s c).take 16).map queryRec).flatten)))

/-- R550, R556, R558, R559, R561-R567: the directory is read after READY; a capture's copy ends and its drain begins; a drained
capture that the area has room for is committed and listed, and raises SNAP_SPACE where it has not; acknowledgements send the rest
of a mirror and at last mark it mirrored, a mirror that hears nothing fails; the buddy stores a mirrored generation and returns it
when it is read; a restore ends with its status, the restored Lesson and the credits of its context's pools. Model's readings: log
7, 63, 109, 110, 111. -/
def Obligations.SnapshotEngine : Prop :=
    (∀ (s : State), s.mod.ready = true → s.snp.ready = false → Completes .snapshotEngineReady s (fun u => u.snp.ready = true
      ∧ u.snp.gens = s.snp.gens ∧ u.snp.maxGen = s.snp.maxGen ∧ u.snp.jobs = s.snp.jobs
      ∧ (∀ c g, (s.snp.gens.filter (fun g => !g.mirror && g.ctx == c)).getLast? = some g →
          (getSnp u c).gen = g.gen ∧ (getSnp u c).prev = g.digest ∧ (getSnp u c).prevLesson = g.lesson)
      ∧ (∀ c, s.snp.gens.any (fun g => !g.mirror && g.ctx == c) = false → getSnp u c = getSnp s c)
      ∧ ∀ p, p ≠ .snp → samePart p s u))
  ∧ (∀ (s : State) (c : Nat),
    let mine (j : SnpJob) : Bool := j.ctx == c && j.phase == .copy
    s.snp.jobs.any mine = true → Completes (.captureCopyDone c) s (fun u =>
      u.snp.jobs = modifyFirst mine (fun j => { j with phase := .drain }) s.snp.jobs
      ∧ (u.snp.jobs.any mine = false → (getCtx u c).copying = false ∧ (getCtx u c).copyStg = [])))
  ∧ (∀ (s : State) (c : Nat) (j : SnpJob), s.snp.jobs.find? (fun j => j.ctx == c && j.phase == .drain) = some j →
    let r := sealGen s j
    let t := { r.1 with snp.jobs := eraseFirst (· == j) s.snp.jobs }
    (genExtents r.2 ≤ freeExtents t false → 1 ≤ s.snp.keep → Completes (.snapshotCommit c) s (fun u =>
      (∃ g ∈ u.snp.gens, g.ctx = c ∧ g.gen = r.2.gen ∧ g.lesson = j.lesson ∧ g.manifest = r.2.manifest ∧ g.objs = r.2.objs)
      ∧ (getSnp u c).gen = r.2.gen ∧ (getSnp u c).prev = r.2.digest ∧ (getSnp u c).prevLesson = j.lesson
      ∧ tget 0 u.snp.maxGen c = tget 0 s.snp.maxGen c + 1 ∧ u.snp.jobs = t.snp.jobs ∧ u.mem = s.mem))
    ∧ (freeExtents t false < genExtents r.2 → Completes (.snapshotCommit c) s (fun u => u.snp = t.snp ∧ u.mem = s.mem
        ∧ u.int.lastCode = FaultCode.snapSpace.code)))
  ∧ (∀ (s : State) (src pool seq : Nat) (r : Recv) (h : SendHdr), mirrorRecv s src pool seq 3 = some (r, h) →
    (∀ m, h.len = 0 → s.snp.mirrors.find? (fun m => m.ctx == h.ctx) = some m → src = s.snp.buddyLmn →
      (m.rest = [] → Completes (.mirrorAck src pool seq) s (fun u => u.snp.mirrors = eraseFirst (· == m) s.snp.mirrors
        ∧ u.xf.recv = eraseFirst (· == r) s.xf.recv
        ∧ ∀ g ∈ u.snp.gens, g.mirror = false → g.ctx = m.ctx → g.gen = m.gen → g.mirrored = true))
      ∧ (∀ p, m.rest ≠ [] → routePort s src = some p → Completes (.mirrorAck src pool seq) s (fun u =>
        ∃ x ∈ u.snp.mirrors, x.ctx = m.ctx ∧ x.gen = m.gen ∧ x.rest = m.rest.drop mirrorUnit ∧ x.sent = s.bell.count)))
    ∧ (∀ c : MirrorCopy, h.len ≠ 0 → s.snp.ready = true → 1 ≤ s.snp.keep →
      let g : Gen := { mirror := true, src := src, ctx := h.ctx, gen := c.gen, lesson := c.lesson, nonce := c.nonce,
                       digest := c.digest, manifest := c.manifest, objs := c.objs }
      genExtents g ≤ freeExtents (takeRecv s r) true → Completes (.mirrorReceive src pool seq (some c)) s (fun u =>
        g ∈ u.snp.gens ∧ u.xf.recv = eraseFirst (· == r) s.xf.recv ∧ u.mem = s.mem)))
  ∧ (∀ (s : State) (c : Nat) (m : MirrorTx), s.snp.mirrors.find? (fun m => m.ctx == c) = some m → counting s = true →
    65536 + m.sent ≤ s.bell.count → Completes (.mirrorTimeout c) s (fun u => u.snp.mirrors = eraseFirst (· == m) s.snp.mirrors
      ∧ u.snp.failMirror = satInc 16 s.snp.failMirror ∧ u.int.lastCode = FaultCode.snapMirror.code ∧ u.mem = s.mem))
  ∧ (∀ (s : State) (src pool seq gen : Nat) (r : Recv) (h : SendHdr) (g : Gen) (p : Nat),
    mirrorRecv s src pool seq 4 = some (r, h) →
    s.snp.gens.find? (fun g => g.mirror && g.src == src && g.ctx == h.ctx && g.gen == gen) = some g → routePort s src = some p →
    Completes (.mirrorRead src pool seq gen) s (fun u => u.snp.gens = s.snp.gens ∧ u.xf.recv = eraseFirst (· == r) s.xf.recv
      ∧ u.snp.mirrorSeq = (s.snp.mirrorSeq + ceilDiv (genStream g).length mirrorUnit) % 65536 ∧ u.mem = s.mem))
  ∧ (∀ (s : State) (c p : Nat) (j : RestoreJob) (bad : List (Nat × Nat)) (mirror : List MirrorCopy),
    (getSnp s c).restoring = some j → ptnOfCtx s c = some p → s.snp.jobs.any (fun x => x.ctx == c) = false →
    let r := tryCopies p c s (restoreOrder s c j bad mirror)
    (∀ k, r.2 = .error k → Completes (.restoreComplete c bad mirror) s (fun u => u.snp.done = true ∧ u.snp.busy = false
      ∧ u.snp.status = k ∧ (getSnp u c).restoring = none ∧ u.mem = r.1.mem))
    ∧ (∀ man, r.2 = .ok man → j.verify = false → Completes (.restoreComplete c bad mirror) s (fun u => u.snp.done = true
      ∧ u.snp.busy = false ∧ u.snp.status = 0 ∧ (getSnp u c).restoring = none ∧ (getSnp u c).prevLesson = field man 0x10 8
      ∧ (getSnp u c).prev = shake256 32 man ∧ u.mem = r.1.mem
      ∧ ((getCtx r.1 c).state = .restart → (getCtx u c).restored = true)
      ∧ ∀ i, (getPool r.1 i).bound = true → (getPool r.1 i).ctx = c → (getPool u i).credits = (getPool r.1 i).alloc)))

/-- R571, R573, R576, R583-R585: the self-test commands of the maker begin their run, or are answered with their status; a region
that ends admits the next and is left with its SRAM zero; the end of a run is answered, and a full one leaves every memory zero;
FUSE makes the repairs that apply permanent. Model's readings: log 112, 113. -/
def Obligations.SelfTestRuns : Prop :=
    (∀ (s : State) (who : Req) (x : Nat), partsUp s = true → s.tst.busy = false →
    let field_ := s.lcs.lc = .manufacture ∨ s.lcs.lc = .returned
    (isMaker s who = true → field_ →
      (∀ c k, (c, k) ∈ [(Instr.runQuick who x, 1), (.runFull who x, 2)] → Completes c s (fun u =>
        let rs := testRegions s (x % 65536)
        u.tst.busy = true ∧ u.tst.kind = k ∧ u.tst.arg = x % 65536 ∧ u.tst.running = rs.take 2 ∧ u.tst.waiting = rs.drop 2
        ∧ u.tst.run = (s.tst.run + 1) % 2 ^ 32 ∧ u = { s with tst := u.tst }))
      ∧ Completes (.loopFar who x) s (fun u => u.tst.busy = true ∧ u.tst.kind = 3 ∧ u.tst.running = []
          ∧ u.tst.arg = x % 256 * 65536 ∧ u = { s with tst := u.tst })
      ∧ Completes (.fuse who []) s (fun u => u.tst.done = true ∧ u.tst.status = 0
          ∧ (∀ k, (getRep s k).state = 2 → (getRep u k).state = 3)
          ∧ u.fuse.repairs = s.fuse.repairs ++ (s.led.repair.filter (fun e => e.2.state == 2)).map (fun e => { e.2 with state := 3 })))
    ∧ (∀ c ∈ [Instr.runQuick who x, .runFull who x, .loopFar who x, .fuse who []],
      (isMaker s who = false → roleOf s who ≠ none → Completes c s (fun u => u.tst.status = 1 ∧ u.tst.busy = false
        ∧ u = { s with tst := u.tst }))
      ∧ (isMaker s who = true → ¬field_ → Completes c s (fun u => u.tst.status = 2 ∧ u.tst.busy = false
        ∧ u = { s with tst := u.tst }))))
  ∧ (∀ (s : State) (r : Nat) (rs : List TestRes), s.tst.running.contains r = true → Completes (.regionBistEnd r rs) s (fun u =>
      let t := testResults (runOrigin s) s rs
      u.tst.running = s.tst.running.filter (· != r) ++ s.tst.waiting.take 1 ∧ u.tst.waiting = s.tst.waiting.drop 1
      ∧ u.tst.regionsOk = (if t.2 then s.tst.regionsOk ||| 2 ^ r else s.tst.regionsOk)
      ∧ u.mem = (clearRegion t.1 r).mem ∧ u.led = t.1.led ∧ u.phys = t.1.phys))
  ∧ (∀ (s : State) (rs : List TestRes), s.tst.busy = true → s.tst.running = [] → Completes (.testRunEnd rs) s (fun u =>
      let t := forEach rs (testResult (runOrigin s)) s
      u.tst.busy = false ∧ u.tst.done = true ∧ u.tst.status = 0 ∧ u.led = t.led ∧ u.phys = t.phys
      ∧ u.mem = (if s.tst.kind = 2 then [] else t.mem)))

/-- R572, R496, R604: the test access port works while VAO is up: boundary scan and register accesses in the life cycles that permit
them, and else the opcode decodes as BYPASS. R607, R608: the I3C target takes a dynamic address, gives its identity, keeps the
maximum read length and the interrupt enable, and reads its 64 registers from a pointer that wraps. Model's readings: log 17, 106,
113, 120. -/
def Obligations.TestPortAndI3c : Prop :=
  (  ∀ (s : State), s.pwr.vao = true →
    Completes .tapReset s (fun u => u = { s with tap := {} })
    ∧ Completes .bypass s (fun u => u = { s with tap := { s.tap with ir := 0xFF, drive := false } })
    ∧ (scanPermitted s = true →
      (∀ pins cells, Completes (.extest pins cells) s (fun u => u.tap.ir = 0 ∧ u.tap.drive = true
          ∧ u.tap.boundary = bits cells 0 14 ∧ u.tap.dr = bits pins 0 1 + 2 * bits s.tap.boundary 1 4 + 32 * bits pins 5 9
          ∧ u = { s with tap := u.tap }))
      ∧ (∀ pins cells, Completes (.samplePreload pins cells) s (fun u => u.tap.ir = 1 ∧ u.tap.drive = false
          ∧ u.tap.boundary = bits cells 0 14 ∧ u.tap.dr = captureCells s pins ∧ u = { s with tap := u.tap }))
      ∧ Completes .clamp s (fun u => u = { s with tap := { s.tap with ir := 2, drive := true } })
      ∧ Completes .highz s (fun u => u = { s with tap := { s.tap with ir := 3, drive := false } })
      ∧ (∀ a env, a < 2 ^ 64 → acReserved a = false →
          let r := oneAccess { s with tap := { s.tap with ir := 0x80 } } .tap a env
          Completes (.regAccess a env) s (fun u => u.mem = r.1.mem ∧ u.lcs = r.1.lcs ∧ u.mod = r.1.mod ∧ u.tap.dr = r.2.2
            ∧ u.tap.drive = false))
      ∧ (∀ a env, a < 2 ^ 64 → acReserved a = true → Completes (.regAccess a env) s (fun u =>
          u.tap.dr = acAnswer a .error (acValue a) ∧ u = { s with tap := u.tap })))
    ∧ (scanPermitted s = false →
      ∀ pins cells a env, ∀ c ∈ [Instr.extest pins cells, .samplePreload pins cells, .clamp, .highz, .regAccess a env], Completes c s (fun u =>
        u = { s with tap := { s.tap with ir := 0xFF, drive := false } })))
  ∧ (  ∀ (s : State), s.pwr.vao = true →
    (∀ a, a < 128 → s.i3c.addr = none → Completes (.entdaa a) s (fun u => u = { s with i3c := { s.i3c with
      addr := some a, out := beBytes 6 (i3cPid s) ++ [6, 0] } }))
    ∧ Completes .rstdaa s (fun u => u = { s with i3c := { s.i3c with addr := none } })
    ∧ (∀ a, s.i3c.addr = some a →
      (∀ b, b < 128 → Completes (.setnewda a b) s (fun u => u = { s with i3c := { s.i3c with addr := some b } }))
      ∧ Completes (.getpid a) s (fun u => u = { s with i3c := { s.i3c with out := beBytes 6 (i3cPid s) } })
      ∧ Completes (.getbcr a) s (fun u => u = { s with i3c := { s.i3c with out := [6] } })
      ∧ Completes (.getdcr a) s (fun u => u = { s with i3c := { s.i3c with out := [0] } })
      ∧ Completes (.getstatus a) s (fun u => u.i3c.out.length = 2 ∧ u = { s with fresh := u.fresh, i3c := { s.i3c with out := u.i3c.out } })
      ∧ Completes (.getmrl a) s (fun u => u = { s with i3c := { s.i3c with out := beBytes 2 s.i3c.mrl ++ [1] } })
      ∧ (∀ who, (who = none ∨ who = some a) →
          Completes (.enec who) s (fun u => u = { s with i3c := { s.i3c with ibi := true } })
          ∧ Completes (.disec who) s (fun u => u = { s with i3c := { s.i3c with ibi := false } })
          ∧ ∀ n, n < 65536 → Completes (.setmrl who n) s (fun u => u = { s with i3c := { s.i3c with mrl := n } }))
      ∧ (∀ b, Completes (.i3cPrivateWrite a [b]) s (fun u => u = { s with i3c := { s.i3c with ptr := b.toNat % 64 } }))
      ∧ (∀ bs, bs.length ≠ 1 → Completes (.i3cPrivateWrite a bs) s (fun u => u = s))
      ∧ (∀ n, (s.i3c.mrl = 0 ∨ n ≤ s.i3c.mrl) → Completes (.i3cPrivateRead a n) s (fun u => u.i3c.out.length = n
          ∧ (∀ k, k < n → getAt 0 u.i3c.out k = getAt 0 (i3cRegs s) ((s.i3c.ptr + k) % 64))
          ∧ u.i3c.ptr = (s.i3c.ptr + n) % 64 ∧ u = { s with i3c := u.i3c }))))

/-- R589, R591-R596, R600-R602: the input charges the module and power good starts it: without sound firmware it stays in RECOVERY
at step 2, in SCRAPPED at step 1, and with sound firmware, links and units it becomes READY at step 9; an input or rail that leaves
its range or a reading at its Trip threshold shuts it down to VAO, an input below 20 V loses all that is volatile; a reading at its
Warn threshold begins the warn state; MOD_RESET_N holds the parts in reset until it is released. Model's readings: log 1, 14, 114,
118. -/
def Obligations.PowerAndInput : Prop :=
    ∀ (s : State),
    let down (u : State) := u.mod.shutdown = true ∧ u.mod.ready = false ∧ u.pwr.rails = 1 ∧ u.mem = [] ∧ u.core = s.core.filterMap
        (fun e => let x : Core := { epoch := e.2.epoch }; if x = default then none else some (e.1, x))
      ∧ u.fuse = s.fuse ∧ u.flash = s.flash ∧ u.led = s.led
    (∀ v b, 2000 ≤ v → v ≤ 6000 → s.mod.powered = false → Completes (.powerInputApplied v b) s (fun u =>
      u = { s with pwr := { s.pwr with vin := v.toNat, vao := true, charged := !b } }))
    ∧ (∀ v b, -6000 ≤ v → v < 2000 → Completes (.powerInputApplied v b) s (fun u => u = s))
    ∧ (∀ x, s.pwr.vao = true → s.pwr.charged = true → s.mod.powered = false →
      (s.mod.resetLow = true → Completes (.powerGood x) s (fun u => u.mod.powered = true ∧ u.mod.waitHigh = true
        ∧ u.mod.ready = s.mod.ready ∧ u.mem = s.mem))
      ∧ (s.mod.resetLow = false → s.fuse.lc = .scrapped → Completes (.powerGood x) s (fun u => u.mod.step = 1
        ∧ u.mod.ready = s.mod.ready ∧ u.mod.cause = 0))
      ∧ (s.mod.resetLow = false → s.fuse.lc ≠ .scrapped → fwOk s (flashImage s) = false → Completes (.powerGood x) s (fun u =>
        u.mod.recovery = true ∧ u.mod.step = 2 ∧ u.mod.ready = s.mod.ready ∧ u.mod.cause = 0))
      ∧ (s.mod.resetLow = false → s.fuse.lc ≠ .scrapped → s.mod.recovery = false → fwOk s (flashImage s) = true →
        x.railFail = none → x.calFail = [] → x.bist = [] → s.led.stored = none → Completes (.powerGood x) s (fun u =>
          u.mod.ready = true ∧ u.mod.step = 9 ∧ u.mod.cause = 0 ∧ u.mod.startupMs = x.ms ∧ u.lcs.lc = s.fuse.lc)))
    ∧ (∀ v i, s.mod.powered = true → v < 2000 → -6000 ≤ v → i ≤ 7500 → Completes (.inputSample v i) s (fun u =>
        u.mod.powered = false ∧ u.mem = [] ∧ u.fuse = s.fuse ∧ u.led = s.led ∧ u.flash = s.flash ∧ u.pending = s.pending))
    ∧ (∀ v i, s.mod.powered = true → 3800 ≤ v → v ≤ 5200 → i ≤ 7000 → Completes (.inputSample v i) s (fun u =>
        u.pwr.vin = v.toNat ∧ u.pwr.iin = i ∧ u.pwr.okUs = s.pwr.okUs + 10 ∧ u.pwr.lowUs = 0 ∧ u.pwr.overUs = 0
        ∧ u.pwr.inputLow = false ∧ u.pwr.inputHigh = false ∧ u.pwr.excursion = false ∧ u.mem = s.mem ∧ u.mod = s.mod))
    ∧ (∀ v i, s.mod.powered = true → s.mod.shutdown = false → 2000 ≤ v → v < 3500 → i ≤ 7500 → 40 ≤ s.pwr.lowUs →
        Completes (.inputSample v i) s (fun u => down u ∧ u.pwr.tripped = false ∧ u.pwr.excursion = true))
    ∧ (∀ k, s.mod.powered = true → s.mod.shutdown = false → 1 < s.pwr.rails → 1 ≤ k → k ≤ 7 → Completes (.railFault k) s (fun u =>
        down u ∧ u.pwr.tripped = false ∧ u.int.lastCode = FaultCode.inputRange.code))
    ∧ (∀ ts, s.mod.powered = true → s.mod.shutdown = false →
      let rs := readings (ts.map (wrap 16))
      let trip := rs.any (fun e => match tripAt e.1 with | some t => decide (t ≤ e.2) | none => false)
      let warm := rs.any (fun e => decide (warnAt e.1 ≤ e.2))
      (trip = false → warm = false → s.pwr.thermWarn = false → Completes (.thermalSample ts) s (fun u =>
        u = { s with pwr := { s.pwr with temps := ts.map (wrap 16), vinReg := s.pwr.vin, iinReg := s.pwr.iin } }))
      ∧ (trip = false → warm = true → s.pwr.thermWarn = false → Completes (.thermalSample ts) s (fun u => u.pwr.thermWarn = true
        ∧ u.pwr.temps = ts.map (wrap 16) ∧ u.int.lastCode = FaultCode.thermalWarn.code ∧ u.mod = s.mod ∧ u.mem = s.mem))
      ∧ (trip = true → Completes (.thermalSample ts) s (fun u => down u ∧ u.pwr.tripped = true
        ∧ u.int.lastCode = FaultCode.thermalTrip.code)))
    ∧ (∀ us taken, 10 ≤ us → s.pwr.vao = true → s.mod.powered = true → Completes (.modResetNAssert us taken) s (fun u =>
        u.mod.resetLow = true ∧ u.mod.ready = false ∧ u.mod.step = 1 ∧ u.mem = [] ∧ u.fuse = s.fuse ∧ u.led = s.led ∧ u.int = s.int))
    ∧ (∀ us, us < 1 → Completes (.modResetNAssert us true) s (fun u => u = s))
    ∧ (∀ x, s.mod.resetLow = true → s.mod.powered = true → s.mod.waitHigh = false → s.mod.shutdown = false →
        Completes (.modResetNRelease x) s (fun u => u = moduleReset { s with mod.resetLow := false } x { cause := 1 }))

/-- R26, R312, R494, R522, R537, R597-R600, R610: a reset that its requester may ask for starts, is deferred to the fourth Bell
after the last one of its unit, or is answered ROLE; it increments its unit's epochs; the resets of the whole module run when they
are due, a module reset increments every epoch and leads into RECOVERY where it was asked to. Model's readings: log 115, 116, 117,
130. -/
def Obligations.Resets : Prop :=
    (∀ (s : State) (who : Req) (x : StartUp), isInstaller s who = true → s.mod.due = none → s.mod.shutdown = false →
    s.mod.resetLow = false →
    Completes (.resetModule who x) s (fun u => u = moduleReset s x { cause := 2 })
    ∧ Completes (.resetDie who 4 x) s (fun u => u = moduleReset s x { cause := 4 })
    ∧ Completes (.resetWarm who x) s (fun u => u = warmReset (rstAnswer { s with mod.due := some { cause := 3, warm := true } } 0) x)
    ∧ (journalRoom s = true → s.fuse.lc ≠ .scrapped → Completes (.lcsRecover who x) s (fun u => u.mod.recovery = true
        ∧ u.mod.step = 2 ∧ u.mod.cause = 5 ∧ u.mod.ready = false ∧ u.led.seq = s.led.seq + 1 ∧ u.mem = [])))
  ∧ (∀ (s : State) (x : StartUp), s.mod.due = some { cause := 6 } → s.mod.shutdown = false → s.mod.resetLow = false →
    Completes (.recoveryReset x) s (fun u => u = moduleReset s x { cause := 6 }))
  ∧ (∀ (s : State) (x : StartUp) (d : RstDue), s.mod.shutdown = false → s.fuse.lc ≠ .scrapped →
    fwOk s (flashImage s) = false →
    let u := moduleReset s x d
    u.mod.recovery = true ∧ u.mod.cause = d.cause ∧ u.mem = [] ∧ u.pending = s.pending
    ∧ (∀ n, n < 1024 → (getCore u n).epoch = ((getCore s n).epoch + 1) % 256)
    ∧ (∀ r, r < 16 → (getPrs u r).epoch = ((getPrs s r).epoch + 1) % 256)
    ∧ u.rc.epoch0 = (s.rc.epoch0 + 1) % 256 ∧ u.rc.epoch1 = (s.rc.epoch1 + 1) % 256)
  ∧ (∀ (s : State) (who : Req) (c : Instr) (k t : Nat) (x : StartUp),
    (c, k) ∈ [(Instr.resetDie who t x, 3), (.resetRegion who t, 4), (.resetCore who t, 5), (.resetBank who t, 6)] →
    rstTargetOk k t = true → t ≠ 4 ∨ k ≠ 3 →
    (mayModRst s who = true → mayRst s who k t = false → Completes c s (fun u => u = rstAnswer s 1))
    ∧ (mayRst s who k t = true → partsUp s = true → s.mod.ready = true → resetting s (k, t) = false →
      (deferUntil s k t ≤ beat s → Completes c s (fun u => u = rstAnswer (startReset s k t) 0))
      ∧ (beat s < deferUntil s k t → Completes c s (fun u => u.mod.rstDone = true ∧ u.mod.rstStatus = 3 ∧ u.core = s.core
          ∧ { kind := k, target := t, bell := deferUntil s k t } ∈ u.mod.deferred ∧ u.mem = s.mem))))
  ∧ (∀ (s : State) (t : Nat),
    (∀ n, n < 1024 → let u := startReset s 5 n
      (getCore u n).epoch = ((getCore s n).epoch + 1) % 256 ∧ (getCore u n).acdQ = [] ∧ (getCore u n).wcdQ = []
      ∧ (getCore u n).xferQ = [] ∧ (getCore u n).acdRun = none)
    ∧ (t < 16 → let u := startReset s 4 t
      (getPrs u t).epoch = ((getPrs s t).epoch + 1) % 256 ∧ (getPrs u t).q = [] ∧ (4, t) ∈ u.mod.running
      ∧ ∀ i, i < 64 → (getCore u (64 * t + i)).epoch = ((getCore s (64 * t + i)).epoch + 1) % 256)
    ∧ (startReset s 6 0).rc.epoch0 = (s.rc.epoch0 + 1) % 256 ∧ (startReset s 6 1).rc.epoch1 = (s.rc.epoch1 + 1) % 256)
  ∧ (∀ (s : State) (k t : Nat) (w : RstWait), s.mod.deferred.find? (fun e => (e.kind, e.target) == (k, t)) = some w →
    w.bell ≤ beat s → resetting s (k, t) = false → Completes (.resetDeferredStart k t) s (fun u =>
      u = startReset { s with mod.deferred := s.mod.deferred.filter (fun e => (e.kind, e.target) != (k, t)) } k t))
  ∧ (∀ (s : State) (k t : Nat), s.mod.running.contains (k, t) = true →
    ((k, t) ≠ (3, 5) → Completes (.resetComplete k t []) s (fun u => u.mod.running = s.mod.running.filter (· != (k, t))
      ∧ u.core = s.core ∧ u.mem = s.mem))
    ∧ ((k, t) = (3, 5) → Completes (.resetComplete k t []) s (fun u => u.mod.running = s.mod.running.filter (· != (k, t))
      ∧ u.tst.deadChannels = [] ∧ ∀ p, 4 ≤ p → p < 8 → (fabPort u p).pstate = .dark)))
end

