-- ==== Sys2Proof/Laws/Tbl.lean ====
section
/-! SUPPORT. What the operations of sparse tables do: reading after writing, and that the canonical form is kept. -/

namespace Sys2Proof.Machine

variable {α : Type} {d x : α} {t : Tbl α} {n m : Nat}

/-! ### Reading after writing -/

theorem tget_nil : tget d [] n = d := rfl

theorem tget_cons {k : Nat} {v : α} : tget d ((k, v) :: t) n = if k = n then v else tget d t n := rfl

@[simp] theorem tget_tput_same : tget d (tput t n x) n = x := by
  induction t with
  | nil => simp [tput, tget]
  | cons e t ih =>
    obtain ⟨k, v⟩ := e
    unfold tput
    split
    · rename_i h
      simp [tget, ih, Nat.ne_of_lt h]
    · split <;> simp [tget]

theorem tget_tput_other (h : m ≠ n) : tget d (tput t n x) m = tget d t m := by
  have hn : ¬ n = m := fun e => h e.symm
  induction t with
  | nil => simp [tput, tget, hn]
  | cons e t ih =>
    obtain ⟨k, v⟩ := e
    unfold tput
    split
    · simp [tget, ih]
    · split
      · rename_i h1 h2
        subst h2
        simp [tget, hn]
      · simp [tget, hn]

theorem tget_tdel_other (h : m ≠ n) : tget d (tdel t n) m = tget d t m := by
  induction t with
  | nil => rfl
  | cons e t ih =>
    obtain ⟨k, v⟩ := e
    unfold tdel
    split
    · rename_i hk
      subst hk
      have : ¬ k = m := fun e => h e.symm
      simp [tget, this, ih]
    · simp [tget, ih]

@[simp] theorem tget_tdel_same : tget d (tdel t n) n = d := by
  induction t with
  | nil => rfl
  | cons a t ih =>
    obtain ⟨k, v⟩ := a
    unfold tdel
    split
    · exact ih
    · rename_i hk
      simp [tget, hk, ih]

@[simp] theorem tget_tset_same [DecidableEq α] : tget d (tset d t n x) n = x := by
  unfold tset
  split
  · rename_i hx
    rw [hx]
    exact tget_tdel_same
  · exact tget_tput_same

@[simp] theorem tget_tmod_same [DecidableEq α] {f : α → α} : tget d (tmod d t n f) n = f (tget d t n) := tget_tset_same

theorem tget_tmod_other [DecidableEq α] {f : α → α} (h : m ≠ n) : tget d (tmod d t n f) m = tget d t m := by
  unfold tmod tset
  split
  · exact tget_tdel_other h
  · exact tget_tput_other h

theorem tget_tset_other [DecidableEq α] (h : m ≠ n) : tget d (tset d t n x) m = tget d t m := by
  unfold tset
  split
  · exact tget_tdel_other h
  · exact tget_tput_other h

/-! ### The order of the numbers -/

/-- Every number of the table is above `lo`. -/
def Above (lo : Nat) (t : Tbl α) : Prop := ∀ e ∈ t, lo < e.1

theorem tsorted_some {lo : Nat} : tsorted (some lo) t = true ↔ Above lo t ∧ tsorted none t = true := by
  induction t generalizing lo with
  | nil => simp [tsorted, Above]
  | cons e t ih =>
    obtain ⟨k, v⟩ := e
    simp only [tsorted, Bool.and_eq_true, decide_eq_true_eq, Bool.true_and, ih, Above, List.mem_cons]
    constructor
    · rintro ⟨h, ha, hs⟩
      exact ⟨by rintro e (rfl | he); exacts [h, Nat.lt_trans h (ha e he)], ha, hs⟩
    · rintro ⟨ha, hb, hs⟩
      exact ⟨ha _ (Or.inl rfl), hb, hs⟩

theorem tsorted_cons {k : Nat} {v : α} : tsorted none ((k, v) :: t) = true ↔ Above k t ∧ tsorted none t = true := by
  rw [show tsorted none ((k, v) :: t) = tsorted (some k) t by simp [tsorted], tsorted_some]

theorem tget_above {lo : Nat} (h : Above lo t) (hn : n ≤ lo) : tget d t n = d := by
  induction t with
  | nil => rfl
  | cons e t ih =>
    obtain ⟨k, v⟩ := e
    have hk : lo < k := h (k, v) (by simp)
    have : ¬ k = n := by omega
    simp only [tget, this, if_false]
    exact ih (fun e he => h e (by simp [he]))

theorem mem_tput {e : Nat × α} (h : e ∈ tput t n x) : e = (n, x) ∨ e ∈ t := by
  induction t with
  | nil => simpa [tput] using h
  | cons a t ih =>
    obtain ⟨k, v⟩ := a
    unfold tput at h
    split at h
    · rcases List.mem_cons.1 h with h | h
      · exact .inr (by simp [h])
      · rcases ih h with h | h
        · exact .inl h
        · exact .inr (by simp [h])
    · split at h
      · rcases List.mem_cons.1 h with h | h
        · exact .inl h
        · exact .inr (by simp [h])
      · rcases List.mem_cons.1 h with h | h
        · exact .inl h
        · exact .inr h

theorem mem_tdel {e : Nat × α} (h : e ∈ tdel t n) : e ∈ t := by
  induction t with
  | nil => simp [tdel] at h
  | cons a t ih =>
    obtain ⟨k, v⟩ := a
    unfold tdel at h
    split at h
    · simp [ih h]
    · rcases List.mem_cons.1 h with h | h
      · simp [h]
      · simp [ih h]

theorem tsorted_tput (h : tsorted none t = true) : tsorted none (tput t n x) = true := by
  induction t with
  | nil => simp [tput, tsorted]
  | cons a t ih =>
    obtain ⟨k, v⟩ := a
    obtain ⟨ha, hs⟩ := tsorted_cons.1 h
    unfold tput
    split
    · rename_i hk
      refine tsorted_cons.2 ⟨fun e he => ?_, ih hs⟩
      rcases mem_tput he with rfl | he
      · exact hk
      · exact ha e he
    · split
      · rename_i hk
        subst hk
        exact tsorted_cons.2 ⟨ha, hs⟩
      · rename_i h1 h2
        have hnk : n < k := by omega
        refine tsorted_cons.2 ⟨fun e he => ?_, h⟩
        rcases List.mem_cons.1 he with rfl | he
        · exact hnk
        · exact Nat.lt_trans hnk (ha e he)

theorem tsorted_tdel (h : tsorted none t = true) : tsorted none (tdel t n) = true := by
  induction t with
  | nil => rfl
  | cons a t ih =>
    obtain ⟨k, v⟩ := a
    obtain ⟨ha, hs⟩ := tsorted_cons.1 h
    unfold tdel
    split
    · exact ih hs
    · exact tsorted_cons.2 ⟨fun e he => ha e (mem_tdel he), ih hs⟩

theorem tsorted_filter (f : Nat × α → Bool) (h : tsorted none t = true) : tsorted none (t.filter f) = true := by
  induction t with
  | nil => rfl
  | cons a t ih =>
    obtain ⟨k, v⟩ := a
    obtain ⟨ha, hs⟩ := tsorted_cons.1 h
    rw [List.filter_cons]
    split
    · exact tsorted_cons.2 ⟨fun e he => ha e (List.mem_of_mem_filter he), ih hs⟩
    · exact ih hs

/-! ### The canonical form -/

variable [DecidableEq α]

theorem twf_iff : twf d t = true ↔ tsorted none t = true ∧ ∀ e ∈ t, e.2 ≠ d := by
  simp [twf, List.all_eq_true]

/-- A write keeps the canonical form. -/
theorem twf_tset (h : twf d t = true) : twf d (tset d t n x) = true := by
  obtain ⟨hs, hd⟩ := twf_iff.1 h
  unfold tset
  split
  · exact twf_iff.2 ⟨tsorted_tdel hs, fun e he => hd e (mem_tdel he)⟩
  · rename_i hx
    refine twf_iff.2 ⟨tsorted_tput hs, fun e he => ?_⟩
    rcases mem_tput he with rfl | he
    · exact hx
    · exact hd e he

theorem twf_tmod {f : α → α} (h : twf d t = true) : twf d (tmod d t n f) = true := twf_tset h

theorem twf_tdel (h : twf d t = true) : twf d (tdel t n) = true :=
  twf_iff.2 ⟨tsorted_tdel (twf_iff.1 h).1, fun e he => (twf_iff.1 h).2 e (mem_tdel he)⟩

theorem twf_filter (f : Nat × α → Bool) (h : twf d t = true) : twf d (t.filter f) = true :=
  twf_iff.2 ⟨tsorted_filter f (twf_iff.1 h).1, fun e he => (twf_iff.1 h).2 e (List.mem_of_mem_filter he)⟩

theorem twf_nil : twf d ([] : Tbl α) = true := rfl

/-! ### Runs of values -/

theorem mem_tcells {e : Nat × α} {a : Nat} {xs : List α} (h : e ∈ tcells d a xs) :
    a ≤ e.1 ∧ e.1 < a + xs.length ∧ e.2 ≠ d := by
  induction xs generalizing a with
  | nil => simp [tcells] at h
  | cons y ys ih =>
    unfold tcells at h
    split at h
    · obtain ⟨h1, h2, h3⟩ := ih h
      exact ⟨by omega, by simp; omega, h3⟩
    · rcases List.mem_cons.1 h with rfl | h
      · rename_i hy
        exact ⟨le_refl _, by simp, hy⟩
      · obtain ⟨h1, h2, h3⟩ := ih h
        exact ⟨by omega, by simp; omega, h3⟩

theorem tsorted_tcells {a : Nat} {xs : List α} : tsorted none (tcells d a xs) = true := by
  induction xs generalizing a with
  | nil => rfl
  | cons y ys ih =>
    unfold tcells
    split
    · exact ih
    · exact tsorted_cons.2 ⟨fun e he => by have := mem_tcells he; omega, ih⟩

omit [DecidableEq α] in
theorem tsorted_append {u : Tbl α} (ht : tsorted none t = true) (hu : tsorted none u = true)
    (h : ∀ e ∈ t, ∀ f ∈ u, e.1 < f.1) : tsorted none (t ++ u) = true := by
  induction t with
  | nil => simpa using hu
  | cons a t ih =>
    obtain ⟨k, v⟩ := a
    obtain ⟨ha, hs⟩ := tsorted_cons.1 ht
    refine tsorted_cons.2 ⟨fun e he => ?_, ih hs (fun e he => h e (by simp [he]))⟩
    rcases List.mem_append.1 he with he | he
    · exact ha e he
    · exact h (k, v) (by simp) e he

/-- Writing a run of values keeps the canonical form. -/
theorem twf_tsplice {a : Nat} {xs : List α} (h : twf d t = true) : twf d (tsplice d t a xs) = true := by
  obtain ⟨hs, hd⟩ := twf_iff.1 h
  unfold tsplice
  refine twf_iff.2 ⟨?_, fun e he => ?_⟩
  · refine tsorted_append (tsorted_append (tsorted_filter _ hs) tsorted_tcells ?_) (tsorted_filter _ hs) ?_
    · intro e he f hf
      have h1 := (List.mem_filter.1 he).2
      have h2 := mem_tcells hf
      simp at h1; omega
    · intro e he f hf
      have h2 := (List.mem_filter.1 hf).2
      simp at h2
      rcases List.mem_append.1 he with he | he
      · have h1 := (List.mem_filter.1 he).2
        simp at h1; omega
      · have h1 := mem_tcells he
        omega
  · rcases List.mem_append.1 he with he | he
    · rcases List.mem_append.1 he with he | he
      · exact hd e (List.mem_of_mem_filter he)
      · exact (mem_tcells he).2.2
    · exact hd e (List.mem_of_mem_filter he)

omit [DecidableEq α] in
theorem tget_append {u : Tbl α} (h : ∀ e ∈ t, e.1 ≠ n) : tget d (t ++ u) n = tget d u n := by
  induction t with
  | nil => rfl
  | cons a t ih =>
    obtain ⟨k, v⟩ := a
    have : ¬ k = n := h (k, v) (by simp)
    simp [tget, this, ih (fun e he => h e (by simp [he]))]

omit [DecidableEq α] in
theorem tget_append_left {u : Tbl α} (h : ∀ e ∈ u, e.1 ≠ n) : tget d (t ++ u) n = tget d t n := by
  induction t with
  | nil =>
    induction u with
    | nil => rfl
    | cons a u ih =>
      obtain ⟨k, v⟩ := a
      have : ¬ k = n := h (k, v) (by simp)
      simpa [tget, this] using ih (fun e he => h e (by simp [he]))
  | cons a t ih =>
    obtain ⟨k, v⟩ := a
    simp [tget, ih]

omit [DecidableEq α] in
theorem tget_filter {f : Nat × α → Bool} (h : ∀ v, f (n, v) = true) : tget d (t.filter f) n = tget d t n := by
  induction t with
  | nil => rfl
  | cons a t ih =>
    obtain ⟨k, v⟩ := a
    rw [List.filter_cons]
    by_cases hk : k = n
    · subst hk
      simp [h v, tget]
    · split <;> simp [tget, hk, ih]

theorem tget_tcells {a : Nat} {xs : List α} {i : Nat} (h : i < xs.length) : tget d (tcells d a xs) (a + i) = xs[i] := by
  induction xs generalizing a i with
  | nil => simp at h
  | cons y ys ih =>
    unfold tcells
    cases i with
    | zero =>
      split
      · rename_i hy
        rw [tget_above (lo := a)]
        · simpa using hy.symm
        · intro e he
          have := mem_tcells he
          omega
        · omega
      · simp [tget]
    | succ i =>
      have hi : i < ys.length := by simpa using h
      have e : a + (i + 1) = a + 1 + i := by omega
      split
      · rw [e, ih hi]; rfl
      · have : ¬ a = a + (i + 1) := by omega
        simp only [tget, this, if_false]
        rw [e, ih hi]; rfl

/-- A run of values is read back where it was written. -/
theorem tget_tsplice_in {a i : Nat} {xs : List α} (hi : i < xs.length) :
    tget d (tsplice d t a xs) (a + i) = xs[i] := by
  unfold tsplice
  rw [tget_append_left, tget_append, tget_tcells hi]
  · intro e he
    have h1 := (List.mem_filter.1 he).2
    simp at h1; omega
  · intro e he
    have h1 := (List.mem_filter.1 he).2
    simp at h1; omega

/-- A run of values written leaves every other number as it was. -/
theorem tget_tsplice_out {a k : Nat} {xs : List α} (hk : k < a ∨ a + xs.length ≤ k) :
    tget d (tsplice d t a xs) k = tget d t k := by
  unfold tsplice
  rcases hk with hk | hk
  · rw [tget_append_left, tget_append_left, tget_filter]
    · intro v; simpa using hk
    · intro e he
      have := mem_tcells he
      omega
    · intro e he
      have h1 := (List.mem_filter.1 he).2
      simp at h1; omega
  · rw [List.append_assoc, tget_append, tget_append, tget_filter]
    · intro v; simpa using hk
    · intro e he
      have := mem_tcells he
      omega
    · intro e he
      have h1 := (List.mem_filter.1 he).2
      simp at h1; omega

/-! ### Reading a run of values -/

omit [DecidableEq α] in
theorem tsliceGo_length {a : Nat} : (tsliceGo d n t a).length = n := by
  induction n generalizing t a with
  | zero => cases t <;> rfl
  | succ n ih =>
    cases t with
    | nil => simp [tsliceGo, ih]
    | cons e t =>
      obtain ⟨k, v⟩ := e
      unfold tsliceGo
      split <;> simp [ih]

omit [DecidableEq α] in
@[simp] theorem tslice_length {a : Nat} : (tslice d t a n).length = n := tsliceGo_length

omit [DecidableEq α] in
theorem tsliceGo_get {a i : Nat} (hs : tsorted none t = true) (ha : ∀ e ∈ t, a ≤ e.1) (hi : i < n) :
    (tsliceGo d n t a)[i]? = some (tget d t (a + i)) := by
  induction n generalizing t a i with
  | zero => omega
  | succ n ih =>
    cases t with
    | nil =>
      cases i with
      | zero => simp [tsliceGo, tget]
      | succ i =>
        have := ih (t := []) (a := a + 1) (i := i) (by rfl) (by simp) (by omega)
        simpa [tsliceGo, tget] using this
    | cons e t =>
      obtain ⟨k, v⟩ := e
      obtain ⟨hk, hs'⟩ := tsorted_cons.1 hs
      have hak : a ≤ k := ha (k, v) (by simp)
      unfold tsliceGo
      split
      · rename_i e1
        subst e1
        cases i with
        | zero => simp [tget]
        | succ i =>
          have := ih (t := t) (a := k + 1) (i := i) hs' (fun e he => hk e he) (by omega)
          have h2 : ¬ k = k + (i + 1) := by omega
          simp only [List.getElem?_cons_succ, this, tget, h2, if_false]
          congr 2; omega
      · rename_i e1
        cases i with
        | zero =>
          have : tget d t a = d := tget_above hk hak
          simp [tget, e1, this]
        | succ i =>
          have := ih (t := (k, v) :: t) (a := a + 1) (i := i) hs
            (by intro e he
                rcases List.mem_cons.1 he with rfl | he
                · simp; omega
                · have := hk e he; omega) (by omega)
          simp only [List.getElem?_cons_succ, this]
          congr 2; omega

omit [DecidableEq α] in
theorem tget_dropWhile {a k : Nat} (h : a ≤ k) : tget d (t.dropWhile (fun e => decide (e.1 < a))) k = tget d t k := by
  induction t with
  | nil => rfl
  | cons e t ih =>
    obtain ⟨j, v⟩ := e
    by_cases hj : j < a
    · have : ¬ j = k := by omega
      simp [hj, ih, tget, this]
    · simp [hj]

omit [DecidableEq α] in
theorem tsorted_dropWhile {f : Nat × α → Bool} (h : tsorted none t = true) : tsorted none (t.dropWhile f) = true := by
  induction t with
  | nil => rfl
  | cons e t ih =>
    obtain ⟨k, v⟩ := e
    by_cases hf : f (k, v)
    · simp [hf, ih (tsorted_cons.1 h).2]
    · simpa [hf] using h

omit [DecidableEq α] in
theorem dropWhile_above {a : Nat} (h : tsorted none t = true) : ∀ e ∈ t.dropWhile (fun e => decide (e.1 < a)), a ≤ e.1 := by
  induction t with
  | nil => simp
  | cons e t ih =>
    obtain ⟨k, v⟩ := e
    obtain ⟨hk, hs⟩ := tsorted_cons.1 h
    by_cases hf : k < a
    · simpa [hf] using ih hs
    · intro e he
      simp [hf] at he
      rcases he with rfl | he
      · omega
      · have := hk e he
        omega

omit [DecidableEq α] in
/-- The `i`-th of a run of values read from a table in order. -/
theorem tslice_get {a i : Nat} (hs : tsorted none t = true) (hi : i < n) : (tslice d t a n)[i]? = some (tget d t (a + i)) := by
  unfold tslice
  rw [tsliceGo_get (tsorted_dropWhile hs) (dropWhile_above hs) hi, tget_dropWhile (by omega)]

end Sys2Proof.Machine
end

