-- ==== Sys2Proof/Laws/Kept.lean ====
section
/-! SUPPORT. What no operation of the module does: it never takes a command from the queue or adds one, never leaves memory out of
its canonical form, never takes a burnt eFuse back, never lowers SEQ of the Ledger journal. The files KeptOps to KeptReset carry this from
the shared operations to every command. -/

namespace Sys2Proof.Machine

/-- The second state with every part outside a list as in the first. -/
def restore (w : List Part) (s t : State) : State :=
  { t with
    fresh := bif w.contains .fresh then t.fresh else s.fresh,
    cyc := bif w.contains .cyc then t.cyc else s.cyc,
    mem := bif w.contains .mem then t.mem else s.mem,
    memKey := bif w.contains .memKey then t.memKey else s.memKey,
    memErr := bif w.contains .memErr then t.memErr else s.memErr,
    tags := bif w.contains .tags then t.tags else s.tags,
    resv := bif w.contains .resv then t.resv else s.resv,
    mc := bif w.contains .mc then t.mc else s.mc,
    core := bif w.contains .core then t.core else s.core,
    phys := bif w.contains .phys then t.phys else s.phys,
    int := bif w.contains .int then t.int else s.int,
    rc := bif w.contains .rc then t.rc else s.rc,
    ptn := bif w.contains .ptn then t.ptn else s.ptn,
    ctx := bif w.contains .ctx then t.ctx else s.ctx,
    brn := bif w.contains .brn then t.brn else s.brn,
    prs := bif w.contains .prs then t.prs else s.prs,
    bell := bif w.contains .bell then t.bell else s.bell,
    syl := bif w.contains .syl then t.syl else s.syl,
    keys := bif w.contains .keys then t.keys else s.keys,
    fab := bif w.contains .fab then t.fab else s.fab,
    xf := bif w.contains .xf then t.xf else s.xf,
    led := bif w.contains .led then t.led else s.led,
    lcs := bif w.contains .lcs then t.lcs else s.lcs,
    sec := bif w.contains .sec then t.sec else s.sec,
    cpt := bif w.contains .cpt then t.cpt else s.cpt,
    ses := bif w.contains .ses then t.ses else s.ses,
    mod := bif w.contains .mod then t.mod else s.mod,
    pwr := bif w.contains .pwr then t.pwr else s.pwr,
    subf := bif w.contains .subf then t.subf else s.subf,
    vat := bif w.contains .vat then t.vat else s.vat,
    tst := bif w.contains .tst then t.tst else s.tst,
    snp := bif w.contains .snp then t.snp else s.snp,
    oh := bif w.contains .oh then t.oh else s.oh,
    fuse := bif w.contains .fuse then t.fuse else s.fuse,
    flash := bif w.contains .flash then t.flash else s.flash,
    tap := bif w.contains .tap then t.tap else s.tap,
    i3c := bif w.contains .i3c then t.i3c else s.i3c }

theorem samePart_of_restore {w : List Part} {s t : State} (e : restore w s t = t) : ∀ p, p ∉ w → samePart p s t := by
  intro p hp
  have hc : w.contains p = false := by simpa using hp
  cases p <;> (simp only [samePart]; rw [← e]; simp only [restore, hc, cond_false])

/-- A list of parts within another one, both in the order of Part. -/
def Part.subb : List Part → List Part → Bool
  | [], _ => true
  | _ :: _, [] => false
  | p :: ps, q :: qs => if p = q then Part.subb ps qs else Part.subb (p :: ps) qs

theorem Part.sub_of_subb : ∀ {v w : List Part}, Part.subb v w = true → v ⊆ w
  | [], _, _ => List.nil_subset _
  | p :: ps, [], h => by simp [Part.subb] at h
  | p :: ps, q :: qs, h => by
    unfold Part.subb at h
    split at h
    · next e => exact e ▸ List.cons_subset_cons _ (Part.sub_of_subb h)
    · exact fun x hx => List.mem_cons_of_mem _ (Part.sub_of_subb h hx)

/-- The parts that a function writes lie within a list. -/
def Within (w m : List Part) : Prop := w ⊆ m

theorem Within.mem {w m : List Part} {p : Part} (h : Within w m) (x : p ∈ w) : p ∈ m := h x

/-- What a function writes lies within what its caller may write. -/
theorem Part.sub {v w m : List Part} (h : Within w m) (e : Part.subb v w = true) : Within v m :=
  fun _ x => h (Part.sub_of_subb e x)

theorem samePart.refl (p : Part) (s : State) : samePart p s s := by cases p <;> rfl

theorem samePart.trans {p : Part} {s t u : State} (a : samePart p s t) (b : samePart p t u) : samePart p s u := by
  cases p <;> exact Eq.trans b a

/-- What every operation keeps, the parts of the state outside `m` among it. -/
structure Kept (m : List Part) (s t : State) : Prop where
  queue : t.pending = s.pending
  mem : Memory.wf s.mem = true → Memory.wf t.mem = true
  fuses : FusesKept s.fuse t.fuse
  seq : s.led.seq ≤ t.led.seq
  rest : ∀ p, p ∉ m → samePart p s t

theorem FusesKept.refl (f : FuseBlk) : FusesKept f f := ⟨le_refl _, id, le_refl _, List.prefix_refl _⟩

theorem FusesKept.trans {f g h : FuseBlk} (a : FusesKept f g) (b : FusesKept g h) : FusesKept f h :=
  ⟨a.life.trans b.life, fun x => b.identity (a.identity x), a.floor.trans b.floor, a.repairs.trans b.repairs⟩

theorem Kept.refl (m : List Part) (s : State) : Kept m s s :=
  ⟨rfl, id, FusesKept.refl _, le_refl _, fun p _ => samePart.refl p s⟩

theorem Kept.trans {m : List Part} {s t u : State} (a : Kept m s t) (b : Kept m t u) : Kept m s u :=
  ⟨b.queue.trans a.queue, fun x => b.mem (a.mem x), a.fuses.trans b.fuses, a.seq.trans b.seq,
    fun p hp => (a.rest p hp).trans (b.rest p hp)⟩

/-- A change within the parts `w`. -/
theorem Kept.change {m w : List Part} {s0 s t : State} (h : Kept m s0 s) (d : ∀ p, p ∉ w → samePart p s t) (sub : Within w m)
    (hq : t.pending = s.pending) (hm : Memory.wf s.mem = true → Memory.wf t.mem = true) (hf : FusesKept s.fuse t.fuse)
    (hl : s.led.seq ≤ t.led.seq) : Kept m s0 t :=
  h.trans ⟨hq, hm, hf, hl, fun p hp => d p (fun x => hp (sub x))⟩

theorem Kept.set_fresh {m : List Part} {s0 s : State} {y} (h : Kept m s0 s) (hm : Part.fresh ∈ m) :
    Kept m s0 (State.mk s.pending y s.cyc s.mem s.memKey s.memErr s.tags s.resv s.mc s.core s.phys s.int s.rc s.ptn s.ctx s.brn s.prs s.bell s.syl s.keys s.fab s.xf s.led s.lcs s.sec s.cpt s.ses s.mod s.pwr s.subf s.vat s.tst s.snp s.oh s.fuse s.flash s.tap s.i3c) :=
  h.change (w := [.fresh]) (fun p hp => by cases p <;> first | rfl | exact absurd (by decide) hp) (fun x hx => by simp at hx; exact hx ▸ hm) rfl id (FusesKept.refl _) (le_refl _)

theorem Kept.set_cyc {m : List Part} {s0 s : State} {y} (h : Kept m s0 s) (hm : Part.cyc ∈ m) :
    Kept m s0 (State.mk s.pending s.fresh y s.mem s.memKey s.memErr s.tags s.resv s.mc s.core s.phys s.int s.rc s.ptn s.ctx s.brn s.prs s.bell s.syl s.keys s.fab s.xf s.led s.lcs s.sec s.cpt s.ses s.mod s.pwr s.subf s.vat s.tst s.snp s.oh s.fuse s.flash s.tap s.i3c) :=
  h.change (w := [.cyc]) (fun p hp => by cases p <;> first | rfl | exact absurd (by decide) hp) (fun x hx => by simp at hx; exact hx ▸ hm) rfl id (FusesKept.refl _) (le_refl _)

theorem Kept.set_memKey {m : List Part} {s0 s : State} {y} (h : Kept m s0 s) (hm : Part.memKey ∈ m) :
    Kept m s0 (State.mk s.pending s.fresh s.cyc s.mem y s.memErr s.tags s.resv s.mc s.core s.phys s.int s.rc s.ptn s.ctx s.brn s.prs s.bell s.syl s.keys s.fab s.xf s.led s.lcs s.sec s.cpt s.ses s.mod s.pwr s.subf s.vat s.tst s.snp s.oh s.fuse s.flash s.tap s.i3c) :=
  h.change (w := [.memKey]) (fun p hp => by cases p <;> first | rfl | exact absurd (by decide) hp) (fun x hx => by simp at hx; exact hx ▸ hm) rfl id (FusesKept.refl _) (le_refl _)

theorem Kept.set_memErr {m : List Part} {s0 s : State} {y} (h : Kept m s0 s) (hm : Part.memErr ∈ m) :
    Kept m s0 (State.mk s.pending s.fresh s.cyc s.mem s.memKey y s.tags s.resv s.mc s.core s.phys s.int s.rc s.ptn s.ctx s.brn s.prs s.bell s.syl s.keys s.fab s.xf s.led s.lcs s.sec s.cpt s.ses s.mod s.pwr s.subf s.vat s.tst s.snp s.oh s.fuse s.flash s.tap s.i3c) :=
  h.change (w := [.memErr]) (fun p hp => by cases p <;> first | rfl | exact absurd (by decide) hp) (fun x hx => by simp at hx; exact hx ▸ hm) rfl id (FusesKept.refl _) (le_refl _)

theorem Kept.set_tags {m : List Part} {s0 s : State} {y} (h : Kept m s0 s) (hm : Part.tags ∈ m) :
    Kept m s0 (State.mk s.pending s.fresh s.cyc s.mem s.memKey s.memErr y s.resv s.mc s.core s.phys s.int s.rc s.ptn s.ctx s.brn s.prs s.bell s.syl s.keys s.fab s.xf s.led s.lcs s.sec s.cpt s.ses s.mod s.pwr s.subf s.vat s.tst s.snp s.oh s.fuse s.flash s.tap s.i3c) :=
  h.change (w := [.tags]) (fun p hp => by cases p <;> first | rfl | exact absurd (by decide) hp) (fun x hx => by simp at hx; exact hx ▸ hm) rfl id (FusesKept.refl _) (le_refl _)

theorem Kept.set_resv {m : List Part} {s0 s : State} {y} (h : Kept m s0 s) (hm : Part.resv ∈ m) :
    Kept m s0 (State.mk s.pending s.fresh s.cyc s.mem s.memKey s.memErr s.tags y s.mc s.core s.phys s.int s.rc s.ptn s.ctx s.brn s.prs s.bell s.syl s.keys s.fab s.xf s.led s.lcs s.sec s.cpt s.ses s.mod s.pwr s.subf s.vat s.tst s.snp s.oh s.fuse s.flash s.tap s.i3c) :=
  h.change (w := [.resv]) (fun p hp => by cases p <;> first | rfl | exact absurd (by decide) hp) (fun x hx => by simp at hx; exact hx ▸ hm) rfl id (FusesKept.refl _) (le_refl _)

theorem Kept.set_mc {m : List Part} {s0 s : State} {y} (h : Kept m s0 s) (hm : Part.mc ∈ m) :
    Kept m s0 (State.mk s.pending s.fresh s.cyc s.mem s.memKey s.memErr s.tags s.resv y s.core s.phys s.int s.rc s.ptn s.ctx s.brn s.prs s.bell s.syl s.keys s.fab s.xf s.led s.lcs s.sec s.cpt s.ses s.mod s.pwr s.subf s.vat s.tst s.snp s.oh s.fuse s.flash s.tap s.i3c) :=
  h.change (w := [.mc]) (fun p hp => by cases p <;> first | rfl | exact absurd (by decide) hp) (fun x hx => by simp at hx; exact hx ▸ hm) rfl id (FusesKept.refl _) (le_refl _)

theorem Kept.set_core {m : List Part} {s0 s : State} {y} (h : Kept m s0 s) (hm : Part.core ∈ m) :
    Kept m s0 (State.mk s.pending s.fresh s.cyc s.mem s.memKey s.memErr s.tags s.resv s.mc y s.phys s.int s.rc s.ptn s.ctx s.brn s.prs s.bell s.syl s.keys s.fab s.xf s.led s.lcs s.sec s.cpt s.ses s.mod s.pwr s.subf s.vat s.tst s.snp s.oh s.fuse s.flash s.tap s.i3c) :=
  h.change (w := [.core]) (fun p hp => by cases p <;> first | rfl | exact absurd (by decide) hp) (fun x hx => by simp at hx; exact hx ▸ hm) rfl id (FusesKept.refl _) (le_refl _)

theorem Kept.set_phys {m : List Part} {s0 s : State} {y} (h : Kept m s0 s) (hm : Part.phys ∈ m) :
    Kept m s0 (State.mk s.pending s.fresh s.cyc s.mem s.memKey s.memErr s.tags s.resv s.mc s.core y s.int s.rc s.ptn s.ctx s.brn s.prs s.bell s.syl s.keys s.fab s.xf s.led s.lcs s.sec s.cpt s.ses s.mod s.pwr s.subf s.vat s.tst s.snp s.oh s.fuse s.flash s.tap s.i3c) :=
  h.change (w := [.phys]) (fun p hp => by cases p <;> first | rfl | exact absurd (by decide) hp) (fun x hx => by simp at hx; exact hx ▸ hm) rfl id (FusesKept.refl _) (le_refl _)

theorem Kept.set_int {m : List Part} {s0 s : State} {y} (h : Kept m s0 s) (hm : Part.int ∈ m) :
    Kept m s0 (State.mk s.pending s.fresh s.cyc s.mem s.memKey s.memErr s.tags s.resv s.mc s.core s.phys y s.rc s.ptn s.ctx s.brn s.prs s.bell s.syl s.keys s.fab s.xf s.led s.lcs s.sec s.cpt s.ses s.mod s.pwr s.subf s.vat s.tst s.snp s.oh s.fuse s.flash s.tap s.i3c) :=
  h.change (w := [.int]) (fun p hp => by cases p <;> first | rfl | exact absurd (by decide) hp) (fun x hx => by simp at hx; exact hx ▸ hm) rfl id (FusesKept.refl _) (le_refl _)

theorem Kept.set_rc {m : List Part} {s0 s : State} {y} (h : Kept m s0 s) (hm : Part.rc ∈ m) :
    Kept m s0 (State.mk s.pending s.fresh s.cyc s.mem s.memKey s.memErr s.tags s.resv s.mc s.core s.phys s.int y s.ptn s.ctx s.brn s.prs s.bell s.syl s.keys s.fab s.xf s.led s.lcs s.sec s.cpt s.ses s.mod s.pwr s.subf s.vat s.tst s.snp s.oh s.fuse s.flash s.tap s.i3c) :=
  h.change (w := [.rc]) (fun p hp => by cases p <;> first | rfl | exact absurd (by decide) hp) (fun x hx => by simp at hx; exact hx ▸ hm) rfl id (FusesKept.refl _) (le_refl _)

theorem Kept.set_ptn {m : List Part} {s0 s : State} {y} (h : Kept m s0 s) (hm : Part.ptn ∈ m) :
    Kept m s0 (State.mk s.pending s.fresh s.cyc s.mem s.memKey s.memErr s.tags s.resv s.mc s.core s.phys s.int s.rc y s.ctx s.brn s.prs s.bell s.syl s.keys s.fab s.xf s.led s.lcs s.sec s.cpt s.ses s.mod s.pwr s.subf s.vat s.tst s.snp s.oh s.fuse s.flash s.tap s.i3c) :=
  h.change (w := [.ptn]) (fun p hp => by cases p <;> first | rfl | exact absurd (by decide) hp) (fun x hx => by simp at hx; exact hx ▸ hm) rfl id (FusesKept.refl _) (le_refl _)

theorem Kept.set_ctx {m : List Part} {s0 s : State} {y} (h : Kept m s0 s) (hm : Part.ctx ∈ m) :
    Kept m s0 (State.mk s.pending s.fresh s.cyc s.mem s.memKey s.memErr s.tags s.resv s.mc s.core s.phys s.int s.rc s.ptn y s.brn s.prs s.bell s.syl s.keys s.fab s.xf s.led s.lcs s.sec s.cpt s.ses s.mod s.pwr s.subf s.vat s.tst s.snp s.oh s.fuse s.flash s.tap s.i3c) :=
  h.change (w := [.ctx]) (fun p hp => by cases p <;> first | rfl | exact absurd (by decide) hp) (fun x hx => by simp at hx; exact hx ▸ hm) rfl id (FusesKept.refl _) (le_refl _)

theorem Kept.set_brn {m : List Part} {s0 s : State} {y} (h : Kept m s0 s) (hm : Part.brn ∈ m) :
    Kept m s0 (State.mk s.pending s.fresh s.cyc s.mem s.memKey s.memErr s.tags s.resv s.mc s.core s.phys s.int s.rc s.ptn s.ctx y s.prs s.bell s.syl s.keys s.fab s.xf s.led s.lcs s.sec s.cpt s.ses s.mod s.pwr s.subf s.vat s.tst s.snp s.oh s.fuse s.flash s.tap s.i3c) :=
  h.change (w := [.brn]) (fun p hp => by cases p <;> first | rfl | exact absurd (by decide) hp) (fun x hx => by simp at hx; exact hx ▸ hm) rfl id (FusesKept.refl _) (le_refl _)

theorem Kept.set_prs {m : List Part} {s0 s : State} {y} (h : Kept m s0 s) (hm : Part.prs ∈ m) :
    Kept m s0 (State.mk s.pending s.fresh s.cyc s.mem s.memKey s.memErr s.tags s.resv s.mc s.core s.phys s.int s.rc s.ptn s.ctx s.brn y s.bell s.syl s.keys s.fab s.xf s.led s.lcs s.sec s.cpt s.ses s.mod s.pwr s.subf s.vat s.tst s.snp s.oh s.fuse s.flash s.tap s.i3c) :=
  h.change (w := [.prs]) (fun p hp => by cases p <;> first | rfl | exact absurd (by decide) hp) (fun x hx => by simp at hx; exact hx ▸ hm) rfl id (FusesKept.refl _) (le_refl _)

theorem Kept.set_bell {m : List Part} {s0 s : State} {y} (h : Kept m s0 s) (hm : Part.bell ∈ m) :
    Kept m s0 (State.mk s.pending s.fresh s.cyc s.mem s.memKey s.memErr s.tags s.resv s.mc s.core s.phys s.int s.rc s.ptn s.ctx s.brn s.prs y s.syl s.keys s.fab s.xf s.led s.lcs s.sec s.cpt s.ses s.mod s.pwr s.subf s.vat s.tst s.snp s.oh s.fuse s.flash s.tap s.i3c) :=
  h.change (w := [.bell]) (fun p hp => by cases p <;> first | rfl | exact absurd (by decide) hp) (fun x hx => by simp at hx; exact hx ▸ hm) rfl id (FusesKept.refl _) (le_refl _)

theorem Kept.set_syl {m : List Part} {s0 s : State} {y} (h : Kept m s0 s) (hm : Part.syl ∈ m) :
    Kept m s0 (State.mk s.pending s.fresh s.cyc s.mem s.memKey s.memErr s.tags s.resv s.mc s.core s.phys s.int s.rc s.ptn s.ctx s.brn s.prs s.bell y s.keys s.fab s.xf s.led s.lcs s.sec s.cpt s.ses s.mod s.pwr s.subf s.vat s.tst s.snp s.oh s.fuse s.flash s.tap s.i3c) :=
  h.change (w := [.syl]) (fun p hp => by cases p <;> first | rfl | exact absurd (by decide) hp) (fun x hx => by simp at hx; exact hx ▸ hm) rfl id (FusesKept.refl _) (le_refl _)

theorem Kept.set_keys {m : List Part} {s0 s : State} {y} (h : Kept m s0 s) (hm : Part.keys ∈ m) :
    Kept m s0 (State.mk s.pending s.fresh s.cyc s.mem s.memKey s.memErr s.tags s.resv s.mc s.core s.phys s.int s.rc s.ptn s.ctx s.brn s.prs s.bell s.syl y s.fab s.xf s.led s.lcs s.sec s.cpt s.ses s.mod s.pwr s.subf s.vat s.tst s.snp s.oh s.fuse s.flash s.tap s.i3c) :=
  h.change (w := [.keys]) (fun p hp => by cases p <;> first | rfl | exact absurd (by decide) hp) (fun x hx => by simp at hx; exact hx ▸ hm) rfl id (FusesKept.refl _) (le_refl _)

theorem Kept.set_fab {m : List Part} {s0 s : State} {y} (h : Kept m s0 s) (hm : Part.fab ∈ m) :
    Kept m s0 (State.mk s.pending s.fresh s.cyc s.mem s.memKey s.memErr s.tags s.resv s.mc s.core s.phys s.int s.rc s.ptn s.ctx s.brn s.prs s.bell s.syl s.keys y s.xf s.led s.lcs s.sec s.cpt s.ses s.mod s.pwr s.subf s.vat s.tst s.snp s.oh s.fuse s.flash s.tap s.i3c) :=
  h.change (w := [.fab]) (fun p hp => by cases p <;> first | rfl | exact absurd (by decide) hp) (fun x hx => by simp at hx; exact hx ▸ hm) rfl id (FusesKept.refl _) (le_refl _)

theorem Kept.set_xf {m : List Part} {s0 s : State} {y} (h : Kept m s0 s) (hm : Part.xf ∈ m) :
    Kept m s0 (State.mk s.pending s.fresh s.cyc s.mem s.memKey s.memErr s.tags s.resv s.mc s.core s.phys s.int s.rc s.ptn s.ctx s.brn s.prs s.bell s.syl s.keys s.fab y s.led s.lcs s.sec s.cpt s.ses s.mod s.pwr s.subf s.vat s.tst s.snp s.oh s.fuse s.flash s.tap s.i3c) :=
  h.change (w := [.xf]) (fun p hp => by cases p <;> first | rfl | exact absurd (by decide) hp) (fun x hx => by simp at hx; exact hx ▸ hm) rfl id (FusesKept.refl _) (le_refl _)

theorem Kept.set_lcs {m : List Part} {s0 s : State} {y} (h : Kept m s0 s) (hm : Part.lcs ∈ m) :
    Kept m s0 (State.mk s.pending s.fresh s.cyc s.mem s.memKey s.memErr s.tags s.resv s.mc s.core s.phys s.int s.rc s.ptn s.ctx s.brn s.prs s.bell s.syl s.keys s.fab s.xf s.led y s.sec s.cpt s.ses s.mod s.pwr s.subf s.vat s.tst s.snp s.oh s.fuse s.flash s.tap s.i3c) :=
  h.change (w := [.lcs]) (fun p hp => by cases p <;> first | rfl | exact absurd (by decide) hp) (fun x hx => by simp at hx; exact hx ▸ hm) rfl id (FusesKept.refl _) (le_refl _)

theorem Kept.set_sec {m : List Part} {s0 s : State} {y} (h : Kept m s0 s) (hm : Part.sec ∈ m) :
    Kept m s0 (State.mk s.pending s.fresh s.cyc s.mem s.memKey s.memErr s.tags s.resv s.mc s.core s.phys s.int s.rc s.ptn s.ctx s.brn s.prs s.bell s.syl s.keys s.fab s.xf s.led s.lcs y s.cpt s.ses s.mod s.pwr s.subf s.vat s.tst s.snp s.oh s.fuse s.flash s.tap s.i3c) :=
  h.change (w := [.sec]) (fun p hp => by cases p <;> first | rfl | exact absurd (by decide) hp) (fun x hx => by simp at hx; exact hx ▸ hm) rfl id (FusesKept.refl _) (le_refl _)

theorem Kept.set_cpt {m : List Part} {s0 s : State} {y} (h : Kept m s0 s) (hm : Part.cpt ∈ m) :
    Kept m s0 (State.mk s.pending s.fresh s.cyc s.mem s.memKey s.memErr s.tags s.resv s.mc s.core s.phys s.int s.rc s.ptn s.ctx s.brn s.prs s.bell s.syl s.keys s.fab s.xf s.led s.lcs s.sec y s.ses s.mod s.pwr s.subf s.vat s.tst s.snp s.oh s.fuse s.flash s.tap s.i3c) :=
  h.change (w := [.cpt]) (fun p hp => by cases p <;> first | rfl | exact absurd (by decide) hp) (fun x hx => by simp at hx; exact hx ▸ hm) rfl id (FusesKept.refl _) (le_refl _)

theorem Kept.set_ses {m : List Part} {s0 s : State} {y} (h : Kept m s0 s) (hm : Part.ses ∈ m) :
    Kept m s0 (State.mk s.pending s.fresh s.cyc s.mem s.memKey s.memErr s.tags s.resv s.mc s.core s.phys s.int s.rc s.ptn s.ctx s.brn s.prs s.bell s.syl s.keys s.fab s.xf s.led s.lcs s.sec s.cpt y s.mod s.pwr s.subf s.vat s.tst s.snp s.oh s.fuse s.flash s.tap s.i3c) :=
  h.change (w := [.ses]) (fun p hp => by cases p <;> first | rfl | exact absurd (by decide) hp) (fun x hx => by simp at hx; exact hx ▸ hm) rfl id (FusesKept.refl _) (le_refl _)

theorem Kept.set_mod {m : List Part} {s0 s : State} {y} (h : Kept m s0 s) (hm : Part.mod ∈ m) :
    Kept m s0 (State.mk s.pending s.fresh s.cyc s.mem s.memKey s.memErr s.tags s.resv s.mc s.core s.phys s.int s.rc s.ptn s.ctx s.brn s.prs s.bell s.syl s.keys s.fab s.xf s.led s.lcs s.sec s.cpt s.ses y s.pwr s.subf s.vat s.tst s.snp s.oh s.fuse s.flash s.tap s.i3c) :=
  h.change (w := [.mod]) (fun p hp => by cases p <;> first | rfl | exact absurd (by decide) hp) (fun x hx => by simp at hx; exact hx ▸ hm) rfl id (FusesKept.refl _) (le_refl _)

theorem Kept.set_pwr {m : List Part} {s0 s : State} {y} (h : Kept m s0 s) (hm : Part.pwr ∈ m) :
    Kept m s0 (State.mk s.pending s.fresh s.cyc s.mem s.memKey s.memErr s.tags s.resv s.mc s.core s.phys s.int s.rc s.ptn s.ctx s.brn s.prs s.bell s.syl s.keys s.fab s.xf s.led s.lcs s.sec s.cpt s.ses s.mod y s.subf s.vat s.tst s.snp s.oh s.fuse s.flash s.tap s.i3c) :=
  h.change (w := [.pwr]) (fun p hp => by cases p <;> first | rfl | exact absurd (by decide) hp) (fun x hx => by simp at hx; exact hx ▸ hm) rfl id (FusesKept.refl _) (le_refl _)

theorem Kept.set_subf {m : List Part} {s0 s : State} {y} (h : Kept m s0 s) (hm : Part.subf ∈ m) :
    Kept m s0 (State.mk s.pending s.fresh s.cyc s.mem s.memKey s.memErr s.tags s.resv s.mc s.core s.phys s.int s.rc s.ptn s.ctx s.brn s.prs s.bell s.syl s.keys s.fab s.xf s.led s.lcs s.sec s.cpt s.ses s.mod s.pwr y s.vat s.tst s.snp s.oh s.fuse s.flash s.tap s.i3c) :=
  h.change (w := [.subf]) (fun p hp => by cases p <;> first | rfl | exact absurd (by decide) hp) (fun x hx => by simp at hx; exact hx ▸ hm) rfl id (FusesKept.refl _) (le_refl _)

theorem Kept.set_vat {m : List Part} {s0 s : State} {y} (h : Kept m s0 s) (hm : Part.vat ∈ m) :
    Kept m s0 (State.mk s.pending s.fresh s.cyc s.mem s.memKey s.memErr s.tags s.resv s.mc s.core s.phys s.int s.rc s.ptn s.ctx s.brn s.prs s.bell s.syl s.keys s.fab s.xf s.led s.lcs s.sec s.cpt s.ses s.mod s.pwr s.subf y s.tst s.snp s.oh s.fuse s.flash s.tap s.i3c) :=
  h.change (w := [.vat]) (fun p hp => by cases p <;> first | rfl | exact absurd (by decide) hp) (fun x hx => by simp at hx; exact hx ▸ hm) rfl id (FusesKept.refl _) (le_refl _)

theorem Kept.set_tst {m : List Part} {s0 s : State} {y} (h : Kept m s0 s) (hm : Part.tst ∈ m) :
    Kept m s0 (State.mk s.pending s.fresh s.cyc s.mem s.memKey s.memErr s.tags s.resv s.mc s.core s.phys s.int s.rc s.ptn s.ctx s.brn s.prs s.bell s.syl s.keys s.fab s.xf s.led s.lcs s.sec s.cpt s.ses s.mod s.pwr s.subf s.vat y s.snp s.oh s.fuse s.flash s.tap s.i3c) :=
  h.change (w := [.tst]) (fun p hp => by cases p <;> first | rfl | exact absurd (by decide) hp) (fun x hx => by simp at hx; exact hx ▸ hm) rfl id (FusesKept.refl _) (le_refl _)

theorem Kept.set_snp {m : List Part} {s0 s : State} {y} (h : Kept m s0 s) (hm : Part.snp ∈ m) :
    Kept m s0 (State.mk s.pending s.fresh s.cyc s.mem s.memKey s.memErr s.tags s.resv s.mc s.core s.phys s.int s.rc s.ptn s.ctx s.brn s.prs s.bell s.syl s.keys s.fab s.xf s.led s.lcs s.sec s.cpt s.ses s.mod s.pwr s.subf s.vat s.tst y s.oh s.fuse s.flash s.tap s.i3c) :=
  h.change (w := [.snp]) (fun p hp => by cases p <;> first | rfl | exact absurd (by decide) hp) (fun x hx => by simp at hx; exact hx ▸ hm) rfl id (FusesKept.refl _) (le_refl _)

theorem Kept.set_oh {m : List Part} {s0 s : State} {y} (h : Kept m s0 s) (hm : Part.oh ∈ m) :
    Kept m s0 (State.mk s.pending s.fresh s.cyc s.mem s.memKey s.memErr s.tags s.resv s.mc s.core s.phys s.int s.rc s.ptn s.ctx s.brn s.prs s.bell s.syl s.keys s.fab s.xf s.led s.lcs s.sec s.cpt s.ses s.mod s.pwr s.subf s.vat s.tst s.snp y s.fuse s.flash s.tap s.i3c) :=
  h.change (w := [.oh]) (fun p hp => by cases p <;> first | rfl | exact absurd (by decide) hp) (fun x hx => by simp at hx; exact hx ▸ hm) rfl id (FusesKept.refl _) (le_refl _)

theorem Kept.set_flash {m : List Part} {s0 s : State} {y} (h : Kept m s0 s) (hm : Part.flash ∈ m) :
    Kept m s0 (State.mk s.pending s.fresh s.cyc s.mem s.memKey s.memErr s.tags s.resv s.mc s.core s.phys s.int s.rc s.ptn s.ctx s.brn s.prs s.bell s.syl s.keys s.fab s.xf s.led s.lcs s.sec s.cpt s.ses s.mod s.pwr s.subf s.vat s.tst s.snp s.oh s.fuse y s.tap s.i3c) :=
  h.change (w := [.flash]) (fun p hp => by cases p <;> first | rfl | exact absurd (by decide) hp) (fun x hx => by simp at hx; exact hx ▸ hm) rfl id (FusesKept.refl _) (le_refl _)

theorem Kept.set_tap {m : List Part} {s0 s : State} {y} (h : Kept m s0 s) (hm : Part.tap ∈ m) :
    Kept m s0 (State.mk s.pending s.fresh s.cyc s.mem s.memKey s.memErr s.tags s.resv s.mc s.core s.phys s.int s.rc s.ptn s.ctx s.brn s.prs s.bell s.syl s.keys s.fab s.xf s.led s.lcs s.sec s.cpt s.ses s.mod s.pwr s.subf s.vat s.tst s.snp s.oh s.fuse s.flash y s.i3c) :=
  h.change (w := [.tap]) (fun p hp => by cases p <;> first | rfl | exact absurd (by decide) hp) (fun x hx => by simp at hx; exact hx ▸ hm) rfl id (FusesKept.refl _) (le_refl _)

theorem Kept.set_i3c {m : List Part} {s0 s : State} {y} (h : Kept m s0 s) (hm : Part.i3c ∈ m) :
    Kept m s0 (State.mk s.pending s.fresh s.cyc s.mem s.memKey s.memErr s.tags s.resv s.mc s.core s.phys s.int s.rc s.ptn s.ctx s.brn s.prs s.bell s.syl s.keys s.fab s.xf s.led s.lcs s.sec s.cpt s.ses s.mod s.pwr s.subf s.vat s.tst s.snp s.oh s.fuse s.flash s.tap y) :=
  h.change (w := [.i3c]) (fun p hp => by cases p <;> first | rfl | exact absurd (by decide) hp) (fun x hx => by simp at hx; exact hx ▸ hm) rfl id (FusesKept.refl _) (le_refl _)

theorem Kept.set_led {m : List Part} {s0 s : State} {y} (e : y.seq = s.led.seq) (h : Kept m s0 s) (hm : Part.led ∈ m) :
    Kept m s0 (State.mk s.pending s.fresh s.cyc s.mem s.memKey s.memErr s.tags s.resv s.mc s.core s.phys s.int s.rc s.ptn s.ctx s.brn s.prs s.bell s.syl s.keys s.fab s.xf y s.lcs s.sec s.cpt s.ses s.mod s.pwr s.subf s.vat s.tst s.snp s.oh s.fuse s.flash s.tap s.i3c) :=
  h.change (w := [.led]) (fun p hp => by cases p <;> first | rfl | exact absurd (by decide) hp) (fun x hx => by simp at hx; exact hx ▸ hm) rfl id (FusesKept.refl _) (le_of_eq e.symm)

/-- A change of several parts. -/
theorem Kept.upd {m w : List Part} {s0 s : State} {y_fresh y_cyc y_memKey y_memErr y_tags y_resv y_mc y_core y_phys y_int y_rc y_ptn y_ctx y_brn y_prs y_bell y_syl y_keys y_fab y_xf y_lcs y_sec y_cpt y_ses y_mod y_pwr y_subf y_vat y_tst y_snp y_oh y_flash y_tap y_i3c} (h : Kept m s0 s) (sub : Within w m)
    (d : restore w s (State.mk s.pending y_fresh y_cyc s.mem y_memKey y_memErr y_tags y_resv y_mc y_core y_phys y_int y_rc y_ptn y_ctx y_brn y_prs y_bell y_syl y_keys y_fab y_xf s.led y_lcs y_sec y_cpt y_ses y_mod y_pwr y_subf y_vat y_tst y_snp y_oh s.fuse y_flash y_tap y_i3c) = (State.mk s.pending y_fresh y_cyc s.mem y_memKey y_memErr y_tags y_resv y_mc y_core y_phys y_int y_rc y_ptn y_ctx y_brn y_prs y_bell y_syl y_keys y_fab y_xf s.led y_lcs y_sec y_cpt y_ses y_mod y_pwr y_subf y_vat y_tst y_snp y_oh s.fuse y_flash y_tap y_i3c)) :
    Kept m s0 (State.mk s.pending y_fresh y_cyc s.mem y_memKey y_memErr y_tags y_resv y_mc y_core y_phys y_int y_rc y_ptn y_ctx y_brn y_prs y_bell y_syl y_keys y_fab y_xf s.led y_lcs y_sec y_cpt y_ses y_mod y_pwr y_subf y_vat y_tst y_snp y_oh s.fuse y_flash y_tap y_i3c) :=
  h.change (samePart_of_restore d) sub rfl id (FusesKept.refl _) (le_refl _)

/-- A change of several parts, the Ledger among them, that keeps SEQ. -/
theorem Kept.updLed {m w : List Part} {s0 s : State} {y_fresh y_cyc y_memKey y_memErr y_tags y_resv y_mc y_core y_phys y_int y_rc y_ptn y_ctx y_brn y_prs y_bell y_syl y_keys y_fab y_xf y_led y_lcs y_sec y_cpt y_ses y_mod y_pwr y_subf y_vat y_tst y_snp y_oh y_flash y_tap y_i3c} (h : Kept m s0 s) (sub : Within w m)
    (e : y_led.seq = s.led.seq) (d : restore w s (State.mk s.pending y_fresh y_cyc s.mem y_memKey y_memErr y_tags y_resv y_mc y_core y_phys y_int y_rc y_ptn y_ctx y_brn y_prs y_bell y_syl y_keys y_fab y_xf y_led y_lcs y_sec y_cpt y_ses y_mod y_pwr y_subf y_vat y_tst y_snp y_oh s.fuse y_flash y_tap y_i3c) = (State.mk s.pending y_fresh y_cyc s.mem y_memKey y_memErr y_tags y_resv y_mc y_core y_phys y_int y_rc y_ptn y_ctx y_brn y_prs y_bell y_syl y_keys y_fab y_xf y_led y_lcs y_sec y_cpt y_ses y_mod y_pwr y_subf y_vat y_tst y_snp y_oh s.fuse y_flash y_tap y_i3c)) :
    Kept m s0 (State.mk s.pending y_fresh y_cyc s.mem y_memKey y_memErr y_tags y_resv y_mc y_core y_phys y_int y_rc y_ptn y_ctx y_brn y_prs y_bell y_syl y_keys y_fab y_xf y_led y_lcs y_sec y_cpt y_ses y_mod y_pwr y_subf y_vat y_tst y_snp y_oh s.fuse y_flash y_tap y_i3c) :=
  h.change (samePart_of_restore d) sub rfl id (FusesKept.refl _) (le_of_eq e.symm)

variable {M : List Part}

theorem Kept.of_fst {α : Type} {s0 t : State} {x : State × α} {r : α} (e : x = (t, r)) (h : Kept M s0 x.1) : Kept M s0 t := by
  rw [e] at h; exact h

theorem Kept.of_snd {α : Type} {s0 t : State} {x : α × State} {r : α} (e : x = (r, t)) (h : Kept M s0 x.2) : Kept M s0 t := by
  rw [e] at h; exact h

theorem getD_kept {s0 d : State} {o : Option State} (h : ∀ t, o = some t → Kept M s0 t) (hd : Kept M s0 d) : Kept M s0 (o.getD d) := by
  cases o with
  | none => exact hd
  | some t => exact h t rfl

theorem forEach_kept {α : Type} {s0 s : State} {xs : List α} {f : State → α → State} (h : Kept M s0 s)
    (hf : ∀ s x, Kept M s0 s → Kept M s0 (f s x)) : Kept M s0 (forEach xs f s) := by
  unfold forEach
  induction xs generalizing s with
  | nil => exact h
  | cons x xs ih => exact ih (hf s x h)

theorem foldl_kept {α β : Type} {s0 : State} {xs : List α} {f : State × β → α → State × β} {a : State × β} (h : Kept M s0 a.1)
    (hf : ∀ a x, Kept M s0 a.1 → Kept M s0 (f a x).1) : Kept M s0 (xs.foldl f a).1 := by
  induction xs generalizing a with
  | nil => exact h
  | cons x xs ih => exact ih (hf a x h)

theorem foldl_state_kept {α : Type} {s0 : State} {xs : List α} {f : State → α → State} {a : State} (h : Kept M s0 a)
    (hf : ∀ a x, Kept M s0 a → Kept M s0 (f a x)) : Kept M s0 (xs.foldl f a) := by
  induction xs generalizing a with
  | nil => exact h
  | cons x xs ih => exact ih (hf a x h)

/-- An access or its trap. -/
def KeptR (M : List Part) {α : Type} (s0 : State) : Except State (State × α) → Prop
  | .ok r => Kept M s0 r.1
  | .error t => Kept M s0 t

/-- A write or its trap. -/
def KeptS (M : List Part) (s0 : State) : Except State State → Prop
  | .ok t => Kept M s0 t
  | .error t => Kept M s0 t

theorem KeptR.ok {α : Type} {s0 t : State} {x : Except State (State × α)} {r : α} (h : KeptR M s0 x) (e : x = .ok (t, r)) :
    Kept M s0 t := by rw [e] at h; exact h

theorem KeptR.error {α : Type} {s0 t : State} {x : Except State (State × α)} (h : KeptR M s0 x) (e : x = .error t) : Kept M s0 t := by
  rw [e] at h; exact h

theorem KeptS.ok {s0 t : State} {x : Except State State} (h : KeptS M s0 x) (e : x = .ok t) : Kept M s0 t := by rw [e] at h; exact h

theorem KeptS.error {s0 t : State} {x : Except State State} (h : KeptS M s0 x) (e : x = .error t) : Kept M s0 t := by
  rw [e] at h; exact h

theorem KeptR.bindS {α : Type} {s0 : State} {x : Except State (State × α)} {f : State × α → Except State State} (h : KeptR M s0 x)
    (hf : ∀ r, Kept M s0 r.1 → KeptS M s0 (f r)) : KeptS M s0 (x >>= f) := by
  cases x with
  | ok r => exact hf r h
  | error t => exact h

theorem KeptR.bindR {α β : Type} {s0 : State} {x : Except State (State × α)} {f : State × α → Except State (State × β)}
    (h : KeptR M s0 x) (hf : ∀ r, Kept M s0 r.1 → KeptR M s0 (f r)) : KeptR M s0 (x >>= f) := by
  cases x with
  | ok r => exact hf r h
  | error t => exact h

theorem KeptS.bindS {s0 : State} {x : Except State State} {f : State → Except State State} (h : KeptS M s0 x)
    (hf : ∀ r, Kept M s0 r → KeptS M s0 (f r)) : KeptS M s0 (x >>= f) := by
  cases x with
  | ok r => exact hf r h
  | error t => exact h

end Sys2Proof.Machine
end

