-- ==== Sys2Proof/Laws/KeptOps.lean ====
section
/-! SUPPORT. What no operation of the module does (Kept, Laws/Kept.lean), one lemma for each function that changes the state:
the shared operations, threads, contexts, partitions and the Roll call. -/

namespace Sys2Proof.Machine

set_option Elab.async false

variable {M : List Part}

/-! ### Ops -/

theorem modPtn_kept {kS s : State} {p : Nat} {f : Ptn → Ptn} (kH : Kept M kS s)
    (kM : Within [.ptn] M := by exact Part.sub (by assumption) (by rfl)) :
    Kept M kS (modPtn s p f) := by
  unfold modPtn
  repeat' first
    | with_reducible first
      | assumption | refine Part.sub kM ?_
    | intro _ | dsimp only | (show Part.subb _ _ = _; rfl) | (show Membership.mem (γ := List Part) _ _; decide)
    | with_reducible first
      | refine Kept.set_ptn ?_ (kM.mem ?_)

theorem modTt_kept {kS s : State} {p : Nat} {f : Tt → Tt} (kH : Kept M kS s)
    (kM : Within [.ptn] M := by exact Part.sub (by assumption) (by rfl)) :
    Kept M kS (modTt s p f) := by
  unfold modTt
  repeat' first
    | with_reducible first
      | assumption | apply modPtn_kept | refine Part.sub kM ?_
    | intro _ | dsimp only | (show Part.subb _ _ = _; rfl)

theorem modCtx_kept {kS s : State} {c : Nat} {f : Ctx → Ctx} (kH : Kept M kS s)
    (kM : Within [.ctx] M := by exact Part.sub (by assumption) (by rfl)) :
    Kept M kS (modCtx s c f) := by
  unfold modCtx
  repeat' first
    | with_reducible first
      | assumption | refine Part.sub kM ?_
    | intro _ | dsimp only | (show Part.subb _ _ = _; rfl) | (show Membership.mem (γ := List Part) _ _; decide)
    | with_reducible first
      | refine Kept.set_ctx ?_ (kM.mem ?_)

theorem modCore_kept {kS s : State} {n : Nat} {f : Core → Core} (kH : Kept M kS s)
    (kM : Within [.core] M := by exact Part.sub (by assumption) (by rfl)) :
    Kept M kS (modCore s n f) := by
  unfold modCore
  repeat' first
    | with_reducible first
      | assumption | refine Part.sub kM ?_
    | intro _ | dsimp only | (show Part.subb _ _ = _; rfl) | (show Membership.mem (γ := List Part) _ _; decide)
    | with_reducible first
      | refine Kept.set_core ?_ (kM.mem ?_)

theorem modThr_kept {kS s : State} {n t : Nat} {f : Thr → Thr} (kH : Kept M kS s)
    (kM : Within [.core] M := by exact Part.sub (by assumption) (by rfl)) :
    Kept M kS (modThr s n t f) := by
  unfold modThr
  repeat' first
    | with_reducible first
      | assumption | apply modCore_kept | refine Part.sub kM ?_
    | intro _ | dsimp only | (show Part.subb _ _ = _; rfl)

theorem modSem_kept {kS s : State} {i : Nat} {f : Sem → Sem} (kH : Kept M kS s)
    (kM : Within [.rc] M := by exact Part.sub (by assumption) (by rfl)) :
    Kept M kS (modSem s i f) := by
  unfold modSem
  repeat' first
    | with_reducible first
      | assumption | refine Part.sub kM ?_
    | intro _ | dsimp only | (show Part.subb _ _ = _; rfl) | (show Membership.mem (γ := List Part) _ _; decide)
    | with_reducible first
      | refine Kept.set_rc ?_ (kM.mem ?_)

theorem modBar_kept {kS s : State} {i : Nat} {f : Bar → Bar} (kH : Kept M kS s)
    (kM : Within [.rc] M := by exact Part.sub (by assumption) (by rfl)) :
    Kept M kS (modBar s i f) := by
  unfold modBar
  repeat' first
    | with_reducible first
      | assumption | refine Part.sub kM ?_
    | intro _ | dsimp only | (show Part.subb _ _ = _; rfl) | (show Membership.mem (γ := List Part) _ _; decide)
    | with_reducible first
      | refine Kept.set_rc ?_ (kM.mem ?_)

theorem modPool_kept {kS s : State} {i : Nat} {f : Pool → Pool} (kH : Kept M kS s)
    (kM : Within [.rc] M := by exact Part.sub (by assumption) (by rfl)) :
    Kept M kS (modPool s i f) := by
  unfold modPool
  repeat' first
    | with_reducible first
      | assumption | refine Part.sub kM ?_
    | intro _ | dsimp only | (show Part.subb _ _ = _; rfl) | (show Membership.mem (γ := List Part) _ _; decide)
    | with_reducible first
      | refine Kept.set_rc ?_ (kM.mem ?_)

theorem modBuf_kept {kS s : State} {i : Nat} {f : Landing → Landing} (kH : Kept M kS s)
    (kM : Within [.rc] M := by exact Part.sub (by assumption) (by rfl)) :
    Kept M kS (modBuf s i f) := by
  unfold modBuf
  repeat' first
    | with_reducible first
      | assumption | refine Part.sub kM ?_
    | intro _ | dsimp only | (show Part.subb _ _ = _; rfl) | (show Membership.mem (γ := List Part) _ _; decide)
    | with_reducible first
      | refine Kept.set_rc ?_ (kM.mem ?_)

theorem modPhys_kept {kS s : State} {p : Nat} {f : Phys → Phys} (kH : Kept M kS s)
    (kM : Within [.phys] M := by exact Part.sub (by assumption) (by rfl)) :
    Kept M kS (modPhys s p f) := by
  unfold modPhys
  repeat' first
    | with_reducible first
      | assumption | refine Part.sub kM ?_
    | split | intro _ | dsimp only | (show Part.subb _ _ = _; rfl) | (show Membership.mem (γ := List Part) _ _; decide)
    | with_reducible first
      | refine Kept.set_phys ?_ (kM.mem ?_)

theorem dropResv_kept {kS s : State} {n t : Nat} (kH : Kept M kS s)
    (kM : Within [.resv] M := by exact Part.sub (by assumption) (by rfl)) :
    Kept M kS (dropResv s n t) := by
  unfold dropResv
  repeat' first
    | with_reducible first
      | assumption | refine Part.sub kM ?_
    | intro _ | dsimp only | (show Part.subb _ _ = _; rfl) | (show Membership.mem (γ := List Part) _ _; decide)
    | with_reducible first
      | refine Kept.set_resv ?_ (kM.mem ?_)

theorem draw_kept {s0 s : State} {k : Nat} (h : Kept M s0 s)
    (kM : Within [.fresh] M := by exact Part.sub (by assumption) (by rfl)) :
    Kept M s0 (draw s k).2 := Kept.set_fresh h (kM.mem (by decide))

theorem ibi_kept {kS s : State} {b : Nat} (kH : Kept M kS s)
    (kM : Within [.i3c] M := by exact Part.sub (by assumption) (by rfl)) :
    Kept M kS (ibi s b) := by
  unfold ibi
  repeat' first
    | with_reducible first
      | assumption | refine Part.sub kM ?_
    | split | intro _ | dsimp only | (show Part.subb _ _ = _; rfl) | (show Membership.mem (γ := List Part) _ _; decide)
    | with_reducible first
      | refine Kept.set_i3c ?_ (kM.mem ?_)

theorem queueEvent_kept {kS s : State} {kind : Nat} {rec : List Byte} (kH : Kept M kS s)
    (kM : Within [.cpt] M := by exact Part.sub (by assumption) (by rfl)) :
    Kept M kS (queueEvent s kind rec) := by
  unfold queueEvent
  repeat' first
    | with_reducible first
      | assumption | refine Part.sub kM ?_
    | split | intro _ | dsimp only | (show Part.subb _ _ = _; rfl) | (show Membership.mem (γ := List Part) _ _; decide)
    | with_reducible first
      | refine Kept.set_cpt ?_ (kM.mem ?_)

theorem raise_kept {kS s : State} {c : FaultCode} {a : FaultAt} (kH : Kept M kS s)
    (kM : Within [.mc, .int, .ptn, .ctx, .i3c] M := by exact Part.sub (by assumption) (by rfl)) :
    Kept M kS (raise s c a) := by
  unfold raise
  repeat' first
    | with_reducible first
      | assumption | apply ibi_kept | refine Part.sub kM ?_
    | split | intro _ | dsimp only | (show Part.subb _ _ = _; rfl) | (show Membership.mem (γ := List Part) _ _; decide) | (show restore _ _ _ = _; rfl)
    | with_reducible first
      | refine Kept.set_mc ?_ (kM.mem ?_) | refine Kept.set_int ?_ (kM.mem ?_) | refine Kept.set_ptn ?_ (kM.mem ?_)
      | refine Kept.set_ctx ?_ (kM.mem ?_) | refine Kept.upd ?_ kM ?_

theorem journal_kept {s0 s : State} {e : JEntry} (h : Kept M s0 s)
    (kM : Within [.mc, .int, .ptn, .ctx, .led, .lcs, .i3c] M := by exact Part.sub (by assumption) (by rfl)) :
    Kept M s0 (journal s e) := by
  unfold journal
  dsimp only
  have h1 (y : Ledger) (z : LcsBlk) (le : s.led.seq ≤ y.seq) : Kept M s0 { s with led := y, lcs := z } :=
    h.change (w := [.led, .lcs]) (fun p hp => by cases p <;> first | rfl | exact absurd (by decide) hp) (Part.sub kM rfl) rfl id
      (FusesKept.refl _) le
  split
  · exact raise_kept (h1 _ _ (Nat.le_succ _))
  · exact h1 _ s.lcs (Nat.le_succ _)

theorem addConv_kept {kS s : State} {c sat nan : Nat} (kH : Kept M kS s)
    (kM : Within [.ctx] M := by exact Part.sub (by assumption) (by rfl)) :
    Kept M kS (addConv s c sat nan) := by
  unfold addConv
  repeat' first
    | with_reducible first
      | assumption | apply modCtx_kept | refine Part.sub kM ?_
    | intro _ | dsimp only | (show Part.subb _ _ = _; rfl)

theorem store_kept {s0 s : State} {a : Nat} {bs : List Byte} (h : Kept M s0 s)
    (kM : Within [.mem, .memErr, .resv] M := by exact Part.sub (by assumption) (by rfl)) :
    Kept M s0 (store s a bs) :=
  h.change (w := [.mem, .memErr, .resv]) (fun p hp => by cases p <;> first | rfl | exact absurd (by decide) hp)
    (Part.sub kM rfl) rfl (fun x => twf_tsplice x) (FusesKept.refl _) (le_refl _)

theorem fillZero_kept {s0 s : State} {a n : Nat} {key : List Byte} (h : Kept M s0 s)
    (kM : Within [.mem, .memKey, .memErr, .resv] M := by exact Part.sub (by assumption) (by rfl)) :
    Kept M s0 (fillZero s a n key) :=
  h.change (w := [.mem, .memKey, .memErr, .resv]) (fun p hp => by cases p <;> first | rfl | exact absurd (by decide) hp)
    (Part.sub kM rfl) rfl (fun x => twf_filter _ x) (FusesKept.refl _) (le_refl _)

theorem writePart_kept {kS s : State} {key : List Byte} {a : Nat} {bs : List Byte} (kH : Kept M kS s)
    (kM : Within [.mem, .memKey, .memErr, .resv] M := by exact Part.sub (by assumption) (by rfl)) :
    Kept M kS (writePart s key a bs) := by
  unfold writePart
  repeat' first
    | with_reducible first
      | assumption | apply store_kept | refine Part.sub kM ?_
    | split | intro _ | dsimp only | (show Part.subb _ _ = _; rfl) | (show Membership.mem (γ := List Part) _ _; decide)
    | with_reducible first
      | refine Kept.set_memKey ?_ (kM.mem ?_)

theorem writeKey_kept {kS s : State} {key : List Byte} {a : Nat} {bs : List Byte} (kH : Kept M kS s)
    (kM : Within [.mem, .memKey, .memErr, .resv] M := by exact Part.sub (by assumption) (by rfl)) :
    Kept M kS (writeKey s key a bs) := by
  unfold writeKey
  repeat' first
    | with_reducible first
      | assumption | apply forEach_kept | apply writePart_kept | refine Part.sub kM ?_
    | split | intro _ | dsimp only | (show Part.subb _ _ = _; rfl)

theorem readErrs_kept {kS s : State} {p : Place} {n : Nat} {modKey : Bool} (kH : Kept M kS s)
    (kM : Within [.memErr, .mc, .int, .ptn, .ctx, .i3c] M := by exact Part.sub (by assumption) (by rfl)) :
    Kept M kS (readErrs s p n modKey).1 := by
  unfold readErrs
  repeat' first
    | with_reducible first
      | assumption | contradiction | apply forEach_kept | apply raise_kept | refine Kept.of_fst ‹_› ?_
      | refine Kept.of_snd ‹_› ?_ | refine Part.sub kM ?_
    | split | intro _ | dsimp only | (show Part.subb _ _ = _; rfl) | (show Membership.mem (γ := List Part) _ _; decide) | (show restore _ _ _ = _; rfl)
    | with_reducible first
      | refine Kept.set_memErr ?_ (kM.mem ?_) | refine Kept.set_int ?_ (kM.mem ?_) | refine Kept.upd ?_ kM ?_

theorem readAs_kept {s0 s : State} {i : Issuer} {p : Place} {n : Nat} (h : Kept M s0 s)
    (kM : Within [.mem, .memErr, .tags, .resv, .mc, .core, .int, .ptn, .ctx, .i3c] M := by exact Part.sub (by assumption) (by rfl)) :
    Kept M s0 (readAs s i p n).st := by
  unfold readAs
  have h1 : Kept M s0 (readErrs s p n false).1 := readErrs_kept h
  dsimp only
  split
  · split
    · exact h1
    · refine modCore_kept ?_
      apply forEach_kept h1
      intro s x hs
      exact Kept.set_tags (store_kept hs) (kM.mem (by decide))
  · exact h1

theorem writeAs_kept {kS s : State} {i : Issuer} {p : Place} {bs : List Byte} (kH : Kept M kS s)
    (kM : Within [.mem, .memKey, .memErr, .tags, .resv, .mc, .core, .int, .ptn, .ctx, .i3c] M := by exact Part.sub (by assumption) (by rfl)) :
    Kept M kS (writeAs s i p bs) := by
  unfold writeAs
  repeat' first
    | with_reducible first
      | assumption | apply forEach_kept | apply modCore_kept | apply raise_kept | apply store_kept | apply writeKey_kept
      | refine Part.sub kM ?_
    | split | intro _ | dsimp only | (show Part.subb _ _ = _; rfl) | (show Membership.mem (γ := List Part) _ _; decide) | (show restore _ _ _ = _; rfl)
    | with_reducible first
      | refine Kept.set_tags ?_ (kM.mem ?_) | refine Kept.set_ptn ?_ (kM.mem ?_) | refine Kept.set_ctx ?_ (kM.mem ?_)
      | refine Kept.upd ?_ kM ?_

/-! ### Roll -/

theorem syncSend_kept {kS s : State} {port type : Nat} {frame : List Byte} (kH : Kept M kS s)
    (kM : Within [.rc] M := by exact Part.sub (by assumption) (by rfl)) :
    Kept M kS (syncSend s port type frame) := by
  unfold syncSend
  repeat' first
    | with_reducible first
      | assumption | refine Part.sub kM ?_
    | intro _ | dsimp only | (show Part.subb _ _ = _; rfl) | (show Membership.mem (γ := List Part) _ _; decide)
    | with_reducible first
      | refine Kept.set_rc ?_ (kM.mem ?_)

theorem lanesSend_kept {kS s : State} (kH : Kept M kS s) (kM : Within [.rc] M := by exact Part.sub (by assumption) (by rfl)) :
    Kept M kS (lanesSend s) := by
  unfold lanesSend
  repeat' first
    | with_reducible first
      | assumption | apply foldl_kept | apply foldl_state_kept | refine Part.sub kM ?_
    | intro _ | dsimp only | (show Part.subb _ _ = _; rfl) | (show Membership.mem (γ := List Part) _ _; decide)
    | with_reducible first
      | refine Kept.set_rc ?_ (kM.mem ?_)

theorem laneTick_kept {kS s : State} (kH : Kept M kS s) (kM : Within [.rc] M := by exact Part.sub (by assumption) (by rfl)) :
    Kept M kS (laneTick s) := by
  unfold laneTick
  repeat' first
    | with_reducible first
      | assumption | apply lanesSend_kept | refine Part.sub kM ?_
    | split | intro _ | dsimp only | (show Part.subb _ _ = _; rfl)

theorem syncRoute_kept {kS s : State} {type dst body : Nat} (kH : Kept M kS s)
    (kM : Within [.mc, .int, .rc, .ptn, .ctx, .i3c] M := by exact Part.sub (by assumption) (by rfl)) :
    Kept M kS (syncRoute s type dst body) := by
  unfold syncRoute
  repeat' first
    | with_reducible first
      | assumption | contradiction | apply raise_kept | apply syncSend_kept | refine Kept.of_fst ‹_› ?_
      | refine Kept.of_snd ‹_› ?_ | refine Part.sub kM ?_
    | split | intro _ | dsimp only | (show Part.subb _ _ = _; rfl)

theorem wake_kept {kS s : State} {core thr rd : Nat} {v : DWord} (kH : Kept M kS s)
    (kM : Within [.core] M := by exact Part.sub (by assumption) (by rfl)) :
    Kept M kS (wake s core thr rd v) := by
  unfold wake
  repeat' first
    | with_reducible first
      | assumption | apply modThr_kept | refine Part.sub kM ?_
    | split | intro _ | dsimp only | (show Part.subb _ _ = _; rfl)

theorem answer_kept {kS s : State} {t : Token} {status flags value : Nat} (kH : Kept M kS s)
    (kM : Within [.mc, .core, .int, .rc, .ptn, .ctx, .i3c] M := by exact Part.sub (by assumption) (by rfl)) :
    Kept M kS (answer s t status flags value) := by
  unfold answer
  repeat' first
    | with_reducible first
      | assumption | contradiction | apply syncRoute_kept | apply wake_kept | refine Kept.of_fst ‹_› ?_
      | refine Kept.of_snd ‹_› ?_ | refine Part.sub kM ?_
    | split | intro _ | dsimp only | (show Part.subb _ _ = _; rfl)

theorem answerSem_kept {kS s : State} {t : Token} {status : Nat} (kH : Kept M kS s)
    (kM : Within [.mc, .core, .int, .rc, .ptn, .ctx, .i3c] M := by exact Part.sub (by assumption) (by rfl)) :
    Kept M kS (answerSem s t status) := by
  unfold answerSem
  repeat' first
    | with_reducible first
      | assumption | apply answer_kept | refine Part.sub kM ?_
    | intro _ | dsimp only | (show Part.subb _ _ = _; rfl)

theorem answerBar_kept {kS s : State} {t : Token} {status : Nat} (kH : Kept M kS s)
    (kM : Within [.mc, .core, .int, .rc, .ptn, .ctx, .i3c] M := by exact Part.sub (by assumption) (by rfl)) :
    Kept M kS (answerBar s t status) := by
  unfold answerBar
  repeat' first
    | with_reducible first
      | assumption | apply answer_kept | refine Part.sub kM ?_
    | intro _ | dsimp only | (show Part.subb _ _ = _; rfl)

theorem answerOpen_kept {kS s : State} {t : Token} {status : Nat} (kH : Kept M kS s)
    (kM : Within [.mc, .core, .int, .rc, .ptn, .ctx, .i3c] M := by exact Part.sub (by assumption) (by rfl)) :
    Kept M kS (answerOpen s t status) := by
  unfold answerOpen
  repeat' first
    | with_reducible first
      | assumption | apply answer_kept | refine Part.sub kM ?_
    | intro _ | dsimp only | (show Part.subb _ _ = _; rfl)

theorem holdFor_kept {kS s : State} {c i : Nat} {f : Hold → Hold} (kH : Kept M kS s)
    (kM : Within [.ctx] M := by exact Part.sub (by assumption) (by rfl)) :
    Kept M kS (holdFor s c i f) := by
  unfold holdFor
  repeat' first
    | with_reducible first
      | assumption | apply modCtx_kept | refine Part.sub kM ?_
    | intro _ | dsimp only | (show Part.subb _ _ = _; rfl)

theorem unreserve_kept {kS s : State} {t : Token} (kH : Kept M kS s)
    (kM : Within [.ctx] M := by exact Part.sub (by assumption) (by rfl)) :
    Kept M kS (unreserve s t) := by
  unfold unreserve
  repeat' first
    | with_reducible first
      | assumption | apply holdFor_kept | refine Part.sub kM ?_
    | split | intro _ | dsimp only | (show Part.subb _ _ = _; rfl)

theorem endWait_kept {kS s : State} {w : WaitEnt} {status : Nat} (kH : Kept M kS s)
    (kM : Within [.mc, .core, .int, .rc, .ptn, .ctx, .i3c] M := by exact Part.sub (by assumption) (by rfl)) :
    Kept M kS (endWait s w status) := by
  unfold endWait
  repeat' first
    | with_reducible first
      | assumption | apply answerSem_kept | apply answerBar_kept | apply unreserve_kept | refine Part.sub kM ?_
    | split | intro _ | dsimp only | (show Part.subb _ _ = _; rfl) | (show Membership.mem (γ := List Part) _ _; decide)
    | with_reducible first
      | refine Kept.set_rc ?_ (kM.mem ?_)

theorem dropWait_kept {kS s : State} {w : WaitEnt} (kH : Kept M kS s)
    (kM : Within [.rc, .ctx] M := by exact Part.sub (by assumption) (by rfl)) :
    Kept M kS (dropWait s w) := by
  unfold dropWait
  repeat' first
    | with_reducible first
      | assumption | apply unreserve_kept | refine Part.sub kM ?_
    | intro _ | dsimp only | (show Part.subb _ _ = _; rfl) | (show Membership.mem (γ := List Part) _ _; decide)
    | with_reducible first
      | refine Kept.set_rc ?_ (kM.mem ?_)

theorem grant_kept {kS s : State} {w : WaitEnt} (kH : Kept M kS s)
    (kM : Within [.mc, .core, .int, .rc, .ptn, .ctx, .i3c] M := by exact Part.sub (by assumption) (by rfl)) :
    Kept M kS (grant s w) := by
  unfold grant
  repeat' first
    | with_reducible first
      | assumption | apply modCtx_kept | apply modSem_kept | apply answerSem_kept | apply answerBar_kept
      | apply holdFor_kept | apply endWait_kept | refine Part.sub kM ?_
    | split | intro _ | dsimp only | (show Part.subb _ _ = _; rfl) | (show Membership.mem (γ := List Part) _ _; decide)
    | with_reducible first
      | refine Kept.set_rc ?_ (kM.mem ?_)

theorem grantGo_kept {s0 s : State} {n i : Nat} (h : Kept M s0 s)
    (kM : Within [.mc, .core, .int, .rc, .ptn, .ctx, .i3c] M := by exact Part.sub (by assumption) (by rfl)) :
    Kept M s0 (grantGo n s i) := by
  induction n generalizing s with
  | zero => exact h
  | succ n ih =>
    unfold grantGo
    split
    · exact ih (grant_kept h)
    · exact h

theorem grantSem_kept {kS s : State} {i : Nat} (kH : Kept M kS s)
    (kM : Within [.mc, .core, .int, .rc, .ptn, .ctx, .i3c] M := by exact Part.sub (by assumption) (by rfl)) :
    Kept M kS (grantSem s i) := by
  unfold grantSem
  repeat' first
    | with_reducible first
      | assumption | apply grantGo_kept | refine Part.sub kM ?_
    | intro _ | dsimp only | (show Part.subb _ _ = _; rfl)

theorem unblock_kept {kS s : State} {w : WaitEnt} (kH : Kept M kS s)
    (kM : Within [.mc, .core, .int, .rc, .ptn, .ctx, .i3c] M := by exact Part.sub (by assumption) (by rfl)) :
    Kept M kS (unblock s w) := by
  unfold unblock
  repeat' first
    | with_reducible first
      | assumption | apply grantSem_kept | refine Part.sub kM ?_
    | split | intro _ | dsimp only | (show Part.subb _ _ = _; rfl)

theorem dropWaits_kept {kS s : State} {ws : List WaitEnt} (kH : Kept M kS s)
    (kM : Within [.mc, .core, .int, .rc, .ptn, .ctx, .i3c] M := by exact Part.sub (by assumption) (by rfl)) :
    Kept M kS (dropWaits s ws) := by
  unfold dropWaits
  repeat' first
    | with_reducible first
      | assumption | apply forEach_kept | apply dropWait_kept | apply unblock_kept | refine Part.sub kM ?_
    | intro _ | dsimp only | (show Part.subb _ _ = _; rfl)

theorem grantBar_kept {kS s : State} {i : Nat} (kH : Kept M kS s)
    (kM : Within [.mc, .core, .int, .rc, .ptn, .ctx, .i3c] M := by exact Part.sub (by assumption) (by rfl)) :
    Kept M kS (grantBar s i) := by
  unfold grantBar
  repeat' first
    | with_reducible first
      | assumption | apply forEach_kept | apply grant_kept | refine Part.sub kM ?_
    | intro _ | dsimp only | (show Part.subb _ _ = _; rfl)

theorem enterWait_kept {kS s : State} {t : Token} {deadline : Option Nat} (kH : Kept M kS s)
    (kM : Within [.mc, .core, .int, .rc, .ptn, .ctx, .i3c] M := by exact Part.sub (by assumption) (by rfl)) :
    Kept M kS (enterWait s t deadline) := by
  unfold enterWait
  repeat' first
    | with_reducible first
      | assumption | apply answerSem_kept | apply answerBar_kept | apply holdFor_kept | refine Part.sub kM ?_
    | split | intro _ | dsimp only | (show Part.subb _ _ = _; rfl) | (show Membership.mem (γ := List Part) _ _; decide)
    | with_reducible first
      | refine Kept.set_rc ?_ (kM.mem ?_)

theorem judgeSlot_kept {kS s : State} {p : Nat} {y : Timetable} {o : OpenSlot} (kH : Kept M kS s)
    (kM : Within [.ptn] M := by exact Part.sub (by assumption) (by rfl)) :
    Kept M kS (judgeSlot s p y o).1 := by
  unfold judgeSlot
  repeat' first
    | with_reducible first
      | assumption | contradiction | apply modTt_kept | refine Kept.of_fst ‹_› ?_ | refine Kept.of_snd ‹_› ?_
      | refine Part.sub kM ?_
    | split | intro _ | dsimp only | (show Part.subb _ _ = _; rfl)

theorem judgeSlots_kept {kS s : State} {p : Nat} (kH : Kept M kS s)
    (kM : Within [.ptn] M := by exact Part.sub (by assumption) (by rfl)) :
    Kept M kS (judgeSlots s p) := by
  unfold judgeSlots
  repeat' first
    | with_reducible first
      | assumption | contradiction | apply modTt_kept | apply judgeSlot_kept | refine Kept.of_fst ‹_› ?_
      | refine Kept.of_snd ‹_› ?_ | apply foldl_kept | apply foldl_state_kept | refine Part.sub kM ?_
    | split | intro _ | dsimp only | (show Part.subb _ _ = _; rfl)

theorem heldIfDone_kept {kS s : State} {p : Nat} (kH : Kept M kS s)
    (kM : Within [.ptn] M := by exact Part.sub (by assumption) (by rfl)) :
    Kept M kS (heldIfDone s p) := by
  unfold heldIfDone
  repeat' first
    | with_reducible first
      | assumption | contradiction | apply modTt_kept | refine Kept.of_fst ‹_› ?_ | refine Kept.of_snd ‹_› ?_
      | refine Part.sub kM ?_
    | split | intro _ | dsimp only | (show Part.subb _ _ = _; rfl)

theorem slotDone_kept {kS s : State} {i : Nat} (kH : Kept M kS s)
    (kM : Within [.ptn] M := by exact Part.sub (by assumption) (by rfl)) :
    Kept M kS (slotDone s i) := by
  unfold slotDone
  repeat' first
    | with_reducible first
      | assumption | apply judgeSlots_kept | apply heldIfDone_kept | refine Part.sub kM ?_
    | split | intro _ | dsimp only | (show Part.subb _ _ = _; rfl)

theorem addSem_kept {kS s : State} {i k : Nat} (kH : Kept M kS s)
    (kM : Within [.rc, .ptn] M := by exact Part.sub (by assumption) (by rfl)) :
    Kept M kS (addSem s i k) := by
  unfold addSem
  repeat' first
    | with_reducible first
      | assumption | apply modSem_kept | apply slotDone_kept | refine Part.sub kM ?_
    | intro _ | dsimp only | (show Part.subb _ _ = _; rfl)

theorem semOp_kept {kS s : State} {t : Token} {deadline : Option Nat} (kH : Kept M kS s)
    (kM : Within [.mc, .core, .int, .rc, .ptn, .ctx, .i3c] M := by exact Part.sub (by assumption) (by rfl)) :
    Kept M kS (semOp s t deadline) := by
  unfold semOp
  repeat' first
    | with_reducible first
      | assumption | contradiction | apply modSem_kept | apply answerSem_kept | apply answerOpen_kept
      | apply holdFor_kept | apply grantSem_kept | apply enterWait_kept | apply slotDone_kept | apply addSem_kept
      | refine Kept.of_fst ‹_› ?_ | refine Kept.of_snd ‹_› ?_ | refine Part.sub kM ?_
    | split | intro _ | dsimp only | (show Part.subb _ _ = _; rfl)

theorem openReq_kept {kS s : State} {tok : Token} {lmn : Nat} (kH : Kept M kS s)
    (kM : Within [.rc] M := by exact Part.sub (by assumption) (by rfl)) :
    Kept M kS (openReq s tok lmn) := by
  unfold openReq
  repeat' first
    | with_reducible first
      | assumption | refine Part.sub kM ?_
    | split | intro _ | dsimp only | (show Part.subb _ _ = _; rfl) | (show Membership.mem (γ := List Part) _ _; decide)
    | with_reducible first
      | refine Kept.set_rc ?_ (kM.mem ?_)

theorem bankArrive_kept {kS s : State} {lmn sem gen n ptn form : Nat} (kH : Kept M kS s)
    (kM : Within [.mc, .int, .rc, .ptn, .ctx, .i3c] M := by exact Part.sub (by assumption) (by rfl)) :
    Kept M kS (bankArrive s lmn sem gen n ptn form) := by
  unfold bankArrive
  repeat' first
    | with_reducible first
      | assumption | apply syncRoute_kept | apply openReq_kept | refine Part.sub kM ?_
    | intro _ | dsimp only | (show Part.subb _ _ = _; rfl)

theorem barSend_kept {kS s : State} {lmn op sem gen n ptn form : Nat} (kH : Kept M kS s)
    (kM : Within [.mc, .int, .rc, .ptn, .ctx, .i3c] M := by exact Part.sub (by assumption) (by rfl)) :
    Kept M kS (barSend s lmn op sem gen n ptn form).1 := by
  unfold barSend
  repeat' first
    | with_reducible first
      | assumption | apply syncRoute_kept | apply bankArrive_kept | refine Part.sub kM ?_
    | split | intro _ | dsimp only | (show Part.subb _ _ = _; rfl)

theorem completeBar_kept {kS s : State} {i : Nat} (kH : Kept M kS s)
    (kM : Within [.mc, .core, .int, .rc, .ptn, .ctx, .i3c] M := by exact Part.sub (by assumption) (by rfl)) :
    Kept M kS (completeBar s i).1 := by
  unfold completeBar
  repeat' first
    | with_reducible first
      | assumption | apply modBar_kept | apply grantBar_kept | apply barSend_kept | refine Kept.of_fst ‹_› ?_
      | refine Kept.of_snd ‹_› ?_ | apply foldl_kept | apply foldl_state_kept | refine Part.sub kM ?_
    | split | intro _ | dsimp only | (show Part.subb _ _ = _; rfl)

theorem countArrive_kept {kS s : State} {i n : Nat} {child : Option Nat} (kH : Kept M kS s)
    (kM : Within [.mc, .core, .int, .rc, .ptn, .ctx, .i3c] M := by exact Part.sub (by assumption) (by rfl)) :
    Kept M kS (countArrive s i n child).1 := by
  unfold countArrive
  repeat' first
    | with_reducible first
      | assumption | contradiction | apply modBar_kept | apply barSend_kept | apply completeBar_kept
      | refine Kept.of_fst ‹_› ?_ | refine Kept.of_snd ‹_› ?_ | refine Part.sub kM ?_
    | split | intro _ | dsimp only | (show Part.subb _ _ = _; rfl)

theorem barGo_kept {s0 : State}
    (kM : Within [.mc, .core, .int, .rc, .ptn, .ctx, .i3c] M := by exact Part.sub (by assumption) (by rfl)) : ∀ {n : Nat} {s : State}
    {es :
    List BarEvent}, Kept M s0 s → Kept M s0 (barGo n s es)
  | 0, _, _, h => h
  | _ + 1, _, [], h => h
  | _ + 1, _, .arrive _ _ _ _ _ _ :: _, h => by
    unfold barGo
    dsimp only
    split
    · exact barGo_kept (Part.sub kM rfl) (countArrive_kept h)
    · exact barGo_kept (Part.sub kM rfl) h
  | _ + 1, _, .release _ _ _ _ :: _, h => by
    unfold barGo
    dsimp only
    split
    · exact barGo_kept (Part.sub kM rfl) (completeBar_kept h)
    · exact barGo_kept (Part.sub kM rfl) h

theorem barOp_kept {kS s : State} {t : Token} {deadline : Option Nat} (kH : Kept M kS s)
    (kM : Within [.mc, .core, .int, .rc, .ptn, .ctx, .i3c] M := by exact Part.sub (by assumption) (by rfl)) :
    Kept M kS (barOp s t deadline) := by
  unfold barOp
  repeat' first
    | with_reducible first
      | assumption | contradiction | apply answerBar_kept | apply answerOpen_kept | apply enterWait_kept
      | apply countArrive_kept | apply barGo_kept | refine Kept.of_fst ‹_› ?_ | refine Kept.of_snd ‹_› ?_
      | refine Part.sub kM ?_
    | split | intro _ | dsimp only | (show Part.subb _ _ = _; rfl)

theorem bankOp_kept {kS s : State} {t : Token} {deadline : Option Nat} (kH : Kept M kS s)
    (kM : Within [.mc, .core, .int, .rc, .ptn, .ctx, .i3c] M := by exact Part.sub (by assumption) (by rfl)) :
    Kept M kS (bankOp s t deadline) := by
  unfold bankOp
  repeat' first
    | with_reducible first
      | assumption | apply answerOpen_kept | apply semOp_kept | apply barOp_kept | refine Part.sub kM ?_
    | split | intro _ | dsimp only | (show Part.subb _ _ = _; rfl)

theorem engineAdd_kept {kS s : State} {ptn sem : Nat} {flag : DoneFlag} (kH : Kept M kS s)
    (kM : Within [.mc, .core, .int, .rc, .ptn, .ctx, .i3c] M := by exact Part.sub (by assumption) (by rfl)) :
    Kept M kS (engineAdd s ptn sem flag) := by
  unfold engineAdd
  repeat' first
    | with_reducible first
      | assumption | apply modSem_kept | apply raise_kept | apply grantSem_kept | apply addSem_kept
      | refine Part.sub kM ?_
    | split | intro _ | dsimp only | (show Part.subb _ _ = _; rfl)

theorem portAdd_kept {kS s : State} {sem : Nat} (kH : Kept M kS s)
    (kM : Within [.mc, .core, .int, .rc, .ptn, .ctx, .i3c] M := by exact Part.sub (by assumption) (by rfl)) :
    Kept M kS (portAdd s sem) := by
  unfold portAdd
  repeat' first
    | with_reducible first
      | assumption | apply raise_kept | apply grantSem_kept | apply addSem_kept | refine Part.sub kM ?_
    | split | intro _ | dsimp only | (show Part.subb _ _ = _; rfl)

theorem threadAdd_kept {kS s : State} {ptn sem : Nat} (kH : Kept M kS s)
    (kM : Within [.mc, .core, .int, .rc, .ptn, .ctx, .i3c] M := by exact Part.sub (by assumption) (by rfl)) :
    Kept M kS (threadAdd s ptn sem) := by
  unfold threadAdd
  repeat' first
    | with_reducible first
      | assumption | apply raise_kept | apply grantSem_kept | apply addSem_kept | refine Part.sub kM ?_
    | split | intro _ | dsimp only | (show Part.subb _ _ = _; rfl)

theorem eventSem_kept {kS s : State} {p : Nat} (kH : Kept M kS s)
    (kM : Within [.mc, .core, .int, .rc, .ptn, .ctx, .i3c] M := by exact Part.sub (by assumption) (by rfl)) :
    Kept M kS (eventSem s p) := by
  unfold eventSem
  repeat' first
    | with_reducible first
      | assumption | apply threadAdd_kept | refine Part.sub kM ?_
    | split | intro _ | dsimp only | (show Part.subb _ _ = _; rfl)

theorem revokeHolds_kept {kS s : State} {c : Nat} (kH : Kept M kS s)
    (kM : Within [.mc, .core, .int, .rc, .ptn, .ctx, .i3c] M := by exact Part.sub (by assumption) (by rfl)) :
    Kept M kS (revokeHolds s c) := by
  unfold revokeHolds
  repeat' first
    | with_reducible first
      | assumption | apply forEach_kept | apply modCtx_kept | apply modSem_kept | apply grantSem_kept
      | apply dropWaits_kept | apply addSem_kept | refine Part.sub kM ?_
    | split | intro _ | dsimp only | (show Part.subb _ _ = _; rfl) | (show Membership.mem (γ := List Part) _ _; decide)
    | with_reducible first
      | refine Kept.set_rc ?_ (kM.mem ?_)

/-! ### Contexts -/

theorem setPtnState_kept {kS s : State} {p : Nat} {st : PtnState} (kH : Kept M kS s)
    (kM : Within [.mc, .core, .int, .rc, .ptn, .ctx, .i3c] M := by exact Part.sub (by assumption) (by rfl)) :
    Kept M kS (setPtnState s p st) := by
  unfold setPtnState
  repeat' first
    | with_reducible first
      | assumption | apply modPtn_kept | apply eventSem_kept | refine Part.sub kM ?_
    | split | intro _ | dsimp only | (show Part.subb _ _ = _; rfl)

theorem setCtxState_kept {kS s : State} {c : Nat} {st : CtxState} (kH : Kept M kS s)
    (kM : Within [.mc, .core, .int, .rc, .ptn, .ctx, .i3c] M := by exact Part.sub (by assumption) (by rfl)) :
    Kept M kS (setCtxState s c st) := by
  unfold setCtxState
  repeat' first
    | with_reducible first
      | assumption | contradiction | apply modCtx_kept | apply eventSem_kept | refine Kept.of_fst ‹_› ?_
      | refine Kept.of_snd ‹_› ?_ | refine Part.sub kM ?_
    | split | intro _ | dsimp only | (show Part.subb _ _ = _; rfl)

theorem modPrs_kept {kS s : State} {r : Nat} {f : Prs → Prs} (kH : Kept M kS s)
    (kM : Within [.prs] M := by exact Part.sub (by assumption) (by rfl)) :
    Kept M kS (modPrs s r f) := by
  unfold modPrs
  repeat' first
    | with_reducible first
      | assumption | refine Part.sub kM ?_
    | intro _ | dsimp only | (show Part.subb _ _ = _; rfl) | (show Membership.mem (γ := List Part) _ _; decide)
    | with_reducible first
      | refine Kept.set_prs ?_ (kM.mem ?_)

theorem doneAdd_kept {kS s : State} {ptn sem : Nat} {flag : DoneFlag} (kH : Kept M kS s)
    (kM : Within [.mc, .core, .int, .rc, .ptn, .ctx, .i3c] M := by exact Part.sub (by assumption) (by rfl)) :
    Kept M kS (doneAdd s ptn sem flag) := by
  unfold doneAdd
  repeat' first
    | with_reducible first
      | assumption | apply engineAdd_kept | refine Part.sub kM ?_
    | split | intro _ | dsimp only | (show Part.subb _ _ = _; rfl)

theorem suspend_kept {kS s : State} {n t : Nat} (kH : Kept M kS s)
    (kM : Within [.core] M := by exact Part.sub (by assumption) (by rfl)) :
    Kept M kS (suspend s n t) := by
  unfold suspend
  repeat' first
    | with_reducible first
      | assumption | apply modThr_kept | refine Part.sub kM ?_
    | split | intro _ | dsimp only | (show Part.subb _ _ = _; rfl)

theorem unsuspend_kept {kS s : State} {n t : Nat} (kH : Kept M kS s)
    (kM : Within [.core] M := by exact Part.sub (by assumption) (by rfl)) :
    Kept M kS (unsuspend s n t) := by
  unfold unsuspend
  repeat' first
    | with_reducible first
      | assumption | apply modThr_kept | refine Part.sub kM ?_
    | split | intro _ | dsimp only | (show Part.subb _ _ = _; rfl)

theorem bellWake_kept {kS s : State} {n t : Nat} (kH : Kept M kS s)
    (kM : Within [.core] M := by exact Part.sub (by assumption) (by rfl)) :
    Kept M kS (bellWake s n t) := by
  unfold bellWake
  repeat' first
    | with_reducible first
      | assumption | contradiction | apply wake_kept | refine Kept.of_fst ‹_› ?_ | refine Kept.of_snd ‹_› ?_
      | refine Part.sub kM ?_
    | split | intro _ | dsimp only | (show Part.subb _ _ = _; rfl)

theorem parkWaits_kept {kS s : State} {c : Nat} (kH : Kept M kS s)
    (kM : Within [.mc, .core, .int, .rc, .ptn, .ctx, .i3c] M := by exact Part.sub (by assumption) (by rfl)) :
    Kept M kS (parkWaits s c) := by
  unfold parkWaits
  repeat' first
    | with_reducible first
      | assumption | contradiction | apply forEach_kept | apply modCtx_kept | apply unreserve_kept | apply unblock_kept
      | refine Kept.of_fst ‹_› ?_ | refine Kept.of_snd ‹_› ?_ | refine Part.sub kM ?_
    | split | intro _ | dsimp only | (show Part.subb _ _ = _; rfl) | (show Membership.mem (γ := List Part) _ _; decide)
    | with_reducible first
      | refine Kept.set_rc ?_ (kM.mem ?_)

theorem unparkWaits_kept {kS s : State} {c : Nat} (kH : Kept M kS s)
    (kM : Within [.mc, .core, .int, .rc, .ptn, .ctx, .i3c] M := by exact Part.sub (by assumption) (by rfl)) :
    Kept M kS (unparkWaits s c) := by
  unfold unparkWaits
  repeat' first
    | with_reducible first
      | assumption | contradiction | apply forEach_kept | apply modCtx_kept | apply wake_kept | apply answerSem_kept
      | apply answerBar_kept | apply holdFor_kept | apply grantSem_kept | apply grantBar_kept | apply parkWaits_kept
      | refine Kept.of_fst ‹_› ?_ | refine Kept.of_snd ‹_› ?_ | apply getD_kept | apply foldl_kept
      | apply foldl_state_kept | refine Part.sub kM ?_
    | split | intro _ | dsimp only | (show Part.subb _ _ = _; rfl) | (show Membership.mem (γ := List Part) _ _; decide)
    | with_reducible first
      | refine Kept.set_rc ?_ (kM.mem ?_)

theorem dropPcds_kept {kS s : State} {c : Nat} (kH : Kept M kS s)
    (kM : Within [.mc, .core, .int, .rc, .ptn, .ctx, .prs, .i3c] M := by exact Part.sub (by assumption) (by rfl)) :
    Kept M kS (dropPcds s c) := by
  unfold dropPcds
  repeat' first
    | with_reducible first
      | assumption | apply forEach_kept | apply modPrs_kept | apply doneAdd_kept | refine Part.sub kM ?_
    | intro _ | dsimp only | (show Part.subb _ _ = _; rfl)

theorem quiesce_kept {kS s : State} {p c : Nat} (kH : Kept M kS s)
    (kM : Within [.mc, .core, .int, .rc, .ptn, .ctx, .prs, .i3c] M := by exact Part.sub (by assumption) (by rfl)) :
    Kept M kS (quiesce s p c) := by
  unfold quiesce
  repeat' first
    | with_reducible first
      | assumption | apply forEach_kept | apply suspend_kept | apply dropPcds_kept | refine Part.sub kM ?_
    | intro _ | dsimp only | (show Part.subb _ _ = _; rfl)

theorem swapOut_kept {kS s : State} {p c : Nat} (kH : Kept M kS s)
    (kM : Within [.mc, .core, .int, .rc, .ptn, .ctx, .prs, .i3c] M := by exact Part.sub (by assumption) (by rfl)) :
    Kept M kS (swapOut s p c) := by
  unfold swapOut
  repeat' first
    | with_reducible first
      | assumption | apply modCtx_kept | apply setCtxState_kept | apply parkWaits_kept | apply quiesce_kept
      | refine Part.sub kM ?_
    | intro _ | dsimp only | (show Part.subb _ _ = _; rfl)

theorem enterCtx_kept {kS s : State} {p c : Nat} (kH : Kept M kS s)
    (kM : Within [.mc, .core, .int, .rc, .ptn, .ctx, .i3c] M := by exact Part.sub (by assumption) (by rfl)) :
    Kept M kS (enterCtx s p c) := by
  unfold enterCtx
  repeat' first
    | with_reducible first
      | assumption | apply forEach_kept | apply modCtx_kept | apply setCtxState_kept | apply unsuspend_kept
      | apply bellWake_kept | apply unparkWaits_kept | refine Part.sub kM ?_
    | intro _ | dsimp only | (show Part.subb _ _ = _; rfl)

theorem leave_kept {kS s : State} {p c : Nat} (kH : Kept M kS s)
    (kM : Within [.mc, .core, .int, .rc, .ptn, .ctx, .prs, .i3c] M := by exact Part.sub (by assumption) (by rfl)) :
    Kept M kS (leave s p c) := by
  unfold leave
  repeat' first
    | with_reducible first
      | assumption | apply forEach_kept | apply modCtx_kept | apply modBuf_kept | apply quiesce_kept
      | refine Part.sub kM ?_
    | intro _ | dsimp only | (show Part.subb _ _ = _; rfl)

theorem stopRestore_kept {kS s : State} {c : Nat} (kH : Kept M kS s)
    (kM : Within [.ctx, .snp] M := by exact Part.sub (by assumption) (by rfl)) :
    Kept M kS (stopRestore s c) := by
  unfold stopRestore
  repeat' first
    | with_reducible first
      | assumption | refine Part.sub kM ?_
    | split | intro _ | dsimp only | (show Part.subb _ _ = _; rfl) | (show Membership.mem (γ := List Part) _ _; decide) | (show restore _ _ _ = _; rfl)
    | with_reducible first
      | refine Kept.set_ctx ?_ (kM.mem ?_) | refine Kept.set_snp ?_ (kM.mem ?_) | refine Kept.upd ?_ kM ?_

theorem detach_kept {kS s : State} {p c : Nat} (kH : Kept M kS s)
    (kM : Within [.mc, .core, .int, .rc, .ptn, .ctx, .prs, .snp, .i3c] M := by exact Part.sub (by assumption) (by rfl)) :
    Kept M kS (detach s p c) := by
  unfold detach
  repeat' first
    | with_reducible first
      | assumption | contradiction | apply modCtx_kept | apply setCtxState_kept | apply leave_kept
      | apply stopRestore_kept | refine Kept.of_fst ‹_› ?_ | refine Kept.of_snd ‹_› ?_ | refine Part.sub kM ?_
    | split | intro _ | dsimp only | (show Part.subb _ _ = _; rfl)

theorem brnPush_kept {kS s : State} {j : BrnJob} (kH : Kept M kS s)
    (kM : Within [.brn] M := by exact Part.sub (by assumption) (by rfl)) :
    Kept M kS (brnPush s j) := by
  unfold brnPush
  repeat' first
    | with_reducible first
      | assumption | refine Part.sub kM ?_
    | intro _ | dsimp only | (show Part.subb _ _ = _; rfl) | (show Membership.mem (γ := List Part) _ _; decide)
    | with_reducible first
      | refine Kept.set_brn ?_ (kM.mem ?_)

theorem idleThread_kept {kS s : State} {n t : Nat} (kH : Kept M kS s)
    (kM : Within [.resv, .mc, .core, .int, .rc, .ptn, .ctx, .i3c] M := by exact Part.sub (by assumption) (by rfl)) :
    Kept M kS (idleThread s n t) := by
  unfold idleThread
  repeat' first
    | with_reducible first
      | assumption | apply modThr_kept | apply dropResv_kept | apply dropWaits_kept | refine Part.sub kM ?_
    | intro _ | dsimp only | (show Part.subb _ _ = _; rfl) | (show Membership.mem (γ := List Part) _ _; decide)
    | with_reducible first
      | refine Kept.set_rc ?_ (kM.mem ?_)

theorem enterScrub_kept {kS s : State} {p c : Nat} (kH : Kept M kS s)
    (kM : Within [.resv, .mc, .core, .int, .rc, .ptn, .ctx, .brn, .i3c] M := by exact Part.sub (by assumption) (by rfl)) :
    Kept M kS (enterScrub s p c) := by
  unfold enterScrub
  repeat' first
    | with_reducible first
      | assumption | apply forEach_kept | apply modCtx_kept | apply modBuf_kept | apply setCtxState_kept
      | apply brnPush_kept | apply idleThread_kept | refine Part.sub kM ?_
    | intro _ | dsimp only | (show Part.subb _ _ = _; rfl)

theorem restartCtx_kept {kS s : State} {p c : Nat} (kH : Kept M kS s)
    (kM : Within [.mc, .core, .int, .rc, .ptn, .ctx, .prs, .i3c] M := by exact Part.sub (by assumption) (by rfl)) :
    Kept M kS (restartCtx s p c) := by
  unfold restartCtx
  repeat' first
    | with_reducible first
      | assumption | contradiction | apply modCtx_kept | apply setCtxState_kept | apply quiesce_kept
      | refine Kept.of_fst ‹_› ?_ | refine Kept.of_snd ‹_› ?_ | refine Part.sub kM ?_
    | split | intro _ | dsimp only | (show Part.subb _ _ = _; rfl)

theorem recess_kept {kS s : State} {p : Nat} (kH : Kept M kS s)
    (kM : Within [.mc, .core, .int, .rc, .ptn, .ctx, .prs, .i3c] M := by exact Part.sub (by assumption) (by rfl)) :
    Kept M kS (recess s p) := by
  unfold recess
  repeat' first
    | with_reducible first
      | assumption | contradiction | apply forEach_kept | apply modCtx_kept | apply swapOut_kept | apply enterCtx_kept
      | apply leave_kept | apply restartCtx_kept | refine Kept.of_fst ‹_› ?_ | refine Kept.of_snd ‹_› ?_
      | apply foldl_kept | apply foldl_state_kept | refine Part.sub kM ?_
    | split | intro _ | dsimp only | (show Part.subb _ _ = _; rfl)

theorem registerBound_kept {kS s : State} {p c : Nat} (kH : Kept M kS s)
    (kM : Within [.ctx] M := by exact Part.sub (by assumption) (by rfl)) :
    Kept M kS (registerBound s p c) := by
  unfold registerBound
  repeat' first
    | with_reducible first
      | assumption | contradiction | apply modCtx_kept | refine Kept.of_fst ‹_› ?_ | refine Kept.of_snd ‹_› ?_
      | refine Part.sub kM ?_
    | split | intro _ | dsimp only | (show Part.subb _ _ = _; rfl)

theorem boundExpiry_kept {kS s : State} {p c : Nat} (kH : Kept M kS s)
    (kM : Within [.mc, .core, .int, .rc, .ptn, .ctx, .prs, .i3c] M := by exact Part.sub (by assumption) (by rfl)) :
    Kept M kS (boundExpiry s p c) := by
  unfold boundExpiry
  repeat' first
    | with_reducible first
      | assumption | contradiction | apply modPtn_kept | apply revokeHolds_kept | apply leave_kept
      | apply restartCtx_kept | refine Kept.of_fst ‹_› ?_ | refine Kept.of_snd ‹_› ?_ | refine Part.sub kM ?_
    | split | intro _ | dsimp only | (show Part.subb _ _ = _; rfl)

theorem sweep_kept {kS s : State} {f : LineTag → Bool} (kH : Kept M kS s)
    (kM : Within [.mem, .memErr, .tags, .resv] M := by exact Part.sub (by assumption) (by rfl)) :
    Kept M kS (sweep s f) := by
  unfold sweep
  repeat' first
    | with_reducible first
      | assumption | apply forEach_kept | apply store_kept | refine Part.sub kM ?_
    | intro _ | dsimp only | (show Part.subb _ _ = _; rfl) | (show Membership.mem (γ := List Part) _ _; decide)
    | with_reducible first
      | refine Kept.set_tags ?_ (kM.mem ?_)

theorem bumpCtxGen_kept {kS s : State} {c : Nat} (kH : Kept M kS s)
    (kM : Within [.mem, .memErr, .tags, .resv, .ctx] M := by exact Part.sub (by assumption) (by rfl)) :
    Kept M kS (bumpCtxGen s c) := by
  unfold bumpCtxGen
  repeat' first
    | with_reducible first
      | assumption | contradiction | apply modCtx_kept | apply sweep_kept | refine Kept.of_fst ‹_› ?_
      | refine Kept.of_snd ‹_› ?_ | refine Part.sub kM ?_
    | split | intro _ | dsimp only | (show Part.subb _ _ = _; rfl)

theorem bumpPtnGen_kept {kS s : State} {p : Nat} (kH : Kept M kS s)
    (kM : Within [.mem, .memErr, .tags, .resv, .ptn] M := by exact Part.sub (by assumption) (by rfl)) :
    Kept M kS (bumpPtnGen s p) := by
  unfold bumpPtnGen
  repeat' first
    | with_reducible first
      | assumption | contradiction | apply modPtn_kept | apply sweep_kept | refine Kept.of_fst ‹_› ?_
      | refine Kept.of_snd ‹_› ?_ | refine Part.sub kM ?_
    | split | intro _ | dsimp only | (show Part.subb _ _ = _; rfl)

theorem loadKey_kept {kS s : State} {c : Nat} {k : KeySlot} (kH : Kept M kS s)
    (kM : Within [.mem, .memErr, .tags, .resv, .mc, .core, .int, .rc, .ptn, .ctx, .keys, .i3c] M := by exact Part.sub (by assumption) (by rfl)) :
    Kept M kS (loadKey s c k) := by
  unfold loadKey
  repeat' first
    | with_reducible first
      | assumption | apply modCtx_kept | apply setCtxState_kept | apply bumpCtxGen_kept | apply loaded_kept
      | refine Part.sub kM ?_
    | intro _ | dsimp only | (show Part.subb _ _ = _; rfl) | (show Membership.mem (γ := List Part) _ _; decide)
    | with_reducible first
      | refine Kept.set_keys ?_ (kM.mem ?_)

theorem freeCtx_kept {kS s : State} {c : Nat} (kH : Kept M kS s)
    (kM : Within [.mc, .core, .int, .rc, .ptn, .ctx, .keys, .i3c] M := by exact Part.sub (by assumption) (by rfl)) :
    Kept M kS (freeCtx s c) := by
  unfold freeCtx
  repeat' first
    | with_reducible first
      | assumption | apply modCtx_kept | apply setCtxState_kept | apply loaded_kept | refine Part.sub kM ?_
    | split | intro _ | dsimp only | (show Part.subb _ _ = _; rfl) | (show Membership.mem (γ := List Part) _ _; decide)
    | with_reducible first
      | refine Kept.set_keys ?_ (kM.mem ?_)

theorem applyCtxEnables_kept {kS s : State} {c : Nat} (kH : Kept M kS s)
    (kM : Within [.mem, .memErr, .tags, .resv, .mc, .core, .int, .rc, .ptn, .ctx, .keys, .i3c] M := by exact Part.sub (by assumption) (by rfl)) :
    Kept M kS (applyCtxEnables s c) := by
  unfold applyCtxEnables
  repeat' first
    | with_reducible first
      | assumption | contradiction | apply forEach_kept | apply modCtx_kept | apply setCtxState_kept | apply loadKey_kept
      | refine Kept.of_fst ‹_› ?_ | refine Kept.of_snd ‹_› ?_ | refine Part.sub kM ?_
    | split | intro _ | dsimp only | (show Part.subb _ _ = _; rfl)

/-! ### Launch -/

theorem placeGroup_kept {kS s : State} {p : Nat} {l : Launch} {n : Nat} (kH : Kept M kS s)
    (kM : Within [.resv, .core] M := by exact Part.sub (by assumption) (by rfl)) :
    Kept M kS (placeGroup s p l n) := by
  unfold placeGroup
  repeat' first
    | with_reducible first
      | assumption | contradiction | apply forEach_kept | apply modCore_kept | apply modThr_kept | apply dropResv_kept
      | apply wake_kept | refine Kept.of_fst ‹_› ?_ | refine Kept.of_snd ‹_› ?_ | refine Part.sub kM ?_
    | split | intro _ | dsimp only | (show Part.subb _ _ = _; rfl)

theorem sylEvent_kept {kS s : State} {p scope : Nat} {e : SyFail} (kH : Kept M kS s)
    (kM : Within [.cpt] M := by exact Part.sub (by assumption) (by rfl)) :
    Kept M kS (sylEvent s p scope e) := by
  unfold sylEvent
  repeat' first
    | with_reducible first
      | assumption | apply queueEvent_kept | refine Part.sub kM ?_
    | intro _ | dsimp only | (show Part.subb _ _ = _; rfl)

theorem sylEnd_kept {kS s : State} {p scope : Nat} {e : SyFail} (kH : Kept M kS s)
    (kM : Within [.ptn, .syl, .cpt] M := by exact Part.sub (by assumption) (by rfl)) :
    Kept M kS (sylEnd s p scope e) := by
  unfold sylEnd
  repeat' first
    | with_reducible first
      | assumption | apply sylEvent_kept | refine Part.sub kM ?_
    | intro _ | dsimp only | (show Part.subb _ _ = _; rfl) | (show Membership.mem (γ := List Part) _ _; decide) | (show restore _ _ _ = _; rfl)
    | with_reducible first
      | refine Kept.set_ptn ?_ (kM.mem ?_) | refine Kept.set_syl ?_ (kM.mem ?_) | refine Kept.upd ?_ kM ?_

theorem placeNext_kept {kS s : State} {p : Nat} (kH : Kept M kS s)
    (kM : Within [.resv, .core, .ptn, .syl, .cpt] M := by exact Part.sub (by assumption) (by rfl)) :
    Kept M kS (placeNext s p) := by
  unfold placeNext
  repeat' first
    | with_reducible first
      | assumption | contradiction | apply modPtn_kept | apply placeGroup_kept | apply sylEnd_kept
      | refine Kept.of_fst ‹_› ?_ | refine Kept.of_snd ‹_› ?_ | refine Part.sub kM ?_
    | split | intro _ | dsimp only | (show Part.subb _ _ = _; rfl)

theorem placeQueued_kept {kS s : State} {p : Nat} (kH : Kept M kS s)
    (kM : Within [.resv, .core, .ptn, .syl, .cpt] M := by exact Part.sub (by assumption) (by rfl)) :
    Kept M kS (placeQueued s p) := by
  unfold placeQueued
  repeat' first
    | with_reducible first
      | assumption | apply forEach_kept | apply placeNext_kept | refine Part.sub kM ?_
    | intro _ | dsimp only | (show Part.subb _ _ = _; rfl)

/-! ### PtnCmd -/

theorem journalFor_kept {kS s : State} {r : Req} {e : JEntry} (kH : Kept M kS s)
    (kM : Within [.mc, .int, .ptn, .ctx, .led, .lcs, .i3c] M := by exact Part.sub (by assumption) (by rfl)) :
    Kept M kS (journalFor s r e) := by
  unfold journalFor
  repeat' first
    | with_reducible first
      | assumption | apply journal_kept | refine Kept.of_fst ‹_› ?_ | refine Kept.of_snd ‹_› ?_ | refine Part.sub kM ?_
    | split | intro _ | dsimp only | (show Part.subb _ _ = _; rfl)

theorem setHold_kept {kS s : State} {p bit : Nat} (kH : Kept M kS s)
    (kM : Within [.mc, .core, .int, .rc, .ptn, .ctx, .i3c] M := by exact Part.sub (by assumption) (by rfl)) :
    Kept M kS (setHold s p bit) := by
  unfold setHold
  repeat' first
    | with_reducible first
      | assumption | apply modPtn_kept | apply setPtnState_kept | refine Part.sub kM ?_
    | split | intro _ | dsimp only | (show Part.subb _ _ = _; rfl)

theorem clearHold_kept {kS s : State} {p mask : Nat} (kH : Kept M kS s)
    (kM : Within [.mc, .core, .int, .rc, .ptn, .ctx, .i3c] M := by exact Part.sub (by assumption) (by rfl)) :
    Kept M kS (clearHold s p mask) := by
  unfold clearHold
  repeat' first
    | with_reducible first
      | assumption | apply modPtn_kept | apply setPtnState_kept | refine Part.sub kM ?_
    | split | intro _ | dsimp only | (show Part.subb _ _ = _; rfl)

theorem stopTt_kept {kS s : State} {p : Nat} (kH : Kept M kS s)
    (kM : Within [.ptn] M := by exact Part.sub (by assumption) (by rfl)) :
    Kept M kS (stopTt s p) := by
  unfold stopTt
  repeat' first
    | with_reducible first
      | assumption | apply modTt_kept | refine Part.sub kM ?_
    | split | intro _ | dsimp only | (show Part.subb _ _ = _; rfl)

theorem foreignWaits_kept {kS s : State} {f : Token → Bool} (kH : Kept M kS s)
    (kM : Within [.mc, .core, .int, .rc, .ptn, .ctx, .i3c] M := by exact Part.sub (by assumption) (by rfl)) :
    Kept M kS (foreignWaits s f) := by
  unfold foreignWaits
  repeat' first
    | with_reducible first
      | assumption | apply forEach_kept | apply answerOpen_kept | apply unreserve_kept | refine Part.sub kM ?_
    | intro _ | dsimp only | (show Part.subb _ _ = _; rfl) | (show Membership.mem (γ := List Part) _ _; decide)
    | with_reducible first
      | refine Kept.set_rc ?_ (kM.mem ?_)

theorem deallocate_kept {kS s : State} {p : Nat} (kH : Kept M kS s)
    (kM : Within [.mc, .core, .int, .rc, .ptn, .ctx, .i3c] M := by exact Part.sub (by assumption) (by rfl)) :
    Kept M kS (deallocate s p) := by
  unfold deallocate
  repeat' first
    | with_reducible first
      | assumption | apply foreignWaits_kept | refine Part.sub kM ?_
    | split | intro _ | dsimp only | (show Part.subb _ _ = _; rfl) | (show Membership.mem (γ := List Part) _ _; decide)
    | with_reducible first
      | refine Kept.set_rc ?_ (kM.mem ?_)

theorem teardownProceed_kept {kS s : State} {p : Nat} (kH : Kept M kS s)
    (kM : Within [.resv, .mc, .core, .int, .rc, .ptn, .ctx, .brn, .i3c] M := by exact Part.sub (by assumption) (by rfl)) :
    Kept M kS (teardownProceed s p) := by
  unfold teardownProceed
  repeat' first
    | with_reducible first
      | assumption | contradiction | apply forEach_kept | apply modPtn_kept | apply modCore_kept | apply setPtnState_kept
      | apply brnPush_kept | apply idleThread_kept | apply deallocate_kept | refine Kept.of_fst ‹_› ?_
      | refine Kept.of_snd ‹_› ?_ | refine Part.sub kM ?_
    | split | intro _ | dsimp only | (show Part.subb _ _ = _; rfl)

theorem dropPtnEks_kept {kS s : State} {p : Nat} (kH : Kept M kS s)
    (kM : Within [.sec] M := by exact Part.sub (by assumption) (by rfl)) :
    Kept M kS (dropPtnEks s p) := by
  unfold dropPtnEks
  repeat' first
    | with_reducible first
      | assumption | refine Part.sub kM ?_
    | intro _ | dsimp only | (show Part.subb _ _ = _; rfl) | (show Membership.mem (γ := List Part) _ _; decide)
    | with_reducible first
      | refine Kept.set_sec ?_ (kM.mem ?_)

theorem teardown_kept {kS s : State} {who : Req} {p : Nat} (kH : Kept M kS s)
    (kM : Within [.resv, .mc, .core, .int, .rc, .ptn, .ctx, .brn, .prs, .led, .lcs, .sec, .snp, .i3c] M := by exact Part.sub (by assumption) (by rfl)) :
    Kept M kS (teardown s who p) := by
  unfold teardown
  repeat' first
    | with_reducible first
      | assumption | apply forEach_kept | apply modPtn_kept | apply setPtnState_kept | apply detach_kept
      | apply journalFor_kept | apply stopTt_kept | apply teardownProceed_kept | apply dropPtnEks_kept
      | refine Part.sub kM ?_
    | intro _ | dsimp only | (show Part.subb _ _ = _; rfl)

theorem ptnResult_kept {kS s : State} {p ctx status : Nat} (kH : Kept M kS s)
    (kM : Within [.ptn] M := by exact Part.sub (by assumption) (by rfl)) :
    Kept M kS (ptnResult s p ctx status) := by
  unfold ptnResult
  repeat' first
    | with_reducible first
      | assumption | apply modPtn_kept | refine Part.sub kM ?_
    | intro _ | dsimp only | (show Part.subb _ _ = _; rfl)

theorem ptnCmdOp_kept {kS s : State} {who : Req} {p op : Nat} (kH : Kept M kS s)
    (kM : Within [.resv, .mc, .core, .int, .rc, .ptn, .ctx, .brn, .prs, .led, .lcs, .sec, .snp, .i3c] M := by exact Part.sub (by assumption) (by rfl)) :
    Kept M kS (ptnCmdOp s who p op).1 := by
  unfold ptnCmdOp
  repeat' first
    | with_reducible first
      | assumption | contradiction | apply setHold_kept | apply clearHold_kept | apply teardown_kept
      | refine Kept.of_fst ‹_› ?_ | refine Kept.of_snd ‹_› ?_ | refine Part.sub kM ?_
    | split | intro _ | dsimp only | (show Part.subb _ _ = _; rfl)

theorem ptnCmd_kept {kS s : State} {who : Req} {p word : Nat} (kH : Kept M kS s)
    (kM : Within [.resv, .mc, .core, .int, .rc, .ptn, .ctx, .brn, .prs, .led, .lcs, .sec, .snp, .i3c] M := by exact Part.sub (by assumption) (by rfl)) :
    Kept M kS (ptnCmd s who p word) := by
  unfold ptnCmd
  repeat' first
    | with_reducible first
      | assumption | contradiction | apply ptnResult_kept | apply ptnCmdOp_kept | refine Kept.of_fst ‹_› ?_
      | refine Kept.of_snd ‹_› ?_ | refine Part.sub kM ?_
    | split | intro _ | dsimp only | (show Part.subb _ _ = _; rfl)

theorem pendCtx_kept {kS s : State} {c seat : Nat} {st : CtxState} (kH : Kept M kS s)
    (kM : Within [.mc, .core, .int, .rc, .ptn, .ctx, .i3c] M := by exact Part.sub (by assumption) (by rfl)) :
    Kept M kS (pendCtx s c seat st) := by
  unfold pendCtx
  repeat' first
    | with_reducible first
      | assumption | apply modCtx_kept | apply setCtxState_kept | refine Part.sub kM ?_
    | intro _ | dsimp only | (show Part.subb _ _ = _; rfl)

theorem attachOp_kept {kS s : State} {p c seat : Nat} (kH : Kept M kS s)
    (kM : Within [.mc, .core, .int, .rc, .ptn, .ctx, .i3c] M := by exact Part.sub (by assumption) (by rfl)) :
    Kept M kS (attachOp s p c seat).1 := by
  unfold attachOp
  repeat' first
    | with_reducible first
      | assumption | contradiction | apply modCtx_kept | apply pendCtx_kept | refine Kept.of_fst ‹_› ?_
      | refine Kept.of_snd ‹_› ?_ | refine Part.sub kM ?_
    | split | intro _ | dsimp only | (show Part.subb _ _ = _; rfl)

theorem preemptOp_kept {kS s : State} {p c : Nat} (kH : Kept M kS s)
    (kM : Within [.mc, .core, .int, .rc, .ptn, .ctx, .i3c] M := by exact Part.sub (by assumption) (by rfl)) :
    Kept M kS (preemptOp s p c).1 := by
  unfold preemptOp
  repeat' first
    | with_reducible first
      | assumption | apply modCtx_kept | apply setCtxState_kept | refine Part.sub kM ?_
    | split | intro _ | dsimp only | (show Part.subb _ _ = _; rfl)

theorem resumeOp_kept {kS s : State} {p c seat : Nat} (kH : Kept M kS s)
    (kM : Within [.mc, .core, .int, .rc, .ptn, .ctx, .i3c] M := by exact Part.sub (by assumption) (by rfl)) :
    Kept M kS (resumeOp s p c seat).1 := by
  unfold resumeOp
  repeat' first
    | with_reducible first
      | assumption | contradiction | apply pendCtx_kept | refine Kept.of_fst ‹_› ?_ | refine Kept.of_snd ‹_› ?_
      | refine Part.sub kM ?_
    | split | intro _ | dsimp only | (show Part.subb _ _ = _; rfl)

theorem detachOp_kept {kS s : State} {p c : Nat} (kH : Kept M kS s)
    (kM : Within [.mc, .core, .int, .rc, .ptn, .ctx, .prs, .snp, .i3c] M := by exact Part.sub (by assumption) (by rfl)) :
    Kept M kS (detachOp s p c).1 := by
  unfold detachOp
  repeat' first
    | with_reducible first
      | assumption | contradiction | apply detach_kept | refine Kept.of_fst ‹_› ?_ | refine Kept.of_snd ‹_› ?_
      | refine Part.sub kM ?_
    | split | intro _ | dsimp only | (show Part.subb _ _ = _; rfl)

theorem cancelOp_kept {kS s : State} {c : Nat} (kH : Kept M kS s)
    (kM : Within [.mc, .core, .int, .rc, .ptn, .ctx, .i3c] M := by exact Part.sub (by assumption) (by rfl)) :
    Kept M kS (cancelOp s c).1 := by
  unfold cancelOp
  repeat' first
    | with_reducible first
      | assumption | contradiction | apply modCtx_kept | apply setCtxState_kept | refine Kept.of_fst ‹_› ?_
      | refine Kept.of_snd ‹_› ?_ | refine Part.sub kM ?_
    | split | intro _ | dsimp only | (show Part.subb _ _ = _; rfl)

theorem rebindOp_kept {kS s : State} {p c seat : Nat} (kH : Kept M kS s)
    (kM : Within [.ctx] M := by exact Part.sub (by assumption) (by rfl)) :
    Kept M kS (rebindOp s p c seat).1 := by
  unfold rebindOp
  repeat' first
    | with_reducible first
      | assumption | apply modCtx_kept | refine Part.sub kM ?_
    | split | intro _ | dsimp only | (show Part.subb _ _ = _; rfl)

theorem ptnCtxOp_kept {kS s : State} {p c seat op : Nat} (kH : Kept M kS s)
    (kM : Within [.mc, .core, .int, .rc, .ptn, .ctx, .prs, .snp, .i3c] M := by exact Part.sub (by assumption) (by rfl)) :
    Kept M kS (ptnCtxOp s p c seat op).1 := by
  unfold ptnCtxOp
  repeat' first
    | with_reducible first
      | assumption | contradiction | apply attachOp_kept | apply preemptOp_kept | apply resumeOp_kept
      | apply detachOp_kept | apply cancelOp_kept | apply rebindOp_kept | refine Kept.of_fst ‹_› ?_
      | refine Kept.of_snd ‹_› ?_ | refine Part.sub kM ?_
    | split | intro _ | dsimp only | (show Part.subb _ _ = _; rfl)

theorem ptnCtxCmd_kept {kS s : State} {p word : Nat} (kH : Kept M kS s)
    (kM : Within [.mc, .core, .int, .rc, .ptn, .ctx, .prs, .snp, .i3c] M := by exact Part.sub (by assumption) (by rfl)) :
    Kept M kS (ptnCtxCmd s p word) := by
  unfold ptnCtxCmd
  repeat' first
    | with_reducible first
      | assumption | apply ptnResult_kept | apply ptnCtxOp_kept | refine Kept.of_fst ‹_› ?_ | refine Kept.of_snd ‹_› ?_
      | refine Part.sub kM ?_
    | split | intro _ | dsimp only | (show Part.subb _ _ = _; rfl)

theorem ptnRow_kept {kS s : State} {who : Req} {p op : Nat} (kH : Kept M kS s)
    (kM : Within [.resv, .mc, .core, .int, .rc, .ptn, .ctx, .brn, .prs, .led, .lcs, .sec, .snp, .i3c] M := by exact Part.sub (by assumption) (by rfl)) :
    Kept M kS (ptnRow s who p op) := by
  unfold ptnRow
  repeat' first
    | with_reducible first
      | assumption | apply ptnCmd_kept | refine Part.sub kM ?_
    | split | intro _ | dsimp only | (show Part.subb _ _ = _; rfl)

theorem ctxRow_kept {kS s : State} {who : Req} {p c seat op : Nat} (kH : Kept M kS s)
    (kM : Within [.mc, .core, .int, .rc, .ptn, .ctx, .prs, .snp, .i3c] M := by exact Part.sub (by assumption) (by rfl)) :
    Kept M kS (ctxRow s who p c seat op) := by
  unfold ctxRow
  repeat' first
    | with_reducible first
      | assumption | apply ptnCtxCmd_kept | refine Part.sub kM ?_
    | split | intro _ | dsimp only | (show Part.subb _ _ = _; rfl)

theorem execPtnTeardown_kept {kS s kT : State} {who : Req} {p : Nat} (kH : Kept M kS s) (kE : execPtnTeardown who p s = .next kT)
    (kM : Within [.resv, .mc, .core, .int, .rc, .ptn, .ctx, .brn, .prs, .led, .lcs, .sec, .snp, .i3c] M := by exact Part.sub (by assumption) (by rfl)) :
    Kept M kS kT := by
  unfold execPtnTeardown at kE
  repeat' first | contradiction | (injection kE with kE; subst kE) | split at kE | dsimp only at kE
  repeat' first
    | with_reducible first
      | assumption | apply ptnRow_kept | refine Part.sub kM ?_
    | intro _ | dsimp only | (show Part.subb _ _ = _; rfl)

theorem execPtnHold_kept {kS s kT : State} {who : Req} {p : Nat} (kH : Kept M kS s) (kE : execPtnHold who p s = .next kT)
    (kM : Within [.resv, .mc, .core, .int, .rc, .ptn, .ctx, .brn, .prs, .led, .lcs, .sec, .snp, .i3c] M := by exact Part.sub (by assumption) (by rfl)) :
    Kept M kS kT := by
  unfold execPtnHold at kE
  repeat' first | contradiction | (injection kE with kE; subst kE) | split at kE | dsimp only at kE
  repeat' first
    | with_reducible first
      | assumption | apply ptnRow_kept | refine Part.sub kM ?_
    | intro _ | dsimp only | (show Part.subb _ _ = _; rfl)

theorem execPtnRelease_kept {kS s kT : State} {who : Req} {p : Nat} (kH : Kept M kS s) (kE : execPtnRelease who p s = .next kT)
    (kM : Within [.resv, .mc, .core, .int, .rc, .ptn, .ctx, .brn, .prs, .led, .lcs, .sec, .snp, .i3c] M := by exact Part.sub (by assumption) (by rfl)) :
    Kept M kS kT := by
  unfold execPtnRelease at kE
  repeat' first | contradiction | (injection kE with kE; subst kE) | split at kE | dsimp only at kE
  repeat' first
    | with_reducible first
      | assumption | apply ptnRow_kept | refine Part.sub kM ?_
    | intro _ | dsimp only | (show Part.subb _ _ = _; rfl)

theorem execAttach_kept {kS s kT : State} {who : Req} {p c seat : Nat} (kH : Kept M kS s)
    (kE : execAttach who p c seat s = .next kT)
    (kM : Within [.mc, .core, .int, .rc, .ptn, .ctx, .prs, .snp, .i3c] M := by exact Part.sub (by assumption) (by rfl)) :
    Kept M kS kT := by
  unfold execAttach at kE
  repeat' first | contradiction | (injection kE with kE; subst kE) | split at kE | dsimp only at kE
  repeat' first
    | with_reducible first
      | assumption | apply ctxRow_kept | refine Part.sub kM ?_
    | intro _ | dsimp only | (show Part.subb _ _ = _; rfl)

theorem execPreempt_kept {kS s kT : State} {who : Req} {p c : Nat} (kH : Kept M kS s) (kE : execPreempt who p c s = .next kT)
    (kM : Within [.mc, .core, .int, .rc, .ptn, .ctx, .prs, .snp, .i3c] M := by exact Part.sub (by assumption) (by rfl)) :
    Kept M kS kT := by
  unfold execPreempt at kE
  repeat' first | contradiction | (injection kE with kE; subst kE) | split at kE | dsimp only at kE
  repeat' first
    | with_reducible first
      | assumption | apply ctxRow_kept | refine Part.sub kM ?_
    | intro _ | dsimp only | (show Part.subb _ _ = _; rfl)

theorem execResume_kept {kS s kT : State} {who : Req} {p c seat : Nat} (kH : Kept M kS s)
    (kE : execResume who p c seat s = .next kT)
    (kM : Within [.mc, .core, .int, .rc, .ptn, .ctx, .prs, .snp, .i3c] M := by exact Part.sub (by assumption) (by rfl)) :
    Kept M kS kT := by
  unfold execResume at kE
  repeat' first | contradiction | (injection kE with kE; subst kE) | split at kE | dsimp only at kE
  repeat' first
    | with_reducible first
      | assumption | apply ctxRow_kept | refine Part.sub kM ?_
    | intro _ | dsimp only | (show Part.subb _ _ = _; rfl)

theorem execDetach_kept {kS s kT : State} {who : Req} {p c : Nat} (kH : Kept M kS s) (kE : execDetach who p c s = .next kT)
    (kM : Within [.mc, .core, .int, .rc, .ptn, .ctx, .prs, .snp, .i3c] M := by exact Part.sub (by assumption) (by rfl)) :
    Kept M kS kT := by
  unfold execDetach at kE
  repeat' first | contradiction | (injection kE with kE; subst kE) | split at kE | dsimp only at kE
  repeat' first
    | with_reducible first
      | assumption | apply ctxRow_kept | refine Part.sub kM ?_
    | intro _ | dsimp only | (show Part.subb _ _ = _; rfl)

theorem execCtxCancel_kept {kS s kT : State} {who : Req} {p c : Nat} (kH : Kept M kS s) (kE : execCtxCancel who p c s = .next kT)
    (kM : Within [.mc, .core, .int, .rc, .ptn, .ctx, .prs, .snp, .i3c] M := by exact Part.sub (by assumption) (by rfl)) :
    Kept M kS kT := by
  unfold execCtxCancel at kE
  repeat' first | contradiction | (injection kE with kE; subst kE) | split at kE | dsimp only at kE
  repeat' first
    | with_reducible first
      | assumption | apply ctxRow_kept | refine Part.sub kM ?_
    | intro _ | dsimp only | (show Part.subb _ _ = _; rfl)

theorem execRebind_kept {kS s kT : State} {who : Req} {p c seat : Nat} (kH : Kept M kS s)
    (kE : execRebind who p c seat s = .next kT)
    (kM : Within [.mc, .core, .int, .rc, .ptn, .ctx, .prs, .snp, .i3c] M := by exact Part.sub (by assumption) (by rfl)) :
    Kept M kS kT := by
  unfold execRebind at kE
  repeat' first | contradiction | (injection kE with kE; subst kE) | split at kE | dsimp only at kE
  repeat' first
    | with_reducible first
      | assumption | apply ctxRow_kept | refine Part.sub kM ?_
    | intro _ | dsimp only | (show Part.subb _ _ = _; rfl)

theorem execPreemptBoundExpiry_kept {kS s kT : State} {c : Nat} (kH : Kept M kS s) (kE : execPreemptBoundExpiry c s = .next kT)
    (kM : Within [.mc, .core, .int, .rc, .ptn, .ctx, .prs, .i3c] M := by exact Part.sub (by assumption) (by rfl)) :
    Kept M kS kT := by
  unfold execPreemptBoundExpiry at kE
  repeat' first | contradiction | (injection kE with kE; subst kE) | split at kE | dsimp only at kE
  repeat' first
    | with_reducible first
      | assumption | contradiction | apply boundExpiry_kept | refine Kept.of_fst ‹_› ?_ | refine Kept.of_snd ‹_› ?_
      | refine Part.sub kM ?_
    | split | intro _ | dsimp only | (show Part.subb _ _ = _; rfl)

theorem execLandingQuiet_kept {kS s kT : State} {c : Nat} (kH : Kept M kS s) (kE : execLandingQuiet c s = .next kT)
    (kM : Within [.resv, .mc, .core, .int, .rc, .ptn, .ctx, .brn, .i3c] M := by exact Part.sub (by assumption) (by rfl)) :
    Kept M kS kT := by
  unfold execLandingQuiet at kE
  repeat' first | contradiction | (injection kE with kE; subst kE) | split at kE | dsimp only at kE
  repeat' first
    | with_reducible first
      | assumption | contradiction | apply enterScrub_kept | refine Kept.of_fst ‹_› ?_ | refine Kept.of_snd ‹_› ?_
      | refine Part.sub kM ?_
    | split | intro _ | dsimp only | (show Part.subb _ _ = _; rfl)

/-! ### SylCheck -/


/-! ### Thread -/

theorem instrDone_kept {kS s : State} {n t len : Nat} (kH : Kept M kS s)
    (kM : Within [.core] M := by exact Part.sub (by assumption) (by rfl)) :
    Kept M kS (instrDone s n t len) := by
  unfold instrDone
  repeat' first
    | with_reducible first
      | assumption | apply modThr_kept | refine Part.sub kM ?_
    | intro _ | dsimp only | (show Part.subb _ _ = _; rfl)

theorem takeTrap_kept {kS s : State} {n t cause : Nat} {tval : DWord} (kH : Kept M kS s)
    (kM : Within [.core] M := by exact Part.sub (by assumption) (by rfl)) :
    Kept M kS (takeTrap s n t cause tval) := by
  unfold takeTrap
  repeat' first
    | with_reducible first
      | assumption | apply modThr_kept | refine Part.sub kM ?_
    | split | intro _ | dsimp only | (show Part.subb _ _ = _; rfl)

theorem illegal_kept {kS s : State} {n t : Nat} (kH : Kept M kS s)
    (kM : Within [.fresh, .core] M := by exact Part.sub (by assumption) (by rfl)) :
    Kept M kS (illegal s n t) := by
  unfold illegal
  repeat' first
    | with_reducible first
      | assumption | apply draw_kept | apply takeTrap_kept | refine Kept.of_fst ‹_› ?_ | refine Kept.of_snd ‹_› ?_
      | refine Part.sub kM ?_
    | split | intro _ | dsimp only | (show Part.subb _ _ = _; rfl)

theorem issue_kept {kS s : State} {n t : Nat} {f : State → State} (kH : Kept M kS s)
    (h_f : ∀ x0, Kept M kS x0 → Kept M kS (f x0)) :
    Kept M kS (issue s n t f) := by
  unfold issue
  repeat' first
    | with_reducible first
      | assumption | apply h_f
    | split | intro _ | dsimp only

/-! ### RollCmd -/

theorem dropCrc_kept {kS s : State} (kH : Kept M kS s) (kM : Within [.rc] M := by exact Part.sub (by assumption) (by rfl)) :
    Kept M kS (dropCrc s) := by
  unfold dropCrc
  repeat' first
    | with_reducible first
      | assumption | refine Part.sub kM ?_
    | intro _ | dsimp only | (show Part.subb _ _ = _; rfl) | (show Membership.mem (γ := List Part) _ _; decide)
    | with_reducible first
      | refine Kept.set_rc ?_ (kM.mem ?_)

theorem dropRes_kept {kS s : State} (kH : Kept M kS s) (kM : Within [.rc] M := by exact Part.sub (by assumption) (by rfl)) :
    Kept M kS (dropRes s) := by
  unfold dropRes
  repeat' first
    | with_reducible first
      | assumption | refine Part.sub kM ?_
    | intro _ | dsimp only | (show Part.subb _ _ = _; rfl) | (show Membership.mem (γ := List Part) _ _; decide)
    | with_reducible first
      | refine Kept.set_rc ?_ (kM.mem ?_)

theorem takeFrame_kept {kS s : State} {f : List Byte} {type : Nat} {resOk : Bool} {act : State → State} (kH : Kept M kS s)
    (h_act : ∀ x0, Kept M kS x0 → Kept M kS (act x0)) (kM : Within [.rc] M := by exact Part.sub (by assumption) (by rfl)) :
    Kept M kS (takeFrame s f type resOk act) := by
  unfold takeFrame
  repeat' first
    | with_reducible first
      | assumption | apply h_act | apply dropCrc_kept | apply dropRes_kept | refine Part.sub kM ?_
    | split | intro _ | dsimp only | (show Part.subb _ _ = _; rfl)

theorem waitRc_kept {kS s : State} {n t rtag rd : Nat} (kH : Kept M kS s)
    (kM : Within [.core] M := by exact Part.sub (by assumption) (by rfl)) :
    Kept M kS (waitRc s n t rtag rd) := by
  unfold waitRc
  repeat' first
    | with_reducible first
      | assumption | apply modThr_kept | refine Part.sub kM ?_
    | intro _ | dsimp only | (show Part.subb _ _ = _; rfl)

theorem threadOp_kept {kS s : State} {n t : Nat} {op : RcOp} {sem operand timeout rd : Nat} (kH : Kept M kS s)
    (kM : Within [.mc, .core, .int, .rc, .ptn, .ctx, .i3c] M := by exact Part.sub (by assumption) (by rfl)) :
    Kept M kS (threadOp s n t op sem operand timeout rd) := by
  unfold threadOp
  repeat' first
    | with_reducible first
      | assumption | apply bankOp_kept | apply waitRc_kept | refine Part.sub kM ?_
    | intro _ | dsimp only | (show Part.subb _ _ = _; rfl)

theorem remoteOp_kept {kS s : State} {n t lmn : Nat} {op : RcOp} {sem operand timeout rd : Nat} (kH : Kept M kS s)
    (kM : Within [.mc, .core, .int, .rc, .ptn, .ctx, .i3c] M := by exact Part.sub (by assumption) (by rfl)) :
    Kept M kS (remoteOp s n t lmn op sem operand timeout rd) := by
  unfold remoteOp
  repeat' first
    | with_reducible first
      | assumption | apply syncRoute_kept | apply openReq_kept | apply waitRc_kept | apply getD_kept
      | refine Part.sub kM ?_
    | intro _ | dsimp only | (show Part.subb _ _ = _; rfl)

theorem slvRc_kept {kS s : State} {n t rd rs1 rs2 : Nat} (kH : Kept M kS s)
    (kM : Within [.fresh, .mc, .core, .int, .rc, .ptn, .ctx, .i3c] M := by exact Part.sub (by assumption) (by rfl)) :
    Kept M kS (slvRc s n t rd rs1 rs2) := by
  unfold slvRc
  repeat' first
    | with_reducible first
      | assumption | contradiction | apply modThr_kept | apply instrDone_kept | apply illegal_kept | apply threadOp_kept
      | apply remoteOp_kept | refine Kept.of_fst ‹_› ?_ | refine Kept.of_snd ‹_› ?_ | refine Part.sub kM ?_
    | split | intro _ | dsimp only | (show Part.subb _ _ = _; rfl)

theorem tokenIn_kept {kS s : State} {port : Nat} {f : List Byte} {op : RcOp} (kH : Kept M kS s)
    (kM : Within [.mc, .core, .int, .rc, .ptn, .ctx, .i3c] M := by exact Part.sub (by assumption) (by rfl)) :
    Kept M kS (tokenIn s port f op) := by
  unfold tokenIn
  repeat' first
    | with_reducible first
      | assumption | apply bankOp_kept | apply takeFrame_kept | refine Part.sub kM ?_
    | split | intro _ | dsimp only | (show Part.subb _ _ = _; rfl)

theorem rcRow_kept {kS s : State} {op : RcOp} {z0 : TokSrc} (kH : Kept M kS s)
    (kM : Within [.mc, .core, .int, .rc, .ptn, .ctx, .i3c] M := by exact Part.sub (by assumption) (by rfl)) :
    Kept M kS (rcRow s op z0) := by
  unfold rcRow
  repeat' first
    | with_reducible first
      | assumption | contradiction | apply instrDone_kept | apply issue_kept | apply threadOp_kept | apply tokenIn_kept
      | refine Kept.of_fst ‹_› ?_ | refine Kept.of_snd ‹_› ?_ | refine Part.sub kM ?_
    | split | intro _ | dsimp only | (show Part.subb _ _ = _; rfl)

theorem execSemRead_kept {kS s kT : State} {src : TokSrc} (kH : Kept M kS s) (kE : execSemRead src s = .next kT)
    (kM : Within [.mc, .core, .int, .rc, .ptn, .ctx, .i3c] M := by exact Part.sub (by assumption) (by rfl)) :
    Kept M kS kT := by
  unfold execSemRead at kE
  repeat' first | contradiction | (injection kE with kE; subst kE) | split at kE | dsimp only at kE
  repeat' first
    | with_reducible first
      | assumption | apply rcRow_kept | refine Part.sub kM ?_
    | intro _ | dsimp only | (show Part.subb _ _ = _; rfl)

theorem execSemWrite_kept {kS s kT : State} {src : TokSrc} (kH : Kept M kS s) (kE : execSemWrite src s = .next kT)
    (kM : Within [.mc, .core, .int, .rc, .ptn, .ctx, .i3c] M := by exact Part.sub (by assumption) (by rfl)) :
    Kept M kS kT := by
  unfold execSemWrite at kE
  repeat' first | contradiction | (injection kE with kE; subst kE) | split at kE | dsimp only at kE
  repeat' first
    | with_reducible first
      | assumption | apply rcRow_kept | refine Part.sub kM ?_
    | intro _ | dsimp only | (show Part.subb _ _ = _; rfl)

theorem execSemAdd_kept {kS s kT : State} {src : TokSrc} (kH : Kept M kS s) (kE : execSemAdd src s = .next kT)
    (kM : Within [.mc, .core, .int, .rc, .ptn, .ctx, .i3c] M := by exact Part.sub (by assumption) (by rfl)) :
    Kept M kS kT := by
  unfold execSemAdd at kE
  repeat' first | contradiction | (injection kE with kE; subst kE) | split at kE | dsimp only at kE
  repeat' first
    | with_reducible first
      | assumption | apply rcRow_kept | refine Part.sub kM ?_
    | intro _ | dsimp only | (show Part.subb _ _ = _; rfl)

theorem execWaitGe_kept {kS s kT : State} {src : TokSrc} (kH : Kept M kS s) (kE : execWaitGe src s = .next kT)
    (kM : Within [.mc, .core, .int, .rc, .ptn, .ctx, .i3c] M := by exact Part.sub (by assumption) (by rfl)) :
    Kept M kS kT := by
  unfold execWaitGe at kE
  repeat' first | contradiction | (injection kE with kE; subst kE) | split at kE | dsimp only at kE
  repeat' first
    | with_reducible first
      | assumption | apply rcRow_kept | refine Part.sub kM ?_
    | intro _ | dsimp only | (show Part.subb _ _ = _; rfl)

theorem execAcquire_kept {kS s kT : State} {src : TokSrc} (kH : Kept M kS s) (kE : execAcquire src s = .next kT)
    (kM : Within [.mc, .core, .int, .rc, .ptn, .ctx, .i3c] M := by exact Part.sub (by assumption) (by rfl)) :
    Kept M kS kT := by
  unfold execAcquire at kE
  repeat' first | contradiction | (injection kE with kE; subst kE) | split at kE | dsimp only at kE
  repeat' first
    | with_reducible first
      | assumption | apply rcRow_kept | refine Part.sub kM ?_
    | intro _ | dsimp only | (show Part.subb _ _ = _; rfl)

theorem execRelease_kept {kS s kT : State} {src : TokSrc} (kH : Kept M kS s) (kE : execRelease src s = .next kT)
    (kM : Within [.mc, .core, .int, .rc, .ptn, .ctx, .i3c] M := by exact Part.sub (by assumption) (by rfl)) :
    Kept M kS kT := by
  unfold execRelease at kE
  repeat' first | contradiction | (injection kE with kE; subst kE) | split at kE | dsimp only at kE
  repeat' first
    | with_reducible first
      | assumption | apply rcRow_kept | refine Part.sub kM ?_
    | intro _ | dsimp only | (show Part.subb _ _ = _; rfl)

theorem execArrive_kept {kS s kT : State} {src : TokSrc} (kH : Kept M kS s) (kE : execArrive src s = .next kT)
    (kM : Within [.mc, .core, .int, .rc, .ptn, .ctx, .i3c] M := by exact Part.sub (by assumption) (by rfl)) :
    Kept M kS kT := by
  unfold execArrive at kE
  repeat' first | contradiction | (injection kE with kE; subst kE) | split at kE | dsimp only at kE
  repeat' first
    | with_reducible first
      | assumption | apply rcRow_kept | refine Part.sub kM ?_
    | intro _ | dsimp only | (show Part.subb _ _ = _; rfl)

theorem execWaitGen_kept {kS s kT : State} {src : TokSrc} (kH : Kept M kS s) (kE : execWaitGen src s = .next kT)
    (kM : Within [.mc, .core, .int, .rc, .ptn, .ctx, .i3c] M := by exact Part.sub (by assumption) (by rfl)) :
    Kept M kS kT := by
  unfold execWaitGen at kE
  repeat' first | contradiction | (injection kE with kE; subst kE) | split at kE | dsimp only at kE
  repeat' first
    | with_reducible first
      | assumption | apply rcRow_kept | refine Part.sub kM ?_
    | intro _ | dsimp only | (show Part.subb _ _ = _; rfl)

theorem execBarRelease_kept {kS s kT : State} {src : TokSrc} (kH : Kept M kS s) (kE : execBarRelease src s = .next kT)
    (kM : Within [.mc, .core, .int, .rc, .ptn, .ctx, .i3c] M := by exact Part.sub (by assumption) (by rfl)) :
    Kept M kS kT := by
  unfold execBarRelease at kE
  repeat' first | contradiction | (injection kE with kE; subst kE) | split at kE | dsimp only at kE
  repeat' first
    | with_reducible first
      | assumption | apply rcRow_kept | refine Part.sub kM ?_
    | intro _ | dsimp only | (show Part.subb _ _ = _; rfl)

theorem execWaitTimeout_kept {kS s kT : State} {k : Nat} (kH : Kept M kS s) (kE : execWaitTimeout k s = .next kT)
    (kM : Within [.mc, .core, .int, .rc, .ptn, .ctx, .i3c] M := by exact Part.sub (by assumption) (by rfl)) :
    Kept M kS kT := by
  unfold execWaitTimeout at kE
  repeat' first | contradiction | (injection kE with kE; subst kE) | split at kE | dsimp only at kE
  repeat' first
    | with_reducible first
      | assumption | contradiction | apply endWait_kept | apply unblock_kept | refine Kept.of_fst ‹_› ?_
      | refine Kept.of_snd ‹_› ?_ | refine Part.sub kM ?_
    | split | intro _ | dsimp only | (show Part.subb _ _ = _; rfl)

theorem completeReq_kept {kS s : State} {o : OutReq} {r : Reply} (kH : Kept M kS s)
    (kM : Within [.core, .rc, .ctx] M := by exact Part.sub (by assumption) (by rfl)) :
    Kept M kS (completeReq s o r) := by
  unfold completeReq
  repeat' first
    | with_reducible first
      | assumption | contradiction | apply modCtx_kept | apply wake_kept | refine Kept.of_fst ‹_› ?_
      | refine Kept.of_snd ‹_› ?_ | refine Part.sub kM ?_
    | split | intro _ | dsimp only | (show Part.subb _ _ = _; rfl) | (show Membership.mem (γ := List Part) _ _; decide)
    | with_reducible first
      | refine Kept.set_rc ?_ (kM.mem ?_)

theorem staleReply_kept {kS s : State} (kH : Kept M kS s) (kM : Within [.rc] M := by exact Part.sub (by assumption) (by rfl)) :
    Kept M kS (staleReply s) := by
  unfold staleReply
  repeat' first
    | with_reducible first
      | assumption | refine Part.sub kM ?_
    | intro _ | dsimp only | (show Part.subb _ _ = _; rfl) | (show Membership.mem (γ := List Part) _ _; decide)
    | with_reducible first
      | refine Kept.set_rc ?_ (kM.mem ?_)

theorem replyIn_kept {kS s : State} {f : List Byte} (kH : Kept M kS s)
    (kM : Within [.core, .rc, .ctx] M := by exact Part.sub (by assumption) (by rfl)) :
    Kept M kS (replyIn s f) := by
  unfold replyIn
  repeat' first
    | with_reducible first
      | assumption | contradiction | apply completeReq_kept | apply staleReply_kept | refine Kept.of_fst ‹_› ?_
      | refine Kept.of_snd ‹_› ?_ | refine Part.sub kM ?_
    | split | intro _ | dsimp only | (show Part.subb _ _ = _; rfl) | (show Membership.mem (γ := List Part) _ _; decide) | (show restore _ _ _ = _; rfl)
    | with_reducible first
      | refine Kept.set_rc ?_ (kM.mem ?_) | refine Kept.set_ctx ?_ (kM.mem ?_) | refine Kept.upd ?_ kM ?_

theorem execTokenLost_kept {kS s kT : State} {rtag : Nat} (kH : Kept M kS s) (kE : execTokenLost rtag s = .next kT)
    (kM : Within [.mc, .core, .int, .rc, .ptn, .ctx, .i3c] M := by exact Part.sub (by assumption) (by rfl)) :
    Kept M kS kT := by
  unfold execTokenLost at kE
  repeat' first | contradiction | (injection kE with kE; subst kE) | split at kE | dsimp only at kE
  repeat' first
    | with_reducible first
      | assumption | contradiction | apply raise_kept | apply completeReq_kept | refine Kept.of_fst ‹_› ?_
      | refine Kept.of_snd ‹_› ?_ | refine Part.sub kM ?_
    | split | intro _ | dsimp only | (show Part.subb _ _ = _; rfl) | (show Membership.mem (γ := List Part) _ _; decide) | (show restore _ _ _ = _; rfl)
    | with_reducible first
      | refine Kept.set_rc ?_ (kM.mem ?_) | refine Kept.set_ptn ?_ (kM.mem ?_) | refine Kept.set_ctx ?_ (kM.mem ?_)
      | refine Kept.upd ?_ kM ?_

theorem creditIn_kept {kS s : State} {pool count ctx : Nat} (kH : Kept M kS s)
    (kM : Within [.mc, .int, .rc, .ptn, .ctx, .i3c] M := by exact Part.sub (by assumption) (by rfl)) :
    Kept M kS (creditIn s pool count ctx) := by
  unfold creditIn
  repeat' first
    | with_reducible first
      | assumption | apply modPool_kept | apply raise_kept | refine Part.sub kM ?_
    | split | intro _ | dsimp only | (show Part.subb _ _ = _; rfl) | (show Membership.mem (γ := List Part) _ _; decide) | (show restore _ _ _ = _; rfl)
    | with_reducible first
      | refine Kept.set_rc ?_ (kM.mem ?_) | refine Kept.set_ptn ?_ (kM.mem ?_) | refine Kept.set_ctx ?_ (kM.mem ?_)
      | refine Kept.upd ?_ kM ?_

theorem execCreditReceive_kept {kS s kT : State} {port : Nat} {f : List Byte} (kH : Kept M kS s)
    (kE : execCreditReceive port f s = .next kT)
    (kM : Within [.mc, .int, .rc, .ptn, .ctx, .i3c] M := by exact Part.sub (by assumption) (by rfl)) :
    Kept M kS kT := by
  unfold execCreditReceive at kE
  repeat' first | contradiction | (injection kE with kE; subst kE) | split at kE | dsimp only at kE
  repeat' first
    | with_reducible first
      | assumption | apply takeFrame_kept | apply creditIn_kept | refine Part.sub kM ?_
    | intro _ | dsimp only | (show Part.subb _ _ = _; rfl)

theorem execStatusFrameSend_kept {kS s kT : State} {ptn : Option Nat} (kH : Kept M kS s)
    (kE : execStatusFrameSend ptn s = .next kT) (kM : Within [.rc] M := by exact Part.sub (by assumption) (by rfl)) :
    Kept M kS kT := by
  unfold execStatusFrameSend at kE
  repeat' first | contradiction | (injection kE with kE; subst kE) | split at kE | dsimp only at kE
  repeat' first
    | with_reducible first
      | assumption | contradiction | apply forEach_kept | apply syncSend_kept | refine Kept.of_fst ‹_› ?_
      | refine Kept.of_snd ‹_› ?_ | refine Part.sub kM ?_
    | split | intro _ | dsimp only | (show Part.subb _ _ = _; rfl) | (show Membership.mem (γ := List Part) _ _; decide)
    | with_reducible first
      | refine Kept.set_rc ?_ (kM.mem ?_)

theorem execStatusFrameReceive_kept {kS s kT : State} {port : Nat} {f : List Byte} (kH : Kept M kS s)
    (kE : execStatusFrameReceive port f s = .next kT)
    (kM : Within [.mc, .int, .rc, .ptn, .ctx, .bell, .i3c] M := by exact Part.sub (by assumption) (by rfl)) :
    Kept M kS kT := by
  unfold execStatusFrameReceive at kE
  repeat' first | contradiction | (injection kE with kE; subst kE) | split at kE | dsimp only at kE
  repeat' first
    | with_reducible first
      | assumption | apply forEach_kept | apply raise_kept | apply takeFrame_kept | refine Part.sub kM ?_
    | split | intro _ | dsimp only | (show Part.subb _ _ = _; rfl) | (show Membership.mem (γ := List Part) _ _; decide) | (show restore _ _ _ = _; rfl)
    | with_reducible first
      | refine Kept.set_rc ?_ (kM.mem ?_) | refine Kept.set_ptn ?_ (kM.mem ?_) | refine Kept.set_bell ?_ (kM.mem ?_)
      | refine Kept.upd ?_ kM ?_

theorem abortOut_kept {kS s : State} {f : OutReq → Bool} (kH : Kept M kS s)
    (kM : Within [.core, .rc, .ctx] M := by exact Part.sub (by assumption) (by rfl)) :
    Kept M kS (abortOut s f) := by
  unfold abortOut
  repeat' first
    | with_reducible first
      | assumption | apply forEach_kept | apply completeReq_kept | refine Part.sub kM ?_
    | intro _ | dsimp only | (show Part.subb _ _ = _; rfl)

theorem execEpochReceive_kept {kS s kT : State} {port : Nat} {f : List Byte} (kH : Kept M kS s)
    (kE : execEpochReceive port f s = .next kT) (kM : Within [.core, .rc, .ctx] M := by exact Part.sub (by assumption) (by rfl)) :
    Kept M kS kT := by
  unfold execEpochReceive at kE
  repeat' first | contradiction | (injection kE with kE; subst kE) | split at kE | dsimp only at kE
  repeat' first
    | with_reducible first
      | assumption | apply takeFrame_kept | apply abortOut_kept | refine Part.sub kM ?_
    | intro _ | dsimp only | (show Part.subb _ _ = _; rfl) | (show Membership.mem (γ := List Part) _ _; decide)
    | with_reducible first
      | refine Kept.set_rc ?_ (kM.mem ?_)

theorem execSyncFrameForward_kept {kS s kT : State} {port : Nat} {f : List Byte} (kH : Kept M kS s)
    (kE : execSyncFrameForward port f s = .next kT)
    (kM : Within [.mc, .int, .rc, .ptn, .ctx, .fab, .i3c] M := by exact Part.sub (by assumption) (by rfl)) :
    Kept M kS kT := by
  unfold execSyncFrameForward at kE
  repeat' first | contradiction | (injection kE with kE; subst kE) | split at kE | dsimp only at kE
  repeat' first
    | with_reducible first
      | assumption | contradiction | apply raise_kept | apply syncSend_kept | apply dropRes_kept | apply takeFrame_kept
      | refine Kept.of_fst ‹_› ?_ | refine Kept.of_snd ‹_› ?_ | refine Part.sub kM ?_
    | split | intro _ | dsimp only | (show Part.subb _ _ = _; rfl) | (show Membership.mem (γ := List Part) _ _; decide)
    | with_reducible first
      | refine Kept.set_fab ?_ (kM.mem ?_)

theorem execSlvRc_kept {kS s kT : State} {core thr rd rs1 rs2 : Nat} (kH : Kept M kS s)
    (kE : execSlvRc core thr rd rs1 rs2 s = .next kT)
    (kM : Within [.fresh, .mc, .core, .int, .rc, .ptn, .ctx, .i3c] M := by exact Part.sub (by assumption) (by rfl)) :
    Kept M kS kT := by
  unfold execSlvRc at kE
  repeat' first | contradiction | (injection kE with kE; subst kE) | split at kE | dsimp only at kE
  repeat' first
    | with_reducible first
      | assumption | apply issue_kept | apply slvRc_kept | refine Part.sub kM ?_
    | intro _ | dsimp only | (show Part.subb _ _ = _; rfl)

theorem execSlvBwaitUntil_kept {kS s kT : State} {core thr rd bell : Nat} (kH : Kept M kS s)
    (kE : execSlvBwaitUntil core thr rd bell s = .next kT) (kM : Within [.core] M := by exact Part.sub (by assumption) (by rfl)) :
    Kept M kS kT := by
  unfold execSlvBwaitUntil at kE
  repeat' first | contradiction | (injection kE with kE; subst kE) | split at kE | dsimp only at kE
  repeat' first
    | with_reducible first
      | assumption | apply modThr_kept | apply instrDone_kept | apply issue_kept | refine Part.sub kM ?_
    | split | intro _ | dsimp only | (show Part.subb _ _ = _; rfl)

theorem execBwaitWake_kept {kS s kT : State} {core thr : Nat} (kH : Kept M kS s) (kE : execBwaitWake core thr s = .next kT)
    (kM : Within [.core] M := by exact Part.sub (by assumption) (by rfl)) :
    Kept M kS kT := by
  unfold execBwaitWake at kE
  repeat' first | contradiction | (injection kE with kE; subst kE) | split at kE | dsimp only at kE
  repeat' first
    | with_reducible first
      | assumption | apply bellWake_kept | refine Part.sub kM ?_
    | split | intro _ | dsimp only | (show Part.subb _ _ = _; rfl)

theorem execSlvBwaitSemwait_kept {kS s kT : State} {core thr rd bell rs2 : Nat} (kH : Kept M kS s)
    (kE : execSlvBwaitSemwait core thr rd bell rs2 s = .next kT)
    (kM : Within [.mc, .core, .int, .rc, .ptn, .ctx, .i3c] M := by exact Part.sub (by assumption) (by rfl)) :
    Kept M kS kT := by
  unfold execSlvBwaitSemwait at kE
  repeat' first | contradiction | (injection kE with kE; subst kE) | split at kE | dsimp only at kE
  repeat' first
    | with_reducible first
      | assumption | apply modThr_kept | apply bankOp_kept | apply instrDone_kept | apply issue_kept
      | refine Part.sub kM ?_
    | intro _ | dsimp only | (show Part.subb _ _ = _; rfl)

/-! ### Timetable -/

theorem ttStatus_kept {kS s : State} {p c : Nat} (kH : Kept M kS s)
    (kM : Within [.ptn] M := by exact Part.sub (by assumption) (by rfl)) :
    Kept M kS (ttStatus s p c) := by
  unfold ttStatus
  repeat' first
    | with_reducible first
      | assumption | apply modTt_kept | refine Part.sub kM ?_
    | intro _ | dsimp only | (show Part.subb _ _ = _; rfl)

theorem ttStart_kept {kS s : State} {p : Nat} (kH : Kept M kS s)
    (kM : Within [.ptn] M := by exact Part.sub (by assumption) (by rfl)) :
    Kept M kS (ttStart s p) := by
  unfold ttStart
  repeat' first
    | with_reducible first
      | assumption | contradiction | apply modTt_kept | apply ttStatus_kept | refine Kept.of_fst ‹_› ?_
      | refine Kept.of_snd ‹_› ?_ | refine Part.sub kM ?_
    | split | intro _ | dsimp only | (show Part.subb _ _ = _; rfl)

theorem ttStop_kept {kS s : State} {p : Nat} (kH : Kept M kS s)
    (kM : Within [.ptn] M := by exact Part.sub (by assumption) (by rfl)) :
    Kept M kS (ttStop s p) := by
  unfold ttStop
  repeat' first
    | with_reducible first
      | assumption | apply stopTt_kept | apply ttStatus_kept | refine Part.sub kM ?_
    | split | intro _ | dsimp only | (show Part.subb _ _ = _; rfl)

theorem ttResume_kept {kS s : State} {p : Nat} (kH : Kept M kS s)
    (kM : Within [.ptn] M := by exact Part.sub (by assumption) (by rfl)) :
    Kept M kS (ttResume s p) := by
  unfold ttResume
  repeat' first
    | with_reducible first
      | assumption | contradiction | apply modTt_kept | apply ttStatus_kept | refine Kept.of_fst ‹_› ?_
      | refine Kept.of_snd ‹_› ?_ | refine Part.sub kM ?_
    | split | intro _ | dsimp only | (show Part.subb _ _ = _; rfl)

theorem ttCmd_kept {kS s : State} {p word : Nat} (kH : Kept M kS s)
    (kM : Within [.ptn] M := by exact Part.sub (by assumption) (by rfl)) :
    Kept M kS (ttCmd s p word) := by
  unfold ttCmd
  repeat' first
    | with_reducible first
      | assumption | contradiction | apply ttStatus_kept | apply ttStart_kept | apply ttStop_kept | apply ttResume_kept
      | refine Kept.of_fst ‹_› ?_ | refine Kept.of_snd ‹_› ?_ | refine Part.sub kM ?_
    | split | intro _ | dsimp only | (show Part.subb _ _ = _; rfl)

theorem ttRow_kept {kS s : State} {who : Req} {p op : Nat} {bell : Nat} (kH : Kept M kS s)
    (kM : Within [.ptn] M := by exact Part.sub (by assumption) (by rfl)) :
    Kept M kS (ttRow s who p op bell) := by
  unfold ttRow
  repeat' first
    | with_reducible first
      | assumption | apply modTt_kept | apply ttCmd_kept | refine Part.sub kM ?_
    | split | intro _ | dsimp only | (show Part.subb _ _ = _; rfl)

theorem execTtStart_kept {kS s kT : State} {who : Req} {p bell : Nat} (kH : Kept M kS s)
    (kE : execTtStart who p bell s = .next kT) (kM : Within [.ptn] M := by exact Part.sub (by assumption) (by rfl)) :
    Kept M kS kT := by
  unfold execTtStart at kE
  repeat' first | contradiction | (injection kE with kE; subst kE) | split at kE | dsimp only at kE
  repeat' first
    | with_reducible first
      | assumption | apply ttRow_kept | refine Part.sub kM ?_
    | intro _ | dsimp only | (show Part.subb _ _ = _; rfl)

theorem execTtStop_kept {kS s kT : State} {who : Req} {p : Nat} (kH : Kept M kS s) (kE : execTtStop who p s = .next kT)
    (kM : Within [.ptn] M := by exact Part.sub (by assumption) (by rfl)) :
    Kept M kS kT := by
  unfold execTtStop at kE
  repeat' first | contradiction | (injection kE with kE; subst kE) | split at kE | dsimp only at kE
  repeat' first
    | with_reducible first
      | assumption | apply ttCmd_kept | refine Part.sub kM ?_
    | split | intro _ | dsimp only | (show Part.subb _ _ = _; rfl)

theorem execTtResume_kept {kS s kT : State} {who : Req} {p bell : Nat} (kH : Kept M kS s)
    (kE : execTtResume who p bell s = .next kT) (kM : Within [.ptn] M := by exact Part.sub (by assumption) (by rfl)) :
    Kept M kS kT := by
  unfold execTtResume at kE
  repeat' first | contradiction | (injection kE with kE; subst kE) | split at kE | dsimp only at kE
  repeat' first
    | with_reducible first
      | assumption | apply ttRow_kept | refine Part.sub kM ?_
    | intro _ | dsimp only | (show Part.subb _ _ = _; rfl)

theorem slotSems_kept {kS s : State} {p : Nat} {k : Slot} (kH : Kept M kS s)
    (kM : Within [.mc, .core, .int, .rc, .ptn, .ctx, .i3c] M := by exact Part.sub (by assumption) (by rfl)) :
    Kept M kS (slotSems s p k) := by
  unfold slotSems
  repeat' first
    | with_reducible first
      | assumption | apply modSem_kept | apply threadAdd_kept | refine Part.sub kM ?_
    | split | intro _ | dsimp only | (show Part.subb _ _ = _; rfl)

theorem openSlot_kept {kS s : State} {p i : Nat} {y : Timetable} (kH : Kept M kS s)
    (kM : Within [.mc, .core, .int, .rc, .ptn, .ctx, .i3c] M := by exact Part.sub (by assumption) (by rfl)) :
    Kept M kS (openSlot s p i y) := by
  unfold openSlot
  repeat' first
    | with_reducible first
      | assumption | apply modTt_kept | apply slotSems_kept | refine Part.sub kM ?_
    | intro _ | dsimp only | (show Part.subb _ _ = _; rfl)

theorem overrun_kept {kS s : State} {p : Nat} {o : OpenSlot} (kH : Kept M kS s)
    (kM : Within [.mc, .int, .ptn, .ctx, .i3c] M := by exact Part.sub (by assumption) (by rfl)) :
    Kept M kS (overrun s p o) := by
  unfold overrun
  repeat' first
    | with_reducible first
      | assumption | contradiction | apply modTt_kept | apply raise_kept | apply heldIfDone_kept
      | refine Kept.of_fst ‹_› ?_ | refine Kept.of_snd ‹_› ?_ | refine Part.sub kM ?_
    | split | intro _ | dsimp only | (show Part.subb _ _ = _; rfl)

theorem abortLesson_kept {kS s : State} {p : Nat} (kH : Kept M kS s)
    (kM : Within [.ptn] M := by exact Part.sub (by assumption) (by rfl)) :
    Kept M kS (abortLesson s p) := by
  unfold abortLesson
  repeat' first
    | with_reducible first
      | assumption | apply modTt_kept | refine Part.sub kM ?_
    | split | intro _ | dsimp only | (show Part.subb _ _ = _; rfl)

theorem forgetCloses_kept {kS s : State} {p : Nat} (kH : Kept M kS s)
    (kM : Within [.ctx] M := by exact Part.sub (by assumption) (by rfl)) :
    Kept M kS (forgetCloses s p) := by
  unfold forgetCloses
  repeat' first
    | with_reducible first
      | assumption | apply forEach_kept | apply modCtx_kept | refine Part.sub kM ?_
    | intro _ | dsimp only | (show Part.subb _ _ = _; rfl)

theorem execTimetableBegin_kept {kS s kT : State} {p : Nat} (kH : Kept M kS s) (kE : execTimetableBegin p s = .next kT)
    (kM : Within [.ptn, .ctx] M := by exact Part.sub (by assumption) (by rfl)) :
    Kept M kS kT := by
  unfold execTimetableBegin at kE
  repeat' first | contradiction | (injection kE with kE; subst kE) | split at kE | dsimp only at kE
  repeat' first
    | with_reducible first
      | assumption | apply modTt_kept | apply forgetCloses_kept | refine Part.sub kM ?_
    | split | intro _ | dsimp only | (show Part.subb _ _ = _; rfl)

end Sys2Proof.Machine
end

