-- ==== Sys2Proof/Laws/KeptArray.lean ====
section
/-! SUPPORT. What no operation of the module does (Kept, Laws/Kept.lean), one lemma for each function that changes the state:
the two arrays. -/

namespace Sys2Proof.Machine

set_option Elab.async false

variable {M : List Part}

/-! ### Array -/

theorem failWith_kept {kS s : State} {i : Issuer} {c : FaultCode} {detail : List Byte} (kH : Kept M kS s)
    (kM : Within [.mc, .int, .ptn, .ctx, .i3c] M := by exact Part.sub (by assumption) (by rfl)) :
    Kept M kS (failWith s i c detail).1 := by
  unfold failWith
  repeat' first
    | with_reducible first
      | assumption | apply raise_kept | refine Part.sub kM ?_
    | intro _ | dsimp only | (show Part.subb _ _ = _; rfl)

theorem andThen_kept {kS : State} {α : Type} {r : State × Except CmdEnd α} {f : State → α → Run} (h : Kept M kS r.1)
    (hf : ∀ s x, Kept M kS s → Kept M kS (f s x).1) : Kept M kS (andThen r f).1 := by
  unfold andThen
  split
  · exact hf _ _ h
  · exact h

theorem stopWith_kept {kS s : State} {α : Type} {i : Issuer} {c : FaultCode} {detail : List Byte} (kH : Kept M kS s)
    (kM : Within [.mc, .int, .ptn, .ctx, .i3c] M := by exact Part.sub (by assumption) (by rfl)) :
    Kept M kS (stopWith (α := α) s i c detail).1 := by
  unfold stopWith
  repeat' first
    | with_reducible first
      | assumption | apply raise_kept | refine Part.sub kM ?_
    | intro _ | dsimp only | (show Part.subb _ _ = _; rfl)

theorem collect_kept {kS : State} {α β : Type} {f : State → α → State × Except CmdEnd β}
    (hf : ∀ s x, Kept M kS s → Kept M kS (f s x).1) : ∀ {xs : List α} {s : State}, Kept M kS s → Kept M kS (collect f s xs).1
  | [], _, h => h
  | x :: xs, s, h => by
    unfold collect
    have h1 := hf s x h
    split
    · rename_i e; rw [e] at h1; exact h1
    · rename_i s1 y e
      rw [e] at h1
      have h2 := collect_kept hf (xs := xs) h1
      split
      · rename_i e2; rw [e2] at h2; exact h2
      · rename_i e2; rw [e2] at h2; exact h2

theorem fetch_kept {kS s : State} {i : Issuer} {ga n : Nat} (kH : Kept M kS s)
    (kM : Within [.mem, .memErr, .tags, .resv, .mc, .core, .int, .ptn, .ctx, .i3c] M := by exact Part.sub (by assumption) (by rfl)) :
    Kept M kS (fetch s i ga n).1 := by
  unfold fetch
  repeat' first
    | with_reducible first
      | assumption | contradiction | apply readAs_kept | refine Kept.of_fst ‹_› ?_ | refine Kept.of_snd ‹_› ?_
      | refine Part.sub kM ?_
    | split | intro _ | dsimp only | (show Part.subb _ _ = _; rfl)

theorem fetchTile_kept {kS s : State} {i : Issuer} {ga : Nat} (kH : Kept M kS s)
    (kM : Within [.mem, .memErr, .tags, .resv, .mc, .core, .int, .ptn, .ctx, .i3c] M := by exact Part.sub (by assumption) (by rfl)) :
    Kept M kS (fetchTile s i ga).1 := by
  unfold fetchTile
  repeat' first
    | with_reducible first
      | assumption | contradiction | apply fetch_kept | refine Kept.of_fst ‹_› ?_ | refine Kept.of_snd ‹_› ?_
      | refine Part.sub kM ?_
    | split | intro _ | dsimp only | (show Part.subb _ _ = _; rfl)

theorem stage_kept {kS s : State} {i : Issuer} {up : ArrayUpset} {ga : Nat} {bs : List Byte} (kH : Kept M kS s)
    (kM : Within [.mc, .core, .int, .ptn, .ctx, .i3c] M := by exact Part.sub (by assumption) (by rfl)) :
    Kept M kS (stage s i up ga bs).1 := by
  unfold stage
  repeat' first
    | with_reducible first
      | assumption | contradiction | apply modCore_kept | apply stopWith_kept | refine Kept.of_fst ‹_› ?_
      | refine Kept.of_snd ‹_› ?_ | refine Part.sub kM ?_
    | split | intro _ | dsimp only | (show Part.subb _ _ = _; rfl)

theorem stageFetched_kept {kS s : State} {i : Issuer} {up : ArrayUpset} {ga : Nat} {z0 : Fetched} (kH : Kept M kS s)
    (kM : Within [.mc, .core, .int, .ptn, .ctx, .i3c] M := by exact Part.sub (by assumption) (by rfl)) :
    Kept M kS (stageFetched s i up ga z0).1 := by
  unfold stageFetched
  repeat' first
    | with_reducible first
      | assumption | contradiction | apply stopWith_kept | apply stage_kept | refine Kept.of_fst ‹_› ?_
      | refine Kept.of_snd ‹_› ?_ | refine Part.sub kM ?_
    | split | intro _ | dsimp only | (show Part.subb _ _ = _; rfl)

theorem fetchStage_kept {kS s : State} {i : Issuer} {up : ArrayUpset} {ga : Nat} (kH : Kept M kS s)
    (kM : Within [.mem, .memErr, .tags, .resv, .mc, .core, .int, .ptn, .ctx, .i3c] M := by exact Part.sub (by assumption) (by rfl)) :
    Kept M kS (fetchStage s i up ga).1 := by
  unfold fetchStage
  repeat' first
    | with_reducible first
      | assumption | contradiction | apply fetchTile_kept | apply stageFetched_kept | refine Kept.of_fst ‹_› ?_
      | refine Kept.of_snd ‹_› ?_ | refine Part.sub kM ?_
    | split | intro _ | dsimp only | (show Part.subb _ _ = _; rfl)

theorem mismatch_kept {kS s : State} {i : Issuer} {d : Decision} (kH : Kept M kS s)
    (kM : Within [.mc, .core, .int, .ptn, .ctx, .i3c] M := by exact Part.sub (by assumption) (by rfl)) :
    Kept M kS (mismatch s i d).1 := by
  unfold mismatch
  repeat' first
    | with_reducible first
      | assumption | contradiction | apply modCore_kept | apply raise_kept | refine Kept.of_fst ‹_› ?_
      | refine Kept.of_snd ‹_› ?_ | refine Part.sub kM ?_
    | split | intro _ | dsimp only | (show Part.subb _ _ = _; rfl)

theorem residueOf_kept {kS s : State} {i : Issuer} {op : Nat} {up : ArrayUpset} (kH : Kept M kS s)
    (kM : Within [.mc, .int, .ptn, .ctx, .i3c] M := by exact Part.sub (by assumption) (by rfl)) :
    Kept M kS (residueOf s i op up).1 := by
  unfold residueOf
  repeat' first
    | with_reducible first
      | assumption | contradiction | apply raise_kept | refine Kept.of_fst ‹_› ?_ | refine Kept.of_snd ‹_› ?_
      | refine Part.sub kM ?_
    | split | intro _ | dsimp only | (show Part.subb _ _ = _; rfl)

theorem colsumFail_kept {kS s : State} {i : Issuer} {h : Hdr} {addr : Nat} (kH : Kept M kS s)
    (kM : Within [.mc, .int, .ptn, .ctx, .subf, .i3c] M := by exact Part.sub (by assumption) (by rfl)) :
    Kept M kS (colsumFail s i h addr) := by
  unfold colsumFail
  repeat' first
    | with_reducible first
      | assumption | apply forEach_kept | apply modPtn_kept | apply raise_kept | refine Part.sub kM ?_
    | split | intro _ | dsimp only | (show Part.subb _ _ = _; rfl) | (show Membership.mem (γ := List Part) _ _; decide)
    | with_reducible first
      | refine Kept.set_subf ?_ (kM.mem ?_)

theorem putAt_kept {kS s : State} {i : Issuer} {ga : Nat} {bs : List Byte} (kH : Kept M kS s)
    (kM : Within [.mem, .memKey, .memErr, .tags, .resv, .mc, .core, .int, .ptn, .ctx, .i3c] M := by exact Part.sub (by assumption) (by rfl)) :
    Kept M kS (putAt s i ga bs) := by
  unfold putAt
  repeat' first
    | with_reducible first
      | assumption | contradiction | apply writeAs_kept | refine Kept.of_fst ‹_› ?_ | refine Kept.of_snd ‹_› ?_
      | refine Part.sub kM ?_
    | split | intro _ | dsimp only | (show Part.subb _ _ = _; rfl)

theorem addEvents_kept {kS s : State} {es : List (Nat × ConvEvents)} (kH : Kept M kS s)
    (kM : Within [.ctx] M := by exact Part.sub (by assumption) (by rfl)) :
    Kept M kS (addEvents s es) := by
  unfold addEvents
  repeat' first
    | with_reducible first
      | assumption | apply addConv_kept | apply foldl_kept | apply foldl_state_kept | refine Part.sub kM ?_
    | split | intro _ | dsimp only | (show Part.subb _ _ = _; rfl)

/-! ### Images -/

theorem writeUnder_kept {kS s : State} {key : List Byte} {la : Nat} {bs : List Byte} (kH : Kept M kS s)
    (kM : Within [.mem, .memKey, .memErr, .resv, .mc, .int, .ptn, .ctx, .i3c] M := by exact Part.sub (by assumption) (by rfl)) :
    Kept M kS (writeUnder s key la bs) := by
  unfold writeUnder
  repeat' first
    | with_reducible first
      | assumption | contradiction | apply raise_kept | apply writeKey_kept | refine Kept.of_fst ‹_› ?_
      | refine Kept.of_snd ‹_› ?_ | refine Part.sub kM ?_
    | split | intro _ | dsimp only | (show Part.subb _ _ = _; rfl)

theorem writeStg_kept {kS s : State} {p k : Nat} {e : StgEnt} (kH : Kept M kS s)
    (kM : Within [.mem, .memKey, .memErr, .resv] M := by exact Part.sub (by assumption) (by rfl)) :
    Kept M kS (writeStg s p k e) := by
  unfold writeStg
  repeat' first
    | with_reducible first
      | assumption | contradiction | apply writeKey_kept | refine Kept.of_fst ‹_› ?_ | refine Kept.of_snd ‹_› ?_
      | refine Part.sub kM ?_
    | split | intro _ | dsimp only | (show Part.subb _ _ = _; rfl)

/-! ### DArray -/

theorem fetchTiles_kept {kS : State} {i : Issuer}
    (kM : Within [.mem, .memErr, .tags, .resv, .mc, .core, .int, .ptn, .ctx, .i3c] M := by exact Part.sub (by assumption) (by rfl)) : ∀
    {xs : List Nat} {s :
    State}, Kept M kS s → Kept M kS (fetchTiles s i xs).1
  | [], _, h => h
  | x :: xs, s, h => by
    unfold fetchTiles
    have h1 := fetchTiles_kept (Part.sub kM rfl) (i := i) (xs := xs) (fetchTile_kept (i := i) (ga := x) h)
    exact h1

theorem peekGrad_kept {kS s : State} {i : Issuer} {col ga : Nat} (kH : Kept M kS s)
    (kM : Within [.mem, .memErr, .tags, .resv, .mc, .core, .int, .ptn, .ctx, .i3c] M := by exact Part.sub (by assumption) (by rfl)) :
    Kept M kS (peekGrad s i col ga).1 := by
  unfold peekGrad
  repeat' first
    | with_reducible first
      | assumption | contradiction | apply fetch_kept | apply fetchTile_kept | refine Kept.of_fst ‹_› ?_
      | refine Kept.of_snd ‹_› ?_ | refine Part.sub kM ?_
    | split | intro _ | dsimp only | (show Part.subb _ _ = _; rfl)

theorem peekGrads_kept {kS : State} {i : Issuer} {col : Nat}
    (kM : Within [.mem, .memErr, .tags, .resv, .mc, .core, .int, .ptn, .ctx, .i3c] M := by exact Part.sub (by assumption) (by rfl)) : ∀
    {xs : List Nat} {s :
    State}, Kept M kS s → Kept M kS (peekGrads s i col xs).1
  | [], _, h => h
  | x :: xs, s, h => by
    unfold peekGrads
    have h1 := peekGrads_kept (Part.sub kM rfl) (i := i) (col := col) (xs := xs) (peekGrad_kept (i := i) (col := col) (ga := x) h)
    exact h1

theorem fetchOpnds_kept {kS s : State} {i : Issuer} {a : Acd} (kH : Kept M kS s)
    (kM : Within [.mem, .memErr, .tags, .resv, .mc, .core, .int, .ptn, .ctx, .i3c] M := by exact Part.sub (by assumption) (by rfl)) :
    Kept M kS (fetchOpnds s i a).1 := by
  unfold fetchOpnds
  repeat' first
    | with_reducible first
      | assumption | contradiction | apply fetchTile_kept | apply fetchTiles_kept | apply peekGrads_kept
      | refine Kept.of_fst ‹_› ?_ | refine Kept.of_snd ‹_› ?_ | refine Part.sub kM ?_
    | split | intro _ | dsimp only | (show Part.subb _ _ = _; rfl)

theorem fetchStrip_kept {kS s : State} {i : Issuer} {ga : Nat} {h : Option Hdr} (kH : Kept M kS s)
    (kM : Within [.mem, .memErr, .tags, .resv, .mc, .core, .int, .ptn, .ctx, .i3c] M := by exact Part.sub (by assumption) (by rfl)) :
    Kept M kS (fetchStrip s i ga h).1 := by
  unfold fetchStrip
  repeat' first
    | with_reducible first
      | assumption | contradiction | apply fetch_kept | refine Kept.of_fst ‹_› ?_ | refine Kept.of_snd ‹_› ?_
      | refine Part.sub kM ?_
    | split | intro _ | dsimp only | (show Part.subb _ _ = _; rfl)

theorem stripCol_kept {kS s : State} {i : Issuer} {ga col : Nat} (kH : Kept M kS s)
    (kM : Within [.mem, .memErr, .tags, .resv, .mc, .core, .int, .ptn, .ctx, .i3c] M := by exact Part.sub (by assumption) (by rfl)) :
    Kept M kS (stripCol s i ga col).1 := by
  unfold stripCol
  repeat' first
    | with_reducible first
      | assumption | contradiction | apply fetch_kept | refine Kept.of_fst ‹_› ?_ | refine Kept.of_snd ‹_› ?_
      | refine Part.sub kM ?_
    | split | intro _ | dsimp only | (show Part.subb _ _ = _; rfl)

theorem sealTile_kept {kS s : State} {i : Issuer} {up : ArrayUpset} {g : StageRec} {j : Nat} (kH : Kept M kS s)
    (kM : Within [.mem, .memErr, .tags, .resv, .mc, .core, .int, .ptn, .ctx, .i3c] M := by exact Part.sub (by assumption) (by rfl)) :
    Kept M kS (sealTile s i up g j).1 := by
  unfold sealTile
  repeat' first
    | with_reducible first
      | assumption | contradiction | apply stopWith_kept | apply fetchStage_kept | refine Kept.of_fst ‹_› ?_
      | refine Kept.of_snd ‹_› ?_ | refine Part.sub kM ?_
    | split | intro _ | dsimp only | (show Part.subb _ _ = _; rfl)

theorem sealStage_kept {kS s : State} {i : Issuer} {up : ArrayUpset} {g : StageRec} {h : Option Hdr} (kH : Kept M kS s)
    (kM : Within [.mem, .memErr, .tags, .resv, .mc, .core, .int, .ptn, .ctx, .i3c] M := by exact Part.sub (by assumption) (by rfl)) :
    Kept M kS (sealStage s i up g h).1 := by
  unfold sealStage
  repeat' first
    | with_reducible first
      | assumption | contradiction | apply collect_kept | apply stopWith_kept | apply fetchStrip_kept
      | apply sealTile_kept | refine Kept.of_fst ‹_› ?_ | refine Kept.of_snd ‹_› ?_ | refine Part.sub kM ?_
    | split | intro _ | dsimp only | (show Part.subb _ _ = _; rfl)

theorem runSeal_kept {kS s : State} {i : Issuer} {up : ArrayUpset} {ga : Nat} {hd : List Byte} {h : Option Hdr} (kH : Kept M kS s)
    (kM : Within [.mem, .memKey, .memErr, .tags, .resv, .mc, .core, .int, .ptn, .ctx, .i3c] M := by exact Part.sub (by assumption) (by rfl)) :
    Kept M kS (runSeal s i up ga hd h).1 := by
  unfold runSeal
  repeat' first
    | with_reducible first
      | assumption | contradiction | apply modCore_kept | apply putAt_kept | apply addEvents_kept | apply sealStage_kept
      | refine Kept.of_fst ‹_› ?_ | refine Kept.of_snd ‹_› ?_ | refine Part.sub kM ?_
    | split | intro _ | dsimp only | (show Part.subb _ _ = _; rfl)

theorem openStage_kept {kS s : State} {i : Issuer} {up : ArrayUpset} {ga : Nat} {h : Option Hdr} (kH : Kept M kS s)
    (kM : Within [.mem, .memKey, .memErr, .tags, .resv, .mc, .core, .int, .ptn, .ctx, .i3c] M := by exact Part.sub (by assumption) (by rfl)) :
    Kept M kS (openStage s i up ga h).1 := by
  unfold openStage
  repeat' first
    | with_reducible first
      | assumption | contradiction | apply stopWith_kept | apply fetch_kept | apply runSeal_kept
      | refine Kept.of_fst ‹_› ?_ | refine Kept.of_snd ‹_› ?_ | refine Part.sub kM ?_
    | split | intro _ | dsimp only | (show Part.subb _ _ = _; rfl)

theorem mergeRow_kept {kS s : State} {i : Issuer} {a : Acd} {o : OutRow} {vs : List Num} (kH : Kept M kS s)
    (kM : Within [.mem, .memKey, .memErr, .tags, .resv, .mc, .core, .int, .ptn, .ctx, .i3c] M := by exact Part.sub (by assumption) (by rfl)) :
    Kept M kS (mergeRow s i a o vs) := by
  unfold mergeRow
  repeat' first
    | with_reducible first
      | assumption | contradiction | apply raise_kept | apply readAs_kept | apply writeAs_kept
      | refine Kept.of_fst ‹_› ?_ | refine Kept.of_snd ‹_› ?_ | apply foldl_kept | apply foldl_state_kept
      | refine Part.sub kM ?_
    | split | intro _ | dsimp only | (show Part.subb _ _ = _; rfl)

theorem drainRead_kept {kS s : State} {i : Issuer} {up : ArrayUpset} {a : Acd} {t : OutTile} (kH : Kept M kS s)
    (kM : Within [.mem, .memErr, .tags, .resv, .mc, .core, .int, .ptn, .ctx, .i3c] M := by exact Part.sub (by assumption) (by rfl)) :
    Kept M kS (drainRead s i up a t).1 := by
  unfold drainRead
  repeat' first
    | with_reducible first
      | assumption | contradiction | apply stopWith_kept | apply fetch_kept | apply fetchStage_kept
      | refine Kept.of_fst ‹_› ?_ | refine Kept.of_snd ‹_› ?_ | refine Part.sub kM ?_
    | split | intro _ | dsimp only | (show Part.subb _ _ = _; rfl)

theorem drainTile_kept {kS s : State} {i : Issuer} {a : Acd} {st : Option Stat} {t : OutTile} {ys : List (OutRow × List Word)}
    {aux : List Byte} (kH : Kept M kS s)
    (kM : Within [.mem, .memKey, .memErr, .tags, .resv, .mc, .core, .int, .ptn, .ctx, .i3c] M := by exact Part.sub (by assumption) (by rfl)) :
    Kept M kS (drainTile s i a st t ys aux) := by
  unfold drainTile
  repeat' first
    | with_reducible first
      | assumption | contradiction | apply putAt_kept | apply addEvents_kept | apply mergeRow_kept
      | refine Kept.of_fst ‹_› ?_ | refine Kept.of_snd ‹_› ?_ | apply foldl_kept | apply foldl_state_kept
      | refine Part.sub kM ?_
    | split | intro _ | dsimp only | (show Part.subb _ _ = _; rfl)

theorem drainAll_kept {kS s : State} {i : Issuer} {up : ArrayUpset} {a : Acd} {st : Option Stat}
    {tys : List (OutTile × List (OutRow × List Word))} (h : Kept M kS s) (kM : Within [.mem, .memKey, .memErr, .tags, .resv, .mc, .core, .int, .ptn, .ctx, .i3c] M := by exact Part.sub (by assumption) (by rfl)) : Kept M kS (drainAll s i up a st tys).1 := by
  unfold drainAll
  have h1 := collect_kept (f := fun s (x : OutTile × List (OutRow × List Word)) => drainRead s i up a x.1)
    (fun s x h => drainRead_kept (i := i) (up := up) (a := a) (t := x.1) h (Part.sub kM (by rfl))) (xs := tys) h
  split
  · rename_i e; rw [e] at h1; exact h1
  · rename_i e; rw [e] at h1
    exact foldl_state_kept h1 (fun s x h => drainTile_kept h (Part.sub kM (by rfl)))

theorem finish_kept {kS s : State} {i : Issuer} {up : ArrayUpset} {e : QEntry} {a : Acd} {st : Option Stat} {before : Acc}
    {r0 : List AccRow} {decided : Bool} {tys : List (OutTile × List (OutRow × List Word))} (kH : Kept M kS s)
    (kM : Within [.mem, .memKey, .memErr, .tags, .resv, .mc, .core, .int, .ptn, .ctx, .i3c] M := by exact Part.sub (by assumption) (by rfl)) :
    Kept M kS (finish s i up e a st before r0 decided tys).1 := by
  unfold finish
  repeat' first
    | with_reducible first
      | assumption | contradiction | apply modCore_kept | apply failWith_kept | apply mismatch_kept
      | apply residueOf_kept | apply drainAll_kept | refine Kept.of_fst ‹_› ?_ | refine Kept.of_snd ‹_› ?_
      | apply foldl_kept | apply foldl_state_kept | refine Part.sub kM ?_
    | split | intro _ | dsimp only | (show Part.subb _ _ = _; rfl)

theorem setStat_kept {kS s : State} {i : Issuer} {st : Stat} (kH : Kept M kS s)
    (kM : Within [.core] M := by exact Part.sub (by assumption) (by rfl)) :
    Kept M kS (setStat s i st) := by
  unfold setStat
  repeat' first
    | with_reducible first
      | assumption | apply modCore_kept | refine Part.sub kM ?_
    | split | intro _ | dsimp only | (show Part.subb _ _ = _; rfl)

theorem bwdStreams_kept {kS s : State} {i : Issuer} {up : ArrayUpset} {a : Acd} {st : Stat} (kH : Kept M kS s)
    (kM : Within [.mem, .memKey, .memErr, .tags, .resv, .mc, .core, .int, .ptn, .ctx, .i3c] M := by exact Part.sub (by assumption) (by rfl)) :
    Kept M kS (bwdStreams s i up a st).1 := by
  unfold bwdStreams
  repeat' first
    | with_reducible first
      | assumption | contradiction | apply collect_kept | apply stopWith_kept | apply fetchStage_kept
      | apply stripCol_kept | apply openStage_kept | refine Kept.of_fst ‹_› ?_ | refine Kept.of_snd ‹_› ?_
      | refine Part.sub kM ?_
    | split | intro _ | dsimp only | (show Part.subb _ _ = _; rfl)

theorem fetchColsum_kept {kS s : State} {i : Issuer} {t : Tile} (kH : Kept M kS s)
    (kM : Within [.mem, .memErr, .tags, .resv, .mc, .core, .int, .ptn, .ctx, .subf, .i3c] M := by exact Part.sub (by assumption) (by rfl)) :
    Kept M kS (fetchColsum s i t).1 := by
  unfold fetchColsum
  repeat' first
    | with_reducible first
      | assumption | contradiction | apply fetch_kept | apply colsumFail_kept | refine Kept.of_fst ‹_› ?_
      | refine Kept.of_snd ‹_› ?_ | refine Part.sub kM ?_
    | split | intro _ | dsimp only | (show Part.subb _ _ = _; rfl)

theorem formSums_kept {kS s : State} {i : Issuer} {up : ArrayUpset} {a : Acd} {st : Stat} {tiles : List Tile} (kH : Kept M kS s)
    (kM : Within [.mem, .memErr, .tags, .resv, .mc, .core, .int, .ptn, .ctx, .subf, .i3c] M := by exact Part.sub (by assumption) (by rfl)) :
    Kept M kS (formSums s i up a st tiles).1 := by
  unfold formSums
  repeat' first
    | with_reducible first
      | assumption | contradiction | apply modCore_kept | apply fetchColsum_kept | refine Kept.of_fst ‹_› ?_
      | refine Kept.of_snd ‹_› ?_ | refine Part.sub kM ?_
    | split | intro _ | dsimp only | (show Part.subb _ _ = _; rfl)

theorem settle_kept {kS s : State} {i : Issuer} {up : ArrayUpset} {e : QEntry} {a : Acd} {st : Stat}
    {accepted : Option (List AccRow)} {f : Formed} (kH : Kept M kS s)
    (kM : Within [.mem, .memKey, .memErr, .tags, .resv, .mc, .core, .int, .ptn, .ctx, .i3c] M := by exact Part.sub (by assumption) (by rfl)) :
    Kept M kS (settle s i up e a st accepted f).1 := by
  unfold settle
  repeat' first
    | with_reducible first
      | assumption | contradiction | apply modCore_kept | apply mismatch_kept | apply finish_kept
      | refine Kept.of_fst ‹_› ?_ | refine Kept.of_snd ‹_› ?_ | refine Part.sub kM ?_
    | split | intro _ | dsimp only | (show Part.subb _ _ = _; rfl)

theorem runProduct_kept {kS s : State} {i : Issuer} {up : ArrayUpset} {e : QEntry} {a : Acd} {st : Stat} {o : Opnds}
    {accepted : Option (List AccRow)} (kH : Kept M kS s)
    (kM : Within [.mem, .memKey, .memErr, .tags, .resv, .mc, .core, .int, .ptn, .ctx, .subf, .i3c] M := by exact Part.sub (by assumption) (by rfl)) :
    Kept M kS (runProduct s i up e a st o accepted).1 := by
  unfold runProduct
  repeat' first
    | with_reducible first
      | assumption | contradiction | apply collect_kept | apply modCore_kept | apply andThen_kept
      | apply stageFetched_kept | apply bwdStreams_kept | apply formSums_kept | apply settle_kept
      | refine Kept.of_fst ‹_› ?_ | refine Kept.of_snd ‹_› ?_ | refine Part.sub kM ?_
    | split | intro _ | dsimp only | (show Part.subb _ _ = _; rfl)

theorem loadAndRun_kept {kS s : State} {i : Issuer} {up : ArrayUpset} {e : QEntry} {a : Acd} {o : Opnds}
    {accepted : Option (List AccRow)} (kH : Kept M kS s)
    (kM : Within [.mem, .memKey, .memErr, .tags, .resv, .mc, .core, .int, .ptn, .ctx, .subf, .i3c] M := by exact Part.sub (by assumption) (by rfl)) :
    Kept M kS (loadAndRun s i up e a o accepted).1 := by
  unfold loadAndRun
  repeat' first
    | with_reducible first
      | assumption | contradiction | apply modCore_kept | apply failWith_kept | apply andThen_kept
      | apply stageFetched_kept | apply setStat_kept | apply runProduct_kept | refine Kept.of_fst ‹_› ?_
      | refine Kept.of_snd ‹_› ?_ | refine Part.sub kM ?_
    | split | intro _ | dsimp only | (show Part.subb _ _ = _; rfl)

theorem runQuant_kept {kS s : State} {i : Issuer} {up : ArrayUpset} {e : QEntry} {a : Acd} {o : Opnds} {decided : Bool}
    (kH : Kept M kS s)
    (kM : Within [.mem, .memKey, .memErr, .tags, .resv, .mc, .core, .int, .ptn, .ctx, .i3c] M := by exact Part.sub (by assumption) (by rfl)) :
    Kept M kS (runQuant s i up e a o decided).1 := by
  unfold runQuant
  repeat' first
    | with_reducible first
      | assumption | contradiction | apply collect_kept | apply failWith_kept | apply andThen_kept | apply stopWith_kept
      | apply fetch_kept | apply stageFetched_kept | apply mismatch_kept | apply residueOf_kept | apply putAt_kept
      | apply addEvents_kept | refine Kept.of_fst ‹_› ?_ | refine Kept.of_snd ‹_› ?_ | apply foldl_kept
      | apply foldl_state_kept | refine Part.sub kM ?_
    | split | intro _ | dsimp only | (show Part.subb _ _ = _; rfl)

theorem runColsum_kept {kS s : State} {i : Issuer} {up : ArrayUpset} {a : Acd} {o : Opnds} (kH : Kept M kS s)
    (kM : Within [.mem, .memKey, .memErr, .tags, .resv, .mc, .core, .int, .ptn, .ctx, .subf, .i3c] M := by exact Part.sub (by assumption) (by rfl)) :
    Kept M kS (runColsum s i up a o).1 := by
  unfold runColsum
  repeat' first
    | with_reducible first
      | assumption | contradiction | apply failWith_kept | apply andThen_kept | apply fetch_kept
      | apply stageFetched_kept | apply putAt_kept | refine Kept.of_fst ‹_› ?_ | refine Kept.of_snd ‹_› ?_
      | refine Part.sub kM ?_
    | split | intro _ | dsimp only | (show Part.subb _ _ = _; rfl) | (show Membership.mem (γ := List Part) _ _; decide)
    | with_reducible first
      | refine Kept.set_subf ?_ (kM.mem ?_)

theorem runNode_kept {kS s : State} {i : Issuer} {up : ArrayUpset} {e : QEntry} {a : Acd} {o : Opnds}
    {accepted : Option (List AccRow)} (kH : Kept M kS s)
    (kM : Within [.mem, .memKey, .memErr, .tags, .resv, .mc, .core, .int, .ptn, .ctx, .i3c] M := by exact Part.sub (by assumption) (by rfl)) :
    Kept M kS (runNode s i up e a o accepted).1 := by
  unfold runNode
  repeat' first
    | with_reducible first
      | assumption | apply collect_kept | apply andThen_kept | apply stageFetched_kept | apply finish_kept
      | refine Kept.of_fst ‹_› ?_ | refine Kept.of_snd ‹_› ?_ | refine Part.sub kM ?_
    | intro _ | dsimp only | (show Part.subb _ _ = _; rfl)

theorem runAcd_kept {kS s : State} {up : ArrayUpset} {e : QEntry} {accepted : Option (List AccRow)} (kH : Kept M kS s)
    (kM : Within [.mem, .memKey, .memErr, .tags, .resv, .mc, .core, .int, .ptn, .ctx, .subf, .i3c] M := by exact Part.sub (by assumption) (by rfl)) :
    Kept M kS (runAcd s up e accepted).1 := by
  unfold runAcd
  repeat' first
    | with_reducible first
      | assumption | contradiction | apply failWith_kept | apply fetchOpnds_kept | apply loadAndRun_kept
      | apply runQuant_kept | apply runColsum_kept | apply runNode_kept | refine Kept.of_fst ‹_› ?_
      | refine Kept.of_snd ‹_› ?_ | refine Part.sub kM ?_
    | split | intro _ | dsimp only | (show Part.subb _ _ = _; rfl)

theorem endAcd_kept {kS : State} {r : Run} {n : Nat} {e : QEntry} (kH : Kept M kS r.1)
    (kM : Within [.mc, .core, .int, .rc, .ptn, .ctx, .i3c] M := by exact Part.sub (by assumption) (by rfl)) :
    Kept M kS (endAcd n e r) := by
  unfold endAcd
  repeat' first
    | with_reducible first
      | assumption | contradiction | apply modCore_kept | apply doneAdd_kept | refine Kept.of_fst ‹_› ?_
      | refine Kept.of_snd ‹_› ?_ | refine Part.sub kM ?_
    | split | intro _ | dsimp only | (show Part.subb _ _ = _; rfl)

theorem startAcd_kept {kS s : State} {n op : Nat} {up : ArrayUpset} (kH : Kept M kS s)
    (kM : Within [.mem, .memKey, .memErr, .tags, .resv, .mc, .core, .int, .rc, .ptn, .ctx, .subf, .i3c] M := by exact Part.sub (by assumption) (by rfl)) :
    Kept M kS (startAcd s n op up) := by
  unfold startAcd
  repeat' first
    | with_reducible first
      | assumption | contradiction | apply modCore_kept | apply runAcd_kept | apply endAcd_kept
      | refine Kept.of_fst ‹_› ?_ | refine Kept.of_snd ‹_› ?_ | refine Part.sub kM ?_
    | split | intro _ | dsimp only | (show Part.subb _ _ = _; rfl)

theorem execFwdW4a8_kept {kS s kT : State} {core : Nat} {up : ArrayUpset} (kH : Kept M kS s)
    (kE : execFwdW4a8 core up s = .next kT)
    (kM : Within [.mem, .memKey, .memErr, .tags, .resv, .mc, .core, .int, .rc, .ptn, .ctx, .subf, .i3c] M := by exact Part.sub (by assumption) (by rfl)) :
    Kept M kS kT := by
  unfold execFwdW4a8 at kE
  repeat' first | contradiction | (injection kE with kE; subst kE) | split at kE | dsimp only at kE
  repeat' first
    | with_reducible first
      | assumption | apply startAcd_kept | refine Part.sub kM ?_
    | intro _ | dsimp only | (show Part.subb _ _ = _; rfl)

theorem execBwdG8w4_kept {kS s kT : State} {core : Nat} {up : ArrayUpset} (kH : Kept M kS s)
    (kE : execBwdG8w4 core up s = .next kT)
    (kM : Within [.mem, .memKey, .memErr, .tags, .resv, .mc, .core, .int, .rc, .ptn, .ctx, .subf, .i3c] M := by exact Part.sub (by assumption) (by rfl)) :
    Kept M kS kT := by
  unfold execBwdG8w4 at kE
  repeat' first | contradiction | (injection kE with kE; subst kE) | split at kE | dsimp only at kE
  repeat' first
    | with_reducible first
      | assumption | apply startAcd_kept | refine Part.sub kM ?_
    | intro _ | dsimp only | (show Part.subb _ _ = _; rfl)

theorem execMmA8a8_kept {kS s kT : State} {core : Nat} {up : ArrayUpset} (kH : Kept M kS s) (kE : execMmA8a8 core up s = .next kT)
    (kM : Within [.mem, .memKey, .memErr, .tags, .resv, .mc, .core, .int, .rc, .ptn, .ctx, .subf, .i3c] M := by exact Part.sub (by assumption) (by rfl)) :
    Kept M kS kT := by
  unfold execMmA8a8 at kE
  repeat' first | contradiction | (injection kE with kE; subst kE) | split at kE | dsimp only at kE
  repeat' first
    | with_reducible first
      | assumption | apply startAcd_kept | refine Part.sub kM ?_
    | intro _ | dsimp only | (show Part.subb _ _ = _; rfl)

theorem execMmOz16_kept {kS s kT : State} {core : Nat} {up : ArrayUpset} (kH : Kept M kS s) (kE : execMmOz16 core up s = .next kT)
    (kM : Within [.mem, .memKey, .memErr, .tags, .resv, .mc, .core, .int, .rc, .ptn, .ctx, .subf, .i3c] M := by exact Part.sub (by assumption) (by rfl)) :
    Kept M kS kT := by
  unfold execMmOz16 at kE
  repeat' first | contradiction | (injection kE with kE; subst kE) | split at kE | dsimp only at kE
  repeat' first
    | with_reducible first
      | assumption | apply startAcd_kept | refine Part.sub kM ?_
    | intro _ | dsimp only | (show Part.subb _ _ = _; rfl)

theorem execQuant_kept {kS s kT : State} {core : Nat} {up : ArrayUpset} (kH : Kept M kS s) (kE : execQuant core up s = .next kT)
    (kM : Within [.mem, .memKey, .memErr, .tags, .resv, .mc, .core, .int, .rc, .ptn, .ctx, .subf, .i3c] M := by exact Part.sub (by assumption) (by rfl)) :
    Kept M kS kT := by
  unfold execQuant at kE
  repeat' first | contradiction | (injection kE with kE; subst kE) | split at kE | dsimp only at kE
  repeat' first
    | with_reducible first
      | assumption | apply startAcd_kept | refine Part.sub kM ?_
    | intro _ | dsimp only | (show Part.subb _ _ = _; rfl)

theorem execColsumBuild_kept {kS s kT : State} {core : Nat} {up : ArrayUpset} (kH : Kept M kS s)
    (kE : execColsumBuild core up s = .next kT)
    (kM : Within [.mem, .memKey, .memErr, .tags, .resv, .mc, .core, .int, .rc, .ptn, .ctx, .subf, .i3c] M := by exact Part.sub (by assumption) (by rfl)) :
    Kept M kS kT := by
  unfold execColsumBuild at kE
  repeat' first | contradiction | (injection kE with kE; subst kE) | split at kE | dsimp only at kE
  repeat' first
    | with_reducible first
      | assumption | apply startAcd_kept | refine Part.sub kM ?_
    | intro _ | dsimp only | (show Part.subb _ _ = _; rfl)

theorem execNodeAdd_kept {kS s kT : State} {core : Nat} {up : ArrayUpset} (kH : Kept M kS s)
    (kE : execNodeAdd core up s = .next kT)
    (kM : Within [.mem, .memKey, .memErr, .tags, .resv, .mc, .core, .int, .rc, .ptn, .ctx, .subf, .i3c] M := by exact Part.sub (by assumption) (by rfl)) :
    Kept M kS kT := by
  unfold execNodeAdd at kE
  repeat' first | contradiction | (injection kE with kE; subst kE) | split at kE | dsimp only at kE
  repeat' first
    | with_reducible first
      | assumption | apply startAcd_kept | refine Part.sub kM ?_
    | intro _ | dsimp only | (show Part.subb _ _ = _; rfl)

theorem retryAcd_kept {kS s : State} {n : Nat} {up : ArrayUpset} (kH : Kept M kS s)
    (kM : Within [.mem, .memKey, .memErr, .tags, .resv, .mc, .core, .int, .rc, .ptn, .ctx, .subf, .i3c] M := by exact Part.sub (by assumption) (by rfl)) :
    Kept M kS (retryAcd s n up) := by
  unfold retryAcd
  repeat' first
    | with_reducible first
      | assumption | contradiction | apply runAcd_kept | apply endAcd_kept | refine Kept.of_fst ‹_› ?_
      | refine Kept.of_snd ‹_› ?_ | refine Part.sub kM ?_
    | split | intro _ | dsimp only | (show Part.subb _ _ = _; rfl)

theorem deliver_kept {kS s : State} {d : Delivery} {m : Nat} (kH : Kept M kS s)
    (kM : Within [.core] M := by exact Part.sub (by assumption) (by rfl)) :
    Kept M kS (deliver s d m) := by
  unfold deliver
  repeat' first
    | with_reducible first
      | assumption | apply modCore_kept | refine Part.sub kM ?_
    | intro _ | dsimp only | (show Part.subb _ _ = _; rfl)

theorem execRoutedStationaryDelivery_kept {kS s kT : State} {core : Nat} {bad : List Nat} {up : ArrayUpset} (kH : Kept M kS s)
    (kE : execRoutedStationaryDelivery core bad up s = .next kT)
    (kM : Within [.mem, .memKey, .memErr, .tags, .resv, .mc, .core, .int, .rc, .ptn, .ctx, .subf, .i3c] M := by exact Part.sub (by assumption) (by rfl)) :
    Kept M kS kT := by
  unfold execRoutedStationaryDelivery at kE
  repeat' first | contradiction | (injection kE with kE; subst kE) | split at kE | dsimp only at kE
  repeat' first
    | with_reducible first
      | assumption | contradiction | apply forEach_kept | apply fetchTile_kept | apply retryAcd_kept | apply deliver_kept
      | refine Kept.of_fst ‹_› ?_ | refine Kept.of_snd ‹_› ?_ | refine Part.sub kM ?_
    | split | intro _ | dsimp only | (show Part.subb _ _ = _; rfl)

/-! ### WArray -/

theorem readMap_kept {kS s : State} {i : Issuer} {w : Wcd} {t : RowTile} (kH : Kept M kS s)
    (kM : Within [.mem, .memErr, .tags, .resv, .mc, .core, .int, .ptn, .ctx, .i3c] M := by exact Part.sub (by assumption) (by rfl)) :
    Kept M kS (readMap s i w t).1 := by
  unfold readMap
  repeat' first
    | with_reducible first
      | assumption | contradiction | apply fetch_kept | refine Kept.of_fst ‹_› ?_ | refine Kept.of_snd ‹_› ?_
      | refine Part.sub kM ?_
    | split | intro _ | dsimp only | (show Part.subb _ _ = _; rfl)

theorem readMaps_kept {kS : State} {i : Issuer} {w : Wcd}
    (kM : Within [.mem, .memErr, .tags, .resv, .mc, .core, .int, .ptn, .ctx, .i3c] M := by exact Part.sub (by assumption) (by rfl)) : ∀
    {xs : List RowTile} {s :
    State}, Kept M kS s → Kept M kS (readMaps s i w xs).1
  | [], _, h => h
  | x :: xs, s, h => by
    unfold readMaps
    have h1 := readMaps_kept (Part.sub kM rfl) (i := i) (w := w) (xs := xs) (readMap_kept (i := i) (w := w) (t := x) h)
    exact h1

theorem judgeMaps_kept {kS s : State} {i : Issuer} {up : ArrayUpset} {w : Wcd} {ts : List RowTile}
    {maps : List (Option (List Nat))} (kH : Kept M kS s)
    (kM : Within [.mc, .core, .int, .ptn, .ctx, .i3c] M := by exact Part.sub (by assumption) (by rfl)) :
    Kept M kS (judgeMaps s i up w ts maps).1 := by
  unfold judgeMaps
  repeat' first
    | with_reducible first
      | assumption | contradiction | apply forEach_kept | apply modCore_kept | apply stopWith_kept
      | refine Kept.of_fst ‹_› ?_ | refine Kept.of_snd ‹_› ?_ | refine Part.sub kM ?_
    | split | intro _ | dsimp only | (show Part.subb _ _ = _; rfl)

theorem loadPanels_kept {kS s : State} {i : Issuer} {up : ArrayUpset} {w : Wcd} {x : Resolved} (kH : Kept M kS s)
    (kM : Within [.mc, .core, .int, .ptn, .ctx, .i3c] M := by exact Part.sub (by assumption) (by rfl)) :
    Kept M kS (loadPanels s i up w x).1 := by
  unfold loadPanels
  repeat' first
    | with_reducible first
      | assumption | contradiction | apply collect_kept | apply modCore_kept | apply stopWith_kept
      | refine Kept.of_fst ‹_› ?_ | refine Kept.of_snd ‹_› ?_ | refine Part.sub kM ?_
    | split | intro _ | dsimp only | (show Part.subb _ _ = _; rfl)

theorem wDrainRead_kept {kS s : State} {i : Issuer} {up : ArrayUpset} {w : Wcd} {k : Nat} (kH : Kept M kS s)
    (kM : Within [.mem, .memErr, .tags, .resv, .mc, .core, .int, .ptn, .ctx, .i3c] M := by exact Part.sub (by assumption) (by rfl)) :
    Kept M kS (wDrainRead s i up w k).1 := by
  unfold wDrainRead
  repeat' first
    | with_reducible first
      | assumption | contradiction | apply stopWith_kept | apply fetchStage_kept | refine Kept.of_fst ‹_› ?_
      | refine Kept.of_snd ‹_› ?_ | refine Part.sub kM ?_
    | split | intro _ | dsimp only | (show Part.subb _ _ = _; rfl)

theorem wDrain_kept {kS s : State} {i : Issuer} {w : Wcd} {h : Hdr} {k cols shift : Nat} {rows : List WOut} {aux : List Byte}
    (kH : Kept M kS s)
    (kM : Within [.mem, .memKey, .memErr, .tags, .resv, .mc, .core, .int, .ptn, .ctx, .i3c] M := by exact Part.sub (by assumption) (by rfl)) :
    Kept M kS (wDrain s i w h k cols shift rows aux) := by
  unfold wDrain
  repeat' first
    | with_reducible first
      | assumption | contradiction | apply modCore_kept | apply putAt_kept | refine Kept.of_fst ‹_› ?_
      | refine Kept.of_snd ‹_› ?_ | apply foldl_kept | apply foldl_state_kept | refine Part.sub kM ?_
    | split | intro _ | dsimp only | (show Part.subb _ _ = _; rfl)

theorem wDrainAll_kept {kS s : State} {i : Issuer} {up : ArrayUpset} {w : Wcd} {cols shift : Nat}
    {outs : List (RowTile × List WOut)} (h : Kept M kS s) (kM : Within [.mem, .memKey, .memErr, .tags, .resv, .mc, .core, .int, .ptn, .ctx, .i3c] M := by exact Part.sub (by assumption) (by rfl)) : Kept M kS (wDrainAll s i up w cols shift outs).1 := by
  unfold wDrainAll
  have h1 := collect_kept (f := fun s (x : RowTile × List WOut) => wDrainRead s i up w x.1.1)
    (fun s x h => wDrainRead_kept (i := i) (up := up) (w := w) (k := x.1.1) h (Part.sub kM (by rfl))) (xs := outs) h
  split
  · rename_i e; rw [e] at h1; exact h1
  · rename_i e; rw [e] at h1
    exact foldl_state_kept h1 (fun s x h => wDrain_kept h (Part.sub kM (by rfl)))

theorem wProduct_kept {kS s : State} {i : Issuer} {up : ArrayUpset} {e : QEntry} {w : Wcd} {ts : List RowTile}
    {sel : List (SelRow × Resolved)} {rows : List WRow} {accepted : Option (List AccRow)} (kH : Kept M kS s)
    (kM : Within [.mem, .memKey, .memErr, .tags, .resv, .mc, .core, .int, .ptn, .ctx, .i3c] M := by exact Part.sub (by assumption) (by rfl)) :
    Kept M kS (wProduct s i up e w ts sel rows accepted).1 := by
  unfold wProduct
  repeat' first
    | with_reducible first
      | assumption | contradiction | apply modCore_kept | apply mismatch_kept | apply residueOf_kept
      | apply wDrainAll_kept | refine Kept.of_fst ‹_› ?_ | refine Kept.of_snd ‹_› ?_ | refine Part.sub kM ?_
    | split | intro _ | dsimp only | (show Part.subb _ _ = _; rfl)

theorem gradWrite_kept {kS s : State} {i : Issuer} {w : Wcd} {x : Resolved} {g : GradAcc} (kH : Kept M kS s)
    (kM : Within [.mem, .memKey, .memErr, .resv, .mc, .int, .ptn, .ctx, .i3c] M := by exact Part.sub (by assumption) (by rfl)) :
    Kept M kS (gradWrite s i w x g) := by
  unfold gradWrite
  repeat' first
    | with_reducible first
      | assumption | apply writeUnder_kept | apply foldl_kept | apply foldl_state_kept | refine Part.sub kM ?_
    | intro _ | dsimp only | (show Part.subb _ _ = _; rfl)

theorem wGrad_kept {kS s : State} {i : Issuer} {up : ArrayUpset} {e : QEntry} {w : Wcd}
    {pairs : List (SelRow × Resolved × List Half × List Half)} {rs : List Resolved} {accepted : Option (List AccRow)}
    (kH : Kept M kS s)
    (kM : Within [.mem, .memKey, .memErr, .resv, .mc, .core, .int, .ptn, .ctx, .i3c] M := by exact Part.sub (by assumption) (by rfl)) :
    Kept M kS (wGrad s i up e w pairs rs accepted).1 := by
  unfold wGrad
  repeat' first
    | with_reducible first
      | assumption | contradiction | apply modCore_kept | apply mismatch_kept | apply residueOf_kept
      | apply gradWrite_kept | refine Kept.of_fst ‹_› ?_ | refine Kept.of_snd ‹_› ?_ | apply foldl_kept
      | apply foldl_state_kept | refine Part.sub kM ?_
    | split | intro _ | dsimp only | (show Part.subb _ _ = _; rfl)

theorem stageGrad_kept {kS s : State} {i : Issuer} {up : ArrayUpset} {ga nCol : Nat} (kH : Kept M kS s)
    (kM : Within [.mem, .memKey, .memErr, .tags, .resv, .mc, .core, .int, .ptn, .ctx, .i3c] M := by exact Part.sub (by assumption) (by rfl)) :
    Kept M kS (stageGrad s i up ga nCol).1 := by
  unfold stageGrad
  repeat' first
    | with_reducible first
      | assumption | contradiction | apply stopWith_kept | apply fetchStage_kept | apply openStage_kept
      | refine Kept.of_fst ‹_› ?_ | refine Kept.of_snd ‹_› ?_ | refine Part.sub kM ?_
    | split | intro _ | dsimp only | (show Part.subb _ _ = _; rfl)

theorem stageSaved_kept {kS s : State} {i : Issuer} {up : ArrayUpset} {ga kRow : Nat} {g : StageRec} (kH : Kept M kS s)
    (kM : Within [.mem, .memErr, .tags, .resv, .mc, .core, .int, .ptn, .ctx, .i3c] M := by exact Part.sub (by assumption) (by rfl)) :
    Kept M kS (stageSaved s i up ga kRow g).1 := by
  unfold stageSaved
  repeat' first
    | with_reducible first
      | assumption | contradiction | apply stopWith_kept | apply fetchStage_kept | refine Kept.of_fst ‹_› ?_
      | refine Kept.of_snd ‹_› ?_ | refine Part.sub kM ?_
    | split | intro _ | dsimp only | (show Part.subb _ _ = _; rfl)

theorem wChecks_kept {kS s : State} {i : Issuer} {up : ArrayUpset} {w : Wcd} {fit : Hdr → Bool} {fs : List Fetched}
    {accTag : Bool} (kH : Kept M kS s)
    (kM : Within [.mem, .memErr, .tags, .resv, .mc, .core, .int, .ptn, .ctx, .i3c] M := by exact Part.sub (by assumption) (by rfl)) :
    Kept M kS (wChecks s i up w fit fs accTag).1 := by
  unfold wChecks
  repeat' first
    | with_reducible first
      | assumption | contradiction | apply stopWith_kept | apply readMaps_kept | apply judgeMaps_kept
      | refine Kept.of_fst ‹_› ?_ | refine Kept.of_snd ‹_› ?_ | apply getD_kept | refine Part.sub kM ?_
    | split | intro _ | dsimp only | (show Part.subb _ _ = _; rfl)

theorem runWfwd_kept {kS s : State} {i : Issuer} {up : ArrayUpset} {e : QEntry} {w : Wcd} {accepted : Option (List AccRow)}
    (kH : Kept M kS s)
    (kM : Within [.mem, .memKey, .memErr, .tags, .resv, .mc, .core, .int, .ptn, .ctx, .i3c] M := by exact Part.sub (by assumption) (by rfl)) :
    Kept M kS (runWfwd s i up e w accepted).1 := by
  unfold runWfwd
  repeat' first
    | with_reducible first
      | assumption | contradiction | apply collect_kept | apply andThen_kept | apply stageFetched_kept
      | apply fetchTiles_kept | apply loadPanels_kept | apply wProduct_kept | apply wChecks_kept
      | refine Kept.of_fst ‹_› ?_ | refine Kept.of_snd ‹_› ?_ | refine Part.sub kM ?_
    | split | intro _ | dsimp only | (show Part.subb _ _ = _; rfl)

theorem runWdata_kept {kS s : State} {i : Issuer} {up : ArrayUpset} {e : QEntry} {w : Wcd} {accepted : Option (List AccRow)}
    (kH : Kept M kS s)
    (kM : Within [.mem, .memKey, .memErr, .tags, .resv, .mc, .core, .int, .ptn, .ctx, .i3c] M := by exact Part.sub (by assumption) (by rfl)) :
    Kept M kS (runWdata s i up e w accepted).1 := by
  unfold runWdata
  repeat' first
    | with_reducible first
      | assumption | contradiction | apply collect_kept | apply andThen_kept | apply peekGrads_kept
      | apply loadPanels_kept | apply wProduct_kept | apply stageGrad_kept | apply wChecks_kept
      | refine Kept.of_fst ‹_› ?_ | refine Kept.of_snd ‹_› ?_ | refine Part.sub kM ?_
    | split | intro _ | dsimp only | (show Part.subb _ _ = _; rfl)

theorem peekSaved_kept {kS s : State} {i : Issuer} {ga kRow : Nat} (kH : Kept M kS s)
    (kM : Within [.mem, .memErr, .tags, .resv, .mc, .core, .int, .ptn, .ctx, .i3c] M := by exact Part.sub (by assumption) (by rfl)) :
    Kept M kS (peekSaved s i ga kRow).1 := by
  unfold peekSaved
  repeat' first
    | with_reducible first
      | assumption | contradiction | apply fetch_kept | apply fetchTile_kept | refine Kept.of_fst ‹_› ?_
      | refine Kept.of_snd ‹_› ?_ | refine Part.sub kM ?_
    | split | intro _ | dsimp only | (show Part.subb _ _ = _; rfl)

theorem runWgrad_kept {kS s : State} {i : Issuer} {up : ArrayUpset} {e : QEntry} {w : Wcd} {accepted : Option (List AccRow)}
    (kH : Kept M kS s)
    (kM : Within [.mem, .memKey, .memErr, .tags, .resv, .mc, .core, .int, .ptn, .ctx, .i3c] M := by exact Part.sub (by assumption) (by rfl)) :
    Kept M kS (runWgrad s i up e w accepted).1 := by
  unfold runWgrad
  repeat' first
    | with_reducible first
      | assumption | contradiction | apply collect_kept | apply failWith_kept | apply andThen_kept | apply peekGrads_kept
      | apply wGrad_kept | apply stageGrad_kept | apply stageSaved_kept | apply wChecks_kept | apply peekSaved_kept
      | refine Kept.of_fst ‹_› ?_ | refine Kept.of_snd ‹_› ?_ | refine Part.sub kM ?_
    | split | intro _ | dsimp only | (show Part.subb _ _ = _; rfl)

theorem runWcd_kept {kS s : State} {up : ArrayUpset} {e : QEntry} {accepted : Option (List AccRow)} (kH : Kept M kS s)
    (kM : Within [.mem, .memKey, .memErr, .tags, .resv, .mc, .core, .int, .ptn, .ctx, .i3c] M := by exact Part.sub (by assumption) (by rfl)) :
    Kept M kS (runWcd s up e accepted).1 := by
  unfold runWcd
  repeat' first
    | with_reducible first
      | assumption | contradiction | apply failWith_kept | apply runWfwd_kept | apply runWdata_kept | apply runWgrad_kept
      | refine Kept.of_fst ‹_› ?_ | refine Kept.of_snd ‹_› ?_ | refine Part.sub kM ?_
    | split | intro _ | dsimp only | (show Part.subb _ _ = _; rfl)

theorem endWcd_kept {kS : State} {r : Run} {n : Nat} {e : QEntry} (kH : Kept M kS r.1)
    (kM : Within [.mc, .core, .int, .rc, .ptn, .ctx, .i3c] M := by exact Part.sub (by assumption) (by rfl)) :
    Kept M kS (endWcd n e r) := by
  unfold endWcd
  repeat' first
    | with_reducible first
      | assumption | contradiction | apply modCore_kept | apply doneAdd_kept | refine Kept.of_fst ‹_› ?_
      | refine Kept.of_snd ‹_› ?_ | refine Part.sub kM ?_
    | split | intro _ | dsimp only | (show Part.subb _ _ = _; rfl)

theorem startWcd_kept {kS s : State} {n op : Nat} {up : ArrayUpset} (kH : Kept M kS s)
    (kM : Within [.mem, .memKey, .memErr, .tags, .resv, .mc, .core, .int, .rc, .ptn, .ctx, .i3c] M := by exact Part.sub (by assumption) (by rfl)) :
    Kept M kS (startWcd s n op up) := by
  unfold startWcd
  repeat' first
    | with_reducible first
      | assumption | contradiction | apply modCore_kept | apply runWcd_kept | apply endWcd_kept
      | refine Kept.of_fst ‹_› ?_ | refine Kept.of_snd ‹_› ?_ | refine Part.sub kM ?_
    | split | intro _ | dsimp only | (show Part.subb _ _ = _; rfl)

theorem execWfwd_kept {kS s kT : State} {core : Nat} {up : ArrayUpset} (kH : Kept M kS s) (kE : execWfwd core up s = .next kT)
    (kM : Within [.mem, .memKey, .memErr, .tags, .resv, .mc, .core, .int, .rc, .ptn, .ctx, .i3c] M := by exact Part.sub (by assumption) (by rfl)) :
    Kept M kS kT := by
  unfold execWfwd at kE
  repeat' first | contradiction | (injection kE with kE; subst kE) | split at kE | dsimp only at kE
  repeat' first
    | with_reducible first
      | assumption | apply startWcd_kept | refine Part.sub kM ?_
    | intro _ | dsimp only | (show Part.subb _ _ = _; rfl)

theorem execWbwdData_kept {kS s kT : State} {core : Nat} {up : ArrayUpset} (kH : Kept M kS s)
    (kE : execWbwdData core up s = .next kT)
    (kM : Within [.mem, .memKey, .memErr, .tags, .resv, .mc, .core, .int, .rc, .ptn, .ctx, .i3c] M := by exact Part.sub (by assumption) (by rfl)) :
    Kept M kS kT := by
  unfold execWbwdData at kE
  repeat' first | contradiction | (injection kE with kE; subst kE) | split at kE | dsimp only at kE
  repeat' first
    | with_reducible first
      | assumption | apply startWcd_kept | refine Part.sub kM ?_
    | intro _ | dsimp only | (show Part.subb _ _ = _; rfl)

theorem execWbwdGrad_kept {kS s kT : State} {core : Nat} {up : ArrayUpset} (kH : Kept M kS s)
    (kE : execWbwdGrad core up s = .next kT)
    (kM : Within [.mem, .memKey, .memErr, .tags, .resv, .mc, .core, .int, .rc, .ptn, .ctx, .i3c] M := by exact Part.sub (by assumption) (by rfl)) :
    Kept M kS kT := by
  unfold execWbwdGrad at kE
  repeat' first | contradiction | (injection kE with kE; subst kE) | split at kE | dsimp only at kE
  repeat' first
    | with_reducible first
      | assumption | apply startWcd_kept | refine Part.sub kM ?_
    | intro _ | dsimp only | (show Part.subb _ _ = _; rfl)

theorem retryWcd_kept {kS s : State} {n : Nat} {up : ArrayUpset} (kH : Kept M kS s)
    (kM : Within [.mem, .memKey, .memErr, .tags, .resv, .mc, .core, .int, .rc, .ptn, .ctx, .i3c] M := by exact Part.sub (by assumption) (by rfl)) :
    Kept M kS (retryWcd s n up) := by
  unfold retryWcd
  repeat' first
    | with_reducible first
      | assumption | contradiction | apply runWcd_kept | apply endWcd_kept | refine Kept.of_fst ‹_› ?_
      | refine Kept.of_snd ‹_› ?_ | refine Part.sub kM ?_
    | split | intro _ | dsimp only | (show Part.subb _ _ = _; rfl)

theorem execJoinBufferReady_kept {kS s kT : State} {core : Nat} {wcd : Bool} {up : ArrayUpset} (kH : Kept M kS s)
    (kE : execJoinBufferReady core wcd up s = .next kT)
    (kM : Within [.mem, .memKey, .memErr, .tags, .resv, .mc, .core, .int, .rc, .ptn, .ctx, .subf, .i3c] M := by exact Part.sub (by assumption) (by rfl)) :
    Kept M kS kT := by
  unfold execJoinBufferReady at kE
  repeat' first | contradiction | (injection kE with kE; subst kE) | split at kE | dsimp only at kE
  repeat' first
    | with_reducible first
      | assumption | apply retryAcd_kept | apply retryWcd_kept | refine Part.sub kM ?_
    | split | intro _ | dsimp only | (show Part.subb _ _ = _; rfl)

theorem execSealWaitEnd_kept {kS s kT : State} {core : Nat} {wcd : Bool} {up : ArrayUpset} (kH : Kept M kS s)
    (kE : execSealWaitEnd core wcd up s = .next kT)
    (kM : Within [.mem, .memKey, .memErr, .tags, .resv, .mc, .core, .int, .rc, .ptn, .ctx, .subf, .i3c] M := by exact Part.sub (by assumption) (by rfl)) :
    Kept M kS kT := by
  unfold execSealWaitEnd at kE
  repeat' first | contradiction | (injection kE with kE; subst kE) | split at kE | dsimp only at kE
  repeat' first
    | with_reducible first
      | assumption | contradiction | apply modCore_kept | apply retryAcd_kept | apply retryWcd_kept
      | refine Kept.of_fst ‹_› ?_ | refine Kept.of_snd ‹_› ?_ | refine Part.sub kM ?_
    | split | intro _ | dsimp only | (show Part.subb _ _ = _; rfl)

end Sys2Proof.Machine
end

