-- ==== Sys2Proof/Laws/KeptLink.lean ====
section
/-! SUPPORT. What no operation of the module does (Kept, Laws/Kept.lean), one lemma for each function that changes the state:
the control port, the Vat, Brine, the Syllabus, the Presses, integrity, open house, the ports and security. -/

namespace Sys2Proof.Machine

set_option Elab.async false

variable {M : List Part}

/-! ### CptTx -/

theorem cptPump_kept {kS s : State} (kH : Kept M kS s) (kM : Within [.cpt] M := by exact Part.sub (by assumption) (by rfl)) :
    Kept M kS (cptPump s) := by
  unfold cptPump
  repeat' first
    | with_reducible first
      | assumption | refine Part.sub kM ?_
    | split | intro _ | dsimp only | (show Part.subb _ _ = _; rfl) | (show Membership.mem (γ := List Part) _ _; decide)
    | with_reducible first
      | refine Kept.set_cpt ?_ (kM.mem ?_)

theorem cptSend_kept {kS s : State} {f : CptFrame} (kH : Kept M kS s)
    (kM : Within [.cpt] M := by exact Part.sub (by assumption) (by rfl)) :
    Kept M kS (cptSend s f) := by
  unfold cptSend
  repeat' first
    | with_reducible first
      | assumption | apply cptPump_kept | refine Part.sub kM ?_
    | intro _ | dsimp only | (show Part.subb _ _ = _; rfl) | (show Membership.mem (γ := List Part) _ _; decide)
    | with_reducible first
      | refine Kept.set_cpt ?_ (kM.mem ?_)

/-! ### Vat -/

theorem putSlot_kept {kS s : State} {k : Nat} {v : VSlot} (kH : Kept M kS s)
    (kM : Within [.mem, .memKey, .memErr, .resv, .mc, .int, .ptn, .ctx, .i3c] M := by exact Part.sub (by assumption) (by rfl)) :
    Kept M kS (putSlot s k v) := by
  unfold putSlot
  repeat' first
    | with_reducible first
      | assumption | apply writeUnder_kept | refine Part.sub kM ?_
    | intro _ | dsimp only | (show Part.subb _ _ = _; rfl)

theorem putId_kept {kS s : State} {id : Nat} {slot : Option Nat} (kH : Kept M kS s)
    (kM : Within [.mem, .memKey, .memErr, .resv, .mc, .int, .ptn, .ctx, .i3c] M := by exact Part.sub (by assumption) (by rfl)) :
    Kept M kS (putId s id slot) := by
  unfold putId
  repeat' first
    | with_reducible first
      | assumption | contradiction | apply writeUnder_kept | refine Kept.of_fst ‹_› ?_ | refine Kept.of_snd ‹_› ?_
      | refine Part.sub kM ?_
    | split | intro _ | dsimp only | (show Part.subb _ _ = _; rfl)

theorem putExp_kept {kS s : State} {p layer idx : Nat} {v : Option (Nat × Nat)} (kH : Kept M kS s)
    (kM : Within [.mem, .memKey, .memErr, .resv, .mc, .int, .ptn, .ctx, .i3c] M := by exact Part.sub (by assumption) (by rfl)) :
    Kept M kS (putExp s p layer idx v) := by
  unfold putExp
  repeat' first
    | with_reducible first
      | assumption | contradiction | apply writeUnder_kept | refine Kept.of_fst ‹_› ?_ | refine Kept.of_snd ‹_› ?_
      | refine Part.sub kM ?_
    | split | intro _ | dsimp only | (show Part.subb _ _ = _; rfl)

theorem vatBad_kept {kS s : State} {la : Nat} (kH : Kept M kS s)
    (kM : Within [.mc, .int, .ptn, .ctx, .i3c] M := by exact Part.sub (by assumption) (by rfl)) :
    Kept M kS (vatBad s la) := by
  unfold vatBad
  repeat' first
    | with_reducible first
      | assumption | apply raise_kept | refine Part.sub kM ?_
    | intro _ | dsimp only | (show Part.subb _ _ = _; rfl)

theorem modPort_kept {kS s : State} {n : Nat} {f : VPort → VPort} (kH : Kept M kS s)
    (kM : Within [.vat] M := by exact Part.sub (by assumption) (by rfl)) :
    Kept M kS (modPort s n f) := by
  unfold modPort
  repeat' first
    | with_reducible first
      | assumption | refine Part.sub kM ?_
    | intro _ | dsimp only | (show Part.subb _ _ = _; rfl) | (show Membership.mem (γ := List Part) _ _; decide)
    | with_reducible first
      | refine Kept.set_vat ?_ (kM.mem ?_)

theorem vAnswer_kept {kS s : State} {n slot st : Nat} (kH : Kept M kS s)
    (kM : Within [.vat] M := by exact Part.sub (by assumption) (by rfl)) :
    Kept M kS (vAnswer s n slot st) := by
  unfold vAnswer
  repeat' first
    | with_reducible first
      | assumption | contradiction | apply modPort_kept | refine Kept.of_fst ‹_› ?_ | refine Kept.of_snd ‹_› ?_
      | refine Part.sub kM ?_
    | split | intro _ | dsimp only | (show Part.subb _ _ = _; rfl)

theorem vatSem_kept {kS s : State} {port sem : Nat} (kH : Kept M kS s)
    (kM : Within [.mc, .core, .int, .rc, .ptn, .ctx, .i3c] M := by exact Part.sub (by assumption) (by rfl)) :
    Kept M kS (vatSem s port sem) := by
  unfold vatSem
  repeat' first
    | with_reducible first
      | assumption | apply portAdd_kept | apply doneAdd_kept | refine Part.sub kM ?_
    | split | intro _ | dsimp only | (show Part.subb _ _ = _; rfl)

theorem vatJob_kept {kS s : State} {j : VJob} (kH : Kept M kS s)
    (kM : Within [.vat] M := by exact Part.sub (by assumption) (by rfl)) :
    Kept M kS (vatJob s j) := by
  unfold vatJob
  repeat' first
    | with_reducible first
      | assumption | refine Part.sub kM ?_
    | intro _ | dsimp only | (show Part.subb _ _ = _; rfl) | (show Membership.mem (γ := List Part) _ _; decide)
    | with_reducible first
      | refine Kept.set_vat ?_ (kM.mem ?_)

theorem vatClaim_kept {kS s : State} {n slot ctx : Nat} {v : VSlot} {a : VPort} (kH : Kept M kS s)
    (kM : Within [.mem, .memKey, .memErr, .resv, .mc, .int, .ptn, .ctx, .i3c] M := by exact Part.sub (by assumption) (by rfl)) :
    Kept M kS (vatClaim s n slot ctx v a).1 := by
  unfold vatClaim
  repeat' first
    | with_reducible first
      | assumption | contradiction | apply putSlot_kept | apply putId_kept | apply vatBad_kept
      | refine Kept.of_fst ‹_› ?_ | refine Kept.of_snd ‹_› ?_ | refine Part.sub kM ?_
    | split | intro _ | dsimp only | (show Part.subb _ _ = _; rfl)

theorem vatFetch_kept {kS s : State} {n slot ctx : Nat} {v : VSlot} {a : VPort} (kH : Kept M kS s)
    (kM : Within [.mem, .memKey, .memErr, .resv, .mc, .int, .ptn, .ctx, .cpt, .vat, .i3c] M := by exact Part.sub (by assumption) (by rfl)) :
    Kept M kS (vatFetch s n slot ctx v a).1 := by
  unfold vatFetch
  repeat' first
    | with_reducible first
      | assumption | apply cptSend_kept | apply putSlot_kept | refine Part.sub kM ?_
    | split | intro _ | dsimp only | (show Part.subb _ _ = _; rfl) | (show Membership.mem (γ := List Part) _ _; decide) | (show restore _ _ _ = _; rfl)
    | with_reducible first
      | refine Kept.set_ctx ?_ (kM.mem ?_) | refine Kept.set_vat ?_ (kM.mem ?_) | refine Kept.upd ?_ kM ?_

theorem vatCancel_kept {kS s : State} {n slot : Nat} {v : VSlot} {a : VPort} (kH : Kept M kS s)
    (kM : Within [.cpt, .vat] M := by exact Part.sub (by assumption) (by rfl)) :
    Kept M kS (vatCancel s n slot v a).1 := by
  unfold vatCancel
  repeat' first
    | with_reducible first
      | assumption | contradiction | apply cptSend_kept | apply vatJob_kept | refine Kept.of_fst ‹_› ?_
      | refine Kept.of_snd ‹_› ?_ | refine Part.sub kM ?_
    | split | intro _ | dsimp only | (show Part.subb _ _ = _; rfl) | (show Membership.mem (γ := List Part) _ _; decide)
    | with_reducible first
      | refine Kept.set_vat ?_ (kM.mem ?_)

theorem vatClaimExpert_kept {kS s : State} {n slot ctx : Nat} {v : VSlot} {a : VPort} (kH : Kept M kS s)
    (kM : Within [.mem, .memKey, .memErr, .resv, .mc, .int, .ptn, .ctx, .i3c] M := by exact Part.sub (by assumption) (by rfl)) :
    Kept M kS (vatClaimExpert s n slot ctx v a).1 := by
  unfold vatClaimExpert
  repeat' first
    | with_reducible first
      | assumption | contradiction | apply putExp_kept | apply vatBad_kept | refine Kept.of_fst ‹_› ?_
      | refine Kept.of_snd ‹_› ?_ | refine Part.sub kM ?_
    | split | intro _ | dsimp only | (show Part.subb _ _ = _; rfl)

theorem vatReleaseExpert_kept {kS s : State} {n slot ctx : Nat} {v : VSlot} {a : VPort} (kH : Kept M kS s)
    (kM : Within [.mem, .memKey, .memErr, .resv, .mc, .int, .ptn, .ctx, .i3c] M := by exact Part.sub (by assumption) (by rfl)) :
    Kept M kS (vatReleaseExpert s n slot ctx v a).1 := by
  unfold vatReleaseExpert
  repeat' first
    | with_reducible first
      | assumption | contradiction | apply putExp_kept | apply vatBad_kept | refine Kept.of_fst ‹_› ?_
      | refine Kept.of_snd ‹_› ?_ | refine Part.sub kM ?_
    | split | intro _ | dsimp only | (show Part.subb _ _ = _; rfl)

theorem vatStage_kept {kS s : State} {n slot ctx : Nat} {v : VSlot} {a : VPort} (kH : Kept M kS s)
    (kM : Within [.mem, .memKey, .memErr, .resv, .vat] M := by exact Part.sub (by assumption) (by rfl)) :
    Kept M kS (vatStage s n slot ctx v a).1 := by
  unfold vatStage
  repeat' first
    | with_reducible first
      | assumption | contradiction | apply writeStg_kept | apply vatJob_kept | refine Kept.of_fst ‹_› ?_
      | refine Kept.of_snd ‹_› ?_ | refine Part.sub kM ?_
    | split | intro _ | dsimp only | (show Part.subb _ _ = _; rfl)

theorem vatUnstage_kept {kS s : State} {n slot : Nat} {v : VSlot} {a : VPort} (kH : Kept M kS s)
    (kM : Within [.vat] M := by exact Part.sub (by assumption) (by rfl)) :
    Kept M kS (vatUnstage s n slot v a).1 := by
  unfold vatUnstage
  repeat' first
    | with_reducible first
      | assumption | apply vatJob_kept | refine Part.sub kM ?_
    | split | intro _ | dsimp only | (show Part.subb _ _ = _; rfl)

theorem vatEvict_kept {kS s : State} {n slot : Nat} {v : VSlot} {sem : Nat} (kH : Kept M kS s)
    (kM : Within [.mem, .memKey, .memErr, .resv, .mc, .int, .ptn, .ctx, .vat, .i3c] M := by exact Part.sub (by assumption) (by rfl)) :
    Kept M kS (vatEvict s n slot v sem).1 := by
  unfold vatEvict
  repeat' first
    | with_reducible first
      | assumption | apply putSlot_kept | apply putId_kept | apply vatJob_kept | refine Part.sub kM ?_
    | split | intro _ | dsimp only | (show Part.subb _ _ = _; rfl)

theorem vatRepair_kept {kS s : State} {n slot sem : Nat} (kH : Kept M kS s)
    (kM : Within [.vat] M := by exact Part.sub (by assumption) (by rfl)) :
    Kept M kS (vatRepair s n slot sem).1 := by
  unfold vatRepair
  repeat' first
    | with_reducible first
      | assumption | apply vatJob_kept | refine Part.sub kM ?_
    | intro _ | dsimp only | (show Part.subb _ _ = _; rfl)

theorem vatOp_kept {kS s : State} {n op : Nat} (kH : Kept M kS s)
    (kM : Within [.mem, .memKey, .memErr, .resv, .mc, .int, .ptn, .ctx, .cpt, .vat, .i3c] M := by exact Part.sub (by assumption) (by rfl)) :
    Kept M kS (vatOp s n op) := by
  unfold vatOp
  repeat' first
    | with_reducible first
      | assumption | contradiction | apply vatBad_kept | apply vAnswer_kept | apply vatClaim_kept | apply vatFetch_kept
      | apply vatCancel_kept | apply vatClaimExpert_kept | apply vatReleaseExpert_kept | apply vatStage_kept
      | apply vatUnstage_kept | apply vatEvict_kept | apply vatRepair_kept | refine Kept.of_fst ‹_› ?_
      | refine Kept.of_snd ‹_› ?_ | refine Part.sub kM ?_
    | split | intro _ | dsimp only | (show Part.subb _ _ = _; rfl)

theorem vatRow_kept {kS s : State} {who : Req} {n op : Nat} {args : List Nat} (kH : Kept M kS s)
    (kM : Within [.mem, .memKey, .memErr, .resv, .mc, .int, .ptn, .ctx, .cpt, .vat, .i3c] M := by exact Part.sub (by assumption) (by rfl)) :
    Kept M kS (vatRow s who n op args) := by
  unfold vatRow
  repeat' first
    | with_reducible first
      | assumption | apply modPort_kept | apply vatOp_kept | refine Part.sub kM ?_
    | split | intro _ | dsimp only | (show Part.subb _ _ = _; rfl)

theorem execClaimSlot_kept {kS s kT : State} {who : Req} {port slot ctx adapter addr units : Nat} (kH : Kept M kS s)
    (kE : execClaimSlot who port slot ctx adapter addr units s = .next kT)
    (kM : Within [.mem, .memKey, .memErr, .resv, .mc, .int, .ptn, .ctx, .cpt, .vat, .i3c] M := by exact Part.sub (by assumption) (by rfl)) :
    Kept M kS kT := by
  unfold execClaimSlot at kE
  repeat' first | contradiction | (injection kE with kE; subst kE) | split at kE | dsimp only at kE
  repeat' first
    | with_reducible first
      | assumption | apply vatRow_kept | refine Part.sub kM ?_
    | intro _ | dsimp only | (show Part.subb _ _ = _; rfl)

theorem execFetch_kept {kS s kT : State} {who : Req} {port slot ctx sem : Nat} (kH : Kept M kS s)
    (kE : execFetch who port slot ctx sem s = .next kT)
    (kM : Within [.mem, .memKey, .memErr, .resv, .mc, .int, .ptn, .ctx, .cpt, .vat, .i3c] M := by exact Part.sub (by assumption) (by rfl)) :
    Kept M kS kT := by
  unfold execFetch at kE
  repeat' first | contradiction | (injection kE with kE; subst kE) | split at kE | dsimp only at kE
  repeat' first
    | with_reducible first
      | assumption | apply vatRow_kept | refine Part.sub kM ?_
    | intro _ | dsimp only | (show Part.subb _ _ = _; rfl)

theorem execCancel_kept {kS s kT : State} {who : Req} {port slot ctx sem : Nat} (kH : Kept M kS s)
    (kE : execCancel who port slot ctx sem s = .next kT)
    (kM : Within [.mem, .memKey, .memErr, .resv, .mc, .int, .ptn, .ctx, .cpt, .vat, .i3c] M := by exact Part.sub (by assumption) (by rfl)) :
    Kept M kS kT := by
  unfold execCancel at kE
  repeat' first | contradiction | (injection kE with kE; subst kE) | split at kE | dsimp only at kE
  repeat' first
    | with_reducible first
      | assumption | apply vatRow_kept | refine Part.sub kM ?_
    | intro _ | dsimp only | (show Part.subb _ _ = _; rfl)

theorem execClaimExpert_kept {kS s kT : State} {who : Req} {port slot ctx idx layer loc : Nat} (kH : Kept M kS s)
    (kE : execClaimExpert who port slot ctx idx layer loc s = .next kT)
    (kM : Within [.mem, .memKey, .memErr, .resv, .mc, .int, .ptn, .ctx, .cpt, .vat, .i3c] M := by exact Part.sub (by assumption) (by rfl)) :
    Kept M kS kT := by
  unfold execClaimExpert at kE
  repeat' first | contradiction | (injection kE with kE; subst kE) | split at kE | dsimp only at kE
  repeat' first
    | with_reducible first
      | assumption | apply vatRow_kept | refine Part.sub kM ?_
    | intro _ | dsimp only | (show Part.subb _ _ = _; rfl)

theorem execReleaseExpert_kept {kS s kT : State} {who : Req} {port slot ctx idx layer loc : Nat} (kH : Kept M kS s)
    (kE : execReleaseExpert who port slot ctx idx layer loc s = .next kT)
    (kM : Within [.mem, .memKey, .memErr, .resv, .mc, .int, .ptn, .ctx, .cpt, .vat, .i3c] M := by exact Part.sub (by assumption) (by rfl)) :
    Kept M kS kT := by
  unfold execReleaseExpert at kE
  repeat' first | contradiction | (injection kE with kE; subst kE) | split at kE | dsimp only at kE
  repeat' first
    | with_reducible first
      | assumption | apply vatRow_kept | refine Part.sub kM ?_
    | intro _ | dsimp only | (show Part.subb _ _ = _; rfl)

theorem execStage_kept {kS s kT : State} {who : Req} {port slot ctx stg addr sem : Nat} (kH : Kept M kS s)
    (kE : execStage who port slot ctx stg addr sem s = .next kT)
    (kM : Within [.mem, .memKey, .memErr, .resv, .mc, .int, .ptn, .ctx, .cpt, .vat, .i3c] M := by exact Part.sub (by assumption) (by rfl)) :
    Kept M kS kT := by
  unfold execStage at kE
  repeat' first | contradiction | (injection kE with kE; subst kE) | split at kE | dsimp only at kE
  repeat' first
    | with_reducible first
      | assumption | apply vatRow_kept | refine Part.sub kM ?_
    | intro _ | dsimp only | (show Part.subb _ _ = _; rfl)

theorem execUnstage_kept {kS s kT : State} {who : Req} {port slot ctx sem : Nat} (kH : Kept M kS s)
    (kE : execUnstage who port slot ctx sem s = .next kT)
    (kM : Within [.mem, .memKey, .memErr, .resv, .mc, .int, .ptn, .ctx, .cpt, .vat, .i3c] M := by exact Part.sub (by assumption) (by rfl)) :
    Kept M kS kT := by
  unfold execUnstage at kE
  repeat' first | contradiction | (injection kE with kE; subst kE) | split at kE | dsimp only at kE
  repeat' first
    | with_reducible first
      | assumption | apply vatRow_kept | refine Part.sub kM ?_
    | intro _ | dsimp only | (show Part.subb _ _ = _; rfl)

theorem execEvict_kept {kS s kT : State} {who : Req} {port slot ctx sem : Nat} (kH : Kept M kS s)
    (kE : execEvict who port slot ctx sem s = .next kT)
    (kM : Within [.mem, .memKey, .memErr, .resv, .mc, .int, .ptn, .ctx, .cpt, .vat, .i3c] M := by exact Part.sub (by assumption) (by rfl)) :
    Kept M kS kT := by
  unfold execEvict at kE
  repeat' first | contradiction | (injection kE with kE; subst kE) | split at kE | dsimp only at kE
  repeat' first
    | with_reducible first
      | assumption | apply vatRow_kept | refine Part.sub kM ?_
    | intro _ | dsimp only | (show Part.subb _ _ = _; rfl)

theorem dropJob_kept {kS s : State} {j : VJob} (kH : Kept M kS s)
    (kM : Within [.vat] M := by exact Part.sub (by assumption) (by rfl)) :
    Kept M kS (dropJob s j) := by
  unfold dropJob
  repeat' first
    | with_reducible first
      | assumption | refine Part.sub kM ?_
    | intro _ | dsimp only | (show Part.subb _ _ = _; rfl) | (show Membership.mem (γ := List Part) _ _; decide)
    | with_reducible first
      | refine Kept.set_vat ?_ (kM.mem ?_)

theorem copyImg_kept {kS s : State} {owner src dst n : Nat} (kH : Kept M kS s)
    (kM : Within [.mem, .memKey, .memErr, .resv, .mc, .int, .ptn, .ctx, .i3c] M := by exact Part.sub (by assumption) (by rfl)) :
    Kept M kS (copyImg s owner src dst n) := by
  unfold copyImg
  repeat' first
    | with_reducible first
      | assumption | apply writeUnder_kept | refine Part.sub kM ?_
    | intro _ | dsimp only | (show Part.subb _ _ = _; rfl)

theorem stageEnd_kept {kS s : State} {slot : Nat} {v : VSlot} {j : VJob} (kH : Kept M kS s)
    (kM : Within [.mem, .memKey, .memErr, .resv, .mc, .int, .ptn, .ctx, .i3c] M := by exact Part.sub (by assumption) (by rfl)) :
    Kept M kS (stageEnd s slot v j) := by
  unfold stageEnd
  repeat' first
    | with_reducible first
      | assumption | apply stage_kept | apply writeStg_kept | apply putSlot_kept | apply copyImg_kept
      | refine Part.sub kM ?_
    | split | intro _ | dsimp only | (show Part.subb _ _ = _; rfl)

theorem unstageEnd_kept {kS s : State} {slot : Nat} {v : VSlot} {j : VJob} (kH : Kept M kS s)
    (kM : Within [.mem, .memKey, .memErr, .resv, .mc, .int, .ptn, .ctx, .i3c] M := by exact Part.sub (by assumption) (by rfl)) :
    Kept M kS (unstageEnd s slot v j) := by
  unfold unstageEnd
  repeat' first
    | with_reducible first
      | assumption | apply stage_kept | apply writeStg_kept | apply putSlot_kept | apply copyImg_kept
      | refine Part.sub kM ?_
    | split | intro _ | dsimp only | (show Part.subb _ _ = _; rfl)

theorem execVatCopyDone_kept {kS s kT : State} {slot : Nat} (kH : Kept M kS s) (kE : execVatCopyDone slot s = .next kT)
    (kM : Within [.mem, .memKey, .memErr, .resv, .mc, .core, .int, .rc, .ptn, .ctx, .vat, .i3c] M := by exact Part.sub (by assumption) (by rfl)) :
    Kept M kS kT := by
  unfold execVatCopyDone at kE
  repeat' first | contradiction | (injection kE with kE; subst kE) | split at kE | dsimp only at kE
  repeat' first
    | with_reducible first
      | assumption | contradiction | apply vatBad_kept | apply vatSem_kept | apply dropJob_kept | apply stageEnd_kept
      | apply unstageEnd_kept | refine Kept.of_fst ‹_› ?_ | refine Kept.of_snd ‹_› ?_ | refine Part.sub kM ?_
    | split | intro _ | dsimp only | (show Part.subb _ _ = _; rfl)

theorem scrubRange_kept {kS s : State} {la n : Nat} (kH : Kept M kS s)
    (kM : Within [.fresh, .mem, .memKey, .memErr, .resv] M := by exact Part.sub (by assumption) (by rfl)) :
    Kept M kS (scrubRange s la n) := by
  unfold scrubRange
  repeat' first
    | with_reducible first
      | assumption | contradiction | apply draw_kept | apply fillZero_kept | refine Kept.of_fst ‹_› ?_
      | refine Kept.of_snd ‹_› ?_ | refine Part.sub kM ?_
    | split | intro _ | dsimp only | (show Part.subb _ _ = _; rfl)

theorem sweepTables_kept {kS s : State} {slot : Nat} (kH : Kept M kS s)
    (kM : Within [.mem, .memKey, .memErr, .resv, .mc, .int, .ptn, .ctx, .i3c] M := by exact Part.sub (by assumption) (by rfl)) :
    Kept M kS (sweepTables s slot) := by
  unfold sweepTables
  repeat' first
    | with_reducible first
      | assumption | contradiction | apply forEach_kept | apply putId_kept | apply putExp_kept
      | refine Kept.of_fst ‹_› ?_ | refine Kept.of_snd ‹_› ?_ | refine Part.sub kM ?_
    | split | intro _ | dsimp only | (show Part.subb _ _ = _; rfl)

theorem scrubDone_kept {kS s : State} {j : VJob} (kH : Kept M kS s)
    (kM : Within [.fresh, .mem, .memKey, .memErr, .resv, .mc, .core, .int, .rc, .ptn, .ctx, .vat, .i3c] M := by exact Part.sub (by assumption) (by rfl)) :
    Kept M kS (scrubDone s j) := by
  unfold scrubDone
  repeat' first
    | with_reducible first
      | assumption | contradiction | apply forEach_kept | apply putSlot_kept | apply vatBad_kept | apply vatSem_kept
      | apply dropJob_kept | apply scrubRange_kept | apply sweepTables_kept | refine Kept.of_fst ‹_› ?_
      | refine Kept.of_snd ‹_› ?_ | refine Part.sub kM ?_
    | split | intro _ | dsimp only | (show Part.subb _ _ = _; rfl)

theorem execVatScrubDone_kept {kS s kT : State} {slot : Nat} (kH : Kept M kS s) (kE : execVatScrubDone slot s = .next kT)
    (kM : Within [.fresh, .mem, .memKey, .memErr, .resv, .mc, .core, .int, .rc, .ptn, .ctx, .vat, .i3c] M := by exact Part.sub (by assumption) (by rfl)) :
    Kept M kS kT := by
  unfold execVatScrubDone at kE
  repeat' first | contradiction | (injection kE with kE; subst kE) | split at kE | dsimp only at kE
  repeat' first
    | with_reducible first
      | assumption | contradiction | apply scrubDone_kept | refine Kept.of_fst ‹_› ?_ | refine Kept.of_snd ‹_› ?_
      | refine Part.sub kM ?_
    | split | intro _ | dsimp only | (show Part.subb _ _ = _; rfl)

theorem fetchFail_kept {kS s : State} {f : VFetch} (kH : Kept M kS s)
    (kM : Within [.mc, .int, .ptn, .ctx, .vat, .i3c] M := by exact Part.sub (by assumption) (by rfl)) :
    Kept M kS (fetchFail s f) := by
  unfold fetchFail
  repeat' first
    | with_reducible first
      | assumption | apply raise_kept | apply vatJob_kept | apply getD_kept | refine Part.sub kM ?_
    | intro _ | dsimp only | (show Part.subb _ _ = _; rfl) | (show Membership.mem (γ := List Part) _ _; decide) | (show restore _ _ _ = _; rfl)
    | with_reducible first
      | refine Kept.set_ptn ?_ (kM.mem ?_) | refine Kept.set_ctx ?_ (kM.mem ?_) | refine Kept.set_vat ?_ (kM.mem ?_)
      | refine Kept.upd ?_ kM ?_

theorem execFetchDeadline_kept {kS s kT : State} {slot : Nat} (kH : Kept M kS s) (kE : execFetchDeadline slot s = .next kT)
    (kM : Within [.mc, .int, .ptn, .ctx, .vat, .i3c] M := by exact Part.sub (by assumption) (by rfl)) :
    Kept M kS kT := by
  unfold execFetchDeadline at kE
  repeat' first | contradiction | (injection kE with kE; subst kE) | split at kE | dsimp only at kE
  repeat' first
    | with_reducible first
      | assumption | contradiction | apply fetchFail_kept | refine Kept.of_fst ‹_› ?_ | refine Kept.of_snd ‹_› ?_
      | refine Part.sub kM ?_
    | split | intro _ | dsimp only | (show Part.subb _ _ = _; rfl)

theorem fetchEnd_kept {kS s : State} {f : VFetch} (kH : Kept M kS s)
    (kM : Within [.mem, .memKey, .memErr, .resv, .mc, .core, .int, .rc, .ptn, .ctx, .vat, .i3c] M := by exact Part.sub (by assumption) (by rfl)) :
    Kept M kS (fetchEnd s f) := by
  unfold fetchEnd
  repeat' first
    | with_reducible first
      | assumption | contradiction | apply writeUnder_kept | apply putSlot_kept | apply vatBad_kept | apply modPort_kept
      | apply vatSem_kept | apply fetchFail_kept | refine Kept.of_fst ‹_› ?_ | refine Kept.of_snd ‹_› ?_
      | refine Part.sub kM ?_
    | split | intro _ | dsimp only | (show Part.subb _ _ = _; rfl) | (show Membership.mem (γ := List Part) _ _; decide)
    | with_reducible first
      | refine Kept.set_vat ?_ (kM.mem ?_)

theorem vatRestart_kept {kS s : State} (kH : Kept M kS s) (kM : Within [.vat] M := by exact Part.sub (by assumption) (by rfl)) :
    Kept M kS (vatRestart s) := by
  unfold vatRestart
  repeat' first
    | with_reducible first
      | assumption | contradiction | refine Kept.of_fst ‹_› ?_ | refine Kept.of_snd ‹_› ?_ | refine Part.sub kM ?_
    | split | intro _ | dsimp only | (show Part.subb _ _ = _; rfl) | (show Membership.mem (γ := List Part) _ _; decide)
    | with_reducible first
      | refine Kept.set_vat ?_ (kM.mem ?_)

theorem spillBitmap_kept {kS s : State} {p : Nat} (kH : Kept M kS s)
    (kM : Within [.mem, .memKey, .memErr, .resv, .ptn] M := by exact Part.sub (by assumption) (by rfl)) :
    Kept M kS (spillBitmap s p) := by
  unfold spillBitmap
  repeat' first
    | with_reducible first
      | assumption | contradiction | apply modPtn_kept | apply writeKey_kept | refine Kept.of_fst ‹_› ?_
      | refine Kept.of_snd ‹_› ?_ | apply foldl_kept | apply foldl_state_kept | refine Part.sub kM ?_
    | split | intro _ | dsimp only | (show Part.subb _ _ = _; rfl)

/-! ### Brine -/

theorem scrubLinear_kept {kS s : State} {k : MemKind} {off n : Nat} (kH : Kept M kS s)
    (kM : Within [.fresh, .mem, .memKey, .memErr, .resv] M := by exact Part.sub (by assumption) (by rfl)) :
    Kept M kS (scrubLinear s k off n) := by
  unfold scrubLinear
  repeat' first
    | with_reducible first
      | assumption | contradiction | apply forEach_kept | apply draw_kept | apply fillZero_kept
      | refine Kept.of_fst ‹_› ?_ | refine Kept.of_snd ‹_› ?_ | refine Part.sub kM ?_
    | split | intro _ | dsimp only | (show Part.subb _ _ = _; rfl)

theorem evictSlot_kept {kS s : State} {k : Nat} (kH : Kept M kS s)
    (kM : Within [.fresh, .mem, .memKey, .memErr, .resv, .mc, .int, .ptn, .ctx, .vat, .i3c] M := by exact Part.sub (by assumption) (by rfl)) :
    Kept M kS (evictSlot s k) := by
  unfold evictSlot
  repeat' first
    | with_reducible first
      | assumption | contradiction | apply forEach_kept | apply putSlot_kept | apply putId_kept | apply putExp_kept
      | apply scrubRange_kept | refine Kept.of_fst ‹_› ?_ | refine Kept.of_snd ‹_› ?_ | refine Part.sub kM ?_
    | split | intro _ | dsimp only | (show Part.subb _ _ = _; rfl) | (show Membership.mem (γ := List Part) _ _; decide)
    | with_reducible first
      | refine Kept.set_vat ?_ (kM.mem ?_)

theorem scrubStaged_kept {kS s : State} {p c : Nat} (kH : Kept M kS s)
    (kM : Within [.fresh, .mem, .memKey, .memErr, .resv, .mc, .int, .ptn, .ctx, .i3c] M := by exact Part.sub (by assumption) (by rfl)) :
    Kept M kS (scrubStaged s p c) := by
  unfold scrubStaged
  repeat' first
    | with_reducible first
      | assumption | contradiction | apply forEach_kept | apply stage_kept | apply writeStg_kept | apply putSlot_kept
      | apply scrubRange_kept | refine Kept.of_fst ‹_› ?_ | refine Kept.of_snd ‹_› ?_ | refine Part.sub kM ?_
    | split | intro _ | dsimp only | (show Part.subb _ _ = _; rfl)

theorem endContext_kept {kS s : State} {p c : Nat} (kH : Kept M kS s)
    (kM : Within [.fresh, .mem, .memKey, .memErr, .resv, .mc, .core, .int, .rc, .ptn, .ctx, .keys, .xf, .vat, .i3c] M := by exact Part.sub (by assumption) (by rfl)) :
    Kept M kS (endContext s p c) := by
  unfold endContext
  repeat' first
    | with_reducible first
      | assumption | apply forEach_kept | apply freeCtx_kept | apply scrubLinear_kept | apply evictSlot_kept
      | apply scrubStaged_kept | refine Part.sub kM ?_
    | intro _ | dsimp only | (show Part.subb _ _ = _; rfl) | (show Membership.mem (γ := List Part) _ _; decide) | (show restore _ _ _ = _; rfl)
    | with_reducible first
      | refine Kept.set_rc ?_ (kM.mem ?_) | refine Kept.set_xf ?_ (kM.mem ?_) | refine Kept.upd ?_ kM ?_

theorem endPartition_kept {kS s : State} {p : Nat} (kH : Kept M kS s)
    (kM : Within [.fresh, .mem, .memKey, .memErr, .resv, .mc, .core, .int, .rc, .ptn, .ctx, .brn, .keys, .xf, .vat, .i3c] M := by exact Part.sub (by assumption) (by rfl)) :
    Kept M kS (endPartition s p) := by
  unfold endPartition
  repeat' first
    | with_reducible first
      | assumption | contradiction | apply forEach_kept | apply modPtn_kept | apply setPtnState_kept | apply freeCtx_kept
      | apply scrubLinear_kept | apply evictSlot_kept | refine Kept.of_fst ‹_› ?_ | refine Kept.of_snd ‹_› ?_
      | refine Part.sub kM ?_
    | split | intro _ | dsimp only | (show Part.subb _ _ = _; rfl) | (show Membership.mem (γ := List Part) _ _; decide) | (show restore _ _ _ = _; rfl)
    | with_reducible first
      | refine Kept.set_brn ?_ (kM.mem ?_) | refine Kept.set_keys ?_ (kM.mem ?_) | refine Kept.set_xf ?_ (kM.mem ?_)
      | refine Kept.upd ?_ kM ?_

theorem writeWin_kept {kS s : State} {w : Win} {off : Nat} {bs : List Byte} (kH : Kept M kS s)
    (kM : Within [.mem, .memKey, .memErr, .resv] M := by exact Part.sub (by assumption) (by rfl)) :
    Kept M kS (writeWin s w off bs) := by
  unfold writeWin
  repeat' first
    | with_reducible first
      | assumption | apply writeKey_kept | refine Part.sub kM ?_
    | intro _ | dsimp only | (show Part.subb _ _ = _; rfl)

theorem baseEntry_kept {kS s : State} {w c : Win} {b : Nat} {e : BaseEnt} (kH : Kept M kS s)
    (kM : Within [.mem, .memKey, .memErr, .resv] M := by exact Part.sub (by assumption) (by rfl)) :
    Kept M kS (baseEntry s w c b e).1 := by
  unfold baseEntry
  repeat' first
    | with_reducible first
      | assumption | contradiction | apply writeWin_kept | refine Kept.of_fst ‹_› ?_ | refine Kept.of_snd ‹_› ?_
      | apply foldl_kept | apply foldl_state_kept | refine Part.sub kM ?_
    | split | intro _ | dsimp only | (show Part.subb _ _ = _; rfl)

theorem baseEntries_kept {kS : State} {w c : Win} {b : Nat} (kM :
    Within [.mem, .memKey, .memErr, .resv] M := by exact Part.sub (by assumption) (by rfl)) :
    ∀ {xs : List BaseEnt} {s : State}, Kept M kS s → Kept M kS (baseEntries s w c b xs).1
  | [], _, h => h
  | x :: xs, s, h => by
    unfold baseEntries
    have h1 := baseEntry_kept (w := w) (c := c) (b := b) (e := x) h
    split
    · rename_i e; rw [e] at h1; exact baseEntries_kept (Part.sub kM rfl) h1
    · exact h1

theorem loadBase_kept {kS s : State} {b : Nat} (kH : Kept M kS s)
    (kM : Within [.mem, .memKey, .memErr, .resv] M := by exact Part.sub (by assumption) (by rfl)) :
    Kept M kS (loadBase s b).1 := by
  unfold loadBase
  repeat' first
    | with_reducible first
      | assumption | contradiction | apply baseEntries_kept | refine Kept.of_fst ‹_› ?_ | refine Kept.of_snd ‹_› ?_
      | refine Part.sub kM ?_
    | split | intro _ | dsimp only | (show Part.subb _ _ = _; rfl)

theorem setRind_kept {kS s : State} {b : Nat} (kH : Kept M kS s)
    (kM : Within [.brn, .subf] M := by exact Part.sub (by assumption) (by rfl)) :
    Kept M kS (setRind s b) := by
  unfold setRind
  repeat' first
    | with_reducible first
      | assumption | refine Part.sub kM ?_
    | intro _ | dsimp only | (show Part.subb _ _ = _; rfl) | (show Membership.mem (γ := List Part) _ _; decide) | (show restore _ _ _ = _; rfl)
    | with_reducible first
      | refine Kept.set_brn ?_ (kM.mem ?_) | refine Kept.set_subf ?_ (kM.mem ?_) | refine Kept.upd ?_ kM ?_

theorem baseFault_kept {kS s : State} {x : BaseErr} (kH : Kept M kS s)
    (kM : Within [.mc, .int, .ptn, .ctx, .i3c] M := by exact Part.sub (by assumption) (by rfl)) :
    Kept M kS (baseFault s x) := by
  unfold baseFault
  repeat' first
    | with_reducible first
      | assumption | contradiction | apply raise_kept | refine Kept.of_fst ‹_› ?_ | refine Kept.of_snd ‹_› ?_
      | refine Part.sub kM ?_
    | split | intro _ | dsimp only | (show Part.subb _ _ = _; rfl)

theorem brnResult_kept {kS s : State} {st : Nat} (kH : Kept M kS s)
    (kM : Within [.brn] M := by exact Part.sub (by assumption) (by rfl)) :
    Kept M kS (brnResult s st) := by
  unfold brnResult
  repeat' first
    | with_reducible first
      | assumption | refine Part.sub kM ?_
    | intro _ | dsimp only | (show Part.subb _ _ = _; rfl) | (show Membership.mem (γ := List Part) _ _; decide)
    | with_reducible first
      | refine Kept.set_brn ?_ (kM.mem ?_)

theorem endCommit_kept {kS s : State} {b role slot : Nat} (kH : Kept M kS s)
    (kM : Within [.mem, .memKey, .memErr, .resv, .mc, .int, .ptn, .ctx, .brn, .led, .lcs, .subf, .i3c] M := by exact Part.sub (by assumption) (by rfl)) :
    Kept M kS (endCommit s b role slot) := by
  unfold endCommit
  repeat' first
    | with_reducible first
      | assumption | contradiction | apply journal_kept | apply loadBase_kept | apply setRind_kept | apply baseFault_kept
      | apply brnResult_kept | refine Kept.of_fst ‹_› ?_ | refine Kept.of_snd ‹_› ?_ | refine Part.sub kM ?_
    | split | intro _ | dsimp only | (show Part.subb _ _ = _; rfl)

theorem endBaseTeardown_kept {kS s : State} {b : Nat} (kH : Kept M kS s)
    (kM : Within [.fresh, .mem, .memKey, .memErr, .resv, .brn, .keys, .subf] M := by exact Part.sub (by assumption) (by rfl)) :
    Kept M kS (endBaseTeardown s b) := by
  unfold endBaseTeardown
  repeat' first
    | with_reducible first
      | assumption | contradiction | apply forEach_kept | apply scrubLinear_kept | apply brnResult_kept
      | refine Kept.of_fst ‹_› ?_ | refine Kept.of_snd ‹_› ?_ | refine Part.sub kM ?_
    | split | intro _ | dsimp only | (show Part.subb _ _ = _; rfl) | (show Membership.mem (γ := List Part) _ _; decide) | (show restore _ _ _ = _; rfl)
    | with_reducible first
      | refine Kept.set_brn ?_ (kM.mem ?_) | refine Kept.set_keys ?_ (kM.mem ?_) | refine Kept.set_subf ?_ (kM.mem ?_)
      | refine Kept.upd ?_ kM ?_

theorem brnEvent_kept {kS s : State} {kind : Nat} {j : BrnJob} (kH : Kept M kS s)
    (kM : Within [.cpt] M := by exact Part.sub (by assumption) (by rfl)) :
    Kept M kS (brnEvent s kind j) := by
  unfold brnEvent
  repeat' first
    | with_reducible first
      | assumption | apply queueEvent_kept | refine Kept.of_fst ‹_› ?_ | refine Kept.of_snd ‹_› ?_
      | refine Part.sub kM ?_
    | split | intro _ | dsimp only | (show Part.subb _ _ = _; rfl)

theorem brnStart_kept {kS s : State} (kH : Kept M kS s)
    (kM : Within [.brn, .cpt] M := by exact Part.sub (by assumption) (by rfl)) :
    Kept M kS (brnStart s) := by
  unfold brnStart
  repeat' first
    | with_reducible first
      | assumption | contradiction | apply brnEvent_kept | refine Kept.of_fst ‹_› ?_ | refine Kept.of_snd ‹_› ?_
      | refine Part.sub kM ?_
    | split | intro _ | dsimp only | (show Part.subb _ _ = _; rfl) | (show Membership.mem (γ := List Part) _ _; decide)
    | with_reducible first
      | refine Kept.set_brn ?_ (kM.mem ?_)

theorem brnEnd_kept {kS s : State} (kH : Kept M kS s)
    (kM : Within [.fresh, .mem, .memKey, .memErr, .resv, .mc, .core, .int, .rc, .ptn, .ctx, .brn, .keys, .xf, .led, .lcs, .cpt, .subf, .vat, .i3c] M := by exact Part.sub (by assumption) (by rfl)) :
    Kept M kS (brnEnd s) := by
  unfold brnEnd
  repeat' first
    | with_reducible first
      | assumption | contradiction | apply queueEvent_kept | apply endContext_kept | apply endPartition_kept
      | apply endCommit_kept | apply endBaseTeardown_kept | refine Kept.of_fst ‹_› ?_ | refine Kept.of_snd ‹_› ?_
      | refine Part.sub kM ?_
    | split | intro _ | dsimp only | (show Part.subb _ _ = _; rfl) | (show Membership.mem (γ := List Part) _ _; decide)
    | with_reducible first
      | refine Kept.set_brn ?_ (kM.mem ?_)

theorem brnBase_kept {kS s : State} {who : Req} {commit : Bool} {b : Nat} (kH : Kept M kS s)
    (kM : Within [.mc, .int, .ptn, .ctx, .brn, .led, .lcs, .i3c] M := by exact Part.sub (by assumption) (by rfl)) :
    Kept M kS (brnBase s who commit b) := by
  unfold brnBase
  repeat' first
    | with_reducible first
      | assumption | contradiction | apply brnPush_kept | apply journalFor_kept | apply brnResult_kept
      | refine Kept.of_fst ‹_› ?_ | refine Kept.of_snd ‹_› ?_ | refine Part.sub kM ?_
    | split | intro _ | dsimp only | (show Part.subb _ _ = _; rfl)

theorem brnEnable_kept {kS s : State} {who : Req} (kH : Kept M kS s)
    (kM : Within [.mc, .int, .ptn, .ctx, .brn, .led, .lcs, .i3c] M := by exact Part.sub (by assumption) (by rfl)) :
    Kept M kS (brnEnable s who) := by
  unfold brnEnable
  repeat' first
    | with_reducible first
      | assumption | contradiction | apply journalFor_kept | apply brnResult_kept | refine Kept.of_fst ‹_› ?_
      | refine Kept.of_snd ‹_› ?_ | refine Part.sub kM ?_
    | split | intro _ | dsimp only | (show Part.subb _ _ = _; rfl) | (show Membership.mem (γ := List Part) _ _; decide)
    | with_reducible first
      | refine Kept.set_brn ?_ (kM.mem ?_)

theorem brnDisable_kept {kS s : State} {who : Req} (kH : Kept M kS s)
    (kM : Within [.mc, .int, .ptn, .ctx, .brn, .led, .lcs, .i3c] M := by exact Part.sub (by assumption) (by rfl)) :
    Kept M kS (brnDisable s who) := by
  unfold brnDisable
  repeat' first
    | with_reducible first
      | assumption | contradiction | apply journalFor_kept | apply brnResult_kept | refine Kept.of_fst ‹_› ?_
      | refine Kept.of_snd ‹_› ?_ | refine Part.sub kM ?_
    | split | intro _ | dsimp only | (show Part.subb _ _ = _; rfl) | (show Membership.mem (γ := List Part) _ _; decide)
    | with_reducible first
      | refine Kept.set_brn ?_ (kM.mem ?_)

theorem brnCmd_kept {kS s : State} {who : Req} {word : Nat} (kH : Kept M kS s)
    (kM : Within [.mc, .int, .ptn, .ctx, .brn, .led, .lcs, .i3c] M := by exact Part.sub (by assumption) (by rfl)) :
    Kept M kS (brnCmd s who word) := by
  unfold brnCmd
  repeat' first
    | with_reducible first
      | assumption | apply brnResult_kept | apply brnBase_kept | apply brnEnable_kept | apply brnDisable_kept
      | refine Part.sub kM ?_
    | split | intro _ | dsimp only | (show Part.subb _ _ = _; rfl)

theorem execBaseCommit_kept {kS s kT : State} {who : Req} {base : Nat} (kH : Kept M kS s)
    (kE : execBaseCommit who base s = .next kT)
    (kM : Within [.mc, .int, .ptn, .ctx, .brn, .led, .lcs, .i3c] M := by exact Part.sub (by assumption) (by rfl)) :
    Kept M kS kT := by
  unfold execBaseCommit at kE
  repeat' first | contradiction | (injection kE with kE; subst kE) | split at kE | dsimp only at kE
  repeat' first
    | with_reducible first
      | assumption | apply brnCmd_kept | refine Part.sub kM ?_
    | split | intro _ | dsimp only | (show Part.subb _ _ = _; rfl)

theorem execBaseTeardown_kept {kS s kT : State} {who : Req} {base : Nat} (kH : Kept M kS s)
    (kE : execBaseTeardown who base s = .next kT)
    (kM : Within [.mc, .int, .ptn, .ctx, .brn, .led, .lcs, .i3c] M := by exact Part.sub (by assumption) (by rfl)) :
    Kept M kS kT := by
  unfold execBaseTeardown at kE
  repeat' first | contradiction | (injection kE with kE; subst kE) | split at kE | dsimp only at kE
  repeat' first
    | with_reducible first
      | assumption | apply brnCmd_kept | refine Part.sub kM ?_
    | split | intro _ | dsimp only | (show Part.subb _ _ = _; rfl)

theorem execBrineEnable_kept {kS s kT : State} {who : Req} (kH : Kept M kS s) (kE : execBrineEnable who s = .next kT)
    (kM : Within [.mc, .int, .ptn, .ctx, .brn, .led, .lcs, .i3c] M := by exact Part.sub (by assumption) (by rfl)) :
    Kept M kS kT := by
  unfold execBrineEnable at kE
  repeat' first | contradiction | (injection kE with kE; subst kE) | split at kE | dsimp only at kE
  repeat' first
    | with_reducible first
      | assumption | apply brnCmd_kept | refine Part.sub kM ?_
    | split | intro _ | dsimp only | (show Part.subb _ _ = _; rfl)

theorem execBrineDisable_kept {kS s kT : State} {who : Req} (kH : Kept M kS s) (kE : execBrineDisable who s = .next kT)
    (kM : Within [.mc, .int, .ptn, .ctx, .brn, .led, .lcs, .i3c] M := by exact Part.sub (by assumption) (by rfl)) :
    Kept M kS kT := by
  unfold execBrineDisable at kE
  repeat' first | contradiction | (injection kE with kE; subst kE) | split at kE | dsimp only at kE
  repeat' first
    | with_reducible first
      | assumption | apply brnCmd_kept | refine Part.sub kM ?_
    | split | intro _ | dsimp only | (show Part.subb _ _ = _; rfl)

theorem execBrineJobStart_kept {kS s kT : State} (kH : Kept M kS s) (kE : execBrineJobStart s = .next kT)
    (kM : Within [.brn, .cpt] M := by exact Part.sub (by assumption) (by rfl)) :
    Kept M kS kT := by
  unfold execBrineJobStart at kE
  repeat' first | contradiction | (injection kE with kE; subst kE) | split at kE | dsimp only at kE
  repeat' first
    | with_reducible first
      | assumption | apply brnStart_kept | refine Part.sub kM ?_
    | intro _ | dsimp only | (show Part.subb _ _ = _; rfl)

theorem execBrineJobEnd_kept {kS s kT : State} (kH : Kept M kS s) (kE : execBrineJobEnd s = .next kT)
    (kM : Within [.fresh, .mem, .memKey, .memErr, .resv, .mc, .core, .int, .rc, .ptn, .ctx, .brn, .keys, .xf, .led, .lcs, .cpt, .subf, .vat, .i3c] M := by exact Part.sub (by assumption) (by rfl)) :
    Kept M kS kT := by
  unfold execBrineJobEnd at kE
  repeat' first | contradiction | (injection kE with kE; subst kE) | split at kE | dsimp only at kE
  repeat' first
    | with_reducible first
      | assumption | apply brnEnd_kept | refine Part.sub kM ?_
    | intro _ | dsimp only | (show Part.subb _ _ = _; rfl)

theorem execBrineDisabled_kept {kS s kT : State} (kH : Kept M kS s) (kE : execBrineDisabled s = .next kT)
    (kM : Within [.brn] M := by exact Part.sub (by assumption) (by rfl)) :
    Kept M kS kT := by
  unfold execBrineDisabled at kE
  repeat' first | contradiction | (injection kE with kE; subst kE) | split at kE | dsimp only at kE
  repeat' first
    | with_reducible first
      | assumption | refine Part.sub kM ?_
    | split | intro _ | dsimp only | (show Part.subb _ _ = _; rfl) | (show Membership.mem (γ := List Part) _ _; decide)
    | with_reducible first
      | refine Kept.set_brn ?_ (kM.mem ?_)

/-! ### Syllabus -/

theorem sylJournal_kept {kS s : State} {who : Req} {p scope : Nat} {e : SyFail} (kH : Kept M kS s)
    (kM : Within [.mc, .int, .ptn, .ctx, .led, .lcs, .i3c] M := by exact Part.sub (by assumption) (by rfl)) :
    Kept M kS (sylJournal s who p scope e) := by
  unfold sylJournal
  repeat' first
    | with_reducible first
      | assumption | apply journalFor_kept | refine Part.sub kM ?_
    | split | intro _ | dsimp only | (show Part.subb _ _ = _; rfl)

theorem allocate_kept {kS s : State} {p : Nat} {r : SemaRec} (kH : Kept M kS s)
    (kM : Within [.rc] M := by exact Part.sub (by assumption) (by rfl)) :
    Kept M kS (allocate s p r) := by
  unfold allocate
  repeat' first
    | with_reducible first
      | assumption | apply modSem_kept | apply modBar_kept | refine Part.sub kM ?_
    | split | intro _ | dsimp only | (show Part.subb _ _ = _; rfl)

theorem bindCred_kept {kS s : State} {p : Nat} {ws : List Win} {r : CredRec} (kH : Kept M kS s)
    (kM : Within [.rc] M := by exact Part.sub (by assumption) (by rfl)) :
    Kept M kS (bindCred s p ws r) := by
  unfold bindCred
  repeat' first
    | with_reducible first
      | assumption | apply modPool_kept | apply modBuf_kept | refine Part.sub kM ?_
    | split | intro _ | dsimp only | (show Part.subb _ _ = _; rfl)

theorem launchRuntime_kept {kS s : State} {p : Nat} {y : PtnSyl} (kH : Kept M kS s)
    (kM : Within [.resv, .core, .ptn, .syl, .cpt] M := by exact Part.sub (by assumption) (by rfl)) :
    Kept M kS (launchRuntime s p y) := by
  unfold launchRuntime
  repeat' first
    | with_reducible first
      | assumption | contradiction | apply modPtn_kept | apply placeGroup_kept | apply sylEnd_kept
      | refine Kept.of_fst ‹_› ?_ | refine Kept.of_snd ‹_› ?_ | refine Part.sub kM ?_
    | split | intro _ | dsimp only | (show Part.subb _ _ = _; rfl) | (show Membership.mem (γ := List Part) _ _; decide)
    | with_reducible first
      | refine Kept.set_syl ?_ (kM.mem ?_)

theorem bringPartition_kept {kS s : State} {p : Nat} {y : PtnSyl} (kH : Kept M kS s)
    (kM : Within [.fresh, .mem, .memKey, .memErr, .tags, .resv, .mc, .core, .int, .rc, .ptn, .ctx, .syl, .keys, .cpt, .i3c] M := by exact Part.sub (by assumption) (by rfl)) :
    Kept M kS (bringPartition s p y) := by
  unfold bringPartition
  repeat' first
    | with_reducible first
      | assumption | apply forEach_kept | apply modPtn_kept | apply draw_kept | apply writeAs_kept
      | apply setPtnState_kept | apply bumpPtnGen_kept | apply setHold_kept | apply allocate_kept | apply bindCred_kept
      | apply launchRuntime_kept | refine Kept.of_fst ‹_› ?_ | refine Kept.of_snd ‹_› ?_ | apply getD_kept
      | refine Part.sub kM ?_
    | split | intro _ | dsimp only | (show Part.subb _ _ = _; rfl) | (show Membership.mem (γ := List Part) _ _; decide) | (show restore _ _ _ = _; rfl)
    | with_reducible first
      | refine Kept.set_ptn ?_ (kM.mem ?_) | refine Kept.set_ctx ?_ (kM.mem ?_) | refine Kept.set_syl ?_ (kM.mem ?_)
      | refine Kept.set_keys ?_ (kM.mem ?_) | refine Kept.upd ?_ kM ?_

theorem bringModule_kept {kS s : State} {m : ModSyl} {stored : Bool} (kH : Kept M kS s)
    (kM : Within [.mc, .core, .int, .rc, .ptn, .ctx, .syl, .keys, .vat, .i3c] M := by exact Part.sub (by assumption) (by rfl)) :
    Kept M kS (bringModule s m stored) := by
  unfold bringModule
  repeat' first
    | with_reducible first
      | assumption | apply forEach_kept | apply setPtnState_kept | apply getD_kept | refine Part.sub kM ?_
    | split | intro _ | dsimp only | (show Part.subb _ _ = _; rfl) | (show Membership.mem (γ := List Part) _ _; decide) | (show restore _ _ _ = _; rfl)
    | with_reducible first
      | refine Kept.set_syl ?_ (kM.mem ?_) | refine Kept.set_keys ?_ (kM.mem ?_) | refine Kept.set_vat ?_ (kM.mem ?_)
      | refine Kept.upd ?_ kM ?_

theorem keepSections_kept {kS s : State} {p : Nat} {y : PtnSyl} (kH : Kept M kS s)
    (kM : Within [.core] M := by exact Part.sub (by assumption) (by rfl)) :
    Kept M kS (keepSections s p y) := by
  unfold keepSections
  repeat' first
    | with_reducible first
      | assumption | apply forEach_kept | apply modCore_kept | refine Part.sub kM ?_
    | split | intro _ | dsimp only | (show Part.subb _ _ = _; rfl)

theorem applyReload_kept {kS s : State} {p : Nat} (kH : Kept M kS s)
    (kM : Within [.core, .ptn, .sec] M := by exact Part.sub (by assumption) (by rfl)) :
    Kept M kS (applyReload s p) := by
  unfold applyReload
  repeat' first
    | with_reducible first
      | assumption | contradiction | apply modPtn_kept | apply dropPtnEks_kept | apply keepSections_kept
      | refine Kept.of_fst ‹_› ?_ | refine Kept.of_snd ‹_› ?_ | apply getD_kept | refine Part.sub kM ?_
    | split | intro _ | dsimp only | (show Part.subb _ _ = _; rfl)

theorem startReload_kept {kS s : State} {p : Nat} {r : Reload} (kH : Kept M kS s)
    (kM : Within [.core, .ptn, .sec] M := by exact Part.sub (by assumption) (by rfl)) :
    Kept M kS (startReload s p r).1 := by
  unfold startReload
  repeat' first
    | with_reducible first
      | assumption | contradiction | apply modPtn_kept | apply applyReload_kept | refine Kept.of_fst ‹_› ?_
      | refine Kept.of_snd ‹_› ?_ | refine Part.sub kM ?_
    | split | intro _ | dsimp only | (show Part.subb _ _ = _; rfl)

theorem execPartialReloadApply_kept {kS s kT : State} {p : Nat} (kH : Kept M kS s) (kE : execPartialReloadApply p s = .next kT)
    (kM : Within [.core, .ptn, .sec] M := by exact Part.sub (by assumption) (by rfl)) :
    Kept M kS kT := by
  unfold execPartialReloadApply at kE
  repeat' first | contradiction | (injection kE with kE; subst kE) | split at kE | dsimp only at kE
  repeat' first
    | with_reducible first
      | assumption | contradiction | apply applyReload_kept | refine Kept.of_fst ‹_› ?_ | refine Kept.of_snd ‹_› ?_
      | refine Part.sub kM ?_
    | split | intro _ | dsimp only | (show Part.subb _ _ = _; rfl)

theorem sylRefuse_kept {kS s : State} {who : Req} {p scope : Nat} {e : SyFail} (kH : Kept M kS s)
    (kM : Within [.mc, .int, .ptn, .ctx, .led, .lcs, .i3c] M := by exact Part.sub (by assumption) (by rfl)) :
    Kept M kS (sylRefuse s who p scope e) := by
  unfold sylRefuse
  repeat' first
    | with_reducible first
      | assumption | apply raise_kept | apply sylJournal_kept | refine Part.sub kM ?_
    | split | intro _ | dsimp only | (show Part.subb _ _ = _; rfl)

theorem sylReject_kept {kS s : State} {who : Req} {p scope : Nat} {e : SyFail} (kH : Kept M kS s)
    (kM : Within [.mc, .int, .ptn, .ctx, .syl, .led, .lcs, .cpt, .i3c] M := by exact Part.sub (by assumption) (by rfl)) :
    Kept M kS (sylReject s who p scope e) := by
  unfold sylReject
  repeat' first
    | with_reducible first
      | assumption | apply sylEnd_kept | apply sylRefuse_kept | refine Part.sub kM ?_
    | intro _ | dsimp only | (show Part.subb _ _ = _; rfl)

theorem sylLoad_kept {kS s : State} {who : Req} (kH : Kept M kS s)
    (kM : Within [.fresh, .mem, .memKey, .memErr, .tags, .resv, .mc, .core, .int, .rc, .ptn, .ctx, .syl, .keys, .led, .lcs, .sec, .cpt, .vat, .i3c] M := by exact Part.sub (by assumption) (by rfl)) :
    Kept M kS (sylLoad s who) := by
  unfold sylLoad
  repeat' first
    | with_reducible first
      | assumption | contradiction | apply modPtn_kept | apply sylEnd_kept | apply sylJournal_kept
      | apply bringPartition_kept | apply bringModule_kept | apply startReload_kept | apply sylReject_kept
      | refine Kept.of_fst ‹_› ?_ | refine Kept.of_snd ‹_› ?_ | refine Part.sub kM ?_
    | split | intro _ | dsimp only | (show Part.subb _ _ = _; rfl) | (show Membership.mem (γ := List Part) _ _; decide) | (show restore _ _ _ = _; rfl)
    | with_reducible first
      | refine Kept.set_ptn ?_ (kM.mem ?_) | refine Kept.set_syl ?_ (kM.mem ?_) | refine Kept.upd ?_ kM ?_

theorem sylCancel_kept {kS s : State} {who : Req} {p : Nat} (kH : Kept M kS s)
    (kM : Within [.mc, .int, .ptn, .ctx, .syl, .led, .lcs, .cpt, .i3c] M := by exact Part.sub (by assumption) (by rfl)) :
    Kept M kS (sylCancel s who p) := by
  unfold sylCancel
  repeat' first
    | with_reducible first
      | assumption | contradiction | apply modPtn_kept | apply sylEnd_kept | apply sylJournal_kept
      | refine Kept.of_fst ‹_› ?_ | refine Kept.of_snd ‹_› ?_ | refine Part.sub kM ?_
    | split | intro _ | dsimp only | (show Part.subb _ _ = _; rfl)

theorem sylCmd_kept {kS s : State} {who : Req} {word : Nat} (kH : Kept M kS s)
    (kM : Within [.fresh, .mem, .memKey, .memErr, .tags, .resv, .mc, .core, .int, .rc, .ptn, .ctx, .syl, .keys, .led, .lcs, .sec, .cpt, .vat, .i3c] M := by exact Part.sub (by assumption) (by rfl)) :
    Kept M kS (sylCmd s who word) := by
  unfold sylCmd
  repeat' first
    | with_reducible first
      | assumption | apply sylEvent_kept | apply sylRefuse_kept | apply sylLoad_kept | apply sylCancel_kept
      | refine Part.sub kM ?_
    | split | intro _ | dsimp only | (show Part.subb _ _ = _; rfl) | (show Membership.mem (γ := List Part) _ _; decide)
    | with_reducible first
      | refine Kept.set_syl ?_ (kM.mem ?_)

theorem execSyllabusLoad_kept {kS s kT : State} {who : Req} {len : Nat} (kH : Kept M kS s)
    (kE : execSyllabusLoad who len s = .next kT)
    (kM : Within [.fresh, .mem, .memKey, .memErr, .tags, .resv, .mc, .core, .int, .rc, .ptn, .ctx, .syl, .keys, .led, .lcs, .sec, .cpt, .vat, .i3c] M := by exact Part.sub (by assumption) (by rfl)) :
    Kept M kS kT := by
  unfold execSyllabusLoad at kE
  repeat' first | contradiction | (injection kE with kE; subst kE) | split at kE | dsimp only at kE
  repeat' first
    | with_reducible first
      | assumption | apply sylCmd_kept | refine Part.sub kM ?_
    | split | intro _ | dsimp only | (show Part.subb _ _ = _; rfl) | (show Membership.mem (γ := List Part) _ _; decide)
    | with_reducible first
      | refine Kept.set_syl ?_ (kM.mem ?_)

theorem execSyllabusCancel_kept {kS s kT : State} {who : Req} {p : Nat} (kH : Kept M kS s)
    (kE : execSyllabusCancel who p s = .next kT)
    (kM : Within [.fresh, .mem, .memKey, .memErr, .tags, .resv, .mc, .core, .int, .rc, .ptn, .ctx, .syl, .keys, .led, .lcs, .sec, .cpt, .vat, .i3c] M := by exact Part.sub (by assumption) (by rfl)) :
    Kept M kS kT := by
  unfold execSyllabusCancel at kE
  repeat' first | contradiction | (injection kE with kE; subst kE) | split at kE | dsimp only at kE
  repeat' first
    | with_reducible first
      | assumption | apply sylCmd_kept | refine Part.sub kM ?_
    | split | intro _ | dsimp only | (show Part.subb _ _ = _; rfl)

theorem execLaunchPlaced_kept {kS s kT : State} {p : Nat} (kH : Kept M kS s) (kE : execLaunchPlaced p s = .next kT)
    (kM : Within [.resv, .core, .ptn, .syl, .cpt] M := by exact Part.sub (by assumption) (by rfl)) :
    Kept M kS kT := by
  unfold execLaunchPlaced at kE
  repeat' first | contradiction | (injection kE with kE; subst kE) | split at kE | dsimp only at kE
  repeat' first
    | with_reducible first
      | assumption | apply placeNext_kept | refine Part.sub kM ?_
    | intro _ | dsimp only | (show Part.subb _ _ = _; rfl)

theorem execEnableQueuedApply_kept {kS s kT : State} {f : EnableOf} (kH : Kept M kS s) (kE : execEnableQueuedApply f s = .next kT)
    (kM : Within [.fresh, .mem, .memKey, .memErr, .tags, .resv, .mc, .core, .int, .rc, .ptn, .ctx, .brn, .syl, .keys, .cpt, .i3c] M := by exact Part.sub (by assumption) (by rfl)) :
    Kept M kS kT := by
  unfold execEnableQueuedApply at kE
  repeat' first | contradiction | (injection kE with kE; subst kE) | split at kE | dsimp only at kE
  repeat' first
    | with_reducible first
      | assumption | contradiction | apply applyCtxEnables_kept | apply bringPartition_kept | refine Kept.of_fst ‹_› ?_
      | refine Kept.of_snd ‹_› ?_ | refine Part.sub kM ?_
    | split | intro _ | dsimp only | (show Part.subb _ _ = _; rfl) | (show Membership.mem (γ := List Part) _ _; decide) | (show restore _ _ _ = _; rfl)
    | with_reducible first
      | refine Kept.set_brn ?_ (kM.mem ?_) | refine Kept.set_syl ?_ (kM.mem ?_) | refine Kept.upd ?_ kM ?_

/-! ### Press -/

theorem pThen_kept {kS : State} {α β : Type} {r : PRes α} {f : State → α → PRes β} (h : Kept M kS r.1)
    (hf : ∀ s x, Kept M kS s → Kept M kS (f s x).1) : Kept M kS (pThen r f).1 := by
  unfold pThen
  split
  · exact hf _ _ h
  · exact h

theorem pGet_kept {kS s : State} {x : PRun} {ga n : Nat} (kH : Kept M kS s)
    (kM : Within [.mem, .memErr, .tags, .resv, .mc, .core, .int, .ptn, .ctx, .i3c] M := by exact Part.sub (by assumption) (by rfl)) :
    Kept M kS (pGet s x ga n).1 := by
  unfold pGet
  repeat' first
    | with_reducible first
      | assumption | contradiction | apply readAs_kept | refine Kept.of_fst ‹_› ?_ | refine Kept.of_snd ‹_› ?_
      | refine Part.sub kM ?_
    | split | intro _ | dsimp only | (show Part.subb _ _ = _; rfl)

theorem pressRind_kept {kS s : State} {x : PRun} {la : Nat} (kH : Kept M kS s)
    (kM : Within [.mc, .int, .ptn, .ctx, .i3c] M := by exact Part.sub (by assumption) (by rfl)) :
    Kept M kS (pressRind s x la) := by
  unfold pressRind
  repeat' first
    | with_reducible first
      | assumption | apply raise_kept | refine Part.sub kM ?_
    | intro _ | dsimp only | (show Part.subb _ _ = _; rfl)

theorem pPut_kept {kS s : State} {x : PRun} {ga : Nat} {bs : List Byte} (kH : Kept M kS s)
    (kM : Within [.mem, .memKey, .memErr, .tags, .resv, .mc, .core, .int, .ptn, .ctx, .i3c] M := by exact Part.sub (by assumption) (by rfl)) :
    Kept M kS (pPut s x ga bs) := by
  unfold pPut
  repeat' first
    | with_reducible first
      | assumption | contradiction | apply writeAs_kept | apply pressRind_kept | refine Kept.of_fst ‹_› ?_
      | refine Kept.of_snd ‹_› ?_ | refine Part.sub kM ?_
    | split | intro _ | dsimp only | (show Part.subb _ _ = _; rfl)

theorem itemGet_kept {kS s : State} {x : PRun} {a n : Nat} (kH : Kept M kS s)
    (kM : Within [.mem, .memErr, .tags, .resv, .mc, .core, .int, .ptn, .ctx, .i3c] M := by exact Part.sub (by assumption) (by rfl)) :
    Kept M kS (itemGet s x a n).1 := by
  unfold itemGet
  repeat' first
    | with_reducible first
      | assumption | apply pGet_kept | refine Kept.of_fst ‹_› ?_ | refine Kept.of_snd ‹_› ?_ | refine Part.sub kM ?_
    | split | intro _ | dsimp only | (show Part.subb _ _ = _; rfl)

theorem itemPut_kept {kS s : State} {x : PRun} {a : Nat} {bs : List Byte} (kH : Kept M kS s)
    (kM : Within [.mem, .memKey, .memErr, .tags, .resv, .mc, .core, .int, .ptn, .ctx, .i3c] M := by exact Part.sub (by assumption) (by rfl)) :
    Kept M kS (itemPut s x a bs) := by
  unfold itemPut
  repeat' first
    | with_reducible first
      | assumption | contradiction | apply writeUnder_kept | apply pressRind_kept | apply pPut_kept
      | refine Kept.of_fst ‹_› ?_ | refine Kept.of_snd ‹_› ?_ | refine Part.sub kM ?_
    | split | intro _ | dsimp only | (show Part.subb _ _ = _; rfl)

theorem itemIn_kept {kS s : State} {x : PRun} {kind a n : Nat} (kH : Kept M kS s)
    (kM : Within [.mem, .memErr, .tags, .resv, .mc, .core, .int, .ptn, .ctx, .i3c] M := by exact Part.sub (by assumption) (by rfl)) :
    Kept M kS (itemIn s x kind a n).1 := by
  unfold itemIn
  repeat' first
    | with_reducible first
      | assumption | contradiction | apply itemGet_kept | refine Kept.of_fst ‹_› ?_ | refine Kept.of_snd ‹_› ?_
      | refine Part.sub kM ?_
    | split | intro _ | dsimp only | (show Part.subb _ _ = _; rfl)

theorem gradIn_kept {kS s : State} {x : PRun} {p : PPanel} {k : Nat} (kH : Kept M kS s)
    (kM : Within [.mem, .memErr, .tags, .resv, .mc, .core, .int, .ptn, .ctx, .i3c] M := by exact Part.sub (by assumption) (by rfl)) :
    Kept M kS (gradIn s x p k).1 := by
  unfold gradIn
  repeat' first
    | with_reducible first
      | assumption | apply pThen_kept | apply itemIn_kept | refine Part.sub kM ?_
    | intro _ | dsimp only | (show Part.subb _ _ = _; rfl)

theorem gradOut_kept {kS s : State} {x : PRun} {p : PPanel} {old : List Byte} {sums : Option (Nat × Word)} {vs : List Word}
    (kH : Kept M kS s)
    (kM : Within [.mem, .memKey, .memErr, .tags, .resv, .mc, .core, .int, .ptn, .ctx, .i3c] M := by exact Part.sub (by assumption) (by rfl)) :
    Kept M kS (gradOut s x p old sums vs) := by
  unfold gradOut
  repeat' first
    | with_reducible first
      | assumption | contradiction | apply itemPut_kept | refine Kept.of_fst ‹_› ?_ | refine Kept.of_snd ‹_› ?_
      | refine Part.sub kM ?_
    | split | intro _ | dsimp only | (show Part.subb _ _ = _; rfl)

theorem arrayIn_kept {kS s : State} {x : PRun} {base : Nat} {p : PPanel} (kH : Kept M kS s)
    (kM : Within [.mem, .memErr, .tags, .resv, .mc, .core, .int, .ptn, .ctx, .i3c] M := by exact Part.sub (by assumption) (by rfl)) :
    Kept M kS (arrayIn s x base p).1 := by
  unfold arrayIn
  repeat' first
    | with_reducible first
      | assumption | apply pGet_kept | refine Part.sub kM ?_
    | intro _ | dsimp only | (show Part.subb _ _ = _; rfl)

theorem pwordIn_kept {kS s : State} {x : PRun} {r : Nat} (kH : Kept M kS s)
    (kM : Within [.mem, .memErr, .tags, .resv, .mc, .core, .int, .ptn, .ctx, .i3c] M := by exact Part.sub (by assumption) (by rfl)) :
    Kept M kS (pwordIn s x r).1 := by
  unfold pwordIn
  repeat' first
    | with_reducible first
      | assumption | apply pGet_kept | refine Kept.of_fst ‹_› ?_ | refine Kept.of_snd ‹_› ?_ | refine Part.sub kM ?_
    | split | intro _ | dsimp only | (show Part.subb _ _ = _; rfl)

theorem pwordOut_kept {kS s : State} {x : PRun} {r : Nat} {w : PWord} (kH : Kept M kS s)
    (kM : Within [.mem, .memKey, .memErr, .tags, .resv, .mc, .core, .int, .ptn, .ctx, .i3c] M := by exact Part.sub (by assumption) (by rfl)) :
    Kept M kS (pwordOut s x r w) := by
  unfold pwordOut
  repeat' first
    | with_reducible first
      | assumption | apply pPut_kept | refine Part.sub kM ?_
    | intro _ | dsimp only | (show Part.subb _ _ = _; rfl)

theorem maskIn_kept {kS s : State} {x : PRun} {p : PPanel} (kH : Kept M kS s)
    (kM : Within [.mem, .memErr, .tags, .resv, .mc, .core, .int, .ptn, .ctx, .i3c] M := by exact Part.sub (by assumption) (by rfl)) :
    Kept M kS (maskIn s x p).1 := by
  unfold maskIn
  repeat' first
    | with_reducible first
      | assumption | apply pGet_kept | refine Kept.of_fst ‹_› ?_ | refine Kept.of_snd ‹_› ?_ | refine Part.sub kM ?_
    | split | intro _ | dsimp only | (show Part.subb _ _ = _; rfl)

theorem countGrad_kept {kS s : State} {c clamp nan : Nat} (kH : Kept M kS s)
    (kM : Within [.ctx] M := by exact Part.sub (by assumption) (by rfl)) :
    Kept M kS (countGrad s c clamp nan) := by
  unfold countGrad
  repeat' first
    | with_reducible first
      | assumption | apply modCtx_kept | refine Part.sub kM ?_
    | split | intro _ | dsimp only | (show Part.subb _ _ = _; rfl)

theorem countMaster_kept {kS s : State} {c clamp nan : Nat} (kH : Kept M kS s)
    (kM : Within [.ctx] M := by exact Part.sub (by assumption) (by rfl)) :
    Kept M kS (countMaster s c clamp nan) := by
  unfold countMaster
  repeat' first
    | with_reducible first
      | assumption | apply modCtx_kept | refine Part.sub kM ?_
    | split | intro _ | dsimp only | (show Part.subb _ _ = _; rfl)

theorem takePanel_kept {kS s : State} {x : PRun} {p : PPanel} (kH : Kept M kS s)
    (kM : Within [.mem, .memKey, .memErr, .tags, .resv, .mc, .core, .int, .ptn, .ctx, .i3c] M := by exact Part.sub (by assumption) (by rfl)) :
    Kept M kS (takePanel s x p).1 := by
  unfold takePanel
  repeat' first
    | with_reducible first
      | assumption | apply pwordIn_kept | apply pwordOut_kept | refine Kept.of_fst ‹_› ?_ | refine Kept.of_snd ‹_› ?_
      | refine Part.sub kM ?_
    | split | intro _ | dsimp only | (show Part.subb _ _ = _; rfl)

theorem statesIn_kept {kS s : State} {x : PRun} {p : PPanel} {w : PWord} (kH : Kept M kS s)
    (kM : Within [.mem, .memErr, .tags, .resv, .mc, .core, .int, .ptn, .ctx, .i3c] M := by exact Part.sub (by assumption) (by rfl)) :
    Kept M kS (statesIn s x p w).1 := by
  unfold statesIn
  repeat' first
    | with_reducible first
      | assumption | apply arrayIn_kept | refine Kept.of_fst ‹_› ?_ | refine Kept.of_snd ‹_› ?_ | refine Part.sub kM ?_
    | split | intro _ | dsimp only | (show Part.subb _ _ = _; rfl)

theorem statesOut_kept {kS s : State} {x : PRun} {p : PPanel} {bm b1 b2 : List Byte} (kH : Kept M kS s)
    (kM : Within [.mem, .memKey, .memErr, .tags, .resv, .mc, .core, .int, .ptn, .ctx, .i3c] M := by exact Part.sub (by assumption) (by rfl)) :
    Kept M kS (statesOut s x p bm b1 b2) := by
  unfold statesOut
  repeat' first
    | with_reducible first
      | assumption | apply pPut_kept | refine Part.sub kM ?_
    | split | intro _ | dsimp only | (show Part.subb _ _ = _; rfl)

theorem initPanel_kept {kS s : State} {x : PRun} {p : PPanel} {w : PWord} (kH : Kept M kS s)
    (kM : Within [.mem, .memKey, .memErr, .tags, .resv, .mc, .core, .int, .ptn, .ctx, .i3c] M := by exact Part.sub (by assumption) (by rfl)) :
    Kept M kS (initPanel s x p w).1 := by
  unfold initPanel
  repeat' first
    | with_reducible first
      | assumption | apply pThen_kept | apply itemPut_kept | apply itemIn_kept | apply pwordOut_kept
      | apply countMaster_kept | apply statesOut_kept | refine Part.sub kM ?_
    | split | intro _ | dsimp only | (show Part.subb _ _ = _; rfl)

theorem leavesIn_kept {kS : State} {x : PRun} {p : PPanel} {j : Nat} (kM :
    Within [.mem, .memErr, .tags, .resv, .mc, .core, .int, .ptn, .ctx, .i3c] M := by exact Part.sub (by assumption) (by rfl)) :
    ∀ {xs : List Nat} {s : State}, Kept M kS s → Kept M kS (leavesIn s x p j xs).1
  | [], _, h => h
  | l :: ls, s, h => by
    unfold leavesIn
    exact pThen_kept (gradIn_kept h) fun _ _ h => pThen_kept (leavesIn_kept (Part.sub kM rfl) h) fun _ _ h => h

theorem microBatch_kept {kS s : State} {x : PRun} {p : PPanel} {j : Nat} (kH : Kept M kS s)
    (kM : Within [.mem, .memErr, .tags, .resv, .mc, .core, .int, .ptn, .ctx, .i3c] M := by exact Part.sub (by assumption) (by rfl)) :
    Kept M kS (microBatch s x p j).1 := by
  unfold microBatch
  repeat' first
    | with_reducible first
      | assumption | apply pThen_kept | apply leavesIn_kept | refine Part.sub kM ?_
    | split | intro _ | dsimp only | (show Part.subb _ _ = _; rfl)

theorem microBatches_kept {kS : State} {x : PRun} {p : PPanel} (kM :
    Within [.mem, .memErr, .tags, .resv, .mc, .core, .int, .ptn, .ctx, .i3c] M := by exact Part.sub (by assumption) (by rfl)) :
    ∀ {xs : List Nat} {s : State}, Kept M kS s → Kept M kS (microBatches s x p xs).1
  | [], _, h => h
  | l :: ls, s, h => by
    unfold microBatches
    exact pThen_kept (microBatch_kept h) fun _ _ h => pThen_kept (microBatches_kept (Part.sub kM rfl) h) fun _ _ h => h

theorem reducePanel_kept {kS s : State} {x : PRun} {hp : Hyper} {p : PPanel} {w : PWord} (kH : Kept M kS s)
    (kM : Within [.mem, .memKey, .memErr, .tags, .resv, .mc, .core, .int, .ptn, .ctx, .i3c] M := by exact Part.sub (by assumption) (by rfl)) :
    Kept M kS (reducePanel s x hp p w).1 := by
  unfold reducePanel
  repeat' first
    | with_reducible first
      | assumption | apply pThen_kept | apply pPut_kept | apply itemIn_kept | apply gradOut_kept | apply pwordOut_kept
      | apply maskIn_kept | apply countGrad_kept | apply microBatches_kept | refine Kept.of_fst ‹_› ?_
      | refine Kept.of_snd ‹_› ?_ | refine Part.sub kM ?_
    | split | intro _ | dsimp only | (show Part.subb _ _ = _; rfl)

theorem normPanel_kept {kS s : State} {x : PRun} {hp : Hyper} {p : PPanel} {w : PWord} (kH : Kept M kS s)
    (kM : Within [.mem, .memKey, .memErr, .tags, .resv, .mc, .core, .int, .ptn, .ctx, .i3c] M := by exact Part.sub (by assumption) (by rfl)) :
    Kept M kS (normPanel s x hp p w).1 := by
  unfold normPanel
  repeat' first
    | with_reducible first
      | assumption | apply pThen_kept | apply pPut_kept | apply gradIn_kept | apply gradOut_kept | apply pwordOut_kept
      | apply maskIn_kept | apply countGrad_kept | refine Kept.of_fst ‹_› ?_ | refine Kept.of_snd ‹_› ?_
      | refine Part.sub kM ?_
    | split | intro _ | dsimp only | (show Part.subb _ _ = _; rfl)

theorem ringPut_kept {kS s : State} {x : PRun} {rec : List Byte} (kH : Kept M kS s)
    (kM : Within [.mem, .memKey, .memErr, .tags, .resv, .mc, .core, .int, .ptn, .ctx, .i3c] M := by exact Part.sub (by assumption) (by rfl)) :
    Kept M kS (ringPut s x rec) := by
  unfold ringPut
  repeat' first
    | with_reducible first
      | assumption | apply pGet_kept | apply pPut_kept | refine Kept.of_fst ‹_› ?_ | refine Kept.of_snd ‹_› ?_
      | refine Part.sub kM ?_
    | split | intro _ | dsimp only | (show Part.subb _ _ = _; rfl)

theorem exportPanel_kept {kS s : State} {x : PRun} {p : PPanel} {w : PWord} (kH : Kept M kS s)
    (kM : Within [.mem, .memKey, .memErr, .tags, .resv, .mc, .core, .int, .ptn, .ctx, .i3c] M := by exact Part.sub (by assumption) (by rfl)) :
    Kept M kS (exportPanel s x p w).1 := by
  unfold exportPanel
  repeat' first
    | with_reducible first
      | assumption | apply pThen_kept | apply itemIn_kept | apply pwordOut_kept | apply statesIn_kept
      | apply ringPut_kept | refine Part.sub kM ?_
    | split | intro _ | dsimp only | (show Part.subb _ _ = _; rfl)

theorem applyPanel_kept {kS s : State} {x : PRun} {hp : Hyper} {k : Scalars} {room : Bool} {p : PPanel} {w : PWord}
    (kH : Kept M kS s)
    (kM : Within [.mem, .memKey, .memErr, .tags, .resv, .mc, .core, .int, .ptn, .ctx, .prs, .i3c] M := by exact Part.sub (by assumption) (by rfl)) :
    Kept M kS (applyPanel s x hp k room p w).1 := by
  unfold applyPanel
  repeat' first
    | with_reducible first
      | assumption | contradiction | apply modPrs_kept | apply pThen_kept | apply itemGet_kept | apply itemPut_kept
      | apply gradIn_kept | apply pwordOut_kept | apply maskIn_kept | apply countMaster_kept | apply statesIn_kept
      | apply statesOut_kept | apply ringPut_kept | refine Kept.of_fst ‹_› ?_ | refine Kept.of_snd ‹_› ?_
      | refine Part.sub kM ?_
    | split | intro _ | dsimp only | (show Part.subb _ _ = _; rfl)

theorem pressResidue_kept {kS s : State} {x : PRun} {res : Option (Nat × Bool)} {p : PPanel} (kH : Kept M kS s)
    (kM : Within [.mc, .int, .ptn, .ctx, .i3c] M := by exact Part.sub (by assumption) (by rfl)) :
    Kept M kS (pressResidue s x res p).1 := by
  unfold pressResidue
  repeat' first
    | with_reducible first
      | assumption | contradiction | apply raise_kept | refine Kept.of_fst ‹_› ?_ | refine Kept.of_snd ‹_› ?_
      | refine Part.sub kM ?_
    | split | intro _ | dsimp only | (show Part.subb _ _ = _; rfl)

theorem panelOp_kept {kS s : State} {x : PRun} {hp : Hyper} {k : Scalars} {room : Bool} {p : PPanel} {w : PWord}
    (kH : Kept M kS s)
    (kM : Within [.mem, .memKey, .memErr, .tags, .resv, .mc, .core, .int, .ptn, .ctx, .prs, .i3c] M := by exact Part.sub (by assumption) (by rfl)) :
    Kept M kS (panelOp s x hp k room p w).1 := by
  unfold panelOp
  repeat' first
    | with_reducible first
      | assumption | apply initPanel_kept | apply reducePanel_kept | apply normPanel_kept | apply exportPanel_kept
      | apply applyPanel_kept | refine Part.sub kM ?_
    | split | intro _ | dsimp only | (show Part.subb _ _ = _; rfl)

theorem releaseStopped_kept {kS : State} {x : PRun} {p : PPanel} {w : PWord} {r : PRes Unit} (h :
    Kept M kS r.1) (kM : Within [.mem, .memKey, .memErr, .tags, .resv, .mc, .core, .int, .ptn, .ctx, .i3c] M := by exact Part.sub (by assumption) (by rfl)) :
    Kept M kS (releaseStopped x p w r).1 := by
  unfold releaseStopped
  split
  · exact h
  · exact pwordOut_kept h (Part.sub kM (by rfl))

theorem workPanel_kept {kS s : State} {x : PRun} {hp : Hyper} {k : Scalars} {room : Bool} {res : Option (Nat × Bool)} {p : PPanel}
    (kH : Kept M kS s)
    (kM : Within [.mem, .memKey, .memErr, .tags, .resv, .mc, .core, .int, .ptn, .ctx, .prs, .i3c] M := by exact Part.sub (by assumption) (by rfl)) :
    Kept M kS (workPanel s x hp k room res p).1 := by
  unfold workPanel
  repeat' first
    | with_reducible first
      | assumption | apply pThen_kept | apply takePanel_kept | apply pressResidue_kept | apply panelOp_kept
      | apply releaseStopped_kept | refine Part.sub kM ?_
    | intro _ | dsimp only | (show Part.subb _ _ = _; rfl)

theorem workPanels_kept {kS : State} {f : State → PPanel → PRes Unit} (hf : ∀ s x, Kept M kS s → Kept M kS (f s x).1) :
    ∀ {xs : List PPanel} {s : State}, Kept M kS s → Kept M kS (workPanels f s xs).1
  | [], _, h => h
  | x :: xs, s, h => by
    unfold workPanels
    exact pThen_kept (hf s x h) fun _ _ h => workPanels_kept hf h

theorem trackPsb_kept {kS s : State} {c a : Nat} {f : PsbTrack → PsbTrack} (kH : Kept M kS s)
    (kM : Within [.ctx] M := by exact Part.sub (by assumption) (by rfl)) :
    Kept M kS (trackPsb s c a f) := by
  unfold trackPsb
  repeat' first
    | with_reducible first
      | assumption | apply modCtx_kept | refine Part.sub kM ?_
    | split | intro _ | dsimp only | (show Part.subb _ _ = _; rfl)

theorem closeStep_kept {kS s : State} {x : PRun} {k : Scalars} (kH : Kept M kS s)
    (kM : Within [.fresh, .mem, .memKey, .memErr, .tags, .resv, .mc, .core, .int, .ptn, .ctx, .prs, .i3c] M := by exact Part.sub (by assumption) (by rfl)) :
    Kept M kS (closeStep s x k).1 := by
  unfold closeStep
  repeat' first
    | with_reducible first
      | assumption | contradiction | apply forEach_kept | apply draw_kept | apply modPrs_kept | apply pThen_kept
      | apply pPut_kept | apply gradIn_kept | apply pwordIn_kept | apply pwordOut_kept | apply trackPsb_kept
      | refine Kept.of_fst ‹_› ?_ | refine Kept.of_snd ‹_› ?_ | refine Part.sub kM ?_
    | split | intro _ | dsimp only | (show Part.subb _ _ = _; rfl)

theorem exportCover_kept {kS s : State} {x : PRun} (kH : Kept M kS s)
    (kM : Within [.mem, .memKey, .memErr, .tags, .resv, .mc, .core, .int, .ptn, .ctx, .i3c] M := by exact Part.sub (by assumption) (by rfl)) :
    Kept M kS (exportCover s x) := by
  unfold exportCover
  repeat' first
    | with_reducible first
      | assumption | apply pPut_kept | apply trackPsb_kept | apply foldl_kept | apply foldl_state_kept
      | refine Part.sub kM ?_
    | split | intro _ | dsimp only | (show Part.subb _ _ = _; rfl)

theorem psbPanels_kept {kS s : State} {x : PRun} (kH : Kept M kS s)
    (kM : Within [.mem, .memErr, .tags, .resv, .mc, .core, .int, .ptn, .ctx, .i3c] M := by exact Part.sub (by assumption) (by rfl)) :
    Kept M kS (psbPanels s x).1 := by
  unfold psbPanels
  repeat' first
    | with_reducible first
      | assumption | apply pGet_kept | refine Kept.of_fst ‹_› ?_ | refine Kept.of_snd ‹_› ?_ | refine Part.sub kM ?_
    | split | intro _ | dsimp only | (show Part.subb _ _ = _; rfl)

theorem slotState_kept {kS s : State} {x : PRun} (kH : Kept M kS s)
    (kM : Within [.mem, .memKey, .memErr, .resv, .mc, .int, .ptn, .ctx, .i3c] M := by exact Part.sub (by assumption) (by rfl)) :
    Kept M kS (slotState s x) := by
  unfold slotState
  repeat' first
    | with_reducible first
      | assumption | contradiction | apply putSlot_kept | apply vatBad_kept | refine Kept.of_fst ‹_› ?_
      | refine Kept.of_snd ‹_› ?_ | refine Part.sub kM ?_
    | split | intro _ | dsimp only | (show Part.subb _ _ = _; rfl)

theorem workPsb_kept {kS s : State} {x : PRun} {res : Option (Nat × Bool)} (kH : Kept M kS s)
    (kM : Within [.fresh, .mem, .memKey, .memErr, .tags, .resv, .mc, .core, .int, .ptn, .ctx, .prs, .i3c] M := by exact Part.sub (by assumption) (by rfl)) :
    Kept M kS (workPsb s x res).1 := by
  unfold workPsb
  repeat' first
    | with_reducible first
      | assumption | contradiction | apply pGet_kept | apply pPut_kept | apply workPanel_kept | apply workPanels_kept
      | apply closeStep_kept | apply exportCover_kept | apply slotState_kept | refine Kept.of_fst ‹_› ?_
      | refine Kept.of_snd ‹_› ?_ | refine Part.sub kM ?_
    | split | intro _ | dsimp only | (show Part.subb _ _ = _; rfl)

theorem openPsb_kept {kS s : State} {x : PRun} {res : Option (Nat × Bool)} (kH : Kept M kS s)
    (kM : Within [.fresh, .mem, .memKey, .memErr, .tags, .resv, .mc, .core, .int, .ptn, .ctx, .prs, .i3c] M := by exact Part.sub (by assumption) (by rfl)) :
    Kept M kS (openPsb s x res).1 := by
  unfold openPsb
  repeat' first
    | with_reducible first
      | assumption | contradiction | apply trackPsb_kept | apply psbPanels_kept | apply workPsb_kept
      | refine Kept.of_fst ‹_› ?_ | refine Kept.of_snd ‹_› ?_ | refine Part.sub kM ?_
    | split | intro _ | dsimp only | (show Part.subb _ _ = _; rfl)

theorem runPcd_kept {kS s : State} {region : Nat} {res : Option (Nat × Bool)} {e : QEntry} (kH : Kept M kS s)
    (kM : Within [.fresh, .mem, .memKey, .memErr, .tags, .resv, .mc, .core, .int, .ptn, .ctx, .prs, .i3c] M := by exact Part.sub (by assumption) (by rfl)) :
    Kept M kS (runPcd s region res e).1 := by
  unfold runPcd
  repeat' first
    | with_reducible first
      | assumption | contradiction | apply pGet_kept | apply openPsb_kept | refine Kept.of_fst ‹_› ?_
      | refine Kept.of_snd ‹_› ?_ | refine Part.sub kM ?_
    | split | intro _ | dsimp only | (show Part.subb _ _ = _; rfl)

theorem endPcd_kept {kS : State} {r : State × PEnd} {region : Nat} {e : QEntry} (kH : Kept M kS r.1)
    (kM : Within [.mc, .core, .int, .rc, .ptn, .ctx, .prs, .i3c] M := by exact Part.sub (by assumption) (by rfl)) :
    Kept M kS (endPcd region e r) := by
  unfold endPcd
  repeat' first
    | with_reducible first
      | assumption | contradiction | apply modCtx_kept | apply raise_kept | apply modPrs_kept | apply doneAdd_kept
      | refine Kept.of_fst ‹_› ?_ | refine Kept.of_snd ‹_› ?_ | refine Part.sub kM ?_
    | split | intro _ | dsimp only | (show Part.subb _ _ = _; rfl)

theorem startPcd_kept {kS s : State} {region op : Nat} {res : Option (Nat × Bool)} (kH : Kept M kS s)
    (kM : Within [.fresh, .mem, .memKey, .memErr, .tags, .resv, .mc, .core, .int, .rc, .ptn, .ctx, .prs, .i3c] M := by exact Part.sub (by assumption) (by rfl)) :
    Kept M kS (startPcd s region op res) := by
  unfold startPcd
  repeat' first
    | with_reducible first
      | assumption | contradiction | apply modPrs_kept | apply runPcd_kept | apply endPcd_kept
      | refine Kept.of_fst ‹_› ?_ | refine Kept.of_snd ‹_› ?_ | refine Part.sub kM ?_
    | split | intro _ | dsimp only | (show Part.subb _ _ = _; rfl)

theorem execPrsInit_kept {kS s kT : State} {press : Nat} {res : Option (Nat × Bool)} (kH : Kept M kS s)
    (kE : execPrsInit press res s = .next kT)
    (kM : Within [.fresh, .mem, .memKey, .memErr, .tags, .resv, .mc, .core, .int, .rc, .ptn, .ctx, .prs, .i3c] M := by exact Part.sub (by assumption) (by rfl)) :
    Kept M kS kT := by
  unfold execPrsInit at kE
  repeat' first | contradiction | (injection kE with kE; subst kE) | split at kE | dsimp only at kE
  repeat' first
    | with_reducible first
      | assumption | apply startPcd_kept | refine Part.sub kM ?_
    | intro _ | dsimp only | (show Part.subb _ _ = _; rfl)

theorem execPrsReduce_kept {kS s kT : State} {press : Nat} {res : Option (Nat × Bool)} (kH : Kept M kS s)
    (kE : execPrsReduce press res s = .next kT)
    (kM : Within [.fresh, .mem, .memKey, .memErr, .tags, .resv, .mc, .core, .int, .rc, .ptn, .ctx, .prs, .i3c] M := by exact Part.sub (by assumption) (by rfl)) :
    Kept M kS kT := by
  unfold execPrsReduce at kE
  repeat' first | contradiction | (injection kE with kE; subst kE) | split at kE | dsimp only at kE
  repeat' first
    | with_reducible first
      | assumption | apply startPcd_kept | refine Part.sub kM ?_
    | intro _ | dsimp only | (show Part.subb _ _ = _; rfl)

theorem execPrsNorm_kept {kS s kT : State} {press : Nat} {res : Option (Nat × Bool)} (kH : Kept M kS s)
    (kE : execPrsNorm press res s = .next kT)
    (kM : Within [.fresh, .mem, .memKey, .memErr, .tags, .resv, .mc, .core, .int, .rc, .ptn, .ctx, .prs, .i3c] M := by exact Part.sub (by assumption) (by rfl)) :
    Kept M kS kT := by
  unfold execPrsNorm at kE
  repeat' first | contradiction | (injection kE with kE; subst kE) | split at kE | dsimp only at kE
  repeat' first
    | with_reducible first
      | assumption | apply startPcd_kept | refine Part.sub kM ?_
    | intro _ | dsimp only | (show Part.subb _ _ = _; rfl)

theorem execPrsReduceNorm_kept {kS s kT : State} {press : Nat} {res : Option (Nat × Bool)} (kH : Kept M kS s)
    (kE : execPrsReduceNorm press res s = .next kT)
    (kM : Within [.fresh, .mem, .memKey, .memErr, .tags, .resv, .mc, .core, .int, .rc, .ptn, .ctx, .prs, .i3c] M := by exact Part.sub (by assumption) (by rfl)) :
    Kept M kS kT := by
  unfold execPrsReduceNorm at kE
  repeat' first | contradiction | (injection kE with kE; subst kE) | split at kE | dsimp only at kE
  repeat' first
    | with_reducible first
      | assumption | apply startPcd_kept | refine Part.sub kM ?_
    | intro _ | dsimp only | (show Part.subb _ _ = _; rfl)

theorem execPrsApply_kept {kS s kT : State} {press : Nat} {res : Option (Nat × Bool)} (kH : Kept M kS s)
    (kE : execPrsApply press res s = .next kT)
    (kM : Within [.fresh, .mem, .memKey, .memErr, .tags, .resv, .mc, .core, .int, .rc, .ptn, .ctx, .prs, .i3c] M := by exact Part.sub (by assumption) (by rfl)) :
    Kept M kS kT := by
  unfold execPrsApply at kE
  repeat' first | contradiction | (injection kE with kE; subst kE) | split at kE | dsimp only at kE
  repeat' first
    | with_reducible first
      | assumption | apply startPcd_kept | refine Part.sub kM ?_
    | intro _ | dsimp only | (show Part.subb _ _ = _; rfl)

theorem execPrsClose_kept {kS s kT : State} {press : Nat} {res : Option (Nat × Bool)} (kH : Kept M kS s)
    (kE : execPrsClose press res s = .next kT)
    (kM : Within [.fresh, .mem, .memKey, .memErr, .tags, .resv, .mc, .core, .int, .rc, .ptn, .ctx, .prs, .i3c] M := by exact Part.sub (by assumption) (by rfl)) :
    Kept M kS kT := by
  unfold execPrsClose at kE
  repeat' first | contradiction | (injection kE with kE; subst kE) | split at kE | dsimp only at kE
  repeat' first
    | with_reducible first
      | assumption | apply startPcd_kept | refine Part.sub kM ?_
    | intro _ | dsimp only | (show Part.subb _ _ = _; rfl)

theorem execPrsExport_kept {kS s kT : State} {press : Nat} {res : Option (Nat × Bool)} (kH : Kept M kS s)
    (kE : execPrsExport press res s = .next kT)
    (kM : Within [.fresh, .mem, .memKey, .memErr, .tags, .resv, .mc, .core, .int, .rc, .ptn, .ctx, .prs, .i3c] M := by exact Part.sub (by assumption) (by rfl)) :
    Kept M kS kT := by
  unfold execPrsExport at kE
  repeat' first | contradiction | (injection kE with kE; subst kE) | split at kE | dsimp only at kE
  repeat' first
    | with_reducible first
      | assumption | apply startPcd_kept | refine Part.sub kM ?_
    | intro _ | dsimp only | (show Part.subb _ _ = _; rfl)

/-! ### Integrity -/

theorem putRep_kept {kS s : State} {k : Nat} {r : Repair} (kH : Kept M kS s)
    (kM : Within [.mc, .int, .ptn, .ctx, .led, .lcs, .i3c] M := by exact Part.sub (by assumption) (by rfl)) :
    Kept M kS (putRep s k r) := by
  unfold putRep
  exact journal_kept (Kept.updLed kH kM rfl rfl)

theorem addRep_kept {kS s : State} {r : Repair} (kH : Kept M kS s)
    (kM : Within [.mc, .int, .ptn, .ctx, .led, .lcs, .tst, .i3c] M := by exact Part.sub (by assumption) (by rfl)) :
    Kept M kS (addRep s r) := by
  unfold addRep
  repeat' first
    | with_reducible first
      | assumption | contradiction | apply putRep_kept | refine Kept.of_fst ‹_› ?_ | refine Kept.of_snd ‹_› ?_
      | refine Part.sub kM ?_
    | split | intro _ | dsimp only | (show Part.subb _ _ = _; rfl) | (show Membership.mem (γ := List Part) _ _; decide)
    | with_reducible first
      | refine Kept.set_tst ?_ (kM.mem ?_)

theorem applyReps_kept {kS s : State} {f : Repair → Bool} (kH : Kept M kS s)
    (kM : Within [.mc, .int, .ptn, .ctx, .led, .lcs, .i3c] M := by exact Part.sub (by assumption) (by rfl)) :
    Kept M kS (applyReps s f) := by
  unfold applyReps
  repeat' first
    | with_reducible first
      | assumption | apply forEach_kept | apply putRep_kept | refine Part.sub kM ?_
    | intro _ | dsimp only | (show Part.subb _ _ = _; rfl)

theorem rowRepair_kept {kS s : State} {a : Nat} (kH : Kept M kS s)
    (kM : Within [.mc, .int, .ptn, .ctx, .led, .lcs, .tst, .i3c] M := by exact Part.sub (by assumption) (by rfl)) :
    Kept M kS (rowRepair s a) := by
  unfold rowRepair
  repeat' first
    | with_reducible first
      | assumption | contradiction | apply addRep_kept | apply applyReps_kept | refine Kept.of_fst ‹_› ?_
      | refine Kept.of_snd ‹_› ?_ | refine Part.sub kM ?_
    | split | intro _ | dsimp only | (show Part.subb _ _ = _; rfl)

theorem ceGo_kept {kS : State}
    (kM : Within [.mc, .int, .ptn, .ctx, .led, .lcs, .tst, .i3c] M := by exact Part.sub (by assumption) (by rfl)) : ∀ {n : Nat} {s :
    State}, Kept M kS s → Kept M kS (ceGo n s)
  | 0, _, h => h
  | n + 1, s, h => by
    unfold ceGo
    dsimp only
    split
    · exact h
    · refine ceGo_kept (Part.sub kM rfl) ?_
      exact Kept.set_int (rowRepair_kept h) (kM.mem (by decide))

theorem ceRepairs_kept {kS s : State} (kH : Kept M kS s)
    (kM : Within [.mc, .int, .ptn, .ctx, .led, .lcs, .tst, .i3c] M := by exact Part.sub (by assumption) (by rfl)) :
    Kept M kS (ceRepairs s) := by
  unfold ceRepairs
  repeat' first
    | with_reducible first
      | assumption | apply ceGo_kept | refine Part.sub kM ?_
    | split | intro _ | dsimp only | (show Part.subb _ _ = _; rfl) | (show Membership.mem (γ := List Part) _ _; decide)
    | with_reducible first
      | refine Kept.set_int ?_ (kM.mem ?_)

theorem upsetWords_kept {kS s : State} {ups : List (Nat × Bool)} (kH : Kept M kS s)
    (kM : Within [.memErr] M := by exact Part.sub (by assumption) (by rfl)) :
    Kept M kS (upsetWords s ups) := by
  unfold upsetWords
  repeat' first
    | with_reducible first
      | assumption | apply forEach_kept | refine Part.sub kM ?_
    | split | intro _ | dsimp only | (show Part.subb _ _ = _; rfl) | (show Membership.mem (γ := List Part) _ _; decide)
    | with_reducible first
      | refine Kept.set_memErr ?_ (kM.mem ?_)

theorem patrolled_kept {kS s : State} {p : Place} {n : Nat} (kH : Kept M kS s)
    (kM : Within [.mc] M := by exact Part.sub (by assumption) (by rfl)) :
    Kept M kS (patrolled s p n) := by
  unfold patrolled
  repeat' first
    | with_reducible first
      | assumption | refine Part.sub kM ?_
    | split | intro _ | dsimp only | (show Part.subb _ _ = _; rfl) | (show Membership.mem (γ := List Part) _ _; decide)
    | with_reducible first
      | refine Kept.set_mc ?_ (kM.mem ?_)

theorem patrol_kept {kS s : State} {a n : Nat} (kH : Kept M kS s)
    (kM : Within [.memErr, .mc, .int, .ptn, .ctx, .i3c] M := by exact Part.sub (by assumption) (by rfl)) :
    Kept M kS (patrol s a n) := by
  unfold patrol
  repeat' first
    | with_reducible first
      | assumption | contradiction | apply forEach_kept | apply raise_kept | apply patrolled_kept
      | refine Kept.of_fst ‹_› ?_ | refine Kept.of_snd ‹_› ?_ | refine Part.sub kM ?_
    | split | intro _ | dsimp only | (show Part.subb _ _ = _; rfl) | (show Membership.mem (γ := List Part) _ _; decide) | (show restore _ _ _ = _; rfl)
    | with_reducible first
      | refine Kept.set_memErr ?_ (kM.mem ?_) | refine Kept.set_int ?_ (kM.mem ?_) | refine Kept.upd ?_ kM ?_

theorem execMemoryPatrol_kept {kS s kT : State} {ups : List (Nat × Bool)} {addr n : Nat} (kH : Kept M kS s)
    (kE : execMemoryPatrol ups addr n s = .next kT)
    (kM : Within [.memErr, .mc, .int, .ptn, .ctx, .led, .lcs, .tst, .i3c] M := by exact Part.sub (by assumption) (by rfl)) :
    Kept M kS kT := by
  unfold execMemoryPatrol at kE
  repeat' first | contradiction | (injection kE with kE; subst kE) | split at kE | dsimp only at kE
  repeat' first
    | with_reducible first
      | assumption | apply ceRepairs_kept | apply upsetWords_kept | apply patrol_kept | refine Part.sub kM ?_
    | intro _ | dsimp only | (show Part.subb _ _ = _; rfl)

theorem freezeCore_kept {kS s : State} {n : Nat} (kH : Kept M kS s)
    (kM : Within [.core] M := by exact Part.sub (by assumption) (by rfl)) :
    Kept M kS (freezeCore s n) := by
  unfold freezeCore
  repeat' first
    | with_reducible first
      | assumption | apply forEach_kept | apply modCore_kept | apply suspend_kept | refine Part.sub kM ?_
    | intro _ | dsimp only | (show Part.subb _ _ = _; rfl)

theorem thawCore_kept {kS s : State} {n : Nat} (kH : Kept M kS s)
    (kM : Within [.core] M := by exact Part.sub (by assumption) (by rfl)) :
    Kept M kS (thawCore s n) := by
  unfold thawCore
  repeat' first
    | with_reducible first
      | assumption | apply forEach_kept | apply modCore_kept | apply unsuspend_kept | apply bellWake_kept
      | refine Part.sub kM ?_
    | intro _ | dsimp only | (show Part.subb _ _ = _; rfl)

theorem standIn_kept {kS s : State} {q n : Nat} (kH : Kept M kS s)
    (kM : Within [.core, .phys] M := by exact Part.sub (by assumption) (by rfl)) :
    Kept M kS (standIn s q n) := by
  unfold standIn
  repeat' first
    | with_reducible first
      | assumption | apply modPhys_kept | apply thawCore_kept | refine Part.sub kM ?_
    | intro _ | dsimp only | (show Part.subb _ _ = _; rfl)

theorem leaveService_kept {kS s : State} {q : Nat} (kH : Kept M kS s)
    (kM : Within [.core, .phys] M := by exact Part.sub (by assumption) (by rfl)) :
    Kept M kS (leaveService s q) := by
  unfold leaveService
  repeat' first
    | with_reducible first
      | assumption | contradiction | apply modPhys_kept | apply freezeCore_kept | apply standIn_kept
      | refine Kept.of_fst ‹_› ?_ | refine Kept.of_snd ‹_› ?_ | refine Part.sub kM ?_
    | split | intro _ | dsimp only | (show Part.subb _ _ = _; rfl)

theorem detainPhys_kept {kS s : State} {q : Nat} (kH : Kept M kS s)
    (kM : Within [.core, .phys] M := by exact Part.sub (by assumption) (by rfl)) :
    Kept M kS (detainPhys s q) := by
  unfold detainPhys
  repeat' first
    | with_reducible first
      | assumption | contradiction | apply modPhys_kept | apply leaveService_kept | refine Kept.of_fst ‹_› ?_
      | refine Kept.of_snd ‹_› ?_ | refine Part.sub kM ?_
    | split | intro _ | dsimp only | (show Part.subb _ _ = _; rfl)

theorem detain_kept {kS s : State} {n : Nat} (kH : Kept M kS s)
    (kM : Within [.core, .phys] M := by exact Part.sub (by assumption) (by rfl)) :
    Kept M kS (detain s n) := by
  unfold detain
  repeat' first
    | with_reducible first
      | assumption | contradiction | apply detainPhys_kept | refine Kept.of_fst ‹_› ?_ | refine Kept.of_snd ‹_› ?_
      | refine Part.sub kM ?_
    | split | intro _ | dsimp only | (show Part.subb _ _ = _; rfl)

theorem returnCore_kept {kS s : State} {q : Nat} (kH : Kept M kS s)
    (kM : Within [.core, .phys] M := by exact Part.sub (by assumption) (by rfl)) :
    Kept M kS (returnCore s q) := by
  unfold returnCore
  repeat' first
    | with_reducible first
      | assumption | contradiction | apply modPhys_kept | apply thawCore_kept | refine Kept.of_fst ‹_› ?_
      | refine Kept.of_snd ‹_› ?_ | refine Part.sub kM ?_
    | split | intro _ | dsimp only | (show Part.subb _ _ = _; rfl)

theorem retire_kept {kS s : State} {q : Nat} (kH : Kept M kS s)
    (kM : Within [.mc, .phys, .int, .ptn, .ctx, .led, .lcs, .tst, .i3c] M := by exact Part.sub (by assumption) (by rfl)) :
    Kept M kS (retire s q) := by
  unfold retire
  repeat' first
    | with_reducible first
      | assumption | apply modPhys_kept | apply raise_kept | apply addRep_kept | apply getD_kept | refine Part.sub kM ?_
    | split | intro _ | dsimp only | (show Part.subb _ _ = _; rfl)

theorem holdCluster_kept {kS s : State} {k : Nat} (kH : Kept M kS s)
    (kM : Within [.int] M := by exact Part.sub (by assumption) (by rfl)) :
    Kept M kS (holdCluster s k) := by
  unfold holdCluster
  repeat' first
    | with_reducible first
      | assumption | refine Part.sub kM ?_
    | split | intro _ | dsimp only | (show Part.subb _ _ = _; rfl) | (show Membership.mem (γ := List Part) _ _; decide)
    | with_reducible first
      | refine Kept.set_int ?_ (kM.mem ?_)

theorem clusterChanges_kept {kS s : State} {k : Nat} (kH : Kept M kS s)
    (kM : Within [.mc, .core, .phys, .int, .rc, .ptn, .ctx, .i3c] M := by exact Part.sub (by assumption) (by rfl)) :
    Kept M kS (clusterChanges s k) := by
  unfold clusterChanges
  repeat' first
    | with_reducible first
      | assumption | contradiction | apply forEach_kept | apply modPhys_kept | apply setHold_kept | apply thawCore_kept
      | apply standIn_kept | apply leaveService_kept | apply returnCore_kept | apply holdCluster_kept
      | refine Kept.of_fst ‹_› ?_ | refine Kept.of_snd ‹_› ?_ | refine Part.sub kM ?_
    | split | intro _ | dsimp only | (show Part.subb _ _ = _; rfl)

theorem boundaryRepairs_kept {kS s : State} {p : Nat} (kH : Kept M kS s)
    (kM : Within [.mc, .core, .phys, .int, .rc, .ptn, .ctx, .led, .lcs, .i3c] M := by exact Part.sub (by assumption) (by rfl)) :
    Kept M kS (boundaryRepairs s p) := by
  unfold boundaryRepairs
  repeat' first
    | with_reducible first
      | assumption | apply forEach_kept | apply applyReps_kept | apply clusterChanges_kept | refine Part.sub kM ?_
    | split | intro _ | dsimp only | (show Part.subb _ _ = _; rfl)

theorem freeRepairs_kept {kS s : State} (kH : Kept M kS s)
    (kM : Within [.mc, .core, .phys, .int, .rc, .ptn, .ctx, .led, .lcs, .i3c] M := by exact Part.sub (by assumption) (by rfl)) :
    Kept M kS (freeRepairs s) := by
  unfold freeRepairs
  repeat' first
    | with_reducible first
      | assumption | apply forEach_kept | apply applyReps_kept | apply clusterChanges_kept | refine Part.sub kM ?_
    | split | intro _ | dsimp only | (show Part.subb _ _ = _; rfl)

theorem freeRerun_kept {kS s : State} {d : Decision} (kH : Kept M kS s)
    (kM : Within [.core] M := by exact Part.sub (by assumption) (by rfl)) :
    Kept M kS (freeRerun s d) := by
  unfold freeRerun
  repeat' first
    | with_reducible first
      | assumption | contradiction | apply modCore_kept | refine Kept.of_fst ‹_› ?_ | refine Kept.of_snd ‹_› ?_
      | refine Part.sub kM ?_
    | split | intro _ | dsimp only | (show Part.subb _ _ = _; rfl)

theorem reread_kept {kS s : State} {n : Nat} {d : Decision} (kH : Kept M kS s)
    (kM : Within [.mem, .memErr, .tags, .resv, .mc, .core, .int, .ptn, .ctx, .i3c] M := by exact Part.sub (by assumption) (by rfl)) :
    Kept M kS (reread s n d) := by
  unfold reread
  repeat' first
    | with_reducible first
      | assumption | contradiction | apply fetchTile_kept | apply deliver_kept | refine Kept.of_fst ‹_› ?_
      | refine Kept.of_snd ‹_› ?_ | refine Part.sub kM ?_
    | split | intro _ | dsimp only | (show Part.subb _ _ = _; rfl)

theorem attempt_kept {kS s : State} {d : Decision} {up : ArrayUpset} {rows : Option (List AccRow)} (kH : Kept M kS s)
    (kM : Within [.mem, .memKey, .memErr, .tags, .resv, .mc, .core, .int, .ptn, .ctx, .subf, .i3c] M := by exact Part.sub (by assumption) (by rfl)) :
    Kept M kS (attempt s d up rows).1 := by
  unfold attempt
  repeat' first
    | with_reducible first
      | assumption | apply runAcd_kept | apply runWcd_kept | refine Part.sub kM ?_
    | split | intro _ | dsimp only | (show Part.subb _ _ = _; rfl)

theorem endCmd_kept {kS : State} {r : Run} {n : Nat} {d : Decision} (kH : Kept M kS r.1)
    (kM : Within [.mc, .core, .int, .rc, .ptn, .ctx, .i3c] M := by exact Part.sub (by assumption) (by rfl)) :
    Kept M kS (endCmd n d r) := by
  unfold endCmd
  repeat' first
    | with_reducible first
      | assumption | apply endAcd_kept | apply endWcd_kept | refine Part.sub kM ?_
    | split | intro _ | dsimp only | (show Part.subb _ _ = _; rfl)

theorem raiseOutcome_kept {kS s : State} {n : Nat} {d : Decision} {c : FaultCode} {outcome col : Nat} (kH : Kept M kS s)
    (kM : Within [.mc, .int, .ptn, .ctx, .i3c] M := by exact Part.sub (by assumption) (by rfl)) :
    Kept M kS (raiseOutcome s n d c outcome col) := by
  unfold raiseOutcome
  repeat' first
    | with_reducible first
      | assumption | apply raise_kept | apply outcome_kept | apply outcome_kept | apply KeptR.bindS | apply KeptR.bindR
      | apply KeptS.bindS | apply threadRead_kept | apply threadWrite_kept | apply threadDesc_kept
      | apply threadTile_kept | apply keptS_pure | refine Part.sub kM ?_
    | intro _ | dsimp only | (show Part.subb _ _ = _; rfl)

theorem noMajority_kept {kS s : State} {n : Nat} {detainIt : Bool} (kH : Kept M kS s)
    (kM : Within [.mc, .core, .phys, .int, .rc, .ptn, .ctx, .prs, .i3c] M := by exact Part.sub (by assumption) (by rfl)) :
    Kept M kS (noMajority s n detainIt) := by
  unfold noMajority
  repeat' first
    | with_reducible first
      | assumption | contradiction | apply forEach_kept | apply modCore_kept | apply restartCtx_kept
      | apply abortLesson_kept | apply detain_kept | apply freeRerun_kept | apply endCmd_kept | apply raiseOutcome_kept
      | refine Kept.of_fst ‹_› ?_ | refine Kept.of_snd ‹_› ?_ | refine Part.sub kM ?_
    | split | intro _ | dsimp only | (show Part.subb _ _ = _; rfl)

theorem accept_kept {kS s : State} {n : Nat} {d : Decision} {rows : List AccRow} (kH : Kept M kS s)
    (kM : Within [.mem, .memKey, .memErr, .tags, .resv, .mc, .core, .int, .rc, .ptn, .ctx, .subf, .i3c] M := by exact Part.sub (by assumption) (by rfl)) :
    Kept M kS (accept s n d rows) := by
  unfold accept
  repeat' first
    | with_reducible first
      | assumption | apply modCore_kept | apply freeRerun_kept | apply reread_kept | apply attempt_kept
      | apply endCmd_kept | refine Part.sub kM ?_
    | intro _ | dsimp only | (show Part.subb _ _ = _; rfl)

theorem rerunResult_kept {kS s : State} {n m : Nat} {d : Decision} {up : ArrayUpset} (kH : Kept M kS s)
    (kM : Within [.mem, .memKey, .memErr, .tags, .resv, .mc, .core, .phys, .int, .ptn, .ctx, .subf, .i3c] M := by exact Part.sub (by assumption) (by rfl)) :
    Kept M kS (rerunResult s n m d up).1 := by
  unfold rerunResult
  repeat' first
    | with_reducible first
      | assumption | contradiction | apply modCore_kept | apply raise_kept | apply mismatch_kept | apply detain_kept
      | apply reread_kept | apply attempt_kept | refine Kept.of_fst ‹_› ?_ | refine Kept.of_snd ‹_› ?_
      | refine Part.sub kM ?_
    | split | intro _ | dsimp only | (show Part.subb _ _ = _; rfl) | (show Membership.mem (γ := List Part) _ _; decide) | (show restore _ _ _ = _; rfl)
    | with_reducible first
      | refine Kept.set_memErr ?_ (kM.mem ?_) | refine Kept.set_core ?_ (kM.mem ?_) | refine Kept.set_int ?_ (kM.mem ?_)
      | refine Kept.upd ?_ kM ?_

theorem rerunDone_kept {kS s : State} {n m : Nat} {d : Decision} {up : ArrayUpset} (kH : Kept M kS s)
    (kM : Within [.mem, .memKey, .memErr, .tags, .resv, .mc, .core, .phys, .int, .rc, .ptn, .ctx, .prs, .subf, .i3c] M := by exact Part.sub (by assumption) (by rfl)) :
    Kept M kS (rerunDone s n m d up) := by
  unfold rerunDone
  repeat' first
    | with_reducible first
      | assumption | contradiction | apply modCore_kept | apply detain_kept | apply raiseOutcome_kept
      | apply noMajority_kept | apply accept_kept | apply rerunResult_kept | refine Kept.of_fst ‹_› ?_
      | refine Kept.of_snd ‹_› ?_ | refine Part.sub kM ?_
    | split | intro _ | dsimp only | (show Part.subb _ _ = _; rfl)

theorem execCheckerRerunStart_kept {kS s kT : State} {core : Nat} (kH : Kept M kS s)
    (kE : execCheckerRerunStart core s = .next kT) (kM : Within [.core] M := by exact Part.sub (by assumption) (by rfl)) :
    Kept M kS kT := by
  unfold execCheckerRerunStart at kE
  repeat' first | contradiction | (injection kE with kE; subst kE) | split at kE | dsimp only at kE
  repeat' first
    | with_reducible first
      | assumption | contradiction | apply modCore_kept | refine Kept.of_fst ‹_› ?_ | refine Kept.of_snd ‹_› ?_
      | refine Part.sub kM ?_
    | split | intro _ | dsimp only | (show Part.subb _ _ = _; rfl)

theorem execCheckerRerunDone_kept {kS s kT : State} {core : Nat} {up : ArrayUpset} (kH : Kept M kS s)
    (kE : execCheckerRerunDone core up s = .next kT)
    (kM : Within [.mem, .memKey, .memErr, .tags, .resv, .mc, .core, .phys, .int, .rc, .ptn, .ctx, .prs, .subf, .i3c] M := by exact Part.sub (by assumption) (by rfl)) :
    Kept M kS kT := by
  unfold execCheckerRerunDone at kE
  repeat' first | contradiction | (injection kE with kE; subst kE) | split at kE | dsimp only at kE
  repeat' first
    | with_reducible first
      | assumption | contradiction | apply rerunDone_kept | refine Kept.of_fst ‹_› ?_ | refine Kept.of_snd ‹_› ?_
      | refine Part.sub kM ?_
    | split | intro _ | dsimp only | (show Part.subb _ _ = _; rfl)

theorem execDecisionDeadline_kept {kS s kT : State} {core : Nat} (kH : Kept M kS s) (kE : execDecisionDeadline core s = .next kT)
    (kM : Within [.mc, .core, .phys, .int, .rc, .ptn, .ctx, .prs, .i3c] M := by exact Part.sub (by assumption) (by rfl)) :
    Kept M kS kT := by
  unfold execDecisionDeadline at kE
  repeat' first | contradiction | (injection kE with kE; subst kE) | split at kE | dsimp only at kE
  repeat' first
    | with_reducible first
      | assumption | contradiction | apply noMajority_kept | refine Kept.of_fst ‹_› ?_ | refine Kept.of_snd ‹_› ?_
      | refine Part.sub kM ?_
    | split | intro _ | dsimp only | (show Part.subb _ _ = _; rfl)

theorem startQuiz_kept {kS s : State} {q slot : Nat} (kH : Kept M kS s)
    (kM : Within [.core, .phys] M := by exact Part.sub (by assumption) (by rfl)) :
    Kept M kS (startQuiz s q slot) := by
  unfold startQuiz
  repeat' first
    | with_reducible first
      | assumption | apply modPhys_kept | apply freezeCore_kept | refine Part.sub kM ?_
    | split | intro _ | dsimp only | (show Part.subb _ _ = _; rfl)

theorem quizSlotStart_kept {kS s : State} {p slot : Nat} (kH : Kept M kS s)
    (kM : Within [.core, .phys] M := by exact Part.sub (by assumption) (by rfl)) :
    Kept M kS (quizSlotStart s p slot) := by
  unfold quizSlotStart
  repeat' first
    | with_reducible first
      | assumption | contradiction | apply forEach_kept | apply startQuiz_kept | refine Kept.of_fst ‹_› ?_
      | refine Kept.of_snd ‹_› ?_ | refine Part.sub kM ?_
    | split | intro _ | dsimp only | (show Part.subb _ _ = _; rfl)

theorem endQuiz_kept {kS s : State} {q : Nat} (kH : Kept M kS s)
    (kM : Within [.core, .phys] M := by exact Part.sub (by assumption) (by rfl)) :
    Kept M kS (endQuiz s q) := by
  unfold endQuiz
  repeat' first
    | with_reducible first
      | assumption | apply modPhys_kept | apply thawCore_kept | refine Part.sub kM ?_
    | split | intro _ | dsimp only | (show Part.subb _ _ = _; rfl)

theorem quizSlotEnd_kept {kS s : State} {p slot : Nat} (kH : Kept M kS s)
    (kM : Within [.core, .phys, .int] M := by exact Part.sub (by assumption) (by rfl)) :
    Kept M kS (quizSlotEnd s p slot) := by
  unfold quizSlotEnd
  repeat' first
    | with_reducible first
      | assumption | apply forEach_kept | apply modPhys_kept | apply endQuiz_kept | refine Part.sub kM ?_
    | split | intro _ | dsimp only | (show Part.subb _ _ = _; rfl) | (show Membership.mem (γ := List Part) _ _; decide)
    | with_reducible first
      | refine Kept.set_int ?_ (kM.mem ?_)

theorem quizComplete_kept {kS s : State} {q : Nat} {fail : Option (Nat × Nat × Nat × Nat)} (kH : Kept M kS s)
    (kM : Within [.mc, .core, .phys, .int, .ptn, .ctx, .led, .lcs, .tst, .i3c] M := by exact Part.sub (by assumption) (by rfl)) :
    Kept M kS (quizComplete s q fail) := by
  unfold quizComplete
  repeat' first
    | with_reducible first
      | assumption | contradiction | apply modPhys_kept | apply raise_kept | apply detainPhys_kept
      | apply returnCore_kept | apply retire_kept | apply endQuiz_kept | refine Kept.of_fst ‹_› ?_
      | refine Kept.of_snd ‹_› ?_ | apply getD_kept | refine Part.sub kM ?_
    | split | intro _ | dsimp only | (show Part.subb _ _ = _; rfl)

theorem execQuizComplete_kept {kS s kT : State} {phys : Nat} {fail : Option (Nat × Nat × Nat × Nat)} (kH : Kept M kS s)
    (kE : execQuizComplete phys fail s = .next kT)
    (kM : Within [.mc, .core, .phys, .int, .ptn, .ctx, .led, .lcs, .tst, .i3c] M := by exact Part.sub (by assumption) (by rfl)) :
    Kept M kS kT := by
  unfold execQuizComplete at kE
  repeat' first | contradiction | (injection kE with kE; subst kE) | split at kE | dsimp only at kE
  repeat' first
    | with_reducible first
      | assumption | apply quizComplete_kept | refine Part.sub kM ?_
    | split | intro _ | dsimp only | (show Part.subb _ _ = _; rfl)

theorem execQuizDue_kept {kS s kT : State} {cluster : Nat} (kH : Kept M kS s) (kE : execQuizDue cluster s = .next kT)
    (kM : Within [.mc, .core, .phys, .int, .ptn, .ctx, .i3c] M := by exact Part.sub (by assumption) (by rfl)) :
    Kept M kS kT := by
  unfold execQuizDue at kE
  repeat' first | contradiction | (injection kE with kE; subst kE) | split at kE | dsimp only at kE
  repeat' first
    | with_reducible first
      | assumption | contradiction | apply forEach_kept | apply modPhys_kept | apply raise_kept | apply startQuiz_kept
      | refine Kept.of_fst ‹_› ?_ | refine Kept.of_snd ‹_› ?_ | apply getD_kept | refine Part.sub kM ?_
    | split | intro _ | dsimp only | (show Part.subb _ _ = _; rfl)

theorem execFaultLogFlush_kept {kS s kT : State} (kH : Kept M kS s) (kE : execFaultLogFlush s = .next kT)
    (kM : Within [.mc, .int, .ptn, .ctx, .led, .lcs, .cpt, .tst, .i3c] M := by exact Part.sub (by assumption) (by rfl)) :
    Kept M kS kT := by
  unfold execFaultLogFlush at kE
  repeat' first | contradiction | (injection kE with kE; subst kE) | split at kE | dsimp only at kE
  repeat' first
    | with_reducible first
      | assumption | contradiction | apply forEach_kept | apply queueEvent_kept | apply ceRepairs_kept
      | refine Kept.of_fst ‹_› ?_ | refine Kept.of_snd ‹_› ?_ | refine Part.sub kM ?_
    | split | intro _ | dsimp only | (show Part.subb _ _ = _; rfl) | (show Membership.mem (γ := List Part) _ _; decide)
    | with_reducible first
      | refine Kept.set_int ?_ (kM.mem ?_)

theorem intAck_kept {kS s : State} {word : Nat} (kH : Kept M kS s)
    (kM : Within [.int] M := by exact Part.sub (by assumption) (by rfl)) :
    Kept M kS (intAck s word) := by
  unfold intAck
  repeat' first
    | with_reducible first
      | assumption | refine Part.sub kM ?_
    | split | intro _ | dsimp only | (show Part.subb _ _ = _; rfl) | (show Membership.mem (γ := List Part) _ _; decide)
    | with_reducible first
      | refine Kept.set_int ?_ (kM.mem ?_)

theorem execIntAck_kept {kS s kT : State} {who : Req} (kH : Kept M kS s) (kE : execIntAck who s = .next kT)
    (kM : Within [.int] M := by exact Part.sub (by assumption) (by rfl)) :
    Kept M kS kT := by
  unfold execIntAck at kE
  repeat' first | contradiction | (injection kE with kE; subst kE) | split at kE | dsimp only at kE
  repeat' first
    | with_reducible first
      | assumption | apply intAck_kept | refine Part.sub kM ?_
    | split | intro _ | dsimp only | (show Part.subb _ _ = _; rfl)

/-! ### OhTrain -/


/-! ### OpenHouse -/

theorem ohAnswer_kept {kS s : State} {code st : Nat} (kH : Kept M kS s)
    (kM : Within [.cpt, .oh] M := by exact Part.sub (by assumption) (by rfl)) :
    Kept M kS (ohAnswer s code st) := by
  unfold ohAnswer
  repeat' first
    | with_reducible first
      | assumption | apply queueEvent_kept | refine Part.sub kM ?_
    | intro _ | dsimp only | (show Part.subb _ _ = _; rfl) | (show Membership.mem (γ := List Part) _ _; decide)
    | with_reducible first
      | refine Kept.set_oh ?_ (kM.mem ?_)

theorem ohEnd_kept {kS s : State} {code st : Nat} (kH : Kept M kS s)
    (kM : Within [.cpt, .oh] M := by exact Part.sub (by assumption) (by rfl)) :
    Kept M kS (ohEnd s code st) := by
  unfold ohEnd
  repeat' first
    | with_reducible first
      | assumption | apply ohAnswer_kept | refine Part.sub kM ?_
    | intro _ | dsimp only | (show Part.subb _ _ = _; rfl) | (show Membership.mem (γ := List Part) _ _; decide)
    | with_reducible first
      | refine Kept.set_oh ?_ (kM.mem ?_)

theorem ohBase_kept {kS s : State} (kH : Kept M kS s)
    (kM : Within [.mem, .memKey, .memErr, .resv, .mc, .int, .ptn, .ctx, .brn, .cpt, .subf, .oh, .i3c] M := by exact Part.sub (by assumption) (by rfl)) :
    Kept M kS (ohBase s) := by
  unfold ohBase
  repeat' first
    | with_reducible first
      | assumption | contradiction | apply loadBase_kept | apply setRind_kept | apply baseFault_kept | apply ohEnd_kept
      | refine Kept.of_fst ‹_› ?_ | refine Kept.of_snd ‹_› ?_ | refine Part.sub kM ?_
    | split | intro _ | dsimp only | (show Part.subb _ _ = _; rfl) | (show Membership.mem (γ := List Part) _ _; decide)
    | with_reducible first
      | refine Kept.set_oh ?_ (kM.mem ?_)

theorem ohData_kept {kS s : State} (kH : Kept M kS s) (kM : Within [.cpt, .oh] M := by exact Part.sub (by assumption) (by rfl)) :
    Kept M kS (ohData s) := by
  unfold ohData
  repeat' first
    | with_reducible first
      | assumption | apply ohEnd_kept | refine Part.sub kM ?_
    | split | intro _ | dsimp only | (show Part.subb _ _ = _; rfl) | (show Membership.mem (γ := List Part) _ _; decide)
    | with_reducible first
      | refine Kept.set_oh ?_ (kM.mem ?_)

theorem ohStepEvent_kept {kS s : State} {k : Nat} (kH : Kept M kS s)
    (kM : Within [.cpt] M := by exact Part.sub (by assumption) (by rfl)) :
    Kept M kS (ohStepEvent s k) := by
  unfold ohStepEvent
  repeat' first
    | with_reducible first
      | assumption | apply queueEvent_kept | refine Part.sub kM ?_
    | intro _ | dsimp only | (show Part.subb _ _ = _; rfl)

theorem ohTrain_kept {kS s : State} (kH : Kept M kS s)
    (kM : Within [.fresh, .cpt, .oh] M := by exact Part.sub (by assumption) (by rfl)) :
    Kept M kS (ohTrain s) := by
  unfold ohTrain
  repeat' first
    | with_reducible first
      | assumption | apply ohEnd_kept | refine Part.sub kM ?_
    | split | intro _ | dsimp only | (show Part.subb _ _ = _; rfl) | (show Membership.mem (γ := List Part) _ _; decide) | (show restore _ _ _ = _; rfl)
    | with_reducible first
      | refine Kept.set_fresh ?_ (kM.mem ?_) | refine Kept.set_oh ?_ (kM.mem ?_) | refine Kept.upd ?_ kM ?_

theorem ohEval_kept {kS s : State} (kH : Kept M kS s)
    (kM : Within [.fresh, .cpt, .oh] M := by exact Part.sub (by assumption) (by rfl)) :
    Kept M kS (ohEval s) := by
  unfold ohEval
  repeat' first
    | with_reducible first
      | assumption | apply draw_kept | apply ohEnd_kept | refine Kept.of_fst ‹_› ?_ | refine Kept.of_snd ‹_› ?_
      | refine Part.sub kM ?_
    | split | intro _ | dsimp only | (show Part.subb _ _ = _; rfl) | (show Membership.mem (γ := List Part) _ _; decide)
    | with_reducible first
      | refine Kept.set_oh ?_ (kM.mem ?_)

theorem ohResult_kept {kS s : State} (kH : Kept M kS s)
    (kM : Within [.fresh, .mem, .memKey, .memErr, .resv, .mc, .int, .ptn, .ctx, .cpt, .oh, .i3c] M := by exact Part.sub (by assumption) (by rfl)) :
    Kept M kS (ohResult s) := by
  unfold ohResult
  repeat' first
    | with_reducible first
      | assumption | apply draw_kept | apply writeUnder_kept | apply ohEnd_kept | refine Kept.of_fst ‹_› ?_
      | refine Kept.of_snd ‹_› ?_ | refine Part.sub kM ?_
    | split | intro _ | dsimp only | (show Part.subb _ _ = _; rfl) | (show Membership.mem (γ := List Part) _ _; decide)
    | with_reducible first
      | refine Kept.set_oh ?_ (kM.mem ?_)

theorem ohClear_kept {kS s : State} (kH : Kept M kS s)
    (kM : Within [.fresh, .mem, .memKey, .memErr, .resv, .mc, .int, .ptn, .ctx, .brn, .cpt, .subf, .vat, .oh, .i3c] M := by exact Part.sub (by assumption) (by rfl)) :
    Kept M kS (ohClear s) := by
  unfold ohClear
  repeat' first
    | with_reducible first
      | assumption | apply forEach_kept | apply scrubLinear_kept | apply evictSlot_kept | apply ohEnd_kept
      | refine Part.sub kM ?_
    | intro _ | dsimp only | (show Part.subb _ _ = _; rfl) | (show Membership.mem (γ := List Part) _ _; decide) | (show restore _ _ _ = _; rfl)
    | with_reducible first
      | refine Kept.set_brn ?_ (kM.mem ?_) | refine Kept.set_subf ?_ (kM.mem ?_) | refine Kept.set_oh ?_ (kM.mem ?_)
      | refine Kept.upd ?_ kM ?_

theorem ohLesson_kept {kS s : State} {y : Timetable} (kH : Kept M kS s)
    (kM : Within [.fresh, .mem, .memKey, .memErr, .resv, .mc, .core, .phys, .int, .rc, .ptn, .ctx, .brn, .led, .lcs, .cpt, .subf, .vat, .tst, .oh, .i3c] M := by exact Part.sub (by assumption) (by rfl)) :
    Kept M kS (ohLesson s y) := by
  unfold ohLesson
  repeat' first
    | with_reducible first
      | assumption | apply ceRepairs_kept | apply boundaryRepairs_kept | apply ohEnd_kept | apply ohStepEvent_kept
      | apply ohClear_kept | refine Part.sub kM ?_
    | split | intro _ | dsimp only | (show Part.subb _ _ = _; rfl) | (show Membership.mem (γ := List Part) _ _; decide)
    | with_reducible first
      | refine Kept.set_oh ?_ (kM.mem ?_)

theorem ohBell_kept {kS s : State} (kH : Kept M kS s)
    (kM : Within [.fresh, .mem, .memKey, .memErr, .resv, .mc, .core, .phys, .int, .rc, .ptn, .ctx, .brn, .led, .lcs, .cpt, .subf, .vat, .tst, .oh, .i3c] M := by exact Part.sub (by assumption) (by rfl)) :
    Kept M kS (ohBell s) := by
  unfold ohBell
  repeat' first
    | with_reducible first
      | assumption | contradiction | apply quizSlotStart_kept | apply quizSlotEnd_kept | apply ohLesson_kept
      | refine Kept.of_fst ‹_› ?_ | refine Kept.of_snd ‹_› ?_ | refine Part.sub kM ?_
    | split | intro _ | dsimp only | (show Part.subb _ _ = _; rfl)

theorem ohCmd_kept {kS s : State} {word : Nat} (kH : Kept M kS s)
    (kM : Within [.fresh, .mem, .memKey, .memErr, .resv, .mc, .int, .ptn, .ctx, .brn, .cpt, .subf, .vat, .oh, .i3c] M := by exact Part.sub (by assumption) (by rfl)) :
    Kept M kS (ohCmd s word) := by
  unfold ohCmd
  repeat' first
    | with_reducible first
      | assumption | contradiction | apply ohAnswer_kept | apply ohEnd_kept | apply ohBase_kept | apply ohData_kept
      | apply ohTrain_kept | apply ohEval_kept | apply ohResult_kept | apply ohClear_kept | refine Kept.of_fst ‹_› ?_
      | refine Kept.of_snd ‹_› ?_ | refine Part.sub kM ?_
    | split | intro _ | dsimp only | (show Part.subb _ _ = _; rfl) | (show Membership.mem (γ := List Part) _ _; decide)
    | with_reducible first
      | refine Kept.set_oh ?_ (kM.mem ?_)

theorem ohRow_kept {kS s : State} {who : Req} {code : Nat} {args : List Nat} (kH : Kept M kS s)
    (kM : Within [.fresh, .mem, .memKey, .memErr, .resv, .mc, .int, .ptn, .ctx, .brn, .cpt, .subf, .vat, .oh, .i3c] M := by exact Part.sub (by assumption) (by rfl)) :
    Kept M kS (ohRow s who code args) := by
  unfold ohRow
  repeat' first
    | with_reducible first
      | assumption | apply ohCmd_kept | refine Part.sub kM ?_
    | split | intro _ | dsimp only | (show Part.subb _ _ = _; rfl) | (show Membership.mem (γ := List Part) _ _; decide)
    | with_reducible first
      | refine Kept.set_oh ?_ (kM.mem ?_)

theorem execOhBase_kept {kS s kT : State} {who : Req} {bytes : Nat} (kH : Kept M kS s) (kE : execOhBase who bytes s = .next kT)
    (kM : Within [.fresh, .mem, .memKey, .memErr, .resv, .mc, .int, .ptn, .ctx, .brn, .cpt, .subf, .vat, .oh, .i3c] M := by exact Part.sub (by assumption) (by rfl)) :
    Kept M kS kT := by
  unfold execOhBase at kE
  repeat' first | contradiction | (injection kE with kE; subst kE) | split at kE | dsimp only at kE
  repeat' first
    | with_reducible first
      | assumption | apply ohRow_kept | refine Part.sub kM ?_
    | intro _ | dsimp only | (show Part.subb _ _ = _; rfl)

theorem execOhData_kept {kS s kT : State} {who : Req} {count : Nat} (kH : Kept M kS s) (kE : execOhData who count s = .next kT)
    (kM : Within [.fresh, .mem, .memKey, .memErr, .resv, .mc, .int, .ptn, .ctx, .brn, .cpt, .subf, .vat, .oh, .i3c] M := by exact Part.sub (by assumption) (by rfl)) :
    Kept M kS kT := by
  unfold execOhData at kE
  repeat' first | contradiction | (injection kE with kE; subst kE) | split at kE | dsimp only at kE
  repeat' first
    | with_reducible first
      | assumption | apply ohRow_kept | refine Part.sub kM ?_
    | intro _ | dsimp only | (show Part.subb _ _ = _; rfl)

theorem execOhTrain_kept {kS s kT : State} {who : Req} {steps seqLen seed adapter : Nat} (kH : Kept M kS s)
    (kE : execOhTrain who steps seqLen seed adapter s = .next kT)
    (kM : Within [.fresh, .mem, .memKey, .memErr, .resv, .mc, .int, .ptn, .ctx, .brn, .cpt, .subf, .vat, .oh, .i3c] M := by exact Part.sub (by assumption) (by rfl)) :
    Kept M kS kT := by
  unfold execOhTrain at kE
  repeat' first | contradiction | (injection kE with kE; subst kE) | split at kE | dsimp only at kE
  repeat' first
    | with_reducible first
      | assumption | apply ohRow_kept | refine Part.sub kM ?_
    | intro _ | dsimp only | (show Part.subb _ _ = _; rfl)

theorem execOhEval_kept {kS s kT : State} {who : Req} {first count : Nat} (kH : Kept M kS s)
    (kE : execOhEval who first count s = .next kT)
    (kM : Within [.fresh, .mem, .memKey, .memErr, .resv, .mc, .int, .ptn, .ctx, .brn, .cpt, .subf, .vat, .oh, .i3c] M := by exact Part.sub (by assumption) (by rfl)) :
    Kept M kS kT := by
  unfold execOhEval at kE
  repeat' first | contradiction | (injection kE with kE; subst kE) | split at kE | dsimp only at kE
  repeat' first
    | with_reducible first
      | assumption | apply ohRow_kept | refine Part.sub kM ?_
    | intro _ | dsimp only | (show Part.subb _ _ = _; rfl)

theorem execOhResult_kept {kS s kT : State} {who : Req} (kH : Kept M kS s) (kE : execOhResult who s = .next kT)
    (kM : Within [.fresh, .mem, .memKey, .memErr, .resv, .mc, .int, .ptn, .ctx, .brn, .cpt, .subf, .vat, .oh, .i3c] M := by exact Part.sub (by assumption) (by rfl)) :
    Kept M kS kT := by
  unfold execOhResult at kE
  repeat' first | contradiction | (injection kE with kE; subst kE) | split at kE | dsimp only at kE
  repeat' first
    | with_reducible first
      | assumption | apply ohRow_kept | refine Part.sub kM ?_
    | intro _ | dsimp only | (show Part.subb _ _ = _; rfl)

theorem execOhClear_kept {kS s kT : State} {who : Req} (kH : Kept M kS s) (kE : execOhClear who s = .next kT)
    (kM : Within [.fresh, .mem, .memKey, .memErr, .resv, .mc, .int, .ptn, .ctx, .brn, .cpt, .subf, .vat, .oh, .i3c] M := by exact Part.sub (by assumption) (by rfl)) :
    Kept M kS kT := by
  unfold execOhClear at kE
  repeat' first | contradiction | (injection kE with kE; subst kE) | split at kE | dsimp only at kE
  repeat' first
    | with_reducible first
      | assumption | apply ohRow_kept | refine Part.sub kM ?_
    | intro _ | dsimp only | (show Part.subb _ _ = _; rfl)

/-! ### Cpt -/

theorem cptEnterUp_kept {kS s : State} (kH : Kept M kS s)
    (kM : Within [.cpt, .vat] M := by exact Part.sub (by assumption) (by rfl)) :
    Kept M kS (cptEnterUp s) := by
  unfold cptEnterUp
  repeat' first
    | with_reducible first
      | assumption | contradiction | apply forEach_kept | apply cptPump_kept | apply cptSend_kept
      | refine Kept.of_fst ‹_› ?_ | refine Kept.of_snd ‹_› ?_ | refine Part.sub kM ?_
    | split | intro _ | dsimp only | (show Part.subb _ _ = _; rfl) | (show Membership.mem (γ := List Part) _ _; decide) | (show restore _ _ _ = _; rfl)
    | with_reducible first
      | refine Kept.set_cpt ?_ (kM.mem ?_) | refine Kept.set_vat ?_ (kM.mem ?_) | refine Kept.upd ?_ kM ?_

theorem cptTrain_kept {kS s : State} {outcome : Option Bool} (kH : Kept M kS s)
    (kM : Within [.cpt, .vat] M := by exact Part.sub (by assumption) (by rfl)) :
    Kept M kS (cptTrain s outcome) := by
  unfold cptTrain
  repeat' first
    | with_reducible first
      | assumption | contradiction | apply cptEnterUp_kept | apply outcome_kept | refine Kept.of_fst ‹_› ?_
      | refine Kept.of_snd ‹_› ?_ | apply outcome_kept | apply KeptR.bindS | apply KeptR.bindR | apply KeptS.bindS
      | apply threadRead_kept | apply threadWrite_kept | apply threadDesc_kept | apply threadTile_kept | apply keptS_pure
      | refine Part.sub kM ?_
    | split | intro _ | dsimp only | (show Part.subb _ _ = _; rfl) | (show Membership.mem (γ := List Part) _ _; decide)
    | with_reducible first
      | refine Kept.set_cpt ?_ (kM.mem ?_)

theorem execCptLight_kept {kS s kT : State} {outcome : Option Bool} (kH : Kept M kS s) (kE : execCptLight outcome s = .next kT)
    (kM : Within [.cpt, .vat] M := by exact Part.sub (by assumption) (by rfl)) :
    Kept M kS kT := by
  unfold execCptLight at kE
  repeat' first | contradiction | (injection kE with kE; subst kE) | split at kE | dsimp only at kE
  repeat' first
    | with_reducible first
      | assumption | apply cptTrain_kept | apply outcome_kept | apply outcome_kept | apply KeptR.bindS
      | apply KeptR.bindR | apply KeptS.bindS | apply threadRead_kept | apply threadWrite_kept | apply threadDesc_kept
      | apply threadTile_kept | apply keptS_pure | refine Part.sub kM ?_
    | split | intro _ | dsimp only | (show Part.subb _ _ = _; rfl)

theorem execCptRetry_kept {kS s kT : State} {outcome : Option Bool} (kH : Kept M kS s) (kE : execCptRetry outcome s = .next kT)
    (kM : Within [.cpt, .vat] M := by exact Part.sub (by assumption) (by rfl)) :
    Kept M kS kT := by
  unfold execCptRetry at kE
  repeat' first | contradiction | (injection kE with kE; subst kE) | split at kE | dsimp only at kE
  repeat' first
    | with_reducible first
      | assumption | apply cptTrain_kept | apply outcome_kept | apply outcome_kept | apply KeptR.bindS
      | apply KeptR.bindR | apply KeptS.bindS | apply threadRead_kept | apply threadWrite_kept | apply threadDesc_kept
      | apply threadTile_kept | apply keptS_pure | refine Part.sub kM ?_
    | split | intro _ | dsimp only | (show Part.subb _ _ = _; rfl)

theorem bulkStore_kept {kS s : State} {way : BulkWay} {p : Place} {bs : List Byte} (kH : Kept M kS s)
    (kM : Within [.mem, .memKey, .memErr, .tags, .resv, .mc, .core, .int, .ptn, .ctx, .i3c] M := by exact Part.sub (by assumption) (by rfl)) :
    Kept M kS (bulkStore s way p bs) := by
  unfold bulkStore
  repeat' first
    | with_reducible first
      | assumption | contradiction | apply store_kept | apply writeKey_kept | apply writeAs_kept
      | refine Kept.of_fst ‹_› ?_ | refine Kept.of_snd ‹_› ?_ | refine Part.sub kM ?_
    | split | intro _ | dsimp only | (show Part.subb _ _ = _; rfl)

theorem bulkScrub_kept {kS s : State} {b : BulkWr} (kH : Kept M kS s)
    (kM : Within [.mem, .memKey, .memErr, .tags, .resv, .mc, .core, .int, .ptn, .ctx, .i3c] M := by exact Part.sub (by assumption) (by rfl)) :
    Kept M kS (bulkScrub s b) := by
  unfold bulkScrub
  repeat' first
    | with_reducible first
      | assumption | contradiction | apply bulkStore_kept | refine Kept.of_fst ‹_› ?_ | refine Kept.of_snd ‹_› ?_
      | refine Part.sub kM ?_
    | split | intro _ | dsimp only | (show Part.subb _ _ = _; rfl)

theorem cptDown_kept {kS s : State} (kH : Kept M kS s)
    (kM : Within [.mem, .memKey, .memErr, .tags, .resv, .mc, .core, .int, .ptn, .ctx, .cpt, .ses, .i3c] M := by exact Part.sub (by assumption) (by rfl)) :
    Kept M kS (cptDown s) := by
  unfold cptDown
  repeat' first
    | with_reducible first
      | assumption | apply forEach_kept | apply raise_kept | apply bulkScrub_kept | refine Part.sub kM ?_
    | intro _ | dsimp only | (show Part.subb _ _ = _; rfl) | (show Membership.mem (γ := List Part) _ _; decide) | (show restore _ _ _ = _; rfl)
    | with_reducible first
      | refine Kept.set_cpt ?_ (kM.mem ?_) | refine Kept.set_ses ?_ (kM.mem ?_) | refine Kept.upd ?_ kM ?_

theorem execCptLinkDown_kept {kS s kT : State} (kH : Kept M kS s) (kE : execCptLinkDown s = .next kT)
    (kM : Within [.mem, .memKey, .memErr, .tags, .resv, .mc, .core, .int, .ptn, .ctx, .cpt, .ses, .i3c] M := by exact Part.sub (by assumption) (by rfl)) :
    Kept M kS kT := by
  unfold execCptLinkDown at kE
  repeat' first | contradiction | (injection kE with kE; subst kE) | split at kE | dsimp only at kE
  repeat' first
    | with_reducible first
      | assumption | apply cptDown_kept | refine Part.sub kM ?_
    | split | intro _ | dsimp only | (show Part.subb _ _ = _; rfl)

theorem eventsAcked_kept {kS s : State} {n : Nat} (kH : Kept M kS s)
    (kM : Within [.cpt] M := by exact Part.sub (by assumption) (by rfl)) :
    Kept M kS (eventsAcked s n) := by
  unfold eventsAcked
  repeat' first
    | with_reducible first
      | assumption | apply queueEvent_kept | refine Part.sub kM ?_
    | split | intro _ | dsimp only | (show Part.subb _ _ = _; rfl) | (show Membership.mem (γ := List Part) _ _; decide)
    | with_reducible first
      | refine Kept.set_cpt ?_ (kM.mem ?_)

theorem cptNak_kept {kS s : State} {k : Nat} (kH : Kept M kS s)
    (kM : Within [.mc, .int, .ptn, .ctx, .cpt, .i3c] M := by exact Part.sub (by assumption) (by rfl)) :
    Kept M kS (cptNak s k) := by
  unfold cptNak
  repeat' first
    | with_reducible first
      | assumption | apply raise_kept | refine Part.sub kM ?_
    | split | intro _ | dsimp only | (show Part.subb _ _ = _; rfl) | (show Membership.mem (γ := List Part) _ _; decide)
    | with_reducible first
      | refine Kept.set_cpt ?_ (kM.mem ?_)

theorem cptReverse_kept {kS s : State} {f : CptFrame} (kH : Kept M kS s)
    (kM : Within [.mc, .int, .ptn, .ctx, .cpt, .i3c] M := by exact Part.sub (by assumption) (by rfl)) :
    Kept M kS (cptReverse s f) := by
  unfold cptReverse
  repeat' first
    | with_reducible first
      | assumption | apply eventsAcked_kept | apply cptNak_kept | refine Part.sub kM ?_
    | split | intro _ | dsimp only | (show Part.subb _ _ = _; rfl) | (show Membership.mem (γ := List Part) _ _; decide)
    | with_reducible first
      | refine Kept.set_cpt ?_ (kM.mem ?_)

theorem cptErrCrc_kept {kS s : State} (kH : Kept M kS s) (kM : Within [.cpt] M := by exact Part.sub (by assumption) (by rfl)) :
    Kept M kS (cptErrCrc s) := by
  unfold cptErrCrc
  repeat' first
    | with_reducible first
      | assumption | refine Part.sub kM ?_
    | intro _ | dsimp only | (show Part.subb _ _ = _; rfl) | (show Membership.mem (γ := List Part) _ _; decide)
    | with_reducible first
      | refine Kept.set_cpt ?_ (kM.mem ?_)

theorem cptErrRes_kept {kS s : State} (kH : Kept M kS s) (kM : Within [.cpt] M := by exact Part.sub (by assumption) (by rfl)) :
    Kept M kS (cptErrRes s) := by
  unfold cptErrRes
  repeat' first
    | with_reducible first
      | assumption | refine Part.sub kM ?_
    | intro _ | dsimp only | (show Part.subb _ _ = _; rfl) | (show Membership.mem (γ := List Part) _ _; decide)
    | with_reducible first
      | refine Kept.set_cpt ?_ (kM.mem ?_)

theorem cptBad_kept {kS s : State} (kH : Kept M kS s) (kM : Within [.cpt] M := by exact Part.sub (by assumption) (by rfl)) :
    Kept M kS (cptBad s) := by
  unfold cptBad
  repeat' first
    | with_reducible first
      | assumption | apply cptPump_kept | refine Part.sub kM ?_
    | intro _ | dsimp only | (show Part.subb _ _ = _; rfl) | (show Membership.mem (γ := List Part) _ _; decide)
    | with_reducible first
      | refine Kept.set_cpt ?_ (kM.mem ?_)

theorem cptInTurn_kept {kS s : State} {f : CptFrame} {act : State → State} (kH : Kept M kS s)
    (h_act : ∀ x0, Kept M kS x0 → Kept M kS (act x0)) (kM : Within [.cpt] M := by exact Part.sub (by assumption) (by rfl)) :
    Kept M kS (cptInTurn s f act) := by
  unfold cptInTurn
  repeat' first
    | with_reducible first
      | assumption | apply h_act | refine Part.sub kM ?_
    | split | intro _ | dsimp only | (show Part.subb _ _ = _; rfl) | (show Membership.mem (γ := List Part) _ _; decide)
    | with_reducible first
      | refine Kept.set_cpt ?_ (kM.mem ?_)

theorem cptFrameIn_kept {kS s : State} {f : CptFrame} {act : State → State} (kH : Kept M kS s)
    (h_act : ∀ x0, Kept M kS x0 → Kept M kS (act x0))
    (kM : Within [.mc, .int, .ptn, .ctx, .cpt, .i3c] M := by exact Part.sub (by assumption) (by rfl)) :
    Kept M kS (cptFrameIn s f act) := by
  unfold cptFrameIn
  repeat' first
    | with_reducible first
      | assumption | apply h_act | apply cptPump_kept | apply cptReverse_kept | apply cptErrCrc_kept
      | apply cptErrRes_kept | apply cptInTurn_kept | refine Part.sub kM ?_
    | split | intro _ | dsimp only | (show Part.subb _ _ = _; rfl)

theorem cptTake_kept {kS s : State} {f : CptFrame} {type : Nat} {inRecovery : Bool} {act : State → State} (kH : Kept M kS s)
    (h_act : ∀ x0, Kept M kS x0 → Kept M kS (act x0))
    (kM : Within [.mc, .int, .ptn, .ctx, .cpt, .i3c] M := by exact Part.sub (by assumption) (by rfl)) :
    Kept M kS (cptTake s f type inRecovery act) := by
  unfold cptTake
  repeat' first
    | with_reducible first
      | assumption | apply h_act | apply cptFrameIn_kept | refine Part.sub kM ?_
    | split | intro _ | dsimp only | (show Part.subb _ _ = _; rfl)

theorem execCptIdleFrameReceive_kept {kS s kT : State} {frame : Option CptFrame} (kH : Kept M kS s)
    (kE : execCptIdleFrameReceive frame s = .next kT)
    (kM : Within [.mc, .int, .ptn, .ctx, .cpt, .i3c] M := by exact Part.sub (by assumption) (by rfl)) :
    Kept M kS kT := by
  unfold execCptIdleFrameReceive at kE
  repeat' first | contradiction | (injection kE with kE; subst kE) | split at kE | dsimp only at kE
  repeat' first
    | with_reducible first
      | assumption | contradiction | apply cptErrRes_kept | apply cptBad_kept | apply cptFrameIn_kept
      | refine Kept.of_fst ‹_› ?_ | refine Kept.of_snd ‹_› ?_ | refine Part.sub kM ?_
    | split | intro _ | dsimp only | (show Part.subb _ _ = _; rfl)

theorem bulkRsp_kept {kS s : State} {tag status : Nat} (kH : Kept M kS s)
    (kM : Within [.cpt] M := by exact Part.sub (by assumption) (by rfl)) :
    Kept M kS (bulkRsp s tag status) := by
  unfold bulkRsp
  repeat' first
    | with_reducible first
      | assumption | apply cptSend_kept | refine Part.sub kM ?_
    | intro _ | dsimp only | (show Part.subb _ _ = _; rfl)

theorem putBulk_kept {kS s : State} {tag : Nat} {x : Option BulkWr} (kH : Kept M kS s)
    (kM : Within [.cpt] M := by exact Part.sub (by assumption) (by rfl)) :
    Kept M kS (putBulk s tag x) := by
  unfold putBulk
  repeat' first
    | with_reducible first
      | assumption | contradiction | refine Kept.of_fst ‹_› ?_ | refine Kept.of_snd ‹_› ?_ | refine Part.sub kM ?_
    | split | intro _ | dsimp only | (show Part.subb _ _ = _; rfl) | (show Membership.mem (γ := List Part) _ _; decide)
    | with_reducible first
      | refine Kept.set_cpt ?_ (kM.mem ?_)

theorem sealedEnd_kept {kS s : State} {b : BulkWr} (kH : Kept M kS s)
    (kM : Within [.mem, .memKey, .memErr, .tags, .resv, .mc, .core, .int, .ptn, .ctx, .i3c] M := by exact Part.sub (by assumption) (by rfl)) :
    Kept M kS (sealedEnd s b).1 := by
  unfold sealedEnd
  repeat' first
    | with_reducible first
      | assumption | contradiction | apply bulkStore_kept | apply bulkScrub_kept | refine Kept.of_fst ‹_› ?_
      | refine Kept.of_snd ‹_› ?_ | refine Part.sub kM ?_
    | split | intro _ | dsimp only | (show Part.subb _ _ = _; rfl)

theorem plainStore_kept {kS s : State} {b : BulkWr} {bs : List Byte} (kH : Kept M kS s)
    (kM : Within [.mem, .memKey, .memErr, .tags, .resv, .mc, .core, .int, .ptn, .ctx, .i3c] M := by exact Part.sub (by assumption) (by rfl)) :
    Kept M kS (plainStore s b bs) := by
  unfold plainStore
  repeat' first
    | with_reducible first
      | assumption | contradiction | apply bulkStore_kept | refine Kept.of_fst ‹_› ?_ | refine Kept.of_snd ‹_› ?_
      | refine Part.sub kM ?_
    | split | intro _ | dsimp only | (show Part.subb _ _ = _; rfl)

theorem bulkRefuse_kept {kS s : State} {b : BulkWr} {last : Bool} {status : Nat} (kH : Kept M kS s)
    (kM : Within [.cpt] M := by exact Part.sub (by assumption) (by rfl)) :
    Kept M kS (bulkRefuse s b last status) := by
  unfold bulkRefuse
  repeat' first
    | with_reducible first
      | assumption | apply bulkRsp_kept | apply putBulk_kept | refine Part.sub kM ?_
    | split | intro _ | dsimp only | (show Part.subb _ _ = _; rfl)

theorem bulkStep_kept {kS s : State} {b : BulkWr} {f : CptFrame} (kH : Kept M kS s)
    (kM : Within [.mem, .memKey, .memErr, .tags, .resv, .mc, .core, .int, .ptn, .ctx, .cpt, .i3c] M := by exact Part.sub (by assumption) (by rfl)) :
    Kept M kS (bulkStep s b f) := by
  unfold bulkStep
  repeat' first
    | with_reducible first
      | assumption | contradiction | apply bulkScrub_kept | apply bulkRsp_kept | apply putBulk_kept
      | apply sealedEnd_kept | apply plainStore_kept | apply bulkRefuse_kept | refine Kept.of_fst ‹_› ?_
      | refine Kept.of_snd ‹_› ?_ | refine Part.sub kM ?_
    | split | intro _ | dsimp only | (show Part.subb _ _ = _; rfl)

theorem bulkRind_kept {kS s : State} {b : BulkWr} (kH : Kept M kS s)
    (kM : Within [.mc, .int, .ptn, .ctx, .i3c] M := by exact Part.sub (by assumption) (by rfl)) :
    Kept M kS (bulkRind s b) := by
  unfold bulkRind
  repeat' first
    | with_reducible first
      | assumption | apply raise_kept | apply getD_kept | refine Part.sub kM ?_
    | split | intro _ | dsimp only | (show Part.subb _ _ = _; rfl)

theorem bulkStart_kept {kS s : State} {f : CptFrame} (kH : Kept M kS s)
    (kM : Within [.mem, .memKey, .memErr, .tags, .resv, .mc, .core, .int, .ptn, .ctx, .cpt, .i3c] M := by exact Part.sub (by assumption) (by rfl)) :
    Kept M kS (bulkStart s f) := by
  unfold bulkStart
  repeat' first
    | with_reducible first
      | assumption | contradiction | apply putBulk_kept | apply bulkRefuse_kept | apply bulkStep_kept
      | apply bulkRind_kept | refine Kept.of_fst ‹_› ?_ | refine Kept.of_snd ‹_› ?_ | refine Part.sub kM ?_
    | split | intro _ | dsimp only | (show Part.subb _ _ = _; rfl)

theorem execBulkWr_kept {kS s kT : State} {f : CptFrame} (kH : Kept M kS s) (kE : execBulkWr f s = .next kT)
    (kM : Within [.mem, .memKey, .memErr, .tags, .resv, .mc, .core, .int, .ptn, .ctx, .cpt, .i3c] M := by exact Part.sub (by assumption) (by rfl)) :
    Kept M kS kT := by
  unfold execBulkWr at kE
  repeat' first | contradiction | (injection kE with kE; subst kE) | split at kE | dsimp only at kE
  repeat' first
    | with_reducible first
      | assumption | contradiction | apply bulkScrub_kept | apply cptTake_kept | apply bulkRsp_kept
      | apply bulkRefuse_kept | apply bulkStep_kept | apply bulkStart_kept | refine Kept.of_fst ‹_› ?_
      | refine Kept.of_snd ‹_› ?_ | refine Part.sub kM ?_
    | split | intro _ | dsimp only | (show Part.subb _ _ = _; rfl)

theorem bulkFetch_kept {kS s : State} {f : CptFrame} {n ctx : Nat} (kH : Kept M kS s)
    (kM : Within [.mem, .memErr, .tags, .resv, .mc, .core, .int, .ptn, .ctx, .i3c] M := by exact Part.sub (by assumption) (by rfl)) :
    Kept M kS (bulkFetch s f n ctx).1 := by
  unfold bulkFetch
  repeat' first
    | with_reducible first
      | assumption | contradiction | apply readErrs_kept | apply readAs_kept | refine Kept.of_fst ‹_› ?_
      | refine Kept.of_snd ‹_› ?_ | refine Part.sub kM ?_
    | split | intro _ | dsimp only | (show Part.subb _ _ = _; rfl)

theorem sealRead_kept {kS s : State} {f : CptFrame} {n ctx : Nat} {bs : List Byte} (kH : Kept M kS s)
    (kM : Within [.fresh, .keys] M := by exact Part.sub (by assumption) (by rfl)) :
    Kept M kS (sealRead s f n ctx bs).1 := by
  unfold sealRead
  repeat' first
    | with_reducible first
      | assumption | apply draw_kept | refine Kept.of_fst ‹_› ?_ | refine Kept.of_snd ‹_› ?_ | apply getD_kept
      | refine Part.sub kM ?_
    | split | intro _ | dsimp only | (show Part.subb _ _ = _; rfl) | (show Membership.mem (γ := List Part) _ _; decide)
    | with_reducible first
      | refine Kept.set_keys ?_ (kM.mem ?_)

theorem execBulkRdReq_kept {kS s kT : State} {f : CptFrame} (kH : Kept M kS s) (kE : execBulkRdReq f s = .next kT)
    (kM : Within [.fresh, .mem, .memErr, .tags, .resv, .mc, .core, .int, .ptn, .ctx, .keys, .cpt, .i3c] M := by exact Part.sub (by assumption) (by rfl)) :
    Kept M kS kT := by
  unfold execBulkRdReq at kE
  repeat' first | contradiction | (injection kE with kE; subst kE) | split at kE | dsimp only at kE
  repeat' first
    | with_reducible first
      | assumption | contradiction | apply forEach_kept | apply cptSend_kept | apply cptTake_kept | apply bulkRsp_kept
      | apply bulkFetch_kept | apply sealRead_kept | refine Kept.of_fst ‹_› ?_ | refine Kept.of_snd ‹_› ?_
      | refine Part.sub kM ?_
    | split | intro _ | dsimp only | (show Part.subb _ _ = _; rfl)

theorem execFetchData_kept {kS s kT : State} {f : CptFrame} {seq : Nat} (kH : Kept M kS s) (kE : execFetchData f seq s = .next kT)
    (kM : Within [.mem, .memKey, .memErr, .resv, .mc, .core, .int, .rc, .ptn, .ctx, .cpt, .vat, .i3c] M := by exact Part.sub (by assumption) (by rfl)) :
    Kept M kS kT := by
  unfold execFetchData at kE
  repeat' first | contradiction | (injection kE with kE; subst kE) | split at kE | dsimp only at kE
  repeat' first
    | with_reducible first
      | assumption | contradiction | apply fetchFail_kept | apply fetchEnd_kept | apply cptTake_kept
      | refine Kept.of_fst ‹_› ?_ | refine Kept.of_snd ‹_› ?_ | refine Part.sub kM ?_
    | split | intro _ | dsimp only | (show Part.subb _ _ = _; rfl) | (show Membership.mem (γ := List Part) _ _; decide)
    | with_reducible first
      | refine Kept.set_vat ?_ (kM.mem ?_)

theorem execFetchCtl_kept {kS s kT : State} {f : CptFrame} (kH : Kept M kS s) (kE : execFetchCtl f s = .next kT)
    (kM : Within [.mc, .int, .ptn, .ctx, .cpt, .vat, .i3c] M := by exact Part.sub (by assumption) (by rfl)) :
    Kept M kS kT := by
  unfold execFetchCtl at kE
  repeat' first | contradiction | (injection kE with kE; subst kE) | split at kE | dsimp only at kE
  repeat' first
    | with_reducible first
      | assumption | contradiction | apply fetchFail_kept | apply cptTake_kept | refine Kept.of_fst ‹_› ?_
      | refine Kept.of_snd ‹_› ?_ | refine Part.sub kM ?_
    | split | intro _ | dsimp only | (show Part.subb _ _ = _; rfl) | (show Membership.mem (γ := List Part) _ _; decide)
    | with_reducible first
      | refine Kept.set_vat ?_ (kM.mem ?_)

theorem execEventSend_kept {kS s kT : State} (kH : Kept M kS s) (kE : execEventSend s = .next kT)
    (kM : Within [.cpt] M := by exact Part.sub (by assumption) (by rfl)) :
    Kept M kS kT := by
  unfold execEventSend at kE
  repeat' first | contradiction | (injection kE with kE; subst kE) | split at kE | dsimp only at kE
  repeat' first
    | with_reducible first
      | assumption | apply cptSend_kept | refine Part.sub kM ?_
    | split | intro _ | dsimp only | (show Part.subb _ _ = _; rfl) | (show Membership.mem (γ := List Part) _ _; decide)
    | with_reducible first
      | refine Kept.set_cpt ?_ (kM.mem ?_)

theorem execBellMark_kept {kS s kT : State} (kH : Kept M kS s) (kE : execBellMark s = .next kT)
    (kM : Within [.fresh, .cpt] M := by exact Part.sub (by assumption) (by rfl)) :
    Kept M kS kT := by
  unfold execBellMark at kE
  repeat' first | contradiction | (injection kE with kE; subst kE) | split at kE | dsimp only at kE
  repeat' first
    | with_reducible first
      | assumption | contradiction | apply draw_kept | apply cptSend_kept | refine Kept.of_fst ‹_› ?_
      | refine Kept.of_snd ‹_› ?_ | refine Part.sub kM ?_
    | split | intro _ | dsimp only | (show Part.subb _ _ = _; rfl) | (show Membership.mem (γ := List Part) _ _; decide)
    | with_reducible first
      | refine Kept.set_cpt ?_ (kM.mem ?_)

theorem execCptRefLost_kept {kS s kT : State} (kH : Kept M kS s) (kE : execCptRefLost s = .next kT)
    (kM : Within [.mc, .int, .ptn, .ctx, .cpt, .i3c] M := by exact Part.sub (by assumption) (by rfl)) :
    Kept M kS kT := by
  unfold execCptRefLost at kE
  repeat' first | contradiction | (injection kE with kE; subst kE) | split at kE | dsimp only at kE
  repeat' first
    | with_reducible first
      | assumption | apply raise_kept | refine Part.sub kM ?_
    | split | intro _ | dsimp only | (show Part.subb _ _ = _; rfl) | (show Membership.mem (γ := List Part) _ _; decide)
    | with_reducible first
      | refine Kept.set_cpt ?_ (kM.mem ?_)

theorem recoverEnd_kept {kS s : State} {img : List Byte} (kH : Kept M kS s)
    (kM : Within [.mc, .int, .ptn, .ctx, .led, .lcs, .cpt, .mod, .flash, .i3c] M := by exact Part.sub (by assumption) (by rfl)) :
    Kept M kS (recoverEnd s img) := by
  unfold recoverEnd
  repeat' first
    | with_reducible first
      | assumption | apply journal_kept | refine Part.sub kM ?_
    | split | intro _ | dsimp only | (show Part.subb _ _ = _; rfl) | (show Membership.mem (γ := List Part) _ _; decide) | (show restore _ _ _ = _; rfl)
    | with_reducible first
      | refine Kept.set_cpt ?_ (kM.mem ?_) | refine Kept.set_mod ?_ (kM.mem ?_) | refine Kept.set_flash ?_ (kM.mem ?_)
      | refine Kept.upd ?_ kM ?_

theorem execRecoverFrame_kept {kS s kT : State} {f : CptFrame} (kH : Kept M kS s) (kE : execRecoverFrame f s = .next kT)
    (kM : Within [.mc, .int, .ptn, .ctx, .led, .lcs, .cpt, .mod, .flash, .i3c] M := by exact Part.sub (by assumption) (by rfl)) :
    Kept M kS kT := by
  unfold execRecoverFrame at kE
  repeat' first | contradiction | (injection kE with kE; subst kE) | split at kE | dsimp only at kE
  repeat' first
    | with_reducible first
      | assumption | apply cptTake_kept | apply recoverEnd_kept | refine Part.sub kM ?_
    | split | intro _ | dsimp only | (show Part.subb _ _ = _; rfl) | (show Membership.mem (γ := List Part) _ _; decide)
    | with_reducible first
      | refine Kept.set_cpt ?_ (kM.mem ?_)

/-! ### Auth -/

theorem sendGrant_kept {kS s : State} {tag id result : Nat} (kH : Kept M kS s)
    (kM : Within [.cpt] M := by exact Part.sub (by assumption) (by rfl)) :
    Kept M kS (sendGrant s tag id result) := by
  unfold sendGrant
  repeat' first
    | with_reducible first
      | assumption | apply cptSend_kept | refine Part.sub kM ?_
    | intro _ | dsimp only | (show Part.subb _ _ = _; rfl)

theorem sendChallenge_kept {kS s : State} {c : Challenge} (kH : Kept M kS s)
    (kM : Within [.fresh, .cpt, .ses] M := by exact Part.sub (by assumption) (by rfl)) :
    Kept M kS (sendChallenge s c) := by
  unfold sendChallenge
  repeat' first
    | with_reducible first
      | assumption | apply draw_kept | apply cptSend_kept | refine Kept.of_fst ‹_› ?_ | refine Kept.of_snd ‹_› ?_
      | refine Part.sub kM ?_
    | split | intro _ | dsimp only | (show Part.subb _ _ = _; rfl) | (show Membership.mem (γ := List Part) _ _; decide)
    | with_reducible first
      | refine Kept.set_ses ?_ (kM.mem ?_)

theorem helloIn_kept {kS s : State} {f : CptFrame} (kH : Kept M kS s)
    (kM : Within [.fresh, .cpt, .ses] M := by exact Part.sub (by assumption) (by rfl)) :
    Kept M kS (helloIn s f) := by
  unfold helloIn
  repeat' first
    | with_reducible first
      | assumption | contradiction | apply cptErrRes_kept | apply sendGrant_kept | apply sendChallenge_kept
      | refine Kept.of_fst ‹_› ?_ | refine Kept.of_snd ‹_› ?_ | refine Part.sub kM ?_
    | split | intro _ | dsimp only | (show Part.subb _ _ = _; rfl) | (show Membership.mem (γ := List Part) _ _; decide)
    | with_reducible first
      | refine Kept.set_ses ?_ (kM.mem ?_)

theorem authFailed_kept {kS s : State} (kH : Kept M kS s)
    (kM : Within [.mc, .int, .ptn, .ctx, .led, .lcs, .ses, .i3c] M := by exact Part.sub (by assumption) (by rfl)) :
    Kept M kS (authFailed s) := by
  unfold authFailed
  repeat' first
    | with_reducible first
      | assumption | contradiction | apply journal_kept | refine Kept.of_fst ‹_› ?_ | refine Kept.of_snd ‹_› ?_
      | refine Part.sub kM ?_
    | split | intro _ | dsimp only | (show Part.subb _ _ = _; rfl) | (show Membership.mem (γ := List Part) _ _; decide) | (show restore _ _ _ = _; rfl)
    | with_reducible first
      | refine Kept.set_lcs ?_ (kM.mem ?_) | refine Kept.set_ses ?_ (kM.mem ?_) | refine Kept.upd ?_ kM ?_

theorem openSession_kept {kS s : State} {tag : Nat} {role : Role} {slot : Nat} (kH : Kept M kS s)
    (kM : Within [.fresh, .mc, .int, .ptn, .ctx, .led, .lcs, .cpt, .ses, .i3c] M := by exact Part.sub (by assumption) (by rfl)) :
    Kept M kS (openSession s tag role slot) := by
  unfold openSession
  repeat' first
    | with_reducible first
      | assumption | apply draw_kept | apply journal_kept | apply sendGrant_kept | refine Kept.of_fst ‹_› ?_
      | refine Kept.of_snd ‹_› ?_ | refine Part.sub kM ?_
    | split | intro _ | dsimp only | (show Part.subb _ _ = _; rfl) | (show Membership.mem (γ := List Part) _ _; decide)
    | with_reducible first
      | refine Kept.set_ses ?_ (kM.mem ?_)

theorem proofEnd_kept {kS s : State} {c : Challenge} {sig : List Byte} (kH : Kept M kS s)
    (kM : Within [.fresh, .mc, .int, .ptn, .ctx, .led, .lcs, .cpt, .ses, .i3c] M := by exact Part.sub (by assumption) (by rfl)) :
    Kept M kS (proofEnd s c sig) := by
  unfold proofEnd
  repeat' first
    | with_reducible first
      | assumption | contradiction | apply sendGrant_kept | apply authFailed_kept | apply openSession_kept
      | refine Kept.of_fst ‹_› ?_ | refine Kept.of_snd ‹_› ?_ | refine Part.sub kM ?_
    | split | intro _ | dsimp only | (show Part.subb _ _ = _; rfl) | (show Membership.mem (γ := List Part) _ _; decide)
    | with_reducible first
      | refine Kept.set_ses ?_ (kM.mem ?_)

theorem proofIn_kept {kS s : State} {f : CptFrame} (kH : Kept M kS s)
    (kM : Within [.fresh, .mc, .int, .ptn, .ctx, .led, .lcs, .cpt, .ses, .i3c] M := by exact Part.sub (by assumption) (by rfl)) :
    Kept M kS (proofIn s f) := by
  unfold proofIn
  repeat' first
    | with_reducible first
      | assumption | contradiction | apply sendGrant_kept | apply proofEnd_kept | refine Kept.of_fst ‹_› ?_
      | refine Kept.of_snd ‹_› ?_ | refine Part.sub kM ?_
    | split | intro _ | dsimp only | (show Part.subb _ _ = _; rfl) | (show Membership.mem (γ := List Part) _ _; decide)
    | with_reducible first
      | refine Kept.set_ses ?_ (kM.mem ?_)

theorem closeIn_kept {kS s : State} {f : CptFrame} (kH : Kept M kS s)
    (kM : Within [.ses] M := by exact Part.sub (by assumption) (by rfl)) :
    Kept M kS (closeIn s f) := by
  unfold closeIn
  repeat' first
    | with_reducible first
      | assumption | refine Part.sub kM ?_
    | split | intro _ | dsimp only | (show Part.subb _ _ = _; rfl) | (show Membership.mem (γ := List Part) _ _; decide)
    | with_reducible first
      | refine Kept.set_ses ?_ (kM.mem ?_)

theorem execAuthHello_kept {kS s kT : State} {f : CptFrame} (kH : Kept M kS s) (kE : execAuthHello f s = .next kT)
    (kM : Within [.fresh, .mc, .int, .ptn, .ctx, .cpt, .ses, .i3c] M := by exact Part.sub (by assumption) (by rfl)) :
    Kept M kS kT := by
  unfold execAuthHello at kE
  repeat' first | contradiction | (injection kE with kE; subst kE) | split at kE | dsimp only at kE
  repeat' first
    | with_reducible first
      | assumption | contradiction | apply cptErrRes_kept | apply cptTake_kept | apply helloIn_kept
      | refine Kept.of_fst ‹_› ?_ | refine Kept.of_snd ‹_› ?_ | refine Part.sub kM ?_
    | split | intro _ | dsimp only | (show Part.subb _ _ = _; rfl)

theorem execAuthProof_kept {kS s kT : State} {f : CptFrame} (kH : Kept M kS s) (kE : execAuthProof f s = .next kT)
    (kM : Within [.fresh, .mc, .int, .ptn, .ctx, .led, .lcs, .cpt, .ses, .i3c] M := by exact Part.sub (by assumption) (by rfl)) :
    Kept M kS kT := by
  unfold execAuthProof at kE
  repeat' first | contradiction | (injection kE with kE; subst kE) | split at kE | dsimp only at kE
  repeat' first
    | with_reducible first
      | assumption | apply cptTake_kept | apply proofIn_kept | refine Part.sub kM ?_
    | split | intro _ | dsimp only | (show Part.subb _ _ = _; rfl)

theorem execAuthClose_kept {kS s kT : State} {f : CptFrame} (kH : Kept M kS s) (kE : execAuthClose f s = .next kT)
    (kM : Within [.mc, .int, .ptn, .ctx, .cpt, .ses, .i3c] M := by exact Part.sub (by assumption) (by rfl)) :
    Kept M kS kT := by
  unfold execAuthClose at kE
  repeat' first | contradiction | (injection kE with kE; subst kE) | split at kE | dsimp only at kE
  repeat' first
    | with_reducible first
      | assumption | apply cptTake_kept | apply closeIn_kept | refine Part.sub kM ?_
    | split | intro _ | dsimp only | (show Part.subb _ _ = _; rfl)

theorem execAuthChallengeDelayed_kept {kS s kT : State} {tag : Nat} (kH : Kept M kS s)
    (kE : execAuthChallengeDelayed tag s = .next kT)
    (kM : Within [.fresh, .cpt, .ses] M := by exact Part.sub (by assumption) (by rfl)) :
    Kept M kS kT := by
  unfold execAuthChallengeDelayed at kE
  repeat' first | contradiction | (injection kE with kE; subst kE) | split at kE | dsimp only at kE
  repeat' first
    | with_reducible first
      | assumption | contradiction | apply sendChallenge_kept | refine Kept.of_fst ‹_› ?_ | refine Kept.of_snd ‹_› ?_
      | refine Part.sub kM ?_
    | split | intro _ | dsimp only | (show Part.subb _ _ = _; rfl)

/-! ### Fabric -/

theorem modFab_kept {kS s : State} {p : Nat} {f : Port → Port} (kH : Kept M kS s)
    (kM : Within [.fab] M := by exact Part.sub (by assumption) (by rfl)) :
    Kept M kS (modFab s p f) := by
  unfold modFab
  repeat' first
    | with_reducible first
      | assumption | refine Part.sub kM ?_
    | intro _ | dsimp only | (show Part.subb _ _ = _; rfl) | (show Membership.mem (γ := List Part) _ _; decide)
    | with_reducible first
      | refine Kept.set_fab ?_ (kM.mem ?_)

theorem markLeft_kept {kS s : State} {f : DataFrame} (kH : Kept M kS s)
    (kM : Within [.xf] M := by exact Part.sub (by assumption) (by rfl)) :
    Kept M kS (markLeft s f) := by
  unfold markLeft
  repeat' first
    | with_reducible first
      | assumption | refine Part.sub kM ?_
    | split | intro _ | dsimp only | (show Part.subb _ _ = _; rfl) | (show Membership.mem (γ := List Part) _ _; decide)
    | with_reducible first
      | refine Kept.set_xf ?_ (kM.mem ?_)

theorem pumpOne_kept {kS s kT : State} {p : Nat} (kH : Kept M kS s) (kE : pumpOne s p = some kT)
    (kM : Within [.fab, .xf] M := by exact Part.sub (by assumption) (by rfl)) :
    Kept M kS kT := by
  unfold pumpOne at kE
  repeat' first | contradiction | (injection kE with kE; subst kE) | split at kE | dsimp only at kE
  repeat' first
    | with_reducible first
      | assumption | contradiction | apply modFab_kept | apply markLeft_kept | refine Kept.of_fst ‹_› ?_
      | refine Kept.of_snd ‹_› ?_ | refine Part.sub kM ?_
    | split | intro _ | dsimp only | (show Part.subb _ _ = _; rfl)

theorem pumpGo_kept {kS : State} (kM : Within [.fab, .xf] M := by exact Part.sub (by assumption) (by rfl)) : ∀ {n : Nat}
    {s : State} {p :
    Nat}, Kept M kS s → Kept M kS (pumpGo n s p)
  | 0, _, _, h => h
  | n + 1, s, p, h => by
    unfold pumpGo
    split
    · rename_i e; exact pumpGo_kept (Part.sub kM rfl) (pumpOne_kept h e)
    · exact h

theorem idleOut_kept {kS s : State} {p : Nat} (kH : Kept M kS s)
    (kM : Within [.fab] M := by exact Part.sub (by assumption) (by rfl)) :
    Kept M kS (idleOut s p) := by
  unfold idleOut
  repeat' first
    | with_reducible first
      | assumption | apply modFab_kept | refine Part.sub kM ?_
    | split | intro _ | dsimp only | (show Part.subb _ _ = _; rfl)

theorem portRun_kept {kS s : State} {p : Nat} (kH : Kept M kS s)
    (kM : Within [.fab, .xf] M := by exact Part.sub (by assumption) (by rfl)) :
    Kept M kS (portRun s p) := by
  unfold portRun
  repeat' first
    | with_reducible first
      | assumption | apply forEach_kept | apply pumpGo_kept | apply idleOut_kept | refine Part.sub kM ?_
    | intro _ | dsimp only | (show Part.subb _ _ = _; rfl)

theorem portQueue_kept {kS s : State} {p : Nat} {ts : List TxFrame} (kH : Kept M kS s)
    (kM : Within [.fab, .xf] M := by exact Part.sub (by assumption) (by rfl)) :
    Kept M kS (portQueue s p ts) := by
  unfold portQueue
  repeat' first
    | with_reducible first
      | assumption | apply modFab_kept | apply portRun_kept | refine Part.sub kM ?_
    | intro _ | dsimp only | (show Part.subb _ _ = _; rfl)

theorem newLink_kept {kS s : State} {p : Nat} {st : PState} (kH : Kept M kS s)
    (kM : Within [.fab] M := by exact Part.sub (by assumption) (by rfl)) :
    Kept M kS (newLink s p st) := by
  unfold newLink
  repeat' first
    | with_reducible first
      | assumption | apply forEach_kept | apply modFab_kept | apply idleOut_kept | apply getD_kept
      | refine Part.sub kM ?_
    | split | intro _ | dsimp only | (show Part.subb _ _ = _; rfl)

theorem failSends_kept {kS s : State} {p : Nat} (kH : Kept M kS s)
    (kM : Within [.xf] M := by exact Part.sub (by assumption) (by rfl)) :
    Kept M kS (failSends s p) := by
  unfold failSends
  repeat' first
    | with_reducible first
      | assumption | refine Part.sub kM ?_
    | split | intro _ | dsimp only | (show Part.subb _ _ = _; rfl) | (show Membership.mem (γ := List Part) _ _; decide)
    | with_reducible first
      | refine Kept.set_xf ?_ (kM.mem ?_)

theorem abortRouted_kept {kS s : State} {p : Nat} (kH : Kept M kS s)
    (kM : Within [.core, .rc, .ctx] M := by exact Part.sub (by assumption) (by rfl)) :
    Kept M kS (abortRouted s p) := by
  unfold abortRouted
  repeat' first
    | with_reducible first
      | assumption | apply abortOut_kept | refine Part.sub kM ?_
    | intro _ | dsimp only | (show Part.subb _ _ = _; rfl)

theorem portFalls_kept {kS s : State} {p : Nat} (kH : Kept M kS s)
    (kM : Within [.mc, .core, .int, .rc, .ptn, .ctx, .fab, .xf, .i3c] M := by exact Part.sub (by assumption) (by rfl)) :
    Kept M kS (portFalls s p) := by
  unfold portFalls
  repeat' first
    | with_reducible first
      | assumption | apply raise_kept | apply modFab_kept | apply newLink_kept | apply failSends_kept
      | apply abortRouted_kept | refine Part.sub kM ?_
    | split | intro _ | dsimp only | (show Part.subb _ _ = _; rfl)

theorem portTrains_kept {kS s : State} {p : Nat} (kH : Kept M kS s)
    (kM : Within [.fab, .xf] M := by exact Part.sub (by assumption) (by rfl)) :
    Kept M kS (portTrains s p) := by
  unfold portTrains
  repeat' first
    | with_reducible first
      | assumption | apply modFab_kept | apply failSends_kept | refine Part.sub kM ?_
    | intro _ | dsimp only | (show Part.subb _ _ = _; rfl)

theorem execPortLight_kept {kS s kT : State} {port : Nat} (kH : Kept M kS s) (kE : execPortLight port s = .next kT)
    (kM : Within [.fab, .xf] M := by exact Part.sub (by assumption) (by rfl)) :
    Kept M kS kT := by
  unfold execPortLight at kE
  repeat' first | contradiction | (injection kE with kE; subst kE) | split at kE | dsimp only at kE
  repeat' first
    | with_reducible first
      | assumption | apply newLink_kept | apply portTrains_kept | refine Part.sub kM ?_
    | split | intro _ | dsimp only | (show Part.subb _ _ = _; rfl)

theorem trainingDone_kept {kS s : State} {p pass lmn role : Nat} (kH : Kept M kS s)
    (kM : Within [.mc, .core, .int, .rc, .ptn, .ctx, .fab, .xf, .i3c] M := by exact Part.sub (by assumption) (by rfl)) :
    Kept M kS (trainingDone s p pass lmn role) := by
  unfold trainingDone
  repeat' first
    | with_reducible first
      | assumption | apply raise_kept | apply modFab_kept | apply portRun_kept | apply portFalls_kept | apply getD_kept
      | refine Part.sub kM ?_
    | split | intro _ | dsimp only | (show Part.subb _ _ = _; rfl)

theorem execPortTrainingDone_kept {kS s kT : State} {port pass lmn role : Nat} (kH : Kept M kS s)
    (kE : execPortTrainingDone port pass lmn role s = .next kT)
    (kM : Within [.mc, .core, .int, .rc, .ptn, .ctx, .fab, .xf, .i3c] M := by exact Part.sub (by assumption) (by rfl)) :
    Kept M kS kT := by
  unfold execPortTrainingDone at kE
  repeat' first | contradiction | (injection kE with kE; subst kE) | split at kE | dsimp only at kE
  repeat' first
    | with_reducible first
      | assumption | apply trainingDone_kept | refine Part.sub kM ?_
    | split | intro _ | dsimp only | (show Part.subb _ _ = _; rfl)

theorem execPortRetry_kept {kS s kT : State} {port : Nat} (kH : Kept M kS s) (kE : execPortRetry port s = .next kT)
    (kM : Within [.fab, .xf] M := by exact Part.sub (by assumption) (by rfl)) :
    Kept M kS kT := by
  unfold execPortRetry at kE
  repeat' first | contradiction | (injection kE with kE; subst kE) | split at kE | dsimp only at kE
  repeat' first
    | with_reducible first
      | assumption | apply portTrains_kept | refine Part.sub kM ?_
    | split | intro _ | dsimp only | (show Part.subb _ _ = _; rfl)

theorem execPortSyncLoss_kept {kS s kT : State} {port : Nat} (kH : Kept M kS s) (kE : execPortSyncLoss port s = .next kT)
    (kM : Within [.mc, .core, .int, .rc, .ptn, .ctx, .fab, .xf, .i3c] M := by exact Part.sub (by assumption) (by rfl)) :
    Kept M kS kT := by
  unfold execPortSyncLoss at kE
  repeat' first | contradiction | (injection kE with kE; subst kE) | split at kE | dsimp only at kE
  repeat' first
    | with_reducible first
      | assumption | apply portFalls_kept | refine Part.sub kM ?_
    | split | intro _ | dsimp only | (show Part.subb _ _ = _; rfl)

theorem laneSwap_kept {kS s : State} {p lane : Nat} (kH : Kept M kS s)
    (kM : Within [.mc, .int, .ptn, .ctx, .fab, .i3c] M := by exact Part.sub (by assumption) (by rfl)) :
    Kept M kS (laneSwap s p lane) := by
  unfold laneSwap
  repeat' first
    | with_reducible first
      | assumption | apply raise_kept | apply modFab_kept | refine Part.sub kM ?_
    | intro _ | dsimp only | (show Part.subb _ _ = _; rfl)

theorem laneFails_kept {kS s : State} {p lane : Nat} (kH : Kept M kS s)
    (kM : Within [.mc, .int, .ptn, .ctx, .fab, .xf, .i3c] M := by exact Part.sub (by assumption) (by rfl)) :
    Kept M kS (laneFails s p lane) := by
  unfold laneFails
  repeat' first
    | with_reducible first
      | assumption | apply modFab_kept | apply portTrains_kept | apply laneSwap_kept | refine Part.sub kM ?_
    | split | intro _ | dsimp only | (show Part.subb _ _ = _; rfl)

theorem execLaneFailure_kept {kS s kT : State} {port : Nat} {lanes : List Nat} (kH : Kept M kS s)
    (kE : execLaneFailure port lanes s = .next kT)
    (kM : Within [.mc, .int, .ptn, .ctx, .fab, .xf, .i3c] M := by exact Part.sub (by assumption) (by rfl)) :
    Kept M kS kT := by
  unfold execLaneFailure at kE
  repeat' first | contradiction | (injection kE with kE; subst kE) | split at kE | dsimp only at kE
  repeat' first
    | with_reducible first
      | assumption | apply forEach_kept | apply laneFails_kept | apply foldl_kept | apply foldl_state_kept
      | refine Part.sub kM ?_
    | intro _ | dsimp only | (show Part.subb _ _ = _; rfl)

theorem execSyncLaneFailure_kept {kS s kT : State} {port : Nat} {fibre : Bool} (kH : Kept M kS s)
    (kE : execSyncLaneFailure port fibre s = .next kT)
    (kM : Within [.mc, .core, .int, .rc, .ptn, .ctx, .fab, .xf, .i3c] M := by exact Part.sub (by assumption) (by rfl)) :
    Kept M kS kT := by
  unfold execSyncLaneFailure at kE
  repeat' first | contradiction | (injection kE with kE; subst kE) | split at kE | dsimp only at kE
  repeat' first
    | with_reducible first
      | assumption | apply raise_kept | apply modFab_kept | apply abortRouted_kept | apply portFalls_kept
      | refine Part.sub kM ?_
    | split | intro _ | dsimp only | (show Part.subb _ _ = _; rfl)

theorem dropFrame_kept {kS s : State} {p : Nat} (kH : Kept M kS s)
    (kM : Within [.fab] M := by exact Part.sub (by assumption) (by rfl)) :
    Kept M kS (dropFrame s p) := by
  unfold dropFrame
  repeat' first
    | with_reducible first
      | assumption | apply modFab_kept | refine Part.sub kM ?_
    | intro _ | dsimp only | (show Part.subb _ _ = _; rfl)

theorem nakIn_kept {kS s : State} {p k : Nat} (kH : Kept M kS s)
    (kM : Within [.mc, .int, .ptn, .ctx, .fab, .xf, .i3c] M := by exact Part.sub (by assumption) (by rfl)) :
    Kept M kS (nakIn s p k) := by
  unfold nakIn
  repeat' first
    | with_reducible first
      | assumption | apply raise_kept | apply modFab_kept | apply portTrains_kept | refine Part.sub kM ?_
    | split | intro _ | dsimp only | (show Part.subb _ _ = _; rfl)

theorem reverseIn_kept {kS s : State} {p : Nat} {f : DataFrame} (kH : Kept M kS s)
    (kM : Within [.mc, .int, .ptn, .ctx, .fab, .xf, .i3c] M := by exact Part.sub (by assumption) (by rfl)) :
    Kept M kS (reverseIn s p f) := by
  unfold reverseIn
  repeat' first
    | with_reducible first
      | assumption | apply modFab_kept | apply nakIn_kept | refine Part.sub kM ?_
    | split | intro _ | dsimp only | (show Part.subb _ _ = _; rfl)

theorem uncorrectable_kept {kS s : State} {p : Nat} (kH : Kept M kS s)
    (kM : Within [.fab] M := by exact Part.sub (by assumption) (by rfl)) :
    Kept M kS (uncorrectable s p) := by
  unfold uncorrectable
  repeat' first
    | with_reducible first
      | assumption | apply modFab_kept | apply idleOut_kept | refine Part.sub kM ?_
    | intro _ | dsimp only | (show Part.subb _ _ = _; rfl)

theorem inTurn_kept {kS s : State} {p : Nat} {f : DataFrame} {act : State → State} (kH : Kept M kS s)
    (h_act : ∀ x0, Kept M kS x0 → Kept M kS (act x0))
    (kM : Within [.mc, .int, .ptn, .ctx, .fab, .xf, .i3c] M := by exact Part.sub (by assumption) (by rfl)) :
    Kept M kS (inTurn s p f act) := by
  unfold inTurn
  repeat' first
    | with_reducible first
      | assumption | apply h_act | apply modFab_kept | apply dropFrame_kept | apply reverseIn_kept
      | refine Part.sub kM ?_
    | split | intro _ | dsimp only | (show Part.subb _ _ = _; rfl)

theorem closedFrame_kept {kS s : State} {b : Nat} (kH : Kept M kS s)
    (kM : Within [.mc, .int, .ptn, .ctx, .i3c] M := by exact Part.sub (by assumption) (by rfl)) :
    Kept M kS (closedFrame s b) := by
  unfold closedFrame
  repeat' first
    | with_reducible first
      | assumption | apply modPtn_kept | apply raise_kept | refine Part.sub kM ?_
    | intro _ | dsimp only | (show Part.subb _ _ = _; rfl)

theorem deliverFrame_kept {kS s : State} {f : DataFrame} (kH : Kept M kS s)
    (kM : Within [.mc, .int, .rc, .ptn, .ctx, .xf, .i3c] M := by exact Part.sub (by assumption) (by rfl)) :
    Kept M kS (deliverFrame s f) := by
  unfold deliverFrame
  repeat' first
    | with_reducible first
      | assumption | contradiction | apply modBuf_kept | apply closedFrame_kept | refine Kept.of_fst ‹_› ?_
      | refine Kept.of_snd ‹_› ?_ | refine Part.sub kM ?_
    | split | intro _ | dsimp only | (show Part.subb _ _ = _; rfl) | (show Membership.mem (γ := List Part) _ _; decide)
    | with_reducible first
      | refine Kept.set_xf ?_ (kM.mem ?_)

theorem forwardFrame_kept {kS s : State} {p : Nat} {f : DataFrame} (kH : Kept M kS s)
    (kM : Within [.mc, .int, .ptn, .ctx, .fab, .xf, .i3c] M := by exact Part.sub (by assumption) (by rfl)) :
    Kept M kS (forwardFrame s p f) := by
  unfold forwardFrame
  repeat' first
    | with_reducible first
      | assumption | contradiction | apply raise_kept | apply modFab_kept | apply portQueue_kept | apply dropFrame_kept
      | refine Kept.of_fst ‹_› ?_ | refine Kept.of_snd ‹_› ?_ | refine Part.sub kM ?_
    | split | intro _ | dsimp only | (show Part.subb _ _ = _; rfl) | (show Membership.mem (γ := List Part) _ _; decide)
    | with_reducible first
      | refine Kept.set_xf ?_ (kM.mem ?_)

theorem dataIn_kept {kS s : State} {p : Nat} {f : DataFrame} (kH : Kept M kS s)
    (kM : Within [.mc, .int, .rc, .ptn, .ctx, .fab, .xf, .i3c] M := by exact Part.sub (by assumption) (by rfl)) :
    Kept M kS (dataIn s p f) := by
  unfold dataIn
  repeat' first
    | with_reducible first
      | assumption | apply modFab_kept | apply deliverFrame_kept | apply forwardFrame_kept | refine Part.sub kM ?_
    | split | intro _ | dsimp only | (show Part.subb _ _ = _; rfl)

theorem execDataFrameReceive_kept {kS s kT : State} {port : Nat} {frame : Option DataFrame} {corrected : Nat} (kH : Kept M kS s)
    (kE : execDataFrameReceive port frame corrected s = .next kT)
    (kM : Within [.mc, .int, .rc, .ptn, .ctx, .fab, .xf, .i3c] M := by exact Part.sub (by assumption) (by rfl)) :
    Kept M kS kT := by
  unfold execDataFrameReceive at kE
  repeat' first | contradiction | (injection kE with kE; subst kE) | split at kE | dsimp only at kE
  repeat' first
    | with_reducible first
      | assumption | contradiction | apply modFab_kept | apply portRun_kept | apply dropFrame_kept
      | apply uncorrectable_kept | apply inTurn_kept | apply dataIn_kept | refine Kept.of_fst ‹_› ?_
      | refine Kept.of_snd ‹_› ?_ | refine Part.sub kM ?_
    | split | intro _ | dsimp only | (show Part.subb _ _ = _; rfl)

theorem execLinkFrameReceive_kept {kS s kT : State} {port : Nat} {f : DataFrame} {lane : Nat} (kH : Kept M kS s)
    (kE : execLinkFrameReceive port f lane s = .next kT)
    (kM : Within [.mc, .int, .ptn, .ctx, .fab, .xf, .i3c] M := by exact Part.sub (by assumption) (by rfl)) :
    Kept M kS kT := by
  unfold execLinkFrameReceive at kE
  repeat' first | contradiction | (injection kE with kE; subst kE) | split at kE | dsimp only at kE
  repeat' first
    | with_reducible first
      | assumption | apply portRun_kept | apply laneSwap_kept | apply inTurn_kept | refine Part.sub kM ?_
    | split | intro _ | dsimp only | (show Part.subb _ _ = _; rfl)

theorem portCmd_kept {kS s : State} {p op : Nat} (kH : Kept M kS s)
    (kM : Within [.fab, .xf] M := by exact Part.sub (by assumption) (by rfl)) :
    Kept M kS (portCmd s p op) := by
  unfold portCmd
  repeat' first
    | with_reducible first
      | assumption | contradiction | apply modFab_kept | apply newLink_kept | apply failSends_kept
      | apply portTrains_kept | refine Kept.of_fst ‹_› ?_ | refine Kept.of_snd ‹_› ?_ | refine Part.sub kM ?_
    | split | intro _ | dsimp only | (show Part.subb _ _ = _; rfl)

theorem portRow_kept {kS s : State} {who : Req} {p op : Nat} (kH : Kept M kS s)
    (kM : Within [.fab, .xf] M := by exact Part.sub (by assumption) (by rfl)) :
    Kept M kS (portRow s who p op) := by
  unfold portRow
  repeat' first
    | with_reducible first
      | assumption | apply portCmd_kept | refine Part.sub kM ?_
    | split | intro _ | dsimp only | (show Part.subb _ _ = _; rfl)

theorem execFabPtEnable_kept {kS s kT : State} {who : Req} {port : Nat} (kH : Kept M kS s)
    (kE : execFabPtEnable who port s = .next kT) (kM : Within [.fab, .xf] M := by exact Part.sub (by assumption) (by rfl)) :
    Kept M kS kT := by
  unfold execFabPtEnable at kE
  repeat' first | contradiction | (injection kE with kE; subst kE) | split at kE | dsimp only at kE
  repeat' first
    | with_reducible first
      | assumption | apply portRow_kept | refine Part.sub kM ?_
    | intro _ | dsimp only | (show Part.subb _ _ = _; rfl)

theorem execFabPtDisable_kept {kS s kT : State} {who : Req} {port : Nat} (kH : Kept M kS s)
    (kE : execFabPtDisable who port s = .next kT) (kM : Within [.fab, .xf] M := by exact Part.sub (by assumption) (by rfl)) :
    Kept M kS kT := by
  unfold execFabPtDisable at kE
  repeat' first | contradiction | (injection kE with kE; subst kE) | split at kE | dsimp only at kE
  repeat' first
    | with_reducible first
      | assumption | apply portRow_kept | refine Part.sub kM ?_
    | intro _ | dsimp only | (show Part.subb _ _ = _; rfl)

theorem execFabPtRetrain_kept {kS s kT : State} {who : Req} {port : Nat} (kH : Kept M kS s)
    (kE : execFabPtRetrain who port s = .next kT) (kM : Within [.fab, .xf] M := by exact Part.sub (by assumption) (by rfl)) :
    Kept M kS kT := by
  unfold execFabPtRetrain at kE
  repeat' first | contradiction | (injection kE with kE; subst kE) | split at kE | dsimp only at kE
  repeat' first
    | with_reducible first
      | assumption | apply portRow_kept | refine Part.sub kM ?_
    | intro _ | dsimp only | (show Part.subb _ _ = _; rfl)

theorem execPortDrainEnd_kept {kS s kT : State} {port : Nat} (kH : Kept M kS s) (kE : execPortDrainEnd port s = .next kT)
    (kM : Within [.fab] M := by exact Part.sub (by assumption) (by rfl)) :
    Kept M kS kT := by
  unfold execPortDrainEnd at kE
  repeat' first | contradiction | (injection kE with kE; subst kE) | split at kE | dsimp only at kE
  repeat' first
    | with_reducible first
      | assumption | apply modFab_kept | apply newLink_kept | refine Part.sub kM ?_
    | split | intro _ | dsimp only | (show Part.subb _ _ = _; rfl)

theorem darkDue_kept {kS s : State} (kH : Kept M kS s) (kM : Within [.fab] M := by exact Part.sub (by assumption) (by rfl)) :
    Kept M kS (darkDue s) := by
  unfold darkDue
  repeat' first
    | with_reducible first
      | assumption | apply forEach_kept | apply modFab_kept | apply newLink_kept | apply getD_kept
      | refine Part.sub kM ?_
    | split | intro _ | dsimp only | (show Part.subb _ _ = _; rfl)

theorem mapWrite_kept {kS s : State} {n w : Nat} (kH : Kept M kS s)
    (kM : Within [.fab] M := by exact Part.sub (by assumption) (by rfl)) :
    Kept M kS (mapWrite s n w) := by
  unfold mapWrite
  repeat' first
    | with_reducible first
      | assumption | refine Part.sub kM ?_
    | split | intro _ | dsimp only | (show Part.subb _ _ = _; rfl) | (show Membership.mem (γ := List Part) _ _; decide)
    | with_reducible first
      | refine Kept.set_fab ?_ (kM.mem ?_)

theorem execFabMapSelApply_kept {kS s kT : State} {n : Nat} (kH : Kept M kS s) (kE : execFabMapSelApply n s = .next kT)
    (kM : Within [.fab] M := by exact Part.sub (by assumption) (by rfl)) :
    Kept M kS kT := by
  unfold execFabMapSelApply at kE
  repeat' first | contradiction | (injection kE with kE; subst kE) | split at kE | dsimp only at kE
  repeat' first
    | with_reducible first
      | assumption | contradiction | refine Kept.of_fst ‹_› ?_ | refine Kept.of_snd ‹_› ?_ | refine Part.sub kM ?_
    | split | intro _ | dsimp only | (show Part.subb _ _ = _; rfl) | (show Membership.mem (γ := List Part) _ _; decide)
    | with_reducible first
      | refine Kept.set_fab ?_ (kM.mem ?_)

theorem takeover_kept {kS s : State} {who : Req} {l : Nat} (kH : Kept M kS s)
    (kM : Within [.fab] M := by exact Part.sub (by assumption) (by rfl)) :
    Kept M kS (takeover s who l) := by
  unfold takeover
  repeat' first
    | with_reducible first
      | assumption | refine Part.sub kM ?_
    | split | intro _ | dsimp only | (show Part.subb _ _ = _; rfl) | (show Membership.mem (γ := List Part) _ _; decide)
    | with_reducible first
      | refine Kept.set_fab ?_ (kM.mem ?_)

theorem execFabTakeover_kept {kS s kT : State} {who : Req} {lmn : Nat} (kH : Kept M kS s)
    (kE : execFabTakeover who lmn s = .next kT) (kM : Within [.fab] M := by exact Part.sub (by assumption) (by rfl)) :
    Kept M kS kT := by
  unfold execFabTakeover at kE
  repeat' first | contradiction | (injection kE with kE; subst kE) | split at kE | dsimp only at kE
  repeat' first
    | with_reducible first
      | assumption | apply takeover_kept | refine Part.sub kM ?_
    | split | intro _ | dsimp only | (show Part.subb _ _ = _; rfl)

theorem execTakeoverApply_kept {kS s kT : State} (kH : Kept M kS s) (kE : execTakeoverApply s = .next kT)
    (kM : Within [.mc, .int, .ptn, .ctx, .bell, .fab, .led, .lcs, .snp, .i3c] M := by exact Part.sub (by assumption) (by rfl)) :
    Kept M kS kT := by
  unfold execTakeoverApply at kE
  repeat' first | contradiction | (injection kE with kE; subst kE) | split at kE | dsimp only at kE
  repeat' first
    | with_reducible first
      | assumption | contradiction | apply journal_kept | refine Kept.of_fst ‹_› ?_ | refine Kept.of_snd ‹_› ?_
      | refine Part.sub kM ?_
    | split | intro _ | dsimp only | (show Part.subb _ _ = _; rfl) | (show Membership.mem (γ := List Part) _ _; decide) | (show restore _ _ _ = _; rfl)
    | with_reducible first
      | refine Kept.set_bell ?_ (kM.mem ?_) | refine Kept.set_fab ?_ (kM.mem ?_) | refine Kept.set_snp ?_ (kM.mem ?_)
      | refine Kept.upd ?_ kM ?_

/-! ### Settings -/

theorem settingPut_kept {kS s : State} {x : Setting} {w : Nat} (kH : Kept M kS s)
    (kM : Within [.rc, .prs, .bell, .fab, .sec, .pwr, .vat, .snp] M := by exact Part.sub (by assumption) (by rfl)) :
    Kept M kS (settingPut s x w) := by
  unfold settingPut
  repeat' first
    | with_reducible first
      | assumption | contradiction | apply modPrs_kept | apply modFab_kept | apply mapWrite_kept
      | refine Kept.of_fst ‹_› ?_ | refine Kept.of_snd ‹_› ?_ | refine Part.sub kM ?_
    | split | intro _ | dsimp only | (show Part.subb _ _ = _; rfl) | (show Membership.mem (γ := List Part) _ _; decide) | (show restore _ _ _ = _; rfl)
    | with_reducible first
      | refine Kept.set_rc ?_ (kM.mem ?_) | refine Kept.set_bell ?_ (kM.mem ?_) | refine Kept.set_fab ?_ (kM.mem ?_)
      | refine Kept.set_sec ?_ (kM.mem ?_) | refine Kept.set_pwr ?_ (kM.mem ?_) | refine Kept.set_vat ?_ (kM.mem ?_)
      | refine Kept.set_snp ?_ (kM.mem ?_) | refine Kept.upd ?_ kM ?_

theorem applyPending_kept {kS s : State} (kH : Kept M kS s)
    (kM : Within [.bell, .fab] M := by exact Part.sub (by assumption) (by rfl)) :
    Kept M kS (applyPending s) := by
  unfold applyPending
  repeat' first
    | with_reducible first
      | assumption | contradiction | refine Kept.of_fst ‹_› ?_ | refine Kept.of_snd ‹_› ?_ | refine Part.sub kM ?_
    | split | intro _ | dsimp only | (show Part.subb _ _ = _; rfl) | (show Membership.mem (γ := List Part) _ _; decide) | (show restore _ _ _ = _; rfl)
    | with_reducible first
      | refine Kept.set_bell ?_ (kM.mem ?_) | refine Kept.set_fab ?_ (kM.mem ?_) | refine Kept.upd ?_ kM ?_

theorem substituted_kept {kS s : State} {x : Setting} {w v : Nat} (kH : Kept M kS s)
    (kM : Within [.mc, .int, .ptn, .ctx, .led, .lcs, .i3c] M := by exact Part.sub (by assumption) (by rfl)) :
    Kept M kS (substituted s x w v) := by
  unfold substituted
  repeat' first
    | with_reducible first
      | assumption | apply journal_kept | refine Part.sub kM ?_
    | intro _ | dsimp only | (show Part.subb _ _ = _; rfl)

theorem settingLoad_kept {kS s : State} {x : Setting} {w : Nat} (kH : Kept M kS s)
    (kM : Within [.mc, .int, .rc, .ptn, .ctx, .prs, .bell, .fab, .led, .lcs, .sec, .pwr, .vat, .snp, .i3c] M := by exact Part.sub (by assumption) (by rfl)) :
    Kept M kS (settingLoad s x w) := by
  unfold settingLoad
  repeat' first
    | with_reducible first
      | assumption | apply settingPut_kept | apply substituted_kept | refine Part.sub kM ?_
    | split | intro _ | dsimp only | (show Part.subb _ _ = _; rfl)

theorem settingDefaults_kept {kS s : State} (kH : Kept M kS s)
    (kM : Within [.rc, .prs, .bell, .fab, .sec, .pwr, .vat, .snp] M := by exact Part.sub (by assumption) (by rfl)) :
    Kept M kS (settingDefaults s) := by
  unfold settingDefaults
  dsimp only
  have h : Kept M kS (forEach [.pwrCap, .pwrGate, .bellCfg, .bellTrim, .bellHoldover, .rcCfg, .vatTimeout, .ekTtl, .fabId, .snpCfg,
      .snpBuddy] (fun s x => settingPut s x x.default) s) := forEach_kept kH fun _ _ h => settingPut_kept h
  revert h
  generalize forEach _ _ s = u
  intro h
  exact Kept.upd h kM rfl

theorem loadBank_kept {kS s : State} (kH : Kept M kS s)
    (kM : Within [.mc, .int, .rc, .ptn, .ctx, .prs, .bell, .fab, .led, .lcs, .sec, .pwr, .vat, .snp, .i3c] M := by exact Part.sub (by assumption) (by rfl)) :
    Kept M kS (loadBank s) := by
  unfold loadBank
  repeat' first
    | with_reducible first
      | assumption | contradiction | apply forEach_kept | apply applyPending_kept | apply settingLoad_kept
      | apply settingDefaults_kept | refine Kept.of_fst ‹_› ?_ | refine Kept.of_snd ‹_› ?_ | refine Part.sub kM ?_
    | split | intro _ | dsimp only | (show Part.subb _ _ = _; rfl) | (show Membership.mem (γ := List Part) _ _; decide) | (show restore _ _ _ = _; rfl)
    | with_reducible first
      | refine Kept.set_lcs ?_ (kM.mem ?_) | refine Kept.set_snp ?_ (kM.mem ?_) | refine Kept.upd ?_ kM ?_

/-! ### Security -/

theorem dropPartition_kept {kS s : State} {p : Nat} (kH : Kept M kS s)
    (kM : Within [.fresh, .mem, .memKey, .memErr, .resv, .mc, .core, .int, .rc, .ptn, .ctx, .brn, .prs, .keys, .xf, .sec, .vat, .i3c] M := by exact Part.sub (by assumption) (by rfl)) :
    Kept M kS (dropPartition s p) := by
  unfold dropPartition
  repeat' first
    | with_reducible first
      | assumption | contradiction | apply forEach_kept | apply modPtn_kept | apply modCore_kept | apply modPrs_kept
      | apply idleThread_kept | apply deallocate_kept | apply dropPtnEks_kept | apply endPartition_kept
      | refine Kept.of_fst ‹_› ?_ | refine Kept.of_snd ‹_› ?_ | refine Part.sub kM ?_
    | split | intro _ | dsimp only | (show Part.subb _ _ = _; rfl)

theorem enterReturned_kept {kS s : State} (kH : Kept M kS s)
    (kM : Within [.fresh, .mem, .memKey, .memErr, .resv, .mc, .core, .int, .rc, .ptn, .ctx, .brn, .prs, .syl, .keys, .xf, .led, .lcs, .sec, .vat, .oh, .i3c] M := by exact Part.sub (by assumption) (by rfl)) :
    Kept M kS (enterReturned s) := by
  unfold enterReturned
  dsimp only
  have h : Kept M kS (scrubLinear (scrubLinear (forEach (countFrom 0 64) dropPartition s) .hbm 0 (2 ^ 39)) .tier2 0 (2 ^ 40)) :=
    scrubLinear_kept (scrubLinear_kept (forEach_kept kH fun _ _ h => dropPartition_kept h))
  generalize scrubLinear (scrubLinear (forEach (countFrom 0 64) dropPartition s) .hbm 0 (2 ^ 39)) .tier2 0 (2 ^ 40) = u at h ⊢
  exact Kept.updLed h kM rfl rfl

theorem enterScrapped_kept {kS s : State} (kH : Kept M kS s)
    (kM : Within [.led, .lcs] M := by exact Part.sub (by assumption) (by rfl)) :
    Kept M kS (enterScrapped s) := by
  unfold enterScrapped
  exact Kept.updLed kH kM rfl rfl

theorem lcsAnswer_kept {kS s : State} {st : Nat} (kH : Kept M kS s)
    (kM : Within [.lcs] M := by exact Part.sub (by assumption) (by rfl)) :
    Kept M kS (lcsAnswer s st) := by
  unfold lcsAnswer
  repeat' first
    | with_reducible first
      | assumption | refine Part.sub kM ?_
    | intro _ | dsimp only | (show Part.subb _ _ = _; rfl) | (show Membership.mem (γ := List Part) _ _; decide)
    | with_reducible first
      | refine Kept.set_lcs ?_ (kM.mem ?_)

theorem burnLife_le (lc : LifeCycle) (n : Nat) : lc.code ≤ (burnLife lc n).code := by
  unfold burnLife lifeOf LifeCycle.code
  cases lc <;> rcases n with _ | _ | _ | _ | n <;> simp

theorem burnt_kept {kS s : State} {lc : LifeCycle} {l : LcsBlk} (hl : s.fuse.lc.code ≤ lc.code) (h : Kept M kS s)
    (kM : Within [.lcs, .fuse] M := by exact Part.sub (by assumption) (by rfl)) :
    Kept M kS { s with lcs := l, fuse := { s.fuse with lc := lc } } :=
  h.change (samePart_of_restore (by rfl)) kM rfl id ⟨hl, id, le_refl _, List.prefix_refl _⟩ (le_refl _)

theorem advanceOp_kept {kS s : State} {who : Req} {target : Nat} {burn : Bool} (kH :
    Kept M kS s) (kM : Within [.fresh, .mem, .memKey, .memErr, .resv, .mc, .core, .int, .rc, .ptn, .ctx, .brn, .prs, .syl, .keys, .xf, .led, .lcs, .sec, .vat, .oh, .fuse, .i3c] M := by exact Part.sub (by assumption) (by rfl)) :
    Kept M kS (advanceOp s who target burn).1 := by
  unfold advanceOp
  split
  · exact kH
  split
  · exact kH
  split
  · exact kH
  split
  · exact kH
  have h1 : Kept M kS (journalFor s who { action := 0x01, aux := target }) := journalFor_kept kH
  have h2 := burnt_kept (l := { (journalFor s who { action := 0x01, aux := target }).lcs with lc := lifeOf target })
    (burnLife_le (journalFor s who { action := 0x01, aux := target }).fuse.lc target) h1
  dsimp only
  split
  · exact enterReturned_kept h2
  · split
    · exact enterScrapped_kept h2
    · exact h2

theorem keySetOp_kept {kS s : State} {who : Req} {code slot : Nat} (kH : Kept M kS s)
    (kM : Within [.mc, .int, .ptn, .ctx, .led, .lcs, .i3c] M := by exact Part.sub (by assumption) (by rfl)) :
    Kept M kS (keySetOp s who code slot).1 := by
  unfold keySetOp
  repeat' first
    | with_reducible first
      | assumption | contradiction | apply journalFor_kept | refine Kept.of_fst ‹_› ?_ | refine Kept.of_snd ‹_› ?_
      | refine Part.sub kM ?_
    | split | intro _ | dsimp only | (show Part.subb _ _ = _; rfl) | (show Membership.mem (γ := List Part) _ _; decide)
    | with_reducible first
      | refine Kept.set_lcs ?_ (kM.mem ?_)

theorem keyClearOp_kept {kS s : State} {who : Req} {code slot : Nat} (kH : Kept M kS s)
    (kM : Within [.mc, .int, .ptn, .ctx, .led, .lcs, .i3c] M := by exact Part.sub (by assumption) (by rfl)) :
    Kept M kS (keyClearOp s who code slot).1 := by
  unfold keyClearOp
  repeat' first
    | with_reducible first
      | assumption | contradiction | apply journalFor_kept | refine Kept.of_fst ‹_› ?_ | refine Kept.of_snd ‹_› ?_
      | refine Part.sub kM ?_
    | split | intro _ | dsimp only | (show Part.subb _ _ = _; rfl) | (show Membership.mem (γ := List Part) _ _; decide)
    | with_reducible first
      | refine Kept.set_lcs ?_ (kM.mem ?_)

theorem storeOp_kept {kS s : State} {who : Req} {syl : Bool} (kH : Kept M kS s)
    (kM : Within [.mc, .int, .ptn, .ctx, .led, .lcs, .i3c] M := by exact Part.sub (by assumption) (by rfl)) :
    Kept M kS (storeOp s who syl).1 := by
  unfold storeOp
  split
  · exact kH
  split
  · exact kH
  dsimp only
  refine journalFor_kept ?_
  split <;> exact Kept.updLed kH kM rfl rfl

theorem jrnAckOp_kept {kS s : State} {who : Req} (kH : Kept M kS s)
    (kM : Within [.mc, .int, .ptn, .ctx, .led, .lcs, .i3c] M := by exact Part.sub (by assumption) (by rfl)) :
    Kept M kS (jrnAckOp s who).1 := by
  unfold jrnAckOp
  dsimp only
  repeat' split
  all_goals first
    | exact kH
    | (refine journalFor_kept ?_; exact Kept.updLed kH kM rfl rfl)

theorem fwFloorOp_kept {kS s : State} {who : Req} {burn : Bool} (kH : Kept M kS s)
    (kM : Within [.mc, .int, .ptn, .ctx, .led, .lcs, .fuse, .i3c] M := by exact Part.sub (by assumption) (by rfl)) :
    Kept M kS (fwFloorOp s who burn).1 := by
  unfold fwFloorOp
  dsimp only
  repeat' split
  all_goals first
    | exact kH
    | (refine journalFor_kept ?_
       exact kH.change (samePart_of_restore (by rfl)) kM rfl id ⟨le_refl _, id, le_max_left _ _, List.prefix_refl _⟩ (le_refl _))

theorem recoverOp_kept {kS s : State} {who : Req} (kH : Kept M kS s)
    (kM : Within [.mc, .int, .ptn, .ctx, .led, .lcs, .mod, .i3c] M := by exact Part.sub (by assumption) (by rfl)) :
    Kept M kS (recoverOp s who).1 := by
  unfold recoverOp
  repeat' first
    | with_reducible first
      | assumption | apply journalFor_kept | refine Part.sub kM ?_
    | split | intro _ | dsimp only | (show Part.subb _ _ = _; rfl) | (show Membership.mem (γ := List Part) _ _; decide)
    | with_reducible first
      | refine Kept.set_mod ?_ (kM.mem ?_)

theorem lcsOp_kept {kS s : State} {who : Req} {word : Nat} {burn : Bool} (kH : Kept M kS s)
    (kM : Within [.fresh, .mem, .memKey, .memErr, .resv, .mc, .core, .int, .rc, .ptn, .ctx, .brn, .prs, .syl, .keys, .xf, .led, .lcs, .sec, .mod, .vat, .oh, .fuse, .i3c] M := by exact Part.sub (by assumption) (by rfl)) :
    Kept M kS (lcsOp s who word burn).1 := by
  unfold lcsOp
  repeat' first
    | with_reducible first
      | assumption | contradiction | apply advanceOp_kept | apply keySetOp_kept | apply keyClearOp_kept
      | apply storeOp_kept | apply jrnAckOp_kept | apply fwFloorOp_kept | apply recoverOp_kept
      | refine Kept.of_fst ‹_› ?_ | refine Kept.of_snd ‹_› ?_ | refine Part.sub kM ?_
    | split | intro _ | dsimp only | (show Part.subb _ _ = _; rfl)

theorem lcsCmd_kept {kS s : State} {who : Req} {word : Nat} {burn : Bool} (kH : Kept M kS s)
    (kM : Within [.fresh, .mem, .memKey, .memErr, .resv, .mc, .core, .int, .rc, .ptn, .ctx, .brn, .prs, .syl, .keys, .xf, .led, .lcs, .sec, .mod, .vat, .oh, .fuse, .i3c] M := by exact Part.sub (by assumption) (by rfl)) :
    Kept M kS (lcsCmd s who word burn) := by
  unfold lcsCmd
  repeat' first
    | with_reducible first
      | assumption | apply lcsAnswer_kept | apply lcsOp_kept | refine Kept.of_fst ‹_› ?_ | refine Kept.of_snd ‹_› ?_
      | refine Part.sub kM ?_
    | split | intro _ | dsimp only | (show Part.subb _ _ = _; rfl)

theorem lcsRow_kept {kS s : State} {who : Req} {word : Nat} {burn : Bool} (kH : Kept M kS s)
    (kM : Within [.fresh, .mem, .memKey, .memErr, .resv, .mc, .core, .int, .rc, .ptn, .ctx, .brn, .prs, .syl, .keys, .xf, .led, .lcs, .sec, .mod, .vat, .oh, .fuse, .i3c] M := by exact Part.sub (by assumption) (by rfl)) :
    Kept M kS (lcsRow s who word burn) := by
  unfold lcsRow
  repeat' first
    | with_reducible first
      | assumption | apply lcsCmd_kept | refine Part.sub kM ?_
    | split | intro _ | dsimp only | (show Part.subb _ _ = _; rfl)

theorem execAdvance_kept {kS s kT : State} {who : Req} {target : Nat} {burn : Bool} (kH : Kept M kS s)
    (kE : execAdvance who target burn s = .next kT)
    (kM : Within [.fresh, .mem, .memKey, .memErr, .resv, .mc, .core, .int, .rc, .ptn, .ctx, .brn, .prs, .syl, .keys, .xf, .led, .lcs, .sec, .mod, .vat, .oh, .fuse, .i3c] M := by exact Part.sub (by assumption) (by rfl)) :
    Kept M kS kT := by
  unfold execAdvance at kE
  repeat' first | contradiction | (injection kE with kE; subst kE) | split at kE | dsimp only at kE
  repeat' first
    | with_reducible first
      | assumption | apply lcsRow_kept | refine Part.sub kM ?_
    | intro _ | dsimp only | (show Part.subb _ _ = _; rfl)

theorem execKeySet_kept {kS s kT : State} {who : Req} {role slot : Nat} {key : List Byte} (kH : Kept M kS s)
    (kE : execKeySet who role slot key s = .next kT)
    (kM : Within [.fresh, .mem, .memKey, .memErr, .resv, .mc, .core, .int, .rc, .ptn, .ctx, .brn, .prs, .syl, .keys, .xf, .led, .lcs, .sec, .mod, .vat, .oh, .fuse, .i3c] M := by exact Part.sub (by assumption) (by rfl)) :
    Kept M kS kT := by
  unfold execKeySet at kE
  repeat' first | contradiction | (injection kE with kE; subst kE) | split at kE | dsimp only at kE
  repeat' first
    | with_reducible first
      | assumption | apply lcsCmd_kept | refine Part.sub kM ?_
    | split | intro _ | dsimp only | (show Part.subb _ _ = _; rfl) | (show Membership.mem (γ := List Part) _ _; decide)
    | with_reducible first
      | refine Kept.set_lcs ?_ (kM.mem ?_)

theorem execKeyClear_kept {kS s kT : State} {who : Req} {role slot : Nat} (kH : Kept M kS s)
    (kE : execKeyClear who role slot s = .next kT)
    (kM : Within [.fresh, .mem, .memKey, .memErr, .resv, .mc, .core, .int, .rc, .ptn, .ctx, .brn, .prs, .syl, .keys, .xf, .led, .lcs, .sec, .mod, .vat, .oh, .fuse, .i3c] M := by exact Part.sub (by assumption) (by rfl)) :
    Kept M kS kT := by
  unfold execKeyClear at kE
  repeat' first | contradiction | (injection kE with kE; subst kE) | split at kE | dsimp only at kE
  repeat' first
    | with_reducible first
      | assumption | apply lcsRow_kept | refine Part.sub kM ?_
    | intro _ | dsimp only | (show Part.subb _ _ = _; rfl)

theorem execLedgerStore_kept {kS s kT : State} {who : Req} {syl : Bool} (kH : Kept M kS s)
    (kE : execLedgerStore who syl s = .next kT)
    (kM : Within [.fresh, .mem, .memKey, .memErr, .resv, .mc, .core, .int, .rc, .ptn, .ctx, .brn, .prs, .syl, .keys, .xf, .led, .lcs, .sec, .mod, .vat, .oh, .fuse, .i3c] M := by exact Part.sub (by assumption) (by rfl)) :
    Kept M kS kT := by
  unfold execLedgerStore at kE
  repeat' first | contradiction | (injection kE with kE; subst kE) | split at kE | dsimp only at kE
  repeat' first
    | with_reducible first
      | assumption | apply lcsRow_kept | refine Part.sub kM ?_
    | intro _ | dsimp only | (show Part.subb _ _ = _; rfl)

theorem execJrnAck_kept {kS s kT : State} {who : Req} {seq : Nat} (kH : Kept M kS s) (kE : execJrnAck who seq s = .next kT)
    (kM : Within [.fresh, .mem, .memKey, .memErr, .resv, .mc, .core, .int, .rc, .ptn, .ctx, .brn, .prs, .syl, .keys, .xf, .led, .lcs, .sec, .mod, .vat, .oh, .fuse, .i3c] M := by exact Part.sub (by assumption) (by rfl)) :
    Kept M kS kT := by
  unfold execJrnAck at kE
  repeat' first | contradiction | (injection kE with kE; subst kE) | split at kE | dsimp only at kE
  repeat' first
    | with_reducible first
      | assumption | apply lcsCmd_kept | refine Part.sub kM ?_
    | split | intro _ | dsimp only | (show Part.subb _ _ = _; rfl) | (show Membership.mem (γ := List Part) _ _; decide)
    | with_reducible first
      | refine Kept.set_lcs ?_ (kM.mem ?_)

theorem execFwFloor_kept {kS s kT : State} {who : Req} {burn : Bool} (kH : Kept M kS s) (kE : execFwFloor who burn s = .next kT)
    (kM : Within [.fresh, .mem, .memKey, .memErr, .resv, .mc, .core, .int, .rc, .ptn, .ctx, .brn, .prs, .syl, .keys, .xf, .led, .lcs, .sec, .mod, .vat, .oh, .fuse, .i3c] M := by exact Part.sub (by assumption) (by rfl)) :
    Kept M kS kT := by
  unfold execFwFloor at kE
  repeat' first | contradiction | (injection kE with kE; subst kE) | split at kE | dsimp only at kE
  repeat' first
    | with_reducible first
      | assumption | apply lcsRow_kept | refine Part.sub kM ?_
    | intro _ | dsimp only | (show Part.subb _ _ = _; rfl)

theorem makeQuote_kept {kS s : State} {who : Req} {ptn : Option Nat} (kH : Kept M kS s)
    (kM : Within [.fresh, .mc, .int, .ptn, .ctx, .bell, .led, .lcs, .sec, .i3c] M := by exact Part.sub (by assumption) (by rfl)) :
    Kept M kS (makeQuote s who ptn) := by
  unfold makeQuote
  repeat' first
    | with_reducible first
      | assumption | contradiction | apply draw_kept | apply journalFor_kept | refine Kept.of_fst ‹_› ?_
      | refine Kept.of_snd ‹_› ?_ | apply getD_kept | refine Part.sub kM ?_
    | split | intro _ | dsimp only | (show Part.subb _ _ = _; rfl) | (show Membership.mem (γ := List Part) _ _; decide) | (show restore _ _ _ = _; rfl)
    | with_reducible first
      | refine Kept.set_ptn ?_ (kM.mem ?_) | refine Kept.set_bell ?_ (kM.mem ?_) | refine Kept.set_sec ?_ (kM.mem ?_)
      | refine Kept.upd ?_ kM ?_

theorem quoteModuleOp_kept {kS s : State} {who : Req} (kH : Kept M kS s)
    (kM : Within [.fresh, .mc, .int, .ptn, .ctx, .bell, .led, .lcs, .sec, .i3c] M := by exact Part.sub (by assumption) (by rfl)) :
    Kept M kS (quoteModuleOp s who).1 := by
  unfold quoteModuleOp
  repeat' first
    | with_reducible first
      | assumption | apply makeQuote_kept | refine Part.sub kM ?_
    | split | intro _ | dsimp only | (show Part.subb _ _ = _; rfl)

theorem quotePartitionOp_kept {kS s : State} {who : Req} {p : Nat} (kH : Kept M kS s)
    (kM : Within [.fresh, .mc, .int, .ptn, .ctx, .bell, .led, .lcs, .sec, .i3c] M := by exact Part.sub (by assumption) (by rfl)) :
    Kept M kS (quotePartitionOp s who p).1 := by
  unfold quotePartitionOp
  repeat' first
    | with_reducible first
      | assumption | apply makeQuote_kept | refine Part.sub kM ?_
    | split | intro _ | dsimp only | (show Part.subb _ _ = _; rfl)

theorem releaseContext_kept {kS s : State} {who : Req} {r b : List Byte} (kH : Kept M kS s)
    (kM : Within [.mem, .memErr, .tags, .resv, .mc, .core, .int, .rc, .ptn, .ctx, .keys, .led, .lcs, .i3c] M := by exact Part.sub (by assumption) (by rfl)) :
    Kept M kS (releaseContext s who r b).1 := by
  unfold releaseContext
  repeat' first
    | with_reducible first
      | assumption | contradiction | apply modCtx_kept | apply loadKey_kept | apply journalFor_kept
      | refine Kept.of_fst ‹_› ?_ | refine Kept.of_snd ‹_› ?_ | refine Part.sub kM ?_
    | split | intro _ | dsimp only | (show Part.subb _ _ = _; rfl)

theorem releaseBase_kept {kS s : State} {who : Req} {r b : List Byte} (kH : Kept M kS s)
    (kM : Within [.mc, .int, .ptn, .ctx, .keys, .led, .lcs, .i3c] M := by exact Part.sub (by assumption) (by rfl)) :
    Kept M kS (releaseBase s who r b).1 := by
  unfold releaseBase
  repeat' first
    | with_reducible first
      | assumption | apply journalFor_kept | refine Part.sub kM ?_
    | split | intro _ | dsimp only | (show Part.subb _ _ = _; rfl) | (show Membership.mem (γ := List Part) _ _; decide)
    | with_reducible first
      | refine Kept.set_keys ?_ (kM.mem ?_)

theorem keyReleaseOp_kept {kS s : State} {who : Req} (kH : Kept M kS s)
    (kM : Within [.mem, .memErr, .tags, .resv, .mc, .core, .int, .rc, .ptn, .ctx, .keys, .led, .lcs, .sec, .i3c] M := by exact Part.sub (by assumption) (by rfl)) :
    Kept M kS (keyReleaseOp s who).1 := by
  unfold keyReleaseOp
  repeat' first
    | with_reducible first
      | assumption | contradiction | apply releaseContext_kept | apply releaseBase_kept | refine Kept.of_fst ‹_› ?_
      | refine Kept.of_snd ‹_› ?_ | refine Part.sub kM ?_
    | split | intro _ | dsimp only | (show Part.subb _ _ = _; rfl) | (show Membership.mem (γ := List Part) _ _; decide)
    | with_reducible first
      | refine Kept.set_sec ?_ (kM.mem ?_)

theorem ekDropOp_kept {kS s : State} {who : Req} {p : Nat} {module : Bool} (kH : Kept M kS s)
    (kM : Within [.sec] M := by exact Part.sub (by assumption) (by rfl)) :
    Kept M kS (ekDropOp s who p module).1 := by
  unfold ekDropOp
  repeat' first
    | with_reducible first
      | assumption | apply dropPtnEks_kept | refine Part.sub kM ?_
    | split | intro _ | dsimp only | (show Part.subb _ _ = _; rfl) | (show Membership.mem (γ := List Part) _ _; decide)
    | with_reducible first
      | refine Kept.set_sec ?_ (kM.mem ?_)

theorem secOp_kept {kS s : State} {who : Req} {word : Nat} (kH : Kept M kS s)
    (kM : Within [.fresh, .mem, .memErr, .tags, .resv, .mc, .core, .int, .rc, .ptn, .ctx, .bell, .keys, .led, .lcs, .sec, .i3c] M := by exact Part.sub (by assumption) (by rfl)) :
    Kept M kS (secOp s who word).1 := by
  unfold secOp
  repeat' first
    | with_reducible first
      | assumption | contradiction | apply quoteModuleOp_kept | apply quotePartitionOp_kept | apply keyReleaseOp_kept
      | apply ekDropOp_kept | refine Kept.of_fst ‹_› ?_ | refine Kept.of_snd ‹_› ?_ | refine Part.sub kM ?_
    | split | intro _ | dsimp only | (show Part.subb _ _ = _; rfl)

theorem secCmd_kept {kS s : State} {who : Req} {word : Nat} (kH : Kept M kS s)
    (kM : Within [.fresh, .mem, .memErr, .tags, .resv, .mc, .core, .int, .rc, .ptn, .ctx, .bell, .keys, .led, .lcs, .sec, .i3c] M := by exact Part.sub (by assumption) (by rfl)) :
    Kept M kS (secCmd s who word) := by
  unfold secCmd
  repeat' first
    | with_reducible first
      | assumption | apply secOp_kept | refine Kept.of_fst ‹_› ?_ | refine Kept.of_snd ‹_› ?_ | refine Part.sub kM ?_
    | split | intro _ | dsimp only | (show Part.subb _ _ = _; rfl) | (show Membership.mem (γ := List Part) _ _; decide)
    | with_reducible first
      | refine Kept.set_sec ?_ (kM.mem ?_)

theorem putNonce_kept {kS s : State} {who : Req} {nonce : List Byte} (kH : Kept M kS s)
    (kM : Within [.sec] M := by exact Part.sub (by assumption) (by rfl)) :
    Kept M kS (putNonce s who nonce) := by
  unfold putNonce
  repeat' first
    | with_reducible first
      | assumption | refine Part.sub kM ?_
    | split | intro _ | dsimp only | (show Part.subb _ _ = _; rfl) | (show Membership.mem (γ := List Part) _ _; decide)
    | with_reducible first
      | refine Kept.set_sec ?_ (kM.mem ?_)

theorem execQuoteModule_kept {kS s kT : State} {who : Req} {nonce : List Byte} (kH : Kept M kS s)
    (kE : execQuoteModule who nonce s = .next kT)
    (kM : Within [.fresh, .mem, .memErr, .tags, .resv, .mc, .core, .int, .rc, .ptn, .ctx, .bell, .keys, .led, .lcs, .sec, .i3c] M := by exact Part.sub (by assumption) (by rfl)) :
    Kept M kS kT := by
  unfold execQuoteModule at kE
  repeat' first | contradiction | (injection kE with kE; subst kE) | split at kE | dsimp only at kE
  repeat' first
    | with_reducible first
      | assumption | apply secCmd_kept | apply putNonce_kept | refine Part.sub kM ?_
    | split | intro _ | dsimp only | (show Part.subb _ _ = _; rfl)

theorem execQuotePartition_kept {kS s kT : State} {who : Req} {p : Nat} {nonce : List Byte} (kH : Kept M kS s)
    (kE : execQuotePartition who p nonce s = .next kT)
    (kM : Within [.fresh, .mem, .memErr, .tags, .resv, .mc, .core, .int, .rc, .ptn, .ctx, .bell, .keys, .led, .lcs, .sec, .i3c] M := by exact Part.sub (by assumption) (by rfl)) :
    Kept M kS kT := by
  unfold execQuotePartition at kE
  repeat' first | contradiction | (injection kE with kE; subst kE) | split at kE | dsimp only at kE
  repeat' first
    | with_reducible first
      | assumption | apply secCmd_kept | apply putNonce_kept | refine Part.sub kM ?_
    | split | intro _ | dsimp only | (show Part.subb _ _ = _; rfl)

theorem execKeyRelease_kept {kS s kT : State} {who : Req} {record : List Byte} (kH : Kept M kS s)
    (kE : execKeyRelease who record s = .next kT)
    (kM : Within [.fresh, .mem, .memErr, .tags, .resv, .mc, .core, .int, .rc, .ptn, .ctx, .bell, .keys, .led, .lcs, .sec, .i3c] M := by exact Part.sub (by assumption) (by rfl)) :
    Kept M kS kT := by
  unfold execKeyRelease at kE
  repeat' first | contradiction | (injection kE with kE; subst kE) | split at kE | dsimp only at kE
  repeat' first
    | with_reducible first
      | assumption | apply secCmd_kept | refine Part.sub kM ?_
    | split | intro _ | dsimp only | (show Part.subb _ _ = _; rfl) | (show Membership.mem (γ := List Part) _ _; decide)
    | with_reducible first
      | refine Kept.set_sec ?_ (kM.mem ?_)

theorem execEkDrop_kept {kS s kT : State} {who : Req} {p : Nat} {module : Bool} (kH : Kept M kS s)
    (kE : execEkDrop who p module s = .next kT)
    (kM : Within [.fresh, .mem, .memErr, .tags, .resv, .mc, .core, .int, .rc, .ptn, .ctx, .bell, .keys, .led, .lcs, .sec, .i3c] M := by exact Part.sub (by assumption) (by rfl)) :
    Kept M kS kT := by
  unfold execEkDrop at kE
  repeat' first | contradiction | (injection kE with kE; subst kE) | split at kE | dsimp only at kE
  repeat' first
    | with_reducible first
      | assumption | apply secCmd_kept | refine Part.sub kM ?_
    | split | intro _ | dsimp only | (show Part.subb _ _ = _; rfl)

theorem execEkExpiry_kept {kS s kT : State} (kH : Kept M kS s) (kE : execEkExpiry s = .next kT)
    (kM : Within [.sec] M := by exact Part.sub (by assumption) (by rfl)) :
    Kept M kS kT := by
  unfold execEkExpiry at kE
  repeat' first | contradiction | (injection kE with kE; subst kE) | split at kE | dsimp only at kE
  repeat' first
    | with_reducible first
      | assumption | refine Part.sub kM ?_
    | intro _ | dsimp only | (show Part.subb _ _ = _; rfl) | (show Membership.mem (γ := List Part) _ _; decide)
    | with_reducible first
      | refine Kept.set_sec ?_ (kM.mem ?_)

end Sys2Proof.Machine
end

