-- ==== Sys2Proof/Laws/KeptEngine.lean ====
section
/-! SUPPORT. What no operation of the module does (Kept, Laws/Kept.lean), one lemma for each function that changes the state:
the self-test, snapshots, transfers and Lessons. -/

namespace Sys2Proof.Machine

set_option Elab.async false

variable {M : List Part}

/-! ### SelfTest -/

theorem pushResult_kept {kS s : State} {bs : List Byte} (kH : Kept M kS s)
    (kM : Within [.tst] M := by exact Part.sub (by assumption) (by rfl)) :
    Kept M kS (pushResult s bs) := by
  unfold pushResult
  repeat' first
    | with_reducible first
      | assumption | refine Part.sub kM ?_
    | split | intro _ | dsimp only | (show Part.subb _ _ = _; rfl) | (show Membership.mem (γ := List Part) _ _; decide)
    | with_reducible first
      | refine Kept.set_tst ?_ (kM.mem ?_)

theorem bistRepair_kept {kS s : State} {origin kind : Nat} {r : TestRes} (kH : Kept M kS s)
    (kM : Within [.mc, .int, .ptn, .ctx, .led, .lcs, .tst, .i3c] M := by exact Part.sub (by assumption) (by rfl)) :
    Kept M kS (bistRepair s origin kind r) := by
  unfold bistRepair
  repeat' first
    | with_reducible first
      | assumption | apply forEach_kept | apply putRep_kept | apply addRep_kept | refine Part.sub kM ?_
    | intro _ | dsimp only | (show Part.subb _ _ = _; rfl)

theorem bistRetire_kept {kS s : State} {origin q : Nat} (kH : Kept M kS s)
    (kM : Within [.mc, .phys, .int, .ptn, .ctx, .led, .lcs, .tst, .i3c] M := by exact Part.sub (by assumption) (by rfl)) :
    Kept M kS (bistRetire s origin q).1 := by
  unfold bistRetire
  repeat' first
    | with_reducible first
      | assumption | contradiction | apply modPhys_kept | apply addRep_kept | apply holdCluster_kept
      | refine Kept.of_fst ‹_› ?_ | refine Kept.of_snd ‹_› ?_ | refine Part.sub kM ?_
    | split | intro _ | dsimp only | (show Part.subb _ _ = _; rfl)

theorem bistEffect_kept {kS s : State} {origin : Nat} {r : TestRes} (kH : Kept M kS s)
    (kM : Within [.mc, .phys, .int, .ptn, .ctx, .fab, .led, .lcs, .tst, .i3c] M := by exact Part.sub (by assumption) (by rfl)) :
    Kept M kS (bistEffect s origin r).1 := by
  unfold bistEffect
  repeat' first
    | with_reducible first
      | assumption | contradiction | apply forEach_kept | apply holdCluster_kept | apply modFab_kept
      | apply bistRepair_kept | apply bistRetire_kept | refine Kept.of_fst ‹_› ?_ | refine Kept.of_snd ‹_› ?_
      | refine Part.sub kM ?_
    | split | intro _ | dsimp only | (show Part.subb _ _ = _; rfl) | (show Membership.mem (γ := List Part) _ _; decide)
    | with_reducible first
      | refine Kept.set_tst ?_ (kM.mem ?_)

theorem testResult_kept {kS s : State} {origin : Nat} {r : TestRes} (kH : Kept M kS s)
    (kM : Within [.mc, .phys, .int, .ptn, .ctx, .fab, .led, .lcs, .tst, .i3c] M := by exact Part.sub (by assumption) (by rfl)) :
    Kept M kS (testResult origin s r) := by
  unfold testResult
  repeat' first
    | with_reducible first
      | assumption | apply raise_kept | apply pushResult_kept | apply bistEffect_kept | refine Kept.of_fst ‹_› ?_
      | refine Kept.of_snd ‹_› ?_ | refine Part.sub kM ?_
    | split | intro _ | dsimp only | (show Part.subb _ _ = _; rfl) | (show Membership.mem (γ := List Part) _ _; decide)
    | with_reducible first
      | refine Kept.set_tst ?_ (kM.mem ?_)

theorem testResults_kept {kS s : State} {origin : Nat} {rs : List TestRes} (kH : Kept M kS s)
    (kM : Within [.mc, .phys, .int, .ptn, .ctx, .fab, .led, .lcs, .tst, .i3c] M := by exact Part.sub (by assumption) (by rfl)) :
    Kept M kS (testResults origin s rs).1 := by
  unfold testResults
  repeat' first
    | with_reducible first
      | assumption | apply forEach_kept | apply testResult_kept | refine Part.sub kM ?_
    | intro _ | dsimp only | (show Part.subb _ _ = _; rfl) | (show Membership.mem (γ := List Part) _ _; decide)
    | with_reducible first
      | refine Kept.set_tst ?_ (kM.mem ?_)

theorem clearSram_kept {kS s : State} {c nc k nk : Nat} (kH : Kept M kS s)
    (kM : Within [.mem, .memErr, .tags, .resv] M := by exact Part.sub (by assumption) (by rfl)) :
    Kept M kS (clearSram s c nc k nk) :=
  kH.change (samePart_of_restore (by rfl)) kM rfl (fun x => twf_filter _ (twf_filter _ x)) (FusesKept.refl _) (le_refl _)

theorem clearRegion_kept {kS s : State} {r : Nat} (kH : Kept M kS s)
    (kM : Within [.mem, .memErr, .tags, .resv] M := by exact Part.sub (by assumption) (by rfl)) :
    Kept M kS (clearRegion s r) := by
  unfold clearRegion
  repeat' first
    | with_reducible first
      | assumption | apply clearSram_kept | refine Part.sub kM ?_
    | intro _ | dsimp only | (show Part.subb _ _ = _; rfl)

theorem tstAnswer_kept {kS s : State} {st : Nat} (kH : Kept M kS s)
    (kM : Within [.tst] M := by exact Part.sub (by assumption) (by rfl)) :
    Kept M kS (tstAnswer s st) := by
  unfold tstAnswer
  repeat' first
    | with_reducible first
      | assumption | refine Part.sub kM ?_
    | intro _ | dsimp only | (show Part.subb _ _ = _; rfl) | (show Membership.mem (γ := List Part) _ _; decide)
    | with_reducible first
      | refine Kept.set_tst ?_ (kM.mem ?_)

theorem startRun_kept {kS s : State} {kind : Nat} {rs : List Nat} (kH : Kept M kS s)
    (kM : Within [.tst] M := by exact Part.sub (by assumption) (by rfl)) :
    Kept M kS (startRun s kind rs) := by
  unfold startRun
  repeat' first
    | with_reducible first
      | assumption | refine Part.sub kM ?_
    | intro _ | dsimp only | (show Part.subb _ _ = _; rfl) | (show Membership.mem (γ := List Part) _ _; decide)
    | with_reducible first
      | refine Kept.set_tst ?_ (kM.mem ?_)

theorem fuseOp_kept {kS s : State} {fails : List Nat} (kH : Kept M kS s)
    (kM : Within [.mc, .int, .ptn, .ctx, .led, .lcs, .tst, .fuse, .i3c] M := by exact Part.sub (by assumption) (by rfl)) :
    Kept M kS (fuseOp s fails) := by
  unfold fuseOp
  dsimp only
  refine tstAnswer_kept ?_
  refine forEach_kept kH fun s e h => ?_
  refine putRep_kept ?_
  exact h.change (samePart_of_restore (by rfl)) kM rfl id ⟨le_refl _, id, le_refl _, List.prefix_append _ _⟩ (le_refl _)

theorem tstCmd_kept {kS s : State} {who : Req} {word : Nat} {fails : List Nat} (kH : Kept M kS s)
    (kM : Within [.mc, .int, .ptn, .ctx, .led, .lcs, .tst, .fuse, .i3c] M := by exact Part.sub (by assumption) (by rfl)) :
    Kept M kS (tstCmd s who word fails) := by
  unfold tstCmd
  repeat' first
    | with_reducible first
      | assumption | contradiction | apply tstAnswer_kept | apply startRun_kept | apply fuseOp_kept
      | refine Kept.of_fst ‹_› ?_ | refine Kept.of_snd ‹_› ?_ | refine Part.sub kM ?_
    | split | intro _ | dsimp only | (show Part.subb _ _ = _; rfl)

theorem tstRow_kept {kS s : State} {who : Req} {op arg : Nat} {fails : List Nat} (kH : Kept M kS s)
    (kM : Within [.mc, .int, .ptn, .ctx, .led, .lcs, .tst, .fuse, .i3c] M := by exact Part.sub (by assumption) (by rfl)) :
    Kept M kS (tstRow s who op arg fails) := by
  unfold tstRow
  repeat' first
    | with_reducible first
      | assumption | apply tstCmd_kept | refine Part.sub kM ?_
    | split | intro _ | dsimp only | (show Part.subb _ _ = _; rfl) | (show Membership.mem (γ := List Part) _ _; decide)
    | with_reducible first
      | refine Kept.set_tst ?_ (kM.mem ?_)

theorem execRunQuick_kept {kS s kT : State} {who : Req} {regions : Nat} (kH : Kept M kS s)
    (kE : execRunQuick who regions s = .next kT)
    (kM : Within [.mc, .int, .ptn, .ctx, .led, .lcs, .tst, .fuse, .i3c] M := by exact Part.sub (by assumption) (by rfl)) :
    Kept M kS kT := by
  unfold execRunQuick at kE
  repeat' first | contradiction | (injection kE with kE; subst kE) | split at kE | dsimp only at kE
  repeat' first
    | with_reducible first
      | assumption | apply tstRow_kept | refine Part.sub kM ?_
    | intro _ | dsimp only | (show Part.subb _ _ = _; rfl)

theorem execRunFull_kept {kS s kT : State} {who : Req} {regions : Nat} (kH : Kept M kS s)
    (kE : execRunFull who regions s = .next kT)
    (kM : Within [.mc, .int, .ptn, .ctx, .led, .lcs, .tst, .fuse, .i3c] M := by exact Part.sub (by assumption) (by rfl)) :
    Kept M kS kT := by
  unfold execRunFull at kE
  repeat' first | contradiction | (injection kE with kE; subst kE) | split at kE | dsimp only at kE
  repeat' first
    | with_reducible first
      | assumption | apply tstRow_kept | refine Part.sub kM ?_
    | intro _ | dsimp only | (show Part.subb _ _ = _; rfl)

theorem execLoopFar_kept {kS s kT : State} {who : Req} {ports : Nat} (kH : Kept M kS s) (kE : execLoopFar who ports s = .next kT)
    (kM : Within [.mc, .int, .ptn, .ctx, .led, .lcs, .tst, .fuse, .i3c] M := by exact Part.sub (by assumption) (by rfl)) :
    Kept M kS kT := by
  unfold execLoopFar at kE
  repeat' first | contradiction | (injection kE with kE; subst kE) | split at kE | dsimp only at kE
  repeat' first
    | with_reducible first
      | assumption | apply tstRow_kept | refine Part.sub kM ?_
    | intro _ | dsimp only | (show Part.subb _ _ = _; rfl)

theorem execFuse_kept {kS s kT : State} {who : Req} {fails : List Nat} (kH : Kept M kS s) (kE : execFuse who fails s = .next kT)
    (kM : Within [.mc, .int, .ptn, .ctx, .led, .lcs, .tst, .fuse, .i3c] M := by exact Part.sub (by assumption) (by rfl)) :
    Kept M kS kT := by
  unfold execFuse at kE
  repeat' first | contradiction | (injection kE with kE; subst kE) | split at kE | dsimp only at kE
  repeat' first
    | with_reducible first
      | assumption | apply tstRow_kept | refine Part.sub kM ?_
    | intro _ | dsimp only | (show Part.subb _ _ = _; rfl)

theorem execRegionBistEnd_kept {kS s kT : State} {region : Nat} {results : List TestRes} (kH : Kept M kS s)
    (kE : execRegionBistEnd region results s = .next kT)
    (kM : Within [.mem, .memErr, .tags, .resv, .mc, .phys, .int, .ptn, .ctx, .fab, .led, .lcs, .tst, .i3c] M := by exact Part.sub (by assumption) (by rfl)) :
    Kept M kS kT := by
  unfold execRegionBistEnd at kE
  repeat' first | contradiction | (injection kE with kE; subst kE) | split at kE | dsimp only at kE
  repeat' first
    | with_reducible first
      | assumption | apply testResults_kept | apply clearRegion_kept | refine Kept.of_fst ‹_› ?_
      | refine Kept.of_snd ‹_› ?_ | refine Part.sub kM ?_
    | split | intro _ | dsimp only | (show Part.subb _ _ = _; rfl) | (show Membership.mem (γ := List Part) _ _; decide)
    | with_reducible first
      | refine Kept.set_tst ?_ (kM.mem ?_)

theorem execTestRunEnd_kept {kS s kT : State} {results : List TestRes} (kH : Kept M kS s)
    (kE : execTestRunEnd results s = .next kT) (kM : Within [.mem, .memKey, .memErr, .resv, .mc, .phys, .int, .ptn, .ctx, .fab, .led, .lcs, .tst, .i3c] M := by exact Part.sub (by assumption) (by rfl)) : Kept M kS kT := by
  unfold execTestRunEnd at kE
  injection kE with kE
  subst kE
  split
  · exact kH
  dsimp only
  have h : Kept M kS (forEach results (testResult (runOrigin s)) s) := forEach_kept kH fun _ _ h => testResult_kept h
  refine tstAnswer_kept ?_
  split
  · exact h.change (samePart_of_restore (by rfl)) kM rfl (fun _ => rfl) (FusesKept.refl _) (le_refl _)
  · exact h

theorem tapLoad_kept {kS s : State} {ir : Nat} {f : State → State} (kH : Kept M kS s)
    (h_f : ∀ x0, Kept M kS x0 → Kept M kS (f x0)) (kM : Within [.tap] M := by exact Part.sub (by assumption) (by rfl)) :
    Kept M kS (tapLoad s ir f) := by
  unfold tapLoad
  repeat' first
    | with_reducible first
      | assumption | apply h_f | refine Part.sub kM ?_
    | split | intro _ | dsimp only | (show Part.subb _ _ = _; rfl) | (show Membership.mem (γ := List Part) _ _; decide)
    | with_reducible first
      | refine Kept.set_tap ?_ (kM.mem ?_)

theorem execTapReset_kept {kS s kT : State} (kH : Kept M kS s) (kE : execTapReset s = .next kT)
    (kM : Within [.tap] M := by exact Part.sub (by assumption) (by rfl)) :
    Kept M kS kT := by
  unfold execTapReset at kE
  repeat' first | contradiction | (injection kE with kE; subst kE) | split at kE | dsimp only at kE
  repeat' first
    | with_reducible first
      | assumption | refine Part.sub kM ?_
    | split | intro _ | dsimp only | (show Part.subb _ _ = _; rfl) | (show Membership.mem (γ := List Part) _ _; decide)
    | with_reducible first
      | refine Kept.set_tap ?_ (kM.mem ?_)

theorem execExtest_kept {kS s kT : State} {pins cells : Nat} (kH : Kept M kS s) (kE : execExtest pins cells s = .next kT)
    (kM : Within [.tap] M := by exact Part.sub (by assumption) (by rfl)) :
    Kept M kS kT := by
  unfold execExtest at kE
  repeat' first | contradiction | (injection kE with kE; subst kE) | split at kE | dsimp only at kE
  repeat' first
    | with_reducible first
      | assumption | apply tapLoad_kept | refine Part.sub kM ?_
    | intro _ | dsimp only | (show Part.subb _ _ = _; rfl) | (show Membership.mem (γ := List Part) _ _; decide)
    | with_reducible first
      | refine Kept.set_tap ?_ (kM.mem ?_)

theorem execSamplePreload_kept {kS s kT : State} {pins cells : Nat} (kH : Kept M kS s)
    (kE : execSamplePreload pins cells s = .next kT) (kM : Within [.tap] M := by exact Part.sub (by assumption) (by rfl)) :
    Kept M kS kT := by
  unfold execSamplePreload at kE
  repeat' first | contradiction | (injection kE with kE; subst kE) | split at kE | dsimp only at kE
  repeat' first
    | with_reducible first
      | assumption | apply tapLoad_kept | refine Part.sub kM ?_
    | intro _ | dsimp only | (show Part.subb _ _ = _; rfl) | (show Membership.mem (γ := List Part) _ _; decide)
    | with_reducible first
      | refine Kept.set_tap ?_ (kM.mem ?_)

theorem execClamp_kept {kS s kT : State} (kH : Kept M kS s) (kE : execClamp s = .next kT)
    (kM : Within [.tap] M := by exact Part.sub (by assumption) (by rfl)) :
    Kept M kS kT := by
  unfold execClamp at kE
  repeat' first | contradiction | (injection kE with kE; subst kE) | split at kE | dsimp only at kE
  repeat' first
    | with_reducible first
      | assumption | apply tapLoad_kept | refine Part.sub kM ?_
    | intro _ | dsimp only | (show Part.subb _ _ = _; rfl) | (show Membership.mem (γ := List Part) _ _; decide)
    | with_reducible first
      | refine Kept.set_tap ?_ (kM.mem ?_)

theorem execHighz_kept {kS s kT : State} (kH : Kept M kS s) (kE : execHighz s = .next kT)
    (kM : Within [.tap] M := by exact Part.sub (by assumption) (by rfl)) :
    Kept M kS kT := by
  unfold execHighz at kE
  repeat' first | contradiction | (injection kE with kE; subst kE) | split at kE | dsimp only at kE
  repeat' first
    | with_reducible first
      | assumption | apply tapLoad_kept | refine Part.sub kM ?_
    | intro _ | dsimp only | (show Part.subb _ _ = _; rfl) | (show Membership.mem (γ := List Part) _ _; decide)
    | with_reducible first
      | refine Kept.set_tap ?_ (kM.mem ?_)

theorem execBypass_kept {kS s kT : State} (kH : Kept M kS s) (kE : execBypass s = .next kT)
    (kM : Within [.tap] M := by exact Part.sub (by assumption) (by rfl)) :
    Kept M kS kT := by
  unfold execBypass at kE
  repeat' first | contradiction | (injection kE with kE; subst kE) | split at kE | dsimp only at kE
  repeat' first
    | with_reducible first
      | assumption | refine Part.sub kM ?_
    | split | intro _ | dsimp only | (show Part.subb _ _ = _; rfl) | (show Membership.mem (γ := List Part) _ _; decide)
    | with_reducible first
      | refine Kept.set_tap ?_ (kM.mem ?_)

/-! ### Snapshot -/

theorem modSnp_kept {kS s : State} {c : Nat} {f : SnpCtx → SnpCtx} (kH : Kept M kS s)
    (kM : Within [.snp] M := by exact Part.sub (by assumption) (by rfl)) :
    Kept M kS (modSnp s c f) := by
  unfold modSnp
  repeat' first
    | with_reducible first
      | assumption | refine Part.sub kM ?_
    | intro _ | dsimp only | (show Part.subb _ _ = _; rfl) | (show Membership.mem (γ := List Part) _ _; decide)
    | with_reducible first
      | refine Kept.set_snp ?_ (kM.mem ?_)

theorem snpWrite_kept {kS s : State} {p c ga : Nat} {bs : List Byte} (kH : Kept M kS s)
    (kM : Within [.mem, .memKey, .memErr, .tags, .resv, .mc, .core, .int, .ptn, .ctx, .i3c] M := by exact Part.sub (by assumption) (by rfl)) :
    Kept M kS (snpWrite s p c ga bs) := by
  unfold snpWrite
  repeat' first
    | with_reducible first
      | assumption | contradiction | apply writeAs_kept | refine Kept.of_fst ‹_› ?_ | refine Kept.of_snd ‹_› ?_
      | refine Part.sub kM ?_
    | split | intro _ | dsimp only | (show Part.subb _ _ = _; rfl)

theorem skipTrigger_kept {kS s : State} (kH : Kept M kS s) (kM : Within [.snp] M := by exact Part.sub (by assumption) (by rfl)) :
    Kept M kS (skipTrigger s) := by
  unfold skipTrigger
  repeat' first
    | with_reducible first
      | assumption | refine Part.sub kM ?_
    | intro _ | dsimp only | (show Part.subb _ _ = _; rfl) | (show Membership.mem (γ := List Part) _ _; decide)
    | with_reducible first
      | refine Kept.set_snp ?_ (kM.mem ?_)

theorem verifyStep_kept {kS s : State} {p c : Nat} {pl : Plan} {t : Nat} {d : List Byte} (kH : Kept M kS s)
    (kM : Within [.mem, .memErr, .tags, .resv, .mc, .core, .int, .rc, .ptn, .ctx, .prs, .snp, .i3c] M := by exact Part.sub (by assumption) (by rfl)) :
    Kept M kS (verifyStep s p c pl t d) := by
  unfold verifyStep
  repeat' first
    | with_reducible first
      | assumption | contradiction | apply raise_kept | apply restartCtx_kept | apply modSnp_kept
      | refine Kept.of_fst ‹_› ?_ | refine Kept.of_snd ‹_› ?_ | refine Part.sub kM ?_
    | split | intro _ | dsimp only | (show Part.subb _ _ = _; rfl) | (show Membership.mem (γ := List Part) _ _; decide) | (show restore _ _ _ = _; rfl)
    | with_reducible first
      | refine Kept.set_ptn ?_ (kM.mem ?_) | refine Kept.set_ctx ?_ (kM.mem ?_) | refine Kept.set_snp ?_ (kM.mem ?_)
      | refine Kept.upd ?_ kM ?_

theorem writeDigest_kept {kS s : State} {p c : Nat} {pl : Plan} {bs : List PRun} {t : Nat} (kH : Kept M kS s)
    (kM : Within [.mem, .memKey, .memErr, .tags, .resv, .mc, .core, .int, .rc, .ptn, .ctx, .prs, .snp, .i3c] M := by exact Part.sub (by assumption) (by rfl)) :
    Kept M kS (writeDigest s p c pl bs t) := by
  unfold writeDigest
  repeat' first
    | with_reducible first
      | assumption | apply modSnp_kept | apply snpWrite_kept | apply verifyStep_kept | refine Part.sub kM ?_
    | split | intro _ | dsimp only | (show Part.subb _ _ = _; rfl)

theorem capture_kept {kS s : State} {p c : Nat} {pl : Plan} {bs : List PRun} {t : Nat} (kH : Kept M kS s)
    (kM : Within [.mem, .memKey, .memErr, .tags, .resv, .mc, .core, .int, .ptn, .ctx, .snp, .i3c] M := by exact Part.sub (by assumption) (by rfl)) :
    Kept M kS (capture s p c pl bs t) := by
  unfold capture
  repeat' first
    | with_reducible first
      | assumption | contradiction | apply modCtx_kept | apply modSnp_kept | apply snpWrite_kept | apply skipTrigger_kept
      | refine Kept.of_fst ‹_› ?_ | refine Kept.of_snd ‹_› ?_ | apply getD_kept | refine Part.sub kM ?_
    | split | intro _ | dsimp only | (show Part.subb _ _ = _; rfl) | (show Membership.mem (γ := List Part) _ _; decide) | (show restore _ _ _ = _; rfl)
    | with_reducible first
      | refine Kept.set_ptn ?_ (kM.mem ?_) | refine Kept.set_ctx ?_ (kM.mem ?_) | refine Kept.set_snp ?_ (kM.mem ?_)
      | refine Kept.upd ?_ kM ?_

theorem trigger_kept {kS s : State} {p c : Nat} (kH : Kept M kS s)
    (kM : Within [.mem, .memKey, .memErr, .tags, .resv, .mc, .core, .int, .rc, .ptn, .ctx, .prs, .snp, .i3c] M := by exact Part.sub (by assumption) (by rfl)) :
    Kept M kS (trigger s p c) := by
  unfold trigger
  repeat' first
    | with_reducible first
      | assumption | contradiction | apply skipTrigger_kept | apply writeDigest_kept | apply capture_kept
      | refine Kept.of_fst ‹_› ?_ | refine Kept.of_snd ‹_› ?_ | refine Part.sub kM ?_
    | split | intro _ | dsimp only | (show Part.subb _ _ = _; rfl)

theorem recessPoint_kept {kS s : State} {p : Nat} (kH : Kept M kS s)
    (kM : Within [.mem, .memKey, .memErr, .tags, .resv, .mc, .core, .int, .rc, .ptn, .ctx, .prs, .snp, .i3c] M := by exact Part.sub (by assumption) (by rfl)) :
    Kept M kS (recessPoint s p) := by
  unfold recessPoint
  repeat' first
    | with_reducible first
      | assumption | apply forEach_kept | apply recess_kept | apply trigger_kept | refine Part.sub kM ?_
    | intro _ | dsimp only | (show Part.subb _ _ = _; rfl)

theorem snpAnswer_kept {kS s : State} {st : Nat} (kH : Kept M kS s)
    (kM : Within [.snp] M := by exact Part.sub (by assumption) (by rfl)) :
    Kept M kS (snpAnswer s st) := by
  unfold snpAnswer
  repeat' first
    | with_reducible first
      | assumption | refine Part.sub kM ?_
    | intro _ | dsimp only | (show Part.subb _ _ = _; rfl) | (show Membership.mem (γ := List Part) _ _; decide)
    | with_reducible first
      | refine Kept.set_snp ?_ (kM.mem ?_)

theorem snpArmOp_kept {kS s : State} {c : Nat} (kH : Kept M kS s)
    (kM : Within [.mem, .memErr, .tags, .resv, .mc, .core, .int, .ptn, .ctx, .snp, .i3c] M := by exact Part.sub (by assumption) (by rfl)) :
    Kept M kS (snpArmOp s c) := by
  unfold snpArmOp
  repeat' first
    | with_reducible first
      | assumption | contradiction | apply modSnp_kept | apply snpAnswer_kept | refine Kept.of_fst ‹_› ?_
      | refine Kept.of_snd ‹_› ?_ | refine Part.sub kM ?_
    | split | intro _ | dsimp only | (show Part.subb _ _ = _; rfl)

theorem snpDisarmOp_kept {kS s : State} {c : Nat} (kH : Kept M kS s)
    (kM : Within [.snp] M := by exact Part.sub (by assumption) (by rfl)) :
    Kept M kS (snpDisarmOp s c) := by
  unfold snpDisarmOp
  repeat' first
    | with_reducible first
      | assumption | apply modSnp_kept | apply snpAnswer_kept | refine Part.sub kM ?_
    | split | intro _ | dsimp only | (show Part.subb _ _ = _; rfl)

theorem snpNowOp_kept {kS s : State} {c : Nat} (kH : Kept M kS s)
    (kM : Within [.snp] M := by exact Part.sub (by assumption) (by rfl)) :
    Kept M kS (snpNowOp s c) := by
  unfold snpNowOp
  repeat' first
    | with_reducible first
      | assumption | apply modSnp_kept | apply snpAnswer_kept | refine Part.sub kM ?_
    | split | intro _ | dsimp only | (show Part.subb _ _ = _; rfl)

theorem snpRestoreOp_kept {kS s : State} {c : Nat} (kH : Kept M kS s)
    (kM : Within [.snp] M := by exact Part.sub (by assumption) (by rfl)) :
    Kept M kS (snpRestoreOp s c) := by
  unfold snpRestoreOp
  repeat' first
    | with_reducible first
      | assumption | apply modSnp_kept | apply snpAnswer_kept | refine Part.sub kM ?_
    | split | intro _ | dsimp only | (show Part.subb _ _ = _; rfl) | (show Membership.mem (γ := List Part) _ _; decide)
    | with_reducible first
      | refine Kept.set_snp ?_ (kM.mem ?_)

theorem snpDeleteOp_kept {kS s : State} {c : Nat} (kH : Kept M kS s)
    (kM : Within [.snp] M := by exact Part.sub (by assumption) (by rfl)) :
    Kept M kS (snpDeleteOp s c) := by
  unfold snpDeleteOp
  repeat' first
    | with_reducible first
      | assumption | apply snpAnswer_kept | refine Part.sub kM ?_
    | split | intro _ | dsimp only | (show Part.subb _ _ = _; rfl) | (show Membership.mem (γ := List Part) _ _; decide)
    | with_reducible first
      | refine Kept.set_snp ?_ (kM.mem ?_)

theorem snpQueryOp_kept {kS s : State} {c : Nat} (kH : Kept M kS s)
    (kM : Within [.snp] M := by exact Part.sub (by assumption) (by rfl)) :
    Kept M kS (snpQueryOp s c) := by
  unfold snpQueryOp
  repeat' first
    | with_reducible first
      | assumption | apply snpAnswer_kept | refine Part.sub kM ?_
    | split | intro _ | dsimp only | (show Part.subb _ _ = _; rfl) | (show Membership.mem (γ := List Part) _ _; decide)
    | with_reducible first
      | refine Kept.set_snp ?_ (kM.mem ?_)

theorem snpCmd_kept {kS s : State} {word : Nat} (kH : Kept M kS s)
    (kM : Within [.mem, .memErr, .tags, .resv, .mc, .core, .int, .ptn, .ctx, .snp, .i3c] M := by exact Part.sub (by assumption) (by rfl)) :
    Kept M kS (snpCmd s word) := by
  unfold snpCmd
  repeat' first
    | with_reducible first
      | assumption | contradiction | apply snpAnswer_kept | apply snpArmOp_kept | apply snpDisarmOp_kept
      | apply snpNowOp_kept | apply snpRestoreOp_kept | apply snpDeleteOp_kept | apply snpQueryOp_kept
      | refine Kept.of_fst ‹_› ?_ | refine Kept.of_snd ‹_› ?_ | refine Part.sub kM ?_
    | split | intro _ | dsimp only | (show Part.subb _ _ = _; rfl)

theorem snpRow_kept {kS s : State} {who : Req} {c op : Nat} {args : List Nat} (kH : Kept M kS s)
    (kM : Within [.mem, .memErr, .tags, .resv, .mc, .core, .int, .ptn, .ctx, .snp, .i3c] M := by exact Part.sub (by assumption) (by rfl)) :
    Kept M kS (snpRow s who c op args) := by
  unfold snpRow
  repeat' first
    | with_reducible first
      | assumption | apply snpCmd_kept | refine Part.sub kM ?_
    | split | intro _ | dsimp only | (show Part.subb _ _ = _; rfl) | (show Membership.mem (γ := List Part) _ _; decide)
    | with_reducible first
      | refine Kept.set_snp ?_ (kM.mem ?_)

theorem execSnpArm_kept {kS s kT : State} {who : Req} {ctx plan : Nat} (kH : Kept M kS s)
    (kE : execSnpArm who ctx plan s = .next kT)
    (kM : Within [.mem, .memErr, .tags, .resv, .mc, .core, .int, .ptn, .ctx, .snp, .i3c] M := by exact Part.sub (by assumption) (by rfl)) :
    Kept M kS kT := by
  unfold execSnpArm at kE
  repeat' first | contradiction | (injection kE with kE; subst kE) | split at kE | dsimp only at kE
  repeat' first
    | with_reducible first
      | assumption | apply snpRow_kept | refine Part.sub kM ?_
    | intro _ | dsimp only | (show Part.subb _ _ = _; rfl)

theorem execSnpDisarm_kept {kS s kT : State} {who : Req} {ctx : Nat} (kH : Kept M kS s) (kE : execSnpDisarm who ctx s = .next kT)
    (kM : Within [.mem, .memErr, .tags, .resv, .mc, .core, .int, .ptn, .ctx, .snp, .i3c] M := by exact Part.sub (by assumption) (by rfl)) :
    Kept M kS kT := by
  unfold execSnpDisarm at kE
  repeat' first | contradiction | (injection kE with kE; subst kE) | split at kE | dsimp only at kE
  repeat' first
    | with_reducible first
      | assumption | apply snpRow_kept | refine Part.sub kM ?_
    | intro _ | dsimp only | (show Part.subb _ _ = _; rfl)

theorem execCaptureNow_kept {kS s kT : State} {who : Req} {ctx : Nat} (kH : Kept M kS s)
    (kE : execCaptureNow who ctx s = .next kT)
    (kM : Within [.mem, .memErr, .tags, .resv, .mc, .core, .int, .ptn, .ctx, .snp, .i3c] M := by exact Part.sub (by assumption) (by rfl)) :
    Kept M kS kT := by
  unfold execCaptureNow at kE
  repeat' first | contradiction | (injection kE with kE; subst kE) | split at kE | dsimp only at kE
  repeat' first
    | with_reducible first
      | assumption | apply snpRow_kept | refine Part.sub kM ?_
    | intro _ | dsimp only | (show Part.subb _ _ = _; rfl)

theorem execSnpRestore_kept {kS s kT : State} {who : Req} {ctx lesson arg2 upTo : Nat} (kH : Kept M kS s)
    (kE : execSnpRestore who ctx lesson arg2 upTo s = .next kT)
    (kM : Within [.mem, .memErr, .tags, .resv, .mc, .core, .int, .ptn, .ctx, .snp, .i3c] M := by exact Part.sub (by assumption) (by rfl)) :
    Kept M kS kT := by
  unfold execSnpRestore at kE
  repeat' first | contradiction | (injection kE with kE; subst kE) | split at kE | dsimp only at kE
  repeat' first
    | with_reducible first
      | assumption | apply snpRow_kept | refine Part.sub kM ?_
    | intro _ | dsimp only | (show Part.subb _ _ = _; rfl)

theorem execSnpDelete_kept {kS s kT : State} {who : Req} {ctx gen : Nat} (kH : Kept M kS s)
    (kE : execSnpDelete who ctx gen s = .next kT)
    (kM : Within [.mem, .memErr, .tags, .resv, .mc, .core, .int, .ptn, .ctx, .snp, .i3c] M := by exact Part.sub (by assumption) (by rfl)) :
    Kept M kS kT := by
  unfold execSnpDelete at kE
  repeat' first | contradiction | (injection kE with kE; subst kE) | split at kE | dsimp only at kE
  repeat' first
    | with_reducible first
      | assumption | apply snpRow_kept | refine Part.sub kM ?_
    | intro _ | dsimp only | (show Part.subb _ _ = _; rfl)

theorem execSnpQuery_kept {kS s kT : State} {who : Req} {ctx : Nat} (kH : Kept M kS s) (kE : execSnpQuery who ctx s = .next kT)
    (kM : Within [.mem, .memErr, .tags, .resv, .mc, .core, .int, .ptn, .ctx, .snp, .i3c] M := by exact Part.sub (by assumption) (by rfl)) :
    Kept M kS kT := by
  unfold execSnpQuery at kE
  repeat' first | contradiction | (injection kE with kE; subst kE) | split at kE | dsimp only at kE
  repeat' first
    | with_reducible first
      | assumption | apply snpRow_kept | refine Part.sub kM ?_
    | intro _ | dsimp only | (show Part.subb _ _ = _; rfl)

theorem execCaptureCopyDone_kept {kS s kT : State} {ctx : Nat} (kH : Kept M kS s) (kE : execCaptureCopyDone ctx s = .next kT)
    (kM : Within [.ctx, .vat, .snp] M := by exact Part.sub (by assumption) (by rfl)) :
    Kept M kS kT := by
  unfold execCaptureCopyDone at kE
  repeat' first | contradiction | (injection kE with kE; subst kE) | split at kE | dsimp only at kE
  repeat' first
    | with_reducible first
      | assumption | apply modCtx_kept | apply vatRestart_kept | refine Part.sub kM ?_
    | split | intro _ | dsimp only | (show Part.subb _ _ = _; rfl) | (show Membership.mem (γ := List Part) _ _; decide)
    | with_reducible first
      | refine Kept.set_snp ?_ (kM.mem ?_)

theorem listGens_kept {kS s : State} (kH : Kept M kS s) (kM : Within [.snp] M := by exact Part.sub (by assumption) (by rfl)) :
    Kept M kS (listGens s) := by
  unfold listGens
  repeat' first
    | with_reducible first
      | assumption | apply forEach_kept | apply modSnp_kept | refine Part.sub kM ?_
    | intro _ | dsimp only | (show Part.subb _ _ = _; rfl)

theorem execSnapshotEngineReady_kept {kS s kT : State} (kH : Kept M kS s) (kE : execSnapshotEngineReady s = .next kT)
    (kM : Within [.snp] M := by exact Part.sub (by assumption) (by rfl)) :
    Kept M kS kT := by
  unfold execSnapshotEngineReady at kE
  repeat' first | contradiction | (injection kE with kE; subst kE) | split at kE | dsimp only at kE
  repeat' first
    | with_reducible first
      | assumption | apply listGens_kept | refine Part.sub kM ?_
    | split | intro _ | dsimp only | (show Part.subb _ _ = _; rfl) | (show Membership.mem (γ := List Part) _ _; decide)
    | with_reducible first
      | refine Kept.set_snp ?_ (kM.mem ?_)

/-! ### Transfer -/

theorem xRead_kept {kS s : State} {i : Issuer} {x : XPlace} {n : Nat} (kH : Kept M kS s)
    (kM : Within [.mem, .memErr, .tags, .resv, .mc, .core, .int, .ptn, .ctx, .i3c] M := by exact Part.sub (by assumption) (by rfl)) :
    Kept M kS (xRead s i x n).1 := by
  unfold xRead
  repeat' first
    | with_reducible first
      | assumption | contradiction | apply readErrs_kept | apply readAs_kept | refine Kept.of_fst ‹_› ?_
      | refine Kept.of_snd ‹_› ?_ | refine Part.sub kM ?_
    | split | intro _ | dsimp only | (show Part.subb _ _ = _; rfl)

theorem xWrite_kept {kS s : State} {i : Issuer} {x : XPlace} {bs : List Byte} (kH : Kept M kS s)
    (kM : Within [.mem, .memKey, .memErr, .tags, .resv, .mc, .core, .int, .ptn, .ctx, .i3c] M := by exact Part.sub (by assumption) (by rfl)) :
    Kept M kS (xWrite s i x bs) := by
  unfold xWrite
  repeat' first
    | with_reducible first
      | assumption | contradiction | apply writeAs_kept | apply writeUnder_kept | refine Kept.of_fst ‹_› ?_
      | refine Kept.of_snd ‹_› ?_ | refine Part.sub kM ?_
    | split | intro _ | dsimp only | (show Part.subb _ _ = _; rfl)

theorem xferEnd_kept {kS s : State} {core status fault : Nat} {flag : DoneFlag} (kH : Kept M kS s)
    (kM : Within [.mc, .core, .int, .rc, .ptn, .ctx, .i3c] M := by exact Part.sub (by assumption) (by rfl)) :
    Kept M kS (xferEnd s core status fault flag) := by
  unfold xferEnd
  repeat' first
    | with_reducible first
      | assumption | contradiction | apply modCore_kept | apply doneAdd_kept | refine Kept.of_fst ‹_› ?_
      | refine Kept.of_snd ‹_› ?_ | refine Part.sub kM ?_
    | split | intro _ | dsimp only | (show Part.subb _ _ = _; rfl)

theorem xferFail_kept {kS s : State} {i : Issuer} {status : Nat} {c : FaultCode} {detail : List Byte} (kH : Kept M kS s)
    (kM : Within [.mc, .core, .int, .rc, .ptn, .ctx, .i3c] M := by exact Part.sub (by assumption) (by rfl)) :
    Kept M kS (xferFail s i status c detail) := by
  unfold xferFail
  repeat' first
    | with_reducible first
      | assumption | apply raise_kept | apply xferEnd_kept | refine Part.sub kM ?_
    | intro _ | dsimp only | (show Part.subb _ _ = _; rfl)

theorem returnCredits_kept {kS s : State} {src pool ctx n : Nat} (kH : Kept M kS s)
    (kM : Within [.mc, .int, .rc, .ptn, .ctx, .i3c] M := by exact Part.sub (by assumption) (by rfl)) :
    Kept M kS (returnCredits s src pool ctx n) := by
  unfold returnCredits
  repeat' first
    | with_reducible first
      | assumption | apply syncRoute_kept | apply creditIn_kept | refine Part.sub kM ?_
    | split | intro _ | dsimp only | (show Part.subb _ _ = _; rfl)

theorem sendGone_kept {kS s : State} {x : Send} (kH : Kept M kS s)
    (kM : Within [.core, .xf] M := by exact Part.sub (by assumption) (by rfl)) :
    Kept M kS (sendGone s x) := by
  unfold sendGone
  repeat' first
    | with_reducible first
      | assumption | contradiction | refine Kept.of_fst ‹_› ?_ | refine Kept.of_snd ‹_› ?_ | refine Part.sub kM ?_
    | split | intro _ | dsimp only | (show Part.subb _ _ = _; rfl) | (show Membership.mem (γ := List Part) _ _; decide) | (show restore _ _ _ = _; rfl)
    | with_reducible first
      | refine Kept.set_core ?_ (kM.mem ?_) | refine Kept.set_xf ?_ (kM.mem ?_) | refine Kept.upd ?_ kM ?_

theorem finishSend_kept {kS s : State} {x : Send} (kH : Kept M kS s)
    (kM : Within [.mc, .core, .int, .rc, .ptn, .ctx, .xf, .i3c] M := by exact Part.sub (by assumption) (by rfl)) :
    Kept M kS (finishSend s x) := by
  unfold finishSend
  repeat' first
    | with_reducible first
      | assumption | contradiction | apply xferEnd_kept | apply sendGone_kept | refine Kept.of_fst ‹_› ?_
      | refine Kept.of_snd ‹_› ?_ | refine Part.sub kM ?_
    | split | intro _ | dsimp only | (show Part.subb _ _ = _; rfl) | (show Membership.mem (γ := List Part) _ _; decide)
    | with_reducible first
      | refine Kept.set_xf ?_ (kM.mem ?_)

theorem launchSend_kept {kS s : State} {x : Send} (kH : Kept M kS s)
    (kM : Within [.mc, .core, .int, .rc, .ptn, .ctx, .fab, .xf, .i3c] M := by exact Part.sub (by assumption) (by rfl)) :
    Kept M kS (launchSend s x) := by
  unfold launchSend
  repeat' first
    | with_reducible first
      | assumption | contradiction | apply modBuf_kept | apply raise_kept | apply portQueue_kept | apply closedFrame_kept
      | apply finishSend_kept | refine Kept.of_fst ‹_› ?_ | refine Kept.of_snd ‹_› ?_ | refine Part.sub kM ?_
    | split | intro _ | dsimp only | (show Part.subb _ _ = _; rfl) | (show Membership.mem (γ := List Part) _ _; decide) | (show restore _ _ _ = _; rfl)
    | with_reducible first
      | refine Kept.set_ptn ?_ (kM.mem ?_) | refine Kept.set_ctx ?_ (kM.mem ?_) | refine Kept.set_xf ?_ (kM.mem ?_)
      | refine Kept.upd ?_ kM ?_

theorem beginSend_kept {kS s : State} {x : Send} (kH : Kept M kS s)
    (kM : Within [.mc, .core, .int, .rc, .ptn, .ctx, .fab, .xf, .i3c] M := by exact Part.sub (by assumption) (by rfl)) :
    Kept M kS (beginSend s x) := by
  unfold beginSend
  repeat' first
    | with_reducible first
      | assumption | apply modPool_kept | apply launchSend_kept | refine Part.sub kM ?_
    | split | intro _ | dsimp only | (show Part.subb _ _ = _; rfl) | (show Membership.mem (γ := List Part) _ _; decide)
    | with_reducible first
      | refine Kept.set_xf ?_ (kM.mem ?_)

theorem execSendCreditsAvailable_kept {kS s kT : State} {pool : Nat} (kH : Kept M kS s)
    (kE : execSendCreditsAvailable pool s = .next kT)
    (kM : Within [.mc, .core, .int, .rc, .ptn, .ctx, .fab, .xf, .i3c] M := by exact Part.sub (by assumption) (by rfl)) :
    Kept M kS kT := by
  unfold execSendCreditsAvailable at kE
  repeat' first | contradiction | (injection kE with kE; subst kE) | split at kE | dsimp only at kE
  repeat' first
    | with_reducible first
      | assumption | contradiction | apply modPool_kept | apply launchSend_kept | refine Kept.of_fst ‹_› ?_
      | refine Kept.of_snd ‹_› ?_ | refine Part.sub kM ?_
    | split | intro _ | dsimp only | (show Part.subb _ _ = _; rfl)

theorem execSendComplete_kept {kS s kT : State} {lmn pool seq : Nat} (kH : Kept M kS s)
    (kE : execSendComplete lmn pool seq s = .next kT)
    (kM : Within [.mc, .core, .int, .rc, .ptn, .ctx, .xf, .i3c] M := by exact Part.sub (by assumption) (by rfl)) :
    Kept M kS kT := by
  unfold execSendComplete at kE
  repeat' first | contradiction | (injection kE with kE; subst kE) | split at kE | dsimp only at kE
  repeat' first
    | with_reducible first
      | assumption | contradiction | apply finishSend_kept | refine Kept.of_fst ‹_› ?_ | refine Kept.of_snd ‹_› ?_
      | refine Part.sub kM ?_
    | split | intro _ | dsimp only | (show Part.subb _ _ = _; rfl)

theorem eachPanel_kept {kS : State} {f : State → Nat → State × Option (List Byte)}
    (hf : ∀ s x, Kept M kS s → Kept M kS (f s x).1) : ∀ {xs : List Nat} {s : State}, Kept M kS s → Kept M kS (eachPanel f s xs).1
  | [], _, h => h
  | x :: xs, s, h => by
    unfold eachPanel
    have h1 := hf s x h
    split
    · rename_i e; rw [e] at h1; exact h1
    · rename_i s1 b e
      rw [e] at h1
      have h2 := eachPanel_kept hf (xs := xs) h1
      split
      · rename_i e2; rw [e2] at h2; exact h2
      · rename_i e2; rw [e2] at h2; exact h2

theorem xferSend_kept {kS s : State} {i : Issuer} {x : Xfer} {h : SendHdr} {body : List Byte} {need : Nat} (kH : Kept M kS s)
    (kM : Within [.mc, .core, .int, .rc, .ptn, .ctx, .fab, .xf, .i3c] M := by exact Part.sub (by assumption) (by rfl)) :
    Kept M kS (xferSend s i x h body need) := by
  unfold xferSend
  repeat' first
    | with_reducible first
      | assumption | apply beginSend_kept | refine Part.sub kM ?_
    | intro _ | dsimp only | (show Part.subb _ _ = _; rfl)

theorem runSend_kept {kS s : State} {i : Issuer} {x : Xfer} {p : XPlace} (kH : Kept M kS s)
    (kM : Within [.mem, .memErr, .tags, .resv, .mc, .core, .int, .rc, .ptn, .ctx, .fab, .xf, .i3c] M := by exact Part.sub (by assumption) (by rfl)) :
    Kept M kS (runSend s i x p) := by
  unfold runSend
  repeat' first
    | with_reducible first
      | assumption | contradiction | apply xRead_kept | apply xferEnd_kept | apply xferFail_kept | apply eachPanel_kept
      | apply xferSend_kept | refine Kept.of_fst ‹_› ?_ | refine Kept.of_snd ‹_› ?_ | refine Part.sub kM ?_
    | split | intro _ | dsimp only | (show Part.subb _ _ = _; rfl)

theorem runFetch_kept {kS s : State} {i : Issuer} {x : Xfer} (kH : Kept M kS s)
    (kM : Within [.mc, .core, .int, .rc, .ptn, .ctx, .fab, .xf, .i3c] M := by exact Part.sub (by assumption) (by rfl)) :
    Kept M kS (runFetch s i x) := by
  unfold runFetch
  repeat' first
    | with_reducible first
      | assumption | apply xferSend_kept | refine Part.sub kM ?_
    | intro _ | dsimp only | (show Part.subb _ _ = _; rfl)

theorem runCopy_kept {kS s : State} {i : Issuer} {x : Xfer} {p q : XPlace} (kH : Kept M kS s)
    (kM : Within [.mem, .memKey, .memErr, .tags, .resv, .mc, .core, .int, .rc, .ptn, .ctx, .i3c] M := by exact Part.sub (by assumption) (by rfl)) :
    Kept M kS (runCopy s i x p q) := by
  unfold runCopy
  repeat' first
    | with_reducible first
      | assumption | contradiction | apply xRead_kept | apply xWrite_kept | apply xferEnd_kept | apply xferFail_kept
      | apply eachPanel_kept | refine Kept.of_fst ‹_› ?_ | refine Kept.of_snd ‹_› ?_ | refine Part.sub kM ?_
    | split | intro _ | dsimp only | (show Part.subb _ _ = _; rfl)

theorem runNodeX_kept {kS s : State} {i : Issuer} {x : Xfer} {p p2 q : XPlace} (kH : Kept M kS s)
    (kM : Within [.mem, .memKey, .memErr, .tags, .resv, .mc, .core, .int, .rc, .ptn, .ctx, .i3c] M := by exact Part.sub (by assumption) (by rfl)) :
    Kept M kS (runNodeX s i x p p2 q) := by
  unfold runNodeX
  repeat' first
    | with_reducible first
      | assumption | contradiction | apply xRead_kept | apply xWrite_kept | apply xferEnd_kept | apply xferFail_kept
      | apply eachPanel_kept | refine Kept.of_fst ‹_› ?_ | refine Kept.of_snd ‹_› ?_ | refine Part.sub kM ?_
    | split | intro _ | dsimp only | (show Part.subb _ _ = _; rfl)

theorem rewriteCopy_kept {kS s : State} {r : PRun} {p : PPanel} (kH : Kept M kS s)
    (kM : Within [.mem, .memKey, .memErr, .tags, .resv, .mc, .core, .int, .ptn, .ctx, .i3c] M := by exact Part.sub (by assumption) (by rfl)) :
    Kept M kS (rewriteCopy s r p) := by
  unfold rewriteCopy
  repeat' first
    | with_reducible first
      | assumption | contradiction | apply itemGet_kept | apply itemPut_kept | refine Kept.of_fst ‹_› ?_
      | refine Kept.of_snd ‹_› ?_ | refine Part.sub kM ?_
    | split | intro _ | dsimp only | (show Part.subb _ _ = _; rfl)

theorem replicaFault_kept {kS s : State} {x : Xfer} {tensor rank holder owner action : Nat} (kH : Kept M kS s)
    (kM : Within [.mc, .int, .ptn, .ctx, .i3c] M := by exact Part.sub (by assumption) (by rfl)) :
    Kept M kS (replicaFault s x tensor rank holder owner action) := by
  unfold replicaFault
  repeat' first
    | with_reducible first
      | assumption | contradiction | apply raise_kept | refine Kept.of_fst ‹_› ?_ | refine Kept.of_snd ‹_› ?_
      | refine Part.sub kM ?_
    | split | intro _ | dsimp only | (show Part.subb _ _ = _; rfl)

theorem ownerRepair_kept {kS s : State} {r : PRun} {ps : List PPanel} {action : Nat} (kH : Kept M kS s)
    (kM : Within [.mem, .memKey, .memErr, .tags, .resv, .mc, .core, .int, .ptn, .ctx, .i3c] M := by exact Part.sub (by assumption) (by rfl)) :
    Kept M kS (ownerRepair s r ps action) := by
  unfold ownerRepair
  repeat' first
    | with_reducible first
      | assumption | apply forEach_kept | apply modCtx_kept | apply raise_kept | apply rewriteCopy_kept
      | refine Part.sub kM ?_
    | split | intro _ | dsimp only | (show Part.subb _ _ = _; rfl)

theorem replicaCheck_kept {kS s : State} {i : Issuer} {x : Xfer} {rc : ReplicaCheck} {dig : List Byte} (kH : Kept M kS s)
    (kM : Within [.mem, .memKey, .memErr, .tags, .resv, .mc, .core, .int, .ptn, .ctx, .i3c] M := by exact Part.sub (by assumption) (by rfl)) :
    Kept M kS (replicaCheck s i x rc dig) := by
  unfold replicaCheck
  repeat' first
    | with_reducible first
      | assumption | contradiction | apply forEach_kept | apply replicaFault_kept | apply ownerRepair_kept
      | refine Kept.of_fst ‹_› ?_ | refine Kept.of_snd ‹_› ?_ | apply getD_kept | refine Part.sub kM ?_
    | split | intro _ | dsimp only | (show Part.subb _ _ = _; rfl)

theorem digestEnd_kept {kS s : State} {i : Issuer} {x : Xfer} {q : XPlace} {dig : List Byte} (kH : Kept M kS s)
    (kM : Within [.mem, .memKey, .memErr, .tags, .resv, .mc, .core, .int, .ptn, .ctx, .xf, .i3c] M := by exact Part.sub (by assumption) (by rfl)) :
    Kept M kS (digestEnd s i x q dig) := by
  unfold digestEnd
  repeat' first
    | with_reducible first
      | assumption | apply xWrite_kept | apply replicaCheck_kept | refine Part.sub kM ?_
    | intro _ | dsimp only | (show Part.subb _ _ = _; rfl) | (show Membership.mem (γ := List Part) _ _; decide)
    | with_reducible first
      | refine Kept.set_xf ?_ (kM.mem ?_)

theorem runDigest_kept {kS s : State} {i : Issuer} {x : Xfer} {p q : XPlace} (kH : Kept M kS s)
    (kM : Within [.mem, .memKey, .memErr, .tags, .resv, .mc, .core, .int, .rc, .ptn, .ctx, .xf, .i3c] M := by exact Part.sub (by assumption) (by rfl)) :
    Kept M kS (runDigest s i x p q) := by
  unfold runDigest
  repeat' first
    | with_reducible first
      | assumption | contradiction | apply xRead_kept | apply xferEnd_kept | apply digestEnd_kept
      | refine Kept.of_fst ‹_› ?_ | refine Kept.of_snd ‹_› ?_ | refine Part.sub kM ?_
    | split | intro _ | dsimp only | (show Part.subb _ _ = _; rfl)

theorem retractLate_kept {kS s : State} {p ctx : Nat} {slot : Option OpenSlot} (kH : Kept M kS s)
    (kM : Within [.mc, .int, .rc, .ptn, .ctx, .i3c] M := by exact Part.sub (by assumption) (by rfl)) :
    Kept M kS (retractLate s p ctx slot) := by
  unfold retractLate
  repeat' first
    | with_reducible first
      | assumption | contradiction | apply raise_kept | apply overrun_kept | refine Kept.of_fst ‹_› ?_
      | refine Kept.of_snd ‹_› ?_ | refine Part.sub kM ?_
    | split | intro _ | dsimp only | (show Part.subb _ _ = _; rfl) | (show Membership.mem (γ := List Part) _ _; decide) | (show restore _ _ _ = _; rfl)
    | with_reducible first
      | refine Kept.set_rc ?_ (kM.mem ?_) | refine Kept.set_ptn ?_ (kM.mem ?_) | refine Kept.set_ctx ?_ (kM.mem ?_)
      | refine Kept.upd ?_ kM ?_

theorem sendRetract_kept {kS s : State} {x : Send} (kH : Kept M kS s)
    (kM : Within [.mc, .int, .rc, .ptn, .ctx, .fab, .xf, .i3c] M := by exact Part.sub (by assumption) (by rfl)) :
    Kept M kS (sendRetract s x) := by
  unfold sendRetract
  repeat' first
    | with_reducible first
      | assumption | contradiction | apply syncRoute_kept | apply modFab_kept | refine Kept.of_fst ‹_› ?_
      | refine Kept.of_snd ‹_› ?_ | refine Part.sub kM ?_
    | split | intro _ | dsimp only | (show Part.subb _ _ = _; rfl) | (show Membership.mem (γ := List Part) _ _; decide)
    | with_reducible first
      | refine Kept.set_xf ?_ (kM.mem ?_)

theorem landBytes_kept {kS s : State} {b : Landing} {off : Nat} {bs : List Byte} (kH : Kept M kS s)
    (kM : Within [.mem, .memKey, .memErr, .tags, .resv, .mc, .core, .int, .ptn, .ctx, .i3c] M := by exact Part.sub (by assumption) (by rfl)) :
    Kept M kS (landBytes s b off bs) := by
  unfold landBytes
  repeat' first
    | with_reducible first
      | assumption | contradiction | apply writeAs_kept | refine Kept.of_fst ‹_› ?_ | refine Kept.of_snd ‹_› ?_
      | refine Part.sub kM ?_
    | split | intro _ | dsimp only | (show Part.subb _ _ = _; rfl)

theorem wakeMem_kept {kS s : State} (kH : Kept M kS s) (kM : Within [.core] M := by exact Part.sub (by assumption) (by rfl)) :
    Kept M kS (wakeMem s) := by
  unfold wakeMem
  repeat' first
    | with_reducible first
      | assumption | apply forEach_kept | apply modThr_kept | refine Part.sub kM ?_
    | split | intro _ | dsimp only | (show Part.subb _ _ = _; rfl)

theorem retryHeld_kept {kS s : State} (kH : Kept M kS s)
    (kM : Within [.mem, .memKey, .memErr, .tags, .resv, .mc, .core, .int, .rc, .ptn, .ctx, .subf, .i3c] M := by exact Part.sub (by assumption) (by rfl)) :
    Kept M kS (retryHeld s) := by
  unfold retryHeld
  repeat' first
    | with_reducible first
      | assumption | apply forEach_kept | apply retryAcd_kept | apply retryWcd_kept | apply wakeMem_kept
      | refine Part.sub kM ?_
    | split | intro _ | dsimp only | (show Part.subb _ _ = _; rfl)

theorem landBad_kept {kS s : State} {r : Recv} (kH : Kept M kS s)
    (kM : Within [.mc, .int, .rc, .ptn, .ctx, .i3c] M := by exact Part.sub (by assumption) (by rfl)) :
    Kept M kS (landBad s r) := by
  unfold landBad
  repeat' first
    | with_reducible first
      | assumption | apply raise_kept | apply returnCredits_kept | refine Part.sub kM ?_
    | split | intro _ | dsimp only | (show Part.subb _ _ = _; rfl)

theorem holdSpace_kept {kS s : State} {r : Nat × Nat × Nat} {buf ctx n : Nat} (kH : Kept M kS s)
    (kM : Within [.ctx, .xf] M := by exact Part.sub (by assumption) (by rfl)) :
    Kept M kS (holdSpace s r buf ctx n) := by
  unfold holdSpace
  repeat' first
    | with_reducible first
      | assumption | refine Part.sub kM ?_
    | intro _ | dsimp only | (show Part.subb _ _ = _; rfl) | (show Membership.mem (γ := List Part) _ _; decide) | (show restore _ _ _ = _; rfl)
    | with_reducible first
      | refine Kept.set_ctx ?_ (kM.mem ?_) | refine Kept.set_xf ?_ (kM.mem ?_) | refine Kept.upd ?_ kM ?_

theorem landData_kept {kS s : State} {r : Recv} {h : SendHdr} (kH : Kept M kS s)
    (kM : Within [.mem, .memKey, .memErr, .tags, .resv, .mc, .core, .int, .rc, .ptn, .ctx, .xf, .i3c] M := by exact Part.sub (by assumption) (by rfl)) :
    Kept M kS (landData s r h) := by
  unfold landData
  repeat' first
    | with_reducible first
      | assumption | apply doneAdd_kept | apply landBytes_kept | apply holdSpace_kept | refine Part.sub kM ?_
    | split | intro _ | dsimp only | (show Part.subb _ _ = _; rfl) | (show Membership.mem (γ := List Part) _ _; decide) | (show restore _ _ _ = _; rfl)
    | with_reducible first
      | refine Kept.set_ptn ?_ (kM.mem ?_) | refine Kept.set_ctx ?_ (kM.mem ?_) | refine Kept.set_xf ?_ (kM.mem ?_)
      | refine Kept.upd ?_ kM ?_

theorem queueFetch_kept {kS s : State} {r : Recv} {h : SendHdr} (kH : Kept M kS s)
    (kM : Within [.mc, .int, .ptn, .ctx, .xf, .i3c] M := by exact Part.sub (by assumption) (by rfl)) :
    Kept M kS (queueFetch s r h) := by
  unfold queueFetch
  repeat' first
    | with_reducible first
      | assumption | apply raise_kept | refine Part.sub kM ?_
    | split | intro _ | dsimp only | (show Part.subb _ _ = _; rfl) | (show Membership.mem (γ := List Part) _ _; decide)
    | with_reducible first
      | refine Kept.set_xf ?_ (kM.mem ?_)

theorem execSendLanding_kept {kS s kT : State} {src pool seq : Nat} (kH : Kept M kS s)
    (kE : execSendLanding src pool seq s = .next kT)
    (kM : Within [.mem, .memKey, .memErr, .tags, .resv, .mc, .core, .int, .rc, .ptn, .ctx, .xf, .i3c] M := by exact Part.sub (by assumption) (by rfl)) :
    Kept M kS kT := by
  unfold execSendLanding at kE
  repeat' first | contradiction | (injection kE with kE; subst kE) | split at kE | dsimp only at kE
  repeat' first
    | with_reducible first
      | assumption | contradiction | apply landBad_kept | apply landData_kept | apply queueFetch_kept
      | refine Kept.of_fst ‹_› ?_ | refine Kept.of_snd ‹_› ?_ | refine Part.sub kM ?_
    | split | intro _ | dsimp only | (show Part.subb _ _ = _; rfl) | (show Membership.mem (γ := List Part) _ _; decide)
    | with_reducible first
      | refine Kept.set_xf ?_ (kM.mem ?_)

theorem execSendPartialTimeout_kept {kS s kT : State} {src pool seq : Nat} (kH : Kept M kS s)
    (kE : execSendPartialTimeout src pool seq s = .next kT)
    (kM : Within [.mc, .int, .rc, .ptn, .ctx, .xf, .i3c] M := by exact Part.sub (by assumption) (by rfl)) :
    Kept M kS kT := by
  unfold execSendPartialTimeout at kE
  repeat' first | contradiction | (injection kE with kE; subst kE) | split at kE | dsimp only at kE
  repeat' first
    | with_reducible first
      | assumption | contradiction | apply raise_kept | apply returnCredits_kept | refine Kept.of_fst ‹_› ?_
      | refine Kept.of_snd ‹_› ?_ | refine Part.sub kM ?_
    | split | intro _ | dsimp only | (show Part.subb _ _ = _; rfl) | (show Membership.mem (γ := List Part) _ _; decide) | (show restore _ _ _ = _; rfl)
    | with_reducible first
      | refine Kept.set_ptn ?_ (kM.mem ?_) | refine Kept.set_ctx ?_ (kM.mem ?_) | refine Kept.set_xf ?_ (kM.mem ?_)
      | refine Kept.upd ?_ kM ?_

theorem execLandingSpaceRelease_kept {kS s kT : State} {src pool seq : Nat} (kH : Kept M kS s)
    (kE : execLandingSpaceRelease src pool seq s = .next kT)
    (kM : Within [.mc, .int, .rc, .ptn, .ctx, .xf, .i3c] M := by exact Part.sub (by assumption) (by rfl)) :
    Kept M kS kT := by
  unfold execLandingSpaceRelease at kE
  repeat' first | contradiction | (injection kE with kE; subst kE) | split at kE | dsimp only at kE
  repeat' first
    | with_reducible first
      | assumption | contradiction | apply returnCredits_kept | refine Kept.of_fst ‹_› ?_ | refine Kept.of_snd ‹_› ?_
      | refine Part.sub kM ?_
    | split | intro _ | dsimp only | (show Part.subb _ _ = _; rfl) | (show Membership.mem (γ := List Part) _ _; decide)
    | with_reducible first
      | refine Kept.set_xf ?_ (kM.mem ?_)

theorem execRunaheadVerdict_kept {kS s kT : State} {src pool seq : Nat} (kH : Kept M kS s)
    (kE : execRunaheadVerdict src pool seq s = .next kT)
    (kM : Within [.mem, .memKey, .memErr, .tags, .resv, .mc, .core, .int, .rc, .ptn, .ctx, .xf, .subf, .i3c] M := by exact Part.sub (by assumption) (by rfl)) :
    Kept M kS kT := by
  unfold execRunaheadVerdict at kE
  repeat' first | contradiction | (injection kE with kE; subst kE) | split at kE | dsimp only at kE
  repeat' first
    | with_reducible first
      | assumption | contradiction | apply doneAdd_kept | apply retryHeld_kept | apply holdSpace_kept
      | refine Kept.of_fst ‹_› ?_ | refine Kept.of_snd ‹_› ?_ | refine Part.sub kM ?_
    | split | intro _ | dsimp only | (show Part.subb _ _ = _; rfl) | (show Membership.mem (γ := List Part) _ _; decide)
    | with_reducible first
      | refine Kept.set_xf ?_ (kM.mem ?_)

theorem discardTile_kept {kS s : State} {src pool ctx n : Nat} (kH : Kept M kS s)
    (kM : Within [.mc, .int, .rc, .ptn, .ctx, .i3c] M := by exact Part.sub (by assumption) (by rfl)) :
    Kept M kS (discardTile s src pool ctx n) := by
  unfold discardTile
  repeat' first
    | with_reducible first
      | assumption | apply returnCredits_kept | refine Part.sub kM ?_
    | intro _ | dsimp only | (show Part.subb _ _ = _; rfl) | (show Membership.mem (γ := List Part) _ _; decide)
    | with_reducible first
      | refine Kept.set_rc ?_ (kM.mem ?_)

theorem sendLate_kept {kS s : State} {x : Send} (kH : Kept M kS s)
    (kM : Within [.mc, .int, .rc, .ptn, .ctx, .xf, .i3c] M := by exact Part.sub (by assumption) (by rfl)) :
    Kept M kS (sendLate s x) := by
  unfold sendLate
  repeat' first
    | with_reducible first
      | assumption | apply retractLate_kept | refine Part.sub kM ?_
    | split | intro _ | dsimp only | (show Part.subb _ _ = _; rfl) | (show Membership.mem (γ := List Part) _ _; decide)
    | with_reducible first
      | refine Kept.set_xf ?_ (kM.mem ?_)

theorem answerTooLate_kept {kS s : State} {src ctx seq : Nat} (kH : Kept M kS s)
    (kM : Within [.fresh, .mc, .int, .rc, .ptn, .ctx, .xf, .i3c] M := by exact Part.sub (by assumption) (by rfl)) :
    Kept M kS (answerTooLate s src ctx seq) := by
  unfold answerTooLate
  repeat' first
    | with_reducible first
      | assumption | contradiction | apply draw_kept | apply syncRoute_kept | apply sendLate_kept
      | refine Kept.of_fst ‹_› ?_ | refine Kept.of_snd ‹_› ?_ | refine Part.sub kM ?_
    | split | intro _ | dsimp only | (show Part.subb _ _ = _; rfl)

theorem retractTile_kept {kS s : State} {src pool ctx buf off len : Nat} {verdict : Option Nat} (kH : Kept M kS s)
    (kM : Within [.mem, .memKey, .memErr, .tags, .resv, .mc, .core, .int, .rc, .ptn, .ctx, .subf, .i3c] M := by exact Part.sub (by assumption) (by rfl)) :
    Kept M kS (retractTile s src pool ctx buf off len verdict) := by
  unfold retractTile
  repeat' first
    | with_reducible first
      | assumption | apply landBytes_kept | apply retryHeld_kept | apply discardTile_kept | refine Part.sub kM ?_
    | split | intro _ | dsimp only | (show Part.subb _ _ = _; rfl) | (show Membership.mem (γ := List Part) _ _; decide)
    | with_reducible first
      | refine Kept.set_rc ?_ (kM.mem ?_)

theorem retractIn_kept {kS s : State} {src ctx pool seq : Nat} (kH : Kept M kS s)
    (kM : Within [.fresh, .mem, .memKey, .memErr, .tags, .resv, .mc, .core, .int, .rc, .ptn, .ctx, .xf, .subf, .i3c] M := by exact Part.sub (by assumption) (by rfl)) :
    Kept M kS (retractIn s src ctx pool seq) := by
  unfold retractIn
  repeat' first
    | with_reducible first
      | assumption | contradiction | apply answerTooLate_kept | apply retractTile_kept | refine Kept.of_fst ‹_› ?_
      | refine Kept.of_snd ‹_› ?_ | apply getD_kept | refine Part.sub kM ?_
    | split | intro _ | dsimp only | (show Part.subb _ _ = _; rfl) | (show Membership.mem (γ := List Part) _ _; decide)
    | with_reducible first
      | refine Kept.set_xf ?_ (kM.mem ?_)

theorem execRetractReceive_kept {kS s kT : State} {port : Nat} {f : List Byte} (kH : Kept M kS s)
    (kE : execRetractReceive port f s = .next kT)
    (kM : Within [.fresh, .mem, .memKey, .memErr, .tags, .resv, .mc, .core, .int, .rc, .ptn, .ctx, .xf, .subf, .i3c] M := by exact Part.sub (by assumption) (by rfl)) :
    Kept M kS kT := by
  unfold execRetractReceive at kE
  repeat' first | contradiction | (injection kE with kE; subst kE) | split at kE | dsimp only at kE
  repeat' first
    | with_reducible first
      | assumption | apply takeFrame_kept | apply retractIn_kept | refine Part.sub kM ?_
    | intro _ | dsimp only | (show Part.subb _ _ = _; rfl)

theorem tooLateIn_kept {kS s : State} {f : List Byte} (kH : Kept M kS s)
    (kM : Within [.mc, .int, .rc, .ptn, .ctx, .xf, .i3c] M := by exact Part.sub (by assumption) (by rfl)) :
    Kept M kS (tooLateIn s f) := by
  unfold tooLateIn
  repeat' first
    | with_reducible first
      | assumption | contradiction | apply staleReply_kept | apply sendLate_kept | refine Kept.of_fst ‹_› ?_
      | refine Kept.of_snd ‹_› ?_ | refine Part.sub kM ?_
    | split | intro _ | dsimp only | (show Part.subb _ _ = _; rfl)

theorem execReplyReceive_kept {kS s kT : State} {port : Nat} {f : List Byte} (kH : Kept M kS s)
    (kE : execReplyReceive port f s = .next kT)
    (kM : Within [.mc, .core, .int, .rc, .ptn, .ctx, .xf, .i3c] M := by exact Part.sub (by assumption) (by rfl)) :
    Kept M kS kT := by
  unfold execReplyReceive at kE
  repeat' first | contradiction | (injection kE with kE; subst kE) | split at kE | dsimp only at kE
  repeat' first
    | with_reducible first
      | assumption | apply takeFrame_kept | apply replyIn_kept | apply tooLateIn_kept | refine Part.sub kM ?_
    | split | intro _ | dsimp only | (show Part.subb _ _ = _; rfl)

theorem runRetract_kept {kS s : State} {i : Issuer} {x : Xfer} (kH : Kept M kS s)
    (kM : Within [.fresh, .mem, .memKey, .memErr, .tags, .resv, .mc, .core, .int, .rc, .ptn, .ctx, .fab, .xf, .subf, .i3c] M := by exact Part.sub (by assumption) (by rfl)) :
    Kept M kS (runRetract s i x) := by
  unfold runRetract
  repeat' first
    | with_reducible first
      | assumption | contradiction | apply xferEnd_kept | apply finishSend_kept | apply retractLate_kept
      | apply sendRetract_kept | apply retractIn_kept | refine Kept.of_fst ‹_› ?_ | refine Kept.of_snd ‹_› ?_
      | refine Part.sub kM ?_
    | split | intro _ | dsimp only | (show Part.subb _ _ = _; rfl) | (show Membership.mem (γ := List Part) _ _; decide)
    | with_reducible first
      | refine Kept.set_xf ?_ (kM.mem ?_)

theorem runXfer_kept {kS s : State} {e : QEntry} (kH : Kept M kS s)
    (kM : Within [.fresh, .mem, .memKey, .memErr, .tags, .resv, .mc, .core, .int, .rc, .ptn, .ctx, .fab, .xf, .subf, .i3c] M := by exact Part.sub (by assumption) (by rfl)) :
    Kept M kS (runXfer s e) := by
  unfold runXfer
  repeat' first
    | with_reducible first
      | assumption | contradiction | apply xferEnd_kept | apply xferFail_kept | apply runSend_kept | apply runFetch_kept
      | apply runCopy_kept | apply runNodeX_kept | apply runDigest_kept | apply runRetract_kept
      | refine Kept.of_fst ‹_› ?_ | refine Kept.of_snd ‹_› ?_ | refine Part.sub kM ?_
    | split | intro _ | dsimp only | (show Part.subb _ _ = _; rfl)

theorem startXfer_kept {kS s : State} {n op : Nat} (kH : Kept M kS s)
    (kM : Within [.fresh, .mem, .memKey, .memErr, .tags, .resv, .mc, .core, .int, .rc, .ptn, .ctx, .fab, .xf, .subf, .i3c] M := by exact Part.sub (by assumption) (by rfl)) :
    Kept M kS (startXfer s n op) := by
  unfold startXfer
  repeat' first
    | with_reducible first
      | assumption | contradiction | apply modCore_kept | apply runXfer_kept | refine Kept.of_fst ‹_› ?_
      | refine Kept.of_snd ‹_› ?_ | refine Part.sub kM ?_
    | split | intro _ | dsimp only | (show Part.subb _ _ = _; rfl)

theorem execXferSend_kept {kS s kT : State} {core : Nat} (kH : Kept M kS s) (kE : execXferSend core s = .next kT)
    (kM : Within [.fresh, .mem, .memKey, .memErr, .tags, .resv, .mc, .core, .int, .rc, .ptn, .ctx, .fab, .xf, .subf, .i3c] M := by exact Part.sub (by assumption) (by rfl)) :
    Kept M kS kT := by
  unfold execXferSend at kE
  repeat' first | contradiction | (injection kE with kE; subst kE) | split at kE | dsimp only at kE
  repeat' first
    | with_reducible first
      | assumption | apply startXfer_kept | refine Part.sub kM ?_
    | intro _ | dsimp only | (show Part.subb _ _ = _; rfl)

theorem execXferFetch_kept {kS s kT : State} {core : Nat} (kH : Kept M kS s) (kE : execXferFetch core s = .next kT)
    (kM : Within [.fresh, .mem, .memKey, .memErr, .tags, .resv, .mc, .core, .int, .rc, .ptn, .ctx, .fab, .xf, .subf, .i3c] M := by exact Part.sub (by assumption) (by rfl)) :
    Kept M kS kT := by
  unfold execXferFetch at kE
  repeat' first | contradiction | (injection kE with kE; subst kE) | split at kE | dsimp only at kE
  repeat' first
    | with_reducible first
      | assumption | apply startXfer_kept | refine Part.sub kM ?_
    | intro _ | dsimp only | (show Part.subb _ _ = _; rfl)

theorem execXferCopy_kept {kS s kT : State} {core : Nat} (kH : Kept M kS s) (kE : execXferCopy core s = .next kT)
    (kM : Within [.fresh, .mem, .memKey, .memErr, .tags, .resv, .mc, .core, .int, .rc, .ptn, .ctx, .fab, .xf, .subf, .i3c] M := by exact Part.sub (by assumption) (by rfl)) :
    Kept M kS kT := by
  unfold execXferCopy at kE
  repeat' first | contradiction | (injection kE with kE; subst kE) | split at kE | dsimp only at kE
  repeat' first
    | with_reducible first
      | assumption | apply startXfer_kept | refine Part.sub kM ?_
    | intro _ | dsimp only | (show Part.subb _ _ = _; rfl)

theorem execXferNode_kept {kS s kT : State} {core : Nat} (kH : Kept M kS s) (kE : execXferNode core s = .next kT)
    (kM : Within [.fresh, .mem, .memKey, .memErr, .tags, .resv, .mc, .core, .int, .rc, .ptn, .ctx, .fab, .xf, .subf, .i3c] M := by exact Part.sub (by assumption) (by rfl)) :
    Kept M kS kT := by
  unfold execXferNode at kE
  repeat' first | contradiction | (injection kE with kE; subst kE) | split at kE | dsimp only at kE
  repeat' first
    | with_reducible first
      | assumption | apply startXfer_kept | refine Part.sub kM ?_
    | intro _ | dsimp only | (show Part.subb _ _ = _; rfl)

theorem execXferDigest_kept {kS s kT : State} {core : Nat} (kH : Kept M kS s) (kE : execXferDigest core s = .next kT)
    (kM : Within [.fresh, .mem, .memKey, .memErr, .tags, .resv, .mc, .core, .int, .rc, .ptn, .ctx, .fab, .xf, .subf, .i3c] M := by exact Part.sub (by assumption) (by rfl)) :
    Kept M kS kT := by
  unfold execXferDigest at kE
  repeat' first | contradiction | (injection kE with kE; subst kE) | split at kE | dsimp only at kE
  repeat' first
    | with_reducible first
      | assumption | apply startXfer_kept | refine Part.sub kM ?_
    | intro _ | dsimp only | (show Part.subb _ _ = _; rfl)

theorem execXferRetract_kept {kS s kT : State} {core : Nat} (kH : Kept M kS s) (kE : execXferRetract core s = .next kT)
    (kM : Within [.fresh, .mem, .memKey, .memErr, .tags, .resv, .mc, .core, .int, .rc, .ptn, .ctx, .fab, .xf, .subf, .i3c] M := by exact Part.sub (by assumption) (by rfl)) :
    Kept M kS kT := by
  unfold execXferRetract at kE
  repeat' first | contradiction | (injection kE with kE; subst kE) | split at kE | dsimp only at kE
  repeat' first
    | with_reducible first
      | assumption | apply startXfer_kept | refine Part.sub kM ?_
    | intro _ | dsimp only | (show Part.subb _ _ = _; rfl)

theorem execFetchReqServe_kept {kS s kT : State} (kH : Kept M kS s) (kE : execFetchReqServe s = .next kT)
    (kM : Within [.mem, .memErr, .tags, .resv, .mc, .core, .int, .rc, .ptn, .ctx, .fab, .xf, .i3c] M := by exact Part.sub (by assumption) (by rfl)) :
    Kept M kS kT := by
  unfold execFetchReqServe at kE
  repeat' first | contradiction | (injection kE with kE; subst kE) | split at kE | dsimp only at kE
  repeat' first
    | with_reducible first
      | assumption | contradiction | apply raise_kept | apply xRead_kept | apply beginSend_kept
      | refine Kept.of_fst ‹_› ?_ | refine Kept.of_snd ‹_› ?_ | refine Part.sub kM ?_
    | split | intro _ | dsimp only | (show Part.subb _ _ = _; rfl) | (show Membership.mem (γ := List Part) _ _; decide) | (show restore _ _ _ = _; rfl)
    | with_reducible first
      | refine Kept.set_ptn ?_ (kM.mem ?_) | refine Kept.set_ctx ?_ (kM.mem ?_) | refine Kept.set_xf ?_ (kM.mem ?_)
      | refine Kept.upd ?_ kM ?_

/-! ### Restore -/

theorem sealGen_kept {kS s : State} {j : SnpJob} (kH : Kept M kS s)
    (kM : Within [.fresh] M := by exact Part.sub (by assumption) (by rfl)) :
    Kept M kS (sealGen s j).1 := by
  unfold sealGen
  repeat' first
    | with_reducible first
      | assumption | apply draw_kept | refine Kept.of_fst ‹_› ?_ | refine Kept.of_snd ‹_› ?_ | refine Part.sub kM ?_
    | split | intro _ | dsimp only | (show Part.subb _ _ = _; rfl)

theorem keepGens_kept {kS s : State} {mirror : Bool} {src ctx : Nat} (kH : Kept M kS s)
    (kM : Within [.snp] M := by exact Part.sub (by assumption) (by rfl)) :
    Kept M kS (keepGens s mirror src ctx) := by
  unfold keepGens
  repeat' first
    | with_reducible first
      | assumption | refine Kept.of_fst ‹_› ?_ | refine Kept.of_snd ‹_› ?_ | apply foldl_kept | apply foldl_state_kept
      | refine Part.sub kM ?_
    | split | intro _ | dsimp only | (show Part.subb _ _ = _; rfl) | (show Membership.mem (γ := List Part) _ _; decide)
    | with_reducible first
      | refine Kept.set_snp ?_ (kM.mem ?_)

theorem mirrorSend_kept {kS s kT : State} {dst ctx kind : Nat} {body : List Byte} (kH : Kept M kS s)
    (kE : mirrorSend s dst ctx kind body = some kT)
    (kM : Within [.ctx, .fab, .xf, .snp] M := by exact Part.sub (by assumption) (by rfl)) :
    Kept M kS kT := by
  unfold mirrorSend at kE
  repeat' first | contradiction | (injection kE with kE; subst kE) | split at kE | dsimp only at kE
  repeat' first
    | with_reducible first
      | assumption | contradiction | apply portQueue_kept | refine Kept.of_fst ‹_› ?_ | refine Kept.of_snd ‹_› ?_
      | refine Part.sub kM ?_
    | split | intro _ | dsimp only | (show Part.subb _ _ = _; rfl) | (show Membership.mem (γ := List Part) _ _; decide) | (show restore _ _ _ = _; rfl)
    | with_reducible first
      | refine Kept.set_ctx ?_ (kM.mem ?_) | refine Kept.set_snp ?_ (kM.mem ?_) | refine Kept.upd ?_ kM ?_

theorem modGen_kept {kS s : State} {ctx gen : Nat} {f : Gen → Gen} (kH : Kept M kS s)
    (kM : Within [.snp] M := by exact Part.sub (by assumption) (by rfl)) :
    Kept M kS (modGen s ctx gen f) := by
  unfold modGen
  repeat' first
    | with_reducible first
      | assumption | refine Part.sub kM ?_
    | split | intro _ | dsimp only | (show Part.subb _ _ = _; rfl) | (show Membership.mem (γ := List Part) _ _; decide)
    | with_reducible first
      | refine Kept.set_snp ?_ (kM.mem ?_)

theorem mirrorFails_kept {kS s : State} {m : MirrorTx} (kH : Kept M kS s)
    (kM : Within [.mc, .int, .ptn, .ctx, .snp, .i3c] M := by exact Part.sub (by assumption) (by rfl)) :
    Kept M kS (mirrorFails s m) := by
  unfold mirrorFails
  repeat' first
    | with_reducible first
      | assumption | apply raise_kept | apply modGen_kept | apply getD_kept | refine Part.sub kM ?_
    | intro _ | dsimp only | (show Part.subb _ _ = _; rfl) | (show Membership.mem (γ := List Part) _ _; decide) | (show restore _ _ _ = _; rfl)
    | with_reducible first
      | refine Kept.set_ptn ?_ (kM.mem ?_) | refine Kept.set_ctx ?_ (kM.mem ?_) | refine Kept.set_snp ?_ (kM.mem ?_)
      | refine Kept.upd ?_ kM ?_

theorem mirrorNext_kept {kS s : State} {m : MirrorTx} (kH : Kept M kS s)
    (kM : Within [.mc, .int, .ptn, .ctx, .fab, .xf, .snp, .i3c] M := by exact Part.sub (by assumption) (by rfl)) :
    Kept M kS (mirrorNext s m) := by
  unfold mirrorNext
  repeat' first
    | with_reducible first
      | assumption | contradiction | refine mirrorSend_kept ?_ ‹_› ?_ | apply mirrorFails_kept
      | refine Kept.of_fst ‹_› ?_ | refine Kept.of_snd ‹_› ?_ | refine Part.sub kM ?_
    | split | intro _ | dsimp only | (show Part.subb _ _ = _; rfl) | (show Membership.mem (γ := List Part) _ _; decide)
    | with_reducible first
      | refine Kept.set_snp ?_ (kM.mem ?_)

theorem mirrorStart_kept {kS s : State} {g : Gen} (kH : Kept M kS s)
    (kM : Within [.mc, .int, .ptn, .ctx, .fab, .xf, .snp, .i3c] M := by exact Part.sub (by assumption) (by rfl)) :
    Kept M kS (mirrorStart s g) := by
  unfold mirrorStart
  repeat' first
    | with_reducible first
      | assumption | apply mirrorNext_kept | refine Part.sub kM ?_
    | intro _ | dsimp only | (show Part.subb _ _ = _; rfl) | (show Membership.mem (γ := List Part) _ _; decide) | (show restore _ _ _ = _; rfl)
    | with_reducible first
      | refine Kept.set_ctx ?_ (kM.mem ?_) | refine Kept.set_snp ?_ (kM.mem ?_) | refine Kept.upd ?_ kM ?_

theorem commitGen_kept {kS s : State} {j : SnpJob} (kH : Kept M kS s)
    (kM : Within [.fresh, .mc, .int, .ptn, .ctx, .fab, .xf, .snp, .i3c] M := by exact Part.sub (by assumption) (by rfl)) :
    Kept M kS (commitGen s j) := by
  unfold commitGen
  repeat' first
    | with_reducible first
      | assumption | apply raise_kept | apply modSnp_kept | apply sealGen_kept | apply keepGens_kept
      | apply mirrorStart_kept | refine Kept.of_fst ‹_› ?_ | refine Kept.of_snd ‹_› ?_ | refine Part.sub kM ?_
    | split | intro _ | dsimp only | (show Part.subb _ _ = _; rfl) | (show Membership.mem (γ := List Part) _ _; decide) | (show restore _ _ _ = _; rfl)
    | with_reducible first
      | refine Kept.set_ptn ?_ (kM.mem ?_) | refine Kept.set_ctx ?_ (kM.mem ?_) | refine Kept.set_snp ?_ (kM.mem ?_)
      | refine Kept.upd ?_ kM ?_

theorem execSnapshotCommit_kept {kS s kT : State} {ctx : Nat} (kH : Kept M kS s) (kE : execSnapshotCommit ctx s = .next kT)
    (kM : Within [.fresh, .mc, .int, .ptn, .ctx, .fab, .xf, .snp, .i3c] M := by exact Part.sub (by assumption) (by rfl)) :
    Kept M kS kT := by
  unfold execSnapshotCommit at kE
  repeat' first | contradiction | (injection kE with kE; subst kE) | split at kE | dsimp only at kE
  repeat' first
    | with_reducible first
      | assumption | contradiction | apply commitGen_kept | refine Kept.of_fst ‹_› ?_ | refine Kept.of_snd ‹_› ?_
      | refine Part.sub kM ?_
    | split | intro _ | dsimp only | (show Part.subb _ _ = _; rfl)

theorem takeRecv_kept {kS s : State} {r : Recv} (kH : Kept M kS s)
    (kM : Within [.xf] M := by exact Part.sub (by assumption) (by rfl)) :
    Kept M kS (takeRecv s r) := by
  unfold takeRecv
  repeat' first
    | with_reducible first
      | assumption | refine Part.sub kM ?_
    | intro _ | dsimp only | (show Part.subb _ _ = _; rfl) | (show Membership.mem (γ := List Part) _ _; decide)
    | with_reducible first
      | refine Kept.set_xf ?_ (kM.mem ?_)

theorem execMirrorAck_kept {kS s kT : State} {src pool seq : Nat} (kH : Kept M kS s)
    (kE : execMirrorAck src pool seq s = .next kT)
    (kM : Within [.mc, .int, .ptn, .ctx, .fab, .xf, .snp, .i3c] M := by exact Part.sub (by assumption) (by rfl)) :
    Kept M kS kT := by
  unfold execMirrorAck at kE
  repeat' first | contradiction | (injection kE with kE; subst kE) | split at kE | dsimp only at kE
  repeat' first
    | with_reducible first
      | assumption | contradiction | apply modGen_kept | apply mirrorNext_kept | apply takeRecv_kept
      | refine Kept.of_fst ‹_› ?_ | refine Kept.of_snd ‹_› ?_ | refine Part.sub kM ?_
    | split | intro _ | dsimp only | (show Part.subb _ _ = _; rfl) | (show Membership.mem (γ := List Part) _ _; decide)
    | with_reducible first
      | refine Kept.set_snp ?_ (kM.mem ?_)

theorem execMirrorTimeout_kept {kS s kT : State} {ctx : Nat} (kH : Kept M kS s) (kE : execMirrorTimeout ctx s = .next kT)
    (kM : Within [.mc, .int, .ptn, .ctx, .snp, .i3c] M := by exact Part.sub (by assumption) (by rfl)) :
    Kept M kS kT := by
  unfold execMirrorTimeout at kE
  repeat' first | contradiction | (injection kE with kE; subst kE) | split at kE | dsimp only at kE
  repeat' first
    | with_reducible first
      | assumption | contradiction | apply mirrorFails_kept | refine Kept.of_fst ‹_› ?_ | refine Kept.of_snd ‹_› ?_
      | refine Part.sub kM ?_
    | split | intro _ | dsimp only | (show Part.subb _ _ = _; rfl)

theorem execMirrorReceive_kept {kS s kT : State} {src pool seq : Nat} {copy : Option MirrorCopy} (kH : Kept M kS s)
    (kE : execMirrorReceive src pool seq copy s = .next kT)
    (kM : Within [.ctx, .fab, .xf, .snp] M := by exact Part.sub (by assumption) (by rfl)) :
    Kept M kS kT := by
  unfold execMirrorReceive at kE
  repeat' first | contradiction | (injection kE with kE; subst kE) | split at kE | dsimp only at kE
  repeat' first
    | with_reducible first
      | assumption | contradiction | apply keepGens_kept | refine mirrorSend_kept ?_ ‹_› ?_ | apply takeRecv_kept
      | refine Kept.of_fst ‹_› ?_ | refine Kept.of_snd ‹_› ?_ | apply getD_kept | refine Part.sub kM ?_
    | split | intro _ | dsimp only | (show Part.subb _ _ = _; rfl) | (show Membership.mem (γ := List Part) _ _; decide) | (show restore _ _ _ = _; rfl)
    | with_reducible first
      | refine Kept.set_ctx ?_ (kM.mem ?_) | refine Kept.set_snp ?_ (kM.mem ?_) | refine Kept.upd ?_ kM ?_

theorem execMirrorRead_kept {kS s kT : State} {src pool seq gen : Nat} (kH : Kept M kS s)
    (kE : execMirrorRead src pool seq gen s = .next kT) (kM : Within [.ctx, .fab, .xf, .snp] M := by exact Part.sub (by assumption) (by rfl)) : Kept M kS kT := by
  unfold execMirrorRead at kE
  injection kE with kE
  subst kE
  split
  · exact kH
  · dsimp only
    split
    · exact takeRecv_kept kH
    · exact forEach_kept (takeRecv_kept kH) fun s x h => getD_kept (fun t e => mirrorSend_kept h e) h

theorem putStepLog_kept {kS s : State} {p c : Nat} {bs : List Byte} (kH : Kept M kS s)
    (kM : Within [.mem, .memKey, .memErr, .tags, .resv, .mc, .core, .int, .ptn, .ctx, .i3c] M := by exact Part.sub (by assumption) (by rfl)) :
    Kept M kS (putStepLog s p c bs) := by
  unfold putStepLog
  repeat' first
    | with_reducible first
      | assumption | contradiction | apply forEach_kept | apply snpWrite_kept | refine Kept.of_fst ‹_› ?_
      | refine Kept.of_snd ‹_› ?_ | refine Part.sub kM ?_
    | split | intro _ | dsimp only | (show Part.subb _ _ = _; rfl)

theorem putObj_kept {kS s : State} {p c : Nat} {e : ManEnt} {bs : List Byte} (kH : Kept M kS s)
    (kM : Within [.mem, .memKey, .memErr, .tags, .resv, .mc, .core, .int, .ptn, .ctx, .i3c] M := by exact Part.sub (by assumption) (by rfl)) :
    Kept M kS (putObj s p c e bs) := by
  unfold putObj
  repeat' first
    | with_reducible first
      | assumption | apply modCtx_kept | apply writeUnder_kept | apply snpWrite_kept | apply putStepLog_kept
      | refine Part.sub kM ?_
    | split | intro _ | dsimp only | (show Part.subb _ _ = _; rfl)

theorem putObjs_kept {kS : State} {key : List Byte} {p c : Nat} {x : MirrorCopy} {bad : Option Nat} (kM :
    Within [.fresh, .mem, .memKey, .memErr, .tags, .resv, .mc, .core, .int, .ptn, .ctx, .i3c] M := by exact Part.sub (by assumption) (by rfl)) :
    ∀ {es : List (Nat × ManEnt)} {s : State}, Kept M kS s → Kept M kS (putObjs key p c x bad s es).1
  | [], _, h => h
  | e :: es, s, h => by
    unfold putObjs
    split
    · exact putObj_kept (draw_kept h)
    · dsimp only
      split
      · exact putObjs_kept (Part.sub kM rfl) (putObj_kept h)
      · exact putObj_kept h

theorem rindTargets_kept {kS s : State} {p c : Nat} {es : List ManEnt} (kH : Kept M kS s)
    (kM : Within [.mc, .int, .ptn, .ctx, .i3c] M := by exact Part.sub (by assumption) (by rfl)) :
    Kept M kS (rindTargets s p c es) := by
  unfold rindTargets
  repeat' first
    | with_reducible first
      | assumption | contradiction | apply forEach_kept | apply raise_kept | refine Kept.of_fst ‹_› ?_
      | refine Kept.of_snd ‹_› ?_ | refine Part.sub kM ?_
    | split | intro _ | dsimp only | (show Part.subb _ _ = _; rfl)

theorem copyFails_kept {kS s : State} {p c : Nat} {mirror : Bool} {gen : Nat} (kH : Kept M kS s)
    (kM : Within [.mc, .int, .ptn, .ctx, .snp, .i3c] M := by exact Part.sub (by assumption) (by rfl)) :
    Kept M kS (copyFails s p c mirror gen) := by
  unfold copyFails
  repeat' first
    | with_reducible first
      | assumption | apply raise_kept | apply modGen_kept | refine Part.sub kM ?_
    | split | intro _ | dsimp only | (show Part.subb _ _ = _; rfl) | (show Membership.mem (γ := List Part) _ _; decide) | (show restore _ _ _ = _; rfl)
    | with_reducible first
      | refine Kept.set_ptn ?_ (kM.mem ?_) | refine Kept.set_ctx ?_ (kM.mem ?_) | refine Kept.set_snp ?_ (kM.mem ?_)
      | refine Kept.upd ?_ kM ?_

theorem tryCopy_kept {kS s : State} {p c : Nat} {x : MirrorCopy} {bad : Option Nat} (h :
    Kept M kS s) (kM : Within [.fresh, .mem, .memKey, .memErr, .tags, .resv, .mc, .core, .int, .ptn, .ctx, .i3c] M := by exact Part.sub (by assumption) (by rfl)) :
    (∀ t, tryCopy s p c x bad = .failed t → Kept M kS t) ∧ (∀ t man, tryCopy s p c x bad = .done t man → Kept M kS t)
      ∧ ∀ t, tryCopy s p c x bad = .badTarget t → Kept M kS t := by
  unfold tryCopy
  dsimp only
  split
  · exact ⟨fun t e => by injection e with e; exact e ▸ h, fun t man e => by injection e, fun t e => by injection e⟩
  · rename_i man _
    split
    · exact ⟨fun t e => by injection e, fun t man e => by injection e,
        fun t e => by injection e with e; exact e ▸ rindTargets_kept h (Part.sub kM (by rfl))⟩
    · have h1 := putObjs_kept (Part.sub kM rfl) (key := snapKey s c) (p := p) (c := c) (x := x) (bad := bad)
        (es := List.zip (countFrom 0 (manEnts man).length) (manEnts man)) h
      split
      · exact ⟨fun t e => by injection e, fun t man e => by injection e with e; exact e ▸ h1, fun t e => by injection e⟩
      · exact ⟨fun t e => by injection e with e; exact e ▸ h1, fun t man e => by injection e, fun t e => by injection e⟩

theorem tryCopies_kept {kS : State} {p c : Nat} (kM :
    Within [.fresh, .mem, .memKey, .memErr, .tags, .resv, .mc, .core, .int, .ptn, .ctx, .snp, .i3c] M := by exact Part.sub (by assumption) (by rfl)) :
    ∀ {es : List (Bool × MirrorCopy × Option Nat)} {s : State}, Kept M kS s → Kept M kS (tryCopies p c s es).1
  | [], _, h => h
  | e :: es, s, h => by
    unfold tryCopies
    have h1 := tryCopy_kept (p := p) (c := c) (x := e.2.1) (bad := e.2.2) h
    split
    · rename_i hd; exact h1.2.2 _ hd
    · rename_i hd; exact h1.2.1 _ _ hd
    · rename_i hd; exact tryCopies_kept (Part.sub kM rfl) (copyFails_kept (h1.1 _ hd))

theorem verifyLog_kept {kS s : State} {p c upTo : Nat} (kH : Kept M kS s)
    (kM : Within [.mem, .memKey, .memErr, .tags, .resv, .mc, .core, .int, .ptn, .ctx, .i3c] M := by exact Part.sub (by assumption) (by rfl)) :
    Kept M kS (verifyLog s p c upTo) := by
  unfold verifyLog
  repeat' first
    | with_reducible first
      | assumption | contradiction | apply putStepLog_kept | refine Kept.of_fst ‹_› ?_ | refine Kept.of_snd ‹_› ?_
      | apply getD_kept | refine Part.sub kM ?_
    | split | intro _ | dsimp only | (show Part.subb _ _ = _; rfl)

theorem restoreDone_kept {kS s : State} {p c : Nat} {j : RestoreJob} {man : List Byte} (kH : Kept M kS s)
    (kM : Within [.mem, .memKey, .memErr, .tags, .resv, .mc, .core, .int, .rc, .ptn, .ctx, .snp, .i3c] M := by exact Part.sub (by assumption) (by rfl)) :
    Kept M kS (restoreDone s p c j man) := by
  unfold restoreDone
  repeat' first
    | with_reducible first
      | assumption | contradiction | apply modCtx_kept | apply modSnp_kept | apply verifyLog_kept
      | refine Kept.of_fst ‹_› ?_ | refine Kept.of_snd ‹_› ?_ | refine Part.sub kM ?_
    | split | intro _ | dsimp only | (show Part.subb _ _ = _; rfl) | (show Membership.mem (γ := List Part) _ _; decide) | (show restore _ _ _ = _; rfl)
    | with_reducible first
      | refine Kept.set_rc ?_ (kM.mem ?_) | refine Kept.set_snp ?_ (kM.mem ?_) | refine Kept.upd ?_ kM ?_

theorem execRestoreComplete_kept {kS s kT : State} {ctx : Nat} {bad : List (Nat × Nat)} {mirror : List MirrorCopy}
    (kH : Kept M kS s) (kE : execRestoreComplete ctx bad mirror s = .next kT)
    (kM : Within [.fresh, .mem, .memKey, .memErr, .tags, .resv, .mc, .core, .int, .rc, .ptn, .ctx, .snp, .i3c] M := by exact Part.sub (by assumption) (by rfl)) :
    Kept M kS kT := by
  unfold execRestoreComplete at kE
  repeat' first | contradiction | (injection kE with kE; subst kE) | split at kE | dsimp only at kE
  repeat' first
    | with_reducible first
      | assumption | contradiction | apply modSnp_kept | apply snpAnswer_kept | apply tryCopies_kept
      | apply restoreDone_kept | refine Kept.of_fst ‹_› ?_ | refine Kept.of_snd ‹_› ?_ | refine Part.sub kM ?_
    | split | intro _ | dsimp only | (show Part.subb _ _ = _; rfl)

/-! ### Lessons -/

theorem resetPanels_kept {kS s : State} {x : PRun} (kH : Kept M kS s)
    (kM : Within [.mem, .memKey, .memErr, .tags, .resv, .mc, .core, .int, .ptn, .ctx, .i3c] M := by exact Part.sub (by assumption) (by rfl)) :
    Kept M kS (resetPanels s x) := by
  unfold resetPanels
  repeat' first
    | with_reducible first
      | assumption | apply forEach_kept | apply pwordIn_kept | apply pwordOut_kept | refine Part.sub kM ?_
    | intro _ | dsimp only | (show Part.subb _ _ = _; rfl)

theorem settleAbort_kept {kS s : State} {p : Nat} (kH : Kept M kS s)
    (kM : Within [.mem, .memKey, .memErr, .tags, .resv, .mc, .core, .int, .rc, .ptn, .ctx, .prs, .i3c] M := by exact Part.sub (by assumption) (by rfl)) :
    Kept M kS (settleAbort s p) := by
  unfold settleAbort
  repeat' first
    | with_reducible first
      | assumption | contradiction | apply forEach_kept | apply modTt_kept | apply modCtx_kept | apply restartCtx_kept
      | apply resetPanels_kept | refine Kept.of_fst ‹_› ?_ | refine Kept.of_snd ‹_› ?_ | refine Part.sub kM ?_
    | split | intro _ | dsimp only | (show Part.subb _ _ = _; rfl)

theorem clearSubFlags_kept {kS s : State} {p : Nat} (kH : Kept M kS s)
    (kM : Within [.subf] M := by exact Part.sub (by assumption) (by rfl)) :
    Kept M kS (clearSubFlags s p) := by
  unfold clearSubFlags
  repeat' first
    | with_reducible first
      | assumption | contradiction | refine Kept.of_fst ‹_› ?_ | refine Kept.of_snd ‹_› ?_ | refine Part.sub kM ?_
    | split | intro _ | dsimp only | (show Part.subb _ _ = _; rfl) | (show Membership.mem (γ := List Part) _ _; decide)
    | with_reducible first
      | refine Kept.set_subf ?_ (kM.mem ?_)

theorem powerRecheck_kept {kS s : State} {p : Nat} {y : Timetable} (kH : Kept M kS s)
    (kM : Within [.mc, .int, .ptn, .ctx, .i3c] M := by exact Part.sub (by assumption) (by rfl)) :
    Kept M kS (powerRecheck s p y) := by
  unfold powerRecheck
  repeat' first
    | with_reducible first
      | assumption | contradiction | apply modPtn_kept | apply raise_kept | refine Kept.of_fst ‹_› ?_
      | refine Kept.of_snd ‹_› ?_ | refine Part.sub kM ?_
    | split | intro _ | dsimp only | (show Part.subb _ _ = _; rfl)

theorem dropRestarts_kept {kS s : State} {p : Nat} (kH : Kept M kS s)
    (kM : Within [.ctx] M := by exact Part.sub (by assumption) (by rfl)) :
    Kept M kS (dropRestarts s p) := by
  unfold dropRestarts
  repeat' first
    | with_reducible first
      | assumption | apply forEach_kept | apply modCtx_kept | refine Part.sub kM ?_
    | split | intro _ | dsimp only | (show Part.subb _ _ = _; rfl)

theorem boundaryRecess_kept {kS s : State} {p : Nat} (kH : Kept M kS s)
    (kM : Within [.mem, .memKey, .memErr, .tags, .resv, .mc, .core, .int, .rc, .ptn, .ctx, .prs, .snp, .i3c] M := by exact Part.sub (by assumption) (by rfl)) :
    Kept M kS (boundaryRecess s p) := by
  unfold boundaryRecess
  repeat' first
    | with_reducible first
      | assumption | apply recessPoint_kept | apply dropRestarts_kept | refine Part.sub kM ?_
    | intro _ | dsimp only | (show Part.subb _ _ = _; rfl)

theorem beginLesson_kept {kS s : State} {p : Nat} {y : Timetable} (kH : Kept M kS s)
    (kM : Within [.mem, .memKey, .memErr, .tags, .resv, .mc, .core, .int, .rc, .ptn, .ctx, .prs, .subf, .snp, .i3c] M := by exact Part.sub (by assumption) (by rfl)) :
    Kept M kS (beginLesson s p y) := by
  unfold beginLesson
  repeat' first
    | with_reducible first
      | assumption | apply forEach_kept | apply modPtn_kept | apply modTt_kept | apply modCtx_kept
      | apply clearSubFlags_kept | apply powerRecheck_kept | apply boundaryRecess_kept | refine Part.sub kM ?_
    | intro _ | dsimp only | (show Part.subb _ _ = _; rfl)

theorem endTt_kept {kS s : State} {p : Nat} (kH : Kept M kS s)
    (kM : Within [.ptn] M := by exact Part.sub (by assumption) (by rfl)) :
    Kept M kS (endTt s p) := by
  unfold endTt
  repeat' first
    | with_reducible first
      | assumption | apply modTt_kept | refine Part.sub kM ?_
    | intro _ | dsimp only | (show Part.subb _ _ = _; rfl)

theorem lessonBoundary_kept {kS s : State} {p : Nat} {y : Timetable} (kH : Kept M kS s)
    (kM : Within [.mem, .memKey, .memErr, .tags, .resv, .mc, .core, .phys, .int, .rc, .ptn, .ctx, .prs, .led, .lcs, .subf, .tst, .snp, .i3c] M := by exact Part.sub (by assumption) (by rfl)) :
    Kept M kS (lessonBoundary s p y) := by
  unfold lessonBoundary
  repeat' first
    | with_reducible first
      | assumption | apply modTt_kept | apply ceRepairs_kept | apply boundaryRepairs_kept | apply settleAbort_kept
      | apply boundaryRecess_kept | apply beginLesson_kept | apply endTt_kept | refine Part.sub kM ?_
    | split | intro _ | dsimp only | (show Part.subb _ _ = _; rfl)

theorem execLessonBoundary_kept {kS s kT : State} {p : Nat} (kH : Kept M kS s) (kE : execLessonBoundary p s = .next kT)
    (kM : Within [.mem, .memKey, .memErr, .tags, .resv, .mc, .core, .phys, .int, .rc, .ptn, .ctx, .prs, .led, .lcs, .subf, .tst, .snp, .i3c] M := by exact Part.sub (by assumption) (by rfl)) :
    Kept M kS kT := by
  unfold execLessonBoundary at kE
  repeat' first | contradiction | (injection kE with kE; subst kE) | split at kE | dsimp only at kE
  repeat' first
    | with_reducible first
      | assumption | contradiction | apply lessonBoundary_kept | refine Kept.of_fst ‹_› ?_ | refine Kept.of_snd ‹_› ?_
      | refine Part.sub kM ?_
    | split | intro _ | dsimp only | (show Part.subb _ _ = _; rfl)

theorem slotWork_kept {kS s : State} {p i : Nat} {y : Timetable} {due : List (Nat × Nat × List Nat)} (kH : Kept M kS s)
    (kM : Within [.mem, .memKey, .memErr, .resv, .core, .phys, .ptn, .ctx] M := by exact Part.sub (by assumption) (by rfl)) :
    Kept M kS (slotWork s p i y due) := by
  unfold slotWork
  repeat' first
    | with_reducible first
      | assumption | contradiction | apply forEach_kept | apply modCtx_kept | apply spillBitmap_kept
      | apply quizSlotStart_kept | refine Kept.of_fst ‹_› ?_ | refine Kept.of_snd ‹_› ?_ | refine Part.sub kM ?_
    | split | intro _ | dsimp only | (show Part.subb _ _ = _; rfl)

theorem execSlotStart_kept {kS s kT : State} {p i : Nat} {due : List (Nat × Nat × List Nat)} (kH : Kept M kS s)
    (kE : execSlotStart p i due s = .next kT)
    (kM : Within [.mem, .memKey, .memErr, .resv, .mc, .core, .phys, .int, .rc, .ptn, .ctx, .i3c] M := by exact Part.sub (by assumption) (by rfl)) :
    Kept M kS kT := by
  unfold execSlotStart at kE
  repeat' first | contradiction | (injection kE with kE; subst kE) | split at kE | dsimp only at kE
  repeat' first
    | with_reducible first
      | assumption | contradiction | apply openSlot_kept | apply slotWork_kept | refine Kept.of_fst ‹_› ?_
      | refine Kept.of_snd ‹_› ?_ | apply getD_kept | refine Part.sub kM ?_
    | split | intro _ | dsimp only | (show Part.subb _ _ = _; rfl)

theorem slotDeadline_kept {kS s : State} {p : Nat} {y : Timetable} {o : OpenSlot} (kH : Kept M kS s)
    (kM : Within [.mem, .memKey, .memErr, .tags, .resv, .mc, .core, .phys, .int, .rc, .ptn, .ctx, .prs, .snp, .i3c] M := by exact Part.sub (by assumption) (by rfl)) :
    Kept M kS (slotDeadline s p y o) := by
  unfold slotDeadline
  repeat' first
    | with_reducible first
      | assumption | apply modTt_kept | apply overrun_kept | apply quizSlotEnd_kept | apply recessPoint_kept
      | refine Part.sub kM ?_
    | split | intro _ | dsimp only | (show Part.subb _ _ = _; rfl)

theorem execSlotDeadline_kept {kS s kT : State} {p i : Nat} (kH : Kept M kS s) (kE : execSlotDeadline p i s = .next kT)
    (kM : Within [.mem, .memKey, .memErr, .tags, .resv, .mc, .core, .phys, .int, .rc, .ptn, .ctx, .prs, .snp, .i3c] M := by exact Part.sub (by assumption) (by rfl)) :
    Kept M kS kT := by
  unfold execSlotDeadline at kE
  repeat' first | contradiction | (injection kE with kE; subst kE) | split at kE | dsimp only at kE
  repeat' first
    | with_reducible first
      | assumption | contradiction | apply judgeSlots_kept | apply slotDeadline_kept | refine Kept.of_fst ‹_› ?_
      | refine Kept.of_snd ‹_› ?_ | refine Part.sub kM ?_
    | split | intro _ | dsimp only | (show Part.subb _ _ = _; rfl)

theorem execPartitionCommandsEnded_kept {kS s kT : State} {p : Nat} (kH : Kept M kS s)
    (kE : execPartitionCommandsEnded p s = .next kT)
    (kM : Within [.mem, .memKey, .memErr, .tags, .resv, .mc, .core, .int, .rc, .ptn, .ctx, .brn, .prs, .i3c] M := by exact Part.sub (by assumption) (by rfl)) :
    Kept M kS kT := by
  unfold execPartitionCommandsEnded at kE
  repeat' first | contradiction | (injection kE with kE; subst kE) | split at kE | dsimp only at kE
  repeat' first
    | with_reducible first
      | assumption | apply heldIfDone_kept | apply teardownProceed_kept | apply settleAbort_kept | apply endTt_kept
      | refine Part.sub kM ?_
    | split | intro _ | dsimp only | (show Part.subb _ _ = _; rfl)

end Sys2Proof.Machine
end

