-- ==== Sys2Proof/Laws/KeptReset.lean ====
section
/-! SUPPORT. What no operation of the module does (Kept, Laws/Kept.lean), one lemma for each function that changes the state:
the thread instructions, reset, power, register and memory accesses, and the Bell. -/

namespace Sys2Proof.Machine

set_option Elab.async false

variable {M : List Part}

/-! ### Xslv -/

theorem threadRead_kept {kS s : State} {n t ga len : Nat} (h :
    Kept M kS s) (kM : Within [.mem, .memErr, .tags, .resv, .mc, .core, .int, .ptn, .ctx, .i3c] M := by exact Part.sub (by assumption) (by rfl)) : KeptR M kS (threadRead s n t ga len) := by
  unfold threadRead
  dsimp only
  split
  · split
    · exact readAs_kept h
    · exact takeTrap_kept (readAs_kept h)
  · exact takeTrap_kept h
  · exact takeTrap_kept h

theorem storeFault_kept {kS s kT : State} {n t ga len : Nat} (kH : Kept M kS s) (kE : storeFault s n t ga len = some kT)
    (kM : Within [.mc, .core, .int, .ptn, .ctx, .i3c] M := by exact Part.sub (by assumption) (by rfl)) :
    Kept M kS kT := by
  unfold storeFault at kE
  dsimp only at kE
  split at kE
  · split at kE
    · injection kE with kE; subst kE; exact takeTrap_kept (raise_kept kH)
    · obtain ⟨a, _, rfl⟩ := Option.map_eq_some_iff.mp kE
      exact takeTrap_kept kH
  · injection kE with kE; subst kE; exact takeTrap_kept kH

theorem threadWrite_kept {kS s : State} {n t ga : Nat} {bs : List Byte} (h :
    Kept M kS s) (kM : Within [.mem, .memKey, .memErr, .tags, .resv, .mc, .core, .int, .ptn, .ctx, .i3c] M := by exact Part.sub (by assumption) (by rfl)) : KeptS M kS (threadWrite s n t ga bs) := by
  unfold threadWrite
  split
  · rename_i e; exact storeFault_kept h e
  · exact writeAs_kept h
  · exact h

theorem threadDesc_kept {kS s : State} {n t ga : Nat} (h :
    Kept M kS s) (kM : Within [.mem, .memErr, .tags, .resv, .mc, .core, .int, .ptn, .ctx, .i3c] M := by exact Part.sub (by assumption) (by rfl)) : KeptR M kS (threadDesc s n t ga) := by
  unfold threadDesc
  split
  · split
    · exact threadRead_kept h
    · exact takeTrap_kept h
  · exact takeTrap_kept h

theorem outcome_kept {kS : State} {x : Except State State} (h : KeptS M kS x) : Kept M kS (outcome x) := by
  cases x <;> exact h

theorem keptS_pure {kS t : State} (h : Kept M kS t) : KeptS M kS (pure t) := h

theorem setRd_kept {kS s : State} {n t rd v : Nat} (kH : Kept M kS s)
    (kM : Within [.core] M := by exact Part.sub (by assumption) (by rfl)) :
    Kept M kS (setRd s n t rd v) := by
  unfold setRd
  repeat' first
    | with_reducible first
      | assumption | apply modThr_kept | refine Part.sub kM ?_
    | intro _ | dsimp only | (show Part.subb _ _ = _; rfl)

theorem enqueue_kept {kS s : State} {q : QueueOf} {e : QEntry} (kH : Kept M kS s)
    (kM : Within [.core, .prs] M := by exact Part.sub (by assumption) (by rfl)) :
    Kept M kS (enqueue s q e) := by
  unfold enqueue
  repeat' first
    | with_reducible first
      | assumption | contradiction | apply modCore_kept | apply modPrs_kept | refine Kept.of_fst ‹_› ?_
      | refine Kept.of_snd ‹_› ?_ | refine Part.sub kM ?_
    | split | intro _ | dsimp only | (show Part.subb _ _ = _; rfl)

theorem admitOne_kept {kS s : State} {q : QueueOf} (kH : Kept M kS s)
    (kM : Within [.core, .prs] M := by exact Part.sub (by assumption) (by rfl)) :
    Kept M kS (admitOne s q) := by
  unfold admitOne
  repeat' first
    | with_reducible first
      | assumption | contradiction | apply wake_kept | apply enqueue_kept | refine Kept.of_fst ‹_› ?_
      | refine Kept.of_snd ‹_› ?_ | refine Part.sub kM ?_
    | split | intro _ | dsimp only | (show Part.subb _ _ = _; rfl)

theorem execSlvCmd_kept {kS s kT : State} {core thr f7 rd addr : Nat} (kH : Kept M kS s)
    (kE : execSlvCmd core thr f7 rd addr s = .next kT)
    (kM : Within [.fresh, .mem, .memErr, .tags, .resv, .mc, .core, .int, .ptn, .ctx, .prs, .i3c] M := by exact Part.sub (by assumption) (by rfl)) :
    Kept M kS kT := by
  unfold execSlvCmd at kE
  repeat' first | contradiction | (injection kE with kE; subst kE) | split at kE | dsimp only at kE
  repeat' first
    | with_reducible first
      | assumption | contradiction | apply forEach_kept | apply modThr_kept | apply instrDone_kept | apply illegal_kept
      | apply issue_kept | apply threadDesc_kept | apply outcome_kept | apply setRd_kept | apply enqueue_kept
      | apply admitOne_kept | refine Kept.of_fst ‹_› ?_ | refine Kept.of_snd ‹_› ?_ | apply outcome_kept
      | apply KeptR.bindS | apply KeptR.bindR | apply KeptS.bindS | apply threadRead_kept | apply threadWrite_kept
      | apply threadDesc_kept | apply threadTile_kept | apply keptS_pure | refine Part.sub kM ?_
    | split | intro _ | dsimp only | (show Part.subb _ _ = _; rfl)

theorem execQueuePositionFreed_kept {kS s kT : State} {q : QueueOf} (kH : Kept M kS s)
    (kE : execQueuePositionFreed q s = .next kT) (kM : Within [.core, .prs] M := by exact Part.sub (by assumption) (by rfl)) :
    Kept M kS kT := by
  unfold execQueuePositionFreed at kE
  repeat' first | contradiction | (injection kE with kE; subst kE) | split at kE | dsimp only at kE
  repeat' first
    | with_reducible first
      | assumption | apply admitOne_kept | refine Part.sub kM ?_
    | intro _ | dsimp only | (show Part.subb _ _ = _; rfl)

theorem execSlvCrcRaw_kept {kS s kT : State} {core thr rd addr len : Nat} (kH : Kept M kS s)
    (kE : execSlvCrcRaw core thr rd addr len s = .next kT)
    (kM : Within [.fresh, .mem, .memErr, .tags, .resv, .mc, .core, .int, .ptn, .ctx, .i3c] M := by exact Part.sub (by assumption) (by rfl)) :
    Kept M kS kT := by
  unfold execSlvCrcRaw at kE
  repeat' first | contradiction | (injection kE with kE; subst kE) | split at kE | dsimp only at kE
  repeat' first
    | with_reducible first
      | assumption | apply instrDone_kept | apply illegal_kept | apply issue_kept | apply threadRead_kept
      | apply outcome_kept | apply setRd_kept | refine Kept.of_fst ‹_› ?_ | refine Kept.of_snd ‹_› ?_
      | apply outcome_kept | apply KeptR.bindS | apply KeptR.bindR | apply KeptS.bindS | apply threadRead_kept
      | apply threadWrite_kept | apply threadDesc_kept | apply threadTile_kept | apply keptS_pure | refine Part.sub kM ?_
    | split | intro _ | dsimp only | (show Part.subb _ _ = _; rfl)

theorem threadTile_kept {kS s : State} {n t ga : Nat} (h :
    Kept M kS s) (kM : Within [.mem, .memErr, .tags, .resv, .mc, .core, .int, .ptn, .ctx, .i3c] M := by exact Part.sub (by assumption) (by rfl)) : KeptR M kS (threadTile s n t ga) := by
  unfold threadTile
  refine (threadRead_kept h).bindR fun r h => ?_
  dsimp only
  split
  · exact h
  · exact (threadRead_kept h).bindR fun r h => h

theorem execSlvCrcTchk_kept {kS s kT : State} {core thr rd addr : Nat} (kH : Kept M kS s)
    (kE : execSlvCrcTchk core thr rd addr s = .next kT)
    (kM : Within [.mem, .memErr, .tags, .resv, .mc, .core, .int, .ptn, .ctx, .i3c] M := by exact Part.sub (by assumption) (by rfl)) :
    Kept M kS kT := by
  unfold execSlvCrcTchk at kE
  repeat' first | contradiction | (injection kE with kE; subst kE) | split at kE | dsimp only at kE
  repeat' first
    | with_reducible first
      | assumption | contradiction | apply instrDone_kept | apply issue_kept | apply outcome_kept | apply setRd_kept
      | apply threadTile_kept | refine Kept.of_fst ‹_› ?_ | refine Kept.of_snd ‹_› ?_ | apply outcome_kept
      | apply KeptR.bindS | apply KeptR.bindR | apply KeptS.bindS | apply threadRead_kept | apply threadWrite_kept
      | apply threadDesc_kept | apply threadTile_kept | apply keptS_pure | refine Part.sub kM ?_
    | split | intro _ | dsimp only | (show Part.subb _ _ = _; rfl)

theorem execSlvCrcTgen_kept {kS s kT : State} {core thr rd addr : Nat} (kH : Kept M kS s)
    (kE : execSlvCrcTgen core thr rd addr s = .next kT)
    (kM : Within [.mem, .memKey, .memErr, .tags, .resv, .mc, .core, .int, .ptn, .ctx, .i3c] M := by exact Part.sub (by assumption) (by rfl)) :
    Kept M kS kT := by
  unfold execSlvCrcTgen at kE
  repeat' first | contradiction | (injection kE with kE; subst kE) | split at kE | dsimp only at kE
  repeat' first
    | with_reducible first
      | assumption | contradiction | apply instrDone_kept | apply issue_kept | apply threadWrite_kept
      | apply outcome_kept | apply setRd_kept | apply threadTile_kept | refine Kept.of_fst ‹_› ?_
      | refine Kept.of_snd ‹_› ?_ | apply outcome_kept | apply KeptR.bindS | apply KeptR.bindR | apply KeptS.bindS
      | apply threadRead_kept | apply threadWrite_kept | apply threadDesc_kept | apply threadTile_kept | apply keptS_pure
      | refine Part.sub kM ?_
    | split | intro _ | dsimp only | (show Part.subb _ _ = _; rfl)

theorem execSlvVcvt_kept {kS s kT : State} {core thr vd vs2 code : Nat} (kH : Kept M kS s)
    (kE : execSlvVcvt core thr vd vs2 code s = .next kT)
    (kM : Within [.fresh, .core, .ctx] M := by exact Part.sub (by assumption) (by rfl)) :
    Kept M kS kT := by
  unfold execSlvVcvt at kE
  repeat' first | contradiction | (injection kE with kE; subst kE) | split at kE | dsimp only at kE
  repeat' first
    | with_reducible first
      | assumption | contradiction | apply modThr_kept | apply draw_kept | apply addConv_kept | apply instrDone_kept
      | apply illegal_kept | apply issue_kept | refine Kept.of_fst ‹_› ?_ | refine Kept.of_snd ‹_› ?_ | apply foldl_kept
      | apply foldl_state_kept | refine Part.sub kM ?_
    | split | intro _ | dsimp only | (show Part.subb _ _ = _; rfl)

theorem execSlvVfn_kept {kS s kT : State} {core thr vd vs2 f7 : Nat} (kH : Kept M kS s)
    (kE : execSlvVfn core thr vd vs2 f7 s = .next kT) (kM : Within [.fresh, .core] M := by exact Part.sub (by assumption) (by rfl)) :
    Kept M kS kT := by
  unfold execSlvVfn at kE
  repeat' first | contradiction | (injection kE with kE; subst kE) | split at kE | dsimp only at kE
  repeat' first
    | with_reducible first
      | assumption | contradiction | apply modThr_kept | apply draw_kept | apply instrDone_kept | apply illegal_kept
      | apply issue_kept | refine Kept.of_fst ‹_› ?_ | refine Kept.of_snd ‹_› ?_ | refine Part.sub kM ?_
    | split | intro _ | dsimp only | (show Part.subb _ _ = _; rfl)

theorem execSlvLaunch_kept {kS s kT : State} {core thr rd addr : Nat} (kH : Kept M kS s)
    (kE : execSlvLaunch core thr rd addr s = .next kT) (kM : Within [.mem, .memErr, .tags, .resv, .mc, .core, .int, .ptn, .ctx, .syl, .cpt, .i3c] M := by exact Part.sub (by assumption) (by rfl)) : Kept M kS kT := by
  unfold execSlvLaunch at kE
  injection kE with kE
  subst kE
  refine issue_kept kH fun s h => outcome_kept ((threadDesc_kept h).bindS fun r h => ?_)
  dsimp only
  split
  · exact keptS_pure (setRd_kept (instrDone_kept h))
  · have h1 := placeQueued_kept (p := (issuerOf r.1 core thr).ptn) (instrDone_kept (n := core) (t := thr) (len := 4) h) (Part.sub kM (by rfl))
    generalize placeQueued (instrDone r.1 core thr 4) (issuerOf r.1 core thr).ptn = s1 at h1 ⊢
    split
    · exact keptS_pure (placeGroup_kept h1 (Part.sub kM (by rfl)))
    · split
      · exact keptS_pure (setRd_kept h1)
      · exact iteInduction (motive := KeptS M kS) (fun _ => keptS_pure (setRd_kept h1))
          (fun _ => keptS_pure (modThr_kept (modPtn_kept h1 (Part.sub kM (by rfl)))))

theorem execSlvExit_kept {kS s kT : State} {core thr : Nat} (kH : Kept M kS s) (kE : execSlvExit core thr s = .next kT)
    (kM : Within [.resv, .mc, .core, .int, .rc, .ptn, .ctx, .i3c] M := by exact Part.sub (by assumption) (by rfl)) :
    Kept M kS kT := by
  unfold execSlvExit at kE
  repeat' first | contradiction | (injection kE with kE; subst kE) | split at kE | dsimp only at kE
  repeat' first
    | with_reducible first
      | assumption | contradiction | apply modCore_kept | apply modThr_kept | apply dropResv_kept | apply threadAdd_kept
      | apply instrDone_kept | apply issue_kept | refine Kept.of_fst ‹_› ?_ | refine Kept.of_snd ‹_› ?_
      | refine Part.sub kM ?_
    | split | intro _ | dsimp only | (show Part.subb _ _ = _; rfl)

theorem execThreadTrap_kept {kS s kT : State} {core thr cause tval : Nat} (kH : Kept M kS s)
    (kE : execThreadTrap core thr cause tval s = .next kT) (kM : Within [.core] M := by exact Part.sub (by assumption) (by rfl)) :
    Kept M kS kT := by
  unfold execThreadTrap at kE
  repeat' first | contradiction | (injection kE with kE; subst kE) | split at kE | dsimp only at kE
  repeat' first
    | with_reducible first
      | assumption | apply takeTrap_kept | apply issue_kept | refine Part.sub kM ?_
    | intro _ | dsimp only | (show Part.subb _ _ = _; rfl)

theorem execSlvctxWrite_kept {kS s kT : State} {core thr value : Nat} (kH : Kept M kS s)
    (kE : execSlvctxWrite core thr value s = .next kT) (kM : Within [.fresh, .core] M := by exact Part.sub (by assumption) (by rfl)) :
    Kept M kS kT := by
  unfold execSlvctxWrite at kE
  repeat' first | contradiction | (injection kE with kE; subst kE) | split at kE | dsimp only at kE
  repeat' first
    | with_reducible first
      | assumption | apply modThr_kept | apply instrDone_kept | apply illegal_kept | apply issue_kept
      | refine Part.sub kM ?_
    | split | intro _ | dsimp only | (show Part.subb _ _ = _; rfl)

/-! ### Reset -/

theorem bareState_kept {kS s : State} (kH : Kept M kS s)
    (kM : Within [.fresh, .cyc, .mem, .memKey, .memErr, .tags, .resv, .mc, .core, .phys, .int, .rc, .ptn, .ctx, .brn, .prs, .bell, .syl, .keys, .fab, .xf, .led, .lcs, .sec, .cpt, .ses, .mod, .pwr, .subf, .vat, .tst, .snp, .oh, .fuse, .flash, .tap, .i3c] M := by exact Part.sub (by assumption) (by rfl)) :
    Kept M kS (bareState s) :=
  kH.change (samePart_of_restore (by rfl)) kM rfl (fun _ => rfl) (FusesKept.refl _) (le_refl _)

theorem nextEpochs_kept {kS s old : State} (kH : Kept M kS s)
    (kM : Within [.core, .rc, .prs] M := by exact Part.sub (by assumption) (by rfl)) :
    Kept M kS (nextEpochs old s) :=
  Kept.upd kH kM rfl

theorem sameEpochs_kept {kS s old : State} (kH : Kept M kS s)
    (kM : Within [.core, .rc, .prs] M := by exact Part.sub (by assumption) (by rfl)) :
    Kept M kS (sameEpochs old s) :=
  Kept.upd kH kM rfl

theorem startIdentity_kept {kS s : State} (kH : Kept M kS s)
    (kM : Within [.fresh, .led, .sec, .fuse] M := by exact Part.sub (by assumption) (by rfl)) :
    Kept M kS (startIdentity s) := by
  unfold startIdentity
  have h : Kept M kS (if s.lcs.lc = .manufacture ∧ !s.fuse.identity then
      let (k, s) := draw s 32
      { s with led.ident := some k, fuse.identity := true }
    else s) := by
    split
    · exact kH.change (samePart_of_restore (by rfl)) kM rfl id ⟨le_refl _, fun _ => rfl, le_refl _, List.prefix_refl _⟩ (le_refl _)
    · exact kH
  generalize (if s.lcs.lc = .manufacture ∧ !s.fuse.identity then
      let (k, s) := draw s 32
      { s with led.ident := some k, fuse.identity := true }
    else s) = u at h ⊢
  dsimp only
  split
  · exact h
  · exact Kept.set_sec h (kM.mem (by decide))

theorem startBoot_kept {kS s : State} {u : StartUp} (kH : Kept M kS s)
    (kM : Within [.fresh, .led, .lcs, .sec, .cpt, .mod, .fuse] M := by exact Part.sub (by assumption) (by rfl)) :
    Kept M kS (startBoot s u) := by
  unfold startBoot
  repeat' first
    | with_reducible first
      | assumption | apply startIdentity_kept | refine Part.sub kM ?_
    | intro _ | dsimp only | (show Part.subb _ _ = _; rfl) | (show Membership.mem (γ := List Part) _ _; decide) | (show restore _ _ _ = _; rfl)
    | with_reducible first
      | refine Kept.set_lcs ?_ (kM.mem ?_) | refine Kept.set_cpt ?_ (kM.mem ?_) | refine Kept.set_mod ?_ (kM.mem ?_)
      | refine Kept.upd ?_ kM ?_

theorem stuck_kept {kS s : State} {step : Nat} (kH : Kept M kS s)
    (kM : Within [.mod] M := by exact Part.sub (by assumption) (by rfl)) :
    Kept M kS (stuck s step) := by
  unfold stuck
  repeat' first
    | with_reducible first
      | assumption | refine Part.sub kM ?_
    | intro _ | dsimp only | (show Part.subb _ _ = _; rfl) | (show Membership.mem (γ := List Part) _ _; decide)
    | with_reducible first
      | refine Kept.set_mod ?_ (kM.mem ?_)

theorem startRepairs_kept {kS s : State} (kH : Kept M kS s)
    (kM : Within [.mc, .phys, .int, .ptn, .ctx, .led, .lcs, .i3c] M := by exact Part.sub (by assumption) (by rfl)) :
    Kept M kS (startRepairs s) := by
  unfold startRepairs
  repeat' first
    | with_reducible first
      | assumption | contradiction | apply forEach_kept | apply modPhys_kept | apply applyReps_kept
      | apply holdCluster_kept | refine Kept.of_fst ‹_› ?_ | refine Kept.of_snd ‹_› ?_ | refine Part.sub kM ?_
    | split | intro _ | dsimp only | (show Part.subb _ _ = _; rfl)

theorem startBist_kept {kS s : State} {u : StartUp} (kH : Kept M kS s)
    (kM : Within [.mc, .phys, .int, .ptn, .ctx, .fab, .led, .lcs, .mod, .tst, .i3c] M := by exact Part.sub (by assumption) (by rfl)) :
    Kept M kS (startBist s u) := by
  unfold startBist
  repeat' first
    | with_reducible first
      | assumption | apply forEach_kept | apply modFab_kept | apply testResults_kept | apply startRepairs_kept
      | refine Part.sub kM ?_
    | intro _ | dsimp only | (show Part.subb _ _ = _; rfl) | (show Membership.mem (γ := List Part) _ _; decide) | (show restore _ _ _ = _; rfl)
    | with_reducible first
      | refine Kept.set_mod ?_ (kM.mem ?_) | refine Kept.set_tst ?_ (kM.mem ?_) | refine Kept.upd ?_ kM ?_

theorem startSyllabus_kept {kS s : State} (kH : Kept M kS s)
    (kM : Within [.mc, .core, .int, .rc, .ptn, .ctx, .syl, .keys, .vat, .i3c] M := by exact Part.sub (by assumption) (by rfl)) :
    Kept M kS (startSyllabus s) := by
  unfold startSyllabus
  repeat' first
    | with_reducible first
      | assumption | contradiction | apply raise_kept | apply bringModule_kept | refine Kept.of_fst ‹_› ?_
      | refine Kept.of_snd ‹_› ?_ | refine Part.sub kM ?_
    | split | intro _ | dsimp only | (show Part.subb _ _ = _; rfl)

theorem openHouseStart_kept {kS s : State} (kH : Kept M kS s)
    (kM : Within [.mc, .core, .int, .rc, .ptn, .ctx, .syl, .keys, .vat, .i3c] M := by exact Part.sub (by assumption) (by rfl)) :
    Kept M kS (openHouseStart s) := by
  unfold openHouseStart
  repeat' first
    | with_reducible first
      | assumption | apply setPtnState_kept | refine Part.sub kM ?_
    | intro _ | dsimp only | (show Part.subb _ _ = _; rfl) | (show Membership.mem (γ := List Part) _ _; decide) | (show restore _ _ _ = _; rfl)
    | with_reducible first
      | refine Kept.set_syl ?_ (kM.mem ?_) | refine Kept.set_keys ?_ (kM.mem ?_) | refine Kept.set_vat ?_ (kM.mem ?_)
      | refine Kept.upd ?_ kM ?_

theorem startReady_kept {kS s : State} {u : StartUp} (kH : Kept M kS s)
    (kM : Within [.mc, .core, .int, .rc, .ptn, .ctx, .syl, .keys, .mod, .vat, .i3c] M := by exact Part.sub (by assumption) (by rfl)) :
    Kept M kS (startReady s u) := by
  unfold startReady
  repeat' first
    | with_reducible first
      | assumption | apply ibi_kept | apply openHouseStart_kept | refine Part.sub kM ?_
    | split | intro _ | dsimp only | (show Part.subb _ _ = _; rfl) | (show Membership.mem (γ := List Part) _ _; decide)
    | with_reducible first
      | refine Kept.set_mod ?_ (kM.mem ?_)

theorem fitGens_kept {kS : State} (kM : Within [.snp] M := by exact Part.sub (by assumption) (by rfl)) : ∀ {n : Nat} {s : State}
    {m :
    Bool}, Kept M kS s → Kept M kS (fitGens n s m)
  | 0, _, _, h => h
  | n + 1, s, m, h => by
    unfold fitGens
    split
    · exact h
    · refine fitGens_kept (Part.sub kM rfl) ?_
      exact Kept.set_snp h (kM.mem (by decide))

theorem startTail_kept {kS s : State} {u : StartUp} {settings : State → State} (kH : Kept M kS s)
    (h_settings : ∀ x0, Kept M kS x0 → Kept M kS (settings x0))
    (kM : Within [.mc, .core, .phys, .int, .rc, .ptn, .ctx, .syl, .keys, .fab, .led, .lcs, .mod, .vat, .tst, .snp, .i3c] M := by exact Part.sub (by assumption) (by rfl)) :
    Kept M kS (startTail s u settings) := by
  unfold startTail
  repeat' first
    | with_reducible first
      | assumption | apply h_settings | apply stuck_kept | apply startBist_kept | apply startSyllabus_kept
      | apply startReady_kept | apply fitGens_kept | refine Part.sub kM ?_
    | split | intro _ | dsimp only | (show Part.subb _ _ = _; rfl)

theorem startLinks_kept {kS s : State} {u : StartUp} (kH : Kept M kS s)
    (kM : Within [.mc, .int, .ptn, .ctx, .bell, .mod, .i3c] M := by exact Part.sub (by assumption) (by rfl)) :
    Kept M kS (startLinks s u) := by
  unfold startLinks
  repeat' first
    | with_reducible first
      | assumption | contradiction | apply forEach_kept | apply raise_kept | apply stuck_kept | refine Kept.of_fst ‹_› ?_
      | refine Kept.of_snd ‹_› ?_ | refine Part.sub kM ?_
    | split | intro _ | dsimp only | (show Part.subb _ _ = _; rfl) | (show Membership.mem (γ := List Part) _ _; decide) | (show restore _ _ _ = _; rfl)
    | with_reducible first
      | refine Kept.set_mc ?_ (kM.mem ?_) | refine Kept.set_bell ?_ (kM.mem ?_) | refine Kept.upd ?_ kM ?_

theorem startUp_kept {kS s : State} {u : StartUp} {rails recovery : Bool} (kH : Kept M kS s)
    (kM : Within [.fresh, .mc, .core, .phys, .int, .rc, .ptn, .ctx, .prs, .bell, .syl, .keys, .fab, .led, .lcs, .sec, .cpt, .mod, .pwr, .vat, .tst, .snp, .fuse, .i3c] M := by exact Part.sub (by assumption) (by rfl)) :
    Kept M kS (startUp s u rails recovery) := by
  unfold startUp
  repeat' first
    | with_reducible first
      | assumption | contradiction | apply raise_kept | apply loadBank_kept | apply startBoot_kept | apply stuck_kept
      | apply startTail_kept | apply startLinks_kept | refine Kept.of_fst ‹_› ?_ | refine Kept.of_snd ‹_› ?_
      | refine Part.sub kM ?_
    | split | intro _ | dsimp only | (show Part.subb _ _ = _; rfl) | (show Membership.mem (γ := List Part) _ _; decide) | (show restore _ _ _ = _; rfl)
    | with_reducible first
      | refine Kept.set_sec ?_ (kM.mem ?_) | refine Kept.set_mod ?_ (kM.mem ?_) | refine Kept.set_pwr ?_ (kM.mem ?_)
      | refine Kept.upd ?_ kM ?_

theorem moduleReset_kept {kS s : State} {u : StartUp} {d : RstDue} (kH : Kept M kS s)
    (kM : Within [.fresh, .cyc, .mem, .memKey, .memErr, .tags, .resv, .mc, .core, .phys, .int, .rc, .ptn, .ctx, .brn, .prs, .bell, .syl, .keys, .fab, .xf, .led, .lcs, .sec, .cpt, .ses, .mod, .pwr, .subf, .vat, .tst, .snp, .oh, .fuse, .flash, .tap, .i3c] M := by exact Part.sub (by assumption) (by rfl)) :
    Kept M kS (moduleReset s u d) := by
  unfold moduleReset
  repeat' first
    | with_reducible first
      | assumption | apply bareState_kept | apply nextEpochs_kept | apply startUp_kept | refine Part.sub kM ?_
    | split | intro _ | dsimp only | (show Part.subb _ _ = _; rfl) | (show Membership.mem (γ := List Part) _ _; decide)
    | with_reducible first
      | refine Kept.set_mod ?_ (kM.mem ?_)

theorem warmSettings_kept {kS s : State} {vals : List (Setting × Nat)} (kH : Kept M kS s)
    (kM : Within [.mc, .int, .rc, .ptn, .ctx, .prs, .bell, .fab, .led, .lcs, .sec, .pwr, .vat, .snp, .i3c] M := by exact Part.sub (by assumption) (by rfl)) :
    Kept M kS (warmSettings vals s) := by
  unfold warmSettings
  repeat' first
    | with_reducible first
      | assumption | contradiction | apply forEach_kept | apply settingPut_kept | apply applyPending_kept
      | apply settingLoad_kept | apply settingDefaults_kept | refine Kept.of_fst ‹_› ?_ | refine Kept.of_snd ‹_› ?_
      | apply getD_kept | refine Part.sub kM ?_
    | split | intro _ | dsimp only | (show Part.subb _ _ = _; rfl) | (show Membership.mem (γ := List Part) _ _; decide) | (show restore _ _ _ = _; rfl)
    | with_reducible first
      | refine Kept.set_lcs ?_ (kM.mem ?_) | refine Kept.set_snp ?_ (kM.mem ?_) | refine Kept.upd ?_ kM ?_

theorem warmReset_kept {kS s : State} {u : StartUp} (kH : Kept M kS s)
    (kM : Within [.fresh, .cyc, .mem, .memKey, .memErr, .tags, .resv, .mc, .core, .phys, .int, .rc, .ptn, .ctx, .brn, .prs, .bell, .syl, .keys, .fab, .xf, .led, .lcs, .sec, .cpt, .ses, .mod, .pwr, .subf, .vat, .tst, .snp, .oh, .fuse, .flash, .tap, .i3c] M := by exact Part.sub (by assumption) (by rfl)) :
    Kept M kS (warmReset s u) := by
  unfold warmReset
  repeat' first
    | with_reducible first
      | assumption | apply bareState_kept | apply nextEpochs_kept | apply startTail_kept | apply warmSettings_kept
      | refine Part.sub kM ?_
    | intro _ | dsimp only | (show Part.subb _ _ = _; rfl) | (show Membership.mem (γ := List Part) _ _; decide) | (show restore _ _ _ = _; rfl)
    | with_reducible first
      | refine Kept.set_int ?_ (kM.mem ?_) | refine Kept.set_bell ?_ (kM.mem ?_) | refine Kept.set_lcs ?_ (kM.mem ?_)
      | refine Kept.set_sec ?_ (kM.mem ?_) | refine Kept.set_cpt ?_ (kM.mem ?_) | refine Kept.set_mod ?_ (kM.mem ?_)
      | refine Kept.set_pwr ?_ (kM.mem ?_) | refine Kept.upd ?_ kM ?_

theorem holdParts_kept {kS s : State} (kH : Kept M kS s)
    (kM : Within [.fresh, .cyc, .mem, .memKey, .memErr, .tags, .resv, .mc, .core, .phys, .int, .rc, .ptn, .ctx, .brn, .prs, .bell, .syl, .keys, .fab, .xf, .led, .lcs, .sec, .cpt, .ses, .mod, .pwr, .subf, .vat, .tst, .snp, .oh, .fuse, .flash, .tap, .i3c] M := by exact Part.sub (by assumption) (by rfl)) :
    Kept M kS (holdParts s) := by
  unfold holdParts
  repeat' first
    | with_reducible first
      | assumption | apply bareState_kept | apply sameEpochs_kept | refine Part.sub kM ?_
    | intro _ | dsimp only | (show Part.subb _ _ = _; rfl) | (show Membership.mem (γ := List Part) _ _; decide) | (show restore _ _ _ = _; rfl)
    | with_reducible first
      | refine Kept.set_cyc ?_ (kM.mem ?_) | refine Kept.set_int ?_ (kM.mem ?_) | refine Kept.set_lcs ?_ (kM.mem ?_)
      | refine Kept.set_sec ?_ (kM.mem ?_) | refine Kept.set_cpt ?_ (kM.mem ?_) | refine Kept.set_ses ?_ (kM.mem ?_)
      | refine Kept.set_mod ?_ (kM.mem ?_) | refine Kept.set_pwr ?_ (kM.mem ?_) | refine Kept.upd ?_ kM ?_

theorem shutdown_kept {kS s : State} {tripped : Bool} (kH : Kept M kS s)
    (kM : Within [.fresh, .cyc, .mem, .memKey, .memErr, .tags, .resv, .mc, .core, .phys, .int, .rc, .ptn, .ctx, .brn, .prs, .bell, .syl, .keys, .fab, .xf, .led, .lcs, .sec, .cpt, .ses, .mod, .pwr, .subf, .vat, .tst, .snp, .oh, .fuse, .flash, .tap, .i3c] M := by exact Part.sub (by assumption) (by rfl)) :
    Kept M kS (shutdown s tripped) := by
  unfold shutdown
  repeat' first
    | with_reducible first
      | assumption | apply ibi_kept | apply holdParts_kept | refine Part.sub kM ?_
    | intro _ | dsimp only | (show Part.subb _ _ = _; rfl) | (show Membership.mem (γ := List Part) _ _; decide) | (show restore _ _ _ = _; rfl)
    | with_reducible first
      | refine Kept.set_mod ?_ (kM.mem ?_) | refine Kept.set_pwr ?_ (kM.mem ?_) | refine Kept.upd ?_ kM ?_

theorem startDue_kept {kS s : State} {u : StartUp} {f : RstDue → Bool} (kH : Kept M kS s)
    (kM : Within [.fresh, .cyc, .mem, .memKey, .memErr, .tags, .resv, .mc, .core, .phys, .int, .rc, .ptn, .ctx, .brn, .prs, .bell, .syl, .keys, .fab, .xf, .led, .lcs, .sec, .cpt, .ses, .mod, .pwr, .subf, .vat, .tst, .snp, .oh, .fuse, .flash, .tap, .i3c] M := by exact Part.sub (by assumption) (by rfl)) :
    Kept M kS (startDue s u f) := by
  unfold startDue
  repeat' first
    | with_reducible first
      | assumption | contradiction | apply moduleReset_kept | apply warmReset_kept | refine Kept.of_fst ‹_› ?_
      | refine Kept.of_snd ‹_› ?_ | refine Part.sub kM ?_
    | split | intro _ | dsimp only | (show Part.subb _ _ = _; rfl)

theorem abortEntries_kept {kS s : State} {es : List (Nat × Nat)} (kH : Kept M kS s)
    (kM : Within [.mc, .core, .int, .rc, .ptn, .ctx, .i3c] M := by exact Part.sub (by assumption) (by rfl)) :
    Kept M kS (abortEntries s es) := by
  unfold abortEntries
  repeat' first
    | with_reducible first
      | assumption | apply forEach_kept | apply doneAdd_kept | refine Part.sub kM ?_
    | intro _ | dsimp only | (show Part.subb _ _ = _; rfl)

theorem resetCore_kept {kS s : State} {hard : Bool} {n : Nat} (kH : Kept M kS s)
    (kM : Within [.resv, .mc, .core, .phys, .int, .rc, .ptn, .ctx, .prs, .xf, .i3c] M := by exact Part.sub (by assumption) (by rfl)) :
    Kept M kS (resetCore hard s n) := by
  unfold resetCore
  repeat' first
    | with_reducible first
      | assumption | contradiction | apply forEach_kept | apply modCore_kept | apply idleThread_kept
      | apply noMajority_kept | apply abortEntries_kept | refine Kept.of_fst ‹_› ?_ | refine Kept.of_snd ‹_› ?_
      | refine Part.sub kM ?_
    | split | intro _ | dsimp only | (show Part.subb _ _ = _; rfl) | (show Membership.mem (γ := List Part) _ _; decide) | (show restore _ _ _ = _; rfl)
    | with_reducible first
      | refine Kept.set_core ?_ (kM.mem ?_) | refine Kept.set_xf ?_ (kM.mem ?_) | refine Kept.upd ?_ kM ?_

theorem resetPress_kept {kS s : State} {r : Nat} (kH : Kept M kS s)
    (kM : Within [.mc, .core, .int, .rc, .ptn, .ctx, .prs, .i3c] M := by exact Part.sub (by assumption) (by rfl)) :
    Kept M kS (resetPress s r) := by
  unfold resetPress
  repeat' first
    | with_reducible first
      | assumption | contradiction | apply modPrs_kept | apply abortEntries_kept | refine Kept.of_fst ‹_› ?_
      | refine Kept.of_snd ‹_› ?_ | refine Part.sub kM ?_
    | split | intro _ | dsimp only | (show Part.subb _ _ = _; rfl)

theorem abortPartitions_kept {kS s : State} {k n : Nat} (kH : Kept M kS s)
    (kM : Within [.mc, .core, .int, .rc, .ptn, .ctx, .prs, .i3c] M := by exact Part.sub (by assumption) (by rfl)) :
    Kept M kS (abortPartitions s k n) := by
  unfold abortPartitions
  repeat' first
    | with_reducible first
      | assumption | apply forEach_kept | apply restartCtx_kept | apply abortLesson_kept | refine Part.sub kM ?_
    | split | intro _ | dsimp only | (show Part.subb _ _ = _; rfl)

theorem abortWaits_kept {kS s : State} {b : Nat} (kH : Kept M kS s)
    (kM : Within [.mc, .core, .int, .rc, .ptn, .ctx, .i3c] M := by exact Part.sub (by assumption) (by rfl)) :
    Kept M kS (abortWaits s b) := by
  unfold abortWaits
  repeat' first
    | with_reducible first
      | assumption | apply forEach_kept | apply answerOpen_kept | apply unreserve_kept | refine Part.sub kM ?_
    | intro _ | dsimp only | (show Part.subb _ _ = _; rfl) | (show Membership.mem (γ := List Part) _ _; decide)
    | with_reducible first
      | refine Kept.set_rc ?_ (kM.mem ?_)

theorem resetBank_kept {kS s : State} {b : Nat} (kH : Kept M kS s)
    (kM : Within [.mc, .core, .int, .rc, .ptn, .ctx, .i3c] M := by exact Part.sub (by assumption) (by rfl)) :
    Kept M kS (resetBank s b) := by
  unfold resetBank
  repeat' first
    | with_reducible first
      | assumption | apply forEach_kept | apply modCtx_kept | apply modSem_kept | apply modBar_kept | apply syncSend_kept
      | apply setHold_kept | apply abortWaits_kept | refine Part.sub kM ?_
    | split | intro _ | dsimp only | (show Part.subb _ _ = _; rfl) | (show Membership.mem (γ := List Part) _ _; decide)
    | with_reducible first
      | refine Kept.set_rc ?_ (kM.mem ?_)

theorem resetXdie1_kept {kS s : State} {bank : Bool} (kH : Kept M kS s)
    (kM : Within [.mc, .core, .int, .rc, .ptn, .ctx, .fab, .xf, .snp, .i3c] M := by exact Part.sub (by assumption) (by rfl)) :
    Kept M kS (resetXdie1 bank s) := by
  unfold resetXdie1
  repeat' first
    | with_reducible first
      | assumption | apply forEach_kept | apply modCtx_kept | apply stopRestore_kept | apply setHold_kept
      | apply modFab_kept | apply newLink_kept | apply failSends_kept | apply abortRouted_kept | apply resetBank_kept
      | refine Part.sub kM ?_
    | split | intro _ | dsimp only | (show Part.subb _ _ = _; rfl) | (show Membership.mem (γ := List Part) _ _; decide)
    | with_reducible first
      | refine Kept.set_snp ?_ (kM.mem ?_)

theorem clearChannels_kept {kS s : State} {lo n : Nat} (kH : Kept M kS s)
    (kM : Within [.mc] M := by exact Part.sub (by assumption) (by rfl)) :
    Kept M kS (clearChannels s lo n) := by
  unfold clearChannels
  repeat' first
    | with_reducible first
      | assumption | refine Part.sub kM ?_
    | intro _ | dsimp only | (show Part.subb _ _ = _; rfl) | (show Membership.mem (γ := List Part) _ _; decide)
    | with_reducible first
      | refine Kept.set_mc ?_ (kM.mem ?_)

theorem startReset_kept {kS s : State} {k t : Nat} (kH : Kept M kS s)
    (kM : Within [.mem, .memErr, .tags, .resv, .mc, .core, .phys, .int, .rc, .ptn, .ctx, .prs, .bell, .fab, .xf, .mod, .snp, .i3c] M := by exact Part.sub (by assumption) (by rfl)) :
    Kept M kS (startReset s k t) := by
  unfold startReset
  repeat' first
    | with_reducible first
      | assumption | contradiction | apply forEach_kept | apply clearSram_kept | apply clearRegion_kept
      | apply resetCore_kept | apply resetPress_kept | apply abortPartitions_kept | apply resetBank_kept
      | apply resetXdie1_kept | apply clearChannels_kept | refine Kept.of_fst ‹_› ?_ | refine Kept.of_snd ‹_› ?_
      | refine Part.sub kM ?_
    | split | intro _ | dsimp only | (show Part.subb _ _ = _; rfl) | (show Membership.mem (γ := List Part) _ _; decide) | (show restore _ _ _ = _; rfl)
    | with_reducible first
      | refine Kept.set_bell ?_ (kM.mem ?_) | refine Kept.set_mod ?_ (kM.mem ?_) | refine Kept.upd ?_ kM ?_

theorem rstAnswer_kept {kS s : State} {st : Nat} (kH : Kept M kS s)
    (kM : Within [.mod] M := by exact Part.sub (by assumption) (by rfl)) :
    Kept M kS (rstAnswer s st) := by
  unfold rstAnswer
  repeat' first
    | with_reducible first
      | assumption | refine Part.sub kM ?_
    | intro _ | dsimp only | (show Part.subb _ _ = _; rfl) | (show Membership.mem (γ := List Part) _ _; decide)
    | with_reducible first
      | refine Kept.set_mod ?_ (kM.mem ?_)

theorem askReset_kept {kS s : State} {k t : Nat} (kH : Kept M kS s)
    (kM : Within [.mem, .memErr, .tags, .resv, .mc, .core, .phys, .int, .rc, .ptn, .ctx, .prs, .bell, .fab, .xf, .mod, .snp, .i3c] M := by exact Part.sub (by assumption) (by rfl)) :
    Kept M kS (askReset s k t) := by
  unfold askReset
  repeat' first
    | with_reducible first
      | assumption | apply startReset_kept | apply rstAnswer_kept | refine Part.sub kM ?_
    | split | intro _ | dsimp only | (show Part.subb _ _ = _; rfl) | (show Membership.mem (γ := List Part) _ _; decide) | (show restore _ _ _ = _; rfl)
    | with_reducible first
      | refine Kept.set_bell ?_ (kM.mem ?_) | refine Kept.set_mod ?_ (kM.mem ?_) | refine Kept.upd ?_ kM ?_

theorem askWhole_kept {kS s : State} {d : RstDue} (kH : Kept M kS s)
    (kM : Within [.mod] M := by exact Part.sub (by assumption) (by rfl)) :
    Kept M kS (askWhole s d) := by
  unfold askWhole
  repeat' first
    | with_reducible first
      | assumption | apply rstAnswer_kept | refine Part.sub kM ?_
    | split | intro _ | dsimp only | (show Part.subb _ _ = _; rfl) | (show Membership.mem (γ := List Part) _ _; decide)
    | with_reducible first
      | refine Kept.set_mod ?_ (kM.mem ?_)

theorem rstCmd_kept {kS s : State} {who : Req} {word : Nat} (kH : Kept M kS s)
    (kM : Within [.mem, .memErr, .tags, .resv, .mc, .core, .phys, .int, .rc, .ptn, .ctx, .prs, .bell, .fab, .xf, .mod, .snp, .i3c] M := by exact Part.sub (by assumption) (by rfl)) :
    Kept M kS (rstCmd s who word) := by
  unfold rstCmd
  repeat' first
    | with_reducible first
      | assumption | contradiction | apply rstAnswer_kept | apply askReset_kept | apply askWhole_kept
      | refine Kept.of_fst ‹_› ?_ | refine Kept.of_snd ‹_› ?_ | refine Part.sub kM ?_
    | split | intro _ | dsimp only | (show Part.subb _ _ = _; rfl)

theorem rstRow_kept {kS s : State} {who : Req} {k t : Nat} (kH : Kept M kS s)
    (kM : Within [.mem, .memErr, .tags, .resv, .mc, .core, .phys, .int, .rc, .ptn, .ctx, .prs, .bell, .fab, .xf, .mod, .snp, .i3c] M := by exact Part.sub (by assumption) (by rfl)) :
    Kept M kS (rstRow s who k t) := by
  unfold rstRow
  repeat' first
    | with_reducible first
      | assumption | apply rstCmd_kept | refine Part.sub kM ?_
    | split | intro _ | dsimp only | (show Part.subb _ _ = _; rfl)

theorem wholeRow_kept {kS s : State} {who : Req} {k t : Nat} {u : StartUp} {f : RstDue → Bool} (kH : Kept M kS s)
    (kM : Within [.fresh, .cyc, .mem, .memKey, .memErr, .tags, .resv, .mc, .core, .phys, .int, .rc, .ptn, .ctx, .brn, .prs, .bell, .syl, .keys, .fab, .xf, .led, .lcs, .sec, .cpt, .ses, .mod, .pwr, .subf, .vat, .tst, .snp, .oh, .fuse, .flash, .tap, .i3c] M := by exact Part.sub (by assumption) (by rfl)) :
    Kept M kS (wholeRow s who k t u f) := by
  unfold wholeRow
  repeat' first
    | with_reducible first
      | assumption | contradiction | apply startDue_kept | apply rstRow_kept | refine Kept.of_fst ‹_› ?_
      | refine Kept.of_snd ‹_› ?_ | refine Part.sub kM ?_
    | split | intro _ | dsimp only | (show Part.subb _ _ = _; rfl)

theorem execResetModule_kept {kS s kT : State} {who : Req} {u : StartUp} (kH : Kept M kS s)
    (kE : execResetModule who u s = .next kT)
    (kM : Within [.fresh, .cyc, .mem, .memKey, .memErr, .tags, .resv, .mc, .core, .phys, .int, .rc, .ptn, .ctx, .brn, .prs, .bell, .syl, .keys, .fab, .xf, .led, .lcs, .sec, .cpt, .ses, .mod, .pwr, .subf, .vat, .tst, .snp, .oh, .fuse, .flash, .tap, .i3c] M := by exact Part.sub (by assumption) (by rfl)) :
    Kept M kS kT := by
  unfold execResetModule at kE
  repeat' first | contradiction | (injection kE with kE; subst kE) | split at kE | dsimp only at kE
  repeat' first
    | with_reducible first
      | assumption | apply wholeRow_kept | refine Part.sub kM ?_
    | intro _ | dsimp only | (show Part.subb _ _ = _; rfl)

theorem execResetWarm_kept {kS s kT : State} {who : Req} {u : StartUp} (kH : Kept M kS s) (kE : execResetWarm who u s = .next kT)
    (kM : Within [.fresh, .cyc, .mem, .memKey, .memErr, .tags, .resv, .mc, .core, .phys, .int, .rc, .ptn, .ctx, .brn, .prs, .bell, .syl, .keys, .fab, .xf, .led, .lcs, .sec, .cpt, .ses, .mod, .pwr, .subf, .vat, .tst, .snp, .oh, .fuse, .flash, .tap, .i3c] M := by exact Part.sub (by assumption) (by rfl)) :
    Kept M kS kT := by
  unfold execResetWarm at kE
  repeat' first | contradiction | (injection kE with kE; subst kE) | split at kE | dsimp only at kE
  repeat' first
    | with_reducible first
      | assumption | apply wholeRow_kept | refine Part.sub kM ?_
    | intro _ | dsimp only | (show Part.subb _ _ = _; rfl)

theorem execResetDie_kept {kS s kT : State} {who : Req} {target : Nat} {u : StartUp} (kH : Kept M kS s)
    (kE : execResetDie who target u s = .next kT)
    (kM : Within [.fresh, .cyc, .mem, .memKey, .memErr, .tags, .resv, .mc, .core, .phys, .int, .rc, .ptn, .ctx, .brn, .prs, .bell, .syl, .keys, .fab, .xf, .led, .lcs, .sec, .cpt, .ses, .mod, .pwr, .subf, .vat, .tst, .snp, .oh, .fuse, .flash, .tap, .i3c] M := by exact Part.sub (by assumption) (by rfl)) :
    Kept M kS kT := by
  unfold execResetDie at kE
  repeat' first | contradiction | (injection kE with kE; subst kE) | split at kE | dsimp only at kE
  repeat' first
    | with_reducible first
      | assumption | apply rstRow_kept | apply wholeRow_kept | refine Part.sub kM ?_
    | split | intro _ | dsimp only | (show Part.subb _ _ = _; rfl)

theorem execResetRegion_kept {kS s kT : State} {who : Req} {target : Nat} (kH : Kept M kS s)
    (kE : execResetRegion who target s = .next kT)
    (kM : Within [.mem, .memErr, .tags, .resv, .mc, .core, .phys, .int, .rc, .ptn, .ctx, .prs, .bell, .fab, .xf, .mod, .snp, .i3c] M := by exact Part.sub (by assumption) (by rfl)) :
    Kept M kS kT := by
  unfold execResetRegion at kE
  repeat' first | contradiction | (injection kE with kE; subst kE) | split at kE | dsimp only at kE
  repeat' first
    | with_reducible first
      | assumption | apply rstRow_kept | refine Part.sub kM ?_
    | intro _ | dsimp only | (show Part.subb _ _ = _; rfl)

theorem execResetCore_kept {kS s kT : State} {who : Req} {target : Nat} (kH : Kept M kS s)
    (kE : execResetCore who target s = .next kT)
    (kM : Within [.mem, .memErr, .tags, .resv, .mc, .core, .phys, .int, .rc, .ptn, .ctx, .prs, .bell, .fab, .xf, .mod, .snp, .i3c] M := by exact Part.sub (by assumption) (by rfl)) :
    Kept M kS kT := by
  unfold execResetCore at kE
  repeat' first | contradiction | (injection kE with kE; subst kE) | split at kE | dsimp only at kE
  repeat' first
    | with_reducible first
      | assumption | apply rstRow_kept | refine Part.sub kM ?_
    | intro _ | dsimp only | (show Part.subb _ _ = _; rfl)

theorem execResetBank_kept {kS s kT : State} {who : Req} {target : Nat} (kH : Kept M kS s)
    (kE : execResetBank who target s = .next kT)
    (kM : Within [.mem, .memErr, .tags, .resv, .mc, .core, .phys, .int, .rc, .ptn, .ctx, .prs, .bell, .fab, .xf, .mod, .snp, .i3c] M := by exact Part.sub (by assumption) (by rfl)) :
    Kept M kS kT := by
  unfold execResetBank at kE
  repeat' first | contradiction | (injection kE with kE; subst kE) | split at kE | dsimp only at kE
  repeat' first
    | with_reducible first
      | assumption | apply rstRow_kept | refine Part.sub kM ?_
    | intro _ | dsimp only | (show Part.subb _ _ = _; rfl)

theorem execResetDeferredStart_kept {kS s kT : State} {kind target : Nat} (kH : Kept M kS s)
    (kE : execResetDeferredStart kind target s = .next kT)
    (kM : Within [.mem, .memErr, .tags, .resv, .mc, .core, .phys, .int, .rc, .ptn, .ctx, .prs, .bell, .fab, .xf, .mod, .snp, .i3c] M := by exact Part.sub (by assumption) (by rfl)) :
    Kept M kS kT := by
  unfold execResetDeferredStart at kE
  repeat' first | contradiction | (injection kE with kE; subst kE) | split at kE | dsimp only at kE
  repeat' first
    | with_reducible first
      | assumption | contradiction | apply startReset_kept | refine Kept.of_fst ‹_› ?_ | refine Kept.of_snd ‹_› ?_
      | refine Part.sub kM ?_
    | split | intro _ | dsimp only | (show Part.subb _ _ = _; rfl) | (show Membership.mem (γ := List Part) _ _; decide)
    | with_reducible first
      | refine Kept.set_mod ?_ (kM.mem ?_)

theorem execResetComplete_kept {kS s kT : State} {kind target : Nat} {results : List TestRes} (kH : Kept M kS s)
    (kE : execResetComplete kind target results s = .next kT)
    (kM : Within [.mc, .core, .phys, .int, .rc, .ptn, .ctx, .fab, .led, .lcs, .mod, .tst, .i3c] M := by exact Part.sub (by assumption) (by rfl)) :
    Kept M kS kT := by
  unfold execResetComplete at kE
  repeat' first | contradiction | (injection kE with kE; subst kE) | split at kE | dsimp only at kE
  repeat' first
    | with_reducible first
      | assumption | apply forEach_kept | apply clearHold_kept | apply modFab_kept | apply testResults_kept
      | refine Part.sub kM ?_
    | split | intro _ | dsimp only | (show Part.subb _ _ = _; rfl) | (show Membership.mem (γ := List Part) _ _; decide) | (show restore _ _ _ = _; rfl)
    | with_reducible first
      | refine Kept.set_mod ?_ (kM.mem ?_) | refine Kept.set_tst ?_ (kM.mem ?_) | refine Kept.upd ?_ kM ?_

theorem execRecoveryReset_kept {kS s kT : State} {u : StartUp} (kH : Kept M kS s) (kE : execRecoveryReset u s = .next kT)
    (kM : Within [.fresh, .cyc, .mem, .memKey, .memErr, .tags, .resv, .mc, .core, .phys, .int, .rc, .ptn, .ctx, .brn, .prs, .bell, .syl, .keys, .fab, .xf, .led, .lcs, .sec, .cpt, .ses, .mod, .pwr, .subf, .vat, .tst, .snp, .oh, .fuse, .flash, .tap, .i3c] M := by exact Part.sub (by assumption) (by rfl)) :
    Kept M kS kT := by
  unfold execRecoveryReset at kE
  repeat' first | contradiction | (injection kE with kE; subst kE) | split at kE | dsimp only at kE
  repeat' first
    | with_reducible first
      | assumption | apply startDue_kept | refine Part.sub kM ?_
    | intro _ | dsimp only | (show Part.subb _ _ = _; rfl)

theorem execLcsRecover_kept {kS s kT : State} {who : Req} {u : StartUp} (kH : Kept M kS s)
    (kE : execLcsRecover who u s = .next kT)
    (kM : Within [.fresh, .cyc, .mem, .memKey, .memErr, .tags, .resv, .mc, .core, .phys, .int, .rc, .ptn, .ctx, .brn, .prs, .bell, .syl, .keys, .fab, .xf, .led, .lcs, .sec, .cpt, .ses, .mod, .pwr, .subf, .vat, .tst, .snp, .oh, .fuse, .flash, .tap, .i3c] M := by exact Part.sub (by assumption) (by rfl)) :
    Kept M kS kT := by
  unfold execLcsRecover at kE
  repeat' first | contradiction | (injection kE with kE; subst kE) | split at kE | dsimp only at kE
  repeat' first
    | with_reducible first
      | assumption | contradiction | apply lcsRow_kept | apply startDue_kept | refine Kept.of_fst ‹_› ?_
      | refine Kept.of_snd ‹_› ?_ | refine Part.sub kM ?_
    | split | intro _ | dsimp only | (show Part.subb _ _ = _; rfl)

/-! ### Power -/

theorem execPowerInputApplied_kept {kS s kT : State} {vin : Int} {bounce : Bool} (kH : Kept M kS s)
    (kE : execPowerInputApplied vin bounce s = .next kT) (kM : Within [.pwr] M := by exact Part.sub (by assumption) (by rfl)) :
    Kept M kS kT := by
  unfold execPowerInputApplied at kE
  repeat' first | contradiction | (injection kE with kE; subst kE) | split at kE | dsimp only at kE
  repeat' first
    | with_reducible first
      | assumption | refine Part.sub kM ?_
    | split | intro _ | dsimp only | (show Part.subb _ _ = _; rfl) | (show Membership.mem (γ := List Part) _ _; decide)
    | with_reducible first
      | refine Kept.set_pwr ?_ (kM.mem ?_)

theorem execPowerGood_kept {kS s kT : State} {u : StartUp} (kH : Kept M kS s) (kE : execPowerGood u s = .next kT)
    (kM : Within [.fresh, .mc, .core, .phys, .int, .rc, .ptn, .ctx, .prs, .bell, .syl, .keys, .fab, .led, .lcs, .sec, .cpt, .mod, .pwr, .vat, .tst, .snp, .fuse, .tap, .i3c] M := by exact Part.sub (by assumption) (by rfl)) :
    Kept M kS kT := by
  unfold execPowerGood at kE
  repeat' first | contradiction | (injection kE with kE; subst kE) | split at kE | dsimp only at kE
  repeat' first
    | with_reducible first
      | assumption | apply startUp_kept | refine Part.sub kM ?_
    | split | intro _ | dsimp only | (show Part.subb _ _ = _; rfl) | (show Membership.mem (γ := List Part) _ _; decide) | (show restore _ _ _ = _; rfl)
    | with_reducible first
      | refine Kept.set_mod ?_ (kM.mem ?_) | refine Kept.set_tap ?_ (kM.mem ?_) | refine Kept.upd ?_ kM ?_

theorem powerLost_kept {kS s : State} (kH : Kept M kS s)
    (kM : Within [.fresh, .cyc, .mem, .memKey, .memErr, .tags, .resv, .mc, .core, .phys, .int, .rc, .ptn, .ctx, .brn, .prs, .bell, .syl, .keys, .fab, .xf, .led, .lcs, .sec, .cpt, .ses, .mod, .pwr, .subf, .vat, .tst, .snp, .oh, .fuse, .flash, .tap, .i3c] M := by exact Part.sub (by assumption) (by rfl)) :
    Kept M kS (powerLost s) :=
  kH.change (samePart_of_restore (by rfl)) kM rfl (fun _ => rfl) (FusesKept.refl _) (le_refl _)

theorem sampled_kept {kS s : State} {v i : Nat} (kH : Kept M kS s)
    (kM : Within [.pwr] M := by exact Part.sub (by assumption) (by rfl)) :
    Kept M kS (sampled s v i) := by
  unfold sampled
  repeat' first
    | with_reducible first
      | assumption | refine Part.sub kM ?_
    | intro _ | dsimp only | (show Part.subb _ _ = _; rfl) | (show Membership.mem (γ := List Part) _ _; decide)
    | with_reducible first
      | refine Kept.set_pwr ?_ (kM.mem ?_)

theorem inputRange_kept {kS s : State} (kH : Kept M kS s)
    (kM : Within [.mc, .int, .ptn, .ctx, .pwr, .i3c] M := by exact Part.sub (by assumption) (by rfl)) :
    Kept M kS (inputRange s) := by
  unfold inputRange
  repeat' first
    | with_reducible first
      | assumption | apply raise_kept | refine Part.sub kM ?_
    | split | intro _ | dsimp only | (show Part.subb _ _ = _; rfl) | (show Membership.mem (γ := List Part) _ _; decide)
    | with_reducible first
      | refine Kept.set_pwr ?_ (kM.mem ?_)

theorem inputSample_kept {kS s : State} {v i : Nat} (kH : Kept M kS s)
    (kM : Within [.fresh, .cyc, .mem, .memKey, .memErr, .tags, .resv, .mc, .core, .phys, .int, .rc, .ptn, .ctx, .brn, .prs, .bell, .syl, .keys, .fab, .xf, .led, .lcs, .sec, .cpt, .ses, .mod, .pwr, .subf, .vat, .tst, .snp, .oh, .fuse, .flash, .tap, .i3c] M := by exact Part.sub (by assumption) (by rfl)) :
    Kept M kS (inputSample s v i) := by
  unfold inputSample
  repeat' first
    | with_reducible first
      | assumption | apply shutdown_kept | apply powerLost_kept | apply sampled_kept | apply inputRange_kept
      | refine Part.sub kM ?_
    | split | intro _ | dsimp only | (show Part.subb _ _ = _; rfl) | (show Membership.mem (γ := List Part) _ _; decide)
    | with_reducible first
      | refine Kept.set_pwr ?_ (kM.mem ?_)

theorem execInputSample_kept {kS s kT : State} {vin : Int} {iin : Nat} (kH : Kept M kS s)
    (kE : execInputSample vin iin s = .next kT)
    (kM : Within [.fresh, .cyc, .mem, .memKey, .memErr, .tags, .resv, .mc, .core, .phys, .int, .rc, .ptn, .ctx, .brn, .prs, .bell, .syl, .keys, .fab, .xf, .led, .lcs, .sec, .cpt, .ses, .mod, .pwr, .subf, .vat, .tst, .snp, .oh, .fuse, .flash, .tap, .i3c] M := by exact Part.sub (by assumption) (by rfl)) :
    Kept M kS kT := by
  unfold execInputSample at kE
  repeat' first | contradiction | (injection kE with kE; subst kE) | split at kE | dsimp only at kE
  repeat' first
    | with_reducible first
      | assumption | apply inputSample_kept | refine Part.sub kM ?_
    | split | intro _ | dsimp only | (show Part.subb _ _ = _; rfl)

theorem execRailFault_kept {kS s kT : State} {order : Nat} (kH : Kept M kS s) (kE : execRailFault order s = .next kT)
    (kM : Within [.fresh, .cyc, .mem, .memKey, .memErr, .tags, .resv, .mc, .core, .phys, .int, .rc, .ptn, .ctx, .brn, .prs, .bell, .syl, .keys, .fab, .xf, .led, .lcs, .sec, .cpt, .ses, .mod, .pwr, .subf, .vat, .tst, .snp, .oh, .fuse, .flash, .tap, .i3c] M := by exact Part.sub (by assumption) (by rfl)) :
    Kept M kS kT := by
  unfold execRailFault at kE
  repeat' first | contradiction | (injection kE with kE; subst kE) | split at kE | dsimp only at kE
  repeat' first
    | with_reducible first
      | assumption | apply raise_kept | apply shutdown_kept | refine Part.sub kM ?_
    | split | intro _ | dsimp only | (show Part.subb _ _ = _; rfl)

theorem warnStart_kept {kS s : State} (kH : Kept M kS s)
    (kM : Within [.mc, .int, .ptn, .ctx, .pwr, .i3c] M := by exact Part.sub (by assumption) (by rfl)) :
    Kept M kS (warnStart s) := by
  unfold warnStart
  repeat' first
    | with_reducible first
      | assumption | apply ibi_kept | apply raise_kept | refine Part.sub kM ?_
    | intro _ | dsimp only | (show Part.subb _ _ = _; rfl) | (show Membership.mem (γ := List Part) _ _; decide)
    | with_reducible first
      | refine Kept.set_pwr ?_ (kM.mem ?_)

theorem warnRun_kept {kS s : State} {ts : List Nat} (kH : Kept M kS s)
    (kM : Within [.pwr] M := by exact Part.sub (by assumption) (by rfl)) :
    Kept M kS (warnRun s ts) := by
  unfold warnRun
  repeat' first
    | with_reducible first
      | assumption | refine Part.sub kM ?_
    | split | intro _ | dsimp only | (show Part.subb _ _ = _; rfl) | (show Membership.mem (γ := List Part) _ _; decide)
    | with_reducible first
      | refine Kept.set_pwr ?_ (kM.mem ?_)

theorem thermalSample_kept {kS s : State} {ts : List Nat} (kH : Kept M kS s)
    (kM : Within [.fresh, .cyc, .mem, .memKey, .memErr, .tags, .resv, .mc, .core, .phys, .int, .rc, .ptn, .ctx, .brn, .prs, .bell, .syl, .keys, .fab, .xf, .led, .lcs, .sec, .cpt, .ses, .mod, .pwr, .subf, .vat, .tst, .snp, .oh, .fuse, .flash, .tap, .i3c] M := by exact Part.sub (by assumption) (by rfl)) :
    Kept M kS (thermalSample s ts) := by
  unfold thermalSample
  repeat' first
    | with_reducible first
      | assumption | contradiction | apply raise_kept | apply shutdown_kept | apply warnStart_kept | apply warnRun_kept
      | refine Kept.of_fst ‹_› ?_ | refine Kept.of_snd ‹_› ?_ | refine Part.sub kM ?_
    | split | intro _ | dsimp only | (show Part.subb _ _ = _; rfl) | (show Membership.mem (γ := List Part) _ _; decide)
    | with_reducible first
      | refine Kept.set_pwr ?_ (kM.mem ?_)

theorem execThermalSample_kept {kS s kT : State} {temps : List Nat} (kH : Kept M kS s) (kE : execThermalSample temps s = .next kT)
    (kM : Within [.fresh, .cyc, .mem, .memKey, .memErr, .tags, .resv, .mc, .core, .phys, .int, .rc, .ptn, .ctx, .brn, .prs, .bell, .syl, .keys, .fab, .xf, .led, .lcs, .sec, .cpt, .ses, .mod, .pwr, .subf, .vat, .tst, .snp, .oh, .fuse, .flash, .tap, .i3c] M := by exact Part.sub (by assumption) (by rfl)) :
    Kept M kS kT := by
  unfold execThermalSample at kE
  repeat' first | contradiction | (injection kE with kE; subst kE) | split at kE | dsimp only at kE
  repeat' first
    | with_reducible first
      | assumption | apply thermalSample_kept | refine Part.sub kM ?_
    | split | intro _ | dsimp only | (show Part.subb _ _ = _; rfl)

theorem execModResetNAssert_kept {kS s kT : State} {us : Nat} {taken : Bool} (kH : Kept M kS s)
    (kE : execModResetNAssert us taken s = .next kT)
    (kM : Within [.fresh, .cyc, .mem, .memKey, .memErr, .tags, .resv, .mc, .core, .phys, .int, .rc, .ptn, .ctx, .brn, .prs, .bell, .syl, .keys, .fab, .xf, .led, .lcs, .sec, .cpt, .ses, .mod, .pwr, .subf, .vat, .tst, .snp, .oh, .fuse, .flash, .tap, .i3c] M := by exact Part.sub (by assumption) (by rfl)) :
    Kept M kS kT := by
  unfold execModResetNAssert at kE
  repeat' first | contradiction | (injection kE with kE; subst kE) | split at kE | dsimp only at kE
  repeat' first
    | with_reducible first
      | assumption | apply holdParts_kept | refine Part.sub kM ?_
    | split | intro _ | dsimp only | (show Part.subb _ _ = _; rfl) | (show Membership.mem (γ := List Part) _ _; decide)
    | with_reducible first
      | refine Kept.set_mod ?_ (kM.mem ?_)

theorem execModResetNRelease_kept {kS s kT : State} {u : StartUp} (kH : Kept M kS s) (kE : execModResetNRelease u s = .next kT)
    (kM : Within [.fresh, .cyc, .mem, .memKey, .memErr, .tags, .resv, .mc, .core, .phys, .int, .rc, .ptn, .ctx, .brn, .prs, .bell, .syl, .keys, .fab, .xf, .led, .lcs, .sec, .cpt, .ses, .mod, .pwr, .subf, .vat, .tst, .snp, .oh, .fuse, .flash, .tap, .i3c] M := by exact Part.sub (by assumption) (by rfl)) :
    Kept M kS kT := by
  unfold execModResetNRelease at kE
  repeat' first | contradiction | (injection kE with kE; subst kE) | split at kE | dsimp only at kE
  repeat' first
    | with_reducible first
      | assumption | apply startUp_kept | apply moduleReset_kept | apply rstAnswer_kept | refine Part.sub kM ?_
    | split | intro _ | dsimp only | (show Part.subb _ _ = _; rfl) | (show Membership.mem (γ := List Part) _ _; decide)
    | with_reducible first
      | refine Kept.set_mod ?_ (kM.mem ?_)

theorem i3cOn_kept {kS s kT : State} {f : State → State} (kH : Kept M kS s) (h_f : ∀ x0, Kept M kS x0 → Kept M kS (f x0))
    (kE : i3cOn s f = .next kT) :
    Kept M kS kT := by
  unfold i3cOn at kE
  repeat' first | contradiction | (injection kE with kE; subst kE) | split at kE | dsimp only at kE
  repeat' first
    | with_reducible first
      | assumption | apply h_f
    | split | intro _ | dsimp only

theorem execEntdaa_kept {kS s kT : State} {addr : Nat} (kH : Kept M kS s) (kE : execEntdaa addr s = .next kT)
    (kM : Within [.i3c] M := by exact Part.sub (by assumption) (by rfl)) :
    Kept M kS kT := by
  unfold execEntdaa at kE
  refine i3cOn_kept kH ?_ kE
  repeat' first
    | with_reducible first
      | assumption | refine Part.sub kM ?_
    | split | intro _ | dsimp only | (show Part.subb _ _ = _; rfl) | (show Membership.mem (γ := List Part) _ _; decide)
    | with_reducible first
      | refine Kept.set_i3c ?_ (kM.mem ?_)

theorem execRstdaa_kept {kS s kT : State} (kH : Kept M kS s) (kE : execRstdaa s = .next kT)
    (kM : Within [.i3c] M := by exact Part.sub (by assumption) (by rfl)) :
    Kept M kS kT := by
  unfold execRstdaa at kE
  refine i3cOn_kept kH ?_ kE
  repeat' first
    | with_reducible first
      | assumption | refine Part.sub kM ?_
    | intro _ | dsimp only | (show Part.subb _ _ = _; rfl) | (show Membership.mem (γ := List Part) _ _; decide)
    | with_reducible first
      | refine Kept.set_i3c ?_ (kM.mem ?_)

theorem i3cTo_kept {kS s kT : State} {addr : Nat} {f : State → State} (kH : Kept M kS s)
    (h_f : ∀ x0, Kept M kS x0 → Kept M kS (f x0)) (kE : i3cTo s addr f = .next kT) :
    Kept M kS kT := by
  unfold i3cTo at kE
  refine i3cOn_kept kH ?_ kE
  repeat' first
    | with_reducible first
      | assumption | apply h_f
    | split | intro _ | dsimp only

theorem i3cAny_kept {kS s kT : State} {addr : Option Nat} {f : State → State} (kH : Kept M kS s)
    (h_f : ∀ x0, Kept M kS x0 → Kept M kS (f x0)) (kE : i3cAny s addr f = .next kT) :
    Kept M kS kT := by
  unfold i3cAny at kE
  refine i3cOn_kept kH ?_ kE
  repeat' first
    | with_reducible first
      | assumption | apply h_f
    | split | intro _ | dsimp only

theorem execSetnewda_kept {kS s kT : State} {addr new : Nat} (kH : Kept M kS s) (kE : execSetnewda addr new s = .next kT)
    (kM : Within [.i3c] M := by exact Part.sub (by assumption) (by rfl)) :
    Kept M kS kT := by
  unfold execSetnewda at kE
  refine i3cTo_kept kH ?_ kE
  repeat' first
    | with_reducible first
      | assumption | refine Part.sub kM ?_
    | intro _ | dsimp only | (show Part.subb _ _ = _; rfl) | (show Membership.mem (γ := List Part) _ _; decide)
    | with_reducible first
      | refine Kept.set_i3c ?_ (kM.mem ?_)

theorem execGetpid_kept {kS s kT : State} {addr : Nat} (kH : Kept M kS s) (kE : execGetpid addr s = .next kT)
    (kM : Within [.i3c] M := by exact Part.sub (by assumption) (by rfl)) :
    Kept M kS kT := by
  unfold execGetpid at kE
  refine i3cTo_kept kH ?_ kE
  repeat' first
    | with_reducible first
      | assumption | refine Part.sub kM ?_
    | intro _ | dsimp only | (show Part.subb _ _ = _; rfl) | (show Membership.mem (γ := List Part) _ _; decide)
    | with_reducible first
      | refine Kept.set_i3c ?_ (kM.mem ?_)

theorem execGetbcr_kept {kS s kT : State} {addr : Nat} (kH : Kept M kS s) (kE : execGetbcr addr s = .next kT)
    (kM : Within [.i3c] M := by exact Part.sub (by assumption) (by rfl)) :
    Kept M kS kT := by
  unfold execGetbcr at kE
  refine i3cTo_kept kH ?_ kE
  repeat' first
    | with_reducible first
      | assumption | refine Part.sub kM ?_
    | intro _ | dsimp only | (show Part.subb _ _ = _; rfl) | (show Membership.mem (γ := List Part) _ _; decide)
    | with_reducible first
      | refine Kept.set_i3c ?_ (kM.mem ?_)

theorem execGetdcr_kept {kS s kT : State} {addr : Nat} (kH : Kept M kS s) (kE : execGetdcr addr s = .next kT)
    (kM : Within [.i3c] M := by exact Part.sub (by assumption) (by rfl)) :
    Kept M kS kT := by
  unfold execGetdcr at kE
  refine i3cTo_kept kH ?_ kE
  repeat' first
    | with_reducible first
      | assumption | refine Part.sub kM ?_
    | intro _ | dsimp only | (show Part.subb _ _ = _; rfl) | (show Membership.mem (γ := List Part) _ _; decide)
    | with_reducible first
      | refine Kept.set_i3c ?_ (kM.mem ?_)

theorem execGetstatus_kept {kS s kT : State} {addr : Nat} (kH : Kept M kS s) (kE : execGetstatus addr s = .next kT)
    (kM : Within [.fresh, .i3c] M := by exact Part.sub (by assumption) (by rfl)) :
    Kept M kS kT := by
  unfold execGetstatus at kE
  refine i3cTo_kept kH ?_ kE
  repeat' first
    | with_reducible first
      | assumption | apply draw_kept | refine Kept.of_fst ‹_› ?_ | refine Kept.of_snd ‹_› ?_ | refine Part.sub kM ?_
    | split | intro _ | dsimp only | (show Part.subb _ _ = _; rfl) | (show Membership.mem (γ := List Part) _ _; decide)
    | with_reducible first
      | refine Kept.set_i3c ?_ (kM.mem ?_)

theorem execEnec_kept {kS s kT : State} {addr : Option Nat} (kH : Kept M kS s) (kE : execEnec addr s = .next kT)
    (kM : Within [.i3c] M := by exact Part.sub (by assumption) (by rfl)) :
    Kept M kS kT := by
  unfold execEnec at kE
  refine i3cAny_kept kH ?_ kE
  repeat' first
    | with_reducible first
      | assumption | refine Part.sub kM ?_
    | intro _ | dsimp only | (show Part.subb _ _ = _; rfl) | (show Membership.mem (γ := List Part) _ _; decide)
    | with_reducible first
      | refine Kept.set_i3c ?_ (kM.mem ?_)

theorem execDisec_kept {kS s kT : State} {addr : Option Nat} (kH : Kept M kS s) (kE : execDisec addr s = .next kT)
    (kM : Within [.i3c] M := by exact Part.sub (by assumption) (by rfl)) :
    Kept M kS kT := by
  unfold execDisec at kE
  refine i3cAny_kept kH ?_ kE
  repeat' first
    | with_reducible first
      | assumption | refine Part.sub kM ?_
    | intro _ | dsimp only | (show Part.subb _ _ = _; rfl) | (show Membership.mem (γ := List Part) _ _; decide)
    | with_reducible first
      | refine Kept.set_i3c ?_ (kM.mem ?_)

theorem execSetmrl_kept {kS s kT : State} {addr : Option Nat} {len : Nat} (kH : Kept M kS s)
    (kE : execSetmrl addr len s = .next kT) (kM : Within [.i3c] M := by exact Part.sub (by assumption) (by rfl)) :
    Kept M kS kT := by
  unfold execSetmrl at kE
  refine i3cAny_kept kH ?_ kE
  repeat' first
    | with_reducible first
      | assumption | refine Part.sub kM ?_
    | intro _ | dsimp only | (show Part.subb _ _ = _; rfl) | (show Membership.mem (γ := List Part) _ _; decide)
    | with_reducible first
      | refine Kept.set_i3c ?_ (kM.mem ?_)

theorem execGetmrl_kept {kS s kT : State} {addr : Nat} (kH : Kept M kS s) (kE : execGetmrl addr s = .next kT)
    (kM : Within [.i3c] M := by exact Part.sub (by assumption) (by rfl)) :
    Kept M kS kT := by
  unfold execGetmrl at kE
  refine i3cTo_kept kH ?_ kE
  repeat' first
    | with_reducible first
      | assumption | refine Part.sub kM ?_
    | intro _ | dsimp only | (show Part.subb _ _ = _; rfl) | (show Membership.mem (γ := List Part) _ _; decide)
    | with_reducible first
      | refine Kept.set_i3c ?_ (kM.mem ?_)

theorem execI3cPrivateWrite_kept {kS s kT : State} {addr : Nat} {bytes : List Byte} (kH : Kept M kS s)
    (kE : execI3cPrivateWrite addr bytes s = .next kT) (kM : Within [.i3c] M := by exact Part.sub (by assumption) (by rfl)) :
    Kept M kS kT := by
  unfold execI3cPrivateWrite at kE
  refine i3cTo_kept kH ?_ kE
  repeat' first
    | with_reducible first
      | assumption | contradiction | refine Kept.of_fst ‹_› ?_ | refine Kept.of_snd ‹_› ?_ | refine Part.sub kM ?_
    | split | intro _ | dsimp only | (show Part.subb _ _ = _; rfl) | (show Membership.mem (γ := List Part) _ _; decide)
    | with_reducible first
      | refine Kept.set_i3c ?_ (kM.mem ?_)

theorem execI3cPrivateRead_kept {kS s kT : State} {addr len : Nat} (kH : Kept M kS s)
    (kE : execI3cPrivateRead addr len s = .next kT) (kM : Within [.i3c] M := by exact Part.sub (by assumption) (by rfl)) :
    Kept M kS kT := by
  unfold execI3cPrivateRead at kE
  refine i3cTo_kept kH ?_ kE
  repeat' first
    | with_reducible first
      | assumption | refine Part.sub kM ?_
    | split | intro _ | dsimp only | (show Part.subb _ _ = _; rfl) | (show Membership.mem (γ := List Part) _ _; decide)
    | with_reducible first
      | refine Kept.set_i3c ?_ (kM.mem ?_)

/-! ### Registers -/

theorem regTouch_kept {kS s : State} {off : Nat} (kH : Kept M kS s)
    (kM : Within [.bell] M := by exact Part.sub (by assumption) (by rfl)) :
    Kept M kS (regTouch s off) := by
  unfold regTouch
  repeat' first
    | with_reducible first
      | assumption | refine Part.sub kM ?_
    | split | intro _ | dsimp only | (show Part.subb _ _ = _; rfl) | (show Membership.mem (γ := List Part) _ _; decide)
    | with_reducible first
      | refine Kept.set_bell ?_ (kM.mem ?_)

/-! ### RegAccess -/

/-- What a write of a register leaves kept. -/
def KeptW (M : List Part) (s0 : State) : RegWr → Prop
  | .ro => True
  | .w1c t => Kept M s0 t
  | .rw _ t => Kept M s0 t

theorem onBit_kept {kS s : State} {v i : Nat} {f : State → State} (h : Kept M kS s) (hf : ∀ s, Kept M kS s → Kept M kS (f s)) :
    Kept M kS (onBit v i f s) := by
  unfold onBit
  split
  · exact hf s h
  · exact h

theorem semSelect_kept {kS s : State} {v : Nat} (kH : Kept M kS s)
    (kM : Within [.rc] M := by exact Part.sub (by assumption) (by rfl)) :
    Kept M kS (semSelect s v) := by
  unfold semSelect
  repeat' first
    | with_reducible first
      | assumption | refine Part.sub kM ?_
    | split | intro _ | dsimp only | (show Part.subb _ _ = _; rfl) | (show Membership.mem (γ := List Part) _ _; decide)
    | with_reducible first
      | refine Kept.set_rc ?_ (kM.mem ?_)

theorem ptnCfg_kept {kS s : State} {p v : Nat} (kH : Kept M kS s)
    (kM : Within [.ptn] M := by exact Part.sub (by assumption) (by rfl)) :
    Kept M kS (ptnCfg s p v) := by
  unfold ptnCfg
  repeat' first
    | with_reducible first
      | assumption | apply modPtn_kept | apply eventSem_kept | apply getD_kept | refine Part.sub kM ?_
    | split | intro _ | dsimp only | (show Part.subb _ _ = _; rfl)

theorem accessRead_kept {kS s : State} {who : Req} {off : Nat} (kH : Kept M kS s)
    (kM : Within [.bell] M := by exact Part.sub (by assumption) (by rfl)) :
    Kept M kS (accessRead s who off).1 := by
  unfold accessRead
  repeat' first
    | with_reducible first
      | assumption | apply regTouch_kept | refine Part.sub kM ?_
    | split | intro _ | dsimp only | (show Part.subb _ _ = _; rfl)

theorem writeMod_kept {kS s : State} {who : Req} {o v : Nat} (h :
    Kept M kS s) (kM : Within [.fresh, .mem, .memKey, .memErr, .tags, .resv, .mc, .core, .phys, .int, .rc, .ptn, .ctx, .brn, .prs, .bell, .syl, .keys, .fab, .xf, .led, .lcs, .sec, .cpt, .mod, .subf, .vat, .snp, .oh, .i3c] M := by exact Part.sub (by assumption) (by rfl)) : KeptW M kS (writeMod s who o v) := by
  unfold writeMod
  repeat' first
    | with_reducible assumption
    | with_reducible refine Part.sub kM ?_
    | with_reducible apply settingPut_kept
    | with_reducible apply modPort_kept
    | with_reducible apply modPtn_kept
    | with_reducible apply modCtx_kept
    | with_reducible apply modTt_kept
    | with_reducible apply modCore_kept
    | with_reducible apply modPrs_kept
    | with_reducible apply onBit_kept
    | with_reducible apply rstCmd_kept
    | with_reducible apply sylCmd_kept
    | with_reducible apply ohCmd_kept
    | split
    | intro _
    | (dsimp only [KeptW])
    | (show Part.subb _ _ = _; rfl)
    | (show Membership.mem (γ := List Part) _ _; decide)
    | with_reducible first
      | refine Kept.set_syl ?_ (kM.mem ?_) | refine Kept.set_mod ?_ (kM.mem ?_) | refine Kept.set_oh ?_ (kM.mem ?_)
    | trivial

theorem writePwr_kept {kS s : State} {who : Req} {o v : Nat} (h :
    Kept M kS s) (kM : Within [.rc, .prs, .bell, .fab, .sec, .pwr, .vat, .snp] M := by exact Part.sub (by assumption) (by rfl)) : KeptW M kS (writePwr s who o v) := by
  unfold writePwr
  repeat' first
    | with_reducible assumption
    | with_reducible refine Part.sub kM ?_
    | with_reducible apply settingPut_kept
    | with_reducible apply modPort_kept
    | with_reducible apply modPtn_kept
    | with_reducible apply modCtx_kept
    | with_reducible apply modTt_kept
    | with_reducible apply modCore_kept
    | with_reducible apply modPrs_kept
    | with_reducible apply onBit_kept
    | split
    | intro _
    | (dsimp only [KeptW])
    | (show Part.subb _ _ = _; rfl)
    | (show Membership.mem (γ := List Part) _ _; decide)
    | with_reducible first
      | refine Kept.set_pwr ?_ (kM.mem ?_)
    | trivial

theorem writeLcs_kept {kS s : State} {who : Req} {o v : Nat} {env : RegEnv} (h :
    Kept M kS s) (kM : Within [.fresh, .mem, .memKey, .memErr, .resv, .mc, .core, .int, .rc, .ptn, .ctx, .brn, .prs, .syl, .keys, .xf, .led, .lcs, .sec, .mod, .vat, .oh, .fuse, .i3c] M := by exact Part.sub (by assumption) (by rfl)) : KeptW M kS (writeLcs s who o v env) := by
  unfold writeLcs
  repeat' first
    | with_reducible assumption
    | with_reducible refine Part.sub kM ?_
    | with_reducible apply settingPut_kept
    | with_reducible apply modPort_kept
    | with_reducible apply modPtn_kept
    | with_reducible apply modCtx_kept
    | with_reducible apply modTt_kept
    | with_reducible apply modCore_kept
    | with_reducible apply modPrs_kept
    | with_reducible apply onBit_kept
    | with_reducible apply lcsCmd_kept
    | split
    | intro _
    | (dsimp only [KeptW])
    | (show Part.subb _ _ = _; rfl)
    | (show Membership.mem (γ := List Part) _ _; decide)
    | with_reducible first
      | refine Kept.set_lcs ?_ (kM.mem ?_)
    | trivial

theorem writeSec_kept {kS s : State} {who : Req} {o v : Nat} (h :
    Kept M kS s) (kM : Within [.fresh, .mem, .memErr, .tags, .resv, .mc, .core, .int, .rc, .ptn, .ctx, .prs, .bell, .keys, .fab, .led, .lcs, .sec, .pwr, .vat, .snp, .i3c] M := by exact Part.sub (by assumption) (by rfl)) : KeptW M kS (writeSec s who o v) := by
  unfold writeSec
  repeat' first
    | with_reducible assumption
    | with_reducible refine Part.sub kM ?_
    | with_reducible apply settingPut_kept
    | with_reducible apply modPort_kept
    | with_reducible apply modPtn_kept
    | with_reducible apply modCtx_kept
    | with_reducible apply modTt_kept
    | with_reducible apply modCore_kept
    | with_reducible apply modPrs_kept
    | with_reducible apply onBit_kept
    | with_reducible apply secCmd_kept
    | split
    | intro _
    | (dsimp only [KeptW])
    | (show Part.subb _ _ = _; rfl)
    | (show Membership.mem (γ := List Part) _ _; decide)
    | with_reducible first
      | refine Kept.set_sec ?_ (kM.mem ?_)
    | trivial

theorem writeBell_kept {kS s : State} {who : Req} {o v : Nat} (h :
    Kept M kS s) (kM : Within [.rc, .prs, .bell, .fab, .sec, .pwr, .vat, .snp] M := by exact Part.sub (by assumption) (by rfl)) : KeptW M kS (writeBell s who o v) := by
  unfold writeBell
  repeat' first
    | with_reducible assumption
    | with_reducible refine Part.sub kM ?_
    | with_reducible apply settingPut_kept
    | with_reducible apply modPort_kept
    | with_reducible apply modPtn_kept
    | with_reducible apply modCtx_kept
    | with_reducible apply modTt_kept
    | with_reducible apply modCore_kept
    | with_reducible apply modPrs_kept
    | with_reducible apply onBit_kept
    | split
    | intro _
    | (dsimp only [KeptW])
    | (show Part.subb _ _ = _; rfl)
    | (show Membership.mem (γ := List Part) _ _; decide)
    | with_reducible first
      | refine Kept.set_bell ?_ (kM.mem ?_)
    | trivial

theorem writeTt_kept {kS s : State} {who : Req} {p o v : Nat} (h :
    Kept M kS s) (kM : Within [.ptn] M := by exact Part.sub (by assumption) (by rfl)) : KeptW M kS (writeTt s who p o v) := by
  unfold writeTt
  repeat' first
    | with_reducible assumption
    | with_reducible refine Part.sub kM ?_
    | with_reducible apply settingPut_kept
    | with_reducible apply modPort_kept
    | with_reducible apply modPtn_kept
    | with_reducible apply modCtx_kept
    | with_reducible apply modTt_kept
    | with_reducible apply modCore_kept
    | with_reducible apply modPrs_kept
    | with_reducible apply onBit_kept
    | with_reducible apply ttCmd_kept
    | split
    | intro _
    | (dsimp only [KeptW])
    | (show Part.subb _ _ = _; rfl)
    | (show Membership.mem (γ := List Part) _ _; decide)
    | trivial

theorem writeRc_kept {kS s : State} {who : Req} {o v : Nat} (h :
    Kept M kS s) (kM : Within [.rc, .prs, .bell, .fab, .sec, .pwr, .vat, .snp] M := by exact Part.sub (by assumption) (by rfl)) : KeptW M kS (writeRc s who o v) := by
  unfold writeRc
  repeat' first
    | with_reducible assumption
    | with_reducible refine Part.sub kM ?_
    | with_reducible apply settingPut_kept
    | with_reducible apply modPort_kept
    | with_reducible apply modPtn_kept
    | with_reducible apply modCtx_kept
    | with_reducible apply modTt_kept
    | with_reducible apply modCore_kept
    | with_reducible apply modPrs_kept
    | with_reducible apply onBit_kept
    | with_reducible apply semSelect_kept
    | split
    | intro _
    | (dsimp only [KeptW])
    | (show Part.subb _ _ = _; rfl)
    | (show Membership.mem (γ := List Part) _ _; decide)
    | with_reducible first
      | refine Kept.set_rc ?_ (kM.mem ?_)
    | trivial

theorem writePtn_kept {kS s : State} {who : Req} {p o v : Nat} (h :
    Kept M kS s) (kM : Within [.resv, .mc, .core, .int, .rc, .ptn, .ctx, .brn, .prs, .led, .lcs, .sec, .snp, .i3c] M := by exact Part.sub (by assumption) (by rfl)) : KeptW M kS (writePtn s who p o v) := by
  unfold writePtn
  repeat' first
    | with_reducible assumption
    | with_reducible refine Part.sub kM ?_
    | with_reducible apply settingPut_kept
    | with_reducible apply modPort_kept
    | with_reducible apply modPtn_kept
    | with_reducible apply modCtx_kept
    | with_reducible apply modTt_kept
    | with_reducible apply modCore_kept
    | with_reducible apply modPrs_kept
    | with_reducible apply onBit_kept
    | with_reducible apply ptnCmd_kept
    | with_reducible apply ptnCtxCmd_kept
    | with_reducible apply ptnCfg_kept
    | split
    | intro _
    | (dsimp only [KeptW])
    | (show Part.subb _ _ = _; rfl)
    | (show Membership.mem (γ := List Part) _ _; decide)
    | trivial

theorem writeCtx_kept {kS s : State} {who : Req} {c o v : Nat} (h :
    Kept M kS s) (kM : Within [.ctx] M := by exact Part.sub (by assumption) (by rfl)) : KeptW M kS (writeCtx s who c o v) := by
  unfold writeCtx
  repeat' first
    | with_reducible assumption
    | with_reducible refine Part.sub kM ?_
    | with_reducible apply settingPut_kept
    | with_reducible apply modPort_kept
    | with_reducible apply modPtn_kept
    | with_reducible apply modCtx_kept
    | with_reducible apply modTt_kept
    | with_reducible apply modCore_kept
    | with_reducible apply modPrs_kept
    | with_reducible apply onBit_kept
    | split
    | intro _
    | (dsimp only [KeptW])
    | (show Part.subb _ _ = _; rfl)
    | (show Membership.mem (γ := List Part) _ _; decide)
    | trivial

theorem writePort_kept {kS s : State} {who : Req} {n o v : Nat} (h :
    Kept M kS s) (kM : Within [.mem, .memKey, .memErr, .resv, .mc, .int, .ptn, .ctx, .cpt, .vat, .i3c] M := by exact Part.sub (by assumption) (by rfl)) : KeptW M kS (writePort s who n o v) := by
  unfold writePort
  repeat' first
    | with_reducible assumption
    | with_reducible refine Part.sub kM ?_
    | with_reducible apply settingPut_kept
    | with_reducible apply modPort_kept
    | with_reducible apply modPtn_kept
    | with_reducible apply modCtx_kept
    | with_reducible apply modTt_kept
    | with_reducible apply modCore_kept
    | with_reducible apply modPrs_kept
    | with_reducible apply onBit_kept
    | with_reducible apply vatOp_kept
    | split
    | intro _
    | (dsimp only [KeptW])
    | (show Part.subb _ _ = _; rfl)
    | (show Membership.mem (γ := List Part) _ _; decide)
    | trivial

theorem writeVat_kept {kS s : State} {who : Req} {o v : Nat} (h :
    Kept M kS s) (kM : Within [.mem, .memKey, .memErr, .resv, .mc, .int, .rc, .ptn, .ctx, .prs, .bell, .fab, .sec, .cpt, .pwr, .vat, .snp, .i3c] M := by exact Part.sub (by assumption) (by rfl)) : KeptW M kS (writeVat s who o v) := by
  unfold writeVat
  repeat' first
    | with_reducible assumption
    | with_reducible refine Part.sub kM ?_
    | with_reducible apply settingPut_kept
    | with_reducible apply modPort_kept
    | with_reducible apply modPtn_kept
    | with_reducible apply modCtx_kept
    | with_reducible apply modTt_kept
    | with_reducible apply modCore_kept
    | with_reducible apply modPrs_kept
    | with_reducible apply onBit_kept
    | with_reducible apply writePort_kept
    | split
    | intro _
    | (dsimp only [KeptW])
    | (show Part.subb _ _ = _; rfl)
    | (show Membership.mem (γ := List Part) _ _; decide)
    | trivial

theorem writePrs_kept {kS s : State} {who : Req} {r o v : Nat} (h :
    Kept M kS s) (kM : Within [.rc, .prs, .bell, .fab, .sec, .pwr, .vat, .snp] M := by exact Part.sub (by assumption) (by rfl)) : KeptW M kS (writePrs s who r o v) := by
  unfold writePrs
  repeat' first
    | with_reducible assumption
    | with_reducible refine Part.sub kM ?_
    | with_reducible apply settingPut_kept
    | with_reducible apply modPort_kept
    | with_reducible apply modPtn_kept
    | with_reducible apply modCtx_kept
    | with_reducible apply modTt_kept
    | with_reducible apply modCore_kept
    | with_reducible apply modPrs_kept
    | with_reducible apply onBit_kept
    | split
    | intro _
    | (dsimp only [KeptW])
    | (show Part.subb _ _ = _; rfl)
    | (show Membership.mem (γ := List Part) _ _; decide)
    | trivial

theorem writeBrn_kept {kS s : State} {who : Req} {o v : Nat} (h :
    Kept M kS s) (kM : Within [.mc, .int, .ptn, .ctx, .brn, .led, .lcs, .i3c] M := by exact Part.sub (by assumption) (by rfl)) : KeptW M kS (writeBrn s who o v) := by
  unfold writeBrn
  repeat' first
    | with_reducible assumption
    | with_reducible refine Part.sub kM ?_
    | with_reducible apply settingPut_kept
    | with_reducible apply modPort_kept
    | with_reducible apply modPtn_kept
    | with_reducible apply modCtx_kept
    | with_reducible apply modTt_kept
    | with_reducible apply modCore_kept
    | with_reducible apply modPrs_kept
    | with_reducible apply onBit_kept
    | with_reducible apply brnCmd_kept
    | split
    | intro _
    | (dsimp only [KeptW])
    | (show Part.subb _ _ = _; rfl)
    | (show Membership.mem (γ := List Part) _ _; decide)
    | with_reducible first
      | refine Kept.set_brn ?_ (kM.mem ?_)
    | trivial

theorem writeInt_kept {kS s : State} {who : Req} {o v : Nat} {env : RegEnv} (h :
    Kept M kS s) (kM : Within [.int] M := by exact Part.sub (by assumption) (by rfl)) : KeptW M kS (writeInt s who o v env) := by
  unfold writeInt
  repeat' first
    | with_reducible assumption
    | with_reducible refine Part.sub kM ?_
    | with_reducible apply settingPut_kept
    | with_reducible apply modPort_kept
    | with_reducible apply modPtn_kept
    | with_reducible apply modCtx_kept
    | with_reducible apply modTt_kept
    | with_reducible apply modCore_kept
    | with_reducible apply modPrs_kept
    | with_reducible apply onBit_kept
    | with_reducible apply intAck_kept
    | split
    | intro _
    | (dsimp only [KeptW])
    | (show Part.subb _ _ = _; rfl)
    | (show Membership.mem (γ := List Part) _ _; decide)
    | with_reducible first
      | refine Kept.set_int ?_ (kM.mem ?_)
    | trivial

theorem writeSnp_kept {kS s : State} {who : Req} {o v : Nat} (h :
    Kept M kS s) (kM : Within [.mem, .memErr, .tags, .resv, .mc, .core, .int, .rc, .ptn, .ctx, .prs, .bell, .fab, .sec, .pwr, .vat, .snp, .i3c] M := by exact Part.sub (by assumption) (by rfl)) : KeptW M kS (writeSnp s who o v) := by
  unfold writeSnp
  repeat' first
    | with_reducible assumption
    | with_reducible refine Part.sub kM ?_
    | with_reducible apply settingPut_kept
    | with_reducible apply modPort_kept
    | with_reducible apply modPtn_kept
    | with_reducible apply modCtx_kept
    | with_reducible apply modTt_kept
    | with_reducible apply modCore_kept
    | with_reducible apply modPrs_kept
    | with_reducible apply onBit_kept
    | with_reducible apply snpCmd_kept
    | split
    | intro _
    | (dsimp only [KeptW])
    | (show Part.subb _ _ = _; rfl)
    | (show Membership.mem (γ := List Part) _ _; decide)
    | with_reducible first
      | refine Kept.set_snp ?_ (kM.mem ?_)
    | trivial

theorem writeTst_kept {kS s : State} {who : Req} {o v : Nat} {env : RegEnv} (h :
    Kept M kS s) (kM : Within [.mc, .int, .ptn, .ctx, .led, .lcs, .tst, .fuse, .i3c] M := by exact Part.sub (by assumption) (by rfl)) : KeptW M kS (writeTst s who o v env) := by
  unfold writeTst
  repeat' first
    | with_reducible assumption
    | with_reducible refine Part.sub kM ?_
    | with_reducible apply settingPut_kept
    | with_reducible apply modPort_kept
    | with_reducible apply modPtn_kept
    | with_reducible apply modCtx_kept
    | with_reducible apply modTt_kept
    | with_reducible apply modCore_kept
    | with_reducible apply modPrs_kept
    | with_reducible apply onBit_kept
    | with_reducible apply tstCmd_kept
    | split
    | intro _
    | (dsimp only [KeptW])
    | (show Part.subb _ _ = _; rfl)
    | (show Membership.mem (γ := List Part) _ _; decide)
    | with_reducible first
      | refine Kept.set_tst ?_ (kM.mem ?_)
    | trivial

theorem writeFab_kept {kS s : State} {who : Req} {o v : Nat} (h :
    Kept M kS s) (kM : Within [.rc, .prs, .bell, .fab, .xf, .sec, .pwr, .vat, .snp] M := by exact Part.sub (by assumption) (by rfl)) : KeptW M kS (writeFab s who o v) := by
  unfold writeFab
  repeat' first
    | with_reducible assumption
    | with_reducible refine Part.sub kM ?_
    | with_reducible apply settingPut_kept
    | with_reducible apply modPort_kept
    | with_reducible apply modPtn_kept
    | with_reducible apply modCtx_kept
    | with_reducible apply modTt_kept
    | with_reducible apply modCore_kept
    | with_reducible apply modPrs_kept
    | with_reducible apply onBit_kept
    | with_reducible apply portCmd_kept
    | with_reducible apply takeover_kept
    | split
    | intro _
    | (dsimp only [KeptW])
    | (show Part.subb _ _ = _; rfl)
    | (show Membership.mem (γ := List Part) _ _; decide)
    | with_reducible first
      | refine Kept.set_fab ?_ (kM.mem ?_)
    | trivial

theorem writeCpt_kept {kS s : State} {o v : Nat} (h :
    Kept M kS s) (kM : Within [.cpt] M := by exact Part.sub (by assumption) (by rfl)) : KeptW M kS (writeCpt s o v) := by
  unfold writeCpt
  repeat' first
    | with_reducible assumption
    | with_reducible refine Part.sub kM ?_
    | with_reducible apply settingPut_kept
    | with_reducible apply modPort_kept
    | with_reducible apply modPtn_kept
    | with_reducible apply modCtx_kept
    | with_reducible apply modTt_kept
    | with_reducible apply modCore_kept
    | with_reducible apply modPrs_kept
    | with_reducible apply onBit_kept
    | split
    | intro _
    | (dsimp only [KeptW])
    | (show Part.subb _ _ = _; rfl)
    | (show Membership.mem (γ := List Part) _ _; decide)
    | with_reducible first
      | refine Kept.set_cpt ?_ (kM.mem ?_)
    | trivial

theorem writeCore_kept {kS s : State} {n o v : Nat} (h :
    Kept M kS s) (kM : Within [.core] M := by exact Part.sub (by assumption) (by rfl)) : KeptW M kS (writeCore s n o v) := by
  unfold writeCore
  repeat' first
    | with_reducible assumption
    | with_reducible refine Part.sub kM ?_
    | with_reducible apply settingPut_kept
    | with_reducible apply modPort_kept
    | with_reducible apply modPtn_kept
    | with_reducible apply modCtx_kept
    | with_reducible apply modTt_kept
    | with_reducible apply modCore_kept
    | with_reducible apply modPrs_kept
    | with_reducible apply onBit_kept
    | split
    | intro _
    | (dsimp only [KeptW])
    | (show Part.subb _ _ = _; rfl)
    | (show Membership.mem (γ := List Part) _ _; decide)
    | trivial

theorem regWrite_kept {kS s : State} {who : Req} {off v : Nat} {env : RegEnv} (h :
    Kept M kS s) (kM : Within [.fresh, .mem, .memKey, .memErr, .tags, .resv, .mc, .core, .phys, .int, .rc, .ptn, .ctx, .brn, .prs, .bell, .syl, .keys, .fab, .xf, .led, .lcs, .sec, .cpt, .mod, .pwr, .subf, .vat, .tst, .snp, .oh, .fuse, .i3c] M := by exact Part.sub (by assumption) (by rfl)) : KeptW M kS (regWrite s who off v env) := by
  unfold regWrite
  dsimp only
  repeat' split
  all_goals first
    | exact trivial
    | exact writeMod_kept h
    | exact writePwr_kept h
    | exact writeLcs_kept h
    | exact writeSec_kept h
    | exact writeBell_kept h
    | exact writeTt_kept h
    | exact writeRc_kept h
    | exact writePtn_kept h
    | exact writeCtx_kept h
    | exact writeVat_kept h
    | exact writePrs_kept h
    | exact writeBrn_kept h
    | exact writeInt_kept h
    | exact writeSnp_kept h
    | exact writeTst_kept h
    | exact writeFab_kept h
    | exact writeCpt_kept h
    | exact writeCore_kept h

theorem accessWrite_kept {kS s : State} {who : Req} {off v : Nat} {env : RegEnv} (h :
    Kept M kS s) (kM : Within [.fresh, .mem, .memKey, .memErr, .tags, .resv, .mc, .core, .phys, .int, .rc, .ptn, .ctx, .brn, .prs, .bell, .syl, .keys, .fab, .xf, .led, .lcs, .sec, .cpt, .mod, .pwr, .subf, .vat, .tst, .snp, .oh, .fuse, .i3c] M := by exact Part.sub (by assumption) (by rfl)) :
    Kept M kS (accessWrite s who off v env).1 := by
  unfold accessWrite
  split
  · exact h
  split
  · exact h
  have k := regWrite_kept (who := who) (off := off) (v := v % 2 ^ 32) (env := env) h
  revert k
  cases regWrite s who off (v % 2 ^ 32) env with
  | ro => exact fun _ => h
  | w1c t =>
    intro k
    dsimp only
    have k2 := regWrite_kept (who := who) (off := off) (v := clearMask (v % 2 ^ 32) env.hwSet) (env := env) h
    revert k2
    cases regWrite s who off (clearMask (v % 2 ^ 32) env.hwSet) env with
    | w1c t => exact fun k2 => k2
    | _ => exact fun _ => k
  | rw may t =>
    intro k
    dsimp only
    split
    · exact k
    · exact h

theorem execRegisterWrite_kept {kS s kT : State} {who : Req} {off size value : Nat} {env : RegEnv} (kH : Kept M kS s)
    (kE : execRegisterWrite who off size value env s = .next kT)
    (kM : Within [.fresh, .mem, .memKey, .memErr, .tags, .resv, .mc, .core, .phys, .int, .rc, .ptn, .ctx, .brn, .prs, .bell, .syl, .keys, .fab, .xf, .led, .lcs, .sec, .cpt, .mod, .pwr, .subf, .vat, .tst, .snp, .oh, .fuse, .i3c] M := by exact Part.sub (by assumption) (by rfl)) :
    Kept M kS kT := by
  unfold execRegisterWrite at kE
  repeat' first | contradiction | (injection kE with kE; subst kE) | split at kE | dsimp only at kE
  repeat' first
    | with_reducible first
      | assumption | apply accessWrite_kept | refine Part.sub kM ?_
    | split | intro _ | dsimp only | (show Part.subb _ _ = _; rfl)

theorem oneAccess_kept {kS s : State} {who : Req} {a : Nat} {env : RegEnv} (kH : Kept M kS s)
    (kM : Within [.fresh, .mem, .memKey, .memErr, .tags, .resv, .mc, .core, .phys, .int, .rc, .ptn, .ctx, .brn, .prs, .bell, .syl, .keys, .fab, .xf, .led, .lcs, .sec, .cpt, .mod, .pwr, .subf, .vat, .tst, .snp, .oh, .fuse, .i3c] M := by exact Part.sub (by assumption) (by rfl)) :
    Kept M kS (oneAccess s who a env).1 := by
  unfold oneAccess
  repeat' first
    | with_reducible first
      | assumption | contradiction | apply accessRead_kept | apply accessWrite_kept | refine Kept.of_fst ‹_› ?_
      | refine Kept.of_snd ‹_› ?_ | refine Part.sub kM ?_
    | split | intro _ | dsimp only | (show Part.subb _ _ = _; rfl)

theorem doAccesses_kept {kS : State} {who : Req} {env : RegEnv} {z0 : List Nat} {z1 : State} (h :
    Kept M kS z1) (kM : Within [.fresh, .mem, .memKey, .memErr, .tags, .resv, .mc, .core, .phys, .int, .rc, .ptn, .ctx, .brn, .prs, .bell, .syl, .keys, .fab, .xf, .led, .lcs, .sec, .cpt, .mod, .pwr, .subf, .vat, .tst, .snp, .oh, .fuse, .i3c] M := by exact Part.sub (by assumption) (by rfl)) :
    Kept M kS (doAccesses who env z0 z1).1 := by
  induction z0 generalizing z1 with
  | nil => exact h
  | cons a as ih =>
    have k := oneAccess_kept (who := who) (a := a) (env := env) h
    unfold doAccesses
    revert k
    rcases oneAccess z1 who a env with ⟨t, st, r⟩
    intro k
    cases st
    · exact ih k
    · exact k
    · exact k
    · exact k

theorem regRsp_kept {kS s : State} {f : CptFrame} {rs : List Nat} (kH : Kept M kS s)
    (kM : Within [.cpt] M := by exact Part.sub (by assumption) (by rfl)) :
    Kept M kS (regRsp s f rs) := by
  unfold regRsp
  repeat' first
    | with_reducible first
      | assumption | apply cptSend_kept | refine Part.sub kM ?_
    | intro _ | dsimp only | (show Part.subb _ _ = _; rfl)

theorem execRegReq_kept {kS s kT : State} {f : CptFrame} {env : RegEnv} (kH : Kept M kS s) (kE : execRegReq f env s = .next kT)
    (kM : Within [.fresh, .mem, .memKey, .memErr, .tags, .resv, .mc, .core, .phys, .int, .rc, .ptn, .ctx, .brn, .prs, .bell, .syl, .keys, .fab, .xf, .led, .lcs, .sec, .cpt, .mod, .pwr, .subf, .vat, .tst, .snp, .oh, .fuse, .i3c] M := by exact Part.sub (by assumption) (by rfl)) :
    Kept M kS kT := by
  unfold execRegReq at kE
  repeat' first | contradiction | (injection kE with kE; subst kE) | split at kE | dsimp only at kE
  repeat' first
    | with_reducible first
      | assumption | contradiction | apply cptErrRes_kept | apply cptTake_kept | apply doAccesses_kept
      | apply regRsp_kept | refine Kept.of_fst ‹_› ?_ | refine Kept.of_snd ‹_› ?_ | refine Part.sub kM ?_
    | split | intro _ | dsimp only | (show Part.subb _ _ = _; rfl)

theorem execRegAccess_kept {kS s kT : State} {access : Nat} {env : RegEnv} (kH : Kept M kS s)
    (kE : execRegAccess access env s = .next kT)
    (kM : Within [.fresh, .mem, .memKey, .memErr, .tags, .resv, .mc, .core, .phys, .int, .rc, .ptn, .ctx, .brn, .prs, .bell, .syl, .keys, .fab, .xf, .led, .lcs, .sec, .cpt, .mod, .pwr, .subf, .vat, .tst, .snp, .oh, .fuse, .tap, .i3c] M := by exact Part.sub (by assumption) (by rfl)) :
    Kept M kS kT := by
  unfold execRegAccess at kE
  repeat' first | contradiction | (injection kE with kE; subst kE) | split at kE | dsimp only at kE
  repeat' first
    | with_reducible first
      | assumption | contradiction | apply tapLoad_kept | apply oneAccess_kept | refine Kept.of_fst ‹_› ?_
      | refine Kept.of_snd ‹_› ?_ | refine Part.sub kM ?_
    | split | intro _ | dsimp only | (show Part.subb _ _ = _; rfl) | (show Membership.mem (γ := List Part) _ _; decide)
    | with_reducible first
      | refine Kept.set_tap ?_ (kM.mem ?_)

/-! ### Access -/

theorem trapAt_kept {kS s : State} {n t cause a : Nat} (h : Kept M kS s)
    (kM : Within [.core] M := by exact Part.sub (by assumption) (by rfl)) :
    Kept M kS (trapAt s n t cause a) := by
  unfold trapAt; exact takeTrap_kept h

theorem memWait_kept {kS s : State} {n t : Nat} (h : Kept M kS s)
    (kM : Within [.core] M := by exact Part.sub (by assumption) (by rfl)) :
    Kept M kS (memWait s n t) := by
  unfold memWait; exact modThr_kept h

theorem itemRead_kept {kS s : State} {n t : Nat} {r : Right} {fault ueFault ga len : Nat} (h :
    Kept M kS s) (kM : Within [.mem, .memErr, .tags, .resv, .mc, .core, .int, .ptn, .ctx, .i3c] M := by exact Part.sub (by assumption) (by rfl)) :
    KeptR M kS (itemRead s n t r fault ueFault ga len) := by
  unfold itemRead
  dsimp only
  split
  · split
    · exact memWait_kept h
    · split
      · exact readAs_kept h
      · exact trapAt_kept (readAs_kept h)
  · exact trapAt_kept h
  · exact trapAt_kept h

theorem itemLoad_kept {kS s : State} {n t ga size : Nat} (h :
    Kept M kS s) (kM : Within [.mem, .memErr, .tags, .resv, .mc, .core, .int, .ptn, .ctx, .bell, .i3c] M := by exact Part.sub (by assumption) (by rfl)) : KeptR M kS (itemLoad s n t ga size) := by
  unfold itemLoad
  split
  · exact trapAt_kept h
  · split
    · split
      · next e =>
        split at e
        · exact Kept.of_fst e (accessRead_kept h)
        · injection e with e1 e2; injection e2 with e2 e3; cases e2
      · exact trapAt_kept h
    · split
      · next e => exact (itemRead_kept h).ok e
      · next e => exact (itemRead_kept h).error e

theorem itemStore_kept {kS s : State} {n t ga size v : Nat} (h :
    Kept M kS s) (kM : Within [.fresh, .mem, .memKey, .memErr, .tags, .resv, .mc, .core, .phys, .int, .rc, .ptn, .ctx, .brn, .prs, .bell, .syl, .keys, .fab, .xf, .led, .lcs, .sec, .cpt, .mod, .pwr, .subf, .vat, .tst, .snp, .oh, .fuse, .i3c] M := by exact Part.sub (by assumption) (by rfl)) : KeptS M kS (itemStore s n t ga size v) := by
  unfold itemStore
  split
  · exact trapAt_kept h
  · split
    · split
      · next e =>
        split at e
        · exact Kept.of_fst e (accessWrite_kept h)
        · injection e with e1 e2; cases e2
      · exact trapAt_kept h
    · exact threadWrite_kept h

theorem itemAmo_kept {kS s : State} {n t : Nat} {op : AmoOp} {ga size x : Nat} (h :
    Kept M kS s) (kM : Within [.mem, .memKey, .memErr, .tags, .resv, .mc, .core, .int, .ptn, .ctx, .i3c] M := by exact Part.sub (by assumption) (by rfl)) :
    KeptR M kS (itemAmo s n t op ga size x) := by
  unfold itemAmo
  split
  · exact trapAt_kept h
  · split
    · next e => exact storeFault_kept h e
    · split
      · next e => exact (itemRead_kept h).error e
      · next e =>
        dsimp only
        have k := (itemRead_kept h).ok e
        split
        · next e => exact (threadWrite_kept k).ok e
        · next e => exact (threadWrite_kept k).error e

theorem itemLr_kept {kS s : State} {n t ga size : Nat} (h :
    Kept M kS s) (kM : Within [.mem, .memErr, .tags, .resv, .mc, .core, .int, .ptn, .ctx, .i3c] M := by exact Part.sub (by assumption) (by rfl)) : KeptR M kS (itemLr s n t ga size) := by
  unfold itemLr
  split
  · exact trapAt_kept h
  · split
    · next e => exact (itemRead_kept h).error e
    · next e => exact Kept.set_resv ((itemRead_kept h).ok e) (kM.mem (by decide))

theorem itemSc_kept {kS s : State} {n t ga size x : Nat} (h :
    Kept M kS s) (kM : Within [.mem, .memKey, .memErr, .tags, .resv, .mc, .core, .int, .ptn, .ctx, .i3c] M := by exact Part.sub (by assumption) (by rfl)) : KeptR M kS (itemSc s n t ga size x) := by
  unfold itemSc
  split
  · exact trapAt_kept h
  · split
    · next e => exact storeFault_kept h e
    · dsimp only
      split
      · split
        · next e => exact dropResv_kept ((threadWrite_kept h).ok e)
        · next e => exact (threadWrite_kept h).error e
      · exact dropResv_kept h

theorem vLoad_kept {kS : State} {n t vd size : Nat} {es : List (Nat × Nat × Nat)} {s : State} (h :
    Kept M kS s) (kM : Within [.mem, .memErr, .tags, .resv, .mc, .core, .int, .ptn, .ctx, .bell, .i3c] M := by exact Part.sub (by assumption) (by rfl)) :
    KeptS M kS (vLoad n t vd size es s) := by
  induction es generalizing s with
  | nil => exact h
  | cons e es ih =>
    obtain ⟨i, k, a⟩ := e
    unfold vLoad
    split
    · next e => exact ih (modThr_kept ((itemLoad_kept h).ok e))
    · next e => exact modThr_kept ((itemLoad_kept h).error e)

theorem vStore_kept {kS : State} {n t vs size : Nat} {es : List (Nat × Nat × Nat)} {s : State} (h :
    Kept M kS s) (kM : Within [.fresh, .mem, .memKey, .memErr, .tags, .resv, .mc, .core, .phys, .int, .rc, .ptn, .ctx, .brn, .prs, .bell, .syl, .keys, .fab, .xf, .led, .lcs, .sec, .cpt, .mod, .pwr, .subf, .vat, .tst, .snp, .oh, .fuse, .i3c] M := by exact Part.sub (by assumption) (by rfl)) :
    KeptS M kS (vStore n t vs size es s) := by
  induction es generalizing s with
  | nil => exact h
  | cons e es ih =>
    obtain ⟨i, k, a⟩ := e
    unfold vStore
    split
    · next e => exact ih ((itemStore_kept h).ok e)
    · next e => exact modThr_kept ((itemStore_kept h).error e)

theorem agnostic_kept {kS s : State} {n t vd size : Nat} {es : List (Nat × Nat)} (h :
    Kept M kS s) (kM : Within [.fresh, .core] M := by exact Part.sub (by assumption) (by rfl)) :
    Kept M kS (agnostic s n t vd size es) := by
  unfold agnostic
  dsimp only
  split
  · exact h
  · exact h
  · exact modThr_kept (draw_kept h)

theorem loaded_kept {kS s : State} {n t len rd v : Nat} (kH : Kept M kS s)
    (kM : Within [.core] M := by exact Part.sub (by assumption) (by rfl)) :
    Kept M kS (loaded s n t len rd v) := by
  unfold loaded
  repeat' first
    | with_reducible first
      | assumption | apply instrDone_kept | apply setRd_kept | refine Part.sub kM ?_
    | intro _ | dsimp only | (show Part.subb _ _ = _; rfl)

theorem memAccess_kept {kS s : State} {n t len : Nat} {a : MemAcc} (h : Kept M kS s)
    (kM : Within [.fresh, .mem, .memKey, .memErr, .tags, .resv, .mc, .core, .phys, .int, .rc, .ptn, .ctx, .brn, .prs, .bell, .syl, .keys, .fab, .xf, .led, .lcs, .sec, .cpt, .mod, .pwr, .subf, .vat, .tst, .snp, .oh, .fuse, .i3c] M := by exact Part.sub (by assumption) (by rfl)) :
    Kept M kS (memAccess s n t len a) := by
  cases a
  · unfold memAccess; dsimp only; split
    · next e => exact loaded_kept ((itemLoad_kept h).ok e)
    · next e => exact (itemLoad_kept h).error e
  · unfold memAccess; dsimp only; split
    · next e => exact modThr_kept (instrDone_kept ((itemLoad_kept h).ok e))
    · next e => exact (itemLoad_kept h).error e
  · unfold memAccess; dsimp only; split
    · exact outcome_kept (itemStore_kept (instrDone_kept h))
    · next e => exact (itemStore_kept h).error e
  · unfold memAccess; dsimp only; split
    · next e => exact loaded_kept ((itemAmo_kept h).ok e)
    · next e => exact (itemAmo_kept h).error e
  · unfold memAccess; dsimp only; split
    · next e => exact loaded_kept ((itemLr_kept h).ok e)
    · next e => exact (itemLr_kept h).error e
  · unfold memAccess; dsimp only; split
    · next e => exact loaded_kept ((itemSc_kept h).ok e)
    · next e => exact (itemSc_kept h).error e
  · unfold memAccess; dsimp only; split
    · exact trapAt_kept h
    · split
      · next e => exact (itemRead_kept h).ok e
      · next e => exact (itemRead_kept h).error e
  · unfold memAccess; dsimp only; split
    · next e => exact modThr_kept (instrDone_kept (agnostic_kept ((vLoad_kept h).ok e)))
    · next e => exact (vLoad_kept h).error e
  · unfold memAccess; dsimp only; split
    · next e => exact modThr_kept (instrDone_kept ((vStore_kept h).ok e))
    · next e => exact (vStore_kept h).error e
  · exact h

/-! ### Rv -/

theorem nextOr_kept {kS s : State} {o : Out} (h : Kept M kS s) (ho : ∀ t, o = .next t → Kept M kS t) : Kept M kS (nextOr s o) := by
  cases o with
  | next t => exact ho t rfl
  | _ => exact h

theorem fillLine_kept {kS s : State} {n t : Nat} {p : Place} (kH : Kept M kS s)
    (kM : Within [.mem, .memErr, .tags, .resv, .mc, .core, .int, .ptn, .ctx, .i3c] M := by exact Part.sub (by assumption) (by rfl)) :
    Kept M kS (fillLine s n t p) := by
  unfold fillLine
  repeat' first
    | with_reducible first
      | assumption | apply modCore_kept | apply readAs_kept | refine Part.sub kM ?_
    | intro _ | dsimp only | (show Part.subb _ _ = _; rfl)

theorem csrWrite_kept {kS s : State} {n t k : Nat} {v : DWord} (kH : Kept M kS s)
    (kM : Within [.core] M := by exact Part.sub (by assumption) (by rfl)) :
    Kept M kS (csrWrite s n t k v) := by
  unfold csrWrite
  repeat' first
    | with_reducible first
      | assumption | apply modCore_kept | apply modThr_kept | refine Part.sub kM ?_
    | split | intro _ | dsimp only | (show Part.subb _ _ = _; rfl)

theorem csrExec_kept {kS s : State} {n t len w : Nat} (kH : Kept M kS s)
    (kM : Within [.fresh, .core] M := by exact Part.sub (by assumption) (by rfl)) :
    Kept M kS (csrExec s n t len w) := by
  unfold csrExec
  repeat' first
    | with_reducible first
      | assumption | contradiction | apply modThr_kept | apply instrDone_kept | apply illegal_kept | apply csrWrite_kept
      | refine Kept.of_fst ‹_› ?_ | refine Kept.of_snd ‹_› ?_ | refine Part.sub kM ?_
    | split | intro _ | dsimp only | (show Part.subb _ _ = _; rfl)

theorem systemExec_kept {kS s : State} {n t len w : Nat} (kH : Kept M kS s)
    (kM : Within [.fresh, .core] M := by exact Part.sub (by assumption) (by rfl)) :
    Kept M kS (systemExec s n t len w) := by
  unfold systemExec
  repeat' first
    | with_reducible first
      | assumption | contradiction | apply modThr_kept | apply draw_kept | apply instrDone_kept | apply takeTrap_kept
      | apply illegal_kept | apply csrExec_kept | refine Kept.of_fst ‹_› ?_ | refine Kept.of_snd ‹_› ?_
      | refine Part.sub kM ?_
    | split | intro _ | dsimp only | (show Part.subb _ _ = _; rfl)

theorem fetchHalf_kept {kS s : State} {n t ga : Nat} (h :
    Kept M kS s) (kM : Within [.fresh, .mem, .memErr, .tags, .resv, .mc, .core, .int, .ptn, .ctx, .i3c] M := by exact Part.sub (by assumption) (by rfl)) : KeptR M kS (fetchHalf s n t ga) := by
  have hm : ∀ s, Kept M kS s → KeptR M kS
      (match itemRead s n t .exec exFetchFault exFetchFault ga 2 with
        | .error s => (.error s : ItemRes Nat)
        | .ok (s, bs) => .ok ((match itemPlace s (some n) ga 2 with | some p => fillLine s n t p | none => s), leNat bs)) := by
    intro s h
    split
    · next e => exact (itemRead_kept h).error e
    · next e =>
      have k := (itemRead_kept h).ok e
      simp only [KeptR]
      split
      · exact fillLine_kept k
      · exact k
  unfold fetchHalf
  dsimp only
  split
  · split
    · split
      · exact draw_kept (k := 1) h
      · exact hm _ (draw_kept (k := 1) h)
    · exact hm _ h
  · exact hm _ h

theorem fetchInstr_kept {kS s : State} {n t : Nat} (h :
    Kept M kS s) (kM : Within [.fresh, .mem, .memErr, .tags, .resv, .mc, .core, .int, .ptn, .ctx, .i3c] M := by exact Part.sub (by assumption) (by rfl)) : KeptR M kS (fetchInstr s n t) := by
  unfold fetchInstr
  dsimp only
  split
  · exact trapAt_kept h
  · split
    · next e => exact (fetchHalf_kept h).error e
    · next e =>
      have k := (fetchHalf_kept h).ok e
      split
      · exact k
      · split
        · next e => exact (fetchHalf_kept k).error e
        · next e => exact (fetchHalf_kept k).ok e

theorem xslvExec_kept {kS s : State} {n t w : Nat} (h : Kept M kS s)
    (kM : Within [.fresh, .mem, .memKey, .memErr, .tags, .resv, .mc, .core, .int, .rc, .ptn, .ctx, .prs, .syl, .cpt, .i3c] M := by exact Part.sub (by assumption) (by rfl)) :
    Kept M kS (xslvExec s n t w) := by
  have go : ∀ {o : State → Out}, (∀ u, o s = .next u → Kept M kS u) → Kept M kS (nextOr s (o s)) := fun ho => nextOr_kept h ho
  unfold xslvExec
  dsimp only
  split
  · split
    · split
      · exact go fun u e => execSlvCmd_kept h e
      · exact illegal_kept h
    · split
      · exact go fun u e => execSlvCrcRaw_kept h e
      · exact go fun u e => execSlvCrcTchk_kept h e
      · exact go fun u e => execSlvCrcTgen_kept h e
      · exact illegal_kept h
    · exact go fun u e => execSlvVcvt_kept h e
    · exact go fun u e => execSlvVfn_kept h e
    · exact illegal_kept h
  · split
    · exact go fun u e => execSlvRc_kept h e
    · exact go fun u e => execSlvBwaitUntil_kept h e
    · exact go fun u e => execSlvBwaitSemwait_kept h e
    · split
      · exact go fun u e => execSlvLaunch_kept h e
      · exact illegal_kept h
    · split
      · exact go fun u e => execSlvExit_kept h e
      · exact illegal_kept h
    · exact illegal_kept h

theorem vLoadFirst_kept {kS : State} {n t vd size : Nat} {es : List (Nat × Nat × Nat)} {s : State} (h :
    Kept M kS s) (kM : Within [.mem, .memErr, .tags, .resv, .mc, .core, .int, .ptn, .ctx, .bell, .i3c] M := by exact Part.sub (by assumption) (by rfl)) :
    KeptS M kS (vLoadFirst n t vd size es s) := by
  induction es generalizing s with
  | nil => exact h
  | cons e es ih =>
    obtain ⟨i, k, a⟩ := e
    unfold vLoadFirst
    split
    · next e => exact ih (modThr_kept ((itemLoad_kept h).ok e))
    · next e =>
      have k := (itemLoad_kept h).error e
      split
      · exact modThr_kept k
      · exact modThr_kept k

theorem vecMemExec_kept {kS s : State} {n t len w : Nat} (h : Kept M kS s)
    (kM : Within [.fresh, .mem, .memKey, .memErr, .tags, .resv, .mc, .core, .phys, .int, .rc, .ptn, .ctx, .brn, .prs, .bell, .syl, .keys, .fab, .xf, .led, .lcs, .sec, .cpt, .mod, .pwr, .subf, .vat, .tst, .snp, .oh, .fuse, .i3c] M := by exact Part.sub (by assumption) (by rfl)) :
    Kept M kS (vecMemExec s n t len w) := by
  unfold vecMemExec
  split
  · exact illegal_kept h
  · dsimp only
    split
    · split
      · next e =>
        refine modThr_kept (instrDone_kept (modThr_kept (draw_kept ?_)))
        split at e
        · exact (vLoadFirst_kept h).ok e
        · exact (vLoad_kept h).ok e
      · next e =>
        split at e
        · exact (vLoadFirst_kept h).error e
        · exact (vLoad_kept h).error e
    · refine outcome_kept ?_
      cases e : vStore n t _ _ _ s with
      | ok u => exact modThr_kept (instrDone_kept ((vStore_kept h).ok e))
      | error u => exact (vStore_kept h).error e

theorem retireThr_kept {kS s : State} {n t len : Nat} {r : Option Thr} (kH : Kept M kS s)
    (kM : Within [.fresh, .core] M := by exact Part.sub (by assumption) (by rfl)) :
    Kept M kS (retireThr s n t len r) := by
  unfold retireThr
  repeat' first
    | with_reducible first
      | assumption | contradiction | apply modThr_kept | apply instrDone_kept | apply illegal_kept
      | refine Kept.of_fst ‹_› ?_ | refine Kept.of_snd ‹_› ?_ | refine Part.sub kM ?_
    | split | intro _ | dsimp only | (show Part.subb _ _ = _; rfl)

theorem jump_kept {kS s : State} {n t len rd : Nat} {target : DWord} (kH : Kept M kS s)
    (kM : Within [.core] M := by exact Part.sub (by assumption) (by rfl)) :
    Kept M kS (jump s n t len rd target) := by
  unfold jump
  repeat' first
    | with_reducible first
      | assumption | apply modThr_kept | refine Part.sub kM ?_
    | intro _ | dsimp only | (show Part.subb _ _ = _; rfl)

theorem runWord_kept {kS s : State} {n t len w : Nat} (kH : Kept M kS s)
    (kM : Within [.fresh, .mem, .memKey, .memErr, .tags, .resv, .mc, .core, .phys, .int, .rc, .ptn, .ctx, .brn, .prs, .bell, .syl, .keys, .fab, .xf, .led, .lcs, .sec, .cpt, .mod, .pwr, .subf, .vat, .tst, .snp, .oh, .fuse, .i3c] M := by exact Part.sub (by assumption) (by rfl)) :
    Kept M kS (runWord s n t len w) := by
  unfold runWord
  repeat' first
    | with_reducible first
      | assumption | contradiction | apply modCore_kept | apply draw_kept | apply instrDone_kept | apply illegal_kept
      | apply memAccess_kept | apply systemExec_kept | apply xslvExec_kept | apply vecMemExec_kept | apply retireThr_kept
      | apply jump_kept | refine Kept.of_fst ‹_› ?_ | refine Kept.of_snd ‹_› ?_ | refine Part.sub kM ?_
    | split | intro _ | dsimp only | (show Part.subb _ _ = _; rfl)

theorem runInstr_kept {kS s : State} {n t : Nat} (h : Kept M kS s)
    (kM : Within [.fresh, .mem, .memKey, .memErr, .tags, .resv, .mc, .core, .phys, .int, .rc, .ptn, .ctx, .brn, .prs, .bell, .syl, .keys, .fab, .xf, .led, .lcs, .sec, .cpt, .mod, .pwr, .subf, .vat, .tst, .snp, .oh, .fuse, .i3c] M := by exact Part.sub (by assumption) (by rfl)) :
    Kept M kS (runInstr s n t) := by
  unfold runInstr
  split
  · next e => exact (fetchInstr_kept h).error e
  · next e => exact runWord_kept ((fetchInstr_kept h).ok e)
  · next e => exact illegal_kept ((fetchInstr_kept h).ok e)

theorem execThreadMemoryAccess_kept {kS s kT : State} {core thr len : Nat} {a : MemAcc} (kH : Kept M kS s)
    (kE : execThreadMemoryAccess core thr len a s = .next kT)
    (kM : Within [.fresh, .mem, .memKey, .memErr, .tags, .resv, .mc, .core, .phys, .int, .rc, .ptn, .ctx, .brn, .prs, .bell, .syl, .keys, .fab, .xf, .led, .lcs, .sec, .cpt, .mod, .pwr, .subf, .vat, .tst, .snp, .oh, .fuse, .i3c] M := by exact Part.sub (by assumption) (by rfl)) :
    Kept M kS kT := by
  unfold execThreadMemoryAccess at kE
  repeat' first | contradiction | (injection kE with kE; subst kE) | split at kE | dsimp only at kE
  repeat' first
    | with_reducible first
      | assumption | apply issue_kept | apply memAccess_kept | apply runInstr_kept | refine Part.sub kM ?_
    | split | intro _ | dsimp only | (show Part.subb _ _ = _; rfl)

/-! ### Bell -/

theorem govApply_kept {kS s : State} (kH : Kept M kS s)
    (kM : Within [.mc, .int, .ptn, .ctx, .pwr, .vat, .i3c] M := by exact Part.sub (by assumption) (by rfl)) :
    Kept M kS (govApply s) := by
  unfold govApply
  repeat' first
    | with_reducible first
      | assumption | contradiction | apply raise_kept | apply vatRestart_kept | refine Kept.of_fst ‹_› ?_
      | refine Kept.of_snd ‹_› ?_ | refine Part.sub kM ?_
    | split | intro _ | dsimp only | (show Part.subb _ _ = _; rfl) | (show Membership.mem (γ := List Part) _ _; decide)
    | with_reducible first
      | refine Kept.set_pwr ?_ (kM.mem ?_)

theorem governor_kept {kS s : State} {w : Nat} (kH : Kept M kS s)
    (kM : Within [.mc, .int, .ptn, .ctx, .pwr, .vat, .i3c] M := by exact Part.sub (by assumption) (by rfl)) :
    Kept M kS (governor s w) := by
  unfold governor
  repeat' first
    | with_reducible first
      | assumption | apply forEach_kept | apply modTt_kept | apply govApply_kept | refine Part.sub kM ?_
    | split | intro _ | dsimp only | (show Part.subb _ _ = _; rfl) | (show Membership.mem (γ := List Part) _ _; decide)
    | with_reducible first
      | refine Kept.set_pwr ?_ (kM.mem ?_)

theorem execGovernorBellAverage_kept {kS s kT : State} {w : Nat} (kH : Kept M kS s) (kE : execGovernorBellAverage w s = .next kT)
    (kM : Within [.mc, .int, .ptn, .ctx, .pwr, .vat, .i3c] M := by exact Part.sub (by assumption) (by rfl)) :
    Kept M kS kT := by
  unfold execGovernorBellAverage at kE
  repeat' first | contradiction | (injection kE with kE; subst kE) | split at kE | dsimp only at kE
  repeat' first
    | with_reducible first
      | assumption | apply governor_kept | refine Part.sub kM ?_
    | intro _ | dsimp only | (show Part.subb _ _ = _; rfl)

theorem startCounter_kept {kS s : State} {b : Nat} (kH : Kept M kS s)
    (kM : Within [.rc, .bell, .pwr, .vat] M := by exact Part.sub (by assumption) (by rfl)) :
    Kept M kS (startCounter s b) := by
  unfold startCounter
  repeat' first
    | with_reducible first
      | assumption | apply getD_kept | refine Part.sub kM ?_
    | split | intro _ | dsimp only | (show Part.subb _ _ = _; rfl) | (show Membership.mem (γ := List Part) _ _; decide) | (show restore _ _ _ = _; rfl)
    | with_reducible first
      | refine Kept.set_rc ?_ (kM.mem ?_) | refine Kept.set_bell ?_ (kM.mem ?_) | refine Kept.set_pwr ?_ (kM.mem ?_)
      | refine Kept.set_vat ?_ (kM.mem ?_) | refine Kept.upd ?_ kM ?_

theorem emitBell_kept {kS s : State} (kH : Kept M kS s) (kM : Within [.rc] M := by exact Part.sub (by assumption) (by rfl)) :
    Kept M kS (emitBell s) := by
  unfold emitBell
  repeat' first
    | with_reducible first
      | assumption | apply forEach_kept | apply syncSend_kept | refine Part.sub kM ?_
    | split | intro _ | dsimp only | (show Part.subb _ _ = _; rfl)

theorem switchTo_kept {kS s : State} {alt : Bool} (kH : Kept M kS s)
    (kM : Within [.bell] M := by exact Part.sub (by assumption) (by rfl)) :
    Kept M kS (switchTo s alt) := by
  unfold switchTo
  repeat' first
    | with_reducible first
      | assumption | refine Part.sub kM ?_
    | split | intro _ | dsimp only | (show Part.subb _ _ = _; rfl) | (show Membership.mem (γ := List Part) _ _; decide)
    | with_reducible first
      | refine Kept.set_bell ?_ (kM.mem ?_)

theorem streamLoss_kept {kS s : State} (kH : Kept M kS s)
    (kM : Within [.mc, .int, .ptn, .ctx, .bell, .i3c] M := by exact Part.sub (by assumption) (by rfl)) :
    Kept M kS (streamLoss s) := by
  unfold streamLoss
  repeat' first
    | with_reducible first
      | assumption | apply raise_kept | apply switchTo_kept | refine Part.sub kM ?_
    | split | intro _ | dsimp only | (show Part.subb _ _ = _; rfl) | (show Membership.mem (γ := List Part) _ _; decide)
    | with_reducible first
      | refine Kept.set_bell ?_ (kM.mem ?_)

theorem atBellInstant_kept {kS s : State} (kH : Kept M kS s)
    (kM : Within [.fresh, .mem, .memKey, .memErr, .tags, .resv, .mc, .core, .phys, .int, .rc, .ptn, .ctx, .brn, .prs, .bell, .fab, .led, .lcs, .cpt, .pwr, .subf, .vat, .tst, .snp, .oh, .i3c] M := by exact Part.sub (by assumption) (by rfl)) :
    Kept M kS (atBellInstant s) := by
  unfold atBellInstant
  repeat' first
    | with_reducible first
      | assumption | contradiction | apply forEach_kept | apply registerBound_kept | apply freeRepairs_kept
      | apply ohBell_kept | apply darkDue_kept | apply recessPoint_kept | apply govApply_kept | apply emitBell_kept
      | apply streamLoss_kept | refine Kept.of_fst ‹_› ?_ | refine Kept.of_snd ‹_› ?_ | refine Part.sub kM ?_
    | split | intro _ | dsimp only | (show Part.subb _ _ = _; rfl) | (show Membership.mem (γ := List Part) _ _; decide)
    | with_reducible first
      | refine Kept.set_bell ?_ (kM.mem ?_)

theorem bellInstant_kept {kS s : State} (kH : Kept M kS s)
    (kM : Within [.fresh, .mem, .memKey, .memErr, .tags, .resv, .mc, .core, .phys, .int, .rc, .ptn, .ctx, .brn, .prs, .bell, .fab, .led, .lcs, .cpt, .pwr, .subf, .vat, .tst, .snp, .oh, .i3c] M := by exact Part.sub (by assumption) (by rfl)) :
    Kept M kS (bellInstant s) := by
  unfold bellInstant
  repeat' first
    | with_reducible first
      | assumption | contradiction | apply markLeft_kept | apply startCounter_kept | apply emitBell_kept
      | apply atBellInstant_kept | refine Kept.of_fst ‹_› ?_ | refine Kept.of_snd ‹_› ?_ | refine Part.sub kM ?_
    | split | intro _ | dsimp only | (show Part.subb _ _ = _; rfl) | (show Membership.mem (γ := List Part) _ _; decide)
    | with_reducible first
      | refine Kept.set_bell ?_ (kM.mem ?_)

theorem execBell_kept {kS s kT : State} (kH : Kept M kS s) (kE : execBell s = .next kT)
    (kM : Within [.fresh, .mem, .memKey, .memErr, .tags, .resv, .mc, .core, .phys, .int, .rc, .ptn, .ctx, .brn, .prs, .bell, .fab, .led, .lcs, .cpt, .pwr, .subf, .vat, .tst, .snp, .oh, .i3c] M := by exact Part.sub (by assumption) (by rfl)) :
    Kept M kS kT := by
  unfold execBell at kE
  repeat' first | contradiction | (injection kE with kE; subst kE) | split at kE | dsimp only at kE
  repeat' first
    | with_reducible first
      | assumption | apply bellInstant_kept | refine Part.sub kM ?_
    | intro _ | dsimp only | (show Part.subb _ _ = _; rfl)

theorem tick_kept {kS s : State} (kH : Kept M kS s)
    (kM : Within [.fresh, .cyc, .mem, .memKey, .memErr, .tags, .resv, .mc, .core, .phys, .int, .rc, .ptn, .ctx, .brn, .prs, .bell, .fab, .led, .lcs, .cpt, .pwr, .subf, .vat, .tst, .snp, .oh, .i3c] M := by exact Part.sub (by assumption) (by rfl)) :
    Kept M kS (tick s) := by
  unfold tick
  repeat' first
    | with_reducible first
      | assumption | apply laneTick_kept | apply freeRepairs_kept | apply darkDue_kept | apply govApply_kept
      | apply bellInstant_kept | refine Part.sub kM ?_
    | split | intro _ | dsimp only | (show Part.subb _ _ = _; rfl) | (show Membership.mem (γ := List Part) _ _; decide) | (show restore _ _ _ = _; rfl)
    | with_reducible first
      | refine Kept.set_cyc ?_ (kM.mem ?_) | refine Kept.set_bell ?_ (kM.mem ?_) | refine Kept.upd ?_ kM ?_

theorem modUp_kept {kS s : State} {alt : Bool} {f : Upstream → Upstream} (kH : Kept M kS s)
    (kM : Within [.bell] M := by exact Part.sub (by assumption) (by rfl)) :
    Kept M kS (modUp s alt f) := by
  unfold modUp
  repeat' first
    | with_reducible first
      | assumption | refine Part.sub kM ?_
    | split | intro _ | dsimp only | (show Part.subb _ _ = _; rfl) | (show Membership.mem (γ := List Part) _ _; decide)
    | with_reducible first
      | refine Kept.set_bell ?_ (kM.mem ?_)

theorem bellFrameIn_kept {kS s : State} {alt : Bool} {f : List Byte} (kH : Kept M kS s)
    (kM : Within [.mc, .int, .ptn, .ctx, .bell, .i3c] M := by exact Part.sub (by assumption) (by rfl)) :
    Kept M kS (bellFrameIn s alt f) := by
  unfold bellFrameIn
  dsimp only
  generalize hs : modUp s alt _ = t
  have k : Kept M kS t := hs ▸ modUp_kept kH
  clear hs kH
  generalize frameBits f 223 160 = b
  generalize frameBits f 142 142 = c
  generalize frameBits f 141 138 = d
  repeat' first
    | with_reducible assumption
    | split
    | (show Membership.mem (γ := List Part) _ _; decide)
    | (show Part.subb _ _ = _; rfl)
    | with_reducible first
      | refine raise_kept ?_ (Part.sub kM ?_)
      | refine Kept.set_bell ?_ (kM.mem ?_)

theorem execBellFrameReceive_kept {kS s kT : State} {port : Nat} {f : List Byte} (kH : Kept M kS s)
    (kE : execBellFrameReceive port f s = .next kT)
    (kM : Within [.mc, .int, .rc, .ptn, .ctx, .bell, .i3c] M := by exact Part.sub (by assumption) (by rfl)) :
    Kept M kS kT := by
  unfold execBellFrameReceive at kE
  repeat' first | contradiction | (injection kE with kE; subst kE) | split at kE | dsimp only at kE
  repeat' first
    | with_reducible first
      | assumption | contradiction | apply takeFrame_kept | apply bellFrameIn_kept | refine Kept.of_fst ‹_› ?_
      | refine Kept.of_snd ‹_› ?_ | refine Part.sub kM ?_
    | split | intro _ | dsimp only | (show Part.subb _ _ = _; rfl)

theorem execBellFrameMissing_kept {kS s kT : State} {alt : Bool} (kH : Kept M kS s) (kE : execBellFrameMissing alt s = .next kT)
    (kM : Within [.bell] M := by exact Part.sub (by assumption) (by rfl)) :
    Kept M kS kT := by
  unfold execBellFrameMissing at kE
  repeat' first | contradiction | (injection kE with kE; subst kE) | split at kE | dsimp only at kE
  repeat' first
    | with_reducible first
      | assumption | apply modUp_kept | refine Part.sub kM ?_
    | split | intro _ | dsimp only | (show Part.subb _ _ = _; rfl) | (show Membership.mem (γ := List Part) _ _; decide)
    | with_reducible first
      | refine Kept.set_bell ?_ (kM.mem ?_)

theorem execHoldoverLimit_kept {kS s kT : State} (kH : Kept M kS s) (kE : execHoldoverLimit s = .next kT)
    (kM : Within [.mc, .core, .int, .rc, .ptn, .ctx, .bell, .i3c] M := by exact Part.sub (by assumption) (by rfl)) :
    Kept M kS kT := by
  unfold execHoldoverLimit at kE
  repeat' first | contradiction | (injection kE with kE; subst kE) | split at kE | dsimp only at kE
  repeat' first
    | with_reducible first
      | assumption | apply forEach_kept | apply raise_kept | apply setHold_kept | refine Part.sub kM ?_
    | split | intro _ | dsimp only | (show Part.subb _ _ = _; rfl) | (show Membership.mem (γ := List Part) _ _; decide)
    | with_reducible first
      | refine Kept.set_bell ?_ (kM.mem ?_)

theorem lockCheck_kept {kS s : State} (kH : Kept M kS s) (kM : Within [.bell] M := by exact Part.sub (by assumption) (by rfl)) :
    Kept M kS (lockCheck s) := by
  unfold lockCheck
  repeat' first
    | with_reducible first
      | assumption | refine Part.sub kM ?_
    | split | intro _ | dsimp only | (show Part.subb _ _ = _; rfl) | (show Membership.mem (γ := List Part) _ _; decide)
    | with_reducible first
      | refine Kept.set_bell ?_ (kM.mem ?_)

theorem execPllLock_kept {kS s kT : State} (kH : Kept M kS s) (kE : execPllLock s = .next kT)
    (kM : Within [.bell] M := by exact Part.sub (by assumption) (by rfl)) :
    Kept M kS kT := by
  unfold execPllLock at kE
  repeat' first | contradiction | (injection kE with kE; subst kE) | split at kE | dsimp only at kE
  repeat' first
    | with_reducible first
      | assumption | apply lockCheck_kept | refine Part.sub kM ?_
    | split | intro _ | dsimp only | (show Part.subb _ _ = _; rfl) | (show Membership.mem (γ := List Part) _ _; decide)
    | with_reducible first
      | refine Kept.set_bell ?_ (kM.mem ?_)

theorem execDomainStartMark_kept {kS s kT : State} (kH : Kept M kS s) (kE : execDomainStartMark s = .next kT)
    (kM : Within [.bell] M := by exact Part.sub (by assumption) (by rfl)) :
    Kept M kS kT := by
  unfold execDomainStartMark at kE
  repeat' first | contradiction | (injection kE with kE; subst kE) | split at kE | dsimp only at kE
  repeat' first
    | with_reducible first
      | assumption | refine Part.sub kM ?_
    | split | intro _ | dsimp only | (show Part.subb _ _ = _; rfl) | (show Membership.mem (γ := List Part) _ _; decide)
    | with_reducible first
      | refine Kept.set_bell ?_ (kM.mem ?_)

theorem execLocalBellStart_kept {kS s kT : State} (kH : Kept M kS s) (kE : execLocalBellStart s = .next kT)
    (kM : Within [.fresh, .mem, .memKey, .memErr, .tags, .resv, .mc, .core, .phys, .int, .rc, .ptn, .ctx, .brn, .prs, .bell, .fab, .led, .lcs, .cpt, .pwr, .subf, .vat, .tst, .snp, .oh, .i3c] M := by exact Part.sub (by assumption) (by rfl)) :
    Kept M kS kT := by
  unfold execLocalBellStart at kE
  repeat' first | contradiction | (injection kE with kE; subst kE) | split at kE | dsimp only at kE
  repeat' first
    | with_reducible first
      | assumption | apply startCounter_kept | apply atBellInstant_kept | refine Part.sub kM ?_
    | split | intro _ | dsimp only | (show Part.subb _ _ = _; rfl) | (show Membership.mem (γ := List Part) _ _; decide)
    | with_reducible first
      | refine Kept.set_bell ?_ (kM.mem ?_)

theorem execDelayMeasurement_kept {kS s kT : State} {alt : Bool} {t1 : Nat} (kH : Kept M kS s)
    (kE : execDelayMeasurement alt t1 s = .next kT) (kM : Within [.rc, .bell] M := by exact Part.sub (by assumption) (by rfl)) :
    Kept M kS kT := by
  unfold execDelayMeasurement at kE
  repeat' first | contradiction | (injection kE with kE; subst kE) | split at kE | dsimp only at kE
  repeat' first
    | with_reducible first
      | assumption | apply syncSend_kept | apply modUp_kept | refine Part.sub kM ?_
    | split | intro _ | dsimp only | (show Part.subb _ _ = _; rfl) | (show Membership.mem (γ := List Part) _ _; decide)
    | with_reducible first
      | refine Kept.set_bell ?_ (kM.mem ?_)

theorem execProbeReceive_kept {kS s kT : State} {port : Nat} {f : List Byte} {t2 t3 : Nat} (kH : Kept M kS s)
    (kE : execProbeReceive port f t2 t3 s = .next kT) (kM : Within [.rc] M := by exact Part.sub (by assumption) (by rfl)) :
    Kept M kS kT := by
  unfold execProbeReceive at kE
  repeat' first | contradiction | (injection kE with kE; subst kE) | split at kE | dsimp only at kE
  repeat' first
    | with_reducible first
      | assumption | apply syncSend_kept | apply takeFrame_kept | refine Part.sub kM ?_
    | intro _ | dsimp only | (show Part.subb _ _ = _; rfl)

theorem takeDelay_kept {kS s : State} {alt : Bool} {d : Nat} (kH : Kept M kS s)
    (kM : Within [.bell] M := by exact Part.sub (by assumption) (by rfl)) :
    Kept M kS (takeDelay s alt d) := by
  unfold takeDelay
  repeat' first
    | with_reducible first
      | assumption | apply modUp_kept | apply lockCheck_kept | refine Part.sub kM ?_
    | split | intro _ | dsimp only | (show Part.subb _ _ = _; rfl) | (show Membership.mem (γ := List Part) _ _; decide)
    | with_reducible first
      | refine Kept.set_bell ?_ (kM.mem ?_)

theorem execEchoReceive_kept {kS s kT : State} {port : Nat} {f : List Byte} {t4 : Nat} (kH : Kept M kS s)
    (kE : execEchoReceive port f t4 s = .next kT) (kM : Within [.rc, .bell] M := by exact Part.sub (by assumption) (by rfl)) :
    Kept M kS kT := by
  unfold execEchoReceive at kE
  repeat' first | contradiction | (injection kE with kE; subst kE) | split at kE | dsimp only at kE
  repeat' first
    | with_reducible first
      | assumption | contradiction | apply takeFrame_kept | apply modUp_kept | apply takeDelay_kept
      | refine Kept.of_fst ‹_› ?_ | refine Kept.of_snd ‹_› ?_ | refine Part.sub kM ?_
    | split | intro _ | dsimp only | (show Part.subb _ _ = _; rfl)

theorem execBellRefLoss_kept {kS s kT : State} (kH : Kept M kS s) (kE : execBellRefLoss s = .next kT)
    (kM : Within [.bell] M := by exact Part.sub (by assumption) (by rfl)) :
    Kept M kS kT := by
  unfold execBellRefLoss at kE
  repeat' first | contradiction | (injection kE with kE; subst kE) | split at kE | dsimp only at kE
  repeat' first
    | with_reducible first
      | assumption | refine Part.sub kM ?_
    | intro _ | dsimp only | (show Part.subb _ _ = _; rfl) | (show Membership.mem (γ := List Part) _ _; decide)
    | with_reducible first
      | refine Kept.set_bell ?_ (kM.mem ?_)

theorem execBellRefReturn_kept {kS s kT : State} (kH : Kept M kS s) (kE : execBellRefReturn s = .next kT)
    (kM : Within [.bell] M := by exact Part.sub (by assumption) (by rfl)) :
    Kept M kS kT := by
  unfold execBellRefReturn at kE
  repeat' first | contradiction | (injection kE with kE; subst kE) | split at kE | dsimp only at kE
  repeat' first
    | with_reducible first
      | assumption | refine Part.sub kM ?_
    | intro _ | dsimp only | (show Part.subb _ _ = _; rfl) | (show Membership.mem (γ := List Part) _ _; decide)
    | with_reducible first
      | refine Kept.set_bell ?_ (kM.mem ?_)

end Sys2Proof.Machine
end

