-- ==== Sys2Proof/Laws/State.lean ====
section
/-! SUPPORT. What the updates of the parts of State change: the part that they name, and no other field. -/

namespace Sys2Proof.Machine

variable (s : State)

/-! ### Reading after an update -/

@[simp] theorem getPtn_modPtn (n : Nat) (f : Ptn → Ptn) : getPtn (modPtn s n f) n = f (getPtn s n) := tget_tmod_same
theorem getPtn_modPtn_other {n m : Nat} (f : Ptn → Ptn) (h : m ≠ n) : getPtn (modPtn s n f) m = getPtn s m := tget_tmod_other h
@[simp] theorem getCtx_modCtx (n : Nat) (f : Ctx → Ctx) : getCtx (modCtx s n f) n = f (getCtx s n) := tget_tmod_same
theorem getCtx_modCtx_other {n m : Nat} (f : Ctx → Ctx) (h : m ≠ n) : getCtx (modCtx s n f) m = getCtx s m := tget_tmod_other h
@[simp] theorem getCore_modCore (n : Nat) (f : Core → Core) : getCore (modCore s n f) n = f (getCore s n) := tget_tmod_same
theorem getCore_modCore_other {n m : Nat} (f : Core → Core) (h : m ≠ n) : getCore (modCore s n f) m = getCore s m := tget_tmod_other h
@[simp] theorem getSem_modSem (n : Nat) (f : Sem → Sem) : getSem (modSem s n f) n = f (getSem s n) := tget_tmod_same
theorem getSem_modSem_other {n m : Nat} (f : Sem → Sem) (h : m ≠ n) : getSem (modSem s n f) m = getSem s m := tget_tmod_other h
@[simp] theorem getBar_modBar (n : Nat) (f : Bar → Bar) : getBar (modBar s n f) n = f (getBar s n) := tget_tmod_same
theorem getBar_modBar_other {n m : Nat} (f : Bar → Bar) (h : m ≠ n) : getBar (modBar s n f) m = getBar s m := tget_tmod_other h
@[simp] theorem getPool_modPool (n : Nat) (f : Pool → Pool) : getPool (modPool s n f) n = f (getPool s n) := tget_tmod_same
theorem getPool_modPool_other {n m : Nat} (f : Pool → Pool) (h : m ≠ n) : getPool (modPool s n f) m = getPool s m := tget_tmod_other h
@[simp] theorem getBuf_modBuf (n : Nat) (f : Landing → Landing) : getBuf (modBuf s n f) n = f (getBuf s n) := tget_tmod_same
theorem getBuf_modBuf_other {n m : Nat} (f : Landing → Landing) (h : m ≠ n) : getBuf (modBuf s n f) m = getBuf s m := tget_tmod_other h
@[simp] theorem getPrs_modPrs (n : Nat) (f : Prs → Prs) : getPrs (modPrs s n f) n = f (getPrs s n) := tget_tmod_same
theorem getPrs_modPrs_other {n m : Nat} (f : Prs → Prs) (h : m ≠ n) : getPrs (modPrs s n f) m = getPrs s m := tget_tmod_other h
@[simp] theorem getPort_modPort (n : Nat) (f : VPort → VPort) : getPort (modPort s n f) n = f (getPort s n) := tget_tmod_same
theorem getPort_modPort_other {n m : Nat} (f : VPort → VPort) (h : m ≠ n) : getPort (modPort s n f) m = getPort s m := tget_tmod_other h
@[simp] theorem fabPort_modFab (n : Nat) (f : Port → Port) : fabPort (modFab s n f) n = f (fabPort s n) := tget_tmod_same
theorem fabPort_modFab_other {n m : Nat} (f : Port → Port) (h : m ≠ n) : fabPort (modFab s n f) m = fabPort s m := tget_tmod_other h
@[simp] theorem getPtn_modTt (p : Nat) (f : Tt → Tt) : (getPtn (modTt s p f) p).tt = f (getPtn s p).tt := by simp [modTt]
@[simp] theorem getThr_modThr (n t : Nat) (f : Thr → Thr) : getThr (modThr s n t f) n t = f (getThr s n t) := by
  simp [getThr, modThr]
theorem getThr_modThr_other {n m t u : Nat} (f : Thr → Thr) (h : (m, u) ≠ (n, t)) : getThr (modThr s n t f) m u = getThr s m u := by
  unfold getThr modThr
  by_cases hm : m = n
  · subst hm
    have hu : u ≠ t := fun e => h (by rw [e])
    simp [tget_tmod_other hu]
  · rw [getCore_modCore_other s _ hm]

/-! ### modPtn -/

@[simp] theorem modPtn_pending (p : Nat) (f : Ptn → Ptn) : (modPtn s p f).pending = s.pending := rfl
@[simp] theorem modPtn_fresh (p : Nat) (f : Ptn → Ptn) : (modPtn s p f).fresh = s.fresh := rfl
@[simp] theorem modPtn_cyc (p : Nat) (f : Ptn → Ptn) : (modPtn s p f).cyc = s.cyc := rfl
@[simp] theorem modPtn_mem (p : Nat) (f : Ptn → Ptn) : (modPtn s p f).mem = s.mem := rfl
@[simp] theorem modPtn_memKey (p : Nat) (f : Ptn → Ptn) : (modPtn s p f).memKey = s.memKey := rfl
@[simp] theorem modPtn_memErr (p : Nat) (f : Ptn → Ptn) : (modPtn s p f).memErr = s.memErr := rfl
@[simp] theorem modPtn_tags (p : Nat) (f : Ptn → Ptn) : (modPtn s p f).tags = s.tags := rfl
@[simp] theorem modPtn_resv (p : Nat) (f : Ptn → Ptn) : (modPtn s p f).resv = s.resv := rfl
@[simp] theorem modPtn_mc (p : Nat) (f : Ptn → Ptn) : (modPtn s p f).mc = s.mc := rfl
@[simp] theorem modPtn_core (p : Nat) (f : Ptn → Ptn) : (modPtn s p f).core = s.core := rfl
@[simp] theorem modPtn_phys (p : Nat) (f : Ptn → Ptn) : (modPtn s p f).phys = s.phys := rfl
@[simp] theorem modPtn_int (p : Nat) (f : Ptn → Ptn) : (modPtn s p f).int = s.int := rfl
@[simp] theorem modPtn_rc (p : Nat) (f : Ptn → Ptn) : (modPtn s p f).rc = s.rc := rfl
@[simp] theorem modPtn_ctx (p : Nat) (f : Ptn → Ptn) : (modPtn s p f).ctx = s.ctx := rfl
@[simp] theorem modPtn_brn (p : Nat) (f : Ptn → Ptn) : (modPtn s p f).brn = s.brn := rfl
@[simp] theorem modPtn_prs (p : Nat) (f : Ptn → Ptn) : (modPtn s p f).prs = s.prs := rfl
@[simp] theorem modPtn_bell (p : Nat) (f : Ptn → Ptn) : (modPtn s p f).bell = s.bell := rfl
@[simp] theorem modPtn_syl (p : Nat) (f : Ptn → Ptn) : (modPtn s p f).syl = s.syl := rfl
@[simp] theorem modPtn_keys (p : Nat) (f : Ptn → Ptn) : (modPtn s p f).keys = s.keys := rfl
@[simp] theorem modPtn_fab (p : Nat) (f : Ptn → Ptn) : (modPtn s p f).fab = s.fab := rfl
@[simp] theorem modPtn_xf (p : Nat) (f : Ptn → Ptn) : (modPtn s p f).xf = s.xf := rfl
@[simp] theorem modPtn_led (p : Nat) (f : Ptn → Ptn) : (modPtn s p f).led = s.led := rfl
@[simp] theorem modPtn_lcs (p : Nat) (f : Ptn → Ptn) : (modPtn s p f).lcs = s.lcs := rfl
@[simp] theorem modPtn_sec (p : Nat) (f : Ptn → Ptn) : (modPtn s p f).sec = s.sec := rfl
@[simp] theorem modPtn_cpt (p : Nat) (f : Ptn → Ptn) : (modPtn s p f).cpt = s.cpt := rfl
@[simp] theorem modPtn_ses (p : Nat) (f : Ptn → Ptn) : (modPtn s p f).ses = s.ses := rfl
@[simp] theorem modPtn_mod (p : Nat) (f : Ptn → Ptn) : (modPtn s p f).mod = s.mod := rfl
@[simp] theorem modPtn_pwr (p : Nat) (f : Ptn → Ptn) : (modPtn s p f).pwr = s.pwr := rfl
@[simp] theorem modPtn_subf (p : Nat) (f : Ptn → Ptn) : (modPtn s p f).subf = s.subf := rfl
@[simp] theorem modPtn_vat (p : Nat) (f : Ptn → Ptn) : (modPtn s p f).vat = s.vat := rfl
@[simp] theorem modPtn_tst (p : Nat) (f : Ptn → Ptn) : (modPtn s p f).tst = s.tst := rfl
@[simp] theorem modPtn_snp (p : Nat) (f : Ptn → Ptn) : (modPtn s p f).snp = s.snp := rfl
@[simp] theorem modPtn_oh (p : Nat) (f : Ptn → Ptn) : (modPtn s p f).oh = s.oh := rfl
@[simp] theorem modPtn_fuse (p : Nat) (f : Ptn → Ptn) : (modPtn s p f).fuse = s.fuse := rfl
@[simp] theorem modPtn_flash (p : Nat) (f : Ptn → Ptn) : (modPtn s p f).flash = s.flash := rfl
@[simp] theorem modPtn_tap (p : Nat) (f : Ptn → Ptn) : (modPtn s p f).tap = s.tap := rfl
@[simp] theorem modPtn_i3c (p : Nat) (f : Ptn → Ptn) : (modPtn s p f).i3c = s.i3c := rfl

/-! ### modTt -/

@[simp] theorem modTt_pending (p : Nat) (f : Tt → Tt) : (modTt s p f).pending = s.pending := rfl
@[simp] theorem modTt_fresh (p : Nat) (f : Tt → Tt) : (modTt s p f).fresh = s.fresh := rfl
@[simp] theorem modTt_cyc (p : Nat) (f : Tt → Tt) : (modTt s p f).cyc = s.cyc := rfl
@[simp] theorem modTt_mem (p : Nat) (f : Tt → Tt) : (modTt s p f).mem = s.mem := rfl
@[simp] theorem modTt_memKey (p : Nat) (f : Tt → Tt) : (modTt s p f).memKey = s.memKey := rfl
@[simp] theorem modTt_memErr (p : Nat) (f : Tt → Tt) : (modTt s p f).memErr = s.memErr := rfl
@[simp] theorem modTt_tags (p : Nat) (f : Tt → Tt) : (modTt s p f).tags = s.tags := rfl
@[simp] theorem modTt_resv (p : Nat) (f : Tt → Tt) : (modTt s p f).resv = s.resv := rfl
@[simp] theorem modTt_mc (p : Nat) (f : Tt → Tt) : (modTt s p f).mc = s.mc := rfl
@[simp] theorem modTt_core (p : Nat) (f : Tt → Tt) : (modTt s p f).core = s.core := rfl
@[simp] theorem modTt_phys (p : Nat) (f : Tt → Tt) : (modTt s p f).phys = s.phys := rfl
@[simp] theorem modTt_int (p : Nat) (f : Tt → Tt) : (modTt s p f).int = s.int := rfl
@[simp] theorem modTt_rc (p : Nat) (f : Tt → Tt) : (modTt s p f).rc = s.rc := rfl
@[simp] theorem modTt_ctx (p : Nat) (f : Tt → Tt) : (modTt s p f).ctx = s.ctx := rfl
@[simp] theorem modTt_brn (p : Nat) (f : Tt → Tt) : (modTt s p f).brn = s.brn := rfl
@[simp] theorem modTt_prs (p : Nat) (f : Tt → Tt) : (modTt s p f).prs = s.prs := rfl
@[simp] theorem modTt_bell (p : Nat) (f : Tt → Tt) : (modTt s p f).bell = s.bell := rfl
@[simp] theorem modTt_syl (p : Nat) (f : Tt → Tt) : (modTt s p f).syl = s.syl := rfl
@[simp] theorem modTt_keys (p : Nat) (f : Tt → Tt) : (modTt s p f).keys = s.keys := rfl
@[simp] theorem modTt_fab (p : Nat) (f : Tt → Tt) : (modTt s p f).fab = s.fab := rfl
@[simp] theorem modTt_xf (p : Nat) (f : Tt → Tt) : (modTt s p f).xf = s.xf := rfl
@[simp] theorem modTt_led (p : Nat) (f : Tt → Tt) : (modTt s p f).led = s.led := rfl
@[simp] theorem modTt_lcs (p : Nat) (f : Tt → Tt) : (modTt s p f).lcs = s.lcs := rfl
@[simp] theorem modTt_sec (p : Nat) (f : Tt → Tt) : (modTt s p f).sec = s.sec := rfl
@[simp] theorem modTt_cpt (p : Nat) (f : Tt → Tt) : (modTt s p f).cpt = s.cpt := rfl
@[simp] theorem modTt_ses (p : Nat) (f : Tt → Tt) : (modTt s p f).ses = s.ses := rfl
@[simp] theorem modTt_mod (p : Nat) (f : Tt → Tt) : (modTt s p f).mod = s.mod := rfl
@[simp] theorem modTt_pwr (p : Nat) (f : Tt → Tt) : (modTt s p f).pwr = s.pwr := rfl
@[simp] theorem modTt_subf (p : Nat) (f : Tt → Tt) : (modTt s p f).subf = s.subf := rfl
@[simp] theorem modTt_vat (p : Nat) (f : Tt → Tt) : (modTt s p f).vat = s.vat := rfl
@[simp] theorem modTt_tst (p : Nat) (f : Tt → Tt) : (modTt s p f).tst = s.tst := rfl
@[simp] theorem modTt_snp (p : Nat) (f : Tt → Tt) : (modTt s p f).snp = s.snp := rfl
@[simp] theorem modTt_oh (p : Nat) (f : Tt → Tt) : (modTt s p f).oh = s.oh := rfl
@[simp] theorem modTt_fuse (p : Nat) (f : Tt → Tt) : (modTt s p f).fuse = s.fuse := rfl
@[simp] theorem modTt_flash (p : Nat) (f : Tt → Tt) : (modTt s p f).flash = s.flash := rfl
@[simp] theorem modTt_tap (p : Nat) (f : Tt → Tt) : (modTt s p f).tap = s.tap := rfl
@[simp] theorem modTt_i3c (p : Nat) (f : Tt → Tt) : (modTt s p f).i3c = s.i3c := rfl

/-! ### modCtx -/

@[simp] theorem modCtx_pending (c : Nat) (f : Ctx → Ctx) : (modCtx s c f).pending = s.pending := rfl
@[simp] theorem modCtx_fresh (c : Nat) (f : Ctx → Ctx) : (modCtx s c f).fresh = s.fresh := rfl
@[simp] theorem modCtx_cyc (c : Nat) (f : Ctx → Ctx) : (modCtx s c f).cyc = s.cyc := rfl
@[simp] theorem modCtx_mem (c : Nat) (f : Ctx → Ctx) : (modCtx s c f).mem = s.mem := rfl
@[simp] theorem modCtx_memKey (c : Nat) (f : Ctx → Ctx) : (modCtx s c f).memKey = s.memKey := rfl
@[simp] theorem modCtx_memErr (c : Nat) (f : Ctx → Ctx) : (modCtx s c f).memErr = s.memErr := rfl
@[simp] theorem modCtx_tags (c : Nat) (f : Ctx → Ctx) : (modCtx s c f).tags = s.tags := rfl
@[simp] theorem modCtx_resv (c : Nat) (f : Ctx → Ctx) : (modCtx s c f).resv = s.resv := rfl
@[simp] theorem modCtx_mc (c : Nat) (f : Ctx → Ctx) : (modCtx s c f).mc = s.mc := rfl
@[simp] theorem modCtx_core (c : Nat) (f : Ctx → Ctx) : (modCtx s c f).core = s.core := rfl
@[simp] theorem modCtx_phys (c : Nat) (f : Ctx → Ctx) : (modCtx s c f).phys = s.phys := rfl
@[simp] theorem modCtx_int (c : Nat) (f : Ctx → Ctx) : (modCtx s c f).int = s.int := rfl
@[simp] theorem modCtx_rc (c : Nat) (f : Ctx → Ctx) : (modCtx s c f).rc = s.rc := rfl
@[simp] theorem modCtx_ptn (c : Nat) (f : Ctx → Ctx) : (modCtx s c f).ptn = s.ptn := rfl
@[simp] theorem modCtx_brn (c : Nat) (f : Ctx → Ctx) : (modCtx s c f).brn = s.brn := rfl
@[simp] theorem modCtx_prs (c : Nat) (f : Ctx → Ctx) : (modCtx s c f).prs = s.prs := rfl
@[simp] theorem modCtx_bell (c : Nat) (f : Ctx → Ctx) : (modCtx s c f).bell = s.bell := rfl
@[simp] theorem modCtx_syl (c : Nat) (f : Ctx → Ctx) : (modCtx s c f).syl = s.syl := rfl
@[simp] theorem modCtx_keys (c : Nat) (f : Ctx → Ctx) : (modCtx s c f).keys = s.keys := rfl
@[simp] theorem modCtx_fab (c : Nat) (f : Ctx → Ctx) : (modCtx s c f).fab = s.fab := rfl
@[simp] theorem modCtx_xf (c : Nat) (f : Ctx → Ctx) : (modCtx s c f).xf = s.xf := rfl
@[simp] theorem modCtx_led (c : Nat) (f : Ctx → Ctx) : (modCtx s c f).led = s.led := rfl
@[simp] theorem modCtx_lcs (c : Nat) (f : Ctx → Ctx) : (modCtx s c f).lcs = s.lcs := rfl
@[simp] theorem modCtx_sec (c : Nat) (f : Ctx → Ctx) : (modCtx s c f).sec = s.sec := rfl
@[simp] theorem modCtx_cpt (c : Nat) (f : Ctx → Ctx) : (modCtx s c f).cpt = s.cpt := rfl
@[simp] theorem modCtx_ses (c : Nat) (f : Ctx → Ctx) : (modCtx s c f).ses = s.ses := rfl
@[simp] theorem modCtx_mod (c : Nat) (f : Ctx → Ctx) : (modCtx s c f).mod = s.mod := rfl
@[simp] theorem modCtx_pwr (c : Nat) (f : Ctx → Ctx) : (modCtx s c f).pwr = s.pwr := rfl
@[simp] theorem modCtx_subf (c : Nat) (f : Ctx → Ctx) : (modCtx s c f).subf = s.subf := rfl
@[simp] theorem modCtx_vat (c : Nat) (f : Ctx → Ctx) : (modCtx s c f).vat = s.vat := rfl
@[simp] theorem modCtx_tst (c : Nat) (f : Ctx → Ctx) : (modCtx s c f).tst = s.tst := rfl
@[simp] theorem modCtx_snp (c : Nat) (f : Ctx → Ctx) : (modCtx s c f).snp = s.snp := rfl
@[simp] theorem modCtx_oh (c : Nat) (f : Ctx → Ctx) : (modCtx s c f).oh = s.oh := rfl
@[simp] theorem modCtx_fuse (c : Nat) (f : Ctx → Ctx) : (modCtx s c f).fuse = s.fuse := rfl
@[simp] theorem modCtx_flash (c : Nat) (f : Ctx → Ctx) : (modCtx s c f).flash = s.flash := rfl
@[simp] theorem modCtx_tap (c : Nat) (f : Ctx → Ctx) : (modCtx s c f).tap = s.tap := rfl
@[simp] theorem modCtx_i3c (c : Nat) (f : Ctx → Ctx) : (modCtx s c f).i3c = s.i3c := rfl

/-! ### modCore -/

@[simp] theorem modCore_pending (n : Nat) (f : Core → Core) : (modCore s n f).pending = s.pending := rfl
@[simp] theorem modCore_fresh (n : Nat) (f : Core → Core) : (modCore s n f).fresh = s.fresh := rfl
@[simp] theorem modCore_cyc (n : Nat) (f : Core → Core) : (modCore s n f).cyc = s.cyc := rfl
@[simp] theorem modCore_mem (n : Nat) (f : Core → Core) : (modCore s n f).mem = s.mem := rfl
@[simp] theorem modCore_memKey (n : Nat) (f : Core → Core) : (modCore s n f).memKey = s.memKey := rfl
@[simp] theorem modCore_memErr (n : Nat) (f : Core → Core) : (modCore s n f).memErr = s.memErr := rfl
@[simp] theorem modCore_tags (n : Nat) (f : Core → Core) : (modCore s n f).tags = s.tags := rfl
@[simp] theorem modCore_resv (n : Nat) (f : Core → Core) : (modCore s n f).resv = s.resv := rfl
@[simp] theorem modCore_mc (n : Nat) (f : Core → Core) : (modCore s n f).mc = s.mc := rfl
@[simp] theorem modCore_phys (n : Nat) (f : Core → Core) : (modCore s n f).phys = s.phys := rfl
@[simp] theorem modCore_int (n : Nat) (f : Core → Core) : (modCore s n f).int = s.int := rfl
@[simp] theorem modCore_rc (n : Nat) (f : Core → Core) : (modCore s n f).rc = s.rc := rfl
@[simp] theorem modCore_ptn (n : Nat) (f : Core → Core) : (modCore s n f).ptn = s.ptn := rfl
@[simp] theorem modCore_ctx (n : Nat) (f : Core → Core) : (modCore s n f).ctx = s.ctx := rfl
@[simp] theorem modCore_brn (n : Nat) (f : Core → Core) : (modCore s n f).brn = s.brn := rfl
@[simp] theorem modCore_prs (n : Nat) (f : Core → Core) : (modCore s n f).prs = s.prs := rfl
@[simp] theorem modCore_bell (n : Nat) (f : Core → Core) : (modCore s n f).bell = s.bell := rfl
@[simp] theorem modCore_syl (n : Nat) (f : Core → Core) : (modCore s n f).syl = s.syl := rfl
@[simp] theorem modCore_keys (n : Nat) (f : Core → Core) : (modCore s n f).keys = s.keys := rfl
@[simp] theorem modCore_fab (n : Nat) (f : Core → Core) : (modCore s n f).fab = s.fab := rfl
@[simp] theorem modCore_xf (n : Nat) (f : Core → Core) : (modCore s n f).xf = s.xf := rfl
@[simp] theorem modCore_led (n : Nat) (f : Core → Core) : (modCore s n f).led = s.led := rfl
@[simp] theorem modCore_lcs (n : Nat) (f : Core → Core) : (modCore s n f).lcs = s.lcs := rfl
@[simp] theorem modCore_sec (n : Nat) (f : Core → Core) : (modCore s n f).sec = s.sec := rfl
@[simp] theorem modCore_cpt (n : Nat) (f : Core → Core) : (modCore s n f).cpt = s.cpt := rfl
@[simp] theorem modCore_ses (n : Nat) (f : Core → Core) : (modCore s n f).ses = s.ses := rfl
@[simp] theorem modCore_mod (n : Nat) (f : Core → Core) : (modCore s n f).mod = s.mod := rfl
@[simp] theorem modCore_pwr (n : Nat) (f : Core → Core) : (modCore s n f).pwr = s.pwr := rfl
@[simp] theorem modCore_subf (n : Nat) (f : Core → Core) : (modCore s n f).subf = s.subf := rfl
@[simp] theorem modCore_vat (n : Nat) (f : Core → Core) : (modCore s n f).vat = s.vat := rfl
@[simp] theorem modCore_tst (n : Nat) (f : Core → Core) : (modCore s n f).tst = s.tst := rfl
@[simp] theorem modCore_snp (n : Nat) (f : Core → Core) : (modCore s n f).snp = s.snp := rfl
@[simp] theorem modCore_oh (n : Nat) (f : Core → Core) : (modCore s n f).oh = s.oh := rfl
@[simp] theorem modCore_fuse (n : Nat) (f : Core → Core) : (modCore s n f).fuse = s.fuse := rfl
@[simp] theorem modCore_flash (n : Nat) (f : Core → Core) : (modCore s n f).flash = s.flash := rfl
@[simp] theorem modCore_tap (n : Nat) (f : Core → Core) : (modCore s n f).tap = s.tap := rfl
@[simp] theorem modCore_i3c (n : Nat) (f : Core → Core) : (modCore s n f).i3c = s.i3c := rfl

/-! ### modThr -/

@[simp] theorem modThr_pending (n t : Nat) (f : Thr → Thr) : (modThr s n t f).pending = s.pending := rfl
@[simp] theorem modThr_fresh (n t : Nat) (f : Thr → Thr) : (modThr s n t f).fresh = s.fresh := rfl
@[simp] theorem modThr_cyc (n t : Nat) (f : Thr → Thr) : (modThr s n t f).cyc = s.cyc := rfl
@[simp] theorem modThr_mem (n t : Nat) (f : Thr → Thr) : (modThr s n t f).mem = s.mem := rfl
@[simp] theorem modThr_memKey (n t : Nat) (f : Thr → Thr) : (modThr s n t f).memKey = s.memKey := rfl
@[simp] theorem modThr_memErr (n t : Nat) (f : Thr → Thr) : (modThr s n t f).memErr = s.memErr := rfl
@[simp] theorem modThr_tags (n t : Nat) (f : Thr → Thr) : (modThr s n t f).tags = s.tags := rfl
@[simp] theorem modThr_resv (n t : Nat) (f : Thr → Thr) : (modThr s n t f).resv = s.resv := rfl
@[simp] theorem modThr_mc (n t : Nat) (f : Thr → Thr) : (modThr s n t f).mc = s.mc := rfl
@[simp] theorem modThr_phys (n t : Nat) (f : Thr → Thr) : (modThr s n t f).phys = s.phys := rfl
@[simp] theorem modThr_int (n t : Nat) (f : Thr → Thr) : (modThr s n t f).int = s.int := rfl
@[simp] theorem modThr_rc (n t : Nat) (f : Thr → Thr) : (modThr s n t f).rc = s.rc := rfl
@[simp] theorem modThr_ptn (n t : Nat) (f : Thr → Thr) : (modThr s n t f).ptn = s.ptn := rfl
@[simp] theorem modThr_ctx (n t : Nat) (f : Thr → Thr) : (modThr s n t f).ctx = s.ctx := rfl
@[simp] theorem modThr_brn (n t : Nat) (f : Thr → Thr) : (modThr s n t f).brn = s.brn := rfl
@[simp] theorem modThr_prs (n t : Nat) (f : Thr → Thr) : (modThr s n t f).prs = s.prs := rfl
@[simp] theorem modThr_bell (n t : Nat) (f : Thr → Thr) : (modThr s n t f).bell = s.bell := rfl
@[simp] theorem modThr_syl (n t : Nat) (f : Thr → Thr) : (modThr s n t f).syl = s.syl := rfl
@[simp] theorem modThr_keys (n t : Nat) (f : Thr → Thr) : (modThr s n t f).keys = s.keys := rfl
@[simp] theorem modThr_fab (n t : Nat) (f : Thr → Thr) : (modThr s n t f).fab = s.fab := rfl
@[simp] theorem modThr_xf (n t : Nat) (f : Thr → Thr) : (modThr s n t f).xf = s.xf := rfl
@[simp] theorem modThr_led (n t : Nat) (f : Thr → Thr) : (modThr s n t f).led = s.led := rfl
@[simp] theorem modThr_lcs (n t : Nat) (f : Thr → Thr) : (modThr s n t f).lcs = s.lcs := rfl
@[simp] theorem modThr_sec (n t : Nat) (f : Thr → Thr) : (modThr s n t f).sec = s.sec := rfl
@[simp] theorem modThr_cpt (n t : Nat) (f : Thr → Thr) : (modThr s n t f).cpt = s.cpt := rfl
@[simp] theorem modThr_ses (n t : Nat) (f : Thr → Thr) : (modThr s n t f).ses = s.ses := rfl
@[simp] theorem modThr_mod (n t : Nat) (f : Thr → Thr) : (modThr s n t f).mod = s.mod := rfl
@[simp] theorem modThr_pwr (n t : Nat) (f : Thr → Thr) : (modThr s n t f).pwr = s.pwr := rfl
@[simp] theorem modThr_subf (n t : Nat) (f : Thr → Thr) : (modThr s n t f).subf = s.subf := rfl
@[simp] theorem modThr_vat (n t : Nat) (f : Thr → Thr) : (modThr s n t f).vat = s.vat := rfl
@[simp] theorem modThr_tst (n t : Nat) (f : Thr → Thr) : (modThr s n t f).tst = s.tst := rfl
@[simp] theorem modThr_snp (n t : Nat) (f : Thr → Thr) : (modThr s n t f).snp = s.snp := rfl
@[simp] theorem modThr_oh (n t : Nat) (f : Thr → Thr) : (modThr s n t f).oh = s.oh := rfl
@[simp] theorem modThr_fuse (n t : Nat) (f : Thr → Thr) : (modThr s n t f).fuse = s.fuse := rfl
@[simp] theorem modThr_flash (n t : Nat) (f : Thr → Thr) : (modThr s n t f).flash = s.flash := rfl
@[simp] theorem modThr_tap (n t : Nat) (f : Thr → Thr) : (modThr s n t f).tap = s.tap := rfl
@[simp] theorem modThr_i3c (n t : Nat) (f : Thr → Thr) : (modThr s n t f).i3c = s.i3c := rfl

/-! ### modSem -/

@[simp] theorem modSem_pending (i : Nat) (f : Sem → Sem) : (modSem s i f).pending = s.pending := rfl
@[simp] theorem modSem_fresh (i : Nat) (f : Sem → Sem) : (modSem s i f).fresh = s.fresh := rfl
@[simp] theorem modSem_cyc (i : Nat) (f : Sem → Sem) : (modSem s i f).cyc = s.cyc := rfl
@[simp] theorem modSem_mem (i : Nat) (f : Sem → Sem) : (modSem s i f).mem = s.mem := rfl
@[simp] theorem modSem_memKey (i : Nat) (f : Sem → Sem) : (modSem s i f).memKey = s.memKey := rfl
@[simp] theorem modSem_memErr (i : Nat) (f : Sem → Sem) : (modSem s i f).memErr = s.memErr := rfl
@[simp] theorem modSem_tags (i : Nat) (f : Sem → Sem) : (modSem s i f).tags = s.tags := rfl
@[simp] theorem modSem_resv (i : Nat) (f : Sem → Sem) : (modSem s i f).resv = s.resv := rfl
@[simp] theorem modSem_mc (i : Nat) (f : Sem → Sem) : (modSem s i f).mc = s.mc := rfl
@[simp] theorem modSem_core (i : Nat) (f : Sem → Sem) : (modSem s i f).core = s.core := rfl
@[simp] theorem modSem_phys (i : Nat) (f : Sem → Sem) : (modSem s i f).phys = s.phys := rfl
@[simp] theorem modSem_int (i : Nat) (f : Sem → Sem) : (modSem s i f).int = s.int := rfl
@[simp] theorem modSem_ptn (i : Nat) (f : Sem → Sem) : (modSem s i f).ptn = s.ptn := rfl
@[simp] theorem modSem_ctx (i : Nat) (f : Sem → Sem) : (modSem s i f).ctx = s.ctx := rfl
@[simp] theorem modSem_brn (i : Nat) (f : Sem → Sem) : (modSem s i f).brn = s.brn := rfl
@[simp] theorem modSem_prs (i : Nat) (f : Sem → Sem) : (modSem s i f).prs = s.prs := rfl
@[simp] theorem modSem_bell (i : Nat) (f : Sem → Sem) : (modSem s i f).bell = s.bell := rfl
@[simp] theorem modSem_syl (i : Nat) (f : Sem → Sem) : (modSem s i f).syl = s.syl := rfl
@[simp] theorem modSem_keys (i : Nat) (f : Sem → Sem) : (modSem s i f).keys = s.keys := rfl
@[simp] theorem modSem_fab (i : Nat) (f : Sem → Sem) : (modSem s i f).fab = s.fab := rfl
@[simp] theorem modSem_xf (i : Nat) (f : Sem → Sem) : (modSem s i f).xf = s.xf := rfl
@[simp] theorem modSem_led (i : Nat) (f : Sem → Sem) : (modSem s i f).led = s.led := rfl
@[simp] theorem modSem_lcs (i : Nat) (f : Sem → Sem) : (modSem s i f).lcs = s.lcs := rfl
@[simp] theorem modSem_sec (i : Nat) (f : Sem → Sem) : (modSem s i f).sec = s.sec := rfl
@[simp] theorem modSem_cpt (i : Nat) (f : Sem → Sem) : (modSem s i f).cpt = s.cpt := rfl
@[simp] theorem modSem_ses (i : Nat) (f : Sem → Sem) : (modSem s i f).ses = s.ses := rfl
@[simp] theorem modSem_mod (i : Nat) (f : Sem → Sem) : (modSem s i f).mod = s.mod := rfl
@[simp] theorem modSem_pwr (i : Nat) (f : Sem → Sem) : (modSem s i f).pwr = s.pwr := rfl
@[simp] theorem modSem_subf (i : Nat) (f : Sem → Sem) : (modSem s i f).subf = s.subf := rfl
@[simp] theorem modSem_vat (i : Nat) (f : Sem → Sem) : (modSem s i f).vat = s.vat := rfl
@[simp] theorem modSem_tst (i : Nat) (f : Sem → Sem) : (modSem s i f).tst = s.tst := rfl
@[simp] theorem modSem_snp (i : Nat) (f : Sem → Sem) : (modSem s i f).snp = s.snp := rfl
@[simp] theorem modSem_oh (i : Nat) (f : Sem → Sem) : (modSem s i f).oh = s.oh := rfl
@[simp] theorem modSem_fuse (i : Nat) (f : Sem → Sem) : (modSem s i f).fuse = s.fuse := rfl
@[simp] theorem modSem_flash (i : Nat) (f : Sem → Sem) : (modSem s i f).flash = s.flash := rfl
@[simp] theorem modSem_tap (i : Nat) (f : Sem → Sem) : (modSem s i f).tap = s.tap := rfl
@[simp] theorem modSem_i3c (i : Nat) (f : Sem → Sem) : (modSem s i f).i3c = s.i3c := rfl

/-! ### modBar -/

@[simp] theorem modBar_pending (i : Nat) (f : Bar → Bar) : (modBar s i f).pending = s.pending := rfl
@[simp] theorem modBar_fresh (i : Nat) (f : Bar → Bar) : (modBar s i f).fresh = s.fresh := rfl
@[simp] theorem modBar_cyc (i : Nat) (f : Bar → Bar) : (modBar s i f).cyc = s.cyc := rfl
@[simp] theorem modBar_mem (i : Nat) (f : Bar → Bar) : (modBar s i f).mem = s.mem := rfl
@[simp] theorem modBar_memKey (i : Nat) (f : Bar → Bar) : (modBar s i f).memKey = s.memKey := rfl
@[simp] theorem modBar_memErr (i : Nat) (f : Bar → Bar) : (modBar s i f).memErr = s.memErr := rfl
@[simp] theorem modBar_tags (i : Nat) (f : Bar → Bar) : (modBar s i f).tags = s.tags := rfl
@[simp] theorem modBar_resv (i : Nat) (f : Bar → Bar) : (modBar s i f).resv = s.resv := rfl
@[simp] theorem modBar_mc (i : Nat) (f : Bar → Bar) : (modBar s i f).mc = s.mc := rfl
@[simp] theorem modBar_core (i : Nat) (f : Bar → Bar) : (modBar s i f).core = s.core := rfl
@[simp] theorem modBar_phys (i : Nat) (f : Bar → Bar) : (modBar s i f).phys = s.phys := rfl
@[simp] theorem modBar_int (i : Nat) (f : Bar → Bar) : (modBar s i f).int = s.int := rfl
@[simp] theorem modBar_ptn (i : Nat) (f : Bar → Bar) : (modBar s i f).ptn = s.ptn := rfl
@[simp] theorem modBar_ctx (i : Nat) (f : Bar → Bar) : (modBar s i f).ctx = s.ctx := rfl
@[simp] theorem modBar_brn (i : Nat) (f : Bar → Bar) : (modBar s i f).brn = s.brn := rfl
@[simp] theorem modBar_prs (i : Nat) (f : Bar → Bar) : (modBar s i f).prs = s.prs := rfl
@[simp] theorem modBar_bell (i : Nat) (f : Bar → Bar) : (modBar s i f).bell = s.bell := rfl
@[simp] theorem modBar_syl (i : Nat) (f : Bar → Bar) : (modBar s i f).syl = s.syl := rfl
@[simp] theorem modBar_keys (i : Nat) (f : Bar → Bar) : (modBar s i f).keys = s.keys := rfl
@[simp] theorem modBar_fab (i : Nat) (f : Bar → Bar) : (modBar s i f).fab = s.fab := rfl
@[simp] theorem modBar_xf (i : Nat) (f : Bar → Bar) : (modBar s i f).xf = s.xf := rfl
@[simp] theorem modBar_led (i : Nat) (f : Bar → Bar) : (modBar s i f).led = s.led := rfl
@[simp] theorem modBar_lcs (i : Nat) (f : Bar → Bar) : (modBar s i f).lcs = s.lcs := rfl
@[simp] theorem modBar_sec (i : Nat) (f : Bar → Bar) : (modBar s i f).sec = s.sec := rfl
@[simp] theorem modBar_cpt (i : Nat) (f : Bar → Bar) : (modBar s i f).cpt = s.cpt := rfl
@[simp] theorem modBar_ses (i : Nat) (f : Bar → Bar) : (modBar s i f).ses = s.ses := rfl
@[simp] theorem modBar_mod (i : Nat) (f : Bar → Bar) : (modBar s i f).mod = s.mod := rfl
@[simp] theorem modBar_pwr (i : Nat) (f : Bar → Bar) : (modBar s i f).pwr = s.pwr := rfl
@[simp] theorem modBar_subf (i : Nat) (f : Bar → Bar) : (modBar s i f).subf = s.subf := rfl
@[simp] theorem modBar_vat (i : Nat) (f : Bar → Bar) : (modBar s i f).vat = s.vat := rfl
@[simp] theorem modBar_tst (i : Nat) (f : Bar → Bar) : (modBar s i f).tst = s.tst := rfl
@[simp] theorem modBar_snp (i : Nat) (f : Bar → Bar) : (modBar s i f).snp = s.snp := rfl
@[simp] theorem modBar_oh (i : Nat) (f : Bar → Bar) : (modBar s i f).oh = s.oh := rfl
@[simp] theorem modBar_fuse (i : Nat) (f : Bar → Bar) : (modBar s i f).fuse = s.fuse := rfl
@[simp] theorem modBar_flash (i : Nat) (f : Bar → Bar) : (modBar s i f).flash = s.flash := rfl
@[simp] theorem modBar_tap (i : Nat) (f : Bar → Bar) : (modBar s i f).tap = s.tap := rfl
@[simp] theorem modBar_i3c (i : Nat) (f : Bar → Bar) : (modBar s i f).i3c = s.i3c := rfl

/-! ### modPool -/

@[simp] theorem modPool_pending (i : Nat) (f : Pool → Pool) : (modPool s i f).pending = s.pending := rfl
@[simp] theorem modPool_fresh (i : Nat) (f : Pool → Pool) : (modPool s i f).fresh = s.fresh := rfl
@[simp] theorem modPool_cyc (i : Nat) (f : Pool → Pool) : (modPool s i f).cyc = s.cyc := rfl
@[simp] theorem modPool_mem (i : Nat) (f : Pool → Pool) : (modPool s i f).mem = s.mem := rfl
@[simp] theorem modPool_memKey (i : Nat) (f : Pool → Pool) : (modPool s i f).memKey = s.memKey := rfl
@[simp] theorem modPool_memErr (i : Nat) (f : Pool → Pool) : (modPool s i f).memErr = s.memErr := rfl
@[simp] theorem modPool_tags (i : Nat) (f : Pool → Pool) : (modPool s i f).tags = s.tags := rfl
@[simp] theorem modPool_resv (i : Nat) (f : Pool → Pool) : (modPool s i f).resv = s.resv := rfl
@[simp] theorem modPool_mc (i : Nat) (f : Pool → Pool) : (modPool s i f).mc = s.mc := rfl
@[simp] theorem modPool_core (i : Nat) (f : Pool → Pool) : (modPool s i f).core = s.core := rfl
@[simp] theorem modPool_phys (i : Nat) (f : Pool → Pool) : (modPool s i f).phys = s.phys := rfl
@[simp] theorem modPool_int (i : Nat) (f : Pool → Pool) : (modPool s i f).int = s.int := rfl
@[simp] theorem modPool_ptn (i : Nat) (f : Pool → Pool) : (modPool s i f).ptn = s.ptn := rfl
@[simp] theorem modPool_ctx (i : Nat) (f : Pool → Pool) : (modPool s i f).ctx = s.ctx := rfl
@[simp] theorem modPool_brn (i : Nat) (f : Pool → Pool) : (modPool s i f).brn = s.brn := rfl
@[simp] theorem modPool_prs (i : Nat) (f : Pool → Pool) : (modPool s i f).prs = s.prs := rfl
@[simp] theorem modPool_bell (i : Nat) (f : Pool → Pool) : (modPool s i f).bell = s.bell := rfl
@[simp] theorem modPool_syl (i : Nat) (f : Pool → Pool) : (modPool s i f).syl = s.syl := rfl
@[simp] theorem modPool_keys (i : Nat) (f : Pool → Pool) : (modPool s i f).keys = s.keys := rfl
@[simp] theorem modPool_fab (i : Nat) (f : Pool → Pool) : (modPool s i f).fab = s.fab := rfl
@[simp] theorem modPool_xf (i : Nat) (f : Pool → Pool) : (modPool s i f).xf = s.xf := rfl
@[simp] theorem modPool_led (i : Nat) (f : Pool → Pool) : (modPool s i f).led = s.led := rfl
@[simp] theorem modPool_lcs (i : Nat) (f : Pool → Pool) : (modPool s i f).lcs = s.lcs := rfl
@[simp] theorem modPool_sec (i : Nat) (f : Pool → Pool) : (modPool s i f).sec = s.sec := rfl
@[simp] theorem modPool_cpt (i : Nat) (f : Pool → Pool) : (modPool s i f).cpt = s.cpt := rfl
@[simp] theorem modPool_ses (i : Nat) (f : Pool → Pool) : (modPool s i f).ses = s.ses := rfl
@[simp] theorem modPool_mod (i : Nat) (f : Pool → Pool) : (modPool s i f).mod = s.mod := rfl
@[simp] theorem modPool_pwr (i : Nat) (f : Pool → Pool) : (modPool s i f).pwr = s.pwr := rfl
@[simp] theorem modPool_subf (i : Nat) (f : Pool → Pool) : (modPool s i f).subf = s.subf := rfl
@[simp] theorem modPool_vat (i : Nat) (f : Pool → Pool) : (modPool s i f).vat = s.vat := rfl
@[simp] theorem modPool_tst (i : Nat) (f : Pool → Pool) : (modPool s i f).tst = s.tst := rfl
@[simp] theorem modPool_snp (i : Nat) (f : Pool → Pool) : (modPool s i f).snp = s.snp := rfl
@[simp] theorem modPool_oh (i : Nat) (f : Pool → Pool) : (modPool s i f).oh = s.oh := rfl
@[simp] theorem modPool_fuse (i : Nat) (f : Pool → Pool) : (modPool s i f).fuse = s.fuse := rfl
@[simp] theorem modPool_flash (i : Nat) (f : Pool → Pool) : (modPool s i f).flash = s.flash := rfl
@[simp] theorem modPool_tap (i : Nat) (f : Pool → Pool) : (modPool s i f).tap = s.tap := rfl
@[simp] theorem modPool_i3c (i : Nat) (f : Pool → Pool) : (modPool s i f).i3c = s.i3c := rfl

/-! ### modBuf -/

@[simp] theorem modBuf_pending (i : Nat) (f : Landing → Landing) : (modBuf s i f).pending = s.pending := rfl
@[simp] theorem modBuf_fresh (i : Nat) (f : Landing → Landing) : (modBuf s i f).fresh = s.fresh := rfl
@[simp] theorem modBuf_cyc (i : Nat) (f : Landing → Landing) : (modBuf s i f).cyc = s.cyc := rfl
@[simp] theorem modBuf_mem (i : Nat) (f : Landing → Landing) : (modBuf s i f).mem = s.mem := rfl
@[simp] theorem modBuf_memKey (i : Nat) (f : Landing → Landing) : (modBuf s i f).memKey = s.memKey := rfl
@[simp] theorem modBuf_memErr (i : Nat) (f : Landing → Landing) : (modBuf s i f).memErr = s.memErr := rfl
@[simp] theorem modBuf_tags (i : Nat) (f : Landing → Landing) : (modBuf s i f).tags = s.tags := rfl
@[simp] theorem modBuf_resv (i : Nat) (f : Landing → Landing) : (modBuf s i f).resv = s.resv := rfl
@[simp] theorem modBuf_mc (i : Nat) (f : Landing → Landing) : (modBuf s i f).mc = s.mc := rfl
@[simp] theorem modBuf_core (i : Nat) (f : Landing → Landing) : (modBuf s i f).core = s.core := rfl
@[simp] theorem modBuf_phys (i : Nat) (f : Landing → Landing) : (modBuf s i f).phys = s.phys := rfl
@[simp] theorem modBuf_int (i : Nat) (f : Landing → Landing) : (modBuf s i f).int = s.int := rfl
@[simp] theorem modBuf_ptn (i : Nat) (f : Landing → Landing) : (modBuf s i f).ptn = s.ptn := rfl
@[simp] theorem modBuf_ctx (i : Nat) (f : Landing → Landing) : (modBuf s i f).ctx = s.ctx := rfl
@[simp] theorem modBuf_brn (i : Nat) (f : Landing → Landing) : (modBuf s i f).brn = s.brn := rfl
@[simp] theorem modBuf_prs (i : Nat) (f : Landing → Landing) : (modBuf s i f).prs = s.prs := rfl
@[simp] theorem modBuf_bell (i : Nat) (f : Landing → Landing) : (modBuf s i f).bell = s.bell := rfl
@[simp] theorem modBuf_syl (i : Nat) (f : Landing → Landing) : (modBuf s i f).syl = s.syl := rfl
@[simp] theorem modBuf_keys (i : Nat) (f : Landing → Landing) : (modBuf s i f).keys = s.keys := rfl
@[simp] theorem modBuf_fab (i : Nat) (f : Landing → Landing) : (modBuf s i f).fab = s.fab := rfl
@[simp] theorem modBuf_xf (i : Nat) (f : Landing → Landing) : (modBuf s i f).xf = s.xf := rfl
@[simp] theorem modBuf_led (i : Nat) (f : Landing → Landing) : (modBuf s i f).led = s.led := rfl
@[simp] theorem modBuf_lcs (i : Nat) (f : Landing → Landing) : (modBuf s i f).lcs = s.lcs := rfl
@[simp] theorem modBuf_sec (i : Nat) (f : Landing → Landing) : (modBuf s i f).sec = s.sec := rfl
@[simp] theorem modBuf_cpt (i : Nat) (f : Landing → Landing) : (modBuf s i f).cpt = s.cpt := rfl
@[simp] theorem modBuf_ses (i : Nat) (f : Landing → Landing) : (modBuf s i f).ses = s.ses := rfl
@[simp] theorem modBuf_mod (i : Nat) (f : Landing → Landing) : (modBuf s i f).mod = s.mod := rfl
@[simp] theorem modBuf_pwr (i : Nat) (f : Landing → Landing) : (modBuf s i f).pwr = s.pwr := rfl
@[simp] theorem modBuf_subf (i : Nat) (f : Landing → Landing) : (modBuf s i f).subf = s.subf := rfl
@[simp] theorem modBuf_vat (i : Nat) (f : Landing → Landing) : (modBuf s i f).vat = s.vat := rfl
@[simp] theorem modBuf_tst (i : Nat) (f : Landing → Landing) : (modBuf s i f).tst = s.tst := rfl
@[simp] theorem modBuf_snp (i : Nat) (f : Landing → Landing) : (modBuf s i f).snp = s.snp := rfl
@[simp] theorem modBuf_oh (i : Nat) (f : Landing → Landing) : (modBuf s i f).oh = s.oh := rfl
@[simp] theorem modBuf_fuse (i : Nat) (f : Landing → Landing) : (modBuf s i f).fuse = s.fuse := rfl
@[simp] theorem modBuf_flash (i : Nat) (f : Landing → Landing) : (modBuf s i f).flash = s.flash := rfl
@[simp] theorem modBuf_tap (i : Nat) (f : Landing → Landing) : (modBuf s i f).tap = s.tap := rfl
@[simp] theorem modBuf_i3c (i : Nat) (f : Landing → Landing) : (modBuf s i f).i3c = s.i3c := rfl

/-! ### modPhys -/

@[simp] theorem modPhys_pending (p : Nat) (f : Phys → Phys) : (modPhys s p f).pending = s.pending := rfl
@[simp] theorem modPhys_fresh (p : Nat) (f : Phys → Phys) : (modPhys s p f).fresh = s.fresh := rfl
@[simp] theorem modPhys_cyc (p : Nat) (f : Phys → Phys) : (modPhys s p f).cyc = s.cyc := rfl
@[simp] theorem modPhys_mem (p : Nat) (f : Phys → Phys) : (modPhys s p f).mem = s.mem := rfl
@[simp] theorem modPhys_memKey (p : Nat) (f : Phys → Phys) : (modPhys s p f).memKey = s.memKey := rfl
@[simp] theorem modPhys_memErr (p : Nat) (f : Phys → Phys) : (modPhys s p f).memErr = s.memErr := rfl
@[simp] theorem modPhys_tags (p : Nat) (f : Phys → Phys) : (modPhys s p f).tags = s.tags := rfl
@[simp] theorem modPhys_resv (p : Nat) (f : Phys → Phys) : (modPhys s p f).resv = s.resv := rfl
@[simp] theorem modPhys_mc (p : Nat) (f : Phys → Phys) : (modPhys s p f).mc = s.mc := rfl
@[simp] theorem modPhys_core (p : Nat) (f : Phys → Phys) : (modPhys s p f).core = s.core := rfl
@[simp] theorem modPhys_int (p : Nat) (f : Phys → Phys) : (modPhys s p f).int = s.int := rfl
@[simp] theorem modPhys_rc (p : Nat) (f : Phys → Phys) : (modPhys s p f).rc = s.rc := rfl
@[simp] theorem modPhys_ptn (p : Nat) (f : Phys → Phys) : (modPhys s p f).ptn = s.ptn := rfl
@[simp] theorem modPhys_ctx (p : Nat) (f : Phys → Phys) : (modPhys s p f).ctx = s.ctx := rfl
@[simp] theorem modPhys_brn (p : Nat) (f : Phys → Phys) : (modPhys s p f).brn = s.brn := rfl
@[simp] theorem modPhys_prs (p : Nat) (f : Phys → Phys) : (modPhys s p f).prs = s.prs := rfl
@[simp] theorem modPhys_bell (p : Nat) (f : Phys → Phys) : (modPhys s p f).bell = s.bell := rfl
@[simp] theorem modPhys_syl (p : Nat) (f : Phys → Phys) : (modPhys s p f).syl = s.syl := rfl
@[simp] theorem modPhys_keys (p : Nat) (f : Phys → Phys) : (modPhys s p f).keys = s.keys := rfl
@[simp] theorem modPhys_fab (p : Nat) (f : Phys → Phys) : (modPhys s p f).fab = s.fab := rfl
@[simp] theorem modPhys_xf (p : Nat) (f : Phys → Phys) : (modPhys s p f).xf = s.xf := rfl
@[simp] theorem modPhys_led (p : Nat) (f : Phys → Phys) : (modPhys s p f).led = s.led := rfl
@[simp] theorem modPhys_lcs (p : Nat) (f : Phys → Phys) : (modPhys s p f).lcs = s.lcs := rfl
@[simp] theorem modPhys_sec (p : Nat) (f : Phys → Phys) : (modPhys s p f).sec = s.sec := rfl
@[simp] theorem modPhys_cpt (p : Nat) (f : Phys → Phys) : (modPhys s p f).cpt = s.cpt := rfl
@[simp] theorem modPhys_ses (p : Nat) (f : Phys → Phys) : (modPhys s p f).ses = s.ses := rfl
@[simp] theorem modPhys_mod (p : Nat) (f : Phys → Phys) : (modPhys s p f).mod = s.mod := rfl
@[simp] theorem modPhys_pwr (p : Nat) (f : Phys → Phys) : (modPhys s p f).pwr = s.pwr := rfl
@[simp] theorem modPhys_subf (p : Nat) (f : Phys → Phys) : (modPhys s p f).subf = s.subf := rfl
@[simp] theorem modPhys_vat (p : Nat) (f : Phys → Phys) : (modPhys s p f).vat = s.vat := rfl
@[simp] theorem modPhys_tst (p : Nat) (f : Phys → Phys) : (modPhys s p f).tst = s.tst := rfl
@[simp] theorem modPhys_snp (p : Nat) (f : Phys → Phys) : (modPhys s p f).snp = s.snp := rfl
@[simp] theorem modPhys_oh (p : Nat) (f : Phys → Phys) : (modPhys s p f).oh = s.oh := rfl
@[simp] theorem modPhys_fuse (p : Nat) (f : Phys → Phys) : (modPhys s p f).fuse = s.fuse := rfl
@[simp] theorem modPhys_flash (p : Nat) (f : Phys → Phys) : (modPhys s p f).flash = s.flash := rfl
@[simp] theorem modPhys_tap (p : Nat) (f : Phys → Phys) : (modPhys s p f).tap = s.tap := rfl
@[simp] theorem modPhys_i3c (p : Nat) (f : Phys → Phys) : (modPhys s p f).i3c = s.i3c := rfl

/-! ### modPrs -/

@[simp] theorem modPrs_pending (r : Nat) (f : Prs → Prs) : (modPrs s r f).pending = s.pending := rfl
@[simp] theorem modPrs_fresh (r : Nat) (f : Prs → Prs) : (modPrs s r f).fresh = s.fresh := rfl
@[simp] theorem modPrs_cyc (r : Nat) (f : Prs → Prs) : (modPrs s r f).cyc = s.cyc := rfl
@[simp] theorem modPrs_mem (r : Nat) (f : Prs → Prs) : (modPrs s r f).mem = s.mem := rfl
@[simp] theorem modPrs_memKey (r : Nat) (f : Prs → Prs) : (modPrs s r f).memKey = s.memKey := rfl
@[simp] theorem modPrs_memErr (r : Nat) (f : Prs → Prs) : (modPrs s r f).memErr = s.memErr := rfl
@[simp] theorem modPrs_tags (r : Nat) (f : Prs → Prs) : (modPrs s r f).tags = s.tags := rfl
@[simp] theorem modPrs_resv (r : Nat) (f : Prs → Prs) : (modPrs s r f).resv = s.resv := rfl
@[simp] theorem modPrs_mc (r : Nat) (f : Prs → Prs) : (modPrs s r f).mc = s.mc := rfl
@[simp] theorem modPrs_core (r : Nat) (f : Prs → Prs) : (modPrs s r f).core = s.core := rfl
@[simp] theorem modPrs_phys (r : Nat) (f : Prs → Prs) : (modPrs s r f).phys = s.phys := rfl
@[simp] theorem modPrs_int (r : Nat) (f : Prs → Prs) : (modPrs s r f).int = s.int := rfl
@[simp] theorem modPrs_rc (r : Nat) (f : Prs → Prs) : (modPrs s r f).rc = s.rc := rfl
@[simp] theorem modPrs_ptn (r : Nat) (f : Prs → Prs) : (modPrs s r f).ptn = s.ptn := rfl
@[simp] theorem modPrs_ctx (r : Nat) (f : Prs → Prs) : (modPrs s r f).ctx = s.ctx := rfl
@[simp] theorem modPrs_brn (r : Nat) (f : Prs → Prs) : (modPrs s r f).brn = s.brn := rfl
@[simp] theorem modPrs_bell (r : Nat) (f : Prs → Prs) : (modPrs s r f).bell = s.bell := rfl
@[simp] theorem modPrs_syl (r : Nat) (f : Prs → Prs) : (modPrs s r f).syl = s.syl := rfl
@[simp] theorem modPrs_keys (r : Nat) (f : Prs → Prs) : (modPrs s r f).keys = s.keys := rfl
@[simp] theorem modPrs_fab (r : Nat) (f : Prs → Prs) : (modPrs s r f).fab = s.fab := rfl
@[simp] theorem modPrs_xf (r : Nat) (f : Prs → Prs) : (modPrs s r f).xf = s.xf := rfl
@[simp] theorem modPrs_led (r : Nat) (f : Prs → Prs) : (modPrs s r f).led = s.led := rfl
@[simp] theorem modPrs_lcs (r : Nat) (f : Prs → Prs) : (modPrs s r f).lcs = s.lcs := rfl
@[simp] theorem modPrs_sec (r : Nat) (f : Prs → Prs) : (modPrs s r f).sec = s.sec := rfl
@[simp] theorem modPrs_cpt (r : Nat) (f : Prs → Prs) : (modPrs s r f).cpt = s.cpt := rfl
@[simp] theorem modPrs_ses (r : Nat) (f : Prs → Prs) : (modPrs s r f).ses = s.ses := rfl
@[simp] theorem modPrs_mod (r : Nat) (f : Prs → Prs) : (modPrs s r f).mod = s.mod := rfl
@[simp] theorem modPrs_pwr (r : Nat) (f : Prs → Prs) : (modPrs s r f).pwr = s.pwr := rfl
@[simp] theorem modPrs_subf (r : Nat) (f : Prs → Prs) : (modPrs s r f).subf = s.subf := rfl
@[simp] theorem modPrs_vat (r : Nat) (f : Prs → Prs) : (modPrs s r f).vat = s.vat := rfl
@[simp] theorem modPrs_tst (r : Nat) (f : Prs → Prs) : (modPrs s r f).tst = s.tst := rfl
@[simp] theorem modPrs_snp (r : Nat) (f : Prs → Prs) : (modPrs s r f).snp = s.snp := rfl
@[simp] theorem modPrs_oh (r : Nat) (f : Prs → Prs) : (modPrs s r f).oh = s.oh := rfl
@[simp] theorem modPrs_fuse (r : Nat) (f : Prs → Prs) : (modPrs s r f).fuse = s.fuse := rfl
@[simp] theorem modPrs_flash (r : Nat) (f : Prs → Prs) : (modPrs s r f).flash = s.flash := rfl
@[simp] theorem modPrs_tap (r : Nat) (f : Prs → Prs) : (modPrs s r f).tap = s.tap := rfl
@[simp] theorem modPrs_i3c (r : Nat) (f : Prs → Prs) : (modPrs s r f).i3c = s.i3c := rfl

/-! ### modPort -/

@[simp] theorem modPort_pending (n : Nat) (f : VPort → VPort) : (modPort s n f).pending = s.pending := rfl
@[simp] theorem modPort_fresh (n : Nat) (f : VPort → VPort) : (modPort s n f).fresh = s.fresh := rfl
@[simp] theorem modPort_cyc (n : Nat) (f : VPort → VPort) : (modPort s n f).cyc = s.cyc := rfl
@[simp] theorem modPort_mem (n : Nat) (f : VPort → VPort) : (modPort s n f).mem = s.mem := rfl
@[simp] theorem modPort_memKey (n : Nat) (f : VPort → VPort) : (modPort s n f).memKey = s.memKey := rfl
@[simp] theorem modPort_memErr (n : Nat) (f : VPort → VPort) : (modPort s n f).memErr = s.memErr := rfl
@[simp] theorem modPort_tags (n : Nat) (f : VPort → VPort) : (modPort s n f).tags = s.tags := rfl
@[simp] theorem modPort_resv (n : Nat) (f : VPort → VPort) : (modPort s n f).resv = s.resv := rfl
@[simp] theorem modPort_mc (n : Nat) (f : VPort → VPort) : (modPort s n f).mc = s.mc := rfl
@[simp] theorem modPort_core (n : Nat) (f : VPort → VPort) : (modPort s n f).core = s.core := rfl
@[simp] theorem modPort_phys (n : Nat) (f : VPort → VPort) : (modPort s n f).phys = s.phys := rfl
@[simp] theorem modPort_int (n : Nat) (f : VPort → VPort) : (modPort s n f).int = s.int := rfl
@[simp] theorem modPort_rc (n : Nat) (f : VPort → VPort) : (modPort s n f).rc = s.rc := rfl
@[simp] theorem modPort_ptn (n : Nat) (f : VPort → VPort) : (modPort s n f).ptn = s.ptn := rfl
@[simp] theorem modPort_ctx (n : Nat) (f : VPort → VPort) : (modPort s n f).ctx = s.ctx := rfl
@[simp] theorem modPort_brn (n : Nat) (f : VPort → VPort) : (modPort s n f).brn = s.brn := rfl
@[simp] theorem modPort_prs (n : Nat) (f : VPort → VPort) : (modPort s n f).prs = s.prs := rfl
@[simp] theorem modPort_bell (n : Nat) (f : VPort → VPort) : (modPort s n f).bell = s.bell := rfl
@[simp] theorem modPort_syl (n : Nat) (f : VPort → VPort) : (modPort s n f).syl = s.syl := rfl
@[simp] theorem modPort_keys (n : Nat) (f : VPort → VPort) : (modPort s n f).keys = s.keys := rfl
@[simp] theorem modPort_fab (n : Nat) (f : VPort → VPort) : (modPort s n f).fab = s.fab := rfl
@[simp] theorem modPort_xf (n : Nat) (f : VPort → VPort) : (modPort s n f).xf = s.xf := rfl
@[simp] theorem modPort_led (n : Nat) (f : VPort → VPort) : (modPort s n f).led = s.led := rfl
@[simp] theorem modPort_lcs (n : Nat) (f : VPort → VPort) : (modPort s n f).lcs = s.lcs := rfl
@[simp] theorem modPort_sec (n : Nat) (f : VPort → VPort) : (modPort s n f).sec = s.sec := rfl
@[simp] theorem modPort_cpt (n : Nat) (f : VPort → VPort) : (modPort s n f).cpt = s.cpt := rfl
@[simp] theorem modPort_ses (n : Nat) (f : VPort → VPort) : (modPort s n f).ses = s.ses := rfl
@[simp] theorem modPort_mod (n : Nat) (f : VPort → VPort) : (modPort s n f).mod = s.mod := rfl
@[simp] theorem modPort_pwr (n : Nat) (f : VPort → VPort) : (modPort s n f).pwr = s.pwr := rfl
@[simp] theorem modPort_subf (n : Nat) (f : VPort → VPort) : (modPort s n f).subf = s.subf := rfl
@[simp] theorem modPort_tst (n : Nat) (f : VPort → VPort) : (modPort s n f).tst = s.tst := rfl
@[simp] theorem modPort_snp (n : Nat) (f : VPort → VPort) : (modPort s n f).snp = s.snp := rfl
@[simp] theorem modPort_oh (n : Nat) (f : VPort → VPort) : (modPort s n f).oh = s.oh := rfl
@[simp] theorem modPort_fuse (n : Nat) (f : VPort → VPort) : (modPort s n f).fuse = s.fuse := rfl
@[simp] theorem modPort_flash (n : Nat) (f : VPort → VPort) : (modPort s n f).flash = s.flash := rfl
@[simp] theorem modPort_tap (n : Nat) (f : VPort → VPort) : (modPort s n f).tap = s.tap := rfl
@[simp] theorem modPort_i3c (n : Nat) (f : VPort → VPort) : (modPort s n f).i3c = s.i3c := rfl

/-! ### modFab -/

@[simp] theorem modFab_pending (p : Nat) (f : Port → Port) : (modFab s p f).pending = s.pending := rfl
@[simp] theorem modFab_fresh (p : Nat) (f : Port → Port) : (modFab s p f).fresh = s.fresh := rfl
@[simp] theorem modFab_cyc (p : Nat) (f : Port → Port) : (modFab s p f).cyc = s.cyc := rfl
@[simp] theorem modFab_mem (p : Nat) (f : Port → Port) : (modFab s p f).mem = s.mem := rfl
@[simp] theorem modFab_memKey (p : Nat) (f : Port → Port) : (modFab s p f).memKey = s.memKey := rfl
@[simp] theorem modFab_memErr (p : Nat) (f : Port → Port) : (modFab s p f).memErr = s.memErr := rfl
@[simp] theorem modFab_tags (p : Nat) (f : Port → Port) : (modFab s p f).tags = s.tags := rfl
@[simp] theorem modFab_resv (p : Nat) (f : Port → Port) : (modFab s p f).resv = s.resv := rfl
@[simp] theorem modFab_mc (p : Nat) (f : Port → Port) : (modFab s p f).mc = s.mc := rfl
@[simp] theorem modFab_core (p : Nat) (f : Port → Port) : (modFab s p f).core = s.core := rfl
@[simp] theorem modFab_phys (p : Nat) (f : Port → Port) : (modFab s p f).phys = s.phys := rfl
@[simp] theorem modFab_int (p : Nat) (f : Port → Port) : (modFab s p f).int = s.int := rfl
@[simp] theorem modFab_rc (p : Nat) (f : Port → Port) : (modFab s p f).rc = s.rc := rfl
@[simp] theorem modFab_ptn (p : Nat) (f : Port → Port) : (modFab s p f).ptn = s.ptn := rfl
@[simp] theorem modFab_ctx (p : Nat) (f : Port → Port) : (modFab s p f).ctx = s.ctx := rfl
@[simp] theorem modFab_brn (p : Nat) (f : Port → Port) : (modFab s p f).brn = s.brn := rfl
@[simp] theorem modFab_prs (p : Nat) (f : Port → Port) : (modFab s p f).prs = s.prs := rfl
@[simp] theorem modFab_bell (p : Nat) (f : Port → Port) : (modFab s p f).bell = s.bell := rfl
@[simp] theorem modFab_syl (p : Nat) (f : Port → Port) : (modFab s p f).syl = s.syl := rfl
@[simp] theorem modFab_keys (p : Nat) (f : Port → Port) : (modFab s p f).keys = s.keys := rfl
@[simp] theorem modFab_xf (p : Nat) (f : Port → Port) : (modFab s p f).xf = s.xf := rfl
@[simp] theorem modFab_led (p : Nat) (f : Port → Port) : (modFab s p f).led = s.led := rfl
@[simp] theorem modFab_lcs (p : Nat) (f : Port → Port) : (modFab s p f).lcs = s.lcs := rfl
@[simp] theorem modFab_sec (p : Nat) (f : Port → Port) : (modFab s p f).sec = s.sec := rfl
@[simp] theorem modFab_cpt (p : Nat) (f : Port → Port) : (modFab s p f).cpt = s.cpt := rfl
@[simp] theorem modFab_ses (p : Nat) (f : Port → Port) : (modFab s p f).ses = s.ses := rfl
@[simp] theorem modFab_mod (p : Nat) (f : Port → Port) : (modFab s p f).mod = s.mod := rfl
@[simp] theorem modFab_pwr (p : Nat) (f : Port → Port) : (modFab s p f).pwr = s.pwr := rfl
@[simp] theorem modFab_subf (p : Nat) (f : Port → Port) : (modFab s p f).subf = s.subf := rfl
@[simp] theorem modFab_vat (p : Nat) (f : Port → Port) : (modFab s p f).vat = s.vat := rfl
@[simp] theorem modFab_tst (p : Nat) (f : Port → Port) : (modFab s p f).tst = s.tst := rfl
@[simp] theorem modFab_snp (p : Nat) (f : Port → Port) : (modFab s p f).snp = s.snp := rfl
@[simp] theorem modFab_oh (p : Nat) (f : Port → Port) : (modFab s p f).oh = s.oh := rfl
@[simp] theorem modFab_fuse (p : Nat) (f : Port → Port) : (modFab s p f).fuse = s.fuse := rfl
@[simp] theorem modFab_flash (p : Nat) (f : Port → Port) : (modFab s p f).flash = s.flash := rfl
@[simp] theorem modFab_tap (p : Nat) (f : Port → Port) : (modFab s p f).tap = s.tap := rfl
@[simp] theorem modFab_i3c (p : Nat) (f : Port → Port) : (modFab s p f).i3c = s.i3c := rfl

end Sys2Proof.Machine
end

