-- ==== Sys2Proof/Laws/Shared.lean ====
section
/-! SUPPORT. What the shared operations over memory, faults, events, the journal and free values do, said once for each: the
provers cite these and do not unfold the operations. -/

namespace Sys2Proof.Machine

/-! ### Bytes -/

/-- A slice has the length asked for. -/
@[simp] theorem slice_length (bs : List Byte) (off n : Nat) : (slice bs off n).length = n := by simp [slice]
/-- The bytes of a number, as many as asked for. -/
@[simp] theorem leBytes_length (n x : Nat) : (leBytes n x).length = n := by
  induction n generalizing x with
  | zero => rfl
  | succ n ih => simp [leBytes, ih]
/-- The number of `n` little-endian bytes is the low `8 n` bits. -/
theorem leNat_leBytes (n x : Nat) : leNat (leBytes n x) = x % 2 ^ (8 * n) := by
  induction n generalizing x with
  | zero => simp [leBytes, leNat, Nat.mod_one]
  | succ n ih =>
    simp only [leBytes, leNat, ih, BitVec.toNat_ofNat]
    rw [show 8 * (n + 1) = 8 + 8 * n by ring, pow_add, Nat.mod_mul]
    norm_num
/-- What is sealed is 16 bytes longer than the plaintext (R520). -/
@[simp] theorem sealGcm_length (k n a p : List Byte) : (sealGcm k n a p).length = p.length + 16 := by simp [sealGcm]

/-! ### Memory -/

/-- A byte that a store writes reads back. -/
theorem readByte_store_in (s : State) (a i : Nat) (bs : List Byte) (h : i < bs.length) :
    readByte (store s a bs) (a + i) = bs[i] := tget_tsplice_in h
/-- Every other byte is as before. -/
theorem readByte_store_out (s : State) (a k : Nat) (bs : List Byte) (h : k < a ∨ a + bs.length ≤ k) :
    readByte (store s a bs) k = readByte s k := tget_tsplice_out h
/-- A store keeps memory in its canonical form. -/
theorem store_wf (s : State) (a : Nat) (bs : List Byte) (h : Memory.wf s.mem = true) : Memory.wf (store s a bs).mem = true :=
  twf_tsplice h
/-- A store changes memory, its error states and the reservations, and nothing else. -/
theorem store_frame (s : State) (a : Nat) (bs : List Byte) :
    store s a bs = { s with mem := (store s a bs).mem, memErr := (store s a bs).memErr, resv := (store s a bs).resv } := rfl
/-- A range filled with zeros reads as zeros. -/
theorem readByte_fillZero_in (s : State) (a n k : Nat) (key : List Byte) (h : a ≤ k ∧ k < a + n) :
    readByte (fillZero s a n key) k = 0 := by
  have : ∀ t : Tbl Byte, tget memDefault (tclear t a n) k = memDefault := by
    intro t
    induction t with
    | nil => rfl
    | cons e t ih =>
      unfold tclear at ih ⊢
      rw [List.filter_cons]
      split
      · rename_i hc
        have hne : ¬ e.1 = k := by simp at hc; omega
        obtain ⟨x, y⟩ := e
        simp only [tget_cons] at hne ⊢
        rw [if_neg hne, ih]
      · exact ih
  exact this s.mem
/-- Bytes outside it are as before. -/
theorem readByte_fillZero_out (s : State) (a n k : Nat) (key : List Byte) (h : k < a ∨ a + n ≤ k) :
    readByte (fillZero s a n key) k = readByte s k := by
  apply tget_filter
  intro v
  simpa using h
/-- The bytes read from a place have the length asked for. -/
@[simp] theorem stored_length (s : State) (a n : Nat) : (stored s a n).length = n := tslice_length
/-- They are the bytes that memory holds. -/
theorem stored_get (s : State) (a n i : Nat) (h : Memory.wf s.mem = true) (hi : i < n) :
    (stored s a n)[i]? = some (readByte s (a + i)) := tslice_get (twf_iff.1 h).1 hi

/-! ### Registers of a thread -/

/-- Register x0 reads 0 (R316). -/
@[simp] theorem getX_zero (t : Thr) : getX t 0 = 0 := rfl
/-- A write to x0 is discarded. -/
@[simp] theorem setX_zero (t : Thr) (v : DWord) : setX t 0 v = t := rfl
/-- Another register reads what was written to it. -/
theorem getX_setX_same (t : Thr) (r : Nat) (v : DWord) (h : r ≠ 0) : getX (setX t r v) r = v := by
  simp [getX, setX, h]
/-- The other registers keep their values. -/
theorem getX_setX_other (t : Thr) (r q : Nat) (v : DWord) (h : q ≠ r) : getX (setX t r v) q = getX t q := by
  unfold getX setX
  split
  · rfl
  · split
    · rfl
    · exact tget_tset_other h

/-! ### Faults, events, the journal, free values -/

/-- A raised fault shows its code, sets MODULE_FAULT for class M, and changes only the INT block, the counters of the MEM block and
the interrupts that wait at the I3C target (R544, R546, R547, R607). -/
theorem raise_spec (s : State) (c : FaultCode) (a : FaultAt) :
    (raise s c a).int.lastCode = c.code ∧ (raise s c a).int.moduleFault = (s.int.moduleFault || c.cls == 2)
    ∧ raise s c a = { s with int := (raise s c a).int, mc := (raise s c a).mc, i3c := (raise s c a).i3c } := by
  have hm : (countFault s.int c).moduleFault = s.int.moduleFault := by cases c <;> rfl
  unfold raise ibi
  simp only []
  split <;> split <;> (try split) <;> simp [hm]
/-- An event is queued or counted as lost, and nothing else changes (R490, R492). -/
theorem queueEvent_spec (s : State) (k : Nat) (r : List Byte) :
    queueEvent s k r = { s with cpt := (queueEvent s k r).cpt }
    ∧ (s.cpt.evq.length < 4096 → (queueEvent s k r).cpt.evq = s.cpt.evq ++ [(k, r)])
    ∧ (4096 ≤ s.cpt.evq.length → (queueEvent s k r).cpt.evq = s.cpt.evq
        ∧ (queueEvent s k r).cpt.evLost = satInc 16 s.cpt.evLost) := by
  unfold queueEvent
  split
  · exact ⟨rfl, fun _ => rfl, fun h => by omega⟩
  · exact ⟨rfl, fun h => by omega, fun _ => ⟨rfl, rfl⟩⟩
/-- A journal entry takes the next SEQ, and memory and the parts that hold work stay (R507). -/
theorem journal_spec (s : State) (e : JEntry) :
    (journal s e).led.seq = s.led.seq + 1 ∧ (journal s e).mem = s.mem ∧ (journal s e).core = s.core ∧ (journal s e).ptn = s.ptn
    ∧ (journal s e).ctx = s.ctx ∧ (journal s e).rc = s.rc ∧ (journal s e).fuse = s.fuse ∧ (journal s e).pending = s.pending := by
  unfold journal
  simp only []
  split
  · have h := fun (v : State) => (raise_spec v .journalOverwrite { kind := .security }).2.2
    refine ⟨?_, ?_, ?_, ?_, ?_, ?_, ?_, ?_⟩ <;> rw [h]
  · exact ⟨rfl, rfl, rfl, rfl, rfl, rfl, rfl, rfl⟩
/-- A draw gives as many free bytes as asked for and moves only the counter of draws. -/
theorem draw_spec (s : State) (k : Nat) : (draw s k).1.length = k ∧ (draw s k).2 = { s with fresh := s.fresh + 1 } := by
  refine ⟨?_, rfl⟩
  have : ∀ lo n, (countFrom lo n).length = n := by
    intro lo n
    induction n generalizing lo with
    | zero => rfl
    | succ n ih => simp [countFrom, ih]
  simp [draw, this]
/-- A tree of work over a list: nothing for none, the first and then the rest. -/
@[simp] theorem forEach_nil {α : Type} (f : State → α → State) (s : State) : forEach [] f s = s := rfl
@[simp] theorem forEach_cons {α : Type} (x : α) (xs : List α) (f : State → α → State) (s : State) :
    forEach (x :: xs) f s = forEach xs f (f s x) := rfl

end Sys2Proof.Machine
end

