-- ==== Sys2Proof/WellFormed.lean ====
section
/-! DEFINITION. Well-formed commands: every operand lies in the range that the manual gives what it names (R18, R19, R285, R477). -/

namespace Sys2Proof

/-- A number of `n` bits. -/
def okBits (n x : Nat) : Bool := decide (x < 2 ^ n)
/-- A core number, a thread of a core, a register number, a region (R18, R19, R316). -/
def okCore (n : Nat) : Bool := decide (n < 1024)
def okThr (t : Nat) : Bool := decide (t < 16)
def okReg (r : Nat) : Bool := decide (r < 32)
def okRegion (r : Nat) : Bool := decide (r < 16)
/-- A PTN_ID, a CTX_ID (R18). -/
def okPtn (p : Nat) : Bool := decide (p < 64)
def okCtx (c : Nat) : Bool := decide (c < 4096)
/-- A fabric port, a request port of the Vat (R179, R449). -/
def okFabPort (p : Nat) : Bool := decide (p < 8)
def okVatPort (p : Nat) : Bool := decide (p ≤ 64)
/-- A string of bytes of the length given. -/
def okBytes (n : Nat) (bs : List Byte) : Bool := bs.length == n
/-- The 19 readings of the sensors (R601). -/
def okTemps (ts : List Nat) : Bool := ts.length == 19 && ts.all (okBits 16)
/-- A requester (R477, R502). -/
def okReq : Req → Bool
  | .session id => okBits 32 id && decide (0 < id)
  | .thread n t => okCore n && okThr t
  | .anonymous | .tap => true
/-- A command queue (R327). -/
def okQueue : QueueOf → Bool
  | .acd n | .wcd n | .xfer n => okCore n
  | .pcd r => okRegion r
/-- The function of a queued enable (R411). -/
def okEnable : EnableOf → Bool
  | .context c => okCtx c
  | .partition p => okPtn p
  | .brine => true
/-- Where a Roll-call operation comes from (R285, R296). -/
def okTokSrc : TokSrc → Bool
  | .mesh n t sem operand timeout rd => okCore n && okThr t && okBits 16 sem && okBits 32 operand && okBits 32 timeout && okReg rd
  | .frame p bs => okFabPort p && okBytes 32 bs
/-- A thread's access (R316, R339). -/
def okAcc : MemAcc → Bool
  | .load a _ _ rd | .fload a _ rd | .lr a _ rd => okBits 64 a && okReg rd
  | .store a _ v => okBits 64 a && okBits 64 v
  | .amo _ a _ v rd | .sc a _ v rd => okBits 64 a && okBits 64 v && okReg rd
  | .fetch a _ => okBits 64 a
  | .vload v _ es | .vstore v _ es => okReg v && es.all (fun e => okBits 64 e.2)
  | .run => true
/-- A frame of the control port: its fields in their widths (R477). -/
def okCpt (f : CptFrame) : Bool :=
  okBits 8 f.ftype && okBits 16 f.seq && okBits 16 f.ackSeq && okBits 16 f.credit && okBits 16 f.tag && okBits 32 f.session
    && okBits 64 f.addr && okBits 32 f.arg
/-- A data frame: its fields in their widths (R429). -/
def okData (f : DataFrame) : Bool :=
  okBits 4 f.dtype && okBits 10 f.src && okBits 10 f.dst && okBits 4 f.ttl && okBits 12 f.lseq && okBits 13 f.pool && okBits 16 f.sendSeq
    && okBits 22 f.frameNo && okBits 10 f.validLen
    && okBits 12 f.ackLseq && okBits 7 f.hopCredit && okBits 3 f.rsvd
/-- What a start-up meets (R594, R605). -/
def okStart (u : StartUp) : Bool := okBits 6 u.slot && u.laneFail.all (fun e => okFabPort e.1 && decide (e.2 < 18))

/-- The command is well formed. -/
def wellFormed : Instr → Bool
  | .registerWrite who off _ value _ => okReq who && okBits 54 off && okBits 64 value
  | .slvCmd core thr f7 rd addr => okCore core && okThr thr && okBits 7 f7 && okReg rd && okBits 64 addr
  | .queuePositionFreed q => okQueue q
  | .fwdW4a8 core _ => okCore core
  | .bwdG8w4 core _ => okCore core
  | .mmA8a8 core _ => okCore core
  | .mmOz16 core _ => okCore core
  | .quant core _ => okCore core
  | .colsumBuild core _ => okCore core
  | .nodeAdd core _ => okCore core
  | .routedStationaryDelivery core _ _ => okCore core
  | .joinBufferReady core _ _ => okCore core
  | .sealWaitEnd core _ _ => okCore core
  | .wfwd core _ => okCore core
  | .wbwdData core _ => okCore core
  | .wbwdGrad core _ => okCore core
  | .claimSlot who port slot ctx adapter _ units => okReq who && okVatPort port && okBits 16 slot && okCtx ctx && okBits 24 adapter && okBits 32 units
  | .fetch who port slot ctx sem => okReq who && okVatPort port && okBits 16 slot && okCtx ctx && okBits 16 sem
  | .cancel who port slot ctx sem => okReq who && okVatPort port && okBits 16 slot && okCtx ctx && okBits 16 sem
  | .claimExpert who port slot ctx idx layer loc => okReq who && okVatPort port && okBits 16 slot && okCtx ctx && okBits 8 idx && okBits 8 layer && okBits 8 loc
  | .releaseExpert who port slot ctx idx layer loc => okReq who && okVatPort port && okBits 16 slot && okCtx ctx && okBits 8 idx && okBits 8 layer && okBits 8 loc
  | .stage who port slot ctx stg _ sem => okReq who && okVatPort port && okBits 16 slot && okCtx ctx && okBits 6 stg && okBits 16 sem
  | .unstage who port slot ctx sem => okReq who && okVatPort port && okBits 16 slot && okCtx ctx && okBits 16 sem
  | .evict who port slot ctx sem => okReq who && okVatPort port && okBits 16 slot && okCtx ctx && okBits 16 sem
  | .vatCopyDone slot => okBits 16 slot
  | .vatScrubDone slot => okBits 16 slot
  | .fetchDeadline slot => okBits 16 slot
  | .prsInit press _ => okRegion press
  | .prsReduce press _ => okRegion press
  | .prsNorm press _ => okRegion press
  | .prsReduceNorm press _ => okRegion press
  | .prsApply press _ => okRegion press
  | .prsClose press _ => okRegion press
  | .prsExport press _ => okRegion press
  | .bell => true
  | .bellFrameReceive port f => okFabPort port && okBytes 32 f
  | .bellFrameMissing _ => true
  | .holdoverLimit => true
  | .pllLock => true
  | .domainStartMark => true
  | .localBellStart => true
  | .delayMeasurement _ _ => true
  | .probeReceive port f _ _ => okFabPort port && okBytes 32 f
  | .echoReceive port f _ => okFabPort port && okBytes 32 f
  | .bellRefLoss => true
  | .bellRefReturn => true
  | .governorBellAverage w => okBits 32 w
  | .ttStart who p bell => okReq who && okPtn p && okBits 64 bell
  | .ttStop who p => okReq who && okPtn p
  | .ttResume who p bell => okReq who && okPtn p && okBits 64 bell
  | .timetableBegin p => okPtn p
  | .slotStart p i _ => okPtn p && okBits 8 i
  | .slotDeadline p i => okPtn p && okBits 8 i
  | .lessonBoundary p => okPtn p
  | .partitionCommandsEnded p => okPtn p
  | .partialReloadApply p => okPtn p
  | .semRead src => okTokSrc src
  | .semWrite src => okTokSrc src
  | .semAdd src => okTokSrc src
  | .waitGe src => okTokSrc src
  | .acquire src => okTokSrc src
  | .release src => okTokSrc src
  | .arrive src => okTokSrc src
  | .waitGen src => okTokSrc src
  | .barRelease src => okTokSrc src
  | .waitTimeout _ => true
  | .replyReceive port f => okFabPort port && okBytes 32 f
  | .tokenLost rtag => okBits 16 rtag
  | .creditReceive port f => okFabPort port && okBytes 32 f
  | .sendCreditsAvailable pool => okBits 13 pool
  | .retractReceive port f => okFabPort port && okBytes 32 f
  | .runaheadVerdict src pool seq => okBits 10 src && okBits 13 pool && okBits 16 seq
  | .statusFrameSend ptn => ptn.all okPtn
  | .statusFrameReceive port f => okFabPort port && okBytes 32 f
  | .epochReceive port f => okFabPort port && okBytes 32 f
  | .slvCrcRaw core thr rd addr _ => okCore core && okThr thr && okReg rd && okBits 64 addr
  | .slvCrcTchk core thr rd addr => okCore core && okThr thr && okReg rd && okBits 64 addr
  | .slvCrcTgen core thr rd addr => okCore core && okThr thr && okReg rd && okBits 64 addr
  | .slvVcvt core thr vd vs2 code => okCore core && okThr thr && okReg vd && okReg vs2 && okBits 64 code
  | .slvVfn core thr vd vs2 f7 => okCore core && okThr thr && okReg vd && okReg vs2 && okBits 7 f7
  | .slvRc core thr rd rs1 rs2 => okCore core && okThr thr && okReg rd && okBits 64 rs1 && okBits 64 rs2
  | .slvBwaitUntil core thr rd bell => okCore core && okThr thr && okReg rd && okBits 64 bell
  | .bwaitWake core thr => okCore core && okThr thr
  | .slvBwaitSemwait core thr rd bell rs2 => okCore core && okThr thr && okReg rd && okBits 64 bell && okBits 64 rs2
  | .slvLaunch core thr rd addr => okCore core && okThr thr && okReg rd && okBits 64 addr
  | .launchPlaced p => okPtn p
  | .slvExit core thr => okCore core && okThr thr
  | .threadMemoryAccess core thr len a => okCore core && okThr thr && (len == 2 || len == 4) && okAcc a
  | .threadTrap core thr cause tval => okCore core && okThr thr && okBits 64 cause && okBits 64 tval
  | .slvctxWrite core thr value => okCore core && okThr thr && okBits 64 value
  | .syllabusLoad who _ => okReq who
  | .syllabusCancel who p => okReq who && okPtn p
  | .ohBase who _ => okReq who
  | .ohData who count => okReq who && okBits 32 count
  | .ohTrain who steps seqLen seed adapter => okReq who && okBits 32 steps && okBits 32 seqLen && okBits 128 seed && okBits 24 adapter
  | .ohEval who first count => okReq who && okBits 32 first && okBits 32 count
  | .ohResult who => okReq who
  | .ohClear who => okReq who
  | .ptnTeardown who p => okReq who && okPtn p
  | .ptnHold who p => okReq who && okPtn p
  | .ptnRelease who p => okReq who && okPtn p
  | .attach who p c seat => okReq who && okPtn p && okCtx c && okBits 6 seat
  | .preempt who p c => okReq who && okPtn p && okCtx c
  | .resume who p c seat => okReq who && okPtn p && okCtx c && okBits 6 seat
  | .detach who p c => okReq who && okPtn p && okCtx c
  | .ctxCancel who p c => okReq who && okPtn p && okCtx c
  | .rebind who p c seat => okReq who && okPtn p && okCtx c && okBits 6 seat
  | .preemptBoundExpiry c => okCtx c
  | .landingQuiet c => okCtx c
  | .enableQueuedApply f => okEnable f
  | .baseCommit who base => okReq who && okBits 16 base
  | .baseTeardown who base => okReq who && okBits 16 base
  | .brineEnable who => okReq who
  | .brineDisable who => okReq who
  | .brineJobStart => true
  | .brineJobEnd => true
  | .brineDisabled => true
  | .portLight port => okFabPort port
  | .portTrainingDone port _ lmn _ => okFabPort port && okBits 10 lmn
  | .portRetry port => okFabPort port
  | .dataFrameReceive port frame _ => okFabPort port && frame.all okData
  | .linkFrameReceive port f lane => okFabPort port && okData f && decide (lane < 18)
  | .laneFailure port _ => okFabPort port
  | .syncLaneFailure port _ => okFabPort port
  | .portSyncLoss port => okFabPort port
  | .fabPtEnable who port => okReq who && okFabPort port
  | .fabPtDisable who port => okReq who && okFabPort port
  | .fabPtRetrain who port => okReq who && okFabPort port
  | .portDrainEnd port => okFabPort port
  | .fabTakeover who lmn => okReq who && okBits 10 lmn
  | .takeoverApply => true
  | .fabMapSelApply n => okBits 10 n
  | .xferSend core => okCore core
  | .xferFetch core => okCore core
  | .xferCopy core => okCore core
  | .xferNode core => okCore core
  | .xferDigest core => okCore core
  | .xferRetract core => okCore core
  | .sendComplete lmn pool seq => okBits 10 lmn && okBits 13 pool && okBits 16 seq
  | .sendLanding src pool seq => okBits 10 src && okBits 13 pool && okBits 16 seq
  | .sendPartialTimeout src pool seq => okBits 10 src && okBits 13 pool && okBits 16 seq
  | .fetchReqServe => true
  | .cptLight _ => true
  | .cptLinkDown => true
  | .cptRetry _ => true
  | .regReq f _ => okCpt f
  | .bulkWr f => okCpt f
  | .bulkRdReq f => okCpt f
  | .fetchData f seq => okCpt f && okBits 16 seq
  | .fetchCtl f => okCpt f
  | .authHello f => okCpt f
  | .authProof f => okCpt f
  | .authClose f => okCpt f
  | .authChallengeDelayed tag => okBits 16 tag
  | .recoverFrame f => okCpt f
  | .recoveryReset u => okStart u
  | .eventSend => true
  | .bellMark => true
  | .cptRefLost => true
  | .advance who target _ => okReq who && okBits 3 target
  | .keySet who role slot key => okReq who && okBits 3 role && okBits 2 slot && okBytes 1952 key
  | .keyClear who role slot => okReq who && okBits 3 role && okBits 2 slot
  | .ledgerStore who _ => okReq who
  | .jrnAck who seq => okReq who && okBits 16 seq
  | .fwFloor who _ => okReq who
  | .lcsRecover who u => okReq who && okStart u
  | .quoteModule who nonce => okReq who && okBytes 32 nonce
  | .quotePartition who p nonce => okReq who && okPtn p && okBytes 32 nonce
  | .keyRelease who record => okReq who && okBytes 1344 record
  | .ekDrop who p _ => okReq who && okPtn p
  | .ekExpiry => true
  | .memoryPatrol _ _ _ => true
  | .checkerRerunStart core => okCore core
  | .checkerRerunDone core _ => okCore core
  | .decisionDeadline core => okCore core
  | .quizComplete phys _ => decide (phys < 1152)
  | .quizDue cluster => okBits 7 cluster
  | .faultLogFlush => true
  | .intAck who => okReq who
  | .snpArm who ctx plan => okReq who && okCtx ctx && okBits 64 plan
  | .snpDisarm who ctx => okReq who && okCtx ctx
  | .captureNow who ctx => okReq who && okCtx ctx
  | .snpRestore who ctx lesson arg2 upTo => okReq who && okCtx ctx && okBits 64 lesson && okBits 32 arg2 && okBits 64 upTo
  | .snpDelete who ctx gen => okReq who && okCtx ctx && okBits 64 gen
  | .snpQuery who ctx => okReq who && okCtx ctx
  | .captureCopyDone ctx => okCtx ctx
  | .snapshotCommit ctx => okCtx ctx
  | .mirrorAck src pool seq => okBits 10 src && okBits 13 pool && okBits 16 seq
  | .mirrorTimeout ctx => okCtx ctx
  | .mirrorReceive src pool seq _ => okBits 10 src && okBits 13 pool && okBits 16 seq
  | .restoreComplete ctx _ _ => okCtx ctx
  | .runQuick who regions => okReq who && okBits 16 regions
  | .runFull who regions => okReq who && okBits 16 regions
  | .loopFar who ports => okReq who && okBits 8 ports
  | .fuse who _ => okReq who
  | .regionBistEnd region _ => okRegion region
  | .testRunEnd _ => true
  | .tapReset => true
  | .extest pins cells => okBits 14 pins && okBits 14 cells
  | .samplePreload pins cells => okBits 14 pins && okBits 14 cells
  | .clamp => true
  | .highz => true
  | .regAccess access _ => okBits 64 access
  | .bypass => true
  | .powerInputApplied _ _ => true
  | .powerGood u => okStart u
  | .inputSample _ iin => okBits 32 iin
  | .railFault order => okBits 4 order
  | .thermalSample temps => okTemps temps
  | .modResetNAssert _ _ => true
  | .modResetNRelease u => okStart u
  | .resetModule who u => okReq who && okStart u
  | .resetWarm who u => okReq who && okStart u
  | .resetDie who target u => okReq who && okBits 10 target && okStart u
  | .resetRegion who target => okReq who && okBits 10 target
  | .resetCore who target => okReq who && okBits 10 target
  | .resetBank who target => okReq who && okBits 10 target
  | .resetDeferredStart _ target => okBits 10 target
  | .resetComplete _ target _ => okBits 10 target
  | .entdaa addr => okBits 7 addr
  | .rstdaa => true
  | .setnewda addr new => okBits 7 addr && okBits 7 new
  | .getpid addr => okBits 7 addr
  | .getbcr addr => okBits 7 addr
  | .getdcr addr => okBits 7 addr
  | .getstatus addr => okBits 7 addr
  | .enec addr => addr.all (okBits 7)
  | .disec addr => addr.all (okBits 7)
  | .setmrl addr _ => addr.all (okBits 7)
  | .getmrl addr => okBits 7 addr
  | .i3cPrivateWrite addr _ => okBits 7 addr
  | .i3cPrivateRead addr _ => okBits 7 addr
  | .cptIdleFrameReceive frame => frame.all okCpt
  | .syncFrameForward port f => okFabPort port && okBytes 32 f
  | .mirrorRead src pool seq gen => okBits 10 src && okBits 13 pool && okBits 16 seq && okBits 64 gen
  | .landingSpaceRelease src pool seq => okBits 10 src && okBits 13 pool && okBits 16 seq
  | .snapshotEngineReady => true

end Sys2Proof
end

