-- ==== Sys2Proof/Tests/Slice0.lean ====
section
/-! SUPPORT. Tests: states and operands that meet the premises of the statements, small runs of single commands with results taken
from the manual's text, and a term that each check of WellFormed refuses. -/

namespace Sys2Proof.Tests

set_option Elab.async false

open Sys2Proof Sys2Proof.Machine

/-! ### A small state -/

/-- The grant of partition 3: contexts 2 and 3, cluster 0, semaphores and barriers from 0. -/
def grant : Grant := {
  ptn := 3, ctxBase := 2, ctxCount := 2, semCount := 64, barCount := 16, poolCount := 8, power := 100,
  hbmSize := 2 ^ 30, t2Size := 2 ^ 30, clusters := 1 }

/-- The window of partition 3: 1 MiB of HBM from 0, every right. -/
def win : Win := { type := .shared, mem := .hbm, rights := 0x3F, key := .partition, base := 0, size := 2 ^ 20 }

/-- The partition Syllabus of partition 3, cluster 0. -/
def syl : PtnSyl := { form := 5, clusters := 1, wins := [win] }

/-- A thread in M-mode for context 2. -/
def thr : Thr := { state := .ready, mmode := true, ctx := 2, pc := 0x1000, mtvec := 0x8000 }

/-- A module that is READY with the Bell at 100:5, the module Syllabus, partition 3 ACTIVE, context 2 RUNNING, thread 1 of core 0
READY, semaphores 7 (PARTITION) and 8 (MODULE), barrier 4, and the eFuses and life cycle of a deployed module. -/
def base : State := {
  core := [(0, { thr := [(1, thr)] })]
  ptn := [(3, { state := .active, activeMax := 2, syl := some syl })]
  ctx := [(2, { state := .running, loaded := true, gen := 1 })]
  bell := { state := .running, count := 100, sub := 5, pllLocked := true }
  syl := { module := some { grants := [grant] } }
  rc := {
    sem := [(7, { alloc := true, ptn := 3, value := 10 }), (8, { alloc := true, ptn := 3, scope := 1, value := 2 })],
    bar := [(4, { alloc := true, ptn := 3, target := 3, gen := 9 })],
    pool := [(6, { bound := true, ptn := 3, ctx := 2, alloc := 40, credits := 5 })] }
  mod := { ready := true, powered := true }
  lcs := { lc := .deployed }
  fuse := { lc := .deployed, identity := true } }


/-- The state after a command; the state itself where the command stops. -/
def nx (c : Instr) (s : State) : State := match exec c s with | .next t => t | _ => s

/-! ### The block's interface -/

/-- StepRunsFront, FusesLedgerAndQueue: a queue with two commands. -/
theorem witness_StepRunsFront : step { base with pending := [.bypass, .clamp] } = exec .bypass { base with pending := [.clamp] } := by
  rfl

/-- IdleStepCountsTheBell: below and at the end of a Bell. -/
theorem witness_IdleStepCountsTheBell : base.pending = [] ∧ counting base = true ∧ base.bell.sub < 2047
    ∧ (tick { base with bell.sub := 2047 }).bell.sub = 0 ∧ (tick { base with bell.sub := 2047 }).bell.count = 101
    ∧ (tick base).bell.sub = 6 := by decide +kernel

/-- EveryStepKeepsMemoryCanonical: a state with memory in its canonical form that a step leaves. -/
theorem witness_EveryStepKeepsMemoryCanonical : Memory.wf (store base 0x1000000000 [1, 0, 2]).mem = true
    ∧ (store base 0x1000000000 [1, 0, 2]).mem = [(0x1000000000, 1), (0x1000000002, 2)]
    ∧ (store (store base 0x1000000000 [1, 0, 2]) 0x1000000000 [0, 0, 0]).mem = [] := by decide +kernel

/-! ### Roll call -/

/-- SemaphoreOpsOfThreads: semaphore 7 of the thread's partition, with nothing waiting. -/
theorem witness_SemaphoreOpsOfThreads : ReachesSem base 0 1 7 ∧ NobodyWaits base 7 ∧ heldByAny base 7 = false
    ∧ (getSem base 7).value = 10 := by unfold ReachesSem NobodyWaits; decide +kernel

/-- R297: a WRITE clears the flags, an ADD clips, sets SAT and answers SATURATED. -/
theorem test_sem_add_clips : Replied base (nx (.semAdd (.mesh 0 1 7 0xFFFFFFFF 0 5)) base) 0 1 5 5 1 0xFFFFFFFF := by
  unfold Replied; decide +kernel
theorem test_sem_write_clears : getSem (nx (.semWrite (.mesh 0 1 8 4 0 5)) 
    { base with rc.sem := [(8, { alloc := true, ptn := 3, scope := 1, value := 2, sat := true, rej := true })] }) 8 =
    { alloc := true, ptn := 3, scope := 1, value := 4 } := by decide +kernel
/-- R296: WAIT_GE with TIMEOUT 0 that is not satisfied is answered TIMEOUT. -/
theorem test_wait_ge_timeout_zero : Replied base (nx (.waitGe (.mesh 0 1 7 11 0 5)) base) 0 1 5 2 0 10 := by
  unfold Replied; decide +kernel

/-- A context that holds 4 units of semaphore 7, and one with eight entries for other semaphores. -/
def ctx2 (holds : List Hold) : Ctx := { state := .running, loaded := true, gen := 1, holds := holds }
def holding : State := { base with ctx := [(2, ctx2 [{ sem := 7, units := 4 }])] }
def heldFull : State := { base with ctx := [(2, ctx2 ((countFrom 20 8).map (fun i => { sem := i, units := 1 })))] }

/-- AcquireAndRelease: a new entry, a full table, a release within and beyond what is held. -/
theorem witness_AcquireAndRelease : ReachesSem base 0 1 7 ∧ NobodyWaits base 7 ∧ (getSem base 7).scope = 0 ∧ ctxValid base 0 1 = true
    ∧ (getCtx base 2).holds.length < 8
    ∧ ReachesSem heldFull 0 1 7 ∧ ctxValid heldFull 0 1 = true ∧ hasHold (getCtx heldFull 2) 7 = false
    ∧ 8 ≤ (getCtx heldFull 2).holds.length
    ∧ ReachesSem holding 0 1 7 ∧ ctxValid holding 0 1 = true
    ∧ (getCtx holding 2).holds.find? (fun h => h.sem == 7) = some { sem := 7, units := 4 } := by
  unfold ReachesSem NobodyWaits; decide +kernel
theorem test_acquire : (getCtx (nx (.acquire (.mesh 0 1 7 4 70 5)) base) 2).holds = [{ sem := 7, units := 4 }]
    ∧ (getSem (nx (.acquire (.mesh 0 1 7 4 70 5)) base) 7).value = 6 := by decide +kernel
theorem test_release_too_much : Replied holding (nx (.release (.mesh 0 1 7 5 70 5)) holding) 0 1 5 8 0 10 := by
  unfold Replied; decide +kernel

/-- A barrier of this module that has reported to barrier 9 of module 1 and waits for its release. -/
def bar4 : Bar := {
  alloc := true, ptn := 3, target := 3, count := 3, gen := 9, completing := true, upLmn := 1, upBar := 9, scope := 2, form := 5 }
def reported : State := { base with rc.bar := [(4, bar4)] }
/-- BAR_RELEASE of generation 9 from barrier 9 of module 1, Form 5. -/
def barReleaseFrame : List Byte := syncFrame 2 1 0x3FF 15 (bodyBits 9 223 220 + bodyBits 9 201 186 + bodyBits (9 * 65536) 161 130
  + bodyBits 5 97 86)

/-- BarrierOps: an arrival that counts, one that completes, one of another generation; a release of the parent. -/
theorem witness_BarrierOps : ReachesBar base 0 1 4 ∧ NobodyWaits base 4 ∧ (getBar base 4).gen = 9 ∧ (getBar base 4).completing = false
    ∧ (getBar base 4).count + 3 = (getBar base 4).target ∧ (getBar base 4).upLmn = 0x3FF ∧ (getBar base 4).children = []
    ∧ rcOpOf (frameBits barReleaseFrame 223 220) = some .barRelease ∧ frType barReleaseFrame = 2
    ∧ isOwnLmn reported (frDst barReleaseFrame) = true ∧ fcrcOk barReleaseFrame = true ∧ frameBits barReleaseFrame 227 224 = 0
    ∧ tokenResOk barReleaseFrame .barRelease = true ∧ frameBits barReleaseFrame 185 178 = bankEpoch reported (bankOfBar 9)
    ∧ tsorted none reported.rc.bar = true ∧ NobodyWaits reported 4
    ∧ getBar (nx (.barRelease (.frame 2 barReleaseFrame)) reported) 4 =
      { getBar reported 4 with gen := 10, count := 0, completing := false } := by
  unfold ReachesBar NobodyWaits; decide +kernel
theorem test_arrive_completes : getBar (nx (.arrive (.mesh 0 1 4 (9 * 65536 + 3) 70 5)) base) 4 = { getBar base 4 with gen := 10 } := by
  decide +kernel
theorem test_arrive_wrong_gen : Replied base (nx (.arrive (.mesh 0 1 4 (8 * 65536 + 3) 70 5)) base) 0 1 5 10 0 (9 * 65536) := by
  unfold Replied; decide +kernel

/-- The base state with module number 12, port 1 in TRAINING, port 2 UP, and module 9 reached by port 2. -/
def net : State := { base with
  fab := { assigned := true, lmn := 12, port := [(1, { pstate := .training }), (2, { pstate := .up, active := 16 })],
           map := [(9, { va := true, pa := 2 })] } }

/-- ADD of 3 to semaphore 8 by module 9 in Form 5, to epoch `e`. -/
def addFrame (e : Nat) : List Byte := syncFrame 2 9 12 15 (bodyBits 3 223 220 + bodyBits 2 219 208 + bodyBits 3 207 202
  + bodyBits 8 201 186 + bodyBits e 185 178 + bodyBits 77 177 162 + bodyBits 3 161 130 + bodyBits 0xFFFFFFFF 129 98 + bodyBits 5 97 86)
/-- A MODULE STATUS frame of module 9, READY, RUNNING, no role, covering none; an EPOCH frame of bank 1 with epoch 6; a frame for
module 9 that goes on, and one whose TTL is used up. -/
def statusIn : List Byte := syncFrame 6 9 0x3FF 0 (bodyBits 1 219 219 + bodyBits 3 218 216 + bodyBits 0x3FF 212 203)
def epochIn : List Byte := syncFrame 9 9 0x3FF 0 (bodyBits 1 219 210 + bodyBits 6 209 202)
def transit (ttl : Nat) : List Byte := syncFrame 3 1 9 ttl 0
/-- The request with tag 77 of thread 1, waiting for module 9. -/
def asking : State := { net with
  core := [(0, { thr := [(1, { thr with state := .waitRc, wait := .rc 77 5 })] })]
  rc.out := [{ tok := { op := .add, sem := 8, rtag := 77, src := .thread 0 1, ptn := 3, ctx := 2 }, lmn := 9,
               deadline := some 1000 }] }

/-- TokenStatusAndEpochFrames: a TOKEN of the current epoch and one of another, STATUS of module and partition, a neighbour's STATUS,
an EPOCH, a frame that goes on, one whose TTL is used up, one without a route. -/
theorem witness_TokenStatusAndEpochFrames :
    rcOpOf (frameBits (addFrame 0) 223 220) = some .add ∧ frType (addFrame 0) = 2 ∧ isOwnLmn net (frDst (addFrame 0)) = true
    ∧ fcrcOk (addFrame 0) = true ∧ frameBits (addFrame 0) 227 224 = 0 ∧ tokenResOk (addFrame 0) .add = true
    ∧ (frameTok (addFrame 1) 2 .add).epoch ≠ bankEpoch net 0
    ∧ 2 ∈ statusPorts net ∧ formOf net 3 ≠ 0 ∧ portUsable net 2 = true
    ∧ frType statusIn = 6 ∧ fcrcOk statusIn = true ∧ frameBits statusIn 227 224 = 0 ∧ frameBits statusIn 223 220 = 0
    ∧ frameBits statusIn 213 213 = 0 ∧ frameBits statusIn 201 32 = 0
    ∧ frType epochIn = 9 ∧ fcrcOk epochIn = true ∧ frameBits epochIn 201 32 = 0 ∧ frameBits epochIn 223 220 = 0
    ∧ frameBits epochIn 219 210 = 1 ∧ frType (transit 4) = 3 ∧ isOwnLmn net (frDst (transit 4)) = false
    ∧ frTtl (transit 0) = 0 ∧ frTtl (transit 4) ≠ 0 ∧ routePort net 9 = some 2 ∧ routePort base 9 = none := by decide +kernel
theorem test_status_receive : tget none (nx (.statusFrameReceive 2 statusIn) net).rc.neighbours 2 =
    some { lmn := 9, ready := true, bellState := 3, role := 0, cover := 0x3FF } := by decide +kernel
theorem test_epoch_receive : tget 0 (nx (.epochReceive 2 epochIn) net).rc.peerEpoch 19 = 6 := by decide +kernel
theorem test_forward_counts_ttl : (nx (.syncFrameForward 1 (transit 0)) net).rc.errRes = 1
    ∧ frType (syncFrame 12 1 9 4 0) = 12 ∧ fcrcOk (syncFrame 12 1 9 4 0) = true
    ∧ (nx (.syncFrameForward 1 (syncFrame 12 1 9 4 0)) net).rc.errRes = 1
    ∧ (nx (.syncFrameForward 1 (transit 4)) net).rc.txq.map (fun x => (x.port, frTtl x.bytes, fcrcOk x.bytes)) = [(2, 3, true)] := by
  decide +kernel
theorem test_token_add : (getSem (nx (.semAdd (.frame 2 (addFrame 0))) 
      { net with rc.sem := [(8, { alloc := true, ptn := 3, scope := 2, form := 5, value := 2 })] }) 8).value = 5
    ∧ (nx (.semAdd (.frame 2 (addFrame 1))) net).rc.sem = net.rc.sem := by decide +kernel

/-- A REPLY of module 9 with tag 77, OK, value 44; a CREDIT of `n` for pool 6 and context `c`. -/
def replyFrame : List Byte := syncFrame 3 9 12 15 (bodyBits 3 223 220 + bodyBits 77 207 192 + bodyBits 44 191 160 + bodyBits 2 155 144)
def creditFrame (n c : Nat) : List Byte := syncFrame 4 9 12 15 (bodyBits 6 223 211 + bodyBits n 210 195 + bodyBits c 194 183)
/-- A WAIT_GE of thread 1 whose deadline has passed. -/
def waitingGe : WaitEnt := { tok := { op := .waitGe, sem := 7, operand := 50, src := .thread 0 1, ptn := 3, ctx := 2 },
                             deadline := some 5 }
def timedOut : State := { base with
  core := [(0, { thr := [(1, { thr with state := .waitRc, wait := .rc 0 5 })] })]
  rc.waits := [waitingGe] }

/-- WaitsRepliesAndCredits: a wait past its deadline, a reply that belongs to a request and one that belongs to none, a lost request, a
credit that fits, one beyond ALLOC, one for another context. -/
theorem witness_WaitsRepliesAndCredits : timedOut.rc.waits[0]? = some waitingGe ∧ judgeNow timedOut waitingGe.deadline = .timeout
    ∧ (getThr timedOut 0 1).state = .waitRc ∧ (getThr timedOut 0 1).wait = .rc 0 5
    ∧ frType replyFrame = 3 ∧ isOwnLmn asking (frDst replyFrame) = true ∧ fcrcOk replyFrame = true ∧ frameBits replyFrame 227 224 = 0
    ∧ frameBits replyFrame 143 32 = 0 ∧ frameBits replyFrame 219 216 < 13 ∧ (rcOpOf (frameBits replyFrame 223 220)).isSome = true
    ∧ net.rc.out = [] ∧ (asking.rc.out.map (fun o => (o.tok.rtag, o.lmn))) = [(77, frSrc replyFrame)]
    ∧ epochOlder (frameBits replyFrame 215 208) (tget 0 asking.rc.peerEpoch 18) = false
    ∧ judgeNow asking (some 1000) = .timeout
    ∧ frType (creditFrame 35 2) = 4 ∧ fcrcOk (creditFrame 35 2) = true ∧ frameBits (creditFrame 35 2) 227 224 = 0
    ∧ frameBits (creditFrame 35 2) 182 32 = 0 ∧ frameBits (creditFrame 35 2) 210 195 = 35 ∧ frameBits (creditFrame 35 2) 223 211 = 6
    ∧ (getPool net 6).bound = true ∧ (getPool net 6).ctx = 2 ∧ (getPool net 6).credits + 35 = (getPool net 6).alloc
    ∧ frameBits (creditFrame 36 2) 210 195 = 36 ∧ frameBits (creditFrame 1 3) 194 183 = 3 := by decide +kernel
theorem test_wait_timeout : (nx (.waitTimeout 0) timedOut).rc.waits = []
    ∧ getX (getThr (nx (.waitTimeout 0) timedOut) 0 1) 5 = rcResult 2 0 10 := by decide +kernel
theorem test_reply_ends_request : (nx (.replyReceive 2 replyFrame) asking).rc.out = []
    ∧ getX (getThr (nx (.replyReceive 2 replyFrame) asking) 0 1) 5 = rcResult 0 0 44
    ∧ (nx (.replyReceive 2 replyFrame) net).rc.stale = 1 := by decide +kernel
theorem test_token_lost : (nx (.tokenLost 77) asking).rc.out = [] ∧ (nx (.tokenLost 77) asking).rc.lost = 1
    ∧ (getThr (nx (.tokenLost 77) asking) 0 1).state = .ready := by decide +kernel
theorem test_credit_overflow : (getPool (nx (.creditReceive 2 (creditFrame 36 2)) net) 6).credits = 40
    ∧ (nx (.creditReceive 2 (creditFrame 36 2)) net).int.lastCode = 0x0404
    ∧ (getPool (nx (.creditReceive 2 (creditFrame 35 2)) net) 6).credits = 40
    ∧ (nx (.creditReceive 2 (creditFrame 1 3)) net).int.lastCode = 0x0403 := by decide +kernel

/-- rs1 of SLV.RC: OP, target, semaphore; a thread that sleeps until Bell 100. -/
def rcOperand (op lmn sem : Nat) : Nat := op * 2 ^ 28 + lmn * 2 ^ 16 + sem
def sleeping : State := { base with core := [(0, { thr := [(1, { thr with state := .waitBell, wait := .bell 100 5 })] })] }

/-- RollCallInstructions: here and at another module, a Bell that has begun and one to come, a semaphore that has its value and one that
has not, a sleeper. -/
theorem witness_RollCallInstructions : mayIssue net 0 1 = true ∧ rcOpOf (bits (rcOperand 3 12 8) 28 4) = some .add
    ∧ isOwnLmn net (bits (rcOperand 3 12 8) 16 10) = true ∧ isOwnLmn net (bits (rcOperand 3 9 8) 16 10) = false
    ∧ counting net = true ∧ net.bell.count = 100 ∧ ReachesSem net 0 1 (bits (10 * 2 ^ 16 + 7) 0 16)
    ∧ bits (10 * 2 ^ 16 + 7) 16 32 = (getSem net 7).value ∧ bits (11 * 2 ^ 16 + 7) 16 32 = 11
    ∧ now net < stampOf 101 0 ∧ stampOf 100 0 < now net
    ∧ (getThr sleeping 0 1).state = .waitBell ∧ (getThr sleeping 0 1).wait = .bell 100 5 := by
  unfold ReachesSem; decide +kernel
theorem test_bwait_semwait : Replied net (nx (.slvBwaitSemwait 0 1 5 101 (10 * 2 ^ 16 + 7)) net) 0 1 5 0 0 10
    ∧ Replied net (nx (.slvBwaitSemwait 0 1 5 100 (10 * 2 ^ 16 + 7)) net) 0 1 5 2 0 10
    ∧ (nx (.slvBwaitSemwait 0 1 5 100 (11 * 2 ^ 16 + 7)) net).rc.waits.map (fun w => (w.tok.sem, w.deadline)) = [(7, some 204800)] := by
  unfold Replied; decide +kernel
theorem test_bwait_until : getX (getThr (nx (.slvBwaitUntil 0 1 5 100) net) 0 1) 5 = 204805#64
    ∧ (getThr (nx (.slvBwaitUntil 0 1 5 101) net) 0 1).wait = .bell 101 5
    ∧ getX (getThr (nx (.bwaitWake 0 1) sleeping) 0 1) 5 = 204805#64 := by decide +kernel
theorem test_slv_rc_bar_release : (nx (.slvRc 0 1 5 (rcOperand 9 9 8) 3) net).rc.out = []
    ∧ (getThr (nx (.slvRc 0 1 5 (rcOperand 9 9 8) 3) net) 0 1).state = .ready := by decide +kernel
theorem test_slv_rc_remote : (nx (.slvRc 0 1 5 (rcOperand 3 9 8) 3) net).rc.out.map (fun o => (o.lmn, o.tok.sem, o.tok.operand)) =
    [(9, 8, 3)] ∧ (nx (.slvRc 0 1 5 (rcOperand 3 9 8) 3) net).rc.txq.map (fun x => (x.port, frDst x.bytes)) = [(2, 9)] := by decide +kernel

/-! ### Arrays and the Press -/

/-- A descriptor of 64 bytes with its CRC: OP, epoch, and the bytes from offset 4 on. -/
def desc64 (op epoch : Nat) (rest : List Byte) : List Byte :=
  withCrcTail (patch (patch (List.replicate 64 0) 0 [BitVec.ofNat 8 op, 0, BitVec.ofNat 8 epoch]) 4 rest) 60
/-- Thread 1 of core 0 as an issuer. -/
def iss : Issuer := { core := 0, thr := 1, mmode := true, ctx := 2, ctxOn := true, ptn := 3 }
/-- An entry of a queue; DONE_SEM of an ACD is 0xFFFF, of a WCD 8. -/
def entry (d : List Byte) : QEntry := { desc := d, issuer := iss, stamp := 1 }
def acd (op epoch : Nat) : QEntry := entry (desc64 op epoch (List.replicate 52 0 ++ [0xFF, 0xFF]))
def wcd (op epoch : Nat) : QEntry := entry (desc64 op epoch ([0, 0, 0, 0] ++ [0, 0, 8, 0]))
/-- The same with a wrong CRC. -/
def torn (e : QEntry) : QEntry := { e with desc := patch e.desc 60 [0, 0] }
/-- Core 0 with one ACD, or one WCD, waiting. -/
def withAcd (e : QEntry) : State := { base with core := [(0, { thr := [(1, thr)], acdQ := [e] })] }
def withWcd (e : QEntry) : State := { base with core := [(0, { thr := [(1, thr)], wcdQ := [e] })] }

/-- ArrayCommands: a command with a wrong CRC, one of another partition, one of an old epoch, one with a reserved OP, for both arrays. -/
theorem witness_ArrayCommands : mayStart (withAcd (acd 1 0)) 0 = true ∧ (getCore (withAcd (acd 1 0)) 0).acdRun = none
    ∧ bits (descWord (acd 7 0).desc 0) 0 8 = 7 ∧ bits (descWord (acd 7 0).desc 14) 0 16 = 0xFFFF
    ∧ (runAcd (withAcd (acd 1 0)) {} (acd 1 0) none).2 = .fault .acdInvalid
    ∧ (runAcd (withAcd (acd 7 1)) {} (acd 7 1) none).2 = .stale
    ∧ descCrcOk (torn (acd 1 0)).desc = false ∧ descCrcOk (acd 8 0).desc = true ∧ bits (descWord (acd 8 0).desc 0) 0 8 = 8
    ∧ (parseAcd (acd 7 1).desc).epoch ≠ (getCore base 0).epoch ∧ (acd 1 0).issuer.core = 0
    ∧ mayStart (withWcd (wcd 2 0)) 0 = true ∧ bits (descWord (wcd 2 0).desc 0) 0 8 = 2
    ∧ (runWcd (withWcd (wcd 2 0)) {} (wcd 2 0) none).2 = .fault .wcdInvalid
    ∧ (runWcd (withWcd (wcd 2 1)) {} (wcd 2 1) none).2 = .stale := by decide +kernel
theorem test_acd_reserved_op : (getCore (nx (.fwdW4a8 0 {}) (withAcd (acd 8 0))) 0).fault = 0x0501
    ∧ (getCore (nx (.nodeAdd 0 {}) (withAcd (acd 8 0))) 0).acdQ = [] := by decide +kernel
/-- R529: an old epoch sets ABT, a rejection REJ, each with an increment. -/
theorem test_wcd_ends : getSem (nx (.wbwdData 0 {}) (withWcd (wcd 2 1))) 8 = { getSem base 8 with value := 3, abt := true }
    ∧ getSem (nx (.wbwdData 0 {}) (withWcd (wcd 2 0))) 8 = { getSem base 8 with value := 3, rej := true } := by decide +kernel

/-- IntegerRowAndChecker: two columns of two elements in one pass, zero point 3, corrections 5 and 7. -/
theorem witness_IntegerRowAndChecker : (∀ c ∈ [[1, -2], [3, 4]], c.length = ([10, 20] : List Int).length)
    ∧ (intRow {} 1 [[1, -2], [3, 4]] [5, 7] {} { zp := 3, xs := [10, 20] }).2 = true
    ∧ accVal (intRow {} 1 [[1, -2], [3, 4]] [5, 7] {} { zp := 3, xs := [10, 20] }).1 0 = BitVec.ofInt 32 (-45)
    ∧ accVal (intRow {} 1 [[1, -2], [3, 4]] [5, 7] {} { zp := 3, xs := [10, 20] }).1 1 = 89#32 := by decide +kernel
/-- R135: one upset bit of a column makes T and P differ. -/
theorem test_checker_catches : (intRow { flips := [(0, 1, 4)] } 1 [[1, -2], [3, 4]] [] {} { xs := [10, 20] }).2 = false := by
  decide +kernel

/-- Core 0 waiting for the join buffer with a D-array command, with a W-array command, and for a seal. -/
def joining (w : CmdWait) : State := { base with
  core := [(0, { thr := [(1, thr)], acdRun := some (acd 1 0), acdWait := w, wcdRun := some (wcd 2 0), wcdWait := w })] }
/-- ArrayWaitsEnd: waits for the join buffer and for a seal; a command of an old epoch ends as it is tried again. -/
theorem witness_ArrayWaitsEnd : (getCore (joining .join) 0).acdWait = .join ∧ (getCore (joining .join) 0).acdRun = some (acd 1 0)
    ∧ (getCore (joining .join) 0).wcdWait = .join ∧ (getCore (joining .join) 0).wcdRun = some (wcd 2 0)
    ∧ (getCore (joining (.seal 64)) 0).acdWait = .seal 64 ∧ (getCore (joining (.seal 64)) 0).wcdWait = .seal 64 := by decide +kernel
theorem test_join_ready : (getCore (nx (.joinBufferReady 0 false {}) (joining .join)) 0).acdRun = none
    ∧ (getCore (nx (.joinBufferReady 0 false {}) (joining .join)) 0).fault = 0x0501 := by decide +kernel

/-- EngineIncrements: semaphore 8 of MODULE scope, and 7 of PARTITION scope, which an engine does not reach. -/
theorem witness_EngineIncrements : (getSem base 8).alloc = true ∧ (getSem base 8).ptn = 3 ∧ (getSem base 8).scope ≠ 0
    ∧ NobodyWaits base 8 ∧ ¬((getSem base 7).alloc = true ∧ (getSem base 7).ptn = 3 ∧ (getSem base 7).scope ≠ 0) := by
  unfold NobodyWaits; decide +kernel
theorem test_engine_increment : getSem (doneAdd base 3 8 .rej) 8 = { getSem base 8 with value := 3, rej := true }
    ∧ (doneAdd base 3 7 .plain).int.lastCode = 0x0402 ∧ (doneAdd base 3 7 .plain).rc = base.rc := by decide +kernel

/-- NumberFormats: codes of each kind. -/
theorem witness_NumberFormats : val4 8 = .nan ∧ val4 9 = .fin true 1 (-2) ∧ val16 0x7E00 = .inf false ∧ val16 0x7E01 = .nan
    ∧ val16 0x0001 = .fin false 1 (-39) ∧ val32 0x3F000000 = .fin false (2 ^ 24) (-24) := by decide +kernel

/-- A step that leaves w + 1 with eta u = -1: m = -1, no decay, bias factors 1. -/
def hyp1 (clamp : Word) : Hyper := { ob1 := 0x3F000000, mclamp := clamp }
def scal1 : Scalars := { c := 0x3F000000, dk := 0x3F000000, eta := 0x3F000000, bc1 := 0x3F000000, bc2 := 0x3F000000 }
/-- MasterClamp: a step within the clamp, one beyond it, one that is not a number, and counters that do not wrap. -/
theorem witness_MasterClamp :
    (applyElem false (hyp1 0x41000000) scal1 0xBF000000 { w := 0x3F000000 }).1.w = 0x40000000
    ∧ applyElem false (hyp1 0x3F000000) scal1 0xBF000000 { w := 0x3F000000 } =
        ({ w := 0x3F000000, m := 0xBF000000, v := 0, wc := 0x3E00 }, 1, 0)
    ∧ applyElem false (hyp1 0x3F000000) scal1 0x7F800000 { w := 0x3F000000, m := 5 } = ({ w := 0x3F000000, m := 5, wc := 0x3E00 }, 0, 1)
    ∧ (getCtx base 2).masterev < 2 ^ 32
    ∧ (getCtx (countMaster { base with ctx := [(2, { masterev := 0xFFFFFFFE })] } 2 3 5) 2).masterev = 0xFFFFFFFF := by decide +kernel

/-- A PCD of context 2 in partition 3 with DONE_SEM 8, in the queue of region 0. -/
def pcd (op epoch : Nat) : QEntry := entry (desc64 op epoch ([0x83, 0, 0, 0] ++ List.replicate 30 0 ++ [8, 0]))
def withPcd (e : QEntry) : State := { base with prs := [(0, { q := [e] })] }
/-- PressCommands, PressChecksAndStep: a PCD with a wrong CRC, one of an old epoch, one whose fields are refused. -/
theorem witness_PressCommands : (getPrs (withPcd (pcd 5 0)) 0).q = [pcd 5 0] ∧ (getPrs (withPcd (pcd 5 0)) 0).run = none
    ∧ (withPcd (pcd 5 0)).pwr.hold = false ∧ resetting (withPcd (pcd 5 0)) (4, 0) = false
    ∧ (getCtx (withPcd (pcd 5 0)) (pcdCtx (pcd 5 0).desc)).copying = false ∧ pcdCtx (pcd 5 0).desc = 2 ∧ field (pcd 5 0).desc 0 1 = 5
    ∧ (runPcd (withPcd (pcd 5 0)) 0 none (pcd 5 0)).2 = .fault .pcdInvalid
    ∧ (runPcd (withPcd (pcd 5 1)) 0 none (pcd 5 1)).2 = .stale
    ∧ crcTailOk (torn (pcd 5 0)).desc 60 = false ∧ crcTailOk (pcd 5 1).desc 60 = true := by decide +kernel
theorem test_pcd_ends : (getPrs (nx (.prsApply 0 none) (withPcd (pcd 5 0))) 0).fault = FaultCode.pcdInvalid.code
    ∧ getSem (nx (.prsApply 0 none) (withPcd (pcd 5 0))) 8 = { getSem base 8 with value := 3, rej := true }
    ∧ getSem (nx (.prsApply 0 none) (withPcd (pcd 5 1))) 8 = { getSem base 8 with value := 3, abt := true } := by decide +kernel
/-- PressChecksAndStep: CLIP zero, no bias correction, an infinite norm, a segment that has passed. -/
theorem witness_PressChecksAndStep : (val32 ({} : Hyper).clip).isZero = true ∧ ({} : Psb).bias = false
    ∧ val32 (tree [0x7F000000]) = .inf false ∧ (scalars {} {} [] [0x7F000000]).c = 0
    ∧ (scalars {} {} [] [0x3F000000]).c = 0x3F000000
    ∧ schedule [{ start := 0, len := 4, mu0 := 1, mu1 := 2 }, { start := 4, len := 3, mu0 := 2, mu1 := 9 }] 7 = 9 := by decide +kernel

/-! ### Threads -/

/-- A global address of this module. -/
def here (la : Nat) : Nat := 0x3FF * 2 ^ 54 + la
/-- A launch descriptor: two threads in M-mode for context 2, DONE_SEM 8, NOWAIT where asked. -/
def launchDesc (nowait : Bool) : List Byte :=
  withCrcTail (leBytes 1 1 ++ leBytes 1 (0x22 + if nowait then 0x40 else 0) ++ leBytes 2 2 ++ leBytes 2 8 ++ leBytes 2 0
    ++ leBytes 8 0x4000 ++ leBytes 8 77 ++ leBytes 8 0x10000 ++ leBytes 4 0x1000 ++ List.replicate 28 0) 0x3C
/-- The base state whose core 0 holds bytes at 64 of its SRAM, in lines tagged for partition 3. -/
def sram (bs : List Byte) : State := { base with
  mem := tsplice memDefault [] 0x0200000040 bs
  tags := [(0x0200000000 / 64, .shared 3 0), (0x0200000040 / 64, .shared 3 0), (0x0200000080 / 64, .shared 3 0)] }
/-- The place of offset `o` of core 0's SRAM. -/
def own (o : Nat) : Place := (.coreSram, o)

/-- The state in which no core of the partition but 0 is free, and one in which 64 launches wait. -/
def busyCores (q : List Launch) : State := { sram (launchDesc false) with
  core := (0, { thr := [(1, thr)] }) :: (countFrom 1 7).map (fun n => (n, { thr := [(0, thr)] }))
  ptn := [(3, { state := .active, activeMax := 2, syl := some syl, launchQ := q })] }
/-- Thread 1 waiting for a position of the ACD queue of core 0. -/
def queueWait : State := { base with
  core := [(0, { thr := [(1, { thr with state := .waitQueue, wait := .queue .acd (acd 1 0) 5 })] })] }

/-- ThreadsQueueDescriptors: room in the queue, a full queue, a waiter for a freed position. -/
theorem witness_ThreadsQueueDescriptors : mayIssue (sram (acd 1 0).desc) 0 1 = true ∧ queueKind 0 = some .acd
    ∧ (match threadDesc (sram (acd 1 0).desc) 0 1 (here 64) with | .ok r => r.2 == (acd 1 0).desc | .error _ => false) = true
    ∧ (queued base (.acd 0)).length < queueSize (.acd 0)
    ∧ (queueWaiters queueWait (.acd 0)).length = 1 ∧ (getThr queueWait 0 1).state = .waitQueue := by decide +kernel
theorem test_slv_cmd : (getCore (nx (.slvCmd 0 1 0 5 (here 64)) (sram (acd 1 0).desc)) 0).acdQ =
      [{ desc := (acd 1 0).desc, issuer := iss, stamp := now base }]
    ∧ (getThr (nx (.slvCmd 0 1 0 5 (here 64)) { sram (acd 1 0).desc with
        core := [(0, { thr := [(1, thr)], acdQ := List.replicate 8 (acd 1 0) })] }) 0 1).state = .waitQueue := by decide +kernel
theorem test_queue_position : (getCore (nx (.queuePositionFreed (.acd 0)) queueWait) 0).acdQ = [acd 1 0]
    ∧ (getThr (nx (.queuePositionFreed (.acd 0)) queueWait) 0 1).state = .ready := by decide +kernel

/-- ReadsCrcAndVectorInstructions: a range in SRAM with its tags, an address outside, a tile header of a reserved format; a conversion
from OZ16 to OZ32 with SEW 32, a function with SEW 16, a SEW that is illegal. -/
def vecThr (vtype : Nat) : Thr := { thr with vl := 2, vtype := vtype, v := [(2, 0xBE003E00)] }
def vec (vtype : Nat) : State := { base with core := [(0, { thr := [(1, vecThr vtype)] })] }
theorem witness_ReadsCrcAndVectorInstructions :
    CleanSram (sram [1, 2]) 0 1 .read (here 64) 64 (own 64) ∧ CleanSram (sram [1, 9]) 0 1 .read (here 64) 64 (own 64)
    ∧ CleanSram (sram [1]) 0 1 .write (here 124) 4 (own 124)
    ∧ badByte base (issuerOf base 0 1) .read (here (2 ^ 21)) 4 = some (here (2 ^ 21))
    ∧ tileLen (rawFmt (stored (sram [1, 9]) (addrOf (own 64)) 64)) (rawKind (stored (sram [1, 9]) (addrOf (own 64)) 64)) = none
    ∧ mayIssue (vec 0x10) 0 1 = true ∧ vcvtOf 3 = some (.oz16, .oz32) ∧ vtypeOf (vecThr 0x10) = some (32, 8)
    ∧ groupOk 2 4 = true ∧ groupOk 4 8 = true ∧ vcvtOf 0x10 = none
    ∧ vtypeOf (vecThr 0x08) = some (16, 8) ∧ fnDefined 1 = true := by
  unfold CleanSram; decide +kernel
/-- R107, R329: the check value of CRC-32C, over the ASCII digits 1 to 9; a length of 0 is an illegal instruction. -/
theorem test_slv_crc : getX (getThr (nx (.slvCrcRaw 0 1 5 (here 64) 9) (sram ((countFrom 0x31 9).map (BitVec.ofNat 8)))) 0 1) 5 =
      0xE3069283#64
    ∧ (getThr (nx (.slvCrcRaw 0 1 5 (here 64) 0) (sram [])) 0 1).lastTrap = 2
    ∧ getX (getThr (nx (.slvCrcTchk 0 1 5 (here 64)) (sram [1, 9])) 0 1) 5 = 2
    ∧ getX (getThr (nx (.slvCrcTgen 0 1 5 (here 64)) (sram [1, 9])) 0 1) 5 = 2 := by decide +kernel
/-- R330: OZ16 1.0 and -1.0 as OZ32; a reserved code traps. R331: RELU of them. -/
theorem test_slv_vcvt : bits (tget 0 (getThr (nx (.slvVcvt 0 1 4 2 3) (vec 0x10)) 0 1).v 4).toNat 0 64 = 0xBF0000003F000000
    ∧ (getThr (nx (.slvVcvt 0 1 4 2 0x10) (vec 0x10)) 0 1).lastTrap = 2 := by decide +kernel
theorem test_slv_vfn : bits (tget 0 (getThr (nx (.slvVfn 0 1 4 2 1) (vec 0x08)) 0 1).v 4).toNat 0 32 = 0x00003E00
    ∧ (getThr (nx (.slvVfn 0 1 4 2 1) (vec 0x10)) 0 1).lastTrap = 2 := by decide +kernel

/-- The launch that the descriptor describes, and one that waits with the lowest stamp. -/
def queuedLaunch : Launch := { nthreads := 2, mmode := true, ctx := 2, doneSem := 8, entry := 0x4000, issuer := some iss, rd := 5, stamp := 7 }
def launchWaits : State := { base with
  core := [(0, { thr := [(1, { thr with state := .waitRc, wait := .launch 5 })] })]
  ptn := [(3, { state := .active, activeMax := 2, syl := some syl, launchQ := [{ queuedLaunch with stamp := 9 }, queuedLaunch] })] }
/-- Thread 1 as the last of a group, and as one of two. -/
def grouped (live : List Nat) (sem : Nat) : State := { base with
  core := [(0, { thr := [(1, thr)], group := some { live := live, doneSem := sem, ctx := 2, ptn := 3 } })] }
/-- Launches: a free core, none free with and without NOWAIT, 64 waiting, an invalid descriptor, a queued launch, the exits of a group. -/
theorem witness_Launches : mayIssue (sram (launchDesc false)) 0 1 = true
    ∧ (match threadDesc (sram (launchDesc false)) 0 1 (here 64) with
        | .ok r => r.2 == launchDesc false && launchOk r.1 iss r.2 && freeCore r.1 3 (parseLaunch r.1 iss r.2 5) == some 1
        | .error _ => false) = true
    ∧ freeCore (busyCores []) 3 (parseLaunch (busyCores []) iss (launchDesc false) 5) = none
    ∧ bitOf (field (launchDesc true) 1 1) 6 = true ∧ bitOf (field (launchDesc false) 1 1) 6 = false
    ∧ (getPtn (busyCores (List.replicate 64 queuedLaunch)) 3).launchQ.length = 64
    ∧ launchOk base iss (acd 1 0).desc = false
    ∧ nextLaunch (getPtn launchWaits 3).launchQ = some queuedLaunch ∧ freeCore launchWaits 3 queuedLaunch = some 1
    ∧ (getThr launchWaits 0 1).state = .waitRc
    ∧ mayIssue (grouped [1, 2] 8) 0 1 = true ∧ ([1, 2] : List Nat).filter (· != 1) ≠ [] ∧ ([1] : List Nat).filter (· != 1) = []
    ∧ (getSem base 8).alloc = true ∧ (getSem base 8).ptn = 3 ∧ NobodyWaits base 8 := by unfold NobodyWaits; decide +kernel
theorem test_launch : let u := nx (.slvLaunch 0 1 5 (here 64)) (sram (launchDesc false))
    getX (getThr u 0 1) 5 = 65536 ∧ (getThr u 1 1).state = .ready ∧ getX (getThr u 1 1) 2 = 0x11000 ∧ getX (getThr u 1 1) 11 = 1
    ∧ (getThr u 1 0).pc = 0x4000 ∧ (getThr u 1 2).state = .idle ∧ (getCore u 1).group.isSome = true := by decide +kernel
theorem test_launch_queue : (getPtn (nx (.slvLaunch 0 1 5 (here 64)) (busyCores [])) 3).launchQ.length = 1
    ∧ getX (getThr (nx (.slvLaunch 0 1 5 (here 64)) { busyCores [] with mem := (sram (launchDesc true)).mem }) 0 1) 5 = 1
    ∧ getX (getThr (nx (.slvLaunch 0 1 5 (here 64)) (sram (acd 1 0).desc)) 0 1) 5 = 2 := by decide +kernel
theorem test_launch_placed : let u := nx (.launchPlaced 3) launchWaits
    (getPtn u 3).launchQ.map Launch.stamp = [9] ∧ (getThr u 0 1).state = .ready ∧ getX (getThr u 0 1) 5 = 65536
    ∧ (getThr u 1 0).pc = 0x4000 := by decide +kernel
theorem test_exit : (getCore (nx (.slvExit 0 1) (grouped [1, 2] 8)) 0).group.isSome = true
    ∧ (getCore (nx (.slvExit 0 1) (grouped [1] 8)) 0).group = none
    ∧ (getSem (nx (.slvExit 0 1) (grouped [1] 8)) 8).value = 3 ∧ (getThr (nx (.slvExit 0 1) (grouped [1] 0xFFFF)) 0 1).state = .idle := by
  decide +kernel

/-- A thread in U-mode, and one in M-mode without a handler. -/
def withThr (h : Thr) : State := { sram [0x80, 2, 3, 4, 5, 6, 7, 8] with core := [(0, { thr := [(1, h)] })] }
/-- ThreadAccessesAndTraps: aligned items in SRAM, a misaligned address, one outside the windows, a register in U-mode, a reservation
that stands and one that does not. -/
theorem witness_ThreadAccessesAndTraps : mayIssue (withThr thr) 0 1 = true ∧ here 64 % 8 = 0 ∧ regOf (withThr thr) (here 64) = none
    ∧ CleanSram (withThr thr) 0 1 .write (here 64) 8 (own 64) ∧ CleanSram (withThr thr) 0 1 .read (here 64) 4 (own 64)
    ∧ heldOver (withThr thr) (own 64) 8 = false ∧ here 65 % 4 ≠ 0
    ∧ itemPlace (withThr thr) (some 0) (here 0x0200200000) 4 = some (own 0x200000) ∧ meetsRind (withThr thr) (own 0x200000) 4 = false
    ∧ badByte (withThr { thr with mmode := false }) (issuerOf (withThr { thr with mmode := false }) 0 1) .write (here 0x0200200000) 4 =
        some (here 0x0200200000)
    ∧ badByte (withThr { thr with mmode := false }) (issuerOf (withThr { thr with mmode := false }) 0 1) .read (here 0x0200200000) 4 =
        some (here 0x0200200000)
    ∧ regOf (withThr thr) (here 0x4000200000) = some 0x200000
    ∧ tget 0 { withThr thr with resv := [(1, 0x0200000040 / 64)] }.resv 1 = addrOf (own 64) / 64
    ∧ tget 0 (withThr thr).resv 1 ≠ addrOf (own 64) / 64
    ∧ mayIssue (withThr { thr with state := .idle }) 0 1 = false := by unfold CleanSram; decide +kernel
theorem test_load_signs : getX (getThr (nx (.threadMemoryAccess 0 1 4 (.load (here 64) 1 true 5)) (withThr thr)) 0 1) 5 =
      0xFFFFFFFFFFFFFF80
    ∧ getX (getThr (nx (.threadMemoryAccess 0 1 4 (.load (here 64) 2 false 5)) (withThr thr)) 0 1) 5 = 0x0280 := by decide +kernel
theorem test_store_little_endian :
    stored (nx (.threadMemoryAccess 0 1 4 (.store (here 66) 2 0xABCD)) (withThr thr)) 0x0200000040 6 = [0x80, 2, 0xCD, 0xAB, 5, 6] := by
  decide +kernel
theorem test_access_traps : (getThr (nx (.threadMemoryAccess 0 1 4 (.store (here 65) 2 0)) (withThr thr)) 0 1).mcause = 6
    ∧ (getThr (nx (.threadMemoryAccess 0 1 4 (.load (here 65) 2 false 5)) (withThr thr)) 0 1).mcause = 4
    ∧ (getThr (nx (.threadMemoryAccess 0 1 4 (.store (here 0x0200200000) 4 0)) (withThr { thr with mmode := false })) 0 1).mcause = 7
    ∧ (getThr (nx (.threadMemoryAccess 0 1 4 (.load (here 0x0200200000) 4 false 5)) (withThr { thr with mmode := false })) 0 1).mcause = 5
    ∧ (getThr (nx (.threadMemoryAccess 0 1 4 (.store (here 0x4000200000) 4 0)) (withThr { thr with mmode := false })) 0 1).mcause = 7 := by
  decide +kernel
theorem test_atomics : stored (nx (.threadMemoryAccess 0 1 4 (.amo .add (here 64) 4 1 5)) (withThr thr)) 0x0200000040 4 = [0x81, 2, 3, 4]
    ∧ tget 0 (nx (.threadMemoryAccess 0 1 4 (.lr (here 64) 4 5)) (withThr thr)).resv 1 = 0x0200000040 / 64
    ∧ getX (getThr (nx (.threadMemoryAccess 0 1 4 (.sc (here 64) 4 9 5)) (withThr thr)) 0 1) 5 = 1
    ∧ stored (nx (.threadMemoryAccess 0 1 4 (.sc (here 64) 4 9 5)) { withThr thr with resv := [(1, 0x0200000040 / 64)] }) 0x0200000040 4 =
        [9, 0, 0, 0] := by decide +kernel
theorem test_traps : (getThr (nx (.threadTrap 0 1 3 0) (withThr thr)) 0 1).pc = 0x8000
    ∧ (getThr (nx (.threadTrap 0 1 3 0) (withThr { thr with mtvec := 0 })) 0 1).state = .halted
    ∧ (getThr (nx (.slvctxWrite 0 1 3) (withThr thr)) 0 1).ctx = 3
    ∧ (getThr (nx (.slvctxWrite 0 1 3) (withThr { thr with mmode := false })) 0 1).mcause = 2 := by decide +kernel

/-! ### Registers -/

/-- The base state with sessions of each role: 1 installer, 2 operator, 3 maker; VAO is up. -/
def open_ : State := { base with
  ses := { open_ := [{ id := 1, role := .installer }, { id := 2, role := .operator }, { id := 3, role := .maker }] }
  pwr := { vao := true, charged := true, holdSeen := true } }
def inst : Req := .session 1
def oper : Req := .session 2
def makr : Req := .session 3

/-- RegisterWrites: each role, an unassigned block, an offset that is not aligned. -/
theorem witness_RegisterWrites : hasRole open_ inst = true ∧ isInstaller open_ inst = true ∧ isOperator open_ oper = true
    ∧ partsUp open_ = true ∧ regBlock 0x190000 = .unassigned ∧ mayRead open_ makr 0x060020 = false ∧ 0x010102 % 4 ≠ 0 := by decide +kernel
theorem test_register_writes : (nx (.registerWrite inst 0x010100 4 0x1FFF {}) open_).pwr.cap = 0xFFF
    ∧ (nx (.registerWrite oper 0x010100 4 5 {}) open_).pwr.cap = open_.pwr.cap
    ∧ (nx (.registerWrite inst 0x010100 2 5 {}) open_).pwr.cap = open_.pwr.cap
    ∧ (nx (.registerWrite oper 0x010104 4 0x40000000 {}) open_).pwr.holdSeen = false
    ∧ (nx (.registerWrite oper 0x010104 4 0xBFFFFFFF {}) open_).pwr.holdSeen = true
    ∧ regValue (nx (.registerWrite oper 0x060020 4 7 {}) open_) 0x060024 = 10 := by decide +kernel

/-! ### Bell and Timetable -/

/-- A member of a domain that follows port 2 and tracks port 1 as its alternate; `b` changes its Bell block. -/
def member (b : BellBlk → BellBlk) : State := { net with
  fab.port := [(1, { pstate := .up }), (2, { pstate := .up })]
  bell := b {
    state := .running, count := 100, sub := 5, pllLocked := true, source := 1,
    cfg := { domainEn := true, role := 0, upPort := 2, altPort := 1, altEn := true },
    prim := { measured := true, delay := 40, last := 40 }, alt := { measured := true, instant := 7 } } }
/-- A BELL frame of the master: Bell, offset in 1/16 cy, mark. -/
def bellIn (bell offset : Nat) (mark : Option Nat) : List Byte := syncFrame 1 9 0x3FF 0 (bodyBits bell 223 160 + bodyBits offset 158 143
  + (match mark with | some m => bodyBits 1 142 142 + bodyBits m 141 138 | none => 0))

/-- BellInstantsAndDelays: a counting module, a mark that counts down and one that has ended, a local Bell, a reference that is absent, the
master before the start, a locked member, a PROBE to send, one to answer, an ECHO near the last and one far from it. -/
theorem witness_BellInstantsAndDelays : counting base = true
    ∧ (member (fun b => { b with state := .waitStart, markLeft := some 3 })).bell.markRx = none
    ∧ base.bell.cfg.domainEn = false ∧ refOk base = true ∧ base.mod.ready = true ∧ base.bell.pllLocked = true
    ∧ refOk { base with bell.cfg.refSrc := 1 } = false
    ∧ membersReady { member (fun b => { b with state := .waitStart, cfg := { b.cfg with role := 1 } }) with
        rc.neighbours := [(1, some { lmn := 8, ready := true }), (2, some { lmn := 9, ready := true })] } = true
    ∧ ownBell (member id) = false ∧ delaysKnown (member id) = true ∧ streamOf (member id) 2 = some false
    ∧ delayOf 0 640 656 736 = 360 ∧ max 360 600 - min 360 600 ≤ 256 ∧ 256 < max 360 40 - min 360 40 := by decide +kernel
theorem test_bell : (nx .bell base).bell.count = 101 ∧ (nx .bell base).bell.sub = 0
    ∧ (nx .bell (member (fun b => { b with state := .waitStart, markLeft := some 3 }))).bell.markLeft = some 2
    ∧ (nx .bell (member (fun b => { b with state := .waitStart, markLeft := some 0 }))).bell.state = .running
    ∧ (nx .bell (member (fun b => { b with state := .waitStart, markLeft := some 0 }))).bell.count = 0 := by decide +kernel
theorem test_local_bell : (nx .localBellStart { base with bell := { state := .locking, pllLocked := true, count := 9 } }).bell =
      { state := .running, pllLocked := true, count := 0, source := 3 }
    ∧ (nx .domainStartMark { member (fun b => { b with state := .waitStart, cfg := { b.cfg with role := 1 } }) with
        rc.neighbours := [(1, some { lmn := 8, ready := true }), (2, some { lmn := 9, ready := true })] }).bell.markLeft = some 16
    ∧ (nx .pllLock (member (fun b => { b with state := .locking, pllLocked := false }))).bell.state = .waitStart
    ∧ (nx .bellRefLoss { base with bell.refPresent := true }).bell.refPresent = false
    ∧ (nx .bellRefReturn base).bell.refPresent = true := by decide +kernel
theorem test_probe : (nx (.delayMeasurement false 500) (member id)).bell.prim.probe = some (0, 500)
    ∧ (nx (.delayMeasurement false 500) (member id)).rc.txq.map (fun x => (x.port, frType x.bytes, frameBits x.bytes 223 176)) = [(2, 7, 500)]
    ∧ (nx (.probeReceive 2 (syncFrame 7 9 0x3FF 0 (bodyBits 500 223 176)) 640 656) (member id)).rc.txq.map (fun x =>
        (x.port, frType x.bytes, frameBits x.bytes 159 112, frameBits x.bytes 111 64)) = [(2, 8, 640, 656)] := by decide +kernel
/-- R254, R290: an ECHO within 16 cy of the last is taken, another is discarded. -/
def echoIn : List Byte := syncFrame 8 9 0x3FF 0 (bodyBits 0 223 176 + bodyBits 0 175 160 + bodyBits 640 159 112 + bodyBits 656 111 64)
def probed (last : Nat) : State := member (fun b => { b with prim := { b.prim with last := last, probe := some (0, 0) } })
theorem test_echo : (nx (.echoReceive 2 echoIn 736) (member (fun b => { b with
      prim := { b.prim with last := 40, discards := 2, probe := some (0, 0) } }))).bell.prim.barred = true
    ∧ (nx (.echoReceive 2 echoIn 736) (probed 600)).bell.prim.last = 360
    ∧ (nx (.echoReceive 2 echoIn 736) (probed 40)).bell.prim.last = 40
    ∧ (nx (.echoReceive 2 echoIn 736) (probed 40)).bell.prim.discards = 1 := by decide +kernel

/-- BellStreams: a frame of a stream and one of a port that is none, WAIT_START, HOLDOVER below and at the limit, LOST with the same and
with another number, streams that are gone and that are not, a port that is barred and one that is not. -/
theorem witness_BellStreams : frType (bellIn 101 33 (some 4)) = 1 ∧ fcrcOk (bellIn 101 33 (some 4)) = true
    ∧ frameBits (bellIn 101 33 (some 4)) 227 224 = 0 ∧ frameBits (bellIn 101 33 (some 4)) 133 32 = 0
    ∧ frameBits (bellIn 101 33 (some 4)) 137 134 ≤ 8 ∧ streamOf (member id) 3 = none ∧ streamOf (member id) 2 = some false
    ∧ streamOf (member id) 1 = some true ∧ (member id).bell.holdLimit = 1024
    ∧ (member id).bell.prim.missing = 0 ∧ gone (member id).bell.alt = false ∧ ownBell (member id) = false
    ∧ gone (slewDelay { ({} : Upstream) with missing := 2 }) = true ∧ gone (slewDelay (member id).bell.prim) = false
    ∧ gone (slewDelay (member id).bell.alt) = false ∧ (member id).bell.prim.barred = false
    ∧ ({ ({} : Upstream) with untrusted := true }).barred = true ∧ inForm (member id) 3 = true := by decide +kernel
theorem test_bell_frame : (nx (.bellFrameReceive 2 (bellIn 101 33 none)) (member id)).bell.prim.instant = -7
    ∧ nx (.bellFrameReceive 3 (bellIn 101 33 none)) (member id) = member id
    ∧ (nx (.bellFrameReceive 2 (bellIn 101 33 (some 4))) (member (fun b => { b with state := .waitStart }))).bell.markRx = some 4
    ∧ (nx (.bellFrameReceive 2 (bellIn 101 33 none)) (member (fun b => { b with state := .holdover, holdoverBells := 1023 }))).bell.state =
        .running := by decide +kernel
theorem test_bell_relock : let lost := member (fun b => { b with state := .lost })
    (nx (.bellFrameReceive 2 (bellIn 101 33 none)) lost).bell.stepped = false
    ∧ (nx (.bellFrameReceive 2 (bellIn 500 33 none)) lost).bell.count = 499
    ∧ (nx (.bellFrameReceive 2 (bellIn 500 33 none)) lost).int.lastCode = FaultCode.bellStep.code := by decide +kernel
/-- R260: the second missing frame changes nothing; the Bell after it does. -/
theorem test_bell_missing : let two := fun b : BellBlk => { b with prim := { b.prim with missing := 2 } }
    (nx (.bellFrameMissing false) (member id)).bell.prim.missing = 1
    ∧ (nx (.bellFrameMissing false) (member (fun b => { b with prim := { b.prim with missing := 1 } }))).bell.source = 1
    ∧ (nx .bell (member two)).bell.source = 2 ∧ (nx .bell (member two)).bell.slew = 7
    ∧ (nx .bell (member (fun b => { two b with cfg := { b.cfg with altEn := false } }))).bell.state = .holdover
    ∧ (nx .bell (member (fun b => { two b with cfg := { b.cfg with role := 2 } }))).bell.actingMaster = true := by
  decide +kernel
theorem test_holdover_limit : let u := nx .holdoverLimit (member (fun b => { b with state := .holdover, holdoverBells := 1024 }))
    u.bell.state = .lost ∧ (getPtn u 3).state = .held := by decide +kernel

/-- Governor: an average above the cap, two at or below 95 % of it, an entry and an exit that are due. -/
theorem witness_Governor : counting base = true ∧ capWatts base = 2400 ∧ 2280 * 100 ≤ capWatts base * 95
    ∧ capWatts base * 95 < 2281 * 100 := by decide +kernel
theorem test_governor : (nx (.governorBellAverage 2401) base).pwr.enterAt = some 101
    ∧ (nx (.governorBellAverage 2280) { base with pwr.hold := true, pwr.lowRun := 1 }).pwr.leaveAt = some 101
    ∧ (nx (.governorBellAverage 2281) { base with pwr.hold := true, pwr.lowRun := 1 }).pwr.lowRun = 0
    ∧ (nx .bell { base with pwr.enterAt := some 101 }).pwr.hold = true
    ∧ (nx .bell { base with pwr.hold := true, pwr.leaveAt := some 101 }).pwr.hold = false := by decide +kernel

/-- A Timetable of 50 Bells: slot 0 a tutorial from 5 to 20, GO_SEM 8, DONE_SEM 9 with target 4. -/
def tt0 : Timetable := {
  lessonBells := 50
  slots := [{ kind := .tutorial, start := 5, deadline := 20, goSem := 8, doneSem := 9, doneTarget := 4 }] }
/-- Partition 3 with the Timetable, whose state `f` gives. -/
def timed (f : Tt → Tt) (st : PtnState := .active) : State := { open_ with
  ptn := [(3, { state := st, activeMax := 2, syl := some { syl with tt := tt0 }, tt := f {} })]
  rc.sem := [(8, { alloc := true, ptn := 3, scope := 1, value := 2 }), (9, { alloc := true, ptn := 3, scope := 1, value := 6 })] }

/-- TimetableCommands: START in each state, STOP of a running and a held one, RESUME two Bells ahead and sooner, a beginning that is due. -/
theorem witness_TimetableCommands : mayPtn (timed id) oper 3 = true ∧ (ttOf (timed id) 3).isSome = true ∧ ptnUp (timed id) 3 = true
    ∧ bellRuns (timed id) = true ∧ ttOf base 4 = none ∧ bellRuns { timed id with bell.state := .locking } = false
    ∧ ptnRunning (timed id) 3 = false ∧ nextStart { ({} : Tt) with bound := 80 } tt0 = 85 := by decide +kernel
theorem test_tt_start : (getPtn (nx (.ttStart oper 3 102) (timed id)) 3).tt = { at_ := 102, state := .armed, b0 := 102, cmdStatus := 0 }
    ∧ (getPtn (nx (.ttStart oper 3 101) (timed id)) 3).tt.cmdStatus = 2
    ∧ (getPtn (nx (.ttStart oper 3 102) (timed (fun t => { t with state := .running }))) 3).tt.cmdStatus = 3 := by decide +kernel
theorem test_tt_stop_resume : (getPtn (nx (.ttStop oper 3) (timed (fun t => { t with state := .running }))) 3).tt.state = .stopping
    ∧ (getPtn (nx (.ttStop oper 3) (timed (fun t => { t with state := .held }))) 3).tt.state = .idle
    ∧ (getPtn (nx (.ttResume oper 3 110) (timed (fun t => { t with state := .held, bound := 80, b0 := 30 }))) 3).tt.b0 = 55
    ∧ nextStart (getPtn (nx (.ttResume oper 3 110) (timed (fun t => { t with state := .held, bound := 80, b0 := 30 }))) 3).tt tt0 = 110
    ∧ (getPtn (nx (.timetableBegin 3) (timed (fun t => { t with state := .armed, b0 := 100 }))) 3).tt.bound = 100 := by decide +kernel

/-- A running Lesson at its start, and with slot 0 open until Bell `e`. -/
def lesson0 (t : Tt) : Tt := { t with state := .running, inLesson := true, bound := 95, b0 := 95 }
def slotOpen (e : Nat) (done : Bool) (t : Tt) : Tt := { lesson0 t with
  next := 1, curSlot := 0, open_ := [{ idx := 0, startB := 85, endB := e, done := done }] }
/-- SlotsAndLessons: a slot at its START Bell, one at its DEADLINE Bell completed and not, a boundary that is due in each state and one to
come. -/
theorem witness_SlotsAndLessons : ttOf (timed lesson0) 3 = some tt0 ∧ counting (timed lesson0) = true
    ∧ (getPtn (timed lesson0) 3).tt.bound + 5 ≤ (timed lesson0).bell.count ∧ NobodyWaits (timed lesson0) 8
    ∧ ((getPtn (judgeSlots (timed (slotOpen 100 true)) 3) 3).tt.open_.map (fun o => (o.idx, o.endB, o.done))) = [(0, 100, true)]
    ∧ ((getPtn (judgeSlots { timed (slotOpen 100 false) with rc.sem := [] } 3) 3).tt.open_.map (fun o => (o.idx, o.endB, o.done))) =
        [(0, 100, false)]
    ∧ stampOf 100 0 < now (timed lesson0)
    ∧ nextBoundary { lesson0 {} with bound := 50 } tt0 = 100 ∧ (timed lesson0).bell.count < nextBoundary (lesson0 {}) tt0
    ∧ ptnRunning { timed lesson0 with core := [(0, { acdRun := some (acd 1 0) })] } 3 = true := by unfold NobodyWaits; decide +kernel
theorem test_slot_start : let u := nx (.slotStart 3 0 []) (timed lesson0)
    (getPtn u 3).tt.curSlot = 0 ∧ (getPtn u 3).tt.open_.map (fun o => (o.startB, o.endB)) = [(100, 115)] ∧ (getSem u 9).value = 0
    ∧ (getSem u 8).value = 3 := by decide +kernel
theorem test_slot_deadline : let u := nx (.slotDeadline 3 0) { timed (slotOpen 100 false) with rc.sem := [] }
    (getPtn u 3).tt.overruns = 1 ∧ (getPtn u 3).tt.noRelease = true ∧ u.int.lastCode = 0x0301
    ∧ (getPtn (nx (.slotDeadline 3 0) (timed (slotOpen 100 true))) 3).tt.open_ = [] := by decide +kernel
theorem test_lesson_boundary : let at50 := fun t : Tt => { lesson0 t with bound := 50, lesson := 7 }
    (getPtn (nx (.lessonBoundary 3) (timed at50)) 3).tt.lesson = 8 ∧ (getPtn (nx (.lessonBoundary 3) (timed at50)) 3).tt.bound = 100
    ∧ (getPtn (nx (.lessonBoundary 3) (timed (fun t => { at50 t with resumedOn := some 100 }))) 3).tt.lesson = 7
    ∧ (getPtn (nx (.lessonBoundary 3) (timed at50 .held)) 3).tt.state = .held
    ∧ (getPtn (nx (.lessonBoundary 3) (timed (fun t => { at50 t with state := .stopping }))) 3).tt.state = .idle
    ∧ (getPtn (nx (.lessonBoundary 3) { timed (fun t => { at50 t with aborted := true }) with core := [(0, { acdRun := some (acd 1 0) })] })
        3).tt.skipped = 1 := by decide +kernel

/-! ### Contexts, partitions, Brine -/

/-- Partition 3 (with the Timetable) in state `st`, its context 2 as `x`. -/
def withCtx (x : Ctx) (st : PtnState := .active) : State := { timed id st with ctx := [(2, x)] }

/-- ContextCommands: context 2 of partition 3 in each state that a clause asks for, a seat that exists and one that does not, a context
outside the partition. -/
theorem witness_ContextCommands : mayPtn (withCtx {}) oper 3 = true ∧ ptnOfCtx (withCtx {}) 2 = some 3 ∧ ptnUp (withCtx {}) 3 = true
    ∧ restoring (withCtx {}) 2 = false ∧ seatOk (withCtx {}) 3 0 = true ∧ seatOk (withCtx {}) 3 63 = false
    ∧ ptnOfCtx (withCtx {}) 4 ≠ some 3
    ∧ (∀ st ∈ [CtxState.free, .keyed, .attaching, .running, .preempting, .swapped, .resuming, .detaching, .restart, .scrubbing],
        (getCtx (withCtx { state := st, restored := true }) 2).state = st) := by decide +kernel
theorem test_attach : let u := nx (.attach oper 3 2 0) (withCtx { state := .keyed })
    (getCtx u 2).state = .attaching ∧ (getPtn u 3).resStatus = 0
    ∧ (getCtx (nx (.attach oper 3 2 0) (withCtx { state := .detaching })) 2).enableQ = [.attach 0]
    ∧ (getPtn (nx (.attach oper 3 2 63) (withCtx { state := .keyed })) 3).resStatus = 3
    ∧ (getPtn (nx (.attach oper 3 4 0) (withCtx { state := .keyed })) 3).resStatus = 2 := by decide +kernel
theorem test_preempt_resume : let u := nx (.preempt oper 3 2) (withCtx { state := .running })
    (getCtx u 2).state = .preempting
    ∧ (getCtx (nx (.resume oper 3 2 0) (withCtx { state := .swapped })) 2).state = .resuming
    ∧ (getPtn (nx (.resume oper 3 2 0) (withCtx { state := .restart })) 3).resStatus = 4
    ∧ (getCtx (nx (.rebind oper 3 2 0) (withCtx { state := .running })) 2).rebind = true := by decide +kernel
theorem test_detach_cancel : (getCtx (nx (.detach oper 3 2) (withCtx { state := .running })) 2).stay = true
    ∧ (getCtx (nx (.detach oper 3 2) (withCtx { state := .swapped })) 2).quietSince = some 204805
    ∧ (getCtx (nx (.ctxCancel oper 3 2) (withCtx { state := .resuming })) 2).state = .swapped
    ∧ (getCtx (nx (.ctxCancel oper 3 2) (withCtx { state := .attaching })) 2).state = .keyed := by decide +kernel

/-- PartitionCommands: partition 3 ACTIVE, HELD by the operator and by DEGRADED, OFF; a runtime thread of it; the ends of commands with the
Timetable STOPPING, RUNNING after an overrun, and of a teardown. -/
def heldBy (cause : Nat) : State := { timed id .held with
  ptn := [(3, { getPtn (timed id .held) 3 with holdCause := cause })] }
theorem witness_PartitionCommands : mayPtn (timed id) oper 3 = true ∧ ptnUp (timed id .off) 3 = false
    ∧ (getPtn (heldBy 1) 3).state = .held ∧ bitOf (getPtn (heldBy 1) 3).holdCause causeDegraded = false
    ∧ bitOf (getPtn (heldBy 1) 3).holdCause causeXdie1 = false ∧ bitOf (getPtn (heldBy 1) 3).holdCause causeBellLost = false
    ∧ bitOf (getPtn (heldBy (2 ^ causeDegraded)) 3).holdCause causeDegraded = true ∧ ptnUp (heldBy (2 ^ causeDegraded)) 3 = true
    ∧ journalRoom (timed id) = true ∧ 2 ∈ ctxRange (timed id) 3 ∧ (getCtx (timed id) 2).state = .running
    ∧ isRuntimeOf (timed id) 3 (.thread 0 1) = true
    ∧ ptnRunning (timed id) 3 = false ∧ ptnRunning { timed id with core := [(0, { acdRun := some (acd 1 0) })] } 3 = true
    ∧ ttOf (timed id) 3 = some tt0 ∧ (slotAt tt0 0).doneTarget ≤ (getSem (timed id) (slotAt tt0 0).doneSem).value
    ∧ attachedCount { timed id .teardown with ctx := [] } 3 = 0 := by decide +kernel
theorem test_hold_release : let u := nx (.ptnHold oper 3) (timed id)
    (getPtn u 3).state = .held ∧ (getPtn (nx (.ptnRelease oper 3) u) 3).state = .active
    ∧ (getPtn (nx (.ptnRelease oper 3) (heldBy (2 ^ causeDegraded))) 3).resStatus = 8
    ∧ (getPtn (nx (.ptnHold (.thread 0 1) 3) (timed id)) 3).resStatus = 5 := by decide +kernel
theorem test_commands_ended : let late := fun t : Tt => { t with state := .running, noRelease := true, overrunSlot := some 0 }
    (getPtn (nx (.partitionCommandsEnded 3) (timed late)) 3).tt.state = .held
    ∧ (getPtn (nx (.partitionCommandsEnded 3) (timed (fun t => { t with state := .stopping, noRelease := true }))) 3).tt.state = .idle
    ∧ (getPtn (nx (.partitionCommandsEnded 3) { timed id .teardown with ctx := [] }) 3).state = .scrubbing := by decide +kernel

/-- ContextDeparturesAndQueuedEnables: bounds that have come and one that has not, a quiet period before and after its end, queued
enables. -/
def departed (quiet : Nat) : State := { withCtx { state := .detaching, quietSince := some quiet } with
  bell := { state := .running, count := 5000, sub := 5, pllLocked := true } }
def queued (ks : List CtxEnable) : State := withCtx { state := .free, enableQ := ks, restSince := some 99 }
def offPending : State := { timed id .off with ptn := [(3, { state := .off, enablePending := some syl, restSince := some 99 })] }
def brineOff : State := { open_ with brn := { engine := .off, enablePending := true, restSince := some 99 } }
theorem witness_ContextDeparturesAndQueuedEnables : ptnOfCtx (withCtx { state := .preempting, bound := 100 }) 2 = some 3
    ∧ counting (withCtx {}) = true ∧ (withCtx {}).bell.count = 100
    ∧ quietFrom (departed 0) 2 + 4096 ≤ now (departed 0) ∧ now (departed 10240000) < quietFrom (departed 10240000) 2 + 4096
    ∧ 99 + 1 ≤ (queued []).bell.count ∧ (getPtn offPending 3).enablePending = some syl ∧ offPending.int.heldClusters = []
    ∧ brineOff.brn.engine = .off := by decide +kernel
theorem test_bound_expiry : (getCtx (nx (.preemptBoundExpiry 2) (withCtx { state := .preempting, bound := 100 })) 2).state = .restart
    ∧ (getPtn (nx (.preemptBoundExpiry 2) (withCtx { state := .preempting, bound := 100 })) 3).revoked = 1
    ∧ (getCtx (nx (.preemptBoundExpiry 2) (withCtx { state := .detaching, stay := true, bound := 100 })) 2).stay = false
    ∧ (getCtx (nx (.preemptBoundExpiry 2) (withCtx { state := .preempting, bound := 101 })) 2).state = .preempting := by decide +kernel
theorem test_landing_quiet : (getCtx (nx (.landingQuiet 2) (departed 0)) 2).state = .scrubbing
    ∧ (nx (.landingQuiet 2) (departed 0)).brn.queue = [.context 3 2]
    ∧ (getCtx (nx (.landingQuiet 2) (departed 10240000)) 2).state = .detaching := by decide +kernel
theorem test_queued_enables : (getPtn (nx (.enableQueuedApply (.partition 3)) offPending) 3).activeMax = grant.ctxCount ∧
    (getCtx (nx (.enableQueuedApply (.context 2)) (queued [.attach 0])) 2).lastStatus = 1
    ∧ (getPtn (nx (.enableQueuedApply (.partition 3)) offPending) 3).state = .active
    ∧ (nx (.enableQueuedApply .brine) brineOff).brn.engine = .on := by decide +kernel

/-- The base window of base 5 in the module Syllabus, with its key where `key` says so; Brine as `b`. -/
def baseWin5 : Win := { type := .base, mem := .tier2, key := .base, owner := 5, base := 2 ^ 16, size := 2 ^ 16 }
def brined (key : Bool) (b : BrnBlk) : State := { open_ with
  syl.module := some { grants := [grant], wins := [baseWin5] }, keys.base := if key then [(0, some {})] else [], brn := b }
/-- Brine: a base without a window, without and with its key, with Rind, in use and not; Brine ON, DISABLING, busy; a job of each kind. -/
theorem witness_Brine : partsUp (brined true {}) = true ∧ isOperator (brined true {}) oper = true ∧ isInstaller (brined true {}) inst = true
    ∧ baseWin (brined true {}) 6 = none ∧ baseWin (brined true {}) 5 = some baseWin5 ∧ baseSlot (brined true {}) 5 = some 0
    ∧ tget none (brined false {}).keys.base 0 = none ∧ tget none (brined true {}).keys.base 0 = some {}
    ∧ 5 ∈ (brined true { rind := [5] }).brn.rind ∧ baseInUse (brined true {}) 5 = false
    ∧ baseInUse { brined true {} with ptn := [(3, { state := .active, syl := some { syl with wins := [{ type := .tensor, owner := 5 }] } })] } 5 = true
    ∧ (brined true { queue := [.baseTeardown 5] }).brn.cur = none ∧ (brined true {}).pwr.hold = false
    ∧ journalRoom (brined true {}) = true ∧ journalRoom { brined true {} with led.seq := 32512 } = false
    ∧ captureHolds (brined true {}) (.partition 3) = false
    ∧ captureHolds { brined true {} with snp.jobs := [{ ptn := 3, ctx := 2 }] } (.partition 3) = true
    ∧ MemKind.isSram .hbm = false ∧ 64 % 2 ^ 36 + 64 ≤ 2 ^ 36 := by decide +kernel
theorem test_brine_commands : (nx (.baseCommit oper 5) (brined true {})).brn.queue = [.baseCommit 5 2 0]
    ∧ (nx (.baseCommit oper 5) (brined false {})).brn.status = 7 ∧ (nx (.baseCommit oper 6) (brined true {})).brn.status = 5
    ∧ (nx (.baseTeardown inst 5) (brined true {})).brn.status = 2 ∧ (nx (.brineDisable inst) (brined true {})).brn.engine = .disabling
    ∧ (nx .brineDisabled (brined true { engine := .disabling })).brn.engine = .off
    ∧ (nx (.brineEnable inst) (brined true { engine := .disabling })).brn.enablePending = true := by decide +kernel
/-- R509: a teardown and the engine's switches are journaled for their writer. -/
theorem test_brine_journal : ((nx (.baseTeardown oper 5) (brined true {})).led.journal.map (fun e => (e.action, e.role, e.aux))) = [(9, 2, 5)]
    ∧ ((nx (.brineEnable inst) (brined true {})).led.journal.map (fun e => (e.action, e.role, e.aux))) = [(18, 1, 2)] := by decide +kernel
theorem test_brine_jobs : (nx .brineJobStart (brined true { queue := [.baseTeardown 5] })).brn.cur = some (.baseTeardown 5)
    ∧ (nx .brineJobEnd (brined true { cur := some (.baseTeardown 5), rind := [5] })).brn.rind = []
    ∧ (nx .brineJobEnd (brined true { cur := some (.baseTeardown 5), rind := [5] })).brn.count = 1 := by decide +kernel

/-! ### The Syllabus, a base, open house -/

/-- A state with bytes at a local address. -/
def atLa (s : State) (la : Nat) (bs : List Byte) : State := { s with mem := tsplice memDefault s.mem la bs }
/-- The table of base `b` with one entry, a vector of 256 bytes at 128 (R420), and the vector with its CRC. -/
def vecTable (b : Nat) : List Byte :=
  let bs := leBytes 1 1 ++ leBytes 1 0 ++ leBytes 2 1 ++ leBytes 2 b ++ List.replicate 58 0 ++ leBytes 4 7 ++ leBytes 2 0 ++ leBytes 2 1
    ++ leBytes 8 128 ++ leBytes 8 0 ++ leBytes 4 0 ++ leBytes 4 2
  patch bs 0x3C (leBytes 4 (crc32c bs))
def vecBytes : List Byte := List.replicate 256 0 ++ leBytes 4 (crc32c (List.replicate 256 0))
/-- Base 5 with its table and its column-sum window; the commit as Brine's job. -/
def based : State := atLa (atLa { brined true { cur := some (.baseCommit 5 2 0) } with
    syl.module := some { grants := [grant], wins := [baseWin5, { type := .colsum, mem := .tier2, key := .base, owner := 5, base := 2 ^ 18, size := 2 ^ 10 }] } }
  (0x2000000000 + 2 ^ 16) (vecTable 5)) (0x2000000000 + 2 ^ 16 + 128) vecBytes

set_option maxRecDepth 100000 in
theorem witness_BaseLoads : (match (loadBase based 5).2 with | .ok bs => bs == vecTable 5 | .error _ => false) = true
    ∧ (match (loadBase (brined true {}) 5).2 with | .ok _ => false | .error x => x.1 == none) = true := by decide +kernel
theorem test_base_missing : (nx .brineJobEnd (brined true { cur := some (.baseCommit 5 2 0) })).brn.status = 6
    ∧ (nx .brineJobEnd (brined true { cur := some (.baseCommit 5 2 0) })).brn.rind = [] := by decide +kernel

/-- The state without an operator's or installer's session of `who`; SyllabusLoadsAndReloads: an image that fails (it is empty), one by
the maker; a partial reload of an IDLE Timetable, one whose Lesson has begun, one to come in time and one too late. -/
def reloading (f : Tt → Tt) : State := { timed f with
  ptn := [(3, { getPtn (timed f) 3 with reload := some { applyAt := 9, serial := 4 } })] }
theorem witness_SyllabusLoadsAndReloads : open_.syl.busy = false ∧ maySyl open_ makr = false ∧ maySyl open_ oper = true
    ∧ journalRoom open_ = true
    ∧ (match checkImage { open_ with syl.len := 0 } (roleOf open_ oper) (loadBuffer open_ 0) 0 with | .error _ => true | .ok _ => false) = true
    ∧ (getPtn (reloading id) 3).reload = some { applyAt := 9, serial := 4 } ∧ (getPtn (reloading id) 3).tt.state = .idle
    ∧ (let t : Tt := { state := .running, inLesson := true, lesson := 9 }; t.inLesson = true ∧ t.lesson % 2 ^ 32 = 9 ∧ t.next = 0)
    ∧ (let t : Tt := { state := .running, inLesson := true, lesson := 8, bound := 95 }
       t.lesson % 2 ^ 32 ≠ 9 ∧ lessonStart t tt0 9 = some 145)
    ∧ (let t : Tt := { state := .running, inLesson := true, lesson := 8, bound := 51 }; lessonStart t tt0 9 = some 101)
    ∧ (reloading id).bell.count = 100 := by decide +kernel
theorem test_load_refused : (nx (.syllabusLoad oper 0) open_).syl.done = true ∧ (nx (.syllabusLoad oper 0) open_).syl.reason ≠ 0
    ∧ (nx (.syllabusLoad oper 0) open_).led.seq = 1 ∧ nx (.syllabusLoad makr 0) open_ = open_ := by decide +kernel
theorem test_reload_cancel : let soon := fun t : Tt => { t with state := .running, inLesson := true, lesson := 8, bound := 51 }
    let later := fun t : Tt => { soon t with bound := 95 }
    (nx (.syllabusCancel oper 3) (reloading soon)).syl.reason = 18 ∧ (getPtn (nx (.syllabusCancel oper 3) (reloading later)) 3).reload = none
    ∧ (nx (.syllabusCancel oper 3) (reloading (fun t => { t with state := .held, lesson := 8 }))).syl.reason = 0
    ∧ (nx (.syllabusCancel oper 3) (reloading (fun t => { t with state := .held, lesson := 9 }))).syl.reason = 18
    ∧ nx (.partialReloadApply 3) (reloading later) = reloading later := by decide +kernel
theorem test_reload_applies : ((getPtn (nx (.partialReloadApply 3) (reloading id)) 3).syl.map PtnSyl.serial) = some 4
    ∧ (getPtn (nx (.partialReloadApply 3) (reloading id)) 3).reload = none := by decide +kernel
/-- R388: the command that runs at core 0 keeps the old routes and recipe; core 1 has none. -/
theorem test_reload_keeps : let s := nx (.partialReloadApply 3) { reloading id with core := [(0, { acdRun := some {} })] }
    (getCore s 0).under = some (syl.routes, syl.recipe) ∧ (getCore s 1).under = none ∧ coresOf (reloading id) 3 ≠ [] := by decide +kernel

/-- A base descriptor (R392): one layer, one head of 128, RANK 4, a vocabulary of 1,000, base 5. -/
def ohDesc : List Byte := withCrcTail (leBytes 1 1 ++ leBytes 1 0 ++ leBytes 2 1 ++ leBytes 1 1 ++ leBytes 1 1 ++ leBytes 2 1 ++ leBytes 4 1000
  ++ leBytes 1 1 ++ leBytes 1 0 ++ leBytes 2 0 ++ leBytes 8 0 ++ leBytes 2 5 ++ List.replicate 38 0) 0x3C
def house (o : OhBlk) : State := { open_ with syl := { mode := 1 }, oh := o }
/-- Open house EMPTY with the descriptor, the table and the vector of base 5 in place. -/
def housed : State := atLa (atLa (atLa (house {}) (addrOf (.hbm, 389 * giB)) ohDesc) (addrOf (.hbm, 0)) (vecTable 5)) (addrOf (.hbm, 128)) vecBytes
set_option maxRecDepth 100000 in
/-- OpenHouseCommands: outside open house; EMPTY with and without a descriptor; BASED with a token below and at the vocabulary; TRAINED. -/
theorem witness_OpenHouseCommands : isOperator open_ oper = true ∧ openHouse open_ = false ∧ openHouse (house {}) = true
    ∧ ohDescOk (ohRead (house {}) ohWork 0 64) = false ∧ ohDescOk (ohRead housed ohWork 0 64) = true
    ∧ (match (loadBase { housed with oh.desc := ohDesc } 5).2 with | .ok bs => bs == vecTable 5 | .error _ => false) = true
    ∧ (house { state := .based }).oh.fill + 1 ≤ 2 ^ 36
    ∧ leNat (ohRead (house { state := .based, desc := ohDesc }) ohToken 0 4) < ohVocab (house { state := .based, desc := ohDesc })
    ∧ ohVocab (house { state := .based }) ≤ leNat (ohRead (house { state := .based }) ohToken 0 4)
    ∧ 0 + 3 ≤ (house { state := .trained, fill := 3 }).oh.fill := by decide +kernel
set_option maxRecDepth 100000 in
theorem test_oh_base : (nx (.ohBase oper 1024) housed).oh.state = .based ∧ (nx (.ohBase oper 1024) housed).brn.rind = [5]
    ∧ (nx (.ohBase oper 1024) (house {})).oh.status = 6 ∧ (nx (.ohBase oper (2 ^ 39)) (house {})).oh.status = 3 := by decide +kernel
/-- A training run of `steps` steps, one of them complete, whose Lesson ends at the next Bell. -/
def training (steps : Nat) (clearing : Bool) : State :=
  house { state := .training, busy := true, job := { steps := steps, step := 1, bound := 51, tt := some tt0, clearing := clearing } }
/-- OpenHouseCommands: a training run at its Lesson boundary and before it, with and without a further step and an OH_CLEAR that waits. -/
theorem witness_OpenHouseTraining : (training 2 false).oh.state = .training ∧ counting (training 2 false) = true
    ∧ ((training 2 false).bell.count + 1) % 2 ^ 64 = 51 + tt0.lessonBells ∧ (training 2 true).oh.job.clearing = true
    ∧ (house { state := .trained, busy := true }).oh.busy = true := by decide +kernel
theorem test_oh_training : (nx .bell (training 2 false)).oh.state = .trained ∧ (nx .bell (training 2 false)).oh.outs = [2, 0, 0]
    ∧ (nx .bell (training 3 false)).oh.state = .training ∧ (nx .bell (training 3 false)).oh.job.bound = 101
    ∧ (nx (.ohEval oper 0 1) (training 2 false)).oh.status = 1
    ∧ (nx (.ohClear oper) (training 2 false)).oh.job.clearing = true := by decide +kernel
theorem test_oh_run : (nx (.ohTrain oper 2 128 0 9) (house { state := .based })).oh.state = .training
    ∧ (nx (.ohTrain oper 2 128 0 9) (house { state := .based })).oh.busy = true
    ∧ (nx (.ohEval oper 0 3) (house { state := .trained, fill := 3 })).oh.status = 0
    ∧ (nx (.ohEval oper 0 4) (house { state := .trained, fill := 3 })).oh.status = 8
    ∧ (nx (.ohResult oper) (house { state := .based })).oh.status = 2 := by decide +kernel
theorem test_oh_data : (nx (.ohData oper 2) (house { state := .based, desc := ohDesc })).oh.fill = 2
    ∧ (nx (.ohData oper 2) (house { state := .based })).oh.status = 4 := by decide +kernel
theorem test_oh_clear : (nx (.ohClear oper) open_).oh.status = 9 ∧ (nx (.ohData oper 2) open_).oh.status = 9 := by decide +kernel

/-! ### The Vat -/

/-- Partition 3 with a staging window, a module with a Vat window, and the Vat READY. -/
def vatWin0 : Win := { type := .vat, mem := .tier2, key := .module, base := 0, size := 256 * giB }
def stgWin : Win := { type := .staging, mem := .hbm, key := .partition, base := 2 ^ 20, size := 2 ^ 20 }
def vatBase : State := { timed id with
  ptn := [(3, { getPtn (timed id) 3 with syl := some { syl with tt := tt0, wins := [win, stgWin] } })]
  syl.module := some { grants := [grant], wins := [vatWin0] }, vat := { base := 0x2000000000, ready := true, size := 256 } }
/-- The first byte of the slot data area, and a place in the staging window. -/
def dataLa : Nat := 0x2005400000
def stageLa : Nat := 0x1000180000
/-- Slot 5 as a slot of context 2 with adapter 77 in state `st`; the state that holds it, with its image's header and one entry (layer 1,
expert 6, role 3), and its fetch. -/
def vslot (st : Nat) : VSlot := { state := st, gen := 9, owner := mkTag 2, adapter := 77, kind := 2, data := dataLa, len := 65536 }
def vatted (st : Nat) : State := atLa (putSlot vatBase 5 (vslot st)) dataLa (leBytes 1 1 ++ leBytes 1 2 ++ leBytes 2 1 ++ leBytes 3 77
  ++ leBytes 1 0 ++ leBytes 4 0 ++ leBytes 4 128 ++ List.replicate 48 0 ++ leBytes 1 1 ++ leBytes 1 6 ++ leBytes 1 3)
def fetching : VFetch := { slot := 5, gen := 9, seq := 1, ctx := 2, adapter := 77, port := 3, start := some 50, data := List.replicate 80 1 }
/-- The runtime of partition 3, which uses port 3. -/
def rt : Req := .thread 0 1

/-- VatOperations: the port, a free slot and one in each state, an entry that is free and one that names the slot, a free staging entry; an
ID that is live, a range outside the data area, a context that is not attached, another owner, an expert that is held, a bad record. -/
theorem witness_VatOperations : mayPort vatBase rt 3 = true ∧ mayPort vatBase oper 64 = true ∧ (getPort vatBase 3).busy = false
    ∧ vatBase.vat.ready = true ∧ slotAt? vatBase 5 = some {} ∧ attachedTo vatBase 3 2 = true ∧ attachedTo vatBase 3 3 = false
    ∧ idEntry vatBase 77 = .ok none ∧ inData vatBase dataLa 65536 = true ∧ inData vatBase 0x2000000000 65536 = false
    ∧ (match idEntry (putId vatBase 77 (some 4)) 77 with | .ok k => k == some 4 | .error _ => false) = true
    ∧ (∀ st ∈ [1, 2, 3, 4, 5], slotAt? (vatted st) 5 = some (vslot st)) := by decide +kernel
theorem witness_VatOperations_tables : vatPtn vatBase 3 2 = some 3 ∧ expEntry vatBase 3 1 8 = .ok none
    ∧ slotHasExpert (vatted 3) (vslot 3) 1 6 = true
    ∧ expEntry (putExp (vatted 3) 3 1 8 (some (6, 5))) 3 1 8 = .ok (some (6, 5))
    ∧ 0 < adaptMax (vatted 3) 3 ∧ inStaging (vatted 3) 3 stageLa (slotImg (vatted 3) (vslot 3)).len = true
    ∧ (parseStg (readStg (vatted 3) 3 0)).state = 0 ∧ expertsOf (vatted 3) 5 = []
    ∧ expertsOf (putExp (vatted 3) 3 1 8 (some (6, 5))) 5 = [(3, 1, 8)]
    ∧ slotAt? (atLa vatBase (vatSlot vatBase 5) [7]) 5 = none := by decide +kernel
theorem test_claim : (getPort (nx (.claimSlot rt 3 5 2 77 dataLa 1) vatBase) 3).status = 0
    ∧ idEntry (nx (.claimSlot rt 3 5 2 77 dataLa 1) vatBase) 77 = .ok (some 5)
    ∧ ((slotAt? (nx (.claimSlot rt 3 5 2 77 dataLa 1) vatBase) 5).map VSlot.len) = some 65536
    ∧ (getPort (nx (.claimSlot rt 3 5 2 77 dataLa 1) (vatted 3)) 3).status = 1 := by decide +kernel
theorem test_fetch : (nx (.fetch rt 3 5 2 8) (vatted 1)).vat.fetches.length = 1
    ∧ ((slotAt? (nx (.fetch rt 3 5 2 8) (vatted 1)) 5).map VSlot.state) = some 2
    ∧ (nx (.cancel rt 3 5 2 8) { vatted 2 with vat.fetches := [fetching] }).vat.jobs = [{ kind := .cancel, slot := 5, port := 3, sem := 8, bytes := 80 }]
    ∧ (getPort (nx (.fetch rt 3 5 2 8) (vatted 3)) 3).status = 3 := by decide +kernel
theorem test_experts : expEntry (nx (.claimExpert rt 3 5 2 8 1 6) (vatted 3)) 3 1 8 = .ok (some (6, 5))
    ∧ expEntry (nx (.releaseExpert rt 3 5 2 8 1 6) (putExp (vatted 3) 3 1 8 (some (6, 5)))) 3 1 8 = .ok none
    ∧ (getPort (nx (.evict rt 3 5 2 0xFFFF) (putExp (vatted 3) 3 1 8 (some (6, 5)))) 3).status = 6 := by decide +kernel
theorem test_stage : (nx (.stage rt 3 5 2 0 stageLa 8) (vatted 3)).vat.jobs
      = [{ kind := .stage, slot := 5, port := 3, sem := 8, ptn := 3, addr := stageLa }]
    ∧ (parseStg (readStg (nx (.stage rt 3 5 2 0 stageLa 8) (vatted 3)) 3 0)).state = 1
    ∧ (nx (.unstage rt 3 5 2 8) (vatted 4)).vat.jobs = [{ kind := .unstage, slot := 5, port := 3, sem := 8 }]
    ∧ ((slotAt? (nx (.evict rt 3 5 2 8) (vatted 3)) 5).map VSlot.state) = some 5 := by decide +kernel

/-- A staging entry of slot 5 that is PENDING. -/
def stgEnt : StgEnt := { state := 1, owner := mkTag 2, slot := 5, gen := 9, kind := 2, image := stageLa, len := 64, adapter := 77 }
/-- VatJobsEnd: a copy each way with the entry it was started for, and one whose slot or entry has gone on; a scrub of each kind, alone
and with a CANCEL that waits for it; a record that fails its check; a fetch before and after its deadline. -/
def job (k : VJobKind) : VJob := { kind := k, slot := 5, port := 3, sem := 8, bytes := 80, ptn := 3, addr := stageLa }
def jobbed (st : Nat) (k : VJobKind) : State := { writeStg (vatted st) 3 0 stgEnt with vat.jobs := [job k] }
def staged : State :=
  { putSlot (jobbed 4 .unstage) 5 { vslot 4 with stage := stageLa, stgPtn := 3 } with vat.jobs := [job .unstage] }
def cancelled : State := { jobbed 2 .failed with vat.jobs := [job .failed, { job .cancel with waiting := true }] }
def dueBy (t : Nat) : State := { vatted 2 with vat.fetches := [fetching], vat.timeout := t }
theorem witness_VatJobsEnd : (∀ k ∈ [VJobKind.stage, .unstage], (jobOf (jobbed 3 k) 5 (fun k => k == .stage || k == .unstage)).map VJob.kind = some k)
    ∧ (∀ k ∈ [VJobKind.evict, .cancel, .failed],
        (jobOf (jobbed 3 k) 5 (fun k => k == .evict || k == .cancel || k == .failed || k == .repair)).map VJob.kind = some k)
    ∧ (parseStg (readStg (jobbed 3 .stage) 3 0)).gen = (vslot 3).gen ∧ (vslot 4).stgPtn ≠ 3
    ∧ (slotAt? staged 5).map (fun v => (v.state, v.stg, v.stgPtn)) = some (slStaged, 0, 3)
    ∧ jobOf cancelled 5 (fun k => k == .evict || k == .cancel || k == .failed || k == .repair) = some (job .failed)
    ∧ slotAt? (atLa (jobbed 3 .stage) (vatSlot vatBase 5) [7]) 5 = none
    ∧ judgeNow (dueBy 40) (fetchDeadline (dueBy 40) fetching) = .timeout
    ∧ judgeNow (dueBy 4000) (fetchDeadline (dueBy 4000) fetching) ≠ .timeout := by decide +kernel
theorem test_vat_copies : ((slotAt? (nx (.vatCopyDone 5) (jobbed 3 .stage)) 5).map VSlot.state) = some 4
    ∧ (parseStg (readStg (nx (.vatCopyDone 5) (jobbed 3 .stage)) 3 0)).state = 2
    ∧ ((slotAt? (nx (.vatCopyDone 5) (jobbed 1 .stage)) 5).map VSlot.state) = some 1
    ∧ ((slotAt? (nx (.vatCopyDone 5) staged) 5).map VSlot.state) = some 3
    ∧ (nx (.vatScrubDone 5) cancelled).vat.jobs = []
    ∧ (nx (.vatCopyDone 5) (jobbed 3 .stage)).vat.jobs = []
    ∧ (nx (.fetchDeadline 5) (dueBy 40)).vat.jobs = [{ kind := .failed, slot := 5, port := 3, bytes := 64 }]
    ∧ nx (.fetchDeadline 5) (dueBy 4000) = dueBy 4000 := by decide +kernel

/-- VatRecordsReadBack: a slot's place outside every Rind window, memory without errors. -/
theorem witness_VatRecordsReadBack : placeOf none (vatSlot vatBase 5) = some (.tier2, 0x04000140)
    ∧ meetsRind vatBase (.tier2, 0x04000140) 64 = false ∧ vatBase.memErr = [] ∧ Memory.wf vatBase.mem = true
    ∧ (vslot 3).state ≤ 5 ∧ (vslot 3).owner < 65536 ∧ (vslot 3).data < 2 ^ 64 := by decide +kernel

/-! ### Commands of the arrays and the Press that complete -/

/-- Offset `o` of HBM as a global address. -/
def hbmGa (o : Nat) : Nat := here (addrOf (.hbm, o))
/-- A staged image of context 2 at 0x1000 of the staging window: one LR_UP entry 1 × 32 with one panel of zeros at 128. -/
def ent1 : List Byte := withCrcTail (slice (leBytes 1 1 ++ leBytes 1 0 ++ leBytes 1 2 ++ leBytes 1 0 ++ leBytes 2 0 ++ leBytes 2 31 ++ leBytes 2 0x3E00
  ++ leBytes 1 1 ++ leBytes 1 32 ++ leBytes 4 128 ++ leBytes 4 128 ++ leBytes 4 1) 0 32) 28
def panelHdr (ver rows : Nat) : List Byte := slice (leBytes 1 ver ++ leBytes 1 2 ++ leBytes 1 1 ++ leBytes 1 32 ++ leBytes 2 0x8002 ++ leBytes 1 1
  ++ leBytes 1 0 ++ leBytes 4 77 ++ leBytes 4 0 ++ leBytes 4 rows) 0 64
def img1 : List Byte := slice (leBytes 1 1 ++ leBytes 1 1 ++ leBytes 2 1 ++ leBytes 4 77) 0 64 ++ ent1 ++ List.replicate 32 0
  ++ withItemCrc (panelHdr 1 0 ++ List.replicate 64 0)
/-- The gradient panel of leaf slot 0: element 0 is 1, the others 0; 7 rows. -/
def grad1 : List Byte := withItemCrc (panelHdr 1 7 ++ leBytes 4 0x3F000000 ++ List.replicate 124 0)
/-- The state block: the optimiser of one moment, one panel, T, its hyperparameters (η = 1, no decay, no clip) and one segment. -/
def psbHdr (t : Nat) : List Byte := withCrcTail (slice (leBytes 1 1 ++ leBytes 1 1 ++ leBytes 2 0x8002 ++ leBytes 4 77 ++ leBytes 4 1 ++ leBytes 4 1
  ++ leBytes 8 t ++ leBytes 4 0x3F000000 ++ leBytes 4 0x3F000000 ++ leBytes 8 (hbmGa 0x2000) ++ leBytes 8 (hbmGa 0x3000) ++ leBytes 8 0
  ++ leBytes 4 (hbmGa 0x4000 % 2 ^ 32)) 0 64) 60
def segs1 : List Byte := slice (leBytes 4 0 ++ leBytes 3 1 ++ leBytes 1 1 ++ leBytes 4 0x3F000000 ++ leBytes 4 0x3F000000) 0 256
def hyp64 : List Byte := withCrcTail (slice (leBytes 4 0x3F000000 ++ leBytes 4 0 ++ leBytes 4 0 ++ leBytes 4 0x3F000000 ++ leBytes 4 0 ++ leBytes 4 0
  ++ leBytes 4 0 ++ leBytes 4 0x3F000000 ++ leBytes 4 0x45000000 ++ leBytes 4 0 ++ leBytes 4 0x42000000 ++ leBytes 4 (crc32c segs1)) 0 64) 60
def zeroCrc : Nat := crc32c (List.replicate 128 0)
def pword1 (phase step : Nat) : List Byte := leBytes 4 zeroCrc ++ leBytes 4 zeroCrc ++ leBytes 4 0 ++ leBytes 1 phase ++ leBytes 2 0 ++ leBytes 1 step
/-- Partition 3 in a TUTORIAL slot of context 2, with the staged image, the state block in a phase, and a ring of 512 bytes. -/
def pressed (t phase step : Nat) (e : QEntry) : State :=
  let s : State := { timed (slotOpen 120 false) with
    ptn := [(3, { state := .active, activeMax := 2, syl := some { syl with wins := [win, stgWin], tt := tt0 }, tt := slotOpen 120 false {} })]
    prs := [(0, { q := [e] })] }
  let s := atLa s (addrOf (.hbm, 0x1000)) (psbHdr t ++ hyp64 ++ segs1)
  let s := atLa s (addrOf (.hbm, 0x4000)) (pword1 phase step)
  let s := atLa s (addrOf (.hbm, 0x6000)) (slice (leBytes 8 (hbmGa 0x7000) ++ leBytes 4 512) 0 64)
  let s := atLa s (addrOf (.hbm, 2 ^ 20)) (stgBytes { state := 2, owner := 0x8002, kind := 1, image := addrOf (.hbm, 2 ^ 20 + 0x1000), len := 256, adapter := 77 })
  atLa (atLa s (addrOf (.hbm, 2 ^ 20 + 0x1000)) img1) (addrOf (.hbm, 2 ^ 20 + 0x1200)) grad1
/-- A PCD of context 2 on panel 0, with M = NLEAF = 1. -/
def pcd1 (op sel : Nat) : QEntry := entry (desc64 op 0 (leBytes 4 0x83 ++ leBytes 8 (hbmGa 0x1000) ++ leBytes 8 (hbmGa (2 ^ 20)) ++ leBytes 4 0
  ++ leBytes 4 1 ++ leBytes 2 1 ++ leBytes 2 1 ++ leBytes 2 0 ++ leBytes 2 8 ++ leBytes 8 (hbmGa 0x5000)
  ++ leBytes 8 (if op = 7 then hbmGa 0x6000 else 0) ++ leBytes 4 (sel * 2 ^ 12)))
def pressRun (t phase step op sel : Nat) : State × PEnd := runPcd (pressed t phase step (pcd1 op sel)) 0 none (pcd1 op sel)

set_option maxRecDepth 100000 in
/-- PressCommands: INIT, REDUCE, NORM and REDUCE_NORM complete; R231: S_rank of the panel is 1. -/
theorem witness_press_reduces : (pressRun 0 0 0 1 0).2 = .done ∧ (pressRun 0 0 0 2 0).2 = .done ∧ (pressRun 0 1 0 3 0).2 = .done
    ∧ (pressRun 0 0 0 4 0).2 = .done
    ∧ field (readKey (pressRun 0 0 0 4 0).1 [] (addrOf (.hbm, 0x5000)) 16) 4 4 = 0x3F000000 := by decide +kernel
set_option maxRecDepth 100000 in
/-- APPLY, CLOSE and EXPORT complete; R234, R236: w = 0 − 1 · 1, the panel's step is 1 and its working copy −1; R238: T is 1. -/
theorem witness_press_applies : (pressRun 0 2 0 5 0).2 = .done ∧ (pressRun 0 0 1 6 0).2 = .done ∧ (pressRun 0 0 0 7 2).2 = .done
    ∧ field (readKey (pressRun 0 2 0 5 0).1 [] (addrOf (.hbm, 0x2000)) 8) 0 8 = 0xBF000000
    ∧ field (readKey (pressRun 0 2 0 5 0).1 [] (addrOf (.hbm, 0x4000)) 16) 12 4 = 0x01000000
    ∧ field (readKey (pressRun 0 2 0 5 0).1 [] (addrOf (.hbm, 2 ^ 20 + 0x1080)) 66) 64 2 = 0xBE00
    ∧ field (readKey (pressRun 0 0 1 6 0).1 [] (addrOf (.hbm, 0x1000)) 64) 0x10 8 = 1
    ∧ (getPrs (pressRun 0 0 1 6 0).1 0).nsRows = 7 := by decide +kernel

/-- The first 64 bytes of a tile, TILE_CRC given. -/
def tileHead (fmt kind rows cols crc : Nat) : List Byte := leBytes 1 1 ++ leBytes 1 fmt ++ leBytes 1 kind ++ leBytes 1 0 ++ leBytes 2 rows ++ leBytes 2 cols
  ++ List.replicate 52 0 ++ leBytes 4 crc
/-- A base tile with the codes 1 and 2 in its first row, at HBM offset 0x10000. -/
def tiled : State := atLa base (addrOf (.hbm, 0x10000)) (tileHead 0 0 1 2 0x13252873 ++ List.replicate 256 0 ++ [0x21])
/-- COLSUM_BUILD of it into 0x20000 and 0x20100. -/
def colsum1 : QEntry := entry (desc64 6 0 (leBytes 4 0x103 ++ leBytes 8 (hbmGa 0x10000) ++ leBytes 8 0 ++ leBytes 8 (hbmGa 0x20100) ++ leBytes 8 0
  ++ leBytes 8 (hbmGa 0x20000) ++ leBytes 8 0 ++ [0xFF, 0xFF]))

set_option maxRecDepth 100000 in
/-- DArrayCommands: COLSUM_BUILD completes; R130: the sums of the codes 1 and 2, quarters 1 and 2. -/
theorem witness_colsum_completes : (match runAcd tiled {} colsum1 none with
    | (s, x) => (readKey s [] (addrOf (.hbm, 0x20000)) 6 == [1, 0, 2, 0, 0, 0]) && x == .done) = true := by decide +kernel
/-- ArrayWaits: COLSUM_BUILD, resumed at the end of each wait, completes; the one member of its route is the leader, whose read succeeds. -/
def resumed (w : CmdWait) : State := { tiled with
  core := [(0, { acdRun := some colsum1, acdWait := w })]
  ptn := [(3, { getPtn tiled 3 with syl := some { syl with routes := [{ num := 2, members := [0] }] } })] }
def waitEnds (w : CmdWait) : Bool :=
  routeMembers (resumed w) 0 3 2 == [0] && (getCore (resumed w) 0).acdWait == w && (runAcd (resumed w) {} colsum1 none).2 == .done
set_option maxRecDepth 100000 in
theorem witness_array_resumes_join : waitEnds .join = true := by decide +kernel
set_option maxRecDepth 100000 in
theorem witness_array_resumes_seal : waitEnds (.seal 0) = true := by decide +kernel
set_option maxRecDepth 100000 in
theorem witness_array_resumes_route : (match fetchTile (resumed (.route 2 1)) colsum1.issuer (parseAcd colsum1.desc).stat with
    | (t, .tile bs) => (getCore t 0).acdWait == .route 2 1
        && (runAcd (deliver t { route := 2, seq := 1, addr := (parseAcd colsum1.desc).stat, bytes := bs } 0) {} colsum1 none).2 == .done
    | _ => false) = true := by decide +kernel

/-! ### Instructions -/

/-- Address 0x1000 of the core's own SRAM. -/
def pc0 : DWord := BitVec.ofNat 64 (here 0x1000)
/-- InstructionsRun: thread 1 of core 0 with the words `ws` at its pc; a thread of another mode; a pc that is odd. -/
def coded (ws : List Nat) (f : Thr → Thr := id) : State :=
  let s : State := { base with core := [(0, { thr := [(1, f { thr with pc := pc0 })] })] }
  writeAs s (issuerOf s 0 1) (.coreSram, 0x1000) (ws.map (leBytes 2)).flatten
def fetched (s : State) : Nat :=
  match fetchInstr s 0 1 with
  | .error _ => 0
  | .ok (_, none, _) => 1
  | .ok (_, some w, len) => w + len
theorem witness_InstructionsRun : mayIssue (coded []) 0 1 = true ∧ fetched (coded [0x4501]) = 0x513 + 2 ∧ fetched (coded [0]) = 1 ∧ fetched (coded [] (fun h => { h with pc := pc0 + 1 })) = 0
    ∧ (getThr (coded []) 0 1).mmode = true ∧ (getThr (coded [] (fun h => { h with mmode := false })) 0 1).mmode = false
    ∧ opResult 0 0x20 5 3 = some 2 ∧ branchTaken 4 3 5 = some true ∧ branchTaken 2 3 5 = none
    ∧ rvF3 (0x57 + 1 * 2 ^ 12) = 1 ∧ (vtypeOf thr).all (fun x => decide (x.1 < 32)) = true := by decide +kernel
/-- The words of an assembler: `addi a0, a0, -1`; `c.li a0, 0`; `jal ra, 8`; `ecall`; `fence.i`. -/
theorem test_instructions :
    getX (getThr (runWord (coded [] (fun h => setX h 10 5)) 0 1 4 0xFFF50513) 0 1) 10 = 4
    ∧ (getThr (nx (.threadMemoryAccess 0 1 2 .run) (coded [0x4501])) 0 1).pc = pc0 + 2
    ∧ (getCore (nx (.threadMemoryAccess 0 1 2 .run) (coded [0x4501])) 0).icache.length = 1
    ∧ (getThr (runWord (coded []) 0 1 4 0x008000EF) 0 1).pc = pc0 + 8
    ∧ (getThr (runWord (coded []) 0 1 4 0x73) 0 1).mcause = 11
    ∧ (getCore (runWord (nx (.threadMemoryAccess 0 1 2 .run) (coded [0x4501])) 0 1 4 0x100F) 0).icache = [] := by decide +kernel
/-- `div` of the most negative number by -1, `c.addi16sp sp, -64`, `c.bnez a5, -16`, `fadd.d` of 1.5 and 2. -/
theorem test_instruction_words : (mulOp 4 0x8000000000000000 0xFFFFFFFFFFFFFFFF) = 0x8000000000000000
    ∧ expandC 0x7139 = some 0xFC010113 ∧ expandC 0xFBE5 = some 0xFE0798E3
    ∧ (fpExec { thr with f := [(11, 0x3FF8000000000000), (12, 0x4000000000000000)] } 0x02C5F553).map (fun h => tget 0 h.f 10)
      = some 0x400C000000000000 := by decide +kernel

/-! ### Transfers -/

/-- An XFER of OP `op` from HBM offset 0x1000 (and 0x1800) to 0x2000 or offset `dst`, of `len` bytes; `more` is added to word 1 (the LMN). -/
def xdesc (op lmn pool dst src2 len pb : Nat) : List Byte :=
  let w (x : Nat) := leBytes 4 x
  withCrcTail (w op ++ w (3 + 2 * 64 + lmn * 2 ^ 18) ++ w (pool + 8 * 65536) ++ w (21 + 8 * 65536)
    ++ leBytes 8 (if op = 2 ∨ op ≠ 6 then here 0x1000001000 else 0) ++ leBytes 8 dst ++ leBytes 8 src2 ++ w len ++ w (pb * 65536)
    ++ List.replicate 16 0) 60
def gpanel (role : Nat) : List Byte := panelSeal (leBytes 1 1 ++ leBytes 1 role ++ leBytes 1 4 ++ leBytes 1 4 ++ List.replicate 60 0
  ++ (List.replicate 16 [0, 0, 0, 63]).flatten)
def xcopy : QEntry := entry (xdesc 3 0x3FF 0 (here 0x1000002000) 0 64 0)
def xcopyP : QEntry := entry (xdesc 3 0x3FF 0 (here 0x1000002000) 0 128 2)
def xnode : QEntry := entry (xdesc 4 0x3FF 0 (here 0x1000002000) (here 0x1000001800) 128 2)
def xdigest : QEntry := entry (xdesc 5 0x3FF 0 (here 0x1000002000) 0 64 0)
def xsend : QEntry := entry (xdesc 1 9 6 0x100 0 64 0)
def xfetch : QEntry := entry (xdesc 2 9 0 0x100 0 64 0)
def xretract : QEntry := entry (xdesc 6 0x3FF 6 0 0 0 0)
/-- The networked state whose core 0 has the XFER at the head of its queue, with two panels of role `r` and 1 at 0x1000 and 0x1800 in HBM,
`c` credits in pool 6. -/
def withXfer (e : QEntry) (r : Nat := 1) (c : Nat := 5) : State := atLa (atLa { net with
  core := [(0, { thr := [(1, thr)], xferQ := [e] })]
  rc.pool := [(6, { bound := true, ptn := 3, ctx := 2, peer := 9, link := 4, alloc := 40, credits := c })] }
    0x1000001000 (gpanel r)) 0x1000001800 (gpanel 1)

/-- LocalTransfers: a head of each OP, one torn, one of another epoch, one with a field that its OP does not use; a COPY of bytes and of a
panel that is whole or torn, a NODE of panels with equal and with different keys, a DIGEST. -/
theorem witness_LocalTransfers_heads : ∀ e ∈ [(xsend, 1), (xfetch, 2), (xcopy, 3), (xnode, 4), (xdigest, 5), (xretract, 6)],
    XferHead (withXfer e.1) 0 e.2 e.1 [] ∧ descCrcOk e.1.desc = true
    ∧ (parseXfer e.1.desc).epoch = (getCore (withXfer e.1) 0).epoch := by unfold XferHead; decide +kernel
theorem witness_LocalTransfers_refused : descCrcOk (torn xcopy).desc = false ∧ XferHead (withXfer (torn xcopy)) 0 3 (torn xcopy) []
    ∧ xferFieldsOk (parseXfer (xdesc 3 9 0 0 0 64 0)) = false
    ∧ xferOwnerOk (withXfer (entry (xdesc 1 9 7 0x100 0 64 0))) iss (parseXfer (xdesc 1 9 7 0x100 0 64 0)) = false := by
  unfold XferHead; decide +kernel
theorem witness_LocalTransfers : (∀ e ∈ [xcopy, xcopyP, xnode, xdigest], XferSound (xferTaken (withXfer e) 0 e []) e
      ∧ (xPlace (xferTaken (withXfer e) 0 e []) iss .read (parseXfer e.desc).src (parseXfer e.desc).len).isSome = true
      ∧ (xPlace (xferTaken (withXfer e) 0 e []) iss .write (parseXfer e.desc).dst 64).isSome = true)
    ∧ (xRead (xferTaken (withXfer xcopy) 0 xcopy []) iss (.win (.hbm, 0x1000)) 64).2.2 = false
    ∧ panelCrcOk (xRead (withXfer xcopyP) iss (.win (.hbm, 0x1000)) 128).2.1 = true
    ∧ panelCrcOk (xRead (atLa (withXfer xcopyP) 0x1000001040 [7]) iss (.win (.hbm, 0x1000)) 128).2.1 = false
    ∧ nodeKey (gpanel 1) = nodeKey (gpanel 1) ∧ nodeKey (gpanel 2) ≠ nodeKey (gpanel 1) := by
  unfold XferSound; decide +kernel
theorem test_copy : stored (nx (.xferCopy 0) (withXfer xcopyP)) 0x1000002000 4 = [1, 1, 4, 4]
    ∧ stored (nx (.xferCopy 0) (withXfer xcopyP)) 0x1000002004 2 = leBytes 2 (mkTag 2)
    ∧ (getCore (nx (.xferCopy 0) (withXfer (torn xcopy))) 0).xFault = 0x504 := by decide +kernel
/-- 1 + 1 = 2 in every value; the sum of sixteen squares of 2 is 64. -/
theorem test_node : stored (nx (.xferNode 0) (withXfer xnode)) 0x1000002040 4 = leBytes 4 0x40000000
    ∧ stored (nx (.xferNode 0) (withXfer xnode)) 0x1000002014 4 = leBytes 4 0x45000000
    ∧ (getCore (nx (.xferNode 0) (withXfer xnode 2)) 0).xStatus = 4 := by decide +kernel
theorem test_digest : (getCore (nx (.xferDigest 0) (withXfer xdigest)) 0).xferRun = none
    ∧ (getCore (nx (.xferDigest 0) (withXfer (torn xdigest))) 0).xStatus = 3 := by decide +kernel

/-- LocalTransfers, the owner's check: a shard that is whole, one whose copy is torn and one whose master is torn, with a holder's digest
that differs and with one that is equal. -/
def shardCheck : ReplicaCheck := { psb := hbmGa 0x1000, count := 1, digests := [(9, [7])] }
def shard (la : Nat) : State := atLa (pressed 0 0 0 (pcd1 1 0)) la [9]
def shardAction (la : Nat) : Nat :=
  let r := ownerRun (shard la) iss (parseXfer xdigest.desc) shardCheck
  ownerAction (shard la) r ((r.panels.drop 0).take 1)
set_option maxRecDepth 100000 in
theorem witness_ReplicaCheck : shardAction (addrOf (.hbm, 0xF000)) = 1 ∧ shardAction (addrOf (.hbm, 2 ^ 20 + 0x10C0)) = 2
    ∧ shardAction (addrOf (.hbm, 0x2000)) = 3 ∧ shardCheck.again = none
    ∧ (∃ d ∈ shardCheck.digests, d.2 ≠ [8]) ∧ (∀ d ∈ shardCheck.digests, d.2 = [7]) := by decide +kernel
set_option maxRecDepth 100000 in
/-- R472: the copy is made anew from the master. -/
theorem test_replica_check :
    stored (replicaCheck (shard (addrOf (.hbm, 2 ^ 20 + 0x10C0))) iss (parseXfer xdigest.desc) shardCheck [8]) (addrOf (.hbm, 2 ^ 20 + 0x10C0)) 2
      = [0, 0] := by decide +kernel

/-- R471: the shard's panel digested to HBM offset 0x8000, behind which module 9's digest has landed: the owner compares it, and a module
that holds no panel words takes it for the owner's. -/
def digested (own : Bool) : State := { shard (addrOf (.hbm, 0x8040)) with
  ctx := [(2, { getCtx (shard 0) 2 with psbs := if own then [{ addr := addrOf (.hbm, 0x1000) }] else [] })]
  xf.digests := [{ addr := addrOf (.hbm, 0x8040), ctx := 2, src := 9 }] }
def digestX : Xfer := { parseXfer xdigest.desc with src := hbmGa (2 ^ 20 + 0x1080), len := 128 }
set_option maxRecDepth 100000 in
theorem test_replica_of : (match replicaOf (digested true) iss digestX (.win (.hbm, 0x8000)) [8] with
    | r => r.count == 1 && r.first == 0 && r.psb == hbmGa 0x1000 && r.digests.map Prod.fst == [9] && r.again == none) = true
    ∧ (match replicaOf (digested false) iss digestX (.win (.hbm, 0x8000)) [8] with
    | r => r.digests.isEmpty && r.again == some 9) = true
    ∧ (digestSlots (digested true) digestX (.win (.hbm, 0x8000))).map Prod.fst = [1] := by decide +kernel

/-- RemoteTransfers: a SEND with credits and with too few, with and without a route; a FETCH; a RETRACT that finds no send, and one of a
send that waits. -/
def cut (e : QEntry) : State := { withXfer e with fab := { assigned := true, lmn := 12 } }
def waitingSend : Send := { core := some 1, ptn := 3, ctx := 2, lmn := 9, pool := 6, seq := 21, runahead := true, need := 3 }
theorem witness_RemoteTransfers : XferSound (xferTaken (withXfer xsend) 0 xsend []) xsend
    ∧ XferSound (xferTaken (withXfer xfetch) 0 xfetch []) xfetch ∧ XferSound (xferTaken (withXfer xretract) 0 xretract []) xretract
    ∧ xPlace (xferTaken (withXfer xsend) 0 xsend []) iss .read (parseXfer xsend.desc).src 64 = some (.win (.hbm, 0x1000))
    ∧ (parseXfer xsend.desc).exch = false ∧ (parseXfer xsend.desc).runahead = false ∧ isOwnLmn (withXfer xsend) 9 = false
    ∧ creditsOf 64 ≤ (getPool (withXfer xsend) 6).credits ∧ (getPool (withXfer xsend 1 0) 6).credits < creditsOf 64
    ∧ routePort (withXfer xsend) 9 = some 2 ∧ routePort (cut xsend) 9 = none
    ∧ (withXfer xretract).xf.sends ++ (withXfer xretract).xf.gone = []
    ∧ waitingSend.left = none ∧ waitingSend.need ≠ 0 ∧ waitingSend.core ≠ some 0
    ∧ { waitingSend with runahead := false, need := 0, wire := [] } ∉ [waitingSend] := by unfold XferSound; decide +kernel
theorem test_send : (getPool (nx (.xferSend 0) (withXfer xsend)) 6).credits = 4
    ∧ (nx (.xferSend 0) (withXfer xsend)).xf.sends.map Send.port = [some 2]
    ∧ (nx (.xferSend 0) (withXfer xsend 1 0)).xf.sends.map Send.need = [1]
    ∧ (getCore (nx (.xferSend 0) (cut xsend)) 0).xStatus = 1 := by decide +kernel
theorem test_fetch_retract : (getPool (nx (.xferFetch 0) (withXfer xfetch)) 6).credits = 5
    ∧ (nx (.xferFetch 0) (withXfer xfetch)).xf.sends.length = 1
    ∧ (getCore (nx (.xferRetract 0) (withXfer xretract)) 0).xStatus = 2
    ∧ (nx (.xferRetract 0) { withXfer xretract with xf.sends := [waitingSend] }).xf.sends = [] := by decide +kernel

/-- A landing buffer 4 of context 2 at HBM offset 0x4000, a send of 64 bytes for it, a run-ahead one, a bad one, a FETCH_REQ. -/
def landSt : State := { net with rc.buf := [(4, { bound := true, ptn := 3, ctx := 2, addr := 0x1000004000, size := 4096 })] }
def hdr (kind : Nat) (ra : Bool) : SendHdr := {
  kind := kind, ctx := 5, buffer := 4, offset := 64, len := 64, rsem := 8, seq := 21, form := 5, runahead := ra,
  addr := if kind = 2 then here 0x1000001000 else 0 }
def arrived (kind : Nat) (ra : Bool) : Recv := { src := 9, pool := 6, seq := 21, data := (hdr kind ra).bytes ++ List.replicate 64 7, stamp := 5, whole := true }
def arriving (r : Recv) : State := { landSt with xf.recv := [r] }
def heldTile (v : Nat) : Held := { src := 9, pool := 6, seq := 21, ptn := 3, ctx := 5, buf := 4, off := 64, addr := 0x1000004040, len := 64, sem := 8, verdict := v }
def holdingTile (v : Nat) : State := atLa { landSt with xf.held := [heldTile v] } 0x1000004040 (List.replicate 64 7)
def retractFrame : List Byte := syncFrame 5 9 12 15 (bodyBits 5 223 212 + bodyBits 6 211 199 + bodyBits 21 198 183)
def request (pool : Nat) : State := { withXfer xsend with xf.reqs := [{ src := 9, pool := pool, len := 64, sem := 8, addr := here 0x1000001000 }] }
def acked : Send := { core := some 0, ptn := 3, ctx := 2, lmn := 9, pool := 6, seq := 21 }
/-- SendsAndLandings: a send that waits and can go, one that is acknowledged; sends that land, are held, are requests, are bad, are partial;
a landed one whose space is released; a tile before and after its verdict with a RETRACT for it; a request that is refused and served. -/
theorem witness_SendsAndLandings : waitingSend.need ≤ (getPool { withXfer xsend with xf.sends := [waitingSend] } 6).credits
    ∧ sendOpen (withXfer xsend) acked = false
    ∧ sendHdrOk (arrived 1 false).data = true ∧ parseSend (arrived 1 false).data = hdr 1 false
    ∧ landOk landSt (arrived 1 false) (hdr 1 false) = true ∧ landOk landSt (arrived 1 true) (hdr 1 true) = true
    ∧ (parseSend (arrived 1 true).data).runahead = true ∧ (parseSend (arrived 2 false).data).kind = 2 ∧ sendHdrOk (arrived 2 false).data = true
    ∧ landOk base (arrived 1 false) (hdr 1 false) = false ∧ sendHdrOk (List.replicate 64 0) = false
    ∧ counting landSt = true ∧ 5 + 256 * 2048 ≤ now { landSt with bell := { state := .running, count := 5000, pllLocked := true } }
    ∧ (getBuf landSt 4).bound = true ∧ (getBuf landSt 4).closing = false ∧ isOwnLmn landSt 9 = false ∧ routePort landSt 9 = some 2
    ∧ 200000 ≤ now landSt ∧ now landSt < 300000 ∧ frType retractFrame = 5 ∧ isOwnLmn landSt (frDst retractFrame) = true
    ∧ fcrcOk retractFrame = true ∧ frameBits retractFrame 227 224 = 0 ∧ frameBits retractFrame 182 32 = 0
    ∧ (frSrc retractFrame, frameBits retractFrame 211 199, frameBits retractFrame 198 183) = (9, 6, 21)
    ∧ (getPool (request 7) 7).bound = false ∧ (getPool (request 6) 6).bound = true ∧ (getPool (request 6) 6).peer = 9
    ∧ servePlace (request 6) iss (here 0x1000001000) 64 = some (.win (.hbm, 0x1000)) := by decide +kernel
/-- A buffer in the SRAM of core 0, in service and frozen; a run-ahead tile that has arrived and is not landed. -/
def sramSt (f : Bool) : State := { landSt with
  core := [(0, { frozen := f })], rc.buf := [(4, { bound := true, ptn := 3, ctx := 2, addr := addrOf (.coreSram, 0x4000), size := 4096 })] }
def early : State := atLa (arriving { arrived 1 true with stamp := 204000 }) 0x1000004040 (List.replicate 64 7)
theorem witness_SendsAndLandings_more : landOk (sramSt true) (arrived 1 false) (hdr 1 false) = true
    ∧ landsOnTested (sramSt true) (hdr 1 false) = true ∧ landsOnTested (sramSt false) (hdr 1 false) = false
    ∧ landsOnTested landSt (hdr 1 true) = false ∧ now early ≤ 204000 + 2048 ∧ early.xf.held.length = 0
    ∧ (getBuf early 4).bound = true ∧ early.xf.recv.map Recv.dropBuf = [none] := by decide +kernel
theorem test_tested_and_early : stored (nx (.retractReceive 2 retractFrame) early) 0x1000004040 2 = [0, 0]
    ∧ (nx (.retractReceive 2 retractFrame) early).rc.discarded = 1
    ∧ (nx (.sendLanding 9 6 21) { sramSt true with xf.recv := [arrived 1 false] }).xf.recv.length = 1
    ∧ (nx (.sendLanding 9 6 21) { sramSt false with xf.recv := [arrived 1 false] }).xf.recv.length = 0 := by decide +kernel
theorem test_credits_and_end : (getPool (nx (.sendCreditsAvailable 6) { withXfer xsend with xf.sends := [waitingSend] }) 6).credits = 2
    ∧ (nx (.sendComplete 9 6 21) { withXfer xsend with core := [(0, { xferRun := some xsend })], xf.sends := [acked] }).xf.sends = []
    ∧ (getCore (nx (.sendComplete 9 6 21) { withXfer xsend with core := [(0, { xferRun := some xsend })], xf.sends := [acked] }) 0).xLastOp = 1 := by
  decide +kernel
theorem test_landing : stored (nx (.sendLanding 9 6 21) (arriving (arrived 1 false))) 0x1000004040 2 = [7, 7]
    ∧ (getSem (nx (.sendLanding 9 6 21) (arriving (arrived 1 false))) 8).value = 3
    ∧ (getSem (nx (.sendLanding 9 6 21) (arriving (arrived 1 true))) 8).value = 2
    ∧ (nx (.sendLanding 9 6 21) (arriving (arrived 1 true))).xf.held.map Held.verdict = [2053]
    ∧ (nx (.sendLanding 9 6 21) (arriving (arrived 2 false))).xf.reqs.length = 1 := by decide +kernel
theorem test_landing_bad : (nx (.sendLanding 9 6 21) (arriving { arrived 1 false with data := List.replicate 128 0 })).int.lastCode = FaultCode.landingBad.code
    ∧ (nx (.sendPartialTimeout 9 6 21) { arriving { arrived 1 false with whole := false } with
        bell := { state := .running, count := 5000, pllLocked := true } }).int.lastCode = FaultCode.sendPartial.code
    ∧ (nx (.landingSpaceRelease 9 6 21) { landSt with xf.landed := [{ src := 9, pool := 6, seq := 21, buf := 4, ctx := 5, credits := 1 }] }).rc.txq.map
        (fun x => (x.port, frType x.bytes)) = [(2, 4)] := by decide +kernel
theorem test_verdict : (getSem (nx (.runaheadVerdict 9 6 21) (holdingTile 200000)) 8).value = 3
    ∧ nx (.runaheadVerdict 9 6 21) (holdingTile 300000) = holdingTile 300000
    ∧ stored (nx (.retractReceive 2 retractFrame) (holdingTile 300000)) 0x1000004040 2 = [0, 0]
    ∧ (nx (.retractReceive 2 retractFrame) (holdingTile 300000)).rc.discarded = 1
    ∧ (nx (.retractReceive 2 retractFrame) landSt).rc.discarded = 0 := by decide +kernel
theorem test_serve : (nx .fetchReqServe (request 7)).int.lastCode = FaultCode.fetchRefused.code
    ∧ (getPool (nx .fetchReqServe (request 6)) 6).credits = 4
    ∧ (nx .fetchReqServe (request 6)).xf.sends.map (fun x => (x.lmn, x.pool, x.port)) = [(9, 6, some 2)] := by decide +kernel

/-! ### Fabric -/

/-- Port 1 in state `st`, changed by `f`; sessions of each role; a send of this module under way on port 1. -/
def onPort (st : PState) (f : Port → Port := id) : State := { open_ with
  fab := { assigned := true, lmn := 12, port := [(1, f { pstate := st, active := 16 })] }
  xf.sends := [{ core := some 0, lmn := 9, pool := 6, seq := 21, port := some 1 }] }

/-- PortStates: port 1 in each state, masks of 17, 16, 8 and 7 lanes with the sync lane, a spare that is free and one in use. -/
theorem witness_PortStates : (∀ st ∈ [PState.off, .dark, .training, .up, .degraded, .down, .draining], (fabPort (onPort st) 1).pstate = st)
    ∧ bitOf 0x3FFFF 17 = true ∧ ((countFrom 0 17).filter (bitOf 0x3FFFF)).length = 17
    ∧ bitOf 0x200FF 17 = true ∧ ((countFrom 0 17).filter (bitOf 0x200FF)).length = 8
    ∧ bitOf 0x2007F 17 = true ∧ ((countFrom 0 17).filter (bitOf 0x2007F)).length = 7
    ∧ portUsable (onPort .up) 1 = true ∧ portUsable (onPort .degraded) 1 = true ∧ bitOf 0 3 = false
    ∧ spareFree (fabPort (onPort .up) 1) = true ∧ spareFree (fabPort (onPort .up (fun q => { q with spareFor := 5 })) 1) = false
    ∧ partsUp (onPort .off) = true ∧ isInstaller (onPort .off) inst = true ∧ (fabPort (onPort .off) 1).enablePending = false := by decide +kernel
theorem test_training : (fabPort (nx (.portLight 1) (onPort .dark)) 1).pstate = .training
    ∧ (fabPort (nx (.portTrainingDone 1 0x3FFFF 9 2) (onPort .training)) 1).pstate = .up
    ∧ (fabPort (nx (.portTrainingDone 1 0x200FF 9 2) (onPort .training)) 1).pstate = .degraded
    ∧ (fabPort (nx (.portTrainingDone 1 0x2007F 9 2) (onPort .training)) 1).pstate = .down
    ∧ (fabPort (nx (.portRetry 1) (onPort .down)) 1).pstate = .training := by decide +kernel
theorem test_port_falls : (fabPort (nx (.portSyncLoss 1) (onPort .up)) 1).pstate = .down
    ∧ (nx (.portSyncLoss 1) (onPort .up)).xf.sends.map Send.failed = [true]
    ∧ (nx (.portSyncLoss 1) (onPort .up)).int.lastCode = FaultCode.portDown.code
    ∧ (fabPort (nx (.laneFailure 1 [3]) (onPort .up)) 1).spareFor = 3
    ∧ (fabPort (nx (.laneFailure 1 [3]) (onPort .up (fun q => { q with spareFor := 5 }))) 1).pstate = .training
    ∧ (fabPort (nx (.syncLaneFailure 1 false) (onPort .up)) 1).spareFor = 17 := by decide +kernel
theorem test_port_commands : (fabPort (nx (.fabPtEnable inst 1) (onPort .off)) 1).pstate = .dark
    ∧ (fabPort (nx (.fabPtEnable inst 1) (onPort .draining)) 1).enablePending = true
    ∧ (fabPort (nx (.fabPtDisable inst 1) (onPort .up)) 1).pstate = .draining
    ∧ (fabPort (nx (.fabPtRetrain inst 1) (onPort .degraded)) 1).pstate = .training
    ∧ (fabPort (nx (.portDrainEnd 1) (onPort .draining)) 1).pstate = .off := by decide +kernel

/-- FabricFrames: an IDLE frame, a data frame for this module in its turn and out of it, one for another module with its TTL used up, a LINK
frame. -/
def idleFrame : DataFrame := { dtype := 0, src := 9, dst := 0x3FF, ackLseq := 5, credVc := 0, hopCredit := 7 }
def dataFrame (lseq dst ttl : Nat) : DataFrame := {
  dtype := 1, src := 9, dst := dst, ttl := ttl, lseq := lseq, pool := 6, sendSeq := 21, validLen := 8, last := true, payload := List.replicate 8 7 }
def linkFrame : DataFrame := { dtype := 2, src := 9, dst := 0x3FF, lseq := 0 }
theorem witness_FabricFrames : portHears (onPort .up) 1 = true ∧ frameOk (dataFrame 0 12 15) = true ∧ (dataFrame 0 12 15).lseq = (fabPort (onPort .up) 1).nextRx
    ∧ (dataFrame 0 12 15).frameNo = 0 ∧ isOwnLmn (onPort .up) 12 = true ∧ isOwnLmn (onPort .up) 9 = false
    ∧ frameOk { dataFrame 0 12 15 with rsvd := 1 } = false ∧ { dataFrame 0 12 15 with rsvd := 1 }.lseq = (fabPort (onPort .up) 1).nextRx
    ∧ headerBuf ((dataFrame 0 12 15).payload.take 8) = none ∧ (dataFrame 3 12 15).lseq ≠ (fabPort (onPort .up) 1).nextRx
    ∧ frameOk idleFrame = true ∧ idleFrame.nak = false ∧ (fabPort (onPort .up) 1).txq = [] ∧ (dataFrame 0 9 0).ttl = 0
    ∧ frameOk linkFrame = true ∧ linkFrame.nak = false ∧ (fabPort (onPort .up) 1).spareFor = 0x1F := by decide +kernel
theorem test_data_frames : (nx (.dataFrameReceive 1 (some (dataFrame 0 12 15)) 0) (onPort .up)).xf.recv.map (fun r => (r.src, r.seq, r.whole, r.data.length)) =
      [(9, 21, true, 8)]
    ∧ (fabPort (nx (.dataFrameReceive 1 (some (dataFrame 3 12 15)) 0) (onPort .up)) 1).nextRx = 0
    ∧ (fabPort (nx (.dataFrameReceive 1 (some (dataFrame 0 9 0)) 0) (onPort .up)) 1).drop = 1
    ∧ (fabPort (nx (.dataFrameReceive 1 (some { dataFrame 0 12 15 with rsvd := 1 }) 0) (onPort .up)) 1).drop = 1
    ∧ (fabPort (nx (.dataFrameReceive 1 none 0) (onPort .up)) 1).discarding = true := by decide +kernel
theorem test_reverse : (fabPort (nx (.dataFrameReceive 1 (some idleFrame) 2) (onPort .up (fun q => { q with credit0 := 1000, sent := [dataFrame 5 9 1, dataFrame 6 9 1] }))) 1).credit0 = 1007
    ∧ (fabPort (nx (.dataFrameReceive 1 (some idleFrame) 2) (onPort .up (fun q => { q with sent := [dataFrame 5 9 1, dataFrame 6 9 1] }))) 1).sent.map DataFrame.lseq = [6]
    ∧ (fabPort (nx (.linkFrameReceive 1 linkFrame 4) (onPort .up)) 1).spareFor = 4 := by decide +kernel

/-- TakeoverAndMap: a module that may take over (a spare that covers module 9) and one that may not, a takeover that is pending with the
cover record and without it, a SEL that is pending. -/
def spareOf (cover : Tbl Cover) (pend : Option (Nat × Nat)) : State := { open_ with
  bell := { state := .running, count := 100, pllLocked := true, cfg := { domainEn := true, role := 3 } }
  fab := { assigned := true, lmn := 12, cover := cover, takePend := pend, takeBusy := pend.isSome,
           map := [(9, { va := true, pa := 2, selPend := some (true, 99) })] } }
def cover9 : Tbl Cover := [(0, { valid := true, buddy := 7, lmn := 9 })]
theorem witness_TakeoverAndMap : takeoverStatus (spareOf cover9 none) (9 % 1024) = 0 ∧ takeoverStatus open_ 9 ≠ 0 ∧ open_.fab.takeBusy = false
    ∧ journalRoom (spareOf cover9 none) = true ∧ coverOf (spareOf cover9 (some (9, 99))) 9 = some { valid := true, buddy := 7, lmn := 9 }
    ∧ coverOf (spareOf [] (some (9, 99))) 9 = none ∧ counting (spareOf [] (some (9, 99))) = true ∧ (spareOf [] none).bell.count ≠ 99 := by decide +kernel
theorem test_takeover : (nx (.fabTakeover inst 9) open_).fab.takeStatus = 1
    ∧ (nx (.fabTakeover inst 9) (spareOf cover9 none)).fab.takePend = some (9, 100)
    ∧ (nx .takeoverApply (spareOf cover9 (some (9, 99)))).fab.lmn = 9 ∧ (nx .takeoverApply (spareOf cover9 (some (9, 99)))).snp.buddyLmn = 7
    ∧ (nx .takeoverApply (spareOf [] (some (9, 99)))).fab.takeStatus = 2
    ∧ (tget default (nx (.fabMapSelApply 9) (spareOf [] none)).fab.map 9).sel = true := by decide +kernel

/-! ### The control port -/

/-- The state of sessions with its control port in UP, changed by `f`. -/
def linked (f : CptBlk → CptBlk := id) : State := { open_ with cpt := f { lstate := 2, txOn := true } }
/-- A sound frame in its turn. -/
def turn (t : Nat) (payload : List Byte) (addr : Nat := 0) (arg : Nat := 0) (session : Nat := 2) : CptFrame := {
  ftype := t, tag := 7, session := session, addr := addr, arg := arg, payload := payload }
/-- The types and payloads of the frames that the port has sent. -/
def sentOf (s : State) : List (Nat × List Byte) := s.cpt.tx.map (fun f => (f.ftype, f.payload))

/-- ControlLink: the port OFF, DOWN and UP, an open fetch, an IDLE frame, a frame of a reserved type, the Bell on the port's clock, an event that
no frame carries. -/
def idleCpt : CptFrame := { ftype := 0, seq := 9, ackSeq := 3, credit := 4 }
def evented : State := linked (fun c => { c with evq := [(2, List.replicate 64 7)] })
theorem witness_ControlLink : (linked (fun c => { c with lstate := 0 })).cpt.txOn = true ∧ (linked (fun c => { c with lstate := 3 })).cpt.lstate = 3
    ∧ (linked id).cpt.relink = false ∧ cptUp linked = true ∧ idleCpt.payload = [] ∧ idleCpt.nak = false ∧ (linked id).cpt.wait = []
    ∧ CptTurn linked (turn 6 []) ∧ cptReserved 6 = true ∧ CptTurn linked (turn 15 []) ∧ cptReserved 15 = true
    ∧ { linked with bell.cfg.refSrc := 2 }.bell.state = .running ∧ (evented.cpt.evq.drop evented.cpt.evSent).take 16 ≠ []
    ∧ counting linked = true ∧ (linked id).cpt.lastMark = none := by unfold CptTurn; decide +kernel
theorem test_cpt_link : (nx (.cptLight none) (linked (fun c => { c with lstate := 0 }))).cpt.lstate = 1
    ∧ (nx (.cptRetry (some true)) (linked (fun c => { c with lstate := 3 }))).cpt.lstate = 2
    ∧ (sentOf (nx (.cptLight (some true)) { vatted 2 with cpt := { lstate := 1, txOn := true }, vat.fetches := [fetching] })).map Prod.fst = [8]
    ∧ (nx .cptLinkDown linked).ses.open_ = [] ∧ (nx .cptLinkDown linked).int.lastCode = FaultCode.cptLinkDown.code := by decide +kernel
theorem test_cpt_idle : (nx (.cptIdleFrameReceive (some idleCpt)) (linked (fun c => { c with credC := 5, tx := [{ seq := 3 }, { seq := 4 }] }))).cpt.tx = [{ seq := 4 }]
    ∧ (nx (.cptIdleFrameReceive (some idleCpt)) (linked (fun c => { c with credC := 5 }))).cpt.credC = 9
    ∧ (nx (.cptIdleFrameReceive none) linked).cpt.discarding = true
    ∧ (nx (.cptIdleFrameReceive (some (turn 6 []))) linked).cpt.errRes = 1 := by decide +kernel
theorem test_cpt_events : sentOf (nx .eventSend evented) = [(11, List.replicate 64 7)] ∧ (nx .eventSend evented).cpt.evSent = 1
    ∧ (nx .bellMark linked).cpt.lastMark = some 100
    ∧ (nx .cptRefLost { linked with bell.cfg.refSrc := 2 }).cpt.refLost = true := by decide +kernel

/-- RequestsAndFetches: requests of an open session, of none and of a wrong length; fetch data that goes on, comes to an end, has a gap, names no
open fetch; a refusal of the node. -/
def fetchAddr : Nat := 77 + 2 ^ 24 * 5 + 2 ^ 40 * 9 + 2 ^ 48 * 2
def fetchSt : State := { vatted 2 with cpt := { lstate := 2, txOn := true }, vat.fetches := [fetching] }
theorem witness_RequestsAndFetches : CptTurn linked (turn 2 (leBytes 8 (0x010100 * 2 ^ 32))) ∧ regReqOk (leBytes 8 (0x010100 * 2 ^ 32)) = true
    ∧ frameWho (cptTaken linked (turn 2 [] 0 0 44)) (turn 2 [] 0 0 44) = none
    ∧ frameWho (cptTaken linked (turn 2 [])) (turn 2 []) = some (.session 2) ∧ regReqOk [1, 2, 3] = false
    ∧ CptTurn fetchSt (turn 9 [1] fetchAddr 80) ∧ fetchSt.mod.recovery = false
    ∧ openFetch (cptTaken fetchSt (turn 9 [])) (bits fetchAddr 24 16) (bits fetchAddr 40 8) 1 = some fetching
    ∧ openFetch (cptTaken fetchSt (turn 9 [])) (bits fetchAddr 24 16) (bits fetchAddr 40 8) 2 = none
    ∧ slotAt? (cptTaken fetchSt (turn 9 [])) 5 = some (vslot 2) ∧ fetching.data.length = 80 ∧ 81 ≤ (vslot 2).len + 32
    ∧ (turn 10 [1]).payload.head? = some 1 := by unfold CptTurn; decide +kernel
theorem test_reg_req : sentOf (nx (.regReq (turn 2 (leBytes 8 (0x010100 * 2 ^ 32)) 0 0 44) {}) linked) = [(3, leBytes 8 (2 * 2 ^ 59 + 0x010100 * 2 ^ 32))]
    ∧ sentOf (nx (.regReq (turn 2 (leBytes 8 (0x010100 * 2 ^ 32))) {}) linked) = [(3, leBytes 8 (0x010100 * 2 ^ 32 + 2400))]
    ∧ (nx (.regReq (turn 2 [1, 2, 3]) {}) linked).cpt.errRes = 1 := by decide +kernel
theorem test_fetch_data : (nx (.fetchData { turn 9 [1] fetchAddr 80 with last := false } 1) fetchSt).vat.fetches.map (fun f => f.data.length) = [81]
    ∧ (nx (.fetchData (turn 9 [1] fetchAddr 81) 1) fetchSt).vat.jobs.map VJob.kind = [.failed]
    ∧ (nx (.fetchData (turn 9 [1] fetchAddr 80) 2) fetchSt).vat.stale = 1
    ∧ (nx (.fetchCtl (turn 10 [1] fetchAddr 1)) fetchSt).vat.jobs.map VJob.kind = [.failed]
    ∧ (nx (.fetchCtl (turn 10 [1] fetchAddr 2)) fetchSt).vat.stale = 1 := by decide +kernel

/-- BulkTransfers: a write that is refused, one by no session, one to the load buffer, a sealed one under context 2's key; a read that is refused,
one in open house, a sealed one. -/
def opened : State := { house {} with cpt := { lstate := 2, txOn := true } }
def keyed : State := { timed id with cpt := { lstate := 2, txOn := true }, keys.ctx := [(2, some {})], syl.module := some { grants := [grant] } }
def ctxArg (c : Nat) : Nat := c * 2 ^ 20
def sealedWr : CptFrame := { turn 4 (List.replicate 96 0) (here 0x1000001000) (ctxArg 2) with isSealed := true }
def sealedRd : CptFrame := { turn 5 [] (here 0x1000001000) (ctxArg 2) with isSealed := true }
theorem witness_BulkTransfers : CptTurn opened (turn 4 (List.replicate 64 7) (here loadBufLa)) ∧ opened.mod.recovery = false
    ∧ bulkCheck opened oper (turn 4 [] 3) 64 0 = some 2 ∧ frameWho opened (turn 4 [] 0 0 44) = none
    ∧ (opened.cpt.bulk.find? (fun b => b.tag == 7)).isNone = true
    ∧ bulkCheck (cptTaken opened (turn 4 [])) oper (turn 4 (List.replicate 64 7) (here loadBufLa)) 64 0 = none
    ∧ bulkPlace opened (here loadBufLa) 64 = some (.tier2, loadBufOff)
    ∧ bulkCheck (cptTaken keyed sealedWr) oper sealedWr 64 2 = none ∧ sealedWr.payload.length = 64 + 32
    ∧ readCheck opened inst (turn 5 [] (here 0x1000000000)) 64 0 = some 1 ∧ readCheck opened oper (turn 5 [] (here 0x1000000000)) 64 0 = none
    ∧ readCheck (cptTaken keyed sealedRd) oper sealedRd 64 2 = none := by unfold CptTurn; decide +kernel
theorem test_bulk : stored (nx (.bulkWr (turn 4 (List.replicate 64 7) (here loadBufLa))) opened) loadBufLa 2 = [7, 7]
    ∧ (nx (.bulkWr (turn 4 (List.replicate 64 7) (here loadBufLa))) opened).cpt.tx.map (fun f => (f.ftype, f.arg)) = [(7, 0)]
    ∧ (nx (.bulkWr (turn 4 (List.replicate 64 7) 3)) opened).cpt.tx.map (fun f => (f.ftype, f.arg)) = [(7, 2)]
    ∧ (nx (.bulkRdReq (turn 5 [] (here 0x1000000000))) opened).cpt.tx.map (fun f => (f.ftype, f.payload.length)) = [(6, 64), (7, 0)]
      := by decide +kernel

/-- SessionsAndRecovery: a HELLO with the key slot empty and filled, with eight sessions, in SCRAPPED; a challenge that is held; a PROOF that comes
in time and too late; a CLOSE; RECOVERY with a frame that goes on, one with a gap, and an image whose checks fail. -/
def helloFrame : CptFrame := turn 13 [1, 2, 0]
def keyedRoles : State := { linked with lcs := { lc := .deployed, keys := [(8, List.replicate 4 9)] } }
def proofFrame : CptFrame := turn 13 [3, 1, 2]
def challenged (sent : Option Nat) (cyc : Nat) : State := { keyedRoles with cyc := cyc, ses.chals := [{ tag := 7, role := 2, sent := sent }] }
def recovering (bs : List Byte) : State := { linked (fun c => { c with recBuf := bs }) with mod.recovery := true }
theorem witness_SessionsAndRecovery : CptTurn keyedRoles helloFrame ∧ authSub helloFrame = some 1 ∧ roleOfCode (field helloFrame.payload 1 1) = some .operator
    ∧ field helloFrame.payload 2 1 < 4 ∧ roleKey keyedRoles .operator 0 ≠ [] ∧ roleKey linked .operator 0 = [] ∧ keyedRoles.lcs.lc ≠ .scrapped
    ∧ keyedRoles.ses.open_.length < 8 ∧ challengesHeld keyedRoles = false ∧ (challenged none 0).ses.chals.length = 1
    ∧ authSub proofFrame = some 3 ∧ 5 + oneSecond ≤ (challenged (some 5) (2 ^ 32)).cyc ∧ (challenged (some 5) 9).cyc < 5 + oneSecond
    ∧ (([] ++ proofFrame.payload.drop 1).length == 3309) = false
    ∧ authSub (turn 13 [5, 3, 0, 0, 0]) = some 5 ∧ frameWho keyedRoles (turn 13 []) ≠ none
    ∧ CptTurn (recovering []) (turn 14 [1]) ∧ (recovering [1, 2]).cpt.recBuf.length = 2 := by unfold CptTurn; decide +kernel
theorem test_hello : sentOf (nx (.authHello helloFrame) linked) = [(13, [4, 0, 0, 0, 0, 2])]
    ∧ (nx (.authHello helloFrame) keyedRoles).ses.chals.map Challenge.slot = [0]
    ∧ sentOf (nx (.authHello helloFrame) { keyedRoles with lcs.lc := .scrapped }) = [(13, [4, 0, 0, 0, 0, 4])]
    ∧ (nx (.authChallengeDelayed 7) (challenged none 0)).ses.chals.map Challenge.sent = [some 0] := by decide +kernel
theorem test_proof : sentOf (nx (.authProof proofFrame) (challenged (some 5) (2 ^ 32))) = [(13, [4, 0, 0, 0, 0, 5])]
    ∧ (nx (.authProof proofFrame) (challenged (some 5) 9)).lcs.authFail = 1
    ∧ (nx (.authClose (turn 13 [5, 3, 0, 0, 0])) keyedRoles).ses.open_.map Session.id = [1, 2] := by decide +kernel
theorem test_recovery : (nx (.recoverFrame { turn 14 [3] 0 2 with last := false }) (recovering [1, 2])).cpt.recBuf = [1, 2, 3]
    ∧ (nx (.recoverFrame (turn 14 [3] 0 5)) (recovering [1, 2])).cpt.recResult = 3
    ∧ (nx (.recoverFrame (turn 14 [3] 0 2)) (recovering [1, 2])).cpt.recResult = 2 := by decide +kernel

/-! ### Security -/

/-- LifeCycleCommands: each requester that a command asks for and another, a life cycle below the target and one that is not, journal with room
and without, an SEQ that may be acknowledged and ones that may not. -/
def cycled (lc : LifeCycle) (f : Ledger → Ledger := id) : State := { open_ with
  lcs := { lc := lc, keys := [(8, [9])] }, fuse := { lc := lc, identity := true }, led := f { seq := 5 } }
def fullRing : Ledger → Ledger := fun l => { l with seq := 32512 }
theorem witness_LifeCycleCommands : mayCommand open_ inst = true ∧ mayCommand open_ makr = true
    ∧ 2 = (cycled .provisioned).lcs.lc.code + 1 ∧ roleOf (cycled .provisioned) inst = some (enteredBy 2) ∧ roleOf open_ makr ≠ some (enteredBy 2)
    ∧ journalRoom (cycled .provisioned) = true ∧ journalRoom (cycled .provisioned fullRing) = false
    ∧ roleOf (cycled .manufacture) makr = some (enteredBy 1) ∧ roleOf (cycled .deployed) inst = some (enteredBy 3)
    ∧ roleOf (cycled .returned) makr = some (enteredBy 4)
    ∧ mayKeys (cycled .deployed) inst .operator = true ∧ mayKeys (cycled .deployed) makr .operator = false ∧ Role.operator ≠ .maker
    ∧ isInstaller open_ oper = false ∧ (cycled .deployed).led.ack ≤ 3 ∧ 3 ≤ (cycled .deployed).led.seq ∧ (cycled .deployed).led.seq < 6
    ∧ isMaker open_ makr = true ∧ isMaker open_ oper = false := by decide +kernel
theorem test_advance : (nx (.advance inst 2 true) (cycled .provisioned)).lcs.lc = .deployed ∧ (nx (.advance inst 2 true) (cycled .provisioned)).fuse.lc = .deployed
    ∧ (nx (.advance makr 2 true) (cycled .provisioned)).lcs.status = 1 ∧ (nx (.advance inst 2 false) (cycled .provisioned)).lcs.status = 6
    ∧ (nx (.advance inst 2 true) (cycled .deployed)).lcs.status = 2 := by decide +kernel
theorem test_keys_and_store : (nx (.keyClear inst 2 0) (cycled .deployed)).lcs.keys = [] ∧ (nx (.keyClear makr 2 0) (cycled .deployed)).lcs.status = 1
    ∧ (nx (.keySet makr 2 0 [1]) (cycled .deployed)).lcs.status = 1
    ∧ (nx (.ledgerStore inst false) (cycled .deployed)).led.seq = 6 ∧ (nx (.ledgerStore oper false) (cycled .deployed)).lcs.status = 1 := by decide +kernel
theorem test_jrn_ack : (nx (.jrnAck oper 3) (cycled .deployed)).led.ack = 3 ∧ (nx (.jrnAck oper 6) (cycled .deployed)).lcs.status = 2
    ∧ (nx (.fwFloor makr true) { cycled .deployed with sec.fwVer := 7 }).fuse.fwFloor = 7
    ∧ (nx (.fwFloor makr false) (cycled .deployed)).lcs.status = 6 ∧ (nx (.fwFloor oper true) (cycled .deployed)).lcs.status = 1 := by decide +kernel

/-- QuotesAndKeyRelease: who may ask and who may not, a life cycle and a partition that do not permit it, four keys held; a record of an unknown key,
of one that is of the wrong kind, of one that fits, for a context and for a base slot. -/
def held4 : State := { open_ with sec.eks := List.replicate 4 {} }
def krRecord (target num ptn : Nat) : List Byte := leBytes 1 1 ++ leBytes 1 target ++ leBytes 2 num ++ leBytes 1 ptn ++ [0, 0, 0]
  ++ List.replicate 32 5 ++ List.replicate 1304 0
def withEk (ptn : Option Nat) : State := { brined false {} with sec.eks := [{ ptn := ptn, qdigest := List.replicate 32 5, ttl := 9 }] }
theorem witness_QuotesAndKeyRelease : (isOperator open_ oper || (isInstaller open_ oper && true)) = true
    ∧ (isOperator open_ makr || (isInstaller open_ makr && true)) = false ∧ inField open_ = true ∧ inField (cycled .returned) = false
    ∧ ptnUp open_ 3 = true ∧ ptnUp open_ 4 = false ∧ (held4.sec.eks.filter (fun e => e.ptn == none)).length = 4 ∧ journalRoom open_ = true
    ∧ krOk (krRecord 1 2 3) = true ∧ krOk (krRecord 2 0 0) = true ∧ (open_.sec.eks.find? (fun e => e.qdigest == slice (krRecord 1 2 3) 8 32)) = none
    ∧ krKind (withEk (some 3)) (krRecord 1 2 3) { ptn := some 3 } = true ∧ krKind (withEk none) (krRecord 1 2 3) { ptn := none } = false
    ∧ krKind (withEk none) (krRecord 2 0 0) { ptn := none, meas := modMeas (withEk none) } = true
    ∧ field (krRecord 1 2 3) 1 1 = 1 ∧ (getCtx { withEk none with ctx := [] } 2).state = .free ∧ (getCtx open_ 3).enableQ = []
    ∧ field (krRecord 2 0 0) 2 2 < ((moduleWins (withEk none)).filter (fun w => w.type == .base)).length
    ∧ tget none (withEk none).keys.base 0 = none ∧ allZero (bundleKeys (List.replicate 96 1)).exp = true := by decide +kernel
theorem test_quotes : (nx (.quoteModule makr []) open_).sec.status = 1 ∧ (nx (.quoteModule oper []) held4).sec.status = 10
    ∧ (nx (.quotePartition oper 4 []) open_).sec.status = 2 ∧ (nx (.quotePartition inst 3 []) open_).sec.status = 1 := by decide +kernel
theorem test_key_release : (nx (.keyRelease oper (krRecord 1 2 3)) open_).sec.status = 4 ∧ (nx (.keyRelease oper (krRecord 1 2 3)) (withEk none)).sec.status = 5
    ∧ (nx (.keyRelease inst (krRecord 1 2 3)) open_).sec.status = 1
    ∧ (nx (.ekDrop oper 3 false) (withEk (some 3))).sec.eks = [] ∧ (nx (.ekDrop oper 3 true) (withEk (some 3))).sec.eks.length = 1
    ∧ (nx .ekExpiry (withEk none)).sec.eks = [] := by decide +kernel

/-! ### Integrity -/

/-- Core 0 with a decision, of which core 1 runs the re-run or none does. -/
def dec0 : Decision := { entry := acd 6 0, op := 6, firstRow := 0, slotEnd := some 100 }
def deciding (d : Decision) : State := { timed lesson0 with core := [(0, { thr := [(1, thr)], decision := some d })] }
/-- CheckerDecisions: a decision for which core 1 qualifies, and one that has used every core of the partition, at its deadline. -/
theorem witness_CheckerDecisions : (getCore (deciding dec0) 0).decision = some dec0 ∧ dec0.running = none
    ∧ rerunCore (deciding dec0) 0 dec0 = some 1
    ∧ rerunCore (deciding { dec0 with used := countFrom 1 7 }) 0 { dec0 with used := countFrom 1 7 } = none
    ∧ counting (deciding dec0) = true ∧ 100 ≤ (deciding dec0).bell.count
    ∧ (getCore (deciding { dec0 with running := some 1 }) 1).acdRun = none ∧ (getCore (deciding { dec0 with running := some 1 }) 1).wcdRun = none := by
  decide +kernel
theorem test_rerun_start : let u := nx (.checkerRerunStart 0) (deciding dec0)
    (getCore u 0).decision = some { dec0 with running := some 1, used := [1], core1 := 1 } ∧ (getCore u 1).rerun = some 0 := by decide +kernel
/-- R535, R536: no majority at the deadline: the core is detained, the decision ends, DONE_SEM of the command is FFFF. -/
theorem test_decision_deadline : let u := nx (.decisionDeadline 0) (deciding { dec0 with used := countFrom 1 7 })
    (getCore u 0).decision = none ∧ (getPhys u 0).state = .detained ∧ u.int.lastCode = FaultCode.noMajority.code
    ∧ (getPtn u 3).tt.aborted = true := by decide +kernel

/-- PatrolQuizzesAndFaultLog: error states of each kind, a place in HBM, cores under test in each state, a quiz a day old, records that
wait at the end of a Bell. -/
def erred : State := { open_ with memErr := [(0x1000000000 / 8, .single), (0x1000000008 / 8, .double)] }
def testing (x : Phys) : State := { open_ with phys := [(4, some { x with testing := true })] }
def dayOld : State := { base with bell := { base.bell with count := dayBells + 1 } }
def fsrOf (w : Bool) : Fsr := { seq := 1, code := .resultReplaced, stamp := 204805, waiting := w }
def logged : State := { base with int.log := [fsrOf true, fsrOf false], bell := { base.bell with sub := 2047 } }
def stopped : State := { base with cyc := 2047, bell := {}, int.log := [{ fsrOf true with interval := some 0 }] }
theorem witness_PatrolQuizzesAndFaultLog : twf .none erred.memErr = true
    ∧ placeOf none 0x1000000000 = some (.hbm, 0) ∧ ((.hbm, 0) : Place).1.isSram = false
    ∧ (getPhys (testing { state := .active, number := 4, home := 4 }) 4).testing = true
    ∧ (getPhys (testing { state := .detained }) 4).testFor = 0xFF ∧ (getPhys (testing { state := .detained, clean := 3 }) 4).clean + 1 < 96
    ∧ counting dayOld = true ∧ 0 ∈ physOfCluster 0 ∧ (getPhys dayOld 0).state = .active ∧ (getPhys dayOld 0).lastQuiz + dayBells < dayOld.bell.count
    ∧ (1, 2) ∈ (getPhys (testing { state := .detained, sets := [(1, 2)] }) 4).sets
    ∧ (1, 3) ∉ (getPhys (testing { state := .detained, sets := [(1, 2)] }) 4).sets
    ∧ counting stopped = false ∧ stopped.cyc % 2048 = 2047 ∧ stopped.int.log.map Fsr.interval = [some 0]
    ∧ logged.int.ceLog = [] ∧ logged.bell.sub = 2047 ∧ (logged.int.log.filter (fun f => f.waiting)) = [fsrOf true]
    ∧ isInstaller open_ inst = true := by decide +kernel
theorem test_patrol : (nx (.memoryPatrol [] 0x1000000000 64) erred).memErr = [(0x1000000008 / 8, .double)]
    ∧ (nx (.memoryPatrol [(0x1000000000, false)] 0x1000000000 0) erred).memErr = [(0x1000000000 / 8, .double), (0x1000000008 / 8, .double)]
    ∧ (nx (.memoryPatrol [] 0x1000000008 8) erred).int.lastCode = FaultCode.memUe.code := by decide +kernel
theorem test_quiz_ends : (getPhys (nx (.quizComplete 4 none) (testing { state := .active, number := 4, home := 4 })) 4).lastQuiz = 100
    ∧ (getPhys (nx (.quizComplete 4 none) (testing { state := .detained, clean := 3 })) 4).clean = 4
    ∧ (getPhys (nx (.quizComplete 4 (some (1, 2, 3, 4))) (testing { state := .active, number := 4, home := 4, sets := [(1, 2)] })) 4).state = .detained
    ∧ (getPhys (nx (.quizComplete 4 (some (1, 2, 3, 4))) (testing { state := .detained, sets := [(1, 2)] })) 4).state = .retired := by decide +kernel
theorem test_quiz_due_and_log : (getPhys (nx (.quizDue 0) dayOld) 0).overdue = true ∧ (getPhys (nx (.quizDue 0) dayOld) 0).due = true
    ∧ (nx .faultLogFlush logged).cpt.evq.map Prod.fst = [1] ∧ (nx .faultLogFlush logged).int.log = [fsrOf false, fsrOf false]
    ∧ (nx .faultLogFlush stopped).cpt.evq.map Prod.fst = [1] ∧ (nx .faultLogFlush { stopped with cyc := 2046 }).cpt.evq = []
    ∧ (nx (.intAck oper) { open_ with int.moduleFault := true }).int.moduleFault = false := by decide +kernel

/-! ### Snapshots -/

/-- A plan at HBM offset 0x8000: the state block at 0x1000 and the staged image 0, every Lesson, buffer at 0x10000, log at 0x9000. -/
def plan1 (off : Nat) : List Byte :=
  let bs := slice (leBytes 1 1 ++ leBytes 1 2 ++ leBytes 2 1 ++ leBytes 2 off ++ leBytes 2 0 ++ leBytes 8 (hbmGa 0x10000) ++ leBytes 8 0x10000
    ++ leBytes 8 (hbmGa 0x9000) ++ leBytes 4 64) 0 64 ++ slice (leBytes 1 1 ++ List.replicate 7 0 ++ leBytes 8 (hbmGa 0x1000)) 0 16
    ++ slice (leBytes 1 2) 0 16
  patch bs 0x3C (leBytes 4 (crc32c bs))
/-- The snapshot engine ready, context 2 in state `x` with its plan in HBM, and what the engine keeps of it. -/
def snapped (x : CtxState) (k : SnpCtx := {}) (off : Nat := 0) (gens : List Gen := []) : State :=
  let s := pressed 0 0 0 (pcd1 1 0)
  atLa { s with ctx := [(2, { state := x, loaded := true, gen := 1 })], snp := { s.snp with ready := true, ctx := [(2, k)], gens := gens } }
    (addrOf (.hbm, 0x8000)) (plan1 off)
def armedAt (s : State) : State := { s with snp.args := [hbmGa 0x8000 % 2 ^ 32, hbmGa 0x8000 / 2 ^ 32 % 2 ^ 32] ++ s.snp.args.drop 2 }
def gen5 : Gen := { ctx := 2, gen := 5, lesson := 7 }
def job1 (p : SnpPhase) : SnpJob := { ctx := 2, ptn := 3, phase := p, lesson := 4 }

set_option maxRecDepth 100000 in
/-- SnapshotCommands: a plan that holds and one whose OFFSET is not below INTERVAL, a context armed and not, in each state that a restore takes,
generations listed and not. -/
theorem witness_SnapshotCommands : partsUp (snapped .running) = true ∧ isOperator (snapped .running) oper = true
    ∧ (snapped .running).snp.busy = false ∧ open_.snp.ready = false ∧ ptnOfCtx (snapped .running) 2 = some 3
    ∧ (readPlan (armedAt (snapped .running)) 3 2 (hbmGa 0x8000)).isSome = true
    ∧ (readPlan (armedAt (snapped .running {} 1)) 3 2 (hbmGa 0x8000)) = none
    ∧ (match readPlan (armedAt (snapped .running)) 3 2 (hbmGa 0x8000) with
        | some pl => (planOk (armedAt (snapped .running)) 3 2 pl).isSome | none => false) = true
    ∧ (getSnp (snapped .running { armed := true }) 2).armed = true ∧ (getCtx (snapped .keyed) 2).state = .keyed
    ∧ (getCtx (snapped .restart) 2).stay = false ∧ (getSnp (snapped .restart) 2).restoring = none
    ∧ gensOf (snapped .running {} 0 [gen5]) 2 ≠ [] := by decide +kernel
set_option maxRecDepth 100000 in
theorem test_arm : (nx (.snpArm oper 2 (hbmGa 0x8000)) (snapped .running)).snp.status = 0
    ∧ getSnp (nx (.snpArm oper 2 (hbmGa 0x8000)) (snapped .running)) 2 = { armed := true, plan := hbmGa 0x8000 }
    ∧ (nx (.snpArm oper 2 (hbmGa 0x8000)) (snapped .running {} 1)).snp.status = 2
    ∧ (nx (.captureNow oper 2) (snapped .running)).snp.status = 1 := by decide +kernel
theorem test_restore_delete_query : (nx (.snpRestore oper 2 9 6 0) (snapped .keyed)).snp.busy = true
    ∧ (getSnp (nx (.snpRestore oper 2 9 6 8) (snapped .keyed)) 2).restoring = some { lesson := 9, source := 2, verify := true, upTo := 8 }
    ∧ (nx (.snpRestore oper 2 9 6 0) (snapped .running)).snp.status = 1
    ∧ (nx (.snpDelete oper 2 5) (snapped .running {} 0 [gen5])).snp.gens = [] ∧ (nx (.snpDelete oper 2 6) (snapped .running {} 0 [gen5])).snp.status = 7
    ∧ (nx (.snpQuery oper 2) (snapped .running {} 0 [gen5])).snp.qbuf = leBytes 8 7 ++ leBytes 4 5 ++ leBytes 4 1 := by decide +kernel

/-- SnapshotEngine: captures in each phase; a mirror that is acknowledged, in part and whole; one received, and one read back. -/
def capturing (p : SnpPhase) (units : Nat := 64) : State :=
  { open_ with snp := { mirrorUnits := units, jobs := [job1 p] }, ctx := [(2, { state := .running, copying := true, copyStg := [0] })] }
/-- A send of the engine from module 9 that has arrived whole. -/
def mirrorIn (kind len : Nat) : Recv := { src := 9, pool := 0x1FFF, seq := 3, whole := true, data := { kind := kind, ctx := 2, len := len, seq := 3 : SendHdr }.bytes }
def mirroring (kind len : Nat) (rest : List Byte) (gens : List Gen := []) : State := { net with
  xf := { recv := [mirrorIn kind len] }
  snp := { ready := true, buddyLmn := 9, buddyValid := true, gens := gens, mirrors := [{ ctx := 2, gen := 5, rest := rest }] } }
/-- An engine that starts with two generations of context 2 in its directory. -/
def listed : State := { base with snp.gens := [gen5, { gen5 with gen := 6, lesson := 9 }] }
def copy5 : MirrorCopy := { gen := 5, lesson := 7, manifest := List.replicate 64 1 }
set_option maxRecDepth 100000 in
theorem witness_SnapshotEngine : base.mod.ready = true ∧ base.snp.ready = false ∧ listed.mod.ready = true ∧ listed.snp.ready = false
    ∧ (listed.snp.gens.filter (fun g => !g.mirror && g.ctx == 2)).getLast? = some { gen5 with gen := 6, lesson := 9 }
    ∧ listed.snp.gens.any (fun g => !g.mirror && g.ctx == 3) = false ∧ (capturing .copy).snp.jobs.any (fun j => j.ctx == 2 && j.phase == .copy) = true
    ∧ (capturing .drain).snp.jobs.find? (fun j => j.ctx == 2 && j.phase == .drain) = some (job1 .drain)
    ∧ 1 ≤ (capturing .drain).snp.keep ∧ (mirrorRecv (mirroring 3 0 []) 9 0x1FFF 3 3).map Prod.fst = some (mirrorIn 3 0)
    ∧ (mirrorRecv (mirroring 3 0 []) 9 0x1FFF 3 3).map (fun e => (e.2.len, e.2.ctx)) = some (0, 2)
    ∧ routePort (mirroring 3 0 [7]) 9 = some 2 ∧ (mirrorRecv (mirroring 3 64 []) 9 0x1FFF 3 3).map (fun e => (e.2.len, e.2.ctx)) = some (64, 2)
    ∧ genExtents { mirror := true, src := 9, ctx := 2, gen := 5, lesson := 7, manifest := copy5.manifest } ≤ freeExtents (takeRecv (mirroring 3 64 []) (mirrorIn 3 64)) true
    ∧ counting (mirroring 3 0 []) = true ∧ (mirrorRecv (mirroring 4 0 []) 9 0x1FFF 3 4).map (fun e => e.2.ctx) = some 2
    ∧ (getSnp (snapped .keyed { restoring := some {} }) 2).restoring = some {} ∧ ptnOfCtx (snapped .keyed) 2 = some 3
    ∧ (match (tryCopies 3 2 (snapped .keyed) []).2 with | .error k => k == 4 | .ok _ => false) = true := by decide +kernel
/-- A drained capture finds room where the area is large, and none where mirrors take it all (R550: a sealed manifest has at least its tag). -/
theorem witness_commit_room : genExtents (sealGen (capturing .drain) (job1 .drain)).2 ≤
      freeExtents { (sealGen (capturing .drain) (job1 .drain)).1 with snp.jobs := [] } false
    ∧ freeExtents { (sealGen (capturing .drain 128) (job1 .drain)).1 with snp.jobs := [] } false <
      genExtents (sealGen (capturing .drain 128) (job1 .drain)).2 := by
  have h : ∀ u, genExtents (sealGen (capturing .drain u) (job1 .drain)).2 = 1 := by
    intro u
    simp only [sealGen, genExtents, genBytes, sealGcm_length, job1, countFrom, List.zip, List.length, manHeader, withCrcTail, patch]
    simp [sumNat, ceilDiv, leBytes]
  rw [h, h]
  decide +kernel
/-- R550, R557: the newest generation listed; R556: a buffer of an uncommitted generation. -/
theorem test_directory : (getSnp (nx .snapshotEngineReady listed) 2).gen = 6 ∧ (getSnp (nx .snapshotEngineReady listed) 2).prevLesson = 9
    ∧ getSnp (nx .snapshotEngineReady listed) 3 = {} ∧ bufHeld { base with snp.jobs := [{ job1 .drain with buf := 64, bufLen := 64 }] } 0 65 = true
    ∧ bufHeld { base with snp.jobs := [{ job1 .drain with buf := 64, bufLen := 64 }] } 0 64 = false := by decide +kernel
theorem test_capture_ends : (nx (.captureCopyDone 2) (capturing .copy)).snp.jobs = [job1 .drain]
    ∧ (getCtx (nx (.captureCopyDone 2) (capturing .copy)) 2).copying = false
    ∧ (nx .snapshotEngineReady base).snp.ready = true ∧ (nx (.snapshotCommit 2) (capturing .copy)).snp = (capturing .copy).snp := by decide +kernel
set_option maxRecDepth 100000 in
theorem test_mirror : (nx (.mirrorAck 9 0x1FFF 3) (mirroring 3 0 [] [gen5])).snp.gens = [{ gen5 with mirrored := true }]
    ∧ (nx (.mirrorAck 9 0x1FFF 3) (mirroring 3 0 [7] [gen5])).snp.mirrors = [{ ctx := 2, gen := 5, rest := [], sent := 100 }]
    ∧ ((nx (.mirrorReceive 9 0x1FFF 3 (some copy5)) (mirroring 3 64 [])).snp.gens.map (fun g => (g.mirror, g.src, g.gen))) = [(true, 9, 5)]
    ∧ (nx (.mirrorTimeout 2) { mirroring 3 0 [] [gen5] with bell.count := 65536 }).snp.failMirror = 1
    ∧ (nx (.mirrorTimeout 2) (mirroring 3 0 [])).snp.failMirror = 0
    ∧ (nx (.mirrorRead 9 0x1FFF 3 5) (mirroring 4 0 [] [{ gen5 with mirror := true, src := 9 }])).snp.mirrorSeq = 1
    ∧ (nx (.restoreComplete 2 [] []) (snapped .keyed { restoring := some {} })).snp.status = 4 := by decide +kernel

/-! ### Self-test, the test access port and I3C -/

/-- A returned module with a repair applied, a full run under way in regions 0 and 1 with region 5 to come, one past its regions. -/
def rep2 : Repair := { kind := 2, state := 2, unit := 3, addr := 40 }
def fielded : State := { open_ with lcs.lc := .returned, fuse := { lc := .returned, identity := true }, led := { repair := [(4, rep2)] } }
def running (rs : List Nat) : State := { atLa fielded 0x0200000000 [7] with tst := { busy := true, kind := 2, running := rs, waiting := [5] } }
def failed1 : TestRes := { test := 1, kind := 3, unit := 0, bank := 2, addr := 9, fix := .row }
/-- SelfTestRuns: the maker and the operator, a module in the field and one that is back, a region that runs, a run past its regions. -/
theorem witness_SelfTestRuns : partsUp fielded = true ∧ fielded.tst.busy = false ∧ fielded.lcs.lc = .returned ∧ isMaker fielded makr = true
    ∧ isMaker fielded oper = false ∧ roleOf fielded oper ≠ none ∧ ¬(open_.lcs.lc = .manufacture ∨ open_.lcs.lc = .returned)
    ∧ isMaker open_ makr = true ∧ (getRep fielded 4).state = 2 ∧ (running [0, 1]).tst.running.contains 1 = true
    ∧ (running []).tst.busy = true ∧ (running []).tst.running = [] := by decide +kernel
theorem test_run_quick : (nx (.runQuick makr 0x8007) fielded).tst.running = [0, 1] ∧ (nx (.runQuick makr 0x8007) fielded).tst.waiting = [2, 15]
    ∧ (nx (.runFull oper 1) fielded).tst.status = 1 ∧ (nx (.loopFar makr 1) open_).tst.status = 2
    ∧ (nx (.fuse makr []) fielded).fuse.repairs = [{ rep2 with state := 3 }] ∧ (nx (.fuse makr [4]) fielded).tst.status = 5 := by decide +kernel
theorem test_region_ends : (nx (.regionBistEnd 0 [failed1]) (running [0, 1])).tst.running = [1, 5]
    ∧ (nx (.regionBistEnd 0 [failed1]) (running [0, 1])).mem = [] ∧ (nx (.regionBistEnd 2 []) (running [0, 1])).mem = (running []).mem
    ∧ (nx (.testRunEnd []) (running [])).mem = [] ∧ (nx (.testRunEnd []) (running [])).tst.done = true
    ∧ (nx (.testRunEnd []) (running [0])).tst.busy = true := by decide +kernel
/-- R575: the logic of tier 2 channel 9 fails: the second 4 KiB of slice 8 are unavailable, the first are not. -/
theorem test_channel_dead :
    let s := nx (.testRunEnd [{ test := 2, kind := 10, unit := 9, fix := .none }]) (running [])
    s.tst.deadChannels = [9] ∧ s.int.lastCode = FaultCode.bistUnrepaired.code
    ∧ shutOff s (0x2000000000 + 2 ^ 43 + 4096) = true ∧ shutOff s (0x2000000000 + 2 ^ 43) = false
    ∧ shutIn s (0x2000000000 + 2 ^ 43 + 4090) 8 = some (0x2000000000 + 2 ^ 43 + 4096) := by decide +kernel

/-- TestPortAndI3c: a life cycle that permits boundary scan and one that does not, an access whose reserved bits are 0 and one whose are not, the
I3C target without an address and with one. -/
def addressed : State := { open_ with i3c := { addr := some 9, mrl := 8 } }
theorem witness_TestPortAndI3c : fielded.pwr.vao = true ∧ scanPermitted fielded = true ∧ scanPermitted open_ = false
    ∧ acReserved 0x0000002000000000 = false ∧ acReserved (2 ^ 54) = true ∧ 2 ^ 54 < 2 ^ 64
    ∧ addressed.i3c.addr = some 9 ∧ open_.i3c.addr = none ∧ addressed.i3c.mrl ≠ 0 := by decide +kernel
theorem test_tap : (nx (.extest 0 0x3FFF) fielded).tap.drive = true ∧ (nx (.extest 0 0x3FFF) open_).tap.ir = 0xFF
    ∧ (nx .clamp fielded).tap.ir = 2 ∧ (nx .tapReset { fielded with tap.ir := 2 }).tap = {} ∧ (nx .bypass fielded).tap.ir = 0xFF := by decide +kernel
/-- R607, R608: an address is taken once; the pointer wraps at 64; MODE of the first four registers is MOD_ID, 0x5344A100. -/
theorem test_i3c : (nx (.entdaa 9) open_).i3c.addr = some 9 ∧ (nx (.entdaa 10) addressed).i3c.addr = some 9 ∧ (nx .rstdaa addressed).i3c.addr = none
    ∧ (nx (.getbcr 9) addressed).i3c.out = [6] ∧ (nx (.getmrl 9) addressed).i3c.out = [0, 8, 1]
    ∧ (nx (.i3cPrivateRead 9 4) addressed).i3c.out = [0x00, 0xA1, 0x44, 0x53]
    ∧ (nx (.i3cPrivateRead 9 4) { addressed with i3c.ptr := 62 }).i3c.ptr = 2
    ∧ (nx (.i3cPrivateWrite 9 [65]) addressed).i3c.ptr = 1 ∧ (nx (.i3cPrivateWrite 8 [65]) addressed).i3c.ptr = 0 := by decide +kernel

/-! ### Power, the input and resets -/

/-- A module off, one that VAO serves and whose capacitance is charged, with MOD_RESET_N low, scrapped, or firmware that is too short. -/
def charged (low : Bool) (lc : LifeCycle) : State := { mod := { resetLow := low }, pwr := { vao := true, charged := true }, fuse := { lc := lc }, flash := { fw := some [] } }
/-- The module in operation whose firmware in flash is too short, with byte 7 in HBM, and a low input for 40 us. -/
def powered : State := { atLa open_ (addrOf (.hbm, 0)) [7] with
  flash := { fw := some [] }, pwr := { open_.pwr with rails := 0x1FF, lowUs := 40, okUs := 30 } }
def cool : List Nat := List.replicate 19 0
def hot (t : Nat) : List Nat := [16 * t] ++ List.replicate 18 0
/-- PowerAndInput: inputs in each range, each start of a module, rails, readings below Warn, at it and at Trip, a pulse and a release. -/
theorem witness_PowerAndInput : State.reset.mod.powered = false ∧ (charged true .deployed).pwr.vao = true ∧ (charged true .deployed).pwr.charged = true
    ∧ (charged true .deployed).mod.powered = false ∧ (charged false .scrapped).fuse.lc = .scrapped
    ∧ fwOk (charged false .deployed) (flashImage (charged false .deployed)) = false ∧ powered.mod.powered = true ∧ powered.mod.shutdown = false
    ∧ 40 ≤ powered.pwr.lowUs ∧ 1 < powered.pwr.rails ∧ powered.pwr.thermWarn = false
    ∧ (readings (cool.map (wrap 16))).any (fun e => decide (warnAt e.1 ≤ e.2)) = false
    ∧ (readings ((hot 100).map (wrap 16))).any (fun e => decide (warnAt e.1 ≤ e.2)) = true
    ∧ (readings ((hot 100).map (wrap 16))).any (fun e => match tripAt e.1 with | some t => decide (t ≤ e.2) | none => false) = false
    ∧ (readings ((hot 115).map (wrap 16))).any (fun e => match tripAt e.1 with | some t => decide (t ≤ e.2) | none => false) = true
    ∧ powered.pwr.vao = true ∧ ({ powered with mod.resetLow := true } : State).mod.waitHigh = false := by decide +kernel
theorem test_power_good : (nx (.powerGood {}) (charged true .deployed)).mod.waitHigh = true ∧ (nx (.powerGood {}) (charged false .scrapped)).mod.step = 1
    ∧ (nx (.powerGood {}) (charged false .deployed)).mod.recovery = true ∧ (nx (.powerGood {}) State.reset).mod.powered = false
    ∧ (nx (.powerInputApplied 4800 false) State.reset).pwr.charged = true ∧ (nx (.powerInputApplied (-4800) false) State.reset).pwr.vao = false := by decide +kernel
theorem test_input : (nx (.inputSample 3000 0) powered).mod.shutdown = true ∧ (nx (.inputSample 3000 0) powered).mem = []
    ∧ (nx (.inputSample 4800 0) powered).pwr.okUs = 40 ∧ (nx (.inputSample 1999 0) powered).mod.powered = false
    ∧ (nx (.railFault 2) powered).mod.shutdown = true ∧ (nx (.railFault 8) powered).mod.shutdown = false := by decide +kernel
theorem test_thermal : (nx (.thermalSample (hot 100)) powered).pwr.thermWarn = true ∧ (nx (.thermalSample (hot 99)) powered).pwr.thermWarn = false
    ∧ (nx (.thermalSample (hot 115)) powered).pwr.tripped = true ∧ (nx (.thermalSample (hot 0xFFF)) powered).pwr.thermWarn = false
    ∧ (nx (.modResetNAssert 10 false) powered).mod.resetLow = true ∧ (nx (.modResetNAssert 9 false) powered).mod.resetLow = false
    ∧ (nx (.modResetNRelease {}) { powered with mod.resetLow := true }).mod.cause = 1 := by decide +kernel
/-- OnlyStopIsBeyondAbsoluteMaximum: R588 gives no behaviour beyond 60 V. -/
theorem test_beyond_maximum : exec (.powerInputApplied 6001 false) State.reset = .fault .beyondAbsoluteMaximum
    ∧ exec (.inputSample (-6001) 0) powered = .fault .beyondAbsoluteMaximum
    ∧ exec (.inputSample 4800 7501) { powered with pwr.overUs := 1000 } = .fault .beyondAbsoluteMaximum := ⟨rfl, rfl, rfl⟩

/-- Resets: who may ask for what, a reset that is due, one that waits for the fourth Bell after the last and one that does not, resets that run. -/
def lately : State := { powered with mod := { powered.mod with last := [{ kind := 5, target := 9, bell := 98 }] } }
def deferred1 (b : Nat) : State := { powered with mod := { powered.mod with deferred := [{ kind := 5, target := 9, bell := b }] } }
def resetRuns : State := { powered with mod := { powered.mod with running := [(3, 5), (4, 2)] } }
theorem witness_Resets : isInstaller powered inst = true ∧ powered.mod.due = none ∧ powered.mod.shutdown = false ∧ powered.mod.resetLow = false
    ∧ journalRoom powered = true ∧ powered.fuse.lc ≠ .scrapped ∧ fwOk powered (flashImage powered) = false
    ∧ rstTargetOk 5 9 = true ∧ rstTargetOk 3 0 = true ∧ rstTargetOk 4 2 = true ∧ rstTargetOk 6 1 = true
    ∧ mayModRst powered oper = true ∧ mayRst powered oper 4 2 = false ∧ mayRst powered oper 5 0 = true ∧ mayRst powered inst 5 9 = true
    ∧ partsUp powered = true ∧ powered.mod.ready = true ∧ resetting powered (5, 9) = false
    ∧ deferUntil powered 5 9 ≤ beat powered ∧ beat lately < deferUntil lately 5 9
    ∧ (deferred1 99).mod.deferred.find? (fun e => (e.kind, e.target) == (5, 9)) = some { kind := 5, target := 9, bell := 99 }
    ∧ 99 ≤ beat (deferred1 99) ∧ resetting (deferred1 99) (5, 9) = false
    ∧ resetRuns.mod.running.contains (3, 5) = true ∧ resetRuns.mod.running.contains (4, 2) = true := by decide +kernel
/-- R598, R600: 4 Bells after the last reset of a unit that began at Bell 98 is Bell 102. -/
theorem test_deferred : (nx (.resetCore inst 9) lately).mod.deferred = [{ kind := 5, target := 9, bell := 102 }] ∧ (nx (.resetCore inst 9) lately).mod.rstStatus = 3
    ∧ (getCore (nx (.resetCore inst 9) powered) 9).epoch = 1 ∧ (getCore (nx (.resetDeferredStart 5 9) (deferred1 99)) 9).epoch = 1
    ∧ (nx (.resetDeferredStart 5 9) (deferred1 101)).mod.deferred = (deferred1 101).mod.deferred
    ∧ (nx (.resetRegion oper 2) powered).mod.rstStatus = 1 := by decide +kernel
theorem test_whole_resets : (nx (.resetModule inst {}) powered).mod.cause = 2 ∧ (getCore (nx (.resetModule inst {}) powered) 1023).epoch = 1
    ∧ (nx (.lcsRecover inst {}) powered).mod.recovery = true ∧ (nx (.resetComplete 4 2 []) resetRuns).mod.running = [(3, 5)]
    ∧ (fabPort (nx (.resetComplete 3 5 []) resetRuns) 5).pstate = .dark
    ∧ (nx (.recoveryReset {}) { powered with mod.due := some { cause := 6 } }).mod.cause = 6 := by decide +kernel

/-- CommandsKeepTheirFootprint: a command whose footprint does not hold memory and one whose footprint does, both of which complete; an idle step. -/
theorem witness_CommandsKeepTheirFootprint : exec .clamp powered = .next (nx .clamp powered) ∧ Part.mem ∉ mayWrite .clamp
    ∧ exec (.testRunEnd []) powered = .next (nx (.testRunEnd []) powered) ∧ base.pending = [] := by
  refine ⟨rfl, ?_, rfl, rfl⟩
  decide

/-! ### Registers and ports in single cases -/

/-- R592's example: 36.5 V gives 2,409 W, which does not limit 2,400 W; 35.5 V gives 2,343 W. -/
def sagged (v : Nat) : State := { open_ with pwr := { open_.pwr with inputLow := true, vin := v } }
theorem test_input_cap : capWatts (sagged 3650) = 2400 ∧ capWatts (sagged 3550) = 2343 ∧ bitOf (regValue (sagged 3650) 0x010004) 28 = false
    ∧ bitOf (regValue (sagged 3550) 0x010004) 28 = true := by decide +kernel
/-- R547, R7: a class M fault in the cycle of INT_ACK leaves MODULE_FAULT. -/
theorem test_int_ack_set : (nx (.registerWrite oper 0x0F0004 4 1 { hwSet := 1 }) { open_ with int.moduleFault := true }).int.moduleFault = true
    ∧ (nx (.registerWrite oper 0x0F0004 4 1 {}) { open_ with int.moduleFault := true }).int.moduleFault = false := by decide +kernel
/-- R439, R597: ENABLE of a port whose X-die is in reset changes nothing, and one of another port does. -/
theorem test_port_stuck : portStuck { open_ with mod.running := [(3, 5)] } 4 = true ∧ portStuck { open_ with mod.running := [(3, 5)] } 3 = false
    ∧ portStuck { open_ with tst.deadPorts := [2] } 2 = true := by decide +kernel
/-- R482, R496, R503: what a requester without a session reads of LCS and SEC. -/
theorem test_anonymous : anonReads open_ 0x020010 = true ∧ anonReads open_ 0x020028 = false ∧ anonReads open_ 0x020040 = true
    ∧ anonReads { open_ with mod.recovery := true } 0x020010 = false ∧ anonReads open_ 0x030020 = false := by decide +kernel
/-- R396: a partition's bit stands while its Syllabus is in force. -/
theorem test_loaded_mask : loadedMask base 0 = 8 ∧ loadedMask { base with ptn := [(3, { state := .teardown, syl := some syl })] } 0 = 0 := by
  decide +kernel

/-! ### Ill-formed terms, and the table's words -/

/-- A well-formed command of each kind, so that what follows is refused for its one operand. -/
theorem test_wellFormed_accepts : ∀ c ∈ [Instr.registerWrite inst 0x010100 4 7 {}, .slvCmd 1023 15 127 31 0, .queuePositionFreed (.pcd 15),
    .claimSlot oper 64 0xFFFF 4095 7 1 2, .waitGe (.mesh 0 0 7 1 0 5), .threadMemoryAccess 0 1 4 (.load 0 8 true 31), .regReq { ftype := 4 } {},
    .linkFrameReceive 7 {} 17, .thermalSample cool, .keySet inst 2 0 (List.replicate 1952 0), .powerGood {}, .enableQueuedApply (.context 4095),
    .quizComplete 1151 none], wellFormed c = true := by decide +kernel
/-- okReq: session 0, a core that does not exist. okBits: an offset of 54 bits. -/
theorem test_refuses_requester : wellFormed (.intAck (.session 0)) = false ∧ wellFormed (.intAck (.thread 1024 0)) = false
    ∧ wellFormed (.intAck (.thread 0 16)) = false ∧ wellFormed (.registerWrite inst (2 ^ 54) 4 0 {}) = false := by decide +kernel
/-- okCore, okThr, okReg, okQueue, okRegion: R18, R19 number cores to 1023, threads to 15, regions to 15. -/
theorem test_refuses_core : wellFormed (.quant 1024 {}) = false ∧ wellFormed (.slvExit 0 16) = false ∧ wellFormed (.slvLaunch 0 0 32 0) = false
    ∧ wellFormed (.queuePositionFreed (.acd 1024)) = false ∧ wellFormed (.queuePositionFreed (.pcd 16)) = false
    ∧ wellFormed (.prsInit 16 none) = false ∧ wellFormed (.quizComplete 1152 none) = false := by decide +kernel
/-- okPtn, okCtx, okEnable, okVatPort, okFabPort. -/
theorem test_refuses_numbers : wellFormed (.ptnHold oper 64) = false ∧ wellFormed (.snpQuery oper 4096) = false
    ∧ wellFormed (.enableQueuedApply (.context 4096)) = false ∧ wellFormed (.enableQueuedApply (.partition 64)) = false
    ∧ wellFormed (.fetch oper 65 0 0 0) = false ∧ wellFormed (.portLight 8) = false := by decide +kernel
/-- okTokSrc, okBytes: a TOKEN frame has 32 bytes; a semaphore number 16 bits. -/
theorem test_refuses_token : wellFormed (.waitGe (.frame 0 [1])) = false ∧ wellFormed (.waitGe (.mesh 0 0 65536 0 0 0)) = false
    ∧ wellFormed (.replyReceive 0 []) = false ∧ wellFormed (.keySet inst 2 0 [1]) = false := by decide +kernel
/-- okAcc: an address of 65 bits, register 32, an instruction of three bytes. -/
theorem test_refuses_access : wellFormed (.threadMemoryAccess 0 1 4 (.load (2 ^ 64) 8 true 0)) = false
    ∧ wellFormed (.threadMemoryAccess 0 1 4 (.lr 0 8 32)) = false ∧ wellFormed (.threadMemoryAccess 0 1 3 (.fetch 0 4)) = false
    ∧ wellFormed (.threadMemoryAccess 0 1 4 (.vload 0 8 [(0, 2 ^ 64)])) = false := by decide +kernel
/-- okCpt, okData: a field wider than the frame gives it; lane 18 of a port. -/
theorem test_refuses_frame : wellFormed (.regReq { tag := 65536 } {}) = false ∧ wellFormed (.linkFrameReceive 0 { lseq := 4096 } 0) = false
    ∧ wellFormed (.linkFrameReceive 0 {} 18) = false ∧ wellFormed (.cptIdleFrameReceive (some { ftype := 256 })) = false := by decide +kernel
/-- okTemps, okStart: 19 readings of 16 bits; SLOT_ID of 6 bits, ports to 7. -/
theorem test_refuses_samples : wellFormed (.thermalSample [0]) = false ∧ wellFormed (.thermalSample (List.replicate 19 65536)) = false
    ∧ wellFormed (.powerGood { slot := 64 }) = false ∧ wellFormed (.modResetNRelease { laneFail := [(8, 0)] }) = false := by decide +kernel
/-- No row of the table has bits, so no word spells a command and none is put into the queue. -/
theorem test_no_words : decodeTableWord 32 0 = none ∧ (State.reset.withFetchWord 32 5) = State.reset := by decide +kernel

end Sys2Proof.Tests
end

section
/-! SUPPORT. What the codes of OZ4 and of the wider formats stand for, as rational numbers (R52, R55); O18 is settled from these. -/

namespace Sys2Proof.Machine

/-! ### The rational that a value stands for -/

/-- A sign bit as the factor it stands for. -/
def signRat (b : Bool) : Rat := if b then -1 else 1

/-- The rational number of a finite value; 0 for an infinity and a NaN. -/
def Num.toRat : Num → Rat
  | .fin s m e => signRat s * (m : Rat) * (2 : Rat) ^ e
  | _ => 0

@[simp] theorem Num.toRat_fin (s : Bool) (m : Nat) (e : Int) :
    (Num.fin s m e).toRat = signRat s * (m : Rat) * (2 : Rat) ^ e := rfl

theorem Num.ofInt_of_neg {v : Int} (h : v < 0) (e : Int) : Num.ofInt v e = .fin true v.natAbs e := if_pos h

theorem Num.ofInt_of_nonneg {v : Int} (h : 0 ≤ v) (e : Int) : Num.ofInt v e = .fin false v.natAbs e :=
  if_neg (Int.not_lt.mpr h)

theorem Num.ofInt_ne_nan (v e : Int) : Num.ofInt v e ≠ .nan := by
  rcases lt_or_ge v 0 with h | h
  · simp [Num.ofInt_of_neg h]
  · simp [Num.ofInt_of_nonneg h]

theorem Num.ofInt_ne_inf (v e : Int) (b : Bool) : Num.ofInt v e ≠ .inf b := by
  rcases lt_or_ge v 0 with h | h
  · simp [Num.ofInt_of_neg h]
  · simp [Num.ofInt_of_nonneg h]

/-- An exact zero has the sign + (R58). -/
theorem Num.ofInt_ne_negZero (v e k : Int) : Num.ofInt v e ≠ .fin true 0 k := by
  rcases lt_or_ge v 0 with h | h
  · simp [Num.ofInt_of_neg h, h.ne]
  · simp [Num.ofInt_of_nonneg h]

theorem Num.toRat_ofInt (v e : Int) : (Num.ofInt v e).toRat = (v : Rat) * (2 : Rat) ^ e := by
  rcases lt_or_ge v 0 with h | h
  · have hv : ((v.natAbs : Nat) : Rat) = -(v : Rat) := by
      rw [Nat.cast_natAbs, abs_of_neg h, Int.cast_neg]
    simp [Num.ofInt_of_neg h, signRat, hv]
  · have hv : ((v.natAbs : Nat) : Rat) = (v : Rat) := by
      rw [Nat.cast_natAbs, abs_of_nonneg h]
    simp [Num.ofInt_of_nonneg h, signRat, hv]

/-! ### OZ4 (R52) -/

theorem isNan4_iff {c : Nat} (hc : c < 16) : isNan4 c = true ↔ c = 8 := by
  simp [isNan4, Nat.mod_eq_of_lt hc]

theorem val4_of_ne_nanCode {c : Nat} (hc : c < 16) (h8 : c ≠ 8) : val4 c = Num.ofInt (qw c) (-2) :=
  if_neg (mt (isNan4_iff hc).mp h8)

theorem val4_eq_nan_iff {c : Nat} (hc : c < 16) : val4 c = .nan ↔ c = 8 := by
  refine ⟨fun h => ?_, fun h => if_pos ((isNan4_iff hc).mpr h)⟩
  by_contra h8
  exact Num.ofInt_ne_nan _ _ (val4_of_ne_nanCode hc h8 ▸ h)

theorem val4_ne_inf (c : Nat) (b : Bool) : val4 c ≠ .inf b := by
  unfold val4
  split
  · simp
  · exact Num.ofInt_ne_inf _ _ _

theorem val4_ne_negZero (c : Nat) (k : Int) : val4 c ≠ .fin true 0 k := by
  unfold val4
  split
  · simp
  · exact Num.ofInt_ne_negZero _ _ _

/-- The sixteen integer operands, by the three fields of the code: four times the value is `f` where the exponent field is 0,
and `(2 + f) × 2^(e-1)` elsewhere. -/
theorem qw_eq_fields : ∀ c < 16, 2 * qw c = (if bitOf c 3 then -1 else 1)
    * (if bits c 1 2 = 0 then 2 * (bits c 0 1 : Int) else (2 + (bits c 0 1 : Int)) * 2 ^ bits c 1 2) := by
  decide

/-- The OZ4 value as half of the doubled operand, scaled by its unit 1/4. -/
theorem toRat_val4_eq_qw {c : Nat} (hc : c < 16) (h8 : c ≠ 8) : (val4 c).toRat = ((2 * qw c : Int) : Rat) / 8 := by
  rw [val4_of_ne_nanCode hc h8, Num.toRat_ofInt]
  push_cast
  norm_num
  ring

theorem toRat_val4_subnormal {c : Nat} (hc : c < 16) (h8 : c ≠ 8) (he : bits c 1 2 = 0) :
    (val4 c).toRat = signRat (bitOf c 3) * (bits c 0 1 : Rat) * (1 / 4) := by
  rw [toRat_val4_eq_qw hc h8, qw_eq_fields c hc, if_pos he]
  push_cast [signRat]
  ring

theorem toRat_val4_normal {c : Nat} (hc : c < 16) (h8 : c ≠ 8) (he : bits c 1 2 ≠ 0) :
    (val4 c).toRat = signRat (bitOf c 3) * (2 : Rat) ^ ((bits c 1 2 : Int) - 2) * (1 + (bits c 0 1 : Rat) / 2) := by
  rw [toRat_val4_eq_qw hc h8, qw_eq_fields c hc, if_neg he, zpow_sub₀ two_ne_zero, zpow_natCast]
  push_cast [signRat]
  ring

/-! ### The wider formats (R55): any format with an exponent field -/

section Decode

variable {f : Fmt} {c : Nat}

theorem Fmt.decode_of_exp_zero (he : bits c f.frac f.ebits = 0) :
    f.decode c = .fin (bitOf c (f.ebits + f.frac)) (bits c 0 f.frac) f.qmin := if_pos he

theorem Fmt.decode_of_exp_top (hw : 0 < f.ebits) (he : bits c f.frac f.ebits = 2 ^ f.ebits - 1) :
    f.decode c = if bits c 0 f.frac = 0 then .inf (bitOf c (f.ebits + f.frac)) else .nan := by
  have hpow : 1 < 2 ^ f.ebits := Nat.one_lt_two_pow hw.ne'
  exact (if_neg (by omega)).trans (if_pos he)

theorem Fmt.decode_of_exp_between (h0 : 0 < bits c f.frac f.ebits) (ht : bits c f.frac f.ebits < 2 ^ f.ebits - 1) :
    f.decode c = .fin (bitOf c (f.ebits + f.frac)) (2 ^ f.frac + bits c 0 f.frac)
      (f.qmin + (bits c f.frac f.ebits : Int) - 1) :=
  (if_neg h0.ne').trans (if_neg ht.ne)

theorem Fmt.toRat_decode_subnormal (he : bits c f.frac f.ebits = 0) :
    (f.decode c).toRat = signRat (bitOf c (f.ebits + f.frac)) * (2 : Rat) ^ (1 - (f.bias : Int)) * (bits c 0 f.frac : Rat)
      / (2 : Rat) ^ (f.frac : Int) := by
  rw [Fmt.decode_of_exp_zero he, Num.toRat_fin, Fmt.qmin, zpow_sub₀ two_ne_zero (1 - (f.bias : Int))]
  ring

theorem Fmt.toRat_decode_normal (h0 : 0 < bits c f.frac f.ebits) (ht : bits c f.frac f.ebits < 2 ^ f.ebits - 1) :
    (f.decode c).toRat = signRat (bitOf c (f.ebits + f.frac))
      * (2 : Rat) ^ ((bits c f.frac f.ebits : Int) - (f.bias : Int))
      * (1 + (bits c 0 f.frac : Rat) / (2 : Rat) ^ (f.frac : Int)) := by
  have hq : f.qmin + (bits c f.frac f.ebits : Int) - 1 = (bits c f.frac f.ebits : Int) - f.bias - f.frac := by
    rw [Fmt.qmin]; ring
  rw [Fmt.decode_of_exp_between h0 ht, Num.toRat_fin, hq, zpow_sub₀ two_ne_zero (_ - _), zpow_natCast]
  push_cast
  field_simp

end Decode

/-- In a code of `n` bits of OZ16 or OZ32 the sign stands above the exponent field, which is not empty. -/
theorem ozFormat_layout : ∀ p ∈ [(oz16, 16), (oz32, 32)], 0 < p.1.ebits ∧ p.2 - 1 = p.1.ebits + p.1.frac := by
  decide

/-- Settles O18: an OZ4 value is a quarter of its integer operand, and the three branches of `Fmt.decode` are the three kinds of
exponent field. -/
theorem numberFormats : Obligations.NumberFormats := by
  unfold Obligations.NumberFormats
  refine ⟨fun c hc => ⟨val4_eq_nan_iff hc, val4_ne_inf c, val4_ne_negZero c, toRat_val4_subnormal hc, toRat_val4_normal hc⟩, ?_⟩
  intro fmt n c hmem _
  obtain ⟨hw, hsign⟩ := ozFormat_layout (fmt, n) hmem
  simp only at hw hsign
  rw [hsign]
  refine ⟨fun he => ⟨⟨_, _, Fmt.decode_of_exp_zero he⟩, Fmt.toRat_decode_subnormal he⟩, Fmt.toRat_decode_normal,
    fun he hf => ?_, fun he hf => ?_⟩
  · exact (Fmt.decode_of_exp_top hw he).trans (if_pos hf)
  · exact (Fmt.decode_of_exp_top hw he).trans (if_neg hf)

end Sys2Proof.Machine
end

section
/-! SUPPORT and proof of O19: the three ends of an element's update under the master clamp (R234, R235), and the pair of saturating
counters that a context's master events go to (R241). -/

namespace Sys2Proof.Machine

/-! ### The update of an element (R234, R235) -/

theorem Num.isNan_iff {x : Num} : x.isNan = true ↔ x = .nan := by
  cases x <;> simp [Num.isNan]

section Element

variable (adam : Bool) (hp : Hyper) (k : Scalars) (g0 : Word) (e : PElem)

/-- The first moment that the update gives an element (stage 6 of R234). -/
def nextMoment1 : Word := add32 (mul32 hp.b1 e.m) (mul32 hp.ob1 (mul32 g0 k.c))

/-- The second moment that the update gives an element; only ADAM changes it (stage 6 of R234). -/
def nextMoment2 : Word :=
  if adam then add32 (mul32 hp.b2 e.v) (mul32 hp.ob2 (mul32 (mul32 g0 k.c) (mul32 g0 k.c))) else e.v

/-- The direction of the update, from its moments (stage 6 of R234). -/
def updateDir : Word :=
  if adam then div32 (div32 (nextMoment1 hp k g0 e) k.bc1)
    (add32 (sqrt32 (div32 (nextMoment2 adam hp k g0 e) k.bc2)) hp.eps)
  else div32 (nextMoment1 hp k g0 e) k.bc1

/-- The computed master wn, before the clamp (R234). -/
def unclampedMaster : Word := sub32 (mul32 e.w k.dk) (mul32 k.eta (updateDir adam hp k g0 e))

variable {adam hp k g0 e}

theorem applyElem_of_nan (h : val32 (unclampedMaster adam hp k g0 e) = .nan) :
    applyElem adam hp k g0 e = ({ e with wc := narrow32 e.w }, 0, 1) :=
  if_pos (Num.isNan_iff.mpr h)

theorem applyElem_of_beyond (hn : val32 (unclampedMaster adam hp k g0 e) ≠ .nan)
    (hb : exceeds (unclampedMaster adam hp k g0 e) hp.mclamp = true) :
    applyElem adam hp k g0 e =
      ({ w := limitTo (unclampedMaster adam hp k g0 e) hp.mclamp, m := nextMoment1 hp k g0 e,
         v := nextMoment2 adam hp k g0 e, wc := narrow32 (limitTo (unclampedMaster adam hp k g0 e) hp.mclamp) }, 1, 0) :=
  (if_neg (mt Num.isNan_iff.mp hn)).trans (if_pos hb)

theorem applyElem_of_within (hn : val32 (unclampedMaster adam hp k g0 e) ≠ .nan)
    (hb : exceeds (unclampedMaster adam hp k g0 e) hp.mclamp = false) :
    applyElem adam hp k g0 e =
      ({ w := unclampedMaster adam hp k g0 e, m := nextMoment1 hp k g0 e, v := nextMoment2 adam hp k g0 e,
         wc := narrow32 (unclampedMaster adam hp k g0 e) }, 0, 0) :=
  (if_neg (mt Num.isNan_iff.mp hn)).trans (if_neg (Bool.eq_false_iff.mp hb))

end Element

/-! ### The counted events (R241) -/

theorem satAdd_lt (w x n : Nat) : satAdd w x n < 2 ^ w := by
  have hpos : 0 < 2 ^ w := Nat.two_pow_pos w
  rw [satAdd]
  omega

theorem addPair_div (w hi lo : Nat) : addPair w hi lo / 65536 = min (w / 65536 + hi) 65535 := by
  have hlo : satAdd 16 (w % 65536) lo < 65536 := satAdd_lt 16 _ _
  have hhi : satAdd 16 (w / 65536) hi = min (w / 65536 + hi) 65535 := rfl
  rw [addPair]
  omega

theorem addPair_mod (w hi lo : Nat) : addPair w hi lo % 65536 = min (w % 65536 + lo) 65535 := by
  have hlo : satAdd 16 (w % 65536) lo = min (w % 65536 + lo) 65535 := rfl
  rw [addPair]
  omega

/-- Without events a pair of 16-bit counters stays: none of them stands above its largest value. -/
theorem addPair_zero {w : Nat} (hw : w < 2 ^ 32) : addPair w 0 0 = w := by
  have hdiv := addPair_div w 0 0
  have hmod := addPair_mod w 0 0
  omega

section Count

variable {s : State} {c clamp nan : Nat}

theorem countMaster_of_none (h : clamp + nan = 0) : countMaster s c clamp nan = s := if_pos h

theorem countMaster_of_some (h : clamp + nan ≠ 0) :
    countMaster s c clamp nan = modCtx s c (fun x => { x with masterev := addPair x.masterev clamp nan }) := if_neg h

theorem masterev_countMaster (hw : (getCtx s c).masterev < 2 ^ 32) :
    (getCtx (countMaster s c clamp nan) c).masterev = addPair (getCtx s c).masterev clamp nan := by
  by_cases h : clamp + nan = 0
  · obtain ⟨rfl, rfl⟩ : clamp = 0 ∧ nan = 0 := by omega
    rw [countMaster_of_none h, addPair_zero hw]
  · rw [countMaster_of_some h, getCtx_modCtx]

/-- The count is in the contexts alone: no fault, no event, no other part. -/
theorem countMaster_onlyCtx : countMaster s c clamp nan = { s with ctx := (countMaster s c clamp nan).ctx } := by
  by_cases h : clamp + nan = 0
  · rw [countMaster_of_none h]
  · rw [countMaster_of_some h]
    rfl

theorem getCtx_countMaster_other {j : Nat} (hj : j ≠ c) : getCtx (countMaster s c clamp nan) j = getCtx s j := by
  by_cases h : clamp + nan = 0
  · rw [countMaster_of_none h]
  · rw [countMaster_of_some h, getCtx_modCtx_other s _ hj]

end Count

/-- Settles O19: the three ends of `applyElem`, and `countMaster` as a sum of saturating counters in one context. -/
theorem masterClamp : Obligations.MasterClamp := by
  unfold Obligations.MasterClamp
  refine ⟨fun adam hp k g0 e => ⟨fun hnan => ?_, fun hn hb => ?_, fun hn hb => ?_⟩, fun s c clamp nan hw => ⟨?_, ?_, ?_, ?_⟩⟩
  · rw [applyElem_of_nan hnan]
    exact ⟨rfl, rfl, rfl, rfl⟩
  · rw [applyElem_of_beyond hn hb]
    exact ⟨rfl, rfl, rfl, rfl⟩
  · rw [applyElem_of_within hn hb]
    exact ⟨rfl, rfl, rfl, rfl⟩
  · rw [masterev_countMaster hw, addPair_div]
  · rw [masterev_countMaster hw, addPair_mod]
  · exact countMaster_onlyCtx
  · exact fun _ hj => getCtx_countMaster_other hj

end Sys2Proof.Machine
end

section
/-! SUPPORT and proof of O13: what an instruction of a thread leaves alone (R317, R319, R322), an operation at another module's banks
(R296, R313, R332), and a wait on a semaphore with the stamp of a Bell as its deadline (R333). -/

namespace Sys2Proof.Machine

/-! ### One thread changes, or none -/

section Thread

variable {s u v : State} {n t m k len rd : Nat}

theorem getCore_of_core (h : u.core = s.core) : getCore u n = getCore s n := by
  unfold getCore
  rw [h]

theorem getThr_of_core (h : u.core = s.core) : getThr u n t = getThr s n t := by
  rw [getThr, getCore_of_core h, getThr]

theorem onlyThread_of_core (h : u.core = s.core) : OnlyThread s u n t := fun _ _ _ => getThr_of_core h

theorem onlyThread_modThr (f : Thr → Thr) : OnlyThread s (modThr s n t f) n t := fun _ _ h => getThr_modThr_other s f h

theorem OnlyThread.trans (h : OnlyThread s u n t) (h' : OnlyThread u v n t) : OnlyThread s v n t :=
  fun m k hne => (h' m k hne).trans (h m k hne)

theorem onlyThread_wake {x : DWord} : OnlyThread s (wake s n t rd x) n t := onlyThread_modThr _

@[simp] theorem setX_state {h : Thr} {x : DWord} : (setX h rd x).state = h.state := by
  unfold setX
  split <;> rfl

/-- A thread that waits and is not suspended is READY with its result (R322). -/
theorem getThr_wake {x : DWord} (h : (getThr s n t).state ≠ .suspended) :
    getThr (wake s n t rd x) n t = { setX (getThr s n t) rd x with state := .ready, wait := .none } := by
  simp [wake, h]

/-! ### Issue (R317, R319) -/

theorem issue_of_mayIssue (h : mayIssue s n t = true) (f : State → State) : issue s n t f = f s := if_pos h

theorem ready_of_mayIssue (h : mayIssue s n t = true) : (getThr s n t).state = .ready := by
  simp only [mayIssue, Bool.and_eq_true, beq_iff_eq] at h
  exact h.1

@[simp] theorem getThr_instrDone : getThr (instrDone s n t len) n t = { getThr s n t with
    pc := (getThr s n t).pc + BitVec.ofNat 64 len, instret := wrap 64 ((getThr s n t).instret + 1) } :=
  getThr_modThr s n t _

@[simp] theorem instrDone_rc : (instrDone s n t len).rc = s.rc := modThr_rc s n t _

@[simp] theorem wake_rc {x : DWord} : (wake s n t rd x).rc = s.rc := modThr_rc s n t _

theorem getSem_of_rc {i : Nat} (h : u.rc = s.rc) : getSem u i = getSem s i := by
  unfold getSem
  rw [h]

theorem onlyThread_instrDone : OnlyThread s (instrDone s n t len) n t := onlyThread_modThr _

/-- An instruction that retires and then changes its own thread. -/
theorem onlyThread_instrDone_modThr (f : Thr → Thr) : OnlyThread s (modThr (instrDone s n t len) n t f) n t :=
  onlyThread_instrDone.trans (onlyThread_modThr f)

/-- It changes its core and no other part. -/
theorem instrDone_modThr_frame (f : Thr → Thr) : modThr (instrDone s n t len) n t f =
    { s with core := (modThr (instrDone s n t len) n t f).core } := rfl

end Thread

/-! ### An operation at another module's bank (R296, R313) -/

section Remote

variable {s : State} {type dst body : Nat}

/-- A frame that a module sends by its route, or the fault of having none, leaves the threads and, but for the transmit queue, the
Roll call alone. -/
theorem syncRoute_spec : (syncRoute s type dst body).core = s.core
    ∧ (syncRoute s type dst body).rc = { s.rc with txq := (syncRoute s type dst body).rc.txq } := by
  unfold syncRoute
  split
  · exact ⟨rfl, rfl⟩
  · rw [(raise_spec s .routeNone _).2.2]
    exact ⟨rfl, rfl⟩

theorem getThr_syncRoute {m k : Nat} : getThr (syncRoute s type dst body) m k = getThr s m k := getThr_of_core syncRoute_spec.1

variable {n t lmn sem operand timeout rd : Nat} {op : RcOp}

/-- The thread waits for its request, which is the last of the outstanding ones; no bank of this module changes. -/
theorem remoteOp_spec : (getThr (remoteOp s n t lmn op sem operand timeout rd) n t).state = .waitRc
    ∧ (∃ o : OutReq, (remoteOp s n t lmn op sem operand timeout rd).rc.out = s.rc.out ++ [o] ∧ o.lmn = lmn ∧ o.tok.op = op
        ∧ o.tok.sem = sem ∧ o.tok.operand = operand)
    ∧ (remoteOp s n t lmn op sem operand timeout rd).rc.sem = s.rc.sem
    ∧ (remoteOp s n t lmn op sem operand timeout rd).rc.bar = s.rc.bar
    ∧ OnlyThread s (remoteOp s n t lmn op sem operand timeout rd) n t := by
  unfold remoteOp
  refine ⟨?_, ?_, ?_, ?_, ?_⟩
  · rw [getThr_syncRoute, waitRc, getThr_modThr]
  · rw [syncRoute_spec.2]
    exact ⟨_, rfl, rfl, rfl, rfl, rfl⟩
  · rw [syncRoute_spec.2]
    rfl
  · rw [syncRoute_spec.2]
    rfl
  · intro m k hne
    rw [getThr_syncRoute, waitRc, getThr_modThr_other _ _ hne]
    rfl

end Remote

/-! ### SLV.RC (R332) -/

section SlvRc

variable {s : State} {n t rd rs1 rs2 : Nat} {op : RcOp} (hi : mayIssue s n t = true) (hop : rcOpOf (bits rs1 28 4) = some op)
include hi hop

theorem exec_slvRc_own (hl : isOwnLmn s (bits rs1 16 10) = true) : exec (.slvRc n t rd rs1 rs2) s =
    .next (rcRow s op (.mesh n t (bits rs1 0 16) (bits rs2 0 32) (bits rs1 32 32) rd)) := by
  have hl' : isOwnLmn (instrDone s n t 4) (bits rs1 16 10) = true := hl
  show Host.Outcome.next (issue s n t fun s => slvRc s n t rd rs1 rs2) = _
  simp [rcRow, slvRc, issue_of_mayIssue hi, hop, hl']

theorem exec_slvRc_remote (hb : op ≠ .barRelease) (hl : isOwnLmn s (bits rs1 16 10) = false) :
    exec (.slvRc n t rd rs1 rs2) s = .next (remoteOp (instrDone s n t 4) n t (bits rs1 16 10) op (bits rs1 0 16) (bits rs2 0 32)
      (bits rs1 32 32) rd) := by
  have hl' : isOwnLmn (instrDone s n t 4) (bits rs1 16 10) = false := hl
  show Host.Outcome.next (issue s n t fun s => slvRc s n t rd rs1 rs2) = _
  simp [slvRc, issue_of_mayIssue hi, hop, hl', hb]

end SlvRc

/-- A BAR_RELEASE for another module's barrier is answered MALFORMED at once (R297). -/
theorem exec_slvRc_barRelease {s : State} {n t rd rs1 rs2 : Nat} (hi : mayIssue s n t = true)
    (hop : rcOpOf (bits rs1 28 4) = some .barRelease) (hl : isOwnLmn s (bits rs1 16 10) = false) :
    exec (.slvRc n t rd rs1 rs2) s = .next (modThr (instrDone s n t 4) n t (fun h => setX h rd
      (rcResult 6 (openFlags s 6 (bits rs1 0 16)) (openValue s 6 (bits rs1 0 16))))) := by
  have hl' : isOwnLmn (instrDone s n t 4) (bits rs1 16 10) = false := hl
  show Host.Outcome.next (issue s n t fun s => slvRc s n t rd rs1 rs2) = _
  simp only [slvRc, issue_of_mayIssue hi, hop, hl', Bool.false_eq_true, if_false, if_true]
  rfl

theorem openFlags_lt {s : State} {st i : Nat} : openFlags s st i < 16 :=
  Nat.div_lt_of_lt_mul (lt_of_lt_of_eq (Config.openReply st i (now s)).isLt (by norm_num))

theorem openValue_lt {s : State} {st i : Nat} : openValue s st i < 2 ^ 32 := Nat.mod_lt _ (by norm_num)

/-! ### SLV.BWAIT UNTIL and its wake-up (R333) -/

section Until

variable {s : State} {n t rd bell : Nat}

theorem exec_slvBwaitUntil (hi : mayIssue s n t = true) : exec (.slvBwaitUntil n t rd bell) s = .next (
    if counting s = true ∧ bell ≤ s.bell.count then
      modThr (instrDone s n t 4) n t (fun h => setX h rd (BitVec.ofNat 64 (now s)))
    else modThr (instrDone s n t 4) n t (fun h => { h with state := .waitBell, wait := .bell bell rd })) := by
  show Host.Outcome.next (issue s n t _) = _
  rw [issue_of_mayIssue hi]
  simp only [Bool.and_eq_true, decide_eq_true_eq]
  rfl

theorem exec_bwaitWake (hs : (getThr s n t).state = .waitBell) (hw : (getThr s n t).wait = .bell bell rd)
    (hc : counting s = true) (hb : bell ≤ s.bell.count) :
    exec (.bwaitWake n t) s = .next (wake s n t rd (BitVec.ofNat 64 (now s))) := by
  show Host.Outcome.next (if (getThr s n t).state = .waitBell then bellWake s n t else s) = _
  simp [hs, bellWake, hw, hc, hb]

end Until

/-! ### SLV.BWAIT SEMWAIT (R333) -/

section Semwait

variable {s : State} {n t rd bell rs2 : Nat}

/-- The operation of a SEMWAIT: a WAIT_GE of this module's semaphore, in the epoch of its bank. -/
def semwaitTok (s : State) (n t rs2 : Nat) : Token :=
  let tok := threadTok (instrDone s n t 4) n t .waitGe (bits rs2 0 16) (bits rs2 16 32) 1
  { tok with epoch := bankEpoch s tok.bank, bellWait := true }

/-- The state in which it comes to the bank: the instruction has retired and the thread waits in WAIT_BELL. -/
def semwaitState (s : State) (n t rd : Nat) : State :=
  modThr (instrDone s n t 4) n t (fun h => { h with state := .waitBell, wait := .rc 0 rd })

theorem exec_slvBwaitSemwait (hi : mayIssue s n t = true) : exec (.slvBwaitSemwait n t rd bell rs2) s =
    .next (bankOp (semwaitState s n t rd) (semwaitTok s n t rs2) (some (stampOf bell 0))) := by
  show Host.Outcome.next (issue s n t _) = _
  rw [issue_of_mayIssue hi]
  rfl

theorem getThr_semwaitState : getThr (semwaitState s n t rd) n t = { getThr s n t with
    pc := (getThr s n t).pc + 4, instret := wrap 64 ((getThr s n t).instret + 1), state := .waitBell, wait := .rc 0 rd } := by
  rw [semwaitState, getThr_modThr, getThr_instrDone]
  rfl

@[simp] theorem semwaitState_rc : (semwaitState s n t rd).rc = s.rc := by rw [semwaitState, modThr_rc, instrDone_rc]

@[simp] theorem semwaitState_bell : (semwaitState s n t rd).bell = s.bell := by
  rw [semwaitState, modThr_bell, instrDone, modThr_bell]

theorem onlyThread_semwaitState : OnlyThread s (semwaitState s n t rd) n t := onlyThread_instrDone_modThr _

/-- The status of a grant judged by a running Bell: OK before its deadline, LATE at it, TIMEOUT after it (R251, R298). -/
theorem grantStatus_of_counting (hc : counting s = true) (d : Nat) :
    grantStatus s (some d) = if now s < d then 0 else if now s = d then 1 else 2 := by
  rw [grantStatus, judgeNow, if_pos hc, judge]
  split_ifs <;> rfl

theorem counting_of_bell {u : State} (h : u.bell = s.bell) : counting u = counting s := by
  unfold counting
  rw [h]

theorem now_of_bell {u : State} (h : u.bell = s.bell) : now u = now s := by
  rw [now, now, counting_of_bell h, h]

/-- A grant is judged by the Bell alone. -/
theorem grantStatus_of_bell {u : State} (h : u.bell = s.bell) {d : Option Nat} : grantStatus u d = grantStatus s d := by
  rw [grantStatus, grantStatus, judgeNow, judgeNow, counting_of_bell h, now_of_bell h]

/-- A WAIT_GE in the current epoch, of a requester that reaches its semaphore (R294, R297, R311). -/
theorem bankOp_waitGe {tok : Token} {d : Option Nat} (hop : tok.op = .waitGe) (he : tok.epoch = bankEpoch s tok.bank)
    (hr : reaches tok (getSem s tok.sem).alloc (getSem s tok.sem).scope (getSem s tok.sem).ptn (getSem s tok.sem).form = true)
    (hne : tok.sem ≠ 0xFFFF) : bankOp s tok d =
      if tok.operand ≤ (getSem s tok.sem).value then answerSem s tok (grantStatus s d) else enterWait s tok d := by
  simp [bankOp, he, hop, RcOp.onBar, semOp, hr, hne]

theorem bankOp_semwait (hr : ReachesSem s n t (bits rs2 0 16)) {d : Option Nat} :
    bankOp (semwaitState s n t rd) (semwaitTok s n t rs2) d =
      if bits rs2 16 32 ≤ (getSem s (bits rs2 0 16)).value then
        answerSem (semwaitState s n t rd) (semwaitTok s n t rs2) (grantStatus s d)
      else enterWait (semwaitState s n t rd) (semwaitTok s n t rs2) d := by
  obtain ⟨-, halloc, hptn, hne⟩ := hr
  have hsem : getSem (semwaitState s n t rd) (semwaitTok s n t rs2).sem = getSem s (bits rs2 0 16) := getSem_of_rc semwaitState_rc
  have hreach : reaches (semwaitTok s n t rs2) (getSem s (bits rs2 0 16)).alloc (getSem s (bits rs2 0 16)).scope
      (getSem s (bits rs2 0 16)).ptn (getSem s (bits rs2 0 16)).form = true := by
    rw [reaches, halloc, hptn]
    exact beq_self_eq_true (α := Nat) _
  rw [bankOp_waitGe rfl rfl (by rw [hsem, hreach]) hne, hsem, grantStatus_of_bell semwaitState_bell]
  rfl

/-- The thread is READY again with the operation's result (R298, R332). -/
theorem answerSem_semwait {st : Nat} :
    Replied s (answerSem (semwaitState s n t rd) (semwaitTok s n t rs2) st) n t rd st (getSem s (bits rs2 0 16)).flags
      (getSem s (bits rs2 0 16)).value
    ∧ (answerSem (semwaitState s n t rd) (semwaitTok s n t rs2) st).rc = s.rc
    ∧ OnlyThread s (answerSem (semwaitState s n t rd) (semwaitTok s n t rs2) st) n t := by
  have heq : answerSem (semwaitState s n t rd) (semwaitTok s n t rs2) st = wake (semwaitState s n t rd) n t rd
      (rcResult st (getSem s (bits rs2 0 16)).flags (getSem s (bits rs2 0 16)).value) := by
    show wake _ n t (rcRd (getThr (semwaitState s n t rd) n t)) (rcResult st (getSem (semwaitState s n t rd) _).flags _) = _
    rw [getThr_semwaitState, getSem_of_rc semwaitState_rc]
    rfl
  rw [heq]
  refine ⟨?_, wake_rc.trans semwaitState_rc, onlyThread_semwaitState.trans onlyThread_wake⟩
  rw [Replied, getThr_wake (by simp [getThr_semwaitState]), getThr_semwaitState]
  unfold setX
  split <;> rfl

/-- A thread's WAIT_GE with a TIMEOUT that is not satisfied enters the table of waits (R300). -/
theorem enterWait_waitGe {tok : Token} {d : Option Nat} (hop : tok.op = .waitGe) (htimeout : tok.timeout ≠ 0)
    (hsrc : tok.src = .thread n t) : (enterWait s tok d).core = s.core
    ∧ (enterWait s tok d).rc = { s.rc with waits := s.rc.waits ++ [{ tok := tok, arrival := now s, deadline := d }] } := by
  simp [enterWait, hop, htimeout, waitFull, hsrc]

theorem enterWait_semwait {d : Option Nat} :
    (enterWait (semwaitState s n t rd) (semwaitTok s n t rs2) d).core = (semwaitState s n t rd).core
    ∧ (enterWait (semwaitState s n t rd) (semwaitTok s n t rs2) d).rc =
        { s.rc with waits := s.rc.waits ++ [{ tok := semwaitTok s n t rs2, arrival := now s, deadline := d }] } := by
  obtain ⟨hcore, hrc⟩ := enterWait_waitGe (s := semwaitState s n t rd) (tok := semwaitTok s n t rs2) (d := d) rfl one_ne_zero rfl
  rw [semwaitState_rc, now_of_bell semwaitState_bell] at hrc
  exact ⟨hcore, hrc⟩

end Semwait

/-- Settles O13, by the lemmas on SLV.RC, BWAIT UNTIL and BWAIT SEMWAIT above. -/
theorem rollCallInstructions : Obligations.RollCallInstructions := by
  unfold Obligations.RollCallInstructions
  refine ⟨fun s n t rd hi => ⟨?own, ?barRelease, ?remote, ?begun, ?sleeps, ?reached, ?waits⟩, ?wake⟩
  case own => exact fun rs1 rs2 op hop hl => exec_slvRc_own hi hop hl
  case barRelease =>
    intro rs1 rs2 hop hl
    refine ⟨_, exec_slvRc_barRelease hi hop hl, ⟨openFlags s 6 (bits rs1 0 16), openValue s 6 (bits rs1 0 16),
      openFlags_lt, openValue_lt, ?_⟩, (modThr_rc ..).trans instrDone_rc, onlyThread_instrDone_modThr _⟩
    rw [getThr_modThr, getThr_instrDone]
    rfl
  case remote =>
    intro rs1 rs2 op hop hb hl
    obtain ⟨hstate, hout, hsem, hbar, honly⟩ := remoteOp_spec (s := instrDone s n t 4) (n := n) (t := t) (lmn := bits rs1 16 10)
      (op := op) (sem := bits rs1 0 16) (operand := bits rs2 0 32) (timeout := bits rs1 32 32) (rd := rd)
    exact ⟨_, exec_slvRc_remote hi hop hb hl, hstate, hout, hsem, hbar, onlyThread_instrDone.trans honly⟩
  case begun =>
    intro bell hc hb
    refine ⟨_, (exec_slvBwaitUntil hi).trans (congrArg _ (if_pos ⟨hc, hb⟩)), ?_, instrDone_modThr_frame _,
      onlyThread_instrDone_modThr _⟩
    rw [getThr_modThr, getThr_instrDone]
    rfl
  case sleeps =>
    intro bell hn
    refine ⟨_, (exec_slvBwaitUntil hi).trans (congrArg _ (if_neg hn)), ?_, ?_, instrDone_modThr_frame _,
      onlyThread_instrDone_modThr _⟩
    · rw [getThr_modThr]
    · rw [getThr_modThr]
  case reached =>
    intro bell rs2 hr hv hc
    refine ⟨_, (exec_slvBwaitSemwait hi).trans (congrArg _ ((bankOp_semwait hr).trans (if_pos hv))), ?_⟩
    rw [grantStatus_of_counting hc]
    exact answerSem_semwait
  case waits =>
    intro bell rs2 hr hv
    refine ⟨_, (exec_slvBwaitSemwait hi).trans (congrArg _ ((bankOp_semwait hr).trans (if_neg (not_le.2 hv)))), ?_,
      ⟨_, enterWait_semwait.2, rfl, rfl, rfl, rfl, rfl⟩,
      onlyThread_semwaitState.trans (onlyThread_of_core enterWait_semwait.1)⟩
    rw [getThr_of_core enterWait_semwait.1, getThr_semwaitState]
  case wake =>
    intro s n t bell rd hs hw hc hb
    refine ⟨_, exec_bwaitWake hs hw hc hb, ?_, rfl, onlyThread_wake⟩
    exact getThr_wake (by rw [hs]; decide)

end Sys2Proof.Machine
end

section
/-! SUPPORT and proof of O24: what placing a group does to its core and to its launcher (R335, R337), the order of the queued launches
(R336), and the end of a thread and of its group (R338). -/

namespace Sys2Proof.Machine

/-! ### Threads and cores -/

section Parts

variable {s u : State} {n m t k : Nat}

/-- A function writes within the parts that it writes. -/
theorem Within.refl (w : List Part) : Within w w := List.Subset.refl w

theorem getThr_of_kept {w : List Part} (h : Kept w s u) (hc : Part.core ∉ w) : getThr u n t = getThr s n t :=
  getThr_of_core (h.rest .core hc)

theorem getThr_modCore_other {f : Core → Core} (h : m ≠ n) : getThr (modCore s n f) m k = getThr s m k := by
  unfold getThr
  rw [getCore_modCore_other s f h]

/-- A change of a core's other fields leaves its threads. -/
theorem getThr_modCore_of_thr {f : Core → Core} (hf : ∀ c, (f c).thr = c.thr) : getThr (modCore s n f) m k = getThr s m k := by
  by_cases hm : m = n
  · subst hm
    rw [getThr, getCore_modCore, hf, getThr]
  · exact getThr_modCore_other hm

@[simp] theorem setX_pc {h : Thr} {r : Nat} {x : DWord} : (setX h r x).pc = h.pc := by
  unfold setX
  split <;> rfl

@[simp] theorem setX_mmode {h : Thr} {r : Nat} {x : DWord} : (setX h r x).mmode = h.mmode := by
  unfold setX
  split <;> rfl

@[simp] theorem setX_ctx {h : Thr} {r : Nat} {x : DWord} : (setX h r x).ctx = h.ctx := by
  unfold setX
  split <;> rfl

@[simp] theorem setX_mtvec {h : Thr} {r : Nat} {x : DWord} : (setX h r x).mtvec = h.mtvec := by
  unfold setX
  split <;> rfl

theorem mem_countFrom {lo : Nat} : k ∈ countFrom lo n ↔ lo ≤ k ∧ k < lo + n := by
  induction n generalizing lo with
  | zero =>
    simp only [countFrom, List.not_mem_nil, false_iff]
    omega
  | succ n ih =>
    simp only [countFrom, List.mem_cons, ih]
    omega

/-- What holds of the default value and of every value listed in a table holds of what the table reads. -/
theorem tget_of_forall {α : Type} {P : α → Prop} {d : α} {a : Tbl α} (hd : P d) (h : ∀ e ∈ a, P e.2) : P (tget d a n) := by
  induction a with
  | nil => exact hd
  | cons e a ih =>
    obtain ⟨j, x⟩ := e
    rw [tget_cons]
    split
    · exact h (j, x) (by simp)
    · exact ih fun e he => h e (by simp [he])

end Parts

/-! ### Reading a descriptor (R327, R345) -/

section Descriptor

variable {s s1 : State} {n t m k ga : Nat} {d : List Byte}

/-- A read leaves the threads: memory, its error states and tags may change, and a core's count of wrong tags. -/
theorem getThr_readAs {i : Issuer} {p : Place} {len : Nat} : getThr (readAs s i p len).st m k = getThr s m k := by
  have herrs : getThr (readErrs s p len false).1 m k = getThr s m k :=
    getThr_of_kept (readErrs_kept (Kept.refl _ s) (Within.refl _)) (by decide)
  unfold readAs
  dsimp only
  split
  · split
    · exact herrs
    · refine Eq.trans (getThr_modCore_of_thr ?_) (Eq.trans ?_ herrs)
      · exact fun _ => rfl
      refine getThr_of_kept (w := [.mem, .memErr, .tags, .resv]) (forEach_kept (Kept.refl _ _) fun v x hv => ?_) (by decide)
      exact Kept.set_tags (store_kept hv (Part.sub (Within.refl _) rfl)) (by decide)
  · exact herrs

theorem getThr_threadRead {len : Nat} (h : threadRead s n t ga len = .ok (s1, d)) : getThr s1 m k = getThr s m k := by
  unfold threadRead at h
  dsimp only at h
  split at h
  · split at h
    · cases h
      exact getThr_readAs
    · cases h
  · cases h
  · cases h

theorem getThr_threadDesc (h : threadDesc s n t ga = .ok (s1, d)) : getThr s1 m k = getThr s m k := by
  unfold threadDesc at h
  split at h
  · split at h
    · exact getThr_threadRead h
    · cases h
  · cases h

end Descriptor

/-! ### Free cores (R335) -/

section Free

variable {s : State} {p n m t k len : Nat} {r : Bool} {l : Launch}

theorem states_of_coreFree (h : coreFree s p r n = true) :
    ∀ e ∈ (getCore s n).thr, e.2.state = .idle ∨ e.2.state = .halted := by
  intro e he
  simp only [coreFree, Bool.and_eq_true, List.all_eq_true, Bool.or_eq_true, beq_iff_eq] at h
  obtain ⟨⟨⟨⟨-, hthr⟩, -⟩, -⟩, -⟩ := h
  exact (hthr e he).imp id And.right

/-- A core with a READY thread is not free. -/
theorem coreFree_of_ready (h : (getThr s n t).state = .ready) : coreFree s p r n = false := by
  refine Bool.eq_false_iff.2 fun hf => ?_
  have hstate : (getThr s n t).state = .idle ∨ (getThr s n t).state = .halted :=
    tget_of_forall (P := fun h : Thr => h.state = .idle ∨ h.state = .halted) (.inl rfl) (states_of_coreFree hf)
  rw [h] at hstate
  rcases hstate with h | h <;> cases h

theorem coreFree_modThr_other {f : Thr → Thr} (h : k ≠ n) : coreFree (modThr s n t f) p r k = coreFree s p r k := by
  simp only [coreFree, ptnOfCore, inActiveService, inService, modThr, getCore_modCore_other s _ h]
  rfl

theorem coreFree_of_freeCore (h : freeCore s p l = some m) : coreFree s p l.byRuntime m = true := List.find?_some h

/-- An instruction of a READY thread that retires leaves the choice of a free core: its own core is free neither before nor after. -/
theorem freeCore_instrDone (h : (getThr s n t).state = .ready) : freeCore (instrDone s n t len) p l = freeCore s p l := by
  have hfree : coreFree (instrDone s n t len) p l.byRuntime = coreFree s p l.byRuntime := by
    funext k
    by_cases hk : k = n
    · subst hk
      rw [coreFree_of_ready h, coreFree_of_ready (t := t) (by rw [getThr_instrDone]; exact h)]
    · exact coreFree_modThr_other hk
  rw [freeCore, hfree]
  rfl

end Free

/-! ### Placing a group (R334, R335, R337) -/

section Place

variable {s : State} {p m k : Nat} {l : Launch} {i : Issuer}

/-- A thread of a launched group has the fields that its launch names. -/
theorem startThread_spec {h : Thr} : (startThread s p l k h).pc = BitVec.ofNat 64 l.entry
    ∧ (startThread s p l k h).mmode = l.mmode ∧ (startThread s p l k h).ctx = l.ctx
    ∧ (startThread s p l k h).mtvec = BitVec.ofNat 64 l.trap
    ∧ ((startThread s p l k h).state = .ready ∨ (startThread s p l k h).state = .suspended)
    ∧ getX (startThread s p l k h) 10 = BitVec.ofNat 64 l.arg ∧ getX (startThread s p l k h) 11 = BitVec.ofNat 64 k
    ∧ getX (startThread s p l k h) 2 = BitVec.ofNat 64 (l.spBase + k * l.spStride) := by
  simp only [startThread, setX_pc, setX_mmode, setX_ctx, setX_mtvec, setX_state, true_and]
  refine ⟨?_, ?_, ?_, ?_⟩
  · split
    · exact .inr rfl
    · exact .inl rfl
  · rw [getX_setX_other _ 2 10 _ (by decide), getX_setX_other _ 11 10 _ (by decide), getX_setX_same _ 10 _ (by decide)]
  · rw [getX_setX_other _ 2 11 _ (by decide), getX_setX_same _ 11 _ (by decide)]
  · rw [getX_setX_same _ 2 _ (by decide)]

/-- The threads of a group start on their core, one after the other. -/
def startThreads (s : State) (p : Nat) (l : Launch) (m : Nat) (xs : List Nat) : State :=
  forEach xs (fun s k => modThr (dropResv s m k) m k (startThread s p l k)) s

theorem getThr_startThreads_other {xs : List Nat} {n t : Nat} (h : n ≠ m ∨ t ∉ xs) :
    getThr (startThreads s p l m xs) n t = getThr s n t := by
  induction xs generalizing s with
  | nil => rfl
  | cons x xs ih =>
    have hxs : n ≠ m ∨ t ∉ xs := h.imp id fun ht hx => ht (List.mem_cons_of_mem _ hx)
    have hne : (n, t) ≠ (m, x) := by
      rintro ⟨⟩
      exact h.elim (· rfl) (· (List.mem_cons_self ..))
    exact (ih hxs).trans (getThr_modThr_other _ _ hne)

theorem getThr_startThreads {xs : List Nat} (h : k ∈ xs) :
    ∃ v g, getThr (startThreads s p l m xs) m k = startThread v p l k g := by
  induction xs generalizing s with
  | nil => cases h
  | cons x xs ih =>
    by_cases hk : k ∈ xs
    · exact ih hk
    · obtain rfl : k = x := (List.mem_cons.1 h).resolve_right hk
      exact ⟨s, _, (getThr_startThreads_other (.inr hk)).trans (getThr_modThr ..)⟩

/-- The core's HALTED threads end. -/
def endHalted (s : State) (m : Nat) : State :=
  modCore s m (fun c => { c with thr := tmap default c.thr (fun _ h =>
    if h.state == .halted then { h with state := .idle, resume := .idle, wait := .none } else h) })

/-- On a free core no thread is left but IDLE ones. -/
theorem idle_endHalted {r : Bool} (h : coreFree s p r m = true) : (getThr (endHalted s m) m k).state = .idle := by
  unfold getThr endHalted
  rw [getCore_modCore]
  refine tget_of_forall (P := fun h : Thr => h.state = .idle) rfl fun e he => ?_
  obtain ⟨e', he', hsome⟩ := List.mem_filterMap.1 he
  simp only [Option.ite_none_left_eq_some, Option.some.injEq] at hsome
  obtain ⟨-, rfl⟩ := hsome
  rcases states_of_coreFree h e' he' with hs | hs
  · simp [hs]
  · simp [hs]

/-- The state in which a group has been placed, its launcher not yet answered. -/
def groupPlaced (s : State) (p : Nat) (l : Launch) (m : Nat) : State :=
  modCore (startThreads (endHalted s m) p l m (countFrom 0 l.nthreads)) m (fun c =>
    { c with group := some { live := countFrom 0 l.nthreads, doneSem := l.doneSem, ctx := l.ctx, ptn := p } })

theorem placeGroup_of_issuer (hi : l.issuer = some i) :
    placeGroup s p l m = wake (groupPlaced s p l m) i.core i.thr l.rd (BitVec.ofNat 64 (m * 65536)) := by
  simp only [placeGroup, hi]
  rfl

theorem getThr_groupPlaced_other {n t : Nat} (h : n ≠ m) : getThr (groupPlaced s p l m) n t = getThr s n t :=
  (getThr_modCore_other h).trans ((getThr_startThreads_other (.inl h)).trans (getThr_modCore_other h))

theorem placeGroup_mem : (placeGroup s p l m).mem = s.mem :=
  (placeGroup_kept (Kept.refl _ s) (Within.refl _)).rest .mem (by decide)

theorem placeGroup_ptn : (placeGroup s p l m).ptn = s.ptn :=
  (placeGroup_kept (Kept.refl _ s) (Within.refl _)).rest .ptn (by decide)

variable (hi : l.issuer = some i) (hne : i.core ≠ m)
include hi hne

theorem getCore_placeGroup : getCore (placeGroup s p l m) m = getCore (groupPlaced s p l m) m := by
  rw [placeGroup_of_issuer hi]
  exact getCore_modCore_other _ _ hne.symm

theorem getThr_placeGroup : getThr (placeGroup s p l m) m k =
    getThr (startThreads (endHalted s m) p l m (countFrom 0 l.nthreads)) m k := by
  rw [getThr, getCore_placeGroup hi hne]
  exact getThr_modCore_of_thr fun _ => rfl

theorem group_placeGroup : (getCore (placeGroup s p l m) m).group =
    some { live := countFrom 0 l.nthreads, doneSem := l.doneSem, ctx := l.ctx, ptn := p } := by
  rw [getCore_placeGroup hi hne, groupPlaced, getCore_modCore]

theorem getThr_placeGroup_started (hk : k < l.nthreads) :
    ∃ v g, getThr (placeGroup s p l m) m k = startThread v p l k g := by
  rw [getThr_placeGroup hi hne]
  exact getThr_startThreads (mem_countFrom.2 ⟨Nat.zero_le _, by omega⟩)

theorem idle_placeGroup {r : Bool} (hf : coreFree s p r m = true) (hk : l.nthreads ≤ k) :
    (getThr (placeGroup s p l m) m k).state = .idle := by
  have hnot : k ∉ countFrom 0 l.nthreads := fun h => by have := (mem_countFrom.1 h).2; omega
  rw [getThr_placeGroup hi hne, getThr_startThreads_other (.inr hnot)]
  exact idle_endHalted hf

theorem getThr_placeGroup_issuer (hs : (getThr s i.core i.thr).state ≠ .suspended) :
    getThr (placeGroup s p l m) i.core i.thr =
      { setX (getThr s i.core i.thr) l.rd (BitVec.ofNat 64 (m * 65536)) with state := .ready, wait := .none } := by
  rw [placeGroup_of_issuer hi, getThr_wake (by rwa [getThr_groupPlaced_other hne]), getThr_groupPlaced_other hne]

end Place

/-! ### The queue of launches (R336) -/

section Queue

variable {s : State} {p m : Nat} {l : Launch}

theorem launchBefore_iff {a b : Launch} : launchBefore a b = true ↔ a.stamp < b.stamp ∨ a.stamp = b.stamp ∧ (a.ctx < b.ctx
    ∨ a.ctx = b.ctx ∧ (a.issuer.map Issuer.core).getD 0 ≤ (b.issuer.map Issuer.core).getD 0) := by
  simp only [launchBefore, Bool.or_eq_true, Bool.and_eq_true, decide_eq_true_eq, beq_iff_eq]

theorem launchBefore_refl {a : Launch} : launchBefore a a = true := launchBefore_iff.2 (.inr ⟨rfl, .inr ⟨rfl, le_refl _⟩⟩)

theorem launchBefore_trans {a b c : Launch} (hab : launchBefore a b = true) (hbc : launchBefore b c = true) :
    launchBefore a c = true := by
  rw [launchBefore_iff] at *
  omega

theorem launchBefore_total {a b : Launch} (h : ¬ launchBefore a b = true) : launchBefore b a = true := by
  rw [launchBefore_iff] at *
  omega

theorem nextLaunch_eq_none {q : List Launch} (h : nextLaunch q = none) : q = [] := by
  cases q with
  | nil => rfl
  | cons x xs =>
    simp only [nextLaunch] at h
    split at h
    · cases h
    · split at h <;> cases h

/-- The launch that is placed next comes before every other of the queue. -/
theorem nextLaunch_before {q : List Launch} (h : nextLaunch q = some l) : ∀ x ∈ q, launchBefore l x = true := by
  induction q generalizing l with
  | nil => cases h
  | cons y ys ih =>
    simp only [nextLaunch] at h
    split at h
    · rename_i hnone
      cases h
      rw [nextLaunch_eq_none hnone]
      simp [launchBefore_refl]
    · rename_i z hz
      split at h
      · rename_i hyz
        cases h
        exact List.forall_mem_cons.2 ⟨launchBefore_refl, fun x hx => launchBefore_trans hyz (ih hz x hx)⟩
      · rename_i hyz
        cases h
        exact List.forall_mem_cons.2 ⟨launchBefore_total hyz, ih hz⟩

theorem exec_launchPlaced : exec (.launchPlaced p) s = .next (placeNext s p) := rfl

theorem placeNext_of_issuer {i : Issuer} (hl : nextLaunch (getPtn s p).launchQ = some l) (hf : freeCore s p l = some m)
    (hi : l.issuer = some i) : placeNext s p =
      placeGroup (modPtn s p (fun q => { q with launchQ := eraseFirst (· == l) q.launchQ })) p l m := by
  simp only [placeNext, hl, hf, hi]

theorem placeNext_of_empty (h : (getPtn s p).launchQ = []) : placeNext s p = s := by
  simp only [placeNext, h, nextLaunch]

theorem forEach_of_fixed {α : Type} {f : State → α → State} {xs : List α} (h : ∀ x, f s x = s) : forEach xs f s = s := by
  induction xs with
  | nil => rfl
  | cons x xs ih => rw [forEach_cons, h, ih]

theorem placeQueued_of_empty (h : (getPtn s p).launchQ = []) : placeQueued s p = s :=
  forEach_of_fixed fun _ => placeNext_of_empty h

end Queue

/-! ### SLV.LAUNCH (R334 to R337) -/

section SlvLaunch

variable {v : State} {i : Issuer} {l : Launch} {d : List Byte} {n t rd : Nat}

/-- What a launch with a valid descriptor comes to, in the state in which the launches queued before it have been placed. -/
def launchAnswer (v : State) (i : Issuer) (l : Launch) (d : List Byte) (n t rd : Nat) : State :=
  match freeCore v i.ptn l with
  | some m => placeGroup v i.ptn l m
  | none =>
    if bitOf (field d 1 1) 6 = true then setRd v n t rd 1
    else if 64 ≤ (getPtn v i.ptn).launchQ.length then setRd v n t rd 3
    else modThr (modPtn v i.ptn (fun q => { q with launchQ := q.launchQ ++ [l] })) n t
      (fun h => { h with state := .waitRc, wait := .launch rd })

theorem launchAnswer_of_free {m : Nat} (hf : freeCore v i.ptn l = some m) :
    launchAnswer v i l d n t rd = placeGroup v i.ptn l m := by
  simp only [launchAnswer, hf]

theorem launchAnswer_of_none (hf : freeCore v i.ptn l = none) : launchAnswer v i l d n t rd =
    if bitOf (field d 1 1) 6 = true then setRd v n t rd 1
    else if 64 ≤ (getPtn v i.ptn).launchQ.length then setRd v n t rd 3
    else modThr (modPtn v i.ptn (fun q => { q with launchQ := q.launchQ ++ [l] })) n t
      (fun h => { h with state := .waitRc, wait := .launch rd }) := by
  simp only [launchAnswer, hf]

variable {s s1 : State} {addr : Nat} (hi : mayIssue s n t = true) (hd : threadDesc s n t addr = .ok (s1, d))
include hi hd

theorem exec_slvLaunch_invalid (hok : launchOk s1 (issuerOf s1 n t) d = false) :
    exec (.slvLaunch n t rd addr) s = .next (setRd (instrDone s1 n t 4) n t rd 2) := by
  have hok' : launchOk (instrDone s1 n t 4) (issuerOf s1 n t) d = false := hok
  show Host.Outcome.next (issue s n t _) = _
  rw [issue_of_mayIssue hi, hd]
  simp only [bind, Except.bind, hok', Bool.not_false, if_true]
  rfl

theorem exec_slvLaunch_valid (hok : launchOk s1 (issuerOf s1 n t) d = true) : exec (.slvLaunch n t rd addr) s =
    .next (launchAnswer (placeQueued (instrDone s1 n t 4) (issuerOf s1 n t).ptn) (issuerOf s1 n t)
      (parseLaunch s1 (issuerOf s1 n t) d rd) d n t rd) := by
  have hok' : launchOk (instrDone s1 n t 4) (issuerOf s1 n t) d = true := hok
  have hparse : parseLaunch (instrDone s1 n t 4) (issuerOf s1 n t) d rd = parseLaunch s1 (issuerOf s1 n t) d rd := by
    have hthr : (getThr (instrDone s1 n t 4) (issuerOf s1 n t).core (issuerOf s1 n t).thr).slvtrap =
        (getThr s1 (issuerOf s1 n t).core (issuerOf s1 n t).thr).slvtrap := by
      show (getThr (instrDone s1 n t 4) n t).slvtrap = (getThr s1 n t).slvtrap
      rw [getThr_instrDone]
    unfold parseLaunch
    rw [hthr]
    rfl
  show Host.Outcome.next (issue s n t _) = _
  rw [issue_of_mayIssue hi, hd]
  simp only [bind, Except.bind, hok', Bool.not_true, Bool.false_eq_true, if_false, hparse, launchAnswer]
  cases freeCore (placeQueued (instrDone s1 n t 4) (issuerOf s1 n t).ptn) (issuerOf s1 n t).ptn
    (parseLaunch s1 (issuerOf s1 n t) d rd) with
  | some m => rfl
  | none =>
    dsimp only
    split_ifs <;> rfl

end SlvLaunch

/-! ### The end of a group (R301, R338) -/

section Exit

variable {s : State} {n t i k : Nat} {g : Group}

/-- A thread that exits is IDLE. -/
def exited (s : State) (n t : Nat) : State :=
  modThr (dropResv (instrDone s n t 4) n t) n t (fun h => { h with state := .idle })

theorem getCore_modThr_group {f : Thr → Thr} : (getCore (modThr s n t f) n).group = (getCore s n).group := by
  rw [modThr, getCore_modCore]

theorem group_exited : (getCore (exited s n t) n).group = (getCore s n).group :=
  getCore_modThr_group.trans getCore_modThr_group

@[simp] theorem exited_rc : (exited s n t).rc = s.rc := by simp only [exited, modThr_rc, dropResv, instrDone]

@[simp] theorem exited_mem : (exited s n t).mem = s.mem := by simp only [exited, modThr_mem, dropResv, instrDone]

/-- A change of the core's group beside leaves the thread retired and IDLE, and every other thread alone. -/
theorem retired_exited {f : Core → Core} (hf : ∀ c, (f c).thr = c.thr) :
    Retired s (modCore (exited s n t) n f) n t 4 (fun h => { h with state := .idle }) := by
  refine ⟨?_, fun m k hne => ?_⟩
  · rw [getThr_modCore_of_thr hf, exited, getThr_modThr,
      show getThr (dropResv (instrDone s n t 4) n t) n t = _ from getThr_instrDone]
  · rw [getThr_modCore_of_thr hf, exited, getThr_modThr_other _ _ hne]
    exact onlyThread_instrDone m k hne

/-- The state after the exit of a group's last thread, before its DONE_SEM is added to. -/
def groupEnded (s : State) (n t : Nat) : State := modCore (exited s n t) n (fun c => { c with group := none })

section Instruction

variable (hi : mayIssue s n t = true) (hg : (getCore s n).group = some g) (ht : t ∈ g.live)
include hi hg ht

theorem exec_slvExit_other (h : g.live.filter (· != t) ≠ []) : exec (.slvExit n t) s =
    .next (modCore (exited s n t) n (fun c => { c with group := some { g with live := g.live.filter (· != t) } })) := by
  have hg' : (getCore (exited s n t) n).group = some g := group_exited.trans hg
  show Host.Outcome.next (issue s n t _) = _
  rw [issue_of_mayIssue hi, ← exited]
  simp only [hg', List.contains_iff_mem.2 ht, Bool.not_true, Bool.false_eq_true, if_false, List.isEmpty_iff, h]

theorem exec_slvExit_last (h : g.live.filter (· != t) = []) :
    exec (.slvExit n t) s = .next (threadAdd (groupEnded s n t) g.ptn g.doneSem) := by
  have hg' : (getCore (exited s n t) n).group = some g := group_exited.trans hg
  show Host.Outcome.next (issue s n t _) = _
  rw [issue_of_mayIssue hi, ← exited]
  simp only [hg', List.contains_iff_mem.2 ht, Bool.not_true, Bool.false_eq_true, if_false, List.isEmpty_iff, h, if_true, groupEnded]

end Instruction

theorem retired_groupEnded : Retired s (groupEnded s n t) n t 4 (fun h => { h with state := .idle }) :=
  retired_exited (by intro; rfl)

@[simp] theorem groupEnded_rc : (groupEnded s n t).rc = s.rc := by rw [groupEnded, modCore_rc, exited_rc]

@[simp] theorem groupEnded_mem : (groupEnded s n t).mem = s.mem := by rw [groupEnded, modCore_mem, exited_mem]

theorem group_groupEnded : (getCore (groupEnded s n t) n).group = none := by
  rw [groupEnded, getCore_modCore]

/-- No wait on the semaphore is granted when none is there. -/
theorem grantSem_of_nobody (h : NobodyWaits s i) : grantSem s i = s := by
  have hnone : nextGrant s i = none := by
    have hws : s.rc.waits.filter (fun w => !w.tok.op.onBar && w.tok.sem == i && w.live && w.granted.isNone) = [] := by
      refine List.filter_eq_nil_iff.2 fun w hw => ?_
      simp [h w hw]
    simp only [nextGrant, hws, List.find?_nil]
  unfold grantSem
  cases s.rc.waits.length with
  | zero => rfl
  | succ fuel => simp only [grantGo, hnone]

theorem addSem_rc : (addSem s i k).rc = (modSem s i (fun x =>
    { x with value := min (x.value + k) 0xFFFFFFFF, sat := x.sat || decide (0xFFFFFFFF < x.value + k) })).rc :=
  (slotDone_kept (Kept.refl _ _) (Within.refl _)).rest .rc (by decide)

theorem value_addSem : (getSem (addSem s i k) i).value = min ((getSem s i).value + k) 0xFFFFFFFF := by
  unfold getSem
  rw [addSem_rc]
  exact congrArg Sem.value (getSem_modSem s i _)

/-- The add of a group's end to a semaphore that its partition owns and that nobody waits for. -/
theorem threadAdd_of_nobody (ha : (getSem s i).alloc = true) (hne : i ≠ 0xFFFF) (hw : NobodyWaits s i) :
    threadAdd s (getSem s i).ptn i = addSem s i 1 := by
  have hw' : NobodyWaits (addSem s i 1) i := by
    unfold NobodyWaits
    rw [addSem_rc]
    exact hw
  simp only [threadAdd, hne, ha, if_false, beq_self_eq_true, Bool.and_self, if_true, grantSem_of_nobody hw']

theorem threadAdd_none {p : Nat} : threadAdd s p 0xFFFF = s := by simp only [threadAdd, if_true]

theorem addSem_core : (addSem s i k).core = s.core := (addSem_kept (Kept.refl _ s) (Within.refl _)).rest .core (by decide)

theorem addSem_mem : (addSem s i k).mem = s.mem := (addSem_kept (Kept.refl _ s) (Within.refl _)).rest .mem (by decide)

theorem Retired.of_core {u w : State} {len : Nat} {f : Thr → Thr} (h : Retired s u n t len f) (hc : w.core = u.core) :
    Retired s w n t len f :=
  ⟨(getThr_of_core hc).trans h.1, h.2.trans (onlyThread_of_core hc)⟩

theorem sameMemory_of_mem {u : State} (h : u.mem = s.mem) : SameMemory s u := fun a => congrArg (tget memDefault · a) h

end Exit

/-- Settles O24, by the lemmas on placing a group, on the queue's order and on the end of a group above. -/
theorem launches : Obligations.Launches := by
  unfold Obligations.Launches
  refine ⟨?launch, ?placed, ?exit⟩
  case launch =>
    intro s s1 n t rd addr d hi hd i l c v
    have hready : (getThr s1 n t).state = .ready := by rw [getThr_threadDesc hd, ready_of_mayIssue hi]
    have hempty (hq : (getPtn s1 i.ptn).launchQ = []) : v = instrDone s1 n t 4 := placeQueued_of_empty hq
    refine ⟨fun hok => ?invalid, fun hok hf => ⟨fun hb => ?noCore, fun hb hq => ?full, fun hb hq => ?queued⟩, hempty,
      fun m hok hf => ?free, fun m hok hq hf hmn => ?atOnce⟩
    case invalid =>
      refine ⟨_, exec_slvLaunch_invalid hi hd hok, ⟨?_, onlyThread_instrDone_modThr _⟩, ?_⟩
      · rw [setRd, getThr_modThr, getThr_instrDone]
        rfl
      · rw [setRd, modThr_ptn, instrDone, modThr_ptn]
    case noCore =>
      refine ⟨_, exec_slvLaunch_valid hi hd hok, ?_⟩
      rw [launchAnswer_of_none hf, if_pos hb]
    case full =>
      refine ⟨_, exec_slvLaunch_valid hi hd hok, ?_⟩
      rw [launchAnswer_of_none hf, if_neg (by simp [hb]), if_pos hq]
    case queued =>
      refine ⟨_, exec_slvLaunch_valid hi hd hok, ?_⟩
      rw [launchAnswer_of_none hf, if_neg (by simp [hb]), if_neg (not_le.2 hq)]
    case free => exact ⟨_, exec_slvLaunch_valid hi hd hok, launchAnswer_of_free hf⟩
    case atOnce =>
      have hf' : freeCore (instrDone s1 n t 4) i.ptn l = some m := (freeCore_instrDone hready).trans hf
      have hil : l.issuer = some i := rfl
      have hne : i.core ≠ m := hmn.symm
      have hrun : (getThr (instrDone s1 n t 4) n t).state ≠ .suspended := by simp [hready]
      have hlauncher : getThr (placeGroup (instrDone s1 n t 4) i.ptn l m) n t = _ := getThr_placeGroup_issuer hil hne hrun
      refine ⟨placeGroup (instrDone s1 n t 4) i.ptn l m, ?_, group_placeGroup hil hne, fun k hk => ?_,
        fun k hk _ => idle_placeGroup hil hne (coreFree_of_freeCore hf') hk, fun hrd => ?_, ?_, placeGroup_mem⟩
      · rw [← launchAnswer_of_free (d := d) (n := n) (t := t) (rd := rd) hf', ← hempty hq]
        exact exec_slvLaunch_valid hi hd hok
      · obtain ⟨v, g, hstart⟩ := getThr_placeGroup_started (s := instrDone s1 n t 4) (p := i.ptn) hil hne hk
        have htrap : BitVec.ofNat 64 l.trap = (getThr s1 n t).slvtrap := by
          show BitVec.ofNat 64 (getThr s1 n t).slvtrap.toNat = _
          simp
        rw [hstart, ← htrap]
        exact startThread_spec
      · rw [hlauncher]
        exact getX_setX_same _ _ _ hrd
      · rw [hlauncher]
  case placed =>
    intro s p m l i hl hf hi hne hs
    refine ⟨_, exec_launchPlaced.trans (congrArg _ (placeNext_of_issuer hl hf hi)), ?_, fun x hx => ?_,
      group_placeGroup hi hne, fun k hk => ?_, ?_, placeGroup_mem⟩
    · rw [getPtn, placeGroup_ptn]
      exact congrArg Ptn.launchQ (getPtn_modPtn s p _)
    · have := launchBefore_iff.1 (nextLaunch_before hl x hx)
      omega
    · obtain ⟨v, g, hstart⟩ := getThr_placeGroup_started hi hne hk
      rw [hstart]
      exact ⟨startThread_spec.1, startThread_spec.2.1⟩
    · exact getThr_placeGroup_issuer hi hne hs
  case exit =>
    intro s n t g hi hg ht
    refine ⟨fun hlive => ?_, fun hlast hsem => ?_, fun hlast ha hp hne hw => ?_⟩
    · refine ⟨_, exec_slvExit_other hi hg ht hlive, retired_exited (by intro; rfl), ?_, ?_, sameMemory_of_mem ?_⟩
      · rw [getCore_modCore]
      · rw [modCore_rc, exited_rc]
      · rw [modCore_mem, exited_mem]
    · refine ⟨_, exec_slvExit_last hi hg ht hlast, ?_⟩
      rw [hsem, threadAdd_none]
      exact ⟨retired_groupEnded, group_groupEnded, groupEnded_rc, sameMemory_of_mem groupEnded_mem⟩
    · have hsem : getSem (groupEnded s n t) g.doneSem = getSem s g.doneSem := by rw [getSem, groupEnded_rc, getSem]
      have hnobody : NobodyWaits (groupEnded s n t) g.doneSem := by rwa [NobodyWaits, groupEnded_rc]
      have hadd : threadAdd (groupEnded s n t) g.ptn g.doneSem = addSem (groupEnded s n t) g.doneSem 1 := by
        rw [← hp, ← hsem]
        exact threadAdd_of_nobody (by rwa [hsem]) hne hnobody
      refine ⟨_, (exec_slvExit_last hi hg ht hlast).trans (congrArg _ hadd), retired_groupEnded.of_core addSem_core, ?_,
        sameMemory_of_mem (addSem_mem.trans groupEnded_mem), ?_⟩
      · rw [getCore_of_core addSem_core, group_groupEnded]
      · rw [value_addSem, hsem]

end Sys2Proof.Machine
end

section
/-! SUPPORT and proofs of O1 to O7: every command keeps what the operations keep, from the lemma on each command's meaning; what a
step does to the queue, the fuses, the journal and memory follows from that once. -/

namespace Sys2Proof.Machine

/-! ### Parts that an operation leaves alone -/

theorem cond_eq_left {α : Type} {b : Bool} {x y : α} (h : b = false → x = y) : (bif b then x else y) = x := by
  cases b with
  | false => exact (h rfl).symm
  | true => rfl

/-- What is kept outside a list of parts is the first state with those parts of the second. -/
theorem Kept.restore_eq {m : List Part} {s t : State} (h : Kept m s t) : restore m s t = t := by
  have e : ∀ p, m.contains p = false → samePart p s t := fun p hp => h.rest p (by simpa using hp)
  simp only [restore, cond_eq_left (e .fresh), cond_eq_left (e .cyc), cond_eq_left (e .mem), cond_eq_left (e .memKey),
    cond_eq_left (e .memErr), cond_eq_left (e .tags), cond_eq_left (e .resv), cond_eq_left (e .mc),
    cond_eq_left (e .core), cond_eq_left (e .phys), cond_eq_left (e .int), cond_eq_left (e .rc),
    cond_eq_left (e .ptn), cond_eq_left (e .ctx), cond_eq_left (e .brn), cond_eq_left (e .prs),
    cond_eq_left (e .bell), cond_eq_left (e .syl), cond_eq_left (e .keys), cond_eq_left (e .fab),
    cond_eq_left (e .xf), cond_eq_left (e .led), cond_eq_left (e .lcs), cond_eq_left (e .sec), cond_eq_left (e .cpt),
    cond_eq_left (e .ses), cond_eq_left (e .mod), cond_eq_left (e .pwr), cond_eq_left (e .subf),
    cond_eq_left (e .vat), cond_eq_left (e .tst), cond_eq_left (e .snp), cond_eq_left (e .oh),
    cond_eq_left (e .fuse), cond_eq_left (e .flash), cond_eq_left (e .tap), cond_eq_left (e .i3c)]

/-- The second state, spelt as the first with those parts changed. -/
theorem Kept.frame {m : List Part} {s t : State} (h : Kept m s t) : t = { restore m s t with pending := s.pending } := by
  rw [h.restore_eq, ← h.queue]

/-! ### One command, one cycle -/

/-- Every command keeps the queue, the canonical form, the fuses, SEQ and all parts outside its footprint. -/
theorem exec_kept {c : Instr} {s t : State} (h : exec c s = .next t) : Kept (mayWrite c) s t := by
  have r := Kept.refl (mayWrite c) s
  have w := Within.refl (mayWrite c)
  cases c with
  | registerWrite => exact execRegisterWrite_kept r h w
  | slvCmd => exact execSlvCmd_kept r h w
  | queuePositionFreed => exact execQueuePositionFreed_kept r h w
  | fwdW4a8 => exact execFwdW4a8_kept r h w
  | bwdG8w4 => exact execBwdG8w4_kept r h w
  | mmA8a8 => exact execMmA8a8_kept r h w
  | mmOz16 => exact execMmOz16_kept r h w
  | quant => exact execQuant_kept r h w
  | colsumBuild => exact execColsumBuild_kept r h w
  | nodeAdd => exact execNodeAdd_kept r h w
  | routedStationaryDelivery => exact execRoutedStationaryDelivery_kept r h w
  | joinBufferReady => exact execJoinBufferReady_kept r h w
  | sealWaitEnd => exact execSealWaitEnd_kept r h w
  | wfwd => exact execWfwd_kept r h w
  | wbwdData => exact execWbwdData_kept r h w
  | wbwdGrad => exact execWbwdGrad_kept r h w
  | claimSlot => exact execClaimSlot_kept r h w
  | fetch => exact execFetch_kept r h w
  | cancel => exact execCancel_kept r h w
  | claimExpert => exact execClaimExpert_kept r h w
  | releaseExpert => exact execReleaseExpert_kept r h w
  | stage => exact execStage_kept r h w
  | unstage => exact execUnstage_kept r h w
  | evict => exact execEvict_kept r h w
  | vatCopyDone => exact execVatCopyDone_kept r h w
  | vatScrubDone => exact execVatScrubDone_kept r h w
  | fetchDeadline => exact execFetchDeadline_kept r h w
  | prsInit => exact execPrsInit_kept r h w
  | prsReduce => exact execPrsReduce_kept r h w
  | prsNorm => exact execPrsNorm_kept r h w
  | prsReduceNorm => exact execPrsReduceNorm_kept r h w
  | prsApply => exact execPrsApply_kept r h w
  | prsClose => exact execPrsClose_kept r h w
  | prsExport => exact execPrsExport_kept r h w
  | bell => exact execBell_kept r h w
  | bellFrameReceive => exact execBellFrameReceive_kept r h w
  | bellFrameMissing => exact execBellFrameMissing_kept r h w
  | holdoverLimit => exact execHoldoverLimit_kept r h w
  | pllLock => exact execPllLock_kept r h w
  | domainStartMark => exact execDomainStartMark_kept r h w
  | localBellStart => exact execLocalBellStart_kept r h w
  | delayMeasurement => exact execDelayMeasurement_kept r h w
  | probeReceive => exact execProbeReceive_kept r h w
  | echoReceive => exact execEchoReceive_kept r h w
  | bellRefLoss => exact execBellRefLoss_kept r h w
  | bellRefReturn => exact execBellRefReturn_kept r h w
  | governorBellAverage => exact execGovernorBellAverage_kept r h w
  | ttStart => exact execTtStart_kept r h w
  | ttStop => exact execTtStop_kept r h w
  | ttResume => exact execTtResume_kept r h w
  | timetableBegin => exact execTimetableBegin_kept r h w
  | slotStart => exact execSlotStart_kept r h w
  | slotDeadline => exact execSlotDeadline_kept r h w
  | lessonBoundary => exact execLessonBoundary_kept r h w
  | partitionCommandsEnded => exact execPartitionCommandsEnded_kept r h w
  | partialReloadApply => exact execPartialReloadApply_kept r h w
  | semRead => exact execSemRead_kept r h w
  | semWrite => exact execSemWrite_kept r h w
  | semAdd => exact execSemAdd_kept r h w
  | waitGe => exact execWaitGe_kept r h w
  | acquire => exact execAcquire_kept r h w
  | release => exact execRelease_kept r h w
  | arrive => exact execArrive_kept r h w
  | waitGen => exact execWaitGen_kept r h w
  | barRelease => exact execBarRelease_kept r h w
  | waitTimeout => exact execWaitTimeout_kept r h w
  | replyReceive port f => exact execReplyReceive_kept (port := port) r h w
  | tokenLost => exact execTokenLost_kept r h w
  | creditReceive port f => exact execCreditReceive_kept (port := port) r h w
  | sendCreditsAvailable => exact execSendCreditsAvailable_kept r h w
  | retractReceive port f => exact execRetractReceive_kept (port := port) r h w
  | runaheadVerdict => exact execRunaheadVerdict_kept r h w
  | statusFrameSend => exact execStatusFrameSend_kept r h w
  | statusFrameReceive => exact execStatusFrameReceive_kept r h w
  | epochReceive port f => exact execEpochReceive_kept (port := port) r h w
  | slvCrcRaw => exact execSlvCrcRaw_kept r h w
  | slvCrcTchk => exact execSlvCrcTchk_kept r h w
  | slvCrcTgen => exact execSlvCrcTgen_kept r h w
  | slvVcvt => exact execSlvVcvt_kept r h w
  | slvVfn => exact execSlvVfn_kept r h w
  | slvRc => exact execSlvRc_kept r h w
  | slvBwaitUntil => exact execSlvBwaitUntil_kept r h w
  | bwaitWake => exact execBwaitWake_kept r h w
  | slvBwaitSemwait => exact execSlvBwaitSemwait_kept r h w
  | slvLaunch n t rd addr => exact execSlvLaunch_kept (core := n) (thr := t) (rd := rd) (addr := addr) r h w
  | launchPlaced => exact execLaunchPlaced_kept r h w
  | slvExit => exact execSlvExit_kept r h w
  | threadMemoryAccess => exact execThreadMemoryAccess_kept r h w
  | threadTrap => exact execThreadTrap_kept r h w
  | slvctxWrite => exact execSlvctxWrite_kept r h w
  | syllabusLoad => exact execSyllabusLoad_kept r h w
  | syllabusCancel => exact execSyllabusCancel_kept r h w
  | ohBase => exact execOhBase_kept r h w
  | ohData => exact execOhData_kept r h w
  | ohTrain => exact execOhTrain_kept r h w
  | ohEval => exact execOhEval_kept r h w
  | ohResult => exact execOhResult_kept r h w
  | ohClear => exact execOhClear_kept r h w
  | ptnTeardown => exact execPtnTeardown_kept r h w
  | ptnHold => exact execPtnHold_kept r h w
  | ptnRelease => exact execPtnRelease_kept r h w
  | attach => exact execAttach_kept r h w
  | preempt => exact execPreempt_kept r h w
  | resume => exact execResume_kept r h w
  | detach => exact execDetach_kept r h w
  | ctxCancel => exact execCtxCancel_kept r h w
  | rebind => exact execRebind_kept r h w
  | preemptBoundExpiry => exact execPreemptBoundExpiry_kept r h w
  | landingQuiet => exact execLandingQuiet_kept r h w
  | enableQueuedApply => exact execEnableQueuedApply_kept r h w
  | baseCommit => exact execBaseCommit_kept r h w
  | baseTeardown => exact execBaseTeardown_kept r h w
  | brineEnable => exact execBrineEnable_kept r h w
  | brineDisable => exact execBrineDisable_kept r h w
  | brineJobStart => exact execBrineJobStart_kept r h w
  | brineJobEnd => exact execBrineJobEnd_kept r h w
  | brineDisabled => exact execBrineDisabled_kept r h w
  | portLight => exact execPortLight_kept r h w
  | portTrainingDone => exact execPortTrainingDone_kept r h w
  | portRetry => exact execPortRetry_kept r h w
  | dataFrameReceive => exact execDataFrameReceive_kept r h w
  | linkFrameReceive => exact execLinkFrameReceive_kept r h w
  | laneFailure => exact execLaneFailure_kept r h w
  | syncLaneFailure => exact execSyncLaneFailure_kept r h w
  | portSyncLoss => exact execPortSyncLoss_kept r h w
  | fabPtEnable => exact execFabPtEnable_kept r h w
  | fabPtDisable => exact execFabPtDisable_kept r h w
  | fabPtRetrain => exact execFabPtRetrain_kept r h w
  | portDrainEnd => exact execPortDrainEnd_kept r h w
  | fabTakeover => exact execFabTakeover_kept r h w
  | takeoverApply => exact execTakeoverApply_kept r h w
  | fabMapSelApply => exact execFabMapSelApply_kept r h w
  | xferSend => exact execXferSend_kept r h w
  | xferFetch => exact execXferFetch_kept r h w
  | xferCopy => exact execXferCopy_kept r h w
  | xferNode => exact execXferNode_kept r h w
  | xferDigest => exact execXferDigest_kept r h w
  | xferRetract => exact execXferRetract_kept r h w
  | sendComplete => exact execSendComplete_kept r h w
  | sendLanding => exact execSendLanding_kept r h w
  | sendPartialTimeout => exact execSendPartialTimeout_kept r h w
  | fetchReqServe => exact execFetchReqServe_kept r h w
  | cptLight => exact execCptLight_kept r h w
  | cptLinkDown => exact execCptLinkDown_kept r h w
  | cptRetry => exact execCptRetry_kept r h w
  | regReq => exact execRegReq_kept r h w
  | bulkWr => exact execBulkWr_kept r h w
  | bulkRdReq => exact execBulkRdReq_kept r h w
  | fetchData => exact execFetchData_kept r h w
  | fetchCtl => exact execFetchCtl_kept r h w
  | authHello => exact execAuthHello_kept r h w
  | authProof => exact execAuthProof_kept r h w
  | authClose => exact execAuthClose_kept r h w
  | authChallengeDelayed => exact execAuthChallengeDelayed_kept r h w
  | recoverFrame => exact execRecoverFrame_kept r h w
  | recoveryReset => exact execRecoveryReset_kept r h w
  | eventSend => exact execEventSend_kept r h w
  | bellMark => exact execBellMark_kept r h w
  | cptRefLost => exact execCptRefLost_kept r h w
  | advance => exact execAdvance_kept r h w
  | keySet => exact execKeySet_kept r h w
  | keyClear => exact execKeyClear_kept r h w
  | ledgerStore => exact execLedgerStore_kept r h w
  | jrnAck => exact execJrnAck_kept r h w
  | fwFloor => exact execFwFloor_kept r h w
  | lcsRecover => exact execLcsRecover_kept r h w
  | quoteModule => exact execQuoteModule_kept r h w
  | quotePartition => exact execQuotePartition_kept r h w
  | keyRelease => exact execKeyRelease_kept r h w
  | ekDrop => exact execEkDrop_kept r h w
  | ekExpiry => exact execEkExpiry_kept r h w
  | memoryPatrol => exact execMemoryPatrol_kept r h w
  | checkerRerunStart => exact execCheckerRerunStart_kept r h w
  | checkerRerunDone => exact execCheckerRerunDone_kept r h w
  | decisionDeadline => exact execDecisionDeadline_kept r h w
  | quizComplete => exact execQuizComplete_kept r h w
  | quizDue => exact execQuizDue_kept r h w
  | faultLogFlush => exact execFaultLogFlush_kept r h w
  | intAck => exact execIntAck_kept r h w
  | snpArm => exact execSnpArm_kept r h w
  | snpDisarm => exact execSnpDisarm_kept r h w
  | captureNow => exact execCaptureNow_kept r h w
  | snpRestore => exact execSnpRestore_kept r h w
  | snpDelete => exact execSnpDelete_kept r h w
  | snpQuery => exact execSnpQuery_kept r h w
  | captureCopyDone => exact execCaptureCopyDone_kept r h w
  | snapshotCommit => exact execSnapshotCommit_kept r h w
  | mirrorAck => exact execMirrorAck_kept r h w
  | mirrorTimeout => exact execMirrorTimeout_kept r h w
  | mirrorReceive => exact execMirrorReceive_kept r h w
  | restoreComplete => exact execRestoreComplete_kept r h w
  | runQuick => exact execRunQuick_kept r h w
  | runFull => exact execRunFull_kept r h w
  | loopFar => exact execLoopFar_kept r h w
  | fuse => exact execFuse_kept r h w
  | regionBistEnd => exact execRegionBistEnd_kept r h w
  | testRunEnd => exact execTestRunEnd_kept r h w
  | tapReset => exact execTapReset_kept r h w
  | extest => exact execExtest_kept r h w
  | samplePreload => exact execSamplePreload_kept r h w
  | clamp => exact execClamp_kept r h w
  | highz => exact execHighz_kept r h w
  | regAccess => exact execRegAccess_kept r h w
  | bypass => exact execBypass_kept r h w
  | powerInputApplied => exact execPowerInputApplied_kept r h w
  | powerGood => exact execPowerGood_kept r h w
  | inputSample => exact execInputSample_kept r h w
  | railFault => exact execRailFault_kept r h w
  | thermalSample => exact execThermalSample_kept r h w
  | modResetNAssert => exact execModResetNAssert_kept r h w
  | modResetNRelease => exact execModResetNRelease_kept r h w
  | resetModule => exact execResetModule_kept r h w
  | resetWarm => exact execResetWarm_kept r h w
  | resetDie => exact execResetDie_kept r h w
  | resetRegion => exact execResetRegion_kept r h w
  | resetCore => exact execResetCore_kept r h w
  | resetBank => exact execResetBank_kept r h w
  | resetDeferredStart => exact execResetDeferredStart_kept r h w
  | resetComplete => exact execResetComplete_kept r h w
  | entdaa => exact execEntdaa_kept r h w
  | rstdaa => exact execRstdaa_kept r h w
  | setnewda => exact execSetnewda_kept r h w
  | getpid => exact execGetpid_kept r h w
  | getbcr => exact execGetbcr_kept r h w
  | getdcr => exact execGetdcr_kept r h w
  | getstatus => exact execGetstatus_kept r h w
  | enec => exact execEnec_kept r h w
  | disec => exact execDisec_kept r h w
  | setmrl => exact execSetmrl_kept r h w
  | getmrl => exact execGetmrl_kept r h w
  | i3cPrivateWrite => exact execI3cPrivateWrite_kept r h w
  | i3cPrivateRead => exact execI3cPrivateRead_kept r h w
  | cptIdleFrameReceive => exact execCptIdleFrameReceive_kept r h w
  | syncFrameForward => exact execSyncFrameForward_kept r h w
  | mirrorRead => exact execMirrorRead_kept r h w
  | landingSpaceRelease => exact execLandingSpaceRelease_kept r h w
  | snapshotEngineReady => exact execSnapshotEngineReady_kept r h w

/-- Of a cycle of the clock, likewise. -/
theorem tick_kept_self {s : State} : Kept tickWrites s (tick s) := tick_kept (Kept.refl _ s) (Within.refl tickWrites)

/-! ### One step -/

theorem step_of_empty {s : State} (h : s.pending = []) : step s = .next (tick s) := by rw [step, h]

theorem step_of_cons {s : State} {c : Instr} {cs : List Instr} (h : s.pending = c :: cs) :
    step s = exec c { s with pending := cs } := by rw [step, h]

/-- A step is one of two: a cycle of the clock, or the front command on the state with the queue's rest. -/
theorem step_cases {s t : State} (h : step s = .next t) :
    (s.pending = [] ∧ t = tick s) ∨ ∃ c cs, s.pending = c :: cs ∧ exec c { s with pending := cs } = .next t := by
  cases hp : s.pending with
  | nil => exact .inl ⟨rfl, by simpa [step_of_empty hp] using h.symm⟩
  | cons c cs => exact .inr ⟨c, cs, rfl, step_of_cons hp ▸ h⟩

/-- What every step keeps, whichever of the two it is. -/
theorem step_keeps {s t : State} (h : step s = .next t) :
    t.pending = s.pending.tail ∧ (Memory.wf s.mem = true → Memory.wf t.mem = true) ∧ FusesKept s.fuse t.fuse
      ∧ s.led.seq ≤ t.led.seq := by
  rcases step_cases h with ⟨hp, rfl⟩ | ⟨c, cs, hp, hc⟩
  · have k := tick_kept_self (s := s)
    exact ⟨by rw [k.queue, hp, List.tail_nil], k.mem, k.fuses, k.seq⟩
  · have k := exec_kept hc
    exact ⟨by rw [k.queue, hp, List.tail_cons], k.mem, k.fuses, k.seq⟩

/-- Settles O1. -/
theorem stepRunsFront : Obligations.StepRunsFront := fun _ _ _ h => step_of_cons h

/-! ### The Bell counter in a cycle (R249) -/

theorem laneTick_bell {s : State} : (laneTick s).bell = s.bell :=
  (laneTick_kept (Kept.refl [.rc] s) (Within.refl _)).rest .bell (by decide)

theorem raise_bell {s : State} {c : FaultCode} {a : FaultAt} : (raise s c a).bell = s.bell := by
  rw [(raise_spec s c a).2.2]

/-- A stream that is lost changes what the module follows, not the count (R260, R261). -/
theorem streamLoss_counters {s : State} :
    (streamLoss s).bell.count = s.bell.count ∧ (streamLoss s).bell.sub = s.bell.sub := by
  unfold streamLoss
  dsimp only
  split_ifs <;> simp only [raise_bell, switchTo, and_self]

theorem forEach_bell {α : Type} {xs : List α} {f : State → α → State} (hf : ∀ u x, (f u x).bell = u.bell) {s : State} :
    (forEach xs f s).bell = s.bell := by
  induction xs generalizing s with
  | nil => rfl
  | cons x xs ih => rw [forEach_cons, ih, hf]

/-- The parts of a cycle's footprint beside the Bell. -/
def besideBell : List Part := tickWrites.filter (· != .bell)

/-- Of what follows a Bell's count only the streams' slews and their loss change the Bell. -/
theorem atBellInstant_bell {s : State} : (atBellInstant s).bell = (streamLoss { s with bell := { s.bell with
    prim := slewDelay s.bell.prim, alt := slewDelay s.bell.alt, slew := slewStep s.bell.slew } }).bell := by
  unfold atBellInstant
  have w := Within.refl besideBell
  have hgov : ∀ u, (freeRepairs (darkDue (govApply u))).bell = u.bell := fun u =>
    (freeRepairs_kept (darkDue_kept (govApply_kept (Kept.refl besideBell u)))).rest .bell (by decide)
  have hend : ∀ u, (emitBell (ohBell u)).bell = u.bell := fun u =>
    (emitBell_kept (ohBell_kept (Kept.refl besideBell u))).rest .bell (by decide)
  have hbound : ∀ u p c, (registerBound u p c).bell = u.bell := fun u p c =>
    (registerBound_kept (Kept.refl besideBell u)).rest .bell (by decide)
  have hrecess : ∀ u p, (recessPoint u p).bell = u.bell := fun u p =>
    (recessPoint_kept (Kept.refl besideBell u)).rest .bell (by decide)
  rw [hend, forEach_bell, forEach_bell, hgov]
  · intro u c
    split
    · exact hbound ..
    · rfl
  · intro u p
    split
    · exact hrecess ..
    · rfl

/-- Settles O2. -/
theorem idleStepCountsTheBell : Obligations.IdleStepCountsTheBell := by
  intro s hp hc
  have hbell : (laneTick { s with cyc := s.cyc + 1 }).bell = s.bell := laneTick_bell
  have hcount : counting (laneTick { s with cyc := s.cyc + 1 }) = true := by rw [counting_of_bell hbell, hc]
  rw [step_of_empty hp, tick, if_pos hcount, hbell]
  refine ⟨fun h => by rw [if_pos h], fun h => ⟨_, rfl, by rw [if_neg (not_lt.2 h)], ?_⟩⟩
  rw [if_neg (not_lt.2 h), bellInstant, if_pos hcount, atBellInstant_bell, streamLoss_counters.1, streamLoss_counters.2, hbell]
  exact ⟨rfl, rfl⟩

/-- Settles O3. -/
theorem resetState : Obligations.ResetState :=
  ⟨⟨rfl, rfl, rfl, rfl, rfl, rfl, fun _ => ⟨rfl, rfl, rfl, rfl, rfl, rfl⟩⟩, rfl⟩

/-- Settles O4: no operation breaks the canonical form. -/
theorem everyStepKeepsMemoryCanonical : Obligations.EveryStepKeepsMemoryCanonical := fun _ _ hm h => (step_keeps h).2.1 hm

/-- Settles O5. -/
theorem fusesLedgerAndQueue : Obligations.FusesLedgerAndQueue := by
  refine ⟨fun s t h => ?_, fun s t h => ?_, fun s t h => ?_⟩ <;> obtain ⟨hq, -, hf, hl⟩ := step_keeps h
  · exact hf
  · exact hl
  · exact hq

/-- Settles O6: the footprint of a command is what its `Kept` lemma names. -/
theorem commandsKeepTheirFootprint : Obligations.CommandsKeepTheirFootprint := by
  refine ⟨fun c s t h => ?_, fun s t hp h => ?_⟩
  · have k := exec_kept h
    exact ⟨k.queue, k.rest, fun hm => sameMemory_of_mem (k.rest .mem hm)⟩
  · obtain rfl : tick s = t := by simpa [step_of_empty hp] using h
    exact tick_kept_self.rest

/-- Settles O7: only the two samples of the input can stop, each past its limit. -/
theorem onlyStopIsBeyondAbsoluteMaximum : Obligations.OnlyStopIsBeyondAbsoluteMaximum := by
  intro c s
  cases c
  case powerInputApplied v b =>
    by_cases h : overVoltage v = true
    · exact .inr ⟨if_pos h, .inl ⟨v, b, rfl, by simpa [overVoltage] using h⟩⟩
    · by_cases hv : v < 2000 ∨ s.mod.powered = true
      · exact .inl ⟨s, by simp [exec, execPowerInputApplied, h, hv]⟩
      · exact .inl ⟨_, by rw [exec, execPowerInputApplied, if_neg h, if_neg hv]⟩
  case inputSample v i =>
    by_cases h : (overVoltage v || (decide (7500 < i) && decide (1000 ≤ s.pwr.overUs))) = true
    · refine .inr ⟨if_pos h, .inr ⟨v, i, rfl, ?_⟩⟩
      simpa [overVoltage, or_assoc] using h
    · cases hp : s.mod.powered
      · exact .inl ⟨s, by simp [exec, execInputSample, h, hp]⟩
      · exact .inl ⟨_, by simp only [exec, execInputSample, if_neg h, hp]; rfl⟩
  all_goals exact .inl ⟨_, rfl⟩

end Sys2Proof.Machine
end

section
/-! SUPPORT and proofs of O8, O9, O10: a thread's operation at this module's banks, from its issue to its answer (R292, R297, R332),
the units of a hold entry (R302), and the generations of a barrier (R305). -/

namespace Sys2Proof.Machine

/-! ### An operation at a bank of this module (R292, R332) -/

/-- The state in which a thread's operation comes to the bank: the instruction has retired and the thread waits in WAIT_RC. -/
def atBank (s : State) (n t rd : Nat) : State := waitRc (instrDone s n t 4) n t 0 rd

/-- The operation itself, in the epoch of its bank. -/
def bankTok (s : State) (n t : Nat) (op : RcOp) (i operand timeout : Nat) : Token :=
  let tok := threadTok (instrDone s n t 4) n t op i operand timeout
  { tok with epoch := bankEpoch s tok.bank }

/-- The thread has its answer, and nothing but its core differs from the state `v` that the bank has left. -/
def AnsweredIn (s v u : State) (n t rd status flags value : Nat) : Prop :=
  Replied s u n t rd status flags value ∧ OnlyThread s u n t ∧ u = { v with core := u.core }

section Bank

variable {s v : State} {n t i operand timeout rd st : Nat} {op : RcOp}

theorem rcRow_mesh (hi : mayIssue s n t = true) : rcRow s op (.mesh n t i operand timeout rd) =
    bankOp (atBank s n t rd) (bankTok s n t op i operand timeout) (waitDeadline s timeout) := by
  rw [rcRow, issue_of_mayIssue hi]
  rfl

theorem getThr_atBank : getThr (atBank s n t rd) n t = { getThr s n t with
    pc := (getThr s n t).pc + 4, instret := wrap 64 ((getThr s n t).instret + 1), state := .waitRc, wait := .rc 0 rd } := by
  rw [atBank, waitRc, getThr_modThr, getThr_instrDone]
  rfl

theorem onlyThread_atBank : OnlyThread s (atBank s n t rd) n t := onlyThread_instrDone_modThr _

@[simp] theorem atBank_rc : (atBank s n t rd).rc = s.rc := rfl

@[simp] theorem atBank_ctx : (atBank s n t rd).ctx = s.ctx := rfl

@[simp] theorem getSem_atBank : getSem (atBank s n t rd) i = getSem s i := rfl

@[simp] theorem getBar_atBank : getBar (atBank s n t rd) i = getBar s i := rfl

@[simp] theorem getCtx_atBank {c : Nat} : getCtx (atBank s n t rd) c = getCtx s c := rfl

@[simp] theorem bankTok_op : (bankTok s n t op i operand timeout).op = op := rfl

@[simp] theorem bankTok_sem : (bankTok s n t op i operand timeout).sem = i := rfl

@[simp] theorem bankTok_operand : (bankTok s n t op i operand timeout).operand = operand := rfl

@[simp] theorem bankTok_timeout : (bankTok s n t op i operand timeout).timeout = timeout := rfl

@[simp] theorem bankTok_src : (bankTok s n t op i operand timeout).src = .thread n t := rfl

@[simp] theorem bankTok_ctx : (bankTok s n t op i operand timeout).ctx = (getThr s n t).ctx := by
  show (getThr (instrDone s n t 4) n t).ctx = _
  rw [getThr_instrDone]

@[simp] theorem bankTok_ctxOn : (bankTok s n t op i operand timeout).ctxOn = ctxValid s n t := by
  show ctxValid (instrDone s n t 4) n t = _
  rw [ctxValid, getThr_instrDone]
  rfl

/-- A thread of the owning partition reaches what is allocated (R294, R295). -/
theorem reaches_bankTok {alloc : Bool} {scope owner form : Nat} (ha : alloc = true)
    (ho : owner = (ptnOfCluster s (n / 8)).getD 0) : reaches (bankTok s n t op i operand timeout) alloc scope owner form = true := by
  rw [reaches, ha, ho]
  exact beq_self_eq_true (α := Nat) _

theorem reaches_bar (hr : ReachesBar s n t i) : reaches (bankTok s n t op i operand timeout) (getBar s i).alloc (getBar s i).scope
    (getBar s i).ptn (getBar s i).form = true := reaches_bankTok hr.2.1 hr.2.2

/-- An operation in the epoch of its bank goes to the semaphore or the barrier that it names (R311). -/
theorem bankOp_sem {tok : Token} {d : Option Nat} (hop : tok.op.onBar = false) (he : tok.epoch = bankEpoch s tok.bank) :
    bankOp s tok d = semOp s tok d := by simp [bankOp, he, hop]

theorem bankOp_bar {tok : Token} {d : Option Nat} (hop : tok.op.onBar = true) (he : tok.epoch = bankEpoch s tok.bank) :
    bankOp s tok d = barOp s tok d := by simp [bankOp, he, hop]

/-- The answer to a thread that waits at the bank (R298, R332). -/
theorem answer_atBank (tok : Token) {fl va : Nat} (hsrc : tok.src = .thread n t) (hv : v.core = (atBank s n t rd).core) :
    AnsweredIn s v (answer v tok st fl va) n t rd st fl va := by
  have hthr : getThr v n t = getThr (atBank s n t rd) n t := getThr_of_core hv
  have heq : answer v tok st fl va = wake v n t rd (rcResult st fl va) := by
    simp only [answer, hsrc, hthr, getThr_atBank, rcRd]
  rw [heq]
  refine ⟨?_, (onlyThread_atBank.trans (onlyThread_of_core hv)).trans onlyThread_wake, rfl⟩
  rw [Replied, getThr_wake (by simp [hthr, getThr_atBank]), hthr, getThr_atBank]
  unfold setX
  split <;> rfl

theorem answerSem_atBank (tok : Token) (hsrc : tok.src = .thread n t) (hv : v.core = (atBank s n t rd).core) :
    AnsweredIn s v (answerSem v tok st) n t rd st (getSem v tok.sem).flags (getSem v tok.sem).value :=
  answer_atBank tok hsrc hv

theorem answerBar_atBank (tok : Token) (hsrc : tok.src = .thread n t) (hv : v.core = (atBank s n t rd).core) :
    AnsweredIn s v (answerBar v tok st) n t rd st (4 * b2n (getBar v tok.sem).abt)
      ((getBar v tok.sem).gen * 65536 + (getBar v tok.sem).count) :=
  answer_atBank tok hsrc hv

theorem AnsweredIn.rc {u : State} {fl va : Nat} (h : AnsweredIn s v u n t rd st fl va) : u.rc = v.rc := by rw [h.2.2]

theorem AnsweredIn.ctx {u : State} {fl va : Nat} (h : AnsweredIn s v u n t rd st fl va) : u.ctx = v.ctx := by rw [h.2.2]

theorem getCtx_of_ctx {u : State} {c : Nat} (h : u.ctx = v.ctx) : getCtx u c = getCtx v c := by rw [getCtx, getCtx, h]

theorem waitFull_bankTok : waitFull v (bankTok s n t op i operand timeout) = false := rfl

/-- A wait that arrives now lies before its own deadline (R251, R296). -/
theorem grantStatus_waitDeadline : grantStatus s (waitDeadline s timeout) = 0 := by
  unfold waitDeadline
  split
  · cases hc : counting s <;> simp [grantStatus, judgeNow, judge, hc]
  · next h =>
    have : now s < now s + timeout := by omega
    cases hc : counting s <;> simp [grantStatus, judgeNow, judge, hc, this]

end Bank

/-- TIMEOUT 0 tries once (R296). -/
theorem enterWait_once {s : State} {tok : Token} {d : Option Nat} (h : tok.timeout = 0) :
    enterWait s tok d = if tok.op.onBar then answerBar s tok 2 else answerSem s tok 2 := if_pos h

/-! ### READ, WRITE, ADD and WAIT_GE (R297) -/

/-- What WRITE leaves of a semaphore: the value, and no flag (R297). -/
def writtenSem (v : Nat) (x : Sem) : Sem := { x with value := v, rev := false, abt := false, rej := false, sat := false }

section SemOps

variable {s v : State} {n t i operand timeout rd : Nat} {d : Option Nat} (hr : ReachesSem s n t i)
include hr

theorem semOp_read : semOp (atBank s n t rd) (bankTok s n t .read i operand timeout) d =
    answerSem (atBank s n t rd) (bankTok s n t .read i operand timeout) 0 := by
  simp [semOp, reaches_bankTok hr.2.1 hr.2.2.1, hr.2.2.2]

theorem semOp_write (hh : heldByAny s i = false) : semOp (atBank s n t rd) (bankTok s n t .write i operand timeout) d =
    grantSem (answerSem (slotDone (modSem (atBank s n t rd) i (writtenSem operand)) i)
      (bankTok s n t .write i operand timeout) 0) i := by
  have hh' : heldByAny (atBank s n t rd) i = false := hh
  simp only [semOp, reaches_bankTok hr.2.1 hr.2.2.1, bankTok_sem, getSem_atBank, hh', Bool.not_true, hr.2.2.2, decide_false, Bool.or_self]
  rfl

theorem semOp_add : semOp (atBank s n t rd) (bankTok s n t .add i operand timeout) d =
    grantSem (answerSem (addSem (atBank s n t rd) i operand) (bankTok s n t .add i operand timeout)
      (if clips s i operand then 5 else 0)) i := by
  have hc : clips (atBank s n t rd) i operand = clips s i operand := rfl
  simp [semOp, reaches_bankTok hr.2.1 hr.2.2.1, hr.2.2.2, hc]

theorem semOp_waitGe : semOp (atBank s n t rd) (bankTok s n t .waitGe i operand timeout) d =
    if operand ≤ (getSem s i).value then
      answerSem (atBank s n t rd) (bankTok s n t .waitGe i operand timeout) (grantStatus s d)
    else enterWait (atBank s n t rd) (bankTok s n t .waitGe i operand timeout) d := by
  have hg : grantStatus (atBank s n t rd) d = grantStatus s d := rfl
  simp [semOp, reaches_bankTok hr.2.1 hr.2.2.1, hr.2.2.2, hg]

end SemOps

/-! ### What an addition and a stored value leave alone -/

section Additions

variable {s : State} {i k : Nat}

/-- A slot's completion is told to its partition alone (R267). -/
theorem slotDone_onlyPtn : slotDone s i = { s with ptn := (slotDone s i).ptn } :=
  (slotDone_kept (i := i) (Kept.refl [.ptn] s) (Within.refl _)).frame

theorem addSem_ctx : (addSem s i k).ctx = s.ctx := (addSem_kept (Kept.refl _ s) (Within.refl _)).rest .ctx (by decide)

theorem getSem_addSem : getSem (addSem s i k) i = { getSem s i with
    value := min ((getSem s i).value + k) 0xFFFFFFFF, sat := (getSem s i).sat || decide (0xFFFFFFFF < (getSem s i).value + k) } :=
  (getSem_of_rc addSem_rc).trans (getSem_modSem s i _)

theorem onlySem_of_rc {u v : State} (h : OnlySem s v i) (hu : u.rc = v.rc) : OnlySem s u i :=
  ⟨fun j hj => (getSem_of_rc hu).trans (h.1 j hj), by rw [hu, h.2]⟩

theorem onlySem_modSem (f : Sem → Sem) : OnlySem s (modSem s i f) i := ⟨fun _ hj => getSem_modSem_other s f hj, rfl⟩

theorem onlySem_addSem : OnlySem s (addSem s i k) i := onlySem_of_rc (onlySem_modSem _) addSem_rc

theorem OnlySem.trans {u v : State} (h : OnlySem s u i) (h' : OnlySem u v i) : OnlySem s v i :=
  ⟨fun j hj => (h'.1 j hj).trans (h.1 j hj), h'.2.trans h.2⟩

/-- Waits stand in the table of waits alone. -/
theorem NobodyWaits.of_waits {u : State} (h : NobodyWaits s i) (hw : u.rc.waits = s.rc.waits) : NobodyWaits u i := by
  unfold NobodyWaits
  rw [hw]
  exact h

theorem waits_addSem : (addSem s i k).rc.waits = s.rc.waits := by rw [addSem_rc]; rfl

end Additions

/-- Settles O8, one operation after the other. -/
theorem semaphoreOpsOfThreads : Obligations.SemaphoreOpsOfThreads := by
  intro s n t i operand timeout rd hr hn
  have at_ {op : RcOp} (hop : op.onBar = false) : rcRow s op (.mesh n t i operand timeout rd) =
      semOp (atBank s n t rd) (bankTok s n t op i operand timeout) (waitDeadline s timeout) :=
    (rcRow_mesh hr.1).trans (bankOp_sem hop rfl)
  refine ⟨?read, fun hh => ?write, ?add, fun hle => ?satisfied, fun hlt h0 => ?once, fun hlt h0 => ?waits⟩
  case read =>
    have ha := answerSem_atBank (s := s) (rd := rd) (st := 0) (bankTok s n t .read i operand timeout) rfl rfl
    exact ⟨_, congrArg Host.Outcome.next ((at_ rfl).trans (semOp_read hr)), ha.1, ha.rc, ha.2.1⟩
  case write =>
    have hcore : (slotDone (modSem (atBank s n t rd) i (writtenSem operand)) i).core = (atBank s n t rd).core := by
      rw [slotDone_onlyPtn]
      rfl
    have hrc : (slotDone (modSem (atBank s n t rd) i (writtenSem operand)) i).rc =
        (modSem (atBank s n t rd) i (writtenSem operand)).rc := by rw [slotDone_onlyPtn]
    have hsem := (getSem_of_rc hrc).trans (getSem_modSem (atBank s n t rd) i (writtenSem operand))
    have ha := answerSem_atBank (st := 0) (bankTok s n t .write i operand timeout) rfl hcore
    have hnobody := hn.of_waits (u := answerSem _ (bankTok s n t .write i operand timeout) 0) (by rw [ha.rc, hrc]; rfl)
    refine ⟨_, congrArg Host.Outcome.next ((at_ rfl).trans ((semOp_write hr hh).trans (grantSem_of_nobody hnobody))), ?_, ?_, ?_, ha.2.1⟩
    · exact (getSem_of_rc ha.rc).trans hsem
    · have h := ha.1
      rwa [bankTok_sem, hsem] at h
    · exact onlySem_of_rc (onlySem_of_rc (onlySem_modSem (s := atBank s n t rd) _) hrc) ha.rc
  case add =>
    have ha := answerSem_atBank (s := s) (rd := rd) (st := if clips s i operand then 5 else 0)
      (v := addSem (atBank s n t rd) i operand) (bankTok s n t .add i operand timeout) rfl addSem_core
    have hnobody := hn.of_waits (u := answerSem (addSem (atBank s n t rd) i operand) (bankTok s n t .add i operand timeout)
      (if clips s i operand then 5 else 0)) (by rw [ha.rc, waits_addSem]; rfl)
    have hsem := (getSem_of_rc (i := i) ha.rc)
    refine ⟨_, congrArg Host.Outcome.next ((at_ rfl).trans ((semOp_add hr).trans (grantSem_of_nobody hnobody))), hsem.trans getSem_addSem, ?_,
      onlySem_of_rc (onlySem_addSem (s := atBank s n t rd)) ha.rc, ha.2.1⟩
    rw [hsem]
    exact ha.1
  case satisfied =>
    have ha := answerSem_atBank (s := s) (rd := rd) (st := 0) (bankTok s n t .waitGe i operand timeout) rfl rfl
    refine ⟨_, congrArg Host.Outcome.next ((at_ rfl).trans ((semOp_waitGe hr).trans (if_pos hle))), ?_⟩
    rw [grantStatus_waitDeadline]
    exact ⟨ha.1, ha.rc, ha.2.1⟩
  case once =>
    have ha := answerSem_atBank (s := s) (rd := rd) (st := 2) (bankTok s n t .waitGe i operand timeout) rfl rfl
    exact ⟨_, congrArg Host.Outcome.next ((at_ rfl).trans ((semOp_waitGe hr).trans ((if_neg (not_le.2 hlt)).trans
      (enterWait_once h0)))), ha.1, ha.rc, ha.2.1⟩
  case waits =>
    obtain ⟨hcore, hrc⟩ := enterWait_waitGe (s := atBank s n t rd) (tok := bankTok s n t .waitGe i operand timeout)
      (d := waitDeadline s timeout) rfl h0 rfl
    refine ⟨_, congrArg Host.Outcome.next ((at_ rfl).trans ((semOp_waitGe hr).trans (if_neg (not_le.2 hlt)))), ?_, ⟨_, hrc, rfl, rfl, ?_⟩,
      onlyThread_atBank.trans (onlyThread_of_core hcore)⟩
    · rw [getThr_of_core hcore, getThr_atBank]
    · simp [waitDeadline, h0]

/-! ### The units of a hold entry (R302) -/

/-- The units that a context's entries count for a semaphore. -/
def heldUnits (hs : List Hold) (i : Nat) : Nat := ((hs.filter (fun h => h.sem == i)).map Hold.units).sum

section Holds

variable {hs : List Hold} {i k : Nat} {f : Hold → Hold}

theorem heldUnits_cons {h : Hold} : heldUnits (h :: hs) i = (if h.sem = i then h.units else 0) + heldUnits hs i := by
  by_cases e : h.sem = i <;> simp [heldUnits, e]

theorem heldUnits_append {gs : List Hold} : heldUnits (hs ++ gs) i = heldUnits hs i + heldUnits gs i := by
  simp [heldUnits]

/-- An entry that is freed held no units. -/
theorem heldUnits_freeHolds : heldUnits (freeHolds hs) i = heldUnits hs i := by
  induction hs with
  | nil => rfl
  | cons h hs ih =>
    by_cases e : 0 < h.units + h.reserved
    · rw [freeHolds, List.filter_cons_of_pos (by simpa using e), heldUnits_cons, heldUnits_cons, ← freeHolds, ih]
    · rw [freeHolds, List.filter_cons_of_neg (by simpa using e), heldUnits_cons, ← freeHolds, ih]
      have : h.units = 0 := by omega
      simp [this]

/-- The first entry of a semaphore is found, and with it changed the rest stands. -/
theorem heldUnits_modifyFirst {h : Hold} (hf : hs.find? (fun h => h.sem == i) = some h) (hsem : (f h).sem = i) :
    heldUnits (modifyFirst (fun h => h.sem == i) f hs) i + h.units = heldUnits hs i + (f h).units := by
  induction hs with
  | nil => simp at hf
  | cons x xs ih =>
    by_cases e : x.sem = i
    · obtain rfl : x = h := by simpa [e] using hf
      simp only [modifyFirst, e, beq_self_eq_true, if_true, heldUnits_cons, hsem]
      omega
    · have hf' : xs.find? (fun h => h.sem == i) = some h := by simpa [e] using hf
      simp only [modifyFirst, beq_iff_eq, e, if_false, heldUnits_cons]
      have := ih hf'
      omega

theorem sem_of_find {h : Hold} (hf : hs.find? (fun h => h.sem == i) = some h) : h.sem = i := by
  simpa using List.find?_some hf

/-- Units that are taken are added to the first entry, or to a new one. -/
theorem heldUnits_take : heldUnits (modHold hs i (fun h => { h with units := h.units + k })) i = heldUnits hs i + k := by
  rw [modHold, heldUnits_freeHolds]
  cases hf : hs.find? (fun h => h.sem == i) with
  | none =>
    have hany : hs.any (fun h => h.sem == i) = false := by
      rw [List.any_eq_false]
      exact List.find?_eq_none.1 hf
    rw [if_neg (by simp [hany]), heldUnits_append]
    simp [heldUnits]
  | some h =>
    have hany : hs.any (fun h => h.sem == i) = true :=
      List.any_eq_true.2 ⟨h, List.mem_of_find?_eq_some hf, by simp [sem_of_find hf]⟩
    rw [if_pos hany]
    have := heldUnits_modifyFirst (f := fun h => { h with units := h.units + k }) hf
      (show h.sem = i from sem_of_find hf)
    simp only at this
    omega

/-- Units that are given come from the first entry. -/
theorem heldUnits_give {h : Hold} (hf : hs.find? (fun h => h.sem == i) = some h) (hk : k ≤ h.units) :
    heldUnits (modHold hs i (fun h => { h with units := h.units - k })) i + k = heldUnits hs i := by
  have hany : hs.any (fun h => h.sem == i) = true :=
    List.any_eq_true.2 ⟨h, List.mem_of_find?_eq_some hf, by simp [sem_of_find hf]⟩
  rw [modHold, heldUnits_freeHolds, if_pos hany]
  have := heldUnits_modifyFirst (f := fun h => { h with units := h.units - k }) hf
      (show h.sem = i from sem_of_find hf)
  simp only at this
  omega

end Holds

/-! ### ACQUIRE and RELEASE (R302) -/

/-- Units go from a semaphore to a context's hold entry. -/
def takeUnits (s : State) (c i k : Nat) : State :=
  holdFor (modSem s i (fun x => { x with value := x.value - k })) c i (fun h => { h with units := h.units + k })

/-- Units go back from a context's hold entry to the semaphore. -/
def giveUnits (s : State) (c i k : Nat) : State := addSem (holdFor s c i (fun h => { h with units := h.units - k })) i k

section Units

variable {s : State} {c i k : Nat}

theorem getSem_takeUnits : getSem (takeUnits s c i k) i = { getSem s i with value := (getSem s i).value - k } :=
  getSem_modSem s i (fun x => { x with value := x.value - k })

theorem onlySem_takeUnits : OnlySem s (takeUnits s c i k) i := onlySem_modSem (s := s) (fun x => { x with value := x.value - k })

theorem heldUnits_takeUnits : heldUnits (getCtx (takeUnits s c i k) c).holds i = heldUnits (getCtx s c).holds i + k := by
  rw [takeUnits, holdFor, getCtx_modCtx]
  exact heldUnits_take

theorem getSem_giveUnits (hc : (getSem s i).value + k ≤ 0xFFFFFFFF) :
    getSem (giveUnits s c i k) i = { getSem s i with value := (getSem s i).value + k } := by
  have hsem : getSem (holdFor s c i (fun h => { h with units := h.units - k })) i = getSem s i := rfl
  rw [giveUnits, getSem_addSem, hsem, min_eq_left hc, decide_eq_false (not_lt.2 hc), Bool.or_false]

theorem onlySem_giveUnits : OnlySem s (giveUnits s c i k) i :=
  onlySem_addSem (s := holdFor s c i (fun h => { h with units := h.units - k }))

theorem heldUnits_giveUnits {h : Hold} (hf : (getCtx s c).holds.find? (fun h => h.sem == i) = some h) (hk : k ≤ h.units) :
    heldUnits (getCtx (giveUnits s c i k) c).holds i + k = heldUnits (getCtx s c).holds i := by
  rw [giveUnits, getCtx, addSem_ctx, ← getCtx, holdFor, getCtx_modCtx]
  exact heldUnits_give hf hk

end Units

section Acquire

variable {s : State} {n t i operand timeout rd : Nat} {d : Option Nat} (hr : ReachesSem s n t i) (hscope : (getSem s i).scope = 0)
  (hctx : ctxValid s n t = true)
include hr hscope hctx

theorem semOp_acquire (h0 : 0 < operand) (hn : NobodyWaits s i)
    (hroom : hasHold (getCtx s (getThr s n t).ctx) i = true ∨ (getCtx s (getThr s n t).ctx).holds.length < 8)
    (hle : operand ≤ (getSem s i).value) : semOp (atBank s n t rd) (bankTok s n t .acquire i operand timeout) d =
      answerSem (takeUnits (atBank s n t rd) (getThr s n t).ctx i operand) (bankTok s n t .acquire i operand timeout) 0 := by
  have hfull : (!hasHold (getCtx s (getThr s n t).ctx) i && decide (8 ≤ (getCtx s (getThr s n t).ctx).holds.length)) = false := by
    rcases hroom with h | h
    · simp [h]
    · simp [not_le.2 h]
  have hnone : s.rc.waits.any (fun w => w.tok.op == .acquire && w.tok.sem == i && w.live && w.granted.isNone) = false :=
    List.any_eq_false.2 fun w hw => by simp [hn w hw]
  simp only [semOp, reaches_bankTok hr.2.1 hr.2.2.1, hr.2.2.2, bankTok_sem, bankTok_op, bankTok_ctx, bankTok_ctxOn, bankTok_operand,
    hscope, hctx, getSem_atBank, getCtx_atBank, atBank_rc, h0.ne', hle, hnone]
  simp only [Bool.not_true, Bool.and_false, Bool.or_false, decide_true, decide_false, Bool.false_eq_true, if_false, Bool.true_and,
    hfull, Bool.not_false, Bool.and_true, if_true]
  rfl

theorem semOp_acquire_full (h0 : 0 < operand) (hhold : hasHold (getCtx s (getThr s n t).ctx) i = false)
    (hfull : 8 ≤ (getCtx s (getThr s n t).ctx).holds.length) :
    semOp (atBank s n t rd) (bankTok s n t .acquire i operand timeout) d =
      answerSem (atBank s n t rd) (bankTok s n t .acquire i operand timeout) 7 := by
  simp [semOp, reaches_bankTok hr.2.1 hr.2.2.1, hr.2.2.2, hscope, hctx, h0.ne', hhold, hfull]

theorem semOp_release {h : Hold} (h0 : 0 < operand) (hf : (getCtx s (getThr s n t).ctx).holds.find? (fun h => h.sem == i) = some h)
    (hk : operand ≤ h.units) (hc : (getSem s i).value + operand ≤ 0xFFFFFFFF) :
    semOp (atBank s n t rd) (bankTok s n t .release i operand timeout) d =
      grantSem (answerSem (giveUnits (atBank s n t rd) (getThr s n t).ctx i operand) (bankTok s n t .release i operand timeout) 0) i := by
  have hany : (getCtx s (getThr s n t).ctx).holds.any
      (fun h => h.sem == i && decide (operand ≤ h.units) && decide (0 < h.units)) = true :=
    List.any_eq_true.2 ⟨h, List.mem_of_find?_eq_some hf, by simp [sem_of_find hf, hk, h0.trans_le hk]⟩
  have hclip : clips (atBank s n t rd) i operand = false := by simp [clips, not_lt.2 hc]
  simp only [semOp, reaches_bankTok hr.2.1 hr.2.2.1, hr.2.2.2, bankTok_sem, bankTok_op, bankTok_ctx, bankTok_ctxOn, bankTok_operand,
    hscope, hctx, getSem_atBank, getCtx_atBank, hclip, decide_false, Bool.not_true, Bool.or_false, Bool.false_eq_true, if_false,
    if_true]
  exact if_neg (by rw [Bool.not_eq_true, Bool.not_eq_false']; exact hany)

theorem semOp_release_short (hs : ∀ h ∈ (getCtx s (getThr s n t).ctx).holds, h.sem = i → h.units < operand) :
    semOp (atBank s n t rd) (bankTok s n t .release i operand timeout) d =
      answerSem (atBank s n t rd) (bankTok s n t .release i operand timeout) 8 := by
  have hany : (getCtx s (getThr s n t).ctx).holds.any
      (fun h => h.sem == i && decide (operand ≤ h.units) && decide (0 < h.units)) = false := by
    refine List.any_eq_false.2 fun h hh => ?_
    by_cases e : h.sem = i
    · simp [not_le.2 (hs h hh e)]
    · simp [e]
  simp only [semOp, reaches_bankTok hr.2.1 hr.2.2.1, hr.2.2.2, bankTok_sem, bankTok_op, bankTok_ctx, bankTok_ctxOn, bankTok_operand,
    hscope, hctx, getSem_atBank, getCtx_atBank, decide_false, Bool.not_true, Bool.or_false, Bool.false_eq_true, if_false, if_true]
  exact if_pos (by rw [Bool.not_eq_true']; exact hany)

end Acquire

/-- Settles O9: the hold entry's units move with the semaphore's value. -/
theorem acquireAndRelease : Obligations.AcquireAndRelease := by
  intro s n t i operand timeout rd hr hn hscope hctx h0
  have at_ {op : RcOp} (hop : op.onBar = false) : rcRow s op (.mesh n t i operand timeout rd) =
      semOp (atBank s n t rd) (bankTok s n t op i operand timeout) (waitDeadline s timeout) :=
    (rcRow_mesh hr.1).trans (bankOp_sem hop rfl)
  refine ⟨fun hroom hle => ?acquire, fun hhold hfull => ?full, fun h hf hk hc => ?release, fun hs => ?short⟩
  case acquire =>
    have ha := answerSem_atBank (s := s) (rd := rd) (st := 0) (bankTok s n t .acquire i operand timeout) rfl
      (v := takeUnits (atBank s n t rd) (getThr s n t).ctx i operand) rfl
    refine ⟨_, congrArg Host.Outcome.next ((at_ rfl).trans (semOp_acquire hr hscope hctx h0 hn hroom hle)),
      (getSem_of_rc ha.rc).trans getSem_takeUnits, ?_, ?_, onlySem_of_rc (onlySem_takeUnits (s := atBank s n t rd)) ha.rc, ha.2.1⟩
    · show heldUnits (getCtx _ _).holds i = heldUnits (getCtx s _).holds i + operand
      rw [getCtx_of_ctx ha.ctx]
      exact heldUnits_takeUnits
    · have h := ha.1
      rwa [bankTok_sem, getSem_takeUnits] at h
  case full =>
    have ha := answerSem_atBank (s := s) (rd := rd) (st := 7) (bankTok s n t .acquire i operand timeout) rfl rfl
    exact ⟨_, congrArg Host.Outcome.next ((at_ rfl).trans (semOp_acquire_full hr hscope hctx h0 hhold hfull)), ha.1, ha.rc, ha.ctx,
      ha.2.1⟩
  case release =>
    have ha := answerSem_atBank (s := s) (rd := rd) (st := 0) (bankTok s n t .release i operand timeout) rfl
      (v := giveUnits (atBank s n t rd) (getThr s n t).ctx i operand) addSem_core
    have hsem := getSem_giveUnits (s := atBank s n t rd) (c := (getThr s n t).ctx) hc
    have hnobody := hn.of_waits (u := answerSem (giveUnits (atBank s n t rd) (getThr s n t).ctx i operand)
      (bankTok s n t .release i operand timeout) 0) (by rw [ha.rc, giveUnits, waits_addSem]; rfl)
    refine ⟨_, congrArg Host.Outcome.next ((at_ rfl).trans ((semOp_release hr hscope hctx h0 hf hk hc).trans
      (grantSem_of_nobody hnobody))), (getSem_of_rc ha.rc).trans hsem, ?_, ?_, onlySem_of_rc (onlySem_giveUnits (s := atBank s n t rd)) ha.rc, ha.2.1⟩
    · show heldUnits (getCtx _ _).holds i + operand = heldUnits (getCtx s _).holds i
      rw [getCtx_of_ctx ha.ctx]
      exact heldUnits_giveUnits hf hk
    · have h := ha.1
      rwa [bankTok_sem, hsem] at h
  case short =>
    have ha := answerSem_atBank (s := s) (rd := rd) (st := 8) (bankTok s n t .release i operand timeout) rfl rfl
    exact ⟨_, congrArg Host.Outcome.next ((at_ rfl).trans (semOp_release_short hr hscope hctx hs)), ha.1, ha.rc, ha.ctx, ha.2.1⟩

end Sys2Proof.Machine
end

section
/-! SUPPORT and proof of O10: the arrivals and the generations of a barrier (R305). -/

namespace Sys2Proof.Machine

/-! ### Barriers alone -/

section Bars

variable {s u v : State} {i : Nat}

theorem getBar_of_rc (h : u.rc = s.rc) : getBar u i = getBar s i := by rw [getBar, getBar, h]

theorem onlyBar_modBar (f : Bar → Bar) : OnlyBar s (modBar s i f) i := ⟨fun _ hj => getBar_modBar_other s f hj, rfl⟩

theorem onlyBar_of_rc (h : OnlyBar s v i) (hu : u.rc = v.rc) : OnlyBar s u i :=
  ⟨fun j hj => (getBar_of_rc hu).trans (h.1 j hj), by rw [hu, h.2]⟩

theorem barGo_nil : ∀ k, barGo k s [] = s
  | 0 => rfl
  | _ + 1 => rfl

/-- No wait on the barrier is granted when none is there. -/
theorem grantBar_of_nobody (h : NobodyWaits s i) : grantBar s i = s := by
  have hws : s.rc.waits.filter (fun w => w.tok.op == .waitGen && w.tok.sem == i && w.live && w.granted.isNone
      && w.tok.operand / 65536 != (getBar s i).gen) = [] :=
    List.filter_eq_nil_iff.2 fun w hw => by simp [h w hw]
  rw [grantBar, hws, forEach_nil]

/-- A barrier without recorded children completes with no event (R305). -/
theorem completeBar_childless (hc : (getBar s i).children = []) (hn : NobodyWaits s i) : completeBar s i =
    (modBar s i (fun b => { b with gen := wrap 16 (b.gen + 1), count := 0, children := [], completing := false }), []) := by
  have hn' := hn.of_waits (u := modBar s i (fun b =>
    { b with gen := wrap 16 (b.gen + 1), count := 0, children := [], completing := false })) rfl
  simp only [completeBar, hc, List.foldl_nil, grantBar_of_nobody hn']

theorem arriveStatus_counted {b : Bar} {gen k : Nat} (hg : gen = b.gen) (hc : b.completing = false) (hk : 0 < k)
    (ht : b.count + k ≤ b.target) : arriveStatus b gen k none = 0 := by
  simp [arriveStatus, hg, hc, hk.ne', not_lt.2 ht]

theorem arriveStatus_wrongGen {b : Bar} {gen k : Nat} (hg : gen ≠ b.gen) (hk : 0 < k) : arriveStatus b gen k none = 10 := by
  simp [arriveStatus, hg, hk.ne']

theorem countArrive_below {k : Nat} (h : (getBar s i).count + k < (getBar s i).target) :
    countArrive s i k none = (modBar s i (fun _ => { getBar s i with count := (getBar s i).count + k }), []) := by
  simp [countArrive, h.ne]

/-- A barrier whose last arrivals have been counted, in its next generation. -/
def generationDone (s : State) (i k : Nat) : State :=
  modBar (modBar s i (fun _ => { getBar s i with count := (getBar s i).count + k })) i (fun b =>
    { b with gen := wrap 16 (b.gen + 1), count := 0, children := [], completing := false })

theorem nextGen_of_childless {b : Bar} {g : Nat} (h : b.children = []) :
    ({ b with gen := g, count := 0, children := [], completing := false } : Bar) =
      { b with gen := g, count := 0, completing := false } := by
  cases b
  cases h
  rfl

theorem nextGen_of_idle {b : Bar} {g : Nat} (h : b.children = []) (hc : b.completing = false) :
    ({ b with gen := g, count := 0, children := [], completing := false } : Bar) = { b with gen := g, count := 0 } := by
  cases b
  cases h
  cases hc
  rfl

theorem generationDone_core {k : Nat} : (generationDone s i k).core = s.core := rfl

theorem getBar_generationDone {k : Nat} : getBar (generationDone s i k) i =
    { getBar s i with gen := wrap 16 ((getBar s i).gen + 1), count := 0, children := [], completing := false } := by
  rw [generationDone, getBar_modBar, getBar_modBar]

theorem onlyBar_generationDone {k : Nat} : OnlyBar s (generationDone s i k) i :=
  ⟨fun _ hj => (getBar_modBar_other _ _ hj).trans (getBar_modBar_other _ _ hj), rfl⟩

/-- The arrival that reaches TARGET of a root without children. -/
theorem countArrive_completes {k : Nat} (h : (getBar s i).count + k = (getBar s i).target) (hroot : (getBar s i).upLmn = 0x3FF)
    (hc : (getBar s i).children = []) (hn : NobodyWaits s i) : countArrive s i k none = (generationDone s i k, []) := by
  have hbar : getBar (modBar s i (fun _ => { getBar s i with count := (getBar s i).count + k })) i = _ := getBar_modBar s i _
  have hn' := hn.of_waits (u := modBar s i (fun _ => { getBar s i with count := (getBar s i).count + k })) rfl
  rw [generationDone, ← completeBar_childless (by rw [hbar]; exact hc) hn']
  simp [countArrive, h, hroot]

end Bars

/-! ### A thread's operation at a barrier -/

section BarOps

variable {s : State} {n t i operand timeout rd : Nat} {d : Option Nat} (hr : ReachesBar s n t i)
include hr

theorem barOp_arrive_refused {st : Nat} (hst : arriveStatus (getBar s i) (operand / 65536 % 65536) (operand % 65536) none = st)
    (h0 : st ≠ 0) : barOp (atBank s n t rd) (bankTok s n t .arrive i operand timeout) d =
      answerBar (atBank s n t rd) (bankTok s n t .arrive i operand timeout) st := by
  simp [barOp, reaches_bankTok hr.2.1 hr.2.2, hst, h0]

theorem barOp_arrive_counted {v : State}
    (hst : arriveStatus (getBar s i) (operand / 65536 % 65536) (operand % 65536) none = 0)
    (hc : countArrive (atBank s n t rd) i (operand % 65536) none = (v, [])) :
    barOp (atBank s n t rd) (bankTok s n t .arrive i operand timeout) d =
      answerBar v (bankTok s n t .arrive i operand timeout) 0 := by
  simp [barOp, reaches_bankTok hr.2.1 hr.2.2, hst, hc, barGo_nil]

theorem barOp_waitGen : barOp (atBank s n t rd) (bankTok s n t .waitGen i operand timeout) d =
    if operand / 65536 % 65536 ≠ (getBar s i).gen then
      answerBar (atBank s n t rd) (bankTok s n t .waitGen i operand timeout) 0
    else enterWait (atBank s n t rd) (bankTok s n t .waitGen i operand timeout) d := by
  simp only [barOp, reaches_bankTok hr.2.1 hr.2.2, bankTok_op, bankTok_sem, bankTok_operand, getBar_atBank, Bool.not_true,
    Bool.false_eq_true, if_false]
  rfl

theorem barOp_barRelease : barOp (atBank s n t rd) (bankTok s n t .barRelease i operand timeout) d =
    answerBar (atBank s n t rd) (bankTok s n t .barRelease i operand timeout) 6 := by
  simp [barOp, reaches_bankTok hr.2.1 hr.2.2]

end BarOps

/-! ### A BAR_RELEASE from the parent's module (R305) -/

section Release

variable {α : Type} {d : α} {t : Tbl α} {i : Nat}

/-- An entry of a sorted table is what is read there. -/
theorem tget_of_mem (hs : tsorted none t = true) {v : α} (h : (i, v) ∈ t) : tget d t i = v := by
  induction t with
  | nil => cases h
  | cons e t ih =>
    obtain ⟨k, x⟩ := e
    rw [tsorted_cons] at hs
    rw [tget_cons]
    rcases List.mem_cons.1 h with e | h
    · obtain ⟨rfl, rfl⟩ := Prod.mk.injEq .. ▸ e
      exact if_pos rfl
    · rw [if_neg (hs.1 _ h).ne]
      exact ih hs.2 h

/-- A number whose entry is not the default stands in the table. -/
theorem mem_of_tget_ne (h : tget d t i ≠ d) : (i, tget d t i) ∈ t := by
  induction t with
  | nil => exact absurd rfl h
  | cons e t ih =>
    obtain ⟨k, x⟩ := e
    rw [tget_cons] at h ⊢
    split
    · next e => exact e ▸ List.mem_cons_self
    · next e => exact List.mem_cons_of_mem _ (ih (by rwa [if_neg e] at h))

theorem tsorted_tmod [DecidableEq α] {f : α → α} (hs : tsorted none t = true) : tsorted none (tmod d t i f) = true := by
  unfold tmod tset
  split
  · exact tsorted_tdel hs
  · exact tsorted_tput hs

/-- A change at `i` leaves the entries of the other numbers, and at `i` the new value. -/
theorem mem_tmod [DecidableEq α] {f : α → α} (hs : tsorted none t = true) {e : Nat × α} (h : e ∈ tmod d t i f) :
    (e.1 = i ∧ e.2 = f (tget d t i)) ∨ (e.1 ≠ i ∧ e ∈ t) := by
  obtain ⟨j, v⟩ := e
  by_cases hj : j = i
  · subst hj
    exact .inl ⟨rfl, (tget_of_mem (tsorted_tmod hs) h).symm.trans tget_tmod_same⟩
  · refine .inr ⟨hj, ?_⟩
    unfold tmod tset at h
    split at h
    · exact mem_tdel h
    · exact (mem_tput h).resolve_left fun e => hj (congrArg Prod.fst e)

end Release

section Frames

variable {s : State} {port : Nat} {f : List Byte} {op : RcOp}

/-- The operation of an OP code has that code (R297). -/
theorem code_of_rcOpOf {c : Nat} (h : rcOpOf c = some op) : c = op.code := by
  unfold rcOpOf at h
  split at h
  case h_10 => cases h
  all_goals (injection h with h; subst h; rfl)

/-- A sound frame of its command's TYPE, for this module where its TYPE has a destination, has its effect (R287). -/
theorem takeFrame_sound {type : Nat} {resOk : Bool} {act : State → State} (ht : frType f = type) (h10 : type < 10)
    (hd : 2 ≤ type → type ≤ 5 → isOwnLmn s (frDst f) = true) (hc : fcrcOk f = true) (h0 : frameBits f 227 224 = 0)
    (hr : resOk = true) : takeFrame s f type resOk act = act s := by
  have hown : ¬(2 ≤ type ∧ type ≤ 5 ∧ (!isOwnLmn s (frDst f)) = true) := fun h => by simp [hd h.1 h.2.1] at h
  rw [takeFrame, ht, if_neg (not_le.2 h10), if_neg (not_not.2 rfl), if_neg hown]
  simp [hc, h0, hr]

/-- A sound TOKEN frame for this module is its operation at its bank (R287, R296). -/
theorem tokenIn_sound (hop : rcOpOf (frameBits f 223 220) = some op) (ht : frType f = 2) (hd : isOwnLmn s (frDst f) = true)
    (hc : fcrcOk f = true) (h0 : frameBits f 227 224 = 0) (hr : tokenResOk f op = true) :
    tokenIn s port f op = bankOp s (frameTok f port op) (waitDeadline s (frameTok f port op).timeout) := by
  rw [tokenIn, if_neg (by simp [hop]), if_neg (not_not.2 (code_of_rcOpOf hop)),
    takeFrame_sound ht (by norm_num) (fun _ _ => hd) hc h0 hr]

end Frames

section Parent

variable {s : State} {i lmn bar gen form : Nat}

/-- The barrier has reported to this parent for this generation and waits for it (R305). -/
def waitsFor (lmn bar gen form : Nat) (e : Nat × Bar) : Bool :=
  e.2.alloc && e.2.completing && e.2.upLmn == lmn && e.2.upBar == bar && e.2.gen == gen && e.2.form == form

theorem mem_modBar {f : Bar → Bar} (hs : tsorted none s.rc.bar = true) {e : Nat × Bar} (h : e ∈ (modBar s i f).rc.bar) :
    (e.1 = i ∧ e.2 = f (getBar s i)) ∨ (e.1 ≠ i ∧ e ∈ s.rc.bar) := mem_tmod hs h

theorem barGo_release {k : Nat} {es : List BarEvent} : barGo (k + 1) s (.release lmn bar gen form :: es) =
    match s.rc.bar.find? (waitsFor lmn bar gen form) with
    | some e => barGo k (completeBar s e.1).1 (.release lmn bar gen form :: es ++ (completeBar s e.1).2)
    | none => barGo k s es := rfl

/-- A parent's release completes the one barrier that waits for it, and no other. -/
theorem barGo_release_one {k : Nat} (hs : tsorted none s.rc.bar = true)
    (hone : ∀ e ∈ s.rc.bar, waitsFor lmn bar gen form e = true ↔ e.1 = i) (hi : waitsFor lmn bar gen form (i, getBar s i) = true)
    (hc : (getBar s i).children = []) (hn : NobodyWaits s i) : barGo (k + 2) s [.release lmn bar gen form] =
      modBar s i (fun b => { b with gen := wrap 16 (b.gen + 1), count := 0, children := [], completing := false }) := by
  have hmem : (i, getBar s i) ∈ s.rc.bar := mem_of_tget_ne fun h => by
    rw [show getBar s i = default from h] at hi
    cases hi
  obtain ⟨e, he⟩ := Option.isSome_iff_exists.1 (List.find?_isSome.2 ⟨_, hmem, hi⟩)
  have hei : e.1 = i := (hone e (List.mem_of_find?_eq_some he)).1 (List.find?_some he)
  rw [barGo_release, he]
  simp only [hei, completeBar_childless hc hn, List.append_nil]
  rw [barGo_release, List.find?_eq_none.2, barGo_nil]
  intro x hx hw
  rcases mem_modBar hs hx with ⟨-, hv⟩ | ⟨hne, hm⟩
  · simp [waitsFor, hv] at hw
  · exact hne ((hone x hm).1 hw)

end Parent

/-- Settles O10. -/
theorem barrierOps : Obligations.BarrierOps := by
  refine ⟨fun s n t i operand timeout rd hr hn => ?_, ?_⟩
  · have at_ {op : RcOp} (hop : op.onBar = true) : rcRow s op (.mesh n t i operand timeout rd) =
        barOp (atBank s n t rd) (bankTok s n t op i operand timeout) (waitDeadline s timeout) :=
      (rcRow_mesh hr.1).trans (bankOp_bar hop rfl)
    -- an answer from the state in which the operation has come
    have refused {op : RcOp} {st : Nat} := answerBar_atBank (s := s) (rd := rd) (st := st) (bankTok s n t op i operand timeout) rfl rfl
    refine ⟨fun hg hc hk hlt => ?counts, fun hg hc hk he hroot hch => ?completes, fun hg hk => ?wrongGen, fun hg => ?passed,
      fun hg h0 => ?once, ?malformed⟩
    case counts =>
      have ha := answerBar_atBank (s := s) (rd := rd) (st := 0) (bankTok s n t .arrive i operand timeout) rfl
        (v := modBar (atBank s n t rd) i (fun _ => { getBar s i with count := (getBar s i).count + operand % 65536 })) rfl
      have hbar := getBar_modBar (atBank s n t rd) i (fun _ => { getBar s i with count := (getBar s i).count + operand % 65536 })
      refine ⟨_, congrArg Host.Outcome.next ((at_ rfl).trans (barOp_arrive_counted hr (arriveStatus_counted hg hc hk hlt.le)
        (countArrive_below hlt))), (getBar_of_rc ha.rc).trans hbar, ?_, onlyBar_of_rc (onlyBar_modBar (s := atBank s n t rd) _) ha.rc,
        ha.2.1⟩
      have h := ha.1
      rwa [bankTok_sem, hbar] at h
    case completes =>
      have ha := answerBar_atBank (s := s) (rd := rd) (st := 0) (bankTok s n t .arrive i operand timeout) rfl
        (v := generationDone (atBank s n t rd) i (operand % 65536)) generationDone_core
      have hbar := getBar_generationDone (s := atBank s n t rd) (i := i) (k := operand % 65536)
      refine ⟨_, congrArg Host.Outcome.next ((at_ rfl).trans (barOp_arrive_counted hr (arriveStatus_counted hg hc hk he.le)
        (countArrive_completes he hroot hch hn))), (getBar_of_rc ha.rc).trans (hbar.trans (nextGen_of_idle hch hc)), ?_,
        onlyBar_of_rc (onlyBar_generationDone (s := atBank s n t rd)) ha.rc, ha.2.1⟩
      simpa only [bankTok_sem, hbar, getBar_atBank, Nat.add_zero] using ha.1
    case wrongGen =>
      exact ⟨_, congrArg Host.Outcome.next ((at_ rfl).trans (barOp_arrive_refused hr (arriveStatus_wrongGen hg hk) (by norm_num))),
        refused.1, refused.rc, refused.2.1⟩
    case passed =>
      exact ⟨_, congrArg Host.Outcome.next ((at_ rfl).trans ((barOp_waitGen hr).trans (if_pos hg))), refused.1, refused.rc,
        refused.2.1⟩
    case once =>
      exact ⟨_, congrArg Host.Outcome.next ((at_ rfl).trans ((barOp_waitGen hr).trans ((if_neg (not_not.2 hg)).trans
        (enterWait_once h0)))), refused.1, refused.rc, refused.2.1⟩
    case malformed =>
      exact ⟨_, congrArg Host.Outcome.next ((at_ rfl).trans (barOp_barRelease hr)), refused.1, refused.rc, refused.2.1⟩
  · intro s port f i hop ht hd hc h0 hres hepoch up hs hone hi hch hn
    have hrow : rcRow s .barRelease (.frame port f) = barGo barFuel s
        [.release (frSrc f) (frameBits f 201 186) (frameBits f 161 130 / 65536 % 65536) (frameBits f 97 86)] := by
      rw [rcRow, tokenIn_sound hop ht hd hc h0 hres, bankOp_bar rfl hepoch]
      rfl
    refine ⟨_, congrArg Host.Outcome.next (hrow.trans (barGo_release_one hs hone hi hch hn)), ?_, onlyBar_modBar _⟩
    rw [getBar_modBar]
    exact nextGen_of_childless hch

end Sys2Proof.Machine
end

section
/-! SUPPORT and proofs of O11, O12, O17: frames of the sync lanes (R287, R288, R291, R312, R441), how waits and requests end (R300,
R313), credits (R307), and an engine's increment (R301). -/

namespace Sys2Proof.Machine

/-! ### What a fault leaves alone -/

section Raise

variable {s : State} {c : FaultCode} {a : FaultAt}

@[simp] theorem raise_rc : (raise s c a).rc = s.rc := by rw [(raise_spec s c a).2.2]

@[simp] theorem raise_core : (raise s c a).core = s.core := by rw [(raise_spec s c a).2.2]

@[simp] theorem raise_mem : (raise s c a).mem = s.mem := by rw [(raise_spec s c a).2.2]

@[simp] theorem raise_fab : (raise s c a).fab = s.fab := by rw [(raise_spec s c a).2.2]

@[simp] theorem raise_lastCode : (raise s c a).int.lastCode = c.code := (raise_spec s c a).1

end Raise

/-! ### Frames handed to the lanes (R284) -/

section Send

variable {s : State}

theorem mem_insertBy {α : Type} {key : α → Nat} {x y : α} {xs : List α} : x ∈ insertBy key y xs ↔ x = y ∨ x ∈ xs := by
  induction xs with
  | nil => simp [insertBy]
  | cons z zs ih =>
    unfold insertBy
    split
    · simp only [List.mem_cons, ih, or_left_comm]
    · exact List.mem_cons

theorem forEach_syncSend_frame {ps : List Nat} {type : Nat} {fr : Nat → List Byte} :
    forEach ps (fun u p => syncSend u p type (fr p)) s =
      { s with rc.txq := (forEach ps (fun u p => syncSend u p type (fr p)) s).rc.txq } := by
  induction ps generalizing s with
  | nil => rfl
  | cons p ps ih =>
    rw [forEach_cons, ih]
    rfl

/-- A frame that waits for its lane goes on waiting, and one waits for every port. -/
theorem forEach_syncSend_txq {ps : List Nat} {type : Nat} {fr : Nat → List Byte} {x : SyncTx} :
    x ∈ (forEach ps (fun u p => syncSend u p type (fr p)) s).rc.txq ↔
      x ∈ s.rc.txq ∨ ∃ p ∈ ps, x = { prio := syncPrio type, port := p, bytes := fr p } := by
  induction ps generalizing s with
  | nil => simp
  | cons p ps ih =>
    rw [forEach_cons, ih, syncSend, mem_insertBy]
    simp only [List.exists_mem_cons_iff]
    tauto

theorem forEach_syncSend_sent {ps : List Nat} {type p : Nat} {fr : Nat → List Byte} (h : p ∈ ps) :
    ∃ x ∈ (forEach ps (fun u p => syncSend u p type (fr p)) s).rc.txq, x.port = p ∧ x.bytes = fr p :=
  ⟨_, forEach_syncSend_txq.2 (.inr ⟨p, h, rfl⟩), rfl, rfl⟩

end Send

/-! ### TOKEN frames (R287, R296, R311) -/

section Tokens

variable {s : State} {tok : Token} {d : Option Nat}

/-- The answer to another module's operation leaves the banks alone. -/
theorem answer_remote {lmn port st fl va : Nat} (h : tok.src = .remote lmn port) :
    (answer s tok st fl va).rc.sem = s.rc.sem ∧ (answer s tok st fl va).rc.bar = s.rc.bar := by
  simp only [answer, h]
  rw [syncRoute_spec.2]
  exact ⟨rfl, rfl⟩

/-- An operation in another epoch than its bank's is not executed (R311). -/
theorem bankOp_stale (h : tok.epoch ≠ bankEpoch s tok.bank) : bankOp s tok d = answerOpen s tok 3 := if_pos h

end Tokens

/-! ### EPOCH frames (R312) -/

section Abort

variable {s : State} {f : OutReq → Bool}

theorem filter_eraseFirst {α : Type} [BEq α] [LawfulBEq α] {P : α → Bool} {x : α} {xs : List α} (hx : P x = true) :
    (eraseFirst (· == x) xs).filter P = eraseFirst (· == x) (xs.filter P) := by
  induction xs with
  | nil => rfl
  | cons y ys ih =>
    by_cases e : y = x
    · subst e
      simp [eraseFirst, hx]
    · cases hy : P y <;> simp [eraseFirst, e, hy, ih]

theorem filter_modifyFirst {α : Type} {P q : α → Bool} {g : α → α} {xs : List α} (h : ∀ x, q x = true → P x = false ∧ P (g x) = false) :
    (modifyFirst q g xs).filter P = xs.filter P := by
  induction xs with
  | nil => rfl
  | cons y ys ih =>
    cases hq : q y
    · simp only [modifyFirst, hq, Bool.false_eq_true, if_false, List.filter_cons, ih]
    · simp only [modifyFirst, hq, if_true, List.filter_cons, h y hq, Bool.false_eq_true, if_false]

/-- A request that waits for its reply, and not for the return of its context. -/
def openOut (f : OutReq → Bool) (o : OutReq) : Bool := f o && o.held.isNone && !o.parked

theorem completeReq_out {o : OutReq} {r : Reply} : (completeReq s o r).rc.out =
    if o.parked then modifyFirst (· == o) (fun o => { o with held := some r }) s.rc.out else eraseFirst (· == o) s.rc.out := by
  unfold completeReq
  split
  · rfl
  · dsimp only
    split <;> rfl

/-- The end of a request changes the outstanding ones and their tags in the Roll call, and nothing else there. -/
theorem completeReq_rc {o : OutReq} {r : Reply} : (completeReq s o r).rc =
    { s.rc with out := (completeReq s o r).rc.out, doneTags := (completeReq s o r).rc.doneTags } := by
  unfold completeReq
  split
  · rfl
  · dsimp only
    split <;> rfl

/-- One request after the other ends, and the open ones among those to come are all that stay open. -/
theorem forEach_completeReq_open {os : List OutReq} {r : State → OutReq → Reply} (hos : ∀ o ∈ os, (f o && o.held.isNone) = true)
    (h : s.rc.out.filter (openOut f) = os.filter (openOut f)) :
    (forEach os (fun u o => completeReq u o (r u o)) s).rc.out.filter (openOut f) = [] := by
  induction os generalizing s with
  | nil => exact h
  | cons o os ih =>
    rw [forEach_cons]
    refine ih (fun x hx => hos x (List.mem_cons_of_mem _ hx)) ?_
    rw [completeReq_out]
    cases hp : o.parked
    · have ho : openOut f o = true := by simp [openOut, hos o List.mem_cons_self, hp]
      rw [if_neg (by simp), filter_eraseFirst ho, h, List.filter_cons_of_pos ho]
      simp [eraseFirst]
    · rw [if_pos rfl, filter_modifyFirst, h, List.filter_cons_of_neg (by simp [openOut, hp])]
      intro x hx
      obtain rfl : x = o := by simpa using hx
      simp [openOut, hp]

theorem abortOut_open : (abortOut s f).rc.out.filter (openOut f) = [] := by
  refine forEach_completeReq_open (fun o ho => (List.mem_filter.1 ho).2) ?_
  rw [List.filter_filter]
  refine List.filter_congr fun o _ => ?_
  cases h : f o && o.held.isNone <;> simp [openOut, h]

theorem abortOut_peerEpoch : (abortOut s f).rc.peerEpoch = s.rc.peerEpoch := by
  unfold abortOut
  induction s.rc.out.filter (fun o => f o && o.held.isNone) generalizing s with
  | nil => rfl
  | cons o os ih => rw [forEach_cons, ih, completeReq_rc]

end Abort

/-! ### Frames for another module (R287, R441) -/

section Forward

variable {s : State} {port : Nat} {f : List Byte} (h2 : 2 ≤ frType f) (h5 : frType f ≤ 5) (hd : isOwnLmn s (frDst f) = false)
include h2 h5 hd

theorem exec_syncFrameForward_expired (ht : frTtl f = 0) : exec (.syncFrameForward port f) s = .next (dropRes s) := by
  rw [exec, execSyncFrameForward, if_neg (by omega), if_neg (by simp [hd]), if_pos (by simp [h2, h5, hd]), if_pos ht]

theorem exec_syncFrameForward_sent {p : Nat} (ht : frTtl f ≠ 0) (hp : routePort s (frDst f) = some p) :
    exec (.syncFrameForward port f) s = .next (
      let g := patch f 28 (leBytes 4 (field f 28 4 - 2 ^ 4))
      syncSend s p (frType f) (if fcrcOk f then patch g 0 (leBytes 4 (crc32c (g.drop 4))) else g)) := by
  rw [exec, execSyncFrameForward, if_neg (by omega), if_neg (by simp [hd]), if_pos (by simp [h2, h5, hd]), if_neg ht, hp]

theorem exec_syncFrameForward_lost (ht : frTtl f ≠ 0) (hp : routePort s (frDst f) = none) :
    exec (.syncFrameForward port f) s = .next (raise { s with
      fab.port := tmod default s.fab.port port (fun q => { q with drop := satInc 32 q.drop }) }
      .routeNone { kind := .port, unit := port }) := by
  rw [exec, execSyncFrameForward, if_neg (by omega), if_neg (by simp [hd]), if_pos (by simp [h2, h5, hd]), if_neg ht, hp]

end Forward

/-- Settles O11. -/
theorem tokenStatusAndEpochFrames : Obligations.TokenStatusAndEpochFrames := by
  refine ⟨?token, ?module, ?partition, ?neighbour, ?epoch, ?forward, ?reserved⟩
  case token =>
    intro s port f op hop ht hd hc h0 hr tok c
    have hexec : exec c s = .next (bankOp s tok (waitDeadline s tok.timeout)) := by
      rw [← tokenIn_sound hop ht hd hc h0 hr]
      cases op <;> rfl
    refine ⟨hexec, fun he => ⟨_, hexec, ?_⟩⟩
    rw [bankOp_stale he]
    exact answer_remote rfl
  case module =>
    intro s
    refine ⟨_, rfl, ?_, fun p hp => forEach_syncSend_sent hp, ?_, ?_⟩ <;> rw [forEach_syncSend_frame]
  case partition =>
    intro s p k hf hk hu
    refine ⟨_, congrArg Host.Outcome.next (if_neg hf), forEach_syncSend_sent (List.mem_filter.2 ⟨mem_countFrom.2 (by omega), hu⟩)⟩
  case neighbour =>
    intro s port f ht hc h0 hsub hres hlow
    refine ⟨_, congrArg Host.Outcome.next ((if_pos hsub).trans (takeFrame_sound ht (by norm_num) (by omega) hc h0
      (by simp [hres, hlow]))), ?_, fun q hq => ?_⟩ <;> dsimp only
    · exact tget_tset_same
    · exact tget_tset_other hq
  case epoch =>
    intro s port f ht hc h0 hlow hsub hb
    refine ⟨_, congrArg Host.Outcome.next (takeFrame_sound ht (by norm_num) (by omega) hc h0 (by simp [hlow, hsub, hb])), ?_, ?_⟩
    · rw [abortOut_peerEpoch]
      exact tget_tset_same
    · intro o ho ⟨hl, hbank, hheld, hpark⟩
      refine List.filter_eq_nil_iff.1 abortOut_open o ho ?_
      simp [openOut, hl, hbank, hheld, hpark]
  case forward =>
    intro s port f h2 h5 hd
    refine ⟨fun ht => ⟨_, exec_syncFrameForward_expired h2 h5 hd ht, rfl⟩,
      fun p ht hp => ⟨_, exec_syncFrameForward_sent h2 h5 hd ht hp, rfl⟩,
      fun ht hp => ⟨_, exec_syncFrameForward_lost h2 h5 hd ht hp, ?_, raise_lastCode, raise_rc⟩⟩
    rw [raise_fab]
    dsimp only
    rw [tget_tmod_same]
  case reserved =>
    intro s port f h10 hc
    exact ⟨_, congrArg Host.Outcome.next ((if_pos h10).trans ((if_pos h10).trans (if_pos hc))), rfl⟩

/-! ### The end of waits and requests (R300, R313) -/

section Ends

variable {s : State} {n t rd tag : Nat} (hstate : (getThr s n t).state = .waitRc) (hwait : (getThr s n t).wait = .rc tag rd)
include hstate hwait

/-- A thread that waits for its answer takes it and is READY again (R298, R332). -/
theorem getThr_wake_waitRc {x : DWord} : getThr (wake s n t (rcRd (getThr s n t)) x) n t =
    { setX (getThr s n t) rd x with state := .ready, wait := .none } := by
  have hrd : rcRd (getThr s n t) = rd := by rw [rcRd, hwait]
  rw [hrd, getThr_wake (by rw [hstate]; decide)]

/-- A WAIT_GE of a thread ends with a status: its entry leaves the table and the thread has the semaphore's value. -/
theorem endWait_waitGe {w : WaitEnt} {st : Nat} (hsrc : w.tok.src = .thread n t) (hop : w.tok.op = .waitGe) :
    (endWait s w st).rc = { s.rc with waits := eraseFirst (· == w) s.rc.waits }
    ∧ getThr (endWait s w st) n t = { setX (getThr s n t) rd
        (rcResult st (getSem s w.tok.sem).flags (getSem s w.tok.sem).value) with state := .ready, wait := .none } := by
  have heq : endWait s w st = wake { s with rc.waits := eraseFirst (· == w) s.rc.waits } n t (rcRd (getThr s n t))
      (rcResult st (getSem s w.tok.sem).flags (getSem s w.tok.sem).value) := by
    simp only [endWait, unreserve, hop, RcOp.onBar, answerSem, answer, hsrc]
    rfl
  rw [heq]
  exact ⟨rfl, getThr_wake_waitRc (s := { s with rc.waits := _ }) hstate hwait⟩

/-- A request of a thread ends with a reply (R313), in a state `v` that has not yet changed the threads. -/
theorem completeReq_thread {v : State} {o : OutReq} {r : Reply} (hv : v.core = s.core) (hp : o.parked = false)
    (hsrc : o.tok.src = .thread n t) :
    getThr (completeReq v o r) n t = { setX (getThr s n t) rd (rcResult r.status r.flags r.value) with
      state := .ready, wait := .none } ∧ OnlyThread s (completeReq v o r) n t := by
  have hthr : getThr v n t = getThr s n t := getThr_of_core hv
  have heq : completeReq v o r = wake
      { v with rc := { v.rc with out := eraseFirst (· == o) v.rc.out, doneTags := insertNat o.tok.rtag v.rc.doneTags } }
      n t (rcRd (getThr v n t)) (rcResult r.status r.flags r.value) := by
    simp only [completeReq, hp, hsrc]
    rfl
  rw [heq, ← hthr]
  exact ⟨getThr_wake_waitRc (s := { v with rc := _ }) (hthr ▸ hstate) (hthr ▸ hwait),
    (onlyThread_of_core hv).trans onlyThread_wake⟩

end Ends

theorem exec_waitTimeout {s : State} {k : Nat} {w : WaitEnt} (hk : s.rc.waits[k]? = some w) (hp : w.parked = false)
    (hj : judgeNow s w.deadline = .timeout) : exec (.waitTimeout k) s = .next (unblock (endWait s w 2) w) := by
  rw [exec, execWaitTimeout, hk]
  simp [hp, hj]

/-- The state in which the loss of a request's reply is counted and raised (R300). -/
def lostNoted (s : State) (o : OutReq) : State :=
  raise { s with rc.lost := satInc 32 s.rc.lost, rc.lostSeen := true } .tokenLost
    { kind := .bank, unit := o.tok.bank, ptn := o.tok.ptn, ctx := o.tok.ctx }

theorem lostNoted_rc {s : State} {o : OutReq} :
    (lostNoted s o).rc = { s.rc with lost := satInc 32 s.rc.lost, lostSeen := true } := raise_rc

theorem exec_tokenLost {s : State} {tag : Nat} {o : OutReq}
    (ho : s.rc.out.find? (fun o => o.tok.rtag == tag && o.held.isNone) = some o) (hj : judgeNow s o.deadline = .timeout) :
    exec (.tokenLost tag) s = .next (completeReq (lostNoted s o) o (openEnd (lostNoted s o) o 11)) := by
  simp only [exec, execTokenLost, ho, hj, beq_self_eq_true, if_true]
  rfl

section Reply

variable {s : State} {port : Nat} {f : List Byte}

/-- The reply that a REPLY frame carries, to a request with an operation (R298). -/
def frameReply (f : List Byte) (op : RcOp) : Reply :=
  { op := op, status := frameBits f 219 216, epoch := frameBits f 215 208, rtag := frameBits f 207 192,
    value := frameBits f 191 160, flags := frameBits f 159 156, ctx := frameBits f 155 144 }

/-- A sound REPLY frame of an operation (R287, R313). -/
theorem exec_replyReceive (ht : frType f = 3) (hd : isOwnLmn s (frDst f) = true) (hc : fcrcOk f = true)
    (h0 : frameBits f 227 224 = 0) (hlow : frameBits f 143 32 = 0) (hst : frameBits f 219 216 < 13) (h9 : frameBits f 219 216 ≠ 9)
    (hop : (rcOpOf (frameBits f 223 220)).isSome = true) : exec (.replyReceive port f) s = .next (replyIn s f) := by
  rw [exec, execReplyReceive, if_neg h9, takeFrame_sound ht (by norm_num) (fun _ _ => hd) hc h0 (by simp [hlow, hst, hop])]

/-- A sound CREDIT frame (R287, R307). -/
theorem exec_creditReceive (ht : frType f = 4) (hd : isOwnLmn s (frDst f) = true) (hc : fcrcOk f = true)
    (h0 : frameBits f 227 224 = 0) (hlow : frameBits f 182 32 = 0) (hn : frameBits f 210 195 ≠ 0) :
    exec (.creditReceive port f) s = .next (creditIn s (frameBits f 223 211) (frameBits f 210 195) (frameBits f 194 183)) := by
  rw [exec, execCreditReceive, takeFrame_sound ht (by norm_num) (fun _ _ => hd) hc h0 (by simp [hlow, hn])]

end Reply

/-! ### Credits (R307) -/

section Credits

variable {s : State} {i k c : Nat}

theorem creditIn_foreign (h : (getPool s i).bound = false ∨ (getPool s i).ctx ≠ c) : creditIn s i k c =
    raise { s with rc.overflowSeen := true } .creditForeign
      { kind := .bank, ptn := if (getPool s i).bound then (getPool s i).ptn else 0xFF, ctx := c } := if_pos (by simpa using h)

variable (hb : (getPool s i).bound = true) (hc : (getPool s i).ctx = c)
include hb hc

theorem creditIn_taken (h : (getPool s i).credits + k ≤ (getPool s i).alloc) : creditIn s i k c =
    modPool s i (fun p => { p with credits := p.credits + k }) := by
  simp [creditIn, hb, hc, not_lt.2 h]

theorem creditIn_over (h : (getPool s i).alloc < (getPool s i).credits + k) : creditIn s i k c =
    raise (modPool { s with rc.overflowSeen := true } i (fun p => { p with credits := p.alloc })) .creditOverflow
      { kind := .bank, ptn := (getPool s i).ptn, ctx := c } := by
  simp [creditIn, hb, hc, h]

end Credits

theorem getPool_of_rc {s u : State} {i : Nat} (h : u.rc = s.rc) : getPool u i = getPool s i := by rw [getPool, getPool, h]

/-- Settles O12. -/
theorem waitsRepliesAndCredits : Obligations.WaitsRepliesAndCredits := by
  refine ⟨⟨?timeout, ?reply, ?lost⟩, ?credit⟩
  case timeout =>
    intro s k w n t tag rd hk hp hj hsrc hst hw hop
    obtain ⟨hrc, hthr⟩ := endWait_waitGe (st := 2) hst hw hsrc hop
    refine ⟨_, exec_waitTimeout hk hp hj, ?_⟩
    rw [unblock, if_neg (by simp [hop])]
    exact ⟨hrc, hthr⟩
  case reply =>
    intro s port f ht hd hc h0 hlow hst h9 hop mine
    have hexec := exec_replyReceive (port := port) ht hd hc h0 hlow hst h9 hop
    refine ⟨fun hnone => ⟨_, hexec, ?_⟩, fun o n t tag rd ho hp hsrc hs hw he => ⟨_, hexec, ?_⟩⟩
    · rw [replyIn, show s.rc.out.find? _ = none from hnone]
      rfl
    · have heq : replyIn s f = completeReq
          { s with rc.peerEpoch := tset 0 s.rc.peerEpoch (2 * o.lmn + o.tok.bank) (frameBits f 215 208) } o
          (frameReply f o.tok.op) := by
        rw [replyIn, show s.rc.out.find? _ = some o from ho]
        exact if_neg (by simp [he])
      obtain ⟨hthr, honly⟩ := completeReq_thread (r := frameReply f o.tok.op)
        (v := { s with rc.peerEpoch := tset 0 s.rc.peerEpoch (2 * o.lmn + o.tok.bank) (frameBits f 215 208) }) hs hw rfl hp hsrc
      rw [heq]
      exact ⟨completeReq_out.trans (if_neg (by simp [hp])), hthr, honly⟩
  case lost =>
    intro s tag o n t k rd ho hj hp hsrc hs hw
    refine ⟨_, exec_tokenLost ho hj, ?_⟩
    obtain ⟨hthr, honly⟩ := completeReq_thread (v := lostNoted s o) (r := openEnd (lostNoted s o) o 11) hs hw raise_core hp hsrc
    refine ⟨?_, ?_, ?_, ⟨_, _, openFlags_lt, openValue_lt, hthr⟩, honly⟩
    · rw [completeReq_out, if_neg (by simp [hp]), lostNoted_rc]
    · rw [completeReq_rc, lostNoted_rc]
    · rw [completeReq_rc, lostNoted_rc]
  case credit =>
    intro s port f ht hd hc h0 hlow hn i p n
    have hexec := exec_creditReceive (port := port) ht hd hc h0 hlow hn
    refine ⟨fun hb hctx hle => ⟨_, hexec, creditIn_taken hb hctx hle⟩, fun hb hctx hlt => ⟨_, hexec, ?_⟩, fun h => ⟨_, hexec, ?_⟩⟩
    · rw [creditIn_over hb hctx hlt]
      refine ⟨(getPool_of_rc raise_rc).trans (getPool_modPool ..), ?_, raise_lastCode, fun j hj =>
        (getPool_of_rc raise_rc).trans (getPool_modPool_other _ _ hj)⟩
      rw [raise_rc]
      rfl
    · rw [creditIn_foreign h]
      exact ⟨raise_rc, raise_lastCode⟩

/-! ### An engine's increment (R301) -/

section Engine

variable {s : State} {p i : Nat} {flag : DoneFlag} (hi : i ≠ 0xFFFF)
include hi

theorem doneAdd_foreign (h : ¬((getSem s i).alloc = true ∧ (getSem s i).ptn = p ∧ (getSem s i).scope ≠ 0)) : doneAdd s p i flag =
    raise s .semForeign { kind := .bank, unit := bankOfSem i, ptn := p } := by
  rw [doneAdd, if_neg hi, engineAdd]
  refine if_neg fun hc => h ?_
  simpa [hi, and_assoc] using hc

/-- The semaphore with the flag of an engine's increment, before it. -/
def flagged (flag : DoneFlag) (x : Sem) : Sem := { x with rej := x.rej || flag == .rej, abt := x.abt || flag == .abt }

theorem doneAdd_reached (ha : (getSem s i).alloc = true) (hp : (getSem s i).ptn = p) (hs : (getSem s i).scope ≠ 0)
    (hn : NobodyWaits s i) : doneAdd s p i flag = addSem (modSem s i (flagged flag)) i 1 := by
  have hn' := hn.of_waits (u := addSem (modSem s i (flagged flag)) i 1) (by rw [waits_addSem]; rfl)
  rw [doneAdd, if_neg hi, engineAdd, ← grantSem_of_nobody hn']
  exact if_pos (by simp [ha, hp, hs, hi])

end Engine

/-- Settles O17. -/
theorem engineIncrements : Obligations.EngineIncrements := by
  intro s p i flag hi x
  refine ⟨fun ha hp hs hn => ?_, fun h => ?_⟩
  · simp only [doneAdd_reached hi ha hp hs hn]
    refine ⟨?_, (onlySem_modSem (flagged flag)).trans onlySem_addSem, addSem_core, addSem_mem⟩
    rw [getSem_addSem, getSem_modSem]
    rfl
  · simp only [doneAdd_foreign hi h]
    exact ⟨raise_rc, raise_core, raise_mem, raise_lastCode⟩

end Sys2Proof.Machine
end


section
/-! SUPPORT and refutation of O14. A core that starts the command at the head of its D-array queue forgets the routes and the recipe
that a partial reload has replaced under an earlier command (R388), which the state of the statement keeps. -/

namespace Sys2Proof.Machine

/-- FWD_W4A8 without a CRC, with DONE semaphore 0xFFFF. -/
def badCrcEntry : QEntry := { desc := 1 :: List.replicate 55 0 ++ [0xFF, 0xFF] }

/-- Core 0 with the command at its queue's head, and with routes and a recipe that a partial reload has replaced. -/
def replacedRoutes : State := { State.reset with core := [(0, { acdQ := [badCrcEntry], under := some ([], []) })] }

theorem mayStart_replacedRoutes : mayStart replacedRoutes 0 = true := by decide +kernel

theorem descCrcOk_badCrcEntry : descCrcOk badCrcEntry.desc = false := by decide +kernel

theorem descWord_badCrcEntry :
    bits (descWord badCrcEntry.desc 0) 0 8 = opFwd ∧ bits (descWord badCrcEntry.desc 14) 0 16 = 0xFFFF := by decide +kernel

/-- A descriptor whose CRC is wrong is rejected before anything else (R631). -/
theorem runAcd_badCrc {s : State} {up : ArrayUpset} {e : QEntry} {acc : Option (List AccRow)} (h : descCrcOk e.desc = false) :
    runAcd s up e acc = failWith s e.issuer .acdInvalid [] := by
  simp [runAcd, h]

@[simp] theorem failWith_snd {s : State} {i : Issuer} {c : FaultCode} {d : List Byte} : (failWith s i c d).2 = .fault c := rfl

@[simp] theorem failWith_core {s : State} {i : Issuer} {c : FaultCode} {d : List Byte} : (failWith s i c d).1.core = s.core :=
  raise_core

@[simp] theorem doneAdd_none {s : State} {p : Nat} {f : DoneFlag} : doneAdd s p 0xFFFF f = s := rfl

/-- The start of the command at the head of a D-array's queue (R111). -/
theorem startAcd_head {s : State} {n op : Nat} {up : ArrayUpset} {e : QEntry} {q : List QEntry} (hq : (getCore s n).acdQ = e :: q)
    (hr : (getCore s n).acdRun = none) (hm : mayStart s n = true)
    (ho : 1 ≤ bits (descWord e.desc 0) 0 8 → bits (descWord e.desc 0) 0 8 ≤ 7 → bits (descWord e.desc 0) 0 8 = op) :
    startAcd s n op up =
      endAcd n e (runAcd (modCore s n (fun c => { c with acdQ := q, acdRun := some e, under := none })) up e none) := by
  simp only [startAcd, hq, hr, hm]
  refine if_neg ?_
  simpa using fun h h1 => not_le.mp fun h7 => h (ho h1 h7)

/-- A rejected command leaves the core, which shows its OP and its fault (R113). -/
theorem endAcd_failWith {n : Nat} {e : QEntry} {s : State} {i : Issuer} {c : FaultCode} {d : List Byte} :
    endAcd n e (failWith s i c d) =
      doneAdd (modCore (modCore (failWith s i c d).1 n (fun k => { k with acdRun := none, acdWait := .none })) n (fun k => { k with
        lastOp := bits (descWord e.desc 0) 0 8, faultValid := true, fault := c.code })) e.issuer.ptn
        (bits (descWord e.desc 14) 0 16) .rej := rfl

/-- How the statement ends a rejected command: its routes stay replaced. -/
def endedInStatement : State :=
  let r := runAcd (modCore replacedRoutes 0 (fun c => { c with acdQ := [], acdRun := some badCrcEntry })) {} badCrcEntry none
  doneAdd (modCore r.1 0 (fun c => { c with
    acdRun := none, acdWait := .none, lastOp := opFwd, faultValid := true, fault := FaultCode.acdInvalid.code })) 0 0xFFFF .rej

theorem under_endedInStatement : (getCore endedInStatement 0).under = some ([], []) := by
  simp [endedInStatement, runAcd_badCrc descCrcOk_badCrcEntry, getCore, modCore, replacedRoutes, tget]

/-- In the model the rejected command has forgotten them. -/
theorem under_startAcd_replacedRoutes : (getCore (startAcd replacedRoutes 0 opFwd {}) 0).under = none := by
  rw [startAcd_head (e := badCrcEntry) (q := []) rfl rfl mayStart_replacedRoutes fun _ _ => descWord_badCrcEntry.1,
    runAcd_badCrc descCrcOk_badCrcEntry, endAcd_failWith, descWord_badCrcEntry.2]
  simp [getCore, modCore]

/-- Refutes O14: the core's replaced routes and recipe are forgotten when the next command starts. -/
theorem not_arrayCommands : ¬ Obligations.ArrayCommands := by
  unfold Obligations.ArrayCommands
  intro ⟨h, _⟩
  obtain ⟨-, hfault, -⟩ := h replacedRoutes 0 1 {} badCrcEntry [] (.fwdW4a8 0 {}) (by simp) rfl rfl mayStart_replacedRoutes
    descWord_badCrcEntry.1
  rw [runAcd_badCrc descCrcOk_badCrcEntry, descWord_badCrcEntry.2] at hfault
  obtain ⟨u, hu, he⟩ := hfault .acdInvalid failWith_snd
  have hx : startAcd replacedRoutes 0 opFwd {} = u := by injection hu
  have hc : u = endedInStatement := by rw [he, endedInStatement, runAcd_badCrc descCrcOk_badCrcEntry]; rfl
  have := under_startAcd_replacedRoutes
  rw [hx, hc, under_endedInStatement] at this
  exact absurd this (by simp)

end Sys2Proof.Machine
end


section
/-! SUPPORT and proof of O15. The checker sum of a pass is the sum of the pass's products because a dot product is additive. -/

namespace Sys2Proof.Machine

/-! ### Lists -/

theorem getAt_eq_getD {α : Type} (d : α) (l : List α) (n : Nat) : getAt d l n = l.getD n d := by
  induction l generalizing n with
  | nil => rfl
  | cons x xs ih => cases n <;> simp [getAt, ih]

@[simp] theorem length_countFrom (lo n : Nat) : (countFrom lo n).length = n := by
  induction n generalizing lo with
  | zero => rfl
  | succ n ih => simp [countFrom, ih]

@[simp] theorem getElem_countFrom (lo n k : Nat) (h : k < (countFrom lo n).length) : (countFrom lo n)[k] = lo + k := by
  induction n generalizing lo k with
  | zero => simp at h
  | succ n ih =>
    cases k with
    | zero => rfl
    | succ k => simp only [countFrom, List.getElem_cons_succ, ih]; omega

theorem chunks_map {α β : Type} (f : α → β) (n k : Nat) (l : List α) : chunks n k (l.map f) = (chunks n k l).map (List.map f) := by
  induction k generalizing l with
  | zero => rfl
  | succ k ih => cases l with
    | nil => rfl
    | cons x xs => simp only [chunks, List.map_cons]; rw [← List.map_cons, ← List.map_take, ← List.map_drop, ih]

theorem mem_of_mem_chunks {α : Type} {n k : Nat} {l c : List α} (h : c ∈ chunks n k l) : ∀ x ∈ c, x ∈ l := by
  induction k generalizing l with
  | zero => simp [chunks] at h
  | succ k ih =>
    cases l with
    | nil => simp [chunks] at h
    | cons y ys =>
      rcases List.mem_cons.mp h with rfl | h
      · exact fun x hx => List.mem_of_mem_take hx
      · exact fun x hx => List.mem_of_mem_drop (ih h x hx)

/-! ### 32-bit sums -/

theorem sumOf_eq_toInt (w : Word) : sumOf w = w.toInt := by
  simp only [sumOf, signed, BitVec.toInt_eq_toNat_cond]
  have := w.isLt
  split <;> split <;> omega

theorem sumOf_ofInt {z : Int} (h0 : -(2 ^ 31) ≤ z) (h1 : z < 2 ^ 31) : sumOf (BitVec.ofInt 32 z) = z := by
  rw [sumOf_eq_toInt, BitVec.toInt_ofInt_eq_self (by decide) (by simpa using h0) (by simpa using h1)]

/-! ### Dot products -/

theorem sumInt_eq_sum (l : List Int) : sumInt l = l.sum := (List.sum_eq_foldl).symm

theorem dotInt_eq_sum (xs ys : List Int) : dotInt xs ys = (List.zipWith (· * ·) xs ys).sum := (List.sum_eq_foldl).symm

theorem dotInt_zipWith_add {xs a b : List Int} (ha : a.length = xs.length) (hb : b.length = xs.length) :
    dotInt xs (List.zipWith (· + ·) a b) = dotInt xs a + dotInt xs b := by
  simp only [dotInt_eq_sum]
  induction xs generalizing a b with
  | nil => simp
  | cons x xs ih =>
    obtain ⟨y, ys, rfl⟩ := List.exists_cons_of_length_eq_add_one ha
    obtain ⟨z, zs, rfl⟩ := List.exists_cons_of_length_eq_add_one hb
    have := ih (a := ys) (b := zs) (by simpa using ha) (by simpa using hb)
    simp only [List.zipWith_cons_cons, List.sum_cons, this]
    ring

theorem dotInt_foldl_add {xs : List Int} {cs : List (List Int)} {h : List Int} (hh : h.length = xs.length)
    (hc : ∀ c ∈ cs, c.length = xs.length) :
    dotInt xs (cs.foldl (fun h x => List.zipWith (· + ·) h x) h) = dotInt xs h + (cs.map (dotInt xs)).sum := by
  induction cs generalizing h with
  | nil => simp
  | cons c cs ih =>
    have hc0 := hc c (by simp)
    rw [List.foldl_cons, ih (by simp [hh, hc0]) fun d hd => hc d (by simp [hd]), dotInt_zipWith_add hh hc0]
    simp [add_assoc]

/-- P of a pass is its T on a sound array (R134). -/
theorem dotInt_checkCol {xs : List Int} {cs : List (List Int)} (hc : ∀ c ∈ cs, c.length = xs.length) :
    dotInt xs (checkCol cs) = sumInt (cs.map (dotInt xs)) := by
  rw [sumInt_eq_sum]
  cases cs with
  | nil => cases xs <;> rfl
  | cons c cs =>
    exact dotInt_foldl_add (hc c (by simp)) fun d hd => hc d (by simp [hd])

/-! ### The integer row -/

/-- The accumulator sums before a row. -/
def oldSums (before : AccRow) (k : Nat) : List Int := (countFrom 0 k).map (fun n => sumOf (accVal before n))

/-- The accumulator words that a sound array leaves. -/
def newWords (cols : List (List Int)) (before : AccRow) (x : IntRow) : List Word :=
  (List.zip cols (oldSums before cols.length)).map (fun e => BitVec.ofInt 32 (e.2 + dotInt x.xs e.1))

theorem zipWith_flipOf_nil (cols : List (List Int)) (before : AccRow) (x : IntRow) :
    List.zipWith (fun (n : Nat) (e : List Int × Int) => flipOf {} x.p n (BitVec.ofInt 32 (e.2 + dotInt x.xs e.1)))
      (countFrom 0 cols.length) (List.zip cols (oldSums before cols.length)) = newWords cols before x := by
  apply List.ext_getElem
  · simp [newWords, oldSums]
  · intro n h1 h2
    simp [newWords, flipOf]

section
variable {cols : List (List Int)} {before : AccRow} {x : IntRow}

@[simp] theorem length_newWords : (newWords cols before x).length = cols.length := by simp [newWords, oldSums]

theorem getElem_newWords {n : Nat} (h : n < (newWords cols before x).length) :
    (newWords cols before x)[n] =
      BitVec.ofInt 32 (sumOf (accVal before n) + dotInt x.xs (getAt [] cols n)) := by
  simp only [length_newWords] at h
  simp [newWords, oldSums, getAt_eq_getD, h]

/-- Every accumulator sum fits 32 bits (R84). -/
def SumsFit (cols : List (List Int)) (before : AccRow) (x : IntRow) : Prop :=
  ∀ n, n < cols.length → -(2 ^ 31) ≤ sumOf (accVal before n) + dotInt x.xs (getAt [] cols n)
    ∧ sumOf (accVal before n) + dotInt x.xs (getAt [] cols n) < 2 ^ 31

theorem sumOf_newWords (hr : SumsFit cols before x) {n : Nat} (h : n < (newWords cols before x).length) :
    sumOf (newWords cols before x)[n] = sumOf (accVal before n) + dotInt x.xs (getAt [] cols n) := by
  obtain ⟨h0, h1⟩ := hr n (by simpa using h)
  rw [getElem_newWords h, sumOf_ofInt h0 h1]

/-- The increments of the row are the products. -/
theorem increments (hr : SumsFit cols before x) :
    List.zipWith (fun (v : Word) (o : Int) => sumOf v - o) (newWords cols before x) (oldSums before cols.length) =
      cols.map (dotInt x.xs) := by
  apply List.ext_getElem
  · simp [oldSums]
  · intro n h1 h2
    have hn : n < cols.length := by simpa using h2
    simp [sumOf_newWords hr, oldSums, getAt_eq_getD, hn]

theorem checker_agrees {pass : Nat} (hc : ∀ c ∈ cols, c.length = x.xs.length) (hr : SumsFit cols before x) :
    (intRow {} pass cols corr before x).2 = true := by
  have key : (intRow {} pass cols corr before x).2 =
      (List.zip (chunks pass (ceilDiv cols.length pass) (cols.map (dotInt x.xs))) (chunks pass (ceilDiv cols.length pass) cols)).all
        (fun e => sumInt e.1 == dotInt x.xs (checkCol e.2)) := by
    rw [← increments hr, ← zipWith_flipOf_nil]
    simp [intRow, oldSums]
  rw [key, chunks_map, List.zip, List.zipWith_map_left, List.zipWith_self, List.all_map, List.all_eq_true]
  intro c hm
  simp [dotInt_checkCol fun d hd => hc d (mem_of_mem_chunks hm d hd)]

theorem accVal_intRow {pass : Nat} (hr : SumsFit cols before x) {n : Nat} (hn : n < cols.length) :
    accVal (intRow {} pass cols corr before x).1 n =
      BitVec.ofInt 32 (sumOf (accVal before n) + dotInt x.xs (getAt [] cols n) - x.zp * getAt 0 corr n) := by
  have key : (intRow {} pass cols corr before x).1.vals = padTo 0 128
      (List.zipWith (fun (v : Word) (c : Int) => BitVec.ofInt 32 (sumOf v - x.zp * c)) (newWords cols before x)
        (padTo 0 cols.length corr)) := by
    rw [← zipWith_flipOf_nil]; rfl
  have hcorr : ((padTo 0 cols.length corr)[n]?).getD 0 = corr[n]?.getD 0 := by
    by_cases h : n < corr.length
    · simp [padTo, List.getElem?_append_left h]
    · simp [padTo, List.getElem?_append_right (not_lt.mp h), List.getElem?_replicate, not_lt.mp h]
      split <;> rfl
  have hlen : n < (padTo 0 cols.length corr).length := by simp [padTo]; omega
  have hw : n < (newWords cols before x).length := by simpa using hn
  rw [accVal, key, getAt_eq_getD, getAt_eq_getD 0 corr, List.getD_eq_getElem?_getD, List.getD_eq_getElem?_getD, ← hcorr, padTo,
    List.getElem?_append_left (by simp; omega), List.getElem?_zipWith, List.getElem?_eq_getElem hw, List.getElem?_eq_getElem hlen]
  simp [sumOf_newWords hr hw]

end

/-- Settles O15. -/
theorem integerRowAndChecker : Obligations.IntegerRowAndChecker := by
  unfold Obligations.IntegerRowAndChecker
  intro pass cols corr before x _ _ hc hr
  exact ⟨checker_agrees hc hr, fun n hn => accVal_intRow hr hn⟩

end Sys2Proof.Machine
end


section
/-! SUPPORT and proof of O20. How each end of a PCD shows at its Press. -/

namespace Sys2Proof.Machine

theorem raise_parts : raise s c a = { s with int := (raise s c a).int, mc := (raise s c a).mc, i3c := (raise s c a).i3c } :=
  (raise_spec s c a).2.2

@[simp] theorem raise_prs : (raise s c a).prs = s.prs := by rw [raise_parts]

@[simp] theorem doneAdd_prs {s : State} {p i : Nat} {f : DoneFlag} : (doneAdd s p i f).prs = s.prs :=
  (doneAdd_kept (Kept.refl [.mc, .core, .int, .rc, .ptn, .ctx, .i3c] s) (Within.refl _)).rest .prs (by decide)

theorem getPrs_of_prs {s u : State} {g : Nat} (h : u.prs = s.prs) : getPrs u g = getPrs s g := by rw [getPrs, h, getPrs]

@[simp] theorem getPrs_doneAdd {s : State} {p i g : Nat} {f : DoneFlag} : getPrs (doneAdd s p i f) g = getPrs s g :=
  getPrs_of_prs doneAdd_prs

@[simp] theorem getPrs_raise {g : Nat} : getPrs (raise s c a) g = getPrs s g := getPrs_of_prs raise_prs

theorem FaultCode.code_ne_zero (c : FaultCode) : c.code ≠ 0 := by cases c <;> decide

/-- A PCD whose state block has been read has the epoch of its Press. -/
theorem openPsb_ne_stale {s : State} {x : PRun} {res : Option (Nat × Bool)} : (openPsb s x res).2 ≠ .stale := by
  have work (s : State) (x : PRun) : (workPsb s x res).2 ≠ .stale := by
    unfold workPsb
    dsimp only
    repeat' split
    all_goals simp
  unfold openPsb
  dsimp only
  repeat' split
  all_goals first | exact work _ _ | simp

/-- A PCD of an old epoch changes nothing (R311). -/
theorem runPcd_stale {s : State} {g : Nat} {res : Option (Nat × Bool)} {e : QEntry} (h : (runPcd s g res e).2 = .stale) :
    runPcd s g res e = (s, .stale) := by
  revert h
  unfold runPcd
  dsimp only
  split
  · simp
  split
  · simp
  split
  · simp
  split
  · simp
  · exact fun h => absurd h openPsb_ne_stale

/-- The Press of a region with the PCD taken from its queue. -/
def pcdTaken (s : State) (g : Nat) (e : QEntry) (q : List QEntry) : State :=
  modPrs s g (fun x => { x with q := q, run := some e })

/-- The start of the command at the head of a Press's queue (R219). -/
theorem startPcd_head {s : State} {g op : Nat} {res : Option (Nat × Bool)} {e : QEntry} {q : List QEntry}
    (hq : (getPrs s g).q = e :: q) (hr : (getPrs s g).run = none) (hh : s.pwr.hold = false) (hz : resetting s (4, g) = false)
    (hc : (getCtx s (pcdCtx e.desc)).copying = false) (ho : field e.desc 0 1 = op) :
    startPcd s g op res = endPcd g e (runPcd (pcdTaken s g e q) g res e) := by
  simp [startPcd, hq, hr, hh, hz, hc, ho, pcdTaken]

theorem exec_press {s : State} {g op : Nat} {res : Option (Nat × Bool)} {c : Instr}
    (h : (c, op) ∈ [(Instr.prsInit g res, 1), (.prsReduce g res, 2), (.prsNorm g res, 3), (.prsReduceNorm g res, 4),
      (.prsApply g res, 5), (.prsClose g res, 6), (.prsExport g res, 7)]) : exec c s = .next (startPcd s g op res) := by
  simp only [List.mem_cons, Prod.mk.injEq, List.not_mem_nil, or_false] at h
  obtain ⟨rfl, rfl⟩ | ⟨rfl, rfl⟩ | ⟨rfl, rfl⟩ | ⟨rfl, rfl⟩ | ⟨rfl, rfl⟩ | ⟨rfl, rfl⟩ | ⟨rfl, rfl⟩ := h <;> rfl

/-- The Press after a PCD has ended with a status (R229). -/
def pressCleared (s : State) (g op f : Nat) : State :=
  modPrs s g (fun r => { r with
    run := none, lastOp := op, faultValid := r.faultValid || f != 0, fault := if f = 0 then r.fault else f })

/-- What a fault that stops a PCD leaves before the PCD ends. -/
def pressFaulted (s : State) (g : Nat) (e : QEntry) (c : FaultCode) : State :=
  let d := parsePcd e.desc
  let s := if c = .arithResidue then s else
    raise s c { kind := .press, unit := g, epoch := (getPrs s g).epoch, ptn := e.issuer.ptn, ctx := d.ctx }
  let s := if c = .wcDrift then modPrs s g (fun r => { r with driftCount := satInc 32 r.driftCount }) else s
  if holdsCtx c then modCtx s d.ctx (fun y => { y with pressHold := true }) else s

theorem endPcd_fault {g : Nat} {e : QEntry} {s : State} {c : FaultCode} : endPcd g e (s, .fault c) =
    doneAdd (pressCleared (pressFaulted s g e c) g (parsePcd e.desc).op c.code) e.issuer.ptn (parsePcd e.desc).done .rej := rfl

theorem endPcd_done {g : Nat} {e : QEntry} {s : State} : endPcd g e (s, .done) =
    doneAdd (modPrs (pressCleared s g (parsePcd e.desc).op 0) g (fun r => { r with
      lastPtn := (parsePcd e.desc).ptn, lastCtx := (parsePcd e.desc).ctx })) e.issuer.ptn (parsePcd e.desc).done .plain := rfl

theorem endPcd_full {g : Nat} {e : QEntry} {s : State} : endPcd g e (s, .full) =
    doneAdd (pressCleared s g (parsePcd e.desc).op exportFull) e.issuer.ptn (parsePcd e.desc).done .rej := rfl

theorem endPcd_stale {g : Nat} {e : QEntry} {s : State} : endPcd g e (s, .stale) =
    doneAdd (modPrs s g (fun r => { r with run := none })) e.issuer.ptn (parsePcd e.desc).done .abt := rfl

section Faulted

variable {s : State} {g : Nat} {e : QEntry} {c : FaultCode}

theorem pressFaulted_frame : (pressFaulted s g e c).mem = s.mem ∧ (pressFaulted s g e c).core = s.core
    ∧ (pressFaulted s g e c).rc = s.rc := by
  unfold pressFaulted
  split <;> split <;> split <;> simp

theorem lastCode_pressFaulted (h : c ≠ .arithResidue) : (pressFaulted s g e c).int.lastCode = c.code := by
  unfold pressFaulted
  dsimp only
  rw [if_neg h]
  split <;> split <;> simp

theorem driftCount_pressFaulted (h : c = .wcDrift) :
    (getPrs (pressFaulted s g e c) g).driftCount = min ((getPrs s g).driftCount + 1) 0xFFFFFFFF := by
  subst h
  simp only [pressFaulted, holdsCtx]
  exact (congrArg Prs.driftCount (getPrs_of_prs (modCtx_prs ..))).trans (by simp [satInc, satAdd])

theorem pressHold_pressFaulted (h : holdsCtx c = true) :
    (getCtx (pressCleared (pressFaulted s g e c) g op f) (parsePcd e.desc).ctx).pressHold = true := by
  simp [pressCleared, pressFaulted, h, getCtx, modCtx]

end Faulted

/-- Settles O20. -/
theorem pressCommands : Obligations.PressCommands := by
  intro s g op res e q c hc hq hr hh hz hcopy ho r d p
  have hx : exec c s = .next (endPcd g e r) := by rw [exec_press hc, startPcd_head hq hr hh hz hcopy ho]; rfl
  have he : r = (r.1, r.2) := rfl
  refine ⟨fun h => ?_, fun f h => ?_, fun h => ?_, fun h => ?_⟩
  all_goals rw [he, h] at hx
  · rw [endPcd_done] at hx
    exact ⟨_, hx, _, rfl, rfl, rfl, rfl, rfl, by simp [pressCleared, d]⟩
  · rw [endPcd_fault] at hx
    obtain ⟨hm, hco, hrc⟩ := pressFaulted_frame (s := r.1) (g := g) (e := e) (c := f)
    refine ⟨_, hx, _, rfl, hm, hco, hrc, ?_, ?_, ?_, fun hf => lastCode_pressFaulted hf, fun hf => ?_, fun hf => ?_⟩
    · simp [pressCleared]
    · simp [pressCleared, f.code_ne_zero]
    · simp [pressCleared, f.code_ne_zero]
    · simp only [getPrs_doneAdd, pressCleared, getPrs_modPrs]
      exact driftCount_pressFaulted hf
    · exact pressHold_pressFaulted (by simpa [holdsCtx, or_assoc] using hf)
  · rw [endPcd_full] at hx
    exact ⟨_, hx, _, rfl, rfl, rfl, by simp [pressCleared, exportFull]⟩
  · have hst : r = (pcdTaken s g e q, .stale) := runPcd_stale h
    rw [endPcd_stale, hst] at hx
    exact ⟨_, hx, _, rfl, rfl, rfl, by simp [pcdTaken]⟩

end Sys2Proof.Machine
end


section
/-! SUPPORT and proof of O21. The PCD's first checks, the scalars of a step, the schedule, one element's step. -/

namespace Sys2Proof.Machine

theorem schedule_past {gs : List Seg} {x : Seg} {l : Nat} (h0 : x.start ≤ l) (h1 : x.len ≤ l - x.start) :
    schedule (gs ++ [x]) l = x.mu1 := by
  simp [schedule, List.filter_append, h0, h1]

/-- An OZ32 code is an infinity where its canonical code is. -/
theorem val32_canon32_inf {w : Word} {b : Bool} : val32 (canon32 w) = .inf b ↔ val32 w = .inf b := by
  have hn : val32 nan32 = .nan := by decide
  unfold canon32
  split
  · rename_i h
    rw [hn]
    cases hv : val32 w <;> simp_all [Num.isNan]
  · rfl

theorem clip_inf {h : Psb} {hp : Hyper} {gs : List Seg} {sqs : List Word} {b : Bool} (hi : val32 (tree sqs) = .inf b) :
    (scalars h hp gs sqs).c = 0 := by
  simp [scalars, val32_canon32_inf.mpr hi]

theorem clip_one {h : Psb} {hp : Hyper} {gs : List Seg} {sqs : List Word} (hi : ∀ b, val32 (tree sqs) ≠ .inf b)
    (hz : (val32 hp.clip).isZero = true) : (scalars h hp gs sqs).c = one32 := by
  have hn (b : Bool) : val32 (canon32 (tree sqs)) ≠ .inf b := fun hc => hi b (val32_canon32_inf.mp hc)
  cases hv : val32 (canon32 (tree sqs)) with
  | inf b => exact absurd hv (hn b)
  | nan => simp [scalars, hv, hz]
  | fin sg m ex => simp [scalars, hv, hz]

section Element
variable {adam : Bool} {hp : Hyper} {k : Scalars} {g : Word} {e : PElem}

/-- How the new value of a master ends an element's step (R234): not a number, beyond the clamp, or taken. -/
def elemEnd (hp : Hyper) (e : PElem) (m v wn : Word) : PElem × Nat × Nat :=
  if (val32 wn).isNan then ({ e with wc := narrow32 e.w }, 0, 1)
  else if exceeds wn hp.mclamp then
    ({ w := limitTo wn hp.mclamp, m := m, v := v, wc := narrow32 (limitTo wn hp.mclamp) }, 1, 0)
  else ({ w := wn, m := m, v := v, wc := narrow32 wn }, 0, 0)

/-- The first moment after a step (R234). -/
def newM (hp : Hyper) (k : Scalars) (g : Word) (e : PElem) : Word := add32 (mul32 hp.b1 e.m) (mul32 hp.ob1 (mul32 g k.c))

theorem applyElem_eq_elemEnd : ∃ v wn, applyElem adam hp k g e = elemEnd hp e (newM hp k g e) v wn ∧ (adam = false → v = e.v) :=
  ⟨_, _, rfl, fun h => if_neg (by simp [h])⟩

theorem elemEnd_cases (hp : Hyper) (e : PElem) (m v wn : Word) :
    elemEnd hp e m v wn = ({ e with wc := narrow32 e.w }, 0, 1)
    ∨ ∃ w c, elemEnd hp e m v wn = ({ w := w, m := m, v := v, wc := narrow32 w }, c, 0) := by
  unfold elemEnd
  split
  · exact .inl rfl
  · split
    · exact .inr ⟨_, _, rfl⟩
    · exact .inr ⟨_, _, rfl⟩

theorem applyElem_cases (adam : Bool) (hp : Hyper) (k : Scalars) (g : Word) (e : PElem) :
    applyElem adam hp k g e = ({ e with wc := narrow32 e.w }, 0, 1)
    ∨ ∃ w v c, applyElem adam hp k g e = ({ w := w, m := newM hp k g e, v := v, wc := narrow32 w }, c, 0)
      ∧ (adam = false → v = e.v) := by
  obtain ⟨v, wn, h, hv⟩ := applyElem_eq_elemEnd (adam := adam) (hp := hp) (k := k) (g := g) (e := e)
  obtain he | ⟨w, c, he⟩ := elemEnd_cases hp e (newM hp k g e) v wn
  · exact .inl (h.trans he)
  · exact .inr ⟨w, v, c, h.trans he, hv⟩

theorem applyElem_nan (h : (applyElem adam hp k g e).2 = (0, 1)) : (applyElem adam hp k g e).1 = { e with wc := narrow32 e.w } := by
  obtain he | ⟨w, v, c, he, -⟩ := applyElem_cases adam hp k g e
  · rw [he]
  · simp [he] at h

theorem applyElem_number (h : (applyElem adam hp k g e).2 ≠ (0, 1)) :
    (applyElem adam hp k g e).1.m = add32 (mul32 hp.b1 e.m) (mul32 hp.ob1 (mul32 g k.c))
    ∧ (applyElem adam hp k g e).1.wc = narrow32 (applyElem adam hp k g e).1.w := by
  obtain he | ⟨w, v, c, he, -⟩ := applyElem_cases adam hp k g e
  · simp [he] at h
  · simp [he, newM]

theorem applyElem_sgd : (applyElem false hp k g e).1.v = e.v := by
  obtain he | ⟨w, v, c, he, hv⟩ := applyElem_cases false hp k g e
  · rw [he]
  · rw [he]
    exact hv rfl

end Element

/-- Settles O21. -/
theorem pressChecksAndStep : Obligations.PressChecksAndStep := by
  refine ⟨fun s g res e => ⟨fun h => ?_, fun h he => ?_⟩, fun h hp gs sqs => ?_, fun gs x l h0 h1 => schedule_past h0 h1,
    fun adam hp k g e => ⟨applyElem_nan, applyElem_number, fun ha => ?_⟩⟩
  · simp [runPcd, h]
  · simp [runPcd, h, he]
  · exact ⟨fun b => clip_inf, clip_one, fun hb => by simp [scalars, hb, one32], rfl, rfl, rfl⟩
  · subst ha
    exact applyElem_sgd

end Sys2Proof.Machine
end


section
/-! SUPPORT and proof of O22. The threads that wait for a queue, and what enters it. -/

namespace Sys2Proof.Machine

variable {s u : State} {n t m k rd len : Nat} {q : QueueOf}

/-! ### Queues under changes of threads -/

theorem getCore_modCore_ite {f : Core → Core} : getCore (modCore s n f) m = if m = n then f (getCore s n) else getCore s m := by
  split
  · next e => rw [e, getCore_modCore]
  · next e => exact getCore_modCore_other s f e

theorem getPrs_modPrs_ite {f : Prs → Prs} : getPrs (modPrs s n f) m = if m = n then f (getPrs s n) else getPrs s m := by
  split
  · next e => rw [e, getPrs_modPrs]
  · next e => exact getPrs_modPrs_other s f e

/-- A field of the cores that a change leaves alone. -/
theorem field_modCore {α : Type} {f : Core → Core} (g : Core → α) (h : ∀ c, g (f c) = g c) :
    g (getCore (modCore s n f) m) = g (getCore s m) := by
  rw [getCore_modCore_ite]
  split
  · next e => rw [h, e]
  · rfl

@[simp] theorem queued_modThr {f : Thr → Thr} : queued (modThr s n t f) q = queued s q := by
  cases q with
  | acd m => exact field_modCore Core.acdQ fun _ => rfl
  | wcd m => exact field_modCore Core.wcdQ fun _ => rfl
  | xfer m => exact field_modCore Core.xferQ fun _ => rfl
  | pcd r => rfl

@[simp] theorem queued_enqueue {e : QEntry} : queued (enqueue s q e) q = queued s q ++ [e] := by
  cases q <;> simp [queued, enqueue]

theorem queued_enqueue_other {e : QEntry} {q' : QueueOf} (h : q' ≠ q) : queued (enqueue s q e) q' = queued s q' := by
  cases q with
  | pcd r =>
    cases q' with
    | pcd r' => exact congrArg Prs.q (getPrs_modPrs_other s _ fun e => h (e ▸ rfl))
    | _ => rfl
  | acd n =>
    cases q' with
    | acd n' => exact congrArg Core.acdQ (getCore_modCore_other s _ fun e => h (e ▸ rfl))
    | wcd n' => exact field_modCore Core.wcdQ fun _ => rfl
    | xfer n' => exact field_modCore Core.xferQ fun _ => rfl
    | pcd r => rfl
  | wcd n =>
    cases q' with
    | acd n' => exact field_modCore Core.acdQ fun _ => rfl
    | wcd n' => exact congrArg Core.wcdQ (getCore_modCore_other s _ fun e => h (e ▸ rfl))
    | xfer n' => exact field_modCore Core.xferQ fun _ => rfl
    | pcd r => rfl
  | xfer n =>
    cases q' with
    | acd n' => exact field_modCore Core.acdQ fun _ => rfl
    | wcd n' => exact field_modCore Core.wcdQ fun _ => rfl
    | xfer n' => exact congrArg Core.xferQ (getCore_modCore_other s _ fun e => h (e ▸ rfl))
    | pcd r => rfl

theorem getThr_enqueue {e : QEntry} : getThr (enqueue s q e) m k = getThr s m k := by
  cases q
  · exact getThr_modCore_of_thr fun _ => rfl
  · exact getThr_modCore_of_thr fun _ => rfl
  · exact getThr_of_core rfl
  · exact getThr_modCore_of_thr fun _ => rfl

theorem enqueue_mem {e : QEntry} : (enqueue s q e).mem = s.mem := by cases q <;> rfl

/-! ### Who waits -/

theorem mem_threadsWhere {f : Nat → Nat → Thr → Bool} {e : Nat × Nat} :
    e ∈ threadsWhere s f ↔ ∃ c h, (e.1, c) ∈ s.core ∧ (e.2, h) ∈ c.thr ∧ f e.1 e.2 h = true := by
  obtain ⟨i, j⟩ := e
  simp only [threadsWhere, List.mem_flatten, List.mem_map, exists_exists_and_eq_and, List.mem_filter, Prod.mk.injEq]
  constructor
  · rintro ⟨⟨i', c⟩, hc, ⟨j', h⟩, ⟨hh, hf⟩, rfl, rfl⟩
    exact ⟨c, h, hc, hh, hf⟩
  · rintro ⟨c, h, hc, hh, hf⟩
    exact ⟨(i, c), hc, (j, h), ⟨hh, hf⟩, rfl, rfl⟩

/-- A change of one thread that leaves its state and its wait leaves the threads of a state. -/
theorem mem_threadsWhere_modThr {f : Thr → Thr} {x : ThrState} (hx : x ≠ .idle) (hf : ∀ h, (f h).state = h.state) {e : Nat × Nat}
    (he : e ∈ threadsWhere (modThr s n t f) (fun _ _ h => h.state == x)) : e ∈ threadsWhere s (fun _ _ h => h.state == x) := by
  obtain ⟨i, j⟩ := e
  rw [mem_threadsWhere] at he ⊢
  obtain ⟨c, h, hc, hh, hp⟩ := he
  have hp : h.state = x := by simpa using hp
  have hput {α : Type} [DecidableEq α] {d v : α} {a : Tbl α} {l : Nat} {e : Nat × α} (h : e ∈ tset d a l v) : e = (l, v) ∨ e ∈ a := by
    unfold tset at h
    split at h
    · exact .inr (mem_tdel h)
    · exact mem_tput h
  obtain he | hc := hput hc
  · obtain ⟨rfl, rfl⟩ := Prod.mk.injEq .. ▸ he
    have hcore (hne : getCore s i ≠ default) : (i, getCore s i) ∈ s.core := mem_of_tget_ne hne
    obtain he | hh := hput hh
    · obtain ⟨rfl, rfl⟩ := Prod.mk.injEq .. ▸ he
      have hst : (getThr s i j).state = x := (hf _).symm.trans hp
      have hthr : getThr s i j ≠ default := fun e => hx (by rw [← hst, e]; rfl)
      have hne : getCore s i ≠ default := fun e => hthr (by rw [getThr, e]; rfl)
      exact ⟨_, _, hcore hne, mem_of_tget_ne hthr, beq_iff_eq.mpr hst⟩
    · have hh : (j, h) ∈ (getCore s i).thr := hh
      have hne : getCore s i ≠ default := fun e => by rw [e] at hh; cases hh
      exact ⟨_, _, hcore hne, hh, beq_iff_eq.mpr hp⟩
  · exact ⟨c, h, hc, hh, beq_iff_eq.mpr hp⟩

/-! ### The waiting threads in the order of their stamps -/

theorem foldl_insertBy_perm {α : Type} (key : α → Nat) (xs acc : List α) :
    (xs.foldl (fun acc w => insertBy key w acc) acc).Perm (xs ++ acc) := by
  have ins (y : α) (l : List α) : (insertBy key y l).Perm (y :: l) := by
    induction l with
    | nil => exact .refl _
    | cons z zs ih =>
      unfold insertBy
      split
      · exact (ih.cons z).trans (.swap ..)
      · exact .refl _
  induction xs generalizing acc with
  | nil => exact .refl _
  | cons x xs ih => exact (ih _).trans (((ins x acc).append_left xs).trans List.perm_middle)

theorem insertBy_sorted {α : Type} {key : α → Nat} {y : α} {l : List α} (h : l.Pairwise (fun a b => key a ≤ key b)) :
    (insertBy key y l).Pairwise (fun a b => key a ≤ key b) := by
  induction l with
  | nil => simp [insertBy]
  | cons z zs ih =>
    obtain ⟨hz, hs⟩ := List.pairwise_cons.1 h
    unfold insertBy
    split
    · next hle =>
      refine List.pairwise_cons.2 ⟨fun w hw => ?_, ih hs⟩
      obtain rfl | hw := mem_insertBy.1 hw
      · exact hle
      · exact hz w hw
    · next hle =>
      refine List.pairwise_cons.2 ⟨fun w hw => ?_, h⟩
      obtain rfl | hw := List.mem_cons.1 hw
      · exact (not_le.1 hle).le
      · exact (not_le.1 hle).le.trans (hz w hw)

theorem foldl_insertBy_sorted {α : Type} {key : α → Nat} {xs acc : List α} (h : acc.Pairwise (fun a b => key a ≤ key b)) :
    (xs.foldl (fun acc w => insertBy key w acc) acc).Pairwise (fun a b => key a ≤ key b) := by
  induction xs generalizing acc with
  | nil => exact h
  | cons x xs ih => exact ih (insertBy_sorted h)

/-- What a thread that waits for a queue puts into it. -/
def waiterOf (s : State) (q : QueueOf) (e : Nat × Nat) : Option (Nat × Nat × QEntry × Nat) :=
  match (getThr s e.1 e.2).wait with
  | .queue k d rd => if queueOf e.1 k == q then some (e.1, e.2, d, rd) else none
  | _ => none

theorem queueWaiters_eq : queueWaiters s q =
    (((threadsWhere s (fun _ _ h => h.state == .waitQueue)).filterMap (waiterOf s q)).foldl
      (fun acc w => insertBy (fun w => w.2.2.1.stamp) w acc) []) := rfl

theorem queueWaiters_sorted : (queueWaiters s q).Pairwise (fun a b => a.2.2.1.stamp ≤ b.2.2.1.stamp) :=
  foldl_insertBy_sorted .nil

theorem queueWaiters_eq_nil : queueWaiters s q = [] ↔
    ∀ e ∈ threadsWhere s (fun _ _ h => h.state == .waitQueue), waiterOf s q e = none := by
  have hp := foldl_insertBy_perm (fun w => w.2.2.1.stamp)
    ((threadsWhere s (fun _ _ h => h.state == .waitQueue)).filterMap (waiterOf s q)) []
  rw [← queueWaiters_eq, List.append_nil] at hp
  rw [← List.filterMap_eq_nil_iff]
  exact ⟨fun h => (h ▸ hp).nil_eq.symm, fun h => (h ▸ hp).eq_nil⟩

theorem queueWaiters_instrDone (h : queueWaiters s q = []) : queueWaiters (instrDone s n t len) q = [] := by
  rw [queueWaiters_eq_nil] at h ⊢
  intro e he
  have hw : (getThr (instrDone s n t len) e.1 e.2).wait = (getThr s e.1 e.2).wait := by
    by_cases heq : (e.1, e.2) = (n, t)
    · obtain ⟨rfl, rfl⟩ := Prod.mk.injEq .. ▸ heq
      rw [getThr_instrDone]
    · rw [onlyThread_instrDone _ _ heq]
  have := h e (mem_threadsWhere_modThr (by decide) (by intro; rfl) he)
  rw [waiterOf, hw]
  exact this

theorem admitOne_of_nobody (h : queueWaiters s q = []) : admitOne s q = s := by simp [admitOne, h]

theorem forEach_admitOne_of_nobody {α : Type} {xs : List α} (h : queueWaiters s q = []) :
    forEach xs (fun s _ => admitOne s q) s = s := by
  induction xs with
  | nil => rfl
  | cons x xs ih => rw [forEach_cons, admitOne_of_nobody h, ih]

/-! ### SLV.CMD (R327) -/

section Cmd

variable {s1 : State} {f7 addr : Nat} {k : QueueKind} {d : List Byte}

/-- The state in which SLV.CMD has retired and the threads that wait for its queue have entered it. -/
def cmdState (s1 : State) (n t : Nat) (q : QueueOf) : State :=
  forEach (countFrom 0 (queueSize q)) (fun s _ => admitOne s q) (instrDone s1 n t 4)

theorem cmdState_of_nobody (h : queueWaiters s1 q = []) : cmdState s1 n t q = instrDone s1 n t 4 :=
  forEach_admitOne_of_nobody (queueWaiters_instrDone h)

theorem exec_slvCmd (hi : mayIssue s n t = true) (hk : queueKind f7 = some k) (hd : threadDesc s n t addr = .ok (s1, d)) :
    exec (.slvCmd n t f7 rd addr) s = .next (
      let v := cmdState s1 n t (queueOf n k)
      let e : QEntry := { desc := d, issuer := issuerOf s1 n t, stamp := now s1 }
      if hasRoom v (queueOf n k) then setRd (enqueue v (queueOf n k) e) n t rd 0
      else modThr v n t (fun h => { h with state := .waitQueue, wait := .queue k e rd })) := by
  refine (congrArg Host.Outcome.next (issue_of_mayIssue hi _)).trans ?_
  simp only [hk, hd]
  refine congrArg Host.Outcome.next ?_
  dsimp only [bind, Except.bind]
  unfold cmdState
  split <;> rfl

end Cmd

/-- A freed position goes to the first of the waiting threads (R328). -/
theorem admitOne_first {e : QEntry} {ws : List (Nat × Nat × QEntry × Nat)} (h : queueWaiters s q = (n, t, e, rd) :: ws)
    (hr : (queued s q).length < queueSize q) : admitOne s q = wake (enqueue s q e) n t rd 0 := by
  simp [admitOne, h, hasRoom, hr]

/-- Settles O22. -/
theorem threadsQueueDescriptors : Obligations.ThreadsQueueDescriptors := by
  constructor
  · intro s s1 n t f7 rd addr k d hi hk hd e q v
    have hx := exec_slvCmd (rd := rd) hi hk hd
    have hv : v = cmdState s1 n t q := rfl
    have room (h : (queued v q).length < queueSize q) :
        exec (.slvCmd n t f7 rd addr) s = .next (setRd (enqueue v q e) n t rd 0) := 
      hx.trans (congrArg Host.Outcome.next (if_pos (decide_eq_true h)))
    have full (h : queueSize q ≤ (queued v q).length) : exec (.slvCmd n t f7 rd addr) s =
        .next (modThr v n t (fun h => { h with state := .waitQueue, wait := .queue k e rd })) :=
      hx.trans (congrArg Host.Outcome.next (if_neg (mt of_decide_eq_true (not_lt.2 h))))
    refine ⟨fun h => ⟨_, room h, rfl⟩, fun h => ⟨_, full h, rfl⟩, fun hn h => ?_, fun hn h => ?_⟩
    all_goals
      have hv : v = instrDone s1 n t 4 := cmdState_of_nobody hn
      have hq (q' : QueueOf) : queued v q' = queued s1 q' := by rw [hv]; exact queued_modThr
    · refine ⟨_, room (by rw [hq]; exact h), ?_, fun q' hne => ?_, ?_, ?_, ?_⟩
      · rw [setRd, queued_modThr, queued_enqueue, hq]
      · rw [setRd, queued_modThr, queued_enqueue_other hne, hq]
      · exact sameMemory_of_mem (by rw [setRd, modThr_mem, enqueue_mem, hv]; rfl)
      · rw [setRd, getThr_modThr, getThr_enqueue, hv, getThr_instrDone]
        rfl
      · exact fun m k' hne => by
          rw [setRd, getThr_modThr_other _ _ hne, getThr_enqueue, hv]
          exact onlyThread_instrDone _ _ hne
    · refine ⟨_, full (by rw [hq]; exact h), fun q' => ?_, ?_, ?_, ?_⟩
      · rw [queued_modThr, hq]
      · exact sameMemory_of_mem (by rw [modThr_mem, hv]; rfl)
      · rw [getThr_modThr, hv, getThr_instrDone]
      · rw [hv]
        exact onlyThread_instrDone_modThr _
  · intro s q n t rd e ws hw hr hs
    have hx : exec (.queuePositionFreed q) s = .next (wake (enqueue s q e) n t rd 0) :=
      congrArg Host.Outcome.next (admitOne_first hw hr)
    refine ⟨_, hx, ?_, sameMemory_of_mem enqueue_mem, fun m k hne => ?_, ?_, fun w hmem => ?_⟩
    · rw [wake, queued_modThr, queued_enqueue]
    · rw [onlyThread_wake _ _ hne, getThr_enqueue]
    · rw [getThr_wake (by rw [getThr_enqueue, hs]; decide), getThr_enqueue]
    · have := queueWaiters_sorted (s := s) (q := q)
      rw [hw] at this
      exact (List.pairwise_cons.1 this).1 w hmem

end Sys2Proof.Machine
end


section
/-! SUPPORT. Traps, and reads and writes of a thread at an item of SRAM that it owns. -/

namespace Sys2Proof.Machine

variable {s u v : State} {n t m k rd len : Nat}

/-! ### The precise trap (R321) -/

/-- `mstatus` after a trap: MIE cleared, MPIE what MIE was, MPP the mode. -/
def trapStatus (mstatus : DWord) (mmode : Bool) : DWord :=
  let mpie : DWord := ((mstatus >>> 3) &&& 1) <<< 7
  let mpp : DWord := if mmode then 3 <<< 11 else 0
  (mstatus &&& ~~~(0x1888 : DWord)) ||| mpie ||| mpp

theorem trapStatus_mie (x : DWord) (b : Bool) : (trapStatus x b).extractLsb' 3 1 = 0 := by
  ext i hi
  obtain rfl : i = 0 := by omega
  cases b <;> simp [trapStatus]

theorem trapStatus_mpie (x : DWord) (b : Bool) : (trapStatus x b).extractLsb' 7 1 = x.extractLsb' 3 1 := by
  ext i hi
  obtain rfl : i = 0 := by omega
  cases b <;> simp [trapStatus]

theorem trapStatus_mpp (x : DWord) (b : Bool) : (trapStatus x b).extractLsb' 11 2 = if b then 3 else 0 := by
  ext i hi
  obtain rfl | rfl : i = 0 ∨ i = 1 := by omega
  · cases b <;> simp [trapStatus]
  · cases b <;> simp [trapStatus]

theorem sameMemory_modThr {f : Thr → Thr} : SameMemory s (modThr s n t f) := sameMemory_of_mem rfl

theorem trapped_takeTrap {cause : Nat} {tval : DWord} : Trapped s (takeTrap s n t cause tval) n t cause tval := by
  have hg : getThr (takeTrap s n t cause tval) n t = _ := getThr_modThr s n t _
  have hs : SameMemory s (takeTrap s n t cause tval) := sameMemory_modThr
  have ho : OnlyThread s (takeTrap s n t cause tval) n t := onlyThread_modThr _
  unfold Trapped
  dsimp only
  rw [hg]
  have h3 := trapStatus_mie (getThr s n t).mstatus (getThr s n t).mmode
  have h7 := trapStatus_mpie (getThr s n t).mstatus (getThr s n t).mmode
  have h11 := trapStatus_mpp (getThr s n t).mstatus (getThr s n t).mmode
  dsimp only
  split
  · next h =>
    simp only [Bool.and_eq_true, beq_iff_eq] at h
    obtain ⟨hm, hv⟩ := h
    exact ⟨rfl, rfl, rfl, rfl, rfl, rfl, rfl, rfl, rfl, hm, h3, h7, h11, by rw [if_pos ⟨hm, hv⟩]; exact ⟨rfl, rfl⟩, ho, hs⟩
  · next h =>
    simp only [Bool.and_eq_true, beq_iff_eq] at h
    exact ⟨rfl, rfl, rfl, rfl, rfl, rfl, rfl, rfl, rfl, rfl, h3, h7, h11, by rw [if_neg h]; exact ⟨rfl, rfl⟩, ho, hs⟩

theorem Trapped.of_core_mem {cause : Nat} {tval : DWord} (h : Trapped u v n t cause tval) (hc : u.core = s.core) (hm : u.mem = s.mem) :
    Trapped s v n t cause tval := by
  have hg : ∀ m k, getThr u m k = getThr s m k := fun m k => getThr_of_core hc
  have hb : ∀ a, readByte u a = readByte s a := sameMemory_of_mem hm
  simpa only [Trapped, OnlyThread, SameMemory, hg, hb] using h

/-- An instruction that is illegal traps with cause 2 (R321). -/
theorem trapped_illegal : ∃ x, Trapped s (illegal s n t) n t 2 x :=
  ⟨_, trapped_takeTrap.of_core_mem rfl rfl⟩

/-! ### An item of SRAM that a thread owns (R345, R347, R348) -/

section Clean

variable {r : Right} {ga : Nat} {p : Place}

theorem readErrs_of_none (h : s.memErr = []) {b : Bool} : readErrs s p len b = (s, none) := by
  simp [readErrs, h]

theorem readAs_clean {i : Issuer} (hm : s.memErr = []) (hs : p.1.isSram = true)
    (ht : ∀ u ∈ unitsOf (addrOf p) len, tget .unowned s.tags u = accessTag s i (p.1, p.2 + (64 * u - addrOf p))) :
    readAs s i p len = { st := s, bytes := stored s (addrOf p) len, ue := none } := by
  have hb : (unitsOf (addrOf p) len).filter (fun u =>
      tget .unowned s.tags u != accessTag s i (p.1, p.2 + (64 * u - addrOf p))) = [] :=
    List.filter_eq_nil_iff.2 fun u hu => by simp [ht u hu]
  simp only [readAs, readErrs_of_none hm, hs, hb, if_true]
  simp [spoil, hm]

theorem threadRead_clean (h : CleanSram s n t .read ga len p) : threadRead s n t ga len = .ok (s, stored s (addrOf p) len) := by
  obtain ⟨hp, hb, hs, hm, -, -, ht⟩ := h
  simp [threadRead, hp, hb, readAs_clean hm hs ht]

theorem threadRead_bad {b : Nat} (h : badByte s (issuerOf s n t) .read ga len = some b) :
    threadRead s n t ga len = .error (takeTrap s n t 5 (BitVec.ofNat 64 b)) := by
  simp [threadRead, h, exLoadFault]

/-- The state after a write of an item whose lines carry the writer's tag. -/
theorem writeAs_clean {i : Issuer} {bs : List Byte} (hr : meetsRind s p bs.length = false) (hs : p.1.isSram = true)
    (ht : ∀ u ∈ unitsOf (addrOf p) bs.length, tget .unowned s.tags u = accessTag s i (p.1, p.2 + (64 * u - addrOf p))) :
    writeAs s i p bs = store (modCore s i.core (fun c => { c with tagW := satAdd 16 c.tagW 0 })) (addrOf p) bs := by
  have hb : (unitsOf (addrOf p) bs.length).filter (fun u =>
      tget .unowned s.tags u != accessTag s i (p.1, p.2 + (64 * u - addrOf p))) = [] :=
    List.filter_eq_nil_iff.2 fun u hu => by simp [ht u hu]
  simp [writeAs, hr, hs, hb]

/-- The state after a thread's write of an item that it owns. -/
def cleanWritten (s : State) (n a : Nat) (bs : List Byte) : State :=
  store (modCore s n (fun c => { c with tagW := satAdd 16 c.tagW 0 })) a bs

theorem storeFault_clean (h : CleanSram s n t .write ga len p) : storeFault s n t ga len = none := by
  obtain ⟨hp, hb, -, -, hr, -, -⟩ := h
  simp [storeFault, hp, hr, hb]

theorem threadWrite_clean {bs : List Byte} (h : CleanSram s n t .write ga bs.length p) :
    threadWrite s n t ga bs = .ok (cleanWritten s n (addrOf p) bs) := by
  have hf := storeFault_clean h
  obtain ⟨hp, -, hs, -, hr, -, ht⟩ := h
  simp only [threadWrite, hf, hp]
  exact congrArg Except.ok (writeAs_clean hr hs ht)

theorem getThr_cleanWritten {a : Nat} {bs : List Byte} : getThr (cleanWritten s n a bs) m k = getThr s m k := by
  rw [cleanWritten, getThr_of_core (s := modCore s n _) (by rw [store_frame])]
  exact getThr_modCore_of_thr fun _ => rfl

theorem readByte_cleanWritten_in {a i : Nat} {bs : List Byte} (h : i < bs.length) :
    readByte (cleanWritten s n a bs) (a + i) = bs[i] := readByte_store_in _ a i bs h

theorem readByte_cleanWritten_out {a i : Nat} {bs : List Byte} (h : i < a ∨ a + bs.length ≤ i) :
    readByte (cleanWritten s n a bs) i = readByte s i := readByte_store_out _ a i bs h

end Clean

/-! ### An instruction that retires with a result -/

theorem retired_instrDone_modThr {f : Thr → Thr} : Retired s (modThr (instrDone s n t len) n t f) n t len f :=
  ⟨by rw [getThr_modThr, getThr_instrDone], onlyThread_instrDone_modThr f⟩

/-- It retires the same on a state in which its thread and the others are the same. -/
theorem Retired.of_getThr {f : Thr → Thr} (h : Retired u v n t len f) (hg : ∀ m k, getThr u m k = getThr s m k) :
    Retired s v n t len f := by
  simpa only [Retired, OnlyThread, hg] using h

end Sys2Proof.Machine
end


section
/-! SUPPORT and proof of O23. SLV.CRC on items that the thread owns; the elements of a vector group. -/

namespace Sys2Proof.Machine

variable {s u v : State} {n t rd ga len k : Nat}

/-! ### SLV.CRC (R329) -/

section Crc

variable {p p' : Place}

theorem itemPlace_eq (h : itemPlace s (some n) ga len = some p) (h' : itemPlace s (some n) ga k = some p') : p = p' := by
  have start {len : Nat} {p : Place} (h : itemPlace s (some n) ga len = some p) :
      ∃ la, localAddr s ga = some la ∧ placeOf (some n) la = some p := by
    unfold itemPlace at h
    split at h
    · cases h
    · next la hla =>
      split at h
      · next hp _ =>
        split at h
        · exact ⟨la, hla, hp.trans h⟩
        · cases h
      · cases h
  obtain ⟨la, hla, hp⟩ := start h
  obtain ⟨la', hla', hp'⟩ := start h'
  obtain rfl : la = la' := Option.some.inj (hla.symm.trans hla')
  exact Option.some.inj (hp.symm.trans hp')

theorem threadTile_clean (h : CleanSram s n t .read ga 64 p)
    (hl : tileLen (rawFmt (stored s (addrOf p) 64)) (rawKind (stored s (addrOf p) 64)) = some k)
    (h' : ∃ p', CleanSram s n t .read ga k p') : threadTile s n t ga = .ok (s, some (stored s (addrOf p) k)) := by
  obtain ⟨p', h'⟩ := h'
  obtain rfl := itemPlace_eq h.1 h'.1
  simp [threadTile, threadRead_clean h, threadRead_clean h', hl, bind, Except.bind, pure, Except.pure]

theorem threadTile_reserved (h : CleanSram s n t .read ga 64 p)
    (hl : tileLen (rawFmt (stored s (addrOf p) 64)) (rawKind (stored s (addrOf p) 64)) = none) :
    threadTile s n t ga = .ok (s, none) := by
  simp [threadTile, threadRead_clean h, hl, bind, Except.bind, pure, Except.pure]

variable (hi : mayIssue s n t = true)
include hi

theorem exec_slvCrcRaw (h0 : 1 ≤ len) (h1 : len ≤ 1048576) (h : CleanSram s n t .read ga len p) :
    exec (.slvCrcRaw n t rd ga len) s = .next (setRd (instrDone s n t 4) n t rd (crc32c (stored s (addrOf p) len))) := by
  refine (congrArg Host.Outcome.next (issue_of_mayIssue hi _)).trans ?_
  rw [if_neg (by omega), threadRead_clean h]
  rfl

theorem exec_slvCrcRaw_illegal (h : len = 0 ∨ 1048576 < len) : exec (.slvCrcRaw n t rd ga len) s = .next (illegal s n t) := by
  refine (congrArg Host.Outcome.next (issue_of_mayIssue hi _)).trans ?_
  rw [if_pos h]

theorem exec_slvCrcTchk {bs : Option (List Byte)} (h : threadTile s n t ga = .ok (s, bs)) :
    exec (.slvCrcTchk n t rd ga) s = .next (setRd (instrDone s n t 4) n t rd (bs.elim 2 tchk)) := by
  refine (congrArg Host.Outcome.next (issue_of_mayIssue hi _)).trans ?_
  rw [h]
  cases bs <;> rfl

theorem exec_slvCrcTgen_reserved (h : threadTile s n t ga = .ok (s, none)) :
    exec (.slvCrcTgen n t rd ga) s = .next (setRd (instrDone s n t 4) n t rd 2) := by
  refine (congrArg Host.Outcome.next (issue_of_mayIssue hi _)).trans ?_
  rw [h]
  rfl

theorem exec_slvCrcTgen {bs : List Byte} {pc : Place} (h : threadTile s n t ga = .ok (s, some bs)) (hv : hdrValid bs = true)
    (hw : CleanSram s n t .write (ga + 0x3C) 4 pc) : exec (.slvCrcTgen n t rd ga) s =
      .next (setRd (instrDone (cleanWritten s n (addrOf pc) (leBytes 4 (tileCrc bs))) n t 4) n t rd 0) := by
  refine (congrArg Host.Outcome.next (issue_of_mayIssue hi _)).trans ?_
  rw [h]
  refine congrArg Host.Outcome.next ?_
  dsimp only [bind, Except.bind]
  rw [if_pos hv, threadWrite_clean (p := pc) (by rw [leBytes_length]; exact hw)]
  rfl

end Crc

theorem retired_setRd {x : Nat} : Retired s (setRd (instrDone s n t 4) n t rd x) n t 4 (fun h => setX h rd (BitVec.ofNat 64 x)) :=
  retired_instrDone_modThr

theorem sameMemory_setRd {x : Nat} : SameMemory s (setRd (instrDone s n t 4) n t rd x) := sameMemory_of_mem rfl

/-! ### Elements of a vector group -/

section Vector

theorem countFrom_succ (lo k : Nat) : countFrom lo (k + 1) = countFrom lo k ++ [lo + k] := by
  induction k generalizing lo with
  | zero => rfl
  | succ k ih => rw [countFrom, ih, countFrom, List.cons_append, Nat.add_right_comm, Nat.add_assoc]

/-- A number's digits to a base, put together again from the highest down. -/
theorem foldl_digits (b x a R : Nat) :
    ((countFrom 0 R).reverse).foldl (fun acc i => acc * b + x / b ^ i % b) a = a * b ^ R + x % b ^ R := by
  induction R generalizing a with
  | zero => simp [countFrom, Nat.mod_one]
  | succ R ih =>
    rw [countFrom_succ, List.reverse_append, List.reverse_singleton, List.singleton_append, List.foldl_cons, ih, Nat.zero_add,
      Nat.pow_succ, Nat.mod_mul]
    ring

/-- The elements put together into one number, the first lowest. -/
def joinElems (w : Nat) (es : List Nat) : Nat := (es.reverse).foldl (fun acc e => acc * 2 ^ w + e % 2 ^ w) 0

theorem joinElems_cons (w e : Nat) (es : List Nat) : joinElems w (e :: es) = joinElems w es * 2 ^ w + e % 2 ^ w := by
  simp [joinElems]

theorem elem_joinElems {w i : Nat} {es : List Nat} (h : i < es.length) : elem (joinElems w es) w i = es[i] % 2 ^ w := by
  have hpos : 0 < 2 ^ w := Nat.two_pow_pos w
  simp only [elem, bits, Nat.shiftRight_eq_div_pow]
  induction es generalizing i with
  | nil => simp at h
  | cons e es ih =>
    rw [joinElems_cons]
    cases i with
    | zero => simp [Nat.add_mod]
    | succ i =>
      rw [Nat.mul_succ, Nat.add_comm (w * i), Nat.pow_add, ← Nat.div_div_eq_div_mul, Nat.mul_comm (joinElems w es),
        Nat.mul_add_div hpos, Nat.div_eq_of_lt (Nat.mod_lt _ hpos), Nat.add_zero]
      exact ih (by simpa using h)

theorem elem_mod {x w i m : Nat} (h : w * (i + 1) ≤ m) : elem (x % 2 ^ m) w i = elem x w i := by
  simp only [elem, bits]
  apply Nat.eq_of_testBit_eq
  intro j
  simp only [Nat.testBit_mod_two_pow, Nat.testBit_shiftRight]
  by_cases hj : j < w
  · have : w * i + j < m := by rw [Nat.mul_succ] at h; omega
    simp [this]
  · simp [hj]

/-- A register of a group that an operation has written. -/
theorem tget_foldl_tset {v : Tbl (BitVec 512)} {f : Nat → BitVec 512} {r j R : Nat} (h : j < R) :
    tget 0 ((countFrom 0 R).foldl (fun v i => tset 0 v (r + i) (f i)) v) (r + j) = f j := by
  induction R with
  | zero => omega
  | succ R ih =>
    rw [countFrom_succ, List.foldl_append, List.foldl_cons, List.foldl_nil, Nat.zero_add]
    by_cases hj : j = R
    · rw [hj, tget_tset_same]
    · rw [tget_tset_other (by omega)]
      exact ih (by omega)

/-- A register group reads as its registers do. -/
theorem groupNat_congr {g : Thr} {r e8 x : Nat}
    (hv : ∀ j, j < groupRegs e8 → (tget 0 g.v (r + j)).toNat = x / 2 ^ (512 * j) % 2 ^ 512) :
    groupNat g r e8 = x % 2 ^ (512 * groupRegs e8) := by
  have hfold : groupNat g r e8 = ((countFrom 0 (groupRegs e8)).reverse).foldl
      (fun acc i => acc * 2 ^ 512 + x / (2 ^ 512) ^ i % 2 ^ 512) 0 := by
    refine List.foldl_ext _ _ _ fun acc i hi => ?_
    have hi := (mem_countFrom.1 (List.mem_reverse.1 hi)).2
    rw [hv i (by omega), ← Nat.pow_mul]
  rw [hfold, foldl_digits, ← Nat.pow_mul]
  omega

theorem groupNat_setGroup {h g : Thr} {r e8 w : Nat} {es : List Nat} (hg : g.v = (setGroup h r e8 w es).v) :
    groupNat g r e8 = joinElems w es % 2 ^ (512 * groupRegs e8) := by
  refine groupNat_congr fun j hj => ?_
  rw [hg]
  exact (congrArg BitVec.toNat (tget_foldl_tset hj)).trans (BitVec.toNat_ofNat ..)

/-- An element that an operation wrote reads back. -/
theorem elem_setGroup {h g : Thr} {r e8 w i : Nat} {rnd : List Byte} {body : List Nat}
    (hg : g.v = (setGroup h r e8 w (withTail h r e8 w rnd body)).v) (hi : i < body.length)
    (hl : body.length * w ≤ 512 * groupRegs e8) : elem (groupNat g r e8) w i = body[i] % 2 ^ w := by
  have hw : w * (i + 1) ≤ 512 * groupRegs e8 :=
    (Nat.mul_le_mul_left w (Nat.succ_le_of_lt hi)).trans (by rwa [Nat.mul_comm])
  have hlen : i < (withTail h r e8 w rnd body).length := by simp only [withTail, List.length_append]; omega
  rw [groupNat_setGroup hg, elem_mod hw, elem_joinElems hlen]
  simp only [withTail, List.getElem_append_left hi]

end Vector

/-! ### SLV.VCVT and SLV.VFN (R330, R331) -/

section Convert

variable {vd vs2 code f7 sew lm : Nat} {a b : VFmt}

/-- The elements of a conversion. -/
def vcvtElems (h : Thr) (a b : VFmt) (vs2 ea : Nat) : List (Nat × ConvEvents) :=
  (countFrom 0 h.vl).map (fun i => vfEncode b (vfValue a (elem (groupNat h vs2 ea) (vfWidth a) i)))

/-- The elements of a function evaluation. -/
def vfnElems (h : Thr) (f7 vs2 lm : Nat) : List Nat :=
  (countFrom 0 h.vl).map (fun i =>
    (if bitOf f7 6 then fnD (bits f7 0 6) (BitVec.ofNat 16 (elem (groupNat h vs2 lm) 16 i))
      else fnF (bits f7 0 6) (BitVec.ofNat 16 (elem (groupNat h vs2 lm) 16 i))).toNat)

/-- The destination group written, elements beyond the body as the tail policy says. -/
def vecWrite (vd e8 w : Nat) (rnd : List Byte) (body : List Nat) (h : Thr) : Thr :=
  if h.vl = 0 then { h with vstart := 0 } else { setGroup h vd e8 w (withTail h vd e8 w rnd body) with vstart := 0 }

/-- The state in which a conversion has counted its events. -/
def vcvtCounted (s : State) (n t : Nat) (rs : List (Nat × ConvEvents)) : State :=
  let ev := rs.foldl (fun (acc : ConvEvents) r => acc.add r.2) {}
  let s := { s with fresh := s.fresh + 1 }
  if ctxValid s n t then addConv s (getThr s n t).ctx ev.sat ev.nan else s

theorem vcvtCounted_core {rs : List (Nat × ConvEvents)} : (vcvtCounted s n t rs).core = s.core := by
  unfold vcvtCounted
  dsimp only
  split <;> rfl

theorem vcvtCounted_mem {rs : List (Nat × ConvEvents)} : (vcvtCounted s n t rs).mem = s.mem := by
  unfold vcvtCounted
  dsimp only
  split <;> rfl

theorem vcvtCounted_ctx {rs : List (Nat × ConvEvents)} (h : ctxValid s n t = false) : (vcvtCounted s n t rs).ctx = s.ctx := by
  unfold vcvtCounted
  dsimp only
  rw [if_neg (by rw [show ctxValid { s with fresh := s.fresh + 1 } n t = ctxValid s n t from rfl, h]; simp)]

theorem instrDone_modThr_ctx {f : Thr → Thr} {m k : Nat} : (instrDone (modThr v m k f) n t len).ctx = v.ctx := rfl

/-- What an instruction that writes a vector group leaves. -/
structure VecDone (s u : State) (n t vd e8 w : Nat) (body : List Nat) : Prop where
  elems : ∀ i, (h : i < body.length) → elem (groupNat (getThr u n t) vd e8) w i = body[i] % 2 ^ w
  pc : (getThr u n t).pc = (getThr s n t).pc + 4
  vstart : (getThr u n t).vstart = 0
  x : (getThr u n t).x = (getThr s n t).x
  only : OnlyThread s u n t
  same : SameMemory s u

theorem vecDone {e8 w : Nat} {rnd : List Byte} {body : List Nat} (hc : v.core = s.core) (hm : v.mem = s.mem)
    (hvl : 0 < (getThr s n t).vl) (hl : body.length * w ≤ 512 * groupRegs e8) :
    VecDone s (instrDone (modThr v n t (vecWrite vd e8 w rnd body)) n t 4) n t vd e8 w body := by
  have hg : getThr (instrDone (modThr v n t (vecWrite vd e8 w rnd body)) n t 4) n t = _ := getThr_instrDone
  rw [getThr_modThr, getThr_of_core hc, vecWrite, if_neg (by omega)] at hg
  have ho : OnlyThread s (instrDone (modThr v n t (vecWrite vd e8 w rnd body)) n t 4) n t :=
    (onlyThread_of_core hc).trans ((onlyThread_modThr _).trans onlyThread_instrDone)
  exact ⟨fun i hi => elem_setGroup (by rw [hg]) hi hl, by rw [hg]; rfl, by rw [hg], by rw [hg]; rfl, ho, sameMemory_of_mem hm⟩

variable (hi : mayIssue s n t = true)
include hi

theorem exec_slvVcvt (hc : vcvtOf code = some (a, b)) (hv : vtypeOf (getThr s n t) = some (sew, lm))
    (hsew : sew = max (vfWidth a) (vfWidth b)) (ha : lm * vfWidth a % max (vfWidth a) (vfWidth b) = 0)
    (hb : lm * vfWidth b % max (vfWidth a) (vfWidth b) = 0)
    (hga : groupOk vs2 (lm * vfWidth a / max (vfWidth a) (vfWidth b)) = true)
    (hgb : groupOk vd (lm * vfWidth b / max (vfWidth a) (vfWidth b)) = true) :
    ∃ rnd, exec (.slvVcvt n t vd vs2 code) s = .next (
      let eb := lm * vfWidth b / max (vfWidth a) (vfWidth b)
      let rs := vcvtElems (getThr s n t) a b vs2 (lm * vfWidth a / max (vfWidth a) (vfWidth b))
      instrDone (modThr (vcvtCounted s n t rs) n t (vecWrite vd eb (vfWidth b) rnd (rs.map Prod.fst))) n t 4) := by
  refine ⟨(draw s (512 * groupRegs (lm * vfWidth b / max (vfWidth a) (vfWidth b)) / vfWidth b)).1,
    (congrArg Host.Outcome.next (issue_of_mayIssue hi _)).trans ?_⟩
  simp only [hc, hv]
  rw [if_neg (by simp [hsew, ha, hb, hga, hgb])]
  rfl

theorem exec_slvVcvt_reserved (hc : vcvtOf code = none) : exec (.slvVcvt n t vd vs2 code) s = .next (illegal s n t) := by
  refine (congrArg Host.Outcome.next (issue_of_mayIssue hi _)).trans ?_
  simp only [hc]

theorem exec_slvVfn (h7 : f7 < 128) (hv : vtypeOf (getThr s n t) = some (16, lm)) (hf : fnDefined (bits f7 0 6) = true)
    (hga : groupOk vs2 lm = true) (hgb : groupOk vd lm = true) :
    ∃ rnd, exec (.slvVfn n t vd vs2 f7) s = .next (instrDone (modThr { s with fresh := s.fresh + 1 } n t
      (vecWrite vd lm 16 rnd (vfnElems (getThr s n t) f7 vs2 lm))) n t 4) := by
  refine ⟨(draw s (32 * groupRegs lm)).1, (congrArg Host.Outcome.next (issue_of_mayIssue hi _)).trans ?_⟩
  simp only [hv]
  rw [if_neg (by simp [hf, hga, hgb]; omega)]
  rfl

theorem exec_slvVfn_sew (hv : vtypeOf (getThr s n t) = some (sew, lm)) (hs : sew ≠ 16) :
    exec (.slvVfn n t vd vs2 f7) s = .next (illegal s n t) := by
  refine (congrArg Host.Outcome.next (issue_of_mayIssue hi _)).trans ?_
  simp only [hv]
  rw [if_pos (.inl hs)]

end Convert

/-- Settles O23. -/
theorem readsCrcAndVectorInstructions : Obligations.ReadsCrcAndVectorInstructions := by
  refine ⟨fun s n t ga len => ⟨fun p _ h => ⟨threadRead_clean h, fun k hk => stored_get _ _ _ _ h.2.2.2.2.2.1 hk⟩,
    fun b h => ⟨_, threadRead_bad h, trapped_takeTrap⟩⟩, fun s n t rd addr len hi => ⟨?_, ?_, ?_, ?_, ?_⟩,
    fun s n t vd vs2 hi => ⟨?_, ?_, ?_, ?_⟩⟩
  · exact fun p h0 h1 h => ⟨_, exec_slvCrcRaw hi h0 h1 h, retired_setRd, sameMemory_setRd⟩
  · exact fun h => ⟨_, exec_slvCrcRaw_illegal hi h, trapped_illegal⟩
  · exact fun p k h hk h' => ⟨_, exec_slvCrcTchk hi (threadTile_clean h hk h'), retired_setRd, sameMemory_setRd⟩
  · exact fun p h hk => ⟨⟨_, exec_slvCrcTchk hi (threadTile_reserved h hk), retired_setRd, sameMemory_setRd⟩,
      ⟨_, exec_slvCrcTgen_reserved hi (threadTile_reserved h hk), retired_setRd, sameMemory_setRd⟩⟩
  · intro p k pc h hk h' hv hw
    refine ⟨_, exec_slvCrcTgen hi (threadTile_clean h hk h') hv hw, retired_setRd.of_getThr fun _ _ => getThr_cleanWritten,
      fun i hi4 => ?_, fun a ha => ?_⟩
    · refine (sameMemory_setRd _).trans ((readByte_cleanWritten_in (by simpa using hi4)).trans ?_)
      rw [List.getD_eq_getElem]
    · exact (sameMemory_setRd a).trans (readByte_cleanWritten_out (by simpa using ha))
  · intro code a b sew lm hc hv hvl wide ea eb hsew ha hb hga hgb hl _
    obtain ⟨rnd, hx⟩ := exec_slvVcvt hi hc hv hsew ha hb hga hgb
    have hlen : ((vcvtElems (getThr s n t) a b vs2 ea).map Prod.fst).length = (getThr s n t).vl := by simp [vcvtElems]
    have hd := vecDone (v := vcvtCounted s n t (vcvtElems (getThr s n t) a b vs2 ea)) (rnd := rnd) (vd := vd) vcvtCounted_core vcvtCounted_mem hvl (by rw [hlen]; exact hl)
    refine ⟨_, hx, fun i hi => ?_, hd.pc, hd.vstart, hd.x, fun hcv => instrDone_modThr_ctx.trans (vcvtCounted_ctx hcv), hd.only, hd.same⟩
    rw [hd.elems i (by rw [hlen]; exact hi)]
    simp [vcvtElems]
  · exact fun code hc => ⟨_, exec_slvVcvt_reserved hi hc, trapped_illegal⟩
  · intro f7 lm h7 hv hf hvl hga hgb hl _
    obtain ⟨rnd, hx⟩ := exec_slvVfn hi h7 hv hf hga hgb
    have hlen : (vfnElems (getThr s n t) f7 vs2 lm).length = (getThr s n t).vl := by simp [vfnElems]
    have hd := vecDone (v := { s with fresh := s.fresh + 1 }) (rnd := rnd) (vd := vd) rfl rfl hvl (by rw [hlen]; exact hl)
    refine ⟨_, hx, fun i hi => ?_, hd.pc, hd.vstart, hd.x, hd.only, hd.same⟩
    rw [hd.elems i (by rw [hlen]; exact hi)]
    simp only [vfnElems, List.getElem_map, getElem_countFrom, Nat.zero_add]
    exact Nat.mod_eq_of_lt (BitVec.isLt _)
  · exact fun f7 sew lm hv hs => ⟨_, exec_slvVfn_sew hi hv hs, trapped_illegal⟩

end Sys2Proof.Machine
end


section
/-! SUPPORT and proof of O25. Memory accesses of a thread at items that it owns, its traps, and the instruction at its pc. -/

namespace Sys2Proof.Machine

variable {s u v : State} {n t rd ga z len : Nat} {p : Place}

/-! ### Accesses (R318, R345) -/

theorem CleanSram.ok {r : Right} (h : CleanSram s n t r ga z p) : p.1.isSram = true := h.2.2.1

theorem CleanSram.wf {r : Right} (h : CleanSram s n t r ga z p) : Memory.wf s.mem = true := by
  obtain ⟨-, -, -, -, -, hw, -⟩ := h
  exact hw

theorem addrOf_sram_pos (h : p.1.isSram = true) : addrOf p / 64 ≠ 0 := by
  obtain ⟨k, o⟩ := p
  cases k with
  | coreSram => simp only [addrOf]; omega
  | clusterSram => simp only [addrOf]; omega
  | hbm => cases h
  | tier2 => cases h

theorem issuerOf_instrDone : issuerOf (instrDone s n t len) n t = issuerOf s n t := by
  have hc : ctxValid (instrDone s n t len) n t = ctxValid s n t := by
    unfold ctxValid
    rw [getThr_instrDone]
    rfl
  unfold issuerOf
  rw [hc, getThr_instrDone]
  rfl

/-- An item that the thread owns is its own after its instruction has retired. -/
theorem CleanSram.instrDone {r : Right} (h : CleanSram s n t r ga z p) : CleanSram (instrDone s n t len) n t r ga z p := by
  unfold CleanSram at h ⊢
  rw [issuerOf_instrDone]
  exact h

theorem itemRead_clean {r : Right} {c ue : Nat} (h : CleanSram s n t r ga z p) (hh : heldOver s p z = false) :
    itemRead s n t r c ue ga z = .ok (s, stored s (addrOf p) z) := by
  obtain ⟨hp, hb, hs, hm, -, -, ht⟩ := h
  simp [itemRead, hp, hb, hh, readAs_clean hm hs ht]

theorem exec_access {a : MemAcc} (hi : mayIssue s n t = true) (hr : a ≠ .run) (ha : accOk a = true) :
    exec (.threadMemoryAccess n t len a) s = .next (memAccess s n t len a) :=
  (congrArg Host.Outcome.next (issue_of_mayIssue hi _)).trans (by rw [if_neg hr, if_pos ha])

theorem getElem_leBytes {k v i : Nat} (h : i < (leBytes k v).length) : (leBytes k v)[i] = BitVec.ofNat 8 (v / 256 ^ i) := by
  induction k generalizing v i with
  | zero => simp [leBytes] at h
  | succ k ih =>
    cases i with
    | zero => simp [leBytes]
    | succ i =>
      have := ih (v := v / 256) (i := i) (by simpa using h)
      simp only [leBytes, List.getElem_cons_succ, this, Nat.div_div_eq_div_mul, Nat.pow_succ']

theorem stored_eq {bs : List Byte} {a : Nat} (hw : Memory.wf u.mem = true) (h : ∀ i, (hi : i < bs.length) → readByte u (a + i) = bs[i]) :
    stored u a bs.length = bs := by
  apply List.ext_getElem?
  intro i
  by_cases hi : i < bs.length
  · rw [stored_get _ _ _ _ hw hi, h i hi, List.getElem?_eq_getElem hi]
  · rw [List.getElem?_eq_none (by simpa using hi), List.getElem?_eq_none (by simpa using hi)]

theorem stored_cleanWritten {a : Nat} {bs : List Byte} (hw : Memory.wf s.mem = true) : stored (cleanWritten s n a bs) a bs.length = bs :=
  stored_eq (store_wf _ _ _ hw) fun _ hi => readByte_cleanWritten_in hi

section Aligned

variable (ha : ga % z = 0)
include ha

theorem itemLoad_clean (hr : regOf s ga = none) (h : CleanSram s n t .read ga z p) (hh : heldOver s p z = false) :
    itemLoad s n t ga z = .ok (s, leNat (stored s (addrOf p) z)) := by
  simp [itemLoad, ha, hr, itemRead_clean h hh]

theorem itemLoad_bad {b : Nat} (hr : regOf s ga = none) (h : badByte s (issuerOf s n t) .read ga z = some b) :
    itemLoad s n t ga z = .error (takeTrap s n t 5 (BitVec.ofNat 64 b)) := by
  simp [itemLoad, ha, hr, itemRead, h, trapAt, exLoadFault]

theorem itemStore_clean {x : Nat} (hr : regOf s ga = none) (h : CleanSram s n t .write ga z p) :
    itemStore s n t ga z x = .ok (cleanWritten s n (addrOf p) (leBytes z x)) := by
  have hw : threadWrite s n t ga (leBytes z x) = _ := threadWrite_clean (by rw [leBytes_length]; exact h)
  simp [itemStore, ha, hr, hw]

theorem itemStore_bad {b x : Nat} (hr : regOf s ga = none) (hp : itemPlace s (some n) ga z = some p) (hm : meetsRind s p z = false)
    (h : badByte s (issuerOf s n t) .write ga z = some b) :
    itemStore s n t ga z x = .error (takeTrap s n t 7 (BitVec.ofNat 64 b)) := by
  simp [itemStore, ha, hr, threadWrite, storeFault, hp, hm, h, exStoreFault]

theorem itemStore_reg_user {off x : Nat} (hr : regOf s ga = some off) (hu : (getThr s n t).mmode = false) :
    itemStore s n t ga z x = .error (takeTrap s n t 7 (BitVec.ofNat 64 ga)) := by
  have hm : mayRead s (.thread n t) off = false := by
    simp only [mayRead, threadReaches, hu, Bool.false_and]
    split
    · rfl
    · rfl
  have hw : (accessWrite s (.thread n t) off x {}).2 ≠ .ok := by
    unfold accessWrite
    rw [hm]
    split
    · simp
    · simp
  unfold itemStore
  rw [if_neg (by simp [ha]), hr]
  dsimp only
  split
  · next h =>
    split at h
    · exact absurd (congrArg Prod.snd h) hw
    · cases h
  · rfl

theorem itemAmo_clean {op : AmoOp} {x : Nat} (hr : CleanSram s n t .read ga z p) (hw : CleanSram s n t .write ga z p)
    (hh : heldOver s p z = false) : itemAmo s n t op ga z x = .ok
      (cleanWritten s n (addrOf p) (leBytes z (amoValue op (8 * z) (leNat (stored s (addrOf p) z)) x)), leNat (stored s (addrOf p) z)) := by
  have hwr (y : Nat) : threadWrite s n t ga (leBytes z y) = _ := threadWrite_clean (by rw [leBytes_length]; exact hw)
  simp [itemAmo, ha, storeFault_clean hw, itemRead_clean hr hh, hwr]

theorem itemLr_clean (h : CleanSram s n t .read ga z p) (hh : heldOver s p z = false) : itemLr s n t ga z =
    .ok ({ s with resv := tset 0 s.resv (16 * n + t) (addrOf p / 64) }, leNat (stored s (addrOf p) z)) := by
  simp [itemLr, ha, itemRead_clean h hh, lineOf, h.1]

theorem itemSc_stands {x : Nat} (h : CleanSram s n t .write ga z p) (hv : tget 0 s.resv (16 * n + t) = addrOf p / 64) :
    itemSc s n t ga z x = .ok (dropResv (cleanWritten s n (addrOf p) (leBytes z x)) n t, 0) := by
  have hwr : threadWrite s n t ga (leBytes z x) = _ := threadWrite_clean (by rw [leBytes_length]; exact h)
  have hne := addrOf_sram_pos h.ok
  have hl : lineOf s n ga z = addrOf p / 64 := by simp [lineOf, h.1]
  unfold itemSc
  rw [if_neg (by simp [ha]), storeFault_clean h]
  dsimp only
  rw [hl, if_pos ⟨hne, hv⟩, hwr]

theorem itemSc_ended {x : Nat} (h : CleanSram s n t .write ga z p) (hv : tget 0 s.resv (16 * n + t) ≠ addrOf p / 64) :
    itemSc s n t ga z x = .ok (dropResv s n t, 1) := by
  have hl : lineOf s n ga z = addrOf p / 64 := by simp [lineOf, h.1]
  unfold itemSc
  rw [if_neg (by simp [ha]), storeFault_clean h]
  dsimp only
  rw [hl, if_neg fun e => hv e.2]

end Aligned

theorem retired_loaded {x : Nat} : Retired s (loaded s n t len rd x) n t len (fun h => setX h rd (BitVec.ofNat 64 x)) :=
  retired_instrDone_modThr

theorem retired_instrDone : Retired s (instrDone s n t len) n t len id := ⟨getThr_instrDone, onlyThread_instrDone⟩

theorem readByte_loaded {x a : Nat} : readByte (loaded s n t len rd x) a = readByte s a := rfl

theorem getThr_dropResv {m k : Nat} : getThr (dropResv s n t) m k = getThr s m k := getThr_of_core rfl

theorem readByte_dropResv {a : Nat} : readByte (dropResv s n t) a = readByte s a := rfl

theorem stored_written {a x : Nat} (hw : Memory.wf s.mem = true) (hm : u.mem = (cleanWritten s n a (leBytes z x)).mem) :
    stored u a z = leBytes z x := by
  have h := stored_cleanWritten (n := n) (a := a) (bs := leBytes z x) hw
  rw [leBytes_length] at h
  rw [← h, stored, hm, stored]

theorem stored_of_mem {a k : Nat} (h : u.mem = s.mem) : stored u a k = stored s a k := by rw [stored, h, stored]

/-! ### The instruction at the pc (R316) -/

/-- The instruction has changed its thread to `g`, and nothing else. -/
structure ThreadOnly (s u : State) (n t : Nat) (g : Thr) : Prop where
  thr : getThr u n t = g
  only : OnlyThread s u n t
  frame : u = { s with core := u.core }

theorem threadOnly_modThr {f : Thr → Thr} : ThreadOnly s (modThr s n t f) n t (f (getThr s n t)) :=
  ⟨getThr_modThr s n t f, onlyThread_modThr f, rfl⟩

theorem setX_instret {h : Thr} {r : Nat} {x : DWord} : (setX h r x).instret = h.instret := by
  unfold setX
  split
  · rfl
  · rfl

/-- A thread after an instruction of `len` bytes at its pc. -/
def steppedThr (s : State) (n t len : Nat) : Thr :=
  { getThr s n t with pc := (getThr s n t).pc + BitVec.ofNat 64 len, instret := wrap 64 ((getThr s n t).instret + 1) }

theorem threadOnly_instrDone : ThreadOnly s (instrDone s n t len) n t (steppedThr s n t len) := threadOnly_modThr

theorem threadOnly_retireThr {r : Nat} {x : DWord} : ThreadOnly s (retireThr s n t len (some (setX (getThr s n t) r x))) n t
    { setX (getThr s n t) r x with pc := (steppedThr s n t len).pc, instret := (steppedThr s n t len).instret } := by
  refine ⟨?_, (onlyThread_modThr _).trans onlyThread_instrDone, rfl⟩
  rw [retireThr, getThr_instrDone, getThr_modThr, setX_pc, setX_instret]
  rfl

theorem threadOnly_jump {r : Nat} {x : DWord} : ThreadOnly s (jump s n t len r x) n t
    { setX (getThr s n t) r (steppedThr s n t len).pc with pc := x, instret := (steppedThr s n t len).instret } := threadOnly_modThr

section Word

variable {w : Nat}

theorem runWord_addi (ho : rvOp w = 0x13) (hf : rvF3 w = 0) : runWord s n t len w =
    retireThr s n t len (some (setX (getThr s n t) (rvRd w) (getX (getThr s n t) (rvRs1 w) + immI w))) := by
  simp [runWord, ho, opImmResult, hf, aluOp]

theorem runWord_op {x : DWord} (ho : rvOp w = 0x33)
    (hx : opResult (rvF3 w) (rvF7 w) (getX (getThr s n t) (rvRs1 w)) (getX (getThr s n t) (rvRs2 w)) = some x) :
    runWord s n t len w = retireThr s n t len (some (setX (getThr s n t) (rvRd w) x)) := by
  simp [runWord, ho, hx]

theorem runWord_jal (ho : rvOp w = 0x6F) : runWord s n t len w = jump s n t len (rvRd w) ((getThr s n t).pc + immJ w) := by
  simp [runWord, ho]

theorem runWord_branch {x : Bool} (ho : rvOp w = 0x63)
    (hx : branchTaken (rvF3 w) (getX (getThr s n t) (rvRs1 w)) (getX (getThr s n t) (rvRs2 w)) = some x) :
    runWord s n t len w = if x then jump s n t len 0 ((getThr s n t).pc + immB w) else instrDone s n t len := by
  cases x <;> simp [runWord, ho, hx]

theorem threadOnly_branch {x : Bool} (ho : rvOp w = 0x63)
    (hx : branchTaken (rvF3 w) (getX (getThr s n t) (rvRs1 w)) (getX (getThr s n t) (rvRs2 w)) = some x) :
    ThreadOnly s (runWord s n t len w) n t { getThr s n t with
      pc := if x then (getThr s n t).pc + immB w else (steppedThr s n t len).pc, instret := (steppedThr s n t len).instret } := by
  rw [runWord_branch ho hx]
  cases x
  · exact threadOnly_instrDone
  · exact threadOnly_jump

theorem runWord_unassigned (ho : rvOp w ∈ [0x1F, 0x3F, 0x5B, 0x77, 0x7B]) : runWord s n t len w = illegal s n t := by
  simp only [List.mem_cons, List.not_mem_nil, or_false] at ho
  obtain h | h | h | h | h := ho
  · simp [runWord, h]
  · simp [runWord, h]
  · simp [runWord, h]
  · simp [runWord, h]
  · simp [runWord, h]

/-- No floating-point access has 8, 16 or 128 bits. -/
theorem runWord_half_quad (ho : rvOp w ∈ [0x07, 0x27]) (hf : rvF3 w ∈ [1, 4]) : runWord s n t len w = illegal s n t := by
  have hw : vWidth (rvF3 w) = none ∧ rvF3 w ≠ 2 ∧ rvF3 w ≠ 3 := by
    simp only [List.mem_cons, List.not_mem_nil, or_false] at hf
    obtain h | h := hf
    · rw [h]; decide
    · rw [h]; decide
  obtain ⟨hv, h2, h3⟩ := hw
  simp only [List.mem_cons, List.not_mem_nil, or_false] at ho
  obtain h | h := ho
  · have hs : scalarAcc (getThr s n t) w = none := by simp [scalarAcc, h, h2, h3]
    simp [runWord, h, hv, hs]
  · have hs : scalarAcc (getThr s n t) w = none := by simp [scalarAcc, h, h2, h3]
    simp [runWord, h, hv, hs]

theorem vecExec_narrow {h : Thr} {rnd : List Byte} (hf : rvF3 w ∈ [1, 5]) (hs : ∀ sew lm, vtypeOf h = some (sew, lm) → sew < 32) :
    vecExec h rnd w = none := by
  have opf (v : VIns) (hv : v.sew < 32) : opfExec h v = none := by
    unfold opfExec
    split
    · rfl
    · rw [if_pos hv]
  simp only [List.mem_cons, List.not_mem_nil, or_false] at hf
  unfold vecExec
  cases hv : vtypeOf h with
  | none =>
    obtain h3 | h3 := hf
    · simp [h3]
    · simp [h3]
  | some x =>
    obtain ⟨sew, lm⟩ := x
    have hlt := hs sew lm hv
    obtain h3 | h3 := hf
    · rw [h3]
      exact opf _ hlt
    · rw [h3]
      exact opf _ hlt

theorem runWord_vector_narrow (ho : rvOp w = 0x57) (hf : rvF3 w ∈ [1, 5])
    (hs : ∀ sew lm, vtypeOf (getThr s n t) = some (sew, lm) → sew < 32) :
    runWord s n t len w = illegal { s with fresh := s.fresh + 1 } n t := by
  simp only [runWord, ho, vecExec_narrow hf hs]
  rfl

theorem runWord_wfi : runWord s n t len 0x10500073 = instrDone s n t len := rfl

theorem runWord_ecall : runWord s n t len 0x73 = takeTrap s n t (if (getThr s n t).mmode then 11 else 8) 0 := rfl

theorem runWord_mret : runWord s n t len 0x30200073 = if (getThr s n t).mmode then modThr s n t mret else illegal s n t := rfl

theorem runWord_fence_i : runWord s n t len 0x100F = modCore (instrDone s n t len) n (fun c => { c with icache := [] }) := rfl

theorem getThr_fence_i : getThr (modCore (instrDone s n t len) n (fun c => { c with icache := [] })) n t = steppedThr s n t len := by
  refine Eq.trans (getThr_modCore_of_thr ?_) getThr_instrDone
  intro
  rfl

end Word

/-! ### MRET (R317) -/

/-- The bits of MPP in `mstatus`. -/
theorem getElem_mppMask : ∀ i : Fin 64, (0x1800#64)[i] = (i == 11 || i == 12) := by decide

theorem mpp_eq {m : DWord} : m &&& 0x1800 = 0x1800 ↔ m.extractLsb' 11 2 = 3 := by
  constructor
  · intro h
    have h := congrArg (BitVec.extractLsb' 11 2) h
    have hb (i : Nat) (hi : i < 2) : m.getLsbD (11 + i) = true := by
      have := congrArg (·.getLsbD i) h
      obtain rfl | rfl : i = 0 ∨ i = 1 := by omega
      · simpa using this
      · simpa using this
    ext i hi
    have := hb i hi
    obtain rfl | rfl : i = 0 ∨ i = 1 := by omega
    · simpa using this
    · simpa using this
  · intro h
    have hb (i : Nat) (hi : i < 2) : m.getLsbD (11 + i) = true := by
      have := congrArg (·.getLsbD i) h
      obtain rfl | rfl : i = 0 ∨ i = 1 := by omega
      · simpa using this
      · simpa using this
    ext i hi
    have hm := getElem_mppMask ⟨i, hi⟩
    simp only [Fin.getElem_fin] at hm
    have h0 : (0x1800 : DWord)[i] = (0x1800#64)[i] := rfl
    rw [BitVec.getElem_and, h0, hm]
    by_cases h : i = 11 ∨ i = 12
    · have : m[i] = true := by
        rw [← BitVec.getLsbD_eq_getElem]
        obtain rfl | rfl := h
        · exact hb 0 (by decide)
        · exact hb 1 (by decide)
      rw [this, Bool.true_and]
    · obtain ⟨h11, h12⟩ := not_or.1 h
      simp [Fin.ext_iff, h11, h12]

theorem mret_mode {h : Thr} : (mret h).mmode = true ↔ h.mstatus.extractLsb' 11 2 = 3 :=
  beq_iff_eq.trans mpp_eq

theorem mret_mie {h : Thr} : (mret h).mstatus.extractLsb' 3 1 = h.mstatus.extractLsb' 7 1 := by
  ext i hi
  obtain rfl : i = 0 := by omega
  simp [mret, mstatusMask]

/-! ### The accesses as a whole -/

theorem regOf_instrDone : regOf (instrDone s n t len) ga = regOf s ga := rfl

theorem exec_store {x : Nat} (hi : mayIssue s n t = true) (hz : z ∈ [1, 2, 4, 8]) :
    exec (.threadMemoryAccess n t len (.store ga z x)) s = .next (memAccess s n t len (.store ga z x)) :=
  exec_access hi (by simp) (List.contains_iff_mem.2 hz)

theorem exec_load {sg : Bool} (hi : mayIssue s n t = true) (hz : z ∈ [1, 2, 4, 8]) :
    exec (.threadMemoryAccess n t len (.load ga z sg rd)) s = .next (memAccess s n t len (.load ga z sg rd)) :=
  exec_access hi (by simp) (List.contains_iff_mem.2 hz)

theorem memAccess_store_clean {x : Nat} (ha : ga % z = 0) (hr : regOf s ga = none) (h : CleanSram s n t .write ga z p) :
    memAccess s n t len (.store ga z x) = cleanWritten (instrDone s n t len) n (addrOf p) (leBytes z x) := by
  have hr' : regOf (instrDone s n t len) ga = none := regOf_instrDone.trans hr
  simp only [memAccess, itemStore_clean ha hr h, itemStore_clean ha hr' h.instrDone, outcome]

theorem memAccess_store_error {x : Nat} (h : itemStore s n t ga z x = .error u) : memAccess s n t len (.store ga z x) = u := by
  simp only [memAccess, h]

theorem memAccess_load {sg : Bool} {x : Nat} (h : itemLoad s n t ga z = .ok (s, x)) :
    memAccess s n t len (.load ga z sg rd) = loaded s n t len rd (extend z sg x) := by
  simp only [memAccess, h]

theorem memAccess_load_error {sg : Bool} (h : itemLoad s n t ga z = .error u) : memAccess s n t len (.load ga z sg rd) = u := by
  simp only [memAccess, h]

theorem itemStore_misaligned {x : Nat} (h : ga % z ≠ 0) : itemStore s n t ga z x = .error (takeTrap s n t 6 (BitVec.ofNat 64 ga)) := by
  simp [itemStore, h, trapAt, exStoreMisaligned]

theorem itemLoad_misaligned (h : ga % z ≠ 0) : itemLoad s n t ga z = .error (takeTrap s n t 4 (BitVec.ofNat 64 ga)) := by
  simp [itemLoad, h, trapAt, exLoadMisaligned]

theorem exec_slvctxWrite {x : Nat} (hi : mayIssue s n t = true) (hm : (getThr s n t).mmode = true) : exec (.slvctxWrite n t x) s =
    .next (modThr (instrDone s n t 4) n t (fun h => { h with ctx := bits x 0 12 })) :=
  (congrArg Host.Outcome.next (issue_of_mayIssue hi _)).trans (by rw [if_pos hm])

theorem exec_slvctxWrite_user {x : Nat} (hi : mayIssue s n t = true) (hm : (getThr s n t).mmode = false) :
    exec (.slvctxWrite n t x) s = .next (illegal s n t) :=
  (congrArg Host.Outcome.next (issue_of_mayIssue hi _)).trans (by rw [if_neg (by rw [hm]; decide)])

theorem issue_of_not (h : mayIssue s n t = false) (f : State → State) : issue s n t f = s := if_neg (by rw [h]; decide)

/-- An instruction of a thread that may not issue does nothing. -/
theorem exec_of_not {c : Instr} (hi : mayIssue s n t = false) (hc : c ∈ [Instr.threadTrap n t 2 0, .slvctxWrite n t 1, .slvExit n t,
    .slvCmd n t 0 1 0, .slvLaunch n t 1 0, .slvCrcRaw n t 1 0 64, .slvVcvt n t 0 0 0, .slvVfn n t 0 0 0]) : exec c s = .next s := by
  have none {f : State → State} (h : exec c s = .next (issue s n t f)) : exec c s = .next s := h.trans (by rw [issue_of_not hi])
  simp only [List.mem_cons, List.not_mem_nil, or_false] at hc
  obtain rfl | rfl | rfl | rfl | rfl | rfl | rfl | rfl := hc
  · exact none rfl
  · exact none rfl
  · exact none rfl
  · exact none rfl
  · exact none rfl
  · exact none rfl
  · exact none rfl
  · exact none rfl

section Run

variable {s1 : State} {w l : Nat} (hi : mayIssue s n t = true)
include hi

theorem exec_runInstr : exec (.threadMemoryAccess n t l .run) s = .next (runInstr s n t) :=
  (congrArg Host.Outcome.next (issue_of_mayIssue hi _)).trans (by rw [if_pos rfl])

theorem exec_run (h : fetchInstr s n t = .ok (s1, some w, len)) :
    exec (.threadMemoryAccess n t l .run) s = .next (runWord s1 n t len w) := by
  rw [exec_runInstr hi, runInstr, h]

theorem exec_run_reserved (h : fetchInstr s n t = .ok (s1, none, len)) :
    exec (.threadMemoryAccess n t l .run) s = .next (illegal s1 n t) := by
  rw [exec_runInstr hi, runInstr, h]

theorem exec_run_error (h : fetchInstr s n t = .error s1) : exec (.threadMemoryAccess n t l .run) s = .next s1 := by
  rw [exec_runInstr hi, runInstr, h]

end Run

theorem ThreadOnly.and {g : Thr} (h : ThreadOnly s u n t g) : getThr u n t = g ∧ OnlyThread s u n t ∧ u = { s with core := u.core } :=
  ⟨h.thr, h.only, h.frame⟩

/-- Settles O25. -/
theorem threadAccessesAndTraps : Obligations.ThreadAccessesAndTraps := by
  refine ⟨fun s n t len ga z hi hz => ⟨?_, ?_, ?_, ?_, ?_, ?_, ?_⟩, ?_, fun s n t => ⟨fun hi => ⟨?_, ?_, ?_⟩, ?_⟩,
    fun s n t len => ⟨?_, ?_⟩⟩
  · intro x p ha hr h
    refine ⟨_, exec_store hi hz, ?_⟩
    rw [memAccess_store_clean ha hr h]
    refine ⟨?_, fun k hk => ?_, fun a hout => readByte_cleanWritten_out (by simpa using hout)⟩
    · exact ⟨getThr_cleanWritten.trans getThr_instrDone, fun m k hne => getThr_cleanWritten.trans (onlyThread_instrDone m k hne)⟩
    · rw [readByte_cleanWritten_in (by simpa using hk), getElem_leBytes]
  · intro sg rd p ha hr h hh
    refine ⟨_, exec_load hi hz, ?_⟩
    rw [memAccess_load (itemLoad_clean ha hr h hh)]
    exact ⟨sameMemory_of_mem rfl, retired_loaded⟩
  · intro x ha
    exact ⟨_, exec_store hi hz, by rw [memAccess_store_error (itemStore_misaligned ha)]; exact trapped_takeTrap⟩
  · intro sg rd ha
    exact ⟨_, exec_load hi hz, by rw [memAccess_load_error (itemLoad_misaligned ha)]; exact trapped_takeTrap⟩
  · intro x b p ha hr hp hm hb
    exact ⟨_, exec_store hi hz, by rw [memAccess_store_error (itemStore_bad ha hr hp hm hb)]; exact trapped_takeTrap⟩
  · intro sg rd b ha hr hb
    exact ⟨_, exec_load hi hz, by rw [memAccess_load_error (itemLoad_bad ha hr hb)]; exact trapped_takeTrap⟩
  · intro x off ha hr hu
    exact ⟨_, exec_store hi hz, by rw [memAccess_store_error (itemStore_reg_user ha hr hu)]; exact trapped_takeTrap⟩
  · intro s n t len ga z x rd p hi hz ha hcr hcw hh old
    have hok := List.contains_iff_mem.2 hz
    refine ⟨fun op => ?_, ?_, fun hv => ?_, fun hv => ?_⟩
    · refine ⟨_, exec_access hi (by simp) hok, ?_⟩
      simp only [memAccess, itemAmo_clean ha hcr hcw hh]
      refine ⟨retired_loaded.of_getThr fun _ _ => getThr_cleanWritten, ?_, fun a hout => ?_⟩
      · exact stored_written (n := n) hcr.wf rfl
      · exact readByte_cleanWritten_out (by simpa using hout)
    · refine ⟨_, exec_access hi (by simp) hok, ?_⟩
      simp only [memAccess, itemLr_clean ha hcr hh]
      exact ⟨retired_loaded.of_getThr fun _ _ => getThr_of_core rfl, tget_tset_same, sameMemory_of_mem rfl⟩
    · refine ⟨_, exec_access hi (by simp) hok, ?_⟩
      simp only [memAccess, itemSc_stands ha hcw hv]
      refine ⟨retired_loaded.of_getThr fun _ _ => ?_, stored_written (n := n) hcr.wf rfl, tget_tdel_same, fun a hout => ?_⟩
      · exact getThr_dropResv.trans getThr_cleanWritten
      · rw [readByte_loaded, readByte_dropResv]
        exact readByte_cleanWritten_out (by simpa using hout)
    · refine ⟨_, exec_access hi (by simp) hok, ?_⟩
      simp only [memAccess, itemSc_ended ha hcw hv]
      exact ⟨retired_loaded.of_getThr fun _ _ => getThr_of_core rfl, tget_tdel_same, sameMemory_of_mem rfl⟩
  · exact fun cause tval => ⟨_, congrArg Host.Outcome.next (issue_of_mayIssue hi _), trapped_takeTrap⟩
  · exact fun x hm => ⟨_, exec_slvctxWrite hi hm, retired_instrDone_modThr, sameMemory_of_mem rfl⟩
  · exact fun x hm => ⟨_, exec_slvctxWrite_user hi hm, trapped_illegal⟩
  · exact fun hi c hc => exec_of_not hi hc
  · exact fun hi l s1 => ⟨fun w h => exec_run hi h, fun h => ⟨_, exec_run_reserved hi h, trapped_illegal⟩, exec_run_error hi⟩
  · intro w
    refine ⟨?_, ?_, ?_, ?_, ?_, ?_, ?_, ?_, ?_, ?_, ?_, ?_, rfl, rfl, rfl, rfl, rfl, rfl, rfl⟩
    · intro ho hf
      rw [runWord_addi ho hf]
      exact threadOnly_retireThr.and
    · intro ho x hx
      rw [runWord_op ho hx]
      exact threadOnly_retireThr.and
    · intro ho
      rw [runWord_jal ho]
      exact threadOnly_jump.and
    · exact fun ho x hx => (threadOnly_branch ho hx).and
    · intro ho
      rw [runWord_unassigned ho]
      exact trapped_illegal
    · intro ho hf
      rw [runWord_half_quad ho hf]
      exact trapped_illegal
    · intro ho hf hs
      rw [runWord_vector_narrow ho hf hs]
      obtain ⟨x, h⟩ := trapped_illegal (s := { s with fresh := s.fresh + 1 }) (n := n) (t := t)
      exact ⟨x, h.of_core_mem rfl rfl⟩
    · rintro rfl
      rw [runWord_wfi]
      exact threadOnly_instrDone.and
    · rintro rfl
      rw [runWord_ecall]
      exact trapped_takeTrap
    · rintro rfl hm
      rw [runWord_mret, if_neg (by rw [hm]; decide)]
      exact trapped_illegal
    · rintro rfl hm
      rw [runWord_mret, if_pos hm]
      exact ⟨getThr_modThr s n t mret, rfl, mret_mode, mret_mie⟩
    · rintro rfl
      rw [runWord_fence_i]
      exact ⟨by rw [getCore_modCore], getThr_fence_i⟩

end Sys2Proof.Machine
end


section
/-! SUPPORT and proof of O26. What a register access changes, by the requester's rights and the register's access code. -/

namespace Sys2Proof.Machine

variable {s : State} {who : Req} {off size v : Nat} {env : RegEnv}

theorem exec_registerWrite : exec (.registerWrite who off size v env) s =
    .next (if size = 4 then (accessWrite s who off v env).1 else s) := rfl

/-! ### Accesses that change nothing (R11, R12, R503) -/

theorem accessWrite_misaligned (h : off % 4 ≠ 0) : (accessWrite s who off v env).1 = s := by
  simp [accessWrite, h]

theorem accessWrite_ro (h : ∀ x, regWrite s who off x env = .ro) : (accessWrite s who off v env).1 = s := by
  unfold accessWrite
  split
  · rfl
  · split
    · rfl
    · rw [h]

theorem accessWrite_unread (h : mayRead s who off = false) : (accessWrite s who off v env).1 = s := by
  unfold accessWrite
  rw [h]
  split
  · rfl
  · rfl

theorem accessWrite_anonymous : (accessWrite s .anonymous off v env).1 = s := by
  unfold accessWrite
  split
  · rfl
  · rw [show readsOnly s .anonymous = true from rfl, Bool.or_true]
    rfl

theorem regWrite_unassigned (h : regBlock off = .unassigned) (x : Nat) : regWrite s who off x env = .ro := by
  simp only [regWrite, h]
  split
  · rfl
  · rfl

theorem regValue_unassigned (h : regBlock off = .unassigned) : regValue s off = 0 := by
  simp only [regValue, h]
  split
  · rfl
  · rfl

/-- A write that leaves the state when it is made leaves it also when it is not. -/
theorem exec_registerWrite_none (h : size = 4 → (accessWrite s who off v env).1 = s) :
    exec (.registerWrite who off size v env) s = .next s := by
  rw [exec_registerWrite]
  split
  · next h4 => rw [h h4]
  · rfl

/-! ### Writes of a session with a role -/

section Role

variable {id : Nat}

/-- A role reads the registers that it may write: those of MOD, PWR and LCS, and the operator those of RC too. -/
theorem mayRead_of_role (h : hasRole s (.session id) = true) (hb : (regBlock off).makers = true) : mayRead s (.session id) off = true := by
  cases hr : roleOf s (.session id) with
  | none => simp [hasRole, hr] at h
  | some r => cases r <;> simp [mayRead, hr, hb]

theorem mayRead_of_operator (h : isOperator s (.session id) = true) : mayRead s (.session id) off = true := by
  have hr : roleOf s (.session id) = some .operator := by simpa [isOperator] using h
  simp [mayRead, hr]

theorem hasRole_of_operator (h : isOperator s (.session id) = true) : hasRole s (.session id) = true := by
  have hr : roleOf s (.session id) = some .operator := by simpa [isOperator] using h
  simp [hasRole, hr]

theorem hasRole_of_installer (h : isInstaller s (.session id) = true) : hasRole s (.session id) = true := by
  have hr : roleOf s (.session id) = some .installer := by simpa [isInstaller] using h
  simp [hasRole, hr]

theorem isInstaller_of_operator (h : isOperator s who = true) : isInstaller s who = false := by
  have hr : roleOf s who = some .operator := by simpa [isOperator] using h
  simp [isInstaller, hr]

/-- An access within the requester's rights. -/
structure Within4 (s : State) (id off v : Nat) : Prop where
  role : hasRole s (.session id) = true
  read : mayRead s (.session id) off = true
  aligned : off % 4 = 0
  low : off < 0x400000
  word : v < 2 ^ 32

theorem Within4.accessWrite_rw (h : Within4 s id off v) {may : Bool} {u : State} (hw : regWrite s (.session id) off v env = .rw may u) :
    (accessWrite s (.session id) off v env).1 = if may then u else s := by
  obtain ⟨hr, hm, h4, hlt, hv⟩ := h
  have ho : readsOnly s (.session id) = false := by simpa [readsOnly, hasRole] using hr
  unfold accessWrite
  rw [if_neg (by omega), hm, ho, Nat.mod_eq_of_lt hv, hw]
  cases may <;> rfl

theorem Within4.accessWrite_w1c (h : Within4 s id off v) {u t : State} (hw : regWrite s (.session id) off v env = .w1c u)
    (hc : regWrite s (.session id) off (clearMask v env.hwSet) env = .w1c t) : (accessWrite s (.session id) off v env).1 = t := by
  obtain ⟨hr, hm, h4, hlt, hv⟩ := h
  have ho : readsOnly s (.session id) = false := by simpa [readsOnly, hasRole] using hr
  unfold accessWrite
  rw [if_neg (by omega), hm, ho, Nat.mod_eq_of_lt hv, hw]
  simp [hc]

/-- A bit of a W1C write counts where hardware does not set it. -/
theorem bitOf_clearMask {i hw : Nat} (hi : i < 32) :
    bitOf (clearMask v hw) i = true ↔ v / 2 ^ i % 2 = 1 ∧ hw / 2 ^ i % 2 = 0 := by
  have hlt : hw % 2 ^ 32 < 2 ^ 32 := Nat.mod_lt _ (by decide)
  rw [bitOf, clearMask, Nat.testBit_and, Nat.sub_sub, Nat.add_comm 1, Nat.testBit_two_pow_sub_succ hlt]
  simp only [hi, decide_true, Bool.true_and, Bool.and_eq_true, Bool.not_eq_true', Nat.testBit_mod_two_pow]
  simp only [Nat.testBit_eq_decide_div_mod_eq, decide_eq_true_eq, decide_eq_false_iff_not, Nat.mod_two_not_eq_one]

/-! The registers written below, by what a write of each is. -/

theorem regWrite_jrnSel : regWrite s (.session id) 0x020020 v env =
    .rw (hasRole s (.session id)) { s with lcs.jrnSel := putHalf false s.lcs.jrnSel v } := rfl

theorem regWrite_pwrCap : regWrite s (.session id) 0x010100 v env =
    .rw (isInstaller s (.session id)) { s with pwr.cap := bits v 0 12 } := rfl

theorem regWrite_holdSeen : regWrite s (.session id) 0x010104 v env =
    .w1c (onBit v 30 (fun s => { s with pwr.holdSeen := false }) s) := rfl

theorem regWrite_semSel (h : partsUp s = true) : regWrite s (.session id) 0x060020 v env =
    .rw (hasRole s (.session id)) (semSelect s v) := by
  unfold regWrite
  rw [h]
  rfl

theorem regValue_jrnSel : regValue s 0x020020 = half false s.lcs.jrnSel := rfl

theorem regValue_pwrCap : regValue s 0x010100 = s.pwr.cap := rfl

theorem regValue_semSel (h : partsUp s = true) : regValue s 0x060020 = bitAt s.rc.selBar 16 + s.rc.selIndex
    ∧ regValue s 0x060024 = s.rc.semValue := by
  unfold regValue
  rw [h]
  exact ⟨rfl, rfl⟩

theorem makers_blocks : (regBlock 0x020020).makers = true ∧ (regBlock 0x010100).makers = true ∧ (regBlock 0x010104).makers = true := by
  decide

end Role

theorem half_putHalf {x v : Nat} (h : v < 2 ^ 32) : half false (putHalf false x v) = v := by
  simp only [half, putHalf, Bool.false_eq_true, if_false]
  omega

theorem samePart_rc {u : State} (h : u = { s with rc := u.rc }) : ∀ p, p ≠ .rc → samePart p s u := by
  intro p hp
  rw [h]
  cases p with
  | rc => exact absurd rfl hp
  | _ => rfl

/-- Settles O26. -/
theorem registerWrites : Obligations.RegisterWrites := by
  refine ⟨fun s who off size v env => ⟨fun h => ?_, fun h => ⟨regValue_unassigned h, ?_⟩, fun h => ?_, ?_⟩,
    fun s id v env hv => ⟨fun hr => ?_, fun hin => ?_, fun hop => ?_, fun hr => ?_, fun hop hup hv16 => ?_⟩⟩
  · exact exec_registerWrite_none fun h4 => accessWrite_misaligned (h.resolve_left fun hne => hne h4)
  · exact exec_registerWrite_none fun _ => accessWrite_ro (regWrite_unassigned h)
  · exact exec_registerWrite_none fun _ => accessWrite_unread h
  · rintro rfl
    exact exec_registerWrite_none fun _ => accessWrite_anonymous
  · have h : Within4 s id 0x020020 v := ⟨hr, mayRead_of_role hr makers_blocks.1, by decide, by decide, hv⟩
    have hw := h.accessWrite_rw (env := env) regWrite_jrnSel
    rw [if_pos hr] at hw
    exact ⟨_, congrArg Host.Outcome.next hw, rfl, regValue_jrnSel.trans (half_putHalf hv)⟩
  · have hr := hasRole_of_installer hin
    have h : Within4 s id 0x010100 v := ⟨hr, mayRead_of_role hr makers_blocks.2.1, by decide, by decide, hv⟩
    have hw := h.accessWrite_rw (env := env) regWrite_pwrCap
    have hbits : bits v 0 12 = v % 4096 := by simp [bits]
    rw [if_pos hin, hbits] at hw
    exact ⟨_, congrArg Host.Outcome.next hw, rfl, regValue_pwrCap⟩
  · have h : Within4 s id 0x010100 v := ⟨hasRole_of_operator hop, mayRead_of_operator hop, by decide, by decide, hv⟩
    have hw := h.accessWrite_rw (env := env) regWrite_pwrCap
    rw [isInstaller_of_operator hop] at hw
    exact congrArg Host.Outcome.next hw
  · have h : Within4 s id 0x010104 v := ⟨hr, mayRead_of_role hr makers_blocks.2.2, by decide, by decide, hv⟩
    have hw := h.accessWrite_w1c (env := env) regWrite_holdSeen regWrite_holdSeen
    refine ⟨_, congrArg Host.Outcome.next hw, ?_⟩
    simp only [onBit, bitOf_clearMask (show 30 < 32 by decide)]
  · have hr := hasRole_of_operator hop
    have h : Within4 s id 0x060020 v := ⟨hr, mayRead_of_operator hop, by decide, by decide, hv⟩
    have hw := h.accessWrite_rw (env := env) (regWrite_semSel hup)
    rw [if_pos hr] at hw
    have hbar : bitOf v 16 = false := Nat.testBit_lt_two_pow (by simpa using hv16)
    have hi : bits v 0 16 = v := Nat.mod_eq_of_lt (by simpa using hv16)
    obtain ⟨hsel, hval⟩ := regValue_semSel (s := semSelect s v) hup
    refine ⟨_, congrArg Host.Outcome.next hw, hsel.trans ?_, hval.trans ?_, rfl, rfl, samePart_rc rfl⟩
    · simp only [semSelect, hbar, hi]
      simp [bitAt]
    · simp only [semSelect, hbar, hi]
      simp

end Sys2Proof.Machine
end


section
/-! SUPPORT and proof of O27. BELL frames at a Bell instant, the streams that keep a module in its state, the measurement of delays. -/

namespace Sys2Proof.Machine

variable {s u v : State} {p port : Nat} {f : List Byte}

/-! ### Frames at a Bell instant (R253, R257) -/

/-- Frames that a frame handed over does not change are those of the first state. -/
theorem forEach_syncSend_congr {g : State → Nat → List Byte} (hg : ∀ u p b q, g (syncSend u p 1 b) q = g u q) {ps : List Nat} {w : State}
    (h : ∀ p, g w p = g s p) :
    forEach ps (fun u p => syncSend u p 1 (g u p)) w = forEach ps (fun u p => syncSend u p 1 (g s p)) w := by
  induction ps generalizing w with
  | nil => rfl
  | cons p ps ih => rw [forEach_cons, forEach_cons, h, ih fun q => (hg ..).trans (h q)]

theorem bellFrame_syncSend (u : State) (p : Nat) (b : List Byte) (q : Nat) : bellFrame (syncSend u p 1 b) q = bellFrame u q := rfl

/-- The usable ports but the one that the module follows. -/
def bellPorts (s : State) : List Nat := (countFrom 0 8).filter (fun p => portUsable s p && activeUp s != some p)

theorem emitBell_eq : emitBell s = if s.bell.cfg.domainEn then forEach (bellPorts s) (fun u p => syncSend u p 1 (bellFrame s p)) s else s := by
  rw [← forEach_syncSend_congr bellFrame_syncSend fun _ => rfl]
  unfold emitBell bellPorts
  cases s.bell.cfg.domainEn
  · rfl
  · rfl

theorem emitBell_frame : emitBell s = { s with rc.txq := (emitBell s).rc.txq } := by
  rw [emitBell_eq]
  split
  · exact forEach_syncSend_frame
  · rfl

/-- The ports on which a module of a domain emits its BELL frame. -/
def emits (s : State) (p : Nat) : Prop := s.bell.cfg.domainEn = true ∧ p < 8 ∧ portUsable s p = true ∧ activeUp s ≠ some p

theorem emits_emitBell : emits (emitBell s) p ↔ emits s p := by
  rw [emitBell_frame]
  exact Iff.rfl

theorem bellFrame_emitBell : bellFrame (emitBell s) p = bellFrame s p := by
  rw [emitBell_frame]
  rfl

theorem emitBell_txq (h : emits s p) : ∃ x ∈ (emitBell s).rc.txq, x.port = p ∧ x.bytes = bellFrame s p := by
  obtain ⟨hd, hp, hu, ha⟩ := h
  refine ⟨{ prio := syncPrio 1, port := p, bytes := bellFrame s p }, ?_, rfl, rfl⟩
  rw [emitBell_eq, if_pos hd, forEach_syncSend_txq]
  exact .inr ⟨p, by simp [bellPorts, mem_countFrom, hp, hu, ha], rfl⟩

/-- A Bell instant ends with the module's frames. -/
theorem atBellInstant_emits (h : emits (atBellInstant s) p) :
    ∃ x ∈ (atBellInstant s).rc.txq, x.port = p ∧ x.bytes = bellFrame (atBellInstant s) p := by
  have hu : ∃ w, atBellInstant s = emitBell w := ⟨_, rfl⟩
  obtain ⟨w, hw⟩ := hu
  rw [hw] at h ⊢
  rw [bellFrame_emitBell]
  exact emitBell_txq (emits_emitBell.1 h)

/-! ### The counter and the state at a Bell instant (R249, R260) -/

/-- The module hears a stream that it may follow, or is the source of its own Bell. -/
def hears (s : State) : Prop :=
  ownBell s = true ∨ gone (slewDelay s.bell.prim) = false ∨ (s.bell.cfg.altEn = true ∧ gone (slewDelay s.bell.alt) = false)

/-- The state at a Bell instant once the delays and the offset have moved by a step. -/
def slewed (s : State) : State :=
  { s with bell := { s.bell with prim := slewDelay s.bell.prim, alt := slewDelay s.bell.alt, slew := slewStep s.bell.slew } }

/-- A module that follows another's Bell and counts with it. -/
structure Follows (s : State) : Prop where
  domain : s.bell.cfg.domainEn = true
  running : s.bell.state = .running
  other : ownBell s = false

theorem streamLoss_of_not (h : ¬Follows s) : streamLoss s = s := by
  refine if_pos ?_
  by_contra hn
  simp only [Bool.or_eq_true, not_or, Bool.not_eq_true, bne_iff_ne, not_not] at hn
  obtain ⟨⟨hd, hr⟩, ho⟩ := hn
  exact h ⟨by simpa using hd, hr, ho⟩

/-- A deputy takes the stream over (R260). -/
def takenOver (s : State) : State := { s with bell := { s.bell with actingMaster := true, source := 3, takeoverAt := some s.bell.count } }

/-- A member with no stream holds over (R261). -/
def heldOverBell (s : State) : State :=
  { s with bell := { s.bell with state := .holdover, holdoverSeen := true, holdoverBells := 0, source := 0 } }

/-- What the loss of streams leads to in a module that follows (R260, R261). -/
theorem streamLoss_of_follows (h : Follows s) : streamLoss s =
    if s.bell.cfg.role = 2 then (if gone s.bell.prim then raise (takenOver s) .bellMasterLost { kind := .module } else s)
    else if s.bell.source = 1 ∧ gone s.bell.prim = true ∧ s.bell.cfg.altEn = true ∧ gone s.bell.alt = false then switchTo s true
    else if s.bell.source = 2 ∧ (s.bell.cfg.altEn = false ∨ gone s.bell.alt = true) ∧ gone s.bell.prim = false then switchTo s false
    else if gone s.bell.prim = true ∧ (s.bell.cfg.altEn = false ∨ gone s.bell.alt = true) then heldOverBell s
    else s := by
  obtain ⟨hd, hr, ho⟩ := h
  unfold streamLoss
  rw [if_neg (by simp [hd, hr, ho])]
  cases gone s.bell.prim <;> cases gone s.bell.alt <;> cases s.bell.cfg.altEn <;> simp [takenOver, heldOverBell]

theorem streamLoss_state_of_hears (h : hears s) : (streamLoss (slewed s)).bell.state = s.bell.state := by
  by_cases hf : Follows (slewed s)
  · rw [streamLoss_of_follows hf]
    have hs : gone (slewed s).bell.prim = false ∨ ((slewed s).bell.cfg.altEn = true ∧ gone (slewed s).bell.alt = false) :=
      h.resolve_left fun ho => Bool.false_ne_true (hf.other.symm.trans ho)
    split
    · split
      · rw [raise_bell]; rfl
      · rfl
    split
    · rfl
    split
    · rfl
    split
    · next hn =>
      obtain ⟨hp, ha⟩ := hn
      rcases hs with hs | ⟨he, hg⟩
      · rw [hp] at hs; cases hs
      · rw [he, hg] at ha; simp at ha
    · rfl
  · rw [streamLoss_of_not hf]
    rfl

/-- A Bell that the module counts (R249). -/
def counted (s : State) : State :=
  { s with bell := { s.bell with
    count := wrap 64 (s.bell.count + 1), sub := 0,
    holdoverBells := if s.bell.state == .holdover then s.bell.holdoverBells + 1 else 0 } }

theorem exec_bell_counting (h : counting s = true) : exec .bell s = .next (atBellInstant (counted s)) :=
  congrArg Host.Outcome.next (if_pos h)

theorem atBellInstant_bell' : (atBellInstant s).bell = (streamLoss (slewed s)).bell := atBellInstant_bell

theorem atBellInstant_bell_local (hd : s.bell.cfg.domainEn = false) : (atBellInstant s).bell = (slewed s).bell := by
  rw [atBellInstant_bell', streamLoss_of_not]
  exact fun hf => absurd (hf.domain.symm.trans hd) (by decide)

theorem atBellInstant_counters : (atBellInstant s).bell.count = s.bell.count ∧ (atBellInstant s).bell.sub = s.bell.sub := by
  rw [atBellInstant_bell']
  exact streamLoss_counters

theorem atBellInstant_state (h : hears s) : (atBellInstant s).bell.state = s.bell.state := by
  rw [atBellInstant_bell', streamLoss_state_of_hears h]

theorem streamLoss_cfg_markLeft : (streamLoss s).bell.cfg = s.bell.cfg ∧ (streamLoss s).bell.markLeft = s.bell.markLeft := by
  unfold streamLoss
  dsimp only
  split_ifs <;> simp only [raise_bell, switchTo, and_self]

theorem atBellInstant_cfg_markLeft : (atBellInstant s).bell.cfg = s.bell.cfg ∧ (atBellInstant s).bell.markLeft = s.bell.markLeft := by
  rw [atBellInstant_bell']
  exact streamLoss_cfg_markLeft (s := slewed s)

/-! ### The start of a domain and of a local Bell (R257, R259) -/

/-- The domain starts at Bell 0. -/
def domainStarted (s : State) : State :=
  startCounter { s with bell := { s.bell with
    markLeft := none, markRx := none, source := if ownBell s then 3 else s.bell.source } } 0

section Waiting

variable (hw : s.bell.state = .waitStart)
include hw

theorem not_counting_waitStart : counting s = false := by simp [counting, hw]

theorem exec_bell_start (hm : s.bell.markLeft = some 0) : exec .bell s = .next (atBellInstant (domainStarted s)) := by
  refine congrArg Host.Outcome.next ?_
  rw [bellInstant, if_neg (by rw [not_counting_waitStart hw]; decide), if_pos (by rw [hw]; rfl), hm]
  rfl

theorem exec_bell_mark {k : Nat} (hm : s.bell.markLeft = some (k + 1)) (hr : s.bell.markRx = none) :
    exec .bell s = .next (emitBell { s with bell := { s.bell with markLeft := some k } }) := by
  refine congrArg Host.Outcome.next ?_
  rw [bellInstant, if_neg (by rw [not_counting_waitStart hw]; decide), if_pos (by rw [hw]; rfl), hm, hr]

end Waiting

theorem exec_localBellStart (hd : s.bell.cfg.domainEn = false) (hl : s.bell.state = .locking) (hr : s.mod.ready = true)
    (hp : s.bell.pllLocked = true) (href : refOk s = true) :
    exec .localBellStart s = .next (atBellInstant (startCounter { s with bell.source := 3 } 0)) :=
  congrArg Host.Outcome.next (if_pos (by simp [hd, hl, hr, hp, href]))

theorem exec_localBellStart_noRef (href : refOk s = false) : exec .localBellStart s = .next s :=
  congrArg Host.Outcome.next (if_neg (by simp [href]))

theorem exec_domainStartMark (hd : s.bell.cfg.domainEn = true) (hr : s.bell.cfg.role = 1) (hw : s.bell.state = .waitStart)
    (hm : s.mod.ready = true) (hme : membersReady s = true) (hl : s.bell.markLeft = none) :
    exec .domainStartMark s = .next { s with bell.markLeft := some 16 } :=
  congrArg Host.Outcome.next (if_pos (by simp [hd, hr, hw, hm, hme, hl]))

theorem lockCheck_locked (hd : s.bell.cfg.domainEn = true) (hl : s.bell.state = .locking) (hp : s.bell.pllLocked = true)
    (hk : delaysKnown s = true) : lockCheck s = { s with bell.state := .waitStart } :=
  if_pos (by simp [hd, hl, hp, hk])

theorem exec_pllLock (href : refOk s = true ∨ ownBell s = false) (hd : s.bell.cfg.domainEn = true) (hl : s.bell.state = .locking)
    (hk : delaysKnown s = true) : exec .pllLock s = .next { s with bell.pllLocked := true, bell.state := .waitStart } :=
  congrArg Host.Outcome.next ((if_pos (by simpa using href)).trans
    (lockCheck_locked (s := { s with bell.pllLocked := true }) hd hl rfl hk))

/-! ### Delays (R254, R290) -/

theorem syncSend_sent {type : Nat} {b : List Byte} : ∃ x ∈ (syncSend s port type b).rc.txq, x.port = port ∧ x.bytes = b :=
  ⟨_, mem_insertBy.2 (.inl rfl), rfl, rfl⟩

theorem exec_delayMeasurement {t1 : Nat} (hd : s.bell.cfg.domainEn = true) (hr : s.bell.cfg.role ≠ 1) :
    exec (.delayMeasurement false t1) s = .next (syncSend
      (modUp { s with bell.probeSeq := wrap 16 (s.bell.probeSeq + 1) } false (fun u => { u with probe := some (s.bell.probeSeq, t1 % 2 ^ 48) }))
      s.bell.cfg.upPort 7 (syncFrame 7 (ownLmn s) 0x3FF 0 (bodyBits t1 223 176 + bodyBits s.bell.probeSeq 175 160))) :=
  congrArg Host.Outcome.next (if_neg (by simp [hd, hr]))

theorem exec_probeReceive {t2 t3 : Nat} (ht : frType f = 7) (hc : fcrcOk f = true) (h0 : frameBits f 227 224 = 0)
    (hr : frameBits f 159 32 = 0) : exec (.probeReceive port f t2 t3) s = .next (syncSend s port 8
      (syncFrame 8 (ownLmn s) 0x3FF 0 (bodyBits (frameBits f 223 176) 223 176
      + bodyBits (frameBits f 175 160) 175 160 + bodyBits t2 159 112 + bodyBits t3 111 64))) :=
  congrArg Host.Outcome.next (takeFrame_sound ht (by norm_num) (by norm_num) hc h0 (by simp [hr]))

/-- The answer to the probe that is out, on the primary upstream. -/
theorem exec_echoReceive {t4 : Nat} (ht : frType f = 8) (hc : fcrcOk f = true) (h0 : frameBits f 227 224 = 0)
    (hr : frameBits f 63 32 = 0) (hs : streamOf s port = some false)
    (hp : s.bell.prim.probe = some (frameBits f 175 160, frameBits f 223 176)) : exec (.echoReceive port f t4) s =
      .next (takeDelay (modUp s false (fun u => { u with probe := none })) false
        (delayOf (frameBits f 223 176) (frameBits f 159 112) (frameBits f 111 64) t4)) := by
  refine congrArg Host.Outcome.next ((takeFrame_sound ht (by norm_num) (by norm_num) hc h0 (by simp [hr])).trans ?_)
  simp only [hs]
  exact if_pos hp

theorem takeDelay_near {d : Nat} (hm : s.bell.prim.measured = true) (h : max d s.bell.prim.last - min d s.bell.prim.last ≤ 256) :
    takeDelay s false d = modUp s false (fun u => { u with
      last := d, discards := 0, untrusted := false, target := if 1 < max d u.delay - min d u.delay then d else u.target }) := by
  simp [takeDelay, hm, not_lt.2 h]

theorem takeDelay_near_fields {d : Nat} (hm : s.bell.prim.measured = true) (h : max d s.bell.prim.last - min d s.bell.prim.last ≤ 256) :
    (takeDelay s false d).bell.prim.last = d ∧ (takeDelay s false d).bell.prim.probe = s.bell.prim.probe
    ∧ (takeDelay s false d).bell.prim.delay = s.bell.prim.delay ∧ (takeDelay s false d).bell.missed = s.bell.missed
    ∧ (takeDelay s false d).bell.prim.discards = 0 ∧ (takeDelay s false d).bell.prim.untrusted = false := by
  rw [takeDelay_near hm h]
  exact ⟨rfl, rfl, rfl, rfl, rfl, rfl⟩

theorem takeDelay_far {d : Nat} (hm : s.bell.prim.measured = true) (h : 256 < max d s.bell.prim.last - min d s.bell.prim.last) :
    takeDelay s false d = modUp { s with bell.missed := satInc 32 s.bell.missed } false (fun u => { u with
      discards := u.discards + 1, untrusted := u.untrusted || decide (2 < u.discards + 1) }) := by
  simp [takeDelay, hm, h]

/-- After three discards in a row the port is barred (R254). -/
theorem barred_discarded {u : Upstream} {n : Nat} (h : 2 < n) :
    { u with discards := n, untrusted := u.untrusted || decide (2 < n) }.barred = true := by
  simp [Upstream.barred, h]

/-- Settles O27. -/
theorem bellInstantsAndDelays : Obligations.BellInstantsAndDelays := by
  refine ⟨fun s => ⟨fun hc => ?_, fun hw hr k hm => ?_, fun hw hm => ?_, fun hd hl hr hp href => ?_, exec_localBellStart_noRef⟩,
    fun s => ⟨fun hd hr hw hm hme hl => ?_, fun href hd hl hk => ?_, fun t1 hd hr ht => ?_, fun port f t2 t3 ht hc h0 hr => ?_,
      fun port f t4 ht hc h0 hr hs hp hm => ⟨fun h => ?_, fun h => ?_⟩, ?_, ?_⟩⟩
  · refine ⟨_, exec_bell_counting hc, atBellInstant_counters.1, atBellInstant_counters.2, fun h => ?_, fun hd p hp hu ha => ?_⟩
    · exact atBellInstant_state (s := counted s) h
    · refine atBellInstant_emits ⟨?_, hp, hu, ha⟩
      rw [atBellInstant_cfg_markLeft.1]
      exact hd
  · exact ⟨_, exec_bell_mark hw hm hr, by rw [emitBell_frame], by rw [emitBell_frame]; exact hw, by rw [emitBell_frame]⟩
  · refine ⟨_, exec_bell_start hw hm, fun h => ?_, atBellInstant_counters.1, atBellInstant_counters.2, atBellInstant_cfg_markLeft.2⟩
    exact atBellInstant_state (s := domainStarted s) h
  · refine ⟨_, exec_localBellStart hd hl hr hp href, ?_, atBellInstant_counters.1, atBellInstant_counters.2, ?_⟩
    · exact atBellInstant_state (.inl (by simp [ownBell, startCounter, hd]))
    · rw [atBellInstant_bell_local]
      · rfl
      · exact hd
  · exact ⟨_, exec_domainStartMark hd hr hw hm hme hl, rfl⟩
  · exact ⟨_, exec_pllLock href hd hl hk, rfl⟩
  · exact ⟨_, exec_delayMeasurement hd hr, congrArg (fun t => some (s.bell.probeSeq, t)) (Nat.mod_eq_of_lt ht), rfl, syncSend_sent⟩
  · exact ⟨_, exec_probeReceive ht hc h0 hr, samePart_rc rfl, syncSend_sent⟩
  · obtain ⟨hl, hp', hu, hm', hd, ht'⟩ := takeDelay_near_fields (s := modUp s false fun u => { u with probe := none }) hm h
    exact ⟨_, exec_echoReceive ht hc h0 hr hs hp, hl, hp', hu, hm', hd, ht'⟩
  · refine ⟨_, (exec_echoReceive ht hc h0 hr hs hp).trans (congrArg Host.Outcome.next (takeDelay_far hm h)), ?_⟩
    exact ⟨rfl, rfl, rfl, rfl, fun h2 => barred_discarded (Nat.lt_succ_of_le h2)⟩
  · exact ⟨_, rfl, rfl⟩
  · exact ⟨_, rfl, rfl⟩

end Sys2Proof.Machine
end


section
/-! SUPPORT. What a grant, an increment and a change of STATE leave of partitions and contexts. -/

namespace Sys2Proof.Machine

variable {s u v : State}

/-- The parts of a Timetable that a completed slot changes (R267, R277); one that releases slots stays in its state. -/
structure SlotOnly (t v : Tt) : Prop where
  same : v = { t with state := v.state, late := v.late, open_ := v.open_, overrunSlot := v.overrunSlot }
  state : t.noRelease = false ∨ t.state ≠ .running → v.state = t.state
  quiet : t.open_ = [] → t.overrunSlot = none → v = t
  kept : ∀ o ∈ t.open_, ∃ o' ∈ v.open_, o'.idx = o.idx ∧ o'.startB = o.startB ∧ o'.endB = o.endB

theorem SlotOnly.refl (t : Tt) : SlotOnly t t := ⟨rfl, fun _ => rfl, fun _ _ => rfl, fun o ho => ⟨o, ho, rfl, rfl, rfl⟩⟩

/-- A Timetable that has a slot open or overrun, with other counters, its slots as they were. -/
theorem SlotOnly.of_open {t v : Tt} (same : v = { t with state := v.state, late := v.late, overrunSlot := v.overrunSlot })
    (state : t.noRelease = false ∨ t.state ≠ .running → v.state = t.state) (some : t.open_ ≠ [] ∨ t.overrunSlot ≠ none) : SlotOnly t v :=
  ⟨by rw [same], state, fun ho hn => absurd some (by simp [ho, hn]), fun o ho => ⟨o, by rw [same]; exact ho, rfl, rfl, rfl⟩⟩

theorem SlotOnly.noRelease {t v : Tt} (h : SlotOnly t v) : v.noRelease = t.noRelease := by rw [h.same]

theorem SlotOnly.trans {t v w : Tt} (h : SlotOnly t v) (h' : SlotOnly v w) : SlotOnly t w :=
  ⟨by rw [h'.same, h.same], fun hn => (h'.state (hn.imp h.noRelease.trans fun hr => by rwa [h.state (.inr hr)])).trans (h.state hn),
    fun ho hn => by
      have e := h.quiet ho hn
      exact (h'.quiet (by rw [e]; exact ho) (by rw [e]; exact hn)).trans e, fun o ho => by
      obtain ⟨o', ho', hi, hs, he⟩ := h.kept o ho
      obtain ⟨o'', ho'', hi', hs', he'⟩ := h'.kept o' ho'
      exact ⟨o'', ho'', hi'.trans hi, hs'.trans hs, he'.trans he⟩⟩

/-- Of partitions only the slots of their Timetables have changed. -/
structure PtnRoll (s u : State) : Prop where
  ptn : ∀ p, getPtn u p = { getPtn s p with tt := (getPtn u p).tt }
  tt : ∀ p, SlotOnly (getPtn s p).tt (getPtn u p).tt

theorem PtnRoll.refl (s : State) : PtnRoll s s := ⟨fun _ => rfl, fun _ => .refl _⟩

theorem PtnRoll.trans (h : PtnRoll s u) (h' : PtnRoll u v) : PtnRoll s v :=
  ⟨fun p => by rw [h'.ptn, h.ptn], fun p => (h.tt p).trans (h'.tt p)⟩

theorem PtnRoll.of_ptn (h : u.ptn = s.ptn) : PtnRoll s u := by
  have hP : ∀ p, getPtn u p = getPtn s p := fun p => congrArg (tget default · p) h
  exact ⟨fun p => by rw [hP], fun p => by rw [hP]; exact .refl _⟩

theorem PtnRoll.of_tt {p : Nat} {f : Tt → Tt} (hf : SlotOnly (getPtn s p).tt (f (getPtn s p).tt)) : PtnRoll s (modTt s p f) := by
  refine ⟨fun q => ?_, fun q => ?_⟩ <;> by_cases hq : q = p
  · subst hq
    rw [modTt, getPtn_modPtn]
  · rw [modTt, getPtn_modPtn_other (h := hq)]
  · subst hq
    rw [getPtn_modTt]
    exact hf
  · rw [modTt, getPtn_modPtn_other (h := hq)]
    exact .refl _

theorem ptnRoll_forEach {α : Type} {f : State → α → State} (h : ∀ u x, PtnRoll u (f u x)) {xs : List α} : PtnRoll s (forEach xs f s) := by
  induction xs generalizing s with
  | nil => exact .refl s
  | cons x xs ih => exact (h s x).trans ih

/-- Roll call's work: of a partition only its Timetable's slots, of a context only its hold entries and the counts of what is parked. -/
structure RollOnly (s u : State) : Prop where
  roll : PtnRoll s u
  ctx : ∀ c, getCtx u c = { getCtx s c with
    holds := (getCtx u c).holds, parkWaits := (getCtx u c).parkWaits, parkGrants := (getCtx u c).parkGrants }

theorem RollOnly.refl (s : State) : RollOnly s s := ⟨.refl s, fun _ => rfl⟩

theorem RollOnly.trans (h : RollOnly s u) (h' : RollOnly u v) : RollOnly s v := ⟨h.roll.trans h'.roll, fun c => by rw [h'.ctx, h.ctx]⟩

theorem RollOnly.of_ctx_eq (h : PtnRoll s u) (hc : u.ctx = s.ctx) : RollOnly s u := ⟨h, fun c => by rw [getCtx_of_ctx hc]⟩

theorem RollOnly.of_parts (hp : u.ptn = s.ptn) (hc : u.ctx = s.ctx) : RollOnly s u := .of_ctx_eq (.of_ptn hp) hc

theorem RollOnly.of_ctx {c : Nat} {f : Ctx → Ctx}
    (hf : ∀ x, f x = { x with holds := (f x).holds, parkWaits := (f x).parkWaits, parkGrants := (f x).parkGrants })
    (hp : u.ptn = s.ptn) (hc : u.ctx = (modCtx s c f).ctx) : RollOnly s u := by
  refine ⟨.of_ptn hp, fun d => ?_⟩
  rw [getCtx_of_ctx hc]
  by_cases hd : d = c
  · subst hd
    rw [getCtx_modCtx]
    exact hf _
  · rw [getCtx_modCtx_other (h := hd)]

theorem rollOnly_forEach {α : Type} {f : State → α → State} (h : ∀ u x, RollOnly u (f u x)) {xs : List α} : RollOnly s (forEach xs f s) := by
  induction xs generalizing s with
  | nil => exact .refl s
  | cons x xs ih => exact (h s x).trans ih

/-! ### Answers and waits (R298, R300) -/

@[simp] theorem raise_ptn (c : FaultCode) (a : FaultAt) : (raise s c a).ptn = s.ptn := by rw [(raise_spec s c a).2.2]
@[simp] theorem raise_ctx (c : FaultCode) (a : FaultAt) : (raise s c a).ctx = s.ctx := by rw [(raise_spec s c a).2.2]
@[simp] theorem raise_pwr (c : FaultCode) (a : FaultAt) : (raise s c a).pwr = s.pwr := by rw [(raise_spec s c a).2.2]

theorem rollOnly_raise {c : FaultCode} {a : FaultAt} : RollOnly s (raise s c a) := .of_parts (raise_ptn ..) (raise_ctx ..)

theorem answer_ptn_ctx {t : Token} {st fl va : Nat} : (answer s t st fl va).ptn = s.ptn ∧ (answer s t st fl va).ctx = s.ctx := by
  unfold answer
  split
  · exact ⟨rfl, rfl⟩
  · exact ⟨rfl, rfl⟩
  · unfold syncRoute
    split
    · exact ⟨rfl, rfl⟩
    · exact ⟨raise_ptn .., raise_ctx ..⟩

theorem rollOnly_answer {t : Token} {st fl va : Nat} : RollOnly s (answer s t st fl va) := .of_parts answer_ptn_ctx.1 answer_ptn_ctx.2

theorem rollOnly_unreserve {t : Token} : RollOnly s (unreserve s t) := by
  unfold unreserve
  split
  · exact .of_ctx (fun _ => rfl) rfl rfl
  · exact .refl s

theorem rollOnly_endWait {w : WaitEnt} {st : Nat} : RollOnly s (endWait s w st) := by
  have h0 : RollOnly s { s with rc.waits := eraseFirst (· == w) s.rc.waits } := .of_parts rfl rfl
  have h1 := h0.trans (rollOnly_unreserve (t := w.tok))
  unfold endWait
  dsimp only
  split
  · exact h1.trans rollOnly_answer
  · exact h1.trans rollOnly_answer

/-- The units of a granted ACQUIRE go to its hold entry (R300, R302). -/
def grantTaken (s : State) (w : WaitEnt) : State :=
  if w.tok.op == .acquire then
    let v := modSem s w.tok.sem (fun x => { x with value := x.value - w.tok.operand })
    if holdScope v w.tok.sem then
      holdFor v w.tok.ctx w.tok.sem (fun h => { h with units := h.units + w.tok.operand, reserved := h.reserved - 1 })
    else v
  else s

/-- The grant is recorded while its context is away, or answered (R300, R409). -/
def grantTold (s : State) (w : WaitEnt) : State :=
  if w.parked then
    modCtx { s with rc.waits := modifyFirst (· == w) (fun w => { w with granted := some (now s) }) s.rc.waits }
      w.tok.ctx (fun c => { c with parkGrants := satInc 16 c.parkGrants })
  else
    let s := { s with rc.waits := eraseFirst (· == w) s.rc.waits }
    if w.tok.op.onBar then answerBar s w.tok (grantStatus s w.deadline) else answerSem s w.tok (grantStatus s w.deadline)

theorem grant_eq {w : WaitEnt} : grant s w =
    if !w.parked && judgeNow s w.deadline == .timeout then endWait s w 2 else grantTold (grantTaken s w) w := rfl

theorem rollOnly_grantTaken {w : WaitEnt} : RollOnly s (grantTaken s w) := by
  unfold grantTaken
  split
  · dsimp only
    split
    · exact .of_ctx (fun _ => rfl) rfl rfl
    · exact .of_parts rfl rfl
  · exact .refl s

theorem rollOnly_grantTold {w : WaitEnt} : RollOnly s (grantTold s w) := by
  unfold grantTold
  split
  · exact .of_ctx (fun _ => rfl) rfl rfl
  · dsimp only
    split
    · exact RollOnly.trans (u := { s with rc.waits := eraseFirst (· == w) s.rc.waits }) (.of_parts rfl rfl) rollOnly_answer
    · exact RollOnly.trans (u := { s with rc.waits := eraseFirst (· == w) s.rc.waits }) (.of_parts rfl rfl) rollOnly_answer

theorem rollOnly_grant {w : WaitEnt} : RollOnly s (grant s w) := by
  rw [grant_eq]
  split
  · exact rollOnly_endWait
  · exact rollOnly_grantTaken.trans rollOnly_grantTold

theorem rollOnly_grantGo {n i : Nat} : RollOnly s (grantGo n s i) := by
  induction n generalizing s with
  | zero => exact .refl s
  | succ n ih =>
    unfold grantGo
    split
    · exact rollOnly_grant.trans ih
    · exact .refl s

theorem rollOnly_grantSem {i : Nat} : RollOnly s (grantSem s i) := rollOnly_grantGo

/-! ### Completed slots and increments (R267, R297, R422) -/

theorem ptnRoll_judgeSlot {p : Nat} {y : Timetable} {o : OpenSlot} (h : (getPtn s p).tt.open_ ≠ []) : PtnRoll s (judgeSlot s p y o).1 := by
  unfold judgeSlot
  dsimp only
  split
  · exact .refl s
  split
  · exact .refl s
  split
  · exact .refl s
  · exact .of_tt (f := fun t => { t with late := satInc 32 t.late }) (.of_open rfl (fun _ => rfl) (.inl h))
  · exact .refl s

theorem judgeSlot_snd {p : Nat} {y : Timetable} {o : OpenSlot} :
    (judgeSlot s p y o).2.idx = o.idx ∧ (judgeSlot s p y o).2.startB = o.startB ∧ (judgeSlot s p y o).2.endB = o.endB := by
  unfold judgeSlot
  dsimp only
  split
  · exact ⟨rfl, rfl, rfl⟩
  split
  · exact ⟨rfl, rfl, rfl⟩
  split <;> exact ⟨rfl, rfl, rfl⟩

theorem open_judgeSlot {p : Nat} {y : Timetable} {o : OpenSlot} :
    (getPtn (judgeSlot s p y o).1 p).tt.open_ = (getPtn s p).tt.open_ := by
  unfold judgeSlot
  dsimp only
  split
  · rfl
  split
  · rfl
  split
  · rfl
  · rw [getPtn_modTt]
  · rfl

/-- The open slots of a partition judged one after the other (R267). -/
def judgeAll (p : Nat) (y : Timetable) (os : List OpenSlot) (acc : State × List OpenSlot) : State × List OpenSlot :=
  os.foldl (fun acc o => ((judgeSlot acc.1 p y o).1, acc.2 ++ [(judgeSlot acc.1 p y o).2])) acc

theorem judgeAll_cons {p : Nat} {y : Timetable} {o : OpenSlot} {os : List OpenSlot} {acc : State × List OpenSlot} :
    judgeAll p y (o :: os) acc = judgeAll p y os ((judgeSlot acc.1 p y o).1, acc.2 ++ [(judgeSlot acc.1 p y o).2]) := rfl

theorem ptnRoll_judgeAll {p : Nat} {y : Timetable} {os : List OpenSlot} {acc : State × List OpenSlot} (h : (getPtn acc.1 p).tt.open_ ≠ []) :
    PtnRoll acc.1 (judgeAll p y os acc).1 ∧ (getPtn (judgeAll p y os acc).1 p).tt.open_ = (getPtn acc.1 p).tt.open_ := by
  induction os generalizing acc with
  | nil => exact ⟨.refl _, rfl⟩
  | cons o os ih =>
    rw [judgeAll_cons]
    have h' := ih (acc := ((judgeSlot acc.1 p y o).1, acc.2 ++ [(judgeSlot acc.1 p y o).2])) (by rw [open_judgeSlot]; exact h)
    exact ⟨PtnRoll.trans (ptnRoll_judgeSlot h) h'.1, h'.2.trans open_judgeSlot⟩

/-- The judged slots: what has been judged stands, and every slot keeps its index and its Bells. -/
theorem judgeAll_snd {p : Nat} {y : Timetable} {os : List OpenSlot} {acc : State × List OpenSlot} :
    (∀ o ∈ acc.2, o ∈ (judgeAll p y os acc).2) ∧ ∀ o ∈ os, ∃ o' ∈ (judgeAll p y os acc).2,
      o'.idx = o.idx ∧ o'.startB = o.startB ∧ o'.endB = o.endB := by
  induction os generalizing acc with
  | nil => exact ⟨fun o ho => ho, fun o ho => nomatch ho⟩
  | cons x os ih =>
    rw [judgeAll_cons]
    refine ⟨fun o ho => ih.1 o (List.mem_append_left _ ho), fun o ho => ?_⟩
    rcases List.mem_cons.1 ho with rfl | ho
    · exact ⟨_, ih.1 _ (List.mem_append_right _ (List.mem_singleton_self _)), judgeSlot_snd⟩
    · exact ih.2 o ho

theorem judgeSlots_some {p : Nat} {y : Timetable} (h : ttOf s p = some y) : judgeSlots s p =
    modTt (judgeAll p y (getPtn s p).tt.open_ (s, [])).1 p (fun t => { t with open_ := (judgeAll p y (getPtn s p).tt.open_ (s, [])).2 }) := by
  unfold judgeSlots
  rw [h]
  rfl

theorem ptnRoll_judgeSlots {p : Nat} : PtnRoll s (judgeSlots s p) := by
  cases h : ttOf s p with
  | none =>
    rw [judgeSlots, h]
    exact .refl s
  | some y =>
    rw [judgeSlots_some h]
    by_cases ho : (getPtn s p).tt.open_ = []
    · rw [ho]
      refine .of_tt (f := fun t => { t with open_ := [] }) ?_
      rw [← ho]
      exact .refl _
    · have hall := ptnRoll_judgeAll (p := p) (y := y) (os := (getPtn s p).tt.open_) (acc := (s, [])) ho
      refine hall.1.trans (.of_tt ?_)
      refine ⟨rfl, fun _ => rfl, fun hn => absurd (hall.2.symm.trans hn) ho, fun o ho => ?_⟩
      rw [hall.2] at ho
      exact judgeAll_snd.2 o ho

/-- A Timetable becomes HELD at a completed slot only where it releases none (R277). -/
theorem ptnRoll_heldIfDone {p : Nat} : PtnRoll s (heldIfDone s p) := by
  unfold heldIfDone
  dsimp only
  split
  · split
    · next i y hi hy h =>
      refine .of_tt (.of_open rfl (fun hn => ?_) (.inr (by rw [hi]; exact Option.some_ne_none _)))
      rcases hn with hn | hn
      · exact absurd (hn.symm.trans h.2.1) Bool.false_ne_true
      · exact absurd h.1 hn
    · exact .refl s
  · exact .refl s

theorem ptnRoll_slotDone {i : Nat} : PtnRoll s (slotDone s i) := by
  unfold slotDone
  dsimp only
  split
  · exact .refl s
  · exact ptnRoll_judgeSlots.trans ptnRoll_heldIfDone

theorem rollOnly_addSem {i k : Nat} : RollOnly s (addSem s i k) :=
  .of_ctx_eq (PtnRoll.trans (u := modSem s i _) (.of_ptn rfl) ptnRoll_slotDone) addSem_ctx

theorem rollOnly_threadAdd {p i : Nat} : RollOnly s (threadAdd s p i) := by
  unfold threadAdd
  dsimp only
  split
  · exact .refl s
  split
  · exact rollOnly_addSem.trans rollOnly_grantSem
  · exact rollOnly_raise

theorem rollOnly_eventSem {p : Nat} : RollOnly s (eventSem s p) := by
  unfold eventSem
  dsimp only
  split
  · exact .refl s
  · exact rollOnly_threadAdd

/-! ### Changes of STATE -/

/-- A partition with its STATE changed; its Timetable may have been told (R422). -/
theorem getPtn_setPtnState {p : Nat} {st : PtnState} :
    getPtn (setPtnState s p st) p = { getPtn s p with state := st, tt := (getPtn (setPtnState s p st) p).tt } := by
  unfold setPtnState
  split
  · next h => rw [← h]
  · rw [rollOnly_eventSem.roll.ptn, getPtn_modPtn]

theorem getPtn_setPtnState_other {p q : Nat} {st : PtnState} (h : q ≠ p) :
    getPtn (setPtnState s p st) q = { getPtn s q with tt := (getPtn (setPtnState s p st) q).tt } := by
  unfold setPtnState
  split
  · rfl
  · rw [rollOnly_eventSem.roll.ptn, getPtn_modPtn_other (h := h)]

theorem tt_setPtnState {p q : Nat} {st : PtnState} : SlotOnly (getPtn s q).tt (getPtn (setPtnState s p st) q).tt := by
  unfold setPtnState
  split
  · exact .refl _
  · refine .trans ?_ (rollOnly_eventSem.roll.tt q)
    by_cases h : q = p
    · subst h
      rw [getPtn_modPtn]
      exact .refl _
    · rw [getPtn_modPtn_other (h := h)]
      exact .refl _

theorem getCtx_setPtnState {p c : Nat} {st : PtnState} : getCtx (setPtnState s p st) c = { getCtx s c with
    holds := (getCtx (setPtnState s p st) c).holds, parkWaits := (getCtx (setPtnState s p st) c).parkWaits
    parkGrants := (getCtx (setPtnState s p st) c).parkGrants } := by
  unfold setPtnState
  split
  · rfl
  · rw [rollOnly_eventSem.ctx]
    rfl

/-- A context with its STATE changed. -/
theorem rollOnly_setCtxState {c : Nat} {st : CtxState} : RollOnly (modCtx s c (fun x => { x with state := st })) (setCtxState s c st) := by
  unfold setCtxState
  split
  · next h =>
    refine ⟨.of_ptn rfl, fun d => ?_⟩
    by_cases hd : d = c
    · subst hd
      rw [getCtx_modCtx, ← h]
    · rw [getCtx_modCtx_other (h := hd)]
  · dsimp only
    split
    · exact rollOnly_eventSem
    · exact .refl _

theorem getCtx_setCtxState {c : Nat} {st : CtxState} : getCtx (setCtxState s c st) c = { getCtx s c with
    state := st, holds := (getCtx (setCtxState s c st) c).holds, parkWaits := (getCtx (setCtxState s c st) c).parkWaits
    parkGrants := (getCtx (setCtxState s c st) c).parkGrants } := by
  rw [rollOnly_setCtxState.ctx, getCtx_modCtx]

theorem getCtx_setCtxState_other {c d : Nat} {st : CtxState} (h : d ≠ c) : getCtx (setCtxState s c st) d = { getCtx s d with
    holds := (getCtx (setCtxState s c st) d).holds, parkWaits := (getCtx (setCtxState s c st) d).parkWaits
    parkGrants := (getCtx (setCtxState s c st) d).parkGrants } := by
  rw [rollOnly_setCtxState.ctx, getCtx_modCtx_other (h := h)]

theorem ptnRoll_setCtxState {c : Nat} {st : CtxState} : PtnRoll s (setCtxState s c st) :=
  PtnRoll.trans (u := modCtx s c _) (.of_ptn rfl) rollOnly_setCtxState.roll

end Sys2Proof.Machine
end


section
/-! SUPPORT and proof of O28. BELL frames that are followed, frames that are missing, HOLDOVER and LOST. -/

namespace Sys2Proof.Machine

variable {s u : State} {alt : Bool} {port : Nat} {f : List Byte}

/-! ### A BELL frame of a stream (R253, R259, R261) -/

/-- The upstream of a stream. -/
def upOf (s : State) (alt : Bool) : Upstream := if alt then s.bell.alt else s.bell.prim

/-- The source that a stream is. -/
def srcOf (alt : Bool) : Nat := if alt then 2 else 1

section Frame

variable (ht : frType f = 1) (hc : fcrcOk f = true) (h0 : frameBits f 227 224 = 0) (hr : frameBits f 133 32 = 0)
  (hd : frameBits f 137 134 ≤ 8)
include ht hc h0 hr hd

theorem exec_bellFrame_none (h : streamOf s port = none) : exec (.bellFrameReceive port f) s = .next s := by
  refine congrArg Host.Outcome.next ((takeFrame_sound ht (by norm_num) (by norm_num) hc h0 (by simp [hr, hd])).trans ?_)
  simp only [h]

theorem exec_bellFrame_barred (h : streamOf s port = some alt) (hb : (upOf s alt).barred = true) :
    exec (.bellFrameReceive port f) s = .next s := by
  refine congrArg Host.Outcome.next ((takeFrame_sound ht (by norm_num) (by norm_num) hc h0 (by simp [hr, hd])).trans ?_)
  simp only [h]
  exact if_pos hb

theorem exec_bellFrame (h : streamOf s port = some alt) (hb : (upOf s alt).barred = false) :
    exec (.bellFrameReceive port f) s = .next (bellFrameIn s alt f) := by
  refine congrArg Host.Outcome.next ((takeFrame_sound ht (by norm_num) (by norm_num) hc h0 (by simp [hr, hd])).trans ?_)
  simp only [h]
  exact if_neg (ne_true_of_eq_false hb)

end Frame

theorem modUp_state {g : Upstream → Upstream} : (modUp s alt g).bell.state = s.bell.state := by cases alt <;> rfl

theorem modUp_source {g : Upstream → Upstream} : (modUp s alt g).bell.source = s.bell.source := by cases alt <;> rfl

theorem modUp_holdover {g : Upstream → Upstream} :
    (modUp s alt g).bell.holdoverBells = s.bell.holdoverBells ∧ (modUp s alt g).bell.holdLimit = s.bell.holdLimit := by
  cases alt <;> exact ⟨rfl, rfl⟩

theorem modUp_markRx {g : Upstream → Upstream} : (modUp s alt g).bell.markRx = s.bell.markRx := by cases alt <;> rfl

theorem modUp_count {g : Upstream → Upstream} : (modUp s alt g).bell.count = s.bell.count := by cases alt <;> rfl

theorem modUp_int {g : Upstream → Upstream} : (modUp s alt g).int = s.int := by cases alt <;> rfl

theorem bellFrameIn_waitStart (h : s.bell.state = .waitStart) (hs : s.bell.source = 0 ∨ s.bell.source = srcOf alt) :
    (bellFrameIn s alt f).bell.source = srcOf alt ∧ (bellFrameIn s alt f).bell.rxBell = frameBits f 223 160
    ∧ (bellFrameIn s alt f).bell.markRx = if frameBits f 142 142 = 1 then some (frameBits f 141 138) else s.bell.markRx := by
  unfold bellFrameIn
  dsimp only
  rw [modUp_state, h]
  dsimp only
  rw [if_pos (by rw [modUp_source]; exact hs)]
  by_cases hm : frameBits f 142 142 = 1
  · rw [if_pos hm, if_pos hm]
    exact ⟨rfl, rfl, rfl⟩
  · rw [if_neg hm, if_neg hm]
    exact ⟨rfl, rfl, modUp_markRx⟩

theorem bellFrameIn_holdover (h : s.bell.state = .holdover) (hl : s.bell.holdoverBells < s.bell.holdLimit) :
    (bellFrameIn s alt f).bell.state = .running ∧ (bellFrameIn s alt f).bell.source = srcOf alt
    ∧ (bellFrameIn s alt f).bell.count = s.bell.count
    ∧ (bellFrameIn s alt f).bell.slew = (Config.holdoverDrift s.bell.count).toInt := by
  unfold bellFrameIn
  dsimp only
  rw [modUp_state, h]
  dsimp only
  rw [if_pos (by rw [modUp_holdover.1, modUp_holdover.2]; exact hl), modUp_count]
  exact ⟨rfl, rfl, rfl, rfl⟩

/-- The number before `b`, which the counter takes so that the next Bell is `b`. -/
theorem wrap_pred {b : Nat} (h0 : 0 < b) (hb : b < 2 ^ 64) : wrap 64 (2 ^ 64 - 1 + b) = b - 1 := by
  unfold wrap
  omega

/-- A module that was LOST takes the stream's number (R261). -/
theorem bellFrameIn_lost (h : s.bell.state = .lost) (h0 : 0 < frameBits f 223 160) :
    (bellFrameIn s alt f).bell.state = .running ∧ (bellFrameIn s alt f).bell.source = srcOf alt
    ∧ (bellFrameIn s alt f).bell.count = frameBits f 223 160 - 1
    ∧ ((s.bell.count + 1) % 2 ^ 64 = frameBits f 223 160 → (bellFrameIn s alt f).int = s.int)
    ∧ ((s.bell.count + 1) % 2 ^ 64 ≠ frameBits f 223 160 →
        (bellFrameIn s alt f).bell.stepped = true ∧ (bellFrameIn s alt f).int.lastCode = FaultCode.bellStep.code) := by
  have hb : frameBits f 223 160 < 2 ^ 64 := Nat.mod_lt _ (by norm_num)
  unfold bellFrameIn
  dsimp only
  rw [modUp_state, h]
  dsimp only
  rw [modUp_count]
  by_cases he : wrap 64 (s.bell.count + 1) = frameBits f 223 160
  · rw [if_pos he]
    exact ⟨rfl, rfl, wrap_pred h0 hb, fun _ => modUp_int, fun hn => absurd he hn⟩
  · rw [if_neg he, raise_bell]
    exact ⟨rfl, rfl, wrap_pred h0 hb, fun hn => absurd hn he, fun _ => ⟨rfl, (raise_spec ..).1⟩⟩

/-- What a stream's frame says stands in its upstream. -/
theorem bellFrameIn_upOf : upOf (bellFrameIn s alt f) alt = upOf (modUp s alt (fun u => { u with
    missing := 0, instant := (frameBits f 158 143 : Int) - ((if alt then s.bell.alt else s.bell.prim).delay : Int) + trimOf s alt,
    depth := frameBits f 137 134, src := frameBits f 159 159 })) alt := by
  unfold bellFrameIn
  dsimp only
  rw [modUp_state]
  generalize modUp s alt _ = v
  generalize (if alt = true then 2 else 1) = src
  split
  · split
    · split <;> rfl
    · rfl
  · split <;> rfl
  · split <;> rfl
  · split
    · rfl
    · rw [upOf, raise_bell]
      rfl
  · rfl

theorem upOf_modUp {g : Upstream → Upstream} : upOf (modUp s alt g) alt = g (upOf s alt) := by cases alt <;> rfl

/-! ### A stream that is missing, HOLDOVER and LOST (R260, R261) -/

theorem exec_bellFrameMissing (hd : s.bell.cfg.domainEn = true) (hr : s.bell.cfg.role ≠ 1) (ha : alt = true → s.bell.cfg.altEn = true)
    (hc : counting s = true) : exec (.bellFrameMissing alt) s = .next
      { modUp s alt (fun u => { u with missing := u.missing + 1 }) with
        bell.missed := satInc 32 (modUp s alt (fun u => { u with missing := u.missing + 1 })).bell.missed } := by
  refine congrArg Host.Outcome.next (if_neg ?_)
  cases alt
  · simp [hd, hr, hc]
  · simp [hd, hr, hc, ha rfl]

/-- A partition that is held for one more cause (R399). -/
theorem setHold_up {p bit : Nat} (h : (getPtn s p).state = .active ∨ (getPtn s p).state = .held) :
    (getPtn (setHold s p bit) p).state = .held ∧ (getPtn (setHold s p bit) p).holdCause = (getPtn s p).holdCause ||| 2 ^ bit := by
  unfold setHold
  dsimp only
  rw [if_pos h, getPtn_setPtnState, getPtn_modPtn]
  exact ⟨rfl, rfl⟩

theorem setHold_other {p q bit : Nat} (h : q ≠ p) : (getPtn (setHold s p bit) q).state = (getPtn s q).state
    ∧ (getPtn (setHold s p bit) q).holdCause = (getPtn s q).holdCause ∧ (getPtn (setHold s p bit) q).syl = (getPtn s q).syl := by
  unfold setHold
  dsimp only
  split
  · rw [getPtn_setPtnState_other h, getPtn_modPtn_other (h := h)]
    exact ⟨rfl, rfl, rfl⟩
  · exact ⟨rfl, rfl, rfl⟩

theorem setHold_syl {p bit : Nat} : (getPtn (setHold s p bit) p).syl = (getPtn s p).syl := by
  unfold setHold
  dsimp only
  split
  · rw [getPtn_setPtnState, getPtn_modPtn]
  · rfl

theorem inForm_of_syl {p : Nat} (h : (getPtn u p).syl = (getPtn s p).syl) : inForm u p = inForm s p := by
  rw [inForm, formOf, h]
  rfl

/-- The hold of a partition of a Form whose Bell is lost (R261). -/
def holdLost (s : State) (p : Nat) : State := if inForm s p then setHold s p causeBellLost else s

theorem holdLost_syl {p q : Nat} : (getPtn (holdLost s p) q).syl = (getPtn s q).syl := by
  unfold holdLost
  split
  · by_cases h : q = p
    · subst h
      exact setHold_syl
    · exact (setHold_other h).2.2
  · rfl

/-- Held for the lost Bell. -/
def HeldLost (s : State) (p : Nat) : Prop := (getPtn s p).state = .held ∧ bitOf (getPtn s p).holdCause causeBellLost = true

theorem heldLost_holdLost {p : Nat} (hf : inForm s p = true) (h : (getPtn s p).state = .active ∨ (getPtn s p).state = .held) :
    HeldLost (holdLost s p) p := by
  rw [holdLost, if_pos hf]
  obtain ⟨hs, hc⟩ := setHold_up (bit := causeBellLost) h
  exact ⟨hs, by
    rw [hc, bitOf, Nat.testBit_or, Bool.or_eq_true]
    exact .inr (by decide)⟩

theorem HeldLost.holdLost {p q : Nat} (h : HeldLost s p) : HeldLost (holdLost s q) p := by
  by_cases hf : inForm s q = true
  · by_cases hq : p = q
    · subst hq
      exact heldLost_holdLost hf (.inr h.1)
    · obtain ⟨hs, hc, -⟩ := setHold_other (s := s) (bit := causeBellLost) hq
      rw [Machine.holdLost, if_pos hf]
      exact ⟨hs.trans h.1, by rw [hc]; exact h.2⟩
  · rw [Machine.holdLost, if_neg hf]
    exact h

theorem forEach_holdLost_held {p : Nat} {ps : List Nat} (h : HeldLost s p) : HeldLost (forEach ps holdLost s) p := by
  induction ps generalizing s with
  | nil => exact h
  | cons q ps ih => exact ih h.holdLost

/-- Every ACTIVE partition of a Form among those that are visited is held. -/
theorem forEach_holdLost {p : Nat} {ps : List Nat} (hp : p ∈ ps) (hf : inForm s p = true) (ha : (getPtn s p).state = .active) :
    HeldLost (forEach ps holdLost s) p := by
  induction ps generalizing s with
  | nil => cases hp
  | cons q ps ih =>
    by_cases hq : p = q
    · subst hq
      rw [forEach_cons]
      exact forEach_holdLost_held (heldLost_holdLost hf (.inl ha))
    · refine ih ((List.mem_cons.1 hp).resolve_left hq) ((inForm_of_syl holdLost_syl).trans hf) ?_
      rw [holdLost]
      split
      · exact (setHold_other hq).1.trans ha
      · exact ha

theorem forEach_holdLost_none {ps : List Nat} (h : ∀ p ∈ ps, inForm s p = false) : forEach ps holdLost s = s := by
  induction ps with
  | nil => rfl
  | cons q ps ih =>
    rw [forEach_cons, holdLost, if_neg (by simp [h q]), ih fun p hp => h p (List.mem_cons_of_mem _ hp)]

/-- The Bell is lost (R261). -/
def bellLost (s : State) : State := raise { s with bell.state := .lost } .bellLost { kind := .module }

theorem exec_holdoverLimit (h : s.bell.state = .holdover) (hl : s.bell.holdLimit ≤ s.bell.holdoverBells) :
    exec .holdoverLimit s = .next (forEach (tkeys (bellLost s).ptn) holdLost (bellLost s)) :=
  congrArg Host.Outcome.next (if_pos (by simp [h, hl]))

theorem forEach_holdLost_bell {ps : List Nat} : (forEach ps holdLost s).bell = s.bell := by
  refine forEach_bell fun u p => ?_
  unfold holdLost
  split
  · exact (setHold_kept (Kept.refl _ u) (Within.refl _)).rest .bell (by decide)
  · rfl

theorem getPtn_bellLost {p : Nat} : getPtn (bellLost s) p = getPtn s p := congrArg (tget default · p) (raise_ptn ..)

/-! ### A deputy and a member at the Bell (R260, R261) -/

section Lost

variable (hd : s.bell.cfg.domainEn = true) (hs : s.bell.state = .running) (ho : ownBell s = false)
include hs

/-- A Bell of a module that follows: what its block shows is what the loss of streams leaves. -/
theorem exec_bell_follows : ∃ u, exec .bell s = .next u ∧ u.bell = (streamLoss (slewed (counted s))).bell
    ∧ u.bell.count = (s.bell.count + 1) % 2 ^ 64 :=
  ⟨_, exec_bell_counting (by simp [counting, hs]), atBellInstant_bell', atBellInstant_counters.1⟩

include hd ho

theorem follows_slewed : Follows (slewed (counted s)) := ⟨hd, hs, ho⟩

theorem bell_deputy (hr : s.bell.cfg.role = 2) (hg : gone (slewDelay s.bell.prim) = true) :
    (streamLoss (slewed (counted s))).bell = (takenOver (slewed (counted s))).bell := by
  rw [streamLoss_of_follows (follows_slewed hd hs ho)]
  exact (congrArg State.bell ((if_pos hr).trans (if_pos hg))).trans raise_bell

theorem bell_member (hr : s.bell.cfg.role ≠ 2) : (streamLoss (slewed (counted s))).bell =
    (if s.bell.source = 1 ∧ gone (slewDelay s.bell.prim) = true ∧ s.bell.cfg.altEn = true ∧ gone (slewDelay s.bell.alt) = false
      then switchTo (slewed (counted s)) true
    else if s.bell.source = 2 ∧ (s.bell.cfg.altEn = false ∨ gone (slewDelay s.bell.alt) = true) ∧ gone (slewDelay s.bell.prim) = false
      then switchTo (slewed (counted s)) false
    else if gone (slewDelay s.bell.prim) = true ∧ (s.bell.cfg.altEn = false ∨ gone (slewDelay s.bell.alt) = true)
      then heldOverBell (slewed (counted s))
    else slewed (counted s)).bell := by
  rw [streamLoss_of_follows (follows_slewed hd hs ho)]
  exact congrArg State.bell (if_neg hr)

end Lost

theorem slewDelay_instant {u : Upstream} : (slewDelay u).instant = u.instant := by
  unfold slewDelay
  split_ifs <;> rfl

/-- Settles O28. -/
theorem bellStreams : Obligations.BellStreams := by
  refine ⟨fun s port f ht hc h0 hr hd => ⟨exec_bellFrame_none ht hc h0 hr hd, fun alt h => ?_⟩, fun s hd => ⟨fun alt => ?_, ?_, ?_, ?_, ?_⟩⟩
  · refine ⟨exec_bellFrame_barred ht hc h0 hr hd h, fun hb => ?_⟩
    have hx := exec_bellFrame ht hc h0 hr hd h hb
    refine ⟨⟨_, hx, ?_⟩, fun hs hsrc => ⟨_, hx, bellFrameIn_waitStart hs hsrc⟩, fun hs hl => ⟨_, hx, bellFrameIn_holdover hs hl⟩,
      fun hs hb => ⟨_, hx, bellFrameIn_lost hs hb⟩⟩
    have hup := (bellFrameIn_upOf (s := s) (f := f)).trans (upOf_modUp (alt := alt))
    exact ⟨congrArg Upstream.instant hup, congrArg Upstream.missing hup, (congrArg Upstream.delay hup).trans rfl, congrArg Upstream.src hup,
      congrArg Upstream.depth hup⟩
  · intro up hr ha hc
    refine ⟨_, exec_bellFrameMissing hd hr ha hc, ?_⟩
    cases alt <;> exact ⟨rfl, rfl, rfl, rfl, rfl, rfl⟩
  · intro hs ho hr hg
    obtain ⟨u, hx, hb, hcount⟩ := exec_bell_follows hs
    rw [bell_deputy hd hs ho hr hg] at hb
    refine ⟨u, hx, by rw [hb]; rfl, by rw [hb]; rfl, by rw [hb]; exact hs, ?_, hcount⟩
    rw [frameSource, ownBell, hb]
    simp [takenOver]
  · intro hs ho hr hg
    rw [streamLoss_of_follows ⟨hd, hs, ho⟩, if_pos hr, if_pos hg]
    exact (raise_spec ..).1
  · intro hs ho hr
    obtain ⟨u, hx, hb, hcount⟩ := exec_bell_follows hs
    rw [bell_member hd hs ho hr] at hb
    refine ⟨fun h1 hp ha hg => ?_, fun h2 hp ha => ?_, fun hp ha => ?_⟩
    · rw [if_pos ⟨h1, hp, ha, hg⟩] at hb
      refine ⟨u, hx, by rw [hb]; rfl, by rw [hb]; rfl, by rw [hb]; exact hs, hcount, ?_⟩
      rw [hb]
      exact congrArg₂ (fun x y : Int => x - y) slewDelay_instant slewDelay_instant
    · rw [if_neg (by simp [h2]), if_pos ⟨h2, ha, hp⟩] at hb
      refine ⟨u, hx, by rw [hb]; rfl, by rw [hb]; rfl, by rw [hb]; exact hs, hcount, ?_⟩
      rw [hb]
      refine (neg_sub _ _).trans ?_
      exact congrArg₂ (fun x y : Int => x - y) slewDelay_instant slewDelay_instant
    · have hn : ¬(s.bell.cfg.altEn = true ∧ gone (slewDelay s.bell.alt) = false) := fun hh => by
        rw [hh.1, hh.2] at ha
        simp at ha
      rw [if_neg fun hh => hn hh.2.2, if_neg (by rw [hp]; simp), if_pos ⟨hp, ha⟩] at hb
      exact ⟨u, hx, by rw [hb]; rfl, by rw [hb]; rfl, by rw [hb]; rfl, hcount⟩
  · intro hs hl
    refine ⟨_, exec_holdoverLimit hs hl, ?_, ?_, fun p hp hf ha => ?_, fun h => ?_⟩
    · rw [forEach_holdLost_bell, bellLost, raise_bell]
    · rw [forEach_holdLost_bell, bellLost, raise_bell]
    · refine forEach_holdLost ?_ ?_ ?_
      · rwa [bellLost, raise_ptn]
      · rwa [inForm_of_syl (congrArg Ptn.syl getPtn_bellLost)]
      · rwa [getPtn_bellLost]
    · rw [forEach_holdLost_none]
      · exact (raise_spec ..).1
      · rw [bellLost, raise_ptn]
        exact fun p hp => (inForm_of_syl (congrArg Ptn.syl getPtn_bellLost)).trans (h p hp)

end Sys2Proof.Machine
end


section
/-! SUPPORT and proof of O29. The power governor. -/

namespace Sys2Proof.Machine

variable {s : State}

/-- What each of a list of changes leaves stands after all of them. -/
theorem forEach_proj {α β : Type} {π : State → β} {f : State → α → State} (hf : ∀ u x, π (f u x) = π u) {xs : List α} {s : State} :
    π (forEach xs f s) = π s := by
  induction xs generalizing s with
  | nil => rfl
  | cons x xs ih => rw [forEach_cons, ih, hf]

/-- The parts of a cycle's footprint beside the power block. -/
def besidePower : List Part := tickWrites.filter (· != .pwr)

/-- Of what a Bell brings only the governor's decision changes the power block. -/
theorem atBellInstant_pwr : (atBellInstant s).pwr = (govApply (streamLoss (slewed s))).pwr := by
  unfold atBellInstant
  have w := Within.refl besidePower
  have hrep : ∀ u, (freeRepairs (darkDue u)).pwr = u.pwr := fun u =>
    (freeRepairs_kept (darkDue_kept (Kept.refl besidePower u))).rest .pwr (by decide)
  have hend : ∀ u, (emitBell (ohBell u)).pwr = u.pwr := fun u =>
    (emitBell_kept (ohBell_kept (Kept.refl besidePower u))).rest .pwr (by decide)
  have hbound : ∀ u p c, (registerBound u p c).pwr = u.pwr := fun u p c =>
    (registerBound_kept (Kept.refl besidePower u)).rest .pwr (by decide)
  have hrecess : ∀ u p, (recessPoint u p).pwr = u.pwr := fun u p =>
    (recessPoint_kept (Kept.refl besidePower u)).rest .pwr (by decide)
  rw [hend, forEach_proj (π := State.pwr), forEach_proj (π := State.pwr), hrep]
  · rfl
  · intro u c
    split
    · exact hbound ..
    · rfl
  · intro u p
    split
    · exact hrecess ..
    · rfl

theorem streamLoss_pwr : (streamLoss s).pwr = s.pwr :=
  (streamLoss_kept (Kept.refl [.mc, .int, .ptn, .ctx, .bell, .i3c] s) (Within.refl _)).rest .pwr (by decide)

/-- A Bell that counts counts on when streams are lost: HOLDOVER counts (R261). -/
theorem streamLoss_counting (h : counting s = true) : counting (streamLoss s) = true := by
  by_cases hf : Follows s
  · rw [streamLoss_of_follows hf]
    split_ifs
    · rw [counting, raise_bell]
      exact h
    all_goals first | exact h | rfl
  · rwa [streamLoss_of_not hf]

theorem govTime_of_counting (h : counting s = true) : govTime s = s.bell.count := if_pos h

theorem vatRestart_pwr : (vatRestart s).pwr = s.pwr := rfl

/-- HOLD is entered (R274). -/
theorem govApply_enter {b : Nat} (he : s.pwr.enterAt = some b) (hb : b ≤ govTime s) (hl : s.pwr.leaveAt = none) :
    (govApply s).pwr.hold = true ∧ (govApply s).pwr.enterAt = none := by
  unfold govApply
  dsimp only
  rw [he]
  dsimp only
  rw [if_pos hb]
  by_cases hh : s.pwr.hold = true
  · rw [if_pos hh]
    dsimp only
    rw [hl]
    exact ⟨hh, rfl⟩
  · rw [if_neg hh, raise_pwr]
    dsimp only
    rw [hl]
    dsimp only
    rw [raise_pwr]
    exact ⟨rfl, rfl⟩

/-- HOLD is left (R274). -/
theorem govApply_leave {b : Nat} (he : s.pwr.enterAt = none) (hb : b ≤ govTime s) (hl : s.pwr.leaveAt = some b) :
    (govApply s).pwr.hold = false ∧ (govApply s).pwr.leaveAt = none := by
  unfold govApply
  dsimp only
  rw [he]
  dsimp only
  rw [hl]
  dsimp only
  rw [if_pos hb, vatRestart_pwr]
  exact ⟨rfl, rfl⟩

/-- The Timetables count a Bell in HOLD (R274). -/
def govHeld (s : State) : State :=
  if s.pwr.hold then
    let s := { s with pwr := { s.pwr with govCount := satInc 32 s.pwr.govCount } }
    forEach (tkeys s.ptn) (fun s p => modTt s p (fun t =>
      if t.state == .running then { t with govhold := satInc 32 t.govhold } else t)) s
  else s

theorem govHeld_pwr : (govHeld s).pwr =
    { s.pwr with govCount := if s.pwr.hold then min (s.pwr.govCount + 1) (2 ^ 32 - 1) else s.pwr.govCount } := by
  unfold govHeld
  split
  · dsimp only
    rw [forEach_proj (π := State.pwr)]
    · rfl
    · intro _ _
      rfl
  · rfl

theorem govHeld_bell : (govHeld s).bell = s.bell := by
  unfold govHeld
  split
  · dsimp only
    rw [forEach_proj (π := State.bell)]
    intro _ _
    rfl
  · rfl

/-- The power block with the decision of an average (R274). -/
def governed (s : State) (w cap : Nat) : PwrBlk :=
  let low := if w * 100 ≤ cap * 95 then s.pwr.lowRun + 1 else 0
  { s.pwr with
    lastW := min w 4095, lowRun := min low 2
    enterAt := if cap < w then some (govTime s + 1) else s.pwr.enterAt
    leaveAt := if cap < w then none else if s.pwr.hold && decide (2 ≤ low) then some (govTime s + 1) else s.pwr.leaveAt }

section Counting

variable (h : counting s = true)
include h

theorem governor_pwr {w : Nat} : (governor s w).pwr = governed (govHeld s) w (capWatts s) := by
  unfold governor
  dsimp only
  rw [if_pos h]
  rfl

theorem govTime_govHeld : govTime (govHeld s) = s.bell.count := by
  rw [govTime_of_counting, govHeld_bell]
  rw [counting, govHeld_bell]
  exact h

theorem exec_bell_pwr : ∃ u, exec .bell s = .next u ∧ u.pwr = (govApply (streamLoss (slewed (counted s)))).pwr :=
  ⟨_, exec_bell_counting h, atBellInstant_pwr⟩

theorem govTime_bell : govTime (streamLoss (slewed (counted s))) = (s.bell.count + 1) % 2 ^ 64 := by
  rw [govTime_of_counting (streamLoss_counting (s := slewed (counted s)) h), streamLoss_counters.1]
  rfl

end Counting

/-- Settles O29. -/
theorem governorHold : Obligations.Governor := by
  intro s h
  refine ⟨fun w => ⟨_, rfl, ?_⟩, fun b he hb hl => ?_, fun b he hl hb => ?_⟩
  · dsimp only
    rw [governor_pwr h, governed, govTime_govHeld h, govHeld_pwr]
    refine ⟨rfl, rfl, fun hc => ⟨if_pos hc, if_pos hc⟩, fun hl hc hh h1 => ?_, fun hl => ?_, rfl⟩
    · refine (if_neg (not_lt.2 hc)).trans (if_pos ?_)
      rw [if_pos hl, hh]
      simpa using h1
    · simp [not_le.2 hl]
  · obtain ⟨u, hx, hp⟩ := exec_bell_pwr h
    rw [← govTime_bell h] at hb
    refine ⟨u, hx, ?_⟩
    dsimp only
    rw [hp]
    exact govApply_enter (by rw [streamLoss_pwr]; exact he) hb (by rw [streamLoss_pwr]; exact hl)
  · obtain ⟨u, hx, hp⟩ := exec_bell_pwr h
    rw [← govTime_bell h] at hb
    refine ⟨u, hx, ?_⟩
    dsimp only
    rw [hp]
    exact govApply_leave (by rw [streamLoss_pwr]; exact he) hb (by rw [streamLoss_pwr]; exact hl)

end Sys2Proof.Machine
end


section
/-! SUPPORT and proof of O30. START, STOP and RESUME of a Timetable and its beginning. -/

namespace Sys2Proof.Machine

variable {s : State} {p q bell : Nat} {who : Req} {y : Timetable} {f : Tt → Tt}

/-- A command that answers the next state `u` completes with what holds of `u`. -/
theorem Completes.of_next {c : Instr} {Q : State → Prop} {u : State} (h : exec c s = .next u) (hq : Q u) : Completes c s Q := ⟨u, h, hq⟩

/-- The same for a command whose next state is an operation's result. -/
theorem Completes.of_eq {c : Instr} {Q : State → Prop} {u v : State} (h : exec c s = .next v) (e : v = u) (hq : Q u) : Completes c s Q :=
  ⟨u, h.trans (congrArg Host.Outcome.next e), hq⟩

/-! ### A partition with its Timetable changed -/

theorem getPtn_modTt_self : getPtn (modTt s p f) p = { getPtn s p with tt := f (getPtn s p).tt } := getPtn_modPtn ..

theorem getPtn_modTt_other (h : q ≠ p) : getPtn (modTt s p f) q = getPtn s q := getPtn_modPtn_other (h := h) ..

theorem ttOf_modTt : ttOf (modTt s p f) q = ttOf s q := by
  by_cases h : q = p
  · subst h
    rw [ttOf, getPtn_modTt_self]
    rfl
  · rw [ttOf, getPtn_modTt_other h]
    rfl

theorem ptnUp_modTt : ptnUp (modTt s p f) q = ptnUp s q := by
  by_cases h : q = p
  · subst h
    rw [ptnUp, getPtn_modTt_self]
    rfl
  · rw [ptnUp, getPtn_modTt_other h]
    rfl

theorem tt_ttStatus {c : Nat} : (getPtn (ttStatus s p c) p).tt = { (getPtn s p).tt with cmdStatus := c } := getPtn_modTt ..

/-! ### START (R282) -/

/-- TT_PT_AT has taken a Bell. -/
def atWritten (s : State) (p bell : Nat) : State := modTt s p (fun t => { t with at_ := wrap 64 bell })

theorem tt_atWritten (h : bell < 2 ^ 64) : (getPtn (atWritten s p bell) p).tt = { (getPtn s p).tt with at_ := bell } := by
  rw [atWritten, getPtn_modTt, wrap, Nat.mod_eq_of_lt h]

section Start

variable (hm : mayPtn s who p = true)
include hm

theorem exec_ttStart : exec (.ttStart who p bell) s = .next (ttStart (atWritten s p bell) p) :=
  congrArg Host.Outcome.next (if_pos hm)

theorem exec_ttResume : exec (.ttResume who p bell) s = .next (ttResume (atWritten s p bell) p) :=
  congrArg Host.Outcome.next (if_pos hm)

theorem exec_ttStop : exec (.ttStop who p) s = .next (ttStop s p) := congrArg Host.Outcome.next (if_pos hm)

end Start

theorem ttStart_busy (h : (getPtn s p).tt.state ≠ .idle) : ttStart s p = ttStatus s p 3 := if_pos h

section Idle

variable (h : (getPtn s p).tt.state = .idle)
include h

theorem ttStart_none (hk : ttOf s p = none) : ttStart s p = ttStatus s p 4 := by
  rw [ttStart, if_neg (not_not.2 h), hk]

variable (hk : (ttOf s p).isSome = true) (hu : ptnUp s p = true)
include hk hu

theorem ttStart_up : ttStart s p = if !bellRuns s then ttStatus s p 5
    else if (getPtn s p).tt.at_ < s.bell.count + 2 then ttStatus s p 2
    else modTt s p (fun t => { t with state := .armed, b0 := t.at_, cmdStatus := 0 }) := by
  obtain ⟨y, hy⟩ := Option.isSome_iff_exists.1 hk
  rw [ttStart, if_neg (not_not.2 h), hy]
  exact if_neg (by simp [hu])

theorem ttStart_stopped (hr : bellRuns s = false) : ttStart s p = ttStatus s p 5 :=
  (ttStart_up h hk hu).trans (if_pos (by simp [hr]))

variable (hr : bellRuns s = true)
include hr

theorem ttStart_soon (hb : (getPtn s p).tt.at_ < s.bell.count + 2) : ttStart s p = ttStatus s p 2 :=
  (ttStart_up h hk hu).trans ((if_neg (by simp [hr])).trans (if_pos hb))

theorem ttStart_armed (hb : ¬(getPtn s p).tt.at_ < s.bell.count + 2) :
    ttStart s p = modTt s p (fun t => { t with state := .armed, b0 := t.at_, cmdStatus := 0 }) :=
  (ttStart_up h hk hu).trans ((if_neg (by simp [hr])).trans (if_neg hb))

end Idle

/-! ### STOP (R282) -/

theorem ttStop_else (hr : (getPtn s p).tt.state ≠ .running) (hh : (getPtn s p).tt.state ≠ .held) : ttStop s p = ttStatus s p 3 := by
  rw [ttStop, if_neg (not_or.2 ⟨hr, hh⟩)]
  split <;> rfl

theorem ttStop_up (h : (getPtn s p).tt.state = .running ∨ (getPtn s p).tt.state = .held) : ttStop s p = ttStatus (stopTt s p) p 0 := if_pos h

theorem stopTt_releasing (h : (getPtn s p).tt.state = .running) (hn : (getPtn s p).tt.noRelease = false) :
    stopTt s p = modTt s p (fun t => { t with state := .stopping, noRelease := false }) := by
  rw [stopTt, if_pos (.inl h), h, hn]
  rfl

/-- A Timetable that has stopped. -/
def ttEnded (t : Tt) : Tt := { t with state := .idle, open_ := [], noRelease := false, overrunSlot := none, inLesson := false }

theorem stopTt_dead (h : (getPtn s p).tt.state = .held ∨ ((getPtn s p).tt.state = .running ∧ (getPtn s p).tt.noRelease = true))
    (hr : ptnRunning s p = false) : stopTt s p = modTt s p ttEnded := by
  have hd : ((getPtn s p).tt.state == .held || (getPtn s p).tt.noRelease) = true := by
    rcases h with h | ⟨-, h⟩ <;> simp [h]
  rw [stopTt, if_pos (h.symm.imp_left And.left), hd, hr]
  rfl

/-! ### RESUME (R277, R282) -/

/-- Bell `x` moved with the next slot's from `n` to `b`. -/
def moved (b n x : Nat) : Nat := ((x : Int) + ((b : Int) - (n : Int))).toNat

theorem moved_eq {b n x : Nat} (h : n ≤ x + b) : moved b n x + n = x + b := by
  unfold moved
  omega

/-- A Timetable that a RESUME has released. -/
def ttResumed (c : Nat) (y : Timetable) (t : Tt) : Tt := { t with
  resumeAt := some t.at_, cmdStatus := 0, noRelease := false, overrunSlot := none, state := .running
  b0 := moved t.at_ (nextStart t y) t.b0, bound := moved t.at_ (nextStart t y) t.bound, resumedOn := some c }

theorem bound_le_nextStart {t : Tt} : t.bound ≤ nextStart t y := by
  unfold nextStart nextBoundary
  split_ifs <;> omega

/-- The next slot starts as far behind the Lesson's first Bell as before. -/
theorem nextStart_ttResumed {t : Tt} {c : Nat} (h : nextStart t y - t.bound ≤ t.at_) : nextStart (ttResumed c y t) y = t.at_ := by
  have hm : moved t.at_ (nextStart t y) t.bound + nextStart t y = t.bound + t.at_ := moved_eq (by
    have := bound_le_nextStart (y := y) (t := t)
    omega)
  unfold nextStart nextBoundary at hm ⊢
  simp only [ttResumed, nextStart, nextBoundary]
  split_ifs at hm ⊢ <;> omega

section Held

variable (h : (getPtn s p).tt.state = .held) (hy : ttOf s p = some y) (hu : ptnUp s p = true)
include h hy hu

theorem ttResume_late (hb : (getPtn s p).tt.at_ < s.bell.count + 2) : ttResume s p = ttStatus s p 2 := by
  unfold ttResume
  dsimp only
  rw [hy]
  dsimp only
  rw [if_neg (not_not.2 h), if_neg (by simp [hu]), if_pos hb]

theorem ttResume_held (hb : ¬(getPtn s p).tt.at_ < s.bell.count + 2) :
    (getPtn (ttResume s p) p).tt = ttResumed s.bell.count y (getPtn s p).tt := by
  unfold ttResume
  dsimp only
  rw [hy]
  dsimp only
  rw [if_neg (not_not.2 h), if_neg (by simp [hu]), if_neg hb, getPtn_modTt]
  rfl

end Held

theorem getPtn_forgetCloses : getPtn (forgetCloses s p) q = getPtn s q := by
  refine congrArg (tget default · q) ?_
  unfold forgetCloses
  rw [forEach_proj (π := State.ptn)]
  intro _ _
  rfl

/-- Settles O30. -/
theorem timetableCommands : Obligations.TimetableCommands := by
  intro s who p bell hm hb
  have hat := tt_atWritten (s := s) (p := p) hb
  have hst {x : TtState} (h : (getPtn s p).tt.state = x) : (getPtn (atWritten s p bell) p).tt.state = x := by rw [hat]; exact h
  have hk : ttOf (atWritten s p bell) p = ttOf s p := ttOf_modTt
  have hup : ptnUp (atWritten s p bell) p = ptnUp s p := ptnUp_modTt
  refine ⟨fun h k u r b => ?_, fun h => ?_, fun h k => ?_, fun h k u r => ?_, fun h k u r b => ?_, fun h n => ?_, fun h r => ?_,
    fun r h => ?_, fun y h k u b n n' => ?_, fun y h k u b => ?_, fun h c b => ?_⟩
  · refine .of_eq (exec_ttStart hm) (ttStart_armed (hst h) (hk ▸ k) (hup.trans u) r (by rw [hat]; exact not_lt.2 b))
      ⟨?_, fun q hq => (getPtn_modTt_other hq).trans (getPtn_modTt_other hq)⟩
    rw [getPtn_modTt, hat]
  · refine .of_eq (exec_ttStart hm) (ttStart_busy (by rw [hat]; exact h)) ?_
    rw [tt_ttStatus, hat]
  · refine .of_eq (exec_ttStart hm) (ttStart_none (hst h) (hk.trans k)) ?_
    rw [tt_ttStatus, hat]
  · refine .of_eq (exec_ttStart hm) (ttStart_stopped (hst h) (hk ▸ k) (hup.trans u) r) ?_
    rw [tt_ttStatus, hat]
  · refine .of_eq (exec_ttStart hm) (ttStart_soon (hst h) (hk ▸ k) (hup.trans u) r (by rw [hat]; exact b)) ?_
    rw [tt_ttStatus, hat]
  · refine .of_eq (exec_ttStop hm) (ttStop_up (.inl h)) ?_
    rw [tt_ttStatus, stopTt_releasing h n, getPtn_modTt, ← n]
  · refine .of_eq (exec_ttStop hm) (ttStop_up (.inr h)) ?_
    rw [tt_ttStatus, stopTt_dead (.inl h) r, getPtn_modTt]
    exact ⟨rfl, rfl⟩
  · exact ⟨_, (exec_ttStop hm).trans (congrArg Host.Outcome.next (ttStop_else r h)), tt_ttStatus⟩
  · refine .of_next (exec_ttResume hm) ?_
    have hx := ttResume_held (hst h) (hk.trans k) (hup.trans u) (by rw [hat]; exact not_lt.2 b)
    rw [hat] at hx
    rw [hx]
    exact ⟨rfl, rfl, rfl, nextStart_ttResumed (t := { (getPtn s p).tt with at_ := bell }) n, rfl, moved_eq n'⟩
  · refine .of_eq (exec_ttResume hm) (ttResume_late (hst h) (hk.trans k) (hup.trans u) (by rw [hat]; exact b)) ?_
    rw [tt_ttStatus, hat]
  · refine .of_next (congrArg Host.Outcome.next (if_pos ⟨h, c, b⟩)) ?_
    rw [getPtn_modTt, getPtn_forgetCloses]
    exact ⟨rfl, rfl, rfl, rfl, rfl, rfl⟩

end Sys2Proof.Machine
end


section
/-! SUPPORT. What the operations on contexts leave of partitions and of the other contexts. -/

namespace Sys2Proof.Machine

variable {s u v : State} {p c n t i : Nat}

/-! ### Waits and engines -/

theorem rollOnly_engineAdd {flag : DoneFlag} : RollOnly s (engineAdd s p i flag) := by
  unfold engineAdd
  dsimp only
  split
  · exact RollOnly.trans (u := modSem s i _) (.of_parts rfl rfl) (rollOnly_addSem.trans rollOnly_grantSem)
  · exact rollOnly_raise

theorem rollOnly_doneAdd {flag : DoneFlag} : RollOnly s (doneAdd s p i flag) := by
  unfold doneAdd
  split
  · exact .refl s
  · exact rollOnly_engineAdd

theorem rollOnly_modThr {f : Thr → Thr} : RollOnly s (modThr s n t f) := .of_parts rfl rfl

theorem rollOnly_dropWait {w : WaitEnt} : RollOnly s (dropWait s w) :=
  RollOnly.trans (u := { s with rc.waits := eraseFirst (· == w) s.rc.waits }) (.of_parts rfl rfl) rollOnly_unreserve

theorem rollOnly_unblock {w : WaitEnt} : RollOnly s (unblock s w) := by
  unfold unblock
  split
  · exact rollOnly_grantSem
  · exact .refl s

theorem rollOnly_dropWaits {ws : List WaitEnt} : RollOnly s (dropWaits s ws) :=
  (rollOnly_forEach fun _ _ => rollOnly_dropWait).trans (rollOnly_forEach fun _ _ => rollOnly_unblock)

theorem rollOnly_grantBar : RollOnly s (grantBar s i) := rollOnly_forEach fun _ _ => rollOnly_grant

theorem rollOnly_bellWake : RollOnly s (bellWake s n t) := by
  unfold bellWake
  split
  · split
    · exact rollOnly_modThr
    · exact .refl s
  · exact .refl s

theorem rollOnly_unsuspend : RollOnly s (unsuspend s n t) := by
  unfold unsuspend
  dsimp only
  split
  · exact rollOnly_modThr
  · exact .refl s

theorem rollOnly_dropPcds : RollOnly s (dropPcds s c) := by
  refine rollOnly_forEach fun u r => ?_
  exact RollOnly.trans (u := modPrs u r _) (.of_parts rfl rfl) (rollOnly_forEach fun _ _ => rollOnly_doneAdd)

theorem rollOnly_quiesce : RollOnly s (quiesce s p c) := (rollOnly_forEach fun _ _ => rollOnly_modThr).trans rollOnly_dropPcds

theorem rollOnly_idleThread : RollOnly s (idleThread s n t) := by
  unfold idleThread
  dsimp only
  exact rollOnly_dropWaits.trans (.of_parts rfl rfl)

/-! ### Parked waits (R409) -/

theorem rollOnly_modCtx_parked {f : Ctx → Ctx} {o : List OutReq}
    (hf : ∀ x, f x = { x with holds := (f x).holds, parkWaits := (f x).parkWaits, parkGrants := (f x).parkGrants }) :
    RollOnly s (modCtx { s with rc.out := o } c f) := .of_ctx hf rfl rfl

/-- One of a context's waits is parked; one of PARTITION scope is withdrawn. -/
theorem rollOnly_parkWaits : RollOnly s (parkWaits s c) := by
  unfold parkWaits
  dsimp only
  refine RollOnly.trans (RollOnly.trans (rollOnly_forEach fun u w => ?_) (rollOnly_forEach fun _ _ => rollOnly_unblock))
    (rollOnly_modCtx_parked ?_)
  rotate_left
  · exact fun _ => rfl
  split
  · exact RollOnly.trans (u := unreserve u w.tok) rollOnly_unreserve (.of_parts rfl rfl)
  · exact .of_parts rfl rfl

/-- A wait that was withdrawn stands in the table again, and what it is on may grant. -/
theorem rollOnly_reentered {ws : List WaitEnt} {k : Nat} {b : Bool} :
    RollOnly s (if b then grantBar { s with rc.waits := ws } k else grantSem { s with rc.waits := ws } k) := by
  have h : RollOnly s { s with rc.waits := ws } := .of_parts rfl rfl
  cases b
  · exact h.trans rollOnly_grantSem
  · exact h.trans rollOnly_grantBar

theorem rollOnly_unparkWaits : RollOnly s (unparkWaits s c) := by
  unfold unparkWaits
  dsimp only
  refine RollOnly.trans (RollOnly.trans (RollOnly.trans (rollOnly_forEach fun u w => ?_) (rollOnly_forEach fun u w => ?_))
    (rollOnly_forEach fun u o => ?_)) (.of_ctx ?_ rfl rfl)
  rotate_left 3
  · exact fun _ => rfl
  · split
    · exact RollOnly.trans (u := { u with rc.waits := eraseFirst (· == w) u.rc.waits }) (.of_parts rfl rfl) rollOnly_answer
    · exact RollOnly.trans (u := { u with rc.waits := eraseFirst (· == w) u.rc.waits }) (.of_parts rfl rfl) rollOnly_answer
  · split
    · have reserve (v : State) : RollOnly v (if w.tok.op == .acquire && holdScope v w.tok.sem then
          holdFor v w.tok.ctx w.tok.sem (fun h => { h with reserved := h.reserved + 1 }) else v) := by
        split
        · exact .of_ctx (fun _ => rfl) rfl rfl
        · exact .refl v
      exact RollOnly.trans (u := { u with rc.waits := eraseFirst (· == w) u.rc.waits }) (.of_parts rfl rfl) ((reserve _).trans rollOnly_reentered)
    · exact .of_parts rfl rfl
  · split
    · split
      · exact .of_parts rfl rfl
      · exact .refl u
    · exact .of_parts rfl rfl

/-! ### Departures and returns (R401, R406, R408, R410) -/

theorem ptnRoll_modCtx {f : Ctx → Ctx} : PtnRoll s (modCtx s c f) := .of_ptn rfl

theorem ptnRoll_swapOut : PtnRoll s (swapOut s p c) :=
  ptnRoll_setCtxState.trans (ptnRoll_modCtx.trans (rollOnly_quiesce.trans rollOnly_parkWaits).roll)

theorem ptnRoll_leave : PtnRoll s (leave s p c) := by
  refine ptnRoll_modCtx.trans (rollOnly_quiesce.roll.trans (ptnRoll_forEach fun _ _ => .of_ptn ?_))
  rfl

theorem ptnRoll_restartCtx : PtnRoll s (restartCtx s p c) := by
  unfold restartCtx
  split
  · exact ptnRoll_modCtx.trans (ptnRoll_setCtxState.trans rollOnly_quiesce.roll)
  · exact ptnRoll_modCtx.trans (ptnRoll_setCtxState.trans rollOnly_quiesce.roll)
  · exact .refl s

theorem ptnRoll_enterCtx : PtnRoll s (enterCtx s p c) :=
  ptnRoll_setCtxState.trans (ptnRoll_modCtx.trans
    ((rollOnly_forEach fun _ _ => rollOnly_unsuspend).trans (rollOnly_unparkWaits.trans (rollOnly_forEach fun _ _ => rollOnly_bellWake))).roll)

/-- Recess processing changes contexts; of partitions it changes only what completed slots change (R405). -/
theorem ptnRoll_recess : PtnRoll s (recess s p) := by
  unfold recess
  dsimp only
  refine PtnRoll.trans (PtnRoll.trans (PtnRoll.trans (ptnRoll_forEach fun u c => ?_) (ptnRoll_forEach fun u c => ?_))
    (ptnRoll_forEach fun u c => ?_)) (ptnRoll_forEach fun u c => ?_)
  · split
    · exact ptnRoll_modCtx.trans ptnRoll_restartCtx
    · exact .refl u
  · split
    · split
      · exact ptnRoll_swapOut
      · split
        · exact ptnRoll_leave
        · exact .refl u
      · exact .refl u
    · exact .refl u
  · split
    · exact ptnRoll_modCtx
    · exact .refl u
  · split
    · exact ptnRoll_enterCtx
    · exact .refl u

/-! ### Recess points (R554, R555) -/

theorem ptnRoll_verifyStep {pl : Plan} {d : List Byte} : PtnRoll s (verifyStep s p c pl t d) := by
  unfold verifyStep
  split
  · exact .refl s
  split
  · exact .of_ptn rfl
  split
  · exact .of_ptn rfl
  · exact PtnRoll.trans (u := modSnp (raise s _ _) c _) (.of_ptn (raise_ptn ..)) ptnRoll_restartCtx

theorem rollOnly_store_modCore {f : Core → Core} {a : Nat} {bs : List Byte} : RollOnly s (store (modCore s n f) a bs) := .of_parts rfl rfl

/-- A write of memory changes no partition and no context; its fault is of the record only. -/
theorem rollOnly_writeAs {w : Issuer} {a : Place} {bs : List Byte} : RollOnly s (writeAs s w a bs) := by
  unfold writeAs
  dsimp only
  split
  · exact rollOnly_raise
  split
  · refine RollOnly.trans (rollOnly_forEach fun u x => ?_) rollOnly_store_modCore
    exact .of_parts rfl rfl
  · have k := writeKey_kept (key := accessKey s w a) (a := addrOf a) (bs := bs) (Kept.refl _ s) (Within.refl _)
    exact .of_parts (k.rest .ptn (by decide)) (k.rest .ctx (by decide))

theorem rollOnly_snpWrite {ga : Nat} {bs : List Byte} : RollOnly s (snpWrite s p c ga bs) := by
  unfold snpWrite
  split
  · exact rollOnly_writeAs
  · exact .refl s

theorem ptnRoll_writeDigest {pl : Plan} {bs : List PRun} : PtnRoll s (writeDigest s p c pl bs t) := by
  unfold writeDigest
  split
  · exact .refl s
  · exact ptnRoll_verifyStep.trans (rollOnly_snpWrite.roll.trans (.of_ptn rfl))

theorem ptnRoll_capture {pl : Plan} {bs : List PRun} : PtnRoll s (capture s p c pl bs t) := by
  unfold capture
  split
  · exact .of_ptn rfl
  · exact rollOnly_snpWrite.roll.trans (.of_ptn rfl)

theorem ptnRoll_trigger : PtnRoll s (trigger s p c) := by
  unfold trigger
  split
  · exact .of_ptn rfl
  split
  · exact .of_ptn rfl
  split
  · exact .of_ptn rfl
  · dsimp only
    split
    · exact ptnRoll_writeDigest.trans ptnRoll_capture
    · exact ptnRoll_writeDigest

theorem ptnRoll_recessPoint : PtnRoll s (recessPoint s p) := (ptnRoll_forEach fun _ _ => ptnRoll_trigger).trans ptnRoll_recess

end Sys2Proof.Machine
end


section
/-! SUPPORT and proof of O31. Slot starts, slot deadlines and Lesson boundaries. -/

namespace Sys2Proof.Machine

variable {s : State} {p i : Nat} {y : Timetable} {due : List (Nat × Nat × List Nat)} {o : OpenSlot}

/-! ### A slot's START (R267) -/

/-- The slot at its START Bell. -/
def startedSlot (t : Tt) (k : Slot) (i : Nat) : OpenSlot :=
  { idx := i, startB := t.bound + k.start, endB := t.bound + k.deadline, lesson := t.lesson }

/-- The Timetable with a slot opened. -/
def slotOpened (s : State) (p i : Nat) (y : Timetable) : State := modTt s p (fun t =>
  { t with curSlot := i, next := i + 1, open_ := t.open_ ++ [startedSlot (getPtn s p).tt (slotAt y i) i] })

theorem openSlot_eq : openSlot s p i y = slotSems (slotOpened s p i y) p (slotAt y i) := rfl

theorem slotWork_none (h : (slotAt y i).kind = .tutorial ∨ (slotAt y i).kind = .exchange) : slotWork s p i y due = s := by
  unfold slotWork
  rcases h with h | h <;> rw [h]

/-- DONE_SEM is zeroed (R267). -/
def doneZeroed (s : State) (k : Slot) : State :=
  if k.doneSem = 0xFFFF then s else modSem s k.doneSem (fun x => { x with value := 0 })

theorem slotSems_eq {k : Slot} : slotSems s p k = threadAdd (doneZeroed s k) p k.goSem := rfl

theorem doneZeroed_ptn {k : Slot} : (doneZeroed s k).ptn = s.ptn := by
  unfold doneZeroed
  split <;> rfl

theorem tt_slotSems {k : Slot} : SlotOnly (getPtn s p).tt (getPtn (slotSems s p k) p).tt :=
  (PtnRoll.trans (.of_ptn doneZeroed_ptn) rollOnly_threadAdd.roll).tt p

theorem nobodyWaits_doneZeroed {k : Slot} {j : Nat} (h : NobodyWaits s j) : NobodyWaits (doneZeroed s k) j := by
  unfold doneZeroed
  split
  · exact h
  · exact h

theorem getSem_doneZeroed {k : Slot} (h : k.doneSem ≠ 0xFFFF) :
    getSem (doneZeroed s k) k.doneSem = { getSem s k.doneSem with value := 0 } := by
  rw [doneZeroed, if_neg h, getSem_modSem]

theorem getSem_doneZeroed_other {k : Slot} {j : Nat} (h : j ≠ k.doneSem) : getSem (doneZeroed s k) j = getSem s j := by
  unfold doneZeroed
  split
  · rfl
  · exact getSem_modSem_other s _ h

/-- An increment that nobody waits for is only that. -/
theorem threadAdd_nobody {j : Nat} (hn : NobodyWaits s j) : threadAdd s p j = s ∨ (∃ c a, threadAdd s p j = raise s c a)
    ∨ threadAdd s p j = addSem s j 1 := by
  unfold threadAdd
  dsimp only
  split
  · exact .inl rfl
  split
  · rw [grantSem_of_nobody (hn.of_waits waits_addSem)]
    exact .inr (.inr rfl)
  · exact .inr (.inl ⟨_, _, rfl⟩)

theorem getSem_threadAdd_other {j k : Nat} (hn : NobodyWaits s j) (h : k ≠ j) : getSem (threadAdd s p j) k = getSem s k := by
  rcases threadAdd_nobody (p := p) hn with e | ⟨c, a, e⟩ | e
  · rw [e]
  · rw [e]
    exact getSem_of_rc (raise_rc ..)
  · rw [e]
    exact onlySem_addSem.1 k h

theorem value_threadAdd {j : Nat} (hn : NobodyWaits s j) (hj : j ≠ 0xFFFF) (ha : (getSem s j).alloc = true) (hp : (getSem s j).ptn = p) :
    (getSem (threadAdd s p j) j).value = min ((getSem s j).value + 1) 0xFFFFFFFF := by
  unfold threadAdd
  dsimp only
  rw [if_neg hj, if_pos (by simp [ha, hp]), grantSem_of_nobody (hn.of_waits waits_addSem), value_addSem]

section Start

variable (hy : ttOf s p = some y)
include hy

theorem exec_slotStart (hc : counting s = true) (hs : (getPtn s p).tt.state = .running) (hl : (getPtn s p).tt.inLesson = true)
    (hn : (getPtn s p).tt.noRelease = false) (hx : (getPtn s p).tt.next = i) (hi : i < y.slots.length)
    (hb : (getPtn s p).tt.bound + (slotAt y i).start ≤ s.bell.count) (hr : (getPtn s p).tt.resumeAt.getD 0 ≤ s.bell.count)
    (hk : (slotAt y i).kind = .tutorial ∨ (slotAt y i).kind = .exchange) :
    exec (.slotStart p i due) s = .next (slotSems (slotOpened s p i y) p (slotAt y i)) := by
  rw [← openSlot_eq]
  refine congrArg Host.Outcome.next ?_
  dsimp only
  rw [hy]
  dsimp only
  rw [slotWork_none hk]
  exact if_pos (by simp [hs, hl, hn, hx, hi, hc, hb, hr])

end Start

theorem tt_slotOpened : (getPtn (slotOpened s p i y) p).tt = { (getPtn s p).tt with
    curSlot := i, next := i + 1, open_ := (getPtn s p).tt.open_ ++ [startedSlot (getPtn s p).tt (slotAt y i) i] } := getPtn_modTt ..

/-! ### A slot's DEADLINE (R268, R276) -/

/-- A slot closes. -/
def slotClosed (s : State) (p : Nat) (o : OpenSlot) : State :=
  modTt s p (fun t => { t with open_ := eraseFirst (fun x => x.idx == o.idx && x.endB == o.endB) t.open_ })

theorem ttOf_judgeSlots : ttOf (judgeSlots s p) p = ttOf s p := by
  rw [ttOf, ttOf, ptnRoll_judgeSlots.ptn]

/-- Judging the slots changes partitions alone. -/
theorem judgeSlots_frame : judgeSlots s p = { s with ptn := (judgeSlots s p).ptn } :=
  (judgeSlots_kept (p := p) (Kept.refl [.ptn] s) (Within.refl _)).frame

section Deadline

variable (hy : ttOf s p = some y) (hc : counting s = true)
  (ho : (getPtn (judgeSlots s p) p).tt.open_.find? (fun o => o.idx == i) = some o)
  (he : o.endB ≤ s.bell.count) (hk : (slotAt y i).kind ≠ .quiz)

include ho in
theorem idx_of_find : o.idx = i := by simpa using List.find?_some ho

include hy hc ho he in
theorem exec_slotDeadline : exec (.slotDeadline p i) s = .next (slotDeadline (judgeSlots s p) p y o) := by
  refine congrArg Host.Outcome.next ?_
  dsimp only
  rw [ttOf_judgeSlots, hy, ho]
  refine if_pos ?_
  have hf := judgeSlots_frame (s := s) (p := p)
  have hb : (judgeSlots s p).bell = s.bell := by rw [hf]
  have hc' : counting (judgeSlots s p) = true := by rw [counting, hb]; exact hc
  simp [hc', hb, he]

include hk in
theorem slotDeadline_closed (hi : o.idx = i) (hd : o.done = true) (hr : slotRecess y o = false) :
    slotDeadline s p y o = slotClosed s p o := by
  subst hi
  unfold slotDeadline
  dsimp only
  rw [if_neg (by simpa using hk), if_pos hd, hr]
  rfl

include hk in
theorem slotDeadline_overrun (hi : o.idx = i) (hd : o.done = false) (hn : stampOf o.endB 0 < now s) :
    slotDeadline s p y o = overrun (slotClosed s p o) p o := by
  subst hi
  unfold slotDeadline
  dsimp only
  rw [if_neg (by simpa using hk), if_neg (by simp [hd]), if_pos hn]
  rfl

end Deadline

/-- The overrun of a slot is recorded (R276). -/
def overrunCounted (s : State) (p : Nat) (o : OpenSlot) : State :=
  modTt (raise s .slotOverrun { kind := .module, ptn := p, detail := [BitVec.ofNat 8 o.idx] }) p
    (fun t => { t with overruns := satInc 16 t.overruns, lastSlot := o.idx })

theorem tt_overrunCounted : (getPtn (overrunCounted s p o) p).tt =
    { (getPtn s p).tt with overruns := satInc 16 (getPtn s p).tt.overruns, lastSlot := o.idx } := by
  rw [overrunCounted, getPtn_modTt]
  have h (c : FaultCode) (a : FaultAt) : getPtn (raise s c a) p = getPtn s p := congrArg (tget default · p) (raise_ptn ..)
  rw [h]

/-- A Timetable under its policy (R277, R278). -/
def policyTaken (y : Timetable) (o : OpenSlot) (t : Tt) : Tt := { t with
  acted := some o.lesson, noRelease := true, aborted := y.abortPolicy, overrunSlot := if y.abortPolicy then none else some o.idx }

theorem overrun_eq (hy : ttOf s p = some y) : overrun s p o =
    if (getPtn s p).tt.acted == some o.lesson || (getPtn s p).tt.state != .running || (getPtn s p).tt.noRelease
    then overrunCounted s p o else heldIfDone (modTt (overrunCounted s p o) p (policyTaken y o)) p := by
  have hy' : ttOf (overrunCounted s p o) p = some y := by
    rw [← hy, overrunCounted, ttOf_modTt, ttOf, ttOf]
    exact congrArg (fun q : Ptn => q.syl.map PtnSyl.tt) (congrArg (tget default · p) (raise_ptn ..))
  have ht := tt_overrunCounted (s := s) (p := p) (o := o)
  unfold overrun
  dsimp only
  rw [← overrunCounted, hy', ht]
  rfl

theorem heldIfDone_frame : heldIfDone s p = { s with ptn := (heldIfDone s p).ptn } :=
  (heldIfDone_kept (p := p) (Kept.refl [.ptn] s) (Within.refl _)).frame

theorem modTt_frame {f : Tt → Tt} : modTt s p f = { s with ptn := (modTt s p f).ptn } := rfl

/-- What an overrun raises, and what it leaves (R276). -/
theorem overrun_parts (hy : ttOf s p = some y) : (overrun s p o).int.lastCode = FaultCode.slotOverrun.code
    ∧ (overrun s p o).core = s.core ∧ (overrun s p o).prs = s.prs := by
  have hc : (overrunCounted s p o).int.lastCode = FaultCode.slotOverrun.code
      ∧ (overrunCounted s p o).core = s.core ∧ (overrunCounted s p o).prs = s.prs :=
    ⟨(raise_spec ..).1, raise_core .., raise_prs ..⟩
  rw [overrun_eq hy]
  split
  · exact hc
  · rw [heldIfDone_frame]
    exact hc

theorem tt_overrun_acted (hy : ttOf s p = some y) (h : (getPtn s p).tt.acted = some o.lesson) : (getPtn (overrun s p o) p).tt =
    { (getPtn s p).tt with overruns := satInc 16 (getPtn s p).tt.overruns, lastSlot := o.idx } := by
  rw [overrun_eq hy, if_pos (by simp [h]), tt_overrunCounted]

theorem tt_overrun (hy : ttOf s p = some y) : (getPtn (overrun s p o) p).tt.overruns = satInc 16 (getPtn s p).tt.overruns
    ∧ (getPtn (overrun s p o) p).tt.lastSlot = o.idx := by
  rw [overrun_eq hy]
  split
  · rw [tt_overrunCounted]
    exact ⟨rfl, rfl⟩
  · rw [(ptnRoll_heldIfDone.tt p).same, getPtn_modTt, tt_overrunCounted]
    exact ⟨rfl, rfl⟩

theorem tt_overrun_policy (hy : ttOf s p = some y) (hs : (getPtn s p).tt.state = .running) (hn : (getPtn s p).tt.noRelease = false)
    (ha : (getPtn s p).tt.acted ≠ some o.lesson) : (getPtn (overrun s p o) p).tt.noRelease = true
      ∧ (getPtn (overrun s p o) p).tt.acted = some o.lesson ∧ (getPtn (overrun s p o) p).tt.aborted = y.abortPolicy := by
  rw [overrun_eq hy, if_neg (by simp [hs, hn, ha]), (ptnRoll_heldIfDone.tt p).same, getPtn_modTt]
  exact ⟨rfl, rfl, rfl⟩

/-! ### Lesson boundaries (R262, R278, R282, R399) -/

theorem ptnRoll_boundaryRecess : PtnRoll s (boundaryRecess s p) := by
  refine PtnRoll.trans (ptnRoll_forEach fun u c => ?_) ptnRoll_recessPoint
  split
  · exact ptnRoll_modCtx
  · exact .refl u

/-- A Timetable at the beginning of its next Lesson (R262). -/
def lessonBegun (y : Timetable) (t : Tt) : Tt := { t with
  bound := nextBoundary t y, lesson := wrap 64 (t.lesson + 1), next := 0, inLesson := true, noRelease := false
  aborted := false, settled := false, overrunSlot := none, resumeAt := none, resumedOn := none }

theorem tt_powerRecheck {q : Nat} : (getPtn (powerRecheck s p y) q).tt = (getPtn s q).tt := by
  have hm : (getPtn (modPtn s p (fun q => { q with recheck := false })) q).tt = (getPtn s q).tt := by
    by_cases h : q = p
    · subst h
      rw [getPtn_modPtn]
    · rw [getPtn_modPtn_other (h := h)]
  unfold powerRecheck
  split
  · rfl
  · dsimp only
    split
    · split
      · rw [getPtn, raise_ptn]
        exact hm
      · exact hm
    · exact hm

theorem tt_beginLesson : SlotOnly (lessonBegun y (getPtn s p).tt) (getPtn (beginLesson s p y) p).tt := by
  have hb : ∀ u, (getPtn u p).tt = lessonBegun y (getPtn s p).tt →
      SlotOnly (lessonBegun y (getPtn s p).tt) (getPtn (boundaryRecess (powerRecheck u p y) p) p).tt := fun u h => by
    have h' := ptnRoll_boundaryRecess (s := powerRecheck u p y) (p := p) |>.tt p
    rwa [tt_powerRecheck, h] at h'
  refine hb _ ?_
  show (getPtn (clearSubFlags (forEach _ _ _) p) p).tt = _
  rw [getPtn, clearSubFlags, forEach_proj (π := State.ptn)]
  · rw [← getPtn, getPtn_modPtn, getPtn_modTt]
    rfl
  · intro _ _
    rfl

section Boundary

variable (hy : ttOf s p = some y)
include hy

theorem exec_lessonBoundary (hs : (getPtn s p).tt.state = .running ∨ (getPtn s p).tt.state = .stopping) (hc : counting s = true)
    (hb : nextBoundary (getPtn s p).tt y ≤ s.bell.count) (hr : (getPtn s p).tt.resumedOn ≠ some s.bell.count) :
    exec (.lessonBoundary p) s = .next (lessonBoundary s p y) := by
  refine congrArg Host.Outcome.next ?_
  dsimp only
  rw [hy]
  exact if_pos (by rcases hs with hs | hs <;> simp [hs, hc, hb, hr])

theorem exec_lessonBoundary_early (h : s.bell.count < nextBoundary (getPtn s p).tt y ∨ (getPtn s p).tt.resumedOn = some s.bell.count) :
    exec (.lessonBoundary p) s = .next s := by
  refine congrArg Host.Outcome.next ?_
  dsimp only
  rw [hy]
  exact if_neg (by rcases h with h | h <;> simp [h])

end Boundary

theorem settled_of_not_aborted (ha : (getPtn s p).tt.aborted = false) :
    (if (getPtn s p).tt.aborted && !(getPtn s p).tt.settled then settleAbort s p else s) = s := if_neg (by simp [ha])

section Running

variable (hs : (getPtn s p).tt.state = .running)
include hs

theorem lessonBoundary_skipped (ha : (getPtn s p).tt.aborted = true) (hr : ptnRunning s p = true) : lessonBoundary s p y =
    modTt s p (fun t => { t with bound := nextBoundary t y, skipped := satInc 32 t.skipped }) := by
  unfold lessonBoundary
  dsimp only
  rw [if_neg (by simp [hs]), if_neg (by simp [ha]), if_pos (by simp [ha, hr])]

variable (hn : (getPtn s p).tt.noRelease = false) (ha : (getPtn s p).tt.aborted = false) (hrep : boundaryRepairs (ceRepairs s) p = s)
include hn ha hrep

theorem lessonBoundary_active (h : (getPtn s p).state = .active) : lessonBoundary s p y = beginLesson s p y := by
  unfold lessonBoundary
  dsimp only
  rw [if_neg (by simp [hs]), if_neg (by simp [hn]), if_neg (by simp [ha]), settled_of_not_aborted ha, hrep, if_neg (by simp [h])]

theorem lessonBoundary_held (h : (getPtn s p).state = .held) : lessonBoundary s p y = boundaryRecess (modTt s p (fun t => { t with
    state := .held, next := 255, noRelease := false, aborted := false, settled := false })) p := by
  unfold lessonBoundary
  dsimp only
  rw [if_neg (by simp [hs]), if_neg (by simp [hn]), if_neg (by simp [ha]), settled_of_not_aborted ha, hrep, if_pos (by simp [h])]

end Running

theorem tt_endTt : (getPtn (endTt s p) p).tt.noRelease = false ∧ (getPtn (endTt s p) p).tt.state = .idle := by
  rw [endTt, getPtn_modTt]
  exact ⟨rfl, rfl⟩

theorem lessonBoundary_stopping (hs : (getPtn s p).tt.state = .stopping) (hn : (getPtn s p).tt.noRelease = false) :
    lessonBoundary s p y = boundaryRecess (endTt (boundaryRepairs (ceRepairs s) p) p) p := by
  unfold lessonBoundary
  dsimp only
  rw [if_pos (by simp [hs]), if_neg (by simp [hn])]

/-- Settles O31. -/
theorem slotsAndLessons : Obligations.SlotsAndLessons := by
  refine ⟨fun s p i y hy hc => ⟨?_, fun o ho he hk => ⟨fun hd hr => ?_, fun hd hn => ?_⟩⟩, fun s p y hy hc => ⟨fun hb hr => ⟨?_, ?_, ?_⟩, ?_⟩⟩
  · intro due hs hl hn hx hi hb hr hk
    have hto := tt_slotSems (s := slotOpened s p i y) (p := p) (k := slotAt y i)
    refine .of_next (exec_slotStart hy hc hs hl hn hx hi hb hr hk) ⟨?_, ?_, ?_, fun hw hd hne => ?_, fun hw hg hne ha hp => ?_⟩
    · rw [hto.same, tt_slotOpened]
    · rw [hto.same, tt_slotOpened]
    · obtain ⟨o', ho', hi', hs', he'⟩ := hto.kept (startedSlot (getPtn s p).tt (slotAt y i) i) (by
        rw [tt_slotOpened]
        exact List.mem_append_right _ (List.mem_singleton_self _))
      exact ⟨o', ho', hi', hs', he'⟩
    · rw [slotSems_eq, getSem_threadAdd_other (nobodyWaits_doneZeroed (s := slotOpened s p i y) hw) hne, getSem_doneZeroed hd]
    · have hgo : getSem (doneZeroed (slotOpened s p i y) (slotAt y i)) (slotAt y i).goSem = getSem s (slotAt y i).goSem :=
        getSem_doneZeroed_other hne.symm
      rw [slotSems_eq, value_threadAdd (nobodyWaits_doneZeroed (s := slotOpened s p i y) hw) hg (by rw [hgo]; exact ha) (by rw [hgo]; exact hp), hgo]
  · have hi := idx_of_find ho
    refine .of_eq (exec_slotDeadline hy hc ho he) (slotDeadline_closed hk hi hd hr) ⟨?_, ?_⟩
    · rw [slotClosed, getPtn_modTt, hi]
    · rw [slotClosed, modTt_frame, judgeSlots_frame]
  · have hi := idx_of_find ho
    have hy' : ttOf (slotClosed (judgeSlots s p) p o) p = some y := ttOf_modTt.trans (ttOf_judgeSlots.trans hy)
    have hn' : stampOf o.endB 0 < now (judgeSlots s p) := by
      rw [judgeSlots_frame]
      exact hn
    have ht : (getPtn (slotClosed (judgeSlots s p) p o) p).tt = _ := getPtn_modTt ..
    obtain ⟨hcode, hcore, hprs⟩ := overrun_parts (o := o) hy'
    refine .of_eq (exec_slotDeadline hy hc ho he) (slotDeadline_overrun hk hi hd hn') ⟨?_, ?_, hcode, ?_, ?_, fun hs hn ha => ?_, fun ha => ?_⟩
    · rw [(tt_overrun hy').1, ht]
      rfl
    · rw [(tt_overrun hy').2, hi]
    · rw [hcore, slotClosed, modTt_frame, judgeSlots_frame]
    · rw [hprs, slotClosed, modTt_frame, judgeSlots_frame]
    · exact tt_overrun_policy hy' (by rw [ht]; exact hs) (by rw [ht]; exact hn) (by rw [ht]; exact ha)
    · rw [tt_overrun_acted hy' (by rw [ht]; exact ha), ht]
      exact ⟨rfl, rfl⟩
  · refine fun hs hn ha hrep => ⟨fun h => ?_, fun h => ?_⟩
    · refine .of_eq (exec_lessonBoundary hy (.inl hs) hc hb hr) (lessonBoundary_active hs hn ha hrep h) ?_
      have hto := tt_beginLesson (s := s) (p := p) (y := y)
      rw [hto.same, hto.state (.inl rfl)]
      exact ⟨hs, rfl, rfl, rfl, rfl⟩
    · refine .of_eq (exec_lessonBoundary hy (.inl hs) hc hb hr) (lessonBoundary_held hs hn ha hrep h) ?_
      have hto := (ptnRoll_boundaryRecess (p := p) (s := modTt s p (fun t => { t with
        state := .held, next := 255, noRelease := false, aborted := false, settled := false }))).tt p
      rw [getPtn_modTt] at hto
      rw [hto.same, hto.state (.inl rfl)]
      exact ⟨rfl, rfl⟩
  · intro hs hn
    refine .of_eq (exec_lessonBoundary hy (.inr hs) hc hb hr) (lessonBoundary_stopping hs hn) ?_
    have hto := (ptnRoll_boundaryRecess (p := p) (s := endTt (boundaryRepairs (ceRepairs s) p) p)).tt p
    exact (hto.state (.inl tt_endTt.1)).trans tt_endTt.2
  · intro hs ha hrun
    refine .of_eq (exec_lessonBoundary hy (.inl hs) hc hb hr) (lessonBoundary_skipped hs ha hrun) ?_
    rw [getPtn_modTt]
    rfl
  · exact exec_lessonBoundary_early hy

end Sys2Proof.Machine
end


section
/-! SUPPORT and proof of O32. Context commands. -/

namespace Sys2Proof.Machine

variable {s u : State} {who : Req} {p c seat op st : Nat} {k : Instr}

/-! ### The command word (R422) -/

/-- The fields of PTN_CTX_CMD read back. -/
theorem bits_ctxCmdWord (hc : c < 4096) (hs : seat < 64) (ho : op < 16) : bits (ctxCmdWord c seat op) 16 12 = c
    ∧ bits (ctxCmdWord c seat op) 4 6 = seat ∧ bits (ctxCmdWord c seat op) 0 4 = op
    ∧ bits (ctxCmdWord c seat op) 28 4 = 0 ∧ bits (ctxCmdWord c seat op) 10 6 = 0 := by
  have h : ctxCmdWord c seat op = c * 65536 + seat * 16 + op := by
    simp only [ctxCmdWord, Nat.shiftLeft_eq, Nat.mod_eq_of_lt hc, Nat.mod_eq_of_lt hs, Nat.mod_eq_of_lt ho]
  simp only [bits, h, Nat.shiftRight_eq_div_pow]
  omega

/-- A context command within its requester's rights is its operation, answered in PTN_RESULT. -/
theorem ctxRow_eq (hm : mayPtn s who p = true) (hc : c < 4096) (hs : seat < 64) (ho : op < 16) :
    ctxRow s who p c seat op = ptnResult (ptnCtxOp s p c seat op).1 p c (ptnCtxOp s p c seat op).2 := by
  obtain ⟨bc, bs, bo, b28, b10⟩ := bits_ctxCmdWord hc hs ho
  rw [ctxRow, if_pos hm, ptnCtxCmd, bc, bs, bo, b28, b10]
  rfl

theorem getPtn_ptnResult {x : Nat} :
    getPtn (ptnResult s p x st) p = { getPtn s p with done := true, busy := false, resCtx := x, resStatus := st } := getPtn_modPtn ..

section Own

variable (h : ptnOfCtx s c = some p)
include h

theorem ptnCtxOp_attach : ptnCtxOp s p c seat 1 = attachOp s p c seat := (if_neg (by decide)).trans (if_neg (not_not.2 h))
theorem ptnCtxOp_preempt : ptnCtxOp s p c seat 2 = preemptOp s p c := (if_neg (by decide)).trans (if_neg (not_not.2 h))
theorem ptnCtxOp_resume : ptnCtxOp s p c seat 3 = resumeOp s p c seat := (if_neg (by decide)).trans (if_neg (not_not.2 h))
theorem ptnCtxOp_detach : ptnCtxOp s p c seat 4 = detachOp s p c := (if_neg (by decide)).trans (if_neg (not_not.2 h))
theorem ptnCtxOp_cancel : ptnCtxOp s p c seat 5 = cancelOp s c := (if_neg (by decide)).trans (if_neg (not_not.2 h))
theorem ptnCtxOp_rebind : ptnCtxOp s p c seat 6 = rebindOp s p c seat := (if_neg (by decide)).trans (if_neg (not_not.2 h))

end Own

theorem ptnCtxOp_foreign (h : ptnOfCtx s c ≠ some p) (h0 : op ≠ 0) (h7 : op < 7) : ptnCtxOp s p c seat op = (s, 2) :=
  (if_neg (by omega)).trans (if_pos h)

/-- A command that is its operation is answered with the operation's status. -/
theorem CtxAnswered.of_op {P : Ctx → Prop} (hk : exec k s = .next (ctxRow s who p c seat op)) (hm : mayPtn s who p = true)
    (hc : c < 4096) (hs : seat < 64) (ho : op < 16) (e : ptnCtxOp s p c seat op = (u, st)) (hP : P (getCtx u c)) :
    CtxAnswered s k p c st P := by
  refine ⟨_, hk.trans (congrArg Host.Outcome.next (ctxRow_eq hm hc hs ho)), ?_⟩
  rw [e]
  dsimp only
  rw [getPtn_ptnResult]
  exact ⟨hP, rfl, rfl, rfl⟩

/-! ### A pending change (R401) -/

theorem getCtx_pendCtx {x : CtxState} : (getCtx (pendCtx s c seat x) c).state = x ∧ (getCtx (pendCtx s c seat x) c).reqSeat = seat
    ∧ (getCtx (pendCtx s c seat x) c).cmdStamp = now s := by
  rw [pendCtx, getCtx_setCtxState, getCtx_modCtx]
  exact ⟨rfl, rfl, rfl⟩

section Up

variable (hu : ptnUp s p = true) (hr : restoring s c = false)

section Seat

variable (hs : seatOk s p seat = true)
include hu hr hs

theorem attachOp_keyed (h : (getCtx s c).state = .keyed) : attachOp s p c seat = (pendCtx s c seat .attaching, 0) := by
  refine (if_neg (by simp [hu, hr])).trans ((if_neg (by simp [hs])).trans ?_)
  simp only [h]
  rfl

theorem attachOp_queued (h : (getCtx s c).state = .detaching ∨ (getCtx s c).state = .scrubbing) :
    attachOp s p c seat = (modCtx s c (fun x => { x with enableQ := x.enableQ ++ [.attach seat] }), 7) := by
  refine (if_neg (by simp [hu, hr])).trans ((if_neg (by simp [hs])).trans ?_)
  rcases h with h | h <;> (simp only [h]; rfl)

theorem attachOp_badState (h : (getCtx s c).state ∉ [.keyed, .detaching, .scrubbing]) : attachOp s p c seat = (s, 1) := by
  refine (if_neg (by simp [hu, hr])).trans ((if_neg (by simp [hs])).trans ?_)
  generalize (getCtx s c).state = x at h ⊢
  cases x <;> first | rfl | simp at h

theorem resumeOp_ok (h : (getCtx s c).state = .swapped ∨ ((getCtx s c).state = .restart ∧ (getCtx s c).restored = true)) :
    resumeOp s p c seat = (pendCtx s c seat .resuming, 0) := by
  refine (if_neg (by simp [hu, hr])).trans ((if_neg (by simp [hs])).trans ?_)
  rcases h with h | ⟨h, hx⟩
  · simp only [h]
    rfl
  · simp only [h]
    exact if_pos hx

theorem resumeOp_notRestored (h : (getCtx s c).state = .restart) (hx : (getCtx s c).restored = false) : resumeOp s p c seat = (s, 4) := by
  refine (if_neg (by simp [hu, hr])).trans ((if_neg (by simp [hs])).trans ?_)
  simp only [h]
  exact if_neg (by simp [hx])

theorem resumeOp_badState (h : (getCtx s c).state ∉ [.swapped, .restart]) : resumeOp s p c seat = (s, 1) := by
  refine (if_neg (by simp [hu, hr])).trans ((if_neg (by simp [hs])).trans ?_)
  generalize (getCtx s c).state = x at h ⊢
  cases x <;> first | rfl | simp at h

omit hr

theorem rebindOp_running (h : (getCtx s c).state = .running) :
    rebindOp s p c seat = (modCtx s c (fun x => { x with reqSeat := seat, rebind := true }), 0) := by
  rw [rebindOp, if_neg (by simp [hu]), if_neg (by simp [hs]), if_pos h]
  rfl

theorem rebindOp_badState (h : (getCtx s c).state ≠ .running) : rebindOp s p c seat = (s, 1) := by
  rw [rebindOp, if_neg (by simp [hu]), if_neg (by simp [hs]), if_neg h]
  rfl

end Seat

section NoSeat

variable (hs : seatOk s p seat = false)
include hu hs

include hr in
theorem attachOp_badSeat : attachOp s p c seat = (s, 3) := by
  rw [attachOp, if_neg (by simp [hu, hr]), if_pos (by simp [hs])]
  rfl

include hr in
theorem resumeOp_badSeat : resumeOp s p c seat = (s, 3) := by
  rw [resumeOp, if_neg (by simp [hu, hr]), if_pos (by simp [hs])]
  rfl

theorem rebindOp_badSeat : rebindOp s p c seat = (s, 3) := by
  rw [rebindOp, if_neg (by simp [hu]), if_pos (by simp [hs])]
  rfl

end NoSeat

section Leaves

include hu

theorem preemptOp_running (h : (getCtx s c).state = .running) :
    preemptOp s p c = (setCtxState (modCtx s c (fun x => { x with regPend := true, rebind := false })) c .preempting, 0) :=
  if_pos (by simp [hu, h])

theorem preemptOp_badState (h : (getCtx s c).state ≠ .running) : preemptOp s p c = (s, 1) := if_neg (by simp [hu, h])

theorem not_teardown_of_up : (getPtn s p).state ≠ .teardown := by
  intro h
  simp [ptnUp, h] at hu

theorem detachOp_gone (h : (getCtx s c).state ∈ [.free, .scrubbing]) : detachOp s p c = (s, 1) := by
  rw [detachOp, if_neg (not_teardown_of_up hu), if_neg (by simp [hu])]
  rcases List.mem_cons.1 h with h | h
  · rw [h]
    rfl
  · rw [List.mem_singleton.1 h]
    rfl

theorem detachOp_there (h : (getCtx s c).state ∉ [.free, .scrubbing]) : detachOp s p c = (detach s p c, 0) := by
  rw [detachOp, if_neg (not_teardown_of_up hu), if_neg (by simp [hu])]
  generalize (getCtx s c).state = x at h
  cases x <;> first | rfl | simp at h

end Leaves

/-! ### DETACH (R401, R410) -/

section Detach

include hr

theorem stopRestore_none : stopRestore s c = s := if_neg (by simp [hr])

theorem detach_running (h : (getCtx s c).state = .running) : detach s p c =
    setCtxState (modCtx s c (fun x => { x with stay := true, regPend := true, rebind := false })) c .detaching := by
  rw [detach, stopRestore_none hr, h]

theorem detach_preempting (h : (getCtx s c).state = .preempting) : detach s p c =
    setCtxState (modCtx s c (fun x => { x with stay := true })) c .detaching := by
  rw [detach, stopRestore_none hr, h]

theorem detach_away (h : (getCtx s c).state ∈ [.keyed, .attaching, .swapped, .resuming, .restart]) :
    detach s p c = leave (setCtxState s c .detaching) p c := by
  rw [detach, stopRestore_none hr]
  generalize (getCtx s c).state = x at h
  cases x <;> first | rfl | simp at h

end Detach

end Up

theorem now_setCtxState {x : CtxState} : now (setCtxState s c x) = now s :=
  now_of_bell ((setCtxState_kept (Kept.refl _ s) (Within.refl _)).rest .bell (by decide))

/-- A context that leaves keeps its STATE; its quiet period starts now (R410). -/
theorem getCtx_leave : (getCtx (leave s p c) c).state = (getCtx s c).state ∧ (getCtx (leave s p c) c).stay = false
    ∧ (getCtx (leave s p c) c).quietSince = some (now s) := by
  have h : ∀ u, getCtx (forEach (bufsOf u c) (fun s b => modBuf s b (fun x => { x with closing := true })) u) c = getCtx u c := by
    refine fun u => getCtx_of_ctx ?_
    rw [forEach_proj (π := State.ctx)]
    intro _ _
    rfl
  unfold leave
  dsimp only
  rw [h, rollOnly_quiesce.ctx, getCtx_modCtx]
  exact ⟨rfl, rfl, rfl⟩

/-! ### CANCEL (R401) -/

theorem cancelOp_attaching (h : (getCtx s c).state = .attaching) : cancelOp s c = (setCtxState s c .keyed, 0) := by
  rw [cancelOp, h]
  rfl

theorem cancelOp_preempting (h : (getCtx s c).state = .preempting) :
    cancelOp s c = (setCtxState (modCtx s c (fun x => { x with bound := 0, regPend := false })) c .running, 0) := by
  rw [cancelOp, h]
  rfl

theorem cancelOp_resuming (h : (getCtx s c).state = .resuming) : cancelOp s c = (setCtxState s c .swapped, 0) := by
  rw [cancelOp, h]
  rfl

theorem cancelOp_badState (h : (getCtx s c).state ∉ [.attaching, .preempting, .resuming]) : cancelOp s c = (s, 1) := by
  rw [cancelOp]
  generalize (getCtx s c).state = x at h
  cases x <;> first | rfl | simp at h

theorem foreign_answered (hm : mayPtn s who p = true) (hc : c < 4096) (hs : seat < 64) (ho : op ≠ 0) (h7 : op < 7)
    (h : ptnOfCtx s c ≠ some p) (hk : exec k s = .next (ctxRow s who p c seat op)) :
    Completes k s (fun u => u.ctx = s.ctx ∧ (getPtn u p).resStatus = 2 ∧ (getPtn u p).state = (getPtn s p).state) := by
  refine .of_eq hk (ctxRow_eq hm hc hs (by omega)) ?_
  rw [ptnCtxOp_foreign h ho h7]
  dsimp only
  rw [getPtn_ptnResult]
  exact ⟨rfl, rfl, rfl⟩

/-- Settles O32. -/
theorem contextCommands : Obligations.ContextCommands := by
  refine ⟨fun s who p c seat hm hc hs ho hu hr => ?_, fun s who p c seat hm hc hs h => ?_⟩
  · have attach {u : State} {st : Nat} {P : Ctx → Prop} (e : attachOp s p c seat = (u, st)) (hP : P (getCtx u c)) :
        CtxAnswered s (.attach who p c seat) p c st P := .of_op rfl hm hc hs (by decide) ((ptnCtxOp_attach ho).trans e) hP
    have resume {u : State} {st : Nat} {P : Ctx → Prop} (e : resumeOp s p c seat = (u, st)) (hP : P (getCtx u c)) :
        CtxAnswered s (.resume who p c seat) p c st P := .of_op rfl hm hc hs (by decide) ((ptnCtxOp_resume ho).trans e) hP
    have rebind {u : State} {st : Nat} {P : Ctx → Prop} (e : rebindOp s p c seat = (u, st)) (hP : P (getCtx u c)) :
        CtxAnswered s (.rebind who p c seat) p c st P := .of_op rfl hm hc hs (by decide) ((ptnCtxOp_rebind ho).trans e) hP
    have preempt {u : State} {st : Nat} {P : Ctx → Prop} (e : preemptOp s p c = (u, st)) (hP : P (getCtx u c)) :
        CtxAnswered s (.preempt who p c) p c st P := .of_op rfl hm hc (by decide) (by decide) ((ptnCtxOp_preempt ho).trans e) hP
    have detach {u : State} {st : Nat} {P : Ctx → Prop} (e : detachOp s p c = (u, st)) (hP : P (getCtx u c)) :
        CtxAnswered s (.detach who p c) p c st P := .of_op rfl hm hc (by decide) (by decide) ((ptnCtxOp_detach ho).trans e) hP
    have cancel {u : State} {st : Nat} {P : Ctx → Prop} (e : cancelOp s c = (u, st)) (hP : P (getCtx u c)) :
        CtxAnswered s (.ctxCancel who p c) p c st P := .of_op rfl hm hc (by decide) (by decide) ((ptnCtxOp_cancel ho).trans e) hP
    refine ⟨fun ok => ⟨fun h => attach (attachOp_keyed hu hr ok h) getCtx_pendCtx, fun h => attach (attachOp_queued hu hr ok h) ?_,
      fun h => attach (attachOp_badState hu hr ok h) rfl, fun h => resume (resumeOp_ok hu hr ok h) getCtx_pendCtx,
      fun h hx => resume (resumeOp_notRestored hu hr ok h hx) rfl, fun h => resume (resumeOp_badState hu hr ok h) rfl,
      fun h => rebind (rebindOp_running hu ok h) ?_, fun h => rebind (rebindOp_badState hu ok h) rfl⟩, fun no k hk => ?_,
      fun h => preempt (preemptOp_running hu h) ?_, fun h => preempt (preemptOp_badState hu h) rfl, fun h => ?_, fun h => ?_,
      fun h => ?_, fun h => detach (detachOp_gone hu h) rfl, fun h => cancel (cancelOp_attaching h) ?_,
      fun h => cancel (cancelOp_preempting h) ?_, fun h => cancel (cancelOp_resuming h) ?_, fun h => cancel (cancelOp_badState h) rfl⟩
    · rw [getCtx_modCtx]
      exact ⟨rfl, rfl⟩
    · rw [getCtx_modCtx]
      exact ⟨rfl, rfl, rfl⟩
    · simp only [List.mem_cons, List.not_mem_nil, or_false] at hk
      rcases hk with rfl | rfl | rfl
      · exact attach (attachOp_badSeat hu hr no) rfl
      · exact resume (resumeOp_badSeat hu hr no) rfl
      · exact rebind (rebindOp_badSeat hu no) rfl
    · rw [getCtx_setCtxState, getCtx_modCtx]
      exact ⟨rfl, rfl⟩
    · refine detach (detachOp_there hu (by simp [h])) ?_
      rw [detach_running hr h, getCtx_setCtxState, getCtx_modCtx]
      exact ⟨rfl, rfl, rfl⟩
    · refine detach (detachOp_there hu (by simp [h])) ?_
      rw [detach_preempting hr h, getCtx_setCtxState, getCtx_modCtx]
      exact ⟨rfl, rfl, rfl⟩
    · refine detach (detachOp_there hu fun hg => ?_) ?_
      · generalize (getCtx s c).state = x at h hg
        cases x <;> simp at h hg
      · obtain ⟨hst, hstay, hq⟩ := getCtx_leave (s := setCtxState s c .detaching) (p := p) (c := c)
        rw [detach_away hr h]
        refine ⟨hst.trans ?_, hstay, hq.trans (congrArg some now_setCtxState)⟩
        rw [getCtx_setCtxState]
    · rw [getCtx_setCtxState]
    · rw [getCtx_setCtxState, getCtx_modCtx]
      exact ⟨rfl, rfl, rfl⟩
    · rw [getCtx_setCtxState]
  · intro k hk
    simp only [List.mem_cons, List.not_mem_nil, or_false] at hk
    rcases hk with rfl | rfl | rfl | rfl | rfl | rfl
    · exact foreign_answered hm hc hs (by decide) (by decide) h rfl
    · exact foreign_answered hm hc (by decide) (by decide) (by decide) h rfl
    · exact foreign_answered hm hc hs (by decide) (by decide) h rfl
    · exact foreign_answered hm hc (by decide) (by decide) (by decide) h rfl
    · exact foreign_answered hm hc (by decide) (by decide) (by decide) h rfl
    · exact foreign_answered hm hc hs (by decide) (by decide) h rfl

end Sys2Proof.Machine
end


section
/-! SUPPORT and proof of O33. Partition commands, and the end of a partition's running commands. -/

namespace Sys2Proof.Machine

variable {s u v : State} {who : Req} {p c d op st id : Nat} {k : Instr}

/-! ### HOLD and RELEASE (R399, R402) -/

theorem ptnCmd_session (h : op / 16 = 0) : ptnCmd s (.session id) p op =
    ptnResult (ptnCmdOp s (.session id) p op).1 p (getPtn s p).resCtx (ptnCmdOp s (.session id) p op).2 := by
  unfold ptnCmd
  exact if_neg (not_not.2 h)

/-- A partition command of a session is its operation, answered in PTN_RESULT. -/
theorem PtnAnswered.of_op {P : Ptn → Prop} (hk : exec k s = .next (ptnRow s (.session id) p op)) (hm : mayPtn s (.session id) p = true)
    (h : op / 16 = 0) (e : ptnCmdOp s (.session id) p op = (u, st))
    (hP : P { getPtn u p with done := true, busy := false, resCtx := (getPtn s p).resCtx, resStatus := st }) : PtnAnswered s k p st P := by
  refine ⟨_, hk.trans (congrArg Host.Outcome.next ((if_pos hm).trans (ptnCmd_session h))), ?_⟩
  rw [e]
  dsimp only
  rw [getPtn_ptnResult]
  exact ⟨hP, rfl, rfl⟩

theorem ptnUp_active (h : (getPtn s p).state = .active) : ptnUp s p = true := by simp [ptnUp, h]

theorem ptnUp_held (h : (getPtn s p).state = .held) : ptnUp s p = true := by simp [ptnUp, h]

theorem ptnCmdOp_down (h : ptnUp s p = false) (hop : op ∈ [1, 2, 3]) : ptnCmdOp s who p op = (s, 1) := by
  simp only [List.mem_cons, List.not_mem_nil, or_false] at hop
  rcases hop with rfl | rfl | rfl <;> simp [ptnCmdOp, h, stBadState]

theorem ptnCmdOp_hold (h : ptnUp s p = true) : ptnCmdOp s who p 2 = (setHold s p causeOperator, 0) := if_pos h

theorem ptnCmdOp_release_cause (h : ptnUp s p = true)
    (hc : bitOf (getPtn s p).holdCause causeDegraded = true ∨ bitOf (getPtn s p).holdCause causeXdie1 = true) :
    ptnCmdOp s who p 3 = (s, 8) := (if_neg (by simp [h])).trans (if_pos (by simpa using hc))

theorem ptnCmdOp_release (h : ptnUp s p = true) (hd : bitOf (getPtn s p).holdCause causeDegraded = false)
    (hx : bitOf (getPtn s p).holdCause causeXdie1 = false)
    (hb : bitOf (getPtn s p).holdCause causeBellLost = true → s.bell.state = .running) :
    ptnCmdOp s who p 3 = (clearHold s p 0x19, 0) := by
  refine (if_neg (by simp [h])).trans ((if_neg (by simp [hd, hx])).trans (if_neg ?_))
  rw [Bool.and_eq_true, not_and]
  intro h'
  simp [hb h']

/-- Causes that RELEASE clears (R399). -/
theorem clearHold_held (h : (getPtn s p).state = .held) : (getPtn (clearHold s p 0x19) p).holdCause = (getPtn s p).holdCause &&& 0xE6
    ∧ (getPtn (clearHold s p 0x19) p).state = (if (getPtn s p).holdCause &&& 0xE6 = 0 then .active else .held)
    ∧ ((getPtn s p).tt.state = .held → (getPtn (clearHold s p 0x19) p).tt.state = .held) := by
  unfold clearHold
  dsimp only
  by_cases h0 : (getPtn s p).holdCause &&& 0xE6 = 0
  · rw [if_pos ⟨h0, by rw [getPtn_modPtn]; exact h⟩, if_pos h0, getPtn_setPtnState, getPtn_modPtn]
    refine ⟨rfl, rfl, fun ht => ?_⟩
    have hto := tt_setPtnState (s := modPtn s p (fun q => { q with holdCause := (getPtn s p).holdCause &&& 0xE6 })) (p := p) (q := p)
      (st := .active)
    rw [getPtn_modPtn] at hto
    exact (hto.state (.inr (by rw [ht]; decide))).trans ht
  · rw [if_neg fun hh => h0 hh.1, if_neg h0, getPtn_modPtn]
    exact ⟨rfl, h, id⟩

/-! ### A thread's write (R402) -/

theorem PtnAnswered.of_thread {n t : Nat} (hk : exec k s = .next (ptnRow s (.thread n t) p op)) (h : op / 16 = 0)
    (hp : partsUp s = true) (hr : isRuntimeOf s p (.thread n t) = true) :
    PtnAnswered s k p 5 (fun v => v.state = (getPtn s p).state ∧ v.holdCause = (getPtn s p).holdCause) := by
  have hm : mayPtn s (.thread n t) p = true := by simp [mayPtn, hp, hr]
  refine ⟨_, hk.trans (congrArg Host.Outcome.next ((if_pos hm).trans (if_neg (not_not.2 h)))), ?_⟩
  dsimp only
  rw [getPtn_ptnResult]
  exact ⟨⟨rfl, rfl⟩, rfl, rfl⟩

/-! ### DETACH of every context (R412) -/

theorem getCtx_leave_other (h : d ≠ c) : getCtx (leave s p c) d = { getCtx s d with
    holds := (getCtx (leave s p c) d).holds, parkWaits := (getCtx (leave s p c) d).parkWaits
    parkGrants := (getCtx (leave s p c) d).parkGrants } := by
  have hb : ∀ u, getCtx (forEach (bufsOf u c) (fun s b => modBuf s b (fun x => { x with closing := true })) u) d = getCtx u d := by
    refine fun u => getCtx_of_ctx ?_
    rw [forEach_proj (π := State.ctx)]
    intro _ _
    rfl
  unfold leave
  dsimp only
  rw [hb, rollOnly_quiesce.ctx, getCtx_modCtx_other (h := h)]

theorem stopRestore_ptn_ctx : (stopRestore s c).ptn = s.ptn ∧ (stopRestore s c).ctx = s.ctx := by
  unfold stopRestore
  split <;> exact ⟨rfl, rfl⟩

theorem getCtx_stopRestore : getCtx (stopRestore s c) d = getCtx s d := getCtx_of_ctx stopRestore_ptn_ctx.2

/-- What DETACH does to the other contexts and to partitions. -/
theorem detach_others : PtnRoll s (detach s p c) ∧ ∀ d, d ≠ c → getCtx (detach s p c) d = { getCtx s d with
    holds := (getCtx (detach s p c) d).holds, parkWaits := (getCtx (detach s p c) d).parkWaits
    parkGrants := (getCtx (detach s p c) d).parkGrants } := by
  have h0 : PtnRoll s (stopRestore s c) := .of_ptn stopRestore_ptn_ctx.1
  unfold detach
  dsimp only
  split
  · refine ⟨h0.trans (ptnRoll_modCtx.trans ptnRoll_setCtxState), fun d hd => ?_⟩
    rw [getCtx_setCtxState_other hd, getCtx_modCtx_other (h := hd), getCtx_stopRestore]
  · refine ⟨h0.trans (ptnRoll_modCtx.trans ptnRoll_setCtxState), fun d hd => ?_⟩
    rw [getCtx_setCtxState_other hd, getCtx_modCtx_other (h := hd), getCtx_stopRestore]
  · exact ⟨h0, fun d _ => by rw [getCtx_stopRestore]⟩
  · exact ⟨h0, fun d _ => by rw [getCtx_stopRestore]⟩
  · exact ⟨h0, fun d _ => by rw [getCtx_stopRestore]⟩
  · refine ⟨h0.trans (ptnRoll_setCtxState.trans ptnRoll_leave), fun d hd => ?_⟩
    rw [getCtx_leave_other hd, getCtx_setCtxState_other hd, getCtx_stopRestore]

/-- A context that is DETACHING and still attached. -/
def Departing (s : State) (c : Nat) : Prop := (getCtx s c).state = .detaching ∧ (getCtx s c).stay = true

theorem departing_detach (h : (getCtx s c).state = .running) : Departing (detach s p c) c := by
  unfold Departing detach
  dsimp only
  rw [getCtx_stopRestore, h]
  dsimp only
  rw [getCtx_setCtxState, getCtx_modCtx]
  exact ⟨rfl, rfl⟩

theorem Departing.detach (h : Departing s c) : Departing (detach s p d) c := by
  by_cases hd : c = d
  · subst hd
    have e : Machine.detach s p c = stopRestore s c := by
      unfold Machine.detach
      dsimp only
      rw [getCtx_stopRestore, h.1]
    rw [e, Departing, getCtx_stopRestore]
    exact h
  · rw [Departing, detach_others.2 c hd]
    exact h

theorem Departing.forEach_detach {cs : List Nat} (h : Departing s c) : Departing (forEach cs (fun s c => Machine.detach s p c) s) c := by
  induction cs generalizing s with
  | nil => exact h
  | cons d cs ih => exact ih h.detach

/-- Every RUNNING context among those that are detached departs. -/
theorem departing_forEach {cs : List Nat} (hc : c ∈ cs) (h : (getCtx s c).state = .running) :
    Departing (forEach cs (fun s c => detach s p c) s) c := by
  induction cs generalizing s with
  | nil => cases hc
  | cons d cs ih =>
    by_cases hd : c = d
    · subst hd
      exact Departing.forEach_detach (s := detach s p c) (departing_detach h)
    · refine ih (s := detach s p d) ((List.mem_cons.1 hc).resolve_left hd) ?_
      rw [detach_others.2 c hd]
      exact h

/-! ### TEARDOWN (R412) -/

/-- A teardown is journaled and the partition in TEARDOWN. -/
def tearBegun (s : State) (who : Req) (p : Nat) : State := setPtnState (journalFor s who { action := 0x08, ptn := p }) p .teardown

/-- The partition without a measurement. -/
def unmeasured (q : Ptn) : Ptn := { q with reload := none, syl := q.syl.map (fun y => { y with meas := [] }) }

/-- The partition in TEARDOWN, its measurement gone and its Timetable stopped, before its contexts are detached. -/
def tornDown (s : State) (who : Req) (p : Nat) : State := stopTt (dropPtnEks (modPtn (tearBegun s who p) p unmeasured) p) p

theorem teardown_eq : teardown s who p =
    teardownProceed (forEach (ctxRange (tornDown s who p) p) (fun s c => detach s p c) (tornDown s who p)) p := rfl

/-- While a context is attached a teardown does not go on. -/
theorem teardownProceed_attached (h : attachedCount s p ≠ 0) : teardownProceed s p = s := if_neg (by simp [h])

theorem grantOf_of_syl (h : u.syl = s.syl) : grantOf u p = grantOf s p := by
  unfold grantOf openHouse
  rw [h]

theorem ctxRange_of_syl (h : u.syl = s.syl) : ctxRange u p = ctxRange s p := by
  unfold ctxRange
  rw [grantOf_of_syl h]

theorem getPtn_stopTt : getPtn (stopTt s p) p = { getPtn s p with tt := (getPtn (stopTt s p) p).tt } := by
  unfold stopTt
  dsimp only
  split
  · split
    · rw [getPtn_modTt_self]
    · rw [getPtn_modTt_self]
  · split
    · rw [getPtn_modTt_self]
    · rfl

theorem journalFor_spec {e : JEntry} : (journalFor s who e).led.seq = s.led.seq + 1 ∧ (journalFor s who e).ptn = s.ptn
    ∧ (journalFor s who e).ctx = s.ctx := by
  obtain ⟨hseq, -, -, hptn, hctx, -⟩ := journal_spec s { e with role := (journalRole s who).1, slot := (journalRole s who).2 }
  exact ⟨hseq, hptn, hctx⟩

theorem getPtn_dropPtnEks {q : Nat} : getPtn (dropPtnEks s p) q = getPtn s q := rfl

theorem getPtn_tornDown : (getPtn (tornDown s who p) p).state = .teardown
    ∧ ∀ y, (getPtn (tornDown s who p) p).syl = some y → y.meas = [] := by
  rw [tornDown, getPtn_stopTt, getPtn_dropPtnEks, getPtn_modPtn, tearBegun, getPtn_setPtnState]
  refine ⟨rfl, fun y hy => ?_⟩
  obtain ⟨z, -, rfl⟩ := Option.map_eq_some_iff.1 hy
  rfl

/-- The parts that a teardown changes once it has been journaled. -/
def tearParts : List Part := [.resv, .mc, .core, .int, .rc, .ptn, .ctx, .brn, .prs, .sec, .snp, .i3c]

theorem tornDown_kept : Kept tearParts (journalFor s who { action := 0x08, ptn := p }) (tornDown s who p) := by
  have w := Within.refl tearParts
  exact stopTt_kept (dropPtnEks_kept (modPtn_kept (setPtnState_kept (Kept.refl tearParts _))))

theorem forEach_detach_kept {cs : List Nat} : Kept tearParts s (forEach cs (fun s c => detach s p c) s) := by
  have w := Within.refl tearParts
  exact forEach_kept (Kept.refl tearParts s) fun _ _ h => detach_kept h

theorem stopTt_ctx : (stopTt s p).ctx = s.ctx := (stopTt_kept (Kept.refl [.ptn] s) (Within.refl _)).rest .ctx (by decide)

theorem unmeasured_ctx {f : Ptn → Ptn} : (dropPtnEks (modPtn s p f) p).ctx = s.ctx := rfl

theorem getCtx_tornDown_state : (getCtx (tornDown s who p) c).state = (getCtx s c).state := by
  have h : (tornDown s who p).ctx = (tearBegun s who p).ctx := by rw [tornDown, stopTt_ctx, unmeasured_ctx]
  rw [getCtx_of_ctx h, tearBegun, getCtx_setPtnState, getCtx_of_ctx journalFor_spec.2.2]

theorem tornDown_syl : (tornDown s who p).syl = s.syl := by
  have h : (tornDown s who p).syl = (journalFor s who { action := 0x08, ptn := p }).syl := tornDown_kept.rest .syl (by decide)
  rw [h]
  exact (journalFor_kept (Kept.refl [.mc, .int, .ptn, .ctx, .led, .lcs, .i3c] s) (Within.refl _)).rest .syl (by decide)

theorem detachedAll_syl : (forEach (ctxRange s p) (fun s c => detach s p c) (tornDown s who p)).syl = s.syl := by
  have h : (forEach (ctxRange s p) (fun s c => detach s p c) (tornDown s who p)).syl = (tornDown s who p).syl :=
    forEach_detach_kept.rest .syl (by decide)
  rw [h, tornDown_syl]

/-- A teardown that finds a RUNNING context waits for it. -/
theorem teardown_waits (hc : c ∈ ctxRange s p) (hr : (getCtx s c).state = .running) :
    teardown s who p = forEach (ctxRange s p) (fun s c => detach s p c) (tornDown s who p) := by
  rw [teardown_eq, ctxRange_of_syl tornDown_syl]
  refine teardownProceed_attached fun h => ?_
  have hd := departing_forEach (s := tornDown s who p) (p := p) hc (getCtx_tornDown_state.trans hr)
  have hx : c ∈ (ctxRange (forEach (ctxRange s p) (fun s c => detach s p c) (tornDown s who p)) p).filter
      (fun c => (getCtx (forEach (ctxRange s p) (fun s c => detach s p c) (tornDown s who p)) c).attached) := by
    rw [ctxRange_of_syl detachedAll_syl, List.mem_filter]
    refine ⟨hc, ?_⟩
    rw [Ctx.attached, hd.1]
    exact hd.2
  rw [List.eq_nil_of_length_eq_zero h] at hx
  cases hx

theorem ptnCmdOp_teardown (h : ptnUp s p = true) (hj : journalRoom s = true) : ptnCmdOp s who p 1 = (teardown s who p, 0) :=
  (if_neg (by simp [h])).trans (if_neg (by simp [hj]))

theorem exec_teardown (hm : mayPtn s (.session id) p = true) (h : ptnUp s p = true) (hj : journalRoom s = true) :
    exec (.ptnTeardown (.session id) p) s = .next (ptnResult (teardown s (.session id) p) p (getPtn s p).resCtx 0) := by
  refine congrArg Host.Outcome.next ((if_pos hm).trans ((ptnCmd_session (by decide)).trans ?_))
  rw [ptnCmdOp_teardown h hj]

theorem ptnResult_led {x : Nat} : (ptnResult s p x st).led = s.led := rfl
theorem getCtx_ptnResult {x : Nat} : getCtx (ptnResult s p x st) c = getCtx s c := rfl

/-- What a teardown leaves while a RUNNING context has yet to leave (R410, R412). -/
theorem teardown_result (hc : c ∈ ctxRange s p) (hr : (getCtx s c).state = .running) :
    (getPtn (teardown s who p) p).state = .teardown ∧ (∀ y, (getPtn (teardown s who p) p).syl = some y → y.meas = [])
    ∧ (teardown s who p).led.seq = s.led.seq + 1
    ∧ ∀ c ∈ ctxRange s p, (getCtx s c).state = .running → Departing (teardown s who p) c := by
  have hroll : PtnRoll (tornDown s who p) (forEach (ctxRange s p) (fun s c => detach s p c) (tornDown s who p)) :=
    ptnRoll_forEach fun _ _ => detach_others.1
  have hled : (forEach (ctxRange s p) (fun s c => detach s p c) (tornDown s who p)).led = (tornDown s who p).led :=
    forEach_detach_kept.rest .led (by decide)
  have hled' : (tornDown s who p).led = (journalFor s who { action := 0x08, ptn := p }).led := tornDown_kept.rest .led (by decide)
  obtain ⟨hstate, hmeas⟩ := getPtn_tornDown (s := s) (who := who) (p := p)
  rw [teardown_waits hc hr, hroll.ptn]
  dsimp only
  refine ⟨hstate, hmeas, ?_, fun d hd h => ?_⟩
  · rw [hled, hled', journalFor_spec.1]
  · exact departing_forEach (s := tornDown s who p) hd (getCtx_tornDown_state.trans h)

/-! ### The end of the running commands (R277, R282, R412, R628) -/

theorem heldIfDone_of_none (h : (getPtn s p).tt.overrunSlot = none) : heldIfDone s p = s := by
  unfold heldIfDone
  dsimp only
  rw [h]

theorem heldIfDone_of_not_running (h : (getPtn s p).tt.state ≠ .running) : heldIfDone s p = s := by
  unfold heldIfDone
  dsimp only
  split
  · exact if_neg fun hh => h hh.1
  · rfl

theorem heldIfDone_done {i : Nat} {y : Timetable} (hs : (getPtn s p).tt.state = .running) (hn : (getPtn s p).tt.noRelease = true)
    (ha : (getPtn s p).tt.aborted = false) (ho : (getPtn s p).tt.overrunSlot = some i) (hy : ttOf s p = some y)
    (hd : (slotAt y i).doneTarget ≤ (getSem s (slotAt y i).doneSem).value) :
    heldIfDone s p = modTt s p (fun t => { t with state := .held, overrunSlot := none }) := by
  unfold heldIfDone
  dsimp only
  rw [ho, hy]
  exact if_pos ⟨hs, hn, by rw [ha]; rfl, hd⟩

section Ended

variable (hr : ptnRunning s p = false) (ha : (getPtn s p).tt.aborted = false)
include hr ha

theorem exec_ended (he : ((getPtn s p).tt.state == .stopping && (getPtn s p).tt.noRelease) = false) :
    exec (.partitionCommandsEnded p) s = .next (teardownProceed (heldIfDone s p) p) := by
  refine congrArg Host.Outcome.next ((if_neg (by simp [hr])).trans ?_)
  dsimp only
  rw [settled_of_not_aborted ha, he]
  rfl

theorem exec_ended_stop (hs : (getPtn s p).tt.state = .stopping) (hn : (getPtn s p).tt.noRelease = true) :
    exec (.partitionCommandsEnded p) s = .next (teardownProceed (heldIfDone (endTt s p) p) p) := by
  refine congrArg Host.Outcome.next ((if_neg (by simp [hr])).trans ?_)
  dsimp only
  rw [settled_of_not_aborted ha, if_pos (by simp [hs, hn])]

end Ended

/-- The partition is emptied (R412): its threads IDLE, its queues empty, what it had allocated gone. -/
def tornEmpty (s : State) (p : Nat) : State :=
  let q := getPtn s p
  let v := forEach (threadsWhere s (fun n _ h => q.owns (n / 8) && h.state != .idle)) (fun s e => idleThread s e.1 e.2) s
  deallocate (forEach (coresOf s p) (fun s n => modCore s n emptyCore) v) p

/-- The partition without its Syllabus, its queue and its Timetable. -/
def tornPtn (left : Nat) (q : Ptn) : Ptn :=
  { q with launchQ := [], syl := none, reload := none, holdCause := 0, tt := {}, scrubLeft := left }

theorem teardownProceed_go (hs : (getPtn s p).state = .teardown) (ht : (getPtn s p).tt.state = .idle) (hc : attachedCount s p = 0)
    (hr : ptnRunning s p = false) : ∃ left, teardownProceed s p =
      brnPush (setPtnState (modPtn (tornEmpty s p) p (tornPtn left)) p .scrubbing) (.partition p) := by
  refine ⟨_, if_pos ?_⟩
  simp [hs, ht, hc, hr]

/-! ### What the emptied partition had allocated (R412) -/

/-- Nothing that is allocated is the partition's. -/
def NothingOf (s : State) (p : Nat) : Prop :=
  (∀ i, ¬((getSem s i).alloc = true ∧ (getSem s i).ptn = p)) ∧ ∀ i, ¬((getBar s i).alloc = true ∧ (getBar s i).ptn = p)

theorem NothingOf.of_rc (h : NothingOf s p) (e : u.rc = s.rc) : NothingOf u p :=
  ⟨fun i => by rw [getSem_of_rc e]; exact h.1 i, fun i => by rw [getBar_of_rc e]; exact h.2 i⟩

theorem nothingOf_deallocate : NothingOf (deallocate s p) p := by
  refine ⟨fun i ⟨ha, hp⟩ => ?_, fun i ⟨ha, hp⟩ => ?_⟩
  · have hne : getSem (deallocate s p) i ≠ default := fun h => by
      rw [h] at ha
      exact Bool.false_ne_true ha
    have hm := (List.mem_filter.1 (mem_of_tget_ne hne)).2
    change ((getSem (deallocate s p) i).ptn != p || !(getSem (deallocate s p) i).alloc) = true at hm
    rw [ha, hp] at hm
    simp at hm
  · have hne : getBar (deallocate s p) i ≠ default := fun h => by
      rw [h] at ha
      exact Bool.false_ne_true ha
    have hm := (List.mem_filter.1 (mem_of_tget_ne hne)).2
    change ((getBar (deallocate s p) i).ptn != p || !(getBar (deallocate s p) i).alloc) = true at hm
    rw [ha, hp] at hm
    simp at hm

/-- A change of STATE of a partition that has nothing tells no semaphore (R422). -/
theorem setPtnState_nothing {x : PtnState} (h : NothingOf s p) : (setPtnState s p x).rc = s.rc := by
  have ev (v : State) (hv : NothingOf v p) : (eventSem v p).rc = v.rc := by
    unfold eventSem
    dsimp only
    split
    · rfl
    · unfold threadAdd
      dsimp only
      split
      · rfl
      · rw [if_neg (by simpa using hv.1 _), raise_rc]
  unfold setPtnState
  split
  · rfl
  · exact ev _ (h.of_rc rfl)

theorem brnPush_rc {x : BrnJob} : (brnPush s x).rc = s.rc := rfl
theorem getPtn_brnPush {x : BrnJob} {q : Nat} : getPtn (brnPush s x) q = getPtn s q := rfl

theorem nothingOf_scrubbing {f : Ptn → Ptn} {j : BrnJob} (h : NothingOf s p) :
    NothingOf (brnPush (setPtnState (modPtn s p f) p .scrubbing) j) p := by
  have h' : NothingOf (modPtn s p f) p := h.of_rc rfl
  exact h'.of_rc (brnPush_rc.trans (setPtnState_nothing h'))

theorem nothingOf_torn {left : Nat} {j : BrnJob} : NothingOf (brnPush (setPtnState (modPtn (tornEmpty s p) p (tornPtn left)) p .scrubbing) j) p :=
  nothingOf_scrubbing nothingOf_deallocate

theorem getPtn_torn {left : Nat} {j : BrnJob} : getPtn (brnPush (setPtnState (modPtn s p (tornPtn left)) p .scrubbing) j) p =
    { tornPtn left (getPtn s p) with state := .scrubbing } := by
  have ht := tt_setPtnState (s := modPtn s p (tornPtn left)) (p := p) (q := p) (st := .scrubbing)
  rw [getPtn_modPtn] at ht
  rw [getPtn_brnPush, getPtn_setPtnState, ht.quiet rfl rfl, getPtn_modPtn]

/-- Settles O33. -/
theorem partitionCommands : Obligations.PartitionCommands := by
  refine ⟨fun s id p => ?_, fun s p => ⟨fun h => congrArg Host.Outcome.next (if_pos h), fun hr ha => ⟨fun hs hn => ?_, ?_, fun hs ht hc => ?_⟩⟩⟩
  · intro who q hm
    refine ⟨fun h => ?_, fun h k hk => ?_, fun h hd hx hb => ?_, fun h hc => ?_, fun h hj => ?_, fun n t hr k hk => ?_⟩
    · refine .of_op rfl hm (by decide) (ptnCmdOp_hold (ptnUp_active h)) ?_
      obtain ⟨hs, hc⟩ := setHold_up (bit := causeOperator) (.inl h)
      refine ⟨hs, ?_⟩
      change bitOf (getPtn (setHold s p causeOperator) p).holdCause causeOperator = true
      rw [hc, bitOf, Nat.testBit_or, Bool.or_eq_true]
      exact .inr (by decide)
    · simp only [List.mem_cons, List.not_mem_nil, or_false] at hk
      rcases hk with rfl | rfl | rfl
      · exact .of_op rfl hm (by decide) (ptnCmdOp_down h (by simp)) ⟨rfl, rfl⟩
      · exact .of_op rfl hm (by decide) (ptnCmdOp_down h (by simp)) ⟨rfl, rfl⟩
      · exact .of_op rfl hm (by decide) (ptnCmdOp_down h (by simp)) ⟨rfl, rfl⟩
    · exact .of_op rfl hm (by decide) (ptnCmdOp_release (ptnUp_held h) hd hx hb) (clearHold_held h)
    · exact .of_op rfl hm (by decide) (ptnCmdOp_release_cause h hc) ⟨rfl, rfl⟩
    · rintro ⟨c, hc, hrun⟩
      obtain ⟨hstate, hmeas, hseq, hctx⟩ := teardown_result (who := .session id) hc hrun
      refine .of_next (exec_teardown hm h hj) ?_
      rw [getPtn_ptnResult, ptnResult_led]
      dsimp only
      refine ⟨hstate, rfl, hmeas, hseq, fun d hd h => ?_⟩
      rw [getCtx_ptnResult]
      exact hctx d hd h
    · have hp : partsUp s = true := (Bool.and_eq_true_iff.1 hm).1
      simp only [List.mem_cons, List.not_mem_nil, or_false] at hk
      rcases hk with rfl | rfl | rfl
      · exact .of_thread rfl (by decide) hp hr
      · exact .of_thread rfl (by decide) hp hr
      · exact .of_thread rfl (by decide) hp hr
  · refine .of_next (exec_ended_stop hr ha hs hn) ?_
    have he : (getPtn (endTt s p) p).tt.overrunSlot = none ∧ (getPtn (endTt s p) p).tt.state = .idle := by
      rw [endTt, getPtn_modTt]
      exact ⟨rfl, rfl⟩
    rw [heldIfDone_of_none he.1]
    by_cases hg : (getPtn (endTt s p) p).state = .teardown ∧ attachedCount (endTt s p) p = 0 ∧ ptnRunning (endTt s p) p = false
    · obtain ⟨left, e⟩ := teardownProceed_go hg.1 he.2 hg.2.1 hg.2.2
      rw [e, getPtn_torn]
      rfl
    · rw [teardownProceed, if_neg (by simpa [he.2] using hg)]
      exact he.2
  · intro i y hs hn ho hy hd
    refine .of_eq (exec_ended hr ha (by simp [hs])) (congrArg (teardownProceed · p) (heldIfDone_done hs hn ha ho hy hd)) ?_
    have ht : (getPtn (modTt s p (fun t => { t with state := .held, overrunSlot := none })) p).tt =
        { (getPtn s p).tt with state := .held, overrunSlot := none } := getPtn_modTt ..
    rw [teardownProceed, if_neg (by simp [ht]), ht]
  · have hni : (getPtn s p).tt.state ≠ .running := by rw [ht]; decide
    obtain ⟨left, e⟩ := teardownProceed_go hs ht hc hr
    have hmem : (teardownProceed s p).mem = s.mem :=
      (teardownProceed_kept (p := p) (Kept.refl [.resv, .mc, .core, .int, .rc, .ptn, .ctx, .brn, .i3c] s) (Within.refl _)).rest .mem (by decide)
    refine .of_eq (exec_ended hr ha (by simp [ht])) (congrArg (teardownProceed · p) (heldIfDone_of_not_running hni)) ?_
    refine ⟨?_, ?_, ?_, ?_, ?_, ?_, sameMemory_of_mem hmem⟩
    · rw [e, getPtn_torn]
    · rw [e, getPtn_torn]
      rfl
    · rw [e, getPtn_torn]
      rfl
    · rw [e, getPtn_torn]
      rfl
    · rw [e]
      exact nothingOf_torn.1
    · rw [e]
      exact nothingOf_torn.2

end Sys2Proof.Machine
end


section
/-! SUPPORT and proof of O34. Departures at their bound, landing quiet and queued enables. -/

namespace Sys2Proof.Machine

variable {s u v : State} {p c d n t i : Nat}

/-! ### Clusters that are held (R25) -/

@[simp] theorem raise_heldClusters (x : FaultCode) (a : FaultAt) : (raise s x a).int.heldClusters = s.int.heldClusters := by
  have hm : (countFault s.int x).heldClusters = s.int.heldClusters := by cases x <;> rfl
  unfold raise ibi
  simp only []
  split <;> split <;> (try split) <;> simp [hm]

theorem answer_heldClusters {k : Token} {st fl va : Nat} : (answer s k st fl va).int.heldClusters = s.int.heldClusters := by
  unfold answer
  split
  · rfl
  · rfl
  · unfold syncRoute
    split
    · rfl
    · exact raise_heldClusters ..

theorem unreserve_int {k : Token} : (unreserve s k).int = s.int := by
  unfold unreserve
  split <;> rfl

theorem grantTaken_int {w : WaitEnt} : (grantTaken s w).int = s.int := by
  unfold grantTaken
  split
  · dsimp only
    split <;> rfl
  · rfl

theorem grant_heldClusters {w : WaitEnt} : (grant s w).int.heldClusters = s.int.heldClusters := by
  rw [grant_eq]
  split
  · unfold endWait
    dsimp only
    split <;> exact answer_heldClusters.trans (congrArg IntBlk.heldClusters unreserve_int)
  · refine Eq.trans ?_ (congrArg IntBlk.heldClusters (grantTaken_int (w := w)))
    unfold grantTold
    split
    · rfl
    · dsimp only
      split <;> exact answer_heldClusters

theorem grantGo_heldClusters : (grantGo n s i).int.heldClusters = s.int.heldClusters := by
  induction n generalizing s with
  | zero => rfl
  | succ n ih =>
    unfold grantGo
    split
    · exact ih.trans grant_heldClusters
    · rfl

theorem addSem_int {k : Nat} : (addSem s i k).int = s.int := (addSem_kept (Kept.refl _ s) (Within.refl _)).rest .int (by decide)

theorem eventSem_heldClusters : (eventSem s p).int.heldClusters = s.int.heldClusters := by
  unfold eventSem
  dsimp only
  split
  · rfl
  · unfold threadAdd
    dsimp only
    split
    · rfl
    split
    · exact grantGo_heldClusters.trans (congrArg IntBlk.heldClusters addSem_int)
    · exact raise_heldClusters ..

/-- A change of STATE holds no cluster. -/
theorem setPtnState_heldClusters {x : PtnState} : (setPtnState s p x).int.heldClusters = s.int.heldClusters := by
  unfold setPtnState
  split
  · rfl
  · exact eventSem_heldClusters

/-! ### CTX_BOUND (R407) -/

/-- The revocation of a context's holds changes no STATE (R303). -/
theorem ctx_revokeHolds : PtnRoll s (revokeHolds s c) ∧ (getCtx (revokeHolds s c) c).state = (getCtx s c).state
    ∧ (getCtx (revokeHolds s c) c).stay = (getCtx s c).stay := by
  have back : ∀ (v : State) (h : Hold), RollOnly v (if h.units = 0 then v else
      grantSem (modSem (addSem v h.sem h.units) h.sem (fun x => { x with rev := true })) h.sem) := fun v h => by
    split
    · exact .refl v
    · exact rollOnly_addSem.trans (RollOnly.trans (u := modSem (addSem v h.sem h.units) h.sem _) (.of_parts rfl rfl) rollOnly_grantSem)
  have dropped : ∀ ws, RollOnly s (dropWaits { s with rc.out := s.rc.out.filter (fun o => !o.tok.threadOf c) } ws) := fun ws =>
    RollOnly.trans (u := { s with rc.out := s.rc.out.filter (fun o => !o.tok.threadOf c) }) (.of_parts rfl rfl) rollOnly_dropWaits
  unfold revokeHolds
  dsimp only
  refine ⟨(dropped _).roll.trans (ptnRoll_modCtx.trans (rollOnly_forEach back).roll), ?_⟩
  rw [(rollOnly_forEach back).ctx, getCtx_modCtx, (dropped _).ctx]
  exact ⟨rfl, rfl⟩

/-- The holds revoked and counted. -/
def revoked (s : State) (p c : Nat) : State := modPtn (revokeHolds s c) p (fun q => { q with revoked := satInc 16 q.revoked })

theorem getPtn_revoked : (getPtn (revoked s p c) p).revoked = min ((getPtn s p).revoked + 1) 65535 := by
  rw [revoked, getPtn_modPtn, ctx_revokeHolds.1.ptn]
  rfl

theorem getCtx_revoked : (getCtx (revoked s p c) c).state = (getCtx s c).state ∧ (getCtx (revoked s p c) c).stay = (getCtx s c).stay :=
  ctx_revokeHolds.2

theorem getCtx_restartCtx (h : (getCtx s c).state = .running ∨ (getCtx s c).state = .preempting) :
    (getCtx (restartCtx s p c) c).state = .restart := by
  unfold restartCtx
  rcases h with h | h
  · rw [h]
    dsimp only
    rw [rollOnly_quiesce.ctx, getCtx_setCtxState]
  · rw [h]
    dsimp only
    rw [rollOnly_quiesce.ctx, getCtx_setCtxState]

section Bound

variable (hp : ptnOfCtx s c = some p)
include hp

theorem exec_boundExpiry (h0 : (getCtx s c).bound ≠ 0) (hc : counting s = true) (hb : (getCtx s c).bound ≤ s.bell.count) :
    exec (.preemptBoundExpiry c) s = .next (boundExpiry s p c) := by
  refine congrArg Host.Outcome.next ?_
  rw [hp]
  exact if_pos (by simp [h0, hc, hb])

theorem exec_boundExpiry_early (h : (getCtx s c).bound = 0 ∨ s.bell.count < (getCtx s c).bound) :
    exec (.preemptBoundExpiry c) s = .next s := by
  refine congrArg Host.Outcome.next ?_
  rw [hp]
  exact if_neg (by rcases h with h | h <;> simp [h])

end Bound

theorem boundExpiry_preempting (h : (getCtx s c).state = .preempting) : boundExpiry s p c = restartCtx (revoked s p c) p c := by
  unfold boundExpiry
  dsimp only
  rw [h]
  rfl

theorem boundExpiry_detaching (h : (getCtx s c).state = .detaching) (hs : (getCtx s c).stay = true) :
    boundExpiry s p c = leave (revoked s p c) p c := by
  unfold boundExpiry
  dsimp only
  rw [h, hs]
  rfl

/-! ### Landing quiet (R410) -/

theorem getCtx_enterScrub : (getCtx (enterScrub s p c) c).state = .scrubbing := by
  have hb : ∀ u, getCtx (forEach (bufsOf u c) (fun s b => modBuf s b (fun x => { x with closed := true })) u) c = getCtx u c := by
    refine fun u => getCtx_of_ctx ?_
    rw [forEach_proj (π := State.ctx)]
    intro _ _
    rfl
  have hpush : ∀ (u : State) (j : BrnJob), getCtx (brnPush u j) c = getCtx u c := fun _ _ => rfl
  unfold enterScrub
  dsimp only
  rw [hpush, (rollOnly_forEach fun _ _ => rollOnly_idleThread).ctx, hb, getCtx_setCtxState]

theorem enterScrub_brn_mem : (enterScrub s p c).brn.queue = s.brn.queue ++ [.context p c] ∧ (enterScrub s p c).mem = s.mem := by
  have k : ∀ v : State, Kept [.resv, .mc, .core, .int, .rc, .ptn, .ctx, .i3c] s v → (brnPush v (.context p c)).brn.queue =
      s.brn.queue ++ [.context p c] ∧ (brnPush v (.context p c)).mem = s.mem := fun v h =>
    ⟨congrArg (fun b : BrnBlk => b.queue ++ [.context p c]) (h.rest .brn (by decide)), h.rest .mem (by decide)⟩
  have w := Within.refl [Part.resv, .mc, .core, .int, .rc, .ptn, .ctx, .i3c]
  refine k _ (forEach_kept (forEach_kept (setCtxState_kept (modCtx_kept (Kept.refl _ s))) fun _ _ h => modBuf_kept h) fun _ _ h => idleThread_kept h)

section Quiet

variable (hp : ptnOfCtx s c = some p)
include hp

theorem exec_landingQuiet (hs : (getCtx s c).state = .detaching) (hy : (getCtx s c).stay = false) {q : Nat}
    (hq : (getCtx s c).quietSince = some q) (h : quietFrom s c + 4096 ≤ now s) :
    exec (.landingQuiet c) s = .next (enterScrub s p c) := by
  refine congrArg Host.Outcome.next ?_
  rw [hp]
  exact if_pos (by simp [hs, hy, hq, h])

theorem exec_landingQuiet_early (h : now s < quietFrom s c + 4096) : exec (.landingQuiet c) s = .next s := by
  refine congrArg Host.Outcome.next ?_
  rw [hp]
  exact if_neg (by simp [h])

end Quiet

/-! ### Queued enables (R411) -/

theorem rested_of_le {b : Nat} (h : b + 1 ≤ s.bell.count) : rested s (some b) = true := by simp [rested, h]

theorem getCtx_sweep {f : LineTag → Bool} : getCtx (sweep s f) d = getCtx s d :=
  getCtx_of_ctx ((sweep_kept (Kept.refl [.mem, .memErr, .tags, .resv] s) (Within.refl _)).rest .ctx (by decide))

theorem getCtx_bumpCtxGen : getCtx (bumpCtxGen s c) c = { getCtx s c with gen := wrap 8 ((getCtx s c).gen + 1) } := by
  unfold bumpCtxGen
  dsimp only
  split
  · rw [getCtx_modCtx, getCtx_sweep]
  · rw [getCtx_modCtx]

/-- A context whose key slot has been loaded (R400). -/
theorem getCtx_loadKey {k : KeySlot} : (getCtx (loadKey s c k) c).state = .keyed ∧ (getCtx (loadKey s c k) c).loaded = true
    ∧ (getCtx (loadKey s c k) c).gen = wrap 8 ((getCtx s c).gen + 1) ∧ (getCtx (loadKey s c k) c).enableQ = (getCtx s c).enableQ := by
  unfold loadKey
  dsimp only
  rw [getCtx_setCtxState, getCtx_modCtx, getCtx_bumpCtxGen]
  exact ⟨rfl, rfl, rfl, rfl⟩

/-- A context whose queue of enables is being applied. -/
def enablesTaken (s : State) (c : Nat) : State := modCtx s c (fun x => { x with enableQ := [], restSince := none })

theorem getCtx_enablesTaken : getCtx (enablesTaken s c) c = { getCtx s c with enableQ := [], restSince := none } := getCtx_modCtx ..

/-- A queued ATTACH that finds the context KEYED. -/
def attachQueued (s : State) (c seat : Nat) : State :=
  modCtx (setCtxState s c .attaching) c (fun x => { x with reqSeat := seat, cmdStamp := now s, lastStatus := 0 })

theorem applyCtxEnables_key_attach {ks : List (List Byte)} {seat : Nat} (h : (getCtx s c).enableQ = [.key ks, .attach seat]) :
    applyCtxEnables s c = attachQueued (loadKey (enablesTaken s c) c
      { xts := getAt [] ks 0, imp := getAt [] ks 1, exp := getAt [] ks 2 }) c seat := by
  unfold applyCtxEnables
  dsimp only
  rw [h, forEach_cons, forEach_cons, forEach_nil]
  dsimp only
  exact if_pos (getCtx_loadKey (s := enablesTaken s c) (c := c)).1

theorem applyCtxEnables_attach {seat : Nat} (hs : (getCtx s c).state = .free) (h : (getCtx s c).enableQ = [.attach seat]) :
    applyCtxEnables s c = modCtx (enablesTaken s c) c (fun x => { x with lastStatus := 1 }) := by
  unfold applyCtxEnables
  dsimp only
  rw [h]
  refine if_neg ?_
  change ¬(getCtx (enablesTaken s c) c).state = .keyed
  rw [getCtx_enablesTaken]
  simp [hs]

theorem exec_enableQueued_context {b : Nat} (hs : (getCtx s c).state = .free) (hq : (getCtx s c).enableQ ≠ [])
    (hr : (getCtx s c).restSince = some b) (h : b + 1 ≤ s.bell.count) :
    exec (.enableQueuedApply (.context c)) s = .next (applyCtxEnables s c) := by
  have hc : ((getCtx s c).state == .free && !(getCtx s c).enableQ.isEmpty && rested s (getCtx s c).restSince) = true := by
    simp [hs, hq, hr, rested_of_le h]
  exact congrArg Host.Outcome.next (if_pos hc)

/-! ### A partition Syllabus in force (R383, R398) -/

theorem getPtn_sweep {f : LineTag → Bool} {q : Nat} : getPtn (sweep s f) q = getPtn s q :=
  congrArg (tget default · q) ((sweep_kept (Kept.refl [.mem, .memErr, .tags, .resv] s) (Within.refl _)).rest .ptn (by decide))

theorem getPtn_bumpPtnGen : getPtn (bumpPtnGen s p) p = { getPtn s p with gen := wrap 8 ((getPtn s p).gen + 1) } := by
  unfold bumpPtnGen
  dsimp only
  split
  · rw [getPtn_modPtn, getPtn_sweep]
  · rw [getPtn_modPtn]

theorem getPtn_bumpPtnGen_other {q : Nat} (h : q ≠ p) : getPtn (bumpPtnGen s p) q = getPtn s q := by
  unfold bumpPtnGen
  dsimp only
  split
  · rw [getPtn_modPtn_other (h := h), getPtn_sweep]
  · rw [getPtn_modPtn_other (h := h)]

/-- The partition's record as its Syllabus comes into force. -/
def broughtPtn (s : State) (p : Nat) (y : PtnSyl) (q : Ptn) : Ptn := { q with
  syl := some y, reload := none, enablePending := none, restSince := none, tt := {}, binding := []
  activeMax := ((grantOf s p).getD {}).ctxCount }

/-- A fresh partition key (R518). -/
def newPtnKey (s : State) (p : Nat) : State := { (draw s 64).2 with keys.ptn := tset none (draw s 64).2.keys.ptn p (some (draw s 64).1) }

theorem newPtnKey_ptn : (newPtnKey s p).ptn = s.ptn := rfl
theorem newPtnKey_int : (newPtnKey s p).int = s.int := rfl
theorem newPtnKey_syl : (newPtnKey s p).syl = s.syl := rfl
theorem newPtnKey_tst : (newPtnKey s p).tst = s.tst := rfl
theorem getPtn_newPtnKey {q : Nat} : getPtn (newPtnKey s p) q = getPtn s q := rfl

/-- The partition ACTIVE, with a fresh key. -/
def broughtUp (s : State) (p : Nat) : State := newPtnKey (setPtnState (bumpPtnGen s p) p .active) p

/-- What its Syllabus allocates to the partition. -/
def broughtAlloc (s : State) (p : Nat) (y : PtnSyl) : State :=
  forEach y.cred (fun s r => bindCred s p y.wins r) (forEach y.sema (fun s r => allocate s p r) s)

/-- The partition held where it lies in a held cluster or a failed channel (R25, R35, R575). -/
def broughtHeld (s : State) (p : Nat) (y : PtnSyl) : State :=
  let s := if s.int.heldClusters.any (bitOf y.clusters) then setHold s p causeDegraded else s
  if usesDead s p then setHold s p causeXdie1 else s

theorem bringPartition_eq {y : PtnSyl} : bringPartition s p y =
    let v := broughtAlloc (modPtn (broughtUp s p) p (broughtPtn (broughtUp s p) p y)) p y
    let i : Issuer := { mmode := true, ctx := ((grantOf v p).getD {}).ctxBase, ptn := p }
    let w := getAt {} y.wins y.rtim.win
    launchRuntime (writeAs (broughtHeld v p y) i (w.mem, w.base + y.rtim.offset) y.rtim.code) p y := rfl

theorem broughtAlloc_frame {y : PtnSyl} : broughtAlloc s p y = { s with rc := (broughtAlloc s p y).rc } := by
  have w := Within.refl [Part.rc]
  exact (forEach_kept (forEach_kept (Kept.refl [.rc] s) fun _ _ h => allocate_kept h) fun _ _ h => bindCred_kept h).frame

theorem getPtn_broughtAlloc {y : PtnSyl} {q : Nat} : getPtn (broughtAlloc s p y) q = getPtn s q := by
  rw [broughtAlloc_frame]
  rfl

theorem getPtn_setHold {b : Nat} : getPtn (setHold s p b) p = { getPtn s p with
    state := (getPtn (setHold s p b) p).state, holdCause := (getPtn (setHold s p b) p).holdCause, tt := (getPtn (setHold s p b) p).tt } := by
  unfold setHold
  dsimp only
  split
  · rw [getPtn_setPtnState, getPtn_modPtn]
  · rfl

theorem getPtn_broughtHeld {y : PtnSyl} : getPtn (broughtHeld s p y) p = { getPtn s p with
    state := (getPtn (broughtHeld s p y) p).state, holdCause := (getPtn (broughtHeld s p y) p).holdCause
    tt := (getPtn (broughtHeld s p y) p).tt } := by
  unfold broughtHeld
  dsimp only
  split
  · split
    · rw [getPtn_setHold, getPtn_setHold]
    · rw [getPtn_setHold]
  · split
    · rw [getPtn_setHold]
    · rfl

theorem usesDead_none (hd : s.tst.deadChannels = []) : usesDead s p = false := by simp [usesDead, hd]

theorem broughtHeld_none {y : PtnSyl} (hh : s.int.heldClusters = []) (hd : s.tst.deadChannels = []) : broughtHeld s p y = s := by
  unfold broughtHeld
  dsimp only
  rw [hh, List.any_nil, if_neg Bool.false_ne_true, usesDead_none hd, if_neg Bool.false_ne_true]

theorem broughtUp_syl_tst : (broughtUp s p).syl = s.syl ∧ (broughtUp s p).tst = s.tst := by
  have w := Within.refl [Part.mem, .memErr, .tags, .resv, .mc, .core, .int, .rc, .ptn, .ctx, .i3c]
  have h : Kept [.mem, .memErr, .tags, .resv, .mc, .core, .int, .rc, .ptn, .ctx, .i3c] s (setPtnState (bumpPtnGen s p) p .active) :=
    setPtnState_kept (bumpPtnGen_kept (Kept.refl _ s))
  rw [broughtUp, newPtnKey_syl, newPtnKey_tst]
  exact ⟨h.rest .syl (by decide), h.rest .tst (by decide)⟩

theorem broughtUp_heldClusters : (broughtUp s p).int.heldClusters = s.int.heldClusters := by
  have h : (bumpPtnGen s p).int = s.int :=
    (bumpPtnGen_kept (Kept.refl [.mem, .memErr, .tags, .resv, .ptn] s) (Within.refl _)).rest .int (by decide)
  rw [broughtUp, newPtnKey_int, setPtnState_heldClusters, h]

/-- The runtime's launch changes of partitions only a queue. -/
theorem getPtn_launchRuntime {y : PtnSyl} {q : Nat} :
    getPtn (launchRuntime s p y) q = { getPtn s q with launchQ := (getPtn (launchRuntime s p y) q).launchQ } := by
  have hend : ∀ (v : State) (e : SyFail), (sylEnd v p 1 e).ptn = v.ptn := fun v e => by
    rw [sylEnd, sylEvent, (queueEvent_spec ..).1]
  have hplace : ∀ n l, (placeGroup s p l n).ptn = s.ptn := fun n l =>
    (placeGroup_kept (Kept.refl [.resv, .core] s) (Within.refl _)).rest .ptn (by decide)
  unfold launchRuntime
  dsimp only
  split
  · rw [getPtn, hend, hplace]
    rfl
  · by_cases h : q = p
    · subst h
      rw [getPtn_modPtn]
      rfl
    · rw [getPtn_modPtn_other (h := h)]
      rfl

theorem getPtn_broughtUp : getPtn (broughtUp s p) p = { getPtn s p with
    gen := wrap 8 ((getPtn s p).gen + 1), state := .active, tt := (getPtn (broughtUp s p) p).tt } := by
  rw [broughtUp, getPtn_newPtnKey, getPtn_setPtnState, getPtn_bumpPtnGen]

theorem getPtn_broughtUp_other {q : Nat} (hq : q ≠ p) : getPtn (broughtUp s p) q = { getPtn s q with tt := (getPtn (broughtUp s p) q).tt } := by
  rw [broughtUp, getPtn_newPtnKey, getPtn_setPtnState_other hq, getPtn_bumpPtnGen_other hq]

/-- The state in which the partition's record and what it allocates stand. -/
def broughtRec (s : State) (p : Nat) (y : PtnSyl) : State :=
  broughtAlloc (modPtn (broughtUp s p) p (broughtPtn (broughtUp s p) p y)) p y

theorem getPtn_broughtRec {y : PtnSyl} : getPtn (broughtRec s p y) p = broughtPtn (broughtUp s p) p y (getPtn (broughtUp s p) p) := by
  rw [broughtRec, getPtn_broughtAlloc, getPtn_modPtn]

theorem getPtn_broughtRec_other {y : PtnSyl} {q : Nat} (hq : q ≠ p) : getPtn (broughtRec s p y) q = getPtn (broughtUp s p) q := by
  rw [broughtRec, getPtn_broughtAlloc, getPtn_modPtn_other (h := hq)]

theorem writeAs_ptn {w : Issuer} {a : Place} {bs : List Byte} : (writeAs s w a bs).ptn = s.ptn := by
  have hst : ∀ (v : State) (f : Core → Core) (k : Nat), (store (modCore v w.core f) k bs).ptn = v.ptn := fun _ _ _ => rfl
  unfold writeAs
  dsimp only
  split
  · exact raise_ptn ..
  split
  · rw [hst, forEach_proj (π := State.ptn)]
    intro _ _
    rfl
  · exact (writeKey_kept (Kept.refl [.mem, .memKey, .memErr, .resv] s) (Within.refl _)).rest .ptn (by decide)

theorem getPtn_writeAs {w : Issuer} {a : Place} {bs : List Byte} {q : Nat} : getPtn (writeAs s w a bs) q = getPtn s q :=
  congrArg (tget default · q) writeAs_ptn

theorem getPtn_bringPartition {y : PtnSyl} {q : Nat} : getPtn (bringPartition s p y) q =
    { getPtn (broughtHeld (broughtRec s p y) p y) q with launchQ := (getPtn (bringPartition s p y) q).launchQ } := by
  rw [bringPartition_eq]
  dsimp only
  rw [getPtn_launchRuntime, getPtn_writeAs, broughtRec]

theorem broughtRec_heldClusters {y : PtnSyl} : (broughtRec s p y).int.heldClusters = s.int.heldClusters := by
  have hm : ∀ (v : State) f, (modPtn v p f).int = v.int := fun _ _ => rfl
  have ha : ∀ v, (broughtAlloc v p y).int = v.int := fun v => by rw [broughtAlloc_frame]
  rw [broughtRec, ha, hm, broughtUp_heldClusters]

theorem broughtRec_deadChannels {y : PtnSyl} : (broughtRec s p y).tst.deadChannels = s.tst.deadChannels := by
  have hm : ∀ (v : State) f, (modPtn v p f).tst = v.tst := fun _ _ => rfl
  have ha : ∀ v, (broughtAlloc v p y).tst = v.tst := fun v => by rw [broughtAlloc_frame]
  rw [broughtRec, ha, hm, broughtUp_syl_tst.2]

/-- The partition's record once its Syllabus is in force, but for a hold that its clusters or channels give it. -/
theorem getPtn_broughtRec_eq {y : PtnSyl} : getPtn (broughtRec s p y) p = { getPtn s p with
    syl := some y, reload := none, enablePending := none, restSince := none, tt := {}, binding := []
    activeMax := ((grantOf s p).getD {}).ctxCount, gen := wrap 8 ((getPtn s p).gen + 1), state := .active } := by
  rw [getPtn_broughtRec, broughtPtn, getPtn_broughtUp, grantOf_of_syl broughtUp_syl_tst.1]

/-- What a partition Syllabus that comes into force gives its partition. -/
theorem bringPartition_spec {y : PtnSyl} : (getPtn (bringPartition s p y) p).syl = some y
    ∧ (getPtn (bringPartition s p y) p).enablePending = none ∧ (getPtn (bringPartition s p y) p).activeMax = ((grantOf s p).getD {}).ctxCount
    ∧ (getPtn (bringPartition s p y) p).gen = wrap 8 ((getPtn s p).gen + 1)
    ∧ (s.int.heldClusters = [] → s.tst.deadChannels = [] → (getPtn (bringPartition s p y) p).state = .active) := by
  rw [getPtn_bringPartition]
  dsimp only
  refine ⟨?_, ?_, ?_, ?_, fun hh hd => ?_⟩
  · rw [getPtn_broughtHeld, getPtn_broughtRec_eq]
  · rw [getPtn_broughtHeld, getPtn_broughtRec_eq]
  · rw [getPtn_broughtHeld, getPtn_broughtRec_eq]
  · rw [getPtn_broughtHeld, getPtn_broughtRec_eq]
  · rw [broughtHeld_none (broughtRec_heldClusters.trans hh) (broughtRec_deadChannels.trans hd), getPtn_broughtRec_eq]

theorem exec_enableQueued_partition {y : PtnSyl} {b : Nat} (ho : (getPtn s p).state = .off) (hp : (getPtn s p).enablePending = some y)
    (hr : (getPtn s p).restSince = some b) (h : b + 1 ≤ s.bell.count) :
    exec (.enableQueuedApply (.partition p)) s = .next (bringPartition { s with syl.reason := syOk } p y) := by
  refine congrArg Host.Outcome.next ?_
  dsimp only
  rw [hp, ho, hr]
  dsimp only
  exact if_pos (by simp [rested_of_le h])

theorem exec_enableQueued_brine {b : Nat} (ho : s.brn.engine = .off) (hp : s.brn.enablePending = true)
    (hr : s.brn.restSince = some b) (h : b + 1 ≤ s.bell.count) : exec (.enableQueuedApply .brine) s =
      .next { s with brn.engine := .on, brn.enablePending := false, brn.restSince := none } := by
  have hc : (s.brn.engine == .off && s.brn.enablePending && rested s s.brn.restSince) = true := by simp [ho, hp, hr, rested_of_le h]
  exact congrArg Host.Outcome.next (if_pos hc)

theorem getCtx_attachQueued {seat : Nat} : (getCtx (attachQueued s c seat) c).state = .attaching
    ∧ (getCtx (attachQueued s c seat) c).reqSeat = seat ∧ (getCtx (attachQueued s c seat) c).loaded = (getCtx s c).loaded
    ∧ (getCtx (attachQueued s c seat) c).gen = (getCtx s c).gen ∧ (getCtx (attachQueued s c seat) c).enableQ = (getCtx s c).enableQ := by
  rw [attachQueued, getCtx_modCtx, getCtx_setCtxState]
  exact ⟨rfl, rfl, rfl, rfl, rfl⟩

/-- Settles O34: each of the events is taken apart by the state that its context, partition or engine is in. -/
theorem contextDeparturesAndQueuedEnables : Obligations.ContextDeparturesAndQueuedEnables := by
  unfold Obligations.ContextDeparturesAndQueuedEnables
  intro s p c hp
  dsimp only
  refine ⟨fun h0 hc hb => ⟨fun hs => ?_, fun hs hy => ?_⟩, exec_boundExpiry_early hp, fun q hs hy hq => ⟨fun h => ?_, exec_landingQuiet_early hp⟩,
    fun b hs hr h => ⟨fun ks seat he => ?_, fun seat he => ?_⟩, fun y b ho he hr h => ?_, fun b ho he hr h => ?_⟩
  · refine .of_eq (exec_boundExpiry hp h0 hc hb) (boundExpiry_preempting hs) ⟨?_, ?_⟩
    · exact getCtx_restartCtx (.inr (getCtx_revoked.1.trans hs))
    · rw [ptnRoll_restartCtx.ptn, getPtn_revoked]
  · refine .of_eq (exec_boundExpiry hp h0 hc hb) (boundExpiry_detaching hs hy) ⟨?_, getCtx_leave.2.1, ?_⟩
    · rw [getCtx_leave.1, getCtx_revoked.1, hs]
    · rw [ptnRoll_leave.ptn, getPtn_revoked]
  · exact .of_next (exec_landingQuiet hp hs hy hq h) ⟨getCtx_enterScrub, enterScrub_brn_mem.1, sameMemory_of_mem enterScrub_brn_mem.2⟩
  · refine .of_eq (exec_enableQueued_context hs (by simp [he]) hr h) (applyCtxEnables_key_attach he) ?_
    obtain ⟨-, hl, hg, hq⟩ := getCtx_loadKey (s := enablesTaken s c) (c := c) (k := { xts := getAt [] ks 0, imp := getAt [] ks 1, exp := getAt [] ks 2 })
    obtain ⟨has, har, hal, hag, haq⟩ := getCtx_attachQueued (c := c) (seat := seat)
      (s := loadKey (enablesTaken s c) c { xts := getAt [] ks 0, imp := getAt [] ks 1, exp := getAt [] ks 2 })
    rw [getCtx_enablesTaken] at hg hq
    exact ⟨has, har, hal.trans hl, hag.trans hg, haq.trans hq⟩
  · refine .of_eq (exec_enableQueued_context hs (by simp [he]) hr h) (applyCtxEnables_attach hs he) ?_
    rw [getCtx_modCtx, getCtx_enablesTaken]
  · obtain ⟨hy, hn, hm, -, ha⟩ := bringPartition_spec (s := { s with syl.reason := syOk }) (p := p) (y := y)
    exact .of_next (exec_enableQueued_partition ho he hr h) ⟨hy, hn, hm, ha⟩
  · exact .of_next (exec_enableQueued_brine ho he hr h) rfl

end Sys2Proof.Machine
end


section
/-! SUPPORT and proof of O35. Brine: its commands, its jobs and its scrubs. -/

namespace Sys2Proof.Machine

variable {s t u : State} {r : List Byte} {who : Req} {p c b k n off a lo hi i : Nat}

/-! ### The journal's newest entry (R507-R510) -/

/-- The entry that is appended stands last in the journal, as it was given. -/
theorem journal_getLast {e : JEntry} : ∃ q st lc ln, (journal s e).led.journal.getLast? =
    some { e with seq := q, stamp := st, lc := lc, link := ln } := by
  unfold journal
  dsimp only
  split
  · rw [raise_parts, List.getLast?_concat]
    exact ⟨_, _, _, _, rfl⟩
  · rw [List.getLast?_concat]
    exact ⟨_, _, _, _, rfl⟩

theorem journal_brn {e : JEntry} : (journal s e).brn = s.brn :=
  (journal_kept (Kept.refl [.mc, .int, .ptn, .ctx, .led, .lcs, .i3c] s) (Within.refl _)).rest .brn (by decide)

theorem journalFor_brn {e : JEntry} : (journalFor s who e).brn = s.brn := journal_brn

theorem mem_insertNat {l : List Nat} : b ∈ insertNat b l := by
  induction l with
  | nil => exact List.mem_singleton.2 rfl
  | cons x xs ih =>
    unfold insertNat
    split
    · exact List.mem_cons_of_mem _ ih
    split
    · next h => exact h ▸ List.mem_cons_self
    · exact List.mem_cons_self

/-! ### The commands (R420, R421, R424) -/

/-- The word of a base command: the base above the operation. -/
theorem bits_baseWord {op : Nat} (hb : b < 65536) (ho : op < 16) : bits (256 * (b % 65536) + op) 24 8 = 0
    ∧ bits (256 * (b % 65536) + op) 4 4 = 0 ∧ bits (256 * (b % 65536) + op) 0 4 = op ∧ bits (256 * (b % 65536) + op) 8 16 = b := by
  simp only [bits, Nat.shiftRight_eq_div_pow]
  omega

theorem brnCmd_base {op : Nat} (hb : b < 65536) (ho : op = 1 ∨ op = 4) : brnCmd s who (256 * (b % 65536) + op) =
    if isOperator s who then brnBase s who (op == 4) b else brnResult s brRole := by
  obtain ⟨h24, h4, h0, h8⟩ := bits_baseWord (op := op) hb (by omega)
  unfold brnCmd
  dsimp only
  rw [h24, h4, h0, h8, if_neg (by omega), if_pos ho]

theorem brnCmd_enable : brnCmd s who 2 = if isInstaller s who then brnEnable s who else brnResult s brRole := by
  unfold brnCmd
  cases isInstaller s who <;> rfl

theorem brnCmd_disable : brnCmd s who 3 = if isInstaller s who then brnDisable s who else brnResult s brRole := by
  unfold brnCmd
  cases isInstaller s who <;> rfl

section Operator

variable (hup : partsUp s = true) (hop : isOperator s who = true)
include hup hop

theorem mayBrn_operator : mayBrn s who = true := by simp [mayBrn, hup, hop]

theorem exec_baseCommit (hb : b < 65536) : exec (.baseCommit who b) s = .next (brnBase s who true b) := by
  refine congrArg Host.Outcome.next ((if_pos (mayBrn_operator hup hop)).trans ?_)
  rw [brnCmd_base hb (.inr rfl), if_pos hop]
  rfl

theorem exec_baseTeardown (hb : b < 65536) : exec (.baseTeardown who b) s = .next (brnBase s who false b) := by
  refine congrArg Host.Outcome.next ((if_pos (mayBrn_operator hup hop)).trans ?_)
  rw [brnCmd_base hb (.inl rfl), if_pos hop]
  rfl

theorem exec_brineEnable_operator : exec (.brineEnable who) s = .next (brnResult s brRole) := by
  refine congrArg Host.Outcome.next ((if_pos (mayBrn_operator hup hop)).trans ?_)
  rw [brnCmd_enable, isInstaller_of_operator hop]
  rfl

theorem exec_brineDisable_operator : exec (.brineDisable who) s = .next (brnResult s brRole) := by
  refine congrArg Host.Outcome.next ((if_pos (mayBrn_operator hup hop)).trans ?_)
  rw [brnCmd_disable, isInstaller_of_operator hop]
  rfl

end Operator

theorem isOperator_of_installer (h : isInstaller s who = true) : isOperator s who = false := by
  have hr : roleOf s who = some .installer := by simpa [isInstaller] using h
  simp [isOperator, hr]

section Installer

variable (hup : partsUp s = true) (hin : isInstaller s who = true)
include hup hin

theorem mayBrn_installer : mayBrn s who = true := by simp [mayBrn, hup, hin]

theorem exec_brineEnable : exec (.brineEnable who) s = .next (brnEnable s who) := by
  refine congrArg Host.Outcome.next ((if_pos (mayBrn_installer hup hin)).trans ?_)
  rw [brnCmd_enable, if_pos hin]

theorem exec_brineDisable : exec (.brineDisable who) s = .next (brnDisable s who) := by
  refine congrArg Host.Outcome.next ((if_pos (mayBrn_installer hup hin)).trans ?_)
  rw [brnCmd_disable, if_pos hin]

theorem exec_baseCommit_installer (hb : b < 65536) : exec (.baseCommit who b) s = .next (brnResult s brRole) := by
  refine congrArg Host.Outcome.next ((if_pos (mayBrn_installer hup hin)).trans ?_)
  rw [brnCmd_base hb (.inr rfl), isOperator_of_installer hin]
  rfl

theorem exec_baseTeardown_installer (hb : b < 65536) : exec (.baseTeardown who b) s = .next (brnResult s brRole) := by
  refine congrArg Host.Outcome.next ((if_pos (mayBrn_installer hup hin)).trans ?_)
  rw [brnCmd_base hb (.inl rfl), isOperator_of_installer hin]
  rfl

end Installer

theorem brnBase_noBase {f : Bool} (h : s.syl.module = none ∨ baseWin s b = none) : brnBase s who f b = brnResult s brNoBase :=
  if_pos (by rcases h with h | h <;> simp [h])

section Base

variable (hm : s.syl.module.isSome = true) (hw : (baseWin s b).isSome = true)
include hm hw

theorem brnBase_past : ¬(s.syl.module.isNone || (baseWin s b).isNone) = true := by
  simp [Option.isNone_eq_false_iff.2 hm, Option.isNone_eq_false_iff.2 hw]

theorem brnBase_commit_rind (h : b ∈ s.brn.rind) : brnBase s who true b = brnResult s brRindSet :=
  (if_neg (brnBase_past hm hw)).trans ((if_pos rfl).trans (if_pos (List.contains_iff_mem.2 h)))

theorem brnBase_commit_noKey (h : b ∉ s.brn.rind) (hs : baseSlot s b = some k) (hk : tget none s.keys.base k = none) :
    brnBase s who true b = brnResult s brNoKey := by
  refine (if_neg (brnBase_past hm hw)).trans ((if_pos rfl).trans ((if_neg (mt List.contains_iff_mem.1 h)).trans (if_pos ?_)))
  rw [hs]
  exact Option.isNone_iff_eq_none.2 hk

theorem brnBase_commit_keyed (h : b ∉ s.brn.rind) (hs : baseSlot s b = some k) {x : KeySlot} (hk : tget none s.keys.base k = some x) :
    brnBase s who true b = if !journalRoom s then brnResult s brRejected
      else brnPush s (.baseCommit b (journalRole s who).1 (journalRole s who).2) := by
  refine (if_neg (brnBase_past hm hw)).trans ((if_pos rfl).trans ((if_neg (mt List.contains_iff_mem.1 h)).trans (if_neg ?_)))
  rw [hs]
  dsimp only
  rw [hk]
  exact Bool.false_ne_true

theorem brnBase_teardown : brnBase s who false b = if baseInUse s b then brnResult s brInUse
    else if !journalRoom s then brnResult s brRejected
    else brnPush (journalFor s who { action := 0x09, aux := b }) (.baseTeardown b) := by
  exact (if_neg (brnBase_past hm hw)).trans (if_neg Bool.false_ne_true)

end Base

theorem brnEnable_noRoom (h : ¬journalRoom s = true) : brnEnable s who = brnResult s brRejected := if_pos (by simp [h])
theorem brnDisable_noRoom (h : ¬journalRoom s = true) : brnDisable s who = brnResult s brRejected := if_pos (by simp [h])

section Room

variable (hj : journalRoom s = true)
include hj

theorem brnEnable_room (h : s.brn.engine ≠ .disabling) : brnEnable s who = brnResult { journalFor s who { action := 0x12, aux := 2 } with
    brn := { s.brn with engine := .on, enablePending := false, restSince := none } } brOk := by
  unfold brnEnable
  rw [if_neg (by simp [hj])]
  dsimp only
  rw [journalFor_brn]
  generalize hx : s.brn.engine = x at h
  cases x <;> first | rfl | exact absurd rfl h

theorem brnEnable_disabling (h : s.brn.engine = .disabling) : brnEnable s who =
    brnResult { journalFor s who { action := 0x12, aux := 2 } with brn := { s.brn with enablePending := true } } brQueued := by
  unfold brnEnable
  rw [if_neg (by simp [hj])]
  dsimp only
  rw [journalFor_brn, h]

theorem brnDisable_on (h : s.brn.engine = .on) : brnDisable s who =
    brnResult { journalFor s who { action := 0x12, aux := 3 } with brn := { s.brn with engine := .disabling } } brOk := by
  unfold brnDisable
  rw [if_neg (by simp [hj])]
  dsimp only
  rw [journalFor_brn, h]

end Room

/-! ### Jobs (R417) -/

theorem queueEvent_parts {r : List Byte} : (queueEvent s k r).brn = s.brn ∧ (queueEvent s k r).mem = s.mem ∧ (queueEvent s k r).led = s.led
    ∧ (queueEvent s k r).ctx = s.ctx ∧ (queueEvent s k r).ptn = s.ptn ∧ (queueEvent s k r).keys = s.keys := by
  rw [(queueEvent_spec s k r).1]
  exact ⟨rfl, rfl, rfl, rfl, rfl, rfl⟩

theorem exec_brineJobStart {j : BrnJob} {q : List BrnJob} (hq : s.brn.queue = j :: q) : exec .brineJobStart s =
    .next (if s.brn.engine ≠ .on ∨ s.brn.cur.isSome ∨ s.pwr.hold then s
      else brnEvent { s with brn.queue := q, brn.cur := some j, brn.left := jobBytes s j / 2 ^ 20 } 3 j) := by
  refine congrArg Host.Outcome.next ?_
  unfold brnStart
  rw [hq]

theorem brnEvent_parts {j : BrnJob} : (brnEvent s k j).brn = s.brn ∧ (brnEvent s k j).mem = s.mem :=
  ⟨queueEvent_parts.1, queueEvent_parts.2.1⟩

/-- The job's effect. -/
def jobDone (s : State) : BrnJob → State
  | .partition p => endPartition s p
  | .context p c => endContext s p c
  | .baseTeardown b => endBaseTeardown s b
  | .baseCommit b role slot => endCommit s b role slot

/-- Brine without the job that has ended. -/
def jobCounted (s : State) : State := { s with brn.cur := none, brn.left := 0, brn.count := satInc 32 s.brn.count }

/-- The record of the event that ends a job (R418). -/
def jobEndRec (s : State) (j : BrnJob) : List Byte :=
  eventRec (jobDone s j) 4 (jobCode j).2.1 (jobCode j).2.2 (leBytes 8 (jobCode j).1 ++ leBytes 8 (jobBytes s j))

section JobEnd

variable {j : BrnJob} (hc : s.brn.cur = some j)
include hc

theorem exec_brineJobEnd_held (h : captureHolds s j = true) : exec .brineJobEnd s = .next s := by
  refine congrArg Host.Outcome.next ?_
  unfold brnEnd
  rw [hc]
  exact if_pos (.inr (.inr h))

theorem exec_brineJobEnd (he : s.brn.engine = .on) (hh : s.pwr.hold = false) (h : captureHolds s j = false) :
    exec .brineJobEnd s = .next (queueEvent (jobCounted (jobDone s j)) 4 (jobEndRec s j)) := by
  have hn : ¬(s.brn.engine ≠ .on ∨ s.pwr.hold = true ∨ captureHolds s j = true) := by simp [he, hh, h]
  refine congrArg Host.Outcome.next ?_
  unfold brnEnd
  rw [hc]
  exact (if_neg hn).trans (by cases j <;> rfl)

end JobEnd

/-- What the end of a job leaves of Brine. -/
theorem jobCounted_brn : (queueEvent (jobCounted t) 4 r).brn = { t.brn with cur := none, left := 0, count := satInc 32 t.brn.count } :=
  queueEvent_parts.1

/-! ### A context's scrub (R410, R415) -/

theorem freeCtx_spec : (getCtx (freeCtx s c) c).state = .free ∧ (getCtx (freeCtx s c) c).loaded = false
    ∧ tget none (freeCtx s c).keys.ctx c = none := by
  have hk : ∀ v : State, (setCtxState v c .free).keys = v.keys := fun v =>
    (setCtxState_kept (Kept.refl [.mc, .core, .int, .rc, .ptn, .ctx, .i3c] v) (Within.refl _)).rest .keys (by decide)
  unfold freeCtx
  dsimp only
  rw [getCtx_modCtx, getCtx_setCtxState, modCtx_keys, hk]
  refine ⟨rfl, rfl, ?_⟩
  dsimp only
  exact tget_tset_same

theorem freeCtx_other {d : Nat} (h : d ≠ c) : (getCtx (freeCtx s c) d).state = (getCtx s d).state := by
  unfold freeCtx
  dsimp only
  rw [getCtx_modCtx_other (h := h), getCtx_setCtxState_other h]
  rfl

/-- Freeing a list of contexts leaves each of them FREE, and the others in their states. -/
theorem forEach_freeCtx {cs : List Nat} {d : Nat} :
    (getCtx (forEach cs freeCtx s) d).state = if d ∈ cs then .free else (getCtx s d).state := by
  induction cs generalizing s with
  | nil => rfl
  | cons c cs ih =>
    rw [forEach_cons, ih]
    by_cases hd : d ∈ cs
    · rw [if_pos hd, if_pos (List.mem_cons_of_mem _ hd)]
    · rw [if_neg hd]
      by_cases hc : d = c
      · rw [hc, freeCtx_spec.1, if_pos List.mem_cons_self]
      · rw [freeCtx_other hc, if_neg (by simp [hc, hd])]

theorem endContext_spec : (getCtx (endContext s p c) c).state = .free ∧ (getCtx (endContext s p c) c).loaded = false
    ∧ tget none (endContext s p c).keys.ctx c = none ∧ (endContext s p c).brn = s.brn :=
  ⟨freeCtx_spec.1, freeCtx_spec.2.1, freeCtx_spec.2.2,
    (endContext_kept (Kept.refl [.fresh, .mem, .memKey, .memErr, .resv, .mc, .core, .int, .rc, .ptn, .ctx, .keys, .xf, .vat, .i3c] s)
      (Within.refl _)).rest .brn (by decide)⟩

/-! ### A partition's scrub (R412, R415) -/

/-- The partition's quotas and its contexts' slots are scrubbed. -/
def quotasScrubbed (s : State) (p : Nat) : State :=
  let s' := match grantOf s p with
    | some g => scrubLinear (scrubLinear s .hbm (g.hbmBase * 65536) (g.hbmSize * 65536)) .tier2 (g.t2Base * 65536) (g.t2Size * 65536)
    | none => s
  forEach (slotsOwned s' (ctxRange s p).contains) evictSlot s'

/-- Its contexts are freed. -/
def contextsFreed (s : State) (cs : List Nat) : State :=
  forEach (cs.filter (fun c => (getCtx s c).state != .free || (getCtx s c).loaded)) freeCtx s

/-- Its key and what is kept for its contexts are gone. -/
def partitionGone (s : State) (p : Nat) (cs : List Nat) : State := { s with
  keys.ptn := tset none s.keys.ptn p none, xf.digests := s.xf.digests.filter (fun d => !cs.contains d.ctx)
  brn.queue := s.brn.queue.filter (fun j => match j with | .context q _ => q != p | _ => true) }

/-- Its record once it is gone. -/
def ptnGone (s : State) (q : Ptn) : Ptn :=
  { q with scrubLeft := 0, restSince := if q.enablePending.isSome then some (restFrom s) else none }

theorem endPartition_eq : endPartition s p =
    let v := partitionGone (contextsFreed (quotasScrubbed s p) (ctxRange s p)) p (ctxRange s p)
    setPtnState (modPtn v p (ptnGone v)) p .off := rfl

theorem getCtx_contextsFreed {cs : List Nat} (h : c ∈ cs) : (getCtx (contextsFreed s cs) c).state = .free := by
  rw [contextsFreed, forEach_freeCtx]
  split
  · rfl
  · next hn =>
    by_contra hs
    exact hn (List.mem_filter.2 ⟨h, by simp [hs]⟩)

theorem partitionGone_parts {cs : List Nat} : (partitionGone s p cs).keys = { s.keys with ptn := tset none s.keys.ptn p none }
    ∧ (partitionGone s p cs).ctx = s.ctx ∧ (partitionGone s p cs).brn.count = s.brn.count := ⟨rfl, rfl, rfl⟩

theorem contextsFreed_brn : (contextsFreed (quotasScrubbed s p) (ctxRange s p)).brn = s.brn := by
  have w := Within.refl [Part.fresh, .mem, .memKey, .memErr, .resv, .mc, .core, .int, .rc, .ptn, .ctx, .keys, .vat, .i3c]
  have hq : Kept [.fresh, .mem, .memKey, .memErr, .resv, .mc, .core, .int, .rc, .ptn, .ctx, .keys, .vat, .i3c] s (quotasScrubbed s p) := by
    unfold quotasScrubbed
    dsimp only
    refine forEach_kept ?_ fun _ _ h => evictSlot_kept h
    split
    · exact scrubLinear_kept (scrubLinear_kept (Kept.refl _ s))
    · exact Kept.refl _ s
  exact (forEach_kept hq fun _ _ h => freeCtx_kept h).rest .brn (by decide)

theorem setPtnState_keys_brn {x : PtnState} {f : Ptn → Ptn} : (setPtnState (modPtn s p f) p x).keys = s.keys
    ∧ (setPtnState (modPtn s p f) p x).brn = s.brn := by
  have w := Within.refl [Part.mc, .core, .int, .rc, .ptn, .ctx, .i3c]
  have k : Kept [.mc, .core, .int, .rc, .ptn, .ctx, .i3c] s (setPtnState (modPtn s p f) p x) := setPtnState_kept (modPtn_kept (Kept.refl _ s))
  exact ⟨k.rest .keys (by decide), k.rest .brn (by decide)⟩

theorem endPartition_spec : (getPtn (endPartition s p) p).state = .off ∧ tget none (endPartition s p).keys.ptn p = none
    ∧ (∀ c ∈ ctxRange s p, (getCtx (endPartition s p) c).state = .free) ∧ (endPartition s p).brn.count = s.brn.count := by
  rw [endPartition_eq]
  dsimp only
  refine ⟨?_, ?_, fun c hc => ?_, ?_⟩
  · rw [getPtn_setPtnState]
  · rw [setPtnState_keys_brn.1, partitionGone_parts.1]
    dsimp only
    exact tget_tset_same
  · have hm : ∀ (v : State) f, getCtx (modPtn v p f) c = getCtx v c := fun _ _ => rfl
    rw [getCtx_setPtnState, hm, getCtx_of_ctx partitionGone_parts.2.1]
    exact getCtx_contextsFreed hc
  · rw [setPtnState_keys_brn.2, partitionGone_parts.2.2, contextsFreed_brn]

/-! ### BASE_COMMIT and BASE_TEARDOWN (R420, R421) -/

/-- The entry of a commit. -/
def commitEntry (b role slot : Nat) (bs : List Byte) : JEntry :=
  { action := 0x14, role := role, slot := slot, aux := b, data := (shake256 32 bs) }

theorem endCommit_ok {role slot : Nat} {bs : List Byte} (h : loadBase s b = (t, .ok bs)) : endCommit s b role slot =
    if journalRoom t then brnResult (journal (setRind t b) (commitEntry b role slot bs)) brOk else brnResult t brRejected := by
  unfold endCommit
  rw [h]
  rfl

theorem endCommit_error {role slot : Nat} {x : BaseErr} (h : loadBase s b = (t, .error x)) :
    endCommit s b role slot = brnResult (baseFault t x) brBadBase := by
  unfold endCommit
  rw [h]

theorem setRind_parts : (setRind s b).brn = { s.brn with rind := insertNat b s.brn.rind } ∧ (setRind s b).led = s.led
    ∧ (setRind s b).mem = s.mem := ⟨rfl, rfl, rfl⟩

theorem baseFault_parts {x : BaseErr} : (baseFault s x).brn = s.brn ∧ (baseFault s x).mem = s.mem := by
  unfold baseFault
  split
  · rw [raise_parts]
    exact ⟨rfl, rfl⟩
  · exact ⟨rfl, rfl⟩

theorem loadBase_brn : (loadBase s b).1.brn = s.brn :=
  (loadBase_kept (Kept.refl [.mem, .memKey, .memErr, .resv] s) (Within.refl _)).rest .brn (by decide)

theorem brnResult_parts {st : Nat} : (brnResult s st).brn = { s.brn with done := true, status := st } ∧ (brnResult s st).led = s.led
    ∧ (brnResult s st).mem = s.mem := ⟨rfl, rfl, rfl⟩

theorem endCommit_count {role slot : Nat} : (endCommit s b role slot).brn.count = s.brn.count := by
  rcases h : loadBase s b with ⟨t, x | bs⟩
  · have ht : t.brn = s.brn := by rw [← loadBase_brn (s := s) (b := b), h]
    rw [endCommit_error h, brnResult_parts.1, baseFault_parts.1, ht]
  · have ht : t.brn = s.brn := by rw [← loadBase_brn (s := s) (b := b), h]
    rw [endCommit_ok h]
    split
    · rw [brnResult_parts.1, journal_brn, setRind_parts.1, ht]
    · rw [brnResult_parts.1, ht]

/-- The base's windows are scrubbed and its key ends. -/
def baseScrubbed (s : State) (b : Nat) : State :=
  let v := forEach ((moduleWins s).filter (fun w => (w.type == .base || w.type == .colsum) && w.owner == b))
    (fun s w => scrubLinear s w.mem w.base w.size) s
  match baseSlot v b with
  | some k => { v with keys.base := tset none v.keys.base k none }
  | none => v

theorem endBaseTeardown_eq : endBaseTeardown s b = brnResult { baseScrubbed s b with
    brn.rind := (baseScrubbed s b).brn.rind.filter (· != b), subf := (baseScrubbed s b).subf.filter (fun f => f.base != b) } brOk := rfl

theorem baseScrubbed_brn : (baseScrubbed s b).brn = s.brn := by
  have w := Within.refl [Part.fresh, .mem, .memKey, .memErr, .resv]
  have h : ∀ ws : List Win, (forEach ws (fun s w => scrubLinear s w.mem w.base w.size) s).brn = s.brn := fun ws =>
    (forEach_kept (Kept.refl [.fresh, .mem, .memKey, .memErr, .resv] s) fun _ _ h => scrubLinear_kept h).rest .brn (by decide)
  unfold baseScrubbed
  dsimp only
  split <;> exact h _

theorem endBaseTeardown_spec : b ∉ (endBaseTeardown s b).brn.rind ∧ (endBaseTeardown s b).brn.status = 0
    ∧ (endBaseTeardown s b).brn.count = s.brn.count := by
  rw [endBaseTeardown_eq, brnResult_parts.1]
  dsimp only
  refine ⟨fun h => ?_, rfl, ?_⟩
  · have hb := (List.mem_filter.1 h).2
    simp at hb
  · rw [baseScrubbed_brn]

theorem jobDone_count {j : BrnJob} : (jobDone s j).brn.count = s.brn.count := by
  cases j with
  | partition p => exact endPartition_spec.2.2.2
  | context p c => exact congrArg BrnBlk.count endContext_spec.2.2.2
  | baseTeardown b => exact endBaseTeardown_spec.2.2
  | baseCommit b role slot => exact endCommit_count

/-! ### A scrub leaves zeros under a fresh key (R413) -/

theorem sliceRanges_one {k : MemKind} {f : Nat} (hk : k.isSram = false) (hn : 0 < n) (h : off % 2 ^ 36 + n ≤ 2 ^ 36) :
    sliceRanges k (f + 2) off n = [(addrOf (k, off), n)] := by
  have hm : min n (2 ^ 36 - off % 2 ^ 36) = n := Nat.min_eq_left (by omega)
  unfold sliceRanges
  rw [hk, if_neg (by omega)]
  dsimp only
  rw [if_neg Bool.false_ne_true, hm, Nat.sub_self]
  unfold sliceRanges
  rw [if_pos rfl]

theorem scrubLinear_eq {k : MemKind} (hk : k.isSram = false) (hn : 0 < n) (h : off % 2 ^ 36 + n ≤ 2 ^ 36) :
    scrubLinear s k off n = fillZero (draw s 64).2 (addrOf (k, off)) n (draw s 64).1 := by
  unfold scrubLinear
  rw [sliceRanges_one (f := 15) hk hn h]
  rfl

/-- The units of a filled range are under its key. -/
theorem keyAt_keyFill {τ : Tbl (List Byte)} {key : List Byte} (h : lo ≤ i ∧ i < hi) : keyAt (keyFill τ lo hi key) i = key := by
  have hlow : ∀ e ∈ τ.takeWhile (fun e => decide (e.1 < lo)), decide (e.1 ≤ i) = true := fun e he => by
    have := List.mem_takeWhile_imp he
    simp only [decide_eq_true_eq] at this ⊢
    omega
  have hrest : ∀ after : List Byte, ((if after = key then [] else [(hi, after)]) ++ τ.filter (fun e => decide (hi < e.1))).takeWhile
      (fun e => decide (e.1 ≤ i)) = [] := fun after => by
    have hall : ∀ e ∈ (if after = key then [] else [(hi, after)]) ++ τ.filter (fun e => decide (hi < e.1)), ¬decide (e.1 ≤ i) = true := by
      intro e he
      rcases List.mem_append.1 he with he | he
      · have he' : e = (hi, after) := by
          split at he
          · exact absurd he List.not_mem_nil
          · exact List.mem_singleton.1 he
        simp only [he', decide_eq_true_eq]
        omega
      · have := (List.mem_filter.1 he).2
        simp only [decide_eq_true_eq] at this ⊢
        omega
    exact List.takeWhile_eq_nil_iff.2 fun hl => hall _ (List.getElem_mem hl)
  unfold keyAt keyFill
  rw [if_neg (by omega)]
  dsimp only
  rw [List.append_assoc, List.append_assoc, List.takeWhile_append_of_pos hlow, List.foldl_append]
  split
  · next hb =>
    rw [List.nil_append, hrest]
    exact hb
  · rw [List.singleton_append, List.takeWhile_cons_of_pos (by simp; omega), hrest]
    rfl

theorem scrubLinear_keyAt {k : MemKind} (hk : k.isSram = false) (hn : 0 < n) (h : off % 2 ^ 36 + n ≤ 2 ^ 36) (h0 : off % 64 = 0)
    (hn0 : n % 64 = 0) (hi : addrOf (k, off) ≤ i ∧ i < addrOf (k, off) + n) :
    keyAt (scrubLinear s k off n).memKey (i / 64) = (draw s 64).1 := by
  have ha : addrOf (k, off) % 64 = 0 := by
    cases k with
    | coreSram => cases hk
    | clusterSram => cases hk
    | hbm => simp only [addrOf]; omega
    | tier2 => simp only [addrOf]; omega
  rw [scrubLinear_eq hk hn h]
  exact keyAt_keyFill (by omega)

theorem scrubLinear_readByte {k : MemKind} (hk : k.isSram = false) (hn : 0 < n) (h : off % 2 ^ 36 + n ≤ 2 ^ 36) :
    (addrOf (k, off) ≤ i → i < addrOf (k, off) + n → readByte (scrubLinear s k off n) i = 0)
    ∧ (i < addrOf (k, off) ∨ addrOf (k, off) + n ≤ i → readByte (scrubLinear s k off n) i = readByte s i) := by
  have hd : readByte (draw s 64).2 i = readByte s i := rfl
  rw [scrubLinear_eq hk hn h]
  exact ⟨fun hl hu => readByte_fillZero_in _ _ _ _ _ ⟨hl, hu⟩, fun ho => (readByte_fillZero_out _ _ _ _ _ ho).trans hd⟩

/-! ### The clauses of O35 -/

/-- The state once the job has ended. -/
def jobEnded (s : State) (j : BrnJob) : State := queueEvent (jobCounted (jobDone s j)) 4 (jobEndRec s j)

theorem jobEnded_brn {j : BrnJob} : (jobEnded s j).brn =
    { (jobDone s j).brn with cur := none, left := 0, count := satInc 32 s.brn.count } := by
  rw [jobEnded, jobCounted_brn, jobDone_count]

theorem jobCounted_parts : (jobCounted s).mem = s.mem ∧ (jobCounted s).led = s.led ∧ (jobCounted s).ctx = s.ctx
    ∧ (jobCounted s).ptn = s.ptn ∧ (jobCounted s).keys = s.keys := ⟨rfl, rfl, rfl, rfl, rfl⟩

theorem jobEnded_parts {j : BrnJob} : (jobEnded s j).mem = (jobDone s j).mem ∧ (jobEnded s j).led = (jobDone s j).led
    ∧ (jobEnded s j).ctx = (jobDone s j).ctx ∧ (jobEnded s j).ptn = (jobDone s j).ptn ∧ (jobEnded s j).keys = (jobDone s j).keys := by
  obtain ⟨-, hm, hl, hc, hp, hk⟩ := queueEvent_parts (s := jobCounted (jobDone s j)) (k := 4) (r := jobEndRec s j)
  exact ⟨hm, hl, hc, hp, hk⟩

theorem jobEnded_context : (getCtx (jobEnded s (.context p c)) c).state = .free ∧ (getCtx (jobEnded s (.context p c)) c).loaded = false
    ∧ tget none (jobEnded s (.context p c)).keys.ctx c = none := by
  obtain ⟨hs, hl, hk, -⟩ := endContext_spec (s := s) (p := p) (c := c)
  obtain ⟨-, -, hc, -, hke⟩ := jobEnded_parts (s := s) (j := .context p c)
  rw [getCtx_of_ctx hc, hke]
  exact ⟨hs, hl, hk⟩

theorem jobEnded_partition : (getPtn (jobEnded s (.partition p)) p).state = .off ∧ tget none (jobEnded s (.partition p)).keys.ptn p = none
    ∧ ∀ c ∈ ctxRange s p, (getCtx (jobEnded s (.partition p)) c).state = .free := by
  obtain ⟨hs, hk, hc, -⟩ := endPartition_spec (s := s) (p := p)
  obtain ⟨-, -, hcx, hp, hke⟩ := jobEnded_parts (s := s) (j := .partition p)
  refine ⟨?_, ?_, fun c h => ?_⟩
  · rw [getPtn, hp]
    exact hs
  · rw [hke]
    exact hk
  · rw [getCtx_of_ctx hcx]
    exact hc c h

section Commit

variable {role slot : Nat}

theorem endCommit_room {bs : List Byte} (h : loadBase s b = (t, .ok bs)) (hj : journalRoom t = true) :
    endCommit s b role slot = brnResult (journal (setRind t b) (commitEntry b role slot bs)) brOk := by
  rw [endCommit_ok h, if_pos hj]

theorem jobEnded_commit_room {bs : List Byte} (h : loadBase s b = (t, .ok bs)) (hj : journalRoom t = true) :
    b ∈ (jobEnded s (.baseCommit b role slot)).brn.rind ∧ (jobEnded s (.baseCommit b role slot)).brn.status = 0
    ∧ (jobEnded s (.baseCommit b role slot)).led.seq = t.led.seq + 1 ∧ (jobEnded s (.baseCommit b role slot)).mem = t.mem
    ∧ ∃ e, (jobEnded s (.baseCommit b role slot)).led.journal.getLast? = some e ∧ e.action = 0x14 ∧ e.role = role ∧ e.slot = slot
      ∧ e.aux = b := by
  obtain ⟨hm, hl, -⟩ := jobEnded_parts (s := s) (j := .baseCommit b role slot)
  obtain ⟨q, st, lc, ln, he⟩ := journal_getLast (s := setRind t b) (e := commitEntry b role slot bs)
  obtain ⟨hseq, hmem, -⟩ := journal_spec (setRind t b) (commitEntry b role slot bs)
  have hd : jobDone s (.baseCommit b role slot) = _ := endCommit_room h hj
  have hb := jobEnded_brn (s := s) (j := .baseCommit b role slot)
  rw [hd] at hm hl hb
  rw [hb, hm, hl, brnResult_parts.1, brnResult_parts.2.1, brnResult_parts.2.2, journal_brn, setRind_parts.1, hseq, hmem, he]
  exact ⟨mem_insertNat, rfl, rfl, rfl, _, rfl, rfl, rfl, rfl, rfl⟩

theorem jobEnded_commit_noRoom {bs : List Byte} (h : loadBase s b = (t, .ok bs)) (hj : journalRoom t = false) :
    (jobEnded s (.baseCommit b role slot)).brn.rind = t.brn.rind ∧ (jobEnded s (.baseCommit b role slot)).brn.status = 3
    ∧ (jobEnded s (.baseCommit b role slot)).led = t.led := by
  obtain ⟨-, hl, -⟩ := jobEnded_parts (s := s) (j := .baseCommit b role slot)
  have hd : jobDone s (.baseCommit b role slot) = brnResult t brRejected := by
    rw [jobDone, endCommit_ok h, if_neg (by simp [hj])]
  have hb := jobEnded_brn (s := s) (j := .baseCommit b role slot)
  rw [hd] at hl hb
  rw [hb, hl, brnResult_parts.1, brnResult_parts.2.1]
  exact ⟨rfl, rfl, rfl⟩

theorem jobEnded_commit_error {x : BaseErr} (h : loadBase s b = (t, .error x)) :
    (jobEnded s (.baseCommit b role slot)).brn.status = 6 ∧ (jobEnded s (.baseCommit b role slot)).brn.rind = t.brn.rind
    ∧ (jobEnded s (.baseCommit b role slot)).mem = t.mem := by
  obtain ⟨hm, -⟩ := jobEnded_parts (s := s) (j := .baseCommit b role slot)
  have hd : jobDone s (.baseCommit b role slot) = _ := endCommit_error h
  have hb := jobEnded_brn (s := s) (j := .baseCommit b role slot)
  rw [hd] at hm hb
  rw [hb, hm, brnResult_parts.1, brnResult_parts.2.2, baseFault_parts.1, baseFault_parts.2]
  exact ⟨rfl, rfl, rfl⟩

end Commit

/-- Settles O35: each command by its branch, each job's end by its kind, and the scrub's one range. -/
theorem brine : Obligations.Brine := by
  unfold Obligations.Brine
  refine ⟨fun s who b hup hb => ?_, fun s j q hq => ⟨fun he hc hh => ?_, fun h => ?_⟩, fun s j => exec_brineJobEnd_held,
    fun s j hc he hh hcap => ?_, fun s k off n hk hn h => ?_⟩
  · dsimp only
    refine ⟨fun hop => ⟨fun h => ⟨?_, ?_⟩, fun hm hw => ⟨fun h => ?_, fun k h hs hk => ?_, fun k x h hs hk => ⟨fun hj => ?_, fun hj => ?_⟩,
      fun h => ?_, fun h => ⟨fun hj => ?_, fun hj => ?_⟩⟩, ?_, ?_⟩, fun hin hj => ⟨?_, ?_⟩,
      fun hin => ⟨fun hj h => ?_, fun hj h => ?_, fun hj h => ?_, ?_, ?_⟩, fun h => ?_⟩
    · exact .of_eq (exec_baseCommit hup hop hb) (brnBase_noBase h) rfl
    · exact .of_eq (exec_baseTeardown hup hop hb) (brnBase_noBase h) rfl
    · exact .of_eq (exec_baseCommit hup hop hb) (brnBase_commit_rind hm hw h) rfl
    · exact .of_eq (exec_baseCommit hup hop hb) (brnBase_commit_noKey hm hw h hs hk) rfl
    · refine .of_eq (exec_baseCommit hup hop hb) (brnBase_commit_keyed hm hw h hs hk) ?_
      rw [if_neg (by simp [hj])]
      rfl
    · refine .of_eq (exec_baseCommit hup hop hb) (brnBase_commit_keyed hm hw h hs hk) ?_
      rw [if_pos (by simp [hj])]
      rfl
    · refine .of_eq (exec_baseTeardown hup hop hb) (brnBase_teardown hm hw) ?_
      rw [if_pos h]
      rfl
    · refine .of_eq (exec_baseTeardown hup hop hb) (brnBase_teardown hm hw) ?_
      rw [if_neg (by simp [h]), if_neg (by simp [hj]), brnPush, journalFor_brn]
    · refine .of_eq (exec_baseTeardown hup hop hb) (brnBase_teardown hm hw) ?_
      rw [if_neg (by simp [h]), if_pos (by simp [hj])]
      rfl
    · exact .of_next (exec_brineEnable_operator hup hop) rfl
    · exact .of_next (exec_brineDisable_operator hup hop) rfl
    · exact .of_eq (exec_brineEnable hup hin) (brnEnable_noRoom hj) rfl
    · exact .of_eq (exec_brineDisable hup hin) (brnDisable_noRoom hj) rfl
    · refine .of_eq (exec_brineEnable hup hin) (brnEnable_room hj h) ?_
      rw [brnResult, journalFor_brn]
      rfl
    · refine .of_eq (exec_brineEnable hup hin) (brnEnable_disabling hj h) ?_
      rw [brnResult, journalFor_brn]
      rfl
    · refine .of_eq (exec_brineDisable hup hin) (brnDisable_on hj h) ?_
      rw [brnResult, journalFor_brn]
      rfl
    · exact .of_next (exec_baseCommit_installer hup hin hb) rfl
    · exact .of_next (exec_baseTeardown_installer hup hin hb) rfl
    · exact .of_eq rfl (if_pos h) ⟨rfl, rfl⟩
  · refine .of_eq (exec_brineJobStart hq) (if_neg (by simp [he, hc, hh])) ?_
    rw [brnEvent_parts.1, brnEvent_parts.2]
    exact ⟨rfl, rfl, rfl⟩
  · exact (exec_brineJobStart hq).trans (congrArg Host.Outcome.next (if_pos (by simpa [Option.ne_none_iff_isSome] using h)))
  · refine .of_next (exec_brineJobEnd hc he hh hcap) ?_
    change (jobEnded s j).brn.cur = none ∧ (jobEnded s j).brn.count = _ ∧ _
    rw [jobEnded_brn]
    refine ⟨rfl, rfl, ?_, ?_, ?_, ?_, ?_⟩
    · rintro p c rfl
      exact jobEnded_context
    · rintro p rfl
      exact jobEnded_partition
    · rintro b role slot t bs rfl h
      exact ⟨jobEnded_commit_room h, jobEnded_commit_noRoom h⟩
    · rintro b role slot t x rfl h
      exact jobEnded_commit_error h
    · rintro b rfl
      obtain ⟨hr, hs, -⟩ := endBaseTeardown_spec (s := s) (b := b)
      rw [← jobEnded, jobEnded_brn]
      exact ⟨hr, hs⟩
  · exact ⟨fun i hl hu => (scrubLinear_readByte hk hn h).1 hl hu, fun i ho => (scrubLinear_readByte hk hn h).2 ho,
      fun h0 hn0 i hl hu => scrubLinear_keyAt hk hn h h0 hn0 ⟨hl, hu⟩⟩

end Sys2Proof.Machine
end


section
/-! SUPPORT and proof of O36. Syllabus loads, what comes into force, partial reloads and their cancellation. -/

namespace Sys2Proof.Machine

variable {s t u v : State} {who : Req} {p q n len scope : Nat} {e : SyFail} {y : PtnSyl}

/-! ### What the end of a LOAD or a CANCEL leaves as it was (R397, R490) -/

theorem sylEnd_frame : sylEnd s p scope e = { s with
    syl := { s.syl with busy := false, done := true, reason := e.reason, sect := e.sect, record := e.record, ptn := p, waiting := none }
    cpt := (sylEnd s p scope e).cpt } := (queueEvent_spec ..).1

theorem sylEnd_syl : (sylEnd s p scope e).syl = { s.syl with
    busy := false, done := true, reason := e.reason, sect := e.sect, record := e.record, ptn := p, waiting := none } := by
  rw [sylEnd_frame]

theorem sylEnd_ptn : (sylEnd s p scope e).ptn = s.ptn := by rw [sylEnd_frame]
theorem sylEnd_mem : (sylEnd s p scope e).mem = s.mem := by rw [sylEnd_frame]
theorem sylEnd_led : (sylEnd s p scope e).led = s.led := by rw [sylEnd_frame]
theorem sylEnd_int : (sylEnd s p scope e).int = s.int := by rw [sylEnd_frame]
theorem sylEnd_keys_vat : (sylEnd s p scope e).keys = s.keys ∧ (sylEnd s p scope e).vat = s.vat := by
  rw [sylEnd_frame]
  exact ⟨rfl, rfl⟩
theorem sylEnd_ctx_rc_core : (sylEnd s p scope e).ctx = s.ctx ∧ (sylEnd s p scope e).rc = s.rc ∧ (sylEnd s p scope e).core = s.core := by
  rw [sylEnd_frame]
  exact ⟨rfl, rfl, rfl⟩

/-! ### The journal entry and the fault (R381, R509) -/

theorem raise_log_ne_nil {c : FaultCode} {a : FaultAt} : (raise s c a).int.log ≠ [] := by
  unfold raise ibi
  dsimp only
  split
  · next h =>
    have hn : ∀ {f : Fsr → Bool} {g : Fsr → Fsr} {l : List Fsr}, l.any f = true → modifyFirst f g l ≠ [] := fun {f g l} hl => by
      cases l with
      | nil => cases hl
      | cons x xs =>
        unfold modifyFirst
        split <;> exact List.cons_ne_nil _ _
    exact hn h
  · exact List.append_ne_nil_of_right_ne_nil _ (List.cons_ne_nil _ _)

theorem journal_log_ne_nil {x : JEntry} (h : s.int.log ≠ []) : (journal s x).int.log ≠ [] := by
  unfold journal
  dsimp only
  split
  · exact raise_log_ne_nil
  · exact h

theorem sylJournal_seq : (sylJournal s who p scope e).led.seq = s.led.seq + 1 := journalFor_spec.1

theorem sylJournal_keeps : Kept [.mc, .int, .ptn, .ctx, .led, .lcs, .i3c] s (sylJournal s who p scope e) :=
  journalFor_kept (Kept.refl _ s) (Within.refl _)

theorem sylJournal_ptn : (sylJournal s who p scope e).ptn = s.ptn := journalFor_spec.2.1
theorem sylJournal_ctx : (sylJournal s who p scope e).ctx = s.ctx := journalFor_spec.2.2
theorem sylJournal_syl : (sylJournal s who p scope e).syl = s.syl := sylJournal_keeps.rest .syl (by decide)
theorem sylJournal_mem : (sylJournal s who p scope e).mem = s.mem := sylJournal_keeps.rest .mem (by decide)
theorem sylJournal_tst : (sylJournal s who p scope e).tst = s.tst := sylJournal_keeps.rest .tst (by decide)
theorem sylJournal_rc_core_keys : (sylJournal s who p scope e).rc = s.rc ∧ (sylJournal s who p scope e).core = s.core
    ∧ (sylJournal s who p scope e).keys = s.keys :=
  ⟨sylJournal_keeps.rest .rc (by decide), sylJournal_keeps.rest .core (by decide), sylJournal_keeps.rest .keys (by decide)⟩

theorem sylJournal_heldClusters : (sylJournal s who p scope e).int.heldClusters = s.int.heldClusters := by
  unfold sylJournal journalFor journal
  dsimp only
  split
  · rw [raise_heldClusters]
  · rfl

/-! ### LOAD (R381) -/

theorem exec_syllabusLoad (hl : len < 2 ^ 32) (hb : s.syl.busy = false) (hm : maySyl s who = true) :
    exec (.syllabusLoad who len) s = .next (sylLoad { s with syl.len := len } who) := by
  refine congrArg Host.Outcome.next ((if_pos hm).trans ?_)
  rw [Nat.mod_eq_of_lt hl]
  exact if_neg (by simp [hb])

section Load

variable (hj : journalRoom s = true)
include hj

theorem sylLoad_error (h : checkImage s (roleOf s who) (loadBuffer s s.syl.len) s.syl.len = .error e) :
    sylLoad s who = sylEnd (sylJournal (raise s .syllabusReject
      { kind := .module, ptn := if (loadNames s).1 = 0 then 0xFF else (loadNames s).2 }) who (loadNames s).2 (loadNames s).1 e)
      (loadNames s).2 (loadNames s).1 e := by
  have hr : ∀ a, journalRoom (raise s .syllabusReject a) = true := fun a => by
    rw [raise_parts]
    exact hj
  unfold sylLoad
  dsimp only
  rw [if_neg (by simp [hj]), h]
  dsimp only
  unfold sylReject sylRefuse
  dsimp only
  rw [if_pos (hr _)]
  rfl

theorem sylLoad_module {m : ModSyl} (h : checkImage s (roleOf s who) (loadBuffer s s.syl.len) s.syl.len = .ok (.module m)) :
    sylLoad s who = sylEnd (bringModule (sylJournal s who (loadNames s).2 (loadNames s).1 { meas := m.meas }) m false) 0 0
      { meas := m.meas } := by
  unfold sylLoad
  dsimp only
  rw [if_neg (by simp [hj]), h]
  rfl

/-- The registers as a partition's image is taken. -/
def imageTaken (s : State) (p : Nat) : State := { s with syl := { s.syl with ptn := p, done := false, sect := 0xFF, record := 0xFFFF } }

theorem sylLoad_partition (h : checkImage s (roleOf s who) (loadBuffer s s.syl.len) s.syl.len = .ok (.partition p y)) :
    sylLoad s who = let v := imageTaken (sylJournal s who p (loadNames s).1 { meas := y.meas }) p
      if (getPtn v p).state = .off then bringPartition { v with syl.reason := syOk } p y
      else modPtn { v with syl := { v.syl with busy := true, reason := syQueued, waiting := some p } } p
        (fun q => { q with enablePending := some y }) := by
  unfold sylLoad
  dsimp only
  rw [if_neg (by simp [hj]), h]
  rfl

end Load

/-! ### A module Syllabus in force (R383, R394) -/

/-- What a module Syllabus says of a partition. -/
def grantedState (m : ModSyl) (p : Nat) : PtnState := if m.grants.any (fun g => g.ptn == p) then .off else .ungranted

theorem forEach_setPtnState {f : Nat → PtnState} {ps : List Nat} :
    (getPtn (forEach ps (fun s p => setPtnState s p (f p)) s) p).state = if p ∈ ps then f p else (getPtn s p).state := by
  induction ps generalizing s with
  | nil => rfl
  | cons x xs ih =>
    rw [forEach_cons, ih]
    by_cases hx : p ∈ xs
    · rw [if_pos hx, if_pos (List.mem_cons_of_mem _ hx)]
    · rw [if_neg hx]
      by_cases h : p = x
      · rw [h, getPtn_setPtnState, if_pos List.mem_cons_self]
      · rw [getPtn_setPtnState_other h, if_neg (by simp [h, hx])]

/-- The registers as a module Syllabus comes into force. -/
def moduleTaken (s : State) (m : ModSyl) : State :=
  let v := (m.wins.find? (fun w => w.type == .vat)).getD {}
  { s with
    syl.module := some m, syl.mode := 2, syl.stored := false, keys.openHouse := none,
    vat.base := addrOf (v.mem, v.base), vat.size := v.size / giB, vat.ready := true }

theorem bringModule_eq {m : ModSyl} : bringModule s m false =
    forEach (countFrom 0 64) (fun s p => setPtnState s p (grantedState m p)) (moduleTaken s m) := rfl

theorem getPtn_bringModule {m : ModSyl} (h : p < 64) : (getPtn (bringModule s m false) p).state = grantedState m p := by
  rw [bringModule_eq, forEach_setPtnState, if_pos (mem_countFrom.2 ⟨Nat.zero_le p, by omega⟩)]

theorem bringModule_parts {m : ModSyl} : (bringModule s m false).syl = (moduleTaken s m).syl ∧ (bringModule s m false).keys = (moduleTaken s m).keys
    ∧ (bringModule s m false).vat = (moduleTaken s m).vat ∧ (bringModule s m false).led = (moduleTaken s m).led
    ∧ (bringModule s m false).mem = (moduleTaken s m).mem := by
  have w := Within.refl [Part.mc, .core, .int, .rc, .ptn, .ctx, .i3c]
  have k : Kept [.mc, .core, .int, .rc, .ptn, .ctx, .i3c] (moduleTaken s m) (bringModule s m false) := by
    rw [bringModule_eq]
    exact forEach_kept (Kept.refl _ _) fun _ _ h => setPtnState_kept h
  exact ⟨k.rest .syl (by decide), k.rest .keys (by decide), k.rest .vat (by decide), k.rest .led (by decide), k.rest .mem (by decide)⟩

theorem moduleTaken_parts {m : ModSyl} : (moduleTaken s m).syl = { s.syl with module := some m, mode := 2, stored := false }
    ∧ (moduleTaken s m).keys = { s.keys with openHouse := none } ∧ (moduleTaken s m).vat.ready = true
    ∧ (moduleTaken s m).led = s.led ∧ (moduleTaken s m).mem = s.mem := ⟨rfl, rfl, rfl, rfl, rfl⟩

/-! ### A partition Syllabus in force (R383, R398) -/

theorem launchRuntime_module : (launchRuntime s p y).syl.module = s.syl.module := by
  have hp : ∀ n l, (placeGroup s p l n).syl = s.syl := fun n l =>
    (placeGroup_kept (Kept.refl [.resv, .core] s) (Within.refl _)).rest .syl (by decide)
  unfold launchRuntime
  dsimp only
  split
  · rw [sylEnd_syl, hp]
  · rfl

theorem broughtAlloc_syl : (broughtAlloc s p y).syl = s.syl := by rw [broughtAlloc_frame]

theorem broughtRec_syl : (broughtRec s p y).syl = s.syl := by
  have hm : ∀ (v : State) f, (modPtn v p f).syl = v.syl := fun _ _ => rfl
  rw [broughtRec, broughtAlloc_syl, hm, broughtUp_syl_tst.1]

theorem writeAs_syl {w : Issuer} {a : Place} {bs : List Byte} : (writeAs s w a bs).syl = s.syl :=
  (writeAs_kept (Kept.refl [.mem, .memKey, .memErr, .tags, .resv, .mc, .core, .int, .ptn, .ctx, .i3c] s) (Within.refl _)).rest .syl (by decide)

section InForce

variable (hh : s.int.heldClusters = []) (hd : s.tst.deadChannels = [])
include hh hd

theorem broughtRec_held : broughtHeld (broughtRec s p y) p y = broughtRec s p y :=
  broughtHeld_none (broughtRec_heldClusters.trans hh) (broughtRec_deadChannels.trans hd)

theorem bringPartition_module : (bringPartition s p y).syl.module = s.syl.module := by
  rw [bringPartition_eq]
  dsimp only
  rw [launchRuntime_module, writeAs_syl, ← broughtRec, broughtRec_held hh hd, broughtRec_syl]

theorem bringPartition_other (hq : q ≠ p) : (getPtn (bringPartition s p y) q).syl = (getPtn s q).syl := by
  rw [getPtn_bringPartition, broughtRec_held hh hd, getPtn_broughtRec_other hq, getPtn_broughtUp_other hq]

end InForce

/-! ### The LOADs of O36 -/

theorem imageTaken_parts : (imageTaken s p).ptn = s.ptn ∧ (imageTaken s p).int = s.int ∧ (imageTaken s p).tst = s.tst
    ∧ (imageTaken s p).led = s.led ∧ (imageTaken s p).syl.module = s.syl.module ∧ (imageTaken s p).syl.mode = s.syl.mode :=
  ⟨rfl, rfl, rfl, rfl, rfl, rfl⟩

/-- A rejected LOAD. -/
theorem rejected_parts {a : FaultAt} (h : u = sylEnd (sylJournal (raise s .syllabusReject a) who p scope e) p scope e) :
    u.syl.done = true ∧ u.syl.busy = false ∧ u.syl.reason = e.reason ∧ u.syl.sect = e.sect ∧ u.syl.record = e.record
    ∧ u.syl.module = s.syl.module ∧ u.syl.mode = s.syl.mode ∧ u.ptn = s.ptn ∧ u.ctx = s.ctx ∧ u.rc = s.rc ∧ u.core = s.core
    ∧ u.keys = s.keys ∧ u.mem = s.mem ∧ u.led.seq = s.led.seq + 1 ∧ u.int.log ≠ [] := by
  have hraise : ∀ w : State, w = raise s .syllabusReject a → w.syl = s.syl ∧ w.ptn = s.ptn ∧ w.ctx = s.ctx ∧ w.rc = s.rc ∧ w.core = s.core
      ∧ w.keys = s.keys ∧ w.mem = s.mem ∧ w.led = s.led ∧ w.int.log ≠ [] := by
    rintro w rfl
    have hlog := raise_log_ne_nil (s := s) (c := .syllabusReject) (a := a)
    rw [raise_parts] at hlog ⊢
    exact ⟨rfl, rfl, rfl, rfl, rfl, rfl, rfl, rfl, hlog⟩
  generalize raise s .syllabusReject a = w at h hraise
  obtain ⟨hs, hp, hc, hr, hco, hk, hm, hl, hlog⟩ := hraise w rfl
  obtain ⟨jr, jc, jk⟩ := sylJournal_rc_core_keys (s := w) (who := who) (p := p) (scope := scope) (e := e)
  obtain ⟨ec, er, eco⟩ := sylEnd_ctx_rc_core (s := sylJournal w who p scope e) (p := p) (scope := scope) (e := e)
  subst h
  rw [sylEnd_syl, sylJournal_syl, hs, sylEnd_ptn, sylJournal_ptn, ec, er, eco, sylJournal_ctx, jr, jc, sylEnd_keys_vat.1, jk, sylEnd_mem,
    sylJournal_mem, sylEnd_led, sylJournal_seq, sylEnd_int, hl]
  exact ⟨rfl, rfl, rfl, rfl, rfl, rfl, rfl, hp, hc, hr, hco, hk, hm, rfl, journal_log_ne_nil hlog⟩

theorem bringModule_loaded {m : ModSyl} (h : u = sylEnd (bringModule (sylJournal s who p scope e) m false) 0 0 { meas := m.meas }) :
    u.syl.module = some m ∧ u.syl.mode = 2 ∧ u.syl.done = true ∧ u.syl.reason = 0 ∧ u.keys.openHouse = none
    ∧ u.vat.ready = true ∧ u.led.seq = s.led.seq + 1 ∧ u.mem = s.mem
    ∧ ∀ p, p < 64 → (getPtn u p).state = if m.grants.any (fun g => g.ptn == p) then .off else .ungranted := by
  have hw : ∀ q, q < 64 → (getPtn (bringModule (sylJournal s who p scope e) m false) q).state = grantedState m q := fun q hq =>
    getPtn_bringModule hq
  obtain ⟨hs, hk, hv, hl, hm⟩ := bringModule_parts (s := sylJournal s who p scope e) (m := m)
  obtain ⟨ms, mk, mv, ml, mm⟩ := moduleTaken_parts (s := sylJournal s who p scope e) (m := m)
  rw [ms] at hs
  rw [mk] at hk
  rw [ml] at hl
  rw [mm, sylJournal_mem] at hm
  have hseq : (bringModule (sylJournal s who p scope e) m false).led.seq = s.led.seq + 1 := by rw [hl, sylJournal_seq]
  generalize bringModule (sylJournal s who p scope e) m false = w at h hw hs hk hv hm hseq
  rw [h, sylEnd_syl, hs, sylEnd_keys_vat.1, hk, sylEnd_keys_vat.2, hv, mv, sylEnd_led, hseq, sylEnd_mem, hm]
  refine ⟨rfl, rfl, rfl, rfl, rfl, rfl, rfl, rfl, fun q hq => ?_⟩
  rw [getPtn, sylEnd_ptn]
  exact hw q hq

theorem grantOf_congr (h : u.syl.module = s.syl.module) (hm : u.syl.mode = s.syl.mode) : grantOf u p = grantOf s p := by
  unfold grantOf openHouse
  rw [h, hm]

/-- A partition Syllabus that comes into force at its LOAD. -/
theorem bringPartition_loaded (hh : s.int.heldClusters = []) (hd : s.tst.deadChannels = [])
    (hv : v = { imageTaken (sylJournal s who p scope e) p with syl.reason := syOk }) :
    (getPtn (bringPartition v p y) p).state = .active ∧ (getPtn (bringPartition v p y) p).syl = some y
    ∧ (getPtn (bringPartition v p y) p).activeMax = ((grantOf s p).getD {}).ctxCount
    ∧ (getPtn (bringPartition v p y) p).gen = ((getPtn s p).gen + 1) % 256 ∧ (bringPartition v p y).syl.module = s.syl.module
    ∧ (bringPartition v p y).led.seq = s.led.seq + 1 ∧ ∀ q, q ≠ p → (getPtn (bringPartition v p y) q).syl = (getPtn s q).syl := by
  have hparts : v.ptn = s.ptn ∧ v.int.heldClusters = [] ∧ v.tst.deadChannels = [] ∧ v.syl.module = s.syl.module ∧ v.syl.mode = s.syl.mode
      ∧ v.led.seq = s.led.seq + 1 := by
    have hsy : ∀ w : State, w.syl = s.syl → v = { imageTaken w p with syl.reason := syOk } → v.syl.module = s.syl.module ∧ v.syl.mode = s.syl.mode := by
      intro w hw hv
      have h1 : v.syl.module = w.syl.module := by rw [hv]; rfl
      have h2 : v.syl.mode = w.syl.mode := by rw [hv]; rfl
      exact ⟨h1.trans (congrArg SylBlk.module hw), h2.trans (congrArg SylBlk.mode hw)⟩
    obtain ⟨hm, ho⟩ := hsy _ sylJournal_syl hv
    subst hv
    exact ⟨sylJournal_ptn, sylJournal_heldClusters.trans hh, (congrArg TstBlk.deadChannels sylJournal_tst).trans hd, hm, ho, sylJournal_seq⟩
  obtain ⟨hp, vh, vd, vm, vo, vl⟩ := hparts
  have hg : ∀ q, getPtn v q = getPtn s q := fun q => congrArg (tget default · q) hp
  obtain ⟨bs, -, ba, bg, bst⟩ := bringPartition_spec (s := v) (p := p) (y := y)
  have bl : (bringPartition v p y).led = v.led := (bringPartition_kept (Kept.refl
    [.fresh, .mem, .memKey, .memErr, .tags, .resv, .mc, .core, .int, .rc, .ptn, .ctx, .syl, .keys, .cpt, .i3c] v) (Within.refl _)).rest .led
    (by decide)
  refine ⟨bst vh vd, bs, ?_, ?_, (bringPartition_module vh vd).trans vm, ?_, fun q hq => ?_⟩
  · rw [ba, grantOf_congr vm vo]
  · rw [bg, hg]
    rfl
  · rw [bl, vl]
  · rw [bringPartition_other vh vd hq, hg]

/-! ### Partial reloads (R386-R388) -/

/-- The sections that a reload replaces, and the measurement of both. -/
def reloaded (y : PtnSyl) (r : Reload) : PtnSyl := { y with
  routes := r.routes.getD y.routes, tt := r.tt.getD y.tt, recipe := r.recipe.getD y.recipe, serial := r.serial
  meas := shake256 64 (y.meas ++ r.meas) }

/-- A command that has started keeps its sections. -/
def keptCore (y : PtnSyl) (c : Core) : Core :=
  if (c.acdRun.isSome || c.decision.isSome) && c.under.isNone then { c with under := some (y.routes, y.recipe) } else c

theorem keptCore_idem {c : Core} : keptCore y (keptCore y c) = keptCore y c := by
  by_cases h : ((c.acdRun.isSome || c.decision.isSome) && c.under.isNone) = true
  · have hk : keptCore y c = { c with under := some (y.routes, y.recipe) } := if_pos h
    rw [hk]
    exact if_neg (by simp)
  · have hk : keptCore y c = c := if_neg h
    rw [hk, hk]

/-- One core of a reload. -/
def keepCore (s : State) (n : Nat) (y : PtnSyl) : State :=
  if ((getCore s n).acdRun.isSome || (getCore s n).decision.isSome) && (getCore s n).under.isNone then
    modCore s n (fun c => { c with under := some (y.routes, y.recipe) }) else s

theorem keepSections_eq : keepSections s p y = forEach (coresOf s p) (fun s n => keepCore s n y) s := rfl

theorem getCore_keepCore {m : Nat} : getCore (keepCore s n y) m = if m = n then keptCore y (getCore s n) else getCore s m := by
  unfold keepCore keptCore
  split
  · exact getCore_modCore_ite
  · split
    · next h => rw [h]
    · rfl

theorem getCore_forEach_keepCore {ns : List Nat} {m : Nat} :
    getCore (forEach ns (fun s n => keepCore s n y) s) m = if m ∈ ns then keptCore y (getCore s m) else getCore s m := by
  induction ns generalizing s with
  | nil => rfl
  | cons n ns ih =>
    rw [forEach_cons, ih, getCore_keepCore]
    by_cases h : m = n
    · subst h
      rw [if_pos rfl, if_pos List.mem_cons_self, keptCore_idem, ite_self]
    · rw [if_neg h]
      simp only [List.mem_cons, h, false_or]

theorem keepSections_kept' : Kept [.core] s (keepSections s p y) := keepSections_kept (Kept.refl _ s) (Within.refl _)

theorem applyReload_eq {r : Reload} (hr : (getPtn s p).reload = some r) (hy : (getPtn s p).syl = some y) : applyReload s p =
    dropPtnEks (modPtn (keepSections s p y) p (fun q => { q with reload := none, syl := some (reloaded y r) })) p := by
  unfold applyReload
  rw [hr, hy]
  rfl

theorem dropPtnEks_parts : (dropPtnEks s p).ptn = s.ptn ∧ (dropPtnEks s p).mem = s.mem ∧ (dropPtnEks s p).core = s.core := ⟨rfl, rfl, rfl⟩

theorem applyReload_spec {r : Reload} (hr : (getPtn s p).reload = some r) (hy : (getPtn s p).syl = some y) :
    getPtn (applyReload s p) p = { getPtn s p with reload := none, syl := some (reloaded y r) } ∧ (applyReload s p).mem = s.mem
    ∧ (∀ q, q ≠ p → getPtn (applyReload s p) q = getPtn s q)
    ∧ ∀ n ∈ coresOf s p, getCore (applyReload s p) n = keptCore y (getCore s n) := by
  have hp : (keepSections s p y).ptn = s.ptn := keepSections_kept'.rest .ptn (by decide)
  have hm : (keepSections s p y).mem = s.mem := keepSections_kept'.rest .mem (by decide)
  have hg : ∀ q, getPtn (keepSections s p y) q = getPtn s q := fun q => congrArg (tget default · q) hp
  have hc : ∀ (v : State) f n, getCore (dropPtnEks (modPtn v p f) p) n = getCore v n := fun _ _ _ => rfl
  rw [applyReload_eq hr hy]
  refine ⟨?_, ?_, fun q hq => ?_, fun n hn => ?_⟩
  · rw [getPtn_dropPtnEks, getPtn_modPtn, hg]
  · rw [dropPtnEks_parts.2.1]
    exact hm
  · rw [getPtn_dropPtnEks, getPtn_modPtn_other (h := hq), hg]
  · rw [hc, keepSections_eq, getCore_forEach_keepCore, if_pos hn]

section Reload

variable {r : Reload} (hr : (getPtn s p).reload = some r)
include hr

theorem exec_partialReloadApply (h : (getPtn s p).tt.state = .idle ∨
    (getPtn s p).tt.inLesson = true ∧ (getPtn s p).tt.lesson % 2 ^ 32 = r.applyAt ∧ (getPtn s p).tt.next = 0) :
    exec (.partialReloadApply p) s = .next (applyReload s p) := by
  refine congrArg Host.Outcome.next ?_
  rw [hr]
  refine if_pos ?_
  generalize (getPtn s p).tt.lesson % 2 ^ 32 = l at h
  rcases h with h | ⟨hi, hl, hn⟩
  · simp [h]
  · simp [hi, hl, hn]

theorem exec_partialReloadApply_early (hs : (getPtn s p).tt.state ≠ .idle) (h : (getPtn s p).tt.inLesson = false ∨
    (getPtn s p).tt.lesson % 2 ^ 32 ≠ r.applyAt ∨ (getPtn s p).tt.next ≠ 0) : exec (.partialReloadApply p) s = .next s := by
  refine congrArg Host.Outcome.next ?_
  rw [hr]
  refine if_neg ?_
  generalize (getPtn s p).tt.lesson % 2 ^ 32 = l at h
  rcases h with h | h | h <;> simp [hs, h]

end Reload

/-! ### CANCEL (R387) -/

theorem bits_cancelWord (h : p < 64) : bits (p % 64 * 65536 + 2) 22 10 = 0 ∧ bits (p % 64 * 65536 + 2) 4 12 = 0
    ∧ bits (p % 64 * 65536 + 2) 0 4 = 2 ∧ bits (p % 64 * 65536 + 2) 16 6 = p := by
  simp only [bits, Nat.shiftRight_eq_div_pow]
  omega

theorem exec_syllabusCancel (ho : isOperator s who = true) (hb : s.syl.busy = false) (hp : p < 64) :
    exec (.syllabusCancel who p) s = .next (sylCancel s who p) := by
  obtain ⟨h22, h4, h0, h16⟩ := bits_cancelWord hp
  refine congrArg Host.Outcome.next ((if_pos (by simp [maySyl, ho])).trans ?_)
  unfold sylCmd
  rw [hb, if_neg Bool.false_ne_true]
  dsimp only
  rw [h22, h4, h0, h16, if_neg (by omega), if_neg (by omega)]

/-- The end of a CANCEL. -/
def cancelEnd (s : State) (who : Req) (p : Nat) (e : SyFail) : State := sylEnd (sylJournal s who p 2 e) p 2 e

theorem cancelEnd_spec : getPtn (cancelEnd s who p e) p = getPtn s p ∧ (cancelEnd s who p e).syl.reason = e.reason
    ∧ (cancelEnd s who p e).syl.done = true ∧ (cancelEnd s who p e).led.seq = s.led.seq + 1 := by
  rw [cancelEnd, sylEnd_syl, sylEnd_led, sylJournal_seq, getPtn, sylEnd_ptn, sylJournal_ptn]
  exact ⟨rfl, rfl, rfl, rfl⟩

/-- The reload's Lesson has begun. -/
def reloadBegun (t : Tt) (r : Reload) : Prop := t.state ≠ .armed ∧ r.applyAt ≤ t.lesson % 2 ^ 32

section Cancel

variable {r : Reload} (hop : isOperator s who = true) (hj : journalRoom s = true) (hr : (getPtn s p).reload = some r)
  (hy : (getPtn s p).syl = some y) (hi : (getPtn s p).tt.state ≠ .idle)
include hop hj hr hy

theorem sylCancel_eq : sylCancel s who p =
    let late := ((lessonStart (getPtn s p).tt y.tt r.applyAt).map (fun b => decide (b < s.bell.count + 2))).getD false
    if (getPtn s p).tt.state == .idle || ((getPtn s p).tt.state != .armed && decide (r.applyAt ≤ (getPtn s p).tt.lesson % 2 ^ 32)) || late then
      cancelEnd s who p { reason := syTooLate, meas := r.meas }
    else cancelEnd (modPtn s p (fun q => { q with reload := none })) who p { meas := r.meas } := by
  unfold sylCancel ttOf
  dsimp only
  rw [hop, hj, hr, hy, if_neg (by decide), if_neg (by decide), Option.map_some]
  dsimp only
  cases lessonStart (getPtn s p).tt y.tt r.applyAt <;> rfl

include hi in
theorem sylCancel_taken (h : ∀ b, lessonStart (getPtn s p).tt y.tt r.applyAt = some b → s.bell.count + 2 ≤ b)
    (hn : ¬reloadBegun (getPtn s p).tt r) :
    sylCancel s who p = cancelEnd (modPtn s p (fun q => { q with reload := none })) who p { meas := r.meas } := by
  rw [sylCancel_eq hop hj hr hy]
  refine if_neg ?_
  unfold reloadBegun at hn
  rcases hl : lessonStart (getPtn s p).tt y.tt r.applyAt with - | b
  · simpa [hi] using hn
  · have hb := h b hl
    simpa [hi, hb] using hn

theorem sylCancel_late (h : (∃ b, lessonStart (getPtn s p).tt y.tt r.applyAt = some b ∧ b < s.bell.count + 2) ∨ reloadBegun (getPtn s p).tt r) :
    sylCancel s who p = cancelEnd s who p { reason := syTooLate, meas := r.meas } := by
  rw [sylCancel_eq hop hj hr hy]
  refine if_pos ?_
  unfold reloadBegun at h
  generalize (getPtn s p).tt.lesson % 2 ^ 32 = l at h
  rcases h with ⟨b, hl, hb⟩ | ⟨hs, hn⟩
  · simp [hl, hb]
  · simp [hs, hn]

end Cancel

theorem lessonStart_held {t : Tt} {z : Timetable} {a : Nat} (h : t.state = .held) : lessonStart t z a = none := by
  unfold lessonStart nextLessonAt
  rw [h]
  rfl

theorem cancel_taken {x : SyFail} (hx : x.reason = syOk) (hy : (getPtn s p).syl = some y) :
    (getPtn (cancelEnd (modPtn s p (fun q => { q with reload := none })) who p x) p).reload = none
    ∧ (getPtn (cancelEnd (modPtn s p (fun q => { q with reload := none })) who p x) p).syl = some y
    ∧ (cancelEnd (modPtn s p (fun q => { q with reload := none })) who p x).syl.reason = 0
    ∧ (cancelEnd (modPtn s p (fun q => { q with reload := none })) who p x).syl.done = true
    ∧ (cancelEnd (modPtn s p (fun q => { q with reload := none })) who p x).led.seq = s.led.seq + 1 := by
  obtain ⟨hp, hr, hd, hl⟩ := cancelEnd_spec (s := modPtn s p (fun q => { q with reload := none })) (who := who) (p := p) (e := x)
  rw [hp, getPtn_modPtn]
  exact ⟨rfl, hy, hr.trans hx, hd, hl⟩

theorem cancel_late {r : Reload} {x : SyFail} (hx : x.reason = syTooLate) (hr : (getPtn s p).reload = some r) :
    (getPtn (cancelEnd s who p x) p).reload = some r ∧ (cancelEnd s who p x).syl.reason = syTooLate ∧ (cancelEnd s who p x).syl.done = true := by
  obtain ⟨hp, he, hd, -⟩ := cancelEnd_spec (s := s) (who := who) (p := p) (e := x)
  rw [hp]
  exact ⟨hr, he.trans hx, hd⟩

/-- Settles O36: a LOAD by the result of its checks, a reload by the Timetable's state, a CANCEL by the Bell of the reload's Lesson. -/
theorem syllabusLoadsAndReloads : Obligations.SyllabusLoadsAndReloads := by
  unfold Obligations.SyllabusLoadsAndReloads
  refine ⟨fun s who len hlen hbusy => ?_, fun s p r y hr hy => ?_⟩
  · dsimp only
    refine ⟨fun hm => ?_, fun hm hj => ⟨fun e he => ?_, fun m he => ?_, fun p y he ho hh hd => ?_, fun p y he ho => ?_⟩⟩
    · exact congrArg Host.Outcome.next (if_neg (by simp [hm]))
    · refine .of_eq (exec_syllabusLoad hlen hbusy hm) (sylLoad_error (s := { s with syl.len := len }) hj he) ?_
      exact rejected_parts (s := { s with syl.len := len }) rfl
    · refine .of_eq (exec_syllabusLoad hlen hbusy hm) (sylLoad_module (s := { s with syl.len := len }) hj he) ?_
      exact bringModule_loaded (s := { s with syl.len := len }) rfl
    · have hp : getPtn (imageTaken (sylJournal { s with syl.len := len } who p (loadNames { s with syl.len := len }).1 { meas := y.meas }) p) p
          = getPtn s p := congrArg (tget default · p) sylJournal_ptn
      refine .of_eq (exec_syllabusLoad hlen hbusy hm) ((sylLoad_partition (s := { s with syl.len := len }) hj he).trans (if_pos (hp ▸ ho))) ?_
      exact bringPartition_loaded (s := { s with syl.len := len }) hh hd rfl
    · have hp : getPtn (imageTaken (sylJournal { s with syl.len := len } who p (loadNames { s with syl.len := len }).1 { meas := y.meas }) p) p
          = getPtn s p := congrArg (tget default · p) sylJournal_ptn
      refine .of_eq (exec_syllabusLoad hlen hbusy hm) ((sylLoad_partition (s := { s with syl.len := len }) hj he).trans (if_neg (hp ▸ ho))) ?_
      have hdone : (imageTaken (sylJournal { s with syl.len := len } who p (loadNames { s with syl.len := len }).1 { meas := y.meas }) p).syl.done = false := rfl
      generalize imageTaken (sylJournal { s with syl.len := len } who p (loadNames { s with syl.len := len }).1 { meas := y.meas }) p = w at hp hdone
      have hst : (getPtn { w with syl := { w.syl with busy := true, reason := syQueued, waiting := some p } } p).state = (getPtn s p).state :=
        congrArg Ptn.state hp
      rw [getPtn_modPtn]
      exact ⟨rfl, hst, rfl, hdone⟩
  · dsimp only
    obtain ⟨hself, hmem, hother, hcore⟩ := applyReload_spec hr hy
    refine ⟨fun h => ?_, exec_partialReloadApply_early hr, fun who hop hb hj hp hi => ⟨fun b hl hb2 hn => ?_, fun hs hn => ?_, fun b hl hlt => ?_, fun hn => ?_⟩⟩
    · refine .of_next (exec_partialReloadApply hr h) ⟨hself, hmem, hother, fun n hn ha hu => ?_⟩
      rw [hcore n hn]
      exact if_pos (by simp [ha, hu])
    · refine .of_eq (exec_syllabusCancel hop hb hp) (sylCancel_taken hop hj hr hy hi (fun b' hl' => ?_) hn) (cancel_taken rfl hy)
      rw [hl] at hl'
      exact Option.some.inj hl' ▸ hb2
    · refine .of_eq (exec_syllabusCancel hop hb hp) (sylCancel_taken hop hj hr hy hi (fun b' hl' => ?_) hn) (cancel_taken rfl hy)
      rw [lessonStart_held hs] at hl'
      cases hl'
    · exact .of_eq (exec_syllabusCancel hop hb hp) (sylCancel_late hop hj hr hy (.inl ⟨b, hl, hlt⟩)) (cancel_late rfl hr)
    · exact .of_eq (exec_syllabusCancel hop hb hp) (sylCancel_late hop hj hr hy (.inr hn)) (cancel_late rfl hr)

end Sys2Proof.Machine
end


section
/-! SUPPORT and proof of O37. The commands of open house and the Lessons of a training run. -/

namespace Sys2Proof.Machine

variable {s t u : State} {who : Req} {k n code st off a : Nat} {w : Win} {as : List Nat} {y : Timetable}

/-! ### A command's row and its answer (R395, R396) -/

/-- The registers with the arguments of a command. -/
def ohArgs (s : State) (as : List Nat) : State := { s with oh.args := (as.map (· % 2 ^ 32) ++ s.oh.args.drop as.length).take 7 }

theorem ohRow_operator (h : isOperator s who = true) : ohRow s who k as = ohCmd (ohArgs s as) k := if_pos h

theorem ohEnd_frame : ohEnd s code st = { s with
    oh := { s.oh with busy := false, done := true, lastCmd := code, status := st }, cpt := (ohEnd s code st).cpt } := (queueEvent_spec ..).1

theorem ohEnd_oh : (ohEnd s code st).oh = { s.oh with busy := false, done := true, lastCmd := code, status := st } := by rw [ohEnd_frame]
theorem ohEnd_mem : (ohEnd s code st).mem = s.mem := by rw [ohEnd_frame]
theorem ohEnd_brn : (ohEnd s code st).brn = s.brn := by rw [ohEnd_frame]

theorem ohAnswer_oh : (ohAnswer s code st).oh = { s.oh with done := true, lastCmd := code, status := st } := by
  rw [ohAnswer, (queueEvent_spec ..).1]

/-- A command that has ended with a status. -/
def OhDone (u : State) (code st : Nat) : Prop := u.oh.done = true ∧ u.oh.busy = false ∧ u.oh.lastCmd = code ∧ u.oh.status = st

theorem ohDone_ohEnd : OhDone (ohEnd s code st) code st := by
  rw [OhDone, ohEnd_oh]
  exact ⟨rfl, rfl, rfl, rfl⟩

theorem ohCmd_closed (h : openHouse s = false) : ohCmd s k = ohEnd s (bits k 0 8) ohNotOpen := if_pos (by simp [h])

section Busy

variable (ho : openHouse s = true) (hb : s.oh.busy = true)
include ho hb

theorem ohCmd_busy (h : 1 ≤ k ∧ k ≤ 5) : ohCmd s k = ohAnswer s k ohBusy := by
  have hk : bits k 0 8 = k := Nat.mod_eq_of_lt (by omega)
  unfold ohCmd
  dsimp only
  rw [hk, if_neg (by simp [ho]), if_neg (by omega), if_pos (by simp [hb, h.1]; omega), if_neg (by omega)]

theorem ohCmd_clear_busy : ohCmd s 6 =
    { s with oh := { s.oh with done := false, lastCmd := 6, job := { s.oh.job with clearing := true } } } :=
  (if_neg (by simp [ho])).trans ((if_neg (by decide)).trans ((if_pos (by simp [hb]; decide)).trans (if_pos rfl)))

end Busy

section Free

variable (ho : openHouse s = true) (hb : s.oh.busy = false)
include ho hb

theorem ohCmd_base : ohCmd s 1 = ohBase s := (if_neg (by simp [ho])).trans ((if_neg (by decide)).trans (if_neg (by simp [hb])))
theorem ohCmd_data : ohCmd s 2 = ohData s := (if_neg (by simp [ho])).trans ((if_neg (by decide)).trans (if_neg (by simp [hb])))
theorem ohCmd_train : ohCmd s 3 = ohTrain s := (if_neg (by simp [ho])).trans ((if_neg (by decide)).trans (if_neg (by simp [hb])))
theorem ohCmd_eval : ohCmd s 4 = ohEval s := (if_neg (by simp [ho])).trans ((if_neg (by decide)).trans (if_neg (by simp [hb])))
theorem ohCmd_result : ohCmd s 5 = ohResult s := (if_neg (by simp [ho])).trans ((if_neg (by decide)).trans (if_neg (by simp [hb])))
theorem ohCmd_clear : ohCmd s 6 = ohClear s := (if_neg (by simp [ho])).trans ((if_neg (by decide)).trans (if_neg (by simp [hb])))

end Free

/-! ### OH_BASE (R391, R392) -/

section Base

variable (he : s.oh.state = .empty)
include he

theorem ohBase_tooLarge (h : 384 * giB < ohArg s 0 + 2 ^ 32 * ohArg s 1) : ohBase s = ohEnd s 1 ohTooLarge :=
  (if_neg (by simp [he])).trans (if_pos h)

theorem ohBase_badDesc (h : ohArg s 0 + 2 ^ 32 * ohArg s 1 ≤ 384 * giB) (hd : ohDescOk (ohRead s ohWork 0 64) = false) :
    ohBase s = ohEnd s 1 ohBadBase :=
  (if_neg (by simp [he])).trans ((if_neg (Nat.not_lt.2 h)).trans (if_pos (by simp [hd])))

/-- The base in open house. -/
def ohBased (t : State) (b : Nat) (bs : List Byte) : State :=
  { setRind t b with oh := { t.oh with state := .based, outs := [field bs 2 2, 0, 0] } }

theorem ohBase_ok (h : ohArg s 0 + 2 ^ 32 * ohArg s 1 ≤ 384 * giB) (hd : ohDescOk (ohRead s ohWork 0 64) = true) {bs : List Byte}
    (hl : loadBase { s with oh.desc := ohRead s ohWork 0 64 } (field (ohRead s ohWork 0 64) 0x18 2) = (t, .ok bs)) :
    ohBase s = ohEnd (ohBased t (field (ohRead s ohWork 0 64) 0x18 2) bs) 1 ohOk := by
  refine (if_neg (by simp [he])).trans ((if_neg (Nat.not_lt.2 h)).trans ((if_neg (by simp [hd])).trans ?_))
  dsimp only
  rw [hl]
  rfl

end Base

theorem ohBased_parts {b : Nat} {bs : List Byte} : (ohBased t b bs).oh = { t.oh with state := .based, outs := [field bs 2 2, 0, 0] }
    ∧ (ohBased t b bs).brn.rind = insertNat b t.brn.rind ∧ (ohBased t b bs).mem = t.mem := ⟨rfl, rfl, rfl⟩

/-! ### OH_DATA (R391) -/

section Data

variable (hs : s.oh.state = .based ∨ s.oh.state = .trained) (h1 : 1 ≤ ohArg s 0) (h2 : ohArg s 0 ≤ 2 ^ 28)
  (hf : s.oh.fill + ohArg s 0 ≤ 2 ^ 36)
include hs h1 h2 hf

theorem ohData_eq : ohData s =
    if (countFrom 0 (ohArg s 0)).any (fun k => decide (ohVocab s ≤ leNat (ohRead s ohToken (4 * (s.oh.fill + k)) 4))) then ohEnd s 2 ohBadToken
    else ohEnd { s with oh.fill := s.oh.fill + ohArg s 0 } 2 ohOk :=
  (if_neg (by rcases hs with h | h <;> simp [h])).trans ((if_neg (by omega)).trans (if_neg (by omega)))

theorem ohData_ok (h : ∀ k, k < ohArg s 0 → leNat (ohRead s ohToken (4 * (s.oh.fill + k)) 4) < ohVocab s) :
    ohData s = ohEnd { s with oh.fill := s.oh.fill + ohArg s 0 } 2 ohOk := by
  rw [ohData_eq hs h1 h2 hf]
  refine if_neg fun ha => ?_
  obtain ⟨k, hk, hv⟩ := List.any_eq_true.1 ha
  exact absurd (h k (by simpa using mem_countFrom.1 hk)) (Nat.not_lt.2 (of_decide_eq_true hv))

theorem ohData_badToken (h : ∃ k, k < ohArg s 0 ∧ ohVocab s ≤ leNat (ohRead s ohToken (4 * (s.oh.fill + k)) 4)) :
    ohData s = ohEnd s 2 ohBadToken := by
  obtain ⟨k, hk, hv⟩ := h
  rw [ohData_eq hs h1 h2 hf]
  exact if_pos (List.any_eq_true.2 ⟨k, mem_countFrom.2 ⟨Nat.zero_le k, by omega⟩, decide_eq_true hv⟩)

end Data

/-! ### OH_TRAIN, OH_EVAL and OH_RESULT (R391, R393, R395) -/

/-- A training run from its first step. -/
def ohTraining (s : State) (seed : Nat) : State :=
  { s with fresh := s.fresh + 1, oh := { s.oh with
        run := s.fresh, adapter := ohArg s 6, state := .training, done := false, busy := true, lastCmd := 3, outs := [0, 0, 0],
        job := ohJob s.oh.desc s.fresh (ohArg s 0) (ohArg s 1) seed (ohArg s 6) s.bell.count } }

theorem ohTrain_ok {seed : Nat} (hs : s.oh.state = .based ∨ s.oh.state = .trained) (h1 : 1 ≤ ohArg s 0) (h2 : ohArg s 0 ≤ 1048576)
    (hl : seqLenOk (ohArg s 1) = true) (ha : ohArg s 6 < 2 ^ 24)
    (hseed : ohArg s 2 + 2 ^ 32 * ohArg s 3 + 2 ^ 64 * ohArg s 4 + 2 ^ 96 * ohArg s 5 = seed) : ohTrain s = ohTraining s seed := by
  subst hseed
  refine (if_neg (by rcases hs with h | h <;> simp [h])).trans (if_neg ?_)
  simp only [hl, Bool.not_true, Bool.false_eq_true, false_or, not_or]
  omega

theorem ohEval_ok (hs : s.oh.state = .trained) (h : ohArg s 0 + ohArg s 1 ≤ s.oh.fill) :
    ∃ o, ohEval s = ohEnd { (draw s 4).2 with oh := { s.oh with outs := o } } 4 ohOk :=
  ⟨_, (if_neg (by simp [hs])).trans (if_neg (Nat.not_lt.2 h))⟩

theorem writeUnder_oh {key : List Byte} {bs : List Byte} : (writeUnder s key a bs).oh = s.oh :=
  (writeUnder_kept (Kept.refl [.mem, .memKey, .memErr, .resv, .mc, .int, .ptn, .ctx, .i3c] s) (Within.refl _)).rest .oh (by decide)

/-- The free address of the image that OH_RESULT writes. -/
def ohResultAt (s : State) : Nat :=
  addrOf (ohWork.mem, ohWork.base + leNat (draw s 8).1 % ((ohWork.size - s.oh.job.image.length) / 64 + 1) * 64)

/-- The image written there. -/
def ohWritten (s : State) : State := writeUnder (draw s 8).2 (vatKey (draw s 8).2) (ohResultAt s) s.oh.job.image

theorem ohWritten_oh : (ohWritten s).oh = s.oh := writeUnder_oh

theorem ohResult_ok (hs : s.oh.state = .trained) : ohResult s = ohEnd { ohWritten s with
    oh.outs := [ohResultAt s % 2 ^ 32, ohResultAt s / 2 ^ 32, s.oh.job.image.length] } 5 ohOk := by
  unfold ohResult ohWritten ohResultAt
  rw [if_neg (by simp [hs])]

theorem ohEnd_outs {v : State} {os : List Nat} (h : v.oh = s.oh) : (ohEnd { v with oh.outs := os } 5 ohOk).oh =
    { s.oh with busy := false, done := true, lastCmd := 5, status := 0, outs := os } := by
  rw [ohEnd_oh, h]
  rfl

theorem ohResult_oh (hs : s.oh.state = .trained) : ∃ x z, (ohResult s).oh = { s.oh with
    busy := false, done := true, lastCmd := 5, status := 0, outs := [x, z, s.oh.job.image.length] } := by
  rw [ohResult_ok hs]
  exact ⟨_, _, ohEnd_outs ohWritten_oh⟩

theorem ohResult_spec (hs : s.oh.state = .trained) : OhDone (ohResult s) 5 0 ∧ (ohResult s).oh.state = .trained
    ∧ (ohResult s).oh.outs.length = 3 ∧ getAt 0 (ohResult s).oh.outs 2 = s.oh.job.image.length := by
  obtain ⟨x, z, h⟩ := ohResult_oh hs
  rw [OhDone, h]
  exact ⟨⟨rfl, rfl, rfl, rfl⟩, hs, rfl, rfl⟩

/-! ### OH_CLEAR (R391) -/

/-- A byte that reads as zero does so after ranges have been zeroed. -/
theorem forEach_fillZero_zero {rs : List (Nat × Nat)} {key : List Byte} (h : readByte s a = 0) :
    readByte (forEach rs (fun s r => fillZero s r.1 r.2 key) s) a = 0 := by
  induction rs generalizing s with
  | nil => exact h
  | cons r rs ih =>
    refine ih ?_
    by_cases hr : r.1 ≤ a ∧ a < r.1 + r.2
    · exact readByte_fillZero_in _ _ _ _ _ hr
    · exact (readByte_fillZero_out _ _ _ _ _ (by omega)).trans h

theorem scrubLinear_zero {m : MemKind} (h : readByte s a = 0) : readByte (scrubLinear s m off n) a = 0 :=
  forEach_fillZero_zero (s := (draw s 64).2) h

/-- The first slice of a range is zero after its scrub. -/
theorem scrubLinear_first {m : MemKind} (hm : m.isSram = false) (hn : 2 ^ 36 ≤ n) (h0 : off % 2 ^ 36 = 0)
    (ha : addrOf (m, off) ≤ a ∧ a < addrOf (m, off) + 2 ^ 36) : readByte (scrubLinear s m off n) a = 0 := by
  have hr : sliceRanges m 17 off n = (addrOf (m, off), 2 ^ 36) :: sliceRanges m 16 (off + 2 ^ 36) (n - 2 ^ 36) := by
    have hmin : min n (2 ^ 36 - off % 2 ^ 36) = 2 ^ 36 := by omega
    conv_lhs => unfold sliceRanges
    rw [hm, if_neg (by omega)]
    dsimp only
    rw [if_neg Bool.false_ne_true, hmin]
  unfold scrubLinear
  dsimp only
  rw [hr, forEach_cons]
  exact forEach_fillZero_zero (readByte_fillZero_in _ _ _ _ _ ha)

/-- The Vat's slots emptied and Rind ended. -/
def ohEmptied (s : State) : State :=
  let v := forEach (slotsOwned s (fun _ => true)) evictSlot s
  { v with brn.rind := v.brn.rind.filter (· != ohBaseId s), subf := v.subf.filter (fun f => f.base != ohBaseId s) }

/-- The windows scrubbed. -/
def ohScrubbed (s : State) : State := scrubLinear (scrubLinear (ohEmptied s) .hbm 0 (512 * giB)) .tier2 (256 * giB) (256 * giB)

/-- Open house with nothing in it. -/
def ohCleared (o : OhBlk) : OhBlk :=
  { o with state := .empty, outs := [0, 0, 0], fill := 0, desc := [], run := 0, adapter := 0, job := {} }

theorem ohClear_eq : ohClear s = ohEnd { ohScrubbed s with oh := ohCleared (ohScrubbed s).oh } 6 ohOk := rfl

theorem ohScrubbed_brn_oh : (ohScrubbed s).brn = (ohEmptied s).brn ∧ (ohScrubbed s).oh = (ohEmptied s).oh := by
  have w := Within.refl [Part.fresh, .mem, .memKey, .memErr, .resv]
  have k : Kept [.fresh, .mem, .memKey, .memErr, .resv] (ohEmptied s) (ohScrubbed s) := scrubLinear_kept (scrubLinear_kept (Kept.refl _ _))
  exact ⟨k.rest .brn (by decide), k.rest .oh (by decide)⟩

theorem ohEmptied_rind : ohBaseId s ∉ (ohEmptied s).brn.rind := fun h => by
  have hb := (List.mem_filter.1 h).2
  simp at hb

theorem ohScrubbed_zero {i : Nat} (h : i < 2 ^ 36) : readByte (ohScrubbed s) (addrOf (.hbm, 0) + i) = 0 :=
  scrubLinear_zero (scrubLinear_first rfl (by decide) rfl ⟨Nat.le_add_right .., by omega⟩)

theorem ohClear_spec : OhDone (ohClear s) 6 0 ∧ (ohClear s).oh.state = .empty ∧ (ohClear s).oh.fill = 0
    ∧ ohBaseId s ∉ (ohClear s).brn.rind ∧ ∀ i, i < 2 ^ 36 → readByte (ohClear s) (addrOf (.hbm, 0) + i) = 0 := by
  have hr : ∀ v : State, v.mem = (ohScrubbed s).mem → ∀ i, i < 2 ^ 36 → readByte v (addrOf (.hbm, 0) + i) = 0 := fun v hv i hi => by
    rw [readByte, hv]
    exact ohScrubbed_zero hi
  have hb : ohBaseId s ∉ (ohScrubbed s).brn.rind := by
    rw [ohScrubbed_brn_oh.1]
    exact ohEmptied_rind
  rw [ohClear_eq]
  generalize ohScrubbed s = v at hr hb
  refine ⟨ohDone_ohEnd, ?_, ?_, ?_, hr _ ohEnd_mem⟩
  · rw [ohEnd_oh]
    rfl
  · rw [ohEnd_oh]
    rfl
  · rw [ohEnd_brn]
    exact hb

/-! ### A training run's Bells (R393) -/

/-- The parts of a cycle's footprint beside open house. -/
def besideOh : List Part := tickWrites.filter (· != .oh)

/-- The state in which a Bell's training takes its turn. -/
def beforeOh (s : State) : State :=
  let s := freeRepairs (darkDue (govApply (streamLoss (slewed s))))
  let s := forEach (tkeys s.ctx) (fun s c =>
    match ptnOfCtx s c with
    | some p => registerBound s p c
    | none => s) s
  forEach (tkeys s.ptn) (fun s p => if everyBell s p then recessPoint s p else s) s

theorem atBellInstant_beforeOh : atBellInstant s = emitBell (ohBell (beforeOh s)) := rfl

theorem beforeOh_oh : (beforeOh s).oh = s.oh := by
  have w := Within.refl besideOh
  have hrep : ∀ u, (freeRepairs (darkDue (govApply (streamLoss u)))).oh = u.oh := fun u =>
    (freeRepairs_kept (darkDue_kept (govApply_kept (streamLoss_kept (Kept.refl besideOh u))))).rest .oh (by decide)
  have hbound : ∀ u p c, (registerBound u p c).oh = u.oh := fun u p c => (registerBound_kept (Kept.refl besideOh u)).rest .oh (by decide)
  have hrecess : ∀ u p, (recessPoint u p).oh = u.oh := fun u p => (recessPoint_kept (Kept.refl besideOh u)).rest .oh (by decide)
  unfold beforeOh
  rw [forEach_proj (π := State.oh), forEach_proj (π := State.oh), hrep]
  · rfl
  · intro u c
    split
    · exact hbound ..
    · rfl
  · intro u p
    split
    · exact hrecess ..
    · rfl

theorem beforeOh_count : (beforeOh s).bell.count = s.bell.count := by
  have w := Within.refl besideBell
  have hb : ∀ v, (emitBell (ohBell v)).bell = v.bell := fun v =>
    (emitBell_kept (ohBell_kept (Kept.refl besideBell v))).rest .bell (by decide)
  rw [← (atBellInstant_counters (s := s)).1, atBellInstant_beforeOh, hb]

/-- The QUIZ slot of a training run at its Bells. -/
def ohQuizzed (s : State) (y : Timetable) : State :=
  let s' := if s.bell.count == s.oh.job.bound + (getAt {} y.slots 1).start then quizSlotStart s 0 1 else s
  if s.bell.count == s.oh.job.bound + (getAt {} y.slots 1).deadline then quizSlotEnd s' 0 1 else s'

theorem ohQuizzed_oh : (ohQuizzed s y).oh = s.oh := by
  have hs : ∀ v : State, (quizSlotStart v 0 1).oh = v.oh := fun v =>
    (quizSlotStart_kept (Kept.refl [.core, .phys] v) (Within.refl _)).rest .oh (by decide)
  have he : ∀ v : State, (quizSlotEnd v 0 1).oh = v.oh := fun v =>
    (quizSlotEnd_kept (Kept.refl [.core, .phys, .int] v) (Within.refl _)).rest .oh (by decide)
  unfold ohQuizzed
  dsimp only
  split <;> split <;> simp only [hs, he]

theorem ohBell_training (ht : s.oh.state = .training) (hy : s.oh.job.tt = some y) : ohBell s =
    if s.bell.count == s.oh.job.bound + y.lessonBells then ohLesson (ohQuizzed s y) y else ohQuizzed s y := by
  unfold ohBell
  dsimp only
  rw [ht, hy]
  rfl

/-- The training run's next step. -/
def ohStepped (s : State) (y : Timetable) : State :=
  let v := boundaryRepairs (ceRepairs s) 0
  let j := v.oh.job.next v.oh.desc v.oh.run v.oh.adapter v.oh.fill y.lessonBells
  ohStepEvent { v with oh := { v.oh with job := j, outs := [j.step, 0, 0] } } j.step

theorem ohLesson_eq : ohLesson s y = if (ohStepped s y).oh.job.clearing then ohClear (ohStepped s y)
    else if (ohStepped s y).oh.job.steps ≤ (ohStepped s y).oh.job.step then
      ohEnd { ohStepped s y with oh := { (ohStepped s y).oh with state := .trained } } 3 ohOk
    else ohStepped s y := by
  have he : ∀ (v : State) k, (ohStepEvent v k).oh = v.oh := fun v k =>
    (ohStepEvent_kept (Kept.refl [.cpt] v) (Within.refl _)).rest .oh (by decide)
  unfold ohLesson ohStepped
  dsimp only
  simp only [he]

theorem ohStepped_oh : (ohStepped s y).oh = { s.oh with
    job := s.oh.job.next s.oh.desc s.oh.run s.oh.adapter s.oh.fill y.lessonBells, outs := [s.oh.job.step + 1, 0, 0] } := by
  have he : ∀ (v : State) k, (ohStepEvent v k).oh = v.oh := fun v k =>
    (ohStepEvent_kept (Kept.refl [.cpt] v) (Within.refl _)).rest .oh (by decide)
  have w := Within.refl [Part.mc, .core, .phys, .int, .rc, .ptn, .ctx, .led, .lcs, .tst, .i3c]
  have hr : (boundaryRepairs (ceRepairs s) 0).oh = s.oh :=
    (boundaryRepairs_kept (ceRepairs_kept (Kept.refl [.mc, .core, .phys, .int, .rc, .ptn, .ctx, .led, .lcs, .tst, .i3c] s))).rest .oh (by decide)
  rw [ohStepped, he, hr]
  rfl

/-- The Bell of a training run. -/
theorem exec_bell_training (ht : s.oh.state = .training) (hy : s.oh.job.tt = some y) (hc : counting s = true) :
    ∃ u v, exec .bell s = .next u ∧ v.oh = s.oh
      ∧ u.oh = (if (s.bell.count + 1) % 2 ^ 64 == s.oh.job.bound + y.lessonBells then ohLesson v y else v).oh := by
  have hemit : ∀ v, (emitBell v).oh = v.oh := fun v => (emitBell_kept (Kept.refl [.rc] v) (Within.refl _)).rest .oh (by decide)
  have hoh : (beforeOh (counted s)).oh = s.oh := beforeOh_oh
  have hcount : (beforeOh (counted s)).bell.count = wrap 64 (s.bell.count + 1) :=
    beforeOh_count (s := counted s)
  refine ⟨_, ohQuizzed (beforeOh (counted s)) y, exec_bell_counting hc, ohQuizzed_oh.trans hoh, ?_⟩
  rw [atBellInstant_beforeOh, hemit, ohBell_training (by rw [hoh]; exact ht) (by rw [hoh]; exact hy), hcount, hoh, wrap]

/-! ### The commands of O37 -/

/-- A command of the operator other than OH_CLEAR, its number and arguments. -/
theorem exec_ohCommand (hop : isOperator s who = true) {c : Instr} (h : (c, k) ∈ [(Instr.ohBase who 0, 1), (.ohData who 1, 2),
    (.ohTrain who 1 128 0 0, 3), (.ohEval who 0 1, 4), (.ohResult who, 5), (.ohClear who, 6)]) :
    (1 ≤ k ∧ k ≤ 6) ∧ ∃ as, exec c s = .next (ohCmd (ohArgs s as) k) := by
  simp only [List.mem_cons, Prod.mk.injEq, List.not_mem_nil, or_false] at h
  rcases h with ⟨rfl, rfl⟩ | ⟨rfl, rfl⟩ | ⟨rfl, rfl⟩ | ⟨rfl, rfl⟩ | ⟨rfl, rfl⟩ | ⟨rfl, rfl⟩
  all_goals exact ⟨by decide, _, congrArg Host.Outcome.next (ohRow_operator hop)⟩

theorem ohArgs_parts : (ohArgs s as).oh = { s.oh with args := (as.map (· % 2 ^ 32) ++ s.oh.args.drop as.length).take 7 }
    ∧ openHouse (ohArgs s as) = openHouse s ∧ (ohArgs s as).mem = s.mem ∧ (ohArgs s as).brn = s.brn := ⟨rfl, rfl, rfl, rfl⟩

theorem ohCommand_closed (ho : openHouse s = false) (h : 1 ≤ k ∧ k ≤ 6) : OhDone (ohCmd (ohArgs s as) k) k 9
    ∧ (ohCmd (ohArgs s as) k).oh.state = s.oh.state ∧ (ohCmd (ohArgs s as) k).oh.fill = s.oh.fill := by
  have hk : bits k 0 8 = k := Nat.mod_eq_of_lt (by omega)
  rw [ohCmd_closed (s := ohArgs s as) ho, hk]
  exact ⟨ohDone_ohEnd, by rw [ohEnd_oh]; rfl, by rw [ohEnd_oh]; rfl⟩

theorem ohCommand_busy (ho : openHouse s = true) (hb : s.oh.busy = true) (h : 1 ≤ k ∧ k ≤ 5) :
    (ohCmd (ohArgs s as) k).oh.done = true ∧ (ohCmd (ohArgs s as) k).oh.busy = true ∧ (ohCmd (ohArgs s as) k).oh.lastCmd = k
    ∧ (ohCmd (ohArgs s as) k).oh.status = 1 ∧ (ohCmd (ohArgs s as) k).oh.state = s.oh.state ∧ (ohCmd (ohArgs s as) k).oh.job = s.oh.job := by
  rw [ohCmd_busy (s := ohArgs s as) ho hb h, ohAnswer_oh]
  exact ⟨rfl, hb, rfl, rfl, rfl, rfl⟩

/-- In EMPTY nothing runs but OH_BASE and OH_CLEAR. -/
theorem ohCommand_empty (ho : openHouse s = true) (hb : s.oh.busy = false) (he : s.oh.state = .empty) (h : 2 ≤ k ∧ k ≤ 5) :
    ohCmd (ohArgs s as) k = ohEnd (ohArgs s as) k ohBadState := by
  have he' : (ohArgs s as).oh.state = .empty := he
  obtain ⟨h2, h5⟩ := h
  interval_cases k
  · exact (ohCmd_data (s := ohArgs s as) ho hb).trans (if_pos (by simp [he']))
  · exact (ohCmd_train (s := ohArgs s as) ho hb).trans (if_pos (by simp [he']))
  · exact (ohCmd_eval (s := ohArgs s as) ho hb).trans (if_pos (by simp [he']))
  · exact (ohCmd_result (s := ohArgs s as) ho hb).trans (if_pos (by simp [he']))

section Open

variable (hop : isOperator s who = true)
include hop

theorem exec_ohBase {bytes : Nat} (ho : openHouse s = true) (hb : s.oh.busy = false) :
    exec (.ohBase who bytes) s = .next (ohBase (ohArgs s [bytes, bytes / 2 ^ 32])) :=
  congrArg Host.Outcome.next ((ohRow_operator hop).trans (ohCmd_base (s := ohArgs s _) ho hb))
theorem exec_ohData (ho : openHouse s = true) (hb : s.oh.busy = false) : exec (.ohData who n) s = .next (ohData (ohArgs s [n])) :=
  congrArg Host.Outcome.next ((ohRow_operator hop).trans (ohCmd_data (s := ohArgs s _) ho hb))
theorem exec_ohTrain {steps len seed ad : Nat} (ho : openHouse s = true) (hb : s.oh.busy = false) : exec (.ohTrain who steps len seed ad) s =
    .next (ohTrain (ohArgs s [steps, len, seed, seed / 2 ^ 32, seed / 2 ^ 64, seed / 2 ^ 96, ad])) :=
  congrArg Host.Outcome.next ((ohRow_operator hop).trans (ohCmd_train (s := ohArgs s _) ho hb))
theorem exec_ohEval (ho : openHouse s = true) (hb : s.oh.busy = false) : exec (.ohEval who a n) s = .next (ohEval (ohArgs s [a, n])) :=
  congrArg Host.Outcome.next ((ohRow_operator hop).trans (ohCmd_eval (s := ohArgs s _) ho hb))
theorem exec_ohResult (ho : openHouse s = true) (hb : s.oh.busy = false) : exec (.ohResult who) s = .next (ohResult (ohArgs s [])) :=
  congrArg Host.Outcome.next ((ohRow_operator hop).trans (ohCmd_result (s := ohArgs s _) ho hb))
theorem exec_ohClear (ho : openHouse s = true) (hb : s.oh.busy = false) : exec (.ohClear who) s = .next (ohClear (ohArgs s [])) :=
  congrArg Host.Outcome.next ((ohRow_operator hop).trans (ohCmd_clear (s := ohArgs s _) ho hb))
theorem exec_ohClear_busy (ho : openHouse s = true) (hb : s.oh.busy = true) : exec (.ohClear who) s =
    .next { ohArgs s [] with oh := { (ohArgs s []).oh with done := false, lastCmd := 6, job := { s.oh.job with clearing := true } } } :=
  congrArg Host.Outcome.next ((ohRow_operator hop).trans (ohCmd_clear_busy (s := ohArgs s _) ho hb))

end Open

/-- The size of a base in its two arguments. -/
theorem ohArg_bytes {bytes : Nat} (h : bytes < 2 ^ 64) :
    ohArg (ohArgs s [bytes, bytes / 2 ^ 32]) 0 + 2 ^ 32 * ohArg (ohArgs s [bytes, bytes / 2 ^ 32]) 1 = bytes := by
  change bytes % 2 ^ 32 + 2 ^ 32 * (bytes / 2 ^ 32 % 2 ^ 32) = bytes
  omega

theorem ohArg_count (h : n < 2 ^ 32) : ohArg (ohArgs s [n]) 0 = n := Nat.mod_eq_of_lt h

theorem ohRead_ohArgs : ohRead (ohArgs s as) w off n = ohRead s w off n := rfl

theorem ohVocab_ohArgs : ohVocab (ohArgs s as) = ohVocab s := rfl

/-- OH_DATA of a count in its range. -/
theorem ohData_args (hs : s.oh.state = .based ∨ s.oh.state = .trained) (h1 : 1 ≤ n) (h2 : n ≤ 2 ^ 28) (hf : s.oh.fill + n ≤ 2 ^ 36)
    (ha : ohArg s 0 = n) :
    ((∀ k, k < n → leNat (ohRead s ohToken (4 * (s.oh.fill + k)) 4) < ohVocab s) → ohData s = ohEnd { s with oh.fill := s.oh.fill + n } 2 ohOk)
    ∧ ((∃ k, k < n ∧ ohVocab s ≤ leNat (ohRead s ohToken (4 * (s.oh.fill + k)) 4)) → ohData s = ohEnd s 2 ohBadToken) := by
  subst ha
  exact ⟨ohData_ok hs h1 h2 hf, ohData_badToken hs h1 h2 hf⟩

/-- OH_BASE of a descriptor and a base that hold. -/
theorem ohBased_spec {b : Nat} {bs : List Byte} : OhDone (ohEnd (ohBased t b bs) 1 0) 1 0 ∧ (ohEnd (ohBased t b bs) 1 0).oh.state = .based
    ∧ b ∈ (ohEnd (ohBased t b bs) 1 0).brn.rind ∧ (ohEnd (ohBased t b bs) 1 0).oh.outs = [field bs 2 2, 0, 0]
    ∧ (ohEnd (ohBased t b bs) 1 0).mem = t.mem := by
  rw [ohEnd_brn, ohEnd_mem, ohEnd_oh, ohBased_parts.1, ohBased_parts.2.1, ohBased_parts.2.2]
  exact ⟨ohDone_ohEnd, rfl, mem_insertNat, rfl, rfl⟩

theorem ohArgs_seed {seed : Nat} (h : seed < 2 ^ 128) : seed % 2 ^ 32 + 2 ^ 32 * (seed / 2 ^ 32 % 2 ^ 32)
    + 2 ^ 64 * (seed / 2 ^ 64 % 2 ^ 32) + 2 ^ 96 * (seed / 2 ^ 96 % 2 ^ 32) = seed := by omega

/-- OH_TRAIN of arguments in their ranges. -/
theorem ohTrain_args {steps len seed ad : Nat} (h1 : 1 ≤ steps) (h2 : steps ≤ 1048576) (hl : len ∈ [128, 256, 512, 1024, 2048, 4096])
    (hseed : seed < 2 ^ 128) (had : ad < 2 ^ 24) (hs : s.oh.state = .based ∨ s.oh.state = .trained)
    (has : as = [steps, len, seed, seed / 2 ^ 32, seed / 2 ^ 64, seed / 2 ^ 96, ad]) :
    ohTrain (ohArgs s as) = ohTraining (ohArgs s as) seed ∧ ohArg (ohArgs s as) 0 = steps ∧ ohArg (ohArgs s as) 6 = ad := by
  subst has
  have a0 : ohArg (ohArgs s [steps, len, seed, seed / 2 ^ 32, seed / 2 ^ 64, seed / 2 ^ 96, ad]) 0 = steps := Nat.mod_eq_of_lt (by omega)
  have a1 : ohArg (ohArgs s [steps, len, seed, seed / 2 ^ 32, seed / 2 ^ 64, seed / 2 ^ 96, ad]) 1 = len := Nat.mod_eq_of_lt (by
    simp only [List.mem_cons, List.not_mem_nil, or_false] at hl
    omega)
  have a6 : ohArg (ohArgs s [steps, len, seed, seed / 2 ^ 32, seed / 2 ^ 64, seed / 2 ^ 96, ad]) 6 = ad := Nat.mod_eq_of_lt (by omega)
  refine ⟨ohTrain_ok hs (by omega) (by omega) ?_ (by omega) (ohArgs_seed hseed), a0, a6⟩
  rw [a1]
  exact List.contains_iff_mem.2 hl

theorem ohNumber_le {c : Instr} (h : (c, k) ∈ [(Instr.ohBase who 0, 1), (.ohData who 1, 2), (.ohTrain who 1 128 0 0, 3),
    (.ohEval who 0 1, 4), (.ohResult who, 5)]) : k ≤ 5 := by
  simp only [List.mem_cons, Prod.mk.injEq, List.not_mem_nil, or_false] at h
  omega

theorem ohNumber_bounds {c : Instr} (h : (c, k) ∈ [(Instr.ohData who 1, 2), (.ohTrain who 1 128 0 0, 3), (.ohEval who 0 1, 4),
    (.ohResult who, 5)]) : 2 ≤ k ∧ k ≤ 5 := by
  simp only [List.mem_cons, Prod.mk.injEq, List.not_mem_nil, or_false] at h
  omega

/-- Settles O37: each command by the branch that its state takes, a Bell by whether it ends the run's Lesson. -/
theorem openHouseCommands : Obligations.OpenHouseCommands := by
  unfold Obligations.OpenHouseCommands
  refine ⟨fun s who hop => ?_, fun s y ht hy hc => ?_⟩
  · dsimp only
    refine ⟨fun ho c k h => ?_, fun ho hb => ⟨fun c k h => ?_, ?_⟩, fun ho hb => ⟨fun bytes hle he => ⟨fun hd t bs hl => ?_, fun hd => ?_⟩,
      fun bytes hlt h64 he => ?_, fun n h1 h2 hs hf => ⟨fun h => ?_, fun h => ?_⟩,
      fun steps len seed ad h1 h2 hl hseed had hs => ?_, fun a n ha hn hs hf => ?_, fun hs => ?_, ?_, fun he c k h => ?_⟩⟩
    · obtain ⟨hk, as, hx⟩ := exec_ohCommand hop h
      exact .of_next hx (ohCommand_closed ho hk)
    · obtain ⟨hk, as, hx⟩ := exec_ohCommand hop (List.mem_append_left [(Instr.ohClear who, 6)] h)
      exact .of_next hx (ohCommand_busy ho hb ⟨hk.1, ohNumber_le h⟩)
    · exact .of_next (exec_ohClear_busy hop ho hb) ⟨hb, rfl, rfl, rfl⟩
    · have hsize := (ohArg_bytes (s := s) (bytes := bytes) (by unfold giB at hle; omega)).symm ▸ hle
      exact .of_eq (exec_ohBase hop ho hb) (ohBase_ok (s := ohArgs s _) he hsize hd hl) ohBased_spec
    · have hsize := (ohArg_bytes (s := s) (bytes := bytes) (by unfold giB at hle; omega)).symm ▸ hle
      refine .of_eq (exec_ohBase hop ho hb) (ohBase_badDesc (s := ohArgs s _) he hsize hd) ⟨ohDone_ohEnd, ?_, ?_⟩
      · rw [ohEnd_oh]
        exact he
      · rw [ohEnd_brn, ohArgs_parts.2.2.2]
    · refine .of_eq (exec_ohBase hop ho hb) (ohBase_tooLarge (s := ohArgs s _) he ((ohArg_bytes h64).symm ▸ hlt)) ⟨ohDone_ohEnd, ?_⟩
      rw [ohEnd_oh]
      exact he
    · refine .of_eq (exec_ohData hop ho hb) ((ohData_args (s := ohArgs s [n]) hs h1 h2 hf (ohArg_count (by omega))).1 fun k hk => by
        rw [ohRead_ohArgs, ohVocab_ohArgs]
        exact h k hk) ⟨ohDone_ohEnd, ?_, ?_⟩
      · rw [ohEnd_oh]
        rfl
      · rw [ohEnd_mem]
        rfl
    · refine .of_eq (exec_ohData hop ho hb) ((ohData_args (s := ohArgs s [n]) hs h1 h2 hf (ohArg_count (by omega))).2 (by
        obtain ⟨k, hk, hv⟩ := h
        refine ⟨k, hk, ?_⟩
        rw [ohRead_ohArgs, ohVocab_ohArgs]
        exact hv)) ⟨ohDone_ohEnd, ?_⟩
      rw [ohEnd_oh]
      rfl
    · obtain ⟨hx, h0, h6⟩ := ohTrain_args h1 h2 hl hseed had hs rfl
      refine .of_eq (exec_ohTrain hop ho hb) hx ⟨rfl, rfl, rfl, rfl, h6, rfl, h0, rfl, ?_⟩
      rw [ohTraining, h6]
      rfl
    · obtain ⟨o, hx⟩ := ohEval_ok (s := ohArgs s [a, n]) hs (by
        change a % 2 ^ 32 + n % 2 ^ 32 ≤ s.oh.fill
        rwa [Nat.mod_eq_of_lt ha, Nat.mod_eq_of_lt hn])
      refine .of_eq (exec_ohEval hop ho hb) hx ⟨ohDone_ohEnd, ?_, ?_⟩
      · rw [ohEnd_oh]
        exact hs
      · rw [ohEnd_mem]
        rfl
    · exact .of_next (exec_ohResult hop ho hb) (ohResult_spec (s := ohArgs s []) hs)
    · exact .of_next (exec_ohClear hop ho hb) ohClear_spec
    · obtain ⟨hk, as, hx⟩ := exec_ohCommand hop (List.mem_append_left [(Instr.ohClear who, 6)] (List.mem_cons_of_mem (Instr.ohBase who 0, 1) h))
      refine .of_eq hx (ohCommand_empty ho hb he (ohNumber_bounds h)) ⟨ohDone_ohEnd, ?_, ?_⟩
      · rw [ohEnd_oh]
        exact he
      · rw [ohEnd_mem, ohArgs_parts.2.2.1]
  · obtain ⟨u, v, hx, hv, hu⟩ := exec_bell_training ht hy hc
    dsimp only
    refine ⟨fun hn => ⟨fun hcl => .of_next hx ?_, fun hcl => .of_next hx ?_⟩, fun hn => .of_next hx ?_⟩
    · rw [if_pos (beq_iff_eq.2 hn), ohLesson_eq, if_neg (by rw [ohStepped_oh, hv]; simp [OhJob.next, hcl])] at hu
      have hstep : (ohStepped v y).oh = { s.oh with
          job := s.oh.job.next s.oh.desc s.oh.run s.oh.adapter s.oh.fill y.lessonBells, outs := [s.oh.job.step + 1, 0, 0] } := by
        rw [ohStepped_oh, hv]
      split at hu
      · next hlast =>
        rw [hstep] at hlast
        rw [hu, ohEnd_oh, hstep]
        exact ⟨rfl, rfl, rfl, rfl, fun h => absurd h (Nat.not_lt.2 hlast), fun _ => ⟨rfl, rfl, rfl, rfl, rfl⟩⟩
      · next hmore =>
        rw [hstep] at hmore
        rw [hu, hstep]
        exact ⟨rfl, rfl, rfl, rfl, fun _ => ⟨ht, rfl⟩, fun h => absurd h hmore⟩
    · rw [if_pos (beq_iff_eq.2 hn), ohLesson_eq, if_pos (by rw [ohStepped_oh, hv]; exact hcl)] at hu
      obtain ⟨⟨hd, hb, hl, hst⟩, hs, hf, -⟩ := ohClear_spec (s := ohStepped v y)
      rw [hu]
      exact ⟨hs, hf, hd, hb, hl, hst⟩
    · rw [hu, if_neg (by simpa using hn), hv]

end Sys2Proof.Machine
end


section
/-! SUPPORT and proof of O38. The request ports of the Vat. -/

namespace Sys2Proof.Machine

variable {s t u : State} {who : Req} {port slot ctx n k la p : Nat} {v : VSlot} {as : List Nat} {c : Instr}

/-! ### What does not depend on the ports' registers -/

/-- The ports with other registers. -/
def withPorts (s : State) (x : Tbl VPort) : State := { s with vat.port := x }

section Ports

variable {x : Tbl VPort} {key : List Byte} {bs : List Byte}

theorem readUnder_withPorts : readUnder (withPorts s x) key la n = readUnder s key la n := rfl
theorem raise_withPorts {f : FaultCode} {a : FaultAt} : raise (withPorts s x) f a = withPorts (raise s f a) x := by
  have hi : ∀ b, (if f.cls = 2 then ibi (withPorts s x) b else withPorts s x) = withPorts (if f.cls = 2 then ibi s b else s) x := fun b => by
    unfold ibi
    split
    · cases h : s.i3c.ibi <;> simp [withPorts, h]
    · rfl
  have hx : (withPorts s x).int = s.int := rfl
  unfold raise
  dsimp only
  rw [hi, hx]
  generalize (if f.cls = 2 then ibi s 2 else s) = w
  split <;> rfl

theorem writePart_withPorts {a : Nat} : writePart (withPorts s x) key a bs = withPorts (writePart s key a bs) x := by
  have hs : shutOff (withPorts s x) a = shutOff s a := rfl
  unfold writePart
  dsimp only
  rw [hs]
  split <;> rfl

theorem writeKey_withPorts {a : Nat} : writeKey (withPorts s x) key a bs = withPorts (writeKey s key a bs) x := by
  have go : ∀ (es : List (Nat × List Byte)) (v : State), forEach es (fun s e => writePart s key e.1 e.2) (withPorts v x) =
      withPorts (forEach es (fun s e => writePart s key e.1 e.2) v) x := by
    intro es
    induction es with
    | nil => exact fun _ => rfl
    | cons e es ih =>
      intro v
      rw [forEach_cons, forEach_cons, writePart_withPorts, ih]
  unfold writeKey
  have hd : (withPorts s x).tst = s.tst := rfl
  rw [hd]
  split
  · exact writePart_withPorts
  · exact go _ _

theorem writeUnder_withPorts : writeUnder (withPorts s x) key la bs = withPorts (writeUnder s key la bs) x := by
  have hm : ∀ q m, meetsRind (withPorts s x) q m = meetsRind s q m := fun _ _ => rfl
  unfold writeUnder
  split
  · rw [hm]
    split
    · exact raise_withPorts
    · exact writeKey_withPorts
  · rfl

theorem putSlot_withPorts : putSlot (withPorts s x) k v = withPorts (putSlot s k v) x := writeUnder_withPorts
theorem putId_withPorts {o : Option Nat} : putId (withPorts s x) k o = withPorts (putId s k o) x := writeUnder_withPorts
theorem putExp_withPorts {l i : Nat} {o : Option (Nat × Nat)} : putExp (withPorts s x) p l i o = withPorts (putExp s p l i o) x :=
  writeUnder_withPorts
theorem writeStg_withPorts {e : StgEnt} : writeStg (withPorts s x) p k e = withPorts (writeStg s p k e) x := by
  have hw : stagingWin (withPorts s x) p = stagingWin s p := rfl
  unfold writeStg
  rw [hw]
  split
  · exact writeKey_withPorts
  · rfl

theorem slotAt_withPorts : slotAt? (withPorts s x) k = slotAt? s k := rfl
theorem idEntry_withPorts : idEntry (withPorts s x) k = idEntry s k := rfl
theorem expEntry_withPorts {l i : Nat} : expEntry (withPorts s x) p l i = expEntry s p l i := rfl
theorem expertsOf_withPorts : expertsOf (withPorts s x) k = expertsOf s k := rfl
theorem inData_withPorts : inData (withPorts s x) la n = inData s la n := rfl
theorem slotImg_withPorts : slotImg (withPorts s x) v = slotImg s v := rfl
theorem slotHasExpert_withPorts {l i : Nat} : slotHasExpert (withPorts s x) v l i = slotHasExpert s v l i := rfl
theorem inStaging_withPorts : inStaging (withPorts s x) p la n = inStaging s p la n := rfl
theorem readStg_withPorts : readStg (withPorts s x) p k = readStg s p k := rfl
theorem adaptMax_withPorts : adaptMax (withPorts s x) p = adaptMax s p := rfl
theorem vatPtn_withPorts : vatPtn (withPorts s x) port ctx = vatPtn s port ctx := rfl
theorem unstageWaits_withPorts : unstageWaits (withPorts s x) v = unstageWaits s v := rfl
theorem attachedTo_withPorts : attachedTo (withPorts s x) p ctx = attachedTo s p ctx := rfl

end Ports

/-- A write of the Vat window leaves the Vat's engine as it is. -/
theorem writeUnder_vat {key bs : List Byte} : (writeUnder s key la bs).vat = s.vat ∧ (writeUnder s key la bs).pwr = s.pwr := by
  have h : Kept [.mem, .memKey, .memErr, .resv, .mc, .int, .ptn, .ctx, .i3c] s (writeUnder s key la bs) :=
    writeUnder_kept (Kept.refl _ s) (Within.refl _)
  exact ⟨h.rest .vat (by decide), h.rest .pwr (by decide)⟩

theorem withPorts_parts {x : Tbl VPort} : (withPorts s x).mem = s.mem ∧ (withPorts s x).vat.fetches = s.vat.fetches
    ∧ (withPorts s x).vat.jobs = s.vat.jobs ∧ (withPorts s x).pwr = s.pwr ∧ (withPorts s x).int = s.int := ⟨rfl, rfl, rfl, rfl, rfl⟩

/-! ### An operation's row and its answer (R155, R179) -/

/-- The port with an operation's arguments. -/
def ported (s : State) (port : Nat) (as : List Nat) : State := modPort s port (fun v => { v with args := as })

theorem ported_eq : ported s port as = withPorts s (tmod default s.vat.port port (fun v => { v with args := as })) := rfl

theorem vAnswer_parts {st : Nat} : (vAnswer s port slot st).mem = s.mem ∧ (vAnswer s port slot st).vat.fetches = s.vat.fetches
    ∧ (vAnswer s port slot st).vat.jobs = s.vat.jobs ∧ (vAnswer s port slot st).int = s.int := ⟨rfl, rfl, rfl, rfl⟩

theorem PortAnswered.of_answer {P : State → Prop} {st : Nat} (h : exec c s = .next (vAnswer u port slot st)) (hp : P (vAnswer u port slot st)) :
    PortAnswered s c port st P := by
  refine .of_next h ?_
  rw [vAnswer, getPort_modPort]
  exact ⟨rfl, rfl, rfl, hp⟩

/-- What an operation does once the checks of its record, context and owner are passed. -/
def vatDo (s : State) (op n slot ctx : Nat) (v : VSlot) (a : VPort) : State × Nat :=
  match op with
  | 1 => vatClaim s n slot ctx v a
  | 2 => vatFetch s n slot ctx v a
  | 3 => vatCancel s n slot v a
  | 4 => vatClaimExpert s n slot ctx v a
  | 5 => vatReleaseExpert s n slot ctx v a
  | 6 => vatStage s n slot ctx v a
  | 7 => vatUnstage s n slot v a
  | _ => vatEvict s n slot v (bits (portArg a 4) 16 16)

/-- An instruction is an operation of a port with these arguments, none of whose reserved bits is set. -/
structure PortOp (s : State) (who : Req) (port slot ctx : Nat) (c : Instr) (op : Nat) (as : List Nat) : Prop where
  row : exec c s = .next (vatRow s who port op as)
  range : 1 ≤ op ∧ op ≤ 8
  args : argsOk op { getPort s port with args := as } = true
  slotArg : bits (getAt 0 as 0) 0 16 = slot
  ctxArg : bits (getAt 0 as 0) 16 12 = ctx

/-- The arguments at the port. -/
def portOf (s : State) (port : Nat) (as : List Nat) : VPort := { getPort s port with args := as }

section Op

variable {op : Nat} (hm : mayPort s who port = true) (hb : (getPort s port).busy = false) (hr : s.vat.ready = true)
  (h : PortOp s who port slot ctx c op as)
include hm hb h

theorem PortOp.exec_eq : exec c s = .next (vatOp (ported s port as) port op) := by
  rw [h.row, vatRow, if_neg (by simp [hm, hb])]
  rfl

include hr

theorem PortOp.record (hv : slotAt? s slot = some v) : exec c s = .next (
    if port < 64 && !attachedTo s port ctx then vAnswer (ported s port as) port slot vForeign
    else if op ≠ 1 ∧ v.owner ≠ mkTag ctx then vAnswer (ported s port as) port slot vForeign
    else vAnswer (vatDo (ported s port as) op port slot ctx v (portOf s port as)).1 port slot
      (vatDo (ported s port as) op port slot ctx v (portOf s port as)).2) := by
  have hg : getPort (ported s port as) port = portOf s port as := getPort_modPort ..
  have hslot : bits (portArg (portOf s port as) 0) 0 16 = slot := h.slotArg
  have hctx : bits (portArg (portOf s port as) 0) 16 12 = ctx := h.ctxArg
  have hargs : argsOk op (portOf s port as) = true := h.args
  have hbusy : (portOf s port as).busy = false := hb
  have hready : (ported s port as).vat.ready = true := hr
  have hrec : slotAt? (ported s port as) slot = some v := hv
  obtain ⟨h1, h8⟩ := h.range
  rw [h.exec_eq hm hb]
  unfold vatOp
  dsimp only
  rw [hg, hslot, hctx, hargs, hbusy, hready, hrec, if_neg (by decide), if_neg (by omega), if_neg (by decide)]
  rfl

theorem PortOp.done (hv : slotAt? s slot = some v) (ha : 64 ≤ port ∨ attachedTo s port ctx = true) (ho : op = 1 ∨ v.owner = mkTag ctx)
    {st : Nat} (hd : vatDo (ported s port as) op port slot ctx v (portOf s port as) = (u, st)) : exec c s = .next (vAnswer u port slot st) := by
  rw [h.record hm hb hr hv, if_neg, if_neg, hd]
  · rcases ho with ho | ho <;> simp [ho]
  · rcases ha with ha | ha
    · simp [ha]
    · simp [ha]

theorem PortOp.foreignCtx (hv : (slotAt? s slot).isSome = true) (hp : port < 64) (ha : attachedTo s port ctx = false) :
    exec c s = .next (vAnswer (ported s port as) port slot vForeign) := by
  obtain ⟨v, hv⟩ := Option.isSome_iff_exists.1 hv
  rw [h.record hm hb hr hv, if_pos (by simp [hp, ha])]

theorem PortOp.foreignOwner (hv : slotAt? s slot = some v) (ha : 64 ≤ port ∨ attachedTo s port ctx = true) (h1 : op ≠ 1)
    (ho : v.owner ≠ mkTag ctx) : exec c s = .next (vAnswer (ported s port as) port slot vForeign) := by
  rw [h.record hm hb hr hv, if_neg, if_pos ⟨h1, ho⟩]
  rcases ha with ha | ha
  · simp [ha]
  · simp [ha]

theorem PortOp.badRecord (hv : slotAt? s slot = none) (h8 : op ≠ 8) :
    exec c s = .next (vAnswer (vatBad (ported s port as) (vatSlot s slot)) port slot vBadState) := by
  have hg : getPort (ported s port as) port = portOf s port as := getPort_modPort ..
  have hslot : bits (portArg (portOf s port as) 0) 0 16 = slot := h.slotArg
  have hargs : argsOk op (portOf s port as) = true := h.args
  have hbusy : (portOf s port as).busy = false := hb
  have hready : (ported s port as).vat.ready = true := hr
  have hrec : slotAt? (ported s port as) slot = none := hv
  obtain ⟨h1, hle⟩ := h.range
  rw [h.exec_eq hm hb]
  unfold vatOp
  dsimp only
  rw [hg, hslot, hargs, hbusy, hready, hrec, if_neg (by decide), if_neg (by omega), if_neg (by decide)]
  dsimp only
  rw [if_neg (by simp [h8])]
  rfl

end Op

/-! ### The operations' arguments -/

section Args

variable (hs : slot < 65536) (hc : ctx < 4096)
include hs hc

theorem vArg0_fields : bits (vArg0 slot ctx) 0 16 = slot ∧ bits (vArg0 slot ctx) 16 12 = ctx ∧ bits (vArg0 slot ctx) 28 4 = 0 := by
  simp only [bits, vArg0, Nat.shiftRight_eq_div_pow]
  omega

theorem portOp_claimSlot {id addr units : Nat} : PortOp s who port slot ctx (.claimSlot who port slot ctx id addr units) 1
    [vArg0 slot ctx, id % 2 ^ 24, lo32 addr, hi32 addr, units % 65536 + 65536 * 0xFFFF] := by
  obtain ⟨h0, h1, h2⟩ := vArg0_fields hs hc
  refine ⟨rfl, by decide, ?_, h0, h1⟩
  change (bits (vArg0 slot ctx) 28 4 == 0 && bits (id % 2 ^ 24) 24 8 == 0) = true
  have hid : bits (id % 2 ^ 24) 24 8 = 0 := by
    simp only [bits, Nat.shiftRight_eq_div_pow]
    omega
  rw [h2, hid]
  rfl

theorem portOp_plain {op a1 a2 a3 a4 : Nat} (hrow : exec c s = .next (vatRow s who port op [vArg0 slot ctx, a1, a2, a3, a4]))
    (hop : op ∈ [2, 3, 7, 8]) : PortOp s who port slot ctx c op [vArg0 slot ctx, a1, a2, a3, a4] := by
  obtain ⟨h0, h1, h2⟩ := vArg0_fields hs hc
  simp only [List.mem_cons, List.not_mem_nil, or_false] at hop
  refine ⟨hrow, by omega, ?_, h0, h1⟩
  have hx : bits (portArg { getPort s port with args := [vArg0 slot ctx, a1, a2, a3, a4] } 0) 28 4 = 0 := h2
  unfold argsOk
  rw [hx]
  rcases hop with rfl | rfl | rfl | rfl <;> rfl

theorem portOp_expert {op idx layer loc a2 a3 a4 : Nat} (hrow : exec c s = .next (vatRow s who port op
    [vArg0 slot ctx, idx % 256 + 256 * (layer % 256) + 65536 * (loc % 64), a2, a3, a4])) (hop : op = 4 ∨ op = 5) :
    PortOp s who port slot ctx c op [vArg0 slot ctx, idx % 256 + 256 * (layer % 256) + 65536 * (loc % 64), a2, a3, a4] := by
  obtain ⟨h0, h1, h2⟩ := vArg0_fields hs hc
  refine ⟨hrow, by omega, ?_, h0, h1⟩
  have hl : bits (idx % 256 + 256 * (layer % 256) + 65536 * (loc % 64)) 22 10 = 0 := by
    simp only [bits, Nat.shiftRight_eq_div_pow]
    omega
  rcases hop with rfl | rfl
  all_goals
    change (bits (vArg0 slot ctx) 28 4 == 0 && bits (idx % 256 + 256 * (layer % 256) + 65536 * (loc % 64)) 22 10 == 0) = true
    rw [h2, hl]
    rfl

theorem portOp_stage {stg addr sem : Nat} : PortOp s who port slot ctx (.stage who port slot ctx stg addr sem) 6
    [vArg0 slot ctx, stg % 4096, lo32 addr, hi32 addr, 65536 * (sem % 65536)] := by
  obtain ⟨h0, h1, h2⟩ := vArg0_fields hs hc
  refine ⟨rfl, by decide, ?_, h0, h1⟩
  change (bits (vArg0 slot ctx) 28 4 == 0 && bits (stg % 4096) 12 20 == 0) = true
  have hstg : bits (stg % 4096) 12 20 = 0 := by
    simp only [bits, Nat.shiftRight_eq_div_pow]
    omega
  rw [h2, hstg]
  rfl

end Args

/-! ### What the operations do (R156, R159, R162, R163, R165) -/

section Do

variable {a : VPort}

/-- The record of a claimed slot. -/
def claimedSlot (s : State) (v : VSlot) (ctx id addr units : Nat) : VSlot := {
  state := slClaimed, gen := wrap 8 (v.gen + 1), owner := mkTag ctx, adapter := id, data := addr, len := units * 65536
  claim := now s, fetchSeq := v.fetchSeq }

section Claim

variable {id addr units : Nat} (hid : bits (portArg a 1) 0 24 = id)

theorem vatClaim_busy (hf : v.state ≠ slFree) : vatClaim s n slot ctx v a = (s, vSlotBusy) := if_pos hf

include hid

theorem vatClaim_live (hf : v.state = slFree) (he : idEntry s id = .ok (some k)) : vatClaim s n slot ctx v a = (s, vIdLive) := by
  subst hid
  unfold vatClaim
  dsimp only
  rw [if_neg (by simp [hf]), he]

theorem vatClaim_free (hla : portArg a 2 + 2 ^ 32 * portArg a 3 = addr) (hun : bits (portArg a 4) 0 16 = units)
    (hf : v.state = slFree) (he : idEntry s id = .ok none) : vatClaim s n slot ctx v a =
    if units * 65536 = 0 || !inData s addr (units * 65536) then (s, vBadRange)
    else (putId (putSlot s slot (claimedSlot s v ctx id addr units)) id (some slot), vOk) := by
  subst hid
  unfold vatClaim
  dsimp only
  rw [if_neg (by simp [hf]), he, hla, hun]
  rfl

end Claim

/-- The fetch that FETCH opens. -/
def openedFetch (s : State) (n slot ctx : Nat) (v : VSlot) (sem : Nat) : VFetch := {
  slot := slot, gen := v.gen, seq := wrap 32 (v.fetchSeq + 1), ctx := ctx, adapter := v.adapter, port := n
  sem := sem, start := if counting s then some s.bell.count else none }

/-- The slot's record under a fetch. -/
def fetchingSlot (v : VSlot) : VSlot := { v with state := slFetching, fetchSeq := wrap 32 (v.fetchSeq + 1) }

theorem cptSend_parts {f : CptFrame} : (cptSend s f).mem = s.mem ∧ (cptSend s f).vat = s.vat := by
  have h : Kept [.cpt] s (cptSend s f) := cptSend_kept (Kept.refl _ s) (Within.refl _)
  exact ⟨h.rest .mem (by decide), h.rest .vat (by decide)⟩

theorem vatJob_cptSend (s : State) (f : CptFrame) (j : VJob) : (vatJob (cptSend s f) j).vat.fetches = s.vat.fetches
    ∧ (vatJob (cptSend s f) j).vat.jobs = s.vat.jobs ++ [j] := by
  rw [vatJob, cptSend_parts.2]
  exact ⟨rfl, rfl⟩

theorem vatFetch_bad (hf : v.state ≠ slClaimed) : vatFetch s n slot ctx v a = (s, vBadState) := if_pos (.inl hf)

theorem vatFetch_ok (hf : v.state = slClaimed) (hl : s.vat.fetches.length < 64) {sem : Nat} (hsem : bits (portArg a 4) 16 16 = sem) :
    ∃ u, vatFetch s n slot ctx v a = (u, vOk) ∧ u.mem = (putSlot s slot (fetchingSlot v)).mem
      ∧ u.vat.fetches = s.vat.fetches ++ [openedFetch (putSlot s slot (fetchingSlot v)) n slot ctx v sem] := by
  subst hsem
  refine ⟨_, if_neg (by simp [hf]; omega), cptSend_parts.1, ?_⟩
  rw [cptSend_parts.2]
  dsimp only
  rw [putSlot, writeUnder_vat.1]
  rfl

section Cancel

variable (hf : v.state = slFetching) {sem : Nat} (hsem : bits (portArg a 4) 16 16 = sem)

theorem vatCancel_bad (hf : v.state ≠ slFetching) : vatCancel s n slot v a = (s, vBadState) := by
  unfold vatCancel
  split
  · exact if_pos hf
  · exact if_pos hf

include hf hsem

theorem vatCancel_ok {f : VFetch} (h : s.vat.fetches.find? (fun f => f.slot == slot) = some f) :
    ∃ u, vatCancel s n slot v a = (u, vOk) ∧ u.mem = s.mem ∧ u.vat.fetches = s.vat.fetches.filter (fun g => g.slot != slot)
      ∧ u.vat.jobs = s.vat.jobs ++ [{ kind := .cancel, slot := slot, port := n, sem := sem, bytes := f.data.length }] := by
  subst hsem
  refine ⟨vatJob (cptSend { s with vat.fetches := s.vat.fetches.filter (fun g => g.slot != slot) } (fetchCtl f 2))
    { kind := .cancel, slot := slot, port := n, sem := bits (portArg a 4) 16 16, bytes := f.data.length }, ?_, ?_, ?_, ?_⟩
  · unfold vatCancel
    rw [h]
    exact if_neg (by simp [hf])
  · exact cptSend_parts.1
  · exact (vatJob_cptSend ..).1
  · exact (vatJob_cptSend ..).2

end Cancel

section Expert

variable {idx layer loc : Nat} (ha : bits (portArg a 1) 0 8 = idx ∧ bits (portArg a 1) 8 8 = layer ∧ bits (portArg a 1) 16 6 = loc)
  (hs : v.state = slResident ∨ v.state = slStaged) (hp : vatPtn s n ctx = some p)
include ha hs hp

theorem vatClaimExpert_ok (he : expEntry s p layer idx = .ok none) (hk : v.kind = 2) (hx : slotHasExpert s v layer loc = true) :
    vatClaimExpert s n slot ctx v a = (putExp s p layer idx (some (loc, slot)), vOk) := by
  obtain ⟨rfl, rfl, rfl⟩ := ha
  unfold vatClaimExpert
  dsimp only
  rw [hp]
  dsimp only
  rw [if_neg (by rcases hs with h | h <;> simp [h]), he]
  exact (if_neg (by simp [hk])).trans (if_neg (by simp [hx]))

theorem vatReleaseExpert_ok (he : expEntry s p layer idx = .ok (some (k, slot))) :
    vatReleaseExpert s n slot ctx v a = (putExp s p layer idx none, vOk) := by
  obtain ⟨rfl, rfl, rfl⟩ := ha
  unfold vatReleaseExpert
  dsimp only
  rw [hp]
  dsimp only
  rw [if_neg (by rcases hs with h | h <;> simp [h]), he]
  exact if_pos rfl

end Expert

/-- The staging entry of a copy that has begun. -/
def pendingStg (s : State) (v : VSlot) (slot addr : Nat) : StgEnt := {
  state := 1, owner := v.owner, slot := slot, gen := v.gen, kind := v.kind, image := addr, len := (slotImg s v).len
  adapter := v.adapter }

theorem writeStg_parts {e : StgEnt} : (writeStg s p k e).vat = s.vat ∧ (writeStg s p k e).pwr = s.pwr := by
  have h : Kept [.mem, .memKey, .memErr, .resv] s (writeStg s p k e) := writeStg_kept (Kept.refl _ s) (Within.refl _)
  exact ⟨h.rest .vat (by decide), h.rest .pwr (by decide)⟩

theorem vatStage_ok {stg addr sem : Nat} (hstg : bits (portArg a 1) 0 12 = stg) (hla : portArg a 2 + 2 ^ 32 * portArg a 3 = addr)
    (hsem : bits (portArg a 4) 16 16 = sem) (hs : v.state = slResident) (hp : vatPtn s n ctx = some p) (hm : stg < adaptMax s p)
    (hi : inStaging s p addr (slotImg s v).len = true) (h0 : (parseStg (readStg s p stg)).state = 0) :
    vatStage s n slot ctx v a = (vatJob (writeStg s p stg (pendingStg s v slot addr))
      { kind := .stage, slot := slot, port := n, sem := sem, waiting := s.pwr.hold, stg := stg, ptn := p, addr := addr }, vOk) := by
  unfold vatStage
  dsimp only
  rw [hp, hstg, hla, hsem]
  dsimp only
  rw [if_neg (by simp [hs]), if_neg (by simp [hi, hm]), if_neg (by simp [h0]), writeStg_parts.2]
  rfl

theorem vatUnstage_bad (hs : v.state ≠ slStaged) : vatUnstage s n slot v a = (s, vBadState) := if_pos hs

theorem vatUnstage_ok {sem : Nat} (hsem : bits (portArg a 4) 16 16 = sem) (hs : v.state = slStaged) : vatUnstage s n slot v a =
    (vatJob s { kind := .unstage, slot := slot, port := n, sem := sem, waiting := unstageWaits s v, stg := v.stg, ptn := v.stgPtn
                addr := v.stage }, vOk) := by
  subst hsem
  exact if_neg (by simp [hs])

theorem vatEvict_bad {sem : Nat} (h1 : v.state ≠ slClaimed) (h2 : v.state ≠ slResident) : vatEvict s n slot v sem = (s, vBadState) :=
  if_pos ⟨h1, h2⟩

section Evict

variable {sem : Nat} (hs : v.state = slClaimed ∨ v.state = slResident)
include hs

theorem vatEvict_inUse (h : expertsOf s slot ≠ []) : vatEvict s n slot v sem = (s, vInUse) :=
  (if_neg (by rcases hs with h | h <;> simp [h])).trans (if_pos (by simp [h]))

theorem vatEvict_ok (h : expertsOf s slot = []) : vatEvict s n slot v sem =
    (vatJob (putSlot (putId s v.adapter none) slot { v with state := slEvicting })
      { kind := .evict, slot := slot, port := n, sem := sem, bytes := v.len }, vOk) :=
  (if_neg (by rcases hs with h | h <;> simp [h])).trans (if_neg (by simp [h]))

end Evict

end Do

/-! ### The argument words read back -/

theorem lo32_hi32 {x : Nat} (h : x < 2 ^ 64) : lo32 x + 2 ^ 32 * hi32 x = x := by
  simp only [lo32, hi32]
  omega

theorem bits_semArg {x : Nat} (h : x < 65536) : bits (65536 * (x % 65536)) 16 16 = x := by
  simp only [bits, Nat.shiftRight_eq_div_pow]
  omega

theorem bits_expertArg {idx layer loc : Nat} (hi : idx < 256) (hl : layer < 256) (hc : loc < 64) :
    bits (idx % 256 + 256 * (layer % 256) + 65536 * (loc % 64)) 0 8 = idx
    ∧ bits (idx % 256 + 256 * (layer % 256) + 65536 * (loc % 64)) 8 8 = layer
    ∧ bits (idx % 256 + 256 * (layer % 256) + 65536 * (loc % 64)) 16 6 = loc := by
  simp only [bits, Nat.shiftRight_eq_div_pow]
  omega

theorem bits_low {x w : Nat} (h : x < 2 ^ w) : bits (x % 2 ^ w) 0 w = x := by
  rw [bits, Nat.shiftRight_zero, Nat.mod_mod, Nat.mod_eq_of_lt h]

theorem bits_units {units : Nat} (h : units < 65536) : bits (units % 65536 + 65536 * 0xFFFF) 0 16 = units := by
  simp only [bits, Nat.shiftRight_eq_div_pow]
  omega

/-! ### Refusals -/

/-- A refused operation changes no memory, no job and no fetch. -/
theorem PortAnswered.refused {st : Nat} (h : exec c s = .next (vAnswer (ported s port as) port slot st)) :
    PortAnswered s c port st (fun u => u.mem = s.mem ∧ u.vat.jobs = s.vat.jobs ∧ u.vat.fetches = s.vat.fetches) :=
  .of_answer h ⟨rfl, rfl, rfl⟩

/-! ### The clauses of O38 -/

theorem ported_parts : (ported s port as).mem = s.mem ∧ (ported s port as).vat.fetches = s.vat.fetches
    ∧ (ported s port as).vat.jobs = s.vat.jobs := ⟨rfl, rfl, rfl⟩

theorem mem_putId_putSlot {o : Option Nat} : (putId (putSlot (ported s port as) slot v) k o).mem = (putId (putSlot s slot v) k o).mem := by
  rw [ported_eq, putSlot_withPorts, putId_withPorts]
  rfl

theorem mem_putSlot_putId {o : Option Nat} : (putSlot (putId (ported s port as) k o) slot v).mem = (putSlot (putId s k o) slot v).mem := by
  rw [ported_eq, putId_withPorts, putSlot_withPorts]
  rfl

theorem mem_putSlot : (putSlot (ported s port as) slot v).mem = (putSlot s slot v).mem := by
  rw [ported_eq, putSlot_withPorts]
  rfl

theorem mem_putExp {l i : Nat} {o : Option (Nat × Nat)} : (putExp (ported s port as) p l i o).mem = (putExp s p l i o).mem := by
  rw [ported_eq, putExp_withPorts]
  rfl

theorem mem_writeStg {e : StgEnt} : (writeStg (ported s port as) p k e).mem = (writeStg s p k e).mem := by
  rw [ported_eq, writeStg_withPorts]
  rfl

theorem vatJob_jobs {j : VJob} (h : u.vat = s.vat) : (vatJob u j).vat.jobs = s.vat.jobs ++ [j] := by rw [vatJob, h]

theorem putSlot_vat : (putSlot s k v).vat = s.vat := writeUnder_vat.1
theorem putId_vat {o : Option Nat} : (putId s k o).vat = s.vat := writeUnder_vat.1

section Clauses

variable (hm : mayPort s who port = true) (hb : (getPort s port).busy = false) (hr : s.vat.ready = true) (hs : slot < 65536) (hc : ctx < 4096)
include hm hb hr hs hc

/-- The arguments of an operation that names a semaphore. -/
def semArgs (slot ctx sem : Nat) : List Nat := [vArg0 slot ctx, 0, 0, 0, 65536 * (sem % 65536)]

/-- The arguments of CLAIM_SLOT. -/
def claimArgs (slot ctx id addr units : Nat) : List Nat :=
  [vArg0 slot ctx, id % 2 ^ 24, lo32 addr, hi32 addr, units % 65536 + 65536 * 0xFFFF]

section Record

variable (hv : slotAt? s slot = some v) (ha : 64 ≤ port ∨ attachedTo s port ctx = true)
include hv ha

theorem claimSlot_done {id addr units st : Nat} (h : vatClaim (ported s port (claimArgs slot ctx id addr units)) port slot ctx v
      (portOf s port (claimArgs slot ctx id addr units)) = (u, st)) :
    exec (.claimSlot who port slot ctx id addr units) s = .next (vAnswer u port slot st) :=
  (portOp_claimSlot hs hc).done hm hb hr hv ha (.inl rfl) h

theorem claimSlot_answered {id addr units : Nat} (hf : v.state = slFree) (hid : id < 2 ^ 24) (haddr : addr < 2 ^ 64) (h0 : 0 < units)
    (hun : units < 65536) (he : idEntry s id = .ok none) (hd : inData s addr (units * 65536) = true) :
    PortAnswered s (.claimSlot who port slot ctx id addr units) port vOk (fun u =>
      u.mem = (putId (putSlot s slot (claimedSlot s v ctx id addr units)) id (some slot)).mem) := by
  have hx := vatClaim_free (s := ported s port (claimArgs slot ctx id addr units)) (n := port) (slot := slot) (ctx := ctx) (v := v)
    (a := portOf s port (claimArgs slot ctx id addr units)) (bits_low hid) (lo32_hi32 haddr) (bits_units hun) hf he
  rw [if_neg (by simp [ported_eq, inData_withPorts, hd]; omega)] at hx
  refine .of_answer (claimSlot_done hm hb hr hs hc hv ha hx) ?_
  rw [vAnswer_parts.1, mem_putId_putSlot]
  rfl

theorem claimSlot_busy (hf : v.state ≠ slFree) : exec (.claimSlot who port slot ctx 1 0 1) s =
    .next (vAnswer (ported s port (claimArgs slot ctx 1 0 1)) port slot vSlotBusy) :=
  claimSlot_done hm hb hr hs hc hv ha (vatClaim_busy hf)

theorem claimSlot_live {id : Nat} (hid : id < 2 ^ 24) (hf : v.state = slFree) (he : idEntry s id = .ok (some k)) :
    exec (.claimSlot who port slot ctx id 0 1) s = .next (vAnswer (ported s port (claimArgs slot ctx id 0 1)) port slot vIdLive) :=
  claimSlot_done hm hb hr hs hc hv ha (vatClaim_live (bits_low hid) hf he)

theorem claimSlot_badRange {id addr units : Nat} (hid : id < 2 ^ 24) (haddr : addr < 2 ^ 64) (hun : units < 65536) (hf : v.state = slFree)
    (he : idEntry s id = .ok none) (hd : units = 0 ∨ inData s addr (units * 65536) = false) :
    exec (.claimSlot who port slot ctx id addr units) s =
      .next (vAnswer (ported s port (claimArgs slot ctx id addr units)) port slot vBadRange) := by
  have hx := vatClaim_free (s := ported s port (claimArgs slot ctx id addr units)) (n := port) (slot := slot) (ctx := ctx) (v := v)
    (a := portOf s port (claimArgs slot ctx id addr units)) (bits_low hid) (lo32_hi32 haddr) (bits_units hun) hf he
  rw [if_pos (by rcases hd with hd | hd <;> simp [ported_eq, inData_withPorts, hd])] at hx
  exact claimSlot_done hm hb hr hs hc hv ha hx

section Owner

variable (ho : v.owner = mkTag ctx)
include ho

theorem fetch_done {sem st : Nat} (h : vatFetch (ported s port (semArgs slot ctx sem)) port slot ctx v (portOf s port (semArgs slot ctx sem)) = (u, st)) :
    exec (.fetch who port slot ctx sem) s = .next (vAnswer u port slot st) :=
  (portOp_plain (op := 2) hs hc rfl (by decide)).done hm hb hr hv ha (.inr ho) h

theorem fetch_answered {sem : Nat} (hsem : sem < 65536) (hst : v.state = slClaimed) (hl : s.vat.fetches.length < 64) :
    PortAnswered s (.fetch who port slot ctx sem) port vOk (fun u => u.mem = (putSlot s slot (fetchingSlot v)).mem
      ∧ ∃ f : VFetch, u.vat.fetches = s.vat.fetches ++ [f] ∧ f.slot = slot ∧ f.gen = v.gen ∧ f.seq = wrap 32 (v.fetchSeq + 1)
        ∧ f.ctx = ctx ∧ f.adapter = v.adapter ∧ f.sem = sem) := by
  obtain ⟨u, hx, hmem, hf⟩ := vatFetch_ok (s := ported s port (semArgs slot ctx sem)) (n := port) (slot := slot) (ctx := ctx) (v := v)
    (a := portOf s port (semArgs slot ctx sem)) hst hl (bits_semArg hsem)
  refine .of_answer (fetch_done hm hb hr hs hc hv ha ho hx) ⟨?_, _, vAnswer_parts.2.1.trans hf, rfl, rfl, rfl, rfl, rfl, rfl⟩
  rw [vAnswer_parts.1, hmem, mem_putSlot]

theorem cancel_done {sem st : Nat} (h : vatCancel (ported s port (semArgs slot ctx sem)) port slot v (portOf s port (semArgs slot ctx sem)) = (u, st)) :
    exec (.cancel who port slot ctx sem) s = .next (vAnswer u port slot st) :=
  (portOp_plain (op := 3) hs hc rfl (by decide)).done hm hb hr hv ha (.inr ho) h

theorem cancel_answered {sem : Nat} {f : VFetch} (hsem : sem < 65536) (hst : v.state = slFetching)
    (hfind : s.vat.fetches.find? (fun f => f.slot == slot) = some f) :
    PortAnswered s (.cancel who port slot ctx sem) port vOk (fun u => u.mem = s.mem
      ∧ u.vat.fetches = s.vat.fetches.filter (fun g => g.slot != slot)
      ∧ ∃ j : VJob, u.vat.jobs = s.vat.jobs ++ [j] ∧ j.kind = .cancel ∧ j.slot = slot ∧ j.bytes = f.data.length) := by
  obtain ⟨u, hx, hmem, hf, hj⟩ := vatCancel_ok (s := ported s port (semArgs slot ctx sem)) (n := port) (v := v)
    (a := portOf s port (semArgs slot ctx sem)) hst (bits_semArg hsem) hfind
  refine .of_answer (cancel_done hm hb hr hs hc hv ha ho hx) ⟨?_, ?_, _, vAnswer_parts.2.2.1.trans hj, rfl, rfl, rfl⟩
  · rw [vAnswer_parts.1, hmem, ported_parts.1]
  · rw [vAnswer_parts.2.1, hf, ported_parts.2.1]

/-- The arguments of the operations on an expert. -/
def expertArgs (slot ctx idx layer loc : Nat) : List Nat :=
  [vArg0 slot ctx, idx % 256 + 256 * (layer % 256) + 65536 * (loc % 64), 0, 0, 65536 * 0xFFFF]

section Expert

variable {idx layer loc : Nat} (hi : idx < 256) (hl : layer < 256) (hloc : loc < 64) (hst : v.state = slResident ∨ v.state = slStaged)
  (hp : vatPtn s port ctx = some p)
include hi hl hloc hst hp

theorem claimExpert_answered (he : expEntry s p layer idx = .ok none) (hk : v.kind = 2) (hx : slotHasExpert s v layer loc = true) :
    PortAnswered s (.claimExpert who port slot ctx idx layer loc) port vOk (fun u => u.mem = (putExp s p layer idx (some (loc, slot))).mem) := by
  refine .of_answer ((portOp_expert (op := 4) hs hc rfl (.inl rfl)).done hm hb hr hv ha (.inr ho)
    (vatClaimExpert_ok (s := ported s port (expertArgs slot ctx idx layer loc)) (a := portOf s port (expertArgs slot ctx idx layer loc))
      (bits_expertArg hi hl hloc) hst hp he hk hx)) ?_
  rw [vAnswer_parts.1, mem_putExp]

theorem releaseExpert_answered (he : expEntry s p layer idx = .ok (some (loc, slot))) :
    PortAnswered s (.releaseExpert who port slot ctx idx layer loc) port vOk (fun u => u.mem = (putExp s p layer idx none).mem) := by
  refine .of_answer ((portOp_expert (op := 5) hs hc rfl (.inr rfl)).done hm hb hr hv ha (.inr ho)
    (vatReleaseExpert_ok (s := ported s port (expertArgs slot ctx idx layer loc)) (a := portOf s port (expertArgs slot ctx idx layer loc))
      (bits_expertArg hi hl hloc) hst hp he)) ?_
  rw [vAnswer_parts.1, mem_putExp]

end Expert

/-- The arguments of STAGE. -/
def stageArgs (slot ctx stg addr sem : Nat) : List Nat :=
  [vArg0 slot ctx, stg % 4096, lo32 addr, hi32 addr, 65536 * (sem % 65536)]

theorem stage_answered {stg addr sem : Nat} (hstg : stg < 4096) (haddr : addr < 2 ^ 64) (hsem : sem < 65536) (hst : v.state = slResident)
    (hp : vatPtn s port ctx = some p) (hmax : stg < adaptMax s p) (hin : inStaging s p addr (slotImg s v).len = true)
    (h0 : (parseStg (readStg s p stg)).state = 0) : PortAnswered s (.stage who port slot ctx stg addr sem) port vOk (fun u =>
      u.mem = (writeStg s p stg (pendingStg s v slot addr)).mem
      ∧ ∃ j : VJob, u.vat.jobs = s.vat.jobs ++ [j] ∧ j.kind = .stage ∧ j.slot = slot ∧ j.sem = sem ∧ j.waiting = s.pwr.hold
        ∧ j.stg = stg ∧ j.ptn = p ∧ j.addr = addr) := by
  have hx := vatStage_ok (s := ported s port (stageArgs slot ctx stg addr sem)) (n := port) (slot := slot) (ctx := ctx) (v := v)
    (a := portOf s port (stageArgs slot ctx stg addr sem)) (bits_low (w := 12) hstg) (lo32_hi32 haddr) (bits_semArg hsem) hst hp hmax hin h0
  refine .of_answer ((portOp_stage hs hc).done hm hb hr hv ha (.inr ho) hx)
    ⟨?_, _, vAnswer_parts.2.2.1.trans (vatJob_jobs (s := ported s port _) writeStg_parts.1), rfl, rfl, rfl, rfl, rfl, rfl, rfl⟩
  rw [vAnswer_parts.1]
  exact mem_writeStg

theorem unstage_done {sem st : Nat} (h : vatUnstage (ported s port (semArgs slot ctx sem)) port slot v (portOf s port (semArgs slot ctx sem)) = (u, st)) :
    exec (.unstage who port slot ctx sem) s = .next (vAnswer u port slot st) :=
  (portOp_plain (op := 7) hs hc rfl (by decide)).done hm hb hr hv ha (.inr ho) h

theorem unstage_answered {sem : Nat} (hsem : sem < 65536) (hst : v.state = slStaged) :
    PortAnswered s (.unstage who port slot ctx sem) port vOk (fun u => u.mem = s.mem
      ∧ ∃ j : VJob, u.vat.jobs = s.vat.jobs ++ [j] ∧ j.kind = .unstage ∧ j.slot = slot ∧ j.waiting = unstageWaits s v
        ∧ j.stg = v.stg ∧ j.ptn = v.stgPtn ∧ j.addr = v.stage) :=
  .of_answer (unstage_done hm hb hr hs hc hv ha ho (vatUnstage_ok (bits_semArg hsem) hst))
    ⟨rfl, _, rfl, rfl, rfl, unstageWaits_withPorts, rfl, rfl, rfl⟩

theorem evict_done {sem st : Nat} (hsem : sem < 65536) (h : vatEvict (ported s port (semArgs slot ctx sem)) port slot v sem = (u, st)) :
    exec (.evict who port slot ctx sem) s = .next (vAnswer u port slot st) := by
  refine (portOp_plain (op := 8) hs hc rfl (by decide)).done hm hb hr hv ha (.inr ho) ?_
  have hx : bits (portArg (portOf s port (semArgs slot ctx sem)) 4) 16 16 = sem := bits_semArg hsem
  change vatEvict (ported s port (semArgs slot ctx sem)) port slot v (bits (portArg (portOf s port (semArgs slot ctx sem)) 4) 16 16) = (u, st)
  rw [hx, h]

theorem evict_answered {sem : Nat} (hsem : sem < 65536) (hst : v.state = slClaimed ∨ v.state = slResident) (hex : expertsOf s slot = []) :
    PortAnswered s (.evict who port slot ctx sem) port vOk (fun u =>
      u.mem = (putSlot (putId s v.adapter none) slot { v with state := slEvicting }).mem
      ∧ ∃ j : VJob, u.vat.jobs = s.vat.jobs ++ [j] ∧ j.kind = .evict ∧ j.slot = slot ∧ j.bytes = v.len ∧ j.sem = sem) := by
  refine .of_answer (evict_done hm hb hr hs hc hv ha ho hsem (vatEvict_ok hst (expertsOf_withPorts.trans hex))) 
    ⟨?_, _, vAnswer_parts.2.2.1.trans (vatJob_jobs (s := ported s port _) (putSlot_vat.trans putId_vat)), rfl, rfl, rfl, rfl⟩
  rw [vAnswer_parts.1]
  exact mem_putSlot_putId

end Owner

/-- An operation on a slot of another owner. -/
theorem foreign_refused (ho : v.owner ≠ mkTag ctx) (h : c ∈ [Instr.fetch who port slot ctx 0, .cancel who port slot ctx 0,
    .claimExpert who port slot ctx 0 0 0, .releaseExpert who port slot ctx 0 0 0, .stage who port slot ctx 0 0 0,
    .unstage who port slot ctx 0, .evict who port slot ctx 0]) :
    ∃ as, exec c s = .next (vAnswer (ported s port as) port slot vForeign) := by
  simp only [List.mem_cons, List.not_mem_nil, or_false] at h
  rcases h with rfl | rfl | rfl | rfl | rfl | rfl | rfl
  · exact ⟨_, (portOp_plain (op := 2) hs hc rfl (by decide)).foreignOwner hm hb hr hv ha (by decide) ho⟩
  · exact ⟨_, (portOp_plain (op := 3) hs hc rfl (by decide)).foreignOwner hm hb hr hv ha (by decide) ho⟩
  · exact ⟨_, (portOp_expert (op := 4) hs hc rfl (.inl rfl)).foreignOwner hm hb hr hv ha (by decide) ho⟩
  · exact ⟨_, (portOp_expert (op := 5) hs hc rfl (.inr rfl)).foreignOwner hm hb hr hv ha (by decide) ho⟩
  · exact ⟨_, (portOp_stage hs hc).foreignOwner hm hb hr hv ha (by decide) ho⟩
  · exact ⟨_, (portOp_plain (op := 7) hs hc rfl (by decide)).foreignOwner hm hb hr hv ha (by decide) ho⟩
  · exact ⟨_, (portOp_plain (op := 8) hs hc rfl (by decide)).foreignOwner hm hb hr hv ha (by decide) ho⟩

end Record

/-- A FETCH of a record that fails its check. -/
theorem fetch_badRecord (hv : slotAt? s slot = none) : exec (.fetch who port slot ctx 0) s =
    .next (vAnswer (vatBad (ported s port (semArgs slot ctx 0)) (vatSlot s slot)) port slot vBadState) :=
  (portOp_plain (op := 2) hs hc rfl (by decide)).badRecord hm hb hr hv (by decide)

end Clauses

theorem vatBad_parts : (vatBad s la).mem = s.mem ∧ (vatBad s la).vat = s.vat ∧ (vatBad s la).int.lastCode = FaultCode.vatDirectory.code := by
  refine ⟨?_, ?_, (raise_spec ..).1⟩ <;> rw [vatBad, raise_parts]

/-- Settles O38: each operation by its row, its record and what it then does; the refusals by the check that they fail. -/
theorem vatOperations : Obligations.VatOperations := by
  unfold Obligations.VatOperations
  refine ⟨fun s who port slot ctx v hm hb hr hs hc hv ha => ⟨fun id addr units => claimSlot_answered hm hb hr hs hc hv ha, fun ho =>
      ⟨fun sem => fetch_answered hm hb hr hs hc hv ha ho, fun sem f => cancel_answered hm hb hr hs hc hv ha ho,
        fun idx layer loc p hi hl hloc hst hp => ⟨claimExpert_answered hm hb hr hs hc hv ha ho hi hl hloc hst hp,
          releaseExpert_answered hm hb hr hs hc hv ha ho hi hl hloc hst hp⟩,
        fun stg addr sem p => stage_answered hm hb hr hs hc hv ha ho, fun sem => unstage_answered hm hb hr hs hc hv ha ho,
        fun sem => evict_answered hm hb hr hs hc hv ha ho⟩⟩, fun s who port slot ctx hm hb hr hs hc => ?_⟩
  dsimp only
  refine ⟨fun v hv ha => ⟨fun hf => .refused (claimSlot_busy hm hb hr hs hc hv ha hf),
      fun id k hid hf he => .refused (claimSlot_live hm hb hr hs hc hv ha hid hf he),
      fun id addr units hid haddr hun hf he hbad => .refused (claimSlot_badRange hm hb hr hs hc hv ha hid haddr hun hf he hbad),
      fun ho c hcm => ?_, fun ho => ⟨fun hst => .refused (fetch_done hm hb hr hs hc hv ha ho (vatFetch_bad hst)),
        fun hst => .refused (cancel_done hm hb hr hs hc hv ha ho (vatCancel_bad hst)),
        fun hst => .refused (unstage_done hm hb hr hs hc hv ha ho (vatUnstage_bad hst)),
        fun h1 h2 => .refused (evict_done hm hb hr hs hc hv ha ho (by decide) (vatEvict_bad h1 h2)),
        fun hst hex => .refused (evict_done hm hb hr hs hc hv ha ho (by decide) (vatEvict_inUse (.inr hst) hex))⟩⟩,
    fun hp ha hv => ⟨.refused ((portOp_plain (op := 2) hs hc rfl (by decide)).foreignCtx hm hb hr hv hp ha),
      .refused ((portOp_claimSlot hs hc).foreignCtx hm hb hr hv hp ha)⟩, fun hv => ⟨?_, ?_⟩⟩
  · obtain ⟨as, hx⟩ := foreign_refused hm hb hr hs hc hv ha ho hcm
    exact .refused hx
  · refine .of_answer (fetch_badRecord hm hb hr hs hc hv) ?_
    rw [vAnswer_parts.1, vAnswer_parts.2.1, vAnswer_parts.2.2.1, vatBad_parts.1, vatBad_parts.2.1]
    exact ⟨rfl, rfl, rfl⟩
  · refine .of_next (fetch_badRecord hm hb hr hs hc hv) ?_
    rw [vAnswer_parts.2.2.2]
    exact vatBad_parts.2.2

end Sys2Proof.Machine
end


section
/-! SUPPORT and proof of O39. The end of Vat copies, scrubs and fetch deadlines. -/

namespace Sys2Proof.Machine

variable {s u : State} {slot : Nat} {v : VSlot} {j : VJob}

/-! ### What the end of a job leaves (R155, R165) -/

theorem vatSem_parts {port sem : Nat} : (vatSem s port sem).mem = s.mem ∧ (vatSem s port sem).vat = s.vat := by
  have h : Kept [.mc, .core, .int, .rc, .ptn, .ctx, .i3c] s (vatSem s port sem) := vatSem_kept (Kept.refl _ s) (Within.refl _)
  exact ⟨h.rest .mem (by decide), h.rest .vat (by decide)⟩

theorem dropJob_jobs : (dropJob s j).vat.jobs = eraseFirst (· == j) s.vat.jobs := rfl

theorem copyImg_vat {o a b n : Nat} : (copyImg s o a b n).vat = s.vat := writeUnder_vat.1

theorem readStg_dropJob {p k : Nat} : readStg (dropJob s j) p k = readStg s p k := rfl

/-- A job of a slot that runs is of that slot and of the kind looked for. -/
theorem jobOf_some {f : VJobKind → Bool} (h : jobOf s slot f = some j) : j.slot = slot ∧ f j.kind = true := by
  have hp := List.find?_some h
  simp only [Bool.and_eq_true, beq_iff_eq] at hp
  exact ⟨hp.1.1, hp.1.2⟩

/-! ### Copies (R165) -/

/-- The end of a slot's copy. -/
def copyEnd (s : State) (slot : Nat) (v : VSlot) (j : VJob) : State :=
  if j.kind = .stage then stageEnd s slot v j else unstageEnd s slot v j

theorem copyEnd_vat : (copyEnd s slot v j).vat = s.vat := by
  unfold copyEnd stageEnd unstageEnd
  dsimp only
  split <;> split <;> simp only [putSlot_vat, writeStg_parts.1, copyImg_vat]

section Copy

variable (hj : jobOf s slot (fun k => k == .stage || k == .unstage) = some j)
include hj

theorem exec_vatCopyDone (hv : slotAt? s slot = some v) :
    exec (.vatCopyDone slot) s = .next (vatSem (copyEnd (dropJob s j) slot v j) j.port j.sem) := by
  have hd : slotAt? (dropJob s j) slot = some v := hv
  refine congrArg Host.Outcome.next ?_
  rw [hj]
  dsimp only
  rw [hd]
  rfl

theorem exec_vatCopyDone_bad (hv : slotAt? s slot = none) :
    exec (.vatCopyDone slot) s = .next (vatSem (vatBad (dropJob s j) (vatSlot (dropJob s j) slot)) j.port j.sem) := by
  have hd : slotAt? (dropJob s j) slot = none := hv
  refine congrArg Host.Outcome.next ?_
  rw [hj]
  dsimp only
  rw [hd]

end Copy

theorem copyEnd_staged (hk : j.kind = .stage) (hs : v.state = slResident) (hg : (parseStg (readStg s j.ptn j.stg)).gen = v.gen) :
    copyEnd s slot v j = putSlot (writeStg (copyImg s v.owner v.data j.addr (parseStg (readStg s j.ptn j.stg)).len) j.ptn j.stg
      { parseStg (readStg s j.ptn j.stg) with state := 2 }) slot
      { v with state := slStaged, stage := j.addr, stg := j.stg, stgPtn := j.ptn, last := vOk } :=
  (if_pos hk).trans (if_pos ⟨hs, hg⟩)

theorem copyEnd_stage_left (hk : j.kind = .stage) (h : v.state ≠ slResident ∨ (parseStg (readStg s j.ptn j.stg)).gen ≠ v.gen) :
    copyEnd s slot v j = putSlot (writeStg s j.ptn j.stg {}) slot { v with last := vBadState } :=
  (if_pos hk).trans (if_neg fun hc => h.elim (· hc.1) (· hc.2))

theorem copyEnd_unstaged (hk : j.kind = .unstage) (h : v.state = slStaged ∧ v.stg = j.stg ∧ v.stgPtn = j.ptn) :
    copyEnd s slot v j = putSlot (writeStg (copyImg s v.owner j.addr v.data (parseStg (readStg s j.ptn j.stg)).len) j.ptn j.stg {}) slot
      { v with state := slResident, stage := 0, stg := 0, stgPtn := 0, last := vOk } :=
  (if_neg (by simp [hk])).trans (if_pos h)

theorem copyEnd_unstage_left (hk : j.kind = .unstage) (h : ¬(v.state = slStaged ∧ v.stg = j.stg ∧ v.stgPtn = j.ptn)) :
    copyEnd s slot v j = putSlot s slot { v with last := vBadState } :=
  (if_neg (by simp [hk])).trans (if_neg h)

/-! ### Scrubs (R161-R163) -/

/-- The CANCELs that wait for a slot's scrub. -/
def cancels (s : State) (slot : Nat) : List VJob := s.vat.jobs.filter (fun k => k.slot == slot && k.kind == .cancel)

theorem mem_cancels {k : VJob} : k ∈ cancels s slot ↔ k ∈ s.vat.jobs ∧ k.slot = slot ∧ k.kind = .cancel := by
  simp [cancels, List.mem_filter]

/-- The slot's range scrubbed and its record as the job leaves it. -/
def scrubEnd (s : State) (slot : Nat) (v : VSlot) (j : VJob) : State :=
  putSlot (scrubRange s v.data (min j.bytes v.len)) slot (scrubbed v j.kind)

theorem scrubRange_vat {a n : Nat} : (scrubRange s a n).vat = s.vat := by
  unfold scrubRange
  split <;> rfl

theorem scrubEnd_vat : (scrubEnd s slot v j).vat = s.vat := putSlot_vat.trans scrubRange_vat

theorem exec_vatScrubDone (hj : jobOf s slot (fun k => k == .evict || k == .cancel || k == .failed || k == .repair) = some j)
    (hv : slotAt? s slot = some v) (hk : j.kind ≠ .repair) : exec (.vatScrubDone slot) s =
      .next (forEach (cancels (dropJob s j) slot) (fun s k => vatSem (dropJob s k) k.port k.sem)
        (vatSem (if (cancels (dropJob s j) slot).isEmpty then scrubEnd (dropJob s j) slot v j
          else putSlot (scrubEnd (dropJob s j) slot v j) slot (scrubbed v .cancel)) j.port j.sem)) := by
  have hd : slotAt? (dropJob s j) j.slot = some v := (jobOf_some hj).1.symm ▸ hv
  refine congrArg Host.Outcome.next ?_
  rw [hj]
  dsimp only
  unfold scrubDone
  dsimp only
  rw [hd, (jobOf_some hj).1]
  rcases j with ⟨kind, _, _, _, _, _, _, _, _⟩
  cases kind <;> first | rfl | exact absurd rfl hk

section Scrub

variable (hj : jobOf s slot (fun k => k == .evict || k == .cancel || k == .failed || k == .repair) = some j)
  (hv : slotAt? s slot = some v) (hk : j.kind ≠ .repair)
include hj hv hk

theorem exec_vatScrubDone_alone (h : ∀ k ∈ (dropJob s j).vat.jobs, ¬(k.slot = slot ∧ k.kind = .cancel)) :
    exec (.vatScrubDone slot) s = .next (vatSem (scrubEnd (dropJob s j) slot v j) j.port j.sem) := by
  have he : cancels (dropJob s j) slot = [] := List.eq_nil_iff_forall_not_mem.2 fun k hk => h k (mem_cancels.1 hk).1 (mem_cancels.1 hk).2
  rw [exec_vatScrubDone hj hv hk, he]
  rfl

theorem exec_vatScrubDone_cancels {k : VJob} (hm : k ∈ (dropJob s j).vat.jobs) (h : k.slot = slot ∧ k.kind = .cancel) :
    exec (.vatScrubDone slot) s = .next (forEach (cancels (dropJob s j) slot) (fun s k => vatSem (dropJob s k) k.port k.sem)
      (vatSem (putSlot (scrubEnd (dropJob s j) slot v j) slot (scrubbed v .cancel)) j.port j.sem)) := by
  have he : ¬(cancels (dropJob s j) slot).isEmpty = true := fun he => by
    have := mem_cancels.2 ⟨hm, h⟩
    rw [List.isEmpty_iff.1 he] at this
    cases this
  rw [exec_vatScrubDone hj hv hk, if_neg he]

end Scrub

/-- Dropping one after the other the jobs of a kind leaves the jobs of the others. -/
theorem foldl_eraseFirst_filter {p : VJob → Bool} {l : List VJob} :
    (l.filter p).foldl (fun l k => eraseFirst (· == k) l) l = l.filter (fun k => !p k) := by
  have keep : ∀ (ms l : List VJob) (x : VJob), x ∉ ms →
      ms.foldl (fun l k => eraseFirst (· == k) l) (x :: l) = x :: ms.foldl (fun l k => eraseFirst (· == k) l) l := by
    intro ms
    induction ms with
    | nil => exact fun _ _ _ => rfl
    | cons m ms ih =>
      intro l x hx
      obtain ⟨hm, hms⟩ := not_or.1 (mt List.mem_cons.2 hx)
      have he : eraseFirst (· == m) (x :: l) = x :: eraseFirst (· == m) l := if_neg (by simpa using hm)
      rw [List.foldl_cons, List.foldl_cons, he, ih _ _ hms]
  induction l with
  | nil => rfl
  | cons x xs ih =>
    cases hx : p x with
    | true =>
      have he : eraseFirst (· == x) (x :: xs) = xs := if_pos (by simp)
      rw [List.filter_cons_of_pos hx, List.foldl_cons, he, ih, List.filter_cons_of_neg (by simp [hx])]
    | false =>
      rw [List.filter_cons_of_neg (by simp [hx]), List.filter_cons_of_pos (by simp [hx]),
        keep _ _ _ (fun h => by simp [List.mem_filter, hx] at h), ih]

theorem forEach_dropped {ks : List VJob} : (forEach ks (fun s k => vatSem (dropJob s k) k.port k.sem) s).vat.jobs =
      ks.foldl (fun l k => eraseFirst (· == k) l) s.vat.jobs
    ∧ (forEach ks (fun s k => vatSem (dropJob s k) k.port k.sem) s).mem = s.mem := by
  induction ks generalizing s with
  | nil => exact ⟨rfl, rfl⟩
  | cons k ks ih =>
    rw [forEach_cons, ih.1, ih.2, vatSem_parts.1, vatSem_parts.2]
    exact ⟨rfl, rfl⟩

/-! ### Fetches (R161) -/

section Fetch

variable {f : VFetch} (hf : s.vat.fetches.find? (fun f => f.slot == slot) = some f)
include hf

theorem exec_fetchDeadline : exec (.fetchDeadline slot) s =
    .next (if judgeNow s (fetchDeadline s f) = .timeout then fetchFail s f else s) := by
  refine congrArg Host.Outcome.next ?_
  rw [hf]

theorem fetchFail_spec : (fetchFail s f).vat.fetches = s.vat.fetches.filter (fun g => g.slot != slot)
    ∧ (fetchFail s f).int.lastCode = FaultCode.adapterFetch.code ∧ (fetchFail s f).mem = s.mem
    ∧ ∃ k : VJob, (fetchFail s f).vat.jobs = s.vat.jobs ++ [k] ∧ k.kind = .failed ∧ k.slot = slot := by
  have hslot : f.slot = slot := by simpa using List.find?_some hf
  have hr : ∀ (w : State) a, (raise w .adapterFetch a).vat = w.vat ∧ (raise w .adapterFetch a).mem = w.mem := fun w a => by
    rw [raise_parts]
    exact ⟨rfl, rfl⟩
  have hl : ∀ (w : State) a, (raise w .adapterFetch a).int.lastCode = FaultCode.adapterFetch.code := fun w a => (raise_spec w _ a).1
  unfold fetchFail
  dsimp only [vatJob]
  rw [(hr _ _).1, (hr _ _).2, hl, hslot]
  exact ⟨rfl, rfl, rfl, _, rfl, rfl, rfl⟩

end Fetch

/-- Settles O39: a copy's end by its kind and what its slot has become, a scrub's end by the CANCELs that wait for it. -/
theorem vatJobsEnd : Obligations.VatJobsEnd := by
  unfold Obligations.VatJobsEnd
  refine ⟨fun s slot j hv hj => .of_next (exec_vatCopyDone_bad hj hv) ?_, fun s slot v j hv => ?_⟩
  · rw [vatSem_parts.1, vatSem_parts.2, vatBad_parts.1, vatBad_parts.2.1]
    exact ⟨rfl, rfl⟩
  dsimp only
  refine ⟨fun hj => .of_next (exec_vatCopyDone hj hv) ⟨?_, fun hk hs hg => ?_, fun hk h => ?_, fun hk h => ?_, fun hk h => ?_⟩,
    fun hj => ⟨fun hk ha => ?_, fun hk ha => ?_, fun hk ha => ?_, fun hk k hm hw => ?_⟩, fun f hf => ⟨fun ht => ?_, fun ht => ?_⟩⟩
  · rw [vatSem_parts.2, copyEnd_vat, dropJob_jobs]
  · rw [vatSem_parts.1, copyEnd_staged (s := dropJob s j) hk hs (by rw [readStg_dropJob]; exact hg), readStg_dropJob]
  · rw [vatSem_parts.1, copyEnd_stage_left (s := dropJob s j) hk (by rw [readStg_dropJob]; exact h)]
  · rw [vatSem_parts.1, copyEnd_unstaged (s := dropJob s j) hk h, readStg_dropJob]
  · rw [vatSem_parts.1, copyEnd_unstage_left hk h]
  · refine .of_next (exec_vatScrubDone_alone hj hv (by simp [hk]) ha) ?_
    rw [vatSem_parts.1, vatSem_parts.2, scrubEnd_vat, scrubEnd, hk]
    exact ⟨rfl, rfl⟩
  · refine .of_next (exec_vatScrubDone_alone hj hv (by simp [hk]) ha) ?_
    rw [vatSem_parts.1, vatSem_parts.2, scrubEnd_vat, scrubEnd, hk]
    exact ⟨rfl, rfl⟩
  · refine .of_next (exec_vatScrubDone_alone hj hv (by simp [hk]) ha) ?_
    rw [vatSem_parts.1, vatSem_parts.2, scrubEnd_vat, scrubEnd, hk]
    exact ⟨rfl, rfl⟩
  · refine .of_next (exec_vatScrubDone_cancels hj hv (by simp [hk]) hm hw) ⟨fun i hi hw => ?_, ?_⟩
    · rw [forEach_dropped.1, vatSem_parts.2, putSlot_vat, scrubEnd_vat, cancels, foldl_eraseFirst_filter] at hi
      have hn := (List.mem_filter.1 hi).2
      simp [hw] at hn
    · rw [forEach_dropped.2, vatSem_parts.1, scrubEnd, hk]
      rfl
  · refine .of_eq (exec_fetchDeadline hf) (if_pos ht) (fetchFail_spec hf)
  · rw [exec_fetchDeadline hf, if_neg ht]

end Sys2Proof.Machine
end


section
/-! SUPPORT and refutation of O40. A Vat window that lies in the upper half of tier 2 is unavailable while X-die 1 is in reset (R35,
R342): the channels keep what they hold, so that a record written then does not read back. -/

namespace Sys2Proof.Machine

/-- X-die 1 in reset, and the Vat's slot records at the beginning of slice 8 of tier 2. -/
def vatShut : State := { State.reset with
  mod.running := [(3, 5)]
  vat.base := 0x2000000000 + 2 ^ 43 - 0x04000000 }

/-- Where slot 0 has its record. -/
def vatShutPlace : Place := (.tier2, 2 ^ 39)

theorem placeOf_vatShut : placeOf none (vatSlot vatShut 0) = some vatShutPlace := by decide +kernel

theorem shutOff_vatShut : shutOff vatShut (addrOf vatShutPlace) = true := by decide +kernel

theorem meetsRind_vatShut {n : Nat} : meetsRind vatShut vatShutPlace n = false := rfl

theorem writePart_shutOff {s : State} {key bs : List Byte} {a : Nat} (h : shutOff s a = true) : writePart s key a bs = s :=
  if_pos (.inr h)

/-- The write of a record there is lost. -/
theorem putSlot_vatShut {v : VSlot} : putSlot vatShut 0 v = vatShut := by
  unfold putSlot writeUnder
  rw [placeOf_vatShut]
  dsimp only
  rw [meetsRind_vatShut, if_neg Bool.false_ne_true]
  exact (if_pos rfl).trans (writePart_shutOff shutOff_vatShut)

/-- Refutes O40: two records written to the same slot while its channel is unavailable cannot both read back. -/
theorem not_vatRecordsReadBack : ¬ Obligations.VatRecordsReadBack := by
  unfold Obligations.VatRecordsReadBack
  intro h
  have readBack : ∀ g, g < 256 → slotAt? vatShut 0 = some { gen := g } := fun g hg => by
    have hr : slotAt? (putSlot vatShut 0 { gen := g }) 0 = some { gen := g } := by
      refine h vatShut 0 { gen := g } vatShutPlace placeOf_vatShut meetsRind_vatShut rfl rfl ?_ hg ?_ ?_ ?_ ?_ ?_ ?_ ?_ ?_ ?_ ?_ ?_ ?_ ?_ <;>
        simp
    rwa [putSlot_vatShut] at hr
  have h01 := Option.some.inj ((readBack 0 (by decide)).symm.trans (readBack 1 (by decide)))
  exact absurd (congrArg VSlot.gen h01) (by decide)

end Sys2Proof.Machine
end


section
/-! SUPPORT. What grants, increments and accesses to memory leave of a core: all but its threads and its tag counters. -/

namespace Sys2Proof.Machine

variable {s u v : State} {n t i p : Nat}

/-- A core without its threads and the counters of its tag mismatches (R348, R349). -/
def coreShell (c : Core) : Core := { c with thr := [], tagW := 0, tagR := 0 }

/-- Every core is as before but for its threads and its tag counters. -/
def CoresKept (s u : State) : Prop := ∀ n, coreShell (getCore u n) = coreShell (getCore s n)

theorem CoresKept.refl (s : State) : CoresKept s s := fun _ => rfl

theorem CoresKept.trans (h : CoresKept s u) (h' : CoresKept u v) : CoresKept s v := fun n => (h' n).trans (h n)

theorem CoresKept.of_core (h : u.core = s.core) : CoresKept s u := fun n => by rw [getCore_of_core h]

theorem CoresKept.of_modCore {f : Core → Core} (hf : ∀ c, coreShell (f c) = coreShell c) : CoresKept s (modCore s n f) := fun m => by
  rw [getCore_modCore_ite]
  split
  · next h => rw [hf, h]
  · rfl

/-- What a core's shell holds is the same. -/
theorem CoresKept.proj (h : CoresKept s u) {α : Type} (π : Core → α) (hπ : ∀ c, π (coreShell c) = π c) (n : Nat) :
    π (getCore u n) = π (getCore s n) := by rw [← hπ, h n, hπ]

theorem coresKept_forEach {α : Type} {f : State → α → State} (h : ∀ u x, CoresKept u (f u x)) {xs : List α} : CoresKept s (forEach xs f s) := by
  induction xs generalizing s with
  | nil => exact .refl s
  | cons x xs ih => exact (h s x).trans ih

/-! ### Answers, grants and increments (R297, R298, R300) -/

theorem coresKept_modThr {f : Thr → Thr} : CoresKept s (modThr s n t f) := .of_modCore fun _ => rfl

theorem coresKept_raise {c : FaultCode} {a : FaultAt} : CoresKept s (raise s c a) := .of_core (raise_core ..)

theorem coresKept_syncRoute {ty dst body : Nat} : CoresKept s (syncRoute s ty dst body) := by
  unfold syncRoute
  split
  · exact .refl s
  · exact coresKept_raise

theorem coresKept_answer {t : Token} {st fl va : Nat} : CoresKept s (answer s t st fl va) := by
  unfold answer
  split
  · exact coresKept_modThr
  · exact .refl s
  · exact coresKept_syncRoute

theorem coresKept_unreserve {t : Token} : CoresKept s (unreserve s t) :=
  .of_core ((unreserve_kept (Kept.refl [.ctx] s) (Within.refl _)).rest .core (by decide))

theorem coresKept_endWait {w : WaitEnt} {st : Nat} : CoresKept s (endWait s w st) := by
  have h0 : CoresKept s { s with rc.waits := eraseFirst (· == w) s.rc.waits } := .of_core rfl
  have h1 := h0.trans (coresKept_unreserve (t := w.tok))
  unfold endWait
  dsimp only
  split
  · exact h1.trans coresKept_answer
  · exact h1.trans coresKept_answer

theorem coresKept_grantTaken {w : WaitEnt} : CoresKept s (grantTaken s w) := by
  unfold grantTaken
  split
  · dsimp only
    split
    · exact .of_core rfl
    · exact .of_core rfl
  · exact .refl s

theorem coresKept_grantTold {w : WaitEnt} : CoresKept s (grantTold s w) := by
  have h0 : CoresKept s { s with rc.waits := eraseFirst (· == w) s.rc.waits } := .of_core rfl
  unfold grantTold
  split
  · exact .of_core rfl
  · dsimp only
    split
    · exact h0.trans coresKept_answer
    · exact h0.trans coresKept_answer

theorem coresKept_grant {w : WaitEnt} : CoresKept s (grant s w) := by
  rw [grant_eq]
  split
  · exact coresKept_endWait
  · exact coresKept_grantTaken.trans coresKept_grantTold

theorem coresKept_grantGo {k : Nat} : CoresKept s (grantGo k s i) := by
  induction k generalizing s with
  | zero => exact .refl s
  | succ k ih =>
    unfold grantGo
    split
    · exact coresKept_grant.trans ih
    · exact .refl s

theorem coresKept_grantSem : CoresKept s (grantSem s i) := coresKept_grantGo

theorem coresKept_addSem {k : Nat} : CoresKept s (addSem s i k) :=
  .of_core ((addSem_kept (Kept.refl [.rc, .ptn] s) (Within.refl _)).rest .core (by decide))

theorem coresKept_engineAdd {flag : DoneFlag} : CoresKept s (engineAdd s p i flag) := by
  unfold engineAdd
  dsimp only
  split
  · exact CoresKept.trans (u := modSem s i _) (.of_core rfl) (coresKept_addSem.trans coresKept_grantSem)
  · exact coresKept_raise

theorem coresKept_doneAdd {flag : DoneFlag} : CoresKept s (doneAdd s p i flag) := by
  unfold doneAdd
  split
  · exact .refl s
  · exact coresKept_engineAdd

/-! ### Accesses to memory (R345, R348, R349, R528) -/

theorem coresKept_readErrs {a : Place} {k : Nat} {b : Bool} : CoresKept s (readErrs s a k b).1 :=
  .of_core ((readErrs_kept (Kept.refl [.memErr, .mc, .int, .ptn, .ctx, .i3c] s) (Within.refl _)).rest .core (by decide))

theorem coresKept_readAs {w : Issuer} {a : Place} {k : Nat} : CoresKept s (readAs s w a k).st := by
  unfold readAs
  dsimp only
  split
  · split
    · exact coresKept_readErrs
    · dsimp only
      refine coresKept_readErrs.trans (CoresKept.trans (coresKept_forEach fun _ _ => ?_) (.of_modCore fun _ => ?_))
      · exact .of_core rfl
      · rfl
  · exact coresKept_readErrs

theorem coresKept_writeKey {key : List Byte} {a : Nat} {bs : List Byte} : CoresKept s (writeKey s key a bs) :=
  .of_core ((writeKey_kept (Kept.refl [.mem, .memKey, .memErr, .resv] s) (Within.refl _)).rest .core (by decide))

theorem coresKept_store_modCore {f : Core → Core} {a : Nat} {bs : List Byte} (hf : ∀ c, coreShell (f c) = coreShell c) :
    CoresKept s (store (modCore s n f) a bs) := CoresKept.trans (u := modCore s n f) (.of_modCore hf) (.of_core rfl)

theorem coresKept_writeAs {w : Issuer} {a : Place} {bs : List Byte} : CoresKept s (writeAs s w a bs) := by
  unfold writeAs
  dsimp only
  split
  · exact coresKept_raise
  split
  · refine CoresKept.trans (coresKept_forEach fun _ _ => ?_) (coresKept_store_modCore fun _ => ?_)
    · exact .of_core rfl
    · rfl
  · exact coresKept_writeKey

theorem coresKept_writeUnder {key : List Byte} {a : Nat} {bs : List Byte} : CoresKept s (writeUnder s key a bs) :=
  .of_core ((writeUnder_kept (Kept.refl [.mem, .memKey, .memErr, .resv, .mc, .int, .ptn, .ctx, .i3c] s) (Within.refl _)).rest .core (by decide))

theorem coresKept_xRead {w : Issuer} {x : XPlace} {k : Nat} : CoresKept s (xRead s w x k).1 := by
  unfold xRead
  split
  · exact coresKept_readAs
  · split
    · exact coresKept_readErrs
    · exact .refl s

theorem coresKept_xWrite {w : Issuer} {x : XPlace} {bs : List Byte} : CoresKept s (xWrite s w x bs) := by
  unfold xWrite
  split
  · exact coresKept_writeAs
  · exact coresKept_writeUnder

theorem coresKept_pGet {x : PRun} {a k : Nat} : CoresKept s (pGet s x a k).1 := by
  unfold pGet
  split
  · exact coresKept_readAs
  · exact .refl s

theorem coresKept_pressRind {x : PRun} {a : Nat} : CoresKept s (pressRind s x a) := coresKept_raise

theorem coresKept_pPut {x : PRun} {a : Nat} {bs : List Byte} : CoresKept s (pPut s x a bs) := by
  unfold pPut
  split
  · split
    · exact coresKept_pressRind
    · exact coresKept_writeAs
  · exact .refl s

theorem coresKept_itemGet {x : PRun} {a k : Nat} : CoresKept s (itemGet s x a k).1 := by
  unfold itemGet
  split
  · split
    · exact coresKept_pGet
    · exact .refl s
  · split <;> exact .refl s

theorem coresKept_itemPut {x : PRun} {a : Nat} {bs : List Byte} : CoresKept s (itemPut s x a bs) := by
  unfold itemPut
  split
  · exact coresKept_pPut
  · split
    · split
      · exact coresKept_pressRind
      · exact coresKept_writeUnder
    · exact .refl s

end Sys2Proof.Machine
end


section
/-! SUPPORT. How the transfer engines take an XFER and end it (R456, R459, R474, R631). -/

namespace Sys2Proof.Machine

variable {s t u v w : State} {n op st f : Nat} {e : QEntry} {q : List QEntry} {i : Issuer} {x : Xfer} {fl : DoneFlag} {o : Nat}

/-! ### The end of an XFER -/

/-- A core whose running XFER ends (R474). -/
def endedCore (op st f : Nat) (c : Core) : Core :=
  { c with xferRun := none, xLastOp := op, xFaultValid := c.xFaultValid || st != 0,
           xStatus := if st = 0 then c.xStatus else st, xFault := if st = 0 then c.xFault else f % 4096 }

theorem xferEnd_run (h : (getCore w n).xferRun = some e) : xferEnd w n st f fl =
    doneAdd (modCore w n (endedCore (parseXfer e.desc).op st f)) e.issuer.ptn (parseXfer e.desc).done fl := by
  rw [xferEnd, h]
  rfl

theorem doneAdd_mem {p k : Nat} : (doneAdd w p k fl).mem = w.mem :=
  (doneAdd_kept (Kept.refl [.mc, .core, .int, .rc, .ptn, .ctx, .i3c] w) (Within.refl _)).rest .mem (by decide)

theorem doneAdd_xf {p k : Nat} : (doneAdd w p k fl).xf = w.xf :=
  (doneAdd_kept (Kept.refl [.mc, .core, .int, .rc, .ptn, .ctx, .i3c] w) (Within.refl _)).rest .xf (by decide)

theorem doneAdd_fab {p k : Nat} : (doneAdd w p k fl).fab = w.fab :=
  (doneAdd_kept (Kept.refl [.mc, .core, .int, .rc, .ptn, .ctx, .i3c] w) (Within.refl _)).rest .fab (by decide)

/-- An XFER that the core of `v` runs has ended in `u`, with the memory and the transfers of `w`. -/
structure XferDone (v w u : State) (n : Nat) (e : QEntry) (st f : Nat) : Prop where
  ended : XferEnded v u n (parseXfer e.desc).op st
  queue : (getCore u n).xferQ = (getCore v n).xferQ
  fault : st ≠ 0 → (getCore u n).xFault = f % 4096
  mem : u.mem = w.mem
  xf : u.xf = w.xf
  fab : u.fab = w.fab

theorem xferEnd_spec (hk : CoresKept v w) (h : (getCore v n).xferRun = some e) : XferDone v w (xferEnd w n st f fl) n e st f := by
  have hr : (getCore w n).xferRun = some e := (hk.proj Core.xferRun (fun _ => rfl) n).trans h
  rw [xferEnd_run hr]
  have hd := coresKept_doneAdd (s := modCore w n (endedCore (parseXfer e.desc).op st f)) (p := e.issuer.ptn) (i := (parseXfer e.desc).done)
    (flag := fl)
  have hm := getCore_modCore w n (endedCore (parseXfer e.desc).op st f)
  refine ⟨⟨?_, ?_, ?_, ?_⟩, ?_, fun h0 => ?_, doneAdd_mem, doneAdd_xf, doneAdd_fab⟩
  · rw [hd.proj Core.xferRun (fun _ => rfl), hm]
    rfl
  · rw [hd.proj Core.xLastOp (fun _ => rfl), hm]
    rfl
  · rw [hd.proj Core.xStatus (fun _ => rfl), hm, ← hk.proj Core.xStatus (fun _ => rfl) n]
    rfl
  · rw [hd.proj Core.xFaultValid (fun _ => rfl), hm, ← hk.proj Core.xFaultValid (fun _ => rfl) n]
    rfl
  · rw [hd.proj Core.xferQ (fun _ => rfl), hm, ← hk.proj Core.xferQ (fun _ => rfl) n]
    rfl
  · rw [hd.proj Core.xFault (fun _ => rfl), hm]
    exact if_neg h0

/-- An XFER that ends with a fault raised. -/
theorem xferFail_spec {c : FaultCode} {d : List Byte} (hk : CoresKept v w) (h : (getCore v i.core).xferRun = some e) :
    XferDone v w (xferFail w i st c d) i.core e st c.code := by
  have z := xferEnd_spec (st := st) (f := c.code) (fl := .rej) (hk.trans (coresKept_raise (c := c) (a := coreAt w i d))) h
  exact ⟨z.ended, z.queue, z.fault, z.mem.trans (raise_mem ..), z.xf.trans (by rw [raise_parts]), z.fab.trans (raise_fab ..)⟩

/-! ### The head of a core's queue -/

theorem startXfer_head (h : XferHead s n op e q) : startXfer s n op = runXfer (xferTaken s n e q) e := by
  obtain ⟨hq, hr, hi, ho, hop, -⟩ := h
  rw [startXfer, hq]
  simp [hr, hi, ho, hop, xferTaken]

theorem xferTaken_core : getCore (xferTaken s n e q) n = { getCore s n with xferQ := q, xferRun := some e } := getCore_modCore ..

theorem xferTaken_run (h : XferHead s n op e q) : (getCore (xferTaken s n e q) e.issuer.core).xferRun = some e := by
  obtain ⟨-, -, -, -, -, hn⟩ := h
  rw [hn, xferTaken_core]

theorem XferHead.op_eq (h : XferHead s n op e q) : (parseXfer e.desc).op = op := h.2.2.2.2.1
theorem XferHead.core_eq (h : XferHead s n op e q) : e.issuer.core = n := h.2.2.2.2.2

theorem XferEnded.of_taken (h : XferEnded (xferTaken s n e q) u n op st) : XferEnded s u n op st := by
  unfold XferEnded at h
  rwa [xferTaken_core] at h

/-- What an ended XFER at the head shows beside the state before it was taken. -/
theorem XferDone.of_taken (hh : XferHead s n op e q) (h : XferDone (xferTaken s n e q) w u e.issuer.core e st f) :
    XferEnded s u n op st ∧ (getCore u n).xferQ = q ∧ (st ≠ 0 → (getCore u n).xFault = f % 4096) := by
  obtain ⟨he, hq, hf, -, -, -⟩ := h
  rw [hh.core_eq] at he hq hf
  rw [hh.op_eq] at he
  exact ⟨he.of_taken, hq.trans (by rw [xferTaken_core]), hf⟩

/-! ### The checks of R631 -/

theorem runXfer_badCrc (h : descCrcOk e.desc = false) : runXfer v e = xferFail v e.issuer xsRejected .xferInvalid [] := by
  unfold runXfer
  simp only [h, Bool.not_false, if_true]

theorem runXfer_oldEpoch (h : descCrcOk e.desc = true) (he : (parseXfer e.desc).epoch ≠ (getCore v e.issuer.core).epoch) :
    runXfer v e = xferEnd v e.issuer.core xsAbortReset 0 .abt := by
  unfold runXfer
  simp only [h, Bool.not_true, if_neg Bool.false_ne_true, if_pos he]

theorem runXfer_notOwner (h : descCrcOk e.desc = true) (he : (parseXfer e.desc).epoch = (getCore v e.issuer.core).epoch)
    (ho : xferFieldsOk (parseXfer e.desc) = false ∨ xferOwnerOk v e.issuer (parseXfer e.desc) = false) :
    runXfer v e = xferFail v e.issuer xsRejected .xferInvalid [] := by
  have hb : (!xferFieldsOk (parseXfer e.desc) || !xferOwnerOk v e.issuer (parseXfer e.desc)) = true := by
    rcases ho with ho | ho <;> simp [ho]
  unfold runXfer
  simp only [h, Bool.not_true, if_neg Bool.false_ne_true, ne_eq, he, not_true_eq_false, if_false, hb, if_true]

/-- A sound XFER is its operation (R631). -/
theorem runXfer_copy {p d : XPlace} (h : XferSound v e) (hop : (parseXfer e.desc).op = 3)
    (hp : xPlace v e.issuer .read (parseXfer e.desc).src (parseXfer e.desc).len = some p)
    (hd : xPlace v e.issuer .write (parseXfer e.desc).dst (parseXfer e.desc).len = some d) :
    runXfer v e = runCopy v e.issuer (parseXfer e.desc) p d := by
  obtain ⟨hc, he, hf, ho, ha⟩ := h
  unfold runXfer
  simp [hc, he, hf, ho, ha, hop, hp, hd, xDigest]

theorem runXfer_node {p p2 d : XPlace} (h : XferSound v e) (hop : (parseXfer e.desc).op = 4)
    (hp : xPlace v e.issuer .read (parseXfer e.desc).src (parseXfer e.desc).len = some p)
    (hp2 : xPlace v e.issuer .read (parseXfer e.desc).src2 (parseXfer e.desc).len = some p2)
    (hd : xPlace v e.issuer .write (parseXfer e.desc).dst (parseXfer e.desc).len = some d) :
    runXfer v e = runNodeX v e.issuer (parseXfer e.desc) p p2 d := by
  obtain ⟨hc, he, hf, ho, ha⟩ := h
  unfold runXfer
  simp [hc, he, hf, ho, ha, hop, hp, hp2, hd, xDigest]

theorem runXfer_digest {p d : XPlace} (h : XferSound v e) (hop : (parseXfer e.desc).op = 5)
    (hp : xPlace v e.issuer .read (parseXfer e.desc).src (parseXfer e.desc).len = some p)
    (hd : xPlace v e.issuer .write (parseXfer e.desc).dst 32 = some d) :
    runXfer v e = runDigest v e.issuer (parseXfer e.desc) p d := by
  obtain ⟨hc, he, hf, ho, ha⟩ := h
  unfold runXfer
  simp [hc, he, hf, ho, ha, hop, hp, hd, xDigest]

/-! ### Panels one after another (R455, R461) -/

@[simp] theorem XPlace.add_zero (p : XPlace) : p.add 0 = p := by
  cases p <;> rfl

theorem panelOffs_one (h : x.pb ≠ 0) (hl : x.len = x.panel) : panelOffs x = [0] := by
  have hp : 0 < x.panel := by
    unfold Xfer.panel
    omega
  rw [panelOffs, if_neg h, hl, Nat.div_self hp]
  simp [countFrom]

theorem eachPanel_some {g : State → Nat → State × Option (List Byte)} {b : List Byte} (h : g s o = (t, some b)) :
    eachPanel g s [o] = (t, .ok [b]) := by
  simp only [eachPanel, h]

theorem eachPanel_none {g : State → Nat → State × Option (List Byte)} (h : g s o = (t, none)) : eachPanel g s [o] = (t, .error o) := by
  simp only [eachPanel, h]

/-- NODE works on panels (R454, R461). -/
theorem pb_of_node (h : xferFieldsOk x = true) (hop : x.op = 4) : x.pb ≠ 0 := by
  intro h0
  simp [xferFieldsOk, hop, h0, xNode] at h

/-! ### The operations -/

theorem runCopy_raw {p d : XPlace} {bs : List Byte} (hpb : x.pb = 0) (hr : xRead v i p x.len = (t, bs, false)) :
    runCopy v i x p d = xferEnd (xWrite t i d bs) i.core xsOk 0 .plain := by
  rw [runCopy, if_pos hpb, hr]

theorem runCopy_panel {p d : XPlace} {bs : List Byte} {ue : Bool} (hpb : x.pb ≠ 0) (hl : x.len = x.panel)
    (hr : xRead v i p x.len = (t, bs, ue)) (hc : panelCrcOk bs = true) :
    runCopy v i x p d = xferEnd (xWrite t i d (panelSeal (patch bs 4 (leBytes 2 (mkTag x.ctx))))) i.core xsOk 0 .plain := by
  rw [hl] at hr
  rw [runCopy, if_neg hpb, panelOffs_one hpb hl]
  simp only [eachPanel, XPlace.add_zero, hr, hc, if_true]

theorem runCopy_badPanel {p d : XPlace} {bs : List Byte} {ue : Bool} (hpb : x.pb ≠ 0) (hl : x.len = x.panel)
    (hr : xRead v i p x.len = (t, bs, ue)) (hc : panelCrcOk bs = false) :
    runCopy v i x p d = xferFail t i xsOperand .xferOperand (panelDetail t (x.src + 0)) := by
  rw [hl] at hr
  rw [runCopy, if_neg hpb, panelOffs_one hpb hl]
  simp only [eachPanel, XPlace.add_zero, hr, hc, if_neg Bool.false_ne_true]

/-- A pair of panels that NODE adds (R461). -/
def nodePair (l r : List Byte) : Bool := panelCrcOk l && panelCrcOk r && nodeKey l == nodeKey r

theorem nodePair_iff {l r : List Byte} : nodePair l r = true ↔ panelCrcOk l = true ∧ panelCrcOk r = true ∧ nodeKey l = nodeKey r := by
  simp [nodePair, and_assoc]

theorem runNodeX_panel {p p2 d : XPlace} {t2 : State} {l r : List Byte} {a b : Bool} (hpb : x.pb ≠ 0) (hl : x.len = x.panel)
    (hr : xRead v i p x.len = (t, l, a)) (hr2 : xRead t i p2 x.len = (t2, r, b)) (hc : nodePair l r = true) :
    runNodeX v i x p p2 d = xferEnd (xWrite t2 i d (nodePanel l r)) i.core xsOk 0 .plain := by
  rw [hl] at hr hr2
  unfold nodePair at hc
  rw [runNodeX, panelOffs_one hpb hl]
  simp only [eachPanel, XPlace.add_zero, hr, hr2, hc, if_true]

theorem runNodeX_badPanel {p p2 d : XPlace} {t2 : State} {l r : List Byte} {a b : Bool} (hpb : x.pb ≠ 0) (hl : x.len = x.panel)
    (hr : xRead v i p x.len = (t, l, a)) (hr2 : xRead t i p2 x.len = (t2, r, b)) (hc : nodePair l r = false) :
    runNodeX v i x p p2 d = xferFail t2 i xsOperand .xferOperand (panelDetail t2 (x.src + 0)) := by
  rw [hl] at hr hr2
  unfold nodePair at hc
  rw [runNodeX, panelOffs_one hpb hl]
  simp only [eachPanel, XPlace.add_zero, hr, hr2, hc, if_neg Bool.false_ne_true]

theorem runDigest_raw {p d : XPlace} {bs : List Byte} (hpb : x.pb = 0) (hr : xRead v i p x.len = (t, bs, false)) :
    runDigest v i x p d = xferEnd (digestEnd t i x d (shake256 32 bs)) i.core xsOk 0 .plain := by
  rw [runDigest, hr]
  simp only [if_neg Bool.false_ne_true, if_pos hpb]

/-! ### Replica digests (R471, R472) -/

theorem coresKept_replicaFault {tensor rank holder owner action : Nat} : CoresKept s (replicaFault s x tensor rank holder owner action) :=
  coresKept_raise

theorem coresKept_rewriteCopy {r : PRun} {p : PPanel} : CoresKept s (rewriteCopy s r p) := by
  have h := coresKept_itemGet (s := s) (x := r) (a := p.wc) (k := p.wcLen)
  unfold rewriteCopy
  split
  · next he =>
    rw [he] at h
    exact h.trans coresKept_itemPut
  · next he =>
    rw [he] at h
    exact h

theorem coresKept_ownerRepair {r : PRun} {ps : List PPanel} {action : Nat} : CoresKept s (ownerRepair s r ps action) := by
  unfold ownerRepair
  split
  · exact coresKept_forEach fun _ _ => coresKept_rewriteCopy
  split
  · exact .of_core (raise_core ..)
  · exact .refl s

theorem coresKept_replicaCheck {rc : ReplicaCheck} {dig : List Byte} : CoresKept s (replicaCheck s i x rc dig) := by
  unfold replicaCheck
  dsimp only
  split
  · split
    · exact coresKept_replicaFault
    · exact .refl s
  · split
    · exact coresKept_replicaFault.trans ((coresKept_forEach fun _ _ => coresKept_replicaFault).trans coresKept_ownerRepair)
    · exact (coresKept_forEach fun _ _ => coresKept_replicaFault).trans coresKept_ownerRepair

theorem coresKept_digestEnd {d : XPlace} {dig : List Byte} : CoresKept s (digestEnd s i x d dig) := by
  have h := coresKept_xWrite (s := s) (w := i) (x := d) (bs := dig)
  refine h.trans (CoresKept.trans (coresKept_replicaCheck (i := i) (x := x) (rc := replicaOf (xWrite s i d dig) i x d dig) (dig := dig)) ?_)
  exact .of_core rfl

/-- Of an owner's compare, the holders whose digest differs. -/
def digestsBad (rc : ReplicaCheck) (dig : List Byte) : List (Nat × List Byte) := rc.digests.filter (fun d => d.2 != dig)

theorem digestsBad_nil {rc : ReplicaCheck} {dig : List Byte} (h : ∀ d ∈ rc.digests, d.2 = dig) : digestsBad rc dig = [] := by
  simpa [digestsBad] using h

theorem digestsBad_ne_nil {rc : ReplicaCheck} {dig : List Byte} (h : ∃ d ∈ rc.digests, d.2 ≠ dig) : digestsBad rc dig ≠ [] := by
  simpa [digestsBad] using h

theorem replicaCheck_agree {rc : ReplicaCheck} {dig : List Byte} (ha : rc.again = none) (h : ∀ d ∈ rc.digests, d.2 = dig) :
    replicaCheck s i x rc dig = s := by
  have hb := digestsBad_nil h
  unfold digestsBad at hb
  rw [replicaCheck, ha, hb]
  rfl

/-- The panels that an owner's compare is about. -/
def checkedPanels (s : State) (i : Issuer) (x : Xfer) (rc : ReplicaCheck) : List PPanel :=
  ((ownerRun s i x rc).panels.drop rc.first).take rc.count

/-- The faults of the holders that differ (R472). -/
def holdersFaulted (s : State) (x : Xfer) (tensor first action : Nat) (bad : List (Nat × List Byte)) : State :=
  forEach bad (fun s d => replicaFault s x tensor first d.1 (ownLmn s) action) s

theorem replicaCheck_differ {rc : ReplicaCheck} {dig : List Byte} (ha : rc.again = none) (h : ∃ d ∈ rc.digests, d.2 ≠ dig) :
    replicaCheck s i x rc dig = ownerRepair (holdersFaulted s x (((checkedPanels s i x rc).head?).map PPanel.tensor |>.getD 0) rc.first
      (ownerAction s (ownerRun s i x rc) (checkedPanels s i x rc)) (digestsBad rc dig)) (ownerRun s i x rc) (checkedPanels s i x rc)
      (ownerAction s (ownerRun s i x rc) (checkedPanels s i x rc)) := by
  have hb := List.isEmpty_eq_false_iff.2 (digestsBad_ne_nil h)
  unfold digestsBad at hb
  rw [replicaCheck, ha]
  dsimp only
  rw [if_neg (by rw [hb]; exact Bool.false_ne_true)]
  rfl

theorem holdersFaulted_mem {tensor first action : Nat} {bad : List (Nat × List Byte)} :
    (holdersFaulted s x tensor first action bad).mem = s.mem := by
  unfold holdersFaulted
  rw [forEach_proj (π := State.mem)]
  intro _ _
  exact raise_mem ..

theorem holdersFaulted_lastCode {tensor first action : Nat} {bad : List (Nat × List Byte)} (h : bad ≠ []) :
    (holdersFaulted s x tensor first action bad).int.lastCode = FaultCode.replicaMismatch.code := by
  have hall : ∀ (bad : List (Nat × List Byte)) (s : State), s.int.lastCode = FaultCode.replicaMismatch.code →
      (holdersFaulted s x tensor first action bad).int.lastCode = FaultCode.replicaMismatch.code := by
    intro bad
    induction bad with
    | nil => exact fun _ h => h
    | cons d ds ih => exact fun s _ => ih (replicaFault s x tensor first d.1 (ownLmn s) action) (raise_lastCode ..)
  cases bad with
  | nil => exact absurd rfl h
  | cons d ds => exact hall ds (replicaFault s x tensor first d.1 (ownLmn s) action) (raise_lastCode ..)

/-- The compare of an owner, where a state block of the context makes this module one (R468). -/
def ownedCheck (s : State) (i : Issuer) (x : Xfer) (ds : List (Nat × List Byte)) (stg : Nat) (t : PsbTrack) : Option ReplicaCheck :=
  let rc : ReplicaCheck := { psb := 0x3FF * 2 ^ 54 + t.addr, stg := stg, digests := ds }
  let r := ownerRun s i x rc
  match panelsIn s x r.panels with
  | p :: ps =>
    if allZero (pGet s r (r.h.pword + 16 * p.rank) 16).2 then none else some { rc with first := p.rank, count := ps.length + 1 }
  | [] => none

/-- The compare of an owner that has this state block is with the digests that have landed (R471). -/
theorem ownedCheck_spec {ds : List (Nat × List Byte)} {st : Nat} {a : PsbTrack} {rc : ReplicaCheck} (h : ownedCheck s i x ds st a = some rc) :
    rc.again = none ∧ rc.digests = ds := by
  unfold ownedCheck at h
  dsimp only at h
  split at h
  · split at h
    · exact nomatch h
    · obtain rfl := Option.some.inj h
      exact ⟨rfl, rfl⟩
  · exact nomatch h

/-- Where every digest that has landed behind an owner's or a replica's is the same, the compare finds nothing (R471). -/
theorem replicaCheck_replicaOf {d : XPlace} {dig : List Byte} (h : ∀ y ∈ digestsIn s i x d, y.2 = dig) :
    replicaCheck s i x (replicaOf s i x d dig) dig = s := by
  have hz : (replicaOf s i x d dig).again = none ∧ ((replicaOf s i x d dig).digests = digestsIn s i x d ∨ (replicaOf s i x d dig).digests = []) := by
    rw [replicaOf]
    dsimp only
    split
    · exact ⟨rfl, .inr rfl⟩
    split
    · next rc hrc =>
      obtain ⟨a, -, ha⟩ := List.exists_of_findSome?_eq_some hrc
      obtain ⟨h1, h2⟩ := ownedCheck_spec ha
      exact ⟨h1, .inl h2⟩
    · have hn : (digestsIn s i x d).find? (fun d => d.2 != dig) = none := by simpa using h
      rw [hn]
      exact ⟨rfl, .inr rfl⟩
  obtain ⟨ha, hd | hd⟩ := hz
  · exact replicaCheck_agree ha (by rw [hd]; exact h)
  · exact replicaCheck_agree ha (by rw [hd]; exact fun _ hy => nomatch hy)

end Sys2Proof.Machine
end


section
/-! SUPPORT and proof of the checks of an XFER, of COPY, NODE and DIGEST, and of an owner's check of its shard. -/

namespace Sys2Proof.Machine

variable {s t u v w : State} {n op st f : Nat} {e : QEntry} {q : List QEntry} {x : Xfer} {c : Instr}

/-- The commands of the transfer engines by the OP that they start (R455). -/
def xferCmds (n : Nat) : List (Instr × Nat) :=
  [(.xferSend n, 1), (.xferFetch n, 2), (.xferCopy n, 3), (.xferNode n, 4), (.xferDigest n, 5), (.xferRetract n, 6)]

theorem exec_xfer (hc : (c, op) ∈ xferCmds n) (h : XferHead s n op e q) : exec c s = .next (runXfer (xferTaken s n e q) e) := by
  rw [← startXfer_head h]
  simp only [xferCmds, List.mem_cons, Prod.mk.injEq, List.not_mem_nil, or_false] at hc
  rcases hc with ⟨rfl, rfl⟩ | ⟨rfl, rfl⟩ | ⟨rfl, rfl⟩ | ⟨rfl, rfl⟩ | ⟨rfl, rfl⟩ | ⟨rfl, rfl⟩ <;> rfl

theorem XferDone.unread (hh : XferHead s n op e q) (h : XferDone (xferTaken s n e q) (xferTaken s n e q) u e.issuer.core e st f) :
    u.mem = s.mem ∧ u.xf = s.xf ∧ (getCore u n).xferQ = q := ⟨h.mem, h.xf, (h.of_taken hh).2.1⟩

/-- An XFER that its engine's first checks reject (R456, R631). -/
theorem xferRejected (hh : XferHead s n op e q) (hx : exec c s = .next (runXfer (xferTaken s n e q) e))
    (hr : runXfer (xferTaken s n e q) e = xferFail (xferTaken s n e q) e.issuer xsRejected .xferInvalid []) :
    Completes c s (fun u => (u.mem = s.mem ∧ u.xf = s.xf ∧ (getCore u n).xferQ = q) ∧ XferEnded s u n op 3 ∧ (getCore u n).xFault = 0x504) := by
  have hd := xferFail_spec (st := xsRejected) (c := .xferInvalid) (d := []) (.refl _) (xferTaken_run hh)
  obtain ⟨he, -, hf⟩ := hd.of_taken hh
  exact .of_eq hx hr ⟨hd.unread hh, he, hf (by decide)⟩

theorem xferChecks (hc : (c, op) ∈ xferCmds n) (hh : XferHead s n op e q) :
    let x := parseXfer e.desc
    let v := xferTaken s n e q
    let none_ (u : State) := u.mem = s.mem ∧ u.xf = s.xf ∧ (getCore u n).xferQ = q
    (descCrcOk e.desc = false → Completes c s (fun u => none_ u ∧ XferEnded s u n op 3 ∧ (getCore u n).xFault = 0x504))
    ∧ (descCrcOk e.desc = true → x.epoch ≠ (getCore s n).epoch → Completes c s (fun u => none_ u ∧ XferEnded s u n op 5))
    ∧ (descCrcOk e.desc = true → x.epoch = (getCore s n).epoch →
        (xferFieldsOk x = false ∨ xferOwnerOk v e.issuer x = false) →
        Completes c s (fun u => none_ u ∧ XferEnded s u n op 3 ∧ (getCore u n).xFault = 0x504)) := by
  have hx := exec_xfer hc hh
  have hep : (getCore (xferTaken s n e q) e.issuer.core).epoch = (getCore s n).epoch := by rw [hh.core_eq, xferTaken_core]
  refine ⟨fun hb => xferRejected hh hx (runXfer_badCrc hb), fun hb he => ?_, fun hb he ho => ?_⟩
  · have hd := xferEnd_spec (st := xsAbortReset) (f := 0) (fl := .abt) (.refl _) (xferTaken_run hh)
    exact .of_eq hx (runXfer_oldEpoch hb (by rw [hep]; exact he)) ⟨hd.unread hh, (hd.of_taken hh).1⟩
  · exact xferRejected hh hx (runXfer_notOwner hb (by rw [hep]; exact he) ho)

/-- An operation that ends OK on the state that it has made (R474). -/
theorem xferOk (hh : XferHead s n op e q) (hx : exec c s = .next (runXfer (xferTaken s n e q) e)) (hk : CoresKept (xferTaken s n e q) w)
    (hr : runXfer (xferTaken s n e q) e = xferEnd w e.issuer.core xsOk 0 .plain) :
    Completes c s (fun u => u.mem = w.mem ∧ XferEnded s u n op 0) := by
  have hd := xferEnd_spec (st := xsOk) (f := 0) (fl := .plain) hk (xferTaken_run hh)
  exact .of_eq hx hr ⟨hd.mem, (hd.of_taken hh).1⟩

/-- An operation whose panel fails its check (R456). -/
theorem xferOperandFault {d : List Byte} (hh : XferHead s n op e q) (hx : exec c s = .next (runXfer (xferTaken s n e q) e))
    (hk : CoresKept (xferTaken s n e q) w)
    (hr : runXfer (xferTaken s n e q) e = xferFail w e.issuer xsOperand .xferOperand d) :
    Completes c s (fun u => u.mem = w.mem ∧ XferEnded s u n op 4 ∧ (getCore u n).xFault = FaultCode.xferOperand.code) := by
  have hd := xferFail_spec (st := xsOperand) (c := .xferOperand) (d := d) hk (xferTaken_run hh)
  obtain ⟨he, -, hf⟩ := hd.of_taken hh
  exact .of_eq hx hr ⟨hd.mem, he, hf (by decide)⟩

theorem coresKept_of_xRead {i : Issuer} {p : XPlace} {k : Nat} {bs : List Byte} {ue : Bool} (h : xRead v i p k = (t, bs, ue)) : CoresKept v t := by
  have hk := coresKept_xRead (s := v) (w := i) (x := p) (k := k)
  rwa [h] at hk

theorem ownerCheck (s : State) (i : Issuer) (x : Xfer) (rc : ReplicaCheck) (dig : List Byte) (ha : rc.again = none) :
    let r := ownerRun s i x rc
    let action := ownerAction s r ((r.panels.drop rc.first).take rc.count)
    let u := replicaCheck s i x rc dig
    ((∀ d ∈ rc.digests, d.2 = dig) → u = s)
    ∧ ((∃ d ∈ rc.digests, d.2 ≠ dig) →
      (action = 1 → u.mem = s.mem ∧ u.int.lastCode = FaultCode.replicaMismatch.code)
      ∧ (action = 3 → u.mem = s.mem ∧ (getCtx u x.ctx).pressHold = true ∧ u.int.lastCode = FaultCode.pressState.code)) := by
  refine ⟨replicaCheck_agree ha, fun hd => ⟨fun h1 => ?_, fun h3 => ?_⟩⟩
  · have h1 : ownerAction s (ownerRun s i x rc) (checkedPanels s i x rc) = 1 := h1
    rw [replicaCheck_differ ha hd, h1]
    exact ⟨holdersFaulted_mem, holdersFaulted_lastCode (digestsBad_ne_nil hd)⟩
  · have h3 : ownerAction s (ownerRun s i x rc) (checkedPanels s i x rc) = 3 := h3
    rw [replicaCheck_differ ha hd, h3]
    refine ⟨(raise_mem ..).trans holdersFaulted_mem, ?_, raise_lastCode ..⟩
    rw [ownerRepair, if_neg (by decide), if_pos rfl]
    exact congrArg Ctx.pressHold (getCtx_modCtx ..)

theorem digestEnd_mem {i : Issuer} {d : XPlace} {dig : List Byte} : (digestEnd s i x d dig).mem =
    (replicaCheck (xWrite s i d dig) i x (replicaOf (xWrite s i d dig) i x d dig) dig).mem := rfl

/-- Settles O41: the checks of R631 in their order, then each operation on what it reads. -/
theorem localTransfers : Obligations.LocalTransfers := by
  unfold Obligations.LocalTransfers
  refine ⟨fun s n op e q c hc hh => xferChecks hc hh, ownerCheck, ?_⟩
  intro s n op e q hh hs x i v p hp
  have hop : op = (parseXfer e.desc).op := hh.op_eq.symm
  have hx : ∀ {c : Instr}, (c, op) ∈ xferCmds n → exec c s = .next (runXfer v e) := fun hc => exec_xfer hc hh
  refine ⟨fun d t bs h3 hd hpb hr => ?_, fun d t bs ue h3 hd hpb hl hr => ⟨fun hc => ?_, fun hc => ?_⟩,
    fun p2 d t l t2 r a b h4 hp2 hd hl hr hr2 => ?_, fun d t bs h5 hd hpb hr => ?_⟩
  · subst h3
    have hrun := (runXfer_copy hs hop.symm hp hd).trans (runCopy_raw hpb hr)
    exact xferOk hh (hx (by simp [xferCmds])) ((coresKept_of_xRead hr).trans coresKept_xWrite) hrun
  · subst h3
    have hrun := (runXfer_copy hs hop.symm hp hd).trans (runCopy_panel hpb hl hr hc)
    exact xferOk hh (hx (by simp [xferCmds])) ((coresKept_of_xRead hr).trans coresKept_xWrite) hrun
  · subst h3
    have hrun := (runXfer_copy hs hop.symm hp hd).trans (runCopy_badPanel hpb hl hr hc)
    exact xferOperandFault hh (hx (by simp [xferCmds])) (coresKept_of_xRead hr) hrun
  · subst h4
    have hpb := pb_of_node hs.2.2.1 hop.symm
    have hnode := runXfer_node hs hop.symm hp hp2 hd
    have hk := (coresKept_of_xRead hr).trans (coresKept_of_xRead hr2)
    refine ⟨fun hl' hr' hkey => ?_, fun hbad => ?_⟩
    · have hrun := hnode.trans (runNodeX_panel hpb hl hr hr2 (nodePair_iff.2 ⟨hl', hr', hkey⟩))
      exact xferOk hh (hx (by simp [xferCmds])) (hk.trans coresKept_xWrite) hrun
    · have hrun := hnode.trans (runNodeX_badPanel hpb hl hr hr2 (Bool.eq_false_iff.2 (mt nodePair_iff.1 hbad)))
      exact xferOperandFault hh (hx (by simp [xferCmds])) hk hrun
  · subst h5
    have hrun := (runXfer_digest hs hop.symm hp hd).trans (runDigest_raw hpb hr)
    obtain ⟨u, hu, hmem, he⟩ := xferOk (c := .xferDigest n) hh (hx (by simp [xferCmds])) ((coresKept_of_xRead hr).trans coresKept_digestEnd) hrun
    rw [digestEnd_mem] at hmem
    refine ⟨u, hu, he, hmem, fun hall => ?_⟩
    rw [hmem, replicaCheck_replicaOf hall]

end Sys2Proof.Machine
end


section
/-! Refutation of the transfers with another module: a send that has left no longer holds its bytes. -/

namespace Sys2Proof.Machine

/-- A FETCH of 64 bytes from module 9 by context 0 of partition 0, without a DONE semaphore (R454). -/
def fetchDesc : List Byte :=
  withCrcTail (leBytes 4 2 ++ leBytes 4 (9 * 2 ^ 18) ++ leBytes 4 (0xFFFF * 65536) ++ List.replicate 28 0 ++ leBytes 4 64
    ++ List.replicate 20 0) 60

/-- The queue's entry for it. -/
def fetchEntry : QEntry := { desc := fetchDesc }

/-- The state at reset with the FETCH at the head of core 0's queue, its context attached, and a port that leads to module 9. -/
def fetching : State := { State.reset with
  core := [(0, { xferQ := [fetchEntry] })]
  ctx := [(0, { state := .running })]
  syl := { module := some { grants := [{ ctxCount := 1 }] } }
  fab := { port := [(2, { pstate := .up })], map := [(9, { va := true, pa := 2 })] } }

theorem xferHead_fetching : XferHead fetching 0 2 fetchEntry [] := by
  unfold XferHead
  decide +kernel

theorem xferSound_fetching : XferSound (xferTaken fetching 0 fetchEntry []) fetchEntry := by
  unfold XferSound
  decide +kernel

theorem route_fetching : isOwnLmn fetching (parseXfer fetchEntry.desc).lmn = false
    ∧ routePort fetching (parseXfer fetchEntry.desc).lmn = some 2 := by decide +kernel

/-- The model keeps no bytes of a send that has been handed to its port. -/
theorem wire_fetching : ∀ y ∈ (startXfer fetching 0 xFetch).xf.sends, y.wire = [] := by decide +kernel

theorem hdr_fetching : (xferHdr (xferTaken fetching 0 fetchEntry []) fetchEntry.issuer (parseXfer fetchEntry.desc)).bytes ≠ [] := by
  decide +kernel

/-- Refutes O42: the request that a FETCH sends is under way without its header's bytes, which the frames of its port carry. -/
theorem not_remoteTransfers : ¬ Obligations.RemoteTransfers := by
  unfold Obligations.RemoteTransfers
  intro h
  obtain ⟨-, hfetch, -⟩ := h fetching 0 2 fetchEntry [] xferHead_fetching xferSound_fetching
  obtain ⟨u, hu, ⟨y, hy, -, -, -, -, hw⟩, -⟩ := hfetch 2 rfl route_fetching.1 route_fetching.2
  obtain rfl := Host.Outcome.next.inj hu
  exact hdr_fetching (hw.symm.trans (wire_fetching y hy))

end Sys2Proof.Machine
end


section
/-! Refutation of the sends and landings: a send that has left no longer holds its bytes. -/

namespace Sys2Proof.Machine

/-- A send to module 9 that waits for one credit, with one byte. -/
def creditless : Send := { lmn := 9, need := 1, wire := [1] }

/-- The state at reset with that send, whose pool has since received a credit, and a port that leads to module 9. -/
def credited : State := { State.reset with
  rc.pool := [(0, { credits := 1 })]
  xf.sends := [creditless]
  fab := { port := [(2, { pstate := .up })], map := [(9, { va := true, pa := 2 })] } }

theorem wire_credited : ∀ y ∈ (launchSend (modPool credited 0 (fun p => { p with credits := p.credits - 1 })) creditless).xf.sends,
    y.wire = [] := by decide +kernel

theorem exec_credited : exec (.sendCreditsAvailable 0) credited =
    .next (launchSend (modPool credited 0 (fun p => { p with credits := p.credits - 1 })) creditless) := rfl

/-- Refutes O43: a send that waited for credits goes out, and its bytes are those of its port's frames, no longer its own. -/
theorem not_sendsAndLandings : ¬ Obligations.SendsAndLandings := by
  unfold Obligations.SendsAndLandings
  intro h
  obtain ⟨u, hu, -, ⟨y, hy, -, -, -, -, hw⟩, -⟩ := h.1 credited 0 2 creditless rfl (by decide) (by decide) (by decide)
  obtain rfl := Host.Outcome.next.inj (exec_credited.symm.trans hu)
  exact absurd (hw.symm.trans (wire_credited y hy)) (by decide)

end Sys2Proof.Machine
end


section
/-! SUPPORT. What the work of a fabric port leaves of the ports: transmitting, a new link, training and a fall (R429, R435, R438). -/

namespace Sys2Proof.Machine

variable {s u v w : State} {p k : Nat} {st : PState} {q : Port}

theorem fabPort_of_fab (h : u.fab = s.fab) : fabPort u k = fabPort s k := by
  unfold fabPort
  rw [h]

theorem fabPort_modFab_ite {f : Port → Port} : fabPort (modFab s p f) k = if k = p then f (fabPort s k) else fabPort s k := by
  split
  · next h => rw [h, fabPort_modFab]
  · next h => exact fabPort_modFab_other _ f h

theorem portUsable_iff : portUsable s p = true ↔ (fabPort s p).pstate = .up ∨ (fabPort s p).pstate = .degraded := by
  unfold portUsable fabPort
  cases (tget default s.fab.port p).pstate <;> simp

theorem portUsable_of (h : (fabPort s p).pstate = st) (hst : st ≠ .up ∧ st ≠ .degraded) : portUsable s p = false :=
  Bool.eq_false_iff.2 fun hu => (portUsable_iff.1 hu).elim (fun e => hst.1 (h.symm.trans e)) (fun e => hst.2 (h.symm.trans e))

theorem raise_fabPort {c : FaultCode} {a : FaultAt} : fabPort (raise s c a) k = fabPort s k := fabPort_of_fab (raise_fab ..)

/-- A condition that every step of a walk keeps, and that holds at its start, holds at its end. -/
theorem forEach_keeps {α : Type} {P : State → Prop} {f : State → α → State} {xs : List α} (hs : P s)
    (hf : ∀ u, ∀ x ∈ xs, P u → P (f u x)) : P (forEach xs f s) := by
  induction xs generalizing s with
  | nil => exact hs
  | cons x xs ih =>
    exact ih (hf s x (List.mem_cons_self ..) hs) fun u y hy => hf u y (List.mem_cons_of_mem _ hy)

/-! ### Transmitting (R429, R432, R433) -/

/-- A port without what its transmitter changes. -/
def portRest (q : Port) : Port :=
  { q with txq := [], sent := [], idle := none, told := 0, nakDue := false, freed0 := 0, freed1 := 0, nextTx := 0, credit0 := 0, credit1 := 0 }

/-- Every port is as before but for what its transmitter changes. -/
def PortsKept (s u : State) : Prop := ∀ k, portRest (fabPort u k) = portRest (fabPort s k)

theorem PortsKept.refl (s : State) : PortsKept s s := fun _ => rfl

theorem PortsKept.trans (h : PortsKept s u) (h' : PortsKept u v) : PortsKept s v := fun k => (h' k).trans (h k)

theorem PortsKept.of_fab (h : u.fab = s.fab) : PortsKept s u := fun _ => by rw [fabPort_of_fab h]

theorem PortsKept.of_modFab {f : Port → Port} (hf : portRest (f (fabPort s p)) = portRest (fabPort s p)) : PortsKept s (modFab s p f) := fun k => by
  rw [fabPort_modFab_ite]
  split
  · next h => rw [h, hf]
  · rfl

theorem PortsKept.proj (h : PortsKept s u) {α : Type} (π : Port → α) (hπ : ∀ q, π (portRest q) = π q) (k : Nat) :
    π (fabPort u k) = π (fabPort s k) := by rw [← hπ, h k, hπ]

theorem portsKept_forEach {α : Type} {f : State → α → State} (h : ∀ u x, PortsKept u (f u x)) {xs : List α} : PortsKept s (forEach xs f s) :=
  forEach_keeps (.refl s) fun u x _ hu => hu.trans (h u x)

theorem portRest_freeBuffer {vc : Nat} : portRest (freeBuffer q vc) = portRest q := by
  unfold freeBuffer
  split <;> rfl

theorem markLeft_fab {f : DataFrame} : (markLeft s f).fab = s.fab := by
  unfold markLeft
  split <;> rfl

theorem portsKept_pumpOne (h : pumpOne s p = some u) : PortsKept s u := by
  unfold pumpOne at h
  dsimp only at h
  split at h
  · exact nomatch h
  split at h
  · exact nomatch h
  · obtain rfl := Option.some.inj h
    split
    · exact PortsKept.trans (.of_modFab (by dsimp only [portRest, toldPort])) (.of_modFab portRest_freeBuffer)
    · exact PortsKept.trans (.of_modFab (by dsimp only [portRest, toldPort])) (.of_fab markLeft_fab)

theorem portsKept_pumpGo {n : Nat} : PortsKept s (pumpGo n s p) := by
  induction n generalizing s with
  | zero => exact .refl s
  | succ n ih =>
    unfold pumpGo
    split
    · next h => exact (portsKept_pumpOne h).trans ih
    · exact .refl s

/-- An IDLE frame of a port leaves the others, and of its own only what it tells. -/
theorem fabPort_idleOut : fabPort (idleOut s p) k = fabPort s k ∨
    (k = p ∧ portUsable s p = true ∧ ∃ f, fabPort (idleOut s p) k = { toldPort (fabPort s p) with idle := some f }) := by
  unfold idleOut
  dsimp only
  split
  · next h =>
    rw [fabPort_modFab_ite]
    split
    · next hk =>
      rw [Bool.and_eq_true] at h
      exact .inr ⟨hk, h.1, _, by rw [hk]⟩
    · exact .inl rfl
  · exact .inl rfl

theorem portsKept_idleOut : PortsKept s (idleOut s p) := fun k => by
  rcases fabPort_idleOut (s := s) (p := p) (k := k) with h | ⟨hk, -, f, h⟩
  · rw [h]
  · rw [h, hk]
    dsimp only [portRest, toldPort]

theorem portsKept_portRun : PortsKept s (portRun s p) := portsKept_pumpGo.trans (portsKept_forEach fun _ _ => portsKept_idleOut)

/-- A port that has nothing waiting sends at most an IDLE frame: what it has sent and its credits stay (R429). -/
structure IdleOnly (q q' : Port) : Prop where
  sent : q'.sent = q.sent
  credit0 : q'.credit0 = q.credit0
  credit1 : q'.credit1 = q.credit1
  txq : q'.txq = q.txq

theorem IdleOnly.refl (q : Port) : IdleOnly q q := ⟨rfl, rfl, rfl, rfl⟩

theorem IdleOnly.trans {a b c : Port} (h : IdleOnly a b) (h' : IdleOnly b c) : IdleOnly a c :=
  ⟨h'.sent.trans h.sent, h'.credit0.trans h.credit0, h'.credit1.trans h.credit1, h'.txq.trans h.txq⟩

theorem idleOnly_idleOut : IdleOnly (fabPort s k) (fabPort (idleOut s p) k) := by
  rcases fabPort_idleOut (s := s) (p := p) (k := k) with h | ⟨hk, -, f, h⟩
  · rw [h]
    exact .refl _
  · rw [h, hk]
    constructor <;> dsimp only [toldPort]

theorem idleOnly_portRun (h : (fabPort s p).txq = []) : IdleOnly (fabPort s k) (fabPort (portRun s p) k) := by
  have hp : portRun s p = forEach (countFrom 0 8) idleOut s := by
    rw [portRun, h]
    rfl
  rw [hp]
  exact forEach_keeps (P := fun u => IdleOnly (fabPort s k) (fabPort u k)) (.refl _) fun u x _ hu => hu.trans idleOnly_idleOut

theorem portRun_mem : (portRun s p).mem = s.mem := (portRun_kept (Kept.refl [.fab, .xf] s) (Within.refl _)).rest .mem (by decide)
theorem portRun_int : (portRun s p).int = s.int := (portRun_kept (Kept.refl [.fab, .xf] s) (Within.refl _)).rest .int (by decide)

/-! ### A new link (R438) -/

/-- A port out of use sends no IDLE frame. -/
theorem fabPort_idleOut_unused (h : portUsable s k = false) : fabPort (idleOut s p) k = fabPort s k := by
  rcases fabPort_idleOut (s := s) (p := p) (k := k) with hk | ⟨rfl, hu, -⟩
  · exact hk
  · exact absurd (h.symm.trans hu) Bool.false_ne_true

/-- A state of a port in which nothing goes out. -/
def PState.mute (st : PState) : Prop := st ≠ .up ∧ st ≠ .degraded

theorem newLink_port (hst : st.mute) : fabPort (newLink s p st) p = { freshLink (fabPort s p) with pstate := st } := by
  unfold newLink
  dsimp only
  split
  · rw [fabPort_modFab]
  · refine forEach_keeps (P := fun u => fabPort u p = { freshLink (fabPort s p) with pstate := st })
      (forEach_keeps (P := fun u => fabPort u p = { freshLink (fabPort s p) with pstate := st }) (fabPort_modFab ..) fun u t ht hu => ?_)
      fun u x _ hu => ?_
    · have hne : p ≠ t.inPort.getD 0 := by
        have h := (List.mem_filter.1 ht).2
        cases hi : t.inPort with
        | none => simp [hi] at h
        | some i =>
          have hne : i ≠ p := by simpa [hi] using h
          exact hne.symm
      rw [fabPort_modFab_other _ _ hne, hu]
    · rw [fabPort_idleOut_unused, hu]
      exact portUsable_of (congrArg Port.pstate hu) hst

theorem newLink_other (hq : ∀ t ∈ (fabPort s p).txq, t.inPort = none) (hk : k ≠ p) : fabPort (newLink s p st) k = fabPort s k := by
  have ht : (fabPort s p).txq.filter (fun t => t.inPort.isSome && t.inPort != some p) = [] := by
    simp +contextual [List.filter_eq_nil_iff, hq]
  unfold newLink
  dsimp only
  rw [ht, List.isEmpty_nil, if_pos rfl, fabPort_modFab_other _ _ hk]

theorem newLink_mem : (newLink s p st).mem = s.mem := (newLink_kept (Kept.refl [.fab] s) (Within.refl _)).rest .mem (by decide)

/-! ### Training (R435) -/

/-- A port that trains. -/
def trainingPort (q : Port) : Port := { q with pstate := .training, active := 0, failed := 0, spareFor := 0x1F }

theorem portTrains_port : fabPort (portTrains s p) p = trainingPort (fabPort s p) := fabPort_modFab ..

theorem portTrains_other (hk : k ≠ p) : fabPort (portTrains s p) k = fabPort s k := fabPort_modFab_other _ _ hk

theorem portTrains_mem : (portTrains s p).mem = s.mem := rfl

/-! ### A fall (R312, R438, R445, R459) -/

theorem abortRouted_fab : (abortRouted s p).fab = s.fab :=
  (abortRouted_kept (Kept.refl [.core, .rc, .ctx] s) (Within.refl _)).rest .fab (by decide)

theorem abortRouted_mem : (abortRouted s p).mem = s.mem :=
  (abortRouted_kept (Kept.refl [.core, .rc, .ctx] s) (Within.refl _)).rest .mem (by decide)

/-- A port's fall without its fault. -/
def fallen (s : State) (p : Nat) : State :=
  failSends (modFab (newLink (abortRouted s p) p .down) p (fun q => { q with active := 0 })) p

theorem portFalls_eq : portFalls s p = if portUsable s p then raise (fallen s p) .portDown (portAt p) else fallen s p := rfl

theorem portFalls_fabPort : fabPort (portFalls s p) k = fabPort (fallen s p) k := by
  rw [portFalls_eq]
  split
  · exact raise_fabPort
  · rfl

theorem portFalls_port : fabPort (portFalls s p) p = { freshLink (fabPort s p) with pstate := .down, active := 0 } := by
  have h := newLink_port (s := abortRouted s p) (p := p) (st := .down) ⟨by decide, by decide⟩
  rw [fabPort_of_fab abortRouted_fab] at h
  rw [portFalls_fabPort]
  exact (fabPort_modFab ..).trans (by rw [h])

theorem portFalls_other (hq : ∀ t ∈ (fabPort s p).txq, t.inPort = none) (hk : k ≠ p) : fabPort (portFalls s p) k = fabPort s k := by
  rw [portFalls_fabPort]
  refine (fabPort_modFab_other _ _ hk).trans ((newLink_other ?_ hk).trans (fabPort_of_fab abortRouted_fab))
  rwa [fabPort_of_fab abortRouted_fab]

theorem portFalls_mem : (portFalls s p).mem = s.mem :=
  (portFalls_kept (Kept.refl [.mc, .core, .int, .rc, .ptn, .ctx, .fab, .xf, .i3c] s) (Within.refl _)).rest .mem (by decide)

theorem portFalls_lastCode (h : portUsable s p = true) : (portFalls s p).int.lastCode = FaultCode.portDown.code := by
  rw [portFalls_eq, if_pos h]
  exact raise_lastCode ..

theorem failSends_failed {x : Send} (hx : x ∈ (failSends s p).xf.sends) (hp : x.port = some p) (hn : x.need = 0) : x.failed = true := by
  obtain ⟨y, -, rfl⟩ := List.mem_map.1 hx
  by_cases hy : (y.port == some p && y.need == 0) = true
  · rw [if_pos hy]
  · rw [if_neg hy] at hp hn
    simp [hp, hn] at hy

theorem portFalls_failed {x : Send} (hx : x ∈ (portFalls s p).xf.sends) (hp : x.port = some p) (hn : x.need = 0) : x.failed = true := by
  refine failSends_failed (s := modFab (newLink (abortRouted s p) p .down) p (fun q => { q with active := 0 })) ?_ hp hn
  rw [portFalls_eq] at hx
  split at hx
  · rwa [raise_parts] at hx
  · exact hx

end Sys2Proof.Machine
end


section
/-! SUPPORT and proof of the states of a fabric port. -/

namespace Sys2Proof.Machine

variable {s u v : State} {p k lane lmn role pass : Nat} {q : Port} {who : Req}

/-- The other ports and memory are as before. -/
def PortAlone (s u : State) (p : Nat) : Prop := (∀ k, k ≠ p → fabPort u k = fabPort s k) ∧ u.mem = s.mem

/-- The same where the port holds no frame in transit for another. -/
def PortAloneQuiet (s u : State) (p : Nat) : Prop :=
  u.mem = s.mem ∧ ((∀ t ∈ (fabPort s p).txq, t.inPort = none) → ∀ k, k ≠ p → fabPort u k = fabPort s k)

theorem portAlone_modFab {f : Port → Port} : PortAlone s (modFab s p f) p := ⟨fun _ h => fabPort_modFab_other _ _ h, rfl⟩

theorem portAlone_portTrains : PortAlone s (portTrains s p) p := ⟨fun _ h => portTrains_other h, rfl⟩

theorem PortAlone.trans (h : PortAlone s u p) (h' : PortAlone u v p) : PortAlone s v p :=
  ⟨fun k hk => (h'.1 k hk).trans (h.1 k hk), h'.2.trans h.2⟩

theorem PortAlone.raised {c : FaultCode} {a : FaultAt} (h : PortAlone s u p) : PortAlone s (raise u c a) p :=
  ⟨fun k hk => raise_fabPort.trans (h.1 k hk), (raise_mem ..).trans h.2⟩

theorem portAloneQuiet_newLink {st : PState} : PortAloneQuiet s (newLink s p st) p := ⟨newLink_mem, fun hq _ hk => newLink_other hq hk⟩

theorem portAloneQuiet_portFalls : PortAloneQuiet s (portFalls s p) p := ⟨portFalls_mem, fun hq _ hk => portFalls_other hq hk⟩

theorem PortAloneQuiet.trans (h : PortAloneQuiet s u p) (h' : PortAlone u v p) : PortAloneQuiet s v p :=
  ⟨h'.2.trans h.1, fun hq k hk => (h'.1 k hk).trans (h.2 hq k hk)⟩

/-! ### Training (R435, R437) -/

theorem countFrom_sixteen : countFrom 0 17 = countFrom 0 16 ++ [16] := by decide

/-- The lanes that passed, the sync lane among them: the data lanes and the spare (R435). -/
theorem lanesPassed : ((countFrom 0 17).filter (bitOf pass)).length =
    ((countFrom 0 16).filter (bitOf pass)).length + (if bitOf pass 16 then 1 else 0) := by
  rw [countFrom_sixteen, List.filter_append, List.length_append]
  cases h : bitOf pass 16 <;> simp [h]

/-- A port whose training has ended in use. -/
def trained (q : Port) (full : Bool) (pass lmn role : Nat) : Port :=
  { q with
    pstate := if full then .up else .degraded, active := if full then 16 else 8, peerValid := true, peerRole := role % 4,
    peerLmn := lmn % 1024, replays := 0,
    spareFor := if full then ((countFrom 0 16).find? (fun l => !bitOf pass l)).getD 0x1F else 0x1F }

theorem trainingDone_full (h17 : bitOf pass 17 = true) (hk : 16 ≤ ((countFrom 0 17).filter (bitOf pass)).length) :
    trainingDone s p pass lmn role = portRun (modFab s p (fun q => trained q true pass lmn role)) p := by
  rw [lanesPassed] at hk
  unfold trainingDone
  simp only [h17, Bool.not_true, Bool.not_false, Bool.and_true, Bool.false_eq_true, false_and, or_false, if_false, decide_eq_true hk, if_true]
  rw [if_neg (by omega)]
  rfl

theorem trainingDone_degraded (h17 : bitOf pass 17 = true) (h8 : 8 ≤ ((countFrom 0 17).filter (bitOf pass)).length)
    (hk : ((countFrom 0 17).filter (bitOf pass)).length < 16) :
    trainingDone s p pass lmn role =
      portRun (raise (modFab s p (fun q => trained q false pass lmn role)) .portDegraded (portAt p)) p := by
  rw [lanesPassed] at hk h8
  unfold trainingDone
  simp only [h17, Bool.not_true, Bool.not_false, Bool.and_true, Bool.false_eq_true, false_and, or_false, if_false,
    decide_eq_false (not_le.2 hk)]
  rw [if_neg (by omega)]
  rfl

theorem trainingDone_falls (h17 : bitOf pass 17 = true) (hk : ((countFrom 0 17).filter (bitOf pass)).length < 8) :
    trainingDone s p pass lmn role = portFalls s p := by
  rw [lanesPassed] at hk
  unfold trainingDone
  simp only [h17, Bool.not_true, Bool.not_false, Bool.and_true, Bool.false_eq_true, false_and, or_false, if_false]
  rw [if_pos hk]

/-- A port in use after training, once it has sent what it can. -/
theorem portRun_trained {full : Bool} (hp : fabPort v p = trained q full pass lmn role) :
    (fabPort (portRun v p) p).pstate = (if full then .up else .degraded) ∧ (fabPort (portRun v p) p).active = (if full then 16 else 8)
    ∧ (fabPort (portRun v p) p).peerValid = true ∧ (fabPort (portRun v p) p).peerLmn = lmn % 1024
    ∧ (fabPort (portRun v p) p).peerRole = role % 4 := by
  have hr := portsKept_portRun (s := v) (p := p)
  rw [hr.proj Port.pstate (fun _ => rfl), hr.proj Port.active (fun _ => rfl), hr.proj Port.peerValid (fun _ => rfl),
    hr.proj Port.peerLmn (fun _ => rfl), hr.proj Port.peerRole (fun _ => rfl), hp]
  exact ⟨rfl, rfl, rfl, rfl, rfl⟩

/-! ### Lanes (R436, R437) -/

theorem exec_laneFailure : exec (.laneFailure p [lane]) s = .next (laneFails s p lane) := rfl

/-- A port with a lane failed. -/
def withFailed (s : State) (p lane : Nat) : State := modFab s p (fun q => { q with failed := q.failed ||| 2 ^ lane })

theorem laneFails_spare (hl : lane < 16) (hu : (fabPort s p).pstate = .up) (hf : bitOf (fabPort s p).failed lane = false)
    (hs : spareFree (fabPort s p) = true) : laneFails s p lane = laneSwap (modFab (withFailed s p lane) p (fun q => { q with
      askLane := some lane, sent := q.sent ++ [stampFrame q { dtype := 2, src := ownLmn (withFailed s p lane), dst := 0x3FF, ttl := 0 }],
      nextTx := lseqUp q.nextTx })) p lane := by
  have hus := portUsable_iff.2 (.inl hu)
  unfold laneFails
  simp only [hus, hf, hu, hs, Bool.not_true, Bool.or_false, Bool.false_or, beq_self_eq_true, Bool.and_self, if_true]
  rw [if_neg (by simp; omega), if_neg (by omega)]
  rfl

theorem laneFails_noSpare (hl : lane < 16) (hu : (fabPort s p).pstate = .up) (hf : bitOf (fabPort s p).failed lane = false)
    (hs : spareFree (fabPort s p) = false) : laneFails s p lane = portTrains (withFailed s p lane) p := by
  have hus := portUsable_iff.2 (.inl hu)
  unfold laneFails
  simp only [hus, hf, hu, hs, Bool.not_true, Bool.or_false, Bool.false_or, Bool.and_false, Bool.false_eq_true, if_false]
  rw [if_neg (by simp; omega), if_neg (by omega)]
  rfl

/-- The spare of a port has become its sync lane, and the requests by it have ended (R312, R437). -/
def syncSpared (s : State) (p : Nat) : State :=
  abortRouted (modFab s p (fun q => { q with failed := q.failed ||| 2 ^ 17, spareFor := 17 })) p

theorem syncSpared_alone : PortAlone s (syncSpared s p) p :=
  portAlone_modFab.trans ⟨fun _ _ => fabPort_of_fab abortRouted_fab, abortRouted_mem⟩

theorem syncSpared_port : fabPort (syncSpared s p) p = { fabPort s p with failed := (fabPort s p).failed ||| 2 ^ 17, spareFor := 17 } :=
  (fabPort_of_fab abortRouted_fab).trans (fabPort_modFab ..)

theorem exec_syncLaneFailure (hu : portUsable s p = true) (hf : bitOf (fabPort s p).failed 16 = false) (hs : (fabPort s p).spareFor ≠ 17) :
    exec (.syncLaneFailure p false) s = .next (if (fabPort s p).spareFor = 0x1F ∨ (fabPort s p).pstate = .degraded then syncSpared s p
      else raise (modFab (syncSpared s p) p (fun q => { q with pstate := .degraded, active := 8 })) .portDegraded (portAt p)) := by
  refine congrArg Host.Outcome.next ?_
  dsimp only
  rw [if_neg (by simp [hu]), if_neg (by simp [hf, hs])]
  rfl

/-! ### FAB_PT_CMD (R439) -/

theorem exec_fabPt {op : Nat} {c : Instr} (hx : exec c s = .next (portRow s who p op)) (hp : partsUp s = true) (hi : isInstaller s who = true)
    (h8 : p < 8) : exec c s = .next (portCmd s p op) := by
  rw [hx, portRow, if_pos (by simp [hp, hi, h8])]

theorem portCmd_stuck (h : portStuck s p = true) : portCmd s p 1 = s := if_pos h

theorem portCmd_dark (h : portStuck s p = false) (ho : (fabPort s p).pstate = .off) (he : (fabPort s p).enablePending = false) :
    portCmd s p 1 = newLink s p .dark :=
  (if_neg (by rw [h]; exact Bool.false_ne_true)).trans (if_pos ⟨ho, by rw [he]; rfl⟩)

theorem portCmd_pending (h : portStuck s p = false) (ho : (fabPort s p).pstate = .draining) :
    portCmd s p 1 = modFab s p (fun q => { q with enablePending := true }) :=
  (if_neg (by rw [h]; exact Bool.false_ne_true)).trans ((if_neg (by rw [ho]; exact fun e => nomatch e.1)).trans (if_pos ho))

theorem portCmd_disable (ho : (fabPort s p).pstate ≠ .off) (hd : (fabPort s p).pstate ≠ .draining) :
    portCmd s p 2 = failSends (modFab s p (fun q => { q with pstate := .draining, active := 0 })) p :=
  if_neg (not_or.2 ⟨ho, hd⟩)

theorem portCmd_retrain (h : (fabPort s p).pstate = .up ∨ (fabPort s p).pstate = .degraded ∨ (fabPort s p).pstate = .down) :
    portCmd s p 3 = portTrains s p := by
  unfold portCmd
  rcases h with h | h | h <;> simp only [h]

/-- Settles O44: each event of a port by what it does to the port's record, beside which memory and the other ports stay. -/
theorem portStates : Obligations.PortStates := by
  unfold Obligations.PortStates
  intro s p q others others'
  refine ⟨fun h => ?light, fun pass lmn role ht h17 => ⟨fun hk => ?full, fun h8 hk => ?degraded, fun hk => ?falls⟩, fun h => ?retry,
    fun h => ?loss, fun lane hl hu hf => ⟨fun hs => ?spare, fun hs => ?noSpare⟩, fun h => ?fibre, fun hu hf hs => ?sync, fun h => ?drain,
    fun who hp hi h8 => ⟨fun h => ?stuck, fun ho he h => ?dark, fun ho h => ?pending, fun ho hd => ?disable, fun h => ?retrain⟩⟩
  case light =>
    refine .of_eq rfl (if_pos h) ⟨portAloneQuiet_newLink.trans portAlone_portTrains, ?_⟩
    rw [portTrains_port, newLink_port ⟨by decide, by decide⟩]
    rfl
  case full =>
    obtain ⟨h1, h2, h3, h4, h5⟩ := portRun_trained (v := modFab s p (fun q => trained q true pass lmn role)) (full := true) (fabPort_modFab ..)
    exact .of_eq rfl ((if_pos ht).trans (trainingDone_full h17 hk)) ⟨h1, h2, h3, h4, h5, portRun_mem⟩
  case degraded =>
    obtain ⟨h1, h2, -, h4, -⟩ := portRun_trained
      (v := raise (modFab s p (fun q => trained q false pass lmn role)) .portDegraded (portAt p)) (full := false)
      (raise_fabPort.trans (fabPort_modFab ..))
    refine .of_eq rfl ((if_pos ht).trans (trainingDone_degraded h17 h8 hk)) ⟨h1, h2, h4, ?_⟩
    rw [portRun_int]
    exact raise_lastCode ..
  case falls =>
    refine .of_eq rfl ((if_pos ht).trans (trainingDone_falls h17 hk)) ⟨?_, portFalls_mem⟩
    rw [portFalls_port]
  case retry => exact .of_eq rfl (if_pos h) ⟨portAlone_portTrains, portTrains_port⟩
  case loss =>
    refine .of_eq rfl (if_pos h) ⟨portAloneQuiet_portFalls, ?_, ?_, portFalls_lastCode h, fun x hx => portFalls_failed hx⟩
    · rw [portFalls_port]
    · rw [portFalls_port]
  case spare =>
    refine .of_eq exec_laneFailure (laneFails_spare hl hu hf hs) ⟨?_, ?_, ?_, ?_, ?_, raise_lastCode ..⟩
    · exact (portAlone_modFab.trans (portAlone_modFab.trans portAlone_modFab)).raised
    all_goals
      unfold laneSwap withFailed
      rw [raise_fabPort, fabPort_modFab, fabPort_modFab, fabPort_modFab]
    exact hu
  case noSpare =>
    refine .of_eq exec_laneFailure (laneFails_noSpare hl hu hf hs) ⟨portAlone_modFab.trans portAlone_portTrains, ?_⟩
    rw [portTrains_port]
    rfl
  case fibre =>
    refine .of_eq rfl ((if_neg (by simp [h])).trans (if_pos (by simp))) ⟨portAloneQuiet_portFalls, ?_⟩
    rw [portFalls_port]
  case sync =>
    refine .of_next (exec_syncLaneFailure hu hf hs) ?_
    split
    · next hc =>
      refine ⟨syncSpared_alone, ?_⟩
      rw [syncSpared_port]
      refine ⟨rfl, rfl, ?_⟩
      split
      · rfl
      · next h1 => exact hc.resolve_left h1
    · next hc =>
      refine ⟨(syncSpared_alone.trans portAlone_modFab).raised, ?_⟩
      rw [raise_fabPort, fabPort_modFab, syncSpared_port]
      exact ⟨rfl, rfl, (if_neg fun e => hc (.inl e)).symm⟩
  case drain =>
    refine .of_eq rfl (if_pos h) ⟨portAloneQuiet_newLink.trans portAlone_modFab, ?_⟩
    rw [fabPort_modFab, newLink_port ⟨by decide, by decide⟩]
    exact ⟨rfl, rfl, rfl⟩
  case stuck => exact (exec_fabPt rfl hp hi h8).trans (congrArg Host.Outcome.next (portCmd_stuck h))
  case dark => exact .of_eq (exec_fabPt rfl hp hi h8) (portCmd_dark h ho he) ⟨portAloneQuiet_newLink, newLink_port ⟨by decide, by decide⟩⟩
  case pending => exact .of_eq (exec_fabPt rfl hp hi h8) (portCmd_pending h ho) ⟨portAlone_modFab, fabPort_modFab ..⟩
  case disable => exact .of_eq (exec_fabPt rfl hp hi h8) (portCmd_disable ho hd) ⟨portAlone_modFab, fabPort_modFab ..⟩
  case retrain =>
    refine .of_eq (exec_fabPt rfl hp hi h8) (portCmd_retrain h) ⟨portAlone_portTrains, ?_⟩
    rw [portTrains_port]
    rfl

end Sys2Proof.Machine
end


section
/-! SUPPORT and proof of the data and LINK frames of the fabric. -/

namespace Sys2Proof.Machine

variable {s u v : State} {p k lane n : Nat} {q : Port} {f : DataFrame}

/-! ### What a port's work leaves of arriving sends and of the module's number -/

/-- The arriving sends, the buffers, the module's number and memory are as before. -/
structure ArrivalsKept (s u : State) : Prop where
  recv : u.xf.recv = s.xf.recv
  buf : u.rc.buf = s.rc.buf
  assigned : u.fab.assigned = s.fab.assigned
  lmn : u.fab.lmn = s.fab.lmn
  mem : u.mem = s.mem

theorem ArrivalsKept.refl (s : State) : ArrivalsKept s s := ⟨rfl, rfl, rfl, rfl, rfl⟩

theorem ArrivalsKept.trans (h : ArrivalsKept s u) (h' : ArrivalsKept u v) : ArrivalsKept s v :=
  ⟨h'.recv.trans h.recv, h'.buf.trans h.buf, h'.assigned.trans h.assigned, h'.lmn.trans h.lmn, h'.mem.trans h.mem⟩

theorem arrivalsKept_modFab {g : Port → Port} : ArrivalsKept s (modFab s p g) := ⟨rfl, rfl, rfl, rfl, rfl⟩

theorem arrivalsKept_raise {c : FaultCode} {a : FaultAt} : ArrivalsKept s (raise s c a) :=
  ⟨by rw [raise_parts], by rw [raise_rc], by rw [raise_fab], by rw [raise_fab], raise_mem ..⟩

theorem ArrivalsKept.isOwnLmn (h : ArrivalsKept s u) (l : Nat) : isOwnLmn u l = isOwnLmn s l := by
  unfold Machine.isOwnLmn
  rw [h.assigned, h.lmn]

theorem ArrivalsKept.getBuf (h : ArrivalsKept s u) (b : Nat) : getBuf u b = getBuf s b := congrArg (tget default · b) h.buf

theorem arrivalsKept_markLeft : ArrivalsKept s (markLeft s f) := by
  unfold markLeft
  split
  · exact .refl s
  · exact ⟨rfl, rfl, rfl, rfl, rfl⟩

theorem arrivalsKept_pumpOne (h : pumpOne s p = some u) : ArrivalsKept s u := by
  unfold pumpOne at h
  dsimp only at h
  split at h
  · exact nomatch h
  split at h
  · exact nomatch h
  · obtain rfl := Option.some.inj h
    split
    · exact arrivalsKept_modFab.trans arrivalsKept_modFab
    · exact arrivalsKept_modFab.trans arrivalsKept_markLeft

theorem arrivalsKept_pumpGo {m : Nat} : ArrivalsKept s (pumpGo m s p) := by
  induction m generalizing s with
  | zero => exact .refl s
  | succ m ih =>
    unfold pumpGo
    split
    · next h => exact (arrivalsKept_pumpOne h).trans ih
    · exact .refl s

theorem arrivalsKept_idleOut : ArrivalsKept s (idleOut s p) := by
  unfold idleOut
  dsimp only
  split
  · exact arrivalsKept_modFab
  · exact .refl s

theorem arrivalsKept_portRun : ArrivalsKept s (portRun s p) :=
  forEach_keeps arrivalsKept_pumpGo fun _ _ _ h => h.trans arrivalsKept_idleOut

/-! ### The reverse-direction fields (R429, R432, R433) -/

/-- A port that has taken a frame's acknowledgement and credits. -/
def reversed (f : DataFrame) (q : Port) : Port :=
  let rest := q.sent.filter (fun g => !lseqAcked g.lseq f.ackLseq)
  { q with sent := rest, replays := if rest.length < q.sent.length then 0 else q.replays,
           credit0 := if f.credVc = 0 then min 1024 (q.credit0 + f.hopCredit) else q.credit0,
           credit1 := if f.credVc = 0 then q.credit1 else min 1024 (q.credit1 + f.hopCredit) }

theorem reverseIn_eq : reverseIn s p f = if f.nak then nakIn (modFab s p (reversed f)) p f.ackLseq else modFab s p (reversed f) := rfl

/-- Of its port a reverse field changes neither the number awaited nor what has been dropped. -/
structure TurnKept (q q' : Port) : Prop where
  nextRx : q'.nextRx = q.nextRx
  drop : q'.drop = q.drop

theorem TurnKept.trans {a b c : Port} (h : TurnKept a b) (h' : TurnKept b c) : TurnKept a c :=
  ⟨h'.nextRx.trans h.nextRx, h'.drop.trans h.drop⟩

theorem turnKept_nakIn : TurnKept (fabPort s p) (fabPort (nakIn s p k) p) := by
  unfold nakIn
  dsimp only
  split
  · rw [fabPort_modFab]
    exact ⟨rfl, rfl⟩
  · rw [portTrains_port, raise_fabPort, fabPort_modFab, fabPort_modFab]
    exact ⟨rfl, rfl⟩

theorem turnKept_reverseIn : TurnKept (fabPort s p) (fabPort (reverseIn s p f) p) := by
  have h0 : TurnKept (fabPort s p) (fabPort (modFab s p (reversed f)) p) := by
    rw [fabPort_modFab]
    exact ⟨rfl, rfl⟩
  rw [reverseIn_eq]
  split
  · exact h0.trans turnKept_nakIn
  · exact h0

theorem arrivalsKept_nakIn : ArrivalsKept s (nakIn s p k) := by
  unfold nakIn
  dsimp only
  split
  · exact arrivalsKept_modFab
  · exact arrivalsKept_modFab.trans (arrivalsKept_modFab.trans (arrivalsKept_raise.trans ⟨rfl, rfl, rfl, rfl, rfl⟩))

theorem arrivalsKept_reverseIn : ArrivalsKept s (reverseIn s p f) := by
  rw [reverseIn_eq]
  split
  · exact arrivalsKept_modFab.trans arrivalsKept_nakIn
  · exact arrivalsKept_modFab

/-! ### Frames in and out of their turn (R431, R432) -/

/-- The state in which a sound frame that comes in its turn is acted on. -/
def turned (s : State) (p : Nat) (f : DataFrame) : State :=
  modFab (reverseIn s p f) p (fun q => { q with nextRx := lseqUp q.nextRx, discarding := false })

theorem inTurn_sound {act : State → State} (h0 : f.dtype ≠ 0) (hok : frameOk f = true) (hl : f.lseq = (fabPort s p).nextRx) :
    inTurn s p f act = act (turned s p f) := by
  unfold inTurn
  simp only [hok, if_true, if_neg h0]
  rw [if_neg (not_not.2 (hl.trans turnKept_reverseIn.nextRx.symm))]
  rfl

theorem turned_nextRx : (fabPort (turned s p f) p).nextRx = ((fabPort s p).nextRx + 1) % 4096 := by
  rw [turned, fabPort_modFab]
  exact congrArg lseqUp turnKept_reverseIn.nextRx

theorem turned_drop : (fabPort (turned s p f) p).drop = (fabPort s p).drop := by
  rw [turned, fabPort_modFab]
  exact turnKept_reverseIn.drop

theorem arrivalsKept_turned : ArrivalsKept s (turned s p f) := arrivalsKept_reverseIn.trans arrivalsKept_modFab

/-- The state after the reverse-direction fields of a frame, where these may be acted on (R13). -/
def heard (s : State) (p : Nat) (f : DataFrame) : State := if frameOk f then reverseIn s p f else s

theorem inTurn_late {act : State → State} (h0 : f.dtype ≠ 0) (hl : f.lseq ≠ (fabPort (heard s p f) p).nextRx) :
    inTurn s p f act = heard s p f := (if_neg h0).trans (if_pos hl)

theorem inTurn_idle {act : State → State} (h0 : f.dtype = 0) (hok : frameOk f = true) (hn : f.nak = false) :
    inTurn s p f act = modFab s p (reversed f) := by
  unfold inTurn
  simp only [hok, if_true, if_pos h0]
  rw [reverseIn_eq, hn, if_neg Bool.false_ne_true]

/-- The state after a data frame with a reserved value in its turn (R13, R430). -/
def reservedTaken (s : State) (p : Nat) (f : DataFrame) : State :=
  dropFrame (modFab (modFab s p (fun q => { q with nextRx := lseqUp q.nextRx, discarding := false })) p (fun q => freeBuffer q f.vc)) p

theorem inTurn_reserved {act : State → State} (h1 : f.dtype = 1) (hok : frameOk f = false) (hl : f.lseq = (fabPort s p).nextRx) :
    inTurn s p f act = reservedTaken s p f := by
  unfold inTurn
  simp only [hok, Bool.false_eq_true, if_false, h1, if_true, hl]
  exact (if_neg (by decide)).trans (if_neg (not_not.2 rfl))

/-- The work of a LINK frame that came in its turn (R436). -/
def linkAct (p lane : Nat) (s : State) : State :=
  if decide (lane < 16) && (fabPort s p).pstate == .up && (fabPort s p).spareFor == 0x1F then laneSwap s p lane else s

theorem freeBuffer_nextRx {vc : Nat} : (freeBuffer q vc).nextRx = q.nextRx := by
  unfold freeBuffer
  split <;> rfl
theorem freeBuffer_drop {vc : Nat} : (freeBuffer q vc).drop = q.drop := by
  unfold freeBuffer
  split <;> rfl
theorem freeBuffer_sent {vc : Nat} : (freeBuffer q vc).sent = q.sent := by
  unfold freeBuffer
  split <;> rfl
theorem freeBuffer_txq {vc : Nat} : (freeBuffer q vc).txq = q.txq := by
  unfold freeBuffer
  split <;> rfl

/-- The state in which the port has counted the bytes that the decoder mended. -/
def mended (s : State) (p n : Nat) : State := modFab s p (fun q => { q with corr := satAdd 32 q.corr n })

theorem mended_port : fabPort (mended s p n) p = { fabPort s p with corr := satAdd 32 (fabPort s p).corr n } := fabPort_modFab ..

theorem mended_nextRx (h : f.lseq = (fabPort s p).nextRx) : f.lseq = (fabPort (mended s p n) p).nextRx := by rw [mended_port, h]

theorem exec_dataFrame (hh : portHears s p = true) (h2 : f.dtype ≠ 2) (h0 : f.dtype = 0 → frameOk f = true) :
    exec (.dataFrameReceive p (some f) n) s =
      .next (portRun (inTurn (mended s p n) p f (fun s => dataIn s p f)) p) := by
  refine congrArg Host.Outcome.next ((if_neg (by simp [hh])).trans ((if_neg h2).trans ?_))
  dsimp only
  rw [if_neg (by simp only [Bool.and_eq_true, Bool.not_eq_true', decide_eq_true_eq]; exact fun h => by simp [h0 h.2] at h)]
  rfl

/-! ### Delivery (R441, R458) -/

/-- The arriving send that a first frame opens. -/
def openedRecv (s : State) (f : DataFrame) : Recv :=
  { src := f.src, pool := f.pool, seq := f.sendSeq, data := f.payload.take f.validLen, next := 1, stamp := now s, whole := f.last }

theorem find_opened {rs : List Recv} (h0 : f.frameNo = 0) :
    (rs ++ [({ src := f.src, pool := f.pool, seq := f.sendSeq } : Recv)]).reverse.find? (fun r => r.takes f)
      = some { src := f.src, pool := f.pool, seq := f.sendSeq } := by
  rw [List.reverse_append]
  simp [Recv.takes, h0]

/-- The first frame of a send for this module opens it; where its buffer has not closed, its bytes are kept. -/
theorem deliverFrame_first (h0 : f.frameNo = 0)
    (hb : ∀ b, headerBuf (f.payload.take f.validLen) = some b → (getBuf s b).closed = false) :
    openedRecv s f ∈ (deliverFrame s f).xf.recv ∧ (deliverFrame s f).mem = s.mem ∧ (deliverFrame s f).fab = s.fab := by
  unfold deliverFrame
  simp only [h0, if_true, find_opened h0, List.nil_append]
  cases hd : headerBuf (f.payload.take f.validLen) with
  | none => exact ⟨List.mem_append_right _ (List.mem_singleton_self _), rfl, rfl⟩
  | some b =>
    have hc : (getBuf { s with xf.recv := s.xf.recv ++ [{ src := f.src, pool := f.pool, seq := f.sendSeq }] } b).closed = false := hb b hd
    simp only [hc, Bool.and_false, Bool.false_eq_true, if_false]
    split
    · exact ⟨List.mem_append_right _ (List.mem_singleton_self _), rfl, rfl⟩
    · exact ⟨List.mem_append_right _ (List.mem_singleton_self _), rfl, rfl⟩

/-- Settles O45: each kind of frame by the state in which it is acted on, which the port then transmits from. -/
theorem fabricFrames : Obligations.FabricFrames := by
  unfold Obligations.FabricFrames
  intro s p q
  refine ⟨fun hh => ?bad, fun f n hh h1 hok hl h0 hown hb => ?first, fun f n hh h1 hl => ?outOfTurn, fun f n hh h0 hok hnak hq => ?idle,
    fun f n hh h1 hok hl hown ht => ?spent, fun f n hh h1 hok hl hq => ?reserved, fun f lane hu h2 hok hl hnak h16 hs => ?link⟩
  case bad =>
    have hr := portsKept_idleOut (s := modFab s p (fun q => { q with uncorr := satInc 32 q.uncorr, nakDue := true, discarding := true })) (p := p)
    refine .of_eq rfl (if_neg (by simp [hh])) ⟨?_, ?_, ?_, ?_, arrivalsKept_idleOut.mem⟩
    · exact (hr.proj Port.uncorr (fun _ => rfl) p).trans (by rw [fabPort_modFab])
    · exact (hr.proj Port.discarding (fun _ => rfl) p).trans (by rw [fabPort_modFab])
    · exact (hr.proj Port.nextRx (fun _ => rfl) p).trans (by rw [fabPort_modFab])
    · exact (idleOut_kept (Kept.refl [.fab] _) (Within.refl _)).rest .xf (by decide)
  case first =>
    have hx := exec_dataFrame (n := n) hh (by omega) (fun h => absurd (h.symm.trans h1) (by decide))
    rw [inTurn_sound (by omega) hok (mended_nextRx hl)] at hx
    have hk : ArrivalsKept s (turned (mended s p n) p f) := arrivalsKept_modFab.trans arrivalsKept_turned
    have hin : dataIn (turned (mended s p n) p f) p f = deliverFrame (modFab (turned (mended s p n) p f) p (fun q => freeBuffer q f.vc)) f :=
      if_pos ((hk.isOwnLmn _).trans hown)
    obtain ⟨hr, hm, hf⟩ := deliverFrame_first (s := modFab (turned (mended s p n) p f) p (fun q => freeBuffer q f.vc)) h0
      fun b hd => by rw [(hk.trans arrivalsKept_modFab).getBuf]; exact hb b hd
    rw [hin] at hx
    refine .of_next hx ⟨?_, ?_, openedRecv (modFab (turned (mended s p n) p f) p (fun q => freeBuffer q f.vc)) f, ?_, rfl, rfl, rfl, rfl, rfl, rfl⟩
    · rw [portsKept_portRun.proj Port.nextRx (fun _ => rfl), fabPort_of_fab hf, fabPort_modFab]
      rw [freeBuffer_nextRx, turned_nextRx, mended_port]
    · rw [portRun_mem, hm]
      exact hk.mem
    · rw [arrivalsKept_portRun.recv]
      exact hr
  case outOfTurn =>
    have hx := exec_dataFrame (n := n) hh (by omega) (fun h => absurd (h.symm.trans h1) (by decide))
    have ht : ArrivalsKept s (heard (mended s p n) p f) ∧ (fabPort (heard (mended s p n) p f) p).nextRx = (fabPort s p).nextRx := by
      unfold heard
      split
      · exact ⟨arrivalsKept_modFab.trans arrivalsKept_reverseIn, turnKept_reverseIn.nextRx.trans (by rw [mended_port])⟩
      · exact ⟨arrivalsKept_modFab, by rw [mended_port]⟩
    rw [inTurn_late (by omega) (by rw [ht.2]; exact hl)] at hx
    have hk := ht.1.trans (arrivalsKept_portRun (p := p))
    exact .of_next hx ⟨(portsKept_portRun.proj Port.nextRx (fun _ => rfl) p).trans ht.2, hk.recv, hk.mem⟩
  case idle =>
    have hx := exec_dataFrame (n := n) hh (by omega) (fun _ => hok)
    rw [inTurn_idle h0 hok hnak] at hx
    have hp : fabPort (modFab (mended s p n) p (reversed f)) p = reversed f { q with corr := satAdd 32 q.corr n } := by
      rw [fabPort_modFab, mended_port]
    have hi := idleOnly_portRun (s := modFab (mended s p n) p (reversed f)) (p := p) (k := p) (by rw [hp]; exact hq)
    rw [hp] at hi
    refine .of_next hx ⟨hi.sent, hi.credit0, hi.credit1, ?_, portRun_mem⟩
    rw [portsKept_portRun.proj Port.corr (fun _ => rfl), hp]
    rfl
  case spent =>
    have hx := exec_dataFrame (n := n) hh (by omega) (fun h => absurd (h.symm.trans h1) (by decide))
    rw [inTurn_sound (by omega) hok (mended_nextRx hl)] at hx
    have hk : ArrivalsKept s (turned (mended s p n) p f) := arrivalsKept_modFab.trans arrivalsKept_turned
    have hin : dataIn (turned (mended s p n) p f) p f = dropFrame (modFab (turned (mended s p n) p f) p (fun q => freeBuffer q f.vc)) p :=
      (if_neg (by rw [hk.isOwnLmn, hown]; exact Bool.false_ne_true)).trans (if_pos ht)
    rw [hin] at hx
    have hr := (hk.trans (arrivalsKept_modFab.trans arrivalsKept_modFab)).trans (arrivalsKept_portRun
      (s := dropFrame (modFab (turned (mended s p n) p f) p (fun q => freeBuffer q f.vc)) p) (p := p))
    refine .of_next hx ⟨?_, hr.recv, hr.mem⟩
    rw [portsKept_portRun.proj Port.drop (fun _ => rfl), dropFrame, fabPort_modFab, fabPort_modFab]
    dsimp only
    rw [freeBuffer_drop, turned_drop, mended_port]
  case reserved =>
    have hx := exec_dataFrame (n := n) hh (by omega) (fun h => absurd (h.symm.trans h1) (by decide))
    rw [inTurn_reserved h1 hok (mended_nextRx hl)] at hx
    have hp : fabPort (reservedTaken (mended s p n) p f) p = freeBuffer { q with
        corr := satAdd 32 q.corr n, nextRx := lseqUp q.nextRx, discarding := false, drop := satInc 32 q.drop } f.vc := by
      unfold reservedTaken dropFrame
      rw [fabPort_modFab, fabPort_modFab, fabPort_modFab, mended_port]
      unfold freeBuffer
      split <;> rfl
    have hi := idleOnly_portRun (s := reservedTaken (mended s p n) p f) (p := p) (k := p) (by rw [hp, freeBuffer_txq]; exact hq)
    have hr : ArrivalsKept s (portRun (reservedTaken (mended s p n) p f) p) :=
      (arrivalsKept_modFab.trans (arrivalsKept_modFab.trans (arrivalsKept_modFab.trans arrivalsKept_modFab))).trans arrivalsKept_portRun
    refine .of_next hx ⟨?_, ?_, ?_, hr.recv, hr.mem⟩
    · rw [hi.sent, hp, freeBuffer_sent]
    · rw [portsKept_portRun.proj Port.drop (fun _ => rfl), hp, freeBuffer_drop]
    · rw [portsKept_portRun.proj Port.nextRx (fun _ => rfl), hp, freeBuffer_nextRx]
      rfl
  case link =>
    have hus := portUsable_iff.2 (.inl hu)
    have hrev : reverseIn s p f = modFab s p (reversed f) := by rw [reverseIn_eq, hnak, if_neg Bool.false_ne_true]
    have hp : fabPort (turned s p f) p = { reversed f q with nextRx := lseqUp q.nextRx, discarding := false } := by
      rw [turned, fabPort_modFab, hrev, fabPort_modFab]
      rfl
    have hact : inTurn s p f (linkAct p lane) = laneSwap (turned s p f) p lane := by
      rw [inTurn_sound (by omega) hok hl]
      exact if_pos (by rw [hp]; simp [reversed, h16, hs, hu])
    have hx : exec (.linkFrameReceive p f lane) s = .next (portRun (inTurn s p f (linkAct p lane)) p) :=
      congrArg Host.Outcome.next (if_neg (by simp [hus, h2]))
    rw [hact] at hx
    have hsw : fabPort (laneSwap (turned s p f) p lane) p =
        { reversed f q with nextRx := lseqUp q.nextRx, discarding := false, spareFor := lane } := by
      rw [laneSwap, raise_fabPort, fabPort_modFab, hp]
    refine .of_next hx ⟨?_, ?_, ?_, ?_⟩
    · rw [portsKept_portRun.proj Port.spareFor (fun _ => rfl), hsw]
    · rw [portsKept_portRun.proj Port.nextRx (fun _ => rfl), hsw]
      rfl
    · rw [portRun_int]
      exact raise_lastCode ..
    · exact (arrivalsKept_turned.trans (arrivalsKept_modFab.trans (arrivalsKept_raise.trans arrivalsKept_portRun))).mem

end Sys2Proof.Machine
end


section
/-! Proof of the takeover and of the module map. -/

namespace Sys2Proof.Machine

variable {s u : State} {l b : Nat} {who : Req} {c : Cover}

theorem exec_fabTakeover (hp : partsUp s = true) (hi : isInstaller s who = true) :
    exec (.fabTakeover who l) s = .next (takeover s who (l % 1024)) :=
  congrArg Host.Outcome.next (if_pos (by rw [hp, hi]; rfl))

theorem takeover_refused (hb : s.fab.takeBusy = false) (h : takeoverStatus s l ≠ 0) :
    takeover s who l = { s with fab := { s.fab with takeDone := true, takeStatus := takeoverStatus s l } } :=
  (if_neg (by rw [hb]; exact Bool.false_ne_true)).trans (if_neg h)

theorem takeover_pending (hb : s.fab.takeBusy = false) (h : takeoverStatus s l = 0) (hr : journalRoom s = true) :
    takeover s who l = { s with
      fab.takeBusy := true, fab.takePend := some (l, s.bell.count), fab.takeDone := false, fab.takeBy := journalRole s who } :=
  (if_neg (by rw [hb]; exact Bool.false_ne_true)).trans ((if_pos h).trans (if_pos hr))

/-- The spare with its LMN taken, before the entry in the journal (R447). -/
def lmnTaken (s : State) (l : Nat) (c : Cover) : State := { s with
  bell.cfg.role := 0, snp.buddyValid := true, snp.buddyLmn := c.buddy
  fab := { s.fab with
    assigned := true, lmn := l, coverLmn := l, takePend := none, takeBusy := false, takeDone := true, takeStatus := 0, takeLmn := l } }

theorem exec_takeoverApply (hp : s.fab.takePend = some (l, b)) (hc : counting s = true) (hb : s.bell.count ≠ b) (h : coverOf s l = some c) :
    exec .takeoverApply s = .next (journal (lmnTaken s l c) { action := 0x0A, role := s.fab.takeBy.1, slot := s.fab.takeBy.2, aux := l }) := by
  refine congrArg Host.Outcome.next ?_
  rw [hp]
  dsimp only
  rw [if_pos (by simp [hc, hb]), h]
  rfl

theorem exec_takeoverApply_none (hp : s.fab.takePend = some (l, b)) (hc : counting s = true) (hb : s.bell.count ≠ b)
    (h : coverOf s l = none) : exec .takeoverApply s = .next { s with fab := { s.fab with
      takePend := none, takeBusy := false, takeDone := true, takeStatus := 2 } } := by
  refine congrArg Host.Outcome.next ?_
  rw [hp]
  dsimp only
  rw [if_pos (by simp [hc, hb]), h]

theorem exec_mapSelApply {n : Nat} {v : Bool} (hp : (tget default s.fab.map n).selPend = some (v, b)) (hc : counting s = true)
    (hb : s.bell.count ≠ b) : exec (.fabMapSelApply n) s = .next { s with
      fab.map := tmod default s.fab.map n (fun e => { e with sel := v, selPend := none }) } := by
  refine congrArg Host.Outcome.next ?_
  rw [hp]
  dsimp only
  rw [if_pos (by simp [hc, hb])]

/-- Settles O46: the command's checks, and what the next Bell makes of a takeover and of a SEL that wait for it. -/
theorem takeoverAndMap : Obligations.TakeoverAndMap := by
  unfold Obligations.TakeoverAndMap
  intro s
  refine ⟨fun who l hp hi hb => ⟨fun h => ?_, fun h hr => ?_⟩, fun l b hp hc hb => ⟨fun c h => ?_, fun h => ?_⟩, fun n v b hp hc hb => ?_⟩
  · exact .of_eq (exec_fabTakeover hp hi) (takeover_refused hb h) rfl
  · exact .of_eq (exec_fabTakeover hp hi) (takeover_pending hb h hr) ⟨rfl, rfl, rfl, rfl⟩
  · refine .of_next (exec_takeoverApply hp hc hb h) ?_
    generalize ({ action := 0x0A, role := s.fab.takeBy.1, slot := s.fab.takeBy.2, aux := l } : JEntry) = e
    have hk := journal_kept (e := e) (Kept.refl [.mc, .int, .ptn, .ctx, .led, .lcs, .i3c] (lmnTaken s l c)) (Within.refl _)
    have hf : (journal (lmnTaken s l c) e).fab = (lmnTaken s l c).fab := hk.rest .fab (by decide)
    have hbell : (journal (lmnTaken s l c) e).bell = (lmnTaken s l c).bell := hk.rest .bell (by decide)
    have hsnp : (journal (lmnTaken s l c) e).snp = (lmnTaken s l c).snp := hk.rest .snp (by decide)
    rw [hf, hbell, hsnp]
    obtain ⟨hseq, hmem, -⟩ := journal_spec (lmnTaken s l c) e
    exact ⟨rfl, rfl, rfl, rfl, rfl, rfl, rfl, rfl, rfl, rfl, hseq, hmem⟩
  · exact .of_next (exec_takeoverApply_none hp hc hb h) ⟨rfl, rfl, rfl, rfl, rfl⟩
  · refine .of_next (exec_mapSelApply hp hc hb) ⟨?_, fun m hm => ?_, rfl, rfl⟩
    · dsimp only
      rw [tget_tmod_same]
    · dsimp only
      rw [tget_tmod_other hm]

end Sys2Proof.Machine
end


section
/-! SUPPORT. What the control port's transmitter leaves, and that a frame handed to it goes out or waits (R478-R480). -/

namespace Sys2Proof.Machine

variable {s u v : State} {c c' : CptBlk} {f g : CptFrame} {n : Nat}

/-! ### The transmitter on the port's record -/

/-- The control port without what its transmitter changes. -/
def cptRest (c : CptBlk) : CptBlk :=
  { c with tx := [], wait := [], idle := none, txSeq := 0, credC := 0, credB := 0, nakDue := false, told := 0, freedC := 0, freedB := 0 }

/-- A frame with the contents of `f`, whatever its number and its reverse fields. -/
def SameFrame (g f : CptFrame) : Prop :=
  g.ftype = f.ftype ∧ g.tag = f.tag ∧ g.session = f.session ∧ g.addr = f.addr ∧ g.arg = f.arg ∧ g.last = f.last
    ∧ g.isSealed = f.isSealed ∧ g.payload = f.payload

theorem SameFrame.refl (f : CptFrame) : SameFrame f f := ⟨rfl, rfl, rfl, rfl, rfl, rfl, rfl, rfl⟩

/-- The port has been handed the frame. -/
def HandedOver (c : CptBlk) (f : CptFrame) : Prop := ∃ g, (g ∈ c.tx ∨ g ∈ c.wait) ∧ SameFrame g f

theorem sent_iff : Sent s f ↔ HandedOver s.cpt f := Iff.rfl

/-- The port after one waiting frame has left. -/
def cptOne (c : CptBlk) (f : CptFrame) : CptBlk :=
  let d : CptBlk := { cptTold c with wait := eraseFirst (· == f) c.wait, tx := c.tx ++ [cptStamp c f], txSeq := wrap 16 (c.txSeq + 1) }
  if cptBulk f then { d with credB := d.credB - 1 } else { d with credC := d.credC - 1 }

theorem cptPumpGo_induct {P : CptBlk → Prop} (hP : ∀ d f, f ∈ d.wait → P d → P (cptOne d f)) (h : P c) : P (cptPumpGo n c) := by
  induction n generalizing c with
  | zero => exact h
  | succ n ih =>
    unfold cptPumpGo
    split
    · exact h
    split
    · exact h
    · next f hf => exact ih (hP c f (List.mem_of_find?_eq_some hf) h)

theorem cptRest_cptOne : cptRest (cptOne c f) = cptRest c := by
  unfold cptOne
  dsimp only
  split <;> dsimp only [cptRest, cptTold]

theorem cptRest_cptIdle : cptRest (cptIdle c) = cptRest c := by
  unfold cptIdle
  split
  · dsimp only [cptRest, cptTold]
  · rfl

theorem cptRest_cptPumpGo : cptRest (cptPumpGo n c) = cptRest c :=
  cptPumpGo_induct (P := fun d => cptRest d = cptRest c) (fun _ _ _ h => cptRest_cptOne.trans h) rfl

theorem sameFrame_cptStamp : SameFrame (cptStamp c f) f := ⟨rfl, rfl, rfl, rfl, rfl, rfl, rfl, rfl⟩

theorem SameFrame.trans {a b d : CptFrame} (h : SameFrame a b) (h' : SameFrame b d) : SameFrame a d := by
  obtain ⟨a1, a2, a3, a4, a5, a6, a7, a8⟩ := h
  obtain ⟨b1, b2, b3, b4, b5, b6, b7, b8⟩ := h'
  exact ⟨a1.trans b1, a2.trans b2, a3.trans b3, a4.trans b4, a5.trans b5, a6.trans b6, a7.trans b7, a8.trans b8⟩

theorem cptOne_tx : (cptOne c f).tx = c.tx ++ [cptStamp c f] := by
  unfold cptOne
  dsimp only
  split <;> rfl

theorem cptOne_wait : (cptOne c f).wait = eraseFirst (· == f) c.wait := by
  unfold cptOne
  dsimp only
  split <;> rfl

/-- A frame that waits, other than the one that leaves, still waits. -/
theorem eq_or_mem_eraseFirst {xs : List CptFrame} (h : g ∈ xs) : g = f ∨ g ∈ eraseFirst (· == f) xs := by
  induction xs with
  | nil => exact nomatch h
  | cons y ys ih =>
    unfold eraseFirst
    split
    · next hy =>
      rcases List.mem_cons.1 h with rfl | h
      · exact .inl (eq_of_beq hy)
      · exact .inr h
    · rcases List.mem_cons.1 h with rfl | h
      · exact .inr (List.mem_cons_self ..)
      · exact (ih h).imp id fun hm => List.mem_cons_of_mem _ hm

theorem handedOver_cptOne (h : HandedOver c g) : HandedOver (cptOne c f) g := by
  obtain ⟨x, hx, hs⟩ := h
  unfold HandedOver
  rw [cptOne_tx, cptOne_wait]
  rcases hx with hx | hx
  · exact ⟨x, .inl (List.mem_append_left _ hx), hs⟩
  · rcases eq_or_mem_eraseFirst (f := f) hx with rfl | hw
    · exact ⟨cptStamp c x, .inl (List.mem_append_right _ (List.mem_singleton_self _)), sameFrame_cptStamp.trans hs⟩
    · exact ⟨x, .inr hw, hs⟩

theorem cptIdle_tx_wait : (cptIdle c).tx = c.tx ∧ (cptIdle c).wait = c.wait ∧ (cptIdle c).credC = c.credC ∧ (cptIdle c).credB = c.credB := by
  unfold cptIdle
  split
  · dsimp only [cptTold]
    exact ⟨rfl, rfl, rfl, rfl⟩
  · exact ⟨rfl, rfl, rfl, rfl⟩

/-! ### The transmitter on the state -/

/-- Of the machine only what the port's transmitter changes has changed. -/
structure TxOnly (s u : State) : Prop where
  same : u = { s with cpt := u.cpt }
  rest : cptRest u.cpt = cptRest s.cpt
  handed : ∀ f, HandedOver s.cpt f → HandedOver u.cpt f

theorem TxOnly.refl (s : State) : TxOnly s s := ⟨rfl, rfl, fun _ h => h⟩

theorem TxOnly.trans (h : TxOnly s u) (h' : TxOnly u v) : TxOnly s v :=
  ⟨by rw [h'.same, h.same], h'.rest.trans h.rest, fun f hf => h'.handed f (h.handed f hf)⟩

/-- What the transmitter leaves of the port is the same. -/
theorem TxOnly.proj (h : TxOnly s u) {α : Type} (π : CptBlk → α) (hπ : ∀ c, π (cptRest c) = π c) : π u.cpt = π s.cpt := by
  rw [← hπ, h.rest, hπ]

/-- Every other part of the machine is the same. -/
theorem TxOnly.other (h : TxOnly s u) {α : Type} (π : State → α) (hπ : ∀ (s : State) c, π { s with cpt := c } = π s) : π u = π s := by
  rw [h.same, hπ]

theorem txOnly_cptPump : TxOnly s (cptPump s) := by
  unfold cptPump
  split
  · refine ⟨rfl, cptRest_cptIdle.trans cptRest_cptPumpGo, fun f hf => ?_⟩
    have h : HandedOver (cptPumpGo s.cpt.wait.length s.cpt) f :=
      cptPumpGo_induct (P := fun d => HandedOver d f) (fun _ _ _ h => handedOver_cptOne h) hf
    obtain ⟨x, hx, hs⟩ := h
    exact ⟨x, by rw [cptIdle_tx_wait.1, cptIdle_tx_wait.2.1]; exact hx, hs⟩
  · exact .refl s

theorem txOnly_wait : TxOnly s { s with cpt.wait := insertBy cptPrio f s.cpt.wait } :=
  ⟨rfl, rfl, fun _ ⟨x, hx, hs⟩ => ⟨x, hx.imp id fun hw => mem_insertBy.2 (.inr hw), hs⟩⟩

theorem txOnly_cptSend : TxOnly s (cptSend s f) := txOnly_wait.trans txOnly_cptPump

/-- A frame handed to the port goes out or waits. -/
theorem sent_cptSend : Sent (cptSend s f) f :=
  txOnly_cptPump.handed f ⟨f, .inr (mem_insertBy.2 (.inl rfl)), .refl f⟩

/-- A port with nothing waiting transmits no frame but an IDLE frame. -/
theorem cptPump_idle (h : s.cpt.wait = []) :
    (cptPump s).cpt.tx = s.cpt.tx ∧ (cptPump s).cpt.credC = s.cpt.credC ∧ (cptPump s).cpt.credB = s.cpt.credB := by
  unfold cptPump
  rw [h]
  split
  · exact ⟨cptIdle_tx_wait.1, cptIdle_tx_wait.2.2⟩
  · exact ⟨rfl, rfl, rfl⟩

theorem txOnly_forEach {α : Type} {h : State → α → CptFrame} {xs : List α} : TxOnly s (forEach xs (fun s x => cptSend s (h s x)) s) :=
  forEach_keeps (.refl s) fun _ _ _ hu => hu.trans txOnly_cptSend

end Sys2Proof.Machine
end


section
/-! SUPPORT and proof of the states and frames of the control link. -/

namespace Sys2Proof.Machine

variable {s u v : State} {f g : CptFrame} {n k : Nat} {act : State → State}

/-! ### The reverse-direction fields (R477, R479, R480, R490) -/

/-- The control port without its event queue. -/
def evRest (c : CptBlk) : CptBlk := { c with evq := [], evSent := 0, evLost := 0 }

theorem queueEvent_evRest {r : List Byte} : evRest (queueEvent s k r).cpt = evRest s.cpt := by
  unfold queueEvent
  split <;> rfl

theorem eventsAcked_evRest : evRest (eventsAcked s n).cpt = evRest s.cpt := by
  unfold eventsAcked
  dsimp only
  split
  · exact queueEvent_evRest
  · rfl

/-- A port that has taken a frame's acknowledgement and credits. -/
def cptReversed (c : CptBlk) (f : CptFrame) : CptBlk :=
  let rest := c.tx.filter (fun g => !seqAcked g.seq f.ackSeq)
  { c with
    tx := rest, replayRun := if rest.length < c.tx.length then 0 else c.replayRun,
    credC := if f.credClass then c.credC else min 32 (c.credC + f.credit),
    credB := if f.credClass then min 224 (c.credB + f.credit) else c.credB }

/-- The number of event records that a frame acknowledges. -/
def eventsIn (c : CptBlk) (f : CptFrame) : Nat :=
  sumNat (((c.tx.filter (fun g => seqAcked g.seq f.ackSeq && g.ftype == ftEvent)).map (fun g => g.payload.length / 64)))

/-- The state after a frame's acknowledgement, before a NAK in it. -/
def cptAcked (s : State) (f : CptFrame) : State :=
  let t := { s with cpt := cptReversed s.cpt f }
  if eventsIn s.cpt f = 0 then t else eventsAcked t (eventsIn s.cpt f)

theorem cptReverse_eq : cptReverse s f = if f.nak then cptNak (cptAcked s f) f.ackSeq else cptAcked s f := rfl

theorem cptAcked_evRest : evRest (cptAcked s f).cpt = evRest (cptReversed s.cpt f) := by
  unfold cptAcked
  dsimp only
  split
  · rfl
  · exact eventsAcked_evRest

/-- What an acknowledgement leaves of the port beside its event queue is that of the port that has taken it. -/
theorem cptAcked_proj {α : Type} (π : CptBlk → α) (hπ : ∀ c, π (evRest c) = π c) : π (cptAcked s f).cpt = π (cptReversed s.cpt f) := by
  rw [← hπ, cptAcked_evRest, hπ]

/-- A NAK changes the port's link state and its counts of replays only. -/
theorem cptNak_proj {α : Type} (π : CptBlk → α) (hπ : ∀ c a b d e l, π { c with replays := a, replayOf := b, replayRun := d, relink := e, lstate := l } = π c) :
    π (cptNak s k).cpt = π s.cpt := by
  unfold cptNak
  dsimp only
  generalize (if s.cpt.replayOf = wrap 16 (k + 1) then s.cpt.replayRun + 1 else 1) = run
  split
  · exact hπ s.cpt _ _ _ _ _
  · rw [raise_parts]
    exact hπ s.cpt _ _ _ _ _

theorem cptReverse_kept' : Kept [.mc, .int, .ptn, .ctx, .cpt, .i3c] s (cptReverse s f) := cptReverse_kept (Kept.refl _ s) (Within.refl _)

/-- The reverse fields of a frame leave what the port has received. -/
theorem cptReverse_received : (cptReverse s f).cpt.rxSeq = s.cpt.rxSeq ∧ (cptReverse s f).cpt.errRes = s.cpt.errRes := by
  have h1 : (cptAcked s f).cpt.rxSeq = s.cpt.rxSeq := cptAcked_proj CptBlk.rxSeq (fun _ => rfl)
  have h2 : (cptAcked s f).cpt.errRes = s.cpt.errRes := cptAcked_proj CptBlk.errRes (fun _ => rfl)
  rw [cptReverse_eq]
  split
  · exact ⟨(cptNak_proj CptBlk.rxSeq (fun _ _ _ _ _ _ => rfl)).trans h1, (cptNak_proj CptBlk.errRes (fun _ _ _ _ _ _ => rfl)).trans h2⟩
  · exact ⟨h1, h2⟩

/-! ### Frames in their turn (R477, R479) -/

/-- A frame has taken its place in the order of SEQ. -/
def cptAdvance (s : State) (f : CptFrame) : State :=
  { s with cpt := { s.cpt with
    rxSeq := f.seq, discarding := false, freedC := if cptBulk f then s.cpt.freedC else s.cpt.freedC + 1,
    freedB := if cptBulk f then s.cpt.freedB + 1 else s.cpt.freedB } }

theorem cptTaken_eq : cptTaken s f = cptAdvance (cptReverse s f) f := rfl

theorem cptInTurn_turn (h : f.seq = wrap 16 (s.cpt.rxSeq + 1)) : cptInTurn s f act = act (cptAdvance s f) := if_neg (not_not.2 h)

/-- A sound frame in its turn has its effect, and the port transmits what it can. -/
theorem cptFrameIn_turn (h : CptTurn s f) (h0 : f.ftype ≠ 0) (h15 : f.ftype < 15) : cptFrameIn s f act = cptPump (act (cptTaken s f)) := by
  obtain ⟨hup, hcrc, hlen, hr, hseq⟩ := h
  have hs : f.seq = wrap 16 ((cptReverse s f).cpt.rxSeq + 1) := by rw [cptReverse_received.1, hseq]
  unfold cptFrameIn
  simp only [hup, hcrc, hr, Bool.not_true, Bool.false_eq_true, if_false, decide_eq_false (not_lt.2 hlen), decide_eq_false (not_le.2 h15), Bool.or_false,
    bne_self_eq_false, if_neg h0, ftIdle, ne_eq, not_true_eq_false]
  rw [cptInTurn_turn hs, cptTaken_eq]

/-- Of a frame of a type beyond those defined nothing is acted on but its number (R13). -/
theorem cptFrameIn_beyond (h : CptTurn s f) (h15 : 15 ≤ f.ftype) : cptFrameIn s f act = cptPump (act (cptAdvance s f)) := by
  obtain ⟨hup, hcrc, hlen, hr, hseq⟩ := h
  have h0 : f.ftype ≠ 0 := by omega
  unfold cptFrameIn
  simp only [hup, hcrc, hr, Bool.not_true, Bool.false_eq_true, if_false, decide_eq_false (not_lt.2 hlen), decide_eq_true h15, Bool.or_true, Bool.or_false,
    bne_self_eq_false, if_neg h0, ftIdle, ne_eq, not_true_eq_false, if_true]
  rw [cptInTurn_turn hseq]

/-- A frame of a type that is served (R494). -/
theorem cptTake_turn {type : Nat} {inRecovery : Bool} (h : CptTurn s f) (ht : f.ftype = type) (h0 : type ≠ 0) (h15 : type < 15)
    (hr : s.mod.recovery = false ∨ inRecovery = true) : cptTake s f type inRecovery act = cptPump (act (cptTaken s f)) := by
  have hm : (cptTaken s f).mod = s.mod := cptReverse_kept'.rest .mod (by decide)
  have hc : ¬ ((cptTaken s f).mod.recovery && !inRecovery) = true := by
    rw [hm]
    rcases hr with hr | hr <;> simp [hr]
  refine (if_neg (not_not.2 ht)).trans ((cptFrameIn_turn h (by omega) (by omega)).trans ?_)
  rw [if_neg hc]

/-! ### The link comes up and goes down (R481, R488) -/

/-- The port enters UP with a new link. -/
def linkUp (s : State) : State := { s with
  cpt := { s.cpt with
    lstate := 2, clkLost := false, rxSeq := 0xFFFF, told := 0xFFFF, txSeq := 0, tx := [], wait := [], idle := none,
    credC := 32, credB := 224, freedC := 0, freedB := 0, nakDue := false, discarding := false, replayRun := 0, evSent := 0 }
  vat.fetches := s.vat.fetches.map (fun f => { f with data := [] }) }

/-- FETCH_REQ of an open fetch (R487). -/
def fetchReq (s : State) (f : VFetch) : CptFrame :=
  { ftype := ftFetchReq, addr := f.adapter + 2 ^ 24 * f.slot + 2 ^ 40 * f.gen + 2 ^ 48 * f.ctx, arg := f.seq,
    payload := leBytes 4 (match slotAt? s f.slot with | some v => v.len | none => 0) }

theorem cptEnterUp_new (h : s.cpt.relink = false) :
    cptEnterUp s = forEach s.vat.fetches (fun s f => cptSend s (fetchReq s f)) (linkUp s) :=
  if_neg (by rw [h]; exact Bool.false_ne_true)

/-- Each of the frames that are handed to the port one after the other goes out or waits. -/
theorem sent_forEach {α : Type} {h : State → α → CptFrame} {xs : List α} {x : α} (hx : x ∈ xs) (hh : ∀ u, TxOnly s u → h u x = f) :
    Sent (forEach xs (fun s x => cptSend s (h s x)) s) f := by
  induction xs generalizing s with
  | nil => exact nomatch hx
  | cons y ys ih =>
    rw [forEach_cons]
    rcases List.mem_cons.1 hx with rfl | hx
    · have hs : Sent (cptSend s (h s x)) f := by
        rw [hh s (.refl s)]
        exact sent_cptSend
      exact (txOnly_forEach (xs := ys)).handed f hs
    · exact ih hx fun u hu => hh u (txOnly_cptSend.trans hu)

theorem fetchReq_txOnly {w : VFetch} (h : TxOnly s u) : fetchReq u w = fetchReq s w := by
  unfold fetchReq
  rw [h.other (fun s => slotAt? s w.slot) (fun _ _ => rfl)]

theorem fetchReq_linkUp {w : VFetch} : fetchReq (linkUp s) w = fetchReq s w := rfl

/-- The port has lost its link while `k` bulk writes were open. -/
def linkLost (s : State) (k : Nat) : State := { s with
  cpt := { s.cpt with
    lstate := 3, downSeen := true, tx := [], wait := [], idle := none, evSent := 0, bulk := [],
    bulkAbort := satAdd 16 s.cpt.bulkAbort k }
  ses.open_ := [], ses.chals := [] }

theorem cptDown_eq : cptDown s =
    raise (linkLost (forEach (s.cpt.bulk.filter (fun b => !b.answered && b.status.isNone)) bulkScrub s)
      (s.cpt.bulk.filter (fun b => !b.answered && b.status.isNone)).length) .cptLinkDown cptAt := rfl

theorem cptDown_open : (forEach (s.cpt.bulk.filter (fun b => !b.answered && b.status.isNone)) bulkScrub s).cpt = s.cpt
    ∧ (forEach (s.cpt.bulk.filter (fun b => !b.answered && b.status.isNone)) bulkScrub s).vat = s.vat := by
  have hk : Kept [.mem, .memKey, .memErr, .tags, .resv, .mc, .core, .int, .ptn, .ctx, .i3c] s
      (forEach (s.cpt.bulk.filter (fun b => !b.answered && b.status.isNone)) bulkScrub s) :=
    forEach_kept (Kept.refl _ s) fun _ _ h => bulkScrub_kept h (Within.refl _)
  exact ⟨hk.rest .cpt (by decide), hk.rest .vat (by decide)⟩

/-! ### Sending events and marks (R490, R493) -/

/-- The EVENT frame of the records that no frame carries yet. -/
def eventFrame (rs : List (Nat × List Byte)) : CptFrame :=
  { ftype := ftEvent, addr := rs.foldr (fun r acc => acc * 16 + r.1 % 16) 0, payload := (rs.map (fun r => slice r.2 0 64)).flatten }

theorem exec_eventSend (hup : cptUp s = true) (h : (s.cpt.evq.drop s.cpt.evSent).take 16 ≠ []) : exec .eventSend s =
    .next (cptSend { s with cpt.evSent := s.cpt.evSent + ((s.cpt.evq.drop s.cpt.evSent).take 16).length }
      (eventFrame ((s.cpt.evq.drop s.cpt.evSent).take 16))) :=
  congrArg Host.Outcome.next (if_neg (by rw [hup, List.isEmpty_eq_false_iff.2 h]; simp))

/-- The BELL_MARK of this Bell. -/
def bellMark (s : State) : State :=
  cptSend { (draw s 4).2 with cpt.lastMark := some s.bell.count } { ftype := ftBellMark, addr := s.bell.count, arg := leNat (draw s 4).1 }

theorem exec_bellMark (hup : cptUp s = true) (hc : counting s = true) (h : ∀ b, s.cpt.lastMark = some b → b + 1024 ≤ s.bell.count) :
    exec .bellMark s = .next (bellMark s) := by
  refine congrArg Host.Outcome.next (if_neg ?_)
  rw [hup, hc]
  cases hm : s.cpt.lastMark with
  | none => simp
  | some b => simp [h b hm]

/-! ### The statement -/

/-- Settles O47: the link's states, then each kind of frame by what it leaves of the port's record. -/
theorem controlLink : Obligations.ControlLink := by
  unfold Obligations.ControlLink
  intro s
  refine ⟨fun c o hc ht => ?train, fun hup => ?down, fun hup => ?bad, fun f hup h0 hcrc hpl hr hnak hw => ?idle, fun f hturn hres => ?reserved,
    fun h2 hst => ?ref, fun hup hne => ?events, fun hup hcnt hdue => ?mark⟩
  case train =>
    have hx : exec c s = .next (cptTrain s o) := by
      rcases hc with ⟨rfl, hl⟩ | ⟨rfl, hl⟩
      · exact congrArg Host.Outcome.next (if_pos (by simp [ht, hl]))
      · exact congrArg Host.Outcome.next (if_pos (by simp [ht, hl]))
    refine ⟨fun ho => ?_, fun ho => ?_, fun ho hrel => ?_⟩
    · subst ho
      exact .of_next hx rfl
    · subst ho
      exact .of_next hx rfl
    · subst ho
      have hf := txOnly_forEach (s := linkUp s) (h := fetchReq) (xs := s.vat.fetches)
      refine .of_eq hx (cptEnterUp_new hrel) ⟨hf.proj CptBlk.lstate (fun _ => rfl), hf.proj CptBlk.rxSeq (fun _ => rfl),
        hf.proj CptBlk.evSent (fun _ => rfl), hf.proj CptBlk.evq (fun _ => rfl), hf.other State.mem (fun _ _ => rfl), fun f hm => ?_⟩
      exact sent_forEach hm fun u hu => (fetchReq_txOnly hu).trans fetchReq_linkUp
  case down =>
    obtain ⟨hc, hv⟩ := cptDown_open (s := s)
    refine .of_eq rfl ((if_pos hup).trans cptDown_eq) ⟨?_, ?_, ?_, ?_, ?_, ?_, ?_, ?_, raise_lastCode ..⟩
    all_goals rw [raise_parts]
    all_goals dsimp only [linkLost]
    · rw [hc]
    · exact hv
  case bad =>
    have hk := txOnly_cptPump (s := { s with cpt := { s.cpt with nakDue := true, discarding := true } })
    exact .of_eq rfl (if_pos hup) ⟨hk.proj CptBlk.discarding (fun _ => rfl), hk.proj CptBlk.rxSeq (fun _ => rfl),
      hk.other State.mem (fun _ _ => rfl), hk.other State.ses (fun _ _ => rfl)⟩
  case idle =>
    have hx : exec (.cptIdleFrameReceive (some f)) s = .next (cptPump (cptAcked s f)) := by
      refine congrArg Host.Outcome.next ((if_pos (.inl h0)).trans ?_)
      unfold cptFrameIn
      simp [hup, hcrc, hpl, hr, h0, ftIdle, cptReverse_eq, hnak]
    have hw' : (cptAcked s f).cpt.wait = [] := (cptAcked_proj CptBlk.wait (fun _ => rfl)).trans hw
    obtain ⟨htx, hcc, hcb⟩ := cptPump_idle hw'
    have hk := txOnly_cptPump (s := cptAcked s f)
    have hm : (cptAcked s f).mem = s.mem := by
      have := (cptReverse_kept' (s := s) (f := f)).rest .mem (by decide)
      rwa [cptReverse_eq, hnak] at this
    exact .of_next hx ⟨htx.trans (cptAcked_proj CptBlk.tx (fun _ => rfl)),
      (hk.proj CptBlk.rxSeq (fun _ => rfl)).trans (cptAcked_proj CptBlk.rxSeq (fun _ => rfl)),
      hcc.trans (cptAcked_proj CptBlk.credC (fun _ => rfl)), hcb.trans (cptAcked_proj CptBlk.credB (fun _ => rfl)),
      (hk.other State.mem (fun _ _ => rfl)).trans hm⟩
  case reserved =>
    have h0 : f.ftype ≠ 0 := fun h => by simp [cptReserved, h] at hres
    have h1 : f.ftype ≠ 1 := fun h => by simp [cptReserved, h] at hres
    have hx : exec (.cptIdleFrameReceive (some f)) s = .next (cptFrameIn s f cptErrRes) :=
      congrArg Host.Outcome.next ((if_neg (not_or.2 ⟨h0, h1⟩)).trans (if_pos hres))
    by_cases h15 : 15 ≤ f.ftype
    · rw [cptFrameIn_beyond hturn h15] at hx
      have hk := txOnly_cptPump (s := cptErrRes (cptAdvance s f))
      refine .of_next hx ⟨hk.proj CptBlk.errRes (fun _ => rfl), hk.proj CptBlk.rxSeq (fun _ => rfl), hk.other State.mem (fun _ _ => rfl),
        fun _ hw => ?_⟩
      exact cptPump_idle (s := cptErrRes (cptAdvance s f)) hw
    · rw [cptFrameIn_turn hturn h0 (not_le.1 h15)] at hx
      have hk := txOnly_cptPump (s := cptErrRes (cptTaken s f))
      refine .of_next hx ⟨?_, hk.proj CptBlk.rxSeq (fun _ => rfl), ?_, fun h => absurd h h15⟩
      · refine (hk.proj CptBlk.errRes (fun _ => rfl)).trans ?_
        exact congrArg (satInc 16) cptReverse_received.2
      · exact (hk.other State.mem (fun _ _ => rfl)).trans (cptReverse_kept'.rest .mem (by decide))
  case ref =>
    refine .of_eq rfl (if_pos ⟨h2, hst⟩) ⟨?_, ?_, ?_, raise_lastCode ..⟩
    all_goals rw [raise_parts]
  case events =>
    have hk := txOnly_cptSend (s := { s with cpt.evSent := s.cpt.evSent + ((s.cpt.evq.drop s.cpt.evSent).take 16).length })
      (f := eventFrame ((s.cpt.evq.drop s.cpt.evSent).take 16))
    exact .of_next (exec_eventSend hup hne) ⟨hk.proj CptBlk.evSent (fun _ => rfl), hk.proj CptBlk.evq (fun _ => rfl), _, sent_cptSend⟩
  case mark =>
    have hk := txOnly_cptSend (s := { (draw s 4).2 with cpt.lastMark := some s.bell.count })
      (f := { ftype := ftBellMark, addr := s.bell.count, arg := leNat (draw s 4).1 })
    exact .of_next (exec_bellMark hup hcnt hdue) ⟨hk.proj CptBlk.lastMark (fun _ => rfl), _, sent_cptSend⟩

end Sys2Proof.Machine
end


section
/-! SUPPORT and proof of the register requests and of the fetch service. -/

namespace Sys2Proof.Machine

variable {s u v w : State} {f g : CptFrame} {n k seq : Nat} {env : RegEnv} {who : Req}

/-! ### What a taken frame leaves (R477) -/

theorem cptTaken_kept : Kept [.mc, .int, .ptn, .ctx, .cpt, .i3c] s (cptTaken s f) := cptReverse_kept'.set_cpt (by decide)

theorem cptTaken_mem : (cptTaken s f).mem = s.mem := cptTaken_kept.rest .mem (by decide)
theorem cptTaken_vat : (cptTaken s f).vat = s.vat := cptTaken_kept.rest .vat (by decide)
theorem cptTaken_ses : (cptTaken s f).ses = s.ses := cptTaken_kept.rest .ses (by decide)
theorem cptTaken_lcs : (cptTaken s f).lcs = s.lcs := cptTaken_kept.rest .lcs (by decide)

/-- What is done and then sent, the port transmitting what it can. -/
theorem txOnly_sendPump : TxOnly s (cptPump (cptSend s f)) := txOnly_cptSend.trans txOnly_cptPump

theorem sent_sendPump : Sent (cptPump (cptSend s f)) f := txOnly_cptPump.handed f sent_cptSend

/-! ### REG_REQ (R482, R502) -/

/-- The REG_RSP with the entries of a request's accesses. -/
def regRspFrame (f : CptFrame) (rs : List Nat) : CptFrame :=
  { ftype := 3, tag := f.tag, session := f.session, payload := (rs.map (leBytes 8)).flatten }

/-- The effect of a REG_REQ (R482). -/
def regReqAct (f : CptFrame) (env : RegEnv) (s : State) : State :=
  if !regReqOk f.payload then cptErrRes s
  else match frameWho s f with
  | none => cptSend s (regRspFrame f ((accessesOf f.payload).map (fun a => acAnswer a .role (acValue a))))
  | some who => cptSend (doAccesses who env (accessesOf f.payload) s).1 (regRspFrame f (doAccesses who env (accessesOf f.payload) s).2)

theorem exec_regReq (h : CptTurn s f) (ht : f.ftype = 2) : exec (.regReq f env) s = .next (cptPump (regReqAct f env (cptTaken s f))) :=
  congrArg Host.Outcome.next (cptTake_turn h ht (by decide) (by decide) (.inr rfl))

theorem regReqAct_stranger (hok : regReqOk f.payload = true) (hw : frameWho v f = none) : regReqAct f env v =
    cptSend v (regRspFrame f ((accessesOf f.payload).map (fun a => acAnswer a .role (acValue a)))) := by
  rw [regReqAct, if_neg (by rw [hok]; exact Bool.false_ne_true), hw]

theorem regReqAct_open (hok : regReqOk f.payload = true) (hw : frameWho v f = some who) : regReqAct f env v =
    cptSend (doAccesses who env (accessesOf f.payload) v).1 (regRspFrame f (doAccesses who env (accessesOf f.payload) v).2) := by
  rw [regReqAct, if_neg (by rw [hok]; exact Bool.false_ne_true), hw]

theorem regReqAct_reserved (hok : regReqOk f.payload = false) : regReqAct f env v = cptErrRes v := if_pos (by rw [hok]; rfl)

theorem regRequests (h : CptTurn s f) (ht : f.ftype = 2) :
    let v := cptTaken s f
    let as := accessesOf f.payload
    let answer (rs : List Nat) : CptFrame := { ftype := 3, tag := f.tag, session := f.session, payload := (rs.map (leBytes 8)).flatten }
    (regReqOk f.payload = true → frameWho v f = none → Completes (.regReq f env) s (fun u => u.mem = s.mem ∧ u.lcs = v.lcs
        ∧ u.mod = v.mod ∧ u.rc = v.rc ∧ Sent u (answer (as.map (fun a => acAnswer a .role (acValue a))))))
    ∧ (∀ who, regReqOk f.payload = true → frameWho v f = some who → Completes (.regReq f env) s (fun u =>
        let r := doAccesses who env as v
        u.mem = r.1.mem ∧ u.lcs = r.1.lcs ∧ u.ptn = r.1.ptn ∧ u.bell = r.1.bell ∧ Sent u (answer r.2)))
    ∧ (regReqOk f.payload = false → Completes (.regReq f env) s (fun u => u.mem = s.mem ∧ u.cpt.errRes = satInc 16 s.cpt.errRes)) := by
  have hx := exec_regReq (env := env) h ht
  refine ⟨fun hok hw => ?_, fun who hok hw => ?_, fun hok => ?_⟩
  · rw [regReqAct_stranger hok hw] at hx
    exact .of_next hx ⟨(txOnly_sendPump.other State.mem (fun _ _ => rfl)).trans cptTaken_mem, txOnly_sendPump.other State.lcs (fun _ _ => rfl),
      txOnly_sendPump.other State.mod (fun _ _ => rfl), txOnly_sendPump.other State.rc (fun _ _ => rfl), sent_sendPump⟩
  · rw [regReqAct_open hok hw] at hx
    exact .of_next hx ⟨txOnly_sendPump.other State.mem (fun _ _ => rfl), txOnly_sendPump.other State.lcs (fun _ _ => rfl),
      txOnly_sendPump.other State.ptn (fun _ _ => rfl), txOnly_sendPump.other State.bell (fun _ _ => rfl), sent_sendPump⟩
  · rw [regReqAct_reserved hok] at hx
    have hp := txOnly_cptPump (s := cptErrRes (cptTaken s f))
    refine .of_next hx ⟨(hp.other State.mem (fun _ _ => rfl)).trans cptTaken_mem, (hp.proj CptBlk.errRes (fun _ => rfl)).trans ?_⟩
    exact congrArg (satInc 16) cptReverse_received.2

/-! ### The fetch service (R159, R161, R487, R488) -/

/-- The effect of a FETCH_DATA with FETCH_SEQ `seq` (R159). -/
def fetchDataAct (f : CptFrame) (seq : Nat) (s : State) : State :=
  match openFetch s (bits f.addr 24 16) (bits f.addr 40 8) seq with
  | none => { s with vat.stale := satInc 32 s.vat.stale }
  | some v =>
    let d := v.data ++ f.payload
    let room := match slotAt? s v.slot with | some x => x.len + 32 | none => 0
    if f.arg ≠ v.data.length ∨ room < d.length then fetchFail s v
    else
      let w := { v with data := d }
      let s := { s with vat.fetches := modifyFirst (· == v) (fun _ => w) s.vat.fetches }
      if f.last then fetchEnd s w else s

theorem exec_fetchData (h : CptTurn s f) (hr : s.mod.recovery = false) (ht : f.ftype = 9) :
    exec (.fetchData f seq) s = .next (cptPump (fetchDataAct f seq (cptTaken s f))) :=
  congrArg Host.Outcome.next (cptTake_turn h ht (by decide) (by decide) (.inl hr))

/-- The effect of a FETCH_CTL (R161). -/
def fetchCtlAct (f : CptFrame) (s : State) : State :=
  match openFetch s (bits f.addr 24 16) (bits f.addr 40 8) f.arg with
  | none => { s with vat.stale := satInc 32 s.vat.stale }
  | some v => if f.payload.head? = some 1 then fetchFail s v else s

theorem exec_fetchCtl (h : CptTurn s f) (hr : s.mod.recovery = false) (ht : f.ftype = 10) :
    exec (.fetchCtl f) s = .next (cptPump (fetchCtlAct f (cptTaken s f))) :=
  congrArg Host.Outcome.next (cptTake_turn h ht (by decide) (by decide) (.inl hr))

/-- An open fetch that has taken a frame's bytes. -/
def fetchedMore (s : State) (x : VFetch) (bs : List Byte) : State :=
  { s with vat.fetches := modifyFirst (· == x) (fun _ => { x with data := x.data ++ bs }) s.vat.fetches }

variable {x : VFetch} {y : VSlot}

theorem fetchDataAct_unknown (h : openFetch v (bits f.addr 24 16) (bits f.addr 40 8) seq = none) :
    fetchDataAct f seq v = { v with vat.stale := satInc 32 v.vat.stale } := by rw [fetchDataAct, h]

theorem fetchDataAct_gap (h : openFetch v (bits f.addr 24 16) (bits f.addr 40 8) seq = some x) (ha : f.arg ≠ x.data.length) :
    fetchDataAct f seq v = fetchFail v x := by
  rw [fetchDataAct, h]
  exact if_pos (.inl ha)

theorem fetchDataAct_more (h : openFetch v (bits f.addr 24 16) (bits f.addr 40 8) seq = some x) (hy : slotAt? v x.slot = some y)
    (ha : f.arg = x.data.length) (hl : (x.data ++ f.payload).length ≤ y.len + 32) : fetchDataAct f seq v =
      if f.last then fetchEnd (fetchedMore v x f.payload) { x with data := x.data ++ f.payload } else fetchedMore v x f.payload := by
  rw [fetchDataAct, h]
  dsimp only
  rw [hy, if_neg (not_or.2 ⟨not_not.2 ha, not_lt.2 hl⟩)]
  rfl

/-- A frame of the fetch service that names no open fetch is dropped and counted. -/
theorem staleCounted : (cptPump { cptTaken s f with vat.stale := satInc 32 (cptTaken s f).vat.stale }).vat =
      { s.vat with stale := satInc 32 s.vat.stale }
    ∧ (cptPump { cptTaken s f with vat.stale := satInc 32 (cptTaken s f).vat.stale }).mem = s.mem := by
  have hp := txOnly_cptPump (s := { cptTaken s f with vat.stale := satInc 32 (cptTaken s f).vat.stale })
  refine ⟨(hp.other State.vat (fun _ _ => rfl)).trans ?_, (hp.other State.mem (fun _ _ => rfl)).trans cptTaken_mem⟩
  dsimp only
  rw [cptTaken_vat]

/-- Settles O48: a frame in its turn has its effect on the state in which the port has taken it. -/
theorem requestsAndFetches : Obligations.RequestsAndFetches := by
  unfold Obligations.RequestsAndFetches
  refine ⟨fun s f env h ht => regRequests h ht, fun s f seq h hr => ?_⟩
  refine ⟨fun ht ho => ?_, fun x y ht ho hy ha hl => ⟨fun hlast => ?_, fun hlast => ?_⟩, fun x ht ho ha => ?_, fun ht ho => ?_, fun x ht ho h1 => ?_⟩
  · have hx := exec_fetchData (seq := seq) h hr ht
    rw [fetchDataAct_unknown ho] at hx
    exact .of_next hx staleCounted
  · have hx := exec_fetchData (seq := seq) h hr ht
    rw [fetchDataAct_more ho hy ha hl, hlast, if_neg Bool.false_ne_true] at hx
    have hp := txOnly_cptPump (s := fetchedMore (cptTaken s f) x f.payload)
    exact .of_next hx ⟨hp.other State.vat (fun _ _ => rfl), (hp.other State.mem (fun _ _ => rfl)).trans cptTaken_mem⟩
  · have hx := exec_fetchData (seq := seq) h hr ht
    rw [fetchDataAct_more ho hy ha hl, hlast, if_pos rfl] at hx
    exact .of_next hx rfl
  · have hx := exec_fetchData (seq := seq) h hr ht
    rw [fetchDataAct_gap ho ha] at hx
    exact .of_next hx rfl
  · have hx := exec_fetchCtl h hr ht
    rw [fetchCtlAct, ho] at hx
    exact .of_next hx staleCounted
  · have hx := exec_fetchCtl h hr ht
    rw [fetchCtlAct, ho] at hx
    dsimp only at hx
    rw [if_pos h1] at hx
    exact .of_next hx rfl

end Sys2Proof.Machine
end


section
/-! SUPPORT and proof of the bulk transfers. -/

namespace Sys2Proof.Machine

variable {s u v w : State} {f g : CptFrame} {st : Nat} {who : Req} {b : BulkWr} {p : Place} {bs : List Byte}

/-! ### Bulk writes (R484, R485) -/

/-- The bytes of a frame's bulk transfer (R484). -/
def bulkLen (f : CptFrame) : Nat := 64 * (bits f.arg 0 20 + 1)

/-- The bulk write that a first frame opens. -/
def bulkOpened (f : CptFrame) : BulkWr :=
  { tag := f.tag, addr := f.addr, len := bulkLen f, ctx := bits f.arg 20 12, isSealed := f.isSealed,
    ksel := if f.isSealed then field f.payload 12 2 else 0 }

theorem exec_bulkWr_first (h : CptTurn s f) (hr : s.mod.recovery = false) (ht : f.ftype = 4)
    (hn : (cptTaken s f).cpt.bulk.find? (fun b => b.tag == f.tag) = none) :
    exec (.bulkWr f) s = .next (cptPump (bulkStart (cptTaken s f) f)) := by
  refine congrArg Host.Outcome.next ((cptTake_turn h ht (by decide) (by decide) (.inl hr)).trans ?_)
  rw [hn]

theorem bulkStart_refused (hw : frameWho v f = some who) (hc : bulkCheck v who f (bulkLen f) (bits f.arg 20 12) = some st) :
    bulkStart v f = bulkRefuse (if st = bkRind then bulkRind v (bulkOpened f) else v) (bulkOpened f) f.last st := by
  unfold bulkStart
  rw [hw]
  unfold bulkLen at hc
  dsimp only
  rw [hc]
  rfl

theorem bulkStart_stranger (hw : frameWho v f = none) : bulkStart v f =
    bulkStep (putBulk v f.tag (some { bulkOpened f with status := some bkRole })) { bulkOpened f with status := some bkRole } f := by
  unfold bulkStart
  rw [hw]
  rfl

theorem bulkStart_open (hw : frameWho v f = some who) (hc : bulkCheck v who f (bulkLen f) (bits f.arg 20 12) = none) :
    bulkStart v f = bulkStep (putBulk v f.tag (some (bulkOpened f))) (bulkOpened f) f := by
  unfold bulkStart
  rw [hw]
  unfold bulkLen at hc
  dsimp only
  rw [hc]
  rfl

theorem bulkStep_refused (ha : b.answered = false) (hs : b.status = some st) (hl : f.last = true) :
    bulkStep v b f = bulkRsp (putBulk v b.tag none) b.tag st := by
  unfold bulkStep
  rw [ha, hs, hl]
  rfl

/-- The only frame of a bulk write that carries all its bytes. -/
theorem bulkStep_whole (ha : b.answered = false) (hs : b.status = none) (hd : b.data = []) (hl : f.last = true)
    (hn : f.payload.length = b.total) : bulkStep v b f =
      if b.isSealed then
        bulkRsp (putBulk (sealedEnd (plainStore v b f.payload) { b with data := f.payload }).1 b.tag none) b.tag
          (sealedEnd (plainStore v b f.payload) { b with data := f.payload }).2
      else bulkRsp (putBulk (plainStore v b f.payload) b.tag none) b.tag bkOk := by
  have hlen : b.data.length + f.payload.length = b.total := by rw [hd, List.length_nil, Nat.zero_add, hn]
  unfold bulkStep
  rw [ha, hs]
  dsimp only
  rw [if_neg Bool.false_ne_true, if_neg (by rw [hlen]; simp), hl, hd, List.nil_append]
  rfl

theorem plainStore_plain (hs : b.isSealed = false) (hd : b.data = []) (hne : bs ≠ []) (hp : bulkPlace v b.addr bs.length = some p) :
    plainStore v b bs = bulkStore v .own p bs := by
  unfold plainStore
  rw [hs, hd, List.length_nil, Nat.add_zero, hp, List.isEmpty_eq_false_iff.2 hne]
  rfl

theorem plainStore_sealed (hs : b.isSealed = true) : plainStore v b bs = v := if_pos (by rw [hs]; rfl)

/-- What opens of a sealed bulk write (R520). -/
def bulkOpens (s : State) (b : BulkWr) : Option (List Byte) :=
  openGcm (bulkKey s b) (b.data.take 12) (bulkAad "SV44-BULKW" b.addr b.len b.ksel) (b.data.drop 16)

theorem sealedEnd_fails (h : bulkOpens v b = none) : sealedEnd v b = (bulkScrub v b, bkTagFail) := by
  unfold bulkOpens at h
  rw [sealedEnd, h]

theorem sealedEnd_opens (h : bulkOpens v b = some bs) (hp : bulkPlace v b.addr b.len = some p) :
    sealedEnd v b = (bulkStore v (bulkWay v b) p (slice bs 0 b.len), bkOk) := by
  unfold bulkOpens at h
  rw [sealedEnd, h]
  dsimp only
  rw [hp]

/-- A bulk write is answered, memory staying as it was. -/
theorem bulkAnswered {tag : Nat} {x : Option BulkWr} :
    (cptPump (bulkRsp (putBulk w b.tag x) tag st)).mem = w.mem
    ∧ Sent (cptPump (bulkRsp (putBulk w b.tag x) tag st)) { ftype := 7, tag := tag, arg := st } :=
  ⟨txOnly_sendPump.other State.mem (fun _ _ => rfl), sent_sendPump⟩

/-! ### Bulk reads (R486) -/

/-- The effect of a BULK_RD_REQ (R486). -/
def bulkReadAct (f : CptFrame) (s : State) : State :=
  match frameWho s f with
  | none => bulkRsp s f.tag bkRole
  | some who =>
    match readCheck s who f (bulkLen f) (bits f.arg 20 12) with
    | some st => bulkRsp s f.tag st
    | none =>
      let r := bulkFetch s f (bulkLen f) (bits f.arg 20 12)
      let q := if f.isSealed then sealRead r.1 f (bulkLen f) (bits f.arg 20 12) r.2 else r
      bulkRsp (forEach (bulkDataFrames f q.2) cptSend q.1) f.tag bkOk

theorem exec_bulkRead (h : CptTurn s f) (hr : s.mod.recovery = false) (ht : f.ftype = 5) :
    exec (.bulkRdReq f) s = .next (cptPump (bulkReadAct f (cptTaken s f))) :=
  congrArg Host.Outcome.next (cptTake_turn h ht (by decide) (by decide) (.inl hr))

theorem bulkReadAct_refused (hw : frameWho v f = some who) (hc : readCheck v who f (bulkLen f) (bits f.arg 20 12) = some st) :
    bulkReadAct f v = bulkRsp v f.tag st := by
  rw [bulkReadAct, hw]
  dsimp only
  rw [hc]

theorem bulkReadAct_plain (hw : frameWho v f = some who) (hc : readCheck v who f (bulkLen f) (bits f.arg 20 12) = none)
    (hs : f.isSealed = false) : bulkReadAct f v =
      bulkRsp (forEach (bulkDataFrames f (bulkFetch v f (bulkLen f) (bits f.arg 20 12)).2) cptSend
        (bulkFetch v f (bulkLen f) (bits f.arg 20 12)).1) f.tag bkOk := by
  rw [bulkReadAct, hw]
  dsimp only
  rw [hc, hs]
  rfl

/-- A bulk read's plaintext sealed (R520). -/
def bulkSealed (v : State) (f : CptFrame) : State × List Byte :=
  sealRead (bulkFetch v f (bulkLen f) (bits f.arg 20 12)).1 f (bulkLen f) (bits f.arg 20 12) (bulkFetch v f (bulkLen f) (bits f.arg 20 12)).2

theorem bulkReadAct_sealed (hw : frameWho v f = some who) (hc : readCheck v who f (bulkLen f) (bits f.arg 20 12) = none)
    (hs : f.isSealed = true) : bulkReadAct f v =
      bulkRsp (forEach (bulkDataFrames f (bulkSealed v f).2) cptSend (bulkSealed v f).1) f.tag bkOk := by
  rw [bulkReadAct, hw]
  dsimp only
  rw [hc, hs]
  rfl

/-- The frames of a read go out or wait, and its answer behind them. -/
theorem bulkReadSent {q : State} {gs : List CptFrame} {tag : Nat} :
    TxOnly q (cptPump (bulkRsp (forEach gs cptSend q) tag st))
    ∧ (∀ g ∈ gs, Sent (cptPump (bulkRsp (forEach gs cptSend q) tag st)) g)
    ∧ Sent (cptPump (bulkRsp (forEach gs cptSend q) tag st)) { ftype := 7, tag := tag, arg := st } := by
  have hf : TxOnly q (forEach gs cptSend q) := txOnly_forEach (h := fun _ g => g)
  refine ⟨hf.trans txOnly_sendPump, fun g hg => ?_, sent_sendPump⟩
  exact txOnly_sendPump.handed g (sent_forEach (h := fun _ g => g) hg fun _ _ => rfl)

/-- Settles O49: each bulk transfer by the state in which its frame is taken, and the answer that is handed to the port. -/
theorem bulkTransfers : Obligations.BulkTransfers := by
  unfold Obligations.BulkTransfers
  intro s f h hr v n ctx b rsp
  have hmem : v.mem = s.mem := cptTaken_mem
  refine ⟨fun who st ht hn hw hc => ?refused, fun ht hn hw hl => ?stranger, fun who p ht hn hw hc hs hl hlen hp => ?plain,
    fun who ht hn hw hc hs hl hlen => ?sealed, fun who st ht hw hc => ?readRefused, fun who ht hw hc hs => ?readPlain,
    fun who ht hw hc hs => ?readSealed⟩
  case refused =>
    refine .of_eq (exec_bulkWr_first h hr ht hn) (congrArg cptPump (bulkStart_refused hw hc)) ?_
    refine ⟨bulkAnswered.1.trans ?_, bulkAnswered.2⟩
    split
    · exact (raise_mem ..).trans hmem
    · exact hmem
  case stranger =>
    refine .of_eq (exec_bulkWr_first h hr ht hn) (congrArg cptPump ((bulkStart_stranger hw).trans (bulkStep_refused rfl rfl hl))) ?_
    exact ⟨bulkAnswered.1.trans hmem, bulkAnswered.2⟩
  case plain =>
    have hne : f.payload ≠ [] := fun he => by simp [he, n] at hlen
    have htot : (bulkOpened f).total = bulkLen f := if_neg (by rw [bulkOpened, hs]; exact Bool.false_ne_true)
    have hst : plainStore (putBulk v f.tag (some (bulkOpened f))) (bulkOpened f) f.payload =
        bulkStore (putBulk v f.tag (some (bulkOpened f))) .own p f.payload :=
      plainStore_plain hs rfl hne (by rw [hlen]; exact hp)
    have hstep := bulkStep_whole (v := putBulk v f.tag (some (bulkOpened f))) (b := bulkOpened f) rfl rfl rfl hl (hlen.trans htot.symm)
    rw [if_neg (by rw [bulkOpened, hs]; exact Bool.false_ne_true), hst] at hstep
    exact .of_eq (exec_bulkWr_first h hr ht hn) (congrArg cptPump ((bulkStart_open hw hc).trans hstep)) ⟨bulkAnswered.1, bulkAnswered.2⟩
  case sealed =>
    intro w d opened
    have htot : (bulkOpened f).total = bulkLen f + 32 := if_pos hs
    have hstep := bulkStep_whole (v := w) (b := bulkOpened f) rfl rfl rfl hl (hlen.trans htot.symm)
    rw [if_pos (show (bulkOpened f).isSealed = true from hs), plainStore_sealed hs] at hstep
    refine ⟨fun ho => ?_, fun bs p ho hp => ?_⟩
    · rw [sealedEnd_fails (b := { bulkOpened f with data := f.payload }) ho] at hstep
      exact .of_eq (exec_bulkWr_first h hr ht hn) (congrArg cptPump ((bulkStart_open hw hc).trans hstep)) ⟨bulkAnswered.1, bulkAnswered.2⟩
    · rw [sealedEnd_opens (b := { bulkOpened f with data := f.payload }) ho hp] at hstep
      exact .of_eq (exec_bulkWr_first h hr ht hn) (congrArg cptPump ((bulkStart_open hw hc).trans hstep)) ⟨bulkAnswered.1, bulkAnswered.2⟩
  case readRefused =>
    refine .of_eq (exec_bulkRead h hr ht) (congrArg cptPump (bulkReadAct_refused hw hc)) ?_
    exact ⟨(txOnly_sendPump.other State.mem (fun _ _ => rfl)).trans hmem, sent_sendPump⟩
  case readPlain =>
    obtain ⟨htx, hall, hrsp⟩ := bulkReadSent (st := bkOk) (tag := f.tag) (q := (bulkFetch v f n ctx).1)
      (gs := bulkDataFrames f (bulkFetch v f n ctx).2)
    exact .of_eq (exec_bulkRead h hr ht) (congrArg cptPump (bulkReadAct_plain hw hc hs)) ⟨htx.other State.mem (fun _ _ => rfl), hall, hrsp⟩
  case readSealed =>
    obtain ⟨htx, hall, hrsp⟩ := bulkReadSent (st := bkOk) (tag := f.tag) (q := (bulkSealed v f).1) (gs := bulkDataFrames f (bulkSealed v f).2)
    exact .of_eq (exec_bulkRead h hr ht) (congrArg cptPump (bulkReadAct_sealed hw hc hs))
      ⟨htx.other State.mem (fun _ _ => rfl), htx.other State.keys (fun _ _ => rfl), hall, hrsp⟩

end Sys2Proof.Machine
end


section
/-! SUPPORT and proof of the sessions of the control port and of the recovery image. -/

namespace Sys2Proof.Machine

variable {s u v w : State} {f : CptFrame} {slot tag id k t : Nat} {role : Role} {c : Challenge} {sig : List Byte}

/-! ### HELLO and CHALLENGE (R501, R502) -/

/-- The GRANT with a session number and a result. -/
def grantFrame (tag id k : Nat) : CptFrame := { ftype := 13, tag := tag, payload := [(4 : Byte)] ++ leBytes 4 id ++ leBytes 1 k }

theorem sendGrant_eq : sendGrant s tag id k = cptSend s (grantFrame tag id k) := rfl

theorem exec_authHello (h : CptTurn s f) (ht : f.ftype = 13) (ha : authSub f = some 1) :
    exec (.authHello f) s = .next (cptPump (helloIn (cptTaken s f) f)) := by
  refine congrArg Host.Outcome.next ((cptTake_turn h ht (by decide) (by decide) (.inr rfl)).trans ?_)
  rw [ha]
  rfl

theorem helloIn_role (hr : roleOfCode (field f.payload 1 1) = some role) (h4 : field f.payload 2 1 < 4) :
    helloIn v f =
      if v.lcs.lc = .scrapped then sendGrant v f.tag 0 grState
      else if roleKey v role (field f.payload 2 1) = [] then sendGrant v f.tag 0 grEmptySlot
      else if 8 ≤ v.ses.open_.length then sendGrant v f.tag 0 grTooMany
      else if challengesHeld v then { v with ses.chals := v.ses.chals.filter (fun x => x.tag != f.tag) ++
        [{ tag := f.tag, role := field f.payload 1 1, slot := field f.payload 2 1 }] }
      else sendChallenge v { tag := f.tag, role := field f.payload 1 1, slot := field f.payload 2 1 } := by
  unfold helloIn
  dsimp only
  rw [hr]
  exact if_neg (not_le.2 h4)

/-- The CHALLENGE of a HELLO (R501). -/
def challengeFrame (s : State) (tag : Nat) : CptFrame :=
  { ftype := 13, tag := tag, payload := [(2 : Byte)] ++ (draw s 32).1 ++ slice s.sec.deviceId 0 32 ++ leBytes 8 (now s) }

/-- A challenge that has gone out. -/
def challenged (s : State) (c : Challenge) : Challenge := { c with nonce := (draw s 32).1, sent := some s.cyc, sig := [] }

/-- The state with a challenge that has gone out, before its frame. -/
def challengeKept (s : State) (c : Challenge) : State :=
  { (draw s 32).2 with ses.chals := s.ses.chals.filter (fun x => x.tag != c.tag) ++ [challenged s c] }

theorem sendChallenge_eq : sendChallenge s c = cptSend (challengeKept s c) (challengeFrame s c.tag) := rfl

theorem challengeKept_open : (challengeKept s c).ses.open_ = s.ses.open_ := rfl

theorem challenged_mem : challenged s c ∈ (challengeKept s c).ses.chals := List.mem_append_right _ (List.mem_singleton_self _)

theorem exec_challengeDelayed (h : s.ses.chals.find? (fun c => c.tag == tag && c.sent.isNone) = some c) (hup : cptUp s = true)
    (hh : challengesHeld s = false) : exec (.authChallengeDelayed tag) s = .next (sendChallenge s c) := by
  refine congrArg Host.Outcome.next ?_
  rw [h]
  exact if_pos (by rw [hup, hh]; rfl)

/-! ### PROOF (R501, R502, R509) -/

theorem exec_authProof (h : CptTurn s f) (ht : f.ftype = 13) (ha : authSub f = some 3) :
    exec (.authProof f) s = .next (cptPump (proofIn (cptTaken s f) f)) :=
  congrArg Host.Outcome.next ((cptTake_turn h ht (by decide) (by decide) (.inr rfl)).trans (congrArg cptPump (if_pos ha)))

theorem proofIn_last (hc : v.ses.chals.find? (fun c => c.tag == f.tag && c.sent.isSome) = some c) (hl : f.last = true) :
    proofIn v f = proofEnd v c (c.sig ++ f.payload.drop 1) := by
  unfold proofIn
  rw [hc]
  exact if_pos hl

/-- The signature of a PROOF holds (R501). -/
def proofGood (s : State) (c : Challenge) (role : Role) (sig : List Byte) : Bool :=
  sig.length == 3309 && Config.mldsaVerify (roleKey s role c.slot)
    (c.nonce ++ slice s.sec.deviceId 0 32 ++ leBytes 1 c.role ++ leBytes 1 c.slot) (ascii "SV44-AUTH") sig

/-- The state in which a challenge is done with. -/
def challengeGone (s : State) (c : Challenge) : State := { s with ses.chals := s.ses.chals.filter (fun x => x.tag != c.tag) }

theorem proofEnd_eq (hr : roleOfCode c.role = some role) (ht : c.sent = some t) : proofEnd v c sig =
    if t + oneSecond ≤ v.cyc then sendGrant (challengeGone v c) c.tag 0 grExpired
    else if !proofGood v c role sig then sendGrant (authFailed (challengeGone v c)) c.tag 0 grBadSignature
    else if 8 ≤ v.ses.open_.length then sendGrant (challengeGone v c) c.tag 0 grTooMany
    else openSession (challengeGone v c) c.tag role c.slot := by
  unfold proofEnd
  rw [hr, ht]
  rfl

theorem journal_keeps {e : JEntry} : (journal s e).ses = s.ses ∧ (journal s e).cyc = s.cyc ∧ (journal s e).lcs.authFail = s.lcs.authFail := by
  have hk := journal_kept (e := e) (Kept.refl [.mc, .int, .ptn, .ctx, .led, .lcs, .i3c] s) (Within.refl _)
  refine ⟨hk.rest .ses (by decide), hk.rest .cyc (by decide), ?_⟩
  unfold journal
  dsimp only
  split
  · rw [raise_parts]
  · rfl

/-- The state in which a failed PROOF is counted. -/
def failCounted (s : State) : State :=
  { s with lcs.authFail := satInc 32 s.lcs.authFail, ses.failed := s.ses.failed + 1, ses.lastFail := some s.cyc }

theorem authFailed_spec : (authFailed s).ses.open_ = s.ses.open_ ∧ (authFailed s).lcs.authFail = satInc 32 s.lcs.authFail
    ∧ (authFailed s).ses.lastFail = some s.cyc := by
  obtain ⟨hs, -, hl⟩ := journal_keeps (s := failCounted s) (e := { action := 0x05, aux := min (failCounted s).ses.failed 0xFFFF })
  have ho := congrArg SesBlk.open_ hs
  have hf := congrArg SesBlk.lastFail hs
  unfold authFailed
  dsimp only
  split
  · exact ⟨ho, hl, hf⟩
  · exact ⟨rfl, rfl, rfl⟩

/-- The session that a PROOF opens. -/
def openedSession (s : State) (role : Role) (slot : Nat) : Session :=
  { id := sessionId (draw s 4).2 (leNat (draw s 4).1), role := role, slot := slot }

theorem openSession_eq : openSession s tag role slot =
    cptSend (journal { (draw s 4).2 with ses.open_ := s.ses.open_ ++ [openedSession s role slot] }
      { action := 0x04, role := role.code, slot := slot, aux := (openedSession s role slot).id % 65536 })
      (grantFrame tag (openedSession s role slot).id grOk) := rfl

/-! ### CLOSE (R502) -/

theorem exec_authClose (h : CptTurn s f) (ht : f.ftype = 13) (ha : authSub f = some 5) :
    exec (.authClose f) s = .next (cptPump (closeIn (cptTaken s f) f)) :=
  congrArg Host.Outcome.next ((cptTake_turn h ht (by decide) (by decide) (.inr rfl)).trans (congrArg cptPump (if_pos ha)))

theorem frameWho_of_ses (h : v.ses = s.ses) : frameWho v f = frameWho s f := by rw [frameWho, frameWho, h]

/-! ### RECOVERY (R494, R521) -/

/-- The effect of a RECOVER frame in RECOVERY (R494). -/
def recoverAct (f : CptFrame) (s : State) : State :=
  if f.arg ≠ s.cpt.recBuf.length ∨ 2 ^ 26 < s.cpt.recBuf.length + f.payload.length then
    { s with cpt := { s.cpt with recResult := 3, recBuf := [] } }
  else if f.last then recoverEnd { s with cpt.recBuf := s.cpt.recBuf ++ f.payload } (s.cpt.recBuf ++ f.payload)
  else { s with cpt.recBuf := s.cpt.recBuf ++ f.payload }

theorem cptTaken_mod : (cptTaken s f).mod = s.mod := cptTaken_kept.rest .mod (by decide)

theorem exec_recover (h : CptTurn s f) (ht : f.ftype = 14) (hr : s.mod.recovery = true) :
    exec (.recoverFrame f) s = .next (cptPump (recoverAct f (cptTaken s f))) := by
  refine congrArg Host.Outcome.next ((cptTake_turn h ht (by decide) (by decide) (.inr rfl)).trans (congrArg cptPump ?_))
  exact if_neg (by rw [cptTaken_mod, hr]; exact Bool.false_ne_true)

theorem cptTaken_recBuf : (cptTaken s f).cpt.recBuf = s.cpt.recBuf := by
  have ha : (cptAcked s f).cpt.recBuf = s.cpt.recBuf := cptAcked_proj CptBlk.recBuf (fun _ => rfl)
  rw [cptTaken_eq]
  change (cptReverse s f).cpt.recBuf = s.cpt.recBuf
  rw [cptReverse_eq]
  split
  · exact (cptNak_proj CptBlk.recBuf (fun _ _ _ _ _ _ => rfl)).trans ha
  · exact ha

theorem fwOk_of_fuse {img : List Byte} (h : u.fuse = s.fuse) : fwOk u img = fwOk s img := by rw [fwOk, fwOk, h]

/-- The state with a recovery image written to flash, before the entry in the journal (R494). -/
def imageWritten (s : State) (img : List Byte) : State :=
  { s with flash.fw := some img, cpt.recResult := 1, mod.due := some { cause := 6 } }

theorem recoverEnd_good {img : List Byte} (h : fwOk v img = true) :
    recoverEnd v img = journal (imageWritten v img) { action := 0x0E, data := (fwDigest img).take 32 } := if_pos h

theorem recoverEnd_bad {img : List Byte} (h : fwOk v img = false) :
    recoverEnd v img = { v with cpt := { v.cpt with recResult := 2, recBuf := [] } } := if_neg (by rw [h]; exact Bool.false_ne_true)

/-! ### The statement -/

theorem cptTaken_cyc : (cptTaken s f).cyc = s.cyc := cptTaken_kept.rest .cyc (by decide)
theorem cptTaken_sec : (cptTaken s f).sec = s.sec := cptTaken_kept.rest .sec (by decide)
theorem cptTaken_led : (cptTaken s f).led = s.led := cptTaken_kept.rest .led (by decide)
theorem cptTaken_flash : (cptTaken s f).flash = s.flash := cptTaken_kept.rest .flash (by decide)

theorem challengesHeld_of (hc : u.cyc = s.cyc) (hs : u.ses = s.ses) : challengesHeld u = challengesHeld s := by
  rw [challengesHeld, challengesHeld, hs, hc]

theorem roleKey_of_lcs (h : u.lcs = s.lcs) : roleKey u role slot = roleKey s role slot := by rw [roleKey, roleKey, h]

/-- A GRANT that leaves the sessions as they are. -/
theorem granted : (cptPump (sendGrant w tag id k)).ses = w.ses ∧ Sent (cptPump (sendGrant w tag id k)) (grantFrame tag id k) :=
  ⟨txOnly_sendPump.other State.ses (fun _ _ => rfl), sent_sendPump⟩

theorem helloAnswered (h : CptTurn s f) (ht : f.ftype = 13) (ha : authSub f = some 1) (hr : roleOfCode (field f.payload 1 1) = some role)
    (h4 : field f.payload 2 1 < 4) :
    let v := cptTaken s f
    let slot := field f.payload 2 1
    let refused (k : Nat) := Completes (.authHello f) s (fun u => u.ses = s.ses ∧ Sent u (grantFrame f.tag 0 k))
    (s.lcs.lc = .scrapped → refused 4)
    ∧ (s.lcs.lc ≠ .scrapped → roleKey s role slot = [] → refused 2)
    ∧ (s.lcs.lc ≠ .scrapped → roleKey s role slot ≠ [] → 8 ≤ s.ses.open_.length → refused 3)
    ∧ (s.lcs.lc ≠ .scrapped → roleKey s role slot ≠ [] → s.ses.open_.length < 8 → challengesHeld s = false →
      Completes (.authHello f) s (fun u => u.ses.open_ = s.ses.open_
        ∧ { tag := f.tag, role := field f.payload 1 1, slot := slot, nonce := (draw v 32).1, sent := some s.cyc } ∈ u.ses.chals
        ∧ Sent u { ftype := 13, tag := f.tag,
                   payload := [(2 : Byte)] ++ (draw v 32).1 ++ slice s.sec.deviceId 0 32 ++ leBytes 8 (now s) })) := by
  have hx := exec_authHello h ht ha
  rw [helloIn_role hr h4, cptTaken_lcs, roleKey_of_lcs cptTaken_lcs, cptTaken_ses, challengesHeld_of cptTaken_cyc cptTaken_ses] at hx
  refine ⟨fun h1 => ?_, fun h1 h2 => ?_, fun h1 h2 h3 => ?_, fun h1 h2 h3 h5 => ?_⟩
  · rw [if_pos h1] at hx
    exact .of_next hx ⟨granted.1.trans cptTaken_ses, granted.2⟩
  · rw [if_neg h1, if_pos h2] at hx
    exact .of_next hx ⟨granted.1.trans cptTaken_ses, granted.2⟩
  · rw [if_neg h1, if_neg h2, if_pos h3] at hx
    exact .of_next hx ⟨granted.1.trans cptTaken_ses, granted.2⟩
  · rw [if_neg h1, if_neg h2, if_neg (not_le.2 h3), h5, if_neg Bool.false_ne_true, sendChallenge_eq] at hx
    generalize hc : ({ tag := f.tag, role := field f.payload 1 1, slot := field f.payload 2 1 } : Challenge) = c at hx
    have hses := txOnly_sendPump (s := challengeKept (cptTaken s f) c) (f := challengeFrame (cptTaken s f) c.tag)
    have hs : (cptPump (cptSend (challengeKept (cptTaken s f) c) (challengeFrame (cptTaken s f) c.tag))).ses
        = (challengeKept (cptTaken s f) c).ses := hses.other State.ses (fun _ _ => rfl)
    have hm := challenged_mem (s := cptTaken s f) (c := c)
    have hf : challengeFrame (cptTaken s f) c.tag = {
        ftype := 13, tag := f.tag,
        payload := [(2 : Byte)] ++ (draw (cptTaken s f) 32).1 ++ slice s.sec.deviceId 0 32 ++ leBytes 8 (now s) } := by
      rw [challengeFrame, cptTaken_sec, now_of_bell (cptTaken_kept.rest .bell (by decide)), ← hc]
    refine .of_next hx ⟨?_, ?_, ?_⟩
    · rw [hs, challengeKept_open, cptTaken_ses]
    · rw [hs]
      rw [challenged, cptTaken_cyc] at hm
      subst hc
      exact hm
    · rw [← hf]
      exact sent_sendPump

theorem proofAnswered (h : CptTurn s f) (ht : f.ftype = 13) (ha : authSub f = some 3) (hl : f.last = true)
    (hc : s.ses.chals.find? (fun c => c.tag == f.tag && c.sent.isSome) = some c) (hsent : c.sent = some t) (hr : roleOfCode c.role = some role) :
    let sig := c.sig ++ f.payload.drop 1
    let good := proofGood s c role sig
    (t + oneSecond ≤ s.cyc → Completes (.authProof f) s (fun u => u.ses.open_ = s.ses.open_ ∧ Sent u (grantFrame f.tag 0 5)))
    ∧ (s.cyc < t + oneSecond → good = false → Completes (.authProof f) s (fun u => u.ses.open_ = s.ses.open_
      ∧ u.lcs.authFail = satInc 32 s.lcs.authFail ∧ u.ses.lastFail = some s.cyc ∧ Sent u (grantFrame f.tag 0 1)))
    ∧ (s.cyc < t + oneSecond → good = true → s.ses.open_.length < 8 → Completes (.authProof f) s (fun u =>
      u.led.seq = s.led.seq + 1 ∧ ∃ x, u.ses.open_ = s.ses.open_ ++ [x] ∧ x.role = role ∧ x.slot = c.slot ∧ Sent u (grantFrame f.tag x.id 0))) := by
  have htag : c.tag = f.tag := by
    have := List.find?_some hc
    simp only [Bool.and_eq_true, beq_iff_eq] at this
    exact this.1
  have hx := exec_authProof h ht ha
  have hgood : proofGood (cptTaken s f) c role (c.sig ++ f.payload.drop 1) = proofGood s c role (c.sig ++ f.payload.drop 1) := by
    rw [proofGood, proofGood, cptTaken_sec, roleKey_of_lcs cptTaken_lcs]
  rw [proofIn_last (by rw [cptTaken_ses]; exact hc) hl, proofEnd_eq hr hsent, hgood, cptTaken_cyc, htag] at hx
  have hopen : (challengeGone (cptTaken s f) c).ses.open_ = s.ses.open_ := by
    change (cptTaken s f).ses.open_ = s.ses.open_
    rw [cptTaken_ses]
  refine ⟨fun h1 => ?_, fun h1 hb => ?_, fun h1 hg h8 => ?_⟩
  · rw [if_pos h1] at hx
    exact .of_next hx ⟨(congrArg SesBlk.open_ granted.1).trans hopen, granted.2⟩
  · rw [if_neg (not_le.2 h1), hb, if_pos (by rfl)] at hx
    obtain ⟨ho, hf, hlast⟩ := authFailed_spec (s := challengeGone (cptTaken s f) c)
    refine .of_next hx ⟨?_, ?_, ?_, granted.2⟩
    · exact (congrArg SesBlk.open_ granted.1).trans (ho.trans hopen)
    · exact (congrArg LcsBlk.authFail (txOnly_sendPump.other State.lcs (fun _ _ => rfl))).trans
        (hf.trans (congrArg (fun l : LcsBlk => satInc 32 l.authFail) cptTaken_lcs))
    · exact (congrArg SesBlk.lastFail granted.1).trans (hlast.trans (congrArg some cptTaken_cyc))
  · rw [if_neg (not_le.2 h1), hg, if_neg (by decide), if_neg (not_le.2 (by rw [cptTaken_ses]; exact h8)), openSession_eq] at hx
    have hled : (challengeGone (cptTaken s f) c).led.seq = s.led.seq := by
      change (cptTaken s f).led.seq = s.led.seq
      rw [cptTaken_led]
    generalize challengeGone (cptTaken s f) c = w at hx hopen hled
    generalize ({ action := 0x04, role := role.code, slot := c.slot, aux := (openedSession w role c.slot).id % 65536 } : JEntry) = e at hx
    have hj := journal_keeps (s := { (draw w 4).2 with ses.open_ := w.ses.open_ ++ [openedSession w role c.slot] }) (e := e)
    have hq := (journal_spec { (draw w 4).2 with ses.open_ := w.ses.open_ ++ [openedSession w role c.slot] } e).1
    have ho := congrArg SesBlk.open_ hj.1
    refine .of_next hx ⟨?_, openedSession w role c.slot, ?_, rfl, rfl, sent_sendPump⟩
    · rw [txOnly_sendPump.other (fun u => u.led.seq) (fun _ _ => rfl), hq]
      exact congrArg (· + 1) hled
    · rw [txOnly_sendPump.other (fun u => u.ses.open_) (fun _ _ => rfl), ho]
      dsimp only
      rw [hopen]

/-- Settles O50: what each AUTH frame does to the sessions, and each RECOVER frame to the image. -/
theorem sessionsAndRecovery : Obligations.SessionsAndRecovery := by
  unfold Obligations.SessionsAndRecovery
  refine ⟨fun s => ⟨fun f role h ht ha hr h4 => helloAnswered h ht ha hr h4, fun tag c hc hup hh => ?_,
    fun f c role t h ht ha hl hc hsent hr => proofAnswered h ht ha hl hc hsent hr, fun f h ht ha hw => ?_⟩, fun s f h ht hr => ?_⟩
  · have hs := (txOnly_cptSend (s := challengeKept s c) (f := challengeFrame s c.tag)).other State.ses (fun _ _ => rfl)
    refine .of_eq (exec_challengeDelayed hc hup hh) sendChallenge_eq ⟨?_, ?_⟩
    · rw [hs]
      rfl
    · rw [hs]
      exact challenged_mem
  · have hx := exec_authClose h ht ha
    have hnone : ¬ (frameWho (cptTaken s f) f).isNone = true := by
      rw [frameWho_of_ses cptTaken_ses]
      simpa using hw
    rw [closeIn, if_neg hnone] at hx
    have hs := (txOnly_cptPump (s := { cptTaken s f with
      ses.open_ := (cptTaken s f).ses.open_.filter (fun x => x.id != field f.payload 1 4) })).other State.ses (fun _ _ => rfl)
    refine .of_next hx ⟨?_, ?_⟩
    · rw [hs]
      dsimp only
      rw [cptTaken_ses]
    · rw [hs]
      dsimp only
      rw [cptTaken_ses]
  · have hx := exec_recover h ht hr
    rw [recoverAct, cptTaken_recBuf] at hx
    refine ⟨fun hg => ?_, fun ha hlen => ⟨fun hl => ?_, fun hl hok => ?_, fun hl hok => ?_⟩⟩
    · rw [if_pos hg] at hx
      have hp := txOnly_cptPump (s := { cptTaken s f with cpt := { (cptTaken s f).cpt with recResult := 3, recBuf := [] } })
      exact .of_next hx ⟨hp.proj CptBlk.recResult (fun _ => rfl), hp.proj CptBlk.recBuf (fun _ => rfl),
        (hp.other State.flash (fun _ _ => rfl)).trans cptTaken_flash⟩
    · rw [if_neg (not_or.2 ⟨not_not.2 ha, not_lt.2 hlen⟩), hl, if_neg Bool.false_ne_true] at hx
      have hp := txOnly_cptPump (s := { cptTaken s f with cpt.recBuf := s.cpt.recBuf ++ f.payload })
      exact .of_next hx ⟨hp.proj CptBlk.recBuf (fun _ => rfl), (hp.other State.flash (fun _ _ => rfl)).trans cptTaken_flash⟩
    · rw [if_neg (not_or.2 ⟨not_not.2 ha, not_lt.2 hlen⟩), hl, if_pos rfl] at hx
      generalize hw : ({ cptTaken s f with cpt.recBuf := s.cpt.recBuf ++ f.payload } : State) = w at hx
      have hfuse : w.fuse = s.fuse := by
        rw [← hw]
        exact cptTaken_kept.rest .fuse (by decide)
      have hled : w.led = s.led := by
        rw [← hw]
        exact cptTaken_led
      rw [recoverEnd_good (by rw [fwOk_of_fuse hfuse]; exact hok)] at hx
      generalize ({ action := 0x0E, data := (fwDigest (s.cpt.recBuf ++ f.payload)).take 32 } : JEntry) = e at hx
      have hk := journal_kept (e := e) (Kept.refl [.mc, .int, .ptn, .ctx, .led, .lcs, .i3c] (imageWritten w (s.cpt.recBuf ++ f.payload)))
        (Within.refl _)
      have hflash : (journal (imageWritten w (s.cpt.recBuf ++ f.payload)) e).flash = _ := hk.rest .flash (by decide)
      have hcpt : (journal (imageWritten w (s.cpt.recBuf ++ f.payload)) e).cpt = _ := hk.rest .cpt (by decide)
      have hmod : (journal (imageWritten w (s.cpt.recBuf ++ f.payload)) e).mod = _ := hk.rest .mod (by decide)
      refine .of_next hx ⟨?_, ?_, ?_, ?_⟩
      · rw [txOnly_cptPump.other State.flash (fun _ _ => rfl), hflash]
        rfl
      · rw [txOnly_cptPump.proj CptBlk.recResult (fun _ => rfl), hcpt]
        rfl
      · rw [txOnly_cptPump.other State.mod (fun _ _ => rfl), hmod]
        rfl
      · rw [txOnly_cptPump.other State.led (fun _ _ => rfl), (journal_spec _ e).1, ← hled]
        rfl
    · rw [if_neg (not_or.2 ⟨not_not.2 ha, not_lt.2 hlen⟩), hl, if_pos rfl] at hx
      generalize hw : ({ cptTaken s f with cpt.recBuf := s.cpt.recBuf ++ f.payload } : State) = w at hx
      have hfuse : w.fuse = s.fuse := by
        rw [← hw]
        exact cptTaken_kept.rest .fuse (by decide)
      have hled : w.led = s.led := by
        rw [← hw]
        exact cptTaken_led
      have hflash : w.flash = s.flash := by
        rw [← hw]
        exact cptTaken_flash
      rw [recoverEnd_bad (by rw [fwOk_of_fuse hfuse]; exact hok)] at hx
      have hp := txOnly_cptPump (s := { w with cpt := { w.cpt with recResult := 2, recBuf := [] } })
      exact .of_next hx ⟨(hp.other State.flash (fun _ _ => rfl)).trans hflash, hp.proj CptBlk.recResult (fun _ => rfl),
        hp.proj CptBlk.recBuf (fun _ => rfl), (hp.other State.led (fun _ _ => rfl)).trans hled⟩

end Sys2Proof.Machine
end


section
/-! SUPPORT and proof of the commands of the LCS block. -/

namespace Sys2Proof.Machine

variable {s u v : State} {who : Req} {t k slot w st : Nat} {burn syl : Bool} {role : Role} {key : List Byte} {c : Instr}

/-! ### The command word (R524) -/

/-- A command that its row admits is answered with its operation's status. -/
theorem exec_lcs (hm : mayCommand s who = true) (hx : exec c s = .next (lcsRow s who w burn)) :
    exec c s = .next (lcsAnswer (lcsOp s who w burn).1 (lcsOp s who w burn).2) := hx.trans (congrArg Host.Outcome.next (if_pos hm))

/-- A refused command changes its answer only. -/
theorem lcsRefused (hx : exec c s = .next (lcsAnswer (lcsOp s who w burn).1 (lcsOp s who w burn).2)) (h : lcsOp s who w burn = (s, st)) :
    Completes c s (fun u => u = { s with lcs.done := true, lcs.status := st }) := by
  rw [h] at hx
  exact .of_next hx rfl

theorem lcsOp_advance (ht : t < 8) : lcsOp s who (1 + t % 8 * 16) burn = advanceOp s who t burn := by
  unfold lcsOp
  have h1 : bits (1 + t % 8 * 16) 10 22 = 0 := by unfold bits; omega
  have h2 : bits (1 + t % 8 * 16) 0 4 = 1 := by unfold bits; omega
  have h3 : bits (1 + t % 8 * 16) 4 3 = t := by unfold bits; omega
  rw [h1, h2, h3]
  rfl

theorem lcsOp_keySet (hs : slot < 4) : lcsOp s who (2 + role.code % 8 * 16 + slot % 4 * 128) burn = keySetOp s who role.code slot := by
  have hr : role.code < 8 := by cases role <;> decide
  unfold lcsOp
  have h1 : bits (2 + role.code % 8 * 16 + slot % 4 * 128) 10 22 = 0 := by unfold bits; omega
  have h2 : bits (2 + role.code % 8 * 16 + slot % 4 * 128) 0 4 = 2 := by unfold bits; omega
  have h3 : bits (2 + role.code % 8 * 16 + slot % 4 * 128) 4 3 = role.code := by unfold bits; omega
  have h4 : bits (2 + role.code % 8 * 16 + slot % 4 * 128) 7 2 = slot := by unfold bits; omega
  rw [h1, h2, h3, h4]
  rfl

theorem lcsOp_keyClear (hs : slot < 4) :
    lcsOp s who (3 + role.code % 8 * 16 + slot % 4 * 128) burn = keyClearOp s who role.code slot := by
  have hr : role.code < 8 := by cases role <;> decide
  unfold lcsOp
  have h1 : bits (3 + role.code % 8 * 16 + slot % 4 * 128) 10 22 = 0 := by unfold bits; omega
  have h2 : bits (3 + role.code % 8 * 16 + slot % 4 * 128) 0 4 = 3 := by unfold bits; omega
  have h3 : bits (3 + role.code % 8 * 16 + slot % 4 * 128) 4 3 = role.code := by unfold bits; omega
  have h4 : bits (3 + role.code % 8 * 16 + slot % 4 * 128) 7 2 = slot := by unfold bits; omega
  rw [h1, h2, h3, h4]
  rfl

theorem lcsOp_store : lcsOp s who (4 + b2n syl * 512) burn = storeOp s who syl := by
  cases syl <;> rfl

/-! ### ADVANCE (R496-R499) -/

theorem advanceOp_badState (h : t ≠ s.lcs.lc.code + 1 ∨ 4 < t) : advanceOp s who t burn = (s, lcBadState) := if_pos h

section Advance

variable (hn : t = s.lcs.lc.code + 1) (h4 : t ≤ 4)
include hn h4

theorem advanceOp_role (hr : roleOf s who ≠ some (enteredBy t)) : advanceOp s who t burn = (s, lcRole) :=
  (if_neg (not_or.2 ⟨not_not.2 hn, not_lt.2 h4⟩)).trans (if_pos hr)

variable (hr : roleOf s who = some (enteredBy t))
include hr

theorem advanceOp_full (hj : journalRoom s = false) : advanceOp s who t burn = (s, lcJournalFull) :=
  (if_neg (not_or.2 ⟨not_not.2 hn, not_lt.2 h4⟩)).trans ((if_neg (not_not.2 hr)).trans (if_pos (by rw [hj]; rfl)))

theorem advanceOp_fuse (hj : journalRoom s = true) : advanceOp s who t false = (s, lcFuseFail) :=
  (if_neg (not_or.2 ⟨not_not.2 hn, not_lt.2 h4⟩)).trans ((if_neg (not_not.2 hr)).trans ((if_neg (by rw [hj]; decide)).trans (if_pos rfl)))

/-- The module in its new life cycle, before what the state's entry erases. -/
def lifeEntered (s : State) (who : Req) (t : Nat) : State :=
  { journalFor s who { action := 0x01, aux := t } with lcs.lc := lifeOf t, fuse.lc := burnLife s.fuse.lc t }

omit hn h4 hr in
theorem journalFor_fuse {e : JEntry} : (journalFor s who e).fuse = s.fuse :=
  (journalFor_kept (Kept.refl [.mc, .int, .ptn, .ctx, .led, .lcs, .i3c] s) (Within.refl _)).rest .fuse (by decide)

theorem advanceOp_ok (hj : journalRoom s = true) : advanceOp s who t true =
    (if t = 3 then enterReturned (lifeEntered s who t) else if t = 4 then enterScrapped (lifeEntered s who t) else lifeEntered s who t, lcOk) := by
  refine (if_neg (not_or.2 ⟨not_not.2 hn, not_lt.2 h4⟩)).trans ((if_neg (not_not.2 hr)).trans ((if_neg (by rw [hj]; decide)).trans
    ((if_neg (by decide)).trans ?_)))
  have he : ({ journalFor s who { action := 0x01, aux := t } with
      lcs.lc := lifeOf t, fuse.lc := burnLife (journalFor s who { action := 0x01, aux := t }).fuse.lc t } : State) = lifeEntered s who t := by
    rw [journalFor_fuse]
    rfl
  dsimp only
  rw [he]

end Advance

/-! ### What an entry of the journal leaves (R507) -/

theorem journal_led_other {e : JEntry} {α : Type} (π : Ledger → α) (hπ : ∀ l j q h, π { l with journal := j, seq := q, head := h } = π l) :
    π (journal s e).led = π s.led := by
  unfold journal
  dsimp only
  split
  · rw [raise_parts]
    exact hπ s.led _ _ _
  · exact hπ s.led _ _ _

theorem journal_lcs_other {e : JEntry} {α : Type} (π : LcsBlk → α) (hπ : ∀ l b, π { l with jrnOverwrite := b } = π l) :
    π (journal s e).lcs = π s.lcs := by
  unfold journal
  dsimp only
  split
  · rw [raise_parts]
    exact hπ s.lcs _
  · rfl

theorem journalFor_led_other {e : JEntry} {α : Type} (π : Ledger → α) (hπ : ∀ l j q h, π { l with journal := j, seq := q, head := h } = π l) :
    π (journalFor s who e).led = π s.led := journal_led_other π hπ

theorem journalFor_keys {e : JEntry} : (journalFor s who e).lcs.keys = s.lcs.keys := journal_lcs_other LcsBlk.keys fun _ _ => rfl

theorem journalFor_mem {e : JEntry} : (journalFor s who e).mem = s.mem := (journal_spec s _).2.1

/-! ### Entry to RETURNED (R498) -/

/-- The partitions dropped and the memories scrubbed. -/
def erased (s : State) : State :=
  scrubLinear (scrubLinear (forEach (countFrom 0 64) dropPartition s) .hbm 0 (2 ^ 39)) .tier2 0 (2 ^ 40)

theorem erased_kept : Kept [.fresh, .mem, .memKey, .memErr, .resv, .mc, .core, .int, .rc, .ptn, .ctx, .brn, .prs, .keys, .xf, .sec, .vat, .i3c]
    s (erased s) := by
  have w := Within.refl [Part.fresh, .mem, .memKey, .memErr, .resv, .mc, .core, .int, .rc, .ptn, .ctx, .brn, .prs, .keys, .xf, .sec, .vat, .i3c]
  exact scrubLinear_kept (scrubLinear_kept (forEach_kept (Kept.refl _ s) fun _ _ h => dropPartition_kept h))

/-- What RETURNED keeps of the Ledger, the keys and the Syllabus (R498). -/
def returnedOf (w : State) : State := { w with
  keys := {}, sec.eks := []
  led := { w.led with bank := w.led.bank.map returnedBank, bankOld := none, stored := none, storedOld := none }
  lcs.keys := w.lcs.keys.filter (fun e => e.1 < 4)
  syl := { w.syl with module := none, mode := 0, stored := false }, oh := {}
  vat := { w.vat with ready := false, fetches := [], jobs := [] } }

theorem enterReturned_eq : enterReturned s = returnedOf (erased s) := rfl

theorem returnedOf_spec : (returnedOf s).lcs.lc = s.lcs.lc ∧ (returnedOf s).led.seq = s.led.seq ∧ (returnedOf s).fuse = s.fuse
    ∧ (returnedOf s).keys = {} ∧ (returnedOf s).sec.eks = [] ∧ (returnedOf s).syl.module = none := ⟨rfl, rfl, rfl, rfl, rfl, rfl⟩

theorem enterReturned_spec : (enterReturned s).lcs.lc = s.lcs.lc ∧ (enterReturned s).led.seq = s.led.seq ∧ (enterReturned s).fuse = s.fuse
    ∧ (enterReturned s).keys = {} ∧ (enterReturned s).sec.eks = [] ∧ (enterReturned s).syl.module = none := by
  obtain ⟨h1, h2, h3, h4, h5, h6⟩ := returnedOf_spec (s := erased s)
  have hl : (erased s).lcs = s.lcs := erased_kept.rest .lcs (by decide)
  have hj : (erased s).led = s.led := erased_kept.rest .led (by decide)
  have hf : (erased s).fuse = s.fuse := erased_kept.rest .fuse (by decide)
  rw [enterReturned_eq]
  exact ⟨by rw [h1, hl], by rw [h2, hj], h3.trans hf, h4, h5, h6⟩

/-- What ADVANCE has changed for every state, whatever its entry erases (R496, R497). -/
structure Entered (s u : State) (t : Nat) : Prop where
  lc : u.lcs.lc = lifeOf t
  seq : u.led.seq = s.led.seq + 1
  fuse : u.fuse.lc = burnLife s.fuse.lc t

theorem entered_lifeEntered : Entered s (lifeEntered s who t) t := ⟨rfl, journalFor_spec.1, rfl⟩

theorem entered_returned : Entered s (enterReturned (lifeEntered s who t)) t := by
  obtain ⟨hlc, hseq, hfuse, -⟩ := enterReturned_spec (s := lifeEntered s who t)
  have h := entered_lifeEntered (s := s) (who := who) (t := t)
  exact ⟨hlc.trans h.lc, hseq.trans h.seq, (congrArg FuseBlk.lc hfuse).trans h.fuse⟩

/-- A burnt fuse stands at least at the state entered and at the one it stood at. -/
theorem burnLife_code {lc : LifeCycle} (h : t ≤ 4) : lc.code ≤ (burnLife lc t).code ∧ t ≤ (burnLife lc t).code := by
  have hc : ∀ m ≤ 4, (lifeOf m).code = m := by decide
  have hl : lc.code ≤ 4 := by cases lc <;> decide
  rw [burnLife, hc _ (max_le hl h)]
  exact ⟨le_max_left .., le_max_right ..⟩

theorem Entered.answered (h : Entered s v t) (h4 : t ≤ 4) : ((lcsAnswer v 0).lcs.done = true ∧ (lcsAnswer v 0).lcs.status = 0)
    ∧ (lcsAnswer v 0).lcs.lc = lifeOf t ∧ s.fuse.lc.code ≤ (lcsAnswer v 0).fuse.lc.code ∧ t ≤ (lcsAnswer v 0).fuse.lc.code
    ∧ (lcsAnswer v 0).led.seq = s.led.seq + 1 := by
  have hf : (lcsAnswer v 0).fuse.lc = burnLife s.fuse.lc t := h.fuse
  rw [hf]
  exact ⟨⟨rfl, rfl⟩, h.lc, (burnLife_code h4).1, (burnLife_code h4).2, h.seq⟩

/-- ADVANCE happens (R496-R499). -/
theorem advanceDone (hm : mayCommand s who = true) (h8 : t < 8) (hn : t = s.lcs.lc.code + 1) (h4 : t ≤ 4)
    (hr : roleOf s who = some (enteredBy t)) (hj : journalRoom s = true) : Completes (.advance who t true) s (fun u =>
      (u.lcs.done = true ∧ u.lcs.status = 0) ∧ u.lcs.lc = lifeOf t ∧ s.fuse.lc.code ≤ u.fuse.lc.code ∧ t ≤ u.fuse.lc.code
      ∧ u.led.seq = s.led.seq + 1 ∧ (t < 3 → u.mem = s.mem ∧ u.lcs.keys = s.lcs.keys)
      ∧ (t = 3 → u.keys = {} ∧ u.sec.eks = [] ∧ u.syl.module = none)
      ∧ (t = 4 → u.lcs.keys = [] ∧ u.led.bank = none ∧ u.led.ident = none)) := by
  have hx := exec_lcs (c := .advance who t true) hm rfl
  rw [lcsOp_advance h8, advanceOp_ok hn h4 hr hj] at hx
  by_cases h3 : t = 3
  · rw [if_pos h3] at hx
    obtain ⟨a, b, c, d, e⟩ := (entered_returned (s := s) (who := who) (t := t)).answered h4
    obtain ⟨-, -, -, hk, he, hy⟩ := enterReturned_spec (s := lifeEntered s who t)
    exact .of_next hx ⟨a, b, c, d, e, fun h => absurd h (by omega), fun _ => ⟨hk, he, hy⟩, fun h => absurd h (by omega)⟩
  by_cases h5 : t = 4
  · rw [if_neg h3, if_pos h5] at hx
    have hs : Entered s (enterScrapped (lifeEntered s who t)) t := ⟨rfl, entered_lifeEntered.seq, rfl⟩
    obtain ⟨a, b, c, d, e⟩ := hs.answered h4
    exact .of_next hx ⟨a, b, c, d, e, fun h => absurd h (by omega), fun h => absurd h h3, fun _ => ⟨rfl, rfl, rfl⟩⟩
  · rw [if_neg h3, if_neg h5] at hx
    obtain ⟨a, b, c, d, e⟩ := (entered_lifeEntered (s := s) (who := who) (t := t)).answered h4
    exact .of_next hx ⟨a, b, c, d, e, fun _ => ⟨journalFor_mem, journalFor_keys⟩, fun h => absurd h h3, fun h => absurd h h5⟩

/-! ### Role keys (R500, R503) -/

theorem roleOfCode_code : roleOfCode role.code = some role := by cases role <;> rfl

theorem mayKeybuf_of_mayKeys (h : mayKeys s who role = true) : mayKeybuf s who = true := by
  unfold mayKeys at h
  unfold mayKeybuf isMaker isInstaller
  split at h <;> simp_all

/-- A slot of the role keys that is written or emptied, with its entry in the journal. -/
def keyPut (s : State) (who : Req) (e : JEntry) (i : Nat) (key : List Byte) : State :=
  { journalFor s who e with lcs.keys := tset [] (journalFor s who e).lcs.keys i key }

theorem keyPut_spec {e : JEntry} {i : Nat} :
    tget [] (keyPut s who e i key).lcs.keys i = key ∧ (∀ j, j ≠ i → tget [] (keyPut s who e i key).lcs.keys j = tget [] s.lcs.keys j)
    ∧ (keyPut s who e i key).led.seq = s.led.seq + 1 ∧ (keyPut s who e i key).mem = s.mem := by
  unfold keyPut
  rw [journalFor_keys]
  exact ⟨tget_tset_same, fun j hj => tget_tset_other hj, journalFor_spec.1, journalFor_mem⟩

theorem keyClearOp_ok (hk : mayKeys s who role = true) (hj : journalRoom s = true) : keyClearOp s who role.code slot =
    (keyPut s who { action := 0x03, aux := role.code + 4 * slot } (keyIndex role slot) [], lcOk) := by
  unfold keyClearOp
  rw [roleOfCode_code]
  simp only [hk, hj, Bool.not_true, Bool.false_eq_true, if_false]
  rfl

theorem keyClearOp_role (hk : mayKeys s who role = false) : keyClearOp s who role.code slot = (s, lcRole) := by
  unfold keyClearOp
  rw [roleOfCode_code]
  simp only [hk, Bool.not_false, if_true]

theorem keySetOp_ok (hk : mayKeys s who role = true) (hj : journalRoom s = true)
    (hd : role = .maker → Config.makerDigests.contains (shake256 32 (slice s.lcs.keybuf 0 1952)) = true) :
    keySetOp s who role.code slot = (keyPut s who
      { action := 0x02, aux := role.code + 4 * slot, data := shake256 32 (slice s.lcs.keybuf 0 1952) } (keyIndex role slot)
      (slice s.lcs.keybuf 0 1952), lcOk) := by
  have hb : ¬ (role = .maker ∧ (!Config.makerDigests.contains (shake256 32 (slice s.lcs.keybuf 0 1952))) = true) := fun h => by
    have := hd h.1
    rw [this] at h
    exact Bool.false_ne_true h.2
  unfold keySetOp
  rw [roleOfCode_code]
  simp only [hk, hj, Bool.not_true, Bool.false_eq_true, if_false]
  rw [if_neg hb]
  rfl

/-- The state with LCS_KEYBUF written. -/
def keybufPut (s : State) (key : List Byte) : State := { s with lcs.keybuf := slice key 0 1952 }

theorem keysDone {x : State} {e : JEntry} {i : Nat} (hmem : x.mem = s.mem) (hled : x.led = s.led) (hkeys : x.lcs.keys = s.lcs.keys) :
    ((lcsAnswer (keyPut x who e i key) 0).lcs.done = true ∧ (lcsAnswer (keyPut x who e i key) 0).lcs.status = 0)
    ∧ tget [] (lcsAnswer (keyPut x who e i key) 0).lcs.keys i = key
    ∧ (∀ j, j ≠ i → tget [] (lcsAnswer (keyPut x who e i key) 0).lcs.keys j = tget [] s.lcs.keys j)
    ∧ (lcsAnswer (keyPut x who e i key) 0).led.seq = s.led.seq + 1 ∧ (lcsAnswer (keyPut x who e i key) 0).mem = s.mem := by
  obtain ⟨h1, h2, h3, h4⟩ := keyPut_spec (s := x) (who := who) (key := key) (e := e) (i := i)
  exact ⟨⟨rfl, rfl⟩, h1, fun j hj => (h2 j hj).trans (by rw [hkeys]), h3.trans (by rw [hled]), h4.trans hmem⟩

theorem exec_keySet (hm : mayCommand s who = true) (hk : mayKeys s who role = true) (hs : slot < 4) :
    exec (.keySet who role.code slot key) s =
      .next (lcsAnswer (keySetOp (keybufPut s key) who role.code slot).1 (keySetOp (keybufPut s key) who role.code slot).2) := by
  have hx : exec (.keySet who role.code slot key) s =
      .next (lcsCmd (keybufPut s key) who (2 + role.code % 8 * 16 + slot % 4 * 128) true) :=
    congrArg Host.Outcome.next ((if_pos hm).trans (by rw [if_pos (mayKeybuf_of_mayKeys hk)]; rfl))
  rw [hx, lcsCmd, lcsOp_keySet hs]

/-! ### STORE, the journal's acknowledgement and the firmware floor (R506, R510, R521) -/

/-- The Ledger with its other bank written (R506). -/
def bankStored (s : State) (syl : Bool) : Ledger :=
  match syl, s.syl.module with
  | true, some m => { s.led with bank := some (bankOf s), bankOld := s.led.bank, stored := some m.image, storedOld := s.led.stored }
  | _, _ => { s.led with bank := some (bankOf s), bankOld := s.led.bank }

theorem bankStored_spec : (bankStored s syl).bank = some (bankOf s) ∧ (bankStored s syl).bankOld = s.led.bank
    ∧ (bankStored s syl).seq = s.led.seq ∧ ∀ m, syl = true → s.syl.module = some m → (bankStored s syl).stored = some m.image := by
  unfold bankStored
  cases syl with
  | false => exact ⟨rfl, rfl, rfl, fun _ h => nomatch h⟩
  | true =>
    cases h : s.syl.module with
    | none => exact ⟨rfl, rfl, rfl, fun _ _ h' => nomatch h'⟩
    | some m => exact ⟨rfl, rfl, rfl, fun _ _ h' => by rw [Option.some.inj h']⟩

theorem storeOp_ok (hi : isInstaller s who = true) (hj : journalRoom s = true) : storeOp s who syl =
    (journalFor { s with led := bankStored s syl } who { action := 0x06, aux := b2n syl, data := bankDigest (bankOf s) }, lcOk) := by
  unfold storeOp
  simp only [hi, hj, Bool.not_true, Bool.false_eq_true, if_false]
  rfl

theorem storeOp_role (hi : isInstaller s who = false) : storeOp s who syl = (s, lcRole) := if_pos (by rw [hi]; rfl)

/-- What an installer's STORE leaves of the Ledger beside its journal. -/
theorem journalFor_stored {l : Ledger} {e : JEntry} : (journalFor { s with led := l } who e).led.bank = l.bank
    ∧ (journalFor { s with led := l } who e).led.bankOld = l.bankOld ∧ (journalFor { s with led := l } who e).led.stored = l.stored
    ∧ (journalFor { s with led := l } who e).led.seq = l.seq + 1 :=
  ⟨journalFor_led_other Ledger.bank fun _ _ _ _ => rfl, journalFor_led_other Ledger.bankOld fun _ _ _ _ => rfl,
    journalFor_led_other Ledger.stored fun _ _ _ _ => rfl, journalFor_spec.1⟩

/-- The state with LCS_JRN_ACK written. -/
def ackPut (s : State) (k : Nat) : State := { s with lcs.jrnAck := k }

theorem exec_jrnAck (hm : mayCommand s who = true) (hk : k < 2 ^ 64) : exec (.jrnAck who k) s =
    .next (lcsAnswer (jrnAckOp (ackPut s k) who).1 (jrnAckOp (ackPut s k) who).2) := by
  refine congrArg Host.Outcome.next ((if_pos hm).trans ?_)
  rw [Nat.mod_eq_of_lt hk]
  rfl

/-- The state whose journal is acknowledged up to `k`. -/
def acked (s : State) (k : Nat) : State := { ackPut s k with led.ack := k }

theorem jrnAckOp_ok (hm : mayCommand s who = true) (h1 : s.led.ack ≤ k) (h2 : k ≤ s.led.seq) (h3 : s.led.seq + 1 ≤ 32512 + k) :
    jrnAckOp (ackPut s k) who = (journalFor (acked s k) who { action := 0x11, data := leBytes 8 k }, lcOk) := by
  have hn : ¬ (roleOf (ackPut s k) who).isNone = true := fun hn => by
    have hm : (roleOf (ackPut s k) who).isSome = true := hm
    cases hr : roleOf (ackPut s k) who <;> simp [hr] at hm hn
  refine (if_neg hn).trans ((if_neg (not_or.2 ⟨not_lt.2 h1, not_lt.2 h2⟩)).trans (if_neg ?_))
  have : journalRoom (acked s k) = true := decide_eq_true h3
  exact fun h => by
    change (!journalRoom (acked s k)) = true at h
    rw [this] at h
    exact Bool.false_ne_true h

theorem jrnAckOp_bad (hm : mayCommand s who = true) (h : k < s.led.ack ∨ s.led.seq < k) : jrnAckOp (ackPut s k) who = (ackPut s k, lcBadState) := by
  have hn : ¬ (roleOf (ackPut s k) who).isNone = true := fun hn => by
    have hm : (roleOf (ackPut s k) who).isSome = true := hm
    cases hr : roleOf (ackPut s k) who <;> simp [hr] at hm hn
  exact (if_neg hn).trans (if_pos h)

/-- The firmware floor that the running firmware gives (R521). -/
def floorRaised (s : State) : State := { s with fuse.fwFloor := max s.fuse.fwFloor s.sec.fwVer }

theorem fwFloorOp_ok (hi : isMaker s who = true) (hj : journalRoom s = true) : fwFloorOp s who true =
    (journalFor (floorRaised s) who { action := 0x0F, data := leBytes 4 (max s.fuse.fwFloor s.sec.fwVer) }, lcOk) := by
  unfold fwFloorOp
  simp only [hi, hj, Bool.not_true, Bool.false_eq_true, if_false]
  rfl

theorem fwFloorOp_fuse (hi : isMaker s who = true) (hj : journalRoom s = true) : fwFloorOp s who false = (s, lcFuseFail) := by
  unfold fwFloorOp
  simp only [hi, hj, Bool.not_true, Bool.not_false, Bool.false_eq_true, if_false, if_true]

theorem fwFloorOp_role (hi : isMaker s who = false) : fwFloorOp s who burn = (s, lcRole) := if_pos (by rw [hi]; rfl)

/-- Settles O51: each command by its operation's branch, whose entry in the journal leaves what the command has changed. -/
theorem lifeCycleCommands : Obligations.LifeCycleCommands := by
  unfold Obligations.LifeCycleCommands
  intro s who hm answer refused
  refine ⟨fun t burn h8 => ⟨fun h => ?badState, fun hn h4 => ⟨fun hr => ?role, fun hr hj => ?full, fun hr hj hb => ?fuse, fun hr hj hb => ?done⟩⟩,
    fun role slot key hs => ⟨fun hk hj => ⟨fun hd => ?keySet, ?keyClear⟩, fun hk => ?keyRole⟩, fun syl hi hj => ?store, fun syl hi => ?storeRole,
    fun k hk h1 h2 h3 => ?ack, fun k hk h => ?ackBad, fun hi hj => ?floor, fun hi hj => ?floorFuse, fun hi b => ?floorRole⟩
  case badState => exact lcsRefused (exec_lcs hm rfl) ((lcsOp_advance h8).trans (advanceOp_badState h))
  case role => exact lcsRefused (exec_lcs hm rfl) ((lcsOp_advance h8).trans (advanceOp_role hn h4 hr))
  case full => exact lcsRefused (exec_lcs hm rfl) ((lcsOp_advance h8).trans (advanceOp_full hn h4 hr hj))
  case fuse =>
    subst hb
    exact lcsRefused (exec_lcs hm rfl) ((lcsOp_advance h8).trans (advanceOp_fuse hn h4 hr hj))
  case done =>
    subst hb
    exact advanceDone hm h8 hn h4 hr hj
  case keySet =>
    have hx := exec_keySet (key := key) hm hk hs
    rw [keySetOp_ok (s := keybufPut s key) hk hj hd] at hx
    obtain ⟨h1, h2, h3, h4, h5⟩ := keysDone (s := s) (x := keybufPut s key) (who := who) (key := slice (keybufPut s key).lcs.keybuf 0 1952)
      (e := { action := 0x02, aux := role.code + 4 * slot, data := shake256 32 (slice (keybufPut s key).lcs.keybuf 0 1952) })
      (i := keyIndex role slot) rfl rfl rfl
    exact .of_next hx ⟨h1, h2, h3, h4, h5⟩
  case keyClear =>
    have hx := exec_lcs (c := .keyClear who role.code slot) hm rfl
    rw [lcsOp_keyClear hs, keyClearOp_ok hk hj] at hx
    exact .of_next hx (keysDone rfl rfl rfl)
  case keyRole => exact lcsRefused (exec_lcs hm rfl) ((lcsOp_keyClear hs).trans (keyClearOp_role hk))
  case store =>
    have hx := exec_lcs (c := .ledgerStore who syl) hm rfl
    rw [lcsOp_store, storeOp_ok hi hj] at hx
    obtain ⟨h1, h2, h3, h4⟩ := journalFor_stored (s := s) (who := who) (l := bankStored s syl)
      (e := { action := 0x06, aux := b2n syl, data := bankDigest (bankOf s) })
    obtain ⟨b1, b2, b3, b4⟩ := bankStored_spec (s := s) (syl := syl)
    exact .of_next hx ⟨⟨rfl, rfl⟩, h1.trans b1, h2.trans b2, h4.trans (by rw [b3]), fun m hm hs => h3.trans (b4 m hm hs)⟩
  case storeRole => exact lcsRefused (exec_lcs hm rfl) (lcsOp_store.trans (storeOp_role hi))
  case ack =>
    have hx := exec_jrnAck hm hk
    rw [jrnAckOp_ok hm h1 h2 h3] at hx
    have ha := journalFor_led_other (s := acked s k) (who := who) (e := { action := 0x11, data := leBytes 8 k }) Ledger.ack fun _ _ _ _ => rfl
    exact .of_next hx ⟨⟨rfl, rfl⟩, ha, journalFor_spec.1⟩
  case ackBad =>
    have hx := exec_jrnAck hm hk
    rw [jrnAckOp_bad hm h] at hx
    exact .of_next hx ⟨⟨rfl, rfl⟩, rfl⟩
  case floor =>
    have hx := exec_lcs (c := .fwFloor who true) hm rfl
    rw [show lcsOp s who 6 true = fwFloorOp s who true from rfl, fwFloorOp_ok hi hj] at hx
    have hf := journalFor_fuse (s := floorRaised s) (who := who)
      (e := { action := 0x0F, data := leBytes 4 (max s.fuse.fwFloor s.sec.fwVer) })
    exact .of_next hx ⟨⟨rfl, rfl⟩, congrArg FuseBlk.fwFloor hf, journalFor_spec.1⟩
  case floorFuse => exact lcsRefused (exec_lcs hm rfl) (fwFloorOp_fuse hi hj)
  case floorRole => exact lcsRefused (exec_lcs hm rfl) (fwFloorOp_role hi)

end Sys2Proof.Machine
end


section
/-! SUPPORT and proof of quotes, key release and encapsulation keys. -/

namespace Sys2Proof.Machine

variable {s u v x : State} {who : Req} {p k w st : Nat} {nonce rec r b : List Byte} {ptn : Option Nat} {c : Instr} {e : Ek}

/-! ### The command word (R525) -/

/-- A SEC command is answered with its operation's status. -/
def secAnswer (r : State × Nat) : State := { r.1 with sec.done := true, sec.status := r.2 }

theorem secCmd_eq : secCmd s who w = secAnswer (secOp s who w) := rfl

theorem secOp_partition (hp : p < 64) : secOp s who (2 + p % 64 * 16) = quotePartitionOp s who p := by
  unfold secOp
  have h1 : bits (2 + p % 64 * 16) 11 21 = 0 := by unfold bits; omega
  have h2 : bits (2 + p % 64 * 16) 0 4 = 2 := by unfold bits; omega
  have h3 : bits (2 + p % 64 * 16) 4 6 = p := by unfold bits; omega
  rw [h1, h2, h3]
  rfl

theorem secOp_drop {module : Bool} (hp : p < 64) : secOp s who (4 + p % 64 * 16 + b2n module * 1024) = ekDropOp s who p module := by
  have hb : b2n module ≤ 1 := by cases module <;> decide
  unfold secOp
  have h1 : bits (4 + p % 64 * 16 + b2n module * 1024) 11 21 = 0 := by unfold bits; omega
  have h2 : bits (4 + p % 64 * 16 + b2n module * 1024) 0 4 = 4 := by unfold bits; omega
  have h3 : bits (4 + p % 64 * 16 + b2n module * 1024) 4 6 = p := by unfold bits; omega
  have h4 : bitOf (4 + p % 64 * 16 + b2n module * 1024) 10 = module := by
    have hm : (4 + p % 64 * 16 + b2n module * 1024) / 2 ^ 10 = b2n module := by omega
    rw [bitOf, Nat.testBit_eq_decide_div_mod_eq, hm]
    cases module <;> rfl
  rw [h1, h2, h3, h4]
  rfl

/-! ### Quotes (R512-R514) -/

/-- A quote is asked for, of the module or of a partition (R512). -/
def quoteOp (s : State) (who : Req) (ptn : Option Nat) : State × Nat :=
  match ptn with
  | none => quoteModuleOp s who
  | some p => quotePartitionOp s who p

/-- The requester may ask for the quote (R503). -/
def mayQuote (s : State) (who : Req) (ptn : Option Nat) : Bool := isOperator s who || (isInstaller s who && ptn.isNone)

/-- The module and the partition are in a state that has a quote (R512). -/
def quotable (s : State) (ptn : Option Nat) : Bool := inField s && (ptn.isNone || ptnUp s (ptn.getD 0))

theorem quoteOp_eq : quoteOp s who ptn =
    if !mayQuote s who ptn then (s, scRole)
    else if !quotable s ptn then (s, scBadState)
    else if 4 ≤ (s.sec.eks.filter (fun e => e.ptn == ptn)).length then (s, scEkFull)
    else if !journalRoom s then (s, scRejected)
    else (makeQuote s who ptn, scOk) := by
  cases ptn with
  | none =>
    unfold quoteOp quoteModuleOp mayQuote quotable
    simp only [Option.isNone_none, Bool.and_true, Bool.true_or, Bool.or_comm]
  | some p =>
    unfold quoteOp quotePartitionOp mayQuote quotable
    simp only [Option.isNone_some, Bool.and_false, Bool.or_false, Bool.false_or, Option.getD_some, Bool.not_and]

/-- The key that a quote keeps (R512). -/
def quoteEk (s : State) (ptn : Option Nat) : Ek :=
  { ptn := ptn, meas := (match ptn with | some p => ptnMeas s p | none => modMeas s)
    qdigest := (shake256 64 (quoteBody s ptn (Config.mlkemPublic (draw s 64).1))).take 32, seed := (draw s 64).1
    bell := s.bell.count, ttl := s.sec.ekTtl }

/-- The state with a quote made, before its entry in the journal. -/
def quoteMade (s : State) (ptn : Option Nat) : State :=
  { (draw s 64).2 with
    sec.eks := s.sec.eks ++ [quoteEk s ptn], sec.qbuf := quoteBytes (draw s 64).2 (quoteBody s ptn (Config.mlkemPublic (draw s 64).1)) }

theorem makeQuote_eq : makeQuote s who ptn = journalFor (quoteMade s ptn) who
    { action := 0x0C, ptn := ptn.getD 0xFF, aux := if ptn.isSome then 2 else 1, data := slice s.sec.nonce 0 32 } := by
  cases ptn <;> rfl

theorem journalFor_sec {e : JEntry} : (journalFor s who e).sec = s.sec :=
  (journalFor_kept (Kept.refl [.mc, .int, .ptn, .ctx, .led, .lcs, .i3c] s) (Within.refl _)).rest .sec (by decide)

theorem quoteBytes_length {body : List Byte} : (quoteBytes s body).length = 4928 := slice_length ..

theorem makeQuote_spec : (makeQuote s who ptn).led.seq = s.led.seq + 1 ∧ (makeQuote s who ptn).sec.qbuf.length = 4928
    ∧ (makeQuote s who ptn).mem = s.mem ∧ (makeQuote s who ptn).sec.eks = s.sec.eks ++ [quoteEk s ptn] := by
  rw [makeQuote_eq, journalFor_sec, journalFor_mem, journalFor_spec.1]
  exact ⟨rfl, quoteBytes_length, rfl, rfl⟩

/-- SEC_NONCE is written before the quote, which changes no right, state or key. -/
def withNonce (s : State) (z : List Byte) : State := { s with sec.nonce := z }

theorem putNonce_eq : putNonce s who nonce = withNonce s (putNonce s who nonce).sec.nonce := by
  unfold putNonce
  split <;> rfl

theorem exec_quote (hm : mayCommand s who = true) (hp : p < 64)
    (hc : (c, ptn) ∈ [(Instr.quoteModule who nonce, none), (.quotePartition who p nonce, some p)]) :
    exec c s = .next (secAnswer (quoteOp (putNonce s who nonce) who ptn)) := by
  simp only [List.mem_cons, Prod.mk.injEq, List.not_mem_nil, or_false] at hc
  rcases hc with ⟨rfl, rfl⟩ | ⟨rfl, rfl⟩
  · exact congrArg Host.Outcome.next (if_pos hm)
  · refine congrArg Host.Outcome.next ((if_pos hm).trans ?_)
    rw [secCmd_eq, secOp_partition hp]
    rfl

theorem quoteOp_role (h : mayQuote s who ptn = false) : quoteOp s who ptn = (s, scRole) := quoteOp_eq.trans (if_pos (by rw [h]; rfl))

section Admitted

variable (h1 : mayQuote s who ptn = true)
include h1

theorem quoteOp_badState (h : quotable s ptn = false) : quoteOp s who ptn = (s, scBadState) :=
  quoteOp_eq.trans ((if_neg (by rw [h1]; decide)).trans (if_pos (by rw [h]; rfl)))

variable (h2 : quotable s ptn = true)
include h2

theorem quoteOp_full (h : 4 ≤ (s.sec.eks.filter (fun e => e.ptn == ptn)).length) : quoteOp s who ptn = (s, scEkFull) :=
  quoteOp_eq.trans ((if_neg (by rw [h1]; decide)).trans ((if_neg (by rw [h2]; decide)).trans (if_pos h)))

theorem quoteOp_ok (h : (s.sec.eks.filter (fun e => e.ptn == ptn)).length < 4) (hj : journalRoom s = true) :
    quoteOp s who ptn = (makeQuote s who ptn, scOk) :=
  quoteOp_eq.trans ((if_neg (by rw [h1]; decide)).trans ((if_neg (by rw [h2]; decide)).trans ((if_neg (not_le.2 h)).trans
    (if_neg (by rw [hj]; decide)))))

end Admitted

theorem quotable_eq (hc : (c, ptn) ∈ [(Instr.quoteModule who nonce, none), (.quotePartition who p nonce, some p)]) :
    quotable s ptn = (inField s && (ptn.isNone || ptnUp s p)) := by
  simp only [List.mem_cons, Prod.mk.injEq, List.not_mem_nil, or_false] at hc
  rcases hc with ⟨-, rfl⟩ | ⟨-, rfl⟩ <;> rfl

/-- What a quote answers, in a state with its nonce written. -/
theorem quotes (hm : mayCommand s who = true) (hp : p < 64)
    (hc : (c, ptn) ∈ [(Instr.quoteModule who nonce, none), (.quotePartition who p nonce, some p)]) :
    let answer (u : State) (k : Nat) := u.sec.done = true ∧ u.sec.status = k
    let may := isOperator s who || (isInstaller s who && ptn.isNone)
    let open_ := inField s && (ptn.isNone || ptnUp s p)
    let held := (s.sec.eks.filter (fun e => e.ptn == ptn)).length
    (may = false → Completes c s (fun u => answer u 1 ∧ u.sec.eks = s.sec.eks ∧ u.led = s.led))
    ∧ (may = true → open_ = false → Completes c s (fun u => answer u 2 ∧ u.sec.eks = s.sec.eks ∧ u.led = s.led))
    ∧ (may = true → open_ = true → 4 ≤ held → Completes c s (fun u => answer u 10 ∧ u.sec.eks = s.sec.eks ∧ u.led = s.led))
    ∧ (may = true → open_ = true → held < 4 → journalRoom s = true → Completes c s (fun u => answer u 0
        ∧ u.led.seq = s.led.seq + 1 ∧ u.sec.qbuf.length = 4928 ∧ u.mem = s.mem
        ∧ ∃ e, u.sec.eks = s.sec.eks ++ [e] ∧ e.ptn = ptn ∧ e.bell = s.bell.count ∧ e.ttl = s.sec.ekTtl)) := by
  have hx := exec_quote hm hp hc
  have hq := quotable_eq (s := s) hc
  have hn := putNonce_eq (s := s) (who := who) (nonce := nonce)
  generalize (putNonce s who nonce).sec.nonce = z at hn
  rw [hn] at hx
  intro answer may open_ held
  refine ⟨fun h1 => ?_, fun h1 h2 => ?_, fun h1 h2 h3 => ?_, fun h1 h2 h3 h4 => ?_⟩
  · rw [quoteOp_role (s := withNonce s z) h1] at hx
    exact .of_next hx ⟨⟨rfl, rfl⟩, rfl, rfl⟩
  · rw [quoteOp_badState (s := withNonce s z) h1 (hq.trans h2)] at hx
    exact .of_next hx ⟨⟨rfl, rfl⟩, rfl, rfl⟩
  · rw [quoteOp_full (s := withNonce s z) h1 (hq.trans h2) h3] at hx
    exact .of_next hx ⟨⟨rfl, rfl⟩, rfl, rfl⟩
  · rw [quoteOp_ok (s := withNonce s z) h1 (hq.trans h2) h3 h4] at hx
    obtain ⟨hseq, hlen, hmem, heks⟩ := makeQuote_spec (s := withNonce s z) (who := who) (ptn := ptn)
    exact .of_next hx ⟨⟨rfl, rfl⟩, hseq, hlen, hmem, _, heks, rfl, rfl, rfl⟩

/-! ### Key release (R515-R517) -/

/-- The state with SEC_KRBUF as it is read, and its record taken. -/
def recordTaken (s : State) : State := { s with sec.krbuf := [] }

/-- The state with the record's decapsulation key used up. -/
def keyUsed (s : State) (e : Ek) : State := { s with sec.eks := eraseFirst (· == e) s.sec.eks }

/-- What KEY_RELEASE does once the record's key is used up (R516). -/
def released (s : State) (who : Req) (r : List Byte) (opened : Option (List Byte)) : State × Nat :=
  match opened with
  | none => (s, scTagFail)
  | some b => if field r 1 1 = 1 then releaseContext s who r b else releaseBase s who r b

theorem released_context (h : field r 1 1 = 1) : released s who r (some b) = releaseContext s who r b := if_pos h

theorem released_base (h : field r 1 1 = 2) : released s who r (some b) = releaseBase s who r b := if_neg (by rw [h]; decide)

/-- The bundle of a record, opened under its decapsulation key (R516). -/
def openedBundle (r : List Byte) (e : Ek) : Option (List Byte) :=
  openGcm (shake256 32 (ascii "SV44-KEK" ++ Config.mlkemDecaps e.seed (slice r 0x28 1088) ++ slice r 8 32))
    (slice r 0x468 12) (slice r 0 0x28) (slice r 0x474 144)

section KeyRelease

variable (ho : isOperator s who = true)
include ho

theorem exec_keyRelease (hm : mayCommand s who = true) : exec (.keyRelease who rec) s =
    .next (secAnswer (keyReleaseOp { s with sec.krbuf := slice rec 0 1344 } who)) :=
  congrArg Host.Outcome.next ((if_pos hm).trans (congrArg (fun x => secCmd x who 3) (if_pos ho)))

variable (hf : inField s = true) (hr : slice s.sec.krbuf 0 1344 = r) (hk : krOk r = true)
include hf hr hk

theorem keyReleaseOp_noEk (h : s.sec.eks.find? (fun e => e.qdigest == slice r 8 32) = none) :
    keyReleaseOp s who = (recordTaken s, scNoEk) := by
  subst hr
  refine (if_neg (by rw [ho]; decide)).trans ((if_neg ?_).trans ((if_neg (by rw [hk]; decide)).trans ?_))
  · exact (by rw [hf]; decide : ¬ (!inField s) = true)
  · dsimp only
    rw [h]
    rfl

variable (h : s.sec.eks.find? (fun e => e.qdigest == slice r 8 32) = some e)
include h

theorem keyReleaseOp_kind (hkind : krKind s r e = false) : keyReleaseOp s who = (recordTaken s, scWrongKind) := by
  subst hr
  refine (if_neg (by rw [ho]; decide)).trans ((if_neg ?_).trans ((if_neg (by rw [hk]; decide)).trans ?_))
  · exact (by rw [hf]; decide : ¬ (!inField s) = true)
  · dsimp only
    rw [h]
    exact if_pos (congrArg not hkind : (!krKind s _ e) = true)

theorem keyReleaseOp_opened (hkind : krKind s r e = true) (hj : journalRoom s = true) :
    keyReleaseOp s who = released (keyUsed (recordTaken s) e) who r (openedBundle r e) := by
  subst hr
  refine (if_neg (by rw [ho]; decide)).trans ((if_neg ?_).trans ((if_neg (by rw [hk]; decide)).trans ?_))
  · exact (by rw [hf]; decide : ¬ (!inField s) = true)
  · dsimp only
    rw [h]
    refine (if_neg ?_).trans ((if_neg ?_).trans ?_)
    · exact (by rw [hkind]; decide : ¬ (!krKind s _ e) = true)
    · exact (by rw [hj]; decide : ¬ (!journalRoom s) = true)
    · unfold released
      rfl

end KeyRelease

theorem loadKey_sec {c : Nat} {key : KeySlot} : (loadKey s c key).sec = s.sec :=
  (loadKey_kept (Kept.refl [.mem, .memErr, .tags, .resv, .mc, .core, .int, .rc, .ptn, .ctx, .keys, .i3c] s) (Within.refl _)).rest .sec
    (by decide)

theorem loadKey_led {c : Nat} {key : KeySlot} : (loadKey s c key).led = s.led :=
  (loadKey_kept (Kept.refl [.mem, .memErr, .tags, .resv, .mc, .core, .int, .rc, .ptn, .ctx, .keys, .i3c] s) (Within.refl _)).rest .led
    (by decide)

theorem setCtxState_keys {c : Nat} {y : CtxState} : (setCtxState s c y).keys = s.keys :=
  (setCtxState_kept (Kept.refl [.mc, .core, .int, .rc, .ptn, .ctx, .i3c] s) (Within.refl _)).rest .keys (by decide)

theorem bumpCtxGen_keys {c : Nat} : (bumpCtxGen s c).keys = s.keys :=
  (bumpCtxGen_kept (Kept.refl [.mem, .memErr, .tags, .resv, .ctx] s) (Within.refl _)).rest .keys (by decide)

theorem loadKey_keys {c : Nat} {key : KeySlot} : (loadKey s c key).keys = { s.keys with ctx := tset none s.keys.ctx c (some key) } := by
  unfold loadKey
  rw [setCtxState_keys]
  exact bumpCtxGen_keys

theorem journalFor_tableKeys {e : JEntry} : (journalFor s who e).keys = s.keys :=
  (journalFor_kept (Kept.refl [.mc, .int, .ptn, .ctx, .led, .lcs, .i3c] s) (Within.refl _)).rest .keys (by decide)

/-- R411: the bundle of a FREE context with nothing queued is loaded at once. -/
theorem releaseContext_free (hs : (getCtx s (field r 2 2)).state = .free) (hq : (getCtx s (field r 2 2)).enableQ = []) :
    ∃ e : JEntry, releaseContext s who r b = (loadKey (journalFor s who e) (field r 2 2) (bundleKeys b), scOk) := by
  unfold releaseContext
  dsimp only
  rw [hs, hq]
  exact ⟨_, rfl⟩

theorem releaseContext_loaded (hs : (getCtx s (field r 2 2)).state = .free) (hq : (getCtx s (field r 2 2)).enableQ = []) :
    (releaseContext s who r b).2 = 0 ∧ tget none (releaseContext s who r b).1.keys.ctx (field r 2 2) = some (bundleKeys b)
    ∧ (getCtx (releaseContext s who r b).1 (field r 2 2)).state = .keyed ∧ (releaseContext s who r b).1.sec = s.sec
    ∧ (releaseContext s who r b).1.led.seq = s.led.seq + 1 := by
  obtain ⟨e, h⟩ := releaseContext_free (who := who) (b := b) hs hq
  rw [h]
  dsimp only
  refine ⟨rfl, ?_, getCtx_loadKey.1, loadKey_sec.trans journalFor_sec, ?_⟩
  · rw [loadKey_keys]
    dsimp only
    rw [tget_tset_same]
  · rw [loadKey_led]
    exact journalFor_spec.1

/-- The entry of a base slot's key release. -/
def baseKeyEntry (r : List Byte) : JEntry := { action := 0x0B, aux := 0x8000 + field r 2 2, data := slice r 8 32 }

/-- A base slot's key loaded (R517). -/
def baseLoaded (s : State) (n : Nat) (key : KeySlot) : State := { s with keys.base := tset none s.keys.base n (some key) }

section Base

variable (hw : field r 2 2 < ((moduleWins s).filter (fun w => w.type == .base)).length) (hb : tget none s.keys.base (field r 2 2) = none)
  (hz : allZero (bundleKeys b).exp = true)
include hw hb hz

theorem releaseBase_free : releaseBase s who r b = (baseLoaded (journalFor s who (baseKeyEntry r)) (field r 2 2) (bundleKeys b), scOk) :=
  (if_neg (not_le.2 hw)).trans ((if_neg (by rw [hb]; decide)).trans (if_neg (by rw [hz]; decide)))

theorem releaseBase_loaded :
    (releaseBase s who r b).2 = 0 ∧ tget none (releaseBase s who r b).1.keys.base (field r 2 2) = some (bundleKeys b)
    ∧ (releaseBase s who r b).1.keys.ctx = s.keys.ctx ∧ (releaseBase s who r b).1.sec = s.sec
    ∧ (releaseBase s who r b).1.led.seq = s.led.seq + 1 := by
  rw [releaseBase_free hw hb hz]
  refine ⟨rfl, ?_, ?_, journalFor_sec, journalFor_spec.1⟩
  · dsimp only [baseLoaded]
    rw [tget_tset_same]
  · have hk := congrArg KeyBlk.ctx (journalFor_tableKeys (s := s) (who := who) (e := baseKeyEntry r))
    exact hk

end Base

/-! ### EK_DROP (R514) -/

theorem exec_ekDrop {module : Bool} (hm : mayCommand s who = true) (hp : p < 64) :
    exec (.ekDrop who p module) s = .next (secAnswer (ekDropOp s who p module)) :=
  congrArg Host.Outcome.next ((if_pos hm).trans (congrArg secAnswer (secOp_drop hp)))

theorem ekDropOp_partition (h : isOperator s who = true) : ekDropOp s who p false = (dropPtnEks s p, scOk) :=
  (if_neg Bool.false_ne_true).trans (if_pos h)

theorem ekDropOp_module (h : isOperator s who = true ∨ isInstaller s who = true) :
    ekDropOp s who p true = ({ s with sec.eks := s.sec.eks.filter (fun e => e.ptn != none) }, scOk) :=
  (if_pos rfl).trans (if_pos (Bool.or_eq_true_iff.2 h.symm))

/-- What KEY_RELEASE answers to a record whose reserved fields and TARGET are right. -/
theorem keyReleases (hm : mayCommand s who = true) (ho : isOperator s who = true) (hf : inField s = true)
    (hr : slice (slice rec 0 1344) 0 1344 = r) (hk : krOk r = true) :
    let answer (u : State) (k : Nat) := u.sec.done = true ∧ u.sec.status = k
    let c : Instr := .keyRelease who rec
    (s.sec.eks.find? (fun e => e.qdigest == slice r 8 32) = none → Completes c s (fun u => answer u 4 ∧ u.keys = s.keys
      ∧ u.sec.eks = s.sec.eks))
    ∧ (∀ e, s.sec.eks.find? (fun e => e.qdigest == slice r 8 32) = some e →
      (krKind s r e = false → Completes c s (fun u => answer u 5 ∧ u.keys = s.keys ∧ u.sec.eks = s.sec.eks))
      ∧ (krKind s r e = true → journalRoom s = true →
        (openedBundle r e = none → Completes c s (fun u => answer u 6 ∧ u.keys = s.keys ∧ u.sec.eks = eraseFirst (· == e) s.sec.eks))
        ∧ (∀ b, openedBundle r e = some b → field r 1 1 = 1 → (getCtx s (field r 2 2)).state = .free →
            (getCtx s (field r 2 2)).enableQ = [] → Completes c s (fun u => answer u 0
              ∧ tget none u.keys.ctx (field r 2 2) = some (bundleKeys b) ∧ (getCtx u (field r 2 2)).state = .keyed
              ∧ u.sec.eks = eraseFirst (· == e) s.sec.eks ∧ u.led.seq = s.led.seq + 1))
        ∧ (∀ b, openedBundle r e = some b → field r 1 1 = 2 →
            field r 2 2 < ((moduleWins s).filter (fun w => w.type == .base)).length → tget none s.keys.base (field r 2 2) = none →
            allZero (bundleKeys b).exp = true → Completes c s (fun u => answer u 0
              ∧ tget none u.keys.base (field r 2 2) = some (bundleKeys b) ∧ u.keys.ctx = s.keys.ctx
              ∧ u.sec.eks = eraseFirst (· == e) s.sec.eks ∧ u.led.seq = s.led.seq + 1)))) := by
  intro answer c
  have hx := exec_keyRelease (rec := rec) ho hm
  refine ⟨fun h => ?_, fun e h => ⟨fun hkind => ?_, fun hkind hj => ?_⟩⟩
  · rw [keyReleaseOp_noEk (s := { s with sec.krbuf := slice rec 0 1344 }) (r := r) ho hf hr hk h] at hx
    exact .of_next hx ⟨⟨rfl, rfl⟩, rfl, rfl⟩
  · rw [keyReleaseOp_kind (s := { s with sec.krbuf := slice rec 0 1344 }) (r := r) ho hf hr hk h hkind] at hx
    exact .of_next hx ⟨⟨rfl, rfl⟩, rfl, rfl⟩
  · rw [keyReleaseOp_opened (s := { s with sec.krbuf := slice rec 0 1344 }) (r := r) ho hf hr hk h hkind hj] at hx
    refine ⟨fun hn => ?_, fun b hb ht hs hq => ?_, fun b hb ht hw hn hz => ?_⟩
    · rw [hn] at hx
      exact .of_next hx ⟨⟨rfl, rfl⟩, rfl, rfl⟩
    · obtain ⟨h0, hkey, hst, hsec, hseq⟩ := releaseContext_loaded (s := keyUsed (recordTaken { s with sec.krbuf := slice rec 0 1344 }) e)
        (who := who) (b := b) hs hq
      rw [hb, released_context ht] at hx
      exact .of_next hx ⟨⟨rfl, h0⟩, hkey, hst, congrArg (fun y : SecBlk => y.eks) hsec, hseq⟩
    · obtain ⟨h0, hkey, hctx, hsec, hseq⟩ := releaseBase_loaded (s := keyUsed (recordTaken { s with sec.krbuf := slice rec 0 1344 }) e)
        (who := who) (b := b) hw hn hz
      rw [hb, released_base ht] at hx
      exact .of_next hx ⟨⟨rfl, h0⟩, hkey, hctx, congrArg (fun y : SecBlk => y.eks) hsec, hseq⟩

/-- Settles O52: each command's row read through its word, then each refusal and each key's way by its own lemma. -/
theorem quotesAndKeyRelease : Obligations.QuotesAndKeyRelease := by
  unfold Obligations.QuotesAndKeyRelease
  intro s who hm answer
  refine ⟨fun nonce c ptn p hp hc => quotes hm hp hc, fun rec ho hf => ?_, fun p hp ho => ?_, fun p hp ho => ?_, .of_next rfl rfl⟩
  · intro r c hk
    exact keyReleases hm ho hf rfl hk
  · refine .of_next ((exec_ekDrop hm hp).trans (congrArg (fun y => Host.Outcome.next (secAnswer y)) (ekDropOp_partition ho))) ?_
    exact ⟨⟨rfl, rfl⟩, rfl, rfl⟩
  · refine .of_next ((exec_ekDrop hm hp).trans (congrArg (fun y => Host.Outcome.next (secAnswer y)) (ekDropOp_module ho))) ?_
    exact ⟨⟨rfl, rfl⟩, rfl, rfl⟩

end Sys2Proof.Machine
end


section
/-! SUPPORT and proof of the re-runs of a checker decision. -/

namespace Sys2Proof.Machine

variable {s t u w : State} {n m b : Nat} {d : Decision} {up : ArrayUpset} {rows : List AccRow} {r : Option (List AccRow)}

/-! ### The re-run slot (R533) -/

/-- A decision with the re-run that core `m` makes for it. -/
def Decision.rerunOn (d : Decision) (m : Nat) : Decision :=
  { d with running := some m, used := d.used ++ [m], core1 := if d.core1 = 0xFFFF then m else d.core1,
           core2 := if d.core1 = 0xFFFF then 0xFFFF else m }

/-- A decision whose re-run has ended. -/
def Decision.idle (d : Decision) : Decision := { d with running := none }

/-- A core's decision is replaced. -/
def withDecision (s : State) (n : Nat) (d : Decision) : State := modCore s n (fun c => { c with decision := some d })

theorem rerunCore_ne (h : rerunCore s n d = some m) : m ≠ n := by
  unfold rerunCore at h
  split at h
  · exact absurd h (by simp)
  · have hp := List.find?_some h
    simp only [Bool.and_eq_true, bne_iff_ne] at hp
    exact hp.1.1.1.1.1

theorem exec_rerunStart (hd : (getCore s n).decision = some d) (hr : d.running = none) (hm : rerunCore s n d = some m) :
    exec (.checkerRerunStart n) s = .next (withDecision (modCore s m (fun c => { c with rerun := some n })) n (d.rerunOn m)) := by
  change execCheckerRerunStart n s = _
  unfold execCheckerRerunStart
  rw [hd]
  dsimp only
  rw [hr, if_neg (by decide), hm]
  rfl

theorem getCore_slotTaken (h : m ≠ n) :
    (getCore (withDecision (modCore s m (fun c => { c with rerun := some n })) n (d.rerunOn m)) n).decision = some (d.rerunOn m)
    ∧ (getCore (withDecision (modCore s m (fun c => { c with rerun := some n })) n (d.rerunOn m)) m).rerun = some n := by
  unfold withDecision
  refine ⟨?_, ?_⟩
  · rw [getCore_modCore]
  · rw [getCore_modCore_other _ _ h, getCore_modCore]

/-! ### The outcome of a re-run (R532) -/

/-- The state after a re-run, with its core's slot free. -/
def slotFreed (t : State) (m : Nat) : State := modCore t m (fun c => { c with rerun := none })

/-- The state with an outcome raised. -/
def outcomeRaised (t : State) (n m : Nat) (d : Decision) (c : FaultCode) (k : Nat) (rows : List AccRow) : State :=
  raiseOutcome (slotFreed t m) n d.idle c k (diffCol d.r0 rows)

theorem exec_rerunDone (hd : (getCore s n).decision = some d) (hr : d.running = some m) (ha : (getCore s m).acdRun = none)
    (hw : (getCore s m).wcdRun = none) : exec (.checkerRerunDone n up) s = .next (rerunDone s n m d up) := by
  change execCheckerRerunDone n up s = _
  unfold execCheckerRerunDone
  rw [hd]
  dsimp only
  rw [hr]
  dsimp only
  rw [ha, hw, if_neg (by decide)]

section Outcome

variable (hr : rerunResult s n m d up = (t, some rows))
include hr

section First

variable (h1 : d.core2 = 0xFFFF)
include h1

theorem rerunDone_stands (h : rows = d.r0) :
    rerunDone s n m d up = detain (accept (outcomeRaised t n m d .checkerFault 1 rows) n d.idle rows) n := by
  unfold rerunDone
  rw [hr]
  exact (if_pos (beq_iff_eq.2 h1)).trans (if_pos h)

theorem rerunDone_replaces (h : rows ≠ d.r0) (hc : d.chk = []) :
    rerunDone s n m d up = detain (accept (outcomeRaised t n m d .resultReplaced 2 rows) n d.idle rows) n := by
  unfold rerunDone
  rw [hr]
  exact (if_pos (beq_iff_eq.2 h1)).trans ((if_neg h).trans (if_pos (by rw [hc]; rfl)))

theorem rerunDone_kept_for_third (h : rows ≠ d.r0) (hc : d.chk ≠ []) :
    rerunDone s n m d up = withDecision (slotFreed t m) n { d.idle with r1 := some rows } := by
  unfold rerunDone
  rw [hr]
  exact (if_pos (beq_iff_eq.2 h1)).trans ((if_neg h).trans (if_neg (mt List.isEmpty_iff.1 hc)))

end First

section Third

variable (h1 : d.core2 ≠ 0xFFFF) (h : rows ≠ d.r0)
include h1 h

theorem rerunDone_agrees (hc : d.r1 = some rows) :
    rerunDone s n m d up = detain (accept (outcomeRaised t n m d .resultReplaced 2 rows) n d.idle rows) n := by
  unfold rerunDone
  rw [hr]
  exact (if_neg (mt beq_iff_eq.1 h1)).trans ((if_neg h).trans (if_pos hc.symm))

theorem rerunDone_noMajority (hc : d.r1 ≠ some rows) :
    rerunDone s n m d up = noMajority (withDecision (slotFreed t m) n d.idle) n true := by
  unfold rerunDone
  rw [hr]
  exact (if_neg (mt beq_iff_eq.1 h1)).trans ((if_neg h).trans (if_neg (Ne.symm hc)))

end Third

end Outcome

theorem outcomeRaised_spec {c : FaultCode} {k : Nat} : (outcomeRaised t n m d c k rows).mem = t.mem
    ∧ (outcomeRaised t n m d c k rows).int.lastCode = c.code ∧ (outcomeRaised t n m d c k rows).rc = t.rc := by
  unfold outcomeRaised raiseOutcome
  exact ⟨raise_mem, raise_lastCode, raise_rc⟩

theorem exec_decisionDeadline (hd : (getCore s n).decision = some d) (hb : d.slotEnd = some b) (hr : d.running = none)
    (hm : rerunCore s n d = none) (hc : counting s = true) (hle : b ≤ s.bell.count) :
    exec (.decisionDeadline n) s = .next (noMajority s n true) := by
  change execDecisionDeadline n s = _
  unfold execDecisionDeadline
  rw [hd]
  dsimp only
  rw [hb]
  dsimp only
  rw [hr, hm, hc, if_pos (by simp [hle])]

/-- Settles O53: one lemma for each outcome of a re-run. -/
theorem checkerDecisions : Obligations.CheckerDecisions := by
  unfold Obligations.CheckerDecisions
  intro s n d hd
  refine ⟨fun m hr hm => ?_, fun m up t rows hr ha hw hres => ?_, fun b hb hr hm hc hle =>
    .of_next (exec_decisionDeadline hd hb hr hm hc hle) rfl⟩
  · have ⟨h1, h2⟩ := getCore_slotTaken (s := s) (d := d) (rerunCore_ne hm)
    exact .of_next (exec_rerunStart hd hr hm) ⟨h1, h2, rfl⟩
  · intro e kept
    have hx := exec_rerunDone (up := up) hd hr ha hw
    refine ⟨fun h1 h => ?_, fun h1 h hc => ?_, fun h1 h hc hmn => ?_, fun h1 h hc => ?_, fun h1 h hc => ?_⟩
    · exact .of_next hx ⟨_, outcomeRaised_spec, rerunDone_stands hres h1 h⟩
    · exact .of_next hx ⟨_, outcomeRaised_spec, rerunDone_replaces hres h1 h hc⟩
    · rw [rerunDone_kept_for_third hres h1 h hc] at hx
      refine .of_next hx ⟨rfl, ?_, ?_⟩ <;> unfold withDecision
      · rw [getCore_modCore]
        rfl
      · rw [getCore_modCore_other _ _ hmn]
        unfold slotFreed
        rw [getCore_modCore]
    · exact .of_next hx ⟨_, outcomeRaised_spec, rerunDone_agrees hres h1 h hc⟩
    · refine .of_next hx ⟨withDecision (slotFreed t m) n e, rfl, ?_, rerunDone_noMajority hres h1 h hc⟩
      unfold withDecision
      rw [getCore_modCore]

end Sys2Proof.Machine
end


section
/-! SUPPORT and proof of the memory patrol, quizzes and the fault log. -/

namespace Sys2Proof.Machine

variable {s t u : State} {a addr n q k : Nat} {p : Place} {who : Req} {e : Nat × WordErr} {l : List (Nat × WordErr)}

/-! ### The patrol (R527, R528) -/

/-- What the patrol does with a word of its range that is in error. -/
def patrolWord (p : Place) (s : State) (e : Nat × WordErr) : State :=
  match e.2 with
  | .double => raise s (if inModuleKey s p then .memUeModule else .memUe) (wordAt (8 * e.1) 1 (e.2 != .double))
  | _ => raise { s with memErr := tdel s.memErr e.1, int.ceLog := s.int.ceLog ++ [(8 * e.1, s.bell.count)] } .memCe
      (wordAt (8 * e.1) 1 (e.2 != .double))

/-- The words in error that a patrol's range meets. -/
def patrolHits (s : State) (a n : Nat) : Tbl WordErr :=
  s.memErr.filter (fun e => decide (a < 8 * e.1 + 8) && decide (8 * e.1 < a + n))

theorem patrolled_memErr : (patrolled s p n).memErr = s.memErr :=
  (patrolled_kept (Kept.refl [.mc] s) (Within.refl _)).rest .memErr (by decide)

theorem patrol_eq (hp : placeOf none a = some p) (hs : p.1.isSram = false) :
    patrol s a n = forEach (patrolHits s a n) (patrolWord p) (patrolled s p n) := by
  unfold patrol
  rw [hp]
  dsimp only
  rw [hs, if_neg (by decide), patrolled_memErr]
  rfl

theorem patrol_memErr_of_noHits (h : patrolHits s a n = []) : (patrol s a n).memErr = s.memErr := by
  cases hp : placeOf none a with
  | none => unfold patrol; rw [hp]
  | some p =>
    cases hs : p.1.isSram with
    | true => unfold patrol; rw [hp]; dsimp only; rw [hs, if_pos rfl]
    | false => rw [patrol_eq hp hs, h]; exact patrolled_memErr

/-- A patrol of no bytes reads no word. -/
theorem patrolHits_zero (ha : addr % 8 = 0) : patrolHits s addr 0 = [] := by
  unfold patrolHits
  refine List.filter_eq_nil_iff.2 fun e _ => ?_
  simp only [Bool.and_eq_true, decide_eq_true_eq, not_and, not_lt]
  omega

theorem ceRepairs_memErr : (ceRepairs s).memErr = s.memErr :=
  (ceRepairs_kept (Kept.refl [.mc, .int, .ptn, .ctx, .led, .lcs, .tst, .i3c] s) (Within.refl _)).rest .memErr (by decide)

theorem patrolWord_memErr : (patrolWord p s e).memErr = if e.2 = .double then s.memErr else tdel s.memErr e.1 := by
  unfold patrolWord
  split
  · next h => rw [h, if_pos rfl, raise_parts]
  · next h => rw [if_neg h, raise_parts]

/-- A word that the patrol meets with a single error is free of error after it; any other is as before. -/
theorem forEach_patrolWord_memErr : tget .none (forEach l (patrolWord p) s).memErr k =
    if ∃ e ∈ l, e.1 = k ∧ e.2 ≠ .double then .none else tget .none s.memErr k := by
  induction l generalizing s with
  | nil => exact (if_neg fun h => by obtain ⟨e, he, -⟩ := h; cases he).symm
  | cons e l ih =>
    rw [forEach_cons, ih, patrolWord_memErr]
    by_cases hl : ∃ e ∈ l, e.1 = k ∧ e.2 ≠ .double
    · rw [if_pos hl, if_pos]
      obtain ⟨x, hx, h⟩ := hl
      exact ⟨x, List.mem_cons_of_mem _ hx, h⟩
    · rw [if_neg hl]
      by_cases he : e.1 = k ∧ e.2 ≠ .double
      · rw [if_neg he.2, he.1, tget_tdel_same, if_pos ⟨e, List.mem_cons_self .., he⟩]
      · rw [if_neg (c := ∃ x ∈ e :: l, _)]
        · by_cases hd : e.2 = .double
          · rw [if_pos hd]
          · rw [if_neg hd, tget_tdel_other fun hk => he ⟨hk.symm, hd⟩]
        · rintro ⟨x, hx, h⟩
          rcases List.mem_cons.1 hx with rfl | hx
          · exact he h
          · exact hl ⟨x, hx, h⟩

/-- A word of the range with a single error is one of the words that the patrol meets. -/
theorem patrolHits_single (hw : twf .none s.memErr = true) (hn : tget .none s.memErr k ≠ .none) :
    (∃ e ∈ patrolHits s a n, e.1 = k ∧ e.2 ≠ .double) ↔ a < 8 * k + 8 ∧ 8 * k < a + n ∧ tget .none s.memErr k ≠ .double := by
  have hsorted := (twf_iff.1 hw).1
  constructor
  · rintro ⟨⟨i, v⟩, hm, rfl, hv⟩
    obtain ⟨hmem, hr⟩ := List.mem_filter.1 hm
    simp only [Bool.and_eq_true, decide_eq_true_eq] at hr
    exact ⟨hr.1, hr.2, by rwa [tget_of_mem hsorted hmem]⟩
  · rintro ⟨h1, h2, h3⟩
    exact ⟨_, List.mem_filter.2 ⟨mem_of_tget_ne hn, by simp [h1, h2]⟩, rfl, h3⟩

theorem patrol_memErr (hw : twf .none s.memErr = true) (hp : placeOf none a = some p) (hs : p.1.isSram = false) :
    tget .none (patrol s a n).memErr k = if a < 8 * k + 8 ∧ 8 * k < a + n ∧ tget .none s.memErr k ≠ .double then .none
      else tget .none s.memErr k := by
  rw [patrol_eq hp hs, forEach_patrolWord_memErr, patrolled_memErr]
  by_cases hn : tget .none s.memErr k = .none
  · rw [hn, ite_self, ite_self]
  · rw [if_congr (patrolHits_single hw hn) rfl rfl]

theorem memoryPatrol_mem {ups : List (Nat × Bool)} (h : exec (.memoryPatrol ups addr n) s = .next u) : u.mem = s.mem :=
  (execMemoryPatrol_kept (Kept.refl [.memErr, .mc, .int, .ptn, .ctx, .led, .lcs, .tst, .i3c] s) h (Within.refl _)).rest .mem (by decide)

/-- The state with one word upset. -/
def upset (s : State) (w : Nat) (d : Bool) : State :=
  { s with memErr := tset .none s.memErr w (if d || tget .none s.memErr w != .none then .double else .single) }

theorem patrol_upset {d : Bool} (ha : addr % 8 = 0) : Completes (.memoryPatrol [(a, d)] addr 0) s (fun u =>
    tget .none u.memErr (a / 8) = (if d || tget .none s.memErr (a / 8) != .none then .double else .single)
    ∧ (∀ k, k ≠ a / 8 → tget .none u.memErr k = tget .none s.memErr k) ∧ u.mem = s.mem) := by
  have hx : exec (.memoryPatrol [(a, d)] addr 0) s = .next (ceRepairs (patrol (upset s (a / 8) d) addr 0)) := rfl
  refine .of_next hx ⟨?_, fun k hk => ?_, memoryPatrol_mem hx⟩ <;>
    rw [ceRepairs_memErr, patrol_memErr_of_noHits (patrolHits_zero ha)] <;> unfold upset <;> dsimp only
  · rw [tget_tset_same]
  · rw [tget_tset_other hk]

/-! ### Quizzes (R538-R540, R268) -/

theorem getPhys_of_phys (h : u.phys = s.phys) : getPhys u q = getPhys s q := by unfold getPhys; rw [h]

theorem getPhys_modPhys {f : Phys → Phys} : getPhys (modPhys s q f) q = f (getPhys s q) := by
  unfold getPhys modPhys
  dsimp only
  rw [tget_tset_same]
  split
  · next h => exact h.symm
  · rfl

theorem getPhys_modPhys_other {f : Phys → Phys} {r : Nat} (h : r ≠ q) : getPhys (modPhys s q f) r = getPhys s r := by
  unfold getPhys modPhys
  dsimp only
  rw [tget_tset_other h]

theorem getPhys_raise {c : FaultCode} {f : FaultAt} : getPhys (raise s c f) q = getPhys s q :=
  getPhys_of_phys (by rw [raise_parts])

theorem getPhys_thawCore : getPhys (thawCore s n) q = getPhys s q :=
  getPhys_of_phys ((thawCore_kept (Kept.refl [.core] s) (Within.refl _)).rest .phys (by decide))

theorem getPhys_freezeCore : getPhys (freezeCore s n) q = getPhys s q :=
  getPhys_of_phys ((freezeCore_kept (Kept.refl [.core] s) (Within.refl _)).rest .phys (by decide))

theorem getPhys_addRep {r : Repair} : getPhys (addRep s r) q = getPhys s q :=
  getPhys_of_phys ((addRep_kept (Kept.refl [.mc, .int, .ptn, .ctx, .led, .lcs, .tst, .i3c] s) (Within.refl _)).rest .phys (by decide))

/-- A core back in service has its test's marks off and is else as before. -/
theorem getPhys_endQuiz : getPhys (endQuiz s q) q = { getPhys s q with testing := false, testFor := 0xFF, testDone := false } := by
  unfold endQuiz
  dsimp only
  split
  · exact getPhys_modPhys
  · rw [getPhys_thawCore, getPhys_modPhys]

theorem endQuiz_int : (endQuiz s q).int = s.int :=
  (endQuiz_kept (Kept.refl [.core, .phys] s) (Within.refl _)).rest .int (by decide)

theorem detainPhys_int : (detainPhys s q).int = s.int :=
  (detainPhys_kept (Kept.refl [.core, .phys] s) (Within.refl _)).rest .int (by decide)

/-- The SPARE of a cluster stands by. -/
theorem spareOf_state {r : Nat} (h : spareOf s k = some r) : (getPhys s r).state = .spare :=
  beq_iff_eq.1 (List.find?_some (p := fun q => (getPhys s q).state == .spare) h)

/-- A detained core that leaves service has no number and is else as before. -/
theorem getPhys_leaveService (h : (getPhys s q).state = .detained) :
    getPhys (leaveService s q) q = { getPhys s q with leaving := false, number := 0x3FF } := by
  unfold leaveService
  dsimp only
  split
  · exact getPhys_modPhys
  · split
    · next r hr =>
      have hs := spareOf_state hr
      have hne : q ≠ r := by
        rintro rfl
        rw [getPhys_modPhys] at hs
        exact absurd (h.symm.trans hs) (by decide)
      unfold standIn
      rw [getPhys_thawCore, getPhys_modPhys_other hne, getPhys_modPhys]
    · rw [getPhys_freezeCore, getPhys_modPhys]

/-- R540: an ACTIVE core that is detained has FAILS 1 and CLEAN 0. -/
theorem detainPhys_active (h : (getPhys s q).state = .active) : (getPhys (detainPhys s q) q).state = .detained
    ∧ (getPhys (detainPhys s q) q).fails = 1 ∧ (getPhys (detainPhys s q) q).clean = 0 := by
  unfold detainPhys
  dsimp only
  rw [h]
  dsimp only
  split
  · rw [getPhys_modPhys]
    exact ⟨rfl, rfl, rfl⟩
  · rw [getPhys_leaveService (by rw [getPhys_modPhys]), getPhys_modPhys]
    exact ⟨rfl, rfl, rfl⟩

/-- R540: a retired core has no number. -/
theorem getPhys_retire : (getPhys (retire s q) q).state = .retired ∧ (getPhys (retire s q) q).number = 0x3FF := by
  unfold retire
  dsimp only
  split
  · rw [getPhys_addRep, getPhys_raise, getPhys_modPhys]
    exact ⟨rfl, rfl⟩
  · split
    · rw [getPhys_addRep, getPhys_raise, getPhys_modPhys]
      exact ⟨rfl, rfl⟩
    · split
      · rw [getPhys_modPhys, getPhys_addRep, getPhys_raise, getPhys_modPhys]
        exact ⟨rfl, rfl⟩
      · rw [getPhys_raise, getPhys_modPhys, getPhys_addRep, getPhys_raise, getPhys_modPhys]
        exact ⟨rfl, rfl⟩

/-- The state with a core's test over. -/
def tested (s : State) (q : Nat) : State :=
  modPhys s q (fun x => { x with
    testing := false, sets := [], testDone := x.testFor != 0xFF, due := false, overdue := false, lastQuiz := s.bell.count })

theorem exec_quizComplete {f : Option (Nat × Nat × Nat × Nat)} (hq : q < 1152) : exec (.quizComplete q f) s = .next (quizComplete s q f) :=
  congrArg Host.Outcome.next (if_pos hq)

theorem quizComplete_mem {f : Option (Nat × Nat × Nat × Nat)} : (quizComplete s q f).mem = s.mem :=
  (quizComplete_kept (Kept.refl [.mc, .core, .phys, .int, .ptn, .ctx, .led, .lcs, .tst, .i3c] s) (Within.refl _)).rest .mem (by decide)

section Testing

variable (ht : (getPhys s q).testing = true)
include ht

theorem quizComplete_passed (hs : (getPhys s q).state ≠ .detained) (h0 : (getPhys s q).testFor = 0xFF) :
    quizComplete s q none = endQuiz (tested s q) q := by
  unfold quizComplete
  dsimp only
  rw [if_neg (by rw [ht]; exact Bool.false_ne_true), if_neg (mt beq_iff_eq.1 hs), if_pos h0]
  rfl

/-- R540: a detained core that passes counts one more clean test. -/
theorem quizComplete_clean (hs : (getPhys s q).state = .detained) (h96 : (getPhys s q).clean + 1 < 96) :
    quizComplete s q none = modPhys (tested s q) q (fun x => { x with clean := x.clean + 1, releasing := decide (96 ≤ x.clean + 1) }) := by
  unfold quizComplete
  dsimp only
  rw [if_neg (by rw [ht]; exact Bool.false_ne_true), if_pos (beq_iff_eq.2 hs)]
  refine if_neg fun h => ?_
  rw [Bool.and_eq_true, getPhys_modPhys] at h
  have h' := of_decide_eq_true h.1
  rw [show getPhys _ q = _ from getPhys_modPhys] at h'
  exact absurd h96 (not_lt.2 h')

variable {f : Nat × Nat × Nat × Nat}

theorem quizComplete_notRun (hf : (f.1, f.2.1) ∉ (getPhys s q).sets) : quizComplete s q (some f) = s := by
  unfold quizComplete
  dsimp only
  refine if_pos ?_
  rw [ht]
  simpa using hf

variable (hf : (f.1, f.2.1) ∈ (getPhys s q).sets)
include hf

/-- R539: a failed set raises QUIZ_FAIL, and its core is detained, or retired where it is in detention. -/
theorem quizComplete_failed : ∃ w : FaultAt, quizComplete s q (some f) =
    if (getPhys s q).state = .detained then retire (raise (tested s q) .quizFail w) q
    else detainPhys (if (getPhys s q).testFor = 0xFF then endQuiz (raise (tested s q) .quizFail w) q else raise (tested s q) .quizFail w) q := by
  unfold quizComplete
  dsimp only
  rw [if_neg (by rw [ht]; simpa using hf)]
  simp only [beq_iff_eq]
  exact ⟨_, rfl⟩

end Testing

theorem getPhys_tested : getPhys (tested s q) q = { getPhys s q with
    testing := false, sets := [], testDone := (getPhys s q).testFor != 0xFF, due := false, overdue := false, lastQuiz := s.bell.count } :=
  getPhys_modPhys

/-- What the end of a test leaves. -/
theorem quizEnds (hq : q < 1152) (ht : (getPhys s q).testing = true) :
    let x := getPhys s q
    (x.state ≠ .detained → x.testFor = 0xFF → Completes (.quizComplete q none) s (fun u => getPhys u q = { x with
        testing := false, testFor := 0xFF, testDone := false, sets := [], due := false, overdue := false, lastQuiz := s.bell.count }
      ∧ u.mem = s.mem ∧ u.int = s.int))
    ∧ (x.state = .detained → x.clean + 1 < 96 → Completes (.quizComplete q none) s (fun u =>
        (getPhys u q).state = .detained ∧ (getPhys u q).clean = x.clean + 1 ∧ (getPhys u q).testing = false ∧ u.core = s.core))
    ∧ (∀ f, (f.1, f.2.1) ∉ x.sets → exec (.quizComplete q (some f)) s = .next s)
    ∧ (∀ f, (f.1, f.2.1) ∈ x.sets → x.state = .active → x.testFor = 0xFF → Completes (.quizComplete q (some f)) s (fun u =>
        (getPhys u q).state = .detained ∧ (getPhys u q).fails = 1 ∧ (getPhys u q).clean = 0
        ∧ u.int.lastCode = FaultCode.quizFail.code ∧ u.mem = s.mem))
    ∧ (∀ f, (f.1, f.2.1) ∈ x.sets → x.state = .detained → Completes (.quizComplete q (some f)) s (fun u =>
        (getPhys u q).state = .retired ∧ (getPhys u q).number = 0x3FF ∧ u.mem = s.mem)) := by
  intro x
  refine ⟨fun hs h0 => ?_, fun hs h96 => ?_, fun f hf => (exec_quizComplete hq).trans (congrArg _ (quizComplete_notRun ht hf)),
    fun f hf hs h0 => ?_, fun f hf hs => ?_⟩
  · refine .of_next (exec_quizComplete hq) ⟨?_, quizComplete_mem, ?_⟩ <;> rw [quizComplete_passed ht hs h0]
    · rw [getPhys_endQuiz, getPhys_tested]
    · exact endQuiz_int
  · refine .of_next (exec_quizComplete hq) ?_
    rw [quizComplete_clean ht hs h96, getPhys_modPhys, getPhys_tested]
    exact ⟨hs, rfl, rfl, rfl⟩
  · refine .of_next (exec_quizComplete hq) ?_
    rw [quizComplete_mem]
    obtain ⟨w, hw⟩ := quizComplete_failed ht hf
    rw [if_neg (by rw [hs]; decide), if_pos h0] at hw
    have hact : (getPhys (endQuiz (raise (tested s q) .quizFail w) q) q).state = .active := by
      rw [getPhys_endQuiz, getPhys_raise, getPhys_tested]
      exact hs
    rw [hw, detainPhys_int, endQuiz_int]
    obtain ⟨h1, h2, h3⟩ := detainPhys_active hact
    exact ⟨h1, h2, h3, raise_lastCode, rfl⟩
  · refine .of_next (exec_quizComplete hq) ?_
    rw [quizComplete_mem]
    obtain ⟨w, hw⟩ := quizComplete_failed ht hf
    rw [if_pos hs] at hw
    rw [hw]
    exact ⟨getPhys_retire.1, getPhys_retire.2, rfl⟩

/-! ### QUIZ_DUE (R538) -/

/-- A core's last completed quiz is more than a day old. -/
def quizOld (s : State) (q : Nat) : Prop :=
  ((getPhys s q).state = .active ∨ (getPhys s q).state = .spare) ∧ (getPhys s q).lastQuiz + dayBells < s.bell.count

/-- A core is marked due, and overdue once for each period. -/
def markDue (s : State) (k q : Nat) : State :=
  modPhys (if (getPhys s q).overdue then s else
    raise s .quizOverdue { kind := .core, unit := physUnit s q, ptn := (ptnOfCluster s k).getD 0xFF }) q
    (fun x => { x with due := true, overdue := true })

/-- What QUIZ_DUE does with a core of the cluster. -/
def dueStep (k : Nat) (s : State) (q : Nat) : State :=
  if ((getPhys s q).state == .active || (getPhys s q).state == .spare) && decide ((getPhys s q).lastQuiz + dayBells < s.bell.count) then
    markDue s k q
  else s

/-- Both marks of a due core. -/
def Due (s : State) (q : Nat) : Prop := (getPhys s q).due = true ∧ (getPhys s q).overdue = true

/-- Cores keep what decides whether they are due, and a core that is due stays so. -/
def DueOnly (s u : State) : Prop := ∀ q, (quizOld s q → quizOld u q) ∧ (Due s q → Due u q)

theorem DueOnly.refl : DueOnly s s := fun _ => ⟨id, id⟩

theorem DueOnly.trans (h : DueOnly s t) (h' : DueOnly t u) : DueOnly s u := fun q =>
  ⟨(h' q).1 ∘ (h q).1, (h' q).2 ∘ (h q).2⟩

theorem getPhys_markDue : getPhys (markDue s k q) q = { getPhys s q with due := true, overdue := true } := by
  unfold markDue
  rw [getPhys_modPhys]
  split
  · rfl
  · rw [getPhys_raise]

theorem getPhys_markDue_other {r : Nat} (h : r ≠ q) : getPhys (markDue s k q) r = getPhys s r := by
  unfold markDue
  rw [getPhys_modPhys_other h]
  split
  · rfl
  · exact getPhys_raise

theorem markDue_bell : (markDue s k q).bell = s.bell := by
  unfold markDue
  change (ite _ _ _ : State).bell = _
  split
  · rfl
  · exact raise_bell

theorem dueOnly_markDue : DueOnly s (markDue s k q) := by
  intro r
  unfold quizOld Due
  rw [markDue_bell]
  by_cases h : r = q
  · rw [h, getPhys_markDue]
    exact ⟨id, fun _ => ⟨rfl, rfl⟩⟩
  · rw [getPhys_markDue_other h]
    exact ⟨id, id⟩

theorem dueOnly_dueStep : DueOnly s (dueStep k s q) := by
  unfold dueStep
  split
  · exact dueOnly_markDue
  · exact .refl

theorem due_dueStep (h : quizOld s q) : Due (dueStep k s q) q := by
  unfold dueStep
  rw [if_pos (by simpa [quizOld] using h)]
  unfold Due
  rw [getPhys_markDue]
  exact ⟨rfl, rfl⟩

theorem dueOnly_forEach {qs : List Nat} : DueOnly s (forEach qs (dueStep k) s) :=
  forEach_keeps (P := DueOnly s) .refl fun _ _ _ h => h.trans dueOnly_dueStep

/-- Every core of the list whose last quiz is a day old is due after the round. -/
theorem due_forEach {qs : List Nat} (hm : q ∈ qs) (h : quizOld s q) : Due (forEach qs (dueStep k) s) q := by
  induction qs generalizing s with
  | nil => cases hm
  | cons x qs ih =>
    rw [forEach_cons]
    rcases List.mem_cons.1 hm with rfl | hm
    · exact (dueOnly_forEach q).2 (due_dueStep h)
    · exact ih hm ((dueOnly_dueStep q).1 h)

/-- A core that goes under test keeps its marks. -/
theorem due_startQuiz {r slot : Nat} (h : Due s q) : Due (startQuiz s r slot) q := by
  unfold startQuiz
  dsimp only
  have hm : ∀ f : Phys → Phys, (∀ x, (f x).due = x.due ∧ (f x).overdue = x.overdue) → Due (modPhys s r f) q := fun f hf => by
    unfold Due
    by_cases hr : q = r
    · subst hr
      rw [getPhys_modPhys, (hf _).1, (hf _).2]
      exact h
    · rw [getPhys_modPhys_other hr]
      exact h
  split
  · exact hm _ fun _ => ⟨rfl, rfl⟩
  · unfold Due
    rw [getPhys_freezeCore]
    exact hm _ fun _ => ⟨rfl, rfl⟩

/-- The state with a cluster's due cores marked, and the choice made outside a running Timetable. -/
def dueChoice (s : State) (k : Nat) : State :=
  if underLesson s k || !quizFree s k then s
  else match quizChoice s k true with
    | some q => startQuiz s q 0xFF
    | none => s

theorem exec_quizDue (hk : k < 128) (hc : counting s = true) :
    exec (.quizDue k) s = .next (dueChoice (forEach (physOfCluster k) (dueStep k) s) k) := by
  refine congrArg Host.Outcome.next ((if_neg ?_).trans ?_)
  · rw [hc]
    simpa using hk
  · unfold dueChoice dueStep markDue
    dsimp only <;> generalize forEach (physOfCluster k) _ s = v <;> rfl

theorem due_dueChoice (h : Due s q) : Due (dueChoice s k) q := by
  unfold dueChoice
  split
  · exact h
  · split
    · exact due_startQuiz h
    · exact h

theorem quizDue_mem (h : exec (.quizDue k) s = .next u) : u.mem = s.mem :=
  (execQuizDue_kept (Kept.refl [.mc, .core, .phys, .int, .ptn, .ctx, .i3c] s) h (Within.refl _)).rest .mem (by decide)

/-! ### The fault log (R546) -/

/-- A record's Bell or interval ends. -/
def recordEnds (s : State) (f : Fsr) : Bool := f.waiting && (match f.interval with
  | some k => counting s || decide (k < s.cyc / 2048) || s.cyc % 2048 == 2047
  | none => !counting s || decide (f.stamp / 2048 < s.bell.count) || s.bell.sub == 2047)

/-- The state with the records that end no longer waiting. -/
def recordsOut (s : State) : State :=
  { s with int.log := s.int.log.map (fun f => if recordEnds s f then { f with waiting := false } else f) }

theorem exec_faultLogFlush : exec .faultLogFlush s =
    .next (ceRepairs (forEach (s.int.log.filter (recordEnds s)) (fun s f => queueEvent s 1 f.bytes) (recordsOut s))) := rfl

/-- With no correctable error logged no row is repaired. -/
theorem ceRepairs_of_empty (h : s.int.ceLog = []) : ceRepairs s = { s with int.ceLog := [] } := by
  unfold ceRepairs
  dsimp only
  rw [h]
  exact if_pos (Nat.succ_pos 3)

theorem queueEvents_int {l : List Fsr} : (forEach l (fun s f => queueEvent s 1 f.bytes) s).int = s.int :=
  forEach_proj (π := State.int) fun u x => by rw [(queueEvent_spec u 1 x.bytes).1]

/-- Events that the queue has room for enter it in order. -/
theorem queueEvents_evq {l : List Fsr} (h : s.cpt.evq.length + l.length ≤ 4096) :
    (forEach l (fun s f => queueEvent s 1 f.bytes) s).cpt.evq = s.cpt.evq ++ l.map (fun f => (1, f.bytes)) := by
  induction l generalizing s with
  | nil => exact (List.append_nil _).symm
  | cons f l ih =>
    rw [List.length_cons] at h
    have hq := (queueEvent_spec s 1 f.bytes).2.1 (by omega)
    rw [forEach_cons, ih, hq, List.map_cons, List.append_assoc, List.singleton_append]
    rw [hq, List.length_append, List.length_singleton]
    omega

/-- The records that wait are those that end, where every one of them ends. -/
theorem recordEnds_eq {f : Fsr} (h : f.waiting = true → match f.interval with
      | some k => counting s = true ∨ k < s.cyc / 2048 ∨ s.cyc % 2048 = 2047
      | none => counting s = false ∨ f.stamp / 2048 < s.bell.count ∨ s.bell.sub = 2047) : recordEnds s f = f.waiting := by
  unfold recordEnds
  cases hw : f.waiting with
  | false => rfl
  | true =>
    have h := h hw
    rw [Bool.true_and]
    cases hi : f.interval <;> rw [hi] at h <;> simpa [or_assoc] using h

/-- Settles O54: the patrol word by word, the end of a test by its outcome, the day-old cores of a cluster by one round, the log by its
queued records. -/
theorem patrolQuizzesAndFaultLog : Obligations.PatrolQuizzesAndFaultLog := by
  unfold Obligations.PatrolQuizzesAndFaultLog
  refine ⟨fun s a addr d ha => patrol_upset ha, fun s addr n p hw hp hs => ?_, fun s q hq ht => quizEnds hq ht, fun s k hk hc => ?_,
    fun s hce hends => ?_, fun s who hwho => ?_⟩
  · have hx : exec (.memoryPatrol [] addr n) s = .next (ceRepairs (patrol s addr n)) := rfl
    refine .of_next hx ⟨memoryPatrol_mem hx, fun k => ?_⟩
    rw [ceRepairs_memErr, patrol_memErr hw hp hs]
  · have hx := exec_quizDue hk hc
    exact .of_next hx ⟨quizDue_mem hx, fun q hq hst hold => due_dueChoice (due_forEach hq ⟨hst, hold⟩)⟩
  · have hall : ∀ f ∈ s.int.log, recordEnds s f = f.waiting := fun f hf => recordEnds_eq (hends f hf)
    have hout : s.int.log.filter (recordEnds s) = s.int.log.filter (fun f => f.waiting) := List.filter_congr hall
    have hx := exec_faultLogFlush (s := s)
    have hl : (recordsOut s).int.log = s.int.log.map (fun f => if f.waiting then { f with waiting := false } else f) :=
      List.map_congr_left fun f hf => by rw [hall f hf]
    rw [hout, ceRepairs_of_empty (by rw [queueEvents_int]; exact hce)] at hx
    refine .of_next hx ⟨?_, fun hroom => queueEvents_evq hroom, ?_⟩
    · dsimp only
      rw [queueEvents_int, hl]
    · exact forEach_proj (π := State.mem) fun u f => queueEvent_parts.2.1
  · refine .of_next (congrArg Host.Outcome.next (if_pos ?_)) rfl
    rwa [Bool.or_eq_true]

end Sys2Proof.Machine
end


section
/-! SUPPORT and proof of the commands of the snapshot engine. -/

namespace Sys2Proof.Machine

variable {s u : State} {who : Req} {c d op p ga lesson a2 r g : Nat} {args : List Nat} {pl : Plan}

/-! ### The command word (R569) -/

/-- The state with SNP_ARGk written. -/
def withArgs (s : State) (args : List Nat) : State :=
  { s with snp.args := args.map (fun a => a % 2 ^ 32) ++ s.snp.args.drop args.length }

/-- The operation of a command word. -/
def snpOp (s : State) (c op : Nat) : State :=
  match op with
  | 1 => snpArmOp s c
  | 2 => snpDisarmOp s c
  | 3 => snpNowOp s c
  | 4 => snpRestoreOp s c
  | 5 => snpDeleteOp s c
  | _ => snpQueryOp s c

theorem snpWord_fields (hc : c < 4096) (h7 : op < 7) : bits (c % 4096 * 65536 + op) 16 12 = c ∧ bits (c % 4096 * 65536 + op) 28 4 = 0
    ∧ bits (c % 4096 * 65536 + op) 4 12 = 0 ∧ bits (c % 4096 * 65536 + op) 0 4 = op := by
  unfold bits
  omega

section Admitted

variable (hp : partsUp s = true) (ho : isOperator s who = true) (hb : s.snp.busy = false) (hc : c < 4096) (h1 : 1 ≤ op) (h7 : op < 7)
include hp ho hb hc h1 h7

theorem snpRow_admitted : snpRow s who c op args =
    if !s.snp.ready then snpAnswer (withArgs s args) snBusy else snpOp (withArgs s args) c op := by
  obtain ⟨w1, w2, w3, w4⟩ := snpWord_fields hc h7
  refine (if_pos (by rw [hp, ho]; rfl)).trans ((if_neg (by rw [hb]; decide)).trans ((if_neg ?_).trans ?_))
  · rw [w2, w3]
    decide
  · rw [w1, w4]
    have hop : op ∈ [1, 2, 3, 4, 5, 6] := by
      simp only [List.mem_cons, List.not_mem_nil, or_false]
      omega
    simp only [List.mem_cons, List.not_mem_nil, or_false] at hop
    rcases hop with rfl | rfl | rfl | rfl | rfl | rfl <;> rfl

/-- Before the engine is ready every command is BUSY. -/
theorem snpRow_busy (hr : s.snp.ready = false) : snpRow s who c op args = snpAnswer (withArgs s args) snBusy :=
  (snpRow_admitted hp ho hb hc h1 h7).trans (if_pos (by rw [hr]; rfl))

theorem snpRow_op (hr : s.snp.ready = true) : snpRow s who c op args = snpOp (withArgs s args) c op :=
  (snpRow_admitted hp ho hb hc h1 h7).trans (if_neg (by rw [hr]; decide))

end Admitted

theorem split_u64 (h : g < 2 ^ 64) : g % 2 ^ 32 + 2 ^ 32 * (g / 2 ^ 32 % 2 ^ 32) = g := by omega

theorem snpArg_first (h : g < 2 ^ 64) {rest : List Nat} : snpArg (withArgs s ([g, g / 2 ^ 32] ++ rest)) 0 = g := split_u64 h

theorem getSnp_modSnp {f : SnpCtx → SnpCtx} : getSnp (modSnp s c f) c = f (getSnp s c) := tget_tmod_same

theorem getSnp_modSnp_other {f : SnpCtx → SnpCtx} (h : d ≠ c) : getSnp (modSnp s c f) d = getSnp s d := tget_tmod_other h

/-! ### ARM, DISARM and CAPTURE_NOW (R553, R554) -/

section Arm

variable (hp : ptnOfCtx s c = some p) (hf : (getCtx s c).state ≠ .free) (hs : (getCtx s c).state ≠ .scrubbing)
include hp hf hs

theorem snpArmOp_eq : snpArmOp s c = match readPlan s p c (snpArg s 0) with
    | none => snpAnswer s snBadPlan
    | some pl => if (planOk s p c pl).isNone then snpAnswer s snBadPlan
      else snpAnswer (modSnp s c (fun x => { x with armed := true, plan := snpArg s 0 })) snOk := by
  unfold snpArmOp
  rw [hp]
  dsimp only
  split
  · next h => exact absurd h hf
  · next h => exact absurd h hs
  · rfl

theorem snpArmOp_badPlan (h : readPlan s p c (snpArg s 0) = none) : snpArmOp s c = snpAnswer s snBadPlan := by
  rw [snpArmOp_eq hp hf hs, h]

theorem snpArmOp_ok (h : readPlan s p c (snpArg s 0) = some pl) (hk : (planOk s p c pl).isSome = true) :
    snpArmOp s c = snpAnswer (modSnp s c (fun x => { x with armed := true, plan := snpArg s 0 })) snOk := by
  rw [snpArmOp_eq hp hf hs, h]
  exact if_neg (by rw [Option.isNone_eq_false_iff.2 hk]; decide)

end Arm

/-- A command that changes what the engine keeps of one context, and its answer. -/
theorem snpAnswer_modSnp {f : SnpCtx → SnpCtx} {k : Nat} {v : State} (hv : v.snp.ctx = s.snp.ctx) (hm : v.mem = s.mem) :
    let w := snpAnswer (modSnp v c f) k
    (w.snp.done = true ∧ w.snp.busy = false ∧ w.snp.status = k) ∧ getSnp w c = f (getSnp s c)
    ∧ (∀ d, d ≠ c → getSnp w d = getSnp s d) ∧ w.mem = s.mem := by
  have hg : ∀ d, getSnp v d = getSnp s d := fun d => by unfold getSnp; rw [hv]
  refine ⟨⟨rfl, rfl, rfl⟩, ?_, fun d hd => ?_, hm⟩
  · rw [← hg]
    exact getSnp_modSnp
  · rw [← hg]
    exact getSnp_modSnp_other hd

/-! ### RESTORE (R563, R564) -/

/-- The restore that RESTORE begins. -/
def restoreJob (s : State) : RestoreJob :=
  { lesson := snpArg s 0, source := bits (getAt 0 s.snp.args 2) 0 2, verify := bitOf (getAt 0 s.snp.args 2) 2, upTo := snpArg s 3 }

/-- The state with a restore begun. -/
def restoreBegun (s : State) (c : Nat) : State :=
  modSnp { s with snp := { s.snp with busy := true, done := false, measDiffer := false } } c
    (fun x => { x with restoring := some (restoreJob s) })

/-- The arguments of RESTORE as they are written. -/
def restoreArgs (lesson a2 r : Nat) : List Nat := [lesson, lesson / 2 ^ 32, a2, r, r / 2 ^ 32]

theorem restoreArgs_third (h : a2 < 8) : getAt 0 (withArgs s (restoreArgs lesson a2 r)).snp.args 2 = a2 :=
  Nat.mod_eq_of_lt (by omega)

theorem restoreJob_withArgs (hl : lesson < 2 ^ 64) (ha : a2 < 8) (hr : r < 2 ^ 64) : restoreJob (withArgs s (restoreArgs lesson a2 r)) =
    { lesson := lesson, source := bits a2 0 2, verify := bitOf a2 2, upTo := r } := by
  unfold restoreJob
  rw [restoreArgs_third ha]
  have h0 : snpArg (withArgs s (restoreArgs lesson a2 r)) 0 = lesson := split_u64 hl
  have h3 : snpArg (withArgs s (restoreArgs lesson a2 r)) 3 = r := split_u64 hr
  rw [h0, h3]

section Restore

variable (h2 : bits (getAt 0 s.snp.args 2) 0 2 ≠ 3) (h8 : getAt 0 s.snp.args 2 < 8)
include h2 h8

theorem snpRestoreOp_ok (hs : (getCtx s c).state = .keyed ∨ ((getCtx s c).state = .restart ∧ (getCtx s c).stay = false))
    (hn : (getSnp s c).restoring = none) : snpRestoreOp s c = restoreBegun s c := by
  refine (if_neg (not_or.2 ⟨h2, not_le.2 h8⟩)).trans (if_neg ?_)
  have hr : restoring s c = false := (congrArg Option.isSome hn :)
  rw [hr]
  rcases hs with hs | ⟨hs, hst⟩
  · rw [hs]; exact Bool.false_ne_true
  · rw [hs, hst]; decide

theorem snpRestoreOp_badState (hk : (getCtx s c).state ≠ .keyed) (hr : (getCtx s c).state ≠ .restart) :
    snpRestoreOp s c = snpAnswer s snBadState := by
  refine (if_neg (not_or.2 ⟨h2, not_le.2 h8⟩)).trans (if_pos ?_)
  rw [beq_eq_false_iff_ne.2 hk, beq_eq_false_iff_ne.2 hr]
  rfl

end Restore

/-! ### DELETE and QUERY (R569) -/

/-- A generation is the one that DELETE names. -/
def genHit (c g : Nat) (x : Gen) : Bool := !x.mirror && x.ctx == c && x.gen == g && x.held

/-- The generations with the local copy of the one named freed. -/
def gensFreed (c g : Nat) (gs : List Gen) : List Gen :=
  (gs.map (fun x => if genHit c g x then { x with held := false, objs := [], manifest := [] } else x)).filter (fun x => x.held || x.mirrored)

theorem any_gensFreed {gs : List Gen} : (gensFreed c g gs).any (genHit c g) = false := by
  refine List.any_eq_false.2 fun x hx => ?_
  obtain ⟨y, -, rfl⟩ := List.mem_map.1 (List.mem_filter.1 hx).1
  split
  · simp [genHit]
  · assumption

theorem mem_gensFreed {gs : List Gen} {x : Gen} (hx : x ∈ gs) (hh : genHit c g x = false) (hk : x.held = true ∨ x.mirrored = true) :
    x ∈ gensFreed c g gs :=
  List.mem_filter.2 ⟨List.mem_map.2 ⟨x, hx, if_neg (by rw [hh]; decide)⟩, by rwa [Bool.or_eq_true]⟩

theorem snpDeleteOp_freed (h : s.snp.gens.any (genHit c (snpArg s 0)) = true) :
    snpDeleteOp s c = snpAnswer { s with snp.gens := gensFreed c (snpArg s 0) s.snp.gens } snOk := if_pos h

theorem snpDeleteOp_notFound (h : s.snp.gens.any (genHit c (snpArg s 0)) = false) : snpDeleteOp s c = snpAnswer s snNotFound :=
  if_neg (ne_true_of_eq_false h)

theorem snpQueryOp_found (h : gensOf s c ≠ []) :
    snpQueryOp s c = snpAnswer { s with snp.qbuf := (((gensOf s c).take 16).map queryRec).flatten } snOk := by
  unfold snpQueryOp
  dsimp only
  rw [if_neg]
  rw [List.isEmpty_iff]
  cases hg : gensOf s c with
  | nil => exact absurd hg h
  | cons x l => exact List.cons_ne_nil _ _

/-- Settles O55: every command reaches its operation by its word; each operation's answer by its own lemma. -/
theorem snapshotCommands : Obligations.SnapshotCommands := by
  unfold Obligations.SnapshotCommands
  intro s who c hp ho hb hc answer others
  refine ⟨fun hr => ?_, fun hr => ⟨fun p ga hga hpc hf hs => ?_, fun ha => ?_, fun ha => ?_, fun ha => ?_, fun lesson a2 r hl ha h3 hr64 => ?_,
    fun g hg => ?_, fun hne => ?_⟩⟩
  · refine .of_eq rfl (snpRow_busy (args := []) (op := 6) hp ho hb hc (by decide) (by decide) hr) ?_
    exact ⟨⟨rfl, rfl, rfl⟩, rfl⟩
  · intro v
    have hx := snpRow_op (args := [ga, ga / 2 ^ 32]) hp ho hb hc (op := 1) (by decide) (by decide) hr
    have harg : snpArg v 0 = ga := split_u64 hga
    refine ⟨fun h => ?_, fun pl h hk => ?_⟩
    · refine .of_eq rfl (hx.trans (snpArmOp_badPlan (s := v) hpc hf hs (by rw [harg]; exact h))) ?_
      exact ⟨⟨rfl, rfl, rfl⟩, rfl, fun _ _ => rfl, rfl⟩
    · refine .of_eq rfl (hx.trans (snpArmOp_ok (s := v) hpc hf hs (by rw [harg]; exact h) hk)) ?_
      rw [harg]
      exact snpAnswer_modSnp (s := s) (v := v) rfl rfl
  · have hx := snpRow_op (args := []) hp ho hb hc (op := 2) (by decide) (by decide) hr
    refine .of_eq rfl (hx.trans (if_pos ha)) ?_
    exact snpAnswer_modSnp (s := s) (v := withArgs s []) rfl rfl
  · have hx := snpRow_op (args := []) hp ho hb hc (op := 3) (by decide) (by decide) hr
    refine .of_eq rfl (hx.trans (if_pos ha)) ?_
    exact snpAnswer_modSnp (s := s) (v := withArgs s []) rfl rfl
  · have hx := snpRow_op (args := []) hp ho hb hc (op := 3) (by decide) (by decide) hr
    refine .of_eq rfl (hx.trans (if_neg (ne_true_of_eq_false ha))) ?_
    exact ⟨⟨rfl, rfl, rfl⟩, rfl, fun _ _ => rfl, rfl⟩
  · intro x
    have hx := snpRow_op (args := restoreArgs lesson a2 r) hp ho hb hc (op := 4) (by decide) (by decide) hr
    have h3 : bits (getAt 0 (withArgs s (restoreArgs lesson a2 r)).snp.args 2) 0 2 ≠ 3 := by rwa [restoreArgs_third ha]
    have h8 : getAt 0 (withArgs s (restoreArgs lesson a2 r)).snp.args 2 < 8 := by rwa [restoreArgs_third ha]
    refine ⟨fun hs hn => ?_, fun hk hre => ?_⟩
    · refine .of_eq rfl (hx.trans (snpRestoreOp_ok h3 h8 hs hn)) ?_
      unfold restoreBegun
      rw [restoreJob_withArgs hl ha hr64]
      exact ⟨rfl, rfl, ⟨fun d hd => getSnp_modSnp_other hd, rfl⟩, congrArg SnpCtx.restoring getSnp_modSnp⟩
    · refine .of_eq rfl (hx.trans (snpRestoreOp_badState h3 h8 hk hre)) ?_
      exact ⟨⟨rfl, rfl, rfl⟩, rfl, fun _ _ => rfl, rfl⟩
  · intro hit
    have hx := snpRow_op (args := [g, g / 2 ^ 32]) hp ho hb hc (op := 5) (by decide) (by decide) hr
    have harg : snpArg (withArgs s [g, g / 2 ^ 32]) 0 = g := split_u64 hg
    refine ⟨fun h => ?_, fun h => ?_⟩
    · refine .of_eq rfl (hx.trans (snpDeleteOp_freed (by rw [harg]; exact h))) ?_
      rw [harg]
      exact ⟨⟨rfl, rfl, rfl⟩, any_gensFreed, fun x hm hh hk => mem_gensFreed hm hh hk, rfl⟩
    · refine .of_eq rfl (hx.trans (snpDeleteOp_notFound (by rw [harg]; exact h))) ?_
      exact ⟨⟨rfl, rfl, rfl⟩, rfl⟩
  · have hx := snpRow_op (args := []) hp ho hb hc (op := 6) (by decide) (by decide) hr
    refine .of_eq rfl (hx.trans (snpQueryOp_found hne)) ?_
    exact ⟨⟨rfl, rfl, rfl⟩, rfl, rfl⟩

end Sys2Proof.Machine
end


section
/-! SUPPORT and proof of captures, commits, mirrors and restores. -/

namespace Sys2Proof.Machine

variable {s t u v : State} {c d p src pool seq dst kind gen n : Nat} {g : Gen} {l gs : List Gen} {j : SnpJob} {m : MirrorTx} {r : Recv}
  {h : SendHdr} {body man : List Byte} {who : Req}

/-! ### The directory after READY (R550, R562) -/

/-- What the engine keeps of a generation's context once the directory lists the generation. -/
def SnpCtx.listed (x : SnpCtx) (g : Gen) : SnpCtx := { x with gen := g.gen, prev := g.digest, prevLesson := g.lesson }

/-- One generation of the directory is listed. -/
def listGen (s : State) (g : Gen) : State := modSnp s g.ctx (fun x => x.listed g)

theorem listGens_eq : listGens s = forEach (s.snp.gens.filter (fun g => !g.mirror)) listGen s := rfl

/-- A context is listed with the last of its generations, and one without any is as before. -/
theorem getSnp_listed : getSnp (forEach l listGen s) c = ((l.filter (fun g => g.ctx == c)).getLast?).elim (getSnp s c) (getSnp s c).listed := by
  induction l generalizing s with
  | nil => rfl
  | cons g l ih =>
    rw [forEach_cons, ih]
    unfold listGen
    by_cases h : g.ctx = c
    · subst h
      rw [getSnp_modSnp, List.filter_cons_of_pos (by simp), List.getLast?_cons]
      cases (l.filter (fun x => x.ctx == g.ctx)).getLast? <;> rfl
    · rw [getSnp_modSnp_other (Ne.symm h), List.filter_cons_of_neg (by simpa using h)]

theorem getSnp_listGens : getSnp (listGens s) c =
    ((s.snp.gens.filter (fun g => !g.mirror && g.ctx == c)).getLast?).elim (getSnp s c) (getSnp s c).listed := by
  rw [listGens_eq, getSnp_listed, List.filter_filter]
  simp only [Bool.and_comm]

theorem listGens_snp {α : Type} (π : SnpBlk → α) (hπ : ∀ b t, π { b with ctx := t } = π b) : π (listGens s).snp = π s.snp :=
  forEach_proj (π := fun s => π s.snp) (f := listGen) fun u _ => hπ u.snp _

theorem exec_engineReady (hm : s.mod.ready = true) (hr : s.snp.ready = false) :
    exec .snapshotEngineReady s = .next { listGens s with snp.ready := true } :=
  congrArg Host.Outcome.next (if_pos (by rw [hm, hr]; rfl))

theorem engineReady (hm : s.mod.ready = true) (hr : s.snp.ready = false) : Completes .snapshotEngineReady s (fun u => u.snp.ready = true
    ∧ u.snp.gens = s.snp.gens ∧ u.snp.maxGen = s.snp.maxGen ∧ u.snp.jobs = s.snp.jobs
    ∧ (∀ c g, (s.snp.gens.filter (fun g => !g.mirror && g.ctx == c)).getLast? = some g →
        (getSnp u c).gen = g.gen ∧ (getSnp u c).prev = g.digest ∧ (getSnp u c).prevLesson = g.lesson)
    ∧ (∀ c, s.snp.gens.any (fun g => !g.mirror && g.ctx == c) = false → getSnp u c = getSnp s c)
    ∧ ∀ p, p ≠ .snp → samePart p s u) := by
  have hx := exec_engineReady hm hr
  refine .of_next hx ⟨rfl, listGens_snp SnpBlk.gens fun _ _ => rfl, listGens_snp SnpBlk.maxGen fun _ _ => rfl,
    listGens_snp SnpBlk.jobs fun _ _ => rfl, fun c g hg => ?_, fun c hc => ?_, fun p hp => ?_⟩
  · have hl := getSnp_listGens (s := s) (c := c)
    rw [hg] at hl
    have hu : getSnp { listGens s with snp.ready := true } c = (getSnp s c).listed g := hl
    rw [hu]
    exact ⟨rfl, rfl, rfl⟩
  · have hl := getSnp_listGens (s := s) (c := c)
    rw [List.filter_eq_nil_iff.2 fun x hx => List.any_eq_false.1 hc x hx] at hl
    exact hl
  · exact (exec_kept hx).rest p fun hmem => hp (List.mem_singleton.1 hmem)

/-! ### The end of a capture's copy (R556) -/

/-- The job is the copy of a context's capture. -/
def copyOf (c : Nat) (j : SnpJob) : Bool := j.ctx == c && j.phase == .copy

theorem getCtx_vatRestart : getCtx (vatRestart s) c = getCtx s c := rfl

/-- The state with a capture's drain begun. -/
def drainBegun (s : State) (c : Nat) : State :=
  { s with snp.jobs := modifyFirst (copyOf c) (fun j => { j with phase := .drain }) s.snp.jobs }

theorem exec_copyDone (ha : s.snp.jobs.any (copyOf c) = true) : exec (.captureCopyDone c) s =
    .next (if (drainBegun s c).snp.jobs.any (copyOf c) then drainBegun s c
      else vatRestart (modCtx (drainBegun s c) c (fun x => { x with copying := false, copyStg := [] }))) :=
  congrArg Host.Outcome.next (if_pos ha)

theorem copyDone (ha : s.snp.jobs.any (copyOf c) = true) : Completes (.captureCopyDone c) s (fun u =>
    u.snp.jobs = modifyFirst (copyOf c) (fun j => { j with phase := .drain }) s.snp.jobs
    ∧ (u.snp.jobs.any (copyOf c) = false → (getCtx u c).copying = false ∧ (getCtx u c).copyStg = [])) := by
  refine .of_next (exec_copyDone ha) ?_
  split
  · next h => exact ⟨rfl, fun hn => absurd (h.symm.trans hn) (by decide)⟩
  · refine ⟨rfl, fun _ => ?_⟩
    rw [getCtx_vatRestart, getCtx_modCtx]
    exact ⟨rfl, rfl⟩

/-! ### Sends of the snapshot engine (R561) -/

/-- Nothing but the numbers of sends, the fabric and what its sends have left is touched, and no route changes. -/
structure SentOnly (s u : State) : Prop where
  seq : u.snp = { s.snp with mirrorSeq := u.snp.mirrorSeq }
  recv : u.xf.recv = s.xf.recv
  mem : u.mem = s.mem
  bell : u.bell = s.bell
  route : ∀ lmn, routePort u lmn = routePort s lmn

theorem SentOnly.refl : SentOnly s s := ⟨rfl, rfl, rfl, rfl, fun _ => rfl⟩

theorem SentOnly.trans (h : SentOnly s t) (h' : SentOnly t u) : SentOnly s u :=
  ⟨by rw [h'.seq, h.seq], h'.recv.trans h.recv, h'.mem.trans h.mem, h'.bell.trans h.bell, fun l => (h'.route l).trans (h.route l)⟩

/-- A field of the engine's block beside the number of sends is as before. -/
theorem SentOnly.proj {α : Type} (h : SentOnly s u) (π : SnpBlk → α) (hπ : ∀ b k, π { b with mirrorSeq := k } = π b) : π u.snp = π s.snp := by
  rw [h.seq, hπ]

theorem routePort_congr (hm : u.fab.map = s.fab.map) (hp : PortsKept s u) : routePort u n = routePort s n := by
  have hu : ∀ p, portUsable u p = portUsable s p := fun p => by
    have hst := hp.proj Port.pstate (fun _ => rfl) p
    exact Bool.eq_iff_iff.2 (by rw [portUsable_iff, portUsable_iff, hst])
  unfold routePort
  simp only [hm, hu]

/-- What a port's transmitter does not touch. -/
structure TransmitFree {α : Type} (π : State → α) : Prop where
  fab : ∀ s p f, π (modFab s p f) = π s
  sends : ∀ s f, π (markLeft s f) = π s

theorem TransmitFree.pumpOne {α : Type} {π : State → α} (hf : TransmitFree π) (h : pumpOne s p = some u) : π u = π s := by
  unfold Machine.pumpOne at h
  dsimp only at h
  split at h
  · cases h
  · split at h
    · cases h
    · injection h with h
      subst h
      split
      · rw [hf.fab, hf.fab]
      · rw [hf.sends, hf.fab]

theorem TransmitFree.pumpGo {α : Type} {π : State → α} (hf : TransmitFree π) : π (pumpGo n s p) = π s := by
  induction n generalizing s with
  | zero => rfl
  | succ n ih =>
    unfold Machine.pumpGo
    split
    · next h => exact ih.trans (hf.pumpOne h)
    · rfl

theorem TransmitFree.portQueue {α : Type} {π : State → α} (hf : TransmitFree π) {ts : List TxFrame} : π (portQueue s p ts) = π s := by
  unfold Machine.portQueue portRun
  refine (forEach_proj (π := π) fun u x => ?_).trans (hf.pumpGo.trans (hf.fab ..))
  unfold idleOut
  dsimp only
  split
  · exact hf.fab ..
  · rfl

theorem transmitFree_recv : TransmitFree (fun s => s.xf.recv) :=
  ⟨fun _ _ _ => rfl, fun s f => by unfold markLeft; dsimp only; split <;> rfl⟩

theorem transmitFree_map : TransmitFree (fun s => s.fab.map) :=
  ⟨fun _ _ _ => rfl, fun s f => by unfold markLeft; dsimp only; split <;> rfl⟩

theorem portsKept_portQueue {ts : List TxFrame} : PortsKept s (portQueue s p ts) :=
  (PortsKept.of_modFab (f := fun q => { q with txq := q.txq ++ ts }) rfl).trans portsKept_portRun

theorem portQueue_kept_parts {ts : List TxFrame} : (portQueue s p ts).snp = s.snp ∧ (portQueue s p ts).mem = s.mem
    ∧ (portQueue s p ts).bell = s.bell ∧ (portQueue s p ts).int = s.int := by
  have k := portQueue_kept (p := p) (ts := ts) (Kept.refl [.fab, .xf] s) (Within.refl _)
  exact ⟨k.rest .snp (by decide), k.rest .mem (by decide), k.rest .bell (by decide), k.rest .int (by decide)⟩

/-- The state with the next send's number taken. -/
def numbered (s : State) : State := { s with snp.mirrorSeq := wrap 16 (s.snp.mirrorSeq + 1) }

theorem sentOnly_portQueue {ts : List TxFrame} : SentOnly s (portQueue (numbered s) p ts) := by
  obtain ⟨hs, hm, hb, -⟩ := portQueue_kept_parts (s := numbered s) (p := p) (ts := ts)
  refine ⟨by rw [hs]; rfl, transmitFree_recv.portQueue (s := numbered s), hm, hb, fun l => ?_⟩
  exact routePort_congr (s := numbered s) (transmitFree_map.portQueue (s := numbered s)) portsKept_portQueue

theorem numbered_seq : (numbered s).snp.mirrorSeq = (s.snp.mirrorSeq + 1) % 65536 := by
  dsimp only [numbered, wrap]
  norm_num

/-- The frames of a send of the snapshot engine. -/
def mirrorFrames (s : State) (p dst c kind : Nat) (body : List Byte) : List TxFrame :=
  sendFrames s p dst mirrorPool s.snp.mirrorSeq false
    ((SendHdr.bytes { kind := kind, ctx := c, len := body.length, seq := s.snp.mirrorSeq }) ++ body)

theorem mirrorSend_queued (hr : routePort s dst = some p) :
    mirrorSend s dst c kind body = some (portQueue (numbered s) p (mirrorFrames s p dst c kind body)) := by
  unfold mirrorSend
  rw [hr]
  dsimp only [numbered, mirrorFrames]

/-- A send that has a route takes the next number and is handed to a port. -/
theorem mirrorSend_some (hr : routePort s dst = some p) : ∃ u, mirrorSend s dst c kind body = some u ∧ SentOnly s u
    ∧ u.snp.mirrorSeq = (s.snp.mirrorSeq + 1) % 65536 := by
  have hs := mirrorSend_queued (c := c) (kind := kind) (body := body) hr
  refine ⟨_, hs, sentOnly_portQueue, ?_⟩
  rw [(portQueue_kept_parts (s := numbered s)).1]
  exact numbered_seq

/-- With a route or without one, a send touches no more than it may. -/
theorem sentOnly_mirrorSend : SentOnly s ((mirrorSend s dst c kind body).getD s) := by
  cases hr : routePort s dst with
  | none => unfold mirrorSend; rw [hr]; exact .refl
  | some p =>
    obtain ⟨u, hu, ho, -⟩ := mirrorSend_some (c := c) (kind := kind) (body := body) hr
    rw [hu]
    exact ho

/-! ### KEEP (R559, R561) -/

/-- The generations of one area, source and context. -/
def ofSource (mirror : Bool) (src ctx : Nat) (g : Gen) : Bool := g.mirror == mirror && g.src == src && g.ctx == ctx

/-- One generation is kept, or freed while more of its kind are to go. -/
def keepStep (mine : Gen → Bool) (acc : Nat × List Gen) (g : Gen) : Nat × List Gen :=
  if mine g && decide (0 < acc.1) then (acc.1 - 1, acc.2) else (acc.1, acc.2 ++ [g])

theorem keepGens_gens {mirror : Bool} : (keepGens s mirror src c).snp.gens =
    (s.snp.gens.foldl (keepStep (ofSource mirror src c)) ((s.snp.gens.filter (ofSource mirror src c)).length - s.snp.keep, [])).2 := rfl

theorem keepStep_left {mine : Gen → Bool} {acc : Nat × List Gen} :
    (l.foldl (keepStep mine) acc).1 = acc.1 - (l.filter mine).length := by
  induction l generalizing acc with
  | nil => rfl
  | cons g l ih =>
    rw [List.foldl_cons, ih]
    unfold keepStep
    by_cases hg : mine g = true
    · rw [List.filter_cons_of_pos hg, List.length_cons, hg]
      by_cases h0 : 0 < acc.1
      · rw [decide_eq_true h0, if_pos (by decide)]
        dsimp only
        omega
      · rw [decide_eq_false h0, if_neg (by decide)]
        dsimp only
        omega
    · rw [List.filter_cons_of_neg hg, if_neg (by simp [hg])]

/-- With KEEP 1 or more the newest generation of its source and context stays. -/
theorem mem_keepGens {mirror : Bool} (hs : s.snp.gens = gs ++ [g]) (hg : ofSource mirror src c g = true) (hk : 1 ≤ s.snp.keep) :
    g ∈ (keepGens s mirror src c).snp.gens := by
  rw [keepGens_gens, hs, List.foldl_append, List.foldl_cons, List.foldl_nil]
  have h0 : (gs.foldl (keepStep (ofSource mirror src c)) (((gs ++ [g]).filter (ofSource mirror src c)).length - s.snp.keep, [])).1 = 0 := by
    rw [keepStep_left, List.filter_append, List.length_append, List.filter_cons_of_pos hg]
    dsimp only [List.length_cons, List.length_nil, List.filter_nil]
    omega
  generalize gs.foldl _ _ = acc at h0
  unfold keepStep
  rw [h0, if_neg (by simp)]
  exact List.mem_append_right _ (List.mem_singleton.2 rfl)

theorem keepGens_snp {mirror : Bool} : (keepGens s mirror src c).snp = { s.snp with gens := (keepGens s mirror src c).snp.gens } := rfl

/-! ### Mirrors (R561) -/

theorem raise_snp {f : FaultCode} {a : FaultAt} : (raise s f a).snp = s.snp := by rw [raise_parts]

theorem mem_modifyFirst_of_mem {α : Type} [DecidableEq α] {f : α → α} {x : α} {xs : List α} (hx : x ∈ xs) :
    f x ∈ modifyFirst (· == x) f xs := by
  induction xs with
  | nil => cases hx
  | cons y ys ih =>
    unfold modifyFirst
    by_cases h : y = x
    · rw [if_pos (beq_iff_eq.2 h), h]
      exact List.mem_cons_self ..
    · rw [if_neg (mt beq_iff_eq.1 h)]
      exact List.mem_cons_of_mem _ (ih ((List.mem_cons.1 hx).resolve_left (Ne.symm h)))

/-- A generation as a mirror of it goes on: all but the marks of its copies. -/
def Gen.sameAs (x g : Gen) : Prop := x.ctx = g.ctx ∧ x.gen = g.gen ∧ x.lesson = g.lesson ∧ x.manifest = g.manifest ∧ x.objs = g.objs

/-- What a mirror's progress leaves alone: contexts, highest numbers, jobs, memory, and what each generation holds. -/
structure MirrorOnly (s u : State) : Prop where
  ctx : u.snp.ctx = s.snp.ctx
  maxGen : u.snp.maxGen = s.snp.maxGen
  jobs : u.snp.jobs = s.snp.jobs
  mem : u.mem = s.mem
  gens : ∀ g ∈ s.snp.gens, ∃ x ∈ u.snp.gens, x.sameAs g

theorem Gen.sameAs_refl : g.sameAs g := ⟨rfl, rfl, rfl, rfl, rfl⟩

theorem MirrorOnly.refl : MirrorOnly s s := ⟨rfl, rfl, rfl, rfl, fun g hg => ⟨g, hg, Gen.sameAs_refl⟩⟩

/-- The state with a mirror off the list and counted as failed. -/
def mirrorDropped (s : State) (m : MirrorTx) : State :=
  { s with snp.mirrors := eraseFirst (· == m) s.snp.mirrors, snp.failMirror := satInc 16 s.snp.failMirror }

theorem mirrorFails_eq : mirrorFails s m = raise (modGen (mirrorDropped s m) m.ctx m.gen (fun g => { g with mirrorFailed := true })) .snapMirror
    { kind := .module, ptn := (ptnOfCtx s m.ctx).getD 0xFF, ctx := m.ctx } := rfl

theorem mirrorFails_spec : (mirrorFails s m).snp.mirrors = eraseFirst (· == m) s.snp.mirrors
    ∧ (mirrorFails s m).snp.failMirror = satInc 16 s.snp.failMirror ∧ (mirrorFails s m).int.lastCode = FaultCode.snapMirror.code
    ∧ (mirrorFails s m).mem = s.mem := by
  rw [mirrorFails_eq, raise_snp, raise_mem]
  exact ⟨rfl, rfl, raise_lastCode, rfl⟩

theorem mirrorOnly_mirrorFails : MirrorOnly s (mirrorFails s m) := by
  rw [mirrorFails_eq]
  refine ⟨by rw [raise_snp]; rfl, by rw [raise_snp]; rfl, by rw [raise_snp]; rfl, by rw [raise_mem]; rfl, fun g hg => ?_⟩
  rw [raise_snp]
  refine ⟨_, List.mem_map_of_mem hg, ?_⟩
  split <;> exact ⟨rfl, rfl, rfl, rfl, rfl⟩

/-- The state with a mirror's next 64 MiB sent. -/
def mirrorSent (s : State) (m : MirrorTx) : State :=
  { s with snp.mirrors := modifyFirst (· == m) (fun m => { m with rest := m.rest.drop mirrorUnit, sent := s.bell.count }) s.snp.mirrors }

theorem mirrorNext_none (h : mirrorSend s s.snp.buddyLmn m.ctx 3 (m.rest.take mirrorUnit) = none) : mirrorNext s m = mirrorFails s m := by
  unfold mirrorNext
  rw [h]

theorem mirrorNext_some (h : mirrorSend s s.snp.buddyLmn m.ctx 3 (m.rest.take mirrorUnit) = some u) : mirrorNext s m = mirrorSent u m := by
  unfold mirrorNext
  rw [h]
  rfl

theorem mirrorOnly_mirrorNext : MirrorOnly s (mirrorNext s m) := by
  cases hr : routePort s s.snp.buddyLmn with
  | none =>
    rw [mirrorNext_none (by unfold mirrorSend; rw [hr])]
    exact mirrorOnly_mirrorFails
  | some p =>
    obtain ⟨u, hu, ho, -⟩ := mirrorSend_some (c := m.ctx) (kind := 3) (body := m.rest.take mirrorUnit) hr
    rw [mirrorNext_some hu]
    have hgens := ho.proj SnpBlk.gens fun _ _ => rfl
    refine ⟨ho.proj SnpBlk.ctx fun _ _ => rfl, ho.proj SnpBlk.maxGen fun _ _ => rfl, ho.proj SnpBlk.jobs fun _ _ => rfl, ho.mem,
      fun g hg => ⟨g, ?_, Gen.sameAs_refl⟩⟩
    change g ∈ u.snp.gens
    rwa [hgens]

/-- With a route a mirror on the list goes on by 64 MiB. -/
theorem mirrorNext_sent (hr : routePort s s.snp.buddyLmn = some p) (hm : m ∈ s.snp.mirrors) : ∃ x ∈ (mirrorNext s m).snp.mirrors,
    x.ctx = m.ctx ∧ x.gen = m.gen ∧ x.rest = m.rest.drop mirrorUnit ∧ x.sent = s.bell.count := by
  obtain ⟨u, hu, ho, -⟩ := mirrorSend_some (c := m.ctx) (kind := 3) (body := m.rest.take mirrorUnit) hr
  rw [mirrorNext_some hu]
  have hmu : m ∈ u.snp.mirrors := by rwa [ho.proj SnpBlk.mirrors fun _ _ => rfl]
  exact ⟨_, mem_modifyFirst_of_mem hmu, rfl, rfl, rfl, congrArg BellBlk.count ho.bell⟩

/-- The record of a mirror that begins. -/
def newMirror (s : State) (g : Gen) : MirrorTx := { ctx := g.ctx, gen := g.gen, rest := genStream g, sent := s.bell.count }

theorem mirrorOnly_mirrorStart : MirrorOnly s (mirrorStart s g) := by
  have h := mirrorOnly_mirrorNext (s := { s with snp.mirrors := s.snp.mirrors ++ [newMirror s g] }) (m := newMirror s g)
  exact ⟨h.ctx, h.maxGen, h.jobs, h.mem, h.gens⟩

/-! ### Commit (R559) -/

/-- The state with a drained capture sealed and off the list of jobs. -/
def drained (s : State) (j : SnpJob) : State := { (sealGen s j).1 with snp.jobs := eraseFirst (· == j) s.snp.jobs }

/-- The state with a generation in the directory. -/
def genListed (s : State) (g : Gen) : State :=
  modSnp { s with snp.gens := s.snp.gens ++ [g], snp.maxGen := tset 0 s.snp.maxGen g.ctx g.gen } g.ctx (fun x => x.listed g)

/-- The state with a generation committed and the oldest ones freed, before its mirror. -/
def genCommitted (s : State) (g : Gen) : State := keepGens (genListed s g) false 0x3FF g.ctx

theorem commitGen_eq : commitGen s j = if freeExtents (drained s j) false < genExtents (sealGen s j).2 then
      raise (drained s j) .snapSpace { kind := .module, ptn := j.ptn, ctx := j.ctx }
    else if j.mirror && (genCommitted (drained s j) (sealGen s j).2).snp.buddyValid then
      mirrorStart (genCommitted (drained s j) (sealGen s j).2) (sealGen s j).2
    else genCommitted (drained s j) (sealGen s j).2 := rfl

theorem sealGen_fields : (sealGen s j).2.ctx = j.ctx ∧ (sealGen s j).2.gen = tget 0 s.snp.maxGen j.ctx + 1
    ∧ (sealGen s j).2.lesson = j.lesson ∧ (sealGen s j).2.mirror = false ∧ (sealGen s j).2.src = 0x3FF := ⟨rfl, rfl, rfl, rfl, rfl⟩

theorem drained_snp : (drained s j).snp = { s.snp with jobs := eraseFirst (· == j) s.snp.jobs } := rfl

theorem drained_mem : (drained s j).mem = s.mem := rfl

theorem getSnp_keepGens {mirror : Bool} : getSnp (keepGens s mirror src c) d = getSnp s d := rfl

theorem getSnp_genListed : getSnp (genListed s g) g.ctx = (getSnp s g.ctx).listed g := by
  unfold genListed
  rw [getSnp_modSnp]
  rfl

theorem maxGen_genListed : tget 0 (genListed s g).snp.maxGen g.ctx = g.gen := tget_tset_same

theorem SnpCtx.listed_fields {x : SnpCtx} : (x.listed g).gen = g.gen ∧ (x.listed g).prev = g.digest ∧ (x.listed g).prevLesson = g.lesson :=
  ⟨rfl, rfl, rfl⟩

theorem genCommitted_spec : getSnp (genCommitted s g) g.ctx = (getSnp s g.ctx).listed g
    ∧ tget 0 (genCommitted s g).snp.maxGen g.ctx = g.gen ∧ (genCommitted s g).snp.jobs = s.snp.jobs ∧ (genCommitted s g).mem = s.mem :=
  ⟨getSnp_keepGens.trans getSnp_genListed, maxGen_genListed, rfl, rfl⟩

theorem mem_genCommitted (hm : g.mirror = false) (hs : g.src = 0x3FF) (hk : 1 ≤ s.snp.keep) : g ∈ (genCommitted s g).snp.gens :=
  mem_keepGens (s := genListed s g) rfl (by simp [ofSource, hm, hs]) hk

theorem exec_commit (hf : s.snp.jobs.find? (fun j => j.ctx == c && j.phase == .drain) = some j) :
    exec (.snapshotCommit c) s = .next (commitGen s j) := by
  change execSnapshotCommit c s = _
  unfold execSnapshotCommit
  rw [hf]

/-- With or without its mirror, a generation that has room is committed and stays. -/
theorem commitGen_ok (hroom : genExtents (sealGen s j).2 ≤ freeExtents (drained s j) false) :
    MirrorOnly (genCommitted (drained s j) (sealGen s j).2) (commitGen s j) := by
  rw [commitGen_eq, if_neg (not_lt.2 hroom)]
  split
  · exact mirrorOnly_mirrorStart
  · exact .refl

/-- What a committed generation leaves, its mirror begun or not. -/
theorem committed_spec (hm : MirrorOnly (genCommitted t g) u) (hmir : g.mirror = false) (hsrc : g.src = 0x3FF) (hk : 1 ≤ t.snp.keep) :
    (∃ x ∈ u.snp.gens, x.sameAs g) ∧ getSnp u g.ctx = (getSnp t g.ctx).listed g ∧ tget 0 u.snp.maxGen g.ctx = g.gen
    ∧ u.snp.jobs = t.snp.jobs ∧ u.mem = t.mem := by
  obtain ⟨hsnp, hmax, hjobs, hmem⟩ := genCommitted_spec (s := t) (g := g)
  refine ⟨hm.gens _ (mem_genCommitted hmir hsrc hk), ?_, by rwa [hm.maxGen], hm.jobs.trans hjobs, hm.mem.trans hmem⟩
  rw [← hsnp]
  unfold getSnp
  rw [hm.ctx]

theorem commits (hf : s.snp.jobs.find? (fun j => j.ctx == c && j.phase == .drain) = some j) :
    (genExtents (sealGen s j).2 ≤ freeExtents (drained s j) false → 1 ≤ s.snp.keep → Completes (.snapshotCommit c) s (fun u =>
      (∃ g ∈ u.snp.gens, g.ctx = c ∧ g.gen = (sealGen s j).2.gen ∧ g.lesson = j.lesson ∧ g.manifest = (sealGen s j).2.manifest
        ∧ g.objs = (sealGen s j).2.objs)
      ∧ (getSnp u c).gen = (sealGen s j).2.gen ∧ (getSnp u c).prev = (sealGen s j).2.digest ∧ (getSnp u c).prevLesson = j.lesson
      ∧ tget 0 u.snp.maxGen c = tget 0 s.snp.maxGen c + 1 ∧ u.snp.jobs = (drained s j).snp.jobs ∧ u.mem = s.mem))
    ∧ (freeExtents (drained s j) false < genExtents (sealGen s j).2 → Completes (.snapshotCommit c) s (fun u =>
        u.snp = (drained s j).snp ∧ u.mem = s.mem ∧ u.int.lastCode = FaultCode.snapSpace.code)) := by
  have hc : j.ctx = c := by
    have hj := List.find?_some hf
    simp only [Bool.and_eq_true, beq_iff_eq] at hj
    exact hj.1
  obtain ⟨hctx, hgen, hles, hmir, hsrc⟩ := sealGen_fields (s := s) (j := j)
  subst hc
  refine ⟨fun hroom hk => ?_, fun hfull => ?_⟩
  · obtain ⟨⟨x, hx, h1, h2, h3, h4, h5⟩, hget, hmax, hjobs, hmem⟩ := committed_spec (commitGen_ok hroom) hmir hsrc hk
    obtain ⟨l1, l2, l3⟩ := SnpCtx.listed_fields (x := getSnp (drained s j) (sealGen s j).2.ctx) (g := (sealGen s j).2)
    rw [← hget, hctx] at l1 l2 l3
    rw [hctx] at h1 hmax
    exact .of_next (exec_commit hf) ⟨⟨x, hx, h1, h2, h3.trans hles, h4, h5⟩, l1, l2, l3.trans hles, hmax.trans hgen, hjobs,
      hmem.trans drained_mem⟩
  · refine .of_next (exec_commit hf) ?_
    rw [commitGen_eq, if_pos hfull, raise_snp, raise_mem]
    exact ⟨rfl, drained_mem, raise_lastCode⟩

/-! ### Acknowledgements, timeouts and the buddy (R561, R564) -/

theorem exec_mirrorAck (hr : mirrorRecv s src pool seq 3 = some (r, h)) (h0 : h.len = 0)
    (hm : s.snp.mirrors.find? (fun m => m.ctx == h.ctx) = some m) (hb : src = s.snp.buddyLmn) :
    exec (.mirrorAck src pool seq) s = .next (if m.rest ≠ [] then mirrorNext (takeRecv s r) m
      else modGen { takeRecv s r with snp.mirrors := eraseFirst (· == m) s.snp.mirrors } m.ctx m.gen (fun g => { g with mirrored := true })) := by
  have hm' : (takeRecv s r).snp.mirrors.find? (fun m => m.ctx == h.ctx) = some m := hm
  change execMirrorAck src pool seq s = _
  unfold execMirrorAck
  rw [hr]
  dsimp only
  rw [if_neg (not_not.2 h0), hm']
  exact congrArg Host.Outcome.next (if_neg (not_not.2 hb))

theorem mirrored_modGen (hg : g ∈ (modGen s c gen (fun g => { g with mirrored := true })).snp.gens) (hm : g.mirror = false) (hc : g.ctx = c)
    (hn : g.gen = gen) : g.mirrored = true := by
  obtain ⟨x, -, rfl⟩ := List.mem_map.1 hg
  by_cases hx : (!x.mirror && x.ctx == c && x.gen == gen) = true
  · rw [if_pos hx]
  · rw [if_neg hx] at hm hc hn
    exact absurd (by simp [hm, hc, hn]) hx

theorem exec_mirrorTimeout (hm : s.snp.mirrors.find? (fun m => m.ctx == c) = some m) (hc : counting s = true)
    (hb : 65536 + m.sent ≤ s.bell.count) : exec (.mirrorTimeout c) s = .next (mirrorFails s m) := by
  change execMirrorTimeout c s = _
  unfold execMirrorTimeout
  rw [hm]
  dsimp only
  rw [if_pos]
  rw [hc, decide_eq_true hb]
  rfl

/-- The generation of a copy that arrives at the buddy. -/
def arrivedGen (src ctx : Nat) (x : MirrorCopy) : Gen :=
  { mirror := true, src := src, ctx := ctx, gen := x.gen, lesson := x.lesson, nonce := x.nonce, digest := x.digest, manifest := x.manifest,
    objs := x.objs }

/-- The state with an arrived generation stored. -/
def genStored (s : State) (g : Gen) : State := keepGens { s with snp.gens := s.snp.gens ++ [g] } true g.src g.ctx

theorem exec_mirrorReceive {x : MirrorCopy} (hr : mirrorRecv s src pool seq 3 = some (r, h)) (h0 : h.len ≠ 0) (hready : s.snp.ready = true)
    (hroom : genExtents (arrivedGen src h.ctx x) ≤ freeExtents (takeRecv s r) true) : exec (.mirrorReceive src pool seq (some x)) s =
    .next ((mirrorSend (genStored (takeRecv s r) (arrivedGen src h.ctx x)) src h.ctx 3 []).getD
      (genStored (takeRecv s r) (arrivedGen src h.ctx x))) := by
  change execMirrorReceive src pool seq (some x) s = _
  unfold execMirrorReceive
  rw [hr]
  dsimp only
  rw [if_neg (not_or.2 ⟨h0, by rw [hready]; decide⟩)]
  exact congrArg Host.Outcome.next (if_neg (not_lt.2 hroom))

theorem receives {x : MirrorCopy} (hr : mirrorRecv s src pool seq 3 = some (r, h)) (h0 : h.len ≠ 0) (hready : s.snp.ready = true)
    (hk : 1 ≤ s.snp.keep) (hroom : genExtents (arrivedGen src h.ctx x) ≤ freeExtents (takeRecv s r) true) :
    Completes (.mirrorReceive src pool seq (some x)) s (fun u =>
      arrivedGen src h.ctx x ∈ u.snp.gens ∧ u.xf.recv = eraseFirst (· == r) s.xf.recv ∧ u.mem = s.mem) := by
  have hx := exec_mirrorReceive hr h0 hready hroom
  have ho := sentOnly_mirrorSend (s := genStored (takeRecv s r) (arrivedGen src h.ctx x)) (dst := src) (c := h.ctx) (kind := 3) (body := [])
  refine .of_next hx ⟨?_, ho.recv, ho.mem⟩
  rw [ho.proj SnpBlk.gens fun _ _ => rfl]
  exact mem_keepGens (s := { takeRecv s r with snp.gens := s.snp.gens ++ [arrivedGen src h.ctx x] }) rfl (by simp [ofSource, arrivedGen]) hk

/-- Sends of the engine to a module with a route take one number each. -/
theorem forEach_mirrorSend {bs : List (List Byte)} {b : List Byte} (hr : routePort s dst = some p) :
    SentOnly s (forEach (b :: bs) (fun s b => (mirrorSend s dst c kind b).getD s) s)
    ∧ (forEach (b :: bs) (fun s b => (mirrorSend s dst c kind b).getD s) s).snp.mirrorSeq
      = (s.snp.mirrorSeq + (b :: bs).length) % 65536 := by
  induction bs generalizing s b with
  | nil =>
    obtain ⟨u, hu, ho, hq⟩ := mirrorSend_some (c := c) (kind := kind) (body := b) hr
    rw [forEach_cons, forEach_nil, hu]
    exact ⟨ho, hq⟩
  | cons b' bs ih =>
    obtain ⟨u, hu, ho, hq⟩ := mirrorSend_some (c := c) (kind := kind) (body := b) hr
    rw [forEach_cons, hu, Option.getD_some]
    obtain ⟨h1, h2⟩ := ih (s := u) (b := b') ((ho.route dst).trans hr)
    refine ⟨ho.trans h1, h2.trans ?_⟩
    rw [hq, List.length_cons, List.length_cons, List.length_cons]
    omega

theorem length_chunks {α : Type} {n k : Nat} {xs : List α} (h : n * k < xs.length + n) :
    (chunks n k xs).length = k := by
  induction k generalizing xs with
  | zero => rfl
  | succ k ih =>
    rw [Nat.mul_succ] at h
    cases xs with
    | nil => exact absurd h (by rw [List.length_nil]; omega)
    | cons x xs =>
      unfold chunks
      rw [List.length_cons, ih]
      rw [List.length_drop]
      omega

theorem genStream_pos : 0 < (genStream g).length := by
  unfold genStream dirEntry
  simp only [List.length_append, leBytes_length]
  omega

theorem unit_chunks : (chunks mirrorUnit (ceilDiv (genStream g).length mirrorUnit) (genStream g)).length
    = ceilDiv (genStream g).length mirrorUnit ∧ 0 < ceilDiv (genStream g).length mirrorUnit := by
  have hp := genStream_pos (g := g)
  have hu : 0 < mirrorUnit := by decide
  generalize mirrorUnit = n at hu
  generalize genStream g = xs at hp
  unfold ceilDiv
  refine ⟨length_chunks ?_, Nat.div_pos (by omega) hu⟩
  have := Nat.mul_div_le (xs.length + n - 1) n
  omega

theorem exec_mirrorRead (hr : mirrorRecv s src pool seq 4 = some (r, h))
    (hg : s.snp.gens.find? (fun g => g.mirror && g.src == src && g.ctx == h.ctx && g.gen == gen) = some g) :
    exec (.mirrorRead src pool seq gen) s = .next (forEach (chunks mirrorUnit (ceilDiv (genStream g).length mirrorUnit) (genStream g))
      (fun s b => (mirrorSend s src h.ctx 4 b).getD s) (takeRecv s r)) := by
  have hg' : (takeRecv s r).snp.gens.find? (fun g => g.mirror && g.src == src && g.ctx == h.ctx && g.gen == gen) = some g := hg
  change execMirrorRead src pool seq gen s = _
  unfold execMirrorRead
  rw [hr]
  dsimp only
  rw [hg']

theorem reads (hr : mirrorRecv s src pool seq 4 = some (r, h))
    (hg : s.snp.gens.find? (fun g => g.mirror && g.src == src && g.ctx == h.ctx && g.gen == gen) = some g) (hp : routePort s src = some p) :
    Completes (.mirrorRead src pool seq gen) s (fun u => u.snp.gens = s.snp.gens ∧ u.xf.recv = eraseFirst (· == r) s.xf.recv
      ∧ u.snp.mirrorSeq = (s.snp.mirrorSeq + ceilDiv (genStream g).length mirrorUnit) % 65536 ∧ u.mem = s.mem) := by
  have hx := exec_mirrorRead hr hg
  have hu := unit_chunks (g := g)
  cases hc : chunks mirrorUnit (ceilDiv (genStream g).length mirrorUnit) (genStream g) with
  | nil => rw [hc] at hu; exact absurd hu.1 (by rw [List.length_nil]; omega)
  | cons b bs =>
    rw [hc] at hx hu
    obtain ⟨ho, hq⟩ := forEach_mirrorSend (s := takeRecv s r) (c := h.ctx) (kind := 4) (b := b) (bs := bs) hp
    refine .of_next hx ⟨ho.proj SnpBlk.gens fun _ _ => rfl, ho.recv, hq.trans ?_, ho.mem⟩
    rw [hu.1]
    rfl

/-! ### The end of a restore (R563-R567) -/

/-- A pool of the restored context has its credits back. -/
def Pool.refilled (x : Pool) (c : Nat) : Pool := if x.bound && x.ctx == c then { x with credits := x.alloc } else x

theorem tget_map_snd {α : Type} {dflt : α} {f : α → α} {tb : Tbl α} (hd : f dflt = dflt) :
    tget dflt (tb.map (fun e => (e.1, f e.2))) n = f (tget dflt tb n) := by
  induction tb with
  | nil => exact hd.symm
  | cons e tb ih =>
    obtain ⟨k, x⟩ := e
    rw [List.map_cons, tget_cons, tget_cons, ih]
    split <;> rfl

/-- The pools of the restored context refilled. -/
def poolsRefilled (s : State) (c : Nat) : Tbl Pool :=
  s.rc.pool.map (fun e => if e.2.bound && e.2.ctx == c then (e.1, { e.2 with credits := e.2.alloc }) else e)

theorem tget_poolsRefilled : tget default (poolsRefilled s c) n = (getPool s n).refilled c := by
  have hm : poolsRefilled s c = s.rc.pool.map (fun e => (e.1, e.2.refilled c)) :=
    List.map_congr_left fun e _ => by unfold Pool.refilled; split <;> rfl
  rw [hm]
  exact tget_map_snd (f := fun x : Pool => x.refilled c) (ite_self _)

/-- A context that restarts is marked as restored. -/
def Ctx.markRestored (x : Ctx) : Ctx := if x.state == .restart then { x with restored := true } else x

/-- What the engine keeps of a context that has been restored without a replay to verify. -/
def SnpCtx.restoredTo (x : SnpCtx) (man : List Byte) : SnpCtx :=
  { x with prev := shake256 32 man, prevLesson := field man 0x10 8, lastDigest := none, lastCap := none, verify := none }

/-- The state with the pools refilled and the context marked. -/
def contextRestored (s : State) (c : Nat) : State := modCtx { s with rc.pool := poolsRefilled s c } c Ctx.markRestored

/-- The state after a restore, with MEAS_DIFFER as it comes out. -/
def restoredState (s : State) (c : Nat) (man : List Byte) (b : Bool) : State :=
  { modSnp (contextRestored s c) c (fun x => x.restoredTo man) with snp.measDiffer := b }

theorem getSnp_restoredState {b : Bool} : getSnp (restoredState s c man b) c = (getSnp s c).restoredTo man := by
  unfold restoredState
  change getSnp (modSnp (contextRestored s c) c (fun x => x.restoredTo man)) c = _
  rw [getSnp_modSnp]
  rfl

theorem getCtx_restoredState {b : Bool} : getCtx (restoredState s c man b) c = (getCtx s c).markRestored :=
  getCtx_modCtx { s with rc.pool := poolsRefilled s c } c Ctx.markRestored

theorem getPool_restoredState {b : Bool} : getPool (restoredState s c man b) n = (getPool s n).refilled c := tget_poolsRefilled

theorem restoredState_mem {b : Bool} : (restoredState s c man b).mem = s.mem := rfl

theorem restoreDone_eq {j : RestoreJob} (hv : j.verify = false) : ∃ b, restoreDone s p c j man = restoredState s c man b := by
  unfold restoreDone
  dsimp only
  rw [hv]
  exact ⟨_, rfl⟩

/-- The state with the restore over. -/
def restoreOver (s : State) (c : Nat) : State := modSnp s c (fun x => { x with restoring := none })

/-- How a restore ends (R563-R565). -/
def restoreEnd (s : State) (p c : Nat) (j : RestoreJob) (e : Except Nat (List Byte)) : State :=
  match e with
  | .ok man => snpAnswer (restoreDone (restoreOver s c) p c j man) snOk
  | .error st => snpAnswer (restoreOver s c) st

theorem exec_restoreComplete {j : RestoreJob} {bad : List (Nat × Nat)} {mirror : List MirrorCopy} {e : Except Nat (List Byte)}
    (hj : (getSnp s c).restoring = some j) (hp : ptnOfCtx s c = some p) (hn : s.snp.jobs.any (fun x => x.ctx == c) = false)
    (hq : tryCopies p c s (restoreOrder s c j bad mirror) = (t, e)) :
    exec (.restoreComplete c bad mirror) s = .next (restoreEnd t p c j e) := by
  change execRestoreComplete c bad mirror s = _
  unfold execRestoreComplete
  rw [hj, hp]
  dsimp only
  rw [if_neg (ne_true_of_eq_false hn), hq]
  cases e <;> rfl

theorem restoreOver_mem : (restoreOver s c).mem = s.mem := rfl
theorem getCtx_restoreOver : getCtx (restoreOver s c) d = getCtx s d := rfl
theorem getPool_restoreOver : getPool (restoreOver s c) n = getPool s n := rfl
theorem getCtx_snpAnswer : getCtx (snpAnswer s n) c = getCtx s c := rfl
theorem getPool_snpAnswer {k : Nat} : getPool (snpAnswer s k) n = getPool s n := rfl

theorem restored {j : RestoreJob} (hv : j.verify = false) :
    let u := snpAnswer (restoreDone (restoreOver t c) p c j man) snOk
    u.snp.done = true ∧ u.snp.busy = false ∧ u.snp.status = 0 ∧ (getSnp u c).restoring = none ∧ (getSnp u c).prevLesson = field man 0x10 8
    ∧ (getSnp u c).prev = shake256 32 man ∧ u.mem = t.mem
    ∧ ((getCtx t c).state = .restart → (getCtx u c).restored = true)
    ∧ ∀ i, (getPool t i).bound = true → (getPool t i).ctx = c → (getPool u i).credits = (getPool t i).alloc := by
  obtain ⟨b, hb⟩ := restoreDone_eq (s := restoreOver t c) (p := p) (c := c) (man := man) hv
  rw [hb]
  have hover : getSnp (restoreOver t c) c = { getSnp t c with restoring := none } := getSnp_modSnp
  have hsnp := getSnp_restoredState (s := restoreOver t c) (c := c) (man := man) (b := b)
  rw [hover] at hsnp
  have hmem := (restoredState_mem (s := restoreOver t c) (c := c) (man := man) (b := b)).trans (restoreOver_mem (s := t) (c := c))
  refine ⟨rfl, rfl, rfl, congrArg SnpCtx.restoring hsnp, congrArg SnpCtx.prevLesson hsnp, congrArg SnpCtx.prev hsnp,
    hmem, fun hs => ?_, fun i hbd hc => ?_⟩
  · rw [getCtx_snpAnswer, getCtx_restoredState, getCtx_restoreOver]
    unfold Ctx.markRestored
    rw [if_pos (beq_iff_eq.2 hs)]
  · rw [getPool_snpAnswer, getPool_restoredState, getPool_restoreOver]
    unfold Pool.refilled
    rw [if_pos (by simp [hbd, hc])]

theorem restoreEnds {j : RestoreJob} {bad : List (Nat × Nat)} {mirror : List MirrorCopy} (hj : (getSnp s c).restoring = some j)
    (hp : ptnOfCtx s c = some p) (hn : s.snp.jobs.any (fun x => x.ctx == c) = false) :
    let r := tryCopies p c s (restoreOrder s c j bad mirror)
    (∀ k, r.2 = .error k → Completes (.restoreComplete c bad mirror) s (fun u => u.snp.done = true ∧ u.snp.busy = false
      ∧ u.snp.status = k ∧ (getSnp u c).restoring = none ∧ u.mem = r.1.mem))
    ∧ (∀ man, r.2 = .ok man → j.verify = false → Completes (.restoreComplete c bad mirror) s (fun u => u.snp.done = true
      ∧ u.snp.busy = false ∧ u.snp.status = 0 ∧ (getSnp u c).restoring = none ∧ (getSnp u c).prevLesson = field man 0x10 8
      ∧ (getSnp u c).prev = shake256 32 man ∧ u.mem = r.1.mem
      ∧ ((getCtx r.1 c).state = .restart → (getCtx u c).restored = true)
      ∧ ∀ i, (getPool r.1 i).bound = true → (getPool r.1 i).ctx = c → (getPool u i).credits = (getPool r.1 i).alloc)) := by
  generalize hq : tryCopies p c s (restoreOrder s c j bad mirror) = q
  obtain ⟨t, e⟩ := q
  have hx := exec_restoreComplete hj hp hn hq
  dsimp only
  refine ⟨fun k hk => ?_, fun man hk hv => ?_⟩ <;> subst hk
  · refine .of_next hx ⟨rfl, rfl, rfl, ?_, rfl⟩
    have hs := getSnp_modSnp (s := t) (c := c) (f := fun x => { x with restoring := none })
    exact congrArg SnpCtx.restoring hs
  · exact .of_next hx (restored hv)

/-- Settles O56: one lemma for each event of the engine. -/
theorem snapshotEngine : Obligations.SnapshotEngine := by
  unfold Obligations.SnapshotEngine
  refine ⟨fun s hm hr => engineReady hm hr, fun s c => ?_, fun s c j hf => ?_, fun s src pool seq r h hr => ?_,
    fun s c m hm hc hb => .of_next (exec_mirrorTimeout hm hc hb) mirrorFails_spec, fun s src pool seq gen r h g p hr hg hp => reads hr hg hp,
    fun s c p j bad mirror hj hp hn => restoreEnds hj hp hn⟩
  · intro mine ha
    exact copyDone ha
  · intro r t
    exact commits hf
  refine ⟨fun m h0 hm hb => ⟨fun he => ?_, fun p hne hp => ?_⟩, fun x h0 hready hk => ?_⟩
  · have hx := exec_mirrorAck hr h0 hm hb
    rw [if_neg (not_not.2 he)] at hx
    exact .of_next hx ⟨rfl, rfl, fun g hg h1 h2 h3 => mirrored_modGen hg h1 h2 h3⟩
  · have hx := exec_mirrorAck hr h0 hm hb
    rw [if_pos hne] at hx
    exact .of_next hx (mirrorNext_sent (s := takeRecv s r) (p := p) (hb ▸ hp) (List.mem_of_find?_eq_some hm))
  · intro g hroom
    exact receives hr h0 hready hk hroom

end Sys2Proof.Machine
end


section
/-! SUPPORT and proof of self-test runs and fuse repairs. -/

namespace Sys2Proof.Machine

variable {s u v : State} {who : Req} {x op arg k r origin : Nat} {c : Instr} {rs : List TestRes} {l : Tbl Repair}

/-! ### TST_CMD (R571, R585) -/

/-- The life cycles that take the self-test commands (R571). -/
def testLife (s : State) : Prop := s.lcs.lc = .manufacture ∨ s.lcs.lc = .returned

/-- The state with TST_ARG written. -/
def withTstArg (s : State) (arg : Nat) : State := { s with tst.arg := arg }

/-- A self-test command's row, by its operation and argument. -/
theorem tst_rows (hc : c ∈ [Instr.runQuick who x, .runFull who x, .loopFar who x, .fuse who []]) :
    ∃ op arg, exec c s = .next (tstRow s who op arg []) ∧ op ≠ 0 ∧ op < 5 := by
  simp only [List.mem_cons, List.not_mem_nil, or_false] at hc
  rcases hc with rfl | rfl | rfl | rfl
  · exact ⟨1, _, rfl, by decide, by decide⟩
  · exact ⟨2, _, rfl, by decide, by decide⟩
  · exact ⟨3, _, rfl, by decide, by decide⟩
  · exact ⟨4, _, rfl, by decide, by decide⟩

/-- The operation of a self-test command that is taken. -/
def tstOp (s : State) (op : Nat) : State :=
  match op with
  | 1 => startRun s 1 (testRegions s (bits s.tst.arg 0 16))
  | 2 => startRun s 2 (testRegions s (bits s.tst.arg 0 16))
  | 3 => startRun s 3 []
  | _ => fuseOp s []

section Row

variable (hp : partsUp s = true)
include hp

theorem tstRow_written (hr : roleOf s who ≠ none) : tstRow s who op arg [] =
    tstCmd (if mayTstArg s who then withTstArg s arg else s) who op [] := by
  refine if_neg ?_
  rw [hp, Option.isNone_eq_false_iff.2 (Option.isSome_iff_ne_none.2 hr)]
  decide

variable (hb : s.tst.busy = false) (h0 : op ≠ 0) (h5 : op < 5)
include hb h0 h5

omit hp in
theorem tstCmd_taken : tstCmd s who op [] = if !isMaker s who then tstAnswer s tsRole
    else if !(s.lcs.lc == .manufacture || s.lcs.lc == .returned) then tstAnswer s tsBadState
    else tstOp s op := by
  unfold tstCmd
  rw [if_neg (by rw [hb]; decide), if_neg (by omega)]
  rfl

/-- Any role but the maker's is answered ROLE. -/
theorem tstRow_role (hr : roleOf s who ≠ none) (hm : isMaker s who = false) : tstRow s who op arg [] = tstAnswer s tsRole := by
  have ha : mayTstArg s who = false := by unfold mayTstArg; rw [hm]; rfl
  rw [tstRow_written hp hr, ha, if_neg (by decide), tstCmd_taken hb h0 h5, if_pos (by rw [hm]; rfl)]

variable (hm : isMaker s who = true)
include hm

omit hp hb h0 h5 in
theorem roleOf_ne_none : roleOf s who ≠ none := by
  have hr : roleOf s who = some .maker := beq_iff_eq.1 hm
  rw [hr]
  exact Option.some_ne_none _

/-- In the other life cycles the maker is answered BAD_STATE. -/
theorem tstRow_badState (hl : ¬testLife s) : tstRow s who op arg [] = tstAnswer s tsBadState := by
  have hf : (s.lcs.lc == .manufacture || s.lcs.lc == .returned) = false := by
    rw [← Bool.not_eq_true, Bool.or_eq_true, beq_iff_eq, beq_iff_eq]
    exact hl
  have ha : mayTstArg s who = false := by unfold mayTstArg; rw [hf, Bool.and_false]
  rw [tstRow_written hp (roleOf_ne_none hm), ha, if_neg (by decide), tstCmd_taken hb h0 h5, if_neg (by rw [hm]; decide), hf]
  exact if_pos rfl

theorem tstRow_op (hl : testLife s) : tstRow s who op arg [] = tstOp (withTstArg s arg) op := by
  have hf : (s.lcs.lc == .manufacture || s.lcs.lc == .returned) = true := by
    rw [Bool.or_eq_true, beq_iff_eq, beq_iff_eq]
    exact hl
  have ha : mayTstArg s who = true := by unfold mayTstArg; rw [hm, hf]; rfl
  rw [tstRow_written hp (roleOf_ne_none hm), ha, if_pos rfl, tstCmd_taken (s := withTstArg s arg) hb h0 h5]
  refine (if_neg ?_).trans (if_neg ?_)
  · exact (by rw [hm]; decide : ¬(!isMaker s who) = true)
  · exact (by rw [hf]; decide : ¬(!(s.lcs.lc == .manufacture || s.lcs.lc == .returned)) = true)

end Row

/-- What a run begins with. -/
theorem startRun_spec {rg : List Nat} : (startRun (withTstArg s arg) k rg).tst.busy = true ∧ (startRun (withTstArg s arg) k rg).tst.kind = k
    ∧ (startRun (withTstArg s arg) k rg).tst.arg = arg ∧ (startRun (withTstArg s arg) k rg).tst.running = rg.take 2
    ∧ (startRun (withTstArg s arg) k rg).tst.waiting = rg.drop 2
    ∧ (startRun (withTstArg s arg) k rg).tst.run = wrap 32 (s.tst.run + 1)
    ∧ startRun (withTstArg s arg) k rg = { s with tst := (startRun (withTstArg s arg) k rg).tst } := ⟨rfl, rfl, rfl, rfl, rfl, rfl, rfl⟩

theorem wrap_32 : wrap 32 x = x % 2 ^ 32 := rfl

theorem bits_mod (x : Nat) : bits (x % 65536) 0 16 = x % 65536 := by
  unfold bits
  omega

theorem tstOp_run (hk : k = 1 ∨ k = 2) :
    tstOp (withTstArg s (x % 65536)) k = startRun (withTstArg s (x % 65536)) k (testRegions s (x % 65536)) := by
  have hb : bits (withTstArg s (x % 65536)).tst.arg 0 16 = x % 65536 := bits_mod x
  rcases hk with rfl | rfl <;> unfold tstOp <;> rw [hb] <;> rfl

/-! ### FUSE (R583) -/

/-- A repair record made permanent. -/
def Repair.fused (y : Repair) : Repair := { y with state := 3 }

/-- One APPLIED record is burnt and written as FUSED. -/
def fuseStep (s : State) (e : Nat × Repair) : State :=
  putRep { s with fuse.repairs := s.fuse.repairs ++ [e.2.fused] } e.1 e.2.fused

/-- The APPLIED records. -/
def appliedReps (s : State) : Tbl Repair := s.led.repair.filter (fun e => e.2.state == 2)

theorem fuseOp_eq : fuseOp s [] = tstAnswer (forEach (appliedReps s) fuseStep s) tsOk := by
  unfold fuseOp
  have hall : ∀ l : Tbl Repair, l.filter (fun e => !([] : List Nat).contains e.1) = l := fun l => List.filter_eq_self.2 fun _ _ => rfl
  have hnone : ∀ l : Tbl Repair, l.any (fun e => ([] : List Nat).contains e.1) = false := fun l => List.any_eq_false.2 fun _ _ => Bool.false_ne_true
  dsimp only
  rw [hall, hnone, if_neg (by decide)]
  rfl

theorem putRep_repair {y : Repair} : (putRep s k y).led.repair = tset {} s.led.repair k y :=
  journal_led_other Ledger.repair fun _ _ _ _ => rfl

theorem putRep_fuse {y : Repair} : (putRep s k y).fuse = s.fuse :=
  (putRep_kept (Kept.refl [.mc, .int, .ptn, .ctx, .led, .lcs, .i3c] s) (Within.refl _)).rest .fuse (by decide)

theorem fuseStep_repairs {e : Nat × Repair} : (fuseStep s e).fuse.repairs = s.fuse.repairs ++ [e.2.fused] := by
  unfold fuseStep
  rw [putRep_fuse]

theorem getRep_fuseStep {e : Nat × Repair} : getRep (fuseStep s e) k = if k = e.1 then e.2.fused else getRep s k := by
  unfold fuseStep getRep
  rw [putRep_repair]
  split
  · next h => rw [h, tget_tset_same]
  · next h => exact tget_tset_other h

theorem fuse_repairs : (forEach l fuseStep s).fuse.repairs = s.fuse.repairs ++ l.map (fun e => e.2.fused) := by
  induction l generalizing s with
  | nil => exact (List.append_nil _).symm
  | cons e l ih => rw [forEach_cons, ih, fuseStep_repairs, List.append_assoc, List.map_cons, List.singleton_append]

/-- A record that is permanent stays so while others are burnt. -/
theorem fused_forEach (h : (getRep s k).state = 3) : (getRep (forEach l fuseStep s) k).state = 3 :=
  forEach_keeps (P := fun s => (getRep s k).state = 3) h fun u e _ hu => by
    rw [getRep_fuseStep]
    split
    · rfl
    · exact hu

/-- Every record of the list is permanent after the round. -/
theorem fused_of_mem {y : Repair} (h : (k, y) ∈ l) : (getRep (forEach l fuseStep s) k).state = 3 := by
  induction l generalizing s with
  | nil => cases h
  | cons e l ih =>
    rw [forEach_cons]
    rcases List.mem_cons.1 h with rfl | h
    · refine fused_forEach ?_
      rw [getRep_fuseStep, if_pos rfl]
      rfl
    · exact ih h

theorem fused_of_applied (h : (getRep s k).state = 2) : (getRep (forEach (appliedReps s) fuseStep s) k).state = 3 := by
  have hne : getRep s k ≠ {} := fun e => absurd (h.symm.trans (congrArg Repair.state e)) (by decide)
  exact fused_of_mem (List.mem_filter.2 ⟨mem_of_tget_ne hne, beq_iff_eq.2 h⟩)

/-! ### The end of a region's test and of a run (R573, R576, R584) -/

/-- What a result leaves of the run's own progress. -/
def runOf (s : State) : List Nat × List Nat × Nat := (s.tst.running, s.tst.waiting, s.tst.regionsOk)

theorem runOf_of_tst (h : u.tst = s.tst) : runOf u = runOf s := by unfold runOf; rw [h]

theorem putRep_tst {y : Repair} : (putRep s k y).tst = s.tst :=
  (putRep_kept (Kept.refl [.mc, .int, .ptn, .ctx, .led, .lcs, .i3c] s) (Within.refl _)).rest .tst (by decide)

theorem raise_tst {f : FaultCode} {a : FaultAt} : (raise s f a).tst = s.tst := by rw [raise_parts]

theorem runOf_addRep {y : Repair} : runOf (addRep s y) = runOf s := by
  unfold addRep
  split
  · exact runOf_of_tst putRep_tst
  · rfl

theorem holdCluster_tst : (holdCluster s k).tst = s.tst :=
  (holdCluster_kept (Kept.refl [.int] s) (Within.refl _)).rest .tst (by decide)

theorem runOf_bistRepair {kind : Nat} {y : TestRes} : runOf (bistRepair s origin kind y) = runOf s := by
  unfold bistRepair
  dsimp only
  rw [runOf_addRep]
  exact forEach_proj (π := runOf) fun u e => runOf_of_tst putRep_tst

theorem runOf_bistRetire : runOf (bistRetire s origin k).1 = runOf s := by
  unfold bistRetire
  dsimp only
  split
  · exact runOf_addRep
  · split
    · exact runOf_addRep
    · exact (runOf_of_tst holdCluster_tst).trans runOf_addRep

theorem runOf_deadPorts {d : List Nat} : runOf { s with tst.deadPorts := d } = runOf s := rfl
theorem runOf_deadChannels {d : List Nat} : runOf { s with tst.deadChannels := d } = runOf s := rfl
theorem runOf_contentBad {b : Bool} : runOf { s with tst.contentBad := b } = runOf s := rfl

theorem runOf_holdClusters {ks : List Nat} : runOf (forEach ks holdCluster s) = runOf s :=
  forEach_proj (π := runOf) fun _ _ => runOf_of_tst holdCluster_tst

theorem runOf_bistEffect {y : TestRes} : runOf (bistEffect s origin y).1 = runOf s := by
  unfold bistEffect
  dsimp only
  split
  · rfl
  · rfl
  · exact runOf_bistRepair
  · exact runOf_bistRepair
  · exact runOf_bistRepair
  · split
    · exact runOf_bistRetire
    · exact runOf_of_tst holdCluster_tst
    · dsimp only
      exact runOf_holdClusters
    · split
      · exact runOf_deadPorts
      · exact runOf_of_tst rfl
    · exact runOf_contentBad
    · split
      · exact runOf_deadChannels
      · rfl
    · rfl

theorem runOf_pushResult {bs : List Byte} : runOf (pushResult s bs) = runOf s := by
  unfold pushResult
  split <;> rfl

theorem runOf_raise {f : FaultCode} {a : FaultAt} : runOf (raise s f a) = runOf s := runOf_of_tst raise_tst

theorem runOf_unrepaired : runOf { s with tst.unrepaired := true } = runOf s := rfl

/-- A result changes nothing of the run's own progress. -/
theorem runOf_testResult {y : TestRes} : runOf (testResult origin s y) = runOf s := by
  have hp : ∀ bs, runOf (pushResult (bistEffect s origin y).1 bs) = runOf s := fun _ => runOf_pushResult.trans runOf_bistEffect
  unfold testResult
  dsimp only
  split
  · exact hp _
  · split
    · rw [runOf_raise, runOf_unrepaired, runOf_raise]
      exact hp _
    · rw [runOf_raise]
      exact hp _

theorem runOf_testResults : runOf (testResults origin s rs).1 = runOf s := by
  have h := forEach_proj (π := runOf) (f := testResult origin) (fun _ _ => runOf_testResult) (xs := rs) (s := { s with tst.unrepaired := false })
  unfold testResults
  exact h

/-- The run with a region off, and the next one admitted. -/
def regionOff (s : State) (ok : Bool) (r : Nat) : State :=
  { s with tst := { s.tst with
      running := s.tst.running.filter (· != r) ++ s.tst.waiting.take 1, waiting := s.tst.waiting.drop 1,
      regionsOk := if ok then s.tst.regionsOk ||| 2 ^ r else s.tst.regionsOk } }

theorem exec_regionEnd (hr : s.tst.running.contains r = true) : exec (.regionBistEnd r rs) s = .next
    (clearRegion (regionOff (testResults (runOrigin s) s rs).1 (testResults (runOrigin s) s rs).2 r) r) :=
  congrArg Host.Outcome.next (if_neg (by rw [hr]; decide))

theorem clearRegion_parts : (clearRegion s r).tst = s.tst ∧ (clearRegion s r).led = s.led ∧ (clearRegion s r).phys = s.phys := ⟨rfl, rfl, rfl⟩

theorem clearRegion_regionOff {ok : Bool} : (clearRegion (regionOff s ok r) r).mem = (clearRegion s r).mem := rfl

theorem regionEnds (hr : s.tst.running.contains r = true) : Completes (.regionBistEnd r rs) s (fun u =>
    let t := testResults (runOrigin s) s rs
    u.tst.running = s.tst.running.filter (· != r) ++ s.tst.waiting.take 1 ∧ u.tst.waiting = s.tst.waiting.drop 1
    ∧ u.tst.regionsOk = (if t.2 then s.tst.regionsOk ||| 2 ^ r else s.tst.regionsOk)
    ∧ u.mem = (clearRegion t.1 r).mem ∧ u.led = t.1.led ∧ u.phys = t.1.phys) := by
  have hrun := runOf_testResults (origin := runOrigin s) (s := s) (rs := rs)
  refine .of_next (exec_regionEnd hr) ?_
  generalize testResults (runOrigin s) s rs = t at hrun
  obtain ⟨h1, h23⟩ := Prod.mk.injEq .. ▸ hrun
  obtain ⟨h2, h3⟩ := Prod.mk.injEq .. ▸ h23
  obtain ⟨htst, hled, hphys⟩ := clearRegion_parts (s := regionOff t.1 t.2 r) (r := r)
  dsimp only
  rw [htst, hled, hphys, clearRegion_regionOff, ← h1, ← h2, ← h3]
  exact ⟨rfl, rfl, rfl, rfl, rfl, rfl⟩

/-- A full test leaves every memory filled with zeros (R584). -/
def zeroed (s : State) : State := { s with mem := [], memKey := [], memErr := [], resv := [] }

theorem exec_runEnd (hb : s.tst.busy = true) (hr : s.tst.running = []) : exec (.testRunEnd rs) s = .next
    (tstAnswer (if s.tst.kind == 2 then zeroed (forEach rs (testResult (runOrigin s)) s) else forEach rs (testResult (runOrigin s)) s) tsOk) :=
  congrArg Host.Outcome.next (if_neg (by rw [hb, hr]; decide))

theorem runEnds (hb : s.tst.busy = true) (hr : s.tst.running = []) : Completes (.testRunEnd rs) s (fun u =>
    let t := forEach rs (testResult (runOrigin s)) s
    u.tst.busy = false ∧ u.tst.done = true ∧ u.tst.status = 0 ∧ u.led = t.led ∧ u.phys = t.phys
    ∧ u.mem = (if s.tst.kind = 2 then [] else t.mem)) := by
  refine .of_next (exec_runEnd hb hr) ?_
  generalize forEach rs (testResult (runOrigin s)) s = t
  by_cases hk : s.tst.kind = 2
  · rw [if_pos (beq_iff_eq.2 hk)]
    dsimp only
    rw [if_pos hk]
    exact ⟨rfl, rfl, rfl, rfl, rfl, rfl⟩
  · rw [if_neg (mt beq_iff_eq.1 hk)]
    dsimp only
    rw [if_neg hk]
    exact ⟨rfl, rfl, rfl, rfl, rfl, rfl⟩

/-- Settles O57: the commands by their row, FUSE by one round over its records, the ends of a region and of a run by what results leave. -/
theorem selfTestRuns : Obligations.SelfTestRuns := by
  unfold Obligations.SelfTestRuns
  refine ⟨fun s who x hp hb => ?_, fun s r rs hr => regionEnds hr, fun s rs hb hr => runEnds hb hr⟩
  intro field_
  refine ⟨fun hm hl => ⟨fun c k hc => ?_, ?_, ?_⟩, fun c hc => ⟨fun hm hr => ?_, fun hm hl => ?_⟩⟩
  · simp only [List.mem_cons, Prod.mk.injEq, List.not_mem_nil, or_false] at hc
    rcases hc with ⟨rfl, rfl⟩ | ⟨rfl, rfl⟩
    · refine .of_eq rfl ((tstRow_op hp hb (by decide) (by decide) hm hl).trans (tstOp_run (.inl rfl))) startRun_spec
    · refine .of_eq rfl ((tstRow_op hp hb (by decide) (by decide) hm hl).trans (tstOp_run (.inr rfl))) startRun_spec
  · refine .of_eq rfl (tstRow_op (op := 3) (arg := x % 256 * 65536) hp hb (by decide) (by decide) hm hl) ?_
    exact ⟨rfl, rfl, rfl, rfl, rfl⟩
  · refine .of_eq rfl ((tstRow_op (op := 4) (arg := s.tst.arg) hp hb (by decide) (by decide) hm hl).trans fuseOp_eq) ?_
    exact ⟨rfl, rfl, fun k hk => fused_of_applied (s := withTstArg s s.tst.arg) hk, fuse_repairs⟩
  · obtain ⟨op, arg, hx, h0, h5⟩ := tst_rows (s := s) hc
    refine .of_eq hx (tstRow_role hp hb h0 h5 hr hm) ?_
    exact ⟨rfl, rfl, rfl⟩
  · obtain ⟨op, arg, hx, h0, h5⟩ := tst_rows (s := s) hc
    refine .of_eq hx (tstRow_badState hp hb h0 h5 hm hl) ?_
    exact ⟨rfl, rfl, rfl⟩

end Sys2Proof.Machine
end


section
/-! SUPPORT and proof of the test access port and the I3C target. -/

namespace Sys2Proof.Machine

variable {s u : State} {a n k ir pins cells : Nat} {who : Option Nat} {env : RegEnv} {f : State → State} {c : Instr}

/-! ### The test access port (R572) -/

/-- The instruction of the test access port becomes BYPASS. -/
def bypassed (s : State) : State := { s with tap := { s.tap with ir := 0xFF, drive := false } }

/-- The state with an instruction of the test access port loaded. -/
def tapLoaded (s : State) (ir : Nat) : State := { s with tap := { s.tap with ir := ir } }

section Tap

variable (hv : s.pwr.vao = true)
include hv

theorem tapLoad_permitted (hs : scanPermitted s = true) : tapLoad s ir f = f (tapLoaded s ir) :=
  (if_neg (by rw [hv]; decide)).trans (if_pos hs)

theorem tapLoad_bypass (hs : scanPermitted s = false) : tapLoad s ir f = bypassed s :=
  (if_neg (by rw [hv]; decide)).trans (if_neg (by rw [hs]; decide))

/-- An instruction that the life cycle does not permit is BYPASS. -/
theorem exec_tapBypass (hs : scanPermitted s = false)
    (hc : c ∈ [Instr.extest pins cells, .samplePreload pins cells, .clamp, .highz, .regAccess a env]) : exec c s = .next (bypassed s) := by
  have h : ∀ ir f, (.next (tapLoad s ir f) : Out) = .next (bypassed s) := fun ir f => congrArg Host.Outcome.next (tapLoad_bypass hv hs)
  simp only [List.mem_cons, List.not_mem_nil, or_false] at hc
  rcases hc with rfl | rfl | rfl | rfl | rfl <;> exact h ..

end Tap

/-- What a register access by the test access port answers (R482, R572). -/
def tapAccess (s : State) (a : Nat) (env : RegEnv) : State × RegStatus × Nat :=
  if acReserved a then (s, .error, acAnswer a .error (acValue a)) else oneAccess s .tap a env

/-- The data register takes an answer. -/
def tapAnswered (s : State) (r : Nat) : State := { s with tap.dr := r, tap.drive := false }

theorem tapAnswered_parts : (tapAnswered s n).mem = s.mem ∧ (tapAnswered s n).lcs = s.lcs ∧ (tapAnswered s n).mod = s.mod
    ∧ (tapAnswered s n).tap.dr = n ∧ (tapAnswered s n).tap.drive = false := ⟨rfl, rfl, rfl, rfl, rfl⟩

theorem exec_regAccess (hv : s.pwr.vao = true) (hs : scanPermitted s = true) (ha : a < 2 ^ 64) : exec (.regAccess a env) s =
    .next (tapAnswered (tapAccess (tapLoaded s 0x80) a env).1 (tapAccess (tapLoaded s 0x80) a env).2.2) := by
  refine congrArg Host.Outcome.next ((tapLoad_permitted hv hs).trans ?_)
  dsimp only
  rw [Nat.mod_eq_of_lt ha]
  rfl

/-- The port's part of the statement. -/
theorem testPort (hv : s.pwr.vao = true) :
    Completes .tapReset s (fun u => u = { s with tap := {} })
    ∧ Completes .bypass s (fun u => u = { s with tap := { s.tap with ir := 0xFF, drive := false } })
    ∧ (scanPermitted s = true →
      (∀ pins cells, Completes (.extest pins cells) s (fun u => u.tap.ir = 0 ∧ u.tap.drive = true
          ∧ u.tap.boundary = bits cells 0 14 ∧ u.tap.dr = bits pins 0 1 + 2 * bits s.tap.boundary 1 4 + 32 * bits pins 5 9
          ∧ u = { s with tap := u.tap }))
      ∧ (∀ pins cells, Completes (.samplePreload pins cells) s (fun u => u.tap.ir = 1 ∧ u.tap.drive = false
          ∧ u.tap.boundary = bits cells 0 14 ∧ u.tap.dr = captureCells s pins ∧ u = { s with tap := u.tap }))
      ∧ Completes .clamp s (fun u => u = { s with tap := { s.tap with ir := 2, drive := true } })
      ∧ Completes .highz s (fun u => u = { s with tap := { s.tap with ir := 3, drive := false } })
      ∧ (∀ a env, a < 2 ^ 64 → acReserved a = false →
          let r := oneAccess { s with tap := { s.tap with ir := 0x80 } } .tap a env
          Completes (.regAccess a env) s (fun u => u.mem = r.1.mem ∧ u.lcs = r.1.lcs ∧ u.mod = r.1.mod ∧ u.tap.dr = r.2.2
            ∧ u.tap.drive = false))
      ∧ (∀ a env, a < 2 ^ 64 → acReserved a = true → Completes (.regAccess a env) s (fun u =>
          u.tap.dr = acAnswer a .error (acValue a) ∧ u = { s with tap := u.tap })))
    ∧ (scanPermitted s = false →
      ∀ pins cells a env, ∀ c ∈ [Instr.extest pins cells, .samplePreload pins cells, .clamp, .highz, .regAccess a env], Completes c s (fun u =>
        u = { s with tap := { s.tap with ir := 0xFF, drive := false } })) := by
  refine ⟨.of_eq rfl (if_pos hv) rfl, .of_eq rfl (if_pos hv) rfl, fun hs => ?_, fun hs pins cells a env c hc =>
    .of_next (exec_tapBypass hv hs hc) rfl⟩
  refine ⟨fun pins cells => .of_eq rfl (tapLoad_permitted hv hs) ⟨rfl, rfl, rfl, rfl, rfl⟩,
    fun pins cells => .of_eq rfl (tapLoad_permitted hv hs) ⟨rfl, rfl, rfl, rfl, rfl⟩,
    .of_eq rfl (tapLoad_permitted hv hs) rfl, .of_eq rfl (tapLoad_permitted hv hs) rfl, fun a env ha hr => ?_, fun a env ha hr => ?_⟩
  · have hx := exec_regAccess (env := env) hv hs ha
    have ht : tapAccess (tapLoaded s 0x80) a env = oneAccess (tapLoaded s 0x80) .tap a env := if_neg (by rw [hr]; decide)
    rw [ht] at hx
    exact .of_next hx tapAnswered_parts
  · have hx := exec_regAccess (env := env) hv hs ha
    have ht : tapAccess (tapLoaded s 0x80) a env = (tapLoaded s 0x80, .error, acAnswer a .error (acValue a)) := if_pos hr
    rw [ht] at hx
    exact .of_next hx ⟨rfl, rfl⟩

/-! ### The I3C target (R607, R608) -/

section I3c

variable (hv : s.pwr.vao = true)
include hv

theorem i3cOn_eq : i3cOn s f = .next (f s) := congrArg Host.Outcome.next (if_pos hv)

theorem Completes.of_i3cOn {Q : State → Prop} (hx : exec c s = i3cOn s f) (hq : Q (f s)) : Completes c s Q :=
  .of_next (hx.trans (i3cOn_eq hv)) hq

variable (ha : s.i3c.addr = some a)
include ha

theorem i3cTo_eq : i3cTo s a f = .next (f s) := (i3cOn_eq hv).trans (congrArg Host.Outcome.next (if_pos ha))

theorem i3cAny_eq (hw : who = none ∨ who = some a) : i3cAny s who f = .next (f s) := by
  refine (i3cOn_eq hv).trans (congrArg Host.Outcome.next (if_pos ?_))
  rw [ha]
  rcases hw with rfl | rfl
  · exact .inl rfl
  · exact .inr ⟨rfl, rfl⟩

theorem Completes.of_i3cTo {Q : State → Prop} (hx : exec c s = i3cTo s a f) (hq : Q (f s)) : Completes c s Q :=
  .of_next (hx.trans (i3cTo_eq hv ha)) hq

theorem Completes.of_i3cAny {Q : State → Prop} (hw : who = none ∨ who = some a) (hx : exec c s = i3cAny s who f) (hq : Q (f s)) :
    Completes c s Q := .of_next (hx.trans (i3cAny_eq hv ha hw)) hq

/-- R607: a read takes as many bytes as it asks for, but no more than the maximum read length. -/
theorem exec_i3cRead (hn : s.i3c.mrl = 0 ∨ n ≤ s.i3c.mrl) : exec (.i3cPrivateRead a n) s = .next { s with
    i3c.out := (countFrom s.i3c.ptr n).map (fun k => getAt 0 (i3cRegs s) (k % 64)), i3c.ptr := (s.i3c.ptr + n) % 64 } := by
  have hlen : (if s.i3c.mrl = 0 then n else min n s.i3c.mrl) = n := by
    split
    · rfl
    · next h => exact Nat.min_eq_left (hn.resolve_left h)
  change execI3cPrivateRead a n s = _
  unfold execI3cPrivateRead
  rw [i3cTo_eq hv ha]
  dsimp only
  rw [hlen]

end I3c

/-- Settles O58: the port by what it loads, the target by whom it answers. -/
theorem testPortAndI3c : Obligations.TestPortAndI3c := by
  unfold Obligations.TestPortAndI3c
  refine ⟨fun s hv => testPort hv, fun s hv => ⟨fun a h128 hn => ?_, .of_i3cOn (f := fun s => { s with i3c.addr := none }) hv rfl rfl, fun a ha => ?_⟩⟩
  · refine .of_i3cOn hv rfl ?_
    rw [if_pos (Option.isNone_iff_eq_none.2 hn), Nat.mod_eq_of_lt h128]
  · refine ⟨fun b hb => Completes.of_i3cTo (f := fun s => { s with i3c.addr := some (b % 128) }) hv ha rfl ?_,
      Completes.of_i3cTo (f := fun s => { s with i3c.out := beBytes 6 (i3cPid s) }) hv ha rfl rfl,
      Completes.of_i3cTo (f := fun s => { s with i3c.out := [6] }) hv ha rfl rfl,
      Completes.of_i3cTo (f := fun s => { s with i3c.out := [0] }) hv ha rfl rfl, Completes.of_i3cTo (f := fun s => { (draw s 2).2 with i3c.out := (draw s 2).1 }) hv ha rfl ⟨rfl, rfl⟩,
      Completes.of_i3cTo (f := fun s => { s with i3c.out := beBytes 2 s.i3c.mrl ++ [1] }) hv ha rfl rfl,
      fun who hw => ⟨Completes.of_i3cAny (f := fun s => { s with i3c.ibi := true }) hv ha hw rfl rfl,
        Completes.of_i3cAny (f := fun s => { s with i3c.ibi := false }) hv ha hw rfl rfl,
        fun n hn => Completes.of_i3cAny (f := fun s => { s with i3c.mrl := n % 65536 }) hv ha hw rfl ?_⟩,
      fun b => Completes.of_i3cTo (f := fun s => { s with i3c.ptr := b.toNat % 64 }) hv ha rfl rfl, fun bs hb => ?_,
      fun n hn => .of_next (exec_i3cRead hv ha hn) ?_⟩
    · rw [Nat.mod_eq_of_lt hb]
    · rw [Nat.mod_eq_of_lt hn]
    · have hx : exec (.i3cPrivateWrite a bs) s = execI3cPrivateWrite a bs s := rfl
      unfold execI3cPrivateWrite at hx
      refine Completes.of_i3cTo hv ha hx ?_
      dsimp only
      split
      · exact absurd rfl hb
      · rfl
    · have hl : ((countFrom s.i3c.ptr n).map (fun k => getAt 0 (i3cRegs s) (k % 64))).length = n := by
        rw [List.length_map, length_countFrom]
      refine ⟨hl, fun k hk => ?_, rfl, rfl⟩
      rw [getAt_eq_getD, List.getD_eq_getElem _ _ (by rw [hl]; exact hk), List.getElem_map, getElem_countFrom]

end Sys2Proof.Machine
end


section
/-! SUPPORT. Start-up and what a shutdown leaves (R591-R602): the facts that the input, the resets and MOD_RESET_N share. -/

namespace Sys2Proof.Machine

variable {s u v : State} {x : StartUp} {rails recovery b : Bool} {n k : Nat}

/-! ### Step 1 (R594, R511) -/

/-- What step 1 may change: the identity, the life cycle shown, the slot. -/
structure Booted (s u : State) (x : StartUp) : Prop where
  mod : u.mod = { s.mod with slot := bits x.slot 0 6 }
  life : u.lcs.lc = s.fuse.lc
  floor : u.fuse.fwFloor = s.fuse.fwFloor
  stored : u.led.stored = s.led.stored
  seq : u.led.seq = s.led.seq
  parts : u.mem = s.mem ∧ u.core = s.core ∧ u.prs = s.prs ∧ u.rc = s.rc ∧ u.flash = s.flash ∧ u.pending = s.pending ∧ u.pwr = s.pwr

theorem startIdentity_eq : ∃ f i y z, startIdentity s = { s with fresh := f, led.ident := i, sec := y, fuse.identity := z } := by
  unfold startIdentity
  dsimp only
  split <;> split <;> exact ⟨_, _, _, _, rfl⟩

theorem booted_startBoot : Booted s (startBoot s x) x := by
  obtain ⟨f, i, y, z, h⟩ := startIdentity_eq (s := { s with lcs.lc := s.fuse.lc, cpt.txOn := true, mod.slot := bits x.slot 0 6 })
  unfold startBoot
  rw [h]
  exact ⟨rfl, rfl, rfl, rfl, rfl, rfl, rfl, rfl, rfl, rfl, rfl, rfl⟩

theorem flashImage_startBoot : flashImage (startBoot s x) = flashImage s := by
  obtain ⟨-, -, -, -, hf, -⟩ := (booted_startBoot (s := s) (x := x)).parts
  unfold flashImage
  rw [hf]

theorem fwOk_startBoot {img : List Byte} : fwOk (startBoot s x) img = fwOk s img := by
  rw [fwOk, fwOk, (booted_startBoot (s := s) (x := x)).floor]

/-! ### How far start-up goes (R594-R596) -/

/-- In SCRAPPED start-up stays in step 1. -/
theorem startUp_scrapped (hl : s.fuse.lc = .scrapped) : startUp s x rails recovery = { startBoot s x with mod.step := 1 } :=
  if_pos ((booted_startBoot (s := s) (x := x)).life.trans hl)

section Alive

variable (hl : s.fuse.lc ≠ .scrapped)
include hl

/-- Without sound firmware, or where RECOVERY is asked for, start-up stays in step 2. -/
theorem startUp_stuck (hr : recovery = true ∨ fwOk s (flashImage s) = false) : startUp s x rails recovery = stuck (startBoot s x) 2 := by
  refine (if_neg fun h => hl ((booted_startBoot (s := s) (x := x)).life.symm.trans h)).trans (if_pos ?_)
  rw [flashImage_startBoot, fwOk_startBoot]
  rcases hr with h | h
  · rw [h]; rfl
  · rw [h, Bool.not_false, Bool.or_true]

/-- The state after steps 2-5. -/
def linked (s : State) (x : StartUp) : State :=
  startLinks { { s with sec.fwMeas := fwDigest (flashImage s), sec.fwVer := fwVersion (flashImage s) } with
    pwr.rails := 0x1FF, pwr.gateActive := storedGate { s with sec.fwMeas := fwDigest (flashImage s), sec.fwVer := fwVersion (flashImage s) } } x

theorem startUp_sound (hf : fwOk s (flashImage s) = true) (hx : x.railFail = none) : startUp s x rails false =
    if (linked (startBoot s x) x).mod.recovery then linked (startBoot s x) x else startTail (linked (startBoot s x) x) x loadBank := by
  refine (if_neg fun h => hl ((booted_startBoot (s := s) (x := x)).life.symm.trans h)).trans ((if_neg ?_).trans ?_)
  · rw [flashImage_startBoot, fwOk_startBoot, hf]
    decide
  · rw [hx, ite_self]
    rfl

end Alive

theorem linked_of_sound (hc : x.calFail = []) : (linked s x).mod = s.mod ∧ (linked s x).lcs = s.lcs ∧ (linked s x).led = s.led := by
  unfold linked startLinks
  rw [hc]
  exact ⟨rfl, rfl, rfl⟩

/-! ### Steps 6-9 (R594, R596) -/

/-- What the steps after the firmware leave of the life cycle and of the stored Syllabus. -/
def lifeAndStored (s : State) : LifeCycle × Option (List Byte) := (s.lcs.lc, s.led.stored)

theorem lifeAndStored_of (h : u.lcs = s.lcs) (h' : u.led = s.led) : lifeAndStored u = lifeAndStored s := by
  unfold lifeAndStored
  rw [h, h']

theorem lifeAndStored_journal {e : JEntry} : lifeAndStored (journal s e) = lifeAndStored s :=
  Prod.ext (journal_lcs_other LcsBlk.lc fun _ _ => rfl) (journal_led_other Ledger.stored fun _ _ _ _ => rfl)

theorem lifeAndStored_putRep {y : Repair} : lifeAndStored (putRep s k y) = lifeAndStored s := lifeAndStored_journal

theorem lifeAndStored_startRepairs : lifeAndStored (startRepairs s) = lifeAndStored s := by
  unfold startRepairs
  dsimp only
  refine (forEach_proj (π := lifeAndStored) fun u q => ?_).trans ?_
  · split
    · rfl
    · split
      · rfl
      · split
        · rfl
        · unfold holdCluster
          split <;> rfl
  · unfold applyReps
    exact forEach_proj (π := lifeAndStored) fun u e => lifeAndStored_putRep

/-- The lanes of a run's failures are marked. -/
def lanesFailed (s : State) (l : List (Nat × Nat)) : State :=
  forEach l (fun s e => modFab s e.1 (fun q => { q with failed := q.failed ||| 2 ^ e.2 })) s

/-- The ports light. -/
def portsLit (s : State) (ps : List Nat) : State := forEach ps (fun s p => modFab s p (fun q => { q with pstate := .dark })) s

theorem lanesFailed_proj {α : Type} (π : State → α) (hπ : ∀ s p f, π (modFab s p f) = π s) {l : List (Nat × Nat)} :
    π (lanesFailed s l) = π s := forEach_proj (π := π) fun _ _ => hπ ..

theorem portsLit_proj {α : Type} (π : State → α) (hπ : ∀ s p f, π (modFab s p f) = π s) {l : List Nat} : π (portsLit s l) = π s :=
  forEach_proj (π := π) fun _ _ => hπ ..

/-- The state with the quick BIST's results. -/
def bistRun (s : State) (x : StartUp) : State := (testResults 1 { s with tst.run := 1 } x.bist).1

theorem bistRun_nil (hb : x.bist = []) : ∃ t, bistRun s x = { s with tst := t } := by
  unfold bistRun
  rw [hb]
  exact ⟨_, rfl⟩

/-- The state with REGIONS_OK of the start-up run. -/
def regionsShown (s : State) (x : StartUp) : State := { s with tst.regionsOk := startRegionsOk s x.bist }

theorem startBist_eq : ∃ ps, startBist s x =
    { portsLit (lanesFailed (regionsShown (bistRun (startRepairs s) x) x) x.laneFail) ps with mod.present := true } := ⟨_, rfl⟩

/-- Step 6 with no failure found. -/
theorem startBist_spec (hb : x.bist = []) : lifeAndStored (startBist s x) = lifeAndStored s
    ∧ (startBist s x).mod = { s.mod with present := true } := by
  obtain ⟨ps, h⟩ := startBist_eq (s := s) (x := x)
  obtain ⟨t, ht⟩ := bistRun_nil (s := startRepairs s) hb
  have hr : (startRepairs s).mod = s.mod :=
    (startRepairs_kept (Kept.refl [.mc, .phys, .int, .ptn, .ctx, .led, .lcs, .i3c] s) (Within.refl _)).rest .mod (by decide)
  have hm := (portsLit_proj State.mod (fun _ _ _ => rfl) (l := ps) (s := lanesFailed (regionsShown (bistRun (startRepairs s) x) x) x.laneFail)).trans
    (lanesFailed_proj State.mod fun _ _ _ => rfl)
  have hl := (portsLit_proj lifeAndStored (fun _ _ _ => rfl) (l := ps) (s := lanesFailed (regionsShown (bistRun (startRepairs s) x) x) x.laneFail)).trans
    (lanesFailed_proj lifeAndStored fun _ _ _ => rfl)
  rw [ht] at hm hl h
  rw [h]
  refine ⟨hl.trans lifeAndStored_startRepairs, ?_⟩
  dsimp only
  rw [hm]
  exact congrArg (fun m : ModBlk => { m with present := true }) hr

theorem lifeAndStored_settingLoad {y : Setting} {w : Nat} : lifeAndStored (settingLoad s y w) = lifeAndStored s := by
  have k : ∀ v, lifeAndStored (settingPut s y v) = lifeAndStored s := fun v => by
    have hk := settingPut_kept (x := y) (w := v) (Kept.refl [.rc, .prs, .bell, .fab, .sec, .pwr, .vat, .snp] s) (Within.refl _)
    exact lifeAndStored_of (hk.rest .lcs (by decide)) (hk.rest .led (by decide))
  unfold settingLoad
  dsimp only
  split
  · exact k _
  · unfold substituted
    exact lifeAndStored_journal.trans (k _)

theorem lifeAndStored_applyPending : lifeAndStored (applyPending s) = lifeAndStored s := by
  have hk := applyPending_kept (Kept.refl [.bell, .fab] s) (Within.refl _)
  exact lifeAndStored_of (hk.rest .lcs (by decide)) (hk.rest .led (by decide))

theorem lifeAndStored_settingDefaults : lifeAndStored (settingDefaults s) = lifeAndStored s := by
  have hk := settingDefaults_kept (Kept.refl [.rc, .prs, .bell, .fab, .sec, .pwr, .vat, .snp] s) (Within.refl _)
  exact lifeAndStored_of (hk.rest .lcs (by decide)) (hk.rest .led (by decide))

theorem lifeAndStored_keys {ks : List (Nat × List Byte)} {m : Nat} :
    lifeAndStored { s with lcs.keys := ks, snp.mirrorUnits := m } = lifeAndStored s := rfl

theorem lifeAndStored_noUnits {ks : List (Nat × List Byte)} : lifeAndStored { s with lcs.keys := ks } = lifeAndStored s := rfl

/-- Step 8 leaves the life cycle and the stored Syllabus. -/
theorem lifeAndStored_loadBank : lifeAndStored (loadBank s) = lifeAndStored s := by
  unfold loadBank
  dsimp only
  split
  · rw [lifeAndStored_applyPending, lifeAndStored_noUnits, lifeAndStored_settingDefaults]
  · rw [lifeAndStored_applyPending, lifeAndStored_keys]
    rw [forEach_proj (π := lifeAndStored) fun u y => lifeAndStored_settingLoad, lifeAndStored_settingDefaults]

theorem loadBank_mod : (loadBank s).mod = s.mod :=
  (loadBank_kept (Kept.refl [.mc, .int, .rc, .ptn, .ctx, .prs, .bell, .fab, .led, .lcs, .sec, .pwr, .vat, .snp, .i3c] s) (Within.refl _)).rest .mod
    (by decide)

/-- The generations that their areas hold. -/
def gensFitted (s : State) : State := fitGens s.snp.gens.length (fitGens s.snp.gens.length s true) false

theorem gensFitted_parts : (gensFitted s).mod = s.mod ∧ (gensFitted s).lcs = s.lcs ∧ (gensFitted s).led = s.led := by
  have w := Within.refl [Part.snp]
  have hk : Kept [.snp] s (gensFitted s) := fitGens_kept w (fitGens_kept w (Kept.refl [.snp] s))
  exact ⟨hk.rest .mod (by decide), hk.rest .lcs (by decide), hk.rest .led (by decide)⟩

theorem startTail_sound (hb : x.bist = []) : startTail s x loadBank =
    startReady (startSyllabus (gensFitted (loadBank (startBist s x)))) x := by
  unfold startTail
  rw [hb]
  exact if_neg (by decide)

theorem startSyllabus_none (h : s.led.stored = none) : startSyllabus s = s := by
  unfold startSyllabus
  rw [h]

/-- The state marked READY. -/
def readied (s : State) (x : StartUp) : State := { s with mod := { s.mod with ready := true, step := 9, startupMs := x.ms } }

theorem ibi_parts : (ibi s n).mod = s.mod ∧ (ibi s n).lcs = s.lcs := by
  have hk := ibi_kept (b := n) (Kept.refl [.i3c] s) (Within.refl _)
  exact ⟨hk.rest .mod (by decide), hk.rest .lcs (by decide)⟩

theorem openHouseStart_parts : (openHouseStart s).mod = s.mod ∧ (openHouseStart s).lcs = s.lcs := by
  have hk := openHouseStart_kept (Kept.refl [.mc, .core, .int, .rc, .ptn, .ctx, .syl, .keys, .vat, .i3c] s) (Within.refl _)
  exact ⟨hk.rest .mod (by decide), hk.rest .lcs (by decide)⟩

theorem startReady_parts : (startReady s x).mod = { s.mod with ready := true, step := 9, startupMs := x.ms } ∧ (startReady s x).lcs = s.lcs := by
  unfold startReady
  dsimp only
  rw [ibi_parts.1, ibi_parts.2]
  split
  · rw [openHouseStart_parts.1, openHouseStart_parts.2]
    exact ⟨rfl, rfl⟩
  · exact ⟨rfl, rfl⟩

/-- R594-R596: with sound firmware, links and units, and no stored Syllabus, start-up ends in READY at step 9. -/
theorem startUp_ready (hl : s.fuse.lc ≠ .scrapped) (hf : fwOk s (flashImage s) = true) (hx : x.railFail = none) (hc : x.calFail = [])
    (hb : x.bist = []) (hst : s.led.stored = none) (hr : s.mod.recovery = false) :
    let u := startUp s x rails false
    u.mod.ready = true ∧ u.mod.step = 9 ∧ u.mod.cause = s.mod.cause ∧ u.mod.startupMs = x.ms ∧ u.lcs.lc = s.fuse.lc := by
  have hboot := booted_startBoot (s := s) (x := x)
  obtain ⟨hm, hlcs, hled⟩ := linked_of_sound (s := startBoot s x) hc
  have hrec : (linked (startBoot s x) x).mod.recovery = false := by
    rw [hm, hboot.mod]
    exact hr
  have hls : lifeAndStored (linked (startBoot s x) x) = (s.fuse.lc, none) := by
    rw [lifeAndStored_of hlcs hled]
    exact Prod.ext hboot.life (hboot.stored.trans hst)
  have hmod : (linked (startBoot s x) x).mod = { s.mod with slot := bits x.slot 0 6 } := hm.trans hboot.mod
  dsimp only
  rw [startUp_sound hl hf hx, hrec, if_neg Bool.false_ne_true, startTail_sound hb]
  generalize linked (startBoot s x) x = t at hls hmod
  obtain ⟨hls', hmod'⟩ := startBist_spec (s := t) hb
  obtain ⟨hg1, hg2, hg3⟩ := gensFitted_parts (s := loadBank (startBist t x))
  have hall : lifeAndStored (gensFitted (loadBank (startBist t x))) = (s.fuse.lc, none) :=
    (lifeAndStored_of hg2 hg3).trans (lifeAndStored_loadBank.trans (hls'.trans hls))
  rw [startSyllabus_none (congrArg Prod.snd hall), startReady_parts.1, startReady_parts.2, hg1, loadBank_mod, hmod', hmod]
  exact ⟨rfl, rfl, rfl, rfl, congrArg Prod.fst hall⟩

end Sys2Proof.Machine
end


section
/-! SUPPORT and proof of the input, power good, rails, temperatures and MOD_RESET_N. -/

namespace Sys2Proof.Machine

variable {s t u : State} {x : StartUp} {n k us i : Nat} {v : Int} {b tripped : Bool} {ts : List Nat}

/-! ### A shutdown to VAO (R591, R592, R600) -/

theorem ibi_eq : ibi s n = { s with i3c := (ibi s n).i3c } := by
  unfold ibi
  split <;> rfl

/-- The cores with nothing but their epochs. -/
def bareCores (t : Tbl Core) : Tbl Core :=
  t.filterMap (fun e => let x : Core := { epoch := e.2.epoch }; if x = default then none else some (e.1, x))

theorem bareCores_eq {t : Tbl Core} : (t.map (fun e => (e.1, ({ epoch := e.2.epoch } : Core)))).filter (fun e => e.2 != default) = bareCores t := by
  unfold bareCores
  induction t with
  | nil => rfl
  | cons e t ih =>
    rw [List.map_cons, List.filterMap_cons]
    dsimp only
    by_cases h : ({ epoch := e.2.epoch } : Core) = default
    · rw [if_pos h, List.filter_cons_of_neg (by rw [h]; simp)]
      exact ih
    · rw [if_neg h, List.filter_cons_of_pos (by simpa using h)]
      exact congrArg _ ih

/-- What the parts held in reset lose, and what outlives it. -/
theorem holdParts_spec : (holdParts s).mem = [] ∧ (holdParts s).core = bareCores s.core ∧ (holdParts s).fuse = s.fuse
    ∧ (holdParts s).flash = s.flash ∧ (holdParts s).led = s.led ∧ (holdParts s).int = s.int ∧ (holdParts s).pwr = { s.pwr with hold := false }
    ∧ (holdParts s).mod = { s.mod with ready := false, present := false, step := 1, recovery := false, running := [], deferred := [], last := [] } :=
  ⟨rfl, bareCores_eq, rfl, rfl, rfl, rfl, rfl, rfl⟩

/-- The module is down to VAO, seen from the state before. -/
structure Down (s u : State) (tripped : Bool) : Prop where
  shutdown : u.mod.shutdown = true
  ready : u.mod.ready = false
  rails : u.pwr.rails = 1
  mem : u.mem = []
  core : u.core = bareCores s.core
  fuse : u.fuse = s.fuse
  flash : u.flash = s.flash
  led : u.led = s.led
  tripped : u.pwr.tripped = tripped
  excursion : u.pwr.excursion = s.pwr.excursion
  int : u.int = s.int

theorem down_shutdown : Down s (shutdown s tripped) tripped := by
  obtain ⟨hmem, hcore, hfuse, hflash, hled, hint, hpwr, hmod⟩ := holdParts_spec (s := s)
  unfold shutdown
  rw [ibi_eq]
  generalize holdParts s = t at hmem hcore hfuse hflash hled hint hpwr hmod
  refine ⟨rfl, ?_, rfl, hmem, hcore, hfuse, hflash, hled, rfl, ?_, hint⟩
  · dsimp only; rw [hmod]
  · dsimp only; rw [hpwr]

/-- Two states that a shutdown treats alike. -/
structure SameKept (s u : State) : Prop where
  core : u.core = s.core
  fuse : u.fuse = s.fuse
  flash : u.flash = s.flash
  led : u.led = s.led

theorem Down.of_sameKept (h : Down t u tripped) (hs : SameKept s t) : u.mod.shutdown = true ∧ u.mod.ready = false ∧ u.pwr.rails = 1 ∧ u.mem = []
    ∧ u.core = bareCores s.core ∧ u.fuse = s.fuse ∧ u.flash = s.flash ∧ u.led = s.led :=
  ⟨h.shutdown, h.ready, h.rails, h.mem, h.core.trans (congrArg bareCores hs.core), h.fuse.trans hs.fuse, h.flash.trans hs.flash, h.led.trans hs.led⟩

theorem sameKept_raise {c : FaultCode} {a : FaultAt} (h : SameKept s t) : SameKept s (raise t c a) := by
  rw [raise_parts]
  exact ⟨h.core, h.fuse, h.flash, h.led⟩

/-! ### The input (R588, R589, R592) -/

theorem not_overVoltage (h1 : -6000 ≤ v) (h2 : v ≤ 6000) : overVoltage v = false := by
  unfold overVoltage
  simp only [Bool.or_eq_false_iff, decide_eq_false_iff_not, not_lt]
  exact ⟨h2, h1⟩

theorem exec_applied (h1 : 2000 ≤ v) (h2 : v ≤ 6000) (hp : s.mod.powered = false) : exec (.powerInputApplied v b) s =
    .next { s with pwr := { s.pwr with vin := v.toNat, vao := true, charged := !b } } :=
  (if_neg (by rw [not_overVoltage (by omega) h2]; decide)).trans (if_neg (not_or.2 ⟨not_lt.2 h1, by rw [hp]; decide⟩))

theorem exec_applied_low (h1 : -6000 ≤ v) (h2 : v < 2000) : exec (.powerInputApplied v b) s = .next s :=
  (if_neg (by rw [not_overVoltage h1 (by omega)]; decide)).trans (if_pos (.inl h2))

section Sample

variable (hp : s.mod.powered = true)
include hp

theorem exec_inputSample (h1 : -6000 ≤ v) (h2 : v ≤ 6000) (hi : i ≤ 7500) : exec (.inputSample v i) s = .next (inputSample s v.toNat i) := by
  refine (if_neg ?_).trans (if_neg (by rw [hp]; decide))
  rw [not_overVoltage h1 h2, decide_eq_false (not_lt.2 hi)]
  exact Bool.false_ne_true

end Sample

theorem inputSample_lost (h : n < 2000) : inputSample s n i = powerLost (sampled s n i) := if_pos h

/-- The input as a sample in the operating range leaves it. -/
theorem sampled_inRange (h1 : 3800 ≤ n) (h2 : n ≤ 5200) (hi : i ≤ 7000) : sampled s n i = { s with pwr := { s.pwr with
    vin := n, iin := i, okUs := s.pwr.okUs + 10, lowUs := 0, overUs := 0, inputLow := false, inputHigh := false } } := by
  have e1 : (decide (3800 ≤ n) && decide (n ≤ 5200)) = true := by simp [h1, h2]
  have e2 : (decide (n < 3500) || decide (5400 < n)) = false := by simp; omega
  have e3 : decide (7000 < i) = false := decide_eq_false (not_lt.2 hi)
  have e4 : (decide (3500 ≤ n) && decide (n < 3800)) = false := by simp; omega
  have e5 : (decide (5200 < n) && decide (n ≤ 5400)) = false := by simp; omega
  unfold sampled
  rw [e1, e2, e3, e4, e5]
  rfl

/-- A sample in the operating range ends an excursion and does nothing else. -/
theorem inputSample_inRange (h1 : 3800 ≤ n) (h2 : n ≤ 5200) (hi : i ≤ 7000) : inputSample s n i = { s with pwr := { s.pwr with
    vin := n, iin := i, okUs := s.pwr.okUs + 10, lowUs := 0, overUs := 0, inputLow := false, inputHigh := false, excursion := false } } := by
  unfold inputSample
  rw [sampled_inRange h1 h2 hi, if_neg (by omega)]
  dsimp only
  rfl

/-- R592: an input that has stood outside its range long enough shuts the module down, with INPUT_RANGE once per excursion. -/
theorem inputSample_off (h1 : 2000 ≤ n) (h2 : n < 3500) (hl : 40 ≤ s.pwr.lowUs) (hs : s.mod.shutdown = false) :
    inputSample s n i = shutdown (inputRange (sampled s n i)) false := by
  have hlow : (sampled s n i).pwr.lowUs = s.pwr.lowUs + 10 := by
    have e : (decide (n < 3500) || decide (5400 < n)) = true := by simp [h2]
    unfold sampled
    rw [e]
    rfl
  have hoff : (decide (50 ≤ (sampled s n i).pwr.lowUs) || decide (100 ≤ (sampled s n i).pwr.overUs)) = true := by
    rw [hlow, decide_eq_true (by omega), Bool.true_or]
  have hsd : (inputRange (sampled s n i)).mod.shutdown = false := by
    unfold inputRange
    split
    · exact hs
    · rw [raise_parts]; exact hs
  unfold inputSample
  dsimp only
  rw [if_neg (not_lt.2 h1), hoff, Bool.or_true, if_pos (rfl : true = true)]
  exact if_pos (by rw [hsd]; rfl)

theorem inputRange_spec : SameKept s (inputRange (sampled s n i)) ∧ (inputRange (sampled s n i)).pwr.excursion = true := by
  unfold inputRange
  split
  · next h => exact ⟨⟨rfl, rfl, rfl, rfl⟩, h⟩
  · refine ⟨sameKept_raise ⟨rfl, rfl, rfl, rfl⟩, ?_⟩
    rw [raise_parts]

theorem exec_railFault (hp : s.mod.powered = true) (hs : s.mod.shutdown = false) (hr : 1 < s.pwr.rails) (h1 : 1 ≤ k) (h7 : k ≤ 7) :
    exec (.railFault k) s = .next (shutdown (raise s .inputRange { kind := .powerStage, unit := k }) false) := by
  refine congrArg Host.Outcome.next (if_neg ?_)
  rw [hp, hs]
  simp
  omega

/-! ### Power good (R593, R594) -/

/-- The state with power good. -/
def poweredOn (s : State) : State := { s with mod.powered := true, tap := {} }

section Good

variable (hv : s.pwr.vao = true) (hc : s.pwr.charged = true) (hp : s.mod.powered = false)
include hv hc hp

theorem exec_powerGood : exec (.powerGood x) s = .next (if s.mod.resetLow then { poweredOn s with mod.waitHigh := true }
    else startUp { poweredOn s with mod.cause := 0 } x true false) :=
  congrArg Host.Outcome.next (if_neg (by rw [hv, hc, hp]; decide))

theorem powersGood :
    (s.mod.resetLow = true → Completes (.powerGood x) s (fun u => u.mod.powered = true ∧ u.mod.waitHigh = true
      ∧ u.mod.ready = s.mod.ready ∧ u.mem = s.mem))
    ∧ (s.mod.resetLow = false → s.fuse.lc = .scrapped → Completes (.powerGood x) s (fun u => u.mod.step = 1
      ∧ u.mod.ready = s.mod.ready ∧ u.mod.cause = 0))
    ∧ (s.mod.resetLow = false → s.fuse.lc ≠ .scrapped → fwOk s (flashImage s) = false → Completes (.powerGood x) s (fun u =>
      u.mod.recovery = true ∧ u.mod.step = 2 ∧ u.mod.ready = s.mod.ready ∧ u.mod.cause = 0))
    ∧ (s.mod.resetLow = false → s.fuse.lc ≠ .scrapped → s.mod.recovery = false → fwOk s (flashImage s) = true →
      x.railFail = none → x.calFail = [] → x.bist = [] → s.led.stored = none → Completes (.powerGood x) s (fun u =>
        u.mod.ready = true ∧ u.mod.step = 9 ∧ u.mod.cause = 0 ∧ u.mod.startupMs = x.ms ∧ u.lcs.lc = s.fuse.lc)) := by
  have hx := exec_powerGood (x := x) hv hc hp
  have hb := booted_startBoot (s := { poweredOn s with mod.cause := 0 }) (x := x)
  refine ⟨fun hr => ?_, fun hr hl => ?_, fun hr hl hf => ?_, fun hr hl hrec hf hxr hxc hxb hst => ?_⟩
  · rw [hr, if_pos rfl] at hx
    exact .of_next hx ⟨rfl, rfl, rfl, rfl⟩
  · rw [hr, if_neg Bool.false_ne_true, startUp_scrapped (s := { poweredOn s with mod.cause := 0 }) hl] at hx
    refine .of_next hx ?_
    dsimp only
    rw [hb.mod]
    exact ⟨rfl, rfl, rfl⟩
  · rw [hr, if_neg Bool.false_ne_true, startUp_stuck (s := { poweredOn s with mod.cause := 0 }) hl (.inr hf)] at hx
    refine .of_next hx ?_
    unfold stuck
    dsimp only
    rw [hb.mod]
    exact ⟨rfl, rfl, rfl, rfl⟩
  · rw [hr, if_neg Bool.false_ne_true] at hx
    exact .of_next hx (startUp_ready (s := { poweredOn s with mod.cause := 0 }) hl hf hxr hxc hxb hst hrec)

end Good

/-! ### Temperatures (R601, R602) -/

/-- The sensors' readings and the input as PWR_IN shows it. -/
def sensed (s : State) (ts : List Nat) : State :=
  { s with pwr := { s.pwr with temps := ts.map (wrap 16), vinReg := s.pwr.vin, iinReg := s.pwr.iin } }

/-- A reading stands at its Trip threshold. -/
def atTrip (ts : List Nat) : Bool :=
  (readings (ts.map (wrap 16))).any (fun e => match tripAt e.1 with | some t => decide (t ≤ e.2) | none => false)

/-- A reading stands at its Warn threshold. -/
def atWarn (ts : List Nat) : Bool := (readings (ts.map (wrap 16))).any (fun e => decide (warnAt e.1 ≤ e.2))

/-- The warn state after a sample. -/
def warned (s : State) (ts : List Nat) : State :=
  if s.pwr.thermWarn then warnRun (sensed s ts) (ts.map (wrap 16)) else if atWarn ts then warnStart (sensed s ts) else sensed s ts

theorem thermalSample_eq : thermalSample s ts = if atTrip ts && !(warned s ts).mod.shutdown then
    shutdown (raise (warned s ts) .thermalTrip { kind := .module }) true else warned s ts := by
  unfold thermalSample atTrip
  rfl

theorem sameKept_warned : SameKept s (warned s ts) ∧ (warned s ts).mod = s.mod ∧ (warned s ts).mem = s.mem := by
  unfold warned
  split
  · unfold warnRun
    split
    · exact ⟨⟨rfl, rfl, rfl, rfl⟩, rfl, rfl⟩
    · split <;> exact ⟨⟨rfl, rfl, rfl, rfl⟩, rfl, rfl⟩
  · split
    · unfold warnStart
      rw [ibi_eq, raise_parts]
      exact ⟨⟨rfl, rfl, rfl, rfl⟩, rfl, rfl⟩
    · exact ⟨⟨rfl, rfl, rfl, rfl⟩, rfl, rfl⟩

theorem warnStart_spec : (warnStart s).pwr.thermWarn = true ∧ (warnStart s).pwr.temps = s.pwr.temps
    ∧ (warnStart s).int.lastCode = FaultCode.thermalWarn.code := by
  unfold warnStart
  rw [ibi_eq]
  refine ⟨?_, ?_, raise_lastCode⟩ <;> dsimp only <;> rw [raise_parts]

theorem exec_thermalSample (hp : s.mod.powered = true) : exec (.thermalSample ts) s = .next (thermalSample s ts) :=
  congrArg Host.Outcome.next (if_pos hp)

theorem thermals (hp : s.mod.powered = true) (hs : s.mod.shutdown = false) :
    (atTrip ts = false → atWarn ts = false → s.pwr.thermWarn = false → Completes (.thermalSample ts) s (fun u => u = sensed s ts))
    ∧ (atTrip ts = false → atWarn ts = true → s.pwr.thermWarn = false → Completes (.thermalSample ts) s (fun u => u.pwr.thermWarn = true
      ∧ u.pwr.temps = ts.map (wrap 16) ∧ u.int.lastCode = FaultCode.thermalWarn.code ∧ u.mod = s.mod ∧ u.mem = s.mem))
    ∧ (atTrip ts = true → Completes (.thermalSample ts) s (fun u =>
      (u.mod.shutdown = true ∧ u.mod.ready = false ∧ u.pwr.rails = 1 ∧ u.mem = [] ∧ u.core = bareCores s.core ∧ u.fuse = s.fuse
        ∧ u.flash = s.flash ∧ u.led = s.led)
      ∧ u.pwr.tripped = true ∧ u.int.lastCode = FaultCode.thermalTrip.code)) := by
  have hx := (exec_thermalSample (ts := ts) hp).trans (congrArg Host.Outcome.next thermalSample_eq)
  obtain ⟨hkept, hmod, hmem⟩ := sameKept_warned (s := s) (ts := ts)
  refine ⟨fun ht hw hn => ?_, fun ht hw hn => ?_, fun ht => ?_⟩
  · rw [ht, Bool.false_and, if_neg Bool.false_ne_true] at hx
    refine .of_next hx ?_
    unfold warned
    rw [hn, hw]
    rfl
  · rw [ht, Bool.false_and, if_neg Bool.false_ne_true] at hx
    have hwarn : warned s ts = warnStart (sensed s ts) := by
      unfold warned
      rw [hn, hw]
      rfl
    obtain ⟨h1, h2, h3⟩ := warnStart_spec (s := sensed s ts)
    rw [hwarn] at hx hmod hmem
    exact .of_next hx ⟨h1, h2, h3, hmod, hmem⟩
  · rw [ht, hmod, hs, Bool.not_false, Bool.and_true, if_pos (rfl : true = true)] at hx
    have hd := down_shutdown (s := raise (warned s ts) .thermalTrip { kind := .module }) (tripped := true)
    exact .of_next hx ⟨hd.of_sameKept (sameKept_raise hkept), hd.tripped, (congrArg IntBlk.lastCode hd.int).trans raise_lastCode⟩

/-! ### MOD_RESET_N (R600) -/

/-- The parts held in reset by the pin. -/
def heldLow (s : State) : State := { holdParts s with mod := { (holdParts s).mod with resetLow := true, due := none } }

theorem exec_assert (h : 10 ≤ us) (hv : s.pwr.vao = true) (hp : s.mod.powered = true) :
    exec (.modResetNAssert us b) s = .next (heldLow s) := by
  refine congrArg Host.Outcome.next ((if_neg ?_).trans (if_pos hp))
  rw [decide_eq_true h, hv]
  exact Bool.false_ne_true

theorem exec_assert_short (h : us < 1) : exec (.modResetNAssert us true) s = .next s := by
  refine congrArg Host.Outcome.next (if_pos ?_)
  rw [decide_eq_false (by omega : ¬10 ≤ us), decide_eq_false (by omega : ¬1 ≤ us)]
  rfl

theorem exec_release (hl : s.mod.resetLow = true) (hp : s.mod.powered = true) (hw : s.mod.waitHigh = false) (hs : s.mod.shutdown = false) :
    exec (.modResetNRelease x) s = .next (moduleReset { s with mod.resetLow := false } x { cause := 1 }) := by
  have hcause : restartCause { s with mod.resetLow := false } 1 = 1 := if_neg (by rw [show ({ s with mod.resetLow := false } : State).mod.shutdown = false from hs]; decide)
  refine congrArg Host.Outcome.next ((if_neg (by rw [hl]; decide)).trans ?_)
  refine (if_neg ?_).trans ((if_neg ?_).trans ((if_neg ?_).trans (congrArg (fun k => moduleReset _ x { cause := k }) hcause)))
  · exact (by rw [hp]; decide : ¬(!s.mod.powered) = true)
  · exact (by rw [hw]; decide : ¬s.mod.waitHigh = true)
  · exact (by rw [hs]; exact Bool.false_ne_true : ¬(s.mod.shutdown && !mayRestart _) = true)

/-- Settles O59: start-up by its steps, each shutdown by what it leaves. -/
theorem powerAndInput : Obligations.PowerAndInput := by
  unfold Obligations.PowerAndInput
  intro s down
  refine ⟨fun v b h1 h2 hp => .of_next (exec_applied h1 h2 hp) rfl, fun v b h1 h2 => .of_next (exec_applied_low h1 h2) rfl,
    fun x hv hc hp => powersGood hv hc hp, fun v i hp h1 h2 hi => ?_, fun v i hp h1 h2 hi => ?_, fun v i hp hs h1 h2 hi hl => ?_,
    fun k hp hs hr h1 h7 => ?_, fun ts hp hs => thermals hp hs, fun us b h hv hp => ?_, fun us h => .of_next (exec_assert_short h) rfl,
    fun x hl hp hw hs => .of_next (exec_release hl hp hw hs) rfl⟩
  · have hx := exec_inputSample hp h2 (by omega) hi
    rw [inputSample_lost (by omega)] at hx
    exact .of_next hx ⟨rfl, rfl, rfl, rfl, rfl, rfl⟩
  · have hx := exec_inputSample (v := v) hp (by omega) (by omega) (by omega : i ≤ 7500)
    rw [inputSample_inRange (by omega) (by omega) hi] at hx
    exact .of_next hx ⟨rfl, rfl, rfl, rfl, rfl, rfl, rfl, rfl, rfl, rfl⟩
  · have hx := exec_inputSample (v := v) hp (by omega) (by omega) hi
    rw [inputSample_off (by omega) (by omega) hl hs] at hx
    obtain ⟨hk, he⟩ := inputRange_spec (s := s) (n := v.toNat) (i := i)
    have hd := down_shutdown (s := inputRange (sampled s v.toNat i)) (tripped := false)
    exact .of_next hx ⟨hd.of_sameKept hk, hd.tripped, hd.excursion.trans he⟩
  · have hd := down_shutdown (s := raise s .inputRange { kind := .powerStage, unit := k }) (tripped := false)
    exact .of_next (exec_railFault hp hs hr h1 h7) ⟨hd.of_sameKept (sameKept_raise ⟨rfl, rfl, rfl, rfl⟩), hd.tripped,
      (congrArg IntBlk.lastCode hd.int).trans raise_lastCode⟩
  · obtain ⟨hmem, -, hfuse, -, hled, hint, -, hmod⟩ := holdParts_spec (s := s)
    refine .of_next (exec_assert h hv hp) ⟨rfl, ?_, ?_, hmem, hfuse, hled, hint⟩ <;> unfold heldLow <;> dsimp only <;> rw [hmod]

end Sys2Proof.Machine
end


section
/-! SUPPORT. What leaves the epochs of the cores, the Presses and the Roll-call banks as they are (R537). -/

namespace Sys2Proof.Machine

variable {s u v : State} {n t i p c r b : Nat}

/-- Every epoch is as before. -/
structure EpochsKept (s u : State) : Prop where
  core : ∀ n, (getCore u n).epoch = (getCore s n).epoch
  prs : ∀ r, (getPrs u r).epoch = (getPrs s r).epoch
  rc : (u.rc.epoch0, u.rc.epoch1) = (s.rc.epoch0, s.rc.epoch1)

theorem EpochsKept.refl (s : State) : EpochsKept s s := ⟨fun _ => rfl, fun _ => rfl, rfl⟩

theorem EpochsKept.trans (h : EpochsKept s u) (h' : EpochsKept u v) : EpochsKept s v :=
  ⟨fun n => (h'.core n).trans (h.core n), fun r => (h'.prs r).trans (h.prs r), h'.rc.trans h.rc⟩

theorem EpochsKept.of_parts (hc : u.core = s.core) (hp : u.prs = s.prs)
    (hr : (u.rc.epoch0, u.rc.epoch1) = (s.rc.epoch0, s.rc.epoch1)) : EpochsKept s u :=
  ⟨fun n => by rw [getCore_of_core hc], fun r => by rw [getPrs_of_prs hp], hr⟩

theorem EpochsKept.of_modCore {f : Core → Core} (hf : ∀ c, (f c).epoch = c.epoch) : EpochsKept s (modCore s n f) where
  core m := by
    rw [getCore_modCore_ite]
    split
    · next h => rw [hf, h]
    · rfl
  prs _ := rfl
  rc := rfl

theorem EpochsKept.of_modPrs {f : Prs → Prs} (hf : ∀ x, (f x).epoch = x.epoch) : EpochsKept s (modPrs s r f) where
  core _ := rfl
  prs m := by
    rw [getPrs_modPrs_ite]
    split
    · next h => rw [hf, h]
    · rfl
  rc := rfl

theorem epochsKept_forEach {α : Type} {f : State → α → State} (h : ∀ u x, EpochsKept u (f u x)) {xs : List α} :
    EpochsKept s (forEach xs f s) := by
  induction xs generalizing s with
  | nil => exact .refl s
  | cons x xs ih => exact (h s x).trans ih

/-! ### Answers, grants and increments (R297, R298, R300) -/

theorem epochsKept_modThr {f : Thr → Thr} : EpochsKept s (modThr s n t f) := .of_modCore fun _ => rfl

theorem epochsKept_raise {c : FaultCode} {a : FaultAt} : EpochsKept s (raise s c a) :=
  .of_parts (raise_core ..) (raise_prs ..) (by rw [raise_rc])

theorem epochsKept_syncSend {ty : Nat} {f : List Byte} : EpochsKept s (syncSend s p ty f) := .of_parts rfl rfl rfl

theorem epochsKept_syncRoute {ty dst body : Nat} : EpochsKept s (syncRoute s ty dst body) := by
  unfold syncRoute
  split
  · exact epochsKept_syncSend
  · exact epochsKept_raise

theorem epochsKept_answer {t : Token} {st fl va : Nat} : EpochsKept s (answer s t st fl va) := by
  unfold answer
  split
  · exact epochsKept_modThr
  · exact .refl s
  · exact epochsKept_syncRoute

theorem epochsKept_modCtx {f : Ctx → Ctx} : EpochsKept s (modCtx s c f) := .of_parts rfl rfl rfl

theorem epochsKept_unreserve {t : Token} : EpochsKept s (unreserve s t) := by
  unfold unreserve
  split
  · exact epochsKept_modCtx
  · exact .refl s

/-- A wait leaves the table. -/
theorem epochsKept_waits {ws : List WaitEnt} : EpochsKept s { s with rc.waits := ws } := .of_parts rfl rfl rfl

theorem epochsKept_endWait {w : WaitEnt} {st : Nat} : EpochsKept s (endWait s w st) := by
  have h := (epochsKept_waits (s := s) (ws := eraseFirst (· == w) s.rc.waits)).trans (epochsKept_unreserve (t := w.tok))
  unfold endWait
  dsimp only
  split
  · exact h.trans epochsKept_answer
  · exact h.trans epochsKept_answer

theorem epochsKept_grantTaken {w : WaitEnt} : EpochsKept s (grantTaken s w) := by
  unfold grantTaken
  split
  · dsimp only
    split
    · exact .of_parts rfl rfl rfl
    · exact .of_parts rfl rfl rfl
  · exact .refl s

theorem epochsKept_grantTold {w : WaitEnt} : EpochsKept s (grantTold s w) := by
  unfold grantTold
  split
  · exact .of_parts rfl rfl rfl
  · dsimp only
    split
    · exact epochsKept_waits.trans epochsKept_answer
    · exact epochsKept_waits.trans epochsKept_answer

theorem epochsKept_grant {w : WaitEnt} : EpochsKept s (grant s w) := by
  rw [grant_eq]
  split
  · exact epochsKept_endWait
  · exact epochsKept_grantTaken.trans epochsKept_grantTold

theorem epochsKept_grantGo {k : Nat} : EpochsKept s (grantGo k s i) := by
  induction k generalizing s with
  | zero => exact .refl s
  | succ k ih =>
    unfold grantGo
    split
    · exact epochsKept_grant.trans ih
    · exact .refl s

theorem epochsKept_grantSem : EpochsKept s (grantSem s i) := epochsKept_grantGo

/-- An add may complete a slot, which partitions keep (R273). -/
theorem epochsKept_addSem {k : Nat} : EpochsKept s (addSem s i k) := by
  have h {w : State} : EpochsKept w (slotDone w i) :=
    have kept := slotDone_kept (i := i) (Kept.refl [.ptn] w) (Within.refl _)
    .of_parts (kept.rest .core (by decide)) (kept.rest .prs (by decide)) (by rw [kept.rest .rc (by decide)])
  exact EpochsKept.trans (u := modSem s i _) (.of_parts rfl rfl rfl) h

theorem epochsKept_threadAdd : EpochsKept s (threadAdd s p i) := by
  unfold threadAdd
  dsimp only
  split
  · exact .refl s
  split
  · exact epochsKept_addSem.trans epochsKept_grantSem
  · exact epochsKept_raise

theorem epochsKept_eventSem : EpochsKept s (eventSem s p) := by
  unfold eventSem
  dsimp only
  split
  · exact .refl s
  · exact epochsKept_threadAdd

theorem epochsKept_doneAdd {flag : DoneFlag} : EpochsKept s (doneAdd s p i flag) := by
  unfold doneAdd
  split
  · exact .refl s
  unfold engineAdd
  dsimp only
  split
  · exact EpochsKept.trans (u := modSem s i _) (.of_parts rfl rfl rfl) (epochsKept_addSem.trans epochsKept_grantSem)
  · exact epochsKept_raise

theorem epochsKept_abortEntries {es : List (Nat × Nat)} : EpochsKept s (abortEntries s es) :=
  epochsKept_forEach fun _ _ => epochsKept_doneAdd

/-! ### Partitions, contexts and threads (R399, R408, R412, R422) -/

theorem epochsKept_modPtn {f : Ptn → Ptn} : EpochsKept s (modPtn s p f) := .of_parts rfl rfl rfl

theorem epochsKept_setPtnState {x : PtnState} : EpochsKept s (setPtnState s p x) := by
  unfold setPtnState
  split
  · exact .refl s
  · exact epochsKept_modPtn.trans epochsKept_eventSem

theorem epochsKept_setHold : EpochsKept s (setHold s p b) := by
  unfold setHold
  dsimp only
  split
  · exact epochsKept_modPtn.trans epochsKept_setPtnState
  · exact .refl s

theorem epochsKept_setCtxState {x : CtxState} : EpochsKept s (setCtxState s c x) := by
  unfold setCtxState
  split
  · exact .refl s
  dsimp only
  split
  · exact epochsKept_modCtx.trans epochsKept_eventSem
  · exact epochsKept_modCtx

theorem epochsKept_dropPcds : EpochsKept s (dropPcds s c) := by
  refine epochsKept_forEach fun w r => ?_
  dsimp only
  refine (EpochsKept.of_modPrs ?_).trans (epochsKept_forEach fun _ _ => epochsKept_doneAdd)
  exact fun _ => rfl

theorem epochsKept_quiesce : EpochsKept s (quiesce s p c) :=
  (epochsKept_forEach fun _ _ => epochsKept_modThr).trans epochsKept_dropPcds

theorem epochsKept_restartCtx : EpochsKept s (restartCtx s p c) := by
  unfold restartCtx
  split
  · exact epochsKept_modCtx.trans (epochsKept_setCtxState.trans epochsKept_quiesce)
  · exact epochsKept_modCtx.trans (epochsKept_setCtxState.trans epochsKept_quiesce)
  · exact .refl s

theorem epochsKept_abortLesson : EpochsKept s (abortLesson s p) := epochsKept_modPtn

theorem epochsKept_dropWait {w : WaitEnt} : EpochsKept s (dropWait s w) := epochsKept_waits.trans epochsKept_unreserve

theorem epochsKept_unblock {w : WaitEnt} : EpochsKept s (unblock s w) := by
  unfold unblock
  split
  · exact epochsKept_grantSem
  · exact .refl s

theorem epochsKept_dropWaits {ws : List WaitEnt} : EpochsKept s (dropWaits s ws) :=
  (epochsKept_forEach fun _ _ => epochsKept_dropWait).trans (epochsKept_forEach fun _ _ => epochsKept_unblock)

theorem epochsKept_idleThread : EpochsKept s (idleThread s n t) := by
  have h {w : State} {o : List OutReq} : EpochsKept w { dropResv w n t with rc.out := o } := .of_parts rfl rfl rfl
  unfold idleThread
  dsimp only
  exact epochsKept_dropWaits.trans (h.trans epochsKept_modThr)

/-! ### A decision that ends without a majority (R535, R536) -/

theorem epochsKept_freeRerun {d : Decision} : EpochsKept s (freeRerun s d) := by
  unfold freeRerun
  split
  · exact .of_modCore fun _ => rfl
  · exact .refl s

/-- The command of a decision ends with REJ. -/
theorem epochsKept_endCmd {d : Decision} {f : FaultCode} : EpochsKept s (endCmd n d (s, .fault f)) := by
  unfold endCmd
  split
  · unfold endWcd
    dsimp only
    refine (EpochsKept.of_modCore ?_).trans epochsKept_doneAdd
    exact fun _ => rfl
  · unfold endAcd
    dsimp only
    refine (EpochsKept.of_modCore ?_).trans ((EpochsKept.of_modCore ?_).trans epochsKept_doneAdd)
    · exact fun _ => rfl
    · exact fun _ => rfl

theorem epochsKept_noMajority : EpochsKept s (noMajority s n false) := by
  unfold noMajority
  split
  · exact .refl s
  dsimp only
  refine (epochsKept_freeRerun.trans (.of_modCore ?_)).trans (epochsKept_raise.trans (epochsKept_abortLesson.trans
    (epochsKept_endCmd.trans (epochsKept_forEach fun w c => ?_))))
  · exact fun _ => rfl
  · split
    · exact epochsKept_restartCtx
    · exact .refl w

/-- The Lessons of the partitions in a range end, and their contexts restart (R34). -/
theorem epochsKept_abortPartitions {k m : Nat} : EpochsKept s (abortPartitions s k m) := by
  refine epochsKept_forEach fun w q => ?_
  split
  · refine epochsKept_abortLesson.trans (epochsKept_forEach fun y x => ?_)
    split
    · exact epochsKept_restartCtx
    · exact .refl y
  · exact .refl w

end Sys2Proof.Machine
end


section
/-! SUPPORT. What the resets of cores, Presses and banks do to epochs and queues (R26, R312, R597). -/

namespace Sys2Proof.Machine

variable {s u v : State} {n m t r b : Nat} {hard : Bool}

theorem wrap_8 {x : Nat} : wrap 8 x = x % 256 := rfl

theorem nodup_countFrom (lo k : Nat) : (countFrom lo k).Nodup := by
  induction k generalizing lo with
  | zero => exact List.nodup_nil
  | succ k ih =>
    refine List.nodup_cons.mpr ⟨fun h => ?_, ih (lo + 1)⟩
    have h := (mem_countFrom.mp h).1
    omega

/-! ### A core -/

/-- What a reset leaves of a core (R26). -/
def coreCleared (hard : Bool) (cyc : Nat) (c : Core) : Core :=
  { epoch := wrap 8 (c.epoch + 1), chScale := if hard then [] else c.chScale, frozen := c.frozen, cyc0 := cyc }

/-- A core's decisions and threads end without a change of any epoch; the core is then cleared, and its commands end with ABT. -/
theorem resetCore_form : ∃ w es y, resetCore hard s n = abortEntries (modCore w n (coreCleared hard y)) es ∧ EpochsKept s w := by
  unfold resetCore
  refine ⟨_, _, _, rfl, ?_⟩
  have own : EpochsKept s (if (getCore s n).decision.isSome then noMajority s n false else s) := by
    split
    · exact epochsKept_noMajority
    · exact .refl s
  generalize (if (getCore s n).decision.isSome then noMajority s n false else s) = s1 at own ⊢
  have rerun : EpochsKept s1 (match (getCore s1 n).rerun with
      | some o => noMajority s1 o false
      | none => s1) := by
    split
    · exact epochsKept_noMajority
    · exact .refl s1
  have threads {w : State} {ts : List (Nat × Thr)} : EpochsKept w (forEach ts (fun s t => idleThread s n t.1) w) :=
    epochsKept_forEach fun _ _ => epochsKept_idleThread
  have sends {w : State} {xs : List Send} : EpochsKept w { w with xf.sends := xs } := .of_parts rfl rfl rfl
  exact (own.trans rerun).trans (threads.trans sends)

/-- A reset of a core increments its epoch and no other. -/
theorem resetCore_epochs : (∀ m, (getCore (resetCore hard s n) m).epoch =
      if m = n then ((getCore s n).epoch + 1) % 256 else (getCore s m).epoch)
    ∧ (∀ r, (getPrs (resetCore hard s n) r).epoch = (getPrs s r).epoch) := by
  obtain ⟨w, es, y, e, hw⟩ := resetCore_form (hard := hard) (s := s) (n := n)
  have ended := epochsKept_abortEntries (s := modCore w n (coreCleared hard y)) (es := es)
  rw [e]
  refine ⟨fun m => ?_, fun r => (ended.prs r).trans (hw.prs r)⟩
  rw [ended.core, getCore_modCore_ite]
  split
  · show wrap 8 ((getCore w n).epoch + 1) = _
    rw [hw.core, wrap_8]
  · exact hw.core m

theorem coresKept_abortEntries {es : List (Nat × Nat)} : CoresKept s (abortEntries s es) := coresKept_forEach fun _ _ => coresKept_doneAdd

/-- A core that is reset holds no command. -/
theorem resetCore_queues : let c := getCore (resetCore hard s n) n
    c.acdQ = [] ∧ c.wcdQ = [] ∧ c.xferQ = [] ∧ c.acdRun = none := by
  obtain ⟨w, es, y, e, -⟩ := resetCore_form (hard := hard) (s := s) (n := n)
  have kept := coresKept_abortEntries (s := modCore w n (coreCleared hard y)) (es := es)
  have cleared : getCore (modCore w n (coreCleared hard y)) n = coreCleared hard y (getCore w n) := getCore_modCore ..
  rw [e]
  refine ⟨?_, ?_, ?_, ?_⟩
  · rw [kept.proj Core.acdQ fun _ => rfl, cleared]; rfl
  · rw [kept.proj Core.wcdQ fun _ => rfl, cleared]; rfl
  · rw [kept.proj Core.xferQ fun _ => rfl, cleared]; rfl
  · rw [kept.proj Core.acdRun fun _ => rfl, cleared]; rfl

/-- Resets of several cores increment the epoch of each of them. -/
theorem resetCores_epochs {ns : List Nat} (hn : ns.Nodup) :
    (∀ m, (getCore (forEach ns (resetCore hard) s) m).epoch =
      if m ∈ ns then ((getCore s m).epoch + 1) % 256 else (getCore s m).epoch)
    ∧ (∀ r, (getPrs (forEach ns (resetCore hard) s) r).epoch = (getPrs s r).epoch) := by
  induction ns generalizing s with
  | nil => exact ⟨fun m => (if_neg List.not_mem_nil).symm, fun _ => rfl⟩
  | cons n ns ih =>
    obtain ⟨hnot, hrest⟩ := List.nodup_cons.mp hn
    obtain ⟨ihc, ihp⟩ := ih (s := resetCore hard s n) hrest
    obtain ⟨hc, hp⟩ := resetCore_epochs (hard := hard) (s := s) (n := n)
    refine ⟨fun m => ?_, fun r => (ihp r).trans (hp r)⟩
    rw [forEach_cons, ihc, hc]
    by_cases e : m = n
    · subst e
      rw [if_neg hnot, if_pos rfl, if_pos (List.mem_cons_self ..)]
    · rw [if_neg e]
      exact if_congr (by rw [List.mem_cons, or_iff_right e]) rfl rfl

/-! ### A Press -/

/-- A Press that is reset holds no command, and its epoch is incremented; cores keep their epochs. -/
theorem resetPress_spec : (getPrs (resetPress s r) r).epoch = ((getPrs s r).epoch + 1) % 256 ∧ (getPrs (resetPress s r) r).q = []
    ∧ ∀ m, (getCore (resetPress s r) m).epoch = (getCore s m).epoch := by
  unfold resetPress
  dsimp only
  have kept {w : State} {es : List (Nat × Nat)} : (abortEntries w es).prs = w.prs := forEach_proj (π := State.prs) fun _ _ => doneAdd_prs
  refine ⟨?_, ?_, fun m => ?_⟩
  · rw [getPrs_of_prs kept, getPrs_modPrs, wrap_8]
  · rw [getPrs_of_prs kept, getPrs_modPrs]
  · exact epochsKept_abortEntries.core m

/-! ### A bank (R312) -/

theorem epochsKept_modSem {i : Nat} {f : Sem → Sem} : EpochsKept s (modSem s i f) := .of_parts rfl rfl rfl

theorem epochsKept_modBar {i : Nat} {f : Bar → Bar} : EpochsKept s (modBar s i f) := .of_parts rfl rfl rfl

/-- The waits on a bank end without a change of any epoch. -/
theorem epochsKept_abortWaits : EpochsKept s (abortWaits s b) :=
  epochsKept_forEach fun _ _ => epochsKept_waits.trans (epochsKept_unreserve.trans epochsKept_answer)

/-- All of a bank's reset after its epoch has been incremented leaves the epochs as they are. -/
theorem resetBank_form : EpochsKept
    { s with rc := if b = 0 then { s.rc with epoch0 := wrap 8 (s.rc.epoch0 + 1) } else { s.rc with epoch1 := wrap 8 (s.rc.epoch1 + 1) } }
    (resetBank s b) := by
  unfold resetBank
  generalize ({ s with rc := if b = 0 then { s.rc with epoch0 := wrap 8 (s.rc.epoch0 + 1) }
    else { s.rc with epoch1 := wrap 8 (s.rc.epoch1 + 1) } } : State) = w
  dsimp only
  refine (epochsKept_abortWaits (b := b)).trans ?_
  generalize abortWaits w b = v
  refine (epochsKept_forEach fun _ _ => epochsKept_modSem).trans ((epochsKept_forEach fun _ _ => epochsKept_modBar).trans
    ((epochsKept_forEach fun _ _ => epochsKept_modCtx).trans
      ((epochsKept_forEach fun y p => ?_).trans (epochsKept_forEach fun _ _ => epochsKept_setHold))))
  split
  · exact epochsKept_syncSend
  · exact .refl y

theorem resetBank_epoch0 : (resetBank s 0).rc.epoch0 = (s.rc.epoch0 + 1) % 256 := congrArg Prod.fst (resetBank_form (s := s) (b := 0)).rc

theorem resetBank_epoch1 : (resetBank s 1).rc.epoch1 = (s.rc.epoch1 + 1) % 256 := congrArg Prod.snd (resetBank_form (s := s) (b := 1)).rc

/-! ### The start of a reset (R597, R599) -/

/-- The reset is kept as the last of its unit; one of a die or a region runs until its quick BIST ends. -/
def resetBegun (k t : Nat) (s : State) : State :=
  let s := { s with mod.last := s.mod.last.filter (fun e => (e.kind, e.target) != (k, t)) ++ [{ kind := k, target := t, bell := beat s }] }
  if k = 3 ∨ k = 4 then
    { s with mod.running := s.mod.running.filter (fun r => !resetCovers (k, t) r) ++ [(k, t)] }
  else s

theorem resetBegun_parts {k : Nat} : (resetBegun k t s).core = s.core ∧ (resetBegun k t s).prs = s.prs ∧ (resetBegun k t s).rc = s.rc := by
  unfold resetBegun
  dsimp only
  split
  · exact ⟨rfl, rfl, rfl⟩
  · exact ⟨rfl, rfl, rfl⟩

theorem mem_running_resetBegun {k : Nat} (hk : k = 3 ∨ k = 4) : (k, t) ∈ (resetBegun k t s).mod.running := by
  unfold resetBegun
  dsimp only
  rw [if_pos hk]
  exact List.mem_append_right _ (List.mem_singleton_self _)

/-- The units of a region are reset with its Press (R34). -/
def regionReset (s : State) (t : Nat) : State :=
  resetPress (forEach (countFrom (64 * t) 64) (resetCore true) (abortPartitions s (8 * t) 8)) t

theorem startReset_region : startReset s 4 t = resetBegun 4 t (clearRegion (regionReset s t) t) := by
  unfold startReset regionReset
  simp only
  generalize clearRegion _ t = y
  unfold resetBegun
  rw [if_pos (Or.inr trivial), if_pos (Or.inr rfl)]

theorem startReset_core : startReset s 5 n = resetBegun 5 n (resetCore false s n) := rfl

theorem startReset_bank : startReset s 6 b = resetBegun 6 b (resetBank s b) := rfl

theorem regionReset_spec : (getPrs (regionReset s t) t).epoch = ((getPrs s t).epoch + 1) % 256 ∧ (getPrs (regionReset s t) t).q = []
    ∧ ∀ i, i < 64 → (getCore (regionReset s t) (64 * t + i)).epoch = ((getCore s (64 * t + i)).epoch + 1) % 256 := by
  have before := epochsKept_abortPartitions (s := s) (k := 8 * t) (m := 8)
  obtain ⟨cores, presses⟩ := resetCores_epochs (hard := true) (s := abortPartitions s (8 * t) 8) (nodup_countFrom (64 * t) 64)
  obtain ⟨epoch, q, core⟩ := resetPress_spec (s := forEach (countFrom (64 * t) 64) (resetCore true) (abortPartitions s (8 * t) 8)) (r := t)
  refine ⟨?_, q, fun i hi => ?_⟩
  · rw [regionReset, epoch, presses, before.prs]
  · rw [regionReset, core, cores, if_pos (mem_countFrom.mpr ⟨Nat.le_add_right .., Nat.add_lt_add_left hi _⟩), before.core]

theorem startReset_core_spec : let u := startReset s 5 n
    (getCore u n).epoch = ((getCore s n).epoch + 1) % 256 ∧ (getCore u n).acdQ = [] ∧ (getCore u n).wcdQ = []
    ∧ (getCore u n).xferQ = [] ∧ (getCore u n).acdRun = none := by
  have same : getCore (startReset s 5 n) n = getCore (resetCore false s n) n := by
    rw [startReset_core, getCore_of_core resetBegun_parts.1]
  obtain ⟨epochs, -⟩ := resetCore_epochs (hard := false) (s := s) (n := n)
  dsimp only
  rw [same]
  exact ⟨(epochs n).trans (if_pos rfl), resetCore_queues⟩

theorem startReset_region_spec : let u := startReset s 4 t
    (getPrs u t).epoch = ((getPrs s t).epoch + 1) % 256 ∧ (getPrs u t).q = [] ∧ (4, t) ∈ u.mod.running
    ∧ ∀ i, i < 64 → (getCore u (64 * t + i)).epoch = ((getCore s (64 * t + i)).epoch + 1) % 256 := by
  have cleared {w : State} : (clearRegion w t).core = w.core ∧ (clearRegion w t).prs = w.prs := ⟨rfl, rfl⟩
  obtain ⟨epoch, q, cores⟩ := regionReset_spec (s := s) (t := t)
  have core (m : Nat) : getCore (startReset s 4 t) m = getCore (regionReset s t) m := by
    rw [startReset_region, getCore_of_core resetBegun_parts.1, getCore_of_core cleared.1]
  have press : getPrs (startReset s 4 t) t = getPrs (regionReset s t) t := by
    rw [startReset_region, getPrs_of_prs resetBegun_parts.2.1, getPrs_of_prs cleared.2]
  have running : (4, t) ∈ (startReset s 4 t).mod.running := by
    rw [startReset_region]
    exact mem_running_resetBegun (.inr rfl)
  dsimp only
  rw [press]
  exact ⟨epoch, q, running, fun i hi => by rw [core, cores i hi]⟩

theorem startReset_bank_spec : (startReset s 6 0).rc.epoch0 = (s.rc.epoch0 + 1) % 256
    ∧ (startReset s 6 1).rc.epoch1 = (s.rc.epoch1 + 1) % 256 := by
  constructor
  · rw [startReset_bank, resetBegun_parts.2.2, resetBank_epoch0]
  · rw [startReset_bank, resetBegun_parts.2.2, resetBank_epoch1]

end Sys2Proof.Machine
end


section
/-! SUPPORT. Resets of some of the units: the rows of MOD_RST and the deferred start (R537, R597-R599, R610). -/

namespace Sys2Proof.Machine

variable {s u : State} {who : Req} {c : Instr} {k t n r : Nat} {x : StartUp} {d : RstDue}

/-! ### A write of MOD_RST (R598, R610) -/

/-- The word of a MOD_RST row holds its kind and target and no reserved bit. -/
theorem rstWord_fields (hk : k < 16) (ht : t < 1024) : bits (k * 65536 + t % 1024) 16 4 = k ∧ bits (k * 65536 + t % 1024) 0 10 = t
    ∧ bits (k * 65536 + t % 1024) 20 12 = 0 ∧ bits (k * 65536 + t % 1024) 10 6 = 0 := by
  simp only [bits, Nat.shiftRight_eq_div_pow]
  refine ⟨?_, ?_, ?_, ?_⟩ <;> omega

theorem rstTargetOk_lt (h3 : 3 ≤ k) (h : rstTargetOk k t = true) : t < 1024 := by
  unfold rstTargetOk at h
  split at h
  · omega
  · omega
  · exact Nat.lt_of_le_of_lt (of_decide_eq_true h) (by decide)
  · exact Nat.lt_trans (of_decide_eq_true h) (by decide)
  · exact of_decide_eq_true h
  · exact Nat.lt_trans (of_decide_eq_true h) (by decide)

theorem mayModRst_of_installer (h : isInstaller s who = true) : mayModRst s who = true := by rw [mayModRst, h, Bool.true_or]

theorem mayRst_of_installer (h : isInstaller s who = true) : mayRst s who k t = true := by rw [mayRst, h, Bool.true_or]

theorem mayModRst_of_mayRst (h : mayRst s who k t = true) : mayModRst s who = true := by
  unfold mayRst at h
  unfold mayModRst
  cases hi : isInstaller s who with
  | true => rfl
  | false =>
    cases ho : isOperator s who with
    | true => rfl
    | false =>
      rw [hi, ho] at h
      exact absurd h Bool.false_ne_true

/-- What an accepted write of MOD_RST asks for (R597, R610). -/
def rstAsked (s : State) (k t : Nat) : State :=
  match k with
  | 1 => askWhole s { cause := 2 }
  | 2 => askWhole s { cause := 3, warm := true }
  | 3 => if t = 4 then askWhole s { cause := 4 } else askReset s 3 t
  | _ => askReset s k t

/-- The word of a row is decoded; the requester's rights and the target are then checked. -/
theorem rstRow_eq (hm : mayModRst s who = true) (h1 : 1 ≤ k) (h6 : k ≤ 6) (ht : t < 1024) : rstRow s who k t =
    if !mayRst s who k t then rstAnswer s rsRole
    else if !rstTargetOk k t then rstAnswer s rsBadTarget
    else rstAsked s k t := by
  obtain ⟨kind, target, high, mid⟩ := rstWord_fields (k := k) (by omega) ht
  refine (if_pos hm).trans ?_
  unfold rstCmd
  dsimp only
  rw [kind, target, high, mid, if_neg (by omega)]
  rfl

/-- A row of a reset that its requester may not ask for is answered ROLE. -/
theorem rstRow_role (hm : mayModRst s who = true) (h1 : 1 ≤ k) (h6 : k ≤ 6) (ht : t < 1024) (h : mayRst s who k t = false) :
    rstRow s who k t = rstAnswer s 1 := by
  rw [rstRow_eq hm h1 h6 ht, h]
  rfl

/-- A row that its requester may write has what it asks for. -/
theorem rstRow_asked (hr : mayRst s who k t = true) (ho : rstTargetOk k t = true) (h1 : 1 ≤ k) (h6 : k ≤ 6) (ht : t < 1024) :
    rstRow s who k t = rstAsked s k t := by
  rw [rstRow_eq (mayModRst_of_mayRst hr) h1 h6 ht, hr, ho, Bool.not_true, if_neg Bool.false_ne_true, if_neg Bool.false_ne_true]

theorem rstRow_units (hr : mayRst s who k t = true) (ho : rstTargetOk k t = true) (h3 : 3 ≤ k) (h6 : k ≤ 6) (h4 : t ≠ 4 ∨ k ≠ 3) :
    rstRow s who k t = askReset s k t := by
  rw [rstRow_asked hr ho (by omega) h6 (rstTargetOk_lt h3 ho)]
  match k, h3, h4 with
  | 3, _, h4 => exact if_neg fun h => h4.elim (fun h' => h' h) fun h' => h' rfl
  | k + 4, _, _ => rfl

/-! ### Resets of units (R537, R599) -/

/-- The rows of the resets of some units. -/
theorem exec_rstRow (hc : (c, k) ∈ [(Instr.resetDie who t x, 3), (.resetRegion who t, 4), (.resetCore who t, 5), (.resetBank who t, 6)])
    (h4 : t ≠ 4 ∨ k ≠ 3) : exec c s = .next (rstRow s who k t) ∧ 3 ≤ k ∧ k ≤ 6 := by
  simp only [List.mem_cons, Prod.mk.injEq, List.not_mem_nil, or_false] at hc
  rcases hc with ⟨rfl, rfl⟩ | ⟨rfl, rfl⟩ | ⟨rfl, rfl⟩ | ⟨rfl, rfl⟩
  · exact ⟨congrArg Host.Outcome.next (if_neg (h4.resolve_right fun h => h rfl)), by decide, by decide⟩
  · exact ⟨rfl, by decide, by decide⟩
  · exact ⟨rfl, by decide, by decide⟩
  · exact ⟨rfl, by decide, by decide⟩

section
variable (hp : partsUp s = true) (hy : s.mod.ready = true) (hg : resetting s (k, t) = false)
include hp hy hg

theorem askReset_now (hd : deferUntil s k t ≤ beat s) : askReset s k t = rstAnswer (startReset s k t) 0 := by
  refine (if_neg ?_).trans ((if_neg ?_).trans (if_neg (not_lt.2 hd)))
  · rw [hp, hy]; exact Bool.false_ne_true
  · rw [hg]; exact Bool.false_ne_true

/-- The reset waits for its Bell. -/
theorem askReset_later (hd : beat s < deferUntil s k t) : askReset s k t = rstAnswer { s with
    mod.deferred := s.mod.deferred.filter (fun e => (e.kind, e.target) != (k, t)) ++ [{ kind := k, target := t, bell := deferUntil s k t }] } 3 := by
  refine (if_neg ?_).trans ((if_neg ?_).trans (if_pos hd))
  · rw [hp, hy]; exact Bool.false_ne_true
  · rw [hg]; exact Bool.false_ne_true

end

theorem unitRows (hc : (c, k) ∈ [(Instr.resetDie who t x, 3), (.resetRegion who t, 4), (.resetCore who t, 5), (.resetBank who t, 6)])
    (ho : rstTargetOk k t = true) (h4 : t ≠ 4 ∨ k ≠ 3) :
    (mayModRst s who = true → mayRst s who k t = false → Completes c s (fun u => u = rstAnswer s 1))
    ∧ (mayRst s who k t = true → partsUp s = true → s.mod.ready = true → resetting s (k, t) = false →
      (deferUntil s k t ≤ beat s → Completes c s (fun u => u = rstAnswer (startReset s k t) 0))
      ∧ (beat s < deferUntil s k t → Completes c s (fun u => u.mod.rstDone = true ∧ u.mod.rstStatus = 3 ∧ u.core = s.core
          ∧ { kind := k, target := t, bell := deferUntil s k t } ∈ u.mod.deferred ∧ u.mem = s.mem))) := by
  obtain ⟨hx, h3, h6⟩ := exec_rstRow (s := s) hc h4
  refine ⟨fun hm hr => .of_eq hx (rstRow_role hm (by omega) h6 (rstTargetOk_lt h3 ho) hr) rfl, fun hr hp hy hg => ?_⟩
  have row := rstRow_units hr ho h3 h6 h4
  refine ⟨fun hd => .of_eq hx (row.trans (askReset_now hp hy hg hd)) rfl, fun hd => ?_⟩
  exact .of_eq hx (row.trans (askReset_later hp hy hg hd)) ⟨rfl, rfl, rfl, List.mem_append_right _ (List.mem_singleton_self _), rfl⟩

/-- A deferred reset starts once its Bell has come (R537, R599). -/
theorem deferredStart {w : RstWait} (hf : s.mod.deferred.find? (fun e => (e.kind, e.target) == (k, t)) = some w) (hb : w.bell ≤ beat s)
    (hg : resetting s (k, t) = false) : Completes (.resetDeferredStart k t) s (fun u =>
      u = startReset { s with mod.deferred := s.mod.deferred.filter (fun e => (e.kind, e.target) != (k, t)) } k t) := by
  have stays : resetting { s with mod.deferred := s.mod.deferred.filter (fun e => (e.kind, e.target) != (k, t)) } (k, t) = false := hg
  refine .of_next (?_ : execResetDeferredStart k t s = .next _) rfl
  unfold execResetDeferredStart
  rw [hf]
  dsimp only
  rw [if_neg (not_lt.2 hb), stays, if_neg Bool.false_ne_true]

end Sys2Proof.Machine
end


section
/-! SUPPORT and proof of O60: resets of the whole module, the end of a unit's reset, and the settlement (R35, R494, R522, R597-R600). -/

namespace Sys2Proof.Machine

variable {s u : State} {who : Req} {c : Instr} {k t n r : Nat} {x : StartUp} {d : RstDue}

/-! ### Every epoch at a reset of the module (R537) -/

/-- A table of the entries of a list of numbers that are not the default reads as their function. -/
theorem tget_listed {α : Type} [DecidableEq α] {dflt : α} {f : Nat → α} {ns : List Nat} {m : Nat} (hm : m ∈ ns) :
    tget dflt ((ns.map (fun n => (n, f n))).filter (fun e => e.2 != dflt)) m = f m := by
  have unlisted (ks : List Nat) : tget dflt ((ks.map (fun n => (n, f n))).filter (fun e => e.2 != dflt)) m =
      if m ∈ ks then f m else dflt := by
    induction ks with
    | nil => rfl
    | cons k ks ih =>
      by_cases hk : f k = dflt
      · rw [List.map_cons, List.filter_cons_of_neg (by simp [hk]), ih]
        by_cases e : m = k
        · subst e
          rw [hk, ite_self, ite_self]
        · exact if_congr (by rw [List.mem_cons, or_iff_right e]) rfl rfl
      · rw [List.map_cons, List.filter_cons_of_pos (by simp [hk]), tget_cons]
        by_cases e : k = m
        · subst e
          rw [if_pos rfl, if_pos (List.mem_cons_self ..)]
        · rw [if_neg e, ih]
          exact if_congr (by rw [List.mem_cons, or_iff_right (Ne.symm e)]) rfl rfl
  rw [unlisted, if_pos hm]

theorem nextEpochs_core (hn : n < 1024) : (getCore (nextEpochs s u) n).epoch = ((getCore s n).epoch + 1) % 256 := by
  have h : getCore (nextEpochs s u) n = { epoch := wrap 8 ((getCore s n).epoch + 1) } :=
    tget_listed (mem_countFrom.mpr ⟨Nat.zero_le _, by omega⟩)
  rw [h, wrap_8]

theorem nextEpochs_prs (hr : r < 16) : (getPrs (nextEpochs s u) r).epoch = ((getPrs s r).epoch + 1) % 256 := by
  have h : getPrs (nextEpochs s u) r = { epoch := wrap 8 ((getPrs s r).epoch + 1) } :=
    tget_listed (mem_countFrom.mpr ⟨Nat.zero_le _, by omega⟩)
  rw [h, wrap_8]

/-! ### A reset of the module (R594, R597) -/

/-- What the boot ROM starts from at a reset of a module that is up. -/
def resetBase (s : State) (d : RstDue) : State := nextEpochs s { bareState s with mod := { powered := true, cause := d.cause } }

theorem moduleReset_eq (hw : s.mod.shutdown = false) : moduleReset s x d = startUp (resetBase s d) x false d.recovery := by
  unfold moduleReset
  rw [hw]
  rfl

theorem resetBase_parts : (resetBase s d).fuse = s.fuse ∧ (resetBase s d).flash = s.flash ∧ (resetBase s d).led = s.led
    ∧ (resetBase s d).pending = s.pending ∧ (resetBase s d).mem = [] ∧ (resetBase s d).mod = { powered := true, cause := d.cause } :=
  ⟨rfl, rfl, rfl, rfl, rfl, rfl⟩

theorem flashImage_resetBase : flashImage (resetBase s d) = flashImage s := rfl

theorem fwOk_resetBase {img : List Byte} : fwOk (resetBase s d) img = fwOk s img := rfl

/-- Without sound firmware, or where RECOVERY is asked for, the reset ends in RECOVERY at step 2 (R522, R595). -/
theorem moduleReset_stuck (hw : s.mod.shutdown = false) (hl : s.fuse.lc ≠ .scrapped)
    (hr : d.recovery = true ∨ fwOk s (flashImage s) = false) : moduleReset s x d = stuck (startBoot (resetBase s d) x) 2 := by
  rw [moduleReset_eq hw]
  refine startUp_stuck hl ?_
  rw [flashImage_resetBase, fwOk_resetBase]
  exact hr

/-- What a module that the boot ROM leaves in RECOVERY holds. -/
theorem stuckReset_spec (hu : u = stuck (startBoot (resetBase s d) x) 2) : u.mod.recovery = true ∧ u.mod.cause = d.cause ∧ u.mod.step = 2
    ∧ u.mod.ready = false ∧ u.mem = [] ∧ u.pending = s.pending ∧ u.led.seq = s.led.seq ∧ u.core = (resetBase s d).core
    ∧ u.prs = (resetBase s d).prs ∧ u.rc = (resetBase s d).rc := by
  have booted := booted_startBoot (s := resetBase s d) (x := x)
  obtain ⟨mem, core, prs, rc, -, pending, -⟩ := booted.parts
  obtain ⟨-, -, led, pend, empty, mod⟩ := resetBase_parts (s := s) (d := d)
  have kept {w : State} : (stuck w 2).mod = { w.mod with recovery := true, step := 2 } ∧ (stuck w 2).mem = w.mem
      ∧ (stuck w 2).pending = w.pending ∧ (stuck w 2).led = w.led ∧ (stuck w 2).core = w.core ∧ (stuck w 2).prs = w.prs
      ∧ (stuck w 2).rc = w.rc := ⟨rfl, rfl, rfl, rfl, rfl, rfl, rfl⟩
  obtain ⟨smod, smem, spend, sled, score, sprs, src⟩ := kept (w := startBoot (resetBase s d) x)
  rw [hu, smod, smem, spend, sled, score, sprs, src, booted.mod, mod, mem, empty, pending, pend, booted.seq, led, core, prs, rc]
  exact ⟨rfl, rfl, rfl, rfl, rfl, rfl, rfl, rfl, rfl, rfl⟩

theorem moduleReset_recovers (hw : s.mod.shutdown = false) (hl : s.fuse.lc ≠ .scrapped) (hf : fwOk s (flashImage s) = false) :
    let u := moduleReset s x d
    u.mod.recovery = true ∧ u.mod.cause = d.cause ∧ u.mem = [] ∧ u.pending = s.pending
    ∧ (∀ n, n < 1024 → (getCore u n).epoch = ((getCore s n).epoch + 1) % 256)
    ∧ (∀ r, r < 16 → (getPrs u r).epoch = ((getPrs s r).epoch + 1) % 256)
    ∧ u.rc.epoch0 = (s.rc.epoch0 + 1) % 256 ∧ u.rc.epoch1 = (s.rc.epoch1 + 1) % 256 := by
  obtain ⟨recovery, cause, -, -, mem, pending, -, core, prs, rc⟩ := stuckReset_spec (moduleReset_stuck (x := x) hw hl (.inr hf))
  have banks : (resetBase s d).rc.epoch0 = wrap 8 (s.rc.epoch0 + 1) ∧ (resetBase s d).rc.epoch1 = wrap 8 (s.rc.epoch1 + 1) := ⟨rfl, rfl⟩
  refine ⟨recovery, cause, mem, pending, fun n hn => ?_, fun r hr => ?_, ?_, ?_⟩
  · rw [getCore_of_core core]
    exact nextEpochs_core hn
  · rw [getPrs_of_prs prs]
    exact nextEpochs_prs hr
  · rw [rc, banks.1, wrap_8]
  · rw [rc, banks.2, wrap_8]

/-! ### Resets of the whole module that are asked for (R592, R598) -/

theorem askWhole_up (hw : s.mod.shutdown = false) : askWhole s d = rstAnswer { s with mod.due := some d } 0 := by
  refine (if_neg ?_).trans (if_neg ?_)
  · rw [hw]; exact Bool.false_ne_true
  · rw [hw]; exact Bool.false_ne_true

section
variable {f : RstDue → Bool} (hd : u.mod.due = some d) (hf : f d = true) (hl : u.mod.resetLow = false) (hw : u.mod.shutdown = false)
include hd hf hl hw

/-- The reset that is due starts. -/
theorem startDue_up : startDue u x f = if d.warm then warmReset u x else moduleReset u x d := by
  unfold startDue
  rw [hd]
  dsimp only
  have cause : restartCause u d.cause = d.cause := if_neg (by rw [hw]; exact Bool.false_ne_true)
  rw [hf, hl, hw, cause]
  rfl

end

/-- What is asked for and answered does not change what the reset leaves. -/
theorem moduleReset_answered {o : Option RstDue} {st : Nat} : moduleReset (rstAnswer { s with mod.due := o } st) x d = moduleReset s x d := rfl

section
variable (hi : isInstaller s who = true) (hn : s.mod.due = none) (hw : s.mod.shutdown = false) (hl : s.mod.resetLow = false)
include hi hn hw hl

/-- A row of a reset of the whole module: asked for by an installer, it starts at once. -/
theorem wholeRow_up {f : RstDue → Bool} (h1 : 1 ≤ k) (h6 : k ≤ 6) (ht : t < 1024) (ho : rstTargetOk k t = true)
    (ha : rstAsked s k t = askWhole s d) (hf : f d = true) : wholeRow s who k t x f =
      if d.warm then warmReset (rstAnswer { s with mod.due := some d } 0) x else moduleReset s x d := by
  have row : wholeRow s who k t x f = startDue (rstRow s who k t) x f := by
    unfold wholeRow
    rw [hn]
    rfl
  rw [row, rstRow_asked (mayRst_of_installer hi) ho h1 h6 ht, ha, askWhole_up hw,
    startDue_up (u := rstAnswer { s with mod.due := some d } 0) rfl hf hl hw, moduleReset_answered]

theorem resetModule_up : Completes (.resetModule who x) s (fun u => u = moduleReset s x { cause := 2 }) := by
  have row := wholeRow_up (x := x) (k := 1) (t := 0) (d := { cause := 2 }) (f := fun d => d.cause == 2 && !d.warm) hi hn hw hl
    (by decide) (by decide) (by decide) rfl rfl rfl
  exact .of_eq (v := wholeRow s who 1 0 x (fun d => d.cause == 2 && !d.warm)) rfl row rfl

theorem resetDie_up : Completes (.resetDie who 4 x) s (fun u => u = moduleReset s x { cause := 4 }) := by
  have row := wholeRow_up (x := x) (k := 3) (t := 4) (d := { cause := 4 }) (f := fun d => d.cause == 4) hi hn hw hl
    (by decide) (by decide) (by decide) rfl rfl rfl
  exact .of_eq (v := wholeRow s who 3 4 x (fun d => d.cause == 4)) rfl row rfl

theorem resetWarm_up : Completes (.resetWarm who x) s
    (fun u => u = warmReset (rstAnswer { s with mod.due := some { cause := 3, warm := true } } 0) x) := by
  have row := wholeRow_up (x := x) (k := 2) (t := 0) (d := { cause := 3, warm := true }) (f := fun d => d.warm) hi hn hw hl
    (by decide) (by decide) (by decide) rfl rfl rfl
  exact .of_eq (v := wholeRow s who 2 0 x (fun d => d.warm)) rfl row rfl

end

/-! ### The reset into RECOVERY (R522) -/

/-- The state in which an accepted LCS_RECOVER leaves the reset due. -/
def recoverAsked (s : State) (who : Req) : State :=
  lcsAnswer (journalFor { s with mod.due := some { cause := 5, recovery := true } } who { action := 0x13 }) lcOk

theorem recoverAsked_spec : (recoverAsked s who).mod = { s.mod with due := some { cause := 5, recovery := true } }
    ∧ (recoverAsked s who).fuse = s.fuse ∧ (recoverAsked s who).led.seq = s.led.seq + 1 := by
  have kept := journalFor_kept (r := who) (e := { action := 0x13 })
    (Kept.refl [.mc, .int, .ptn, .ctx, .led, .lcs, .i3c] { s with mod.due := some { cause := 5, recovery := true } }) (Within.refl _)
  have answered {w : State} : (lcsAnswer w lcOk).mod = w.mod ∧ (lcsAnswer w lcOk).fuse = w.fuse ∧ (lcsAnswer w lcOk).led = w.led :=
    ⟨rfl, rfl, rfl⟩
  unfold recoverAsked
  rw [answered.1, answered.2.1, answered.2.2]
  exact ⟨kept.rest .mod (by decide), kept.rest .fuse (by decide), journalFor_spec.1⟩

theorem lcsRow_recover (hi : isInstaller s who = true) (hj : journalRoom s = true) : lcsRow s who 7 true = recoverAsked s who := by
  have op : lcsOp s who 7 true = (journalFor { s with mod.due := some { cause := 5, recovery := true } } who { action := 0x13 }, lcOk) := by
    refine (?_ : lcsOp s who 7 true = recoverOp s who).trans ((if_neg ?_).trans (if_neg ?_))
    · rfl
    · rw [hi]; exact Bool.false_ne_true
    · rw [hj]; exact Bool.false_ne_true
  have may : mayCommand s who = true := by
    unfold isInstaller at hi
    rw [mayCommand, eq_of_beq hi]
    rfl
  refine (if_pos may).trans ?_
  unfold lcsCmd
  rw [op]
  rfl

theorem lcsRecover_up (hi : isInstaller s who = true) (hn : s.mod.due = none) (hw : s.mod.shutdown = false) (hl : s.mod.resetLow = false)
    (hj : journalRoom s = true) (hs : s.fuse.lc ≠ .scrapped) : Completes (.lcsRecover who x) s (fun u => u.mod.recovery = true
        ∧ u.mod.step = 2 ∧ u.mod.cause = 5 ∧ u.mod.ready = false ∧ u.led.seq = s.led.seq + 1 ∧ u.mem = []) := by
  obtain ⟨mod, fuse, seq⟩ := recoverAsked_spec (s := s) (who := who)
  have row : execLcsRecover who x s = .next (startDue (recoverAsked s who) x (fun d => d.cause == 5)) := by
    unfold execLcsRecover
    rw [hn]
    dsimp only
    rw [if_neg Bool.false_ne_true, lcsRow_recover hi hj]
  have starts : startDue (recoverAsked s who) x (fun d => d.cause == 5) =
      moduleReset (recoverAsked s who) x { cause := 5, recovery := true } :=
    startDue_up (d := { cause := 5, recovery := true }) (by rw [mod]) rfl (by rw [mod]; exact hl) (by rw [mod]; exact hw)
  have stuck := moduleReset_stuck (s := recoverAsked s who) (x := x) (d := { cause := 5, recovery := true })
    (by rw [mod]; exact hw) (by rw [fuse]; exact hs) (.inl rfl)
  obtain ⟨recovery, cause, step, ready, mem, -, led, -⟩ := stuckReset_spec stuck
  exact .of_eq row starts ⟨recovery, step, cause, ready, led.trans seq, mem⟩

/-! ### The end of a unit's reset (R35, R597) -/

theorem testResults_none : (testResults 1 s []).1 = { s with tst.unrepaired := s.tst.unrepaired || false } := rfl

/-- The reset runs no longer. -/
def resetOver (s : State) (k t : Nat) : State :=
  { s with mod.running := s.mod.running.filter (· != (k, t)), tst.run := wrap 32 (s.tst.run + 1) }

section
variable (hr : s.mod.running.contains (k, t) = true)
include hr

theorem resetEnds (hx : (k, t) ≠ (3, 5)) : Completes (.resetComplete k t []) s (fun u =>
    u.mod.running = s.mod.running.filter (· != (k, t)) ∧ u.core = s.core ∧ u.mem = s.mem) := by
  have ends : execResetComplete k t [] s = .next (testResults 1 (resetOver s k t) []).1 := by
    unfold execResetComplete
    rw [hr, Bool.not_true, if_neg Bool.false_ne_true]
    dsimp only
    rw [if_neg hx, if_neg hx]
    rfl
  exact .of_eq ends testResults_none ⟨rfl, rfl, rfl⟩

end

/-- X-die 1 is READY again: its failed ports and channels are found anew. -/
def xdieOver (s : State) : State :=
  let w := resetOver s 3 5
  { w with tst.deadPorts := w.tst.deadPorts.filter (· < 4), tst.deadChannels := [] }

/-- The ports of X-die 1 that have not failed are dark. -/
def xdieLit (s : State) : State :=
  forEach (([4, 5, 6, 7] : List Nat).filter (fun p => !s.tst.deadPorts.contains p)) (fun s p => modFab s p (fun q => { q with pstate := .dark })) s

/-- The partitions that X-die 1 had held are held by it no longer (R399). -/
def xdieFreed (s : State) : State :=
  forEach (tkeys s.ptn) (fun s p => if bitOf (getPtn s p).holdCause causeXdie1 && !usesDead s p then clearHold s p (2 ^ causeXdie1) else s) s

theorem xdieFreed_parts : (xdieFreed s).mod = s.mod ∧ (xdieFreed s).tst = s.tst ∧ (xdieFreed s).fab = s.fab := by
  refine forEach_keeps (P := fun w => w.mod = s.mod ∧ w.tst = s.tst ∧ w.fab = s.fab) ⟨rfl, rfl, rfl⟩ fun w p _ h => ?_
  split
  · have kept := clearHold_kept (p := p) (mask := 2 ^ causeXdie1) (Kept.refl [.mc, .core, .int, .rc, .ptn, .ctx, .i3c] w) (Within.refl _)
    exact ⟨Eq.trans (kept.rest .mod (by decide)) h.1, Eq.trans (kept.rest .tst (by decide)) h.2.1, Eq.trans (kept.rest .fab (by decide)) h.2.2⟩
  · exact h

theorem xdieLit_parts : (xdieLit s).mod = s.mod ∧ (xdieLit s).tst = s.tst :=
  forEach_keeps (P := fun w => w.mod = s.mod ∧ w.tst = s.tst) ⟨rfl, rfl⟩ fun _ _ _ h => h

theorem forEach_modFab_dark {qs : List Nat} {p : Nat} (hp : p ∈ qs) :
    (fabPort (forEach qs (fun s q => modFab s q (fun y => { y with pstate := .dark })) s) p).pstate = .dark := by
  induction qs generalizing s with
  | nil => exact absurd hp List.not_mem_nil
  | cons q qs ih =>
    rcases List.mem_cons.mp hp with rfl | h
    · rw [forEach_cons]
      refine forEach_keeps (P := fun w => (fabPort w p).pstate = .dark) (by rw [fabPort_modFab]) fun w q _ hw => ?_
      rw [fabPort_modFab_ite]
      split
      · rfl
      · exact hw
    · exact ih h

theorem xdieLit_dark {p : Nat} (hs : s.tst.deadPorts.all (· < 4) = true) (h4 : 4 ≤ p) (h8 : p < 8) : (fabPort (xdieLit s) p).pstate = .dark := by
  have sound : ([4, 5, 6, 7] : List Nat).filter (fun p => !s.tst.deadPorts.contains p) = [4, 5, 6, 7] := by
    refine List.filter_eq_self.mpr fun q hq => ?_
    have hq4 : 4 ≤ q := by
      fin_cases hq <;> decide
    have absent : q ∉ s.tst.deadPorts := fun h => absurd (of_decide_eq_true (List.all_eq_true.mp hs q h)) (by omega)
    simpa using absent
  have hp : p ∈ ([4, 5, 6, 7] : List Nat) := by
    interval_cases p <;> decide
  unfold xdieLit
  rw [sound]
  exact forEach_modFab_dark hp

theorem xdieEnds (hr : s.mod.running.contains (3, 5) = true) : Completes (.resetComplete 3 5 []) s (fun u =>
    u.mod.running = s.mod.running.filter (· != (3, 5)) ∧ u.tst.deadChannels = [] ∧ ∀ p, 4 ≤ p → p < 8 → (fabPort u p).pstate = .dark) := by
  have ends : execResetComplete 3 5 [] s = .next (xdieFreed (xdieLit (testResults 1 (xdieOver s) []).1)) := by
    unfold execResetComplete
    rw [hr, Bool.not_true, if_neg Bool.false_ne_true]
    rfl
  obtain ⟨fmod, ftst, ffab⟩ := xdieFreed_parts (s := xdieLit (testResults 1 (xdieOver s) []).1)
  obtain ⟨lmod, ltst⟩ := xdieLit_parts (s := (testResults 1 (xdieOver s) []).1)
  refine .of_next ends ⟨?_, ?_, fun p h4 h8 => ?_⟩
  · rw [fmod, lmod]; rfl
  · rw [ftst, ltst]; rfl
  · have port : fabPort (xdieFreed (xdieLit (testResults 1 (xdieOver s) []).1)) p = fabPort (xdieLit (testResults 1 (xdieOver s) []).1) p := by
      rw [fabPort, ffab, fabPort]
    rw [port]
    refine xdieLit_dark ?_ h4 h8
    have sound : (testResults 1 (xdieOver s) []).1.tst.deadPorts = s.tst.deadPorts.filter (· < 4) := rfl
    rw [sound]
    exact List.all_eq_true.mpr fun q hq => (List.mem_filter.mp hq).2

/-- Settles O60: a reset of the module boots from a state whose epochs are all incremented; a row of MOD_RST answers ROLE, starts or is
deferred; nothing that a unit's reset does beside its own increment touches an epoch. -/
theorem resets : Obligations.Resets := by
  refine ⟨fun s who x hi hn hw hl => ⟨resetModule_up hi hn hw hl, resetDie_up hi hn hw hl, resetWarm_up hi hn hw hl,
    fun hj hs => lcsRecover_up hi hn hw hl hj hs⟩, fun s x hd hw hl => ?_, fun s x d hw hl hf => moduleReset_recovers hw hl hf,
    fun s who c k t x hc ho h4 => unitRows hc ho h4,
    fun s t => ⟨fun n _ => startReset_core_spec, fun _ => startReset_region_spec, startReset_bank_spec⟩,
    fun s k t w hf hb hg => deferredStart hf hb hg, fun s k t hr => ⟨fun hx => resetEnds hr hx, fun hx => ?_⟩⟩
  · exact .of_eq (v := startDue s x (fun d => d.cause == 6)) rfl (startDue_up hd rfl hl hw) rfl
  · obtain ⟨rfl, rfl⟩ := Prod.mk.inj hx
    exact xdieEnds hr

end Sys2Proof.Machine
end


section
/-! SUPPORT and refutation of O16: an array command that waits is tried again (R119, R173, R187). -/

namespace Sys2Proof.Machine

/-! ### A command that completes -/

/-- The global address of a byte of this module's HBM (R339). -/
def hbmHere (o : Nat) : Nat := hereAddr (addrOf (.hbm, o))

/-- COLSUM_BUILD of the tile at 0x10000 of HBM, its sums to 0x20000 and their CRC to 0x20100, without a DONE semaphore. -/
def colsumEntry : QEntry where
  desc := withCrcTail (leBytes 4 6 ++ leBytes 4 0x103 ++ leBytes 8 (hbmHere 0x10000) ++ leBytes 8 0 ++ leBytes 8 (hbmHere 0x20100)
    ++ leBytes 8 0 ++ leBytes 8 (hbmHere 0x20000) ++ leBytes 8 0 ++ leBytes 4 0xFFFF ++ leBytes 4 0) 60
  issuer := { mmode := true, ptn := 3 }

/-- A base tile of one row with the codes 1 and 2, with its CRC. -/
def colsumTile : List Byte := leBytes 4 1 ++ leBytes 2 1 ++ leBytes 2 2 ++ List.replicate 52 0 ++ leBytes 4 0x13252873
  ++ List.replicate 256 0 ++ [0x21]

/-- The window of the partition: the first 1 MiB of HBM, with every right. -/
def hbmWin : Win := { type := .shared, mem := .hbm, rights := 0x3F, key := .partition, base := 0, size := 2 ^ 20 }

/-- Core 0 of the ACTIVE partition 3 waits for the join buffer with the command; its entry in the table of cores follows that of
core 5. -/
def coresOutOfOrder : State where
  core := [(5, {}), (0, { acdRun := some colsumEntry, acdWait := .join })]
  ptn := [(3, { state := .active, syl := some { clusters := 1, wins := [hbmWin] } })]
  syl := { module := some { grants := [{ ptn := 3, hbmSize := 2 ^ 30, clusters := 1 }] } }
  mem := tsplice memDefault [] (addrOf (.hbm, 0x10000)) colsumTile

set_option maxRecDepth 100000 in
theorem runAcd_coresOutOfOrder : (runAcd coresOutOfOrder {} colsumEntry none).2 = .done
    ∧ (runAcd coresOutOfOrder {} colsumEntry none).1.core = coresOutOfOrder.core := by decide +kernel

/-- The command runs no longer. -/
def runCleared (c : Core) : Core := { c with acdRun := none, acdWait := .none }

/-- LASTOP shows the OP of COLSUM_BUILD. -/
def opShown (c : Core) : Core := { c with lastOp := bits (descWord colsumEntry.desc 0) 0 8 }

/-- Core 0 without its command is like a core that was never used, so that its entry leaves the table and comes again in its place by
number; changed in one step it keeps its place. -/
theorem cores_twoSteps : tmod default (tmod default coresOutOfOrder.core 0 runCleared) 0 opShown ≠
    tmod default coresOutOfOrder.core 0 (fun c => opShown (runCleared c)) := by
  intro h
  have keys := congrArg (List.map Prod.fst) h
  exact absurd keys (by decide +kernel)

theorem doneAdd_colsum {s : State} {p : Nat} {flag : DoneFlag} : doneAdd s p (bits (descWord colsumEntry.desc 14) 0 16) flag = s :=
  if_pos (by decide +kernel)

/-- The model ends the command in two steps. -/
theorem endAcd_colsum {s : State} : (endAcd 0 colsumEntry (s, .done)).core = tmod default (tmod default s.core 0 runCleared) 0 opShown := by
  unfold endAcd
  dsimp only
  rw [doneAdd_colsum]
  rfl

theorem exec_joinBufferReady {s : State} {n : Nat} {up : ArrayUpset} {e : QEntry} (hw : (getCore s n).acdWait = .join)
    (he : (getCore s n).acdRun = some e) : exec (.joinBufferReady n false up) s = .next (endAcd n e (runAcd s up e none)) := by
  refine (?_ : execJoinBufferReady n false up s = _)
  unfold execJoinBufferReady retryAcd
  dsimp only
  rw [if_neg Bool.false_ne_true, if_pos hw, he]

/-- Refutes O16: where a core's entry holds nothing but its command and stands out of its place in the table of cores, clearing the
command and showing its OP in one step gives another table than the model's two steps. -/
theorem not_arrayWaitsEnd : ¬ Obligations.ArrayWaitsEnd := by
  intro h
  obtain ⟨-, -, join, -⟩ := h coresOutOfOrder 0 {}
  obtain ⟨done, core⟩ := runAcd_coresOutOfOrder
  obtain ⟨u, hx, hu⟩ := join colsumEntry rfl rfl done
  have ended : u = endAcd 0 colsumEntry (runAcd coresOutOfOrder {} colsumEntry none) :=
    Host.Outcome.next.inj (hx.symm.trans (exec_joinBufferReady rfl rfl))
  generalize runAcd coresOutOfOrder {} colsumEntry none = r at *
  obtain ⟨v, x⟩ := r
  subst done
  refine cores_twoSteps ?_
  dsimp only at hu core
  rw [← core, ← endAcd_colsum, ← ended, hu, doneAdd_colsum]
  rfl

end Sys2Proof.Machine
end
